-- ==== Sys2Proof/Word.lean ====
section
/-! DEFINITION. Byte, the byte strings of the dictionary, messages and frames, and their plainest arithmetic.

Numbers the manual counts or adds are `Nat` or `Int`. A dictionary value is the `Nat` whose little-endian bytes the
entry holds (R18); its width is the entry's type (R6). -/

namespace Sys2Proof

/-- One byte of a message, a frame, a STR or a BLOB. -/
abbrev Byte := BitVec 8

/-- A byte string. -/
abbrev Bytes := List Byte

/-- A binary32 value as its bit pattern (R6), a number below 2^32. -/
abbrev F32 := Nat

/-- The byte with value n modulo 256. -/
def byte (n : Nat) : Byte := BitVec.ofNat 8 n

end Sys2Proof
end

