-- ==== Sys2Proof/Syntax.lean ====
section
/-! DEFINITION. The commands: one constructor per row of the opcode table. A command that is a host's operation carries
the host number, the instance and the data bytes; an event carries what the outside shows the block at that event. -/

namespace Sys2Proof

/-- Fields of a Yexel operation (Table 15.5) but its opcode. -/
structure OpFields where
  flags : Nat
  idx : Nat
  sub : Nat
  rsv : Nat
  inst : Nat
  data : Bytes
  deriving DecidableEq, Repr

/-- Where a Yexel message came from, and where its answer goes (R406, R419): transport 0 to 5 is a MAC and 6 the host
SPI port; for a MAC the IPv4 address and UDP port of the sender, and the UDP port that the message was sent to. -/
structure Source where
  transport : Nat
  addr : Nat
  port : Nat
  dport : Nat
  deriving DecidableEq, Repr

/-- A value of the correction engine whose read is uncorrectable (R133). `chain` is 0 for the chain of the set in force and
1 + i for the chain of Graft i of those that the chain has not passed. -/
inductive CorrWord
  /-- s1 (false) or s2 (true) of a biquad. -/
  | biquad (chain i : Nat) (second : Bool)
  /-- Head coefficient h(i). -/
  | head (chain i : Nat)
  /-- Sample x2(t − i) of the head. -/
  | history (chain i : Nat)
  /-- Value of the tail. -/
  | tail (chain : Nat)
  /-- Sample x5(k + i) of the limiter. -/
  | look (i : Nat)
  /-- Limiter gain g. -/
  | gain
  /-- Burst of the bulk-delay history, read for the delay that a cross-fade leaves (true) or for the one in force. -/
  | burst (old : Bool)
  deriving DecidableEq, Repr

/-- A faulty word of the chain of an output. -/
structure CorrFault where
  out : Nat
  word : CorrWord
  deriving DecidableEq, Repr

/-- A tail spectrum, with its input spectrum, whose read is uncorrectable (R133): the output, its chain as in CorrWord, the
partition. -/
structure SpectrumFault where
  out : Nat
  chain : Nat
  part : Nat
  /-- It came after its deadline and was delivered as poisoned (R397), rather than uncorrectable. -/
  late : Bool
  deriving DecidableEq, Repr

/-- An uncorrectable word of a chain's memory (R343): a sample of a kernel's input buffer, or of an output buffer that it has
written; a word of its parameters or a constant of its own in X memory; a word of its state in Y memory, a scalar or an element
of a list; or a word that a stage of a transform of the run reads, a real part in X or an imaginary one in Y memory (R331). -/
inductive PoolWord
  | sample (input i : Nat)
  | out (output i : Nat)
  | par (word : Nat)
  | const (i : Nat)
  | scalar (i : Nat)
  | elem (list i : Nat)
  | work (transform stage i : Nat) (imaginary : Bool)
  deriving DecidableEq, Repr

/-- A read of a chain's memory that is uncorrectable (R343): the kernel, the word, the word's offset in the core's X or Y
memory, and whether the core is the odd one of a pair. -/
structure PoolFault where
  kern : Nat
  word : PoolWord
  off : Nat
  odd : Bool
  deriving DecidableEq, Repr

/-- A read of a pending keyframe in the keyframe cache that is uncorrectable (R380): the object, the keyframe's effective time,
the word in the cache, and, where the store's copy is uncorrectable too, that copy's DRAM offset (R386). -/
structure CacheFault where
  obj : Nat
  time : Nat
  word : Nat
  store : Option Nat
  deriving DecidableEq, Repr

/-- A word of an SRAM region that a read finds in error (R378, R379): the region, the word's offset in it, the bits of its
codeword that stand wrong, and the syndrome as the decoder reports it, whose code the manual leaves open. -/
structure SramHit where
  region : Nat
  word : Nat
  mask : Nat
  syn : Nat
  deriving DecidableEq, Repr

/-- What a master reads DRAM for (R386, R397): a burst of the bulk-delay history of an output, for the delay that a cross-fade
leaves (true) or for the one in force; a pending keyframe of an object; frame i of receive ring r; or anything else. -/
inductive BusUse
  | other
  | bulk (out : Nat) (old : Bool)
  | keyframe (obj time : Nat)
  | ring (r i : Nat)
  deriving DecidableEq, Repr

/-- A request of a master to the bus matrix (R370 to R375, R385, R397): master, counter at its arrival, byte address, beats, the
bytes of a write where its strobes are on (none: a read), whether it belongs to the urgent phase and whether it begins a locked
sequence, the counter by which its consumer needs the data, the symbols in error that it meets in DRAM codewords and the words in
error that it meets in the SRAM of its target, and what its data are for. -/
structure BusReq where
  master : Nat
  at_ : Nat
  addr : Nat
  beats : Nat
  data : Option (List (Option Byte))
  urgent : Bool
  lock : Bool
  deadline : Option Nat
  bad : List (Nat × List Nat)
  sram : List SramHit
  use : BusUse
  deriving DecidableEq, Repr

/-- What the outside shows in one Domain A period: per PDM lane the levels of PDM_DATl at the rising and at the falling edge
of its clock, for every clock cycle of the period, oldest first (R298, R301); cells of the cell pool whose read is uncorrectable
(R210), by receive stream; words of correction coefficients and state whose read is uncorrectable (R133); the levels of FAULT0_N
to FAULT2_N at its start, bit g set while FAULTg_N is high (Table 10.10); what the masters asked of the bus matrix,
in order of arrival (R370); and words in error that reads through the private ports and by the engines find (R379). -/
structure PeriodIn where
  pdm : List (Nat × List (Bool × Bool))
  badCells : List Nat
  badState : List CorrFault
  faultHigh : Nat
  bus : List BusReq
  sram : List SramHit
  deriving DecidableEq, Repr

/-- A serial frame as received (R168, R172, R175): the levels of DIN at the rising and at the falling BCLK edges from the
frame's active edge on, the number of BCLK cycles and the ps between its active edge and the next, and whether it completes
in the core clock cycle of the fabric's last pop. -/
structure FrameIn where
  rising : List Bool
  falling : List Bool
  bclks : Nat
  length : Nat
  sameCycle : Bool
  deriving DecidableEq, Repr

/-- What a path monitor finds (R480): its number and its delay in ps. -/
structure PathDelay where
  monitor : Nat
  delay : F32
  deriving DecidableEq, Repr

/-- What a boot finds outside and in itself (R457, R465, R466): strap levels, measured supplies in V, VDD_IO0 to VDD_IO2 at 8 to 10,
and die temperature in °C, the stage at which the boot fails (none: it completes), the margins of the DRAM lanes in ps and mV,
and what of the MRAM is invalid: bits 0 and 1 the Leaves (R438), bits 2 and 3 the copies of the system area (R468). -/
structure BootIn where
  mode : Nat
  refclk : Bool
  vreqEn : Bool
  wdtEn : Bool
  supplies : List F32
  temp : F32
  failAt : Option Nat
  timing : List F32
  voltage : List F32
  mramBad : Nat
  deriving DecidableEq, Repr

/-- The commands of the opcode table, in its order. -/
inductive Instr
  /-- WRITE (R424). -/
  | write (h : Nat) (o : OpFields)
  /-- READ (R411). `bad`: positions of uncorrectable samples in a read of 0x5D81[h]:04. -/
  | read (h : Nat) (o : OpFields) (bad : List Nat)
  /-- STAGED_READ (R411). -/
  | stagedRead (h : Nat) (o : OpFields)
  /-- READ_SEGMENT (R414). `bad`: as in READ. -/
  | readSegment (h : Nat) (o : OpFields) (bad : List Nat)
  /-- WRITE_SEGMENT (R413). -/
  | writeSegment (h : Nat) (o : OpFields)
  /-- NOP (R411). -/
  | nop (h : Nat) (o : OpFields)
  /-- OPEN (R415). Where the message came from, and its bytes. -/
  | open_ (src : Source) (m : Bytes)
  /-- REQUEST (R412). Where the message came from, and its bytes. -/
  | request (src : Source) (m : Bytes)
  /-- CLOSE (R418). Where the message came from, and its bytes. -/
  | close (src : Source) (m : Bytes)
  /-- SESSION_TIMEOUT (R418). -/
  | sessionTimeout (h : Nat)
  /-- TRANSFER_ABANDON (R413). -/
  | transferAbandon (h : Nat)
  /-- SNAPSHOT_RELEASE (R414). -/
  | snapshotRelease (h : Nat)
  /-- HSPI_WRITE (R407). The length sent and the bytes clocked after it. -/
  | hspiWrite (len : Nat) (d : Bytes)
  /-- HSPI_STATUS (R407). Bytes clocked out. -/
  | hspiStatus (clocks : Nat)
  /-- HSPI_READ (R407). Bytes clocked out, the two length bytes among them. -/
  | hspiRead (clocks : Nat)
  /-- NOTIFY (R429). -/
  | notify (h : Nat)
  /-- STAGED_WRITE (R430). -/
  | stagedWrite (h : Nat) (o : OpFields)
  /-- COMMIT (R431). -/
  | commit (h : Nat) (d : Bytes)
  /-- CANCEL (R433). -/
  | cancel (h : Nat) (d : Bytes)
  /-- DISCARD_STAGE (R430). -/
  | discardStage (h : Nat) (n : Nat) (d : Bytes)
  /-- COMMIT_LANDS (R432). -/
  | commitLands
  /-- PLAN_LANDS (R60). -/
  | planLands
  /-- SAVE (R440). -/
  | save (h : Nat) (d : Bytes)
  /-- AUTOSAVE (R440). -/
  | autosave
  /-- SAVE_END (R436). Whether the read-back matches the image. -/
  | saveEnd (ok : Bool)
  /-- RESTORE_DEFAULTS (R442). -/
  | restoreDefaults (h : Nat) (d : Bytes)
  /-- KEY_WRITE (R420). -/
  | keyWrite (h : Nat) (n : Nat) (d : Bytes)
  /-- OWNER_WRITE (R425). Sub-index of 0x1100. -/
  | ownerWrite (h : Nat) (sub : Nat) (d : Bytes)
  /-- ASSIGN_RANGES (R422). -/
  | assignRanges (h : Nat) (d : Bytes)
  /-- KEYFRAME_PUSH (R42). -/
  | keyframePush (h : Nat) (d : Bytes)
  /-- FLUSH_QUEUE (R49). -/
  | flushQueue (h : Nat) (n : Nat) (d : Bytes)
  /-- TRANSFORM_WRITE (R56). Sub-index 1 to 4 of 0x2800. -/
  | transformWrite (h : Nat) (sub : Nat) (d : Bytes)
  /-- EVALUATION_WINDOW_OPEN (R83). -/
  | evaluationWindowOpen (bad : List CacheFault)
  /-- EVALUATION_WINDOW_CLOSE (R90). -/
  | evaluationWindowClose
  /-- PERIOD_START (R93). What the period brings from outside. -/
  | periodStart (e : PeriodIn)
  /-- RENDER_WINDOW (R104). Furrow cells and words of the render working memory whose reads are uncorrectable. -/
  | renderWindow (cells : List Nat) (words : List Nat)
  /-- DEPTH_WRITE (R106). -/
  | depthWrite (h : Nat) (n : Nat) (d : Bytes)
  /-- DEPTH_CHANGE_LANDS (R107). -/
  | depthChangeLands
  /-- REPACK (R109). -/
  | repack (h : Nat) (d : Bytes)
  /-- REPACK_LANDS (R109). -/
  | repackLands
  /-- SET_DATA_UPLOAD (R117). -/
  | setDataUpload (h : Nat) (n : Nat) (d : Bytes)
  /-- SET_READY (R118). -/
  | setReady (n : Nat)
  /-- SET_ERASE (R118). -/
  | setErase (h : Nat) (n : Nat) (d : Bytes)
  /-- GRAFT_REQUEST (R130). -/
  | graftRequest (h : Nat) (d : Bytes)
  /-- GRAFT_START (R127). -/
  | graftStart (n : Nat)
  /-- GRAFT_FADE (R128). -/
  | graftFade (n : Nat)
  /-- GRAFT_END (R127). -/
  | graftEnd (n : Nat)
  /-- BULK_PHASE (R124). Faulty spectra as 512 · p + k, and the time the phase took in ns. -/
  | bulkPhase (bad : List SpectrumFault) (used : Nat)
  /-- URGENT_PHASE (R124). Faulty spectra of partition 1 as 512 + k, and the time the phase took in ns. -/
  | urgentPhase (bad : List SpectrumFault) (used : Nat)
  /-- HOP_EVENT (R124). -/
  | hopEvent
  /-- BULK_DELAY_WRITE (R131). -/
  | bulkDelayWrite (h : Nat) (n : Nat) (d : Bytes)
  /-- BULK_CROSSFADE (R132). -/
  | bulkCrossfade
  /-- TRELLIS_SOURCE_WRITE (R152). -/
  | trellisSourceWrite (h : Nat) (n : Nat) (d : Bytes)
  /-- NODE_WRITE (R153). -/
  | nodeWrite (h : Nat) (d : Bytes)
  /-- BANK_CAPTURE (R155). -/
  | bankCapture (h : Nat) (d : Bytes)
  /-- BANK_CLEAR (R155). -/
  | bankClear (h : Nat) (d : Bytes)
  /-- INPUT_MAP_BOUNDARY (R147). -/
  | inputMapBoundary
  /-- OUTPUT_MAP_WRITE (R159). -/
  | outputMapWrite (h : Nat) (n : Nat) (d : Bytes)
  /-- OUTPUT_MAP_LANDS (R159). -/
  | outputMapLands
  /-- PATH_QUERY_READ (R165). Sub-index of 0x3F01[n]. -/
  | pathQueryRead (h : Nat) (n : Nat) (sub : Nat)
  /-- RATE_CHANGE (R163). -/
  | rateChange (h : Nat) (d : Bytes)
  /-- OUTPUTS_RAMP_DOWN (R237). -/
  | outputsRampDown
  /-- ENGINES_STOP (R221). -/
  | enginesStop
  /-- ENGINES_RESTART (R163). -/
  | enginesRestart
  /-- PORT_ENABLE (R183). -/
  | portEnable (h : Nat) (n : Nat) (d : Bytes)
  /-- PORT_START (R183). -/
  | portStart (n : Nat)
  /-- PORT_DISABLE (R183). -/
  | portDisable (h : Nat) (n : Nat) (d : Bytes)
  /-- PORT_RELEASE (R183). -/
  | portRelease (n : Nat)
  /-- MASK_WRITE (R180). Sub-index 0x0A or 0x0B of 0x4000[n]. -/
  | maskWrite (h : Nat) (n : Nat) (sub : Nat) (d : Bytes)
  /-- FSYNC_ACTIVE_EDGE (R172). The edge in ps after the instant of the period; the level that FSYNC takes at it; how many
  of the mask writes waiting in the shadow, in their order, completed early enough for this frame (R180); whether the edge
  falls in the core clock cycle of the fabric's last push. -/
  | fsyncActiveEdge (n : Nat) (phase : Int) (level : Bool) (inTime : Nat) (sameCycle : Bool)
  /-- FRAME_COMPLETE (R175). The frame received. -/
  | frameComplete (n : Nat) (f : FrameIn)
  /-- PORT_LOST (R184). -/
  | portLost (n : Nat)
  /-- ASRC_LOCK (R190). Departure of the rate from nominal in ppm. -/
  | asrcLock (n : Nat) (ppm : Int)
  /-- ASRC_RELOCK (R190). Departure of the rate from nominal in ppm. -/
  | asrcRelock (n : Nat) (ppm : Int)
  /-- PLL_LOCK (R191). Phase error in ps. -/
  | pllLock (phase : Int)
  /-- PLL_UNLOCK (R191). Phase error in ps. -/
  | pllUnlock (phase : Int)
  /-- WCLK_IN_LOST (R193). -/
  | wclkInLost
  /-- RECEIVE_FRAME (R200). The frame with its FCS, whether it had an alignment or symbol error, and the counter at
  its start-of-frame delimiter. -/
  | receiveFrame (n : Nat) (f : Bytes) (err : Bool) (clock : Nat)
  /-- PAUSE_WATCHDOG (R202). -/
  | pauseWatchdog (n : Nat)
  /-- LINK_UP (R223). Speed code of the link. -/
  | linkUp (n : Nat) (speed : Nat)
  /-- LINK_DOWN (R199). -/
  | linkDown (n : Nat)
  /-- RING_DISABLE (R206). -/
  | ringDisable (h : Nat) (n : Nat) (d : Bytes)
  /-- RING_ENABLE (R206). -/
  | ringEnable (h : Nat) (n : Nat) (d : Bytes)
  /-- RECEIVE_STREAM_ENABLE (R217). -/
  | receiveStreamEnable (h : Nat) (n : Nat) (d : Bytes)
  /-- TRANSMIT_STREAM_ENABLE (R220). -/
  | transmitStreamEnable (h : Nat) (n : Nat) (d : Bytes)
  /-- STREAM_DISABLE (R210). `tx`: a transmit stream. -/
  | streamDisable (h : Nat) (tx : Bool) (n : Nat) (d : Bytes)
  /-- PACKET_PUSH (R219). Whether it falls in the core clock cycle of a pop of the queue. -/
  | packetPush (n : Nat) (sameCycle : Bool)
  /-- PACKET_LAUNCH (R219). Whether it falls in the core clock cycle of the push; whether a cell of the packet is
  uncorrectable. -/
  | packetLaunch (n : Nat) (sameCycle : Bool) (bad : Bool)
  /-- ARP_RESOLVED (R220). IPv4 and Ethernet address learnt. -/
  | arpResolved (n : Nat) (ip : Nat) (mac : Nat)
  /-- ARP_AGE_OUT (R223). IPv4 address of the entry. -/
  | arpAgeOut (n : Nat) (ip : Nat)
  /-- IGMP_REPORT (R223). Group address. -/
  | igmpReport (n : Nat) (group : Nat)
  /-- SDP_WRITE (R222). -/
  | sdpWrite (h : Nat) (n : Nat) (d : Bytes)
  /-- ADDRESS_WRITE (R223). -/
  | addressWrite (h : Nat) (n : Nat) (d : Bytes)
  /-- RATE_WRITE (R233). -/
  | rateWrite (h : Nat) (d : Bytes)
  /-- OFFSET_WRITE (R236). -/
  | offsetWrite (h : Nat) (d : Bytes)
  /-- STEP (R237). -/
  | step
  /-- TIMEBASE_RESTART (R238). -/
  | timebaseRestart (h : Nat) (d : Bytes)
  /-- PTP_SYNC (R241). The message, the counter at its arrival, the sender's Ethernet and IPv4 address. -/
  | ptpSync (n : Nat) (m : Bytes) (clock : Nat) (mac : Nat) (ip : Nat)
  /-- PTP_FOLLOW_UP (R241). The message. -/
  | ptpFollowUp (n : Nat) (m : Bytes)
  /-- PTP_DELAY_RESP (R241). The message. -/
  | ptpDelayResp (n : Nat) (m : Bytes)
  /-- PTP_DELAY_REQ (R241). The message, the counter at its arrival, the sender's Ethernet and IPv4 address. -/
  | ptpDelayReq (n : Nat) (m : Bytes) (clock : Nat) (mac : Nat) (ip : Nat)
  /-- PTP_ANNOUNCE (R243). The message. -/
  | ptpAnnounce (n : Nat) (m : Bytes)
  /-- PTP_SEND (R243). Kind 0: Sync and Follow_Up, 1: Announce; the counter at the launch. -/
  | ptpSend (kind : Nat) (clock : Nat)
  /-- ANNOUNCE_TIMEOUT (R244). -/
  | announceTimeout
  /-- PPS_EDGE (R247). The counter at the edge. -/
  | ppsEdge (clock : Nat)
  /-- PPS_LOST (R240). -/
  | ppsLost
  /-- TRIGGER_ARM (R249). -/
  | triggerArm (h : Nat) (n : Nat) (d : Bytes)
  /-- TRIGGER_DISARM (R250). -/
  | triggerDisarm (h : Nat) (n : Nat) (d : Bytes)
  /-- TRIGGER_FIRE (R249). The counter at the instant. -/
  | triggerFire (n : Nat) (clock : Nat)
  /-- CAPTURE (R252). The counter at the edge. -/
  | capture (n : Nat) (clock : Nat)
  /-- SPRINKLER_DATA (R259). The datagram. -/
  | sprinklerData (m : Bytes)
  /-- NAK (R260). The datagram. -/
  | nak (m : Bytes)
  /-- NAK_REPEAT (R260). -/
  | nakRepeat
  /-- GAP_SKIP (R260). -/
  | gapSkip
  /-- SNAPSHOT_REQUEST (R260). The datagram. -/
  | snapshotRequest (m : Bytes)
  /-- SNAPSHOT_REQUEST_REPEAT (R260). -/
  | snapshotRequestRepeat
  /-- SNAPSHOT (R260). The datagram. -/
  | snapshot (m : Bytes)
  /-- HEARTBEAT (R257). -/
  | heartbeat
  /-- STATUS (R257). -/
  | status
  /-- STATUS_RECEIVED (R253). The datagram. -/
  | statusReceived (m : Bytes)
  /-- PROMOTED (R261). -/
  | promoted
  /-- HEDGE_ENABLE (R282). -/
  | hedgeEnable (h : Nat) (d : Bytes)
  /-- HEDGE_DISABLE (R282). -/
  | hedgeDisable (h : Nat) (d : Bytes)
  /-- MOD_EN_FALL (R282). -/
  | modEnFall
  /-- CHANNEL_ENABLE (R281). -/
  | channelEnable (h : Nat) (n : Nat) (d : Bytes)
  /-- CHANNEL_DISABLE (R283). -/
  | channelDisable (h : Nat) (n : Nat) (d : Bytes)
  /-- CHANNEL_OFF (R283). -/
  | channelOff (n : Nat)
  /-- CHANNEL_START (R284). -/
  | channelStart (n : Nat)
  /-- START_RAMP_END (R284). -/
  | startRampEnd (n : Nat)
  /-- SENSE_FRAME (R280). The 32 bits of the frame, and the counter at the end of its burst. -/
  | senseFrame (n : Nat) (word : Nat) (clock : Nat)
  /-- FAULT_EDGE (R286). The counter at recognition. -/
  | faultEdge (n : Nat) (clock : Nat)
  /-- FAULT_IDENTIFY (R286). The counter at the end of the burst. -/
  | faultIdentify (n : Nat) (clock : Nat)
  /-- RETRY (R288). -/
  | retry (n : Nat)
  /-- CLEAR_LATCH (R289). -/
  | clearLatch (h : Nat) (n : Nat) (d : Bytes)
  /-- CLEAR_TRIP_LOG (R287). -/
  | clearTripLog (h : Nat) (d : Bytes)
  /-- HEDGE_BLOCK (R291). -/
  | hedgeBlock
  /-- IMPEDANCE_WINDOW (R292). -/
  | impedanceWindow (n : Nat)
  /-- NEW_CARRIER (R278). -/
  | newCarrier
  /-- RESYNCHRONISE (R300). Sub-index 1 or 3 of 0x5C00. -/
  | resynchronise (h : Nat) (sub : Nat) (d : Bytes)
  /-- DECIMATOR_RESET (R300). -/
  | decimatorReset
  /-- SETTLING_END (R303). -/
  | settlingEnd (n : Nat)
  /-- NO_DATA (R303). -/
  | noData (n : Nat)
  /-- COMPENSATION_WRITE (R305). -/
  | compensationWrite (h : Nat) (n : Nat) (d : Bytes)
  /-- COMPENSATION_SWITCH (R305). -/
  | compensationSwitch (n : Nat)
  /-- OPEN_OUTPUT (R307). -/
  | openOutput (h : Nat) (n : Nat) (d : Bytes)
  /-- CLOSE_OUTPUT (R307). -/
  | closeOutput (h : Nat) (n : Nat) (d : Bytes)
  /-- START_RUN (R309). -/
  | startRun (h : Nat) (d : Bytes)
  /-- STIMULUS_START (R309). -/
  | stimulusStart
  /-- CAPTURE_ANALYSIS (R310). -/
  | captureAnalysis
  /-- RUN_DONE (R312). -/
  | runDone
  /-- ABORT_RUN (R314). -/
  | abortRun (h : Nat) (d : Bytes)
  /-- FREEZE (R317). The cause. -/
  | freeze (cause : Nat)
  /-- POST_END (R317). -/
  | postEnd
  /-- REARM (R317). -/
  | rearm (h : Nat) (d : Bytes)
  /-- DESCRIPTION_WRITE (R336). -/
  | descriptionWrite (h : Nat) (n : Nat) (d : Bytes)
  /-- CHAIN_ENABLE (R340). -/
  | chainEnable (h : Nat) (n : Nat) (d : Bytes)
  /-- CHAIN_DISABLE (R340). -/
  | chainDisable (h : Nat) (n : Nat) (d : Bytes)
  /-- CHAIN_RELEASE (R340). -/
  | chainRelease (n : Nat)
  /-- PARAMETER_WRITE (R341). -/
  | parameterWrite (h : Nat) (n : Nat) (d : Bytes)
  /-- RUN_COMPLETE (R350). Cycles the run took; words read as zero; the word of program memory whose read, uncorrectable,
  aborted it. -/
  | runComplete (n : Nat) (cycles : Nat) (bad : List PoolFault) (abort : Option Nat)
  /-- MISSED_RUN (R342). -/
  | missedRun (n : Nat)
  /-- PACK_WRITE (R352). -/
  | packWrite (h : Nat) (n : Nat) (d : Bytes)
  /-- PACK_ERASE (R352). -/
  | packErase (h : Nat) (n : Nat) (d : Bytes)
  /-- FLAG_RAISE (R360). -/
  | flagRaise (n : Nat)
  /-- SET_HOST_FLAGS (R363). -/
  | setHostFlags (h : Nat) (d : Bytes)
  /-- LOCK_TIMEOUT (R375). The counter at the release. -/
  | lockTimeout (n : Nat) (clock : Nat)
  /-- REFRESH (R390). Whether a real-time piece is ready; 0 up to +85 °C, 1 above, 2 above +95 °C. -/
  | refresh (ready : Bool) (heat : Nat)
  /-- NEIGHBOUR_REFRESH (R391). The row and bank selected; or, with `issue`, the oldest selection is carried out. -/
  | neighbourRefresh (n : Nat) (row : Nat) (bank : Nat) (issue : Bool)
  /-- ALERT (R392). -/
  | alert (n : Nat)
  /-- REPLAY (R392). Replays that met an alert of their own. -/
  | replay (n : Nat) (fails : Nat)
  /-- ZQ_CALIBRATION (R393). Whether there is a gap; the drift that the DQS oscillators show, in ps as binary32. -/
  | zqCalibration (gap : Bool) (drift : F32)
  /-- SCHEDULED_RETRAINING (R393). Whether it succeeds, and the margins it finds. -/
  | scheduledRetraining (good : Bool) (timing : List F32) (voltage : List F32)
  /-- SCRUB (R394). The codeword and its symbols in error. -/
  | scrub (n : Nat) (offset : Nat) (bad : List Nat)
  /-- PATROL (R381). The word read; 1 corrected, 2 uncorrectable; the syndrome. -/
  | patrol (n : Nat) (word : Nat) (err : Nat) (syn : Nat)
  /-- SELF_REFRESH_ENTRY (R395). 0: no piece arrives, 1: one arrives before the entry command, 2: after it. -/
  | selfRefreshEntry (request : Nat)
  /-- MARK_DEVICE (R387). -/
  | markDevice (h : Nat) (n : Nat) (d : Bytes)
  /-- POWER_ON (R458). What the boot finds. -/
  | powerOn (b : BootIn)
  /-- SUPPLY_LOSS (R504). -/
  | supplyLoss
  /-- PIN_RESET (R459). What the boot finds. -/
  | pinReset (b : BootIn)
  /-- DEVICE_RESET (R460). The write and what the boot finds. -/
  | deviceReset (h : Nat) (d : Bytes) (b : BootIn)
  /-- CONTROL_PROCESSOR_RESET (R461). -/
  | controlProcessorReset (h : Nat) (d : Bytes)
  /-- TENDING_POOL_RESET (R462). -/
  | tendingPoolReset (h : Nat) (d : Bytes)
  /-- NETWORK_RESET (R462). -/
  | networkReset (h : Nat) (d : Bytes)
  /-- WATCHDOG (R463). -/
  | watchdog
  /-- BOOT_FAILURE (R466). What the next boot finds. -/
  | bootFailure (b : BootIn)
  /-- FIRMWARE_IMAGE (R467). -/
  | firmwareImage (h : Nat) (d : Bytes)
  /-- NONCE (R471). -/
  | nonce (h : Nat) (d : Bytes)
  /-- REPORT_SIGNED (R471). Time taken in µs. -/
  | reportSigned (us : Nat)
  /-- REQUEST_ACTIVE (R473). -/
  | requestActive (h : Nat) (d : Bytes)
  /-- REQUEST_IDLE (R473). -/
  | requestIdle (h : Nat) (d : Bytes)
  /-- REQUEST_STANDBY (R473). -/
  | requestStandby (h : Nat) (d : Bytes)
  /-- STANDBY_ENTRY (R473). -/
  | standbyEntry
  /-- WAKE (R474). Cause, MAC + 8 · pattern, seconds in STANDBY, for causes 1 and 2 the frame with its FCS, what the boot
  finds. -/
  | wake (cause : Nat) (n : Nat) (secs : Nat) (f : Bytes) (b : BootIn)
  /-- THERMAL_READ (R476). Temperature in °C. -/
  | thermalRead (temp : F32)
  /-- THERMAL_RECOVERY (R476). What the boot finds. -/
  | thermalRecovery (b : BootIn)
  /-- MONITOR_SAMPLE (R478). Readings of the monitors and their temperatures in °C. -/
  | monitorSample (readings : List F32) (temps : List F32)
  /-- MARGIN_PLAN (R479). Delays of the monitors in ps, averaged over 1 s. -/
  | marginPlan (delays : List F32)
  /-- VREQ_STEP (R480). VDD_CORE in V. -/
  | vreqStep (volts : F32)
  /-- SAFETY_RAISE (R480). The path monitor and its delay. -/
  | safetyRaise (n : PathDelay)
  /-- COUNTER_LATCH (R488). -/
  | counterLatch (h : Nat) (d : Bytes)
  /-- TRACE_ENABLE (R489). -/
  | traceEnable (h : Nat) (d : Bytes)
  /-- TRACE_DISABLE (R492). -/
  | traceDisable (h : Nat) (d : Bytes)
  /-- TRACE_SYNC (R491). -/
  | traceSync
  /-- COUNTER_SNAPSHOT (R494). -/
  | counterSnapshot
  /-- HSPI_UNKNOWN_COMMAND (R407). The first byte. -/
  | hspiUnknownCommand (cmd : Nat)
  /-- HEARTBEAT_RECEIVED (R261). The datagram. -/
  | heartbeatReceived (m : Bytes)
  /-- DELAY_REQ_SEND (R241). The counter at the launch. -/
  | delayReqSend (clock : Nat)
  /-- PDM_DATA_RESUMED (R303). -/
  | pdmDataResumed (n : Nat)
  /-- WCLK_IN_EDGE (R193). Mean period of the last second in fs, and the edge from the nearest media-time instant in
  ps. -/
  | wclkInEdge (period : Nat) (phase : Int)
  /-- IGMP_V2_FALLBACK_END (R223). -/
  | igmpV2FallbackEnd (n : Nat)
  /-- ARP_FAIL (R230). -/
  | arpFail (n : Nat)
  /-- OLD_CARRIER_STOP (R278). -/
  | oldCarrierStop
  /-- HEDGE_RAMP_DOWN_END (R282). -/
  | hedgeRampDownEnd (n : Nat)
  /-- CONTROL_RESET_COMPLETE (R461). -/
  | controlResetComplete
  /-- AGEING_TELEMETRY_SAVE (R478). -/
  | ageingTelemetrySave
  deriving DecidableEq, Repr

end Sys2Proof
end

