-- ==== Sys2Proof/Machine/Num.lean ====
section
/-! DEFINITION. Byte order, bit fields, signed views, roundings and saturations used by every family. -/

namespace Sys2Proof.Machine
open Sys2Proof

/-- The unsigned number whose little-endian bytes are given (R18). -/
def leNat : Bytes → Nat
  | [] => 0
  | b :: bs => b.toNat + 256 * leNat bs

/-- The n little-endian bytes of v modulo 2^(8n) (R18). -/
def leBytes : Nat → Nat → Bytes
  | 0, _ => []
  | n + 1, v => byte (v % 256) :: leBytes n (v / 256)

/-- The unsigned number whose bytes are in network order (R18). -/
def beNat (bs : Bytes) : Nat := leNat bs.reverse

/-- The n bytes of v in network order. -/
def beBytes (n v : Nat) : Bytes := (leBytes n v).reverse

/-- n bytes of b from offset o; bytes beyond the end are left out. -/
def slice (b : Bytes) (o n : Nat) : Bytes := (b.drop o).take n

/-- Little-endian field of n bytes at offset o of b. -/
def fieldLE (b : Bytes) (o n : Nat) : Nat := leNat (slice b o n)

/-- Network-order field of n bytes at offset o of b. -/
def fieldBE (b : Bytes) (o n : Nat) : Nat := beNat (slice b o n)

/-- n zero bytes. -/
def zeros (n : Nat) : Bytes := List.replicate n 0

/-- Zero bytes that pad a length to a multiple of 4. -/
def padTo4 (b : Bytes) : Bytes := b ++ zeros ((4 - b.length % 4) % 4)

/-- n padded up to a multiple of 4. -/
def up4 (n : Nat) : Nat := (n + 3) / 4 * 4

/-- Cut or zero-pad to exactly n bytes. -/
def fitBytes (n : Nat) (b : Bytes) : Bytes := (b ++ zeros (n - b.length)).take n

/-- Bit i of v. -/
def bit (v i : Nat) : Bool := v / 2 ^ i % 2 == 1

/-- Bits hi to lo of v. -/
def bits (v hi lo : Nat) : Nat := v / 2 ^ lo % 2 ^ (hi - lo + 1)

/-- 1 for true, 0 for false: a BOOL value (R6). -/
def b2n (b : Bool) : Nat := if b then 1 else 0

/-- v with bit i given the value b. -/
def putBit (v i : Nat) (b : Bool) : Nat :=
  if bit v i then (if b then v else v - 2 ^ i) else (if b then v + 2 ^ i else v)

/-- v without the bits of m. -/
def clearBits (v m : Nat) : Nat := Nat.xor v (Nat.land v m)

/-- Number of 1 bits among the n low bits of v. -/
def popCount : Nat → Nat → Nat
  | 0, _ => 0
  | n + 1, v => v % 2 + popCount n (v / 2)

/-- The two's complement number of w bits whose bits are v (R6). -/
def signed (w v : Nat) : Int :=
  let u := v % 2 ^ w
  if u < 2 ^ (w - 1) then u else (u : Int) - 2 ^ w

/-- The bits of an integer in two's complement of w bits. -/
def unsigned (w : Nat) (i : Int) : Nat := (i % (2 ^ w : Int)).toNat

/-- i held between lo and hi. -/
def clampI (lo hi i : Int) : Int := if i < lo then lo else if hi < i then hi else i

/-- n held between lo and hi. -/
def clampN (lo hi n : Nat) : Nat := if n < lo then lo else if hi < n then hi else n

/-- Saturation to a two's complement number of w bits, with whether it clipped. -/
def satI (w : Nat) (i : Int) : Int × Bool :=
  let hi : Int := 2 ^ (w - 1) - 1
  let lo : Int := -(2 ^ (w - 1))
  if i < lo then (lo, true) else if hi < i then (hi, true) else (i, false)

/-- Division rounded to the nearest integer, ties to even; d is positive. -/
def divRne (n d : Int) : Int :=
  let q := n / d
  let r := n % d
  if 2 * r < d then q else if d < 2 * r then q + 1 else if q % 2 == 0 then q else q + 1

/-- Division rounded to the nearest integer, ties away from zero; d is positive. -/
def divRna (n d : Int) : Int :=
  if n < 0 then -((2 * (-n) + d) / (2 * d)) else (2 * n + d) / (2 * d)

/-- Division rounded to the nearest integer, ties upward; d is positive. -/
def divRnu (n d : Int) : Int := (2 * n + d) / (2 * d)

/-- Division toward zero; d is positive. -/
def divTrunc (n d : Int) : Int := if n < 0 then -((-n) / d) else n / d

/-- Ceiling of a quotient of natural numbers; d is positive. -/
def ceilDiv (n d : Nat) : Nat := (n + d - 1) / d

/-- Integer square root by bits, high bit first: the largest r below 2^k, added to acc, whose square is at most n. -/
def isqrtGo : Nat → Nat → Nat → Nat
  | 0, _, acc => acc
  | k + 1, n, acc =>
    let t := acc + 2 ^ k
    if t * t ≤ n then isqrtGo k n t else isqrtGo k n acc

/-- Integer square root, rounded down. -/
def isqrt (n : Nat) : Nat := isqrtGo (Nat.log2 n / 2 + 1) n 0

/-- First index of the list at which p holds. -/
def findIdxFrom {α : Type} (p : α → Bool) : List α → Nat → Option Nat
  | [], _ => none
  | a :: as, i => if p a then some i else findIdxFrom p as (i + 1)

/-- Sum of a list of natural numbers. -/
def sumN (l : List Nat) : Nat := l.foldl (· + ·) 0

/-- Sum of a list of integers. -/
def sumI (l : List Int) : Int := l.foldl (· + ·) 0

/-- Largest member of a list of natural numbers, 0 for none. -/
def maxN (l : List Nat) : Nat := l.foldl Nat.max 0

/-- The numbers lo, lo + 1, … up to but not including lo + n. -/
def range' (lo n : Nat) : List Nat := (List.range n).map (lo + ·)

/-- Member i of a list with a fallback. -/
def nth {α : Type} (l : List α) (i : Nat) (d : α) : α := l.getD i d

/-- The list with member i replaced; unchanged when i is outside. -/
def setNth {α : Type} (l : List α) (i : Nat) (a : α) : List α := l.set i a

/-- Distinct members in order of first appearance. -/
def nub {α : Type} [DecidableEq α] (l : List α) : List α :=
  l.foldl (fun acc a => if acc.contains a then acc else acc ++ [a]) []

/-- Whether bytes are valid UTF-8 (R7), by the number of continuation bytes still due and the bounds of the next. -/
def utf8Go : Nat → Nat → Nat → Bytes → Bool
  | 0, _, _, [] => true
  | _ + 1, _, _, [] => false
  | 0, _, _, b :: bs =>
    let v := b.toNat
    if v < 0x80 then utf8Go 0 0 0 bs
    else if 0xC2 ≤ v && v ≤ 0xDF then utf8Go 1 0x80 0xBF bs
    else if v == 0xE0 then utf8Go 2 0xA0 0xBF bs
    else if v == 0xED then utf8Go 2 0x80 0x9F bs
    else if 0xE1 ≤ v && v ≤ 0xEF then utf8Go 2 0x80 0xBF bs
    else if v == 0xF0 then utf8Go 3 0x90 0xBF bs
    else if 0xF1 ≤ v && v ≤ 0xF3 then utf8Go 3 0x80 0xBF bs
    else if v == 0xF4 then utf8Go 3 0x80 0x8F bs
    else false
  | n + 1, lo, hi, b :: bs => lo ≤ b.toNat && b.toNat ≤ hi && utf8Go n 0x80 0xBF bs

/-- Valid UTF-8. -/
def utf8 (b : Bytes) : Bool := utf8Go 0 0 0 b

/-- Insertion sort by a strict order, stable. -/
def insertBy {α : Type} (lt : α → α → Bool) (a : α) : List α → List α
  | [] => [a]
  | b :: bs => if lt a b then a :: b :: bs else b :: insertBy lt a bs

/-- Stable sort by a strict order. -/
def sortBy {α : Type} (lt : α → α → Bool) (l : List α) : List α :=
  l.foldl (fun acc a => insertBy lt a acc) []

/-- Split a list into runs of at most n. -/
def chunksGo {α : Type} (n : Nat) : Nat → List α → List (List α)
  | 0, _ => []
  | f + 1, l => if l.isEmpty then [] else l.take n :: chunksGo n f (l.drop n)

/-- Split a list into runs of at most n members. -/
def chunks {α : Type} (n : Nat) (l : List α) : List (List α) := chunksGo n l.length l

end Sys2Proof.Machine
end

