-- ==== Sys2Proof/Machine/Float.lean ====
section
/-! DEFINITION. IEEE 754 binary32 (R6, R13): exact values, rounding to nearest with ties to even, and the operations
of the data path. A value is its bit pattern. -/

namespace Sys2Proof.Machine
open Sys2Proof

/-- A finite binary32 value as sign, significand and exponent: (−1)^s · m · 2^e. -/
structure Dyadic where
  neg : Bool
  man : Nat
  exp : Int
  deriving DecidableEq, Repr

namespace F

/-- Sign bit. -/
def isNeg (x : F32) : Bool := bit x 31
/-- Exponent field. -/
def expo (x : F32) : Nat := bits x 30 23
/-- Fraction field. -/
def frac (x : F32) : Nat := x % 2 ^ 23
/-- NaN. -/
def isNaN (x : F32) : Bool := expo x == 255 && frac x != 0
/-- Infinity of either sign. -/
def isInf (x : F32) : Bool := expo x == 255 && frac x == 0
/-- Neither NaN nor infinity. -/
def isFinite (x : F32) : Bool := expo x != 255
/-- Zero of either sign. -/
def isZero (x : F32) : Bool := x % 2 ^ 31 == 0
/-- The quiet NaN that an invalid operation gives (IEEE 754 leaves its payload open; log entry 12). -/
def nan : F32 := 0x7FC00000
/-- Infinity with a sign. -/
def inf (s : Bool) : F32 := if s then 0xFF800000 else 0x7F800000
/-- Zero with a sign. -/
def zero (s : Bool) : F32 := if s then 0x80000000 else 0
/-- 1.0. -/
def one : F32 := 0x3F800000

/-- Sign, significand and exponent of a finite value. -/
def unpack (x : F32) : Dyadic :=
  if expo x == 0 then { neg := isNeg x, man := frac x, exp := -149 }
  else { neg := isNeg x, man := frac x + 2 ^ 23, exp := (expo x : Int) - 150 }

/-- Floor of the base-2 logarithm of n/d for positive n and d. -/
def log2Rat (n d : Nat) : Int :=
  let a : Int := (Nat.log2 n : Int) - Nat.log2 d
  let ge : Bool := if a < 0 then d ≤ n * 2 ^ (-a).toNat else d * 2 ^ a.toNat ≤ n
  if ge then a else a - 1

/-- (−1)^s · n/d rounded to nearest, ties to even; overflow gives infinity (IEEE 754). -/
def ofRat (s : Bool) (n d : Nat) : F32 :=
  if n == 0 || d == 0 then zero s else
  let e := max (log2Rat n d) (-126)
  let k := 23 - e
  let n' := if 0 ≤ k then n * 2 ^ k.toNat else n
  let d' := if 0 ≤ k then d else d * 2 ^ (-k).toNat
  let q := n' / d'
  let r := n' % d'
  let q' := if 2 * r < d' then q else if d' < 2 * r then q + 1 else if q % 2 == 0 then q else q + 1
  let v := (e + 126).toNat * 2 ^ 23 + q'
  let v' := if 0x7F800000 ≤ v then 0x7F800000 else v
  if s then 0x80000000 + v' else v'

/-- The same for m · 2^e. -/
def ofDyadic (s : Bool) (m : Nat) (e : Int) : F32 :=
  if 0 ≤ e then ofRat s (m * 2 ^ e.toNat) 1 else ofRat s m (2 ^ (-e).toNat)

/-- Nearest binary32 value of an integer. -/
def ofInt (i : Int) : F32 := ofRat (i < 0) i.natAbs 1
/-- Nearest binary32 value of a natural number. -/
def ofNat (n : Nat) : F32 := ofRat false n 1
/-- Nearest binary32 value of i · 2^e. -/
def ofScaled (i : Int) (e : Int) : F32 := ofDyadic (i < 0) i.natAbs e
/-- Nearest binary32 value of i/d. -/
def ofIntRat (i : Int) (d : Nat) : F32 := ofRat (i < 0) i.natAbs d

/-- Sign change. -/
def neg (x : F32) : F32 := if isNeg x then x - 0x80000000 else x + 0x80000000
/-- Magnitude. -/
def abs (x : F32) : F32 := x % 2 ^ 31

/-- Exact significand with sign, at exponent e not above the value's own. -/
def manAt (x : F32) (e : Int) : Int :=
  let u := unpack x
  let m : Int := (u.man : Int) * 2 ^ (u.exp - e).toNat
  if u.neg then -m else m

/-- The exact sum of an integer significand and exponent, rounded; z is the sign of an exact zero. -/
def roundI (i : Int) (e : Int) (z : Bool) : F32 :=
  if i == 0 then zero z else ofDyadic (i < 0) i.natAbs e

/-- Addition. -/
def add (x y : F32) : F32 :=
  if isNaN x || isNaN y then nan
  else if isInf x then (if isInf y && isNeg x != isNeg y then nan else x)
  else if isInf y then y
  else roundI (manAt x (-149) + manAt y (-149)) (-149) (isNeg x && isNeg y)

/-- Subtraction. -/
def sub (x y : F32) : F32 := if isNaN y then nan else add x (neg y)

/-- Multiplication. -/
def mul (x y : F32) : F32 :=
  let s := isNeg x != isNeg y
  if isNaN x || isNaN y then nan
  else if isInf x || isInf y then (if isZero x || isZero y then nan else inf s)
  else ofDyadic s ((unpack x).man * (unpack y).man) ((unpack x).exp + (unpack y).exp)

/-- Fused multiply and add: x · y + z with one rounding. -/
def fma (x y z : F32) : F32 :=
  let s := isNeg x != isNeg y
  if isNaN x || isNaN y || isNaN z then nan
  else if isInf x || isInf y then
    (if isZero x || isZero y then nan else if isInf z && isNeg z != s then nan else inf s)
  else if isInf z then z
  else
    let p : Int := ((unpack x).man * (unpack y).man : Nat)
    let e := (unpack x).exp + (unpack y).exp
    let p' := (if s then -p else p) * 2 ^ (e + 298).toNat
    roundI (p' + manAt z (-149) * 2 ^ 149) (-298) (s && isNeg z)

/-- Division. -/
def div (x y : F32) : F32 :=
  let s := isNeg x != isNeg y
  if isNaN x || isNaN y then nan
  else if isInf x then (if isInf y then nan else inf s)
  else if isInf y then zero s
  else if isZero y then (if isZero x then nan else inf s)
  else
    let a := unpack x
    let b := unpack y
    let k := a.exp - b.exp
    if 0 ≤ k then ofRat s (a.man * 2 ^ k.toNat) b.man else ofRat s a.man (b.man * 2 ^ (-k).toNat)

/-- Square root. -/
def sqrt (x : F32) : F32 :=
  if isNaN x then nan
  else if isZero x then x
  else if isNeg x then nan
  else if isInf x then x
  else
    let u := unpack x
    let n := u.man * 2 ^ (u.exp + 250).toNat
    let r := isqrt n
    if r * r == n then ofDyadic false r (-125) else ofDyadic false (2 * r + 1) (-126)

/-- Strictly less; false when either is NaN. -/
def lt (x y : F32) : Bool :=
  if isNaN x || isNaN y then false
  else if isInf x || isInf y then
    (if isInf x then isNeg x && !(isInf y && isNeg y) else !isNeg y)
  else manAt x (-149) < manAt y (-149)

/-- Equal as numbers. -/
def eq (x y : F32) : Bool :=
  !isNaN x && !isNaN y && (x == y || (isZero x && isZero y))

/-- Less or equal. -/
def le (x y : F32) : Bool := lt x y || eq x y

/-- The larger; the first when neither is larger. -/
def max2 (x y : F32) : F32 := if lt x y then y else x
/-- The smaller; the first when neither is smaller. -/
def min2 (x y : F32) : F32 := if lt y x then y else x
/-- x held between lo and hi. -/
def clamp (lo hi x : F32) : F32 := min2 (max2 x lo) hi

/-- Exact value as an integer over 2^149. -/
def toScaled (x : F32) : Int := manAt x (-149)

/-- x · 2^k rounded to the nearest integer, ties to even (0 when not finite). -/
def toIntRne (x : F32) (k : Nat) : Int :=
  if !isFinite x then 0 else divRne (toScaled x * 2 ^ k) (2 ^ 149)

/-- x · 2^k rounded to the nearest integer, ties away from zero (0 when not finite). -/
def toIntRna (x : F32) (k : Nat) : Int :=
  if !isFinite x then 0 else divRna (toScaled x * 2 ^ k) (2 ^ 149)

/-- Floor of x · 2^k (0 when not finite). -/
def toIntFloor (x : F32) (k : Nat) : Int :=
  if !isFinite x then 0 else toScaled x * 2 ^ k / 2 ^ 149

/-- Flush to zero: a magnitude below 2^−126 becomes zero of the same sign (R114). -/
def flush (x : F32) : F32 := if expo x == 0 then zero (isNeg x) else x

/-- Sum of a list in order, each addition rounded. -/
def sum (l : List F32) : F32 := l.foldl add 0

/-- Move a finite value by k units in the last place, away from zero for positive k, staying finite. -/
def nudge (x : F32) (k : Int) : F32 :=
  let m := (abs x : Int) + k
  let m' := if m < 0 then 0 else if m > 0x7F7FFFFF then 0x7F7FFFFF else m
  (if isNeg x then 0x80000000 else 0) + m'.toNat

end F
end Sys2Proof.Machine
end

