-- ==== Sys2Proof/Machine/Real.lean ====
section
/-! DEFINITION. Elementary functions of exact arguments in fixed point of 160 fraction bits, by series whose error is
far below one unit in the last place of binary32. They stand behind the functions that R82, R114 and R16 name. -/

namespace Sys2Proof.Machine
open Sys2Proof

namespace X

/-- Fraction bits of the fixed point. -/
def P : Nat := 160
/-- 1 in fixed point. -/
def one : Int := 2 ^ 160
/-- π. -/
def pi : Int := 0x3243f6a8885a308d313198a2e03707344a4093822
/-- ln 2. -/
def ln2 : Int := 0xb17217f7d1cf79abc9e3b39803f2f6af40f34326
/-- ln 10. -/
def ln10 : Int := 0x24d763776aaa2b05ba95b58ae0b4c28a38a3fb3e7

/-- Product. -/
def mul (a b : Int) : Int := a * b / one
/-- Quotient; b is not zero. -/
def div (a b : Int) : Int := a * one / b
/-- An integer ratio. -/
def ofRat (n : Int) (d : Nat) : Int := n * one / d
/-- The exact value of a finite binary32 number, cut at 160 fraction bits. -/
def ofF (x : F32) : Int := F.toScaled x * 2 ^ 11
/-- The nearest binary32 value. -/
def toF (a : Int) : F32 := F.ofScaled a (-160)
/-- Square root of a number not below zero. -/
def sqrt (a : Int) : Int := (isqrt (a.toNat * 2 ^ 160) : Nat)

/-- Terms of the series Σ sgn^k · t_k with t_(k+1) = t_k · x2 / ((2k + a)(2k + a + 1)). -/
def trigGo : Nat → Nat → Int → Int → Int → Int
  | 0, _, _, _, acc => acc
  | n + 1, k, x2, t, acc =>
    let t' := -(mul t x2) / ((k : Int) * (k + 1))
    trigGo n (k + 2) x2 t' (acc + t')

/-- Sine and cosine of an angle already between −π and π. -/
def sinSmall (x : Int) : Int := trigGo 34 2 (mul x x) x x
/-- Cosine of the same. -/
def cosSmall (x : Int) : Int := trigGo 34 1 (mul x x) one one

/-- An angle reduced to between −π and π. -/
def reduce (x : Int) : Int :=
  let k := divRne x (2 * pi)
  x - k * (2 * pi)

/-- Sine. -/
def sin (x : Int) : Int := sinSmall (reduce x)
/-- Cosine. -/
def cos (x : Int) : Int := cosSmall (reduce x)

/-- Terms of e^x. -/
def expGo : Nat → Nat → Int → Int → Int → Int
  | 0, _, _, _, acc => acc
  | n + 1, k, x, t, acc =>
    let t' := mul t x / k
    expGo n (k + 1) x t' (acc + t')

/-- e^x as significand in fixed point and power of two. -/
def expParts (x : Int) : Int × Int :=
  let k := divRne x ln2
  (expGo 40 1 (x - k * ln2) one one, k)

/-- e^x in fixed point. -/
def exp (x : Int) : Int :=
  let (m, k) := expParts x
  if 0 ≤ k then m * 2 ^ k.toNat else m / 2 ^ (-k).toNat

/-- Nearest binary32 value of e^x. -/
def expF (x : Int) : F32 :=
  let (m, k) := expParts x
  F.ofScaled m (k - 160)

/-- Terms of artanh. -/
def atanhGo : Nat → Nat → Int → Int → Int → Int
  | 0, _, _, _, acc => acc
  | n + 1, k, z2, t, acc =>
    let t' := mul t z2
    atanhGo n (k + 2) z2 t' (acc + t' / k)

/-- Natural logarithm of n/d, both positive. -/
def lnRat (n d : Nat) : Int :=
  let e := F.log2Rat n d
  let m : Int := if 0 ≤ e then (n : Int) * one / ((d : Int) * 2 ^ e.toNat) else (n : Int) * 2 ^ (-e).toNat * one / d
  let z := div (m - one) (m + one)
  e * ln2 + 2 * atanhGo 56 3 (mul z z) z z

/-- Natural logarithm of a positive fixed-point number. -/
def ln (a : Int) : Int := lnRat a.toNat (2 ^ 160)

/-- Terms of arctan. -/
def atanGo : Nat → Nat → Int → Int → Int → Int
  | 0, _, _, _, acc => acc
  | n + 1, k, z2, t, acc =>
    let t' := -(mul t z2)
    atanGo n (k + 2) z2 t' (acc + t' / k)

/-- Arctangent of a number between −1 and 1, by two halvings of the angle and the series. -/
def atanUnit (x : Int) : Int :=
  let h (a : Int) : Int := div a (one + sqrt (one + mul a a))
  let z := h (h x)
  4 * atanGo 64 3 (mul z z) z z

/-- Four-quadrant arctangent; atan2(0, 0) is 0 and the result lies in (−π, π]. -/
def atan2 (y x : Int) : Int :=
  if x == 0 && y == 0 then 0
  else if y.natAbs ≤ x.natAbs then
    let a := atanUnit (div y x)
    if 0 < x then a else if 0 ≤ y then a + pi else a - pi
  else
    let a := atanUnit (div x y)
    (if 0 < y then pi / 2 else -(pi / 2)) - a

/-- Arc cosine of a number held between −1 and 1. -/
def acos (x : Int) : Int :=
  let c := clampI (-one) one x
  atan2 (sqrt (one - mul c c)) c

/-- Arc sine of a number held between −1 and 1. -/
def asin (x : Int) : Int :=
  let c := clampI (-one) one x
  atan2 c (sqrt (one - mul c c))

end X

/-- 10^(x/20) for a level x in dB, correctly rounded (R114). -/
def dbToGain (x : F32) : F32 := X.expF (X.mul (X.ofF x) X.ln10 / 20)

/-- 10^(x/20) in fixed point. -/
def dbToGainX (x : F32) : Int := X.exp (X.mul (X.ofF x) X.ln10 / 20)

/-- −144.0 in binary32. -/
def minus144 : F32 := 0xC3100000

/-- 20 · log10(n/d) as the nearest binary32, and −144.0 for a ratio of zero or below −144.0 dB (R521). -/
def levelDb (n d : Nat) : F32 :=
  if n == 0 || d == 0 then minus144
  else
    let v := X.toF (X.div (20 * X.lnRat n d) X.ln10)
    if F.lt v minus144 then minus144 else v

/-- 20 · log10 of a binary32 magnitude with the same floor. A level above the range that Table 5.8 gives its entry is the level
all the same, and that of an infinite or NaN magnitude is NaN (DESIGN CHOICE; assumption 81). -/
def levelDbF (x : F32) : F32 :=
  if !F.isFinite x then F.nan else levelDb (F.toScaled (F.abs x)).toNat (2 ^ 149)

end Sys2Proof.Machine
end

