-- ==== Sys2Proof/Config.lean ====
section
/-! DEFINITION. What the manual leaves to the part, to the outside or open: constants without a body. Nothing in Lean
can evaluate them, so what is proved holds whatever they are. -/

namespace Sys2Proof.Config
open Sys2Proof

/-- Free values: the value of the n-th draw (State.free counts them). Each use says what is open (assumption 2). -/
opaque free : Nat → Nat

/-- Numeric entries that are "of the part" (R478, R479, R482), by entry key (assumption 3). -/
opaque part : Nat → Nat

/-- STR and BLOB entries that are "of the part" (R482, R483), by entry key (assumption 3). -/
opaque partBytes : Nat → Bytes

/-- Factory reading of an ageing monitor at a code and a temperature, binary32 (R478; assumption 60). -/
opaque factory : Nat → Nat → F32 → F32

/-- The bytes of the boot ROM, by offset: the manual does not give them (assumption 56). -/
opaque romByte : Nat → Byte

/-- Error, in units in the last place, of a binary32 transcendental result of the geometry engine (assumption 20). -/
opaque mathErr : Nat → Nat → Nat → Int

/-- Error of one tail value of the correction engine, before it is held to the bound of R123: a function of the taps, of the
samples of the hops, of the exact sum and of the place in the hop, and so of nothing but the inputs of the one fixed FFT
(R114; assumption 21). -/
opaque tailErr : List F32 → List F32 → Int → Nat → Int

/-- Coefficient i, 0 to 64, of the rate bridge, Q2.22, toward the 96 kHz side or not (R162; assumption 22). Coefficient 128 − i
is the same. -/
opaque bridgeTap : Bool → Nat → Int

/-- Coefficient of an asynchronous converter between two rates, in units of 2^-40, for the sample that came so many ps / 96000 before
the instant converted (R190; assumption 24). -/
opaque asrcTap : Nat → Nat → Nat → Int

/-- Coefficient i of stage 2, 3 or 5 of the PDM decimator at ratio R, binary32 (R301; assumption 23). -/
opaque decimTap : Nat → Nat → Nat → Nat

/-- Error, in units in the last place, of sample n of a stimulus of a kind, before it is held to 2 (R308; assumption 25). -/
opaque stimErr : Nat → Nat → Int

/-- Error of value l of the impulse response of output k on microphone m, in units of 2^-24 of its largest value, before it
is held to 32 of them (R310; assumption 26). -/
opaque measErr : Nat → Nat → Nat → Int

/-- Signature of a digest by the device's attestation key (R471). -/
opaque sign : Bytes → Bytes

/-- Kernel number i of a pack's body (R351): identifier above 0x8000, version, buffers read and written, parameter
bytes, twice its cycles per sample single and paired, bytes of code, X and Y memory, latency. -/
opaque packKernel : Bytes → Nat → List Nat

/-- Whether parameters of kernel number i of a pack's body are in range (R336). -/
opaque packParOk : Bytes → Nat → Bytes → Bool

/-- A run of kernel number i of a pack's body on parameters, state and input blocks (R351): its state, its result bytes
and its completion bits, then its output blocks. -/
opaque packRun : Bytes → Nat → Bytes → List Int → List (List Int) → List (List Int)

/-- Version of a kernel of the ROM library (Table 12.11). -/
opaque kernelVersion : Nat → Nat

/-- DYNAMICS: the state of a channel's RMS detector after a sample, whose first member is its value, from the parameters, the rate
and the state before (Table 12.7; assumption 40). -/
opaque dynRms : Bytes → Nat → List Int → Int → List Int

/-- DYNAMICS: its state after a detector value, from its parameters, the rate and the state before; the change of level that
a state calls for, in units of 2^-160 dB, before it is held to the range; and the error of the gain, in units of 2^-160 dB,
before it is held to 0.01 dB. The manual gives no law beyond its parameters (Table 12.7; assumption 40). -/
opaque dynStep : Bytes → Nat → List Int → Int → List Int
opaque dynLaw : Bytes → Nat → List Int → Int
opaque dynErr : Bytes → Nat → List Int → Int

/-- Error, in units in the last place, of a binary32 value that kernel id computes from the values with the given bits, before
it is held to 2 (assumption 41). -/
opaque kernErr : Nat → Nat → Nat → Int

/-- Filter coefficients of LOUDNESS and TRUE_PEAK at 96 kHz, in units of 2^-40 (R348; assumption 42). -/
opaque kernTap : Nat → Int

/-- Extension i of a firmware image (R466, R470), and the firmware version that an image reports (0x0000:07). -/
opaque fwExt : Bytes → Nat → Bytes
opaque fwVersion : Bytes → Nat

end Sys2Proof.Config
end

