-- ==== Sys2Proof/Machine/Crypto.lean ====
section
/-! DEFINITION. Message digests and checks by their published standards: SHA-256 and SHA-384 (FIPS 180-4), HMAC-SHA-256
(RFC 2104; R409), signatures by ECDSA P-384 (SEC 1, SEC 2; R351), and CRC-32 (R435 and the Ethernet FCS). -/

namespace Sys2Proof.Machine
open Sys2Proof

/-! ## SHA-2 -/

/-- The first 80 primes. -/
def primes : List Nat :=
  (List.range 410).filter (fun n => 2 ≤ n && (List.range' 2 19).all (fun d => n ≤ d || n % d != 0))

/-- Whole part of the k-th root of n, below r + 2^i, from its highest bit down. -/
def rootFrom (k n : Nat) : Nat → Nat → Nat
  | 0, r => r
  | i + 1, r => rootFrom k n i (if (r + 2 ^ i) ^ k ≤ n then r + 2 ^ i else r)

/-- First 64 fraction bits of the k-th root of each prime: FIPS 180-4 takes its constants from cube roots, and its initial
values from square roots. -/
def rootBits (k : Nat) (ps : List Nat) : List Nat := ps.map (fun p => rootFrom k (p * 2 ^ (64 * k)) 69 0 % 2 ^ 64)

/-- What the two digests differ in: the word's width in bits, the number of rounds, and the distances by which the four
functions rotate (the third of a schedule function shifts). -/
structure ShaForm where
  width : Nat
  rounds : Nat
  ofA : List Nat
  ofE : List Nat
  near : List Nat
  far : List Nat
  deriving DecidableEq, Repr

/-- SHA-256, and the 64-bit digest that SHA-384 is cut from. -/
def form256 : ShaForm := ⟨32, 64, [2, 13, 22], [6, 11, 25], [17, 19, 10], [7, 18, 3]⟩
def form384 : ShaForm := ⟨64, 80, [28, 34, 39], [14, 18, 41], [19, 61, 6], [1, 8, 7]⟩

namespace ShaForm

/-- A word turned to the right. -/
def turn (f : ShaForm) (x n : Nat) : Nat := (x + x * 2 ^ f.width) / 2 ^ n % 2 ^ f.width

/-- The turns of a word by a list of distances, added without carry. -/
def mix (f : ShaForm) (x : Nat) (ns : List Nat) : Nat := ns.foldl (fun a n => Nat.xor a (f.turn x n)) 0

/-- The same for the schedule, whose last distance is a shift. -/
def mixShift (f : ShaForm) (x : Nat) (ns : List Nat) : Nat := Nat.xor (f.mix x (ns.take 2)) (x / 2 ^ nth ns 2 0)

/-- A block's 16 words, newest first, grown by n words of the schedule. -/
def grow (f : ShaForm) : Nat → List Nat → List Nat
  | 0, w => w
  | n + 1, w =>
    f.grow n ((f.mixShift (nth w 1 0) f.near + f.mixShift (nth w 14 0) f.far + nth w 6 0 + nth w 15 0) % 2 ^ f.width :: w)

/-- A round takes the sum of a scheduled word and its constant into the variables a to h. Where a bit of e is set it chooses
that of f, else that of g; the majority of a, b and c is what two of them share. -/
def turnOver (f : ShaForm) (v : List Nat) (kw : Nat) : List Nat :=
  let at_ := fun i => nth v i 0
  let choice := Nat.xor (at_ 6) (Nat.land (at_ 4) (Nat.xor (at_ 5) (at_ 6)))
  let most := Nat.lor (Nat.land (at_ 0) (at_ 1)) (Nat.land (at_ 2) (Nat.lor (at_ 0) (at_ 1)))
  let sum := at_ 7 + f.mix (at_ 4) f.ofE + choice + kw
  ((sum + f.mix (at_ 0) f.ofA + most) % 2 ^ f.width) :: (v.take 3 ++ ((at_ 3 + sum) % 2 ^ f.width) :: (v.drop 4).take 3)

/-- A block's words enter the chaining value. -/
def block (f : ShaForm) (ks : List Nat) (h w : List Nat) : List Nat :=
  let ws := (f.grow (f.rounds - 16) w.reverse).reverse
  let v := (ks.zip ws).foldl (fun v p => f.turnOver v (p.1 + p.2)) h
  (h.zip v).map (fun p => (p.1 + p.2) % 2 ^ f.width)

/-- The digest of a message from an initial value: a one bit, zeros, and the length in bits fill up the last block. -/
def digest (f : ShaForm) (h : List Nat) (m : Bytes) : Bytes :=
  let b := f.width / 8
  let rest := (m.length + 1 + 2 * b) % (16 * b)
  let full := m ++ 0x80 :: zeros ((16 * b - rest) % (16 * b)) ++ beBytes (2 * b) (8 * m.length)
  let ks := (rootBits 3 (primes.take f.rounds)).map (· / 2 ^ (64 - f.width))
  ((chunks (16 * b) full).foldl (fun h c => f.block ks h ((chunks b c).map beNat)) h).flatMap (beBytes b)

end ShaForm

/-- SHA-256, 32 bytes, from the first eight primes. -/
def sha256 (m : Bytes) : Bytes := form256.digest ((rootBits 2 (primes.take 8)).map (· / 2 ^ 32)) m
/-- SHA-384, 48 bytes, from the ninth to the sixteenth prime. -/
def sha384 (m : Bytes) : Bytes := (form384.digest (rootBits 2 ((primes.drop 8).take 8)) m).take 48

/-- HMAC-SHA-256 (R409). -/
def hmacSha256 (key m : Bytes) : Bytes :=
  let k := fitBytes 64 (if key.length ≤ 64 then key else sha256 key)
  let x (c : Byte) : Bytes := k.map (fun b => b ^^^ c)
  sha256 (x 0x5C ++ sha256 (x 0x36 ++ m))

/-! ## ECDSA P-384 (R351, R467) -/

/-- The curve y² = x³ − 3x + b over the integers modulo p, its base point and that point's order (SEC 2). -/
def p384 : Nat := 2 ^ 384 - 2 ^ 128 - 2 ^ 96 + 2 ^ 32 - 1
def p384B : Nat := 0xb3312fa7e23ee7e4988e056be3f82d19181d9c6efe8141120314088f5013875ac656398d8a2ed19d2a85c8edd3ec2aef
def p384Order : Nat := 2 ^ 384 - 0x389cb27e0bc8d220a7e5f24db74f58851313e695333ad68d
def p384Base : Nat × Nat :=
  (0xaa87ca22be8b05378eb1c71ef320ad746e1d3b628ba79b9859f741e082542a385502f25dbf55296c3a545e3872760ab7,
   0x3617de4a96262c6f5d9e98bf9292dc29f8f41dbd289a147ce9da3113b5f0b8c00a60b1ce1d7e819d7a431d7c90ea0e5f)

/-- The low 384 bits of a number, highest first. -/
def bitsDown (k : Nat) : List Bool := (List.range 384).map (fun i => bit k (383 - i))

/-- b^e modulo m, and the inverse of b modulo a prime m. -/
def powMod (m b e : Nat) : Nat := (bitsDown e).foldl (fun r x => let q := r * r % m; if x then q * b % m else q) 1
def invMod (m b : Nat) : Nat := powMod m (b % m) (m - 2)

/-- A point of the curve; none is the point at infinity. -/
abbrev EcPoint := Option (Nat × Nat)

/-- Whether a pair is a point of the curve. -/
def onCurve (a : Nat × Nat) : Bool :=
  a.1 < p384 && a.2 < p384 && (a.2 * a.2 + 3 * a.1) % p384 == (a.1 * a.1 * a.1 + p384B) % p384

/-- Sum of two points (SEC 1): by the chord, or by the tangent of a point with itself. -/
def ecAdd (a b : EcPoint) : EcPoint :=
  match a, b with
  | none, b => b
  | a, none => a
  | some a, some b =>
    if a.1 == b.1 && (a.2 + b.2) % p384 == 0 then none
    else
      let k := if a.1 == b.1 then (3 * a.1 * a.1 + (p384 - 3)) * invMod p384 (2 * a.2)
        else (b.2 + (p384 - a.2)) * invMod p384 (b.1 + (p384 - a.1))
      let x := (k * k + (2 * p384 - a.1 - b.1)) % p384
      some (x, (k * (a.1 + (p384 - x)) + (p384 - a.2)) % p384)

/-- A point taken k times. -/
def ecTimes (k : Nat) (a : EcPoint) : EcPoint :=
  (bitsDown k).foldl (fun r x => let q := ecAdd r r; if x then ecAdd q a else q) none

/-- Whether a signature, r then s of 48 bytes each, over a digest of 48 bytes verifies under a public key of 97 bytes, 0x04, x
and y (SEC 1). -/
def ecdsaVerify (key digest sig : Bytes) : Bool :=
  let q := (fieldBE key 1 48, fieldBE key 49 48)
  let r := fieldBE sig 0 48
  let s := fieldBE sig 48 48
  let w := invMod p384Order s
  key.length == 97 && fieldBE key 0 1 == 4 && onCurve q && sig.length == 96 && 0 < r && r < p384Order && 0 < s &&
    s < p384Order &&
    (match ecAdd (ecTimes (beNat digest * w % p384Order) (some p384Base)) (ecTimes (r * w % p384Order) (some q)) with
     | some x => x.1 % p384Order == r
     | none => false)

/-! ## Checks -/

/-- One bit of a reflected CRC. -/
def crcBit (poly c : Nat) : Nat := if c % 2 == 1 then Nat.xor (c / 2) poly else c / 2

/-- Eight bits of a reflected CRC. -/
def crcByte (poly c : Nat) (b : Byte) : Nat :=
  let f := crcBit poly
  f (f (f (f (f (f (f (f (Nat.xor c b.toNat))))))))

/-- CRC-32 with the polynomial 0x04C11DB7, reflected, initial value and final XOR 0xFFFFFFFF (R435). -/
def crc32 (m : Bytes) : Nat := Nat.xor (m.foldl (crcByte 0xEDB88320) 0xFFFFFFFF) 0xFFFFFFFF

end Sys2Proof.Machine
end

