-- ==== Sys2Proof/Machine/Entries.lean ====
section
/-! DEFINITION. The object dictionary's fixed tables (R3 to R11, R450 to R455): the blocks of Tables 16.3 to 16.19 and,
for each, its sub-entries with type, access code, reset value, range and persistence, as the dictionary tables of the
chapters give them. Each row's comment names the entry and its table. A reset value 0 stands also for an entry whose
reset value another definition gives (Machine/Defaults.lean). -/

namespace Sys2Proof.Machine
open Sys2Proof

/-- Dictionary types (Table 0.2). -/
inductive Ty
  | bool | u8 | u16 | u32 | u64 | i16 | i32 | f32 | time80 | media64 | str | blob
  deriving DecidableEq, Repr

/-- Access codes (Table 0.3). -/
inductive Access
  | ro | rw | wo | rws | w1c
  deriving DecidableEq, Repr

/-- What a write of the right length must satisfy beyond its type (R7). `custom` means that the entry's own rule, in
Machine/Operands.lean (customOk), says it. -/
inductive Rng
  | any
  | trueOnly
  | nat (lo hi : Nat)
  | natOr (lo hi other : Nat)
  | zeroOr (lo hi : Nat)
  | int (lo hi : Int)
  | flt (lo hi : F32)
  | mask (m : Nat)
  | pow2 (lo hi : Nat)
  | oneOf (l : List Nat)
  | len (lo hi : Nat)
  | custom
  deriving DecidableEq, Repr

/-- One sub-entry of a dictionary table (R11). -/
structure Entry where
  sub : Nat
  ty : Ty
  acc : Access
  dflt : Nat
  rng : Rng
  pers : Bool
  deriving DecidableEq, Repr

/-- One block of the map (R454, Table 16.2): index range, instances (0 for forms One and Run), highest sub-index,
partition class (0 SYS, 1 OBJ, 2 OUT, 3 PORT, 4 NET, 5 POOL, 6 mixed) and chapter code. -/
structure Block where
  first : Nat
  last : Nat
  insts : Nat
  high : Nat
  cls : Nat
  chap : Nat
  ents : List Entry
  deriving DecidableEq, Repr

/-- A volatile sub-entry. -/
def ev (sub : Nat) (ty : Ty) (acc : Access) (dflt : Nat) (rng : Rng) : Entry := ⟨sub, ty, acc, dflt, rng, false⟩
/-- A persistent sub-entry (P, R11). -/
def ep (sub : Nat) (ty : Ty) (acc : Access) (dflt : Nat) (rng : Rng) : Entry := ⟨sub, ty, acc, dflt, rng, true⟩

/-- Identity (block 0). -/
def ents0 : List Entry := [
  ev 0x00 .u8 .ro 17 .any, -- Highest sub-index; R482, Table 17.7
  ev 0x01 .str .ro 0 .any, -- Vendor; R482, Table 17.7
  ev 0x02 .str .ro 0 .any, -- Part number; R482, Table 17.7
  ev 0x03 .str .ro 0 .any, -- Ordering code; R482, Table 17.7
  ev 0x04 .u16 .ro 0 .any, -- Silicon revision; R482, Table 17.7
  ev 0x05 .blob .ro 0 .any, -- Serial number; R482, Table 17.7
  ev 0x06 .u32 .ro 0 .any, -- ROM version; R482, Table 17.7
  ev 0x07 .u32 .ro 0 .any, -- Firmware version; R482, Table 17.7
  ev 0x08 .u64 .ro 0 .any, -- Identity base address; R482, Table 17.7
  ev 0x09 .u32 .ro 0 .any, -- Manufacture date; R482, Table 17.7
  ev 0x0A .str .ro 0 .any, -- Lot and wafer; R482, Table 17.7
  ev 0x0B .u8 .ro 0 .any, -- Temperature grade; R482, Table 17.7
  ev 0x0C .u16 .ro 1 .any, -- Manual issue; R482, Table 17.7
  ev 0x0D .u32 .ro 0 .any, -- Kernel library version; R482, Table 17.7
  ev 0x0E .u8 .ro 4 .any, -- Family member; R482, Table 17.7
  ev 0x0F .u8 .ro 0 .any, -- Factory records used; R482, Table 17.7
  ev 0x10 .u32 .ro 0 .any, -- Uptime; R482, Table 17.7
  ev 0x11 .bool .ro 0 .any] -- Certificate valid; R482, Table 17.7

/-- Capabilities (block 1). -/
def ents1 : List Entry := [
  ev 0x00 .u8 .ro 31 .any, -- Highest sub-index; R482, Table 17.7
  ev 0x01 .u32 .ro 0 .any, -- Capabilities; R482, Table 17.7
  ev 0x02 .u32 .ro 0 .any, -- Capabilities; R482, Table 17.7
  ev 0x03 .u32 .ro 0 .any, -- Capabilities; R482, Table 17.7
  ev 0x04 .u32 .ro 0 .any, -- Capabilities; R482, Table 17.7
  ev 0x05 .u32 .ro 0 .any, -- Capabilities; R482, Table 17.7
  ev 0x06 .u32 .ro 0 .any, -- Capabilities; R482, Table 17.7
  ev 0x07 .u32 .ro 0 .any, -- Capabilities; R482, Table 17.7
  ev 0x08 .u32 .ro 0 .any, -- Capabilities; R482, Table 17.7
  ev 0x09 .u32 .ro 0 .any, -- Capabilities; R482, Table 17.7
  ev 0x0A .u32 .ro 0 .any, -- Capabilities; R482, Table 17.7
  ev 0x0B .u32 .ro 0 .any, -- Capabilities; R482, Table 17.7
  ev 0x0C .u32 .ro 0 .any, -- Capabilities; R482, Table 17.7
  ev 0x0D .u32 .ro 0 .any, -- Capabilities; R482, Table 17.7
  ev 0x0E .u32 .ro 0 .any, -- Capabilities; R482, Table 17.7
  ev 0x0F .u32 .ro 0 .any, -- Capabilities; R482, Table 17.7
  ev 0x10 .u32 .ro 0 .any, -- Capabilities; R482, Table 17.7
  ev 0x11 .u32 .ro 0 .any, -- Capabilities; R482, Table 17.7
  ev 0x12 .u32 .ro 0 .any, -- Capabilities; R482, Table 17.7
  ev 0x13 .u32 .ro 0 .any, -- Capabilities; R482, Table 17.7
  ev 0x14 .u32 .ro 0 .any, -- Capabilities; R482, Table 17.7
  ev 0x15 .u32 .ro 0 .any, -- Capabilities; R482, Table 17.7
  ev 0x16 .u32 .ro 0 .any, -- Capabilities; R482, Table 17.7
  ev 0x17 .u32 .ro 0 .any, -- Capabilities; R482, Table 17.7
  ev 0x18 .u32 .ro 0 .any, -- Capabilities; R482, Table 17.7
  ev 0x19 .u32 .ro 0 .any, -- Capabilities; R482, Table 17.7
  ev 0x1A .u32 .ro 0 .any, -- Capabilities; R482, Table 17.7
  ev 0x1B .u32 .ro 0 .any, -- Capabilities; R482, Table 17.7
  ev 0x1C .u32 .ro 0 .any, -- Capabilities; R482, Table 17.7
  ev 0x1D .u32 .ro 0 .any, -- Capabilities; R482, Table 17.7
  ev 0x1E .u32 .ro 0 .any, -- Capabilities; R482, Table 17.7
  ev 0x1F .u32 .ro 0 .any] -- Capabilities; R482, Table 17.7

/-- Boot straps (block 2). -/
def ents2 : List Entry := [
  ev 0x00 .u8 .ro 9 .any, -- Highest sub-index; R482, Table 17.7
  ev 0x01 .u16 .ro 0 .any, -- Strap word; R482, Table 17.7
  ev 0x02 .u8 .ro 0 .any, -- Boot mode strap; R482, Table 17.7
  ev 0x03 .u8 .ro 0 .any, -- Reference clock; R482, Table 17.7
  ev 0x04 .u8 .ro 0 .any, -- Voltage request strap; R482, Table 17.7
  ev 0x05 .bool .ro 0 .any, -- Manufacturing; R482, Table 17.7
  ev 0x06 .bool .ro 0 .any, -- Watchdog strap; R482, Table 17.7
  ev 0x07 .u8 .ro 0 .any, -- IO bank voltages; R482, Table 17.7
  ev 0x08 .bool .ro 0 .any, -- Recovery requested; R482, Table 17.7
  ev 0x09 .bool .ro 0 .any] -- Boundary scan available; R482, Table 17.7

/-- Dictionary summary (block 3). -/
def ents3 : List Entry := [
  ev 0x00 .u8 .ro 7 .any, -- Highest sub-index; R482, Table 17.7
  ev 0x01 .u16 .ro 2210 .any, -- Indices; R482, Table 17.7
  ev 0x02 .u16 .ro 7936 .any, -- Sub-entries; R482, Table 17.7
  ev 0x03 .u8 .ro 99 .any, -- Blocks; R482, Table 17.7
  ev 0x04 .u16 .ro 27647 .any, -- Highest index; R482, Table 17.7
  ev 0x05 .u16 .ro 1 .any, -- Map version; R482, Table 17.7
  ev 0x06 .u16 .ro 28672 .any, -- Reserved range first; R482, Table 17.7
  ev 0x07 .u16 .ro 32767 .any] -- Reserved range last; R482, Table 17.7

/-- Block descriptors; block = index − 0x0010 (block 4). -/
def ents4 : List Entry := [
  ev 0x00 .u8 .ro 6 .any, -- Highest sub-index; R454, Table 16.2
  ev 0x01 .u16 .ro 0 .any, -- First index; R454, Table 16.2
  ev 0x02 .u16 .ro 0 .any, -- Last index; R454, Table 16.2
  ev 0x03 .u16 .ro 0 .any, -- Instances; R454, Table 16.2
  ev 0x04 .u8 .ro 0 .any, -- Highest sub-index of the block; R454, Table 16.2
  ev 0x05 .u8 .ro 0 .any, -- Partition class; R454, Table 16.2
  ev 0x06 .u8 .ro 0 .any] -- Owning chapter; R454, Table 16.2

/-- Factory records; record = index − 0x0080 (block 5). -/
def ents5 : List Entry := [
  ev 0x00 .u8 .ro 2 .any, -- Highest sub-index; R482, Table 17.7
  ev 0x01 .u16 .ro 0 .any, -- Record kind; R482, Table 17.7
  ev 0x02 .blob .ro 0 .any] -- Record data; R482, Table 17.7

/-- Hosts (block 6). -/
def ents6 : List Entry := [
  ev 0x00 .u8 .ro 18 .any, -- Highest sub-index; R443, Table 15.13
  ep 0x01 .bool .rw 0 .any, -- Enable; R443, Table 15.13
  ep 0x02 .blob .wo 0 (.len 32 32), -- Key; R443, Table 15.13
  ev 0x03 .bool .ro 0 .any, -- Key set; R443, Table 15.13
  ep 0x04 .u16 .rw 0 (.mask 0x7F), -- Rights; R443, Table 15.13
  ep 0x05 .u8 .rw 0 (.mask 0x07), -- Transports; R443, Table 15.13
  ep 0x06 .u32 .rw 0 .any, -- Source filter; R443, Table 15.13
  ep 0x07 .u32 .rw 10000 (.nat 1000 600000), -- Session timeout; R443, Table 15.13
  ev 0x08 .bool .ro 0 .any, -- Session open; R443, Table 15.13
  ev 0x09 .u32 .ro 0 .any, -- Session ID; R443, Table 15.13
  ev 0x0A .u8 .ro 255 .any, -- Transport in use; R443, Table 15.13
  ev 0x0B .media64 .ro 0 .any, -- Opened at; R443, Table 15.13
  ev 0x0C .u32 .ro 0 .any, -- Requests accepted; R443, Table 15.13
  ev 0x0D .u32 .ro 0 .any, -- Authentication failures; R443, Table 15.13
  ev 0x0E .u32 .ro 0 .any, -- Sequence refusals; R443, Table 15.13
  ev 0x0F .u32 .ro 0 .any, -- Retransmissions answered; R443, Table 15.13
  ev 0x10 .u32 .ro 0 .any, -- Highest sequence; R443, Table 15.13
  ev 0x11 .u8 .w1c 0 (.mask 0xf), -- Host status; R443, Table 15.13
  ep 0x12 .str .rw 0 (.len 0 32)] -- Name; R443, Table 15.13

/-- Yexel globals (block 7). -/
def ents7 : List Entry := [
  ev 0x00 .u8 .ro 9 .any, -- Highest sub-index; R444, Table 15.14
  ev 0x01 .u8 .ro 0 .any, -- Sessions open; R444, Table 15.14
  ev 0x02 .u16 .ro 8192 .any, -- Largest message, MAC4 and MAC5; R444, Table 15.14
  ev 0x03 .u16 .ro 1472 .any, -- Largest message, media MACs; R444, Table 15.14
  ev 0x04 .u16 .ro 8192 .any, -- Largest message, host SPI; R444, Table 15.14
  ev 0x05 .u8 .ro 64 .any, -- Replay window; R444, Table 15.14
  ev 0x06 .u8 .ro 8 .any, -- Responses cached; R444, Table 15.14
  ev 0x07 .bool .ro 1 .any, -- Provisioning; R444, Table 15.14
  ev 0x08 .u32 .ro 0 .any, -- Messages dropped; R444, Table 15.14
  ev 0x09 .u8 .w1c 0 (.mask 0x1)] -- Yexel flags; R444, Table 15.14

/-- Owners (block 8). -/
def ents8 : List Entry := [
  ev 0x00 .u8 .ro 13 .any, -- Highest sub-index; R445, Table 15.15
  ep 0x01 .blob .rw 0 (.len 1024 1024), -- Owners of the members of Table 15.9; R445, Table 15.15
  ep 0x02 .blob .rw 0 (.len 512 512), -- Owners of the members of Table 15.9; R445, Table 15.15
  ep 0x03 .blob .rw 0 (.len 256 256), -- Owners of the members of Table 15.9; R445, Table 15.15
  ep 0x04 .blob .rw 0 (.len 1024 1024), -- Owners of the members of Table 15.9; R445, Table 15.15
  ep 0x05 .blob .rw 0 (.len 24 24), -- Owners of the members of Table 15.9; R445, Table 15.15
  ep 0x06 .blob .rw 0 (.len 32 32), -- Owners of the members of Table 15.9; R445, Table 15.15
  ep 0x07 .blob .rw 0 (.len 16 16), -- Owners of the members of Table 15.9; R445, Table 15.15
  ep 0x08 .blob .rw 0 (.len 6 6), -- Owners of the members of Table 15.9; R445, Table 15.15
  ep 0x09 .blob .rw 0 (.len 256 256), -- Owners of the members of Table 15.9; R445, Table 15.15
  ep 0x0A .blob .rw 0 (.len 256 256), -- Owners of the members of Table 15.9; R445, Table 15.15
  ep 0x0B .blob .rw 0 (.len 1024 1024), -- Owners of the members of Table 15.9; R445, Table 15.15
  ep 0x0C .blob .rw 0 (.len 256 256), -- Owners of the members of Table 15.9; R445, Table 15.15
  ev 0x0D .blob .wo 0 (.len 8 4096)] -- Assign ranges; R445, Table 15.15

/-- Notifications (block 9). -/
def ents9 : List Entry := [
  ev 0x00 .u8 .ro 7 .any, -- Highest sub-index; R446, Table 15.16
  ep 0x01 .blob .rw 0 (.len 0 512), -- Watches; R446, Table 15.16
  ep 0x02 .u8 .rw 3 (.mask 0x03), -- Event classes; R446, Table 15.16
  ep 0x03 .u16 .rw 10 (.nat 1 1000), -- Interval; R446, Table 15.16
  ev 0x04 .u32 .ro 0 .any, -- Notifications sent; R446, Table 15.16
  ev 0x05 .u32 .ro 0 .any, -- Records sent; R446, Table 15.16
  ev 0x06 .u32 .ro 0 .any, -- Records lost; R446, Table 15.16
  ev 0x07 .u8 .w1c 0 (.mask 0x3)] -- Notification flags; R446, Table 15.16

/-- Safe-load (block 10). -/
def ents10 : List Entry := [
  ev 0x00 .u8 .ro 11 .any, -- Highest sub-index; R447, Table 15.17
  ev 0x01 .media64 .wo 0 .any, -- Commit; R447, Table 15.17
  ev 0x02 .bool .wo 0 .trueOnly, -- Cancel; R447, Table 15.17
  ev 0x03 .u8 .ro 0 .any, -- Commit state; R447, Table 15.17
  ev 0x04 .u8 .ro 255 .any, -- Committing host; R447, Table 15.17
  ev 0x05 .media64 .ro 0 .any, -- Commit time; R447, Table 15.17
  ev 0x06 .media64 .ro 0 .any, -- Plan lands at; R447, Table 15.17
  ev 0x07 .media64 .ro 0 .any, -- Accepted at; R447, Table 15.17
  ev 0x08 .u32 .ro 0 .any, -- Commits landed; R447, Table 15.17
  ev 0x09 .u32 .ro 0 .any, -- Commits refused; R447, Table 15.17
  ev 0x0A .u32 .ro 0 .any, -- Commits cancelled; R447, Table 15.17
  ev 0x0B .u8 .w1c 0 (.mask 0xf)] -- Safe-load flags; R447, Table 15.17

/-- Stages (block 11). -/
def ents11 : List Entry := [
  ev 0x00 .u8 .ro 5 .any, -- Highest sub-index; R448, Table 15.18
  ev 0x01 .u16 .ro 0 .any, -- Staged values; R448, Table 15.18
  ev 0x02 .bool .wo 0 .trueOnly, -- Discard stage; R448, Table 15.18
  ev 0x03 .blob .ro 0 .any, -- Staged list; R448, Table 15.18
  ev 0x04 .u8 .ro 0 .any, -- Last commit status; R448, Table 15.18
  ev 0x05 .media64 .ro 0 .any] -- Last commit landed at; R448, Table 15.18

/-- Store (block 12). -/
def ents12 : List Entry := [
  ev 0x00 .u8 .ro 16 .any, -- Highest sub-index; R449, Table 15.19
  ev 0x01 .bool .wo 0 .trueOnly, -- Save; R449, Table 15.19
  ev 0x02 .u8 .ro 0 .any, -- Save state; R449, Table 15.19
  ep 0x03 .u32 .rw 0 (.zeroOr 1000 3600000), -- Autosave delay; R449, Table 15.19
  ev 0x04 .bool .wo 0 .trueOnly, -- Restore defaults; R449, Table 15.19
  ev 0x05 .u8 .ro 255 .any, -- Leaf in force; R449, Table 15.19
  ev 0x06 .u32 .ro 0 .any, -- Sequence in force; R449, Table 15.19
  ev 0x07 .u8 .ro 0 .any, -- Leaf 0 state; R449, Table 15.19
  ev 0x08 .u8 .ro 0 .any, -- Leaf 1 state; R449, Table 15.19
  ev 0x09 .u32 .ro 0 .any, -- Image bytes; R449, Table 15.19
  ev 0x0A .u32 .ro 0 .any, -- Saves; R449, Table 15.19
  ev 0x0B .u32 .ro 0 .any, -- Save failures; R449, Table 15.19
  ev 0x0C .media64 .ro 0 .any, -- Last saved at; R449, Table 15.19
  ev 0x0D .u32 .ro 0 .any, -- Records restored; R449, Table 15.19
  ev 0x0E .u32 .ro 0 .any, -- Records skipped; R449, Table 15.19
  ev 0x0F .bool .ro 0 .any, -- Unsaved changes; R449, Table 15.19
  ev 0x10 .u8 .w1c 0 (.mask 0x1f)] -- Store flags; R449, Table 15.19

/-- Object channels (block 13). -/
def ents13 : List Entry := [
  ev 0x00 .u8 .ro 24 .any, -- Highest sub-index; R40, Table 2.2
  ep 0x01 .bool .rw 0 .any, -- Enable; R40, Table 2.2
  ep 0x02 .u8 .rw 0 (.nat 0 3), -- Mode; R40, Table 2.2
  ep 0x03 .f32 .rw 0 (.flt 0xc2f00000 0x41c00000), -- Trim; R40, Table 2.2
  ev 0x04 .bool .rw 0 .any, -- Mute; R40, Table 2.2
  ep 0x05 .u8 .rw 128 (.nat 0 255), -- Priority; R40, Table 2.2
  ep 0x06 .u32 .rw 0xffffffff .any, -- Zone mask; R40, Table 2.2
  ep 0x07 .f32 .rw 0 (.flt 0x0 0x41f00000), -- Snap angle; R40, Table 2.2
  ep 0x08 .u32 .rw 4096 (.pow2 256 65536), -- Furrow depth; R40, Table 2.2
  ep 0x09 .u8 .rw 0 (.nat 0 1), -- Delay kernel; R40, Table 2.2
  ep 0x0A .str .rw 0 (.len 0 32), -- Name; R40, Table 2.2
  ev 0x0B .bool .wo 0 .trueOnly, -- Flush queue; R40, Table 2.2
  ev 0x0C .u16 .ro 0 .any, -- Queue fill; R40, Table 2.2
  ev 0x0D .media64 .ro 0 .any, -- Anchor time; R40, Table 2.2
  ev 0x0E .f32 .ro 0 .any, -- Position x in force; R40, Table 2.2
  ev 0x0F .f32 .ro 0x3f800000 .any, -- Position y in force; R40, Table 2.2
  ev 0x10 .f32 .ro 0 .any, -- Position z in force; R40, Table 2.2
  ev 0x11 .f32 .ro 0 .any, -- Keyframe gain in force; R40, Table 2.2
  ev 0x12 .f32 .ro 0 .any, -- Spread in force; R40, Table 2.2
  ev 0x13 .f32 .ro 0 .any, -- Size in force; R40, Table 2.2
  ev 0x14 .u32 .ro 0 .any, -- Late keyframes; R40, Table 2.2
  ev 0x15 .u32 .ro 0 .any, -- Replaced keyframes; R40, Table 2.2
  ev 0x16 .u32 .ro 0 .any, -- Refused keyframes; R40, Table 2.2
  ev 0x17 .u8 .w1c 0 (.mask 0x1f), -- Object status; R40, Table 2.2
  ev 0x18 .u32 .ro 0 .any] -- Keyframes landed; R40, Table 2.2

/-- Keyframe push (block 14). -/
def ents14 : List Entry := [
  ev 0x00 .u8 .ro 1 .any, -- Highest sub-index; R53, Table 2.8
  ev 0x01 .blob .wo 0 (.len 56 57344)] -- Keyframe push; R53, Table 2.8

/-- Keyframe status (block 15). -/
def ents15 : List Entry := [
  ev 0x00 .u8 .ro 12 .any, -- Highest sub-index; R54, Table 2.9
  ev 0x01 .u32 .ro 0 .any, -- First tag; R54, Table 2.9
  ev 0x02 .u16 .ro 0 .any, -- Records; R54, Table 2.9
  ev 0x03 .u16 .ro 0 .any, -- On time; R54, Table 2.9
  ev 0x04 .u16 .ro 0 .any, -- Late; R54, Table 2.9
  ev 0x05 .u16 .ro 0 .any, -- Refused; R54, Table 2.9
  ev 0x06 .u16 .ro 65535 .any, -- First refused index; R54, Table 2.9
  ev 0x07 .u8 .ro 0 .any, -- First refused status; R54, Table 2.9
  ev 0x08 .media64 .ro 0 .any, -- Acceptance time; R54, Table 2.9
  ev 0x09 .u16 .ro 0 .any, -- Replaced; R54, Table 2.9
  ev 0x0A .u16 .ro 0 .any, -- Flushed; R54, Table 2.9
  ev 0x0B .u8 .w1c 0 (.mask 0x7), -- Push flags; R54, Table 2.9
  ev 0x0C .u32 .ro 0 .any] -- Late total; R54, Table 2.9

/-- Scene globals (block 16). -/
def ents16 : List Entry := [
  ev 0x00 .u8 .ro 17 .any, -- Highest sub-index; R58, Table 2.10
  ep 0x01 .f32 .rw 0 (.flt 0xc47a0000 0x447a0000), -- Origin x; R58, Table 2.10
  ep 0x02 .f32 .rw 0 (.flt 0xc47a0000 0x447a0000), -- Origin y; R58, Table 2.10
  ep 0x03 .f32 .rw 0 (.flt 0xc47a0000 0x447a0000), -- Origin z; R58, Table 2.10
  ep 0x04 .f32 .rw 0 (.flt 0xc3340000 0x43340000), -- Yaw; R58, Table 2.10
  ep 0x05 .u32 .rw 4800 (.nat 0 480000), -- Transform glide; R58, Table 2.10
  ep 0x06 .f32 .rw 0x41a00000 (.flt 0xc1a00000 0x42480000), -- Air temperature; R58, Table 2.10
  ep 0x07 .u8 .rw 0 (.nat 0 1), -- Temperature source; R58, Table 2.10
  ev 0x08 .f32 .ro 0x41a00000 .any, -- Measured temperature; R58, Table 2.10
  ev 0x09 .bool .ro 0 .any, -- Measurement valid; R58, Table 2.10
  ev 0x0A .f32 .ro 0x43ab999a .any, -- Speed of sound in use; R58, Table 2.10
  ev 0x0B .f32 .ro 0x43ab999a .any, -- Speed of sound target; R58, Table 2.10
  ev 0x0C .u16 .ro 0 .any, -- Objects enabled; R58, Table 2.10
  ev 0x0D .u32 .ro 0 .any, -- Keyframes pending; R58, Table 2.10
  ev 0x0E .u32 .ro 0 .any, -- Late total; R58, Table 2.10
  ev 0x0F .u32 .ro 0 .any, -- Keyframes landed; R58, Table 2.10
  ev 0x10 .u16 .ro 32 .any, -- Acceptance horizon; R58, Table 2.10
  ev 0x11 .u8 .w1c 0 (.mask 0x3)] -- Scene flags; R58, Table 2.10

/-- Planting plan (block 17). -/
def ents17 : List Entry := [
  ev 0x00 .u8 .ro 13 .any, -- Highest sub-index; R62, Table 3.1
  ep 0x01 .bool .rws 0 .any, -- Enable; R62, Table 3.1
  ep 0x02 .f32 .rws 0 (.flt 0xc47a0000 0x447a0000), -- Position x; R62, Table 3.1
  ep 0x03 .f32 .rws 0 (.flt 0xc47a0000 0x447a0000), -- Position y; R62, Table 3.1
  ep 0x04 .f32 .rws 0 (.flt 0xc47a0000 0x447a0000), -- Position z; R62, Table 3.1
  ep 0x05 .f32 .rws 0 (.flt 0xc3340000 0x43340000), -- Aim azimuth; R62, Table 3.1
  ep 0x06 .f32 .rws 0 (.flt 0xc2b40000 0x42b40000), -- Aim elevation; R62, Table 3.1
  ep 0x07 .u8 .rws 1 (.nat 0 1), -- Aim mode; R62, Table 3.1
  ep 0x08 .u32 .rws 1 .any, -- Zones; R62, Table 3.1
  ep 0x09 .u8 .rws 1 (.mask 0x03), -- Laws; R62, Table 3.1
  ep 0x0A .str .rw 0 (.len 0 32), -- Name; R62, Table 3.1
  ev 0x0B .f32 .ro 0 .any, -- Direction azimuth; R62, Table 3.1
  ev 0x0C .f32 .ro 0 .any, -- Direction elevation; R62, Table 3.1
  ev 0x0D .f32 .ro 0 .any] -- Distance from reference; R62, Table 3.1

/-- Triplets (block 18). -/
def ents18 : List Entry := [
  ev 0x00 .u8 .ro 4 .any, -- Highest sub-index; R64, Table 3.2
  ep 0x01 .u16 .rws 65535 (.natOr 0 511 0xFFFF), -- Member a; R64, Table 3.2
  ep 0x02 .u16 .rws 65535 (.natOr 0 511 0xFFFF), -- Member b; R64, Table 3.2
  ep 0x03 .u16 .rws 65535 (.natOr 0 511 0xFFFF), -- Member c; R64, Table 3.2
  ev 0x04 .f32 .ro 0 .any] -- Determinant; R64, Table 3.2

/-- Zones (block 19). -/
def ents19 : List Entry := [
  ev 0x00 .u8 .ro 4 .any, -- Highest sub-index; R65, Table 3.3
  ep 0x01 .bool .rw 1 .any, -- Enable; R65, Table 3.3
  ep 0x02 .str .rw 0 (.len 0 32), -- Name; R65, Table 3.3
  ep 0x03 .bool .rw 0 .any, -- Exclude; R65, Table 3.3
  ev 0x04 .u16 .ro 0 .any] -- Members; R65, Table 3.3

/-- Geometry globals (block 20). -/
def ents20 : List Entry := [
  ev 0x00 .u8 .ro 27 .any, -- Highest sub-index; R89, Table 3.7
  ep 0x01 .f32 .rws 0 (.flt 0xc47a0000 0x447a0000), -- Reference x; R89, Table 3.7
  ep 0x02 .f32 .rws 0 (.flt 0xc47a0000 0x447a0000), -- Reference y; R89, Table 3.7
  ep 0x03 .f32 .rws 0 (.flt 0xc47a0000 0x447a0000), -- Reference z; R89, Table 3.7
  ep 0x04 .f32 .rw 0 (.flt 0x0 0x41400000), -- Distance rolloff; R89, Table 3.7
  ep 0x05 .f32 .rw 0x3f800000 (.flt 0x3dcccccd 0x42c80000), -- Reference distance; R89, Table 3.7
  ep 0x06 .f32 .rw 0x3e800000 (.flt 0x3c23d70a 0x41200000), -- Minimum distance; R89, Table 3.7
  ep 0x07 .f32 .rw 0x40c00000 (.flt 0x0 0x41c00000), -- Distance gain limit; R89, Table 3.7
  ep 0x08 .bool .rw 0 .any, -- Distance delay; R89, Table 3.7
  ep 0x09 .f32 .rw 0x40c00000 (.flt 0x3f800000 0x41c00000), -- Distance-based rolloff; R89, Table 3.7
  ep 0x0A .f32 .rw 0x3e4ccccd (.flt 0x0 0x41200000), -- Distance-based blur; R89, Table 3.7
  ep 0x0B .f32 .rw 0x3f000000 (.flt 0x3d4ccccd 0x41200000), -- Wave-field minimum distance; R89, Table 3.7
  ep 0x0C .f32 .rw 0xc2a00000 (.flt 0xc2f00000 0xc2200000), -- Sprig floor; R89, Table 3.7
  ep 0x0D .f32 .rw 0x40800000 (.flt 0x3e800000 0x42800000), -- Delay jump threshold; R89, Table 3.7
  ep 0x0E .u16 .rw 30 (.nat 0 3000), -- Pruning hold; R89, Table 3.7
  ev 0x0F .u32 .ro 0x20000 .any, -- Sprig budget; R89, Table 3.7
  ev 0x10 .u32 .ro 0 .any, -- Slots in use; R89, Table 3.7
  ev 0x11 .u32 .ro 0 .any, -- Peak slots; R89, Table 3.7
  ev 0x12 .u32 .ro 0 .any, -- Pruned total; R89, Table 3.7
  ev 0x13 .u32 .ro 0 .any, -- Deferred total; R89, Table 3.7
  ev 0x14 .u32 .ro 0 .any, -- Blocks with Pruning; R89, Table 3.7
  ev 0x15 .u32 .ro 0 .any, -- Pruned in last block; R89, Table 3.7
  ev 0x16 .u32 .ro 0 .any, -- Delay jumps; R89, Table 3.7
  ev 0x17 .u32 .ro 0 .any, -- Wave-field fallbacks; R89, Table 3.7
  ev 0x18 .media64 .ro 0 .any, -- Plan landed at; R89, Table 3.7
  ev 0x19 .u8 .ro 0 .any, -- Plan refusal reason; R89, Table 3.7
  ev 0x1A .u16 .ro 65535 .any, -- Plan refusal item; R89, Table 3.7
  ev 0x1B .u8 .w1c 0 (.mask 0x1f)] -- Geometry flags; R89, Table 3.7

/-- Object geometry report (block 21). -/
def ents21 : List Entry := [
  ev 0x00 .u8 .ro 10 .any, -- Highest sub-index; R90, Table 3.9
  ev 0x01 .u8 .ro 255 .any, -- Law applied; R90, Table 3.9
  ev 0x02 .u16 .ro 0 .any, -- Candidates; R90, Table 3.9
  ev 0x03 .u16 .ro 0 .any, -- Sprigs formed; R90, Table 3.9
  ev 0x04 .u16 .ro 0 .any, -- Slots in force; R90, Table 3.9
  ev 0x05 .u16 .ro 65535 .any, -- Triplet in use; R90, Table 3.9
  ev 0x06 .f32 .ro 0 .any, -- Distance from reference; R90, Table 3.9
  ev 0x07 .u16 .ro 0 .any, -- Pruned in last block; R90, Table 3.9
  ev 0x08 .u32 .ro 0 .any, -- Pruned total; R90, Table 3.9
  ev 0x09 .u32 .ro 0 .any, -- Deferred total; R90, Table 3.9
  ev 0x0A .u8 .w1c 0 (.mask 0xf)] -- Geometry status; R90, Table 3.9

/-- Render globals (block 22). -/
def ents22 : List Entry := [
  ev 0x00 .u8 .ro 17 .any, -- Highest sub-index; R110, Table 4.7
  ev 0x01 .u32 .ro 0 .any, -- Blocks rendered; R110, Table 4.7
  ev 0x02 .u32 .ro 0 .any, -- Slots in last block; R110, Table 4.7
  ev 0x03 .u32 .ro 0x400000 .any, -- Furrow cells allocated; R110, Table 4.7
  ev 0x04 .u32 .ro 0 .any, -- Furrow cells free; R110, Table 4.7
  ev 0x05 .u32 .ro 0 .any, -- Largest free region; R110, Table 4.7
  ev 0x06 .bool .wo 0 .trueOnly, -- Repack; R110, Table 4.7
  ev 0x07 .bool .ro 0 .any, -- Repack pending; R110, Table 4.7
  ev 0x08 .media64 .ro 0 .any, -- Repack landed at; R110, Table 4.7
  ev 0x09 .u16 .ro 0 .any, -- Furrows moved; R110, Table 4.7
  ev 0x0A .u32 .ro 0 .any, -- Depth changes landed; R110, Table 4.7
  ev 0x0B .u32 .ro 0 .any, -- Depth writes refused; R110, Table 4.7
  ev 0x0C .u32 .ro 0 .any, -- Delay clamps; R110, Table 4.7
  ev 0x0D .u32 .ro 0 .any, -- Interpolation saturations; R110, Table 4.7
  ev 0x0E .u32 .ro 0 .any, -- Accumulator saturations; R110, Table 4.7
  ev 0x0F .u32 .ro 0 .any, -- Output clips; R110, Table 4.7
  ev 0x10 .u32 .ro 0 .any, -- Uncorrectable Furrow reads; R110, Table 4.7
  ev 0x11 .u8 .w1c 0 (.mask 0x7f)] -- Render flags; R110, Table 4.7

/-- Object render report (block 23). -/
def ents23 : List Entry := [
  ev 0x00 .u8 .ro 11 .any, -- Highest sub-index; R111, Table 4.9
  ev 0x01 .u32 .ro 0 .any, -- Furrow base; R111, Table 4.9
  ev 0x02 .u32 .ro 4096 .any, -- Depth in force; R111, Table 4.9
  ev 0x03 .u32 .ro 0 .any, -- Pending depth; R111, Table 4.9
  ev 0x04 .u32 .ro 0xffffffff .any, -- Pending base; R111, Table 4.9
  ev 0x05 .u32 .ro 4064 .any, -- Maximum delay; R111, Table 4.9
  ev 0x06 .media64 .ro 0 .any, -- Furrow start time; R111, Table 4.9
  ev 0x07 .media64 .ro 0 .any, -- Change lands at; R111, Table 4.9
  ev 0x08 .u32 .ro 0 .any, -- Delay clamps; R111, Table 4.9
  ev 0x09 .u32 .ro 0 .any, -- Interpolation saturations; R111, Table 4.9
  ev 0x0A .u32 .ro 0 .any, -- Uncorrectable reads; R111, Table 4.9
  ev 0x0B .u8 .w1c 0 (.mask 0x3f)] -- Render status; R111, Table 4.9

/-- Render output report (block 24). -/
def ents24 : List Entry := [
  ev 0x00 .u8 .ro 6 .any, -- Highest sub-index; R112, Table 4.11
  ev 0x01 .u16 .ro 0 .any, -- Sprigs in last block; R112, Table 4.11
  ev 0x02 .u16 .ro 0 .any, -- Slots in last block; R112, Table 4.11
  ev 0x03 .f32 .ro 0xc3100000 .any, -- Peak in last block; R112, Table 4.11
  ev 0x04 .u32 .ro 0 .any, -- Accumulator saturations; R112, Table 4.11
  ev 0x05 .u32 .ro 0 .any, -- Output clips; R112, Table 4.11
  ev 0x06 .u8 .w1c 0 (.mask 0x3)] -- Output status; R112, Table 4.11

/-- Output correction (block 25). -/
def ents25 : List Entry := [
  ev 0x00 .u8 .ro 23 .any, -- Highest sub-index; R139, Table 5.8
  ev 0x01 .u16 .ro 0 .any, -- Set in force; R139, Table 5.8
  ep 0x02 .u32 .rw 0 (.nat 0 96000), -- Bulk delay; R139, Table 5.8
  ev 0x03 .u32 .ro 0 .any, -- Bulk delay in force; R139, Table 5.8
  ep 0x04 .f32 .rws 0 (.flt 0xc2f00000 0x41400000), -- Master gain; R139, Table 5.8
  ep 0x05 .bool .rws 0 .any, -- Mute; R139, Table 5.8
  ep 0x06 .u16 .rw 64 (.nat 0 4096), -- Master ramp; R139, Table 5.8
  ep 0x07 .f32 .rw 0xbdcccccd (.flt 0xc2700000 0x0), -- Limiter threshold; R139, Table 5.8
  ep 0x08 .f32 .rw 0x42c80000 (.flt 0x3f800000 0x459c4000), -- Limiter release; R139, Table 5.8
  ep 0x09 .bool .rw 0 .any, -- Dither; R139, Table 5.8
  ev 0x0A .u8 .ro 0 .any, -- Graft state; R139, Table 5.8
  ev 0x0B .u16 .ro 65535 .any, -- Running set; R139, Table 5.8
  ev 0x0C .media64 .ro 0 .any, -- Fade starts at; R139, Table 5.8
  ev 0x0D .media64 .ro 0 .any, -- Graft ends at; R139, Table 5.8
  ev 0x0E .u16 .ro 65535 .any, -- Pending set; R139, Table 5.8
  ev 0x0F .media64 .ro 0 .any, -- Pending start; R139, Table 5.8
  ev 0x10 .u32 .ro 256 .any, -- Taps committed; R139, Table 5.8
  ev 0x11 .f32 .ro 0xc3100000 .any, -- Peak before limiter; R139, Table 5.8
  ev 0x12 .f32 .ro 0 .any, -- Gain reduction; R139, Table 5.8
  ev 0x13 .u32 .ro 0 .any, -- Limited samples; R139, Table 5.8
  ev 0x14 .u32 .ro 0 .any, -- Conversion clips; R139, Table 5.8
  ev 0x15 .u32 .ro 0 .any, -- Uncorrectable reads; R139, Table 5.8
  ev 0x16 .u32 .ro 0 .any, -- Deferred bulk starts; R139, Table 5.8
  ev 0x17 .u8 .w1c 0 (.mask 0x7f)] -- Correction status; R139, Table 5.8

/-- Filter sets (block 26). -/
def ents26 : List Entry := [
  ev 0x00 .u8 .ro 10 .any, -- Highest sub-index; R140, Table 5.10
  ev 0x01 .blob .rw 0 (.len 388 131456), -- Set data; R140, Table 5.10
  ev 0x02 .str .rw 0 (.len 0 32), -- Name; R140, Table 5.10
  ev 0x03 .u8 .ro 0 .any, -- State; R140, Table 5.10
  ev 0x04 .u32 .ro 0 .any, -- Taps; R140, Table 5.10
  ev 0x05 .u32 .ro 0 .any, -- Length; R140, Table 5.10
  ev 0x06 .u32 .ro 0 .any, -- Settle; R140, Table 5.10
  ev 0x07 .u16 .ro 0 .any, -- Uses; R140, Table 5.10
  ev 0x08 .bool .wo 0 .trueOnly, -- Erase; R140, Table 5.10
  ev 0x09 .u8 .ro 0 .any, -- Refusal reason; R140, Table 5.10
  ev 0x0A .u16 .ro 65535 .any] -- Refusal item; R140, Table 5.10

/-- Graft and correction globals (block 27). -/
def ents27 : List Entry := [
  ev 0x00 .u8 .ro 14 .any, -- Highest sub-index; R141, Table 5.11
  ev 0x01 .blob .wo 0 (.len 16 8192), -- Graft request; R141, Table 5.11
  ev 0x02 .u32 .ro 0x100000 .any, -- Tap budget; R141, Table 5.11
  ev 0x03 .u32 .ro 0x20000 .any, -- Taps committed; R141, Table 5.11
  ev 0x04 .u32 .ro 0xe0000 .any, -- Taps free; R141, Table 5.11
  ev 0x05 .u16 .ro 0 .any, -- Grafts running; R141, Table 5.11
  ev 0x06 .u16 .ro 0 .any, -- Grafts pending; R141, Table 5.11
  ev 0x07 .u32 .ro 0 .any, -- Grafts completed; R141, Table 5.11
  ev 0x08 .u32 .ro 0 .any, -- Grafts replaced; R141, Table 5.11
  ev 0x09 .u32 .ro 0 .any, -- Late Graft records; R141, Table 5.11
  ev 0x0A .u16 .ro 0 .any, -- Bulk cross-fades running; R141, Table 5.11
  ev 0x0B .u32 .ro 0 .any, -- Bulk starts deferred; R141, Table 5.11
  ev 0x0C .u32 .ro 0 .any, -- Hops processed; R141, Table 5.11
  ev 0x0D .u16 .ro 32 .any, -- Acceptance horizon; R141, Table 5.11
  ev 0x0E .u8 .w1c 0 (.mask 0xff)] -- Correction flags; R141, Table 5.11

/-- Graft request status (block 28). -/
def ents28 : List Entry := [
  ev 0x00 .u8 .ro 5 .any, -- Highest sub-index; R142, Table 5.13
  ev 0x01 .u16 .ro 0 .any, -- Records; R142, Table 5.13
  ev 0x02 .u16 .ro 0 .any, -- Late; R142, Table 5.13
  ev 0x03 .u8 .ro 0 .any, -- Status; R142, Table 5.13
  ev 0x04 .u16 .ro 65535 .any, -- First failing record; R142, Table 5.13
  ev 0x05 .media64 .ro 0 .any] -- Acceptance time; R142, Table 5.13

/-- Trellis globals (block 29). -/
def ents29 : List Entry := [
  ev 0x00 .u8 .ro 15 .any, -- Highest sub-index; R157, Table 6.8
  ev 0x01 .blob .wo 0 (.len 8 8192), -- Node write; R157, Table 6.8
  ev 0x02 .u8 .rws 255 (.natOr 0 7 0xFF), -- Bank load; R157, Table 6.8
  ev 0x03 .u8 .wo 0 (.nat 0 7), -- Bank capture; R157, Table 6.8
  ev 0x04 .u8 .wo 0 (.nat 0 7), -- Bank clear; R157, Table 6.8
  ev 0x05 .u8 .ro 255 .any, -- Last bank loaded; R157, Table 6.8
  ev 0x06 .media64 .ro 0 .any, -- Bank loaded at; R157, Table 6.8
  ev 0x07 .u32 .ro 0 .any, -- Ramps running; R157, Table 6.8
  ev 0x08 .u32 .ro 0 .any, -- Nodes in use; R157, Table 6.8
  ev 0x09 .u32 .ro 0 .any, -- Records applied; R157, Table 6.8
  ev 0x0A .u32 .ro 0 .any, -- Writes refused; R157, Table 6.8
  ev 0x0B .u32 .ro 0 .any, -- Sink saturations; R157, Table 6.8
  ev 0x0C .u8 .w1c 0 (.mask 0x7), -- Trellis flags; R157, Table 6.8
  ev 0x0D .u8 .rw 0 (.nat 0 255), -- Row select; R157, Table 6.8
  ev 0x0E .u8 .rw 255 (.natOr 0 7 0xFF), -- Row origin; R157, Table 6.8
  ev 0x0F .blob .ro 0 .any] -- Row; R157, Table 6.8

/-- Trellis sources (block 30). -/
def ents30 : List Entry := [
  ev 0x00 .u8 .ro 3 .any, -- Highest sub-index; R157, Table 6.9
  ep 0x01 .u32 .rw 0 .custom, -- Signal; R157, Table 6.9
  ep 0x02 .str .rw 0 (.len 0 32), -- Name; R157, Table 6.9
  ev 0x03 .u8 .ro 1 .any] -- Signal state; R157, Table 6.9

/-- Trellis sinks (block 31). -/
def ents31 : List Entry := [
  ev 0x00 .u8 .ro 4 .any, -- Highest sub-index; R157, Table 6.10
  ep 0x01 .str .rw 0 (.len 0 32), -- Name; R157, Table 6.10
  ev 0x02 .u16 .ro 0 .any, -- Nodes in use; R157, Table 6.10
  ev 0x03 .f32 .ro 0xc3100000 .any, -- Peak in last block; R157, Table 6.10
  ev 0x04 .u32 .ro 0 .any] -- Saturations; R157, Table 6.10

/-- Input map (block 32). -/
def ents32 : List Entry := [
  ev 0x00 .u8 .ro 13 .any, -- Highest sub-index; R150, Table 6.4
  ep 0x01 .u32 .rw 0 .custom, -- Primary source; R150, Table 6.4
  ep 0x02 .u32 .rw 0 .custom, -- Secondary source; R150, Table 6.4
  ep 0x03 .u8 .rw 0 (.nat 0 3), -- Selection mode; R150, Table 6.4
  ep 0x04 .u32 .rw 48000 (.nat 0 4800000), -- Return hold; R150, Table 6.4
  ev 0x05 .u8 .ro 2 .any, -- Live source; R150, Table 6.4
  ev 0x06 .u8 .ro 1 .any, -- Primary state; R150, Table 6.4
  ev 0x07 .u8 .ro 1 .any, -- Secondary state; R150, Table 6.4
  ev 0x08 .u32 .ro 0 .any, -- Primary input component; R150, Table 6.4
  ev 0x09 .u32 .ro 0 .any, -- Secondary input component; R150, Table 6.4
  ev 0x0A .i32 .ro 0 .any, -- Skew; R150, Table 6.4
  ev 0x0B .u32 .ro 0 .any, -- Switches; R150, Table 6.4
  ev 0x0C .media64 .ro 0 .any, -- Last switch at; R150, Table 6.4
  ev 0x0D .u8 .w1c 0 (.mask 0xf)] -- Map status; R150, Table 6.4

/-- Output map (block 33). -/
def ents33 : List Entry := [
  ev 0x00 .u8 .ro 5 .any, -- Highest sub-index; R160, Table 6.12
  ep 0x01 .u32 .rw 0 .custom, -- Source; R160, Table 6.12
  ev 0x02 .u32 .ro 0 .any, -- Source in force; R160, Table 6.12
  ev 0x03 .media64 .ro 0 .any, -- Lands at; R160, Table 6.12
  ev 0x04 .u32 .ro 2 .any, -- Output component; R160, Table 6.12
  ev 0x05 .bool .ro 0 .any] -- Available; R160, Table 6.12

/-- Rate domains (block 34). -/
def ents34 : List Entry := [
  ev 0x00 .u8 .ro 9 .any, -- Highest sub-index; R166, Table 6.16
  ep 0x01 .u32 .rw 48000 (.oneOf [48000, 96000]), -- Domain A rate; R166, Table 6.16
  ev 0x02 .u32 .ro 96000 .any, -- Domain B rate; R166, Table 6.16
  ev 0x03 .bool .ro 0 .any, -- Rate change in progress; R166, Table 6.16
  ev 0x04 .u32 .ro 32 .any, -- Bridge latency; R166, Table 6.16
  ev 0x05 .u16 .ro 0 .any, -- Bridge channels in; R166, Table 6.16
  ev 0x06 .u16 .ro 0 .any, -- Bridge channels out; R166, Table 6.16
  ev 0x07 .u32 .ro 0 .any, -- Bridge saturations; R166, Table 6.16
  ev 0x08 .u16 .ro 64 .any, -- ASRC group delay; R166, Table 6.16
  ev 0x09 .u8 .w1c 0 (.mask 0x3)] -- Domain flags; R166, Table 6.16

/-- Path query (block 35). -/
def ents35 : List Entry := [
  ev 0x00 .u8 .ro 14 .any, -- Highest sub-index; R166, Table 6.17
  ev 0x01 .u16 .rw 0 (.nat 0 1559), -- Destination; R166, Table 6.17
  ev 0x02 .u32 .rw 0 .custom, -- Source; R166, Table 6.17
  ev 0x03 .u8 .rw 0 (.nat 0 3), -- Route; R166, Table 6.17
  ev 0x04 .u16 .rw 65535 (.natOr 0 1023 0xFFFF), -- Object; R166, Table 6.17
  ev 0x05 .u16 .rw 65535 (.natOr 0 255 0xFFFF), -- Trellis source; R166, Table 6.17
  ev 0x06 .u8 .ro 4 .any, -- Result; R166, Table 6.17
  ev 0x07 .u32 .ro 0 .any, -- Input component; R166, Table 6.17
  ev 0x08 .u32 .ro 0 .any, -- Core component; R166, Table 6.17
  ev 0x09 .u32 .ro 0 .any, -- Sprig component; R166, Table 6.17
  ev 0x0A .u32 .ro 0 .any, -- Bulk component; R166, Table 6.17
  ev 0x0B .u32 .ro 0 .any, -- Trellis component; R166, Table 6.17
  ev 0x0C .u32 .ro 0 .any, -- Output component; R166, Table 6.17
  ev 0x0D .u32 .ro 0 .any, -- Total; R166, Table 6.17
  ev 0x0E .media64 .ro 0 .any] -- Evaluated at; R166, Table 6.17

/-- Serial port configuration (block 36). -/
def ents36 : List Entry := [
  ev 0x00 .u8 .ro 16 .any, -- Highest sub-index; R194, Table 7.8
  ep 0x01 .bool .rw 0 .any, -- Enable; R194, Table 7.8
  ep 0x02 .u8 .rw 0 (.nat 0 2), -- Format; R194, Table 7.8
  ep 0x03 .u8 .rw 2 .custom, -- Slots; R194, Table 7.8
  ep 0x04 .u8 .rw 32 (.oneOf [16, 24, 32]), -- Slot width; R194, Table 7.8
  ep 0x05 .u32 .rw 48000 (.nat 8000 192000), -- Nominal rate; R194, Table 7.8
  ep 0x06 .u8 .rw 1 (.nat 0 1), -- Clock mode; R194, Table 7.8
  ep 0x07 .u8 .rw 0 (.nat 0 1), -- Clock relation; R194, Table 7.8
  ep 0x08 .u8 .rw 0 (.mask 0x0F), -- Framing flags; R194, Table 7.8
  ep 0x09 .u8 .rw 0 (.nat 0 1), -- Idle drive; R194, Table 7.8
  ep 0x0A .u16 .rw 3 .any, -- Receive mask; R194, Table 7.8
  ep 0x0B .u16 .rw 3 .any, -- Transmit mask; R194, Table 7.8
  ep 0x0C .u8 .rw 1 (.nat 0 1), -- Packing; R194, Table 7.8
  ep 0x0D .bool .rw 0 .any, -- ASRC receive; R194, Table 7.8
  ep 0x0E .bool .rw 0 .any, -- ASRC transmit; R194, Table 7.8
  ep 0x0F .u8 .rw 255 (.natOr 0 7 0xFF), -- Alignment group; R194, Table 7.8
  ep 0x10 .str .rw 0 (.len 0 32)] -- Name; R194, Table 7.8

/-- Serial port report (block 37). -/
def ents37 : List Entry := [
  ev 0x00 .u8 .ro 22 .any, -- Highest sub-index; R195, Table 7.9
  ev 0x01 .u8 .ro 0 .any, -- State; R195, Table 7.9
  ev 0x02 .u8 .ro 255 .any, -- Domain; R195, Table 7.9
  ev 0x03 .f32 .ro 0 .any, -- Measured rate; R195, Table 7.9
  ev 0x04 .i32 .ro 0 .any, -- Edge phase; R195, Table 7.9
  ev 0x05 .media64 .ro 0 .any, -- Receive mask applied at; R195, Table 7.9
  ev 0x06 .media64 .ro 0 .any, -- Transmit mask applied at; R195, Table 7.9
  ev 0x07 .media64 .ro 0 .any, -- Block media time; R195, Table 7.9
  ev 0x08 .time80 .ro 0 .any, -- Block timestamp; R195, Table 7.9
  ev 0x09 .blob .ro 0 .any, -- Port image; R195, Table 7.9
  ev 0x0A .u32 .ro 0 .any, -- Good frames; R195, Table 7.9
  ev 0x0B .u32 .ro 0 .any, -- Bad frames; R195, Table 7.9
  ev 0x0C .u32 .ro 0 .any, -- Repeat slips; R195, Table 7.9
  ev 0x0D .u32 .ro 0 .any, -- Drop slips; R195, Table 7.9
  ev 0x0E .u32 .ro 0 .any, -- Input underruns; R195, Table 7.9
  ev 0x0F .u32 .ro 0 .any, -- Output underruns; R195, Table 7.9
  ev 0x10 .u32 .ro 0 .any, -- Input overruns; R195, Table 7.9
  ev 0x11 .u32 .ro 0 .any, -- Output overruns; R195, Table 7.9
  ev 0x12 .u32 .ro 0 .any, -- Clock losses; R195, Table 7.9
  ev 0x13 .u32 .ro 0 .any, -- Output saturations; R195, Table 7.9
  ev 0x14 .u16 .ro 0 .any, -- Qualification count; R195, Table 7.9
  ev 0x15 .u8 .ro 0 .any, -- ASRC channels held; R195, Table 7.9
  ev 0x16 .u8 .w1c 0 (.mask 0xff)] -- Port status; R195, Table 7.9

/-- Alignment groups (block 38). -/
def ents38 : List Entry := [
  ev 0x00 .u8 .ro 7 .any, -- Highest sub-index; R196, Table 7.11
  ev 0x01 .u32 .ro 0 .any, -- Members; R196, Table 7.11
  ev 0x02 .u8 .ro 255 .any, -- Leader; R196, Table 7.11
  ev 0x03 .u32 .ro 0 .any, -- Repeat slips; R196, Table 7.11
  ev 0x04 .u32 .ro 0 .any, -- Drop slips; R196, Table 7.11
  ev 0x05 .media64 .ro 0 .any, -- Last slip at; R196, Table 7.11
  ev 0x06 .i32 .ro 0 .any, -- Leader edge phase; R196, Table 7.11
  ev 0x07 .u8 .w1c 0 (.mask 0x7)] -- Group status; R196, Table 7.11

/-- ASRC globals (block 39). -/
def ents39 : List Entry := [
  ev 0x00 .u8 .ro 5 .any, -- Highest sub-index; R197, Table 7.12
  ev 0x01 .u8 .ro 64 .any, -- Channels free; R197, Table 7.12
  ev 0x02 .u8 .ro 0 .any, -- Channels locked; R197, Table 7.12
  ev 0x03 .u32 .ro 0 .any, -- Relocks; R197, Table 7.12
  ev 0x04 .u32 .ro 0 .any, -- Saturations; R197, Table 7.12
  ev 0x05 .u8 .w1c 0 (.mask 0x3)] -- ASRC flags; R197, Table 7.12

/-- ASRC channel (block 40). -/
def ents40 : List Entry := [
  ev 0x00 .u8 .ro 6 .any, -- Highest sub-index; R197, Table 7.13
  ev 0x01 .u8 .ro 0 .any, -- Owner kind; R197, Table 7.13
  ev 0x02 .u16 .ro 0 .any, -- Owner instance; R197, Table 7.13
  ev 0x03 .u8 .ro 0 .any, -- Owner channel; R197, Table 7.13
  ev 0x04 .u8 .ro 255 .any, -- Direction; R197, Table 7.13
  ev 0x05 .f32 .ro 0 .any, -- Ratio; R197, Table 7.13
  ev 0x06 .bool .ro 0 .any] -- Locked; R197, Table 7.13

/-- Sample clocks (block 41). -/
def ents41 : List Entry := [
  ev 0x00 .u8 .ro 11 .any, -- Highest sub-index; R198, Table 7.14
  ev 0x01 .u8 .ro 0 .any, -- PLL state; R198, Table 7.14
  ev 0x02 .i32 .ro 0 .any, -- PLL phase error; R198, Table 7.14
  ev 0x03 .u32 .ro 0 .any, -- PLL unlocks; R198, Table 7.14
  ep 0x04 .u8 .rw 0 (.nat 0 2), -- Word clock out mode; R198, Table 7.14
  ep 0x05 .u32 .rw 0 (.nat 0 20000), -- Word clock out offset; R198, Table 7.14
  ep 0x06 .u32 .rw 48000 (.nat 8000 192000), -- Word clock in nominal; R198, Table 7.14
  ev 0x07 .u8 .ro 0 .any, -- Word clock in state; R198, Table 7.14
  ev 0x08 .f32 .ro 0 .any, -- Word clock in rate; R198, Table 7.14
  ev 0x09 .i32 .ro 0 .any, -- Word clock in phase; R198, Table 7.14
  ev 0x0A .u32 .ro 0 .any, -- Word clock in losses; R198, Table 7.14
  ev 0x0B .u8 .w1c 0 (.mask 0x3)] -- Clock flags; R198, Table 7.14

/-- MACs (block 42). -/
def ents42 : List Entry := [
  ev 0x00 .u8 .ro 24 .any, -- Highest sub-index; R224, Table 8.9
  ep 0x01 .bool .rw 0 .any, -- Enable; R224, Table 8.9
  ep 0x02 .u8 .rw 0 .custom, -- Mode; R224, Table 8.9
  ep 0x03 .u64 .rw 0 .custom, -- MAC address; R224, Table 8.9
  ep 0x04 .u16 .rw 65535 (.natOr 0 4094 0xFFFF), -- VLAN ID; R224, Table 8.9
  ep 0x05 .u8 .rw 5 (.nat 0 7), -- VLAN priority; R224, Table 8.9
  ep 0x06 .u32 .rw 0 (.nat 50 1000000), -- Pause watchdog; R224, Table 8.9
  ev 0x07 .u8 .ro 0 .any, -- Link state; R224, Table 8.9
  ev 0x08 .u16 .ro 0 .any, -- Link speed; R224, Table 8.9
  ev 0x09 .u32 .ro 0 .any, -- Transmit load; R224, Table 8.9
  ev 0x0A .u32 .ro 0 .any, -- Frames received; R224, Table 8.9
  ev 0x0B .u32 .ro 0 .any, -- Frames sent; R224, Table 8.9
  ev 0x0C .u32 .ro 0 .any, -- FCS errors; R224, Table 8.9
  ev 0x0D .u32 .ro 0 .any, -- Runts; R224, Table 8.9
  ev 0x0E .u32 .ro 0 .any, -- Oversize; R224, Table 8.9
  ev 0x0F .u32 .ro 0 .any, -- Unknown EtherType; R224, Table 8.9
  ev 0x10 .u32 .ro 0 .any, -- Filtered; R224, Table 8.9
  ev 0x11 .u32 .ro 0 .any, -- Unclaimed; R224, Table 8.9
  ev 0x12 .u32 .ro 0 .any, -- IP header errors; R224, Table 8.9
  ev 0x13 .u32 .ro 0 .any, -- Pause frames received; R224, Table 8.9
  ev 0x14 .u32 .ro 0 .any, -- Pause watchdog trips; R224, Table 8.9
  ev 0x15 .u32 .ro 0 .any, -- Link downs; R224, Table 8.9
  ev 0x16 .u32 .ro 0 .any, -- Late transmit discards; R224, Table 8.9
  ev 0x17 .u8 .w1c 0 (.mask 0xf), -- MAC status; R224, Table 8.9
  ep 0x18 .u8 .rw 0 .custom] -- Wake enable; R224, Table 8.9

/-- Wake patterns (block 43). -/
def ents43 : List Entry := [
  ev 0x00 .u8 .ro 2 .any, -- Highest sub-index; R225, Table 8.10
  ep 0x01 .blob .rw 0 (.len 128 128), -- Pattern; R225, Table 8.10
  ep 0x02 .blob .rw 0 (.len 16 16)] -- Mask; R225, Table 8.10

/-- Cell pool (block 44). -/
def ents44 : List Entry := [
  ev 0x00 .u8 .ro 12 .any, -- Highest sub-index; R226, Table 8.11
  ev 0x01 .u32 .ro 32768 .any, -- Cells; R226, Table 8.11
  ev 0x02 .u32 .ro 32768 .any, -- Cells free; R226, Table 8.11
  ev 0x03 .u32 .ro 0 .any, -- Receive cells in use; R226, Table 8.11
  ev 0x04 .u32 .ro 0 .any, -- Transmit cells in use; R226, Table 8.11
  ev 0x05 .u32 .ro 0 .any, -- Peak transmit cells; R226, Table 8.11
  ev 0x06 .u8 .ro 4 .any, -- Queue limit; R226, Table 8.11
  ev 0x07 .u32 .ro 0 .any, -- Overruns; R226, Table 8.11
  ev 0x08 .u32 .ro 0 .any, -- No-cell refusals; R226, Table 8.11
  ev 0x09 .u32 .ro 0 .any, -- Underruns; R226, Table 8.11
  ev 0x0A .u32 .ro 0 .any, -- Flushed descriptors; R226, Table 8.11
  ev 0x0B .u32 .ro 0 .any, -- Uncorrectable cell reads; R226, Table 8.11
  ev 0x0C .u8 .w1c 0 (.mask 0xf)] -- Pool flags; R226, Table 8.11

/-- Receive streams (block 45). -/
def ents45 : List Entry := [
  ev 0x00 .u8 .ro 33 .any, -- Highest sub-index; R227, Table 8.12
  ep 0x01 .bool .rw 0 .any, -- Enable; R227, Table 8.12
  ep 0x02 .u8 .rw 0 (.nat 0 3), -- MAC; R227, Table 8.12
  ep 0x03 .bool .rw 0 .any, -- Protection; R227, Table 8.12
  ep 0x04 .u32 .rw 0 .any, -- Destination, path 1; R227, Table 8.12
  ep 0x05 .u32 .rw 0 .any, -- Destination, path 2; R227, Table 8.12
  ep 0x06 .u16 .rw 5004 (.nat 1 65535), -- UDP port; R227, Table 8.12
  ep 0x07 .u32 .rw 0 .any, -- Source filter, path 1; R227, Table 8.12
  ep 0x08 .u32 .rw 0 .any, -- Source filter, path 2; R227, Table 8.12
  ep 0x09 .u8 .rw 96 (.nat 96 127), -- Payload type; R227, Table 8.12
  ep 0x0A .u8 .rw 1 (.nat 0 1), -- Encoding; R227, Table 8.12
  ep 0x0B .u8 .rw 2 (.nat 1 64), -- Channels; R227, Table 8.12
  ep 0x0C .u32 .rw 48000 (.oneOf [44100, 48000, 88200, 96000]), -- Rate; R227, Table 8.12
  ep 0x0D .u8 .rw 3 (.nat 0 3), -- Packet time; R227, Table 8.12
  ep 0x0E .u32 .rw 2000 (.nat 250 20000), -- Link offset; R227, Table 8.12
  ep 0x0F .u32 .rw 0 .any, -- RTP timestamp offset; R227, Table 8.12
  ev 0x10 .blob .rw 0 (.len 0 4096), -- SDP; R227, Table 8.12
  ep 0x11 .str .rw 0 (.len 0 32), -- Name; R227, Table 8.12
  ev 0x12 .u8 .ro 0 .any, -- State; R227, Table 8.12
  ev 0x13 .u32 .ro 0 .any, -- Input component; R227, Table 8.12
  ev 0x14 .u32 .ro 0 .any, -- Packets, path 1; R227, Table 8.12
  ev 0x15 .u32 .ro 0 .any, -- Packets, path 2; R227, Table 8.12
  ev 0x16 .u32 .ro 0 .any, -- Duplicates; R227, Table 8.12
  ev 0x17 .u32 .ro 0 .any, -- Missing packets; R227, Table 8.12
  ev 0x18 .u32 .ro 0 .any, -- Late packets; R227, Table 8.12
  ev 0x19 .u32 .ro 0 .any, -- Early packets; R227, Table 8.12
  ev 0x1A .u32 .ro 0 .any, -- Malformed packets; R227, Table 8.12
  ev 0x1B .f32 .ro 0 .any, -- Lowest arrival margin; R227, Table 8.12
  ev 0x1C .f32 .ro 0 .any, -- Path differential; R227, Table 8.12
  ev 0x1D .u32 .ro 0 .any, -- Losses; R227, Table 8.12
  ev 0x1E .u32 .ro 0 .any, -- SSRC; R227, Table 8.12
  ev 0x1F .u8 .ro 0 .any, -- Path states; R227, Table 8.12
  ev 0x20 .u16 .ro 0 .any, -- SDP error line; R227, Table 8.12
  ev 0x21 .u8 .w1c 0 (.mask 0xff)] -- Stream status; R227, Table 8.12

/-- Transmit streams (block 46). -/
def ents46 : List Entry := [
  ev 0x00 .u8 .ro 27 .any, -- Highest sub-index; R228, Table 8.14
  ep 0x01 .bool .rw 0 .any, -- Enable; R228, Table 8.14
  ep 0x02 .u8 .rw 0 (.nat 0 3), -- MAC; R228, Table 8.14
  ep 0x03 .bool .rw 0 .any, -- Protection; R228, Table 8.14
  ep 0x04 .u32 .rw 0 .any, -- Destination, path 1; R228, Table 8.14
  ep 0x05 .u32 .rw 0 .any, -- Destination, path 2; R228, Table 8.14
  ep 0x06 .u16 .rw 5004 (.nat 1 65535), -- Destination UDP port; R228, Table 8.14
  ep 0x07 .u16 .rw 5004 (.nat 1 65535), -- Source UDP port; R228, Table 8.14
  ep 0x08 .u8 .rw 96 (.nat 96 127), -- Payload type; R228, Table 8.14
  ep 0x09 .u8 .rw 1 (.nat 0 1), -- Encoding; R228, Table 8.14
  ep 0x0A .u8 .rw 2 (.nat 1 64), -- Channels; R228, Table 8.14
  ep 0x0B .u32 .rw 48000 (.oneOf [44100, 48000, 88200, 96000]), -- Rate; R228, Table 8.14
  ep 0x0C .u8 .rw 3 (.nat 0 3), -- Packet time; R228, Table 8.14
  ep 0x0D .u16 .rw 0 (.nat 0 1023), -- First channel; R228, Table 8.14
  ep 0x0E .u32 .rw 0 .any, -- RTP timestamp offset; R228, Table 8.14
  ep 0x0F .u32 .rw 0 .any, -- SSRC; R228, Table 8.14
  ep 0x10 .u8 .rw 16 (.nat 1 255), -- TTL; R228, Table 8.14
  ep 0x11 .u8 .rw 34 (.nat 0 63), -- DSCP; R228, Table 8.14
  ev 0x12 .blob .ro 0 .any, -- SDP; R228, Table 8.14
  ep 0x13 .str .rw 0 (.len 0 32), -- Name; R228, Table 8.14
  ev 0x14 .u8 .ro 0 .any, -- State; R228, Table 8.14
  ev 0x15 .u32 .ro 0 .any, -- Packets sent; R228, Table 8.14
  ev 0x16 .u32 .ro 0 .any, -- Underruns; R228, Table 8.14
  ev 0x17 .u32 .ro 0 .any, -- Overruns; R228, Table 8.14
  ev 0x18 .u32 .ro 0 .any, -- No-cell refusals; R228, Table 8.14
  ev 0x19 .u32 .ro 0 .any, -- Late discards; R228, Table 8.14
  ev 0x1A .u16 .ro 0 .any, -- Next sequence number; R228, Table 8.14
  ev 0x1B .u8 .w1c 0 (.mask 0x3f)] -- Stream status; R228, Table 8.14

/-- Receive rings (block 47). -/
def ents47 : List Entry := [
  ev 0x00 .u8 .ro 7 .any, -- Highest sub-index; R229, Table 8.15
  ev 0x01 .bool .rw 1 .any, -- Enable; R229, Table 8.15
  ep 0x02 .u16 .rw 256 (.oneOf [16, 32, 64, 128, 256]), -- Size; R229, Table 8.15
  ev 0x03 .u16 .ro 0 .any, -- Descriptors in use; R229, Table 8.15
  ev 0x04 .u32 .ro 0 .any, -- Frames delivered; R229, Table 8.15
  ev 0x05 .u32 .ro 0 .any, -- No-buffer drops; R229, Table 8.15
  ev 0x06 .u16 .ro 0 .any, -- Peak in use; R229, Table 8.15
  ev 0x07 .u8 .w1c 0 (.mask 0x1)] -- Ring flags; R229, Table 8.15

/-- IPv4 interfaces (block 48). -/
def ents48 : List Entry := [
  ev 0x00 .u8 .ro 12 .any, -- Highest sub-index; R230, Table 8.16
  ep 0x01 .u32 .rw 0 .any, -- Address; R230, Table 8.16
  ep 0x02 .u8 .rw 24 (.nat 8 30), -- Prefix length; R230, Table 8.16
  ep 0x03 .u32 .rw 0 .any, -- Gateway; R230, Table 8.16
  ep 0x04 .u8 .rw 0 (.nat 0 1), -- IGMP version; R230, Table 8.16
  ep 0x05 .bool .rw 0 .custom, -- Yexel on this MAC; R230, Table 8.16
  ep 0x06 .u16 .rw 6170 (.nat 1024 65535), -- Yexel UDP port; R230, Table 8.16
  ep 0x07 .bool .rw 1 .any, -- ICMP echo; R230, Table 8.16
  ev 0x08 .u16 .ro 0 .any, -- ARP entries; R230, Table 8.16
  ev 0x09 .u16 .ro 0 .any, -- Groups joined; R230, Table 8.16
  ev 0x0A .u32 .ro 0 .any, -- Address conflicts; R230, Table 8.16
  ev 0x0B .u32 .ro 0 .any, -- Echoes answered; R230, Table 8.16
  ev 0x0C .u8 .w1c 0 (.mask 0x7)] -- Interface status; R230, Table 8.16

/-- System time (block 49). -/
def ents49 : List Entry := [
  ev 0x00 .u8 .ro 28 .any, -- Highest sub-index; R264, Table 9.11
  ev 0x01 .time80 .ro 0 .any, -- System time; R264, Table 9.11
  ev 0x02 .media64 .ro 0 .any, -- Media time; R264, Table 9.11
  ev 0x03 .u64 .ro 0 .any, -- Counter; R264, Table 9.11
  ev 0x04 .u64 .rw 0x800000000000 .custom, -- Rate; R264, Table 9.11
  ep 0x05 .u8 .rw 0 (.nat 0 2), -- Time source; R264, Table 9.11
  ev 0x06 .time80 .rw 0 .any, -- Offset; R264, Table 9.11
  ev 0x07 .u8 .ro 0 .any, -- Servo state; R264, Table 9.11
  ev 0x08 .bool .ro 0 .any, -- Has locked; R264, Table 9.11
  ev 0x09 .i32 .ro 0 .any, -- Offset from source; R264, Table 9.11
  ev 0x0A .u32 .ro 0 .any, -- Mean path delay; R264, Table 9.11
  ev 0x0B .f32 .ro 0 .any, -- Rate deviation; R264, Table 9.11
  ep 0x0C .u8 .rw 1 (.nat 0 2), -- Servo bandwidth; R264, Table 9.11
  ep 0x0D .f32 .rw 0x42c80000 (.flt 0x3f800000 0x447a0000), -- Rate limit; R264, Table 9.11
  ep 0x0E .u32 .rw 1000 (.nat 50 100000), -- Lock threshold; R264, Table 9.11
  ev 0x0F .u32 .ro 0 .any, -- Holdover time; R264, Table 9.11
  ep 0x10 .bool .rw 0 .any, -- Wait for lock; R264, Table 9.11
  ev 0x11 .bool .wo 0 .trueOnly, -- Timebase restart; R264, Table 9.11
  ep 0x12 .u8 .rw 0 (.nat 0 2), -- PPS out mode; R264, Table 9.11
  ep 0x13 .u32 .rw 0x186a0 (.nat 1 500000), -- PPS out width; R264, Table 9.11
  ep 0x14 .i32 .rw 0 (.int (-500000) (500000)), -- PPS out offset; R264, Table 9.11
  ep 0x15 .u8 .rw 0 (.nat 0 1), -- PPS in edge; R264, Table 9.11
  ep 0x16 .i32 .rw 0 (.int (-1000000) (1000000)), -- PPS in delay; R264, Table 9.11
  ev 0x17 .u8 .ro 0 .any, -- PPS in state; R264, Table 9.11
  ev 0x18 .i32 .ro 0 .any, -- PPS in phase; R264, Table 9.11
  ev 0x19 .u32 .ro 0 .any, -- Steps; R264, Table 9.11
  ev 0x1A .u32 .ro 0 .any, -- Holdovers; R264, Table 9.11
  ev 0x1B .u32 .ro 0 .any, -- Alignment bound; R264, Table 9.11
  ev 0x1C .u8 .w1c 0 (.mask 0x3f)] -- Time flags; R264, Table 9.11

/-- PTP (block 50). -/
def ents50 : List Entry := [
  ev 0x00 .u8 .ro 27 .any, -- Highest sub-index; R265, Table 9.12
  ep 0x01 .bool .rw 0 .any, -- Enable; R265, Table 9.12
  ep 0x02 .u8 .rw 1 (.nat 0 2), -- Profile; R265, Table 9.12
  ep 0x03 .u8 .rw 0 (.nat 0 2), -- Role; R265, Table 9.12
  ep 0x04 .u8 .rw 0 .custom, -- Domain; R265, Table 9.12
  ep 0x05 .u8 .rw 0 (.nat 0 5), -- Primary MAC; R265, Table 9.12
  ep 0x06 .u8 .rw 1 (.natOr 0 5 0xFF), -- Backup MAC; R265, Table 9.12
  ep 0x07 .u8 .rw 0 .custom, -- Transport; R265, Table 9.12
  ep 0x08 .u8 .rw 0 .custom, -- Delay mode; R265, Table 9.12
  ep 0x09 .i16 .rw 65533 .custom, -- Log sync interval; R265, Table 9.12
  ep 0x0A .i16 .rw 1 .custom, -- Log announce interval; R265, Table 9.12
  ep 0x0B .i16 .rw 0 .custom, -- Log minimum delay request interval; R265, Table 9.12
  ep 0x0C .u8 .rw 3 .custom, -- Announce receipt timeout; R265, Table 9.12
  ep 0x0D .u8 .rw 128 (.nat 0 255), -- Priority1; R265, Table 9.12
  ep 0x0E .u8 .rw 128 (.nat 0 255), -- Priority2; R265, Table 9.12
  ep 0x0F .u8 .rw 160 .any, -- Time source; R265, Table 9.12
  ep 0x10 .i32 .rw 0 (.int (-1000000) (1000000)), -- Asymmetry; R265, Table 9.12
  ev 0x11 .u8 .ro 1 .any, -- Port state; R265, Table 9.12
  ev 0x12 .u8 .ro 255 .any, -- MAC in use; R265, Table 9.12
  ev 0x13 .u64 .ro 0 .any, -- Grandmaster identity; R265, Table 9.12
  ev 0x14 .u16 .ro 0 .any, -- Steps removed; R265, Table 9.12
  ev 0x15 .u8 .ro 255 .any, -- Clock class; R265, Table 9.12
  ev 0x16 .u64 .ro 0 .any, -- Clock identity; R265, Table 9.12
  ev 0x17 .u32 .ro 0 .any, -- Syncs received; R265, Table 9.12
  ev 0x18 .u32 .ro 0 .any, -- Announce timeouts; R265, Table 9.12
  ev 0x19 .u32 .ro 0 .any, -- Follow_Up missing; R265, Table 9.12
  ev 0x1A .u32 .ro 0 .any, -- MAC switches; R265, Table 9.12
  ev 0x1B .u8 .w1c 0 (.mask 0xf)] -- PTP flags; R265, Table 9.12

/-- Timestamp corrections (block 51). -/
def ents51 : List Entry := [
  ev 0x00 .u8 .ro 3 .any, -- Highest sub-index; R266, Table 9.13
  ep 0x01 .i32 .rw 0 (.int (-100000) (100000)), -- Ingress latency; R266, Table 9.13
  ep 0x02 .i32 .rw 0 (.int (-100000) (100000)), -- Egress latency; R266, Table 9.13
  ev 0x03 .u32 .ro 0 .any] -- Timestamped frames; R266, Table 9.13

/-- Triggers (block 52). -/
def ents52 : List Entry := [
  ev 0x00 .u8 .ro 11 .any, -- Highest sub-index; R267, Table 9.14
  ev 0x01 .bool .rw 0 .any, -- Arm; R267, Table 9.14
  ev 0x02 .u8 .rw 0 (.nat 0 1), -- Time base; R267, Table 9.14
  ev 0x03 .time80 .rw 0 .any, -- Target time; R267, Table 9.14
  ev 0x04 .media64 .rw 0 .any, -- Target media time; R267, Table 9.14
  ev 0x05 .u64 .rw 0 .custom, -- Period; R267, Table 9.14
  ev 0x06 .u8 .rw 0 (.mask 0x07), -- Actions; R267, Table 9.14
  ev 0x07 .time80 .ro 0 .any, -- Next target; R267, Table 9.14
  ev 0x08 .u32 .ro 0 .any, -- Fired; R267, Table 9.14
  ev 0x09 .time80 .ro 0 .any, -- Last fired at; R267, Table 9.14
  ev 0x0A .u32 .ro 0 .any, -- Missed; R267, Table 9.14
  ev 0x0B .u8 .w1c 0 (.mask 0x3)] -- Trigger status; R267, Table 9.14

/-- Captures (block 53). -/
def ents53 : List Entry := [
  ev 0x00 .u8 .ro 10 .any, -- Highest sub-index; R268, Table 9.15
  ep 0x01 .bool .rw 0 .any, -- Enable; R268, Table 9.15
  ep 0x02 .u8 .rw 0 (.nat 0 5), -- Source; R268, Table 9.15
  ep 0x03 .u8 .rw 0 (.nat 0 2), -- Edge; R268, Table 9.15
  ep 0x04 .u8 .rw 0 (.mask 0x03), -- Actions; R268, Table 9.15
  ev 0x05 .time80 .ro 0 .any, -- Captured time; R268, Table 9.15
  ev 0x06 .media64 .ro 0 .any, -- Captured media time; R268, Table 9.15
  ev 0x07 .u16 .ro 0 .any, -- Sample fraction; R268, Table 9.15
  ev 0x08 .u32 .ro 0 .any, -- Edges captured; R268, Table 9.15
  ev 0x09 .u32 .ro 0 .any, -- Edges ignored; R268, Table 9.15
  ev 0x0A .u8 .w1c 0 (.mask 0x3)] -- Capture status; R268, Table 9.15

/-- Transmit timestamp queue (block 54). -/
def ents54 : List Entry := [
  ev 0x00 .u8 .ro 6 .any, -- Highest sub-index; R269, Table 9.16
  ev 0x01 .u8 .ro 0 .any, -- Depth; R269, Table 9.16
  ev 0x02 .u8 .ro 0 .any, -- Peak depth; R269, Table 9.16
  ev 0x03 .u32 .ro 0 .any, -- Entries pushed; R269, Table 9.16
  ev 0x04 .u32 .ro 0 .any, -- Entries dropped; R269, Table 9.16
  ev 0x05 .blob .ro 0 .any, -- Head entry; R269, Table 9.16
  ev 0x06 .u8 .w1c 0 (.mask 0x1)] -- Queue status; R269, Table 9.16

/-- Sprinkler (block 55). -/
def ents55 : List Entry := [
  ev 0x00 .u8 .ro 28 .any, -- Highest sub-index; R270, Table 9.17
  ep 0x01 .u16 .rw 0 (.nat 0 511), -- Device number; R270, Table 9.17
  ep 0x02 .u8 .rw 0 (.nat 0 3), -- Role; R270, Table 9.17
  ep 0x03 .u16 .rw 0 (.nat 0 65535), -- System ID; R270, Table 9.17
  ep 0x04 .u32 .rw 0xefff5501 .custom, -- Group address; R270, Table 9.17
  ep 0x05 .u16 .rw 6171 (.nat 1024 65535), -- UDP port; R270, Table 9.17
  ep 0x06 .u8 .rw 0 (.nat 0 5), -- MAC; R270, Table 9.17
  ep 0x07 .u8 .rw 255 (.natOr 0 5 0xFF), -- Backup MAC; R270, Table 9.17
  ep 0x08 .blob .wo 0 (.len 32 32), -- Key; R270, Table 9.17
  ep 0x09 .blob .rw 0 (.len 128 128), -- Replicated objects; R270, Table 9.17
  ep 0x0A .u32 .rw 20000 (.nat 5000 1000000), -- Keyframe lead; R270, Table 9.17
  ev 0x0B .u32 .ro 960 .any, -- Lead in samples; R270, Table 9.17
  ep 0x0C .u16 .rw 50 (.nat 20 1000), -- Head loss timeout; R270, Table 9.17
  ev 0x0D .u8 .ro 0 .any, -- State; R270, Table 9.17
  ev 0x0E .u16 .ro 65535 .any, -- Head device; R270, Table 9.17
  ev 0x0F .u32 .ro 0 .any, -- Epoch; R270, Table 9.17
  ev 0x10 .u32 .ro 0 .any, -- Last sequence; R270, Table 9.17
  ev 0x11 .u32 .ro 0 .any, -- Datagrams processed; R270, Table 9.17
  ev 0x12 .u32 .ro 0 .any, -- Repairs requested; R270, Table 9.17
  ev 0x13 .u32 .ro 0 .any, -- Repairs sent; R270, Table 9.17
  ev 0x14 .u32 .ro 0 .any, -- Gaps skipped; R270, Table 9.17
  ev 0x15 .u32 .ro 0 .any, -- Resyncs; R270, Table 9.17
  ev 0x16 .u32 .ro 0 .any, -- Late records; R270, Table 9.17
  ev 0x17 .u32 .ro 0 .any, -- Retimed records; R270, Table 9.17
  ev 0x18 .i32 .ro 0 .any, -- Lowest margin; R270, Table 9.17
  ev 0x19 .blob .ro 0 .any, -- Members present; R270, Table 9.17
  ev 0x1A .blob .ro 0 .any, -- Members behind; R270, Table 9.17
  ev 0x1B .u32 .ro 0 .any, -- Authentication failures; R270, Table 9.17
  ev 0x1C .u16 .w1c 0 (.mask 0x1ff)] -- Sprinkler flags; R270, Table 9.17

/-- Modulator channels (block 56). -/
def ents56 : List Entry := [
  ev 0x00 .u8 .ro 28 .any, -- Highest sub-index; R294, Table 10.7
  ep 0x01 .bool .rw 0 .any, -- Enable; R294, Table 10.7
  ev 0x02 .u8 .ro 0 .any, -- State; R294, Table 10.7
  ep 0x03 .bool .rw 1 .any, -- Sense required; R294, Table 10.7
  ep 0x04 .f32 .rw 0x42200000 (.flt 0x3f800000 0x43c80000), -- Current full scale; R294, Table 10.7
  ep 0x05 .f32 .rw 0x42c80000 (.flt 0x40a00000 0x447a0000), -- Voltage full scale; R294, Table 10.7
  ep 0x06 .f32 .rw 0x41f00000 .custom, -- Trip level; R294, Table 10.7
  ep 0x07 .f32 .rw 0x40000000 (.flt 0x3dcccccd 0x42c80000), -- DC threshold; R294, Table 10.7
  ep 0x08 .f32 .rw 0x40c00000 (.flt 0x3f000000 0x42800000), -- DC resistance; R294, Table 10.7
  ep 0x09 .f32 .rw 0x40400000 (.flt 0x3dcccccd 0x42480000), -- Coil thermal resistance; R294, Table 10.7
  ep 0x0A .f32 .rw 0x41200000 (.flt 0x3f000000 0x42f00000), -- Coil time constant; R294, Table 10.7
  ep 0x0B .f32 .rw 0x3f800000 (.flt 0x0 0x41a00000), -- Magnet thermal resistance; R294, Table 10.7
  ep 0x0C .f32 .rw 0x44160000 (.flt 0x41200000 0x45e10000), -- Magnet time constant; R294, Table 10.7
  ep 0x0D .f32 .rw 0x42f00000 (.flt 0x41200000 0x437a0000), -- Rise limit; R294, Table 10.7
  ep 0x0E .f32 .rw 0x3f800000 (.flt 0x3dcccccd 0x40c00000), -- Fold-back slope; R294, Table 10.7
  ep 0x0F .f32 .rw 0x41000000 (.flt 0x3f800000 0x42800000), -- Nominal impedance; R294, Table 10.7
  ep 0x10 .f32 .rw 0x41f00000 (.flt 0x40a00000 0x42b40000), -- Impedance tolerance; R294, Table 10.7
  ev 0x11 .bool .wo 0 .trueOnly, -- Clear latch; R294, Table 10.7
  ev 0x12 .u32 .ro 0 .any, -- Trips; R294, Table 10.7
  ev 0x13 .u8 .ro 0 .any, -- Trips in window; R294, Table 10.7
  ev 0x14 .u8 .ro 0 .any, -- Last trip cause; R294, Table 10.7
  ev 0x15 .media64 .ro 0 .any, -- Last trip at; R294, Table 10.7
  ev 0x16 .f32 .ro 0 .any, -- Estimated rise; R294, Table 10.7
  ev 0x17 .f32 .ro 0 .any, -- Fold-back gain; R294, Table 10.7
  ev 0x18 .f32 .ro 0 .any, -- Impedance; R294, Table 10.7
  ev 0x19 .f32 .ro 0 .any, -- Peak current; R294, Table 10.7
  ev 0x1A .f32 .ro 0 .any, -- DC voltage; R294, Table 10.7
  ev 0x1B .u32 .ro 0 .any, -- Invalid frames; R294, Table 10.7
  ev 0x1C .u8 .w1c 0 (.mask 0xff)] -- Channel status; R294, Table 10.7

/-- Protected frequencies (block 57). -/
def ents57 : List Entry := [
  ev 0x00 .u8 .ro 5 .any, -- Highest sub-index; R296, Table 10.9
  ep 0x01 .bool .rw 0 .any, -- Enable; R296, Table 10.9
  ep 0x02 .u32 .rw 0 (.nat 100000 30000000), -- Centre; R296, Table 10.9
  ep 0x03 .u32 .rw 10000 (.nat 0 500000), -- Half-width; R296, Table 10.9
  ep 0x04 .str .rw 0 (.len 0 32), -- Name; R296, Table 10.9
  ev 0x05 .i32 .ro 0 .any] -- Margin; R296, Table 10.9

/-- Hedge globals (block 58). -/
def ents58 : List Entry := [
  ev 0x00 .u8 .ro 16 .any, -- Highest sub-index; R297, Table 10.10
  ep 0x01 .bool .rw 0 .any, -- Hedge enable; R297, Table 10.10
  ep 0x02 .u32 .rw 0x5dc00 .custom, -- Carrier target; R297, Table 10.10
  ep 0x03 .u32 .rw 25000 (.nat 0 100000), -- Guard; R297, Table 10.10
  ev 0x04 .u32 .ro 0x5dc00 .any, -- Carrier in force; R297, Table 10.10
  ev 0x05 .u32 .ro 0 .any, -- Retunes; R297, Table 10.10
  ev 0x06 .bool .ro 0 .any, -- MOD_EN state; R297, Table 10.10
  ev 0x07 .blob .ro 0 .any, -- Trip log; R297, Table 10.10
  ev 0x08 .u32 .ro 0 .any, -- Trips; R297, Table 10.10
  ev 0x09 .u32 .ro 0 .any, -- Records overwritten; R297, Table 10.10
  ev 0x0A .u32 .ro 0 .any, -- FAULT0_N edges; R297, Table 10.10
  ev 0x0B .u32 .ro 0 .any, -- FAULT1_N edges; R297, Table 10.10
  ev 0x0C .u32 .ro 0 .any, -- FAULT2_N edges; R297, Table 10.10
  ep 0x0D .f32 .rw 0x3f733333 (.flt 0x3f000000 0x3f7ae148), -- Modulation limit; R297, Table 10.10
  ev 0x0E .u8 .ro 7 .any, -- Fault lines; R297, Table 10.10
  ev 0x0F .u8 .w1c 0 (.mask 0xf), -- Hedge flags; R297, Table 10.10
  ev 0x10 .bool .wo 0 .trueOnly] -- Clear trip log; R297, Table 10.10

/-- PDM globals (block 59). -/
def ents59 : List Entry := [
  ev 0x00 .u8 .ro 9 .any, -- Highest sub-index; R319, Table 11.7
  ep 0x01 .u32 .rw 0x2ee000 (.oneOf [3072000, 6144000]), -- PDM clock rate; R319, Table 11.7
  ep 0x02 .u8 .rw 15 (.mask 0x0F), -- Clock enable; R319, Table 11.7
  ev 0x03 .bool .wo 0 .trueOnly, -- Resynchronise; R319, Table 11.7
  ev 0x04 .media64 .ro 0 .any, -- Last reset at; R319, Table 11.7
  ev 0x05 .u32 .ro 0 .any, -- Resets; R319, Table 11.7
  ev 0x06 .u16 .ro 32 .any, -- Decimator delay; R319, Table 11.7
  ev 0x07 .u16 .ro 256 .any, -- Settle count; R319, Table 11.7
  ep 0x08 .bool .rw 1 .any, -- Sync pulse; R319, Table 11.7
  ev 0x09 .u8 .w1c 0 (.mask 0x3)] -- PDM flags; R319, Table 11.7

/-- Microphones (block 60). -/
def ents60 : List Entry := [
  ev 0x00 .u8 .ro 16 .any, -- Highest sub-index; R320, Table 11.8
  ep 0x01 .bool .rw 0 .any, -- Enable; R320, Table 11.8
  ep 0x02 .f32 .rw 0 (.flt 0xc47a0000 0x447a0000), -- Position x; R320, Table 11.8
  ep 0x03 .f32 .rw 0 (.flt 0xc47a0000 0x447a0000), -- Position y; R320, Table 11.8
  ep 0x04 .f32 .rw 0 (.flt 0xc47a0000 0x447a0000), -- Position z; R320, Table 11.8
  ep 0x05 .bool .rw 0 .any, -- Position valid; R320, Table 11.8
  ep 0x06 .f32 .rw 0xc1d00000 (.flt 0xc2700000 0x0), -- Sensitivity; R320, Table 11.8
  ep 0x07 .blob .rw 0 (.len 8 1028), -- Compensation; R320, Table 11.8
  ep 0x08 .u8 .rw 1 (.nat 0 1), -- Compensation law; R320, Table 11.8
  ep 0x09 .u8 .rw 10 (.nat 6 14), -- Compensation fade; R320, Table 11.8
  ev 0x0A .u8 .ro 0 .any, -- State; R320, Table 11.8
  ev 0x0B .u8 .ro 0 .any, -- Compensation state; R320, Table 11.8
  ev 0x0C .f32 .ro 0 .any, -- Level; R320, Table 11.8
  ev 0x0D .f32 .ro 0xc3100000 .any, -- Peak; R320, Table 11.8
  ev 0x0E .u32 .ro 0 .any, -- Overloads; R320, Table 11.8
  ev 0x0F .u32 .ro 0 .any, -- Data losses; R320, Table 11.8
  ev 0x10 .u8 .w1c 0 (.mask 0xf)] -- Microphone status; R320, Table 11.8

/-- Stimulus and measurement (block 61). -/
def ents61 : List Entry := [
  ev 0x00 .u8 .ro 20 .any, -- Highest sub-index; R321, Table 11.9
  ep 0x01 .u8 .rw 2 (.nat 0 3), -- Stimulus kind; R321, Table 11.9
  ep 0x02 .f32 .rw 0xc1a00000 (.flt 0xc2700000 0xc0c00000), -- Peak level; R321, Table 11.9
  ep 0x03 .f32 .rw 0x447a0000 .custom, -- Sine frequency; R321, Table 11.9
  ep 0x04 .f32 .rw 0x41a00000 .custom, -- Lower frequency; R321, Table 11.9
  ep 0x05 .f32 .rw 0x469c4000 .custom, -- Upper frequency; R321, Table 11.9
  ep 0x06 .u8 .rw 17 (.nat 14 20), -- Length exponent; R321, Table 11.9
  ep 0x07 .u32 .rw 24000 .custom, -- Gap; R321, Table 11.9
  ep 0x08 .u8 .rw 0 (.nat 0 15), -- Reference microphone; R321, Table 11.9
  ev 0x09 .media64 .wo 0 .any, -- Start run; R321, Table 11.9
  ev 0x0A .bool .wo 0 .trueOnly, -- Abort run; R321, Table 11.9
  ev 0x0B .u8 .ro 0 .any, -- Run state; R321, Table 11.9
  ev 0x0C .media64 .ro 0 .any, -- Run starts at; R321, Table 11.9
  ev 0x0D .u16 .ro 65535 .any, -- Current output; R321, Table 11.9
  ev 0x0E .u16 .ro 0 .any, -- Outputs analysed; R321, Table 11.9
  ev 0x0F .f32 .ro 0 .any, -- Measured speed of sound; R321, Table 11.9
  ev 0x10 .f32 .ro 0x41a00000 .any, -- Measured temperature; R321, Table 11.9
  ev 0x11 .u16 .ro 0 .any, -- Temperature pairs; R321, Table 11.9
  ev 0x12 .bool .ro 0 .any, -- Temperature valid; R321, Table 11.9
  ev 0x13 .u32 .ro 0 .any, -- Runs completed; R321, Table 11.9
  ev 0x14 .u8 .w1c 0 (.mask 0x7)] -- Measurement flags; R321, Table 11.9

/-- Output measurement (block 62). -/
def ents62 : List Entry := [
  ev 0x00 .u8 .ro 14 .any, -- Highest sub-index; R322, Table 11.10
  ev 0x01 .bool .rw 0 .any, -- Open; R322, Table 11.10
  ep 0x02 .bool .rw 1 .any, -- Include in run; R322, Table 11.10
  ep 0x03 .u32 .rw 0 (.nat 0 24576000), -- External latency; R322, Table 11.10
  ev 0x04 .u8 .ro 0 .any, -- Result; R322, Table 11.10
  ev 0x05 .u32 .ro 0 .any, -- Arrival at reference; R322, Table 11.10
  ev 0x06 .f32 .ro 0xc3100000 .any, -- Level at reference; R322, Table 11.10
  ev 0x07 .u8 .ro 0 .any, -- Polarity; R322, Table 11.10
  ev 0x08 .u32 .ro 0 .any, -- Proposed bulk delay; R322, Table 11.10
  ev 0x09 .f32 .ro 0 .any, -- Proposed trim; R322, Table 11.10
  ev 0x0A .blob .ro 0 .any, -- Arrivals; R322, Table 11.10
  ev 0x0B .blob .ro 0 .any, -- Impulse response; R322, Table 11.10
  ev 0x0C .blob .ro 0 .any, -- Impedance; R322, Table 11.10
  ev 0x0D .media64 .ro 0 .any, -- Measured at; R322, Table 11.10
  ev 0x0E .u8 .w1c 0 (.mask 0x3)] -- Output measurement status; R322, Table 11.10

/-- Recorder (block 63). -/
def ents63 : List Entry := [
  ev 0x00 .u8 .ro 13 .any, -- Highest sub-index; R323, Table 11.11
  ep 0x01 .bool .rw 1 .any, -- Enable; R323, Table 11.11
  ep 0x02 .u8 .rw 62 (.mask 0x3F), -- Freeze causes; R323, Table 11.11
  ep 0x03 .u32 .rw 0x3a980 (.nat 0 480000), -- Post time; R323, Table 11.11
  ev 0x04 .bool .wo 0 .trueOnly, -- Freeze; R323, Table 11.11
  ev 0x05 .bool .wo 0 .trueOnly, -- Rearm; R323, Table 11.11
  ev 0x06 .u8 .ro 0 .any, -- State; R323, Table 11.11
  ev 0x07 .u32 .ro 0xea600 .any, -- Depth; R323, Table 11.11
  ev 0x08 .media64 .ro 0 .any, -- Window first; R323, Table 11.11
  ev 0x09 .media64 .ro 0 .any, -- Window last; R323, Table 11.11
  ev 0x0A .u8 .ro 255 .any, -- Freeze cause; R323, Table 11.11
  ev 0x0B .media64 .ro 0 .any, -- Freeze at; R323, Table 11.11
  ev 0x0C .u32 .ro 0 .any, -- Freezes ignored; R323, Table 11.11
  ev 0x0D .u8 .w1c 0 (.mask 0x7)] -- Recorder flags; R323, Table 11.11

/-- Recorder readout (block 64). -/
def ents64 : List Entry := [
  ev 0x00 .u8 .ro 4 .any, -- Highest sub-index; R323, Table 11.12
  ev 0x01 .u16 .rw 0 (.nat 0 1535), -- Channel; R323, Table 11.12
  ev 0x02 .media64 .rw 0 .any, -- First media time; R323, Table 11.12
  ev 0x03 .u32 .rw 48000 (.nat 1 1048576), -- Count; R323, Table 11.12
  ev 0x04 .blob .ro 0 .any] -- Samples; R323, Table 11.12

/-- Tending pool globals (block 65). -/
def ents65 : List Entry := [
  ev 0x00 .u8 .ro 12 .any, -- Highest sub-index; R354, Table 12.11
  ev 0x01 .u16 .ro 0 .any, -- Chains placed; R354, Table 12.11
  ev 0x02 .u16 .ro 240 .any, -- Chain slots; R354, Table 12.11
  ev 0x03 .u32 .ro 0x51615 .any, -- Cycles per 16-sample block; R354, Table 12.11
  ev 0x04 .u8 .ro 90 .any, -- Chain share; R354, Table 12.11
  ev 0x05 .blob .ro 0 .any, -- Kernel catalogue; R354, Table 12.11
  ev 0x06 .u32 .ro 0 .any, -- Runs completed; R354, Table 12.11
  ev 0x07 .u32 .ro 0 .any, -- Missed runs; R354, Table 12.11
  ev 0x08 .u32 .ro 0 .any, -- Accumulator overflows; R354, Table 12.11
  ev 0x09 .u32 .ro 0 .any, -- Store saturations; R354, Table 12.11
  ev 0x0A .u32 .ro 0 .any, -- Uncorrectable local reads; R354, Table 12.11
  ev 0x0B .u32 .ro 0 .any, -- Analysis pieces; R354, Table 12.11
  ev 0x0C .u8 .w1c 0 (.mask 0x1f)] -- Pool flags; R354, Table 12.11

/-- Core report (block 66). -/
def ents66 : List Entry := [
  ev 0x00 .u8 .ro 10 .any, -- Highest sub-index; R355, Table 12.12
  ev 0x01 .u8 .ro 0 .any, -- Mode; R355, Table 12.12
  ev 0x02 .u16 .ro 0 .any, -- Block size; R355, Table 12.12
  ev 0x03 .u8 .ro 0 .any, -- Chains; R355, Table 12.12
  ev 0x04 .u32 .ro 0 .any, -- Cycles committed; R355, Table 12.12
  ev 0x05 .u32 .ro 0 .any, -- Cycles free; R355, Table 12.12
  ev 0x06 .u32 .ro 0 .any, -- Peak cycles; R355, Table 12.12
  ev 0x07 .u32 .ro 0 .any, -- Program bytes; R355, Table 12.12
  ev 0x08 .u32 .ro 0 .any, -- X bytes; R355, Table 12.12
  ev 0x09 .u32 .ro 0 .any, -- Y bytes; R355, Table 12.12
  ev 0x0A .u8 .ro 0 .any] -- Load; R355, Table 12.12

/-- Chains (block 67). -/
def ents67 : List Entry := [
  ev 0x00 .u8 .ro 19 .any, -- Highest sub-index; R356, Table 12.13
  ev 0x01 .bool .rw 0 .any, -- Enable; R356, Table 12.13
  ev 0x02 .blob .rw 0 (.len 32 65536), -- Description; R356, Table 12.13
  ev 0x03 .blob .wo 0 (.len 12 65536), -- Parameter write; R356, Table 12.13
  ep 0x04 .str .rw 0 (.len 0 32), -- Name; R356, Table 12.13
  ev 0x05 .u8 .ro 0 .any, -- State; R356, Table 12.13
  ev 0x06 .u8 .ro 255 .any, -- Core; R356, Table 12.13
  ev 0x07 .u16 .ro 65535 .any, -- Rake slot; R356, Table 12.13
  ev 0x08 .u32 .ro 0 .any, -- Cost; R356, Table 12.13
  ev 0x09 .u32 .ro 0 .any, -- Latency; R356, Table 12.13
  ev 0x0A .u32 .ro 0 .any, -- X bytes; R356, Table 12.13
  ev 0x0B .u32 .ro 0 .any, -- Y bytes; R356, Table 12.13
  ev 0x0C .u32 .ro 0 .any, -- Runs; R356, Table 12.13
  ev 0x0D .u32 .ro 0 .any, -- Missed runs; R356, Table 12.13
  ev 0x0E .u32 .ro 0 .any, -- Last run cycles; R356, Table 12.13
  ev 0x0F .blob .ro 0 .any, -- Completion words; R356, Table 12.13
  ev 0x10 .blob .ro 0 .any, -- Results; R356, Table 12.13
  ev 0x11 .u8 .ro 0 .any, -- Refusal reason; R356, Table 12.13
  ev 0x12 .u16 .ro 65535 .any, -- Refusal item; R356, Table 12.13
  ev 0x13 .u8 .w1c 0 (.mask 0xff)] -- Chain status; R356, Table 12.13

/-- Kernel packs (block 68). -/
def ents68 : List Entry := [
  ev 0x00 .u8 .ro 8 .any, -- Highest sub-index; R357, Table 12.15
  ev 0x01 .blob .wo 0 (.len 161 524288), -- Pack; R357, Table 12.15
  ev 0x02 .bool .wo 0 .trueOnly, -- Erase; R357, Table 12.15
  ev 0x03 .u8 .ro 0 .any, -- State; R357, Table 12.15
  ev 0x04 .u32 .ro 0 .any, -- Security version; R357, Table 12.15
  ev 0x05 .u32 .ro 0 .any, -- Version floor; R357, Table 12.15
  ev 0x06 .u16 .ro 0 .any, -- Kernels; R357, Table 12.15
  ev 0x07 .blob .ro 0 .any, -- Digest; R357, Table 12.15
  ev 0x08 .u8 .ro 0 .any] -- Refusal reason; R357, Table 12.15

/-- Rake globals (block 69). -/
def ents69 : List Entry := [
  ev 0x00 .u8 .ro 9 .any, -- Highest sub-index; R367, Table 13.4
  ev 0x01 .u64 .w1c 0 (.mask 0xffffff00), -- Flags 0 to 63; R367, Table 13.4
  ev 0x02 .u64 .w1c 0 (.mask 0xffffffffffffffff), -- Flags 64 to 127; R367, Table 13.4
  ev 0x03 .u64 .wo 0 .any, -- Set host flags; R367, Table 13.4
  ev 0x04 .u16 .ro 0 .any, -- Slots in use; R367, Table 13.4
  ev 0x05 .u32 .ro 0 .any, -- Dispatches; R367, Table 13.4
  ev 0x06 .u32 .ro 0 .any, -- Coalesced events; R367, Table 13.4
  ev 0x07 .u32 .ro 0 .any, -- Skipped runs; R367, Table 13.4
  ev 0x08 .u32 .ro 0 .any, -- Longest wait; R367, Table 13.4
  ev 0x09 .u8 .w1c 0 (.mask 0x3)] -- Rake flags; R367, Table 13.4

/-- Task slots (block 70). -/
def ents70 : List Entry := [
  ev 0x00 .u8 .ro 9 .any, -- Highest sub-index; R368, Table 13.5
  ev 0x01 .u8 .ro 0 .any, -- Kind; R368, Table 13.5
  ev 0x02 .u16 .ro 65535 .any, -- Chain; R368, Table 13.5
  ev 0x03 .u8 .ro 255 .any, -- Core; R368, Table 13.5
  ev 0x04 .u8 .ro 0 .any, -- Priority; R368, Table 13.5
  ev 0x05 .blob .ro 0 .any, -- Mask; R368, Table 13.5
  ev 0x06 .u8 .ro 0 .any, -- Test; R368, Table 13.5
  ev 0x07 .u32 .ro 0 .any, -- Dispatches; R368, Table 13.5
  ev 0x08 .u32 .ro 0 .any, -- Coalesced events; R368, Table 13.5
  ev 0x09 .media64 .ro 0 .any] -- Last dispatch at; R368, Table 13.5

/-- Chain gates (block 71). -/
def ents71 : List Entry := [
  ev 0x00 .u8 .ro 5 .any, -- Highest sub-index; R369, Table 13.6
  ev 0x01 .blob .rw 0 (.len 16 16), -- Gate mask; R369, Table 13.6
  ev 0x02 .u8 .rw 0 (.nat 0 1), -- Gate test; R369, Table 13.6
  ev 0x03 .bool .rw 0 .any, -- Consume gate; R369, Table 13.6
  ev 0x04 .u32 .ro 0 .any, -- Skipped runs; R369, Table 13.6
  ev 0x05 .u8 .w1c 0 (.mask 0x1)] -- Gate status; R369, Table 13.6

/-- Bus matrix (block 72). -/
def ents72 : List Entry := [
  ev 0x00 .u8 .ro 11 .any, -- Highest sub-index; R399, Table 14.10
  ev 0x01 .bool .ro 0 .any, -- Remap; R399, Table 14.10
  ev 0x02 .u32 .ro 0 .any, -- Pieces granted; R399, Table 14.10
  ev 0x03 .u32 .ro 0 .any, -- Decode errors; R399, Table 14.10
  ev 0x04 .u32 .ro 0 .any, -- Reset drains; R399, Table 14.10
  ev 0x05 .u32 .ro 0 .any, -- Longest drain; R399, Table 14.10
  ev 0x06 .u32 .ro 0 .any, -- Locks granted; R399, Table 14.10
  ev 0x07 .u32 .ro 0 .any, -- Lock timeouts; R399, Table 14.10
  ev 0x08 .u32 .ro 0 .any, -- Aged pieces; R399, Table 14.10
  ev 0x09 .u64 .ro 0 .any, -- Last decode error address; R399, Table 14.10
  ev 0x0A .u8 .ro 255 .any, -- Last decode error master; R399, Table 14.10
  ev 0x0B .u8 .w1c 0 (.mask 0x7)] -- Matrix flags; R399, Table 14.10

/-- Masters (block 73). -/
def ents73 : List Entry := [
  ev 0x00 .u8 .ro 7 .any, -- Highest sub-index; R400, Table 14.11
  ev 0x01 .str .ro 0 .any, -- Name; R400, Table 14.11
  ev 0x02 .u8 .ro 0 .any, -- Class; R400, Table 14.11
  ep 0x03 .u8 .rw 0 .custom, -- QoS; R400, Table 14.11
  ev 0x04 .u32 .ro 0 .any, -- Pieces granted; R400, Table 14.11
  ev 0x05 .u32 .ro 0 .any, -- Longest wait; R400, Table 14.11
  ev 0x06 .u32 .ro 0 .any, -- Decode errors; R400, Table 14.11
  ev 0x07 .u32 .ro 0 .any] -- Reset drains; R400, Table 14.11

/-- Targets (block 74). -/
def ents74 : List Entry := [
  ev 0x00 .u8 .ro 5 .any, -- Highest sub-index; R401, Table 14.12
  ev 0x01 .str .ro 0 .any, -- Name; R401, Table 14.12
  ev 0x02 .u32 .ro 0 .any, -- Pieces served; R401, Table 14.12
  ev 0x03 .u8 .ro 0 .any, -- Occupancy; R401, Table 14.12
  ev 0x04 .u8 .ro 255 .any, -- Parked master; R401, Table 14.12
  ev 0x05 .u32 .ro 0 .any] -- Drain bound; R401, Table 14.12

/-- SRAM regions (block 75). -/
def ents75 : List Entry := [
  ev 0x00 .u8 .ro 9 .any, -- Highest sub-index; R402, Table 14.13
  ev 0x01 .str .ro 0 .any, -- Name; R402, Table 14.13
  ev 0x02 .u32 .ro 0 .any, -- Corrected; R402, Table 14.13
  ev 0x03 .u32 .ro 0 .any, -- Uncorrectable; R402, Table 14.13
  ev 0x04 .u32 .ro 0 .any, -- Last corrected word; R402, Table 14.13
  ev 0x05 .u32 .ro 0xffffffff .any, -- Last uncorrectable word; R402, Table 14.13
  ev 0x06 .u8 .ro 0 .any, -- Last syndrome; R402, Table 14.13
  ev 0x07 .u32 .ro 0 .any, -- Patrol passes; R402, Table 14.13
  ev 0x08 .u8 .ro 0 .any, -- Patrol coverage; R402, Table 14.13
  ev 0x09 .u8 .w1c 0 (.mask 0x3)] -- Region flags; R402, Table 14.13

/-- DRAM controller (block 76). -/
def ents76 : List Entry := [
  ev 0x00 .u8 .ro 33 .any, -- Highest sub-index; R403, Table 14.14
  ev 0x01 .u8 .ro 0 .any, -- Controller state; R403, Table 14.14
  ev 0x02 .u8 .ro 0 .any, -- Refresh rate; R403, Table 14.14
  ev 0x03 .u32 .ro 0 .any, -- Refreshes; R403, Table 14.14
  ev 0x04 .u32 .ro 0 .any, -- Refreshes postponed; R403, Table 14.14
  ev 0x05 .u8 .ro 0 .any, -- Largest debt; R403, Table 14.14
  ep 0x06 .u8 .rw 12 (.nat 8 16), -- Neighbour refresh exponent; R403, Table 14.14
  ev 0x07 .u32 .ro 0 .any, -- Neighbour refreshes; R403, Table 14.14
  ev 0x08 .u32 .ro 0 .any, -- Neighbour selections dropped; R403, Table 14.14
  ev 0x09 .u32 .ro 0 .any, -- Parity alerts; R403, Table 14.14
  ev 0x0A .u32 .ro 0 .any, -- Replays; R403, Table 14.14
  ev 0x0B .u32 .ro 0 .any, -- Failed replays; R403, Table 14.14
  ep 0x0C .u16 .rw 1000 (.nat 128 10000), -- ZQ interval; R403, Table 14.14
  ev 0x0D .u32 .ro 0 .any, -- ZQ calibrations; R403, Table 14.14
  ev 0x0E .u32 .ro 0 .any, -- ZQ preemptions; R403, Table 14.14
  ev 0x0F .u32 .ro 0 .any, -- Longest ZQ wait; R403, Table 14.14
  ep 0x10 .u16 .rw 168 (.nat 0 720), -- Idle retraining interval; R403, Table 14.14
  ev 0x11 .media64 .rw 0 .any, -- Scheduled retraining; R403, Table 14.14
  ev 0x12 .u32 .ro 0 .any, -- Retrainings; R403, Table 14.14
  ev 0x13 .media64 .ro 0 .any, -- Last retraining at; R403, Table 14.14
  ep 0x14 .u16 .rw 24 (.nat 1 168), -- Scrub pass time; R403, Table 14.14
  ev 0x15 .f32 .ro 0 .any, -- Scrub coverage; R403, Table 14.14
  ev 0x16 .f32 .ro 0 .any, -- Scrub schedule; R403, Table 14.14
  ev 0x17 .u32 .ro 0 .any, -- Scrub passes; R403, Table 14.14
  ev 0x18 .u32 .ro 0 .any, -- Corrected codewords; R403, Table 14.14
  ev 0x19 .u32 .ro 0 .any, -- Uncorrectable codewords; R403, Table 14.14
  ev 0x1A .u64 .ro 0 .any, -- Last corrected offset; R403, Table 14.14
  ev 0x1B .u64 .ro 0xffffffffffffffff .any, -- Last uncorrectable offset; R403, Table 14.14
  ev 0x1C .u32 .ro 0 .any, -- Late real-time reads; R403, Table 14.14
  ep 0x1D .u32 .rw 100 (.nat 10 100000), -- Self-refresh delay; R403, Table 14.14
  ev 0x1E .u32 .ro 0 .any, -- Self-refresh entries; R403, Table 14.14
  ev 0x1F .u32 .ro 0 .any, -- Entries abandoned; R403, Table 14.14
  ep 0x20 .bool .rw 1 .any, -- Automatic marking; R403, Table 14.14
  ev 0x21 .u16 .w1c 0 (.mask 0x7ff)] -- DRAM flags; R403, Table 14.14

/-- DRAM devices (block 77). -/
def ents77 : List Entry := [
  ev 0x00 .u8 .ro 7 .any, -- Highest sub-index; R404, Table 14.15
  ev 0x01 .u8 .ro 0 .any, -- Subchannel; R404, Table 14.15
  ev 0x02 .u8 .ro 0 .any, -- Position; R404, Table 14.15
  ev 0x03 .u32 .ro 0 .any, -- Corrected symbols; R404, Table 14.15
  ev 0x04 .u32 .ro 0 .any, -- Corrected codewords; R404, Table 14.15
  ep 0x05 .bool .rw 0 .any, -- Marked failed; R404, Table 14.15
  ep 0x06 .u8 .ro 0 .any, -- Marked by; R404, Table 14.15
  ep 0x07 .media64 .ro 0 .any] -- Marked at; R404, Table 14.15

/-- Real-time budget (block 78). -/
def ents78 : List Entry := [
  ev 0x00 .u8 .ro 8 .any, -- Highest sub-index; R405, Table 14.16
  ev 0x01 .u32 .ro 0x1e8480 .any, -- Bulk phase window; R405, Table 14.16
  ev 0x02 .u32 .ro 0 .any, -- Tail bytes per hop; R405, Table 14.16
  ev 0x03 .u32 .ro 0 .any, -- Budgeted bulk phase; R405, Table 14.16
  ev 0x04 .u32 .ro 0 .any, -- Longest bulk phase; R405, Table 14.16
  ev 0x05 .u32 .ro 0 .any, -- Longest real-time stall; R405, Table 14.16
  ev 0x06 .u8 .ro 25 .any, -- Normal share; R405, Table 14.16
  ev 0x07 .u32 .ro 0 .any, -- Longest urgent phase; R405, Table 14.16
  ev 0x08 .u8 .w1c 0 (.mask 0x1)] -- Budget flags; R405, Table 14.16

/-- Boot (block 79). -/
def ents79 : List Entry := [
  ev 0x00 .u8 .ro 19 .any, -- Highest sub-index; R483, Table 17.9
  ev 0x01 .u8 .ro 0 .any, -- Boot mode; R483, Table 17.9
  ev 0x02 .u8 .ro 255 .any, -- Slot in force; R483, Table 17.9
  ev 0x03 .u8 .ro 0 .any, -- Preferred slot; R483, Table 17.9
  ev 0x04 .u8 .ro 0 .any, -- Slot 0, slot 1 state; R483, Table 17.9
  ev 0x05 .u8 .ro 0 .any, -- Slot 0, slot 1 state; R483, Table 17.9
  ev 0x06 .blob .rw 0 (.len 160 3670016), -- Firmware image; R483, Table 17.9
  ev 0x07 .u32 .ro 0 .any, -- Firmware floor; R483, Table 17.9
  ev 0x08 .u8 .rw 0 (.nat 0 1), -- Next boot; R483, Table 17.9
  ev 0x09 .u8 .ro 0 .any, -- Consecutive failures; R483, Table 17.9
  ev 0x0A .u32 .ro 0 .any, -- Fallbacks; R483, Table 17.9
  ev 0x0B .u32 .ro 0 .any, -- Boots; R483, Table 17.9
  ev 0x0C .u8 .ro 0 .any, -- Image refusal reason; R483, Table 17.9
  ep 0x0D .u16 .rw 1000 (.nat 100 10000), -- Watchdog timeout; R483, Table 17.9
  ev 0x0E .u32 .ro 0 .any, -- Watchdog expiries; R483, Table 17.9
  ev 0x0F .u32 .ro 0 .any, -- Machine checks; R483, Table 17.9
  ev 0x10 .u32 .ro 0 .any, -- Last machine check address; R483, Table 17.9
  ev 0x11 .u8 .ro 0 .any, -- Boot status; R483, Table 17.9
  ev 0x12 .u32 .ro 0 .any, -- Floor raises; R483, Table 17.9
  ev 0x13 .u8 .w1c 0 (.mask 0x1f)] -- Boot flags; R483, Table 17.9

/-- Boot timeline (block 80). -/
def ents80 : List Entry := [
  ev 0x00 .u8 .ro 15 .any, -- Highest sub-index; R483, Table 17.9
  ev 0x01 .u32 .ro 0 .any, -- End of stages 1 to 15; R483, Table 17.9
  ev 0x02 .u32 .ro 0 .any, -- End of stages 1 to 15; R483, Table 17.9
  ev 0x03 .u32 .ro 0 .any, -- End of stages 1 to 15; R483, Table 17.9
  ev 0x04 .u32 .ro 0 .any, -- End of stages 1 to 15; R483, Table 17.9
  ev 0x05 .u32 .ro 0 .any, -- End of stages 1 to 15; R483, Table 17.9
  ev 0x06 .u32 .ro 0 .any, -- End of stages 1 to 15; R483, Table 17.9
  ev 0x07 .u32 .ro 0 .any, -- End of stages 1 to 15; R483, Table 17.9
  ev 0x08 .u32 .ro 0 .any, -- End of stages 1 to 15; R483, Table 17.9
  ev 0x09 .u32 .ro 0 .any, -- End of stages 1 to 15; R483, Table 17.9
  ev 0x0A .u32 .ro 0 .any, -- End of stages 1 to 15; R483, Table 17.9
  ev 0x0B .u32 .ro 0 .any, -- End of stages 1 to 15; R483, Table 17.9
  ev 0x0C .u32 .ro 0 .any, -- End of stages 1 to 15; R483, Table 17.9
  ev 0x0D .u32 .ro 0 .any, -- End of stages 1 to 15; R483, Table 17.9
  ev 0x0E .u32 .ro 0 .any, -- End of stages 1 to 15; R483, Table 17.9
  ev 0x0F .u32 .ro 0 .any] -- End of stages 1 to 15; R483, Table 17.9

/-- Attestation (block 81). -/
def ents81 : List Entry := [
  ev 0x00 .u8 .ro 13 .any, -- Highest sub-index; R483, Table 17.9
  ev 0x01 .blob .wo 0 (.len 32 32), -- Nonce; R483, Table 17.9
  ev 0x02 .u8 .ro 0 .any, -- Report state; R483, Table 17.9
  ev 0x03 .blob .ro 0 .any, -- Report; R483, Table 17.9
  ev 0x04 .blob .ro 0 .any, -- Signature; R483, Table 17.9
  ev 0x05 .u8 .ro 255 .any, -- Requesting host; R483, Table 17.9
  ev 0x06 .media64 .ro 0 .any, -- Requested at; R483, Table 17.9
  ev 0x07 .u32 .ro 0 .any, -- Reports signed; R483, Table 17.9
  ev 0x08 .blob .ro 0 .any, -- Composite measurement; R483, Table 17.9
  ev 0x09 .u16 .ro 0 .any, -- Log records; R483, Table 17.9
  ev 0x0A .u32 .ro 0 .any, -- Busy refusals; R483, Table 17.9
  ev 0x0B .u16 .ro 1 .any, -- Report format; R483, Table 17.9
  ev 0x0C .u32 .ro 0 .any, -- Signing time; R483, Table 17.9
  ev 0x0D .u8 .w1c 0 (.mask 0x3)] -- Attestation flags; R483, Table 17.9

/-- Device certificate (block 82). -/
def ents82 : List Entry := [
  ev 0x00 .u8 .ro 5 .any, -- Highest sub-index; R483, Table 17.9
  ev 0x01 .blob .ro 0 .any, -- Device certificate; R483, Table 17.9
  ev 0x02 .blob .ro 0 .any, -- Public key; R483, Table 17.9
  ev 0x03 .blob .ro 0 .any, -- Issuer certificate; R483, Table 17.9
  ev 0x04 .blob .ro 0 .any, -- Key identifier; R483, Table 17.9
  ev 0x05 .bool .ro 0 .any] -- Certificate valid; R483, Table 17.9

/-- Measurement log; record = index − 0x6410 (block 83). -/
def ents83 : List Entry := [
  ev 0x00 .u8 .ro 4 .any, -- Highest sub-index; R483, Table 17.9
  ev 0x01 .u8 .ro 255 .any, -- Kind; R483, Table 17.9
  ev 0x02 .u32 .ro 0 .any, -- Identifier; R483, Table 17.9
  ev 0x03 .u32 .ro 0 .any, -- Security version; R483, Table 17.9
  ev 0x04 .blob .ro 0 .any] -- Digest; R483, Table 17.9

/-- Power states (block 84). -/
def ents84 : List Entry := [
  ev 0x00 .u8 .ro 21 .any, -- Highest sub-index; R484, Table 17.10
  ev 0x01 .u8 .ro 0 .any, -- State; R484, Table 17.10
  ev 0x02 .u8 .wo 0 (.nat 1 3), -- Request; R484, Table 17.10
  ev 0x03 .u8 .ro 0 .any, -- Transition pending; R484, Table 17.10
  ep 0x04 .u8 .rw 1 (.nat 1 2), -- Start state; R484, Table 17.10
  ep 0x05 .bool .rw 1 .any, -- Save before standby; R484, Table 17.10
  ev 0x06 .media64 .ro 0 .any, -- State entered at; R484, Table 17.10
  ev 0x07 .u32 .ro 0 .any, -- Time in ACTIVE, in IDLE; R484, Table 17.10
  ev 0x08 .u32 .ro 0 .any, -- Time in ACTIVE, in IDLE; R484, Table 17.10
  ev 0x09 .u32 .ro 0 .any, -- Transitions; R484, Table 17.10
  ev 0x0A .f32 .ro 0 .any, -- Die temperature; R484, Table 17.10
  ev 0x0B .f32 .ro 0 .any, -- Peak die temperature; R484, Table 17.10
  ep 0x0C .f32 .rw 0x42c80000 (.flt 0x428c0000 0x42dc0000), -- Thermal warning; R484, Table 17.10
  ev 0x0D .f32 .ro 0x42e60000 .any, -- Thermal shutdown; R484, Table 17.10
  ev 0x0E .u32 .ro 0 .any, -- Thermal shutdowns; R484, Table 17.10
  ev 0x0F .f32 .ro 0 .any, -- Estimated power; R484, Table 17.10
  ev 0x10 .bool .ro 0 .any, -- Engines running; R484, Table 17.10
  ev 0x11 .bool .ro 0 .any, -- SUPPLY_EN, BYPASS_N levels; R484, Table 17.10
  ev 0x12 .bool .ro 0 .any, -- SUPPLY_EN, BYPASS_N levels; R484, Table 17.10
  ev 0x13 .u32 .ro 0 .any, -- Standby entries; R484, Table 17.10
  ev 0x14 .u8 .ro 0 .any, -- Last change cause; R484, Table 17.10
  ev 0x15 .u8 .w1c 0 (.mask 0xf)] -- Power flags; R484, Table 17.10

/-- Resets (block 85). -/
def ents85 : List Entry := [
  ev 0x00 .u8 .ro 17 .any, -- Highest sub-index; R484, Table 17.10
  ev 0x01 .bool .wo 0 .trueOnly, -- Device, control processor, Tending pool, network reset; R484, Table 17.10
  ev 0x02 .bool .wo 0 .trueOnly, -- Device, control processor, Tending pool, network reset; R484, Table 17.10
  ev 0x03 .bool .wo 0 .trueOnly, -- Device, control processor, Tending pool, network reset; R484, Table 17.10
  ev 0x04 .bool .wo 0 .trueOnly, -- Device, control processor, Tending pool, network reset; R484, Table 17.10
  ev 0x05 .u8 .ro 0 .any, -- Last reset kind; R484, Table 17.10
  ev 0x06 .u8 .ro 0 .any, -- Last reset cause; R484, Table 17.10
  ev 0x07 .u64 .ro 0 .any, -- Counter at last reset; R484, Table 17.10
  ev 0x08 .u32 .ro 0 .any, -- Resets of kinds 0 to 5; R484, Table 17.10
  ev 0x09 .u32 .ro 0 .any, -- Resets of kinds 0 to 5; R484, Table 17.10
  ev 0x0A .u32 .ro 0 .any, -- Resets of kinds 0 to 5; R484, Table 17.10
  ev 0x0B .u32 .ro 0 .any, -- Resets of kinds 0 to 5; R484, Table 17.10
  ev 0x0C .u32 .ro 0 .any, -- Resets of kinds 0 to 5; R484, Table 17.10
  ev 0x0D .u32 .ro 0 .any, -- Resets of kinds 0 to 5; R484, Table 17.10
  ev 0x0E .blob .ro 0 .any, -- Cause history; R484, Table 17.10
  ev 0x0F .u32 .ro 0 .any, -- Longest control processor outage; R484, Table 17.10
  ev 0x10 .u32 .ro 0 .any, -- Watchdog resets; R484, Table 17.10
  ev 0x11 .u8 .w1c 0 (.mask 0x1f)] -- Reset flags; R484, Table 17.10

/-- Wake sources (block 86). -/
def ents86 : List Entry := [
  ev 0x00 .u8 .ro 11 .any, -- Highest sub-index; R484, Table 17.10
  ep 0x01 .u8 .rw 3 (.mask 0x07), -- Wake enable; R484, Table 17.10
  ep 0x02 .u32 .rw 0 (.nat 0 604800), -- Wake timer; R484, Table 17.10
  ev 0x03 .u8 .ro 6 .any, -- Wake cause; R484, Table 17.10
  ev 0x04 .u8 .ro 255 .any, -- Wake MAC; R484, Table 17.10
  ev 0x05 .u8 .ro 255 .any, -- Wake pattern; R484, Table 17.10
  ev 0x06 .u32 .ro 0 .any, -- Wakes; R484, Table 17.10
  ev 0x07 .u32 .ro 0 .any, -- Time in standby; R484, Table 17.10
  ep 0x08 .u16 .rw 20 (.nat 1 500), -- Supply-on delay; R484, Table 17.10
  ev 0x09 .u32 .ro 0 .any, -- Frames examined; R484, Table 17.10
  ev 0x0A .u32 .ro 0 .any, -- Wakes during entry; R484, Table 17.10
  ev 0x0B .u8 .w1c 0 (.mask 0x3)] -- Wake flags; R484, Table 17.10

/-- Supplies (block 87). -/
def ents87 : List Entry := [
  ev 0x00 .u8 .ro 13 .any, -- Highest sub-index; R484, Table 17.10
  ev 0x01 .f32 .ro 0 .any, -- Measured supplies; R484, Table 17.10
  ev 0x02 .f32 .ro 0 .any, -- Measured supplies; R484, Table 17.10
  ev 0x03 .f32 .ro 0 .any, -- Measured supplies; R484, Table 17.10
  ev 0x04 .f32 .ro 0 .any, -- Measured supplies; R484, Table 17.10
  ev 0x05 .f32 .ro 0 .any, -- Measured supplies; R484, Table 17.10
  ev 0x06 .f32 .ro 0 .any, -- Measured supplies; R484, Table 17.10
  ev 0x07 .f32 .ro 0 .any, -- Measured supplies; R484, Table 17.10
  ev 0x08 .f32 .ro 0 .any, -- Measured supplies; R484, Table 17.10
  ev 0x09 .f32 .ro 0 .any, -- Measured supplies; R484, Table 17.10
  ev 0x0A .f32 .ro 0 .any, -- Measured supplies; R484, Table 17.10
  ev 0x0B .f32 .ro 0 .any, -- Measured supplies; R484, Table 17.10
  ev 0x0C .f32 .ro 0 .any, -- Measured supplies; R484, Table 17.10
  ev 0x0D .u16 .ro 0 .any] -- Supplies out of range; R484, Table 17.10

/-- SRAM bank power; bank = index − 0x6510 (block 88). -/
def ents88 : List Entry := [
  ev 0x00 .u8 .ro 2 .any, -- Highest sub-index; R484, Table 17.10
  ev 0x01 .u8 .ro 2 .any, -- Bank state; R484, Table 17.10
  ev 0x02 .u32 .ro 0 .any] -- Power-downs; R484, Table 17.10

/-- Ageing (block 89). -/
def ents89 : List Entry := [
  ev 0x00 .u8 .ro 21 .any, -- Highest sub-index; R485, Table 17.11
  ev 0x01 .u16 .ro 256 .any, -- Monitors; R485, Table 17.11
  ep 0x02 .u16 .rw 60 (.nat 1 3600), -- Sample interval; R485, Table 17.11
  ev 0x03 .u32 .ro 0 .any, -- Samples; R485, Table 17.11
  ev 0x04 .f32 .ro 0 .any, -- Worst drift, worst monitor; R485, Table 17.11
  ev 0x05 .u16 .ro 0 .any, -- Worst drift, worst monitor; R485, Table 17.11
  ev 0x06 .f32 .ro 0 .any, -- Mean drift; R485, Table 17.11
  ep 0x07 .f32 .rw 0x40a00000 (.flt 0x3f000000 0x41a00000), -- Drift warning; R485, Table 17.11
  ev 0x08 .u32 .ro 0 .any, -- Powered hours; R485, Table 17.11
  ev 0x09 .u32 .ro 0 .any, -- Hours above +95 °C; R485, Table 17.11
  ev 0x0A .u32 .ro 0 .any, -- Weighted age; R485, Table 17.11
  ev 0x0B .f32 .ro 0x3f333333 .any, -- Activation energy; R485, Table 17.11
  ev 0x0C .f32 .ro 0 .any, -- Hottest sensor; R485, Table 17.11
  ev 0x0D .f32 .ro 0 .any, -- Temperature spread; R485, Table 17.11
  ev 0x0E .f32 .ro 0 .any, -- Voltage headroom; R485, Table 17.11
  ev 0x0F .u32 .ro 0 .any, -- Telemetry saved at; R485, Table 17.11
  ev 0x10 .u32 .ro 0 .any, -- Monitor faults; R485, Table 17.11
  ev 0x11 .u16 .ro 0 .any, -- Excluded monitors; R485, Table 17.11
  ev 0x12 .u32 .ro 0 .any, -- Samples deferred; R485, Table 17.11
  ev 0x13 .f32 .ro 0 .any, -- Drift at last plan; R485, Table 17.11
  ev 0x14 .f32 .ro 0x42aa0000 .any, -- Reference temperature; R485, Table 17.11
  ev 0x15 .u8 .w1c 0 (.mask 0xf)] -- Ageing flags; R485, Table 17.11

/-- Margin plan (block 90). -/
def ents90 : List Entry := [
  ev 0x00 .u8 .ro 19 .any, -- Highest sub-index; R485, Table 17.11
  ep 0x01 .u8 .rw 0 (.nat 0 1), -- Mode; R485, Table 17.11
  ep 0x02 .u8 .rw 30 (.nat 0 63), -- Fixed code; R485, Table 17.11
  ep 0x03 .f32 .rw 0x42700000 (.flt 0x41a00000 0x43480000), -- Guard; R485, Table 17.11
  ep 0x04 .u8 .rw 0 .custom, -- Minimum, maximum code; R485, Table 17.11
  ep 0x05 .u8 .rw 63 .custom, -- Minimum, maximum code; R485, Table 17.11
  ep 0x06 .u16 .rw 24 (.nat 1 720), -- Re-plan interval; R485, Table 17.11
  ep 0x07 .f32 .rw 0x41200000 (.flt 0x40000000 0x42200000), -- Temperature band; R485, Table 17.11
  ev 0x08 .u8 .ro 30 .any, -- Plan code; R485, Table 17.11
  ev 0x09 .f32 .ro 0x3f400000 .any, -- Plan voltage; R485, Table 17.11
  ev 0x0A .u8 .ro 30 .any, -- Required code; R485, Table 17.11
  ev 0x0B .u32 .ro 0 .any, -- Last plan at; R485, Table 17.11
  ev 0x0C .u32 .ro 0 .any, -- Plans; R485, Table 17.11
  ev 0x0D .f32 .ro 0 .any, -- Temperature at plan; R485, Table 17.11
  ev 0x0E .f32 .ro 0 .any, -- Slack at plan; R485, Table 17.11
  ep 0x0F .u8 .rw 2 (.nat 1 8), -- Step size; R485, Table 17.11
  ep 0x10 .u16 .rw 100 (.nat 20 10000), -- Step interval; R485, Table 17.11
  ev 0x11 .u8 .ro 30 .any, -- Lowest, highest code; R485, Table 17.11
  ev 0x12 .u8 .ro 30 .any, -- Lowest, highest code; R485, Table 17.11
  ev 0x13 .u8 .ro 0 .any] -- Plan state; R485, Table 17.11

/-- DRAM margins (block 91). -/
def ents91 : List Entry := [
  ev 0x00 .u8 .ro 13 .any, -- Highest sub-index; R485, Table 17.11
  ev 0x01 .u64 .ro 0 .any, -- Counter at last training; R485, Table 17.11
  ev 0x02 .f32 .ro 0 .any, -- Worst timing margin, lane; R485, Table 17.11
  ev 0x03 .u16 .ro 0 .any, -- Worst timing margin, lane; R485, Table 17.11
  ev 0x04 .f32 .ro 0 .any, -- Worst voltage margin, lane; R485, Table 17.11
  ev 0x05 .u16 .ro 0 .any, -- Worst voltage margin, lane; R485, Table 17.11
  ep 0x06 .f32 .rw 0x42200000 (.flt 0x41200000 0x43480000), -- Timing floor; R485, Table 17.11
  ep 0x07 .f32 .rw 0x41a00000 (.flt 0x40a00000 0x42c80000), -- Voltage floor; R485, Table 17.11
  ev 0x08 .f32 .ro 0 .any, -- Drift since training; R485, Table 17.11
  ep 0x09 .f32 .rw 0x41f00000 (.flt 0x40a00000 0x42c80000), -- Drift limit; R485, Table 17.11
  ev 0x0A .u32 .ro 0 .any, -- Compensations; R485, Table 17.11
  ev 0x0B .u8 .ro 0 .any, -- Margin state; R485, Table 17.11
  ev 0x0C .f32 .ro 0 .any, -- Worst timing margin at boot; R485, Table 17.11
  ev 0x0D .u32 .ro 0 .any] -- Retraining requests; R485, Table 17.11

/-- Voltage request (block 92). -/
def ents92 : List Entry := [
  ev 0x00 .u8 .ro 11 .any, -- Highest sub-index; R485, Table 17.11
  ev 0x01 .u8 .ro 30 .any, -- Code on VREQ[5:0]; R485, Table 17.11
  ev 0x02 .f32 .ro 0x3f400000 .any, -- Requested voltage; R485, Table 17.11
  ev 0x03 .f32 .ro 0 .any, -- Measured VDD_CORE; R485, Table 17.11
  ev 0x04 .f32 .ro 0 .any, -- Error; R485, Table 17.11
  ev 0x05 .u32 .ro 0 .any, -- Code changes; R485, Table 17.11
  ev 0x06 .u32 .ro 0 .any, -- Safety raises; R485, Table 17.11
  ev 0x07 .u32 .ro 0 .any, -- Time at maximum code; R485, Table 17.11
  ev 0x08 .u8 .ro 0 .any, -- Strap mode; R485, Table 17.11
  ev 0x09 .u64 .ro 0 .any, -- Counter at last change; R485, Table 17.11
  ev 0x0A .u32 .ro 0 .any, -- Settling violations; R485, Table 17.11
  ev 0x0B .u8 .ro 30 .any] -- Target code; R485, Table 17.11

/-- Voltage codes; code = index − 0x6610 (block 93). -/
def ents93 : List Entry := [
  ev 0x00 .u8 .ro 3 .any, -- Highest sub-index; R485, Table 17.11
  ev 0x01 .f32 .ro 0 .any, -- Factory delay ratio; R485, Table 17.11
  ev 0x02 .f32 .ro 0 .any, -- Predicted worst delay; R485, Table 17.11
  ev 0x03 .u32 .ro 0 .any] -- Residency; R485, Table 17.11

/-- DRAM lanes; lane = index − 0x6680 (block 94). -/
def ents94 : List Entry := [
  ev 0x00 .u8 .ro 3 .any, -- Highest sub-index; R485, Table 17.11
  ev 0x01 .f32 .ro 0 .any, -- Timing margin; R485, Table 17.11
  ev 0x02 .f32 .ro 0 .any, -- Voltage margin; R485, Table 17.11
  ev 0x03 .f32 .ro 0 .any] -- Trained setting; R485, Table 17.11

/-- Ageing monitors; monitor = index − 0x6700 (block 95). -/
def ents95 : List Entry := [
  ev 0x00 .u8 .ro 3 .any, -- Highest sub-index; R485, Table 17.11
  ev 0x01 .u8 .ro 0 .any, -- Kind; R485, Table 17.11
  ev 0x02 .f32 .ro 0 .any, -- Reading; R485, Table 17.11
  ev 0x03 .f32 .ro 0 .any] -- Drift; R485, Table 17.11

/-- Counters; counter = index − 0x6800 (block 96). -/
def ents96 : List Entry := [
  ev 0x00 .u8 .ro 1 .any, -- Highest sub-index; R495, Table 18.4
  ev 0x01 .u64 .ro 0 .any] -- Value; R495, Table 18.4

/-- Trace globals (block 97). -/
def ents97 : List Entry := [
  ev 0x00 .u8 .ro 31 .any, -- Highest sub-index; R496, Table 18.5
  ep 0x01 .bool .rw 0 .any, -- Enable; R496, Table 18.5
  ep 0x02 .u8 .rw 1 (.nat 0 1), -- Type 0 control; R496, Table 18.5
  ep 0x03 .u16 .rw 16384 (.nat 1024 32768), -- Sync interval; R496, Table 18.5
  ev 0x04 .blob .rw 0 (.len 64 64), -- Type mask; R496, Table 18.5
  ep 0x05 .u16 .rw 0 (.nat 0 511), -- Snapshot first counter; R496, Table 18.5
  ep 0x06 .u8 .rw 0 (.nat 0 7), -- Snapshot count; R496, Table 18.5
  ep 0x07 .u32 .rw 1000 (.nat 100 1000000), -- Snapshot interval; R496, Table 18.5
  ev 0x08 .u16 .ro 4096 .any, -- FIFO depth; R496, Table 18.5
  ev 0x09 .u16 .ro 0 .any, -- FIFO fill; R496, Table 18.5
  ev 0x0A .u16 .ro 0 .any, -- Peak fill; R496, Table 18.5
  ev 0x0B .u8 .ro 0 .any, -- Link load; R496, Table 18.5
  ev 0x0C .u32 .ro 0x1dcd6500 .any, -- Link rate; R496, Table 18.5
  ev 0x0D .u16 .ro 1 .any, -- Format version; R496, Table 18.5
  ev 0x0E .u16 .ro 1 .any, -- Types enabled; R496, Table 18.5
  ev 0x0F .media64 .ro 0 .any, -- Enabled at; R496, Table 18.5
  ev 0x10 .u64 .ro 0 .any, -- Messages sent; R496, Table 18.5
  ev 0x11 .u64 .ro 0 .any, -- Bytes sent; R496, Table 18.5
  ev 0x12 .u64 .ro 0 .any, -- Messages dropped; R496, Table 18.5
  ev 0x13 .u32 .ro 0 .any, -- Sync messages sent; R496, Table 18.5
  ev 0x14 .u32 .ro 0 .any, -- Snapshots sent; R496, Table 18.5
  ev 0x15 .media64 .ro 0 .any, -- Last drop at; R496, Table 18.5
  ev 0x16 .u64 .ro 0 .any, -- Last sync counter; R496, Table 18.5
  ev 0x17 .u32 .rw 0 .any, -- Latch tag; R496, Table 18.5
  ev 0x18 .media64 .ro 0 .any, -- Latched at; R496, Table 18.5
  ev 0x19 .u64 .ro 0 .any, -- Latched counter; R496, Table 18.5
  ev 0x1A .blob .ro 0 .any, -- Counter image; R496, Table 18.5
  ev 0x1B .u32 .ro 0 .any, -- Latches; R496, Table 18.5
  ev 0x1C .u16 .ro 511 .any, -- Highest type; R496, Table 18.5
  ev 0x1D .u64 .ro 0 .any, -- Counters started at; R496, Table 18.5
  ev 0x1E .u8 .ro 0 .any, -- Trace pins; R496, Table 18.5
  ev 0x1F .u8 .w1c 0 (.mask 0x3)] -- Trace flags; R496, Table 18.5

/-- Trace message types; type = index − 0x6A00 (block 98). -/
def ents98 : List Entry := [
  ev 0x00 .u8 .ro 1 .any, -- Highest sub-index; R496, Table 18.6
  ep 0x01 .u8 .rw 0 (.nat 0 1)] -- Control; R496, Table 18.6

/-- Blocks 0 to 24 of the map. -/
def blocks0 : List Block := [
  ⟨0x0000, 0x0000, 0, 0x11, 0, 17, ents0⟩, -- Identity
  ⟨0x0001, 0x0001, 0, 0x1F, 0, 17, ents1⟩, -- Capabilities
  ⟨0x0002, 0x0002, 0, 0x09, 0, 17, ents2⟩, -- Boot straps
  ⟨0x0003, 0x0003, 0, 0x07, 0, 17, ents3⟩, -- Dictionary summary
  ⟨0x0010, 0x0072, 0, 0x06, 0, 17, ents4⟩, -- Block descriptors; block = index − 0x0010
  ⟨0x0080, 0x00FF, 0, 0x02, 0, 17, ents5⟩, -- Factory records; record = index − 0x0080
  ⟨0x1000, 0x1000, 8, 0x12, 0, 15, ents6⟩, -- Hosts
  ⟨0x1001, 0x1001, 0, 0x09, 0, 15, ents7⟩, -- Yexel globals
  ⟨0x1100, 0x1100, 0, 0x0D, 0, 15, ents8⟩, -- Owners
  ⟨0x1200, 0x1200, 8, 0x07, 0, 15, ents9⟩, -- Notifications
  ⟨0x1300, 0x1300, 0, 0x0B, 0, 15, ents10⟩, -- Safe-load
  ⟨0x1301, 0x1301, 8, 0x05, 0, 15, ents11⟩, -- Stages
  ⟨0x1400, 0x1400, 0, 0x10, 0, 15, ents12⟩, -- Store
  ⟨0x2000, 0x2000, 1024, 0x18, 1, 2, ents13⟩, -- Object channels
  ⟨0x2400, 0x2400, 0, 0x01, 1, 2, ents14⟩, -- Keyframe push
  ⟨0x2401, 0x2401, 8, 0x0C, 1, 2, ents15⟩, -- Keyframe status
  ⟨0x2800, 0x2800, 0, 0x11, 0, 2, ents16⟩, -- Scene globals
  ⟨0x3000, 0x3000, 512, 0x0D, 2, 3, ents17⟩, -- Planting plan
  ⟨0x3100, 0x3100, 1024, 0x04, 0, 3, ents18⟩, -- Triplets
  ⟨0x3200, 0x3200, 32, 0x04, 0, 3, ents19⟩, -- Zones
  ⟨0x3300, 0x3300, 0, 0x1B, 0, 3, ents20⟩, -- Geometry globals
  ⟨0x3310, 0x3310, 1024, 0x0A, 1, 3, ents21⟩, -- Object geometry report
  ⟨0x3400, 0x3400, 0, 0x11, 0, 4, ents22⟩, -- Render globals
  ⟨0x3410, 0x3410, 1024, 0x0B, 1, 4, ents23⟩, -- Object render report
  ⟨0x3500, 0x3500, 512, 0x06, 2, 4, ents24⟩] -- Render output report

/-- Blocks 25 to 49 of the map. -/
def blocks1 : List Block := [
  ⟨0x3800, 0x3800, 512, 0x17, 6, 5, ents25⟩, -- Output correction
  ⟨0x3A00, 0x3A00, 1024, 0x0A, 2, 5, ents26⟩, -- Filter sets
  ⟨0x3B00, 0x3B00, 0, 0x0E, 6, 5, ents27⟩, -- Graft and correction globals
  ⟨0x3B01, 0x3B01, 8, 0x05, 2, 5, ents28⟩, -- Graft request status
  ⟨0x3C00, 0x3C00, 0, 0x0F, 6, 6, ents29⟩, -- Trellis globals
  ⟨0x3C01, 0x3C01, 256, 0x03, 0, 6, ents30⟩, -- Trellis sources
  ⟨0x3C02, 0x3C02, 256, 0x04, 2, 6, ents31⟩, -- Trellis sinks
  ⟨0x3D00, 0x3D00, 1024, 0x0D, 1, 6, ents32⟩, -- Input map
  ⟨0x3E00, 0x3E00, 1560, 0x05, 6, 6, ents33⟩, -- Output map
  ⟨0x3F00, 0x3F00, 0, 0x09, 0, 6, ents34⟩, -- Rate domains
  ⟨0x3F01, 0x3F01, 8, 0x0E, 0, 6, ents35⟩, -- Path query
  ⟨0x4000, 0x4000, 32, 0x10, 6, 7, ents36⟩, -- Serial port configuration
  ⟨0x4010, 0x4010, 32, 0x16, 3, 7, ents37⟩, -- Serial port report
  ⟨0x4400, 0x4400, 8, 0x07, 0, 7, ents38⟩, -- Alignment groups
  ⟨0x4500, 0x4500, 0, 0x05, 0, 7, ents39⟩, -- ASRC globals
  ⟨0x4510, 0x4510, 64, 0x06, 0, 7, ents40⟩, -- ASRC channel
  ⟨0x4600, 0x4600, 0, 0x0B, 0, 7, ents41⟩, -- Sample clocks
  ⟨0x4800, 0x4800, 6, 0x18, 6, 8, ents42⟩, -- MACs
  ⟨0x4810, 0x4810, 4, 0x02, 0, 8, ents43⟩, -- Wake patterns
  ⟨0x4900, 0x4900, 0, 0x0C, 0, 8, ents44⟩, -- Cell pool
  ⟨0x4A00, 0x4A00, 256, 0x21, 4, 8, ents45⟩, -- Receive streams
  ⟨0x4C00, 0x4C00, 256, 0x1B, 4, 8, ents46⟩, -- Transmit streams
  ⟨0x4E00, 0x4E00, 4, 0x07, 0, 8, ents47⟩, -- Receive rings
  ⟨0x4F00, 0x4F00, 6, 0x0C, 0, 8, ents48⟩, -- IPv4 interfaces
  ⟨0x5000, 0x5000, 0, 0x1C, 0, 9, ents49⟩] -- System time

/-- Blocks 50 to 74 of the map. -/
def blocks2 : List Block := [
  ⟨0x5001, 0x5001, 0, 0x1B, 0, 9, ents50⟩, -- PTP
  ⟨0x5010, 0x5010, 6, 0x03, 0, 9, ents51⟩, -- Timestamp corrections
  ⟨0x5100, 0x5100, 16, 0x0B, 0, 9, ents52⟩, -- Triggers
  ⟨0x5200, 0x5200, 8, 0x0A, 0, 9, ents53⟩, -- Captures
  ⟨0x5300, 0x5300, 0, 0x06, 0, 9, ents54⟩, -- Transmit timestamp queue
  ⟨0x5400, 0x5400, 0, 0x1C, 0, 9, ents55⟩, -- Sprinkler
  ⟨0x5800, 0x5800, 24, 0x1C, 6, 10, ents56⟩, -- Modulator channels
  ⟨0x5900, 0x5900, 32, 0x05, 0, 10, ents57⟩, -- Protected frequencies
  ⟨0x5A00, 0x5A00, 0, 0x10, 0, 10, ents58⟩, -- Hedge globals
  ⟨0x5C00, 0x5C00, 0, 0x09, 0, 11, ents59⟩, -- PDM globals
  ⟨0x5C10, 0x5C10, 16, 0x10, 3, 11, ents60⟩, -- Microphones
  ⟨0x5D00, 0x5D00, 0, 0x14, 0, 11, ents61⟩, -- Stimulus and measurement
  ⟨0x5D10, 0x5D10, 512, 0x0E, 2, 11, ents62⟩, -- Output measurement
  ⟨0x5D80, 0x5D80, 0, 0x0D, 0, 11, ents63⟩, -- Recorder
  ⟨0x5D81, 0x5D81, 8, 0x04, 6, 11, ents64⟩, -- Recorder readout
  ⟨0x5E00, 0x5E00, 0, 0x0C, 0, 12, ents65⟩, -- Tending pool globals
  ⟨0x5E01, 0x5E01, 16, 0x0A, 0, 12, ents66⟩, -- Core report
  ⟨0x5E10, 0x5E10, 256, 0x13, 5, 12, ents67⟩, -- Chains
  ⟨0x5E30, 0x5E30, 8, 0x08, 0, 12, ents68⟩, -- Kernel packs
  ⟨0x5F00, 0x5F00, 0, 0x09, 6, 13, ents69⟩, -- Rake globals
  ⟨0x5F10, 0x5F10, 256, 0x09, 0, 13, ents70⟩, -- Task slots
  ⟨0x5F20, 0x5F20, 256, 0x05, 5, 13, ents71⟩, -- Chain gates
  ⟨0x6000, 0x6000, 0, 0x0B, 0, 14, ents72⟩, -- Bus matrix
  ⟨0x6010, 0x6010, 14, 0x07, 0, 14, ents73⟩, -- Masters
  ⟨0x6020, 0x6020, 9, 0x05, 0, 14, ents74⟩] -- Targets

/-- Blocks 75 to 98 of the map. -/
def blocks3 : List Block := [
  ⟨0x6100, 0x6100, 7, 0x09, 0, 14, ents75⟩, -- SRAM regions
  ⟨0x6200, 0x6200, 0, 0x21, 0, 14, ents76⟩, -- DRAM controller
  ⟨0x6210, 0x6210, 10, 0x07, 0, 14, ents77⟩, -- DRAM devices
  ⟨0x6300, 0x6300, 0, 0x08, 0, 14, ents78⟩, -- Real-time budget
  ⟨0x6400, 0x6400, 0, 0x13, 0, 17, ents79⟩, -- Boot
  ⟨0x6401, 0x6401, 0, 0x0F, 0, 17, ents80⟩, -- Boot timeline
  ⟨0x6402, 0x6402, 0, 0x0D, 0, 17, ents81⟩, -- Attestation
  ⟨0x6403, 0x6403, 0, 0x05, 0, 17, ents82⟩, -- Device certificate
  ⟨0x6410, 0x64FF, 0, 0x04, 0, 17, ents83⟩, -- Measurement log; record = index − 0x6410
  ⟨0x6500, 0x6500, 0, 0x15, 0, 17, ents84⟩, -- Power states
  ⟨0x6501, 0x6501, 0, 0x11, 0, 17, ents85⟩, -- Resets
  ⟨0x6502, 0x6502, 0, 0x0B, 0, 17, ents86⟩, -- Wake sources
  ⟨0x6503, 0x6503, 0, 0x0D, 0, 17, ents87⟩, -- Supplies
  ⟨0x6510, 0x65C7, 0, 0x02, 0, 17, ents88⟩, -- SRAM bank power; bank = index − 0x6510
  ⟨0x6600, 0x6600, 0, 0x15, 0, 17, ents89⟩, -- Ageing
  ⟨0x6601, 0x6601, 0, 0x13, 0, 17, ents90⟩, -- Margin plan
  ⟨0x6602, 0x6602, 0, 0x0D, 0, 17, ents91⟩, -- DRAM margins
  ⟨0x6603, 0x6603, 0, 0x0B, 0, 17, ents92⟩, -- Voltage request
  ⟨0x6610, 0x664F, 0, 0x03, 0, 17, ents93⟩, -- Voltage codes; code = index − 0x6610
  ⟨0x6680, 0x66FD, 0, 0x03, 0, 17, ents94⟩, -- DRAM lanes; lane = index − 0x6680
  ⟨0x6700, 0x67FF, 0, 0x03, 0, 17, ents95⟩, -- Ageing monitors; monitor = index − 0x6700
  ⟨0x6800, 0x69FF, 0, 0x01, 0, 18, ents96⟩, -- Counters; counter = index − 0x6800
  ⟨0x6A00, 0x6A00, 0, 0x1F, 0, 18, ents97⟩, -- Trace globals
  ⟨0x6A01, 0x6BFF, 0, 0x01, 0, 18, ents98⟩] -- Trace message types; type = index − 0x6A00

/-- Tables 16.3 to 16.19 in their order. -/
def blocks : List Block := blocks0 ++ blocks1 ++ blocks2 ++ blocks3

end Sys2Proof.Machine
end

