-- ==== Sys2Proof/Machine/Map.lean ====
section
/-! DEFINITION. Sparse tables in canonical form: lists of (number, value) pairs with strictly rising numbers. -/

namespace Sys2Proof.Machine
open Sys2Proof

variable {α : Type}

/-- The value listed under a number. -/
def mget? : List (Nat × α) → Nat → Option α
  | [], _ => none
  | (k', v) :: r, k => if k = k' then some v else mget? r k

/-- The value listed under a number, or a fallback. -/
def mget (d : α) (m : List (Nat × α)) (k : Nat) : α := (mget? m k).getD d

/-- The table with a number's value replaced or added in its place. -/
def mset (k : Nat) (v : α) : List (Nat × α) → List (Nat × α)
  | [] => [(k, v)]
  | (k', v') :: r =>
    if k = k' then (k, v) :: r else if k < k' then (k, v) :: (k', v') :: r else (k', v') :: mset k v r

/-- The table without a number. -/
def mdel (k : Nat) : List (Nat × α) → List (Nat × α)
  | [] => []
  | (k', v') :: r => if k = k' then mdel k r else (k', v') :: mdel k r

/-- Every number listed is above lo. -/
def mabove (lo : Nat) : List (Nat × α) → Bool
  | [] => true
  | (k, _) :: r => lo < k && mabove k r

/-- The canonical form: strictly rising numbers. -/
def mwf : List (Nat × α) → Bool
  | [] => true
  | (k, _) :: r => mabove k r

/-- Replace the value of a number, or remove it where it is the value an unlisted number has. -/
def mputD [DecidableEq α] (d : α) (k : Nat) (v : α) (m : List (Nat × α)) : List (Nat × α) :=
  if v = d then mdel k m else mset k v m

/-- Change the value of a number through a function of its old value. -/
def mmod [DecidableEq α] (d : α) (k : Nat) (f : α → α) (m : List (Nat × α)) : List (Nat × α) :=
  mputD d k (f (mget d m k)) m

end Sys2Proof.Machine
end

