-- ==== Sys2Proof/Machine/Defaults.lean ====
section
/-! DEFINITION. Entry keys, where an entry stands in the map, and the reset values that Machine/Entries.lean leaves to
this file: values that depend on the instance, strings, and byte strings. -/

namespace Sys2Proof.Machine
open Sys2Proof

/-- Key of an entry: index, instance, sub-index. -/
def K (idx inst sub : Nat) : Nat := idx * 2 ^ 24 + inst % 2 ^ 16 * 2 ^ 8 + sub % 2 ^ 8

def kIdx (k : Nat) : Nat := k / 2 ^ 24
def kInst (k : Nat) : Nat := k / 2 ^ 8 % 2 ^ 16
def kSub (k : Nat) : Nat := k % 2 ^ 8

/-- Block that lists an index (R450). -/
def blockOf (idx : Nat) : Option Block := blocks.find? (fun b => b.first ≤ idx && idx ≤ b.last)

/-- Entry named by index, instance and sub-index; none where R451 answers NO_ENTRY. -/
def entryOf (idx inst sub : Nat) : Option Entry :=
  match blockOf idx with
  | none => none
  | some b => if inst < max b.insts 1 then b.ents.find? (fun e => e.sub == sub) else none

/-- Entry of a key. -/
def entryAt (k : Nat) : Option Entry := entryOf (kIdx k) (kInst k) (kSub k)

/-- Width of a numeric type in bits (Table 0.2); a BOOL holds one bit. -/
def Ty.width : Ty → Nat
  | .bool => 1
  | .u8 => 8
  | .u16 => 16
  | .u32 => 32
  | .u64 => 64
  | .i16 => 16
  | .i32 => 32
  | .f32 => 32
  | .time80 => 80
  | .media64 => 64
  | .str => 0
  | .blob => 0

/-- Bytes of a numeric type (Table 0.2). -/
def Ty.size : Ty → Nat
  | .bool => 1
  | .u8 => 1
  | .u16 => 2
  | .u32 => 4
  | .u64 => 8
  | .i16 => 2
  | .i32 => 4
  | .f32 => 4
  | .time80 => 10
  | .media64 => 8
  | .str => 0
  | .blob => 0

/-- Whether a type is a byte string. -/
def Ty.isBytes : Ty → Bool
  | .str => true
  | .blob => true
  | .bool | .u8 | .u16 | .u32 | .u64 | .i16 | .i32 | .f32 | .time80 | .media64 => false

/-- A value cut to what the entry can hold: its width, and the defined bits of a W1C entry (R8). -/
def fit (e : Entry) (v : Nat) : Nat :=
  match e.acc, e.rng with
  | .w1c, .mask m => Nat.land v m
  | _, _ => v % 2 ^ e.ty.width

/-- Capabilities :01 to :1F (Table 17.8). -/
def capabilities : List Nat :=
  [1024, 512, 512, 131072, 65536, 4194304, 1048576, 524288, 32768, 1024, 256, 256, 8, 32, 64, 128, 4, 2, 256, 256, 1024,
   24, 16, 16, 256, 128, 8, 16, 8, 8192, 512]

/-- QoS of master i (Table 14.1). -/
def masterQos : List Nat := [8, 6, 15, 15, 15, 14, 14, 13, 13, 13, 4, 12, 6, 12]

/-- Class of master i, 1 real-time (Table 14.1). -/
def masterClass : List Nat := [0, 0, 1, 1, 1, 1, 1, 1, 1, 1, 0, 1, 0, 1]

/-- Drain bound of target j in cycles (Table 14.2). -/
def drainBound : List Nat := [8, 4, 120, 4, 4, 4, 4, 10000, 10000]

/-- MAC address of MAC m as a U64: the identity base address, its last byte plus m (Table 8.9). The base is a number of
bytes in transmission order, byte 0 lowest. -/
def macDefault (m : Nat) : Nat :=
  let base := beNat (leBytes 6 (Config.part (K 0x0000 0 0x08)))
  leNat (beBytes 6 (base + m))

/-- PTP clock identity from the identity base address (R243). -/
def clockIdentity (base : Bytes) : Bytes := base.take 3 ++ [0xFF, 0xFE] ++ base.drop 3

/-- Entries whose reset value is a property of the part (R478, R479, R482). -/
def isPart (idx sub : Nat) : Bool :=
  (idx == 0x0000 && [0x04, 0x06, 0x08, 0x09, 0x0B, 0x0D, 0x0F].contains sub) ||
  (0x6610 ≤ idx && idx ≤ 0x664F && idx != 0x662E && sub == 1) || (0x6700 ≤ idx && idx ≤ 0x67FF && sub == 1)

/-- A numeric value of the part, held to its type and to the range of its table (Tables 17.7 and 17.11). -/
def partOf (idx inst sub : Nat) : Nat :=
  let v := Config.part (K idx inst sub)
  if idx == 0x0000 && sub == 0x0B then v % 2
  else if idx == 0x0000 && sub == 0x0F then v % 129
  else if 0x6700 ≤ idx && idx ≤ 0x67FF then v % 4
  else match entryOf idx inst sub with
    | some e => v % 2 ^ e.ty.width
    | none => v

/-- Reset values that depend on the instance or index. -/
def specialDflt (idx inst sub : Nat) : Option Nat :=
  if sub == 0 then none
  else if idx == 0x1000 then
    if sub == 1 then some (if inst == 0 then 1 else 0)
    else if sub == 4 then some (if inst == 0 then 0x7F else 0)
    else if sub == 5 then some (if inst == 0 then 7 else 1)
    else none
  else if idx == 0x3410 && sub == 1 then some (4096 * inst)
  else if idx == 0x3A00 && inst == 0 then
    if sub == 3 then some 2 else if sub == 4 then some 1 else if sub == 5 then some 256 else none
  else if idx == 0x4800 then
    if sub == 1 then some (if 4 ≤ inst then 1 else 0)
    else if sub == 3 then some (macDefault inst)
    else if sub == 6 then some (if 4 ≤ inst then 50000 else 500)
    else none
  else if idx == 0x4C00 && sub == 0x0F then some (2 ^ 32)
  else if idx == 0x4F00 && sub == 5 then some (if 4 ≤ inst then 1 else 0)
  else if idx == 0x6010 then
    if sub == 2 then some (nth masterClass inst 0)
    else if sub == 3 then some (nth masterQos inst 0)
    else none
  else if idx == 0x6020 && sub == 5 then some (nth drainBound inst 0)
  else if idx == 0x6210 then
    if sub == 1 then some (inst / 5) else if sub == 2 then some (inst % 5) else none
  else if idx == 0x0001 then some (nth capabilities (sub - 1) 0)
  else if 0x0010 ≤ idx && idx ≤ 0x0072 then
    match blocks[idx - 0x0010]? with
    | none => none
    | some b =>
      if sub == 1 then some b.first else if sub == 2 then some b.last else if sub == 3 then some b.insts
      else if sub == 4 then some b.high else if sub == 5 then some b.cls else some b.chap
  else if idx == 0x5001 && sub == 0x16 then some (leNat (clockIdentity (leBytes 6 (Config.part (K 0x0000 0 0x08)))))
  else if idx == 0x662E && sub == 1 then some 0x3F800000
  else if isPart idx sub then some (partOf idx inst sub)
  else none

/-- Reset value of a numeric entry (R11; assumption 3 where the manual gives none). -/
def dfltOf (k : Nat) : Nat :=
  match specialDflt (kIdx k) (kInst k) (kSub k) with
  | some v => v
  | none =>
    match entryAt k with
    | some e => e.dflt
    | none => 0

/-- The bytes of an ASCII text. -/
def ascii (s : String) : Bytes := s.toList.map (fun c => byte c.toNat)

/-- Owner table lengths by sub-index of 0x1100 (Table 15.9). -/
def ownerCounts : List Nat := [0, 1024, 512, 256, 1024, 24, 32, 16, 6, 256, 256, 1024, 256]

/-- Names of the masters (Table 14.1), targets (Table 14.2) and SRAM regions (Table 14.4). -/
def masterNames : List String :=
  ["Control processor", "Control DMA: store, BLOB transfers", "Geometry engine", "Render engine",
   "Correction engine, head and state", "Correction engine, tail", "Bulk delay", "Retrospective recorder",
   "Network receive", "Network transmit", "Tending pool", "Measurement capture",
   "Cryptographic engine: SHA-384, ECDSA P-384, HMAC-SHA-256", "Keyframe mover"]

def targetNames : List String :=
  ["Boot ROM", "System SRAM", "MRAM", "Geometry memories: keyframe cache, then render working memory",
   "Correction head and state", "Cell pool", "Tending pool local memories", "DRAM, subchannel 0", "DRAM, subchannel 1"]

def regionNames : List String :=
  ["Furrows", "Cell pool", "Render working memory", "Correction head and state", "Keyframe cache",
   "Tending pool local memory", "System SRAM"]

/-- Data of set 0, the identity set in ROM (R115, Table 5.2). -/
def identitySet : Bytes :=
  leBytes 2 1 ++ zeros 2 ++ leBytes 4 1 ++ zeros 376 ++ leBytes 4 0x3F800000

/-- Byte strings of the part, held to the lengths and forms of Tables 17.7 and 17.9: the ordering code is that of the temperature
grade (R520). -/
def partStr (idx sub : Nat) : Bytes :=
  let b := Config.partBytes (K idx 0 sub)
  if idx == 0x0000 then
    if sub == 0x03 then ascii (if partOf 0x0000 0 0x0B == 0 then "UKM1024-FC" else "UKM1024-FI")
    else if sub == 0x05 then fitBytes 16 b
    else if utf8 (b.take 32) then b.take 32 else []
  else if sub == 0x02 then 0x04 :: fitBytes 96 b
  else b.take 2048

/-- Reset value of a STR or BLOB entry (assumption 3 where the manual gives none). -/
def dfltBlob (k : Nat) : Bytes :=
  let idx := kIdx k
  let inst := kInst k
  let sub := kSub k
  if idx == 0x0000 then
    if sub == 1 then ascii "Gumadal" else if sub == 2 then ascii "UKM-1024" else partStr idx sub
  else if idx == 0x1100 then zeros (nth ownerCounts sub 0)
  else if idx == 0x1200 then
    leBytes 2 0x2401 ++ [0x0B, 0x00] ++ leBytes 2 inst ++ leBytes 2 0x00FF
  else if idx == 0x3A00 then (if inst == 0 then identitySet else [])
  else if idx == 0x4810 then zeros (if sub == 1 then 128 else 16)
  else if idx == 0x5400 then
    if sub == 9 then List.replicate 128 0xFF else if sub == 0x08 then [] else zeros 64
  else if idx == 0x5C10 && sub == 7 then [0x01, 0x00, 0x00, 0x00, 0x00, 0x00, 0x80, 0x3F]
  else if idx == 0x5D10 then
    if sub == 0x0A then List.replicate 64 0xFF else if sub == 0x0B then zeros 16384 else []
  else if idx == 0x5F20 || idx == 0x5F10 then zeros 16
  else if idx == 0x5E30 && sub == 7 then zeros 48
  else if idx == 0x6010 then ascii (masterNames.getD inst "")
  else if idx == 0x6020 then ascii (targetNames.getD inst "")
  else if idx == 0x6100 then ascii (regionNames.getD inst "")
  else if idx == 0x6402 then
    if sub == 3 then zeros 160 else if sub == 4 then zeros 96 else if sub == 8 then zeros 48 else []
  else if idx == 0x6403 then partStr idx sub
  else if 0x6410 ≤ idx && idx ≤ 0x64FF then zeros 48
  else if idx == 0x6501 then List.replicate 16 0xFF
  else if idx == 0x6A00 && sub == 0x1A then zeros 4096
  else []

end Sys2Proof.Machine
end

