-- ==== Sys2Proof/Machine/Types.lean ====
section
/-! DEFINITION. The internal state of the engines that the manual names beside the dictionary entries, one record per
chapter. Every record is plain data; sparse parts are canonical tables (Machine/Map.lean). -/

namespace Sys2Proof.Machine
open Sys2Proof

/-- A point, direction or velocity in binary32 (R14). -/
structure Vec3 where
  x : F32
  y : F32
  z : F32
  deriving DecidableEq, Repr

/-- The animated values of an object (Table 2.1). -/
structure Vals where
  pos : Vec3
  vel : Vec3
  gain : F32
  spread : F32
  size : F32
  deriving DecidableEq, Repr

/-- The implicit anchor's values (R35): position (0.0, 1.0, 0.0) m, everything else zero. -/
def implicitVals : Vals :=
  { pos := ⟨0, 0x3F800000, 0⟩, vel := ⟨0, 0, 0⟩, gain := 0, spread := 0, size := 0 }

/-- A pending keyframe (R43) with its effective time (R45, R46); `acc` numbers the keyframes in order of acceptance. -/
structure Keyframe where
  time : Nat
  acc : Nat
  kind : Nat
  flags : Nat
  tag : Nat
  vals : Vals
  deriving DecidableEq, Repr

/-- One object's keyframe queue and anchor (R47). `anchorT` is none while the anchor is the implicit one (R35).
`evalT` and `evalV` are the anchor time and values evaluated for the last boundary; `pubT` is the anchor time that
0x2000[n]:0D reports, none while it is that of the implicit anchor. -/
structure Track where
  queue : List Keyframe
  anchorT : Option Nat
  anchor : Vals
  evalT : Option Nat
  evalV : Vals
  pubT : Option Nat
  deriving DecidableEq, Repr

/-- A track after the scene is cleared. -/
def emptyTrack : Track := ⟨[], none, implicitVals, none, implicitVals, none⟩

/-- The scene-to-venue transform (R55). -/
structure Xform where
  ox : F32
  oy : F32
  oz : F32
  yaw : F32
  deriving DecidableEq, Repr

/-- Scene state of chapter 2 beside its entries. -/
structure Scene where
  /-- Tracks that differ from a cleared one, by object. -/
  tracks : List (Nat × Track)
  /-- First boundary evaluated since the scene was cleared: the effective time of every implicit anchor (R35), and the
  value of it that the entries report. -/
  clearT : Option Nat
  pubClear : Nat
  /-- Transform in force at the last boundary evaluated. -/
  xf : Xform
  /-- Glide: transform it started from, steps taken j, length N in blocks; no glide when j = N (R56). -/
  glideP : Xform
  glideJ : Nat
  glideN : Nat
  /-- Media time of the write that the glide serves. -/
  glideAt : Nat
  /-- Speed of sound at the last boundary evaluated; none before the first (R57). -/
  cUse : Option F32
  /-- Number of the next keyframe accepted. -/
  accNext : Nat
  deriving DecidableEq, Repr

/-- Scene at reset. -/
def Scene.init : Scene := ⟨[], none, 0, ⟨0, 0, 0, 0⟩, ⟨0, 0, 0, 0⟩, 1, 1, 0, none, 0⟩

/-- A formed Sprig's target (R79, R80): coded gain UQ4.20, coded delay in 1/256 sample, kernel 0 or 1. -/
structure Sprig where
  obj : Nat
  spk : Nat
  gain : Nat
  delay : Nat
  kern : Nat
  deriving DecidableEq, Repr

/-- A Sprig held out after Pruning up to and including a boundary (R86). -/
structure Hold where
  obj : Nat
  spk : Nat
  until_ : Nat
  deriving DecidableEq, Repr

/-- Reports prepared in a window and readable at its close (R90): values written, counts raised, flags set by entry key,
and how many Sprigs were pruned and deferred. -/
structure Report where
  puts : List (Nat × Nat)
  bumps : List (Nat × Nat)
  flags : List (Nat × Nat)
  pruned : Nat
  deferred : Nat
  deriving DecidableEq, Repr

/-- What the host can change of the inputs of the geometry engine, as it stands when a window opens (R67): the media time, the
entries, the keyframe queues, and the glide. -/
structure Latch where
  at_ : Nat
  dict : List (Nat × Nat)
  queues : List (Nat × List Keyframe)
  glideP : Xform
  glideJ : Nat
  glideN : Nat
  deriving DecidableEq, Repr

/-- Geometry state of chapter 3 beside its entries. -/
structure Geo where
  /-- Target sets by boundary, the latest boundaries evaluated (R80). -/
  targets : List (Nat × List Sprig)
  /-- The last boundary evaluated since the engines last started. -/
  last : Option Nat
  holds : List Hold
  /-- Objects in the snapped state (R76), rising. -/
  snapped : List Nat
  /-- Kernel in force per object where it is 1 (R81), rising. -/
  sinc : List Nat
  /-- The report of the window that is open (R90). -/
  report : Option Report
  /-- Inputs at the opening of the latest window. -/
  latch : Option Latch
  deriving DecidableEq, Repr

/-- Geometry at reset. -/
def Geo.init : Geo := ⟨[], none, [], [], [], none, none⟩

/-- An object whose Furrow moves to a new region at `land`; its old region is read for the block that ends at `land`
and written up to the sample of that media time (Table 4.6). -/
structure FurrowMove where
  land : Nat
  base : Nat
  depth : Nat
  s0 : Nat
  /-- The old region itself began with a fade-in that may still run (R108). -/
  fade : Bool
  deriving DecidableEq, Repr

/-- An accepted depth change that has not landed (R107). -/
structure DepthPend where
  obj : Nat
  depth : Nat
  base : Nat
  land : Nat
  deriving DecidableEq, Repr

/-- Render state of chapter 4 beside its entries. -/
structure Render where
  /-- Furrow SRAM: cell number and signed sample; an unlisted cell holds 0 and no cell listed is 0. -/
  cells : List (Nat × Int)
  /-- Media time of the newest sample written (R94). -/
  newest : Option Nat
  /-- Start times s0_n (R94) of the objects listed, and the one of all others: the first sample written since the
  Furrows were last cleared. -/
  s0s : List (Nat × Nat)
  start : Nat
  /-- Objects in the middle of a move, by object. -/
  moves : List (Nat × FurrowMove)
  /-- Accepted depth changes, oldest first. -/
  pend : List DepthPend
  /-- What 0x3410[n]:07 reads once the changes now pending are gone, by object. -/
  lands : List (Nat × Nat)
  /-- Landing boundary of a pending repack (R109). -/
  repack : Option Nat
  /-- Boundary at which the last rendered block ends. -/
  blockEnd : Option Nat
  /-- Q21.27 results of the last two rendered blocks, newest block first: per output the 16 samples in time order; an
  output with only zeros is not listed (R101, R102). -/
  acc : List (List (Nat × List Int))
  deriving DecidableEq, Repr

/-- Render engine at reset. -/
def Render.init : Render := ⟨[], none, [], 0, [], [], [], none, none, []⟩

/-- State of one running filter set: stages 1 to 4 of a chain (R121 to R124). Histories are newest first and end with
their oldest value that is not +0. -/
structure SetChain where
  set : Nat
  /-- Data of the set, once it is released while the chain still runs it (R127); empty before. -/
  kept : Bytes
  /-- First sample of the chain (R121). -/
  start : Nat
  /-- s1, s2 of sections 0 to 15; missing ones are zero. -/
  bq : List (F32 × F32)
  /-- Outputs of stage 2, newest first. -/
  x2 : List F32
  /-- Partial sums over partitions 2 to P for the last two hops of a bulk phase by their H, exact over 2^298, newest first. -/
  bulk : List (Nat × List Int)
  /-- Tails by hop end H, newest first, at most two (R123). -/
  tails : List (Nat × List F32)
  /-- Tail ready but not yet in use (urgent phase), with its H. -/
  ready : Option (Nat × List F32)
  deriving DecidableEq, Repr

/-- A chain of a set from a start sample, all state zero. -/
def SetChain.fresh (set start : Nat) : SetChain := ⟨set, [], start, [], [], [], [], none⟩

/-- A Graft accepted (R127): sets, start S, warm-up W, fade length F, law. -/
structure Graft where
  from_ : Nat
  into : Nat
  start : Nat
  warm : Nat
  len : Nat
  law : Nat
  deriving DecidableEq, Repr

/-- A bulk-delay change accepted (R131): the new delay, its landing boundary and its acceptance time. -/
structure BulkPend where
  delay : Nat
  land : Nat
  acc : Nat
  /-- Already counted as waiting (R132). -/
  waited : Bool
  deriving DecidableEq, Repr

/-- A master-gain ramp (R134). -/
structure GainRamp where
  start : Nat
  old : F32
  new : F32
  len : Nat
  deriving DecidableEq, Repr

/-- Correction state of one output (R113). Times are those of the render-output sample in the chain, which the chain
reaches 34 samples later (Table 6.14); the stages before the FIR run when a block is rendered. -/
structure OutChain where
  a : SetChain
  /-- Grafts started and not yet passed by the chain, oldest first, each with the chain of its incoming set. -/
  gs : List (Graft × SetChain)
  /-- Graft running at the media time (R129). -/
  run : Option Graft
  /-- Graft that waits for its start (R129): set, law, length exponent, start. -/
  pend : Option (Nat × Nat × Nat × Nat)
  /-- Stage 4 results, newest first, oldest trailing +0 left out (R131). -/
  x3 : List F32
  /-- Bulk delays by landing, oldest first; the first is in force in the chain. -/
  bulks : List (Nat × Nat)
  /-- Landing of the cross-fade last started, and the change that waits. -/
  bulkX : Option Nat
  bulkP : Option BulkPend
  /-- Bursts of the history lost to uncorrectable reads (R133): landing of the delay that reads it, and the burst. -/
  lost : List (Nat × Nat)
  /-- Gain ramps by start, oldest first; the first is in force in the chain (R134). -/
  ramps : List GainRamp
  /-- Limiter threshold T and release factor alpha by landing time, oldest first; the first is in force (R136). -/
  lim : List (Nat × F32 × F32)
  /-- Dither by landing sample (R137). -/
  dith : List (Nat × Bool)
  /-- Stage 6 results, newest first, at most five. -/
  x5 : List F32
  /-- Limiter gain g. -/
  g : F32
  /-- Largest |x5| and lowest g of the block under way. -/
  peak : F32
  gmin : F32
  /-- Corrected output of the newest sample, Q1.23. -/
  out : Int
  deriving DecidableEq, Repr

/-- T for the default threshold −0.1 dB, 10^(−0.1/20) in binary32. -/
def defaultT : F32 := 0x3F7D11D1

/-- Correction state of an output at reset: set 0 in force, everything else zero; the limiter's T and alpha are those
of the reset values −0.1 dB and 100 ms at 48 kHz (R135). -/
def OutChain.init : OutChain :=
  { a := SetChain.fresh 0 0, gs := [], run := none, pend := none, x3 := [], bulks := [(0, 0)], bulkX := none,
    bulkP := none, lost := [], ramps := [⟨0, 0x3F800000, 0x3F800000, 0⟩], lim := [(0, defaultT, 0x395A6E3A)], dith := [(0, false)],
    x5 := [], g := 0x3F800000, peak := 0, gmin := 0x3F800000, out := 0 }

/-- Correction state of chapter 5. -/
structure Corr where
  /-- Outputs that differ from a reset one. -/
  outs : List (Nat × OutChain)
  /-- Dither generators of outputs 0 to 511 (R137). -/
  dither : List Nat
  /-- Hop whose event was last raised (R124). -/
  hop : Option Nat
  deriving DecidableEq, Repr

/-- Correction at reset; generator k is seeded (k + 1) · 0x00010001 (R137). -/
def Corr.init : Corr := ⟨[], (List.range 512).map (fun k => (k + 1) * 0x00010001 % 2 ^ 32), none⟩

/-- Input map of one object (R146 to R148): values in force, writes that have not landed (acceptance time, sub-index,
value), live source and signal, cross-fade under way. -/
structure InMap where
  prim : Nat
  sec : Nat
  mode : Nat
  hold : Nat
  pend : List (Nat × Nat × Nat)
  live : Nat
  code : Nat
  xfade : Option Nat
  oldCode : Nat
  failedOver : Bool
  /-- Boundary from which the primary has been good without a break. -/
  goodSince : Option Nat
  deriving DecidableEq, Repr

/-- Input map of an object at reset. -/
def InMap.init : InMap := ⟨0, 0, 0, 48000, [], 2, 0, none, 0, false, none⟩

/-- One live Trellis node (R154): target gain, ramp attribute, and the ramp last started: first sample and the gain it
left. -/
structure Node where
  gain : Nat
  attr : Bool
  start : Nat
  old : Nat
  deriving DecidableEq, Repr

/-- Output map of one destination (R159): signal in force, cross-fade under way, write that waits (signal, landing,
acceptance time). -/
structure OutDest where
  code : Nat
  xfade : Option Nat
  oldCode : Nat
  pend : Option (Nat × Nat)
  deriving DecidableEq, Repr

/-- A destination at reset. -/
def OutDest.init : OutDest := ⟨0, none, 0, none⟩

/-- Maps and Trellis of chapter 6 beside their entries. -/
structure Maps where
  ins : List (Nat × InMap)
  /-- Live nodes by 256 · j + i; an unlisted node has gain 0, attribute clear and no ramp. -/
  nodes : List (Nat × Node)
  /-- Records of live writes accepted since the last sample (R154), oldest first: node, keep, attribute, gain. -/
  waiting : List (Nat × Bool × Bool × Nat)
  /-- Banks 0 to 7: by 256 · j + i the word of 0x3C00:0F. -/
  banks : List (Nat × List (Nat × Nat))
  /-- Sink samples of the last periods, newest first: those computed now, one and two periods ago (R151). -/
  sinks : List (List (Nat × Int))
  /-- Largest magnitude of each sink in the block under way. -/
  sinkPeak : List (Nat × Nat)
  dests : List (Nat × OutDest)
  /-- Samples the output map presented in this period, by destination; zeros are not listed. -/
  present : List (Nat × Int)
  /-- Samples the output map presented in the period before. -/
  before : List (Nat × Int)
  /-- Ramp of every destination: first period, and whether it leads up (R163, R237); none when settled. -/
  ramp : Option (Nat × Bool)
  /-- Row select and row origin per host (R157). -/
  rowSel : List (Nat × Nat)
  rowOrg : List (Nat × Nat)
  /-- Histories of bridged channels toward Domain A, and from it, by 256 · port or stream code (R162). -/
  bridge : List (Nat × List Int)
  deriving DecidableEq, Repr

/-- Maps at reset. -/
def Maps.init : Maps := ⟨[], [], [], [], [], [], [], [], [], none, [], [], []⟩

/-- Running state of the engines (R163, R237, R393, R473): whether they run, and the stop under way. -/
structure Engines where
  running : Bool
  /-- Boundary B from which destinations ramp down ahead of a stop; the engines stop at B + 64. -/
  rampB : Option Nat
  /-- Why they stop: 1 change of rate, 2 step, 3 scheduled retraining, 4 entry to IDLE, 5 thermal shutdown; 6 they wait to restart from IDLE;
  0 none. -/
  cause : Nat
  /-- New rate of a change of rate. -/
  newRate : Nat
  /-- New system time offset of a step that waits for the engines to stand, in 2^-47 ns, and whether one was taken since
  they stopped. -/
  stepTo : Option Int
  stepped : Bool
  deriving DecidableEq, Repr

/-- Engines at reset: not running until the boot reaches them (R465). -/
def Engines.init : Engines := ⟨false, none, 0, 48000, none, false⟩

/-- A frame that has begun on a serial port (R172, R173): its media time if placed, its receive mask, whether it is
discarded when it completes, and the instant of its edge from media time 0 in ps / 96000. -/
structure Begun where
  time : Option Nat
  rmask : Nat
  drop : Bool
  edge : Int
  deriving DecidableEq, Repr

/-- A frame in an input FIFO: media time, receive mask, slot samples, system time of its edge in ns. -/
structure InFrame where
  time : Nat
  rmask : Nat
  words : List Int
  at_ : Nat
  deriving DecidableEq, Repr

/-- Serial port state of chapter 7 beside its entries. Media times are those of the port's own rate (R174). -/
structure Port where
  /-- Boundary at which an enabled port starts (R183). -/
  startAt : Option Nat
  /-- Frames begun and not complete, oldest first. -/
  begun : List Begun
  /-- Media time that the next frame takes, and that of the first frame placed; none while unplaced. -/
  nextS : Option Nat
  popFrom : Option Nat
  /-- Media times that a repeat slip skipped and the fabric has not passed (R173). -/
  skips : List Nat
  /-- Instant of the latest active edge from media time 0, and edge phase of the latest frame, in ps / 96000 (R173). -/
  edge : Int
  phi : Int
  /-- FIFOs, oldest first, and their depths at the start of the cycle of the last fabric pop and push (R176). -/
  inFifo : List InFrame
  outFifo : List (Nat × List Int)
  inDepth : Nat
  outDepth : Nat
  /-- Transmit buffer with its media time, and the frame on the wire (R172). -/
  txBuf : Nat × List Int
  sent : List Int
  /-- Slip of the group that waits for this port's next edge: 1 repeat, 2 drop, 0 none (R179). -/
  slip : Nat
  /-- Masks latched last, and the writes that wait in the shadow, oldest first: whether of the transmit mask, and its value
  (R180); of these, how many were latched while the port was not in GOOD. -/
  rmask : Nat
  tmask : Nat
  waits : List (Bool × Nat)
  latched : Nat
  /-- Slots that send zero in this frame because they are newly enabled (R181). -/
  fresh : Nat
  /-- Mask of the frame delivered last, that frame, and what the slots present (R177, R182). -/
  gmask : Nat
  raw : List Int
  cur : List Int
  /-- Input ramp: up or down, step i, held values (R184, R185). -/
  inRamp : Option (Bool × Nat × List Int)
  /-- Slots ramping down after a mask change: slot, step, held value (R182). -/
  slotRamp : List (Nat × Nat × Int)
  /-- Output ramp: up or down, media time of its first frame once there was one, held values (R183, R185). -/
  outRamp : Option (Bool × Option Nat × List Int)
  /-- The port ramps down on its way to release (R183). -/
  closing : Bool
  /-- Block media time and system time in ns of the first frames of the latest two blocks, newest first (R187). -/
  stamps : List (Nat × Nat)
  /-- Frames of the block under way, flags by the end of their block, and the mask of its first frame (R188). -/
  blk : List (List Int)
  blkFlags : List (Nat × Nat)
  blkMask : Nat
  /-- Reference edge of the rate measurement in ps / 96000, and frames since. -/
  refEdge : Option Int
  edges : Nat
  deriving DecidableEq, Repr

/-- A port at reset: disabled. -/
def Port.init : Port :=
  { startAt := none, begun := [], nextS := none, popFrom := none, skips := [], edge := 0, phi := 0, inFifo := [], outFifo := [],
    inDepth := 0, outDepth := 0, txBuf := (0, []), sent := [], slip := 0, rmask := 3, tmask := 3, waits := [], latched := 0,
    fresh := 0, gmask := 0, raw := [], cur := [], inRamp := none, slotRamp := [], outRamp := none,
    closing := false, stamps := [], blk := [], blkFlags := [], blkMask := 0, refEdge := none, edges := 0 }

/-- Serial audio state of chapter 7. -/
structure Serial where
  ports : List (Nat × Port)
  /-- ASRC channels ramping: channel, up or down, media time of the first sample once there was one, held value (R190). -/
  asrcRamp : List (Nat × Bool × Option Nat × Int)
  /-- Samples that entered each ASRC channel, newest first, with their instants from media time 0 in ps / 96000 (R190). -/
  asrcHist : List (Nat × List (Int × Int))
  /-- Sample that each ASRC channel gave last. -/
  asrcLast : List (Nat × Int)
  /-- WCLK_OUT mode and offset in force (R192). -/
  wcMode : Nat
  wcOffset : Nat
  /-- Media time and phase in ps at which WCLK_IN was last judged (R193). -/
  wcRef : Option (Nat × Int)
  deriving DecidableEq, Repr

/-- Serial audio at reset. -/
def Serial.init : Serial := ⟨[], [], [], [], 0, 0, none⟩

/-- A write transfer in progress (R413): the entry, its total length, the bytes so far, the counter at its last
segment. -/
structure Xfer where
  key : Nat
  total : Nat
  data : Bytes
  last : Nat
  deriving DecidableEq, Repr

/-- A read snapshot (R414): the entry, its bytes, the counter at the last read. -/
structure Snap where
  key : Nat
  data : Bytes
  last : Nat
  deriving DecidableEq, Repr

/-- An open session (R415 to R419). `seen` are the sequences of the window already accepted, `cache` the last eight
answered: sequence, tag of the request, response message. -/
structure Session where
  id : Nat
  ks : Bytes
  src : Source
  high : Nat
  seen : List Nat
  cache : List (Nat × Bytes × Bytes)
  /-- Counter at the last accepted REQUEST (R418). -/
  last : Nat
  /-- NOTIFY messages sent in the session (R429). -/
  notes : Nat
  deriving DecidableEq, Repr

/-- A waiting notification record (Table 15.10). -/
structure Rec where
  kind : Nat
  slot : Nat
  idx : Nat
  sub : Nat
  inst : Nat
  value : Nat
  at_ : Nat
  deriving DecidableEq, Repr

/-- One host (R415 to R430): session, least open counter that an OPEN may use, transfer and snapshot, waiting records, how many were
lost since the last NOTIFY, counter of the last NOTIFY, and its stage: bytes by entry key. -/
structure HostSt where
  sess : Option Session
  opens : Nat
  xfer : Option Xfer
  snap : Option Snap
  recs : List Rec
  lost : Nat
  /-- Media time of the first record lost. -/
  lostAt : Nat
  noted : Nat
  stage : List (Nat × Bytes)
  /-- Counters of the AUTH answers of the last second (R417). -/
  auths : List Nat
  deriving DecidableEq, Repr

/-- A host without a session. -/
def HostSt.init : HostSt := ⟨none, 0, none, none, [], 0, 0, 0, [], []⟩

/-- A pending commit (R431, R432): host, t_c, whether plan values wait for B, and B. -/
structure Commit where
  host : Nat
  tc : Nat
  plan : Bool
  landB : Nat
  /-- The values without a plan rule have landed. -/
  landed : Bool
  /-- The bank that the stage names has been loaded (R155). -/
  loaded : Bool
  deriving DecidableEq, Repr

/-- A response that waits for a save (R412, R441): the host, its session as it was, the request's sequence and tag, the results of its
operations as far as known (opcode and entry bytes, status, data), which of them wait: position, and 1 for the save that
runs or 2 for the one that is pending; and, where the last of them waits for a write to the MRAM, the operations after it. -/
structure Held where
  host : Nat
  sess : Session
  seq : Nat
  tag : Bytes
  results : List (Bytes × Nat × Bytes)
  waits : List (Nat × Nat)
  rest : Option (List (Bytes × OpFields))
  deriving DecidableEq, Repr

/-- Control state of chapter 15 beside its entries. -/
structure Control where
  hosts : List (Nat × HostSt)
  commit : Option Commit
  /-- Host SPI input buffer and outgoing queue (R407), oldest first, and ERROR. -/
  spiIn : List Bytes
  spiOut : List Bytes
  spiErr : Bool
  /-- A response that waits for a save, and the messages that wait behind it (R412). -/
  held : Option Held
  inbox : List (Source × Bytes)
  /-- The control processor is in reset and Yexel accepts nothing (R461). -/
  down : Bool
  /-- The model's own, within one command: the entries as they stood when watches last fired (R426). -/
  fired : Option (List (Nat × Nat))
  deriving DecidableEq, Repr

/-- Control at reset. -/
def Control.init : Control := ⟨[], none, [], [], false, none, [], false, none⟩

/-- A store image (R434, R435): the persistent values that differ from their reset values (the others are in the image
with their reset values), the live Trellis nodes, and the image's size in bytes. `empty` marks an image that holds no
records (R442). -/
structure Image where
  vals : List (Nat × Nat)
  blobs : List (Nat × Bytes)
  /-- Live Trellis nodes: 256 · j + i, gain, ramp attribute (R156). -/
  nodes : List (Nat × Nat × Bool)
  empty : Bool
  bytes : Nat
  deriving DecidableEq, Repr

/-- An image without records. -/
def Image.none_ : Image := ⟨[], [], [], true, 64⟩

/-- One Leaf as the MRAM holds it (R435, R438): whether its magic, format and CRC stand, its sequence, the media time of
its save, the firmware version of its writer, its image. -/
structure Leaf where
  valid : Bool
  seq : Nat
  savedAt : Nat
  version : Nat
  image : Image
  deriving DecidableEq, Repr

/-- A save under way (R436): target Leaf, image, media time at its start, whether it was rewritten once, the save that
is pending (true: of an image without records), host keys that this save carries (R420), and whether a response waits on
this save and on the pending one. -/
structure SaveRun where
  leaf : Nat
  image : Image
  at_ : Nat
  again : Bool
  next : Option Bool
  keys : List (Nat × Bytes)
  waits : Bool
  waitsNext : Bool
  deriving DecidableEq, Repr

/-- Store state of chapter 15. The Leaves are non-volatile. -/
structure Store where
  leaf0 : Leaf
  leaf1 : Leaf
  run : Option SaveRun
  /-- Key writes that wait for the next save (R420). -/
  keys : List (Nat × Bytes)
  /-- Counter at the last change of a persistent value not yet autosaved (R440). -/
  changed : Option Nat
  deriving DecidableEq, Repr

/-- The Leaves as delivered: nothing written. -/
def Store.init : Store := ⟨⟨false, 0, 0, 0, Image.none_⟩, ⟨false, 0, 0, 0, Image.none_⟩, none, [], none⟩

/-- A message in the trace FIFO: its type, and those of its bytes that have not been sent. -/
structure TraceMsg where
  type : Nat
  bytes : Bytes
  deriving DecidableEq, Repr

/-- An event with a trace message (Table 18.3): counter and media time of its cycle, type, whether the trace and the type were on
(R492), and the payload. -/
structure TraceEv where
  at_ : Nat
  media : Nat
  type : Nat
  on : Bool
  payload : Bytes
  deriving DecidableEq, Repr

/-- Trace port (R489 to R494): FIFO, counter up to which the port has sent its bytes, a message was dropped since the last one sent,
a synchronisation message is due first, counters at the last synchronisation message and snapshot, and the bytes of the second under
way. -/
structure Trace where
  /-- Messages in the FIFO, in the order of sending. -/
  fifo : List TraceMsg
  /-- Events whose cycle may still bring others, in the order of the commands that brought them (R492). -/
  wait : List TraceEv
  outAt : Nat
  lost : Bool
  resync : Bool
  syncAt : Nat
  snapAt : Nat
  secAt : Nat
  secBytes : Nat
  /-- The enable was written false and the FIFO still drains (R492). -/
  closing : Bool
  deriving DecidableEq, Repr

/-- Trace port at reset. -/
def Trace.init : Trace := ⟨[], [], 0, false, false, 0, 0, 0, 0, false⟩

/-- A serial frame on the pins of a port, from its active edge on (R167, R168). -/
structure SapFrame where
  /-- BCLK periods from the active edge to the first bit of slot 0 (Table 7.1). -/
  delay : Nat
  /-- SAPn_DOUT by BCLK period, slot 0 first, most significant bit first; none: high-Z. -/
  dout : List (Option Bool)
  /-- SAPn_FSYNC by BCLK period, and the rate of SAPn_BCLK in Hz, of a master; a slave drives neither: none and 0. -/
  fsync : List Bool
  bclk : Nat
  /-- Whether the launching edge of BCLK is the rising one. -/
  inverted : Bool
  deriving DecidableEq, Repr

/-- What the block sends outside while it carries out one command: an Ethernet frame on a MAC, a Yexel datagram on a
MAC from a port to an address and port, bytes on HSPI_MISO, a frame on a serial port, the release of its four pins, bytes on the
trace port or so many idle bytes of 0x00, a level of a named output pin, its release, or transmitters idle at common mode, a pulse on one with its start after the instant of the period and
its width, in ps / 96000, a clock on one at a rate in Hz, with a rising edge at each instant of media time, or its end (0), what
a read of a bus master gets, no value for a poisoned byte, the half-widths in half ns of half-bridges A and B of a modulator channel by carrier half-period, the
release or the low level of modulator pins, and bursts of MSENSE_CLK by their numbers. -/
inductive Out
  | frame (mac : Nat) (bytes : Bytes)
  | yexel (mac from_ addr port : Nat) (bytes : Bytes)
  | miso (bytes : Bytes)
  | sap (port : Nat) (f : SapFrame)
  | sapHiz (port : Nat)
  | trace (bytes : Bytes)
  | traceIdle (n : Nat)
  | pin (name : String) (value : Nat)
  | hiz (name : String)
  | idle (name : String)
  | pulse (name : String) (start width : Nat)
  | clock (name : String) (hz : Nat)
  | bus (master addr : Nat) (bytes : List (Option Byte))
  | pwm (chan : Nat) (halves : List (Nat × Int × Int))
  | modLow (chans : List Nat)
  | modHiz
  | bursts (epoch carrier first count : Nat)
  deriving DecidableEq, Repr

/-- Outcome of the last Yexel operation carried out: its status (Table 0.4), none while it waits, and its result
data. -/
structure Result where
  status : Option Nat
  data : Bytes
  deriving DecidableEq, Repr

end Sys2Proof.Machine
end

