-- ==== Sys2Proof/Machine/TypesHedge.lean ====
section
/-! DEFINITION. Internal state of the modulator channels and the Hedge (chapter 10). -/

namespace Sys2Proof.Machine
open Sys2Proof

/-- A ramp of g_h (R278, R283, R284): up or down, its start in half ns of the time counter, the level it starts from in
dB as binary32, and why it goes down: 1 disable, 2 Hedge disable, 3 retune. -/
structure HedgeRamp where
  up : Bool
  t0 : Nat
  from_ : Nat
  why : Nat
  deriving DecidableEq, Repr

/-- One modulator channel (R273 to R292). -/
structure HedgeCh where
  /-- Settings :03 to :10 in force since the last render block (R294). -/
  cfg : List Nat
  /-- Pins low although the state is STARTING or RUN: the Hedge was disabled, or the carrier changes (R278, R282). -/
  quiet : Bool
  ramp : Option HedgeRamp
  /-- Modulation limit of this start (0x5A00:0D), carrier period of the start, next half-period. -/
  mmax : Nat
  startJ : Nat
  half : Nat
  /-- Error terms e1, e2, e3 of the shapers of half-bridges A and B (R275). -/
  errA : List Nat
  errB : List Nat
  /-- Samples presented in the last three periods, newest first (R273). -/
  xs : List Int
  /-- Frames: valid and invalid ones in succession, over-current count, latest valid frame, and those of the last two bursts
  heard with the number of the burst, none for an invalid one. -/
  valid : Nat
  invalid : Nat
  overs : Nat
  last : Option Nat
  recent : List (Nat × Option Nat)
  /-- Counters at the trips of the last 10 s, newest first; the first is the latest decision. -/
  trips : List Nat
  /-- Sums of V, V², I² and the count of the valid frames of the render block under way, and its largest |I|. -/
  sumV : Int
  sumV2 : Nat
  sumI2 : Nat
  frames : Nat
  peak : Nat
  /-- Sum of I² over those of them that came while the pins were in use (R291). -/
  runI2 : Nat
  /-- DC filter, and blocks above the threshold in succession (R290). -/
  vdc : Nat
  dcRun : Nat
  /-- Thermal nodes and fold-back gain in dB, binary32 (R291). -/
  coil : Nat
  magnet : Nat
  fold : Nat
  /-- Impedance window: ΣV² and ΣI² in the squares of 2^-149 full scales, blocks counted, and media time of its beginning; (V², I², frames) of the blocks of the
  last 0.1 s, newest first (R292). -/
  zV2 : Nat
  zI2 : Nat
  zBlocks : Nat
  zAt : Nat
  win : List (Nat × Nat × Nat)
  deriving DecidableEq, Repr

/-- A channel at reset, with the reset values of its settings (Table 10.7). -/
def HedgeCh.init : HedgeCh :=
  { cfg := [1, 0x42200000, 0x42C80000, 0x41F00000, 0x40000000, 0x40C00000, 0x40400000, 0x41200000, 0x3F800000, 0x44160000,
            0x42F00000, 0x3F800000, 0x41000000, 0x41F00000],
    quiet := false, ramp := none, mmax := 0x3F733333, startJ := 0, half := 0, errA := [0, 0, 0], errB := [0, 0, 0],
    xs := [], valid := 0, invalid := 0, overs := 0, last := none, recent := [], trips := [], sumV := 0, sumV2 := 0,
    sumI2 := 0, frames := 0, peak := 0, runI2 := 0, vdc := 0, dcRun := 0, coil := 0, magnet := 0, fold := 0, zV2 := 0, zI2 := 0,
    zBlocks := 0, zAt := 0, win := [] }

/-- Hedge state beside its entries: channels; counter at which MOD_EN rose, and at which the last channel drove its pins
low; carrier epoch in half ns; retune under way: stage 1 ramps, 2 pins low, with its counter; groups whose fault edge
waits for identification, with the counter at recognition; last render block taken into account; counters at the beginning
and the end of the Domain A period under way (R273); next burst on MSENSE_CLK (R279). -/
structure Hedge where
  chans : List (Nat × HedgeCh)
  enAt : Nat
  lowAt : Nat
  epoch : Nat
  retune : Option (Nat × Nat)
  faults : List (Nat × Nat)
  block : Nat
  span : Nat × Nat
  burst : Nat
  deriving DecidableEq, Repr

/-- Hedge at reset. -/
def Hedge.init : Hedge := ⟨[], 0, 0, 0, none, [], 0, (0, 0), 0⟩

end Sys2Proof.Machine
end

