-- ==== Sys2Proof/Machine/TypesMeas.lean ====
section
/-! DEFINITION. Internal state of the measurement microphones, the stimulus, the alignment run and the recorder
(chapter 11). -/

namespace Sys2Proof.Machine
open Sys2Proof

/-- A switch of a compensation filter (R305): first sample, new taps, fade length F, law. -/
structure CompSwitch where
  start : Nat
  taps : List F32
  len : Nat
  law : Nat
  deriving DecidableEq, Repr

/-- One microphone beside its entries (R300 to R306). -/
structure Mic where
  /-- Boundary at which its decimator is to reset, and that of the latest reset. -/
  resetDue : Option Nat
  resetAt : Nat
  /-- It settles after NO_DATA (R303). -/
  back : Bool
  /-- CIC: integrators, and delays of the comb sections (stage 1). -/
  integ : List Int
  comb : List Int
  /-- Newest inputs first of stages 2, 3 and 5; stage 6: last input and output. -/
  h2 : List F32
  h3 : List F32
  h5 : List F32
  hp : F32 × F32
  /-- Results of stage 6, newest first, at most 256 (R304). -/
  x6 : List F32
  /-- Compensation: taps in force, a write that waits for boundary (its first), the switch running. -/
  taps : List F32
  pend : Option (Nat × List F32)
  sw : Option CompSwitch
  /-- PDM bits: the last, how many have been alike in succession, and in NO_DATA the bits of the window under way and
  whether one of them changed; a full window with a change has been seen. -/
  lastBit : Bool
  same : Nat
  seen : Nat
  changed : Bool
  alive : Bool
  /-- Bits and ones of the render block under way. -/
  bits : Nat
  ones : Nat
  /-- Samples on their way to delivery, newest first (R302). -/
  pipe : List Int
  /-- Ramp: up or down, step, held value (Table 11.3); the sample presented, Q1.23. -/
  ramp : Option (Bool × Nat × Int)
  out : Int
  /-- Largest magnitude and sum of squares of the block under way; sums of the blocks of the last 100 ms. -/
  peak : Nat
  sq : Nat
  win : List Nat
  deriving DecidableEq, Repr

/-- A microphone at reset: the default compensation is one tap of 1.0 (R304). -/
def Mic.init : Mic :=
  { resetDue := none, resetAt := 0, back := false, integ := [0, 0, 0, 0, 0], comb := [0, 0, 0, 0, 0], h2 := [], h3 := [],
    h5 := [], hp := (0, 0), x6 := [], taps := [0x3F800000], pend := none, sw := none, lastBit := false, same := 0,
    seen := 0, changed := false, alive := false, bits := 0, ones := 0, pipe := [], ramp := none, out := 0, peak := 0, sq := 0,
    win := [] }

/-- Stimulus and run settings as a run took them at its start (R308, R309). -/
structure Stim where
  start : Nat
  outs : List Nat
  kind : Nat
  level : F32
  f0 : F32
  f1 : F32
  f2 : F32
  exp : Nat
  gap : Nat
  ref : Nat
  fA : Nat
  deriving DecidableEq, Repr

/-- Capture of one microphone (R309, R311): samples newest first, and whether it left RUN. -/
structure MicCap where
  mic : Nat
  xs : List Int
  spoiled : Bool
  deriving DecidableEq, Repr

/-- Capture for one output of the run: its number in the run, output and S_i, microphones, the modulator channel that the
output feeds with its voltage and current fields by sample, newest first (R315), overload of the reference, and whether the
output was closed under its stimulus (R307). -/
structure Cap where
  num : Nat
  out : Nat
  at_ : Nat
  mics : List MicCap
  chan : Option Nat
  sense : List (Int × Int)
  overload : Bool
  closed : Bool
  deriving DecidableEq, Repr

/-- An alignment run: settings, outputs started, captures not yet analysed (oldest first), outputs analysed. -/
structure Align where
  stim : Stim
  next : Nat
  caps : List Cap
  done : Nat
  deriving DecidableEq, Repr

/-- Recorder of one Domain A period: its media time and the channels with a sample other than zero (R316). -/
structure RecSlot where
  at_ : Nat
  xs : List (Nat × Int)
  deriving DecidableEq, Repr

/-- Measurement state of chapter 11. -/
structure Meas where
  mics : List (Nat × Mic)
  /-- Whether the PDM clocks run (R299, R473). -/
  clocked : Bool
  /-- Boundary of a reset of every decimator that is requested (R300), and the PDM rate in force since the last one. -/
  resetDue : Option Nat
  rate : Nat
  /-- Openings and closings of outputs: output, then boundary and direction, oldest first (R307). -/
  opens : List (Nat × List (Nat × Bool))
  run : Option Align
  /-- Stimulus of an aborted run that fades, with the media time of the abort (R314). -/
  fading : Option (Stim × Nat)
  /-- Recorder: first media time it records from, the ring newest first, post time, cause and f of the freeze under way. -/
  recFrom : Nat
  ring : List RecSlot
  post : Nat
  cause : Nat
  frozeAt : Nat
  /-- Freeze events that wait, oldest first: cause and media time (R317). -/
  events : List (Nat × Nat)
  deriving DecidableEq, Repr

/-- Measurement at reset. -/
def Meas.init : Meas :=
  { mics := [], clocked := false, resetDue := none, rate := 3072000, opens := [], run := none, fading := none, recFrom := 0, ring := [],
    post := 0, cause := 0, frozeAt := 0, events := [] }

end Sys2Proof.Machine
end

