-- ==== Sys2Proof/Machine/TypesMem.lean ====
section
/-! DEFINITION. Internal state of the memory system (chapter 14). -/

namespace Sys2Proof.Machine
open Sys2Proof

/-- A codeword of the DRAM (R383): its 64 data symbols, its 16 check symbols, and whether these are kept inconsistent (R385). -/
structure DramWord where
  bytes : Bytes
  check : Bytes
  bad : Bool
  deriving DecidableEq, Repr

/-- A command of the controller to the devices of a subchannel: a bank by its number, a codeword by its place. -/
inductive DramCmd
  | activate (bank row : Nat)
  | precharge (bank : Nat)
  | prechargeAll
  | read (word : Nat)
  | write (word : Nat) (data : DramWord)
  | refresh
  | calibrate
  deriving DecidableEq, Repr

/-- A DRAM subchannel (R389 to R392). -/
structure SubCh where
  /-- ALERT_n is low, and the controller issues nothing; counter at which it fell (R392). -/
  alert : Bool
  alertAt : Nat
  /-- Retry buffer: the last 32 commands with the counter at each, newest first (R392). -/
  retry : List (Nat × DramCmd)
  /-- Open rows by bank: the row and the counter at its last hit (R389). -/
  rows : List (Nat × Nat × Nat)
  /-- Counter from which the controller serves its next piece; pieces that overtook an older one in succession, and slots since one
  of a normal piece, while real-time pieces wait, up to 3 (R388). -/
  next : Nat
  passes : Nat
  slots : Nat
  deriving DecidableEq, Repr

/-- A subchannel that has issued nothing. -/
def SubCh.init : SubCh := ⟨false, 0, [], [], 0, 0, 0⟩

/-- A selection for neighbour refresh that waits: subchannel, row, bank, and counter at its selection (R391). -/
structure NrrPick where
  sub : Nat
  row : Nat
  bank : Nat
  at_ : Nat
  deriving DecidableEq, Repr

/-- A burst that waits at the matrix: its request with the QoS it was asked at, the beats granted, since when its next piece
asks, and whether what is left of it was delivered as poisoned at its deadline (R372, R374, R397, R400). -/
structure BusRun where
  req : BusReq
  qos : Nat
  done : Nat
  since : Nat
  late : Bool
  deriving DecidableEq, Repr

/-- A piece that a target has accepted (R370, R374, R377): target, request, byte address, beats, first cycle, and counter at its
completion, which is not known of a DRAM piece that is not served yet; once it has acted, the bytes that a read found, none for
a poisoned one; whether its data go nowhere, delivered as poisoned at their deadline or of a master that was reset; and the
counter at that reset. -/
structure BusPiece where
  target : Nat
  req : BusReq
  addr : Nat
  beats : Nat
  start : Nat
  finish : Nat
  got : Option (List (Option Byte))
  dead : Bool
  drain : Option Nat
  deriving DecidableEq, Repr

/-- Port of a target (R374, R375): the counter from which it is free, the master last served, by QoS the master last granted, a
lock with its holder and the end of its first piece, and the beats of the second under way. -/
structure BusPort where
  free : Nat
  parked : Nat
  last : List (Nat × Nat)
  lock : Option (Nat × Nat)
  beats : Nat
  deriving DecidableEq, Repr

/-- A port that has served nothing. -/
def BusPort.init : BusPort := ⟨0, 0xFF, [], none, 0⟩

/-- Memory state of chapter 14 beside its entries. -/
structure Mem where
  /-- The matrix: bursts that wait, oldest first, pieces accepted, in the order of their grants, and the ports by target
  (R370 to R377). -/
  waits : List BusRun
  flights : List BusPiece
  ports : List (Nat × BusPort)
  /-- On-chip memories behind the matrix by byte address: those bytes that a bus write put there and that are not 0. -/
  cells : List (Nat × Byte)
  /-- Corrected SRAM words that wait to be written back, by region and word (R379). -/
  fixes : List (Nat × Nat)
  /-- Poisoned reads whose reader has not acted yet (R386, R397), and the words of system SRAM that the control processor found
  uncorrectable (R380). -/
  poison : List BusUse
  checks : List Nat
  /-- DRAM by codeword: those that are not zeros with valid check symbols (R385, R386). -/
  dram : List (Nat × DramWord)
  /-- Corrected codewords that wait to be written back (R386). -/
  back : List (Nat × Bytes)
  sub0 : SubCh
  sub1 : SubCh
  /-- Selections for neighbour refresh that wait, oldest first (R391). -/
  nrr : List NrrPick
  /-- Counter at the last piece that a subchannel took (R395). -/
  pieceAt : Nat
  /-- Refresh debt in intervals (R390). -/
  debt : Nat
  /-- Counter at the last ZQ calibration, and when the one that waits fell due (R393). -/
  zqAt : Nat
  zqDue : Option Nat
  /-- Counters of failed replays of the last second (R392). -/
  fails : List Nat
  /-- Command-bus or drift retraining is requested for the next permitted time (R392, R481). -/
  retrain : Bool
  /-- Counter at the last retraining (R393). -/
  trainAt : Nat
  /-- Scrub: codewords of each subchannel read in the pass, its start and its pass time in hours (R394). -/
  scrub0 : Nat
  scrub1 : Nat
  scrubAt : Nat
  scrubHours : Nat
  /-- SRAM patrol: words read in the current pass of regions 1 to 6 (R381). -/
  patrol : List (Nat × Nat)
  /-- Corrections per device in which every corrected symbol lay in that device and at least 3 were, over
  24 h: device and counter (R387). -/
  crit : List (Nat × Nat)
  deriving DecidableEq, Repr

/-- Memory at reset. -/
def Mem.init : Mem :=
  { waits := [], flights := [], ports := [], cells := [], fixes := [], poison := [], checks := [], dram := [], back := [],
    sub0 := SubCh.init, sub1 := SubCh.init, nrr := [], pieceAt := 0, debt := 0, zqAt := 0, zqDue := none, fails := [],
    retrain := false, trainAt := 0, scrub0 := 0, scrub1 := 0, scrubAt := 0, scrubHours := 24, patrol := [], crit := [] }

end Sys2Proof.Machine
end

