-- ==== Sys2Proof/Machine/TypesNet.lean ====
section
/-! DEFINITION. Internal state of the MACs, rings, cell pool, media streams and IPv4 interfaces (chapter 8). -/

namespace Sys2Proof.Machine
open Sys2Proof

/-- One path of a receive stream (R216, R217): first samples of packets received and not yet delivered, each with its
arrival in ns; spans delivered in succession with their packet received, and without. -/
structure RxPath where
  got : List (Nat × Nat)
  run : Nat
  miss : Nat
  deriving DecidableEq, Repr

/-- A packet written in the present cycle (R215): counter, path, first sample, and the SSRC shown and whether a packet had
been written before it. -/
structure RxPut where
  at_ : Nat
  path : Nat
  x : Nat
  ssrc : Nat
  heard : Bool
  deriving DecidableEq, Repr

/-- A path before its first packet. -/
def RxPath.init : RxPath := ⟨[], 0, 0⟩

/-- A receive stream (R207, R213 to R217). Sample times are those of the stream media clock. -/
structure RxStream where
  /-- The playout region: samples written and not yet delivered, one list over the channels per sample time. -/
  region : List (Nat × List Int)
  /-- Cells of the region. -/
  cells : Nat
  /-- Whether a packet has been written, and the remainder modulo n of packet starts. -/
  heard : Bool
  grid : Nat
  /-- Spans delivered written in succession, and delivered missing. -/
  run : Nat
  miss : Nat
  path1 : RxPath
  path2 : RxPath
  /-- Ramp up of all channels since RECEIVING (R217). -/
  ramp : Option Nat
  /-- What the channels present in this period. -/
  cur : List Int
  /-- Lowest arrival margin of the second under way, ns. -/
  margin : Option Int
  /-- Packets written in the latest cycle in which one was. -/
  puts : List RxPut
  deriving DecidableEq, Repr

/-- A receive stream that is disabled. -/
def RxStream.init : RxStream := ⟨[], 0, false, 0, 0, 0, RxPath.init, RxPath.init, none, [], none, []⟩

/-- A descriptor in a transmit queue and the packet it names (R208): first stamp, which gives its launch instant; length
slot, which holds the frame length; cells of the transmit share in their linked order, the first of them the packet's
first; sequence number; samples by stamp and channel; counter at its push. -/
structure Packet where
  x : Nat
  len : Nat
  cells : List Nat
  seq : Nat
  data : List (List Int)
  at_ : Nat
  deriving DecidableEq, Repr

/-- The idle item (R208): the descriptor whose length slot is 0. -/
def Packet.idle : Packet := ⟨0, 0, [], 0, [], 0⟩

/-- A packet popped whose copies have not all ended (R219): first stamp, copies left, cells, whether a copy has
started. -/
structure Flight where
  x : Nat
  left : Nat
  cells : List Nat
  started : Bool
  deriving DecidableEq, Repr

/-- A transmit stream (R208, R218 to R220): queue, oldest first; stamped samples not yet in a packet; next packet to
build and to launch; counter at the entry to RESOLVING and at the flush on entry to HELD; packets under way. -/
structure TxStream where
  queue : List Packet
  buf : List (Nat × List Int)
  nextX : Option Nat
  launchX : Option Nat
  since : Nat
  flushAt : Option Nat
  flights : List Flight
  deriving DecidableEq, Repr

/-- A transmit stream that is disabled. -/
def TxStream.init : TxStream := ⟨[], [], none, none, 0, none, []⟩

/-- What a MAC sends: an Ethernet frame, or a Yexel datagram to an address and port. -/
inductive Sent
  | frame (bytes : Bytes)
  | yexel (from_ addr port : Nat) (bytes : Bytes)
  deriving DecidableEq, Repr

/-- Who asked for the transmit timestamp of a frame (R246): a Sync with its log interval, a Delay_Req, a Sprinkler DATA
datagram, each with its sequence number. -/
inductive StampReq
  | sync (seq : Nat) (log : Int)
  | delayReq (seq : Nat)
  | dgram (seq : Nat)
  deriving DecidableEq, Repr

/-- A copy of a media packet (R219): stream, first stamp, its launch instant and the last ns of system time at which it may
start. -/
structure MediaCopy where
  stream : Nat
  x : Nat
  launch : Nat
  last : Nat
  deriving DecidableEq, Repr

/-- A frame that waits at a MAC: what is sent, its length of Table 8.1, the counter from which it may start, the media
packet it is a copy of, its timestamp request. -/
structure Egress where
  what : Sent
  len : Nat
  since : Nat
  copy : Option MediaCopy
  stamp : Option StampReq
  deriving DecidableEq, Repr

/-- A frame in a receive ring (R204): MAC, receive timestamp in ns, bytes, first and last buffer, descriptors. -/
structure RingFrame where
  mac : Nat
  at_ : Nat
  bytes : Bytes
  first : Nat
  last : Nat
  descs : Nat
  deriving DecidableEq, Repr

/-- An ARP cache entry: address, Ethernet address, counter when learnt. -/
structure ArpEntry where
  ip : Nat
  mac : Bytes
  at_ : Nat
  deriving DecidableEq, Repr

/-- One MAC and its IPv4 interface: end of the honoured pause and its beginning (R202), end of the time in which pause is
disregarded, ARP cache oldest first, groups whose second report is due with the counter, end of the IGMPv2 fallback,
second and count of echoes answered (R223); frames that wait to be sent, the counter at which the frame under way ends
with the media copy it is (R202, R219). -/
structure MacSt where
  pauseUntil : Nat
  pauseFrom : Option Nat
  ignoreUntil : Nat
  arp : List ArpEntry
  reports : List (Nat × Nat)
  v2Until : Option Nat
  echoSec : Nat
  echoes : Nat
  out : List Egress
  busyUntil : Nat
  busy : Option MediaCopy
  deriving DecidableEq, Repr

/-- A MAC at reset. -/
def MacSt.init : MacSt := ⟨0, none, 0, [], [], none, 0, 0, [], 0, none⟩

/-- Network state of chapter 8 beside its entries. -/
structure Net where
  macs : List (Nat × MacSt)
  rx : List (Nat × RxStream)
  tx : List (Nat × TxStream)
  /-- Frames delivered to the rings, oldest first. -/
  rings : List (Nat × List RingFrame)
  /-- Buffer that the next frame of a ring takes first (R204). -/
  heads : List (Nat × Nat)
  deriving DecidableEq, Repr

/-- Network at reset. -/
def Net.init : Net := ⟨[], [], [], [], []⟩

end Sys2Proof.Machine
end

