-- ==== Sys2Proof/Machine/TypesPool.lean ====
section
/-! DEFINITION. Internal state of the Tending pool and the Rake (chapters 12 and 13). -/

namespace Sys2Proof.Machine
open Sys2Proof

/-- State of one kernel between runs: scalars and lists, laid out by each kernel in Machine/Kernels.lean; both empty
after an enable (R340). -/
structure KSt where
  v : List Int
  h : List (List Int)
  deriving DecidableEq, Repr

/-- A run released or under way (R338, R362): X, samples of each chain input over the block, counter at which it became
ready and at which it started, whether it was counted as missed, gate flags to consume, kernels that a parameter write
touched. -/
structure Job where
  X : Nat
  xs : List (List Int)
  ready : Nat
  start : Nat
  missed : Bool
  gate : Nat
  touched : List Nat
  deriving DecidableEq, Repr

/-- One chain beside its entries (R337 to R342). -/
structure Chain where
  /-- Parameters in force by kernel, and parameter writes not yet applied, oldest first. -/
  pars : List Bytes
  pend : List Bytes
  ks : List KSt
  /-- First block to run. -/
  firstX : Nat
  /-- Samples of the inputs in the latest periods, newest first. -/
  ins : List (List Int)
  /-- Run released and not dispatched; the newer one that was released while it waited, until that cycle has passed (R362);
  and run under way. -/
  wait : Option Job
  next : Option Job
  cur : Option Job
  /-- Output blocks by X, oldest first: per output its b samples. -/
  outq : List (Nat × List (List Int))
  /-- Samples presented, and the ramp: up or down, step, held samples. -/
  out : List Int
  ramp : Option (Bool × Nat × List Int)
  /-- Missed runs in succession, and runs on time in succession while STALLED. -/
  missed : Nat
  onTime : Nat
  /-- It was disabled and ramps down (R340). -/
  closing : Bool
  deriving DecidableEq, Repr

/-- A chain that runs nothing. -/
def Chain.init : Chain :=
  { pars := [], pend := [], ks := [], firstX := 0, ins := [], wait := none, next := none, cur := none, outq := [], out := [],
    ramp := none, missed := 0, onTime := 0, closing := false }

/-- A task of the Ulikumund on a reserved slot (R345, R361, R362): its pending events, the counter at which it became ready, the
piece under way with its core, the counter at its end and its cycles, the pieces run of the work in hand, and events raised
while they pend, with the cycle of that. -/
structure Task where
  pend : Nat
  ready : Nat
  piece : Option (Nat × Nat × Nat)
  ran : Nat
  next : Nat
  nextAt : Nat
  deriving DecidableEq, Repr

/-- A task without events. -/
def Task.init : Task := ⟨0, 0, none, 0, 0, 0⟩

/-- Pool state: chains; tasks by reserved slot; internal flags 32 to 63 at their places (R359); chains that stopped for a
change of rate (R344); per core the X of its latest release with the cycles of that release, and the cycles of the
second under way; media time at which each event flag was last raised; system time in seconds of the last loads. -/
structure Pool where
  chains : List (Nat × Chain)
  tasks : List (Nat × Task)
  inner : Nat
  again : List Nat
  release : List (Nat × Nat × Nat)
  busy : List (Nat × Nat)
  raised : List (Nat × Nat)
  second : Nat
  deriving DecidableEq, Repr

/-- Pool at reset. -/
def Pool.init : Pool :=
  { chains := [], tasks := [], inner := 0, again := [], release := [], busy := [], raised := [], second := 0 }

end Sys2Proof.Machine
end

