-- ==== Sys2Proof/Machine/TypesPower.lean ====
section
/-! DEFINITION. Internal state of start-up, resets, power states and ageing, and the MRAM beside the Leaves
(chapter 17). -/

namespace Sys2Proof.Machine
open Sys2Proof

/-- A firmware slot in MRAM (R466): its state (0x6400:04) and the image written to it; no bytes when it is erased or
still holds the image of the part as delivered. -/
structure Slot where
  image : Bytes
  state : Nat
  deriving DecidableEq, Repr

/-- One of the two copies of the MRAM's system area (R468): whether it is valid, its sequence, the entries that it keeps and that
differ from their reset values, the cause history, powered hours, milliseconds above +95 °C, weighted age in 2^-32 h, and the
states of the firmware slots. -/
structure SysCopy where
  valid : Bool
  seq : Nat
  vals : List (Nat × Nat)
  causes : Bytes
  hours : Nat
  hotMs : Nat
  age : Nat
  state0 : Nat
  state1 : Nat
  deriving DecidableEq, Repr

/-- Straps as sampled at the last release of a reset of kind 0 to 2 (Table 17.1). -/
structure Straps where
  mode : Nat
  refclk : Bool
  vreqEn : Bool
  wdtEn : Bool
  /-- Bit b: VDD_IOb at 3.3 V. -/
  io : Nat
  deriving DecidableEq, Repr

/-- A kernel pack or a firmware image that is written to the MRAM and read back (R353, R412, R467): its place, 0 to 7 for a pack
slot and 8 + i for firmware slot i; its bytes; the counter at which the read-back ends; and whether it finds them. -/
structure MramRun where
  place : Nat
  image : Bytes
  ends : Nat
  good : Bool
  deriving DecidableEq, Repr

/-- Power state of chapter 17 beside its entries. -/
structure Power where
  straps : Straps
  slot0 : Slot
  slot1 : Slot
  /-- Kernel packs in MRAM, by slot 0 to 7 (R353, R468). -/
  packs : List (Nat × Bytes)
  /-- The write of a kernel pack or of a firmware image that goes on (R353, R412, R467). -/
  mram : Option MramRun
  /-- The copies of the system area as last written, and which of them is in force (R468). -/
  sys0 : SysCopy
  sys1 : SysCopy
  sysAt : Nat
  /-- System area of MRAM (R468, R478): powered hours, milliseconds above +95 °C, and weighted age in 2^-32 h as last
  saved. The entries that MRAM keeps otherwise are kept where they stand. -/
  hours : Nat
  hotMs : Nat
  age : Nat
  /-- Counter at the release of the last reset of kind 0 to 2, and the last stage of the boot that ended (R465). -/
  resetAt : Nat
  stage : Nat
  /-- The model's own: resets of kinds 0 to 2 carried out. -/
  wide : Nat
  /-- A control processor reset in progress: counter at its start and its cause (R461). -/
  ctlReset : Option (Nat × Nat)
  /-- A device reset under way: boundary from which outputs ramp, its cause, and whether the Hedge ramps yet (R460). -/
  devReset : Option (Nat × Nat × Bool)
  /-- Counter at the last watchdog expiry (R463). -/
  wdtAt : Option Nat
  /-- Supplies have fallen below their thresholds and hold the block in power-on reset (R504). -/
  supplyDown : Bool
  /-- In STANDBY (R473), and the frames examined in it (R203). -/
  standby : Bool
  examined : Nat
  /-- The entry to STANDBY: 1 waits for the save that runs, 2 for the one that is pending, 3 the wake sources are armed;
  0 none (R473). -/
  entry : Nat
  /-- The Hedge is held down: entry to IDLE, IDLE, a device reset or a thermal shutdown (R460, R473, R476). -/
  hedgeOff : Bool
  /-- Readings above +115 °C in succession, and counter from which the die stayed below +95 °C (R476). -/
  hot : Nat
  coolAt : Option Nat
  /-- Milliseconds above +95 °C not yet saved. -/
  hotNew : Nat
  /-- Counter at the entry to the power state, and cycles spent before in ACTIVE and in IDLE. -/
  enteredAt : Nat
  activeFor : Nat
  idleFor : Nat
  /-- Ageing monitors marked faulty (R478). -/
  faulty : List Nat
  /-- Counters at the last sample, plan, VREQ step and saved hour, and whether a plan is due (R478 to R480). -/
  sampleAt : Nat
  planAt : Nat
  planDue : Bool
  stepAt : Nat
  hourAt : Nat
  /-- Code before the last step of VREQ, and counter of the last safety raise (R480). -/
  stepFrom : Nat
  raiseAt : Option Nat
  /-- Counter from which the running code stands, and cycles spent before at each code. -/
  codeAt : Nat
  codeFor : List (Nat × Nat)
  /-- Attestation report being signed: its 160 bytes (R471). -/
  signing : Option Bytes
  deriving DecidableEq, Repr

/-- Power at reset: straps at 0 until they are sampled, MRAM as delivered: the image of the part in slot 0. -/
def Power.init : Power :=
  { straps := ⟨0, false, false, false, 0⟩, slot0 := ⟨[], 1⟩, slot1 := ⟨[], 0⟩, packs := [], mram := none,
    sys0 := ⟨true, 0, [], List.replicate 16 0xFF, 0, 0, 0, 1, 0⟩, sys1 := ⟨false, 0, [], [], 0, 0, 0, 0, 0⟩, sysAt := 0,
    hours := 0, hotMs := 0, age := 0, resetAt := 0, stage := 0, wide := 0, ctlReset := none, devReset := none, wdtAt := none, supplyDown := false,
    standby := false, examined := 0, entry := 0, hedgeOff := false, hot := 0, coolAt := none, hotNew := 0, enteredAt := 0,
    activeFor := 0, idleFor := 0, faulty := [], sampleAt := 0, planAt := 0, planDue := false, stepAt := 0, hourAt := 0,
    stepFrom := 30, raiseAt := none,
    codeAt := 0, codeFor := [], signing := none }

end Sys2Proof.Machine
end

