-- ==== Sys2Proof/Machine/TypesTime.lean ====
section
/-! DEFINITION. Internal state of system time, the PTP port, triggers and captures, and of the Sprinkler (chapter 9). -/

namespace Sys2Proof.Machine
open Sys2Proof

/-- A master heard in Announce messages on one MAC (R243, R244): MAC, port identity (80 bits), the comparison data in
order of precedence, steps removed, counters of its last two Announce messages. -/
structure Foreign where
  mac : Nat
  ident : Nat
  gm : Nat
  prio1 : Nat
  quality : Nat
  prio2 : Nat
  steps : Nat
  last : Nat
  prev : Option Nat
  deriving DecidableEq, Repr

/-- A Sync whose Follow_Up has not come (R241): sequence, source, receive time in 2^-16 ns. -/
structure SyncWait where
  seq : Nat
  ident : Nat
  t2 : Int
  corr : Int
  deriving DecidableEq, Repr

/-- Time state of chapter 9 beside its entries. -/
structure TimeSt where
  /-- O with its 47-bit fraction, in 2^-47 ns (R232). -/
  off : Int
  /-- Rates ρ with the counter from which each held, newest first, over 16 s (R240). -/
  rhos : List (Nat × Nat)
  /-- Offset measurements or good PPS edges in succession toward qualification, and the grandmaster they came from
  (R235, R247). -/
  qual : Nat
  qualGm : Nat
  /-- Measurements in succession within the lock threshold (Table 9.1). -/
  within : Nat
  /-- Counter at the entry to the current holdover (R240). -/
  holdAt : Nat
  /-- The outputs have been released by the servo (R239). -/
  released : Bool
  foreigns : List Foreign
  /-- Parent in use: port identity. -/
  parent : Option Nat
  syncWait : Option SyncWait
  /-- Latest t2 − t1 of a Sync, in 2^-16 ns, for the path delay (R241). -/
  msDelay : Option Int
  /-- Mean path delay in 2^-16 ns once it is known, and the master's Ethernet and IPv4 address. -/
  mpd : Option Int
  peer : Nat × Nat
  /-- Delay_Req sent: sequence and transmit time in 2^-16 ns. -/
  reqWait : Option (Nat × Int)
  /-- Next sequence numbers of Sync, Announce and Delay_Req, and the counters at the last of each. -/
  seqSync : Nat
  seqAnn : Nat
  seqReq : Nat
  sentSync : Nat
  sentAnn : Nat
  sentReq : Nat
  /-- Counter at the last Announce on MACs 0 to 5. -/
  annAt : List (Nat × Nat)
  /-- Counter from which the announce receipt timeout runs without an Announce. -/
  annFrom : Nat
  /-- Last good PPS edge: corrected system time in ns and counter (R247). -/
  ppsLast : Option (Nat × Nat)
  /-- End of the pulse on TIME_PPS_OUT, in ns of system time, while it is high (R248). -/
  pulseEnd : Option Nat
  /-- PPS output settings in force: mode, width, offset (R248). -/
  ppsOut : Nat × Nat × Int
  /-- Next target of an armed trigger, in ns or samples as its time base (R249). -/
  trig : List (Nat × Nat)
  /-- Triggers whose target a step has passed (R250). -/
  missed : List Nat
  /-- Counter at each capture unit's last captured edge (R252). -/
  caps : List (Nat × Nat)
  /-- Transmit timestamp queue, oldest first, each entry with the counter at its push (R246). -/
  txq : List (Nat × Bytes)
  deriving DecidableEq, Repr

/-- Time at reset. -/
def TimeSt.init : TimeSt :=
  { off := 0, rhos := [], qual := 0, qualGm := 0, within := 0, holdAt := 0, released := false, foreigns := [],
    parent := none, syncWait := none, msDelay := none, mpd := none, peer := (0, 0), reqWait := none, seqSync := 0, seqAnn := 0, seqReq := 0,
    sentSync := 0, sentAnn := 0, sentReq := 0, annAt := [], annFrom := 0, ppsLast := none, pulseEnd := none,
    ppsOut := (0, 100000, 0), trig := [], missed := [], caps := [], txq := [] }

/-- A value of a replicated field that waits for its boundary (R256, R259): boundary, object, sub-index, value; for
sub-index 0x0B a flush, whose value is the number of the next keyframe at its acceptance. -/
structure CtlPend where
  land : Nat
  obj : Nat
  sub : Nat
  val : Nat
  deriving DecidableEq, Repr

/-- What the head or standby knows of a device from its STATUS (R253, R257): number, counter when heard, state, late
records. -/
structure Member where
  dev : Nat
  at_ : Nat
  state : Nat
  late : Nat
  deriving DecidableEq, Repr

/-- A DATA datagram held behind a gap or buffered in RESYNC (R260): sequence, records, payload, media time at which it
was taken. -/
structure HeldData where
  seq : Nat
  records : Nat
  payload : Bytes
  at_ : Nat
  deriving DecidableEq, Repr

/-- Sprinkler state of chapter 9 beside its entries. -/
structure Sprk where
  /-- Copies of DATA kept for repair (R260), oldest first: sequence, records, payload. -/
  kept : List (Nat × Nat × Bytes)
  /-- Datagrams held behind a gap or buffered in RESYNC. -/
  hold : List HeldData
  /-- Media time at which the first open gap was detected. -/
  gapAt : Option Nat
  /-- Counters at the last NAK, SNAPSHOT_REQUEST, STATUS, and DATA or HEARTBEAT sent or heard. -/
  nakAt : Nat
  reqAt : Nat
  statusAt : Nat
  beatAt : Nat
  /-- State before MISMATCH (R262). -/
  before : Nat
  /-- The epoch was learnt from a datagram that does not show its first sequence (R261). -/
  unseen : Bool
  /-- Next snapshot index awaited, while one arrives, and the tags of its datagrams that have come. -/
  snapNext : Option Nat
  snapTags : List Bytes
  members : List Member
  ctl : List CtlPend
  /-- Sequences repaired in the last 2 ms, with the counter. -/
  repaired : List (Nat × Nat)
  /-- Margins of the last second: counter and µs. -/
  margins : List (Nat × Int)
  deriving DecidableEq, Repr

/-- Sprinkler at reset. -/
def Sprk.init : Sprk := ⟨[], [], none, 0, 0, 0, 0, 0, false, none, [], [], [], [], []⟩

end Sys2Proof.Machine
end

