-- ==== Sys2Proof/Machine/State.lean ====
section
/-! DEFINITION. The machine state: plain data, every piece of state the manual gives the block (INVENTORY.md, State),
the state after reset, and the reasons a command can stop. -/

namespace Sys2Proof.Machine
open Sys2Proof

/-- Faults. No command of this block stops the machine: what the manual calls an error sets a flag, counts, or answers
a status. The type has no constructor, so a fault outcome cannot occur (safe). -/
inductive Fault
  deriving DecidableEq, Repr

/-- Refusals. -/
inductive Refusal
  /-- Raised by an arm of Machine/Dispatch.lean whose command has no meaning yet (safe). -/
  | notModelled (mnemonic : String)
  deriving DecidableEq, Repr

/-- What befell an entry in one cycle of the time counter. Of a W1C entry (R9): the flags that hardware set, those of them that
stood already, and, while a command is under way, those whose clear by the host met such a set. Of a counter: by how much it
rose (R487). Of a trace control: its value before the cycle, where the cycle wrote it (R492). -/
structure CycleNote where
  set : Nat
  stood : Nat
  met : Nat
  rose : Nat
  was : Option Nat
  deriving DecidableEq, Repr

/-- An entry to which nothing happened. -/
def CycleNote.init : CycleNote := ⟨0, 0, 0, 0, none⟩

/-- The state of the block. -/
structure State where
  /-- Commands that wait, first in, first out. -/
  pending : List Instr
  /-- Media time (R234): the number of the Domain A period in progress. -/
  now : Nat
  /-- The time counter C (R231). -/
  clock : Nat
  /-- The model's own: how many free values were drawn (assumption 2). -/
  free : Nat
  /-- Values of the dictionary entries that differ from their reset values, by entry key, in canonical form; STR and BLOB
  entries are in `blobs`. -/
  dict : List (Nat × Nat)
  /-- STR and BLOB entries that differ from their reset values, by entry key, in canonical form. -/
  blobs : List (Nat × Bytes)
  /-- Entries that the present cycle of the time counter touched, by entry key (R9, R487, R492). -/
  sets : List (Nat × CycleNote)
  /-- The model's own: outcome of the last Yexel operation. -/
  result : Result
  /-- The model's own: what the block sent while it carried out the last command, oldest first. -/
  outs : List Out
  /-- The model's own: trace messages of the command under way, type and payload, in order. -/
  msgs : List TraceEv
  /-- Chapter 2: keyframe queues, anchors, transform glide, speed of sound. -/
  scene : Scene
  /-- Chapter 3: target sets, Pruning holds, snapped objects, kernels, report of the open window. -/
  geo : Geo
  /-- Chapter 4: Furrow cells, moves, pending depth changes, accumulated outputs. -/
  render : Render
  /-- Chapter 5: chains of every output, Grafts, limiters, dither generators. -/
  corr : Corr
  /-- Chapter 6: input map, Trellis nodes and banks, output map. -/
  maps : Maps
  /-- Chapters 6, 9 and 17: whether the engines run, and a stop under way. -/
  engines : Engines
  /-- Chapter 7: ports, audio PLL, ASRC channels, word clocks. -/
  serial : Serial
  /-- Chapter 8: MACs, rings, cell pool, streams, ARP and IGMP. -/
  net : Net
  /-- Chapter 9: offset of system time, servo, PTP port, PPS, triggers, captures, timestamp queue. -/
  time : TimeSt
  /-- Chapter 9: the Sprinkler. -/
  sprk : Sprk
  /-- Chapter 10: modulator channels and the Hedge. -/
  hedge : Hedge
  /-- Chapter 11: microphones, stimulus, alignment run, recorder. -/
  meas : Meas
  /-- Chapters 12 and 13: chains, cores, kernel packs, event flags and task slots. -/
  pool : Pool
  /-- Chapter 14: bus locks, DRAM and SRAM maintenance. -/
  mem : Mem
  /-- Chapter 15: hosts, sessions, stages, commits, host SPI. -/
  ctl : Control
  /-- Chapter 15: the Leaves and a save under way. -/
  store : Store
  /-- Chapter 17: boot, resets, power states, ageing, the MRAM beside the Leaves. -/
  power : Power
  /-- Chapter 18: the trace port. -/
  trace : Trace
  deriving DecidableEq, Repr

/-- The block right after a power-on reset, before it boots (R457 to R459): no command waits, the time counter and
media time read 0, every entry holds its reset value (Machine/Entries.lean and Machine/Defaults.lean), every engine
stands, the Leaves are as delivered. -/
def State.reset : State :=
  { pending := [],
    now := 0,
    clock := 0,
    free := 0,
    dict := [],
    blobs := [],
    sets := [],
    result := ⟨none, []⟩,
    outs := [],
    msgs := [],
    scene := Scene.init,
    geo := Geo.init,
    render := Render.init,
    corr := Corr.init,
    maps := Maps.init,
    engines := Engines.init,
    serial := Serial.init,
    net := Net.init,
    time := TimeSt.init,
    sprk := Sprk.init,
    hedge := Hedge.init,
    meas := Meas.init,
    pool := Pool.init,
    mem := Mem.init,
    ctl := Control.init,
    store := Store.init,
    power := Power.init,
    trace := Trace.init }

end Sys2Proof.Machine
end

