-- ==== Sys2Proof/Machine/Upd.lean ====
section
/-! DEFINITION. Dictionary access, the elementary updates of the state, and transactions: a state together with the
evidence that it came from a first state by elementary updates only. Every meaning is written over transactions, so
what holds of every elementary update holds of every command. -/

namespace Sys2Proof.Machine
open Sys2Proof

/-- Value of a numeric entry (R8): the stored one, or its reset value. -/
def State.get (s : State) (k : Nat) : Nat := (mget? s.dict k).getD (dfltOf k)

/-- Bytes of a STR or BLOB entry. -/
def State.blob (s : State) (k : Nat) : Bytes := (mget? s.blobs k).getD (dfltBlob k)

/-- The sparse dictionary with the value v, cut to the entry's width and defined bits, under key k. -/
def dictPut (d : List (Nat × Nat)) (k v : Nat) : List (Nat × Nat) :=
  match entryAt k with
  | some e => mputD (dfltOf k) k (fit e v) d
  | none => d

/-- One elementary update. -/
inductive Upd
  /-- A numeric entry takes a value. -/
  | put (k v : Nat)
  /-- A numeric entry takes its reset value. -/
  | unset (k : Nat)
  /-- A STR or BLOB entry takes a value. -/
  | blob (k : Nat) (b : Bytes)
  /-- A new media time and time counter. -/
  | tick (now clock : Nat)
  /-- A free value is drawn. -/
  | draw
  /-- Flags set in the present cycle. -/
  | sets (x : List (Nat × CycleNote))
  | result (r : Result)
  | outs (o : List Out)
  | msgs (m : List TraceEv)
  | scene (x : Scene)
  | geo (x : Geo)
  | render (x : Render)
  | corr (x : Corr)
  | maps (x : Maps)
  | engines (x : Engines)
  | serial (x : Serial)
  | net (x : Net)
  | time (x : TimeSt)
  | sprk (x : Sprk)
  | hedge (x : Hedge)
  | meas (x : Meas)
  | pool (x : Pool)
  | mem (x : Mem)
  | ctl (x : Control)
  | store (x : Store)
  | power (x : Power)
  | trace (x : Trace)

/-- The effect of an elementary update. No update touches the queue of commands. -/
def Upd.apply : Upd → State → State
  | .put k v, s => { s with dict := dictPut s.dict k v }
  | .unset k, s => { s with dict := mdel k s.dict }
  | .blob k b, s => { s with blobs := mputD (dfltBlob k) k b s.blobs }
  | .tick n c, s => { s with now := n, clock := c, sets := if c = s.clock then s.sets else [] }
  | .draw, s => { s with free := s.free + 1 }
  | .sets x, s => { s with sets := x }
  | .result r, s => { s with result := r }
  | .outs o, s => { s with outs := o }
  | .msgs m, s => { s with msgs := m }
  | .scene x, s => { s with scene := x }
  | .geo x, s => { s with geo := x }
  | .render x, s => { s with render := x }
  | .corr x, s => { s with corr := x }
  | .maps x, s => { s with maps := x }
  | .engines x, s => { s with engines := x }
  | .serial x, s => { s with serial := x }
  | .net x, s => { s with net := x }
  | .time x, s => { s with time := x }
  | .sprk x, s => { s with sprk := x }
  | .hedge x, s => { s with hedge := x }
  | .meas x, s => { s with meas := x }
  | .pool x, s => { s with pool := x }
  | .mem x, s => { s with mem := x }
  | .ctl x, s => { s with ctl := x }
  | .store x, s => { s with store := x }
  | .power x, s => { s with power := x }
  | .trace x, s => { s with trace := x }

/-- States reached from a first one by elementary updates. -/
inductive Reach (s0 : State) : State → Prop
  | refl : Reach s0 s0
  | step (u : Upd) {s : State} : Reach s0 s → Reach s0 (u.apply s)

/-- A transaction: the state as it stands, reached from s0. -/
structure Tx (s0 : State) where
  cur : State
  ok : Reach s0 cur

/-- The transaction that has done nothing. -/
def Tx.begin (s : State) : Tx s := ⟨s, .refl⟩

variable {s0 : State}

/-- Carry out an elementary update. -/
def Tx.upd (t : Tx s0) (u : Upd) : Tx s0 := ⟨u.apply t.cur, .step u t.ok⟩

def Tx.put (t : Tx s0) (k v : Nat) : Tx s0 := t.upd (.put k v)
def Tx.unset (t : Tx s0) (k : Nat) : Tx s0 := t.upd (.unset k)
def Tx.blob (t : Tx s0) (k : Nat) (b : Bytes) : Tx s0 := t.upd (.blob k b)
def Tx.tick (t : Tx s0) (n c : Nat) : Tx s0 := t.upd (.tick n c)
def Tx.draw (t : Tx s0) : Tx s0 := t.upd .draw
def Tx.setSets (t : Tx s0) (x : List (Nat × CycleNote)) : Tx s0 := t.upd (.sets x)
def Tx.setResult (t : Tx s0) (r : Result) : Tx s0 := t.upd (.result r)
def Tx.setOuts (t : Tx s0) (o : List Out) : Tx s0 := t.upd (.outs o)
def Tx.setMsgs (t : Tx s0) (m : List TraceEv) : Tx s0 := t.upd (.msgs m)
def Tx.setScene (t : Tx s0) (x : Scene) : Tx s0 := t.upd (.scene x)
def Tx.setGeo (t : Tx s0) (x : Geo) : Tx s0 := t.upd (.geo x)
def Tx.setRender (t : Tx s0) (x : Render) : Tx s0 := t.upd (.render x)
def Tx.setCorr (t : Tx s0) (x : Corr) : Tx s0 := t.upd (.corr x)
def Tx.setMaps (t : Tx s0) (x : Maps) : Tx s0 := t.upd (.maps x)
def Tx.setEngines (t : Tx s0) (x : Engines) : Tx s0 := t.upd (.engines x)
def Tx.setSerial (t : Tx s0) (x : Serial) : Tx s0 := t.upd (.serial x)
def Tx.setNet (t : Tx s0) (x : Net) : Tx s0 := t.upd (.net x)
def Tx.setTime (t : Tx s0) (x : TimeSt) : Tx s0 := t.upd (.time x)
def Tx.setSprk (t : Tx s0) (x : Sprk) : Tx s0 := t.upd (.sprk x)
def Tx.setHedge (t : Tx s0) (x : Hedge) : Tx s0 := t.upd (.hedge x)
def Tx.setMeas (t : Tx s0) (x : Meas) : Tx s0 := t.upd (.meas x)
def Tx.setPool (t : Tx s0) (x : Pool) : Tx s0 := t.upd (.pool x)
def Tx.setMem (t : Tx s0) (x : Mem) : Tx s0 := t.upd (.mem x)
def Tx.setCtl (t : Tx s0) (x : Control) : Tx s0 := t.upd (.ctl x)
def Tx.setStore (t : Tx s0) (x : Store) : Tx s0 := t.upd (.store x)
def Tx.setPower (t : Tx s0) (x : Power) : Tx s0 := t.upd (.power x)
def Tx.setTrace (t : Tx s0) (x : Trace) : Tx s0 := t.upd (.trace x)

end Sys2Proof.Machine
end

