-- ==== Sys2Proof/Machine/Operands.lean ====
section
/-! DEFINITION. Operand forms: the data of a Yexel operation as a value of its entry's type (R6, R413), and the checks of
length and range of steps 4 and 5 of R424 (R7). -/

namespace Sys2Proof.Machine
open Sys2Proof

/-- Status codes (Table 0.4). -/
def stOK : Nat := 0
def stNoEntry : Nat := 1
def stNoRight : Nat := 2
def stBadType : Nat := 3
def stOutOfRange : Nat := 4
def stBusy : Nat := 5
def stState : Nat := 6
def stAuth : Nat := 7
def stSeq : Nat := 8
def stTooLate : Nat := 9
def stStoreFail : Nat := 10

/-- Value of an entry named by index, instance and sub-index. -/
def State.g (s : State) (idx inst sub : Nat) : Nat := s.get (K idx inst sub)

/-- Bytes of a STR or BLOB entry. -/
def State.gb (s : State) (idx inst sub : Nat) : Bytes := s.blob (K idx inst sub)

/-- Whether a BOOL entry is true. -/
def State.on (s : State) (idx inst sub : Nat) : Bool := s.g idx inst sub == 1

/-- The Domain A rate in Hz. -/
def State.fA (s : State) : Nat := s.g 0x3F00 0 0x01

/-- What the type alone demands of a numeric value (R7). -/
def typeOk (ty : Ty) (v : Nat) : Bool :=
  match ty with
  | .bool => v ≤ 1
  | .f32 => F.isFinite v
  | .time80 => v / 2 ^ 48 < 1000000000
  | .u8 | .u16 | .u32 | .u64 | .i16 | .i32 | .media64 | .str | .blob => true

/-- Signed view of a value by its type. -/
def asInt (ty : Ty) (v : Nat) : Int :=
  match ty with
  | .i16 => signed 16 v
  | .i32 => signed 32 v
  | .bool | .u8 | .u16 | .u32 | .u64 | .f32 | .time80 | .media64 | .str | .blob => v

/-- The entry's stated range; `custom` entries are checked by `customOk`. -/
def rngOk (ty : Ty) (r : Rng) (v : Nat) : Bool :=
  match r with
  | .any => true
  | .trueOnly => v == 1
  | .nat lo hi => lo ≤ v && v ≤ hi
  | .natOr lo hi o => (lo ≤ v && v ≤ hi) || v == o
  | .zeroOr lo hi => v == 0 || (lo ≤ v && v ≤ hi)
  | .int lo hi => lo ≤ asInt ty v && asInt ty v ≤ hi
  | .flt lo hi => F.le lo v && F.le v hi
  | .mask m => clearBits v m == 0
  | .pow2 lo hi => lo ≤ v && v ≤ hi && v == 2 ^ Nat.log2 v
  | .oneOf l => l.contains v
  | .len _ _ => true
  | .custom => true

/-- Signal code fields (Table 6.1). -/
def sigKind (c : Nat) : Nat := c / 2 ^ 24
def sigInst (c : Nat) : Nat := c / 2 ^ 8 % 2 ^ 16
def sigChan (c : Nat) : Nat := c % 2 ^ 8

/-- A signal code of a kind, instance and channel. -/
def sigCode (kind inst chan : Nat) : Nat := kind * 2 ^ 24 + inst * 2 ^ 8 + chan

/-- Whether a code's instance and channel lie in the ranges of its kind (R144, Table 6.2). -/
def sigFields (c : Nat) : Bool :=
  let i := sigInst c
  let ch := sigChan c
  match sigKind c with
  | 0 => i == 0 && ch == 0
  | 1 => i < 32 && ch < 16
  | 2 => i < 256 && ch < 64
  | 3 => i == 0 && ch < 16
  | 4 => i < 512 && ch == 0
  | 5 => i < 512 && ch == 0
  | 6 => i < 256 && ch == 0
  | 7 => i < 256 && ch < 16
  | _ => false

/-- Kinds that may be named in the input map, as a Trellis source, in the output map (Table 6.2), and as the source of a
path query (Table 6.17). -/
def sigInput : List Nat := [0, 1, 2, 3, 7]
def sigTrellis : List Nat := [0, 1, 2, 3, 4, 5, 7]
def sigOutput : List Nat := [0, 5, 6]
def sigQuery : List Nat := [1, 2, 3, 7]

/-- R144 at a place that permits the kinds ks. -/
def sigOk (ks : List Nat) (c : Nat) : Bool := ks.contains (sigKind c) && sigFields c

/-- Whether i lies from lo to hi. -/
def inI (lo hi i : Int) : Bool := lo ≤ i && i ≤ hi

/-- PTP parameters of a profile (Table 9.3): default, lowest, highest, by sub-index of 0x5001; the delay request
interval of profile 2 is bounded by the log sync interval `ls`. -/
def ptpParam (profile sub : Nat) (ls : Int) : Int × Int × Int :=
  match profile, sub with
  | 0, 0x04 => (0, 0, 127)
  | 0, 0x07 => (0, 0, 1)
  | 0, 0x08 => (0, 0, 0)
  | 0, 0x09 => (0, -1, 1)
  | 0, 0x0A => (1, 0, 4)
  | 0, 0x0B => (0, 0, 5)
  | 1, 0x04 => (0, 0, 127)
  | 1, 0x07 => (0, 0, 0)
  | 1, 0x08 => (0, 0, 1)
  | 1, 0x09 => (-3, -4, 1)
  | 1, 0x0A => (1, 0, 4)
  | 1, 0x0B => (0, -3, 5)
  | 2, 0x04 => (127, 0, 127)
  | 2, 0x07 => (0, 0, 0)
  | 2, 0x08 => (0, 0, 1)
  | 2, 0x09 => (-3, -7, -1)
  | 2, 0x0A => (-2, -3, 1)
  | 2, 0x0B => (-3, ls, ls + 5)
  | _, _ => (3, 2, 10)

/-- 0.45 · f_A in binary32, the highest stimulus frequency (Table 11.9). -/
def stimMax (s : State) : F32 := F.ofRat false (45 * s.fA) 100

/-- The stated range of the entries whose range depends on another entry or on the instance. -/
def customOk (s : State) (idx inst sub v : Nat) : Bool :=
  match idx, sub with
  | 0x3C01, 0x01 => sigOk sigTrellis v
  | 0x3D00, _ => sigOk sigInput v
  | 0x3E00, 0x01 => sigOk sigOutput v
  | 0x3F01, 0x02 => sigOk sigQuery v
  | 0x4000, 0x03 => 2 ≤ v && v ≤ 16 && (s.g 0x4000 inst 0x02 == 2 || v == 2)
  | 0x4800, 0x02 => if 4 ≤ inst then v ≤ 3 else v ≤ 2
  | 0x4800, 0x03 => v < 2 ^ 48 && v % 2 == 0
  | 0x4800, 0x18 => if 4 ≤ inst then v ≤ 0x1F else v == 0
  | 0x4F00, 0x05 => inst < 4 || v == 1
  | 0x5000, 0x04 => 999 * 2 ^ 47 ≤ v * 1000 && v * 1000 ≤ 1001 * 2 ^ 47
  | 0x5001, _ =>
    let ty := if 0x09 ≤ sub && sub ≤ 0x0B then Ty.i16 else Ty.u8
    let p := ptpParam (s.g 0x5001 0 0x02) sub (signed 16 (s.g 0x5001 0 0x09))
    inI p.2.1 p.2.2 (asInt ty v)
  | 0x5100, 0x05 =>
    v == 0 || (if s.g 0x5100 inst 0x02 == 0 then 1000 ≤ v && v ≤ 1000000000000 else v ≤ 2 ^ 40)
  | 0x5400, 0x04 => 0xE0000000 ≤ v && v ≤ 0xEFFFFFFF
  | 0x5800, 0x06 => F.le 0x3DCCCCCD v
  | 0x5A00, 0x02 => 300000 ≤ v && v ≤ 480000 && v % 1000 == 0
  | 0x5D00, 0x03 => F.le 0x41A00000 v && F.le v (stimMax s)
  | 0x5D00, 0x04 => F.le 0x41A00000 v && F.le v (F.div (s.g 0x5D00 0 0x05) 0x40000000)
  | 0x5D00, 0x05 => F.le (F.mul 0x40000000 (s.g 0x5D00 0 0x04)) v && F.le v (stimMax s)
  | 0x5D00, 0x07 => 4096 ≤ v && v ≤ 480000 && v % 16 == 0
  | 0x6010, 0x03 => v ≤ 11 || nth masterClass inst 0 == 1
  | 0x6601, 0x04 => v ≤ s.g 0x6601 0 0x05
  | 0x6601, 0x05 => s.g 0x6601 0 0x04 ≤ v && v ≤ 63
  | _, _ => true

/-- Whether n bytes lie in the entry's stated length (R413). -/
def blobLenOk (e : Entry) (n : Nat) : Bool :=
  match e.rng with
  | .len lo hi => lo ≤ n && n ≤ hi
  | _ => true

/-- An entry whose own rule checks the length, among other things and in its own order (R117, R304, R336, R352). -/
def ownLength (idx sub : Nat) : Bool :=
  match idx, sub with
  | 0x3A00, 0x01 | 0x5C10, 0x07 | 0x5E10, 0x02 | 0x5E30, 0x01 => true
  | _, _ => false

/-- Step 4 of R424 (R7, R413): whether the data has a length of the entry's type. A BLOB shorter than its entry's range, which
R7 calls out of range and R413 a wrong type only when it is longer, is a wrong type too (assumption 81). -/
def lengthOk (e : Entry) (d : Bytes) : Bool :=
  match e.ty with
  | .str => d.length ≤ 255
  | .blob => blobLenOk e d.length
  | .bool | .u8 | .u16 | .u32 | .u64 | .i16 | .i32 | .f32 | .time80 | .media64 => d.length == e.ty.size

/-- Step 5 of R424 (R7): whether data of the right length is in range. -/
def rangeOk (s : State) (idx inst : Nat) (e : Entry) (d : Bytes) : Bool :=
  match e.ty with
  | .blob => true
  | .str => utf8 d && blobLenOk e d.length
  | .bool | .u8 | .u16 | .u32 | .u64 | .i16 | .i32 | .f32 | .time80 | .media64 =>
    let v := leNat d
    if e.acc == .w1c then true
    else typeOk e.ty v && rngOk e.ty e.rng v && (e.rng != .custom || customOk s idx inst e.sub v)

end Sys2Proof.Machine
end

