-- ==== Sys2Proof/Machine/Flags.lean ====
section
/-! DEFINITION. Flags and counts: how hardware sets and a host clears W1C flags (R8, R9), and how counts rise and are
mirrored (R487, Table 18.1). -/

namespace Sys2Proof.Machine
open Sys2Proof

variable {s0 : State}

/-- Give an entry named by index, instance and sub-index a value. -/
def Tx.w (t : Tx s0) (idx inst sub v : Nat) : Tx s0 := t.put (K idx inst sub) v

/-- Give a signed entry a value of 32 bits in two's complement; the entry's width cuts it. -/
def Tx.wi (t : Tx s0) (idx inst sub : Nat) (v : Int) : Tx s0 := t.w idx inst sub (unsigned 64 v)

/-- Give a STR or BLOB entry a value. -/
def Tx.wb (t : Tx s0) (idx inst sub : Nat) (b : Bytes) : Tx s0 := t.blob (K idx inst sub) b

/-- Value of an entry in the transaction's state. -/
def Tx.g (t : Tx s0) (idx inst sub : Nat) : Nat := t.cur.g idx inst sub

/-- Whether a BOOL entry is true in the transaction's state. -/
def Tx.on (t : Tx s0) (idx inst sub : Nat) : Bool := t.cur.on idx inst sub

/-- Hardware sets the flags m of a W1C entry (R8): they become 1, the others stay. -/
def setFlags (old m : Nat) : Nat := Nat.lor old m

/-- A host's write of m clears the flags whose bit is 1 and leaves the others (R8). -/
def clearFlags (old m : Nat) : Nat := clearBits old m

/-- The cycle's record of an entry that reads `old`: hardware sets the flags m, or a host's clear names them (R9). -/
def CycleNote.rise (old m : Nat) (c : CycleNote) : CycleNote :=
  { c with set := setFlags c.set m, stood := setFlags c.stood (clearBits (Nat.land m old) c.set) }
def CycleNote.meet (m : Nat) (c : CycleNote) : CycleNote :=
  { c with stood := clearBits c.stood m, met := setFlags c.met (Nat.land m c.stood) }

/-- The cycle's record of an entry. -/
def State.cycleOf (s : State) (k : Nat) : CycleNote := mget CycleNote.init s.sets k
def Tx.cycleTo (t : Tx s0) (k : Nat) (f : CycleNote → CycleNote) : Tx s0 := t.setSets (mmod CycleNote.init k f t.cur.sets)

/-- Hardware sets flags, and this cycle keeps them from being cleared (R9). -/
def Tx.flag (t : Tx s0) (idx inst sub m : Nat) : Tx s0 :=
  let old := t.g idx inst sub
  (t.cycleTo (K idx inst sub) (·.rise old m)).w idx inst sub (setFlags old m)

/-- A host's write of m to a W1C entry: the flags it names clear but for those that were set in this cycle (R8, R9). A
cycle is one reading of the time counter (assumption 82). -/
def Tx.w1c (t : Tx s0) (idx inst sub m : Nat) : Tx s0 :=
  let k := K idx inst sub
  let set := (t.cur.cycleOf k).set
  (t.cycleTo k (·.meet m)).w idx inst sub (clearFlags (t.g idx inst sub) (clearBits m set))

/-- Hardware sets one flag bit. -/
def Tx.flagBit (t : Tx s0) (idx inst sub b : Nat) : Tx s0 := t.flag idx inst sub (2 ^ b)

/-- A flag that hardware set in this very cycle, and that did not stand before, is taken back: what set it has given way to another
event of the cycle. -/
def Tx.unflag (t : Tx s0) (idx inst sub b : Nat) : Tx s0 :=
  let k := K idx inst sub
  let c := t.cur.cycleOf k
  if bit c.set b && !bit c.stood b then
    (t.cycleTo k (fun c => { c with set := clearBits c.set (2 ^ b) })).w idx inst sub (clearBits (t.g idx inst sub) (2 ^ b))
  else t

/-- Counters of Table 18.1 that stand in a row from first on, one for each of count instances. -/
def mirror (first count inst : Nat) : Option Nat := if inst < count then some (first + inst) else none

/-- Counter of Table 18.1 that mirrors a count, if one does. -/
def counterOf (idx inst sub : Nat) : Option Nat :=
  match idx, sub with
  | 0x3400, 0x01 => some 0
  | 0x3B00, 0x0C => some 1
  | 0x2800, 0x0F => some 2
  | 0x2800, 0x0E => some 3
  | 0x3300, 0x12 => some 4
  | 0x3300, 0x13 => some 5
  | 0x3300, 0x16 => some 6
  | 0x3B00, 0x07 => some 7
  | 0x1300, 0x08 => some 8
  | 0x3C00, 0x09 => some 9
  | 0x3D00, 0x0B => some 10
  | 0x5400, 0x11 => some 11
  | 0x5400, 0x14 => some 12
  | 0x1000, 0x0C => some 13
  | 0x1001, 0x08 => some 14
  | 0x6A00, 0x12 => some 15
  | 0x4010, 0x0C => mirror 16 32 inst
  | 0x4010, 0x0D => mirror 16 32 inst
  | 0x4010, 0x0E => mirror 48 32 inst
  | 0x4010, 0x0F => mirror 48 32 inst
  | 0x4010, 0x10 => mirror 48 32 inst
  | 0x4010, 0x11 => mirror 48 32 inst
  | 0x4010, 0x0B => mirror 80 32 inst
  | 0x4800, 0x0A => mirror 112 6 inst
  | 0x4800, 0x0B => mirror 118 6 inst
  | 0x4800, 0x0C => mirror 124 6 inst
  | 0x4800, 0x0D => mirror 124 6 inst
  | 0x4800, 0x0E => mirror 124 6 inst
  | 0x4800, 0x0F => mirror 124 6 inst
  | 0x4800, 0x10 => mirror 124 6 inst
  | 0x4800, 0x11 => mirror 124 6 inst
  | 0x4800, 0x12 => mirror 124 6 inst
  | 0x4E00, 0x05 => mirror 130 4 inst
  | 0x4900, 0x07 => some 134
  | 0x4900, 0x09 => some 135
  | 0x4900, 0x08 => some 136
  | 0x4900, 0x0A => some 137
  | 0x5001, 0x17 => some 138
  | 0x5001, 0x18 => some 139
  | 0x5001, 0x19 => some 140
  | 0x5300, 0x04 => some 141
  | 0x5000, 0x19 => some 142
  | 0x5000, 0x1A => some 143
  | 0x5100, 0x08 => mirror 144 16 inst
  | 0x5200, 0x08 => mirror 160 8 inst
  | 0x5800, 0x12 => mirror 168 24 inst
  | 0x5C10, 0x0F => mirror 192 16 inst
  | 0x5F00, 0x06 => some 244
  | 0x5F00, 0x07 => some 245
  | 0x6200, 0x18 => some 246
  | 0x6200, 0x19 => some 247
  | 0x6100, 0x02 => some 248
  | 0x6100, 0x03 => some 249
  | 0x6200, 0x04 => some 250
  | 0x6200, 0x0E => some 251
  | 0x6200, 0x0A => some 252
  | 0x6000, 0x04 => some 253
  | 0x6000, 0x03 => some 254
  | 0x3400, 0x0E => some 255
  | 0x4A00, 0x17 => mirror 256 256 inst
  | _, _ => none

/-- Raise an entry by n; it wraps at its width. -/
def Tx.inc (t : Tx s0) (idx inst sub n : Nat) : Tx s0 := t.w idx inst sub (t.g idx inst sub + n)

/-- Raise counter i of 0x6800 + i (R487). -/
def Tx.counter (t : Tx s0) (i n : Nat) : Tx s0 :=
  (t.cycleTo (K (0x6800 + i) 0 0x01) (fun c => { c with rose := c.rose + n })).inc (0x6800 + i) 0 0x01 n

/-- Count n events in an entry and in the counter that mirrors it (R487). -/
def Tx.count (t : Tx s0) (idx inst sub n : Nat) : Tx s0 :=
  let t := t.inc idx inst sub n
  match counterOf idx inst sub with
  | some i => t.counter i n
  | none => t

/-- Count one event. -/
def Tx.tally (t : Tx s0) (idx inst sub : Nat) : Tx s0 := t.count idx inst sub 1

/-- Raise an entry by n, held at hi. -/
def Tx.incSat (t : Tx s0) (idx inst sub n hi : Nat) : Tx s0 := t.w idx inst sub (min (t.g idx inst sub + n) hi)

/-- Raise an entry to v if it is below it: a peak. -/
def Tx.peak (t : Tx s0) (idx inst sub v : Nat) : Tx s0 :=
  if t.g idx inst sub < v then t.w idx inst sub v else t

/-- Apply an operation for each member of a list, in order. -/
def Tx.each {α : Type} (t : Tx s0) (l : List α) (f : Tx s0 → α → Tx s0) : Tx s0 := l.foldl f t

/-- Apply an operation only if a condition holds. -/
def Tx.when (t : Tx s0) (c : Bool) (f : Tx s0 → Tx s0) : Tx s0 := if c then f t else t

end Sys2Proof.Machine
end

