-- ==== Sys2Proof/Machine/Ops.lean ====
section
/-! DEFINITION. Shared operations of every family: results, time, who may read and write (R421 to R424), notification
records (R426 to R429), the events of the trace (R492), and how a command begins and ends. -/

namespace Sys2Proof.Machine
open Sys2Proof

variable {s0 : State}

/-! ## Results and output -/

/-- The operation ends with a status and no data. -/
def Tx.status (t : Tx s0) (st : Nat) : Tx s0 := t.setResult ⟨some st, []⟩

/-- The operation ends with OK and data. -/
def Tx.reply (t : Tx s0) (d : Bytes) : Tx s0 := t.setResult ⟨some stOK, d⟩

/-- The operation's response waits (R412). -/
def Tx.wait (t : Tx s0) : Tx s0 := t.setResult ⟨none, []⟩

/-- Something leaves the block. -/
def Tx.emit (t : Tx s0) (o : Out) : Tx s0 := t.setOuts (t.cur.outs ++ [o])

/-- Reserved trace types (Table 18.3). -/
def traceReserved (ty : Nat) : Bool :=
  (12 ≤ ty && ty ≤ 31) || (64 ≤ ty && ty ≤ 95) || (416 ≤ ty && ty ≤ 431) || 445 ≤ ty

/-- Key of the control of a trace type (R496). -/
def controlKey (ty : Nat) : Nat := if ty == 0 then K 0x6A00 0 0x02 else K (0x6A00 + ty) 0 0x01

/-- Control of a trace type at the start of the cycle (R492): a write lands from the next cycle (R496). -/
def State.traceType (s : State) (ty : Nat) : Bool := (s.cycleOf (controlKey ty)).was.getD (s.get (controlKey ty)) == 1

/-- A control of a trace type takes a value. -/
def Tx.controlTo (t : Tx s0) (ty v : Nat) : Tx s0 :=
  let old := t.cur.get (controlKey ty)
  if old == v then t
  else (t.cycleTo (controlKey ty) (fun c => { c with was := c.was.or (some old) })).put (controlKey ty) v

/-- Whether events of a type emit a message (R489, R492, R493). -/
def State.traceOn (s : State) (ty : Nat) : Bool := s.on 0x6A00 0 0x01 && s.traceType ty && !traceReserved ty

/-- An event of a trace message type (Table 18.3) in the cycle in which the counter reads c. -/
def Tx.msgAt (t : Tx s0) (c ty : Nat) (payload : Bytes) : Tx s0 :=
  t.setMsgs (t.cur.msgs ++ [⟨c, t.cur.now, ty, t.cur.traceOn ty, payload⟩])

/-- The same in the present cycle. -/
def Tx.msg (t : Tx s0) (ty : Nat) (payload : Bytes) : Tx s0 := t.msgAt t.cur.clock ty payload

/-- Draw a free value (assumption 2). -/
def Tx.fresh (t : Tx s0) : Nat × Tx s0 := (Config.free t.cur.free, t.draw)

/-! ## Time -/

/-- Rate ρ, UQ1.47 (R232). -/
def State.rho (s : State) : Nat := s.g 0x5000 0 0x04

/-- System time in 2^-47 ns when the counter reads c (R232). -/
def State.sysAt (s : State) (c : Nat) : Int := s.time.off + c * s.rho

/-- System time in whole nanoseconds when the counter reads c (R232). -/
def State.nsAt (s : State) (c : Nat) : Nat := (s.sysAt c / 2 ^ 47).toNat

/-- System time in whole nanoseconds now. -/
def State.ns (s : State) : Nat := s.nsAt s.clock

/-- A count of nanoseconds as a TIME80 value (Table 0.2). -/
def time80 (ns : Nat) : Nat := ns / 1000000000 % 2 ^ 48 + ns % 1000000000 * 2 ^ 48

/-- Nanoseconds of a TIME80 value. -/
def time80Ns (v : Nat) : Nat := v % 2 ^ 48 * 1000000000 + v / 2 ^ 48

/-- Media time at a system time in nanoseconds (R234). -/
def mediaAt (f ns : Nat) : Nat := ns * f / 1000000000

/-- First whole nanosecond at or after the instant t(s) of media time s (R234). -/
def nsOfMedia (f s : Nat) : Nat := ceilDiv (s * 1000000000) f

/-- First counter value at which system time has reached n · 10^9 / f ns, or the present one if it has (R231, R234). -/
def State.clockAt (s : State) (n f : Nat) : Nat :=
  let need := -((-(n * 1000000000 * 2 ^ 47 : Nat) : Int) / f) - s.time.off
  let c := -((-need) / (s.rho : Int))
  max s.clock c.toNat

/-- The counter advances to c, never back. -/
def Tx.at_ (t : Tx s0) (c : Nat) : Tx s0 := t.tick t.cur.now (max t.cur.clock c)

/-- The next render block boundary after media time a. -/
def nextBlock (a : Nat) : Nat := 16 * (a / 16 + 1)

/-- The first boundary whose evaluation window has not opened at media time a (R40, R46, R432). -/
def nextEval (a : Nat) : Nat := 16 * ((a + 32) / 16 + 1)

/-- Milliseconds, microseconds and seconds in counter cycles (R231). -/
def msC (n : Nat) : Nat := n * 1000000
def usC (n : Nat) : Nat := n * 1000
def secC (n : Nat) : Nat := n * 1000000000

/-! ## Hosts and rights -/

/-- State of host h. -/
def State.host (s : State) (h : Nat) : HostSt := mget HostSt.init s.ctl.hosts h

/-- Replace the state of host h. -/
def Tx.setHost (t : Tx s0) (h : Nat) (x : HostSt) : Tx s0 :=
  t.setCtl { t.cur.ctl with hosts := mputD HostSt.init h x t.cur.ctl.hosts }

/-- Whether host h holds right b (Table 15.8); host 0 holds every right. -/
def State.right (s : State) (h b : Nat) : Bool := h == 0 || (h < 8 && bit (s.g 0x1000 h 0x04) b)

/-- Owning host of a member of an owner table (R422). -/
def State.owner (s : State) (table member : Nat) : Nat := ((s.gb 0x1100 0 table).getD member 0).toNat

/-- Owner table and member of an output-map destination (Table 6.11). -/
def destMember (d : Nat) : Nat × Nat :=
  if d < 512 then (0x06, d / 16) else if d < 1536 then (0x0B, d - 512) else (0x05, d - 1536)

/-- Partition member that an entry belongs to (R423), as owner table and member; none for class SYS, per-host tables
and partitioned entries without an instance. -/
def memberOf (idx inst sub : Nat) : Option (Nat × Nat) :=
  match idx with
  | 0x2000 => some (0x01, inst)
  | 0x3310 => some (0x01, inst)
  | 0x3410 => some (0x01, inst)
  | 0x3D00 => some (0x01, inst)
  | 0x3000 => some (0x02, inst)
  | 0x3500 => some (0x02, inst)
  | 0x3800 => if sub == 0x07 || sub == 0x08 then none else some (0x02, inst)
  | 0x5D10 => some (0x02, inst)
  | 0x3C02 => some (0x03, inst)
  | 0x3A00 => some (0x04, inst)
  | 0x5800 => if 0x03 ≤ sub && sub ≤ 0x10 then none else some (0x05, inst)
  | 0x4000 => if sub == 0x0F then none else some (0x06, inst)
  | 0x4010 => some (0x06, inst)
  | 0x5C10 => some (0x07, inst)
  | 0x4800 => if (0x01 ≤ sub && sub ≤ 0x06) || sub == 0x18 then none else some (0x08, inst)
  | 0x4A00 => some (0x09, inst)
  | 0x4C00 => some (0x0A, inst)
  | 0x5E10 => some (0x0C, inst)
  | 0x5F20 => some (0x0C, inst)
  | 0x3E00 => some (destMember inst)
  | _ => none

/-- Partitioned entries without an instance (R423). -/
def freeEntry (idx sub : Nat) : Bool :=
  idx == 0x2400 || (idx == 0x3B00 && sub == 0x01) || (idx == 0x3C00 && [0x01, 0x0D, 0x0E, 0x0F].contains sub) ||
  (idx == 0x5F00 && (sub == 0x02 || sub == 0x03))

/-- Per-host tables (form Host table, R452). -/
def hostTables : List Nat := [0x1000, 0x1200, 0x1301, 0x2401, 0x3B01, 0x3F01, 0x5D81]

/-- Per-host tables whose other instances a host may neither read nor write (R54, R142, R166, R323, R446, R448). -/
def ownTables : List Nat := [0x1200, 0x1301, 0x2401, 0x3B01, 0x3F01, 0x5D81]

/-- Whether host h owns a member. -/
def State.owns (s : State) (h table member : Nat) : Bool := s.owner table member == h

/-- Step 3 of R424 for a read (R421, R423). -/
def State.mayRead (s : State) (h idx inst sub : Nat) : Bool :=
  if h == 0 then true
  else if ownTables.contains idx && inst != h then false
  else if s.right h 0 then true
  else if idx == 0x3C00 && sub == 0x0F then s.owns h 0x03 (mget 0 s.maps.rowSel h)
  else if freeEntry idx sub then true
  else if hostTables.contains idx then inst == h
  else
    match memberOf idx inst sub with
    | some m => s.owns h m.1 m.2
    | none => false

/-- Step 3 of R424 for a write (R421 to R423, R433, R443, R446, R448, R449, R471); set 0 is in ROM
(R115). -/
def State.mayWrite (s : State) (h : Nat) (acc : Access) (idx inst sub : Nat) : Bool :=
  let base := if acc == .rws then s.right h 2 else s.right h 1
  if 8 ≤ h then false
  else if idx == 0x3A00 && inst == 0 then false
  else if idx == 0x1000 then
    if h == 0 then !(inst == 0 && (sub == 0x01 || sub == 0x04 || sub == 0x05))
    else inst == h && (sub == 0x02 || sub == 0x12)
  else if idx == 0x2401 || idx == 0x3B01 then (inst == h || h == 0) && base
  else if ownTables.contains idx then inst == h || h == 0
  else if idx == 0x1300 && (sub == 0x01 || sub == 0x02) then
    s.right h 3 && (sub == 0x01 || h == 0 ||
      (match s.ctl.commit with
       | some c => c.host == h
       | none => true))
  else if idx == 0x1400 && sub == 0x01 then s.right h 4
  else if idx == 0x6402 && sub == 0x01 then s.right h 6
  else if freeEntry idx sub then base
  else
    match memberOf idx inst sub with
    | some m => s.owns h m.1 m.2 && base
    | none => h == 0

/-- Whether the ROM answers an index in RECOVERY and in manufacturing mode (R457, R469). -/
def recoveryIndex (idx : Nat) : Bool := idx ≤ 0x00FF || (0x6400 ≤ idx && idx ≤ 0x6403) || (0x6410 ≤ idx && idx ≤ 0x64FF)

/-- The data path never starts and only the ROM answers (R457, R469). -/
def State.romOnly (s : State) : Bool := s.g 0x6500 0 0x01 == 3

/-- FAILED without a boot that reached stage 11: the block is read through host SPI, and takes the writes that the ROM takes (R476;
DEDUCED, assumption 85). -/
def State.failedEarly (s : State) : Bool := s.g 0x6500 0 0x01 == 4 && s.power.stage < 11

/-- Steps 1 to 3 of R424 for a write, after the fields of the operation itself: OK, or the status of the first that
fails. -/
def State.accessCheck (s : State) (h : Nat) (o : OpFields) : Nat :=
  if o.rsv != 0 || o.flags != 0 then stOutOfRange
  else
    match entryOf o.idx o.inst o.sub with
    | none => stNoEntry
    | some e =>
      if (s.romOnly || s.failedEarly) && !(h == 0 && recoveryIndex o.idx) then stState
      else if e.acc == .ro then stNoRight
      else if !s.mayWrite h e.acc o.idx o.inst o.sub then stNoRight
      else stOK

/-- What R424 answers to a WRITE before the entry's own rules: OK, or the status of the first check that fails. -/
def State.writeCheck (s : State) (h : Nat) (o : OpFields) : Nat :=
  let st := s.accessCheck h o
  if st != stOK then st
  else
    match entryOf o.idx o.inst o.sub with
    | none => stNoEntry
    | some e =>
      if !lengthOk e o.data && !ownLength o.idx o.sub then stBadType
      else if !rangeOk s o.idx o.inst e o.data then stOutOfRange
      else stOK

/-- What R424 answers to a READ before the entry's own rules. -/
def State.readCheck (s : State) (h : Nat) (o : OpFields) : Nat :=
  if o.rsv != 0 || 2 ≤ o.flags then stOutOfRange
  else
    match entryOf o.idx o.inst o.sub with
    | none => stNoEntry
    | some e =>
      if s.romOnly && !(h == 0 && recoveryIndex o.idx) then stState
      else if o.flags == 1 && e.acc != .rws then stOutOfRange
      else if e.acc == .wo then stNoRight
      else if !s.mayRead h o.idx o.inst o.sub then stNoRight
      else stOK

/-- The entry's own rule runs when the checks of R424 before it pass; otherwise the operation answers their status. -/
def Tx.guarded (t : Tx s0) (h : Nat) (o : OpFields) (rule : Tx s0 → Tx s0) : Tx s0 :=
  let st := t.cur.writeCheck h o
  if st == stOK then rule (t.status stOK) else t.status st

/-- The same, with what a refusal for the data's length also does. -/
def Tx.guardedBad (t : Tx s0) (h : Nat) (o : OpFields) (bad rule : Tx s0 → Tx s0) : Tx s0 :=
  let st := t.cur.writeCheck h o
  if st == stOK then rule (t.status stOK) else if st == stBadType then bad (t.status st) else t.status st

/-- Fields of a plain write operation. -/
def opOf (idx inst sub : Nat) (d : Bytes) : OpFields := ⟨0, idx, sub, 0, inst, d⟩

/-! ## Notifications -/

/-- Bytes of a notification record (Table 15.10). -/
def Rec.bytes (r : Rec) : Bytes :=
  leBytes 1 r.kind ++ leBytes 1 r.slot ++ leBytes 2 r.idx ++ leBytes 1 r.sub ++ [0] ++ leBytes 2 r.inst ++
  leBytes 4 r.value ++ leBytes 8 r.at_

/-- Add a record to the list of a host, or merge it into the waiting record of the same watch (R429). -/
def mergeRec (w1c : Bool) (r : Rec) : List Rec → List Rec
  | [] => [r]
  | q :: qs =>
    if r.kind == 0 && q.kind == 0 && q.slot == r.slot && q.idx == r.idx && q.sub == r.sub && q.inst == r.inst then
      { q with value := if w1c then Nat.lor q.value r.value else r.value } :: qs
    else q :: mergeRec w1c r qs

/-- A record for host h is made, merged, lost or discarded (R426, R429). -/
def Tx.record (t : Tx s0) (h : Nat) (w1c : Bool) (r : Rec) : Tx s0 :=
  if !t.cur.right h 5 then t
  else
    let x := t.cur.host h
    match x.sess with
    | none => (t.tally 0x1200 h 0x06).flagBit 0x1200 h 0x07 1
    | some _ =>
      let recs := mergeRec w1c r x.recs
      if recs.length ≤ 64 then t.setHost h { x with recs := recs }
      else
        let x := { x with lost := x.lost + 1, lostAt := if x.lost == 0 then r.at_ else x.lostAt }
        ((t.setHost h x).tally 0x1200 h 0x06).flagBit 0x1200 h 0x07 0

/-- A trigger or capture record reaches every host whose event classes enable it (R427). -/
def Tx.eventRecord (t : Tx s0) (kind idx inst value at_ : Nat) : Tx s0 :=
  t.each (List.range 8) (fun t h =>
    if bit (t.g 0x1200 h 0x02) (kind - 1) then t.record h false ⟨kind, 0, idx, 0, inst, value, at_⟩ else t)

/-- Watches of host h (R426): index, sub-index, instance, mask. -/
def State.watches (s : State) (h : Nat) : List (Nat × Nat × Nat × Nat) :=
  let b := s.gb 0x1200 h 0x01
  (List.range (b.length / 8)).map (fun i =>
    (fieldLE b (8 * i) 2, fieldLE b (8 * i + 2) 1, fieldLE b (8 * i + 4) 2, fieldLE b (8 * i + 6) 2))

/-- Fire one watch of host h if its entry changed as R426 says since the state a, or a clear of it met a set. -/
def fireWatch (a : State) (h : Nat) (t : Tx s0) (w : Nat × Nat × Nat × Nat × Nat) : Tx s0 :=
  let (slot, idx, sub, inst, mask) := w
  match entryOf idx inst sub with
  | none => t
  | some e =>
    let old := a.g idx inst sub
    let new := t.g idx inst sub
    let met := (t.cur.cycleOf (K idx inst sub)).met
    if old == new && met == 0 then t
    else if e.acc == .w1c then
      let rose := Nat.land (setFlags (clearBits new old) met) mask
      if rose == 0 then t else t.record h true ⟨0, slot, idx, sub, inst, rose, t.cur.now⟩
    else t.record h false ⟨0, slot, idx, sub, inst, new, t.cur.now⟩

/-- Whether a host's clear met a set of its flag in this command (R9, R426). -/
def State.metAny (s : State) : Bool := s.sets.any (fun p => p.2.met != 0)

/-- The clears that met a set have fired their watches. -/
def Tx.metDone (t : Tx s0) : Tx s0 :=
  if t.cur.metAny then t.setSets (t.cur.sets.map (fun p => (p.1, { p.2 with met := 0 }))) else t

/-- Fire every watch of every host whose entry changed since the state a. -/
def fireWatches (a : State) (t : Tx s0) : Tx s0 :=
  if a.dict == t.cur.dict && !t.cur.metAny then t
  else
    t.each (List.range 8) (fun t h =>
      let ws := t.cur.watches h
      t.each ((List.range ws.length).zip ws) (fireWatch a h))

/-- Watches fire for what an operation of a request changed since the state a. -/
def Tx.watchNow (t : Tx s0) (a : State) : Tx s0 :=
  if a.dict == t.cur.dict && !t.cur.metAny then t
  else
    let mid := t.cur
    let t := (fireWatches mid (fireWatches a t).metDone)
    t.setCtl { t.cur.ctl with fired := some t.cur.dict }

/-- The entries as they stood when watches last fired in this command, over the state a at its beginning. -/
def State.sinceFired (s a : State) : State := { a with dict := s.ctl.fired.getD a.dict }

/-! ## Trace -/

/-- The messages of the command wait for the end of their cycles (R492). -/
def Tx.traceFlush (t : Tx s0) : Tx s0 :=
  let ms := t.cur.msgs.filter (·.on)
  let t := t.setMsgs []
  if ms.isEmpty then t else t.setTrace { t.cur.trace with wait := t.cur.trace.wait ++ ms }

/-- Instances of an index whose entry at a sub-index is listed in the dictionary, rising. -/
def State.listed (s : State) (idx sub : Nat) : List Nat :=
  (s.dict.filter (fun p => kIdx p.1 == idx && kSub p.1 == sub)).map (fun p => kInst p.1)

/-- An event that freezes the recorder if its cause is enabled (R317, Table 11.6); it waits for its FREEZE. -/
def Tx.freezeOn (t : Tx s0) (cause : Nat) : Tx s0 :=
  if t.g 0x5D80 0 0x06 == 0 || !bit (t.g 0x5D80 0 0x02) cause then t
  else t.setMeas { t.cur.meas with events := t.cur.meas.events ++ [(cause, t.cur.now)] }

/-! ## Beginning and end of a command -/

/-- Whether an entry is persistent (P, R11). -/
def persistent (k : Nat) : Bool :=
  match entryAt k with
  | some e => e.pers
  | none => false

/-- Keys whose value differs between two canonical tables. -/
def diffKeys {α : Type} [DecidableEq α] : Nat → List (Nat × α) → List (Nat × α) → List Nat
  | 0, _, _ => []
  | _ + 1, [], b => b.map (·.1)
  | _ + 1, a, [] => a.map (·.1)
  | n + 1, (k, v) :: a, (k', v') :: b =>
    if k < k' then k :: diffKeys n a ((k', v') :: b)
    else if k' < k then k' :: diffKeys n ((k, v) :: a) b
    else if v = v' then diffKeys n a b
    else k :: diffKeys n a b

/-- Persistent entries that differ between two states. -/
def persistentDiff (a b : State) : List Nat :=
  (diffKeys (a.dict.length + b.dict.length + 1) a.dict b.dict ++
   diffKeys (a.blobs.length + b.blobs.length + 1) a.blobs b.blobs).filter persistent

/-- The live Trellis set as an image holds it (R156, R434): nodes, target gains, ramp attributes. -/
def State.liveSet (s : State) : List (Nat × Nat × Bool) :=
  (s.maps.nodes.filter (fun n => n.2.gain != 0 || n.2.attr)).map (fun n => (n.1, n.2.gain, n.2.attr))

/-- A command that changed a persistent value or the live Trellis set restarts the autosave delay (R440). -/
def Tx.noteChange (t : Tx s0) : Tx s0 :=
  if s0.dict == t.cur.dict && s0.blobs == t.cur.blobs && s0.maps.nodes == t.cur.maps.nodes then t
  else if (persistentDiff s0 t.cur).isEmpty && s0.liveSet == t.cur.liveSet then t
  else t.setStore { t.cur.store with changed := some t.cur.clock }

/-- A command begins: nothing has left the block and no operation has ended. -/
def Tx.start (s : State) : Tx s := (((Tx.begin s).setOuts []).setMsgs []).setResult ⟨none, []⟩


/-- A command ends: watches fire, first those of the events and then those of the notification flags, a change of a
persistent value is noted, and the trace messages go to the FIFO. Across a reset of the whole device nothing is compared:
the values before it are gone. -/
def Tx.finish (t : Tx s0) : Tx s0 :=
  if s0.power.wide != t.cur.power.wide then t.metDone.traceFlush else
  let t := t.noteChange
  let mid := t.cur
  let t := (fireWatches (mid.sinceFired s0) t).metDone
  let t := fireWatches mid t
  (if t.cur.ctl.fired.isSome then t.setCtl { t.cur.ctl with fired := none } else t).traceFlush

/-- The outcome of a command whose effect is f and which an unpowered block carries out too: always a next state. -/
def runAlways (s : State) (f : Tx s → Tx s) : Host.Outcome State Fault Refusal := .next (f (Tx.start s)).finish.cur

/-- Whether the core domain is powered and clocked: neither in STANDBY nor without supplies (R473, R504). -/
def State.clocked (s : State) : Bool := !s.power.standby && !s.power.supplyDown

/-- The outcome of a command whose effect is f: always a next state. In STANDBY and without supplies nothing happens
(R472, Table 17.5). -/
def run (s : State) (f : Tx s → Tx s) : Host.Outcome State Fault Refusal :=
  runAlways s (fun t => if s.clocked then f t else t)

/-- The same for what the control processor's firmware does: nothing while it is in reset (R461). -/
def runCtl (s : State) (f : Tx s → Tx s) : Host.Outcome State Fault Refusal :=
  run s (fun t => if s.ctl.down then t else f t)

end Sys2Proof.Machine
end

