-- ==== Sys2Proof/Machine/Frames.lean ====
section
/-! DEFINITION. Ethernet, IPv4 and UDP as the block sends and reads them, what waits at a MAC to be sent (R202, R219), the
transmit timestamp queue (R246), and PTP messages and Sprinkler datagrams as they are sent (R241, R257, R258). -/

namespace Sys2Proof.Machine
open Sys2Proof

variable {s0 : State}

/-- Own address of MAC m in transmission order (Table 8.9). -/
def State.macAddr (s : State) (m : Nat) : Bytes := leBytes 6 (s.g 0x4800 m 0x03)

/-- Broadcast address. -/
def macBroadcast : Bytes := List.replicate 6 0xFF

/-- Ethernet group address of an IPv4 multicast address. -/
def groupMac (ip : Nat) : Bytes := [0x01, 0x00, 0x5E] ++ beBytes 3 (ip % 2 ^ 23)

/-- One's complement sum of 16-bit words in network order. -/
def onesSum : Bytes → Nat → Nat
  | [], acc => acc
  | [b], acc => let a := acc + b.toNat * 256; a % 65536 + a / 65536
  | b :: c :: r, acc =>
    let a := acc + b.toNat * 256 + c.toNat
    onesSum r (a % 65536 + a / 65536)

/-- Internet checksum. -/
def inetSum (b : Bytes) : Nat := 65535 - onesSum b 0

/-- An Ethernet frame of MAC m with its tag, padding and FCS (R199, Table 8.9). -/
def State.ethFrame (s : State) (m : Nat) (dst : Bytes) (etype : Nat) (payload : Bytes) : Bytes :=
  let vid := s.g 0x4800 m 0x04
  let tag := if vid == 0xFFFF then [] else beBytes 2 0x8100 ++ beBytes 2 (s.g 0x4800 m 0x05 * 2 ^ 13 + vid)
  let body := dst ++ s.macAddr m ++ tag ++ beBytes 2 etype ++ payload
  let body := body ++ zeros (60 - body.length)
  body ++ leBytes 4 (crc32 body)

/-- An IPv4 packet without options or fragments; identification 0 (assumption 30). -/
def ipv4 (proto src dst ttl dscp : Nat) (payload : Bytes) : Bytes :=
  let h (sum : Nat) : Bytes :=
    [0x45] ++ beBytes 1 (dscp * 4) ++ beBytes 2 (20 + payload.length) ++ beBytes 4 0 ++ beBytes 1 ttl ++
    beBytes 1 proto ++ beBytes 2 sum ++ beBytes 4 src ++ beBytes 4 dst
  h (inetSum (h 0)) ++ payload

/-- A UDP datagram without checksum (assumption 30). -/
def udp (sport dport : Nat) (payload : Bytes) : Bytes :=
  beBytes 2 sport ++ beBytes 2 dport ++ beBytes 2 (8 + payload.length) ++ beBytes 2 0 ++ payload

/-- IPv4 address of interface m. -/
def State.ip (s : State) (m : Nat) : Nat := s.g 0x4F00 m 0x01

/-- Whether MAC m can send: enabled and its link is up (R199). -/
def State.macUp (s : State) (m : Nat) : Bool := s.on 0x4800 m 0x01 && s.g 0x4800 m 0x07 == 1

/-! ## State of the MACs and of transmit streams -/

/-- State of a MAC and of a transmit stream beside their entries. -/
def State.macSt (s : State) (m : Nat) : MacSt := mget MacSt.init s.net.macs m
def State.tx (s : State) (i : Nat) : TxStream := mget TxStream.init s.net.tx i
def Tx.setMac (t : Tx s0) (m : Nat) (x : MacSt) : Tx s0 :=
  t.setNet { t.cur.net with macs := mputD MacSt.init m x t.cur.net.macs }
def Tx.setTxs (t : Tx s0) (i : Nat) (x : TxStream) : Tx s0 :=
  t.setNet { t.cur.net with tx := mputD TxStream.init i x t.cur.net.tx }

/-- Length of the frame of a UDP datagram of n bytes on MAC m (R199), with the tag where the MAC has one. -/
def State.udpFrame (s : State) (m n : Nat) : Nat :=
  max 64 (14 + 20 + 8 + n + 4 + (if s.g 0x4800 m 0x04 == 0xFFFF then 0 else 4))

/-- Counter cycles that a frame of n bytes takes at MAC m's speed, with preamble and gap. -/
def State.sendTime (s : State) (m n : Nat) : Nat := ceilDiv ((n + 20) * 8000) (max 1 (s.g 0x4800 m 0x08))

/-- Whether MAC m would start a frame at once: it is up, sends nothing, nothing waits and no pause holds it. -/
def State.macIdle (s : State) (m : Nat) : Bool :=
  let x := s.macSt m
  s.macUp m && x.out.isEmpty && x.busy.isNone && x.busyUntil ≤ s.clock && x.pauseUntil ≤ s.clock

/-! ## Timestamps of frames sent (R245, R246) -/

/-- Time of a start-of-frame delimiter on the network side, in ns: the instant plus the latency of the direction (R245). -/
def State.stampNs (s : State) (m : Nat) (egress : Bool) (c : Nat) : Nat :=
  ((s.nsAt c : Int) + signed 32 (s.g 0x5010 m (if egress then 0x02 else 0x01))).toNat

/-- Kind and identifier of a timestamp request (Table 9.5). -/
def StampReq.kind : StampReq → Nat
  | .sync _ _ => 0
  | .delayReq _ => 0
  | .dgram _ => 1
def StampReq.ident : StampReq → Nat
  | .sync q _ => q
  | .delayReq q => q
  | .dgram q => q % 2 ^ 16

/-- An entry of the transmit timestamp queue (Table 9.5). -/
def stampEntry (m : Nat) (r : StampReq) (ns : Nat) : Bytes :=
  leBytes 1 m ++ leBytes 1 r.kind ++ leBytes 2 r.ident ++ leBytes 10 (time80 ns) ++ [0, 0]

/-- A frame with a timestamp request starts on MAC m at counter c: an entry is pushed into the transmit timestamp
queue (R246); false when the push is refused. -/
def Tx.stampSent (t : Tx s0) (m c : Nat) (r : StampReq) : Bool × Tx s0 :=
  let q := t.cur.time.txq
  let t := t.inc 0x5010 m 0x03 1
  if 16 ≤ q.length then (false, (t.tally 0x5300 0 0x04).flagBit 0x5300 0 0x06 0)
  else
    let t := t.setTime { t.cur.time with txq := q ++ [(c, stampEntry m r (t.cur.stampNs m true c))] }
    (true, ((t.inc 0x5300 0 0x03 1).w 0x5300 0 0x01 (q.length + 1)).peak 0x5300 0 0x02 (q.length + 1))

/-- Firmware pops the oldest entry of the transmit timestamp queue, if there is one. An entry pushed in this very cycle
is not there yet: such a pop returns the idle item (R246, Table 7.4). -/
def Tx.stampPop (t : Tx s0) : Tx s0 :=
  match t.cur.time.txq with
  | [] => t
  | e :: q => if e.1 == t.cur.clock then t else (t.setTime { t.cur.time with txq := q }).w 0x5300 0 0x01 q.length

/-- The head entry that 0x5300:05 reads: the idle item when the queue is empty (R246). -/
def State.stampHead (s : State) : Bytes := (s.time.txq.map (·.2)).headD (0xFF :: zeros 15)

/-! ## PTP messages (R241; IEEE 1588-2019, assumption 51) -/

/-- 224.0.1.129, and the group address of IEEE 802.3. -/
def ptpGroup : Nat := 0xE0000181
def ptpMac : Bytes := [0x01, 0x1B, 0x19, 0x00, 0x00, 0x00]

/-- Clock identity in transmission order, and port identity as a number. -/
def State.ptpIdent (s : State) : Bytes := leBytes 8 (s.g 0x5001 0 0x16)
def State.ptpPort (s : State) : Nat := beNat (s.ptpIdent ++ [0, 1])

/-- Header and body of a message: type, flags, correction in 2^-16 ns, sequence, control and log interval. -/
def State.ptpMsg (s : State) (ty flags : Nat) (corr : Int) (seq ctl : Nat) (log : Int) (body : Bytes) : Bytes :=
  [byte ty, 0x12] ++ beBytes 2 (34 + body.length) ++ [byte (s.g 0x5001 0 0x04), 0] ++ beBytes 2 flags ++
  beBytes 8 (unsigned 64 corr) ++ zeros 4 ++ s.ptpIdent ++ [0, 1] ++ beBytes 2 seq ++
  [byte ctl, byte (unsigned 8 log)] ++ body

/-- A time in ns as a PTP timestamp. -/
def ptpStamp (ns : Nat) : Bytes := beBytes 6 (ns / 1000000000) ++ beBytes 4 (ns % 1000000000)

/-- The frame on MAC m of a message to one peer (Ethernet and IPv4 address) or to the group. -/
def State.ptpFrame (s : State) (m : Nat) (event : Bool) (peer : Option (Nat × Nat)) (b : Bytes) : Bytes :=
  let port := if event then 319 else 320
  if s.g 0x5001 0 0x07 == 1 then s.ethFrame m ptpMac 0x88F7 b
  else match peer with
    | some p => s.ethFrame m (beBytes 6 p.1) 0x0800 (ipv4 17 (s.ip m) p.2 1 46 (udp port port b))
    | none => s.ethFrame m (groupMac ptpGroup) 0x0800 (ipv4 17 (s.ip m) ptpGroup 1 46 (udp port port b))

/-! ## Sending (R202, R219) -/

/-- Rank of a waiting frame: its launch instant and then its stream's number for a media packet (R219), the instant from which
it may start for what firmware sends, which follows media packets of that instant. -/
def State.egressRank (s : State) (e : Egress) : Nat :=
  match e.copy with
  | some c => c.launch * 512 + c.stream
  | none => s.nsAt e.since * 512 + 256

/-- A waiting frame takes its place behind those of its rank and before those of a higher one. -/
def State.egressInsert (s : State) (e : Egress) : List Egress → List Egress
  | [] => [e]
  | d :: l => if s.egressRank e < s.egressRank d then e :: d :: l else d :: s.egressInsert e l

/-- A frame waits at MAC m. -/
def Tx.enqueue (t : Tx s0) (m : Nat) (e : Egress) : Tx s0 :=
  t.setMac m { t.cur.macSt m with out := t.cur.egressInsert e (t.cur.macSt m).out }

/-- Cells of the transmit share are freed. -/
def Tx.freeCells (t : Tx s0) (n : Nat) : Tx s0 :=
  (t.w 0x4900 0 0x04 (t.g 0x4900 0 0x04 - n)).inc 0x4900 0 0x02 n

/-- A copy of a packet has ended; its cells are freed when both have (R219). -/
def Tx.copyEnd (t : Tx s0) (c : MediaCopy) : Tx s0 :=
  let x := t.cur.tx c.stream
  match x.flights.find? (fun f => f.x == c.x) with
  | none => t
  | some f =>
    let rest := x.flights.filter (fun f => f.x != c.x)
    if f.left ≤ 1 then (t.setTxs c.stream { x with flights := rest }).freeCells f.cells.length
    else t.setTxs c.stream { x with flights := rest ++ [{ f with left := f.left - 1 }] }

/-- The first copy of a packet that starts counts it as sent (Table 8.14). -/
def Tx.copyStart (t : Tx s0) (c : MediaCopy) : Tx s0 :=
  let x := t.cur.tx c.stream
  if x.flights.any (fun f => f.x == c.x && f.started) then t
  else
    (t.setTxs c.stream
      { x with flights := x.flights.map (fun f => if f.x == c.x then { f with started := true } else f) }).tally
        0x4C00 c.stream 0x15

/-- A copy that cannot start in time on MAC m is discarded (R219). -/
def Tx.copyLate (t : Tx s0) (m : Nat) (c : MediaCopy) : Tx s0 :=
  let t := ((t.tally 0x4C00 c.stream 0x19).tally 0x4800 m 0x16).flagBit 0x4C00 c.stream 0x1B 4
  (t.flagBit 0x4800 m 0x17 3).copyEnd c

/-- What the timestamp of a frame started on MAC m at counter c leads to (R246): a Sync's Follow_Up waits behind it, a
Delay_Req's time is known; a refused one counts its Follow_Up as missing, or is abandoned. -/
def Tx.stamped (t : Tx s0) (m c : Nat) (r : StampReq) : Tx s0 :=
  let ns := t.cur.stampNs m true c
  let (ok, t) := t.stampSent m c r
  match r, ok with
  | .sync q log, true =>
    if t.cur.ctl.down then t
    else
      let f := t.cur.ptpFrame m false none (t.cur.ptpMsg 8 0 0 q 2 log (ptpStamp ns))
      t.enqueue m ⟨.frame f, f.length, t.cur.clock, none, none⟩
  | .sync _ _, false => (t.tally 0x5001 0 0x19).flagBit 0x5001 0 0x1B 3
  | .delayReq q, true => t.setTime { t.cur.time with reqWait := some (q, (ns * 65536 : Nat)) }
  | .delayReq _, false => t.setTime { t.cur.time with reqWait := none }
  | .dgram _, _ => t

/-- MAC m starts a frame at counter c. -/
def Tx.frameStart (t : Tx s0) (m c : Nat) (e : Egress) : Tx s0 :=
  let t := t.setMac m { t.cur.macSt m with busyUntil := c + t.cur.sendTime m e.len, busy := e.copy }
  let t := (t.emit (match e.what with
    | .frame f => .frame m f
    | .yexel f a p b => .yexel m f a p b)).tally 0x4800 m 0x0B
  let t := match e.copy with
    | some k => t.copyStart k
    | none => t
  match e.stamp with
  | some r => t.stamped m c r
  | none => t

/-- The frame that MAC m sends has ended. -/
def Tx.macDone (t : Tx s0) (m : Nat) : Tx s0 :=
  let x := t.cur.macSt m
  match x.busy with
  | some k => if x.busyUntil ≤ t.cur.clock then (t.setMac m { x with busy := none }).copyEnd k else t
  | none => t

/-- Counter at which MAC m can start a waiting frame: once the frame before it has ended and no pause holds it (R202). -/
def MacSt.startOf (x : MacSt) (e : Egress) : Nat := max e.since (max x.busyUntil x.pauseUntil)

/-- Frames that wait at MAC m start in their order, as far as the counter has come; a media copy whose time is over by
then is discarded (R219). -/
def Tx.macLoop (m : Nat) : Nat → Tx s0 → Tx s0
  | 0, t => t
  | n + 1, t =>
    let t := t.macDone m
    let x := t.cur.macSt m
    match x.out with
    | [] => t
    | e :: rest =>
      let c := x.startOf e
      if t.cur.clock < c then t
      else
        let t := t.setMac m { x with out := rest }
        match e.copy with
        | some k => ((if k.last < t.cur.nsAt c then t.copyLate m k else t.frameStart m c e)).macLoop m n
        | none => (t.frameStart m c e).macLoop m n

/-- Media copies that still wait at MAC m and can no longer start in time are discarded (R219). -/
def Tx.macExpire (t : Tx s0) (m : Nat) : Tx s0 :=
  let x := t.cur.macSt m
  let gone := x.out.filterMap (fun e => match e.copy with
    | some k => if k.last < t.cur.ns then some k else none
    | none => none)
  if gone.isEmpty then t
  else
    (t.setMac m { x with out := x.out.filter (fun e => match e.copy with
      | some k => !(k.last < t.cur.ns)
      | none => true) }).each gone (fun t k => t.copyLate m k)

/-- MAC m sends what it can up to the present reading of the counter (R202, R219). -/
def Tx.macRun (t : Tx s0) (m : Nat) : Tx s0 :=
  let x := t.cur.macSt m
  if x.out.isEmpty && x.busy.isNone then t
  else
    (if t.cur.macUp m then t.macLoop m (2 * x.out.length + 2) else t.macDone m).macExpire m

/-- A frame is handed to MAC m. What firmware sends on a MAC whose link is down is lost (R199, assumption 70). -/
def Tx.egress (t : Tx s0) (m : Nat) (e : Egress) : Tx s0 :=
  if e.copy.isNone && !t.cur.macUp m then t else (t.enqueue m e).macRun m

/-- MAC m sends a frame. -/
def Tx.sendFrame (t : Tx s0) (m : Nat) (f : Bytes) : Tx s0 := t.egress m ⟨.frame f, f.length, t.cur.clock, none, none⟩

/-- MAC m sends a frame with a timestamp request. -/
def Tx.sendStamped (t : Tx s0) (m : Nat) (f : Bytes) (r : StampReq) : Tx s0 :=
  t.egress m ⟨.frame f, f.length, t.cur.clock, none, some r⟩

/-- MAC m's link goes down: what firmware has sent and has not left is lost, the frame under way ends (R199); media copies
wait for their time to pass (R219). -/
def Tx.macCut (t : Tx s0) (m : Nat) : Tx s0 :=
  let t := t.macRun m
  let x := t.cur.macSt m
  let t := t.setMac m { x with pauseUntil := 0, pauseFrom := none, busyUntil := 0, busy := none,
                               out := x.out.filter (fun e => e.copy.isSome) }
  match x.busy with
  | some k => t.copyEnd k
  | none => t

/-- Media copies that wait to be sent are dropped and not counted: no packet is sent while the streams are stopped (R221). -/
def Tx.copiesDrop (t : Tx s0) : Tx s0 :=
  t.each (List.range 6) (fun t m =>
    let t := t.macRun m
    let x := t.cur.macSt m
    let gone := x.out.filterMap (fun e => e.copy)
    if gone.isEmpty then t
    else (t.setMac m { x with out := x.out.filter (fun e => e.copy.isNone) }).each gone (fun t c => t.copyEnd c))

/-! ## Sprinkler datagrams -/

/-- Whether the device is the Sprinkler head: in state HEAD, or in MISMATCH with HEAD before it (R254, R262; assumption
54). -/
def State.isHead (s : State) : Bool := s.g 0x5400 0 0x0D == 6 || (s.g 0x5400 0 0x0D == 5 && s.sprk.before == 6)

/-- Media time a number of cycles from now, which a message that leaves then carries as Sent at (R257, R260). -/
def State.sentAt (s : State) (wait : Nat) : Nat := s.now + (mediaAt s.fA (s.nsAt (s.clock + wait)) - mediaAt s.fA s.ns)

/-- Header, payload and tag of a Sprinkler message that leaves `wait` cycles from now (R257, Table 9.7). -/
def State.sprkMsg (s : State) (wait ty target seq records flags : Nat) (payload : Bytes) : Bytes :=
  let standby := if s.g 0x5400 0 0x02 == 3 && !s.isHead then 2 else 0
  let b := [0x01] ++ leBytes 1 ty ++ leBytes 2 (s.g 0x5400 0 0x03) ++ leBytes 2 (s.g 0x5400 0 0x01) ++
    leBytes 2 target ++ leBytes 4 (s.g 0x5400 0 0x0F) ++ leBytes 4 seq ++ leBytes 8 (s.sentAt wait) ++ leBytes 4 s.fA ++
    leBytes 2 payload.length ++ leBytes 1 records ++ leBytes 1 (Nat.lor flags standby) ++ payload
  b ++ (hmacSha256 (s.gb 0x5400 0 0x08) b).take 16

/-- Send a Sprinkler message `wait` cycles from now on its MAC and the backup MAC; a DATA datagram carries a timestamp
request (R246, R257). -/
def Tx.sprkSendAfter (t : Tx s0) (wait ty target seq records flags : Nat) (payload : Bytes) : Tx s0 :=
  let b := t.cur.sprkMsg wait ty target seq records flags payload
  let macs := [t.g 0x5400 0 0x06] ++ (if t.g 0x5400 0 0x07 == 0xFF then [] else [t.g 0x5400 0 0x07])
  t.each macs (fun t m =>
    let group := t.g 0x5400 0 0x04
    let port := t.g 0x5400 0 0x05
    let f := t.cur.ethFrame m (groupMac group) 0x0800 (ipv4 17 (t.cur.ip m) group 1 46 (udp port port b))
    t.egress m ⟨.frame f, f.length, t.cur.clock + wait, none, if ty == 0 then some (.dgram seq) else none⟩)

/-- Send a Sprinkler message now. -/
def Tx.sprkSend (t : Tx s0) (ty target seq records flags : Nat) (payload : Bytes) : Tx s0 :=
  t.sprkSendAfter 0 ty target seq records flags payload

/-- The head sends records in DATA datagrams of at most 23 records, in their order, and keeps copies (R256, R260). -/
def Tx.sprkData (t : Tx s0) (records : List Bytes) : Tx s0 :=
  t.each (chunks 23 records) (fun t rs =>
    let seq := (t.g 0x5400 0 0x10 + 1) % 2 ^ 32
    let payload := rs.foldl (· ++ ·) []
    let t := (t.w 0x5400 0 0x10 seq).sprkSend 0 0xFFFF seq rs.length 0 payload
    let kept := t.cur.sprk.kept ++ [(seq, rs.length, payload)]
    t.setSprk { t.cur.sprk with kept := kept.drop (kept.length - 8192), beatAt := t.cur.clock })

/-- Whether an object is replicated here (R255): a role other than off, and its bit of the mask set. -/
def State.replicated (s : State) (n : Nat) : Bool :=
  s.g 0x5400 0 0x02 != 0 && bit ((s.gb 0x5400 0 0x09).getD (n / 8) 0).toNat (n % 8)

/-- Lead Λ in samples (R256). -/
def State.lead (s : State) : Nat := ceilDiv (s.g 0x5400 0 0x0A * s.fA) 1000000

/-- Boundary L_s for records accepted at a on the head (R256). -/
def State.leadBoundary (s : State) (a : Nat) : Nat := 16 * ceilDiv (a + s.lead) 16

end Sys2Proof.Machine
end

