-- ==== Sys2Proof/Machine/Hedge.lean ====
section
/-! DEFINITION. Modulator channels and the Hedge (R271 to R297): carrier, modulation, sense frames, trips, temperature and
impedance. -/

namespace Sys2Proof.Machine
open Sys2Proof

variable {s0 : State}

/-- Whether MOD_EN is to be high: the Hedge is enabled and nothing holds it down (R282, R460, R473, R476). -/
def State.hedgeOn (s : State) : Bool := s.on 0x5A00 0 0x01 && !s.power.hedgeOff

/-! ## State -/

/-- State of channel c beside its entries. -/
def State.mod (s : State) (c : Nat) : HedgeCh := mget HedgeCh.init s.hedge.chans c
def Tx.setMod (t : Tx s0) (c : Nat) (x : HedgeCh) : Tx s0 :=
  t.setHedge { t.cur.hedge with chans := mputD HedgeCh.init c x t.cur.hedge.chans }

/-- State of channel c (Table 10.3). -/
def State.modState (s : State) (c : Nat) : Nat := s.g 0x5800 c 0x02

/-- Whether channel c is in STARTING or RUN, where trips act on it (R285). -/
def State.modLive (s : State) (c : Nat) : Bool := s.modState c == 2 || s.modState c == 3

/-- Whether channel c modulates: STARTING or RUN with its pins in use. -/
def State.modRuns (s : State) (c : Nat) : Bool := s.modLive c && !(s.mod c).quiet

/-- Setting :sub of a channel in force (R294). -/
def HedgeCh.set (x : HedgeCh) (sub : Nat) : Nat := nth x.cfg (sub - 3) 0

/-- The 24 channels. -/
def allMods : List Nat := List.range 24

/-- Current field of a frame, and voltage field (Table 10.2). -/
def frameI (w : Nat) : Int := signed 13 (bits w 28 16)
def frameV (w : Nat) : Int := signed 12 (bits w 15 4)

/-- CRC-4 of bits 31 to 4 (Table 10.2). -/
def crc4 (w : Nat) : Nat :=
  (List.range 28).foldl (fun c i =>
    let b := Nat.xor (c / 8) (w / 2 ^ (31 - i) % 2)
    let c := c * 2 % 16
    if b == 1 then Nat.xor c 3 else c) 0

/-- A valid frame (R280). -/
def frameValid (w : Nat) : Bool := bit w 31 && crc4 w == w % 16

/-- Whether |I| of a frame is above the channel's trip level. -/
def HedgeCh.above (x : HedgeCh) (w : Nat) : Bool :=
  F.toScaled (x.set 0x06) * 4096 < ((frameI w).natAbs : Int) * F.toScaled (x.set 0x04)

/-- Trace message of a channel (Table 18.3). -/
def Tx.modMsg (t : Tx s0) (c event cause : Nat) : Tx s0 :=
  let i := match (t.cur.mod c).last with
    | some w => unsigned 16 (frameI w)
    | none => 0x7FFF
  t.msg (352 + c) (leBytes 1 c ++ leBytes 1 event ++ leBytes 1 (t.cur.modState c) ++ leBytes 1 cause ++ leBytes 2 i ++ [0, 0])

/-- Channel c takes a state. -/
def Tx.modTo (t : Tx s0) (c st : Nat) : Tx s0 :=
  if t.cur.modState c == st then t else (t.w 0x5800 c 0x02 st).modMsg c 0 0

/-! ## Carrier (R276 to R278) -/

/-- Enabled protected frequencies: centre and half-width. -/
def State.protected_ (s : State) : List (Nat × Nat) :=
  ((List.range 32).filter (fun i => s.on 0x5900 i 0x01)).map (fun i => (s.g 0x5900 i 0x02, s.g 0x5900 i 0x03))

/-- Distance of the harmonics of f from one protected frequency, less its half-width. -/
def marginOf (f : Nat) (p : Nat × Nat) : Int :=
  let d := (range' 1 (30000000 / f)).map (fun h => (((h * f : Nat) : Int) - p.1).natAbs)
  (((d.foldl Nat.min 30000000 : Nat) : Int)) - p.2

/-- Margin of a candidate (R277). -/
def marginAll (f : Nat) (ps : List (Nat × Nat)) : Int := ps.foldl (fun m p => min m (marginOf f p)) 30000000

/-- Distance from the target. -/
def offTarget (target f : Nat) : Nat := ((f : Int) - target).natAbs

/-- Whether candidate f is better than the best so far: a larger margin m, then nearer the target. -/
def betterMargin (target : Nat) (best : Option (Nat × Int)) (f : Nat) (m : Int) : Bool :=
  match best with
  | none => true
  | some (g, n) => n < m || (n == m && offTarget target f < offTarget target g)

/-- Carrier that the Hedge selects, and whether it is a compromise (R277). -/
def State.carrier (s : State) : Nat × Bool :=
  let ps := s.protected_
  let target := s.g 0x5A00 0 0x02
  let guard : Int := s.g 0x5A00 0 0x03
  let fs := (List.range 181).map (fun i => 300000 + 1000 * i)
  let clear := fs.filter (fun f => guard < marginAll f ps)
  match clear.foldl (fun (b : Option Nat) f => match b with
      | none => some f
      | some g => if offTarget target f < offTarget target g then some f else some g) none with
  | some f => (f, false)
  | none =>
    ((fs.foldl (fun (b : Option (Nat × Int)) f =>
      let m := marginAll f ps
      if betterMargin target b f m then some (f, m) else b) none).getD (target, 0) |>.1, true)

/-- Show the margins at the carrier in force (0x5900[i]:05). -/
def Tx.showMargins (t : Tx s0) : Tx s0 :=
  t.each (List.range 32) (fun t i =>
    t.wi 0x5900 i 0x05 (if t.on 0x5900 i 0x01 then marginOf (t.g 0x5A00 0 0x04) (t.g 0x5900 i 0x02, t.g 0x5900 i 0x03) else 0))

/-- Level of g_h of a channel in dB at a time in half ns (R283, R284, R291), in fixed point. -/
def HedgeCh.startDb (x : HedgeCh) (h : Nat) : Int :=
  match x.ramp with
  | none => 0
  | some r =>
    let dt : Int := (h : Int) - r.t0
    if r.up then
      if dt ≤ 0 then -40 * X.one else if 100000000 ≤ dt then 0 else -40 * X.one + 40 * X.one * dt / 100000000
    else
      let a := X.ofF r.from_
      let b := if a < -40 * X.one then a else -40 * X.one
      if 20000000 ≤ dt then b else a + (b - a) * dt / 20000000

/-- Level of g_h in dB at a time in half ns: the start ramp and the fold-back; a ramp down leads g_h itself from where it
stands to −40 dB (R274, R278, R283). -/
def HedgeCh.gainDb (x : HedgeCh) (h : Nat) : Int :=
  match x.ramp with
  | some r => if r.up then x.startDb h + X.ofF x.fold else x.startDb h
  | none => X.ofF x.fold

/-! ## Modulation (R273 to R276, R279) -/

/-- Quotient rounded to the nearest integer, halves up. -/
def roundDiv (a b : Nat) : Nat := (2 * a + b) / (2 * b)

/-- Boundary of carrier period j in half ns (R276). -/
def State.boundary (s : State) (j : Nat) : Nat := s.hedge.epoch + roundDiv (j * 2000000000) (s.g 0x5A00 0 0x04)

/-- First carrier period whose boundary is at or after h half ns. -/
def State.periodFrom (s : State) (h : Nat) : Nat := ceilDiv ((h - s.hedge.epoch) * s.g 0x5A00 0 0x04) 2000000000

/-- Number of half-periods since the epoch whose centre lies before h half ns. -/
def State.halvesTo (s : State) (h : Nat) : Nat :=
  (((h - s.hedge.epoch) * s.g 0x5A00 0 0x04 - 1) / 500000000 + 1) / 2

/-- One step of a shaper (R275): the error terms after it and the half-width in half ns. -/
def shaper (e : List Nat) (h : F32) : List Nat × Int :=
  let e1 := nth e 0 0
  let e2 := nth e 1 0
  let e3 := nth e 2 0
  let three : F32 := 0x40400000
  let v := F.sub (F.add (F.sub h (F.mul three e1)) (F.mul three e2)) e3
  let q := F.toIntFloor (F.add (F.div v 0x3F000000) 0x3F000000) 0
  ([F.sub (F.mul 0x3F000000 (F.ofInt q)) v, e1, e2], q)

/-- One half-period k of channel c with index m in fixed point. -/
def HedgeCh.halfPeriod (x : HedgeCh) (f k : Nat) (m : Int) : HedgeCh × (Nat × Int × Int) :=
  let width := fun (y : Int) => X.toF ((X.one + y) * 1000000000 / (4 * f : Nat))
  let m := if k / 2 == x.startJ then 0 else m
  let (ea, qa) := shaper x.errA (width m)
  let (eb, qb) := shaper x.errB (width (-m))
  ({ x with errA := ea, errB := eb, half := k + 1 }, (k, qa, qb))

/-- Modulating value at the centre of half-period k in fixed point (R273): between the samples of the period under way. -/
def State.modValue (s : State) (y : HedgeCh) (k : Nat) : Int :=
  let f := s.g 0x5A00 0 0x04
  let x1 := nth y.xs 1 0
  let x0 := nth y.xs 2 0
  let (a, b) := s.hedge.span
  let d := 2 * (b - a) * f
  let at_ : Int := ((s.hedge.epoch : Int) - 2 * a) * f + ((2 * k + 1) * 500000000 : Nat)
  if d == 0 then x0 * X.one / 2 ^ 23 else (x0 * d + at_ * (x1 - x0)) * X.one / ((2 ^ 23 * d : Nat) : Int)

/-- The half-periods of channel c from the next one up to, but without, number `stop` go out: half-widths in half ns about
the centre of the carrier period (R274, R275). -/
def Tx.modFlush (t : Tx s0) (c stop : Nat) : Tx s0 :=
  let s := t.cur
  let y := s.mod c
  if !s.modRuns c || stop ≤ y.half then t
  else
    let f := s.g 0x5A00 0 0x04
    let r := (range' y.half (stop - y.half)).foldl (fun (acc : HedgeCh × List (Nat × Int × Int)) k =>
      let g := X.exp (X.mul (acc.1.gainDb (s.hedge.epoch + roundDiv ((2 * k + 1) * 500000000) f)) X.ln10 / 20)
      let m := X.mul (X.mul (X.ofF acc.1.mmax) (s.modValue acc.1 k)) (if X.one < g then X.one else g)
      let (z, e) := acc.1.halfPeriod f k m
      (z, acc.2 ++ [e])) (y, [])
    (t.setMod c r.1).emit (.pwm c r.2)

/-- What channel c has modulated up to the present reading of the counter goes out: before its ramp, its gain or its state
changes. -/
def Tx.modNow (t : Tx s0) (c : Nat) : Tx s0 := t.modFlush c (t.cur.halvesTo (2 * t.cur.clock))

/-- The bursts of MSENSE_CLK that begin before h half ns go out, while MOD_EN is high (R279). -/
def Tx.burstsTo (t : Tx s0) (h : Nat) : Tx s0 :=
  let s := t.cur
  let f := s.g 0x5A00 0 0x04
  let stop := ceilDiv ((h - s.hedge.epoch) * f) 1000000000
  if !s.on 0x5A00 0 0x06 || stop ≤ s.hedge.burst then t
  else
    (t.setHedge { s.hedge with burst := stop }).emit (.bursts s.hedge.epoch f s.hedge.burst (stop - s.hedge.burst))

/-- Start of a Domain A period on every channel: what was modulated in the period before goes out, then the sample that the
output map presents now is taken; zeros while the engines stand (R276). -/
def Tx.modulateAll (t : Tx s0) : Tx s0 :=
  let t := (t.each allMods (fun t c => t.modNow c)).burstsTo (2 * t.cur.clock)
  let s := t.cur
  let t := t.setHedge { s.hedge with span := (s.clock, max (s.clock + 1) (s.clockAt (s.now + 1) s.fA)) }
  t.each allMods (fun t c =>
    let y := t.cur.mod c
    let x := mget 0 s.maps.present (1536 + c)
    t.setMod c { y with xs := if x == 0 && y.xs.all (· == 0) then [] else (x :: y.xs).take 3 })

/-! ## Ramps down and retunes (R278, R283) -/

/-- Channel c ramps down to −40 dB over 10 ms (R283). -/
def Tx.modDown (t : Tx s0) (c why : Nat) : Tx s0 :=
  let t := t.modNow c
  let x := t.cur.mod c
  let h := 2 * t.cur.clock
  let fresh := t.setMod c { x with ramp := some ⟨false, h, X.toF (x.gainDb h), why⟩ }
  match x.ramp with
  | some r => if r.up then fresh else t.setMod c { x with ramp := some { r with why := min r.why why } }
  | none => fresh

/-- Channel c drives both pins low at h half ns, a boundary of carrier period j: it modulates up to there. -/
def Tx.modLow (t : Tx s0) (c j h : Nat) : Tx s0 :=
  let t := t.modFlush c (2 * j)
  (t.setHedge { t.cur.hedge with lowAt := ceilDiv h 2 }).emit (.modLow [c])

/-- A retune starts: every running channel ramps down (R278). -/
def Tx.retuneStart (t : Tx s0) : Tx s0 :=
  let t := (t.tally 0x5A00 0 0x05).flagBit 0x5A00 0 0x0F 0
  let t := t.setHedge { t.cur.hedge with retune := some (1, t.cur.clock) }
  t.each allMods (fun t c => if t.cur.modRuns c then t.modDown c 3 else t)

/-- The selection is recomputed after a write (R278). -/
def Tx.carrierSelect (t : Tx s0) : Tx s0 :=
  let (f, comp) := t.cur.carrier
  let t := t.when comp (fun t => t.flagBit 0x5A00 0 0x0F 1)
  let t := t.showMargins
  if t.cur.hedge.retune.isNone && f != t.g 0x5A00 0 0x04 then t.retuneStart else t

/-- Own rule of 0x5900[i] and of 0x5A00:02 and :03. -/
def carrierRule (idx inst sub : Nat) (d : Bytes) (t : Tx s0) : Tx s0 :=
  (if sub == 0x04 && idx == 0x5900 then t.wb idx inst sub d else t.w idx inst sub (leNat d)).carrierSelect

/-- The selection when the block starts with restored entries: nothing runs, so the carrier is in force at once (R277,
R439). -/
def Tx.carrierInit (t : Tx s0) : Tx s0 :=
  let (f, comp) := t.cur.carrier
  let t := t.when comp (fun t => t.flagBit 0x5A00 0 0x0F 1)
  let t := if f == t.g 0x5A00 0 0x04 then t
    else (t.w 0x5A00 0 0x04 f).setHedge { t.cur.hedge with epoch := 2 * t.cur.clock, burst := 0 }
  t.showMargins

/-- OLD_CARRIER_STOP (R278): at the first boundary of the old carrier 10 ms after a retune began, all its channels drive
their pins low together. -/
def execOldCarrierStop (s : State) : Host.Outcome State Fault Refusal :=
  run s fun t =>
    match s.hedge.retune with
    | some (1, a) =>
      let j := s.periodFrom (2 * (a + msC 10))
      let h := s.boundary j
      if 2 * s.clock < h then t
      else
        let t := t.each allMods (fun t c =>
          if !t.cur.modRuns c then t
          else
            let t := t.modLow c j h
            let t := t.setMod c { t.cur.mod c with quiet := true, ramp := none }
            if t.on 0x5800 c 0x01 then t else (t.setMod c { t.cur.mod c with quiet := false }).modTo c 0)
        t.setHedge { t.cur.hedge with retune := some (2, ceilDiv h 2), lowAt := ceilDiv h 2 }
    | _ => t

/-- Channel c begins the start sequence at boundary j of the carrier (R284). -/
def Tx.modStart (t : Tx s0) (c j : Nat) : Tx s0 :=
  let s := t.cur
  let x := s.mod c
  let tj := s.boundary (j + 1)
  (t.setMod c { x with quiet := false, ramp := some ⟨true, tj, 0, 0⟩, mmax := s.g 0x5A00 0 0x0D, startJ := j, half := 2 * j,
                       errA := [0, 0, 0], errB := [0, 0, 0], overs := 0, vdc := 0, dcRun := 0 }).modTo c 2

/-- NEW_CARRIER (R278): 1 ms after the pins went low the selected carrier starts with a new epoch; no burst of the old one
is heard on it. -/
def execNewCarrier (s : State) : Host.Outcome State Fault Refusal :=
  run s fun t =>
    match s.hedge.retune with
    | some (2, a) =>
      if s.clock < a + msC 1 then t
      else
        let at_ := a + msC 1
        let t := (t.burstsTo (2 * at_)).w 0x5A00 0 0x04 s.carrier.1
        let t := (t.setHedge { t.cur.hedge with retune := none, epoch := 2 * at_, burst := 0 }).showMargins
        t.each allMods (fun t c =>
          let t := t.setMod c { t.cur.mod c with recent := [] }
          if (t.cur.mod c).quiet && t.cur.hedgeOn && (t.cur.modState c == 2 || t.cur.modState c == 3) then t.modStart c 0
          else t)
    | _ => t

/-! ## Enable and disable (R281 to R284) -/

/-- MOD_EN rises if it is to be high and is low (R282). -/
def Tx.modEnable (t : Tx s0) : Tx s0 :=
  if !t.cur.hedgeOn || t.on 0x5A00 0 0x06 then t
  else
    let s := t.cur
    let first := ceilDiv ((2 * s.clock - s.hedge.epoch) * s.g 0x5A00 0 0x04) 1000000000
    ((t.w 0x5A00 0 0x06 1).setHedge { s.hedge with enAt := s.clock, burst := first }).emit (.pin "MOD_EN" 1)

/-- Every channel in STARTING or RUN ramps down (R282, R283). -/
def Tx.modsDown (t : Tx s0) : Tx s0 :=
  let t := t.setHedge { t.cur.hedge with lowAt := t.cur.clock }
  t.each allMods (fun t c => if t.cur.modRuns c then t.modDown c 2 else t)

/-- The Hedge is held down, or let up again (R460, R473, R476). -/
def Tx.hedgeHold (t : Tx s0) : Tx s0 := (t.setPower { t.cur.power with hedgeOff := true }).modsDown
def Tx.hedgeFree (t : Tx s0) : Tx s0 := (t.setPower { t.cur.power with hedgeOff := false }).modEnable

/-- Own rule of 0x5A00:01 (R282). -/
def hedgeRule (d : Bytes) (t : Tx s0) : Tx s0 :=
  let on := leNat d == 1
  if on == t.on 0x5A00 0 0x01 then t
  else if on then (t.w 0x5A00 0 0x01 1).modEnable
  else (t.w 0x5A00 0 0x01 0).modsDown

/-- HEDGE_ENABLE and HEDGE_DISABLE (R282): writes of 0x5A00:01. -/
def execHedgeEnable (h : Nat) (d : Bytes) (s : State) : Host.Outcome State Fault Refusal :=
  run s fun t => t.guarded h (opOf 0x5A00 0 0x01 d) (hedgeRule d)
def execHedgeDisable (h : Nat) (d : Bytes) (s : State) : Host.Outcome State Fault Refusal :=
  run s fun t => t.guarded h (opOf 0x5A00 0 0x01 d) (hedgeRule d)

/-- A channel whose ramp down has ended, at the first carrier period boundary after it: why, the period and its boundary
(R283). -/
def State.downEnded (s : State) (c : Nat) : Option (Nat × Nat × Nat) :=
  match (s.mod c).ramp with
  | some r =>
    let j := s.periodFrom (r.t0 + 20000000)
    if !r.up && s.boundary j ≤ 2 * s.clock then some (r.why, j, s.boundary j) else none
  | none => none

/-- HEDGE_RAMP_DOWN_END (R282): channel n's ramp ends after the Hedge was disabled; it keeps its state. -/
def execHedgeRampDownEnd (n : Nat) (s : State) : Host.Outcome State Fault Refusal :=
  run s fun t =>
    match s.downEnded n with
    | some (2, j, h) =>
      if !s.modRuns n then t
      else
        let t := t.modLow n j h
        t.setMod n { t.cur.mod n with quiet := true, ramp := none }
    | _ => t

/-- MOD_EN_FALL (R282): 1 ms after the last channel drove its pins low. -/
def execModEnFall (s : State) : Host.Outcome State Fault Refusal :=
  run s fun t =>
    if s.hedgeOn || !s.on 0x5A00 0 0x06 || allMods.any s.modRuns || s.clock < s.hedge.lowAt + msC 1 then t
    else (((t.burstsTo (2 * (s.hedge.lowAt + msC 1))).w 0x5A00 0 0x06 0).emit (.pin "MOD_EN" 0)).emit (.pin "MSENSE_CLK" 0)

/-- Own rule of 0x5800[c]:01 (R281, R283). -/
def channelRule (c : Nat) (d : Bytes) (t : Tx s0) : Tx s0 :=
  let on := leNat d == 1
  let t := t.w 0x5800 c 0x01 (leNat d)
  let st := t.cur.modState c
  if on then (if st == 0 then t.modTo c 1 else t)
  else if st == 1 then t.modTo c 0
  else if st == 2 || st == 3 then
    if (t.cur.mod c).quiet then (t.setMod c { t.cur.mod c with quiet := false }).modTo c 0 else t.modDown c 1
  else t

/-- CHANNEL_ENABLE and CHANNEL_DISABLE (R281, R283): writes of 0x5800[c]:01. -/
def execChannelEnable (h n : Nat) (d : Bytes) (s : State) : Host.Outcome State Fault Refusal :=
  run s fun t => t.guarded h (opOf 0x5800 n 0x01 d) (channelRule n d)
def execChannelDisable (h n : Nat) (d : Bytes) (s : State) : Host.Outcome State Fault Refusal :=
  run s fun t => t.guarded h (opOf 0x5800 n 0x01 d) (channelRule n d)

/-- CHANNEL_OFF (R283): at the end of the disable ramp, at a carrier period boundary; a channel enabled again meanwhile
goes on to HELD. -/
def execChannelOff (n : Nat) (s : State) : Host.Outcome State Fault Refusal :=
  run s fun t =>
    match s.downEnded n with
    | some (1, j, h) =>
      if !s.modRuns n then t
      else
        let t := t.modLow n j h
        let t := (t.setMod n { t.cur.mod n with ramp := none }).modTo n 0
        if s.on 0x5800 n 0x01 then t.modTo n 1 else t
    | _ => t

/-- Whether the start conditions of R284 hold for channel c. -/
def State.canStart (s : State) (c : Nat) : Bool :=
  let x := s.mod c
  s.on 0x5800 c 0x01 && (s.modState c == 1 || (x.quiet && (s.modState c == 2 || s.modState c == 3))) &&
  s.hedgeOn && s.on 0x5A00 0 0x06 && s.hedge.enAt + msC 1 ≤ s.clock && s.hedge.retune.isNone &&
  (if x.set 0x03 == 1 then 16 ≤ x.valid else bit (s.g 0x5A00 0 0x0E) (c / 8))

/-- CHANNEL_START (R284): the first carrier period boundary at which the start conditions hold. -/
def execChannelStart (n : Nat) (s : State) : Host.Outcome State Fault Refusal :=
  run s fun t =>
    if s.canStart n then t.modStart n (s.periodFrom (2 * s.clock)) else t

/-- START_RAMP_END (R284): 50 ms after the first period. -/
def execStartRampEnd (n : Nat) (s : State) : Host.Outcome State Fault Refusal :=
  run s fun t =>
    let x := s.mod n
    match x.ramp with
    | some r =>
      if r.up && s.modState n == 2 && r.t0 + 100000000 ≤ 2 * s.clock then
        let t := t.modNow n
        (t.setMod n { t.cur.mod n with ramp := none }).modTo n 3
      else t
    | none => t

/-! ## Trips (R285 to R289) -/

/-- Record of a trip (Table 10.8). -/
def tripRecord (now c cause : Nat) (last : Option Nat) (n st : Nat) : Bytes :=
  let i := match last with
    | some w => unsigned 16 (frameI w)
    | none => 0x7FFF
  leBytes 8 now ++ leBytes 1 c ++ leBytes 1 cause ++ leBytes 2 i ++ leBytes 1 n ++ leBytes 1 st ++ [0, 0]

/-- The pins of channel c go low at once (R285). -/
def Tx.modCut (t : Tx s0) (c : Nat) : Tx s0 := (t.modNow c).when (t.cur.modRuns c) (fun t => t.emit (.modLow [c]))

/-- Channel c trips (R285, R287, R288). -/
def Tx.tripNow (t : Tx s0) (c cause : Nat) : Tx s0 :=
  let t := t.modCut c
  let s := t.cur
  let x := s.mod c
  let times := s.clock :: x.trips.filter (fun a => s.clock < a + secC 10)
  let n := min 3 times.length
  let st := if cause == 5 || 3 ≤ times.length then 5 else 4
  let log := s.gb 0x5A00 0 0x07 ++ tripRecord s.now c cause x.last n st
  let t := t.when (4096 < log.length) (fun t => t.tally 0x5A00 0 0x09)
  let t := t.wb 0x5A00 0 0x07 (log.drop (log.length - 4096))
  let t := (t.tally 0x5800 c 0x12).tally 0x5A00 0 0x08
  let t := ((t.w 0x5800 c 0x14 cause).w 0x5800 c 0x15 s.now).w 0x5800 c 0x13 n
  let t := (t.flagBit 0x5800 c 0x1C (if st == 5 then 7 else 6)).when (st == 5) (fun t => t.flagBit 0x5A00 0 0x0F 2)
  let t := t.when (cause == 3) (fun t => t.flagBit 0x5A00 0 0x0F 3)
  let t := t.setMod c { x with trips := times, ramp := none, quiet := false, overs := 0 }
  let t := t.when (s.modRuns c) (fun t => t.setHedge { t.cur.hedge with lowAt := s.clock })
  let t := (t.w 0x5800 c 0x02 st).freezeOn 1
  t.modMsg c 1 cause

/-- Records of the trip log, newest first, with a new cause and state for channel c's newest. -/
def recauseGo (c cause st : Nat) : List Bytes → List Bytes
  | [] => []
  | r :: rs =>
    if fieldLE r 8 1 == c then (r.take 9 ++ [byte cause] ++ slice r 10 3 ++ [byte st] ++ r.drop 14) :: rs
    else r :: recauseGo c cause st rs

/-- Whether channel c has tripped in this very cycle. -/
def State.tripping (s : State) (c : Nat) : Bool :=
  (s.modState c == 4 || s.modState c == 5) && (s.mod c).trips.head? == some s.clock

/-- The trip message of this cycle of channel c, which its cycle still holds, takes another state and cause (Table 18.3). -/
def Tx.retell (t : Tx s0) (c st cause : Nat) : Tx s0 :=
  let at_ := t.cur.clock
  let f := fun (e : TraceEv) =>
    if e.at_ == at_ && e.type == 352 + c && fieldLE e.payload 1 1 == 1 then
      { e with payload := e.payload.take 2 ++ [byte st, byte cause] ++ e.payload.drop 4 }
    else e
  (t.setMsgs (t.cur.msgs.map f)).setTrace { t.cur.trace with wait := t.cur.trace.wait.map f }

/-- The trip that channel c has made in this very cycle is recorded with a lower cause instead, and with what that cause leads
to (R286 to R288). -/
def Tx.recause (t : Tx s0) (c cause : Nat) : Tx s0 :=
  let s := t.cur
  let old := s.g 0x5800 c 0x14
  let st := if 3 ≤ (s.mod c).trips.length then 5 else 4
  let log := (recauseGo c cause st (chunks 16 (s.gb 0x5A00 0 0x07)).reverse).reverse
  let others := allMods.filter (fun k => k != c && s.tripping k)
  let t := ((t.w 0x5800 c 0x14 cause).wb 0x5A00 0 0x07 (log.foldl (· ++ ·) [])).w 0x5800 c 0x02 st
  let t := t.retell c st cause
  let t := t.when (s.modState c != st) (fun t =>
    ((t.unflag 0x5800 c 0x1C 7).flagBit 0x5800 c 0x1C 6).when (others.all (fun k => s.modState k != 5))
      (fun t => t.unflag 0x5A00 0 0x0F 2))
  let t := t.when (cause == 3) (fun t => t.flagBit 0x5A00 0 0x0F 3)
  t.when (old == 3 && others.all (fun k => s.g 0x5800 k 0x14 != 3)) (fun t => t.unflag 0x5A00 0 0x0F 3)

/-- A cause falls due for channel c (R286): a channel in STARTING or RUN trips; one that has tripped in this very cycle has
the lowest of its causes recorded; any other ignores it. -/
def Tx.trip (t : Tx s0) (c cause : Nat) : Tx s0 :=
  if t.cur.tripping c then (if t.g 0x5800 c 0x14 ≤ cause then t else t.recause c cause)
  else if t.cur.modLive c then t.tripNow c cause
  else t

/-- Bursts since the epoch that have ended when the counter reads c (R279): 325 ns after their boundary. -/
def State.burstsEnded (s : State) (c : Nat) : Nat :=
  if 2 * c < s.hedge.epoch + 650 then 0
  else (2 * c - 650 - s.hedge.epoch) * s.g 0x5A00 0 0x04 / 1000000000 + 1

/-- Burst that a frame received at the counter c of channel n came in: the last one ended, if MOD_EN was high as it began
and no frame of it has come yet. -/
def State.burstOf (s : State) (n c : Nat) : Option Nat :=
  let k := s.burstsEnded c
  if !s.on 0x5A00 0 0x06 || k == 0 || (k - 1) * 1000000000 < (2 * s.hedge.enAt - s.hedge.epoch) * s.g 0x5A00 0 0x04 ||
     (s.mod n).recent.any (fun r => k ≤ r.1 + 1) then none
  else some (k - 1)

/-- SENSE_FRAME (R280, R286): the frame of channel n in the burst that ended when the counter read `clock`. -/
def execSenseFrame (n word clock : Nat) (s : State) : Host.Outcome State Fault Refusal :=
  run s fun t =>
    let t := t.at_ clock
    let w := word % 2 ^ 32
    let x := s.mod n
    let need := x.set 0x03 == 1
    match t.cur.burstOf n t.cur.clock with
    | none => t
    | some k =>
    if frameValid w then
      let a := (frameI w).natAbs
      let n2 := if x.above w then x.overs + 1 else 0
      let x := { x with valid := min 16 (x.valid + 1), invalid := 0, overs := min 2 n2, last := some w,
                        recent := ((k, some w) :: x.recent).take 2, sumV := x.sumV + frameV w,
                        sumV2 := x.sumV2 + (frameV w).natAbs * (frameV w).natAbs, sumI2 := x.sumI2 + a * a,
                        frames := x.frames + 1, peak := max x.peak a,
                        runI2 := if s.modRuns n then x.runI2 + a * a else x.runI2 }
      let t := (t.setMod n x).when (bit w 29) (fun t => t.flagBit 0x5800 n 0x1C 0)
      if need && 2 ≤ n2 then t.trip n 1 else t
    else
      let x := { x with valid := 0, invalid := min 8 (x.invalid + 1), recent := ((k, none) :: x.recent).take 2 }
      let t := ((t.setMod n x).inc 0x5800 n 0x1B 1).flagBit 0x5800 n 0x1C 5
      if need && 8 ≤ x.invalid then t.trip n 4 else t

/-- FAULT_EDGE (R286): a falling edge of FAULTn_N is recognised when the counter reads `clock`. -/
def execFaultEdge (n clock : Nat) (s : State) : Host.Outcome State Fault Refusal :=
  run s fun t =>
    let t := t.at_ clock
    let t := (t.inc 0x5A00 0 (0x0A + n) 1).w 0x5A00 0 0x0E (putBit (s.g 0x5A00 0 0x0E) n false)
    t.setHedge { t.cur.hedge with faults := t.cur.hedge.faults ++ [(n, t.cur.clock)] }

/-- First burst that begins after counter c and is heard: MOD_EN is high as it begins (R279, R282). -/
def State.burstAfter (s : State) (c : Nat) : Nat :=
  let f := s.g 0x5A00 0 0x04
  let next := if 2 * c < s.hedge.epoch then 0 else (2 * c - s.hedge.epoch) * f / 1000000000 + 1
  if s.on 0x5A00 0 0x06 then max next (ceilDiv ((2 * s.hedge.enAt - s.hedge.epoch) * f) 1000000000) else next

/-- Whether the burst that identifies a fault recognised at counter r has ended (R286); while MOD_EN is low no further burst
begins. -/
def State.faultDue (s : State) (r : Nat) : Bool :=
  let k := s.burstAfter r
  k < s.burstsEnded s.clock && (s.on 0x5A00 0 0x06 || k < s.hedge.burst)

/-- Whether channel c is identified as the cause of its group's fault by its frame in burst k or in the burst before
(R286); a channel that its over-current trips in this very cycle is. -/
def State.identified (s : State) (k c : Nat) : Bool :=
  let x := s.mod c
  (s.modLive c || s.tripping c) && x.set 0x03 == 1 && x.recent.any (fun r => r.1 ≤ k && k ≤ r.1 + 1 && (match r.2 with
    | some w => bit w 30 || x.above w
    | none => false))

/-- A recognised edge of FAULTn_N leads to its trips: those of the channels identified, or of the whole group (R286). -/
def Tx.faultTrips (t : Tx s0) (n r : Nat) : Tx s0 :=
  let group := range' (8 * n) 8
  let found := group.filter (t.cur.identified (t.cur.burstAfter r))
  if found.isEmpty then t.each group (fun t c => t.trip c 3) else t.each found (fun t c => t.trip c 2)

/-- FAULT_IDENTIFY (R286): the first burst that began after recognition has ended by the reading `clock`. Every edge of the
group whose burst has ended is decided, oldest first. -/
def execFaultIdentify (n clock : Nat) (s : State) : Host.Outcome State Fault Refusal :=
  run s fun t =>
    let t := t.at_ clock
    let s := t.cur
    let due := s.hedge.faults.filter (fun p => p.1 == n && s.faultDue p.2)
    let t := t.setHedge { s.hedge with faults := s.hedge.faults.filter (fun p => !due.contains p) }
    t.each due (fun t p => t.faultTrips n p.2)

/-- RETRY (R288): 200 ms after the trip decision. -/
def execRetry (n : Nat) (s : State) : Host.Outcome State Fault Refusal :=
  run s fun t =>
    let x := s.mod n
    if s.modState n != 4 || !s.on 0x5800 n 0x01 || s.clock < x.trips.headD 0 + msC 200 then t
    else
      let ok := if x.set 0x03 == 1 then
          (match x.last with
           | some w => !bit w 30 && !x.above w
           | none => false)
        else bit (s.g 0x5A00 0 0x0E) (n / 8)
      if ok then t.modTo n 1 else t.tripNow n (s.g 0x5800 n 0x14)

/-- Own rule of 0x5800[c]:11 (R289). -/
def clearLatchRule (c : Nat) (t : Tx s0) : Tx s0 :=
  if t.cur.modState c != 5 then t.status stState
  else
    let t := (t.w 0x5800 c 0x13 0).setMod c { t.cur.mod c with trips := [] }
    t.modTo c (if t.on 0x5800 c 0x01 then 1 else 0)

/-- CLEAR_LATCH (R289): write of 0x5800[c]:11. -/
def execClearLatch (h n : Nat) (d : Bytes) (s : State) : Host.Outcome State Fault Refusal :=
  run s fun t => t.guarded h (opOf 0x5800 n 0x11 d) (clearLatchRule n)

/-- Own rule of 0x5A00:10, and CLEAR_TRIP_LOG (R287). -/
def clearTripLogRule (t : Tx s0) : Tx s0 := t.wb 0x5A00 0 0x07 []
def execClearTripLog (h : Nat) (d : Bytes) (s : State) : Host.Outcome State Fault Refusal :=
  run s fun t => t.guarded h (opOf 0x5A00 0 0x10 d) clearTripLogRule

/-- Own rule of 0x5800[c]:04 and :06: neither passes the other as it is in force (R294). -/
def fullScaleRule (c sub : Nat) (d : Bytes) (t : Tx s0) : Tx s0 :=
  let x := t.cur.mod c
  let v := leNat d
  if sub == 0x04 && F.lt v (x.set 0x06) || sub == 0x06 && F.lt (x.set 0x04) v then t.status stOutOfRange
  else t.w 0x5800 c sub v

/-! ## DC, temperature and impedance (R290 to R292) -/

/-- 1 − exp(−(16 / f_A) / τ) in binary32. -/
def blockFactor (fA : Nat) (tau : Int) : F32 := X.toF (X.one - X.exp (-(X.div (16 * X.one / fA) tau)))

/-- Mean of squares in the square of a full scale: Σ² / n · (fs / lsb)², in binary32. -/
def meanSquare (sum n lsb : Nat) (fs : F32) : F32 :=
  let u := F.div fs (F.ofNat lsb)
  F.mul (F.ofRat false sum (max 1 n)) (F.mul u u)

/-- Fold-back target (R291). -/
def HedgeCh.foldTarget (x : HedgeCh) (rise : F32) : F32 :=
  let excess := F.max2 0 (F.sub rise (F.sub (x.set 0x0D) 0x41A00000))
  let v := F.max2 0xC2200000 (F.neg (F.mul (x.set 0x0E) excess))
  match x.last with
  | some w => if bit w 29 then F.min2 v 0xC0C00000 else v
  | none => v

/-- One channel at the end of a render block. Frames that came while its pins were low count as 0 in its power; the frames of the
impedance window count with the full scales of their block. -/
def Tx.hedgeChannel (t : Tx s0) (c : Nat) : Tx s0 :=
  let t := t.modNow c
  let s := t.cur
  let x := s.mod c
  let fA := s.fA
  let ifs := x.set 0x04
  let vfs := x.set 0x05
  let vb := F.div (F.mul (F.ofIntRat x.sumV (max 1 x.frames)) vfs) (F.ofNat 2048)
  let vdc := if x.frames == 0 then x.vdc else F.add x.vdc (F.mul (blockFactor fA (X.one / 10)) (F.sub vb x.vdc))
  let dcRun := if F.lt (x.set 0x07) (F.abs vdc) then x.dcRun + 1 else 0
  let p := F.mul (x.set 0x08) (meanSquare x.runI2 x.frames 4096 ifs)
  let node := fun (v r tau : F32) => F.add v (F.mul (blockFactor fA (X.ofF tau)) (F.sub (F.mul p r) v))
  let coil := node x.coil (x.set 0x09) (x.set 0x0A)
  let magnet := node x.magnet (x.set 0x0B) (x.set 0x0C)
  let rise := F.add coil magnet
  let target := x.foldTarget rise
  let down := F.sub x.fold (F.ofRat false (20 * 16) fA)
  let up := F.add x.fold (F.ofRat false (2 * 16) fA)
  let fold := F.min2 0 (F.clamp down up target)
  let rms2 := fun (a n : Nat) (lsb pct div : Nat) => n != 0 && a * (100 * div) * (100 * div) ≥ pct * pct * lsb * lsb * n
  let counts := rms2 x.sumI2 x.frames 4096 1 1
  let len := fA / 160
  let win := ((x.sumV2, x.sumI2, x.frames) :: x.win).take len
  let wv := sumN (win.map (fun e => e.1))
  let wi := sumN (win.map (fun e => e.2.1))
  let wn := sumN (win.map (fun e => e.2.2))
  let open_ := win.length == len && rms2 wv wn 2048 5 1 && !rms2 wi wn 4096 2 10
  let t := t.setMod c { x with
    sumV := 0, sumV2 := 0, sumI2 := 0, frames := 0, peak := 0, runI2 := 0, vdc := vdc, dcRun := dcRun, coil := coil, magnet := magnet,
    fold := fold, win := if wn == 0 then [] else win, zV2 := if counts then x.zV2 + x.sumV2 * (F.toScaled vfs).natAbs ^ 2 else x.zV2,
    zI2 := if counts then x.zI2 + x.sumI2 * (F.toScaled ifs).natAbs ^ 2 else x.zI2, zBlocks := if counts then x.zBlocks + 1 else x.zBlocks,
    cfg := (List.range 14).map (fun i => s.g 0x5800 c (3 + i)) }
  let t := (t.w 0x5800 c 0x16 rise).w 0x5800 c 0x17 fold
  let t := (t.w 0x5800 c 0x19 (F.div (F.mul (F.ofNat x.peak) ifs) (F.ofNat 4096))).w 0x5800 c 0x1A vdc
  let t := t.w 0x5800 c 0x13 (min 3 (x.trips.filter (fun a => s.clock < a + secC 10)).length)
  let t := (t.when (F.lt fold 0) (fun t => t.flagBit 0x5800 c 0x1C 1)).when open_ (fun t => t.flagBit 0x5800 c 0x1C 4)
  if x.set 0x03 == 1 && fA / 80 ≤ dcRun then t.trip c 5 else t

/-- HEDGE_BLOCK (R290, R291): once in each render block. -/
def execHedgeBlock (s : State) : Host.Outcome State Fault Refusal :=
  run s fun t =>
    if s.now / 16 ≤ s.hedge.block then t
    else (t.setHedge { s.hedge with block := s.now / 16 }).each allMods (fun t c => t.hedgeChannel c)

/-- IMPEDANCE_WINDOW (R292): channel n's window of 1 s ends. -/
def execImpedanceWindow (n : Nat) (s : State) : Host.Outcome State Fault Refusal :=
  run s fun t =>
    let x := s.mod n
    if s.now < x.zAt + s.fA then t
    else
      let t := t.setMod n { x with zV2 := 0, zI2 := 0, zBlocks := 0, zAt := s.now }
      if x.zBlocks < s.fA / 160 || x.zI2 == 0 then t
      else
        let z := X.toF (2 * X.sqrt (X.div (x.zV2 * X.one) (x.zI2 * X.one)))
        let part := F.div (F.mul (x.set 0x0F) (x.set 0x10)) (F.ofNat 100)
        let t := t.w 0x5800 n 0x18 z
        let t := t.when (F.lt z (F.sub (x.set 0x0F) part)) (fun t => t.flagBit 0x5800 n 0x1C 2)
        t.when (F.lt (F.add (x.set 0x0F) part) z) (fun t => t.flagBit 0x5800 n 0x1C 3)

end Sys2Proof.Machine
end

