-- ==== Sys2Proof/Machine/Store.lean ====
section
/-! DEFINITION. The store (R434 to R442): images, saves and their end. -/

namespace Sys2Proof.Machine
open Sys2Proof

variable {s0 : State}

/-- Number of index-and-instance places of a block. -/
def Block.places (b : Block) : Nat := (b.last + 1 - b.first) * max b.insts 1

/-- Record bytes of the numeric persistent entries of every instance: an 8-byte header and the padded value (R435). -/
def numericRecordBytes : Nat :=
  sumN (blocks.map (fun b =>
    b.places * sumN (b.ents.map (fun e => if e.pers && !e.ty.isBytes then 8 + up4 e.ty.size else 0))))

/-- Number of persistent entries of every instance. -/
def persistentCount : Nat := sumN (blocks.map (fun b => b.places * (b.ents.filter (·.pers)).length))

/-- Record bytes of the STR and BLOB persistent entries at their reset lengths, by instance. -/
def bytesRecordBytes : Nat :=
  sumN (blocks.map (fun b =>
    sumN (b.ents.map (fun e =>
      if e.pers && e.ty.isBytes then
        sumN ((List.range b.places).map (fun i =>
          let k := if b.insts == 0 then K (b.first + i) 0 e.sub else K b.first i e.sub
          8 + up4 (dfltBlob k).length))
      else 0))))

/-- The image of the values in force (R434). Node writes accepted while the engines stand belong to the live set from the first
sample computed (R154), so an image saved before it holds the nodes without them (DESIGN CHOICE; assumption 64). -/
def State.image (s : State) : Image :=
  let vals := s.dict.filter (fun p => persistent p.1)
  let blobs := s.blobs.filter (fun p => persistent p.1)
  let nodes := s.liveSet
  let extra := sumI (blobs.map (fun p => ((up4 p.2.length : Nat) : Int) - (up4 (dfltBlob p.1).length : Nat)))
  { vals := vals, blobs := blobs, nodes := nodes, empty := false,
    bytes := ((64 + numericRecordBytes + bytesRecordBytes + 8 * nodes.length + 8 * ((nodes.length + 1023) / 1024) : Nat) + extra).toNat }

/-- Records of the live Trellis set in an image: records of 0x3C00:01 with up to 1,024 nodes each in the layout of Table 6.7
(DESIGN CHOICE; assumption 64). -/
def nodeRecords (nodes : List (Nat × Nat × Bool)) : List Bytes :=
  (chunks 1024 nodes).map (fun l => l.flatMap (fun n =>
    [byte (n.1 % 256), byte (n.1 / 256), 0xFF, byte (b2n n.2.2)] ++ leBytes 4 n.2.1))

/-- Keys of the persistent entries in the order in which a save writes them (R439): 0x3F00:01 first, then ascending by index,
sub-index and instance. -/
def recordKeys : List Nat :=
  K 0x3F00 0 0x01 :: (blocks.flatMap (fun b => (range' b.first (b.last + 1 - b.first)).flatMap (fun idx =>
    (b.ents.filter (·.pers)).flatMap (fun e => (List.range (max b.insts 1)).map (fun inst => K idx inst e.sub))))).filter
      (· != K 0x3F00 0 0x01)

/-- Value of a persistent entry in an image. -/
def Image.value (im : Image) (k : Nat) : Bytes :=
  match entryAt k with
  | none => []
  | some e =>
    if e.ty.isBytes then (mget? im.blobs k).getD (dfltBlob k) else leBytes e.ty.size ((mget? im.vals k).getD (dfltOf k))

/-- One record: index, sub-index, instance, length, and the value padded with zeros (R435). -/
def recordBytes (k : Nat) (v : Bytes) : Bytes :=
  leBytes 2 (kIdx k) ++ [byte (kSub k), 0] ++ leBytes 2 (kInst k) ++ leBytes 2 v.length ++ v ++ zeros (up4 v.length - v.length)

/-- The records of an image in the order of R439; those of the live Trellis set stand at the place of 0x3C00:01. -/
def Image.recordList (im : Image) : List Bytes :=
  if im.empty then []
  else
    let nodes := (nodeRecords im.nodes).map (recordBytes (K 0x3C00 0 0x01))
    let keys := recordKeys.span (fun k => k == K 0x3F00 0 0x01 || k < K 0x3C00 0 0x01)
    (keys.1.map (fun k => recordBytes k (im.value k))) ++ nodes ++ keys.2.map (fun k => recordBytes k (im.value k))

/-- Number of records of an image (R434, R435). -/
def Image.records (im : Image) : Nat := if im.empty then 0 else persistentCount + (im.nodes.length + 1023) / 1024

/-- A Leaf as the MRAM holds it (R435, Table 15.12); the magic of one whose save did not end is zero (R436). -/
def Leaf.bytes (l : Leaf) : Bytes :=
  let recs := l.image.recordList
  let body := recs.flatten
  let magic : Bytes := if l.valid then [0x55, 0x4B, 0x4C, 0x46] else zeros 4
  let head := leBytes 2 1 ++ zeros 2 ++ leBytes 4 l.seq ++ leBytes 4 body.length ++ leBytes 8 l.savedAt ++
    leBytes 4 recs.length ++ leBytes 4 l.version ++ zeros 28
  magic ++ head ++ leBytes 4 (crc32 ([0x55, 0x4B, 0x4C, 0x46] ++ head ++ body)) ++ body

/-- Whether the bytes of a Leaf are valid at boot (R438). -/
def leafSound (b : Bytes) : Bool :=
  let n := fieldLE b 12 4
  slice b 0 4 == [0x55, 0x4B, 0x4C, 0x46] && fieldLE b 4 2 == 1 && n ≤ 2097088 && 64 + n ≤ b.length &&
  fieldLE b 60 4 == crc32 (b.take 60 ++ slice b 64 n)

/-- A Leaf by number. -/
def Store.leaf (st : Store) (i : Nat) : Leaf := if i == 0 then st.leaf0 else st.leaf1

/-- The store with a Leaf replaced. -/
def Store.withLeaf (st : Store) (i : Nat) (l : Leaf) : Store :=
  if i == 0 then { st with leaf0 := l } else { st with leaf1 := l }

/-- Sub-index of 0x1400 that reports a Leaf's state. -/
def leafSub (i : Nat) : Nat := if i == 0 then 0x07 else 0x08

/-- The image in force (R438): none when no Leaf is. -/
def State.imageInForce (s : State) : Option Image :=
  let i := s.g 0x1400 0 0x05
  if i == 0xFF then none else some (s.store.leaf i).image

/-- Whether a persistent value differs from the image in force (0x1400:0F). -/
def State.unsaved (s : State) : Bool :=
  let im := s.image
  match s.imageInForce with
  | none => !(im.vals.isEmpty && im.blobs.isEmpty && im.nodes.isEmpty)
  | some f => !(im.vals == f.vals && im.blobs == f.blobs && im.nodes == f.nodes)

/-- An image that carries the host keys that wait for it (R420). -/
def Image.withKeys (im : Image) (keys : List (Nat × Bytes)) : Image :=
  keys.foldl (fun im p =>
    let k := K 0x1000 p.1 0x02
    let old := (mget? im.blobs k).getD []
    { im with blobs := mset k p.2 im.blobs, bytes := im.bytes + up4 p.2.length - up4 old.length }) im

/-- A save begins: the target's magic is zeroed first (R436). An image without records that a key write has joined holds the key
beside default values (R420, R441, R442; DESIGN CHOICE, assumption 15). -/
def Tx.beginSave (t : Tx s0) (empty waits : Bool) : Tx s0 :=
  let st := t.cur.store
  let force := t.g 0x1400 0 0x05
  let leaf := if force == 0 then 1 else 0
  let im := if empty && st.keys.isEmpty then Image.none_
    else (if empty then State.reset.image else t.cur.image).withKeys st.keys
  let run : SaveRun := ⟨leaf, im, t.cur.now, false, none, st.keys, waits, false⟩
  let l := { st.leaf leaf with valid := false, seq := (t.g 0x1400 0 0x06 + 1) % 2 ^ 32 }
  let t := t.setStore { st.withLeaf leaf l with run := some run, keys := [] }
  (t.w 0x1400 0 0x02 1).w 0x1400 0 (leafSub leaf) 0

/-- A save is asked for (R440, R441): it begins, or joins the one pending. -/
def Tx.askSave (t : Tx s0) (empty waits : Bool) : Tx s0 :=
  match t.cur.store.run with
  | none => t.beginSave empty waits
  | some r =>
    let t := t.setStore { t.cur.store with run := some { r with next := some empty, waitsNext := r.waitsNext || waits } }
    t.w 0x1400 0 0x02 2

/-- Host keys that a save carried come into force (R420, R410). -/
def Tx.landKeys (t : Tx s0) (keys : List (Nat × Bytes)) : Tx s0 :=
  t.each keys (fun t p =>
    let t := (t.wb 0x1000 p.1 0x02 p.2).w 0x1000 p.1 0x03 1
    t.when (p.1 == 0) (fun t => t.w 0x1001 0 0x07 0))

/-- What a save's end tells those that wait: whether it succeeded, the keys it carried, whether a response waited. -/
structure SaveDone where
  good : Bool
  keys : List (Nat × Bytes)
  waits : Bool

/-- The save that is pending begins, if there is one (R441). -/
def Tx.nextSave (t : Tx s0) (r : SaveRun) : Tx s0 :=
  match r.next with
  | some e => (t.setStore { t.cur.store with run := none }).beginSave e r.waitsNext
  | none => (t.setStore { t.cur.store with run := none }).w 0x1400 0 0x02 0

/-- A save's read-back completes (R436, R437); none while it is written again. -/
def Tx.endSave (t : Tx s0) (match_ : Bool) : Option SaveDone × Tx s0 :=
  match t.cur.store.run with
  | none => (none, t)
  | some r =>
    let fits := r.image.bytes ≤ 2097152
    if match_ && fits then
      let seq := (t.g 0x1400 0 0x06 + 1) % 2 ^ 32
      let l : Leaf := ⟨true, seq, r.at_, t.g 0x0000 0 0x07, r.image⟩
      let t := t.setStore (t.cur.store.withLeaf r.leaf l)
      let t := ((t.w 0x1400 0 0x05 r.leaf).w 0x1400 0 0x06 seq).w 0x1400 0 (leafSub r.leaf) 1
      let t := (((t.w 0x1400 0 0x09 r.image.bytes).tally 0x1400 0 0x0A).w 0x1400 0 0x0C r.at_).flagBit 0x1400 0 0x10 0
      (some ⟨true, r.keys, r.waits⟩, (t.landKeys r.keys).nextSave r)
    else if !r.again && fits then
      (none, t.setStore { t.cur.store with run := some { r with again := true } })
    else
      let t := ((t.tally 0x1400 0 0x0B).flagBit 0x1400 0 0x10 1).w 0x1400 0 (leafSub r.leaf) 2
      (some ⟨false, r.keys, r.waits⟩, t.nextSave r)

/-- Whether sequence x is newer than sequence y (R438). -/
def seqNewer (x y : Nat) : Bool :=
  let d := (x + 2 ^ 32 - y) % 2 ^ 32
  1 ≤ d && d ≤ 2 ^ 31 - 1

/-- The copy that is used at boot, of two with their validity and sequences (R438). -/
def newerOf (v0 v1 : Bool) (q0 q1 : Nat) : Option Nat :=
  match v0, v1 with
  | true, true => some (if seqNewer q1 q0 then 1 else 0)
  | true, false => some 0
  | false, true => some 1
  | false, false => none

/-- The Leaf whose image is used at boot (R438). -/
def chooseLeaf (a b : Leaf) : Option Nat := newerOf a.valid b.valid a.seq b.seq

/-- AUTOSAVE (R440): the delay has run since the last change of a persistent value; another save in between does not stop it. -/
def execAutosave (s : State) : Host.Outcome State Fault Refusal :=
  run s fun t =>
    let delay := s.g 0x1400 0 0x03
    match s.store.changed with
    | some c =>
      if delay != 0 && c + msC delay ≤ s.clock then (t.setStore { t.cur.store with changed := none }).askSave false false else t
    | none => t

/-! ## Areas of the MRAM (R468) -/

/-- Image of slot i: the one written, or that of the part as delivered (assumption 3). -/
def State.slot (s : State) (i : Nat) : Slot := if i == 0 then s.power.slot0 else s.power.slot1
def State.slotImage (s : State) (i : Nat) : Bytes :=
  let x := s.slot i
  if x.image.isEmpty && x.state != 0 then Config.partBytes 2 else x.image

/-- Slot i takes an image and a state. -/
def Tx.setSlot (t : Tx s0) (i : Nat) (x : Slot) : Tx s0 :=
  let p := t.cur.power
  (t.setPower (if i == 0 then { p with slot0 := x } else { p with slot1 := x })).w 0x6400 0 (0x04 + i) x.state

/-! ### The system area -/

/-- Entries kept in MRAM outside the store (R468, R484). -/
def mramEntry (idx sub : Nat) : Bool :=
  match idx with
  | 0x6400 => [0x03, 0x04, 0x05, 0x07, 0x09, 0x0A, 0x0B].contains sub
  | 0x6501 => [0x08, 0x09, 0x0A, 0x0B, 0x0C, 0x0D, 0x0E, 0x0F].contains sub
  | 0x5E30 => sub == 0x05
  | _ => false

/-- The system area is lost where neither copy of it is valid (R468): its counts start at 0, the floors at the version of what is
in force (stages 4 and 10), the states of the slots at what they hold, and the preferred slot at 0 (DESIGN CHOICE, assumption
83). -/
def Tx.systemLost (t : Tx s0) : Tx s0 :=
  let t := t.each [0x03, 0x07, 0x09, 0x0A, 0x0B] (fun t sub => t.w 0x6400 0 sub 0)
  let t := t.each [0x08, 0x09, 0x0A, 0x0B, 0x0C, 0x0D, 0x0F] (fun t sub => t.w 0x6501 0 sub 0)
  let t := (t.wb 0x6501 0 0x0E (dfltBlob (K 0x6501 0 0x0E))).each (List.range 8) (fun t i => t.w 0x5E30 i 0x05 0)
  let p := t.cur.power
  let t := t.setPower { p with hours := 0, hotMs := 0, age := 0, slot0 := { p.slot0 with state := min 1 p.slot0.state },
                               slot1 := { p.slot1 with state := min 1 p.slot1.state } }
  ((t.w 0x6600 0 0x08 0).w 0x6600 0 0x09 0).w 0x6600 0 0x0A 0

/-- A copy of the system area by number. -/
def Power.sys (p : Power) (i : Nat) : SysCopy := if i == 0 then p.sys0 else p.sys1

/-- Whether neither copy of the system area is valid (R468). -/
def State.systemGone (s : State) : Bool := !s.power.sys0.valid && !s.power.sys1.valid

/-- What the system area keeps, as it stands. -/
def State.sysNow (s : State) (seq : Nat) : SysCopy :=
  let p := s.power
  ⟨true, seq, s.dict.filter (fun e => mramEntry (kIdx e.1) (kSub e.1)), s.gb 0x6501 0 0x0E, p.hours, p.hotMs, p.age,
   p.slot0.state, p.slot1.state⟩

/-- The copy of the system area that is not in force is written with what has changed, and comes into force (R468): as one step, by
the steps of R436 (DESIGN CHOICE: when a write is due, and that none is cut short; assumption 83). -/
def Tx.sysSave (t : Tx s0) : Tx s0 :=
  let p := t.cur.power
  let old := p.sys p.sysAt
  if t.cur.sysNow old.seq == old then t
  else
    let new := t.cur.sysNow ((old.seq + 1) % 2 ^ 32)
    t.setPower (if p.sysAt == 0 then { p with sys1 := new, sysAt := 1 } else { p with sys0 := new, sysAt := 0 })

/-- What copy x of the system area holds comes into force. -/
def Tx.sysLoad (t : Tx s0) (x : SysCopy) : Tx s0 :=
  let t := t.each ((t.cur.dict.map (·.1)).filter (fun k => mramEntry (kIdx k) (kSub k))) (fun t k => t.unset k)
  let t := (t.each x.vals (fun t e => t.put e.1 e.2)).wb 0x6501 0 0x0E x.causes
  let p := t.cur.power
  t.setPower { p with hours := x.hours, hotMs := x.hotMs, age := x.age, slot0 := { p.slot0 with state := x.state0 },
                      slot1 := { p.slot1 with state := x.state1 } }

/-- At boot the copy of the system area in force is chosen as a Leaf is (R438, R468). -/
def Tx.systemChoose (t : Tx s0) (b : BootIn) : Tx s0 :=
  let p := t.cur.power
  let v0 := p.sys0.valid && !bit b.mramBad 2
  let v1 := p.sys1.valid && !bit b.mramBad 3
  let t := t.setPower { p with sys0 := { p.sys0 with valid := v0 }, sys1 := { p.sys1 with valid := v1 } }
  match newerOf v0 v1 p.sys0.seq p.sys1.seq with
  | none => t.systemLost
  | some i => if i == p.sysAt then t else (t.sysLoad (p.sys i)).setPower { (t.sysLoad (p.sys i)).cur.power with sysAt := i }

/-- Longest time of the write of a kernel pack or a firmware image of n bytes, with its read-back: 30 ms and 0.1 ms per KiB
(R412). -/
def mramTime (n : Nat) : Nat := msC 30 + usC (100 * ceilDiv n 1024)

/-- A write to the MRAM begins, and the response of its operation waits for its end (R412): how long it takes within its longest
time, and whether the MRAM takes a kernel pack (R353), are open (assumption 2). -/
def Tx.mramBegin (t : Tx s0) (place : Nat) (d : Bytes) : Tx s0 :=
  let (v, t) := t.fresh
  let (w, t) := t.fresh
  (t.setPower { t.cur.power with
    mram := some ⟨place, d, t.cur.clock + v % (mramTime d.length + 1), 8 ≤ place || w % 2 == 0⟩ }).wait

/-- Whether the write to the MRAM has ended. -/
def State.mramEnded (s : State) : Bool :=
  match s.power.mram with
  | some r => r.ends ≤ s.clock
  | none => false

/-- Bytes with those of `new` that are set in place of the old ones from offset o on. -/
def patch (old : Bytes) (o : Nat) (new : List (Option Byte)) : Bytes :=
  ((List.range old.length).zip old).map (fun p => if p.1 < o then p.2 else ((nth new (p.1 - o) none).getD p.2))

/-- Byte at an offset of the MRAM: a firmware slot, a Leaf or a kernel pack; zero where nothing was written, and in the system
area, whose layout the manual does not give (DESIGN CHOICE; assumption 56). -/
def State.mramByte (s : State) (o : Nat) : Byte :=
  if o < 0x380000 then (s.slotImage 0).getD o 0
  else if o < 0x700000 then (s.slotImage 1).getD (o - 0x380000) 0
  else if o < 0x800000 then 0
  else if o < 0xA00000 then s.store.leaf0.bytes.getD (o - 0x800000) 0
  else if o < 0xC00000 then s.store.leaf1.bytes.getD (o - 0xA00000) 0
  else (mget [] s.power.packs ((o - 0xC00000) / 0x80000)).getD (o % 0x80000) 0

/-- Bus writes to the MRAM: what a slot, a Leaf or a pack holds changes in place; a Leaf is valid only while its CRC matches
(R438), and an area that is erased takes nothing. -/
def Tx.mramWrite (t : Tx s0) (o : Nat) (new : List (Option Byte)) : Tx s0 :=
  let p := t.cur.power
  if new.all Option.isNone then t
  else if o < 0x380000 then
    t.setPower { p with slot0 := { p.slot0 with image := patch (t.cur.slotImage 0) o new } }
  else if o < 0x700000 then
    t.setPower { p with slot1 := { p.slot1 with image := patch (t.cur.slotImage 1) (o - 0x380000) new } }
  else if o < 0x800000 then t
  else if o < 0xC00000 then
    let i := (o - 0x800000) / 0x200000
    let l := t.cur.store.leaf i
    t.setStore (t.cur.store.withLeaf i { l with valid := leafSound (patch l.bytes (o % 0x200000) new) })
  else
    let k := (o - 0xC00000) / 0x80000
    match mget? p.packs k with
    | some b => t.setPower { p with packs := mset k (patch b (o % 0x80000) new) p.packs }
    | none => t

end Sys2Proof.Machine
end

