-- ==== Sys2Proof/Machine/Memory.lean ====
section
/-! DEFINITION. The memory system (R378 to R398): the codes of SRAM and DRAM, the DRAM's map and contents, and what the block
does and reports at errors, refresh, neighbour refresh, alerts, calibration, retraining, scrub and self-refresh. -/

namespace Sys2Proof.Machine
open Sys2Proof

variable {s0 : State}

/-! ## Addresses (Tables 14.1 and 14.2) -/

/-- Target that decodes a byte address; `remap` puts the system SRAM in the boot ROM's place at address 0 (R376). -/
def targetOf (remap : Bool) (a : Nat) : Option Nat :=
  let within (base size : Nat) : Bool := base ≤ a && a < base + size
  if remap && within 0 0x200000 then some 1
  else if !remap && within 0 0x80000 then some 0
  else if within 0x10000000 0x80000 then some 0
  else if within 0x20000000 0x200000 then some 1
  else if within 0x30000000 0x1000000 then some 2
  else if within 0x40000000 0x300000 then some 3
  else if within 0x41000000 0x100000 then some 4
  else if within 0x42000000 0x400000 then some 5
  else if within 0x44000000 0x300000 then some 6
  else if within 0x200000000 0x200000000 then some (7 + a / 512 % 2)
  else none

/-- Targets that a master reaches. -/
def reaches (m : Nat) : List Nat :=
  nth [List.range 9, List.range 9, [3], [3], [4], [7, 8], [7, 8], [7, 8], [5, 7, 8], [5], [6, 7, 8], [7, 8],
       [0, 1, 2, 7, 8], [3, 7, 8]] m []

/-- Read pieces that a master may hold at one target (R370). -/
def readLimit (m : Nat) : Nat := if [5, 6, 7, 11, 13].contains m then 4 else 1

/-- First address of target j, 0 to 6, and the place in it that an address of it names (Table 14.2). -/
def targetBase (j : Nat) : Nat := nth [0x10000000, 0x20000000, 0x30000000, 0x40000000, 0x41000000, 0x42000000, 0x44000000] j 0
def targetPlace (j a : Nat) : Nat := if j == 0 then a % 0x80000 else if j == 1 then a % 0x200000 else a - targetBase j

/-- Byte address of the next piece of a burst, and its beats: a piece ends at a 512-byte boundary (R372). -/
def BusRun.addr (r : BusRun) : Nat := (r.req.addr / 32 + r.done) * 32 % 2 ^ 36
def BusRun.size (r : BusRun) : Nat := min (r.req.beats - r.done) (16 - r.addr / 32 % 16)

/-- Target of the next piece of a burst; none where it decodes to none that its master reaches (R371). -/
def State.pieceTarget (s : State) (r : BusRun) : Option Nat :=
  match targetOf (s.on 0x6000 0 0x01) r.addr with
  | some j => if (reaches r.req.master).contains j then some j else none
  | none => none

/-- Whether a piece waits for target j, at the matrix or accepted and not done, and whether such a piece is real-time. -/
def State.waitsFor (s : State) (j : Nat) (rt : Bool) : Bool :=
  s.mem.waits.any (fun r => s.pieceTarget r == some j && (!rt || nth masterClass r.req.master 0 == 1)) ||
  s.mem.flights.any (fun f => f.target == j && f.got.isNone && (!rt || nth masterClass f.req.master 0 == 1))

/-! ## Codes and reports of the SRAM (R378 to R380) -/

/-- Data bits and check bits of a word of region r (Table 14.4). -/
def regionBits (r : Nat) : Nat × Nat := if r == 0 then (24, 6) else if r == 5 then (32, 7) else (64, 8)

/-- Numbers of k bits of which w are 1. -/
def ofWeight (k w : Nat) : List Nat :=
  (List.range (2 ^ k)).filter (fun c => ((List.range k).filter (fun i => c.testBit i)).length == w)

/-- Columns of the check matrix of region r, of its data bits and then of its check bits: all different and of odd weight, which
makes a code that corrects one error and detects two (the manual does not say which such code; DESIGN CHOICE, assumption 37). -/
def secColumns (r : Nat) : List Nat :=
  let b := regionBits r
  (ofWeight b.2 3 ++ ofWeight b.2 5).take b.1 ++ (List.range b.2).map (2 ^ ·)

/-- Syndrome of a codeword of region r, and the codeword of a data word: the check bits stand above the data bits. -/
def secSyndrome (r w : Nat) : Nat :=
  ((List.range (secColumns r).length).zip (secColumns r)).foldl (fun x p => if w.testBit p.1 then x ^^^ p.2 else x) 0
def secEncode (r data : Nat) : Nat :=
  let d := data % 2 ^ (regionBits r).1
  d + 2 ^ (regionBits r).1 * secSyndrome r d

/-- What a read finds of a codeword with the bits of `mask` wrong: 0 no error, 1 one that it corrects, 2 one that it only detects.
The code is linear, so that the data do not count. -/
def secDecode (r mask : Nat) : Nat :=
  let x := secSyndrome r mask
  if x == 0 then 0 else if (secColumns r).contains x then 1 else 2

/-- A memory error message (trace type 440). -/
def Tx.memMsg (t : Tx s0) (kind region offset : Nat) : Tx s0 :=
  t.msg 440 (leBytes 1 kind ++ leBytes 1 region ++ [0, 0] ++ leBytes 8 offset)

/-- A read of SRAM region r corrected a single-bit error (R379). -/
def Tx.sramCorrected (t : Tx s0) (r word syn : Nat) : Tx s0 :=
  ((((t.tally 0x6100 r 0x02).w 0x6100 r 0x04 word).w 0x6100 r 0x06 syn).flagBit 0x6100 r 0x09 0).memMsg 0 r word

/-- A read corrected a word of a region: it is reported, and written back when its bank is idle, but for the Furrows (R379). -/
def Tx.sramFixed (t : Tx s0) (x : SramHit) : Tx s0 :=
  let t := t.sramCorrected x.region x.word x.syn
  t.when (x.region != 0) (fun t => t.setMem { t.cur.mem with fixes := t.cur.mem.fixes ++ [(x.region, x.word)] })

/-- A read of SRAM region r found an uncorrectable error (R380). -/
def Tx.sramBad (t : Tx s0) (r word : Nat) : Tx s0 :=
  (((t.tally 0x6100 r 0x03).w 0x6100 r 0x05 word).flagBit 0x6100 r 0x09 1).memMsg 1 r word

/-- A DRAM read was uncorrectable (R386). -/
def Tx.dramBad (t : Tx s0) (offset : Nat) : Tx s0 :=
  (((t.tally 0x6200 0 0x19).w 0x6200 0 0x1B offset).flagBit 0x6200 0 0x21 3).memMsg 3 0xFF offset

/-! ## The DRAM's map and code (R382, R383) -/

/-- Where a DRAM offset lies (Table 14.5): subchannel, row, bank address, bank group, column, byte of the codeword. -/
structure DramPlace where
  sub : Nat
  row : Nat
  bank : Nat
  group : Nat
  column : Nat
  byte : Nat
  deriving DecidableEq, Repr

/-- The DRAM offset map (R382, Table 14.5). -/
def dramMap (o : Nat) : DramPlace :=
  ⟨o / 2 ^ 9 % 2, o / 2 ^ 17 % 2 ^ 16, o / 2 ^ 16 % 2, (o / 2 ^ 13 % 8) ^^^ (o / 2 ^ 17 % 8),
   2 ^ 7 * (o / 2 ^ 10 % 8) + 2 ^ 4 * (o / 2 ^ 6 % 8), o % 2 ^ 6⟩

/-- Number of a place's bank in its subchannel. -/
def DramPlace.bankNo (p : DramPlace) : Nat := 2 * p.group + p.bank

/-- Codeword k of subchannel n, in ascending order of offsets. -/
def subWord (n k : Nat) : Nat := k / 8 * 16 + 8 * n + k % 8

/-- GF(2^8) with the polynomial x^8 + x^4 + x^3 + x^2 + 1 (R383): multiplication by α = 2, by any element, and powers of α. -/
def gfDouble (a : Nat) : Nat := if 256 ≤ 2 * a then (2 * a) ^^^ 0x11D else 2 * a
def gfTimes : Nat → Nat → Nat → Nat
  | 0, _, _ => 0
  | n + 1, a, b => (if b % 2 == 1 then a else 0) ^^^ gfTimes n (gfDouble a) (b / 2)
def gfMul (a b : Nat) : Nat := gfTimes 8 a b
def gfPow : Nat → Nat
  | 0 => 1
  | n + 1 => gfDouble (gfPow n)

/-- Generator polynomial (x − α^0) … (x − α^15), highest coefficient first (R383). -/
def rsGenerator : List Nat :=
  (List.range 16).foldl (fun g i => List.zipWith (· ^^^ ·) (g ++ [0]) (0 :: g.map (gfMul (gfPow i)))) [1]

/-- Check symbols of 64 data symbols: the remainder of x^16 times the data polynomial by the generator (R383). -/
def rsRemainder (data : List Nat) : List Nat :=
  data.foldl (fun r d =>
    let f := d ^^^ r.headD 0
    List.zipWith (· ^^^ ·) (r.drop 1 ++ [0]) (rsGenerator.tail.map (gfMul f))) (List.replicate 16 0)
def rsCheck (data : Bytes) : Bytes := (rsRemainder (data.map BitVec.toNat)).map byte

/-- Syndromes of 80 symbols: the values of their polynomial at α^0 to α^15; all are 0 for a codeword. -/
def rsSyndromes (x : Bytes) : List Nat :=
  (List.range 16).map (fun i => x.foldl (fun v b => gfMul v (gfPow i) ^^^ b.toNat) 0)

/-- A codeword with valid check symbols, and one whose check symbols are deliberately inconsistent (R383, R385). -/
def DramWord.of (data : Bytes) : DramWord := ⟨data, rsCheck data, false⟩
def DramWord.spoilt (data : Bytes) : DramWord := ⟨data, (rsCheck data).map (fun b => ~~~ b), true⟩

/-- After training every codeword holds zeros (R386); codeword w as it stands. -/
def DramWord.zero : DramWord := ⟨zeros 64, zeros 16, false⟩
def State.dramWord (s : State) (w : Nat) : DramWord := mget DramWord.zero s.mem.dram w
def Tx.setDramWord (t : Tx s0) (w : Nat) (x : DramWord) : Tx s0 :=
  t.setMem { t.cur.mem with dram := mputD DramWord.zero w x t.cur.mem.dram }

/-- Device of symbol j of a codeword of subchannel n (Table 14.6). -/
def symbolDevice (n j : Nat) : Nat := 5 * n + (if j < 64 then j % 4 else 4)

/-- Marked device of subchannel n, if any (R387). -/
def State.markedDevice (s : State) (n : Nat) : Option Nat :=
  (List.range 5).map (5 * n + ·) |>.find? (fun d => s.on 0x6210 d 0x05)

/-- Whether device d meets the criterion of automatic marking (R387): 64 codewords within 24 h. -/
def State.failing (s : State) (d : Nat) : Bool :=
  s.on 0x6200 0 0x20 && 64 ≤ (s.mem.crit.filter (fun p => p.1 == d && s.clock < p.2 + secC 86400)).length

/-- Mark device d as failed (R387): by host 0 (1) or automatically (2); a save follows (R440). -/
def Tx.markDevice (t : Tx s0) (d who : Nat) : Tx s0 :=
  let t := ((t.w 0x6210 d 0x05 1).w 0x6210 d 0x06 who).w 0x6210 d 0x07 t.cur.now
  let t := t.when ((List.range 5).any (fun p => 5 * (d / 5) + p != d && t.cur.failing (5 * (d / 5) + p)))
    (fun t => t.flagBit 0x6200 0 0x21 6)
  (t.flag 0x6200 0 0x21 (2 ^ 4 + 2 ^ 5)).askSave false false

/-- The automatic criterion (R387): 64 codewords within 24 h corrected in device d alone, at least 3 symbols each. -/
def Tx.autoMark (t : Tx s0) (n d : Nat) : Tx s0 :=
  let crit := (d, t.cur.clock) :: t.cur.mem.crit.filter (fun p => t.cur.clock < p.2 + secC 86400)
  let t := t.setMem { t.cur.mem with crit := crit }
  if !t.on 0x6210 d 0x05 && t.cur.failing d then
    match t.cur.markedDevice n with
    | some _ => t.flagBit 0x6200 0 0x21 6
    | none => t.markDevice d 2
  else t

/-- Whether errors in the symbols `errs` of a codeword of subchannel n are beyond the decoder (R384). -/
def State.codewordLost (s : State) (n : Nat) (errs : List Nat) : Bool :=
  (s.markedDevice n).isNone && 8 < (nub (errs.filter (· < 80))).length

/-- A codeword of subchannel n read with errors in the symbols `errs` (R384, R386): what the decoder corrects with or
without a marked device, and what it reports. -/
def Tx.codeword (t : Tx s0) (n offset : Nat) (errs : List Nat) : Tx s0 :=
  let errs := nub (errs.filter (· < 80))
  let free :=
    match t.cur.markedDevice n with
    | some d => errs.filter (fun j => symbolDevice n j != d)
    | none => errs
  let marked := (t.cur.markedDevice n).isSome
  if errs.isEmpty then t
  else if marked then
    -- the marked device's symbols are erasures; a further error is neither corrected nor detected (R384)
    let own := errs.filter (fun j => !free.contains j)
    if own.isEmpty then t
    else
      let t := (((t.tally 0x6200 0 0x18).w 0x6200 0 0x1A offset).flagBit 0x6200 0 0x21 2).memMsg 2 0xFF offset
      let d := symbolDevice n (own.headD 0)
      (t.count 0x6210 d 0x03 own.length).tally 0x6210 d 0x04
  else if errs.length ≤ 8 then
    let t := (((t.tally 0x6200 0 0x18).w 0x6200 0 0x1A offset).flagBit 0x6200 0 0x21 2).memMsg 2 0xFF offset
    let t := t.each errs (fun t j => t.tally 0x6210 (symbolDevice n j) 0x03)
    let devs := nub (errs.map (symbolDevice n))
    let t := t.each devs (fun t d => t.tally 0x6210 d 0x04)
    match devs with
    | [d] => if 3 ≤ errs.length then t.autoMark n d else t
    | _ => t
  else t.dramBad offset

/-- Whether a read of codeword w with errors in `errs` finds it uncorrectable (R384, R385). -/
def State.readLost (s : State) (w : Nat) (errs : List Nat) : Bool :=
  (s.dramWord w).bad || s.codewordLost (w / 8 % 2) errs

/-- Whether a read with errors in `errs` corrects a symbol (R384): any, or with a device marked one of its own. -/
def State.readFixes (s : State) (n : Nat) (errs : List Nat) : Bool :=
  match s.markedDevice n with
  | some d => errs.any (fun j => j < 80 && symbolDevice n j == d)
  | none => errs.any (· < 80)

/-- Whether the decoder passes errors on (R384): a device is marked, and symbols beside its own are wrong. -/
def State.passesErrors (s : State) (n : Nat) (errs : List Nat) : Bool :=
  match s.markedDevice n with
  | some d => errs.any (fun j => j < 80 && symbolDevice n j != d)
  | none => false

/-- The data symbols that a read of codeword w delivers: as written; but where the decoder passes errors on, those in error and
those of the marked device hold free values (R384, assumption 2). -/
def Tx.delivered (t : Tx s0) (w : Nat) (errs : List Nat) : Bytes × Tx s0 :=
  let n := w / 8 % 2
  let data := (t.cur.dramWord w).bytes
  if !t.cur.passesErrors n errs then (data, t)
  else
    let f := t.fresh
    let open_ := fun j => errs.contains j || t.cur.markedDevice n == some (symbolDevice n j)
    (((List.range data.length).zip data).map (fun p => if open_ p.1 then byte (f.1 / 256 ^ p.1 % 256) else p.2), f.2)

/-- Codeword w is read: its errors are reported, and it is queued for write-back where a symbol was corrected. Whether it is
uncorrectable, and the data it delivers (R384 to R386). -/
def Tx.dramRead (t : Tx s0) (w : Nat) (errs : List Nat) : Bool × Bytes × Tx s0 :=
  let n := w / 8 % 2
  if t.cur.readLost w errs then (true, (t.cur.dramWord w).bytes, t.dramBad (64 * w))
  else
    let r := (t.codeword n (64 * w) errs).delivered w errs
    (false, r.1, r.2.when (t.cur.readFixes n errs) (fun t => t.setMem { t.cur.mem with back := mset w r.1 t.cur.mem.back }))

/-- Codeword w takes bytes where strobes are on (R385): a whole codeword is written as it is, part of one by a read first,
none not at all. After an uncorrectable read the codeword stays uncorrectable. A write-back that waits is dropped (R386). -/
def Tx.dramWrite (t : Tx s0) (w : Nat) (bytes : List (Option Byte)) (errs : List Nat) : Tx s0 :=
  let drop := fun (t : Tx s0) => t.setMem { t.cur.mem with back := mdel w t.cur.mem.back }
  let merged := fun (old : Bytes) => (bytes.zip old).map (fun p => p.1.getD p.2)
  if bytes.all Option.isNone then t
  else if bytes.all Option.isSome then drop (t.setDramWord w (DramWord.of (merged (t.cur.dramWord w).bytes)))
  else
    let r := t.dramRead w errs
    drop (r.2.2.setDramWord w (if r.1 then DramWord.spoilt (merged r.2.1) else DramWord.of (merged r.2.1)))

/-! ## Subchannels (R388 to R392) -/

/-- Subchannel n. -/
def Mem.sub (m : Mem) (n : Nat) : SubCh := if n == 0 then m.sub0 else m.sub1

/-- Memory with subchannel n replaced. -/
def Mem.withSub (m : Mem) (n : Nat) (x : SubCh) : Mem := if n == 0 then { m with sub0 := x } else { m with sub1 := x }

/-- A change of subchannel n. -/
def Tx.modSub (t : Tx s0) (n : Nat) (f : SubCh → SubCh) : Tx s0 :=
  t.setMem (t.cur.mem.withSub n (f (t.cur.mem.sub n)))

/-- A command goes to the devices of subchannel n and into its retry buffer of 32 (R392). -/
def Tx.issue (t : Tx s0) (n : Nat) (c : DramCmd) : Tx s0 :=
  t.modSub n (fun x => { x with retry := ((t.cur.clock, c) :: x.retry).take 32 })

/-- Corrected codewords of subchannel n are written back while nothing waits for it (R386). -/
def Tx.writeBack (t : Tx s0) (n : Nat) : Tx s0 :=
  let mine := t.cur.mem.back.filter (fun p => p.1 / 8 % 2 == n)
  if t.cur.waitsFor (7 + n) false || (t.cur.mem.sub n).alert || t.g 0x6200 0 0x01 != 1 || mine.isEmpty then t
  else
    let t := t.setMem { t.cur.mem with back := t.cur.mem.back.filter (fun p => p.1 / 8 % 2 != n) }
    t.each mine (fun t p => (t.issue n (.write p.1 (DramWord.of p.2))).setDramWord p.1 (DramWord.of p.2))

/-- A selection joins the queue of 16, or is dropped (R391). -/
def Tx.nrrPick (t : Tx s0) (n row bank : Nat) : Tx s0 :=
  if 16 ≤ t.cur.mem.nrr.length then (t.tally 0x6200 0 0x08).flagBit 0x6200 0 0x21 1
  else t.setMem { t.cur.mem with nrr := t.cur.mem.nrr ++ [⟨n, row, bank, t.cur.clock⟩] }

/-- Row of a bank that is open: hit within the last 64 ns (R389). -/
def State.openRow (s : State) (n bank : Nat) : Option Nat :=
  match mget? (s.mem.sub n).rows bank with
  | some r => if s.clock < r.2 + 64 then some r.1 else none
  | none => none

/-- An access to a row of a bank (R389, R391): where it is not open it is activated, and the activate is selected for neighbour
refresh with probability 2^−k. -/
def Tx.openFor (t : Tx s0) (n bank row : Nat) : Tx s0 :=
  let t := if t.cur.openRow n bank == some row then t
    else
      let t := t.when (mget? (t.cur.mem.sub n).rows bank).isSome (fun t => t.issue n (.precharge bank))
      let f := (t.issue n (.activate bank row)).fresh
      f.2.when (f.1 % 2 ^ t.g 0x6200 0 0x06 == 0) (fun t => t.nrrPick n row bank)
  t.modSub n (fun x => { x with rows := mset bank (row, t.cur.clock) x.rows })

/-- A bank is closed, by auto-precharge or a precharge (R389). -/
def Tx.closeRow (t : Tx s0) (n bank : Nat) : Tx s0 := t.modSub n (fun x => { x with rows := mdel bank x.rows })

/-- ALERT_n of a subchannel is low (R392). -/
def State.alerted (s : State) : Bool := s.mem.sub0.alert || s.mem.sub1.alert

/-- So many refreshes on both subchannels (R390). -/
def Tx.refreshes (t : Tx s0) (n : Nat) : Tx s0 :=
  if n == 0 then t
  else
    let t := t.each [0, 1] (fun t k => (((t.issue k .prechargeAll).issue k .refresh).modSub k (fun x => { x with rows := [] })))
    t.count 0x6200 0 0x03 n

/-- The refresh debt is repaid (R390). -/
def Tx.repay (t : Tx s0) : Tx s0 :=
  let n := t.cur.mem.debt
  (t.setMem { t.cur.mem with debt := 0 }).refreshes n

/-- Debt is repaid at a moment when no real-time piece is ready and the controller may issue (R390, R392). -/
def Tx.repayIdle (t : Tx s0) : Tx s0 :=
  if t.cur.mem.debt == 0 || t.g 0x6200 0 0x01 != 1 || t.cur.alerted || t.cur.waitsFor 7 true || t.cur.waitsFor 8 true then t
  else t.repay

/-- REFRESH (R390): a refresh falls due. `ready` says that a real-time piece is ready beside those that wait at the matrix; `heat`
is 0 up to 85 °C, 1 above, 2 above 95 °C. While ALERT_n is low nothing is issued, and the refresh waits as debt (R392). -/
def execRefresh (ready : Bool) (heat : Nat) (s : State) : Host.Outcome State Fault Refusal :=
  run s fun t =>
    if t.g 0x6200 0 0x01 != 1 then t
    else
      let t := (t.w 0x6200 0 0x02 (if heat == 0 then 0 else 1)).when (2 ≤ heat) (fun t => t.flagBit 0x6200 0 0x21 10)
      let m := t.cur.mem
      let ready := ready || t.cur.alerted || t.cur.waitsFor 7 true || t.cur.waitsFor 8 true
      if ready && m.debt < 4 then
        ((t.setMem { m with debt := m.debt + 1 }).tally 0x6200 0 0x04).peak 0x6200 0 0x05 (m.debt + 1)
      else if ready then (if t.cur.alerted then t else t.refreshes 1)
      else (t.setMem { m with debt := 0 }).refreshes (1 + m.debt)

/-- NEIGHBOUR_REFRESH (R391): an activate of a row that the model's own accesses do not show is selected; or, with `issue`, the
oldest selection's neighbour rows R − 1 and R + 1 are refreshed in its bank while the bank is idle: at background rank, or
from 10 µs after the selection before pieces that wait. -/
def execNeighbourRefresh (n row bank : Nat) (issue : Bool) (s : State) : Host.Outcome State Fault Refusal :=
  run s fun t =>
    if !issue then t.nrrPick n row bank
    else
      match s.mem.nrr.find? (fun x => x.sub == n) with
      | none => t
      | some x =>
        if (s.mem.sub n).alert || s.g 0x6200 0 0x01 != 1 || (s.openRow n x.bank).isSome ||
            (s.waitsFor (7 + n) false && s.clock < x.at_ + 10000) then t
        else
          let rows := (if x.row == 0 then [] else [x.row - 1]) ++ (if 65535 ≤ x.row then [] else [x.row + 1])
          let t := t.setMem { s.mem with nrr := s.mem.nrr.erase x }
          let t := t.each rows (fun t r => (t.issue n (.activate x.bank r)).issue n (.precharge x.bank))
          (t.closeRow n x.bank).count 0x6200 0 0x07 rows.length

/-- One failed replay (R392): three within 1 s make a storm. -/
def Tx.replayFails (t : Tx s0) : Tx s0 :=
  let fails := t.cur.clock :: t.cur.mem.fails.filter (fun c => t.cur.clock < c + secC 1)
  let t := (t.setMem { t.cur.mem with fails := fails }).tally 0x6200 0 0x0B
  if 3 ≤ fails.length then
    (t.setMem { t.cur.mem with retrain := true }).flagBit 0x6200 0 0x21 8
  else t

/-- Commands of a subchannel issued in the 1 µs before ALERT_n fell, oldest first (R392). -/
def SubCh.replayed (x : SubCh) : List DramCmd :=
  ((x.retry.filter (fun c => x.alertAt < c.1 + 1000)).map (·.2)).reverse

/-- All banks are precharged and the commands of the last 1 µs are issued again, writes with their data (R392). -/
def Tx.replayNow (t : Tx s0) (n : Nat) : Tx s0 :=
  let t := t.modSub n (fun x => { x with rows := [] })
  t.each (t.cur.mem.sub n).replayed (fun t c =>
    match c with
    | .write w d => t.setDramWord w d
    | .activate _ _ | .precharge _ | .prechargeAll | .read _ | .refresh | .calibrate => t)

/-- REPLAY (R392): ALERT_n rises and the commands of the last 1 µs are replayed; `fails` of the replays meet an alert of
their own, each counted and repeated once. What a replay delays is open up to its bound (assumption 2). -/
def execReplay (n fails : Nat) (s : State) : Host.Outcome State Fault Refusal :=
  run s fun t =>
    if !(s.mem.sub n).alert then t
    else
      let t := (t.replayNow n).modSub n (fun x => { x with alert := false })
      let t := t.tally 0x6200 0 0x0A
      let t := t.each (List.range (min fails 2)) (fun t i =>
        ((t.tally 0x6200 0 0x09).replayFails).when (i == 0) (fun t => t.tally 0x6200 0 0x0A))
      let f := t.fresh
      f.2.modSub n (fun x => { x with next := max x.next (s.clock + f.1 % 801) })

/-- Drift estimate of a ZQ calibration (R481): a shift of the read delays, or a request for retraining. -/
def Tx.zqDrift (t : Tx s0) (drift : F32) : Tx s0 :=
  let t := t.w 0x6602 0 0x08 drift
  if F.le (F.abs drift) (t.g 0x6602 0 0x09) then t.tally 0x6602 0 0x0A
  else
    ((t.setMem { t.cur.mem with retrain := true }).tally 0x6602 0 0x0D).w 0x6602 0 0x0B 1

/-- ZQ_CALIBRATION (R393, R481): a calibration that is due runs in a gap, or takes a slot after 128 ms of waiting;
`drift` is the estimate from the DQS oscillators. -/
def execZqCalibration (gap : Bool) (drift : F32) (s : State) : Host.Outcome State Fault Refusal :=
  run s fun t =>
    let m := t.cur.mem
    let due := m.zqDue.getD (m.zqAt + msC (t.g 0x6200 0 0x0C))
    if t.g 0x6200 0 0x01 != 1 || t.cur.clock < due then t
    else
      let waited := t.cur.clock - due
      let runs := fun (t : Tx s) =>
        ((((t.setMem { m with zqAt := t.cur.clock, zqDue := none }).each [0, 1] (fun t k => t.issue k .calibrate)).tally 0x6200 0 0x0D).peak 0x6200 0 0x0F
          (waited / 1000000)).zqDrift drift
      if t.cur.alerted then t.setMem { m with zqDue := some due }
      else if gap then runs t
      else if msC 128 ≤ waited then ((runs t).tally 0x6200 0 0x0E).flagBit 0x6200 0 0x21 0
      else t.setMem { m with zqDue := some due }

/-- Reference lanes (R481). -/
def refLane (l : Nat) : Bool := l % 63 == 61 || l % 63 == 62

/-- Index and value of the least of a list of lane margins among the lanes that p keeps. -/
def worstLane (p : Nat → Bool) (l : List F32) : Nat × F32 :=
  ((List.range l.length).zip l).foldl
    (fun best x => if p x.1 && (F.isNaN best.2 || F.lt x.2 best.2) then x else best) (0, F.nan)

/-- Every training measures each lane's margins (R481); the trained settings are free values (assumption 2). -/
def Tx.laneMargins (t : Tx s0) (timing voltage : List F32) : Tx s0 :=
  let tm := (List.range 126).map (fun l => if refLane l then 0 else nth timing l 0)
  let vm := (List.range 126).map (fun l => nth voltage l 0)
  let t := t.each ((List.range 126).zip (tm.zip vm)) (fun t p =>
    let f := ((t.w (0x6680 + p.1) 0 0x01 p.2.1).w (0x6680 + p.1) 0 0x02 p.2.2).fresh
    f.2.w (0x6680 + p.1) 0 0x03 f.1)
  let wt := worstLane (fun l => !refLane l) tm
  let wv := worstLane (fun _ => true) vm
  let t := ((t.w 0x6602 0 0x02 wt.2).w 0x6602 0 0x03 wt.1).w 0x6602 0 0x04 wv.2
  let t := ((t.w 0x6602 0 0x05 wv.1).w 0x6602 0 0x01 t.cur.clock).w 0x6602 0 0x08 0
  let below := F.lt wt.2 (t.g 0x6602 0 0x06) || F.lt wv.2 (t.g 0x6602 0 0x07)
  t.w 0x6602 0 0x0B (if below then 2 else 0)

/-- The DRAM retrains (R393): settings and margins are new, or the previous ones are restored. -/
def Tx.retrain (t : Tx s0) (good : Bool) (timing voltage : List F32) : Tx s0 :=
  let t := t.setMem { t.cur.mem with retrain := false, trainAt := t.cur.clock }
  if good then ((t.tally 0x6200 0 0x12).w 0x6200 0 0x13 t.cur.now).laneMargins timing voltage
  else t.flagBit 0x6200 0 0x21 9

/-- SCHEDULED_RETRAINING (R393): the retraining itself, while the engines stand for it, or in IDLE at its interval or
when one was requested. -/
def execScheduledRetraining (good : Bool) (timing voltage : List F32) (s : State) : Host.Outcome State Fault Refusal :=
  run s fun t =>
    let e := s.engines
    let hours := s.g 0x6200 0 0x10
    let at_ := s.g 0x6200 0 0x11
    let idle := s.g 0x6500 0 0x01 == 2 &&
      (s.mem.retrain || (hours != 0 && s.mem.trainAt + secC (3600 * hours) ≤ s.clock) || (at_ != 0 && at_ ≤ s.now))
    if !e.running && s.g 0x6200 0 0x01 == 3 then
      ((t.retrain good timing voltage).w 0x6200 0 0x11 0).w 0x6200 0 0x01 1
    else if idle then
      let t := (t.retrain good timing voltage).w 0x6200 0 0x01 1
      t.when (at_ != 0 && at_ ≤ s.now) (fun t => t.w 0x6200 0 0x11 0)
    else t

/-- Share of a scrub pass in %: a codewords of b, or a cycles of b (R394). -/
def scrubShare (a b : Nat) : F32 := F.min2 0x42C80000 (F.ofRat false (100 * a) (max 1 b))

/-- Share of the pass that the elapsed time would call for (0x6200:16). -/
def State.scrubSchedule (s : State) : F32 := scrubShare (s.clock - s.mem.scrubAt) (secC (3600 * s.mem.scrubHours))

/-- Codewords of subchannel n that the scrub pass has read. -/
def Mem.scrubbed (m : Mem) (n : Nat) : Nat := if n == 0 then m.scrub0 else m.scrub1

/-- The scrub has read the next codeword of subchannel n: a pass ends when every codeword of both was read (R394). -/
def Tx.scrubNext (t : Tx s0) (n : Nat) : Tx s0 :=
  let m := t.cur.mem
  let m := if n == 0 then { m with scrub0 := m.scrub0 + 1 } else { m with scrub1 := m.scrub1 + 1 }
  if 2 ^ 27 ≤ m.scrub0 + m.scrub1 then
    let t := t.setMem { m with scrub0 := 0, scrub1 := 0, scrubAt := t.cur.clock, scrubHours := t.g 0x6200 0 0x14 }
    (t.tally 0x6200 0 0x17).w 0x6200 0 0x15 0
  else (t.setMem m).w 0x6200 0 0x15 (scrubShare (m.scrub0 + m.scrub1) (2 ^ 27))

/-- SCRUB (R394): the patrol scrub reads the next codeword of a subchannel, at `offset`, while nothing else waits there; `bad` are
the symbols in error. One that is kept uncorrectable is found so (R385). -/
def execScrub (n offset : Nat) (bad : List Nat) (s : State) : Host.Outcome State Fault Refusal :=
  run s fun t =>
    let w := subWord n (s.mem.scrubbed n)
    if t.g 0x6200 0 0x01 != 1 || (s.mem.sub n).alert || s.waitsFor (7 + n) false || 2 ^ 26 ≤ s.mem.scrubbed n || offset / 64 != w then t
    else (((t.issue n (.read w)).dramRead w bad).2.2).scrubNext n

/-- Words of SRAM region r (Table 14.4). -/
def regionWords (r : Nat) : Nat := nth [4194304, 524288, 262144, 131072, 131072, 786432, 262144] r 1

/-- The SRAM patrol has read the next word of region 1 to 6 (R381). -/
def Tx.patrolWord (t : Tx s0) (r : Nat) : Tx s0 :=
  let done := mget 0 t.cur.mem.patrol r + 1
  if regionWords r ≤ done then
    ((t.setMem { t.cur.mem with patrol := mputD 0 r 0 t.cur.mem.patrol }).tally 0x6100 r 0x07).w 0x6100 r 0x08 0
  else
    (t.setMem { t.cur.mem with patrol := mputD 0 r done t.cur.mem.patrol }).w 0x6100 r 0x08
      (100 * done / regionWords r)

/-- Self-refresh is entered (R395): the debt is repaid, all banks are precharged, and the devices take the command. -/
def Tx.selfRefresh (t : Tx s0) : Tx s0 :=
  let t := t.repay.each [0, 1] (fun t k => (t.issue k .prechargeAll).modSub k (fun x => { x with rows := [] }))
  (t.tally 0x6200 0 0x1E).w 0x6200 0 0x01 2

/-- Whether self-refresh may be entered (R395): in IDLE or STANDBY, no piece waits, and none was queued for the delay. -/
def State.refreshesItself (s : State) : Bool :=
  (s.g 0x6500 0 0x01 == 2 || s.power.standby) && s.g 0x6200 0 0x01 == 1 && !s.alerted &&
  !s.waitsFor 7 false && !s.waitsFor 8 false && s.mem.pieceAt + 1000 * s.g 0x6200 0 0x1D ≤ s.clock

/-- SELF_REFRESH_ENTRY (R395): after the delay without pieces in IDLE or STANDBY. `request` is 0 when none arrives, 1
when one arrives before the entry command, 2 after it. -/
def execSelfRefreshEntry (request : Nat) (s : State) : Host.Outcome State Fault Refusal :=
  run s fun t =>
    if !s.refreshesItself then t
    else if request == 1 then (t.repay.tally 0x6200 0 0x1F).setMem { t.repay.cur.mem with pieceAt := s.clock }
    else if request == 2 then (t.selfRefresh.w 0x6200 0 0x01 1).setMem { t.selfRefresh.cur.mem with pieceAt := s.clock }
    else t.selfRefresh

/-- Own rule of a write to 0x6210[d]:05 (R387). -/
def markRule (d : Nat) (data : Bytes) (t : Tx s0) : Tx s0 :=
  if leNat data == 1 then
    match t.cur.markedDevice (d / 5) with
    | some d' => if d' == d then t else t.status stState
    | none => t.markDevice d 1
  else ((t.w 0x6210 d 0x05 0).w 0x6210 d 0x06 0).w 0x6210 d 0x07 0

/-- MARK_DEVICE (R387): write of 0x6210[d]:05. -/
def execMarkDevice (h n : Nat) (d : Bytes) (s : State) : Host.Outcome State Fault Refusal :=
  run s fun t => t.guarded h (opOf 0x6210 n 0x05 d) (markRule n d)

/-- Own rule of a write to 0x6200:11 (R393): the time of a scheduled retraining. -/
def retrainTimeRule (data : Bytes) (t : Tx s0) : Tx s0 :=
  let v := leNat data
  if v != 0 && v ≤ t.cur.now + 32 then t.status stTooLate
  else if t.g 0x3F00 0 0x03 != 0 || t.cur.ctl.commit.isSome then t.status stState
  else t.w 0x6200 0 0x11 v

/-- Own rule of a write to 0x6010[i]:03 (R400). -/
def qosRule (i : Nat) (data : Bytes) (t : Tx s0) : Tx s0 :=
  if nth masterClass i 0 == 1 then t.status stState else t.w 0x6010 i 0x03 (leNat data)

end Sys2Proof.Machine
end

