-- ==== Sys2Proof/Machine/Bus.lean ====
section
/-! DEFINITION. The bus matrix (R370 to R377): decoding, pieces, arbitration, locks and drains; and what a piece does in the
DRAM (R382 to R386, R397). -/

namespace Sys2Proof.Machine
open Sys2Proof

variable {s0 : State}

/-! ## What a piece does (R370, R385, R386, R397) -/

/-- Symbols in error that a request meets in codeword w. -/
def errsAt (r : BusReq) (w : Nat) : List Nat := mget [] r.bad w

/-- Bytes that a write of a burst puts at byte addresses a to a + n − 1 : none where the strobe is off. -/
def strobesAt (r : BusReq) (data : List (Option Byte)) (a n : Nat) : List (Option Byte) :=
  let base := r.addr / 32 * 32
  (List.range n).map (fun i => if a + i < base then none else nth data (a + i - base) none)

/-- Whether a piece goes to the row of a place in the DRAM. -/
def BusPiece.hits (f : BusPiece) (p : DramPlace) : Bool :=
  let q := dramMap (f.addr - 0x200000000)
  7 ≤ f.target && q.sub == p.sub && q.bankNo == p.bankNo && q.row == p.row

/-- Piece f acts in the DRAM (R385, R386, R389): its row is opened, and the codewords that it touches are written or read; what a
read finds, no value for the bytes of an uncorrectable codeword. The row is closed with the last queued access to it. -/
def Tx.dramPiece (t : Tx s0) (f : BusPiece) : Option (List (Option Byte)) × Tx s0 :=
  let r := f.req
  let off := f.addr - 0x200000000
  let len := 32 * f.beats
  let p := dramMap off
  let ws := range' (off / 64) ((off + len - 1) / 64 + 1 - off / 64)
  let t := if t.g 0x6200 0 0x01 == 2 then t.w 0x6200 0 0x01 1 else t
  let t := t.openFor p.sub p.bankNo p.row
  let more := (t.cur.mem.flights.erase f).any (fun g => g.got.isNone && g.hits p)
  let close := fun (t : Tx s0) => if more then t else t.closeRow p.sub p.bankNo
  match r.data with
  | some d =>
    (some [], close (t.each ws (fun t w =>
      let inPiece := (strobesAt r d (0x200000000 + 64 * w) 64).zip (List.range 64) |>.map (fun p =>
        if off ≤ 64 * w + p.2 && 64 * w + p.2 < off + len then p.1 else none)
      let t := t.dramWrite w inPiece (errsAt r w)
      if inPiece.all Option.isNone then t else t.issue p.sub (.write w (t.cur.dramWord w)))))
  | none =>
    let got := ws.foldl (fun (acc : List (Option Byte) × Tx s0) w =>
      let q := (acc.2.issue p.sub (.read w)).dramRead w (errsAt r w)
      (acc.1 ++ (if q.1 then List.replicate 64 none else q.2.1.map some), q.2.2)) ([], t)
    (some ((got.1.drop (off % 64)).take len), close got.2)

/-- SRAM region behind a target at a place, and the number of the word there (Tables 14.2 and 14.4). -/
def sramAt (j o : Nat) : Option (Nat × Nat) :=
  match j with
  | 1 => some (6, o / 8)
  | 3 => some (if o < 0x100000 then (4, o / 8) else (2, (o - 0x100000) / 8))
  | 4 => some (3, o / 8)
  | 5 => some (1, o / 8)
  | 6 => some (5, o / 4)
  | _ => none

/-- What an address of the Tending pool's local memories names (Table 14.2): core, memory (0 program, 1 X, 2 Y), and byte there. -/
def poolPlace (o : Nat) : Nat × Nat × Nat := (o / 0x30000, o / 0x10000 % 3, o % 0x10000)

/-- A byte behind target 0 to 6: of the boot ROM, of the MRAM, or of an on-chip memory, which holds zeros until a bus write (DESIGN
CHOICE, assumption 56). -/
def State.cell (s : State) (j o : Nat) : Byte :=
  if j == 0 then Config.romByte o else if j == 2 then s.mramByte o else mget 0 s.mem.cells (targetBase j + o)

/-- Bytes written behind target 0 to 6 where strobes are on: the boot ROM takes none. A write-back that waits for a word that is
written is dropped (R379). -/
def Tx.cellsWrite (t : Tx s0) (j o : Nat) (new : List (Option Byte)) : Tx s0 :=
  if j == 0 then t
  else if j == 2 then t.mramWrite o new
  else
    let at_ := fun (i : Nat) => nth new i none
    let cells := (List.range new.length).foldl (fun m i =>
      match at_ i with
      | some b => mputD 0 (targetBase j + o + i) b m
      | none => m) t.cur.mem.cells
    let hit := fun (x : Nat × Nat) =>
      (List.range new.length).any (fun i => (at_ i).isSome && sramAt j (o + i) == some x)
    t.setMem { t.cur.mem with cells := cells, fixes := t.cur.mem.fixes.filter (fun x => !hit x) }

/-- Words in error that a piece of n beats at place o of target j reads (R379, R380): corrections are reported, and which words are
uncorrectable; one of the system SRAM is a machine check in the control processor. -/
def Tx.sramErrors (t : Tx s0) (r : BusReq) (j o n : Nat) : List (Nat × Nat) × Tx s0 :=
  let mine := r.sram.filter (fun x =>
    (List.range (32 * n)).any (fun i => sramAt j (o + i) == some (x.region, x.word)))
  let t := t.each (mine.filter (fun x => secDecode x.region x.mask == 1)) (fun t x => t.sramFixed x)
  let lost := mine.filter (fun x => secDecode x.region x.mask == 2)
  let t := t.each lost (fun t x => t.sramBad x.region x.word)
  let check := (lost.filter (fun x => x.region == 6)).map (·.word)
  (lost.map (fun x => (x.region, x.word)), t.setMem { t.cur.mem with checks := t.cur.mem.checks ++ check })

/-- Piece f acts at its target (R370, R371, R377, R380): a write where its strobes are on; what a read finds, no value for the bytes of
an uncorrectable word. -/
def Tx.pieceActs (t : Tx s0) (f : BusPiece) : Option (List (Option Byte)) × Tx s0 :=
  if 7 ≤ f.target then t.dramPiece f
  else
    let j := f.target
    let n := f.beats
    let o := targetPlace j f.addr
    match f.req.data with
    | some d => (some [], t.cellsWrite j o (strobesAt f.req d f.addr (32 * n)))
    | none =>
      let e := t.sramErrors f.req j o n
      let lost := fun (i : Nat) => match sramAt j (o + i) with
        | some x => e.1.contains x
        | none => false
      (some ((List.range (32 * n)).map (fun i => if lost i then none else some (e.2.cur.cell j (o + i)))), e.2)

/-- Accepted piece f acts, and completes at counter `done`. -/
def Tx.flightActs (t : Tx s0) (f : BusPiece) (done : Nat) : Tx s0 :=
  let r := t.pieceActs f
  let rest := r.2.cur.mem.flights.span (· != f)
  r.2.setMem { r.2.cur.mem with flights := rest.1 ++ ({ f with got := r.1, finish := done } :: rest.2.drop 1) }

/-- A reader gets bytes, or none where they are poisoned; who reads for a purpose acts by R386 on poisoned ones. -/
def Tx.deliver (t : Tx s0) (r : BusReq) (a : Nat) (bytes : List (Option Byte)) : Tx s0 :=
  let t := t.when (bytes.any Option.isNone && r.use != .other) (fun t =>
    t.setMem { t.cur.mem with poison := t.cur.mem.poison ++ [r.use] })
  t.emit (.bus r.master a bytes)

/-- A piece completes: a read is delivered, unless its data go nowhere. What was draining for a master that was reset has drained,
and its new requests are accepted from then on (R377). -/
def Tx.flightEnds (t : Tx s0) (f : BusPiece) : Tx s0 :=
  let m := t.cur.mem
  let waits := if f.drain.isNone then m.waits
    else m.waits.map (fun w => if w.req.master == f.req.master then { w with since := max w.since f.finish } else w)
  let t := t.setMem { m with flights := m.flights.erase f, waits := waits }
  let t := match f.drain with
    | some c => t.peak 0x6000 0 0x05 (f.finish - c)
    | none => t
  match f.req.data, f.got with
  | none, some bytes => if f.dead then t else t.deliver f.req f.addr bytes
  | _, _ => t

/-! ## The DRAM controller's queue (R388, R397) -/

/-- Whether a request is of a real-time master, and whether it has QoS 15 there (Table 14.1). -/
def realTimeReq (r : BusReq) : Bool := nth masterClass r.master 0 == 1
def topReq (r : BusReq) : Bool := realTimeReq r && (nth masterQos r.master 0 == 15 || (r.master == 5 && r.urgent))

/-- Pieces in the queue of subchannel n at counter c, oldest first. -/
def State.queued (s : State) (n c : Nat) : List BusPiece :=
  s.mem.flights.filter (fun f => f.target == 7 + n && f.got.isNone && f.start + f.beats ≤ c)

/-- The counter at which subchannel n serves its next piece: none while its queue is empty or ALERT_n is low (R392). -/
def State.slotAt (s : State) (n : Nat) : Option Nat :=
  let q := s.mem.flights.filter (fun f => f.target == 7 + n && f.got.isNone)
  if (s.mem.sub n).alert then none
  else match q.map (fun f => f.start + f.beats) with
    | [] => none
    | c :: cs => some (max (s.mem.sub n).next (cs.foldl min c))

/-- The pieces among which a slot of subchannel n chooses (R388): those of the higher rank, or, in every fourth slot while no piece of
QoS 15 waits, the normal ones, whose share 0x6300:06 gives (DEDUCED, assumption 56). -/
def State.slotRank (s : State) (n : Nat) : List BusPiece :=
  let q := s.queued n s.clock
  let rt := q.filter (fun f => realTimeReq f.req)
  let nm := q.filter (fun f => !realTimeReq f.req)
  if rt.isEmpty then nm
  else if !rt.any (fun f => topReq f.req) && 3 ≤ (s.mem.sub n).slots && !nm.isEmpty then nm
  else rt

/-- The piece that hits the open row of a bank to another row of which the oldest piece goes, while it may overtake (R388). -/
def State.overtaker (s : State) (n : Nat) (l : List BusPiece) : Option BusPiece :=
  match l with
  | [] => none
  | f :: fs =>
    let p := dramMap (f.addr - 0x200000000)
    match s.openRow n p.bankNo with
    | some row =>
      if p.row == row || 16 ≤ (s.mem.sub n).passes then none else fs.find? (fun g => g.hits { p with row := row })
    | none => none

/-- A slot of subchannel n (R388): the oldest piece of the rank is served, or one that hits an open row overtakes it. Whether one that
may overtake does, when the piece completes within the target's bound, and how long the slot lasts, up to a sixty-fourth of
that bound, are open (assumptions 2 and 56). -/
def Tx.serve (t : Tx s0) (n : Nat) : Tx s0 :=
  let s := t.cur
  let l := s.slotRank n
  let f := t.fresh
  let x := if f.1 % 2 == 0 then s.overtaker n l else none
  match x, l with
  | _, [] => t
  | x, g :: _ =>
    let p := x.getD g
    let bound := p.start + p.beats + nth drainBound p.target 0
    let e := f.2.fresh
    let w := e.2.fresh
    let waiting := (s.queued n s.clock).any (fun q => realTimeReq q.req)
    let t := w.2.modSub n (fun y => { y with
      next := s.clock + 1 + w.1 % (nth drainBound p.target 0 / 64),
      passes := if x.isSome then y.passes + 1 else 0,
      slots := if realTimeReq p.req && waiting then min 3 (y.slots + 1) else 0 })
    t.flightActs p (s.clock + e.1 % (bound - s.clock + 1))

/-- A real-time read of the DRAM that has not returned by its deadline (R397): counted. -/
def Tx.lateRead (t : Tx s0) (r : BusReq) (a n : Nat) : Tx s0 :=
  ((t.inc 0x6200 0 0x1C 1).flagBit 0x6200 0 0x21 7).deliver r a (List.replicate (32 * n) none)

/-- Deadline of a real-time read (R397). -/
def dueOf (r : BusReq) : Option Nat := if realTimeReq r && r.data.isNone then r.deadline else none

/-! ## Arbitration (R373 to R375) -/

/-- Port of target j. -/
def State.port14 (s : State) (j : Nat) : BusPort := mget BusPort.init s.mem.ports j
def Tx.setPort14 (t : Tx s0) (j : Nat) (x : BusPort) : Tx s0 :=
  t.setMem { t.cur.mem with ports := mputD BusPort.init j x t.cur.mem.ports }

/-- QoS of a request at its arrival (Table 14.1, R400). -/
def State.busQos (s : State) (r : BusReq) : Nat :=
  if nth masterClass r.master 0 == 0 then s.g 0x6010 r.master 0x03
  else if r.master == 5 && r.urgent then 15
  else nth masterQos r.master 0

/-- Whether a piece is raised by age at counter d, and its QoS there (R373). -/
def BusRun.aged (r : BusRun) (d : Nat) : Bool := nth masterClass r.req.master 0 == 0 && r.since + 4096 ≤ d
def BusRun.qosAt (r : BusRun) (d : Nat) : Nat := if r.aged d then 11 else r.qos

/-- Whether a piece of master m that was reset still drains (R377). -/
def State.draining (s : State) (m : Nat) : Bool := s.mem.flights.any (fun f => f.req.master == m && f.drain.isSome)

/-- Whether target j may accept a further piece of a burst: a read waits while its master holds as many read pieces there as it may
(R370), and everything of a master whose reset has not completed (R377). -/
def State.accepts (s : State) (j : Nat) (r : BusRun) : Bool :=
  !s.draining r.req.master &&
  (r.req.data.isSome || (s.mem.flights.filter (fun f =>
    f.target == j && f.req.master == r.req.master && f.req.data.isNone)).length < readLimit r.req.master)

/-- Bursts whose next piece asks for target j: of each master its oldest, and under a lock those of its holder (R375). -/
def State.askers (s : State) (j : Nat) : List BusRun :=
  let mine := s.mem.waits.filter (fun r => s.pieceTarget r == some j &&
    (match (s.port14 j).lock with
     | some l => l.1 == r.req.master
     | none => true))
  mine.foldl (fun acc r => if acc.any (fun q => q.req.master == r.req.master) then acc else acc ++ [r]) []

/-- Distance of master m after the one last granted at a QoS (R374, rule 2). -/
def BusPort.turn (p : BusPort) (q m : Nat) : Nat := (m + 13 - mget 13 p.last q) % 14

/-- The winner among askers at counter d (R374, rules 1 and 2). -/
def State.winner (s : State) (j d : Nat) (rs : List BusRun) : Option BusRun :=
  let p := s.port14 j
  rs.foldl (fun (best : Option BusRun) r =>
    match best with
    | none => some r
    | some b =>
      let q := r.qosAt d
      let qb := b.qosAt d
      if qb < q || (q == qb && p.turn q r.req.master < p.turn q b.req.master) then some r else best) none

/-- The next grant of target j from now on (R374, rules 3 and 5): the counter at which it is decided, its first cycle, and the burst. The
controller of a subchannel takes at most 64 pieces (R388). -/
def State.nextGrant (s : State) (j : Nat) : Option (Nat × Nat × BusRun) :=
  let rs := (s.askers j).filter (s.accepts j)
  let from_ := fun (r : BusRun) => max r.since s.clock
  let p := s.port14 j
  if 7 ≤ j && 64 ≤ (s.mem.flights.filter (fun f => f.target == j && f.got.isNone)).length then none
  else
    match rs with
    | [] => none
    | r0 :: _ =>
      let a := rs.foldl (fun m r => min m (from_ r)) (from_ r0)
      let d := if a < p.free then p.free - 1 else a
      (s.winner j d (rs.filter (fun r => from_ r ≤ d))).map (fun w =>
        (d, if a < p.free then p.free else if p.parked == w.req.master then a else a + 1, w))

/-- The counter at which the lock of target j is released because its second piece has not arrived (R375). -/
def State.lockEnds (s : State) (j : Nat) : Option Nat :=
  match (s.port14 j).lock with
  | some l => if (s.askers j).any (fun r => r.since < l.2 + 64) then none else some (l.2 + 64)
  | none => none

/-- A lock is released after 64 cycles (R375). -/
def Tx.lockRelease (t : Tx s0) (j e : Nat) : Tx s0 :=
  let p := t.cur.port14 j
  ((t.setPort14 j { p with lock := none, free := max p.free e }).tally 0x6000 0 0x07).flagBit 0x6000 0 0x0B 2

/-- The lock of a port after a piece of master m that ends before counter e (R375): the first piece of a locked sequence takes
it, the next one gives it back. -/
def BusPort.lockAfter (p : BusPort) (j : Nat) (r : BusReq) (e : Nat) : Option (Nat × Nat) :=
  match p.lock with
  | some _ => none
  | none => if r.lock && r.master ≤ 1 && (j == 1 || j == 2) then some (r.master, e) else none

/-- A piece that no target it may reach decodes (R371): a read returns zeros, a write changes nothing. -/
def Tx.decodeError (t : Tx s0) (w : BusRun) : Tx s0 :=
  let m := w.req.master
  let a := if w.done == 0 then w.req.addr % 2 ^ 36 else w.addr
  let t := ((t.tally 0x6000 0 0x03).inc 0x6010 m 0x06 1).w 0x6000 0 0x09 a
  let t := (t.w 0x6000 0 0x0A m).flagBit 0x6000 0 0x0B 0
  if w.req.data.isNone && !w.late then t.emit (.bus m w.addr ((zeros (32 * w.size)).map some)) else t

/-- Pieces of a burst that cannot be decoded fall out at its head, at most `fuel`; what is left of it. -/
def Tx.decoded (t : Tx s0) (w : BusRun) : Nat → Option BusRun × Tx s0
  | 0 => (none, t)
  | fuel + 1 =>
    if w.req.beats ≤ w.done then (none, t)
    else if (t.cur.pieceTarget w).isSome then (some w, t)
    else (t.decodeError w).decoded { w with done := w.done + w.size } fuel

/-- A request reaches the matrix. -/
def Tx.enter (t : Tx s0) (w : BusRun) : Tx s0 :=
  let r := t.decoded w (w.req.beats + 1)
  r.2.setMem { r.2.cur.mem with waits := r.2.cur.mem.waits ++ r.1.toList }

/-- The first n beats of burst w have been granted from counter c on: what is left of it asks from then, in its place. -/
def Tx.advance (t : Tx s0) (w : BusRun) (n c : Nat) : Tx s0 :=
  let r := t.decoded { w with done := w.done + n, since := c } (w.req.beats + 1)
  let rest := r.2.cur.mem.waits.span (· != w)
  r.2.setMem { r.2.cur.mem with waits := rest.1 ++ r.1.toList ++ rest.2.drop 1 }

/-- A piece is granted by target j (R374): counts, port and lock, and it is accepted. When a piece of an on-chip target completes,
within the target's bound after its last beat, is open (assumption 2). A wait of a real-time piece at the DRAM is a stall (R396). -/
def Tx.grant (t : Tx s0) (j d start : Nat) (w : BusRun) : Tx s0 :=
  let s := t.cur
  let m := w.req.master
  let n := w.size
  let p := s.port14 j
  let lock := p.lockAfter j w.req (start + n)
  let t := ((t.inc 0x6000 0 0x02 1).inc 0x6010 m 0x04 1).inc 0x6020 j 0x02 1
  let t := (t.peak 0x6010 m 0x05 (start - w.since)).w 0x6020 j 0x04 m
  let t := t.when (7 ≤ j && nth masterClass m 0 == 1) (fun t => t.peak 0x6300 0 0x05 (start - w.since))
  let t := (t.when (w.aged d) (fun t => t.inc 0x6000 0 0x08 1)).when lock.isSome (fun t => t.inc 0x6000 0 0x06 1)
  let t := t.setPort14 j { free := start + n, parked := m, last := mset (w.qosAt d) m p.last, lock := lock,
                           beats := p.beats + n }
  let f := t.fresh
  let done := if 7 ≤ j then 0 else start + n + f.1 % (nth drainBound j 0 + 1)
  let x : BusPiece := ⟨j, w.req, w.addr, n, start, done, none, w.late, none⟩
  let t := f.2.setMem { f.2.cur.mem with flights := f.2.cur.mem.flights ++ [x],
                                         pieceAt := if 7 ≤ j then max f.2.cur.mem.pieceAt start else f.2.cur.mem.pieceAt }
  t.advance w n start

/-! ## The course of events -/

/-- What happens next at the matrix and its targets: an accepted piece completes or acts, a subchannel serves a piece, a lock is
released, a target grants a piece, or a read of a waiting burst or of an accepted piece misses its deadline. -/
inductive BusEvent
  | ends (f : BusPiece)
  | acts (f : BusPiece)
  | slot (n : Nat)
  | unlock (j : Nat)
  | grant (j start : Nat) (w : BusRun)
  | lateRun (w : BusRun)
  | latePiece (f : BusPiece)
  deriving DecidableEq, Repr

/-- What is due up to counter c, a grant before it, with the counter of each. -/
def State.busEvents (s : State) (c : Nat) : List (Nat × BusEvent) :=
  let fs := s.mem.flights
  let ports := (List.range 9).filterMap (fun j =>
    match s.lockEnds j with
    | some e => if e ≤ c then some (e, BusEvent.unlock j) else none
    | none => (s.nextGrant j).bind (fun g => if g.1 < c then some (g.1, BusEvent.grant j g.2.1 g.2.2) else none))
  ((fs.filter (fun f => f.got.isSome && f.finish ≤ c)).map (fun f => (f.finish, .ends f))) ++
  ((fs.filter (fun f => f.got.isNone && f.target < 7 && f.start + f.beats ≤ c)).map (fun f => (f.start + f.beats, .acts f))) ++
  ([0, 1].filterMap (fun n => (s.slotAt n).bind (fun e => if e ≤ c then some (e, BusEvent.slot n) else none))) ++ ports ++
  (s.mem.waits.filterMap (fun w => (dueOf w.req).bind (fun e =>
    if !w.late && e ≤ c && ((s.pieceTarget w).any (7 ≤ ·)) then some (e, BusEvent.lateRun w) else none))) ++
  (fs.filterMap (fun f => (dueOf f.req).bind (fun e =>
    if !f.dead && e ≤ c && 7 ≤ f.target then some (e, BusEvent.latePiece f) else none)))

/-- The earliest of events; of two at one counter the one listed first. -/
def firstEvent (l : List (Nat × BusEvent)) : Option (Nat × BusEvent) :=
  l.foldl (fun best x =>
    match best with
    | none => some x
    | some b => if x.1 < b.1 then some x else best) none

/-- One event takes place. -/
def Tx.busEvent (t : Tx s0) (d : Nat) (e : BusEvent) : Tx s0 :=
  match e with
  | .ends f => t.flightEnds f
  | .acts f => t.flightActs f f.finish
  | .slot n => t.serve n
  | .unlock j => t.lockRelease j d
  | .grant j start w => t.grant j d start w
  | .lateRun w =>
    (t.setMem { t.cur.mem with waits := t.cur.mem.waits.map (fun x => if x == w then { x with late := true } else x) }).lateRead
      w.req w.addr (w.req.beats - w.done)
  | .latePiece f =>
    (t.setMem { t.cur.mem with flights := t.cur.mem.flights.map (fun x => if x == f then { x with dead := true } else x) }).lateRead
      f.req f.addr f.beats

/-- Events up to counter c, in the order in which they fall, each at its reading of the counter. -/
def Tx.busEventsTo (c : Nat) : Nat → Tx s0 → Tx s0
  | 0, t => t
  | fuel + 1, t =>
    match firstEvent (t.cur.busEvents c) with
    | some (d, e) => Tx.busEventsTo c fuel ((t.tick t.cur.now (max t.cur.clock d)).busEvent d e)
    | none => t

/-- The matrix and its targets do what falls due between the last command and the present reading of the counter. -/
def Tx.busRun (t : Tx s0) : Tx s0 :=
  let c := t.cur.clock
  let m := t.cur.mem
  let fuel := 6 * sumN (m.waits.map (fun r => r.req.beats)) + 4 * m.flights.length + 20
  if m.waits.isEmpty && m.flights.isEmpty && m.ports.all (fun p => p.2.lock.isNone) then t
  else
    let t := Tx.busEventsTo c fuel (t.tick t.cur.now (min s0.clock c))
    t.tick t.cur.now c

/-- What the masters asked of the matrix since the last period, in order of arrival, the grants and what accepted pieces do up to
now, and the background work of an idle moment: write-backs and the refresh debt. -/
def Tx.busPeriod (t : Tx s0) (rs : List BusReq) : Tx s0 :=
  let t := t.setMem { t.cur.mem with fixes := [] }
  let t := t.each rs (fun t r => t.enter ⟨r, t.cur.busQos r, 0, r.at_, false⟩)
  ((t.busRun.writeBack 0).writeBack 1).repayIdle

/-- A whole second: the occupancy of every target over the second before (0x6020[j]:03). -/
def Tx.showBusLoad (t : Tx s0) : Tx s0 :=
  t.each (List.range 9) (fun t j =>
    let p := t.cur.port14 j
    (t.w 0x6020 j 0x03 (min 100 (p.beats / 10000000))).setPort14 j { p with beats := 0 })

/-- LOCK_TIMEOUT (R375): the second piece has not come within 64 cycles of the end of the first, and the lock of target n, T1 or
T2, is released; one that came in time waits for its grant. -/
def execLockTimeout (n clock : Nat) (s : State) : Host.Outcome State Fault Refusal :=
  run s fun t =>
    let t := t.at_ clock
    match t.cur.lockEnds n with
    | some e => if t.cur.clock < e then t else t.lockRelease n e
    | none => t

/-! ## Master resets (R377) -/

/-- What is left of an accepted piece when its master is reset at counter c (R377): of a write the beats that have been sent; a read
goes on to its target, and its data are discarded. -/
def BusPiece.cut (f : BusPiece) (c : Nat) : BusPiece :=
  let f := { f with dead := true, drain := some c }
  match f.req.data with
  | some d =>
    let sent := min f.beats (c - f.start)
    let base := f.req.addr / 32 * 32
    { f with req := { f.req with data := some (((List.range d.length).zip d).map (fun p =>
      if f.addr + 32 * sent ≤ base + p.1 then none else p.2)) } }
  | none => f

/-- Master m is reset: its pieces not granted are withdrawn, its locks released, and a piece in progress drains: the beats of a write
that have not been sent go with all strobes off, the data of a read are discarded, and until the piece is complete new requests
are not accepted. -/
def Tx.masterDrain (t : Tx s0) (m : Nat) : Tx s0 :=
  let t := t.busRun
  let c := t.cur.clock
  let mine := t.cur.mem.flights.filter (fun f => f.req.master == m && f.drain.isNone)
  let t := t.setMem { t.cur.mem with
    waits := t.cur.mem.waits.filter (fun r => r.req.master != m),
    flights := t.cur.mem.flights.map (fun f => if f.req.master == m && f.drain.isNone then f.cut c else f) }
  let t := t.each (List.range 9) (fun t j =>
    let p := t.cur.port14 j
    match p.lock with
    | some l => if l.1 == m then t.setPort14 j { p with lock := none } else t
    | none => t)
  t.each mine (fun t _ => ((t.tally 0x6000 0 0x04).inc 0x6010 m 0x07 1).flagBit 0x6000 0 0x0B 1)

/-- ALERT (R392): ALERT_n of a subchannel falls; the controller stops issuing on it. -/
def execAlert (n : Nat) (s : State) : Host.Outcome State Fault Refusal :=
  run s fun t =>
    if (s.mem.sub n).alert then t
    else (t.busRun.modSub n (fun x => { x with alert := true, alertAt := s.clock })).tally 0x6200 0 0x09

end Sys2Proof.Machine
end

