-- ==== Sys2Proof/Machine/Scene.lean ====
section
/-! DEFINITION. Scene model (R32 to R58): pushes, keyframe queues, interpolation, the scene transform, the speed of
sound, and the entries of object channels. -/

namespace Sys2Proof.Machine
open Sys2Proof

variable {s0 : State}

/-! ## Queues -/

/-- Track of object n. -/
def State.track (s : State) (n : Nat) : Track := mget emptyTrack s.scene.tracks n

/-- Replace the track of object n. -/
def Tx.setTrack (t : Tx s0) (n : Nat) (x : Track) : Tx s0 :=
  t.setScene { t.cur.scene with tracks := mputD emptyTrack n x t.cur.scene.tracks }

/-- Insert a keyframe by effective time; one of the same time is replaced (R47, R48). The Boolean says so. -/
def insertKf (k : Keyframe) : List Keyframe → Bool × List Keyframe
  | [] => (false, [k])
  | q :: qs =>
    if k.time < q.time then (false, k :: q :: qs)
    else if k.time == q.time then (true, k :: qs)
    else
      let r := insertKf k qs
      (r.1, q :: r.2)

/-- Object and tag of a keyframe as trace types 3 and 4 carry them (Table 18.3). -/
def kfPayload (n tag : Nat) : Bytes := leBytes 2 n ++ [0, 0] ++ leBytes 4 tag

/-! ## Records -/

/-- Vector at an offset of a record. -/
def vecAt (r : Bytes) (o : Nat) : Vec3 := ⟨fieldLE r o 4, fieldLE r (o + 4) 4, fieldLE r (o + 8) 4⟩

/-- Every component between −m and m. -/
def vecIn (m : F32) (v : Vec3) : Bool :=
  [v.x, v.y, v.z].all (fun c => F.le (F.neg m) c && F.le c m)

/-- 1000.0, 500.0, −120.0, 24.0, 180.0, 50.0 in binary32. -/
def f1000 : F32 := 0x447A0000
def f500 : F32 := 0x43FA0000
def fm120 : F32 := 0xC2F00000
def f24 : F32 := 0x41C00000
def f180 : F32 := 0x43340000
def f50 : F32 := 0x42480000

/-- Animated values of a record (Table 2.4). -/
def recordVals (r : Bytes) : Vals :=
  { pos := vecAt r 16, vel := vecAt r 28, gain := fieldLE r 40 4, spread := fieldLE r 44 4, size := fieldLE r 48 4 }

/-- Check 4 of R44: kind, reserved bits and fields, and the range of every F32 field. -/
def recordInRange (r : Bytes) : Bool :=
  let v := recordVals r
  fieldLE r 2 1 ≤ 2 && clearBits (fieldLE r 3 1) 0x37 == 0 && fieldLE r 52 4 == 0 &&
  vecIn f1000 v.pos && vecIn f500 v.vel && F.le fm120 v.gain && F.le v.gain f24 &&
  F.le 0 v.spread && F.le v.spread f180 && F.le 0 v.size && F.le v.size f50

/-- What one push has come to so far (Table 2.9). -/
structure Push where
  onTime : Nat
  late : Nat
  refused : Nat
  first : Option (Nat × Nat)
  replaced : Nat
  flushed : Nat
  busy : Bool
  /-- Sprinkler records of the replicated keyframes accepted on the head (R256). -/
  records : List Bytes
  deriving DecidableEq, Repr

/-- A push before its first record. -/
def Push.init : Push := ⟨0, 0, 0, none, 0, 0, false, []⟩

/-- Checks 1 to 4 of R44 in their order; `who` is the pushing host, none for records of the Sprinkler, whose rights
check is the replication mask (R259). On a device that is not the head a replicated object answers STATE (R255); R44 does
not name this check, and it stands after NO_RIGHT and before OUT_OF_RANGE (DESIGN CHOICE, assumption 80). -/
def State.recordCheck (s : State) (who : Option Nat) (a : Nat) (r : Bytes) : Nat :=
  let n := fieldLE r 0 2
  let flags := fieldLE r 3 1
  if 1024 ≤ n then stNoEntry
  else if 512 ≤ n && s.fA == 96000 then stState
  else if (match who with
    | some h => !s.owns h 0x01 n
    | none => false) then stNoRight
  else if who.isSome && s.replicated n && !s.isHead then stState
  else if !recordInRange r || (!bit flags 5 && a + 2 ^ 31 < fieldLE r 8 8) then stOutOfRange
  else stOK

/-- Refuse record i with a status (R44). -/
def refuseRecord (i n st : Nat) (x : Tx s0 × Push) : Tx s0 × Push :=
  let (t, p) := x
  let p := { p with refused := p.refused + 1, first := p.first.or (some (i, st)), busy := p.busy || st == stBusy }
  let t := if n < 1024 then t.tally 0x2000 n 0x16 else t
  (t.when (st == stBusy) (fun t => (t.flagBit 0x2000 n 0x17 2).flagBit 0x2800 0 0x11 1), p)

/-- Effective time of an accepted record, and whether it is late (R45, R46, R256). -/
def State.effective (s : State) (who : Option Nat) (a : Nat) (r : Bytes) : Nat × Bool :=
  let imm := bit (fieldLE r 3 1) 5
  let time := fieldLE r 8 8 / 16 * 16
  let head := who.isSome && s.isHead && s.replicated (fieldLE r 0 2)
  let ls := s.leadBoundary a
  let t1 := if head && (imm || time < ls) then ls else time
  let lateHead := head && !imm && time < ls
  if imm && !head then (nextEval a, false)
  else if a + 32 < t1 then (t1, lateHead)
  else (nextEval a, true)

/-- The Sprinkler's record of a keyframe: the effective time as its Time and IMMEDIATE clear (R258). -/
def sprkKeyframe (r : Bytes) (time : Nat) : Bytes :=
  [0, 0] ++ leBytes 2 56 ++ slice r 0 3 ++ leBytes 1 (clearBits (fieldLE r 3 1) 0x20) ++ slice r 4 4 ++
  leBytes 8 time ++ slice r 16 40

/-- Accept or refuse one record (R44 to R49). -/
def pushRecord (who : Option Nat) (a i : Nat) (r : Bytes) (x : Tx s0 × Push) : Tx s0 × Push :=
  let (t, p) := x
  let n := fieldLE r 0 2
  let flags := fieldLE r 3 1
  let st := t.cur.recordCheck who a r
  if st != stOK then refuseRecord i n st x
  else
    let (time, late) := t.cur.effective who a r
    let tr := t.cur.track n
    let kept := if bit flags 4 then tr.queue.filter (fun q => q.time ≤ time) else tr.queue
    let gone := tr.queue.length - kept.length
    let k : Keyframe := { time := time, acc := t.cur.scene.accNext, kind := fieldLE r 2 1, flags := flags,
                          tag := fieldLE r 4 4, vals := recordVals r }
    let (rep, q) := insertKf k kept
    if !rep && 256 ≤ kept.length then refuseRecord i n stBusy x
    else
      let head := who.isSome && t.cur.isHead && t.cur.replicated n
      let retimed := head && fieldLE r 8 8 / 16 * 16 < t.cur.leadBoundary a && !bit flags 5
      let t := t.setTrack n { tr with queue := q }
      let t := t.setScene { t.cur.scene with accNext := t.cur.scene.accNext + 1 }
      let t := t.when (gone != 0) (fun t => t.flagBit 0x2000 n 0x17 4)
      let t := t.when rep (fun t => (t.tally 0x2000 n 0x15).flagBit 0x2000 n 0x17 1)
      let t := t.when late (fun t => (((t.tally 0x2000 n 0x14).flagBit 0x2000 n 0x17 0).tally 0x2800 0 0x0E).msg 4
        (kfPayload n k.tag))
      let t := t.when retimed (fun t => t.tally 0x5400 0 0x17)
      (t, { p with onTime := p.onTime + b2n (!late), late := p.late + b2n late, replaced := p.replaced + b2n rep,
                   flushed := p.flushed + gone,
                   records := if head then p.records ++ [sprkKeyframe r time] else p.records })

/-- The records of a push in order (R42, R44). -/
def Tx.pushAll (t : Tx s0) (who : Option Nat) (a : Nat) (rs : List Bytes) : Tx s0 × Push :=
  ((List.range rs.length).zip rs).foldl (fun x p => pushRecord who a p.1 p.2 x) (t, Push.init)

/-- Own rule of 0x2400:01 (R42 to R54): a push of host h. -/
def pushRule (h : Nat) (data : Bytes) (t : Tx s0) : Tx s0 :=
  if data.length % 56 != 0 then t.status stBadType
  else
    let a := t.cur.now
    let rs := chunks 56 data
    let (t, p) := t.pushAll (some h) a rs
    let t := (t.w 0x2401 h 0x01 (fieldLE data 4 4)).w 0x2401 h 0x02 rs.length
    let t := ((t.w 0x2401 h 0x03 p.onTime).w 0x2401 h 0x04 p.late).w 0x2401 h 0x05 p.refused
    let t := (t.w 0x2401 h 0x06 (p.first.getD (0xFFFF, 0)).1).w 0x2401 h 0x07 (p.first.getD (0xFFFF, 0)).2
    let t := (t.w 0x2401 h 0x08 a).w 0x2401 h 0x09 p.replaced
    let t := (t.w 0x2401 h 0x0A (min p.flushed 65535)).inc 0x2401 h 0x0C p.late
    let t := t.flag 0x2401 h 0x0B (b2n (p.late != 0) + 2 * b2n (p.refused != 0) + 4 * b2n p.busy)
    let t := t.when (!p.records.isEmpty) (fun t => t.sprkData p.records)
    match p.first with
    | some f => t.status f.2
    | none => t.status (if p.late != 0 then stTooLate else stOK)

/-- KEYFRAME_PUSH (R42). -/
def execKeyframePush (h : Nat) (d : Bytes) (s : State) : Host.Outcome State Fault Refusal :=
  run s fun t => t.guarded h (opOf 0x2400 0 0x01 d) (pushRule h d)

/-! ## Object entries -/

/-- Whether object n is held disabled at the present rate (R32). -/
def State.heldOff (s : State) (n : Nat) : Bool := 512 ≤ n && s.fA == 96000

/-- Delete the pending keyframes of object n that were accepted before number `before` (R49). -/
def Tx.flushQueue (t : Tx s0) (n before : Nat) : Tx s0 :=
  let tr := t.cur.track n
  let kept := tr.queue.filter (fun q => before ≤ q.acc)
  if kept.length == tr.queue.length then t
  else (t.setTrack n { tr with queue := kept }).flagBit 0x2000 n 0x17 4

/-- Sub-indices that the Sprinkler replicates (Table 9.6) and their bit in an object control record (Table 9.9). -/
def controlBit (sub : Nat) : Option Nat :=
  match sub with
  | 0x01 => some 0
  | 0x04 => some 1
  | 0x02 => some 2
  | 0x03 => some 3
  | 0x05 => some 4
  | 0x07 => some 5
  | 0x09 => some 6
  | 0x0B => some 7
  | _ => none

/-- Object control record of one field (R258, Table 9.9). -/
def sprkControl (n sub v land : Nat) : Bytes :=
  let f := fun (s : Nat) (w : Nat) => leBytes w (if s == sub then v else 0)
  [1, 0] ++ leBytes 2 24 ++ leBytes 2 n ++ leBytes 1 (2 ^ (controlBit sub).getD 0) ++ f 0x01 1 ++ f 0x04 1 ++
  f 0x02 1 ++ f 0x05 1 ++ f 0x09 1 ++ f 0x03 4 ++ f 0x07 4 ++ leBytes 8 land

/-- A replicated field of object n takes a value at boundary `land` (R256, R259). -/
def Tx.controlAt (t : Tx s0) (n sub v land : Nat) : Tx s0 :=
  t.setSprk { t.cur.sprk with ctl := t.cur.sprk.ctl ++ [⟨land, n, sub, v⟩] }

/-- Values of replicated fields whose boundary is B or earlier land, in order of acceptance. -/
def Tx.landControls (t : Tx s0) (B : Nat) : Tx s0 :=
  let due := t.cur.sprk.ctl.filter (fun c => c.land ≤ B)
  if due.isEmpty then t
  else
    let t := t.setSprk { t.cur.sprk with ctl := t.cur.sprk.ctl.filter (fun c => B < c.land) }
    t.each due (fun t c =>
      if c.sub == 0x0B then t.flushQueue c.obj c.val
      else if t.cur.heldOff c.obj && c.sub == 0x01 && c.val == 1 then t
      else t.w 0x2000 c.obj c.sub c.val)

/-- Own rule of the entries of an object channel but its Furrow depth (R32, R40, R49, R255, R256). -/
def objectRule (n sub : Nat) (data : Bytes) (t : Tx s0) : Tx s0 :=
  let v := leNat data
  if sub == 0x0A then t.wb 0x2000 n sub data
  else if sub == 0x01 && v == 1 && t.cur.heldOff n then t.status stState
  else if (controlBit sub).isSome && t.cur.replicated n then
    if t.cur.isHead then
      let land := t.cur.leadBoundary t.cur.now
      let x := if sub == 0x0B then t.cur.scene.accNext else v
      (t.controlAt n sub x land).sprkData [sprkControl n sub v land]
    else t.status stState
  else if sub == 0x0B then t.flushQueue n t.cur.scene.accNext
  else if sub == 0x17 then t.w1c 0x2000 n sub v
  else t.w 0x2000 n sub v

/-- FLUSH_QUEUE (R49): write of true to 0x2000[n]:0B. -/
def execFlushQueue (h n : Nat) (d : Bytes) (s : State) : Host.Outcome State Fault Refusal :=
  run s fun t => t.guarded h (opOf 0x2000 n 0x0B d) (objectRule n 0x0B d)

/-! ## Transform and speed of sound -/

/-- Target of the scene-to-venue transform (R56). -/
def State.xfTarget (s : State) : Xform :=
  ⟨s.g 0x2800 0 0x01, s.g 0x2800 0 0x02, s.g 0x2800 0 0x03, s.g 0x2800 0 0x04⟩

/-- A yaw difference in −180° to +180°, a difference of 180° in magnitude as +180° (R56). -/
def yawDiff (a b : F32) : F32 :=
  let d := F.sub a b
  let d := if F.lt f180 d then F.sub d 0x43B40000 else d
  let d := if F.lt d (F.neg f180) then F.add d 0x43B40000 else d
  if F.eq d (F.neg f180) then f180 else d

/-- A yaw modulo 360° in −180° < ψ ≤ +180° (R56). -/
def yawWrap (a : F32) : F32 :=
  let a := if F.lt f180 a then F.sub a 0x43B40000 else a
  if F.le a (F.neg f180) then F.add a 0x43B40000 else a

/-- One glide component: P + (j/N) · d in binary32. -/
def glideStep (p d : F32) (j n : Nat) : F32 := F.add p (F.mul (F.ofRat false j n) d)

/-- The transform of the next boundary: one step of the glide, or the target (R56). -/
def State.nextTransform (s : State) : Xform :=
  let sc := s.scene
  let goal := s.xfTarget
  let j := sc.glideJ + 1
  let p := sc.glideP
  let c := fun a b => glideStep a (F.sub b a) j sc.glideN
  if sc.glideN ≤ j then { goal with yaw := yawWrap goal.yaw }
  else ⟨c p.ox goal.ox, c p.oy goal.oy, c p.oz goal.oz, yawWrap (glideStep p.yaw (yawDiff goal.yaw p.yaw) j sc.glideN)⟩

/-- The transform moves as the inputs `v` of the window have it; a glide that a write in the cycle of the opening has started
begins from there (R56, R67). -/
def Tx.stepTransform (t : Tx s0) (v : State) : Tx s0 :=
  let sc := t.cur.scene
  let x := v.nextTransform
  if sc.glideAt == v.now && v.scene.glideAt != v.now then t.setScene { sc with xf := x, glideP := x }
  else t.setScene { sc with xf := x, glideJ := min sc.glideN (sc.glideJ + 1) }

/-- Own rule of origin and yaw (R56): a new glide starts. In the cycle in which a window opens its P is the transform of that
window's boundary (R67), which the evaluation puts in. -/
def transformRule (sub : Nat) (data : Bytes) (t : Tx s0) : Tx s0 :=
  let t := t.w 0x2800 0 sub (leNat data)
  let n := max 1 (ceilDiv (t.g 0x2800 0 0x05) 16)
  t.setScene { t.cur.scene with glideP := t.cur.scene.xf, glideJ := 0, glideN := n, glideAt := t.cur.now }

/-- TRANSFORM_WRITE (R56): write of 0x2800:01 to :04. -/
def execTransformWrite (h sub : Nat) (d : Bytes) (s : State) : Host.Outcome State Fault Refusal :=
  run s fun t =>
    if 1 ≤ sub && sub ≤ 4 then t.guarded h (opOf 0x2800 0 sub d) (transformRule sub d)
    else t.status stNoEntry

/-- Speed of sound at a temperature: 331.3 · √(1 + T/273.15) in binary32 (R16). -/
def soundSpeed (temp : F32) : F32 := F.mul 0x43A5A666 (F.sqrt (F.add F.one (F.div temp 0x43889333)))

/-- Whether the measured temperature is selected and not valid (R57). -/
def State.tempFallback (s : State) : Bool := s.g 0x2800 0 0x07 == 1 && !s.on 0x2800 0 0x09

/-- The target of the speed of sound, from the temperature that 0x2800:07 selects (R57). -/
def State.soundGoal (s : State) : F32 :=
  soundSpeed (if s.g 0x2800 0 0x07 == 1 && s.on 0x2800 0 0x09 then s.g 0x2800 0 0x08 else s.g 0x2800 0 0x06)

/-- The target as the entries have it, and TEMP_FALLBACK (R57). -/
def Tx.soundTarget (t : Tx s0) : Tx s0 :=
  let t := t.when t.cur.tempFallback (fun t => t.flagBit 0x2800 0 0x11 0)
  t.w 0x2800 0 0x0B t.cur.soundGoal

/-- The speed of sound of the next boundary (R57), toward the target of the window's inputs `v` (R67). -/
def Tx.stepSound (t : Tx s0) (v : State) : Tx s0 :=
  let t := t.soundTarget.when v.tempFallback (fun t => t.flagBit 0x2800 0 0x11 0)
  let goal := v.soundGoal
  let c :=
    match t.cur.scene.cUse with
    | none => goal
    | some c =>
      let d := F.mul 0x3727C5AC c
      F.add c (F.clamp (F.neg d) d (F.sub goal c))
  (t.w 0x2800 0 0x0A c).setScene { t.cur.scene with cUse := some c }

/-- Own rule of the air temperature and its source (R57). -/
def temperatureRule (sub : Nat) (data : Bytes) (t : Tx s0) : Tx s0 := (t.w 0x2800 0 sub (leNat data)).soundTarget

/-! ## Interpolation -/

/-- A component of a Hermite position, clamped (R51, Table 2.7): terms summed in the order the table writes them. -/
def hermite (s d pa va pk vk : F32) : F32 :=
  let s2 := F.mul s s
  let s3 := F.mul s2 s
  let two := F.add F.one F.one
  let h01 := F.sub (F.mul 0x40400000 s2) (F.mul two s3)
  let h00 := F.sub F.one h01
  let h10 := F.add (F.sub s3 (F.mul two s2)) s
  let h11 := F.sub s3 s2
  let r := F.add (F.mul h00 pa) (F.mul (F.mul h10 d) va)
  F.add (F.add r (F.mul h01 pk)) (F.mul (F.mul h11 d) vk)

/-- A linear component. -/
def lerp (s a b : F32) : F32 := F.add a (F.mul s (F.sub b a))

/-- A vector with each component clamped to ±1000.0 m (R51). -/
def clampPos (v : Vec3) : Vec3 :=
  let c := F.clamp (F.neg f1000) f1000
  ⟨c v.x, c v.y, c v.z⟩

/-- What keyframe k leaves as the anchor after anchor a: an absent field keeps its value (R51). -/
def landVals (a : Vals) (k : Keyframe) : Vals :=
  { k.vals with
    gain := if bit k.flags 0 then k.vals.gain else a.gain
    spread := if bit k.flags 1 then k.vals.spread else a.spread
    size := if bit k.flags 2 then k.vals.size else a.size }

/-- Values at boundary B within the segment from anchor a at ta to k (R51). -/
def segment (f ta : Nat) (a : Vals) (k : Keyframe) (B : Nat) : Vals :=
  if k.kind == 0 then a
  else
    let s := F.ofRat false (B - ta) (k.time - ta)
    let e := landVals a k
    let pos :=
      if k.kind == 1 then ⟨lerp s a.pos.x e.pos.x, lerp s a.pos.y e.pos.y, lerp s a.pos.z e.pos.z⟩
      else
        let d := F.ofRat false (k.time - ta) f
        ⟨hermite s d a.pos.x a.vel.x e.pos.x e.vel.x, hermite s d a.pos.y a.vel.y e.pos.y e.vel.y,
         hermite s d a.pos.z a.vel.z e.pos.z e.vel.z⟩
    { a with pos := clampPos pos, gain := lerp s a.gain e.gain, spread := lerp s a.spread e.spread,
             size := lerp s a.size e.size }

/-- Keyframes of `queue` whose effective time is B or earlier land in order (R47, R50). -/
def Tx.landKeyframes (t : Tx s0) (queue : List Keyframe) (n B : Nat) : Tx s0 :=
  let tr := t.cur.track n
  let due := queue.filter (fun k => k.time ≤ B)
  if due.isEmpty then t
  else
    let rest := tr.queue.filter (fun k => B < k.time)
    let a := due.foldl landVals tr.anchor
    let last := (due.getLastD ⟨0, 0, 0, 0, 0, implicitVals⟩).time
    let t := t.setTrack n { tr with queue := rest, anchorT := some last, anchor := a }
    let t := (t.count 0x2000 n 0x18 due.length).count 0x2800 0 0x0F due.length
    let t := t.each due (fun t k => t.msg 3 (kfPayload n k.tag))
    t.when rest.isEmpty (fun t => t.flagBit 0x2000 n 0x17 3)

/-- Values of object n at boundary B (R50, R51) from the queue that the window reads, kept for the evaluation and for the
entries. Where the anchor's time is B
or later, as after a backward step of the count, R51 gives no segment, and the anchor's values hold until the first pending
keyframe lands (DESIGN CHOICE, assumption 80). -/
def Tx.evalTrack (t : Tx s0) (queue : List Keyframe) (B n : Nat) : Tx s0 :=
  let t := t.landKeyframes queue n B
  let tr := t.cur.track n
  let ta := tr.anchorT.getD (t.cur.scene.clearT.getD B)
  let v :=
    match queue.filter (fun k => B < k.time) with
    | [] => tr.anchor
    | k :: _ => if ta < B && B < k.time then segment t.cur.fA ta tr.anchor k B else tr.anchor
  let tr := { tr with evalT := tr.anchorT, evalV := v }
  t.setScene { t.cur.scene with tracks := mset n tr t.cur.scene.tracks }

/-- Evaluation of the scene for boundary B from the window's inputs `v`: every track moves, then transform and speed of
sound. -/
def Tx.sceneEval (t : Tx s0) (v : State) (B : Nat) : Tx s0 :=
  let t := t.setScene { t.cur.scene with clearT := t.cur.scene.clearT.or (some B) }
  let t := t.each (nub ((t.cur.scene.tracks ++ v.scene.tracks).map (·.1))) (fun t n => t.evalTrack (v.track n).queue B n)
  (t.stepSound v).stepTransform v

/-- Objects whose values in force, as the entries show them, are not the implicit ones. -/
def State.shownMoved (s : State) : List Nat :=
  ([0x0E, 0x0F, 0x10, 0x11, 0x12, 0x13] : List Nat).flatMap (s.listed 0x2000)

/-- The values in force that the entries show change to those last evaluated (Table 2.6). -/
def Tx.scenePublish (t : Tx s0) : Tx s0 :=
  let t := t.each (nub (t.cur.scene.tracks.map (·.1) ++ t.cur.shownMoved)) (fun t n =>
    let tr := t.cur.track n
    let v := tr.evalV
    let t := ((t.w 0x2000 n 0x0E v.pos.x).w 0x2000 n 0x0F v.pos.y).w 0x2000 n 0x10 v.pos.z
    let t := ((t.w 0x2000 n 0x11 v.gain).w 0x2000 n 0x12 v.spread).w 0x2000 n 0x13 v.size
    t.setTrack n { tr with pubT := tr.evalT })
  let sc := t.cur.scene
  t.setScene { sc with pubClear := sc.clearT.getD 0 }

/-- The scene is cleared (R35, R36): every queue empties and every object takes a new implicit anchor. -/
def Tx.sceneClear (t : Tx s0) : Tx s0 :=
  let t := t.each (nub t.cur.shownMoved) (fun t n =>
    t.each [0x0E, 0x0F, 0x10, 0x11, 0x12, 0x13] (fun t sub => t.w 0x2000 n sub (dfltOf (K 0x2000 n sub))))
  t.setScene { t.cur.scene with tracks := [], clearT := none, pubClear := 0 }

/-- Every keyframe queue is emptied; anchors are kept (R237). -/
def Tx.queuesEmpty (t : Tx s0) : Tx s0 :=
  t.each t.cur.scene.tracks (fun t p => t.setTrack p.1 { t.cur.track p.1 with queue := [] })

/-- The engines restart (R56, R57): a glide in progress ends at its target, and no earlier speed of sound stands. -/
def Tx.sceneRestart (t : Tx s0) : Tx s0 :=
  t.setScene { t.cur.scene with glideJ := 1, glideN := 1, cUse := none }

/-- Objects that the new rate holds disabled become so (R32). -/
def Tx.holdOff (t : Tx s0) : Tx s0 :=
  t.each ((t.cur.listed 0x2000 0x01).filter t.cur.heldOff) (fun t n => t.w 0x2000 n 0x01 0)

/-- Number of enabled objects (0x2800:0C). -/
def State.objectsEnabled (s : State) : Nat :=
  (s.dict.filter (fun p => kIdx p.1 == 0x2000 && kSub p.1 == 0x01 && p.2 == 1)).length

/-- Pending keyframes of all objects (0x2800:0D). -/
def State.keyframesPending (s : State) : Nat := sumN (s.scene.tracks.map (fun p => p.2.queue.length))

end Sys2Proof.Machine
end

