-- ==== Sys2Proof/Machine/Furrow.lean ====
section
/-! DEFINITION. Furrows (R39, R93 to R95, R105 to R109): their layout, depth changes, repacks, and the writing and
reading of cells. -/

namespace Sys2Proof.Machine
open Sys2Proof

variable {s0 : State}

/-- Furrow cells (R39). -/
def furrowCells : Nat := 4194304

/-- Number of object channels available at the rate (R32). -/
def State.objects (s : State) : Nat := if s.fA == 96000 then 512 else 1024

/-- Default depth of object n at the rate (R36). -/
def State.defaultDepth (s : State) (n : Nat) : Nat :=
  if s.fA == 96000 then (if n < 512 then 8192 else 0) else 4096

/-- Depth and base in force of object n (Table 4.9). -/
def State.depth (s : State) (n : Nat) : Nat := s.g 0x3410 n 0x02
def State.base (s : State) (n : Nat) : Nat := s.g 0x3410 n 0x01

/-- Start time s0_n of the region in force (R94); after a move it is L + 17 from its landing on. -/
def State.furrowStart (s : State) (n : Nat) : Nat :=
  match mget? s.render.moves n with
  | some m => m.land + 17
  | none => mget s.render.start s.render.s0s n

/-- The last change of object n accepted and not landed. -/
def State.lastPend (s : State) (n : Nat) : Option DepthPend := (s.render.pend.filter (fun p => p.obj == n)).getLast?

/-- Base and depth that object n holds for allocation: its pending region, or the one in force (R106). -/
def State.heldRegion (s : State) (n : Nat) : Nat × Nat :=
  match s.lastPend n with
  | some p => (p.base, p.depth)
  | none => (s.base n, s.depth n)

/-- Regions of every available object but those in `skip`. -/
def State.regions (s : State) (skip : List Nat) : List (Nat × Nat) :=
  ((List.range s.objects).filter (fun n => !skip.contains n)).map s.heldRegion

/-- Whether the cells from b, d of them, lie in no region. -/
def cellsFree (rs : List (Nat × Nat)) (b d : Nat) : Bool :=
  !rs.any (fun r => r.1 < b + d && b < r.1 + r.2)

/-- Lowest aligned free region of d cells (R106), trying i candidates from base b. -/
def findRegion (rs : List (Nat × Nat)) (d : Nat) : Nat → Nat → Option Nat
  | 0, _ => none
  | i + 1, b => if cellsFree rs b d then some b else findRegion rs d i (b + d)

/-- Allocate a region of d cells among regions rs. -/
def allocate (rs : List (Nat × Nat)) (d : Nat) : Option Nat :=
  if d == 0 then none else findRegion rs d (furrowCells / d) 0

/-- Largest aligned region that could be allocated now (0x3400:05). -/
def largestFree (rs : List (Nat × Nat)) : Nat :=
  (([65536, 32768, 16384, 8192, 4096, 2048, 1024, 512, 256] : List Nat).find? (fun d => (allocate rs d).isSome)).getD 0

/-- Cells allocated, free, and the largest free region (0x3400:03 to :05). -/
def Tx.furrowStats (t : Tx s0) : Tx s0 :=
  let rs := t.cur.regions []
  let used := sumN (rs.map (·.2))
  ((t.w 0x3400 0 0x03 used).w 0x3400 0 0x04 (furrowCells - used)).w 0x3400 0 0x05 (largestFree rs)

/-- The canonical layout of objects with their depths (R105): descending depth, then ascending number, no gaps. -/
def canonical (ds : List (Nat × Nat)) : List (Nat × Nat) :=
  let sorted := sortBy (fun a b : Nat × Nat => b.2 < a.2 || (a.2 == b.2 && a.1 < b.1)) ds
  (sorted.foldl (fun (x : Nat × List (Nat × Nat)) d => (x.1 + d.2, x.2 ++ [(d.1, x.1)])) (0, [])).2

/-- Show the change pending for object n, or none (Table 4.9). -/
def Tx.showPending (t : Tx s0) (n : Nat) : Tx s0 :=
  match t.cur.lastPend n with
  | some p => ((t.w 0x3410 n 0x03 p.depth).w 0x3410 n 0x04 p.base).w 0x3410 n 0x07 p.land
  | none => (t.w 0x3410 n 0x03 0).w 0x3410 n 0x04 0xFFFFFFFF

/-- Own rule of 0x2000[n]:08 (R39, R106 to R108). A change that is cancelled leaves its object the region it has, also where another
object's change has been given cells of it since (DESIGN CHOICE; assumption 75). -/
def depthRule (n : Nat) (data : Bytes) (t : Tx s0) : Tx s0 :=
  let s := t.cur
  let v := leNat data
  let others := sumN (((List.range s.objects).filter (· != n)).map (fun i => s.g 0x2000 i 0x08))
  let land := nextEval s.now
  if furrowCells < others + (if n < s.objects then v else 0) then t.status stOutOfRange
  else if s.objects ≤ n then t.status stState
  else if s.on 0x3400 0 0x07 then t.status stBusy
  else if v == s.g 0x2000 n 0x08 then t
  else
    -- a change already pending for the same boundary is replaced, or cancelled by a return to the depth before it (R108)
    let mine := fun (p : DepthPend) => p.obj == n && p.land == land
    let rest := s.render.pend.filter (fun p => !mine p)
    let before := ((rest.filter (fun p => p.obj == n)).getLast?.map (·.depth)).getD (s.depth n)
    if s.render.pend.any mine && v == before then
      let t := (t.setRender { s.render with pend := rest }).w 0x2000 n 0x08 v
      ((t.w 0x3410 n 0x07 (mget 0 s.render.lands n)).showPending n).furrowStats
    else
      match allocate (s.regions [n]) v with
      | none =>
        (((t.tally 0x3400 0 0x0B).flagBit 0x3410 n 0x0B 3).flagBit 0x3400 0 0x11 5).status stState
      | some b =>
        let t := t.setRender
          { s.render with
            pend := rest ++ [⟨n, v, b, land⟩],
            lands := if (s.lastPend n).isSome then s.render.lands else mputD 0 n (s.g 0x3410 n 0x07) s.render.lands }
        ((t.w 0x2000 n 0x08 v).showPending n).furrowStats

/-- DEPTH_WRITE (R106): write of 0x2000[n]:08. -/
def execDepthWrite (h n : Nat) (d : Bytes) (s : State) : Host.Outcome State Fault Refusal :=
  run s fun t => t.guarded h (opOf 0x2000 n 0x08 d) (depthRule n d)

/-- What lands at boundary L: per object its new depth and base, whether its depth changes, and whether a repack moves it
(R107, R109). -/
structure Landing where
  obj : Nat
  depth : Nat
  base : Nat
  changed : Bool
  moved : Bool
  deriving DecidableEq, Repr

/-- The Furrow changes of boundary L. -/
def State.landings (s : State) (L : Nat) : List Landing :=
  let pend := fun n => (s.render.pend.filter (fun p => p.obj == n && p.land ≤ L)).getLast?
  if s.render.repack == some L then
    let ns := List.range s.objects
    let at_ := ns.map (fun n => ((pend n).map (fun p => (p.depth, p.base))).getD (s.depth n, s.base n))
    let layout := canonical (ns.zip (at_.map (·.1)))
    (ns.zip at_).filterMap (fun x =>
      let target := ((layout.find? (fun p => p.1 == x.1)).map (·.2)).getD x.2.2
      let ch := (pend x.1).isSome
      let mv := target != x.2.2
      if ch || mv then some ⟨x.1, x.2.1, target, ch, mv⟩ else none)
  else
    (nub ((s.render.pend.filter (fun p => p.land ≤ L)).map (·.obj))).filterMap (fun n =>
      (pend n).map (fun p => ⟨n, p.depth, p.base, true, false⟩))

/-- Objects whose Furrow moves at boundary L: the geometry engine forms no Sprig of theirs for L (Table 4.6). -/
def State.furrowMovers (s : State) (L : Nat) : List Nat :=
  if s.render.pend.isEmpty && s.render.repack != some L then []
  else
    ((s.landings L).filter (fun x =>
      x.moved || s.render.pend.any (fun p => p.obj == x.obj && p.land == L))).map (·.obj)

/-- One object's Furrow moves at L (Table 4.6). A move by a repack alone shows L in 0x3410[n]:07 too (DESIGN CHOICE; assumption
75). -/
def Tx.landFurrow (t : Tx s0) (L : Nat) (x : Landing) : Tx s0 :=
  let s := t.cur
  let old : FurrowMove := ⟨L, s.base x.obj, s.depth x.obj, s.furrowStart x.obj, (mget? s.render.moves x.obj).isSome⟩
  let t := t.setRender { s.render with moves := mset x.obj old s.render.moves, lands := mputD 0 x.obj L s.render.lands }
  let t := ((t.w 0x3410 x.obj 0x01 x.base).w 0x3410 x.obj 0x02 x.depth).w 0x3410 x.obj 0x05 (x.depth - 32)
  let t := t.w 0x3410 x.obj 0x07 L
  let t := t.when x.changed (fun t => (t.tally 0x3400 0 0x0A).flagBit 0x3410 x.obj 0x0B 4)
  t.when x.moved (fun t => t.flagBit 0x3410 x.obj 0x0B 5)

/-- Everything of the Furrows that is due at boundary L lands together (R107, R109). -/
def Tx.landFurrows (t : Tx s0) (L : Nat) : Tx s0 :=
  let s := t.cur
  let ls := s.landings L
  let repack := s.render.repack == some L
  let t := t.each ls (fun t x => t.landFurrow L x)
  let t := t.setRender
    { t.cur.render with pend := s.render.pend.filter (fun p => L < p.land),
                        repack := if repack then none else s.render.repack }
  let t := t.each (nub (ls.map (·.obj))) (fun t n => t.showPending n)
  let t := t.when repack (fun t =>
    (((t.w 0x3400 0 0x07 0).w 0x3400 0 0x08 L).w 0x3400 0 0x09 (ls.filter (·.moved)).length).flagBit 0x3400 0 0x11 6)
  t.furrowStats

/-- Boundary of the earliest change of depth or repack that is due. One whose boundary passes while the engines stand waits until
they run again, and lands then with the boundary it was accepted for (DESIGN CHOICE; assumption 75). -/
def State.furrowDue (s : State) : Option Nat :=
  let ls := s.render.pend.map (·.land) ++ s.render.repack.toList
  match ls with
  | [] => none
  | x :: xs =>
    let l := xs.foldl min x
    if s.engines.running && l ≤ s.now then some l else none

/-- DEPTH_CHANGE_LANDS (R107). -/
def execDepthChangeLands (s : State) : Host.Outcome State Fault Refusal :=
  run s fun t =>
    match s.furrowDue with
    | some l => t.landFurrows l
    | none => t

/-- Own rule of 0x3400:06 (R109). -/
def repackRule (t : Tx s0) : Tx s0 :=
  if t.on 0x3400 0 0x07 then t.status stBusy
  else (t.setRender { t.cur.render with repack := some (nextEval t.cur.now) }).w 0x3400 0 0x07 1

/-- REPACK (R109): write of 0x3400:06. -/
def execRepack (h : Nat) (d : Bytes) (s : State) : Host.Outcome State Fault Refusal :=
  run s fun t => t.guarded h (opOf 0x3400 0 0x06 d) repackRule

/-- REPACK_LANDS (R109). -/
def execRepackLands (s : State) : Host.Outcome State Fault Refusal :=
  run s fun t =>
    match s.render.repack, s.furrowDue with
    | some _, some l => t.landFurrows l
    | _, _ => t

/-- The Furrows are laid out canonically from the depths of the object entries, and cleared (R36, R105, R439). At an entry to
IDLE, which keeps every depth (R473) and discards a change not yet landed (R36), the depth kept is the one accepted, which the
entry reads (DESIGN CHOICE; assumption 62). -/
def Tx.furrowReset (t : Tx s0) : Tx s0 :=
  let s := t.cur
  let ns := List.range s.objects
  let layout := canonical (ns.map (fun n => (n, s.g 0x2000 n 0x08)))
  let t := t.each layout (fun t x =>
    let d := s.g 0x2000 x.1 0x08
    ((t.w 0x3410 x.1 0x01 x.2).w 0x3410 x.1 0x02 d).w 0x3410 x.1 0x05 (d - 32))
  let t := t.each (range' s.objects (1024 - s.objects)) (fun t n =>
    ((t.w 0x3410 n 0x01 0xFFFFFFFF).w 0x3410 n 0x02 0).w 0x3410 n 0x05 0)
  let t := t.each (nub (s.render.pend.map (·.obj))) (fun t n =>
    ((t.w 0x3410 n 0x03 0).w 0x3410 n 0x04 0xFFFFFFFF).w 0x3410 n 0x07 (mget 0 s.render.lands n))
  let t := t.setRender
    { s.render with cells := [], newest := none, moves := [], pend := [], repack := none, s0s := [] }
  (t.w 0x3400 0 0x07 0).furrowStats

/-- Every depth takes its default for the rate (R36). -/
def Tx.depthDefaults (t : Tx s0) : Tx s0 :=
  t.each (List.range 1024) (fun t n => t.w 0x2000 n 0x08 (t.cur.defaultDepth n))

/-! ## Cells -/

/-- A sample x of media time s of a region that fades in from its start time (Table 4.6). -/
def fadedIn (s start : Nat) (x : Int) : Int := if s < start + 16 then (x * ((s : Int) - start + 1) + 8) / 16 else x

/-- Write the sample of media time s of object n (R94, R108, Table 4.6). -/
def furrowPut (st : State) (s n : Nat) (x : Int) (cells : List (Nat × Int)) : List (Nat × Int) :=
  let store := fun (b d start : Nat) (v : Int) =>
    if d == 0 || s < start then cells else mputD 0 (b + (s - start) % d) v cells
  match mget? st.render.moves n with
  | none => store (st.base n) (st.depth n) (mget st.render.start st.render.s0s n) x
  | some m =>
    if s ≤ m.land then store m.base m.depth m.s0 (if m.fade then fadedIn s m.s0 x else x)
    else if s ≤ m.land + 16 then cells
    else store (st.base n) (st.depth n) (m.land + 17) (fadedIn s (m.land + 17) x)

/-- The samples of media time s of every available object are written (R93); `xs` lists those that are not zero. The first
write after the Furrows were cleared, or after the count moved back, starts every region (assumption 32). -/
def Tx.furrowWrite (t : Tx s0) (s : Nat) (xs : List (Nat × Int)) : Tx s0 :=
  let r := t.cur.render
  let fresh := match r.newest with
    | none => true
    | some m => s < m
  let r := if fresh then { r with start := s, s0s := [], moves := [] } else r
  let t := t.setRender r
  let st := t.cur
  let cells := (List.range st.objects).foldl (fun c n => furrowPut st s n (mget 0 xs n) c) r.cells
  let done := r.moves.filter (fun m => m.2.land + 17 ≤ s)
  t.setRender
    { r with cells := cells, newest := some s,
             s0s := done.foldl (fun l m => mset m.1 (m.2.land + 17) l) r.s0s,
             moves := r.moves.filter (fun m => s < m.2.land + 32) }

/-- The region a block that ends at B reads of object n: base, depth, start, newest sample held (R94, Table 4.6). -/
def State.readRegion (s : State) (n B : Nat) : Nat × Nat × Nat × Nat :=
  let newest := s.render.newest.getD 0
  match mget? s.render.moves n with
  | some m =>
    if B ≤ m.land then (m.base, m.depth, m.s0, min newest m.land) else (s.base n, s.depth n, m.land + 17, newest)
  | none => (s.base n, s.depth n, s.furrowStart n, newest)

/-- Cell that holds the sample of media time t of a region, none where the read returns zero (R94). -/
def furrowCell (r : Nat × Nat × Nat × Nat) (t : Nat) : Option Nat :=
  let (b, d, start, newest) := r
  if d == 0 || t < start || newest < t || t + d ≤ newest then none else some (b + (t - start) % d)

end Sys2Proof.Machine
end

