-- ==== Sys2Proof/Machine/Geometry.lean ====
section
/-! DEFINITION. Planting plan and geometry engine (R59 to R90): what one evaluation reads, the panning laws, Sprig
targets, Pruning, and the reports of a window. -/

namespace Sys2Proof.Machine
open Sys2Proof

variable {s0 : State}

/-! ## Arithmetic (R82) -/

/-- A result of one of the functions with an error of at most 2 ulp (R82; assumption 20): `f` names the function, a and b
its arguments. Results without an ulp (zero, infinity, NaN) stand. -/
def ulp2 (f a b : Nat) (exact : F32) : F32 :=
  if F.isFinite exact && !F.isZero exact then F.nudge exact (clampI (-2) 2 (Config.mathErr f a b)) else exact

def gSin (x : F32) : F32 := ulp2 1 x 0 (X.toF (X.sin (X.ofF x)))
def gCos (x : F32) : F32 := ulp2 2 x 0 (X.toF (X.cos (X.ofF x)))
def gAcos (x : F32) : F32 := ulp2 3 x 0 (X.toF (X.acos (X.ofF (F.clamp (F.neg F.one) F.one x))))
def gAsin (x : F32) : F32 := ulp2 4 x 0 (X.toF (X.asin (X.ofF (F.clamp (F.neg F.one) F.one x))))
def gAtan2 (y x : F32) : F32 := ulp2 5 y x (X.toF (X.atan2 (X.ofF y) (X.ofF x)))

/-- Natural logarithm with the IEEE results of R82. -/
def gLn (x : F32) : F32 :=
  if F.isNaN x then F.nan
  else if F.isZero x then F.inf true
  else if F.isNeg x then F.nan
  else if F.isInf x then x
  else ulp2 6 x 0 (X.toF (X.lnRat (F.toScaled x).toNat (2 ^ 149)))

/-- e^x with the IEEE results of R82. -/
def gExp (x : F32) : F32 :=
  if F.isNaN x then F.nan
  else if F.lt 0x42C80000 x then F.inf false
  else if F.lt x 0xC2DC0000 then 0
  else ulp2 7 x 0 (X.expF (X.ofF x))

/-- x^y = exp(y · ln x) (R82). -/
def gPow (x y : F32) : F32 := gExp (F.mul y (gLn x))

/-- 10.0, 20.0, 2.0, 0.5, π/180, 180/π, π/2 and 6.0206 in binary32. -/
def f10 : F32 := 0x41200000
def f20 : F32 := 0x41A00000
def f2 : F32 := 0x40000000
def fHalf : F32 := 0x3F000000
def fRad : F32 := 0x3C8EFA35
def fDeg : F32 := 0x42652EE1
def fHalfPi : F32 := 0x3FC90FDB
def f6dB : F32 := 0x40C0A8C1

/-- 0.001, 0.0001 and 0.01 in binary32. -/
def fMilli : F32 := 0x3A83126F
def fTie : F32 := 0x38D1B717
def fCent : F32 := 0x3C23D70A

/-- Linear gain of a level in dB, 10^(x/20) (R82). -/
def gLin (db : F32) : F32 := gExp (F.mul (F.div db f20) (gLn f10))

/-- 20 · log10 x (R82). -/
def gDb (x : F32) : F32 := F.mul f20 (F.div (gLn x) (gLn f10))

namespace Vec3
/-- Difference. -/
def sub (a b : Vec3) : Vec3 := ⟨F.sub a.x b.x, F.sub a.y b.y, F.sub a.z b.z⟩
/-- Dot product by fused multiply-add (R82). -/
def dot (a b : Vec3) : F32 := F.fma a.z b.z (F.fma a.y b.y (F.mul a.x b.x))
/-- Length. -/
def len (a : Vec3) : F32 := F.sqrt (dot a a)
/-- Every component divided by d. -/
def divBy (a : Vec3) (d : F32) : Vec3 := ⟨F.div a.x d, F.div a.y d, F.div a.z d⟩
/-- Opposite vector. -/
def opp (a : Vec3) : Vec3 := ⟨F.neg a.x, F.neg a.y, F.neg a.z⟩
/-- One component of a cross product. -/
def det2 (a b c d : F32) : F32 := F.fma a d (F.neg (F.mul b c))
/-- Cross product. -/
def cross (a b : Vec3) : Vec3 := ⟨det2 a.y a.z b.y b.z, det2 a.z a.x b.z b.x, det2 a.x a.y b.x b.y⟩
end Vec3

/-! ## The plan -/

/-- An enabled loudspeaker of the plan in force: number, position, direction, aim, zones, laws (R59, R63). -/
structure Spk where
  k : Nat
  pos : Vec3
  dir : Vec3
  aim : Vec3
  zones : Nat
  laws : Nat
  deriving DecidableEq, Repr

/-- A triplet whose three members are enabled, with the columns of the inverse of M_t (R64). -/
structure Trip where
  t : Nat
  a : Nat
  b : Nat
  c : Nat
  ca : Vec3
  cb : Vec3
  cc : Vec3
  deriving DecidableEq, Repr

/-- What every object slot reads of the plan and the zones (R66, R67). -/
structure Room where
  ref : Vec3
  spks : List Spk
  trips : List Trip
  admitted : Nat
  excl : Nat
  deriving DecidableEq, Repr

/-- Reference point R in force. -/
def State.refPoint (s : State) : Vec3 := ⟨s.g 0x3300 0 0x01, s.g 0x3300 0 0x02, s.g 0x3300 0 0x03⟩

/-- Position of loudspeaker k. -/
def State.spkPos (s : State) (k : Nat) : Vec3 := ⟨s.g 0x3000 k 0x02, s.g 0x3000 k 0x03, s.g 0x3000 k 0x04⟩

/-- Unit vector of an azimuth and an elevation in degrees (R15, R63). -/
def aimVector (az el : F32) : Vec3 :=
  let a := F.mul az fRad
  let e := F.mul el fRad
  ⟨F.neg (F.mul (gSin a) (gCos e)), F.mul (gCos a) (gCos e), gSin e⟩

/-- Loudspeaker k with its two vectors (R63). -/
def State.spk (s : State) (k : Nat) : Spk :=
  let r := s.refPoint
  let p := s.spkPos k
  let d := p.sub r
  let dir := d.divBy d.len
  let aim := if s.g 0x3000 k 0x07 == 1 then dir.opp else aimVector (s.g 0x3000 k 0x05) (s.g 0x3000 k 0x06)
  ⟨k, p, dir, aim, s.g 0x3000 k 0x08, s.g 0x3000 k 0x09⟩

/-- Enabled loudspeakers, rising. -/
def State.enabledSpks (s : State) : List Nat := (s.listed 0x3000 0x01).filter (fun k => s.on 0x3000 k 0x01)

/-- Members of triplet t. -/
def State.tripMembers (s : State) (t : Nat) : List Nat := [s.g 0x3100 t 0x01, s.g 0x3100 t 0x02, s.g 0x3100 t 0x03]

/-- det(M_t) of three directions (R64). -/
def tripDet (a b c : Vec3) : F32 := a.dot (b.cross c)

/-- Triplet t with the inverse of M_t, if its three members are enabled (R64). -/
def State.trip (s : State) (spks : List Spk) (t : Nat) : Option Trip :=
  match (s.tripMembers t).map (fun k => spks.find? (fun x => x.k == k)) with
  | [some a, some b, some c] =>
    let d := tripDet a.dir b.dir c.dir
    some ⟨t, a.k, b.k, c.k, (b.dir.cross c.dir).divBy d, (c.dir.cross a.dir).divBy d, (a.dir.cross b.dir).divBy d⟩
  | _ => none

/-- Mask of the zones that p holds for. -/
def zoneMask (p : Nat → Bool) : Nat := sumN ((List.range 32).map (fun z => if p z then 2 ^ z else 0))

/-- The plan and zones as an evaluation reads them (R66, R67). -/
def State.room (s : State) : Room :=
  let spks := s.enabledSpks.map s.spk
  { ref := s.refPoint, spks := spks, trips := (s.listed 0x3100 0x01).filterMap (s.trip spks),
    admitted := zoneMask (fun z => s.on 0x3200 z 0x01),
    excl := zoneMask (fun z => s.on 0x3200 z 0x01 && s.on 0x3200 z 0x03) }

/-- R61: reason and item of the first check that a plan fails, none if it passes. -/
def State.planCheck (s : State) : Option (Nat × Nat) :=
  let spks := s.enabledSpks.map s.spk
  let near := spks.find? (fun x => F.lt (x.pos.sub s.refPoint).len fCent)
  let used := nub ((s.listed 0x3100 0x01) ++ (s.listed 0x3100 0x02) ++ (s.listed 0x3100 0x03))
  let ts := sortBy (fun a b => a < b) used
  let full := ts.filterMap (fun t =>
    match (s.tripMembers t).map (fun k => spks.find? (fun x => x.k == k)) with
    | [some a, some b, some c] => some (t, a, b, c)
    | _ => none)
  let bad := ts.find? (fun t =>
    let m := s.tripMembers t
    (m.any (· == 0xFFFF) && !m.all (· == 0xFFFF)) || (!m.all (· == 0xFFFF) && (nub m).length != 3))
  let flat := full.find? (fun x => F.lt (F.abs (tripDet x.2.1.dir x.2.2.1.dir x.2.2.2.dir)) fCent)
  let law := full.find? (fun x => !(bit x.2.1.laws 0 && bit x.2.2.1.laws 0 && bit x.2.2.2.laws 0))
  match near, bad, flat, law with
  | some x, _, _, _ => some (1, x.k)
  | none, some t, _, _ => some (2, t)
  | none, none, some x, _ => some (3, x.1)
  | none, none, none, some x => some (4, x.1)
  | none, none, none, none => none

/-- Azimuth in degrees, above −180° and at most +180° (R15). A value that rounding takes to −180° or past either end
is the angle +180° (DEDUCED, assumption 20). -/
def azimuth (v : Vec3) : F32 :=
  let a := F.mul (gAtan2 (F.neg v.x) v.y) fDeg
  if F.le a (F.neg f180) then f180 else F.min2 f180 a

/-- Elevation in degrees (R15). -/
def elevation (v : Vec3) : F32 := F.mul (gAtan2 v.z (F.sqrt (F.fma v.y v.y (F.mul v.x v.x)))) fDeg

/-- What the entries report of the plan in force (R60 to R66, Tables 3.1 to 3.3). -/
def Tx.planReport (t : Tx s0) : Tx s0 :=
  let s := t.cur
  let spks := s.enabledSpks.map s.spk
  let t := t.each (List.range 512) (fun t k =>
    let v := (s.spkPos k).sub s.refPoint
    ((t.w 0x3000 k 0x0B (azimuth v)).w 0x3000 k 0x0C (elevation v)).w 0x3000 k 0x0D v.len)
  let t := t.each (List.range 1024) (fun t i =>
    match (s.tripMembers i).map (fun k => spks.find? (fun x => x.k == k)) with
    | [some a, some b, some c] => t.w 0x3100 i 0x04 (tripDet a.dir b.dir c.dir)
    | _ => t.w 0x3100 i 0x04 0)
  t.each (List.range 32) (fun t z => t.w 0x3200 z 0x04 (spks.filter (fun x => bit x.zones z)).length)

/-- The plan lands at boundary B (R60, Table 3.7). -/
def Tx.planDerive (t : Tx s0) (B : Nat) : Tx s0 := t.planReport.w 0x3300 0 0x18 B

/-! ## One object -/

/-- What one object's slot gives (R69 to R80): law reported, number of candidates, Sprigs formed, triplet, distance,
whether it is snapped, fell back, had no candidate, and delay jumps. -/
structure Slotted where
  law : Nat
  cands : Nat
  sprigs : List Sprig
  trip : Nat
  rho : F32
  snapped : Bool
  fallback : Bool
  noCand : Bool
  jumps : Nat
  deriving DecidableEq, Repr

/-- Venue position of a scene position (R55). -/
def venue (x : Xform) (p : Vec3) : Vec3 :=
  let a := F.mul x.yaw fRad
  let c := gCos a
  let s := gSin a
  ⟨F.add (F.fma p.x c (F.neg (F.mul p.y s))) x.ox, F.add (F.fma p.x s (F.mul p.y c)) x.oy, F.add p.z x.oz⟩

/-- Candidate set of an object (R66). -/
def Room.candidates (r : Room) (mode mask : Nat) : List Spk :=
  r.spks.filter (fun x =>
    bit x.laws (if mode == 2 then 1 else 0) && Nat.land x.zones (clearBits (Nat.land mask r.admitted) r.excl) != 0 &&
    Nat.land x.zones r.excl == 0)

/-- Sum of squares in order, by fused multiply-add. -/
def sumSq (l : List F32) : F32 := l.foldl (fun a x => F.fma x x a) 0

/-- Each member divided by the root of the sum of squares. -/
def normalise (l : List F32) : List F32 :=
  let n := F.sqrt (sumSq l)
  l.map (fun x => F.div x n)

/-- The larger and the smaller of a non-empty list. -/
def maxF (l : List F32) : F32 := l.tail.foldl F.max2 (l.headD 0)
def minF (l : List F32) : F32 := l.tail.foldl F.min2 (l.headD 0)

/-- Nearest-triplet choice (R70): the triplet and its gain vector. -/
def chooseTrip (ts : List Trip) (u : Vec3) : Option (Trip × List F32) :=
  let ps := ts.map (fun t => (t, [u.dot t.ca, u.dot t.cb, u.dot t.cc]))
  let m := maxF (ps.map (fun p => minF p.2))
  let ps := ps.filter (fun p => F.le (F.sub m (minF p.2)) fTie)
  let sums := ps.map (fun p => F.sum p.2)
  let top := maxF sums
  ps.find? (fun p => F.le (F.sub top (F.sum p.2)) fTie)

/-- Distance-based shape (R72) with exponent a over the candidates. -/
def distanceShape (p : Vec3) (cs : List Spk) (blur a : F32) : List F32 :=
  let ds := cs.map (fun x =>
    let v := p.sub x.pos
    F.sqrt (F.fma blur blur (v.dot v)))
  let on := (ds.filter F.isZero).length
  if on != 0 then ds.map (fun d => if F.isZero d then F.div F.one (F.sqrt (F.ofNat on)) else 0)
  else
    let n := F.sqrt (F.sum (ds.map (fun d => gPow d (F.neg (F.mul f2 a)))))
    ds.map (fun d => F.div (gPow d (F.neg a)) n)

/-- Spread and size (R77) on a shape gV; `dots` are u · l_k of the candidates; angles in radians. Step 5 takes
the cosine of β_k = acos(u · l_k), both evaluated as R82 says. -/
def widen (spread size rho : F32) (dots gV : List F32) : List F32 :=
  let inside := F.lt 0 size && F.lt rho size
  let sigmaSize := if F.isZero size then 0 else F.mul f2 (gAsin (F.div size rho))
  let h := F.div (F.max2 (F.mul spread fRad) sigmaSize) f2
  let base := fun c => F.div (F.add F.one c) f2
  let bh := base (gCos h)
  if !inside && (F.isZero h || !F.lt bh F.one) then gV
  else
    let w := if inside then F.one else F.min2 F.one (F.div h fHalfPi)
    let q := if inside then F.div rho size else F.div (gLn fHalf) (gLn bh)
    let e := dots.map (fun d => if F.isZero q then F.one else gPow (base (gCos (gAcos d))) q)
    let e := normalise e
    normalise ((gV.zip e).map (fun p => F.fma (F.sub F.one w) p.1 (F.mul w p.2)))

/-- Linear level of an object (R37). -/
def objectLevel (trim gain : F32) : F32 :=
  let l := F.add trim gain
  if F.le l fm120 then 0 else gLin (F.min2 f24 l)

/-- Distance gain (R78): exactly 1 where the rolloff is +0.0 dB. -/
def State.distGain (s : State) (rho : F32) : F32 :=
  let a := F.div (s.g 0x3300 0 0x04) f6dB
  if F.isZero a then F.one
  else F.min2 (gLin (s.g 0x3300 0 0x07)) (gPow (F.div (s.g 0x3300 0 0x05) (F.max2 rho (s.g 0x3300 0 0x06))) a)

/-- A non-negative binary32 value times 2^k, halves rounded up, at most hi (R79, R80). -/
def codeUp (x : F32) (k hi : Nat) : Nat :=
  if F.isInf x then hi else min hi (divRnu (F.toScaled x * 2 ^ k) (2 ^ 149)).toNat

/-- Form the Sprigs of object n from a shape and delays (R79). -/
def formSprigs (n kern : Nat) (floor level : F32) (l : List (Spk × F32 × F32)) : List Sprig :=
  l.filterMap (fun x =>
    let g := F.mul level x.2.1
    if F.lt 0 x.2.1 && F.le floor (gDb g) then
      let c := codeUp g 20 0xFFFFFF
      if c == 0 then none else some ⟨n, x.1.k, c, codeUp x.2.2 8 0xFFFFFF, kern⟩
    else none)

/-- Whether a change of coded delay is a jump (R80). -/
def isJump (threshold : F32) (a b : Nat) : Bool :=
  F.toScaled threshold * 256 < (((a : Int) - b).natAbs : Int) * 2 ^ 149

/-- A law's outcome over the candidates: its number (Table 3.9), triplet, and per candidate shape and delay. -/
structure LawOut where
  law : Nat
  trip : Nat
  shape : List (Spk × F32 × F32)
  deriving DecidableEq, Repr

/-- Wave-field weights over the candidates (R73): r_k and cos φ_k of each. -/
def waveTerms (p : Vec3) (cs : List Spk) : List (F32 × F32) :=
  cs.map (fun x =>
    let e := x.pos.sub p
    let rk := e.len
    (rk, if F.lt rk fMilli then F.one else (e.divBy rk).dot x.aim))

/-- Wave-field law (R73); none when no candidate is active (R74). -/
def waveLaw (p : Vec3) (cs : List Spk) (rw fA c : F32) : Option LawOut :=
  let ws := waveTerms p cs
  if !ws.any (fun w => F.lt 0 w.2) then none
  else
    let wk := ws.map (fun w => if F.lt 0 w.2 then F.div w.2 (F.sqrt (F.max2 w.1 rw)) else 0)
    let sum := F.sum wk
    let delay : F32 × F32 → F32 := fun w => F.div (F.mul w.1 fA) c
    some ⟨2, 0xFFFF, (cs.zip (wk.zip ws)).map (fun x => (x.1, F.div x.2.1 sum, delay x.2.2))⟩

/-- Nearest-triplet shape over the candidates and its triplet (R70); none where R71 takes direct snap. -/
def tripletShape (cs : List Spk) (ts : List Trip) (u : Vec3) : Option (Nat × List F32) :=
  let usable := ts.filter (fun t => [t.a, t.b, t.c].all (fun k => cs.any (fun x => x.k == k)))
  match chooseTrip usable u with
  | none => none
  | some (t, g) =>
    let pos := g.map (fun x => if F.lt 0 x then x else 0)
    if pos.all F.isZero then none
    else
      let g := normalise pos
      some (t.t, cs.map (fun x =>
        if x.k == t.a then g.getD 0 0 else if x.k == t.b then g.getD 1 0 else if x.k == t.c then g.getD 2 0 else 0))

/-- The nearest candidate: the largest u · l_k, among equals the lowest number (R68). -/
def nearest (l : List (Spk × F32)) : Option (Spk × F32) :=
  match l with
  | [] => none
  | x :: xs => some (xs.foldl (fun b y => if F.lt b.2 y.2 then y else b) x)

/-- Whether an object of mode 0 to 2 is in the snapped state at this boundary (R76). -/
def State.snaps (s : State) (n : Nat) (dot : F32) : Bool :=
  let alpha := s.g 0x2000 n 0x07
  let b := F.mul (gAcos dot) fDeg
  s.g 0x2000 n 0x02 != 3 && F.lt 0 alpha &&
  (if s.geo.snapped.contains n then F.le b (F.mul 0x3F8CCCCD alpha) else F.le b alpha)

/-- The law applied to an object with candidates (Table 3.4). -/
def State.lawOf (s : State) (r : Room) (c : F32) (n : Nat) (p u : Vec3) (rho : F32) (cs : List Spk) (near : Nat)
    (snapped : Bool) : LawOut :=
  let v := (s.track n).evalV
  let mode := s.g 0x2000 n 0x02
  let fA := F.ofNat s.fA
  let dots := cs.map (fun x => u.dot x.dir)
  let tau := if s.on 0x3300 0 0x08 then F.div (F.mul rho fA) c else 0
  let common : List F32 → List (Spk × F32 × F32) := fun g => (cs.zip g).map (fun x => (x.1, x.2, tau))
  let direct : LawOut :=
    ⟨3, 0xFFFF, common (widen v.spread v.size rho dots (cs.map (fun x => if x.k == near then F.one else 0)))⟩
  let dist : List (Spk × F32 × F32) :=
    common (distanceShape p cs (F.add (s.g 0x3300 0 0x0A) v.size) (F.div (s.g 0x3300 0 0x09) f6dB))
  if snapped || mode == 3 then direct
  else if mode == 0 then
    match tripletShape cs r.trips u with
    | some (t, g) => ⟨0, t, common (widen v.spread v.size rho dots g)⟩
    | none => direct
  else if mode == 1 then ⟨1, 0xFFFF, dist⟩
  else (waveLaw p cs (s.g 0x3300 0 0x0B) fA c).getD ⟨4, 0xFFFF, dist⟩

/-- Whether a Sprig's delay would jump from the set before (R80). -/
def jumps (threshold : F32) (prev : List Sprig) (x : Sprig) : Bool :=
  match prev.find? (fun q => q.spk == x.spk) with
  | some q => isJump threshold q.delay x.delay
  | none => false

/-- The slot of an enabled, unmuted, available object n (R68 to R81): `prev` are its Sprigs at B − 16, and `moving` the objects
whose Furrow moves at B (R107). An object with an
empty candidate set is not rendered by a law and reports none (DEDUCED from R76; assumption 31). -/
def State.slotObject (s : State) (r : Room) (c : F32) (moving : List Nat) (prev : List Sprig) (n : Nat) : Slotted :=
  let v := (s.track n).evalV
  let kern := s.g 0x2000 n 0x09
  let p := venue s.scene.xf v.pos
  let d := p.sub r.ref
  let rho := d.len
  let u : Vec3 := if F.lt rho fMilli then ⟨0, F.one, 0⟩ else d.divBy rho
  let cs := r.candidates (s.g 0x2000 n 0x02) (s.g 0x2000 n 0x06)
  match nearest (cs.map (fun x => (x, u.dot x.dir))) with
  | none => ⟨0xFF, 0, [], 0xFFFF, rho, false, false, true, 0⟩
  | some best =>
    let snapped := s.snaps n best.2
    let l := s.lawOf r c n p u rho cs best.1.k snapped
    let level := F.mul (objectLevel (s.g 0x2000 n 0x03) v.gain) (s.distGain rho)
    let formed := formSprigs n kern (s.g 0x3300 0 0x0C) level l.shape
    let formed := if s.geo.sinc.contains n == (kern == 1) && !moving.contains n then formed else []
    let kept := formed.filter (fun x => !jumps (s.g 0x3300 0 0x0D) prev x)
    ⟨l.law, cs.length, kept, l.trip, rho, snapped, l.law == 4, false, formed.length - kept.length⟩

/-! ## Pruning (R85 to R88) -/

/-- Slots of a Sprig. -/
def Sprig.slots (x : Sprig) : Nat := x.kern + 1

/-- Slots of a list of Sprigs. -/
def slotSum (l : List Sprig) : Nat := sumN (l.map Sprig.slots)

/-- Same object and loudspeaker. -/
def Sprig.same (x y : Sprig) : Bool := x.obj == y.obj && x.spk == y.spk

/-- Slots of the union of two sets (R85). -/
def unionSlots (prev kept : List Sprig) : Nat :=
  slotSum kept + slotSum (prev.filter (fun p => !kept.any p.same))

/-- Order key of R85: a ranks before b. -/
def rankBefore (prio : Nat → Nat) (a b : Sprig) : Bool :=
  if prio a.obj != prio b.obj then prio b.obj < prio a.obj
  else if a.gain != b.gain then b.gain < a.gain
  else if a.obj != b.obj then a.obj < b.obj
  else a.spk < b.spk

/-- Pass 1: Sprigs in order of rank that do not fit the budget. -/
def pass1 (budget : Nat) : Nat → List Sprig → List Sprig
  | _, [] => []
  | used, x :: xs =>
    if used + x.slots ≤ budget then pass1 budget (used + x.slots) xs else x :: pass1 budget used xs

/-- Pass 2: newcomers, lowest ranked first, deferred until the union fits. -/
def pass2 (budget : Nat) : Nat → List Sprig → List Sprig
  | _, [] => []
  | need, x :: xs => if need ≤ budget then [] else x :: pass2 budget (need - x.slots) xs

/-- SPRIG_BUDGET (R85). -/
def State.sprigBudget (s : State) : Nat := if s.fA == 96000 then 65536 else 131072

/-- Pruned and deferred Sprigs of a block (R85). -/
def prune (budget : Nat) (prio : Nat → Nat) (prev cand : List Sprig) : List Sprig × List Sprig :=
  if unionSlots prev cand ≤ budget then ([], [])
  else
    let ranked := sortBy (rankBefore prio) cand
    let out1 := pass1 budget 0 ranked
    let kept := ranked.filter (fun x => !out1.any x.same)
    (out1, pass2 budget (unionSlots prev kept) (kept.reverse.filter (fun x => !prev.any x.same)))

/-! ## The window -/

/-- Target set of a boundary. -/
def State.targetsAt (s : State) (B : Nat) : List Sprig := mget [] s.geo.targets B

/-- Objects rendered: enabled, unmuted and available at the rate (R33). -/
def State.rendered (s : State) : List Nat :=
  (s.listed 0x2000 0x01).filter (fun n => s.on 0x2000 n 0x01 && !s.on 0x2000 n 0x04 && (n < 512 || s.fA != 96000))

/-- Evaluate every object slot and prune, for boundary B (R67 to R88), with the entries of the window's inputs `v`: new
targets, and the report of the window. -/
def Tx.geometryEval (t : Tx s0) (v : State) (B : Nat) : Tx s0 :=
  let s := { v with scene := t.cur.scene }
  let r := s.room
  let c := s.scene.cUse.getD 0
  let prev := s.targetsAt (B - 16)
  let ns := s.rendered
  let slots : List (Nat × Slotted) := ns.map (fun n => (n, s.slotObject r c (s.furrowMovers B) (prev.filter (fun x => x.obj == n)) n))
  let held := s.geo.holds.filter (fun h => B ≤ h.until_)
  let formed := slots.foldl (fun a x => a ++ x.2.sprigs) []
  let cand := formed.filter (fun x => !held.any (fun h => h.obj == x.obj && h.spk == x.spk))
  let (cut, defer) := prune s.sprigBudget (fun n => s.g 0x2000 n 0x05) prev cand
  let kept := cand.filter (fun x => !cut.any x.same && !defer.any x.same)
  let holdFor := s.g 0x3300 0 0x0E
  let holds := held ++ (if holdFor == 0 then [] else cut.map (fun x => ⟨x.obj, x.spk, B + 16 * holdFor⟩))
  let cnt := fun (l : List Sprig) (n : Nat) => (l.filter (fun x => x.obj == n)).length
  let union := unionSlots prev (cand.filter (fun x => !cut.any x.same && !defer.any x.same))
  let gone := (nub (([1, 2, 3, 4, 5, 6, 7].map (t.cur.listed 0x3310)).foldl (· ++ ·) [])).filter (fun n => !ns.contains n)
  let rep : Report :=
    { puts := slots.foldl (fun a x =>
        let (n, y) := x
        a ++ [(K 0x3310 n 0x01, y.law), (K 0x3310 n 0x02, y.cands), (K 0x3310 n 0x03, y.sprigs.length),
              (K 0x3310 n 0x04, slotSum (kept.filter (fun z => z.obj == n))), (K 0x3310 n 0x05, y.trip),
              (K 0x3310 n 0x06, y.rho), (K 0x3310 n 0x07, cnt cut n)]) [] ++
        gone.foldl (fun a n => a ++ [1, 2, 3, 4, 5, 6, 7].map (fun i => (K 0x3310 n i, dfltOf (K 0x3310 n i)))) [] ++
        [(K 0x3300 0 0x10, union), (K 0x3300 0 0x15, cut.length)]
      bumps := slots.foldl (fun a x => a ++ [(K 0x3310 x.1 0x08, cnt cut x.1), (K 0x3310 x.1 0x09, cnt defer x.1)]) [] ++
        [(K 0x3300 0 0x12, cut.length), (K 0x3300 0 0x13, defer.length),
         (K 0x3300 0 0x14, b2n (!cut.isEmpty || !defer.isEmpty)), (K 0x3300 0 0x16, sumN (slots.map (fun x => x.2.jumps))),
         (K 0x3300 0 0x17, (slots.filter (fun x => x.2.fallback)).length)]
      flags := slots.foldl (fun a x =>
        a ++ [(K 0x3310 x.1 0x0A, b2n (cnt cut x.1 != 0) + 2 * b2n x.2.fallback + 4 * b2n x.2.noCand +
                 8 * b2n (cnt defer x.1 != 0))]) [] ++
        [(K 0x3300 0 0x1B, b2n (!cut.isEmpty) + 16 * b2n (!defer.isEmpty))]
      pruned := cut.length
      deferred := defer.length }
  let flags := 4 * b2n (slots.any (fun x => x.2.fallback)) + 8 * b2n (slots.any (fun x => x.2.noCand))
  let t := t.when (flags != 0) (fun t => t.flag 0x3300 0 0x1B flags)
  let olds := s.geo.targets.filter (fun p => B ≤ p.1 + 48 && p.1 < B)
  t.setGeo
    { s.geo with
      targets := mset B kept olds, last := some B, holds := holds,
      snapped := (slots.filter (fun x => x.2.snapped)).map (fun x => x.1),
      sinc := (s.listed 0x2000 0x09).filter (fun n => s.g 0x2000 n 0x09 == 1), report := some rep }

/-- Close of a window (R90): its reports become readable together, counts rise, flags of objects and of Pruning are set
(assumption 74). -/
def Tx.windowClose (t : Tx s0) : Tx s0 :=
  match t.cur.geo.report with
  | none => t
  | some rep =>
    let t := t.each rep.puts (fun t p => t.put p.1 p.2)
    let t := t.each rep.bumps (fun t p => if p.2 == 0 then t else t.count (kIdx p.1) (kInst p.1) (kSub p.1) p.2)
    let t := t.each rep.flags (fun t p => if p.2 == 0 then t else t.flag (kIdx p.1) (kInst p.1) (kSub p.1) p.2)
    let t := t.peak 0x3300 0 0x11 (t.g 0x3300 0 0x10)
    let t := t.when (rep.pruned + rep.deferred != 0) (fun t => t.msg 5 (leBytes 4 rep.pruned ++ leBytes 4 rep.deferred))
    (t.setGeo { t.cur.geo with report := none }).scenePublish

/-- Whether the window of boundary B opens now: the engines run, the media time is B − 32, and it has not opened. -/
def State.windowDue (s : State) : Bool :=
  s.engines.running && s.now % 16 == 0 && s.geo.last != some (s.now + 32)

/-- A pending keyframe that the window reads and whose cached copy is uncorrectable (R380): it is fetched again from the store,
or, where that copy is uncorrectable too, deleted, and the segment runs to the next pending keyframe (R386). -/
def Tx.cacheFault (t : Tx s0) (v : State) (f : CacheFault) : Tx s0 :=
  match (v.track f.obj).queue.find? (fun k => k.time == f.time) with
  | none => t
  | some k =>
    let t := t.sramBad 4 f.word
    match f.store with
    | some off =>
      let tr := t.cur.track f.obj
      (t.dramBad off).setTrack f.obj { tr with queue := tr.queue.filter (fun q => q.acc != k.acc) }
    | none => t

/-- Entries that the geometry engine reads and a host writes (R67). -/
def geoInput (k : Nat) : Bool :=
  let i := kIdx k
  let sub := kSub k
  (i == 0x2000 && sub ≤ 0x09) || (i == 0x2800 && sub ≤ 0x09) || i == 0x3000 || i == 0x3100 || i == 0x3200 ||
  (i == 0x3300 && sub ≤ 0x0F)

/-- A window opens: the inputs stand as they are at this instant (R67). -/
def Tx.latchInputs (t : Tx s0) : Tx s0 :=
  let s := t.cur
  t.setGeo { s.geo with
    latch := some { at_ := s.now, dict := s.dict.filter (fun p => geoInput p.1),
                    queues := s.scene.tracks.map (fun p => (p.1, p.2.queue)),
                    glideP := s.scene.glideP, glideJ := s.scene.glideJ, glideN := s.scene.glideN } }

/-- The state with the inputs of the geometry engine as they stood when the present window opened (R67). -/
def State.inputs (s : State) : State :=
  match s.geo.latch with
  | none => s
  | some l =>
    if l.at_ != s.now then s
    else
      let sc := s.scene
      let q := fun (n : Nat) => (mget? l.queues n).getD []
      { s with
        dict := l.dict.foldl (fun d p => mset p.1 p.2 d) (s.dict.filter (fun p => !geoInput p.1))
        scene := { sc with
          tracks := (nub (sc.tracks.map (·.1) ++ l.queues.map (·.1))).map (fun n => (n, { s.track n with queue := q n }))
          glideP := l.glideP, glideJ := l.glideJ, glideN := l.glideN
          glideAt := if sc.glideAt == s.now then 0 else sc.glideAt } }

/-- What the window of boundary B reads: the inputs at its opening, with the replicated values that land at B (R259), less the
keyframes that its reads lose. -/
def State.windowInputs (s : State) (bad : List CacheFault) (B : Nat) : State :=
  let v := s.inputs
  (((Tx.begin v).each bad (fun t f => t.cacheFault v f)).landControls B).cur

/-- EVALUATION_WINDOW_OPEN (R83): at B − 32 the geometry engine evaluates the scene and every object slot for B; the
window before it closes at the same media time. `bad` are the faults that the read of the keyframe cache meets. -/
def execEvaluationWindowOpen (bad : List CacheFault) (s : State) : Host.Outcome State Fault Refusal :=
  run s fun t =>
    if s.windowDue then
      let B := s.now + 32
      let v := s.windowInputs bad B
      let t := (t.windowClose.each bad (fun t f => t.cacheFault s.inputs f)).landControls B
      (t.sceneEval v B).geometryEval v B
    else t

/-- EVALUATION_WINDOW_CLOSE (R90): at B − 16 the reports of boundary B become readable. -/
def execEvaluationWindowClose (s : State) : Host.Outcome State Fault Refusal :=
  run s fun t =>
    match s.geo.last with
    | some b => if b ≤ s.now + 16 then t.windowClose else t
    | none => t

/-- The engines stop (R86): every hold is cleared and both target sets are discarded. The report of a window still open is
discarded with them, and the snapped state of R76 stands over the stop (DESIGN CHOICE, assumption 74: R86 and R90 do
not say). -/
def Tx.geometryStop (t : Tx s0) : Tx s0 :=
  t.setGeo { t.cur.geo with targets := [], last := none, holds := [], report := none }

/-- Kernels restored at a boot are in force from the first boundary on: no change lands (R81, R439). -/
def Tx.kernelsInit (t : Tx s0) : Tx s0 :=
  let s := t.cur
  t.setGeo { s.geo with sinc := (s.listed 0x2000 0x09).filter (fun n => s.g 0x2000 n 0x09 == 1) }

end Sys2Proof.Machine
end

