-- ==== Sys2Proof/Machine/Render.lean ====
section
/-! DEFINITION. Render engine (R91 to R104, R110 to R112): ramps, kernels, products, sums, and one render window. -/

namespace Sys2Proof.Machine
open Sys2Proof

variable {s0 : State}

/-! ## Kernels (R98) -/

/-- Index of the member of largest magnitude; ties by the smallest distance from the interpolation point, then the newer
member for φ < 128 and the older otherwise. `top` is the node of member 0. -/
def pickLargest (top : Int) (phi : Nat) (cs : List Int) : Nat :=
  let dist : Nat → Nat := fun i => ((top - i) * 256 + phi).natAbs
  let better : Nat × Int → Nat × Int → Bool := fun b x =>
    if b.2.natAbs != x.2.natAbs then b.2.natAbs < x.2.natAbs
    else if dist b.1 != dist x.1 then dist x.1 < dist b.1
    else !(phi < 128)
  (((List.range cs.length).zip cs).foldl (fun b x => if better b x then x else b) (0, cs.headD 0)).1

/-- Sum correction of a quantised phase (R98, step 4). -/
def correctSum (top : Int) (phi : Nat) (cs : List Int) : List Int :=
  let i := pickLargest top phi cs
  cs.set i (nth cs i 0 + (4194304 - sumI cs))

/-- The 4-point Lagrange coefficients of a phase, newest node first (R98). -/
def lagrange (phi : Nat) : List Int :=
  let f : Int := phi
  let q : Int → Int := fun num => divRna (num * 4194304) (6 * 2 ^ 24)
  correctSum 1 phi
    [q (-(f * (256 - f) * (512 - f))), q (3 * (256 + f) * (256 - f) * (512 - f)), q (3 * f * (256 + f) * (512 - f)),
     q (-(f * (256 - f) * (256 + f)))]

/-- Terms of I0: t_k = q^k / (k!)². -/
def besselGo : Nat → Nat → Int → Int → Int → Int
  | 0, _, _, _, acc => acc
  | n + 1, k, q, t, acc =>
    let t' := X.mul t q / ((k : Int) * k)
    besselGo n (k + 1) q t' (acc + t')

/-- I0(2√q) in fixed point. -/
def bessel0 (q : Int) : Int := besselGo 60 1 q X.one X.one

/-- Real weight of the windowed sinc at x = n/256, up to a common factor (R98): β = 7.0, half-width 4. -/
def sincWeight (n : Int) : Int :=
  let x := X.ofRat n 256
  let w := bessel0 (49 * (X.one - X.mul x x / 16) / 4)
  if n == 0 then w
  else
    let px := X.mul X.pi x
    X.mul (X.div (X.sin px) px) w

/-- The 8-point windowed sinc coefficients of a phase, newest node first (R98). -/
def sinc8 (phi : Nat) : List Int :=
  let hs := (List.range 8).map (fun (i : Nat) => sincWeight ((3 - (i : Int)) * 256 + phi))
  let s := sumI hs
  correctSum 3 phi (hs.map (fun h => divRna (h * 4194304) s))

/-- Coefficients of a kernel and the offset of its newest node (Table 4.2). -/
def kernelTaps (kern phi : Nat) : List Int := if kern == 0 then lagrange phi else sinc8 phi
def kernelTop (kern : Nat) : Nat := if kern == 0 then 1 else 3

/-! ## One Sprig -/

/-- Gain of ramp step j (R92). -/
def rampGain (g0 g1 : Nat) (j : Nat) : Nat := ((16 * (g0 : Int) + j * ((g1 : Int) - g0) + 8) / 16).toNat

/-- Delay limits in 1/256 sample (Table 4.1). -/
def minDelay (kern : Nat) : Nat := if kern == 0 then 0 else 512
def maxDelay (depth : Nat) : Nat := 256 * (depth - 32)

/-- What one Sprig gives for one output sample: the product, whether the delay was clamped, whether the interpolated
value saturated, the faulty cells read. -/
structure SprigOut where
  p : Int
  clamped : Bool
  sat : Bool
  bad : List Nat
  deriving DecidableEq, Repr

/-- The product of an interpolated value y (Q1.23) and a ramped gain g (UQ4.20), rounded to Q5.27 (R100). -/
def sprigProduct (y : Int) (g : Nat) : Int := (y * g + 2 ^ 15) / 2 ^ 16

/-- The interpolated value of a Sprig whose delay is d at media time t, whether it saturated, and the faulty cells it read
(R95 to R99). -/
def State.sprigValue (s : State) (badCells : List Nat) (r : Nat × Nat × Nat × Nat) (kern d t : Nat) :
    (Int × Bool) × List Nat :=
  let taps := kernelTaps kern (d % 256)
  let cells := (List.range taps.length).map (fun i =>
    let at_ := t + kernelTop kern
    if at_ < d / 256 + i then none else furrowCell r (at_ - d / 256 - i))
  let vals := cells.map (fun c =>
    match c with
    | some c => if badCells.contains c then 0 else mget 0 s.render.cells c
    | none => 0)
  let sum := sumI ((taps.zip vals).map (fun p => p.1 * p.2))
  (satI 24 ((sum + 2 ^ 21) / 2 ^ 22), (cells.filterMap id).filter badCells.contains)

/-- One sample of one Sprig (R92 to R100): region, kernel, targets before and new, boundary, ramp step. -/
def State.sprigSample (s : State) (badCells : List Nat) (r : Nat × Nat × Nat × Nat) (kern g0 g1 d0 d1 B j : Nat) :
    SprigOut :=
  let ramped := rampGain d0 d1 j
  let d := clampN (minDelay kern) (maxDelay r.2.1) ramped
  let v := s.sprigValue badCells r kern d (B + j - 16)
  ⟨sprigProduct v.1.1 (rampGain g0 g1 j), d != ramped, v.1.2, v.2⟩

/-- One Sprig over a block: targets at the two boundaries (R91). -/
structure SprigBlock where
  obj : Nat
  spk : Nat
  kern : Nat
  g0 : Nat
  g1 : Nat
  d0 : Nat
  d1 : Nat
  deriving DecidableEq, Repr

/-- Union of two target sets: newcomers start at their delay from gain 0, leaving Sprigs keep theirs (R80, R91). -/
def blockSprigs (prev new : List Sprig) : List SprigBlock :=
  new.map (fun x =>
    match prev.find? x.same with
    | some q => ⟨x.obj, x.spk, x.kern, q.gain, x.gain, q.delay, x.delay⟩
    | none => ⟨x.obj, x.spk, x.kern, 0, x.gain, x.delay, x.delay⟩) ++
  (prev.filter (fun q => !new.any q.same)).map (fun q => ⟨q.obj, q.spk, q.kern, q.gain, 0, q.delay, q.delay⟩)

/-- The sixteen samples of one Sprig in the block that ends at B. -/
def State.sprigBlock (s : State) (bad : List Nat) (B : Nat) (x : SprigBlock) : List SprigOut :=
  let r := s.readRegion x.obj B
  (range' 1 16).map (fun j => s.sprigSample bad r x.kern x.g0 x.g1 x.d0 x.d1 B j)

/-- Add with saturation in Q21.27 (R101). -/
def accAdd (a : Int × Bool) (p : Int) : Int × Bool :=
  let r := satI 48 (a.1 + p)
  (r.1, a.2 || r.2)

/-- Q1.23 form of a render-output sample (R102), with whether it clipped. -/
def renderQ23 (x : Int) : Int × Bool := satI 24 ((x + 8) / 16)

/-- Report one output of a block (R101, R102, R112): its Sprigs, and its sixteen sums with saturation. -/
def Tx.reportOutput (t : Tx s0) (k : Nat) (sprigs : List SprigBlock) (sums : List (Int × Bool)) : Tx s0 :=
  let sat := (sums.filter (·.2)).length
  let clip := (sums.filter (fun x => (renderQ23 x.1).2)).length
  let slots := sumN (sprigs.map (fun x => x.kern + 1))
  let peak := maxN (sums.map (fun x => x.1.natAbs))
  let t := ((t.w 0x3500 k 0x01 sprigs.length).w 0x3500 k 0x02 slots).w 0x3500 k 0x03 (levelDb peak (2 ^ 27))
  let t := t.when (sat != 0) (fun t =>
    (((t.count 0x3500 k 0x04 sat).count 0x3400 0 0x0E sat).flagBit 0x3500 k 0x06 0).flagBit 0x3400 0 0x11 2)
  t.when (clip != 0) (fun t =>
    (((t.count 0x3500 k 0x05 clip).count 0x3400 0 0x0F clip).flagBit 0x3500 k 0x06 1).flagBit 0x3400 0 0x11 3)

/-- Report one object of a block (R95, R96, R99): Sprigs clamped, Sprigs saturated, faulty cells read. -/
def Tx.reportObject (t : Tx s0) (n clamped sat bad : Nat) : Tx s0 :=
  let one := fun (t : Tx s0) (c sub sub' bit bit' : Nat) => t.when (c != 0) (fun t =>
    (((t.count 0x3410 n sub c).count 0x3400 0 sub' c).flagBit 0x3410 n 0x0B bit).flagBit 0x3400 0 0x11 bit')
  one (one (one t clamped 0x08 0x0C 0 0) sat 0x09 0x0D 1 1) bad 0x0A 0x10 2 4

/-- A faulty word of the render working memory: the Sprig whose target it holds fades out (R380). The words hold the
targets of the block in the order of the set (assumption 33). -/
def Tx.badTargets (t : Tx s0) (B : Nat) (words : List Nat) : Tx s0 :=
  let set := t.cur.targetsAt B
  let hit := (nub words).filter (fun w => w < set.length)
  let t := t.each hit (fun t w => t.sramBad 2 w)
  if hit.isEmpty then t
  else
    let kept := ((List.range set.length).zip set).filterMap (fun p => if hit.contains p.1 then none else some p.2)
    t.setGeo { t.cur.geo with targets := mset B kept t.cur.geo.targets }

/-- Render the block that ends at B (R91 to R104). A Sprig's run of sixteen samples reads a cell once (Table 4.4), and each of these
reads that finds a faulty cell is counted (R95). -/
def Tx.renderBlock (t : Tx s0) (B : Nat) (cells words : List Nat) : Tx s0 :=
  let t := t.badTargets B words
  let s := t.cur
  let xs := blockSprigs (s.targetsAt (B - 16)) (s.targetsAt B)
  let outs : List (SprigBlock × List SprigOut) := xs.map (fun x => (x, s.sprigBlock cells B x))
  let ks := sortBy (fun a b => a < b) (nub (xs.map (·.spk)))
  let sums := ks.map (fun k =>
    let mine := outs.filter (fun o => o.1.spk == k)
    (k, mine.map (·.1), (List.range 16).map (fun i =>
      mine.foldl (fun a o => accAdd a ((o.2.map (·.p)).getD i 0)) (0, false))))
  let quiet := (s.listed 0x3500 0x01).filter (fun k => !ks.contains k)
  let t := t.each quiet (fun t k => t.reportOutput k [] [])
  let t := t.each sums (fun t x => t.reportOutput x.1 x.2.1 x.2.2)
  let ns := sortBy (fun a b => a < b) (nub (xs.map (·.obj)))
  let t := t.each ns (fun t n =>
    let mine := outs.filter (fun o => o.1.obj == n)
    let bad := mine.flatMap (fun o => nub (o.2.flatMap (·.bad)))
    let t := t.each bad (fun t c => t.sramBad 0 c)
    t.reportObject n (mine.filter (fun o => o.2.any (·.clamped))).length
      (mine.filter (fun o => o.2.any (·.sat))).length bad.length)
  let acc := (sums.map (fun x => (x.1, x.2.2.map (·.1)))).filter (fun x => x.2.any (· != 0))
  let t := t.setRender { t.cur.render with blockEnd := some B, acc := acc :: t.cur.render.acc.take 1 }
  let t := (t.tally 0x3400 0 0x01).w 0x3400 0 0x02 (sumN (xs.map (fun x => x.kern + 1)))
  t.msg 1 (leBytes 8 B)

/-- Q21.27 result of output k for output sample u, from the last two blocks rendered (0 where none is held). -/
def State.renderSample (s : State) (k u : Nat) : Int :=
  match s.render.blockEnd with
  | none => 0
  | some B =>
    let q := (B - u) / 16
    if B < u then 0 else (mget [] (s.render.acc.getD q []) k).getD (u + 15 + 16 * q - B) 0

/-- The engines stop: no block is under way. -/
def Tx.renderStop (t : Tx s0) : Tx s0 := t.setRender { t.cur.render with blockEnd := none, acc := [] }

end Sys2Proof.Machine
end

