-- ==== Sys2Proof/Machine/Stimulus.lean ====
section
/-! DEFINITION. The stimulus generator and its place before the correction chains (R307, R308). -/

namespace Sys2Proof.Machine
open Sys2Proof

variable {s0 : State}

/-- One xorshift step of a generator (R137). -/
def xorshift (x : Nat) : Nat :=
  let x := Nat.xor x (x * 2 ^ 13 % 2 ^ 32)
  let x := Nat.xor x (x / 2 ^ 17)
  Nat.xor x (x * 2 ^ 5 % 2 ^ 32)

/-- x_j of the pink noise: the generator seeded 0x2545F491 after j steps (Table 11.4). -/
def pinkSeed (j : Nat) : Nat := (List.range j).foldl (fun x _ => xorshift x) 0x2545F491

namespace Stim

/-- N, and M of R309. -/
def N (x : Stim) : Nat := 2 ^ x.exp
def M (x : Stim) : Nat := if x.kind == 3 then 2 * x.N else x.N

/-- Start S_i of output number i (R309). -/
def startOf (x : Stim) (i : Nat) : Nat := x.start + i * (x.M + x.gap)

/-- ln(f2 / f1), and A, in fixed point. -/
def octaves (x : Stim) : Int := X.lnRat (F.toScaled x.f2).toNat (F.toScaled x.f1).toNat
def amp (x : Stim) : Int := dbToGainX x.level

/-- Window w(n) of the sweep: raised cosines over the first and last 256 samples (Table 11.4). -/
def window (x : Stim) (n : Nat) : Int :=
  let edge := min n (x.N - 1 - n)
  if 256 ≤ edge then X.one else (X.one - X.cos (X.pi * edge / 256)) / 2

/-- The sweep without its amplitude. -/
def sweep (x : Stim) (n : Nat) : Int :=
  let L := x.octaves
  let T := X.ofRat x.N x.fA
  let k := X.div (X.mul (X.mul (2 * X.pi) (X.ofF x.f1)) T) L
  X.mul (x.window n) (X.sin (X.mul k (X.exp (L * n / x.N) - X.one)))

/-- Bins of the pink noise (Table 11.4). -/
def bins (x : Stim) : List Nat :=
  (List.range (x.N / 2)).filter (fun j =>
    let f := X.ofRat (j * x.fA) x.N
    X.ofF x.f1 ≤ f && f ≤ X.ofF x.f2)

/-- Magnitude of bin j, 1/√f_j. -/
def pinkMag (x : Stim) (j : Nat) : Int := X.div X.one (X.sqrt (X.ofRat (j * x.fA) x.N))

/-- The period P before it is scaled: the inverse transform of its bins. -/
def pinkRaw (x : Stim) (n : Nat) : Int :=
  sumI (x.bins.map (fun j =>
    X.mul (x.pinkMag j) (X.cos (2 * X.pi * (j * n % x.N : Nat) / x.N + 2 * X.pi * pinkSeed j / 2 ^ 32))))

/-- Factor that gives P the peak A. -/
def pinkScale (x : Stim) : Int :=
  let peak := maxN ((List.range x.N).map (fun n => (x.pinkRaw n).natAbs))
  if peak == 0 then 0 else X.div x.amp peak

/-- y(n) of Table 11.4, exactly. -/
def exact (x : Stim) (n : Nat) : Int :=
  match x.kind with
  | 1 => X.mul x.amp (X.sin (X.mul (2 * X.pi) (X.ofF x.f0) * n / x.fA))
  | 2 => X.mul x.amp (x.sweep n)
  | 3 => X.mul x.pinkScale (x.pinkRaw (n % x.N))
  | _ => 0

/-- y(n) in binary32: its error is held to the 2 ulp that R82 gives the functions it is made of; the order of its operations
is open (assumption 25). -/
def y (x : Stim) (n : Nat) : F32 :=
  if x.kind == 0 then 0 else F.nudge (X.toF (x.exact n)) (clampI (-2) 2 (Config.stimErr x.kind n))

/-- Number of output k in the run. -/
def place (x : Stim) (k : Nat) : Option Nat := findIdxFrom (fun o => o == k) x.outs 0

/-- Generator's output for output k at sample u: zero but while its stimulus plays. -/
def at_ (x : Stim) (k u : Nat) : F32 :=
  match x.place k with
  | some i => if x.startOf i ≤ u && u < x.startOf i + x.M then x.y (u - x.startOf i) else 0
  | none => 0

end Stim

/-- Generator's output for output k at sample u, with the fade of an aborted run (R307, R314). -/
def State.stimulus (s : State) (k u : Nat) : F32 :=
  let new := match s.meas.run with
    | some r => r.stim.at_ k u
    | none => 0
  match s.meas.fading with
  | some (x, a) =>
    if a + 64 < u then new
    else if u ≤ a then x.at_ k u
    else F.mul (F.ofRat false (64 - (u - a)) 64) (x.at_ k u)
  | none => new

/-- Weight of the stimulus in 64ths at sample u (R307): the opening or closing last begun. -/
def openWeight (es : List (Nat × Bool)) (u : Nat) : Nat :=
  match (es.filter (fun e => e.1 ≤ u)).getLast? with
  | some (B, up) => let w := min 64 (u - B + 1); if up then w else 64 - w
  | none => 0

/-- Openings and closings of output k. -/
def State.opens (s : State) (k : Nat) : List (Nat × Bool) := mget [] s.meas.opens k

/-- Input of stage 1 of output k at sample u from its render output x (R307). -/
def State.stage1In (s : State) (k u : Nat) (x : F32) : F32 :=
  let w := openWeight (s.opens k) u
  if w == 0 then x
  else
    let g := F.ofRat false w 64
    F.flush (F.fma g (s.stimulus k u) (F.flush (F.mul (F.flush (F.sub F.one g)) x)))

/-- Openings and closings that samples not yet computed may still need (R104, R307): from the last one that landed 64
samples ago. -/
def opensLeft (now : Nat) : List (Nat × Bool) → List (Nat × Bool)
  | e :: f :: es => if f.1 + 64 ≤ now then opensLeft now (f :: es) else e :: f :: es
  | es => es

/-- Own rule of 0x5D10[k]:01 (R307). A change while the last fade runs lands at its end (assumption 39). Closing an
output while its stimulus plays gives it result 3. -/
def openRule (k : Nat) (d : Bytes) (t : Tx s0) : Tx s0 :=
  let up := leNat d == 1
  let s := t.cur
  let was := s.on 0x5D10 k 0x01
  let t := t.w 0x5D10 k 0x01 (leNat d)
  if was == up then t
  else
    let es := s.opens k
    let B := match es.getLast? with
      | some e => max (nextBlock s.now) (e.1 + 64)
      | none => nextBlock s.now
    let es := opensLeft s.now es ++ [(B, up)]
    let t := t.setMeas { t.cur.meas with opens := mputD [] k es t.cur.meas.opens }
    match t.cur.meas.run with
    | some r =>
      match r.stim.place k with
      | some i =>
        if !up && r.stim.startOf i ≤ s.now && s.now < r.stim.startOf i + r.stim.M then
          let caps := r.caps.map (fun c => if c.num == i then { c with closed := true } else c)
          let t := t.setMeas { t.cur.meas with run := some { r with caps := caps } }
          (t.flagBit 0x5D10 k 0x0E 0).w 0x5D10 k 0x04 3
        else t
      | none => t
    | none => t

/-- OPEN_OUTPUT and CLOSE_OUTPUT (R307): writes of 0x5D10[k]:01. -/
def execOpenOutput (h n : Nat) (d : Bytes) (s : State) : Host.Outcome State Fault Refusal :=
  run s fun t => t.guarded h (opOf 0x5D10 n 0x01 d) (openRule n d)
def execCloseOutput (h n : Nat) (d : Bytes) (s : State) : Host.Outcome State Fault Refusal :=
  run s fun t => t.guarded h (opOf 0x5D10 n 0x01 d) (openRule n d)

end Sys2Proof.Machine
end

