-- ==== Sys2Proof/Machine/Correction.lean ====
section
/-! DEFINITION. Output correction (R113 to R142): filter sets, the chain, Grafts, bulk delay, master gain, limiter and
conversion. -/

namespace Sys2Proof.Machine
open Sys2Proof

variable {s0 : State}

/-! ## Sets and the tap budget -/

/-- Correction state of output k. -/
def State.chain (s : State) (k : Nat) : OutChain := mget OutChain.init s.corr.outs k

/-- Replace the correction state of output k. -/
def Tx.setChain (t : Tx s0) (k : Nat) (c : OutChain) : Tx s0 :=
  t.setCorr { t.cur.corr with outs := mputD OutChain.init k c t.cur.corr.outs }

/-- Set in force on output k (R127). -/
def State.force (s : State) (k : Nat) : Nat := s.g 0x3800 k 0x01

/-- Length L of set f (R116). -/
def State.setLen (s : State) (f : Nat) : Nat := if f == 0 then 256 else s.g 0x3A00 f 0x05

/-- Settle of set f. -/
def State.setSettle (s : State) (f : Nat) : Nat := if f == 0 then 0 else s.g 0x3A00 f 0x06

/-- Whether set f can be grafted to (R118). -/
def State.setReady (s : State) (f : Nat) : Bool := f == 0 || s.g 0x3A00 f 0x03 == 2

/-- Data of set f (R115). -/
def State.setData (s : State) (f : Nat) : Bytes := s.gb 0x3A00 f 0x01

/-- Data that a chain runs (R127): its set's, or what it kept of it. -/
def State.chainData (s : State) (c : SetChain) : Bytes := if c.kept.isEmpty then s.setData c.set else c.kept

/-- Length L of a set's data (R116). -/
def dataLen (d : Bytes) : Nat := 256 * ceilDiv (fieldLE d 4 4) 256

/-- Taps of a set's data. -/
def dataTaps (d : Bytes) : List F32 := (List.range (fieldLE d 4 4)).map (fun k => fieldLE d (384 + 4 * k) 4)

/-- Set of the running and of the pending Graft. -/
def OutChain.runSet (c : OutChain) : List Nat := (c.run.map (fun g => g.into)).toList
def OutChain.pendSet (c : OutChain) : List Nat := (c.pend.map (fun p => p.1)).toList

/-- Sets that output k uses (R125). -/
def State.usesOf (s : State) (k : Nat) : List Nat :=
  [s.force k] ++ (s.chain k).runSet ++ (s.chain k).pendSet

/-- Committed taps of output k (0x3800[k]:10). -/
def State.tapsOf (s : State) (k : Nat) : Nat := sumN ((s.usesOf k).map s.setLen)

/-- Committed taps C (R125). -/
def State.taps (s : State) : Nat := sumN ((List.range 512).map s.tapsOf)

/-- TAP_BUDGET (R125). -/
def State.tapBudget (s : State) : Nat := if s.fA == 96000 then 524288 else 1048576

/-- Number of outputs on which set f is in force, running or pending (0x3A00[f]:07). -/
def State.setUses (s : State) (f : Nat) : Nat := ((List.range 512).filter (fun k => (s.usesOf k).contains f)).length

/-- Grafts running and pending (0x3B00:05, :06), and bulk cross-fades running (:0A). -/
def State.graftsRunning (s : State) : Nat := (s.corr.outs.filter (fun p => p.2.run.isSome)).length
def State.graftsPending (s : State) : Nat := (s.corr.outs.filter (fun p => p.2.pend.isSome)).length
def State.fadesRunning (s : State) : Nat :=
  (s.corr.outs.filter (fun p => match p.2.bulkX with
    | some l => s.now < l + 64
    | none => false)).length

/-- Tail bytes per hop: 2,056 for each partition 2 to P of every committed set (Table 14.16). -/
def State.tailBytes (s : State) : Nat :=
  sumN ((List.range 512).map (fun k => sumN ((s.usesOf k).map (fun f => 2056 * (s.setLen f / 256 - 2)))))

/-- Budgeted bulk phase in ns: the sum of Table 14.8 at the committed taps (DEDUCED; assumption 35). -/
def State.bulkBudget (s : State) : Nat :=
  let hi := s.fA == 96000
  let bytes := 2 * s.tailBytes + 1050000 + (if hi then 1600000 + 590000 else 800000 + 440000) + 500000
  let data := bytes * 10 / 448
  data + 257000 + 1000 + 1600 + data / 3

/-! ## Uploads (R117, R118) -/

/-- Write the reason and item of the last upload of set f (R117). -/
def Tx.uploadEnd (t : Tx s0) (f reason item : Nat) : Tx s0 := (t.w 0x3A00 f 0x09 reason).w 0x3A00 f 0x0A item

/-- Step 3 of R117: the header. -/
def headerOk (d : Bytes) : Bool :=
  let trim := fieldLE d 8 4
  fieldLE d 0 2 == 1 && 1 ≤ fieldLE d 4 4 && fieldLE d 4 4 ≤ 32768 && F.le fm120 trim && F.le trim f24 &&
  fieldLE d 12 4 ≤ 96000 && (slice d 16 48).all (· == 0)

/-- Five coefficients of biquad i. -/
def biquad (d : Bytes) (i : Nat) : List F32 := (List.range 5).map (fun j => fieldLE d (64 + 20 * i + 4 * j) 4)

/-- Step 4 of R117 for one biquad; the stability checks are exact. -/
def biquadOk (c : List F32) : Bool :=
  let b := c.take 3
  let a1 := nth c 3 0
  let a2 := nth c 4 0
  c.all F.isFinite && b.all (fun x => F.le (F.abs x) 0x47800000) && F.lt (F.abs a2) F.one &&
  ((F.toScaled a1).natAbs : Int) < 2 ^ 149 + F.toScaled a2

/-- Step 5 of R117 for one tap. -/
def tapOk (h : F32) : Bool := F.isFinite h && F.le (F.abs h) 0x43800000

/-- Steps 2 to 5 of R117, and the acceptance of an upload (R118). Data longer than the entry's range are of a wrong type (R413).
A set that a request has taken into use since the first segment of its upload is replaced all the same: R117 checks its use at
the first segment only (DESIGN CHOICE; assumption 81). -/
def setDataRule (f : Nat) (d : Bytes) (t : Tx s0) : Tx s0 :=
  let n := fieldLE d 4 4
  if d.length != 384 + 4 * n || 131456 < d.length then (t.uploadEnd f 0 0xFFFF).status stBadType
  else if !headerOk d then (t.uploadEnd f 1 0xFFFF).status stOutOfRange
  else
    match findIdxFrom (fun c => !biquadOk c) ((List.range 16).map (biquad d)) 0 with
    | some i => (t.uploadEnd f 2 i).status stOutOfRange
    | none =>
      match findIdxFrom (fun h => !tapOk h) (dataTaps d) 0 with
      | some i => (t.uploadEnd f 3 i).status stOutOfRange
      | none =>
        let t := (t.wb 0x3A00 f 0x01 d).w 0x3A00 f 0x03 1
        let t := ((t.w 0x3A00 f 0x04 n).w 0x3A00 f 0x05 (256 * ceilDiv n 256)).w 0x3A00 f 0x06 (fieldLE d 12 4)
        t.uploadEnd f 0 0xFFFF

/-- Own rule of 0x3A00[f]:01 written in one operation: step 1 of R117 and the rest. -/
def uploadRule (f : Nat) (d : Bytes) (t : Tx s0) : Tx s0 :=
  if t.cur.setUses f != 0 then (t.uploadEnd f 0 0xFFFF).status stState else setDataRule f d t

/-- SET_DATA_UPLOAD (R117): write of 0x3A00[f]:01. -/
def execSetDataUpload (h n : Nat) (d : Bytes) (s : State) : Host.Outcome State Fault Refusal :=
  run s fun t => t.guardedBad h (opOf 0x3A00 n 0x01 d) (fun t => t.uploadEnd n 0 0xFFFF) (uploadRule n d)

/-- SET_READY (R118): the preparation of set f completes. -/
def execSetReady (n : Nat) (s : State) : Host.Outcome State Fault Refusal :=
  run s fun t => if t.g 0x3A00 n 0x03 == 1 then t.w 0x3A00 n 0x03 2 else t

/-- Own rule of 0x3A00[f]:08 (R118). The name 0x3A00[f]:02 stands (DESIGN CHOICE; assumption 81). -/
def eraseRule (f : Nat) (t : Tx s0) : Tx s0 :=
  if t.cur.setUses f != 0 then t.status stState
  else (((t.wb 0x3A00 f 0x01 []).w 0x3A00 f 0x03 0).w 0x3A00 f 0x04 0).w 0x3A00 f 0x05 0 |>.w 0x3A00 f 0x06 0

/-- SET_ERASE (R118): write of 0x3A00[f]:08. -/
def execSetErase (h n : Nat) (d : Bytes) (s : State) : Host.Outcome State Fault Refusal :=
  run s fun t => t.guarded h (opOf 0x3A00 n 0x08 d) (eraseRule n)

/-! ## Grafts (R125 to R130) -/

/-- Show the Grafts of output k (Table 5.8). -/
def Tx.showGrafts (t : Tx s0) (k : Nat) : Tx s0 :=
  let c := t.cur.chain k
  let t :=
    match c.run with
    | some g => (((t.w 0x3800 k 0x0B g.into).w 0x3800 k 0x0C (g.start + g.warm))).w 0x3800 k 0x0D
        (g.start + g.warm + g.len - 1)
    | none => (t.w 0x3800 k 0x0B 0xFFFF).w 0x3800 k 0x0A (b2n c.pend.isSome)
  match c.pend with
  | some p => (t.w 0x3800 k 0x0E p.1).w 0x3800 k 0x0F p.2.2.2
  | none => (t.w 0x3800 k 0x0E 0xFFFF).w 0x3800 k 0x0F 0

/-- Trace message of a Graft's phase (Table 18.3). -/
def Tx.graftMsg (t : Tx s0) (k set phase : Nat) : Tx s0 :=
  t.msg 6 (leBytes 2 k ++ leBytes 2 set ++ leBytes 1 phase ++ zeros 3)

/-- Last sample E of a Graft (R127). -/
def Graft.last (g : Graft) : Nat := g.start + g.warm + g.len - 1

/-- One record of a Graft request (Table 5.5). -/
structure GraftRec where
  out : Nat
  set : Nat
  law : Nat
  exp : Nat
  flags : Nat
  rsv : Nat
  start : Nat
  deriving DecidableEq, Repr

/-- Read a record. -/
def graftRec (r : Bytes) : GraftRec :=
  ⟨fieldLE r 0 2, fieldLE r 2 2, fieldLE r 4 1, fieldLE r 5 1, fieldLE r 6 1, fieldLE r 7 1, fieldLE r 8 8⟩

/-- Check 2 of R130 for one record of host h; `seen` are the outputs named before it. -/
def State.graftCheck (s : State) (h a : Nat) (seen : List Nat) (r : GraftRec) : Nat :=
  if 512 ≤ r.out || 1024 ≤ r.set then stNoEntry
  else if !s.owns h 0x02 r.out || (r.set != 0 && !s.owns h 0x04 r.set) then stNoRight
  else if 1 < r.law || r.exp < 6 || 14 < r.exp || 1 < r.flags || r.rsv != 0 || seen.contains r.out ||
      (r.flags == 0 && a + 2 ^ 31 < r.start) then stOutOfRange
  else if !s.setReady r.set then stState
  else stOK

/-- First record that fails check 2, with its status. -/
def State.graftFail (s : State) (h a : Nat) : Nat → List Nat → List GraftRec → Option (Nat × Nat)
  | _, _, [] => none
  | i, seen, r :: rs =>
    let st := s.graftCheck h a seen r
    if st != stOK then some (i, st) else s.graftFail h a (i + 1) (r.out :: seen) rs

/-- Set that will be in force on output k once its running Graft ends (R129). -/
def State.futureSet (s : State) (k : Nat) : Nat :=
  match (s.chain k).run with
  | some g => g.into
  | none => s.force k

/-- Committed taps after a record, from the taps before it (R125, R130). -/
def State.tapsAfter (s : State) (c : Nat) (r : GraftRec) : Nat :=
  let old := sumN ((s.chain r.out).pendSet.map s.setLen)
  c - old + (if r.set == s.futureSet r.out then 0 else s.setLen r.set)

/-- First record at which the committed taps exceed the budget (R142). The whole request is refused when the sum over all
records does. -/
def State.overBudget (s : State) : Nat → Nat → List GraftRec → Option Nat
  | _, _, [] => none
  | i, c, r :: rs =>
    let c := s.tapsAfter c r
    if s.tapBudget < c then some i else s.overBudget (i + 1) c rs

/-- Whether a record is late (R130). -/
def GraftRec.late (r : GraftRec) (a : Nat) : Bool := r.flags == 0 && r.start ≤ a + 32

/-- Accept one record (R129, R130). A return to the set that will be in force that removes a pending Graft is no
replacement: it is not counted and sets no flag (DESIGN CHOICE; assumption 81). -/
def Tx.acceptGraft (t : Tx s0) (a : Nat) (r : GraftRec) : Tx s0 :=
  let k := r.out
  let c := t.cur.chain k
  let t := t.when (r.late a) (fun t => ((t.tally 0x3B00 0 0x09).flagBit 0x3800 k 0x17 3).flagBit 0x3B00 0 0x0E 3)
  if r.set == t.cur.futureSet k then (t.setChain k { c with pend := none }).showGrafts k
  else
    let t := t.when c.pend.isSome (fun t =>
      ((t.tally 0x3B00 0 0x08).flagBit 0x3800 k 0x17 4).flagBit 0x3B00 0 0x0E 4)
    let s := if r.flags == 1 || r.late a then a + 33 else r.start
    let s := match c.run with
      | some g => max s (g.last + 1)
      | none => s
    (t.setChain k { c with pend := some (r.set, r.law, r.exp, s) }).showGrafts k

/-- Report a Graft request of host h (R142). -/
def Tx.graftReport (t : Tx s0) (h records late st fail a : Nat) : Tx s0 :=
  ((((t.w 0x3B01 h 0x01 records).w 0x3B01 h 0x02 late).w 0x3B01 h 0x03 st).w 0x3B01 h 0x04 fail).w 0x3B01 h 0x05 a

/-- A Graft request of host h is refused (R130, R142). -/
def Tx.graftRefuse (t : Tx s0) (h records late st fail : Nat) : Tx s0 :=
  ((t.graftReport h records late st fail t.cur.now).flagBit 0x3B00 0 0x0E 2).status st

/-- Own rule of 0x3B00:01 (R130). A request refused by check 2 or 3 reports as late (R142) the records that would be, although
none is accepted (DESIGN CHOICE; assumption 81). -/
def graftRule (h : Nat) (d : Bytes) (t : Tx s0) : Tx s0 :=
  let a := t.cur.now
  if d.length % 16 != 0 then t.graftRefuse h 0 0 stBadType 0xFFFF
  else
    let rs := (chunks 16 d).map graftRec
    let late := (rs.filter (fun r => r.late a)).length
    match t.cur.graftFail h a 0 [] rs with
    | some (i, st) => t.graftRefuse h rs.length late st i
    | none =>
      if t.cur.tapBudget < rs.foldl t.cur.tapsAfter t.cur.taps then
        t.graftRefuse h rs.length late stOutOfRange ((t.cur.overBudget 0 t.cur.taps rs).getD 0xFFFF)
      else
        let t := t.each rs (fun t r => t.acceptGraft a r)
        let st := if late != 0 then stTooLate else stOK
        (t.graftReport h rs.length late st 0xFFFF a).status st

/-- GRAFT_REQUEST (R130): write of 0x3B00:01. One that R424 refuses for its right is no request of R142 and leaves 0x3B01[h] as it
is (DESIGN CHOICE; assumption 81). -/
def execGraftRequest (h : Nat) (d : Bytes) (s : State) : Host.Outcome State Fault Refusal :=
  run s fun t => t.guardedBad h (opOf 0x3B00 0 0x01 d) (fun t => t.graftRefuse h 0 0 stBadType 0xFFFF) (graftRule h d)

/-- The chain keeps the data of the set that it still runs when that set is released: its samples up to E come after
E + 1 (R127). -/
def State.keepData (s : State) (c : SetChain) : SetChain :=
  if c.kept.isEmpty then { c with kept := s.setData c.set } else c

/-- The Graft of output k ends: its set alone is in force (R127). -/
def Tx.graftEnd (t : Tx s0) (k : Nat) : Tx s0 :=
  let c := t.cur.chain k
  match c.run with
  | some g =>
    if t.cur.now < g.last + 1 then t
    else
      let t := (t.setChain k { c with run := none, a := t.cur.keepData c.a }).w 0x3800 k 0x01 g.into
      let t := ((t.tally 0x3B00 0 0x07).flagBit 0x3800 k 0x17 2).showGrafts k
      t.graftMsg k g.into 2
  | none => t

/-- The pending Graft of output k starts (R127). -/
def Tx.graftStart (t : Tx s0) (k : Nat) : Tx s0 :=
  let c := t.cur.chain k
  match c.run, c.pend with
  | none, some (set, law, e, start) =>
    if t.cur.now < start || !t.cur.engines.running then t
    else
      let g : Graft := ⟨t.cur.force k, set, start, t.cur.setLen set + t.cur.setSettle set, 2 ^ e, law⟩
      let t := t.setChain k { c with run := some g, pend := none, gs := c.gs ++ [(g, SetChain.fresh set start)] }
      ((t.showGrafts k).w 0x3800 k 0x0A 2).graftMsg k set 0
  | _, _ => t

/-- Grafts that fell due while the engines stood for a retraining start at B, the first boundary after the restart (R393). -/
def Tx.graftCatch (t : Tx s0) (B : Nat) : Tx s0 :=
  t.each t.cur.corr.outs (fun t p =>
    match p.2.pend with
    | some (set, law, e, start) =>
      if start < B then (t.setChain p.1 { p.2 with pend := some (set, law, e, B) }).showGrafts p.1 else t
    | none => t)

/-- GRAFT_START (R127): at S. -/
def execGraftStart (n : Nat) (s : State) : Host.Outcome State Fault Refusal :=
  run s fun t => (t.graftEnd n).graftStart n

/-- GRAFT_FADE (R128): at S + W. -/
def execGraftFade (n : Nat) (s : State) : Host.Outcome State Fault Refusal :=
  run s fun t =>
    match (s.chain n).run with
    | some g =>
      if s.now < g.start + g.warm || s.g 0x3800 n 0x0A != 2 then t
      else (t.w 0x3800 n 0x0A 3).graftMsg n g.into 1
    | none => t

/-- GRAFT_END (R127): at E + 1. -/
def execGraftEnd (n : Nat) (s : State) : Host.Outcome State Fault Refusal :=
  run s fun t => t.graftEnd n

/-! ## Bulk delay, master gain, limiter settings (R131 to R137) -/

/-- Own rule of 0x3800[k]:02 (R131). A write during a cross-fade lands at the boundary that follows its last sample
(assumption 36). -/
def bulkRule (k : Nat) (d : Bytes) (t : Tx s0) : Tx s0 :=
  let v := leNat d
  let c := t.cur.chain k
  let a := t.cur.now
  let land := match c.bulkX with
    | some l => if a < l + 64 then l + 64 else nextEval a
    | none => nextEval a
  (t.w 0x3800 k 0x02 v).setChain k { c with bulkP := some ⟨v, land, a, false⟩ }

/-- BULK_DELAY_WRITE (R131): write of 0x3800[k]:02. -/
def execBulkDelayWrite (h n : Nat) (d : Bytes) (s : State) : Host.Outcome State Fault Refusal :=
  run s fun t => t.guarded h (opOf 0x3800 n 0x02 d) (bulkRule n d)

/-- Start or defer the bulk-delay change of output k (R131, R132). -/
def Tx.bulkStart (t : Tx s0) (k : Nat) : Tx s0 :=
  let c := t.cur.chain k
  match c.bulkP with
  | none => t
  | some p =>
    if 256 ≤ t.cur.fadesRunning then
      if p.waited then t
      else
        let t := t.setChain k { c with bulkP := some { p with waited := true } }
        (((t.tally 0x3800 k 0x16).tally 0x3B00 0 0x0B).flagBit 0x3800 k 0x17 5).flagBit 0x3B00 0 0x0E 5
    else
      let land := max p.land (t.cur.now / 16 * 16)
      (t.setChain k { c with bulkP := none, bulkX := some land, bulks := c.bulks ++ [(land, p.delay)] }).w 0x3800 k
        0x03 p.delay

/-- BULK_CROSSFADE (R132): changes whose boundary has come start in order of acceptance, then of output number. -/
def execBulkCrossfade (s : State) : Host.Outcome State Fault Refusal :=
  run s fun t =>
    let due := s.corr.outs.filterMap (fun x =>
      match x.2.bulkP with
      | some p => if p.land ≤ s.now then some (p.acc, x.1) else none
      | none => none)
    if !s.engines.running then t
    else t.each (sortBy (fun (a b : Nat × Nat) => a.1 < b.1 || (a.1 == b.1 && a.2 < b.2)) due) (fun t x =>
      t.bulkStart x.2)

/-- Master gain target of output k (R134). -/
def State.gainTarget (s : State) (k : Nat) : F32 :=
  if s.on 0x3800 k 0x05 then 0
  else if F.le (s.g 0x3800 k 0x04) fm120 then 0 else F.flush (dbToGain (s.g 0x3800 k 0x04))

/-- Flush of a result (R114). -/
def fz (x : F32) : F32 := F.flush x

/-- Factor of a ramp at sample u (R134). -/
def GainRamp.at_ (r : GainRamp) (u : Nat) : F32 :=
  if u + 1 ≥ r.start + r.len then r.new
  else if u < r.start then r.old
  else fz (F.fma (fz (F.ofRat false (u - r.start + 1) r.len)) (fz (F.sub r.new r.old)) r.old)

/-- Ramp in force at sample u: the last that has started. -/
def rampFor (rs : List GainRamp) (u : Nat) : GainRamp :=
  ((rs.filter (fun r => r.start ≤ u)).getLast?).getD (rs.headD ⟨0, F.one, F.one, 0⟩)

/-- The master gain of output k moves to its target from sample tc (R134); an output whose target stands is left. -/
def Tx.masterGain (t : Tx s0) (tc k : Nat) : Tx s0 :=
  let c := t.cur.chain k
  let goal := t.cur.gainTarget k
  let last := (c.ramps.getLast?).getD ⟨0, F.one, F.one, 0⟩
  if last.new == goal then t
  else
    let old := (rampFor c.ramps (tc - 1)).at_ (tc - 1)
    t.setChain k { c with ramps := c.ramps ++ [⟨tc, old, goal, t.g 0x3800 k 0x06⟩] }

/-- Release factor α for τ in ms (R135), rounded once. -/
def releaseAlpha (tau : F32) (fA : Nat) : F32 :=
  X.toF (X.one - X.exp (-(X.div (1000 * X.one) (X.mul (X.ofF tau) (fA * X.one)))))

/-- T and α of output k from its entries (R135). -/
def State.limiterOf (s : State) (k : Nat) : F32 × F32 :=
  (fz (dbToGain (s.g 0x3800 k 0x07)), releaseAlpha (s.g 0x3800 k 0x08) s.fA)

/-- Own rule of 0x3800[k]:07 and :08 (R136). -/
def limiterRule (k sub : Nat) (d : Bytes) (t : Tx s0) : Tx s0 :=
  let t := t.w 0x3800 k sub (leNat d)
  let c := t.cur.chain k
  t.setChain k { c with lim := c.lim ++ [(nextEval t.cur.now, t.cur.limiterOf k)] }

/-- Own rule of 0x3800[k]:09 (R137): it lands at the next sample of stage 8. -/
def ditherRule (k : Nat) (d : Bytes) (t : Tx s0) : Tx s0 :=
  let t := t.w 0x3800 k 0x09 (leNat d)
  let c := t.cur.chain k
  t.setChain k { c with dith := c.dith ++ [(t.cur.now - 37, leNat d == 1)] }

/-! ## Stages 1 and 2 -/

/-- One section of stage 2 (R121). -/
def biquadStep (c : List F32) (st : F32 × F32) (x : F32) : F32 × (F32 × F32) :=
  let y := fz (F.fma (nth c 0 0) x st.1)
  let s1 := fz (F.fma (nth c 1 0) x (fz (F.fma (F.neg (nth c 3 0)) y st.2)))
  let s2 := fz (F.fma (nth c 2 0) x (F.neg (fz (F.mul (nth c 4 0) y))))
  (y, (s1, s2))

/-- Enabled sections in order, with their numbers and coefficients. -/
def enabledBiquads (d : Bytes) : List (Nat × List F32) :=
  ((List.range 16).filter (fun i => bit (fieldLE d 2 2) i)).map (fun i => (i, biquad d i))

/-- Stages 1 and 2 for one sample. -/
def preFir (trim : F32) (bs : List (Nat × List F32)) (x : F32) (st : List (F32 × F32)) : F32 × List (F32 × F32) :=
  bs.foldl (fun (a : F32 × List (F32 × F32)) b =>
    let r := biquadStep b.2 (a.2.getD b.1 (0, 0)) a.1
    (r.1, a.2.set b.1 r.2)) (fz (F.mul trim x), st)

/-- Linear trim of a set's data (R120). -/
def linearTrim (d : Bytes) : F32 :=
  if F.le (fieldLE d 8 4) fm120 then 0 else fz (dbToGain (fieldLE d 8 4))

/-- A list without the oldest members that are +0. -/
def dropZeros (l : List F32) : List F32 := (l.reverse.dropWhile (· == 0)).reverse

/-- Stages 1 and 2 of one chain over the block that ends at B; `xs` are its sixteen inputs. -/
def State.preBlock (s : State) (B : Nat) (xs : List F32) (c : SetChain) : SetChain :=
  let d := s.chainData c
  let trim := linearTrim d
  let bs := enabledBiquads d
  let st := if bs.isEmpty then c.bq else c.bq ++ List.replicate (16 - c.bq.length) (0, 0)
  let r := ((range' 0 16).zip xs).foldl (fun (a : List F32 × List (F32 × F32)) x =>
    if B + x.1 < c.start + 15 then a
    else
      let y := preFir trim bs x.2 a.2
      (y.1 :: a.1, y.2)) (c.x2, st)
  { c with x2 := dropZeros (r.1.take (dataLen d + 600)), bq := if bs.isEmpty then c.bq else r.2 }

/-- Binary32 form of a render-output sample (R102). -/
def renderF32 (x : Int) : F32 := F.ofScaled x (-27)

/-- Outputs whose chain has something to do: those with a state of their own, those whose block is not silent, and
those open to the stimulus. -/
def State.liveOutputs (s : State) : List Nat :=
  sortBy (fun a b => a < b) (nub (s.corr.outs.map (·.1) ++ (s.render.acc.headD []).map (·.1) ++ s.meas.opens.map (·.1)))

/-- The block that ends at B enters correction (R113). -/
def Tx.correctBlock (t : Tx s0) (B : Nat) : Tx s0 :=
  t.each t.cur.liveOutputs (fun t k =>
    let c := t.cur.chain k
    let xs := (List.range 16).map (fun i =>
      t.cur.stage1In k (B - 15 + i) (renderF32 ((mget [] (t.cur.render.acc.headD []) k).getD i 0)))
    t.setChain k { c with a := t.cur.preBlock B xs c.a,
                          gs := c.gs.map (fun g => (g.1, t.cur.preBlock B xs g.2)) })

/-- RENDER_WINDOW (R104): at B + 3 the block that ends at B is rendered and delivered to the correction engine; `cells`
and `words` are Furrow cells and words of the render working memory whose reads are uncorrectable. -/
def execRenderWindow (cells words : List Nat) (s : State) : Host.Outcome State Fault Refusal :=
  run s fun t =>
    if s.engines.running && s.now % 16 == 3 && s.render.blockEnd != some (s.now - 3) then
      (t.renderBlock (s.now - 3) cells words).correctBlock (s.now - 3)
    else t

/-! ## Stages 3 and 4 -/

/-- Head sum (R122): `hist` are outputs of stage 2, newest first. A product with a zero tap is left out where the sample
is finite, which changes no sum. -/
def headSum (taps hist : List F32) : F32 :=
  ((List.range 256).zip (hist.take 256)).foldl (fun acc p =>
    let h := taps.getD p.1 0
    if h == 0 && F.isFinite p.2 then acc else fz (F.fma h p.2 acc)) 0

/-- Exact sum of products over 2^298. -/
def exactDot (a b : List F32) : Int := (a.zip b).foldl (fun s p => s + F.toScaled p.1 * F.toScaled p.2) 0

/-- Contribution of partition p to output sample H + j, from the chain's samples up to `newest` (R123). -/
def partSum (taps x2 : List F32) (newest H p j : Nat) : Int :=
  exactDot ((taps.drop (256 * p)).take 256) (x2.drop (newest + 256 * p - H - j))

/-- Partitions of chain i of output k that a phase's list of faulty spectra names (R133). -/
def badParts (bad : List SpectrumFault) (k i : Nat) : List Nat :=
  (bad.filter (fun b => b.out == k && b.chain == i)).map (fun b => b.part)

/-- Partitions P of the set that a chain runs (R116). -/
def State.partitions (s : State) (c : SetChain) : Nat := dataLen (s.chainData c) / 256 - 1

/-- Bulk phase of one chain for the hop that ends at H (R124). The sums of the hop before stay until its urgent phase, which falls
into the same period. -/
def State.bulkOf (s : State) (H : Nat) (bad : List Nat) (c : SetChain) : SetChain :=
  let ps := (range' 2 (s.partitions c - 1)).filter (fun p => !bad.contains p)
  if s.partitions c < 2 then c
  else
    let taps := dataTaps (s.chainData c)
    let newest := s.render.blockEnd.getD 0
    let sums := (range' 1 256).map (fun j => sumI (ps.map (fun p => partSum taps c.x2 newest H p j)))
    { c with bulk := (H, sums) :: (c.bulk.filter (fun b => b.1 != H)).take 1 }

/-- Tail value j of a hop (R123): the exact sum, with an error within 2^−19 · Σ|h(k)| · max|x2| over the taps from 256 on
and the samples involved, which are `xs`; `hop` are all samples of the input spectra. What an infinite or NaN sample
gives is open (assumption 21). -/
def tailValue (taps hop xs : List F32) (exact : Int) (j : Nat) : F32 :=
  let sumH := sumI ((taps.drop 256).map (fun h => ((F.toScaled h).natAbs : Int)))
  let bound := sumH * (maxN (xs.map (fun x => (F.toScaled x).natAbs)) : Int) / 2 ^ 19 * 31 / 32
  let err := Config.tailErr taps hop exact j
  if hop.all F.isFinite then fz (F.roundI (exact + clampI (-bound) bound err) (-298) false)
  else fz (err.toNat % 2 ^ 32)

/-- Urgent phase of one chain for the hop that ends at H (R123, R124). -/
def State.urgentOf (s : State) (H : Nat) (bad : List Nat) (c : SetChain) : SetChain :=
  let len := dataLen (s.chainData c)
  if s.partitions c == 0 then c
  else
    let taps := dataTaps (s.chainData c)
    let newest := s.render.blockEnd.getD 0
    let hop := dropZeros ((c.x2.drop (newest - H)).take len)
    let one := fun j => if bad.contains 1 then (0 : Int) else partSum taps c.x2 newest H 1 j
    let far := fun j => (mget [] c.bulk H).getD (j - 1) 0
    { c with ready := some (H, (range' 1 256).map (fun j =>
        tailValue taps hop ((c.x2.drop (newest + 256 - H - j)).take (len - 256)) (one j + far j) j)) }

/-- An uncorrectable read of correction data of output k (R133). -/
def Tx.corrEcc (t : Tx s0) (k : Nat) : Tx s0 :=
  ((t.tally 0x3800 k 0x15).flagBit 0x3800 k 0x17 6).flagBit 0x3B00 0 0x0E 6

/-- A faulty DRAM read of correction data: its offset is open (assumption 2). -/
def Tx.corrDram (t : Tx s0) (k : Nat) : Tx s0 :=
  let (v, t) := (t.corrEcc k).fresh
  t.dramBad (v % 2 ^ 33)

/-- Apply a function to every running chain of every output, named by the output and its number there (CorrWord). -/
def Tx.eachChain (t : Tx s0) (f : State → Nat → Nat → SetChain → SetChain) : Tx s0 :=
  t.each (t.cur.corr.outs.map (·.1)) (fun t k =>
    let c := t.cur.chain k
    t.setChain k { c with a := f t.cur k 0 c.a,
                          gs := ((range' 1 c.gs.length).zip c.gs).map (fun g => (g.2.1, f t.cur k g.1 g.2.2)) })

/-- Time that a phase used, in ns (R396, R405). -/
def Tx.phaseUsed (t : Tx s0) (sub used window : Nat) : Tx s0 :=
  (t.peak 0x6300 0 sub used).when (80 * window < 100 * used) (fun t => t.flagBit 0x6300 0 0x08 0)

/-- A spectrum of a phase is uncorrectable, or came after its deadline (R133, R397). -/
def Tx.spectrumLost (t : Tx s0) (b : SpectrumFault) : Tx s0 :=
  if b.late then ((t.corrEcc b.out).inc 0x6200 0 0x1C 1).flagBit 0x6200 0 0x21 7 else t.corrDram b.out

/-- BULK_PHASE (R124): at H − 243; `bad` names faulty spectra, `used` the time the phase took in ns. -/
def execBulkPhase (bad : List SpectrumFault) (used : Nat) (s : State) : Host.Outcome State Fault Refusal :=
  run s fun t =>
    if s.engines.running && s.now % 256 == 13 then
      let hit := bad.filter (fun b => 2 ≤ b.part)
      let t := t.each hit Tx.spectrumLost
      (t.eachChain (fun s' k i c => s'.bulkOf (s.now + 243) (badParts bad k i) c)).phaseUsed 0x04 used
        (t.g 0x6300 0 0x01)
    else t

/-- URGENT_PHASE (R124): at H + 13; `bad` names faulty spectra of partition 1. -/
def execUrgentPhase (bad : List SpectrumFault) (used : Nat) (s : State) : Host.Outcome State Fault Refusal :=
  run s fun t =>
    if s.engines.running && s.now % 256 == 13 then
      let hit := bad.filter (fun b => b.part == 1)
      let window := if s.fA == 96000 then 62500 else 125000
      let t := t.each hit Tx.spectrumLost
      (t.eachChain (fun s' k i c => s'.urgentOf (s.now - 13) (badParts bad k i) c)).phaseUsed 0x07 used window
    else t

/-- The tail that is ready comes into use. -/
def SetChain.useTail (c : SetChain) : SetChain :=
  match c.ready with
  | some r => { c with tails := r :: c.tails.take 1, ready := none }
  | none => c

/-- HOP_EVENT (R124): at H + 19 the new tail is in use and the hop is counted. -/
def execHopEvent (s : State) : Host.Outcome State Fault Refusal :=
  run s fun t =>
    if s.engines.running && s.now % 256 == 19 && s.corr.hop != some (s.now - 19) then
      let t := t.eachChain (fun _ _ _ c => c.useTail)
      let t := (t.setCorr { t.cur.corr with hop := some (s.now - 19) }).tally 0x3B00 0 0x0C
      t.msg 2 (leBytes 8 (s.now - 19))
    else t

/-- Tail value for sample u of a chain (R123). -/
def SetChain.tailAt (c : SetChain) (u : Nat) : F32 :=
  let H := (u - 1) / 256 * 256
  match c.tails.find? (fun p => p.1 == H) with
  | some p => p.2.getD (u - H - 1) 0
  | none => 0

/-- Stages 3 and 4 of chain n of an output for sample u: x3 = head + tail (R123). Words of `bad` whose read is uncorrectable
are taken as zero (R133). -/
def State.firAt (s : State) (newest u n : Nat) (bad : List CorrWord) (c : SetChain) : F32 :=
  let r := bad.foldl (fun (a : List F32 × List F32 × F32) w =>
    match w with
    | .head m i => if m == n then (a.1.set i 0, a.2) else a
    | .history m i => if m == n then (a.1, a.2.1.set i 0, a.2.2) else a
    | .tail m => if m == n then (a.1, a.2.1, 0) else a
    | _ => a) (dataTaps (s.chainData c), (c.x2.drop (newest - u)).take 256, c.tailAt u)
  fz (F.add (headSum r.1 r.2.1) r.2.2)

/-- sin(π · κ / 32768) rounded to binary32 (R128). -/
def sTab (k : Nat) : F32 := X.toF (X.sin (X.pi * k / 32768))

/-- The Graft fade at sample u (R128). -/
def graftFade (g : Graft) (u : Nat) (ya yb : F32) : F32 :=
  let i := u - (g.start + g.warm)
  let k := (i + 1) * 16384 / g.len
  let r := F.ofRat false k 16384
  let (ga, gb) := if g.law == 0 then (F.sub F.one r, r) else (sTab (16384 - k), sTab k)
  if i + 1 == g.len then yb else fz (F.fma gb yb (fz (F.mul ga ya)))

/-! ## Stages 5 to 8 -/

/-- Bulk delay at sample u: `x3` newest first with u at its head (R131). A burst of the history holds sixteen samples;
`lost` are those whose read is uncorrectable, by the landing of the delay that reads them, taken as zero (R133). -/
def bulkAt (bulks : List (Nat × Nat)) (lost : List (Nat × Nat)) (x3 : List F32) (u : Nat) : F32 :=
  let past := bulks.filter (fun b => b.1 ≤ u)
  let new := (past.getLast?).getD (bulks.headD (0, 0))
  let old := (past.dropLast.getLast?).getD new
  let x := fun (b : Nat × Nat) => if lost.contains (b.1, (u - b.2) / 16) then 0 else x3.getD b.2 0
  if u < new.1 + 64 && 2 ≤ past.length then
    let v := F.ofRat false (u - new.1 + 1) 64
    fz (F.fma v (x new) (fz (F.mul (fz (F.sub F.one v)) (x old))))
  else x new

/-- The delay in force at sample u, or the one before it: its landing and its samples (R131). -/
def bulkRead (bulks : List (Nat × Nat)) (old : Bool) (u : Nat) : Nat × Nat :=
  let past := bulks.filter (fun b => b.1 ≤ u)
  ((if old then past.dropLast else past).getLast?).getD (bulks.headD (0, 0))

/-- Lost bursts after the faults of sample u (R133), each with the landing of the delay that reads it, without those that their
read has left. -/
def burstsLost (bulks : List (Nat × Nat)) (u : Nat) (bad : List CorrWord) (lost : List (Nat × Nat)) : List (Nat × Nat) :=
  let new := bad.filterMap (fun w =>
    match w with
    | .burst old =>
      let b := bulkRead bulks old u
      some (b.1, (u - b.2) / 16)
    | _ => none)
  nub (lost ++ new) |>.filter (fun l => bulks.any (fun b => b.1 == l.1 && (u - b.2) / 16 == l.2))

/-- Bulk delays that still matter after sample u. -/
def pruneBulks (bulks : List (Nat × Nat)) (u : Nat) : List (Nat × Nat) :=
  match bulks with
  | _ :: b :: rest => if b.1 + 64 ≤ u + 1 then b :: rest else bulks
  | l => l

/-- Drop the head of a list of landings once the next has landed. -/
def pruneLanded {α : Type} (land : α → Nat) (u : Nat) : List α → List α
  | a :: b :: rest => if land b ≤ u then b :: rest else a :: b :: rest
  | l => l

/-- Requirement r of the limiter (R135). -/
def limReq (T x : F32) : F32 := if F.isZero x then F.one else F.min2 F.one (fz (F.div T (F.abs x)))

/-- a(k) of the limiter: `l` are x5(k), x5(k + 1), … x5(k + 4) (R135). In binary32, (1 − r) · i/5 is the product of 1 − r
and of i/5 rounded once (DESIGN CHOICE; assumption 81). -/
def limAhead (T : F32) (l : List F32) : F32 :=
  ((List.range 5).zip l).foldl (fun m p =>
    let r := limReq T p.2
    F.min2 m (fz (F.add r (fz (F.mul (fz (F.sub F.one r)) (F.ofRat false p.1 5)))))) F.one

/-- δ · 2^16 of a generator value (R137). -/
def ditherDelta (x : Nat) : Int := (x / 2 ^ 16 : Nat) + (x % 2 ^ 16 : Nat) - 65535

/-- Conversion to Q1.23 (R137), with whether it clipped. A NaN gives 0 and does not clip (DESIGN CHOICE; assumption 81). -/
def convert (x6 : F32) (delta : Int) : Int × Bool :=
  if F.isNaN x6 then (0, false)
  else if F.isInf x6 then (if F.isNeg x6 then (-8388608, true) else (8388607, true))
  else satI 24 (divRne (F.toScaled x6 * 2 ^ 23 + delta * 2 ^ 133) (2 ^ 149))

/-- Limited and converted sample of an output. -/
structure OutSample where
  chain : OutChain
  limited : Nat
  limiting : Bool
  clip : Bool
  deriving DecidableEq, Repr

/-- The chains once sample u is reached: of every Graft whose last sample E lies before u, the incoming chain alone runs
(R127). -/
def passGrafts (u : Nat) : SetChain → List (Graft × SetChain) → SetChain × List (Graft × SetChain)
  | a, [] => (a, [])
  | a, (g, b) :: rest => if g.last < u then passGrafts u b rest else (a, (g, b) :: rest)

/-- Stages 3 to 8 of output k for chain sample u, with the sample u − 4 leaving the limiter; `rnd` is its dither
generator and `bad` its faulty words (R133). -/
def State.chainStep (s : State) (newest u rnd : Nat) (bad : List CorrWord) (c : OutChain) : OutSample :=
  let at_ := passGrafts u c.a c.gs
  let c := { c with a := at_.1, gs := at_.2 }
  let ya := s.firAt newest u 0 bad c.a
  let y := match c.gs with
    | (g, b) :: _ =>
      if u < g.start + g.warm then ya else graftFade g u ya (s.firAt newest u 1 bad b)
    | [] => ya
  let x3 := (y :: c.x3).take 96001
  let lost := burstsLost c.bulks u bad c.lost
  let x4 := bulkAt c.bulks lost x3 u
  let m := (rampFor c.ramps u).at_ u
  let x5 := fz (F.mul m x4)
  let xs := (x5 :: c.x5).take 5
  let k := u - 4
  let lim := ((c.lim.filter (fun l => l.1 ≤ k)).getLast?).getD (c.lim.headD (0, defaultT, 0))
  let look := ((List.range 5).map (fun i => xs.getD i 0)).reverse
  let a := limAhead lim.2.1 look
  let g := F.min2 a (fz (F.add c.g (fz (F.mul lim.2.2 (fz (F.sub F.one c.g))))))
  let raw := fz (F.mul g (look.headD 0))
  let x6 := F.clamp (F.neg lim.2.1) lim.2.1 raw
  let dith := ((c.dith.filter (fun d => d.1 ≤ k)).getLast?).getD (0, false)
  let (v, clip) := convert x6 (if dith.2 then ditherDelta rnd else 0)
  let c := { c with lost := lost, x3 := dropZeros x3, x5 := xs, g := g, out := v,
                    peak := F.max2 c.peak (F.abs x5), gmin := F.min2 c.gmin g,
                    bulks := pruneBulks c.bulks u, ramps := pruneLanded (fun r => r.start) u c.ramps,
                    lim := pruneLanded (fun l => l.1) k c.lim, dith := pruneLanded (fun d => d.1) k c.dith }
  ⟨c, b2n (F.lt g F.one) + b2n (x6 != raw), F.lt g F.one, clip⟩

/-- A section's s1 or s2 is taken as zero. -/
def SetChain.zeroBiquad (c : SetChain) (i : Nat) (second : Bool) : SetChain :=
  let st := c.bq.getD i (0, 0)
  { c with bq := c.bq.set i (if second then (st.1, 0) else (0, st.2)) }

/-- A faulty word of the state that the chain carries on is taken as zero (R133): the other words are read for one sample
and are taken as zero there (assumption 37). -/
def zeroWord (w : CorrWord) (c : OutChain) : OutChain :=
  match w with
  | .biquad 0 i second => { c with a := c.a.zeroBiquad i second }
  | .biquad (n + 1) i second =>
    { c with gs := ((List.range c.gs.length).zip c.gs).map (fun g =>
        if g.1 == n then (g.2.1, g.2.2.zeroBiquad i second) else g.2) }
  | .look i => { c with x5 := c.x5.set (3 - i) 0 }
  | .gain => { c with g := 0 }
  | .head _ _ | .history _ _ | .tail _ | .burst _ => c

/-- An uncorrectable word of output k is reported: a burst of the bulk-delay history by the DRAM, any other by the SRAM of the
correction engine (R133); which word of that memory it is the manual leaves open (assumption 37). -/
def Tx.corrFault (t : Tx s0) (b : CorrFault) : Tx s0 :=
  match b.word with
  | .burst _ => t.corrDram b.out
  | _ =>
    let f := (t.corrEcc b.out).fresh
    f.2.sramBad 3 (f.1 % regionWords 3)

/-- Report of one output for one sample: counts, flags, and at the block's end its peak and gain (R135, R137, R139). -/
def Tx.reportChain (t : Tx s0) (k u : Nat) (o : OutSample) : Tx s0 :=
  let t := if o.limited == 0 then t else t.count 0x3800 k 0x13 o.limited
  let t := t.when o.limiting (fun t => (t.flagBit 0x3800 k 0x17 0).flagBit 0x3B00 0 0x0E 0)
  let t := t.when o.clip (fun t =>
    ((t.tally 0x3800 k 0x14).flagBit 0x3800 k 0x17 1).flagBit 0x3B00 0 0x0E 1)
  let c := o.chain
  let (t, c) := if u % 16 == 0 then (t.w 0x3800 k 0x11 (levelDbF c.peak), { c with peak := 0 }) else (t, c)
  let (t, c) := if (u - 4) % 16 == 0 then (t.w 0x3800 k 0x12 (levelDbF c.gmin), { c with gmin := F.one }) else (t, c)
  t.setChain k c

/-- Chain sample of the period of media time m, if a rendered block holds it (Table 6.14). -/
def State.chainTime (s : State) : Option Nat :=
  match s.render.blockEnd with
  | some B => if s.now ≤ B + 34 && B < s.now - 34 + 16 * s.render.acc.length && 34 ≤ s.now then some (s.now - 34) else none
  | none => none

/-- The outputs without a live chain, at the ends of the blocks of their level and of their gain: silence and no reduction (R139,
R521). -/
def Tx.reportSilent (t : Tx s0) (u : Nat) : Tx s0 :=
  let idle := fun (sub : Nat) => (t.cur.listed 0x3800 sub).filter (fun k => (mget? t.cur.corr.outs k).isNone)
  let t := t.when (u % 16 == 0) (fun t => t.each (idle 0x11) (fun t k => t.w 0x3800 k 0x11 (levelDbF 0)))
  t.when ((u - 4) % 16 == 0) (fun t => t.each (idle 0x12) (fun t k => t.w 0x3800 k 0x12 (levelDbF F.one)))

/-- One period of the correction engine (R113): every live chain takes its sample; the dither generators step, in the
periods in which the engines run (DESIGN CHOICE; assumption 81). `bad` names faulty words (R133), `poison` further ones that the
memory system has reported by itself. -/
def Tx.correctSample (t : Tx s0) (bad poison : List CorrFault) : Tx s0 :=
  let t := t.setCorr { t.cur.corr with dither := t.cur.corr.dither.map xorshift }
  match t.cur.chainTime with
  | none => t
  | some u =>
    let newest := t.cur.render.blockEnd.getD 0
    let t := t.each bad (fun t b =>
      (t.corrFault b).setChain b.out (zeroWord b.word (t.cur.chain b.out)))
    let t := t.each poison (fun t b => t.corrEcc b.out)
    let t := t.each (t.cur.corr.outs.map (·.1)) (fun t k =>
      t.reportChain k u (t.cur.chainStep newest u (t.cur.corr.dither.getD k 0)
        (((bad ++ poison).filter (fun b => b.out == k)).map (fun b => b.word)) (t.cur.chain k)))
    t.reportSilent u

/-- Corrected output k of the newest sample, Q1.23 (R138). -/
def State.corrected (s : State) (k : Nat) : Int := (s.chain k).out

/-! ## Stops (R126) -/

/-- The engines stop: Grafts end or are removed, every state is zero, ramps and cross-fades end. -/
def Tx.correctionStop (t : Tx s0) : Tx s0 :=
  let t := t.each t.cur.corr.outs (fun t p =>
    let (k, c) := p
    let last := (c.ramps.getLast?).getD ⟨0, F.one, F.one, 0⟩
    let c' : OutChain :=
      { OutChain.init with
        a := SetChain.fresh (t.cur.force k) 0, bulks := [(0, ((c.bulks.getLast?).getD (0, 0)).2)],
        bulkP := c.bulkP.map (fun b => { b with land := 0 }),
        ramps := [⟨0, last.new, last.new, 0⟩],
        lim := [(0, ((c.lim.getLast?).getD (0, defaultT, 0)).2)], dith := [(0, ((c.dith.getLast?).getD (0, false)).2)] }
    let t := match c.run with
      | some g => t.graftMsg k g.into 2
      | none => t
    let t := t.setChain k c'
    (t.w 0x3800 k 0x0A 0).showGrafts k)
  t.setCorr { t.cur.corr with hop := none }

/-- A chain whose state starts again from zero. -/
def SetChain.restart (c : SetChain) : SetChain := { SetChain.fresh c.set 0 with kept := c.kept }

/-- The engines stop for a retraining (R393): Grafts stand, every filter and delay state is zero. -/
def Tx.correctionPause (t : Tx s0) : Tx s0 :=
  let outs := t.cur.corr.outs.map (fun p =>
    let c := p.2
    (p.1, { c with a := c.a.restart, gs := c.gs.map (fun g => (g.1, g.2.restart)), x3 := [], x5 := [], lost := [],
                   g := F.one, peak := 0, gmin := F.one, out := 0 }))
  t.setCorr { t.cur.corr with outs := outs, hop := none }

/-- After a change of rate: α anew, and every output back to set 0 if the taps exceed the new budget (R126, R135). -/
def Tx.correctionRate (t : Tx s0) : Tx s0 :=
  let t := t.each (List.range 512) (fun t k =>
    let c := t.cur.chain k
    t.setChain k { c with lim := [(0, t.cur.limiterOf k)] })
  if t.cur.taps ≤ t.cur.tapBudget then t
  else
    let t := t.each (t.cur.listed 0x3800 0x01) (fun t k =>
      (t.w 0x3800 k 0x01 0).setChain k { t.cur.chain k with a := SetChain.fresh 0 0 })
    t.flagBit 0x3B00 0 0x0E 7

/-- The engines start with the persistent settings of every output (R119, R134 to R137). -/
def Tx.correctionInit (t : Tx s0) : Tx s0 :=
  t.each (List.range 512) (fun t k =>
    let g := t.cur.gainTarget k
    let d := t.g 0x3800 k 0x02
    (t.w 0x3800 k 0x03 d).setChain k
      { OutChain.init with
        bulks := [(0, d)], ramps := [⟨0, g, g, 0⟩], lim := [(0, t.cur.limiterOf k)],
        dith := [(0, t.on 0x3800 k 0x09)] })

end Sys2Proof.Machine
end

