-- ==== Sys2Proof/Machine/Kernels.lean ====
section
/-! DEFINITION. The kernel library of the Tending pool (R327 to R331, R346 to R349): forms, costs, memory, and what one
run of each kernel computes. -/

namespace Sys2Proof.Machine
open Sys2Proof

/-! ## Arithmetic -/

/-- Addition in a 56-bit accumulator with its sticky flag (R328). -/
def acc56 (a : Int × Bool) (p : Int) : Int × Bool :=
  let r := satI 56 (a.1 + p)
  (r.1, a.2 || r.2)

/-- A store with right shift s, and whether it saturated (R329). -/
def store (s : Nat) (acc : Int) : Int × Bool := satI 24 (if s == 0 then acc else (acc + 2 ^ (s - 1)) / 2 ^ s)

/-- Sums of products, stored with shift s: the sample, and the store and accumulator flags. -/
def storeSum (s : Nat) (ps : List Int) : Int × Bool × Bool :=
  let a := ps.foldl acc56 (0, false)
  let r := store s a.1
  (r.1, r.2, a.2)

/-- What a kernel run leaves: output blocks, state, result fields, and the bits STORE_SAT and ACC_OVF. -/
structure KOut where
  outs : List (List Int)
  st : KSt
  res : Bytes
  sat : Bool
  ovf : Bool
  deriving DecidableEq, Repr

/-- Map with a state carried along. -/
def mapAcc {σ α β : Type} (f : σ → α → σ × β) (s : σ) (l : List α) : σ × List β :=
  l.foldl (fun (a : σ × List β) x =>
    let r := f a.1 x
    (r.1, a.2 ++ [r.2])) (s, [])

/-- Stored samples of one channel with its flags. -/
structure Chan where
  ys : List Int
  sat : Bool
  ovf : Bool
  hist : List Int
  deriving DecidableEq, Repr

/-- One channel: each sample through f, which answers the new history and a stored sum. -/
def runChan (f : List Int → Int → List Int × (Int × Bool × Bool)) (h xs : List Int) : Chan :=
  xs.foldl (fun (c : Chan) x =>
    let r := f c.hist x
    ⟨c.ys ++ [r.2.1], c.sat || r.2.2.1, c.ovf || r.2.2.2, r.1⟩) ⟨[], false, false, h⟩

/-- Channels side by side. -/
def joinChans (cs : List Chan) (v : List Int) : KOut :=
  ⟨cs.map (·.ys), ⟨v, cs.map (·.hist)⟩, [], cs.any (·.sat), cs.any (·.ovf)⟩

/-- Parameter fields. -/
def pU8 (p : Bytes) (o : Nat) : Nat := fieldLE p o 1
def pU16 (p : Bytes) (o : Nat) : Nat := fieldLE p o 2
def pU32 (p : Bytes) (o : Nat) : Nat := fieldLE p o 4
def pI32 (p : Bytes) (o : Nat) : Int := signed 32 (pU32 p o)

/-- A value that a kernel computes in an arithmetic the manual does not give: within 2 units in the last place of x
(assumption 41). -/
def kernVal (id a b : Nat) (x : F32) : F32 :=
  if x == minus144 then x else F.nudge x (clampI (-2) 2 (Config.kernErr id a b))

/-- 10 · log10(n/d) with the floor −144.0. -/
def powerDb (n d : Nat) : F32 :=
  if n == 0 || d == 0 then minus144
  else
    let v := X.toF (X.div (10 * X.lnRat n d) X.ln10)
    if F.lt v minus144 then minus144 else v

/-- Words that a run of a kernel cannot read beside its samples, parameters and state (R343): of its transforms their number,
the stage, the value, and whether it is the imaginary part; and constants of its own. -/
structure KLost where
  work : List (Nat × Nat × Nat × Bool)
  consts : List Nat
  deriving DecidableEq, Repr

/-- Constants from number n on as they are read: zero for each that is lost (R343). -/
def KLost.read (l : KLost) (n : Nat) (cs : List Int) : List Int :=
  if l.consts.isEmpty then cs
  else ((range' n cs.length).zip cs).map (fun p => if l.consts.contains p.1 then 0 else p.2)

/-! ## Fixed-point kernels -/

/-- Linear move of a gain, step p of R, rounded half up. -/
def moveGain (old new : Int) (p R : Nat) : Int := if R ≤ p then new else old + divRnu ((new - old) * p) R

/-- GAIN: each channel's history is its gain left, its gain sought, the steps taken and the ramp length. -/
def kGain (par : Bytes) (xs : List (List Int)) (st : KSt) : KOut :=
  let R := pU16 par 0
  joinChans (((List.range xs.length).zip xs).map (fun c =>
    let g : Int := pU32 par (4 + 4 * c.1)
    let h := match st.h.getD c.1 [] with
      | [old, goal, p, len] => if goal == g then [old, goal, p, len] else [moveGain old goal p.toNat len.toNat, g, 0, R]
      | _ => [g, g, R, R]
    runChan (fun h x =>
      let old := nth h 0 0
      let len := nth h 3 0
      let p := min len.toNat ((nth h 2 0).toNat + 1)
      ([old, g, (p : Int), len], storeSum 20 [x * moveGain old g p len.toNat])) h c.2)) []

/-- MIX: `v` holds the gains in force. -/
def kMix (par : Bytes) (b : Nat) (xs : List (List Int)) (st : KSt) : KOut :=
  let new := (List.range xs.length).map (fun m => (pU32 par (4 * m) : Int))
  let old := if st.v.isEmpty then new else st.v
  let r := (List.range b).map (fun i =>
    storeSum 20 ((List.range xs.length).map (fun m =>
      (nth xs m []).getD i 0 * moveGain (nth old m 0) (nth new m 0) (i + 1) b)))
  ⟨[r.map (·.1)], ⟨new, []⟩, [], r.any (·.2.1), r.any (·.2.2)⟩

/-- One section of BIQUAD on x1, x2, y1, y2. -/
def kSection (co h : List Int) (x : Int) : List Int × (Int × Bool × Bool) :=
  let r := storeSum 22 [nth co 0 0 * x, nth co 1 0 * nth h 0 0, nth co 2 0 * nth h 1 0, -(nth co 3 0 * nth h 2 0),
    -(nth co 4 0 * nth h 3 0)]
  ([x, nth h 0 0, r.1, nth h 2 0], r)

/-- BIQUAD. -/
def kBiquad (par : Bytes) (xs : List (List Int)) (st : KSt) : KOut :=
  let S := pU8 par 0
  joinChans (((List.range xs.length).zip xs).map (fun c =>
    runChan (fun h x =>
      let r := (List.range S).foldl (fun (a : List Int × (Int × Bool × Bool)) i =>
        let co := (List.range 5).map (fun j => pI32 par (4 + 20 * i + 4 * j))
        let q := kSection co ((h.drop (4 * i)).take 4) a.2.1
        (a.1 ++ q.1, (q.2.1, a.2.2.1 || q.2.2.1, a.2.2.2 || q.2.2.2))) ([], (x, false, false))
      r) (st.h.getD c.1 []) c.2)) []

/-- FIR. -/
def kFir (par : Bytes) (xs : List (List Int)) (st : KSt) : KOut :=
  let L := pU16 par 0
  let taps := (List.range L).map (fun i => pI32 par (4 + 4 * i))
  joinChans (xs.map (runChan (fun h x =>
    let h := (x :: h).take 4096
    (h, storeSum 22 ((taps.zip h).map (fun p => p.1 * p.2)))) (st.h.getD 0 []))) []

/-- DELAY. -/
def kDelay (par : Bytes) (xs : List (List Int)) (st : KSt) : KOut :=
  joinChans (((List.range xs.length).zip xs).map (fun c =>
    runChan (fun h x =>
      let h := (x :: h).take 8193
      (h, (h.getD (pU16 par (2 * c.1)) 0, false, false))) (st.h.getD c.1 []) c.2)) []

/-! ## Dynamics -/

/-- The samples of every channel at step i. -/
def column (xs : List (List Int)) (i : Nat) : List Int := xs.map (fun c => c.getD i 0)

/-- Gain of DYNAMICS, UQ4.20: what its law calls for, held between the range and no change, with the makeup; within 0.01 dB
(Table 12.7; assumption 40). -/
def dynGain (par : Bytes) (fA : Nat) (v : List Int) : Nat :=
  let change := clampI (X.ofF (pU32 par 24)) 0 (Config.dynLaw par fA v)
  let err := clampI (-(X.one / 100)) (X.one / 100) (Config.dynErr par fA v)
  let g := X.exp (X.mul (change + X.ofF (pU32 par 28) + err) X.ln10 / 20)
  min (2 ^ 24 - 1) (divRnu (g * 2 ^ 20) X.one.toNat).toNat

/-- Detector of one channel of DYNAMICS: its state and its value after a sample; a peak detector's value is the magnitude. -/
def dynDetect (par : Bytes) (fA : Nat) (h : List Int) (x : Int) : List Int × Nat :=
  if pU8 par 1 == 0 then ([], x.natAbs)
  else
    let h := Config.dynRms par fA h x
    (h, (h.headD 0).natAbs)

/-- DYNAMICS on C channels, the last input being the key if there is one: one gain for all, from the largest detector
value; `v` is the state of its law, `h` the histories of the look-ahead, then the states of the detectors. -/
def kDynamics (par : Bytes) (fA b : Nat) (outs : Nat) (xs : List (List Int)) (st : KSt) : KOut :=
  let key := pU8 par 2 == 1
  let L := pU16 par 32
  let r := mapAcc (fun (s : KSt) i =>
    let now := column xs i
    let heard := if key then now.drop outs else now
    let det := ((List.range heard.length).zip heard).map (fun p => dynDetect par fA (s.h.getD (outs + p.1) []) p.2)
    let v := Config.dynStep par fA s.v (maxN (det.map (·.2)))
    let g : Int := dynGain par fA v
    let h := (List.range outs).map (fun c => ((nth now c 0) :: s.h.getD c []).take 65)
    (⟨v, h ++ det.map (·.1)⟩, h.map (fun c => storeSum 20 [c.getD L 0 * g]))) st (List.range b)
  ⟨(List.range outs).map (fun c => r.2.map (fun y => (nth y c (0, false, false)).1)), r.1, [],
   r.2.any (fun y => y.any (·.2.1)), r.2.any (fun y => y.any (·.2.2))⟩

/-- Q1.23 to binary32. -/
def q23F (x : Int) : F32 := F.ofScaled x (-23)

/-- LIMITER (R135 with the look-ahead n and the divisor n + 1): `v` is its gain. -/
def kLimiter (par : Bytes) (fA b : Nat) (xs : List (List Int)) (st : KSt) : KOut :=
  let T := F.flush (dbToGain (pU32 par 0))
  let alpha := releaseAlpha (pU32 par 4) fA
  let n := pU16 par 8
  let r := mapAcc (fun (s : KSt) i =>
    let h := ((List.range xs.length).zip (column xs i)).map (fun p => (p.2 :: s.h.getD p.1 []).take (n + 1))
    let a := (List.range (n + 1)).foldl (fun m j =>
      let q := limReq T (q23F (maxN (h.map (fun c => (c.getD (n - j) 0).natAbs))))
      F.min2 m (fz (F.add q (fz (F.mul (fz (F.sub F.one q)) (F.ofRat false j (n + 1))))))) F.one
    let g0 : F32 := (s.v.headD 0x3F800000).toNat
    let g := F.min2 a (fz (F.add g0 (fz (F.mul alpha (fz (F.sub F.one g0))))))
    (⟨[(g : Int)], h⟩, h.map (fun c =>
      let y := F.clamp (F.neg T) T (fz (F.mul g (q23F (c.getD n 0))))
      satI 24 ((F.toIntFloor y 24 + 1) / 2)))) st (List.range b)
  ⟨(List.range xs.length).map (fun c => r.2.map (fun y => (nth y c (0, false)).1)), r.1, [],
   r.2.any (fun y => y.any (·.2)), false⟩

/-! ## Loudness and true peak (R348) -/

/-- A decimal over 10^14 in fixed point. -/
def dec14 (n : Int) : Int := X.ofRat n (10 ^ 14)

/-- K-weighting at 48 kHz (ITU-R BS.1770-4): the pre-filter's b0, b1, b2, a1, a2 and the RLB filter's. -/
def kWeight48 : List Int :=
  [dec14 153512485958697, dec14 (-269169618940638), dec14 119839281085285, dec14 (-169065929318241), dec14 73248077421585,
   X.one, -(2 * X.one), X.one, dec14 (-199004745483398), dec14 99007225036621]

/-- K-weighting at a rate; the design at 96 kHz is open (assumption 42). -/
def kWeight (fA : Nat) : List Int := if fA == 96000 then (List.range 10).map (fun i => Config.kernTap i * 2 ^ 120) else kWeight48

/-- One second-order section in fixed point on its two state values. -/
def realSection (co : List Int) (s1 s2 x : Int) : Int × Int × Int :=
  let y := X.mul (nth co 0 0) x + s1
  (y, X.mul (nth co 1 0) x - X.mul (nth co 3 0) y + s2, X.mul (nth co 2 0) x - X.mul (nth co 4 0) y)

/-- One K-weighted sample of a channel: its four state values after it, and the square. -/
def kSample (co h : List Int) (x : Int) : List Int × Int :=
  let a := realSection (co.take 5) (nth h 0 0) (nth h 1 0) (x * 2 ^ 137)
  let b := realSection (co.drop 5) (nth h 2 0) (nth h 3 0) a.1
  ([a.2.1, a.2.2, b.2.1, b.2.2], X.mul b.1 b.1)

/-- −0.691 + 10 · log10 of a mean square, in fixed point. -/
def lufs (e : Int) : Int := X.div (10 * X.ln e) X.ln10 - X.ofRat 691 1000

/-- Bin of the histogram of 0.01 LU from −70 to +10 LUFS; none at the absolute gate. -/
def lufsBin (e : Int) : Option Nat :=
  if e ≤ 0 then none
  else
    let l := lufs e + 70 * X.one
    if l ≤ 0 then none else some (min 7999 (100 * l / X.one).toNat)

/-- Loudness at the centre of a bin, and its mean square. -/
def binLevel (i : Nat) : Int := X.ofRat (2 * i + 1) 200 - 70 * X.one
def binEnergy (i : Nat) : Int := X.exp (X.mul (binLevel i + X.ofRat 691 1000) X.ln10 / 10)

/-- A histogram with one more block. -/
def addBin (h : List Int) (i : Option Nat) : List Int :=
  let h := if h.isEmpty then List.replicate 8000 0 else h
  match i with
  | some i => h.set i (h.getD i 0 + 1)
  | none => h

/-- Bins that hold blocks, with their counts. -/
def binsOf (h : List Int) : List (Nat × Int) := ((List.range 8000).zip h).filter (fun p => p.2 != 0)

/-- Mean loudness of a histogram's blocks; none without blocks. -/
def meanLoudness (bs : List (Nat × Int)) : Option Int :=
  let n := sumI (bs.map (·.2))
  if n == 0 then none else some (lufs (sumI (bs.map (fun p => binEnergy p.1 * p.2)) / n))

/-- Blocks above the relative gate of g LU below their mean. -/
def gated (g : Int) (h : List Int) : List (Nat × Int) :=
  let bs := binsOf h
  match meanLoudness bs with
  | some m => bs.filter (fun p => m - g * X.one < binLevel p.1)
  | none => []

/-- Level of the block at rank r of a list of bins. -/
def rankLevel (bs : List (Nat × Int)) (r : Int) : Int :=
  (bs.foldl (fun (a : Int × Option Int) p =>
    if a.2.isSome then a else if r < a.1 + p.2 then (a.1, some (binLevel p.1)) else (a.1 + p.2, none)) (0, none)).2.getD 0

/-- Loudness range: between the 10th and the 95th percentile of the gated short-term loudness, each at the nearest rank (EBU
Tech 3342). -/
def loudnessRange (h : List Int) : Option Int :=
  let bs := gated 20 h
  let n := sumI (bs.map (·.2))
  let at_ (p : Int) : Int := rankLevel bs (((n - 1) * p + 50) / 100)
  if n == 0 then none else some (at_ 95 - at_ 10)

/-- Mean of the newest n sub-blocks of 100 ms, if there are so many. -/
def meanOf (n : Nat) (subs : List Int) : Option Int := if subs.length < n then none else some (sumI (subs.take n) / n)

/-- A level as a result, −144.0 while there is none. -/
def lufsF (j : Nat) (e : Option Int) : F32 :=
  match e with
  | some e => if e ≤ 0 then minus144 else kernVal 0x20 j e.toNat (X.toF (lufs e))
  | none => minus144
def rangeF (j : Nat) (l : Option Int) : F32 :=
  match l with
  | some l => kernVal 0x20 j l.natAbs (X.toF l)
  | none => minus144

/-- LOUDNESS state: samples of the sub-block, its sum, the reset byte plus 1, largest momentary and short-term mean
square in `v`; sub-blocks, the two histograms, then the filters of the channels in `h`. Its constants are the ten coefficients. -/
def kLoudness (par : Bytes) (fA b : Nat) (lost : KLost) (xs : List (List Int)) (st : KSt) : KOut :=
  let byte0 : Int := pU8 par 0 + 1
  let v0 := if st.v.isEmpty then [0, 0, byte0, 0, 0] else st.v
  let h0 := if st.h.isEmpty then [[], [], []] ++ xs.map (fun _ => []) else st.h
  let clear := nth v0 2 0 != byte0
  let v0 := if clear then [nth v0 0 0, nth v0 1 0, byte0, 0, 0] else v0
  let h0 := if clear then [h0.headD [], [], []] ++ h0.drop 3 else h0
  let co := lost.read 0 (kWeight fA)
  let weight := fun c => match pU8 par (4 + c) with
    | 0 => X.one
    | 1 => X.ofRat 141 100
    | _ => 0
  let s := (List.range b).foldl (fun (s : KSt) i =>
    let ch := ((List.range xs.length).zip (column xs i)).map (fun p => kSample co (nth s.h (3 + p.1) []) p.2)
    let e := sumI (((List.range xs.length).zip ch).map (fun p => X.mul (weight p.1) p.2.2))
    let n := nth s.v 0 0 + 1
    let sum := nth s.v 1 0 + e
    let filters := ch.map (·.1)
    if n < (fA / 10 : Nat) then ⟨[n, sum, byte0, nth s.v 3 0, nth s.v 4 0], s.h.take 3 ++ filters⟩
    else
      let subs := (sum / n :: nth s.h 0 []).take 30
      let m := meanOf 4 subs
      let w := meanOf 30 subs
      ⟨[0, 0, byte0, max (nth s.v 3 0) (m.getD 0), max (nth s.v 4 0) (w.getD 0)],
       [subs, addBin (nth s.h 1 []) (m.bind lufsBin), addBin (nth s.h 2 []) (w.bind lufsBin)] ++ filters⟩) ⟨v0, h0⟩
  let subs := nth s.h 0 []
  let maxF := fun j => lufsF j (if nth s.v (j - 1) 0 == 0 then none else some (nth s.v (j - 1) 0))
  let res := [lufsF 0 (meanOf 4 subs), lufsF 1 (meanOf 30 subs), rangeF 2 (meanLoudness (gated 10 (nth s.h 1 []))),
    rangeF 3 (loudnessRange (nth s.h 2 [])), maxF 4, maxF 5]
  ⟨[], s, res.foldl (fun a x => a ++ leBytes 4 x) [], false, false⟩

/-- Interpolation filters of TRUE_PEAK in 2^-40: the four phases of BS.1770-4 Annex 2 at 48 kHz, and at 96 kHz the
sample itself and an open half-band filter (assumption 42). -/
def tpPhase0 : List Int := [14, 90, -161, 272, -487, 1125, 7964, -838, 390, -218, 122, -68]
def tpPhase1 : List Int := [-239, 240, -424, 730, -1364, 3810, 6388, -1641, 832, -477, 271, -155]
def tpPhases (fA : Nat) : List (List Int) :=
  if fA == 96000 then [[0, 0, 0, 0, 0, 2 ^ 40], (List.range 12).map (fun i => Config.kernTap (16 + i))]
  else [tpPhase0, tpPhase1, tpPhase1.reverse, tpPhase0.reverse].map (fun p => p.map (· * 2 ^ 27))

/-- Largest oversampled magnitude after a sample, in 2^-63. -/
def tpPeak (ph : List (List Int)) (h : List Int) : Nat :=
  maxN (ph.map (fun p => (sumI ((p.zip h).map (fun q => q.1 * q.2))).natAbs))

/-- TRUE_PEAK: `v` is the reset byte plus 1, then the largest magnitude of each channel since the reset. Its constants are the
taps, twelve to a phase. -/
def kTruePeak (par : Bytes) (fA : Nat) (lost : KLost) (xs : List (List Int)) (st : KSt) : KOut :=
  let byte0 : Int := pU8 par 0 + 1
  let old := if nth st.v 0 0 == byte0 then st.v.drop 1 else []
  let ph := ((List.range 4).zip (tpPhases fA)).map (fun p => lost.read (12 * p.1) p.2)
  let r := ((List.range xs.length).zip xs).map (fun c =>
    c.2.foldl (fun (a : List Int × Nat) x =>
      let h := (x :: a.1).take 12
      (h, max a.2 (tpPeak ph h))) (st.h.getD c.1 [], 0))
  let since := ((List.range xs.length).zip r).map (fun p => max (nth old p.1 0).toNat p.2.2)
  let db := fun (n : Nat) => leBytes 4 (kernVal 0x21 0 n (levelDb n (2 ^ 63)))
  ⟨[], ⟨byte0 :: since.map (fun (n : Nat) => (n : Int)), r.map (·.1)⟩,
   (since.map db ++ r.map (fun p => db p.2)).foldl (· ++ ·) [], false, false⟩

/-! ## Meters, spectra and searches -/

/-- A time in binary32 as a whole number of samples, in units of 1/d s. -/
def samplesOf (x : F32) (fA d : Nat) : Nat := (divRne (F.toScaled x * fA) (2 ^ 149 * d)).toNat

/-- METER: `v` is per channel the held peak and its age; `h` the squares of the window, newest first. -/
def kMeter (par : Bytes) (fA b : Nat) (xs : List (List Int)) (st : KSt) : KOut :=
  let W := max 1 (samplesOf (pU32 par 0) fA 1000)
  let hold := samplesOf (pU32 par 4) fA 1
  let r := ((List.range xs.length).zip xs).map (fun c =>
    let sq := ((c.2.map (fun x => x * x)).reverse ++ st.h.getD c.1 []).take W
    let pk := maxN (c.2.map Int.natAbs)
    let held := (nth st.v (2 * c.1) 0).toNat
    let age := (nth st.v (2 * c.1 + 1) 0).toNat + b
    let (held, age) := if held ≤ pk || hold < age then (pk, 0) else (held, age)
    let rms := (sumI sq).toNat
    (sq, [(held : Int), (age : Int)], leBytes 4 (levelDb pk (2 ^ 23)) ++
      leBytes 4 (kernVal 0x22 W rms (powerDb rms (W * 2 ^ 46))) ++ leBytes 4 (levelDb held (2 ^ 23))))
  ⟨[], ⟨r.foldl (fun a p => a ++ p.2.1) [], r.map (·.1)⟩, r.foldl (fun a p => a ++ p.2.2) [], false, false⟩

/-- Fixed point to Q1.23, by the store of R329. -/
def toQ1_23 (x : Int) : Int := (store 137 x).1

/-- Numbers 0 to 2^n − 1 in the order of their reversed bits. -/
def bitRev : Nat → List Nat
  | 0 => [0]
  | n + 1 => (bitRev n).map (2 * ·) ++ (bitRev n).map (2 * · + 1)

/-- A radix-2 butterfly: exact products, rounded once with s = 23 (R331). -/
def butterfly (w a b : Int × Int) : (Int × Int) × (Int × Int) :=
  let re := w.1 * b.1 - w.2 * b.2
  let im := w.1 * b.2 + w.2 * b.1
  let st (v : Int) : Int := (store 23 v).1
  ((st (a.1 * 2 ^ 23 + re), st (a.2 * 2 ^ 23 + im)), (st (a.1 * 2 ^ 23 - re), st (a.2 * 2 ^ 23 - im)))

/-- Factor j of a stage on groups of len values: e^(−2πi · j / len) in Q1.23. -/
def twiddle (len j : Nat) : Int × Int :=
  let a := 2 * X.pi * j / len
  (toQ1_23 (X.cos a), toQ1_23 (-X.sin a))

/-- One stage of a transform of N values: butterflies between the halves of every group of 2 · half values. Factor q of N is
constants 2q and 2q + 1. -/
def fftStage (lost : KLost) (N half : Nat) (xs : List (Int × Int)) : List (Int × Int) :=
  (chunks (2 * half) xs).foldl (fun acc c =>
    let r := ((List.range half).zip ((c.take half).zip (c.drop half))).map (fun q =>
      let w := twiddle (2 * half) q.1
      let k := lost.read (2 * (q.1 * (N / (2 * half)))) [w.1, w.2]
      butterfly (nth k 0 0, nth k 1 0) q.2.1 q.2.2)
    acc ++ r.map (·.1) ++ r.map (·.2)) []

/-- Before a stage: while any value has a magnitude of 0.5 or more every component is shifted right by 1 bit, rounded, and the
block exponent rises (R331). No more than two shifts are needed, and no butterfly of what they leave saturates
(assumption 43). -/
def fftScale : Nat → List (Int × Int) × Nat → List (Int × Int) × Nat
  | 0, x => x
  | n + 1, x =>
    if x.1.any (fun c => 2 ^ 44 ≤ c.1 * c.1 + c.2 * c.2) then
      fftScale n (x.1.map (fun c => ((store 1 c.1).1, (store 1 c.2).1)), x.2 + 1)
    else x

/-- The values that stage m of transform k of a run reads, with zero for the words it cannot read. -/
def fftRead (lost : KLost) (k m : Nat) (xs : List (Int × Int)) : List (Int × Int) :=
  (lost.work.filter (fun w => w.1 == k && w.2.1 == m)).foldl (fun xs w =>
    let c := nth xs w.2.2.1 (0, 0)
    xs.set w.2.2.1 (if w.2.2.2 then (c.1, 0) else (0, c.2))) xs

/-- Transform k of a run, of 2^n Q1.23 values in block floating point with its block exponent (R331; assumption 43). -/
def fft (lost : KLost) (k n : Nat) (xs : List (Int × Int)) : List (Int × Int) × Nat :=
  (List.range n).foldl (fun x m =>
    let x := fftScale 2 (fftRead lost k m x.1, x.2)
    (fftStage lost (2 ^ n) (2 ^ m) x.1, x.2)) ((bitRev n).map (fun i => nth xs i (0, 0)), 0)

/-- Powers of bins 0 to N/2 of N = 2^n samples under a Hann window by transform k of a run, relative to a full-scale sine, and
the transform's block exponent. Coefficient i of the window is constant N + i. -/
def hannPowers (lost : KLost) (k n : Nat) (xs : List Int) : List Int × Nat :=
  let N := 2 ^ n
  let win := lost.read N ((List.range N).map (fun (i : Nat) => toQ1_23 ((X.one - X.cos (2 * X.pi * i / N)) / 2)))
  let ys := (win.zip xs).map (fun p => ((store 23 (p.2 * p.1)).1, (0 : Int)))
  let r := fft lost k n ys
  ((r.1.take (N / 2 + 1)).map (fun c => (c.1 * c.1 + c.2 * c.2) * 4 ^ r.2 * 2 ^ 118 / ((N * N : Nat) : Int)), r.2)

/-- SPECTRUM: `v` is the samples since the last hop, those seen up to N, and the block exponent; `h` the newest N
samples and the averaged powers. -/
def kSpectrum (par : Bytes) (lost : KLost) (xs : List (List Int)) (st : KSt) : KOut :=
  let N := pU16 par 0
  let k := pU8 par 2
  let r := (xs.headD []).foldl (fun (a : KSt × Nat) x =>
    let s := a.1
    let h := (x :: nth s.h 0 []).take N
    let hop := nth s.v 0 0 + 1
    let seen := min (N : Int) (nth s.v 1 0 + 1)
    if hop < (N / 2 : Nat) || seen < N then (⟨[hop, seen, nth s.v 2 0], [h, nth s.h 1 []]⟩, a.2)
    else
      let (new, e) := hannPowers lost a.2 (Nat.log2 N) h.reverse
      let old := nth s.h 1 []
      let avg := if old.length != new.length then new
        else (old.zip new).map (fun p => if k == 0 then p.2 else p.1 + (p.2 - p.1) / 2 ^ k)
      (⟨[0, seen, (e : Int)], [h, avg]⟩, a.2 + 1)) (if st.v.isEmpty then ⟨[0, 0, 0], [[], []]⟩ else st, 0)
  let s := r.1
  let avg := nth s.h 1 []
  let mags := (List.range (N / 2 + 1)).map (fun i =>
    match avg[i]? with
    | some p => kernVal 0x30 i p.toNat (powerDb p.toNat (2 ^ 160))
    | none => minus144)
  ⟨[], s, leBytes 2 (nth s.v 2 0).toNat ++ [0, 0] ++ mags.foldl (fun a x => a ++ leBytes 4 x) [], false, false⟩

/-- Sum of the products of two blocks. -/
def crossSum (xs ys : List Int) : Int := sumI ((xs.zip ys).map (fun p => p.1 * p.2))

/-- Cross-correlation of 2^n samples by three transforms from number k of the run on: value m, times 2^e, is 2^n times
the sum of x(i) · y(i + m) around the block; e is made of the exponents of the transforms and of the product's shift (R331;
assumption 43). -/
def crossFft (lost : KLost) (k n : Nat) (xs ys : List Int) : List Int × Nat :=
  let real := fun (j : Nat) (l : List Int) => fft lost (k + j) n (l.map (fun v => (v, 0)))
  let x := real 0 xs
  let y := real 1 ys
  let p := (x.1.zip y.1).map (fun q =>
    ((store 24 (q.1.1 * q.2.1 + q.1.2 * q.2.2)).1, (store 24 (q.1.2 * q.2.1 - q.1.1 * q.2.2)).1))
  let z := fft lost (k + 2) n p
  (z.1.map (·.1), x.2 + y.2 + z.2 + 1)

/-- CORRELATION: `v` is whether there is a block, the coefficient and the lag of the last one and the exponent of its
cross-correlation. The coefficient of a block without energy is open (assumption 41). -/
def kCorrelation (par : Bytes) (b : Nat) (lost : KLost) (xs : List (List Int)) (st : KSt) : KOut :=
  let N := pU16 par 0
  let L := pU16 par 2
  let r := (List.range b).foldl (fun (a : KSt × Nat) i =>
    let s := a.1
    let hx := nth s.h 0 [] ++ [(nth xs 0 []).getD i 0]
    let hy := nth s.h 1 [] ++ [(nth xs 1 []).getD i 0]
    if hx.length < N then (⟨s.v, [hx, hy]⟩, a.2)
    else
      let exy := crossSum hx hy
      let e := crossSum hx hx * crossSum hy hy
      let co : F32 := if e == 0 then X.toF (clampI (-X.one) X.one (Config.kernErr 0x31 N L * 2 ^ 137))
        else F.clamp (F.neg F.one) F.one (kernVal 0x31 exy.natAbs e.toNat (X.toF (X.div (exy * X.one) (X.sqrt (e * X.one)))))
      let (cs, e2) := crossFft lost a.2 (Nat.log2 N) hx hy
      let best := (List.range (2 * L + 1)).foldl (fun (m : Option (Int × Int)) (j : Nat) =>
        let lag : Int := (j : Int) - L
        let c := nth cs (lag % N).toNat 0
        match m with
        | some (v, _) => if v < c then some (c, lag) else m
        | none => some (c, lag)) none
      (⟨[1, (co : Int), (best.getD (0, 0)).2, (e2 : Int)], [[], []]⟩, a.2 + 3))
    (if st.v.isEmpty then ⟨[0, 0, 0, 0], [[], []]⟩ else st, 0)
  let s := r.1
  let co := if nth s.v 0 0 == 0 then minus144 else (nth s.v 1 0).toNat
  ⟨[], s, leBytes 4 co ++ leBytes 4 (unsigned 32 (nth s.v 2 0)), false, false⟩

/-- PEAK_SEARCH: `v` is the samples of the window under way, its largest magnitude and that sample's media time, then
those of the last window and whether there is one. -/
def kPeakSearch (par : Bytes) (X : Nat) (xs : List (List Int)) (st : KSt) : KOut :=
  let W := pU32 par 0
  let x := xs.headD []
  let v := ((List.range x.length).zip x).foldl (fun (v : List Int) p =>
    let n := nth v 0 0 + 1
    let mag : Int := p.2.natAbs
    let at_ : Int := (X + 1 + p.1 : Nat) - (x.length : Int)
    let (m, a) := if n == 1 || nth v 1 0 < mag then (mag, at_) else (nth v 1 0, nth v 2 0)
    if n < W then [n, m, a] ++ v.drop 3 else [0, 0, 0, m, a, 1]) (if st.v.isEmpty then [0, 0, 0, 0, 0, 0] else st.v)
  let mag := if nth v 5 0 == 0 then minus144 else levelDb (nth v 3 0).toNat (2 ^ 23)
  ⟨[], ⟨v, []⟩, leBytes 4 mag ++ leBytes 8 (nth v 4 0).toNat, false, false⟩

/-! ## The library (Table 12.7) -/

/-- Identifiers of the ROM library. -/
def romKernels : List Nat := [0x01, 0x02, 0x03, 0x04, 0x05, 0x10, 0x11, 0x20, 0x21, 0x22, 0x30, 0x31, 0x32]

/-- Whether a kernel may read and write so many buffers. -/
def formOk (id ni no : Nat) (par : Bytes) : Bool :=
  let many := 1 ≤ ni && ni ≤ 16
  match id with
  | 0x01 => many && no == ni
  | 0x02 => many && no == 1
  | 0x03 => 1 ≤ ni && ni ≤ 2 && no == ni
  | 0x04 => ni == 1 && no == 1
  | 0x05 => many && no == ni
  | 0x10 => 1 ≤ no && no ≤ 8 && ni == (if pU8 par 2 == 1 then no + 1 else no)
  | 0x11 => many && no == ni
  | 0x20 => many && no == 0
  | 0x21 => many && no == 0
  | 0x22 => many && no == 0
  | 0x30 => ni == 1 && no == 0
  | 0x31 => ni == 2 && no == 0
  | 0x32 => ni == 1 && no == 0
  | _ => false

/-- A transform length of SPECTRUM and CORRELATION. -/
def fftLen (n : Nat) : Bool := 256 ≤ n && n ≤ 4096 && n == 2 ^ Nat.log2 n

/-- A binary32 parameter between two bounds. -/
def pF (par : Bytes) (o : Nat) (lo hi : F32) : Bool :=
  F.isFinite (pU32 par o) && F.le lo (pU32 par o) && F.le (pU32 par o) hi

/-- Stability of section i of BIQUAD (step 4 of R117). -/
def kStable (par : Bytes) (i : Nat) : Bool :=
  let a1 := pI32 par (4 + 20 * i + 12)
  let a2 := pI32 par (4 + 20 * i + 16)
  a2.natAbs < 2 ^ 22 && (a1.natAbs : Int) < 2 ^ 22 + a2

/-- A gain UQ4.20 in a U32, and a coefficient Q2.22 in an I32, have 24 bits (R327). -/
def gainIn (par : Bytes) (o : Nat) : Bool := pU32 par o < 2 ^ 24
def coefIn (par : Bytes) (o : Nat) : Bool := -(2 ^ 23) ≤ pI32 par o && pI32 par o < 2 ^ 23

/-- Whether parameters have the length and ranges of Table 12.7, for ni inputs and block size b. LOUDNESS may count
its padding (assumption 44). -/
def parOk (id ni b : Nat) (par : Bytes) : Bool :=
  let n := par.length
  match id with
  | 0x01 => n == 4 + 4 * ni && pU16 par 0 ≤ 4096 && pU16 par 2 == 0 && (List.range ni).all (fun i => gainIn par (4 + 4 * i))
  | 0x02 => n == 4 * ni && (List.range ni).all (fun i => gainIn par (4 * i))
  | 0x03 => 1 ≤ pU8 par 0 && pU8 par 0 ≤ 16 && (slice par 1 3).all (· == 0) && n == 4 + 20 * pU8 par 0 &&
      (List.range (5 * pU8 par 0)).all (fun i => coefIn par (4 + 4 * i)) && (List.range (pU8 par 0)).all (kStable par)
  | 0x04 => 1 ≤ pU16 par 0 && pU16 par 0 ≤ 4096 && pU16 par 2 == 0 && n == 4 + 4 * pU16 par 0 &&
      (List.range (pU16 par 0)).all (fun i => coefIn par (4 + 4 * i))
  | 0x05 => n == 2 * ni && (List.range ni).all (fun i => pU16 par (2 * i) ≤ 8192)
  | 0x10 => n == 36 && pU8 par 0 ≤ 2 && pU8 par 1 ≤ 1 && pU8 par 2 ≤ 1 && pU8 par 3 == 0 && pF par 4 0xC2A00000 0 &&
      pF par 8 0x3F800000 0x42C80000 && pF par 12 0 0x41C00000 && pF par 16 0x3D4CCCCD 0x43FA0000 &&
      pF par 20 0x3F800000 0x459C4000 && pF par 24 0xC2A00000 0 && pF par 28 0 0x41C00000 && pU16 par 32 ≤ 64 &&
      pU16 par 34 == 0
  | 0x11 => n == 12 && pF par 0 0xC2700000 0 && pF par 4 0x3F800000 0x459C4000 && 1 ≤ pU16 par 8 && pU16 par 8 ≤ 64 &&
      pU16 par 10 == 0
  | 0x20 => (n == 4 + ni || n == up4 (4 + ni)) && (slice par 1 3).all (· == 0) &&
      (List.range ni).all (fun i => pU8 par (4 + i) ≤ 2) && (par.drop (4 + ni)).all (· == 0)
  | 0x21 => n == 4 && (slice par 1 3).all (· == 0)
  | 0x22 => n == 8 && pF par 0 0x41200000 0x453B8000 && pF par 4 0 0x42700000
  | 0x30 => n == 4 && fftLen (pU16 par 0) && pU8 par 2 ≤ 8 && pU8 par 3 == 0
  | 0x31 => n == 4 && fftLen (pU16 par 0) && pU16 par 2 ≤ pU16 par 0 / 2
  | 0x32 => n == 4 && b ≤ pU32 par 0 && pU32 par 0 ≤ 16777216 && pU32 par 0 % b == 0
  | _ => false

/-- Twice the cycles per sample, single and paired (Table 12.7). -/
def cycles2 (id ni fA : Nat) (par : Bytes) : Nat × Nat :=
  let lg := Nat.log2 (pU16 par 0)
  match id with
  | 0x01 => (4 * ni, 2 * ni)
  | 0x02 => (2 * (ni + 2), ni + 2)
  | 0x03 => (2 * (5 * pU8 par 0 + 2) * ni, 2 * (5 * pU8 par 0 + 2))
  | 0x04 => (2 * (pU16 par 0 + 2), pU16 par 0 + 2)
  | 0x05 => (4 * ni, 2 * ni)
  | 0x10 => let c := 2 * (32 + 4 * (ni - pU8 par 2)); (c, c)
  | 0x11 => let c := 2 * (20 + 5 * ni); (c, c)
  | 0x20 => let c := 2 * (11 * ni + 6); (c, c)
  | 0x21 => let c := if fA == 96000 then 26 * ni else 50 * ni; (2 * c, c)
  | 0x22 => (8 * ni, 4 * ni)
  | 0x30 => (2 * (5 * lg + 8), 5 * lg + 8)
  | 0x31 => (2 * (10 * lg + 12), 10 * lg + 12)
  | 0x32 => (2, 1)
  | _ => (0, 0)

/-- Bytes of code, X and Y memory without buffers (Table 12.7). -/
def kernBytes (id ni b : Nat) (par : Bytes) : Nat × Nat × Nat :=
  let N := pU16 par 0
  match id with
  | 0x01 => (512, 4 + 4 * ni, 8 * ni)
  | 0x02 => (512, 4 * ni, 4 * ni)
  | 0x03 => (768, 20 * pU8 par 0, 16 * pU8 par 0 * ni)
  | 0x04 => (512, 4 * N, 4 * N)
  | 0x05 => (256, 2 * ni, 4 * sumN ((List.range ni).map (fun i => pU16 par (2 * i) + b)))
  | 0x10 => let c := ni - pU8 par 2; (2048, 64, 8 * c + 4 * (64 + b) * c)
  | 0x11 => (1536, 32, 4 * (pU16 par 8 + b) * ni + 8)
  | 0x20 => (3072, 128, 32768 + 32 * ni)
  | 0x21 => (1024, 192, 48 * ni)
  | 0x22 => (768, 16, 12 * ni)
  | 0x30 => (4096, 8 * N, 12 * N)
  | 0x31 => (4096, 8 * N, 12 * N)
  | 0x32 => (256, 8, 16)
  | _ => (0, 0, 0)

/-- Latency in samples (Table 12.7). -/
def kernLatency (id : Nat) (par : Bytes) : Nat :=
  match id with
  | 0x10 => pU16 par 32
  | 0x11 => pU16 par 8
  | _ => 0

/-- One run of a kernel of the ROM library; `lost` are the words of its transforms and constants that it cannot read. -/
def romRun (id fA b X no : Nat) (par : Bytes) (lost : KLost) (xs : List (List Int)) (st : KSt) : KOut :=
  match id with
  | 0x01 => kGain par xs st
  | 0x02 => kMix par b xs st
  | 0x03 => kBiquad par xs st
  | 0x04 => kFir par xs st
  | 0x05 => kDelay par xs st
  | 0x10 => kDynamics par fA b no xs st
  | 0x11 => kLimiter par fA b xs st
  | 0x20 => kLoudness par fA b lost xs st
  | 0x21 => kTruePeak par fA lost xs st
  | 0x22 => kMeter par fA b xs st
  | 0x30 => kSpectrum par lost xs st
  | 0x31 => kCorrelation par b lost xs st
  | 0x32 => kPeakSearch par X xs st
  | _ => ⟨[], st, [], false, false⟩

end Sys2Proof.Machine
end

