-- ==== Sys2Proof/Machine/Serial.lean ====
section
/-! DEFINITION. Serial audio ports and sample clocks (R167 to R198), with the Domain B bridge (R162) and the ASRC channels
(R189, R190) that ports and streams share. -/

namespace Sys2Proof.Machine
open Sys2Proof

variable {s0 : State}

/-! ## Ramps, the bridge and the ASRC channels -/

/-- Step i of a ramp up over 64 samples (R185) and of a ramp down (R184). -/
def rampUp (x : Int) (i : Nat) : Int := (x * (i + 1) + 32) / 64
def rampDown (x : Int) (i : Nat) : Int := (x * (63 - i) + 32) / 64

/-- Rate of Domain B (R161). -/
def State.fB (s : State) : Nat := if s.fA == 48000 then 96000 else 48000

/-- K_B in Domain A samples (R162). -/
def State.kB (s : State) : Nat := if s.fA == 48000 then 32 else 64

/-- History of a bridged channel, newest first. -/
def State.bridgeHist (s : State) (key : Nat) : List Int := mget [] s.maps.bridge key

/-- A sample enters a bridged channel. -/
def Tx.bridgePush (t : Tx s0) (key : Nat) (x : Int) : Tx s0 :=
  t.setMaps { t.cur.maps with bridge := mputD [] key ((x :: t.cur.bridgeHist key).take 129) t.cur.maps.bridge }

/-- Tap i of the bridge's 129: the filter is linear-phase (R162). -/
def bridgeCoef (up : Bool) (i : Nat) : Int := signed 24 (unsigned 24 (Config.bridgeTap up (min i (128 - i))))

/-- Sum of the products of a history with the bridge's coefficients from i in steps of d. -/
def bridgeSum (up : Bool) : Nat → Nat → List Int → Int
  | _, _, [] => 0
  | i, d, x :: xs => if 129 ≤ i then 0 else x * bridgeCoef up i + bridgeSum up (i + d) d xs

/-- One sample leaves a bridged channel: with `up` phase ph of the interpolation 1:2, else the decimation 2:1 (R162). -/
def Tx.bridgeOut (t : Tx s0) (key : Nat) (up : Bool) (ph : Nat) : Int × Tx s0 :=
  let sum := if up then bridgeSum true ph 2 (t.cur.bridgeHist key) else bridgeSum false 0 1 (t.cur.bridgeHist key)
  let y := satI 24 (divRnu sum (2 ^ 22))
  (y.1, t.when y.2 (fun t => (t.tally 0x3F00 0 0x07).flagBit 0x3F00 0 0x09 0))

/-- Bridged channels in use toward Domain A (dir 0) or from it (dir 1), and those n more would need. -/
def State.bridgeFits (s : State) (dir n : Nat) : Bool := s.g 0x3F00 0 (0x05 + dir) + n ≤ 128

/-- Bridge channels are taken or given back (0x3F00:05, :06). -/
def Tx.bridgeTake (t : Tx s0) (dir n : Nat) : Tx s0 := t.inc 0x3F00 0 (0x05 + dir) n
def Tx.bridgeDrop (t : Tx s0) (dir n : Nat) : Tx s0 := t.w 0x3F00 0 (0x05 + dir) (t.g 0x3F00 0 (0x05 + dir) - n)

/-- ASRC channels that an owner holds (Table 7.13). -/
def State.asrcHeld (s : State) (kind inst : Nat) : List Nat :=
  (List.range 64).filter (fun c => s.g 0x4510 c 0x01 == kind && s.g 0x4510 c 0x02 == inst)

/-- ASRC channel of one channel of an owner in a direction. -/
def State.asrcOf (s : State) (kind inst dir ch : Nat) : Option Nat :=
  (s.asrcHeld kind inst).find? (fun c => s.g 0x4510 c 0x03 == ch && s.g 0x4510 c 0x04 == dir)

/-- Free ASRC channels, lowest first. -/
def State.asrcFree (s : State) : List Nat := (List.range 64).filter (fun c => s.g 0x4510 c 0x01 == 0)

/-- Show how many ASRC channels are free and locked, and how many the ports hold. -/
def Tx.asrcShow (t : Tx s0) : Tx s0 :=
  let t := t.w 0x4500 0 0x01 t.cur.asrcFree.length
  let t := t.w 0x4500 0 0x02 ((List.range 64).filter (fun c => t.on 0x4510 c 0x06)).length
  t.each (List.range 32) (fun t p => t.w 0x4010 p 0x15 (t.cur.asrcHeld 1 p).length)

/-- Take one channel per (owner channel, direction) in order, the lowest free ones first (R189). -/
def Tx.asrcTake (t : Tx s0) (kind inst : Nat) (l : List (Nat × Nat)) : Tx s0 :=
  (t.each (t.cur.asrcFree.zip l) (fun t (c, ch, dir) =>
    (((t.w 0x4510 c 0x01 kind).w 0x4510 c 0x02 inst).w 0x4510 c 0x03 ch).w 0x4510 c 0x04 dir)).asrcShow

/-- Forget the ramp of an ASRC channel. -/
def Tx.asrcQuiet (t : Tx s0) (c : Nat) : Tx s0 :=
  t.setSerial { t.cur.serial with asrcRamp := t.cur.serial.asrcRamp.filter (fun r => r.1 != c) }

/-- Instant of media time m at the Domain A rate from media time 0, in ps / 96000. -/
def State.mediaInstant (s : State) (m : Int) : Int := m * ((96000 / s.fA : Nat) * 10 ^ 12 : Nat)

/-- Domain A samples over which an ASRC channel looks back (DESIGN CHOICE; assumption 24). -/
def asrcSpan : Nat := 1024

/-- A sample with its instant enters ASRC channel c (R189). -/
def Tx.asrcPush (t : Tx s0) (c : Nat) (at_ x : Int) : Tx s0 :=
  let old := mget [] t.cur.serial.asrcHist c
  let kept := old.filter (fun e => at_ - t.cur.mediaInstant asrcSpan < e.1)
  t.setSerial { t.cur.serial with asrcHist := mputD [] c ((at_, x) :: kept) t.cur.serial.asrcHist }

/-- Release ASRC channels (R189). -/
def Tx.asrcDrop (t : Tx s0) (l : List Nat) : Tx s0 :=
  (t.each l (fun t c =>
    let t := (((t.w 0x4510 c 0x01 0).w 0x4510 c 0x02 0).w 0x4510 c 0x03 0).w 0x4510 c 0x04 0xFF
    let t := ((t.w 0x4510 c 0x05 0).w 0x4510 c 0x06 0).asrcQuiet c
    t.setSerial { t.cur.serial with asrcLast := mputD 0 c 0 t.cur.serial.asrcLast, asrcHist := mdel c t.cur.serial.asrcHist })).asrcShow

/-- Nominal rate of the owner of ASRC channel c. -/
def State.asrcRate (s : State) (c : Nat) : Nat :=
  let inst := s.g 0x4510 c 0x02
  if s.g 0x4510 c 0x01 == 1 then s.g 0x4000 inst 0x05
  else if s.g 0x4510 c 0x04 == 0 then s.g 0x4A00 inst 0x0C else s.g 0x4C00 inst 0x0B

/-- Exact conversion of ASRC channel c at an instant, in units of 2^-40 of the last place (R190; assumption 24). -/
def State.asrcSum (s : State) (c : Nat) (at_ : Int) : Int :=
  let into := s.g 0x4510 c 0x04 == 0
  let rin := if into then s.asrcRate c else s.fA
  let rout := if into then s.fA else s.asrcRate c
  sumI (((mget [] s.serial.asrcHist c).filter (fun e => e.1 ≤ at_)).map (fun e => e.2 * Config.asrcTap rin rout (at_ - e.1).toNat))

/-- Sample of a locked ASRC channel at an instant (R190): its conversion with an error within −120 dB of full scale, which is 8 units
of the last place, rounded half up and saturated (assumption 24). -/
def Tx.asrcSample (t : Tx s0) (c : Nat) (at_ : Int) : Int × Tx s0 :=
  let sum := t.cur.asrcSum c at_
  let (v, t) := t.fresh
  let y := satI 24 (divRnu (sum + clampI (-2 ^ 43) (2 ^ 43) (signed 45 v)) (2 ^ 40))
  (y.1, t.when y.2 (fun t => (t.tally 0x4500 0 0x04).flagBit 0x4500 0 0x05 0))

/-- Step of a ramp whose first sample came in the period of media time a, or comes in this one: it rises with the Domain A sample
(R17, R183 to R185, R190). -/
def State.rampStep (s : State) (a : Option Nat) : Nat := s.now - a.getD s.now

/-- Next sample of ASRC channel c, for an instant: zero until it locks, its ramp (R190), or its conversion. -/
def Tx.asrcTurn (t : Tx s0) (c : Nat) (at_ : Int) : Int × Tx s0 :=
  let plain := fun (t : Tx s0) => if t.on 0x4510 c 0x06 then t.asrcSample c at_ else (0, t)
  match t.cur.serial.asrcRamp.find? (fun r => r.1 == c) with
  | some (_, up, a, h) =>
    let i := t.cur.rampStep a
    let t := t.asrcQuiet c
    if 64 ≤ i then plain t
    else
      let t := t.setSerial { t.cur.serial with asrcRamp := (c, up, some (t.cur.now - i), h) :: t.cur.serial.asrcRamp }
      if up then
        let (y, t) := t.asrcSample c at_
        (rampUp y i, t)
      else (rampDown h i, t)
  | none => plain t

/-- Next sample of ASRC channel c, for an instant; it is kept as the last the channel gave. -/
def Tx.asrcNext (t : Tx s0) (c : Nat) (at_ : Int) : Int × Tx s0 :=
  let (y, t) := t.asrcTurn c at_
  (y, t.setSerial { t.cur.serial with asrcLast := mputD 0 c y t.cur.serial.asrcLast })

/-! ## Ports -/

/-- State of port p beside its entries. -/
def State.port (s : State) (p : Nat) : Port := mget Port.init s.serial.ports p

/-- Replace the state of port p. -/
def Tx.setPort (t : Tx s0) (p : Nat) (x : Port) : Tx s0 :=
  t.setSerial { t.cur.serial with ports := mputD Port.init p x t.cur.serial.ports }

/-- State of port p (Table 7.6). -/
def State.portState (s : State) (p : Nat) : Nat := s.g 0x4010 p 0x01

/-- Settings of port p (Table 7.8). -/
def State.portRate (s : State) (p : Nat) : Nat := s.g 0x4000 p 0x05
def State.portMaster (s : State) (p : Nat) : Bool := s.g 0x4000 p 0x06 == 0
def State.portForeign (s : State) (p : Nat) : Bool := !s.portMaster p && s.g 0x4000 p 0x07 == 1
def State.portAsrc (s : State) (p : Nat) : Bool := s.on 0x4000 p 0x0D || s.on 0x4000 p 0x0E

/-- Slots carried per frame (R170). -/
def State.portSlots (s : State) (p : Nat) : Nat :=
  if s.fA == 96000 then min (s.g 0x4000 p 0x03) 8 else s.g 0x4000 p 0x03

/-- Domain of port p by its configuration (R161, R174): 0 A, 1 B, 2 C with ASRC, 3 C without. -/
def State.portDomain (s : State) (p : Nat) : Nat :=
  let r := s.portRate p
  if s.portForeign p || !(r == 48000 || r == 96000) then (if s.portAsrc p then 2 else 3)
  else if r == s.fA then 0 else 1

/-- Whether what port p receives, and what it sends, passes ASRC channels (R174, R189): a direction of a Domain C port without
them slips. -/
def State.portInAsrc (s : State) (p : Nat) : Bool := s.portDomain p == 2 && s.on 0x4000 p 0x0D
def State.portOutAsrc (s : State) (p : Nat) : Bool := s.portDomain p == 2 && s.on 0x4000 p 0x0E

/-- Whether port p converts both ways, so that its frames take no media time (R173). -/
def State.portOnAsrc (s : State) (p : Nat) : Bool := s.portInAsrc p && s.portOutAsrc p

/-- Rates at which a master port can run (Table 7.2). -/
def masterRates : List Nat :=
  [8000, 16000, 24000, 32000, 48000, 11025, 22050, 44100, 96000, 88200, 192000, 176400]

/-- Limits of R170 and the slot count of Table 7.1. A master whose BCLK is no integer division of a PLL frequency (R191) is within them
and runs at rate × slots × width (DESIGN CHOICE; assumption 67). -/
def State.portLimits (s : State) (p : Nat) : Bool :=
  let r := s.portRate p
  let n := s.g 0x4000 p 0x03
  (s.g 0x4000 p 0x02 == 2 || n == 2) && r * n * s.g 0x4000 p 0x04 ≤ 49152000 &&
  n ≤ (if r ≤ 48000 then 16 else if r ≤ 96000 then 8 else 4) && (!s.portMaster p || masterRates.contains r)

/-- Channels of R189 that port p needs: slot and direction. -/
def State.portChannels (s : State) (p : Nat) : List (Nat × Nat) :=
  let l := List.range (s.portSlots p)
  (if s.on 0x4000 p 0x0D then l.map (fun i => (i, 0)) else []) ++
  (if s.on 0x4000 p 0x0E then l.map (fun i => (i, 1)) else [])

/-- Whether port p can be given what its domain needs (R162, R174, R189). A Domain C port without ASRC needs the Domain A rate. -/
def State.portFits (s : State) (p : Nat) : Bool :=
  match s.portDomain p with
  | 0 => true
  | 1 => s.bridgeFits 0 (s.portSlots p) && s.bridgeFits 1 (s.portSlots p)
  | 2 => (s.portChannels p).length ≤ s.asrcFree.length
  | _ => s.portRate p == s.fA

/-- Members of alignment group g (R178). -/
def State.members (s : State) (g : Nat) : List Nat := (List.range 32).filter (fun p => s.g 0x4000 p 0x0F == g)

/-- Members in state GOOD. -/
def State.goodMembers (s : State) (g : Nat) : List Nat := (s.members g).filter (fun p => s.portState p == 2)

/-- Whether port p may join its group (R178). -/
def State.groupFits (s : State) (p : Nat) : Bool :=
  let g := s.g 0x4000 p 0x0F
  8 ≤ g || (!s.portAsrc p && (s.members g).all (fun q => !s.on 0x4000 q 0x01 ||
    (s.portRate q == s.portRate p && s.portMaster q == s.portMaster p && s.g 0x4000 q 0x07 == s.g 0x4000 p 0x07)))

/-- Trace message of a port (Table 18.3). -/
def Tx.portMsg (t : Tx s0) (p event time : Nat) : Tx s0 :=
  t.msg (32 + p) (leBytes 1 p ++ leBytes 1 event ++ leBytes 1 (t.cur.portState p) ++ [0] ++ leBytes 8 time)

/-- Port p takes a state (R186). A group with no member left in GOOD has no leader (R178). -/
def Tx.portTo (t : Tx s0) (p st : Nat) : Tx s0 :=
  if t.cur.portState p == st then t
  else
    let t := (t.w 0x4010 p 0x01 st).when (st == 4) (fun t => t.flagBit 0x4010 p 0x16 6)
    let g := t.g 0x4000 p 0x0F
    let t := t.when (g < 8 && (t.cur.goodMembers g).isEmpty) (fun t => t.w 0x4400 g 0x02 0xFF)
    t.portMsg p 0 t.cur.now

/-- Give port p its channels (R162, R189). -/
def Tx.portTake (t : Tx s0) (p : Nat) : Tx s0 :=
  let n := t.cur.portSlots p
  match t.cur.portDomain p with
  | 1 => (t.bridgeTake 0 n).bridgeTake 1 n
  | 2 => t.asrcTake 1 p (t.cur.portChannels p)
  | _ => t

/-- Port p's channels are given back and its bridge histories cleared. -/
def Tx.portDrop (t : Tx s0) (p : Nat) : Tx s0 :=
  let n := t.cur.portSlots p
  let t := t.when (t.g 0x4010 p 0x02 == 1 && t.cur.portState p < 4) (fun t =>
    let t := (t.bridgeDrop 0 n).bridgeDrop 1 n
    t.setMaps { t.cur.maps with bridge := t.cur.maps.bridge.filter (fun e => sigInst (e.1 / 2) != p || sigKind (e.1 / 2) != 1) })
  t.asrcDrop (t.cur.asrcHeld 1 p)

/-- A port is looked at as if enable had just been written (R183, R186): it is QUALIFYING and starts at the next boundary
(assumption 67). The masks written before apply from its first frame placed on the grid (R180). -/
def Tx.portArm (t : Tx s0) (p : Nat) : Tx s0 :=
  let t := (t.portTo p 1).w 0x4010 p 0x02 (t.cur.portDomain p)
  let t := t.portTake p
  let x := t.cur.port p
  t.setPort p { x with startAt := some (nextBlock t.cur.now), latched := x.waits.length }

/-- Ports in HELD are looked at again (R186). -/
def Tx.portsLook (t : Tx s0) : Tx s0 :=
  t.each (List.range 32) (fun t p =>
    if t.cur.portState p == 4 && (t.cur.port p).startAt.isNone && t.cur.portFits p then t.portArm p else t)

/-- Own media time of Domain A media time a on port p: the bridge places frames at the port's own rate (R174). -/
def State.ownTime (s : State) (p a : Nat) : Nat :=
  if s.portDomain p == 1 then a * s.portRate p / s.fA else a

/-- Domain A media time of own media time u of port p: the sample at its instant or the last before it (assumption 67). -/
def State.domainTime (s : State) (p u : Nat) : Nat :=
  if s.portDomain p == 1 then u * s.fA / s.fB else u

/-- Trace message of an event at the frame of own media time u. -/
def Tx.portEvent (t : Tx s0) (p event u : Nat) : Tx s0 := t.portMsg p event (t.cur.domainTime p u)

/-- Flags of the block in which own media time u lies (R188). -/
def Tx.blkFlag (t : Tx s0) (p u flags : Nat) : Tx s0 :=
  let x := t.cur.port p
  let B := 16 * ceilDiv (t.cur.domainTime p u) 16
  t.setPort p { x with blkFlags := mputD 0 B (setFlags (mget 0 x.blkFlags B) flags) x.blkFlags }

/-- Own media times due for delivery in the period of media time m, oldest first (R172). -/
def State.ownDue (s : State) (p m : Nat) : List Nat :=
  if m < 2 then []
  else
    let a := m - 2
    if s.portDomain p != 1 then [a]
    else if s.fA == 48000 then (if a == 0 then [0] else [2 * a - 1, 2 * a])
    else if a % 2 == 0 then [a / 2] else []

/-- Own sample period of port p, ps / 96000. -/
def State.ownP (s : State) (p : Nat) : Int := (96000 / (if s.portDomain p == 1 then s.fB else s.fA) : Nat) * 10 ^ 12

/-- Samples of the output map for port p's slots in this period. -/
def State.portPresent (s : State) (p : Nat) : List Int :=
  (List.range (s.portSlots p)).map (fun i => mget 0 s.maps.present (16 * p + i))

/-- A frame that port p sends, under its output ramp up: over 64 Domain A samples from its first (R17, R183, R185). -/
def Tx.outRamped (t : Tx s0) (p : Nat) (ws : List Int) : List Int × Tx s0 :=
  let x := t.cur.port p
  match x.outRamp with
  | some (true, a, h) =>
    let i := t.cur.rampStep a
    if 64 ≤ i then (ws, t.setPort p { x with outRamp := none })
    else (ws.map (fun v => rampUp v i), t.setPort p { x with outRamp := some (true, some (t.cur.now - i), h) })
  | _ => (ws, t)

/-- One frame is pushed into the output FIFO, or refused (R176, R177). -/
def Tx.outPush (t : Tx s0) (p u : Nat) (ws : List Int) : Tx s0 :=
  let x := t.cur.port p
  if 32 ≤ x.outFifo.length then
    ((t.tally 0x4010 p 0x11).flagBit 0x4010 p 0x16 4).portEvent p 3 u
  else
    let (ws, t) := t.outRamped p ws
    let x := t.cur.port p
    t.setPort p { x with outFifo := x.outFifo ++ [(u, ws)] }

/-- One bridged frame: phase ph toward 96 kHz, or the decimation. -/
def Tx.bridgeFrame (t : Tx s0) (up : Bool) (ph : Nat) (keys : List Nat) : List Int × Tx s0 :=
  keys.foldl (fun (acc : List Int × Tx s0) k =>
    let (y, t) := acc.2.bridgeOut k up ph
    (acc.1 ++ [y], t)) ([], t)

/-- Bridge history keys of port p's slots. -/
def State.bridgeKeys (s : State) (p dir : Nat) : List Nat :=
  (List.range (s.portSlots p)).map (fun i => sigCode 1 p i * 2 + dir)

/-- The fabric pushes what the output map presents in this period to port p, if the port is in GOOD (R172, R174). -/
def Tx.portPush (t : Tx s0) (p : Nat) : Tx s0 :=
  let s := t.cur
  if s.portState p != 2 then t
  else if s.portOutAsrc p then
    let ws := s.portPresent p
    t.each ((List.range ws.length).zip ws) (fun t w =>
      match t.cur.asrcOf 1 p 1 w.1 with
      | some c => t.asrcPush c (s.mediaInstant s.now) w.2
      | none => t)
  else
    let t := t.setPort p { s.port p with outDepth := (s.port p).outFifo.length }
    let m := s.now
    let ws := s.portPresent p
    if s.portDomain p != 1 then t.outPush p m ws
    else
      let keys := s.bridgeKeys p 1
      let t := t.each (keys.zip ws) (fun t (k, v) => t.bridgePush k v)
      if s.fA == 48000 then
        let (a, t) := t.bridgeFrame true 0 keys
        let (b, t) := t.bridgeFrame true 1 keys
        (t.outPush p (2 * m) a).outPush p (2 * m + 1) b
      else if m % 2 == 0 then
        let (a, t) := t.bridgeFrame false 0 keys
        t.outPush p (m / 2) a
      else t

/-- Last mask of a direction that a list of writes gives. -/
def lastMask (tx : Bool) (l : List (Bool × Nat)) : Option Nat := ((l.filter (fun w => w.1 == tx)).getLast?).map (·.2)

/-- The first n of the mask writes in the shadow come into force at the frame of own media time u (R180, R181). -/
def Tx.latchMasks (t : Tx s0) (p u n : Nat) : Tx s0 :=
  let x := t.cur.port p
  let r := lastMask false (x.waits.take n)
  let m := lastMask true (x.waits.take n)
  let a := t.cur.domainTime p u
  let t := (t.when r.isSome (fun t => t.w 0x4010 p 0x05 a)).when m.isSome (fun t => t.w 0x4010 p 0x06 a)
  t.setPort p { x with rmask := r.getD x.rmask, tmask := m.getD x.tmask, waits := x.waits.drop n, latched := 0,
                       fresh := clearBits (m.getD x.tmask) x.tmask }

/-- Port p enters GOOD with u as the own media time of its first frame (R183, R185). What was latched before takes effect (R180). -/
def Tx.portGood (t : Tx s0) (p u : Nat) : Tx s0 :=
  let slave := !t.cur.portMaster p
  let t := t.when (t.cur.portState p == 3) (fun t => t.flagBit 0x4010 p 0x16 1)
  let t := t.latchMasks p u (t.cur.port p).latched
  let x := t.cur.port p
  let t := t.setPort p { x with
    startAt := none, nextS := some u, popFrom := some u, skips := [], inFifo := [], outFifo := [], txBuf := (0, []),
    sent := [], slip := 0, fresh := 0, gmask := x.rmask, raw := [], slotRamp := [], blk := [],
    inRamp := if slave then some (true, 0, []) else none, outRamp := some (true, none, []) }
  let t := t.portTo p 2
  let g := t.g 0x4000 p 0x0F
  let t := t.when (g < 8) (fun t =>
    let low := (t.cur.goodMembers g).headD 0xFF
    let old := t.g 0x4400 g 0x02
    if low == p && old != p then (t.w 0x4400 g 0x02 p).when (old != 0xFF) (fun t => t.flagBit 0x4400 g 0x07 2) else t)
  t.portPush p

/-- Port p starts (R183): a master drives its clocks, a slave qualifies. -/
def Tx.portBegin (t : Tx s0) (p b : Nat) : Tx s0 :=
  let x := t.cur.port p
  let t := (t.setPort p { x with startAt := none, begun := [], refEdge := none, edges := 0 }).w 0x4010 p 0x14 0
  if t.cur.portMaster p && t.g 0x4600 0 0x01 == 1 then t.portGood p (t.cur.ownTime p b) else t.portTo p 1

/-- Whether R171 lets an entry be written only while the port is disabled. -/
def portConfig (sub : Nat) : Bool := (0x02 ≤ sub && sub ≤ 0x08) || (0x0C ≤ sub && sub ≤ 0x0F)

/-- Own rule of the configuration entries of R171. -/
def portConfigRule (p sub : Nat) (d : Bytes) (t : Tx s0) : Tx s0 :=
  if t.on 0x4000 p 0x01 then t.status stState else t.w 0x4000 p sub (leNat d)

/-- Pending mask writes are discarded: the entries show the masks in force (R183). -/
def Tx.dropMasks (t : Tx s0) (p : Nat) : Tx s0 :=
  let x := t.cur.port p
  let t := t.when (lastMask false x.waits).isSome (fun t => t.w 0x4000 p 0x0A x.rmask)
  let t := t.when (lastMask true x.waits).isSome (fun t => t.w 0x4000 p 0x0B x.tmask)
  t.setPort p { x with waits := [], latched := 0 }

/-- The pins of port p are released, and its FIFOs flushed (R167, R183). What an enable accepted since has asked for stands. -/
def Tx.portRelease (t : Tx s0) (p : Nat) : Tx s0 :=
  let x := t.cur.port p
  (t.setPort p { Port.init with rmask := x.rmask, tmask := x.tmask, waits := x.waits, latched := x.latched,
                                  startAt := x.startAt }).emit (.sapHiz p)

/-- A disabled port gives its channels back, and those in HELD are looked at (R183, R186, R189). -/
def Tx.portDisabled (t : Tx s0) (p : Nat) : Tx s0 := ((t.portDrop p).w 0x4010 p 0x02 0xFF).portsLook

/-- Own rule of 0x4000[p]:01 (R170, R174, R178, R183, R189). -/
def portEnableRule (p : Nat) (d : Bytes) (t : Tx s0) : Tx s0 :=
  let on := leNat d == 1
  let s := t.cur
  if on == s.on 0x4000 p 0x01 then t
  else if on then
    if !s.portLimits p || !s.groupFits p then t.status stOutOfRange
    else if !s.portFits p then t.status stOutOfRange
    else if !s.engines.running then ((t.w 0x4000 p 0x01 1).portTo p 5).w 0x4010 p 0x02 (s.portDomain p)
    else (t.w 0x4000 p 0x01 1).portArm p
  else
    let good := s.portState p == 2
    let t := ((t.w 0x4000 p 0x01 0).dropMasks p).when (4 ≤ s.portState p) (fun t => t.w 0x4010 p 0x02 0xFF)
    let t := t.portTo p 0
    if good then
      let x := t.cur.port p
      let t := t.setPort p { x with closing := true, startAt := none, inRamp := some (false, 0, x.cur), slotRamp := [],
                                    outRamp := some (false, none, x.sent), inFifo := [], outFifo := [], begun := [] }
      t.portDisabled p
    else ((t.setPort p { t.cur.port p with startAt := none }).portRelease p).portDisabled p

/-- PORT_START (R183): at the boundary, once an earlier release has ended. -/
def execPortStart (n : Nat) (s : State) : Host.Outcome State Fault Refusal :=
  run s fun t =>
    match (s.port n).startAt with
    | some b => if s.now < b || (s.port n).closing then t else t.portBegin n (max b (s.now / 16 * 16))
    | none => t

/-- PORT_RELEASE (R183): at the end of the ramp. -/
def execPortRelease (n : Nat) (s : State) : Host.Outcome State Fault Refusal :=
  run s fun t => if (s.port n).closing && (s.port n).inRamp.isNone then t.portRelease n else t

/-- Own rule of 0x4000[p]:0A and :0B (R180). -/
def maskRule (p sub : Nat) (d : Bytes) (t : Tx s0) : Tx s0 :=
  let t := t.w 0x4000 p sub (leNat d)
  let x := t.cur.port p
  t.setPort p { x with waits := x.waits ++ [(sub == 0x0B, leNat d)] }

/-- MASK_WRITE (R180): write of 0x4000[p]:0A or :0B. -/
def execMaskWrite (h n sub : Nat) (d : Bytes) (s : State) : Host.Outcome State Fault Refusal :=
  let sub := if sub == 0x0B then 0x0B else 0x0A
  run s fun t => t.guarded h (opOf 0x4000 n sub d) (maskRule n sub d)

/-! ## Active edges -/

/-- Slot word of a sample (R169), and whether it saturated. -/
def slotWord (width : Nat) (x : Int) : Int × Bool :=
  if width == 16 then satI 16 ((x + 0x80) / 256) else if width == 32 then (x * 256, false) else (x, false)

/-- Bits of a slot in the order sent, most significant first (R168); none is high-Z. -/
def slotBits (width : Nat) (v : Option Int) : List (Option Bool) :=
  (List.range width).map (fun i => v.map (fun x => bit (unsigned width x) (width - 1 - i)))

/-- Sample of a slot's input (R168, R169): of its bits as sampled, the first 24, or 16 with eight zeros. -/
def slotSample (width : Nat) (bits : List Bool) : Int :=
  let v := (List.range width).foldl (fun a i => 2 * a + b2n (bits.getD i false)) 0
  signed 24 (if width == 16 then v * 256 else if width == 32 then v / 256 else v)

/-- BCLK periods from the active edge to a frame's first bit (Table 7.1). -/
def State.dataDelay (s : State) (p : Nat) : Nat :=
  match s.g 0x4000 p 0x02 with
  | 0 => 1
  | 1 => 0
  | _ => s.g 0x4000 p 0x08 % 2

/-- Level of FSYNC that marks the start of slot 0 (Table 7.1, R168). -/
def State.fsyncActive (s : State) (p : Nat) : Bool := (s.g 0x4000 p 0x02 != 0) != bit (s.g 0x4000 p 0x08) 2

/-- FSYNC of a master in BCLK period i of a frame (Table 7.1). -/
def State.fsyncLevel (s : State) (p i : Nat) : Bool :=
  let w := s.g 0x4000 p 0x04
  let slot0 := if s.g 0x4000 p 0x02 == 2 && !bit (s.g 0x4000 p 0x08) 1 then i == 0 else i < w
  slot0 == s.fsyncActive p

/-- Slot values that the frame with samples `f` brings to port p (R168, R169): the edge that samples DIN is the falling one
of BCLK where the invert flag is set. -/
def State.slotsIn (s : State) (p : Nat) (f : FrameIn) : List Int :=
  let w := s.g 0x4000 p 0x04
  let din := if bit (s.g 0x4000 p 0x08) 3 then f.falling else f.rising
  (List.range (s.portSlots p)).map (fun i => slotSample w ((din.drop (s.dataDelay p + i * w)).take w))

/-- The pins of port p during a frame whose slots send `ws` (R167, R168). -/
def State.sapFrame (s : State) (p : Nat) (ws : List (Option Int)) : SapFrame :=
  let w := s.g 0x4000 p 0x04
  let n := s.g 0x4000 p 0x03 * w
  { delay := s.dataDelay p, dout := ws.flatMap (slotBits w),
    fsync := if s.portMaster p then (List.range n).map (s.fsyncLevel p) else [],
    bclk := if s.portMaster p then s.portRate p * n else 0, inverted := bit (s.g 0x4000 p 0x08) 3 }

/-- The frame that begins on port p goes out (R169, R181). -/
def Tx.sendSlots (t : Tx s0) (p : Nat) (ws : List Int) : Tx s0 :=
  let s := t.cur
  let x := s.port p
  let width := s.g 0x4000 p 0x04
  let idle : Option Int := if s.g 0x4000 p 0x09 == 0 then none else some 0
  let out := (List.range (s.g 0x4000 p 0x03)).map (fun i =>
    if s.portSlots p ≤ i || !bit x.tmask i then (idle, false)
    else if bit x.fresh i then (some 0, false)
    else
      let v := slotWord width (nth ws i 0)
      (some v.1, v.2))
  let n := (out.filter (fun o => o.2)).length
  let t := t.when (n != 0) (fun t => (t.inc 0x4010 p 0x13 n).flagBit 0x4010 p 0x16 5)
  (t.emit (.sap p (s.sapFrame p (out.map (fun o => o.1))))).setPort p { t.cur.port p with fresh := 0 }

/-- A pop of the output FIFO at the edge of own media time u returns the idle item (R177). -/
def Tx.outIdle (t : Tx s0) (p u : Nat) : Tx s0 :=
  (((t.setPort p { t.cur.port p with txBuf := (u, []) }).tally 0x4010 p 0x0F).flagBit 0x4010 p 0x16 3).portEvent p 2 u

/-- The transmit buffer takes the frame pushed in the period before own media time u, or the idle item (R172, R177). -/
def Tx.outPop (t : Tx s0) (p u : Nat) (sameCycle : Bool) : Tx s0 :=
  let x := t.cur.port p
  let fifo := x.outFifo.dropWhile (fun f => f.1 + 1 < u)
  match fifo with
  | f :: rest =>
    if f.1 + 1 == u && !(sameCycle && x.outDepth == 0) then t.setPort p { x with outFifo := rest, txBuf := f }
    else (t.setPort p { x with outFifo := fifo }).outIdle p u
  | [] => (t.setPort p { x with outFifo := [] }).outIdle p u

/-- Count a slip of port p at own media time u: 1 a repeat, 2 a drop (R173). -/
def Tx.slipCount (t : Tx s0) (p kind u : Nat) : Tx s0 :=
  let t := t.blkFlag p u 2
  ((t.tally 0x4010 p (0x0B + kind)).flagBit 0x4010 p 0x16 2).portEvent p 1 u

/-- Count a slip of group g at own media time u of its member p, and show the media time of the frame (R179): after a
repeat it is the one that follows. -/
def Tx.groupSlip (t : Tx s0) (p g kind u : Nat) : Tx s0 :=
  if 8 ≤ g then t
  else
    ((t.inc 0x4400 g (0x02 + kind) 1).w 0x4400 g 0x05
      (t.cur.domainTime p (if kind == 1 then u + 1 else u))).flagBit 0x4400 g 0x07 0

/-- System time in ns of an instant given from media time 0 in ps / 96000 (R187, R234). -/
def edgeNs (e : Int) : Nat := (e / 96000000).toNat

/-- Media time and system time in ns of the edge of a block's first frame are recorded (R187), in place of those of a frame that
a slip has moved or dropped. -/
def Tx.stamp (t : Tx s0) (p a ns : Nat) : Tx s0 :=
  let x := t.cur.port p
  let same := match x.stamps with
    | e :: _ => (e.1 + 15) / 16 == (a + 15) / 16
    | [] => false
  let old := if same then x.stamps.drop 1 else x.stamps
  ((t.setPort p { x with stamps := ((a, ns) :: old).take 2 }).w 0x4010 p 0x07 a).w 0x4010 p 0x08 (time80 ns)

/-- Block media time of the frame of own media time u, if that is where a block begins (R187). -/
def State.blockFirst (s : State) (p u : Nat) : Option Nat :=
  if s.portDomain p != 1 then (if u % 16 == 1 then some u else none)
  else if s.fA == 48000 then (if u % 32 == 2 then some (u / 2) else none)
  else (if u % 8 == 1 then some (2 * u - 1) else none)

/-- Media time that port p records of the frame of own media time u, if it is a block's first: it begins the block, or every
media time of the block before it has been skipped by repeat slips (R173, R187; assumption 67). -/
def State.frameFirst (s : State) (p u : Nat) : Option Nat :=
  match s.blockFirst p u with
  | some a => some a
  | none =>
    let skips := (s.port p).skips
    if (List.range 16).any (fun j => j < u && (s.blockFirst p (u - 1 - j)).isSome &&
        (List.range (j + 1)).all (fun i => skips.contains (u - 1 - i)))
    then some (s.domainTime p u) else none

/-- The frame of own media time u, whose edge came at ns, is recorded where it is a block's first (R187). -/
def Tx.stampFrame (t : Tx s0) (p u ns : Nat) : Tx s0 :=
  match if t.cur.portInAsrc p then none else t.cur.frameFirst p u with
  | some a => t.stamp p a ns
  | none => t

/-- The frames of port p that have not been delivered are looked at again after a slip has moved them (R187). -/
def Tx.restamp (t : Tx s0) (p : Nat) : Tx s0 :=
  let x := t.cur.port p
  let t := t.each x.inFifo (fun t f => t.stampFrame p f.time f.at_)
  t.each x.begun (fun t b => match b.time with
    | some u => t.stampFrame p u (edgeNs b.edge)
    | none => t)

/-- The other members of a group follow the leader's slip at the frame of own media time u: at their next edge, or in the
frame already begun where the edge of that frame has passed (R179). -/
def Tx.follow (t : Tx s0) (p g kind u : Nat) : Tx s0 :=
  if 8 ≤ g then t
  else
    t.each ((t.cur.goodMembers g).filter (· != p)) (fun t q =>
      let x := t.cur.port q
      if x.nextS != some (u + 1) then t.setPort q { x with slip := kind }
      else
        let t := t.slipCount q kind u
        let x := t.cur.port q
        let b := x.begun.getLast?.getD ⟨none, 0, false, 0⟩
        if kind == 1 then
          let t := t.setPort q { x with begun := x.begun.dropLast ++ [{ b with time := some (u + 1) }],
                                        nextS := some (u + 2), skips := x.skips ++ [u] }
          (t.restamp q).outPop q (u + 1) false
        else
          t.setPort q { x with begun := x.begun.dropLast ++ [{ b with time := none, drop := true }], nextS := some u,
                               outFifo := x.txBuf :: x.outFifo, txBuf := (u, x.sent) })

/-- The leader of port p's group is settled at an edge of p, and whether p decides slips at it (R178, R179). -/
def Tx.lead_ (t : Tx s0) (p : Nat) : Bool × Tx s0 :=
  let g := t.g 0x4000 p 0x0F
  if 8 ≤ g then (true, t)
  else
    let low := (t.cur.goodMembers g).headD 0xFF
    let old := t.g 0x4400 g 0x02
    if old == p then (true, t)
    else if low == p then (false, (t.w 0x4400 g 0x02 p).when (old != 0xFF) (fun t => t.flagBit 0x4400 g 0x07 2))
    else (false, t)

/-- Compare the edge phase of port p with its leader's (R179). -/
def Tx.skewCheck (t : Tx s0) (p : Nat) : Tx s0 :=
  let g := t.g 0x4000 p 0x0F
  if 8 ≤ g then t
  else
    let l := t.g 0x4400 g 0x02
    let d := (t.cur.port p).phi - (t.cur.port l).phi
    if l == p then t.wi 0x4400 g 0x06 (divRne (t.cur.port p).phi 96000000)
    else if l < 32 && t.cur.portState l == 2 && t.cur.ownP p < 4 * d.natAbs then
      (t.flagBit 0x4010 p 0x16 7).flagBit 0x4400 g 0x07 1
    else t

/-- Instant of an edge so many ps after the instant of this period, from media time 0, in ps / 96000. -/
def State.edgeAt (s : State) (phase : Int) : Int := (s.now * (96000 / s.fA) * 10 ^ 12 : Nat) + phase * 96000

/-- Frame rate over the last second (0x4010[p]:03). -/
def Tx.rateCheck (t : Tx s0) (p : Nat) (e : Int) : Tx s0 :=
  let x := t.cur.port p
  match x.refEdge with
  | none => t.setPort p { x with refEdge := some e, edges := 0 }
  | some r =>
    if e - r < 96000 * 10 ^ 12 then t.setPort p { x with edges := x.edges + 1 }
    else
      (t.setPort p { x with refEdge := some e, edges := 0 }).w 0x4010 p 0x03
        (F.ofRat false ((x.edges + 1) * 96000 * 10 ^ 12) (e - r).toNat)

/-- Frame that a port sends through ASRC channels (R189): one conversion per slot, for the instant two Domain A samples before its
latest edge (Table 6.13), under the port's ramp. -/
def Tx.asrcFrame (t : Tx s0) (p : Nat) : List Int × Tx s0 :=
  let at_ := (t.cur.port p).edge - t.cur.mediaInstant 2
  let r := (List.range (t.cur.portSlots p)).foldl (fun (acc : List Int × Tx s0) i =>
    match acc.2.cur.asrcOf 1 p 1 i with
    | some c =>
      let (y, t) := acc.2.asrcNext c at_
      (acc.1 ++ [y], t)
    | none => (acc.1 ++ [0], acc.2)) ([], t)
  r.2.outRamped p r.1

/-- Active edge of a port in GOOD whose frames take media times (R172, R173, R179, R180). -/
def Tx.placedEdge (t : Tx s0) (p u inTime : Nat) (sameCycle : Bool) : Tx s0 :=
  let P := t.cur.ownP p
  let g := t.g 0x4000 p 0x0F
  let x := t.cur.port p
  let phi := if t.cur.portMaster p then 0 else x.edge - u * P
  let (decides, t) := t.lead_ p
  let slip := if x.slip != 0 then x.slip
    else if !decides || t.cur.portMaster p then 0
    else if 7 * P < 8 * phi then 1 else if 2 * phi < -P then 2 else 0
  let t := t.when (slip != 0) (fun t => t.slipCount p slip u)
  let t := t.when (slip != 0 && x.slip == 0) (fun t => (t.groupSlip p g slip u).follow p g slip u)
  let v := if slip == 1 then u + 1 else u
  let phi := if slip == 1 then phi - P else phi
  let t := t.latchMasks p v inTime
  let y := t.cur.port p
  let (ws, t) := if t.cur.portOutAsrc p then t.asrcFrame p else (y.txBuf.2, t)
  let b : Begun := ⟨if slip == 2 then none else some v, y.rmask, slip == 2, y.edge⟩
  let t := t.setPort p { y with
    begun := y.begun ++ [b], slip := 0, phi := phi, skips := if slip == 1 then y.skips ++ [u] else y.skips,
    nextS := some (if slip == 2 then u else v + 1), sent := ws }
  let t := (t.wi 0x4010 p 0x04 (divRne phi 96000000)).skewCheck p
  let t := t.sendSlots p ws
  if slip == 2 then t
  else
    let t := t.stampFrame p v (edgeNs b.edge)
    if t.cur.portOutAsrc p then t else t.outPop p v sameCycle

/-- Active edge of a port in GOOD on ASRC channels both ways: its frames take no media time. -/
def Tx.asrcEdge (t : Tx s0) (p inTime : Nat) : Tx s0 :=
  let t := t.latchMasks p t.cur.now inTime
  let (ws, t) := t.asrcFrame p
  let x := t.cur.port p
  let t := t.setPort p { x with begun := x.begun ++ [⟨none, x.rmask, false, x.edge⟩], sent := ws }
  t.sendSlots p ws

/-- FSYNC_ACTIVE_EDGE (R172): an edge of FSYNC on port n, so many ps after the instant of the period. On a slave the edge
to the other level is not the active one, and nothing happens (R168). -/
def execFsyncActiveEdge (n : Nat) (phase : Int) (level : Bool) (inTime : Nat) (sameCycle : Bool) (s : State) :
    Host.Outcome State Fault Refusal :=
  run s fun t =>
    let x := s.port n
    let st := s.portState n
    let e := if s.portMaster n && !s.portOnAsrc n then ((s.ownP n * (x.nextS.getD 0) : Int)) else s.edgeAt phase
    if !s.portMaster n && level != s.fsyncActive n then t
    else if x.closing then
      match x.outRamp with
      | some (false, a, h) =>
        let i := min 63 (s.rampStep a)
        let t := t.setPort n { x with outRamp := some (false, a.or (some s.now), h) }
        t.sendSlots n (h.map (fun v => rampDown v i))
      | _ => t
    else if st == 2 || st == 3 || (st == 1 && x.startAt.isNone) then
      let t := (t.setPort n { x with edge := e }).rateCheck n e
      let x := t.cur.port n
      if st != 2 then t.setPort n { x with begun := x.begun ++ [⟨none, 0, false, e⟩],
                                           latched := max x.latched (min inTime x.waits.length) }
      else if s.portOnAsrc n then t.asrcEdge n inTime
      else
        match x.nextS with
        | some u => t.placedEdge n u inTime sameCycle
        | none => t
    else t

/-! ## Frames received -/

/-- Whether a received frame is good (R184). -/
def State.frameGood (s : State) (p : Nat) (f : FrameIn) : Bool :=
  let d : Int := f.length * s.portRate p - 10 ^ 12
  f.bclks == s.g 0x4000 p 0x03 * s.g 0x4000 p 0x04 && d.natAbs * 1000 ≤ 10 ^ 12

/-- A good frame goes into the input FIFO, or is refused (R175 to R177). -/
def Tx.inPush (t : Tx s0) (p time rmask at_ : Nat) (f : FrameIn) : Tx s0 :=
  let s := t.cur
  let x := s.port p
  let depth := if f.sameCycle then x.inDepth else x.inFifo.length
  if 32 ≤ depth then ((t.tally 0x4010 p 0x10).flagBit 0x4010 p 0x16 4).portEvent p 3 time
  else
    let ws := ((List.range (s.portSlots p)).zip (s.slotsIn p f)).map (fun w => if bit rmask w.1 then w.2 else 0)
    t.setPort p { x with inFifo := x.inFifo ++ [⟨time, rmask, ws, at_⟩] }

/-- A port in QUALIFYING or LOST counts good frames; the 256th puts it in GOOD (R185). The edge that closed it is the first
of the port in GOOD, and it pops the output FIFO (R172, R175, R177; assumption 67). -/
def Tx.qualify (t : Tx s0) (p : Nat) (good : Bool) : Tx s0 :=
  let n := if good then t.g 0x4010 p 0x14 + 1 else 0
  let t := t.w 0x4010 p 0x14 (min n 256)
  if n < 256 || t.cur.portMaster p then t
  else
    let s := t.cur
    let x := s.port p
    let P := s.ownP p
    let u := if s.portOnAsrc p then s.now else ((x.edge + P / 8) / P).toNat
    let t := t.portGood p u
    let y := t.cur.port p
    let b := x.begun.getLast?.getD ⟨none, 0, false, 0⟩
    let t := t.setPort p { y with begun := [{ b with time := if s.portOnAsrc p then none else some u, rmask := y.rmask }],
                                  nextS := some (u + 1), phi := x.edge - u * P }
    let t := if s.portOnAsrc p then t else t.wi 0x4010 p 0x04 (divRne (x.edge - u * P) 96000000)
    let t := if s.portOutAsrc p then t else t.outPop p u false
    t.stampFrame p u (edgeNs b.edge)

/-- FRAME_COMPLETE (R175): the oldest frame begun on port n completes once the next active edge has occurred. -/
def execFrameComplete (n : Nat) (f : FrameIn) (s : State) : Host.Outcome State Fault Refusal :=
  run s fun t =>
    let x := s.port n
    match x.begun with
    | b :: c :: rest =>
      let good := s.frameGood n f
      let t := t.setPort n { x with begun := c :: rest }
      let t := if good then t.tally 0x4010 n 0x0A else (t.tally 0x4010 n 0x0B).portMsg n 4 ((b.time.map (s.domainTime n)).getD s.now)
      if s.portState n == 2 then
        if !good then t
        else if s.portInAsrc n then
          let t := t.each ((List.range (s.portSlots n)).zip (s.slotsIn n f)) (fun t w =>
            match t.cur.asrcOf 1 n 0 w.1 with
            | some c => t.asrcPush c b.edge w.2
            | none => t)
          t.when (((x.stamps.headD (0, 0)).1 + 15) / 16 != (s.now + 15) / 16) (fun t => t.stamp n s.now (edgeNs b.edge))
        else if b.drop then t
        else
          match b.time with
          | some u => t.inPush n u b.rmask (edgeNs b.edge) f
          | none => t
      else if s.portState n == 1 || s.portState n == 3 then t.qualify n good
      else t
    | _ => t

/-- PORT_LOST (R184): no BCLK or no active edge for the expected time on slave port n. -/
def execPortLost (n : Nat) (s : State) : Host.Outcome State Fault Refusal :=
  run s fun t =>
    let x := s.port n
    if s.portMaster n then t
    else if s.portState n == 2 then
      let t := ((t.tally 0x4010 n 0x12).flagBit 0x4010 n 0x16 0).w 0x4010 n 0x14 0
      let t := t.setPort n { x with begun := [], nextS := none, popFrom := none, inFifo := [], outFifo := [], slip := 0,
                                    inRamp := some (false, 0, x.cur), outRamp := none, slotRamp := [], refEdge := none }
      let t := ((t.blkFlag n (s.ownTime n s.now) 4).portTo n 3).freezeOn 2
      t.each (t.cur.asrcHeld 1 n) (fun t c => (t.w 0x4510 c 0x06 0).asrcQuiet c) |>.asrcShow
    else if s.portState n == 1 || s.portState n == 3 then (t.setPort n { x with begun := [] }).w 0x4010 n 0x14 0
    else t

/-! ## Delivery -/

/-- The slots that a mask leaves out ramp down from what they held; those it takes in are good (R182). -/
def Port.gate (x : Port) (rmask : Nat) (held : List Int) : Port :=
  let off := (List.range 16).filter (fun i => bit x.gmask i && !bit rmask i)
  { x with gmask := rmask, slotRamp := x.slotRamp.filter (fun r => !bit rmask r.1) ++ off.map (fun i => (i, 0, nth held i 0)) }

/-- A pop of the input FIFO for own media time u returns the idle item: the last frame stands (R177). -/
def Tx.inIdle (t : Tx s0) (p u : Nat) : Tx s0 :=
  (((t.blkFlag p u 1).tally 0x4010 p 0x0E).flagBit 0x4010 p 0x16 3).portEvent p 2 u

/-- One pop of the input FIFO for own media time u (R172, R173, R177). -/
def Tx.inPop (t : Tx s0) (p u : Nat) : Tx s0 :=
  let x := t.cur.port p
  if u < x.popFrom.getD (u + 1) then t
  else if x.skips.contains u then t.setPort p { x with skips := x.skips.filter (· != u) }
  else
    let fifo := x.inFifo.dropWhile (fun f => f.time < u)
    match fifo with
    | f :: rest =>
      if f.time == u then t.setPort p { x.gate f.rmask x.raw with inFifo := rest, raw := f.words }
      else (t.setPort p { x with inFifo := fifo }).inIdle p u
    | [] => (t.setPort p { x with inFifo := [] }).inIdle p u

/-- A group one of whose members has an empty FIFO at a pop repeats as a whole (R179): nothing is popped, and every frame
takes the media time after its own. -/
def Tx.groupRepeat (t : Tx s0) (p g u : Nat) : Tx s0 :=
  let t := t.groupSlip p g 1 u
  t.each (t.cur.goodMembers g) (fun t p =>
    let t := t.slipCount p 1 u
    let x := t.cur.port p
    (t.setPort p { x with skips := x.skips ++ [u], nextS := x.nextS.map (· + 1),
                          begun := x.begun.map (fun b => { b with time := b.time.map (· + 1) }),
                          inFifo := x.inFifo.map (fun f => { f with time := f.time + 1 }) }).restamp p)

/-- Look for empty members of the groups before the pops of the period of media time m. -/
def Tx.groupChecks (t : Tx s0) (m : Nat) : Tx s0 :=
  t.each (List.range 8) (fun t g =>
    let ms := t.cur.goodMembers g
    match ms with
    | [] => t
    | p :: _ =>
      t.each (t.cur.ownDue p m) (fun t u =>
        if ms.any (fun q =>
            let x := t.cur.port q
            x.inFifo.isEmpty && x.popFrom.getD (u + 1) ≤ u && !x.skips.contains u) then t.groupRepeat p g u
        else t))

/-- What the slots of port p present before its ramp: captured samples, the ramp of a masked slot, the bridge's or the
ASRC channel's output (R162, R182, R190). -/
def Tx.slotValues (t : Tx s0) (p : Nat) (ys : List Int) : List Int × Tx s0 :=
  let x := t.cur.port p
  (List.range (t.cur.portSlots p)).foldl (fun (acc : List Int × Tx s0) i =>
    let t := acc.2
    if bit x.gmask i then
      match if t.on 0x4000 p 0x0D then t.cur.asrcOf 1 p 0 i else none with
      | some c =>
        let (y, t) := t.asrcNext c (t.cur.mediaInstant ((t.cur.now : Int) - 2))
        (acc.1 ++ [y], t)
      | none => (acc.1 ++ [nth ys i 0], t)
    else
      match x.slotRamp.find? (fun r => r.1 == i) with
      | some (_, k, h) => (acc.1 ++ [rampDown h k], t)
      | none => (acc.1 ++ [0], t)) ([], t)

/-- Header of the port image (Table 7.7). -/
def imageHeader (a ns slots packing mask flags : Nat) : Bytes :=
  leBytes 8 a ++ leBytes 10 (time80 ns) ++ leBytes 1 slots ++ leBytes 1 packing ++ leBytes 2 mask ++ leBytes 1 flags ++ zeros 9

/-- A delivered frame joins the block under way, masked slots as zero; the block of the boundary it ends at becomes the port
image (R188). -/
def Tx.blockFrame (t : Tx s0) (p a : Nat) (ws : List Int) : Tx s0 :=
  let x := t.cur.port p
  let x := if a % 16 == 1 then { x with blk := [], blkMask := x.gmask } else x
  let ws := ((List.range ws.length).zip ws).map (fun w => if bit x.gmask w.1 then w.2 else 0)
  let flags := mget 0 x.blkFlags a
  let x := { x with blk := (x.blk ++ [ws]).take 16, blkFlags := x.blkFlags.filter (fun b => a < b.1) }
  let t := t.setPort p x
  if a % 16 != 0 || x.blk.length != 16 then t
  else
    let st := (x.stamps.find? (fun e => (e.1 + 15) / 16 == a / 16)).getD (a - 15, (x.stamps.headD (0, 0)).2)
    let pk := t.g 0x4000 p 0x0C
    let n := if pk == 0 then 3 else 4
    t.wb 0x4010 p 0x09 (imageHeader st.1 st.2 (t.cur.portSlots p) pk x.blkMask flags ++
      x.blk.flatMap (fun f => f.flatMap (fun v => leBytes n (unsigned (8 * n) v))))

/-- A captured sample set enters the bridge histories of port p toward Domain A. -/
def Tx.bridgeIn (t : Tx s0) (p : Nat) : Tx s0 :=
  t.each ((t.cur.bridgeKeys p 0).zip (t.cur.port p).raw) (fun t (k, v) => t.bridgePush k v)

/-- Captured samples of port p on the Domain A grid after the pops of this period. -/
def Tx.onGrid (t : Tx s0) (p m : Nat) : List Int × Tx s0 :=
  if t.cur.portDomain p != 1 then ((t.cur.port p).raw, t)
  else if t.cur.fA == 48000 then t.bridgeFrame false 0 (t.cur.bridgeKeys p 0)
  else t.bridgeFrame true (m % 2) (t.cur.bridgeKeys p 0)

/-- Start of the period of media time m on port p: pops, masks and ramps; the samples presented for media time m − 2. -/
def Tx.portDeliver (t : Tx s0) (p m : Nat) : Tx s0 :=
  let st := t.cur.portState p
  let x := t.cur.port p
  if st == 2 then
    let t := t.setPort p { x with inDepth := x.inFifo.length }
    let due := t.cur.ownDue p m
    let t := t.each due (fun t u =>
      let t := if t.cur.portInAsrc p then t.setPort p ((t.cur.port p).gate (t.cur.port p).rmask (t.cur.port p).cur)
        else t.inPop p u
      t.when (t.cur.portDomain p == 1) (fun t => t.bridgeIn p))
    let started := due.all (fun u => x.popFrom.getD (u + 1) ≤ u)
    let (ys, t) := t.onGrid p m
    let (ws, t) := t.slotValues p ys
    let y := t.cur.port p
    let cur := match y.inRamp with
      | some (true, i, _) => ws.map (fun v => rampUp v i)
      | _ => ws
    let ramp := match y.inRamp with
      | some (true, i, h) => if !started then y.inRamp else if i < 63 then some (true, i + 1, h) else none
      | r => r
    let t := t.setPort p { y with
      cur := cur, inRamp := ramp,
      slotRamp := (y.slotRamp.filter (fun r => r.2.1 < 63)).map (fun r => (r.1, r.2.1 + 1, r.2.2)) }
    if m < 2 || !started then t else t.blockFrame p (m - 2) ws
  else
    match x.inRamp with
    | some (false, i, h) =>
      t.setPort p { x with cur := h.map (fun v => rampDown v i), inRamp := if i < 63 then some (false, i + 1, h) else none }
    | _ => if x.cur.isEmpty then t else t.setPort p { x with cur := [] }

/-- Start of the period of media time m on every port. -/
def Tx.portsDeliver (t : Tx s0) (m : Nat) : Tx s0 :=
  (t.groupChecks m).each (t.cur.serial.ports.map (·.1)) (fun t p => t.portDeliver p m)

/-- Whether the signal of slot i of port p is good (R144, R182, R183, R186, R190). -/
def State.slotGood (s : State) (p i : Nat) : Bool :=
  let x := s.port p
  s.portState p == 2 && i < s.portSlots p && bit x.gmask i &&
  (match if s.portDomain p == 2 && s.on 0x4000 p 0x0D then some (s.asrcOf 1 p 0 i) else none with
   | some (some c) => s.on 0x4510 c 0x06
   | some none => false
   | none => true)

/-- Sample that slot i of port p presents in this period. -/
def State.slotValue (s : State) (p i : Nat) : Int := nth (s.port p).cur i 0

/-- Component of port p in samples, of its input (`sub` 0x0D) or output (0x0E) direction (Table 6.13). -/
def State.portLatency (s : State) (p sub : Nat) : Nat :=
  match s.portDomain p with
  | 0 => 2
  | 1 => 2 + s.kB
  | _ => if s.on 0x4000 p sub then 66 else 2

/-! ## Stop and restart of the engines (R186) -/

/-- Every enabled port stops; the others are released. -/
def Tx.portsStop (t : Tx s0) : Tx s0 :=
  t.each (List.range 32) (fun t p =>
    let on := t.on 0x4000 p 0x01
    let x := t.cur.port p
    if !on && !x.closing then t
    else
      let t := (t.portDrop p).portTo p (if on then 5 else 0)
      let t := t.setPort p { Port.init with rmask := x.rmask, tmask := x.tmask, waits := x.waits, latched := x.latched }
      if on then t else (t.w 0x4010 p 0x02 0xFF).emit (.sapHiz p)) |>.each (List.range 8) (fun t g => t.w 0x4400 g 0x02 0xFF)

/-- The masks that a port shows are in force (R180). -/
def Tx.portsInit (t : Tx s0) : Tx s0 :=
  t.each (nub (t.cur.listed 0x4000 0x0A ++ t.cur.listed 0x4000 0x0B)) (fun t p =>
    t.setPort p { t.cur.port p with rmask := t.g 0x4000 p 0x0A, tmask := t.g 0x4000 p 0x0B })

/-- At the restart t_r channels are given out again in ascending port number. -/
def Tx.portsRestart (t : Tx s0) : Tx s0 :=
  t.each (List.range 32) (fun t p =>
    if t.cur.portState p != 5 then t
    else
      let t := t.w 0x4010 p 0x02 (t.cur.portDomain p)
      if t.cur.portFits p then (t.portTake p).portBegin p t.cur.now else t.portTo p 4)

/-! ## ASRC lock, audio PLL and word clocks -/

/-- Whether the owner of ASRC channel c runs: a port in GOOD, a stream in RECEIVING or SENDING. -/
def State.asrcRuns (s : State) (c : Nat) : Bool :=
  let inst := s.g 0x4510 c 0x02
  if s.g 0x4510 c 0x01 == 1 then s.portState inst == 2
  else if s.g 0x4510 c 0x04 == 0 then s.g 0x4A00 inst 0x12 == 2 else s.g 0x4C00 inst 0x14 == 2

/-- Channels that share the ratio estimator of ASRC channel c (R189): those of its port, and of its stream in its
direction. -/
def State.asrcShared (s : State) (c : Nat) : List Nat :=
  (s.asrcHeld (s.g 0x4510 c 0x01) (s.g 0x4510 c 0x02)).filter (fun d =>
    s.g 0x4510 c 0x01 == 1 || s.g 0x4510 d 0x04 == s.g 0x4510 c 0x04)

/-- An ASRC channel starts a ramp, up or down from a value. -/
def Tx.asrcRampTo (t : Tx s0) (c : Nat) (up : Bool) (held : Int) : Tx s0 :=
  let t := t.asrcQuiet c
  t.setSerial { t.cur.serial with asrcRamp := (c, up, none, held) :: t.cur.serial.asrcRamp }

/-- ASRC_LOCK (R190): channel n and all that share its estimator lock at a rate that departs from nominal by so many ppm. -/
def execAsrcLock (n : Nat) (ppm : Int) (s : State) : Host.Outcome State Fault Refusal :=
  run s fun t =>
    if s.g 0x4510 n 0x01 == 0 || s.on 0x4510 n 0x06 || !s.asrcRuns n then t
    else
      let ratio := F.ofRat false (s.asrcRate n * (1000000 + ppm).toNat) (s.fA * 1000000)
      (t.each (s.asrcShared n) (fun t c =>
        if t.on 0x4510 c 0x06 then t else ((t.w 0x4510 c 0x06 1).w 0x4510 c 0x05 ratio).asrcRampTo c true 0)).asrcShow

/-- ASRC_RELOCK (R190): the source departs from the rate at lock by more than the tracking range; one relock of the
estimator is counted for all channels that share it (assumption 67). -/
def execAsrcRelock (n : Nat) (ppm : Int) (s : State) : Host.Outcome State Fault Refusal :=
  run s fun t =>
    if !s.on 0x4510 n 0x06 || ppm.natAbs ≤ 1000 then t
    else
      let t := (t.tally 0x4500 0 0x03).flagBit 0x4500 0 0x05 1
      (t.each (s.asrcShared n) (fun t c =>
        if t.on 0x4510 c 0x06 then (t.w 0x4510 c 0x06 0).asrcRampTo c false (mget 0 s.serial.asrcLast c) else t)).asrcShow

/-- PLL_LOCK (R191): the phase error has stayed within 20 ns for 4,800 comparisons; master ports that wait start. -/
def execPllLock (phase : Int) (s : State) : Host.Outcome State Fault Refusal :=
  run s fun t =>
    if s.g 0x4600 0 0x01 == 1 || 20000 < phase.natAbs then t
    else
      let t := (t.w 0x4600 0 0x01 1).wi 0x4600 0 0x02 (divRne phase 1000)
      t.each (List.range 32) (fun t p =>
        if s.portMaster p && s.portState p == 1 && (s.port p).startAt.isNone then t.portGood p (s.ownTime p (s.now + 1)) else t)

/-- PLL_UNLOCK (R191): a phase error beyond 200 ns. -/
def execPllUnlock (phase : Int) (s : State) : Host.Outcome State Fault Refusal :=
  run s fun t =>
    if s.g 0x4600 0 0x01 != 1 || phase.natAbs ≤ 200000 then t
    else
      let t := (t.w 0x4600 0 0x01 0).wi 0x4600 0 0x02 (divRne phase 1000)
      (t.tally 0x4600 0 0x03).flagBit 0x4600 0 0x0B 0

/-- WCLK_IN_LOST (R193): no rising edge for two expected periods. -/
def execWclkInLost (s : State) : Host.Outcome State Fault Refusal :=
  run s fun t =>
    if s.g 0x4600 0 0x07 == 0 then t
    else
      let t := ((t.w 0x4600 0 0x07 0).tally 0x4600 0 0x0A).flagBit 0x4600 0 0x0B 1
      t.setSerial { t.cur.serial with wcRef := none }

/-- WCLK_IN_EDGE (R193): a rising edge; `period` is the mean period over the last second in fs, `phase` the edge's time
from the nearest media-time instant in ps. -/
def execWclkInEdge (period : Nat) (phase : Int) (s : State) : Host.Outcome State Fault Refusal :=
  run s fun t =>
    let t := (t.w 0x4600 0 0x08 (F.ofRat false (10 ^ 15) (max period 1))).wi 0x4600 0 0x09 (divRne phase 1000)
    let set := fun (t : Tx s) => t.setSerial { t.cur.serial with wcRef := some (s.now, phase) }
    let d : Int := period * s.g 0x4600 0 0x06 - 10 ^ 15
    match s.serial.wcRef with
    | none => set (t.w 0x4600 0 0x07 1)
    | some (a, ref) =>
      let moved := (phase - ref).natAbs
      if s.now < a + s.fA then (if moved < 10000 then t else t.w 0x4600 0 0x07 1)
      else set (t.w 0x4600 0 0x07 (if d.natAbs * 10000000 ≤ 10 ^ 15 && moved < 10000 then 2 else 1))

/-- WCLK_OUT in the period of media time m (R192): high for half a sample in mode 1, for one sample in mode 2. Its mode and
offset change only at a boundary. -/
def Tx.wclkOut (t : Tx s0) (m : Nat) : Tx s0 :=
  let x := t.cur.serial
  let t := if m % 16 != 0 || (x.wcMode == t.g 0x4600 0 0x04 && x.wcOffset == t.g 0x4600 0 0x05) then t
    else
      (t.setSerial { x with wcMode := t.g 0x4600 0 0x04, wcOffset := t.g 0x4600 0 0x05 }).when
        (t.g 0x4600 0 0x04 == 0) (fun t => t.emit (.pin "WCLK_OUT" 0))
  let x := t.cur.serial
  let P := 96000 / t.cur.fA * 10 ^ 12
  t.when (x.wcMode == 1 || (x.wcMode == 2 && m % 16 == 0)) (fun t =>
    t.emit (.pulse "WCLK_OUT" (x.wcOffset * 96000000) (if x.wcMode == 1 then P / 2 else P)))

end Sys2Proof.Machine
end

