-- ==== Sys2Proof/Machine/Mics.lean ====
section
/-! DEFINITION. Measurement microphones (R298 to R306): clocks, decimators, states and compensation filters. -/

namespace Sys2Proof.Machine
open Sys2Proof

variable {s0 : State}

/-! ## State -/

/-- Microphone m beside its entries. -/
def State.mic (s : State) (m : Nat) : Mic := mget Mic.init s.meas.mics m
def Tx.setMic (t : Tx s0) (m : Nat) (x : Mic) : Tx s0 :=
  t.setMeas { t.cur.meas with mics := mputD Mic.init m x t.cur.meas.mics }

/-- State of microphone m (Table 11.3). -/
def State.micState (s : State) (m : Nat) : Nat := s.g 0x5C10 m 0x0A

/-- Whether the signal of microphone m is good, and its sample (R303). -/
def State.micGood (s : State) (m : Nat) : Bool := s.micState m == 2
def State.micValue (s : State) (m : Nat) : Int := (s.mic m).out

/-- Input component of a microphone (R302). -/
def micLatency : Nat := 34

/-- The PDM rate does not fit the Domain A rate (R299). -/
def State.micsHeld (s : State) : Bool := s.fA == 96000 && s.g 0x5C00 0 0x01 == 3072000

/-- Captures of microphone m that are under way are spoiled (R311). -/
def Tx.spoil (t : Tx s0) (m : Nat) : Tx s0 :=
  match t.cur.meas.run with
  | none => t
  | some r =>
    let caps := r.caps.map (fun c =>
      if t.cur.now ≤ c.at_ + r.stim.M + r.stim.gap then
        { c with mics := c.mics.map (fun x => if x.mic == m then { x with spoiled := true } else x) }
      else c)
    t.setMeas { t.cur.meas with run := some { r with caps := caps } }

/-- Microphone m takes a state; one that leaves RUN spoils its capture. -/
def Tx.micTo (t : Tx s0) (m st : Nat) : Tx s0 :=
  let t := t.when (t.cur.micState m == 2 && st != 2) (fun t => t.spoil m)
  t.w 0x5C10 m 0x0A st

/-! ## Decimator (R300, R301) -/

/-- A decimator as a reset leaves it: every filter is empty. -/
def Mic.cleared (x : Mic) : Mic :=
  { x with integ := [0, 0, 0, 0, 0], comb := [0, 0, 0, 0, 0], h2 := [], h3 := [], h5 := [], hp := (0, 0), x6 := [],
           pipe := [], same := 0, seen := 0, changed := false, alive := false, bits := 0, ones := 0, ramp := none, out := 0 }

/-- The decimator of microphone m resets at B and settles. -/
def Tx.micReset (t : Tx s0) (m B : Nat) : Tx s0 :=
  let x := t.cur.mic m
  (t.setMic m { x.cleared with resetDue := none, resetAt := B, back := t.cur.micState m == 3 || x.back }).micTo m 1

/-- One bit enters the integrators of stage 1. -/
def cicBit (integ : List Int) (b : Bool) : List Int :=
  (integ.foldl (fun (a : List Int × Int) v => (a.1 ++ [v + a.2], v + a.2)) ([], if b then 1 else -1)).1

/-- One result of the integrators passes the comb sections: the delays after it, and the result of stage 1. -/
def cicComb (comb : List Int) (v : Int) : List Int × Int :=
  comb.foldl (fun (a : List Int × Int) d => (a.1 ++ [a.2], a.2 - d)) ([], v)

/-- Coefficient i of stage k at ratio R. -/
def decimCoef (R k i : Nat) : F32 := Config.decimTap R k i % 2 ^ 32

/-- Taps of stages 2, 3 and 5: stages 2 and 3 are symmetric, and stage 3 is a half-band filter. -/
def stage2Taps (R : Nat) : List F32 := (List.range 63).map (fun i => decimCoef R 2 (min i (62 - i)))
def stage3Taps (R : Nat) : List F32 :=
  (List.range 79).map (fun i =>
    if i == 39 then 0x3F000000 else if (i + 39) % 2 == 0 then 0 else decimCoef R 3 (min i (78 - i)))

/-- Group delay of stage 5 (Table 11.2): what stages 1 to 3 lack of 32 samples. -/
def stage5Delay (R : Nat) : F32 := F.ofRat false (32 * 2 * R - 5 * (R / 4 - 1) - 2 * R * 31 / 4 - 39 * R) (2 * R)

/-- Taps of stage 5: six are free, and the last two give it a gain of 1 and its group delay. -/
def stage5Taps (R : Nat) : List F32 :=
  let h := (List.range 6).map (decimCoef R 5)
  let p := F.sub F.one (F.sum h)
  let q := F.sub (stage5Delay R) (F.sum ((List.range 6).map (fun i => F.mul (F.ofNat i) (nth h i 0))))
  h ++ [F.sub (F.mul (F.ofNat 7) p) q, F.sub q (F.mul (F.ofNat 6) p)]

/-- Coefficients of stage 6, of the input's difference and of the last output: the first-order high pass that passes half
the power at 8.0 Hz and all of it at half the rate (assumption 23). -/
def stage6Coef (fA : Nat) : F32 × F32 :=
  let a := X.pi * 8 / fA
  let k := X.div (X.sin a) (X.cos a)
  (X.toF (X.div X.one (X.one + k)), X.toF (X.div (X.one - k) (X.one + k)))

/-- A filter sum over a history, newest first, by fused steps from tap 0 (assumption 23). -/
def firSum (taps hist : List F32) : F32 := (taps.zip hist).foldl (fun acc p => F.fma p.1 p.2 acc) 0

/-- One result of stage 1 enters stages 2 and 3; `odd` marks the second of a pair, at which stage 2 has a result. -/
def stage23 (R : Nat) (x : Mic) (odd : Bool) (v : Int) : Mic :=
  let x := { x with h2 := (F.ofInt v :: x.h2).take 63 }
  if odd then { x with h3 := (firSum (stage2Taps R) x.h2 :: x.h3).take 79 } else x

/-- The R bits of one period at rate fA pass the decimator: its four results of stage 1 give two of stage 2 and one of the
others (Table 11.2). -/
def Mic.decimate (x : Mic) (R fA : Nat) (bs : List Bool) : Mic :=
  let D := R / 4
  let x := (List.range 4).foldl (fun (x : Mic) q =>
    let integ := ((bs.drop (q * D)).take D).foldl cicBit x.integ
    let r := cicComb x.comb (integ.getLastD 0)
    stage23 R { x with integ := integ, comb := r.1 } (q % 2 == 1) r.2) x
  let v := F.mul (firSum (stage3Taps R) x.h3) (F.ofRat false 1 (D ^ 5))
  let h5 := (v :: x.h5).take 8
  let u := firSum (stage5Taps R) h5
  let (b, a) := stage6Coef fA
  let y := F.add (F.mul a x.hp.2) (F.mul b (F.sub u x.hp.1))
  { x with h5 := h5, hp := (u, y), x6 := (y :: x.x6).take 256 }

/-- Counting of the bits (R303): alike in succession, windows of 2,048 bits, and density. -/
def Mic.countBit (x : Mic) (b : Bool) : Mic :=
  let alike := b == x.lastBit
  let x := { x with lastBit := b, same := if alike then min 2048 (x.same + 1) else 1, bits := x.bits + 1,
                    ones := x.ones + b2n b, seen := x.seen + 1, changed := x.changed || !alike }
  if x.seen < 2048 then x else { x with seen := 0, changed := false, alive := x.alive || x.changed }

/-- Bits of microphone m in a period from the levels of its lane: an even microphone is sampled at the rising edges, an odd
one at the falling edges (R298). There are R of them; a clock that is driven low brings none, and a lane that shows fewer
keeps its level. -/
def State.micBits (s : State) (m R : Nat) (pdm : List (Nat × List (Bool × Bool))) : List Bool :=
  let bs := (mget [] pdm (m / 2)).map (fun e => if m % 2 == 0 then e.1 else e.2)
  if bit (s.g 0x5C00 0 0x02) (m / 4) then (bs ++ List.replicate R (bs.getLastD false)).take R else List.replicate R false

/-! ## Compensation (R304, R305) -/

/-- Taps of a compensation entry. -/
def compTaps (d : Bytes) : List F32 := (List.range (fieldLE d 0 4)).map (fun i => fieldLE d (4 + 4 * i) 4)

/-- Whether a compensation entry has the length that its count names, and a count and taps in range (R304). -/
def compFits (d : Bytes) : Bool := d.length == 4 + 4 * fieldLE d 0 4
def compInRange (d : Bytes) : Bool :=
  1 ≤ fieldLE d 0 4 && fieldLE d 0 4 ≤ 256 && (compTaps d).all tapOk
def compOk (d : Bytes) : Bool := compFits d && compInRange d

/-- Own rule of 0x5C10[m]:07 (R304, R305). Data longer than the entry's range are of a wrong type (R413). -/
def compRule (m : Nat) (d : Bytes) (t : Tx s0) : Tx s0 :=
  if !compFits d || 1028 < d.length then t.status stBadType
  else if !compInRange d then t.status stOutOfRange
  else
    let x := t.cur.mic m
    let t := (t.wb 0x5C10 m 0x07 d).when x.pend.isSome (fun t => t.flagBit 0x5C10 m 0x10 3)
    let t := t.setMic m { x with pend := some (nextBlock t.cur.now, compTaps d) }
    t.when x.sw.isNone (fun t => t.w 0x5C10 m 0x0B 1)

/-- COMPENSATION_WRITE (R305): write of 0x5C10[n]:07. -/
def execCompensationWrite (h n : Nat) (d : Bytes) (s : State) : Host.Outcome State Fault Refusal :=
  run s fun t => t.guarded h (opOf 0x5C10 n 0x07 d) (compRule n d)

/-- COMPENSATION_SWITCH (R305): at a boundary at which no switch runs the pending filter starts its warm-up. -/
def execCompensationSwitch (n : Nat) (s : State) : Host.Outcome State Fault Refusal :=
  run s fun t =>
    let x := s.mic n
    match x.sw, x.pend with
    | none, some (B, taps) =>
      if s.now < B || s.now % 16 != 0 then t
      else
        (t.setMic n { x with pend := none, sw := some ⟨s.now, taps, 2 ^ s.g 0x5C10 n 0x09, s.g 0x5C10 n 0x08⟩ }).w 0x5C10
          n 0x0B 2
    | _, _ => t

/-- Result of the compensation in period u, with the switch under way (R305). -/
def Mic.compensated (x : Mic) (u : Nat) : F32 :=
  let ya := firSum x.taps x.x6
  match x.sw with
  | some w =>
    if u < w.start + w.taps.length then ya
    else graftFade ⟨0, 0, w.start, w.taps.length, w.len, w.law⟩ u ya (firSum w.taps x.x6)
  | none => ya

/-- The switch of microphone m goes on: it begins its fade, or ends. -/
def Tx.compStep (t : Tx s0) (m u : Nat) : Tx s0 :=
  let x := t.cur.mic m
  match x.sw with
  | some w =>
    let f := w.start + w.taps.length
    if f + w.len ≤ u + 1 then
      (t.setMic m { x with taps := w.taps, sw := none }).w 0x5C10 m 0x0B (b2n x.pend.isSome)
    else if f ≤ u then t.w 0x5C10 m 0x0B 3
    else t
  | none => t

/-! ## Periods -/

/-- A binary32 result rounded to Q1.23 and saturated (R301). -/
def toQ23 (y : F32) : Int :=
  if F.isInf y then (if F.isNeg y then -8388608 else 8388607) else (satI 24 (F.toIntRne y 23)).1

/-- Level in dB SPL of a mean square over n samples (R306; assumption 27). -/
def levelSpl (sum n : Nat) (sens : F32) : F32 :=
  let d := if sum == 0 then minus144 else X.toF (X.div (10 * X.lnRat sum (max 1 n * 2 ^ 46)) X.ln10)
  F.sub (F.add d 0x42BC0000) sens

/-- The end of a render block for microphone m, whatever its state: the level is that of the last 100 ms (R303, R306). -/
def Tx.micBlock (t : Tx s0) (m : Nat) : Tx s0 :=
  let x := t.cur.mic m
  let n := t.cur.fA / 160
  let win := (x.sq :: x.win).take n
  let t := t.setMic m { x with bits := 0, ones := 0, peak := 0, sq := 0, win := if win.all (· == 0) then [] else win }
  let t := t.w 0x5C10 m 0x0D (levelDb x.peak (2 ^ 23))
  let t := t.w 0x5C10 m 0x0C (levelSpl (sumN win) (16 * n) (t.g 0x5C10 m 0x06))
  if 95 * x.bits < 100 * x.ones || 100 * x.ones < 5 * x.bits then
    let t := (t.tally 0x5C10 m 0x0E).flagBit 0x5C10 m 0x10 2
    match t.cur.meas.run with
    | some r =>
      let caps := r.caps.map (fun c =>
        if r.stim.ref == m && c.at_ < t.cur.now && t.cur.now < c.at_ + r.stim.M + r.stim.gap + 16 then
          { c with overload := true }
        else c)
      t.setMeas { t.cur.meas with run := some { r with caps := caps } }
    | none => t
  else t

/-- Microphone m at the start of a period, with the lanes of the period before: its sample for this media time is delivered
two samples on (R302). -/
def Tx.micPeriod (t : Tx s0) (m : Nat) (pdm : List (Nat × List (Bool × Bool))) : Tx s0 :=
  let u := t.cur.now
  let st := t.cur.micState m
  let R := t.cur.meas.rate / t.cur.fA
  let x := t.cur.mic m
  let x := if st == 1 || st == 2 || st == 3 then
      let b := t.cur.micBits m R pdm
      (b.foldl Mic.countBit x).decimate R t.cur.fA b
    else x
  let v := nth x.pipe 1 0
  let (out, ramp) := match st, x.ramp with
    | 2, some (true, i, h) => (rampUp v i, if i < 63 then some (true, i + 1, h) else none)
    | 2, _ => (v, none)
    | 3, some (false, i, h) => (rampDown h i, if i < 63 then some (false, i + 1, h) else none)
    | _, _ => (0, none)
  let pipe := if st == 0 || st == 4 then [] else (toQ23 (x.compensated u) :: x.pipe).take 2
  let t := t.setMic m { x with pipe := pipe, out := out, ramp := ramp, peak := max x.peak out.natAbs,
                               sq := x.sq + out.natAbs * out.natAbs }
  let t := (t.compStep m u).when (u % 16 == 0) (fun t => t.micBlock m)
  match (t.cur.mic m).resetDue with
  | some B => if B ≤ u then t.micReset m B else t
  | none => t

/-- Every microphone at the start of a period, while the PDM clocks run. -/
def Tx.micsPeriod (t : Tx s0) (pdm : List (Nat × List (Bool × Bool))) : Tx s0 :=
  if !t.cur.meas.clocked then t
  else t.each (List.range 16) (fun t m =>
    if t.cur.micState m == 0 && t.cur.mic m == Mic.init then t else t.micPeriod m pdm)

/-! ## Clocks (R299) -/

/-- Output pins of the PDM clocks. -/
def pdmClkPins : List String := ["PDM_CLK0", "PDM_CLK1", "PDM_CLK2", "PDM_CLK3"]

/-- The PDM clocks show on their pins: those that are enabled run at the rate in force, the others are driven low. -/
def Tx.pdmClocks (t : Tx s0) : Tx s0 :=
  t.each (List.range 4) (fun t k =>
    let x := t.cur.meas
    t.emit (.clock (nth pdmClkPins k "") (if x.clocked && bit (t.g 0x5C00 0 0x02) k then x.rate else 0)))

/-- Own rule of 0x5C00:02. -/
def pdmClockRule (d : Bytes) (t : Tx s0) : Tx s0 := (t.w 0x5C00 0 0x02 (leNat d)).pdmClocks

/-- The PDM clocks stop (R473). -/
def Tx.micsStop (t : Tx s0) : Tx s0 := (t.setMeas { t.cur.meas with clocked := false }).pdmClocks

/-! ## Resets and states (R299, R300, R303) -/

/-- Every decimator resets at B, and the PDM clocks start in phase (R300). A microphone whose own reset is due by then resets
with them. -/
def Tx.decimReset (t : Tx s0) (B : Nat) : Tx s0 :=
  let t := (t.setMeas { t.cur.meas with resetDue := none, rate := t.g 0x5C00 0 0x01 }).pdmClocks
  let t := ((t.tally 0x5C00 0 0x05).w 0x5C00 0 0x04 B).flagBit 0x5C00 0 0x09 0
  let t := t.when (t.on 0x5C00 0 0x08) (fun t => t.emit (.pulse "PDM_SYNC" 0 (1000000000000 * 96000 / t.cur.meas.rate)))
  t.each (List.range 16) (fun t m =>
    let st := t.cur.micState m
    let waits := match (t.cur.mic m).resetDue with
      | some b => decide (b ≤ B)
      | none => false
    if st == 4 || (st == 0 && !waits) then t else t.micReset m B)

/-- DECIMATOR_RESET (R300): at the boundary of the reset requested. -/
def execDecimatorReset (s : State) : Host.Outcome State Fault Refusal :=
  run s fun t =>
    match s.meas.resetDue with
    | some B => if B ≤ s.now then t.decimReset B else t
    | none => t

/-- Own rule of 0x5C00:01 and :03 (R299, R300). -/
def resyncRule (sub : Nat) (d : Bytes) (t : Tx s0) : Tx s0 :=
  if sub == 0x01 && t.cur.fA == 96000 && leNat d == 3072000 then t.status stOutOfRange
  else
    let t := t.setMeas { t.cur.meas with resetDue := some (nextBlock t.cur.now) }
    if sub != 0x01 then t
    else (t.w 0x5C00 0 0x01 (leNat d)).each (List.range 16) (fun t m => if t.cur.micState m == 4 then t.micTo m 1 else t)

/-- RESYNCHRONISE (R300): write of 0x5C00:01 or :03. -/
def execResynchronise (h sub : Nat) (d : Bytes) (s : State) : Host.Outcome State Fault Refusal :=
  run s fun t =>
    if sub == 0x01 || sub == 0x03 then t.guarded h (opOf 0x5C00 0 sub d) (resyncRule sub d) else t.status stNoEntry

/-- Own rule of 0x5C10[m]:01 (R300, R303). -/
def micEnableRule (m : Nat) (d : Bytes) (t : Tx s0) : Tx s0 :=
  let t := t.w 0x5C10 m 0x01 (leNat d)
  let x := t.cur.mic m
  if leNat d == 0 then (t.setMic m { x.cleared with resetDue := none, back := false }).micTo m 0
  else if t.cur.micState m != 0 then t
  else if t.cur.micsHeld then t.micTo m 4
  else t.setMic m { x with resetDue := some (nextBlock t.cur.now) }

/-- SETTLING_END (R303): 256 samples after its reset a microphone enters RUN. -/
def execSettlingEnd (n : Nat) (s : State) : Host.Outcome State Fault Refusal :=
  run s fun t =>
    let x := s.mic n
    if s.micState n != 1 || !s.meas.clocked || x.resetDue.isSome || s.meas.resetDue.isSome || s.now < x.resetAt + 256 then t
    else
      let t := (t.setMic n { x with ramp := some (true, 0, 0), back := false }).micTo n 2
      t.when x.back (fun t => t.flagBit 0x5C10 n 0x10 1)

/-- NO_DATA (R303): 2,048 consecutive identical bits on a microphone in RUN. -/
def execNoData (n : Nat) (s : State) : Host.Outcome State Fault Refusal :=
  run s fun t =>
    let x := s.mic n
    if s.micState n != 2 || x.same < 2048 then t
    else
      let t := t.setMic n { x with ramp := some (false, 0, x.out), seen := 0, changed := false, alive := false }
      ((t.micTo n 3).tally 0x5C10 n 0x0F).flagBit 0x5C10 n 0x10 0

/-- PDM_DATA_RESUMED (R303): 2,048 bits with a change on a microphone in NO_DATA. -/
def execPdmDataResumed (n : Nat) (s : State) : Host.Outcome State Fault Refusal :=
  run s fun t =>
    let x := s.mic n
    if s.micState n != 3 || !x.alive then t
    else t.setMic n { x with alive := false, resetDue := some (nextBlock s.now) }

/-- The compensation filters that are in force when the block starts: those restored (R304, R439). -/
def Tx.micsInit (t : Tx s0) : Tx s0 :=
  t.each (List.range 16) (fun t m =>
    let d := t.cur.gb 0x5C10 m 0x07
    if compTaps d == Mic.init.taps then t else t.setMic m { t.cur.mic m with taps := compTaps d })

/-- A microphone that is enabled is HELD: the PDM rate does not fit (R299). -/
def Tx.micsHold (t : Tx s0) : Tx s0 :=
  (t.each (List.range 16) (fun t m =>
    if t.cur.micState m == 0 && !t.on 0x5C10 m 0x01 then t
    else (t.setMic m { (t.cur.mic m).cleared with resetDue := none, back := false }).micTo m 4)).flagBit 0x5C00 0 0x09 1

/-- The restart after a change of rate or a step (R299, R300): the PDM clocks run again, and every decimator resets. A level
is that of the time since the restart, until 100 ms of it have passed (assumption 27). -/
def Tx.micsRestart (t : Tx s0) : Tx s0 :=
  let x := t.cur.meas
  let t := t.setMeas { x with clocked := true, mics := x.mics.map (fun p => (p.1, { p.2 with peak := 0, sq := 0, win := [] })) }
  (t.when t.cur.micsHeld Tx.micsHold).decimReset t.cur.now

end Sys2Proof.Machine
end

