-- ==== Sys2Proof/Machine/Network.lean ====
section
/-! DEFINITION. MACs, receive rings, the cell pool, media streams and the IPv4 interfaces (R199 to R230). -/

namespace Sys2Proof.Machine
open Sys2Proof

variable {s0 : State}

/-! ## State -/

/-- State of a receive stream beside its entries. -/
def State.rx (s : State) (i : Nat) : RxStream := mget RxStream.init s.net.rx i
def Tx.setRx (t : Tx s0) (i : Nat) (x : RxStream) : Tx s0 :=
  t.setNet { t.cur.net with rx := mputD RxStream.init i x t.cur.net.rx }

/-- Entries of a receive and of a transmit stream. -/
def State.rxg (s : State) (i sub : Nat) : Nat := s.g 0x4A00 i sub
def State.txg (s : State) (i sub : Nat) : Nat := s.g 0x4C00 i sub

/-- Samples per packet (Table 8.5), 0 where the table gives none. -/
def perPacket (fs code : Nat) : Nat :=
  match fs, code with
  | 48000, 0 => 6
  | 48000, 1 => 12
  | 48000, 2 => 16
  | 48000, 3 => 48
  | 96000, 0 => 12
  | 96000, 1 => 24
  | 96000, 2 => 32
  | 96000, 3 => 96
  | 44100, 1 => 11
  | 44100, 3 => 44
  | 88200, 1 => 22
  | 88200, 3 => 88
  | _, _ => 0

/-- Rate, channels, samples per packet and bytes per sample. -/
def State.rxRate (s : State) (i : Nat) : Nat := s.rxg i 0x0C
def State.rxChans (s : State) (i : Nat) : Nat := s.rxg i 0x0B
def State.rxN (s : State) (i : Nat) : Nat := perPacket (s.rxRate i) (s.rxg i 0x0D)
def State.rxB (s : State) (i : Nat) : Nat := if s.rxg i 0x0A == 0 then 2 else 3
def State.txRate (s : State) (i : Nat) : Nat := s.txg i 0x0B
def State.txChans (s : State) (i : Nat) : Nat := s.txg i 0x0A
def State.txN (s : State) (i : Nat) : Nat := perPacket (s.txRate i) (s.txg i 0x0C)
def State.txB (s : State) (i : Nat) : Nat := if s.txg i 0x09 == 0 then 2 else 3

/-- Domain of a stream by its rate (R161): 0 A, 1 B, 2 C. -/
def State.rateDomain (s : State) (fs : Nat) : Nat := if fs == s.fA then 0 else if fs == s.fB then 1 else 2

/-- Link offset in samples of a rate (R207, R214). -/
def State.linkOffset (s : State) (i f : Nat) : Nat := ceilDiv (s.rxg i 0x0E * f) 1000000

/-- Input component of a receive stream (R214, Table 6.13). -/
def State.rxLatency (s : State) (i : Nat) : Nat :=
  let l := s.linkOffset i s.fA
  match s.rateDomain (s.rxRate i) with
  | 0 => l
  | 1 => l + s.kB
  | _ => l + 64

/-- Count of a stream media clock at the instant of Domain A media time a (R213). -/
def State.streamAt (s : State) (fs a : Nat) : Nat :=
  if s.rateDomain fs == 2 then mediaAt fs (nsOfMedia s.fA a) else a * fs / s.fA

/-- Instant of sample x of a stream media clock from media time 0, in ps / 96000. -/
def streamInstant (fs x : Nat) : Int := (x * (96000 * 10 ^ 12) / fs : Nat)

/-- First sample of a stream media clock whose instant is at or after that of Domain A media time a (R220, R221). -/
def State.streamFrom (s : State) (fs a : Nat) : Nat := ceilDiv (a * fs) s.fA

/-- Cells of a receive region (R207). -/
def State.rxCells (s : State) (i : Nat) : Nat :=
  ceilDiv (3 * s.rxChans i * (s.linkOffset i (s.rxRate i) + 2 * s.rxN i)) 128

/-- Partner of a media MAC in its protection pair (Table 8.4). -/
def partner (m : Nat) : Nat := if m % 2 == 0 then m + 1 else m - 1

/-- MACs of a stream with its destinations and source filters: path 1, and path 2 when it is protected. -/
def State.rxPaths (s : State) (i : Nat) : List (Nat × Nat × Nat) :=
  (s.rxg i 0x02, s.rxg i 0x04, s.rxg i 0x07) ::
  (if s.on 0x4A00 i 0x03 then [(partner (s.rxg i 0x02), s.rxg i 0x05, s.rxg i 0x08)] else [])
def State.txPaths (s : State) (i : Nat) : List (Nat × Nat) :=
  (s.txg i 0x02, s.txg i 0x04) ::
  (if s.on 0x4C00 i 0x03 then [(partner (s.txg i 0x02), s.txg i 0x05)] else [])

/-- Streams that hold their resources: receive streams in WAITING, RECEIVING or LOST, transmit streams in RESOLVING or
SENDING. -/
def State.rxServed (s : State) : List Nat :=
  (s.listed 0x4A00 0x12).filter (fun i => 1 ≤ s.rxg i 0x12 && s.rxg i 0x12 ≤ 3)
def State.txServed (s : State) : List Nat :=
  (s.listed 0x4C00 0x14).filter (fun i => 1 ≤ s.txg i 0x14 && s.txg i 0x14 ≤ 2)

/-- Bytes of a media packet's frame on MAC m (R199): an RTP header and the payload in a UDP datagram. -/
def State.frameLen (s : State) (m payload : Nat) : Nat := s.udpFrame m (12 + payload)

/-- Transmit load of stream i on MAC m in bit/s times 1056, which every count of Table 8.5 divides (R212). -/
def State.streamLoad (s : State) (i m : Nat) : Nat :=
  if (s.txPaths i).any (fun p => p.1 == m) then
    (s.frameLen m (s.txChans i * s.txN i * s.txB i) + 20) * 8 * s.txRate i * (1056 / max 1 (s.txN i))
  else 0

/-- Transmit load of MAC m by the streams served, in bit/s times 1056. -/
def State.macLoad (s : State) (m : Nat) : Nat := sumN (s.txServed.map (fun i => s.streamLoad i m))

/-- Nominal speed of a media lane in Mb/s (R212). -/
def State.laneSpeed (s : State) (m : Nat) : Nat := if s.g 0x4800 m 0x02 == 0 then 10000 else 1000

/-- A lane that came up at 100 or 10 Mb/s over SGMII (R212). -/
def State.laneSlow (s : State) (m : Nat) : Bool :=
  s.g 0x4800 m 0x02 == 2 && s.g 0x4800 m 0x07 == 1 && s.g 0x4800 m 0x08 < 1000

/-- Limits of R212 that depend on the stream alone. -/
def State.rxLimits (s : State) (i : Nat) : Bool :=
  let n := s.rxN i
  n != 0 && s.rxChans i * n * s.rxB i ≤ 1440 && 2 * n * 1000000 ≤ s.rxg i 0x0E * s.rxRate i
def State.txLimits (s : State) (i : Nat) : Bool :=
  let n := s.txN i
  n != 0 && s.txChans i * n * s.txB i ≤ 1440 &&
  s.txg i 0x0D + s.txChans i ≤ (if s.fA == 96000 then 512 else 1024)

/-- Whether C channels in a domain and direction can be given bridge or ASRC channels. -/
def State.domainFits (s : State) (dom dir c : Nat) : Bool :=
  match dom with
  | 0 => true
  | 1 => s.bridgeFits dir c
  | _ => c ≤ s.asrcFree.length

/-- Other enabled streams. -/
def State.rxOthers (s : State) (i : Nat) : List Nat :=
  (s.listed 0x4A00 0x01).filter (fun j => s.on 0x4A00 j 0x01 && j != i)
def State.txOthers (s : State) (i : Nat) : List Nat :=
  (s.listed 0x4C00 0x01).filter (fun j => s.on 0x4C00 j 0x01 && j != i)

/-- Limits of R212 that depend on other streams: channel rate and channels of those enabled (R30); domain, cells and load
of those served. -/
def State.rxFits (s : State) (i : Nat) : Bool :=
  sumN ((s.rxOthers i).map s.rxChans) + s.rxChans i ≤ (if s.fA == 96000 then 512 else 1024) &&
  sumN ((s.rxOthers i).map (fun j => s.rxChans j * s.rxRate j)) + s.rxChans i * s.rxRate i ≤ 49152000 &&
  s.domainFits (s.rateDomain (s.rxRate i)) 0 (s.rxChans i) && s.g 0x4900 0 0x03 + s.rxCells i ≤ 28672
def State.txFits (s : State) (i : Nat) : Bool :=
  let lo := s.txg i 0x0D
  let hi := lo + s.txChans i
  sumN ((s.txOthers i).map (fun j => s.txChans j * s.txRate j)) + s.txChans i * s.txRate i ≤ 49152000 &&
  s.domainFits (s.rateDomain (s.txRate i)) 1 (s.txChans i) &&
  (s.txPaths i).all (fun p => s.macLoad p.1 + s.streamLoad i p.1 ≤ s.laneSpeed p.1 * 1000000 * 1056 * 3 / 4) &&
  (s.txOthers i).all (fun j => hi ≤ s.txg j 0x0D || s.txg j 0x0D + s.txChans j ≤ lo)

/-- Whether a stream's lanes run fast enough (R212). -/
def State.rxLane (s : State) (i : Nat) : Bool := (s.rxPaths i).all (fun p => !s.laneSlow p.1)
def State.txLane (s : State) (i : Nat) : Bool := (s.txPaths i).all (fun p => !s.laneSlow p.1)

/-- Whether an IPv4 address is a multicast group. -/
def isGroup (ip : Nat) : Bool := ip / 2 ^ 28 == 14

/-- Groups that the enabled receive streams use on MAC m, with their source filters (R223). -/
def State.streamGroups (s : State) (m : Nat) : List (Nat × Nat) :=
  let on := (s.listed 0x4A00 0x01).filter (fun i => s.on 0x4A00 i 0x01)
  (on.flatMap s.rxPaths).filterMap (fun p => if p.1 == m && isGroup p.2.1 then some p.2 else none)

/-- Whether firmware joins the PTP groups on MAC m: the primary and the backup MAC (R244). -/
def State.ptpMac (s : State) (m : Nat) : Bool :=
  s.on 0x5001 0 0x01 && (s.g 0x5001 0 0x05 == m || s.g 0x5001 0 0x06 == m)

/-- Whether firmware joins the Sprinkler group on MAC m (R257). -/
def State.sprkMac (s : State) (m : Nat) : Bool :=
  s.g 0x5400 0 0x02 != 0 && (s.g 0x5400 0 0x06 == m || s.g 0x5400 0 0x07 == m)

/-- Groups joined on MAC m (0x4F00[m]:09): those of the streams, of PTP (R244) and of the Sprinkler (R257). -/
def State.groups (s : State) (m : Nat) : List Nat :=
  let ptp := if s.ptpMac m then [ptpGroup] else []
  let sp := if s.sprkMac m then [s.g 0x5400 0 0x04] else []
  nub ((s.streamGroups m).map (·.1) ++ ptp ++ sp)

/-! ## IGMP and ARP frames (R223) -/

/-- An IGMP message in IPv4 with TTL 1 and the Router Alert option of RFC 3376. -/
def igmpPacket (src dst : Nat) (body : Bytes) : Bytes :=
  let h (sum : Nat) : Bytes :=
    [0x46, 0xC0] ++ beBytes 2 (24 + body.length) ++ beBytes 4 0 ++ [1, 2] ++ beBytes 2 sum ++ beBytes 4 src ++
    beBytes 4 dst ++ [0x94, 0x04, 0, 0]
  h (inetSum (h 0)) ++ body

/-- An IGMP message with its checksum: type and code, and the rest. -/
def igmpBody (ty code : Nat) (rest : Bytes) : Bytes :=
  let b (sum : Nat) : Bytes := beBytes 1 ty ++ beBytes 1 code ++ beBytes 2 sum ++ rest
  b (inetSum (b 0))

/-- Whether interface m speaks IGMPv2 (R223). -/
def State.igmp2 (s : State) (m : Nat) : Bool := s.g 0x4F00 m 0x04 == 1 || (s.macSt m).v2Until.isSome

/-- Report of a group on MAC m: 0 it is in use, 1 it is joined, 2 it is left. -/
def Tx.igmpSend (t : Tx s0) (m group kind : Nat) : Tx s0 :=
  let s := t.cur
  if s.igmp2 m then
    let dst := if kind == 2 then 0xE0000002 else group
    t.sendFrame m (s.ethFrame m (groupMac dst) 0x0800
      (igmpPacket (s.ip m) dst (igmpBody (if kind == 2 then 0x17 else 0x16) 0 (beBytes 4 group))))
  else
    let srcs := nub ((s.streamGroups m).filterMap (fun g => if g.1 == group then some g.2 else none))
    let any := srcs.contains 0 || srcs.isEmpty
    let rec_ := if kind == 2 then 3 else if any then (if kind == 0 then 2 else 4) else (if kind == 0 then 1 else 5)
    let list := if any then [] else srcs
    let body := igmpBody 0x22 0 (beBytes 2 0 ++ beBytes 2 1 ++ beBytes 1 rec_ ++ [0] ++ beBytes 2 list.length ++
      beBytes 4 group ++ list.flatMap (beBytes 4))
    t.sendFrame m (s.ethFrame m (groupMac 0xE0000016) 0x0800 (igmpPacket (s.ip m) 0xE0000016 body))

/-- Two unsolicited reports of a join, 1 s apart (R223); the second is IGMP_REPORT. -/
def Tx.igmpJoin (t : Tx s0) (m group : Nat) : Tx s0 :=
  let t := t.igmpSend m group 1
  let x := t.cur.macSt m
  t.setMac m { x with reports := x.reports.filter (fun r => r.1 != group) ++ [(group, t.cur.clock + secC 1)] }

/-- The groups that firmware joins or leaves on the six MACs with a change of PTP or the Sprinkler (R200, R223, R244): `a` as they
were before it. -/
def Tx.igmpFollow (t : Tx s0) (a : State) : Tx s0 :=
  t.each (List.range 6) (fun t m =>
    let old := a.groups m
    let new := t.cur.groups m
    let t := t.each (new.filter (fun g => !old.contains g)) (fun t g => t.igmpJoin m g)
    t.each (old.filter (fun g => !new.contains g)) (fun t g => t.igmpSend m g 2))

/-- An ARP packet (RFC 826). -/
def arpPacket (op : Nat) (sha : Bytes) (spa : Nat) (tha : Bytes) (tpa : Nat) : Bytes :=
  beBytes 2 1 ++ beBytes 2 0x0800 ++ [6, 4] ++ beBytes 2 op ++ sha ++ beBytes 4 spa ++ tha ++ beBytes 4 tpa

/-- MAC m asks for the Ethernet address of an IPv4 address. -/
def Tx.arpAsk (t : Tx s0) (m ip : Nat) : Tx s0 :=
  t.sendFrame m (t.cur.ethFrame m macBroadcast 0x0806 (arpPacket 1 (t.cur.macAddr m) (t.cur.ip m) (zeros 6) ip))

/-- A gratuitous ARP (R223). -/
def Tx.arpGratuitous (t : Tx s0) (m : Nat) : Tx s0 := if t.cur.ip m == 0 then t else t.arpAsk m (t.cur.ip m)

/-- Address to resolve for a destination on MAC m: itself, or the gateway when it is off-subnet (R220). -/
def State.nextHop (s : State) (m dst : Nat) : Nat :=
  let w := 2 ^ (32 - s.g 0x4F00 m 0x02)
  if dst / w == s.ip m / w then dst else s.g 0x4F00 m 0x03

/-- Ethernet address for a destination on MAC m, if it is known (R220). -/
def State.dstMac (s : State) (m dst : Nat) : Option Bytes :=
  if isGroup dst then some (groupMac dst)
  else ((s.macSt m).arp.find? (fun e => e.ip == s.nextHop m dst)).map (·.mac)

/-- Whether every destination of transmit stream i is resolved. -/
def State.txResolved (s : State) (i : Nat) : Bool := (s.txPaths i).all (fun p => (s.dstMac p.1 p.2).isSome)

/-! ## Receive rings (R204 to R206) -/

/-- A frame of MAC m is delivered to ring r, in the buffers after the last one taken, or dropped (R204, R205). -/
def Tx.toRing (t : Tx s0) (r m ns : Nat) (f : Bytes) : Bool × Tx s0 :=
  let n := ceilDiv f.length 2048
  let used := t.g 0x4E00 r 0x03
  if !t.on 0x4E00 r 0x01 || t.g 0x4E00 r 0x02 < used + n then
    (false, (t.tally 0x4E00 r 0x05).flagBit 0x4E00 r 0x07 0)
  else
    let fs := mget [] t.cur.net.rings r
    let size := max 1 (t.g 0x4E00 r 0x02)
    let first := mget 0 t.cur.net.heads r
    let x : RingFrame := ⟨m, ns, f, first, (first + n - 1) % size, n⟩
    let t := t.setNet { t.cur.net with rings := mputD [] r (fs ++ [x]) t.cur.net.rings,
                                       heads := mputD 0 r ((first + n) % size) t.cur.net.heads }
    (true, ((t.w 0x4E00 r 0x03 (used + n)).inc 0x4E00 r 0x04 1).peak 0x4E00 r 0x06 (used + n))

/-- Firmware drains the oldest frame of ring r. -/
def Tx.ringPop (t : Tx s0) (r : Nat) : Tx s0 :=
  match mget [] t.cur.net.rings r with
  | [] => t
  | f :: fs =>
    (t.setNet { t.cur.net with rings := mputD [] r fs t.cur.net.rings }).w 0x4E00 r 0x03 (t.g 0x4E00 r 0x03 - f.descs)

/-- The PTP message in an Ethernet frame with its FCS: behind the EtherType, or in a UDP datagram. -/
def ptpOf (f : Bytes) : Bytes :=
  let o := if fieldBE f 12 2 == 0x8100 then 4 else 0
  f.drop (if fieldBE f (12 + o) 2 == 0x88F7 then 14 + o else 42 + o)

/-- Whether the port supports a message's type (Table 9.2): Sync, Delay_Req, Follow_Up, Delay_Resp or Announce. -/
def ptpSupported (m : Bytes) : Bool := ([0, 1, 8, 9, 11] : List Nat).contains (fieldBE m 0 1 % 16)

/-- Firmware discards messages of other types as it meets them in ring 0 (R241). -/
def Tx.ptpDrainGo : Nat → Tx s0 → Tx s0
  | 0, t => t
  | n + 1, t =>
    match mget [] t.cur.net.rings 0 with
    | f :: _ => if ptpSupported (ptpOf f.bytes) then t else (t.ringPop 0).ptpDrainGo n
    | [] => t
def Tx.ptpDrain (t : Tx s0) : Tx s0 := if t.cur.ctl.down then t else t.ptpDrainGo 256

/-- Firmware takes the oldest PTP message from ring 0. -/
def Tx.ptpPop (t : Tx s0) : Tx s0 := (t.ringPop 0).ptpDrain

/-- Whether host h's session is carried over UDP (R206). -/
def State.overUdp (s : State) (h : Nat) : Bool :=
  match (s.host h).sess with
  | some x => x.src.transport != 6
  | none => false

/-- Own rule of 0x4E00[r]:01 (R206). -/
def ringRule (h r : Nat) (d : Bytes) (t : Tx s0) : Tx s0 :=
  let on := leNat d == 1
  if !on && r == 1 && t.cur.overUdp h then t.status stState
  else if on == t.on 0x4E00 r 0x01 then t
  else if on then
    ((t.setNet { t.cur.net with rings := mputD [] r [] t.cur.net.rings, heads := mputD 0 r 0 t.cur.net.heads }).w
      0x4E00 r 0x03 0).w 0x4E00 r 0x01 1
  else t.w 0x4E00 r 0x01 0

/-- RING_DISABLE and RING_ENABLE (R206): writes of 0x4E00[r]:01. -/
def execRingDisable (h n : Nat) (d : Bytes) (s : State) : Host.Outcome State Fault Refusal :=
  run s fun t => t.guarded h (opOf 0x4E00 n 0x01 d) (ringRule h n d)
def execRingEnable (h n : Nat) (d : Bytes) (s : State) : Host.Outcome State Fault Refusal :=
  run s fun t => t.guarded h (opOf 0x4E00 n 0x01 d) (ringRule h n d)

/-- Own rule of 0x4E00[r]:02 (R206): that of ring 1 only from a session on the host SPI port. -/
def ringSizeRule (h r : Nat) (d : Bytes) (t : Tx s0) : Tx s0 :=
  if t.on 0x4E00 r 0x01 || (r == 1 && t.cur.overUdp h) then t.status stState else t.w 0x4E00 r 0x02 (leNat d)

/-! ## Streams: enable, hold, disable (R210, R217, R220, R221) -/

/-- Trace message of a receive stream (Table 18.3). -/
def Tx.rxMsg (t : Tx s0) (i event x : Nat) : Tx s0 :=
  t.msg (96 + i) (leBytes 2 i ++ leBytes 1 event ++ leBytes 1 (t.cur.rxg i 0x12) ++ leBytes 8 x)

/-- Receive stream i takes a state; transmit stream i takes a state. -/
def Tx.rxTo (t : Tx s0) (i st : Nat) : Tx s0 :=
  if t.cur.rxg i 0x12 == st then t
  else ((t.w 0x4A00 i 0x12 st).when (st == 4) (fun t => t.flagBit 0x4A00 i 0x21 0)).rxMsg i 0 t.cur.now
def Tx.txTo (t : Tx s0) (i st : Nat) : Tx s0 :=
  let t := (t.w 0x4C00 i 0x14 st).when (st == 3) (fun t => t.flagBit 0x4C00 i 0x1B 5)
  t.when (st == 1) (fun t => (t.flagBit 0x4C00 i 0x1B 0).setTxs i { t.cur.tx i with since := t.cur.clock })

/-- Show the transmit load of every MAC (0x4800[m]:09). -/
def Tx.showLoad (t : Tx s0) : Tx s0 :=
  t.each (List.range 4) (fun t m => t.w 0x4800 m 0x09 (t.cur.macLoad m / 1056000))

/-- Bridge or ASRC channels of a stream are taken or given back. -/
def Tx.streamTake (t : Tx s0) (i dom dir c : Nat) : Tx s0 :=
  match dom with
  | 0 => t
  | 1 => t.bridgeTake dir c
  | _ => t.asrcTake 2 i ((List.range c).map (fun k => (k, dir)))
def Tx.streamDrop (t : Tx s0) (i dom dir c : Nat) : Tx s0 :=
  match dom with
  | 0 => t
  | 1 =>
    let t := t.bridgeDrop dir c
    t.setMaps { t.cur.maps with bridge := t.cur.maps.bridge.filter (fun e =>
      !(e.1 % 2 == dir && sigKind (e.1 / 2) == 2 && sigInst (e.1 / 2) == i)) }
  | _ => t.asrcDrop ((t.cur.asrcHeld 2 i).filter (fun c => t.g 0x4510 c 0x04 == dir))

/-- A receive stream takes its region and enters WAITING (R207, R217). -/
def Tx.rxStart (t : Tx s0) (i : Nat) : Tx s0 :=
  let n := t.cur.rxCells i
  let t := t.streamTake i (t.cur.rateDomain (t.cur.rxRate i)) 0 (t.cur.rxChans i)
  let t := (t.inc 0x4900 0 0x03 n).w 0x4900 0 0x02 (t.g 0x4900 0 0x02 - n)
  ((t.setRx i { RxStream.init with cells := n }).w 0x4A00 i 0x1F 0).rxTo i 1

/-- A receive stream that is served gives its region and channels back. -/
def Tx.rxEnd (t : Tx s0) (i : Nat) : Tx s0 :=
  let n := (t.cur.rx i).cells
  let t := t.streamDrop i (t.cur.rateDomain (t.cur.rxRate i)) 0 (t.cur.rxChans i)
  let t := (t.w 0x4900 0 0x03 (t.g 0x4900 0 0x03 - n)).inc 0x4900 0 0x02 n
  (t.setRx i RxStream.init).w 0x4A00 i 0x1F 0

/-- Bytes of a sample on the wire (Table 8.14 :09). -/
def wireSample (b : Nat) (v : Int) : Bytes :=
  if b == 2 then beBytes 2 (unsigned 16 (satI 16 ((v + 0x80) / 256)).1) else beBytes 3 (unsigned 24 v)

/-- RTP packet of stream i (R211, R218). -/
def State.rtp (s : State) (i : Nat) (p : Packet) : Bytes :=
  let v := s.txg i 0x0F
  let ssrc := if v == 2 ^ 32 then 0x55000000 + 256 * s.g 0x5400 0 0x01 + i else v
  [0x80] ++ beBytes 1 (s.txg i 0x08) ++ beBytes 2 p.seq ++ beBytes 4 ((p.x + s.txg i 0x0E) % 2 ^ 32) ++
  beBytes 4 (ssrc % 2 ^ 32) ++ p.data.flatMap (fun f => f.flatMap (wireSample (s.txB i)))

/-- Zero the 8-byte word that a free value names (R210: the manual does not say which word is bad). -/
def zeroCell (k : Nat) (b : Bytes) : Bytes :=
  let w := k % max 1 (ceilDiv b.length 8)
  b.take (8 * w) ++ zeros (min 8 (b.length - 8 * w)) ++ b.drop (8 * w + 8)

/-- Each copy of a packet waits at its MAC from the launch instant on (R219): its cells are held until both have ended. In SENDING a copy
whose next hop is no longer known, after a write of the prefix or the gateway, is dropped uncounted (DESIGN CHOICE; assumption 70). -/
def Tx.txCopies (t : Tx s0) (i : Nat) (p : Packet) (payload : Bytes) : Tx s0 :=
  let s := t.cur
  let fs := s.txRate i
  let n := s.txN i
  let launch := nsOfMedia fs (p.x + n)
  let key : MediaCopy := ⟨i, p.x, launch, launch + n * 1000000000 / fs⟩
  let copies := (s.txPaths i).filterMap (fun q => (s.dstMac q.1 q.2).map (fun mac => (q.1,
    s.ethFrame q.1 mac 0x0800
      (ipv4 17 (s.ip q.1) q.2 (s.txg i 0x10) (s.txg i 0x11) (udp (s.txg i 0x07) (s.txg i 0x06) payload)))))
  if copies.isEmpty then t.freeCells p.cells.length
  else
    let y := s.tx i
    let t := t.setTxs i { y with flights := y.flights ++ [⟨p.x, copies.length, p.cells, false⟩] }
    t.each copies (fun t q => t.egress q.1 ⟨.frame q.2, q.2.length, t.cur.clock, some key, none⟩)

/-- Launch instant of stream i's next packet in ns, and its rank among those of one MAC (R219); none while it does not
launch. -/
def State.launchRank (s : State) (i : Nat) : Option Nat :=
  (s.tx i).launchX.map (fun x => nsOfMedia (s.txRate i) (x + s.txN i) * 256 + i)

/-- Whether the launch instant of stream i's next packet has come. -/
def State.launchDue (s : State) (i : Nat) : Bool :=
  match (s.tx i).launchX with
  | some x => x + s.txN i ≤ mediaAt (s.txRate i) s.ns
  | none => false

/-- Underrun of stream i: a pop that returned the idle item (R209). -/
def Tx.txUnderrun (t : Tx s0) (i : Nat) : Tx s0 :=
  (((t.tally 0x4C00 i 0x16).tally 0x4900 0 0x09).flagBit 0x4C00 i 0x1B 1).flagBit 0x4900 0 0x0C 1

/-- A launch instant of stream i that has come (R209, R219): its queue is popped. `sameCycle` is a push in this cycle,
`bad` an uncorrectable cell read. -/
def Tx.launch (t : Tx s0) (i : Nat) (sameCycle bad : Bool) : Tx s0 :=
  let s := t.cur
  let y := s.tx i
  match y.launchX with
  | none => t
  | some x =>
    let q := y.queue
    let p := if q.length == 1 && sameCycle then Packet.idle else q.headD Packet.idle
    let y := { y with launchX := some (x + s.txN i) }
    if p.len == 0 || x < p.x then (t.setTxs i y).txUnderrun i
    else
      let t := t.setTxs i { y with queue := q.drop 1 }
      if s.txg i 0x14 != 2 then t.freeCells p.cells.length
      else if bad then
        let (k, t) := t.fresh
        let t := (t.inc 0x4900 0 0x0B 1).flagBit 0x4900 0 0x0C 3
        t.txCopies i p (zeroCell k (s.rtp i p))
      else t.txCopies i p (s.rtp i p)

/-- Stream whose due launch comes first among those on the MAC pair of stream n that rank before it (R219): a launch on one MAC of a
pair can put a copy on the other. -/
def State.launchBefore (s : State) (n : Nat) : Option Nat :=
  match s.launchRank n with
  | none => none
  | some r =>
    let macs := (s.txPaths n).flatMap (fun p => [p.1, partner p.1])
    let l := (s.txServed.filter (fun i => i != n && s.launchDue i && (s.txPaths i).any (fun p => macs.contains p.1))).filterMap
      (fun i => match s.launchRank i with
        | some k => if k < r then some (k, i) else none
        | none => none)
    ((sortBy (fun a b => a.1 < b.1) l).head?).map (·.2)

/-- Whether what a pop of stream i's queue would take was pushed onto the empty queue in this very cycle (R209). -/
def State.pushedNow (s : State) (i : Nat) : Bool := ((s.tx i).queue.head?).any (fun p => p.at_ == s.clock)

/-- The launches that rank before stream n's next one take place first. -/
def Tx.launchesBefore (n : Nat) : Nat → Tx s0 → Tx s0
  | 0, t => t
  | f + 1, t =>
    match t.cur.launchBefore n with
    | some i => (t.launch i (t.cur.pushedNow i) false).launchesBefore n f
    | none => t

/-- A transmit queue is flushed (R210): a pop that is due is served first. A stream that enters HELD (`held`) still pushes the
packet of this cycle, before or after its flush in the order of commands: it lands after the flush and remains. Any other flush
stops the packetiser with it. -/
def Tx.txFlush (t : Tx s0) (i : Nat) (held : Bool) : Tx s0 :=
  let t := if t.cur.txServed.contains i && t.cur.launchDue i then
      let t := t.launchesBefore i 1024
      t.launch i (t.cur.pushedNow i) false
    else t
  let x := t.cur.tx i
  let stays := x.queue.filter (fun p => held && p.at_ == t.cur.clock)
  let gone := x.queue.filter (fun p => !(held && p.at_ == t.cur.clock))
  let t := (t.freeCells (sumN (gone.map (fun p => p.cells.length)))).count 0x4900 0 0x0A gone.length
  if held then t.setTxs i { x with queue := stays, launchX := none, flushAt := some t.cur.clock }
  else t.setTxs i { x with queue := stays, buf := [], nextX := none, launchX := none, flushAt := none }

/-- Ask for every destination of transmit stream i that is not resolved. -/
def Tx.txAsk (t : Tx s0) (i : Nat) : Tx s0 :=
  t.each (t.cur.txPaths i) (fun t p =>
    if (t.cur.dstMac p.1 p.2).isSome then t else t.arpAsk p.1 (t.cur.nextHop p.1 p.2))

/-- What transmit stream i takes from the output map in a period that presented vs (R218). -/
def State.txSamples (s : State) (i : Nat) (vs : List (Nat × Int)) : List Int :=
  (List.range (s.txChans i)).map (fun k => mget 0 vs (512 + s.txg i 0x0D + k))

/-- Descriptors that an entry to HELD has left in stream i's queue (R210) are discarded as late on every path when the stream starts
again: their launch instants have passed (R219; DESIGN CHOICE, assumption 70). -/
def Tx.staleDrop (t : Tx s0) (i : Nat) : Tx s0 :=
  let x := t.cur.tx i
  if x.queue.isEmpty then t
  else
    let n := x.queue.length
    let t := (t.setTxs i { x with queue := [] }).freeCells (sumN (x.queue.map (fun p => p.cells.length)))
    t.each (t.cur.txPaths i) (fun t p =>
      (((t.count 0x4C00 i 0x19 n).count 0x4800 p.1 0x16 n).flagBit 0x4C00 i 0x1B 4).flagBit 0x4800 p.1 0x17 3)

/-- A transmit stream starts at the first packet at or after Domain A boundary b (R220). A Domain A stream finds the
samples that the output map presented in this period and the one before: their stamps lie ahead (R218). -/
def Tx.txStart (t : Tx s0) (i b : Nat) : Tx s0 :=
  let t := t.staleDrop i
  let n := t.cur.txN i
  let fs := t.cur.txRate i
  let x := n * ceilDiv (t.cur.streamFrom fs b) n
  let t := t.streamTake i (t.cur.rateDomain fs) 1 (t.cur.txChans i)
  let s := t.cur
  let had := if s.rateDomain fs != 0 then [] else
    [(s.now + 1, s.txSamples i s.maps.before), (s.now + 2, s.txSamples i s.maps.present)].filter (fun e => x ≤ e.1)
  let t := t.setTxs i { s.tx i with nextX := some x, launchX := some x, buf := had, flushAt := none }
  let t := if t.cur.txResolved i then t.txTo i 2 else (t.txTo i 1).txAsk i
  t.showLoad

/-- A transmit stream that is served stops, by entry to HELD or otherwise, and gives its channels back (R210). -/
def Tx.txEnd (t : Tx s0) (i : Nat) (held : Bool) : Tx s0 :=
  (t.txFlush i held).streamDrop i (t.cur.rateDomain (t.cur.txRate i)) 1 (t.cur.txChans i)

/-- Streams and ports in HELD are looked at again after a change of link or configuration (R186, R212). -/
def Tx.heldLook (t : Tx s0) : Tx s0 :=
  let t := t.portsLook
  let t := t.each (t.cur.listed 0x4A00 0x12) (fun t i =>
    if t.cur.rxg i 0x12 == 4 && t.cur.rxLimits i && t.cur.rxFits i && t.cur.rxLane i then t.rxStart i else t)
  t.each (t.cur.listed 0x4C00 0x14) (fun t i =>
    if t.cur.txg i 0x14 == 3 && t.cur.txLimits i && t.cur.txFits i && t.cur.txLane i then
      t.txStart i (nextBlock t.cur.now) else t)

/-- Own rule of 0x4000[p]:01 with what it leaves to streams in HELD (R186, R212). -/
def portRule (p : Nat) (d : Bytes) (t : Tx s0) : Tx s0 :=
  let freed := leNat d == 0 && t.on 0x4000 p 0x01
  (portEnableRule p d t).when freed Tx.heldLook

/-- PORT_ENABLE and PORT_DISABLE (R183): writes of 0x4000[p]:01. -/
def execPortEnable (h n : Nat) (d : Bytes) (s : State) : Host.Outcome State Fault Refusal :=
  run s fun t => t.guarded h (opOf 0x4000 n 0x01 d) (portRule n d)
def execPortDisable (h n : Nat) (d : Bytes) (s : State) : Host.Outcome State Fault Refusal :=
  run s fun t => t.guarded h (opOf 0x4000 n 0x01 d) (portRule n d)

/-- Streams that are served and cannot be any longer, for their lane, enter HELD (R212). -/
def Tx.laneLook (t : Tx s0) : Tx s0 :=
  let t := t.each t.cur.rxServed (fun t i => if t.cur.rxLane i then t else (t.rxEnd i).rxTo i 4)
  let t := t.each t.cur.txServed (fun t i => if t.cur.txLane i then t else (t.txEnd i true).txTo i 3)
  t.heldLook.showLoad

/-- Own rule of 0x4A00[s]:01 (R212, R217, R223). -/
def rxEnableRule (i : Nat) (d : Bytes) (t : Tx s0) : Tx s0 :=
  let on := leNat d == 1
  let s := t.cur
  if on == s.on 0x4A00 i 0x01 then t
  else if on then
    if !s.rxLimits i || !s.rxFits i then t.status stOutOfRange
    else
      let t := t.w 0x4A00 i 0x01 1
      let t := if !s.engines.running then t.rxTo i 5 else if !s.rxLane i then t.rxTo i 4 else t.rxStart i
      t.each (s.rxPaths i) (fun t p => if isGroup p.2.1 then t.igmpJoin p.1 p.2.1 else t)
  else
    let served := s.rxServed.contains i
    let t := (t.w 0x4A00 i 0x01 0).when served (fun t => t.rxEnd i)
    let t := t.rxTo i 0
    let t := t.each (s.rxPaths i) (fun t p =>
      if isGroup p.2.1 && !((t.cur.streamGroups p.1).any (fun g => g.1 == p.2.1)) then t.igmpSend p.1 p.2.1 2 else t)
    t.heldLook

/-- RECEIVE_STREAM_ENABLE (R217): write of 0x4A00[s]:01. -/
def execReceiveStreamEnable (h n : Nat) (d : Bytes) (s : State) : Host.Outcome State Fault Refusal :=
  run s fun t => t.guarded h (opOf 0x4A00 n 0x01 d) (rxEnableRule n d)

/-- Own rule of 0x4C00[s]:01 (R212, R218, R220). -/
def txEnableRule (i : Nat) (d : Bytes) (t : Tx s0) : Tx s0 :=
  let on := leNat d == 1
  let s := t.cur
  if on == s.on 0x4C00 i 0x01 then t
  else if on then
    if !s.txLimits i || !s.txFits i then t.status stOutOfRange
    else
      let t := (t.w 0x4C00 i 0x01 1).w 0x4C00 i 0x1A 0
      if !s.engines.running then t.txTo i 4 else if !s.txLane i then t.txTo i 3 else t.txStart i (nextBlock s.now)
  else
    let t := t.w 0x4C00 i 0x01 0
    let t := if s.txServed.contains i then t.txEnd i false else t.txFlush i false
    (t.txTo i 0).heldLook.showLoad

/-- TRANSMIT_STREAM_ENABLE (R220): write of 0x4C00[s]:01. -/
def execTransmitStreamEnable (h n : Nat) (d : Bytes) (s : State) : Host.Outcome State Fault Refusal :=
  run s fun t => t.guarded h (opOf 0x4C00 n 0x01 d) (txEnableRule n d)

/-- STREAM_DISABLE (R210, R217, R220): write of 0x4A00[s]:01 or 0x4C00[s]:01. -/
def execStreamDisable (h : Nat) (tx : Bool) (n : Nat) (d : Bytes) (s : State) : Host.Outcome State Fault Refusal :=
  run s fun t =>
    if tx then t.guarded h (opOf 0x4C00 n 0x01 d) (txEnableRule n d)
    else t.guarded h (opOf 0x4A00 n 0x01 d) (rxEnableRule n d)

/-- Own rule of a stream's configuration entries (R212). -/
def rxConfigRule (i sub : Nat) (d : Bytes) (t : Tx s0) : Tx s0 :=
  if t.on 0x4A00 i 0x01 then t.status stState else t.w 0x4A00 i sub (leNat d)
def txConfigRule (i sub : Nat) (d : Bytes) (t : Tx s0) : Tx s0 :=
  if t.on 0x4C00 i 0x01 then t.status stState else t.w 0x4C00 i sub (leNat d)

/-- Every enabled stream enters STOPPED (R221). -/
def Tx.streamsStop (t : Tx s0) : Tx s0 :=
  let t := t.each (t.cur.listed 0x4A00 0x01) (fun t i =>
    if !t.on 0x4A00 i 0x01 then t else (t.when (t.cur.rxServed.contains i) (fun t => t.rxEnd i)).rxTo i 5)
  let t := t.each (t.cur.listed 0x4C00 0x01) (fun t i =>
    if !t.on 0x4C00 i 0x01 then t
    else (if t.cur.txServed.contains i then t.txEnd i false else t.txFlush i false).txTo i 4)
  t.copiesDrop.showLoad

/-- Every enabled stream is examined afresh at the restart (R221). -/
def Tx.streamsRestart (t : Tx s0) : Tx s0 :=
  let t := t.each (t.cur.listed 0x4A00 0x01) (fun t i =>
    if t.cur.rxg i 0x12 != 5 then t
    else if t.cur.rxLimits i && t.cur.rxFits i && t.cur.rxLane i then t.rxStart i else t.rxTo i 4)
  let t := t.each (t.cur.listed 0x4C00 0x01) (fun t i =>
    if t.cur.txg i 0x14 != 4 then t
    else if t.cur.txLimits i && t.cur.txFits i && t.cur.txLane i then t.txStart i t.cur.now else t.txTo i 3)
  t.showLoad

/-! ## Media packets received (R211, R213 to R217) -/

/-- The value congruent to v modulo 2^32 nearestTo to clk. -/
def nearestTo (v clk : Nat) : Int :=
  let d := (v + 2 ^ 32 - clk % 2 ^ 32) % 2 ^ 32
  if d < 2 ^ 31 then (clk + d : Nat) else (clk + d : Nat) - 2 ^ 32

/-- Samples of a payload: n lists over C channels (R211). -/
def payloadSamples (b c : Nat) (d : Bytes) : List (List Int) :=
  (chunks (b * c) d).map (fun f => (chunks b f).map (fun w =>
    let v := signed (8 * b) (beNat w)
    if b == 2 then v * 256 else v))

/-- Whether an RTP packet is well formed for stream i (R215 step 1). -/
def State.rtpOk (s : State) (i : Nat) (p : Bytes) : Bool :=
  12 ≤ p.length && (p.headD 0).toNat == 0x80 && fieldBE p 1 1 % 128 == s.rxg i 0x09 &&
  p.length - 12 == s.rxChans i * s.rxN i * s.rxB i

/-- Spans in succession about the one that starts at x: those at hand below and above it, and, where they reach down to what
is delivered, the `run` of those delivered before. -/
def spansInRow (here : Nat → Bool) (done : Nat → Bool) (run x n : Nat) : Nat :=
  let down := ((List.range 200).takeWhile (fun k => (k + 1) * n ≤ x && here (x - (k + 1) * n))).length
  let up := ((List.range 200).takeWhile (fun k => here (x + (k + 1) * n))).length
  1 + down + up + (if done (x - (down + 1) * n) then run else 0)

/-- Whether a path has received the packet that starts at x. -/
def RxPath.has (p : RxPath) (x : Nat) : Bool := p.got.any (fun e => e.1 == x)

/-- A path receives the packet that starts at x at ns. -/
def RxPath.receive (p : RxPath) (x ns : Nat) : RxPath := if p.has x then p else { p with got := p.got ++ [(x, ns)] }

/-- Show the states of a stream's paths (0x4A00[s]:1F). -/
def Tx.showPaths (t : Tx s0) (i : Nat) (b : Bool × Bool) : Tx s0 := t.w 0x4A00 i 0x1F (b2n b.1 + 2 * b2n b.2)

/-- Path states now. -/
def State.paths (s : State) (i : Nat) : Bool × Bool := (bit (s.rxg i 0x1F) 0, bit (s.rxg i 0x1F) 1)

/-- MAC of a path of receive stream i. -/
def State.pathMac (s : State) (i path : Nat) : Nat := (nth (s.rxPaths i) (path - 1) (0, 0, 0)).1

/-- The copy that stream i has written from another MAC in this very cycle, where path's MAC comes first in MAC order (R215). -/
def State.putLater (s : State) (i path x : Nat) : Option RxPut :=
  (s.rx i).puts.find? (fun q => q.at_ == s.clock && q.x == x && s.pathMac i path < s.pathMac i q.path)

/-- A copy written in this cycle counts as the duplicate of the one on a lower-numbered MAC (R215): what it wrote is taken
back. -/
def Tx.putBack (t : Tx s0) (i n : Nat) (q : RxPut) : Tx s0 :=
  let sub := if q.path == 1 then 0x14 else 0x15
  let t := (t.w 0x4A00 i sub ((t.g 0x4A00 i sub + 2 ^ 32 - 1) % 2 ^ 32)).tally 0x4A00 i 0x16
  let t := (t.w 0x4A00 i 0x1E q.ssrc).unflag 0x4A00 i 0x21 6
  let r := t.cur.rx i
  t.setRx i { r with heard := q.heard, region := (range' q.x n).foldl (fun reg y => mdel y reg) r.region,
                     puts := r.puts.filter (fun p => p.x != q.x) }

/-- A packet of stream i arrives on path 1 or 2 at ns (R215 to R217). -/
def Tx.mediaPacket (t : Tx s0) (i path ns : Nat) (p : Bytes) : Tx s0 :=
  let s := t.cur
  let st := s.rxg i 0x12
  if st == 0 || 4 ≤ st then t
  else if !s.rtpOk i p then t.tally 0x4A00 i 0x1A
  else
    let n := s.rxN i
    let fs := s.rxRate i
    let L := s.linkOffset i fs
    let here := s.streamAt fs s.now
    let xi := nearestTo ((fieldBE p 4 4 + 2 ^ 32 - s.rxg i 0x0F) % 2 ^ 32) (mediaAt fs ns)
    let x := xi.toNat
    if xi + L ≤ here then ((t.tally 0x4A00 i 0x18).flagBit 0x4A00 i 0x21 4).rxMsg i 2 x
    else if (here : Int) + n < xi + n - 1 then ((t.tally 0x4A00 i 0x19).flagBit 0x4A00 i 0x21 4).rxMsg i 3 x
    else
      let r := s.rx i
      let done := fun y => decide (y + L ≤ here)
      let p1 := if path == 1 then r.path1.receive x ns else r.path1
      let p2 := if path == 2 then r.path2.receive x ns else r.path2
      let good := fun (p : RxPath) => 16 ≤ spansInRow p.has done p.run x n
      let t := (t.setRx i { r with path1 := p1, path2 := p2 }).showPaths i
        ((s.paths i).1 || (path == 1 && good p1), (s.paths i).2 || (path == 2 && good p2))
      let t := match p1.got.find? (fun e => e.1 == x), p2.got.find? (fun e => e.1 == x) with
        | some (_, u), some (_, v) =>
          let d : Int := (v : Int) - u
          t.w 0x4A00 i 0x1C (F.ofRat (d < 0) d.natAbs 1000)
        | _, _ => t
      let t := match t.cur.putLater i path x with
        | some q => t.putBack i n q
        | none => t
      let r := t.cur.rx i
      if (range' x n).any (fun y => (mget? r.region y).isSome) then t.tally 0x4A00 i 0x16
      else
        let put : RxPut := ⟨s.clock, path, x, t.g 0x4A00 i 0x1E, r.heard⟩
        let ssrc := fieldBE p 8 4
        let t := t.when (r.heard && t.g 0x4A00 i 0x1E != ssrc) (fun t => t.flagBit 0x4A00 i 0x21 6)
        let t := (t.tally 0x4A00 i (if path == 1 then 0x14 else 0x15)).w 0x4A00 i 0x1E ssrc
        let fr := payloadSamples (s.rxB i) (s.rxChans i) (p.drop 12)
        let region := ((range' x n).zip fr).foldl (fun reg e => mset e.1 e.2 reg) r.region
        let due := nsOfMedia fs (x + L)
        let margin : Int := (due : Int) - ns
        let r := { r with region := region, heard := true, grid := x % n,
                          puts := r.puts.filter (fun q => q.at_ == s.clock) ++ [put],
                          margin := some (match r.margin with
                            | some m => if margin < m then margin else m
                            | none => margin) }
        let t := t.setRx i r
        if 16 ≤ spansInRow (fun y => (mget? region y).isSome) done r.run x n && (st == 1 || st == 3) then
          let t := (t.setRx i { r with ramp := some 0, miss := 0 }).when (st == 3) (fun t => t.flagBit 0x4A00 i 0x21 2)
          t.rxTo i 2
        else t

/-- One span whose first sample is x is delivered (R216, R217). -/
def Tx.spanDelivered (t : Tx s0) (i x : Nat) (missing : Bool) : Tx s0 :=
  let r := t.cur.rx i
  let st := t.cur.rxg i 0x12
  let pass := fun (p : RxPath) =>
    let got := p.got.filter (fun e => x < e.1)
    if p.has x then ⟨got, p.run + 1, 0⟩ else ⟨got, 0, p.miss + 1⟩
  let p1 := pass r.path1
  let p2 := pass r.path2
  let old := t.cur.paths i
  let good := (old.1 && p1.miss < 4, old.2 && p2.miss < 4)
  let lost := (old.1 && !good.1 && good.2) || (old.2 && !good.2 && good.1)
  let miss := if missing then r.miss + 1 else 0
  let t := (t.setRx i { r with path1 := p1, path2 := p2, miss := miss, run := if missing then 0 else r.run + 1 }).showPaths i good
  let t := t.when lost (fun t => (t.flagBit 0x4A00 i 0x21 5).rxMsg i 4 x)
  if !missing then t
  else
    let t := ((t.tally 0x4A00 i 0x17).flagBit 0x4A00 i 0x21 3).rxMsg i 1 x
    if st == 2 && 4 ≤ miss then (((t.tally 0x4A00 i 0x1D).flagBit 0x4A00 i 0x21 1).rxTo i 3).freezeOn 3 else t

/-- Sample time x leaves the region of stream i: its samples, or zeros (R216). -/
def Tx.rxSample (t : Tx s0) (i x : Nat) : List Int × Tx s0 :=
  let r := t.cur.rx i
  let v := mget? r.region x
  let n := max 1 (t.cur.rxN i)
  let t := t.setRx i { r with region := mdel x r.region }
  let t := if x % n == r.grid % n then t.spanDelivered i x v.isNone else t
  (v.getD (List.replicate (t.cur.rxChans i) 0), t)

/-- Uncorrectable cells zero the samples that wait for delivery first (R210). -/
def Tx.badRegion (t : Tx s0) (i x : Nat) : Tx s0 :=
  let r := t.cur.rx i
  let t := (t.inc 0x4900 0 0x0B 1).flagBit 0x4900 0 0x0C 3
  if (mget? r.region x).isNone then t
  else t.setRx i { r with region := mset x (List.replicate (t.cur.rxChans i) 0) r.region }

/-- Start of the period of media time m on receive stream i: delivery of its samples (R214, R216). In LOST the spans count as zeros,
and what its filters still hold goes on (R144, R217). The lowest margin is that of a second of media time; one without packets leaves
the value (DESIGN CHOICE; assumption 69). -/
def Tx.rxDeliver (t : Tx s0) (bad : List Nat) (i m : Nat) : Tx s0 :=
  let s := t.cur
  let fs := s.rxRate i
  let st := s.rxg i 0x12
  let c := s.rxChans i
  let L := s.linkOffset i fs
  let lo := s.streamAt fs (m - 1) + 1
  let due := (range' lo (s.streamAt fs m + 1 - lo)).filterMap (fun p => if p < L then none else some (p - L))
  let dom := s.rateDomain fs
  let keys := (List.range c).map (fun k => sigCode 2 i k * 2)
  let r := due.foldl (fun (acc : List Int × Tx s0) x =>
    let t := acc.2.when (bad.contains i) (fun t => t.badRegion i x)
    let (v, t) := t.rxSample i x
    let v := if t.cur.rxg i 0x12 == 3 then v.map (fun _ => 0) else v
    let t := t.when (dom == 1) (fun t => t.each (keys.zip v) (fun t (k, y) => t.bridgePush k y))
    (v, t.when (dom == 2) (fun t => t.each ((List.range c).zip v) (fun t (k, y) =>
      match t.cur.asrcOf 2 i 0 k with
      | some ch => t.asrcPush ch (streamInstant fs x) y
      | none => t)))) ([], t)
  let t := r.2
  let (ys, t) :=
    if st == 1 then ([], t)
    else match dom with
      | 0 => (r.1, t)
      | 1 => if s.fA == 48000 then t.bridgeFrame false 0 keys else t.bridgeFrame true (m % 2) keys
      | _ => (List.range c).foldl (fun (acc : List Int × Tx s0) k =>
          match acc.2.cur.asrcOf 2 i 0 k with
          | some ch =>
            let (y, t) := acc.2.asrcNext ch (s.mediaInstant ((m : Int) - s.linkOffset i s.fA))
            (acc.1 ++ [y], t)
          | none => (acc.1 ++ [0], acc.2)) ([], t)
  let x := t.cur.rx i
  let cur := match x.ramp with
    | some k => ys.map (fun v => rampUp v k)
    | none => ys
  let ramp := match x.ramp with
    | some k => if ys.isEmpty then x.ramp else if k < 63 then some (k + 1) else none
    | none => none
  let t := t.setRx i { x with cur := cur, ramp := ramp, margin := if m % s.fA == 0 then none else x.margin }
  if m % s.fA != 0 then t
  else match x.margin with
    | some v => t.w 0x4A00 i 0x1B (F.ofRat (v < 0) v.natAbs 1000)
    | none => t

/-- Start of the period of media time m on every receive stream. -/
def Tx.streamsDeliver (t : Tx s0) (bad : List Nat) (m : Nat) : Tx s0 :=
  t.each t.cur.rxServed (fun t i => t.rxDeliver bad i m)

/-- Whether channel c of receive stream i is a good signal (R217). -/
def State.streamGood (s : State) (i c : Nat) : Bool :=
  s.rxg i 0x12 == 2 && c < s.rxChans i &&
  (s.rateDomain (s.rxRate i) != 2 || (match s.asrcOf 2 i 0 c with
    | some ch => s.on 0x4510 ch 0x06
    | none => false))

/-- What channel c of receive stream i presents in this period. -/
def State.streamValue (s : State) (i c : Nat) : Int := nth (s.rx i).cur c 0

/-! ## Transmit streams (R208 to R210, R218 to R220) -/

/-- Start of the period of media time m on transmit stream i: what the output map presents is stamped (R218). -/
def Tx.txCollect (t : Tx s0) (i : Nat) : Tx s0 :=
  let s := t.cur
  let m := s.now
  let fs := s.txRate i
  let c := s.txChans i
  let ws := s.txSamples i s.maps.present
  let keys := (List.range c).map (fun k => sigCode 2 i k * 2 + 1)
  let add := fun (t : Tx s0) (x : Nat) (v : List Int) =>
    let y := t.cur.tx i
    match y.nextX with
    | some a => if x < a then t else t.setTxs i { y with buf := y.buf ++ [(x, v)] }
    | none => t
  match s.rateDomain fs with
  | 0 => add t (m + 2) ws
  | 1 =>
    let t := t.each (keys.zip ws) (fun t (k, v) => t.bridgePush k v)
    if s.fA == 48000 then
      let (a, t) := t.bridgeFrame true 0 keys
      let (b, t) := t.bridgeFrame true 1 keys
      add (add t (2 * m + 4) a) (2 * m + 5) b
    else if m % 2 == 0 then
      let (a, t) := t.bridgeFrame false 0 keys
      add t ((m + 2) / 2) a
    else t
  | _ =>
    let t := t.each ((List.range c).zip ws) (fun t (k, y) =>
      match t.cur.asrcOf 2 i 1 k with
      | some ch => t.asrcPush ch (s.mediaInstant m) y
      | none => t)
    let lo := s.streamAt fs (m + 1) + 1
    t.each (range' lo (s.streamAt fs (m + 2) + 1 - lo)) (fun t x =>
      let r := (List.range c).foldl (fun (acc : List Int × Tx s0) k =>
        match acc.2.cur.asrcOf 2 i 1 k with
        | some ch =>
          let (y, t) := acc.2.asrcNext ch (streamInstant fs x - s.mediaInstant 2)
          (acc.1 ++ [y], t)
        | none => (acc.1 ++ [0], acc.2)) ([], t)
      add r.2 x r.1)

/-- Start of a period on every transmit stream. -/
def Tx.streamsCollect (t : Tx s0) : Tx s0 := t.each t.cur.txServed (fun t i => t.txCollect i)

/-- Cells of the transmit share that packets hold: those queued and those under way. -/
def State.cellsHeld (s : State) : List Nat :=
  s.net.tx.flatMap (fun e => e.2.queue.flatMap (·.cells) ++ e.2.flights.flatMap (·.cells))

/-- n free cells of the transmit share, the lowest-numbered first (R208, assumption 70). -/
def State.takeCells (s : State) (n : Nat) : List Nat :=
  let held := s.cellsHeld
  ((range' 0 4096).filter (fun c => !held.contains c)).take n

/-- Samples of the n stamps from x on; a stamp that was not collected gives zeros (R218, assumption 69). -/
def stampedFrom (buf : List (Nat × List Int)) (zero : List Int) (x n : Nat) : List (List Int) :=
  (range' x n).map (fun u => (mget? buf u).getD zero)

/-- Whether stream n's packetiser may push: the stream is served, or it enters HELD in this very cycle (R210). -/
def State.mayPush (s : State) (n : Nat) : Bool :=
  s.txServed.contains n || (s.txg n 0x14 == 3 && (s.tx n).flushAt == some s.clock)

/-- PACKET_PUSH (R209, R219): once all samples of stream n's next packet are stamped, its descriptor is pushed. -/
def execPacketPush (n : Nat) (sameCycle : Bool) (s : State) : Host.Outcome State Fault Refusal :=
  run s fun t =>
    let y := s.tx n
    let k := s.txN n
    match y.nextX with
    | none => t
    | some x =>
      if k == 0 || !y.buf.any (fun e => x + k ≤ e.1 + 1) || !s.mayPush n then t
      else
        let len := s.frameLen (s.txg n 0x02) (s.txChans n * k * s.txB n)
        let cells := ceilDiv len 128
        let seq := s.txg n 0x1A
        let t := t.w 0x4C00 n 0x1A ((seq + 1) % 65536)
        let y' := { y with buf := y.buf.filter (fun e => x + k ≤ e.1), nextX := some (x + k) }
        if 4 ≤ y.queue.length + b2n sameCycle then
          ((((t.setTxs n y').tally 0x4C00 n 0x17).tally 0x4900 0 0x07).flagBit 0x4C00 n 0x1B 2).flagBit 0x4900 0 0x0C 0
        else if 4096 < s.g 0x4900 0 0x04 + cells then
          ((((t.setTxs n y').tally 0x4C00 n 0x18).tally 0x4900 0 0x08).flagBit 0x4C00 n 0x1B 3).flagBit 0x4900 0 0x0C 2
        else
          let used := s.g 0x4900 0 0x04 + cells
          let data := stampedFrom y.buf (List.replicate (s.txChans n) 0) x k
          let t := t.setTxs n { y' with queue := y.queue ++ [⟨x, len, s.takeCells cells, seq, data, s.clock⟩] }
          ((t.w 0x4900 0 0x04 used).w 0x4900 0 0x02 (s.g 0x4900 0 0x02 - cells)).peak 0x4900 0 0x05 used

/-- PACKET_LAUNCH (R209, R219): the launch instant of stream n's next packet. Each MAC starts its packets in order of
launch instant and then of stream number, so launches that are due before it come first. -/
def execPacketLaunch (n : Nat) (sameCycle bad : Bool) (s : State) : Host.Outcome State Fault Refusal :=
  run s fun t => if s.launchDue n then (t.launchesBefore n 1024).launch n sameCycle bad else t

/-! ## Links, pause, ARP and IGMP -/

/-- Trace message of a MAC (Table 18.3). -/
def Tx.macMsg (t : Tx s0) (m event : Nat) : Tx s0 :=
  t.msg (432 + m) (leBytes 1 event ++ [0] ++ leBytes 2 (t.g 0x4800 m 0x08))

/-- Speeds that MAC m's mode allows (Table 8.1). -/
def State.speeds (s : State) (m : Nat) : List Nat :=
  match decide (4 ≤ m), s.g 0x4800 m 0x02 with
  | false, 0 => [10000]
  | false, 1 => [1000]
  | false, _ => [1000, 100, 10]
  | true, 0 => [10, 100, 1000]
  | true, 1 => [10]
  | true, 2 => [100]
  | true, _ => [1000]

/-- MAC m's link goes down (R199). -/
def Tx.linkDown (t : Tx s0) (m : Nat) : Tx s0 :=
  if t.g 0x4800 m 0x07 == 0 then t
  else
    let t := (((t.macCut m).w 0x4800 m 0x07 0).w 0x4800 m 0x08 0).tally 0x4800 m 0x15
    ((t.flagBit 0x4800 m 0x17 1).macMsg m 0).laneLook

/-- LINK_UP (R223). -/
def execLinkUp (n speed : Nat) (s : State) : Host.Outcome State Fault Refusal :=
  run s fun t =>
    if !s.on 0x4800 n 0x01 || s.g 0x4800 n 0x07 == 1 || !(s.speeds n).contains speed then t
    else
      let t := ((t.w 0x4800 n 0x07 1).w 0x4800 n 0x08 speed).setMac n { s.macSt n with busyUntil := s.clock }
      let t := (t.macMsg n 1).arpGratuitous n
      let t := t.each ((List.range 256).filter (fun i => s.txg i 0x14 == 1)) (fun t i => t.txAsk i)
      t.laneLook

/-- Own rule of 0x4800[m]:02 and :03 (R199). A lane mode sets the speed that the load is held to (R212). -/
def macConfigRule (m sub : Nat) (d : Bytes) (t : Tx s0) : Tx s0 :=
  if t.on 0x4800 m 0x01 then t.status stState
  else (t.w 0x4800 m sub (leNat d)).when (sub == 0x02) (fun t => t.heldLook.showLoad)

/-- Own rule of 0x4800[m]:04: a tag lengthens the frames of the MAC (R199, R212). -/
def vlanRule (m : Nat) (d : Bytes) (t : Tx s0) : Tx s0 := (t.w 0x4800 m 0x04 (leNat d)).heldLook.showLoad

/-- PAUSE_WATCHDOG (R202). -/
def execPauseWatchdog (n : Nat) (s : State) : Host.Outcome State Fault Refusal :=
  run s fun t =>
    let x := s.macSt n
    let wd := usC (s.g 0x4800 n 0x06)
    match x.pauseFrom with
    | none => t
    | some a =>
      if x.pauseUntil < a + wd || s.clock < a + wd then t
      else
        let t := t.setMac n { x with pauseUntil := s.clock, pauseFrom := none, ignoreUntil := s.clock + 10 * wd }
        ((t.tally 0x4800 n 0x14).flagBit 0x4800 n 0x17 2).macMsg n 2

/-- A pause frame of so many quanta arrives (R202): what could start before it has started, and it holds transmission from the end of
a frame under way on. -/
def Tx.pauseFrame (t : Tx s0) (m quanta : Nat) : Tx s0 :=
  let t := t.macRun m
  let s := t.cur
  let x := s.macSt m
  let t := t.tally 0x4800 m 0x13
  if s.clock < x.ignoreUntil then t
  else
    let until_ := s.clock + quanta * 512 * 1000 / max 1 (s.g 0x4800 m 0x08)
    let held := s.clock ≤ x.pauseUntil && x.pauseFrom.any (x.busyUntil ≤ ·)
    let from_ := if quanta == 0 then none else if held then x.pauseFrom else some (max s.clock x.busyUntil)
    t.setMac m { x with pauseUntil := until_, pauseFrom := from_ }

/-- Interface m learns an Ethernet address; transmit streams that waited for it start to send (R220, R223). -/
def Tx.arpLearn (t : Tx s0) (m ip : Nat) (mac : Bytes) : Tx s0 :=
  let x := t.cur.macSt m
  let l := x.arp.filter (fun e => e.ip != ip) ++ [⟨ip, mac, t.cur.clock⟩]
  let l := l.drop (l.length - 256)
  let t := (t.setMac m { x with arp := l }).w 0x4F00 m 0x08 l.length
  t.each (t.cur.txServed.filter (fun i => t.cur.txg i 0x14 == 1)) (fun t i =>
    if t.cur.txResolved i then t.txTo i 2 else t)

/-- ARP_RESOLVED (R220): interface n learns the Ethernet address of an IPv4 address. -/
def execArpResolved (n ip mac : Nat) (s : State) : Host.Outcome State Fault Refusal :=
  run s fun t => t.arpLearn n ip (beBytes 6 mac)

/-- Streams of MAC m whose destination is no longer resolved go back to RESOLVING. -/
def Tx.txRecheck (t : Tx s0) (m : Nat) : Tx s0 :=
  t.each (t.cur.txServed.filter (fun i => (t.cur.txPaths i).any (fun p => p.1 == m))) (fun t i =>
    if t.cur.txResolved i then t else (t.txTo i 1).txAsk i)

/-- ARP_AGE_OUT (R223): an entry of interface n that is 300 s old goes. -/
def execArpAgeOut (n ip : Nat) (s : State) : Host.Outcome State Fault Refusal :=
  run s fun t =>
    let x := s.macSt n
    if x.arp.any (fun e => e.ip == ip && e.at_ + secC 300 ≤ s.clock) then
      let l := x.arp.filter (fun e => e.ip != ip)
      ((t.setMac n { x with arp := l }).w 0x4F00 n 0x08 l.length).txRecheck n
    else t

/-- ARP_FAIL (R230): a destination of a transmit stream on MAC n has stayed unresolved for 3 s. -/
def execArpFail (n : Nat) (s : State) : Host.Outcome State Fault Refusal :=
  run s fun t =>
    if s.txServed.any (fun i => s.txg i 0x14 == 1 && (s.tx i).since + secC 3 ≤ s.clock &&
        (s.txPaths i).any (fun p => p.1 == n && (s.dstMac p.1 p.2).isNone)) then t.flagBit 0x4F00 n 0x0C 0
    else t

/-- IGMP_REPORT (R223): the second unsolicited report of a join. -/
def execIgmpReport (n group : Nat) (s : State) : Host.Outcome State Fault Refusal :=
  run s fun t =>
    let x := s.macSt n
    if x.reports.any (fun r => r.1 == group && r.2 ≤ s.clock) then
      (t.setMac n { x with reports := x.reports.filter (fun r => r.1 != group) }).when
        ((s.groups n).contains group) (fun t => t.igmpSend n group 1)
    else t

/-- IGMP_V2_FALLBACK_END (R223). -/
def execIgmpV2FallbackEnd (n : Nat) (s : State) : Host.Outcome State Fault Refusal :=
  run s fun t =>
    let x := s.macSt n
    match x.v2Until with
    | some c => if c ≤ s.clock then t.setMac n { x with v2Until := none } else t
    | none => t

/-- Own rule of 0x4F00[m]:01 (R223). -/
def addressRule (m : Nat) (d : Bytes) (t : Tx s0) : Tx s0 :=
  let t := t.w 0x4F00 m 0x01 (leNat d)
  let t := (t.setMac m { t.cur.macSt m with arp := [] }).w 0x4F00 m 0x08 0
  let t := t.arpGratuitous m
  let t := t.each (t.cur.groups m) (fun t g => t.igmpJoin m g)
  t.each (t.cur.txServed.filter (fun i => (t.cur.txPaths i).any (fun p => p.1 == m))) (fun t i =>
    let t := t.txTo i 1
    if t.cur.txResolved i then t.txTo i 2 else t.txAsk i)

/-- ADDRESS_WRITE (R223): write of 0x4F00[m]:01. -/
def execAddressWrite (h n : Nat) (d : Bytes) (s : State) : Host.Outcome State Fault Refusal :=
  run s fun t => t.guarded h (opOf 0x4F00 n 0x01 d) (addressRule n d)

/-! ## Frames received (R200, R201) -/

/-- Ethernet group addresses in the multicast filter of MAC m: the groups joined, the all-hosts group of IGMP queries,
the PTP groups of IEEE 802.3 where PTP uses it, and the address of MAC control frames. -/
def State.filter (s : State) (m : Nat) : List Bytes :=
  let l2 := if s.ptpMac m && s.g 0x5001 0 0x07 == 1 then [beBytes 6 0x011B19000000, beBytes 6 0x0180C200000E] else []
  (s.groups m).map groupMac ++ [groupMac 0xE0000001, beBytes 6 0x0180C2000001] ++ l2

/-- A frame is accepted, with its timestamp (R201, R245). -/
def Tx.accept (t : Tx s0) (m : Nat) : Tx s0 := (t.tally 0x4800 m 0x0A).inc 0x5010 m 0x03 1

/-- A frame is dropped and counted (R200). -/
def Tx.frameDrop (t : Tx s0) (m sub : Nat) : Tx s0 := (t.tally 0x4800 m sub).flagBit 0x4800 m 0x17 0

/-- Whether an IPv4 packet passes check 7 of Table 8.2: its length field is no part of it. -/
def ipv4Ok (p : Bytes) : Bool :=
  fieldBE p 0 1 == 0x45 && onesSum (p.take 20) 0 == 65535 && fieldBE p 6 2 % 2 ^ 14 == 0

/-- Stream and path that a UDP datagram on MAC m belongs to (Table 8.3 row 2). -/
def State.streamOf (s : State) (m src dst port : Nat) : Option (Nat × Nat) :=
  ((s.listed 0x4A00 0x01).filter (fun i => s.on 0x4A00 i 0x01 && s.rxg i 0x06 == port)).findSome? (fun i =>
    ((s.rxPaths i).zip [1, 2]).findSome? (fun (p, k) =>
      if p.1 == m && p.2.1 == dst && (p.2.2 == 0 || p.2.2 == src) then some (i, k) else none))

/-- Firmware handles an ARP packet on interface m (R223). -/
def Tx.arpFrame (t : Tx s0) (m : Nat) (p : Bytes) : Tx s0 :=
  let s := t.cur
  let op := fieldBE p 6 2
  let sha := slice p 8 6
  let spa := fieldBE p 14 4
  let tpa := fieldBE p 24 4
  let ip := s.ip m
  if ip == 0 || p.length < 28 then t
  else if spa == ip && sha != s.macAddr m then (t.tally 0x4F00 m 0x0A).flagBit 0x4F00 m 0x0C 2
  else if tpa != ip && !(s.macSt m).arp.any (fun e => e.ip == spa) then t
  else
    let t := t.arpLearn m spa sha
    t.when (op == 1 && tpa == ip) (fun t => t.sendFrame m (s.ethFrame m sha 0x0806 (arpPacket 2 (s.macAddr m) ip sha spa)))

/-- Firmware handles an ICMP message: echo requests are answered at up to 100 per second (R223), whatever their destination address and
also while the interface has none (DESIGN CHOICE; assumption 69). -/
def Tx.icmpFrame (t : Tx s0) (m : Nat) (src : Bytes) (from_ : Nat) (p : Bytes) : Tx s0 :=
  let s := t.cur
  let x := s.macSt m
  let sec := s.ns / 1000000000
  let n := if x.echoSec == sec then x.echoes else 0
  if fieldBE p 0 1 != 8 || !s.on 0x4F00 m 0x07 || 100 ≤ n || inetSum p != 0 then t
  else
    let body (sum : Nat) : Bytes := [0, 0] ++ beBytes 2 sum ++ p.drop 4
    let t := (t.setMac m { x with echoSec := sec, echoes := n + 1 }).tally 0x4F00 m 0x0B
    t.sendFrame m (s.ethFrame m src 0x0800 (ipv4 1 (s.ip m) from_ 64 0 (body (inetSum (body 0)))))

/-- Firmware handles an IGMP query (R223): it answers, and an IGMPv2 query makes the interface fall back for the
compatibility time of RFC 3376, 260 s. -/
def Tx.igmpFrame (t : Tx s0) (m : Nat) (p : Bytes) : Tx s0 :=
  if fieldBE p 0 1 != 0x11 || inetSum p != 0 then t
  else
    let v2 := p.length < 12
    let t := t.when (v2 && t.g 0x4F00 m 0x04 == 0) (fun t =>
      (t.setMac m { t.cur.macSt m with v2Until := some (t.cur.clock + secC 260) }).flagBit 0x4F00 m 0x0C 1)
    let group := fieldBE p 4 4
    t.each ((t.cur.groups m).filter (fun g => group == 0 || g == group)) (fun t g => t.igmpSend m g 0)

/-- Firmware handles a frame of ring 3: ARP, ICMP or IGMP (R223). -/
def Tx.handle3 (t : Tx s0) (m : Nat) (f : Bytes) : Tx s0 :=
  let o := if fieldBE f 12 2 == 0x8100 then 4 else 0
  let p := (f.take (f.length - 4)).drop (14 + o)
  let body := (p.take (fieldBE p 2 2)).drop 20
  if fieldBE f (12 + o) 2 == 0x0806 then t.arpFrame m p
  else if fieldBE p 9 1 == 1 then t.icmpFrame m (slice f 6 6) (fieldBE p 12 4) body
  else t.igmpFrame m body

/-- Firmware drains ring 3; in reset it does not (R461). -/
def Tx.ring3Drain : Nat → Tx s0 → Tx s0
  | 0, t => t
  | n + 1, t =>
    match mget [] t.cur.net.rings 3 with
    | f :: _ => ((t.ringPop 3).handle3 f.mac f.bytes).ring3Drain n
    | [] => t

/-- Ring 3 takes a frame, which firmware handles at once unless it is in reset. -/
def Tx.ring3 (t : Tx s0) (m ns : Nat) (f : Bytes) : Tx s0 :=
  let t := (t.toRing 3 m ns f).2
  if t.cur.ctl.down then t else t.ring3Drain 256

/-- An accepted IPv4 frame goes to its destination (Table 8.3). Row 5 stands only while the Sprinkler has a role, and a frame of row 7 is
counted in :11 alone (DESIGN CHOICE; assumption 69). -/
def Tx.ipFrame (t : Tx s0) (m ns : Nat) (p f : Bytes) : Tx s0 :=
  let s := t.cur
  let len := fieldBE p 2 2
  let proto := fieldBE p 9 1
  let from_ := fieldBE p 12 4
  let dst4 := fieldBE p 16 4
  let body := (p.take len).drop 20
  let port := fieldBE body 2 2
  let data := (body.take (fieldBE body 4 2)).drop 8
  let acc := fun (t : Tx s0) => t.accept m
  if proto == 17 && 8 ≤ body.length then
    match if m < 4 then s.streamOf m from_ dst4 port else none with
    | some (i, k) => (acc t).mediaPacket i k ns data
    | none =>
      if port == 319 || port == 320 then ((acc t).toRing 0 m ns f).2.ptpDrain
      else if s.on 0x4F00 m 0x05 && port == s.g 0x4F00 m 0x06 then ((acc t).toRing 1 m ns f).2
      else if s.g 0x5400 0 0x02 != 0 && dst4 == s.g 0x5400 0 0x04 && port == s.g 0x5400 0 0x05 then ((acc t).toRing 2 m ns f).2
      else t.frameDrop m 0x11
  else if proto == 1 then (acc t).ring3 m ns f
  else if proto == 2 then (acc t).ring3 m ns f
  else t.frameDrop m 0x11

/-- Whether a frame passes checks 1 to 3 of Table 8.2 on MAC4 or MAC5. -/
def frameWhole (f : Bytes) : Bool :=
  64 ≤ f.length && f.length ≤ 9216 && leNat (f.drop (f.length - 4)) == crc32 (f.take (f.length - 4))

/-- Whether a frame is a magic packet for an address (R203). -/
def isMagic (addr f : Bytes) : Bool :=
  let key := List.replicate 6 0xFF ++ ((List.replicate 16 addr).foldl (· ++ ·) [])
  (List.range f.length).any (fun i => slice f i 102 == key)

/-- Whether a frame matches a wake pattern under its mask; an empty mask matches nothing (R203, Table 8.10), and a frame that ends before
a byte that the mask names matches nothing either (DESIGN CHOICE; assumption 59). -/
def matchesPattern (pat mask f : Bytes) : Bool :=
  mask.any (· != 0) &&
  (List.range 128).all (fun i => !bit (mask.getD (i / 8) 0).toNat (i % 8) || (i < f.length && f.getD i 0 == pat.getD i 0))

/-- Whether a frame is examined in STANDBY on MAC m (R203, R474). -/
def State.examines (s : State) (m : Nat) (f : Bytes) : Bool :=
  bit (s.g 0x6502 0 0x01) 0 && (m == 4 || m == 5) && s.g 0x4800 m 0x18 != 0 && frameWhole f

/-- Whether a frame on MAC m that is examined wakes the block by its magic packet, or by pattern w (R203). -/
def State.wakesMagic (s : State) (m : Nat) (f : Bytes) : Bool :=
  s.examines m f && bit (s.g 0x4800 m 0x18) 0 && isMagic (s.macAddr m) f
def State.wakesPattern (s : State) (m w : Nat) (f : Bytes) : Bool :=
  s.examines m f && bit (s.g 0x4800 m 0x18) (1 + w) && matchesPattern (s.gb 0x4810 w 0x01) (s.gb 0x4810 w 0x02) f

/-- In STANDBY a frame that wakes nothing is examined and counted (0x6502:09); one that does comes with WAKE. -/
def Tx.standbyFrame (t : Tx s0) (m : Nat) (f : Bytes) (err : Bool) : Tx s0 :=
  let s := t.cur
  if err || !s.examines m f || s.wakesMagic m f || (List.range 4).any (fun w => s.wakesPattern m w f) then t
  else t.setPower { s.power with examined := s.power.examined + 1 }

/-- RECEIVE_FRAME (R200, R201): a frame with its FCS on MAC n, with or without an alignment or symbol error, whose
start-of-frame delimiter came when the time counter read `clock`. -/
def execReceiveFrame (n : Nat) (f : Bytes) (err : Bool) (clock : Nat) (s : State) : Host.Outcome State Fault Refusal :=
  if s.power.standby && !s.power.supplyDown then runAlways s (fun t => t.standbyFrame n f err)
  else run s fun t =>
    let t := t.at_ clock
    let s := t.cur
    let ns := s.stampNs n false s.clock
    let body := f.take (f.length - 4)
    let dst := f.take 6
    let e0 := fieldBE f 12 2
    let tagged := e0 == 0x8100
    let vid := fieldBE f 14 2 % 4096
    let e1 := if tagged then fieldBE f 16 2 else e0
    let p := body.drop (if tagged then 18 else 14)
    if !s.on 0x4800 n 0x01 || s.g 0x4800 n 0x07 == 0 then t
    else if err || f.length < 4 || leNat (f.drop (f.length - 4)) != crc32 body then t.frameDrop n 0x0C
    else if f.length < 64 then t.frameDrop n 0x0D
    else if (if n < 4 then 2048 else 9216) < f.length then t.frameDrop n 0x0E
    else if dst != s.macAddr n && dst != macBroadcast && !(s.filter n).contains dst then t.frameDrop n 0x10
    else if tagged && (vid != s.g 0x4800 n 0x04 || e1 == 0x8100 || e1 == 0x88A8) then t.frameDrop n 0x10
    else if !([0x0800, 0x0806, 0x88F7, 0x8808] : List Nat).contains e1 then t.frameDrop n 0x0F
    else if e1 == 0x0800 then
      if ipv4Ok p then t.ipFrame n ns p f else t.frameDrop n 0x12
    else if e1 == 0x8808 then
      if fieldBE p 0 2 == 1 then t.pauseFrame n (fieldBE p 2 2) else t.frameDrop n 0x11
    else if e1 == 0x88F7 then ((t.accept n).toRing 0 n ns f).2.ptpDrain
    else (t.accept n).ring3 n ns f

end Sys2Proof.Machine
end

