-- ==== Sys2Proof/Machine/Signals.lean ====
section
/-! DEFINITION. Signals by their code (R143 to R145, Table 6.2): whether one is good, its sample in the present period,
its input component, and whose partition it lies in. -/

namespace Sys2Proof.Machine
open Sys2Proof

/-- Chain c beside its entries. -/
def State.chainSt (s : State) (c : Nat) : Chain := mget Chain.init s.pool.chains c

/-- Trellis sink j as the output map and the chains see it: computed two periods ago (R151). -/
def State.sinkNow (s : State) (j : Nat) : Int := mget 0 (s.maps.sinks.getD 2 []) j

/-- Whether a signal is good (R144); a chain output is one of those that the description has (R335). -/
def State.signalGood (s : State) (c : Nat) : Bool :=
  match sigKind c with
  | 1 => s.slotGood (sigInst c) (sigChan c)
  | 2 => s.streamGood (sigInst c) (sigChan c)
  | 3 => s.micGood (sigChan c)
  | 4 => true
  | 5 => true
  | 6 => true
  | 7 => s.g 0x5E10 (sigInst c) 0x05 == 3 && sigChan c < fieldLE (s.gb 0x5E10 (sigInst c) 0x02) 7 1
  | _ => false

/-- Sample of a signal in the period under way, at the point Table 6.14 gives it. -/
def State.signal (s : State) (c : Nat) : Int :=
  match sigKind c with
  | 1 => s.slotValue (sigInst c) (sigChan c)
  | 2 => s.streamValue (sigInst c) (sigChan c)
  | 3 => s.micValue (sigChan c)
  | 4 => (renderQ23 (s.renderSample (sigInst c) (s.now - 34))).1
  | 5 => s.corrected (sigInst c)
  | 6 => s.sinkNow (sigInst c)
  | 7 => nth (s.chainSt (sigInst c)).out (sigChan c) 0
  | _ => 0

/-- Input component I of a signal (R145, Table 6.13). -/
def State.inComponent (s : State) (c : Nat) : Nat :=
  match sigKind c with
  | 1 => s.portLatency (sigInst c) 0x0D
  | 2 => s.rxLatency (sigInst c)
  | 3 => micLatency
  | 7 => s.g 0x5E10 (sigInst c) 0x09
  | _ => 0

/-- Whether a signal lies in host h's partition of its class (R149, R159). -/
def State.ownsSignal (s : State) (h c : Nat) : Bool :=
  match sigKind c with
  | 1 => s.owns h 0x06 (sigInst c)
  | 2 => s.owns h 0x09 (sigInst c)
  | 3 => s.owns h 0x07 (sigChan c)
  | 5 => s.owns h 0x02 (sigInst c)
  | 6 => s.owns h 0x03 (sigInst c)
  | 7 => s.owns h 0x0C (sigInst c)
  | _ => true

end Sys2Proof.Machine
end

