-- ==== Sys2Proof/Machine/Maps.lean ====
section
/-! DEFINITION. The input map (R145 to R149), the Trellis (R151 to R156), the output map (R158, R159) and path queries
(R164, R165). -/

namespace Sys2Proof.Machine
open Sys2Proof

variable {s0 : State}

/-! ## Input map -/

/-- Input map of object n. -/
def State.inMap (s : State) (n : Nat) : InMap := mget InMap.init s.maps.ins n
def Tx.setIn (t : Tx s0) (n : Nat) (x : InMap) : Tx s0 :=
  t.setMaps { t.cur.maps with ins := mputD InMap.init n x t.cur.maps.ins }

/-- One sample of a cross-fade, u of 64 (R148). -/
def crossMix (old new : Int) (u : Nat) : Int := ((64 - (u : Int)) * old + u * new + 32) / 64

/-- Own rule of 0x3D00[n]:01 to :04 (R147, R149). -/
def inputMapRule (h n sub : Nat) (d : Bytes) (t : Tx s0) : Tx s0 :=
  let v := leNat d
  if (sub == 0x01 || sub == 0x02) && !t.cur.ownsSignal h v then t.status stNoRight
  else
    let x := t.cur.inMap n
    (t.w 0x3D00 n sub v).setIn n { x with pend := x.pend ++ [(t.cur.now, sub, v)] }

/-- A write lands in the input map. The hold of Table 6.3 counts for a newly named primary from its landing (DESIGN CHOICE;
assumption 81). -/
def InMap.land (x : InMap) (sub v : Nat) : InMap :=
  match sub with
  | 0x01 => { x with prim := v, goodSince := if v == x.prim then x.goodSince else none }
  | 0x02 => { x with sec := v }
  | 0x03 => { x with mode := v }
  | _ => { x with hold := v }

/-- Live source by Table 6.3: 0 primary, 1 secondary, 2 none; `held` that the primary has been good for the return
hold, `mw` that a write of the mode lands. -/
def chooseSource (mode old : Nat) (pg sg held mw : Bool) : Nat :=
  if mode == 2 then 0
  else if mode == 3 then 1
  else if old == 1 then
    if !sg then (if pg then 0 else 2)
    else if pg && ((mode == 0 && held) || (mode == 1 && mw)) then 0
    else 1
  else if pg then 0
  else if sg then 1
  else 2

/-- Code of source 0, 1 or 2. -/
def InMap.codeOf (x : InMap) (src : Nat) : Nat := if src == 0 then x.prim else if src == 1 then x.sec else 0

/-- Skew of an object (R145). -/
def State.skew (s : State) (n : Nat) : Int :=
  (s.inComponent (s.inMap n).sec : Int) - s.inComponent (s.inMap n).prim

/-- Steps 3 and 4 of R147 for object n at boundary B: choice, cross-fade and flags (R148). A forced secondary leaves no
failed primary. R28 asks for a flag of a link offset beyond the Furrow's depth, for which Table 6.5 has no bit: none is set
(DESIGN CHOICE; assumption 81). 0x3D00[n]:05 shows the live source from the boundary at which it changes, with or without a
cross-fade (DESIGN CHOICE; assumption 64). -/
def Tx.inChoose (t : Tx s0) (n B : Nat) (x : InMap) (pg sg mw : Bool) : Tx s0 :=
  let held := match x.goodSince with
    | some a => a + x.hold ≤ B
    | none => false
  let new := chooseSource x.mode x.live pg sg held mw
  let code := x.codeOf new
  if code == x.code then (t.setIn n { x with live := new }).w 0x3D00 n 0x05 new
  else
    let fail := x.live == 0 && new != 0 && !pg && x.mode != 3
    let back := new == 0 && x.live != 0 && x.failedOver
    let t := t.setIn n { x with live := new, oldCode := x.code, code := code, xfade := some B,
                                failedOver := (x.failedOver || fail) && !back }
    let t := ((t.w 0x3D00 n 0x05 new).tally 0x3D00 n 0x0B).w 0x3D00 n 0x0C B
    let skew := x.live + new == 1 && 64 < (t.cur.skew n).natAbs
    let flags := b2n fail + 2 * b2n back + 4 * b2n (new == 2) + 8 * b2n skew
    let t := t.when (flags != 0) (fun t => t.flag 0x3D00 n 0x0D flags)
    let t := t.when (fail || new == 2) (fun t => t.freezeOn 4)
    t.msg 8 (leBytes 2 n ++ leBytes 1 new ++ leBytes 1 flags)

/-- The boundary B for object n (R147). -/
def Tx.inBoundary (t : Tx s0) (n B : Nat) : Tx s0 :=
  let x := t.cur.inMap n
  let busy : Bool := match x.xfade with
    | some b => B < b + 64
    | none => false
  let due := if busy then [] else x.pend.filter (fun p => p.1 < B)
  let x := due.foldl (fun x p => x.land p.2.1 p.2.2) x
  let x := if busy then x else { x with pend := x.pend.filter (fun p => !(p.1 < B)) }
  let pg := t.cur.signalGood x.prim
  let sg := t.cur.signalGood x.sec
  let x := { x with goodSince := if pg then some (x.goodSince.getD B) else none }
  let t := (t.w 0x3D00 n 0x06 (b2n !pg)).w 0x3D00 n 0x07 (b2n !sg)
  if busy then t.setIn n x else t.inChoose n B x pg sg (due.any (fun p => p.2.1 == 0x03))

/-- INPUT_MAP_BOUNDARY (R147): after the declarations of the period of a render block boundary. -/
def execInputMapBoundary (s : State) : Host.Outcome State Fault Refusal :=
  run s fun t =>
    if s.engines.running && s.now % 16 == 0 then
      t.each ((s.maps.ins.map (·.1)).filter (fun n => n < s.objects)) (fun t n => t.inBoundary n s.now)
    else t

/-- The declarations up to now count for the return hold (Table 6.3): it starts when the primary is declared good, and a
failure between boundaries breaks it. -/
def Tx.trackGood (t : Tx s0) : Tx s0 :=
  t.each t.cur.maps.ins (fun t p =>
    let good := t.cur.signalGood p.2.prim
    if good == p.2.goodSince.isSome then t
    else t.setIn p.1 { p.2 with goodSince := if good then some t.cur.now else none })

/-- Sample of media time s that the input map delivers to object n (R145, R148). -/
def State.objectSample (st : State) (n s : Nat) : Int :=
  let x := st.inMap n
  match x.xfade with
  | some B =>
    if s < B then st.signal x.oldCode
    else if s < B + 64 then crossMix (st.signal x.oldCode) (st.signal x.code) (s - B + 1)
    else st.signal x.code
  | none => st.signal x.code

/-- Samples of media time s of the available objects that are not zero. -/
def State.objectSamples (st : State) (s : Nat) : List (Nat × Int) :=
  (st.maps.ins.filterMap (fun p =>
    if p.1 < st.objects then
      let x := st.objectSample p.1 s
      if x == 0 then none else some (p.1, x)
    else none))

/-! ## Trellis -/

/-- Live node under key 256 · j + i; an unlisted node has gain 0 and a clear attribute. -/
def nodeInit : Node := ⟨0, false, 0, 0⟩
def State.node (s : State) (k : Nat) : Node := mget nodeInit s.maps.nodes k

/-- Gain of a node for the sample of period m (R154). -/
def Node.at_ (x : Node) (m : Nat) : Nat :=
  if m < x.start then x.old
  else if m - x.start < 63 then
    ((64 * (x.old : Int) + (m - x.start + 1 : Nat) * ((x.gain : Int) - x.old) + 32) / 64).toNat
  else x.gain

/-- A node takes a gain from the sample of period m: as a step, or with its attribute set as a ramp from the gain `prev` of
the sample before (R154). A start of 0 is that of no ramp. -/
def moveNode (prev m gain : Nat) (attr : Bool) : Node :=
  if attr then ⟨gain, true, m, prev⟩ else ⟨gain, false, 0, gain⟩

/-- Bank that a pending commit names (R153, R155), until the last of its values has landed (R432). -/
def State.namedBank (s : State) : Option Nat :=
  s.ctl.commit.bind (fun c => ((mget? (s.host c.host).stage (K 0x3C00 0 0x02)).map leNat).filter (· < 8))

/-- Bank that a pending commit is to load, with t_c (R155). -/
def State.pendingBank (s : State) : Option (Nat × Nat) :=
  match s.ctl.commit with
  | some c => if c.landed then none else s.namedBank.map (fun b => (b, c.tc))
  | none => none

/-- Contents of bank b: by node the word of 0x3C00:0F. -/
def State.bank (s : State) (b : Nat) : List (Nat × Nat) := mget [] s.maps.banks b

/-- Gain and attribute of a row word, and the word. -/
def wordGain (w : Nat) : Nat := w % 2 ^ 24
def wordAttr (w : Nat) : Bool := bit w 31
def nodeWord (gain : Nat) (attr : Bool) : Nat := gain + b2n attr * 2 ^ 31

/-- Load bank b, as a commit for tc names it, for the sample of period m and later ones (R155). A node that still ramps to the gain that the bank gives it goes
on ramping, whatever its incoming attribute (DESIGN CHOICE; assumption 64). -/
def Tx.bankLoad (t : Tx s0) (b tc m : Nat) : Tx s0 :=
  let s := t.cur
  let bk := s.bank b
  let keys := nub (s.maps.nodes.map (·.1) ++ bk.map (·.1))
  let nodes := keys.foldl (fun (l : List (Nat × Node)) k =>
    let w := mget 0 bk k
    let x := s.node k
    let y := if wordGain w == x.gain then { x with attr := wordAttr w } else moveNode (x.at_ (m - 1)) m (wordGain w) (wordAttr w)
    mputD nodeInit k y l) s.maps.nodes
  let t := t.setMaps { s.maps with nodes := nodes }
  let t := ((t.w 0x3C00 0 0x05 b).w 0x3C00 0 0x06 tc).flagBit 0x3C00 0 0x0C 1
  t.msg 9 (leBytes 1 b ++ zeros 3 ++ leBytes 8 tc)

/-- The bank that a pending commit is to load is loaded from sample m on, once (R155); a staged value that equals the one in force lands without
effect (R432). -/
def Tx.bankDue (t : Tx s0) (m : Nat) : Tx s0 :=
  match t.cur.pendingBank, t.cur.ctl.commit with
  | some (b, _), some c =>
    if c.loaded || t.g 0x3C00 0 0x02 == b then t
    else (t.bankLoad b c.tc m).setCtl { t.cur.ctl with commit := some { c with loaded := true } }
  | _, _ => t

/-- One record of a live write is applied for the sample of period m; `before` are the live nodes of the sample before
(R154). -/
def Tx.nodeApply (t : Tx s0) (before : List (Nat × Node)) (m : Nat) (r : Nat × Bool × Bool × Nat) : Tx s0 :=
  let (k, keep, attr, gain) := r
  let x := t.cur.node k
  let t := t.setMaps { t.cur.maps with
    nodes := mputD nodeInit k (moveNode ((mget nodeInit before k).at_ (m - 1)) m gain (if keep then x.attr else attr)) t.cur.maps.nodes }
  t.tally 0x3C00 0 0x09

/-- Exact sum and result of one sink (R151): rounded to Q1.23 and saturated. -/
def sinkRound (sum : Int) : Int × Bool := satI 24 ((sum + 2 ^ 19) / 2 ^ 20)

/-- Sinks fed by a node, rising. -/
def State.fedSinks (s : State) : List Nat := sortBy (fun a b => a < b) (nub (s.maps.nodes.map (fun p => p.1 / 256)))

/-- Exact sum of sink j for the sample of period m. -/
def State.sinkSum (s : State) (m j : Nat) : Int :=
  sumI ((s.maps.nodes.filter (fun p => p.1 / 256 == j)).map (fun p =>
    s.signal (s.g 0x3C01 (p.1 % 256) 0x01) * p.2.at_ m))

/-- The Trellis computes the sample of period m (R151, R154, R155). -/
def Tx.trellis (t : Tx s0) (m : Nat) : Tx s0 :=
  let before := t.cur.maps.nodes
  let t := match t.cur.pendingBank with
    | some (_, tc) => if tc ≤ m then t.bankDue m else t
    | none => t
  let t := t.each t.cur.maps.waiting (fun t r => t.nodeApply before m r)
  let s := t.cur
  let rs := s.fedSinks.map (fun j => (j, sinkRound (s.sinkSum m j)))
  let now := (rs.map (fun r => (r.1, r.2.1))).filter (fun r => r.2 != 0)
  let t := t.setMaps { s.maps with waiting := [], sinks := now :: s.maps.sinks.take 2 }
  let t := t.each (rs.filter (fun r => r.2.2)) (fun t r =>
    ((t.tally 0x3C02 r.1 0x04).tally 0x3C00 0 0x0B).flagBit 0x3C00 0 0x0C 0)
  let pk := now.foldl (fun (l : List (Nat × Nat)) r => mputD 0 r.1 (max (mget 0 l r.1) r.2.natAbs) l) t.cur.maps.sinkPeak
  let t := t.setMaps { t.cur.maps with sinkPeak := pk }
  if m % 16 != 15 then t
  else
    let old := t.cur.listed 0x3C02 0x03
    let t := t.each (nub (old ++ pk.map (·.1))) (fun t j => t.w 0x3C02 j 0x03 (levelDb (mget 0 pk j) (2 ^ 23)))
    t.setMaps { t.cur.maps with sinkPeak := [] }

/-- TRELLIS_SOURCE_WRITE (R152): write of 0x3C01[n]:01. -/
def execTrellisSourceWrite (h n : Nat) (d : Bytes) (s : State) : Host.Outcome State Fault Refusal :=
  run s fun t => t.guarded h (opOf 0x3C01 n 0x01 d) (fun t => t.w 0x3C01 n 0x01 (leNat d))

/-- A node write is refused (R153). -/
def Tx.nodeRefuse (t : Tx s0) (st : Nat) : Tx s0 := ((t.tally 0x3C00 0 0x0A).flagBit 0x3C00 0 0x0C 2).status st

/-- One record of a node write (Table 6.7): source, sink, target, flags, gain. -/
structure NodeRec where
  src : Nat
  sink : Nat
  target : Nat
  flags : Nat
  gain : Nat
  deriving DecidableEq, Repr

/-- Read a record. -/
def nodeRec (r : Bytes) : NodeRec := ⟨fieldLE r 0 1, fieldLE r 1 1, fieldLE r 2 1, fieldLE r 3 1, fieldLE r 4 4⟩

/-- Check 2 of R153 for one record. -/
def State.nodeCheck (s : State) (h : Nat) (r : NodeRec) : Nat :=
  if !(r.target < 8 || r.target == 0xFF) || 4 ≤ r.flags || 0x00FFFFFF < r.gain then stOutOfRange
  else if !s.owns h 0x03 r.sink || (r.target != 0xFF && h != 0) then stNoRight
  else if s.namedBank == some r.target then stBusy
  else stOK

/-- Own rule of 0x3C00:01 (R153 to R155). -/
def nodeRule (h : Nat) (d : Bytes) (t : Tx s0) : Tx s0 :=
  if d.length % 8 != 0 || d.length == 0 then t.nodeRefuse stBadType
  else
    let rs := (chunks 8 d).map nodeRec
    match (rs.map (t.cur.nodeCheck h)).find? (· != stOK) with
    | some st => t.nodeRefuse st
    | none =>
      t.each rs (fun t r =>
        let k := 256 * r.sink + r.src
        let keep := bit r.flags 1
        let m := t.cur.maps
        if r.target == 0xFF then t.setMaps { m with waiting := m.waiting ++ [(k, keep, bit r.flags 0, r.gain)] }
        else
          let bk := t.cur.bank r.target
          let attr := if keep then wordAttr (mget 0 bk k) else bit r.flags 0
          t.setMaps { m with banks := mputD [] r.target (mputD 0 k (nodeWord r.gain attr) bk) m.banks })

/-- NODE_WRITE (R153): write of 0x3C00:01. -/
def execNodeWrite (h : Nat) (d : Bytes) (s : State) : Host.Outcome State Fault Refusal :=
  run s fun t => t.guardedBad h (opOf 0x3C00 0 0x01 d) (fun t => t.nodeRefuse stBadType) (nodeRule h d)

/-- Live targets and attributes as they stand for the first sample computed after now, as row words (R155). -/
def State.liveWords (s : State) : List (Nat × Nat) :=
  let base : List (Nat × Nat) := match s.pendingBank with
    | some (b, tc) =>
      if tc == s.now + 1 && s.engines.running && s.g 0x3C00 0 0x02 != b then s.bank b else s.maps.nodes.map (fun p => (p.1, nodeWord p.2.gain p.2.attr))
    | none => s.maps.nodes.map (fun p => (p.1, nodeWord p.2.gain p.2.attr))
  let base := base.filter (fun p => p.2 != 0)
  s.maps.waiting.foldl (fun l r =>
    let (k, keep, attr, gain) := r
    mputD 0 k (nodeWord gain (if keep then wordAttr (mget 0 l k) else attr)) l) base

/-- Own rule of 0x3C00:03 and :04 (R155). -/
def bankRule (sub : Nat) (d : Bytes) (t : Tx s0) : Tx s0 :=
  let b := leNat d
  if t.cur.namedBank == some b then t.status stBusy
  else
    let w := if sub == 0x03 then t.cur.liveWords else []
    t.setMaps { t.cur.maps with banks := mputD [] b w t.cur.maps.banks }

/-- BANK_CAPTURE and BANK_CLEAR (R155): writes of 0x3C00:03 and :04. -/
def execBankCapture (h : Nat) (d : Bytes) (s : State) : Host.Outcome State Fault Refusal :=
  run s fun t => t.guarded h (opOf 0x3C00 0 0x03 d) (bankRule 0x03 d)
def execBankClear (h : Nat) (d : Bytes) (s : State) : Host.Outcome State Fault Refusal :=
  run s fun t => t.guarded h (opOf 0x3C00 0 0x04 d) (bankRule 0x04 d)

/-- Own rule of 0x3C00:0D and :0E, which each session holds for itself (R157). -/
def rowRule (h sub : Nat) (d : Bytes) (t : Tx s0) : Tx s0 :=
  let m := t.cur.maps
  if sub == 0x0D then t.setMaps { m with rowSel := mputD 0 h (leNat d) m.rowSel }
  else t.setMaps { m with rowOrg := mputD 0xFF h (leNat d) m.rowOrg }

/-- Row that host h has selected (0x3C00:0F). -/
def State.rowBytes (s : State) (h : Nat) : Bytes :=
  let j := mget 0 s.maps.rowSel h
  let o := mget 0xFF s.maps.rowOrg h
  let set := if o == 0xFF then s.liveWords else s.bank o
  (List.range 256).foldl (fun a i => a ++ leBytes 4 (mget 0 set (256 * j + i))) []

/-- Nodes ramping (0x3C00:07), nodes in use (:08), and those of sink j (0x3C02[j]:02). -/
def State.rampsRunning (s : State) : Nat :=
  (s.maps.nodes.filter (fun p => p.2.start != 0 && p.2.start ≤ s.now && s.now < p.2.start + 63)).length
def State.nodesInUse (s : State) : Nat := (s.liveWords.filter (fun p => wordGain p.2 != 0)).length
def State.sinkNodes (s : State) (j : Nat) : Nat :=
  (s.liveWords.filter (fun p => p.1 / 256 == j && wordGain p.2 != 0)).length

/-! ## Output map -/

/-- Output map of destination d. -/
def State.dest (s : State) (d : Nat) : OutDest := mget OutDest.init s.maps.dests d
def Tx.setDest (t : Tx s0) (d : Nat) (x : OutDest) : Tx s0 :=
  t.setMaps { t.cur.maps with dests := mputD OutDest.init d x t.cur.maps.dests }

/-- A destination with its waiting write landed, if media time m has reached its boundary (R159). A write that names the signal in
force starts no cross-fade (DESIGN CHOICE; assumption 64). -/
def OutDest.at_ (x : OutDest) (m : Nat) : OutDest :=
  match x.pend with
  | some (v, L) =>
    if m < L then x
    else if v == x.code then { x with pend := none }
    else { code := v, xfade := some L, oldCode := x.code, pend := none }
  | none => x

/-- The waiting write of destination d lands if its boundary has come, and 0x3E00[d]:02 shows it (R159, R160). -/
def Tx.destLands (t : Tx s0) (d : Nat) : Tx s0 :=
  let x := (t.cur.dest d).at_ t.cur.now
  if x == t.cur.dest d then t else (t.setDest d x).w 0x3E00 d 0x02 x.code

/-- Own rule of 0x3E00[d]:01 (R159). -/
def outputMapRule (h d : Nat) (data : Bytes) (t : Tx s0) : Tx s0 :=
  let v := leNat data
  let a := t.cur.now
  if !t.cur.ownsSignal h v then t.status stNoRight
  else
    let t := t.destLands d
    let x := t.cur.dest d
    let L := match x.xfade with
      | some b => if a < b + 64 then max (nextBlock a) (b + 64) else nextBlock a
      | none => nextBlock a
    ((t.setDest d { x with pend := some (v, L) }).w 0x3E00 d 0x01 v).w 0x3E00 d 0x03 L

/-- OUTPUT_MAP_WRITE (R159): write of 0x3E00[n]:01. -/
def execOutputMapWrite (h n : Nat) (d : Bytes) (s : State) : Host.Outcome State Fault Refusal :=
  run s fun t => t.guarded h (opOf 0x3E00 n 0x01 d) (outputMapRule h n d)

/-- OUTPUT_MAP_LANDS (R159): writes whose boundary has come are in force and reported. -/
def execOutputMapLands (s : State) : Host.Outcome State Fault Refusal :=
  run s fun t =>
    t.each s.maps.dests (fun t p => t.destLands p.1)

/-- Transmit stream that carries channel c (R218). -/
def State.txOf (s : State) (c : Nat) : Option Nat :=
  s.txServed.find? (fun i => s.txg i 0x0D ≤ c && c < s.txg i 0x0D + s.txChans i)

/-- Whether destination d is available (R158). R158 does not say whether a channel or port that is HELD or STOPPED counts as
configured: the channel does not, the port does (DESIGN CHOICE; assumption 64). -/
def State.destAvailable (s : State) (d : Nat) : Bool :=
  if d < 512 then s.on 0x4000 (d / 16) 0x01 && d % 16 < s.portSlots (d / 16)
  else if d < 1536 then (s.fA == 48000 || d < 1024) && (s.txOf (d - 512)).isSome
  else s.on 0x5800 (d - 1536) 0x01

/-- Output component O of destination d (Table 6.13, R218). -/
def State.outComponent (s : State) (d : Nat) : Nat :=
  if d < 512 then s.portLatency (d / 16) 0x0E
  else if d < 1536 then
    match s.txOf (d - 512) with
    | some i => (match s.rateDomain (s.txRate i) with
      | 0 => 2
      | 1 => 2 + s.kB
      | _ => 66)
    | none => 2
  else 2

/-- Sample that the map presents to destination d in period m, before the ramp of all destinations. -/
def State.destSample (s : State) (d m : Nat) : Int :=
  let x := (s.dest d).at_ m
  match x.xfade with
  | some B => if m < B + 64 then crossMix (s.signal x.oldCode) (s.signal x.code) (m - B + 1) else s.signal x.code
  | none => s.signal x.code

/-- Ramp of all destinations at period m (R163, R237): the formulas of R184 and R185. -/
def destRamp (r : Option (Nat × Bool)) (m : Nat) (x : Int) : Int :=
  match r with
  | some (B, true) => if m < B then 0 else if m < B + 64 then rampUp x (m - B) else x
  | some (B, false) => if m < B then x else if m < B + 64 then rampDown x (m - B) else 0
  | none => x

/-- Boundary at which a scheduled retraining begins its stop, if one is due (R393). -/
def State.retrainDue (s : State) : Option Nat :=
  let at_ := s.g 0x6200 0 0x11
  let B := 16 * ceilDiv at_ 16
  if at_ != 0 && s.engines.running && s.engines.rampB.isNone && B ≤ s.now then some B else none

/-- Boundary at which the destinations ramp down for a stop of the engines, where one is under way or due. -/
def State.stopFrom (s : State) : Option Nat := s.engines.rampB.or s.retrainDue

/-- Destinations present zero until the servo has locked, where they are told to wait for it (R239). -/
def State.awaitLock (s : State) : Bool := s.on 0x5000 0 0x10 && !s.time.released

/-- Ramp of all destinations in the present period: the one under way, or from its boundary on the one that the stop of the engines
begins (R163, R237, R393, R473). -/
def State.rampNow (s : State) : Option (Nat × Bool) :=
  match s.stopFrom with
  | some B => if B ≤ s.now then some (B, false) else s.maps.ramp
  | none => s.maps.ramp

/-- The output map presents the samples of period m. -/
def Tx.outputMap (t : Tx s0) (m : Nat) : Tx s0 :=
  let s := t.cur
  let vs := if s.awaitLock then [] else
    s.maps.dests.filterMap (fun p =>
      if s.destAvailable p.1 then
        let v := destRamp s.rampNow m (s.destSample p.1 m)
        if v == 0 then none else some (p.1, v)
      else none)
  let ramp := match s.rampNow with
    | some (B, true) => if B + 63 ≤ m then none else s.rampNow
    | r => r
  t.setMaps { s.maps with present := vs, before := s.maps.present, ramp := ramp }

/-! ## Path queries (R164, R165) -/

/-- Result of a path query: code, and I, core, Sprig, bulk, Trellis and output components. -/
structure PathResult where
  code : Nat
  i : Nat
  core : Nat
  sprig : Nat
  bulk : Nat
  trellis : Nat
  o : Nat
  deriving DecidableEq, Repr

/-- A path that fails a check. -/
def pathFail (code : Nat) : PathResult := ⟨code, 0, 0, 0, 0, 0, 0⟩

/-- Coded delay of object n's Sprig to output k at the last boundary evaluated. -/
def State.sprigDelay (s : State) (n k : Nat) : Option Nat :=
  match s.geo.last with
  | some B => ((s.targetsAt B).find? (fun p => p.obj == n && p.spk == k)).map (·.delay)
  | none => none

/-- The query of host h evaluated now (R165). -/
def State.pathQuery (s : State) (h : Nat) : PathResult :=
  let d := s.g 0x3F01 h 0x01
  let src := s.g 0x3F01 h 0x02
  let route := s.g 0x3F01 h 0x03
  let n := s.g 0x3F01 h 0x04
  let ts := s.g 0x3F01 h 0x05
  let dst := ((s.dest d).at_ s.now).code
  let carried := if ts < 256 then s.g 0x3C01 ts 0x01 else 0
  let node := wordGain (mget 0 s.liveWords (256 * sigInst dst + ts))
  let fromObj := n < 1024 && (src == (s.inMap n).prim || src == (s.inMap n).sec)
  let I := s.inComponent src
  let O := s.outComponent d
  if !s.destAvailable d then pathFail 4
  else if sigKind dst != (if route == 0 then 5 else 6) then pathFail 1
  else
    match route with
    | 0 =>
      (match (if fromObj then s.sprigDelay n (sigInst dst) else none) with
       | some g => ⟨0, I, 36, g, s.g 0x3800 (sigInst dst) 0x03, 0, O⟩
       | none => pathFail 2)
    | 1 => if carried == src && ts < 256 && node != 0 then ⟨0, I, 0, 0, 0, 2, O⟩ else pathFail 3
    | _ =>
      let kind := if route == 2 then 5 else 4
      if !fromObj then pathFail 2
      else if sigKind carried != kind || 256 ≤ ts then pathFail 3
      else
        match s.sprigDelay n (sigInst carried) with
        | some g =>
          if node == 0 then pathFail 3
          else if route == 2 then ⟨0, I, 36, g, s.g 0x3800 (sigInst carried) 0x03, 2, O⟩
          else ⟨0, I, 32, g, 0, 2, O⟩
        | none => pathFail 2

/-- What 0x3F01[h]:sub reads for :06 to :0E. -/
def State.pathEntry (s : State) (h sub : Nat) : Nat :=
  let r := s.pathQuery h
  match sub with
  | 0x06 => r.code
  | 0x07 => r.i
  | 0x08 => r.core
  | 0x09 => r.sprig
  | 0x0A => r.bulk
  | 0x0B => r.trellis
  | 0x0C => r.o
  | 0x0D => 256 * (r.i + r.core + r.bulk + r.trellis + r.o) + r.sprig
  | _ => s.now

/-- A read of host h's path query is evaluated and its results are stored (R165). -/
def Tx.pathEvaluate (t : Tx s0) (n : Nat) : Tx s0 :=
  let s := t.cur
  t.each (range' 6 9) (fun t sub => t.w 0x3F01 n sub (s.pathEntry n sub))

/-- PATH_QUERY_READ (R165): read of 0x3F01[n]:sub. -/
def execPathQueryRead (h n sub : Nat) (s : State) : Host.Outcome State Fault Refusal :=
  run s fun t =>
    let st := s.readCheck h (opOf 0x3F01 n sub [])
    if st != stOK then t.status st
    else
      let t := t.pathEvaluate n
      match entryOf 0x3F01 n sub with
      | some e => t.reply (leBytes e.ty.size (t.g 0x3F01 n sub))
      | none => t

/-! ## Stop and restart (R149, R156, R163, R237) -/

/-- The engines stop: Trellis ramps end, writes of the maps that wait land, sink and destination histories go. Node writes wait for the
first sample that the Trellis computes (R154). -/
def Tx.mapsStop (t : Tx s0) : Tx s0 :=
  let t := t.each t.cur.maps.dests (fun t p =>
    match p.2.pend with
    | some (v, _) => (t.setDest p.1 ⟨v, none, 0, none⟩).w 0x3E00 p.1 0x02 v
    | none => t.setDest p.1 { p.2 with xfade := none, oldCode := 0 })
  let m := t.cur.maps
  t.setMaps { m with
    sinks := [], sinkPeak := [], present := [], before := [], bridge := [],
    nodes := m.nodes.map (fun p => (p.1, { p.2 with start := 0, old := p.2.gain })),
    ins := m.ins.map (fun p => (p.1, { p.2 with xfade := none, oldCode := 0, goodSince := none,
                                                pend := p.2.pend.map (fun q => (0, q.2)) })) }

/-- After a change of rate every live source is decided afresh, and no object is failed over (R148, R149). -/
def Tx.mapsAfresh (t : Tx s0) : Tx s0 :=
  t.each t.cur.maps.ins (fun t p =>
    let x := p.2.pend.foldl (fun x q => x.land q.2.1 q.2.2) p.2
    let new := chooseSource x.mode 2 (t.cur.signalGood x.prim) (t.cur.signalGood x.sec) false false
    (t.setIn p.1 { x with pend := [], live := new, code := x.codeOf new, failedOver := false }).w 0x3D00 p.1 0x05 new)

/-- The maps start with the persistent settings. -/
def Tx.mapsInit (t : Tx s0) : Tx s0 :=
  let s := t.cur
  let ns := sortBy (fun a b => a < b)
    (nub ([0x01, 0x02, 0x03, 0x04].foldl (fun a sub => a ++ s.listed 0x3D00 sub) []))
  let t := t.each ns (fun t n =>
    t.setIn n { InMap.init with prim := s.g 0x3D00 n 0x01, sec := s.g 0x3D00 n 0x02, mode := s.g 0x3D00 n 0x03,
                                hold := s.g 0x3D00 n 0x04 })
  t.each (s.listed 0x3E00 0x01) (fun t d =>
    (t.setDest d ⟨s.g 0x3E00 d 0x01, none, 0, none⟩).w 0x3E00 d 0x02 (s.g 0x3E00 d 0x01))

end Sys2Proof.Machine
end

