-- ==== Sys2Proof/Machine/Pool.lean ====
section
/-! DEFINITION. The Tending pool and the Rake (R324 to R369): descriptions, placement, runs, kernel packs, event flags,
dispatch and gates. -/

namespace Sys2Proof.Machine
open Sys2Proof

variable {s0 : State}

/-! ## Kernels by identifier -/

/-- Gumadal's public key in ROM (R351, R467; assumption 3). -/
def gumadalKey : Bytes := Config.partBytes 1

/-- Stored pack of slot k, and its body. -/
def State.pack (s : State) (k : Nat) : Bytes := mget [] s.power.packs k
def packBody (d : Bytes) : Bytes := slice d 64 (fieldLE d 12 4)

/-- Identifier of kernel i of a pack's body. -/
def packId (body : Bytes) (i : Nat) : Nat := 0x8000 + nth (Config.packKernel body i) 0 0 % 0x7FFF

/-- Identifiers that a pack adds. -/
def packIds (d : Bytes) : List Nat := (List.range (fieldLE d 6 2)).map (packId (packBody d))

/-- Pack body and kernel number behind an identifier, from the valid packs (R353). -/
def State.packKern (s : State) (id : Nat) : Option (Bytes × Nat) :=
  ((List.range 8).filter (fun k => s.g 0x5E30 k 0x03 == 1)).findSome? (fun k =>
    (findIdxFrom (fun i => i == id) (packIds (s.pack k)) 0).map (fun i => (packBody (s.pack k), i)))

/-- Field j of a pack kernel's directory entry. -/
def packField (p : Bytes × Nat) (j : Nat) : Nat := nth (Config.packKernel p.1 p.2) j 0

/-- Whether a kernel is available to descriptions (R336). -/
def State.kernKnown (s : State) (id : Nat) : Bool := romKernels.contains id || (s.packKern id).isSome

/-- Whether its form is kept. -/
def State.kernForm (s : State) (id ni no : Nat) (par : Bytes) : Bool :=
  match s.packKern id with
  | some p => ni == packField p 2 && no == packField p 3
  | none => formOk id ni no par

/-- Whether its parameters are in order. -/
def State.kernPar (s : State) (id ni b : Nat) (par : Bytes) : Bool :=
  match s.packKern id with
  | some p => par.length == packField p 4 && Config.packParOk p.1 p.2 par
  | none => parOk id ni b par

/-- Twice its cycles per sample. -/
def State.kernCycles (s : State) (id ni : Nat) (par : Bytes) (paired : Bool) : Nat :=
  match s.packKern id with
  | some p => packField p (if paired then 6 else 5)
  | none => let c := cycles2 id ni s.fA par; if paired then c.2 else c.1

/-- Its code, X and Y bytes. -/
def State.kernMemory (s : State) (id ni b : Nat) (par : Bytes) : Nat × Nat × Nat :=
  match s.packKern id with
  | some p => (packField p 7, packField p 8, packField p 9)
  | none => kernBytes id ni b par

/-- Its latency. -/
def State.kernDelay (s : State) (id : Nat) (par : Bytes) : Nat :=
  match s.packKern id with
  | some p => packField p 10
  | none => kernLatency id par

/-- One run of a kernel; `lost` are the words of its transforms and constants that it cannot read. -/
def State.kernRun (s : State) (id b X no : Nat) (par : Bytes) (lost : KLost) (xs : List (List Int)) (st : KSt) : KOut :=
  match s.packKern id with
  | some p =>
    let r := Config.packRun p.1 p.2 par st.v xs
    let bits := (nth (nth r 2 []) 0 0).toNat
    ⟨(List.range no).map (fun j => (List.range b).map (fun i => (satI 24 ((nth r (3 + j) []).getD i 0)).1)),
     ⟨nth r 0 [], []⟩, (nth r 1 []).map (fun x => byte (unsigned 8 x)), bit bits 1, bit bits 0⟩
  | none => romRun id s.fA b X no par lost xs st

/-- Kernel catalogue (0x5E00:05). -/
def State.catalogue (s : State) : Bytes :=
  let rom := romKernels.map (fun id => leBytes 2 id ++ [0] ++ leBytes 1 (Config.kernelVersion id))
  let packs := ((List.range 8).filter (fun k => s.g 0x5E30 k 0x03 == 1)).map (fun k =>
    ((List.range (fieldLE (s.pack k) 6 2)).map (fun i =>
      let body := packBody (s.pack k)
      leBytes 2 (packId body i) ++ leBytes 1 (k + 1) ++ leBytes 1 (nth (Config.packKernel body i) 1 0))).foldl (· ++ ·) [])
  (rom ++ packs).foldl (· ++ ·) []

/-! ## Descriptions (R334 to R336) -/

/-- A kernel record (Table 12.2); `zero` that its reserved field and paddings are zero. -/
structure Kern where
  id : Nat
  ins : List Nat
  outs : List Nat
  par : Bytes
  zero : Bool
  deriving DecidableEq, Repr

/-- A description (Table 12.1). -/
structure Desc where
  bcode : Nat
  paired : Bool
  prio : Nat
  core : Nat
  ins : Nat
  outs : Nat
  codes : List Nat
  kerns : List Kern
  deriving DecidableEq, Repr

/-- Read n kernel records; none where they run past the end. -/
def readKerns : Nat → Bytes → Option (List Kern)
  | 0, _ => some []
  | n + 1, d =>
    let ni := fieldLE d 2 1
    let no := fieldLE d 3 1
    let P := fieldLE d 4 2
    let o := 8 + up4 (ni + no)
    let e := o + up4 P
    if d.length < 8 || d.length < e then none
    else
      let nums := (slice d 8 (ni + no)).map (·.toNat)
      let zero := fieldLE d 6 2 == 0 && (slice d (8 + ni + no) (o - 8 - ni - no)).all (· == 0) &&
        (slice d (o + P) (e - o - P)).all (· == 0)
      match readKerns n (d.drop e) with
      | some ks => some (⟨fieldLE d 0 2, nums.take ni, nums.drop ni, slice d o P, zero⟩ :: ks)
      | none => none

/-- Read a description; none where it is too short, its length is not the one it gives, or its records run past the
end. -/
def readDesc (d : Bytes) : Option Desc :=
  let I := fieldLE d 6 1
  if d.length < 32 || d.length != fieldLE d 12 4 || d.length < 32 + 4 * I then none
  else
    match readKerns (fieldLE d 8 1) (d.drop (32 + 4 * I)) with
    | some ks =>
      some ⟨fieldLE d 2 1, bit (fieldLE d 3 1) 0, fieldLE d 4 1, fieldLE d 5 1, I, fieldLE d 7 1,
            (List.range I).map (fun i => fieldLE d (32 + 4 * i) 4), ks⟩
    | none => none

/-- Block size b. -/
def Desc.b (x : Desc) : Nat := 16 * 4 ^ x.bcode

/-- A description without kernels. -/
def Desc.none_ : Desc := ⟨0, false, 0, 0xFF, 0, 0, [], []⟩

/-- Description of chain c. -/
def State.desc (s : State) (c : Nat) : Desc := (readDesc (s.gb 0x5E10 c 0x02)).getD Desc.none_

/-- Check 3 of R336. -/
def headerFine (d : Bytes) (x : Desc) : Bool :=
  fieldLE d 0 2 == 1 && x.bcode ≤ 2 && fieldLE d 3 1 ≤ 1 && x.prio ≤ 2 && x.ins ≤ 16 && x.outs ≤ 16 &&
  1 ≤ x.kerns.length && x.kerns.length ≤ 32 && fieldLE d 9 1 ≤ 64 && fieldLE d 10 2 == 0 &&
  (slice d 16 16).all (· == 0) && x.kerns.all (·.zero)

/-- Check 8 of R336 for a kernel, with the buffers written before it (R335). -/
def buffersFine (x : Desc) (intern : Nat) (written : List Nat) (k : Kern) : Bool :=
  k.ins.all (fun n => n < x.ins || written.contains n) &&
  k.outs.all (fun n => ((16 ≤ n && n < 16 + x.outs) || (32 ≤ n && n < 32 + intern)) && !written.contains n) &&
  (nub k.outs).length == k.outs.length

/-- First kernel with a broken buffer rule. -/
def buffersBad (x : Desc) (intern : Nat) : Nat → List Nat → List Kern → Option Nat
  | _, _, [] => none
  | i, w, k :: ks => if buffersFine x intern w k then buffersBad x intern (i + 1) (w ++ k.outs) ks else some i

/-- Checks 3 to 10 of R336 for a session of host h: status, reason and item of the first that fails. -/
def State.descCheck (s : State) (h : Nat) (d : Bytes) (x : Desc) : Option (Nat × Nat × Nat) :=
  let kern := fun (p : Kern → Bool) => findIdxFrom p x.kerns 0
  if !headerFine d x then some (stOutOfRange, 1, 0xFFFF)
  else
    match findIdxFrom (fun c => !sigOk [0x00, 0x06] c) x.codes 0 with
    | some i => some (stOutOfRange, 2, i)
    | none =>
      if x.codes.any (fun c => !s.ownsSignal h c) then some (stNoRight, 0, 0xFFFF)
      else
        match kern (fun k => !s.kernKnown k.id) with
        | some i => some (stOutOfRange, 3, i)
        | none =>
          match kern (fun k => !s.kernForm k.id k.ins.length k.outs.length k.par) with
          | some i => some (stOutOfRange, 4, i)
          | none =>
            match buffersBad x (fieldLE d 9 1) 0 [] x.kerns with
            | some i => some (stOutOfRange, 5, i)
            | none =>
              match kern (fun k => !s.kernPar k.id k.ins.length x.b k.par) with
              | some i => some (stOutOfRange, 6, i)
              | none =>
                if (16 ≤ x.core && x.core != 0xFF) || (x.paired && x.core != 0xFF && x.core % 2 == 1) then
                  some (stOutOfRange, 7, x.core)
                else none

/-- A refusal with OUT_OF_RANGE is recorded (R336). -/
def Tx.chainRefuse (t : Tx s0) (c reason item : Nat) : Tx s0 :=
  (((t.w 0x5E10 c 0x11 reason).w 0x5E10 c 0x12 item).flagBit 0x5E10 c 0x13 0).status stOutOfRange

/-- Cost of a run (R347). -/
def State.costOf (s : State) (x : Desc) : Nat :=
  400 + sumN (x.kerns.map (fun k => 120 + ceilDiv (x.b * s.kernCycles k.id k.ins.length k.par x.paired) 2))

/-- X and Y bytes of a chain; Y with its buffers (R335, R339). -/
def State.xBytes (s : State) (x : Desc) : Nat :=
  sumN (x.kerns.map (fun k => (s.kernMemory k.id k.ins.length x.b k.par).2.1))
def State.yBytes (s : State) (intern : Nat) (x : Desc) : Nat :=
  sumN (x.kerns.map (fun k => (s.kernMemory k.id k.ins.length x.b k.par).2.2)) + 4 * x.b * (x.ins + x.outs + intern)

/-- Internal buffers of chain c. -/
def State.interns (s : State) (c : Nat) : Nat := fieldLE (s.gb 0x5E10 c 0x02) 9 1

/-- Report cost, latency and memory of chain c (R338, R347). -/
def Tx.showChain (t : Tx s0) (c : Nat) : Tx s0 :=
  let s := t.cur
  let x := s.desc c
  let t := (t.w 0x5E10 c 0x08 (s.costOf x)).w 0x5E10 c 0x09
    (2 * x.b + sumN (x.kerns.map (fun k => s.kernDelay k.id k.par)))
  (t.w 0x5E10 c 0x0A (s.xBytes x)).w 0x5E10 c 0x0B (s.yBytes (s.interns c) x)

/-- State of chain c (Table 12.3). -/
def State.chainState (s : State) (c : Nat) : Nat := s.g 0x5E10 c 0x05

/-- Replace the state of chain c beside its entries. -/
def Tx.setChainSt (t : Tx s0) (c : Nat) (x : Chain) : Tx s0 :=
  t.setPool { t.cur.pool with chains := mputD Chain.init c x t.cur.pool.chains }

/-- Own rule of 0x5E10[c]:02 (R336). -/
def descRule (h c : Nat) (d : Bytes) (t : Tx s0) : Tx s0 :=
  if 2 ≤ t.cur.chainState c then t.status stState
  else if 65536 < d.length then t.status stBadType
  else
    match readDesc d with
    | none => t.status stBadType
    | some x =>
      match t.cur.descCheck h d x with
      | some (st, reason, item) => if st == stOutOfRange then t.chainRefuse c reason item else t.status st
      | none =>
        let t := ((t.wb 0x5E10 c 0x02 d).w 0x5E10 c 0x05 1).w 0x5E10 c 0x11 0
        ((t.w 0x5E10 c 0x12 0xFFFF).setChainSt c Chain.init).showChain c

/-- DESCRIPTION_WRITE (R336): write of 0x5E10[n]:02. -/
def execDescriptionWrite (h n : Nat) (d : Bytes) (s : State) : Host.Outcome State Fault Refusal :=
  run s fun t => t.guarded h (opOf 0x5E10 n 0x02 d) (descRule h n d)

/-! ## Placement (R339, R358) -/

/-- Chains placed, rising. -/
def State.placed (s : State) : List Nat := (s.listed 0x5E10 0x07).filter (fun c => s.g 0x5E10 c 0x07 != 0xFFFF)

/-- Core of chain c, the even one of a pair. -/
def State.coreOf (s : State) (c : Nat) : Nat := s.g 0x5E10 c 0x06

/-- Whether chain c runs on core i. -/
def State.runsOn (s : State) (i c : Nat) : Bool := s.coreOf c == i || ((s.desc c).paired && s.coreOf c + 1 == i)

/-- Chains placed on core i. -/
def State.onCore (s : State) (i : Nat) : List Nat := s.placed.filter (s.runsOn i)

/-- Chain share of a core for block size b (R339). -/
def State.chainShare (s : State) (b : Nat) : Nat := 9 * (b * 1000000000 / s.fA) / 10

/-- Program bytes of kernels, those of one identifier once. -/
def State.codeBytes (s : State) (xs : List Desc) : Nat :=
  let ks := xs.foldl (fun a x => a ++ x.kerns.map (fun k => (k.id, (s.kernMemory k.id k.ins.length x.b k.par).1))) []
  (ks.foldl (fun (a : List Nat × Nat) k => if a.1.contains k.1 then a else (k.1 :: a.1, a.2 + k.2)) ([], 0)).2

/-- Memory of core i taken by chains: program, X, Y (R339). -/
def State.coreMemory (s : State) (i : Nat) (cs : List Nat) : Nat × Nat × Nat :=
  let lead := (cs.filter (fun c => s.coreOf c == i)).map s.desc
  (s.codeBytes lead, sumN (lead.map s.xBytes), sumN (cs.map (fun c => s.yBytes (s.interns c) (s.desc c))))

/-- Reason for which chain c does not fit on core i, 0 if it fits (R339). -/
def State.misfit (s : State) (c i : Nat) : Nat :=
  let x := s.desc c
  let cores := if x.paired then [i, i + 1] else [i]
  let there := nub (cores.foldl (fun a j => a ++ s.onCore j) [])
  let xs := there.map s.desc
  let full := fun j =>
    let m := s.coreMemory j (s.onCore j)
    let prog := if j == i then s.codeBytes (((s.onCore j).filter (fun c => s.coreOf c == i)).map s.desc ++ [x]) else m.1
    61440 < prog || 61440 < m.2.1 + (if j == i then s.xBytes x else 0) || 61440 < m.2.2 + s.yBytes (s.interns c) x
  if 240 ≤ s.placed.length then 8
  else if cores.any (fun j => s.chainShare x.b < sumN ((s.onCore j).map (fun c => s.costOf (s.desc c))) + s.costOf x) then 9
  else if cores.any full then 10
  else if xs.any (fun y => y.b != x.b) then 11
  else if xs.any (fun y => y.paired != x.paired) then 12
  else 0

/-- Core that chain c takes, or the reason why there is none (R339). -/
def State.findCore (s : State) (c : Nat) : Nat × Nat :=
  let x := s.desc c
  let cores := if x.core != 0xFF then [x.core] else (List.range 16).filter (fun i => !x.paired || i % 2 == 0)
  match cores.find? (fun i => s.misfit c i == 0) with
  | some i => (i, 0)
  | none => (0xFF, s.misfit c (cores.headD 0))

/-- SRAM bank b takes a power state (0x6510 + b:01); leaving the state on is counted. -/
def Tx.bankTo (t : Tx s0) (b st : Nat) : Tx s0 :=
  let old := t.g (0x6510 + b) 0 0x01
  if old == st then t
  else (t.w (0x6510 + b) 0 0x01 st).when (old == 2) (fun t => t.tally (0x6510 + b) 0 0x02)

/-- Banks of the local memory of the cores, three per core: in retention in IDLE and where no chain is placed (Tables
17.5 and 17.10). -/
def Tx.coreBanks (t : Tx s0) : Tx s0 :=
  let idle := t.g 0x6500 0 0x01 == 2
  t.each (List.range 48) (fun t j =>
    t.bankTo (132 + j) (if idle || (t.cur.onCore (j / 3)).isEmpty then 1 else 2))

/-- Reserved slots that carry a task (R358). -/
def State.tasksOn (s : State) : List Nat := (range' 240 16).filter (fun n => s.g 0x5F10 n 0x01 == 2)

/-- Slots in use (0x5F00:04): those of chains, and those of the Ulikumund's tasks (R345). -/
def Tx.showSlots (t : Tx s0) : Tx s0 := t.w 0x5F00 0 0x04 (t.cur.placed.length + t.cur.tasksOn.length)

/-- Report every core (Table 12.12). -/
def Tx.showCores (t : Tx s0) : Tx s0 :=
  let s := t.cur
  let t := (t.w 0x5E00 0 0x01 s.placed.length).showSlots.coreBanks
  t.each (List.range 16) (fun t i =>
    let cs := s.onCore i
    let b := match cs with
      | c :: _ => (s.desc c).b
      | [] => 0
    let mode := match cs with
      | c :: _ => if (s.desc c).paired then (if s.coreOf c == i then 2 else 3) else 1
      | [] => 0
    let cost := sumN (cs.map (fun c => s.costOf (s.desc c)))
    let m := s.coreMemory i cs
    let t := ((t.w 0x5E01 i 0x01 mode).w 0x5E01 i 0x02 b).w 0x5E01 i 0x03 cs.length
    let t := (t.w 0x5E01 i 0x04 cost).w 0x5E01 i 0x05 (if b == 0 then 0 else s.chainShare b - cost)
    ((t.w 0x5E01 i 0x07 m.1).w 0x5E01 i 0x08 m.2.1).w 0x5E01 i 0x09 m.2.2)

/-- Event flag of a block size (Table 13.2). -/
def Desc.flag (x : Desc) : Nat := x.bcode

/-- Mask of a chain's task (R361). -/
def taskMask (f : Nat) : Bytes := leBytes 16 (2 ^ f)

/-- Place chain c on core i: slot, reports, first run (R339, R340, R358). Parameter writes that a chain has taken stay with it when
it is placed again (R341, R344). -/
def Tx.place (t : Tx s0) (c i : Nat) : Tx s0 :=
  let s := t.cur
  let x := s.desc c
  let used := s.placed.map (fun c => s.g 0x5E10 c 0x07)
  let slot := ((List.range 240).find? (fun n => !used.contains n)).getD 0
  let t := ((t.w 0x5E10 c 0x06 i).w 0x5E10 c 0x07 slot).w 0x5E10 c 0x05 2
  let t := (((t.w 0x5F10 slot 0x01 1).w 0x5F10 slot 0x02 c).w 0x5F10 slot 0x03 i).w 0x5F10 slot 0x04 x.prio
  let t := t.wb 0x5F10 slot 0x05 (taskMask x.flag)
  let y := s.chainSt c
  let t := t.setChainSt c { Chain.init with
    pars := if y.pars.isEmpty then x.kerns.map (·.par) else y.pars, pend := y.pend, ks := x.kerns.map (fun _ => ⟨[], []⟩), firstX := x.b * (ceilDiv s.now x.b + 1) }
  (t.showChain c).showCores

/-- A slot is free: it reads its defaults (R368). -/
def Tx.slotFree (t : Tx s0) (slot : Nat) : Tx s0 :=
  t.each (range' 1 9) (fun t sub =>
    if sub == 0x05 then t.wb 0x5F10 slot 0x05 (zeros 16) else t.w 0x5F10 slot sub (dfltOf (K 0x5F10 slot sub)))

/-- A task of the Ulikumund takes the reserved slot n, or gives it back (R345, R358). Its mask names the internal flag
32 + (n − 240); which others of the flags 3 to 6 and 32 to 63 it names, and its test, are open (assumption 65). -/
def Tx.taskTake (t : Tx s0) (n : Nat) : Tx s0 :=
  let f := t.fresh
  let m := Nat.lor (2 ^ (n - 208)) (Nat.land f.1 (2 ^ 64 - 2 ^ 32 + (2 ^ 7 - 2 ^ 3)))
  let t := ((f.2.w 0x5F10 n 0x01 2).w 0x5F10 n 0x04 3).wb 0x5F10 n 0x05 (leBytes 16 m)
  ((t.w 0x5F10 n 0x06 (f.1 / 2 ^ 64 % 2)).setPool { t.cur.pool with tasks := mdel n t.cur.pool.tasks }).showSlots
def Tx.taskFree (t : Tx s0) (n : Nat) : Tx s0 :=
  ((t.slotFree n).setPool { t.cur.pool with tasks := mdel n t.cur.pool.tasks }).showSlots

/-- Chain c gives back its core, memory and slot and takes a state; only a chain that is HELD keeps its parameters (R341,
R344). -/
def Tx.unplace (t : Tx s0) (c st : Nat) : Tx s0 :=
  let x := t.cur.chainSt c
  let t := t.slotFree (t.g 0x5E10 c 0x07)
  let t := ((t.w 0x5E10 c 0x06 0xFF).w 0x5E10 c 0x07 0xFFFF).w 0x5E10 c 0x05 st
  (t.setChainSt c (if st == 5 then { Chain.init with pars := x.pars, pend := x.pend } else Chain.init)).showCores

/-- Chains without a core are tried: first those of a list, each of which enters HELD with its flag where it no longer fits,
then every other one that is HELD (R344). -/
def Tx.tryHeld (t : Tx s0) (first : List Nat) : Tx s0 :=
  let all := List.range 256
  t.each (all.filter first.contains ++ all.filter (fun c => !first.contains c)) (fun t c =>
    if t.cur.chainState c != 5 then t
    else
      let r := t.cur.findCore c
      if r.2 == 0 then t.place c r.1 else t.when (first.contains c) (fun t => t.flagBit 0x5E10 c 0x13 7))

/-- A chain that is enabled is placed, or refused (R339, R340). -/
def Tx.chainStart (t : Tx s0) (c : Nat) : Tx s0 :=
  let x := t.cur.desc c
  match findIdxFrom (fun (k : Kern) => !t.cur.kernKnown k.id) x.kerns 0 with
  | some i => t.chainRefuse c 3 i
  | none =>
    let r := t.cur.findCore c
    if r.2 != 0 then t.chainRefuse c r.2 (if x.core == 0xFF then 0xFFFF else x.core)
    else ((t.w 0x5E10 c 0x01 1).setChainSt c Chain.init).place c r.1

/-- Own rule of 0x5E10[c]:01 (R340). A chain enabled again while it ramps down starts at the end of the ramp
(assumption 45). -/
def chainRule (c : Nat) (d : Bytes) (t : Tx s0) : Tx s0 :=
  let st := t.cur.chainState c
  let x := t.cur.chainSt c
  if leNat d == 1 then
    if st == 0 then t.status stState
    else if st == 1 then t.chainStart c
    else t.w 0x5E10 c 0x01 1
  else
    let t := t.w 0x5E10 c 0x01 0
    if st == 5 then (t.w 0x5E10 c 0x05 1).setChainSt c Chain.init
    else if st < 2 || x.closing then t
    else t.setChainSt c { x with closing := true, wait := none, ramp := some (false, 0, x.out) }

/-- CHAIN_ENABLE and CHAIN_DISABLE (R340): writes of 0x5E10[n]:01. -/
def execChainEnable (h n : Nat) (d : Bytes) (s : State) : Host.Outcome State Fault Refusal :=
  run s fun t => t.guarded h (opOf 0x5E10 n 0x01 d) (chainRule n d)
def execChainDisable (h n : Nat) (d : Bytes) (s : State) : Host.Outcome State Fault Refusal :=
  run s fun t => t.guarded h (opOf 0x5E10 n 0x01 d) (chainRule n d)

/-- The chain that ramped down stops (R340, R344). -/
def Tx.chainFree (t : Tx s0) (c : Nat) : Tx s0 :=
  let t := (t.unplace c 1).tryHeld []
  if t.on 0x5E10 c 0x01 then (t.w 0x5E10 c 0x01 0).chainStart c else t

/-- CHAIN_RELEASE (R340): the ramp and the run in progress have ended. -/
def execChainRelease (n : Nat) (s : State) : Host.Outcome State Fault Refusal :=
  run s fun t =>
    let x := s.chainSt n
    match x.closing, x.cur, x.ramp with
    | true, none, some (false, i, _) => if i < 64 then t else t.chainFree n
    | _, _, _ => t

/-! ## Parameters (R341) -/

/-- A parameter record: kernel, offset, bytes; `zero` that its zero fields and padding are zero. -/
structure ParRec where
  kern : Nat
  off : Nat
  data : Bytes
  zero : Bool
  deriving DecidableEq, Repr

/-- Read records; none where one runs past the end or more than n are there. -/
def readPars : Nat → Bytes → Option (List ParRec)
  | _, [] => some []
  | 0, _ => none
  | n + 1, d =>
    let L := fieldLE d 4 2
    if d.length < 8 || d.length < 8 + up4 L then none
    else
      let zero := fieldLE d 1 1 == 0 && fieldLE d 6 2 == 0 && (slice d (8 + L) (up4 L - L)).all (· == 0)
      match readPars n (d.drop (8 + up4 L)) with
      | some rs => some (⟨fieldLE d 0 1, fieldLE d 2 2, slice d 8 L, zero⟩ :: rs)
      | none => none

/-- Parameters after a record; none where it reaches outside. -/
def putPar (pars : List Bytes) (r : ParRec) : Option (List Bytes) :=
  match pars[r.kern]? with
  | some p =>
    if p.length < r.off + r.data.length then none
    else some (pars.set r.kern (p.take r.off ++ r.data ++ p.drop (r.off + r.data.length)))
  | none => none

/-- Parameters after a whole write. -/
def putPars (pars : List Bytes) (d : Bytes) : Option (List Bytes) :=
  ((readPars 256 d).getD []).foldl (fun (a : Option (List Bytes)) r => a.bind (fun p => putPar p r)) (some pars)

/-- Own rule of 0x5E10[c]:03 (R341). -/
def parRule (c : Nat) (d : Bytes) (t : Tx s0) : Tx s0 :=
  let s := t.cur
  let x := s.chainSt c
  let k := s.desc c
  if !s.placed.contains c then t.status stState
  else
    match readPars 256 d with
    | none => t.status stBadType
    | some rs =>
      let now := x.pend.foldl (fun p w => (putPars p w).getD p) x.pars
      match putPars now d with
      | none => t.status stOutOfRange
      | some ps =>
        let bad := ((List.range ps.length).zip ps).any (fun p =>
          match k.kerns[p.1]? with
          | some q => !s.kernPar q.id q.ins.length k.b p.2 || !s.kernForm q.id q.ins.length q.outs.length p.2
          | none => true)
        if bad || rs.any (fun r => !r.zero) then t.status stOutOfRange
        else t.setChainSt c { x with pend := x.pend ++ [d] }

/-- PARAMETER_WRITE (R341): write of 0x5E10[n]:03. -/
def execParameterWrite (h n : Nat) (d : Bytes) (s : State) : Host.Outcome State Fault Refusal :=
  run s fun t => t.guarded h (opOf 0x5E10 n 0x03 d) (parRule n d)

/-! ## Event flags, gates and dispatch (R359 to R366) -/

/-- The flag register (R359). -/
def State.flagReg (s : State) : Nat := s.g 0x5F00 0 0x01 + s.g 0x5F00 0 0x02 * 2 ^ 64

/-- Hardware sets latched flags, and a gate consumes them; a set in the same cycle, a host's among them, wins over the
consumption (R363). -/
def Tx.rakeSet (t : Tx s0) (m : Nat) : Tx s0 :=
  (t.flag 0x5F00 0 0x01 (m % 2 ^ 64)).flag 0x5F00 0 0x02 (m / 2 ^ 64)
def Tx.rakeConsume (t : Tx s0) (m : Nat) : Tx s0 :=
  let hosts := (t.cur.cycleOf (K 0x5F00 0 0x03)).set
  (t.w1c 0x5F00 0 0x01 (m % 2 ^ 64)).w1c 0x5F00 0 0x02 (clearBits (m / 2 ^ 64) hosts)

/-- SET_HOST_FLAGS (R363): write of 0x5F00:03, and its own rule. A clear that is accepted after it clears what it set: the
cycle's record of it stands at 0x5F00:03, for gates alone. -/
def hostFlagsRule (d : Bytes) (t : Tx s0) : Tx s0 :=
  (t.cycleTo (K 0x5F00 0 0x03) (·.rise 0 (leNat d))).w 0x5F00 0 0x02 (setFlags (t.g 0x5F00 0 0x02) (leNat d))
def execSetHostFlags (h : Nat) (d : Bytes) (s : State) : Host.Outcome State Fault Refusal :=
  run s fun t => t.guarded h (opOf 0x5F00 0 0x03 d) (hostFlagsRule d)

/-- Flags that a gate may name (R366): 8 to 31 and 64 to 127. -/
def gateFlags : Nat := (2 ^ 32 - 2 ^ 8) + (2 ^ 128 - 2 ^ 64)

/-- Own rule of 0x5F20[c]:01 (R366). -/
def gateRule (c : Nat) (d : Bytes) (t : Tx s0) : Tx s0 :=
  if clearBits (leNat d) gateFlags != 0 then t.status stOutOfRange else t.wb 0x5F20 c 0x01 d

/-- Whether chain c's gate passes (R365), and the flags it found set. -/
def State.gate (s : State) (c : Nat) : Bool × Nat :=
  let G := leNat (s.gb 0x5F20 c 0x01)
  let found := Nat.land s.flagReg G
  (G == 0 || (if s.g 0x5F20 c 0x02 == 0 then found == G else found != 0), found)

/-- Cores that chain c runs on. -/
def State.coresOf (s : State) (c : Nat) : List Nat :=
  let i := s.coreOf c
  if (s.desc c).paired then [i, i + 1] else [i]

/-- A run of chain c is missed (R342; counters 224 to 239 of R487). -/
def Tx.missRun (t : Tx s0) (c : Nat) : Tx s0 :=
  let t := t.each (t.cur.coresOf c) (fun t i => t.counter (224 + i % 16) 1)
  let t := (((t.tally 0x5E10 c 0x0D).tally 0x5E00 0 0x07).flagBit 0x5E10 c 0x13 4).flagBit 0x5E00 0 0x0C 2
  let x := t.cur.chainSt c
  let t := t.setChainSt c { x with missed := x.missed + 1, onTime := 0 }
  if x.missed + 1 < 4 || t.cur.chainState c != 3 || x.closing then t
  else
    let t := (t.w 0x5E10 c 0x05 4).setChainSt c { t.cur.chainSt c with ramp := none }
    (t.flagBit 0x5E10 c 0x13 6).flagBit 0x5E00 0 0x0C 3

/-- Trace message of a run on core i that starts or ends when the counter reads `at_` (Table 18.3). -/
def Tx.runMsg (t : Tx s0) (i c ev bits at_ : Nat) : Tx s0 :=
  t.msgAt at_ (400 + i) (leBytes 2 c ++ leBytes 1 ev ++ leBytes 1 bits)

/-- Whether core i runs no chain. -/
def State.coreIdle (s : State) (i : Nat) : Bool := s.placed.all (fun c => s.coreOf c != i || (s.chainSt c).cur.isNone)

/-- Task of a reserved slot. -/
def State.task (s : State) (n : Nat) : Task := mget Task.init s.pool.tasks n
def Tx.setTask (t : Tx s0) (n : Nat) (x : Task) : Tx s0 :=
  t.setPool { t.cur.pool with tasks := mputD Task.init n x t.cur.pool.tasks }

/-- Counter at which the piece of the Ulikumund's work that core i runs ends; 0 without one. -/
def State.pieceEnd (s : State) (i : Nat) : Nat :=
  maxN (s.pool.tasks.map (fun p => match p.2.piece with
    | some (k, e, _) => if k == i then e else 0
    | none => 0))

/-- Whether task a goes before task b: priority, then the cycle it became ready, then the slot (R364). -/
def State.before (s : State) (a b : Nat) : Bool :=
  let key := fun c => ((s.desc c).prio, ((s.chainSt c).wait.map (·.ready)).getD 0, s.g 0x5E10 c 0x07)
  let x := key a
  let y := key b
  x.1 < y.1 || (x.1 == y.1 && (x.2.1 < y.2.1 || (x.2.1 == y.2.1 && x.2.2 < y.2.2)))

/-- Core i, if idle, takes its next ready chain task, which starts at counter `at_`, or at the end of the piece that the core runs
(R341, R362, R364, R365). An event of this very cycle stays pending. -/
def Tx.dispatch (t : Tx s0) (i at_ : Nat) : Tx s0 :=
  let s := t.cur
  if !s.coreIdle i then t
  else
    match (sortBy s.before (s.placed.filter (fun c => s.coreOf c == i && (s.chainSt c).wait.isSome))).head? with
    | none => t
    | some c =>
      let x := s.chainSt c
      match x.wait with
      | none => t
      | some j =>
        let slot := s.g 0x5E10 c 0x07
        let start := max (max j.ready at_) (maxN ((s.coresOf c).map s.pieceEnd))
        let pars := x.pend.foldl (fun p w => (putPars p w).getD p) x.pars
        let touched := nub (x.pend.foldl (fun a w => a ++ ((readPars 256 w).getD []).map (·.kern)) [])
        let t := t.setChainSt c { x with pars := pars, pend := [], wait := x.next, next := none,
                                         cur := some { j with start := start, touched := touched } }
        let t := ((t.rakeConsume j.gate).tally 0x5F00 0 0x05).counter (240 + (s.desc c).prio % 4) 1
        let t := ((t.inc 0x5F10 slot 0x07 1).w 0x5F10 slot 0x09 s.now).peak 0x5F00 0 0x08 (start - j.ready)
        t.runMsg i c 0 0 start

/-- The latest b samples of every input up to media time X, when the newest held is that of X + 1. -/
def Chain.block (x : Chain) (b n : Nat) : List (List Int) :=
  let cols := ((x.ins.drop 1).take b).reverse
  (List.range n).map (fun i => List.replicate (b - cols.length) 0 ++ cols.map (fun c => nth c i 0))

/-- The event of a block size reaches chain c, whose gate was evaluated with `g` (R338, R361, R362, R365). Where an older block
still waits, the newer one is kept beside it until the cycle has passed. -/
def Tx.release (t : Tx s0) (c X : Nat) (g : Bool × Nat) : Tx s0 :=
  let s := t.cur
  let x := s.chainSt c
  let d := s.desc c
  if X < x.firstX || x.closing then t
  else if !g.1 then
    (((t.inc 0x5F20 c 0x04 1).tally 0x5F00 0 0x07).flagBit 0x5F20 c 0x05 0).flagBit 0x5F00 0 0x09 0
  else
    let j : Job := ⟨X, x.block d.b d.ins, s.clock, 0, false, if s.on 0x5F20 c 0x03 then g.2 else 0, []⟩
    t.setChainSt c (if x.wait.isSome then { x with next := some j } else { x with wait := some j })

/-- Chain c's newer block replaces the older one that still waits, once the cycle of its event has passed: the older is a missed
run (R362). -/
def Tx.coalesce (t : Tx s0) (c : Nat) : Tx s0 :=
  let x := t.cur.chainSt c
  match x.wait, x.next with
  | some j, some k =>
    if t.cur.clock ≤ k.ready then t
    else
      let t := ((t.inc 0x5F10 (t.g 0x5E10 c 0x07) 0x08 1).tally 0x5F00 0 0x06).flagBit 0x5F00 0 0x09 1
      let t := if j.missed then t else t.missRun c
      t.setChainSt c { t.cur.chainSt c with wait := some k, next := none }
  | _, _ => t

/-- A whole second of system time: the occupancy of every bus target and the load of every core over the second before (0x5E01[i]:0A). -/
def Tx.showCoreLoad (t : Tx s0) : Tx s0 :=
  let t := t.showBusLoad.each (List.range 16) (fun t i => t.w 0x5E01 i 0x0A (min 100 (mget 0 t.cur.pool.busy i / 10000000)))
  t.setPool { t.cur.pool with busy := [], second := t.cur.ns / 1000000000 }

/-! ## The Ulikumund's own tasks (R345, R361, R362, R364) -/

/-- What task n has in its view, and whether it is ready (R361). -/
def State.taskView (s : State) (n : Nat) : Nat :=
  Nat.lor ((s.task n).pend % 256) (Nat.lor (Nat.land s.pool.inner (2 ^ 64 - 2 ^ 32)) s.flagReg)
def State.taskReady (s : State) (n : Nat) : Bool :=
  let M := leNat (s.gb 0x5F10 n 0x05)
  let E := Nat.land (s.taskView n) M
  s.g 0x5F10 n 0x01 == 2 && (if s.g 0x5F10 n 0x06 == 0 then E == M else E != 0)

/-- A task's view changes; the cycle in which it becomes ready is noted. -/
def Tx.taskSee (t : Tx s0) (n : Nat) (f : Tx s0 → Tx s0) : Tx s0 :=
  let was := t.cur.taskReady n
  let t := f t
  t.when (!was && t.cur.taskReady n) (fun t => t.setTask n { t.cur.task n with ready := t.cur.clock })

/-- Events of task n that came while they pended, and were not consumed in their cycle, are coalesced (R362). -/
def Tx.taskCoalesce (t : Tx s0) (n : Nat) : Tx s0 :=
  let x := t.cur.task n
  (t.setTask n { x with next := 0 }).each ((List.range 8).filter (bit x.next)) (fun t _ =>
    ((t.inc 0x5F10 n 0x08 1).tally 0x5F00 0 0x06).flagBit 0x5F00 0 0x09 1)

/-- Events reach task n: those that its mask names pend; one that pends already waits beside it until the cycle has passed
(R361, R362). -/
def Tx.taskEvents (t : Tx s0) (n : Nat) (flags : List Nat) : Tx s0 :=
  t.taskSee n (fun t =>
    t.each (flags.filter (bit (leNat (t.cur.gb 0x5F10 n 0x05)))) (fun t b =>
      let x := t.cur.task n
      if bit x.pend b then t.setTask n { x with next := setFlags x.next (2 ^ b), nextAt := t.cur.clock }
      else t.setTask n { x with pend := setFlags x.pend (2 ^ b) }))

/-- Whether a capture waits for its analysis (R310). -/
def State.analysing (s : State) : Bool :=
  match s.meas.run with
  | some r => (match r.caps with
    | c :: _ => decide (c.at_ + r.stim.M + r.stim.gap + 1 ≤ s.now)
    | [] => false)
  | none => false

/-- Work in hand of the three tasks that R345 names: self-alignment on slot 240 (R310), retrospective capture on slot 241 while
the recorder records on after an event (R317), and the analysis of the Measurement inputs on slot 242 (R306). -/
def State.workOf (s : State) (n : Nat) : Bool :=
  match n with
  | 240 => s.analysing
  | 241 => s.g 0x5D80 0 0x06 == 2
  | 242 => (List.range 16).any (fun m => s.g 0x5C10 m 0x0A != 0)
  | _ => false

/-- The Ulikumund sets the internal flags of the mask of a task with work in hand (R359). -/
def Tx.taskHand (t : Tx s0) (n : Nat) : Tx s0 :=
  if !t.cur.workOf n then t
  else t.taskSee n (fun t =>
    let m := Nat.land (leNat (t.cur.gb 0x5F10 n 0x05)) (2 ^ 64 - 2 ^ 32)
    t.setPool { t.cur.pool with inner := setFlags t.cur.pool.inner m })

/-- The recorder's and the microphones' tasks have their slots while these are on (R345). -/
def Tx.tasksHold (t : Tx s0) : Tx s0 :=
  t.each [(241, t.g 0x5D80 0 0x06 != 0), (242, t.cur.workOf 242)] (fun t p =>
    let has := t.g 0x5F10 p.1 0x01 == 2
    if p.2 && !has then t.taskTake p.1 else if !p.2 && has then t.taskFree p.1 else t)

/-- Whether core i may take a piece of the Ulikumund's work: it runs nothing, and no chain on it is released (R345, R364). -/
def State.coreFree (s : State) (i : Nat) : Bool :=
  (s.onCore i).all (fun c => (s.chainSt c).cur.isNone && (s.chainSt c).wait.isNone) && s.pieceEnd i ≤ s.clock

/-- Core on which a piece may run. -/
def State.freeCore (s : State) : Option Nat := (List.range 16).find? s.coreFree

/-- Core i, if it is free, takes the ready reserved task that became ready first: a piece of at most 10,000 cycles starts at
counter `at_`, and what the task's mask names is consumed (R345, R362, R364). How long the piece takes is open
(assumption 65). -/
def Tx.dispatchOwn (t : Tx s0) (i at_ : Nat) : Tx s0 :=
  let s := t.cur
  let waits := s.tasksOn.filter (fun n => s.taskReady n && (s.task n).piece.isNone)
  match (sortBy (fun a b => (s.task a).ready < (s.task b).ready) waits).head? with
  | none => t
  | some n =>
    if !s.coreFree i then t
    else
      let f := t.fresh
      let M := leNat (s.gb 0x5F10 n 0x05)
      let x := s.task n
      let start := max x.ready at_
      let long := f.1 % 10001
      -- an event raised in the cycle of the consumption stays pending
      let t := if start ≤ x.nextAt then f.2 else f.2.taskCoalesce n
      let t := t.setTask n { t.cur.task n with pend := Nat.lor (clearBits x.pend M) (t.cur.task n).next, next := 0,
                                               piece := some (i, start + long, long), ran := x.ran + b2n (s.workOf n) }
      let t := t.setPool { t.cur.pool with inner := clearBits t.cur.pool.inner M }
      let t := t.when (t.cur.taskReady n) (fun t => t.setTask n { t.cur.task n with ready := x.nextAt })
      let t := ((t.inc 0x5E00 0 0x0B 1).tally 0x5F00 0 0x05).counter 243 1
      ((t.inc 0x5F10 n 0x07 1).w 0x5F10 n 0x09 s.now).peak 0x5F00 0 0x08 (start - x.ready)

/-- Pieces that have ended are charged to their cores, and the cycle of a task's or a chain's newer event has passed. -/
def Tx.poolSettle (t : Tx s0) : Tx s0 :=
  let t := t.each ((t.cur.pool.tasks.filter (fun p => p.2.nextAt < t.cur.clock)).map (·.1)) (fun t n => t.taskCoalesce n)
  let t := t.each t.cur.pool.tasks (fun t p =>
    match p.2.piece with
    | some (i, e, n) =>
      if t.cur.clock < e then t
      else
        let q := t.cur.pool
        (t.setTask p.1 { p.2 with piece := none }).setPool
          { q with tasks := mputD Task.init p.1 { p.2 with piece := none } q.tasks, busy := mset i (mget 0 q.busy i + n) q.busy }
    | none => t)
  t.each (t.cur.placed.filter (fun c => (t.cur.chainSt c).next.isSome)) (fun t c => t.coalesce c)

/-! ## Event flags (R360) -/

/-- Whether the present Domain A period contains the instant of event flag n (Table 13.2): a whole second of system time is the
start of a period (R234). -/
def State.flagDue (s : State) (n : Nat) : Bool :=
  match n with
  | 0 => s.now % 16 == 1
  | 1 => s.now % 64 == 1
  | 2 => s.now % 256 == 1
  | 3 => s.now % 256 == 19
  | 4 => s.now % 16 == 13
  | 5 => s.now % 16 == 0
  | 6 => s.now % s.fA == 0
  | _ => false

/-- No event flag is raised while the engines stand for a change of rate, for a step or for IDLE (R360, R473). -/
def State.flagsStand (s : State) : Bool := !s.engines.running && s.engines.cause != 3

/-- Event flags of the present cycle that are not yet raised. -/
def State.flagsNow (s : State) : List Nat :=
  (List.range 7).filter (fun n => s.flagDue n && mget? s.pool.raised n != some s.now)

/-- FLAG_RAISE (R360): event flag n is raised at its instant, and every other flag of the same cycle with it; of the chains of a
block size the gates are evaluated over the register as it stands. Idle cores then take tasks within 32 cycles, or after the piece
of the Ulikumund's work that they run (R364). While the engines stand for a retraining no chain is released. -/
def execFlagRaise (n : Nat) (s : State) : Host.Outcome State Fault Refusal :=
  run s fun t =>
    let due := s.flagsNow
    if s.flagsStand || !due.contains n then t
    else
      let t := t.poolSettle
      let t := t.setPool { t.cur.pool with raised := due.foldl (fun l k => mset k s.now l) t.cur.pool.raised }
      let t := t.when (due.contains 6) (fun t =>
        t.when (t.cur.pool.second != s.ns / 1000000000) Tx.showCoreLoad)
      let cs := if s.engines.running then t.cur.placed.filter (fun c => due.contains (t.cur.desc c).flag) else []
      let t := t.each cs (fun t c => t.release c (s.now - 1) (s.gate c))
      let t := t.tasksHold.each (range' 240 16) (fun t k => (t.taskHand k).taskEvents k due)
      t.each (List.range 16) (fun t i =>
        let (v, t) := t.fresh
        (t.dispatch i (s.clock + v % 33)).dispatchOwn i (s.clock + v % 33))

/-! ## Runs (R338, R342, R343, R349, R350) -/

/-- What a run has computed so far: buffers, kernel states, completion words, result records, and its OR of bits. -/
structure RunAcc where
  bufs : List (Nat × List Int)
  ks : List KSt
  words : Bytes
  res : Bytes
  bits : Nat
  deriving DecidableEq, Repr

/-- What a kernel reads where a word is uncorrectable: zero for that word (R343). -/
def zeroPar (p : Bytes) (w : Nat) : Bytes := p.take (4 * w) ++ ((p.drop (4 * w)).take 4).map (fun _ => 0) ++ p.drop (4 * w + 4)
def zeroBuf (xs : List (List Int)) (n i : Nat) : List (List Int) := xs.set n ((nth xs n []).set i 0)
def zeroWords (bad : List PoolWord) (r : Bytes × List (List Int) × KSt) : Bytes × List (List Int) × KSt :=
  bad.foldl (fun r w =>
    match w with
    | .sample n i => (r.1, zeroBuf r.2.1 n i, r.2.2)
    | .par w => (zeroPar r.1 w, r.2.1, r.2.2)
    | .scalar i => (r.1, r.2.1, { r.2.2 with v := r.2.2.v.set i 0 })
    | .elem n i => (r.1, r.2.1, { r.2.2 with h := zeroBuf r.2.2.h n i })
    | .out _ _ | .const _ | .work _ _ _ _ => r) r

/-- Output blocks as they are read where words of them are uncorrectable (R343). -/
def zeroOuts (bad : List PoolWord) (xs : List (List Int)) : List (List Int) :=
  bad.foldl (fun xs w => match w with
    | .out n i => zeroBuf xs n i
    | .sample _ _ | .par _ | .const _ | .scalar _ | .elem _ _ | .work _ _ _ _ => xs) xs

/-- Words of its transforms and constants that a kernel cannot read. -/
def lostWork (bad : List PoolWord) : KLost :=
  bad.foldl (fun l w => match w with
    | .work k m i im => { l with work := l.work ++ [(k, m, i, im)] }
    | .const i => { l with consts := l.consts ++ [i] }
    | .sample _ _ | .out _ _ | .par _ | .scalar _ | .elem _ _ => l) ⟨[], []⟩

/-- One kernel of a run with the words that it cannot read (R343, R350). -/
def State.runKernel (s : State) (b : Nat) (x : Chain) (j : Job) (bad : List PoolFault) (a : RunAcc) (p : Nat × Kern) :
    RunAcc :=
  let (i, k) := p
  let mine := (bad.filter (fun w => w.kern == i)).map (·.word)
  let r := zeroWords mine (nth x.pars i k.par, k.ins.map (mget [] a.bufs), nth x.ks i ⟨[], []⟩)
  let o := s.kernRun k.id b j.X k.outs.length r.1 (lostWork mine) r.2.1 r.2.2
  let bits := b2n o.ovf + 2 * b2n o.sat + 4 * b2n (j.touched.contains i) + 8 * b2n (!mine.isEmpty)
  let rec_ := if o.res.isEmpty then [] else leBytes 1 i ++ [0] ++ leBytes 2 o.res.length ++ o.res
  { bufs := (k.outs.zip (zeroOuts mine o.outs)).foldl (fun l q => mset q.1 q.2 l) a.bufs, ks := a.ks ++ [o.st],
    words := a.words ++ leBytes 4 (i * 2 ^ 24 + bits), res := a.res ++ rec_, bits := Nat.lor a.bits bits }

/-- A whole run of chain c. -/
def State.runChain (s : State) (c : Nat) (j : Job) (bad : List PoolFault) : RunAcc :=
  let d := s.desc c
  let x := s.chainSt c
  ((List.range d.kerns.length).zip d.kerns).foldl (s.runKernel d.b x j bad)
    ⟨(List.range d.ins).zip j.xs, [], [], [], 0⟩

/-- Cycles of a run are charged to its core: second, release and peak (Table 12.12). -/
def Tx.charge (t : Tx s0) (i X cycles : Nat) : Tx s0 :=
  let p := t.cur.pool
  let old := mget (0, 0) p.release i
  let sum := if old.1 == X then old.2 + cycles else cycles
  (t.setPool { p with release := mset i (X, sum) p.release, busy := mset i (mget 0 p.busy i + cycles) p.busy }).peak
    0x5E01 i 0x06 sum

/-- Chain c completed a run on time (R342, Table 12.3). -/
def Tx.onTime (t : Tx s0) (c : Nat) : Tx s0 :=
  let x := t.cur.chainSt c
  if t.cur.chainState c != 4 || x.closing then t.setChainSt c { x with missed := 0 }
  else if x.onTime + 1 < 16 then t.setChainSt c { x with missed := 0, onTime := x.onTime + 1 }
  else
    let t := t.setChainSt c { x with missed := 0, onTime := 0, ramp := some (true, 0, []) }
    (t.w 0x5E10 c 0x05 3).flagBit 0x5E10 c 0x13 5

/-- Completion words of an aborted run: ECC in every one, and PARAM in those of the kernels that a parameter write touched
(R341, R343). -/
def abortWords (n : Nat) (touched : List Nat) : Bytes :=
  (List.range n).foldl (fun a i => a ++ leBytes 4 (i * 2 ^ 24 + 8 + 4 * b2n (touched.contains i))) []

/-- Bits of an aborted run as a whole (R350). -/
def abortBits (touched : List Nat) : Nat := 8 + 4 * b2n (!touched.isEmpty)

/-- Offset of a word in SRAM region 5, from its core, its memory (0 program, 1 X, 2 Y) and its offset there (Table 14.2). -/
def poolWordAt (core memory off : Nat) : Nat := 0xC000 * core + 0x4000 * memory + off % 0x4000

/-- Uncorrectable words of the memories of core i, or of the odd core beside it, are reported (R343, R380). -/
def Tx.poolBad (t : Tx s0) (i : Nat) (bad : List PoolFault) : Tx s0 :=
  t.each bad (fun t w =>
    let m := match w.word with
      | .par _ | .const _ | .work _ _ _ false => 1
      | .sample _ _ | .out _ _ | .scalar _ | .elem _ _ | .work _ _ _ true => 2
    (t.inc 0x5E00 0 0x0A 1).sramBad 5 (poolWordAt (i + b2n w.odd) m w.off))

/-- Flags of a run's completion bits in the chain status and the pool flags (R350). -/
def Tx.runFlags (t : Tx s0) (c bits : Nat) : Tx s0 :=
  let t := t.when (bit bits 0) (fun t => ((t.tally 0x5E00 0 0x08).flagBit 0x5E10 c 0x13 1).flagBit 0x5E00 0 0x0C 0)
  let t := t.when (bit bits 1) (fun t => ((t.tally 0x5E00 0 0x09).flagBit 0x5E10 c 0x13 2).flagBit 0x5E00 0 0x0C 1)
  t.when (bit bits 3) (fun t => (t.flagBit 0x5E10 c 0x13 3).flagBit 0x5E00 0 0x0C 4)

/-- RUN_COMPLETE (R350): chain n's run ends after so many cycles; `bad` are words read as zero, `abort` an uncorrectable word
of program memory (R343). A run that is aborted is not completed but counts among the runs of its chain and of its cores
(Table 18.1), and no bound holds its cycles (R347). -/
def execRunComplete (n cycles : Nat) (bad : List PoolFault) (abort : Option Nat) (s : State) :
    Host.Outcome State Fault Refusal :=
  run s fun t =>
    let x := s.chainSt n
    match x.cur with
    | none => t
    | some j =>
      let d := s.desc n
      let i := s.coreOf n
      let used := if abort.isSome then cycles else min cycles (s.costOf d)
      let t := t.poolSettle
      let late := j.missed || j.X + 1 + d.b ≤ s.now
      let r := s.runChain n j bad
      let t := match abort with
        | some w =>
          let t := (t.setChainSt n { t.cur.chainSt n with cur := none }).wb 0x5E10 n 0x0F (abortWords d.kerns.length j.touched)
          ((t.poolBad i bad).runFlags n (abortBits j.touched)).sramBad 5 (poolWordAt i 0 w)
        | none =>
          let out := (List.range d.outs).map (fun o => mget [] r.bufs (16 + o))
          let t := t.setChainSt n { t.cur.chainSt n with cur := none, ks := r.ks, outq := if late then x.outq else x.outq ++ [(j.X, out)] }
          let t := ((t.wb 0x5E10 n 0x0F r.words).wb 0x5E10 n 0x10 (r.res.take 16384)).poolBad i bad
          t.runFlags n r.bits
      let t := ((t.inc 0x5E10 n 0x0C 1).inc 0x5E00 0 0x06 (b2n abort.isNone)).w 0x5E10 n 0x0E used
      let t := t.each (s.coresOf n) (fun t i => (t.charge i j.X used).counter (208 + i % 16) 1)
      let t := if (late || abort.isSome) && !j.missed then t.missRun n else if late then t else t.onTime n
      let t := (t.runMsg i n 1 (if abort.isSome then abortBits j.touched else r.bits) (j.start + used)).dispatch i (j.start + used)
      t.each (s.coresOf n) (fun t k => t.dispatchOwn k (j.start + used))

/-- Whether a job has passed its deadline uncounted. -/
def Job.overdue (j : Job) (b now : Nat) : Bool := !j.missed && j.X + 1 + b ≤ now

/-- MISSED_RUN (R342): chain n's run has not completed by its deadline. -/
def execMissedRun (n : Nat) (s : State) : Host.Outcome State Fault Refusal :=
  run s fun t =>
    let x := s.chainSt n
    let b := (s.desc n).b
    match x.cur with
    | some j =>
      if j.overdue b s.now then (t.setChainSt n { x with cur := some { j with missed := true } }).missRun n else t
    | none =>
      match x.wait with
      | some j =>
        if j.overdue b s.now then (t.setChainSt n { x with wait := some { j with missed := true } }).missRun n else t
      | none => t

/-! ## Periods -/

/-- What chain c presents in period m (R338, Table 12.3). -/
def Tx.chainPresent (t : Tx s0) (c m : Nat) : Tx s0 :=
  let s := t.cur
  let x := s.chainSt c
  let d := s.desc c
  let q := x.outq.filter (fun o => m < o.1 + 2 * d.b + 3)
  let blk := q.find? (fun o => o.1 + d.b + 3 ≤ m)
  let vals := (List.range d.outs).map (fun o =>
    match blk with
    | some (X, ys) => (nth ys o []).getD (m - X - d.b - 3) 0
    | none => 0)
  let x := { x with outq := q }
  let first := s.chainState c == 2 && blk.isSome && !x.closing
  let ramp := if first then some (true, 0, []) else x.ramp
  let t := t.when first (fun t => t.w 0x5E10 c 0x05 3)
  let (out, ramp) := match ramp with
    | some (false, i, h) => (if i < 64 then h.map (fun v => rampDown v i) else [], some (false, min 64 (i + 1), h))
    | some (true, i, _) => (vals.map (fun v => rampUp v i), if i < 63 then some (true, i + 1, []) else none)
    | none => (if t.cur.chainState c == 3 then vals else [], none)
  t.setChainSt c { x with out := if out.all (· == 0) then [] else out, ramp := ramp }

/-- Every chain presents its samples at the start of period m. -/
def Tx.chainsPresent (t : Tx s0) (m : Nat) : Tx s0 := t.each t.cur.placed (fun t c => t.chainPresent c m)

/-- The sink samples that the Trellis delivers in this period enter the chains (R338). -/
def Tx.chainsCollect (t : Tx s0) : Tx s0 :=
  t.each t.cur.placed (fun t c =>
    let s := t.cur
    let x := s.chainSt c
    let d := s.desc c
    t.setChainSt c { x with ins := (d.codes.map s.signal :: x.ins).take (d.b + 1) })

/-! ## Kernel packs (R351 to R353) -/

/-- A chain that is not EMPTY or STOPPED uses a kernel of slot k's pack (check 1 of R352). -/
def State.packInUse (s : State) (k : Nat) : Bool :=
  let ids := packIds (s.pack k)
  s.g 0x5E30 k 0x03 == 1 && (List.range 256).any (fun c =>
    2 ≤ s.chainState c && (s.desc c).kerns.any (fun q => ids.contains q.id))

/-- A pack is refused (R352). -/
def Tx.packRefuse (t : Tx s0) (k reason : Nat) : Tx s0 := (t.w 0x5E30 k 0x08 reason).status stOutOfRange

/-- Slot k empties. -/
def Tx.packEmpty (t : Tx s0) (k : Nat) : Tx s0 :=
  let t := t.setPower { t.cur.power with packs := mdel k t.cur.power.packs }
  (((t.w 0x5E30 k 0x03 0).w 0x5E30 k 0x04 0).w 0x5E30 k 0x06 0).wb 0x5E30 k 0x07 (dfltBlob (K 0x5E30 k 0x07))

/-- Own rule of 0x5E30[k]:01 (R352, R353). The old pack goes before the write begins; the floor rises at its end. While a write to
the MRAM goes on no other message is processed (R412); an operation that comes as a command of its own answers BUSY (DESIGN
CHOICE, assumption 84). -/
def packRule (k : Nat) (d : Bytes) (t : Tx s0) : Tx s0 :=
  let s := t.cur
  let B := fieldLE d 12 4
  let n := fieldLE d 6 2
  let others := ((List.range 8).filter (fun j => j != k && s.g 0x5E30 j 0x03 == 1)).foldl (fun a j => a ++ packIds (s.pack j)) []
  if s.power.mram.isSome then t.status stBusy
  else if s.packInUse k then t.status stState
  else if d.length != 160 + B || 524288 < d.length then t.status stBadType
  else if slice d 0 4 != [0x55, 0x4B, 0x50, 0x4B] || fieldLE d 4 2 != 1 || n == 0 || 64 < n then t.packRefuse k 1
  else if slice d 16 48 != sha384 (packBody d) then t.packRefuse k 2
  else if !ecdsaVerify gumadalKey (sha384 (d.take (64 + B))) (d.drop (64 + B)) then t.packRefuse k 3
  else if fieldLE d 8 4 < s.g 0x5E30 k 0x05 then t.packRefuse k 4
  else if (packIds d).any (fun i => romKernels.contains i || others.contains i) then t.packRefuse k 5
  else (t.packEmpty k).mramBegin k d

/-- What was written to the MRAM is in place (R353, R467): a pack is valid and raises its floor; an image makes its slot preferred
and pending. -/
def Tx.mramPut (t : Tx s0) (r : MramRun) : Tx s0 :=
  let d := r.image
  let ver := fieldLE d 8 4
  if r.place < 8 then
    let k := r.place
    let t := t.setPower { t.cur.power with packs := mset k d t.cur.power.packs }
    let t := ((t.w 0x5E30 k 0x03 1).w 0x5E30 k 0x04 ver).w 0x5E30 k 0x05 ver
    (((t.w 0x5E30 k 0x06 (fieldLE d 6 2)).wb 0x5E30 k 0x07 (sha384 (packBody d))).w 0x5E30 k 0x08 0).sysSave
  else
    let i := r.place - 8
    ((((t.setSlot i ⟨d, 3⟩).w 0x6400 0 0x03 i).w 0x6400 0 0x0C 0).w 0x6400 0 0x09 0).sysSave

/-- The write to the MRAM is over: what it found goes into place, and its slot stays empty otherwise. -/
def Tx.mramLand (t : Tx s0) (r : MramRun) : Tx s0 :=
  (t.setPower { t.cur.power with mram := none }).when r.good (fun t => t.mramPut r)

/-- A reset finds a write to the MRAM that has ended, or cuts it short and leaves its slot empty (R353). -/
def Tx.mramCut (t : Tx s0) : Tx s0 :=
  match t.cur.power.mram with
  | none => t
  | some r => if r.ends ≤ t.cur.clock then t.mramLand r else t.setPower { t.cur.power with mram := none }

/-- PACK_WRITE (R352): write of 0x5E30[n]:01. -/
def execPackWrite (h n : Nat) (d : Bytes) (s : State) : Host.Outcome State Fault Refusal :=
  run s fun t => t.guarded h (opOf 0x5E30 n 0x01 d) (packRule n d)

/-- Own rule of 0x5E30[k]:02 (R352). -/
def packEraseRule (k : Nat) (t : Tx s0) : Tx s0 :=
  if t.cur.power.mram.isSome then t.status stBusy
  else if t.cur.packInUse k then t.status stState
  else t.packEmpty k

/-- PACK_ERASE (R352): write of 0x5E30[n]:02. -/
def execPackErase (h n : Nat) (d : Bytes) (s : State) : Host.Outcome State Fault Refusal :=
  run s fun t => t.guarded h (opOf 0x5E30 n 0x02 d) (packEraseRule n)

/-! ## Stop and restart (R344, R360) -/

/-- The engines stop: pending events go; at a change of rate every chain leaves its core, at other stops chains keep
their state, and a run under way is not counted as missed. -/
def Tx.poolStop (t : Tx s0) (rate : Bool) : Tx s0 :=
  let p := t.cur.pool
  let t := t.setPool { p with tasks := p.tasks.map (fun e => (e.1, { e.2 with pend := 0, next := 0 })) }
  t.each t.cur.placed (fun t c =>
    let x := t.cur.chainSt c
    if x.closing && !rate then t.chainFree c
    else if rate then
      let on := t.on 0x5E10 c 0x01
      (t.unplace c (if on then 5 else 1)).when on (fun t => t.setPool { t.cur.pool with again := t.cur.pool.again ++ [c] })
    else
      t.setChainSt c { x with wait := none, next := none, cur := x.cur.map (fun j => { j with missed := true }),
                              ins := [], outq := [], out := [], ramp := none })

/-- The engines restart: chains are placed again in ascending order, or go on with the first block that ends after now. -/
def Tx.poolRestart (t : Tx s0) (rate : Bool) : Tx s0 :=
  if rate then
    let again := t.cur.pool.again ++ t.cur.placed
    let t := t.each t.cur.placed (fun t c => t.unplace c 5)
    let t := t.each (t.cur.listed 0x5E10 0x05) (fun t c => t.showChain c)
    (t.tryHeld again).setPool { (t.tryHeld again).cur.pool with again := [] }
  else
    t.each t.cur.placed (fun t c =>
      let b := (t.cur.desc c).b
      t.setChainSt c { t.cur.chainSt c with firstX := b * (t.cur.now / b + 1) })

end Sys2Proof.Machine
end

