-- ==== Sys2Proof/Machine/Measure.lean ====
section
/-! DEFINITION. The alignment run (R309 to R315) and the retrospective recorder (R316 to R318). -/

namespace Sys2Proof.Machine
open Sys2Proof

variable {s0 : State}

/-! ## Analysis of a capture (R310) -/

/-- Real and imaginary part of bin j of the transform of N values. -/
def dftBin (N j : Nat) (xs : List Int) : Int × Int :=
  let ph (n : Nat) : Int := 2 * X.pi * (j * n % N : Nat) / N
  let ns := (List.range xs.length).zip xs
  (sumI (ns.map (fun p => X.mul p.2 (X.cos (ph p.1)))), -(sumI (ns.map (fun p => X.mul p.2 (X.sin (ph p.1))))))

/-- Energy of values at rate fA from 500 Hz to 2 kHz. -/
def bandEnergy (fA : Nat) (xs : List Int) : Int :=
  let C := xs.length
  sumI (((List.range (C / 2)).filter (fun j => 500 * C ≤ j * fA && j * fA ≤ 2000 * C)).map (fun j =>
    let z := dftBin C j xs
    X.mul z.1 z.1 + X.mul z.2 z.2))

/-- Q1.23 samples as real values. -/
def realQ23 (xs : List Int) : List Int := xs.map (fun x => X.ofRat x (2 ^ 23))

/-- Quotient of complex numbers; zero where the divisor is zero. -/
def cdiv (a b : Int × Int) : Int × Int :=
  let d := X.mul b.1 b.1 + X.mul b.2 b.2
  if d == 0 then (0, 0)
  else (X.div (X.mul a.1 b.1 + X.mul a.2 b.2) d, X.div (X.mul a.2 b.1 - X.mul a.1 b.2) d)

/-- Impulse response from a capture, exactly (R310, step 1): value l by the sweep's correlation, or by the second
period's spectrum over that of P. -/
def Stim.impulseX (x : Stim) (cap : List Int) : List Int :=
  match x.kind with
  | 2 =>
    let w := (List.range x.N).map (fun n => X.mul (X.ofF (x.y n)) (X.exp (-(x.octaves * (x.N - 1 - n : Nat) / x.N))))
    (List.range (x.M + x.gap)).map (fun l => sumI (((cap.drop l).zip w).map (fun p => X.mul p.1 p.2)))
  | 3 =>
    let c := (cap.drop x.N).take x.N
    let P := (List.range x.N).map (fun n => X.ofF (x.y n))
    let qs := x.bins.map (fun j => (j, cdiv (dftBin x.N j c) (dftBin x.N j P)))
    (List.range x.N).map (fun l =>
      sumI (qs.map (fun q =>
        let ph : Int := 2 * X.pi * (q.1 * l % x.N : Nat) / x.N
        2 * (X.mul q.2.1 (X.cos ph) - X.mul q.2.2 (X.sin ph)))) / x.N)
  | _ => []

/-- The same in binary32 for output k on microphone m: the error of the transforms is at most 2^-19 of the largest value
(assumption 26). -/
def Stim.impulse (x : Stim) (k m : Nat) (cap : List Int) : List F32 :=
  let h := x.impulseX cap
  let top := maxN (h.map Int.natAbs)
  ((List.range h.length).zip h).map (fun p =>
    X.toF (p.2 + clampI (-32) 32 (Config.measErr k m p.1) * top / 2 ^ 24))

/-- Raw lag of a response (R310, step 2): first index of half the largest magnitude, index of the peak after it, and the
lag in 1/256 sample. A response of zeros has none. -/
def rawLag (h : List F32) : Option (Nat × Nat × Nat) :=
  let a := h.map (fun v => (F.toScaled v).natAbs)
  let top := maxN a
  if top == 0 then none
  else
    (findIdxFrom (fun v => top ≤ 2 * v) a 0).map (fun i =>
      let near := (a.drop i).take 33
      let p := i + (findIdxFrom (fun v => v == maxN near) near 0).getD 0
      let y (q : Nat) : Int := (nth a q 0 : Nat)
      let l : Int := if p == 0 then y 0 else y (p - 1)
      let den := 2 * (2 * y p - l - y (p + 1))
      (i, p, (256 * (p : Int) + (if den ≤ 0 then 0 else divRnu (256 * (y (p + 1) - l)) den)).toNat))

/-- Lowest-numbered available destination that presents corrected output k. -/
def State.destOf (s : State) (k : Nat) : Option Nat :=
  (s.maps.dests.find? (fun p => sigKind p.2.code == 5 && sigInst p.2.code == k && s.destAvailable p.1)).map (·.1)

/-- Acoustic arrival in 1/256 sample from a raw lag (R310, step 3); none where the rule states no value: no destination,
or a negative difference. -/
def State.arrival (s : State) (k r : Nat) : Option Nat :=
  match s.destOf k with
  | none => none
  | some d =>
    let a : Int := r - 256 * (38 + s.outComponent d + s.g 0x3800 k 0x03 + 32 : Nat) - s.g 0x5D10 k 0x03
    if a < 0 then none else some a.toNat

/-- Level of a capture relative to the stimulus in dB (R310, step 4); none where the stimulus has no energy there. -/
def Stim.levelOf (x : Stim) (cap : List Int) : Option F32 :=
  let ref := (List.range (x.M + x.gap)).map (fun n => if n < x.M then X.ofF (x.y n) else 0)
  let e := (bandEnergy x.fA ref).toNat
  if e == 0 then none else some (levelPower (bandEnergy x.fA cap).toNat e)
where
  /-- 10 · log10 of a ratio, and −144.0 for zero. -/
  levelPower (n d : Nat) : F32 :=
    if n == 0 then minus144 else X.toF (X.div (10 * X.lnRat n d) X.ln10)

/-- What the analysis finds on one microphone: response, raw lag, arrival within the first G samples. -/
structure Heard where
  h : List F32
  lag : Option (Nat × Nat × Nat)
  late : Bool

/-- Response of output k on the microphone of a capture. -/
def Stim.hear (x : Stim) (k : Nat) (c : MicCap) : Heard :=
  let h := x.impulse k c.mic (realQ23 c.xs.reverse)
  let lag := rawLag h
  ⟨h, lag, match lag with
    | some l => x.gap ≤ l.1
    | none => true⟩

/-- Capture of a microphone that is not spoiled. -/
def Cap.of (c : Cap) (m : Nat) : Option MicCap := c.mics.find? (fun x => x.mic == m && !x.spoiled)

/-- Arrival for the entry :0A of microphone m of a capture: none heard reads 0xFFFFFFFF; a value that the rule does not
state is free. -/
def Tx.arrivalWord (t : Tx s0) (x : Stim) (c : Cap) (m : Nat) : Nat × Tx s0 :=
  match c.of m with
  | none => (0xFFFFFFFF, t)
  | some mc =>
    let r := x.hear c.out mc
    match r.lag with
    | some l =>
      if r.late then (0xFFFFFFFF, t)
      else match t.cur.arrival c.out l.2.2 with
        | some a => (a, t)
        | none => t.fresh
    | none => (0xFFFFFFFF, t)

/-- Entry :0A: the 16 arrivals. -/
def Tx.arrivals (t : Tx s0) (x : Stim) (c : Cap) : Tx s0 :=
  let r := (List.range 16).foldl (fun (a : Bytes × Tx s0) m =>
    let w := a.2.arrivalWord x c m
    (a.1 ++ leBytes 4 w.1, w.2)) ([], t)
  r.2.wb 0x5D10 c.out 0x0A r.1

/-- Lowest-numbered modulator channel that output k feeds (R315). -/
def State.modOf (s : State) (k : Nat) : Option Nat :=
  (s.maps.dests.find? (fun p => 1536 ≤ p.1 && sigKind p.2.code == 5 && sigInst p.2.code == k && s.destAvailable p.1)).map
    (·.1 - 1536)

/-- Edge of the third-octave bands: 10^((2i + 25) / 20) Hz is the lower one of band i, 0 to 30, and the upper one of the
band below (assumption 46). -/
def bandEdge (i : Nat) : Int := X.exp (X.ln10 * (2 * i + 25) / 20)

/-- Impedance of band i in units of the fields of the frames (R315): the magnitude of the cross-spectrum of voltage and
current over the band, divided by the current's power; none where the current has no power there. -/
def bandImpedance (fA i : Nat) (vs is : List Int) : Option Int :=
  let C := vs.length
  let js := (List.range (C / 2)).filter (fun j =>
    let f := X.ofRat ((j * fA : Nat) : Int) C
    bandEdge i ≤ f && f < bandEdge (i + 1))
  let z := js.map (fun j => (dftBin C j vs, dftBin C j is))
  let re := sumI (z.map (fun p => X.mul p.1.1 p.2.1 + X.mul p.1.2 p.2.2))
  let im := sumI (z.map (fun p => X.mul p.1.2 p.2.1 - X.mul p.1.1 p.2.2))
  let d := sumI (z.map (fun p => X.mul p.2.1 p.2.1 + X.mul p.2.2 p.2.2))
  if d == 0 then none else some (X.div (X.sqrt (X.mul re re + X.mul im im)) d)

/-- Impedance of an output in ohms by third-octave band (R315); a band in which no current was sensed has no value
(assumption 46). -/
def Tx.impedance (t : Tx s0) (x : Stim) (c : Cap) : Tx s0 :=
  match c.chan with
  | none => t.wb 0x5D10 c.out 0x0C []
  | some n =>
    let vs := c.sense.reverse.map (fun p => p.1 * X.one)
    let is := c.sense.reverse.map (fun p => p.2 * X.one)
    let y := t.cur.mod n
    let r := (List.range 31).foldl (fun (a : Bytes × Tx s0) i =>
      match bandImpedance x.fA i vs is with
      | some z => (a.1 ++ leBytes 4 (X.toF (X.div (X.mul z (2 * X.ofF (y.set 0x05))) (X.ofF (y.set 0x04)))), a.2)
      | none => let v := a.2.fresh; (a.1 ++ leBytes 4 v.1, v.2)) ([], t)
    r.2.wb 0x5D10 c.out 0x0C r.1

/-- What an analysis does not find reads as before a run (R311, R322; assumption 47). -/
def Tx.measClear (t : Tx s0) (k : Nat) : Tx s0 :=
  let t := ((t.w 0x5D10 k 0x05 0).w 0x5D10 k 0x06 minus144).w 0x5D10 k 0x07 0
  ((t.w 0x5D10 k 0x08 0).w 0x5D10 k 0x09 0).wb 0x5D10 k 0x0B (zeros 16384)

/-- Values of the reference microphone (R310, R311): level always, and arrival, polarity and response where the kind
gives an impulse response. -/
def Tx.reference (t : Tx s0) (x : Stim) (k : Nat) (mc : MicCap) : Tx s0 :=
  let t := match x.levelOf (realQ23 mc.xs.reverse) with
    | some v => t.w 0x5D10 k 0x06 v
    | none => let v := t.fresh; v.2.w 0x5D10 k 0x06 v.1
  if x.kind < 2 then t
  else
    let r := x.hear k mc
    let l := match r.lag with
      | some l => l
      | none => (0, 0, 0)
    let t := match if r.late then none else t.cur.arrival k l.2.2 with
      | some a => t.w 0x5D10 k 0x05 a
      | none => let v := t.fresh; v.2.w 0x5D10 k 0x05 v.1
    let t := t.w 0x5D10 k 0x07 (b2n (F.isNeg (nth r.h l.2.1 0)))
    let r0 : Int := l.2.1 - 256
    let part := (List.range 4096).map (fun i => let j : Int := r0 + (i : Nat); if j < 0 then 0 else nth r.h j.toNat 0)
    t.wb 0x5D10 k 0x0B ((part.map (leBytes 4)).foldl (· ++ ·) [])

/-- Result of a capture (R307, R310, R311; assumption 47 for the order where several apply). -/
def Stim.result (x : Stim) (c : Cap) : Nat :=
  if c.closed then 3
  else match c.of x.ref with
    | none => 5
    | some mc => if c.overload then 4 else if x.kind < 2 || (x.hear c.out mc).late then 2 else 1

/-- A capture is analysed (R310, R311, R315). -/
def Tx.analyse (t : Tx s0) (r : Align) (c : Cap) : Tx s0 :=
  let x := r.stim
  let t := (t.w 0x5D10 c.out 0x04 (x.result c)).measClear c.out
  let t := match c.of x.ref with
    | some mc => t.reference x c.out mc
    | none => t
  let t := (t.arrivals x c).impedance x c
  let t := t.w 0x5D00 0 0x0E (r.done + 1)
  t.setMeas { t.cur.meas with run := some { r with caps := r.caps.drop 1, done := r.done + 1 } }

/-- Whether a piece of the analysis has run, or can run now: its task is ready, and a core is free (R345, R361, R364). -/
def State.pieceRun (s : State) : Bool := (s.task 240).ran != 0 || (s.taskReady 240 && s.freeCore.isSome)

/-- CAPTURE_ANALYSIS (R310, R345): the oldest capture has ended and its analysis has run in pieces, at least one. -/
def execCaptureAnalysis (s : State) : Host.Outcome State Fault Refusal :=
  run s fun t =>
    match s.meas.run with
    | some r =>
      match r.caps with
      | c :: _ =>
        if !s.analysing || !s.pieceRun then t
        else
          let t := match s.freeCore with
            | some i => t.when ((s.task 240).ran == 0) (fun t => t.dispatchOwn i s.clock)
            | none => t
          (t.setTask 240 { t.cur.task 240 with ran := 0 }).analyse r c
      | [] => t
    | none => t

/-! ## The run (R309, R312 to R314) -/

/-- Own rule of 0x5D00:09 (R309). -/
def startRule (d : Bytes) (t : Tx s0) : Tx s0 :=
  let s := t.cur
  let S := leNat d
  let a := s.now
  let outs := (List.range 512).filter (fun k => s.on 0x5D10 k 0x01 && s.on 0x5D10 k 0x02)
  let ref := s.g 0x5D00 0 0x08
  if s.g 0x5D00 0 0x0B != 0 then t.status stBusy
  else if outs.isEmpty || s.micState ref != 2 then t.status stState
  else if a + 2 ^ 31 < S then t.status stOutOfRange
  else
    let L := nextEval a
    let start := if S ≤ a + 32 then L else 16 * ceilDiv S 16
    let e (sub : Nat) : Nat := s.g 0x5D00 0 sub
    let x : Stim := ⟨start, outs, e 0x01, e 0x02, e 0x03, e 0x04, e 0x05, e 0x06, e 0x07, ref, s.fA⟩
    let t := t.setMeas { s.meas with run := some ⟨x, 0, [], 0⟩ }
    let t := (((t.w 0x5D00 0 0x0B 1).w 0x5D00 0 0x0C start).w 0x5D00 0 0x0E 0).taskTake 240
    t.status (if S ≤ a + 32 && S != 0 then stTooLate else stOK)

/-- START_RUN (R309): write of 0x5D00:09. -/
def execStartRun (h : Nat) (d : Bytes) (s : State) : Host.Outcome State Fault Refusal :=
  run s fun t => t.guarded h (opOf 0x5D00 0 0x09 d) (startRule d)

/-- STIMULUS_START (R309): at S_i the next output plays and every enabled microphone in RUN is captured. -/
def execStimulusStart (s : State) : Host.Outcome State Fault Refusal :=
  run s fun t =>
    match s.meas.run with
    | some r =>
      match r.stim.outs[r.next]? with
      | some k =>
        let S := r.stim.startOf r.next
        if s.now < S then t
        else
          let mics := (List.range 16).filter (fun m => s.on 0x5C10 m 0x01 && s.micState m == 2)
          let c : Cap := ⟨r.next, k, S, mics.map (fun m => ⟨m, [], false⟩), s.modOf k, [], false, false⟩
          let t := t.setMeas { s.meas with run := some { r with next := r.next + 1, caps := r.caps ++ [c] } }
          ((t.w 0x5D00 0 0x0B 2).w 0x5D00 0 0x0D k).w 0x5D10 k 0x0D S
      | none => t
    | none => t

/-- Voltage and current fields of the newest valid frame of channel c; zero before its first (R315). -/
def State.senseNow (s : State) (c : Nat) : Int × Int :=
  match (s.mod c).last with
  | some w => (frameV w, frameI w)
  | none => (0, 0)

/-- The captures take the microphones' samples, two periods after the sound's sample (R302), and the newest sense frame
(R315); a stimulus that has played ends (R309). A scheduled retraining does not hold them up (R393). -/
def Tx.runPeriod (t : Tx s0) (m : Nat) : Tx s0 :=
  match t.cur.meas.run with
  | none => t
  | some r =>
    let s := t.cur
    let caps := r.caps.map (fun c =>
      if c.at_ + 2 ≤ m && m < c.at_ + r.stim.M + r.stim.gap + 2 then
        { c with mics := c.mics.map (fun x => { x with xs := s.micValue x.mic :: x.xs }) }
      else c)
    let caps := caps.map (fun c => match c.chan with
      | some n => if c.at_ ≤ m && m < c.at_ + r.stim.M + r.stim.gap then { c with sense := s.senseNow n :: c.sense } else c
      | none => c)
    let t := t.setMeas { s.meas with run := some { r with caps := caps } }
    if r.next == 0 || r.stim.startOf (r.next - 1) + r.stim.M != m then t
    else (t.w 0x5D00 0 0x0D 0xFFFF).when (r.next == r.stim.outs.length) (fun t => t.w 0x5D00 0 0x0B 3)

/-- Outputs of the run with result 1. -/
def State.validOuts (s : State) (x : Stim) : List Nat := x.outs.filter (fun k => s.g 0x5D10 k 0x04 == 1)

/-- Proposals (R312). -/
def Tx.propose (t : Tx s0) (x : Stim) : Tx s0 :=
  let s := t.cur
  let ks := s.validOuts x
  let A (k : Nat) : Nat := s.g 0x5D10 k 0x05
  let lvl (k : Nat) : F32 := s.g 0x5D10 k 0x06
  match ks with
  | [] => t
  | k0 :: _ =>
    let last := maxN (ks.map A)
    let low := ks.foldl (fun m k => F.min2 m (lvl k)) (lvl k0)
    t.each ks (fun t k =>
      let d := (last - A k + 128) / 256 + s.g 0x3800 k 0x03
      let t := (t.w 0x5D10 k 0x08 (min 96000 d)).w 0x5D10 k 0x09 (F.sub low (lvl k))
      t.when (96000 < d) (fun t => t.flagBit 0x5D10 k 0x0E 1))

/-- Distance of loudspeaker k and microphone m in metres, in fixed point. -/
def State.micDistance (s : State) (k m : Nat) : Int :=
  let p := s.spkPos k
  let d (a : F32) (sub : Nat) : Int := X.ofF a - X.ofF (s.g 0x5C10 m sub)
  let x := d p.x 0x02
  let y := d p.y 0x03
  let z := d p.z 0x04
  X.sqrt (X.mul x x + X.mul y y + X.mul z z)

/-- Pairs of R313: d_km and A_km. -/
def State.soundPairs (s : State) (x : Stim) : List (Int × Nat) :=
  ((s.validOuts x).filter (fun k => s.on 0x3000 k 0x01)).flatMap (fun k =>
    ((List.range 16).filter (fun m => s.on 0x5C10 m 0x05)).filterMap (fun m =>
      let a := fieldLE (s.gb 0x5D10 k 0x0A) (4 * m) 4
      let d := s.micDistance k m
      if a == 0xFFFFFFFF || d < X.one then none else some (d, a)))

/-- Median of a sorted list: its middle, or the mean of the two middle values (assumption 48). -/
def medianOf (l : List Int) : Int := (nth l ((l.length - 1) / 2) 0 + nth l (l.length / 2) 0) / 2

/-- Interquartile range of a sorted list: the medians of its halves, without the middle value (assumption 48). -/
def iqrOf (l : List Int) : Int :=
  medianOf (l.drop ((l.length + 1) / 2)) - medianOf (l.take (l.length / 2))

/-- Measured speed of sound and temperature (R313). -/
def Tx.soundSpeed (t : Tx s0) (x : Stim) : Tx s0 :=
  let ps := t.cur.soundPairs x
  let r := ps.foldl (fun (a : List Int × Tx s0) p =>
    if p.2 == 0 then let v := a.2.fresh; ((v.1 : Int) :: a.1, v.2)
    else ((p.1 * 256 * x.fA / p.2) :: a.1, a.2)) ([], t)
  let cs := sortBy (fun a b => a < b) r.1
  let t := r.2.w 0x5D00 0 0x11 cs.length
  let c := medianOf cs
  let t := t.when (!cs.isEmpty) (fun t => t.w 0x5D00 0 0x0F (X.toF c))
  let q := X.div c (X.ofRat 3313 10)
  let T := X.mul (X.ofRat 27315 100) (X.mul q q - X.one)
  if 4 ≤ cs.length && 100 * iqrOf cs ≤ c && -20 * X.one ≤ T && T ≤ 50 * X.one then
    (((t.w 0x5D00 0 0x10 (X.toF T)).w 0x5D00 0 0x12 1).w 0x2800 0 0x08 (X.toF T)).w 0x2800 0 0x09 1
  else (t.w 0x5D00 0 0x12 0).flagBit 0x5D00 0 0x14 2

/-- RUN_DONE (R312, R313): every output of the run has been analysed. -/
def execRunDone (s : State) : Host.Outcome State Fault Refusal :=
  run s fun t =>
    match s.meas.run with
    | some r =>
      if r.done < r.stim.outs.length then t
      else
        let t := (t.propose r.stim).soundSpeed r.stim
        let t := (t.setMeas { t.cur.meas with run := none }).taskFree 240
        (((t.w 0x5D00 0 0x0B 0).w 0x5D00 0 0x0D 0xFFFF).inc 0x5D00 0 0x13 1).flagBit 0x5D00 0 0x14 0
    | none => t

/-- A run is aborted (R314): the generator fades, outputs not yet analysed get result 3. -/
def Tx.abortRun (t : Tx s0) : Tx s0 :=
  match t.cur.meas.run with
  | none => t
  | some r =>
    let t := (t.setMeas { t.cur.meas with run := none, fading := some (r.stim, t.cur.now) }).taskFree 240
    let t := t.each (((List.range r.stim.outs.length).zip r.stim.outs).drop r.done) (fun t p =>
      let t := ((t.w 0x5D10 p.2 0x04 3).measClear p.2).wb 0x5D10 p.2 0x0A (List.replicate 64 0xFF)
      (t.wb 0x5D10 p.2 0x0C []).w 0x5D10 p.2 0x0D (r.stim.startOf p.1))
    ((t.w 0x5D00 0 0x0B 0).w 0x5D00 0 0x0D 0xFFFF).flagBit 0x5D00 0 0x14 1

/-- ABORT_RUN (R314): write of 0x5D00:0A. -/
def execAbortRun (h : Nat) (d : Bytes) (s : State) : Host.Outcome State Fault Refusal :=
  run s fun t => t.guarded h (opOf 0x5D00 0 0x0A d) Tx.abortRun

/-! ## Recorder (R316 to R318) -/

/-- Depth of the recorder's ring at a rate (R316). -/
def recDepth (fA : Nat) : Nat := if fA == 96000 then 1440000 else 960000

/-- The window is discarded: its entries read as before a freeze. -/
def Tx.recDiscard (t : Tx s0) : Tx s0 :=
  let t := t.setMeas { t.cur.meas with ring := [], events := [] }
  (((t.w 0x5D80 0 0x08 0).w 0x5D80 0 0x09 0).w 0x5D80 0 0x0A 0xFF).w 0x5D80 0 0x0B 0

/-- Recording begins at the media time B with an empty ring. -/
def Tx.recBegin (t : Tx s0) (B : Nat) : Tx s0 :=
  (t.recDiscard.w 0x5D80 0 0x06 1).setMeas { t.recDiscard.cur.meas with recFrom := B }

/-- A freeze event of a cause at media time f (R317). -/
def Tx.freeze (t : Tx s0) (cause f : Nat) : Tx s0 :=
  match t.g 0x5D80 0 0x06 with
  | 0 => t
  | 1 =>
    let t := t.setMeas { t.cur.meas with post := t.g 0x5D80 0 0x03, cause := cause, frozeAt := f }
    t.w 0x5D80 0 0x06 2
  | _ => (t.inc 0x5D80 0 0x0C 1).flagBit 0x5D80 0 0x0D 0

/-- The freeze event that is taken next: the earliest, and of those in one cycle the one of the lowest cause. -/
def State.nextFreeze (s : State) : Option (Nat × Nat) :=
  s.meas.events.foldl (fun a e =>
    match a with
    | some b => if e.2 < b.2 || (e.2 == b.2 && e.1 < b.1) then some e else a
    | none => some e) none

/-- FREEZE (R317): the freeze event of a cause that is due. -/
def execFreeze (cause : Nat) (s : State) : Host.Outcome State Fault Refusal :=
  run s fun t =>
    match s.nextFreeze with
    | some e =>
      if e.1 != cause then t
      else (t.setMeas { s.meas with events := s.meas.events.erase e }).freeze e.1 e.2
    | none => t

/-- Own rule of 0x5D80:04: a freeze event of cause 0, whatever the mask holds. -/
def freezeRule (t : Tx s0) : Tx s0 := t.freeze 0 t.cur.now

/-- POST_END (R317): at f + p the recorder enters FROZEN and reports its window. -/
def execPostEnd (s : State) : Host.Outcome State Fault Refusal :=
  run s fun t =>
    let x := s.meas
    let last := x.frozeAt + x.post
    if s.g 0x5D80 0 0x06 != 2 || s.now < last then t
    else
      let t := (t.w 0x5D80 0 0x06 3).w 0x5D80 0 0x08 (max (last + 1 - s.g 0x5D80 0 0x07) x.recFrom)
      let t := ((t.w 0x5D80 0 0x09 last).w 0x5D80 0 0x0A x.cause).w 0x5D80 0 0x0B x.frozeAt
      t.flagBit 0x5D80 0 0x0D 1

/-- Own rule of 0x5D80:05 (R317). -/
def rearmRule (t : Tx s0) : Tx s0 :=
  if t.g 0x5D80 0 0x06 != 3 then t.status stState else t.recBegin (nextBlock t.cur.now)

/-- REARM (R317): write of 0x5D80:05. -/
def execRearm (h : Nat) (d : Bytes) (s : State) : Host.Outcome State Fault Refusal :=
  run s fun t => t.guarded h (opOf 0x5D80 0 0x05 d) rearmRule

/-- Own rule of 0x5D80:01 (R317). -/
def recorderRule (d : Bytes) (t : Tx s0) : Tx s0 :=
  let t := t.w 0x5D80 0 0x01 (leNat d)
  if leNat d == 0 then t.recDiscard.w 0x5D80 0 0x06 0
  else if t.g 0x5D80 0 0x06 != 0 then t
  else t.recBegin (nextBlock t.cur.now)

/-- The recorder writes its samples of the period m: Furrow samples of the objects and corrected outputs (R316). -/
def Tx.recordPeriod (t : Tx s0) (m : Nat) (objs : List (Nat × Int)) : Tx s0 :=
  let x := t.cur.meas
  let st := t.g 0x5D80 0 0x06
  if (st == 1 && x.recFrom ≤ m) || (st == 2 && x.recFrom ≤ m && m ≤ x.frozeAt + x.post) then
    let outs := (List.range 512).filterMap (fun k => let v := t.cur.corrected k; if v == 0 then none else some (1024 + k, v))
    t.setMeas { x with ring := (⟨m, objs ++ outs⟩ :: x.ring).take (t.g 0x5D80 0 0x07) }
  else t

/-- Member of an owner table that holds a recorder channel (R318). -/
def recMember (ch : Nat) : Nat × Nat := if ch < 1024 then (0x01, ch) else (0x02, ch - 1024)

/-- What a read of 0x5D81[h]:04 by host r answers (R318): a status, or the samples and how many DRAM words were
uncorrectable; `bad` lists positions whose word is: two samples of a channel never share one (R316). -/
def State.recorderRead (s : State) (r h : Nat) (bad : List Nat) : Nat × Bytes × Nat :=
  let ch := s.g 0x5D81 h 0x01
  let first := s.g 0x5D81 h 0x02
  let n := s.g 0x5D81 h 0x03
  if !s.owns r (recMember ch).1 (recMember ch).2 then (stNoRight, [], 0)
  else if s.g 0x5D80 0 0x06 != 3 then (stState, [], 0)
  else if first < s.g 0x5D80 0 0x08 || s.g 0x5D80 0 0x09 + 1 < first + n then (stOutOfRange, [], 0)
  else
    let sample (i : Nat) : Int :=
      if bad.contains i then 0
      else match s.meas.ring.find? (fun x => x.at_ == first + i) with
        | some x => mget 0 x.xs ch
        | none => 0
    (stOK, ((List.range n).map (fun i => leBytes 3 (unsigned 24 (sample i)))).foldl (· ++ ·) [], (nub (bad.filter (· < n))).length)

/-! ## Stop and restart of the engines -/

/-- A change of rate or a step aborts a run (R314) and empties a ring that is recording (R317). -/
def Tx.measStop (t : Tx s0) : Tx s0 :=
  let t := (t.abortRun.setMeas { t.abortRun.cur.meas with opens := t.cur.meas.opens })
  let st := t.g 0x5D80 0 0x06
  t.when (st == 1 || st == 2) (fun t => t.recDiscard.w 0x5D80 0 0x06 1)

/-- The recorder restarts with the engines (R316, R317). -/
def Tx.recorderRestart (t : Tx s0) : Tx s0 :=
  t.when (t.on 0x5D80 0 0x01 && t.g 0x5D80 0 0x06 != 3) (fun t => t.recBegin t.cur.now)

end Sys2Proof.Machine
end

