-- ==== Sys2Proof/Machine/Clock.lean ====
section
/-! DEFINITION. System time (R231 to R252): the rate and the offset, the servo, the PTP port, PPS, triggers and captures. -/

namespace Sys2Proof.Machine
open Sys2Proof

variable {s0 : State}

/-! ## Rate, offset and step (R232 to R238) -/

/-- The rates of the last 16 s with a rate that holds from counter c (R240). -/
def rateHistory (hist : List (Nat × Nat)) (old rho c : Nat) : List (Nat × Nat) :=
  let h := if hist.isEmpty then [(old, 0)] else hist
  let past := h.filter (fun p => p.2 + secC 16 ≤ c)
  (rho, c) :: (h.filter (fun p => c < p.2 + secC 16) ++ past.take 1)

/-- ρ takes a value in the present cycle; O changes so that system time is continuous (R233). -/
def Tx.setRho (t : Tx s0) (rho : Nat) : Tx s0 :=
  let s := t.cur
  let c := s.clock
  let t := t.setTime { s.time with off := s.time.off + c * s.rho - c * rho,
                                   rhos := rateHistory s.time.rhos s.rho rho c }
  (t.w 0x5000 0 0x04 rho).w 0x5000 0 0x0B (F.ofIntRat (((rho : Int) - 2 ^ 47) * 1000000) (2 ^ 47))

/-- Mean of ρ over the preceding 16 s (R240). -/
def State.meanRho (s : State) : Nat :=
  let c := s.clock
  let from_ := c - secC 16
  let r := s.time.rhos.foldl (fun (a : Nat × Nat) p =>
    let lo := max p.2 from_
    if lo < a.2 then (a.1 + p.1 * (a.2 - lo), lo) else a) (0, c)
  if c == r.2 then s.rho else (divRne r.1 (c - r.2 : Nat)).toNat

/-- A step to the offset `off` is asked for (R236, R237): its engines stop, if they run. -/
def Tx.askStep (t : Tx s0) (off : Int) : Tx s0 :=
  let e := t.cur.engines
  let e := { e with stepTo := some off }
  if e.running && e.rampB.isNone then t.setEngines { e with rampB := some (nextBlock t.cur.now), cause := 2 }
  else t.setEngines e

/-- RATE_WRITE (R233): write of 0x5000:04, and its own rule. -/
def rateRule (d : Bytes) (t : Tx s0) : Tx s0 :=
  if t.g 0x5000 0 0x05 != 2 then t.status stState else t.setRho (leNat d)
def execRateWrite (h : Nat) (d : Bytes) (s : State) : Host.Outcome State Fault Refusal :=
  run s fun t => t.guarded h (opOf 0x5000 0 0x04 d) (rateRule d)

/-- OFFSET_WRITE (R236): write of 0x5000:06, and its own rule. -/
def offsetRule (d : Bytes) (t : Tx s0) : Tx s0 :=
  if t.on 0x5000 0 0x08 then (t.flagBit 0x5000 0 0x1C 3).status stState
  else t.askStep (time80Ns (leNat d) * 2 ^ 47 : Nat)
def execOffsetWrite (h : Nat) (d : Bytes) (s : State) : Host.Outcome State Fault Refusal :=
  run s fun t => t.guarded h (opOf 0x5000 0 0x06 d) (offsetRule d)

/-- Offset O as 0x5000:06 reads it: whole nanoseconds as TIME80. -/
def State.offsetEntry (s : State) : Nat := time80 (s.time.off / 2 ^ 47 % (2 ^ 48 * 1000000000)).toNat

/-- Alignment bound (R263). -/
def State.alignBound (s : State) : Nat :=
  (signed 32 (s.g 0x5000 0 0x09)).natAbs + (signed 32 (s.g 0x4600 0 0x02)).natAbs

/-- Seconds in the present holdover (0x5000:0F). -/
def State.holdoverSecs (s : State) : Nat :=
  if s.g 0x5000 0 0x07 == 3 then (s.clock - s.time.holdAt) / 1000000000 else 0

/-! ## Servo (R235 to R240) -/

/-- Clock quality that the port announces (Table 9.4): class, accuracy and variance as one number of 32 bits. -/
def State.clockQuality (s : State) : Nat :=
  let pps := s.g 0x5000 0 0x05 == 1
  if s.g 0x5001 0 0x03 == 0 then 0xFFFEFFFF
  else if pps && s.g 0x5000 0 0x07 == 2 then 0x06214E5D
  else if pps && s.g 0x5000 0 0x07 == 3 then 0x07FEFFFF
  else 0xF8FEFFFF

/-- 0x5001:15 shows the class announced. -/
def Tx.showClass (t : Tx s0) : Tx s0 := t.w 0x5001 0 0x15 (t.cur.clockQuality / 2 ^ 24)

/-- The outputs are released when the servo first reaches LOCKED or FREE (R239). -/
def Tx.release9 (t : Tx s0) : Tx s0 :=
  if t.cur.time.released then t
  else
    let t := t.setTime { t.cur.time with released := true }
    t.when (t.on 0x5000 0 0x10 && t.cur.engines.running) (fun t =>
      t.setMaps { t.cur.maps with ramp := some (nextBlock t.cur.now, true) })

/-- The servo takes a state (Table 9.1). -/
def Tx.servoTo (t : Tx s0) (st : Nat) : Tx s0 :=
  let old := t.g 0x5000 0 0x07
  let t := t.when (old != st) (fun t =>
    ((t.w 0x5000 0 0x07 st).msg 438 ([byte old, byte st, 0, 0] ++ leBytes 4 (t.g 0x5000 0 0x09))).showClass)
  let t := t.when (st == 2) (fun t => t.w 0x5000 0 0x08 1)
  t.when (st == 2 || st == 4) Tx.release9

/-- Largest deviation of ρ from 1.0 that the servo may set, in 2^-47 (R233, R240). -/
def State.rateLimit (s : State) : Nat :=
  let hard := 2 ^ 47 / 1000
  if s.on 0x5000 0 0x08 then min hard ((F.toScaled (s.g 0x5000 0 0x0D)).toNat * 2 ^ 47 / (2 ^ 149 * 1000000)) else hard

/-- The servo corrects ρ and filters its offset; the manual gives no law of its loop, so both are free values within
the limit (assumption 50). -/
def Tx.steer (t : Tx s0) : Tx s0 :=
  let dev := t.cur.rateLimit
  let a := t.fresh
  let b := a.2.fresh
  (b.2.w 0x5000 0 0x09 b.1).setRho (2 ^ 47 - dev + a.1 % (2 * dev + 1))

/-- A valid measurement of the offset from the source, in 2^-16 ns; `need` in succession from one source qualify it
(R235, R236, R240, R247). While a step waits nothing is measured. -/
def Tx.measured (t : Tx s0) (need : Nat) (off : Int) (src : Nat) : Tx s0 :=
  let s := t.cur
  let st := s.g 0x5000 0 0x07
  if s.engines.stepTo.isSome || s.ctl.down then t
  else
    let t := t.when (1000000 * 65536 < off.natAbs) (fun t => t.flagBit 0x5000 0 0x1C 2)
    if st == 0 || st == 3 then
      let q := if s.time.qual != 0 && s.time.qualGm == src then s.time.qual + 1 else 1
      if q < need then t.setTime { s.time with qual := q, qualGm := src }
      else
        let t := (t.setTime { s.time with qual := 0, within := 0 }).servoTo 1
        if !s.on 0x5000 0 0x08 && 10000 * 65536 < off.natAbs then t.askStep (s.time.off - off * 2 ^ 31) else t.steer
    else if st == 1 || st == 2 then
      let inside := off.natAbs ≤ s.g 0x5000 0 0x0E * 65536
      let n := if inside then min 16 (s.time.within + 1) else 0
      let t := t.setTime { s.time with within := n }
      let t := if st == 1 && n == 16 then t.servoTo 2 else if st == 2 && !inside then t.servoTo 1 else t
      t.steer
    else t

/-- The source is lost (R240). -/
def Tx.sourceLost (t : Tx s0) : Tx s0 :=
  let s := t.cur
  let st := s.g 0x5000 0 0x07
  let t := t.setTime { s.time with qual := 0, within := 0 }
  if (st == 1 || st == 2) && s.on 0x5000 0 0x08 then
    let t := t.setRho s.meanRho
    let t := t.setTime { t.cur.time with holdAt := s.clock }
    ((t.servoTo 3).tally 0x5000 0 0x1A).flagBit 0x5000 0 0x1C 1
  else if st == 1 then t.servoTo 0
  else t

/-- Own rule of 0x5000:05 (R235): another source is not qualified yet; free-run is FREE. -/
def sourceRule (d : Bytes) (t : Tx s0) : Tx s0 :=
  let old := t.g 0x5000 0 0x05
  let t := t.w 0x5000 0 0x05 (leNat d)
  if old == leNat d then t
  else
    let t := t.setTime { t.cur.time with qual := 0, within := 0, ppsLast := none }
    ((t.w 0x5000 0 0x17 0).servoTo (if leNat d == 2 then 4 else 0)).showClass

/-- TIMEBASE_RESTART (R238): write of 0x5000:11, and its own rule. -/
def timebaseRule (t : Tx s0) : Tx s0 :=
  if t.on 0x3F00 0 0x03 || t.cur.ctl.commit.isSome then t.status stState
  else
    let t := (t.w 0x5000 0 0x08 0).setTime { t.cur.time with qual := 0, within := 0 }
    (t.servoTo (if t.g 0x5000 0 0x05 == 2 then 4 else 0)).flagBit 0x5000 0 0x1C 5
def execTimebaseRestart (h : Nat) (d : Bytes) (s : State) : Host.Outcome State Fault Refusal :=
  run s fun t => t.guarded h (opOf 0x5000 0 0x11 d) timebaseRule

/-! ## PTP messages (R241; IEEE 1588-2019, assumption 51) -/

/-- Time of 2^log s in counter cycles. -/
def logC (log : Int) : Nat := if 0 ≤ log then secC (2 ^ log.toNat) else secC 1 / 2 ^ (-log).toNat

/-- Interval of sub-index sub of 0x5001. -/
def State.ptpInterval (s : State) (sub : Nat) : Nat := logC (signed 16 (s.g 0x5001 0 sub))

/-- A PTP timestamp in ns. -/
def ptpTime (m : Bytes) (o : Nat) : Int := (fieldBE m o 6 * 1000000000 + fieldBE m (o + 6) 4 : Nat)

/-- Send a message on MAC m, to one peer (Ethernet and IPv4 address) or to the group. -/
def Tx.ptpOut (t : Tx s0) (m : Nat) (event : Bool) (peer : Option (Nat × Nat)) (b : Bytes) : Tx s0 :=
  t.sendFrame m (t.cur.ptpFrame m event peer b)

/-- Whether a message on MAC m is for the port: enabled, one of its MACs, version 2, its domain, long enough. -/
def State.ptpTakes (s : State) (n len : Nat) (m : Bytes) : Bool :=
  s.on 0x5001 0 0x01 && (n == s.g 0x5001 0 0x05 || n == s.g 0x5001 0 0x06) && fieldBE m 1 1 % 16 == 2 &&
  fieldBE m 4 1 == s.g 0x5001 0 0x04 && len ≤ m.length

def ptpIdentOf (m : Bytes) : Nat := fieldBE m 20 10
def ptpSeqOf (m : Bytes) : Nat := fieldBE m 30 2
def ptpCorrOf (m : Bytes) : Int := signed 64 (fieldBE m 8 8)

/-- Whether a message comes from the master that the port follows, on the MAC in use. -/
def State.ptpFromParent (s : State) (n : Nat) (m : Bytes) : Bool :=
  (s.g 0x5001 0 0x11 == 8 || s.g 0x5001 0 0x11 == 9) && n == s.g 0x5001 0 0x12 && s.time.parent == some (ptpIdentOf m)

/-- Asymmetry in 2^-16 ns (R245). -/
def State.asymmetry (s : State) : Int := signed 32 (s.g 0x5001 0 0x10) * 65536

/-- A port that follows a master is SLAVE once its servo has the source, UNCALIBRATED before. -/
def Tx.ptpCalibrated (t : Tx s0) : Tx s0 :=
  let p := t.g 0x5001 0 0x11
  if p != 8 && p != 9 then t
  else t.w 0x5001 0 0x11 (if t.g 0x5000 0 0x07 == 1 || t.g 0x5000 0 0x07 == 2 then 9 else 8)

/-- An offset measurement from receive and origin time in 2^-16 ns; corrections are already in `corr`. -/
def Tx.ptpMeasure (t : Tx s0) (t2 t1 corr : Int) : Tx s0 :=
  let ms := t2 - t1 - corr
  let t := t.setTime { t.cur.time with msDelay := some ms, syncWait := none }
  match t.cur.time.mpd with
  | some d =>
    if t.g 0x5000 0 0x05 == 0 then (t.measured 8 (ms - d) (t.g 0x5001 0 0x13)).ptpCalibrated else t
  | none => t

/-- PTP_SYNC (R241, R245): a Sync on MAC n from a sender with the given addresses. -/
def execPtpSync (n : Nat) (m : Bytes) (clock mac ip : Nat) (s : State) : Host.Outcome State Fault Refusal :=
  runCtl s fun t =>
    let t := (t.at_ clock).ptpPop
    let s := t.cur
    if !s.ptpTakes n 44 m || !s.ptpFromParent n m then t
    else
      let t := t.tally 0x5001 0 0x17
      let t2 : Int := (s.stampNs n false s.clock * 65536 : Nat)
      let corr := ptpCorrOf m + s.asymmetry
      let t := t.setTime { s.time with peer := (mac, ip) }
      if bit (fieldBE m 6 1) 1 then t.setTime { t.cur.time with syncWait := some ⟨ptpSeqOf m, ptpIdentOf m, t2, corr⟩ }
      else t.ptpMeasure t2 (ptpTime m 34 * 65536) corr

/-- PTP_FOLLOW_UP (R241). -/
def execPtpFollowUp (n : Nat) (m : Bytes) (s : State) : Host.Outcome State Fault Refusal :=
  runCtl s fun t =>
    let t := t.ptpPop
    match t.cur.time.syncWait with
    | some w =>
      if s.ptpTakes n 44 m && s.ptpFromParent n m && w.seq == ptpSeqOf m && w.ident == ptpIdentOf m then
        t.ptpMeasure w.t2 (ptpTime m 34 * 65536) (w.corr + ptpCorrOf m)
      else t
    | none => t

/-- PTP_DELAY_RESP (R241): the mean path delay from the four times. -/
def execPtpDelayResp (n : Nat) (m : Bytes) (s : State) : Host.Outcome State Fault Refusal :=
  runCtl s fun t =>
    let t := t.ptpPop
    match t.cur.time.reqWait, t.cur.time.msDelay with
    | some (seq, t3), some ms =>
      if s.ptpTakes n 54 m && s.ptpFromParent n m && seq == ptpSeqOf m && fieldBE m 44 10 == s.ptpPort then
        let sm := ptpTime m 34 * 65536 - t3 - ptpCorrOf m
        let d := (ms + sm) / 2
        let t := t.setTime { t.cur.time with reqWait := none, mpd := some d }
        t.w 0x5000 0 0x0A (max 0 (d / 65536)).toNat
      else t
    | _, _ => t

/-- PTP_DELAY_REQ (R241): in MASTER state a Delay_Req on MAC n is answered, to the group or to a unicast asker. -/
def execPtpDelayReq (n : Nat) (m : Bytes) (clock mac ip : Nat) (s : State) : Host.Outcome State Fault Refusal :=
  runCtl s fun t =>
    let t := (t.at_ clock).ptpPop
    let s := t.cur
    if !s.ptpTakes n 44 m || s.g 0x5001 0 0x11 != 6 || n != s.g 0x5001 0 0x12 then t
    else
      let uni := bit (fieldBE m 6 1) 2
      let b := s.ptpMsg 9 (if uni then 0x0400 else 0) (ptpCorrOf m) (ptpSeqOf m) 3 (signed 16 (s.g 0x5001 0 0x0B))
        (ptpStamp (s.stampNs n false s.clock) ++ slice m 20 10)
      t.ptpOut n false (if uni then some (mac, ip) else none) b

/-- DELAY_REQ_SEND (R241, R246): a port that follows a master sends Delay_Req at its interval; its time is known once the
MAC has stamped it. -/
def execDelayReqSend (clock : Nat) (s : State) : Host.Outcome State Fault Refusal :=
  runCtl s fun t =>
    let t := t.at_ clock
    let s := t.cur
    let x := s.time
    let m := s.g 0x5001 0 0x12
    let st := s.g 0x5001 0 0x11
    if (st != 8 && st != 9) || s.clock < x.sentReq + s.ptpInterval 0x0B || !s.macUp m then t
    else
      let hybrid := s.g 0x5001 0 0x08 == 1 && x.peer != (0, 0)
      let b := s.ptpMsg 1 (if hybrid then 0x0400 else 0) (-s.asymmetry) x.seqReq 1 0x7F (zeros 10)
      let t := t.setTime { x with sentReq := s.clock, seqReq := (x.seqReq + 1) % 65536, reqWait := none }
      t.sendStamped m (s.ptpFrame m true (if hybrid then some x.peer else none) b) (.delayReq x.seqReq)

/-- PTP_SEND (R243, R246): in MASTER state Sync (kind 0), whose Follow_Up goes out behind it once the MAC has stamped it,
or Announce (kind 1) at its interval. -/
def execPtpSend (kind clock : Nat) (s : State) : Host.Outcome State Fault Refusal :=
  runCtl s fun t =>
    let t := t.at_ clock
    let s := t.cur
    let x := s.time
    let m := s.g 0x5001 0 0x12
    if s.g 0x5001 0 0x11 != 6 || !s.macUp m then t
    else if kind == 0 then
      if s.clock < x.sentSync + s.ptpInterval 0x09 then t
      else
        let log := signed 16 (s.g 0x5001 0 0x09)
        let t := t.setTime { x with sentSync := s.clock, seqSync := (x.seqSync + 1) % 65536 }
        t.sendStamped m (s.ptpFrame m true none (s.ptpMsg 0 0x0200 0 x.seqSync 0 log (zeros 10))) (.sync x.seqSync log)
    else if kind == 1 then
      if s.clock < x.sentAnn + s.ptpInterval 0x0A then t
      else
        let body := zeros 10 ++ [0, 0, 0, byte (s.g 0x5001 0 0x0D)] ++ beBytes 4 s.clockQuality ++
          [byte (s.g 0x5001 0 0x0E)] ++ s.ptpIdent ++ [0, 0, byte (s.g 0x5001 0 0x0F)]
        let t := t.ptpOut m false none (s.ptpMsg 11 0x0008 0 x.seqAnn 5 (signed 16 (s.g 0x5001 0 0x0A)) body)
        t.setTime { t.cur.time with sentAnn := s.clock, seqAnn := (x.seqAnn + 1) % 65536 }
    else t

/-! ## Best master and MAC in use (R243, R244) -/

/-- Rank of a master: the lower the better. -/
def ptpRank (prio1 quality prio2 gm steps ident : Nat) : Nat :=
  ((((prio1 * 2 ^ 32 + quality) * 2 ^ 8 + prio2) * 2 ^ 64 + gm) * 2 ^ 16 + steps) * 2 ^ 80 + ident
def Foreign.rank (f : Foreign) : Nat := ptpRank f.prio1 f.quality f.prio2 f.gm f.steps f.ident

/-- The best master heard twice within four announce intervals on the MAC in use. -/
def State.bestMaster (s : State) : Option Foreign :=
  let fs := s.time.foreigns.filter (fun f =>
    f.mac == s.g 0x5001 0 0x12 && (match f.prev with
      | some p => s.clock ≤ p + 4 * s.ptpInterval 0x0A
      | none => false))
  (sortBy (fun a b => a.rank < b.rank) fs).head?

/-- The grandmaster shown changes. -/
def Tx.showGm (t : Tx s0) (ident steps : Nat) : Tx s0 :=
  let old := t.g 0x5001 0 0x13
  let t := (t.w 0x5001 0 0x13 ident).w 0x5001 0 0x14 steps
  t.when (old != ident) (fun t => t.flagBit 0x5001 0 0x1B 1)

/-- The port follows a master. -/
def Tx.ptpFollow (t : Tx s0) (f : Foreign) : Tx s0 :=
  let t := t.showGm (leNat (beBytes 8 f.gm)) (f.steps + 1)
  if t.cur.time.parent == some f.ident && (t.g 0x5001 0 0x11 == 8 || t.g 0x5001 0 0x11 == 9) then t
  else
    let t := t.setTime { t.cur.time with parent := some f.ident, syncWait := none, msDelay := none, mpd := none,
                                         reqWait := none, peer := (0, 0) }
    (t.w 0x5001 0 0x11 8).ptpCalibrated

/-- The port leaves the master it followed and takes a state: 4 LISTENING, 6 MASTER or 7 PASSIVE. -/
def Tx.ptpLeave (t : Tx s0) (st : Nat) : Tx s0 :=
  let slave := t.g 0x5001 0 0x11 == 8 || t.g 0x5001 0 0x11 == 9
  let t := t.setTime { t.cur.time with parent := none, syncWait := none, msDelay := none, mpd := none, reqWait := none }
  let t := t.w 0x5001 0 0x11 st
  let t := t.when (st == 6) (fun t => t.showGm (t.g 0x5001 0 0x16) 0)
  t.when (slave && t.g 0x5000 0 0x05 == 0) Tx.sourceLost

/-- The state decision of the best master clock algorithm; a grandmaster-only port is MASTER whoever else announces
(R243). -/
def Tx.bmca (t : Tx s0) : Tx s0 :=
  let s := t.cur
  let st := s.g 0x5001 0 0x11
  let own := ptpRank (s.g 0x5001 0 0x0D) s.clockQuality (s.g 0x5001 0 0x0E) (beNat s.ptpIdent) 0 s.ptpPort
  match s.bestMaster with
  | none => t
  | some f =>
    if s.g 0x5001 0 0x03 == 0 then t.ptpFollow f
    else if s.g 0x5001 0 0x03 == 2 then (if st == 6 then t else t.ptpLeave 6)
    else if f.rank < own then
      if s.clockQuality / 2 ^ 24 < 128 then (if st == 7 then t else t.ptpLeave 7) else t.ptpFollow f
    else if st == 6 then t else t.ptpLeave 6

/-- PTP_ANNOUNCE (R243, R244). -/
def execPtpAnnounce (n : Nat) (m : Bytes) (s : State) : Host.Outcome State Fault Refusal :=
  runCtl s fun t =>
    let t := t.ptpPop
    let id := ptpIdentOf m
    if !s.ptpTakes n 64 m || id / 65536 == beNat s.ptpIdent || 255 ≤ fieldBE m 61 2 then t
    else
      let x := s.time
      let old := x.foreigns.find? (fun f => f.mac == n && f.ident == id)
      let f : Foreign := ⟨n, id, fieldBE m 53 8, fieldBE m 47 1, fieldBE m 48 4, fieldBE m 52 1, fieldBE m 61 2, s.clock,
        old.map (·.last)⟩
      let t := t.setTime { x with foreigns := (f :: x.foreigns.filter (fun f => !(f.mac == n && f.ident == id))).take 16,
                                  annAt := mset n s.clock x.annAt }
      t.bmca

/-- Announce receipt timeout in cycles. -/
def State.annTimeout (s : State) : Nat := s.g 0x5001 0 0x0C * s.ptpInterval 0x0A

/-- The MAC that the port does not use, if it has a backup. -/
def State.otherMac (s : State) : Option Nat :=
  let p := s.g 0x5001 0 0x05
  let b := s.g 0x5001 0 0x06
  if b == 0xFF || b == p then none else some (if s.g 0x5001 0 0x12 == p then b else p)

/-- The port moves to a MAC; the servo keeps its state (R244). -/
def Tx.ptpMove (t : Tx s0) (m : Nat) : Tx s0 :=
  let t := ((t.w 0x5001 0 0x12 m).tally 0x5001 0 0x1A).flagBit 0x5001 0 0x1B 2
  let t := t.setTime { t.cur.time with annFrom := t.cur.clock, syncWait := none, msDelay := none, mpd := none,
                                       reqWait := none, parent := none }
  let st := t.g 0x5001 0 0x11
  let t := t.when (st == 8 || st == 9) (fun t => t.w 0x5001 0 0x11 4)
  t.bmca

/-- ANNOUNCE_TIMEOUT (R240, R244): no Announce on the MAC in use for the receipt timeout. -/
def execAnnounceTimeout (s : State) : Host.Outcome State Fault Refusal :=
  runCtl s fun t =>
    let x := s.time
    let st := s.g 0x5001 0 0x11
    let m := s.g 0x5001 0 0x12
    let due := max x.annFrom (mget 0 x.annAt m) + s.annTimeout
    if !s.on 0x5001 0 0x01 || !(st == 4 || st == 7 || st == 8 || st == 9) || s.clock < due then t
    else
      let t := (t.tally 0x5001 0 0x18).flagBit 0x5001 0 0x1B 0
      let t := t.setTime { x with annFrom := s.clock }
      let alive := match s.otherMac with
        | some o => (match mget? x.annAt o with
          | some c => if s.clock < c + s.annTimeout then some o else none
          | none => none)
        | none => none
      match alive with
      | some o => t.ptpMove o
      | none =>
        let t := t.when (st == 4 && s.g 0x5000 0 0x05 == 0) Tx.sourceLost
        t.ptpLeave (if s.g 0x5001 0 0x03 == 0 then 4 else 6)

/-- The link of MAC m goes down under the PTP port (R244). -/
def Tx.ptpLinkDown (t : Tx s0) (m : Nat) : Tx s0 :=
  if !t.on 0x5001 0 0x01 || t.g 0x5001 0 0x12 != m then t
  else match t.cur.otherMac with
    | some o => t.ptpMove o
    | none => t

/-- LINK_DOWN (R199, R244). -/
def execLinkDown (n : Nat) (s : State) : Host.Outcome State Fault Refusal :=
  run s fun t => if s.g 0x4800 n 0x07 == 0 then t else (t.linkDown n).ptpLinkDown n

/-- Own rule of 0x4800[m]:01 (R199). -/
def macEnableRule (m : Nat) (d : Bytes) (t : Tx s0) : Tx s0 :=
  let up := t.g 0x4800 m 0x07 == 1
  let t := t.w 0x4800 m 0x01 (leNat d)
  if leNat d == 0 && up then (t.linkDown m).ptpLinkDown m else t

/-- Own rule of 0x5001:01 (R241, R244). -/
def ptpEnableRule (d : Bytes) (t : Tx s0) : Tx s0 :=
  let was := t.on 0x5001 0 0x01
  let a := t.cur
  let t := t.w 0x5001 0 0x01 (leNat d)
  if was == (leNat d == 1) then t
  else
    let t := t.igmpFollow a
    let t := t.setTime { t.cur.time with foreigns := [], annAt := [], annFrom := t.cur.clock }
    if was then (t.ptpLeave 1).w 0x5001 0 0x12 0xFF
    else ((t.w 0x5001 0 0x12 (t.g 0x5001 0 0x05)).w 0x5001 0 0x11 4).showClass

/-- Own rule of 0x5001:02 to :10 (R242): only while PTP is disabled; a profile sets its defaults. -/
def ptpConfigRule (sub : Nat) (d : Bytes) (t : Tx s0) : Tx s0 :=
  if t.on 0x5001 0 0x01 then t.status stState
  else
    let t := t.w 0x5001 0 sub (leNat d)
    let t := t.when (sub == 0x02) (fun t =>
      t.each [0x04, 0x07, 0x08, 0x09, 0x0A, 0x0B, 0x0C] (fun t q =>
        t.wi 0x5001 0 q (ptpParam (leNat d) q (ptpParam (leNat d) 0x09 0).1).1))
    t.showClass

/-! ## PPS (R247, R248) -/

/-- PPS_EDGE (R247): the selected edge came when the counter read `clock`. -/
def execPpsEdge (clock : Nat) (s : State) : Host.Outcome State Fault Refusal :=
  run s fun t =>
    let t := t.at_ clock
    let s := t.cur
    if s.g 0x5000 0 0x05 != 1 then t
    else
      let at_ : Int := (s.ns : Int) - signed 32 (s.g 0x5000 0 0x16)
      let phase : Int := (at_ + 500000000) % 1000000000 - 500000000
      let t := t.wi 0x5000 0 0x18 phase
      let good := match s.time.ppsLast with
        | some p => let d := (s.clock - p.2) * s.rho / 2 ^ 47; 999000000 ≤ d && d ≤ 1001000000
        | none => true
      if !good then
        t.setTime { s.time with qual := 0 }
      else
        let t := t.setTime { s.time with ppsLast := some (at_.toNat, s.clock) }
        let t := t.measured 4 (phase * 65536) 0
        let st := t.g 0x5000 0 0x07
        t.w 0x5000 0 0x17 (if st == 1 || st == 2 then 2 else 1)

/-- PPS_LOST (R240): 2 s without a good edge. -/
def execPpsLost (s : State) : Host.Outcome State Fault Refusal :=
  runCtl s fun t =>
    match s.time.ppsLast with
    | some p =>
      if s.g 0x5000 0 0x05 != 1 || s.clock < p.2 + secC 2 then t
      else
        let t := t.setTime { s.time with ppsLast := none }
        ((t.w 0x5000 0 0x17 0).flagBit 0x5000 0 0x1C 4).sourceLost
    | none => t

/-- TIME_PPS_OUT falls. -/
def Tx.ppsFall (t : Tx s0) : Tx s0 :=
  (t.setTime { t.cur.time with pulseEnd := none }).emit (.pin "TIME_PPS_OUT" 0)

/-- TIME_PPS_OUT rises at an instant in ns of system time and stays high for the width; pulses that overlap merge, one
that had ended by then falls first. -/
def Tx.ppsRise (t : Tx s0) (ns : Nat) : Tx s0 :=
  let x := t.cur.time
  let stop := ns + x.ppsOut.2.1 * 1000
  match x.pulseEnd with
  | some e =>
    if ns ≤ e then t.setTime { x with pulseEnd := some (max e stop) }
    else (t.ppsFall.setTime { x with pulseEnd := some stop }).emit (.pin "TIME_PPS_OUT" 1)
  | none => (t.setTime { x with pulseEnd := some stop }).emit (.pin "TIME_PPS_OUT" 1)

/-- TIME_PPS_OUT in the period of media time m (R248); settings change at a whole second. -/
def Tx.ppsOutPeriod (t : Tx s0) (m : Nat) : Tx s0 :=
  let f := t.cur.fA
  let a : Int := ((m - 1) * 1000000000 / f : Nat)
  let b : Int := (m * 1000000000 / f : Nat)
  let t := t.when (a / 1000000000 != b / 1000000000) (fun t =>
    let o := (t.g 0x5000 0 0x12, t.g 0x5000 0 0x13, signed 32 (t.g 0x5000 0 0x14))
    t.setTime { t.cur.time with ppsOut := o })
  let x := t.cur.time
  let t := t.when (match x.pulseEnd with
    | some e => x.ppsOut.1 == 0 || (e : Int) ≤ b
    | none => false) Tx.ppsFall
  let rise := (b - x.ppsOut.2.2) / 1000000000 * 1000000000 + x.ppsOut.2.2
  t.when (x.ppsOut.1 == 1 && a < rise) (fun t => t.ppsRise rise.toNat)

/-! ## Triggers (R249 to R251) -/

/-- Whether system time has reached a target of a trigger's time base when the counter reads c. -/
def State.reached (s : State) (base target c : Nat) : Bool :=
  if base == 0 then (target * 2 ^ 47 : Nat) ≤ s.sysAt c
  else (target * 1000000000 * 2 ^ 47 : Nat) ≤ s.sysAt c * (s.fA : Int)

/-- Instant of a target in ns. -/
def State.targetNs (s : State) (base target : Nat) : Nat := if base == 0 then target else nsOfMedia s.fA target

/-- Next target of trigger n, none while it is disarmed. -/
def State.target (s : State) (n : Nat) : Option Nat := mget? s.time.trig n

/-- Trigger n waits for a target. -/
def Tx.setTarget (t : Tx s0) (n target : Nat) : Tx s0 :=
  (t.setTime { t.cur.time with trig := mset n target t.cur.time.trig }).w 0x5100 n 0x07
    (time80 (t.cur.targetNs (t.g 0x5100 n 0x02) target))

/-- Trigger n is disarmed. -/
def Tx.disarm (t : Tx s0) (n : Nat) : Tx s0 :=
  let x := t.cur.time
  ((t.setTime { x with trig := mdel n x.trig, missed := x.missed.filter (· != n) }).w 0x5100 n 0x01 0).w 0x5100 n 0x07 0

/-- Trigger n fires, at an instant in ns of system time: its count, flag and actions. -/
def Tx.fire (t : Tx s0) (n ns : Nat) : Tx s0 :=
  let s := t.cur
  let acts := s.g 0x5100 n 0x06
  let t := ((t.tally 0x5100 n 0x08).w 0x5100 n 0x09 (time80 s.ns)).flagBit 0x5100 n 0x0B 0
  let fired := t.g 0x5100 n 0x08
  let t := t.msg (376 + n) (leBytes 4 fired)
  let t := t.when (bit acts 0) (fun t => t.rakeSet (2 ^ (8 + n)))
  let t := t.when (bit acts 1) (fun t => t.eventRecord 1 0x5100 n fired s.now)
  t.when (bit acts 2 && s.time.ppsOut.1 == 2) (fun t => t.ppsRise ns)

/-- Whether trigger n waits for the restart of the engines: a step passed it, or its media time is being recomputed. -/
def State.trigWaits (s : State) (n : Nat) : Bool :=
  s.time.missed.contains n ||
  (s.g 0x5100 n 0x02 == 1 && !s.engines.running && s.on 0x3F00 0 0x03)

/-- Own rule of 0x5100[n]:01 (R249, R250). -/
def armRule (n : Nat) (d : Bytes) (t : Tx s0) : Tx s0 :=
  let s := t.cur
  let base := s.g 0x5100 n 0x02
  match s.target n with
  | some x =>
    if leNat d == 1 then t else (t.when (s.reached base x s.clock && !s.trigWaits n) (fun t => t.fire n (s.targetNs base x))).disarm n
  | none =>
    if leNat d == 0 then t
    else
      let x := if base == 0 then time80Ns (s.g 0x5100 n 0x03) else s.g 0x5100 n 0x04
      if s.reached base x s.clock then t.status stTooLate else (t.w 0x5100 n 0x01 1).setTarget n x

/-- TRIGGER_ARM and TRIGGER_DISARM (R249, R250): writes of 0x5100[n]:01. -/
def execTriggerArm (h n : Nat) (d : Bytes) (s : State) : Host.Outcome State Fault Refusal :=
  run s fun t => t.guarded h (opOf 0x5100 n 0x01 d) (armRule n d)
def execTriggerDisarm (h n : Nat) (d : Bytes) (s : State) : Host.Outcome State Fault Refusal :=
  run s fun t => t.guarded h (opOf 0x5100 n 0x01 d) (armRule n d)

/-- Own rule of 0x5100[n]:02 to :06: only while the trigger is disarmed (R249). -/
def triggerRule (n sub : Nat) (d : Bytes) (t : Tx s0) : Tx s0 :=
  if t.on 0x5100 n 0x01 then t.status stState else t.w 0x5100 n sub (leNat d)

/-- TRIGGER_FIRE (R249): trigger n at the counter `clock`. -/
def execTriggerFire (n clock : Nat) (s : State) : Host.Outcome State Fault Refusal :=
  run s fun t =>
    let t := t.at_ clock
    let s := t.cur
    match s.target n with
    | some x =>
      if s.trigWaits n || !s.reached (s.g 0x5100 n 0x02) x s.clock then t
      else
        let p := s.g 0x5100 n 0x05
        let t := t.fire n (s.targetNs (s.g 0x5100 n 0x02) x)
        if p == 0 then t.disarm n else t.setTarget n (x + p)
    | none => t

/-- A trigger whose target was passed fires once at the restart, where its pulse rises (R248); each target passed counts as missed (R250, R251). -/
def Tx.fireMissed (t : Tx s0) (n : Nat) : Tx s0 :=
  let s := t.cur
  match s.target n with
  | some x =>
    let base := s.g 0x5100 n 0x02
    let p := s.g 0x5100 n 0x05
    let here : Nat := if base == 0 then s.ns else (s.sysAt s.clock * (s.fA : Int) / (2 ^ 47 * 1000000000)).toNat
    let k := if p == 0 then 1 else (here - x) / p + 1
    let t := ((t.fire n s.ns).count 0x5100 n 0x0A k).flagBit 0x5100 n 0x0B 1
    if p == 0 then t.disarm n else t.setTarget n (x + k * p)
  | none => t

/-- Triggers that a step from the present offset to `off` passes (R250). -/
def State.passed (s : State) (off : Int) : List Nat :=
  let s' := { s with time := { s.time with off := off } }
  (s.time.trig.filter (fun p =>
    let b := s.g 0x5100 p.1 0x02
    !s.reached b p.2 s.clock && s'.reached b p.2 s.clock)).map (·.1)

/-- A count of samples at another rate, rounded up (R251). -/
def rescale (old new s : Nat) : Nat := ceilDiv (s * new) old

/-- Media times of the triggers are carried over to a new rate (R251). -/
def Tx.triggersRescale (t : Tx s0) (old new : Nat) : Tx s0 :=
  t.each (List.range 16) (fun t n =>
    let t := t.w 0x5100 n 0x04 (rescale old new (t.g 0x5100 n 0x04))
    if t.g 0x5100 n 0x02 != 1 then t
    else
      let p := t.g 0x5100 n 0x05
      let t := t.when (p != 0) (fun t => t.w 0x5100 n 0x05 (max 1 (rescale old new p)))
      match t.cur.target n with
      | some x => t.setTarget n (rescale old new x)
      | none => t)

/-- Triggers at the restart of the engines: those passed by a step, and at a change of rate those whose sample fell in
the stop (R250, R251). -/
def Tx.triggersRestart (t : Tx s0) (rate : Bool) : Tx s0 :=
  let s := t.cur
  let due := (s.time.trig.filter (fun p =>
    s.reached (s.g 0x5100 p.1 0x02) p.2 s.clock &&
    (s.time.missed.contains p.1 || (rate && s.g 0x5100 p.1 0x02 == 1)))).map (·.1)
  let t := t.setTime { s.time with missed := [] }
  t.each due (fun t n => t.fireMissed n)

/-! ## Captures (R252) -/

/-- CAPTURE (R252): the selected edge of unit n's source came when the counter read `clock`. -/
def execCapture (n clock : Nat) (s : State) : Host.Outcome State Fault Refusal :=
  run s fun t =>
    let t := t.at_ clock
    let s := t.cur
    if !s.on 0x5200 n 0x01 then t
    else if (match mget? s.time.caps n with
      | some c => decide ((s.clock - c) * s.rho < 100 * 2 ^ 47)
      | none => false) then (t.tally 0x5200 n 0x09).flagBit 0x5200 n 0x0A 1
    else
      let x := s.ns * s.fA
      let m := x / 1000000000
      let frac := x % 1000000000 * 65536 / 1000000000
      let acts := s.g 0x5200 n 0x04
      let t := t.setTime { s.time with caps := mset n s.clock s.time.caps }
      let t := ((t.w 0x5200 n 0x05 (time80 s.ns)).w 0x5200 n 0x06 m).w 0x5200 n 0x07 frac
      let t := (t.tally 0x5200 n 0x08).flagBit 0x5200 n 0x0A 0
      let t := t.msg (392 + n) (leBytes 8 m ++ leBytes 2 frac ++ [0, 0])
      let t := t.when (bit acts 0) (fun t => t.rakeSet (2 ^ (24 + n)))
      t.when (bit acts 1) (fun t => t.eventRecord 2 0x5200 n (t.g 0x5200 n 0x08) m)

end Sys2Proof.Machine
end

