-- ==== Sys2Proof/Machine/Sprinkler.lean ====
section
/-! DEFINITION. The Sprinkler (R253 to R262): datagrams of the head and of members, repair, resynchronisation and
takeover. -/

namespace Sys2Proof.Machine
open Sys2Proof

variable {s0 : State}

/-! ## State -/

def State.sprkState (s : State) : Nat := s.g 0x5400 0 0x0D
def State.sprkLast (s : State) : Nat := s.g 0x5400 0 0x10

/-- Replace the Sprinkler's state beside its entries. -/
def Tx.sprkSet (t : Tx s0) (f : Sprk → Sprk) : Tx s0 := t.setSprk (f t.cur.sprk)

/-- The device takes a Sprinkler state (Table 18.3, type 439). -/
def Tx.sprkTo (t : Tx s0) (st : Nat) : Tx s0 :=
  let old := t.cur.sprkState
  if old == st then t
  else
    (t.w 0x5400 0 0x0D st).msg 439
      ([byte old, byte st] ++ leBytes 2 (t.g 0x5400 0 0x0E) ++ leBytes 4 (t.g 0x5400 0 0x0F))

/-- State of a device in order: SYNCED, or STANDBY for the standby head (R254, R261). -/
def State.sprkSynced (s : State) : Nat := if s.g 0x5400 0 0x02 == 3 then 7 else 2

/-- The device enters RESYNC and asks for a snapshot at once (R260). -/
def Tx.sprkResync (t : Tx s0) : Tx s0 :=
  let t := t.sprkSet (fun x => { x with gapAt := none, snapNext := none, snapTags := [], reqAt := t.cur.clock - msC 100 })
  ((t.flagBit 0x5400 0 0x1C 2).freezeOn 5).sprkTo 4

/-- Own rule of 0x5400:02 (R254): a role needs the key; it starts afresh. -/
def roleRule (d : Bytes) (t : Tx s0) : Tx s0 :=
  let r := leNat d
  let a := t.cur
  if r != 0 && (t.cur.gb 0x5400 0 0x08).isEmpty then t.status stState
  else if r == t.g 0x5400 0 0x02 then t
  else
    let t := (t.w 0x5400 0 0x02 r).setSprk { Sprk.init with beatAt := t.cur.clock, ctl := t.cur.sprk.ctl }
    let t := t.w 0x5400 0 0x0E (if r == 2 then t.g 0x5400 0 0x01 else 0xFFFF)
    (t.sprkTo (match r with
      | 0 => 0
      | 2 => 6
      | _ => 1)).igmpFollow a

/-- Own rule of 0x5400:01 and :03 to :08 (R254): only while the role is off. -/
def sprkConfigRule (sub : Nat) (d : Bytes) (t : Tx s0) : Tx s0 :=
  if t.g 0x5400 0 0x02 != 0 then t.status stState
  else if sub == 0x08 then t.wb 0x5400 0 0x08 d
  else t.w 0x5400 0 sub (leNat d)

/-! ## Reception (R257, R261, R262) -/

/-- A datagram: type, sender, target, epoch, sequence, rate, records, flags, payload (Table 9.7). -/
structure Dgram where
  ty : Nat
  sender : Nat
  target : Nat
  epoch : Nat
  seq : Nat
  rate : Nat
  records : Nat
  flags : Nat
  payload : Bytes

def dgramOf (m : Bytes) : Dgram :=
  ⟨fieldLE m 1 1, fieldLE m 4 2, fieldLE m 6 2, fieldLE m 8 4, fieldLE m 12 4, fieldLE m 24 4, fieldLE m 30 1, fieldLE m 31 1,
   slice m 32 (fieldLE m 28 2)⟩

/-- Whether a datagram's tag holds and its length is the one it states. -/
def State.dgramTag (s : State) (m : Bytes) : Bool :=
  48 ≤ m.length && m.length == 48 + fieldLE m 28 2 &&
  m.drop (m.length - 16) == (hmacSha256 (s.gb 0x5400 0 0x08) (m.take (m.length - 16))).take 16

/-- A head that meets a higher epoch or an equal head of a lower number becomes a member (R261). -/
def Tx.demote (t : Tx s0) (flag : Nat) : Tx s0 := ((t.w 0x5400 0 0x02 1).flagBit 0x5400 0 0x1C flag).sprkResync

/-- The device leaves MISMATCH for the state it had before; a device that has stepped meanwhile resynchronises (R237,
R262). -/
def Tx.mismatchEnd (t : Tx s0) : Tx s0 :=
  if t.cur.sprk.before == 4 then t.sprkResync else t.sprkTo t.cur.sprk.before

/-- A member whose last processed sequence is below the first of the epoch resynchronises (R261). -/
def Tx.epochCheck (t : Tx s0) (first : Nat) : Tx s0 :=
  let s := t.cur
  let t := t.sprkSet (fun y => { y with unseen := false })
  if seqNewer first s.sprkLast && s.sprkState != 1 && s.sprkState != 4 then t.sprkResync else t

/-- The device follows a valid datagram's epoch, and equal heads are resolved (R261); `first` is the first DATA sequence
of the epoch as far as the datagram shows it: the check against it waits for a datagram that does. -/
def Tx.followEpoch (t : Tx s0) (x : Dgram) (first : Option Nat) : Tx s0 :=
  let s := t.cur
  let fromHead := x.ty == 0 || x.ty == 1
  if s.g 0x5400 0 0x0F < x.epoch then
    let t := t.w 0x5400 0 0x0F x.epoch
    let t := t.when fromHead (fun t => t.w 0x5400 0 0x0E x.sender)
    if s.isHead then t.demote 5
    else match first with
      | some f => t.epochCheck f
      | none => t.sprkSet (fun y => { y with unseen := true })
  else if fromHead then
    if !s.isHead then
      let t := t.w 0x5400 0 0x0E x.sender
      match first with
      | some f => t.when s.sprk.unseen (fun t => t.epochCheck f)
      | none => t
    else if x.sender < s.g 0x5400 0 0x01 then (t.w 0x5400 0 0x0E x.sender).demote 6
    else t
  else t

/-- A datagram of a type arrives in Ring 2 (R262): what it brings runs only if no case of R262 discards it. -/
def Tx.dgram (t : Tx s0) (m : Bytes) (types : List Nat) (f : Dgram → Tx s0 → Tx s0) : Tx s0 :=
  let t := t.ringPop 2
  let s := t.cur
  let x := dgramOf m
  if s.g 0x5400 0 0x02 == 0 then t
  else if !s.dgramTag m then (t.tally 0x5400 0 0x1B).flagBit 0x5400 0 0x1C 8
  else if !types.contains x.ty || fieldLE m 2 2 != s.g 0x5400 0 0x03 || x.epoch < s.g 0x5400 0 0x0F || fieldLE m 0 1 != 1 then t
  else if x.rate != s.fA then
    let t := t.flagBit 0x5400 0 0x1C 3
    if s.sprkState == 5 then t else (t.sprkSet (fun y => { y with before := s.sprkState })).sprkTo 5
  else
    let t := t.when (s.sprkState == 5) Tx.mismatchEnd
    let first := if x.ty == 0 then some x.seq else if x.ty == 1 then some ((x.seq + 1) % 2 ^ 32) else none
    let t := t.followEpoch x first
    f x (t.when ((x.ty == 0 || x.ty == 1) && !t.cur.isHead) (fun t => t.sprkSet (fun y => { y with beatAt := t.cur.clock })))

/-! ## Records (R258, R259) -/

/-- Records of a payload: kind and body; a record cut short ends it. -/
def recordsOf : Nat → Bytes → List (Nat × Bytes)
  | 0, _ => []
  | f + 1, b =>
    let n := fieldLE b 2 2
    if b.length < 4 + n then [] else (fieldLE b 0 1, slice b 4 n) :: recordsOf f (b.drop (4 + n))

/-- Entries of an object control record (Table 9.9): bit of the field mask, sub-index, offset, size. -/
def controlFields : List (Nat × Nat × Nat × Nat) :=
  [(0, 0x01, 3, 1), (1, 0x04, 4, 1), (2, 0x02, 5, 1), (3, 0x03, 8, 4), (4, 0x05, 6, 1), (5, 0x07, 12, 4), (6, 0x09, 7, 1)]

/-- First boundary whose evaluation has not begun, for records processed now. -/
def State.firstFree (s : State) : Nat := nextEval s.now

/-- An object control record: a flush first, then the fields whose bits are set. Whether it landed late. -/
def Tx.controlRecord (t : Tx s0) (r : Bytes) : Bool × Tx s0 :=
  let s := t.cur
  let n := fieldLE r 0 2
  let mask := fieldLE r 2 1
  let at_ := fieldLE r 16 8
  let late := at_ != 0 && at_ < s.firstFree
  let land := if at_ < s.firstFree then s.firstFree else at_
  if 1024 ≤ n || !s.replicated n || r.length != 24 then (false, t)
  else
    let t := t.when (bit mask 7) (fun t => t.controlAt n 0x0B s.scene.accNext land)
    (late, t.each controlFields (fun t f =>
      let d := slice r f.2.2.1 f.2.2.2
      match entryOf 0x2000 n f.2.1 with
      | some e =>
        let refused := f.2.1 == 0x01 && leNat d == 1 && s.heldOff n
        if bit mask f.1 && rangeOk s 0x2000 n e d && !refused then t.controlAt n f.2.1 (leNat d) land else t
      | none => t))

/-- Records applied as one push accepted now (R259); how many landed late. -/
def Tx.applyRecords (t : Tx s0) (rs : List (Nat × Bytes)) : Nat × Tx s0 :=
  let a := t.cur.now
  rs.foldl (fun (x : Nat × Tx s0) r =>
    if r.1 == 0 then
      if r.2.length != 56 || !x.2.cur.replicated (fieldLE r.2 0 2) then x
      else
        let y := pushRecord none a 0 r.2 (x.2, Push.init)
        (x.1 + y.2.late, y.1)
    else if r.1 == 1 then let y := x.2.controlRecord r.2; (x.1 + b2n y.1, y.2)
    else x) (0, t)

/-- Boundary that a record names. -/
def recordTime (r : Nat × Bytes) : Nat := if r.1 == 0 then fieldLE r.2 8 8 / 16 * 16 else fieldLE r.2 16 8

/-- Margin in µs from now to the acceptance horizon of the earliest boundary that records name (R259). -/
def State.marginOf (s : State) (rs : List (Nat × Bytes)) : Option Int :=
  match rs.map recordTime with
  | [] => none
  | b :: bs => some (divTrunc ((((bs.foldl min b : Nat) : Int) - 32 - s.now) * 1000000) s.fA)

/-- Lowest margin of the last second (0x5400:18). -/
def State.lowestMargin (s : State) : Int :=
  match (s.sprk.margins.filter (fun p => s.clock < p.1 + secC 1)).map (·.2) with
  | [] => 0
  | m :: ms => ms.foldl min m

/-- One DATA datagram is processed in order (R259). -/
def Tx.sprkProcess (t : Tx s0) (seq records : Nat) (payload : Bytes) : Tx s0 :=
  let s := t.cur
  let rs := (recordsOf payload.length payload).take records
  let r := t.applyRecords rs
  let t := r.2.when (r.1 != 0) (fun t => (t.count 0x5400 0 0x16 r.1).flagBit 0x5400 0 0x1C 0)
  let t := (t.w 0x5400 0 0x10 seq).tally 0x5400 0 0x11
  let t := match s.marginOf rs with
    | some m => t.sprkSet (fun x => { x with margins := (s.clock, m) :: x.margins.filter (fun p => s.clock < p.1 + secC 1) })
    | none => t
  t.when (s.g 0x5400 0 0x02 == 3) (fun t =>
    t.sprkSet (fun x => let k := x.kept ++ [(seq, records, payload)]; { x with kept := k.drop (k.length - 8192) }))

/-- Next expected sequence. -/
def State.sprkNext (s : State) : Nat := (s.sprkLast + 1) % 2 ^ 32

/-- Held datagrams that follow in sequence are processed. -/
def Tx.sprkDrain : Nat → Tx s0 → Tx s0
  | 0, t => t
  | f + 1, t =>
    match t.cur.sprk.hold.find? (fun h => h.seq == t.cur.sprkNext) with
    | some h =>
      let t := t.sprkSet (fun x => { x with hold := x.hold.filter (fun y => y.seq != h.seq) })
      (t.sprkProcess h.seq h.records h.payload).sprkDrain f
    | none => t

/-- What is held, in ascending sequence. -/
def State.sprkHeld (s : State) : List HeldData := sortBy (fun a b => seqNewer b.seq a.seq) s.sprk.hold

/-- Every held datagram is processed, in ascending sequence (R260). -/
def Tx.sprkFlush (t : Tx s0) : Tx s0 :=
  let hs := t.cur.sprkHeld
  let t := t.sprkSet (fun x => { x with hold := [] })
  t.each hs (fun t h => t.sprkProcess h.seq h.records h.payload)

/-- A datagram is held for later. -/
def Tx.sprkHold (t : Tx s0) (x : Dgram) : Tx s0 :=
  if t.cur.sprk.hold.any (fun h => h.seq == x.seq) then t
  else t.sprkSet (fun y => { y with hold := y.hold ++ [⟨x.seq, x.records, x.payload, t.cur.now⟩] })

/-- Open gaps after a sequence: first missing and how many, at most 256 at a time. -/
def gapsAfter : Nat → List Nat → List (Nat × Nat)
  | _, [] => []
  | last, q :: qs =>
    let n := (q + 2 ^ 33 - last - 1) % 2 ^ 32
    (if n == 0 then [] else [((last + 1) % 2 ^ 32, min 256 n)]) ++ gapsAfter q qs

/-- Gaps that are open (R260). -/
def State.sprkGaps (s : State) : List (Nat × Nat) := gapsAfter s.sprkLast (s.sprkHeld.map (·.seq))

/-- The device sends a NAK for a gap to the head (R260, Table 9.8). -/
def Tx.sendNak (t : Tx s0) (gap : Nat × Nat) : Tx s0 :=
  let s := t.cur
  let b := leBytes 4 gap.1 ++ leBytes 2 gap.2 ++ [0, 0]
  let t := (t.sprkSend 2 (s.g 0x5400 0 0x0E) 0 0 0 b).tally 0x5400 0 0x12
  t.sprkSet (fun x => { x with nakAt := s.clock })

/-- After processing: every gap is closed, or the first one open was detected when the first datagram above it came. -/
def Tx.sprkSettle (t : Tx s0) : Tx s0 :=
  let t := t.sprkDrain t.cur.sprk.hold.length
  let s := t.cur
  let t := t.sprkSet (fun x => { x with hold := x.hold.filter (fun h => seqNewer h.seq s.sprkLast) })
  match t.cur.sprk.hold.map (·.at_) with
  | [] => (t.sprkSet (fun x => { x with gapAt := none })).sprkTo t.cur.sprkSynced
  | a :: as => (t.sprkSet (fun x => { x with gapAt := some (as.foldl min a) })).sprkTo 3

/-- A DATA or REPAIR datagram on a device that follows a head (R259, R260): one above the newest so far and not next to it
opens a gap, for which a NAK goes out at once. -/
def Tx.sprkDatagram (t : Tx s0) (x : Dgram) : Tx s0 :=
  let s := t.cur
  let st := s.sprkState
  let newest := (s.sprkHeld.getLast?.map (·.seq)).getD s.sprkLast
  if st == 1 || st == 4 then t.sprkHold x
  else if st != 2 && st != 3 && st != 7 then t
  else if !seqNewer x.seq s.sprkLast then t
  else if x.seq == s.sprkNext then (t.sprkProcess x.seq x.records x.payload).sprkSettle
  else if 256 ≤ s.sprk.hold.length then t
  else
    ((t.sprkHold x).sprkSettle).when (seqNewer x.seq newest) (fun t => t.each (gapsAfter newest [x.seq]) Tx.sendNak)

/-- SPRINKLER_DATA (R259, R260): a DATA or REPAIR datagram. -/
def execSprinklerData (m : Bytes) (s : State) : Host.Outcome State Fault Refusal :=
  runCtl s fun t => t.dgram m [0, 3] (fun x t => t.sprkDatagram x)

/-- HEARTBEAT_RECEIVED (R261). -/
def execHeartbeatReceived (m : Bytes) (s : State) : Host.Outcome State Fault Refusal :=
  runCtl s fun t => t.dgram m [1] (fun _ t => t)

/-! ## Repair (R260) -/

/-- NAK (R260): the head or the standby answers with REPAIR copies, one sequence at most once per 2 ms. -/
def execNak (m : Bytes) (s : State) : Host.Outcome State Fault Refusal :=
  runCtl s fun t => t.dgram m [2] (fun x t =>
    let first := fieldLE x.payload 0 4
    let n := fieldLE x.payload 4 2
    if !(t.cur.isHead || t.g 0x5400 0 0x02 == 3) || n == 0 || 256 < n then t
    else
      t.each (range' first n) (fun t q =>
        let q := q % 2 ^ 32
        let s := t.cur
        let recent := s.sprk.repaired.filter (fun p => s.clock < p.2 + msC 2)
        match s.sprk.kept.find? (fun k => k.1 == q) with
        | some k =>
          if recent.any (fun p => p.1 == q) then t
          else
            let t := (t.sprkSend 3 0xFFFF q k.2.1 0 k.2.2).tally 0x5400 0 0x13
            t.sprkSet (fun y => { y with repaired := (q, s.clock) :: recent })
        | none => t))

/-- NAK_REPEAT (R260): every 2 ms while a gap is open, for every gap. -/
def execNakRepeat (s : State) : Host.Outcome State Fault Refusal :=
  runCtl s fun t => if s.sprk.gapAt.isSome && s.sprkState == 3 && s.sprk.nakAt + msC 2 ≤ s.clock then t.each s.sprkGaps Tx.sendNak
    else t

/-- GAP_SKIP (R260): a gap open for Λ/2 samples, or a full hold. -/
def execGapSkip (s : State) : Host.Outcome State Fault Refusal :=
  runCtl s fun t =>
    match s.sprk.gapAt with
    | some g =>
      if s.sprkState == 3 && (g + s.lead / 2 ≤ s.now || 256 ≤ s.sprk.hold.length) then
        ((t.sprkFlush.tally 0x5400 0 0x14).flagBit 0x5400 0 0x1C 1).sprkResync
      else t
    | none => t

/-! ## Snapshots (R260) -/

/-- Value of a replicated field as the head last accepted it. -/
def State.acceptedField (s : State) (n sub : Nat) : Nat :=
  match (s.sprk.ctl.filter (fun c => c.obj == n && c.sub == sub)).getLast? with
  | some c => c.val
  | none => s.g 0x2000 n sub

/-- Record with its header. -/
def sprkRecord (kind : Nat) (body : Bytes) : Bytes := leBytes 1 kind ++ [0] ++ leBytes 2 body.length ++ body

/-- Body of a keyframe record (Table 2.4). -/
def keyframeBody (n kind flags tag time : Nat) (v : Vals) : Bytes :=
  leBytes 2 n ++ leBytes 1 kind ++ leBytes 1 flags ++ leBytes 4 tag ++ leBytes 8 time ++
  ([v.pos.x, v.pos.y, v.pos.z, v.vel.x, v.vel.y, v.vel.z, v.gain, v.spread, v.size].map (leBytes 4)).foldl (· ++ ·) [] ++
  zeros 4

/-- Records of a snapshot of object n: every field with a flush, the anchor, and the pending keyframes. -/
def State.snapshotOf (s : State) (n : Nat) : List Bytes :=
  let f (sub w : Nat) : Bytes := leBytes w (s.acceptedField n sub)
  let ctl := leBytes 2 n ++ [0xFF] ++ f 0x01 1 ++ f 0x04 1 ++ f 0x02 1 ++ f 0x05 1 ++ f 0x09 1 ++ f 0x03 4 ++ f 0x07 4 ++ zeros 8
  let tr := s.track n
  let anchor := keyframeBody n 0 7 0 (tr.anchorT.getD (s.scene.clearT.getD 0)) tr.anchor
  sprkRecord 1 ctl :: sprkRecord 0 anchor ::
    tr.queue.map (fun k => sprkRecord 0 (keyframeBody n k.kind (clearBits k.flags 0x30) k.tag k.time k.vals))

/-- SNAPSHOT_REQUEST (R260): the head answers from its present state, at no more than 100 Mb/s: 80 ns for each byte of a
frame with its tag, preamble and gap. -/
def execSnapshotRequest (m : Bytes) (s : State) : Host.Outcome State Fault Refusal :=
  runCtl s fun t => t.dgram m [5] (fun x t =>
    let s := t.cur
    if !s.isHead || (x.target != s.g 0x5400 0 0x01 && x.target != 0xFFFF) then t
    else
      let rs := ((List.range s.objects).filter s.replicated).flatMap s.snapshotOf
      let ds := chunks 23 rs
      let ds := if ds.isEmpty then [[]] else ds
      let bodies := (List.range ds.length).zip ds |>.map (fun d =>
        d.2.foldl (· ++ ·) [] ++ (if d.1 + 1 == ds.length then leBytes 4 s.sprkLast else []))
      t.each ((List.range ds.length).zip (ds.zip bodies)) (fun t d =>
        let wait := 80 * sumN ((bodies.take d.1).map (fun b => 118 + b.length))
        t.sprkSendAfter wait 6 x.sender d.1 d.2.1.length (b2n (d.1 + 1 == ds.length)) d.2.2))

/-- SNAPSHOT_REQUEST_REPEAT (R260): every 100 ms in JOINING and RESYNC. -/
def execSnapshotRequestRepeat (s : State) : Host.Outcome State Fault Refusal :=
  runCtl s fun t =>
    if (s.sprkState == 1 || s.sprkState == 4) && s.sprk.reqAt + msC 100 ≤ s.clock then
      (t.sprkSend 5 (s.g 0x5400 0 0x0E) 0 0 0 []).sprkSet (fun x => { x with reqAt := s.clock })
    else t

/-- The snapshot is complete: processing resumes after its base sequence (R260). -/
def Tx.snapshotEnd (t : Tx s0) (base : Nat) : Tx s0 :=
  let t := (t.w 0x5400 0 0x10 base).tally 0x5400 0 0x15
  let now := t.cur.now
  let later := (t.cur.sprk.hold.filter (fun h => seqNewer h.seq base)).map (fun h => { h with at_ := now })
  let t := t.sprkSet (fun x => { x with snapNext := none, snapTags := [], gapAt := none, hold := later })
  let t := t.sprkSettle
  t.each t.cur.sprkGaps Tx.sendNak

/-- SNAPSHOT (R260): a datagram of a snapshot for this device; the second copy of one sent on two MACs (R257) is not taken
again. -/
def execSnapshot (m : Bytes) (s : State) : Host.Outcome State Fault Refusal :=
  runCtl s fun t => t.dgram m [6] (fun x t =>
    let s := t.cur
    let tag := m.drop (m.length - 16)
    if x.target != s.g 0x5400 0 0x01 || (s.sprkState != 1 && s.sprkState != 4) || s.sprk.snapTags.contains tag then t
    else if x.seq != 0 && s.sprk.snapNext != some x.seq then
      t.sprkSet (fun y => { y with snapNext := none, snapTags := [], reqAt := s.clock - msC 100 })
    else
      let last := bit x.flags 0
      let body := if last then x.payload.take (x.payload.length - 4) else x.payload
      let r := t.applyRecords ((recordsOf body.length body).take x.records)
      let t := r.2.sprkSet (fun y => { y with snapNext := some (x.seq + 1),
                                              snapTags := (if x.seq == 0 then [] else y.snapTags) ++ [tag] })
      if last then t.snapshotEnd (fieldLE x.payload (x.payload.length - 4) 4) else t)

/-! ## Presence and takeover (R253, R257, R261) -/

/-- The head sends a HEARTBEAT with the last sequence sent. -/
def Tx.sendHeartbeat (t : Tx s0) : Tx s0 :=
  (t.sprkSend 1 0xFFFF t.cur.sprkLast 0 0 []).sprkSet (fun x => { x with beatAt := t.cur.clock })

/-- HEARTBEAT (R257): after 10 ms without DATA. -/
def execHeartbeat (s : State) : Host.Outcome State Fault Refusal :=
  runCtl s fun t => if s.isHead && s.sprk.beatAt + msC 10 ≤ s.clock then t.sendHeartbeat else t

/-- STATUS (R257): a member or the standby, every 100 ms. -/
def execStatus (s : State) : Host.Outcome State Fault Refusal :=
  runCtl s fun t =>
    if s.g 0x5400 0 0x02 == 0 || s.isHead || s.clock < s.sprk.statusAt + msC 100 then t
    else
      let b := leBytes 1 s.sprkState ++ zeros 3 ++ leBytes 4 (s.g 0x5400 0 0x16) ++ leBytes 4 (unsigned 32 s.lowestMargin)
      (t.sprkSend 4 0xFFFF s.sprkLast 0 0 b).sprkSet (fun x => { x with statusAt := s.clock })

/-- STATUS_RECEIVED (R253): members heard, and a number used twice. -/
def execStatusReceived (m : Bytes) (s : State) : Host.Outcome State Fault Refusal :=
  runCtl s fun t => t.dgram m [4] (fun x t =>
    let t := t.when (x.sender == t.g 0x5400 0 0x01) (fun t => t.flagBit 0x5400 0 0x1C 7)
    let y : Member := ⟨x.sender, t.cur.clock, fieldLE x.payload 0 1, fieldLE x.payload 4 4⟩
    t.when (t.cur.isHead || t.g 0x5400 0 0x02 == 3) (fun t =>
      t.sprkSet (fun z => { z with members := sortBy (fun a b => a.dev < b.dev)
                                     (y :: z.members.filter (fun q => q.dev != x.sender)) })))

/-- A bit string of 64 bytes with the bits of device numbers. -/
def deviceBits (ds : List Nat) : Bytes := leBytes 64 (sumN ((nub ds).map (fun d => 2 ^ d)))

/-- Members present and behind (0x5400:19 and :1A). -/
def State.membersPresent (s : State) : Bytes :=
  deviceBits ((s.sprk.members.filter (fun m => m.dev < 512 && s.clock < m.at_ + secC 1)).map (·.dev))
def State.membersBehind (s : State) : Bytes :=
  deviceBits ((s.sprk.members.filter (fun m => m.dev < 512 && (m.state == 3 || m.state == 4 || m.late != 0))).map (·.dev))

/-- PROMOTED (R261): the standby has heard no head for the timeout. -/
def execPromoted (s : State) : Host.Outcome State Fault Refusal :=
  runCtl s fun t =>
    let st := s.sprkState
    if s.g 0x5400 0 0x02 != 3 || !(st == 1 || st == 3 || st == 4 || (st == 5 && !s.isHead) || st == 7) ||
       s.clock < s.sprk.beatAt + msC (s.g 0x5400 0 0x0C) then t
    else
      let t := (t.sprkFlush).sprkSet (fun x => { x with gapAt := none, snapNext := none, snapTags := [] })
      let t := (t.w 0x5400 0 0x0F (s.g 0x5400 0 0x0F + 1)).w 0x5400 0 0x0E (s.g 0x5400 0 0x01)
      ((t.sprkTo 6).sendHeartbeat).flagBit 0x5400 0 0x1C 4

end Sys2Proof.Machine
end

