-- ==== Sys2Proof/Machine/Engines.lean ====
section
/-! DEFINITION. Stop and restart of the engines: a change of the Domain A rate (R163), a step (R237), a scheduled
retraining (R393) and entry to IDLE (R473). -/

namespace Sys2Proof.Machine
open Sys2Proof

variable {s0 : State}

/-- The last value of a commit has landed, at media time m (R432): the stage empties. -/
def Tx.commitDone (t : Tx s0) (c : Commit) (m : Nat) : Tx s0 :=
  let t := (t.setHost c.host { t.cur.host c.host with stage := [] })
  let t := t.setCtl { t.cur.ctl with commit := none }
  let t := ((t.w 0x1300 0 0x03 0).w 0x1300 0 0x04 0xFF).tally 0x1300 0 0x08
  let t := (t.flagBit 0x1300 0 0x0B 0).w 0x1301 c.host 0x05 m
  t.msg 7 (leBytes 1 c.host ++ zeros 3 ++ leBytes 8 c.tc)

/-- Staged values take their places. -/
def Tx.stageApply (t : Tx s0) (stage : List (Nat × Bytes)) : Tx s0 := t.each stage (fun t p => t.put p.1 (leNat p.2))

/-- Outputs whose master gain or mute a stage holds. -/
def stageOutputs (stage : List (Nat × Bytes)) : List Nat :=
  nub ((stage.filter (fun p => kIdx p.1 == 0x3800)).map (fun p => kInst p.1))

/-- The values of a commit come into force at media time m, those of a plan as the plan in force (R155, R432). -/
def Tx.commitLand (t : Tx s0) (c : Commit) (m : Nat) : Tx s0 :=
  let stage := (t.cur.host c.host).stage
  let t := (t.bankDue m).stageApply stage
  let t := t.each (stageOutputs stage) (fun t k => t.masterGain m k)
  if c.plan then (t.setCtl { t.cur.ctl with commit := some { c with landed := true, loaded := true } }).w 0x1300 0 0x03 2
  else t.commitDone c m

/-- What fell due of a commit while the engines stood for a retraining lands at B, the first boundary after the restart
(R393). -/
def Tx.commitCatch (t : Tx s0) (B : Nat) : Tx s0 :=
  match t.cur.ctl.commit with
  | none => t
  | some c =>
    let c := { c with landB := if c.landB < B then B else c.landB }
    if c.landed then t.setCtl { t.cur.ctl with commit := some c }
    else if c.tc ≤ B then t.commitLand c B
    else t

/-- A pending commit is cancelled (R433): its values stay staged. A plan that is in force since t_c (R432) stays so, and the
entries report it at once (DESIGN CHOICE, assumption 14). -/
def Tx.cancelCommit (t : Tx s0) : Tx s0 :=
  match t.cur.ctl.commit with
  | none => t
  | some c =>
    let t := (t.when c.landed Tx.planReport).setCtl { t.cur.ctl with commit := none }
    ((t.w 0x1300 0 0x03 0).w 0x1300 0 0x04 0xFF).tally 0x1300 0 0x0A

/-- Bridge latency of a rate (Table 6.16). -/
def bridgeLatency (fA : Nat) : Nat := if fA == 96000 then 64 else 32

/-- Entries that follow the Domain A rate in force: the bridge's latency, the cycles of a render block and the recorder's
depth (R162, R316, R323, R354). -/
def Tx.rateEntries (t : Tx s0) : Tx s0 :=
  let f := t.cur.fA
  ((t.w 0x3F00 0 0x04 (bridgeLatency f)).w 0x5E00 0 0x03 (16 * 1000000000 / f)).w 0x5D80 0 0x07 (recDepth f)

/-- An instant u of the count before a jump, in the count after it: m0 at rate f0 becomes m1 at rate f1. -/
def carry (m0 f0 m1 f1 u : Nat) : Nat :=
  if u ≤ m0 then m1 - (m0 - u) * f1 / f0 else m1 + ceilDiv ((u - m0) * f1) f0

/-- The count jumps to the system time at rate f1 while the engines stand, from rate f0 (R234): times that the engines
keep of their own carry over with their instants (assumption 62), and what waited for a boundary waits for the next
one. A stimulus that was fading has ended with the stop (R314). -/
def Tx.recount (t : Tx s0) (f0 f1 : Nat) : Tx s0 :=
  let m0 := t.cur.now
  let t := t.tick (t.cur.sysAt t.cur.clock * (f1 : Int) / (2 ^ 47 * 1000000000)).toNat t.cur.clock
  let s := t.cur
  let c := carry m0 f0 s.now f1
  let x := s.meas
  let t := t.setMeas
    { x with resetDue := x.resetDue.map c, fading := none, opens := x.opens.map (fun p => (p.1, p.2.map (fun e => (c e.1, e.2)))),
             events := x.events.map (fun e => (e.1, c e.2)),
             mics := x.mics.map (fun p => (p.1,
               { p.2 with resetDue := p.2.resetDue.map c, resetAt := c p.2.resetAt,
                          pend := p.2.pend.map (fun q => (c q.1, q.2)),
                          sw := p.2.sw.map (fun w => { w with start := c w.start }) })) }
  let t := t.setHedge { s.hedge with block := s.now / 16,
                                     chans := s.hedge.chans.map (fun p => (p.1, { p.2 with zAt := c p.2.zAt })) }
  let t := t.setSprk { s.sprk with gapAt := s.sprk.gapAt.map c, hold := s.sprk.hold.map (fun h => { h with at_ := c h.at_ }) }
  let t := t.setPool { s.pool with raised := [] }
  let t := t.setSerial { s.serial with wcRef := s.serial.wcRef.map (fun w => (c w.1, w.2)) }
  let land := nextEval s.now
  let r := s.render
  let t := t.setRender { r with pend := r.pend.map (fun p => { p with land := land }), repack := r.repack.map (fun _ => land) }
  (t.each (nub (r.pend.map (·.obj))) (fun t n => t.showPending n)).mapsStop.correctionStop

/-- The new rate comes into force while the engines stand (R32, R35, R36, R163, R251): the scene is cleared, whatever the
stop was for. -/
def Tx.rateApply (t : Tx s0) : Tx s0 :=
  let old := t.cur.fA
  let new := t.cur.engines.newRate
  let t := t.triggersRescale old new
  let t := (t.w 0x3F00 0 0x01 new).rateEntries
  let at_ := t.g 0x6200 0 0x11
  let t := t.when (at_ != 0) (fun t => t.w 0x6200 0 0x11 (rescale old new at_))
  let t := (t.recount old new).sceneClear.holdOff.depthDefaults.furrowReset.correctionRate
  (t.w 0x3F00 0 0x03 0).flagBit 0x3F00 0 0x09 1

/-- Own rule of 0x3F00:01 (R163). Where the engines stand in IDLE the rate changes at once. -/
def domainRateRule (d : Bytes) (t : Tx s0) : Tx s0 :=
  let s := t.cur
  if s.ctl.commit.isSome || s.render.repack.isSome || s.on 0x3F00 0 0x03 then t.status stState
  else if leNat d == s.fA then t
  else
    let t := (t.abortRun.w 0x3F00 0 0x03 1).msg 10 (leBytes 4 (leNat d))
    let e := { s.engines with newRate := leNat d }
    if !e.running then
      let t := t.setEngines e
      if e.cause == 4 then t.rateApply else t
    else if e.rampB.isSome then t.setEngines e
    else t.setEngines { e with rampB := some (nextBlock s.now), cause := 1 }

/-- RATE_CHANGE (R163): write of 0x3F00:01. -/
def execRateChange (h : Nat) (d : Bytes) (s : State) : Host.Outcome State Fault Refusal :=
  run s fun t => t.guarded h (opOf 0x3F00 0 0x01 d) (domainRateRule d)

/-- OUTPUTS_RAMP_DOWN (R237, R393, R473, R476): at boundary B every destination begins its ramp to zero, which the
sample of B shows (Tx.outputMap), and at an entry to IDLE the
Hedge with them; at a thermal shutdown the Hedge follows them (R460). -/
def execOutputsRampDown (s : State) : Host.Outcome State Fault Refusal :=
  run s fun t =>
    match s.engines.rampB, s.retrainDue with
    | some B, _ =>
      if B ≤ s.now && s.engines.running then
        let t := t.setMaps { s.maps with ramp := some (B, false) }
        t.when (s.engines.cause == 4 && !s.power.hedgeOff) Tx.hedgeHold
      else t
    | none, some B =>
      (t.setEngines { s.engines with rampB := some B, cause := 3 }).setMaps { s.maps with ramp := some (B, false) }
    | none, none => t

/-- The Furrows hold no sample of the time the engines stand (assumption 32). -/
def Tx.furrowStand (t : Tx s0) : Tx s0 := t.setRender { t.cur.render with newest := none, cells := [] }

/-- What a stop for a cause does to the engines' own state. An entry to IDLE clears the scene as a change of the rate does, anchors
with it (R35, R36; DESIGN CHOICE, assumption 62: R473 names R36 alone). -/
def Tx.engineStop (t : Tx s0) (cause : Nat) : Tx s0 :=
  let full := cause == 1 || cause == 4 || cause == 5
  let t := t.w 0x6500 0 0x10 0
  let t := t.geometryStop.renderStop
  let t := if cause == 3 then t.correctionPause else t.correctionStop
  let t := (t.portsStop.streamsStop.mapsStop).poolStop full
  let t := if full then t.sceneClear.furrowReset else t.furrowStand
  let t := t.when (cause == 3) (fun t => t.w 0x6200 0 0x01 3)
  t.when (full || cause == 2) (fun t => t.measStop.micsStop)

/-- What an entry to IDLE does beyond a stop of the engines that stand for a step or a retraining (R36, R126, R344, R473). -/
def Tx.engineStopRest (t : Tx s0) : Tx s0 :=
  ((t.correctionStop.poolStop true).sceneClear.furrowReset).measStop.micsStop

/-- The power state changes (R472, Table 17.5). -/
def Tx.powerTo (t : Tx s0) (st cause : Nat) : Tx s0 :=
  let old := t.g 0x6500 0 0x01
  if old == st then t
  else
    let p := t.cur.power
    let d := t.cur.clock - p.enteredAt
    let t := t.setPower { p with enteredAt := t.cur.clock, activeFor := p.activeFor + (if old == 1 then d else 0),
                                 idleFor := p.idleFor + (if old == 2 then d else 0) }
    let t := ((t.w 0x6500 0 0x01 st).w 0x6500 0 0x06 t.cur.now).tally 0x6500 0 0x09
    (t.w 0x6500 0 0x14 cause).msg 441 [byte old, byte st, 0, 0]

/-- Seconds in ACTIVE and in IDLE (0x6500:07, :08). -/
def State.activeSecs (s : State) : Nat :=
  (s.power.activeFor + (if s.g 0x6500 0 0x01 == 1 then s.clock - s.power.enteredAt else 0)) / 1000000000
def State.idleSecs (s : State) : Nat :=
  (s.power.idleFor + (if s.g 0x6500 0 0x01 == 2 then s.clock - s.power.enteredAt else 0)) / 1000000000

/-- SRAM banks of regions 0, 2 and 3: on, or in retention in IDLE (Table 17.5); then those of region 5. -/
def Tx.showBanks (t : Tx s0) : Tx s0 :=
  let st := if t.g 0x6500 0 0x01 == 2 then 1 else 2
  (t.each (List.range 96 ++ range' 112 16) (fun t b => t.bankTo b st)).coreBanks

/-- IDLE is reached on the way to STANDBY (R473): a save runs first where one is due; then the wake sources are
armed. -/
def Tx.standbyNext (t : Tx s0) : Tx s0 :=
  if t.on 0x6500 0 0x05 && t.cur.unsaved then
    let n := if t.cur.store.run.isSome then 2 else 1
    (t.setPower { t.cur.power with entry := n }).askSave false false
  else t.setPower { t.cur.power with entry := 3 }

/-- The engines stand for IDLE (R473): a change of rate that was pending comes into force, a pending commit is
cancelled. -/
def Tx.idleEntered (t : Tx s0) : Tx s0 :=
  let t := t.cancelCommit
  let t := t.when (t.on 0x3F00 0 0x03) Tx.rateApply
  let t := (t.powerTo 2 1).showBanks
  if t.g 0x6500 0 0x03 == 3 then t.standbyNext else t.w 0x6500 0 0x03 0

/-- ENGINES_STOP (R36, R126, R163, R221, R237, R393, R473, R476): at B + 64. -/
def execEnginesStop (s : State) : Host.Outcome State Fault Refusal :=
  run s fun t =>
    match s.engines.rampB with
    | some B =>
      if !s.engines.running || s.now < B + 64 then t
      else
        let t := t.setEngines { s.engines with running := false, rampB := none }
        let t := t.engineStop s.engines.cause
        if s.engines.cause == 4 then t.idleEntered 
        else if s.engines.cause == 5 then t.cancelCommit.when (!s.power.hedgeOff) Tx.hedgeHold else t
    | none => t

/-- STEP (R237, R250): the new offset comes into force while the engines stand. -/
def execStep (s : State) : Host.Outcome State Fault Refusal :=
  run s fun t =>
    match s.engines.stepTo with
    | some off =>
      if s.engines.running then t
      else
        let gone := s.passed off
        let moved := off / 2 ^ 47 - s.time.off / 2 ^ 47
        let t := t.setTime { s.time with off := off, missed := nub (s.time.missed ++ gone),
                                         pulseEnd := s.time.pulseEnd.map (fun e => ((e : Int) + moved).toNat) }
        let t := t.setEngines { s.engines with stepTo := none, stepped := true }
        let t := (t.recount s.fA s.fA).queuesEmpty.measStop
        let t := t.cancelCommit.when s.ctl.commit.isSome (fun t => t.flagBit 0x1300 0 0x0B 3)
        let t := (t.tally 0x5000 0 0x19).flagBit 0x5000 0 0x1C 0
        if s.g 0x5400 0 0x02 == 0 || s.isHead then t
        else if s.sprkState == 5 && s.sprk.before == 6 then t
        else if s.sprkState == 5 then t.sprkSet (fun x => { x with before := 4 }) else t.sprkResync
    | none => t

/-- First render block boundary of the count of system time at or after the present cycle. -/
def State.nextCount (s : State) : Nat :=
  let x := -((-(s.sysAt s.clock * (s.fA : Int))) / (2 ^ 47 * 1000000000))
  16 * ceilDiv x.toNat 16

/-- ACTIVE is reached (R473): the DRAM is in use again, the Hedge is let up; stages 13 to 15 of a boot into IDLE end now
(R465). -/
def Tx.active (t : Tx s0) : Tx s0 :=
  let t := t.when (t.cur.power.stage == 12) (fun t =>
    let us := (t.cur.clock - t.cur.power.resetAt) / 1000
    let t := ((t.w 0x6401 0 0x0D us).w 0x6401 0 0x0E us).w 0x6401 0 0x0F us
    t.setPower { t.cur.power with stage := 15 })
  let t := t.when (t.g 0x6200 0 0x01 == 2) (fun t => t.w 0x6200 0 0x01 1)
  let t := ((t.powerTo 1 (if t.g 0x6500 0 0x01 == 2 then 1 else 0)).w 0x6500 0 0x03 0).showBanks
  t.hedgeFree

/-- Stage 14 (R465): the audio PLL has locked, with a phase error within 20 ns, which the manual leaves open (assumption 2). -/
def Tx.pllReady (t : Tx s0) : Tx s0 :=
  if t.g 0x4600 0 0x01 == 1 then t
  else
    let f := t.fresh
    (f.2.w 0x4600 0 0x01 1).wi 0x4600 0 0x02 ((f.1 % 41 : Nat) - 20)

/-- The engines and chains restart at a boundary; ports, streams and microphones from stage 14 of a boot on; and at stage 15 every
destination ramps up (Tables 6.15 and 17.3, R237, R393, R473). -/
def Tx.enginesUp (t : Tx s0) (cause : Nat) (rate stepped : Bool) (stage : Nat) : Tx s0 :=
  let t := t.when rate Tx.rateApply
  let a := t.cur.now
  let B := t.cur.nextCount
  let t := t.tick B (t.cur.clockAt B t.cur.fA)
  let t := t.each (range' (a + 1) (B - a)) (fun t m => ((t.wclkOut m).ppsOutPeriod m).runPeriod m)
  let t := t.setEngines { t.cur.engines with running := true, cause := 0, stepped := false }
  let t := ((t.when (cause == 3) (fun t => (t.commitCatch B).graftCatch B)).sceneRestart).latchInputs
  let t := t.when (cause == 6 && t.cur.power.stage == 12) Tx.pllReady
  let t := t.when (14 ≤ stage) (fun t => t.portsRestart.streamsRestart)
  let t := t.when (14 ≤ stage && (rate || stepped || cause == 6)) Tx.micsRestart
  let t := t.when (rate || cause == 6) Tx.mapsAfresh
  let t := t.poolRestart (rate || cause == 6)
  let t := t.when (rate || stepped || cause == 6) Tx.recorderRestart
  let t := t.triggersRestart rate
  let t := t.when stepped (fun t => t.msg 11 (leBytes 8 B))
  let t := t.w 0x6500 0 0x10 1
  if stage < 15 then t.setMaps { t.cur.maps with ramp := some (B - 64, false) }
  else
    let t := t.setMaps { t.cur.maps with ramp := some (B, true) }
    if cause == 6 then t.active else t

/-- A restart of everything (Table 6.15). -/
def Tx.engineRestart (t : Tx s0) (cause : Nat) (rate stepped : Bool) : Tx s0 := t.enginesUp cause rate stepped 15

/-- ENGINES_RESTART (R163, R237, R251, R393, R473): once nothing more is to be done while the engines stand. A scheduled
retraining whose time falls in the stop of a change of rate runs first. -/
def execEnginesRestart (s : State) : Host.Outcome State Fault Refusal :=
  run s fun t =>
    let e := s.engines
    let rate := s.on 0x3F00 0 0x03
    let at_ := s.g 0x6200 0 0x11
    let here := s.nextCount
    if e.running || e.stepTo.isSome || !([1, 2, 3, 6] : List Nat).contains e.cause || s.g 0x6200 0 0x01 == 3 then t
    else if rate && at_ != 0 && rescale s.fA e.newRate at_ ≤ here * e.newRate / s.fA then t.w 0x6200 0 0x01 3
    else t.engineRestart e.cause rate e.stepped

end Sys2Proof.Machine
end

