-- ==== Sys2Proof/Machine/Observe.lean ====
section
/-! DEFINITION. Counters and the trace port (R486 to R496). -/

namespace Sys2Proof.Machine
open Sys2Proof

variable {s0 : State}

/-! ## The trace FIFO (R489 to R492) -/

/-- Instance field of a message (Table 18.3), 0 for the types whose number is the instance. -/
def traceInst (ty : Nat) (payload : Bytes) : Nat :=
  if ([3, 4, 6, 8] : List Nat).contains ty || (400 ≤ ty && ty ≤ 415) then fieldLE payload 0 2
  else if ty == 443 then fieldLE payload 0 1
  else 0

/-- Whether event a goes before event b: by cycle, type and instance (R492). -/
def TraceEv.before (a b : TraceEv) : Bool :=
  let i := traceInst a.type a.payload
  let j := traceInst b.type b.payload
  a.at_ < b.at_ || (a.at_ == b.at_ && (a.type < b.type || (a.type == b.type && i < j)))

/-- A message with its header (Table 18.2). -/
def traceBytes (clock ty : Nat) (lost : Bool) (payload : Bytes) : Bytes :=
  let p := padTo4 payload
  leBytes 4 (clock % 2 ^ 16 * 2 ^ 16 + p.length / 4 % 16 * 2 ^ 12 + b2n lost * 2 ^ 11 + ty % 512 * 2 + 1) ++ p

/-- Bytes in the FIFO. -/
def Trace.fill (x : Trace) : Nat := sumN (x.fifo.map (·.bytes.length))

/-- The FIFO after n of its bytes have been sent, and the types of the messages that are sent whole. -/
def fifoDrop : Nat → List TraceMsg → List TraceMsg × List Nat
  | _, [] => ([], [])
  | n, m :: r =>
    if m.bytes.length ≤ n then
      let p := fifoDrop (n - m.bytes.length) r
      (p.1, m.type :: p.2)
    else ({ m with bytes := m.bytes.drop n } :: r, [])

/-- The port sends up to counter c: one byte in 2 ns, from the FIFO, then idle bytes (R489). -/
def Tx.traceSend (t : Tx s0) (c : Nat) (idle : Bool) : Tx s0 :=
  let x := t.cur.trace
  let n := (c - x.outAt) / 2
  if n == 0 then t
  else
    let b := (x.fifo.flatMap (·.bytes)).take n
    let k := b.length
    let p := fifoDrop n x.fifo
    let t := t.setTrace { x with fifo := p.1, outAt := x.outAt + 2 * n, secBytes := x.secBytes + k }
    let t := t.when (k != 0) (fun t =>
      let t := ((t.emit (.trace b)).inc 0x6A00 0 0x10 p.2.length).inc 0x6A00 0 0x11 k
      let t := (t.inc 0x6A00 0 0x13 (p.2.count 0)).inc 0x6A00 0 0x14 (p.2.count 444)
      t.w 0x6A00 0 0x09 (x.fill - k))
    t.when (idle && k < n) (fun t => t.emit (.traceIdle (n - k)))

/-- A message is dropped (R492). The count of counter 15 rose in the cycle of its event. A synchronisation message that is dropped
does not restart the interval (R491). -/
def Tx.traceDrop (t : Tx s0) (e : TraceEv) : Tx s0 :=
  let x := t.cur.trace
  let last := if e.type == 0 then t.g 0x6A00 0 0x16 else x.syncAt
  let t := t.setTrace { x with lost := true, resync := true, syncAt := last }
  let t := (t.w 0x6A00 0 0x12 (t.g 0x6A00 0 0x12 + 1)).w 0x680F 0 0x01 (t.g 0x680F 0 0x01 + 1)
  (t.w 0x6A00 0 0x15 e.media).flagBit 0x6A00 0 0x1F 0

/-- Payload of an event as it goes into the FIFO: that of a synchronisation message ends with the count of drops (R491). -/
def Tx.traceBody (t : Tx s0) (e : TraceEv) : Bytes :=
  if e.type == 0 then
    [0x55, 0x4B, 0x54, 0x52] ++ leBytes 8 e.at_ ++ leBytes 8 e.media ++ leBytes 4 (t.g 0x6A00 0 0x12)
  else e.payload

/-- A message goes into the FIFO, or is dropped where it does not fit whole (R492). -/
def Tx.tracePut (t : Tx s0) (e : TraceEv) : Tx s0 :=
  let x := t.cur.trace
  let b := traceBytes e.at_ e.type x.lost (t.traceBody e)
  let n := x.fill + b.length
  if 4096 < n then t.traceDrop e
  else
    let sync := e.type == 0
    let t := t.setTrace { x with fifo := x.fifo ++ [⟨e.type, b⟩], lost := false, resync := false,
                                 syncAt := if sync then e.at_ else x.syncAt }
    let t := t.when sync (fun t => t.w 0x6A00 0 0x16 e.at_)
    ((t.w 0x6A00 0 0x09 n).peak 0x6A00 0 0x0A n).when (3072 < n) (fun t => t.flagBit 0x6A00 0 0x1F 1)

/-- An event's message, at its cycle. After a drop a synchronisation message goes first, of the same cycle; where that finds no
place, nothing else goes either (R491; DEDUCED, assumption 77). -/
def Tx.traceTake (t : Tx s0) (e : TraceEv) : Tx s0 :=
  let t := t.traceSend e.at_ true
  if t.cur.trace.resync && t.g 0x6A00 0 0x02 == 1 && e.type != 0 then
    if 4096 < t.cur.trace.fill + 28 then t.traceDrop e
    else (t.tracePut ⟨e.at_, e.media, 0, true, []⟩).tracePut e
  else t.tracePut e

/-- The trace pins are driven low (R489). -/
def Tx.traceLow (t : Tx s0) : Tx s0 := (t.emit (.clock "TRACE_CLK" 0)).emit (.pin "TRACE" 0)

/-- The trace port up to the present cycle: the events of the cycles that are over take their places in order, and the port sends.
After a disable the pins go low once the FIFO is empty (R492). -/
def Tx.traceSettle (t : Tx s0) : Tx s0 :=
  let x := t.cur.trace
  if t.g 0x6A00 0 0x1E != 1 then t
  else
    let c := t.cur.clock
    let due := sortBy TraceEv.before (x.wait.filter (fun e => e.at_ < c))
    let t := (t.setTrace { x with wait := x.wait.filter (fun e => c ≤ e.at_) }).each due (fun t e => t.traceTake e)
    let t := t.traceSend c (!x.closing)
    let y := t.cur.trace
    if y.closing && y.fifo.isEmpty && y.wait.isEmpty then ((t.setTrace { y with closing := false }).w 0x6A00 0 0x1E 0).traceLow
    else t

/-- The entries of the trace port that follow its FIFO, as a read finds them (Table 18.5). -/
def State.viewTrace (s : State) (sub : Nat) : Option Nat :=
  if ([0x09, 0x0A, 0x10, 0x11, 0x12, 0x13, 0x14, 0x15, 0x16, 0x1E, 0x1F] : List Nat).contains sub then
    some ((Tx.begin s).traceSettle.cur.g 0x6A00 0 sub)
  else none

/-! ## Counters (R487, R488) -/

/-- Counter i as a read or a latch of this cycle finds it: its value before what the cycle added (R487, R488). Counter 15 follows the
trace port, whose events of this cycle are still to come. -/
def State.counterVal (s : State) (i : Nat) : Nat :=
  if i == 15 then (Tx.begin s).traceSettle.cur.g 0x680F 0 0x01
  else (s.g (0x6800 + i) 0 0x01 + 2 ^ 64 - (s.cycleOf (K (0x6800 + i) 0 0x01)).rose) % 2 ^ 64

/-- Own rule of 0x6A00:17 (R488): every counter is latched in one cycle. -/
def latchRule (d : Bytes) (t : Tx s0) : Tx s0 :=
  let s := t.cur
  let img := ((List.range 512).map (fun i => leBytes 8 (s.counterVal i))).foldl (· ++ ·) []
  let t := (t.w 0x6A00 0 0x17 (leNat d)).wb 0x6A00 0 0x1A img
  ((t.w 0x6A00 0 0x18 t.cur.now).w 0x6A00 0 0x19 t.cur.clock).inc 0x6A00 0 0x1B 1

/-- COUNTER_LATCH (R488): write of 0x6A00:17. -/
def execCounterLatch (h : Nat) (d : Bytes) (s : State) : Host.Outcome State Fault Refusal :=
  run s fun t => t.guarded h (opOf 0x6A00 0 0x17 d) (latchRule d)

/-- COUNTER_SNAPSHOT (R494): the snapshot interval has passed. -/
def execCounterSnapshot (s : State) : Host.Outcome State Fault Refusal :=
  run s fun t =>
    let n := s.g 0x6A00 0 0x06
    let first := s.g 0x6A00 0 0x05
    if n == 0 || !s.on 0x6A00 0 0x01 || !s.traceType 444 || s.clock < s.trace.snapAt + usC (s.g 0x6A00 0 0x07) then t
    else
      let body := ((range' first n).map (fun i => leBytes 8 (s.counterVal i))).foldl (· ++ ·) []
      let t := t.setTrace { s.trace with snapAt := s.clock }
      t.msg 444 (leBytes 2 first ++ leBytes 2 n ++ body)

/-- Own rule of 0x6A00:05 and :06 (R494): no counter above 511. -/
def snapRangeRule (sub : Nat) (d : Bytes) (t : Tx s0) : Tx s0 :=
  let first := if sub == 0x05 then leNat d else t.g 0x6A00 0 0x05
  let n := if sub == 0x06 then leNat d else t.g 0x6A00 0 0x06
  if 512 < first + n then t.status stOutOfRange else t.w 0x6A00 0 sub (leNat d)

/-! ## Enable and drain (R489 to R492) -/

/-- Own rule of 0x6A00:01 (R489, R491, R492). -/
def traceRule (d : Bytes) (t : Tx s0) : Tx s0 :=
  let was := t.on 0x6A00 0 0x01
  let t := t.traceSettle.w 0x6A00 0 0x01 (leNat d)
  if leNat d == 1 then
    let t := t.w 0x6A00 0 0x0F t.cur.now
    if was then t
    else
      let c := t.cur.clock
      let x := t.cur.trace
      let x := if t.g 0x6A00 0 0x1E == 1 then x else { x with outAt := c }
      let t := (t.w 0x6A00 0 0x1E 1).setTrace { x with closing := false, snapAt := c, syncAt := c }
      (t.emit (.clock "TRACE_CLK" 250000000)).msg 0 []
  else if was then t.setTrace { t.cur.trace with closing := true }
  else t

/-- TRACE_ENABLE and TRACE_DISABLE (R489, R492): writes of 0x6A00:01. -/
def execTraceEnable (h : Nat) (d : Bytes) (s : State) : Host.Outcome State Fault Refusal :=
  run s fun t => t.guarded h (opOf 0x6A00 0 0x01 d) (traceRule d)
def execTraceDisable (h : Nat) (d : Bytes) (s : State) : Host.Outcome State Fault Refusal :=
  run s fun t => t.guarded h (opOf 0x6A00 0 0x01 d) (traceRule d)

/-- TRACE_SYNC (R491): the sync interval has passed since the last synchronisation message. -/
def execTraceSync (s : State) : Host.Outcome State Fault Refusal :=
  run s fun t =>
    if s.on 0x6A00 0 0x01 && s.g 0x6A00 0 0x02 == 1 && s.trace.syncAt + s.g 0x6A00 0 0x03 ≤ s.clock then
      (t.setTrace { s.trace with syncAt := s.clock }).msg 0 []
    else t

/-- Link load over the last second (0x6A00:0B). -/
def Tx.traceSecond (t : Tx s0) : Tx s0 :=
  let x := t.cur.trace
  if t.cur.clock < x.secAt + secC 1 then t
  else (t.w 0x6A00 0 0x0B (min 100 (x.secBytes * 100 / 500000000))).setTrace { x with secBytes := 0, secAt := t.cur.clock }

/-! ## Type controls (R492, R496) -/

/-- Control of a type, 1 or 0. -/
def State.typeBit (s : State) (ty : Nat) : Nat := s.g (0x6A00 + ty) 0 0x01 % 2

/-- Type mask as 0x6A00:04 reads it, and the number of types enabled. -/
def State.traceMask (s : State) : Bytes := leBytes 64 (sumN ((range' 1 511).map (fun ty => s.typeBit ty * 2 ^ ty)))
def State.traceTypes (s : State) : Nat := b2n (s.g 0x6A00 0 0x02 == 1) + sumN ((range' 1 511).map s.typeBit)

/-- Own rule of the control of type ty, 0x6A00:02 for type 0. -/
def typeRule (ty : Nat) (d : Bytes) (t : Tx s0) : Tx s0 :=
  if traceReserved ty && leNat d != 0 then t.status stOutOfRange else t.controlTo ty (leNat d)

/-- Own rule of 0x6A00:04. -/
def typeMaskRule (d : Bytes) (t : Tx s0) : Tx s0 :=
  let m := leNat d
  if bit m 0 || (range' 1 511).any (fun ty => traceReserved ty && bit m ty) then t.status stOutOfRange
  else t.each (range' 1 511) (fun t ty => t.controlTo ty (b2n (bit m ty)))

end Sys2Proof.Machine
end

