-- ==== Sys2Proof/Machine/Sdp.lean ====
section
/-! DEFINITION. The SDP subset of media streams (R222, Table 8.7). -/

namespace Sys2Proof.Machine
open Sys2Proof

variable {s0 : State}

/-- Bytes of an ASCII text. -/
def asc (x : String) : Bytes := x.toList.map (fun c => byte c.toNat)

/-! ## Reading lines -/

/-- Split at a byte. -/
def splitAt_ (b : Byte) (l : Bytes) : List Bytes :=
  let r := l.foldr (fun c (acc : Bytes × List Bytes) => if c == b then ([], acc.1 :: acc.2) else (c :: acc.1, acc.2)) ([], [])
  r.1 :: r.2

/-- Lines of a text, each ended by LF with or without CR before it; what follows the last LF counts if it is not empty. -/
def textLines (d : Bytes) : List Bytes :=
  let ls := splitAt_ 0x0A d
  let ls := if ls.getLast? == some [] then ls.dropLast else ls
  ls.map (fun l => if l.getLast? == some 0x0D then l.dropLast else l)

/-- Words of a line between blanks. -/
def words (l : Bytes) : List Bytes := (splitAt_ 0x20 l).filter (fun w => !w.isEmpty)

/-- What follows a prefix. -/
def after? : Bytes → Bytes → Option Bytes
  | [], l => some l
  | _ :: _, [] => none
  | p :: ps, c :: cs => if p == c then after? ps cs else none

/-- A decimal number of 1 to 10 digits. -/
def decimal? (l : Bytes) : Option Nat :=
  if l.isEmpty || 10 < l.length || !l.all (fun c => 0x30 ≤ c.toNat && c.toNat ≤ 0x39) then none
  else some (l.foldl (fun n c => 10 * n + (c.toNat - 0x30)) 0)

/-- A dotted IPv4 address. -/
def ip? (l : Bytes) : Option Nat :=
  match (splitAt_ 0x2E l).map decimal? with
  | [some a, some b, some c, some d] => if a < 256 && b < 256 && c < 256 && d < 256 then
      some (((a * 256 + b) * 256 + c) * 256 + d) else none
  | _ => none

/-- Value of a hexadecimal digit. -/
def hex? (c : Byte) : Option Nat :=
  let v := c.toNat
  if 0x30 ≤ v && v ≤ 0x39 then some (v - 0x30) else if 0x41 ≤ v && v ≤ 0x46 then some (v - 0x37)
  else if 0x61 ≤ v && v ≤ 0x66 then some (v - 0x57) else none

/-- An EUI-64 written as eight hexadecimal pairs joined by hyphens. -/
def eui? (l : Bytes) : Option Bytes :=
  let ps := (splitAt_ 0x2D l).map (fun p => match p with
    | [a, b] => match hex? a, hex? b with
      | some x, some y => some (byte (16 * x + y))
      | _, _ => none
    | _ => none)
  if ps.length == 8 && ps.all Option.isSome then some (ps.filterMap id) else none

/-! ## Writing a description -/

/-- One media section: port, payload type, own address, encoding with rate and channels, packet time code, source filters,
latest first, identification. -/
structure SdpMedia where
  port : Nat
  pt : Nat
  addr : Option Nat
  map : Option (Nat × Nat × Nat)
  ptime : Option Nat
  src : List (Nat × Nat)
  mid : Option Bytes
  deriving DecidableEq, Repr

/-- What was read so far; `dup` are the identifications that a=group:DUP groups. -/
structure Sdp where
  version : Bool
  addr : Option Nat
  dup : Option (List Bytes)
  media : List SdpMedia
  offset : Nat
  src : List (Nat × Nat)
  mismatch : Bool
  deriving DecidableEq, Repr

/-- Change the media section under way. -/
def Sdp.last (x : Sdp) (f : SdpMedia → SdpMedia) : Sdp :=
  match x.media.getLast? with
  | some m => { x with media := x.media.dropLast ++ [f m] }
  | none => x

/-- Packet time code of an a=ptime value (Table 8.7). -/
def ptimeCode (v : Bytes) : Option Nat :=
  if v == asc "0.125" then some 0 else if v == asc "0.25" then some 1
  else if v == asc "0.33" || v == asc "0.333" then some 2 else if v == asc "1" then some 3 else none

/-- Address of a c= line, with or without a TTL of 0 to 255. -/
def sdpAddr (v : Bytes) : Option Nat :=
  match words v with
  | [net, ty, a] =>
    if net == asc "IN" && ty == asc "IP4" then
      match splitAt_ 0x2F a with
      | [x] => ip? x
      | [x, ttl] => match decimal? ttl with
        | some n => if n ≤ 255 then ip? x else none
        | none => none
      | _ => none
    else none
  | _ => none

/-- Destination and source of a source filter. -/
def sdpFilter (v : Bytes) : Option (Nat × Nat) :=
  match words v with
  | [a, b, c, d, e] =>
    if a == asc "incl" && b == asc "IN" && c == asc "IP4" then
      match ip? d, ip? e with
      | some x, some y => some (x, y)
      | _, _ => none
    else none
  | _ => none

/-- Payload type, encoding, rate and channels of an rtpmap. -/
def sdpMap (v : Bytes) : Option (Nat × Nat × Nat × Nat) :=
  match words v with
  | [pt, e] =>
    match decimal? pt, splitAt_ 0x2F e with
    | some p, enc :: r :: rest =>
      let code := if enc == asc "L16" then some 0 else if enc == asc "L24" then some 1 else none
      let ch := match rest with
        | [] => some 1
        | [c] => decimal? c
        | _ => none
      match code, decimal? r, ch with
      | some k, some rate, some c =>
        if [44100, 48000, 88200, 96000].contains rate && 1 ≤ c && c ≤ 64 then some (p, k, rate, c) else none
      | _, _, _ => none
    | _, _ => none
  | _ => none

/-- Port and payload type of an m= line. -/
def sdpMediaLine (v : Bytes) : Option (Nat × Nat) :=
  match words v with
  | [a, port, proto, pt] =>
    if a == asc "audio" && proto == asc "RTP/AVP" then
      match decimal? port, decimal? pt with
      | some p, some k => if 1 ≤ p && p ≤ 65535 && 96 ≤ k && k ≤ 127 then some (p, k) else none
      | _, _ => none
    else none
  | _ => none

/-- Grandmaster and domain of a=ts-refclk against those in use. -/
def State.refclkSame (s : State) (v : Bytes) : Option Bool :=
  match splitAt_ 0x3A v with
  | [g, dom] =>
    match eui? g, decimal? dom with
    | some e, some n => some (e == leBytes 8 (s.g 0x5001 0 0x13) && n == s.g 0x5001 0 0x04)
    | _, _ => none
  | _ => none

/-- Read one line into what was read before; none where it cannot be parsed or is outside the stream's ranges. -/
def State.sdpLine (s : State) (x : Sdp) (l : Bytes) : Option Sdp :=
  let inMedia := !x.media.isEmpty
  match after? (asc "v=") l with
  | some v => if v == asc "0" then some { x with version := true } else none
  | none =>
  match after? (asc "c=") l with
  | some v => (sdpAddr v).map (fun a => if inMedia then x.last (fun m => { m with addr := some a }) else { x with addr := some a })
  | none =>
  match after? (asc "m=") l with
  | some v =>
    match sdpMediaLine v with
    | some (p, k) =>
      if 2 ≤ x.media.length || (inMedia && x.dup.isNone) || (inMedia && x.media.any (fun m => m.port != p || m.pt != k)) then none
      else some { x with media := x.media ++ [⟨p, k, none, none, none, [], none⟩] }
    | none => none
  | none =>
  match after? (asc "a=rtpmap:") l with
  | some v =>
    match sdpMap v, x.media.getLast? with
    | some (p, k, r, c), some m => if p == m.pt then some (x.last (fun m => { m with map := some (k, r, c) })) else none
    | _, _ => none
  | none =>
  match after? (asc "a=ptime:") l with
  | some v => if inMedia then (ptimeCode v).map (fun c => x.last (fun m => { m with ptime := some c })) else none
  | none =>
  match after? (asc "a=ts-refclk:ptp=IEEE1588-2008:") l with
  | some v => (s.refclkSame v).map (fun same => { x with mismatch := x.mismatch || !same })
  | none =>
  match after? (asc "a=mediaclk:direct=") l with
  | some v => match decimal? v with
    | some n => if n < 2 ^ 32 then some { x with offset := n } else none
    | none => none
  | none =>
  match after? (asc "a=source-filter:") l with
  | some v => (sdpFilter v).map (fun f => if inMedia then x.last (fun m => { m with src := f :: m.src }) else { x with src := f :: x.src })
  | none =>
  match after? (asc "a=group:DUP") l with
  | some v =>
    match v with
    | [] => none
    | b :: _ => if b != 0x20 then some x else if (words v).length == 2 then some { x with dup := some (words v) } else none
  | none =>
  match after? (asc "a=mid:") l with
  | some v => if inMedia && (words v).length == 1 then some (x.last (fun m => { m with mid := (words v).head? })) else none
  | none => some x

/-- Read lines from number n on; the first that fails. -/
def State.sdpLines (s : State) : Nat → Sdp → List Bytes → Sum Nat Sdp
  | _, x, [] => .inr x
  | n, x, l :: ls =>
    match s.sdpLine x l with
    | some y => s.sdpLines (n + 1) y ls
    | none => .inl n

/-- Configuration that a whole description gives: sub-indices of 0x4A00 with their values; none where a required line is
missing or two sections disagree. -/
def Sdp.config (x : Sdp) : Option (List (Nat × Nat)) :=
  let addr := fun (m : SdpMedia) => match m.addr with
    | some a => some a
    | none => x.addr
  let src := fun (m : SdpMedia) (a : Nat) => (((m.src ++ x.src).find? (fun f => f.1 == a)).map (·.2)).getD 0
  let one := fun (m : SdpMedia) => match addr m, m.map, m.ptime with
    | some a, some f, some t => some (a, f, t)
    | _, _, _ => none
  let build := fun (p : Bool) (m : SdpMedia) (a b c d : Nat) (f : Nat × Nat × Nat) (t : Nat) =>
    [(0x03, b2n p), (0x04, a), (0x05, b), (0x06, m.port), (0x07, c), (0x08, d), (0x09, m.pt), (0x0A, f.1), (0x0B, f.2.2),
     (0x0C, f.2.1), (0x0D, t), (0x0F, x.offset)]
  if !x.version then none
  else
    match x.media with
    | [m] => (one m).map (fun (a, f, t) => build false m a 0 (src m a) 0 f t)
    | [m, k] =>
      match one m, one k with
      | some (a, f, t), some (b, f', t') =>
        let ids := x.dup.getD []
        if f == f' && t == t' && [m, k].all (fun y => (y.mid.map ids.contains).getD true) &&
           (m.mid.isNone || m.mid != k.mid) then some (build true m a b (src m a) (src k b) f t) else none
      | _, _ => none
    | _ => none

/-- Own rule of 0x4A00[s]:10 (R222): all fields are set or none; a missing line counts as the line after the last. -/
def sdpRule (i : Nat) (d : Bytes) (t : Tx s0) : Tx s0 :=
  if t.on 0x4A00 i 0x01 then t.status stState
  else
    let ls := textLines d
    match t.cur.sdpLines 1 ⟨false, none, none, [], 0, [], false⟩ ls with
    | .inl n => (t.w 0x4A00 i 0x20 n).status stOutOfRange
    | .inr x =>
      match x.config with
      | none => (t.w 0x4A00 i 0x20 (ls.length + 1)).status stOutOfRange
      | some c =>
        let t := t.each c (fun t p => t.w 0x4A00 i p.1 p.2)
        (t.w 0x4A00 i 0x20 0).when x.mismatch (fun t => t.flagBit 0x4A00 i 0x21 7)

/-- SDP_WRITE (R222): write of 0x4A00[s]:10. -/
def execSdpWrite (h n : Nat) (d : Bytes) (s : State) : Host.Outcome State Fault Refusal :=
  run s fun t => t.guarded h (opOf 0x4A00 n 0x10 d) (sdpRule n d)

/-! ## Reading a description -/

/-- Decimal digits of a number. -/
def decGo : Nat → Nat → Bytes → Bytes
  | 0, _, acc => acc
  | k + 1, n, acc => if n < 10 then byte (0x30 + n) :: acc else decGo k (n / 10) (byte (0x30 + n % 10) :: acc)
def dec (n : Nat) : Bytes := decGo 20 n []

/-- A dotted address. -/
def dotted (ip : Nat) : Bytes :=
  dec (ip / 2 ^ 24) ++ [0x2E] ++ dec (ip / 2 ^ 16 % 256) ++ [0x2E] ++ dec (ip / 2 ^ 8 % 256) ++ [0x2E] ++ dec (ip % 256)

/-- An EUI-64 in hyphenated hexadecimal. -/
def euiText (b : Bytes) : Bytes :=
  let digit := fun n => byte (if n < 10 then 0x30 + n else 0x37 + n)
  (b.flatMap (fun c => [0x2D, digit (c.toNat / 16), digit (c.toNat % 16)])).drop 1

/-- Text of a packet time code. -/
def ptimeText (c : Nat) : Bytes :=
  match c with
  | 0 => asc "0.125"
  | 1 => asc "0.25"
  | 2 => asc "0.333"
  | _ => asc "1"

/-- What the description of a stream is generated from. -/
structure SdpSource where
  num : Nat
  name : Bytes
  ttl : Option Nat
  paths : List (Nat × Nat × Nat)
  port : Nat
  pt : Nat
  enc : Nat
  rate : Nat
  chans : Nat
  code : Nat
  offset : Nat

/-- The SDP of a stream (R222): lines end with CR LF. -/
def State.sdpText (s : State) (x : SdpSource) : Bytes :=
  let ip := match x.paths with
    | (m, _, _) :: _ => s.ip m
    | [] => 0
  let dup := 1 < x.paths.length
  let sect := fun (i : Nat) (p : Nat × Nat × Nat) =>
    [asc "m=audio " ++ dec x.port ++ asc " RTP/AVP " ++ dec x.pt,
     asc "c=IN IP4 " ++ dotted p.2.1 ++ (match x.ttl with
       | some n => asc "/" ++ dec n
       | none => []),
     asc "a=rtpmap:" ++ dec x.pt ++ (if x.enc == 0 then asc " L16/" else asc " L24/") ++ dec x.rate ++ asc "/" ++ dec x.chans,
     asc "a=ptime:" ++ ptimeText x.code,
     asc "a=ts-refclk:ptp=IEEE1588-2008:" ++ euiText (leBytes 8 (s.g 0x5001 0 0x13)) ++ asc ":" ++ dec (s.g 0x5001 0 0x04),
     asc "a=mediaclk:direct=" ++ dec x.offset] ++
    (if p.2.2 == 0 then [] else [asc "a=source-filter: incl IN IP4 " ++ dotted p.2.1 ++ asc " " ++ dotted p.2.2]) ++
    (if dup then [asc "a=mid:" ++ dec (i + 1)] else [])
  let ls := [asc "v=0",
     asc "o=- " ++ dec x.num ++ asc " 0 IN IP4 " ++ dotted ip,
     asc "s=" ++ (if x.name.isEmpty then asc "-" else x.name), asc "t=0 0"] ++
    (if dup then [asc "a=group:DUP 1 2"] else []) ++ ((List.range x.paths.length).zip x.paths).flatMap (fun e => sect e.1 e.2)
  ls.flatMap (fun l => l ++ [0x0D, 0x0A])

/-- What a read of 0x4A00[s]:10 and of 0x4C00[s]:12 returns. -/
def State.rxSdp (s : State) (i : Nat) : Bytes :=
  s.sdpText { num := 256 * s.g 0x5400 0 0x01 + i, name := s.gb 0x4A00 i 0x11, ttl := none, paths := s.rxPaths i,
              port := s.rxg i 0x06, pt := s.rxg i 0x09, enc := s.rxg i 0x0A, rate := s.rxRate i, chans := s.rxChans i,
              code := s.rxg i 0x0D, offset := s.rxg i 0x0F }
def State.txSdp (s : State) (i : Nat) : Bytes :=
  s.sdpText { num := 256 * s.g 0x5400 0 0x01 + i, name := s.gb 0x4C00 i 0x13, ttl := some (s.txg i 0x10),
              paths := (s.txPaths i).map (fun p => (p.1, p.2, 0)), port := s.txg i 0x06, pt := s.txg i 0x08,
              enc := s.txg i 0x09, rate := s.txRate i, chans := s.txChans i, code := s.txg i 0x0C, offset := s.txg i 0x0E }

end Sys2Proof.Machine
end

