-- ==== Sys2Proof/Machine/Sessions.lean ====
section
/-! DEFINITION. Sessions as resets, keys and messages close them (R418). -/

namespace Sys2Proof.Machine
open Sys2Proof

variable {s0 : State}

/-- A session message (trace type 443): 0 opens, 1 closes, 2 a tag fails. -/
def Tx.sessionMsg (t : Tx s0) (h ev : Nat) : Tx s0 := t.msg 443 [byte h, byte ev, 0, 0]

/-- Number of open sessions (0x1001:01). -/
def State.sessions (s : State) : Nat := ((List.range 8).filter (fun h => (s.host h).sess.isSome)).length

/-- HSPI_IRQ_N, open drain: low while the outgoing queue holds a message (Table 15.1). -/
def Tx.spiQueue (t : Tx s0) (q : List Bytes) : Tx s0 :=
  let was := t.cur.ctl.spiOut.isEmpty
  let t := t.setCtl { t.cur.ctl with spiOut := q }
  if was == q.isEmpty then t
  else t.emit (if q.isEmpty then .hiz "HSPI_IRQ_N" else .pin "HSPI_IRQ_N" 0)

/-- A write transfer of host h ends (R413); where it was an upload of a filter set, the upload has ended, and shows it
until its own rule writes another reason (R117). -/
def Tx.dropXfer (t : Tx s0) (h : Nat) : Tx s0 :=
  match (t.cur.host h).xfer with
  | none => t
  | some x =>
    let t := t.setHost h { t.cur.host h with xfer := none }
    t.when (kIdx x.key == 0x3A00 && kSub x.key == 0x01) (fun t => t.uploadEnd (kInst x.key) 0 0xFFFF)

/-- The session of host h closes (R418): its transfer, its snapshot and its row selection go; stage, watches and rights
stay. -/
def Tx.closeSession (t : Tx s0) (h : Nat) : Tx s0 :=
  let x := t.cur.host h
  if x.sess.isNone then t
  else
    let t := t.dropXfer h
    let t := t.setHost h { t.cur.host h with sess := none, snap := none }
    let t := t.setMaps { t.cur.maps with rowSel := mdel h t.cur.maps.rowSel, rowOrg := mdel h t.cur.maps.rowOrg }
    let t := ((t.w 0x1000 h 0x08 0).w 0x1000 h 0x09 0).w 0x1000 h 0x0A 0xFF
    (t.w 0x1001 0 0x01 t.cur.sessions).sessionMsg h 1

end Sys2Proof.Machine
end

