-- ==== Sys2Proof/Machine/Boot.lean ====
section
/-! DEFINITION. Resets of the whole device and the boot (R457 to R470). -/

namespace Sys2Proof.Machine
open Sys2Proof

variable {s0 : State}

/-! ## Pins (R477) -/

/-- SUPPLY_EN and BYPASS_N take a level (0x6500:11, :12). -/
def Tx.supplyEn (t : Tx s0) (v : Nat) : Tx s0 := (t.w 0x6500 0 0x11 v).emit (.pin "SUPPLY_EN" v)
def Tx.bypassN (t : Tx s0) (v : Nat) : Tx s0 := (t.w 0x6500 0 0x12 v).emit (.pin "BYPASS_N" v)

/-- The Hedge pins in reset and while the Hedge is powered down, and as they are while it is powered and disabled
(Table 10.6). -/
def Tx.hedgePinsFree (t : Tx s0) : Tx s0 := ((t.emit .modHiz).emit (.hiz "MOD_EN")).emit (.hiz "MSENSE_CLK")
def Tx.hedgePinsLow (t : Tx s0) : Tx s0 :=
  ((t.emit (.modLow allMods)).emit (.pin "MOD_EN" 0)).emit (.pin "MSENSE_CLK" 0)

/-- Output pins that are high-Z in reset (Table 19.8), beside those of the serial ports and of the Hedge. -/
def resetFree : List String :=
  pdmClkPins ++ ["PDM_SYNC", "TIME_PPS_OUT", "WCLK_OUT", "HSPI_MISO", "HSPI_IRQ_N", "TRACE", "TRACE_CLK", "VREQ",
    "MAC4_TX", "MAC5_TX", "MDC", "MDIO", "TDO", "DRAM"]

/-- The pins in reset (Tables 10.6, 17.6, 19.8): the transmitters of the SERDES idle. The Hedge's stay high-Z until the data path is powered (R469). -/
def Tx.resetPins (t : Tx s0) : Tx s0 :=
  let t := (t.each (List.range 32) (fun t p => t.emit (.sapHiz p))).each resetFree (fun t n => t.emit (.hiz n))
  (((t.emit (.idle "SDS_TX")).w 0x6A00 0 0x1E 2).hedgePinsFree.bypassN 0).supplyEn 1

/-! ## What a reset keeps -/

/-- Entries of the always-on domain. -/
def aonEntry (idx sub : Nat) : Bool := idx == 0x6502 || (idx == 0x6500 && sub == 0x13)

/-- Whether a reset of a kind keeps an entry; `aon` that it keeps the always-on domain. The trip log is cleared only at
power-on reset (R287). -/
def resetKeeps (kind : Nat) (aon : Bool) (k : Nat) : Bool :=
  mramEntry (kIdx k) (kSub k) || (aon && aonEntry (kIdx k) (kSub k)) || (kind != 0 && kIdx k == 0x5A00 && kSub k == 0x07)

/-- Every entry but those kept takes its reset value. -/
def Tx.clearEntries (t : Tx s0) (keep : Nat → Bool) : Tx s0 :=
  let t := t.each (t.cur.dict.map (·.1)) (fun t k => if keep k then t else t.unset k)
  t.each (t.cur.blobs.map (·.1)) (fun t k => if keep k then t else t.blob k (dfltBlob k))

/-- Every block is as after reset. -/
def Tx.clearBlocks (t : Tx s0) : Tx s0 :=
  let t := ((((t.setScene Scene.init).setGeo Geo.init).setRender Render.init).setCorr Corr.init).setMaps Maps.init
  let t := (((t.setEngines Engines.init).setSerial Serial.init).setNet Net.init).setTime TimeSt.init
  let t := ((((t.setSprk Sprk.init).setHedge Hedge.init).setMeas Meas.init).setPool Pool.init).setMem Mem.init
  ((t.setCtl Control.init).setTrace Trace.init).setMsgs []

/-- The time counter reads c, and media time follows (R234). -/
def Tx.clockTo (t : Tx s0) (c : Nat) : Tx s0 :=
  t.tick (t.cur.sysAt c * (t.cur.fA : Int) / (2 ^ 47 * 1000000000)).toNat c

/-- A reset of a kind is reported (Table 17.10). -/
def Tx.resetReport (t : Tx s0) (kind cause : Nat) : Tx s0 :=
  let t := ((t.w 0x6501 0 0x05 kind).w 0x6501 0 0x06 cause).w 0x6501 0 0x07 (if kind == 0 then 0 else t.cur.clock)
  (t.inc 0x6501 0 (0x08 + kind) 1).wb 0x6501 0 0x0E ((byte (16 * kind + cause) :: t.cur.gb 0x6501 0 0x0E).take 16)

/-- Reset of kind 0, 1 or 2 (Table 17.2): what MRAM holds stays; `aon` that the always-on domain stays; the time counter
stays but for kind 0 (R231). -/
def Tx.deviceClear (t : Tx s0) (kind cause : Nat) (aon : Bool) : Tx s0 :=
  let s := t.cur
  let c := if kind == 0 then 0 else s.clock
  let t := (t.clearEntries (resetKeeps kind aon)).clearBlocks
  let t := t.setStore { s.store with run := none, keys := [], changed := none }
  let p := { Power.init with
    straps := s.power.straps, slot0 := s.power.slot0, slot1 := s.power.slot1, packs := s.power.packs,
    sys0 := s.power.sys0, sys1 := s.power.sys1, sysAt := s.power.sysAt,
    wide := s.power.wide + 1, hours := s.power.hours, hotMs := s.power.hotMs, age := s.power.age, resetAt := c, enteredAt := c, codeAt := c,
    sampleAt := c, planAt := c, stepAt := c, hourAt := c, hedgeOff := true }
  let t := (t.setPower p).clockTo c
  let t := ((t.w 0x6600 0 0x08 p.hours).w 0x6600 0 0x09 (p.hotMs / 3600000)).w 0x6600 0 0x0A (p.age / 2 ^ 32)
  (t.resetPins.w 0x6A00 0 0x1D c).resetReport kind cause

/-! ## Measurement log (R470) -/

/-- One measurement record: kind, identifier, security version, digest. -/
def Tx.logAdd (t : Tx s0) (kind id ver : Nat) (digest : Bytes) : Tx s0 :=
  let n := t.g 0x6402 0 0x09
  let i := 0x6410 + n
  let t := (((t.w i 0 0x01 kind).w i 0 0x02 id).w i 0 0x03 ver).wb i 0 0x04 digest
  (t.w 0x6402 0 0x09 (n + 1)).wb 0x6402 0 0x08 (sha384 (t.cur.gb 0x6402 0 0x08 ++ digest))

/-! ## Firmware slots (R466, R467) -/

/-- Whether an image's signature verifies and its version reaches the floor. -/
def State.imageGood (s : State) (d : Bytes) : Bool :=
  ecdsaVerify gumadalKey (sha384 (d.take (d.length - 96))) (d.drop (d.length - 96)) &&
  s.g 0x6400 0 0x07 ≤ fieldLE d 8 4

/-- Whether slot i holds an image that may be started. -/
def State.slotUsable (s : State) (i : Nat) : Bool :=
  ((s.slot i).state == 1 || (s.slot i).state == 3) && s.imageGood (s.slotImage i)

/-- An image that may not be started is marked failed. -/
def Tx.slotCheck (t : Tx s0) (i : Nat) : Tx s0 :=
  let x := t.cur.slot i
  if (x.state == 1 || x.state == 3) && !t.cur.slotUsable i then t.setSlot i { x with state := 2 } else t

/-! ## Store at boot (R438, R439) -/

/-- A record is skipped (R438). -/
def Tx.skipRecords (t : Tx s0) (n : Nat) : Tx s0 := (t.inc 0x1400 0 0x0E n).flagBit 0x1400 0 0x10 3

/-- Staged entries of the Planting plan (R60). -/
def planEntry (idx : Nat) : Bool := idx == 0x3000 || idx == 0x3100 || idx == 0x3300

def isPlanKey (k : Nat) : Bool :=
  planEntry (kIdx k) && (match entryAt k with
    | some e => e.acc == .rws
    | none => false)

/-- Whether a restored value is in its entry's range (R7); an object that the rate holds disabled holds no cells (R36). -/
def State.restoredOk (s : State) (k : Nat) : Bool :=
  match entryAt k with
  | some e =>
    if e.ty == .str then utf8 (s.blob k) && blobLenOk e (s.blob k).length
    else if kIdx k == 0x5C10 && kSub k == 0x07 then compOk (s.blob k)
    else if e.ty == .blob then blobLenOk e (s.blob k).length
    else if kIdx k == 0x2000 && kSub k == 0x08 && s.heldOff (kInst k) then s.get k == 0
    else typeOk e.ty (s.get k) && rngOk e.ty e.rng (s.get k) &&
      (e.rng != .custom || customOk s (kIdx k) (kInst k) e.sub (s.get k))
  | none => false

/-- Default of a numeric entry at the rate in force (R36). -/
def State.restoredDflt (s : State) (k : Nat) : Nat :=
  if kIdx k == 0x2000 && kSub k == 0x08 then s.defaultDepth (kInst k) else dfltOf k

/-- The records whose entry the store holds; a record of an entry that is not persistent is skipped as one whose entry does not
exist (DESIGN CHOICE, assumption 15). -/
def Image.storedOnly (im : Image) : Image :=
  { im with vals := im.vals.filter (fun p => persistent p.1), blobs := im.blobs.filter (fun p => persistent p.1) }

/-- The values of an image are applied as one set (R439, steps 1 and 2). -/
def Tx.applyValues (t : Tx s0) (im : Image) : Tx s0 :=
  let all := im.vals.length + im.blobs.length
  let im := im.storedOnly
  let t := (t.each im.vals (fun t p => t.put p.1 p.2)).each im.blobs (fun t p => t.blob p.1 p.2)
  let t := t.rateEntries
  let s := t.cur
  let bad := (im.vals.map (·.1)).filter (fun k => !s.restoredOk k)
  let badB := (im.blobs.map (·.1)).filter (fun k => !s.restoredOk k)
  let t := (t.each bad (fun t k => t.put k (s.restoredDflt k))).each badB (fun t k => t.blob k (dfltBlob k))
  let n := bad.length + badB.length + (all - (im.vals.length + im.blobs.length))
  let t := t.when (n != 0) (fun t => t.skipRecords n)
  let nodes := im.nodes.foldl (fun l p => mset p.1 (⟨p.2.1, p.2.2, 0, p.2.1⟩ : Node) l) []
  t.setMaps { t.cur.maps with nodes := nodes }

/-- Furrow depths of the available objects as a set (R439, step 3). -/
def Tx.applyDepths (t : Tx s0) : Tx s0 :=
  let t := t.each ((List.range 1024).filter t.cur.heldOff) (fun t n => t.w 0x2000 n 0x08 0)
  let s := t.cur
  if sumN ((List.range s.objects).map (fun n => s.g 0x2000 n 0x08)) ≤ furrowCells then t
  else t.depthDefaults.skipRecords 1024

/-- The restored plan as a set (R439, step 4). -/
def Tx.applyPlan (t : Tx s0) : Tx s0 :=
  if t.cur.planCheck.isNone then t
  else (t.each ((t.cur.dict.map (·.1)).filter isPlanKey) (fun t k => t.put k (dfltOf k))).skipRecords
    (512 * 9 + 1024 * 3 + 3)

/-- The Leaves are checked and the image in force is applied (R438, R439). -/
def Tx.restore (t : Tx s0) (b : BootIn) : Tx s0 :=
  let st0 := t.cur.store
  let st := { st0 with leaf0 := { st0.leaf0 with valid := st0.leaf0.valid && !bit b.mramBad 0 },
                       leaf1 := { st0.leaf1 with valid := st0.leaf1.valid && !bit b.mramBad 1 } }
  let t := t.setStore st
  let t := (t.w 0x1400 0 0x07 (b2n st.leaf0.valid)).w 0x1400 0 0x08 (b2n st.leaf1.valid)
  let im := match chooseLeaf st.leaf0 st.leaf1 with
    | some i => (st.leaf i).image
    | none => Image.none_
  let t := match chooseLeaf st.leaf0 st.leaf1 with
    | some i =>
      let t := ((t.w 0x1400 0 0x05 i).w 0x1400 0 0x06 (st.leaf i).seq).w 0x1400 0 0x09 im.bytes
      (t.w 0x1400 0 0x0C (st.leaf i).savedAt).when
        (st.leaf0.valid != st.leaf1.valid && seqNewer (st.leaf (1 - i)).seq (st.leaf i).seq)
        (fun t => t.flagBit 0x1400 0 0x10 2)
    | none => t.flagBit 0x1400 0 0x10 4
  let t := ((t.applyValues im).applyDepths).applyPlan
  let t := t.w 0x1400 0 0x0D (im.records - t.g 0x1400 0 0x0E)
  let t := t.each (List.range 8) (fun t h => t.w 0x1000 h 0x03 (b2n (!(t.cur.gb 0x1000 h 0x02).isEmpty)))
  let t := t.w 0x1001 0 0x07 (b2n (t.cur.gb 0x1000 0 0x02).isEmpty)
  (((((t.furrowReset.micsInit.kernelsInit).planDerive 0).mapsInit).portsInit).correctionInit).soundTarget

/-- An enable restored as true is acted on, or set false where its chapter refuses it (R439, step 5). -/
def Tx.enact (t : Tx s0) (idx inst sub : Nat) (rule : Bytes → Tx s0 → Tx s0) : Tx s0 :=
  let v := t.g idx inst sub
  if v == 0 then t
  else
    let t := rule (leBytes 1 v) (t.w idx inst sub 0)
    if t.g idx inst sub == v then t else t.skipRecords 1

/-- Every enable restored as true, in ascending index. -/
def Tx.enactAll (t : Tx s0) : Tx s0 :=
  let t := t.each (t.cur.listed 0x2000 0x01) (fun t n => t.enact 0x2000 n 0x01 (objectRule n 0x01))
  let t := t.each (t.cur.listed 0x4000 0x01) (fun t p => t.enact 0x4000 p 0x01 (portRule p))
  let t := t.each (t.cur.listed 0x4A00 0x01) (fun t i => t.enact 0x4A00 i 0x01 (rxEnableRule i))
  let t := t.each (t.cur.listed 0x4C00 0x01) (fun t i => t.enact 0x4C00 i 0x01 (txEnableRule i))
  let t := (t.enact 0x5001 0 0x01 ptpEnableRule).enact 0x5400 0 0x02 roleRule
  let t := t.each (t.cur.listed 0x5800 0x01) (fun t c => t.enact 0x5800 c 0x01 (channelRule c))
  let t := t.enact 0x5A00 0 0x01 hedgeRule
  let t := t.each (t.cur.listed 0x5C10 0x01) (fun t m => t.enact 0x5C10 m 0x01 (micEnableRule m))
  (t.enact 0x5D80 0 0x01 recorderRule).enact 0x6A00 0 0x01 traceRule

/-! ## Boot sequence (R465, Table 17.3) -/

/-- Latest end of each stage in ms from reset release. -/
def stageBound : List Nat := [0, 3, 8, 120, 160, 165, 200, 260, 560, 900, 1000, 1100, 1150, 1250, 2000, 2500]

/-- Stage k ends: at a time up to its bound, which the manual leaves open (assumption 2); stage 1 takes no time where
the core PLL was kept. -/
def Tx.stageEnd (t : Tx s0) (k : Nat) (pll : Bool) : Tx s0 :=
  let p := t.cur.power
  let last := t.cur.clock - p.resetAt
  let f := t.fresh
  let e := if k == 1 && pll then 0 else last + f.1 % (msC (nth stageBound k 0) - last + 1)
  let t := (f.2.clockTo (p.resetAt + e)).w 0x6401 0 k (e / 1000)
  t.setPower { t.cur.power with stage := k }

/-- Stage k runs when the stage before it ended, unless the boot hangs in it or went to RECOVERY. -/
def Tx.stageRun (t : Tx s0) (k : Nat) (pll : Bool) (b : BootIn) (act : Tx s0 → Tx s0) : Tx s0 :=
  if t.cur.power.stage + 1 != k || t.cur.romOnly || b.failAt == some k then t else (act t).stageEnd k pll

/-- RECOVERY is entered (R469), or manufacturing mode, which answers alike (Table 17.1). -/
def Tx.recoveryEnter (t : Tx s0) (b : BootIn) (mode : Nat) : Tx s0 :=
  let t := (((t.w 0x6400 0 0x01 mode).w 0x6400 0 0x11 3).powerTo 3 4).logAdd 0 0 0 (fitBytes 48 (Config.partBytes 3))
  let st := t.cur.store
  let ok := fun (i : Nat) => { st.leaf i with valid := (st.leaf i).valid && !bit b.mramBad i }
  let key := match chooseLeaf (ok 0) (ok 1) with
    | some i => (mget? (st.leaf i).image.blobs (K 0x1000 0 0x02)).getD []
    | none => []
  ((t.wb 0x1000 0 0x02 key).w 0x1000 0 0x03 (b2n (!key.isEmpty))).w 0x1001 0 0x07 (b2n key.isEmpty)

/-- Levels of VDD_IO0 to VDD_IO2: a bank above 2.5 V is a 3.3 V bank (R502). -/
def ioLevels (b : BootIn) : Nat :=
  sumN ((List.range 3).map (fun i => if F.lt 0x40200000 (nth b.supplies (8 + i) 0) then 2 ^ i else 0))

/-- The release of a reset: the levels of the IO banks are read at a power-on reset only, and reported (R502). -/
def Tx.bankLevels (t : Tx s0) (b : BootIn) (kind : Nat) : Tx s0 :=
  let p := t.cur.power
  let io := if kind == 0 then ioLevels b else p.straps.io
  (t.setPower { p with straps := { p.straps with io := io } }).w 0x0002 0 0x07 io

/-- Stage 2: the straps are latched and the boot mode is decided (R457, R469); the request for RECOVERY stays until the reset that
leaves it. -/
def Tx.stage2 (t : Tx s0) (b : BootIn) (asked : Bool) : Tx s0 :=
  let mode := b.mode % 4
  let t := t.setPower { t.cur.power with straps := ⟨mode, b.refclk, b.vreqEn, b.wdtEn, t.cur.power.straps.io⟩ }
  let word := mode * 16 + b2n b.refclk * 8 + b2n b.vreqEn * 4 + b2n b.wdtEn * 2
  let t := (((t.w 0x0002 0 0x01 word).w 0x0002 0 0x02 mode).w 0x0002 0 0x03 (b2n b.refclk)).w 0x0002 0 0x04 (b2n b.vreqEn)
  let t := ((t.w 0x0002 0 0x05 (b2n (mode == 2))).w 0x0002 0 0x06 (b2n b.wdtEn)).w 0x0002 0 0x08 (b2n asked)
  let t := ((t.w 0x0002 0 0x09 (b2n (mode == 2))).w 0x6603 0 0x08 (b2n b.vreqEn)).w 0x6400 0 0x04 t.cur.power.slot0.state
  let t := t.w 0x6400 0 0x05 t.cur.power.slot1.state
  if mode == 2 then t.recoveryEnter b 2
  else if mode == 1 || asked then (t.recoveryEnter b 1).when asked (fun t => t.w 0x6400 0 0x08 1)
  else t

/-- Stage 4: the image to start is chosen and measured (R466, R470); without one the block enters RECOVERY. -/
def Tx.stage4 (t : Tx s0) (b : BootIn) : Tx s0 :=
  let p := t.g 0x6400 0 0x03
  let t := (t.slotCheck p).slotCheck (1 - p)
  match [p, 1 - p].find? t.cur.slotUsable with
  | none => t.recoveryEnter b 1
  | some i =>
    let d := t.cur.slotImage i
    let t := t.when t.cur.systemGone (fun t => t.w 0x6400 0 0x07 (fieldLE d 8 4))
    let t := ((t.setSlot i { t.cur.slot i with state := 1 }).w 0x6400 0 0x02 i).w 0x6400 0 0x03 i
    let t := t.when (i != p) (fun t => t.w 0x6400 0 0x09 0)
    let t := (t.w 0x0000 0 0x07 (Config.fwVersion d)).logAdd 0 0 0 (fitBytes 48 (Config.partBytes 3))
    t.each (List.range (min 32 (fieldLE d 6 2))) (fun t j => t.logAdd 1 j (fieldLE d 8 4) (sha384 (Config.fwExt d j)))

/-- Nominal voltage in mV of supply i of 0x6503, and whether a reading is out of range (0x6503:0D). -/
def State.nominal (s : State) (i : Nat) : Nat :=
  let st := s.power.straps
  let io := fun b => if bit st.io b then 3300 else 1800
  nth [if st.vreqEn then 600 + 5 * s.g 0x6603 0 0x01 else 750, 800, 1100, 850, 1200, 800, 1800, 1800, io 0, io 1, io 2, io 3] i 0

def State.supplyBad (s : State) (i : Nat) (v : F32) : Bool :=
  let n : Int := (s.nominal i * 2 ^ 149 : Nat)
  let d := (F.toScaled v * 1000 - n).natAbs
  if i == 0 then 30 * 2 ^ 149 < d else n.natAbs < 20 * d

/-- A code's voltage. -/
def codeVolts (c : Nat) : F32 := F.ofRat false (600 + 5 * c) 1000

/-- Whether VREQ is driven: with VREQ_EN at 1, from stage 6 on and in FAILED, not in RECOVERY (R477, Table 17.6). -/
def State.vreqDriven (s : State) : Bool :=
  s.power.straps.vreqEn && (s.g 0x6500 0 0x01 == 4 || (6 ≤ s.power.stage && !s.romOnly))

/-- VREQ carries a code (R480, Table 17.6). -/
def Tx.vreqTo (t : Tx s0) (c : Nat) : Tx s0 :=
  let s := t.cur
  let old := s.g 0x6603 0 0x01
  let p := s.power
  let t := t.setPower { p with codeAt := s.clock, codeFor := mset old (mget 0 p.codeFor old + (s.clock - p.codeAt)) p.codeFor }
  let t := ((t.w 0x6603 0 0x01 c).w 0x6603 0 0x02 (codeVolts c)).w 0x6603 0 0x09 s.clock
  let t := (t.tally 0x6603 0 0x05).peak 0x6601 0 0x12 c
  let t := t.when (c < t.g 0x6601 0 0x11) (fun t => t.w 0x6601 0 0x11 c)
  t.emit (.pin "VREQ" c)

/-- Stage 6: supplies are checked, the margin plan is loaded and VREQ driven (R479, R480). -/
def Tx.stage6 (t : Tx s0) (b : BootIn) : Tx s0 :=
  let t := t.each (List.range 12) (fun t i => t.w 0x6503 0 (1 + i) (nth b.supplies i 0))
  let bad := sumN ((List.range 12).map (fun i => if t.cur.supplyBad i (nth b.supplies i 0) then 2 ^ i else 0))
  let t := ((t.w 0x6503 0 0x0D bad).w 0x6500 0 0x0A b.temp).w 0x6500 0 0x0B b.temp
  let t := (t.w 0x6603 0 0x03 (nth b.supplies 0 0)).setPower { t.cur.power with planDue := true }
  if b.vreqEn then t.emit (.pin "VREQ" (t.g 0x6603 0 0x01)) else t.w 0x6601 0 0x13 3

/-- Stage 8: the DRAM is trained in full (R393, R481). -/
def Tx.stage8 (t : Tx s0) (b : BootIn) : Tx s0 :=
  let t := t.laneMargins b.timing b.voltage
  t.w 0x6602 0 0x0C (t.g 0x6602 0 0x02)

/-- Stage 9: every codeword is written (R386). -/
def Tx.stage9 (t : Tx s0) : Tx s0 :=
  let c := t.cur.clock
  (t.setMem { t.cur.mem with pieceAt := c, zqAt := c, trainAt := c, scrubAt := c, scrubHours := t.g 0x6200 0 0x14 }).w 0x6200 0 0x01 1

/-- Stage 10: the kernel packs are measured (R353, R470). -/
def Tx.stage10 (t : Tx s0) (b : BootIn) : Tx s0 :=
  t.each (List.range 8) (fun t k =>
    match mget? t.cur.power.packs k with
    | none => t
    | some d =>
      let dig := sha384 (packBody d)
      let ok := slice d 16 48 == dig
      let t := t.when t.cur.systemGone (fun t => t.w 0x5E30 k 0x05 (fieldLE d 8 4))
      let t := ((t.w 0x5E30 k 0x03 (if ok then 1 else 2)).w 0x5E30 k 0x04 (fieldLE d 8 4)).wb 0x5E30 k 0x07 dig
      (t.w 0x5E30 k 0x06 (if ok then fieldLE d 6 2 else 0)).logAdd 2 k (fieldLE d 8 4) dig)

/-- Stage 12: the servo starts, the Hedge selects its carrier (R235, R277, R439). -/
def Tx.stage12 (t : Tx s0) : Tx s0 :=
  (t.when (t.g 0x5000 0 0x05 == 2) (fun t => t.servoTo 4)).carrierInit.enactAll.showClass

/-- The first boot of an image that reaches its last stage raises the floor (R466). -/
def Tx.raiseFloor (t : Tx s0) : Tx s0 :=
  let v := fieldLE (t.cur.slotImage (t.g 0x6400 0 0x02)) 8 4
  if v ≤ t.g 0x6400 0 0x07 then t
  else ((t.w 0x6400 0 0x07 v).tally 0x6400 0 0x12).flagBit 0x6400 0 0x13 4

/-- Stage 11: the interfaces are up (R465); a boot into IDLE raises the floor here (R466). -/
def Tx.stage11 (t : Tx s0) : Tx s0 :=
  ((t.bypassN 1).w 0x6400 0 0x09 0).when (t.g 0x6500 0 0x04 == 2) Tx.raiseFloor

/-- The boot completes in IDLE or in ACTIVE (R465). The engines run from stage 13 on, ports, streams and microphones from stage 14
on, and destinations ramp up at stage 15; a boot that hangs leaves what its stages started. -/
def Tx.bootEnd (t : Tx s0) (b : BootIn) : Tx s0 :=
  if t.cur.power.stage != 12 then t
  else if t.g 0x6500 0 0x04 == 2 then
    (((t.setEngines { t.cur.engines with cause := 4 }).powerTo 2 0).showBanks).w 0x6400 0 0x11 2
  else
    let t := ((t.stageRun 13 true b id).stageRun 14 true b Tx.pllReady).stageRun 15 true b id
    let stage := t.cur.power.stage
    let t := t.when (stage == 15) (fun t => t.raiseFloor.w 0x6400 0 0x11 1)
    t.when (13 ≤ stage) (fun t => t.enginesUp 6 false false stage)

/-- The boot after a reset of a kind; a full training that fails leaves the DRAM controller failed (DEDUCED, assumption 83);
`asked` that RECOVERY was requested (0x6400:08). DRAM_RESET_N rises as stage 8 begins (Table 19.8). -/
def Tx.boot (t : Tx s0) (b : BootIn) (kind : Nat) (asked : Bool) : Tx s0 :=
  let pll := kind != 0
  let t := ((t.traceLow.w 0x6A00 0 0x1E 0).emit (.pin "DRAM_RESET_N" 0)).bankLevels b kind
  let t := (t.stageRun 1 pll b id).stageRun 2 pll b (fun t => t.stage2 b asked)
  let t := (t.stageRun 3 pll b id).stageRun 4 pll b (fun t => t.stage4 b)
  let t := t.stageRun 5 pll b (fun t => ((t.w 0x6000 0 0x01 1).inc 0x6400 0 0x0B 1).hedgePinsLow)
  let t := (t.stageRun 6 pll b (fun t => t.stage6 b)).stageRun 7 pll b (fun t => t.restore b)
  let t := t.when (t.cur.power.stage == 7) (fun t => t.emit (.pin "DRAM_RESET_N" 1))
  let t := (t.stageRun 8 pll b (fun t => t.stage8 b)).stageRun 9 pll b Tx.stage9
  let t := t.when (t.cur.power.stage == 7 && b.failAt == some 8) (fun t => (t.w 0x6200 0 0x01 4).flagBit 0x6200 0 0x21 9)
  let t := (t.stageRun 10 pll b (fun t => t.stage10 b)).stageRun 11 pll b Tx.stage11
  ((t.stageRun 12 pll b Tx.stage12).bootEnd b).setResult ⟨none, []⟩

/-- Reset of kind 0, 1 or 2 and the boot after it. One that leaves RECOVERY never asks for it again (R469). -/
def Tx.deviceReset (t : Tx s0) (kind cause : Nat) (aon : Bool) (b : BootIn) : Tx s0 :=
  let asked := kind == 2 && t.g 0x6400 0 0x08 == 1 && t.g 0x6400 0 0x01 == 0
  (((t.mramCut.systemChoose b).deviceClear kind cause aon).boot b kind asked).sysSave

/-! ## Power-on and pin reset -/

/-- POWER_ON (R458, R459, R465): the supply monitor releases the power-on reset and the device boots. -/
def execPowerOn (b : BootIn) (s : State) : Host.Outcome State Fault Refusal :=
  runAlways s fun t => t.deviceReset 0 0 false b

/-- SUPPLY_LOSS (R504, R506): a supply falls below its threshold, and power-on reset is held until POWER_ON, with the pins as in
reset. One more while it is held is the end of every supply: BYPASS_N, SUPPLY_EN and the SERDES are high-Z too (Table 17.6; DESIGN
CHOICE, assumption 85: the table has one command for both). -/
def execSupplyLoss (s : State) : Host.Outcome State Fault Refusal :=
  runAlways s fun t =>
    if s.power.supplyDown then t.each ["BYPASS_N", "SUPPLY_EN", "SDS_TX"] (fun t n => t.emit (.hiz n))
    else
      let t := t.resetPins
      let t := (t.setEngines { t.cur.engines with running := false }).setStore { s.store with run := none, keys := [] }
      t.setPower { t.cur.power with supplyDown := true, standby := false }

/-- Whether a wake event is armed in STANDBY (R203, R474): cause as 0x6502:03, MAC and pattern, seconds, frame. -/
def State.wakeArmed (s : State) (cause mac pattern secs : Nat) (f : Bytes) : Bool :=
  let en := s.g 0x6502 0 0x01
  match cause with
  | 1 => s.wakesMagic mac f
  | 2 => pattern < 4 && s.wakesPattern mac pattern f
  | 3 => bit en 1
  | 4 => bit en 2 && s.g 0x6502 0 0x02 != 0 && s.g 0x6502 0 0x02 ≤ secs
  | 5 => true
  | _ => false

/-- STANDBY ends with a wake event (R474, R475): a power-on reset that keeps the always-on domain. -/
def Tx.wakeUp (t : Tx s0) (cause mac pattern secs : Nat) (b : BootIn) : Tx s0 :=
  let seen := t.cur.power.examined + b2n (cause ≤ 2)
  let t := ((t.w 0x6502 0 0x03 cause).w 0x6502 0 0x04 (if cause ≤ 2 then mac else 0xFF)).w 0x6502 0 0x05
    (if cause == 2 then pattern else 0xFF)
  let t := (((t.tally 0x6502 0 0x06).w 0x6502 0 0x07 secs).w 0x6502 0 0x09 seen).flagBit 0x6502 0 0x0B 0
  let t := (t.deviceReset 0 6 true b).flagBit 0x6500 0 0x15 3
  t.when (!t.cur.romOnly) (fun t => t.w 0x6500 0 0x14 3)

/-- PIN_RESET (R459, R474): RESET_N low; in STANDBY it is a wake event, under power-on reset it adds nothing (R504). -/
def execPinReset (b : BootIn) (s : State) : Host.Outcome State Fault Refusal :=
  runAlways s fun t =>
    if s.power.supplyDown then t else if s.power.standby then t.wakeUp 5 0 0 0 b else t.deviceReset 1 1 true b

/-- Whether the boot has failed (R466): 3 s have passed since stage 5, or the watchdog has expired, before stage 11. -/
def State.bootFailed (s : State) : Bool :=
  s.g 0x6500 0 0x01 == 0 && 5 ≤ s.power.stage && s.power.stage < 11 &&
  (s.power.wdtAt.isSome || s.power.resetAt + usC (s.g 0x6401 0 0x05) + secC 3 ≤ s.clock)

/-- BOOT_FAILURE (R466): a boot that did not reach stage 11; after three of one slot it is marked failed, and the other valid one
is preferred. The device boots again (assumption 55). -/
def execBootFailure (b : BootIn) (s : State) : Host.Outcome State Fault Refusal :=
  run s fun t =>
    let slot := s.g 0x6400 0 0x02
    if !s.bootFailed then t
    else
      let n := s.g 0x6400 0 0x09 + 1
      let t := t.w 0x6400 0 0x09 n
      if n < 3 then t.sysSave.deviceReset 2 3 true b
      else
        let t := (t.setSlot slot { t.cur.slot slot with state := 2 }).w 0x6400 0 0x09 0
        let other := 1 - slot
        if (t.cur.slot other).state == 1 || (t.cur.slot other).state == 3 then
          let t := (t.w 0x6400 0 0x03 other).inc 0x6400 0 0x0A 1
          (t.sysSave.deviceReset 2 7 true b).flagBit 0x6400 0 0x13 0
        else t.sysSave.deviceReset 2 7 true b

end Sys2Proof.Machine
end

