-- ==== Sys2Proof/Machine/Power.lean ====
section
/-! DEFINITION. Resets that hosts and the device start, power states, attestation, ageing and the margin plan
(R459 to R481). -/

namespace Sys2Proof.Machine
open Sys2Proof

variable {s0 : State}

/-! ## Control processor reset (R461) -/

/-- The memory behind target j, of SRAM region r, reads zeros: it lies in the scope of a reset (Table 17.2; DESIGN CHOICE, assumption
58: the manual does not say what a byte reads afterwards). -/
def Tx.cellsClear (t : Tx s0) (j r : Nat) : Tx s0 :=
  let m := t.cur.mem
  t.setMem { m with cells := m.cells.filter (fun p => targetOf false p.1 != some j),
                    fixes := m.fixes.filter (fun x => x.1 != r) }

/-- The entry to STANDBY ends without it: the state stays IDLE (R473, R474). -/
def Tx.entryEnd (t : Tx s0) : Tx s0 := (t.w 0x6500 0 0x03 0).setPower { t.cur.power with entry := 0 }

/-- A reset of kind 3 for a cause: sessions, stages, rings, servo and Sprinkler; the audio goes on. -/
def Tx.controlReset (t : Tx s0) (cause : Nat) : Tx s0 :=
  if t.cur.power.ctlReset.isSome || t.cur.power.devReset.isSome then t
  else
    let s := t.cur
    let t := t.mramCut.each (List.range 8) (fun t h => t.closeSession h)
    let t := t.cancelCommit.when (s.power.entry != 0) (fun t => t.entryEnd.flagBit 0x6500 0 0x15 2)
    let t := (t.spiQueue []).setCtl { Control.init with down := true }
    let t := t.when s.store.run.isSome (fun t => t.w 0x1400 0 0x02 0)
    let t := t.setStore { t.cur.store with run := none, keys := [] }
    let t := t.w 0x6000 0 0x01 0
    let t := (t.setNet { t.cur.net with rings := [], heads := [] }).w 0x5300 0 0x01 0
    let t := t.each (List.range 4) (fun t r => t.w 0x4E00 r 0x03 0)
    let t := t.setTime { s.time with qual := 0, within := 0, foreigns := [], parent := none, syncWait := none,
                                     msDelay := none, mpd := none, reqWait := none, annAt := [], annFrom := s.clock, txq := [] }
    let t := t.setSprk { Sprk.init with ctl := s.sprk.ctl, beatAt := s.clock }
    let t := ([0, 1, 12].foldl (fun t m => t.masterDrain m) t).cellsClear 1 6
    let t := (t.resetReport 3 cause).flagBit 0x6501 0 0x11 1
    let t := t.when (cause == 3) (fun t => (t.inc 0x6501 0 0x10 1).flagBit 0x6501 0 0x11 4)
    (t.setPower { t.cur.power with ctlReset := some (s.clock, cause) }).sysSave

/-- Own rule of 0x6501:02. -/
def controlResetRule (t : Tx s0) : Tx s0 := t.controlReset 2

/-- CONTROL_PROCESSOR_RESET (R461): write of 0x6501:02. -/
def execControlProcessorReset (h : Nat) (d : Bytes) (s : State) : Host.Outcome State Fault Refusal :=
  run s fun t => t.guarded h (opOf 0x6501 0 0x02 d) controlResetRule

/-- CONTROL_RESET_COMPLETE (R376, R377, R461): once the pieces of masters 0, 1 and 12 have drained, the firmware runs again; servo
and Sprinkler resume, Yexel accepts OPEN. -/
def execControlResetComplete (s : State) : Host.Outcome State Fault Refusal :=
  run s fun t =>
    match s.power.ctlReset with
    | none => t
    | some (start, cause) =>
      let t := t.busRun
      if [0, 1, 12].any t.cur.draining then t
      else
      let t := (t.setPower { t.cur.power with ctlReset := none }).setCtl { t.cur.ctl with down := false }
      let t := ((t.w 0x6000 0 0x01 1).peak 0x6501 0 0x0F (ceilDiv (s.clock - start) 1000000)).sysSave
      let st := s.g 0x5000 0 0x07
      let t := t.when (st == 2 || st == 3) (fun t => t.servoTo 1)
      let t := t.when (s.g 0x5400 0 0x02 != 0) (fun t =>
        let t := t.sprkTo 1
        t.when (s.g 0x5400 0 0x02 == 2) (fun t => t.sprkTo 6))
      let t := t.ptpDrain.ring3Drain 256
      t.msg 442 [byte cause, 0, 0, 0]

/-! ## Tending pool and network resets (R462) -/

/-- Own rule of 0x6501:03: every placed chain is placed again in ascending order, with its state zeroed. -/
def poolResetRule (t : Tx s0) : Tx s0 :=
  let t := t.busRun
  if t.cur.power.devReset.isSome || t.cur.draining 10 then t
  else
    let old := t.cur
    let again := old.placed
    let t := t.each again (fun t c => t.unplace c 5)
    let t := (t.w 0x5F00 0 0x01 0).w 0x5F00 0 0x02 0
    let t := t.setPool { t.cur.pool with tasks := [], inner := 0, release := [], busy := [] }
    let t := t.each again (fun t c =>
      let r := t.cur.findCore c
      let x := old.chainSt c
      if r.2 != 0 then t.flagBit 0x5E10 c 0x13 7
      else
        (t.place c r.1).when (!old.on 0x5E10 c 0x01) (fun t =>
          t.setChainSt c { t.cur.chainSt c with closing := x.closing, ramp := x.ramp }))
    ((((t.masterDrain 10).cellsClear 6 5).resetReport 4 2).flagBit 0x6501 0 0x11 2).sysSave

/-- TENDING_POOL_RESET (R462): write of 0x6501:03. -/
def execTendingPoolReset (h : Nat) (d : Bytes) (s : State) : Host.Outcome State Fault Refusal :=
  run s fun t => t.guarded h (opOf 0x6501 0 0x03 d) poolResetRule

/-- Own rule of 0x6501:04: links down, queues and rings empty, streams start again. -/
def networkResetRule (t : Tx s0) : Tx s0 :=
  let t := t.busRun
  if t.cur.power.devReset.isSome || t.cur.draining 8 || t.cur.draining 9 then t
  else
    let t := t.each t.cur.rxServed (fun t i => (t.rxEnd i).rxStart i)
    let t := t.each t.cur.txServed (fun t i => (t.txEnd i false).txStart i (nextBlock t.cur.now))
    let t := t.each (List.range 6) (fun t m => t.linkDown m)
    let macs := t.cur.net.macs.map (fun e => (e.1, { e.2 with pauseUntil := 0, pauseFrom := none, ignoreUntil := 0, out := [],
                                                              busyUntil := 0, busy := none }))
    let tx := t.cur.net.tx.map (fun e => (e.1, { e.2 with flights := [] }))
    let t := t.freeCells (sumN (t.cur.net.tx.flatMap (fun e => e.2.flights.map (fun f => f.cells.length))))
    let t := t.setNet { t.cur.net with rings := [], heads := [], macs := macs, tx := tx }
    let t := t.each (List.range 4) (fun t r => t.w 0x4E00 r 0x03 0)
    let t := t.when (t.on 0x5001 0 0x01) (fun t =>
      let t := t.setTime { t.cur.time with foreigns := [], parent := none, syncWait := none, msDelay := none, mpd := none,
                                           reqWait := none, annAt := [], annFrom := t.cur.clock }
      (t.w 0x5001 0 0x12 (t.g 0x5001 0 0x05)).w 0x5001 0 0x11 4)
    let t := t.setCtl { t.cur.ctl with inbox := t.cur.ctl.inbox.filter (fun p => p.1.transport == 6) }
    (((((t.masterDrain 8).masterDrain 9).cellsClear 5 1).resetReport 5 2).flagBit 0x6501 0 0x11 3).sysSave

/-- NETWORK_RESET (R462): write of 0x6501:04. -/
def execNetworkReset (h : Nat) (d : Bytes) (s : State) : Host.Outcome State Fault Refusal :=
  run s fun t => t.guarded h (opOf 0x6501 0 0x04 d) networkResetRule

/-! ## Device reset (R460) -/

/-- The device asks itself for a device reset for a cause; while the engines run the outputs ramp down first. -/
def Tx.askDeviceReset (t : Tx s0) (cause : Nat) : Tx s0 :=
  if t.cur.power.devReset.isSome then t
  else t.setPower { t.cur.power with devReset := some (nextBlock t.cur.now, cause, false) }

/-- Own rule of 0x6501:01. -/
def deviceResetRule (t : Tx s0) : Tx s0 := t.askDeviceReset 2

/-- A device reset and what it reports afterwards. -/
def Tx.deviceResetNow (t : Tx s0) (cause : Nat) (b : BootIn) : Tx s0 :=
  let t := (t.deviceReset 2 cause true b).flagBit 0x6501 0 0x11 0
  t.when (cause == 3) (fun t =>
    let t := (t.inc 0x6501 0 0x10 1).flagBit 0x6501 0 0x11 4
    (t.tally 0x6400 0 0x0E).flagBit 0x6400 0 0x13 2)

/-- What of a device reset under way is due: destinations ramp from its boundary, then the Hedge, then the reset. -/
def Tx.deviceResetStep (t : Tx s0) (b : BootIn) : Tx s0 :=
  match t.cur.power.devReset with
  | none => t
  | some (B, cause, hedge) =>
    let s := t.cur
    if !s.engines.running then t.deviceResetNow cause b
    else if s.now < B then t
    else if s.now < B + 64 then t.setMaps { s.maps with ramp := some (B, false) }
    else if !hedge then (t.setPower { s.power with devReset := some (B, cause, true) }).hedgeHold
    else if allMods.any (fun c => s.modRuns c && (s.downEnded c).isNone) then t
    else t.deviceResetNow cause b

/-- DEVICE_RESET (R460): a write of 0x6501:01 starts it, and each further command does what of it is due. -/
def execDeviceReset (h : Nat) (d : Bytes) (b : BootIn) (s : State) : Host.Outcome State Fault Refusal :=
  run s fun t =>
    if s.power.devReset.isSome then t.deviceResetStep b
    else
      let t := t.guarded h (opOf 0x6501 0 0x01 d) deviceResetRule
      if s.engines.running then t else t.deviceResetStep b

/-- WATCHDOG (R463): an expiry resets the control processor, a second one within 10 s the device. -/
def execWatchdog (s : State) : Host.Outcome State Fault Refusal :=
  run s fun t =>
    if !s.power.straps.wdtEn || s.power.stage < 5 || s.romOnly then t
    else
      let t := (t.tally 0x6400 0 0x0E).flagBit 0x6400 0 0x13 2
      let again := (s.power.wdtAt.map (fun c => decide (s.clock < c + secC 10))).getD false
      let t := t.setPower { s.power with wdtAt := some s.clock }
      if s.power.stage < 11 then t else if again then t.askDeviceReset 3 else t.controlReset 3

/-! ## SRAM patrol (R379 to R381) -/

/-- A machine check of the control processor at a word of the system SRAM (R380, R461): it is reset. -/
def Tx.machineCheck (t : Tx s0) (word : Nat) : Tx s0 :=
  (((t.tally 0x6400 0 0x0F).w 0x6400 0 0x10 (8 * word)).flagBit 0x6400 0 0x13 3).controlReset 4

/-- PATROL (R381): the next word of region n, `word`, is read; `err` are the bits of its codeword that stand wrong, `syn` the syndrome
that is reported. An uncorrectable word of the system SRAM is a machine check (R380). -/
def execPatrol (n word err syn : Nat) (s : State) : Host.Outcome State Fault Refusal :=
  run s fun t =>
    if n == 0 || 6 < n || word != mget 0 s.mem.patrol n then t
    else
      let t := t.patrolWord n
      match secDecode n err with
      | 0 => t
      | 1 => t.sramFixed ⟨n, word, err, syn⟩
      | _ => (t.sramBad n word).when (n == 6) (fun t => t.machineCheck word)

/-! ## Firmware image and attestation -/

/-- Slot i is erased; where it was preferred, the other one is (R466). -/
def Tx.imageGone (t : Tx s0) (i : Nat) : Tx s0 :=
  (t.setSlot i ⟨[], 0⟩).when (t.g 0x6400 0 0x03 == i) (fun t => t.w 0x6400 0 0x03 (1 - i))

/-- An image is refused: the target stays empty (R467). -/
def Tx.imageRefuse (t : Tx s0) (slot reason : Nat) : Tx s0 :=
  let t := ((t.imageGone slot).w 0x6400 0 0x0C reason).sysSave
  (t.flagBit 0x6400 0 0x13 1).status stOutOfRange

/-- Slot that an image is written to (R467). -/
def State.imageTarget (s : State) : Nat := if s.g 0x6400 0 0x02 == 0 then 1 else 0

/-- The first segment of an image is accepted: the target is erased (R467). -/
def Tx.imageErase (t : Tx s0) : Tx s0 := (t.imageGone t.cur.imageTarget).sysSave

/-- Own rule of 0x6400:06 (R467): an accepted image is in place when its write has ended (R412; BUSY as for a kernel pack, assumption
84). -/
def imageRule (d : Bytes) (t : Tx s0) : Tx s0 :=
  let i := t.cur.imageTarget
  let B := fieldLE d 12 4
  let n := fieldLE d 6 2
  let body := slice d 64 B
  if t.cur.power.mram.isSome then t.status stBusy
  else if d.length != 160 + B then (t.imageRefuse i 0).status stBadType
  else if slice d 0 4 != [0x55, 0x4B, 0x46, 0x57] || fieldLE d 4 2 != 1 || n == 0 || 32 < n then t.imageRefuse i 1
  else if slice d 16 48 != sha384 body then t.imageRefuse i 2
  else if !ecdsaVerify gumadalKey (sha384 (d.take (64 + B))) (d.drop (64 + B)) then t.imageRefuse i 3
  else if fieldLE d 8 4 < t.g 0x6400 0 0x07 then t.imageRefuse i 4
  else t.imageErase.mramBegin (8 + i) d

/-- FIRMWARE_IMAGE (R467): write of 0x6400:06. -/
def execFirmwareImage (h : Nat) (d : Bytes) (s : State) : Host.Outcome State Fault Refusal :=
  run s fun t => t.guarded h (opOf 0x6400 0 0x06 d) (imageRule d)

/-- What a read of 0x6400:06 returns (R467). -/
def State.imageHeader (s : State) : Bytes :=
  if s.g 0x6400 0 0x02 == 0xFF then zeros 64 else fitBytes 64 ((s.slotImage (s.g 0x6400 0 0x02)).take 64)

/-- The report of Table 17.4 over a nonce. -/
def State.report (s : State) (nonce : Bytes) : Bytes :=
  [0x55, 0x4B, 0x41, 0x54] ++ leBytes 2 1 ++ leBytes 2 (s.g 0x6402 0 0x09) ++ nonce ++
  fitBytes 16 (s.gb 0x0000 0 0x05) ++ leBytes 4 (s.g 0x0000 0 0x07) ++ leBytes 4 (s.g 0x6400 0 0x07) ++
  leBytes 2 (s.g 0x0000 0 0x04) ++ leBytes 1 (s.g 0x6400 0 0x01) ++ leBytes 1 (s.g 0x6500 0 0x01) ++
  leBytes 4 (s.g 0x6400 0 0x0B) ++ s.gb 0x6402 0 0x08 ++ leBytes 8 s.now ++ leBytes 10 (time80 s.ns) ++
  leBytes 1 (s.g 0x5000 0 0x07) ++ leBytes 1 (s.g 0x6501 0 0x06) ++ zeros 20

/-- Own rule of 0x6402:01 (R471). -/
def nonceRule (h : Nat) (d : Bytes) (t : Tx s0) : Tx s0 :=
  if t.g 0x6402 0 0x02 == 1 then ((t.tally 0x6402 0 0x0A).flagBit 0x6402 0 0x0D 1).status stBusy
  else
    let t := (t.wb 0x6402 0 0x03 (zeros 160)).wb 0x6402 0 0x04 (zeros 96)
    let t := ((t.w 0x6402 0 0x02 1).w 0x6402 0 0x05 h).w 0x6402 0 0x06 t.cur.now
    t.setPower { t.cur.power with signing := some d }

/-- NONCE (R471): write of 0x6402:01. -/
def execNonce (h : Nat) (d : Bytes) (s : State) : Host.Outcome State Fault Refusal :=
  run s fun t => t.guarded h (opOf 0x6402 0 0x01 d) (nonceRule h d)

/-- REPORT_SIGNED (R471): the report is built and signed, after so many µs. -/
def execReportSigned (us : Nat) (s : State) : Host.Outcome State Fault Refusal :=
  runCtl s fun t =>
    match s.power.signing with
    | none => t
    | some d =>
      let r := s.report d
      let t := (t.wb 0x6402 0 0x03 r).wb 0x6402 0 0x04 (fitBytes 96 (Config.sign (sha384 r)))
      let t := ((t.w 0x6402 0 0x02 2).inc 0x6402 0 0x07 1).w 0x6402 0 0x0C us
      (t.flagBit 0x6402 0 0x0D 0).setPower { t.cur.power with signing := none }

/-! ## Power states (R472 to R476) -/

/-- Whether a wake source is enabled (R473). -/
def State.wakeSource (s : State) : Bool :=
  let en := s.g 0x6502 0 0x01
  bit en 0 || bit en 1 || (bit en 2 && s.g 0x6502 0 0x02 != 0)

/-- The way to IDLE begins (R473); `goal` is the state asked for. -/
def Tx.towardIdle (t : Tx s0) (goal : Nat) : Tx s0 :=
  let t := t.w 0x6500 0 0x03 goal
  let e := t.cur.engines
  if e.running then
    t.setEngines { e with rampB := some (e.rampB.getD (nextBlock t.cur.now)), cause := 4 }
  else
    let t := t.when (e.cause == 2 || e.cause == 3) Tx.engineStopRest
    ((t.setEngines { e with cause := 4 }).hedgeHold).idleEntered

/-- Own rule of 0x6500:02 (R473). -/
def powerRule (d : Bytes) (t : Tx s0) : Tx s0 :=
  let s := t.cur
  let v := leNat d
  let st := s.g 0x6500 0 0x01
  if st == 3 || st == 4 then t.status stState
  else if v == 3 && !s.wakeSource then t.status stState
  else if st == 0 || s.g 0x6500 0 0x03 != 0 || s.power.devReset.isSome then t.status stBusy
  else if v == st then t
  else if v == 1 then (t.w 0x6500 0 0x03 1).setEngines { s.engines with cause := 6 }
  else if st == 1 then t.towardIdle v
  else (t.w 0x6500 0 0x03 3).standbyNext

/-- REQUEST_ACTIVE, REQUEST_IDLE and REQUEST_STANDBY (R473): writes of 0x6500:02. -/
def execRequestActive (h : Nat) (d : Bytes) (s : State) : Host.Outcome State Fault Refusal :=
  run s fun t => t.guarded h (opOf 0x6500 0 0x02 d) (powerRule d)
def execRequestIdle (h : Nat) (d : Bytes) (s : State) : Host.Outcome State Fault Refusal :=
  run s fun t => t.guarded h (opOf 0x6500 0 0x02 d) (powerRule d)
def execRequestStandby (h : Nat) (d : Bytes) (s : State) : Host.Outcome State Fault Refusal :=
  run s fun t => t.guarded h (opOf 0x6500 0 0x02 d) (powerRule d)

/-- The save that the entry to STANDBY waits for has ended (R473). -/
def Tx.entrySaved (t : Tx s0) (good : Bool) : Tx s0 :=
  match t.cur.power.entry with
  | 1 => if good then t.setPower { t.cur.power with entry := 3 } else t.entryEnd.flagBit 0x6500 0 0x15 2
  | 2 => t.setPower { t.cur.power with entry := 1 }
  | _ => t

/-- STANDBY_ENTRY (R293, R473, R477, R505): the Hedge is powered down, the wake sources are armed, the DRAM enters self-refresh
and SUPPLY_EN falls. -/
def execStandbyEntry (s : State) : Host.Outcome State Fault Refusal :=
  run s fun t =>
    if s.power.entry != 3 then t
    else
      let t := (t.when (t.g 0x6200 0 0x01 != 2) Tx.selfRefresh).tally 0x6500 0 0x13
      let t := (((t.w 0x6500 0 0x03 0).supplyEn 0).emit (.hiz "VREQ")).hedgePinsFree
      t.setPower { t.cur.power with entry := 0, standby := true, examined := 0 }

/-- WAKE (R474, R475): a wake event with its cause, its MAC and pattern (n = MAC + 8 · pattern) and its frame, the seconds
spent in STANDBY and what the boot finds; before SUPPLY_EN falls it abandons the entry. -/
def execWake (cause n secs : Nat) (f : Bytes) (b : BootIn) (s : State) : Host.Outcome State Fault Refusal :=
  runAlways s fun t =>
    let mac := n % 8
    let pat := n / 8
    if s.power.supplyDown || !s.wakeArmed cause mac pat secs f then t
    else if s.power.standby then t.wakeUp cause mac pat secs b
    else if s.g 0x6500 0 0x03 != 3 then t
    else
      let t := (t.tally 0x6502 0 0x0A).flagBit 0x6502 0 0x0B 1
      if s.g 0x6500 0 0x01 == 2 then t.entryEnd.when (t.g 0x6200 0 0x01 == 2) (fun t => t.w 0x6200 0 0x01 1)
      else t.w 0x6500 0 0x03 2

/-- Temperatures of R476 in °C. -/
def hotLimit : F32 := 0x42E60000
def coolLimit : F32 := 0x42BE0000

/-- THERMAL_SHUTDOWN (R476): ten readings in succession above +115 °C. VREQ is driven in FAILED (Table 17.6). -/
def Tx.thermalShutdown (t : Tx s0) : Tx s0 :=
  let e := t.cur.engines
  let t := if e.running then
      t.setEngines { e with rampB := some (e.rampB.getD (nextBlock t.cur.now)), cause := 5 }
    else (t.setEngines { e with cause := 5 }).hedgeHold
  let free := !t.cur.vreqDriven
  let t := (((t.w 0x6500 0 0x03 0).powerTo 4 2).showBanks).bypassN 0
  let t := t.when (free && t.cur.vreqDriven) (fun t => t.emit (.pin "VREQ" (t.g 0x6603 0 0x01)))
  let t := t.setPower { t.cur.power with entry := 0 }
  (t.tally 0x6500 0 0x0E).flagBit 0x6500 0 0x15 1

/-- THERMAL_READ (R476): a reading of the die temperature, every 1 ms. The estimated power has no law in the manual: a
free value (assumption 2). -/
def execThermalRead (temp : F32) (s : State) : Host.Outcome State Fault Refusal :=
  run s fun t =>
    let f := t.fresh
    let t := (f.2.w 0x6500 0 0x0A temp).w 0x6500 0 0x0F f.1
    let t := t.when (F.lt (s.g 0x6500 0 0x0B) temp) (fun t => t.w 0x6500 0 0x0B temp)
    let t := t.when (F.lt (s.g 0x6500 0 0x0C) temp) (fun t => t.flagBit 0x6500 0 0x15 0)
    let p := s.power
    let hot := if F.lt hotLimit temp then p.hot + 1 else 0
    let cool := if F.lt temp coolLimit then some (p.coolAt.getD s.clock) else none
    let t := t.setPower { p with hot := min hot 10, coolAt := cool, hotNew := p.hotNew + b2n (F.lt coolLimit temp) }
    let st := s.g 0x6500 0 0x01
    t.when (10 ≤ hot && st != 4) Tx.thermalShutdown

/-- THERMAL_RECOVERY (R476): after 10 s below +95 °C. -/
def execThermalRecovery (b : BootIn) (s : State) : Host.Outcome State Fault Refusal :=
  run s fun t =>
    match s.power.coolAt with
    | some c => if s.g 0x6500 0 0x01 == 4 && !s.engines.running && c + secC 10 ≤ s.clock then t.deviceResetNow 5 b else t
    | none => t

/-! ## Ageing monitors (R478) -/

/-- Kind of monitor i (0x6700 + i:01), and whether it is a path monitor that is not faulty. -/
def State.monKind (s : State) (i : Nat) : Nat := s.g (0x6700 + i) 0 0x01
def State.pathUsable (s : State) (i : Nat) : Bool :=
  (s.monKind i == 1 || s.monKind i == 2) && !s.power.faulty.contains i

/-- Drift in %: (reading / factory − 1) · 100, rounded once. -/
def driftOf (r f : F32) : F32 := X.toF ((X.div (X.ofF r) (X.ofF f) - X.one) * 100)

/-- Whether a reading lies outside 0.5 to 2.0 times the factory reading, which may be below zero. -/
def readingBad (r f : F32) : Bool :=
  let a := F.toScaled r
  let b := F.toScaled f
  !F.isFinite r || 2 * a < min b (4 * b) || max b (4 * b) < 2 * a

/-- Factory reading of monitor i at a code and a temperature, interpolated from the factory records, whose layout is Gumadal's own:
a value of the part (R478, Table 17.7; assumption 60). -/
def factoryAt (i code : Nat) (temp : F32) : F32 :=
  let v := Config.factory i code temp
  if F.isFinite v then v else 0

/-- One monitor is sampled. Where reading and factory reading are both 0 the manual gives no drift: a free value. -/
def Tx.monitorRead (t : Tx s0) (i : Nat) (r f : F32) : Tx s0 :=
  let t := t.w (0x6700 + i) 0 0x02 r
  if t.cur.power.faulty.contains i then t
  else if readingBad r f then
    let t := t.setPower { t.cur.power with faulty := i :: t.cur.power.faulty }
    let t := ((t.w (0x6700 + i) 0 0x03 F.nan).tally 0x6600 0 0x10).inc 0x6600 0 0x11 1
    t.flagBit 0x6600 0 0x15 0
  else if F.toScaled f == 0 then
    let x := t.fresh
    x.2.w (0x6700 + i) 0 0x03 x.1
  else t.w (0x6700 + i) 0 0x03 (driftOf r f)

/-- What the samples show: worst and mean drift of the path monitors, hottest sensor and spread. -/
def Tx.ageingShow (t : Tx s0) : Tx s0 :=
  let s := t.cur
  let path := (List.range 256).filter s.pathUsable
  let drift := fun i => s.g (0x6700 + i) 0 0x03
  let worst := maxF (path.map drift)
  let who := (path.find? (fun i => drift i == worst)).getD 0
  let mean := if path.isEmpty then 0 else X.toF (sumI (path.map (fun i => X.ofF (drift i))) / path.length)
  let temps := ((List.range 256).filter (fun i => s.monKind i == 3 && !s.power.faulty.contains i)).map
    (fun i => s.g (0x6700 + i) 0 0x02)
  let t := ((t.w 0x6600 0 0x04 worst).w 0x6600 0 0x05 who).w 0x6600 0 0x06 mean
  let t := (t.w 0x6600 0 0x0C (maxF temps)).w 0x6600 0 0x0D (F.sub (maxF temps) (minF temps))
  t.when (F.lt (s.g 0x6600 0 0x07) worst) (fun t => t.flagBit 0x6600 0 0x15 1)

/-- MONITOR_SAMPLE (R478): the sample interval has passed; a monitor whose reading is missing could not be sampled in
time. `temps` are the temperatures of the monitors. -/
def execMonitorSample (readings temps : List F32) (s : State) : Host.Outcome State Fault Refusal :=
  run s fun t =>
    if s.clock < s.power.sampleAt + secC (s.g 0x6600 0 0x02) then t
    else
      let t := t.setPower { s.power with sampleAt := s.clock }
      let t := t.each (List.range (min 256 readings.length)) (fun t i => 
        t.monitorRead i (nth readings i 0) (factoryAt i (s.g 0x6603 0 0x01) (nth temps i 0)))
      ((t.inc 0x6600 0 0x03 1).inc 0x6600 0 0x12 (256 - readings.length)).ageingShow

/-- Weight of an hour at a temperature in °C, in 2^-32: the Arrhenius law with 0.7 eV referred to +85 °C (R478); Boltzmann's
constant is 8.617333262 · 10^-5 eV/K. -/
def ageWeight (temp : F32) : Nat :=
  let kelvin := X.ofF temp + X.ofRat 27315 100
  let ref := X.ofRat 35815 100
  let ek := X.ofRat 7000000000000 861733262
  if kelvin ≤ 0 then 0 else (X.exp (X.mul ek (X.div X.one ref - X.div X.one kelvin)) / 2 ^ 128).toNat

/-- AGEING_TELEMETRY_SAVE (R478): every hour the powered hours and the weighted age go to MRAM. -/
def execAgeingTelemetrySave (s : State) : Host.Outcome State Fault Refusal :=
  run s fun t =>
    let p := s.power
    if s.clock < p.hourAt + secC 3600 then t
    else
      let p := { p with hourAt := p.hourAt + secC 3600, hours := p.hours + 1, hotMs := p.hotMs + p.hotNew, hotNew := 0,
                        age := p.age + ageWeight (s.g 0x6500 0 0x0A) }
      let t := ((t.setPower p).w 0x6600 0 0x08 p.hours).w 0x6600 0 0x09 (p.hotMs / 3600000)
      ((t.w 0x6600 0 0x0A (p.age / 2 ^ 32)).w 0x6600 0 0x0F p.hours).sysSave

/-! ## Margin plan and VREQ (R479, R480) -/

/-- Factory delay ratio F(c). -/
def State.ratio (s : State) (c : Nat) : Int := F.toScaled (s.g (0x6610 + c) 0 0x01)

/-- Guard g in ps times 2^149. -/
def State.guard (s : State) : Int := F.toScaled (s.g 0x6601 0 0x03)

/-- Whether code c satisfies the plan for a delay measured at code c0: D · F(c) / F(c0) ≤ 1,000 − g. -/
def State.codeFits (s : State) (c0 c : Nat) (d : F32) : Bool :=
  F.toScaled d * s.ratio c ≤ (1000 * 2 ^ 149 - s.guard) * s.ratio c0

/-- Predicted delay in ps at code c of a delay measured at code c0. -/
def State.predicted (s : State) (c0 c : Nat) (d : F32) : F32 :=
  if s.ratio c0 == 0 then 0 else X.toF (F.toScaled d * s.ratio c * 2 ^ 11 / s.ratio c0)

/-- The plan code and the state of the plan (R479, Table 17.11). -/
def Tx.planCode (t : Tx s0) (code st : Nat) : Tx s0 :=
  let t := ((t.w 0x6601 0 0x08 code).w 0x6601 0 0x09 (codeVolts code)).w 0x6601 0 0x13 st
  (t.w 0x6600 0 0x0E (F.ofInt (315 - 5 * (code : Int)))).w 0x6603 0 0x0B code

/-- Own rule of 0x6601:01 and :02 (R479): in fixed mode the plan code is 0x6601:02 from now on, and a return to adaptive mode makes
a plan due (DESIGN CHOICE, assumption 60). -/
def planModeRule (sub : Nat) (d : Bytes) (t : Tx s0) : Tx s0 :=
  let t := t.w 0x6601 0 sub (leNat d)
  if !t.cur.power.straps.vreqEn then t
  else if t.g 0x6601 0 0x01 == 1 then t.planCode (t.g 0x6601 0 0x02) 1
  else t.when (sub == 1) (fun t => t.setPower { t.cur.power with planDue := true })

/-- A plan code is chosen (R479, Table 17.11): code, required code, state. -/
def Tx.planSet (t : Tx s0) (code req st : Nat) (worst : F32) : Tx s0 :=
  let s := t.cur
  let c0 := s.g 0x6603 0 0x01
  let t := (t.planCode code st).w 0x6601 0 0x0A req
  let t := ((t.w 0x6601 0 0x0B (s.g 0x6600 0 0x08)).tally 0x6601 0 0x0C).w 0x6601 0 0x0D (s.g 0x6500 0 0x0A)
  let t := t.w 0x6601 0 0x0E (F.sub 0x447A0000 (s.predicted c0 code worst))
  let t := t.w 0x6600 0 0x13 (s.g 0x6600 0 0x04)
  let t := t.each (List.range 64) (fun t c => t.w (0x6610 + c) 0 0x02 (s.predicted c0 c worst))
  t.setPower { t.cur.power with planAt := s.clock, planDue := false }

/-- Whether a plan is due (R479): after stage 6 or a safety raise, at its interval, or after a move of temperature. -/
def State.planDue (s : State) : Bool :=
  s.power.planDue || s.power.planAt + secC (3600 * s.g 0x6601 0 0x06) ≤ s.clock ||
  F.lt (s.g 0x6601 0 0x07) (F.abs (F.sub (s.g 0x6500 0 0x0A) (s.g 0x6601 0 0x0D)))

/-- MARGIN_PLAN (R479): `delays` are the delays of the monitors, averaged over 1 s at the running code. -/
def execMarginPlan (delays : List F32) (s : State) : Host.Outcome State Fault Refusal :=
  run s fun t =>
    if !s.planDue then t
    else
      let c0 := s.g 0x6603 0 0x01
      let lo := s.g 0x6601 0 0x04
      let hi := s.g 0x6601 0 0x05
      let ds := ((List.range (min 256 delays.length)).filter s.pathUsable).map (fun i => nth delays i 0)
      let worst := maxF ds
      let fits := fun c => ds.all (s.codeFits c0 c)
      let req := ((List.range 64).find? fits).getD 63
      if !s.power.straps.vreqEn then t.planSet 30 req 3 worst
      else if s.g 0x6601 0 0x01 == 1 then t.planSet (s.g 0x6601 0 0x02) req 1 worst
      else if ds.length < 8 then t.planSet hi req 2 worst
      else
        match (range' lo (hi + 1 - lo)).find? fits with
        | some c => t.planSet c req 0 worst
        | none => (t.planSet hi req 2 worst).flagBit 0x6600 0 0x15 2

/-- VREQ_STEP (R480, Table 17.10): a step interval ends with VDD_CORE measured; the code moves toward its target while VREQ is
driven. -/
def execVreqStep (volts : F32) (s : State) : Host.Outcome State Fault Refusal :=
  run s fun t =>
    if s.clock < s.power.stepAt + usC (s.g 0x6601 0 0x10) then t
    else
      let c := s.g 0x6603 0 0x01
      let t := (t.setPower { s.power with stepAt := s.clock, stepFrom := c }).w 0x6603 0 0x03 volts
      let t := (t.w 0x6503 0 0x01 volts).w 0x6503 0 0x0D (2 * (s.g 0x6503 0 0x0D / 2) + b2n (s.supplyBad 0 volts))
      let err : Int := F.toScaled volts * 1000 - (600 + 5 * c : Nat) * 2 ^ 149
      let t := t.w 0x6603 0 0x04 (F.ofScaled err (-149))
      let t := t.when (15 * 2 ^ 149 < err.natAbs) (fun t => t.tally 0x6603 0 0x0A)
      let goal := s.g 0x6603 0 0x0B
      let n := s.g 0x6601 0 0x0F
      if !s.vreqDriven || goal == c then t else t.vreqTo (if c < goal then min goal (c + n) else max goal (c - n))

/-- Whether a delay exceeds 1,000 ps − g/2 (R480). -/
def State.marginGone (s : State) (d : F32) : Bool := F.isFinite d && 2000 * 2 ^ 149 - s.guard < 2 * F.toScaled d

/-- SAFETY_RAISE (R480): a path monitor compares its delay with 1,000 ps − g/2; beyond it the code rises at once by one step, and
again every step interval, and a new plan is due. With a step of the plan that fell due in this cycle the higher code stands. -/
def execSafetyRaise (n : PathDelay) (s : State) : Host.Outcome State Fault Refusal :=
  run s fun t =>
    let c := s.g 0x6603 0 0x01
    let early := match s.power.raiseAt with
      | some r => s.clock < r + usC (s.g 0x6601 0 0x10)
      | none => false
    if !s.vreqDriven || !s.pathUsable n.monitor || !s.marginGone n.delay || early then t
    else
      let from_ := if s.power.stepAt == s.clock then s.power.stepFrom else c
      let c' := max c (min 63 (from_ + s.g 0x6601 0 0x0F))
      let t := (t.setPower { s.power with stepAt := s.clock, stepFrom := c, raiseAt := some s.clock, planDue := true }).when
        (c' != c) (fun t => t.vreqTo c')
      ((t.w 0x6603 0 0x0B c').tally 0x6603 0 0x06).flagBit 0x6600 0 0x15 3

/-- Seconds at code c (0x6610 + c:03), and at the maximum code (0x6603:07). -/
def State.residency (s : State) (c : Nat) : Nat :=
  let p := s.power
  (mget 0 p.codeFor c + (if s.g 0x6603 0 0x01 == c then s.clock - p.codeAt else 0)) / 1000000000
def State.maxSecs (s : State) : Nat := s.residency (s.g 0x6601 0 0x05)

/-- Seconds since the last reset of kind 0 to 2 (0x0000:10). -/
def State.uptime (s : State) : Nat := (s.clock - s.power.resetAt) / 1000000000

end Sys2Proof.Machine
end

