-- ==== Sys2Proof/Machine/Read.lean ====
section
/-! DEFINITION. What a read of an entry returns (R6, R411, R413, R414): the stored value, or for an entry that reports a
state as it stands the value computed from that state. -/

namespace Sys2Proof.Machine
open Sys2Proof

variable {s0 : State}

/-! ## Numbers that are computed when they are read -/

/-- A written control field of a replicated object that has not landed reads as written last (R256). -/
def State.objectField (s : State) (n sub : Nat) : Nat :=
  match (s.sprk.ctl.filter (fun c => c.obj == n && c.sub == sub)).getLast? with
  | some c => c.val
  | none => s.g 0x2000 n sub

/-- Object entries and scene totals (chapter 2). -/
def State.viewObject (s : State) (n sub : Nat) : Nat :=
  match sub with
  | 0x0C => (s.track n).queue.length
  | 0x0D => (s.track n).pubT.getD s.scene.pubClear
  | _ => s.objectField n sub

/-- Correction globals (Table 5.12). -/
def State.viewCorr (s : State) (sub : Nat) : Option Nat :=
  match sub with
  | 0x02 => some s.tapBudget
  | 0x03 => some s.taps
  | 0x04 => some (s.tapBudget - s.taps)
  | 0x05 => some s.graftsRunning
  | 0x06 => some s.graftsPending
  | 0x0A => some s.fadesRunning
  | _ => none

/-- Trellis globals (Table 6.9), as host h reads them. -/
def State.viewTrellis (s : State) (h sub : Nat) : Option Nat :=
  match sub with
  | 0x07 => some s.rampsRunning
  | 0x08 => some s.nodesInUse
  | 0x0D => some (mget 0 s.maps.rowSel h)
  | 0x0E => some (mget 0xFF s.maps.rowOrg h)
  | _ => none

/-- Input map latencies (Table 6.5). -/
def State.viewInput (s : State) (n sub : Nat) : Option Nat :=
  match sub with
  | 0x08 => some (s.inComponent (s.g 0x3D00 n 0x01))
  | 0x09 => some (s.inComponent (s.g 0x3D00 n 0x02))
  | 0x0A =>
    some (unsigned 32 ((s.inComponent (s.g 0x3D00 n 0x02) : Int) - s.inComponent (s.g 0x3D00 n 0x01)))
  | _ => none

/-- Time entries (Tables 9.11 to 9.15). -/
def State.viewTime (s : State) (sub : Nat) : Option Nat :=
  match sub with
  | 0x01 => some (time80 s.ns)
  | 0x02 => some s.now
  | 0x03 => some s.clock
  | 0x06 => some s.offsetEntry
  | 0x0F => some s.holdoverSecs
  | 0x1B => some s.alignBound
  | _ => none

/-- The number that an entry reads as for host h where it is computed; none where the stored value is read. -/
def State.viewNum (s : State) (h idx inst sub : Nat) : Option Nat :=
  match idx, sub with
  | 0x0000, 0x10 => some s.uptime
  | 0x0000, 0x11 => some (Config.part (K 0x6403 0 0x05) % 2)
  | 0x6403, 0x05 => some (Config.part (K 0x6403 0 0x05) % 2)
  | 0x1301, 0x01 => some (s.host inst).stage.length
  | 0x1400, 0x0F => some (b2n s.unsaved)
  | 0x2000, _ => some (s.viewObject inst sub)
  | 0x2800, 0x0C => some s.objectsEnabled
  | 0x2800, 0x0D => some s.keyframesPending
  | 0x3300, 0x0F => some s.sprigBudget
  | 0x3410, 0x06 => some (s.furrowStart inst)
  | 0x3A00, 0x07 => some (s.setUses inst)
  | 0x3800, 0x10 => some (s.tapsOf inst)
  | 0x3B00, _ => s.viewCorr sub
  | 0x3C00, _ => s.viewTrellis h sub
  | 0x3C01, 0x03 => some (b2n (!s.signalGood (s.g 0x3C01 inst 0x01)))
  | 0x3C02, 0x02 => some (s.sinkNodes inst)
  | 0x3D00, _ => s.viewInput inst sub
  | 0x3E00, 0x04 => some (s.outComponent inst)
  | 0x3E00, 0x05 => some (b2n (s.destAvailable inst))
  | 0x3F00, 0x02 => some s.fB
  | 0x3F00, 0x01 => some (if s.on 0x3F00 0 0x03 then s.engines.newRate else s.fA)
  | 0x4400, 0x01 => some (sumN ((s.members inst).map (fun p => 2 ^ p)))
  | 0x4A00, 0x13 => some (s.rxLatency inst)
  | 0x4C00, 0x0F =>
    let v := s.g 0x4C00 inst 0x0F
    some (if v == 2 ^ 32 then (0x55000000 + 256 * s.g 0x5400 0 0x01 + inst) % 2 ^ 32 else v)
  | 0x4F00, 0x09 => some (s.groups inst).length
  | 0x5000, _ => s.viewTime sub
  | 0x5400, 0x0B => some s.lead
  | 0x5400, 0x18 => some (unsigned 32 s.lowestMargin)
  | 0x6300, 0x02 => some s.tailBytes
  | 0x6200, 0x16 => some s.scrubSchedule
  | 0x6300, 0x03 => some (if s.engines.running then s.bulkBudget else 0)
  | 0x6500, 0x07 => some s.activeSecs
  | 0x6500, 0x08 => some s.idleSecs
  | 0x6603, 0x07 => some s.maxSecs
  | 0x6A00, 0x0E => some s.traceTypes
  | 0x6A00, _ => s.viewTrace sub
  | _, _ =>
    if 0x6610 ≤ idx && idx ≤ 0x664F && sub == 0x03 then some (s.residency (idx - 0x6610))
    else if 0x6800 ≤ idx && idx ≤ 0x69FF && sub == 0x01 then some (s.counterVal (idx - 0x6800))
    else none

/-- The number that an entry reads as for host h. -/
def State.readNum (s : State) (h idx inst sub : Nat) : Nat :=
  match s.viewNum h idx inst sub with
  | some v => v
  | none => s.g idx inst sub

/-! ## Bytes that are computed when they are read -/

/-- Entries of a host's stage, in ascending order of their keys (0x1301[h]:03). -/
def State.stageList (s : State) (h : Nat) : Bytes :=
  (s.host h).stage.flatMap (fun p => leBytes 2 (kIdx p.1) ++ leBytes 1 (kSub p.1) ++ [0] ++ leBytes 2 (kInst p.1) ++ [0, 0])

/-- Image of port p (R188): outside GOOD a header whose slot count is 0. In GOOD it is the latest block, also one of an earlier GOOD
(DESIGN CHOICE; assumption 67). -/
def State.portImage (s : State) (p : Nat) : Bytes :=
  let b := s.gb 0x4010 p 0x09
  if s.g 0x4010 p 0x01 == 2 && !b.isEmpty then b
  else
    leBytes 8 (s.g 0x4010 p 0x07) ++ leBytes 10 (s.g 0x4010 p 0x08) ++ [0] ++ leBytes 1 (s.g 0x4000 p 0x0C) ++
    leBytes 2 (s.g 0x4000 p 0x0A) ++ zeros 10

/-- The bytes that a STR or BLOB entry reads as for host h. -/
def State.readBytes (s : State) (h idx inst sub : Nat) : Bytes :=
  match idx, sub with
  | 0x1301, 0x03 => s.stageList inst
  | 0x3C00, 0x0F => s.rowBytes h
  | 0x4010, 0x09 => s.portImage inst
  | 0x4A00, 0x10 => s.rxSdp inst
  | 0x4C00, 0x12 => s.txSdp inst
  | 0x5300, 0x05 => s.stampHead
  | 0x5400, 0x19 => s.membersPresent
  | 0x5400, 0x1A => s.membersBehind
  | 0x5E00, 0x05 => s.catalogue
  | 0x6400, 0x06 => s.imageHeader
  | 0x6403, 0x04 => (sha384 (partStr 0x6403 0x02)).take 16
  | 0x6A00, 0x04 => s.traceMask
  | _, _ => s.gb idx inst sub

/-! ## Reading (R411, R413, R414, R424) -/

/-- Largest message of a transport (R406, R407). -/
def largest (transport : Nat) : Nat := if transport < 4 then 1472 else 8192

/-- Largest data of one result in a message of its own: of the session's transport, or of the largest one. -/
def State.aloneRoom (s : State) (h : Nat) : Nat :=
  (match (s.host h).sess with
   | some x => largest x.src.transport
   | none => 8192) - 44

/-- A result with data, if it fits the room left in the response (R412). -/
def Tx.replyIn (t : Tx s0) (room : Nat) (d : Bytes) : Tx s0 :=
  if room < up4 d.length then t.status stBusy else t.reply d

/-- The bytes of a BLOB as they stand, and what reading them does. -/
def Tx.blobNow (t : Tx s0) (h : Nat) (o : OpFields) (bad : List Nat) : Bytes × Tx s0 :=
  if o.idx == 0x5D81 && o.sub == 0x04 then
    let r := t.cur.recorderRead h o.inst bad
    if r.1 != stOK then ([], t.status r.1)
    else (r.2.1, (t.when (r.2.2 != 0) (fun t => t.flagBit 0x5D80 0 0x0D 2)).each (List.range r.2.2) (fun t _ =>
      -- the DRAM reports every word as well, at an offset that the manual leaves open (R386, assumption 2)
      let f := t.fresh
      f.2.dramBad (f.1 % 2 ^ 33)))
  else (t.cur.readBytes h o.idx o.inst o.sub, t)

/-- Total length, offset and up to `most` bytes of a BLOB (Table 15.7). -/
def segmentBytes (d : Bytes) (off most : Nat) : Bytes := leBytes 4 d.length ++ leBytes 4 off ++ (d.drop off).take most

/-- Own rule of a segment of a BLOB (R414): at offset 0 a snapshot is taken; `most` none takes what fits the response. -/
def Tx.readBlob (t : Tx s0) (h : Nat) (o : OpFields) (bad : List Nat) (off : Nat) (most : Option Nat) (room : Nat) : Tx s0 :=
  let k := K o.idx o.inst o.sub
  let x := t.cur.host h
  let kept := x.snap.filter (fun p => p.key == k && off != 0)
  let t := if x.snap == kept then t else t.setHost h { x with snap := kept }
  let r : Bytes × Tx s0 := match kept with
    | some p => (p.data, t)
    | none => (t.status stOK).blobNow h o bad
  let t := r.2
  if t.cur.result.status != some stOK && kept.isNone then t
  else
    let d := r.1
    let n := most.getD ((room - 8) / 4 * 4)
    if d.length < off then t.status stOutOfRange
    else if room < 8 || room < up4 (8 + min n (d.length - off)) then t.status stBusy
    else
      let t := if kept.isNone && off != 0 then t
        else t.setHost h { t.cur.host h with snap := some ⟨k, d, t.cur.clock⟩ }
      t.reply (segmentBytes d off n)

/-- A READ of one entry, its result within `room` bytes. -/
def Tx.readOp (t : Tx s0) (h : Nat) (o : OpFields) (bad : List Nat) (room : Nat) : Tx s0 :=
  let st := t.cur.readCheck h o
  if st != stOK then t.status st
  else if !o.data.isEmpty then t.status stBadType
  else
    match entryOf o.idx o.inst o.sub with
    | none => t.status stNoEntry
    | some e =>
      let k := K o.idx o.inst o.sub
      let staged := if o.flags == 1 then mget? (t.cur.host h).stage k else none
      match staged with
      | some d => t.replyIn room d
      | none =>
        match e.ty with
        | .blob => t.readBlob h o bad 0 none room
        | .str => t.replyIn room (t.cur.readBytes h o.idx o.inst o.sub)
        | .bool | .u8 | .u16 | .u32 | .u64 | .i16 | .i32 | .f32 | .time80 | .media64 =>
          let t := t.when (o.idx == 0x3F01 && 0x06 ≤ o.sub) (fun t => t.pathEvaluate o.inst)
          t.replyIn room (leBytes e.ty.size (t.cur.readNum h o.idx o.inst o.sub))

/-- A READ_SEGMENT (R414): data are a U32 offset and a U32 largest length. STAGED is an error on it (R411). -/
def Tx.segmentOp (t : Tx s0) (h : Nat) (o : OpFields) (bad : List Nat) (room : Nat) : Tx s0 :=
  let st := t.cur.readCheck h o
  if o.flags != 0 then t.status stOutOfRange
  else if st != stOK then t.status st
  else
    match entryOf o.idx o.inst o.sub with
    | none => t.status stNoEntry
    | some e =>
      if e.ty != .blob || o.data.length != 8 then t.status stBadType
      else t.readBlob h o bad (fieldLE o.data 0 4) (some (fieldLE o.data 4 4)) room

/-- READ (R411, R424): an operation in a request of its own; `bad` are the words of 0x5D81[h]:04 that are
uncorrectable. -/
def execRead (h : Nat) (o : OpFields) (bad : List Nat) (s : State) : Host.Outcome State Fault Refusal :=
  run s fun t => t.readOp h o bad (s.aloneRoom h)

/-- STAGED_READ (R411): READ with STAGED set. -/
def execStagedRead (h : Nat) (o : OpFields) (s : State) : Host.Outcome State Fault Refusal :=
  run s fun t => t.readOp h { o with flags := if o.flags == 0 then 1 else o.flags } [] (s.aloneRoom h)

/-- READ_SEGMENT (R414). -/
def execReadSegment (h : Nat) (o : OpFields) (bad : List Nat) (s : State) : Host.Outcome State Fault Refusal :=
  run s fun t => t.segmentOp h o bad (s.aloneRoom h)

/-- SNAPSHOT_RELEASE (R414): 10 s after its last read. -/
def execSnapshotRelease (h : Nat) (s : State) : Host.Outcome State Fault Refusal :=
  run s fun t =>
    match (s.host h).snap with
    | some x => if x.last + secC 10 ≤ s.clock then t.setHost h { s.host h with snap := none } else t
    | none => t

end Sys2Proof.Machine
end

