-- ==== Sys2Proof/Machine/Write.lean ====
section
/-! DEFINITION. Writes (R413, R424): the own rule of every entry, the stage and its commit (R430 to R433), owners, watches,
keys and saves (R420, R422, R425, R426, R440 to R442), and write transfers. -/

namespace Sys2Proof.Machine
open Sys2Proof

variable {s0 : State}

/-! ## Safe-load (R430 to R433) -/

/-- A value is staged (R430). -/
def stageRule (h : Nat) (o : OpFields) (t : Tx s0) : Tx s0 :=
  let x := t.cur.host h
  let k := K o.idx o.inst o.sub
  if (t.cur.ctl.commit.map (·.host)) == some h then t.status stBusy
  else if 4096 ≤ x.stage.length && (mget? x.stage k).isNone then t.status stBusy
  else t.setHost h { x with stage := mset k o.data x.stage }

/-- Whether a stage holds Planting plan values. -/
def stagePlan (stage : List (Nat × Bytes)) : Bool := stage.any (fun p => isPlanKey p.1)

/-- A commit is refused (R431). -/
def Tx.commitRefuse (t : Tx s0) (h st : Nat) : Tx s0 :=
  (((t.tally 0x1300 0 0x09).flagBit 0x1300 0 0x0B 2).w 0x1301 h 0x04 st).status st

/-- Own rule of 0x1300:01 (R431). -/
def commitRule (h : Nat) (d : Bytes) (t : Tx s0) : Tx s0 :=
  let s := t.cur
  let a := s.now
  let want := leNat d
  let stage := (s.host h).stage
  let plan := stagePlan stage
  if s.ctl.commit.isSome then t.commitRefuse h stBusy
  else if s.on 0x3F00 0 0x03 || stage.isEmpty then t.commitRefuse h stState
  else if a + 2 ^ 31 < want then t.commitRefuse h stOutOfRange
  else
    match if plan then ((Tx.begin s).stageApply stage).cur.planCheck else none with
    | some (reason, item) =>
      (((t.w 0x3300 0 0x19 reason).w 0x3300 0 0x1A item).flagBit 0x3300 0 0x1B 1).commitRefuse h stOutOfRange
    | none =>
      let tc := if want ≤ a + 32 then a + 33 else want
      let late := want != 0 && want ≤ a + 32
      let B := nextEval tc
      let st := if late then stTooLate else stOK
      let t := t.setCtl { s.ctl with commit := some ⟨h, tc, plan, B, false, false⟩ }
      let t := (((t.w 0x1300 0 0x03 1).w 0x1300 0 0x04 h).w 0x1300 0 0x05 tc).w 0x1300 0 0x06 (if plan then B else 0)
      let t := ((t.w 0x1300 0 0x07 a).w 0x1301 h 0x04 st).status st
      t.when late (fun t => t.flagBit 0x1300 0 0x0B 1)

/-- COMMIT (R431): write of 0x1300:01. -/
def execCommit (h : Nat) (d : Bytes) (s : State) : Host.Outcome State Fault Refusal :=
  run s fun t => t.guarded h (opOf 0x1300 0 0x01 d) (commitRule h d)

/-- Own rule of 0x1300:02 (R433). -/
def cancelRule (t : Tx s0) : Tx s0 :=
  match t.cur.ctl.commit with
  | none => t.status stState
  | some c => if t.cur.now + 32 < c.tc then t.cancelCommit else t.status stTooLate

/-- CANCEL (R433): write of 0x1300:02. -/
def execCancel (h : Nat) (d : Bytes) (s : State) : Host.Outcome State Fault Refusal :=
  run s fun t => t.guarded h (opOf 0x1300 0 0x02 d) cancelRule

/-- Own rule of 0x1301[n]:02 (Table 15.18). -/
def discardRule (n : Nat) (t : Tx s0) : Tx s0 :=
  if (t.cur.ctl.commit.map (·.host)) == some n then t.status stBusy
  else t.setHost n { t.cur.host n with stage := [] }

/-- DISCARD_STAGE (R430): write of 0x1301[n]:02. -/
def execDiscardStage (h n : Nat) (d : Bytes) (s : State) : Host.Outcome State Fault Refusal :=
  run s fun t => t.guarded h (opOf 0x1301 n 0x02 d) (discardRule n)

/-- The engines stand for a retraining: what falls due of a commit waits for their restart (R393). -/
def State.commitWaits (s : State) : Bool := !s.engines.running && s.engines.cause == 3

/-- COMMIT_LANDS (R432): at t_c every staged value comes into force, master ramps start and a staged plan becomes the
plan in force; a Trellis bank is loaded where the sample of t_c is computed (PERIOD_START), or here where no period has
computed it, because the engines stood (R155). In a scheduled retraining a commit waits for the restart (R393). -/
def execCommitLands (s : State) : Host.Outcome State Fault Refusal :=
  run s fun t =>
    match s.ctl.commit with
    | none => t
    | some c =>
      if c.landed || s.now < c.tc || s.commitWaits then t else t.commitLand c c.tc

/-- PLAN_LANDS (R60, R432): the plan in force lands at B. -/
def execPlanLands (s : State) : Host.Outcome State Fault Refusal :=
  run s fun t =>
    match s.ctl.commit with
    | none => t
    | some c => if !c.landed || s.now < c.landB || s.commitWaits then t else (t.planDerive c.landB).commitDone c c.landB

/-! ## Saves (R440 to R442) -/

/-- Own rule of 0x1400:01: the response waits for the save. -/
def saveRule (t : Tx s0) : Tx s0 := (t.askSave false true).wait

/-- SAVE (R440, R441): write of 0x1400:01. -/
def execSave (h : Nat) (d : Bytes) (s : State) : Host.Outcome State Fault Refusal :=
  run s fun t => t.guarded h (opOf 0x1400 0 0x01 d) saveRule

/-- Own rule of 0x1400:04: an image without records is saved. -/
def restoreRule (t : Tx s0) : Tx s0 := t.askSave true false

/-- RESTORE_DEFAULTS (R442): write of 0x1400:04. -/
def execRestoreDefaults (h : Nat) (d : Bytes) (s : State) : Host.Outcome State Fault Refusal :=
  run s fun t => t.guarded h (opOf 0x1400 0 0x04 d) restoreRule

/-- Own rule of 0x1000[n]:02 (R420): the key goes to the store first, and its response waits. -/
def keyRule (n : Nat) (d : Bytes) (t : Tx s0) : Tx s0 :=
  let t := t.setStore { t.cur.store with keys := t.cur.store.keys ++ [(n, d)] }
  (t.askSave false true).wait

/-- KEY_WRITE (R420): write of 0x1000[n]:02. -/
def execKeyWrite (h n : Nat) (d : Bytes) (s : State) : Host.Outcome State Fault Refusal :=
  run s fun t => t.guarded h (opOf 0x1000 n 0x02 d) (keyRule n d)

/-! ## Hosts, owners and watches -/

/-- Own rule of 0x1000[n]:01 (R418). -/
def hostEnableRule (n : Nat) (d : Bytes) (t : Tx s0) : Tx s0 :=
  let t := t.w 0x1000 n 0x01 (leNat d)
  if leNat d == 0 then t.closeSession n else t

/-- The owner that new tables give the member of an entry, where it differs from the present one. -/
def State.ownerMove (s : State) (tabs : List (Nat × Bytes)) (k : Nat) : Option Nat :=
  match memberOf (kIdx k) (kInst k) (kSub k) with
  | none => none
  | some (tb, m) =>
    match mget? tabs tb with
    | none => none
    | some b => let g := (b.getD m 0).toNat; if g == s.owner tb m then none else some g

/-- Owner tables take new contents (R425), unless that would move a value of a pending commit. -/
def Tx.ownersTo (t : Tx s0) (tabs : List (Nat × Bytes)) : Tx s0 :=
  let s := t.cur
  let hit := match s.ctl.commit with
    | some c => (s.host c.host).stage.any (fun p => (s.ownerMove tabs p.1).isSome)
    | none => false
  if hit then t.status stBusy
  else
    let t := t.each (List.range 8) (fun t g =>
      let x := t.cur.host g
      t.setHost g { x with stage := x.stage.filter (fun p =>
        match s.ownerMove tabs p.1 with
        | some n => n == g
        | none => true) })
    (t.each tabs (fun t p => t.wb 0x1100 0 p.1 p.2)).askSave false false

/-- Own rule of 0x1100:01 to :0C (R422). -/
def ownerRule (sub : Nat) (d : Bytes) (t : Tx s0) : Tx s0 :=
  if d.any (fun b => 7 < b.toNat) then t.status stOutOfRange else t.ownersTo [(sub, d)]

/-- OWNER_WRITE (R422, R425): write of 0x1100:sub. -/
def execOwnerWrite (h sub : Nat) (d : Bytes) (s : State) : Host.Outcome State Fault Refusal :=
  let sub := if 0x01 ≤ sub && sub ≤ 0x0C then sub else 0x01
  run s fun t => t.guarded h (opOf 0x1100 0 sub d) (ownerRule sub d)

/-- One record of 0x1100:0D is applied to the tables; none where it must be refused (R422). -/
def State.assignRecord (s : State) (acc : Option (List (Nat × Bytes))) (r : Bytes) : Option (List (Nat × Bytes)) :=
  match acc with
  | none => none
  | some tabs =>
    let tb := fieldLE r 0 1
    let g := fieldLE r 1 1
    let first := fieldLE r 2 2
    let n := fieldLE r 4 2
    if tb < 1 || 0x0C < tb || 7 < g || nth ownerCounts tb 0 < first + n || fieldLE r 6 2 != 0 then none
    else
      let b := (mget? tabs tb).getD (s.gb 0x1100 0 tb)
      some (mset tb (b.take first ++ List.replicate n (byte g) ++ b.drop (first + n)) tabs)

/-- Own rule of 0x1100:0D (R422). -/
def assignRule (d : Bytes) (t : Tx s0) : Tx s0 :=
  if d.length % 8 != 0 then t.status stBadType
  else
    match (chunks 8 d).foldl t.cur.assignRecord (some []) with
    | none => t.status stOutOfRange
    | some tabs => t.ownersTo tabs

/-- ASSIGN_RANGES (R422): write of 0x1100:0D. -/
def execAssignRanges (h : Nat) (d : Bytes) (s : State) : Host.Outcome State Fault Refusal :=
  run s fun t => t.guarded h (opOf 0x1100 0 0x0D d) (assignRule d)

/-- What R426 answers to one watch of host n. -/
def State.watchCheck (s : State) (n : Nat) (r : Bytes) : Nat :=
  let idx := fieldLE r 0 2
  let sub := fieldLE r 2 1
  let inst := fieldLE r 4 2
  match entryOf idx inst sub with
  | none => stOutOfRange
  | some e =>
    if fieldLE r 3 1 != 0 || !(e.acc == .w1c || (e.acc == .ro && e.ty == .u8)) then stOutOfRange
    else if !s.mayRead n idx inst sub then stNoRight
    else stOK

/-- Own rule of 0x1200[n]:01 (R426). -/
def watchRule (n : Nat) (d : Bytes) (t : Tx s0) : Tx s0 :=
  if d.length % 8 != 0 then t.status stBadType
  else
    match ((chunks 8 d).map (t.cur.watchCheck n)).find? (· != stOK) with
    | some st => t.status st
    | none => t.wb 0x1200 n 0x01 d

/-! ## The own rule of every entry -/

/-- A write without a rule of its own: flags are cleared (R8), anything else takes the value. -/
def plainRule (o : OpFields) (t : Tx s0) : Tx s0 :=
  match entryOf o.idx o.inst o.sub with
  | none => t.status stNoEntry
  | some e =>
    match e.acc with
    | .w1c => t.w1c o.idx o.inst o.sub (leNat o.data)
    | .ro | .rw | .wo | .rws =>
      if e.ty.isBytes then t.wb o.idx o.inst o.sub o.data else t.w o.idx o.inst o.sub (leNat o.data)

/-- Entries of the control chapter. -/
def ruleControl (h : Nat) (o : OpFields) (t : Tx s0) : Tx s0 :=
  match o.idx, o.sub with
  | 0x1000, 0x01 => hostEnableRule o.inst o.data t
  | 0x1000, 0x02 => keyRule o.inst o.data t
  | 0x1100, 0x0D => assignRule o.data t
  | 0x1100, _ => ownerRule o.sub o.data t
  | 0x1200, 0x01 => watchRule o.inst o.data t
  | 0x1300, 0x01 => commitRule h o.data t
  | 0x1300, 0x02 => cancelRule t
  | 0x1301, 0x02 => discardRule o.inst t
  | 0x1400, 0x01 => saveRule t
  | 0x1400, 0x04 => restoreRule t
  | _, _ => plainRule o t

/-- Entries of scene, render engine and correction. -/
def ruleScene (h : Nat) (o : OpFields) (t : Tx s0) : Tx s0 :=
  let d := o.data
  let n := o.inst
  match o.idx, o.sub with
  | 0x2000, 0x08 => depthRule n d t
  | 0x2000, 0x17 => plainRule o t
  | 0x2000, _ => objectRule n o.sub d t
  | 0x2400, 0x01 => pushRule h d t
  | 0x2800, 0x01 => transformRule 0x01 d t
  | 0x2800, 0x02 => transformRule 0x02 d t
  | 0x2800, 0x03 => transformRule 0x03 d t
  | 0x2800, 0x04 => transformRule 0x04 d t
  | 0x2800, 0x06 => temperatureRule 0x06 d t
  | 0x2800, 0x07 => temperatureRule 0x07 d t
  | 0x3400, 0x06 => repackRule t
  | 0x3800, 0x02 => bulkRule n d t
  | 0x3800, 0x07 => limiterRule n 0x07 d t
  | 0x3800, 0x08 => limiterRule n 0x08 d t
  | 0x3800, 0x09 => ditherRule n d t
  | 0x3A00, 0x01 => uploadRule n d t
  | 0x3A00, 0x08 => eraseRule n t
  | 0x3B00, 0x01 => graftRule h d t
  | _, _ => plainRule o t

/-- Entries of maps, Trellis and domains. -/
def ruleMaps (h : Nat) (o : OpFields) (t : Tx s0) : Tx s0 :=
  let d := o.data
  let n := o.inst
  match o.idx, o.sub with
  | 0x3C00, 0x01 => nodeRule h d t
  | 0x3C00, 0x03 => bankRule 0x03 d t
  | 0x3C00, 0x04 => bankRule 0x04 d t
  | 0x3C00, 0x0D => rowRule h 0x0D d t
  | 0x3C00, 0x0E => rowRule h 0x0E d t
  | 0x3D00, 0x0D => plainRule o t
  | 0x3D00, _ => inputMapRule h n o.sub d t
  | 0x3E00, 0x01 => outputMapRule h n d t
  | 0x3F00, 0x01 => domainRateRule d t
  | _, _ => plainRule o t

/-- Entries of serial ports and network. -/
def rulePorts (h : Nat) (o : OpFields) (t : Tx s0) : Tx s0 :=
  let d := o.data
  let n := o.inst
  match o.idx, o.sub with
  | 0x4000, 0x01 => portRule n d t
  | 0x4000, 0x0A => maskRule n 0x0A d t
  | 0x4000, 0x0B => maskRule n 0x0B d t
  | 0x4000, _ => if portConfig o.sub then portConfigRule n o.sub d t else plainRule o t
  | 0x4800, 0x01 => macEnableRule n d t
  | 0x4800, 0x02 => macConfigRule n 0x02 d t
  | 0x4800, 0x03 => macConfigRule n 0x03 d t
  | 0x4800, 0x04 => vlanRule n d t
  | 0x4A00, 0x01 => rxEnableRule n d t
  | 0x4A00, 0x10 => sdpRule n d t
  | 0x4A00, _ => if 0x02 ≤ o.sub && o.sub ≤ 0x0F then rxConfigRule n o.sub d t else plainRule o t
  | 0x4C00, 0x01 => txEnableRule n d t
  | 0x4C00, _ => if 0x02 ≤ o.sub && o.sub ≤ 0x11 then txConfigRule n o.sub d t else plainRule o t
  | 0x4E00, 0x01 => ringRule h n d t
  | 0x4E00, 0x02 => ringSizeRule h n d t
  | 0x4F00, 0x01 => addressRule n d t
  | _, _ => plainRule o t

/-- Entries of time and Sprinkler. -/
def ruleTime (o : OpFields) (t : Tx s0) : Tx s0 :=
  let d := o.data
  let n := o.inst
  match o.idx, o.sub with
  | 0x5000, 0x04 => rateRule d t
  | 0x5000, 0x05 => sourceRule d t
  | 0x5000, 0x06 => offsetRule d t
  | 0x5000, 0x11 => timebaseRule t
  | 0x5001, 0x01 => ptpEnableRule d t
  | 0x5001, 0x1B => plainRule o t
  | 0x5001, _ => ptpConfigRule o.sub d t
  | 0x5100, 0x01 => armRule n d t
  | 0x5100, 0x0B => plainRule o t
  | 0x5100, _ => triggerRule n o.sub d t
  | 0x5400, 0x02 => roleRule d t
  | 0x5400, 0x01 => sprkConfigRule 0x01 d t
  | 0x5400, _ => if 0x03 ≤ o.sub && o.sub ≤ 0x08 then sprkConfigRule o.sub d t else plainRule o t
  | _, _ => plainRule o t

/-- Entries of the Hedge, measurement, recorder, Tending pool and Rake. -/
def rulePool (h : Nat) (o : OpFields) (t : Tx s0) : Tx s0 :=
  let d := o.data
  let n := o.inst
  match o.idx, o.sub with
  | 0x5800, 0x01 => channelRule n d t
  | 0x5800, 0x04 => fullScaleRule n 0x04 d t
  | 0x5800, 0x06 => fullScaleRule n 0x06 d t
  | 0x5800, 0x11 => clearLatchRule n t
  | 0x5900, _ => carrierRule 0x5900 n o.sub d t
  | 0x5A00, 0x01 => hedgeRule d t
  | 0x5A00, 0x02 => carrierRule 0x5A00 0 0x02 d t
  | 0x5A00, 0x03 => carrierRule 0x5A00 0 0x03 d t
  | 0x5A00, 0x10 => clearTripLogRule t
  | 0x5C00, 0x01 => resyncRule 0x01 d t
  | 0x5C00, 0x02 => pdmClockRule d t
  | 0x5C00, 0x03 => resyncRule 0x03 d t
  | 0x5C10, 0x01 => micEnableRule n d t
  | 0x5C10, 0x07 => compRule n d t
  | 0x5D00, 0x09 => startRule d t
  | 0x5D00, 0x0A => t.abortRun
  | 0x5D10, 0x01 => openRule n d t
  | 0x5D80, 0x01 => recorderRule d t
  | 0x5D80, 0x04 => freezeRule t
  | 0x5D80, 0x05 => rearmRule t
  | 0x5E10, 0x01 => chainRule n d t
  | 0x5E10, 0x02 => descRule h n d t
  | 0x5E10, 0x03 => parRule n d t
  | 0x5E30, 0x01 => packRule n d t
  | 0x5E30, 0x02 => packEraseRule n t
  | 0x5F00, 0x03 => hostFlagsRule d t
  | 0x5F20, 0x01 => gateRule n d t
  | _, _ => plainRule o t

/-- Entries of memory, start-up, power, resets and observation. -/
def ruleSystem (h : Nat) (o : OpFields) (t : Tx s0) : Tx s0 :=
  let d := o.data
  match o.idx, o.sub with
  | 0x6010, 0x03 => qosRule o.inst d t
  | 0x6200, 0x11 => retrainTimeRule d t
  | 0x6210, 0x05 => markRule o.inst d t
  | 0x6400, 0x06 => imageRule d t
  | 0x6402, 0x01 => nonceRule h d t
  | 0x6500, 0x02 => powerRule d t
  | 0x6501, 0x01 => deviceResetRule t
  | 0x6601, 0x01 => planModeRule 0x01 d t
  | 0x6601, 0x02 => planModeRule 0x02 d t
  | 0x6501, 0x02 => controlResetRule t
  | 0x6501, 0x03 => poolResetRule t
  | 0x6501, 0x04 => networkResetRule t
  | 0x6A00, 0x01 => traceRule d t
  | 0x6A00, 0x02 => typeRule 0 d t
  | 0x6A00, 0x04 => typeMaskRule d t
  | 0x6A00, 0x05 => snapRangeRule 0x05 d t
  | 0x6A00, 0x06 => snapRangeRule 0x06 d t
  | 0x6A00, 0x17 => latchRule d t
  | 0x6A00, 0x1F => plainRule o t.traceSettle
  | _, _ => if 0x6A00 < o.idx && o.idx ≤ 0x6BFF then typeRule (o.idx - 0x6A00) d t else plainRule o t

/-- Step 6 of R424 and the effect of a write by host h. -/
def ownRule (h : Nat) (o : OpFields) (t : Tx s0) : Tx s0 :=
  match entryOf o.idx o.inst o.sub with
  | none => t.status stNoEntry
  | some e =>
    if e.acc == .rws then stageRule h o t
    else if o.idx < 0x2000 then ruleControl h o t
    else if o.idx < 0x3C00 then ruleScene h o t
    else if o.idx < 0x4000 then ruleMaps h o t
    else if o.idx < 0x5000 then rulePorts h o t
    else if o.idx < 0x5800 then ruleTime o t
    else if o.idx < 0x6000 then rulePool h o t
    else ruleSystem h o t

/-- What a refusal with BAD_TYPE also records (R117, R130, R153). -/
def badRule (h : Nat) (o : OpFields) (t : Tx s0) : Tx s0 :=
  match o.idx, o.sub with
  | 0x3A00, 0x01 => t.uploadEnd o.inst 0 0xFFFF
  | 0x3B00, 0x01 => t.graftRefuse h 0 0 stBadType 0xFFFF
  | 0x3C00, 0x01 => t.nodeRefuse stBadType
  | _, _ => t

/-! ## Operations -/

/-- Whether an operation names a BLOB. -/
def namesBlob (o : OpFields) : Bool :=
  match entryOf o.idx o.inst o.sub with
  | some e => e.ty == .blob
  | none => false

/-- A WRITE (R424); that of a BLOB is a transfer of one segment (R413). -/
def Tx.writeOp (t : Tx s0) (h : Nat) (o : OpFields) : Tx s0 :=
  (t.when (namesBlob o) (fun t => t.dropXfer h)).guardedBad h o (badRule h o) (ownRule h o)

/-- The entry's own rule for a first segment (R117 step 1, R467). -/
def firstRule (o : OpFields) (t : Tx s0) : Tx s0 :=
  match o.idx, o.sub with
  | 0x3A00, 0x01 => if t.cur.setUses o.inst != 0 then (t.uploadEnd o.inst 0 0xFFFF).status stState else t
  | 0x6400, 0x06 => t.imageErase
  | _, _ => t

/-- The entry's own rule for the last segment. -/
def lastRule (h : Nat) (o : OpFields) (t : Tx s0) : Tx s0 :=
  if o.idx == 0x3A00 && o.sub == 0x01 then setDataRule o.inst o.data t else ownRule h o t

/-- Whether a total length is above what the entry takes (R413). -/
def totalTooLong (o : OpFields) (total : Nat) : Bool :=
  match entryOf o.idx o.inst o.sub with
  | some e =>
    4194304 < total || (match e.rng with
      | .len _ hi => hi < total
      | _ => false)
  | none => true

/-- Bytes of a transfer so far: all of them end it, fewer keep it (R413). -/
def Tx.xferTo (t : Tx s0) (h : Nat) (o : OpFields) (total : Nat) (got : Bytes) : Tx s0 :=
  if got.length == total then
    let full := { o with data := got }
    (t.dropXfer h).guardedBad h full (badRule h full) (lastRule h full)
  else
    t.setHost h { t.cur.host h with xfer := some ⟨K o.idx o.inst o.sub, total, got, t.cur.clock⟩ }

/-- A WRITE_SEGMENT (R413): data are a U32 offset, a U32 total length, and bytes. One at offset 0 abandons the transfer in progress
even where it is refused. -/
def Tx.writeSegmentOp (t : Tx s0) (h : Nat) (o : OpFields) : Tx s0 :=
  let k := K o.idx o.inst o.sub
  let x := (t.cur.host h).xfer
  let st := t.cur.accessCheck h o
  let off := fieldLE o.data 0 4
  let total := fieldLE o.data 4 4
  let body := o.data.drop 8
  let t := t.when (8 ≤ o.data.length && off == 0) (fun t => t.dropXfer h)
  if st != stOK then (t.when ((x.map (·.key)) == some k) (fun t => t.dropXfer h)).status st
  else if !namesBlob o || o.data.length < 8 then t.status stBadType
  else if off == 0 then
    if totalTooLong o total || total < body.length then (badRule h o t).status stBadType
    else
      let t := firstRule o (t.status stOK)
      if t.cur.result.status != some stOK then t else t.xferTo h o total body
  else
    match x with
    | none => t.status stState
    | some p =>
      if p.key != k || p.data.length != off then (t.dropXfer h).status stState
      else if p.total != total || total < off + body.length then (t.dropXfer h).status stBadType
      else (t.status stOK).xferTo h o total (p.data ++ body)

/-- A NOP of host h (R411, R418, R424): its entry must exist (R451), and the ROM must answer it (R469). -/
def Tx.nopOp (t : Tx s0) (h : Nat) (o : OpFields) : Tx s0 :=
  t.status (if o.flags != 0 || o.rsv != 0 then stOutOfRange
    else if (entryOf o.idx o.inst o.sub).isNone then stNoEntry
    else if t.cur.romOnly && !(h == 0 && recoveryIndex o.idx) then stState
    else if o.data.isEmpty then stOK else stBadType)

/-- WRITE (R424): an operation in a request of its own. -/
def execWrite (h : Nat) (o : OpFields) (s : State) : Host.Outcome State Fault Refusal :=
  run s fun t => t.writeOp h o

/-- STAGED_WRITE (R430): a WRITE of an RWS entry. -/
def execStagedWrite (h : Nat) (o : OpFields) (s : State) : Host.Outcome State Fault Refusal :=
  run s fun t => t.writeOp h o

/-- WRITE_SEGMENT (R413). -/
def execWriteSegment (h : Nat) (o : OpFields) (s : State) : Host.Outcome State Fault Refusal :=
  run s fun t => t.writeSegmentOp h o

/-- NOP (R411). -/
def execNop (h : Nat) (o : OpFields) (s : State) : Host.Outcome State Fault Refusal :=
  run s fun t =>
    let x := s.host h
    let t := match x.sess with
      | some y => t.setHost h { x with sess := some { y with last := s.clock } }
      | none => t
    t.nopOp h o

/-- TRANSFER_ABANDON (R413): 10 s without a segment. -/
def execTransferAbandon (h : Nat) (s : State) : Host.Outcome State Fault Refusal :=
  run s fun t =>
    match (s.host h).xfer with
    | some x => if x.last + secC 10 ≤ s.clock then t.dropXfer h else t
    | none => t

end Sys2Proof.Machine
end

