-- ==== Sys2Proof/Machine/Control.lean ====
section
/-! DEFINITION. Yexel messages and sessions (R406 to R419), notifications (R429), the end of a save (R420, R436, R441) and
the host SPI port (R407). -/

namespace Sys2Proof.Machine
open Sys2Proof

variable {s0 : State}

/-! ## Sending -/

/-- A message leaves to where a source says (R406, R419): into the outgoing queue of the host SPI port, which holds 32 messages
(one more is lost: DESIGN CHOICE, assumption 14), or as one datagram on a MAC, from the port that the request was sent to. -/
def Tx.sendTo (t : Tx s0) (src : Source) (m : Bytes) : Tx s0 :=
  if src.transport == 6 then (if 32 ≤ t.cur.ctl.spiOut.length then t else t.spiQueue (t.cur.ctl.spiOut ++ [m]))
  else
    t.egress src.transport
      ⟨.yexel src.dport src.addr src.port m, t.cur.udpFrame src.transport m.length, t.cur.clock, none, none⟩

/-- Header, body and tag of a message (R408, R409). -/
def yexelMsg (key : Bytes) (kind host status session seq count : Nat) (body : Bytes) : Bytes :=
  let b := [1] ++ leBytes 1 kind ++ leBytes 1 host ++ leBytes 1 status ++ leBytes 4 session ++ leBytes 4 seq ++
    leBytes 2 body.length ++ leBytes 2 count ++ body
  b ++ (hmacSha256 key b).take 16

/-- Fields of a received message (Table 15.3). -/
structure Msg where
  kind : Nat
  host : Nat
  status : Nat
  session : Nat
  seq : Nat
  bytes : Nat
  count : Nat
  body : Bytes
  /-- What the tag covers, and the tag. -/
  covered : Bytes
  tag : Bytes
  deriving DecidableEq, Repr

/-- A message taken apart. -/
def msgOf (m : Bytes) : Msg :=
  let n := m.length - 16
  { kind := fieldLE m 1 1, host := fieldLE m 2 1, status := fieldLE m 3 1, session := fieldLE m 4 4, seq := fieldLE m 8 4,
    bytes := fieldLE m 12 2, count := fieldLE m 14 2, body := slice m 16 (n - 16), covered := m.take n, tag := m.drop n }

/-- Operations of a body (Table 15.5): opcode and the entry's bytes, fields; none where they overrun the body. -/
def opsOf : Nat → Bytes → Option (List (Bytes × OpFields))
  | 0, _ => some []
  | n + 1, b =>
    let len := fieldLE b 8 4
    if b.length < 12 || b.length < 12 + up4 len then none
    else
      let o : OpFields := ⟨fieldLE b 1 1, fieldLE b 2 2, fieldLE b 4 1, fieldLE b 5 1, fieldLE b 6 2, slice b 12 len⟩
      match opsOf n (b.drop (12 + up4 len)) with
      | some r => some ((b.take 1 ++ slice b 2 6, o) :: r)
      | none => none

/-- Whether a message is malformed (R408). -/
def malformed (m : Bytes) : Bool :=
  let x := msgOf m
  m.length < 32 || fieldLE m 0 1 != 1 || !(x.kind == 0 || x.kind == 2 || x.kind == 5) || 7 < x.host ||
  x.bytes != m.length - 32 || 64 < x.count || x.status != 0 ||
  (x.kind == 0 && (x.session != 0 || x.count != 0 || x.bytes != 16)) ||
  (x.kind == 2 && (opsOf x.count x.body).isNone) || (x.kind == 5 && (x.bytes != 0 || x.count != 0))

/-- A message is dropped without reply. -/
def Tx.dropMsg (t : Tx s0) : Tx s0 := (t.tally 0x1001 0 0x08).flagBit 0x1001 0 0x09 0

/-! ## OPEN (R409, R410, R415) -/

/-- Key of host h for its OPEN (R410, R415): none while it may not open a session. -/
def State.openKey (s : State) (h : Nat) (src : Source) : Option Bytes :=
  let k := s.gb 0x1000 h 0x02
  if !k.isEmpty then some k
  else if h == 0 && s.on 0x1001 0 0x07 && src.transport == 6 then some (zeros 32)
  else none

/-- Whether a transport is one that host h may use (0x1000[h]:05). -/
def State.transportOk (s : State) (h : Nat) (src : Source) : Bool :=
  bit (s.g 0x1000 h 0x05) (if src.transport == 6 then 2 else if src.transport < 4 then 1 else 0)

/-- An OPEN is processed (R415). -/
def Tx.openMsg (t : Tx s0) (src : Source) (x : Msg) : Tx s0 :=
  let h := x.host
  let s := t.cur
  match s.openKey h src with
  | none => t.tally 0x1000 h 0x0D
  | some kh =>
    if (hmacSha256 kh x.covered).take 16 != x.tag then (t.tally 0x1000 h 0x0D).sessionMsg h 2
    else if !s.on 0x1000 h 0x01 || !s.transportOk h src || x.seq < (s.host h).opens then t.tally 0x1000 h 0x0D
    else
      let t := t.closeSession h
      let f := t.fresh
      let id := 1 + f.1 % (2 ^ 32 - 1)
      let g := f.2.fresh
      let nd := leBytes 16 g.1
      let ks := hmacSha256 kh ([0x59, 0x58, 0x53, 0x4B] ++ x.body ++ nd ++ leBytes 4 id ++ leBytes 1 h)
      let t := g.2
      let t := t.setHost h { t.cur.host h with
        sess := some ⟨id, ks, src, 0, [], [], t.cur.clock, 0⟩, opens := x.seq + 1 }
      let t := (((t.w 0x1000 h 0x08 1).w 0x1000 h 0x09 id).w 0x1000 h 0x0A src.transport).w 0x1000 h 0x0B t.cur.now
      let t := ((t.w 0x1000 h 0x10 0).w 0x1001 0 0x01 t.cur.sessions).sessionMsg h 0
      t.sendTo src (yexelMsg ks 1 h 0 id x.seq 0
        (nd ++ leBytes 4 id ++ leBytes 2 (largest src.transport) ++ [0, 0] ++ leBytes 8 t.cur.now))

/-! ## Sequences and answers (R416, R417) -/

/-- What R416 makes of a sequence. -/
inductive SeqKind
  | accepted
  | again (response : Bytes)
  | refused
  deriving DecidableEq, Repr

/-- R416 for a session, a sequence and a tag. -/
def Session.judge (y : Session) (seq : Nat) (tag : Bytes) : SeqKind :=
  if y.high < seq then .accepted
  else if seq != 0 && y.high < seq + 64 && !y.seen.contains seq then .accepted
  else
    match y.cache.find? (fun c => c.1 == seq && c.2.1 == tag) with
    | some c => .again c.2.2
    | none => .refused

/-- A response of the session of host h goes to the source of its last accepted request (R419). -/
def Tx.answer (t : Tx s0) (h : Nat) (y : Session) (status seq count : Nat) (body : Bytes) : Tx s0 :=
  t.sendTo y.src (yexelMsg y.ks 3 h status y.id seq count body)

/-- A REQUEST or CLOSE whose tag fails (R417). -/
def Tx.authFail (t : Tx s0) (h : Nat) (y : Session) (seq : Nat) : Tx s0 :=
  let t := ((t.tally 0x1000 h 0x0D).flagBit 0x1000 h 0x11 0).sessionMsg h 2
  let recent := (t.cur.host h).auths.filter (fun c => t.cur.clock < c + secC 1)
  if 10 ≤ recent.length then t
  else
    let t := t.setHost h { t.cur.host h with auths := t.cur.clock :: recent }
    t.answer h y stAuth seq 0 []

/-- A REQUEST or CLOSE is accepted (R416, R418, R419). -/
def Tx.acceptSeq (t : Tx s0) (h : Nat) (y : Session) (src : Source) (seq : Nat) : Tx s0 :=
  let high := max y.high seq
  let y := { y with high := high, seen := (seq :: y.seen).filter (fun q => high < q + 64), src := src, last := t.cur.clock }
  let t := t.setHost h { t.cur.host h with sess := some y }
  (t.w 0x1000 h 0x0A src.transport).w 0x1000 h 0x10 high

/-- A message of a session is checked (R416, R417); an accepted one goes on. -/
def Tx.sessionCheck (t : Tx s0) (src : Source) (x : Msg) (accepted : Tx s0 → Tx s0) : Tx s0 :=
  let h := x.host
  match (t.cur.host h).sess with
  | none => t.dropMsg
  | some y =>
    if y.id != x.session then t.dropMsg
    else if (hmacSha256 y.ks x.covered).take 16 != x.tag then t.authFail h y x.seq
    else
      match y.judge x.seq x.tag with
      | .accepted => accepted (t.acceptSeq h y src x.seq)
      | .again r => (t.tally 0x1000 h 0x0F).sendTo y.src r
      | .refused => ((t.tally 0x1000 h 0x0E).flagBit 0x1000 h 0x11 1).answer h y stSeq x.seq 0 []

/-! ## REQUEST (R411, R412) -/

/-- One operation of a request with room for its result's data. -/
def Tx.operation (t : Tx s0) (h : Nat) (opcode : Nat) (o : OpFields) (room : Nat) : Tx s0 :=
  match opcode with
  | 0x01 => t.readOp h o [] room
  | 0x02 => t.writeOp h o
  | 0x03 => t.segmentOp h o [] room
  | 0x04 => t.writeSegmentOp h o
  | 0x05 => t.nopOp h o
  | _ => t.status stOutOfRange

/-- Bytes of one result (Table 15.6); data only with OK. -/
def resultBytes (r : Bytes × Nat × Bytes) : Bytes :=
  let d := if r.2.1 == stOK then r.2.2 else []
  r.1.take 1 ++ leBytes 1 r.2.1 ++ r.1.drop 1 ++ leBytes 4 d.length ++ padTo4 d

/-- The operations of a request in their order: the results so far, which of them wait for which save, and the operations that wait
for the write to the MRAM which the one before them began. Watches fire after each operation (R412, R426). A reset of the
control processor ends the request. -/
def Tx.operations (h big : Nat) : List (Bytes × OpFields) → List (Bytes × Nat × Bytes) → List (Nat × Nat) → Tx s0 →
    List (Bytes × Nat × Bytes) × List (Nat × Nat) × Option (List (Bytes × OpFields)) × Tx s0
  | [], rs, ws, t => (rs, ws, none, t)
  | (e, o) :: ops, rs, ws, t =>
    if t.cur.ctl.down then (rs, ws, none, t)
    else
      let used := sumN (rs.map (fun r => (resultBytes r).length))
      let running := t.cur.store.run.isSome
      let before := t.cur
      let t := (t.operation h (fieldLE e 0 1) o (big - 32 - used - 12 * (ops.length + 1))).watchNow before
      match t.cur.result.status with
      | some st => Tx.operations h big ops (rs ++ [(e, st, t.cur.result.data)]) ws t
      | none =>
        if t.cur.power.mram.isSome && before.power.mram.isNone then (rs ++ [(e, stOK, [])], ws, some ops, t)
        else Tx.operations h big ops (rs ++ [(e, stOK, [])]) (ws ++ [(rs.length, if running then 2 else 1)]) t

/-- The response of a request of session y leaves, and the session, if it is still open, caches it (R412, R416, R420). -/
def Tx.respondTo (t : Tx s0) (h : Nat) (y : Session) (seq : Nat) (tag : Bytes) (rs : List (Bytes × Nat × Bytes)) : Tx s0 :=
  let r := yexelMsg y.ks 3 h stOK y.id seq rs.length (rs.flatMap resultBytes)
  let t := match (t.cur.host h).sess with
    | some z =>
      if z.id == y.id then t.setHost h { t.cur.host h with sess := some { z with cache := ((seq, tag, r) :: z.cache).take 8 } }
      else t
    | none => t
  t.sendTo y.src r

/-- The response of a request of the open session. -/
def Tx.respond (t : Tx s0) (h seq : Nat) (tag : Bytes) (rs : List (Bytes × Nat × Bytes)) : Tx s0 :=
  match (t.cur.host h).sess with
  | none => t
  | some y => t.respondTo h y seq tag rs

/-- The response of a request of session y leaves once none of its operations waits (R412). -/
def Tx.requestEnd (t : Tx s0) (h : Nat) (y : Session) (seq : Nat) (tag : Bytes) (rs : List (Bytes × Nat × Bytes))
    (ws : List (Nat × Nat)) (rest : Option (List (Bytes × OpFields))) : Tx s0 :=
  if ws.isEmpty && rest.isNone then t.respondTo h y seq tag rs
  else t.setCtl { t.cur.ctl with held := some ⟨h, y, seq, tag, rs, ws, rest⟩ }

/-- A REQUEST is processed; its response waits while an operation waits for a save or a write to the MRAM (R412). -/
def Tx.requestMsg (t : Tx s0) (src : Source) (x : Msg) : Tx s0 :=
  t.sessionCheck src x (fun t =>
    let h := x.host
    let t := t.tally 0x1000 h 0x0C
    let r := t.operations h (largest src.transport) ((opsOf x.count x.body).getD []) [] []
    let t := r.2.2.2
    match (t.cur.host h).sess with
    | none => t
    | some y => t.requestEnd h y x.seq x.tag r.1 r.2.1 r.2.2.1)

/-- A CLOSE is answered with OK and then closes the session (R418). -/
def Tx.closeMsg (t : Tx s0) (src : Source) (x : Msg) : Tx s0 :=
  t.sessionCheck src x (fun t => (t.respond x.host x.seq x.tag []).closeSession x.host)

/-- One message is processed (R408, R412); RECOVERY takes those of host 0 on the host SPI port only (R469). -/
def Tx.process (t : Tx s0) (src : Source) (m : Bytes) : Tx s0 :=
  let x := msgOf m
  if malformed m then t.dropMsg
  else if t.cur.romOnly && !(src.transport == 6 && x.host == 0) then t.dropMsg
  else if x.kind == 0 then t.openMsg src x
  else if x.kind == 2 then t.requestMsg src x
  else t.closeMsg src x

/-! ## Arrival (R406, R412) -/

/-- Whether Yexel takes messages of a transport: from stage 11 on and in RECOVERY, not in a control processor reset; in FAILED those
of the host SPI port always (R476). -/
def State.yexelUp (s : State) (tr : Nat) : Bool := !s.ctl.down && (11 ≤ s.power.stage || s.romOnly || (s.failedEarly && tr == 6))

/-- Whether a datagram is dropped before it is read (R406): too long, or from an excluded address. -/
def State.datagramBad (s : State) (src : Source) (m : Bytes) : Bool :=
  let f := s.g 0x1000 (fieldLE m 2 1) 0x06
  largest src.transport < m.length || (fieldLE m 2 1 < 8 && f != 0 && f != src.addr)

/-- Whether a message must wait for its turn (R407, R412): a response is held, or, on the host SPI port, the outgoing queue has no
place for its response (DESIGN CHOICE; assumption 14). -/
def State.turnWaits (s : State) (src : Source) : Bool :=
  s.ctl.held.isSome || (src.transport == 6 && 32 ≤ s.ctl.spiOut.length)

/-- The message that a turn takes: the oldest of the input buffer for the host SPI port. -/
def Tx.turn (t : Tx s0) (src : Source) (m : Bytes) : Tx s0 :=
  if src.transport != 6 then t.process src m
  else
    match t.cur.ctl.spiIn with
    | [] => t
    | m :: r => (t.setCtl { t.cur.ctl with spiIn := r }).process src m

/-- Messages that waited take their turns, until a response is held again. -/
def Tx.drainInbox : Nat → Tx s0 → Tx s0
  | 0, t => t
  | n + 1, t =>
    match t.cur.ctl.inbox with
    | [] => t
    | (src, m) :: r =>
      if t.cur.turnWaits src then t
      else Tx.drainInbox n ((t.setCtl { t.cur.ctl with inbox := r }).turn src m)

/-- A write to the MRAM that has ended is over (R353, R412): the operation that began it learns how, the operations after it follow,
and the messages that waited take their turns. -/
def Tx.mramDone (t : Tx s0) : Tx s0 :=
  match t.cur.power.mram with
  | none => t
  | some r =>
    if t.cur.clock < r.ends then t
    else
      let st := if r.good then stOK else stStoreFail
      let t := t.mramLand r
      match t.cur.ctl.held with
      | none => t.status st
      | some w =>
        match w.rest with
        | none => t.status st
        | some ops =>
          let rs := w.results.dropLast ++ (w.results.getLast?.map (fun p => (p.1, st, p.2.2))).toList
          let x := Tx.operations w.host (largest w.sess.src.transport) ops rs w.waits
            (t.setCtl { t.cur.ctl with held := none })
          let t := x.2.2.2.requestEnd w.host w.sess w.seq w.tag x.1 x.2.1 x.2.2.1
          Tx.drainInbox t.cur.ctl.inbox.length t

/-- A message arrives (R406, R412): it is processed, or waits for its turn behind those that wait. A datagram to the Yexel port of
its MAC comes through ring 1: with the ring disabled only what it holds is drained (R205, R206). -/
def Tx.message (t : Tx s0) (src : Source) (m : Bytes) : Tx s0 :=
  let t := t.when (!t.cur.ctl.down) Tx.mramDone
  let udp := src.transport < 6 && t.on 0x4F00 src.transport 0x05 && src.dport == t.g 0x4F00 src.transport 0x06
  let shut := udp && !t.on 0x4E00 1 0x01 && (mget [] t.cur.net.rings 1).isEmpty
  let t := t.when (udp && t.cur.yexelUp src.transport) (fun t => t.ringPop 1)
  let s := t.cur
  if shut then (t.tally 0x4E00 1 0x05).flagBit 0x4E00 1 0x07 0
  else if !s.yexelUp src.transport || 6 < src.transport || (src.transport < 6 && !udp) then t
  else if src.transport < 6 && s.datagramBad src m then t.dropMsg
  else if s.turnWaits src || !s.ctl.inbox.isEmpty then t.setCtl { s.ctl with inbox := s.ctl.inbox ++ [(src, m)] }
  else t.turn src m

/-- OPEN (R415): a message arrives; on the host SPI port (transport 6) it is the oldest of the input buffer. -/
def execOpen (src : Source) (m : Bytes) (s : State) : Host.Outcome State Fault Refusal :=
  run s fun t => t.message src m

/-- REQUEST (R412): a message arrives. -/
def execRequest (src : Source) (m : Bytes) (s : State) : Host.Outcome State Fault Refusal :=
  run s fun t => t.message src m

/-- CLOSE (R418): a message arrives. -/
def execClose (src : Source) (m : Bytes) (s : State) : Host.Outcome State Fault Refusal :=
  run s fun t => t.message src m

/-- SESSION_TIMEOUT (R418): no accepted REQUEST for the timeout. -/
def execSessionTimeout (h : Nat) (s : State) : Host.Outcome State Fault Refusal :=
  run s fun t =>
    match (s.host h).sess with
    | some y =>
      if y.last + msC (s.g 0x1000 h 0x07) ≤ s.clock then (t.closeSession h).flagBit 0x1000 h 0x11 2 else t
    | none => t

/-! ## The end of a save (R420, R436, R441) -/

/-- A held response learns how the save that ran ended; it leaves once nothing of it waits. -/
def Tx.heldTo (t : Tx s0) (status : Nat) : Tx s0 :=
  match t.cur.ctl.held with
  | none => t
  | some w =>
    let done := (w.waits.filter (fun p => p.2 == 1)).map (·.1)
    let rest := (w.waits.filter (fun p => p.2 != 1)).map (fun p => (p.1, 1))
    let rs := ((List.range w.results.length).zip w.results).map (fun p =>
      if done.contains p.1 then (p.2.1, status, p.2.2.2) else p.2)
    (t.setCtl { t.cur.ctl with held := none }).requestEnd w.host w.sess w.seq w.tag rs rest w.rest

/-- SAVE_END (R436, R437): the read-back of the save completes and matches the image or not. -/
def execSaveEnd (ok : Bool) (s : State) : Host.Outcome State Fault Refusal :=
  runCtl s fun t =>
    let r := t.endSave ok
    match r.1 with
    | none => r.2
    | some x =>
      let st := if x.good then stOK else stStoreFail
      let t := r.2.entrySaved x.good
      let t := (t.when x.waits (fun t => t.status st)).heldTo st
      let t := t.when x.good (fun t =>
        t.each (nub (x.keys.map (·.1))) (fun t h => (t.closeSession h).flagBit 0x1000 h 0x11 3))
      Tx.drainInbox t.cur.ctl.inbox.length t

/-! ## Notifications (R429) -/

/-- Whether an outgoing message has a place: on the host SPI port beside those that waiting messages need. -/
def State.canNotify (s : State) (y : Session) : Bool :=
  y.src.transport != 6 || s.ctl.spiOut.length + s.ctl.spiIn.length + b2n s.ctl.held.isSome < 32

/-- NOTIFY (R429): the interval since the host's last NOTIFY has passed and records wait. -/
def execNotify (h : Nat) (s : State) : Host.Outcome State Fault Refusal :=
  runCtl s fun t =>
    let x := s.host h
    if 8 ≤ h || (x.recs.isEmpty && x.lost == 0) then t
    else if !s.right h 5 then t.setHost h { x with recs := [], lost := 0 }
    else
      match x.sess with
      | none =>
        let t := t.setHost h { x with recs := [], lost := 0 }
        (t.inc 0x1200 h 0x06 x.recs.length).flagBit 0x1200 h 0x07 1
      | some y =>
        if s.clock < x.noted + msC (s.g 0x1200 h 0x03) || !s.canNotify y then t
        else
          let lost : List Rec := if x.lost == 0 then [] else [⟨3, 0, 0, 0, 0, x.lost, x.lostAt⟩]
          let n := 64 - lost.length
          let rs := lost ++ x.recs.take n
          let t := t.setHost h { x with recs := x.recs.drop n, lost := 0, noted := s.clock,
                                        sess := some { y with notes := y.notes + 1 } }
          let t := (t.tally 0x1200 h 0x04).inc 0x1200 h 0x05 rs.length
          t.sendTo y.src (yexelMsg y.ks 4 h 0 y.id (y.notes + 1) rs.length (rs.flatMap Rec.bytes))

/-! ## Host SPI port (R407) -/

/-- READY: the input buffer has room and the outgoing queue at least 2 free places. -/
def State.spiReady (s : State) : Bool := s.ctl.spiIn.length < 2 && s.ctl.spiOut.length + 2 ≤ 32

/-- A WRITE is dropped and sets ERROR. -/
def Tx.spiError (t : Tx s0) : Tx s0 := (t.setCtl { t.cur.ctl with spiErr := true }).dropMsg

/-- HSPI_WRITE (R407): a length, then the bytes that the host clocked. -/
def execHspiWrite (len : Nat) (d : Bytes) (s : State) : Host.Outcome State Fault Refusal :=
  run s fun t =>
    let t := t.emit (.miso (zeros (2 + d.length)))
    if len == 0 || 8192 < len || !s.spiReady then t.spiError
    else if d.length < len then t
    else t.setCtl { s.ctl with spiIn := s.ctl.spiIn ++ [d.take len] }

/-- The bytes of a host SPI transaction: what the block has, then zeros. -/
def misoBytes (clocks : Nat) (b : Bytes) : Bytes := b.take clocks ++ zeros (clocks - b.length)

/-- HSPI_STATUS (Table 15.2): `clocks` bytes are clocked out; ERROR clears. -/
def execHspiStatus (clocks : Nat) (s : State) : Host.Outcome State Fault Refusal :=
  run s fun t =>
    let q := s.ctl.spiOut
    let st := b2n s.spiReady + 2 * b2n (!q.isEmpty) + 4 * b2n s.ctl.spiErr
    let t := t.emit (.miso (misoBytes clocks (leBytes 1 st ++ [0] ++ leBytes 2 (q.headD []).length)))
    t.setCtl { s.ctl with spiErr := false }

/-- HSPI_READ (R407): the oldest outgoing message, which leaves the queue only when it is clocked out whole. -/
def execHspiRead (clocks : Nat) (s : State) : Host.Outcome State Fault Refusal :=
  run s fun t =>
    match s.ctl.spiOut with
    | [] => t.emit (.miso (misoBytes clocks (zeros 2)))
    | m :: r =>
      let t := t.emit (.miso (misoBytes clocks (leBytes 2 m.length ++ m)))
      if clocks < 2 + m.length then t
      else
        let t := t.spiQueue r
        if s.ctl.down then t else Tx.drainInbox t.cur.ctl.inbox.length t

/-- HSPI_UNKNOWN_COMMAND (R407): a first byte that is not a command ends the transaction. -/
def execHspiUnknownCommand (cmd : Nat) (s : State) : Host.Outcome State Fault Refusal :=
  run s fun t => if 1 ≤ cmd && cmd ≤ 3 then t else t.dropMsg

/-! ## Without a command -/

/-- What a step does while no command waits: a write to the MRAM that has ended is over (R412), or the block idles (DESIGN CHOICE,
assumptions 1 and 84). -/
def idle (s : State) : Host.Outcome State Fault Refusal :=
  if s.mramEnded && s.clocked && !s.ctl.down then runCtl s Tx.mramDone else .next s

end Sys2Proof.Machine
end

