-- ==== Sys2Proof/Machine/Period.lean ====
section
/-! DEFINITION. The start of a Domain A period (R93, Table 6.14): delivery, Furrows, correction, Trellis, output map. -/

namespace Sys2Proof.Machine
open Sys2Proof

variable {s0 : State}

/-- State of every Trellis source (0x3C01[i]:03): of those that are set, and of those it shows as good. -/
def Tx.trellisStates (t : Tx s0) : Tx s0 :=
  t.each (nub (t.cur.listed 0x3C01 0x01 ++ t.cur.listed 0x3C01 0x03)) (fun t i =>
    t.w 0x3C01 i 0x03 (b2n (!t.cur.signalGood (t.g 0x3C01 i 0x01))))

/-- The reader of a poisoned DRAM read acts (R386, R397): the keyframe mover deletes the keyframe, so that the segment runs to the next
one, and the firmware discards the frame of a receive ring. The bulk delay takes its burst as zero when its sample is computed. -/
def Tx.readerActs (t : Tx s0) (u : BusUse) : Tx s0 :=
  match u with
  | .keyframe obj time =>
    let tr := t.cur.track obj
    t.setTrack obj { tr with queue := tr.queue.filter (fun k => k.time != time) }
  | .ring r i =>
    match (mget [] t.cur.net.rings r)[i]? with
    | some f =>
      (t.setNet { t.cur.net with rings := mputD [] r ((mget [] t.cur.net.rings r).eraseIdx i) t.cur.net.rings }).w 0x4E00 r 0x03
        (t.g 0x4E00 r 0x03 - f.descs)
    | none => t
  | .bulk _ _ | .other => t

/-- What a period's reads of the memories bring (R379, R380, R386): corrections of SRAM words, what the readers of poisoned data do,
and machine checks of the control processor. -/
def Tx.memoryPeriod (t : Tx s0) (e : PeriodIn) : Tx s0 :=
  let t := t.each (e.sram.filter (fun x => x.region < 7 && x.word < regionWords x.region && secDecode x.region x.mask == 1))
    (fun t x => t.sramFixed x)
  let t := (t.busPeriod e.bus)
  let checks := t.cur.mem.checks
  let t := t.each t.cur.mem.poison (fun t u => t.readerActs u)
  (t.setMem { t.cur.mem with checks := [] }).each (checks.take 1) (fun t w => t.machineCheck w)

/-- Bursts of the bulk-delay histories that poisoned reads take away (R133, R386). -/
def Mem.bursts (m : Mem) : List CorrFault :=
  m.poison.filterMap (fun u => match u with
    | .bulk k old => some ⟨k, .burst old⟩
    | _ => none)

/-- What the engines do in the period of media time m. -/
def Tx.enginesPeriod (t : Tx s0) (m : Nat) (e : PeriodIn) : Tx s0 :=
  let t := (t.portsDeliver m).streamsDeliver e.badCells m
  let t := (t.chainsPresent m).trackGood
  let xs := if m < 2 then [] else t.cur.objectSamples (m - 2)
  let t := t.when (2 ≤ m) (fun t => t.furrowWrite (m - 2) xs)
  let t := (t.correctSample e.badState t.cur.mem.bursts).trellisStates
  let t := ((t.trellis m).chainsCollect).outputMap m
  let t := t.each (t.cur.serial.ports.map (·.1)) (fun t p => t.portPush p)
  let t := t.streamsCollect.modulateAll
  t.recordPeriod m xs

/-- What goes on whether the engines run or stand: word clock and pulse outputs, trace port, frames that wait at the MACs,
timestamp queue, loads. -/
def Tx.alwaysPeriod (t : Tx s0) (m : Nat) : Tx s0 :=
  let t := ((t.wclkOut m).ppsOutPeriod m).traceSettle.traceSecond
  let t := t.each (List.range 6) (fun t k => t.macRun k)
  let t := if t.cur.ctl.down then t else t.each (List.range 16) (fun t _ => t.stampPop)
  t.when (t.cur.pool.second != t.cur.ns / 1000000000) Tx.showCoreLoad

/-- PERIOD_START (R93, R298): media time goes on by one sample. -/
def execPeriodStart (e : PeriodIn) (s : State) : Host.Outcome State Fault Refusal :=
  run s fun t =>
    let m := s.now + 1
    let t := t.when s.engines.running Tx.trackGood
    let t := (t.tick m (s.clockAt m s.fA)).poolSettle
    let t := t.when (s.engines.running && m % 16 == 0) Tx.latchInputs
    let t := (t.memoryPeriod e).micsPeriod e.pdm
    let t := if s.engines.running then t.enginesPeriod m e else t.modulateAll.trellisStates
    let t := t.setMem { t.cur.mem with poison := [] }
    ((t.runPeriod m).w 0x5A00 0 0x0E (e.faultHigh % 8)).alwaysPeriod m

end Sys2Proof.Machine
end

