-- ==== Sys2Proof/Machine/Dispatch.lean ====
section
/-! DEFINITION. The effect of every command: one arm per row of the opcode table, each a direct call of its meaning. -/

namespace Sys2Proof.Machine
open Sys2Proof

/-- The effect of a command on everything but the queue. -/
def exec (i : Instr) (s : State) : Host.Outcome State Fault Refusal :=
  match i with
  | .write h o => Sys2Proof.Machine.execWrite h o s
  | .read h o bad => Sys2Proof.Machine.execRead h o bad s
  | .stagedRead h o => Sys2Proof.Machine.execStagedRead h o s
  | .readSegment h o bad => Sys2Proof.Machine.execReadSegment h o bad s
  | .writeSegment h o => Sys2Proof.Machine.execWriteSegment h o s
  | .nop h o => Sys2Proof.Machine.execNop h o s
  | .open_ src m => Sys2Proof.Machine.execOpen src m s
  | .request src m => Sys2Proof.Machine.execRequest src m s
  | .close src m => Sys2Proof.Machine.execClose src m s
  | .sessionTimeout h => Sys2Proof.Machine.execSessionTimeout h s
  | .transferAbandon h => Sys2Proof.Machine.execTransferAbandon h s
  | .snapshotRelease h => Sys2Proof.Machine.execSnapshotRelease h s
  | .hspiWrite len d => Sys2Proof.Machine.execHspiWrite len d s
  | .hspiStatus clocks => Sys2Proof.Machine.execHspiStatus clocks s
  | .hspiRead clocks => Sys2Proof.Machine.execHspiRead clocks s
  | .notify h => Sys2Proof.Machine.execNotify h s
  | .stagedWrite h o => Sys2Proof.Machine.execStagedWrite h o s
  | .commit h d => Sys2Proof.Machine.execCommit h d s
  | .cancel h d => Sys2Proof.Machine.execCancel h d s
  | .discardStage h n d => Sys2Proof.Machine.execDiscardStage h n d s
  | .commitLands => Sys2Proof.Machine.execCommitLands s
  | .planLands => Sys2Proof.Machine.execPlanLands s
  | .save h d => Sys2Proof.Machine.execSave h d s
  | .autosave => Sys2Proof.Machine.execAutosave s
  | .saveEnd ok => Sys2Proof.Machine.execSaveEnd ok s
  | .restoreDefaults h d => Sys2Proof.Machine.execRestoreDefaults h d s
  | .keyWrite h n d => Sys2Proof.Machine.execKeyWrite h n d s
  | .ownerWrite h sub d => Sys2Proof.Machine.execOwnerWrite h sub d s
  | .assignRanges h d => Sys2Proof.Machine.execAssignRanges h d s
  | .keyframePush h d => Sys2Proof.Machine.execKeyframePush h d s
  | .flushQueue h n d => Sys2Proof.Machine.execFlushQueue h n d s
  | .transformWrite h sub d => Sys2Proof.Machine.execTransformWrite h sub d s
  | .evaluationWindowOpen bad => Sys2Proof.Machine.execEvaluationWindowOpen bad s
  | .evaluationWindowClose => Sys2Proof.Machine.execEvaluationWindowClose s
  | .periodStart e => Sys2Proof.Machine.execPeriodStart e s
  | .renderWindow cells words => Sys2Proof.Machine.execRenderWindow cells words s
  | .depthWrite h n d => Sys2Proof.Machine.execDepthWrite h n d s
  | .depthChangeLands => Sys2Proof.Machine.execDepthChangeLands s
  | .repack h d => Sys2Proof.Machine.execRepack h d s
  | .repackLands => Sys2Proof.Machine.execRepackLands s
  | .setDataUpload h n d => Sys2Proof.Machine.execSetDataUpload h n d s
  | .setReady n => Sys2Proof.Machine.execSetReady n s
  | .setErase h n d => Sys2Proof.Machine.execSetErase h n d s
  | .graftRequest h d => Sys2Proof.Machine.execGraftRequest h d s
  | .graftStart n => Sys2Proof.Machine.execGraftStart n s
  | .graftFade n => Sys2Proof.Machine.execGraftFade n s
  | .graftEnd n => Sys2Proof.Machine.execGraftEnd n s
  | .bulkPhase bad used => Sys2Proof.Machine.execBulkPhase bad used s
  | .urgentPhase bad used => Sys2Proof.Machine.execUrgentPhase bad used s
  | .hopEvent => Sys2Proof.Machine.execHopEvent s
  | .bulkDelayWrite h n d => Sys2Proof.Machine.execBulkDelayWrite h n d s
  | .bulkCrossfade => Sys2Proof.Machine.execBulkCrossfade s
  | .trellisSourceWrite h n d => Sys2Proof.Machine.execTrellisSourceWrite h n d s
  | .nodeWrite h d => Sys2Proof.Machine.execNodeWrite h d s
  | .bankCapture h d => Sys2Proof.Machine.execBankCapture h d s
  | .bankClear h d => Sys2Proof.Machine.execBankClear h d s
  | .inputMapBoundary => Sys2Proof.Machine.execInputMapBoundary s
  | .outputMapWrite h n d => Sys2Proof.Machine.execOutputMapWrite h n d s
  | .outputMapLands => Sys2Proof.Machine.execOutputMapLands s
  | .pathQueryRead h n sub => Sys2Proof.Machine.execPathQueryRead h n sub s
  | .rateChange h d => Sys2Proof.Machine.execRateChange h d s
  | .outputsRampDown => Sys2Proof.Machine.execOutputsRampDown s
  | .enginesStop => Sys2Proof.Machine.execEnginesStop s
  | .enginesRestart => Sys2Proof.Machine.execEnginesRestart s
  | .portEnable h n d => Sys2Proof.Machine.execPortEnable h n d s
  | .portStart n => Sys2Proof.Machine.execPortStart n s
  | .portDisable h n d => Sys2Proof.Machine.execPortDisable h n d s
  | .portRelease n => Sys2Proof.Machine.execPortRelease n s
  | .maskWrite h n sub d => Sys2Proof.Machine.execMaskWrite h n sub d s
  | .fsyncActiveEdge n phase level inTime sameCycle => Sys2Proof.Machine.execFsyncActiveEdge n phase level inTime sameCycle s
  | .frameComplete n f => Sys2Proof.Machine.execFrameComplete n f s
  | .portLost n => Sys2Proof.Machine.execPortLost n s
  | .asrcLock n ppm => Sys2Proof.Machine.execAsrcLock n ppm s
  | .asrcRelock n ppm => Sys2Proof.Machine.execAsrcRelock n ppm s
  | .pllLock phase => Sys2Proof.Machine.execPllLock phase s
  | .pllUnlock phase => Sys2Proof.Machine.execPllUnlock phase s
  | .wclkInLost => Sys2Proof.Machine.execWclkInLost s
  | .receiveFrame n f err clock => Sys2Proof.Machine.execReceiveFrame n f err clock s
  | .pauseWatchdog n => Sys2Proof.Machine.execPauseWatchdog n s
  | .linkUp n speed => Sys2Proof.Machine.execLinkUp n speed s
  | .linkDown n => Sys2Proof.Machine.execLinkDown n s
  | .ringDisable h n d => Sys2Proof.Machine.execRingDisable h n d s
  | .ringEnable h n d => Sys2Proof.Machine.execRingEnable h n d s
  | .receiveStreamEnable h n d => Sys2Proof.Machine.execReceiveStreamEnable h n d s
  | .transmitStreamEnable h n d => Sys2Proof.Machine.execTransmitStreamEnable h n d s
  | .streamDisable h tx n d => Sys2Proof.Machine.execStreamDisable h tx n d s
  | .packetPush n sameCycle => Sys2Proof.Machine.execPacketPush n sameCycle s
  | .packetLaunch n sameCycle bad => Sys2Proof.Machine.execPacketLaunch n sameCycle bad s
  | .arpResolved n ip mac => Sys2Proof.Machine.execArpResolved n ip mac s
  | .arpAgeOut n ip => Sys2Proof.Machine.execArpAgeOut n ip s
  | .igmpReport n group => Sys2Proof.Machine.execIgmpReport n group s
  | .sdpWrite h n d => Sys2Proof.Machine.execSdpWrite h n d s
  | .addressWrite h n d => Sys2Proof.Machine.execAddressWrite h n d s
  | .rateWrite h d => Sys2Proof.Machine.execRateWrite h d s
  | .offsetWrite h d => Sys2Proof.Machine.execOffsetWrite h d s
  | .step => Sys2Proof.Machine.execStep s
  | .timebaseRestart h d => Sys2Proof.Machine.execTimebaseRestart h d s
  | .ptpSync n m clock mac ip => Sys2Proof.Machine.execPtpSync n m clock mac ip s
  | .ptpFollowUp n m => Sys2Proof.Machine.execPtpFollowUp n m s
  | .ptpDelayResp n m => Sys2Proof.Machine.execPtpDelayResp n m s
  | .ptpDelayReq n m clock mac ip => Sys2Proof.Machine.execPtpDelayReq n m clock mac ip s
  | .ptpAnnounce n m => Sys2Proof.Machine.execPtpAnnounce n m s
  | .ptpSend kind clock => Sys2Proof.Machine.execPtpSend kind clock s
  | .announceTimeout => Sys2Proof.Machine.execAnnounceTimeout s
  | .ppsEdge clock => Sys2Proof.Machine.execPpsEdge clock s
  | .ppsLost => Sys2Proof.Machine.execPpsLost s
  | .triggerArm h n d => Sys2Proof.Machine.execTriggerArm h n d s
  | .triggerDisarm h n d => Sys2Proof.Machine.execTriggerDisarm h n d s
  | .triggerFire n clock => Sys2Proof.Machine.execTriggerFire n clock s
  | .capture n clock => Sys2Proof.Machine.execCapture n clock s
  | .sprinklerData m => Sys2Proof.Machine.execSprinklerData m s
  | .nak m => Sys2Proof.Machine.execNak m s
  | .nakRepeat => Sys2Proof.Machine.execNakRepeat s
  | .gapSkip => Sys2Proof.Machine.execGapSkip s
  | .snapshotRequest m => Sys2Proof.Machine.execSnapshotRequest m s
  | .snapshotRequestRepeat => Sys2Proof.Machine.execSnapshotRequestRepeat s
  | .snapshot m => Sys2Proof.Machine.execSnapshot m s
  | .heartbeat => Sys2Proof.Machine.execHeartbeat s
  | .status => Sys2Proof.Machine.execStatus s
  | .statusReceived m => Sys2Proof.Machine.execStatusReceived m s
  | .promoted => Sys2Proof.Machine.execPromoted s
  | .hedgeEnable h d => Sys2Proof.Machine.execHedgeEnable h d s
  | .hedgeDisable h d => Sys2Proof.Machine.execHedgeDisable h d s
  | .modEnFall => Sys2Proof.Machine.execModEnFall s
  | .channelEnable h n d => Sys2Proof.Machine.execChannelEnable h n d s
  | .channelDisable h n d => Sys2Proof.Machine.execChannelDisable h n d s
  | .channelOff n => Sys2Proof.Machine.execChannelOff n s
  | .channelStart n => Sys2Proof.Machine.execChannelStart n s
  | .startRampEnd n => Sys2Proof.Machine.execStartRampEnd n s
  | .senseFrame n word clock => Sys2Proof.Machine.execSenseFrame n word clock s
  | .faultEdge n clock => Sys2Proof.Machine.execFaultEdge n clock s
  | .faultIdentify n clock => Sys2Proof.Machine.execFaultIdentify n clock s
  | .retry n => Sys2Proof.Machine.execRetry n s
  | .clearLatch h n d => Sys2Proof.Machine.execClearLatch h n d s
  | .clearTripLog h d => Sys2Proof.Machine.execClearTripLog h d s
  | .hedgeBlock => Sys2Proof.Machine.execHedgeBlock s
  | .impedanceWindow n => Sys2Proof.Machine.execImpedanceWindow n s
  | .newCarrier => Sys2Proof.Machine.execNewCarrier s
  | .resynchronise h sub d => Sys2Proof.Machine.execResynchronise h sub d s
  | .decimatorReset => Sys2Proof.Machine.execDecimatorReset s
  | .settlingEnd n => Sys2Proof.Machine.execSettlingEnd n s
  | .noData n => Sys2Proof.Machine.execNoData n s
  | .compensationWrite h n d => Sys2Proof.Machine.execCompensationWrite h n d s
  | .compensationSwitch n => Sys2Proof.Machine.execCompensationSwitch n s
  | .openOutput h n d => Sys2Proof.Machine.execOpenOutput h n d s
  | .closeOutput h n d => Sys2Proof.Machine.execCloseOutput h n d s
  | .startRun h d => Sys2Proof.Machine.execStartRun h d s
  | .stimulusStart => Sys2Proof.Machine.execStimulusStart s
  | .captureAnalysis => Sys2Proof.Machine.execCaptureAnalysis s
  | .runDone => Sys2Proof.Machine.execRunDone s
  | .abortRun h d => Sys2Proof.Machine.execAbortRun h d s
  | .freeze cause => Sys2Proof.Machine.execFreeze cause s
  | .postEnd => Sys2Proof.Machine.execPostEnd s
  | .rearm h d => Sys2Proof.Machine.execRearm h d s
  | .descriptionWrite h n d => Sys2Proof.Machine.execDescriptionWrite h n d s
  | .chainEnable h n d => Sys2Proof.Machine.execChainEnable h n d s
  | .chainDisable h n d => Sys2Proof.Machine.execChainDisable h n d s
  | .chainRelease n => Sys2Proof.Machine.execChainRelease n s
  | .parameterWrite h n d => Sys2Proof.Machine.execParameterWrite h n d s
  | .runComplete n cycles bad abort => Sys2Proof.Machine.execRunComplete n cycles bad abort s
  | .missedRun n => Sys2Proof.Machine.execMissedRun n s
  | .packWrite h n d => Sys2Proof.Machine.execPackWrite h n d s
  | .packErase h n d => Sys2Proof.Machine.execPackErase h n d s
  | .flagRaise n => Sys2Proof.Machine.execFlagRaise n s
  | .setHostFlags h d => Sys2Proof.Machine.execSetHostFlags h d s
  | .lockTimeout n clock => Sys2Proof.Machine.execLockTimeout n clock s
  | .refresh ready heat => Sys2Proof.Machine.execRefresh ready heat s
  | .neighbourRefresh n row bank issue => Sys2Proof.Machine.execNeighbourRefresh n row bank issue s
  | .alert n => Sys2Proof.Machine.execAlert n s
  | .replay n fails => Sys2Proof.Machine.execReplay n fails s
  | .zqCalibration gap drift => Sys2Proof.Machine.execZqCalibration gap drift s
  | .scheduledRetraining good timing voltage => Sys2Proof.Machine.execScheduledRetraining good timing voltage s
  | .scrub n offset bad => Sys2Proof.Machine.execScrub n offset bad s
  | .patrol n word err syn => Sys2Proof.Machine.execPatrol n word err syn s
  | .selfRefreshEntry request => Sys2Proof.Machine.execSelfRefreshEntry request s
  | .markDevice h n d => Sys2Proof.Machine.execMarkDevice h n d s
  | .powerOn b => Sys2Proof.Machine.execPowerOn b s
  | .supplyLoss => Sys2Proof.Machine.execSupplyLoss s
  | .pinReset b => Sys2Proof.Machine.execPinReset b s
  | .deviceReset h d b => Sys2Proof.Machine.execDeviceReset h d b s
  | .controlProcessorReset h d => Sys2Proof.Machine.execControlProcessorReset h d s
  | .tendingPoolReset h d => Sys2Proof.Machine.execTendingPoolReset h d s
  | .networkReset h d => Sys2Proof.Machine.execNetworkReset h d s
  | .watchdog => Sys2Proof.Machine.execWatchdog s
  | .bootFailure b => Sys2Proof.Machine.execBootFailure b s
  | .firmwareImage h d => Sys2Proof.Machine.execFirmwareImage h d s
  | .nonce h d => Sys2Proof.Machine.execNonce h d s
  | .reportSigned us => Sys2Proof.Machine.execReportSigned us s
  | .requestActive h d => Sys2Proof.Machine.execRequestActive h d s
  | .requestIdle h d => Sys2Proof.Machine.execRequestIdle h d s
  | .requestStandby h d => Sys2Proof.Machine.execRequestStandby h d s
  | .standbyEntry => Sys2Proof.Machine.execStandbyEntry s
  | .wake cause n secs f b => Sys2Proof.Machine.execWake cause n secs f b s
  | .thermalRead temp => Sys2Proof.Machine.execThermalRead temp s
  | .thermalRecovery b => Sys2Proof.Machine.execThermalRecovery b s
  | .monitorSample readings temps => Sys2Proof.Machine.execMonitorSample readings temps s
  | .marginPlan delays => Sys2Proof.Machine.execMarginPlan delays s
  | .vreqStep volts => Sys2Proof.Machine.execVreqStep volts s
  | .safetyRaise n => Sys2Proof.Machine.execSafetyRaise n s
  | .counterLatch h d => Sys2Proof.Machine.execCounterLatch h d s
  | .traceEnable h d => Sys2Proof.Machine.execTraceEnable h d s
  | .traceDisable h d => Sys2Proof.Machine.execTraceDisable h d s
  | .traceSync => Sys2Proof.Machine.execTraceSync s
  | .counterSnapshot => Sys2Proof.Machine.execCounterSnapshot s
  | .hspiUnknownCommand cmd => Sys2Proof.Machine.execHspiUnknownCommand cmd s
  | .heartbeatReceived m => Sys2Proof.Machine.execHeartbeatReceived m s
  | .delayReqSend clock => Sys2Proof.Machine.execDelayReqSend clock s
  | .pdmDataResumed n => Sys2Proof.Machine.execPdmDataResumed n s
  | .wclkInEdge period phase => Sys2Proof.Machine.execWclkInEdge period phase s
  | .igmpV2FallbackEnd n => Sys2Proof.Machine.execIgmpV2FallbackEnd n s
  | .arpFail n => Sys2Proof.Machine.execArpFail n s
  | .oldCarrierStop => Sys2Proof.Machine.execOldCarrierStop s
  | .hedgeRampDownEnd n => Sys2Proof.Machine.execHedgeRampDownEnd n s
  | .controlResetComplete => Sys2Proof.Machine.execControlResetComplete s
  | .ageingTelemetrySave => Sys2Proof.Machine.execAgeingTelemetrySave s

end Sys2Proof.Machine
end

