-- ==== Sys2Proof/WellFormed.lean ====
section
/-! DEFINITION. Which commands are well formed: host numbers, instances and message lengths that the manual's tables
have. -/

namespace Sys2Proof

/-- A host number (R443). -/
def wfHost (h : Nat) : Bool := h < 8

/-- An instance number below the table's count (R4, R450). -/
def wfInst (count n : Nat) : Bool := n < count

/-- Data that one Yexel transfer can carry (R413). -/
def wfData (d : Bytes) : Bool := d.length ≤ 4194304

/-- Fields of an operation fit their widths (Table 15.5). -/
def wfOp (o : OpFields) : Bool :=
  o.flags < 256 && o.idx < 65536 && o.sub < 256 && o.rsv < 256 && o.inst < 65536 && wfData o.data

/-- A transport, an IPv4 address and a UDP port (R406). -/
def wfSource (s : Source) : Bool := s.transport ≤ 6 && s.addr < 4294967296 && s.port < 65536 && s.dport < 65536

/-- Well-formed commands. -/
def Instr.wf : Instr → Bool
  | .write h o => wfHost h && wfOp o
  | .read h o _ => wfHost h && wfOp o
  | .stagedRead h o => wfHost h && wfOp o
  | .readSegment h o _ => wfHost h && wfOp o
  | .writeSegment h o => wfHost h && wfOp o
  | .nop h o => wfHost h && wfOp o
  | .open_ src _ => wfSource src
  | .request src _ => wfSource src
  | .close src _ => wfSource src
  | .sessionTimeout h => wfHost h
  | .transferAbandon h => wfHost h
  | .snapshotRelease h => wfHost h
  | .hspiWrite _ d => wfData d
  | .hspiStatus _ => true
  | .hspiRead _ => true
  | .notify h => wfHost h
  | .stagedWrite h o => wfHost h && wfOp o
  | .commit h d => wfHost h && wfData d
  | .cancel h d => wfHost h && wfData d
  | .discardStage h n d => wfHost h && wfInst 8 n && wfData d
  | .commitLands => true
  | .planLands => true
  | .save h d => wfHost h && wfData d
  | .autosave => true
  | .saveEnd _ => true
  | .restoreDefaults h d => wfHost h && wfData d
  | .keyWrite h n d => wfHost h && wfInst 8 n && wfData d
  | .ownerWrite h _ d => wfHost h && wfData d
  | .assignRanges h d => wfHost h && wfData d
  | .keyframePush h d => wfHost h && wfData d
  | .flushQueue h n d => wfHost h && wfInst 1024 n && wfData d
  | .transformWrite h _ d => wfHost h && wfData d
  | .evaluationWindowOpen bad => bad.all (fun f => f.obj < 1024 && f.word < 131072)
  | .evaluationWindowClose => true
  | .periodStart _ => true
  | .renderWindow _ _ => true
  | .depthWrite h n d => wfHost h && wfInst 1024 n && wfData d
  | .depthChangeLands => true
  | .repack h d => wfHost h && wfData d
  | .repackLands => true
  | .setDataUpload h n d => wfHost h && wfInst 1024 n && wfData d
  | .setReady n => wfInst 1024 n
  | .setErase h n d => wfHost h && wfInst 1024 n && wfData d
  | .graftRequest h d => wfHost h && wfData d
  | .graftStart n => wfInst 512 n
  | .graftFade n => wfInst 512 n
  | .graftEnd n => wfInst 512 n
  | .bulkPhase _ _ => true
  | .urgentPhase _ _ => true
  | .hopEvent => true
  | .bulkDelayWrite h n d => wfHost h && wfInst 512 n && wfData d
  | .bulkCrossfade => true
  | .trellisSourceWrite h n d => wfHost h && wfInst 256 n && wfData d
  | .nodeWrite h d => wfHost h && wfData d
  | .bankCapture h d => wfHost h && wfData d
  | .bankClear h d => wfHost h && wfData d
  | .inputMapBoundary => true
  | .outputMapWrite h n d => wfHost h && wfInst 1560 n && wfData d
  | .outputMapLands => true
  | .pathQueryRead h n _ => wfHost h && wfInst 8 n
  | .rateChange h d => wfHost h && wfData d
  | .outputsRampDown => true
  | .enginesStop => true
  | .enginesRestart => true
  | .portEnable h n d => wfHost h && wfInst 32 n && wfData d
  | .portStart n => wfInst 32 n
  | .portDisable h n d => wfHost h && wfInst 32 n && wfData d
  | .portRelease n => wfInst 32 n
  | .maskWrite h n _ d => wfHost h && wfInst 32 n && wfData d
  | .fsyncActiveEdge n _ _ _ _ => wfInst 32 n
  | .frameComplete n _ => wfInst 32 n
  | .portLost n => wfInst 32 n
  | .asrcLock n _ => wfInst 64 n
  | .asrcRelock n _ => wfInst 64 n
  | .pllLock _ => true
  | .pllUnlock _ => true
  | .wclkInLost => true
  | .receiveFrame n _ _ _ => wfInst 6 n
  | .pauseWatchdog n => wfInst 6 n
  | .linkUp n _ => wfInst 6 n
  | .linkDown n => wfInst 6 n
  | .ringDisable h n d => wfHost h && wfInst 4 n && wfData d
  | .ringEnable h n d => wfHost h && wfInst 4 n && wfData d
  | .receiveStreamEnable h n d => wfHost h && wfInst 256 n && wfData d
  | .transmitStreamEnable h n d => wfHost h && wfInst 256 n && wfData d
  | .streamDisable h _ n d => wfHost h && wfInst 256 n && wfData d
  | .packetPush n _ => wfInst 256 n
  | .packetLaunch n _ _ => wfInst 256 n
  | .arpResolved n _ _ => wfInst 6 n
  | .arpAgeOut n _ => wfInst 6 n
  | .igmpReport n _ => wfInst 6 n
  | .sdpWrite h n d => wfHost h && wfInst 256 n && wfData d
  | .addressWrite h n d => wfHost h && wfInst 6 n && wfData d
  | .rateWrite h d => wfHost h && wfData d
  | .offsetWrite h d => wfHost h && wfData d
  | .step => true
  | .timebaseRestart h d => wfHost h && wfData d
  | .ptpSync n _ _ _ _ => wfInst 6 n
  | .ptpFollowUp n _ => wfInst 6 n
  | .ptpDelayResp n _ => wfInst 6 n
  | .ptpDelayReq n _ _ _ _ => wfInst 6 n
  | .ptpAnnounce n _ => wfInst 6 n
  | .ptpSend _ _ => true
  | .announceTimeout => true
  | .ppsEdge _ => true
  | .ppsLost => true
  | .triggerArm h n d => wfHost h && wfInst 16 n && wfData d
  | .triggerDisarm h n d => wfHost h && wfInst 16 n && wfData d
  | .triggerFire n _ => wfInst 16 n
  | .capture n _ => wfInst 8 n
  | .sprinklerData _ => true
  | .nak _ => true
  | .nakRepeat => true
  | .gapSkip => true
  | .snapshotRequest _ => true
  | .snapshotRequestRepeat => true
  | .snapshot _ => true
  | .heartbeat => true
  | .status => true
  | .statusReceived _ => true
  | .promoted => true
  | .hedgeEnable h d => wfHost h && wfData d
  | .hedgeDisable h d => wfHost h && wfData d
  | .modEnFall => true
  | .channelEnable h n d => wfHost h && wfInst 24 n && wfData d
  | .channelDisable h n d => wfHost h && wfInst 24 n && wfData d
  | .channelOff n => wfInst 24 n
  | .channelStart n => wfInst 24 n
  | .startRampEnd n => wfInst 24 n
  | .senseFrame n _ _ => wfInst 24 n
  | .faultEdge n _ => wfInst 3 n
  | .faultIdentify n _ => wfInst 3 n
  | .retry n => wfInst 24 n
  | .clearLatch h n d => wfHost h && wfInst 24 n && wfData d
  | .clearTripLog h d => wfHost h && wfData d
  | .hedgeBlock => true
  | .impedanceWindow n => wfInst 24 n
  | .newCarrier => true
  | .resynchronise h _ d => wfHost h && wfData d
  | .decimatorReset => true
  | .settlingEnd n => wfInst 16 n
  | .noData n => wfInst 16 n
  | .compensationWrite h n d => wfHost h && wfInst 16 n && wfData d
  | .compensationSwitch n => wfInst 16 n
  | .openOutput h n d => wfHost h && wfInst 512 n && wfData d
  | .closeOutput h n d => wfHost h && wfInst 512 n && wfData d
  | .startRun h d => wfHost h && wfData d
  | .stimulusStart => true
  | .captureAnalysis => true
  | .runDone => true
  | .abortRun h d => wfHost h && wfData d
  | .freeze _ => true
  | .postEnd => true
  | .rearm h d => wfHost h && wfData d
  | .descriptionWrite h n d => wfHost h && wfInst 256 n && wfData d
  | .chainEnable h n d => wfHost h && wfInst 256 n && wfData d
  | .chainDisable h n d => wfHost h && wfInst 256 n && wfData d
  | .chainRelease n => wfInst 256 n
  | .parameterWrite h n d => wfHost h && wfInst 256 n && wfData d
  | .runComplete n _ _ _ => wfInst 256 n
  | .missedRun n => wfInst 256 n
  | .packWrite h n d => wfHost h && wfInst 8 n && wfData d
  | .packErase h n d => wfHost h && wfInst 8 n && wfData d
  | .flagRaise n => wfInst 128 n
  | .setHostFlags h d => wfHost h && wfData d
  | .lockTimeout n _ => wfInst 3 n
  | .refresh _ _ => true
  | .neighbourRefresh n _ _ _ => wfInst 2 n
  | .alert n => wfInst 2 n
  | .replay n _ => wfInst 2 n
  | .zqCalibration _ _ => true
  | .scheduledRetraining _ _ _ => true
  | .scrub n _ _ => wfInst 2 n
  | .patrol n _ _ _ => wfInst 7 n
  | .selfRefreshEntry _ => true
  | .markDevice h n d => wfHost h && wfInst 10 n && wfData d
  | .powerOn _ => true
  | .supplyLoss => true
  | .pinReset _ => true
  | .deviceReset h d _ => wfHost h && wfData d
  | .controlProcessorReset h d => wfHost h && wfData d
  | .tendingPoolReset h d => wfHost h && wfData d
  | .networkReset h d => wfHost h && wfData d
  | .watchdog => true
  | .bootFailure _ => true
  | .firmwareImage h d => wfHost h && wfData d
  | .nonce h d => wfHost h && wfData d
  | .reportSigned _ => true
  | .requestActive h d => wfHost h && wfData d
  | .requestIdle h d => wfHost h && wfData d
  | .requestStandby h d => wfHost h && wfData d
  | .standbyEntry => true
  | .wake _ _ _ _ _ => true
  | .thermalRead _ => true
  | .thermalRecovery _ => true
  | .monitorSample _ _ => true
  | .marginPlan _ => true
  | .vreqStep _ => true
  | .safetyRaise n => wfInst 256 n.monitor
  | .counterLatch h d => wfHost h && wfData d
  | .traceEnable h d => wfHost h && wfData d
  | .traceDisable h d => wfHost h && wfData d
  | .traceSync => true
  | .counterSnapshot => true
  | .hspiUnknownCommand _ => true
  | .heartbeatReceived _ => true
  | .delayReqSend _ => true
  | .pdmDataResumed n => wfInst 16 n
  | .wclkInEdge _ _ => true
  | .igmpV2FallbackEnd n => wfInst 6 n
  | .arpFail n => wfInst 6 n
  | .oldCarrierStop => true
  | .hedgeRampDownEnd n => wfInst 24 n
  | .controlResetComplete => true
  | .ageingTelemetrySave => true

end Sys2Proof
end

