-- ==== Sys2Proof/Safety.lean ====
section
/-! DEFINITION. What a safe state is: the canonical forms of the dictionary, and what every entry can hold; and what it
means that a command changes nothing but the entries and parts of the state that a claim names. -/

namespace Sys2Proof.Machine
open Sys2Proof

/-- A listed dictionary value: its entry exists, it is what the entry can hold, and it differs from the reset value. -/
def listedOk (p : Nat × Nat) : Prop :=
  ∃ e, entryAt p.1 = some e ∧ fit e p.2 = p.2 ∧ p.2 ≠ dfltOf p.1

/-- The dictionary is in its canonical form: keys rise strictly, and every value listed stands as `listedOk` says. -/
def DictOk (d : List (Nat × Nat)) : Prop := mwf d = true ∧ ∀ p ∈ d, listedOk p

/-- The byte-string entries are in their canonical form. -/
def BlobsOk (b : List (Nat × Bytes)) : Prop := mwf b = true ∧ ∀ p ∈ b, p.2 ≠ dfltBlob p.1

/-- The DRAM's contents are in their canonical form: codewords rise strictly, and none is listed that stands as after training. -/
def dramWf (m : List (Nat × DramWord)) : Bool := mwf m && m.all (fun p => p.2 != DramWord.zero)

/-- The on-chip memories behind the matrix are in their canonical form: addresses rise strictly, and no byte is listed that is 0. -/
def cellsWf (m : List (Nat × Byte)) : Bool := mwf m && m.all (fun p => p.2 != 0)

/-- The invariant of every state that a step leads to. -/
def Inv (s : State) : Prop := DictOk s.dict ∧ BlobsOk s.blobs

/-! ## Frames -/

/-- Parts of the state beside the dictionary: the outcome of the command and what it sent, media time and counter, the free
values drawn, and the fields that hold the state of the chapters. -/
inductive Part
  | result | outs | clock | free | scene | geo | render | corr | maps | engines | serial | net | time | sprk | hedge | meas
  | pool | mem | ctl | store | power
  deriving DecidableEq, Repr

/-- Entries that the end of any command may write: the lost-record count and flags of a host (R429). -/
def noted (k : Nat) : Bool := kIdx k == 0x1200 && (kSub k == 0x06 || kSub k == 0x07)

/-- A host's state without its notification records (R429). -/
def HostSt.still (x : HostSt) : HostSt := { x with recs := [], lost := 0, lostAt := 0 }

/-- A part of the state stands alike in two states. Media time and the time counter are one part; of the control fields and of
the store, what the end of any command may write does not count. -/
def Part.same (p : Part) (a b : State) : Prop :=
  match p with
  | .clock => b.now = a.now ∧ b.clock = a.clock
  | .result => b.result = a.result
  | .outs => b.outs = a.outs
  | .free => b.free = a.free
  | .scene => b.scene = a.scene
  | .geo => b.geo = a.geo
  | .render => b.render = a.render
  | .corr => b.corr = a.corr
  | .maps => b.maps = a.maps
  | .engines => b.engines = a.engines
  | .serial => b.serial = a.serial
  | .net => b.net = a.net
  | .time => b.time = a.time
  | .sprk => b.sprk = a.sprk
  | .hedge => b.hedge = a.hedge
  | .meas => b.meas = a.meas
  | .pool => b.pool = a.pool
  | .mem => b.mem = a.mem
  | .power => b.power = a.power
  | .ctl => { b.ctl with hosts := [], fired := none } = { a.ctl with hosts := [], fired := none } ∧ ∀ h, (b.host h).still = (a.host h).still
  | .store => { b.store with changed := none } = { a.store with changed := none }

/-- Only what E and M name differs between two states, beside what the end of any command may write: every entry whose
key E does not name reads as before, and every part that M does not name is as before. A change of a persistent value
restarts the autosave delay, watched changes make records, and trace messages go to the trace port, at the end of any command
(R429, R440, R492). -/
structure Kept (E : Nat → Prop) (M : List Part) (a b : State) : Prop where
  entries : ∀ k, ¬ E k → noted k = false → b.get k = a.get k
  strings : ∀ k, ¬ E k → b.blob k = a.blob k
  parts : ∀ p : Part, p ∉ M → p.same a b

/-- A group of entries: those of the indexes lo to hi, of one instance or of all, at the sub-indices listed or at all (an
empty list). -/
structure Span where
  lo : Nat
  hi : Nat
  inst : Option Nat
  subs : List Nat

/-- An entry of a group, by its key. -/
def Span.has (x : Span) (k : Nat) : Prop :=
  x.lo ≤ kIdx k ∧ kIdx k ≤ x.hi ∧ (∀ n, x.inst = some n → kInst k = n) ∧ (x.subs = [] ∨ kSub k ∈ x.subs)

/-- Sub-indices of instance n of an index. -/
def Span.one (idx n : Nat) (subs : List Nat) : Span := ⟨idx, idx, some n, subs⟩

/-- Sub-indices of every instance of an index. -/
def Span.all (idx : Nat) (subs : List Nat) : Span := ⟨idx, idx, none, subs⟩

/-- Every entry of the indexes lo to hi. -/
def Span.wide (lo hi : Nat) : Span := ⟨lo, hi, none, []⟩

/-- Values of the counters i to j of Table 18.1 (R487). -/
def Span.ctr (i j : Nat) : Span := ⟨0x6800 + i, 0x6800 + j, none, [0x01]⟩

/-- Entries a port may write while frames leave it: its own flags and counts (R202, R227), the cells and counts of the transmit
streams (R219), and the timestamps of what it sends (R246). -/
def Span.sends : List Span :=
  [.all 0x4800 [0x0B, 0x16, 0x17], .all 0x4900 [0x02, 0x04], .all 0x4C00 [0x15, 0x19, 0x1B], .all 0x5001 [0x19, 0x1B],
   .all 0x5010 [0x03], .all 0x5300 [0x01, 0x02, 0x03, 0x04, 0x06], .ctr 118 123, .ctr 140 141]

/-- Entries that show whether lanes, ports and streams hold their place (R174, R189, R212), which every change of what they
need writes again; and what a stream that starts again discards (R219). -/
def Span.lanes : List Span :=
  [.all 0x3F00 [0x05, 0x06, 0x07, 0x09], .all 0x4010 [0x01, 0x02, 0x15, 0x16], .all 0x4400 [0x02], .all 0x4500 [0x01, 0x02],
   .all 0x4510 [0x01, 0x02, 0x03, 0x04, 0x05, 0x06], .all 0x4800 [0x09, 0x16, 0x17], .all 0x4900 [0x02, 0x03, 0x04],
   .all 0x4A00 [0x12, 0x1F, 0x21], .all 0x4C00 [0x14, 0x19, 0x1B]]

/-- Entries that the bus matrix and the memories may write up to the present reading of the counter (R370 to R392). -/
def Span.bus : List Span :=
  [.all 0x1400 [0x02, 0x07, 0x08], .all 0x6000 [0x02, 0x03, 0x05, 0x06, 0x07, 0x08, 0x09, 0x0A, 0x0B],
   .all 0x6010 [0x04, 0x05, 0x06], .all 0x6020 [0x02, 0x04], .all 0x6100 [0x02, 0x03, 0x04, 0x05, 0x06, 0x09],
   .all 0x6200 [0x01, 0x08, 0x18, 0x19, 0x1A, 0x1B, 0x1C, 0x21], .all 0x6210 [0x03, 0x04, 0x05, 0x06, 0x07],
   .all 0x6300 [0x05], .ctr 246 249, .ctr 254 254]

/-- Entries that a reset of the control processor may write, beside those of the matrix (R377, R459, R461, R468). -/
def Span.control : List Span :=
  [.all 0x1000 [0x08, 0x09, 0x0A], .all 0x1001 [0x01], .all 0x1300 [0x03, 0x04, 0x0A, 0x0B], .all 0x3000 [0x0B, 0x0C, 0x0D],
   .all 0x3100 [0x04], .all 0x3200 [0x04], .all 0x3A00 [0x09, 0x0A], .all 0x4E00 [0x03], .all 0x5300 [0x01],
   .all 0x5E30 [0x03, 0x04, 0x05, 0x06, 0x07, 0x08], .all 0x6000 [0x01, 0x04], .all 0x6010 [0x07],
   .all 0x6400 [0x03, 0x04, 0x05, 0x09, 0x0C], .all 0x6500 [0x03, 0x15], .all 0x6501 [], .ctr 253 253]

/-- The frame of a well-formed command: it changes the entries of the groups l and the parts M, its outcome and what it
sends, and nothing else. -/
def Frame (c : Instr) (l : List Span) (M : List Part) : Prop :=
  c.wf = true → ∀ s t, exec c s = .next t → Kept (fun k => ∃ x ∈ l, x.has k) (.result :: .outs :: M) s t

/-! ## What the ROM coefficients are held to -/

/-- Zero-phase gain of the bridge's filter at f Hz, as the filter runs at 96 kHz; the interpolation's filter carries the factor
2 of its 1:2 (R162). -/
noncomputable def bridgeGain (up : Bool) (f : ℝ) : ℝ :=
  (∑ i ∈ Finset.range 129, (bridgeCoef up i : ℝ) / 2 ^ 22 * Real.cos (2 * Real.pi * f * ((i : ℝ) - 64) / 96000)) /
    (if up then 2 else 1)

/-- A gain lies from lo to hi decibels. -/
def GainWithin (g lo hi : ℝ) : Prop := (10 : ℝ) ^ (lo / 20) ≤ |g| ∧ |g| ≤ (10 : ℝ) ^ (hi / 20)

/-- The bridge's response as R162 gives it. The coefficients are free values (assumption 22): a claim that rests on the
response has this as its premise. -/
def BridgeResponse (up : Bool) : Prop :=
  (∀ f : ℝ, 0 ≤ f → f ≤ 21000 → GainWithin (bridgeGain up f) (-0.005) 0.005) ∧
  (∀ f : ℝ, 27000 ≤ f → f ≤ 48000 → |bridgeGain up f| ≤ (10 : ℝ) ^ (-110 / 20 : ℝ))

/-- Gain of an asynchronous converter from rate rin to rout for a complex tone of f Hz, at an instant o ps / 96000 after a sample
(R190), with the Domain A rate fA. -/
noncomputable def asrcGain (rin rout fA o : Nat) (f : ℝ) : ℂ :=
  ∑ i ∈ Finset.range (asrcSpan * rin / fA + 1),
    let d := o + i * (96000 * 10 ^ 12) / rin
    (Config.asrcTap rin rout d : ℂ) / 2 ^ 40 * Complex.exp (-2 * Real.pi * f * (d / (96000 * 10 ^ 12)) * Complex.I)

/-- The converter's response as R190 gives it: of a tone of the passband it leaves one within 0.01 dB, 64 Domain A samples later
within 1/256, and beside it images of at most −120 dB, so its distortion is no more; of a tone beyond the passband's image it leaves
at most −120 dB. It uses no sample before the frame of that sample is complete. The coefficients are free values (assumption 24): a
claim that rests on the response has this as its premise. -/
def AsrcResponse (rin rout fA : Nat) : Prop :=
  let low : ℝ := min rin rout
  (∀ d < 96000 * 10 ^ 12 / rin, Config.asrcTap rin rout d = 0) ∧
  (∀ f : ℝ, 0 ≤ f → f ≤ 0.4535 * low → ∃ g d : ℝ, GainWithin g (-0.01) 0.01 ∧ |d - 64| ≤ 1 / 256 ∧
    ∀ o < 96000 * 10 ^ 12 / rin,
      ‖asrcGain rin rout fA o f - g * Complex.exp (-2 * Real.pi * f * d / fA * Complex.I)‖ ≤ (10 : ℝ) ^ (-120 / 20 : ℝ)) ∧
  (∀ f : ℝ, (1 - 0.4535) * low ≤ f → f ≤ rin / 2 → ∀ o < 96000 * 10 ^ 12 / rin,
    ‖asrcGain rin rout fA o f‖ ≤ (10 : ℝ) ^ (-120 / 20 : ℝ))

/-- Value of a finite binary32 number. -/
noncomputable def realOf (x : F32) : ℝ := (F.toScaled x : ℝ) / 2 ^ 149

/-- Magnitude of a filter's response at x cycles per Domain A sample, where it runs at r times the Domain A rate. -/
noncomputable def firMagnitude (taps : List F32) (r x : ℝ) : ℝ :=
  ‖∑ i ∈ Finset.range taps.length, (realOf (nth taps i 0) : ℂ) * Complex.exp (-2 * Real.pi * x * i / r * Complex.I)‖

/-- Magnitude of stage 1 with the gain of stage 4 (Table 11.2): a fifth-order mean of D bits at R times the Domain A rate. -/
noncomputable def cicMagnitude (R : Nat) (x : ℝ) : ℝ :=
  ‖(∑ i ∈ Finset.range (R / 4), Complex.exp (-2 * Real.pi * x * i / R * Complex.I)) / ((R / 4 : Nat) : ℂ)‖ ^ 5

/-- Magnitude of stages 1 to 5 at ratio R (Table 11.2). -/
noncomputable def decimMagnitude (R : Nat) (x : ℝ) : ℝ :=
  cicMagnitude R x * firMagnitude (stage2Taps R) 4 x * firMagnitude (stage3Taps R) 2 x * firMagnitude (stage5Taps R) 1 x

/-- The decimator's response as R301 gives it. The free coefficients are those of assumption 23: a claim that rests on the
response has this as its premise. -/
def DecimatorResponse (R : Nat) : Prop :=
  (∀ x : ℝ, 0 ≤ x → x ≤ 0.45 → GainWithin (decimMagnitude R x) (-0.05) 0.05) ∧
  (∀ x : ℝ, 0.55 ≤ x → x ≤ R / 2 → decimMagnitude R x ≤ (10 : ℝ) ^ (-100 / 20 : ℝ))

/-- Every signature of the attestation key verifies under the device's public key (R471; assumption 61). -/
def AttestSigns : Prop :=
  ∀ digest : Bytes, ecdsaVerify (partStr 0x6403 0x02) digest (fitBytes 96 (Config.sign digest)) = true

/-! ## Messages -/

/-- A message m reaches the control processor when a command of arrival carries m0 (R406 to R408, R412, R469): Yexel takes
messages, no response is held, no message waits and no write to the MRAM goes on; a datagram names the Yexel port of its MAC,
finds ring 1 and is neither too long nor excluded; on the host SPI port (transport 6) m is the oldest of the input buffer and the
outgoing queue has a place; it is well formed, and RECOVERY takes it. -/
def Arrives (s : State) (src : Source) (m0 m : Bytes) : Prop :=
  s.yexelUp src.transport = true ∧ s.ctl.held = none ∧ s.ctl.inbox = [] ∧ s.power.mram = none ∧ malformed m = false ∧
  ((src.transport < 6 ∧ m = m0 ∧ s.on 0x4F00 src.transport 0x05 = true ∧ src.dport = s.g 0x4F00 src.transport 0x06 ∧
      (s.on 0x4E00 1 0x01 = true ∨ mget [] s.net.rings 1 ≠ []) ∧ s.datagramBad src m0 = false ∧ s.romOnly = false) ∨
   (src.transport = 6 ∧ (∃ r, s.ctl.spiIn = m :: r) ∧ s.ctl.spiOut.length < 32 ∧ (s.romOnly = true → (msgOf m).host = 0)))

/-- A message names the open session y of its host, its tag is right, and its sequence is accepted (R416, R417). -/
def Accepted (s : State) (m : Bytes) (y : Session) : Prop :=
  (s.host (msgOf m).host).sess = some y ∧ y.id = (msgOf m).session ∧
  (hmacSha256 y.ks (msgOf m).covered).take 16 = (msgOf m).tag ∧ y.judge (msgOf m).seq (msgOf m).tag = .accepted

/-- Entries that show the end of the upload of filter set data that host h has under way (R117). -/
def UploadShown (s : State) (h k : Nat) : Prop :=
  ∃ x, (s.host h).xfer = some x ∧ kIdx x.key = 0x3A00 ∧ kSub x.key = 0x01 ∧ kIdx k = 0x3A00 ∧ kInst k = kInst x.key ∧
    (kSub k = 0x09 ∨ kSub k = 0x0A)

/-- Host h changes as told, but for its notification records, and of the control fields nothing else does. -/
def HostBecomes (s t : State) (h : Nat) (x : HostSt) : Prop :=
  (t.host h).still = x.still ∧ (∀ g, g ≠ h → (t.host g).still = (s.host g).still) ∧
  { t.ctl with hosts := [], fired := none } = { s.ctl with hosts := [], fired := none }

/-- A Sprinkler datagram m reaches a device with a role as R257 and R262 say: its tag holds, its group, version, rate and
epoch are the device's own, and the device is not in MISMATCH. -/
def SprkHeard (s : State) (m : Bytes) : Prop :=
  s.g 0x5400 0 0x02 ≠ 0 ∧ s.dgramTag m = true ∧ fieldLE m 2 2 = s.g 0x5400 0 0x03 ∧ fieldLE m 0 1 = 1 ∧
  (dgramOf m).rate = s.fA ∧ (dgramOf m).epoch = s.g 0x5400 0 0x0F ∧ s.sprkState ≠ 5

/-- The last pair of a table that names a number. -/
def LastOf {α : Type} (l : List (Nat × α)) (k : Nat) (v : α) : Prop :=
  ∃ l1 l2, l = l1 ++ (k, v) :: l2 ∧ ∀ p ∈ l2, p.1 ≠ k

/-! ## Resets -/

/-- The state with MRAM as a boot reads it: a slot whose write the reset cut short is empty (R353), and of the two
copies of the system area the one that R438 chooses is in force (R468). -/
def State.mramRead (s : State) (b : BootIn) : State := ((Tx.begin s).mramCut.systemChoose b).cur

/-- The copy of the system area that a boot uses, of those that are valid and do not read wrong (R438, R468). -/
def State.systemAt (s : State) (b : BootIn) : Option Nat :=
  newerOf (s.power.sys0.valid && !bit b.mramBad 2) (s.power.sys1.valid && !bit b.mramBad 3) s.power.sys0.seq s.power.sys1.seq

/-- What a reset of the whole device leaves whose boot ended in RECOVERY or manufacturing mode at stage 2 (R458 to R460, R469),
where m is the state with MRAM as the boot reads it: the reset is reported and counted, the straps are latched, every block is as
after reset, and MRAM holds what it held. -/
structure AfterReset (m : State) (b : BootIn) (kind cause : Nat) (t : State) : Prop where
  kindIs : t.g 0x6501 0 0x05 = kind
  causeIs : t.g 0x6501 0 0x06 = cause
  counted : t.g 0x6501 0 (0x08 + kind) = (m.g 0x6501 0 (0x08 + kind) + 1) % 2 ^ 32
  strap : t.g 0x0002 0 0x02 = b.mode % 4
  state : t.g 0x6500 0 0x01 = 3
  powered : t.clocked = true
  stage : t.power.stage = 2
  packs : t.power.packs = m.power.packs ∧ t.power.mram = none
  slots : t.power.slot0 = m.power.slot0 ∧ t.power.slot1 = m.power.slot1
  store : t.store = { m.store with run := none, keys := [], changed := none }
  audio : t.scene = Scene.init ∧ t.geo = Geo.init ∧ t.render = Render.init ∧ t.corr = Corr.init ∧ t.maps = Maps.init ∧
    t.engines = Engines.init
  links : t.serial = Serial.init ∧ t.net = Net.init ∧ t.time = TimeSt.init ∧ t.sprk = Sprk.init
  rest : t.hedge = Hedge.init ∧ t.meas = Meas.init ∧ t.pool = Pool.init ∧ t.mem = Mem.init ∧ t.ctl = Control.init

/-- A boot with the straps of a normal one that hangs in no stage (R457, R465). -/
abbrev normalBoot (b : BootIn) : Prop := (b.mode % 4 = 0 ∨ b.mode % 4 = 3) ∧ b.failAt = none

/-- RECOVERY is asked for by a device reset outside RECOVERY (R469). -/
abbrev State.asksRecovery (s : State) : Prop := s.g 0x6400 0 0x08 = 1 ∧ s.g 0x6400 0 0x01 = 0

/-- The block runs the image of slot i (R465, R466, R473): the supplies are on, BYPASS_N is high, no failure of the boot is counted,
and the block is in the start state: in IDLE with stages 13 to 15 still to come, or in ACTIVE with the engines running and every
stage past. -/
structure Booted (i : Nat) (t : State) : Prop where
  image : t.g 0x6400 0 0x02 = i % 2 ^ 8
  failures : t.g 0x6400 0 0x09 = 0
  supplies : t.g 0x6500 0 0x11 = 1 ∧ t.g 0x6500 0 0x12 = 1
  state : t.g 0x6500 0 0x01 = (if t.g 0x6500 0 0x04 = 2 then 2 else 1)
  done : t.g 0x6400 0 0x11 = (if t.g 0x6500 0 0x04 = 2 then 2 else 1)
  engines : t.engines.running = (t.g 0x6500 0 0x04 != 2)
  stage : t.power.stage = (if t.g 0x6500 0 0x04 = 2 then 12 else 15)

/-- What a normal boot leaves (R458 to R460, R465, R466), where m is the state with MRAM as the boot reads it: the reset is reported
and counted, the straps are latched, and the image of the slot chosen runs, or else that of the other slot; where neither may be
started, the block is in RECOVERY from stage 4. -/
structure AfterBoot (m : State) (b : BootIn) (kind cause : Nat) (t : State) : Prop where
  kindIs : t.g 0x6501 0 0x05 = kind
  causeIs : t.g 0x6501 0 0x06 = cause
  counted : t.g 0x6501 0 (0x08 + kind) = (m.g 0x6501 0 (0x08 + kind) + 1) % 2 ^ 32
  strap : t.g 0x0002 0 0x02 = b.mode % 4
  powered : t.clocked = true
  runs : match [m.g 0x6400 0 0x03, 1 - m.g 0x6400 0 0x03].find? m.slotUsable with
    | some i => Booted i t
    | none => t.g 0x6500 0 0x01 = 3 ∧ t.g 0x6400 0 0x01 = 1 ∧ t.power.stage = 4 ∧ t.engines.running = false

/-- What a reset of the whole device leaves of MRAM (R353, R459, R468): the packs, with one whose write had ended, and the images of
the Leaves, a Leaf valid or not as it was unless it reads wrong; the powered hours of the copy of the system area that the boot
chooses, and 0 where neither is valid. -/
def MramKept (s : State) (b : BootIn) (t : State) : Prop :=
  (t.power.packs = match s.power.mram with
    | some r => if r.place < 8 ∧ r.good = true ∧ r.ends ≤ s.clock then mset r.place r.image s.power.packs else s.power.packs
    | none => s.power.packs) ∧
  t.power.hours = (match s.systemAt b with
    | none => 0
    | some i => if i = s.power.sysAt then s.power.hours else (s.power.sys i).hours) ∧
  (∀ i, t.store.leaf i = { s.store.leaf i with valid := (t.store.leaf i).valid }) ∧
  (∀ i, i < 2 → bit b.mramBad i = false → t.store.leaf i = s.store.leaf i)

end Sys2Proof.Machine
end

