-- ==== Sys2Proof/Certificates/Slice0/Obligations.lean ====
section
/-! DEFINITION. Statements for the provers: what the commands of each family do and where they complete, their frames, the
invariant of the dictionary, the queue. -/

open Sys2Proof Sys2Proof.Machine

/-- A step takes the command at the front of the queue and runs it on the state with the queue's rest; with no command
waiting and no write to the MRAM that has ended the block idles (the model's choice, assumptions 1 and 84). -/
def Obligations.StepRunsFront : Prop :=
  ∀ (s : State), (∀ c l, s.pending = c :: l → step s = exec c { s with pending := l }) ∧
    (s.pending = [] → s.mramEnded = false → step s = .next s)

/-- Every step answers a next state, whatever commands wait, with the queue shorter by the command it took: no command
of the block stops it, and none puts a command into the queue. -/
def Obligations.StepServesQueue : Prop :=
  ∀ (s : State), ∃ t, step s = .next t ∧ t.pending = s.pending.tail

/-- The state after reset meets the invariant of the dictionary. -/
def Obligations.InvAtReset : Prop :=
  Inv State.reset

/-- Every step from a state that meets the invariant leads to one that meets it: the dictionary and the byte strings
stay in their canonical form, and every listed value is of an entry that exists and is one that the entry can hold
(R6). -/
def Obligations.InvKeptByStep : Prop :=
  ∀ (s t : State), Inv s → step s = .next t → Inv t

/-- In STANDBY and without supplies a command changes nothing (R473, R474, R504), but for the four that the always-on
domain and the supply monitor carry out: POWER_ON, PIN_RESET, SUPPLY_LOSS and WAKE; and in STANDBY a whole frame on a MAC
whose wake is armed, which wakes nothing, is counted as examined (R203). What is not examined, a frame with an error or
while no wake is armed, is the model's choice (assumption 59). -/
def Obligations.UnclockedChangesNothing : Prop :=
  ∀ (s : State) (c : Instr), s.clocked = false → (∀ b, c ≠ .powerOn b) → (∀ b, c ≠ .pinReset b) → c ≠ .supplyLoss →
    (∀ a n u f b, c ≠ .wake a n u f b) → ∃ t, exec c s = .next t ∧
      Kept (fun _ => False) (match c with
        | .receiveFrame .. => if s.power.supplyDown then [.result, .outs] else [.result, .outs, .power]
        | _ => [.result, .outs]) s t ∧
      t.power = (match c with
        | .receiveFrame n f err _ =>
          if s.power.standby && !s.power.supplyDown && !err && s.examines n f && !s.wakesMagic n f &&
            !(List.range 4).any (fun w => s.wakesPattern n w f)
          then { s.power with examined := s.power.examined + 1 } else s.power
        | _ => s.power)

/-- A write and a read of an instance outside the range of its index answer NO_ENTRY (R4) and change nothing. -/
def Obligations.InstanceRangeHolds : Prop :=
  ∀ (s : State) (h : Nat) (o : OpFields) (bad : List Nat) (b : Block), s.clocked = true → o.rsv = 0 → o.flags = 0 →
    blockOf o.idx = some b → (∃ e ∈ b.ents, e.sub = o.sub) → max b.insts 1 ≤ o.inst →
    (∃ t, exec (.write h o) s = .next t ∧ t.result = ⟨some stNoEntry, []⟩ ∧ Kept (fun _ => False) [.result, .outs] s t) ∧
    (o.data = [] →
      ∃ t, exec (.read h o bad) s = .next t ∧ t.result = ⟨some stNoEntry, []⟩ ∧ Kept (fun _ => False) [.result, .outs] s t)

/-- A write of flags clears those whose bit is 1 (Table 0.3, R8) but for those that hardware set in the same cycle, which
stay 1 (R9; a cycle is one reading of the time counter, assumption 82), for every W1C entry but those that the end of a
command may set again; the operation answers OK. A write of a numeric RW entry without a rule of its own takes the
value (R8, R424) and changes nothing else: those of the Planting plan, zones, geometry globals, Trellis sinks, path
queries, sample clocks, timestamp corrections, captures, recorder readouts, wake sources, ageing, margin plan and
DRAM margins. -/
def Obligations.WritesComplete : Prop :=
  (∀ (s : State) (h : Nat) (o : OpFields) (e : Entry), s.clocked = true → s.writeCheck h o = stOK →
      entryOf o.idx o.inst o.sub = some e → e.acc = .w1c → noted (K o.idx o.inst o.sub) = false →
      ∃ t, exec (.write h o) s = .next t ∧ t.result = ⟨some stOK, []⟩ ∧
        t.g o.idx o.inst o.sub = fit e (clearFlags (s.g o.idx o.inst o.sub)
          (clearBits (leNat o.data) (s.cycleOf (K o.idx o.inst o.sub)).set)) ∧
        Kept (· = K o.idx o.inst o.sub) [.result, .outs] s t) ∧
  (∀ (s : State) (h : Nat) (o : OpFields) (e : Entry), s.clocked = true → s.writeCheck h o = stOK →
      o.idx ∈ [0x3000, 0x3200, 0x3300, 0x3C02, 0x3F01, 0x4600, 0x5010, 0x5200, 0x5D81, 0x6502, 0x6600, 0x6601, 0x6602] →
      entryOf o.idx o.inst o.sub = some e → e.acc = .rw → e.ty.isBytes = false →
      ∃ t, exec (.write h o) s = .next t ∧ t.result = ⟨some stOK, []⟩ ∧
        t.g o.idx o.inst o.sub = fit e (leNat o.data) ∧ Kept (· = K o.idx o.inst o.sub) [.result, .outs] s t)

/-- A write that a check of R424 refuses answers that check's status and changes nothing, for every entry but the three
that report refused data themselves (R117, R130, R153); a write of a BLOB ends the host's write transfer (R413), and with it
an upload of filter set data under way (R117). -/
def Obligations.RefusedWriteChangesNothing : Prop :=
  ∀ (s : State) (h : Nat) (o : OpFields), s.clocked = true → s.writeCheck h o ≠ stOK →
    ((o.idx, o.sub) ∉ [(0x3A00, 0x01), (0x3B00, 0x01), (0x3C00, 0x01)] ∨ s.writeCheck h o ≠ stBadType) →
    ∃ t, exec (.write h o) s = .next t ∧ t.result = ⟨some (s.writeCheck h o), []⟩ ∧
      (namesBlob o = false → Kept (fun _ => False) [.result, .outs] s t) ∧
      (namesBlob o = true → HostBecomes s t h { s.host h with xfer := none } ∧
        Kept (UploadShown s h) [.result, .outs, .ctl] s t)

/-- Reading a numeric entry returns its value and changes nothing (R6, R411): for every entry which is not of a path query
(R165). A staged read returns the staged bytes (R411, R430),
a segment read at offset 0 takes a snapshot of a BLOB and returns its bytes (R414), and a NOP with no data restarts the
session's timeout (R411, R418) and answers OK where its entry exists, NO_ENTRY where it does not (R451); in RECOVERY it answers
only host 0 on the indexes that the ROM serves (R469). A first segment that is not the last begins a write transfer
(R413), for every BLOB that the host may write; filter set data only into a set without uses (R117). -/
def Obligations.OperationsComplete : Prop :=
  (∀ (s : State) (h : Nat) (o : OpFields) (bad : List Nat) (e : Entry), s.clocked = true → s.readCheck h o = stOK →
      o.data = [] → o.flags = 0 → entryOf o.idx o.inst o.sub = some e → e.ty.isBytes = false →
      o.idx ≠ 0x3F01 →
      ∃ t, exec (.read h o bad) s = .next t ∧
        t.result = ⟨some stOK, leBytes e.ty.size (s.readNum h o.idx o.inst o.sub)⟩ ∧
        Kept (fun _ => False) [.result, .outs] s t) ∧
  ((∀ (s : State) (h : Nat) (o : OpFields) (d : Bytes), s.clocked = true → s.readCheck h { o with flags := 1 } = stOK →
      o.flags = 0 → o.data = [] → mget? (s.host h).stage (K o.idx o.inst o.sub) = some d → up4 d.length ≤ s.aloneRoom h →
      ∃ t, exec (.stagedRead h o) s = .next t ∧ t.result = ⟨some stOK, d⟩ ∧ Kept (fun _ => False) [.result, .outs] s t) ∧
    (∀ (s : State) (h : Nat) (o : OpFields) (bad : List Nat) (e : Entry), s.clocked = true → s.readCheck h o = stOK →
      o.flags = 0 → o.data.length = 8 → fieldLE o.data 0 4 = 0 → entryOf o.idx o.inst o.sub = some e → e.ty = .blob →
      ¬ (o.idx = 0x5D81 ∧ o.sub = 0x04) →
      up4 (8 + min (fieldLE o.data 4 4) (s.readBytes h o.idx o.inst o.sub).length) ≤ s.aloneRoom h →
      ∃ t, exec (.readSegment h o bad) s = .next t ∧
        t.result = ⟨some stOK, segmentBytes (s.readBytes h o.idx o.inst o.sub) 0 (fieldLE o.data 4 4)⟩ ∧
        (t.host h).snap = some ⟨K o.idx o.inst o.sub, s.readBytes h o.idx o.inst o.sub, s.clock⟩ ∧
        Kept (fun _ => False) [.result, .outs, .ctl] s t) ∧
    (∀ (s : State) (h : Nat) (o : OpFields) (y : Session), s.clocked = true → o.flags = 0 → o.rsv = 0 → o.data = [] →
      (s.host h).sess = some y → (s.romOnly = true → h = 0 ∧ recoveryIndex o.idx = true) →
      ∃ t, exec (.nop h o) s = .next t ∧
        t.result = ⟨some (if (entryOf o.idx o.inst o.sub).isSome then stOK else stNoEntry), []⟩ ∧ (t.host h).sess = some { y with last := s.clock } ∧
        Kept (fun _ => False) [.result, .outs, .ctl] s t)) ∧
  (∀ (s : State) (h : Nat) (o : OpFields), s.clocked = true → s.accessCheck h o = stOK → namesBlob o = true →
      8 ≤ o.data.length → fieldLE o.data 0 4 = 0 → totalTooLong o (fieldLE o.data 4 4) = false →
      (o.data.drop 8).length < fieldLE o.data 4 4 → (o.idx = 0x3A00 → s.setUses o.inst = 0) →
      ∃ t, exec (.writeSegment h o) s = .next t ∧ t.result = ⟨some stOK, []⟩ ∧
        (t.host h).xfer = some ⟨K o.idx o.inst o.sub, fieldLE o.data 4 4, o.data.drop 8, s.clock⟩)

/-- OPEN, REQUEST and CLOSE (R409 to R419). A valid OPEN opens a session with a new key; a request's operations run in
order and its response, tagged under the session key, is kept for repetition; a CLOSE closes the session. -/
def Obligations.MessagesComplete : Prop :=
  (∀ (s : State) (src : Source) (m0 m kh : Bytes), s.clocked = true → Arrives s src m0 m → (msgOf m).kind = 0 →
    s.openKey (msgOf m).host src = some kh → (hmacSha256 kh (msgOf m).covered).take 16 = (msgOf m).tag →
    s.on 0x1000 (msgOf m).host 0x01 = true → s.transportOk (msgOf m).host src = true →
    (s.host (msgOf m).host).opens ≤ (msgOf m).seq →
    ∃ t y, exec (.open_ src m0) s = .next t ∧ (t.host (msgOf m).host).sess = some y ∧
      y.id = 1 + Config.free s.free % (2 ^ 32 - 1) ∧
      y.ks = hmacSha256 kh ([0x59, 0x58, 0x53, 0x4B] ++ (msgOf m).body ++ leBytes 16 (Config.free (s.free + 1)) ++
        leBytes 4 y.id ++ leBytes 1 (msgOf m).host) ∧
      y.src = src ∧ y.high = 0 ∧ (t.host (msgOf m).host).opens = (msgOf m).seq + 1 ∧ t.g 0x1000 (msgOf m).host 0x08 = 1) ∧
  (∀ (s : State) (src : Source) (m0 m : Bytes) (y : Session) (ops : List (Bytes × OpFields)), s.clocked = true →
    Arrives s src m0 m → (msgOf m).kind = 2 → Accepted s m y → opsOf (msgOf m).count (msgOf m).body = some ops →
    let h := (msgOf m).host
    let u0 : Tx s := if src.transport = 6 then (Tx.start s).setCtl { s.ctl with spiIn := s.ctl.spiIn.tail }
      else (Tx.start s).ringPop 1
    let r := Tx.operations h (largest src.transport) ops [] [] ((u0.acceptSeq h y src (msgOf m).seq).tally 0x1000 h 0x0C)
    ∀ z, r.2.1 = [] → r.2.2.1 = none → (r.2.2.2.cur.host h).sess = some z →
    ∃ t, exec (.request src m0) s = .next t ∧
      (t.host h).sess = some { z with cache := (((msgOf m).seq, (msgOf m).tag,
        yexelMsg z.ks 3 h stOK z.id (msgOf m).seq r.1.length (r.1.flatMap resultBytes)) :: z.cache).take 8 }) ∧
  (∀ (s : State) (src : Source) (m0 m : Bytes) (y : Session), s.clocked = true →
    Arrives s src m0 m → (msgOf m).kind = 5 → Accepted s m y →
    ∃ t, exec (.close src m0) s = .next t ∧ (t.host (msgOf m).host).sess = none ∧
      (t.host (msgOf m).host).stage = (s.host (msgOf m).host).stage ∧ t.g 0x1000 (msgOf m).host 0x08 = 0)

/-- What ends by itself (R413, R414, R418): a session without a request for its timeout closes, with its transfer, its
snapshot and its row selection, and shows that it did; a write transfer without a segment and a read snapshot without a
read for 10 s go, the transfer's bytes discarded. NOTIFY (R429): once the interval has passed and records wait, up to 64 of
them, the one that tells of lost records first, leave in one message of the session and are counted. On the host SPI port the
message joins the outgoing queue; on a MAC that sends nothing it leaves as one datagram. -/
def Obligations.HostTimersComplete : Prop :=
  (∀ (s : State) (h : Nat), s.clocked = true → h < 8 →
      (∀ y, (s.host h).sess = some y → y.last + msC (s.g 0x1000 h 0x07) ≤ s.clock →
        ∃ t, exec (.sessionTimeout h) s = .next t ∧
          HostBecomes s t h { s.host h with sess := none, xfer := none, snap := none } ∧
          t.maps = { s.maps with rowSel := mdel h s.maps.rowSel, rowOrg := mdel h s.maps.rowOrg } ∧
          t.g 0x1000 h 0x08 = 0 ∧ t.g 0x1000 h 0x09 = 0 ∧ t.g 0x1000 h 0x0A = 0xFF ∧ t.g 0x1001 0 0x01 = t.sessions ∧
          (∀ e, entryOf 0x1000 h 0x11 = some e → t.g 0x1000 h 0x11 = fit e (setFlags (s.g 0x1000 h 0x11) 4)) ∧
          Kept (fun k => UploadShown s h k ∨ k = K 0x1000 h 0x08 ∨ k = K 0x1000 h 0x09 ∨ k = K 0x1000 h 0x0A ∨
            k = K 0x1000 h 0x11 ∨ k = K 0x1001 0 0x01) [.result, .outs, .maps, .ctl] s t) ∧
      (∀ x, (s.host h).xfer = some x → x.last + secC 10 ≤ s.clock →
        ∃ t, exec (.transferAbandon h) s = .next t ∧ HostBecomes s t h { s.host h with xfer := none } ∧
          (∀ f, f < 1024 → x.key = K 0x3A00 f 0x01 → t.g 0x3A00 f 0x09 = 0 ∧ t.g 0x3A00 f 0x0A = 0xFFFF) ∧
          Kept (UploadShown s h) [.result, .outs, .ctl] s t) ∧
      (∀ x, (s.host h).snap = some x → x.last + secC 10 ≤ s.clock →
        ∃ t, exec (.snapshotRelease h) s = .next t ∧ HostBecomes s t h { s.host h with snap := none } ∧
          Kept (fun _ => False) [.result, .outs, .ctl] s t)) ∧
  (∀ (s : State) (h : Nat) (y : Session), s.clocked = true → s.ctl.down = false → h < 8 → s.right h 5 = true →
      (s.host h).sess = some y → ((s.host h).recs ≠ [] ∨ (s.host h).lost ≠ 0) → (s.host h).noted + msC (s.g 0x1200 h 0x03) ≤ s.clock →
      s.canNotify y = true →
      let lost : List Rec := if (s.host h).lost = 0 then [] else [⟨3, 0, 0, 0, 0, (s.host h).lost, (s.host h).lostAt⟩]
      let rs := lost ++ (s.host h).recs.take (64 - lost.length)
      let m := yexelMsg y.ks 4 h 0 y.id (y.notes + 1) rs.length (rs.flatMap Rec.bytes)
      ∃ t, exec (.notify h) s = .next t ∧ (t.host h).noted = s.clock ∧
        (t.host h).sess = some { y with notes := y.notes + 1 } ∧
        t.g 0x1200 h 0x04 = (s.g 0x1200 h 0x04 + 1) % 2 ^ 32 ∧
        t.g 0x1200 h 0x05 = (s.g 0x1200 h 0x05 + rs.length) % 2 ^ 32 ∧
        (s.watches h = [] → (t.host h).recs = (s.host h).recs.drop (64 - lost.length) ∧ (t.host h).lost = 0) ∧
        (y.src.transport = 6 → t.ctl.spiOut = s.ctl.spiOut ++ [m]) ∧
        (y.src.transport < 6 → s.macIdle y.src.transport = true → t.outs = [.yexel y.src.transport y.src.dport y.src.addr y.src.port m]))

/-- The host SPI port (R407): a whole write enters the input buffer; a status read returns READY, DATA, ERROR and the
length of the oldest message, and clears ERROR; a whole read takes the oldest message off the queue, and nothing else
happens where no message waits for its turn; an unknown command is counted. -/
def Obligations.HostSpiCompletes : Prop :=
  ∀ s : State, s.clocked = true →
    (∀ len d, 0 < len → len ≤ 8192 → len ≤ d.length → s.spiReady = true →
      ∃ t, exec (.hspiWrite len d) s = .next t ∧ t.ctl.spiIn = s.ctl.spiIn ++ [d.take len] ∧
        t.outs = [.miso (zeros (2 + d.length))] ∧ Kept (fun _ => False) [.result, .outs, .ctl] s t) ∧
    (∀ clocks, ∃ t, exec (.hspiStatus clocks) s = .next t ∧ t.ctl.spiErr = false ∧
        t.outs = [.miso (misoBytes clocks (leBytes 1 (b2n s.spiReady + 2 * b2n (!s.ctl.spiOut.isEmpty) + 4 * b2n s.ctl.spiErr)
          ++ [0] ++ leBytes 2 (s.ctl.spiOut.headD []).length))] ∧
        t.ctl.spiOut = s.ctl.spiOut ∧ Kept (fun _ => False) [.result, .outs, .ctl] s t) ∧
    (∀ clocks m r, s.ctl.spiOut = m :: r → 2 + m.length ≤ clocks → (s.ctl.down = true ∨ s.ctl.inbox = []) →
      ∃ t, exec (.hspiRead clocks) s = .next t ∧ t.ctl.spiOut = r ∧
        t.outs.head? = some (.miso (misoBytes clocks (leBytes 2 m.length ++ m))) ∧
        Kept (fun _ => False) [.result, .outs, .ctl] s t) ∧
    (∀ cmd, cmd = 0 ∨ 3 < cmd →
      ∃ t, exec (.hspiUnknownCommand cmd) s = .next t ∧ t.g 0x1001 0 0x08 = (s.g 0x1001 0 0x08 + 1) % 2 ^ 32 ∧
        bit (t.g 0x1001 0 0x09) 0 = true)

/-- Safe-load (R430, R431, R433): a staged write puts the bytes into the host's stage and leaves the value; a commit of
a stage is pending for t_c, TOO_LATE where the time asked for had come; a cancel leaves the values staged; a discard
empties the stage. A commit lands (R432): at t_c every staged value of a staged entry comes into force together and
the stage empties; a staged plan lands at B, unless the engines stand for a retraining (R393). -/
def Obligations.SafeLoadCompletes : Prop :=
  ((∀ (s : State) (h : Nat) (o : OpFields) (e : Entry), s.clocked = true → s.writeCheck h o = stOK →
      entryOf o.idx o.inst o.sub = some e → e.acc = .rws → s.ctl.commit = none → (s.host h).stage.length < 4096 →
      ∃ t, exec (.stagedWrite h o) s = .next t ∧ t.result = ⟨some stOK, []⟩ ∧
        mget? (t.host h).stage (K o.idx o.inst o.sub) = some o.data ∧ Kept (fun _ => False) [.result, .outs, .ctl] s t) ∧
    (∀ (s : State) (h : Nat) (d : Bytes), s.clocked = true → h < 8 → s.writeCheck h (opOf 0x1300 0 0x01 d) = stOK →
      s.ctl.commit = none → s.on 0x3F00 0 0x03 = false → (s.host h).stage ≠ [] → leNat d ≤ s.now + 2 ^ 31 →
      (stagePlan (s.host h).stage = true → ((Tx.begin s).stageApply (s.host h).stage).cur.planCheck = none) →
      ∃ t tc, exec (.commit h d) s = .next t ∧ tc = (if leNat d ≤ s.now + 32 then s.now + 33 else leNat d) ∧
        t.ctl.commit = some ⟨h, tc, stagePlan (s.host h).stage, nextEval tc, false, false⟩ ∧ (t.host h).stage = (s.host h).stage ∧
        t.g 0x1300 0 0x03 = 1 ∧ t.g 0x1300 0 0x04 = h ∧ t.g 0x1300 0 0x05 = tc % 2 ^ 64 ∧
        t.result = ⟨some (if leNat d ≠ 0 ∧ leNat d ≤ s.now + 32 then stTooLate else stOK), []⟩) ∧
    (∀ (s : State) (h : Nat) (d : Bytes) (c : Commit), s.clocked = true → s.writeCheck h (opOf 0x1300 0 0x02 d) = stOK →
      s.ctl.commit = some c → c.landed = false → s.now + 32 < c.tc →
      ∃ t, exec (.cancel h d) s = .next t ∧ t.ctl.commit = none ∧ (∀ g, (t.host g).stage = (s.host g).stage) ∧
        t.g 0x1300 0 0x03 = 0 ∧ t.g 0x1300 0 0x0A = (s.g 0x1300 0 0x0A + 1) % 2 ^ 32) ∧
    (∀ (s : State) (h n : Nat) (d : Bytes), s.clocked = true → s.writeCheck h (opOf 0x1301 n 0x02 d) = stOK →
      (∀ c, s.ctl.commit = some c → c.host ≠ n) →
      ∃ t, exec (.discardStage h n d) s = .next t ∧ (t.host n).stage = [] ∧
        Kept (fun _ => False) [.result, .outs, .ctl] s t)) ∧
  ((∀ (s : State) (c : Commit), s.clocked = true → s.ctl.commit = some c → c.landed = false → c.tc ≤ s.now →
      s.commitWaits = false →
      ∃ t, exec .commitLands s = .next t ∧
        (∀ k d e, LastOf (s.host c.host).stage k d → entryAt k = some e → e.acc = .rws → t.get k = fit e (leNat d)) ∧
        (c.plan = false → t.ctl.commit = none ∧ (t.host c.host).stage = [] ∧
          t.g 0x1300 0 0x08 = (s.g 0x1300 0 0x08 + 1) % 2 ^ 32) ∧
        (c.plan = true → t.ctl.commit = some { c with landed := true, loaded := true } ∧ t.g 0x1300 0 0x03 = 2)) ∧
    (∀ (s : State) (c : Commit), s.clocked = true → s.ctl.commit = some c → c.landed = true → c.landB ≤ s.now →
      s.commitWaits = false →
      ∃ t, exec .planLands s = .next t ∧ t.ctl.commit = none ∧ (t.host c.host).stage = [] ∧
        t.g 0x3300 0 0x18 = c.landB % 2 ^ 64 ∧ t.g 0x1300 0 0x08 = (s.g 0x1300 0 0x08 + 1) % 2 ^ 32))

/-- Saves begin (R420, R434, R436, R440 to R442): with no save running, SAVE, a due AUTOSAVE and a key write write an
image of the values in force into the Leaf that is not in force, RESTORE_DEFAULTS an image without records, unless a key
write has joined it (then one of default values with that key, the model's choice of assumption 15); the old image of that
Leaf is invalid from the first step on. A save ends (R436, R437): an image that reads back right makes its Leaf the one in
force with the next sequence; a second mismatch fails the save and leaves the Leaf in force; the first writes the image
once more. No message waits. -/
def Obligations.SavesComplete : Prop :=
  (∀ s : State, s.clocked = true → s.store.run = none →
      let leaf := if s.g 0x1400 0 0x05 = 0 then 1 else 0
      (∀ h d, s.writeCheck h (opOf 0x1400 0 0x01 d) = stOK →
        ∃ t r, exec (.save h d) s = .next t ∧ t.store.run = some r ∧ r.leaf = leaf ∧
          r.image = s.image.withKeys s.store.keys ∧ (t.store.leaf leaf).valid = false ∧ t.g 0x1400 0 0x02 = 1 ∧
          t.result = ⟨none, []⟩) ∧
      (∀ c, s.store.changed = some c → s.g 0x1400 0 0x03 ≠ 0 → c + msC (s.g 0x1400 0 0x03) ≤ s.clock →
        ∃ t r, exec .autosave s = .next t ∧ t.store.run = some r ∧ r.leaf = leaf ∧
          r.image = s.image.withKeys s.store.keys ∧ (t.store.leaf leaf).valid = false ∧ t.g 0x1400 0 0x02 = 1) ∧
      (∀ h d, s.writeCheck h (opOf 0x1400 0 0x04 d) = stOK →
        ∃ t r, exec (.restoreDefaults h d) s = .next t ∧ t.store.run = some r ∧ r.leaf = leaf ∧
          r.image = (if s.store.keys = [] then Image.none_ else State.reset.image.withKeys s.store.keys) ∧
          (t.store.leaf leaf).valid = false ∧ t.g 0x1400 0 0x02 = 1) ∧
      (∀ h n d, s.writeCheck h (opOf 0x1000 n 0x02 d) = stOK →
        ∃ t r, exec (.keyWrite h n d) s = .next t ∧ t.store.run = some r ∧ r.leaf = leaf ∧
          r.image = s.image.withKeys (s.store.keys ++ [(n, d)]) ∧ r.keys = s.store.keys ++ [(n, d)] ∧
          t.gb 0x1000 n 0x02 = s.gb 0x1000 n 0x02 ∧ t.result = ⟨none, []⟩)) ∧
  (∀ (s : State) (r : SaveRun), s.clocked = true → s.ctl.down = false → s.store.run = some r → s.ctl.inbox = [] → r.leaf < 2 →
      r.next = none →
      (r.image.bytes ≤ 2097152 →
        ∃ t, exec (.saveEnd true) s = .next t ∧ t.store.run = none ∧
          t.store.leaf r.leaf = ⟨true, (s.g 0x1400 0 0x06 + 1) % 2 ^ 32, r.at_, s.g 0x0000 0 0x07, r.image⟩ ∧ t.g 0x1400 0 0x05 = r.leaf ∧
          t.g 0x1400 0 0x06 = (s.g 0x1400 0 0x06 + 1) % 2 ^ 32) ∧
      (r.image.bytes ≤ 2097152 → r.again = false →
        ∃ t, exec (.saveEnd false) s = .next t ∧ t.store.run = some { r with again := true }) ∧
      (r.again = true →
        ∃ t, exec (.saveEnd false) s = .next t ∧ t.store.run = none ∧ t.store.leaf r.leaf = s.store.leaf r.leaf ∧
          t.g 0x1400 0 0x05 = s.g 0x1400 0 0x05 ∧ t.g 0x1400 0 0x0B = (s.g 0x1400 0 0x0B + 1) % 2 ^ 32))

/-- Owners (R422, R425): with no commit pending, a table of owners 0 to 7 is taken whole, and the records of
ASSIGN_RANGES give the tables that they lead to. -/
def Obligations.OwnersTake : Prop :=
  ∀ s : State, s.clocked = true → s.ctl.commit = none →
    (∀ h sub d, 1 ≤ sub → sub ≤ 0x0C → s.writeCheck h (opOf 0x1100 0 sub d) = stOK → (∀ b ∈ d, b.toNat ≤ 7) →
      ∃ t, exec (.ownerWrite h sub d) s = .next t ∧ t.gb 0x1100 0 sub = d) ∧
    (∀ h d tabs, s.writeCheck h (opOf 0x1100 0 0x0D d) = stOK → d.length % 8 = 0 →
      (chunks 8 d).foldl s.assignRecord (some []) = some tabs →
      ∃ t, exec (.assignRanges h d) s = .next t ∧ ∀ tb b, mget? tabs tb = some b → t.gb 0x1100 0 tb = b)

/-- A push (R42 to R46, R54): every push of whole records reports its records and acceptance time; a record that passes
the checks of R44 and finds a place stands in its object's queue with its effective time. Queue, transform and depth
(R49, R56, R106 to R109): a flush of an object that the Sprinkler does not replicate deletes the keyframes accepted
before it; a transform entry takes its value and a new glide starts from the transform in force; a depth that fits
and finds a place waits for its boundary; a repack waits for its boundary. -/
def Obligations.SceneComplete : Prop :=
  (∀ (s : State) (h : Nat) (d : Bytes), s.clocked = true → h < 8 → s.writeCheck h (opOf 0x2400 0 0x01 d) = stOK →
      d.length % 56 = 0 →
      ∃ t, exec (.keyframePush h d) s = .next t ∧ t.g 0x2401 h 0x02 = d.length / 56 % 65536 ∧
        t.g 0x2401 h 0x08 = s.now % 2 ^ 64 ∧
        (d.length = 56 → s.recordCheck (some h) s.now d = stOK → (s.track (fieldLE d 0 2)).queue.length < 256 →
          ∃ k ∈ (t.track (fieldLE d 0 2)).queue, k.time = (s.effective (some h) s.now d).1 ∧ k.tag = fieldLE d 4 4 ∧
            k.vals = recordVals d)) ∧
  (∀ s : State, s.clocked = true →
      (∀ h n d, s.writeCheck h (opOf 0x2000 n 0x0B d) = stOK → s.replicated n = false →
        ∃ t, exec (.flushQueue h n d) s = .next t ∧
          (t.track n).queue = (s.track n).queue.filter (fun k => s.scene.accNext ≤ k.acc)) ∧
      (∀ h sub d, 1 ≤ sub → sub ≤ 4 → s.writeCheck h (opOf 0x2800 0 sub d) = stOK →
        ∃ t, exec (.transformWrite h sub d) s = .next t ∧ t.g 0x2800 0 sub = leNat d ∧ t.scene.glideP = s.scene.xf ∧
          t.scene.glideJ = 0 ∧ t.scene.glideN = max 1 (ceilDiv (s.g 0x2800 0 0x05) 16)) ∧
      (∀ h n d b, s.writeCheck h (opOf 0x2000 n 0x08 d) = stOK → n < s.objects → s.on 0x3400 0 0x07 = false →
        sumN (((List.range s.objects).filter (· != n)).map (fun i => s.g 0x2000 i 0x08)) + leNat d ≤ furrowCells →
        leNat d ≠ s.g 0x2000 n 0x08 → (∀ p ∈ s.render.pend, p.obj = n → p.land ≠ nextEval s.now) →
        allocate (s.regions [n]) (leNat d) = some b →
        ∃ t, exec (.depthWrite h n d) s = .next t ∧ t.g 0x2000 n 0x08 = leNat d ∧
          t.render.pend = s.render.pend ++ [⟨n, leNat d, b, nextEval s.now⟩]) ∧
      (∀ h d, s.writeCheck h (opOf 0x3400 0 0x06 d) = stOK → s.on 0x3400 0 0x07 = false →
        ∃ t, exec (.repack h d) s = .next t ∧ t.render.repack = some (nextEval s.now) ∧ t.g 0x3400 0 0x07 = 1))

/-- The engines' windows (R83, R90, R93, R104, R107, R109): a window that is due evaluates boundary now + 32 and holds
its report until its close; the render window of B runs at B + 3; Furrow changes land together at their boundary. A
period starts (R93, R234): media time goes on by one, and the counter to the period's first cycle; with the engines
standing nothing of the audio path changes but for what a reset of the control processor ends and what a poisoned keyframe read
deletes, and nothing at all of the scene and the Trellis where the bus matrix has nothing to do. -/
def Obligations.PeriodsComplete : Prop :=
  (∀ s : State, s.clocked = true →
      (s.windowDue = true →
        ∀ bad, ∃ t, exec (.evaluationWindowOpen bad) s = .next t ∧ t.geo.last = some (s.now + 32) ∧
          t.geo.report.isSome = true ∧ t.now = s.now) ∧
      (∀ b rep, s.geo.last = some b → b ≤ s.now + 16 → s.geo.report = some rep →
        ∃ t, exec .evaluationWindowClose s = .next t ∧ t.geo = { s.geo with report := none }) ∧
      (∀ cells words, s.engines.running = true → s.now % 16 = 3 → s.render.blockEnd ≠ some (s.now - 3) →
        ∃ t, exec (.renderWindow cells words) s = .next t ∧ t.render.blockEnd = some (s.now - 3) ∧
          t.g 0x3400 0 0x01 = (s.g 0x3400 0 0x01 + 1) % 2 ^ 32) ∧
      (∀ l, s.furrowDue = some l →
        ∃ t, exec .depthChangeLands s = .next t ∧ t.render.pend = s.render.pend.filter (fun p => l < p.land)) ∧
      (∀ l, s.render.repack = some l → s.furrowDue = some l →
        ∃ t, exec .repackLands s = .next t ∧ t.render.repack = none ∧ t.g 0x3400 0 0x07 = 0 ∧
          t.g 0x3400 0 0x08 = l % 2 ^ 64)) ∧
  (∀ (s : State) (e : PeriodIn), s.clocked = true →
      ∃ t, exec (.periodStart e) s = .next t ∧ t.now = s.now + 1 ∧ t.clock = s.clockAt (s.now + 1) s.fA ∧
        (s.engines.running = false → t.geo = s.geo ∧ t.render = s.render ∧ t.corr = s.corr ∧
          t.maps = { s.maps with rowSel := t.maps.rowSel, rowOrg := t.maps.rowOrg } ∧
          (e.bus = [] → s.mem.waits = [] → s.mem.flights = [] → s.mem.poison = [] → s.mem.checks = [] →
            t.scene = s.scene ∧ t.maps = s.maps)))

/-- Filter sets (R117, R118): data that passes every check of R117 fills the set and is in preparation; a preparation
that completes makes it ready; a set without uses is erased. Grafts (R127 to R130): a request whose single record
passes every check and fits the budget waits for its start; at S the incoming set starts to warm, at S + W it fades
in, and after E it is in force. -/
def Obligations.CorrectionComplete : Prop :=
  (∀ (s : State) (n : Nat), s.clocked = true → 0 < n → n < 1024 →
      (∀ h d, s.writeCheck h (opOf 0x3A00 n 0x01 d) = stOK → s.setUses n = 0 → d.length = 384 + 4 * fieldLE d 4 4 →
        headerOk d = true → (∀ i < 16, biquadOk (biquad d i) = true) → (∀ x ∈ dataTaps d, tapOk x = true) →
        ∃ t, exec (.setDataUpload h n d) s = .next t ∧ t.gb 0x3A00 n 0x01 = d ∧ t.g 0x3A00 n 0x03 = 1 ∧
          t.g 0x3A00 n 0x04 = fieldLE d 4 4 ∧ t.g 0x3A00 n 0x09 = 0 ∧ t.result = ⟨some stOK, []⟩) ∧
      (s.g 0x3A00 n 0x03 = 1 → ∃ t, exec (.setReady n) s = .next t ∧ t.g 0x3A00 n 0x03 = 2 ∧
        Kept (· = K 0x3A00 n 0x03) [.result, .outs] s t) ∧
      (∀ h d, s.writeCheck h (opOf 0x3A00 n 0x08 d) = stOK → s.setUses n = 0 →
        ∃ t, exec (.setErase h n d) s = .next t ∧ t.gb 0x3A00 n 0x01 = [] ∧ t.g 0x3A00 n 0x03 = 0 ∧
          t.g 0x3A00 n 0x04 = 0)) ∧
  (∀ s : State, s.clocked = true →
      (∀ h d, h < 8 → s.writeCheck h (opOf 0x3B00 0 0x01 d) = stOK → d.length = 16 →
        s.graftCheck h s.now [] (graftRec d) = stOK → s.tapsAfter s.taps (graftRec d) ≤ s.tapBudget →
        (graftRec d).set ≠ s.futureSet (graftRec d).out → (s.chain (graftRec d).out).run = none →
        ∃ t, exec (.graftRequest h d) s = .next t ∧
          (t.chain (graftRec d).out).pend = some ((graftRec d).set, (graftRec d).law, (graftRec d).exp,
            if (graftRec d).flags = 1 ∨ (graftRec d).late s.now = true then s.now + 33 else (graftRec d).start) ∧
          t.result = ⟨some (if (graftRec d).late s.now then stTooLate else stOK), []⟩) ∧
      (∀ n set law e start, n < 512 → s.engines.running = true → (s.chain n).run = none →
        (s.chain n).pend = some (set, law, e, start) → start ≤ s.now →
        ∃ t, exec (.graftStart n) s = .next t ∧ (t.chain n).pend = none ∧ t.g 0x3800 n 0x0A = 2 ∧
          (t.chain n).run = some ⟨s.force n, set, start, s.setLen set + s.setSettle set, 2 ^ e, law⟩) ∧
      (∀ n g, n < 512 → (s.chain n).run = some g → g.start + g.warm ≤ s.now → s.g 0x3800 n 0x0A = 2 →
        ∃ t, exec (.graftFade n) s = .next t ∧ t.g 0x3800 n 0x0A = 3 ∧ Kept (· = K 0x3800 n 0x0A) [.result, .outs] s t) ∧
      (∀ n g, n < 512 → (s.chain n).run = some g → g.last < s.now → g.into < 1024 →
        ∃ t, exec (.graftEnd n) s = .next t ∧ (t.chain n).run = none ∧ t.g 0x3800 n 0x01 = g.into ∧
          t.g 0x3B00 0 0x07 = (s.g 0x3B00 0 0x07 + 1) % 2 ^ 32))

/-- The hop (R123, R124, R131, R132): at H + 13 the bulk phase computes the tail of the next hop and the urgent phase
that of this one, and both report the time they took; at H + 19 the hop counts; a bulk delay waits for its boundary
and starts there, a write during a cross-fade at the boundary that follows its last sample. -/
def Obligations.HopCompletes : Prop :=
  ∀ s : State, s.clocked = true →
    (∀ bad used, s.engines.running = true → s.now % 256 = 13 → used < 2 ^ 32 →
      ∃ t, exec (.bulkPhase bad used) s = .next t ∧ t.g 0x6300 0 0x04 = max (s.g 0x6300 0 0x04) used ∧
        ∀ p ∈ s.corr.outs, 2 ≤ s.partitions (s.chain p.1).a → (mget? (t.chain p.1).a.bulk (s.now + 243)).isSome) ∧
    (∀ bad used, s.engines.running = true → s.now % 256 = 13 → used < 2 ^ 32 →
      ∃ t, exec (.urgentPhase bad used) s = .next t ∧ t.g 0x6300 0 0x07 = max (s.g 0x6300 0 0x07) used ∧
        ∀ p ∈ s.corr.outs, s.partitions (s.chain p.1).a ≠ 0 →
          (t.chain p.1).a.ready.map (·.1) = some (s.now - 13)) ∧
    (s.engines.running = true → s.now % 256 = 19 → s.corr.hop ≠ some (s.now - 19) →
      ∃ t, exec .hopEvent s = .next t ∧ t.corr.hop = some (s.now - 19) ∧
        t.g 0x3B00 0 0x0C = (s.g 0x3B00 0 0x0C + 1) % 2 ^ 32) ∧
    (∀ h n d L, s.writeCheck h (opOf 0x3800 n 0x02 d) = stOK →
      (∀ l, (s.chain n).bulkX = some l → s.now < l + 64 → L = l + 64) →
      ((∀ l, (s.chain n).bulkX = some l → l + 64 ≤ s.now) → L = nextEval s.now) →
      ∃ t, exec (.bulkDelayWrite h n d) s = .next t ∧ t.g 0x3800 n 0x02 = leNat d ∧
        (t.chain n).bulkP = some ⟨leNat d, L, s.now, false⟩) ∧
    (∀ n p, s.engines.running = true → n < 512 → (s.chain n).bulkP = some p → p.land ≤ s.now → s.fadesRunning < 256 →
      (∀ x ∈ s.corr.outs, x.1 ≠ n → ∀ q, x.2.bulkP = some q → s.now < q.land) →
      ∃ t, exec .bulkCrossfade s = .next t ∧ (t.chain n).bulkP = none ∧
        (t.chain n).bulkX = some (max p.land (s.now / 16 * 16)) ∧ t.g 0x3800 n 0x03 = p.delay % 2 ^ 32)

/-- Trellis writes (R152 to R155): a source takes its signal at once; records for the live set that pass every check
wait for the next sample, in order; a record for a bank changes the bank; a capture copies the live set into a bank
and a clear empties it. -/
def Obligations.TrellisWritesComplete : Prop :=
  ∀ s : State, s.clocked = true →
    (∀ h n d, s.writeCheck h (opOf 0x3C01 n 0x01 d) = stOK →
      ∃ t, exec (.trellisSourceWrite h n d) s = .next t ∧ t.g 0x3C01 n 0x01 = leNat d ∧
        Kept (· = K 0x3C01 n 0x01) [.result, .outs] s t) ∧
    (∀ h d, s.writeCheck h (opOf 0x3C00 0 0x01 d) = stOK → d ≠ [] → d.length % 8 = 0 →
      (∀ r ∈ (chunks 8 d).map nodeRec, s.nodeCheck h r = stOK ∧ r.target = 0xFF) →
      ∃ t, exec (.nodeWrite h d) s = .next t ∧ t.maps.waiting = s.maps.waiting ++ ((chunks 8 d).map nodeRec).map
        (fun r => (256 * r.sink + r.src, bit r.flags 1, bit r.flags 0, r.gain)) ∧
        Kept (fun _ => False) [.result, .outs, .maps] s t) ∧
    (∀ h d, s.writeCheck h (opOf 0x3C00 0 0x01 d) = stOK → d.length = 8 → s.nodeCheck h (nodeRec d) = stOK →
      (nodeRec d).target < 8 → bit (nodeRec d).flags 1 = false →
      ∃ t, exec (.nodeWrite h d) s = .next t ∧
        mget 0 (t.bank (nodeRec d).target) (256 * (nodeRec d).sink + (nodeRec d).src) =
          nodeWord (nodeRec d).gain (bit (nodeRec d).flags 0) ∧ Kept (fun _ => False) [.result, .outs, .maps] s t) ∧
    (∀ h d, s.writeCheck h (opOf 0x3C00 0 0x03 d) = stOK → s.namedBank ≠ some (leNat d) →
      ∃ t, exec (.bankCapture h d) s = .next t ∧ t.bank (leNat d) = s.liveWords ∧
        Kept (fun _ => False) [.result, .outs, .maps] s t) ∧
    (∀ h d, s.writeCheck h (opOf 0x3C00 0 0x04 d) = stOK → s.namedBank ≠ some (leNat d) →
      ∃ t, exec (.bankClear h d) s = .next t ∧ t.bank (leNat d) = [] ∧
        Kept (fun _ => False) [.result, .outs, .maps] s t)

/-- Input and output map (R147, R159, R165): at a boundary every write accepted before it lands in an object's input map
that is not cross-fading; a destination write waits for its boundary and lands there; a path query is evaluated when
it is read. -/
def Obligations.MapsComplete : Prop :=
  ∀ s : State, s.clocked = true →
    (∀ n, s.engines.running = true → s.now % 16 = 0 → n ∈ s.maps.ins.map (·.1) → n < s.objects →
      (∀ b, (s.inMap n).xfade = some b → b + 64 ≤ s.now) →
      ∃ t, exec .inputMapBoundary s = .next t ∧ (t.inMap n).pend = (s.inMap n).pend.filter (fun p => s.now ≤ p.1) ∧
        let x := ((s.inMap n).pend.filter (fun p => p.1 < s.now)).foldl (fun x p => x.land p.2.1 p.2.2) (s.inMap n)
        (t.inMap n).prim = x.prim ∧ (t.inMap n).sec = x.sec ∧ (t.inMap n).mode = x.mode ∧ (t.inMap n).hold = x.hold) ∧
    (∀ h n d, s.writeCheck h (opOf 0x3E00 n 0x01 d) = stOK → s.ownsSignal h (leNat d) = true →
      ∃ t L, exec (.outputMapWrite h n d) s = .next t ∧ (t.dest n).pend = some (leNat d, L) ∧ s.now < L ∧
        (∀ b, ((s.dest n).at_ s.now).xfade = some b → s.now < b + 64 → L = max (nextBlock s.now) (b + 64)) ∧
        ((∀ b, ((s.dest n).at_ s.now).xfade = some b → b + 64 ≤ s.now) → L = nextBlock s.now) ∧
        t.g 0x3E00 n 0x01 = leNat d ∧ t.g 0x3E00 n 0x03 = L % 2 ^ 64) ∧
    (∀ n x v L, (n, x) ∈ s.maps.dests → (∀ p ∈ s.maps.dests, p.1 = n → p.2 = x) → n < 1560 → x.pend = some (v, L) →
      L ≤ s.now → v ≠ x.code →
      ∃ t, exec .outputMapLands s = .next t ∧ (t.dest n).code = v ∧ (t.dest n).pend = none ∧ (t.dest n).xfade = some L ∧
        t.g 0x3E00 n 0x02 = v % 2 ^ 32) ∧
    (∀ h n sub e, s.readCheck h (opOf 0x3F01 n sub []) = stOK → entryOf 0x3F01 n sub = some e →
      ∃ t, exec (.pathQueryRead h n sub) s = .next t ∧ t.result = ⟨some stOK, leBytes e.ty.size (t.g 0x3F01 n sub)⟩ ∧
        (6 ≤ sub → sub ≤ 0x0E → t.g 0x3F01 n sub = fit e (s.pathEntry n sub)))

/-- Stop and restart of the engines (R163, R237, R393, R473): a change of rate asks for a ramp at the next boundary; at
B every destination begins its ramp to zero; at B + 64 the engines stop; a step lands while they stand; they restart
at a boundary with every destination ramping up. -/
def Obligations.EnginesComplete : Prop :=
  ∀ s : State, s.clocked = true →
    (∀ h d, s.writeCheck h (opOf 0x3F00 0 0x01 d) = stOK → s.ctl.commit = none → s.render.repack = none →
      s.on 0x3F00 0 0x03 = false → leNat d ≠ s.fA → s.engines.running = true → s.engines.rampB = none →
      ∃ t, exec (.rateChange h d) s = .next t ∧ t.g 0x3F00 0 0x03 = 1 ∧
        t.engines = { s.engines with newRate := leNat d, rampB := some (nextBlock s.now), cause := 1 }) ∧
    (∀ B, s.engines.rampB = some B → B ≤ s.now → s.engines.running = true →
      ∃ t, exec .outputsRampDown s = .next t ∧ t.maps = { s.maps with ramp := some (B, false) }) ∧
    (∀ B, s.engines.rampB = none → s.retrainDue = some B →
      ∃ t, exec .outputsRampDown s = .next t ∧ t.engines = { s.engines with rampB := some B, cause := 3 } ∧
        t.maps = { s.maps with ramp := some (B, false) }) ∧
    (∀ B, s.engines.rampB = some B → s.engines.running = true → B + 64 ≤ s.now →
      ∃ t, exec .enginesStop s = .next t ∧ t.engines.running = false ∧ t.engines.rampB = none ∧ t.maps.present = []) ∧
    (∀ off, s.engines.stepTo = some off → s.engines.running = false →
      ∃ t, exec .step s = .next t ∧ t.time.off = off ∧ t.engines.stepTo = none ∧ t.engines.stepped = true ∧
        t.g 0x5000 0 0x19 = (s.g 0x5000 0 0x19 + 1) % 2 ^ 32) ∧
    (s.engines.running = false → s.engines.stepTo = none → s.engines.cause ∈ [1, 2, 3, 6] → s.g 0x6200 0 0x01 ≠ 3 →
      (s.on 0x3F00 0 0x03 = true → s.g 0x6200 0 0x11 = 0) →
      ∃ t, exec .enginesRestart s = .next t ∧ t.engines.running = true ∧ t.engines.cause = 0 ∧ t.now % 16 = 0 ∧
        t.maps.ramp = some (t.now, true) ∧ t.g 0x6500 0 0x10 = 1)

/-- Ports start and end (R170, R183, R186): an enable that the limits and resources allow arms the port for the next
boundary, or leaves it stopped while the engines stand; at the boundary a master with a locked PLL enters GOOD and
any other port qualifies; a disable takes the port to DISABLED at once and lets a GOOD port ramp out; a mask write
waits for a frame. The clause on an enable while the engines stand (STOPPED, under the same limits) is the model's choice
(assumption 67). -/
def Obligations.PortsComplete : Prop :=
  ∀ (s : State) (n : Nat), s.clocked = true → n < 32 →
    (∀ h d, s.writeCheck h (opOf 0x4000 n 0x01 d) = stOK → leNat d = 1 → s.on 0x4000 n 0x01 = false →
      s.portLimits n = true → s.groupFits n = true → s.engines.running = true → s.portFits n = true →
      ∃ t, exec (.portEnable h n d) s = .next t ∧ t.g 0x4000 n 0x01 = 1 ∧
        (t.port n).startAt = some (nextBlock s.now) ∧ t.g 0x4010 n 0x02 = s.portDomain n) ∧
    (∀ h d, s.writeCheck h (opOf 0x4000 n 0x01 d) = stOK → leNat d = 1 → s.on 0x4000 n 0x01 = false →
      s.portLimits n = true → s.groupFits n = true → s.portFits n = true → s.engines.running = false →
      ∃ t, exec (.portEnable h n d) s = .next t ∧ t.g 0x4000 n 0x01 = 1 ∧ t.portState n = 5) ∧
    (∀ b, (s.port n).startAt = some b → b ≤ s.now → (s.port n).closing = false →
      ∃ t, exec (.portStart n) s = .next t ∧ (t.port n).startAt = none ∧
        t.portState n = (if s.portMaster n = true ∧ s.g 0x4600 0 0x01 = 1 then 2 else 1)) ∧
    (∀ h d, s.writeCheck h (opOf 0x4000 n 0x01 d) = stOK → leNat d = 0 → s.on 0x4000 n 0x01 = true →
      ∃ t, exec (.portDisable h n d) s = .next t ∧ t.g 0x4000 n 0x01 = 0 ∧ t.portState n = 0 ∧
        (s.portState n = 2 → (t.port n).closing = true ∧ (t.port n).outRamp = some (false, none, (s.port n).sent))) ∧
    ((s.port n).closing = true → (s.port n).inRamp = none →
      ∃ t, exec (.portRelease n) s = .next t ∧ (t.port n).closing = false ∧ (t.port n).outFifo = [] ∧
        t.outs = [.sapHiz n]) ∧
    (∀ h d sub, sub = 0x0A ∨ sub = 0x0B → s.writeCheck h (opOf 0x4000 n sub d) = stOK →
      ∃ t, exec (.maskWrite h n sub d) s = .next t ∧ t.g 0x4000 n sub = leNat d ∧
        (t.port n).waits = (s.port n).waits ++ [(sub == 0x0B, leNat d)])

/-- Frames (R172, R175, R184, R185): an active edge of a GOOD port sends one frame and begins one; one of a qualifying
port begins one; an edge of a slave's FSYNC to the other level is none; a completed frame is judged and counted; a slave whose
clock is lost leaves GOOD with its FIFOs empty, the input's too and not only the output's of R184 (the model's choice,
assumption 67). Clocks (R190, R191, R193): an ASRC channel whose owner runs locks at the measured ratio and unlocks beyond
the tracking range, where one relock counts for every channel that shares it (the model's choice, assumption 67); the audio
PLL locks and unlocks, and master ports that wait for it enter GOOD; WCLK_IN is present from its first edge and lost after
two periods. -/
def Obligations.FramesAndClocksComplete : Prop :=
  (∀ (s : State) (n : Nat), s.clocked = true → n < 32 →
      (∀ phase level inTime same, (s.port n).closing = false → s.portState n = 2 →
        (s.portMaster n = true ∨ level = s.fsyncActive n) → (s.portOnAsrc n = true ∨ (s.port n).nextS.isSome = true) →
        ∃ t ws, exec (.fsyncActiveEdge n phase level inTime same) s = .next t ∧ t.outs = [.sap n (s.sapFrame n ws)] ∧
          ws.length = s.g 0x4000 n 0x03 ∧ (t.port n).begun.length = (s.port n).begun.length + 1) ∧
      (∀ phase level inTime same, (s.port n).closing = false → (s.portMaster n = true ∨ level = s.fsyncActive n) →
          ((s.portState n = 1 ∧ (s.port n).startAt = none) ∨ s.portState n = 3) →
        ∃ t, exec (.fsyncActiveEdge n phase level inTime same) s = .next t ∧ t.outs = [] ∧
          (t.port n).begun = (s.port n).begun ++ [⟨none, 0, false, edgeNs
            (if s.portMaster n = true ∧ s.portOnAsrc n = false then s.ownP n * ((s.port n).nextS.getD 0 : Nat)
             else s.edgeAt phase)⟩]) ∧
      (∀ phase level inTime same, s.portMaster n = false → level ≠ s.fsyncActive n →
        ∃ t, exec (.fsyncActiveEdge n phase level inTime same) s = .next t ∧ t.outs = [] ∧
          Kept (fun _ => False) [.result, .outs] s t) ∧
      (∀ f b c r, (s.port n).begun = b :: c :: r → s.portState n = 2 →
        ∃ t, exec (.frameComplete n f) s = .next t ∧ (t.port n).begun = c :: r ∧
          t.g 0x4010 n 0x0A = (s.g 0x4010 n 0x0A + b2n (s.frameGood n f)) % 2 ^ 32 ∧
          t.g 0x4010 n 0x0B = (s.g 0x4010 n 0x0B + b2n (!s.frameGood n f)) % 2 ^ 32) ∧
      (s.portMaster n = false → s.portState n = 2 →
        ∃ t, exec (.portLost n) s = .next t ∧ t.portState n = 3 ∧ (t.port n).inFifo = [] ∧ (t.port n).outFifo = [] ∧
          t.g 0x4010 n 0x12 = (s.g 0x4010 n 0x12 + 1) % 2 ^ 32)) ∧
  (∀ s : State, s.clocked = true →
      (∀ n ppm, n < 64 → s.g 0x4510 n 0x01 ≠ 0 → s.on 0x4510 n 0x06 = false → s.asrcRuns n = true →
        ∃ t, exec (.asrcLock n ppm) s = .next t ∧ t.g 0x4510 n 0x06 = 1 ∧
          (∀ c ∈ s.asrcShared n, t.g 0x4510 c 0x06 = 1) ∧
          t.g 0x4510 n 0x05 = F.ofRat false (s.asrcRate n * (1000000 + ppm).toNat) (s.fA * 1000000) % 2 ^ 32) ∧
      (∀ n ppm, n < 64 → s.on 0x4510 n 0x06 = true → 1000 < ppm.natAbs →
        ∃ t, exec (.asrcRelock n ppm) s = .next t ∧ t.g 0x4510 n 0x06 = 0 ∧
          (∀ c ∈ s.asrcShared n, t.on 0x4510 c 0x06 = false) ∧
          t.g 0x4500 0 0x03 = (s.g 0x4500 0 0x03 + 1) % 2 ^ 32) ∧
      (∀ phase, s.g 0x4600 0 0x01 ≠ 1 → phase.natAbs ≤ 20000 →
        ∃ t, exec (.pllLock phase) s = .next t ∧ t.g 0x4600 0 0x01 = 1 ∧
          ∀ p < 32, s.portMaster p = true → s.portState p = 1 → (s.port p).startAt = none → t.portState p = 2) ∧
      (∀ phase, s.g 0x4600 0 0x01 = 1 → 200000 < phase.natAbs →
        ∃ t, exec (.pllUnlock phase) s = .next t ∧ t.g 0x4600 0 0x01 = 0 ∧
          t.g 0x4600 0 0x03 = (s.g 0x4600 0 0x03 + 1) % 2 ^ 32 ∧ bit (t.g 0x4600 0 0x0B) 0 = true) ∧
      (s.g 0x4600 0 0x07 ≠ 0 →
        ∃ t, exec .wclkInLost s = .next t ∧ t.g 0x4600 0 0x07 = 0 ∧ t.serial = { s.serial with wcRef := none } ∧
          t.g 0x4600 0 0x0A = (s.g 0x4600 0 0x0A + 1) % 2 ^ 32) ∧
      (∀ period phase, s.serial.wcRef = none →
        ∃ t, exec (.wclkInEdge period phase) s = .next t ∧ t.g 0x4600 0 0x07 = 1 ∧
          t.serial = { s.serial with wcRef := some (s.now, phase) }))

/-- Links (R199, R202, R223): an enabled MAC comes up at a speed of its mode and goes down; a pause that lasts beyond
the watchdog's time is given up and disregarded for ten times as long. Rings (R206): a ring is disabled, but not
ring 1 under a session over UDP; an enabled ring starts empty. -/
def Obligations.LinksAndRingsComplete : Prop :=
  (∀ (s : State) (n : Nat), s.clocked = true → n < 6 →
      (∀ speed, s.on 0x4800 n 0x01 = true → s.g 0x4800 n 0x07 = 0 → (s.speeds n).contains speed = true →
        ∃ t, exec (.linkUp n speed) s = .next t ∧ t.g 0x4800 n 0x07 = 1 ∧ t.g 0x4800 n 0x08 = speed) ∧
      (s.g 0x4800 n 0x07 = 1 →
        ∃ t, exec (.linkDown n) s = .next t ∧ t.g 0x4800 n 0x07 = 0 ∧ t.g 0x4800 n 0x08 = 0 ∧
          t.g 0x4800 n 0x15 = (s.g 0x4800 n 0x15 + 1) % 2 ^ 32 ∧ bit (t.g 0x4800 n 0x17) 1 = true) ∧
      (∀ a, (s.macSt n).pauseFrom = some a → a + usC (s.g 0x4800 n 0x06) ≤ (s.macSt n).pauseUntil →
        a + usC (s.g 0x4800 n 0x06) ≤ s.clock →
        ∃ t, exec (.pauseWatchdog n) s = .next t ∧
          t.macSt n = { s.macSt n with pauseUntil := s.clock, pauseFrom := none,
                                       ignoreUntil := s.clock + 10 * usC (s.g 0x4800 n 0x06) } ∧
          t.g 0x4800 n 0x14 = (s.g 0x4800 n 0x14 + 1) % 2 ^ 32 ∧ bit (t.g 0x4800 n 0x17) 2 = true)) ∧
  (∀ (s : State) (h n : Nat) (d : Bytes), s.clocked = true → n < 4 → s.writeCheck h (opOf 0x4E00 n 0x01 d) = stOK →
      (leNat d = 0 → (n = 1 → s.overUdp h = false) → s.on 0x4E00 n 0x01 = true →
        ∃ t, exec (.ringDisable h n d) s = .next t ∧ t.g 0x4E00 n 0x01 = 0 ∧ t.result = ⟨some stOK, []⟩ ∧
          Kept (· = K 0x4E00 n 0x01) [.result, .outs] s t) ∧
      (leNat d = 0 → n = 1 → s.overUdp h = true →
        ∃ t, exec (.ringDisable h n d) s = .next t ∧ t.result = ⟨some stState, []⟩ ∧
          Kept (fun _ => False) [.result, .outs] s t) ∧
      (leNat d = 1 → s.on 0x4E00 n 0x01 = false →
        ∃ t, exec (.ringEnable h n d) s = .next t ∧ t.g 0x4E00 n 0x01 = 1 ∧ t.g 0x4E00 n 0x03 = 0 ∧
          mget [] t.net.rings n = [] ∧ t.result = ⟨some stOK, []⟩ ∧
          Kept (fun k => k = K 0x4E00 n 0x01 ∨ k = K 0x4E00 n 0x03) [.result, .outs, .net] s t))

/-- Frames received (R200, R201, R204): a bad FCS, a runt and a giant are dropped, each under its own count; an accepted
PTP frame reaches ring 0 with its receive timestamp, in the buffers after the last ones taken, unless the firmware finds a
message in front that the port does not support (R241). Packets (R208 to R211, R218, R219): once a packet's samples are
stamped and its cells are free it is queued under the next sequence number, with zeros for stamps that were not collected
(the model's choice, assumption 69); at its launch instant it leaves the queue and goes out on the stream's MAC, if that
stands idle, and its cells are held until the frame has ended. -/
def Obligations.FramesAndPacketsComplete : Prop :=
  (∀ (s : State) (n : Nat) (f : Bytes) (clock : Nat), s.clocked = true → n < 6 → s.on 0x4800 n 0x01 = true →
      s.g 0x4800 n 0x07 = 1 →
      let crcOk := 4 ≤ f.length ∧ leNat (f.drop (f.length - 4)) = crc32 (f.take (f.length - 4))
      (¬ crcOk → ∃ t, exec (.receiveFrame n f false clock) s = .next t ∧
        t.g 0x4800 n 0x0C = (s.g 0x4800 n 0x0C + 1) % 2 ^ 32 ∧ bit (t.g 0x4800 n 0x17) 0 = true ∧ t.net = s.net) ∧
      (crcOk → f.length < 64 → ∃ t, exec (.receiveFrame n f false clock) s = .next t ∧
        t.g 0x4800 n 0x0D = (s.g 0x4800 n 0x0D + 1) % 2 ^ 32 ∧ bit (t.g 0x4800 n 0x17) 0 = true ∧ t.net = s.net) ∧
      (crcOk → (if n < 4 then 2048 else 9216) < f.length → ∃ t, exec (.receiveFrame n f false clock) s = .next t ∧
        t.g 0x4800 n 0x0E = (s.g 0x4800 n 0x0E + 1) % 2 ^ 32 ∧ bit (t.g 0x4800 n 0x17) 0 = true ∧ t.net = s.net) ∧
      (crcOk → 64 ≤ f.length → f.length ≤ (if n < 4 then 2048 else 9216) →
        f.take 6 = s.macAddr n ∨ f.take 6 = macBroadcast ∨ (s.filter n).contains (f.take 6) = true →
        fieldBE f 12 2 = 0x88F7 → s.on 0x4E00 0 0x01 = true →
        s.g 0x4E00 0 0x03 + ceilDiv f.length 2048 ≤ s.g 0x4E00 0 0x02 →
        (∀ g, ((mget [] s.net.rings 0).map (·.bytes) ++ [f]).head? = some g → ptpSupported (ptpOf g) = true) →
        ∃ t, exec (.receiveFrame n f false clock) s = .next t ∧ t.clock = max s.clock clock ∧
          t.g 0x4800 n 0x0A = (s.g 0x4800 n 0x0A + 1) % 2 ^ 32 ∧
          mget [] t.net.rings 0 = mget [] s.net.rings 0 ++
            [⟨n, s.stampNs n false (max s.clock clock), f, mget 0 s.net.heads 0,
              (mget 0 s.net.heads 0 + ceilDiv f.length 2048 - 1) % max 1 (s.g 0x4E00 0 0x02), ceilDiv f.length 2048⟩] ∧
          t.g 0x5010 n 0x03 = (s.g 0x5010 n 0x03 + 1) % 2 ^ 32 ∧
          t.g 0x4E00 0 0x03 = (s.g 0x4E00 0 0x03 + ceilDiv f.length 2048) % 2 ^ 16)) ∧
  (∀ (s : State) (n x : Nat) (same : Bool), s.clocked = true → n < 256 →
      (let k := s.txN n
       let len := s.frameLen (s.txg n 0x02) (s.txChans n * k * s.txB n)
       (s.tx n).nextX = some x → k ≠ 0 → (∃ e ∈ (s.tx n).buf, x + k ≤ e.1 + 1) → s.mayPush n = true →
       (s.tx n).queue.length + b2n same < 4 → s.g 0x4900 0 0x04 + ceilDiv len 128 ≤ 4096 →
       ∃ t, exec (.packetPush n same) s = .next t ∧
         t.tx n = { s.tx n with buf := (s.tx n).buf.filter (fun e => x + k ≤ e.1), nextX := some (x + k),
                                queue := (s.tx n).queue ++ [⟨x, len, s.takeCells (ceilDiv len 128), s.txg n 0x1A,
                                  stampedFrom (s.tx n).buf (List.replicate (s.txChans n) 0) x k, s.clock⟩] } ∧
         t.g 0x4C00 n 0x1A = (s.g 0x4C00 n 0x1A + 1) % 65536 ∧
         t.g 0x4900 0 0x04 = s.g 0x4900 0 0x04 + ceilDiv len 128) ∧
      (∀ p q mac, (s.tx n).launchX = some x → x + s.txN n ≤ mediaAt (s.txRate n) s.ns → (s.tx n).queue = p :: q →
        p.x ≤ x → p.len ≠ 0 →
       ¬ (same = true ∧ q = []) → s.txg n 0x14 = 2 → s.on 0x4C00 n 0x03 = false → s.macIdle (s.txg n 0x02) = true →
       s.launchBefore n = none → (∀ f ∈ (s.tx n).flights, f.x ≠ p.x) →
       s.ns ≤ nsOfMedia (s.txRate n) (p.x + s.txN n) + s.txN n * 1000000000 / s.txRate n →
       s.dstMac (s.txg n 0x02) (s.txg n 0x04) = some mac →
       ∃ t, exec (.packetLaunch n same false) s = .next t ∧
         t.tx n = { s.tx n with launchX := some (x + s.txN n), queue := q,
                                flights := (s.tx n).flights ++ [⟨p.x, 1, p.cells, true⟩] } ∧
         t.g 0x4900 0 0x04 = s.g 0x4900 0 0x04 ∧
         t.outs = [.frame (s.txg n 0x02) (s.ethFrame (s.txg n 0x02) mac 0x0800
           (ipv4 17 (s.ip (s.txg n 0x02)) (s.txg n 0x04) (s.txg n 0x10) (s.txg n 0x11)
             (udp (s.txg n 0x07) (s.txg n 0x06) (s.rtp n p))))] ∧
         t.g 0x4C00 n 0x15 = (s.g 0x4C00 n 0x15 + 1) % 2 ^ 32))

/-- Streams begin and end (R207, R210, R212, R217, R220, R221): a receive stream within the limits takes its cells and
waits; a transmit stream sends from the first packet at or after the next boundary, or resolves first; one enabled while
the engines stand is STOPPED (the model's choice, assumption 70); a disable gives back what they held. -/
def Obligations.StreamsComplete : Prop :=
  ∀ (s : State) (h n : Nat) (d : Bytes), s.clocked = true → n < 256 →
    (s.writeCheck h (opOf 0x4A00 n 0x01 d) = stOK → leNat d = 1 → s.on 0x4A00 n 0x01 = false → s.rxLimits n = true → s.rxFits n = true →
      (s.engines.running = true → s.rxLane n = true →
        ∃ t, exec (.receiveStreamEnable h n d) s = .next t ∧ t.g 0x4A00 n 0x01 = 1 ∧ t.g 0x4A00 n 0x12 = 1 ∧
          t.rx n = { RxStream.init with cells := s.rxCells n } ∧
          t.g 0x4900 0 0x03 = s.g 0x4900 0 0x03 + s.rxCells n) ∧
      (s.engines.running = false →
        ∃ t, exec (.receiveStreamEnable h n d) s = .next t ∧ t.g 0x4A00 n 0x01 = 1 ∧ t.g 0x4A00 n 0x12 = 5)) ∧
    (s.writeCheck h (opOf 0x4C00 n 0x01 d) = stOK → leNat d = 1 → s.on 0x4C00 n 0x01 = false → s.txLimits n = true → s.txFits n = true →
      (s.engines.running = true → s.txLane n = true →
        ∃ t, exec (.transmitStreamEnable h n d) s = .next t ∧ t.g 0x4C00 n 0x01 = 1 ∧
          t.g 0x4C00 n 0x14 = (if s.txResolved n = true then 2 else 1) ∧ t.g 0x4C00 n 0x1A = 0 ∧
          (t.tx n).nextX = some (s.txN n * ceilDiv (s.streamFrom (s.txRate n) (nextBlock s.now)) (s.txN n))) ∧
      (s.engines.running = false →
        ∃ t, exec (.transmitStreamEnable h n d) s = .next t ∧ t.g 0x4C00 n 0x01 = 1 ∧ t.g 0x4C00 n 0x14 = 4)) ∧
    (s.writeCheck h (opOf 0x4A00 n 0x01 d) = stOK → leNat d = 0 → s.on 0x4A00 n 0x01 = true → s.rxServed.contains n = true →
      ∃ t, exec (.streamDisable h false n d) s = .next t ∧ t.g 0x4A00 n 0x01 = 0 ∧ t.g 0x4A00 n 0x12 = 0 ∧
        t.rx n = RxStream.init) ∧
    (s.writeCheck h (opOf 0x4C00 n 0x01 d) = stOK → leNat d = 0 → s.on 0x4C00 n 0x01 = true → s.txServed.contains n = true →
      ∃ t, exec (.streamDisable h true n d) s = .next t ∧ t.g 0x4C00 n 0x01 = 0 ∧ t.g 0x4C00 n 0x14 = 0 ∧
        (t.tx n).queue = [] ∧ (t.tx n).nextX = none)

/-- IPv4 interfaces (R220, R223, R230): an address is learnt and ages out; an address that stays unresolved is reported;
the second report of a join is sent on a MAC that stands idle; the IGMPv2 fallback ends; a new own address empties the
cache (the model's choice, assumption 70). SDP (R222): a description that can be parsed sets the stream's fields and reports
line 0; one whose line l cannot sets none of them and reports l; and one that lacks a required line sets none and reports
the line after its last (the model's choice, assumption 86). -/
def Obligations.InterfacesComplete : Prop :=
  (∀ (s : State) (n : Nat), s.clocked = true → n < 6 →
      (∀ ip mac, ∃ t, exec (.arpResolved n ip mac) s = .next t ∧
        (t.macSt n).arp.getLast? = some ⟨ip, beBytes 6 mac, s.clock⟩ ∧ (t.macSt n).arp.length ≤ 256 ∧
        t.g 0x4F00 n 0x08 = (t.macSt n).arp.length) ∧
      (∀ ip, (s.macSt n).arp.any (fun e => e.ip == ip && e.at_ + secC 300 ≤ s.clock) = true →
        ∃ t, exec (.arpAgeOut n ip) s = .next t ∧ (t.macSt n).arp = (s.macSt n).arp.filter (fun e => e.ip != ip) ∧
          t.g 0x4F00 n 0x08 = (t.macSt n).arp.length % 2 ^ 16) ∧
      (∀ i ip, s.txServed.contains i = true → s.txg i 0x14 = 1 → (s.tx i).since + secC 3 ≤ s.clock →
        (n, ip) ∈ s.txPaths i → s.dstMac n ip = none →
        ∃ t, exec (.arpFail n) s = .next t ∧ bit (t.g 0x4F00 n 0x0C) 0 = true ∧
          Kept (· = K 0x4F00 n 0x0C) [.result, .outs] s t) ∧
      (∀ g c, (g, c) ∈ (s.macSt n).reports → c ≤ s.clock → (s.groups n).contains g = true → s.macIdle n = true →
        ∃ t f, exec (.igmpReport n g) s = .next t ∧ t.outs = [.frame n f] ∧
          (t.macSt n).reports = (s.macSt n).reports.filter (fun r => r.1 != g)) ∧
      (∀ c, (s.macSt n).v2Until = some c → c ≤ s.clock →
        ∃ t, exec (.igmpV2FallbackEnd n) s = .next t ∧ t.macSt n = { s.macSt n with v2Until := none } ∧
          Kept (fun _ => False) [.result, .outs, .net] s t) ∧
      (∀ h d, s.writeCheck h (opOf 0x4F00 n 0x01 d) = stOK →
        ∃ t, exec (.addressWrite h n d) s = .next t ∧ t.g 0x4F00 n 0x01 = leNat d ∧ (t.macSt n).arp = [] ∧
          t.g 0x4F00 n 0x08 = 0)) ∧
  (∀ (s : State) (h n : Nat) (d : Bytes), s.clocked = true → n < 256 → s.writeCheck h (opOf 0x4A00 n 0x10 d) = stOK →
      s.on 0x4A00 n 0x01 = false →
      let r := s.sdpLines 1 ⟨false, none, none, [], 0, [], false⟩ (textLines d)
      (∀ x c, r = .inr x → x.config = some c →
        ∃ t, exec (.sdpWrite h n d) s = .next t ∧ t.result = ⟨some stOK, []⟩ ∧ t.g 0x4A00 n 0x20 = 0 ∧
          ∀ p ∈ c, ∀ e, entryOf 0x4A00 n p.1 = some e → t.g 0x4A00 n p.1 = fit e p.2) ∧
      (∀ l, r = .inl l →
        ∃ t, exec (.sdpWrite h n d) s = .next t ∧ t.result = ⟨some stOutOfRange, []⟩ ∧ t.g 0x4A00 n 0x20 = l % 2 ^ 16 ∧
          Kept (· = K 0x4A00 n 0x20) [.result, .outs] s t) ∧
      (∀ x, r = .inr x → x.config = none →
        ∃ t, exec (.sdpWrite h n d) s = .next t ∧ t.result = ⟨some stOutOfRange, []⟩ ∧
          t.g 0x4A00 n 0x20 = ((textLines d).length + 1) % 2 ^ 16 ∧ Kept (· = K 0x4A00 n 0x20) [.result, .outs] s t))

/-- System time (R233, R236, R238): a rate written in free-run holds from then on, with system time continuous; an
offset written before the servo has locked is asked for as a step, and refused after; a restart of the time base
lets the servo lock anew. PPS (R240, R247): an edge gives the phase against the second and is remembered; 2 s
without a good edge lose the source. That the first edge is good and that the cable delay is subtracted are the model's
choices (assumption 53). -/
def Obligations.TimeWritesComplete : Prop :=
  (∀ (s : State) (h : Nat) (d : Bytes), s.clocked = true →
      (s.writeCheck h (opOf 0x5000 0 0x04 d) = stOK → s.g 0x5000 0 0x05 = 2 →
        ∃ t, exec (.rateWrite h d) s = .next t ∧ t.g 0x5000 0 0x04 = leNat d ∧ t.clock = s.clock ∧
          t.sysAt t.clock = s.sysAt s.clock) ∧
      (s.writeCheck h (opOf 0x5000 0 0x06 d) = stOK → s.on 0x5000 0 0x08 = false →
        ∃ t, exec (.offsetWrite h d) s = .next t ∧ t.engines.stepTo = some (time80Ns (leNat d) * 2 ^ 47 : Nat) ∧
          (s.engines.running = true → s.engines.rampB = none → t.engines.rampB = some (nextBlock s.now)) ∧
          Kept (fun _ => False) [.result, .outs, .engines] s t) ∧
      (s.writeCheck h (opOf 0x5000 0 0x06 d) = stOK → s.on 0x5000 0 0x08 = true →
        ∃ t, exec (.offsetWrite h d) s = .next t ∧ t.result = ⟨some stState, []⟩ ∧ bit (t.g 0x5000 0 0x1C) 3 = true ∧
          Kept (· = K 0x5000 0 0x1C) [.result, .outs] s t) ∧
      (s.writeCheck h (opOf 0x5000 0 0x11 d) = stOK → s.on 0x3F00 0 0x03 = false → s.ctl.commit = none →
        ∃ t, exec (.timebaseRestart h d) s = .next t ∧ t.g 0x5000 0 0x08 = 0 ∧ bit (t.g 0x5000 0 0x1C) 5 = true ∧
          t.g 0x5000 0 0x07 = (if s.g 0x5000 0 0x05 = 2 then 4 else 0))) ∧
  (∀ s : State, s.clocked = true → s.g 0x5000 0 0x05 = 1 →
      (∀ clock, s.time.ppsLast = none →
        let a : Int := (s.nsAt (max s.clock clock) : Int) - signed 32 (s.g 0x5000 0 0x16)
        ∃ t, exec (.ppsEdge clock) s = .next t ∧ t.time.ppsLast = some (a.toNat, max s.clock clock) ∧
          signed 32 (t.g 0x5000 0 0x18) = (a + 500000000) % 1000000000 - 500000000) ∧
      (∀ p, s.time.ppsLast = some p → s.ctl.down = false → p.2 + secC 2 ≤ s.clock →
        ∃ t, exec .ppsLost s = .next t ∧ t.time.ppsLast = none ∧ t.g 0x5000 0 0x17 = 0 ∧ bit (t.g 0x5000 0 0x1C) 4 = true))

/-- PTP messages (R241, R246): a Sync of the parent waits for its Follow_Up, which gives the delay from the master;
Delay_Resp gives the mean path delay; a master answers Delay_Req, and on a MAC that stands idle the port sends its own
messages at their intervals, a Sync with its Follow_Up behind it.
The messages are those of IEEE 1588-2019 (assumption 51). The best master (R240, R243, R244): an Announce of another
clock is remembered with its data and its time; without one for the receipt timeout, and with no backup MAC, the
port gives up its master. -/
def Obligations.PtpComplete : Prop :=
  (∀ (s : State) (n : Nat) (m : Bytes) (clock mac ip : Nat), s.clocked = true → s.ctl.down = false → n < 6 →
      (s.ptpTakes n 44 m = true → s.ptpFromParent n m = true → bit (fieldBE m 6 1) 1 = true →
        ∃ t, exec (.ptpSync n m clock mac ip) s = .next t ∧ t.clock = max s.clock clock ∧
          t.g 0x5001 0 0x17 = (s.g 0x5001 0 0x17 + 1) % 2 ^ 32 ∧ t.time.peer = (mac, ip) ∧
          t.time.syncWait = some ⟨ptpSeqOf m, ptpIdentOf m, (s.stampNs n false (max s.clock clock) * 65536 : Nat),
            ptpCorrOf m + s.asymmetry⟩) ∧
      (∀ w, s.time.syncWait = some w → s.ptpTakes n 44 m = true → s.ptpFromParent n m = true → w.seq = ptpSeqOf m →
        w.ident = ptpIdentOf m →
        ∃ t, exec (.ptpFollowUp n m) s = .next t ∧ t.time.syncWait = none ∧
          t.time.msDelay = some (w.t2 - ptpTime m 34 * 65536 - (w.corr + ptpCorrOf m))) ∧
      (∀ t3 ms, s.time.reqWait = some (ptpSeqOf m, t3) → s.time.msDelay = some ms → s.ptpTakes n 54 m = true →
        s.ptpFromParent n m = true → fieldBE m 44 10 = s.ptpPort →
        ∃ t, exec (.ptpDelayResp n m) s = .next t ∧ t.time.reqWait = none ∧
          t.time.mpd = some ((ms + (ptpTime m 34 * 65536 - t3 - ptpCorrOf m)) / 2)) ∧
      (s.ptpTakes n 44 m = true → s.g 0x5001 0 0x11 = 6 → n = s.g 0x5001 0 0x12 → s.g 0x5001 0 0x07 = 1 → s.macIdle n = true →
        ∃ t, exec (.ptpDelayReq n m clock mac ip) s = .next t ∧
          t.outs = [.frame n (s.ethFrame n ptpMac 0x88F7 (s.ptpMsg 9 (if bit (fieldBE m 6 1) 2 then 0x0400 else 0)
            (ptpCorrOf m) (ptpSeqOf m) 3 (signed 16 (s.g 0x5001 0 0x0B))
            (ptpStamp (s.stampNs n false (max s.clock clock)) ++ slice m 20 10)))]) ∧
      (s.g 0x5001 0 0x11 = 8 ∨ s.g 0x5001 0 0x11 = 9 → s.macIdle (s.g 0x5001 0 0x12) = true →
        s.time.sentReq + s.ptpInterval 0x0B ≤ max s.clock clock → s.time.txq.length < 16 →
        ∃ t f, exec (.delayReqSend clock) s = .next t ∧ t.outs = [.frame (s.g 0x5001 0 0x12) f] ∧
          t.time.seqReq = (s.time.seqReq + 1) % 65536 ∧ t.time.sentReq = max s.clock clock ∧
          t.time.reqWait = some (s.time.seqReq, ((s.stampNs (s.g 0x5001 0 0x12) true (max s.clock clock) * 65536 : Nat) : Int))) ∧
      (s.g 0x5001 0 0x11 = 6 → s.macIdle (s.g 0x5001 0 0x12) = true →
        s.time.sentSync + s.ptpInterval 0x09 ≤ max s.clock clock → s.time.txq.length < 16 →
        let mac := s.g 0x5001 0 0x12
        let log := signed 16 (s.g 0x5001 0 0x09)
        let f := s.ptpFrame mac true none (s.ptpMsg 0 0x0200 0 s.time.seqSync 0 log (zeros 10))
        let g := s.ptpFrame mac false none (s.ptpMsg 8 0 0 s.time.seqSync 2 log
          (ptpStamp (s.stampNs mac true (max s.clock clock))))
        ∃ t, exec (.ptpSend 0 clock) s = .next t ∧ t.outs = [.frame mac f] ∧
          (t.macSt mac).out = [⟨.frame g, g.length, max s.clock clock, none, none⟩] ∧
          t.time.seqSync = (s.time.seqSync + 1) % 65536 ∧ t.time.sentSync = max s.clock clock)) ∧
  (∀ s : State, s.clocked = true → s.ctl.down = false →
      (∀ n m, n < 6 → s.ptpTakes n 64 m = true → ptpIdentOf m / 65536 ≠ beNat s.ptpIdent → fieldBE m 61 2 < 255 →
        ∃ t f, exec (.ptpAnnounce n m) s = .next t ∧ t.time.foreigns.head? = some f ∧ f.mac = n ∧ f.ident = ptpIdentOf m ∧
          f.gm = fieldBE m 53 8 ∧ f.prio1 = fieldBE m 47 1 ∧ f.quality = fieldBE m 48 4 ∧ f.prio2 = fieldBE m 52 1 ∧
          f.steps = fieldBE m 61 2 ∧ f.last = s.clock ∧ mget? t.time.annAt n = some s.clock) ∧
      (s.on 0x5001 0 0x01 = true → s.g 0x5001 0 0x11 ∈ [4, 7, 8, 9] → s.otherMac = none →
        max s.time.annFrom (mget 0 s.time.annAt (s.g 0x5001 0 0x12)) + s.annTimeout ≤ s.clock →
        ∃ t, exec .announceTimeout s = .next t ∧ t.g 0x5001 0 0x18 = (s.g 0x5001 0 0x18 + 1) % 2 ^ 32 ∧
          bit (t.g 0x5001 0 0x1B) 0 = true ∧ t.time.parent = none ∧
          t.g 0x5001 0 0x11 = (if s.g 0x5001 0 0x03 = 0 then 4 else 6)))

/-- Triggers and captures (R249, R250, R252): a trigger is armed for a target to come and disarmed; at its target it
fires, and is armed for the next one if it has a period; an edge captures system time, media time and sample
fraction. -/
def Obligations.TriggersComplete : Prop :=
  ∀ (s : State) (n : Nat), s.clocked = true →
    (∀ h d, n < 16 → s.writeCheck h (opOf 0x5100 n 0x01 d) = stOK → leNat d = 1 → s.target n = none →
      let x := if s.g 0x5100 n 0x02 = 0 then time80Ns (s.g 0x5100 n 0x03) else s.g 0x5100 n 0x04
      (s.reached (s.g 0x5100 n 0x02) x s.clock = false →
        ∃ t, exec (.triggerArm h n d) s = .next t ∧ t.target n = some x ∧ t.g 0x5100 n 0x01 = 1) ∧
      (s.reached (s.g 0x5100 n 0x02) x s.clock = true →
        ∃ t, exec (.triggerArm h n d) s = .next t ∧ t.result = ⟨some stTooLate, []⟩ ∧
          Kept (fun _ => False) [.result, .outs] s t)) ∧
    (∀ h d x, n < 16 → s.writeCheck h (opOf 0x5100 n 0x01 d) = stOK → leNat d = 0 → s.target n = some x →
      ∃ t, exec (.triggerDisarm h n d) s = .next t ∧ t.target n = none ∧ t.g 0x5100 n 0x01 = 0) ∧
    (∀ clock x, n < 16 → s.target n = some x → s.trigWaits n = false →
      s.reached (s.g 0x5100 n 0x02) x (max s.clock clock) = true →
      ∃ t, exec (.triggerFire n clock) s = .next t ∧ t.g 0x5100 n 0x08 = (s.g 0x5100 n 0x08 + 1) % 2 ^ 32 ∧
        bit (t.g 0x5100 n 0x0B) 0 = true ∧
        t.target n = (if s.g 0x5100 n 0x05 = 0 then none else some (x + s.g 0x5100 n 0x05))) ∧
    (∀ clock, n < 8 → s.on 0x5200 n 0x01 = true → mget? s.time.caps n = none →
      let ns := s.nsAt (max s.clock clock)
      ∃ t, exec (.capture n clock) s = .next t ∧ t.g 0x5200 n 0x06 = ns * s.fA / 1000000000 % 2 ^ 64 ∧
        t.g 0x5200 n 0x07 = ns * s.fA % 1000000000 * 65536 / 1000000000 ∧
        t.g 0x5200 n 0x08 = (s.g 0x5200 n 0x08 + 1) % 2 ^ 32 ∧ bit (t.g 0x5200 n 0x0A) 0 = true)

/-- Datagrams (R253, R257, R259 to R262): DATA in sequence is processed and HEARTBEAT remembered, once the device has seen the
first sequence of its epoch; STATUS is remembered; the head
answers a NAK with the copy it keeps and a snapshot request with a snapshot, whose first datagram leaves an idle MAC at once
and whose others follow it; a joining device takes it part by part. The order of a snapshot, its 23 records to a datagram,
the answer to a NAK whatever its target and that to a request sent to all are the model's choices (assumption 54). -/
def Obligations.SprinklerReceives : Prop :=
  ∀ (s : State) (m : Bytes), s.clocked = true → s.ctl.down = false → SprkHeard s m →
    let x := dgramOf m
    (x.ty = 0 ∨ x.ty = 3 → s.sprkState = 2 ∨ s.sprkState = 7 → x.seq = s.sprkNext → s.sprk.hold = [] →
      (x.ty = 0 → s.sprk.unseen = false) →
      seqNewer x.seq s.sprkLast = true →
      ∃ t, exec (.sprinklerData m) s = .next t ∧ t.g 0x5400 0 0x10 = x.seq ∧
        t.g 0x5400 0 0x11 = (s.g 0x5400 0 0x11 + 1) % 2 ^ 32 ∧ t.sprk.gapAt = none) ∧
    (x.ty = 1 → s.isHead = false → s.sprk.unseen = false →
      ∃ t, exec (.heartbeatReceived m) s = .next t ∧ t.sprk = { s.sprk with beatAt := s.clock } ∧
        t.g 0x5400 0 0x0E = x.sender) ∧
    (∀ k, x.ty = 2 → s.isHead = true → fieldLE x.payload 4 2 = 1 → s.sprk.kept.find? (fun k => k.1 == fieldLE x.payload 0 4) = some k →
      (∀ p ∈ s.sprk.repaired, p.1 = fieldLE x.payload 0 4 → p.2 + msC 2 ≤ s.clock) →
      ∃ t, exec (.nak m) s = .next t ∧ t.g 0x5400 0 0x13 = (s.g 0x5400 0 0x13 + 1) % 2 ^ 32 ∧
        t.sprk.repaired.head? = some (fieldLE x.payload 0 4, s.clock)) ∧
    (x.ty = 5 → s.isHead = true → x.target = s.g 0x5400 0 0x01 ∨ x.target = 0xFFFF → s.g 0x5400 0 0x07 = 0xFF →
      s.macIdle (s.g 0x5400 0 0x06) = true →
      ∃ t, exec (.snapshotRequest m) s = .next t ∧ t.sprk = s.sprk ∧ t.outs.length = 1 ∧
        (t.macSt (s.g 0x5400 0 0x06)).out.length + 1 = max 1 (chunks 23 (((List.range s.objects).filter s.replicated).flatMap s.snapshotOf)).length) ∧
    (x.ty = 6 → x.target = s.g 0x5400 0 0x01 → s.sprkState = 1 ∨ s.sprkState = 4 →
      x.seq = 0 ∨ s.sprk.snapNext = some x.seq → s.sprk.snapTags.contains (m.drop (m.length - 16)) = false →
      (bit x.flags 0 = false → ∃ t, exec (.snapshot m) s = .next t ∧ t.sprk.snapNext = some (x.seq + 1)) ∧
      (bit x.flags 0 = true → s.sprk.hold = [] →
        ∃ t, exec (.snapshot m) s = .next t ∧ t.sprk.snapNext = none ∧
          t.g 0x5400 0 0x10 = fieldLE x.payload (x.payload.length - 4) 4 ∧ t.g 0x5400 0 0x0D = s.sprkSynced ∧
          t.g 0x5400 0 0x15 = (s.g 0x5400 0 0x15 + 1) % 2 ^ 32)) ∧
    (x.ty = 4 → s.isHead = true ∨ s.g 0x5400 0 0x02 = 3 →
      ∃ t, exec (.statusReceived m) s = .next t ∧
        ⟨x.sender, s.clock, fieldLE x.payload 0 1, fieldLE x.payload 4 4⟩ ∈ t.sprk.members ∧
        (x.sender = s.g 0x5400 0 0x01 → bit (t.g 0x5400 0 0x1C) 7 = true))

/-- What a device does by itself (R257, R260, R261): the head's HEARTBEAT, a member's STATUS, the repeated NAKs, one for
every open gap, and snapshot request, the end of a gap that stays open, and the promotion of the standby, which processes
what it holds at once (the model's choice, assumption 54). -/
def Obligations.SprinklerActs : Prop :=
  ∀ s : State, s.clocked = true → s.ctl.down = false →
    (s.isHead = true → s.sprk.beatAt + msC 10 ≤ s.clock →
      ∃ t, exec .heartbeat s = .next t ∧ t.sprk = { s.sprk with beatAt := s.clock } ∧
        (s.macIdle (s.g 0x5400 0 0x06) = true → t.outs ≠ [])) ∧
    (s.g 0x5400 0 0x02 ≠ 0 → s.isHead = false → s.sprk.statusAt + msC 100 ≤ s.clock →
      ∃ t, exec .status s = .next t ∧ t.sprk = { s.sprk with statusAt := s.clock } ∧
        (s.macIdle (s.g 0x5400 0 0x06) = true → t.outs ≠ [])) ∧
    (s.sprk.gapAt ≠ none → s.sprkState = 3 → s.sprk.nakAt + msC 2 ≤ s.clock → s.sprkGaps ≠ [] →
      ∃ t, exec .nakRepeat s = .next t ∧ t.sprk = { s.sprk with nakAt := s.clock } ∧
        t.g 0x5400 0 0x12 = (s.g 0x5400 0 0x12 + s.sprkGaps.length) % 2 ^ 32) ∧
    (∀ g, s.sprk.gapAt = some g → s.sprkState = 3 → g + s.lead / 2 ≤ s.now ∨ 256 ≤ s.sprk.hold.length →
      ∃ t, exec .gapSkip s = .next t ∧ t.sprk.hold = [] ∧ t.sprk.gapAt = none ∧ t.g 0x5400 0 0x0D = 4 ∧
        t.g 0x5400 0 0x14 = (s.g 0x5400 0 0x14 + 1) % 2 ^ 32 ∧ bit (t.g 0x5400 0 0x1C) 1 = true) ∧
    (s.sprkState = 1 ∨ s.sprkState = 4 → s.sprk.reqAt + msC 100 ≤ s.clock →
      ∃ t, exec .snapshotRequestRepeat s = .next t ∧ t.sprk = { s.sprk with reqAt := s.clock }) ∧
    (s.g 0x5400 0 0x02 = 3 → s.sprkState ∈ [1, 3, 4, 5, 7] → (s.sprkState = 5 → s.sprk.before ≠ 6) →
      s.sprk.beatAt + msC (s.g 0x5400 0 0x0C) ≤ s.clock →
      ∃ t, exec .promoted s = .next t ∧ t.isHead = true ∧ t.g 0x5400 0 0x0F = (s.g 0x5400 0 0x0F + 1) % 2 ^ 32 ∧
        t.g 0x5400 0 0x0E = s.g 0x5400 0 0x01 ∧ t.sprk.hold = [] ∧ bit (t.g 0x5400 0 0x1C) 4 = true)

/-- The Hedge and its channels (R281 to R284): MOD_EN rises with the enable; a disable ramps every running channel down from
its fold-back gain; at the first carrier period boundary after its ramp a channel drives its pins low and keeps its state, and
MOD_EN falls 1 ms after the last; a channel goes from OFF to HELD, starts at a carrier boundary, runs after its start ramp,
ramps down when it is disabled, and goes OFF at the boundary after that ramp. A disabled channel whose pins are low goes OFF
at once, and one enabled again during its ramp ends in HELD: both are the model's choices (assumption 72). -/
def Obligations.HedgeStatesComplete : Prop :=
  ∀ s : State, s.clocked = true →
    (∀ h d, s.writeCheck h (opOf 0x5A00 0 0x01 d) = stOK → leNat d = 1 → s.on 0x5A00 0 0x01 = false →
      s.on 0x5A00 0 0x06 = false → s.power.hedgeOff = false →
      ∃ t, exec (.hedgeEnable h d) s = .next t ∧ t.result = ⟨some stOK, []⟩ ∧ t.g 0x5A00 0 0x01 = 1 ∧
        t.g 0x5A00 0 0x06 = 1 ∧ t.outs = [.pin "MOD_EN" 1] ∧
        t.hedge = { s.hedge with
          enAt := s.clock, burst := ceilDiv ((2 * s.clock - s.hedge.epoch) * s.g 0x5A00 0 0x04) 1000000000 }) ∧
    (∀ h d, s.writeCheck h (opOf 0x5A00 0 0x01 d) = stOK → leNat d = 0 → s.on 0x5A00 0 0x01 = true →
      ∃ t, exec (.hedgeDisable h d) s = .next t ∧ t.result = ⟨some stOK, []⟩ ∧ t.g 0x5A00 0 0x01 = 0 ∧
        t.hedge.lowAt = s.clock ∧
        ∀ n < 24, s.modRuns n = true → (s.mod n).ramp = none →
          t.mod n = { s.mod n with ramp := some ⟨false, 2 * s.clock, X.toF (X.ofF (s.mod n).fold), 2⟩,
                                   half := (t.mod n).half, errA := (t.mod n).errA, errB := (t.mod n).errB } ∧
          t.modState n = s.modState n) ∧
    (∀ n j a, n < 24 → s.modRuns n = true → s.downEnded n = some (2, j, a) →
      ∃ t, exec (.hedgeRampDownEnd n) s = .next t ∧ t.outs.getLast? = some (.modLow [n]) ∧
        t.mod n = { s.mod n with quiet := true, ramp := none,
                                 half := (t.mod n).half, errA := (t.mod n).errA, errB := (t.mod n).errB } ∧
        t.hedge.lowAt = ceilDiv a 2 ∧ Kept (fun _ => False) [.result, .outs, .hedge] s t) ∧
    (s.hedgeOn = false → s.on 0x5A00 0 0x06 = true → (∀ n < 24, s.modRuns n = false) →
      s.hedge.lowAt + msC 1 ≤ s.clock →
      ∃ t l, exec .modEnFall s = .next t ∧ t.g 0x5A00 0 0x06 = 0 ∧
        t.outs = l ++ [.pin "MOD_EN" 0, .pin "MSENSE_CLK" 0] ∧ (∀ o ∈ l, ∃ e f i c, o = .bursts e f i c) ∧
        t.hedge = { s.hedge with burst := t.hedge.burst } ∧ t.hedge.burst = max s.hedge.burst
          (ceilDiv ((2 * (s.hedge.lowAt + msC 1) - s.hedge.epoch) * s.g 0x5A00 0 0x04) 1000000000) ∧
        Kept (· = K 0x5A00 0 0x06) [.result, .outs, .hedge] s t) ∧
    (∀ h n d, n < 24 → s.writeCheck h (opOf 0x5800 n 0x01 d) = stOK → leNat d = 1 →
      ∃ t, exec (.channelEnable h n d) s = .next t ∧ t.result = ⟨some stOK, []⟩ ∧ t.g 0x5800 n 0x01 = 1 ∧
        t.modState n = (if s.modState n = 0 then 1 else s.modState n)) ∧
    (∀ h n d, n < 24 → s.writeCheck h (opOf 0x5800 n 0x01 d) = stOK → leNat d = 0 →
      ∃ t, exec (.channelDisable h n d) s = .next t ∧ t.result = ⟨some stOK, []⟩ ∧ t.g 0x5800 n 0x01 = 0 ∧
        (s.modState n = 1 → t.modState n = 0) ∧
        (s.modLive n = true → (s.mod n).quiet = true → t.modState n = 0 ∧ (t.mod n).quiet = false) ∧
        (s.modRuns n = true → (s.mod n).ramp = none → t.modState n = s.modState n ∧
          t.mod n = { s.mod n with ramp := some ⟨false, 2 * s.clock, X.toF (X.ofF (s.mod n).fold), 1⟩,
                                   half := (t.mod n).half, errA := (t.mod n).errA, errB := (t.mod n).errB })) ∧
    (∀ n j a, n < 24 → s.modRuns n = true → s.downEnded n = some (1, j, a) →
      ∃ t, exec (.channelOff n) s = .next t ∧ t.modState n = (if s.on 0x5800 n 0x01 = true then 1 else 0) ∧
        t.outs.getLast? = some (.modLow [n]) ∧ t.hedge.lowAt = ceilDiv a 2 ∧
        t.mod n = { s.mod n with ramp := none,
                                 half := (t.mod n).half, errA := (t.mod n).errA, errB := (t.mod n).errB }) ∧
    (∀ n, n < 24 → s.canStart n = true →
      let j := s.periodFrom (2 * s.clock)
      ∃ t, exec (.channelStart n) s = .next t ∧ t.modState n = 2 ∧
        t.mod n = { s.mod n with
          quiet := false, ramp := some ⟨true, s.boundary (j + 1), 0, 0⟩, mmax := s.g 0x5A00 0 0x0D, startJ := j,
          half := 2 * j, errA := [0, 0, 0], errB := [0, 0, 0], overs := 0, vdc := 0, dcRun := 0 }) ∧
    (∀ n r, n < 24 → (s.mod n).ramp = some r → r.up = true → s.modState n = 2 → r.t0 + 100000000 ≤ 2 * s.clock →
      ∃ t, exec (.startRampEnd n) s = .next t ∧ t.modState n = 3 ∧
        t.mod n = { s.mod n with ramp := none,
                                 half := (t.mod n).half, errA := (t.mod n).errA, errB := (t.mod n).errB })

/-- A retune (R278): at the first boundary of the old carrier after 10 ms of ramping down the channels drive their pins low,
and those disabled meanwhile go OFF; 1 ms later the carrier selected starts with a new epoch, on which the others start
again. Measurement of the channels (R290 to R292, R294): a render block takes the settings over and starts new sums; an
impedance window that ends gives √(ΣV² / ΣI²) in ohms, each frame scaled by the full scales of its block, if enough blocks
counted. That this window tumbles and that the quotient is rounded once are the model's choices (assumption 73). -/
def Obligations.HedgeMeasuresComplete : Prop :=
  (∀ (s : State) (a : Nat), s.clocked = true →
      (s.hedge.retune = some (1, a) →
        let stop := s.boundary (s.periodFrom (2 * (a + msC 10)))
        stop ≤ 2 * s.clock →
        ∃ t, exec .oldCarrierStop s = .next t ∧ t.hedge.retune = some (2, ceilDiv stop 2) ∧
          t.hedge.lowAt = ceilDiv stop 2 ∧
          ∀ n < 24, s.modRuns n = true →
            (s.on 0x5800 n 0x01 = true → t.modState n = s.modState n ∧
              t.mod n = { s.mod n with quiet := true, ramp := none,
                                       half := (t.mod n).half, errA := (t.mod n).errA, errB := (t.mod n).errB }) ∧
            (s.on 0x5800 n 0x01 = false → t.modState n = 0 ∧ (t.mod n).quiet = false ∧ (t.mod n).ramp = none)) ∧
      (s.hedge.retune = some (2, a) → a + msC 1 ≤ s.clock →
        ∃ t, exec .newCarrier s = .next t ∧ t.hedge.retune = none ∧ t.hedge.epoch = 2 * (a + msC 1) ∧
          t.g 0x5A00 0 0x04 = s.carrier.1 % 2 ^ 32 ∧
          ∀ n < 24, (t.mod n).recent = [] ∧
            ((s.mod n).quiet = true → s.hedgeOn = true → s.modLive n = true → t.modState n = 2 ∧
              (t.mod n).quiet = false ∧ (t.mod n).startJ = 0 ∧ (t.mod n).ramp = some ⟨true, t.boundary 1, 0, 0⟩))) ∧
  (∀ s : State, s.clocked = true →
      (s.hedge.block < s.now / 16 →
        ∃ t, exec .hedgeBlock s = .next t ∧ t.hedge.block = s.now / 16 ∧
          ∀ n < 24, (t.mod n).cfg = (List.range 14).map (fun i => s.g 0x5800 n (3 + i)) ∧ (t.mod n).frames = 0 ∧
            (t.mod n).sumV = 0) ∧
      (∀ n, n < 24 → (s.mod n).zAt + s.fA ≤ s.now → s.fA / 160 ≤ (s.mod n).zBlocks → (s.mod n).zI2 ≠ 0 →
        let x := s.mod n
        ∃ t, exec (.impedanceWindow n) s = .next t ∧
          t.mod n = { x with zV2 := 0, zI2 := 0, zBlocks := 0, zAt := s.now } ∧
          t.g 0x5800 n 0x18 = X.toF (2 * X.sqrt (X.div (x.zV2 * X.one) (x.zI2 * X.one))) % 2 ^ 32))

/-- Sensing and trips (R279, R280, R285 to R289): a valid frame of a burst is taken into the sums; a second one above the
level in succession trips a channel that is STARTING or runs; an invalid one is counted, and the eighth in succession trips;
a fault line trips the channels identified, or else every one of its group, and of causes that fall due in one cycle the
lowest is recorded; a tripped channel retries after 200 ms, a latched one is cleared by its host. That one cycle is one
reading of the counter, and the burst to which a frame belongs, are the model's choices (assumptions 82 and 72). -/
def Obligations.TripsComplete : Prop :=
  ∀ s : State, s.clocked = true →
    (∀ n w c k, n < 24 → w < 2 ^ 32 → s.burstOf n (max s.clock c) = some k → frameValid w = true →
      let x := s.mod n
      let now := max s.clock c
      ((x.above w = false ∨ x.overs = 0 ∨ x.set 0x03 ≠ 1) →
        ∃ t, exec (.senseFrame n w c) s = .next t ∧ t.clock = now ∧ (t.mod n).last = some w ∧
          (t.mod n).frames = x.frames + 1 ∧ (t.mod n).sumV = x.sumV + frameV w ∧ (t.mod n).invalid = 0 ∧
          (t.mod n).recent = ((k, some w) :: x.recent).take 2 ∧ t.modState n = s.modState n) ∧
      (x.above w = true → 1 ≤ x.overs → x.set 0x03 = 1 → s.modLive n = true →
        ∃ t, exec (.senseFrame n w c) s = .next t ∧ t.clock = now ∧ t.g 0x5800 n 0x14 = 1 ∧ (t.mod n).ramp = none ∧
          (t.mod n).trips = now :: x.trips.filter (fun a => now < a + secC 10) ∧
          t.modState n = (if 3 ≤ (t.mod n).trips.length then 5 else 4) ∧
          (s.modRuns n = true → .modLow [n] ∈ t.outs) ∧
          t.g 0x5800 n 0x12 = (s.g 0x5800 n 0x12 + 1) % 2 ^ 32)) ∧
    (∀ n w c k, n < 24 → w < 2 ^ 32 → s.burstOf n (max s.clock c) = some k → frameValid w = false →
      ∃ t, exec (.senseFrame n w c) s = .next t ∧ (t.mod n).valid = 0 ∧
        t.g 0x5800 n 0x1B = (s.g 0x5800 n 0x1B + 1) % 2 ^ 32 ∧ bit (t.g 0x5800 n 0x1C) 5 = true ∧
        ((s.mod n).invalid < 7 → (t.mod n).invalid = (s.mod n).invalid + 1 ∧ t.modState n = s.modState n) ∧
        (7 ≤ (s.mod n).invalid → (s.mod n).set 0x03 = 1 → s.modLive n = true →
          t.g 0x5800 n 0x14 = 4 ∧ 4 ≤ t.modState n)) ∧
    (∀ n c, n < 3 → ∃ t, exec (.faultEdge n c) s = .next t ∧ t.clock = max s.clock c ∧
        (n, max s.clock c) ∈ t.hedge.faults ∧ bit (t.g 0x5A00 0 0x0E) n = false ∧
        t.g 0x5A00 0 (0x0A + n) = (s.g 0x5A00 0 (0x0A + n) + 1) % 2 ^ 32) ∧
    (∀ n c r, n < 3 → s.hedge.faults.filter (fun p => p.1 == n) = [(n, r)] →
      let u := { s with clock := max s.clock c }
      let group := range' (8 * n) 8
      u.faultDue r = true →
      ∃ t, exec (.faultIdentify n c) s = .next t ∧ (∀ p ∈ t.hedge.faults, p.1 ≠ n) ∧
        (∀ i ∈ group, u.identified (s.burstAfter r) i = true → 4 ≤ t.modState i ∧
          t.g 0x5800 i 0x14 = (if u.tripping i = true then min (s.g 0x5800 i 0x14) 2 else 2)) ∧
        ((∀ i ∈ group, u.identified (s.burstAfter r) i = false) → ∀ i ∈ group, s.modLive i = true →
          t.g 0x5800 i 0x14 = 3 ∧ 4 ≤ t.modState i)) ∧
    (∀ n, n < 24 → s.modState n = 4 → s.on 0x5800 n 0x01 = true → (s.mod n).trips.headD 0 + msC 200 ≤ s.clock →
      (((s.mod n).set 0x03 = 1 ∧ ∃ w, (s.mod n).last = some w ∧ bit w 30 = false ∧ (s.mod n).above w = false) ∨
        ((s.mod n).set 0x03 ≠ 1 ∧ bit (s.g 0x5A00 0 0x0E) (n / 8) = true)) →
      ∃ t, exec (.retry n) s = .next t ∧ t.modState n = 1) ∧
    (∀ h n d, n < 24 → s.writeCheck h (opOf 0x5800 n 0x11 d) = stOK → s.modState n = 5 →
      ∃ t, exec (.clearLatch h n d) s = .next t ∧ t.modState n = (if s.on 0x5800 n 0x01 = true then 1 else 0) ∧
        (t.mod n).trips = [] ∧ t.g 0x5800 n 0x13 = 0) ∧
    (∀ h d, s.writeCheck h (opOf 0x5A00 0 0x10 d) = stOK →
      ∃ t, exec (.clearTripLog h d) s = .next t ∧ t.gb 0x5A00 0 0x07 = [] ∧
        Kept (· = K 0x5A00 0 0x07) [.result, .outs] s t)

/-- Microphones (R299, R300, R303 to R305): a resynchronisation resets every decimator at the next boundary, after which
a microphone settles for 256 samples and runs; one whose bits stand still has no data, and resets once they move
again; a compensation filter written is switched to at a boundary. -/
def Obligations.MicrophonesComplete : Prop :=
  ∀ s : State, s.clocked = true →
    (∀ h sub d, sub = 0x01 ∨ sub = 0x03 → s.writeCheck h (opOf 0x5C00 0 sub d) = stOK →
      ¬ (sub = 0x01 ∧ s.fA = 96000 ∧ leNat d = 3072000) →
      ∃ t, exec (.resynchronise h sub d) s = .next t ∧ t.meas.resetDue = some (nextBlock s.now) ∧
        (sub = 0x01 → t.g 0x5C00 0 0x01 = leNat d)) ∧
    (∀ B, s.meas.resetDue = some B → B ≤ s.now →
      ∃ t, exec .decimatorReset s = .next t ∧ t.meas.resetDue = none ∧ t.meas.rate = s.g 0x5C00 0 0x01 ∧
        t.g 0x5C00 0 0x04 = B % 2 ^ 64 ∧ t.g 0x5C00 0 0x05 = (s.g 0x5C00 0 0x05 + 1) % 2 ^ 32 ∧
        t.outs = (List.range 4).map (fun k => .clock (nth pdmClkPins k "")
            (if s.meas.clocked && bit (s.g 0x5C00 0 0x02) k then s.g 0x5C00 0 0x01 else 0)) ++
          (if s.on 0x5C00 0 0x08 then [.pulse "PDM_SYNC" 0 (1000000000000 * 96000 / s.g 0x5C00 0 0x01)] else []) ∧
        ∀ m < 16, s.micState m ≠ 0 → s.micState m ≠ 4 → t.micState m = 1 ∧ (t.mic m).resetAt = B) ∧
    (∀ n, n < 16 → s.micState n = 1 → s.meas.clocked = true → (s.mic n).resetDue = none → s.meas.resetDue = none →
      (s.mic n).resetAt + 256 ≤ s.now →
      ∃ t, exec (.settlingEnd n) s = .next t ∧ t.micState n = 2 ∧ (t.mic n).ramp = some (true, 0, 0) ∧
        ((s.mic n).back = true → bit (t.g 0x5C10 n 0x10) 1 = true)) ∧
    (∀ n, n < 16 → s.micState n = 2 → 2048 ≤ (s.mic n).same →
      ∃ t, exec (.noData n) s = .next t ∧ t.micState n = 3 ∧ (t.mic n).ramp = some (false, 0, (s.mic n).out) ∧
        t.g 0x5C10 n 0x0F = (s.g 0x5C10 n 0x0F + 1) % 2 ^ 32 ∧ bit (t.g 0x5C10 n 0x10) 0 = true) ∧
    (∀ n, n < 16 → s.micState n = 3 → (s.mic n).alive = true →
      ∃ t, exec (.pdmDataResumed n) s = .next t ∧
        t.mic n = { s.mic n with alive := false, resetDue := some (nextBlock s.now) } ∧
        Kept (fun _ => False) [.result, .outs, .meas] s t) ∧
    (∀ h n d, n < 16 → s.writeCheck h (opOf 0x5C10 n 0x07 d) = stOK → d.length = 4 + 4 * fieldLE d 0 4 →
      1 ≤ fieldLE d 0 4 → fieldLE d 0 4 ≤ 256 → (∀ x ∈ compTaps d, tapOk x = true) →
      ∃ t, exec (.compensationWrite h n d) s = .next t ∧ t.gb 0x5C10 n 0x07 = d ∧
        t.mic n = { s.mic n with pend := some (nextBlock s.now, compTaps d) } ∧
        ((s.mic n).sw = none → t.g 0x5C10 n 0x0B = 1)) ∧
    (∀ n B taps, n < 16 → (s.mic n).sw = none → (s.mic n).pend = some (B, taps) → B ≤ s.now → s.now % 16 = 0 →
      ∃ t, exec (.compensationSwitch n) s = .next t ∧ t.g 0x5C10 n 0x0B = 2 ∧
        t.mic n = { s.mic n with pend := none,
                                 sw := some ⟨s.now, taps, 2 ^ s.g 0x5C10 n 0x09, s.g 0x5C10 n 0x08⟩ })

/-- The stimulus and the run (R307, R309 to R314): an output opens and closes at a boundary; a run starts with the
outputs that are selected and open, plays and captures them in turn, analyses every capture, and ends; an abort
gives result 3 to the outputs not yet analysed. The recorder (R317): the freeze event that is due starts its post-
trigger time, at whose end the recorder is frozen and reports its window; a rearm records anew from the next
boundary. A close during an opening fade begins at that fade's end (assumption 39), and of freeze events the earliest that is
due counts, of one time the lowest cause (assumption 29): both are the model's choices. -/
def Obligations.RunsComplete : Prop :=
  (∀ s : State, s.clocked = true →
      (∀ h n d, n < 512 → s.writeCheck h (opOf 0x5D10 n 0x01 d) = stOK → leNat d = 1 → s.on 0x5D10 n 0x01 = false →
        s.opens n = [] →
        ∃ t, exec (.openOutput h n d) s = .next t ∧ t.g 0x5D10 n 0x01 = 1 ∧ t.opens n = [(nextBlock s.now, true)]) ∧
      (∀ h n d B, n < 512 → s.writeCheck h (opOf 0x5D10 n 0x01 d) = stOK → leNat d = 0 → s.on 0x5D10 n 0x01 = true →
        s.opens n = [(B, true)] →
        ∃ t, exec (.closeOutput h n d) s = .next t ∧ t.g 0x5D10 n 0x01 = 0 ∧
          t.opens n = [(B, true), (max (nextBlock s.now) (B + 64), false)] ∧
          ∀ r i, s.meas.run = some r → r.stim.place n = some i → r.stim.startOf i ≤ s.now →
            s.now < r.stim.startOf i + r.stim.M → t.g 0x5D10 n 0x04 = 3 ∧ bit (t.g 0x5D10 n 0x0E) 0 = true) ∧
      (∀ h d, s.writeCheck h (opOf 0x5D00 0 0x09 d) = stOK → s.g 0x5D00 0 0x0B = 0 →
        let outs := (List.range 512).filter (fun k => s.on 0x5D10 k 0x01 && s.on 0x5D10 k 0x02)
        outs ≠ [] → s.micState (s.g 0x5D00 0 0x08) = 2 → leNat d ≤ s.now + 2 ^ 31 →
        ∃ t r, exec (.startRun h d) s = .next t ∧ t.meas.run = some r ∧ r.stim.outs = outs ∧ r.next = 0 ∧ r.done = 0 ∧
          r.caps = [] ∧ r.stim.start = (if leNat d ≤ s.now + 32 then nextEval s.now else 16 * ceilDiv (leNat d) 16) ∧
          t.g 0x5D00 0 0x0B = 1 ∧ t.g 0x5D00 0 0x0E = 0 ∧
          t.result = ⟨some (if leNat d ≤ s.now + 32 ∧ leNat d ≠ 0 then stTooLate else stOK), []⟩) ∧
      (∀ r k, s.meas.run = some r → r.stim.outs[r.next]? = some k → k < 512 → r.stim.startOf r.next ≤ s.now →
        ∃ t c, exec .stimulusStart s = .next t ∧
          t.meas = { s.meas with run := some { r with next := r.next + 1, caps := r.caps ++ [c] } } ∧ c.out = k ∧
          c.at_ = r.stim.startOf r.next ∧ t.g 0x5D00 0 0x0B = 2 ∧ t.g 0x5D00 0 0x0D = k) ∧
      (∀ r c cs, s.meas.run = some r → r.caps = c :: cs → c.out < 512 → c.at_ + r.stim.M + r.stim.gap + 1 ≤ s.now →
        s.pieceRun = true →
        ∃ t, exec .captureAnalysis s = .next t ∧ t.meas.run = some { r with caps := cs, done := r.done + 1 } ∧
          t.g 0x5D10 c.out 0x04 = r.stim.result c) ∧
      (∀ r, s.meas.run = some r → r.stim.outs.length ≤ r.done →
        ∃ t, exec .runDone s = .next t ∧ t.meas.run = none ∧ t.g 0x5D00 0 0x0B = 0 ∧ t.g 0x5D00 0 0x0D = 0xFFFF ∧
          t.g 0x5D00 0 0x13 = (s.g 0x5D00 0 0x13 + 1) % 2 ^ 32 ∧ bit (t.g 0x5D00 0 0x14) 0 = true) ∧
      (∀ h d r, s.writeCheck h (opOf 0x5D00 0 0x0A d) = stOK → s.meas.run = some r →
        ∃ t, exec (.abortRun h d) s = .next t ∧ t.meas = { s.meas with run := none, fading := some (r.stim, s.now) } ∧
          (∀ k ∈ r.stim.outs.drop r.done, k < 512 → t.g 0x5D10 k 0x04 = 3) ∧ t.g 0x5D00 0 0x0B = 0 ∧
          bit (t.g 0x5D00 0 0x14) 1 = true)) ∧
  (∀ s : State, s.clocked = true →
      (∀ cause f, s.nextFreeze = some (cause, f) → s.g 0x5D80 0 0x06 = 1 →
        ∃ t, exec (.freeze cause) s = .next t ∧ t.g 0x5D80 0 0x06 = 2 ∧
          t.meas = { s.meas with events := s.meas.events.erase (cause, f), post := s.g 0x5D80 0 0x03, cause := cause,
                                 frozeAt := f }) ∧
      (s.g 0x5D80 0 0x06 = 2 → s.meas.frozeAt + s.meas.post ≤ s.now →
        ∃ t, exec .postEnd s = .next t ∧ t.g 0x5D80 0 0x06 = 3 ∧
          t.g 0x5D80 0 0x08 = max (s.meas.frozeAt + s.meas.post + 1 - s.g 0x5D80 0 0x07) s.meas.recFrom % 2 ^ 64 ∧
          t.g 0x5D80 0 0x09 = (s.meas.frozeAt + s.meas.post) % 2 ^ 64 ∧ t.g 0x5D80 0 0x0A = s.meas.cause % 2 ^ 8 ∧
          t.g 0x5D80 0 0x0B = s.meas.frozeAt % 2 ^ 64 ∧ bit (t.g 0x5D80 0 0x0D) 1 = true) ∧
      (∀ h d, s.writeCheck h (opOf 0x5D80 0 0x05 d) = stOK → s.g 0x5D80 0 0x06 = 3 →
        ∃ t, exec (.rearm h d) s = .next t ∧ t.g 0x5D80 0 0x06 = 1 ∧
          t.meas = { s.meas with ring := [], events := [], recFrom := nextBlock s.now }))

/-- Chains (R336, R339 to R341): a description in order is stored and leaves the chain stopped, one with a broken rule
is named; an enable places the chain on the core that has room; a disable ramps it down, after which it gives its
core back; parameters in order wait for the next run. -/
def Obligations.ChainsComplete : Prop :=
  ∀ (s : State) (n : Nat), s.clocked = true → n < 256 →
    (∀ h d x, s.writeCheck h (opOf 0x5E10 n 0x02 d) = stOK → s.chainState n < 2 → d.length ≤ 65536 →
      readDesc d = some x →
      (s.descCheck h d x = none →
        ∃ t, exec (.descriptionWrite h n d) s = .next t ∧ t.result = ⟨some stOK, []⟩ ∧ t.gb 0x5E10 n 0x02 = d ∧
          t.chainState n = 1 ∧ t.chainSt n = Chain.init) ∧
      (∀ reason item, s.descCheck h d x = some (stOutOfRange, reason, item) →
        ∃ t, exec (.descriptionWrite h n d) s = .next t ∧ t.result = ⟨some stOutOfRange, []⟩ ∧
          t.g 0x5E10 n 0x11 = reason % 2 ^ 8 ∧ t.gb 0x5E10 n 0x02 = s.gb 0x5E10 n 0x02 ∧
          t.chainState n = s.chainState n)) ∧
    (∀ h d i, s.writeCheck h (opOf 0x5E10 n 0x01 d) = stOK → leNat d = 1 → s.chainState n = 1 →
      (∀ k ∈ (s.desc n).kerns, s.kernKnown k.id = true) → s.findCore n = (i, 0) →
      ∃ t, exec (.chainEnable h n d) s = .next t ∧ t.g 0x5E10 n 0x01 = 1 ∧ t.chainState n = 2 ∧
        t.g 0x5E10 n 0x06 = i % 2 ^ 8) ∧
    (∀ h d, s.writeCheck h (opOf 0x5E10 n 0x01 d) = stOK → leNat d = 0 → 2 ≤ s.chainState n → s.chainState n ≤ 4 →
      (s.chainSt n).closing = false →
      ∃ t, exec (.chainDisable h n d) s = .next t ∧ t.g 0x5E10 n 0x01 = 0 ∧ t.chainState n = s.chainState n ∧
        t.chainSt n = { s.chainSt n with closing := true, wait := none, ramp := some (false, 0, (s.chainSt n).out) }) ∧
    (∀ i y, (s.chainSt n).closing = true → (s.chainSt n).cur = none → (s.chainSt n).ramp = some (false, i, y) → 64 ≤ i →
      s.on 0x5E10 n 0x01 = false →
      ∃ t, exec (.chainRelease n) s = .next t ∧ t.chainState n = 1 ∧ t.g 0x5E10 n 0x06 = 0xFF ∧
        t.g 0x5E10 n 0x07 = 0xFFFF ∧ t.chainSt n = Chain.init) ∧
    (∀ h d rs (ps : List Bytes), s.writeCheck h (opOf 0x5E10 n 0x03 d) = stOK → s.placed.contains n = true → readPars 256 d = some rs →
      (∀ r ∈ rs, r.zero = true) →
      putPars ((s.chainSt n).pend.foldl (fun p w => (putPars p w).getD p) (s.chainSt n).pars) d = some ps →
      (∀ (i : Nat) (p : Bytes), ps[i]? = some p → ∃ q : Kern, (s.desc n).kerns[i]? = some q ∧
        s.kernPar q.id q.ins.length (s.desc n).b p = true ∧ s.kernForm q.id q.ins.length q.outs.length p = true) →
      ∃ t, exec (.parameterWrite h n d) s = .next t ∧ t.result = ⟨some stOK, []⟩ ∧
        t.chainSt n = { s.chainSt n with pend := (s.chainSt n).pend ++ [d] } ∧
        Kept (fun _ => False) [.result, .outs, .pool] s t)

/-- Runs (R342, R350, R360 to R363): an event flag releases the run of a chain whose gate passes; a run that ends in
time gives its outputs, its completion words and its count; one that an uncorrectable word of program memory aborts gives
no output; one past its deadline is missed; a host sets host flags.
Kernel packs (R351 to R353): a pack whose slot is not in use and which passes every check empties its slot and is written
within the bound of R412; when the write has ended, which a step on an empty queue finds (the model's choice, assumption 84),
the pack is stored with its version, count and digest and raises the floor where the MRAM took it, and where it did not
STORE_FAIL is answered and the slot stays empty, its floor as it was; an erase empties the slot. The completion words of an
aborted run, and what it counts, are the model's choice (assumption 65). -/
def Obligations.ChainRunsComplete : Prop :=
  (∀ (s : State) (n : Nat), s.clocked = true →
      (s.engines.running = true → s.flagDue n = true → mget? s.pool.raised n ≠ some s.now →
        ∃ t, exec (.flagRaise n) s = .next t ∧ mget? t.pool.raised n = some s.now ∧
          (n = 6 → t.pool.second = s.ns / 1000000000 ∧
            (s.pool.second ≠ s.ns / 1000000000 → t.pool.busy = [])) ∧
          ∀ c j, n < 3 → s.placed = [c] → (s.chainSt c).next = none → (s.desc c).flag = n → (s.gate c).1 = true → (s.chainSt c).firstX ≤ s.now - 1 →
            (s.chainSt c).closing = false → (s.chainSt c).wait = none → (s.chainSt c).cur = some j →
            (t.chainSt c).wait = some ⟨s.now - 1, (s.chainSt c).block (s.desc c).b (s.desc c).ins, s.clock, 0, false,
              if s.on 0x5F20 c 0x03 = true then (s.gate c).2 else 0, []⟩) ∧
      (∀ cycles bad j, n < 256 → (s.chainSt n).cur = some j → j.missed = false → s.now < j.X + 1 + (s.desc n).b →
        let r := s.runChain n j bad
        ∃ t, exec (.runComplete n cycles bad none) s = .next t ∧ t.gb 0x5E10 n 0x0F = r.words ∧
          t.gb 0x5E10 n 0x10 = r.res.take 16384 ∧
          t.g 0x5E10 n 0x0C = (s.g 0x5E10 n 0x0C + 1) % 2 ^ 32 ∧
          t.g 0x5E10 n 0x0E = min cycles (s.costOf (s.desc n)) % 2 ^ 32 ∧
          (t.chainSt n).outq = (s.chainSt n).outq ++
            [(j.X, (List.range (s.desc n).outs).map (fun o => mget [] r.bufs (16 + o)))]) ∧
      (∀ cycles bad j w, n < 256 → (s.chainSt n).cur = some j →
        ∃ t, exec (.runComplete n cycles bad (some w)) s = .next t ∧ bit (t.g 0x5E10 n 0x13) 3 = true ∧
          t.gb 0x5E10 n 0x0F = abortWords (s.desc n).kerns.length j.touched ∧
          (t.chainSt n).outq = (s.chainSt n).outq ∧ t.gb 0x5E10 n 0x10 = s.gb 0x5E10 n 0x10) ∧
      (∀ j, n < 256 → (s.chainSt n).cur = some j → j.overdue (s.desc n).b s.now = true →
        ∃ t, exec (.missedRun n) s = .next t ∧ (t.chainSt n).cur = some { j with missed := true } ∧
          (t.chainSt n).missed = (s.chainSt n).missed + 1 ∧ t.g 0x5E10 n 0x0D = (s.g 0x5E10 n 0x0D + 1) % 2 ^ 32 ∧
          bit (t.g 0x5E10 n 0x13) 4 = true) ∧
      (∀ h d, s.writeCheck h (opOf 0x5F00 0 0x03 d) = stOK →
        ∃ t, exec (.setHostFlags h d) s = .next t ∧
          ∀ b < 64, bit (t.g 0x5F00 0 0x02) b = (bit (leNat d) b || bit (s.g 0x5F00 0 0x02) b))) ∧
  (∀ (s : State) (h n : Nat) (d : Bytes), s.clocked = true → n < 8 → s.power.mram = none → s.packInUse n = false →
      (s.writeCheck h (opOf 0x5E30 n 0x01 d) = stOK → d.length = 160 + fieldLE d 12 4 → d.length ≤ 524288 →
        slice d 0 4 = [0x55, 0x4B, 0x50, 0x4B] → fieldLE d 4 2 = 1 → fieldLE d 6 2 ≠ 0 → fieldLE d 6 2 ≤ 64 →
        slice d 16 48 = sha384 (packBody d) →
        s.g 0x5E30 n 0x05 ≤ fieldLE d 8 4 →
        (∀ i ∈ packIds d, romKernels.contains i = false ∧
          ∀ j < 8, j ≠ n → s.g 0x5E30 j 0x03 = 1 → (packIds (s.pack j)).contains i = false) →
        let signed := ecdsaVerify gumadalKey (sha384 (d.take (64 + fieldLE d 12 4))) (d.drop (64 + fieldLE d 12 4))
        ∃ t, exec (.packWrite h n d) s = .next t ∧
          (signed = true → t.result = ⟨none, []⟩ ∧ t.pack n = [] ∧ t.g 0x5E30 n 0x03 = 0 ∧
            t.g 0x5E30 n 0x05 = s.g 0x5E30 n 0x05 ∧
            ∃ e good, t.power.mram = some ⟨n, d, e, good⟩ ∧ s.clock ≤ e ∧ e ≤ s.clock + mramTime d.length) ∧
          (signed = false → t.result = ⟨some stOutOfRange, []⟩ ∧ t.pack n = s.pack n ∧ t.g 0x5E30 n 0x08 = 3)) ∧
      (s.writeCheck h (opOf 0x5E30 n 0x02 d) = stOK →
        ∃ t, exec (.packErase h n d) s = .next t ∧ t.result = ⟨some stOK, []⟩ ∧ t.pack n = [] ∧ t.g 0x5E30 n 0x03 = 0 ∧
          t.g 0x5E30 n 0x05 = s.g 0x5E30 n 0x05)) ∧
  (∀ (s : State) (r : MramRun), s.clocked = true → s.ctl.down = false → s.pending = [] → s.ctl.held = none →
      s.power.mram = some r → r.place < 8 → r.ends ≤ s.clock →
      ∃ t, step s = .next t ∧ t.power.mram = none ∧
        (r.good = true → t.result = ⟨some stOK, []⟩ ∧ t.pack r.place = r.image ∧ t.g 0x5E30 r.place 0x03 = 1 ∧
          t.g 0x5E30 r.place 0x04 = fieldLE r.image 8 4 ∧ t.g 0x5E30 r.place 0x05 = fieldLE r.image 8 4 ∧
          t.g 0x5E30 r.place 0x06 = fieldLE r.image 6 2 ∧ t.gb 0x5E30 r.place 0x07 = sha384 (packBody r.image)) ∧
        (r.good = false → t.result = ⟨some stStoreFail, []⟩ ∧ t.pack r.place = s.pack r.place ∧
          t.g 0x5E30 r.place 0x03 = s.g 0x5E30 r.place 0x03 ∧ t.g 0x5E30 r.place 0x05 = s.g 0x5E30 r.place 0x05))

/-- The memory system (R375, R379 to R381, R386, R387, R390 to R395): what each of its events counts and leaves; the scrub
and the patrol read the next word of their pass, and an uncorrectable word of the system SRAM resets the control
processor. The order of the scrub, and REDUNDANCY_LOST at the marking of a device, are the model's choices (assumption
76). -/
def Obligations.MemoryComplete : Prop :=
  ∀ s : State, s.clocked = true →
    (∀ n clock m e, (s.port14 n).lock = some (m, e) →
      ∃ t, exec (.lockTimeout n clock) s = .next t ∧ t.clock = max s.clock clock ∧
        (e + 64 ≤ max s.clock clock → (∀ r ∈ s.askers n, e + 64 ≤ r.since) → (t.port14 n).lock = none ∧ (t.port14 n).free = max (s.port14 n).free (e + 64) ∧
          t.g 0x6000 0 0x07 = (s.g 0x6000 0 0x07 + 1) % 2 ^ 32 ∧ bit (t.g 0x6000 0 0x0B) 2 = true) ∧
        (max s.clock clock < e + 64 ∨ (∃ r ∈ s.askers n, r.since < e + 64) → t.mem = s.mem)) ∧
    (∀ ready heat, s.g 0x6200 0 0x01 = 1 →
      ∃ t, exec (.refresh ready heat) s = .next t ∧ t.g 0x6200 0 0x02 = (if heat = 0 then 0 else 1) ∧
        (ready = false → s.alerted = false → s.waitsFor 7 true = false → s.waitsFor 8 true = false →
          t.mem = { s.mem with debt := 0, sub0 := t.mem.sub0, sub1 := t.mem.sub1 } ∧ t.mem.sub0.rows = [] ∧
          t.mem.sub1.rows = [] ∧ t.g 0x6200 0 0x03 = (s.g 0x6200 0 0x03 + (1 + s.mem.debt)) % 2 ^ 32) ∧
        (ready = true ∨ s.alerted = true ∨ s.waitsFor 7 true = true ∨ s.waitsFor 8 true = true → s.mem.debt < 4 →
          t.mem = { s.mem with debt := s.mem.debt + 1 } ∧
          t.g 0x6200 0 0x04 = (s.g 0x6200 0 0x04 + 1) % 2 ^ 32 ∧ t.g 0x6200 0 0x03 = s.g 0x6200 0 0x03) ∧
        (ready = true → s.alerted = false → 4 ≤ s.mem.debt → t.mem.debt = s.mem.debt ∧
          t.g 0x6200 0 0x03 = (s.g 0x6200 0 0x03 + 1) % 2 ^ 32)) ∧
    (∀ n row bank, s.mem.nrr.length < 16 →
      ∃ t, exec (.neighbourRefresh n row bank false) s = .next t ∧ t.mem.nrr = s.mem.nrr ++ [⟨n, row, bank, s.clock⟩] ∧
        Kept (fun _ => False) [.result, .outs, .mem] s t) ∧
    (∀ n row bank x, s.mem.nrr.find? (fun y => y.sub == n) = some x → (s.mem.sub n).alert = false → s.g 0x6200 0 0x01 = 1 →
      s.openRow n x.bank = none → s.waitsFor (7 + n) false = false ∨ x.at_ + 10000 ≤ s.clock → 0 < x.row → x.row < 65535 →
      ∃ t, exec (.neighbourRefresh n row bank true) s = .next t ∧ t.mem.nrr = s.mem.nrr.erase x ∧
        t.g 0x6200 0 0x07 = (s.g 0x6200 0 0x07 + 2) % 2 ^ 32) ∧
    (∀ n, (s.mem.sub n).alert = false →
      ∃ t, exec (.alert n) s = .next t ∧ (t.mem.sub n).alert = true ∧ (t.mem.sub n).alertAt = s.clock ∧
        (s.mem.waits = [] → s.mem.flights = [] → (∀ j, (s.port14 j).lock = none) →
          t.mem.sub n = { s.mem.sub n with alert := true, alertAt := s.clock }) ∧
        t.g 0x6200 0 0x09 = (s.g 0x6200 0 0x09 + 1) % 2 ^ 32) ∧
    (∀ n, (s.mem.sub n).alert = true →
      ∃ t, exec (.replay n 0) s = .next t ∧ 
        t.mem.sub n = { s.mem.sub n with alert := false, rows := [], next := (t.mem.sub n).next } ∧
        (s.mem.sub n).next ≤ (t.mem.sub n).next ∧ (t.mem.sub n).next ≤ max (s.mem.sub n).next (s.clock + 800) ∧
        t.g 0x6200 0 0x0A = (s.g 0x6200 0 0x0A + 1) % 2 ^ 32 ∧
        ∀ w d, LastOf ((s.mem.sub n).replayed.filterMap (fun c => match c with
            | .write w d => some (w, d)
            | _ => none)) w d → t.dramWord w = d) ∧
    (∀ drift, s.g 0x6200 0 0x01 = 1 → s.alerted = false → s.mem.zqDue.getD (s.mem.zqAt + msC (s.g 0x6200 0 0x0C)) ≤ s.clock →
      ∃ t, exec (.zqCalibration true drift) s = .next t ∧ t.mem.zqAt = s.clock ∧ t.mem.zqDue = none ∧
        t.g 0x6200 0 0x0D = (s.g 0x6200 0 0x0D + 1) % 2 ^ 32 ∧ t.g 0x6602 0 0x08 = drift % 2 ^ 32) ∧
    (∀ timing voltage, s.engines.running = false → s.g 0x6200 0 0x01 = 3 →
      ∃ t, exec (.scheduledRetraining true timing voltage) s = .next t ∧ t.g 0x6200 0 0x01 = 1 ∧ t.g 0x6200 0 0x11 = 0 ∧
        t.mem = { s.mem with retrain := false, trainAt := s.clock } ∧
        t.g 0x6200 0 0x12 = (s.g 0x6200 0 0x12 + 1) % 2 ^ 32 ∧ t.g 0x6200 0 0x13 = s.now % 2 ^ 64) ∧
    (∀ n offset, n < 2 → s.g 0x6200 0 0x01 = 1 → (s.mem.sub n).alert = false → s.waitsFor (7 + n) false = false →
      s.mem.scrubbed n < 2 ^ 26 → offset / 64 = subWord n (s.mem.scrubbed n) →
      ∃ t, exec (.scrub n offset []) s = .next t ∧ t.mem.dram = s.mem.dram ∧
        ((s.dramWord (offset / 64)).bad = true →
          t.g 0x6200 0 0x19 = (s.g 0x6200 0 0x19 + 1) % 2 ^ 32 ∧ bit (t.g 0x6200 0 0x21) 3 = true) ∧
        (s.mem.scrub0 + s.mem.scrub1 + 1 < 2 ^ 27 → t.mem.scrubbed n = s.mem.scrubbed n + 1 ∧
          t.mem.scrubbed (1 - n) = s.mem.scrubbed (1 - n) ∧ t.mem.scrubAt = s.mem.scrubAt) ∧
        (2 ^ 27 ≤ s.mem.scrub0 + s.mem.scrub1 + 1 → t.mem.scrub0 = 0 ∧ t.mem.scrub1 = 0 ∧ t.mem.scrubAt = s.clock ∧
          t.g 0x6200 0 0x17 = (s.g 0x6200 0 0x17 + 1) % 2 ^ 32)) ∧
    (∀ n word err syn, 1 ≤ n → n ≤ 6 → word = mget 0 s.mem.patrol n →
      (secDecode n err = 1 → ∃ t, exec (.patrol n word err syn) s = .next t ∧
        t.g 0x6100 n 0x02 = (s.g 0x6100 n 0x02 + 1) % 2 ^ 32 ∧
        t.g 0x6100 n 0x04 = word % 2 ^ 32 ∧ bit (t.g 0x6100 n 0x09) 0 = true ∧ t.mem.fixes = s.mem.fixes ++ [(n, word)]) ∧
      (n < 6 → secDecode n err = 2 → ∃ t, exec (.patrol n word err syn) s = .next t ∧
        t.g 0x6100 n 0x03 = (s.g 0x6100 n 0x03 + 1) % 2 ^ 32 ∧
        t.g 0x6100 n 0x05 = word % 2 ^ 32 ∧ bit (t.g 0x6100 n 0x09) 1 = true) ∧
      (n = 6 → secDecode n err = 2 → s.power.ctlReset = none → s.power.devReset = none →
        ∃ t, exec (.patrol n word err syn) s = .next t ∧ t.g 0x6400 0 0x0F = (s.g 0x6400 0 0x0F + 1) % 2 ^ 32 ∧
          t.g 0x6400 0 0x10 = 8 * word % 2 ^ 32 ∧ t.ctl.down = true ∧ t.power.ctlReset = some (s.clock, 4))) ∧
    (s.refreshesItself = true →
      ∃ t, exec (.selfRefreshEntry 0) s = .next t ∧ t.g 0x6200 0 0x01 = 2 ∧ t.mem.debt = 0 ∧ t.mem.sub0.rows = [] ∧
        t.mem.sub1.rows = [] ∧ (0 < s.mem.debt → t.g 0x6200 0 0x03 = (s.g 0x6200 0 0x03 + s.mem.debt) % 2 ^ 32) ∧
        t.g 0x6200 0 0x1E = (s.g 0x6200 0 0x1E + 1) % 2 ^ 32) ∧
    (∀ h n d, n < 10 → s.writeCheck h (opOf 0x6210 n 0x05 d) = stOK →
      (leNat d = 1 → s.markedDevice (n / 5) = none →
        ∃ t, exec (.markDevice h n d) s = .next t ∧ t.g 0x6210 n 0x05 = 1 ∧ t.g 0x6210 n 0x06 = 1 ∧
          t.g 0x6210 n 0x07 = s.now % 2 ^ 64 ∧ bit (t.g 0x6200 0 0x21) 4 = true ∧ bit (t.g 0x6200 0 0x21) 5 = true) ∧
      (leNat d = 0 →
        ∃ t, exec (.markDevice h n d) s = .next t ∧ t.g 0x6210 n 0x05 = 0 ∧ t.g 0x6210 n 0x06 = 0 ∧
          t.g 0x6210 n 0x07 = 0))

/-- Counters and trace (R488, R489, R491, R494): a latch copies every counter in one cycle; the trace port is enabled, with a
synchronisation message first, and disabled; the event of a synchronisation message comes at its interval, and that of a
counter snapshot at its own, each to take its place in the FIFO when its cycle is over. That a control of a type lands from
the next cycle, and the order of the FIFO and of the port in one cycle, are the model's choices (assumption 77). -/
def Obligations.ObservationComplete : Prop :=
  ∀ s : State, s.clocked = true →
    (∀ h d, s.writeCheck h (opOf 0x6A00 0 0x17 d) = stOK →
      ∃ t, exec (.counterLatch h d) s = .next t ∧
        t.gb 0x6A00 0 0x1A = ((List.range 512).map (fun i => leBytes 8 (s.counterVal i))).foldl (· ++ ·) [] ∧
        t.g 0x6A00 0 0x17 = leNat d ∧ t.g 0x6A00 0 0x18 = s.now % 2 ^ 64 ∧ t.g 0x6A00 0 0x19 = s.clock % 2 ^ 64 ∧
        t.g 0x6A00 0 0x1B = (s.g 0x6A00 0 0x1B + 1) % 2 ^ 32) ∧
    (∀ h d, s.writeCheck h (opOf 0x6A00 0 0x01 d) = stOK → leNat d = 1 → s.on 0x6A00 0 0x01 = false →
      ∃ t, exec (.traceEnable h d) s = .next t ∧ t.g 0x6A00 0 0x01 = 1 ∧ t.g 0x6A00 0 0x1E = 1 ∧
        t.g 0x6A00 0 0x0F = s.now % 2 ^ 64 ∧ t.trace.closing = false ∧ t.trace.snapAt = s.clock ∧
        t.trace.syncAt = s.clock ∧ (s.traceType 0 = true → (⟨s.clock, s.now, 0, true, []⟩ : TraceEv) ∈ t.trace.wait) ∧
        (s.g 0x6A00 0 0x1E ≠ 1 → t.trace.outAt = s.clock ∧ t.outs = [.clock "TRACE_CLK" 250000000])) ∧
    (∀ h d, s.writeCheck h (opOf 0x6A00 0 0x01 d) = stOK → leNat d = 0 → s.on 0x6A00 0 0x01 = true →
      ∃ t, exec (.traceDisable h d) s = .next t ∧ t.g 0x6A00 0 0x01 = 0 ∧ t.trace.closing = true) ∧
    (s.on 0x6A00 0 0x01 = true → s.g 0x6A00 0 0x02 = 1 → s.trace.syncAt + s.g 0x6A00 0 0x03 ≤ s.clock →
      ∃ t, exec .traceSync s = .next t ∧ t.trace.syncAt = s.clock ∧ t.outs = [] ∧
        (s.traceType 0 = true → (⟨s.clock, s.now, 0, true, []⟩ : TraceEv) ∈ t.trace.wait)) ∧
    (s.g 0x6A00 0 0x06 ≠ 0 → s.on 0x6A00 0 0x01 = true → s.traceType 444 = true →
      s.trace.snapAt + usC (s.g 0x6A00 0 0x07) ≤ s.clock →
      ∃ t, exec .counterSnapshot s = .next t ∧ t.trace.snapAt = s.clock ∧
        (⟨s.clock, s.now, 444, true, leBytes 2 (s.g 0x6A00 0 0x05) ++ leBytes 2 (s.g 0x6A00 0 0x06) ++
          ((range' (s.g 0x6A00 0 0x05) (s.g 0x6A00 0 0x06)).map (fun i => leBytes 8 (s.counterVal i))).foldl (· ++ ·) []⟩ :
          TraceEv) ∈ t.trace.wait)

/-- Resets of the whole device (R458 to R460, R466, R474, R476, Table 17.2): each is reported with its kind and cause,
and a boot whose straps ask for RECOVERY or manufacturing mode ends there, with every block as after reset; a loss
of the supplies holds the block in reset; a device reset asked for while the engines run ramps the outputs down
first; a boot that fails is counted, and the third time of one slot, with no other valid, the slot is marked failed.
Choices of the model are kind 2 with cause 3, or 7 the third time, for a failed boot (assumption 55), RESET_N in STANDBY as
a wake (58), the end of a manufacturing boot (19), and the pins at a loss of supplies and at the second one (85). -/
def Obligations.ResetsComplete : Prop :=
  ∀ (s : State) (b : BootIn), b.mode % 4 = 1 ∨ b.mode % 4 = 2 → b.failAt ≠ some 1 → b.failAt ≠ some 2 →
    (∃ t, exec (.powerOn b) s = .next t ∧ AfterReset (s.mramRead b) b 0 0 t ∧ t.power.resetAt = 0) ∧
    (s.power.supplyDown = false →
      ∃ t, exec .supplyLoss s = .next t ∧ t.power = { s.power with supplyDown := true, standby := false } ∧
        t.engines = { s.engines with running := false } ∧ t.clocked = false ∧
        t.outs = (List.range 32).map .sapHiz ++ resetFree.map .hiz ++
          [.idle "SDS_TX", .modHiz, .hiz "MOD_EN", .hiz "MSENSE_CLK", .pin "BYPASS_N" 0, .pin "SUPPLY_EN" 1]) ∧
    (s.power.supplyDown = true →
      ∃ t, exec .supplyLoss s = .next t ∧ t.power = s.power ∧ t.clocked = false ∧
        t.outs = [.hiz "BYPASS_N", .hiz "SUPPLY_EN", .hiz "SDS_TX"]) ∧
    (s.clocked = true → ∃ t, exec (.pinReset b) s = .next t ∧ AfterReset (s.mramRead b) b 1 1 t) ∧
    (∀ cause n secs f, s.power.supplyDown = false → s.power.standby = true →
      s.wakeArmed cause (n % 8) (n / 8) secs f = true →
      ∃ t, exec (.wake cause n secs f b) s = .next t ∧ AfterReset (s.mramRead b) b 0 6 t ∧ t.g 0x6502 0 0x03 = cause % 2 ^ 8 ∧
        t.g 0x6502 0 0x09 = (s.power.examined + b2n (cause ≤ 2)) % 2 ^ 32) ∧
    (s.power.supplyDown = false → s.power.standby = true →
      ∃ t, exec (.pinReset b) s = .next t ∧ AfterReset (s.mramRead b) b 0 6 t ∧ t.g 0x6502 0 0x03 = 5) ∧
    (∀ cause n secs f, s.clocked = true → s.wakeArmed cause (n % 8) (n / 8) secs f = true → s.g 0x6500 0 0x03 = 3 →
      s.g 0x6500 0 0x01 = 2 →
      ∃ t, exec (.wake cause n secs f b) s = .next t ∧ t.g 0x6500 0 0x03 = 0 ∧ t.power.entry = 0 ∧
        t.g 0x6502 0 0x0A = (s.g 0x6502 0 0x0A + 1) % 2 ^ 32) ∧
    (∀ h d, s.clocked = true → s.power.devReset = none → s.writeCheck h (opOf 0x6501 0 0x01 d) = stOK →
      s.engines.running = true →
      ∃ t, exec (.deviceReset h d b) s = .next t ∧ t.power = { s.power with devReset := some (nextBlock s.now, 2, false) } ∧
        t.result = ⟨some stOK, []⟩) ∧
    (∀ h d B cause e, s.clocked = true → s.power.devReset = some (B, cause, e) → s.engines.running = true → B ≤ s.now →
      s.now < B + 64 →
      ∃ t, exec (.deviceReset h d b) s = .next t ∧ t.maps = { s.maps with ramp := some (B, false) }) ∧
    (∀ h d B cause e, s.clocked = true → s.power.devReset = some (B, cause, e) → s.engines.running = false → cause < 16 →
      ∃ t, exec (.deviceReset h d b) s = .next t ∧ AfterReset (s.mramRead b) b 2 cause t ∧ bit (t.g 0x6501 0 0x11) 0 = true) ∧
    (let u := (Tx.begin s).w 0x6400 0 0x09 (s.g 0x6400 0 0x09 + 1)
     let slot := s.g 0x6400 0 0x02
     s.clocked = true → s.bootFailed = true →
      (s.g 0x6400 0 0x09 < 2 →
        let m := u.sysSave.cur.mramRead b
        ∃ t, exec (.bootFailure b) s = .next t ∧ AfterReset m b 2 3 t ∧ t.g 0x6400 0 0x09 = m.g 0x6400 0 0x09) ∧
      (2 ≤ s.g 0x6400 0 0x09 → (s.slot (1 - slot)).state ≠ 1 → (s.slot (1 - slot)).state ≠ 3 →
        let m := ((u.setSlot slot { s.slot slot with state := 2 }).w 0x6400 0 0x09 0).sysSave.cur.mramRead b
        ∃ t, exec (.bootFailure b) s = .next t ∧ AfterReset m b 2 7 t ∧ t.g 0x6400 0 0x09 = m.g 0x6400 0 0x09)) ∧
    (∀ c, s.clocked = true → s.g 0x6500 0 0x01 = 4 → s.engines.running = false → s.power.coolAt = some c →
      c + secC 10 ≤ s.clock →
      ∃ t, exec (.thermalRecovery b) s = .next t ∧ AfterReset (s.mramRead b) b 2 5 t)

/-- Resets of a part (R461 to R463): a reset of the control processor stops its firmware and closes every session while
the engines go on; once its pieces have drained the firmware runs again; a reset of the Tending pool clears the event flags,
one of the network takes the links down and empties the rings; a watchdog expiry resets the control processor, a
second within 10 s the device. -/
def Obligations.PartResetsComplete : Prop :=
  ∀ s : State, s.clocked = true → s.power.devReset = none →
    (∀ h d, s.writeCheck h (opOf 0x6501 0 0x02 d) = stOK → s.power.ctlReset = none →
      ∃ t, exec (.controlProcessorReset h d) s = .next t ∧ t.ctl.down = true ∧ t.power.ctlReset = some (s.clock, 2) ∧
        (∀ n, (t.host n).sess = none ∧ (t.host n).stage = []) ∧ t.engines = s.engines ∧ t.g 0x6501 0 0x05 = 3 ∧
        t.g 0x6501 0 0x06 = 2 ∧ bit (t.g 0x6501 0 0x11) 1 = true) ∧
    (∀ start cause, s.power.ctlReset = some (start, cause) →
      let u := (Tx.start s).busRun.cur
      (u.draining 0 = false → u.draining 1 = false → u.draining 12 = false →
        ∃ t, exec .controlResetComplete s = .next t ∧ t.ctl.down = false ∧ t.g 0x6000 0 0x01 = 1 ∧
          t.power = { u.power with ctlReset := none, sys0 := t.power.sys0, sys1 := t.power.sys1, sysAt := t.power.sysAt }) ∧
      (u.draining 0 = true ∨ u.draining 1 = true ∨ u.draining 12 = true →
        ∃ t, exec .controlResetComplete s = .next t ∧ t.power = u.power ∧ t.ctl.down = u.ctl.down)) ∧
    (∀ h d, s.writeCheck h (opOf 0x6501 0 0x03 d) = stOK →
      ((Tx.start s).status stOK).busRun.cur.draining 10 = false →
      ∃ t, exec (.tendingPoolReset h d) s = .next t ∧ t.g 0x5F00 0 0x01 = 0 ∧ t.g 0x5F00 0 0x02 = 0 ∧
        t.g 0x6501 0 0x05 = 4 ∧ t.g 0x6501 0 0x06 = 2 ∧ bit (t.g 0x6501 0 0x11) 2 = true) ∧
    (∀ h d, s.writeCheck h (opOf 0x6501 0 0x04 d) = stOK →
      ((Tx.start s).status stOK).busRun.cur.draining 8 = false → ((Tx.start s).status stOK).busRun.cur.draining 9 = false →
      ∃ t, exec (.networkReset h d) s = .next t ∧ (∀ m < 6, t.g 0x4800 m 0x07 = 0) ∧ t.net.rings = [] ∧
        (∀ m, (t.macSt m).pauseUntil = 0 ∧ (t.macSt m).pauseFrom = none) ∧
        t.g 0x6501 0 0x05 = 5 ∧ t.g 0x6501 0 0x06 = 2 ∧ bit (t.g 0x6501 0 0x11) 3 = true) ∧
    (s.power.straps.wdtEn = true → 11 ≤ s.power.stage → s.romOnly = false →
      (s.power.wdtAt = none → s.power.ctlReset = none →
        ∃ t, exec .watchdog s = .next t ∧ t.ctl.down = true ∧ t.power.ctlReset = some (s.clock, 3) ∧
          t.g 0x6400 0 0x0E = (s.g 0x6400 0 0x0E + 1) % 2 ^ 32) ∧
      (∀ c, s.power.wdtAt = some c → s.clock < c + secC 10 →
        ∃ t, exec .watchdog s = .next t ∧
          t.power = { s.power with wdtAt := some s.clock, devReset := some (nextBlock s.now, 3, false) } ∧
          t.g 0x6400 0 0x0E = (s.g 0x6400 0 0x0E + 1) % 2 ^ 32))

/-- Firmware images and attestation (R412, R467, R471): an image that passes every check erases the slot that is not in
force and is written to it; when the write has ended, which a step on an empty queue finds (the model's choice, assumption
84), its slot is preferred and pending, and the count 0x6400:09 starts at 0 (the model's choice, assumption 55); a nonce
starts a report, which is signed over the state at the time of its signing (the model's choice, assumption 61). -/
def Obligations.AttestationComplete : Prop :=
  ∀ s : State, s.clocked = true →
    (∀ r i, s.pending = [] → s.ctl.down = false → s.ctl.held = none → s.power.mram = some r → i < 2 → r.place = 8 + i →
      r.good = true → r.ends ≤ s.clock →
      ∃ t, step s = .next t ∧ t.power.mram = none ∧ t.result = ⟨some stOK, []⟩ ∧ t.slot i = ⟨r.image, 3⟩ ∧
        t.g 0x6400 0 (0x04 + i) = 3 ∧ t.g 0x6400 0 0x03 = i ∧ t.g 0x6400 0 0x0C = 0 ∧ t.g 0x6400 0 0x09 = 0) ∧
    (∀ h d, s.writeCheck h (opOf 0x6400 0 0x06 d) = stOK → d.length = 160 + fieldLE d 12 4 →
      slice d 0 4 = [0x55, 0x4B, 0x46, 0x57] → fieldLE d 4 2 = 1 → fieldLE d 6 2 ≠ 0 → fieldLE d 6 2 ≤ 32 →
      slice d 16 48 = sha384 (slice d 64 (fieldLE d 12 4)) →
      s.g 0x6400 0 0x07 ≤ fieldLE d 8 4 → s.power.mram = none →
      let signed := ecdsaVerify gumadalKey (sha384 (d.take (64 + fieldLE d 12 4))) (d.drop (64 + fieldLE d 12 4))
      ∃ t, exec (.firmwareImage h d) s = .next t ∧ t.slot (1 - s.imageTarget) = s.slot (1 - s.imageTarget) ∧
        (signed = true → t.result = ⟨none, []⟩ ∧ t.slot s.imageTarget = ⟨[], 0⟩ ∧
          ∃ e, t.power.mram = some ⟨8 + s.imageTarget, d, e, true⟩ ∧ s.clock ≤ e ∧ e ≤ s.clock + mramTime d.length) ∧
        (signed = false → t.result = ⟨some stOutOfRange, []⟩ ∧ t.slot s.imageTarget = ⟨[], 0⟩ ∧
          t.g 0x6400 0 (0x04 + s.imageTarget) = 0 ∧ t.g 0x6400 0 0x0C = 3 ∧
          t.g 0x6400 0 0x03 = (if s.g 0x6400 0 0x03 = s.imageTarget then 1 - s.imageTarget else s.g 0x6400 0 0x03))) ∧
    (∀ h d, s.writeCheck h (opOf 0x6402 0 0x01 d) = stOK → s.g 0x6402 0 0x02 ≠ 1 →
      ∃ t, exec (.nonce h d) s = .next t ∧ t.power = { s.power with signing := some d } ∧ t.g 0x6402 0 0x02 = 1 ∧
        t.g 0x6402 0 0x05 = h ∧ t.g 0x6402 0 0x06 = s.now % 2 ^ 64) ∧
    (∀ us d, s.ctl.down = false → s.power.signing = some d →
      ∃ t, exec (.reportSigned us) s = .next t ∧ t.power = { s.power with signing := none } ∧ t.g 0x6402 0 0x02 = 2 ∧
        t.gb 0x6402 0 0x03 = s.report d ∧ t.gb 0x6402 0 0x04 = fitBytes 96 (Config.sign (sha384 (s.report d))) ∧
        t.g 0x6402 0 0x07 = (s.g 0x6402 0 0x07 + 1) % 2 ^ 32)

/-- Power states (R473, R476): a request for ACTIVE lets the engines restart, one for IDLE or STANDBY stops them at a
boundary; from IDLE the entry to STANDBY goes on at once where no save is due; STANDBY is entered with SUPPLY_EN
low; the tenth reading above the limit in succession shuts the device down. -/
def Obligations.PowerStatesComplete : Prop :=
  ∀ s : State, s.clocked = true →
    (∀ h d, s.writeCheck h (opOf 0x6500 0 0x02 d) = stOK → s.g 0x6500 0 0x03 = 0 → s.power.devReset = none →
      (leNat d = 1 → s.g 0x6500 0 0x01 = 2 →
        ∃ t, exec (.requestActive h d) s = .next t ∧ t.g 0x6500 0 0x03 = 1 ∧ t.engines = { s.engines with cause := 6 } ∧
          t.result = ⟨some stOK, []⟩) ∧
      (leNat d = 2 → s.g 0x6500 0 0x01 = 1 → s.engines.running = true →
        ∃ t, exec (.requestIdle h d) s = .next t ∧ t.g 0x6500 0 0x03 = 2 ∧
          t.engines = { s.engines with rampB := some (s.engines.rampB.getD (nextBlock s.now)), cause := 4 } ∧
          t.result = ⟨some stOK, []⟩) ∧
      (leNat d = 3 → s.wakeSource = true → s.g 0x6500 0 0x01 = 1 → s.engines.running = true →
        ∃ t, exec (.requestStandby h d) s = .next t ∧ t.g 0x6500 0 0x03 = 3 ∧
          t.engines = { s.engines with rampB := some (s.engines.rampB.getD (nextBlock s.now)), cause := 4 }) ∧
      (leNat d = 3 → s.wakeSource = true → s.g 0x6500 0 0x01 = 2 → s.on 0x6500 0 0x05 = false →
        ∃ t, exec (.requestStandby h d) s = .next t ∧ t.g 0x6500 0 0x03 = 3 ∧ t.power = { s.power with entry := 3 })) ∧
    (s.power.entry = 3 →
      ∃ t, exec .standbyEntry s = .next t ∧ t.power = { s.power with entry := 0, standby := true, examined := 0 } ∧
        t.g 0x6200 0 0x01 = 2 ∧ t.g 0x6500 0 0x03 = 0 ∧ t.clocked = false ∧
        t.outs = [.pin "SUPPLY_EN" 0, .hiz "VREQ", .modHiz, .hiz "MOD_EN", .hiz "MSENSE_CLK"]) ∧
    (∀ temp, temp < 2 ^ 32 →
      (F.lt hotLimit temp = false ∨ s.power.hot < 9 →
        ∃ t, exec (.thermalRead temp) s = .next t ∧ t.g 0x6500 0 0x0A = temp ∧ t.g 0x6500 0 0x01 = s.g 0x6500 0 0x01 ∧
          t.power.hot = (if F.lt hotLimit temp = true then s.power.hot + 1 else 0)) ∧
      (F.lt hotLimit temp = true → 9 ≤ s.power.hot → s.g 0x6500 0 0x01 ≠ 4 →
        ∃ t, exec (.thermalRead temp) s = .next t ∧ t.g 0x6500 0 0x01 = 4 ∧ t.g 0x6500 0 0x12 = 0 ∧
          t.g 0x6500 0 0x0E = (s.g 0x6500 0 0x0E + 1) % 2 ^ 32 ∧ bit (t.g 0x6500 0 0x15) 1 = true))

/-- Ageing and VREQ (R478 to R480): a sample stores every reading; the hourly save counts an hour; a plan takes the
fixed code or the lowest code that satisfies every path; VREQ moves toward the code in steps while it is driven, with
VDD_CORE measured at each, and at once on a safety raise by a path beyond 1,000 ps − g/2, of which a step of the plan in
the same cycle takes nothing away. The age weight at the temperature of the save, the count of rounds in 0x6600:03 and a
raise that stops at 63 and sets the target code are the model's choices (assumption 60). -/
def Obligations.AgeingComplete : Prop :=
  ∀ s : State, s.clocked = true →
    (∀ readings temps, s.power.sampleAt + secC (s.g 0x6600 0 0x02) ≤ s.clock →
      ∃ t, exec (.monitorSample readings temps) s = .next t ∧ t.power.sampleAt = s.clock ∧
        t.g 0x6600 0 0x03 = (s.g 0x6600 0 0x03 + 1) % 2 ^ 32 ∧
        ∀ i < 256, i < readings.length → t.g (0x6700 + i) 0 0x02 = nth readings i 0 % 2 ^ 32) ∧
    (s.power.hourAt + secC 3600 ≤ s.clock →
      ∃ t, exec .ageingTelemetrySave s = .next t ∧ t.power.hours = s.power.hours + 1 ∧
        t.power.hourAt = s.power.hourAt + secC 3600 ∧
        t.power.age = s.power.age + ageWeight (s.g 0x6500 0 0x0A) ∧ t.g 0x6600 0 0x08 = (s.power.hours + 1) % 2 ^ 32) ∧
    (∀ delays, s.planDue = true → s.power.straps.vreqEn = true →
      (s.g 0x6601 0 0x01 = 1 →
        ∃ t, exec (.marginPlan delays) s = .next t ∧ t.g 0x6601 0 0x08 = s.g 0x6601 0 0x02 % 2 ^ 8 ∧
          t.g 0x6603 0 0x0B = s.g 0x6601 0 0x02 % 2 ^ 8 ∧ t.power = { s.power with planAt := s.clock, planDue := false }) ∧
      (let lo := s.g 0x6601 0 0x04
       let ds := ((List.range (min 256 delays.length)).filter s.pathUsable).map (fun i => nth delays i 0)
       ∀ c, s.g 0x6601 0 0x01 ≠ 1 → 8 ≤ ds.length →
        (range' lo (s.g 0x6601 0 0x05 + 1 - lo)).find? (fun c => ds.all (s.codeFits (s.g 0x6603 0 0x01) c)) = some c →
        ∃ t, exec (.marginPlan delays) s = .next t ∧ t.g 0x6601 0 0x08 = c % 2 ^ 8 ∧ t.g 0x6601 0 0x13 = 0 ∧
          t.g 0x6603 0 0x0B = c % 2 ^ 8 ∧ t.power = { s.power with planAt := s.clock, planDue := false })) ∧
    (∀ volts, s.power.stepAt + usC (s.g 0x6601 0 0x10) ≤ s.clock → s.vreqDriven = true →
      s.g 0x6603 0 0x0B ≠ s.g 0x6603 0 0x01 →
      let c := s.g 0x6603 0 0x01
      let goal := s.g 0x6603 0 0x0B
      let c' := if c < goal then min goal (c + s.g 0x6601 0 0x0F) else max goal (c - s.g 0x6601 0 0x0F)
      ∃ t, exec (.vreqStep volts) s = .next t ∧ t.power.stepAt = s.clock ∧ t.g 0x6603 0 0x01 = c' % 2 ^ 8 ∧
        t.g 0x6503 0 0x01 = volts % 2 ^ 32 ∧ bit (t.g 0x6503 0 0x0D) 0 = s.supplyBad 0 volts ∧ t.outs = [.pin "VREQ" c']) ∧
    (∀ n : PathDelay, s.vreqDriven = true → s.pathUsable n.monitor = true → s.marginGone n.delay = true →
      (∀ r, s.power.raiseAt = some r → r + usC (s.g 0x6601 0 0x10) ≤ s.clock) →
      let c := s.g 0x6603 0 0x01
      let c' := max c (min 63 ((if s.power.stepAt = s.clock then s.power.stepFrom else c) + s.g 0x6601 0 0x0F))
      ∃ t, exec (.safetyRaise n) s = .next t ∧ t.g 0x6603 0 0x01 = c' % 2 ^ 8 ∧ t.g 0x6603 0 0x0B = c' % 2 ^ 8 ∧
        t.g 0x6603 0 0x06 = (s.g 0x6603 0 0x06 + 1) % 2 ^ 32 ∧ t.power.planDue = true ∧ t.power.raiseAt = some s.clock ∧
        t.outs = (if c' = c then [] else [.pin "VREQ" c']))

/-- Resets of the whole device whose boot is a normal one (R465, R466), at power-on, RESET_N, a device reset, a wake and a
thermal recovery, leave what AfterBoot says: the start state is reached, IDLE or ACTIVE, or RECOVERY where no slot holds an
image that may be started. And MRAM survives a reset whatever its boot finds (R353, R459, R468): the packs stay where none was
being written, and the images of the Leaves; a Leaf stays valid unless its MRAM reads wrong; the powered hours are those of the
copy of the system area that the boot chooses, and 0 where both are lost (the model's choice of assumption 83); and the block is
powered and clocked, its reset released at the counter of the reset. RESET_N in STANDBY as a wake is the model's choice
(assumption 58), as is a boot that is one command (assumption 19). -/
def Obligations.ResetKeepsMram : Prop :=
  ∀ (s : State) (b : BootIn),
    (normalBoot b → ∃ t, exec (.powerOn b) s = .next t ∧ AfterBoot (s.mramRead b) b 0 0 t) ∧
    (normalBoot b → s.clocked = true → ∃ t, exec (.pinReset b) s = .next t ∧ AfterBoot (s.mramRead b) b 1 1 t) ∧
    (∀ h d B cause e, normalBoot b → s.clocked = true → s.power.devReset = some (B, cause, e) → s.engines.running = false →
      cause < 16 → ¬ s.asksRecovery → ∃ t, exec (.deviceReset h d b) s = .next t ∧ AfterBoot (s.mramRead b) b 2 cause t) ∧
    (∀ cause n secs f, normalBoot b → s.power.supplyDown = false → s.power.standby = true →
      s.wakeArmed cause (n % 8) (n / 8) secs f = true →
      ∃ t, exec (.wake cause n secs f b) s = .next t ∧ AfterBoot (s.mramRead b) b 0 6 t) ∧
    (normalBoot b → s.power.supplyDown = false → s.power.standby = true →
      ∃ t, exec (.pinReset b) s = .next t ∧ AfterBoot (s.mramRead b) b 0 6 t) ∧
    (∀ c, normalBoot b → s.clocked = true → s.g 0x6500 0 0x01 = 4 → s.engines.running = false → s.power.coolAt = some c →
      c + secC 10 ≤ s.clock → ¬ s.asksRecovery →
      ∃ t, exec (.thermalRecovery b) s = .next t ∧ AfterBoot (s.mramRead b) b 2 5 t) ∧
    (∃ t, exec (.powerOn b) s = .next t ∧ MramKept s b t ∧ t.clocked = true ∧ t.power.resetAt = 0) ∧
    (s.clocked = true → ∃ t, exec (.pinReset b) s = .next t ∧ MramKept s b t ∧ t.clocked = true ∧ t.power.resetAt = s.clock)

/-- The Sprig product (R100): the interpolated value times the ramped gain, exact within 48 bits, rounded to Q5.27 by an
arithmetic shift, and within Q5.27 with no saturation. -/
def Obligations.SprigProductRounds : Prop :=
  ∀ (s : State) (bad : List Nat) (r : Nat × Nat × Nat × Nat) (kern g0 g1 d0 d1 B j : Nat),
    g0 < 2 ^ 24 → g1 < 2 ^ 24 → j ≤ 16 →
    let d := clampN (minDelay kern) (maxDelay r.2.1) (rampGain d0 d1 j)
    let y := (s.sprigValue bad r kern d (B + j - 16)).1.1
    let g : Int := rampGain g0 g1 j
    let p := (s.sprigSample bad r kern g0 g1 d0 d1 B j).p
    (-2 ^ 47 ≤ y * g ∧ y * g < 2 ^ 47) ∧ p = (y * g + 2 ^ 15) >>> 16 ∧ -2 ^ 31 ≤ p ∧ p < 2 ^ 31

/-- The clear of a latched channel (R289): from LATCHED to HELD, or OFF if it is disabled, with no trips in the window;
in any other state it answers STATE and changes nothing; and a retry within 200 ms of the trip leaves the channel as
it is. -/
def Obligations.LatchClears : Prop :=
  ∀ (s : State) (h n : Nat) (d : Bytes), s.clocked = true → n < 24 → s.writeCheck h (opOf 0x5800 n 0x11 d) = stOK →
    (s.modState n = 5 → ∃ t, exec (.clearLatch h n d) s = .next t ∧ t.result = ⟨some stOK, []⟩ ∧ t.g 0x5800 n 0x13 = 0 ∧
      t.modState n = (if s.on 0x5800 n 0x01 = true then 1 else 0)) ∧
    (s.modState n ≠ 5 → ∃ t, exec (.clearLatch h n d) s = .next t ∧ t.result = ⟨some stState, []⟩ ∧
      Kept (fun _ => False) [.result, .outs] s t) ∧
    (s.modState n = 4 → s.clock < (s.mod n).trips.headD 0 + msC 200 → ∃ t, exec (.retry n) s = .next t ∧
      t.modState n = 4 ∧ Kept (fun _ => False) [.result, .outs] s t)

/-- What the commands of these groups leave unchanged: operations, timers, the host SPI port, notifications, safe-load,
saves and owners. A well-formed one changes the entries and the parts of the state that its frame names, its outcome
and what it sends, and nothing else. -/
def Obligations.ControlFrames : Prop :=
  (∀ h o bad, Frame (.read h o bad) [.all 0x3F01 [], .all 0x5D80 [0x0D], .all 0x6200 [0x19, 0x1B, 0x21], .ctr 247
      247] [.free, .ctl]) ∧
  (∀ h o, Frame (.stagedRead h o) [.all 0x3F01 [], .all 0x5D80 [0x0D]] [.free, .ctl]) ∧
  (∀ h o bad, Frame (.readSegment h o bad) [.all 0x5D80 [0x0D], .all 0x6200 [0x19, 0x1B, 0x21], .ctr 247 247]
      [.free, .ctl]) ∧
  (∀ h o, Frame (.nop h o) [] [.ctl]) ∧
  (∀ h, Frame (.sessionTimeout h) [.one 0x1000 h [0x08, 0x09, 0x0A, 0x11], .all 0x1001 [0x01], .all 0x3A00 [0x09,
      0x0A]] [.maps, .ctl]) ∧
  (∀ h, Frame (.transferAbandon h) [.all 0x3A00 [0x09, 0x0A]] [.ctl]) ∧
  (∀ h, Frame (.snapshotRelease h) [] [.ctl]) ∧
  (∀ len d, Frame (.hspiWrite len d) [.all 0x1001 [0x08, 0x09], .ctr 14 14] [.ctl]) ∧
  (∀ clocks, Frame (.hspiStatus clocks) [] [.ctl]) ∧
  (∀ clocks s t, (s.ctl.down = true ∨ s.ctl.inbox = []) → exec (.hspiRead clocks) s = .next t →
    Kept (fun _ => False) [.result, .outs, .ctl] s t) ∧
  (∀ cmd, Frame (.hspiUnknownCommand cmd) [.all 0x1001 [0x08, 0x09], .ctr 14 14] []) ∧
  (∀ h, Frame (.notify h) (Span.sends ++ [.one 0x1200 h [0x04, 0x05, 0x06, 0x07]]) [.net, .time, .ctl]) ∧
  (∀ h d, Frame (.commit h d) [.all 0x1300 [0x03, 0x04, 0x05, 0x06, 0x07, 0x09, 0x0B], .one 0x1301 h [0x04], .all
      0x3300 [0x19, 0x1A, 0x1B]] [.ctl]) ∧
  (∀ h d, Frame (.cancel h d) [.all 0x1300 [0x03, 0x04, 0x0A, 0x0B], .all 0x3000 [0x0B, 0x0C, 0x0D], .all 0x3100
      [0x04], .all 0x3200 [0x04]] [.ctl]) ∧
  (∀ h n d, Frame (.discardStage h n d) [] [.ctl]) ∧
  (Frame .planLands [.all 0x1300 [0x03, 0x04, 0x08, 0x0B], .all 0x1301 [0x05], .all 0x3000 [0x0B, 0x0C, 0x0D], .all
      0x3100 [0x04], .all 0x3200 [0x04], .all 0x3300 [0x18], .ctr 8 8] [.ctl]) ∧
  (∀ h d, Frame (.save h d) [.all 0x1400 [0x02, 0x07, 0x08]] [.store]) ∧
  (Frame .autosave [.all 0x1400 [0x02, 0x07, 0x08]] [.store]) ∧
  (∀ h d, Frame (.restoreDefaults h d) [.all 0x1400 [0x02, 0x07, 0x08]] [.store]) ∧
  (∀ h n d, Frame (.keyWrite h n d) [.all 0x1400 [0x02, 0x07, 0x08]] [.store]) ∧
  (∀ h sub d, Frame (.ownerWrite h sub d) [.all 0x1100 [], .all 0x1400 [0x02, 0x07, 0x08]] [.ctl, .store]) ∧
  (∀ h d, Frame (.assignRanges h d) [.all 0x1100 [], .all 0x1400 [0x02, 0x07, 0x08]] [.ctl, .store]) ∧
  (∀ s t, exec .commitLands s = .next t →
    Kept (fun k => (∃ c, s.ctl.commit = some c ∧ k ∈ (s.host c.host).stage.map (·.1)) ∨
        ∃ x ∈ [Span.all 0x1300 [0x03, 0x04, 0x08, 0x0B], Span.all 0x1301 [0x05], Span.all 0x3C00 [0x05, 0x06, 0x0C],
          Span.ctr 8 8], x.has k)
      [.result, .outs, .corr, .maps, .ctl] s t)

/-- What the commands of these groups leave unchanged: pushes, queues, transform, windows, depths and repacks. A well-
formed one changes the entries and the parts of the state that its frame names, its outcome and what it sends, and
nothing else. -/
def Obligations.SceneFrames : Prop :=
  (∀ h d, Frame (.keyframePush h d) (Span.sends ++ [.all 0x2000 [0x14, 0x15, 0x16, 0x17], .one 0x2401 h [0x01, 0x02,
      0x03, 0x04, 0x05, 0x06, 0x07, 0x08, 0x09, 0x0A, 0x0B, 0x0C], .all 0x2800 [0x0E, 0x11], .all 0x5400 [0x10,
      0x17], .all 0x5E10 [0x05, 0x13], .ctr 3 3]) [.scene, .net, .time, .sprk, .pool]) ∧
  (∀ h n d, Frame (.flushQueue h n d) (Span.sends ++ [.one 0x2000 n [0x17], .all 0x5400 [0x10]]) [.scene, .net,
      .time, .sprk]) ∧
  (∀ h sub d, Frame (.transformWrite h sub d) [.all 0x2800 [0x01, 0x02, 0x03, 0x04]] [.scene]) ∧
  (∀ cells words, Frame (.renderWindow cells words) [.all 0x3400 [], .all 0x3410 [], .all 0x3500 [0x01, 0x02, 0x03,
      0x04, 0x05, 0x06], .all 0x6100 [0x03, 0x05, 0x09], .ctr 0 0, .ctr 249 249, .ctr 255 255] [.geo, .render,
      .corr]) ∧
  (∀ h n d, Frame (.depthWrite h n d) [.one 0x2000 n [0x08], .all 0x3400 [0x03, 0x04, 0x05, 0x0B, 0x11], .one 0x3410
      n [0x03, 0x04, 0x07, 0x0B]] [.render]) ∧
  (Frame .depthChangeLands [.all 0x3400 [0x03, 0x04, 0x05, 0x07, 0x08, 0x09, 0x0A, 0x11], .all 0x3410 [0x01, 0x02,
      0x03, 0x04, 0x05, 0x07, 0x0B]] [.render]) ∧
  (∀ h d, Frame (.repack h d) [.all 0x3400 [0x07]] [.render]) ∧
  (Frame .repackLands [.all 0x3400 [0x03, 0x04, 0x05, 0x07, 0x08, 0x09, 0x0A, 0x11], .all 0x3410 [0x01, 0x02, 0x03,
      0x04, 0x05, 0x07, 0x0B]] [.render]) ∧
  (∀ s t, exec .evaluationWindowClose s = .next t →
    Kept (fun k => (∃ r, s.geo.report = some r ∧ k ∈ (r.puts ++ r.bumps ++ r.flags).map (·.1)) ∨
        ∃ x ∈ [Span.all 0x2000 [0x0E, 0x0F, 0x10, 0x11, 0x12, 0x13], Span.all 0x3300 [0x11],
          Span.ctr 0 511], x.has k)
      [.result, .outs, .scene, .geo] s t) ∧
  (∀ bad s t, exec (.evaluationWindowOpen bad) s = .next t →
    Kept (fun k => (∃ r, s.geo.report = some r ∧ k ∈ (r.puts ++ r.bumps ++ r.flags).map (·.1)) ∨
        ∃ x ∈ [Span.all 0x2000 [], Span.all 0x2800 [0x0A, 0x0B, 0x0F, 0x11], Span.all 0x3300 [0x11, 0x1B],
          Span.all 0x6100 [0x03, 0x05, 0x09], Span.all 0x6200 [0x19, 0x1B, 0x21], Span.ctr 0 511], x.has k)
      [.result, .outs, .scene, .geo, .sprk] s t)

/-- What the commands of these groups leave unchanged: filter sets, Grafts, the hop, bulk delays, Trellis, input and
output map. A well-formed one changes the entries and the parts of the state that its frame names, its outcome and
what it sends, and nothing else. -/
def Obligations.CorrectionFrames : Prop :=
  (∀ h n d, Frame (.setDataUpload h n d) [.one 0x3A00 n [0x01, 0x03, 0x04, 0x05, 0x06, 0x09, 0x0A]] []) ∧
  (∀ n, Frame (.setReady n) [.one 0x3A00 n [0x03]] []) ∧
  (∀ h n d, Frame (.setErase h n d) [.one 0x3A00 n [0x01, 0x03, 0x04, 0x05, 0x06]] []) ∧
  (∀ h d, Frame (.graftRequest h d) [.all 0x3800 [0x0A, 0x0B, 0x0C, 0x0D, 0x0E, 0x0F, 0x17], .all 0x3B00 [0x08,
      0x09, 0x0E], .one 0x3B01 h [0x01, 0x02, 0x03, 0x04, 0x05]] [.corr]) ∧
  (∀ n, Frame (.graftStart n) [.one 0x3800 n [0x01, 0x0A, 0x0B, 0x0C, 0x0D, 0x0E, 0x0F, 0x17], .all 0x3B00 [0x07],
      .ctr 7 7] [.free, .corr]) ∧
  (∀ n, Frame (.graftFade n) [.one 0x3800 n [0x0A]] []) ∧
  (∀ n, Frame (.graftEnd n) [.one 0x3800 n [0x01, 0x0A, 0x0B, 0x0C, 0x0D, 0x0E, 0x0F, 0x17], .all 0x3B00 [0x07],
      .ctr 7 7] [.corr]) ∧
  (∀ bad used, Frame (.bulkPhase bad used) [.all 0x3800 [0x15, 0x17], .all 0x3B00 [0x0E], .all 0x6200 [0x19, 0x1B,
      0x1C, 0x21], .all 0x6300 [0x04, 0x07, 0x08], .ctr 247 247] [.free, .corr]) ∧
  (∀ bad used, Frame (.urgentPhase bad used) [.all 0x3800 [0x15, 0x17], .all 0x3B00 [0x0E], .all 0x6200 [0x19, 0x1B,
      0x1C, 0x21], .all 0x6300 [0x04, 0x07, 0x08], .ctr 247 247] [.free, .corr]) ∧
  (Frame .hopEvent [.all 0x3B00 [0x0C], .ctr 1 1] [.corr]) ∧
  (∀ h n d, Frame (.bulkDelayWrite h n d) [.one 0x3800 n [0x02]] [.corr]) ∧
  (Frame .bulkCrossfade [.all 0x3800 [0x03, 0x16, 0x17], .all 0x3B00 [0x0B, 0x0E]] [.corr]) ∧
  (∀ h n d, Frame (.trellisSourceWrite h n d) [.one 0x3C01 n [0x01]] []) ∧
  (∀ h d, Frame (.nodeWrite h d) [.all 0x3C00 [0x0A, 0x0C]] [.maps]) ∧
  (∀ h d, Frame (.bankCapture h d) [] [.maps]) ∧
  (∀ h d, Frame (.bankClear h d) [] [.maps]) ∧
  (Frame .inputMapBoundary [.all 0x3D00 [0x05, 0x06, 0x07, 0x0B, 0x0C, 0x0D], .ctr 10 10] [.maps, .meas]) ∧
  (∀ h n d, Frame (.outputMapWrite h n d) [.one 0x3E00 n [0x01, 0x03], .all 0x3E00 [0x02]] [.maps]) ∧
  (Frame .outputMapLands [.all 0x3E00 [0x02]] [.maps]) ∧
  (∀ h n sub, Frame (.pathQueryRead h n sub) [.one 0x3F01 n []] []) ∧
  (Frame .outputsRampDown [] [.maps, .engines, .hedge, .power])

/-- What the commands of these groups leave unchanged: serial ports, frames, ASRC channels, the audio PLL and word
clocks. A well-formed one changes the entries and the parts of the state that its frame names, its outcome and what
it sends, and nothing else. -/
def Obligations.SerialFrames : Prop :=
  (∀ h n d, Frame (.portEnable h n d) (Span.sends ++ [.all 0x3F00 [0x05, 0x06, 0x07, 0x09], .all 0x4000 [0x01, 0x0A,
      0x0B], .all 0x4010 [0x01, 0x02, 0x15, 0x16], .all 0x4400 [0x02], .all 0x4500 [0x01, 0x02], .all 0x4510 [0x01,
      0x02, 0x03, 0x04, 0x05, 0x06], .all 0x4800 [0x09], .all 0x4900 [0x03], .all 0x4A00 [0x12, 0x1F, 0x21], .all
      0x4C00 [0x14]]) [.maps, .serial, .net, .time]) ∧
  (∀ n, Frame (.portStart n) [.all 0x3F00 [0x07, 0x09], .all 0x4010 [0x01, 0x05, 0x06, 0x11, 0x14, 0x16], .all
      0x4400 [0x02, 0x07], .ctr 48 79] [.maps, .serial]) ∧
  (∀ h n d, Frame (.portDisable h n d) (Span.sends ++ [.all 0x3F00 [0x05, 0x06, 0x07, 0x09], .all 0x4000 [0x01,
      0x0A, 0x0B], .all 0x4010 [0x01, 0x02, 0x15, 0x16], .all 0x4400 [0x02], .all 0x4500 [0x01, 0x02], .all 0x4510
      [0x01, 0x02, 0x03, 0x04, 0x05, 0x06], .all 0x4800 [0x09], .all 0x4900 [0x03], .all 0x4A00 [0x12, 0x1F, 0x21],
      .all 0x4C00 [0x14]]) [.maps, .serial, .net, .time]) ∧
  (∀ n, Frame (.portRelease n) [] [.serial]) ∧
  (∀ h n sub d, Frame (.maskWrite h n sub d) [.one 0x4000 n [0x0A, 0x0B]] [.serial]) ∧
  (∀ n phase level inTime sameCycle, Frame (.fsyncActiveEdge n phase level inTime sameCycle) [.all 0x4010 [0x03, 0x04,
      0x05, 0x06, 0x07, 0x08, 0x0B, 0x0C, 0x0D, 0x0E, 0x0F, 0x13, 0x16], .all 0x4400 [0x02, 0x03, 0x04, 0x05, 0x06,
      0x07], .all 0x4500 [0x04, 0x05], .ctr 16 47, .ctr 48 79, .ctr 80 111] [.free, .serial]) ∧
  (∀ n f, Frame (.frameComplete n f) [.all 0x3F00 [0x07, 0x09], .all 0x4010 [0x01, 0x04, 0x05, 0x06, 0x07, 0x08,
      0x0A, 0x0B, 0x0F, 0x10, 0x11, 0x14, 0x16], .all 0x4400 [0x02, 0x07], .ctr 48 79, .ctr 80 111] [.maps,
      .serial]) ∧
  (∀ n, Frame (.portLost n) [.all 0x4010 [0x01, 0x12, 0x14, 0x15, 0x16], .all 0x4400 [0x02], .all 0x4500 [0x01,
      0x02], .all 0x4510 [0x06]] [.serial, .meas]) ∧
  (∀ n ppm, Frame (.asrcLock n ppm) [.all 0x4010 [0x15], .all 0x4500 [0x01, 0x02], .all 0x4510 [0x05, 0x06]] [.serial]) ∧
  (∀ n ppm, Frame (.asrcRelock n ppm) [.all 0x4010 [0x15], .all 0x4500 [0x01, 0x02, 0x03, 0x05], .all 0x4510 [0x06]]
      [.serial]) ∧
  (∀ phase, Frame (.pllLock phase) [.all 0x3F00 [0x07, 0x09], .all 0x4010 [0x01, 0x05, 0x06, 0x11, 0x16], .all
      0x4400 [0x02, 0x07], .all 0x4600 [0x01, 0x02], .ctr 48 79] [.maps, .serial]) ∧
  (∀ phase, Frame (.pllUnlock phase) [.all 0x4600 [0x01, 0x02, 0x03, 0x0B]] []) ∧
  (Frame .wclkInLost [.all 0x4600 [0x07, 0x0A, 0x0B]] [.serial]) ∧
  (∀ period phase, Frame (.wclkInEdge period phase) [.all 0x4600 [0x07, 0x08, 0x09]] [.serial])

/-- What the commands of these groups leave unchanged: frames received, links, rings, streams, packets, ARP, IGMP, SDP
and addresses. A well-formed one changes the entries and the parts of the state that its frame names, its outcome
and what it sends, and nothing else. -/
def Obligations.NetworkFrames : Prop :=
  (∀ n f err clock, Frame (.receiveFrame n f err clock) (Span.sends ++ [.all 0x4800 [0x0A, 0x0C, 0x0D, 0x0E, 0x0F,
      0x10, 0x11, 0x12, 0x13], .all 0x4A00 [0x12, 0x14, 0x15, 0x16, 0x18, 0x19, 0x1A, 0x1C, 0x1E, 0x1F, 0x21], .all
      0x4C00 [0x14], .all 0x4E00 [0x03, 0x04, 0x05, 0x06, 0x07], .all 0x4F00 [0x08, 0x0A, 0x0B, 0x0C], .ctr 112 117,
      .ctr 124 129, .ctr 130 133]) [.clock, .net, .time, .power]) ∧
  (∀ n, Frame (.pauseWatchdog n) [.one 0x4800 n [0x14, 0x17]] [.net]) ∧
  (∀ n speed, Frame (.linkUp n speed) (Span.lanes ++ Span.sends ++ [.all 0x4800 [0x07, 0x08], .all 0x4900 [0x09,
      0x0A, 0x0C], .all 0x4C00 [0x16], .ctr 135 135, .ctr 137 137]) [.maps, .serial, .net, .time]) ∧
  (∀ n, Frame (.linkDown n) (Span.lanes ++ Span.sends ++ [.all 0x4800 [0x07, 0x08, 0x15], .all 0x4900 [0x09, 0x0A,
      0x0C], .all 0x4C00 [0x16], .all 0x5000 [0x04, 0x07, 0x08, 0x0B, 0x1A, 0x1C], .all 0x5001 [0x11, 0x12, 0x13,
      0x14, 0x15, 0x1A], .ctr 135 135, .ctr 137 137, .ctr 143 143]) [.maps, .serial, .net, .time]) ∧
  (∀ h n d, Frame (.ringDisable h n d) [.one 0x4E00 n [0x01, 0x03]] [.net]) ∧
  (∀ h n d, Frame (.ringEnable h n d) [.one 0x4E00 n [0x01, 0x03]] [.net]) ∧
  (∀ h n d, Frame (.receiveStreamEnable h n d) (Span.sends ++ [.all 0x3F00 [0x05, 0x06, 0x07, 0x09], .all 0x4010
      [0x01, 0x02, 0x15, 0x16], .all 0x4400 [0x02], .all 0x4500 [0x01, 0x02], .all 0x4510 [0x01, 0x02, 0x03, 0x04,
      0x05, 0x06], .all 0x4800 [0x09], .all 0x4900 [0x03], .all 0x4A00 [0x01, 0x12, 0x1F, 0x21], .all 0x4C00
      [0x14]]) [.maps, .serial, .net, .time]) ∧
  (∀ h n d, Frame (.transmitStreamEnable h n d) (Span.sends ++ [.all 0x3F00 [0x05, 0x06, 0x07, 0x09], .all 0x4010
      [0x01, 0x02, 0x15, 0x16], .all 0x4400 [0x02], .all 0x4500 [0x01, 0x02], .all 0x4510 [0x01, 0x02, 0x03, 0x04,
      0x05, 0x06], .all 0x4800 [0x09], .all 0x4900 [0x03, 0x09, 0x0A, 0x0C], .all 0x4A00 [0x12, 0x1F, 0x21], .all
      0x4C00 [0x01, 0x14, 0x16, 0x1A], .ctr 135 135, .ctr 137 137]) [.maps, .serial, .net, .time]) ∧
  (∀ h tx n d, Frame (.streamDisable h tx n d) (Span.sends ++ [.all 0x3F00 [0x05, 0x06, 0x07, 0x09], .all 0x4010
      [0x01, 0x02, 0x15, 0x16], .all 0x4400 [0x02], .all 0x4500 [0x01, 0x02], .all 0x4510 [0x01, 0x02, 0x03, 0x04,
      0x05, 0x06], .all 0x4800 [0x09], .all 0x4900 [0x03, 0x09, 0x0A, 0x0C], .all 0x4A00 [0x01, 0x12, 0x1F, 0x21],
      .all 0x4C00 [0x01, 0x14, 0x16, 0x1A], .ctr 135 135, .ctr 137 137]) [.maps, .serial, .net, .time]) ∧
  (∀ n sameCycle, Frame (.packetPush n sameCycle) [.all 0x4900 [0x02, 0x04, 0x05, 0x07, 0x08, 0x0C], .one 0x4C00 n
      [0x17, 0x18, 0x1A, 0x1B], .ctr 134 134, .ctr 136 136] [.net]) ∧
  (∀ n sameCycle bad, Frame (.packetLaunch n sameCycle bad) (Span.sends ++ [.all 0x4900 [0x09, 0x0B, 0x0C], .all
      0x4C00 [0x16], .ctr 135 135]) [.free, .net, .time]) ∧
  (∀ n ip mac, Frame (.arpResolved n ip mac) [.all 0x4C00 [0x14, 0x1B], .all 0x4F00 [0x08]] [.net]) ∧
  (∀ n ip, Frame (.arpAgeOut n ip) (Span.sends ++ [.all 0x4C00 [0x14], .one 0x4F00 n [0x08]]) [.net, .time]) ∧
  (∀ n, Frame (.arpFail n) [.one 0x4F00 n [0x0C]] []) ∧
  (∀ n group, Frame (.igmpReport n group) Span.sends [.net, .time]) ∧
  (∀ n, Frame (.igmpV2FallbackEnd n) [] [.net]) ∧
  (∀ h n d, Frame (.sdpWrite h n d) [.one 0x4A00 n [], .ctr (256 + n) (256 + n)] []) ∧
  (∀ h n d, Frame (.addressWrite h n d) (Span.sends ++ [.all 0x4C00 [0x14], .one 0x4F00 n [0x01, 0x08]]) [.net,
      .time])

/-- What the commands of these groups leave unchanged: system time, PTP, PPS, triggers, captures and the Sprinkler. A
well-formed one changes the entries and the parts of the state that its frame names, its outcome and what it sends,
and nothing else. -/
def Obligations.TimeFrames : Prop :=
  (∀ h d, Frame (.rateWrite h d) [.all 0x5000 [0x04, 0x0B]] [.time]) ∧
  (∀ h d, Frame (.offsetWrite h d) [.all 0x5000 [0x1C]] [.engines]) ∧
  (Frame .step [.all 0x1300 [0x03, 0x04, 0x0A, 0x0B], .all 0x3000 [0x0B, 0x0C, 0x0D], .all 0x3100 [0x04], .all
      0x3200 [0x04], .all 0x3410 [0x03, 0x04, 0x07], .all 0x3800 [0x0A, 0x0B, 0x0C, 0x0D, 0x0E, 0x0F], .all 0x3C00
      [0x09], .all 0x3E00 [0x02], .all 0x5000 [0x19, 0x1C], .all 0x5400 [0x0D, 0x1C], .all 0x5D00 [0x0B, 0x0D,
      0x14], .all 0x5D10 [0x04, 0x05, 0x06, 0x07, 0x08, 0x09, 0x0A, 0x0B, 0x0C, 0x0D], .all 0x5D80 [0x06, 0x08,
      0x09, 0x0A, 0x0B], .all 0x5F00 [0x04], .all 0x5F10 [0x01, 0x02, 0x03, 0x04, 0x05, 0x06, 0x07, 0x08, 0x09],
      .ctr 9 9, .ctr 142 142] [.clock, .scene, .render, .corr, .maps, .engines, .serial, .time, .sprk, .hedge,
      .meas, .pool, .ctl]) ∧
  (∀ h d, Frame (.timebaseRestart h d) [.all 0x5000 [0x07, 0x08, 0x1C], .all 0x5001 [0x15]] [.maps, .time]) ∧
  (∀ n m clock mac ip, Frame (.ptpSync n m clock mac ip) [.all 0x4E00 [0x03], .all 0x5000 [0x04, 0x07, 0x08, 0x09,
      0x0B, 0x1C], .all 0x5001 [0x11, 0x15, 0x17], .ctr 138 138] [.clock, .free, .maps, .engines, .net, .time]) ∧
  (∀ n m, Frame (.ptpFollowUp n m) [.all 0x4E00 [0x03], .all 0x5000 [0x04, 0x07, 0x08, 0x09, 0x0B, 0x1C], .all
      0x5001 [0x11, 0x15]] [.free, .maps, .engines, .net, .time]) ∧
  (∀ n m, Frame (.ptpDelayResp n m) [.all 0x4E00 [0x03], .all 0x5000 [0x0A]] [.net, .time]) ∧
  (∀ n m clock mac ip, Frame (.ptpDelayReq n m clock mac ip) (Span.sends ++ [.all 0x4E00 [0x03]]) [.clock, .net,
      .time]) ∧
  (∀ n m, Frame (.ptpAnnounce n m) [.all 0x4E00 [0x03], .all 0x5000 [0x04, 0x07, 0x08, 0x0B, 0x1A, 0x1C], .all
      0x5001 [0x11, 0x13, 0x14, 0x15, 0x1B], .ctr 143 143] [.maps, .net, .time]) ∧
  (∀ kind clock, Frame (.ptpSend kind clock) Span.sends [.clock, .net, .time]) ∧
  (Frame .announceTimeout [.all 0x5000 [0x04, 0x07, 0x08, 0x0B, 0x1A, 0x1C], .all 0x5001 [0x11, 0x12, 0x13, 0x14,
      0x15, 0x18, 0x1A, 0x1B], .ctr 139 139, .ctr 143 143] [.maps, .time]) ∧
  (∀ clock, Frame (.ppsEdge clock) [.all 0x5000 [0x04, 0x07, 0x08, 0x09, 0x0B, 0x17, 0x18, 0x1C], .all 0x5001
      [0x15]] [.clock, .free, .maps, .engines, .time]) ∧
  (Frame .ppsLost [.all 0x5000 [0x04, 0x07, 0x08, 0x0B, 0x17, 0x1A, 0x1C], .all 0x5001 [0x15], .ctr 143 143] [.maps,
      .time]) ∧
  (∀ h n d, Frame (.triggerArm h n d) [.all 0x1200 [0x06, 0x07], .one 0x5100 n [0x01, 0x07, 0x08, 0x09, 0x0B], .all
      0x5F00 [0x01, 0x02], .ctr (144 + n) (144 + n)] [.time]) ∧
  (∀ h n d, Frame (.triggerDisarm h n d) [.all 0x1200 [0x06, 0x07], .one 0x5100 n [0x01, 0x07, 0x08, 0x09, 0x0B],
      .all 0x5F00 [0x01, 0x02], .ctr (144 + n) (144 + n)] [.time]) ∧
  (∀ n clock, Frame (.triggerFire n clock) [.all 0x1200 [0x06, 0x07], .one 0x5100 n [0x01, 0x07, 0x08, 0x09, 0x0B],
      .all 0x5F00 [0x01, 0x02], .ctr (144 + n) (144 + n)] [.clock, .time]) ∧
  (∀ n clock, Frame (.capture n clock) [.all 0x1200 [0x06, 0x07], .one 0x5200 n [0x05, 0x06, 0x07, 0x08, 0x09,
      0x0A], .all 0x5F00 [0x01, 0x02], .ctr (160 + n) (160 + n)] [.clock, .time]) ∧
  (∀ clock, Frame (.delayReqSend clock) Span.sends [.clock, .net, .time]) ∧
  (∀ m, Frame (.sprinklerData m) (Span.sends ++ [.all 0x2000 [0x14, 0x15, 0x16, 0x17], .all 0x2800 [0x0E, 0x11],
      .all 0x4E00 [0x03], .all 0x5400 [0x02, 0x0D, 0x0E, 0x0F, 0x10, 0x11, 0x12, 0x16, 0x17, 0x1B, 0x1C], .all
      0x5E10 [0x05, 0x13], .ctr 3 3, .ctr 11 11]) [.scene, .net, .time, .sprk, .meas, .pool]) ∧
  (∀ m, Frame (.nak m) (Span.sends ++ [.all 0x4E00 [0x03], .all 0x5400 [0x02, 0x0D, 0x0E, 0x0F, 0x13, 0x1B, 0x1C]])
      [.net, .time, .sprk, .meas]) ∧
  (Frame .nakRepeat (Span.sends ++ [.all 0x5400 [0x12]]) [.net, .time, .sprk]) ∧
  (Frame .gapSkip [.all 0x2000 [0x14, 0x15, 0x16, 0x17], .all 0x2800 [0x0E, 0x11], .all 0x5400 [0x0D, 0x10, 0x11,
      0x14, 0x16, 0x17, 0x1C], .all 0x5E10 [0x05, 0x13], .ctr 3 3, .ctr 11 11, .ctr 12 12] [.scene, .sprk, .meas,
      .pool]) ∧
  (∀ m, Frame (.snapshotRequest m) (Span.sends ++ [.all 0x4E00 [0x03], .all 0x5400 [0x02, 0x0D, 0x0E, 0x0F, 0x1B,
      0x1C]]) [.net, .time, .sprk, .meas]) ∧
  (Frame .snapshotRequestRepeat Span.sends [.net, .time, .sprk]) ∧
  (∀ m, Frame (.snapshot m) (Span.sends ++ [.all 0x2000 [0x14, 0x15, 0x16, 0x17], .all 0x2800 [0x0E, 0x11], .all
      0x4E00 [0x03], .all 0x5400 [0x02, 0x0D, 0x0E, 0x0F, 0x10, 0x11, 0x12, 0x15, 0x16, 0x17, 0x1B, 0x1C], .all
      0x5E10 [0x05, 0x13], .ctr 3 3, .ctr 11 11]) [.scene, .net, .time, .sprk, .meas, .pool]) ∧
  (Frame .heartbeat Span.sends [.net, .time, .sprk]) ∧
  (∀ m, Frame (.heartbeatReceived m) [.all 0x4E00 [0x03], .all 0x5400 [0x02, 0x0D, 0x0E, 0x0F, 0x1B, 0x1C]] [.net,
      .sprk, .meas]) ∧
  (Frame .status Span.sends [.net, .time, .sprk]) ∧
  (∀ m, Frame (.statusReceived m) [.all 0x4E00 [0x03], .all 0x5400 [0x02, 0x0D, 0x0E, 0x0F, 0x1B, 0x1C]] [.net,
      .sprk, .meas]) ∧
  (Frame .promoted (Span.sends ++ [.all 0x2000 [0x14, 0x15, 0x16, 0x17], .all 0x2800 [0x0E, 0x11], .all 0x5400
      [0x0D, 0x0E, 0x0F, 0x10, 0x11, 0x16, 0x17, 0x1C], .all 0x5E10 [0x05, 0x13], .ctr 3 3, .ctr 11 11]) [.scene,
      .net, .time, .sprk, .pool])

/-- What the commands of these groups leave unchanged: the Hedge, its channels and trips, microphones, the stimulus, the
run and the recorder. A well-formed one changes the entries and the parts of the state that its frame names, its
outcome and what it sends, and nothing else. -/
def Obligations.HedgeFrames : Prop :=
  (∀ h d, Frame (.hedgeEnable h d) [.all 0x5A00 [0x01, 0x06]] [.hedge]) ∧
  (∀ h d, Frame (.hedgeDisable h d) [.all 0x5A00 [0x01, 0x06]] [.hedge]) ∧
  (∀ n, Frame (.hedgeRampDownEnd n) [] [.hedge]) ∧
  (Frame .modEnFall [.all 0x5A00 [0x06]] [.hedge]) ∧
  (∀ h n d, Frame (.channelEnable h n d) [.one 0x5800 n [0x01, 0x02]] [.hedge]) ∧
  (∀ h n d, Frame (.channelDisable h n d) [.one 0x5800 n [0x01, 0x02]] [.hedge]) ∧
  (∀ n, Frame (.channelOff n) [.one 0x5800 n [0x02]] [.hedge]) ∧
  (∀ n, Frame (.channelStart n) [.one 0x5800 n [0x02]] [.hedge]) ∧
  (∀ n, Frame (.startRampEnd n) [.one 0x5800 n [0x02]] [.hedge]) ∧
  (∀ n word clock, Frame (.senseFrame n word clock) [.one 0x5800 n [0x02, 0x12, 0x13, 0x14, 0x15, 0x1B, 0x1C], .all
      0x5A00 [0x07, 0x08, 0x09, 0x0F], .ctr (168 + n) (168 + n)] [.clock, .hedge, .meas]) ∧
  (∀ n clock, Frame (.faultEdge n clock) [.all 0x5A00 [0x0A, 0x0B, 0x0C, 0x0E]] [.clock, .hedge]) ∧
  (∀ n clock, Frame (.faultIdentify n clock) [.all 0x5800 [0x02, 0x12, 0x13, 0x14, 0x15,
      0x1C], .all 0x5A00 [0x07, 0x08, 0x09, 0x0F], .ctr 168 191] [.clock, .hedge, .meas]) ∧
  (∀ n, Frame (.retry n) [.one 0x5800 n [0x02, 0x12, 0x13, 0x14, 0x15, 0x1C], .all 0x5A00 [0x07, 0x08, 0x09, 0x0F],
      .ctr (168 + n) (168 + n)] [.hedge, .meas]) ∧
  (∀ h n d, Frame (.clearLatch h n d) [.one 0x5800 n [0x02, 0x13]] [.hedge]) ∧
  (∀ h d, Frame (.clearTripLog h d) [.all 0x5A00 [0x07]] []) ∧
  (Frame .hedgeBlock [.all 0x5800 [0x02, 0x12, 0x13, 0x14, 0x15, 0x16, 0x17, 0x19, 0x1A, 0x1C], .all 0x5A00 [0x07,
      0x08, 0x09, 0x0F], .ctr 168 191] [.hedge, .meas]) ∧
  (∀ n, Frame (.impedanceWindow n) [.one 0x5800 n [0x18, 0x1C]] [.hedge]) ∧
  (Frame .newCarrier [.all 0x5800 [0x02], .all 0x5900 [0x05], .all 0x5A00 [0x04]] [.hedge]) ∧
  (Frame .oldCarrierStop [.all 0x5800 [0x02]] [.hedge]) ∧
  (∀ h sub d, Frame (.resynchronise h sub d) [.all 0x5C00 [0x01], .all 0x5C10 [0x0A]] [.meas]) ∧
  (Frame .decimatorReset [.all 0x5C00 [0x04, 0x05, 0x09], .all 0x5C10 [0x0A]] [.meas]) ∧
  (∀ n, Frame (.settlingEnd n) [.one 0x5C10 n [0x0A, 0x10]] [.meas]) ∧
  (∀ n, Frame (.noData n) [.one 0x5C10 n [0x0A, 0x0F, 0x10], .ctr (192 + n) (192 + n)] [.meas]) ∧
  (∀ n, Frame (.pdmDataResumed n) [] [.meas]) ∧
  (∀ h n d, Frame (.compensationWrite h n d) [.one 0x5C10 n [0x07, 0x0B, 0x10]] [.meas]) ∧
  (∀ n, Frame (.compensationSwitch n) [.one 0x5C10 n [0x0B]] [.meas]) ∧
  (∀ h n d, Frame (.openOutput h n d) [.one 0x5D10 n [0x01, 0x04, 0x0E]] [.meas]) ∧
  (∀ h n d, Frame (.closeOutput h n d) [.one 0x5D10 n [0x01, 0x04, 0x0E]] [.meas]) ∧
  (∀ h d, Frame (.startRun h d) [.all 0x5D00 [0x0B, 0x0C, 0x0E], .all 0x5F00 [0x04], .all 0x5F10 [0x01, 0x04, 0x05,
      0x06]] [.free, .meas, .pool]) ∧
  (Frame .stimulusStart [.all 0x5D00 [0x0B, 0x0D], .all 0x5D10 [0x0D]] [.meas]) ∧
  (Frame .captureAnalysis [.all 0x5D00 [0x0E], .all 0x5D10 [0x04, 0x05, 0x06, 0x07, 0x08, 0x09, 0x0A, 0x0B, 0x0C], .all
      0x5E00 [0x0B], .all 0x5F00 [0x05, 0x06, 0x08, 0x09], .all 0x5F10 [0x07, 0x08, 0x09], .ctr 243 243, .ctr 244 244]
      [.free, .meas, .pool]) ∧
  (Frame .runDone [.all 0x2800 [0x08, 0x09], .all 0x5D00 [0x0B, 0x0D, 0x0F, 0x10, 0x11, 0x12, 0x13, 0x14], .all
      0x5D10 [0x08, 0x09, 0x0E], .all 0x5F00 [0x04], .all 0x5F10 [0x01, 0x02, 0x03, 0x04, 0x05, 0x06, 0x07, 0x08,
      0x09]] [.free, .meas, .pool]) ∧
  (∀ h d, Frame (.abortRun h d) [.all 0x5D00 [0x0B, 0x0D, 0x14], .all 0x5D10 [0x04, 0x05, 0x06, 0x07, 0x08, 0x09,
      0x0A, 0x0B, 0x0C, 0x0D], .all 0x5F00 [0x04], .all 0x5F10 [0x01, 0x02, 0x03, 0x04, 0x05, 0x06, 0x07, 0x08,
      0x09]] [.meas, .pool]) ∧
  (∀ cause, Frame (.freeze cause) [.all 0x5D80 [0x06, 0x0C, 0x0D]] [.meas]) ∧
  (Frame .postEnd [.all 0x5D80 [0x06, 0x08, 0x09, 0x0A, 0x0B, 0x0D]] []) ∧
  (∀ h d, Frame (.rearm h d) [.all 0x5D80 [0x06, 0x08, 0x09, 0x0A, 0x0B]] [.meas])

/-- What the commands of these groups leave unchanged: chains, runs, kernel packs, event flags and the memory system. A
well-formed one changes the entries and the parts of the state that its frame names, its outcome and what it sends,
and nothing else. -/
def Obligations.PoolFrames : Prop :=
  (∀ h n d, Frame (.descriptionWrite h n d) [.one 0x5E10 n [0x02, 0x05, 0x08, 0x09, 0x0A, 0x0B, 0x11, 0x12, 0x13]]
      [.pool]) ∧
  (∀ h n d, Frame (.chainEnable h n d) [.all 0x5E00 [0x01], .all 0x5E01 [0x01, 0x02, 0x03, 0x04, 0x05, 0x07, 0x08,
      0x09], .all 0x5E10 [0x01, 0x05, 0x06, 0x07, 0x08, 0x09, 0x0A, 0x0B, 0x11, 0x12, 0x13], .all 0x5F00 [0x04],
      .all 0x5F10 [0x01, 0x02, 0x03, 0x04, 0x05], ⟨0x6510, 0x65C7, none, [0x01, 0x02]⟩] [.pool]) ∧
  (∀ h n d, Frame (.chainDisable h n d) [.all 0x5E00 [0x01], .all 0x5E01 [0x01, 0x02, 0x03, 0x04, 0x05, 0x07, 0x08,
      0x09], .all 0x5E10 [0x01, 0x05, 0x06, 0x07, 0x08, 0x09, 0x0A, 0x0B, 0x11, 0x12, 0x13], .all 0x5F00 [0x04],
      .all 0x5F10 [0x01, 0x02, 0x03, 0x04, 0x05], ⟨0x6510, 0x65C7, none, [0x01, 0x02]⟩] [.pool]) ∧
  (∀ n, Frame (.chainRelease n) [.all 0x5E00 [0x01], .all 0x5E01 [0x01, 0x02, 0x03, 0x04, 0x05, 0x07, 0x08, 0x09],
      .all 0x5E10 [0x01, 0x05, 0x06, 0x07, 0x08, 0x09, 0x0A, 0x0B, 0x11, 0x12, 0x13], .all 0x5F00 [0x04], .all
      0x5F10 [], ⟨0x6510, 0x65C7, none, [0x01, 0x02]⟩] [.pool]) ∧
  (∀ h n d, Frame (.parameterWrite h n d) [] [.pool]) ∧
  (∀ n cycles bad abort, Frame (.runComplete n cycles bad abort) [.all 0x5E00 [0x06, 0x07, 0x08, 0x09, 0x0A, 0x0B,
      0x0C], .all 0x5E01 [0x06], .all 0x5E10 [0x05, 0x0C, 0x0D, 0x0E, 0x0F, 0x10, 0x13], .all 0x5F00 [0x01, 0x02,
      0x05, 0x06, 0x08, 0x09], .all 0x5F10 [0x07, 0x08, 0x09], .all 0x6100 [0x03, 0x05, 0x09], .ctr 208 223, .ctr
      224 239, .ctr 240 243, .ctr 244 244, .ctr 249 249] [.free, .pool]) ∧
  (∀ n, Frame (.missedRun n) [.all 0x5E00 [0x07, 0x0C], .one 0x5E10 n [0x05, 0x0D, 0x13], .ctr 224 239] [.pool]) ∧
  (∀ h n d, Frame (.packWrite h n d) [.one 0x5E30 n [0x03, 0x04, 0x05, 0x06, 0x07, 0x08]] [.free, .power]) ∧
  (∀ h n d, Frame (.packErase h n d) [.one 0x5E30 n [0x03, 0x04, 0x06, 0x07]] [.power]) ∧
  (∀ n, Frame (.flagRaise n) [.all 0x5E00 [0x07, 0x0B, 0x0C], .all 0x5E01 [0x0A], .all 0x5E10 [0x05, 0x0D, 0x13],
      .all 0x5F00 [0x01, 0x02, 0x04, 0x05, 0x06, 0x07, 0x08, 0x09], .all 0x5F10 [], .all 0x5F20 [0x04, 0x05], .all
      0x6020 [0x03], .ctr 224 239, .ctr 240 243, .ctr 244 244, .ctr 245 245] [.free, .pool, .mem]) ∧
  (∀ h d, Frame (.setHostFlags h d) [.all 0x5F00 [0x01, 0x02]] []) ∧
  (∀ n clock, Frame (.lockTimeout n clock) [.all 0x6000 [0x07, 0x0B]] [.clock, .mem]) ∧
  (∀ ready heat, Frame (.refresh ready heat) [.all 0x6200 [0x02, 0x03, 0x04, 0x05, 0x21], .ctr 250 250] [.mem]) ∧
  (∀ n row bank issue, Frame (.neighbourRefresh n row bank issue) [.all 0x6200 [0x07, 0x08, 0x21]] [.mem]) ∧
  (∀ n, Frame (.alert n) (Span.bus ++ [.all 0x6200 [0x09]]) [.free, .mem, .store, .power]) ∧
  (∀ n fails, Frame (.replay n fails) [.all 0x6200 [0x09, 0x0A, 0x0B, 0x21], .ctr 252 252] [.free, .mem]) ∧
  (∀ gap drift, Frame (.zqCalibration gap drift) [.all 0x6200 [0x0D, 0x0E, 0x0F, 0x21], .all 0x6602 [0x08, 0x0A,
      0x0B, 0x0D], .ctr 251 251] [.mem]) ∧
  (∀ good timing voltage, Frame (.scheduledRetraining good timing voltage) [.all 0x6200 [0x01, 0x11, 0x12, 0x13,
      0x21], .all 0x6602 [0x01, 0x02, 0x03, 0x04, 0x05, 0x08, 0x0B], ⟨0x6680, 0x66FD, none, [0x01, 0x02, 0x03]⟩]
      [.free, .mem]) ∧
  (∀ n offset bad, Frame (.scrub n offset bad) [.all 0x1400 [0x02, 0x07, 0x08], .all 0x6200 [0x15, 0x16, 0x17, 0x18,
      0x19, 0x1A, 0x1B, 0x21], .all 0x6210 [0x03, 0x04, 0x05, 0x06, 0x07], .ctr 246 246, .ctr 247 247] [.free, .mem,
      .store]) ∧
  (∀ request, Frame (.selfRefreshEntry request) [.all 0x6200 [0x01, 0x03, 0x1E, 0x1F]] [.mem]) ∧
  (∀ h n d, Frame (.markDevice h n d) [.all 0x1400 [0x02, 0x07, 0x08], .all 0x6200 [0x21], .one 0x6210 n [0x05,
      0x06, 0x07]] [.store])

/-- What the commands of these groups leave unchanged: images, attestation, STANDBY entry, temperature, ageing, the
margin plan, VREQ, counters and trace. A well-formed one changes the entries and the parts of the state that its
frame names, its outcome and what it sends, and nothing else. -/
def Obligations.SystemFrames : Prop :=
  (Frame .supplyLoss [.all 0x6500 [0x11, 0x12], .all 0x6A00 [0x1E]] [.engines, .store, .power]) ∧
  (∀ h d, Frame (.firmwareImage h d) [.all 0x6400 [0x03, 0x04, 0x05, 0x09, 0x0C, 0x13]] [.free, .power]) ∧
  (∀ h d, Frame (.nonce h d) [.all 0x6402 [0x02, 0x03, 0x04, 0x05, 0x06, 0x0A, 0x0D]] [.power]) ∧
  (∀ us, Frame (.reportSigned us) [.all 0x6402 [0x02, 0x03, 0x04, 0x07, 0x0C, 0x0D]] [.power]) ∧
  (Frame .standbyEntry [.all 0x6200 [0x01, 0x03, 0x1E], .all 0x6500 [0x03, 0x11, 0x13]] [.mem, .power]) ∧
  (∀ temp, Frame (.thermalRead temp) [.all 0x6500 [0x01, 0x03, 0x06, 0x09, 0x0A, 0x0B, 0x0E, 0x0F, 0x12, 0x14,
      0x15], ⟨0x6510, 0x65C7, none, [0x01, 0x02]⟩] [.free, .engines, .hedge, .power]) ∧
  (∀ readings temps, Frame (.monitorSample readings temps) [.all 0x6600 [0x03, 0x04, 0x05, 0x06, 0x0C, 0x0D, 0x10,
      0x11, 0x12, 0x15], ⟨0x6700, 0x67FF, none, [0x02, 0x03]⟩] [.free, .power]) ∧
  (∀ delays, Frame (.marginPlan delays) [.all 0x6600 [0x0E, 0x13, 0x15], .all 0x6601 [0x08, 0x09, 0x0A, 0x0B, 0x0C,
      0x0D, 0x0E, 0x13], .all 0x6603 [0x0B], ⟨0x6610, 0x664F, none, [0x02]⟩] [.power]) ∧
  (∀ volts, Frame (.vreqStep volts) [.all 0x6601 [0x11, 0x12], .all 0x6603 [0x01, 0x02, 0x03, 0x04, 0x05, 0x09, 0x0A],
      .all 0x6503 [0x01, 0x0D]] [.power]) ∧
  (∀ n, Frame (.safetyRaise n) [.all 0x6600 [0x15], .all 0x6601 [0x11, 0x12], .all 0x6603 [0x01, 0x02, 0x05, 0x06,
      0x09, 0x0B]] [.power]) ∧
  (Frame .ageingTelemetrySave [.all 0x6600 [0x08, 0x09, 0x0A, 0x0F]] [.power]) ∧
  (∀ h d, Frame (.counterLatch h d) [.all 0x6A00 [0x17, 0x18, 0x19, 0x1A, 0x1B]] []) ∧
  (∀ h d, Frame (.traceEnable h d) [.all 0x6A00 [0x01, 0x09, 0x0A, 0x0F, 0x10, 0x11, 0x12, 0x13, 0x14, 0x15, 0x16,
      0x1E, 0x1F], .ctr 15 15] []) ∧
  (∀ h d, Frame (.traceDisable h d) [.all 0x6A00 [0x01, 0x09, 0x0A, 0x0F, 0x10, 0x11, 0x12, 0x13, 0x14, 0x15, 0x16,
      0x1E, 0x1F], .ctr 15 15] []) ∧
  (Frame .traceSync [] []) ∧
  (Frame .counterSnapshot [] [])

/-- What the commands of these groups leave unchanged: a period, a change of rate, stop and restart of the engines,
patrol reads, resets of a part and power requests. A well-formed one changes the entries and the parts of the state
that its frame names, its outcome and what it sends, and nothing else. -/
def Obligations.WideFrames : Prop :=
  (∀ e, Frame (.periodStart e) (Span.sends ++ [.all 0x1000 [0x08, 0x09, 0x0A], .all 0x1001 [0x01], .all 0x1300 [0x03,
      0x04, 0x0A, 0x0B], .all 0x1400 [0x02, 0x07, 0x08], .all 0x3000 [0x0B, 0x0C, 0x0D], .all 0x3100 [0x04], .all
      0x3200 [0x04], .all 0x3800 [0x11, 0x12, 0x13, 0x14, 0x15, 0x17], .all 0x3A00 [0x09, 0x0A], .all 0x3B00 [0x0E],
      .all 0x3C00 [0x05, 0x06, 0x09, 0x0B, 0x0C], .all 0x3C01 [0x03], .all 0x3C02 [0x03, 0x04], .all 0x3F00 [0x07,
      0x09], .all 0x4010 [0x07, 0x08, 0x09, 0x0B, 0x0C, 0x0D, 0x0E, 0x11, 0x16], .all 0x4400 [0x02, 0x03, 0x04, 0x05,
      0x07], .all 0x4500 [0x04, 0x05], .all 0x4900 [0x0B, 0x0C], .all 0x4A00 [0x12, 0x17, 0x1B, 0x1D, 0x1F, 0x21], .all
      0x4E00 [0x03], .all 0x5A00 [0x0E], .all 0x5C10 [0x0A, 0x0B, 0x0C, 0x0D, 0x0E, 0x10], .all 0x5D00 [0x0B, 0x0D],
      .all 0x5E00 [0x07, 0x0C], .all 0x5E01 [0x0A], .all 0x5E10 [0x05, 0x0D, 0x13], .all 0x5E30 [0x03, 0x04, 0x05,
      0x06, 0x07, 0x08], .all 0x5F00 [0x06, 0x09], .all 0x5F10 [0x08], .all 0x6000 [0x01, 0x02, 0x03, 0x04, 0x05, 0x06,
      0x07, 0x08, 0x09, 0x0A, 0x0B], .all 0x6010 [0x04, 0x05, 0x06, 0x07], .all 0x6020 [0x02, 0x03, 0x04], .all 0x6100
      [0x02, 0x03, 0x04, 0x05, 0x06, 0x09], .all 0x6200 [0x01, 0x03, 0x08, 0x18, 0x19, 0x1A, 0x1B, 0x1C, 0x21], .all
      0x6210 [0x03, 0x04, 0x05, 0x06, 0x07], .all 0x6300 [0x05], .all 0x6400 [0x03, 0x04, 0x05, 0x09, 0x0C, 0x0F, 0x10,
      0x13], .all 0x6500 [0x03, 0x15], .all 0x6501 [], .all 0x6A00 [0x09, 0x0A, 0x0B, 0x10, 0x11, 0x12, 0x13, 0x14,
      0x15, 0x16, 0x1E, 0x1F], .ctr 9 9, .ctr 15 15, .ctr 16 47, .ctr 48 79, .ctr 80 111, .ctr 224 239, .ctr 244 244,
      .ctr 246 246, .ctr 247 247, .ctr 248 248, .ctr 249 249, .ctr 253 253, .ctr 254 254, .ctr 256 511]) [.clock,
      .free, .scene, .geo, .render, .corr, .maps, .serial, .net, .time, .sprk, .hedge, .meas, .pool, .mem, .ctl,
      .store, .power]) ∧
  (∀ h d, Frame (.rateChange h d) [.all 0x2000 [0x01, 0x08, 0x0E, 0x0F, 0x10, 0x11, 0x12, 0x13], .all 0x3400 [0x03,
      0x04, 0x05, 0x07], .all 0x3410 [0x01, 0x02, 0x03, 0x04, 0x05, 0x07], .all 0x3800 [0x01, 0x0A, 0x0B, 0x0C, 0x0D,
      0x0E, 0x0F], .all 0x3B00 [0x0E], .all 0x3C00 [0x09], .all 0x3E00 [0x02], .all 0x3F00 [0x01, 0x03, 0x04, 0x09],
      .all 0x5100 [0x04, 0x05, 0x07], .all 0x5D00 [0x0B, 0x0D, 0x14], .all 0x5D10 [0x04, 0x05, 0x06, 0x07, 0x08, 0x09,
      0x0A, 0x0B, 0x0C, 0x0D], .all 0x5F00 [0x04], .all 0x5F10 [0x01, 0x02, 0x03, 0x04, 0x05, 0x06, 0x07, 0x08, 0x09],
      .all 0x6200 [0x11], .ctr 9 9, .all 0x5D80 [0x07], .all 0x5E00 [0x03]] [.clock, .free, .scene, .render, .corr,
      .maps, .engines, .serial, .time, .sprk, .hedge, .meas, .pool]) ∧
  (Frame .enginesStop (Span.sends ++ [.all 0x1300 [0x03, 0x04, 0x0A, 0x0B], .all 0x1400 [0x02, 0x07, 0x08], .all 0x2000
      [], .all 0x3000 [0x0B, 0x0C, 0x0D], .all 0x3100 [0x04], .all 0x3200 [0x04], .all 0x3400 [0x03, 0x04, 0x05, 0x07],
      .all 0x3410 [0x01, 0x02, 0x03, 0x04, 0x05, 0x07], .all 0x3800 [0x01, 0x0A, 0x0B, 0x0C, 0x0D, 0x0E, 0x0F], .all
      0x3B00 [0x0E], .all 0x3C00 [0x09], .all 0x3E00 [0x02], .all 0x3F00 [0x01, 0x03, 0x04, 0x05, 0x06, 0x09], .all
      0x4010 [0x01, 0x02, 0x15, 0x16], .all 0x4400 [0x02], .all 0x4500 [0x01, 0x02], .all 0x4510 [0x01, 0x02, 0x03,
      0x04, 0x05, 0x06], .all 0x4800 [0x09], .all 0x4900 [0x02, 0x03, 0x04, 0x09, 0x0A, 0x0C], .all 0x4A00 [0x12, 0x1F,
      0x21], .all 0x4C00 [0x14, 0x16, 0x1B], .all 0x5100 [0x04, 0x05, 0x07], .all 0x5D00 [0x0B, 0x0D, 0x14], .all
      0x5D10 [0x04, 0x05, 0x06, 0x07, 0x08, 0x09, 0x0A, 0x0B, 0x0C, 0x0D], .all 0x5D80 [0x06, 0x07, 0x08, 0x09, 0x0A,
      0x0B], .all 0x5E00 [0x01, 0x03], .all 0x5E01 [0x01, 0x02, 0x03, 0x04, 0x05, 0x07, 0x08, 0x09], .all 0x5E10 [0x01,
      0x05, 0x06, 0x07, 0x08, 0x09, 0x0A, 0x0B, 0x11, 0x12, 0x13], .all 0x5F00 [0x04], .all 0x5F10 [], .all 0x6200
      [0x01, 0x11], .all 0x6500 [0x01, 0x03, 0x06, 0x09, 0x10, 0x14], ⟨0x6510, 0x65C7, none, [0x01, 0x02]⟩, .ctr 9 9,
      .ctr 135 135, .ctr 137 137]) [.clock, .free, .scene, .geo, .render, .corr, .maps, .engines, .serial, .net, .time,
      .sprk, .hedge, .meas, .pool, .ctl, .store, .power]) ∧
  (∀ s t, exec .enginesRestart s = .next t → Kept (fun k => (s.engines.cause = 3 ∧ ∃ c, s.ctl.commit = some c ∧ k ∈
      (s.host c.host).stage.map (·.1)) ∨ ∃ x ∈ Span.sends ++ [Span.all 0x1200 [0x06, 0x07], .all 0x1300 [0x03, 0x04,
      0x08, 0x0B], .all 0x1301 [0x05], .all 0x2000 [0x01, 0x08, 0x0E, 0x0F, 0x10, 0x11, 0x12, 0x13], .all 0x3400
      [0x03, 0x04, 0x05, 0x07], .all 0x3410 [0x01, 0x02, 0x03, 0x04, 0x05, 0x07], .all 0x3800 [0x01, 0x0A, 0x0B,
      0x0C, 0x0D, 0x0E, 0x0F], .all 0x3B00 [0x0E], .all 0x3C00 [0x05, 0x06, 0x09, 0x0C], .all 0x3D00 [0x05], .all
      0x3E00 [0x02], .all 0x3F00 [0x01, 0x03, 0x04, 0x05, 0x06, 0x07, 0x09], .all 0x4010 [0x01, 0x02, 0x05, 0x06,
      0x11, 0x14, 0x15, 0x16], .all 0x4400 [0x02, 0x07], .all 0x4500 [0x01, 0x02], .all 0x4510 [0x01, 0x02, 0x03,
      0x04], .all 0x4800 [0x09], .all 0x4900 [0x03], .all 0x4A00 [0x12, 0x1F, 0x21], .all 0x4C00 [0x14], .all 0x5100
      [0x01, 0x04, 0x05, 0x07, 0x08, 0x09, 0x0A, 0x0B], .all 0x5A00 [0x06], .all 0x5C00 [0x04, 0x05, 0x09], .all
      0x5C10 [0x0A], .all 0x5D00 [0x0B, 0x0D], .all 0x5D80 [0x06, 0x07, 0x08, 0x09, 0x0A, 0x0B], .all 0x5E00 [0x01,
      0x03], .all 0x5E01 [0x01, 0x02, 0x03, 0x04, 0x05, 0x07, 0x08, 0x09], .all 0x5E10 [0x05, 0x06, 0x07, 0x08,
      0x09, 0x0A, 0x0B, 0x13], .all 0x5F00 [0x01, 0x02, 0x04], .all 0x5F10 [], .all 0x6200 [0x01, 0x11], .all 0x6401
      [0x0D, 0x0E, 0x0F], .all 0x6500 [0x01, 0x03, 0x06, 0x09, 0x10, 0x14], ⟨0x6510, 0x65C7, none, [0x01, 0x02]⟩,
      .ctr 8 8, .ctr 9 9, .ctr 48 79, .ctr 144 159], x.has k) [.result, .outs, .clock, .scene, .geo, .render, .corr,
      .maps, .engines, .serial, .net, .time, .sprk, .hedge, .meas, .pool, .ctl, .power] s t) ∧
  (∀ n word err syn, Frame (.patrol n word err syn) (Span.bus ++ Span.control ++ [.all 0x6100 [0x07, 0x08], .all 0x6400
      [0x0F, 0x10, 0x13]]) [.free, .maps, .net, .time, .sprk, .mem, .ctl, .store, .power]) ∧
  (∀ h d, Frame (.controlProcessorReset h d) (Span.bus ++ Span.control) [.free, .maps, .net, .time, .sprk, .mem, .ctl,
      .store, .power]) ∧
  (Frame .controlResetComplete (Span.bus ++ Span.sends ++ [.all 0x4C00 [0x14], .all 0x4E00 [0x03], .all 0x4F00 [0x08,
      0x0A, 0x0B, 0x0C], .all 0x5000 [0x07, 0x08], .all 0x5001 [0x15], .all 0x5400 [0x0D], .all 0x6000 [0x01], .all
      0x6501 [0x0F]]) [.free, .maps, .net, .time, .mem, .ctl, .store, .power]) ∧
  (∀ h d, Frame (.tendingPoolReset h d) (Span.bus ++ [.all 0x5E00 [0x01], .all 0x5E01 [0x01, 0x02, 0x03, 0x04, 0x05,
      0x07, 0x08, 0x09], .all 0x5E10 [0x05, 0x06, 0x07, 0x08, 0x09, 0x0A, 0x0B, 0x13], .all 0x5F00 [0x01, 0x02, 0x04],
      .all 0x5F10 [], .all 0x6000 [0x04], .all 0x6010 [0x07], .all 0x6501 [], ⟨0x6510, 0x65C7, none, [0x01, 0x02]⟩,
      .ctr 253 253]) [.free, .pool, .mem, .store, .power]) ∧
  (∀ h d, Frame (.networkReset h d) (Span.bus ++ Span.lanes ++ Span.sends ++ [.all 0x4800 [0x07, 0x08, 0x15], .all
      0x4900 [0x09, 0x0A, 0x0C], .all 0x4C00 [0x16], .all 0x4E00 [0x03], .all 0x5001 [0x11, 0x12], .all 0x6000 [0x04],
      .all 0x6010 [0x07], .all 0x6501 [], .ctr 135 135, .ctr 137 137, .ctr 253 253]) [.free, .maps, .serial, .net,
      .time, .mem, .ctl, .store, .power]) ∧
  (Frame .watchdog (Span.bus ++ Span.control ++ [.all 0x6400 [0x0E, 0x13]]) [.free, .maps, .net, .time, .sprk, .mem,
      .ctl, .store, .power]) ∧
  (∀ h d, Frame (.requestActive h d) [.all 0x1300 [0x03, 0x04, 0x0A, 0x0B], .all 0x1400 [0x02, 0x07, 0x08], .all 0x2000
      [0x01, 0x08, 0x0E, 0x0F, 0x10, 0x11, 0x12, 0x13], .all 0x3000 [0x0B, 0x0C, 0x0D], .all 0x3100 [0x04], .all 0x3200
      [0x04], .all 0x3400 [0x03, 0x04, 0x05, 0x07], .all 0x3410 [0x01, 0x02, 0x03, 0x04, 0x05, 0x07], .all 0x3800
      [0x01, 0x0A, 0x0B, 0x0C, 0x0D, 0x0E, 0x0F], .all 0x3B00 [0x0E], .all 0x3C00 [0x09], .all 0x3E00 [0x02], .all
      0x3F00 [0x01, 0x03, 0x04, 0x09], .all 0x5100 [0x04, 0x05, 0x07], .all 0x6200 [0x11], .all 0x6500 [0x01, 0x03,
      0x06, 0x09, 0x14], ⟨0x6510, 0x65C7, none, [0x01, 0x02]⟩, .ctr 9 9, .all 0x5D00 [0x0B, 0x0D, 0x14], .all 0x5D10
      [0x04, 0x05, 0x06, 0x07, 0x08, 0x09, 0x0A, 0x0B, 0x0C, 0x0D], .all 0x5D80 [0x06, 0x07, 0x08, 0x09, 0x0A, 0x0B],
      .all 0x5E00 [0x01, 0x03], .all 0x5E01 [0x01, 0x02, 0x03, 0x04, 0x05, 0x07, 0x08, 0x09], .all 0x5E10 [0x01, 0x05,
      0x06, 0x07, 0x08, 0x09, 0x0A, 0x0B, 0x11, 0x12, 0x13], .all 0x5F00 [0x04], .all 0x5F10 []] [.clock, .scene,
      .render, .corr, .maps, .engines, .serial, .time, .sprk, .hedge, .meas, .pool, .ctl, .store, .power]) ∧
  (∀ h d, Frame (.requestIdle h d) [.all 0x1300 [0x03, 0x04, 0x0A, 0x0B], .all 0x1400 [0x02, 0x07, 0x08], .all 0x2000
      [0x01, 0x08, 0x0E, 0x0F, 0x10, 0x11, 0x12, 0x13], .all 0x3000 [0x0B, 0x0C, 0x0D], .all 0x3100 [0x04], .all 0x3200
      [0x04], .all 0x3400 [0x03, 0x04, 0x05, 0x07], .all 0x3410 [0x01, 0x02, 0x03, 0x04, 0x05, 0x07], .all 0x3800
      [0x01, 0x0A, 0x0B, 0x0C, 0x0D, 0x0E, 0x0F], .all 0x3B00 [0x0E], .all 0x3C00 [0x09], .all 0x3E00 [0x02], .all
      0x3F00 [0x01, 0x03, 0x04, 0x09], .all 0x5100 [0x04, 0x05, 0x07], .all 0x6200 [0x11], .all 0x6500 [0x01, 0x03,
      0x06, 0x09, 0x14], ⟨0x6510, 0x65C7, none, [0x01, 0x02]⟩, .ctr 9 9, .all 0x5D00 [0x0B, 0x0D, 0x14], .all 0x5D10
      [0x04, 0x05, 0x06, 0x07, 0x08, 0x09, 0x0A, 0x0B, 0x0C, 0x0D], .all 0x5D80 [0x06, 0x07, 0x08, 0x09, 0x0A, 0x0B],
      .all 0x5E00 [0x01, 0x03], .all 0x5E01 [0x01, 0x02, 0x03, 0x04, 0x05, 0x07, 0x08, 0x09], .all 0x5E10 [0x01, 0x05,
      0x06, 0x07, 0x08, 0x09, 0x0A, 0x0B, 0x11, 0x12, 0x13], .all 0x5F00 [0x04], .all 0x5F10 []] [.clock, .scene,
      .render, .corr, .maps, .engines, .serial, .time, .sprk, .hedge, .meas, .pool, .ctl, .store, .power]) ∧
  (∀ h d, Frame (.requestStandby h d) [.all 0x1300 [0x03, 0x04, 0x0A, 0x0B], .all 0x1400 [0x02, 0x07, 0x08], .all
      0x2000 [0x01, 0x08, 0x0E, 0x0F, 0x10, 0x11, 0x12, 0x13], .all 0x3000 [0x0B, 0x0C, 0x0D], .all 0x3100 [0x04], .all
      0x3200 [0x04], .all 0x3400 [0x03, 0x04, 0x05, 0x07], .all 0x3410 [0x01, 0x02, 0x03, 0x04, 0x05, 0x07], .all
      0x3800 [0x01, 0x0A, 0x0B, 0x0C, 0x0D, 0x0E, 0x0F], .all 0x3B00 [0x0E], .all 0x3C00 [0x09], .all 0x3E00 [0x02],
      .all 0x3F00 [0x01, 0x03, 0x04, 0x09], .all 0x5100 [0x04, 0x05, 0x07], .all 0x6200 [0x11], .all 0x6500 [0x01,
      0x03, 0x06, 0x09, 0x14], ⟨0x6510, 0x65C7, none, [0x01, 0x02]⟩, .ctr 9 9, .all 0x5D00 [0x0B, 0x0D, 0x14], .all
      0x5D10 [0x04, 0x05, 0x06, 0x07, 0x08, 0x09, 0x0A, 0x0B, 0x0C, 0x0D], .all 0x5D80 [0x06, 0x07, 0x08, 0x09, 0x0A,
      0x0B], .all 0x5E00 [0x01, 0x03], .all 0x5E01 [0x01, 0x02, 0x03, 0x04, 0x05, 0x07, 0x08, 0x09], .all 0x5E10 [0x01,
      0x05, 0x06, 0x07, 0x08, 0x09, 0x0A, 0x0B, 0x11, 0x12, 0x13], .all 0x5F00 [0x04], .all 0x5F10 []] [.clock, .scene,
      .render, .corr, .maps, .engines, .serial, .time, .sprk, .hedge, .meas, .pool, .ctl, .store, .power])
end

