-- ==== Sys2Proof/Laws/Map.lean ====
section
/-! SUPPORT. The laws of sparse tables: what a read answers after a change, and that a change keeps the canonical form. -/

namespace Sys2Proof.Machine
open Sys2Proof

variable {α : Type}

@[simp] theorem mget?_nil (k : Nat) : mget? ([] : List (Nat × α)) k = none := rfl

/-- A table above a number is above every lower one. -/
theorem mabove_mono {lo lo' : Nat} {m : List (Nat × α)} (h : mabove lo m = true) (hl : lo' ≤ lo) :
    mabove lo' m = true := by
  cases m with
  | nil => rfl
  | cons p r =>
    obtain ⟨k', v⟩ := p
    simp only [mabove, Bool.and_eq_true, decide_eq_true_eq] at h ⊢
    exact ⟨by omega, h.2⟩

/-- Every part of a canonical table is canonical. -/
theorem mwf_of_mabove {lo : Nat} {m : List (Nat × α)} (h : mabove lo m = true) : mwf m = true := by
  cases m with
  | nil => rfl
  | cons p r =>
    obtain ⟨k', v⟩ := p
    simp only [mabove, Bool.and_eq_true] at h
    exact h.2

/-- A read after a change of the same number. -/
@[simp] theorem mget?_mset_same (k : Nat) (v : α) (m : List (Nat × α)) : mget? (mset k v m) k = some v := by
  induction m with
  | nil => simp [mset, mget?]
  | cons p r ih =>
    obtain ⟨k', v'⟩ := p
    simp only [mset]
    split
    · simp [mget?]
    · split
      · simp [mget?]
      · simp only [mget?]
        rw [if_neg (by omega)]
        exact ih

/-- A read after a change of another number. -/
theorem mget?_mset_other {k j : Nat} (v : α) (m : List (Nat × α)) (h : j ≠ k) :
    mget? (mset k v m) j = mget? m j := by
  induction m with
  | nil => simp only [mset, mget?, if_neg h]
  | cons p r ih =>
    obtain ⟨k', v'⟩ := p
    simp only [mset]
    split
    · subst_vars; simp only [mget?, if_neg h]
    · split
      · simp only [mget?, if_neg h]
      · simp only [mget?, ih]

theorem mabove_mset {lo k : Nat} (v : α) {m : List (Nat × α)} (h : mabove lo m = true) (hk : lo < k) :
    mabove lo (mset k v m) = true := by
  induction m generalizing lo with
  | nil => simp [mset, mabove, hk]
  | cons p r ih =>
    obtain ⟨k', v'⟩ := p
    simp only [mabove, Bool.and_eq_true, decide_eq_true_eq] at h
    simp only [mset]
    split
    · subst_vars; simp [mabove, h]
    · split
      · simp only [mabove, Bool.and_eq_true, decide_eq_true_eq]; exact ⟨hk, by omega, h.2⟩
      · simp only [mabove, Bool.and_eq_true, decide_eq_true_eq]; exact ⟨h.1, ih h.2 (by omega)⟩

theorem mabove_mdel {lo : Nat} (k : Nat) {m : List (Nat × α)} (h : mabove lo m = true) :
    mabove lo (mdel k m) = true := by
  induction m generalizing lo with
  | nil => rfl
  | cons p r ih =>
    obtain ⟨k', v'⟩ := p
    simp only [mabove, Bool.and_eq_true, decide_eq_true_eq] at h
    simp only [mdel]
    split
    · exact ih (mabove_mono h.2 (by omega))
    · simp only [mabove, Bool.and_eq_true, decide_eq_true_eq]; exact ⟨h.1, ih h.2⟩

/-- A change keeps the canonical form. -/
theorem mwf_mset (k : Nat) (v : α) {m : List (Nat × α)} (h : mwf m = true) : mwf (mset k v m) = true := by
  cases m with
  | nil => rfl
  | cons p r =>
    obtain ⟨k', v'⟩ := p
    simp only [mwf] at h
    simp only [mset]
    split
    · subst_vars; exact h
    · split
      · simp only [mwf, mabove, Bool.and_eq_true, decide_eq_true_eq]; exact ⟨by omega, h⟩
      · exact mabove_mset v h (by omega)

/-- A removal keeps the canonical form. -/
theorem mwf_mdel (k : Nat) {m : List (Nat × α)} (h : mwf m = true) : mwf (mdel k m) = true := by
  induction m with
  | nil => rfl
  | cons p r ih =>
    obtain ⟨k', v'⟩ := p
    simp only [mwf] at h
    simp only [mdel]
    split
    · exact ih (mwf_of_mabove h)
    · exact mabove_mdel k h

/-- A read of a number that was removed. -/
@[simp] theorem mget?_mdel_same (k : Nat) (m : List (Nat × α)) : mget? (mdel k m) k = none := by
  induction m with
  | nil => rfl
  | cons p r ih =>
    obtain ⟨k', v'⟩ := p
    simp only [mdel]
    split
    · exact ih
    · simp only [mget?, if_neg ‹_›, ih]

/-- A read of a number other than the one removed. -/
theorem mget?_mdel_other {k j : Nat} (m : List (Nat × α)) (hj : j ≠ k) : mget? (mdel k m) j = mget? m j := by
  induction m with
  | nil => rfl
  | cons p r ih =>
    obtain ⟨k', v'⟩ := p
    simp only [mdel]
    split
    · subst_vars; simp only [mget?, if_neg hj, ih]
    · simp only [mget?, ih]

theorem mem_mset {k : Nat} {v : α} {m : List (Nat × α)} {p : Nat × α} (h : p ∈ mset k v m) :
    p = (k, v) ∨ p ∈ m := by
  induction m with
  | nil => simpa [mset] using h
  | cons q r ih =>
    obtain ⟨k', v'⟩ := q
    simp only [mset] at h
    split at h
    · rcases List.mem_cons.1 h with h | h
      · exact .inl h
      · exact .inr (List.mem_cons_of_mem _ h)
    · split at h
      · rcases List.mem_cons.1 h with h | h
        · exact .inl h
        · exact .inr h
      · rcases List.mem_cons.1 h with h | h
        · exact .inr (by rw [h]; exact List.mem_cons_self)
        · rcases ih h with h | h
          · exact .inl h
          · exact .inr (List.mem_cons_of_mem _ h)

theorem mem_mdel {k : Nat} {m : List (Nat × α)} {p : Nat × α} (h : p ∈ mdel k m) : p ∈ m := by
  induction m with
  | nil => exact h
  | cons q r ih =>
    obtain ⟨k', v'⟩ := q
    simp only [mdel] at h
    split at h
    · exact List.mem_cons_of_mem _ (ih h)
    · rcases List.mem_cons.1 h with h | h
      · rw [h]; exact List.mem_cons_self
      · exact List.mem_cons_of_mem _ (ih h)

section
variable [DecidableEq α]

theorem mwf_mputD (d : α) (k : Nat) (v : α) {m : List (Nat × α)} (h : mwf m = true) : mwf (mputD d k v m) = true := by
  simp only [mputD]
  split
  · exact mwf_mdel k h
  · exact mwf_mset k v h

theorem mem_mputD {d : α} {k : Nat} {v : α} {m : List (Nat × α)} {p : Nat × α} (h : p ∈ mputD d k v m) :
    (p = (k, v) ∧ v ≠ d) ∨ p ∈ m := by
  simp only [mputD] at h
  split at h
  · exact .inr (mem_mdel h)
  · rcases mem_mset h with h' | h'
    · exact .inl ⟨h', ‹_›⟩
    · exact .inr h'

/-- A read after a change of the same number, with the fallback an unlisted number has. -/
@[simp] theorem mgetD_mputD_same (d : α) (k : Nat) (v : α) (m : List (Nat × α)) :
    (mget? (mputD d k v m) k).getD d = v := by
  simp only [mputD]
  split
  · simp [*]
  · simp

theorem mget?_mputD_other {d : α} {k j : Nat} (v : α) (m : List (Nat × α)) (hj : j ≠ k) :
    mget? (mputD d k v m) j = mget? m j := by
  simp only [mputD]
  split
  · exact mget?_mdel_other m hj
  · exact mget?_mset_other v m hj

/-- The value of a number after a change of some number. -/
theorem mget_mputD (d : α) (k : Nat) (v : α) (m : List (Nat × α)) (j : Nat) :
    mget d (mputD d k v m) j = if j = k then v else mget d m j := by
  simp only [mget]
  split
  · subst_vars; exact mgetD_mputD_same d j v m
  · rw [mget?_mputD_other v m ‹_›]

end

/-- The value of a number after another representation of the same change. -/
theorem mget_mset (d : α) (k : Nat) (v : α) (m : List (Nat × α)) (j : Nat) :
    mget d (mset k v m) j = if j = k then v else mget d m j := by
  simp only [mget]
  split
  · subst_vars; rw [mget?_mset_same]; rfl
  · rw [mget?_mset_other v m ‹_›]

theorem mget_mdel (d : α) (k : Nat) (m : List (Nat × α)) (j : Nat) :
    mget d (mdel k m) j = if j = k then d else mget d m j := by
  simp only [mget]
  split
  · subst_vars; rw [mget?_mdel_same]; rfl
  · rw [mget?_mdel_other m ‹_›]

end Sys2Proof.Machine
end

