-- ==== Sys2Proof/Laws/State.lean ====
section
/-! SUPPORT. One lemma per field per elementary update, and what a transaction's operations do to its state. -/

namespace Sys2Proof.Machine
open Sys2Proof

variable {s0 : State}

@[simp] theorem Tx.put_pending (t : Tx s0) (k v : Nat) : (t.put k v).cur.pending = t.cur.pending := rfl
@[simp] theorem Tx.put_now (t : Tx s0) (k v : Nat) : (t.put k v).cur.now = t.cur.now := rfl
@[simp] theorem Tx.put_clock (t : Tx s0) (k v : Nat) : (t.put k v).cur.clock = t.cur.clock := rfl
@[simp] theorem Tx.put_free (t : Tx s0) (k v : Nat) : (t.put k v).cur.free = t.cur.free := rfl
@[simp] theorem Tx.put_dict (t : Tx s0) (k v : Nat) : (t.put k v).cur.dict = dictPut t.cur.dict k v := rfl
@[simp] theorem Tx.put_blobs (t : Tx s0) (k v : Nat) : (t.put k v).cur.blobs = t.cur.blobs := rfl
@[simp] theorem Tx.put_sets (t : Tx s0) (k v : Nat) : (t.put k v).cur.sets = t.cur.sets := rfl
@[simp] theorem Tx.put_result (t : Tx s0) (k v : Nat) : (t.put k v).cur.result = t.cur.result := rfl
@[simp] theorem Tx.put_outs (t : Tx s0) (k v : Nat) : (t.put k v).cur.outs = t.cur.outs := rfl
@[simp] theorem Tx.put_msgs (t : Tx s0) (k v : Nat) : (t.put k v).cur.msgs = t.cur.msgs := rfl
@[simp] theorem Tx.put_scene (t : Tx s0) (k v : Nat) : (t.put k v).cur.scene = t.cur.scene := rfl
@[simp] theorem Tx.put_geo (t : Tx s0) (k v : Nat) : (t.put k v).cur.geo = t.cur.geo := rfl
@[simp] theorem Tx.put_render (t : Tx s0) (k v : Nat) : (t.put k v).cur.render = t.cur.render := rfl
@[simp] theorem Tx.put_corr (t : Tx s0) (k v : Nat) : (t.put k v).cur.corr = t.cur.corr := rfl
@[simp] theorem Tx.put_maps (t : Tx s0) (k v : Nat) : (t.put k v).cur.maps = t.cur.maps := rfl
@[simp] theorem Tx.put_engines (t : Tx s0) (k v : Nat) : (t.put k v).cur.engines = t.cur.engines := rfl
@[simp] theorem Tx.put_serial (t : Tx s0) (k v : Nat) : (t.put k v).cur.serial = t.cur.serial := rfl
@[simp] theorem Tx.put_net (t : Tx s0) (k v : Nat) : (t.put k v).cur.net = t.cur.net := rfl
@[simp] theorem Tx.put_time (t : Tx s0) (k v : Nat) : (t.put k v).cur.time = t.cur.time := rfl
@[simp] theorem Tx.put_sprk (t : Tx s0) (k v : Nat) : (t.put k v).cur.sprk = t.cur.sprk := rfl
@[simp] theorem Tx.put_hedge (t : Tx s0) (k v : Nat) : (t.put k v).cur.hedge = t.cur.hedge := rfl
@[simp] theorem Tx.put_meas (t : Tx s0) (k v : Nat) : (t.put k v).cur.meas = t.cur.meas := rfl
@[simp] theorem Tx.put_pool (t : Tx s0) (k v : Nat) : (t.put k v).cur.pool = t.cur.pool := rfl
@[simp] theorem Tx.put_mem (t : Tx s0) (k v : Nat) : (t.put k v).cur.mem = t.cur.mem := rfl
@[simp] theorem Tx.put_ctl (t : Tx s0) (k v : Nat) : (t.put k v).cur.ctl = t.cur.ctl := rfl
@[simp] theorem Tx.put_store (t : Tx s0) (k v : Nat) : (t.put k v).cur.store = t.cur.store := rfl
@[simp] theorem Tx.put_power (t : Tx s0) (k v : Nat) : (t.put k v).cur.power = t.cur.power := rfl
@[simp] theorem Tx.put_trace (t : Tx s0) (k v : Nat) : (t.put k v).cur.trace = t.cur.trace := rfl
@[simp] theorem Tx.unset_pending (t : Tx s0) (k : Nat) : (t.unset k).cur.pending = t.cur.pending := rfl
@[simp] theorem Tx.unset_now (t : Tx s0) (k : Nat) : (t.unset k).cur.now = t.cur.now := rfl
@[simp] theorem Tx.unset_clock (t : Tx s0) (k : Nat) : (t.unset k).cur.clock = t.cur.clock := rfl
@[simp] theorem Tx.unset_free (t : Tx s0) (k : Nat) : (t.unset k).cur.free = t.cur.free := rfl
@[simp] theorem Tx.unset_dict (t : Tx s0) (k : Nat) : (t.unset k).cur.dict = mdel k t.cur.dict := rfl
@[simp] theorem Tx.unset_blobs (t : Tx s0) (k : Nat) : (t.unset k).cur.blobs = t.cur.blobs := rfl
@[simp] theorem Tx.unset_sets (t : Tx s0) (k : Nat) : (t.unset k).cur.sets = t.cur.sets := rfl
@[simp] theorem Tx.unset_result (t : Tx s0) (k : Nat) : (t.unset k).cur.result = t.cur.result := rfl
@[simp] theorem Tx.unset_outs (t : Tx s0) (k : Nat) : (t.unset k).cur.outs = t.cur.outs := rfl
@[simp] theorem Tx.unset_msgs (t : Tx s0) (k : Nat) : (t.unset k).cur.msgs = t.cur.msgs := rfl
@[simp] theorem Tx.unset_scene (t : Tx s0) (k : Nat) : (t.unset k).cur.scene = t.cur.scene := rfl
@[simp] theorem Tx.unset_geo (t : Tx s0) (k : Nat) : (t.unset k).cur.geo = t.cur.geo := rfl
@[simp] theorem Tx.unset_render (t : Tx s0) (k : Nat) : (t.unset k).cur.render = t.cur.render := rfl
@[simp] theorem Tx.unset_corr (t : Tx s0) (k : Nat) : (t.unset k).cur.corr = t.cur.corr := rfl
@[simp] theorem Tx.unset_maps (t : Tx s0) (k : Nat) : (t.unset k).cur.maps = t.cur.maps := rfl
@[simp] theorem Tx.unset_engines (t : Tx s0) (k : Nat) : (t.unset k).cur.engines = t.cur.engines := rfl
@[simp] theorem Tx.unset_serial (t : Tx s0) (k : Nat) : (t.unset k).cur.serial = t.cur.serial := rfl
@[simp] theorem Tx.unset_net (t : Tx s0) (k : Nat) : (t.unset k).cur.net = t.cur.net := rfl
@[simp] theorem Tx.unset_time (t : Tx s0) (k : Nat) : (t.unset k).cur.time = t.cur.time := rfl
@[simp] theorem Tx.unset_sprk (t : Tx s0) (k : Nat) : (t.unset k).cur.sprk = t.cur.sprk := rfl
@[simp] theorem Tx.unset_hedge (t : Tx s0) (k : Nat) : (t.unset k).cur.hedge = t.cur.hedge := rfl
@[simp] theorem Tx.unset_meas (t : Tx s0) (k : Nat) : (t.unset k).cur.meas = t.cur.meas := rfl
@[simp] theorem Tx.unset_pool (t : Tx s0) (k : Nat) : (t.unset k).cur.pool = t.cur.pool := rfl
@[simp] theorem Tx.unset_mem (t : Tx s0) (k : Nat) : (t.unset k).cur.mem = t.cur.mem := rfl
@[simp] theorem Tx.unset_ctl (t : Tx s0) (k : Nat) : (t.unset k).cur.ctl = t.cur.ctl := rfl
@[simp] theorem Tx.unset_store (t : Tx s0) (k : Nat) : (t.unset k).cur.store = t.cur.store := rfl
@[simp] theorem Tx.unset_power (t : Tx s0) (k : Nat) : (t.unset k).cur.power = t.cur.power := rfl
@[simp] theorem Tx.unset_trace (t : Tx s0) (k : Nat) : (t.unset k).cur.trace = t.cur.trace := rfl
@[simp] theorem Tx.blob_pending (t : Tx s0) (k : Nat) (b : Bytes) : (t.blob k b).cur.pending = t.cur.pending := rfl
@[simp] theorem Tx.blob_now (t : Tx s0) (k : Nat) (b : Bytes) : (t.blob k b).cur.now = t.cur.now := rfl
@[simp] theorem Tx.blob_clock (t : Tx s0) (k : Nat) (b : Bytes) : (t.blob k b).cur.clock = t.cur.clock := rfl
@[simp] theorem Tx.blob_free (t : Tx s0) (k : Nat) (b : Bytes) : (t.blob k b).cur.free = t.cur.free := rfl
@[simp] theorem Tx.blob_dict (t : Tx s0) (k : Nat) (b : Bytes) : (t.blob k b).cur.dict = t.cur.dict := rfl
@[simp] theorem Tx.blob_blobs (t : Tx s0) (k : Nat) (b : Bytes) : (t.blob k b).cur.blobs = mputD (dfltBlob k) k b t.cur.blobs := rfl
@[simp] theorem Tx.blob_sets (t : Tx s0) (k : Nat) (b : Bytes) : (t.blob k b).cur.sets = t.cur.sets := rfl
@[simp] theorem Tx.blob_result (t : Tx s0) (k : Nat) (b : Bytes) : (t.blob k b).cur.result = t.cur.result := rfl
@[simp] theorem Tx.blob_outs (t : Tx s0) (k : Nat) (b : Bytes) : (t.blob k b).cur.outs = t.cur.outs := rfl
@[simp] theorem Tx.blob_msgs (t : Tx s0) (k : Nat) (b : Bytes) : (t.blob k b).cur.msgs = t.cur.msgs := rfl
@[simp] theorem Tx.blob_scene (t : Tx s0) (k : Nat) (b : Bytes) : (t.blob k b).cur.scene = t.cur.scene := rfl
@[simp] theorem Tx.blob_geo (t : Tx s0) (k : Nat) (b : Bytes) : (t.blob k b).cur.geo = t.cur.geo := rfl
@[simp] theorem Tx.blob_render (t : Tx s0) (k : Nat) (b : Bytes) : (t.blob k b).cur.render = t.cur.render := rfl
@[simp] theorem Tx.blob_corr (t : Tx s0) (k : Nat) (b : Bytes) : (t.blob k b).cur.corr = t.cur.corr := rfl
@[simp] theorem Tx.blob_maps (t : Tx s0) (k : Nat) (b : Bytes) : (t.blob k b).cur.maps = t.cur.maps := rfl
@[simp] theorem Tx.blob_engines (t : Tx s0) (k : Nat) (b : Bytes) : (t.blob k b).cur.engines = t.cur.engines := rfl
@[simp] theorem Tx.blob_serial (t : Tx s0) (k : Nat) (b : Bytes) : (t.blob k b).cur.serial = t.cur.serial := rfl
@[simp] theorem Tx.blob_net (t : Tx s0) (k : Nat) (b : Bytes) : (t.blob k b).cur.net = t.cur.net := rfl
@[simp] theorem Tx.blob_time (t : Tx s0) (k : Nat) (b : Bytes) : (t.blob k b).cur.time = t.cur.time := rfl
@[simp] theorem Tx.blob_sprk (t : Tx s0) (k : Nat) (b : Bytes) : (t.blob k b).cur.sprk = t.cur.sprk := rfl
@[simp] theorem Tx.blob_hedge (t : Tx s0) (k : Nat) (b : Bytes) : (t.blob k b).cur.hedge = t.cur.hedge := rfl
@[simp] theorem Tx.blob_meas (t : Tx s0) (k : Nat) (b : Bytes) : (t.blob k b).cur.meas = t.cur.meas := rfl
@[simp] theorem Tx.blob_pool (t : Tx s0) (k : Nat) (b : Bytes) : (t.blob k b).cur.pool = t.cur.pool := rfl
@[simp] theorem Tx.blob_mem (t : Tx s0) (k : Nat) (b : Bytes) : (t.blob k b).cur.mem = t.cur.mem := rfl
@[simp] theorem Tx.blob_ctl (t : Tx s0) (k : Nat) (b : Bytes) : (t.blob k b).cur.ctl = t.cur.ctl := rfl
@[simp] theorem Tx.blob_store (t : Tx s0) (k : Nat) (b : Bytes) : (t.blob k b).cur.store = t.cur.store := rfl
@[simp] theorem Tx.blob_power (t : Tx s0) (k : Nat) (b : Bytes) : (t.blob k b).cur.power = t.cur.power := rfl
@[simp] theorem Tx.blob_trace (t : Tx s0) (k : Nat) (b : Bytes) : (t.blob k b).cur.trace = t.cur.trace := rfl
@[simp] theorem Tx.draw_pending (t : Tx s0) : (t.draw).cur.pending = t.cur.pending := rfl
@[simp] theorem Tx.draw_now (t : Tx s0) : (t.draw).cur.now = t.cur.now := rfl
@[simp] theorem Tx.draw_clock (t : Tx s0) : (t.draw).cur.clock = t.cur.clock := rfl
@[simp] theorem Tx.draw_free (t : Tx s0) : (t.draw).cur.free = t.cur.free + 1 := rfl
@[simp] theorem Tx.draw_dict (t : Tx s0) : (t.draw).cur.dict = t.cur.dict := rfl
@[simp] theorem Tx.draw_blobs (t : Tx s0) : (t.draw).cur.blobs = t.cur.blobs := rfl
@[simp] theorem Tx.draw_sets (t : Tx s0) : (t.draw).cur.sets = t.cur.sets := rfl
@[simp] theorem Tx.draw_result (t : Tx s0) : (t.draw).cur.result = t.cur.result := rfl
@[simp] theorem Tx.draw_outs (t : Tx s0) : (t.draw).cur.outs = t.cur.outs := rfl
@[simp] theorem Tx.draw_msgs (t : Tx s0) : (t.draw).cur.msgs = t.cur.msgs := rfl
@[simp] theorem Tx.draw_scene (t : Tx s0) : (t.draw).cur.scene = t.cur.scene := rfl
@[simp] theorem Tx.draw_geo (t : Tx s0) : (t.draw).cur.geo = t.cur.geo := rfl
@[simp] theorem Tx.draw_render (t : Tx s0) : (t.draw).cur.render = t.cur.render := rfl
@[simp] theorem Tx.draw_corr (t : Tx s0) : (t.draw).cur.corr = t.cur.corr := rfl
@[simp] theorem Tx.draw_maps (t : Tx s0) : (t.draw).cur.maps = t.cur.maps := rfl
@[simp] theorem Tx.draw_engines (t : Tx s0) : (t.draw).cur.engines = t.cur.engines := rfl
@[simp] theorem Tx.draw_serial (t : Tx s0) : (t.draw).cur.serial = t.cur.serial := rfl
@[simp] theorem Tx.draw_net (t : Tx s0) : (t.draw).cur.net = t.cur.net := rfl
@[simp] theorem Tx.draw_time (t : Tx s0) : (t.draw).cur.time = t.cur.time := rfl
@[simp] theorem Tx.draw_sprk (t : Tx s0) : (t.draw).cur.sprk = t.cur.sprk := rfl
@[simp] theorem Tx.draw_hedge (t : Tx s0) : (t.draw).cur.hedge = t.cur.hedge := rfl
@[simp] theorem Tx.draw_meas (t : Tx s0) : (t.draw).cur.meas = t.cur.meas := rfl
@[simp] theorem Tx.draw_pool (t : Tx s0) : (t.draw).cur.pool = t.cur.pool := rfl
@[simp] theorem Tx.draw_mem (t : Tx s0) : (t.draw).cur.mem = t.cur.mem := rfl
@[simp] theorem Tx.draw_ctl (t : Tx s0) : (t.draw).cur.ctl = t.cur.ctl := rfl
@[simp] theorem Tx.draw_store (t : Tx s0) : (t.draw).cur.store = t.cur.store := rfl
@[simp] theorem Tx.draw_power (t : Tx s0) : (t.draw).cur.power = t.cur.power := rfl
@[simp] theorem Tx.draw_trace (t : Tx s0) : (t.draw).cur.trace = t.cur.trace := rfl
@[simp] theorem Tx.tick_pending (t : Tx s0) (n c : Nat) : (t.tick n c).cur.pending = t.cur.pending := rfl
@[simp] theorem Tx.tick_now (t : Tx s0) (n c : Nat) : (t.tick n c).cur.now = n := rfl
@[simp] theorem Tx.tick_clock (t : Tx s0) (n c : Nat) : (t.tick n c).cur.clock = c := rfl
@[simp] theorem Tx.tick_free (t : Tx s0) (n c : Nat) : (t.tick n c).cur.free = t.cur.free := rfl
@[simp] theorem Tx.tick_dict (t : Tx s0) (n c : Nat) : (t.tick n c).cur.dict = t.cur.dict := rfl
@[simp] theorem Tx.tick_blobs (t : Tx s0) (n c : Nat) : (t.tick n c).cur.blobs = t.cur.blobs := rfl
@[simp] theorem Tx.tick_sets (t : Tx s0) (n c : Nat) : (t.tick n c).cur.sets = if c = t.cur.clock then t.cur.sets else [] := rfl
@[simp] theorem Tx.tick_result (t : Tx s0) (n c : Nat) : (t.tick n c).cur.result = t.cur.result := rfl
@[simp] theorem Tx.tick_outs (t : Tx s0) (n c : Nat) : (t.tick n c).cur.outs = t.cur.outs := rfl
@[simp] theorem Tx.tick_msgs (t : Tx s0) (n c : Nat) : (t.tick n c).cur.msgs = t.cur.msgs := rfl
@[simp] theorem Tx.tick_scene (t : Tx s0) (n c : Nat) : (t.tick n c).cur.scene = t.cur.scene := rfl
@[simp] theorem Tx.tick_geo (t : Tx s0) (n c : Nat) : (t.tick n c).cur.geo = t.cur.geo := rfl
@[simp] theorem Tx.tick_render (t : Tx s0) (n c : Nat) : (t.tick n c).cur.render = t.cur.render := rfl
@[simp] theorem Tx.tick_corr (t : Tx s0) (n c : Nat) : (t.tick n c).cur.corr = t.cur.corr := rfl
@[simp] theorem Tx.tick_maps (t : Tx s0) (n c : Nat) : (t.tick n c).cur.maps = t.cur.maps := rfl
@[simp] theorem Tx.tick_engines (t : Tx s0) (n c : Nat) : (t.tick n c).cur.engines = t.cur.engines := rfl
@[simp] theorem Tx.tick_serial (t : Tx s0) (n c : Nat) : (t.tick n c).cur.serial = t.cur.serial := rfl
@[simp] theorem Tx.tick_net (t : Tx s0) (n c : Nat) : (t.tick n c).cur.net = t.cur.net := rfl
@[simp] theorem Tx.tick_time (t : Tx s0) (n c : Nat) : (t.tick n c).cur.time = t.cur.time := rfl
@[simp] theorem Tx.tick_sprk (t : Tx s0) (n c : Nat) : (t.tick n c).cur.sprk = t.cur.sprk := rfl
@[simp] theorem Tx.tick_hedge (t : Tx s0) (n c : Nat) : (t.tick n c).cur.hedge = t.cur.hedge := rfl
@[simp] theorem Tx.tick_meas (t : Tx s0) (n c : Nat) : (t.tick n c).cur.meas = t.cur.meas := rfl
@[simp] theorem Tx.tick_pool (t : Tx s0) (n c : Nat) : (t.tick n c).cur.pool = t.cur.pool := rfl
@[simp] theorem Tx.tick_mem (t : Tx s0) (n c : Nat) : (t.tick n c).cur.mem = t.cur.mem := rfl
@[simp] theorem Tx.tick_ctl (t : Tx s0) (n c : Nat) : (t.tick n c).cur.ctl = t.cur.ctl := rfl
@[simp] theorem Tx.tick_store (t : Tx s0) (n c : Nat) : (t.tick n c).cur.store = t.cur.store := rfl
@[simp] theorem Tx.tick_power (t : Tx s0) (n c : Nat) : (t.tick n c).cur.power = t.cur.power := rfl
@[simp] theorem Tx.tick_trace (t : Tx s0) (n c : Nat) : (t.tick n c).cur.trace = t.cur.trace := rfl
@[simp] theorem Tx.setSets_pending (t : Tx s0) (x : List (Nat × CycleNote)) : (t.setSets x).cur.pending = t.cur.pending := rfl
@[simp] theorem Tx.setSets_now (t : Tx s0) (x : List (Nat × CycleNote)) : (t.setSets x).cur.now = t.cur.now := rfl
@[simp] theorem Tx.setSets_clock (t : Tx s0) (x : List (Nat × CycleNote)) : (t.setSets x).cur.clock = t.cur.clock := rfl
@[simp] theorem Tx.setSets_free (t : Tx s0) (x : List (Nat × CycleNote)) : (t.setSets x).cur.free = t.cur.free := rfl
@[simp] theorem Tx.setSets_dict (t : Tx s0) (x : List (Nat × CycleNote)) : (t.setSets x).cur.dict = t.cur.dict := rfl
@[simp] theorem Tx.setSets_blobs (t : Tx s0) (x : List (Nat × CycleNote)) : (t.setSets x).cur.blobs = t.cur.blobs := rfl
@[simp] theorem Tx.setSets_sets (t : Tx s0) (x : List (Nat × CycleNote)) : (t.setSets x).cur.sets = x := rfl
@[simp] theorem Tx.setSets_result (t : Tx s0) (x : List (Nat × CycleNote)) : (t.setSets x).cur.result = t.cur.result := rfl
@[simp] theorem Tx.setSets_outs (t : Tx s0) (x : List (Nat × CycleNote)) : (t.setSets x).cur.outs = t.cur.outs := rfl
@[simp] theorem Tx.setSets_msgs (t : Tx s0) (x : List (Nat × CycleNote)) : (t.setSets x).cur.msgs = t.cur.msgs := rfl
@[simp] theorem Tx.setSets_scene (t : Tx s0) (x : List (Nat × CycleNote)) : (t.setSets x).cur.scene = t.cur.scene := rfl
@[simp] theorem Tx.setSets_geo (t : Tx s0) (x : List (Nat × CycleNote)) : (t.setSets x).cur.geo = t.cur.geo := rfl
@[simp] theorem Tx.setSets_render (t : Tx s0) (x : List (Nat × CycleNote)) : (t.setSets x).cur.render = t.cur.render := rfl
@[simp] theorem Tx.setSets_corr (t : Tx s0) (x : List (Nat × CycleNote)) : (t.setSets x).cur.corr = t.cur.corr := rfl
@[simp] theorem Tx.setSets_maps (t : Tx s0) (x : List (Nat × CycleNote)) : (t.setSets x).cur.maps = t.cur.maps := rfl
@[simp] theorem Tx.setSets_engines (t : Tx s0) (x : List (Nat × CycleNote)) : (t.setSets x).cur.engines = t.cur.engines := rfl
@[simp] theorem Tx.setSets_serial (t : Tx s0) (x : List (Nat × CycleNote)) : (t.setSets x).cur.serial = t.cur.serial := rfl
@[simp] theorem Tx.setSets_net (t : Tx s0) (x : List (Nat × CycleNote)) : (t.setSets x).cur.net = t.cur.net := rfl
@[simp] theorem Tx.setSets_time (t : Tx s0) (x : List (Nat × CycleNote)) : (t.setSets x).cur.time = t.cur.time := rfl
@[simp] theorem Tx.setSets_sprk (t : Tx s0) (x : List (Nat × CycleNote)) : (t.setSets x).cur.sprk = t.cur.sprk := rfl
@[simp] theorem Tx.setSets_hedge (t : Tx s0) (x : List (Nat × CycleNote)) : (t.setSets x).cur.hedge = t.cur.hedge := rfl
@[simp] theorem Tx.setSets_meas (t : Tx s0) (x : List (Nat × CycleNote)) : (t.setSets x).cur.meas = t.cur.meas := rfl
@[simp] theorem Tx.setSets_pool (t : Tx s0) (x : List (Nat × CycleNote)) : (t.setSets x).cur.pool = t.cur.pool := rfl
@[simp] theorem Tx.setSets_mem (t : Tx s0) (x : List (Nat × CycleNote)) : (t.setSets x).cur.mem = t.cur.mem := rfl
@[simp] theorem Tx.setSets_ctl (t : Tx s0) (x : List (Nat × CycleNote)) : (t.setSets x).cur.ctl = t.cur.ctl := rfl
@[simp] theorem Tx.setSets_store (t : Tx s0) (x : List (Nat × CycleNote)) : (t.setSets x).cur.store = t.cur.store := rfl
@[simp] theorem Tx.setSets_power (t : Tx s0) (x : List (Nat × CycleNote)) : (t.setSets x).cur.power = t.cur.power := rfl
@[simp] theorem Tx.setSets_trace (t : Tx s0) (x : List (Nat × CycleNote)) : (t.setSets x).cur.trace = t.cur.trace := rfl
@[simp] theorem Tx.setResult_pending (t : Tx s0) (x : Result) : (t.setResult x).cur.pending = t.cur.pending := rfl
@[simp] theorem Tx.setResult_now (t : Tx s0) (x : Result) : (t.setResult x).cur.now = t.cur.now := rfl
@[simp] theorem Tx.setResult_clock (t : Tx s0) (x : Result) : (t.setResult x).cur.clock = t.cur.clock := rfl
@[simp] theorem Tx.setResult_free (t : Tx s0) (x : Result) : (t.setResult x).cur.free = t.cur.free := rfl
@[simp] theorem Tx.setResult_dict (t : Tx s0) (x : Result) : (t.setResult x).cur.dict = t.cur.dict := rfl
@[simp] theorem Tx.setResult_blobs (t : Tx s0) (x : Result) : (t.setResult x).cur.blobs = t.cur.blobs := rfl
@[simp] theorem Tx.setResult_sets (t : Tx s0) (x : Result) : (t.setResult x).cur.sets = t.cur.sets := rfl
@[simp] theorem Tx.setResult_result (t : Tx s0) (x : Result) : (t.setResult x).cur.result = x := rfl
@[simp] theorem Tx.setResult_outs (t : Tx s0) (x : Result) : (t.setResult x).cur.outs = t.cur.outs := rfl
@[simp] theorem Tx.setResult_msgs (t : Tx s0) (x : Result) : (t.setResult x).cur.msgs = t.cur.msgs := rfl
@[simp] theorem Tx.setResult_scene (t : Tx s0) (x : Result) : (t.setResult x).cur.scene = t.cur.scene := rfl
@[simp] theorem Tx.setResult_geo (t : Tx s0) (x : Result) : (t.setResult x).cur.geo = t.cur.geo := rfl
@[simp] theorem Tx.setResult_render (t : Tx s0) (x : Result) : (t.setResult x).cur.render = t.cur.render := rfl
@[simp] theorem Tx.setResult_corr (t : Tx s0) (x : Result) : (t.setResult x).cur.corr = t.cur.corr := rfl
@[simp] theorem Tx.setResult_maps (t : Tx s0) (x : Result) : (t.setResult x).cur.maps = t.cur.maps := rfl
@[simp] theorem Tx.setResult_engines (t : Tx s0) (x : Result) : (t.setResult x).cur.engines = t.cur.engines := rfl
@[simp] theorem Tx.setResult_serial (t : Tx s0) (x : Result) : (t.setResult x).cur.serial = t.cur.serial := rfl
@[simp] theorem Tx.setResult_net (t : Tx s0) (x : Result) : (t.setResult x).cur.net = t.cur.net := rfl
@[simp] theorem Tx.setResult_time (t : Tx s0) (x : Result) : (t.setResult x).cur.time = t.cur.time := rfl
@[simp] theorem Tx.setResult_sprk (t : Tx s0) (x : Result) : (t.setResult x).cur.sprk = t.cur.sprk := rfl
@[simp] theorem Tx.setResult_hedge (t : Tx s0) (x : Result) : (t.setResult x).cur.hedge = t.cur.hedge := rfl
@[simp] theorem Tx.setResult_meas (t : Tx s0) (x : Result) : (t.setResult x).cur.meas = t.cur.meas := rfl
@[simp] theorem Tx.setResult_pool (t : Tx s0) (x : Result) : (t.setResult x).cur.pool = t.cur.pool := rfl
@[simp] theorem Tx.setResult_mem (t : Tx s0) (x : Result) : (t.setResult x).cur.mem = t.cur.mem := rfl
@[simp] theorem Tx.setResult_ctl (t : Tx s0) (x : Result) : (t.setResult x).cur.ctl = t.cur.ctl := rfl
@[simp] theorem Tx.setResult_store (t : Tx s0) (x : Result) : (t.setResult x).cur.store = t.cur.store := rfl
@[simp] theorem Tx.setResult_power (t : Tx s0) (x : Result) : (t.setResult x).cur.power = t.cur.power := rfl
@[simp] theorem Tx.setResult_trace (t : Tx s0) (x : Result) : (t.setResult x).cur.trace = t.cur.trace := rfl
@[simp] theorem Tx.setOuts_pending (t : Tx s0) (x : List Out) : (t.setOuts x).cur.pending = t.cur.pending := rfl
@[simp] theorem Tx.setOuts_now (t : Tx s0) (x : List Out) : (t.setOuts x).cur.now = t.cur.now := rfl
@[simp] theorem Tx.setOuts_clock (t : Tx s0) (x : List Out) : (t.setOuts x).cur.clock = t.cur.clock := rfl
@[simp] theorem Tx.setOuts_free (t : Tx s0) (x : List Out) : (t.setOuts x).cur.free = t.cur.free := rfl
@[simp] theorem Tx.setOuts_dict (t : Tx s0) (x : List Out) : (t.setOuts x).cur.dict = t.cur.dict := rfl
@[simp] theorem Tx.setOuts_blobs (t : Tx s0) (x : List Out) : (t.setOuts x).cur.blobs = t.cur.blobs := rfl
@[simp] theorem Tx.setOuts_sets (t : Tx s0) (x : List Out) : (t.setOuts x).cur.sets = t.cur.sets := rfl
@[simp] theorem Tx.setOuts_result (t : Tx s0) (x : List Out) : (t.setOuts x).cur.result = t.cur.result := rfl
@[simp] theorem Tx.setOuts_outs (t : Tx s0) (x : List Out) : (t.setOuts x).cur.outs = x := rfl
@[simp] theorem Tx.setOuts_msgs (t : Tx s0) (x : List Out) : (t.setOuts x).cur.msgs = t.cur.msgs := rfl
@[simp] theorem Tx.setOuts_scene (t : Tx s0) (x : List Out) : (t.setOuts x).cur.scene = t.cur.scene := rfl
@[simp] theorem Tx.setOuts_geo (t : Tx s0) (x : List Out) : (t.setOuts x).cur.geo = t.cur.geo := rfl
@[simp] theorem Tx.setOuts_render (t : Tx s0) (x : List Out) : (t.setOuts x).cur.render = t.cur.render := rfl
@[simp] theorem Tx.setOuts_corr (t : Tx s0) (x : List Out) : (t.setOuts x).cur.corr = t.cur.corr := rfl
@[simp] theorem Tx.setOuts_maps (t : Tx s0) (x : List Out) : (t.setOuts x).cur.maps = t.cur.maps := rfl
@[simp] theorem Tx.setOuts_engines (t : Tx s0) (x : List Out) : (t.setOuts x).cur.engines = t.cur.engines := rfl
@[simp] theorem Tx.setOuts_serial (t : Tx s0) (x : List Out) : (t.setOuts x).cur.serial = t.cur.serial := rfl
@[simp] theorem Tx.setOuts_net (t : Tx s0) (x : List Out) : (t.setOuts x).cur.net = t.cur.net := rfl
@[simp] theorem Tx.setOuts_time (t : Tx s0) (x : List Out) : (t.setOuts x).cur.time = t.cur.time := rfl
@[simp] theorem Tx.setOuts_sprk (t : Tx s0) (x : List Out) : (t.setOuts x).cur.sprk = t.cur.sprk := rfl
@[simp] theorem Tx.setOuts_hedge (t : Tx s0) (x : List Out) : (t.setOuts x).cur.hedge = t.cur.hedge := rfl
@[simp] theorem Tx.setOuts_meas (t : Tx s0) (x : List Out) : (t.setOuts x).cur.meas = t.cur.meas := rfl
@[simp] theorem Tx.setOuts_pool (t : Tx s0) (x : List Out) : (t.setOuts x).cur.pool = t.cur.pool := rfl
@[simp] theorem Tx.setOuts_mem (t : Tx s0) (x : List Out) : (t.setOuts x).cur.mem = t.cur.mem := rfl
@[simp] theorem Tx.setOuts_ctl (t : Tx s0) (x : List Out) : (t.setOuts x).cur.ctl = t.cur.ctl := rfl
@[simp] theorem Tx.setOuts_store (t : Tx s0) (x : List Out) : (t.setOuts x).cur.store = t.cur.store := rfl
@[simp] theorem Tx.setOuts_power (t : Tx s0) (x : List Out) : (t.setOuts x).cur.power = t.cur.power := rfl
@[simp] theorem Tx.setOuts_trace (t : Tx s0) (x : List Out) : (t.setOuts x).cur.trace = t.cur.trace := rfl
@[simp] theorem Tx.setMsgs_pending (t : Tx s0) (x : List TraceEv) : (t.setMsgs x).cur.pending = t.cur.pending := rfl
@[simp] theorem Tx.setMsgs_now (t : Tx s0) (x : List TraceEv) : (t.setMsgs x).cur.now = t.cur.now := rfl
@[simp] theorem Tx.setMsgs_clock (t : Tx s0) (x : List TraceEv) : (t.setMsgs x).cur.clock = t.cur.clock := rfl
@[simp] theorem Tx.setMsgs_free (t : Tx s0) (x : List TraceEv) : (t.setMsgs x).cur.free = t.cur.free := rfl
@[simp] theorem Tx.setMsgs_dict (t : Tx s0) (x : List TraceEv) : (t.setMsgs x).cur.dict = t.cur.dict := rfl
@[simp] theorem Tx.setMsgs_blobs (t : Tx s0) (x : List TraceEv) : (t.setMsgs x).cur.blobs = t.cur.blobs := rfl
@[simp] theorem Tx.setMsgs_sets (t : Tx s0) (x : List TraceEv) : (t.setMsgs x).cur.sets = t.cur.sets := rfl
@[simp] theorem Tx.setMsgs_result (t : Tx s0) (x : List TraceEv) : (t.setMsgs x).cur.result = t.cur.result := rfl
@[simp] theorem Tx.setMsgs_outs (t : Tx s0) (x : List TraceEv) : (t.setMsgs x).cur.outs = t.cur.outs := rfl
@[simp] theorem Tx.setMsgs_msgs (t : Tx s0) (x : List TraceEv) : (t.setMsgs x).cur.msgs = x := rfl
@[simp] theorem Tx.setMsgs_scene (t : Tx s0) (x : List TraceEv) : (t.setMsgs x).cur.scene = t.cur.scene := rfl
@[simp] theorem Tx.setMsgs_geo (t : Tx s0) (x : List TraceEv) : (t.setMsgs x).cur.geo = t.cur.geo := rfl
@[simp] theorem Tx.setMsgs_render (t : Tx s0) (x : List TraceEv) : (t.setMsgs x).cur.render = t.cur.render := rfl
@[simp] theorem Tx.setMsgs_corr (t : Tx s0) (x : List TraceEv) : (t.setMsgs x).cur.corr = t.cur.corr := rfl
@[simp] theorem Tx.setMsgs_maps (t : Tx s0) (x : List TraceEv) : (t.setMsgs x).cur.maps = t.cur.maps := rfl
@[simp] theorem Tx.setMsgs_engines (t : Tx s0) (x : List TraceEv) : (t.setMsgs x).cur.engines = t.cur.engines := rfl
@[simp] theorem Tx.setMsgs_serial (t : Tx s0) (x : List TraceEv) : (t.setMsgs x).cur.serial = t.cur.serial := rfl
@[simp] theorem Tx.setMsgs_net (t : Tx s0) (x : List TraceEv) : (t.setMsgs x).cur.net = t.cur.net := rfl
@[simp] theorem Tx.setMsgs_time (t : Tx s0) (x : List TraceEv) : (t.setMsgs x).cur.time = t.cur.time := rfl
@[simp] theorem Tx.setMsgs_sprk (t : Tx s0) (x : List TraceEv) : (t.setMsgs x).cur.sprk = t.cur.sprk := rfl
@[simp] theorem Tx.setMsgs_hedge (t : Tx s0) (x : List TraceEv) : (t.setMsgs x).cur.hedge = t.cur.hedge := rfl
@[simp] theorem Tx.setMsgs_meas (t : Tx s0) (x : List TraceEv) : (t.setMsgs x).cur.meas = t.cur.meas := rfl
@[simp] theorem Tx.setMsgs_pool (t : Tx s0) (x : List TraceEv) : (t.setMsgs x).cur.pool = t.cur.pool := rfl
@[simp] theorem Tx.setMsgs_mem (t : Tx s0) (x : List TraceEv) : (t.setMsgs x).cur.mem = t.cur.mem := rfl
@[simp] theorem Tx.setMsgs_ctl (t : Tx s0) (x : List TraceEv) : (t.setMsgs x).cur.ctl = t.cur.ctl := rfl
@[simp] theorem Tx.setMsgs_store (t : Tx s0) (x : List TraceEv) : (t.setMsgs x).cur.store = t.cur.store := rfl
@[simp] theorem Tx.setMsgs_power (t : Tx s0) (x : List TraceEv) : (t.setMsgs x).cur.power = t.cur.power := rfl
@[simp] theorem Tx.setMsgs_trace (t : Tx s0) (x : List TraceEv) : (t.setMsgs x).cur.trace = t.cur.trace := rfl
@[simp] theorem Tx.setScene_pending (t : Tx s0) (x : Scene) : (t.setScene x).cur.pending = t.cur.pending := rfl
@[simp] theorem Tx.setScene_now (t : Tx s0) (x : Scene) : (t.setScene x).cur.now = t.cur.now := rfl
@[simp] theorem Tx.setScene_clock (t : Tx s0) (x : Scene) : (t.setScene x).cur.clock = t.cur.clock := rfl
@[simp] theorem Tx.setScene_free (t : Tx s0) (x : Scene) : (t.setScene x).cur.free = t.cur.free := rfl
@[simp] theorem Tx.setScene_dict (t : Tx s0) (x : Scene) : (t.setScene x).cur.dict = t.cur.dict := rfl
@[simp] theorem Tx.setScene_blobs (t : Tx s0) (x : Scene) : (t.setScene x).cur.blobs = t.cur.blobs := rfl
@[simp] theorem Tx.setScene_sets (t : Tx s0) (x : Scene) : (t.setScene x).cur.sets = t.cur.sets := rfl
@[simp] theorem Tx.setScene_result (t : Tx s0) (x : Scene) : (t.setScene x).cur.result = t.cur.result := rfl
@[simp] theorem Tx.setScene_outs (t : Tx s0) (x : Scene) : (t.setScene x).cur.outs = t.cur.outs := rfl
@[simp] theorem Tx.setScene_msgs (t : Tx s0) (x : Scene) : (t.setScene x).cur.msgs = t.cur.msgs := rfl
@[simp] theorem Tx.setScene_scene (t : Tx s0) (x : Scene) : (t.setScene x).cur.scene = x := rfl
@[simp] theorem Tx.setScene_geo (t : Tx s0) (x : Scene) : (t.setScene x).cur.geo = t.cur.geo := rfl
@[simp] theorem Tx.setScene_render (t : Tx s0) (x : Scene) : (t.setScene x).cur.render = t.cur.render := rfl
@[simp] theorem Tx.setScene_corr (t : Tx s0) (x : Scene) : (t.setScene x).cur.corr = t.cur.corr := rfl
@[simp] theorem Tx.setScene_maps (t : Tx s0) (x : Scene) : (t.setScene x).cur.maps = t.cur.maps := rfl
@[simp] theorem Tx.setScene_engines (t : Tx s0) (x : Scene) : (t.setScene x).cur.engines = t.cur.engines := rfl
@[simp] theorem Tx.setScene_serial (t : Tx s0) (x : Scene) : (t.setScene x).cur.serial = t.cur.serial := rfl
@[simp] theorem Tx.setScene_net (t : Tx s0) (x : Scene) : (t.setScene x).cur.net = t.cur.net := rfl
@[simp] theorem Tx.setScene_time (t : Tx s0) (x : Scene) : (t.setScene x).cur.time = t.cur.time := rfl
@[simp] theorem Tx.setScene_sprk (t : Tx s0) (x : Scene) : (t.setScene x).cur.sprk = t.cur.sprk := rfl
@[simp] theorem Tx.setScene_hedge (t : Tx s0) (x : Scene) : (t.setScene x).cur.hedge = t.cur.hedge := rfl
@[simp] theorem Tx.setScene_meas (t : Tx s0) (x : Scene) : (t.setScene x).cur.meas = t.cur.meas := rfl
@[simp] theorem Tx.setScene_pool (t : Tx s0) (x : Scene) : (t.setScene x).cur.pool = t.cur.pool := rfl
@[simp] theorem Tx.setScene_mem (t : Tx s0) (x : Scene) : (t.setScene x).cur.mem = t.cur.mem := rfl
@[simp] theorem Tx.setScene_ctl (t : Tx s0) (x : Scene) : (t.setScene x).cur.ctl = t.cur.ctl := rfl
@[simp] theorem Tx.setScene_store (t : Tx s0) (x : Scene) : (t.setScene x).cur.store = t.cur.store := rfl
@[simp] theorem Tx.setScene_power (t : Tx s0) (x : Scene) : (t.setScene x).cur.power = t.cur.power := rfl
@[simp] theorem Tx.setScene_trace (t : Tx s0) (x : Scene) : (t.setScene x).cur.trace = t.cur.trace := rfl
@[simp] theorem Tx.setGeo_pending (t : Tx s0) (x : Geo) : (t.setGeo x).cur.pending = t.cur.pending := rfl
@[simp] theorem Tx.setGeo_now (t : Tx s0) (x : Geo) : (t.setGeo x).cur.now = t.cur.now := rfl
@[simp] theorem Tx.setGeo_clock (t : Tx s0) (x : Geo) : (t.setGeo x).cur.clock = t.cur.clock := rfl
@[simp] theorem Tx.setGeo_free (t : Tx s0) (x : Geo) : (t.setGeo x).cur.free = t.cur.free := rfl
@[simp] theorem Tx.setGeo_dict (t : Tx s0) (x : Geo) : (t.setGeo x).cur.dict = t.cur.dict := rfl
@[simp] theorem Tx.setGeo_blobs (t : Tx s0) (x : Geo) : (t.setGeo x).cur.blobs = t.cur.blobs := rfl
@[simp] theorem Tx.setGeo_sets (t : Tx s0) (x : Geo) : (t.setGeo x).cur.sets = t.cur.sets := rfl
@[simp] theorem Tx.setGeo_result (t : Tx s0) (x : Geo) : (t.setGeo x).cur.result = t.cur.result := rfl
@[simp] theorem Tx.setGeo_outs (t : Tx s0) (x : Geo) : (t.setGeo x).cur.outs = t.cur.outs := rfl
@[simp] theorem Tx.setGeo_msgs (t : Tx s0) (x : Geo) : (t.setGeo x).cur.msgs = t.cur.msgs := rfl
@[simp] theorem Tx.setGeo_scene (t : Tx s0) (x : Geo) : (t.setGeo x).cur.scene = t.cur.scene := rfl
@[simp] theorem Tx.setGeo_geo (t : Tx s0) (x : Geo) : (t.setGeo x).cur.geo = x := rfl
@[simp] theorem Tx.setGeo_render (t : Tx s0) (x : Geo) : (t.setGeo x).cur.render = t.cur.render := rfl
@[simp] theorem Tx.setGeo_corr (t : Tx s0) (x : Geo) : (t.setGeo x).cur.corr = t.cur.corr := rfl
@[simp] theorem Tx.setGeo_maps (t : Tx s0) (x : Geo) : (t.setGeo x).cur.maps = t.cur.maps := rfl
@[simp] theorem Tx.setGeo_engines (t : Tx s0) (x : Geo) : (t.setGeo x).cur.engines = t.cur.engines := rfl
@[simp] theorem Tx.setGeo_serial (t : Tx s0) (x : Geo) : (t.setGeo x).cur.serial = t.cur.serial := rfl
@[simp] theorem Tx.setGeo_net (t : Tx s0) (x : Geo) : (t.setGeo x).cur.net = t.cur.net := rfl
@[simp] theorem Tx.setGeo_time (t : Tx s0) (x : Geo) : (t.setGeo x).cur.time = t.cur.time := rfl
@[simp] theorem Tx.setGeo_sprk (t : Tx s0) (x : Geo) : (t.setGeo x).cur.sprk = t.cur.sprk := rfl
@[simp] theorem Tx.setGeo_hedge (t : Tx s0) (x : Geo) : (t.setGeo x).cur.hedge = t.cur.hedge := rfl
@[simp] theorem Tx.setGeo_meas (t : Tx s0) (x : Geo) : (t.setGeo x).cur.meas = t.cur.meas := rfl
@[simp] theorem Tx.setGeo_pool (t : Tx s0) (x : Geo) : (t.setGeo x).cur.pool = t.cur.pool := rfl
@[simp] theorem Tx.setGeo_mem (t : Tx s0) (x : Geo) : (t.setGeo x).cur.mem = t.cur.mem := rfl
@[simp] theorem Tx.setGeo_ctl (t : Tx s0) (x : Geo) : (t.setGeo x).cur.ctl = t.cur.ctl := rfl
@[simp] theorem Tx.setGeo_store (t : Tx s0) (x : Geo) : (t.setGeo x).cur.store = t.cur.store := rfl
@[simp] theorem Tx.setGeo_power (t : Tx s0) (x : Geo) : (t.setGeo x).cur.power = t.cur.power := rfl
@[simp] theorem Tx.setGeo_trace (t : Tx s0) (x : Geo) : (t.setGeo x).cur.trace = t.cur.trace := rfl
@[simp] theorem Tx.setRender_pending (t : Tx s0) (x : Render) : (t.setRender x).cur.pending = t.cur.pending := rfl
@[simp] theorem Tx.setRender_now (t : Tx s0) (x : Render) : (t.setRender x).cur.now = t.cur.now := rfl
@[simp] theorem Tx.setRender_clock (t : Tx s0) (x : Render) : (t.setRender x).cur.clock = t.cur.clock := rfl
@[simp] theorem Tx.setRender_free (t : Tx s0) (x : Render) : (t.setRender x).cur.free = t.cur.free := rfl
@[simp] theorem Tx.setRender_dict (t : Tx s0) (x : Render) : (t.setRender x).cur.dict = t.cur.dict := rfl
@[simp] theorem Tx.setRender_blobs (t : Tx s0) (x : Render) : (t.setRender x).cur.blobs = t.cur.blobs := rfl
@[simp] theorem Tx.setRender_sets (t : Tx s0) (x : Render) : (t.setRender x).cur.sets = t.cur.sets := rfl
@[simp] theorem Tx.setRender_result (t : Tx s0) (x : Render) : (t.setRender x).cur.result = t.cur.result := rfl
@[simp] theorem Tx.setRender_outs (t : Tx s0) (x : Render) : (t.setRender x).cur.outs = t.cur.outs := rfl
@[simp] theorem Tx.setRender_msgs (t : Tx s0) (x : Render) : (t.setRender x).cur.msgs = t.cur.msgs := rfl
@[simp] theorem Tx.setRender_scene (t : Tx s0) (x : Render) : (t.setRender x).cur.scene = t.cur.scene := rfl
@[simp] theorem Tx.setRender_geo (t : Tx s0) (x : Render) : (t.setRender x).cur.geo = t.cur.geo := rfl
@[simp] theorem Tx.setRender_render (t : Tx s0) (x : Render) : (t.setRender x).cur.render = x := rfl
@[simp] theorem Tx.setRender_corr (t : Tx s0) (x : Render) : (t.setRender x).cur.corr = t.cur.corr := rfl
@[simp] theorem Tx.setRender_maps (t : Tx s0) (x : Render) : (t.setRender x).cur.maps = t.cur.maps := rfl
@[simp] theorem Tx.setRender_engines (t : Tx s0) (x : Render) : (t.setRender x).cur.engines = t.cur.engines := rfl
@[simp] theorem Tx.setRender_serial (t : Tx s0) (x : Render) : (t.setRender x).cur.serial = t.cur.serial := rfl
@[simp] theorem Tx.setRender_net (t : Tx s0) (x : Render) : (t.setRender x).cur.net = t.cur.net := rfl
@[simp] theorem Tx.setRender_time (t : Tx s0) (x : Render) : (t.setRender x).cur.time = t.cur.time := rfl
@[simp] theorem Tx.setRender_sprk (t : Tx s0) (x : Render) : (t.setRender x).cur.sprk = t.cur.sprk := rfl
@[simp] theorem Tx.setRender_hedge (t : Tx s0) (x : Render) : (t.setRender x).cur.hedge = t.cur.hedge := rfl
@[simp] theorem Tx.setRender_meas (t : Tx s0) (x : Render) : (t.setRender x).cur.meas = t.cur.meas := rfl
@[simp] theorem Tx.setRender_pool (t : Tx s0) (x : Render) : (t.setRender x).cur.pool = t.cur.pool := rfl
@[simp] theorem Tx.setRender_mem (t : Tx s0) (x : Render) : (t.setRender x).cur.mem = t.cur.mem := rfl
@[simp] theorem Tx.setRender_ctl (t : Tx s0) (x : Render) : (t.setRender x).cur.ctl = t.cur.ctl := rfl
@[simp] theorem Tx.setRender_store (t : Tx s0) (x : Render) : (t.setRender x).cur.store = t.cur.store := rfl
@[simp] theorem Tx.setRender_power (t : Tx s0) (x : Render) : (t.setRender x).cur.power = t.cur.power := rfl
@[simp] theorem Tx.setRender_trace (t : Tx s0) (x : Render) : (t.setRender x).cur.trace = t.cur.trace := rfl
@[simp] theorem Tx.setCorr_pending (t : Tx s0) (x : Corr) : (t.setCorr x).cur.pending = t.cur.pending := rfl
@[simp] theorem Tx.setCorr_now (t : Tx s0) (x : Corr) : (t.setCorr x).cur.now = t.cur.now := rfl
@[simp] theorem Tx.setCorr_clock (t : Tx s0) (x : Corr) : (t.setCorr x).cur.clock = t.cur.clock := rfl
@[simp] theorem Tx.setCorr_free (t : Tx s0) (x : Corr) : (t.setCorr x).cur.free = t.cur.free := rfl
@[simp] theorem Tx.setCorr_dict (t : Tx s0) (x : Corr) : (t.setCorr x).cur.dict = t.cur.dict := rfl
@[simp] theorem Tx.setCorr_blobs (t : Tx s0) (x : Corr) : (t.setCorr x).cur.blobs = t.cur.blobs := rfl
@[simp] theorem Tx.setCorr_sets (t : Tx s0) (x : Corr) : (t.setCorr x).cur.sets = t.cur.sets := rfl
@[simp] theorem Tx.setCorr_result (t : Tx s0) (x : Corr) : (t.setCorr x).cur.result = t.cur.result := rfl
@[simp] theorem Tx.setCorr_outs (t : Tx s0) (x : Corr) : (t.setCorr x).cur.outs = t.cur.outs := rfl
@[simp] theorem Tx.setCorr_msgs (t : Tx s0) (x : Corr) : (t.setCorr x).cur.msgs = t.cur.msgs := rfl
@[simp] theorem Tx.setCorr_scene (t : Tx s0) (x : Corr) : (t.setCorr x).cur.scene = t.cur.scene := rfl
@[simp] theorem Tx.setCorr_geo (t : Tx s0) (x : Corr) : (t.setCorr x).cur.geo = t.cur.geo := rfl
@[simp] theorem Tx.setCorr_render (t : Tx s0) (x : Corr) : (t.setCorr x).cur.render = t.cur.render := rfl
@[simp] theorem Tx.setCorr_corr (t : Tx s0) (x : Corr) : (t.setCorr x).cur.corr = x := rfl
@[simp] theorem Tx.setCorr_maps (t : Tx s0) (x : Corr) : (t.setCorr x).cur.maps = t.cur.maps := rfl
@[simp] theorem Tx.setCorr_engines (t : Tx s0) (x : Corr) : (t.setCorr x).cur.engines = t.cur.engines := rfl
@[simp] theorem Tx.setCorr_serial (t : Tx s0) (x : Corr) : (t.setCorr x).cur.serial = t.cur.serial := rfl
@[simp] theorem Tx.setCorr_net (t : Tx s0) (x : Corr) : (t.setCorr x).cur.net = t.cur.net := rfl
@[simp] theorem Tx.setCorr_time (t : Tx s0) (x : Corr) : (t.setCorr x).cur.time = t.cur.time := rfl
@[simp] theorem Tx.setCorr_sprk (t : Tx s0) (x : Corr) : (t.setCorr x).cur.sprk = t.cur.sprk := rfl
@[simp] theorem Tx.setCorr_hedge (t : Tx s0) (x : Corr) : (t.setCorr x).cur.hedge = t.cur.hedge := rfl
@[simp] theorem Tx.setCorr_meas (t : Tx s0) (x : Corr) : (t.setCorr x).cur.meas = t.cur.meas := rfl
@[simp] theorem Tx.setCorr_pool (t : Tx s0) (x : Corr) : (t.setCorr x).cur.pool = t.cur.pool := rfl
@[simp] theorem Tx.setCorr_mem (t : Tx s0) (x : Corr) : (t.setCorr x).cur.mem = t.cur.mem := rfl
@[simp] theorem Tx.setCorr_ctl (t : Tx s0) (x : Corr) : (t.setCorr x).cur.ctl = t.cur.ctl := rfl
@[simp] theorem Tx.setCorr_store (t : Tx s0) (x : Corr) : (t.setCorr x).cur.store = t.cur.store := rfl
@[simp] theorem Tx.setCorr_power (t : Tx s0) (x : Corr) : (t.setCorr x).cur.power = t.cur.power := rfl
@[simp] theorem Tx.setCorr_trace (t : Tx s0) (x : Corr) : (t.setCorr x).cur.trace = t.cur.trace := rfl
@[simp] theorem Tx.setMaps_pending (t : Tx s0) (x : Maps) : (t.setMaps x).cur.pending = t.cur.pending := rfl
@[simp] theorem Tx.setMaps_now (t : Tx s0) (x : Maps) : (t.setMaps x).cur.now = t.cur.now := rfl
@[simp] theorem Tx.setMaps_clock (t : Tx s0) (x : Maps) : (t.setMaps x).cur.clock = t.cur.clock := rfl
@[simp] theorem Tx.setMaps_free (t : Tx s0) (x : Maps) : (t.setMaps x).cur.free = t.cur.free := rfl
@[simp] theorem Tx.setMaps_dict (t : Tx s0) (x : Maps) : (t.setMaps x).cur.dict = t.cur.dict := rfl
@[simp] theorem Tx.setMaps_blobs (t : Tx s0) (x : Maps) : (t.setMaps x).cur.blobs = t.cur.blobs := rfl
@[simp] theorem Tx.setMaps_sets (t : Tx s0) (x : Maps) : (t.setMaps x).cur.sets = t.cur.sets := rfl
@[simp] theorem Tx.setMaps_result (t : Tx s0) (x : Maps) : (t.setMaps x).cur.result = t.cur.result := rfl
@[simp] theorem Tx.setMaps_outs (t : Tx s0) (x : Maps) : (t.setMaps x).cur.outs = t.cur.outs := rfl
@[simp] theorem Tx.setMaps_msgs (t : Tx s0) (x : Maps) : (t.setMaps x).cur.msgs = t.cur.msgs := rfl
@[simp] theorem Tx.setMaps_scene (t : Tx s0) (x : Maps) : (t.setMaps x).cur.scene = t.cur.scene := rfl
@[simp] theorem Tx.setMaps_geo (t : Tx s0) (x : Maps) : (t.setMaps x).cur.geo = t.cur.geo := rfl
@[simp] theorem Tx.setMaps_render (t : Tx s0) (x : Maps) : (t.setMaps x).cur.render = t.cur.render := rfl
@[simp] theorem Tx.setMaps_corr (t : Tx s0) (x : Maps) : (t.setMaps x).cur.corr = t.cur.corr := rfl
@[simp] theorem Tx.setMaps_maps (t : Tx s0) (x : Maps) : (t.setMaps x).cur.maps = x := rfl
@[simp] theorem Tx.setMaps_engines (t : Tx s0) (x : Maps) : (t.setMaps x).cur.engines = t.cur.engines := rfl
@[simp] theorem Tx.setMaps_serial (t : Tx s0) (x : Maps) : (t.setMaps x).cur.serial = t.cur.serial := rfl
@[simp] theorem Tx.setMaps_net (t : Tx s0) (x : Maps) : (t.setMaps x).cur.net = t.cur.net := rfl
@[simp] theorem Tx.setMaps_time (t : Tx s0) (x : Maps) : (t.setMaps x).cur.time = t.cur.time := rfl
@[simp] theorem Tx.setMaps_sprk (t : Tx s0) (x : Maps) : (t.setMaps x).cur.sprk = t.cur.sprk := rfl
@[simp] theorem Tx.setMaps_hedge (t : Tx s0) (x : Maps) : (t.setMaps x).cur.hedge = t.cur.hedge := rfl
@[simp] theorem Tx.setMaps_meas (t : Tx s0) (x : Maps) : (t.setMaps x).cur.meas = t.cur.meas := rfl
@[simp] theorem Tx.setMaps_pool (t : Tx s0) (x : Maps) : (t.setMaps x).cur.pool = t.cur.pool := rfl
@[simp] theorem Tx.setMaps_mem (t : Tx s0) (x : Maps) : (t.setMaps x).cur.mem = t.cur.mem := rfl
@[simp] theorem Tx.setMaps_ctl (t : Tx s0) (x : Maps) : (t.setMaps x).cur.ctl = t.cur.ctl := rfl
@[simp] theorem Tx.setMaps_store (t : Tx s0) (x : Maps) : (t.setMaps x).cur.store = t.cur.store := rfl
@[simp] theorem Tx.setMaps_power (t : Tx s0) (x : Maps) : (t.setMaps x).cur.power = t.cur.power := rfl
@[simp] theorem Tx.setMaps_trace (t : Tx s0) (x : Maps) : (t.setMaps x).cur.trace = t.cur.trace := rfl
@[simp] theorem Tx.setEngines_pending (t : Tx s0) (x : Engines) : (t.setEngines x).cur.pending = t.cur.pending := rfl
@[simp] theorem Tx.setEngines_now (t : Tx s0) (x : Engines) : (t.setEngines x).cur.now = t.cur.now := rfl
@[simp] theorem Tx.setEngines_clock (t : Tx s0) (x : Engines) : (t.setEngines x).cur.clock = t.cur.clock := rfl
@[simp] theorem Tx.setEngines_free (t : Tx s0) (x : Engines) : (t.setEngines x).cur.free = t.cur.free := rfl
@[simp] theorem Tx.setEngines_dict (t : Tx s0) (x : Engines) : (t.setEngines x).cur.dict = t.cur.dict := rfl
@[simp] theorem Tx.setEngines_blobs (t : Tx s0) (x : Engines) : (t.setEngines x).cur.blobs = t.cur.blobs := rfl
@[simp] theorem Tx.setEngines_sets (t : Tx s0) (x : Engines) : (t.setEngines x).cur.sets = t.cur.sets := rfl
@[simp] theorem Tx.setEngines_result (t : Tx s0) (x : Engines) : (t.setEngines x).cur.result = t.cur.result := rfl
@[simp] theorem Tx.setEngines_outs (t : Tx s0) (x : Engines) : (t.setEngines x).cur.outs = t.cur.outs := rfl
@[simp] theorem Tx.setEngines_msgs (t : Tx s0) (x : Engines) : (t.setEngines x).cur.msgs = t.cur.msgs := rfl
@[simp] theorem Tx.setEngines_scene (t : Tx s0) (x : Engines) : (t.setEngines x).cur.scene = t.cur.scene := rfl
@[simp] theorem Tx.setEngines_geo (t : Tx s0) (x : Engines) : (t.setEngines x).cur.geo = t.cur.geo := rfl
@[simp] theorem Tx.setEngines_render (t : Tx s0) (x : Engines) : (t.setEngines x).cur.render = t.cur.render := rfl
@[simp] theorem Tx.setEngines_corr (t : Tx s0) (x : Engines) : (t.setEngines x).cur.corr = t.cur.corr := rfl
@[simp] theorem Tx.setEngines_maps (t : Tx s0) (x : Engines) : (t.setEngines x).cur.maps = t.cur.maps := rfl
@[simp] theorem Tx.setEngines_engines (t : Tx s0) (x : Engines) : (t.setEngines x).cur.engines = x := rfl
@[simp] theorem Tx.setEngines_serial (t : Tx s0) (x : Engines) : (t.setEngines x).cur.serial = t.cur.serial := rfl
@[simp] theorem Tx.setEngines_net (t : Tx s0) (x : Engines) : (t.setEngines x).cur.net = t.cur.net := rfl
@[simp] theorem Tx.setEngines_time (t : Tx s0) (x : Engines) : (t.setEngines x).cur.time = t.cur.time := rfl
@[simp] theorem Tx.setEngines_sprk (t : Tx s0) (x : Engines) : (t.setEngines x).cur.sprk = t.cur.sprk := rfl
@[simp] theorem Tx.setEngines_hedge (t : Tx s0) (x : Engines) : (t.setEngines x).cur.hedge = t.cur.hedge := rfl
@[simp] theorem Tx.setEngines_meas (t : Tx s0) (x : Engines) : (t.setEngines x).cur.meas = t.cur.meas := rfl
@[simp] theorem Tx.setEngines_pool (t : Tx s0) (x : Engines) : (t.setEngines x).cur.pool = t.cur.pool := rfl
@[simp] theorem Tx.setEngines_mem (t : Tx s0) (x : Engines) : (t.setEngines x).cur.mem = t.cur.mem := rfl
@[simp] theorem Tx.setEngines_ctl (t : Tx s0) (x : Engines) : (t.setEngines x).cur.ctl = t.cur.ctl := rfl
@[simp] theorem Tx.setEngines_store (t : Tx s0) (x : Engines) : (t.setEngines x).cur.store = t.cur.store := rfl
@[simp] theorem Tx.setEngines_power (t : Tx s0) (x : Engines) : (t.setEngines x).cur.power = t.cur.power := rfl
@[simp] theorem Tx.setEngines_trace (t : Tx s0) (x : Engines) : (t.setEngines x).cur.trace = t.cur.trace := rfl
@[simp] theorem Tx.setSerial_pending (t : Tx s0) (x : Serial) : (t.setSerial x).cur.pending = t.cur.pending := rfl
@[simp] theorem Tx.setSerial_now (t : Tx s0) (x : Serial) : (t.setSerial x).cur.now = t.cur.now := rfl
@[simp] theorem Tx.setSerial_clock (t : Tx s0) (x : Serial) : (t.setSerial x).cur.clock = t.cur.clock := rfl
@[simp] theorem Tx.setSerial_free (t : Tx s0) (x : Serial) : (t.setSerial x).cur.free = t.cur.free := rfl
@[simp] theorem Tx.setSerial_dict (t : Tx s0) (x : Serial) : (t.setSerial x).cur.dict = t.cur.dict := rfl
@[simp] theorem Tx.setSerial_blobs (t : Tx s0) (x : Serial) : (t.setSerial x).cur.blobs = t.cur.blobs := rfl
@[simp] theorem Tx.setSerial_sets (t : Tx s0) (x : Serial) : (t.setSerial x).cur.sets = t.cur.sets := rfl
@[simp] theorem Tx.setSerial_result (t : Tx s0) (x : Serial) : (t.setSerial x).cur.result = t.cur.result := rfl
@[simp] theorem Tx.setSerial_outs (t : Tx s0) (x : Serial) : (t.setSerial x).cur.outs = t.cur.outs := rfl
@[simp] theorem Tx.setSerial_msgs (t : Tx s0) (x : Serial) : (t.setSerial x).cur.msgs = t.cur.msgs := rfl
@[simp] theorem Tx.setSerial_scene (t : Tx s0) (x : Serial) : (t.setSerial x).cur.scene = t.cur.scene := rfl
@[simp] theorem Tx.setSerial_geo (t : Tx s0) (x : Serial) : (t.setSerial x).cur.geo = t.cur.geo := rfl
@[simp] theorem Tx.setSerial_render (t : Tx s0) (x : Serial) : (t.setSerial x).cur.render = t.cur.render := rfl
@[simp] theorem Tx.setSerial_corr (t : Tx s0) (x : Serial) : (t.setSerial x).cur.corr = t.cur.corr := rfl
@[simp] theorem Tx.setSerial_maps (t : Tx s0) (x : Serial) : (t.setSerial x).cur.maps = t.cur.maps := rfl
@[simp] theorem Tx.setSerial_engines (t : Tx s0) (x : Serial) : (t.setSerial x).cur.engines = t.cur.engines := rfl
@[simp] theorem Tx.setSerial_serial (t : Tx s0) (x : Serial) : (t.setSerial x).cur.serial = x := rfl
@[simp] theorem Tx.setSerial_net (t : Tx s0) (x : Serial) : (t.setSerial x).cur.net = t.cur.net := rfl
@[simp] theorem Tx.setSerial_time (t : Tx s0) (x : Serial) : (t.setSerial x).cur.time = t.cur.time := rfl
@[simp] theorem Tx.setSerial_sprk (t : Tx s0) (x : Serial) : (t.setSerial x).cur.sprk = t.cur.sprk := rfl
@[simp] theorem Tx.setSerial_hedge (t : Tx s0) (x : Serial) : (t.setSerial x).cur.hedge = t.cur.hedge := rfl
@[simp] theorem Tx.setSerial_meas (t : Tx s0) (x : Serial) : (t.setSerial x).cur.meas = t.cur.meas := rfl
@[simp] theorem Tx.setSerial_pool (t : Tx s0) (x : Serial) : (t.setSerial x).cur.pool = t.cur.pool := rfl
@[simp] theorem Tx.setSerial_mem (t : Tx s0) (x : Serial) : (t.setSerial x).cur.mem = t.cur.mem := rfl
@[simp] theorem Tx.setSerial_ctl (t : Tx s0) (x : Serial) : (t.setSerial x).cur.ctl = t.cur.ctl := rfl
@[simp] theorem Tx.setSerial_store (t : Tx s0) (x : Serial) : (t.setSerial x).cur.store = t.cur.store := rfl
@[simp] theorem Tx.setSerial_power (t : Tx s0) (x : Serial) : (t.setSerial x).cur.power = t.cur.power := rfl
@[simp] theorem Tx.setSerial_trace (t : Tx s0) (x : Serial) : (t.setSerial x).cur.trace = t.cur.trace := rfl
@[simp] theorem Tx.setNet_pending (t : Tx s0) (x : Net) : (t.setNet x).cur.pending = t.cur.pending := rfl
@[simp] theorem Tx.setNet_now (t : Tx s0) (x : Net) : (t.setNet x).cur.now = t.cur.now := rfl
@[simp] theorem Tx.setNet_clock (t : Tx s0) (x : Net) : (t.setNet x).cur.clock = t.cur.clock := rfl
@[simp] theorem Tx.setNet_free (t : Tx s0) (x : Net) : (t.setNet x).cur.free = t.cur.free := rfl
@[simp] theorem Tx.setNet_dict (t : Tx s0) (x : Net) : (t.setNet x).cur.dict = t.cur.dict := rfl
@[simp] theorem Tx.setNet_blobs (t : Tx s0) (x : Net) : (t.setNet x).cur.blobs = t.cur.blobs := rfl
@[simp] theorem Tx.setNet_sets (t : Tx s0) (x : Net) : (t.setNet x).cur.sets = t.cur.sets := rfl
@[simp] theorem Tx.setNet_result (t : Tx s0) (x : Net) : (t.setNet x).cur.result = t.cur.result := rfl
@[simp] theorem Tx.setNet_outs (t : Tx s0) (x : Net) : (t.setNet x).cur.outs = t.cur.outs := rfl
@[simp] theorem Tx.setNet_msgs (t : Tx s0) (x : Net) : (t.setNet x).cur.msgs = t.cur.msgs := rfl
@[simp] theorem Tx.setNet_scene (t : Tx s0) (x : Net) : (t.setNet x).cur.scene = t.cur.scene := rfl
@[simp] theorem Tx.setNet_geo (t : Tx s0) (x : Net) : (t.setNet x).cur.geo = t.cur.geo := rfl
@[simp] theorem Tx.setNet_render (t : Tx s0) (x : Net) : (t.setNet x).cur.render = t.cur.render := rfl
@[simp] theorem Tx.setNet_corr (t : Tx s0) (x : Net) : (t.setNet x).cur.corr = t.cur.corr := rfl
@[simp] theorem Tx.setNet_maps (t : Tx s0) (x : Net) : (t.setNet x).cur.maps = t.cur.maps := rfl
@[simp] theorem Tx.setNet_engines (t : Tx s0) (x : Net) : (t.setNet x).cur.engines = t.cur.engines := rfl
@[simp] theorem Tx.setNet_serial (t : Tx s0) (x : Net) : (t.setNet x).cur.serial = t.cur.serial := rfl
@[simp] theorem Tx.setNet_net (t : Tx s0) (x : Net) : (t.setNet x).cur.net = x := rfl
@[simp] theorem Tx.setNet_time (t : Tx s0) (x : Net) : (t.setNet x).cur.time = t.cur.time := rfl
@[simp] theorem Tx.setNet_sprk (t : Tx s0) (x : Net) : (t.setNet x).cur.sprk = t.cur.sprk := rfl
@[simp] theorem Tx.setNet_hedge (t : Tx s0) (x : Net) : (t.setNet x).cur.hedge = t.cur.hedge := rfl
@[simp] theorem Tx.setNet_meas (t : Tx s0) (x : Net) : (t.setNet x).cur.meas = t.cur.meas := rfl
@[simp] theorem Tx.setNet_pool (t : Tx s0) (x : Net) : (t.setNet x).cur.pool = t.cur.pool := rfl
@[simp] theorem Tx.setNet_mem (t : Tx s0) (x : Net) : (t.setNet x).cur.mem = t.cur.mem := rfl
@[simp] theorem Tx.setNet_ctl (t : Tx s0) (x : Net) : (t.setNet x).cur.ctl = t.cur.ctl := rfl
@[simp] theorem Tx.setNet_store (t : Tx s0) (x : Net) : (t.setNet x).cur.store = t.cur.store := rfl
@[simp] theorem Tx.setNet_power (t : Tx s0) (x : Net) : (t.setNet x).cur.power = t.cur.power := rfl
@[simp] theorem Tx.setNet_trace (t : Tx s0) (x : Net) : (t.setNet x).cur.trace = t.cur.trace := rfl
@[simp] theorem Tx.setTime_pending (t : Tx s0) (x : TimeSt) : (t.setTime x).cur.pending = t.cur.pending := rfl
@[simp] theorem Tx.setTime_now (t : Tx s0) (x : TimeSt) : (t.setTime x).cur.now = t.cur.now := rfl
@[simp] theorem Tx.setTime_clock (t : Tx s0) (x : TimeSt) : (t.setTime x).cur.clock = t.cur.clock := rfl
@[simp] theorem Tx.setTime_free (t : Tx s0) (x : TimeSt) : (t.setTime x).cur.free = t.cur.free := rfl
@[simp] theorem Tx.setTime_dict (t : Tx s0) (x : TimeSt) : (t.setTime x).cur.dict = t.cur.dict := rfl
@[simp] theorem Tx.setTime_blobs (t : Tx s0) (x : TimeSt) : (t.setTime x).cur.blobs = t.cur.blobs := rfl
@[simp] theorem Tx.setTime_sets (t : Tx s0) (x : TimeSt) : (t.setTime x).cur.sets = t.cur.sets := rfl
@[simp] theorem Tx.setTime_result (t : Tx s0) (x : TimeSt) : (t.setTime x).cur.result = t.cur.result := rfl
@[simp] theorem Tx.setTime_outs (t : Tx s0) (x : TimeSt) : (t.setTime x).cur.outs = t.cur.outs := rfl
@[simp] theorem Tx.setTime_msgs (t : Tx s0) (x : TimeSt) : (t.setTime x).cur.msgs = t.cur.msgs := rfl
@[simp] theorem Tx.setTime_scene (t : Tx s0) (x : TimeSt) : (t.setTime x).cur.scene = t.cur.scene := rfl
@[simp] theorem Tx.setTime_geo (t : Tx s0) (x : TimeSt) : (t.setTime x).cur.geo = t.cur.geo := rfl
@[simp] theorem Tx.setTime_render (t : Tx s0) (x : TimeSt) : (t.setTime x).cur.render = t.cur.render := rfl
@[simp] theorem Tx.setTime_corr (t : Tx s0) (x : TimeSt) : (t.setTime x).cur.corr = t.cur.corr := rfl
@[simp] theorem Tx.setTime_maps (t : Tx s0) (x : TimeSt) : (t.setTime x).cur.maps = t.cur.maps := rfl
@[simp] theorem Tx.setTime_engines (t : Tx s0) (x : TimeSt) : (t.setTime x).cur.engines = t.cur.engines := rfl
@[simp] theorem Tx.setTime_serial (t : Tx s0) (x : TimeSt) : (t.setTime x).cur.serial = t.cur.serial := rfl
@[simp] theorem Tx.setTime_net (t : Tx s0) (x : TimeSt) : (t.setTime x).cur.net = t.cur.net := rfl
@[simp] theorem Tx.setTime_time (t : Tx s0) (x : TimeSt) : (t.setTime x).cur.time = x := rfl
@[simp] theorem Tx.setTime_sprk (t : Tx s0) (x : TimeSt) : (t.setTime x).cur.sprk = t.cur.sprk := rfl
@[simp] theorem Tx.setTime_hedge (t : Tx s0) (x : TimeSt) : (t.setTime x).cur.hedge = t.cur.hedge := rfl
@[simp] theorem Tx.setTime_meas (t : Tx s0) (x : TimeSt) : (t.setTime x).cur.meas = t.cur.meas := rfl
@[simp] theorem Tx.setTime_pool (t : Tx s0) (x : TimeSt) : (t.setTime x).cur.pool = t.cur.pool := rfl
@[simp] theorem Tx.setTime_mem (t : Tx s0) (x : TimeSt) : (t.setTime x).cur.mem = t.cur.mem := rfl
@[simp] theorem Tx.setTime_ctl (t : Tx s0) (x : TimeSt) : (t.setTime x).cur.ctl = t.cur.ctl := rfl
@[simp] theorem Tx.setTime_store (t : Tx s0) (x : TimeSt) : (t.setTime x).cur.store = t.cur.store := rfl
@[simp] theorem Tx.setTime_power (t : Tx s0) (x : TimeSt) : (t.setTime x).cur.power = t.cur.power := rfl
@[simp] theorem Tx.setTime_trace (t : Tx s0) (x : TimeSt) : (t.setTime x).cur.trace = t.cur.trace := rfl
@[simp] theorem Tx.setSprk_pending (t : Tx s0) (x : Sprk) : (t.setSprk x).cur.pending = t.cur.pending := rfl
@[simp] theorem Tx.setSprk_now (t : Tx s0) (x : Sprk) : (t.setSprk x).cur.now = t.cur.now := rfl
@[simp] theorem Tx.setSprk_clock (t : Tx s0) (x : Sprk) : (t.setSprk x).cur.clock = t.cur.clock := rfl
@[simp] theorem Tx.setSprk_free (t : Tx s0) (x : Sprk) : (t.setSprk x).cur.free = t.cur.free := rfl
@[simp] theorem Tx.setSprk_dict (t : Tx s0) (x : Sprk) : (t.setSprk x).cur.dict = t.cur.dict := rfl
@[simp] theorem Tx.setSprk_blobs (t : Tx s0) (x : Sprk) : (t.setSprk x).cur.blobs = t.cur.blobs := rfl
@[simp] theorem Tx.setSprk_sets (t : Tx s0) (x : Sprk) : (t.setSprk x).cur.sets = t.cur.sets := rfl
@[simp] theorem Tx.setSprk_result (t : Tx s0) (x : Sprk) : (t.setSprk x).cur.result = t.cur.result := rfl
@[simp] theorem Tx.setSprk_outs (t : Tx s0) (x : Sprk) : (t.setSprk x).cur.outs = t.cur.outs := rfl
@[simp] theorem Tx.setSprk_msgs (t : Tx s0) (x : Sprk) : (t.setSprk x).cur.msgs = t.cur.msgs := rfl
@[simp] theorem Tx.setSprk_scene (t : Tx s0) (x : Sprk) : (t.setSprk x).cur.scene = t.cur.scene := rfl
@[simp] theorem Tx.setSprk_geo (t : Tx s0) (x : Sprk) : (t.setSprk x).cur.geo = t.cur.geo := rfl
@[simp] theorem Tx.setSprk_render (t : Tx s0) (x : Sprk) : (t.setSprk x).cur.render = t.cur.render := rfl
@[simp] theorem Tx.setSprk_corr (t : Tx s0) (x : Sprk) : (t.setSprk x).cur.corr = t.cur.corr := rfl
@[simp] theorem Tx.setSprk_maps (t : Tx s0) (x : Sprk) : (t.setSprk x).cur.maps = t.cur.maps := rfl
@[simp] theorem Tx.setSprk_engines (t : Tx s0) (x : Sprk) : (t.setSprk x).cur.engines = t.cur.engines := rfl
@[simp] theorem Tx.setSprk_serial (t : Tx s0) (x : Sprk) : (t.setSprk x).cur.serial = t.cur.serial := rfl
@[simp] theorem Tx.setSprk_net (t : Tx s0) (x : Sprk) : (t.setSprk x).cur.net = t.cur.net := rfl
@[simp] theorem Tx.setSprk_time (t : Tx s0) (x : Sprk) : (t.setSprk x).cur.time = t.cur.time := rfl
@[simp] theorem Tx.setSprk_sprk (t : Tx s0) (x : Sprk) : (t.setSprk x).cur.sprk = x := rfl
@[simp] theorem Tx.setSprk_hedge (t : Tx s0) (x : Sprk) : (t.setSprk x).cur.hedge = t.cur.hedge := rfl
@[simp] theorem Tx.setSprk_meas (t : Tx s0) (x : Sprk) : (t.setSprk x).cur.meas = t.cur.meas := rfl
@[simp] theorem Tx.setSprk_pool (t : Tx s0) (x : Sprk) : (t.setSprk x).cur.pool = t.cur.pool := rfl
@[simp] theorem Tx.setSprk_mem (t : Tx s0) (x : Sprk) : (t.setSprk x).cur.mem = t.cur.mem := rfl
@[simp] theorem Tx.setSprk_ctl (t : Tx s0) (x : Sprk) : (t.setSprk x).cur.ctl = t.cur.ctl := rfl
@[simp] theorem Tx.setSprk_store (t : Tx s0) (x : Sprk) : (t.setSprk x).cur.store = t.cur.store := rfl
@[simp] theorem Tx.setSprk_power (t : Tx s0) (x : Sprk) : (t.setSprk x).cur.power = t.cur.power := rfl
@[simp] theorem Tx.setSprk_trace (t : Tx s0) (x : Sprk) : (t.setSprk x).cur.trace = t.cur.trace := rfl
@[simp] theorem Tx.setHedge_pending (t : Tx s0) (x : Hedge) : (t.setHedge x).cur.pending = t.cur.pending := rfl
@[simp] theorem Tx.setHedge_now (t : Tx s0) (x : Hedge) : (t.setHedge x).cur.now = t.cur.now := rfl
@[simp] theorem Tx.setHedge_clock (t : Tx s0) (x : Hedge) : (t.setHedge x).cur.clock = t.cur.clock := rfl
@[simp] theorem Tx.setHedge_free (t : Tx s0) (x : Hedge) : (t.setHedge x).cur.free = t.cur.free := rfl
@[simp] theorem Tx.setHedge_dict (t : Tx s0) (x : Hedge) : (t.setHedge x).cur.dict = t.cur.dict := rfl
@[simp] theorem Tx.setHedge_blobs (t : Tx s0) (x : Hedge) : (t.setHedge x).cur.blobs = t.cur.blobs := rfl
@[simp] theorem Tx.setHedge_sets (t : Tx s0) (x : Hedge) : (t.setHedge x).cur.sets = t.cur.sets := rfl
@[simp] theorem Tx.setHedge_result (t : Tx s0) (x : Hedge) : (t.setHedge x).cur.result = t.cur.result := rfl
@[simp] theorem Tx.setHedge_outs (t : Tx s0) (x : Hedge) : (t.setHedge x).cur.outs = t.cur.outs := rfl
@[simp] theorem Tx.setHedge_msgs (t : Tx s0) (x : Hedge) : (t.setHedge x).cur.msgs = t.cur.msgs := rfl
@[simp] theorem Tx.setHedge_scene (t : Tx s0) (x : Hedge) : (t.setHedge x).cur.scene = t.cur.scene := rfl
@[simp] theorem Tx.setHedge_geo (t : Tx s0) (x : Hedge) : (t.setHedge x).cur.geo = t.cur.geo := rfl
@[simp] theorem Tx.setHedge_render (t : Tx s0) (x : Hedge) : (t.setHedge x).cur.render = t.cur.render := rfl
@[simp] theorem Tx.setHedge_corr (t : Tx s0) (x : Hedge) : (t.setHedge x).cur.corr = t.cur.corr := rfl
@[simp] theorem Tx.setHedge_maps (t : Tx s0) (x : Hedge) : (t.setHedge x).cur.maps = t.cur.maps := rfl
@[simp] theorem Tx.setHedge_engines (t : Tx s0) (x : Hedge) : (t.setHedge x).cur.engines = t.cur.engines := rfl
@[simp] theorem Tx.setHedge_serial (t : Tx s0) (x : Hedge) : (t.setHedge x).cur.serial = t.cur.serial := rfl
@[simp] theorem Tx.setHedge_net (t : Tx s0) (x : Hedge) : (t.setHedge x).cur.net = t.cur.net := rfl
@[simp] theorem Tx.setHedge_time (t : Tx s0) (x : Hedge) : (t.setHedge x).cur.time = t.cur.time := rfl
@[simp] theorem Tx.setHedge_sprk (t : Tx s0) (x : Hedge) : (t.setHedge x).cur.sprk = t.cur.sprk := rfl
@[simp] theorem Tx.setHedge_hedge (t : Tx s0) (x : Hedge) : (t.setHedge x).cur.hedge = x := rfl
@[simp] theorem Tx.setHedge_meas (t : Tx s0) (x : Hedge) : (t.setHedge x).cur.meas = t.cur.meas := rfl
@[simp] theorem Tx.setHedge_pool (t : Tx s0) (x : Hedge) : (t.setHedge x).cur.pool = t.cur.pool := rfl
@[simp] theorem Tx.setHedge_mem (t : Tx s0) (x : Hedge) : (t.setHedge x).cur.mem = t.cur.mem := rfl
@[simp] theorem Tx.setHedge_ctl (t : Tx s0) (x : Hedge) : (t.setHedge x).cur.ctl = t.cur.ctl := rfl
@[simp] theorem Tx.setHedge_store (t : Tx s0) (x : Hedge) : (t.setHedge x).cur.store = t.cur.store := rfl
@[simp] theorem Tx.setHedge_power (t : Tx s0) (x : Hedge) : (t.setHedge x).cur.power = t.cur.power := rfl
@[simp] theorem Tx.setHedge_trace (t : Tx s0) (x : Hedge) : (t.setHedge x).cur.trace = t.cur.trace := rfl
@[simp] theorem Tx.setMeas_pending (t : Tx s0) (x : Meas) : (t.setMeas x).cur.pending = t.cur.pending := rfl
@[simp] theorem Tx.setMeas_now (t : Tx s0) (x : Meas) : (t.setMeas x).cur.now = t.cur.now := rfl
@[simp] theorem Tx.setMeas_clock (t : Tx s0) (x : Meas) : (t.setMeas x).cur.clock = t.cur.clock := rfl
@[simp] theorem Tx.setMeas_free (t : Tx s0) (x : Meas) : (t.setMeas x).cur.free = t.cur.free := rfl
@[simp] theorem Tx.setMeas_dict (t : Tx s0) (x : Meas) : (t.setMeas x).cur.dict = t.cur.dict := rfl
@[simp] theorem Tx.setMeas_blobs (t : Tx s0) (x : Meas) : (t.setMeas x).cur.blobs = t.cur.blobs := rfl
@[simp] theorem Tx.setMeas_sets (t : Tx s0) (x : Meas) : (t.setMeas x).cur.sets = t.cur.sets := rfl
@[simp] theorem Tx.setMeas_result (t : Tx s0) (x : Meas) : (t.setMeas x).cur.result = t.cur.result := rfl
@[simp] theorem Tx.setMeas_outs (t : Tx s0) (x : Meas) : (t.setMeas x).cur.outs = t.cur.outs := rfl
@[simp] theorem Tx.setMeas_msgs (t : Tx s0) (x : Meas) : (t.setMeas x).cur.msgs = t.cur.msgs := rfl
@[simp] theorem Tx.setMeas_scene (t : Tx s0) (x : Meas) : (t.setMeas x).cur.scene = t.cur.scene := rfl
@[simp] theorem Tx.setMeas_geo (t : Tx s0) (x : Meas) : (t.setMeas x).cur.geo = t.cur.geo := rfl
@[simp] theorem Tx.setMeas_render (t : Tx s0) (x : Meas) : (t.setMeas x).cur.render = t.cur.render := rfl
@[simp] theorem Tx.setMeas_corr (t : Tx s0) (x : Meas) : (t.setMeas x).cur.corr = t.cur.corr := rfl
@[simp] theorem Tx.setMeas_maps (t : Tx s0) (x : Meas) : (t.setMeas x).cur.maps = t.cur.maps := rfl
@[simp] theorem Tx.setMeas_engines (t : Tx s0) (x : Meas) : (t.setMeas x).cur.engines = t.cur.engines := rfl
@[simp] theorem Tx.setMeas_serial (t : Tx s0) (x : Meas) : (t.setMeas x).cur.serial = t.cur.serial := rfl
@[simp] theorem Tx.setMeas_net (t : Tx s0) (x : Meas) : (t.setMeas x).cur.net = t.cur.net := rfl
@[simp] theorem Tx.setMeas_time (t : Tx s0) (x : Meas) : (t.setMeas x).cur.time = t.cur.time := rfl
@[simp] theorem Tx.setMeas_sprk (t : Tx s0) (x : Meas) : (t.setMeas x).cur.sprk = t.cur.sprk := rfl
@[simp] theorem Tx.setMeas_hedge (t : Tx s0) (x : Meas) : (t.setMeas x).cur.hedge = t.cur.hedge := rfl
@[simp] theorem Tx.setMeas_meas (t : Tx s0) (x : Meas) : (t.setMeas x).cur.meas = x := rfl
@[simp] theorem Tx.setMeas_pool (t : Tx s0) (x : Meas) : (t.setMeas x).cur.pool = t.cur.pool := rfl
@[simp] theorem Tx.setMeas_mem (t : Tx s0) (x : Meas) : (t.setMeas x).cur.mem = t.cur.mem := rfl
@[simp] theorem Tx.setMeas_ctl (t : Tx s0) (x : Meas) : (t.setMeas x).cur.ctl = t.cur.ctl := rfl
@[simp] theorem Tx.setMeas_store (t : Tx s0) (x : Meas) : (t.setMeas x).cur.store = t.cur.store := rfl
@[simp] theorem Tx.setMeas_power (t : Tx s0) (x : Meas) : (t.setMeas x).cur.power = t.cur.power := rfl
@[simp] theorem Tx.setMeas_trace (t : Tx s0) (x : Meas) : (t.setMeas x).cur.trace = t.cur.trace := rfl
@[simp] theorem Tx.setPool_pending (t : Tx s0) (x : Pool) : (t.setPool x).cur.pending = t.cur.pending := rfl
@[simp] theorem Tx.setPool_now (t : Tx s0) (x : Pool) : (t.setPool x).cur.now = t.cur.now := rfl
@[simp] theorem Tx.setPool_clock (t : Tx s0) (x : Pool) : (t.setPool x).cur.clock = t.cur.clock := rfl
@[simp] theorem Tx.setPool_free (t : Tx s0) (x : Pool) : (t.setPool x).cur.free = t.cur.free := rfl
@[simp] theorem Tx.setPool_dict (t : Tx s0) (x : Pool) : (t.setPool x).cur.dict = t.cur.dict := rfl
@[simp] theorem Tx.setPool_blobs (t : Tx s0) (x : Pool) : (t.setPool x).cur.blobs = t.cur.blobs := rfl
@[simp] theorem Tx.setPool_sets (t : Tx s0) (x : Pool) : (t.setPool x).cur.sets = t.cur.sets := rfl
@[simp] theorem Tx.setPool_result (t : Tx s0) (x : Pool) : (t.setPool x).cur.result = t.cur.result := rfl
@[simp] theorem Tx.setPool_outs (t : Tx s0) (x : Pool) : (t.setPool x).cur.outs = t.cur.outs := rfl
@[simp] theorem Tx.setPool_msgs (t : Tx s0) (x : Pool) : (t.setPool x).cur.msgs = t.cur.msgs := rfl
@[simp] theorem Tx.setPool_scene (t : Tx s0) (x : Pool) : (t.setPool x).cur.scene = t.cur.scene := rfl
@[simp] theorem Tx.setPool_geo (t : Tx s0) (x : Pool) : (t.setPool x).cur.geo = t.cur.geo := rfl
@[simp] theorem Tx.setPool_render (t : Tx s0) (x : Pool) : (t.setPool x).cur.render = t.cur.render := rfl
@[simp] theorem Tx.setPool_corr (t : Tx s0) (x : Pool) : (t.setPool x).cur.corr = t.cur.corr := rfl
@[simp] theorem Tx.setPool_maps (t : Tx s0) (x : Pool) : (t.setPool x).cur.maps = t.cur.maps := rfl
@[simp] theorem Tx.setPool_engines (t : Tx s0) (x : Pool) : (t.setPool x).cur.engines = t.cur.engines := rfl
@[simp] theorem Tx.setPool_serial (t : Tx s0) (x : Pool) : (t.setPool x).cur.serial = t.cur.serial := rfl
@[simp] theorem Tx.setPool_net (t : Tx s0) (x : Pool) : (t.setPool x).cur.net = t.cur.net := rfl
@[simp] theorem Tx.setPool_time (t : Tx s0) (x : Pool) : (t.setPool x).cur.time = t.cur.time := rfl
@[simp] theorem Tx.setPool_sprk (t : Tx s0) (x : Pool) : (t.setPool x).cur.sprk = t.cur.sprk := rfl
@[simp] theorem Tx.setPool_hedge (t : Tx s0) (x : Pool) : (t.setPool x).cur.hedge = t.cur.hedge := rfl
@[simp] theorem Tx.setPool_meas (t : Tx s0) (x : Pool) : (t.setPool x).cur.meas = t.cur.meas := rfl
@[simp] theorem Tx.setPool_pool (t : Tx s0) (x : Pool) : (t.setPool x).cur.pool = x := rfl
@[simp] theorem Tx.setPool_mem (t : Tx s0) (x : Pool) : (t.setPool x).cur.mem = t.cur.mem := rfl
@[simp] theorem Tx.setPool_ctl (t : Tx s0) (x : Pool) : (t.setPool x).cur.ctl = t.cur.ctl := rfl
@[simp] theorem Tx.setPool_store (t : Tx s0) (x : Pool) : (t.setPool x).cur.store = t.cur.store := rfl
@[simp] theorem Tx.setPool_power (t : Tx s0) (x : Pool) : (t.setPool x).cur.power = t.cur.power := rfl
@[simp] theorem Tx.setPool_trace (t : Tx s0) (x : Pool) : (t.setPool x).cur.trace = t.cur.trace := rfl
@[simp] theorem Tx.setMem_pending (t : Tx s0) (x : Mem) : (t.setMem x).cur.pending = t.cur.pending := rfl
@[simp] theorem Tx.setMem_now (t : Tx s0) (x : Mem) : (t.setMem x).cur.now = t.cur.now := rfl
@[simp] theorem Tx.setMem_clock (t : Tx s0) (x : Mem) : (t.setMem x).cur.clock = t.cur.clock := rfl
@[simp] theorem Tx.setMem_free (t : Tx s0) (x : Mem) : (t.setMem x).cur.free = t.cur.free := rfl
@[simp] theorem Tx.setMem_dict (t : Tx s0) (x : Mem) : (t.setMem x).cur.dict = t.cur.dict := rfl
@[simp] theorem Tx.setMem_blobs (t : Tx s0) (x : Mem) : (t.setMem x).cur.blobs = t.cur.blobs := rfl
@[simp] theorem Tx.setMem_sets (t : Tx s0) (x : Mem) : (t.setMem x).cur.sets = t.cur.sets := rfl
@[simp] theorem Tx.setMem_result (t : Tx s0) (x : Mem) : (t.setMem x).cur.result = t.cur.result := rfl
@[simp] theorem Tx.setMem_outs (t : Tx s0) (x : Mem) : (t.setMem x).cur.outs = t.cur.outs := rfl
@[simp] theorem Tx.setMem_msgs (t : Tx s0) (x : Mem) : (t.setMem x).cur.msgs = t.cur.msgs := rfl
@[simp] theorem Tx.setMem_scene (t : Tx s0) (x : Mem) : (t.setMem x).cur.scene = t.cur.scene := rfl
@[simp] theorem Tx.setMem_geo (t : Tx s0) (x : Mem) : (t.setMem x).cur.geo = t.cur.geo := rfl
@[simp] theorem Tx.setMem_render (t : Tx s0) (x : Mem) : (t.setMem x).cur.render = t.cur.render := rfl
@[simp] theorem Tx.setMem_corr (t : Tx s0) (x : Mem) : (t.setMem x).cur.corr = t.cur.corr := rfl
@[simp] theorem Tx.setMem_maps (t : Tx s0) (x : Mem) : (t.setMem x).cur.maps = t.cur.maps := rfl
@[simp] theorem Tx.setMem_engines (t : Tx s0) (x : Mem) : (t.setMem x).cur.engines = t.cur.engines := rfl
@[simp] theorem Tx.setMem_serial (t : Tx s0) (x : Mem) : (t.setMem x).cur.serial = t.cur.serial := rfl
@[simp] theorem Tx.setMem_net (t : Tx s0) (x : Mem) : (t.setMem x).cur.net = t.cur.net := rfl
@[simp] theorem Tx.setMem_time (t : Tx s0) (x : Mem) : (t.setMem x).cur.time = t.cur.time := rfl
@[simp] theorem Tx.setMem_sprk (t : Tx s0) (x : Mem) : (t.setMem x).cur.sprk = t.cur.sprk := rfl
@[simp] theorem Tx.setMem_hedge (t : Tx s0) (x : Mem) : (t.setMem x).cur.hedge = t.cur.hedge := rfl
@[simp] theorem Tx.setMem_meas (t : Tx s0) (x : Mem) : (t.setMem x).cur.meas = t.cur.meas := rfl
@[simp] theorem Tx.setMem_pool (t : Tx s0) (x : Mem) : (t.setMem x).cur.pool = t.cur.pool := rfl
@[simp] theorem Tx.setMem_mem (t : Tx s0) (x : Mem) : (t.setMem x).cur.mem = x := rfl
@[simp] theorem Tx.setMem_ctl (t : Tx s0) (x : Mem) : (t.setMem x).cur.ctl = t.cur.ctl := rfl
@[simp] theorem Tx.setMem_store (t : Tx s0) (x : Mem) : (t.setMem x).cur.store = t.cur.store := rfl
@[simp] theorem Tx.setMem_power (t : Tx s0) (x : Mem) : (t.setMem x).cur.power = t.cur.power := rfl
@[simp] theorem Tx.setMem_trace (t : Tx s0) (x : Mem) : (t.setMem x).cur.trace = t.cur.trace := rfl
@[simp] theorem Tx.setCtl_pending (t : Tx s0) (x : Control) : (t.setCtl x).cur.pending = t.cur.pending := rfl
@[simp] theorem Tx.setCtl_now (t : Tx s0) (x : Control) : (t.setCtl x).cur.now = t.cur.now := rfl
@[simp] theorem Tx.setCtl_clock (t : Tx s0) (x : Control) : (t.setCtl x).cur.clock = t.cur.clock := rfl
@[simp] theorem Tx.setCtl_free (t : Tx s0) (x : Control) : (t.setCtl x).cur.free = t.cur.free := rfl
@[simp] theorem Tx.setCtl_dict (t : Tx s0) (x : Control) : (t.setCtl x).cur.dict = t.cur.dict := rfl
@[simp] theorem Tx.setCtl_blobs (t : Tx s0) (x : Control) : (t.setCtl x).cur.blobs = t.cur.blobs := rfl
@[simp] theorem Tx.setCtl_sets (t : Tx s0) (x : Control) : (t.setCtl x).cur.sets = t.cur.sets := rfl
@[simp] theorem Tx.setCtl_result (t : Tx s0) (x : Control) : (t.setCtl x).cur.result = t.cur.result := rfl
@[simp] theorem Tx.setCtl_outs (t : Tx s0) (x : Control) : (t.setCtl x).cur.outs = t.cur.outs := rfl
@[simp] theorem Tx.setCtl_msgs (t : Tx s0) (x : Control) : (t.setCtl x).cur.msgs = t.cur.msgs := rfl
@[simp] theorem Tx.setCtl_scene (t : Tx s0) (x : Control) : (t.setCtl x).cur.scene = t.cur.scene := rfl
@[simp] theorem Tx.setCtl_geo (t : Tx s0) (x : Control) : (t.setCtl x).cur.geo = t.cur.geo := rfl
@[simp] theorem Tx.setCtl_render (t : Tx s0) (x : Control) : (t.setCtl x).cur.render = t.cur.render := rfl
@[simp] theorem Tx.setCtl_corr (t : Tx s0) (x : Control) : (t.setCtl x).cur.corr = t.cur.corr := rfl
@[simp] theorem Tx.setCtl_maps (t : Tx s0) (x : Control) : (t.setCtl x).cur.maps = t.cur.maps := rfl
@[simp] theorem Tx.setCtl_engines (t : Tx s0) (x : Control) : (t.setCtl x).cur.engines = t.cur.engines := rfl
@[simp] theorem Tx.setCtl_serial (t : Tx s0) (x : Control) : (t.setCtl x).cur.serial = t.cur.serial := rfl
@[simp] theorem Tx.setCtl_net (t : Tx s0) (x : Control) : (t.setCtl x).cur.net = t.cur.net := rfl
@[simp] theorem Tx.setCtl_time (t : Tx s0) (x : Control) : (t.setCtl x).cur.time = t.cur.time := rfl
@[simp] theorem Tx.setCtl_sprk (t : Tx s0) (x : Control) : (t.setCtl x).cur.sprk = t.cur.sprk := rfl
@[simp] theorem Tx.setCtl_hedge (t : Tx s0) (x : Control) : (t.setCtl x).cur.hedge = t.cur.hedge := rfl
@[simp] theorem Tx.setCtl_meas (t : Tx s0) (x : Control) : (t.setCtl x).cur.meas = t.cur.meas := rfl
@[simp] theorem Tx.setCtl_pool (t : Tx s0) (x : Control) : (t.setCtl x).cur.pool = t.cur.pool := rfl
@[simp] theorem Tx.setCtl_mem (t : Tx s0) (x : Control) : (t.setCtl x).cur.mem = t.cur.mem := rfl
@[simp] theorem Tx.setCtl_ctl (t : Tx s0) (x : Control) : (t.setCtl x).cur.ctl = x := rfl
@[simp] theorem Tx.setCtl_store (t : Tx s0) (x : Control) : (t.setCtl x).cur.store = t.cur.store := rfl
@[simp] theorem Tx.setCtl_power (t : Tx s0) (x : Control) : (t.setCtl x).cur.power = t.cur.power := rfl
@[simp] theorem Tx.setCtl_trace (t : Tx s0) (x : Control) : (t.setCtl x).cur.trace = t.cur.trace := rfl
@[simp] theorem Tx.setStore_pending (t : Tx s0) (x : Store) : (t.setStore x).cur.pending = t.cur.pending := rfl
@[simp] theorem Tx.setStore_now (t : Tx s0) (x : Store) : (t.setStore x).cur.now = t.cur.now := rfl
@[simp] theorem Tx.setStore_clock (t : Tx s0) (x : Store) : (t.setStore x).cur.clock = t.cur.clock := rfl
@[simp] theorem Tx.setStore_free (t : Tx s0) (x : Store) : (t.setStore x).cur.free = t.cur.free := rfl
@[simp] theorem Tx.setStore_dict (t : Tx s0) (x : Store) : (t.setStore x).cur.dict = t.cur.dict := rfl
@[simp] theorem Tx.setStore_blobs (t : Tx s0) (x : Store) : (t.setStore x).cur.blobs = t.cur.blobs := rfl
@[simp] theorem Tx.setStore_sets (t : Tx s0) (x : Store) : (t.setStore x).cur.sets = t.cur.sets := rfl
@[simp] theorem Tx.setStore_result (t : Tx s0) (x : Store) : (t.setStore x).cur.result = t.cur.result := rfl
@[simp] theorem Tx.setStore_outs (t : Tx s0) (x : Store) : (t.setStore x).cur.outs = t.cur.outs := rfl
@[simp] theorem Tx.setStore_msgs (t : Tx s0) (x : Store) : (t.setStore x).cur.msgs = t.cur.msgs := rfl
@[simp] theorem Tx.setStore_scene (t : Tx s0) (x : Store) : (t.setStore x).cur.scene = t.cur.scene := rfl
@[simp] theorem Tx.setStore_geo (t : Tx s0) (x : Store) : (t.setStore x).cur.geo = t.cur.geo := rfl
@[simp] theorem Tx.setStore_render (t : Tx s0) (x : Store) : (t.setStore x).cur.render = t.cur.render := rfl
@[simp] theorem Tx.setStore_corr (t : Tx s0) (x : Store) : (t.setStore x).cur.corr = t.cur.corr := rfl
@[simp] theorem Tx.setStore_maps (t : Tx s0) (x : Store) : (t.setStore x).cur.maps = t.cur.maps := rfl
@[simp] theorem Tx.setStore_engines (t : Tx s0) (x : Store) : (t.setStore x).cur.engines = t.cur.engines := rfl
@[simp] theorem Tx.setStore_serial (t : Tx s0) (x : Store) : (t.setStore x).cur.serial = t.cur.serial := rfl
@[simp] theorem Tx.setStore_net (t : Tx s0) (x : Store) : (t.setStore x).cur.net = t.cur.net := rfl
@[simp] theorem Tx.setStore_time (t : Tx s0) (x : Store) : (t.setStore x).cur.time = t.cur.time := rfl
@[simp] theorem Tx.setStore_sprk (t : Tx s0) (x : Store) : (t.setStore x).cur.sprk = t.cur.sprk := rfl
@[simp] theorem Tx.setStore_hedge (t : Tx s0) (x : Store) : (t.setStore x).cur.hedge = t.cur.hedge := rfl
@[simp] theorem Tx.setStore_meas (t : Tx s0) (x : Store) : (t.setStore x).cur.meas = t.cur.meas := rfl
@[simp] theorem Tx.setStore_pool (t : Tx s0) (x : Store) : (t.setStore x).cur.pool = t.cur.pool := rfl
@[simp] theorem Tx.setStore_mem (t : Tx s0) (x : Store) : (t.setStore x).cur.mem = t.cur.mem := rfl
@[simp] theorem Tx.setStore_ctl (t : Tx s0) (x : Store) : (t.setStore x).cur.ctl = t.cur.ctl := rfl
@[simp] theorem Tx.setStore_store (t : Tx s0) (x : Store) : (t.setStore x).cur.store = x := rfl
@[simp] theorem Tx.setStore_power (t : Tx s0) (x : Store) : (t.setStore x).cur.power = t.cur.power := rfl
@[simp] theorem Tx.setStore_trace (t : Tx s0) (x : Store) : (t.setStore x).cur.trace = t.cur.trace := rfl
@[simp] theorem Tx.setPower_pending (t : Tx s0) (x : Power) : (t.setPower x).cur.pending = t.cur.pending := rfl
@[simp] theorem Tx.setPower_now (t : Tx s0) (x : Power) : (t.setPower x).cur.now = t.cur.now := rfl
@[simp] theorem Tx.setPower_clock (t : Tx s0) (x : Power) : (t.setPower x).cur.clock = t.cur.clock := rfl
@[simp] theorem Tx.setPower_free (t : Tx s0) (x : Power) : (t.setPower x).cur.free = t.cur.free := rfl
@[simp] theorem Tx.setPower_dict (t : Tx s0) (x : Power) : (t.setPower x).cur.dict = t.cur.dict := rfl
@[simp] theorem Tx.setPower_blobs (t : Tx s0) (x : Power) : (t.setPower x).cur.blobs = t.cur.blobs := rfl
@[simp] theorem Tx.setPower_sets (t : Tx s0) (x : Power) : (t.setPower x).cur.sets = t.cur.sets := rfl
@[simp] theorem Tx.setPower_result (t : Tx s0) (x : Power) : (t.setPower x).cur.result = t.cur.result := rfl
@[simp] theorem Tx.setPower_outs (t : Tx s0) (x : Power) : (t.setPower x).cur.outs = t.cur.outs := rfl
@[simp] theorem Tx.setPower_msgs (t : Tx s0) (x : Power) : (t.setPower x).cur.msgs = t.cur.msgs := rfl
@[simp] theorem Tx.setPower_scene (t : Tx s0) (x : Power) : (t.setPower x).cur.scene = t.cur.scene := rfl
@[simp] theorem Tx.setPower_geo (t : Tx s0) (x : Power) : (t.setPower x).cur.geo = t.cur.geo := rfl
@[simp] theorem Tx.setPower_render (t : Tx s0) (x : Power) : (t.setPower x).cur.render = t.cur.render := rfl
@[simp] theorem Tx.setPower_corr (t : Tx s0) (x : Power) : (t.setPower x).cur.corr = t.cur.corr := rfl
@[simp] theorem Tx.setPower_maps (t : Tx s0) (x : Power) : (t.setPower x).cur.maps = t.cur.maps := rfl
@[simp] theorem Tx.setPower_engines (t : Tx s0) (x : Power) : (t.setPower x).cur.engines = t.cur.engines := rfl
@[simp] theorem Tx.setPower_serial (t : Tx s0) (x : Power) : (t.setPower x).cur.serial = t.cur.serial := rfl
@[simp] theorem Tx.setPower_net (t : Tx s0) (x : Power) : (t.setPower x).cur.net = t.cur.net := rfl
@[simp] theorem Tx.setPower_time (t : Tx s0) (x : Power) : (t.setPower x).cur.time = t.cur.time := rfl
@[simp] theorem Tx.setPower_sprk (t : Tx s0) (x : Power) : (t.setPower x).cur.sprk = t.cur.sprk := rfl
@[simp] theorem Tx.setPower_hedge (t : Tx s0) (x : Power) : (t.setPower x).cur.hedge = t.cur.hedge := rfl
@[simp] theorem Tx.setPower_meas (t : Tx s0) (x : Power) : (t.setPower x).cur.meas = t.cur.meas := rfl
@[simp] theorem Tx.setPower_pool (t : Tx s0) (x : Power) : (t.setPower x).cur.pool = t.cur.pool := rfl
@[simp] theorem Tx.setPower_mem (t : Tx s0) (x : Power) : (t.setPower x).cur.mem = t.cur.mem := rfl
@[simp] theorem Tx.setPower_ctl (t : Tx s0) (x : Power) : (t.setPower x).cur.ctl = t.cur.ctl := rfl
@[simp] theorem Tx.setPower_store (t : Tx s0) (x : Power) : (t.setPower x).cur.store = t.cur.store := rfl
@[simp] theorem Tx.setPower_power (t : Tx s0) (x : Power) : (t.setPower x).cur.power = x := rfl
@[simp] theorem Tx.setPower_trace (t : Tx s0) (x : Power) : (t.setPower x).cur.trace = t.cur.trace := rfl
@[simp] theorem Tx.setTrace_pending (t : Tx s0) (x : Trace) : (t.setTrace x).cur.pending = t.cur.pending := rfl
@[simp] theorem Tx.setTrace_now (t : Tx s0) (x : Trace) : (t.setTrace x).cur.now = t.cur.now := rfl
@[simp] theorem Tx.setTrace_clock (t : Tx s0) (x : Trace) : (t.setTrace x).cur.clock = t.cur.clock := rfl
@[simp] theorem Tx.setTrace_free (t : Tx s0) (x : Trace) : (t.setTrace x).cur.free = t.cur.free := rfl
@[simp] theorem Tx.setTrace_dict (t : Tx s0) (x : Trace) : (t.setTrace x).cur.dict = t.cur.dict := rfl
@[simp] theorem Tx.setTrace_blobs (t : Tx s0) (x : Trace) : (t.setTrace x).cur.blobs = t.cur.blobs := rfl
@[simp] theorem Tx.setTrace_sets (t : Tx s0) (x : Trace) : (t.setTrace x).cur.sets = t.cur.sets := rfl
@[simp] theorem Tx.setTrace_result (t : Tx s0) (x : Trace) : (t.setTrace x).cur.result = t.cur.result := rfl
@[simp] theorem Tx.setTrace_outs (t : Tx s0) (x : Trace) : (t.setTrace x).cur.outs = t.cur.outs := rfl
@[simp] theorem Tx.setTrace_msgs (t : Tx s0) (x : Trace) : (t.setTrace x).cur.msgs = t.cur.msgs := rfl
@[simp] theorem Tx.setTrace_scene (t : Tx s0) (x : Trace) : (t.setTrace x).cur.scene = t.cur.scene := rfl
@[simp] theorem Tx.setTrace_geo (t : Tx s0) (x : Trace) : (t.setTrace x).cur.geo = t.cur.geo := rfl
@[simp] theorem Tx.setTrace_render (t : Tx s0) (x : Trace) : (t.setTrace x).cur.render = t.cur.render := rfl
@[simp] theorem Tx.setTrace_corr (t : Tx s0) (x : Trace) : (t.setTrace x).cur.corr = t.cur.corr := rfl
@[simp] theorem Tx.setTrace_maps (t : Tx s0) (x : Trace) : (t.setTrace x).cur.maps = t.cur.maps := rfl
@[simp] theorem Tx.setTrace_engines (t : Tx s0) (x : Trace) : (t.setTrace x).cur.engines = t.cur.engines := rfl
@[simp] theorem Tx.setTrace_serial (t : Tx s0) (x : Trace) : (t.setTrace x).cur.serial = t.cur.serial := rfl
@[simp] theorem Tx.setTrace_net (t : Tx s0) (x : Trace) : (t.setTrace x).cur.net = t.cur.net := rfl
@[simp] theorem Tx.setTrace_time (t : Tx s0) (x : Trace) : (t.setTrace x).cur.time = t.cur.time := rfl
@[simp] theorem Tx.setTrace_sprk (t : Tx s0) (x : Trace) : (t.setTrace x).cur.sprk = t.cur.sprk := rfl
@[simp] theorem Tx.setTrace_hedge (t : Tx s0) (x : Trace) : (t.setTrace x).cur.hedge = t.cur.hedge := rfl
@[simp] theorem Tx.setTrace_meas (t : Tx s0) (x : Trace) : (t.setTrace x).cur.meas = t.cur.meas := rfl
@[simp] theorem Tx.setTrace_pool (t : Tx s0) (x : Trace) : (t.setTrace x).cur.pool = t.cur.pool := rfl
@[simp] theorem Tx.setTrace_mem (t : Tx s0) (x : Trace) : (t.setTrace x).cur.mem = t.cur.mem := rfl
@[simp] theorem Tx.setTrace_ctl (t : Tx s0) (x : Trace) : (t.setTrace x).cur.ctl = t.cur.ctl := rfl
@[simp] theorem Tx.setTrace_store (t : Tx s0) (x : Trace) : (t.setTrace x).cur.store = t.cur.store := rfl
@[simp] theorem Tx.setTrace_power (t : Tx s0) (x : Trace) : (t.setTrace x).cur.power = t.cur.power := rfl
@[simp] theorem Tx.setTrace_trace (t : Tx s0) (x : Trace) : (t.setTrace x).cur.trace = x := rfl

end Sys2Proof.Machine
end

