-- ==== Sys2Proof/Laws/Reach.lean ====
section
/-! SUPPORT. What every elementary update keeps, hence every transaction: the queue of commands and the canonical forms;
and what a read of an entry answers after each elementary update. -/

namespace Sys2Proof.Machine
open Sys2Proof

variable {s0 : State}

/-! ## The canonical forms -/

/-- Cutting a value to what an entry holds twice is cutting it once. -/
theorem fit_fit (e : Entry) (v : Nat) : fit e (fit e v) = fit e v := by
  rcases e with ⟨sub, ty, acc, dflt, rng, pers⟩
  cases acc <;> cases rng <;> simp only [fit, Nat.mod_mod]
  rename_i m
  show (v &&& m) &&& m = v &&& m
  rw [Nat.and_assoc, Nat.and_self]

/-- A put keeps the canonical form of the dictionary. -/
theorem DictOk.put {d : List (Nat × Nat)} (h : DictOk d) (k v : Nat) : DictOk (dictPut d k v) := by
  unfold dictPut
  split
  · rename_i e he
    refine ⟨mwf_mputD _ _ _ h.1, fun p hp => ?_⟩
    rcases mem_mputD hp with ⟨rfl, hv⟩ | hp
    · exact ⟨e, he, fit_fit e v, hv⟩
    · exact h.2 p hp
  · exact h

/-- So does a return to the reset value. -/
theorem DictOk.del {d : List (Nat × Nat)} (h : DictOk d) (k : Nat) : DictOk (mdel k d) :=
  ⟨mwf_mdel k h.1, fun p hp => h.2 p (mem_mdel hp)⟩

/-- A change of a byte-string entry keeps the canonical form of the byte strings. -/
theorem BlobsOk.put {d : List (Nat × Bytes)} (h : BlobsOk d) (k : Nat) (b : Bytes) :
    BlobsOk (mputD (dfltBlob k) k b d) := by
  refine ⟨mwf_mputD _ _ _ h.1, fun p hp => ?_⟩
  rcases mem_mputD hp with ⟨rfl, hv⟩ | hp
  · exact hv
  · exact h.2 p hp

/-- Every elementary update keeps the invariant. -/
theorem Upd.inv (u : Upd) {s : State} (h : Inv s) : Inv (u.apply s) := by
  cases u with
  | put k v => exact ⟨h.1.put k v, h.2⟩
  | unset k => exact ⟨h.1.del k, h.2⟩
  | blob k b => exact ⟨h.1, h.2.put k b⟩
  | _ => exact h

/-- No elementary update touches the queue. -/
theorem Upd.pending (u : Upd) (s : State) : (u.apply s).pending = s.pending := by cases u <;> rfl

theorem Reach.inv {s : State} (r : Reach s0 s) (h : Inv s0) : Inv s := by
  induction r with
  | refl => exact h
  | step u _ ih => exact u.inv ih

theorem Reach.pending {s : State} (r : Reach s0 s) : s.pending = s0.pending := by
  induction r with
  | refl => rfl
  | step u _ ih => rw [u.pending, ih]

/-- A transaction keeps the invariant. -/
theorem Tx.inv (t : Tx s0) (h : Inv s0) : Inv t.cur := t.ok.inv h

/-- A transaction keeps the queue. -/
theorem Tx.pending_eq (t : Tx s0) : t.cur.pending = s0.pending := t.ok.pending

/-- Reset meets the canonical form of an empty dictionary. -/
theorem DictOk.nil : DictOk [] := ⟨rfl, fun _ h => by cases h⟩
theorem BlobsOk.nil : BlobsOk [] := ⟨rfl, fun _ h => by cases h⟩

/-! ## Reads after puts -/

/-- What an entry that exists reads as after it was put. -/
theorem Tx.get_put_same (t : Tx s0) {k : Nat} (v : Nat) {e : Entry} (he : entryAt k = some e) :
    (t.put k v).cur.get k = fit e v := by
  simp only [State.get, Tx.put_dict, dictPut, he]
  exact mgetD_mputD_same _ _ _ _

/-- An entry reads as before after another was put. -/
theorem Tx.get_put_other (t : Tx s0) {k j : Nat} (v : Nat) (hj : j ≠ k) :
    (t.put k v).cur.get j = t.cur.get j := by
  simp only [State.get, Tx.put_dict, dictPut]
  split
  · rw [mget?_mputD_other _ _ hj]
  · rfl

/-- An entry reads as its reset value after it returned to it, and every other as before. -/
theorem Tx.get_unset_same (t : Tx s0) (k : Nat) : (t.unset k).cur.get k = dfltOf k := by
  simp only [State.get, Tx.unset_dict, mget?_mdel_same, Option.getD_none]

theorem Tx.get_unset_other (t : Tx s0) {k j : Nat} (hj : j ≠ k) : (t.unset k).cur.get j = t.cur.get j := by
  simp only [State.get, Tx.unset_dict, mget?_mdel_other _ hj]

/-- What a byte-string entry reads as after it was put. -/
theorem Tx.blob_blob_same (t : Tx s0) (k : Nat) (b : Bytes) : (t.blob k b).cur.blob k = b := by
  simp only [State.blob, Tx.blob_blobs]
  exact mgetD_mputD_same _ _ _ _

theorem Tx.blob_blob_other (t : Tx s0) {k j : Nat} (b : Bytes) (hj : j ≠ k) :
    (t.blob k b).cur.blob j = t.cur.blob j := by
  simp only [State.blob, Tx.blob_blobs]
  rw [mget?_mputD_other _ _ hj]

/-- Keys of entries are different where their fields are. -/
theorem K_inj {a b c a' b' c' : Nat} (hb : b < 65536) (hc : c < 256) (hb' : b' < 65536) (hc' : c' < 256) :
    K a b c = K a' b' c' ↔ a = a' ∧ b = b' ∧ c = c' := by
  unfold K; omega

theorem kIdx_K {a b c : Nat} (hb : b < 65536) (hc : c < 256) : kIdx (K a b c) = a := by
  unfold kIdx K; omega

theorem kInst_K {a b c : Nat} (hb : b < 65536) (hc : c < 256) : kInst (K a b c) = b := by
  unfold kInst K; omega

theorem kSub_K {a b c : Nat} (hc : c < 256) : kSub (K a b c) = c := by
  unfold kSub K; omega

/-- The entry of a key is the entry of its fields. -/
theorem entryAt_K {a b c : Nat} (hb : b < 65536) (hc : c < 256) : entryAt (K a b c) = entryOf a b c := by
  rw [entryAt, kIdx_K hb hc, kInst_K hb hc, kSub_K hc]

@[simp] theorem Tx.blob_get (t : Tx s0) (k : Nat) (b : Bytes) (j : Nat) : (t.blob k b).cur.get j = t.cur.get j := rfl
@[simp] theorem Tx.put_blob (t : Tx s0) (k v j : Nat) : (t.put k v).cur.blob j = t.cur.blob j := rfl

/-! ## Reads after the other updates -/

@[simp] theorem Tx.tick_get (t : Tx s0) (n c : Nat) (j : Nat) : (t.tick n c).cur.get j = t.cur.get j := rfl
@[simp] theorem Tx.tick_blob (t : Tx s0) (n c : Nat) (j : Nat) : (t.tick n c).cur.blob j = t.cur.blob j := rfl
@[simp] theorem Tx.draw_get (t : Tx s0) (j : Nat) : t.draw.cur.get j = t.cur.get j := rfl
@[simp] theorem Tx.draw_blob (t : Tx s0) (j : Nat) : t.draw.cur.blob j = t.cur.blob j := rfl
@[simp] theorem Tx.unset_blob (t : Tx s0) (k j : Nat) : (t.unset k).cur.blob j = t.cur.blob j := rfl
@[simp] theorem Tx.setSets_get (t : Tx s0) (x : List (Nat × CycleNote)) (j : Nat) : (t.setSets x).cur.get j = t.cur.get j := rfl
@[simp] theorem Tx.setSets_blob (t : Tx s0) (x : List (Nat × CycleNote)) (j : Nat) : (t.setSets x).cur.blob j = t.cur.blob j := rfl
@[simp] theorem Tx.setResult_get (t : Tx s0) (r : Result) (j : Nat) : (t.setResult r).cur.get j = t.cur.get j := rfl
@[simp] theorem Tx.setResult_blob (t : Tx s0) (r : Result) (j : Nat) : (t.setResult r).cur.blob j = t.cur.blob j := rfl
@[simp] theorem Tx.setOuts_get (t : Tx s0) (o : List Out) (j : Nat) : (t.setOuts o).cur.get j = t.cur.get j := rfl
@[simp] theorem Tx.setOuts_blob (t : Tx s0) (o : List Out) (j : Nat) : (t.setOuts o).cur.blob j = t.cur.blob j := rfl
@[simp] theorem Tx.setMsgs_get (t : Tx s0) (m : List TraceEv) (j : Nat) : (t.setMsgs m).cur.get j = t.cur.get j := rfl
@[simp] theorem Tx.setMsgs_blob (t : Tx s0) (m : List TraceEv) (j : Nat) : (t.setMsgs m).cur.blob j = t.cur.blob j := rfl
@[simp] theorem Tx.setScene_get (t : Tx s0) (x : Scene) (j : Nat) : (t.setScene x).cur.get j = t.cur.get j := rfl
@[simp] theorem Tx.setScene_blob (t : Tx s0) (x : Scene) (j : Nat) : (t.setScene x).cur.blob j = t.cur.blob j := rfl
@[simp] theorem Tx.setGeo_get (t : Tx s0) (x : Geo) (j : Nat) : (t.setGeo x).cur.get j = t.cur.get j := rfl
@[simp] theorem Tx.setGeo_blob (t : Tx s0) (x : Geo) (j : Nat) : (t.setGeo x).cur.blob j = t.cur.blob j := rfl
@[simp] theorem Tx.setRender_get (t : Tx s0) (x : Render) (j : Nat) : (t.setRender x).cur.get j = t.cur.get j := rfl
@[simp] theorem Tx.setRender_blob (t : Tx s0) (x : Render) (j : Nat) : (t.setRender x).cur.blob j = t.cur.blob j := rfl
@[simp] theorem Tx.setCorr_get (t : Tx s0) (x : Corr) (j : Nat) : (t.setCorr x).cur.get j = t.cur.get j := rfl
@[simp] theorem Tx.setCorr_blob (t : Tx s0) (x : Corr) (j : Nat) : (t.setCorr x).cur.blob j = t.cur.blob j := rfl
@[simp] theorem Tx.setMaps_get (t : Tx s0) (x : Maps) (j : Nat) : (t.setMaps x).cur.get j = t.cur.get j := rfl
@[simp] theorem Tx.setMaps_blob (t : Tx s0) (x : Maps) (j : Nat) : (t.setMaps x).cur.blob j = t.cur.blob j := rfl
@[simp] theorem Tx.setEngines_get (t : Tx s0) (x : Engines) (j : Nat) : (t.setEngines x).cur.get j = t.cur.get j := rfl
@[simp] theorem Tx.setEngines_blob (t : Tx s0) (x : Engines) (j : Nat) : (t.setEngines x).cur.blob j = t.cur.blob j := rfl
@[simp] theorem Tx.setSerial_get (t : Tx s0) (x : Serial) (j : Nat) : (t.setSerial x).cur.get j = t.cur.get j := rfl
@[simp] theorem Tx.setSerial_blob (t : Tx s0) (x : Serial) (j : Nat) : (t.setSerial x).cur.blob j = t.cur.blob j := rfl
@[simp] theorem Tx.setNet_get (t : Tx s0) (x : Net) (j : Nat) : (t.setNet x).cur.get j = t.cur.get j := rfl
@[simp] theorem Tx.setNet_blob (t : Tx s0) (x : Net) (j : Nat) : (t.setNet x).cur.blob j = t.cur.blob j := rfl
@[simp] theorem Tx.setTime_get (t : Tx s0) (x : TimeSt) (j : Nat) : (t.setTime x).cur.get j = t.cur.get j := rfl
@[simp] theorem Tx.setTime_blob (t : Tx s0) (x : TimeSt) (j : Nat) : (t.setTime x).cur.blob j = t.cur.blob j := rfl
@[simp] theorem Tx.setSprk_get (t : Tx s0) (x : Sprk) (j : Nat) : (t.setSprk x).cur.get j = t.cur.get j := rfl
@[simp] theorem Tx.setSprk_blob (t : Tx s0) (x : Sprk) (j : Nat) : (t.setSprk x).cur.blob j = t.cur.blob j := rfl
@[simp] theorem Tx.setHedge_get (t : Tx s0) (x : Hedge) (j : Nat) : (t.setHedge x).cur.get j = t.cur.get j := rfl
@[simp] theorem Tx.setHedge_blob (t : Tx s0) (x : Hedge) (j : Nat) : (t.setHedge x).cur.blob j = t.cur.blob j := rfl
@[simp] theorem Tx.setMeas_get (t : Tx s0) (x : Meas) (j : Nat) : (t.setMeas x).cur.get j = t.cur.get j := rfl
@[simp] theorem Tx.setMeas_blob (t : Tx s0) (x : Meas) (j : Nat) : (t.setMeas x).cur.blob j = t.cur.blob j := rfl
@[simp] theorem Tx.setPool_get (t : Tx s0) (x : Pool) (j : Nat) : (t.setPool x).cur.get j = t.cur.get j := rfl
@[simp] theorem Tx.setPool_blob (t : Tx s0) (x : Pool) (j : Nat) : (t.setPool x).cur.blob j = t.cur.blob j := rfl
@[simp] theorem Tx.setMem_get (t : Tx s0) (x : Mem) (j : Nat) : (t.setMem x).cur.get j = t.cur.get j := rfl
@[simp] theorem Tx.setMem_blob (t : Tx s0) (x : Mem) (j : Nat) : (t.setMem x).cur.blob j = t.cur.blob j := rfl
@[simp] theorem Tx.setCtl_get (t : Tx s0) (x : Control) (j : Nat) : (t.setCtl x).cur.get j = t.cur.get j := rfl
@[simp] theorem Tx.setCtl_blob (t : Tx s0) (x : Control) (j : Nat) : (t.setCtl x).cur.blob j = t.cur.blob j := rfl
@[simp] theorem Tx.setStore_get (t : Tx s0) (x : Store) (j : Nat) : (t.setStore x).cur.get j = t.cur.get j := rfl
@[simp] theorem Tx.setStore_blob (t : Tx s0) (x : Store) (j : Nat) : (t.setStore x).cur.blob j = t.cur.blob j := rfl
@[simp] theorem Tx.setPower_get (t : Tx s0) (x : Power) (j : Nat) : (t.setPower x).cur.get j = t.cur.get j := rfl
@[simp] theorem Tx.setPower_blob (t : Tx s0) (x : Power) (j : Nat) : (t.setPower x).cur.blob j = t.cur.blob j := rfl
@[simp] theorem Tx.setTrace_get (t : Tx s0) (x : Trace) (j : Nat) : (t.setTrace x).cur.get j = t.cur.get j := rfl
@[simp] theorem Tx.setTrace_blob (t : Tx s0) (x : Trace) (j : Nat) : (t.setTrace x).cur.blob j = t.cur.blob j := rfl

end Sys2Proof.Machine
end

