-- ==== Sys2Proof/Laws/Frame.lean ====
section
/-! SUPPORT. Frames: `Kept` composes, every elementary update keeps all but what it names, and the end of a command
(Tx.finish) changes nothing but notification records, the trace port and the autosave delay. -/

namespace Sys2Proof.Machine
open Sys2Proof

variable {s0 : State}

/-! ## Kept -/

theorem Part.same_refl (p : Part) (a : State) : p.same a a := by
  cases p <;> first | rfl | exact ⟨rfl, fun _ => rfl⟩ | exact ⟨rfl, rfl⟩

theorem Part.same_trans {p : Part} {a b c : State} (h : p.same a b) (g : p.same b c) : p.same a c := by
  cases p
  case ctl => exact ⟨g.1.trans h.1, fun k => (g.2 k).trans (h.2 k)⟩
  case clock => exact ⟨g.1.trans h.1, g.2.trans h.2⟩
  all_goals exact Eq.trans g h

theorem Kept.refl (E : Nat → Prop) (M : List Part) (a : State) : Kept E M a a :=
  ⟨fun _ _ _ => rfl, fun _ _ => rfl, fun p _ => p.same_refl a⟩

theorem Kept.trans {E : Nat → Prop} {M : List Part} {a b c : State} (h : Kept E M a b) (g : Kept E M b c) :
    Kept E M a c where
  entries := fun k e n => (g.entries k e n).trans (h.entries k e n)
  strings := fun k e => (g.strings k e).trans (h.strings k e)
  parts := fun p m => Part.same_trans (h.parts p m) (g.parts p m)

/-- A frame holds for every larger set of exceptions. -/
theorem Kept.mono {E E' : Nat → Prop} {M M' : List Part} {a b : State} (h : Kept E M a b) (hE : ∀ k, E k → E' k)
    (hM : ∀ m ∈ M, m ∈ M') : Kept E' M' a b where
  entries := fun k e n => h.entries k (fun x => e (hE k x)) n
  strings := fun k e => h.strings k (fun x => e (hE k x))
  parts := fun p m => h.parts p (fun x => m (hM p x))

section
variable {E : Nat → Prop} {M : List Part} {a b : State}

theorem Kept.clock (h : Kept E M a b) (m : Part.clock ∉ M) : b.now = a.now ∧ b.clock = a.clock := h.parts _ m
theorem Kept.free (h : Kept E M a b) (m : Part.free ∉ M) : b.free = a.free := h.parts _ m
theorem Kept.result (h : Kept E M a b) (m : Part.result ∉ M) : b.result = a.result := h.parts _ m
theorem Kept.outs (h : Kept E M a b) (m : Part.outs ∉ M) : b.outs = a.outs := h.parts _ m
theorem Kept.scene (h : Kept E M a b) (m : Part.scene ∉ M) : b.scene = a.scene := h.parts _ m
theorem Kept.geo (h : Kept E M a b) (m : Part.geo ∉ M) : b.geo = a.geo := h.parts _ m
theorem Kept.render (h : Kept E M a b) (m : Part.render ∉ M) : b.render = a.render := h.parts _ m
theorem Kept.corr (h : Kept E M a b) (m : Part.corr ∉ M) : b.corr = a.corr := h.parts _ m
theorem Kept.maps (h : Kept E M a b) (m : Part.maps ∉ M) : b.maps = a.maps := h.parts _ m
theorem Kept.engines (h : Kept E M a b) (m : Part.engines ∉ M) : b.engines = a.engines := h.parts _ m
theorem Kept.serial (h : Kept E M a b) (m : Part.serial ∉ M) : b.serial = a.serial := h.parts _ m
theorem Kept.net (h : Kept E M a b) (m : Part.net ∉ M) : b.net = a.net := h.parts _ m
theorem Kept.time (h : Kept E M a b) (m : Part.time ∉ M) : b.time = a.time := h.parts _ m
theorem Kept.sprk (h : Kept E M a b) (m : Part.sprk ∉ M) : b.sprk = a.sprk := h.parts _ m
theorem Kept.hedge (h : Kept E M a b) (m : Part.hedge ∉ M) : b.hedge = a.hedge := h.parts _ m
theorem Kept.meas (h : Kept E M a b) (m : Part.meas ∉ M) : b.meas = a.meas := h.parts _ m
theorem Kept.pool (h : Kept E M a b) (m : Part.pool ∉ M) : b.pool = a.pool := h.parts _ m
theorem Kept.mem (h : Kept E M a b) (m : Part.mem ∉ M) : b.mem = a.mem := h.parts _ m
theorem Kept.power (h : Kept E M a b) (m : Part.power ∉ M) : b.power = a.power := h.parts _ m
theorem Kept.store (h : Kept E M a b) (m : Part.store ∉ M) : { b.store with changed := none } = { a.store with changed := none } := h.parts _ m
theorem Kept.ctl (h : Kept E M a b) (m : Part.ctl ∉ M) : { b.ctl with hosts := [], fired := none } = { a.ctl with hosts := [], fired := none } ∧
    ∀ n, (b.host n).still = (a.host n).still := h.parts _ m

end

/-! ## Elementary updates -/

/-- The part of the state that an elementary update writes, beside entries, the messages of the command under way, the trace port
and the record of the cycle. -/
def Upd.part : Upd → Option Part
  | .put .. | .unset .. | .blob .. | .sets .. | .msgs .. | .trace .. => none
  | .tick .. => some .clock
  | .draw => some .free
  | .result .. => some .result
  | .outs .. => some .outs
  | .scene .. => some .scene
  | .geo .. => some .geo
  | .render .. => some .render
  | .corr .. => some .corr
  | .maps .. => some .maps
  | .engines .. => some .engines
  | .serial .. => some .serial
  | .net .. => some .net
  | .time .. => some .time
  | .sprk .. => some .sprk
  | .hedge .. => some .hedge
  | .meas .. => some .meas
  | .pool .. => some .pool
  | .mem .. => some .mem
  | .power .. => some .power
  | .ctl .. => some .ctl
  | .store .. => some .store

/-- Every other part is as before. -/
theorem Upd.same {u : Upd} {p : Part} (h : u.part ≠ some p) (s : State) : p.same s (u.apply s) := by
  cases u <;> cases p <;> first | exact absurd rfl h | rfl | exact ⟨rfl, fun _ => rfl⟩ | exact ⟨rfl, rfl⟩

/-- An elementary update that leaves the entries keeps all but its part. -/
theorem Upd.kept {E : Nat → Prop} {M : List Part} (u : Upd) (s : State) (hd : (u.apply s).dict = s.dict)
    (hb : (u.apply s).blobs = s.blobs) (hm : ∀ p, u.part = some p → p ∈ M) : Kept E M s (u.apply s) where
  entries := fun k _ _ => by simp only [State.get, hd]
  strings := fun k _ => by simp only [State.blob, hb]
  parts := fun _ hp => Upd.same (fun h => hp (hm _ h)) s

/-- A put of a key that E names, or that the end of a command may write. -/
theorem Tx.put_kept {E : Nat → Prop} {M : List Part} (t : Tx s0) {k : Nat} (v : Nat)
    (hk : E k ∨ noted k = true) : Kept E M t.cur (t.put k v).cur where
  entries := fun j hj hn => t.get_put_other v (by
    rintro rfl
    rcases hk with hk | hk
    · exact hj hk
    · rw [hk] at hn; cases hn)
  strings := fun _ _ => rfl
  parts := fun _ _ => Upd.same (u := .put k v) (fun h => by cases h) t.cur

theorem Tx.unset_kept {E : Nat → Prop} {M : List Part} (t : Tx s0) {k : Nat} (hk : E k ∨ noted k = true) :
    Kept E M t.cur (t.unset k).cur where
  entries := fun j hj hn => t.get_unset_other (by
    rintro rfl
    rcases hk with hk | hk
    · exact hj hk
    · rw [hk] at hn; cases hn)
  strings := fun _ _ => rfl
  parts := fun _ _ => Upd.same (u := .unset k) (fun h => by cases h) t.cur

theorem Tx.blob_kept {E : Nat → Prop} {M : List Part} (t : Tx s0) {k : Nat} (d : Bytes) (hk : E k) :
    Kept E M t.cur (t.blob k d).cur where
  entries := fun _ _ _ => rfl
  strings := fun _ hj => t.blob_blob_other d (fun h => hj (h ▸ hk))
  parts := fun _ _ => Upd.same (u := .blob k d) (fun h => by cases h) t.cur

theorem Tx.setMsgs_kept {E : Nat → Prop} {M : List Part} (t : Tx s0) (m : List TraceEv) :
    Kept E M t.cur (t.setMsgs m).cur := Upd.kept (.msgs m) _ rfl rfl nofun
theorem Tx.setSets_kept {E : Nat → Prop} {M : List Part} (t : Tx s0) (x : List (Nat × CycleNote)) :
    Kept E M t.cur (t.setSets x).cur := Upd.kept (.sets x) _ rfl rfl nofun
theorem Tx.setTrace_kept {E : Nat → Prop} {M : List Part} (t : Tx s0) (x : Trace) :
    Kept E M t.cur (t.setTrace x).cur := Upd.kept (.trace x) _ rfl rfl nofun
theorem Tx.tick_kept {E : Nat → Prop} {M : List Part} (t : Tx s0) (n c : Nat) (hm : Part.clock ∈ M) :
    Kept E M t.cur (t.tick n c).cur := Upd.kept (.tick n c) _ rfl rfl (by rintro _ ⟨⟩; exact hm)
theorem Tx.draw_kept {E : Nat → Prop} {M : List Part} (t : Tx s0) (hm : Part.free ∈ M) :
    Kept E M t.cur t.draw.cur := Upd.kept .draw _ rfl rfl (by rintro _ ⟨⟩; exact hm)
theorem Tx.setResult_kept {E : Nat → Prop} {M : List Part} (t : Tx s0) (x : Result) (hm : Part.result ∈ M) :
    Kept E M t.cur (t.setResult x).cur := Upd.kept (.result x) _ rfl rfl (by rintro _ ⟨⟩; exact hm)
theorem Tx.setOuts_kept {E : Nat → Prop} {M : List Part} (t : Tx s0) (x : List Out) (hm : Part.outs ∈ M) :
    Kept E M t.cur (t.setOuts x).cur := Upd.kept (.outs x) _ rfl rfl (by rintro _ ⟨⟩; exact hm)
theorem Tx.setScene_kept {E : Nat → Prop} {M : List Part} (t : Tx s0) (x : Scene) (hm : Part.scene ∈ M) :
    Kept E M t.cur (t.setScene x).cur := Upd.kept (.scene x) _ rfl rfl (by rintro _ ⟨⟩; exact hm)
theorem Tx.setGeo_kept {E : Nat → Prop} {M : List Part} (t : Tx s0) (x : Geo) (hm : Part.geo ∈ M) :
    Kept E M t.cur (t.setGeo x).cur := Upd.kept (.geo x) _ rfl rfl (by rintro _ ⟨⟩; exact hm)
theorem Tx.setRender_kept {E : Nat → Prop} {M : List Part} (t : Tx s0) (x : Render) (hm : Part.render ∈ M) :
    Kept E M t.cur (t.setRender x).cur := Upd.kept (.render x) _ rfl rfl (by rintro _ ⟨⟩; exact hm)
theorem Tx.setCorr_kept {E : Nat → Prop} {M : List Part} (t : Tx s0) (x : Corr) (hm : Part.corr ∈ M) :
    Kept E M t.cur (t.setCorr x).cur := Upd.kept (.corr x) _ rfl rfl (by rintro _ ⟨⟩; exact hm)
theorem Tx.setMaps_kept {E : Nat → Prop} {M : List Part} (t : Tx s0) (x : Maps) (hm : Part.maps ∈ M) :
    Kept E M t.cur (t.setMaps x).cur := Upd.kept (.maps x) _ rfl rfl (by rintro _ ⟨⟩; exact hm)
theorem Tx.setEngines_kept {E : Nat → Prop} {M : List Part} (t : Tx s0) (x : Engines) (hm : Part.engines ∈ M) :
    Kept E M t.cur (t.setEngines x).cur := Upd.kept (.engines x) _ rfl rfl (by rintro _ ⟨⟩; exact hm)
theorem Tx.setSerial_kept {E : Nat → Prop} {M : List Part} (t : Tx s0) (x : Serial) (hm : Part.serial ∈ M) :
    Kept E M t.cur (t.setSerial x).cur := Upd.kept (.serial x) _ rfl rfl (by rintro _ ⟨⟩; exact hm)
theorem Tx.setNet_kept {E : Nat → Prop} {M : List Part} (t : Tx s0) (x : Net) (hm : Part.net ∈ M) :
    Kept E M t.cur (t.setNet x).cur := Upd.kept (.net x) _ rfl rfl (by rintro _ ⟨⟩; exact hm)
theorem Tx.setTime_kept {E : Nat → Prop} {M : List Part} (t : Tx s0) (x : TimeSt) (hm : Part.time ∈ M) :
    Kept E M t.cur (t.setTime x).cur := Upd.kept (.time x) _ rfl rfl (by rintro _ ⟨⟩; exact hm)
theorem Tx.setSprk_kept {E : Nat → Prop} {M : List Part} (t : Tx s0) (x : Sprk) (hm : Part.sprk ∈ M) :
    Kept E M t.cur (t.setSprk x).cur := Upd.kept (.sprk x) _ rfl rfl (by rintro _ ⟨⟩; exact hm)
theorem Tx.setHedge_kept {E : Nat → Prop} {M : List Part} (t : Tx s0) (x : Hedge) (hm : Part.hedge ∈ M) :
    Kept E M t.cur (t.setHedge x).cur := Upd.kept (.hedge x) _ rfl rfl (by rintro _ ⟨⟩; exact hm)
theorem Tx.setMeas_kept {E : Nat → Prop} {M : List Part} (t : Tx s0) (x : Meas) (hm : Part.meas ∈ M) :
    Kept E M t.cur (t.setMeas x).cur := Upd.kept (.meas x) _ rfl rfl (by rintro _ ⟨⟩; exact hm)
theorem Tx.setPool_kept {E : Nat → Prop} {M : List Part} (t : Tx s0) (x : Pool) (hm : Part.pool ∈ M) :
    Kept E M t.cur (t.setPool x).cur := Upd.kept (.pool x) _ rfl rfl (by rintro _ ⟨⟩; exact hm)
theorem Tx.setMem_kept {E : Nat → Prop} {M : List Part} (t : Tx s0) (x : Mem) (hm : Part.mem ∈ M) :
    Kept E M t.cur (t.setMem x).cur := Upd.kept (.mem x) _ rfl rfl (by rintro _ ⟨⟩; exact hm)
theorem Tx.setPower_kept {E : Nat → Prop} {M : List Part} (t : Tx s0) (x : Power) (hm : Part.power ∈ M) :
    Kept E M t.cur (t.setPower x).cur := Upd.kept (.power x) _ rfl rfl (by rintro _ ⟨⟩; exact hm)
theorem Tx.setCtl_kept {E : Nat → Prop} {M : List Part} (t : Tx s0) (x : Control) (hm : Part.ctl ∈ M) :
    Kept E M t.cur (t.setCtl x).cur := Upd.kept (.ctl x) _ rfl rfl (by rintro _ ⟨⟩; exact hm)
theorem Tx.setStore_kept {E : Nat → Prop} {M : List Part} (t : Tx s0) (x : Store) (hm : Part.store ∈ M) :
    Kept E M t.cur (t.setStore x).cur := Upd.kept (.store x) _ rfl rfl (by rintro _ ⟨⟩; exact hm)

/-- Restarting the autosave delay changes no part. -/
theorem Tx.setStore_changed_kept {E : Nat → Prop} {M : List Part} (t : Tx s0) (c : Option Nat) :
    Kept E M t.cur (t.setStore { t.cur.store with changed := c }).cur :=
  ⟨fun _ _ _ => rfl, fun _ _ => rfl, fun p _ => by cases p <;> first | rfl | exact ⟨rfl, fun _ => rfl⟩ | exact ⟨rfl, rfl⟩⟩

/-- What every pass keeps, a fold keeps. -/
theorem Tx.each_kept {E : Nat → Prop} {M : List Part} {α : Type} (l : List α) (f : Tx s0 → α → Tx s0)
    (hf : ∀ t x, x ∈ l → Kept E M t.cur (f t x).cur) (t : Tx s0) : Kept E M t.cur (t.each l f).cur := by
  induction l generalizing t with
  | nil => exact .refl ..
  | cons a l ih =>
    exact (hf t a List.mem_cons_self).trans (ih (fun t x hx => hf t x (List.mem_cons_of_mem _ hx)) (f t a))

theorem Tx.when_kept {E : Nat → Prop} {M : List Part} (t : Tx s0) (c : Bool) (f : Tx s0 → Tx s0)
    (hf : Kept E M t.cur (f t).cur) : Kept E M t.cur (t.when c f).cur := by
  unfold Tx.when; split
  · exact hf
  · exact .refl ..

/-! ## The end of a command -/

variable {E : Nat → Prop} {M : List Part}

theorem Tx.inc_kept (t : Tx s0) (i n b v : Nat) (hk : E (K i n b) ∨ noted (K i n b) = true) :
    Kept E M t.cur (t.inc i n b v).cur := t.put_kept _ hk

theorem Tx.counter_kept (t : Tx s0) (i n : Nat) (hk : E (K (0x6800 + i) 0 0x01) ∨ noted (K (0x6800 + i) 0 0x01) = true) :
    Kept E M t.cur (t.counter i n).cur := (t.setSets_kept _).trans (Tx.inc_kept _ _ _ _ _ hk)

theorem Tx.w_kept (t : Tx s0) (i n b v : Nat) (hk : E (K i n b) ∨ noted (K i n b) = true) :
    Kept E M t.cur (t.w i n b v).cur := t.put_kept _ hk

theorem Tx.cycleTo_kept (t : Tx s0) (k : Nat) (f : CycleNote → CycleNote) : Kept E M t.cur (t.cycleTo k f).cur :=
  t.setSets_kept _

theorem Tx.flag_kept (t : Tx s0) (i n b m : Nat) (hk : E (K i n b) ∨ noted (K i n b) = true) :
    Kept E M t.cur (t.flag i n b m).cur := (t.cycleTo_kept _ _).trans (Tx.put_kept _ _ hk)

theorem Tx.w1c_kept (t : Tx s0) (i n b m : Nat) (hk : E (K i n b) ∨ noted (K i n b) = true) :
    Kept E M t.cur (t.w1c i n b m).cur := (t.cycleTo_kept _ _).trans (Tx.put_kept _ _ hk)

theorem Tx.flagBit_kept (t : Tx s0) (i n b v : Nat) (hk : E (K i n b) ∨ noted (K i n b) = true) :
    Kept E M t.cur (t.flagBit i n b v).cur := t.flag_kept _ _ _ _ hk

/-- The clears that met a set are forgotten, and nothing else. -/
theorem Tx.metDone_kept (t : Tx s0) : Kept E M t.cur t.metDone.cur := by
  unfold Tx.metDone; split
  · exact t.setSets_kept _
  · exact .refl ..

theorem Tx.peak_kept (t : Tx s0) (i n b v : Nat) (hk : E (K i n b) ∨ noted (K i n b) = true) :
    Kept E M t.cur (t.peak i n b v).cur := by
  unfold Tx.peak; split
  · exact t.w_kept _ _ _ _ hk
  · exact .refl ..

/-- The lost-record count of a host of 0 to 7. -/
theorem noted_lost {h b : Nat} (hh : h < 8) (hb : b = 0x06 ∨ b = 0x07) : noted (K 0x1200 h b) = true := by
  have hb' : b < 256 := by omega
  simp only [noted, kIdx_K (show h < 65536 by omega) hb', kSub_K hb']
  rcases hb with rfl | rfl <;> rfl

theorem Tx.tally_lost_kept (t : Tx s0) {h : Nat} (hh : h < 8) :
    Kept E M t.cur (t.tally 0x1200 h 0x06).cur := by
  show Kept E M t.cur (t.inc 0x1200 h 0x06 1).cur
  exact t.inc_kept _ _ _ _ (.inr (noted_lost hh (.inl rfl)))

/-- A host keeps what it holds but its records. -/
theorem Tx.setHost_records_kept (t : Tx s0) (h : Nat) (x : HostSt)
    (hx : x.still = (t.cur.host h).still) : Kept E M t.cur (t.setHost h x).cur := by
  have hh : ∀ k, ((t.setHost h x).cur.host k).still = (t.cur.host k).still := by
    intro k
    show (mget HostSt.init (mputD HostSt.init h x t.cur.ctl.hosts) k).still = _
    rw [mget_mputD]
    split
    · subst_vars; exact hx
    · rfl
  exact ⟨fun _ _ _ => rfl, fun _ _ => rfl, fun p _ => by
    cases p
    case ctl => exact ⟨rfl, hh⟩
    case clock => exact ⟨rfl, rfl⟩
    all_goals rfl⟩

theorem Tx.setHost_kept (t : Tx s0) (h : Nat) (x : HostSt) (hm : Part.ctl ∈ M) :
    Kept E M t.cur (t.setHost h x).cur := t.setCtl_kept _ hm

theorem Tx.emit_kept (t : Tx s0) (o : Out) (hm : Part.outs ∈ M) : Kept E M t.cur (t.emit o).cur := t.setOuts_kept _ hm
theorem Tx.msg_kept (t : Tx s0) (ty : Nat) (p : Bytes) : Kept E M t.cur (t.msg ty p).cur := t.setMsgs_kept _
theorem Tx.status_kept (t : Tx s0) (st : Nat) (hm : Part.result ∈ M) : Kept E M t.cur (t.status st).cur :=
  t.setResult_kept _ hm
theorem Tx.reply_kept (t : Tx s0) (d : Bytes) (hm : Part.result ∈ M) : Kept E M t.cur (t.reply d).cur :=
  t.setResult_kept _ hm
theorem Tx.wait_kept (t : Tx s0) (hm : Part.result ∈ M) : Kept E M t.cur t.wait.cur := t.setResult_kept _ hm
theorem Tx.wb_kept (t : Tx s0) (i n b : Nat) (d : Bytes) (hk : E (K i n b)) : Kept E M t.cur (t.wb i n b d).cur :=
  t.blob_kept d hk

theorem Tx.tally_kept (t : Tx s0) (i n b : Nat) (hk : E (K i n b) ∨ noted (K i n b) = true)
    (hc : ∀ c, counterOf i n b = some c → E (K (0x6800 + c) 0 0x01) ∨ noted (K (0x6800 + c) 0 0x01) = true) :
    Kept E M t.cur (t.tally i n b).cur := by
  simp only [Tx.tally, Tx.count]
  split
  · exact (t.inc_kept _ _ _ _ hk).trans (Tx.counter_kept _ _ _ (hc _ ‹_›))
  · exact t.inc_kept _ _ _ _ hk

theorem Tx.record_kept (t : Tx s0) {h : Nat} (hh : h < 8) (w1c : Bool) (r : Rec) :
    Kept E M t.cur (t.record h w1c r).cur := by
  simp only [Tx.record]
  split
  · exact .refl ..
  · split
    · exact (t.tally_lost_kept hh).trans (Tx.flagBit_kept _ _ _ _ _ (.inr (noted_lost hh (.inr rfl))))
    · split
      · exact t.setHost_records_kept h _ rfl
      · refine Kept.trans ?_ (Tx.flagBit_kept _ _ _ _ _ (.inr (noted_lost hh (.inr rfl))))
        refine Kept.trans ?_ (Tx.tally_lost_kept _ hh)
        exact t.setHost_records_kept h _ rfl

theorem fireWatch_kept (a : State) (t : Tx s0) {h : Nat} (hh : h < 8) (w : Nat × Nat × Nat × Nat × Nat) :
    Kept E M t.cur (fireWatch a h t w).cur := by
  obtain ⟨slot, idx, sub, inst, mask⟩ := w
  simp only [fireWatch]
  split
  · exact .refl ..
  · split
    · exact .refl ..
    · split
      · split
        · exact .refl ..
        · exact t.record_kept hh _ _
      · exact t.record_kept hh _ _

theorem fireWatches_kept (a : State) (t : Tx s0) : Kept E M t.cur (fireWatches a t).cur := by
  simp only [fireWatches]
  split
  · exact .refl ..
  · refine Tx.each_kept _ _ (fun t h hh => ?_) t
    have h8 : h < 8 := List.mem_range.1 hh
    exact Tx.each_kept _ _ (fun t w _ => fireWatch_kept a t h8 w) t

theorem Tx.traceFlush_kept (t : Tx s0) : Kept E M t.cur t.traceFlush.cur := by
  simp only [Tx.traceFlush]
  split
  · exact t.setMsgs_kept _
  · exact (t.setMsgs_kept _).trans (Tx.setTrace_kept _ _)

theorem Tx.noteChange_kept (t : Tx s0) : Kept E M t.cur t.noteChange.cur := by
  simp only [Tx.noteChange]
  split
  · exact .refl ..
  · split
    · exact .refl ..
    · exact t.setStore_changed_kept _

/-- What watches last fired on is forgotten, and nothing else. -/
theorem Tx.fired_kept (t : Tx s0) :
    Kept E M t.cur (if t.cur.ctl.fired.isSome then t.setCtl { t.cur.ctl with fired := none } else t).cur := by
  split
  · refine ⟨fun _ _ _ => rfl, fun _ _ => rfl, fun p _ => ?_⟩
    cases p
    case ctl => exact ⟨rfl, fun _ => rfl⟩
    case clock => exact ⟨rfl, rfl⟩
    all_goals rfl
  · exact .refl ..

/-- The end of a command changes nothing but notification records, the trace port and the autosave delay. -/
theorem Tx.finish_kept (t : Tx s0) : Kept E M t.cur t.finish.cur := by
  simp only [Tx.finish]
  split
  · exact t.metDone_kept.trans (Tx.traceFlush_kept _)
  · refine Kept.trans ?_ (Tx.traceFlush_kept _)
    refine Kept.trans ?_ (Tx.fired_kept _)
    refine Kept.trans ?_ (fireWatches_kept _ _)
    exact (t.noteChange_kept.trans (fireWatches_kept _ _)).trans (Tx.metDone_kept _)

end Sys2Proof.Machine
end

