-- ==== Sys2Proof/Laws/Run.lean ====
section
/-! SUPPORT. What a command's outcome is: a next state that its effect leads to but for what the end of a command may
write, nothing in an unclocked block; and what the checks of R424 let through. -/

namespace Sys2Proof.Machine
open Sys2Proof

variable {s0 : State}

/-- The state at the beginning of a command. -/
def State.begun (s : State) : State := { s with outs := [], msgs := [], result := ⟨none, []⟩ }

theorem Tx.start_cur (s : State) : (Tx.start s).cur = s.begun := rfl

@[simp] theorem Tx.start_get (s : State) (k : Nat) : (Tx.start s).cur.get k = s.get k := rfl
@[simp] theorem Tx.start_blob (s : State) (k : Nat) : (Tx.start s).cur.blob k = s.blob k := rfl
@[simp] theorem Tx.start_host (s : State) (h : Nat) : (Tx.start s).cur.host h = s.host h := rfl
@[simp] theorem Tx.start_now (s : State) : (Tx.start s).cur.now = s.now := rfl
@[simp] theorem Tx.start_clock (s : State) : (Tx.start s).cur.clock = s.clock := rfl
@[simp] theorem Tx.start_free (s : State) : (Tx.start s).cur.free = s.free := rfl
@[simp] theorem Tx.start_result (s : State) : (Tx.start s).cur.result = ⟨none, []⟩ := rfl
@[simp] theorem Tx.start_outs (s : State) : (Tx.start s).cur.outs = [] := rfl
@[simp] theorem Tx.start_writeCheck (s : State) (h : Nat) (o : OpFields) :
    (Tx.start s).cur.writeCheck h o = s.writeCheck h o := rfl
@[simp] theorem Tx.start_readCheck (s : State) (h : Nat) (o : OpFields) :
    (Tx.start s).cur.readCheck h o = s.readCheck h o := rfl

/-- A command begins without touching anything but the outcome and what is sent. -/
theorem Tx.start_kept {E : Nat → Prop} {M : List Part} (s : State) (hr : Part.result ∈ M) (ho : Part.outs ∈ M) :
    Kept E M s (Tx.start s).cur :=
  (((Tx.begin s).setOuts_kept [] ho).trans (Tx.setMsgs_kept _ _)).trans (Tx.setResult_kept _ _ hr)

/-- Every command answers a next state that its effect leads to, but for what the end of a command may write. -/
theorem run_next {s : State} (hc : s.clocked = true) (f : Tx s → Tx s) :
    ∃ t, run s f = .next t ∧ Kept (fun _ => False) [] (f (Tx.start s)).cur t :=
  ⟨_, by simp only [run, runAlways, hc, if_true], Tx.finish_kept _ ⟩

theorem runAlways_next {s : State} (f : Tx s → Tx s) :
    ∃ t, runAlways s f = .next t ∧ Kept (fun _ => False) [] (f (Tx.start s)).cur t :=
  ⟨_, rfl, Tx.finish_kept _ ⟩

theorem runCtl_next {s : State} (hc : s.clocked = true) (hd : s.ctl.down = false) (f : Tx s → Tx s) :
    ∃ t, runCtl s f = .next t ∧ Kept (fun _ => False) [] (f (Tx.start s)).cur t := by
  obtain ⟨t, ht, hk⟩ := run_next hc (fun t => if s.ctl.down then t else f t)
  simp only [hd] at hk
  exact ⟨t, ht, hk⟩

/-- To show what a command leads to: the transaction u that its effect is, and what holds of every state that differs from it
only by what the end of a command may write. -/
theorem run_to {s : State} {f : Tx s → Tx s} {P : State → Prop} (hc : s.clocked = true) (u : Tx s)
    (hu : f (Tx.start s) = u) (hP : ∀ t, Kept (fun _ => False) [] u.cur t → P t) : ∃ t, run s f = .next t ∧ P t := by
  subst hu
  obtain ⟨t, ht, hk⟩ := run_next hc f
  exact ⟨t, ht, hP t hk⟩

theorem runCtl_to {s : State} {f : Tx s → Tx s} {P : State → Prop} (hc : s.clocked = true) (hd : s.ctl.down = false)
    (u : Tx s) (hu : f (Tx.start s) = u) (hP : ∀ t, Kept (fun _ => False) [] u.cur t → P t) :
    ∃ t, runCtl s f = .next t ∧ P t := by
  subst hu
  obtain ⟨t, ht, hk⟩ := runCtl_next hc hd f
  exact ⟨t, ht, hP t hk⟩

theorem runAlways_to {s : State} {f : Tx s → Tx s} {P : State → Prop} (u : Tx s)
    (hu : f (Tx.start s) = u) (hP : ∀ t, Kept (fun _ => False) [] u.cur t → P t) :
    ∃ t, runAlways s f = .next t ∧ P t := by
  subst hu
  obtain ⟨t, ht, hk⟩ := runAlways_next f
  exact ⟨t, ht, hP t hk⟩

/-- The frame of a command from the frame of its effect. -/
theorem Kept.of_run {s : State} {u : Tx s} {t : State} {E : Nat → Prop} {M : List Part} (hr : Part.result ∈ M)
    (ho : Part.outs ∈ M) (hu : Kept E M (Tx.start s).cur u.cur) (hk : Kept (fun _ => False) [] u.cur t) : Kept E M s t :=
  ((Tx.start_kept s hr ho).trans hu).trans (hk.mono (fun _ h => h.elim) (fun _ h => by cases h))

/-- In STANDBY and without supplies a command has no effect. -/
theorem run_unclocked {s : State} (hc : s.clocked = false) (f : Tx s → Tx s) :
    ∃ t, run s f = .next t ∧ Kept (fun _ => False) [Part.result, Part.outs] s t := by
  refine ⟨_, rfl, Kept.trans (b := (Tx.start s).cur) ?_ ?_⟩
  · exact Tx.start_kept s (by simp) (by simp)
  · simp only [hc]
    exact Tx.finish_kept _ 

/-- Every meaning built by `run` answers a state that elementary updates lead to. -/
theorem run_reach (s : State) (f : Tx s → Tx s) : ∃ t, run s f = .next t ∧ Reach s t := ⟨_, rfl, Tx.ok _⟩
theorem runCtl_reach (s : State) (f : Tx s → Tx s) : ∃ t, runCtl s f = .next t ∧ Reach s t := ⟨_, rfl, Tx.ok _⟩
theorem runAlways_reach (s : State) (f : Tx s → Tx s) : ∃ t, runAlways s f = .next t ∧ Reach s t := ⟨_, rfl, Tx.ok _⟩

/-- The checks of R424 pass: the entry's own rule runs. -/
theorem Tx.guarded_ok {t : Tx s0} {h : Nat} {o : OpFields} (hk : t.cur.writeCheck h o = stOK) (r : Tx s0 → Tx s0) :
    t.guarded h o r = r (t.status stOK) := by
  simp only [Tx.guarded, hk, beq_self_eq_true, if_true]

/-- A check of R424 fails: the operation answers its status and does nothing. -/
theorem Tx.guarded_refused {t : Tx s0} {h : Nat} {o : OpFields} (hk : t.cur.writeCheck h o ≠ stOK) (r : Tx s0 → Tx s0) :
    t.guarded h o r = t.status (t.cur.writeCheck h o) := by
  simp only [Tx.guarded, beq_iff_eq, if_neg hk]

theorem Tx.guardedBad_ok {t : Tx s0} {h : Nat} {o : OpFields} (hk : t.cur.writeCheck h o = stOK)
    (b r : Tx s0 → Tx s0) : t.guardedBad h o b r = r (t.status stOK) := by
  simp only [Tx.guardedBad, hk, beq_self_eq_true, if_true]

theorem Tx.guardedBad_refused {t : Tx s0} {h : Nat} {o : OpFields} (hk : t.cur.writeCheck h o ≠ stOK)
    (hb : t.cur.writeCheck h o ≠ stBadType) (b r : Tx s0 → Tx s0) :
    t.guardedBad h o b r = t.status (t.cur.writeCheck h o) := by
  simp only [Tx.guardedBad, beq_iff_eq, if_neg hk, if_neg hb]

end Sys2Proof.Machine
end

