-- ==== Sys2Proof/Laws/Access.lean ====
section
/-! SUPPORT. What entries, byte strings and hosts read as after each shared operation. -/

namespace Sys2Proof.Machine
open Sys2Proof

variable {s0 : State}

theorem State.g_eq (s : State) (i n b : Nat) : s.g i n b = s.get (K i n b) := rfl
theorem State.gb_eq (s : State) (i n b : Nat) : s.gb i n b = s.blob (K i n b) := rfl
theorem State.on_eq (s : State) (i n b : Nat) : s.on i n b = (s.get (K i n b) == 1) := rfl
theorem Tx.g_eq (t : Tx s0) (i n b : Nat) : t.g i n b = t.cur.get (K i n b) := rfl
theorem Tx.on_eq (t : Tx s0) (i n b : Nat) : t.on i n b = (t.cur.get (K i n b) == 1) := rfl

/-- An entry that exists reads as what it was given, cut to what it can hold. -/
theorem Tx.w_get_same (t : Tx s0) {i n b : Nat} (v : Nat) {e : Entry} (he : entryAt (K i n b) = some e) :
    (t.w i n b v).cur.get (K i n b) = fit e v := t.get_put_same v he

theorem Tx.w_get_other (t : Tx s0) {i n b j : Nat} (v : Nat) (hj : j ≠ K i n b) :
    (t.w i n b v).cur.get j = t.cur.get j := t.get_put_other v hj

theorem Tx.wb_blob_same (t : Tx s0) (i n b : Nat) (d : Bytes) : (t.wb i n b d).cur.blob (K i n b) = d :=
  t.blob_blob_same _ d

theorem Tx.wb_blob_other (t : Tx s0) {i n b j : Nat} (d : Bytes) (hj : j ≠ K i n b) :
    (t.wb i n b d).cur.blob j = t.cur.blob j := t.blob_blob_other d hj

theorem Tx.inc_eq (t : Tx s0) (i n b v : Nat) : t.inc i n b v = t.w i n b (t.cur.get (K i n b) + v) := rfl

/-- What a W1C entry reads as after hardware set flags of it, and every other entry. -/
theorem Tx.flag_get_same (t : Tx s0) {i n b : Nat} (m : Nat) {e : Entry} (he : entryAt (K i n b) = some e) :
    (t.flag i n b m).cur.get (K i n b) = fit e (setFlags (t.cur.get (K i n b)) m) := Tx.get_put_same _ _ he

theorem Tx.flag_get_other (t : Tx s0) {i n b j : Nat} (m : Nat) (hj : j ≠ K i n b) :
    (t.flag i n b m).cur.get j = t.cur.get j := Tx.get_put_other _ _ hj

/-- What a W1C entry reads as after a host's write: the flags it names clear but for those set in this cycle (R8, R9). -/
theorem Tx.w1c_get_same (t : Tx s0) {i n b : Nat} (m : Nat) {e : Entry} (he : entryAt (K i n b) = some e) :
    (t.w1c i n b m).cur.get (K i n b) =
      fit e (clearFlags (t.cur.get (K i n b)) (clearBits m (t.cur.cycleOf (K i n b)).set)) := Tx.get_put_same _ _ he

theorem Tx.w1c_get_other (t : Tx s0) {i n b j : Nat} (m : Nat) (hj : j ≠ K i n b) :
    (t.w1c i n b m).cur.get j = t.cur.get j := Tx.get_put_other _ _ hj

/-- The state of a host after it was replaced. -/
theorem Tx.setHost_host (t : Tx s0) (h : Nat) (x : HostSt) (j : Nat) :
    (t.setHost h x).cur.host j = if j = h then x else t.cur.host j := mget_mputD ..

/-- A bit of a number, in the library's terms. -/
theorem bit_eq_testBit (v i : Nat) : bit v i = v.testBit i := by
  rw [Nat.testBit_eq_decide_div_mod_eq]; rfl

/-- An entry of a block, of an instance in range. -/
theorem entryAt_of {i n c : Nat} {b : Block} {e : Entry} (hb : blockOf i = some b) (hi : n < max b.insts 1)
    (hn : n < 65536) (hc : c < 256) (he : b.ents.find? (fun e => e.sub == c) = some e) : entryAt (K i n c) = some e := by
  rw [entryAt_K hn hc, entryOf, hb]
  simp only [if_pos hi]
  exact he

/-- What a flag bit is once it is set. -/
theorem setFlags_bit (old b : Nat) : bit (setFlags old (2 ^ b)) b = true := by
  show bit (old ||| 2 ^ b) b = true
  rw [bit_eq_testBit, Nat.testBit_or, Nat.testBit_two_pow_self, Bool.or_true]

/-- Setting a flag bit leaves the others (R8). -/
theorem setFlags_bit_other (old : Nat) {b c : Nat} (h : c ≠ b) : bit (setFlags old (2 ^ b)) c = bit old c := by
  show bit (old ||| 2 ^ b) c = bit old c
  rw [bit_eq_testBit, bit_eq_testBit, Nat.testBit_or, Nat.testBit_two_pow_of_ne (Ne.symm h), Bool.or_false]

/-- A defined flag of a W1C entry reads true once hardware set it. -/
theorem Tx.flagBit_bit (t : Tx s0) {i n b v m : Nat} {e : Entry} (he : entryAt (K i n b) = some e)
    (ha : e.acc = .w1c) (hr : e.rng = .mask m) (hb : bit m v = true) :
    bit ((t.flagBit i n b v).cur.get (K i n b)) v = true := by
  rw [Tx.flagBit, t.flag_get_same _ he]
  simp only [fit, ha, hr]
  have h := setFlags_bit (t.cur.get (K i n b)) v
  rw [bit_eq_testBit] at h hb ⊢
  show (_ &&& m).testBit v = true
  rw [Nat.testBit_and, h, hb, Bool.and_self]

/-! ## What a frame says of one entry, host or control field -/

section
variable {M : List Part} {a b : State}

theorem Kept.g {E : Nat → Prop} (h : Kept E M a b) {i n c : Nat} (hE : ¬ E (K i n c)) (hk : noted (K i n c) = false) :
    b.g i n c = a.g i n c := h.entries _ hE hk

theorem Kept.gb {E : Nat → Prop} (h : Kept E M a b) {i n c : Nat} (hE : ¬ E (K i n c)) : b.gb i n c = a.gb i n c :=
  h.strings _ hE

theorem Kept.host_sess {E : Nat → Prop} (h : Kept E M a b) (hm : Part.ctl ∉ M) (n : Nat) :
    (b.host n).sess = (a.host n).sess := (congrArg HostSt.sess ((h.ctl hm).2 n) :)

theorem Kept.host_opens {E : Nat → Prop} (h : Kept E M a b) (hm : Part.ctl ∉ M) (n : Nat) :
    (b.host n).opens = (a.host n).opens := (congrArg HostSt.opens ((h.ctl hm).2 n) :)

theorem Kept.host_xfer {E : Nat → Prop} (h : Kept E M a b) (hm : Part.ctl ∉ M) (n : Nat) :
    (b.host n).xfer = (a.host n).xfer := (congrArg HostSt.xfer ((h.ctl hm).2 n) :)

theorem Kept.host_snap {E : Nat → Prop} (h : Kept E M a b) (hm : Part.ctl ∉ M) (n : Nat) :
    (b.host n).snap = (a.host n).snap := (congrArg HostSt.snap ((h.ctl hm).2 n) :)

theorem Kept.host_noted {E : Nat → Prop} (h : Kept E M a b) (hm : Part.ctl ∉ M) (n : Nat) :
    (b.host n).noted = (a.host n).noted := (congrArg HostSt.noted ((h.ctl hm).2 n) :)

theorem Kept.host_stage {E : Nat → Prop} (h : Kept E M a b) (hm : Part.ctl ∉ M) (n : Nat) :
    (b.host n).stage = (a.host n).stage := (congrArg HostSt.stage ((h.ctl hm).2 n) :)

theorem Kept.ctl_commit {E : Nat → Prop} (h : Kept E M a b) (hm : Part.ctl ∉ M) : b.ctl.commit = a.ctl.commit :=
  (congrArg Control.commit (h.ctl hm).1 :)

theorem Kept.ctl_spiIn {E : Nat → Prop} (h : Kept E M a b) (hm : Part.ctl ∉ M) : b.ctl.spiIn = a.ctl.spiIn :=
  (congrArg Control.spiIn (h.ctl hm).1 :)

theorem Kept.ctl_spiOut {E : Nat → Prop} (h : Kept E M a b) (hm : Part.ctl ∉ M) : b.ctl.spiOut = a.ctl.spiOut :=
  (congrArg Control.spiOut (h.ctl hm).1 :)

theorem Kept.ctl_spiErr {E : Nat → Prop} (h : Kept E M a b) (hm : Part.ctl ∉ M) : b.ctl.spiErr = a.ctl.spiErr :=
  (congrArg Control.spiErr (h.ctl hm).1 :)

theorem Kept.ctl_held {E : Nat → Prop} (h : Kept E M a b) (hm : Part.ctl ∉ M) : b.ctl.held = a.ctl.held :=
  (congrArg Control.held (h.ctl hm).1 :)

theorem Kept.ctl_inbox {E : Nat → Prop} (h : Kept E M a b) (hm : Part.ctl ∉ M) : b.ctl.inbox = a.ctl.inbox :=
  (congrArg Control.inbox (h.ctl hm).1 :)

theorem Kept.ctl_down {E : Nat → Prop} (h : Kept E M a b) (hm : Part.ctl ∉ M) : b.ctl.down = a.ctl.down :=
  (congrArg Control.down (h.ctl hm).1 :)

theorem Kept.store_leaf0 {E : Nat → Prop} (h : Kept E M a b) (hm : Part.store ∉ M) : b.store.leaf0 = a.store.leaf0 :=
  (congrArg Store.leaf0 (h.store hm) :)

theorem Kept.store_leaf1 {E : Nat → Prop} (h : Kept E M a b) (hm : Part.store ∉ M) : b.store.leaf1 = a.store.leaf1 :=
  (congrArg Store.leaf1 (h.store hm) :)

theorem Kept.store_run {E : Nat → Prop} (h : Kept E M a b) (hm : Part.store ∉ M) : b.store.run = a.store.run :=
  (congrArg Store.run (h.store hm) :)

theorem Kept.store_keys {E : Nat → Prop} (h : Kept E M a b) (hm : Part.store ∉ M) : b.store.keys = a.store.keys :=
  (congrArg Store.keys (h.store hm) :)

end

end Sys2Proof.Machine
end

