-- ==== Sys2Proof/Laws/Bus.lean ====
section
/-! SUPPORT. The DRAM's contents (R385, R386) and the on-chip memories behind the matrix (R370): every operation of the bus matrix on
them keeps their canonical form, a codeword reads as what was last put there, and a change of one leaves the others. -/

namespace Sys2Proof.Machine
open Sys2Proof

variable {s0 : State}

/-! ## The canonical form -/

theorem dram_reset_wf : dramWf State.reset.mem.dram = true := rfl

theorem dramWf_mputD {m : List (Nat × DramWord)} (h : dramWf m = true) (w : Nat) (x : DramWord) :
    dramWf (mputD DramWord.zero w x m) = true := by
  simp only [dramWf, Bool.and_eq_true, List.all_eq_true, bne_iff_ne] at h ⊢
  refine ⟨mwf_mputD _ _ _ h.1, fun p hp => ?_⟩
  rcases mem_mputD hp with ⟨rfl, hv⟩ | hp
  · exact hv
  · exact h.2 p hp

theorem Tx.setDramWord_wf (t : Tx s0) (w : Nat) (x : DramWord) (h : dramWf t.cur.mem.dram = true) :
    dramWf (t.setDramWord w x).cur.mem.dram = true := dramWf_mputD h w x

theorem cells_reset_wf : cellsWf State.reset.mem.cells = true := rfl

theorem cellsWf_mputD {m : List (Nat × Byte)} (h : cellsWf m = true) (a : Nat) (b : Byte) :
    cellsWf (mputD 0 a b m) = true := by
  simp only [cellsWf, Bool.and_eq_true, List.all_eq_true, bne_iff_ne] at h ⊢
  refine ⟨mwf_mputD _ _ _ h.1, fun p hp => ?_⟩
  rcases mem_mputD hp with ⟨rfl, hv⟩ | hp
  · exact hv
  · exact h.2 p hp

/-- A write behind a target that is not the MRAM keeps the canonical form of the on-chip memories. -/
theorem Tx.cellsWrite_wf (t : Tx s0) {j : Nat} (hj : j ≠ 2) (o : Nat) (new : List (Option Byte))
    (h : cellsWf t.cur.mem.cells = true) : cellsWf (t.cellsWrite j o new).cur.mem.cells = true := by
  have go : ∀ (l : List Nat) (m : List (Nat × Byte)), cellsWf m = true →
      cellsWf (l.foldl (fun m i => match nth new i none with
        | some b => mputD 0 (targetBase j + o + i) b m
        | none => m) m) = true := by
    intro l
    induction l with
    | nil => exact fun _ h => h
    | cons i l ih =>
      intro m hm
      apply ih
      dsimp only
      split
      · exact cellsWf_mputD hm _ _
      · exact hm
  unfold Tx.cellsWrite
  split
  · exact h
  · rw [if_neg (by simpa using hj)]
    exact go _ _ h

/-- A codeword reads as what was last put there, and every other as before. -/
theorem Tx.setDramWord_dramWord (t : Tx s0) (w v : Nat) (x : DramWord) :
    (t.setDramWord w x).cur.dramWord v = if v = w then x else t.cur.dramWord v := mget_mputD ..

/-! ## Reports leave the contents -/

theorem Tx.inc_mem (t : Tx s0) (i n b k : Nat) : (t.inc i n b k).cur.mem = t.cur.mem := t.put_mem _ _

theorem Tx.counter_mem (t : Tx s0) (i n : Nat) : (t.counter i n).cur.mem = t.cur.mem :=
  (Tx.inc_mem _ _ _ _ _).trans (t.setSets_mem _)

theorem Tx.count_mem (t : Tx s0) (i n b k : Nat) : (t.count i n b k).cur.mem = t.cur.mem := by
  unfold Tx.count
  cases counterOf i n b with
  | none => exact t.inc_mem _ _ _ _
  | some c => exact (Tx.counter_mem _ _ _).trans (t.inc_mem _ _ _ _)

theorem Tx.tally_mem (t : Tx s0) (i n b : Nat) : (t.tally i n b).cur.mem = t.cur.mem := t.count_mem i n b 1

theorem Tx.when_dram (t : Tx s0) (c : Bool) (f : Tx s0 → Tx s0) (hf : (f t).cur.mem.dram = t.cur.mem.dram) :
    (t.when c f).cur.mem.dram = t.cur.mem.dram := by
  unfold Tx.when; split
  · exact hf
  · rfl

theorem Tx.each_dram {α : Type} (l : List α) (f : Tx s0 → α → Tx s0)
    (hf : ∀ t x, (f t x).cur.mem.dram = t.cur.mem.dram) (t : Tx s0) : (t.each l f).cur.mem.dram = t.cur.mem.dram := by
  induction l generalizing t with
  | nil => rfl
  | cons a l ih => exact (ih (f t a)).trans (hf t a)

theorem Tx.dramBad_dram (t : Tx s0) (o : Nat) : (t.dramBad o).cur.mem.dram = t.cur.mem.dram := by
  show (t.tally 0x6200 0 0x19).cur.mem.dram = _
  rw [t.tally_mem]

theorem Tx.askSave_mem (t : Tx s0) (e w : Bool) : (t.askSave e w).cur.mem = t.cur.mem := by
  unfold Tx.askSave
  cases t.cur.store.run with
  | none => rfl
  | some r => rfl

theorem Tx.markDevice_dram (t : Tx s0) (d who : Nat) : (t.markDevice d who).cur.mem.dram = t.cur.mem.dram := by
  refine (congrArg Mem.dram (Tx.askSave_mem _ _ _)).trans ?_
  exact Tx.when_dram _ _ _ rfl

theorem Tx.autoMark_dram (t : Tx s0) (n d : Nat) : (t.autoMark n d).cur.mem.dram = t.cur.mem.dram := by
  simp only [Tx.autoMark]
  split
  · split
    · rfl
    · rw [Tx.markDevice_dram]; rfl
  · rfl

/-- Decoding a codeword reports its errors and leaves the contents. -/
theorem Tx.codeword_dram (t : Tx s0) (n o : Nat) (errs : List Nat) :
    (t.codeword n o errs).cur.mem.dram = t.cur.mem.dram := by
  have head (t : Tx s0) : ((((t.tally 0x6200 0 0x18).w 0x6200 0 0x1A o).flagBit 0x6200 0 0x21 2).memMsg 2 0xFF o).cur.mem.dram =
      t.cur.mem.dram := congrArg Mem.dram (t.tally_mem _ _ _)
  have each (l : List Nat) (f : Nat → Nat) (b : Nat) (t : Tx s0) :
      (t.each l (fun t j => t.tally 0x6210 (f j) b)).cur.mem.dram = t.cur.mem.dram :=
    Tx.each_dram _ _ (fun t x => congrArg Mem.dram (t.tally_mem _ _ _)) t
  have marked (l m : List Nat) : _ := (each m id 0x04 _).trans ((each l (symbolDevice n) 0x03 _).trans (head t))
  simp only [Tx.codeword]
  split
  · rfl
  · split
    · split <;> split
      all_goals rfl
    · split
      · split
        · split
          · rw [Tx.autoMark_dram]; exact marked _ _
          · exact marked _ _
        · exact marked _ _
      · exact t.dramBad_dram o

theorem Tx.delivered_dram (t : Tx s0) (w : Nat) (errs : List Nat) : (t.delivered w errs).2.cur.mem.dram = t.cur.mem.dram := by
  simp only [Tx.delivered]
  split
  · rfl
  · rfl

/-- A read leaves the contents. -/
theorem Tx.dramRead_dram (t : Tx s0) (w : Nat) (errs : List Nat) : (t.dramRead w errs).2.2.cur.mem.dram = t.cur.mem.dram := by
  simp only [Tx.dramRead]
  split
  · exact t.dramBad_dram _
  · exact (Tx.when_dram _ _ _ rfl).trans ((Tx.delivered_dram _ _ _).trans (t.codeword_dram _ _ _))

/-- A read tells a codeword uncorrectable exactly where it is (R384, R385). -/
theorem Tx.dramRead_lost (t : Tx s0) (w : Nat) (errs : List Nat) : (t.dramRead w errs).1 = t.cur.readLost w errs := by
  simp only [Tx.dramRead]
  split <;> simp_all

/-! ## Writes -/

/-- A write keeps the canonical form. -/
theorem Tx.dramWrite_wf (t : Tx s0) (w : Nat) (bytes : List (Option Byte)) (errs : List Nat)
    (h : dramWf t.cur.mem.dram = true) : dramWf (t.dramWrite w bytes errs).cur.mem.dram = true := by
  simp only [Tx.dramWrite]
  split
  · exact h
  · split
    · exact t.setDramWord_wf _ _ h
    · exact Tx.setDramWord_wf _ _ _ (by rw [Tx.dramRead_dram]; exact h)

/-- A write of one codeword leaves every other (R385). -/
theorem Tx.dramWrite_other (t : Tx s0) {w v : Nat} (bytes : List (Option Byte)) (errs : List Nat) (hv : v ≠ w) :
    (t.dramWrite w bytes errs).cur.dramWord v = t.cur.dramWord v := by
  simp only [Tx.dramWrite]
  split
  · rfl
  · split
    · exact (Tx.setDramWord_dramWord ..).trans (if_neg hv)
    · refine (Tx.setDramWord_dramWord ..).trans ((if_neg hv).trans ?_)
      rw [State.dramWord, Tx.dramRead_dram]; rfl

/-- A write of a whole codeword puts its bytes there with valid check symbols (R383, R385, R386). -/
theorem Tx.dramWrite_whole (t : Tx s0) (w : Nat) (bytes : Bytes) (errs : List Nat) (hn : bytes ≠ [])
    (hl : bytes.length = (t.cur.dramWord w).bytes.length) :
    (t.dramWrite w (bytes.map some) errs).cur.dramWord w = DramWord.of bytes := by
  obtain ⟨b, r, rfl⟩ := List.exists_cons_of_ne_nil hn
  have hz : ∀ (a c : Bytes), a.length = c.length → ((a.map some).zip c).map (fun p => p.1.getD p.2) = a := by
    intro a
    induction a with
    | nil => intro c _; rfl
    | cons x a ih =>
      intro c hc
      cases c with
      | nil => cases hc
      | cons y c => exact congrArg (x :: ·) (ih c (Nat.succ.inj hc))
  have hall : (List.map some (b :: r)).all Option.isSome = true := by
    simp only [List.all_map, List.all_eq_true]; intro x _; rfl
  have hnone : ¬ (List.map some (b :: r)).all Option.isNone = true := by simp
  simp only [Tx.dramWrite, if_neg hnone, if_pos hall]
  refine (Tx.setDramWord_dramWord ..).trans ((if_pos rfl).trans ?_)
  rw [hz _ _ hl]

/-- A read-modify-write whose read half is uncorrectable leaves the codeword uncorrectable (R385, R386). -/
theorem Tx.dramWrite_bad (t : Tx s0) (w : Nat) (bytes : List (Option Byte)) (errs : List Nat)
    (hb : t.cur.readLost w errs = true) (hn : bytes.all Option.isNone = false) (hs : bytes.all Option.isSome = false) :
    ((t.dramWrite w bytes errs).cur.dramWord w).bad = true := by
  simp only [Tx.dramWrite, hn, hs, Tx.dramRead_lost, hb]
  exact congrArg DramWord.bad ((Tx.setDramWord_dramWord ..).trans (if_pos rfl))

end Sys2Proof.Machine
end

