-- ==== Sys2Proof/Laws/Bytes.lean ====
section
/-! SUPPORT. Laws of little-endian bytes and of the frame check sequence. -/

namespace Sys2Proof.Machine
open Sys2Proof

@[simp] theorem leBytes_length (n v : Nat) : (leBytes n v).length = n := by
  induction n generalizing v with
  | zero => rfl
  | succ n ih => simp [leBytes, ih]

/-- The bytes of a number give it back, modulo their range. -/
theorem leNat_leBytes (n v : Nat) : leNat (leBytes n v) = v % 256 ^ n := by
  induction n generalizing v with
  | zero => simp [leBytes, leNat, Nat.mod_one]
  | succ n ih =>
    have h : (byte (v % 256)).toNat = v % 256 := by simp [byte]
    rw [leBytes, leNat, ih, h, Nat.pow_succ', Nat.mod_mul]

theorem crcBit_lt {p c : Nat} (hp : p < 2 ^ 32) (hc : c < 2 ^ 32) : crcBit p c < 2 ^ 32 := by
  unfold crcBit
  split
  · exact Nat.xor_lt_two_pow (by omega) hp
  · omega

theorem crcByte_lt {p c : Nat} (b : Byte) (hp : p < 2 ^ 32) (hc : c < 2 ^ 32) : crcByte p c b < 2 ^ 32 := by
  have hb : Nat.xor c b.toNat < 2 ^ 32 := Nat.xor_lt_two_pow hc (by have := b.isLt; omega)
  exact crcBit_lt hp (crcBit_lt hp (crcBit_lt hp (crcBit_lt hp (crcBit_lt hp (crcBit_lt hp (crcBit_lt hp (crcBit_lt hp hb)))))))

/-- A CRC-32 has 32 bits. -/
theorem crc32_lt (m : Bytes) : crc32 m < 2 ^ 32 := by
  have go : ∀ (l : Bytes) (c : Nat), c < 2 ^ 32 → l.foldl (crcByte 0xEDB88320) c < 2 ^ 32 := by
    intro l
    induction l with
    | nil => exact fun _ h => h
    | cons b l ih => exact fun c h => ih _ (crcByte_lt b (by decide) h)
  exact Nat.xor_lt_two_pow (go m _ (by decide)) (by decide)

/-- A frame that ends in its own check sequence passes the check (R200). -/
theorem crc_framed (g : Bytes) : let f := g ++ leBytes 4 (crc32 g)
    4 ≤ f.length ∧ leNat (f.drop (f.length - 4)) = crc32 (f.take (f.length - 4)) := by
  have h := crc32_lt g
  simp only [List.length_append, leBytes_length, Nat.add_sub_cancel, List.drop_left, List.take_left, leNat_leBytes]
  omega

end Sys2Proof.Machine
end

