-- ==== Sys2Proof/Tests/Slice0.lean ====
section
/-! SUPPORT. Tests: an ill-formed command for each check, values from outside the model, and for every statement a state and
operands that meet the hypotheses of each of its clauses. -/

open Sys2Proof Sys2Proof.Machine
namespace Sys2Proof.Tests

set_option Elab.async false

/-- The state after reset with some dictionary entries (index, instance, sub-index, value) set. -/
def regs (l : List (Nat × Nat × Nat × Nat)) : State :=
  { State.reset with dict := l.foldl (fun d p => mset (K p.1 p.2.1 p.2.2.1) p.2.2.2 d) [] }

/-- Engines that run. -/
def engOn : Engines := { Engines.init with running := true }

/-- A session with number 5 and a short key. -/
def sess0 : Session := ⟨5, [1, 2, 3], ⟨6, 0, 0, 0⟩, 0, [], [], 0, 0⟩

/-- Host 0 in a given state. -/
def host0 (x : HostSt) : Control := { Control.init with hosts := [(0, x)] }

/-! ## Well-formedness -/

/-- Operands that the well-formedness tests and the frames' witnesses share. -/
def op0 : OpFields := ⟨0, 0, 0, 0, 0, []⟩
def src0 : Source := ⟨0, 0, 0, 0⟩
def boot0 : BootIn := ⟨0, false, true, true, [], 0x41A00000, none, [], [], 0⟩

/-- A host number of 8 is refused, by every command that names a host. -/
theorem test_wf_host : ∀ c ∈ (
    [.write 8 op0, .read 8 op0 [], .stagedRead 8 op0, .readSegment 8 op0 [], .writeSegment 8 op0, .nop 8 op0,
      .sessionTimeout 8, .transferAbandon 8, .snapshotRelease 8, .notify 8, .stagedWrite 8 op0, .commit 8 [], .cancel 8 [],
      .discardStage 8 0 [], .save 8 [], .restoreDefaults 8 [], .keyWrite 8 0 [], .ownerWrite 8 0 [], .assignRanges 8 [],
      .keyframePush 8 [], .flushQueue 8 0 [], .transformWrite 8 0 [], .depthWrite 8 0 [], .repack 8 [], .setDataUpload 8 0 [],
      .setErase 8 0 [], .graftRequest 8 [], .bulkDelayWrite 8 0 [], .trellisSourceWrite 8 0 [], .nodeWrite 8 [],
      .bankCapture 8 [], .bankClear 8 [], .outputMapWrite 8 0 [], .pathQueryRead 8 0 0, .rateChange 8 [], .portEnable 8 0 [],
      .portDisable 8 0 [], .maskWrite 8 0 0 [], .ringDisable 8 0 [], .ringEnable 8 0 [], .receiveStreamEnable 8 0 [],
      .transmitStreamEnable 8 0 [], .streamDisable 8 false 0 [], .sdpWrite 8 0 [], .addressWrite 8 0 [], .rateWrite 8 [],
      .offsetWrite 8 [], .timebaseRestart 8 [], .triggerArm 8 0 [], .triggerDisarm 8 0 [], .hedgeEnable 8 [],
      .hedgeDisable 8 [], .channelEnable 8 0 [], .channelDisable 8 0 [], .clearLatch 8 0 [], .clearTripLog 8 [],
      .resynchronise 8 0 [], .compensationWrite 8 0 [], .openOutput 8 0 [], .closeOutput 8 0 [], .startRun 8 [],
      .abortRun 8 [], .rearm 8 [], .descriptionWrite 8 0 [], .chainEnable 8 0 [], .chainDisable 8 0 [], .parameterWrite 8 0 [],
      .packWrite 8 0 [], .packErase 8 0 [], .setHostFlags 8 [], .markDevice 8 0 [], .deviceReset 8 [] boot0,
      .controlProcessorReset 8 [], .tendingPoolReset 8 [], .networkReset 8 [], .firmwareImage 8 [], .nonce 8 [],
      .requestActive 8 [], .requestIdle 8 [], .requestStandby 8 [], .counterLatch 8 [], .traceEnable 8 [], .traceDisable 8 []] : List Instr),
    c.wf = false := by
  decide +kernel

/-- The first instance beyond each count is refused. -/
theorem test_wf_instance : ∀ c ∈ (
    [.discardStage 0 8 [], .keyWrite 0 8 [], .flushQueue 0 1024 [], .depthWrite 0 1024 [], .setDataUpload 0 1024 [],
      .setReady 1024, .setErase 0 1024 [], .graftStart 512, .graftFade 512, .graftEnd 512, .bulkDelayWrite 0 512 [],
      .trellisSourceWrite 0 256 [], .outputMapWrite 0 1560 [], .pathQueryRead 0 8 0, .portEnable 0 32 [], .portStart 32,
      .portDisable 0 32 [], .portRelease 32, .maskWrite 0 32 0 [], .fsyncActiveEdge 32 0 false 0 false,
      .frameComplete 32 ⟨[], [], 0, 0, false⟩, .portLost 32, .asrcLock 64 0, .asrcRelock 64 0, .receiveFrame 6 [] false 0,
      .pauseWatchdog 6, .linkUp 6 0, .linkDown 6, .ringDisable 0 4 [], .ringEnable 0 4 [], .receiveStreamEnable 0 256 [],
      .transmitStreamEnable 0 256 [], .streamDisable 0 false 256 [], .packetPush 256 false, .packetLaunch 256 false false,
      .arpResolved 6 0 0, .arpAgeOut 6 0, .igmpReport 6 0, .sdpWrite 0 256 [], .addressWrite 0 6 [], .ptpSync 6 [] 0 0 0,
      .ptpFollowUp 6 [], .ptpDelayResp 6 [], .ptpDelayReq 6 [] 0 0 0, .ptpAnnounce 6 [], .triggerArm 0 16 [],
      .triggerDisarm 0 16 [], .triggerFire 16 0, .capture 8 0, .channelEnable 0 24 [], .channelDisable 0 24 [], .channelOff 24,
      .channelStart 24, .startRampEnd 24, .senseFrame 24 0 0, .faultEdge 3 0, .faultIdentify 3 0, .retry 24, .clearLatch 0 24 [],
      .impedanceWindow 24, .settlingEnd 16, .noData 16, .compensationWrite 0 16 [], .compensationSwitch 16,
      .openOutput 0 512 [], .closeOutput 0 512 [], .descriptionWrite 0 256 [], .chainEnable 0 256 [], .chainDisable 0 256 [],
      .chainRelease 256, .parameterWrite 0 256 [], .runComplete 256 0 [] none, .missedRun 256, .packWrite 0 8 [],
      .packErase 0 8 [], .flagRaise 128, .lockTimeout 3 0, .neighbourRefresh 2 0 0 false, .alert 2, .replay 2 0, .scrub 2 0 [],
      .patrol 7 0 0 0, .markDevice 0 10 [], .safetyRaise ⟨256, 0⟩, .pdmDataResumed 16, .igmpV2FallbackEnd 6, .arpFail 6,
      .hedgeRampDownEnd 24] : List Instr),
    c.wf = false := by
  decide +kernel

/-- The last instance of each count is accepted. -/
theorem test_wf_last_instance : ∀ c ∈ (
    [.discardStage 0 7 [], .keyWrite 0 7 [], .flushQueue 0 1023 [], .depthWrite 0 1023 [], .setDataUpload 0 1023 [],
      .setReady 1023, .setErase 0 1023 [], .graftStart 511, .graftFade 511, .graftEnd 511, .bulkDelayWrite 0 511 [],
      .trellisSourceWrite 0 255 [], .outputMapWrite 0 1559 [], .pathQueryRead 0 7 0, .portEnable 0 31 [], .portStart 31,
      .portDisable 0 31 [], .portRelease 31, .maskWrite 0 31 0 [], .fsyncActiveEdge 31 0 false 0 false,
      .frameComplete 31 ⟨[], [], 0, 0, false⟩, .portLost 31, .asrcLock 63 0, .asrcRelock 63 0, .receiveFrame 5 [] false 0,
      .pauseWatchdog 5, .linkUp 5 0, .linkDown 5, .ringDisable 0 3 [], .ringEnable 0 3 [], .receiveStreamEnable 0 255 [],
      .transmitStreamEnable 0 255 [], .streamDisable 0 false 255 [], .packetPush 255 false, .packetLaunch 255 false false,
      .arpResolved 5 0 0, .arpAgeOut 5 0, .igmpReport 5 0, .sdpWrite 0 255 [], .addressWrite 0 5 [], .ptpSync 5 [] 0 0 0,
      .ptpFollowUp 5 [], .ptpDelayResp 5 [], .ptpDelayReq 5 [] 0 0 0, .ptpAnnounce 5 [], .triggerArm 0 15 [],
      .triggerDisarm 0 15 [], .triggerFire 15 0, .capture 7 0, .channelEnable 0 23 [], .channelDisable 0 23 [], .channelOff 23,
      .channelStart 23, .startRampEnd 23, .senseFrame 23 0 0, .faultEdge 2 0, .faultIdentify 2 0, .retry 23, .clearLatch 0 23 [],
      .impedanceWindow 23, .settlingEnd 15, .noData 15, .compensationWrite 0 15 [], .compensationSwitch 15,
      .openOutput 0 511 [], .closeOutput 0 511 [], .descriptionWrite 0 255 [], .chainEnable 0 255 [], .chainDisable 0 255 [],
      .chainRelease 255, .parameterWrite 0 255 [], .runComplete 255 0 [] none, .missedRun 255, .packWrite 0 7 [],
      .packErase 0 7 [], .flagRaise 127, .lockTimeout 2 0, .neighbourRefresh 1 0 0 false, .alert 1, .replay 1 0, .scrub 1 0 [],
      .patrol 6 0 0 0, .markDevice 0 9 [], .safetyRaise ⟨255, 0⟩, .pdmDataResumed 15, .igmpV2FallbackEnd 5, .arpFail 5,
      .hedgeRampDownEnd 23] : List Instr),
    c.wf = true := by
  decide +kernel

/-- One byte more than a Yexel transfer carries. -/
def long : Bytes := List.replicate 4194305 0

theorem test_wf_long : wfData long = false := by
  rw [wfData, long, List.length_replicate]; decide

/-- Data longer than a transfer is refused. -/
theorem test_wf_data (d : Bytes) (h : wfData d = false) : ∀ c ∈ (
    [.hspiWrite 0 d, .commit 0 d, .cancel 0 d, .discardStage 0 0 d, .save 0 d, .restoreDefaults 0 d, .keyWrite 0 0 d,
      .ownerWrite 0 0 d, .assignRanges 0 d, .keyframePush 0 d, .flushQueue 0 0 d, .transformWrite 0 0 d, .depthWrite 0 0 d,
      .repack 0 d, .setDataUpload 0 0 d, .setErase 0 0 d, .graftRequest 0 d, .bulkDelayWrite 0 0 d, .trellisSourceWrite 0 0 d,
      .nodeWrite 0 d, .bankCapture 0 d, .bankClear 0 d, .outputMapWrite 0 0 d, .rateChange 0 d, .portEnable 0 0 d,
      .portDisable 0 0 d, .maskWrite 0 0 0 d, .ringDisable 0 0 d, .ringEnable 0 0 d, .receiveStreamEnable 0 0 d,
      .transmitStreamEnable 0 0 d, .streamDisable 0 false 0 d, .sdpWrite 0 0 d, .addressWrite 0 0 d, .rateWrite 0 d,
      .offsetWrite 0 d, .timebaseRestart 0 d, .triggerArm 0 0 d, .triggerDisarm 0 0 d, .hedgeEnable 0 d, .hedgeDisable 0 d,
      .channelEnable 0 0 d, .channelDisable 0 0 d, .clearLatch 0 0 d, .clearTripLog 0 d, .resynchronise 0 0 d,
      .compensationWrite 0 0 d, .openOutput 0 0 d, .closeOutput 0 0 d, .startRun 0 d, .abortRun 0 d, .rearm 0 d,
      .descriptionWrite 0 0 d, .chainEnable 0 0 d, .chainDisable 0 0 d, .parameterWrite 0 0 d, .packWrite 0 0 d,
      .packErase 0 0 d, .setHostFlags 0 d, .markDevice 0 0 d, .deviceReset 0 d boot0, .controlProcessorReset 0 d,
      .tendingPoolReset 0 d, .networkReset 0 d, .firmwareImage 0 d, .nonce 0 d, .requestActive 0 d, .requestIdle 0 d,
      .requestStandby 0 d, .counterLatch 0 d, .traceEnable 0 d, .traceDisable 0 d] : List Instr), c.wf = false := by
  repeat refine List.forall_mem_cons.mpr ⟨by simp [Instr.wf, h], ?_⟩
  exact fun _ h => nomatch h

/-- Every field of an operation is held to its width. -/
theorem test_wf_fields : ∀ o ∈ [{ op0 with flags := 256 }, { op0 with idx := 65536 }, { op0 with sub := 256 },
    { op0 with rsv := 256 }, { op0 with inst := 65536 }], wfOp o = false := by
  decide +kernel

theorem test_wf_field_data (d : Bytes) (h : wfData d = false) : wfOp { op0 with data := d } = false := by simp [wfOp, h]

/-- A command with an operation that is not well formed is refused. -/
theorem test_wf_operation (o : OpFields) (h : wfOp o = false) : ∀ c ∈ (
    [.write 0 o, .read 0 o [], .stagedRead 0 o, .readSegment 0 o [], .writeSegment 0 o, .nop 0 o, .stagedWrite 0 o] : List Instr), c.wf = false := by
  simp [Instr.wf, h]

/-- A transport, an address and ports beyond their ranges are refused. -/
theorem test_wf_source : ∀ x ∈ [(⟨7, 0, 0, 0⟩ : Source), ⟨0, 4294967296, 0, 0⟩, ⟨0, 0, 65536, 0⟩, ⟨0, 0, 0, 65536⟩],
    wfSource x = false ∧ (Instr.open_ x []).wf = false ∧ (Instr.request x []).wf = false ∧ (Instr.close x []).wf = false := by
  decide +kernel

/-- Each command of ControlFrames completes from reset. -/
theorem meets_ControlFrames : ∀ c ∈ (
    [.read 0 op0 [], .stagedRead 0 op0, .readSegment 0 op0 [], .nop 0 op0, .sessionTimeout 0, .transferAbandon 0,
      .snapshotRelease 0, .hspiWrite 0 [], .hspiStatus 0, .hspiRead 0, .hspiUnknownCommand 0, .notify 0, .commit 0 [],
      .cancel 0 [], .discardStage 0 0 [], .commitLands, .planLands, .save 0 [], .autosave, .restoreDefaults 0 [], .keyWrite 0 0 [],
      .ownerWrite 0 0 [], .assignRanges 0 []] : List Instr),
    c.wf = true ∧ ∃ t, exec c State.reset = .next t := by
  repeat refine List.forall_mem_cons.mpr ⟨⟨by decide +kernel, _, rfl⟩, ?_⟩
  exact fun _ h => nomatch h

/-- Each command of SceneFrames completes from reset. -/
theorem meets_SceneFrames : ∀ c ∈ (
    [.keyframePush 0 [], .flushQueue 0 0 [], .transformWrite 0 0 [], .evaluationWindowOpen [], .evaluationWindowClose, .renderWindow [] [], .depthWrite 0 0 [],
      .depthChangeLands, .repack 0 [], .repackLands] : List Instr),
    c.wf = true ∧ ∃ t, exec c State.reset = .next t := by
  repeat refine List.forall_mem_cons.mpr ⟨⟨by decide +kernel, _, rfl⟩, ?_⟩
  exact fun _ h => nomatch h

/-- Each command of CorrectionFrames completes from reset. -/
theorem meets_CorrectionFrames : ∀ c ∈ (
    [.setDataUpload 0 0 [], .setReady 0, .setErase 0 0 [], .graftRequest 0 [], .graftStart 0, .graftFade 0, .graftEnd 0,
      .bulkPhase [] 0, .urgentPhase [] 0, .hopEvent, .bulkDelayWrite 0 0 [], .bulkCrossfade, .trellisSourceWrite 0 0 [],
      .nodeWrite 0 [], .bankCapture 0 [], .bankClear 0 [], .inputMapBoundary, .outputMapWrite 0 0 [], .outputMapLands,
      .pathQueryRead 0 0 0, .outputsRampDown] : List Instr),
    c.wf = true ∧ ∃ t, exec c State.reset = .next t := by
  repeat refine List.forall_mem_cons.mpr ⟨⟨by decide +kernel, _, rfl⟩, ?_⟩
  exact fun _ h => nomatch h

/-- Each command of SerialFrames completes from reset. -/
theorem meets_SerialFrames : ∀ c ∈ (
    [.portEnable 0 0 [], .portStart 0, .portDisable 0 0 [], .portRelease 0, .maskWrite 0 0 0 [],
      .fsyncActiveEdge 0 0 false 0 false, .frameComplete 0 ⟨[], [], 0, 0, false⟩, .portLost 0, .asrcLock 0 0, .asrcRelock 0 0,
      .pllLock 0, .pllUnlock 0, .wclkInLost, .wclkInEdge 0 0] : List Instr),
    c.wf = true ∧ ∃ t, exec c State.reset = .next t := by
  repeat refine List.forall_mem_cons.mpr ⟨⟨by decide +kernel, _, rfl⟩, ?_⟩
  exact fun _ h => nomatch h

/-- Each command of NetworkFrames completes from reset. -/
theorem meets_NetworkFrames : ∀ c ∈ (
    [.receiveFrame 0 [] false 0, .pauseWatchdog 0, .linkUp 0 0, .linkDown 0, .ringDisable 0 0 [], .ringEnable 0 0 [],
      .receiveStreamEnable 0 0 [], .transmitStreamEnable 0 0 [], .streamDisable 0 false 0 [], .packetPush 0 false,
      .packetLaunch 0 false false, .arpResolved 0 0 0, .arpAgeOut 0 0, .arpFail 0, .igmpReport 0 0, .igmpV2FallbackEnd 0,
      .sdpWrite 0 0 [], .addressWrite 0 0 []] : List Instr),
    c.wf = true ∧ ∃ t, exec c State.reset = .next t := by
  repeat refine List.forall_mem_cons.mpr ⟨⟨by decide +kernel, _, rfl⟩, ?_⟩
  exact fun _ h => nomatch h

/-- Each command of TimeFrames completes from reset. -/
theorem meets_TimeFrames : ∀ c ∈ (
    [.rateWrite 0 [], .offsetWrite 0 [], .step, .timebaseRestart 0 [], .ptpSync 0 [] 0 0 0, .ptpFollowUp 0 [],
      .ptpDelayResp 0 [], .ptpDelayReq 0 [] 0 0 0, .ptpAnnounce 0 [], .ptpSend 0 0, .announceTimeout, .ppsEdge 0, .ppsLost,
      .triggerArm 0 0 [], .triggerDisarm 0 0 [], .triggerFire 0 0, .capture 0 0, .delayReqSend 0, .sprinklerData [], .nak [],
      .nakRepeat, .gapSkip, .snapshotRequest [], .snapshotRequestRepeat, .snapshot [], .heartbeat, .heartbeatReceived [],
      .status, .statusReceived [], .promoted] : List Instr),
    c.wf = true ∧ ∃ t, exec c State.reset = .next t := by
  repeat refine List.forall_mem_cons.mpr ⟨⟨by decide +kernel, _, rfl⟩, ?_⟩
  exact fun _ h => nomatch h

/-- Each command of HedgeFrames completes from reset. -/
theorem meets_HedgeFrames : ∀ c ∈ (
    [.hedgeEnable 0 [], .hedgeDisable 0 [], .hedgeRampDownEnd 0, .modEnFall, .channelEnable 0 0 [], .channelDisable 0 0 [],
      .channelOff 0, .channelStart 0, .startRampEnd 0, .senseFrame 0 0 0, .faultEdge 0 0, .faultIdentify 0 0, .retry 0,
      .clearLatch 0 0 [], .clearTripLog 0 [], .hedgeBlock, .impedanceWindow 0, .newCarrier, .oldCarrierStop,
      .resynchronise 0 0 [], .decimatorReset, .settlingEnd 0, .noData 0, .pdmDataResumed 0, .compensationWrite 0 0 [],
      .compensationSwitch 0, .openOutput 0 0 [], .closeOutput 0 0 [], .startRun 0 [], .stimulusStart, .captureAnalysis,
      .runDone, .abortRun 0 [], .freeze 0, .postEnd, .rearm 0 []] : List Instr),
    c.wf = true ∧ ∃ t, exec c State.reset = .next t := by
  repeat refine List.forall_mem_cons.mpr ⟨⟨by decide +kernel, _, rfl⟩, ?_⟩
  exact fun _ h => nomatch h

/-- Each command of PoolFrames completes from reset. -/
theorem meets_PoolFrames : ∀ c ∈ (
    [.descriptionWrite 0 0 [], .chainEnable 0 0 [], .chainDisable 0 0 [], .chainRelease 0, .parameterWrite 0 0 [],
      .runComplete 0 0 [] none, .missedRun 0, .packWrite 0 0 [], .packErase 0 0 [], .flagRaise 0, .setHostFlags 0 [],
      .lockTimeout 0 0, .refresh false 0, .neighbourRefresh 0 0 0 false, .alert 0, .replay 0 0, .zqCalibration false 0,
      .scheduledRetraining false [] [], .scrub 0 0 [], .selfRefreshEntry 0, .markDevice 0 0 []] : List Instr),
    c.wf = true ∧ ∃ t, exec c State.reset = .next t := by
  repeat refine List.forall_mem_cons.mpr ⟨⟨by decide +kernel, _, rfl⟩, ?_⟩
  exact fun _ h => nomatch h

/-- Each command of SystemFrames completes from reset. -/
theorem meets_SystemFrames : ∀ c ∈ (
    [.supplyLoss, .firmwareImage 0 [], .nonce 0 [], .reportSigned 0, .standbyEntry, .thermalRead 0, .monitorSample [] [],
      .marginPlan [], .vreqStep 0, .safetyRaise ⟨0, 0⟩, .ageingTelemetrySave, .counterLatch 0 [], .traceEnable 0 [],
      .traceDisable 0 [], .traceSync, .counterSnapshot] : List Instr),
    c.wf = true ∧ ∃ t, exec c State.reset = .next t := by
  repeat refine List.forall_mem_cons.mpr ⟨⟨by decide +kernel, _, rfl⟩, ?_⟩
  exact fun _ h => nomatch h

/-- Each command of WideFrames completes from reset. -/
theorem meets_WideFrames : ∀ c ∈ (
    [.periodStart ⟨[], [], [], 0, [], []⟩, .rateChange 0 [], .enginesStop, .enginesRestart, .patrol 0 0 0 0, .controlProcessorReset 0 [],
      .controlResetComplete, .tendingPoolReset 0 [], .networkReset 0 [], .watchdog, .requestActive 0 [], .requestIdle 0 [],
      .requestStandby 0 []] : List Instr),
    c.wf = true ∧ ∃ t, exec c State.reset = .next t := by
  repeat refine List.forall_mem_cons.mpr ⟨⟨by decide +kernel, _, rfl⟩, ?_⟩
  exact fun _ h => nomatch h

/-! ## Values from outside the model -/

/-- The check value of CRC-32 (IEEE 802.3) over the nine digits. -/
theorem test_crc32 : crc32 [0x31, 0x32, 0x33, 0x34, 0x35, 0x36, 0x37, 0x38, 0x39] = 0xCBF43926 := by decide +kernel

/-- FIPS 180-4's example: SHA-256 of "abc". -/
theorem test_sha256 : beNat (sha256 [0x61, 0x62, 0x63]) =
    0xBA7816BF8F01CFEA414140DE5DAE2223B00361A396177A9CB410FF61F20015AD := by decide +kernel

/-- RFC 4231's second case of HMAC-SHA-256. -/
theorem test_hmac : beNat (hmacSha256 [0x4A, 0x65, 0x66, 0x65]
    [0x77, 0x68, 0x61, 0x74, 0x20, 0x64, 0x6F, 0x20, 0x79, 0x61, 0x20, 0x77, 0x61, 0x6E, 0x74, 0x20, 0x66, 0x6F, 0x72, 0x20, 0x6E,
      0x6F, 0x74, 0x68, 0x69, 0x6E, 0x67, 0x3F]) =
    0x5BDCC146BF60754E6A042426089575C75A003F089D2739839DEC58B964EC3843 := by decide +kernel

/-- FIPS 180-4's example: SHA-384 of "abc". -/
theorem test_sha384 : beNat (sha384 [0x61, 0x62, 0x63]) =
    0xCB00753F45A35E8BB5A03D699AC65007272C32AB0EDED1631A8B605A43FF5BED8086072BA1E7CC2358BAECA134C825A7 := by decide +kernel

/-- Twice the base point of P-384, as tables of the curve's multiples give it. -/
theorem test_p384 : (ecAdd (some p384Base) (some p384Base)).map (·.1) =
    some 0x8D999057BA3D2D969260045C55B97F089025959A6F434D651D207D19FB96E9E4FE0E86EBE0E64F85B96A9C75295DF61 := by decide +kernel

/-- The worked example of Table 14.5. -/
theorem test_dram_map : dramMap 0x123456780 = ⟨1, 0x91A2, 1, 1, 224, 0⟩ := by decide +kernel

/-- 64 data symbols with their check symbols are a codeword of the polynomial of R383; with an error in one symbol they are not. -/
theorem test_rs : rsSyndromes ((List.range 64).map byte ++ rsCheck ((List.range 64).map byte)) = List.replicate 16 0 ∧
    rsSyndromes ((List.range 64).map byte ++ rsCheck ((List.range 64).map byte |>.set 5 0)) ≠ List.replicate 16 0 := by
  decide +kernel

/-- Of a word of every SRAM region one wrong bit is corrected and two are detected (R378), bits at the ends and in the middle. -/
theorem test_sec_ded : ∀ r < 7, ∀ i ∈ [0, 7, 23], ∀ j ∈ [1, 24, 29], secDecode r (2 ^ i) = 1 ∧ secDecode r (2 ^ j) = 1 ∧
    secDecode r (2 ^ i + 2 ^ j) = 2 := by decide +kernel

/-- The worked example of chapter 4 (R95 to R100): ramp, coefficients, interpolated value, product. -/
theorem test_ramp : rampGain 741455 741120 5 = 741350 ∧ rampGain 214817 214881 5 = 214837 := by decide +kernel
theorem test_taps : lagrange 53 = [-205766, 3598962, 939630, -138522] := by decide +kernel
theorem test_sprig : sprigProduct 2115447 741350 = 23930155 := by decide +kernel
theorem test_sprig_sample :
    ({ State.reset with render := { Render.init with
        cells := [(148, 2120000), (149, 2150000), (150, 2100000), (151, 2000000)] } }).sprigSample []
      (0, 4096, 0, 1000) 0 741455 741120 214817 214881 1000 5 = ⟨23930155, false, false, []⟩ := by decide +kernel

/-- The worked example of R278: the carrier for three protected frequencies. -/
theorem test_carrier : (regs [(0x5900, 0, 1, 1), (0x5900, 0, 2, 770000), (0x5900, 1, 1, 1), (0x5900, 1, 2, 1539000),
    (0x5900, 2, 1, 1), (0x5900, 2, 2, 6135000), (0x5900, 2, 3, 15000)]).carrier = (367000, false) := by decide +kernel

/-- The worked example of chapter 8: cells of a receive region of 8 channels, 250 µs packets and 1,000 µs of link offset. -/
theorem test_cells : (regs [(0x4A00, 12, 0x0B, 8), (0x4A00, 12, 0x0D, 1), (0x4A00, 12, 0x0E, 1000)]).rxCells 12 = 14 := by
  decide +kernel

/-- The worked example of chapter 5: committed taps of 17 outputs with a set of 4,096 taps. -/
theorem test_taps_committed :
    (regs ((0x3A00, 12, 5, 4096) :: (List.range 17).map (fun k => (0x3800, k, 1, 12)))).taps = 196352 := by decide +kernel

/-- The worked example of R433: the header and the two operations of the request of host 2. -/
theorem test_request : opsOf 2 [0x02, 0x00, 0x00, 0x38, 0x04, 0x00, 0x69, 0x00, 0x04, 0x00, 0x00, 0x00, 0x00, 0x00, 0xC0, 0xC0,
      0x02, 0x00, 0x00, 0x13, 0x01, 0x00, 0x00, 0x00, 0x08, 0x00, 0x00, 0x00, 0x80, 0x3B, 0x04, 0xFB, 0x36, 0x4A, 0x00, 0x00] =
    some [([0x02, 0x00, 0x38, 0x04, 0x00, 0x69, 0x00], ⟨0, 0x3800, 0x04, 0, 105, [0x00, 0x00, 0xC0, 0xC0]⟩),
      ([0x02, 0x00, 0x13, 0x01, 0x00, 0x00, 0x00],
        ⟨0, 0x1300, 0x01, 0, 0, [0x80, 0x3B, 0x04, 0xFB, 0x36, 0x4A, 0x00, 0x00]⟩)] := by decide +kernel

/-- The worked example of chapter 18: the trace message of a trip of MOD13. -/
theorem test_trace : traceBytes 0x00000123456789AB 365 false [0x0D, 0x01, 0x04, 0x01, 0x66, 0x0C, 0x00, 0x00] =
    [0xDB, 0x22, 0xAB, 0x89, 0x0D, 0x01, 0x04, 0x01, 0x66, 0x0C, 0x00, 0x00] := by decide +kernel

/-- The worked example of R485: 740 ps at code 30 with F(18) = 1.250 fits 940 ps, with F(17) = 1.280 it does not. -/
theorem test_plan : let s := regs [(0x6610 + 30, 0, 1, 0x3F800000), (0x6610 + 18, 0, 1, 0x3FA00000), (0x6610 + 17, 0, 1, 0x3FA3D70A)]
    s.codeFits 30 18 0x44390000 = true ∧ s.codeFits 30 17 0x44390000 = false := by decide +kernel

/-- A keyframe of the time of a waiting one takes its place (R48). -/
theorem test_keyframe : ∀ a b : Keyframe, a.time = b.time → insertKf a [b] = (true, [a]) := by
  intro a b h; simp [insertKf, h]

/-- The level of an object at −130 dB is silence (R37). -/
theorem test_level : objectLevel 0xC3020000 0 = 0 := by decide +kernel

/-- A magic packet holds six bytes of 0xFF and then the address sixteen times (R203). -/
theorem test_wake_magic : isMagic [2, 0, 0, 0, 0, 4]
      ([1] ++ List.replicate 6 0xFF ++ (List.replicate 16 ([2, 0, 0, 0, 0, 4] : Bytes)).flatten) = true ∧
    isMagic [2, 0, 0, 0, 0, 4]
      (List.replicate 6 0xFF ++ (List.replicate 15 ([2, 0, 0, 0, 0, 4] : Bytes)).flatten ++ List.replicate 6 0) = false := by
  decide +kernel

/-- A wake pattern is compared where its mask is 1; an empty mask matches nothing (R203, Table 8.10). -/
theorem test_wake_pattern : matchesPattern [7, 8, 9] [0x05] [7, 0, 9] = true ∧ matchesPattern [7, 8, 9] [0x02] [7, 0, 9] = false ∧
    matchesPattern [7, 8, 9] [0x00] [7, 8, 9] = false ∧ matchesPattern [7, 8, 9] [0x08] [7, 8, 9] = false := by
  decide +kernel

/-- A queue is served in its order. -/
theorem test_step : ∃ t, step { State.reset with pending := [.hopEvent, .wclkInLost] } = .next t ∧ t.pending = [.wclkInLost] :=
  ⟨_, rfl, by decide +kernel⟩

/-- The table gives no bits: no word spells a command. -/
theorem test_decode : decodeTableWord 8 0 = none := rfl

/-! ## Witnesses: a state and operands that meet the hypotheses of each clause of the statements

meets_<Name>_<i> is for the clause i, counted from 0, of Obligations.<Name>. -/

def bytes0 : Bytes := [1, 0, 0, 0, 0, 0, 0, 0, 1, 0, 0, 0, 16, 0, 0, 0, 0, 1, 2, 3, 4, 5, 6, 7, 8, 9, 10, 11, 12, 13, 14, 15,
    91, 73, 221, 6, 127, 183, 136, 246, 46, 93, 80, 48, 252, 147, 62, 198]
def bytes1 : Bytes := [1, 2, 0, 0, 5, 0, 0, 0, 1, 0, 0, 0, 24, 0, 2, 0, 6, 0, 0, 0, 0, 0, 0, 0, 0, 0, 0, 0, 1, 0, 16, 64, 1, 0,
    31, 0, 0, 0, 0, 0, 129, 190, 230, 32, 75, 102, 102, 192, 137, 100, 122, 169, 191, 234, 209, 83]
def bytes2 : Bytes := [1, 5, 0, 0, 5, 0, 0, 0, 2, 0, 0, 0, 0, 0, 0, 0, 249, 167, 196, 4, 92, 93, 106, 200, 31, 77, 255, 227,
    237, 53, 47, 17]
def bytes3 : Bytes := [118, 61, 48, 13, 10, 111, 61, 45, 32, 49, 32, 49, 32, 73, 78, 32, 73, 80, 52, 32, 49, 48, 46, 48, 46, 48,
    46, 49, 13, 10, 115, 61, 120, 13, 10, 99, 61, 73, 78, 32, 73, 80, 52, 32, 50, 51, 57, 46, 49, 46, 50, 46, 51, 47, 51, 50,
    13, 10, 116, 61, 48, 32, 48, 13, 10, 109, 61, 97, 117, 100, 105, 111, 32, 53, 48, 48, 54, 32, 82, 84, 80, 47, 65, 86, 80,
    32, 57, 55, 13, 10, 97, 61, 114, 116, 112, 109, 97, 112, 58, 57, 55, 32, 76, 50, 52, 47, 52, 56, 48, 48, 48, 47, 56, 13, 10,
    97, 61, 112, 116, 105, 109, 101, 58, 49, 13, 10]
def bytes4 : Bytes := [0, 1, 2, 3, 4, 5, 6, 7, 8, 9, 10, 11, 12, 13, 14, 15, 16, 17, 18, 19, 20, 21, 22, 23, 24, 25, 26, 27, 28,
    29, 30, 31]
def bytes5 : Bytes := [1, 0, 0, 0, 1, 255, 1, 1, 1, 0, 0, 0, 52, 0, 0, 0, 0, 0, 0, 0, 0, 0, 0, 0, 0, 0, 0, 0, 0, 0, 0, 0, 0, 0,
    0, 0, 2, 0, 1, 1, 4, 0, 0, 0, 0, 16, 0, 0, 0, 0, 64, 0]
def bytes6 : Bytes := [1, 0, 0, 0, 1, 255, 1, 1, 1, 0, 0, 0, 52, 0, 0, 0, 0, 0, 0, 0, 0, 0, 0, 0, 0, 0, 0, 0, 0, 0, 0, 0, 0, 0,
    0, 0, 127, 0, 1, 1, 4, 0, 0, 0, 0, 16, 0, 0, 0, 0, 64, 0]
def packet0 : Packet := ⟨480, 348, [0, 1, 2], 7, List.replicate 48 [1, 2], 0⟩
def st0 : State :=
  { regs [] with
      ctl := host0 { HostSt.init with stage := [(K 0x3C00 0 0x02, [3])], sess := some sess0 } }
def st1 : State :=
  { regs [] with
      clock := 99
      ctl := host0 { HostSt.init with stage := [(K 0x3C00 0 0x02, [3])], sess := some sess0 } }
def st2 : State :=
  { regs [(0x1000, 0x0, 0x1, 1), (0x1000, 0x0, 0x5, 7), (0x1001, 0x0, 0x7, 1)] with
      power := { Power.init with stage := 11 }
      ctl := { Control.init with spiIn := [bytes0] } }
def st3 : State :=
  { regs [(0x1000, 0x0, 0x1, 1)] with
      power := { Power.init with stage := 11 }
      ctl := { host0 { HostSt.init with sess := some sess0 } with spiIn := [bytes1] } }
def st4 : State :=
  { regs [(0x1000, 0x0, 0x1, 1)] with
      power := { Power.init with stage := 11 }
      ctl := { host0 { HostSt.init with sess := some sess0 } with spiIn := [bytes2] } }
def st5 : State :=
  { regs [] with
      clock := secC 10
      ctl := host0 { HostSt.init with xfer := some ⟨0, 1, [], 0⟩ } }
def st6 : State :=
  { regs [] with
      clock := secC 10
      ctl := host0 { HostSt.init with snap := some ⟨0, [], 0⟩ } }
def st7 : State :=
  { regs [] with
      clock := msC 1000
      ctl := host0 { HostSt.init with sess := some sess0, recs := [⟨1, 0, 0, 0, 0, 0, 0⟩] } }
def st8 : State :=
  { regs [] with
      power := { Power.init with stage := 11 }
      ctl := { Control.init with spiOut := [[1, 2], [3]] } }
def st9 : State :=
  { regs [] with
      ctl := { host0 { HostSt.init with stage := [(K 0x3C00 0 0x02, [3])], sess := some sess0 } with commit := some ⟨0, 33, false, 0, false, false⟩ } }
def st10 : State :=
  { regs [] with
      now := 40
      ctl := { host0 { HostSt.init with stage := [(K 0x3C00 0 0x02, [3])], sess := some sess0 } with commit := some ⟨0, 40, false, 80, false, false⟩ } }
def st11 : State :=
  { regs [] with
      now := 80
      ctl := { host0 { HostSt.init with stage := [(K 0x3C00 0 0x02, [3])], sess := some sess0 } with commit := some ⟨0, 40, true, 80, true, false⟩ } }
def st12 : State :=
  { regs [(0x1400, 0x0, 0x3, 100)] with
      clock := msC 100
      store := { Store.init with changed := some 0 } }
def st13 : State :=
  { regs [] with
      store := { Store.init with run := some ⟨1, { Image.none_ with bytes := 100 }, 7, false, none, [], false, false⟩ } }
def st14 : State :=
  { regs [] with
      store := { Store.init with run := some ⟨1, { Image.none_ with bytes := 100 }, 7, true, none, [], false, false⟩ } }
def st15 : State :=
  { regs [] with
      scene := { Scene.init with accNext := 4, tracks := [(3, { emptyTrack with queue := [⟨9, 2, 0, 0, 0, implicitVals⟩] })] } }
def st16 : State :=
  { regs [] with
      now := 32
      engines := engOn
      geo := { Geo.init with last := some 48, report := some ⟨[], [], [], 0, 0⟩ } }
def st17 : State :=
  { regs [] with
      now := 100
      engines := engOn
      render := { Render.init with pend := [⟨7, 480, 0, 96⟩, ⟨8, 480, 960, 112⟩] } }
def st18 : State :=
  { regs [(0x3400, 0x0, 0x7, 1)] with
      now := 96
      engines := engOn
      render := { Render.init with repack := some 96 } }
def st19 : State :=
  { regs [(0x3a00, 0x5, 0x3, 2), (0x3a00, 0x5, 0x4, 9)] with
      now := 40
      engines := engOn
      corr := { Corr.init with outs := [(3, { OutChain.init with pend := some (5, 1, 6, 33) })] } }
def st20 : State :=
  { regs [(0x3a00, 0x5, 0x3, 2), (0x3a00, 0x5, 0x4, 9), (0x3800, 0x3, 0xa, 2)] with
      now := 43
      corr := { Corr.init with outs := [(3, { OutChain.init with run := some ⟨0, 5, 33, 10, 64, 1⟩ })] } }
def st21 : State :=
  { regs [(0x3a00, 0x5, 0x3, 2), (0x3a00, 0x5, 0x4, 9), (0x3800, 0x3, 0xa, 3)] with
      now := 200
      corr := { Corr.init with outs := [(3, { OutChain.init with run := some ⟨0, 5, 33, 10, 64, 1⟩ })] } }
def st22 : State :=
  { regs [(0x3a00, 0x5, 0x3, 2), (0x3a00, 0x5, 0x4, 900), (0x3800, 0x3, 0x1, 5)] with
      now := 269
      engines := engOn
      corr := { Corr.init with outs := [(3, { OutChain.init with a := SetChain.fresh 5 0 })] } }
def st23 : State :=
  { regs [] with
      now := 100
      engines := engOn
      corr := { Corr.init with outs := [(4, { OutChain.init with bulkP := some ⟨96, 96, 50, false⟩ })] } }
def st24 : State :=
  { regs [] with
      maps := { Maps.init with nodes := [(257, ⟨5, true, 0, 0⟩)], banks := [(3, [(1, 2)])] } }
def st25 : State :=
  { regs [] with
      now := 96
      engines := engOn
      maps := { Maps.init with ins := [(5, { InMap.init with pend := [(90, 1, 0x01000000), (95, 3, 1), (96, 1, 7)] })] } }
def st26 : State :=
  { regs [] with
      now := 100
      maps := { Maps.init with dests := [(1559, { OutDest.init with pend := some (0x01000000, 96) })] } }
def st27 : State :=
  { regs [] with
      now := 176
      engines := { engOn with rampB := some 112, cause := 1, newRate := 96000 } }
def st28 : State :=
  { regs [] with
      now := 176
      engines := { Engines.init with stepTo := some (-5), cause := 2 } }
def st29 : State :=
  { regs [(0x6500, 0x0, 0x1, 1)] with
      now := 177
      engines := { Engines.init with cause := 1 } }
def st30 : State :=
  { regs [(0x4000, 0x1f, 0x1, 1)] with
      now := 112
      engines := engOn
      serial := { Serial.init with ports := [(31, { Port.init with startAt := some 112 })] } }
def st31 : State :=
  { regs [(0x4000, 0x1f, 0x1, 1), (0x4010, 0x1f, 0x1, 1)] with
      now := 112
      engines := engOn
      serial := { Serial.init with ports := [(31, { Port.init with sent := [1, 2] })] } }
def st32 : State :=
  { regs [] with
      now := 200
      engines := engOn
      serial := { Serial.init with ports := [(3, { Port.init with closing := true, outFifo := [(1, [])] })] } }
def st33 : State :=
  { regs [(0x4000, 0x3, 0x1, 1), (0x4010, 0x3, 0x1, 2)] with
      now := 101
      clock := 2100000
      engines := engOn
      serial := { Serial.init with ports := [(3, { Port.init with begun := [(⟨some 100, 3, false, 5⟩ : Begun)], nextS := some 101, outFifo := [(99, [1, 2])] })] } }
def st34 : State :=
  { regs [(0x4000, 0x3, 0x1, 1), (0x4010, 0x3, 0x1, 2)] with
      now := 101
      clock := 2100000
      engines := engOn
      serial := { Serial.init with ports := [(3, { Port.init with begun := [(⟨some 100, 3, false, 5⟩ : Begun), (⟨some 101, 3, false, 9⟩ : Begun)] })] } }
def st35 : State :=
  { regs [(0x4000, 0x3, 0x1, 1), (0x4010, 0x3, 0x1, 2)] with
      now := 101
      engines := engOn
      serial := { Serial.init with ports := [(3, { Port.init with inFifo := [⟨1, 3, [], 0⟩], outFifo := [(1, [])] })] } }
def st36 : State :=
  { regs [(0x4000, 0x1f, 0x6, 0), (0x4000, 0x1f, 0x1, 1), (0x4010, 0x1f, 0x1, 1)] with
      now := 99
      engines := engOn }
def st37 : State :=
  { regs [(0x4800, 0x0, 0x1, 1), (0x4800, 0x0, 0x7, 1), (0x4800, 0x0, 0x8, 1000)] with
      engines := engOn }
def st38 : State :=
  { regs [(0x4800, 0x2, 0x6, 100)] with
      clock := usC 100
      net := { Net.init with macs := [(2, { MacSt.init with pauseFrom := some 0, pauseUntil := usC 200 })] } }
def st39 : State :=
  { regs [] with
      ctl := host0 { HostSt.init with sess := some { sess0 with src := ⟨0, 1, 2, 6000⟩ } } }
def st40 : State :=
  { regs [(0x4800, 0x0, 0x1, 1), (0x4800, 0x0, 0x7, 1), (0x4800, 0x0, 0x8, 1000)] with
      clock := 3 }
def st41 : State :=
  { regs [(0x4c00, 0x9, 0x1, 1), (0x4c00, 0x9, 0x14, 2), (0x4c00, 0x9, 0x4, 4009754625), (0x4c00, 0x9, 0x1a, 65535)] with
      net := { Net.init with tx := [(9, { TxStream.init with nextX := some 480, buf := (List.range 50).map (fun i => (480 + i, [1, 2])), queue := [⟨1, 2, [], 4, [], 0⟩] })] } }
def st42 : State :=
  { regs [(0x4800, 0x0, 0x1, 1), (0x4800, 0x0, 0x7, 1), (0x4800, 0x0, 0x8, 1000), (0x4c00, 0x9, 0x1, 1), (0x4c00, 0x9, 0x14, 2),
      (0x4c00, 0x9, 0x4, 4009754625), (0x4c00, 0x9, 0x1a, 65535), (0x4900, 0x0, 0x4, 9)] with
      clock := msC 11 + usC 1
      net := { Net.init with tx := [(9, { TxStream.init with launchX := some 480, queue := [packet0, packet0] })] } }
def st43 : State :=
  { regs [(0x4800, 0x0, 0x1, 1), (0x4800, 0x0, 0x7, 1), (0x4800, 0x0, 0x8, 1000)] with
      engines := engOn
      now := 100 }
def st44 : State :=
  { regs [(0x4800, 0x0, 0x1, 1), (0x4800, 0x0, 0x7, 1), (0x4800, 0x0, 0x8, 1000)] with
      now := 100 }
def st45 : State :=
  { regs [(0x4800, 0x0, 0x1, 1), (0x4800, 0x0, 0x7, 1), (0x4800, 0x0, 0x8, 1000), (0x4c00, 0x7, 0x4, 4009754625), (0x4c00, 0x7,
      0x1a, 5)] with
      engines := engOn
      now := 100 }
def st46 : State :=
  { regs [(0x4800, 0x0, 0x1, 1), (0x4800, 0x0, 0x7, 1), (0x4800, 0x0, 0x8, 1000), (0x4a00, 0x7, 0x1, 1), (0x4a00, 0x7, 0x12, 2),
      (0x4900, 0x0, 0x3, 12)] with
      engines := engOn
      now := 100
      net := { Net.init with rx := [(7, { RxStream.init with cells := 12 })] } }
def st47 : State :=
  { regs [(0x4800, 0x0, 0x1, 1), (0x4800, 0x0, 0x7, 1), (0x4800, 0x0, 0x8, 1000), (0x4c00, 0x9, 0x1, 1), (0x4c00, 0x9, 0x14, 2),
      (0x4c00, 0x9, 0x4, 4009754625), (0x4c00, 0x9, 0x1a, 65535), (0x4900, 0x0, 0x4, 3)] with
      engines := engOn
      now := 100
      net := { Net.init with tx := [(9, { TxStream.init with launchX := some 480, queue := [packet0] })] } }
def st48 : State :=
  { regs [] with
      clock := 9
      net := { Net.init with macs := [(2, { MacSt.init with arp := [⟨1, [1, 2, 3, 4, 5, 6], 0⟩, ⟨7, [1, 2, 3, 4, 5, 6], 0⟩] })] } }
def st49 : State :=
  { regs [] with
      clock := secC 300
      net := { Net.init with macs := [(2, { MacSt.init with arp := [⟨1, [1, 2, 3, 4, 5, 6], 0⟩, ⟨7, [1, 2, 3, 4, 5, 6], 5⟩] })] } }
def st50 : State :=
  { regs [(0x4c00, 0x9, 0x1, 1), (0x4c00, 0x9, 0x14, 1), (0x4c00, 0x9, 0x4, 167772161), (0x4c00, 0x9, 0x2, 3)] with
      clock := secC 3 }
def st51 : State :=
  { regs [(0x4800, 0x2, 0x1, 1), (0x4800, 0x2, 0x7, 1), (0x4800, 0x2, 0x8, 1000), (0x5001, 0x0, 0x1, 1), (0x5001, 0x0, 0x5,
      2)] with
      clock := secC 3
      net := { Net.init with macs := [(2, { MacSt.init with reports := [(0xE0000181, 5)] })] } }
def st52 : State :=
  { regs [] with
      clock := 5
      net := { Net.init with macs := [(2, { MacSt.init with v2Until := some 5 })] } }
def st53 : State :=
  { regs [(0x4800, 0x2, 0x1, 1), (0x4800, 0x2, 0x7, 1), (0x4800, 0x2, 0x8, 1000)] with
      clock := 5
      net := { Net.init with macs := [(2, { MacSt.init with arp := [⟨1, [1, 2, 3, 4, 5, 6], 0⟩] })] } }
def st54 : State :=
  { regs [(0x5000, 0x0, 0x5, 1), (0x5000, 0x0, 0x7, 0), (0x5000, 0x0, 0x17, 1)] with
      clock := secC 2
      time := { TimeSt.init with ppsLast := some (5, 0) } }
def st55 : State :=
  { regs [(0x5001, 0x0, 0x1, 1), (0x5001, 0x0, 0x5, 2), (0x5001, 0x0, 0x12, 2), (0x5001, 0x0, 0x11, 8)] with
      clock := 9
      time := { TimeSt.init with parent := some 0x102030405060708090A } }
def st56 : State :=
  { regs [(0x5001, 0x0, 0x1, 1), (0x5001, 0x0, 0x5, 2), (0x5001, 0x0, 0x12, 2), (0x5001, 0x0, 0x11, 8)] with
      clock := 9
      time := { TimeSt.init with parent := some 0x102030405060708090A, syncWait := some ⟨7, 0x102030405060708090A, 5, 6⟩ } }
def st57 : State :=
  { regs [(0x5001, 0x0, 0x1, 1), (0x5001, 0x0, 0x5, 2), (0x5001, 0x0, 0x12, 2), (0x5001, 0x0, 0x11, 9), (0x5001, 0x0, 0x16,
      0)] with
      clock := 9
      time := { TimeSt.init with parent := some 0x102030405060708090A, reqWait := some (7, 55), msDelay := some 66 } }
def st58 : State :=
  { regs [(0x5001, 0x0, 0x1, 1), (0x5001, 0x0, 0x5, 2), (0x5001, 0x0, 0x12, 2), (0x4800, 0x2, 0x1, 1), (0x4800, 0x2, 0x7, 1),
      (0x4800, 0x2, 0x8, 1000), (0x5001, 0x0, 0x11, 6), (0x5001, 0x0, 0x7, 1)] with
      clock := 9 }
def st59 : State :=
  { regs [(0x5001, 0x0, 0x1, 1), (0x5001, 0x0, 0x5, 2), (0x5001, 0x0, 0x12, 2), (0x4800, 0x2, 0x1, 1), (0x4800, 0x2, 0x7, 1),
      (0x4800, 0x2, 0x8, 1000), (0x5001, 0x0, 0x11, 8), (0x5001, 0x0, 0x7, 1)] with
      clock := 9 }
def st60 : State :=
  { regs [(0x5001, 0x0, 0x1, 1), (0x5001, 0x0, 0x5, 2), (0x5001, 0x0, 0x12, 2), (0x4800, 0x2, 0x1, 1), (0x4800, 0x2, 0x7, 1),
      (0x4800, 0x2, 0x8, 1000), (0x5001, 0x0, 0x11, 6), (0x5001, 0x0, 0x7, 0)] with
      clock := 9 }
def st61 : State :=
  { regs [(0x5001, 0x0, 0x1, 1), (0x5001, 0x0, 0x5, 2), (0x5001, 0x0, 0x12, 2), (0x5001, 0x0, 0x11, 4), (0x5001, 0x0, 0x16,
      5)] with
      clock := 9 }
def st62 : State :=
  { regs [(0x5001, 0x0, 0x1, 1), (0x5001, 0x0, 0x11, 4), (0x5001, 0x0, 0x6, 255), (0x5001, 0x0, 0x12, 0), (0x5001, 0x0, 0x3,
      0)] with
      clock := secC 100 }
def st63 : State :=
  { regs [(0x5100, 0xf, 0x1, 1)] with
      clock := 90
      time := { TimeSt.init with trig := [(15, 7)] } }
def st64 : State :=
  { regs [(0x5100, 0xf, 0x1, 1), (0x5100, 0xf, 0x5, 0), (0x5100, 0xf, 0x6, 0)] with
      clock := 90
      time := { TimeSt.init with trig := [(15, 7)] } }
def st65 : State :=
  { regs [(0x5400, 0x0, 0x2, 1), (0x5400, 0x0, 0xd, 2)] with
      blobs := [(K 0x5400 0 0x08, bytes4)] }
def st66 : State :=
  { regs [(0x5400, 0x0, 0x2, 1), (0x5400, 0x0, 0xd, 1)] with
      blobs := [(K 0x5400 0 0x08, bytes4)]
      clock := 8 }
def st67 : State :=
  { regs [(0x5400, 0x0, 0x2, 2), (0x5400, 0x0, 0xd, 6)] with
      blobs := [(K 0x5400 0 0x08, bytes4)]
      clock := 8
      sprk := { Sprk.init with kept := [(9, 2, [1, 2, 3])] } }
def st68 : State :=
  { regs [(0x5400, 0x0, 0x2, 2), (0x5400, 0x0, 0xd, 6), (0x4800, 0x0, 0x1, 1), (0x4800, 0x0, 0x7, 1), (0x4800, 0x0, 0x8,
      1000)] with
      blobs := [(K 0x5400 0 0x08, bytes4)]
      clock := 8 }
def st69 : State :=
  { regs [(0x5400, 0x0, 0x2, 1), (0x5400, 0x0, 0xd, 1)] with
      blobs := [(K 0x5400 0 0x08, bytes4)] }
def st70 : State :=
  { regs [(0x5400, 0x0, 0x2, 2), (0x5400, 0x0, 0xd, 6)] with
      blobs := [(K 0x5400 0 0x08, bytes4)]
      clock := 8 }
def st71 : State :=
  { regs [(0x5400, 0x0, 0x2, 2), (0x5400, 0x0, 0xd, 6), (0x4800, 0x0, 0x1, 1), (0x4800, 0x0, 0x7, 1), (0x4800, 0x0, 0x8,
      1000)] with
      blobs := [(K 0x5400 0 0x08, bytes4)]
      clock := msC 10 }
def st72 : State :=
  { regs [(0x5400, 0x0, 0x2, 1), (0x4800, 0x0, 0x1, 1), (0x4800, 0x0, 0x7, 1), (0x4800, 0x0, 0x8, 1000), (0x5400, 0x0, 0xd,
      2)] with
      blobs := [(K 0x5400 0 0x08, bytes4)]
      clock := msC 100 }
def st73 : State :=
  { regs [(0x5400, 0x0, 0x2, 1), (0x5400, 0x0, 0xd, 3)] with
      blobs := [(K 0x5400 0 0x08, bytes4)]
      clock := msC 2
      sprk := { Sprk.init with gapAt := some 0, hold := [⟨5, 0, [], 0⟩] } }
def st74 : State :=
  { regs [(0x5400, 0x0, 0x2, 1), (0x5400, 0x0, 0xd, 3)] with
      blobs := [(K 0x5400 0 0x08, bytes4)]
      now := 480
      sprk := { Sprk.init with gapAt := some 0, hold := [⟨5, 0, [], 0⟩] } }
def st75 : State :=
  { regs [(0x5400, 0x0, 0x2, 1), (0x4800, 0x0, 0x1, 1), (0x4800, 0x0, 0x7, 1), (0x4800, 0x0, 0x8, 1000), (0x5400, 0x0, 0xd,
      1)] with
      blobs := [(K 0x5400 0 0x08, bytes4)]
      clock := msC 100 }
def st76 : State :=
  { regs [(0x5400, 0x0, 0x1, 7), (0x5400, 0x0, 0x2, 3), (0x5400, 0x0, 0xd, 1)] with
      blobs := [(K 0x5400 0 0x08, bytes4)]
      clock := msC 100
      sprk := { Sprk.init with hold := [⟨5, 0, [], 0⟩], gapAt := some 0 } }
def st77 : State :=
  { regs [(0x5a00, 0x0, 0x1, 1), (0x5a00, 0x0, 0x6, 1), (0x5800, 0x17, 0x1, 1), (0x5800, 0x17, 0x2, 3), (0x5800, 0x0, 0x1, 1),
      (0x5800, 0x0, 0x2, 2)] with
      clock := 9 }
def st78 : State :=
  { regs [(0x5a00, 0x0, 0x1, 1), (0x5a00, 0x0, 0x6, 1), (0x5800, 0x17, 0x1, 1), (0x5800, 0x17, 0x2, 3)] with
      clock := msC 10
      hedge := { Hedge.init with chans := [(23, { HedgeCh.init with ramp := some ⟨false, 0, 0, 2⟩ })] } }
def st79 : State :=
  { regs [(0x5a00, 0x0, 0x1, 1), (0x5a00, 0x0, 0x6, 1), (0x5800, 0x17, 0x1, 1), (0x5800, 0x17, 0x2, 2)] with
      clock := msC 1 }
def st80 : State :=
  { regs [(0x5a00, 0x0, 0x1, 1), (0x5a00, 0x0, 0x6, 1), (0x5800, 0x17, 0x1, 0), (0x5800, 0x17, 0x2, 3)] with
      clock := msC 10
      hedge := { Hedge.init with chans := [(23, { HedgeCh.init with ramp := some ⟨false, 0, 0, 1⟩ })] } }
def st81 : State :=
  { regs [(0x5a00, 0x0, 0x1, 1), (0x5a00, 0x0, 0x6, 1), (0x5800, 0x17, 0x1, 1), (0x5800, 0x17, 0x2, 1)] with
      clock := msC 1
      hedge := { Hedge.init with chans := [(23, { HedgeCh.init with valid := 16 })] } }
def st82 : State :=
  { regs [(0x5a00, 0x0, 0x1, 1), (0x5a00, 0x0, 0x6, 1), (0x5800, 0x17, 0x1, 1), (0x5800, 0x17, 0x2, 2)] with
      clock := msC 50
      hedge := { Hedge.init with chans := [(23, { HedgeCh.init with ramp := some ⟨true, 0, 0, 0⟩ })] } }
def st83 : State :=
  { regs [(0x5a00, 0x0, 0x1, 1), (0x5a00, 0x0, 0x6, 1), (0x5800, 0x17, 0x1, 1), (0x5800, 0x17, 0x2, 3), (0x5800, 0x1, 0x1, 1),
      (0x5800, 0x1, 0x2, 3)] with
      clock := msC 10
      hedge := { Hedge.init with retune := some (1, 0), chans := [(1, { HedgeCh.init with ramp := some ⟨false, 0, 0, 3⟩ })] } }
def st84 : State :=
  { regs [(0x5a00, 0x0, 0x1, 1), (0x5a00, 0x0, 0x6, 1), (0x5800, 0x17, 0x1, 1), (0x5800, 0x17, 0x2, 3), (0x5800, 0x1, 0x1, 1),
      (0x5800, 0x1, 0x2, 3)] with
      clock := msC 1
      hedge := { Hedge.init with retune := some (2, 0), chans := [(1, { HedgeCh.init with quiet := true })] } }
def st85 : State :=
  { regs [(0x5a00, 0x0, 0x1, 1), (0x5a00, 0x0, 0x6, 1), (0x5800, 0x17, 0x1, 1), (0x5800, 0x17, 0x2, 3), (0x5800, 0x1, 0x1, 1),
      (0x5800, 0x1, 0x2, 3)] with
      now := 160
      engines := engOn
      hedge := { Hedge.init with chans := [(1, { HedgeCh.init with frames := 3, sumV := -9, sumV2 := 5, sumI2 := 7, peak := 1 })] } }
def st86 : State :=
  { regs [(0x5a00, 0x0, 0x1, 1), (0x5a00, 0x0, 0x6, 1), (0x5800, 0x17, 0x1, 1), (0x5800, 0x17, 0x2, 3)] with
      now := 48000
      engines := engOn
      hedge := { Hedge.init with chans := [(23, { HedgeCh.init with zV2 := 900000, zI2 := 10000, zBlocks := 300 })] } }
def st87 : State :=
  { regs [(0x5a00, 0x0, 0x1, 1), (0x5a00, 0x0, 0x6, 1), (0x5800, 0x17, 0x1, 1), (0x5800, 0x17, 0x2, 3)] with
      clock := secC 1
      hedge := { Hedge.init with chans := [(23, { HedgeCh.init with overs := 1, valid := 20, trips := [], ramp := some ⟨true, 1, 0, 0⟩ })] } }
def st88 : State :=
  { regs [(0x5a00, 0x0, 0x1, 1), (0x5a00, 0x0, 0x6, 1), (0x5800, 0x17, 0x1, 1), (0x5800, 0x17, 0x2, 3)] with
      hedge := { Hedge.init with chans := [(23, { HedgeCh.init with invalid := 6, valid := 20 })] } }
def st89 : State :=
  { regs [(0x5a00, 0x0, 0x1, 1), (0x5a00, 0x0, 0x6, 1), (0x5a00, 0x0, 0xe, 7), (0x5800, 0x0, 0x1, 1), (0x5800, 0x0, 0x2,
      3)] with
      clock := secC 1 }
def st90 : State :=
  { regs [(0x5a00, 0x0, 0x1, 1), (0x5a00, 0x0, 0x6, 1), (0x5a00, 0x0, 0xe, 6), (0x5800, 0x0, 0x1, 1), (0x5800, 0x0, 0x2, 3),
      (0x5800, 0x7, 0x1, 1), (0x5800, 0x7, 0x2, 2)] with
      clock := secC 1
      hedge := { Hedge.init with faults := [(0, secC 1 - 10000)] } }
def st91 : State :=
  { regs [(0x5a00, 0x0, 0x1, 1), (0x5a00, 0x0, 0x6, 1), (0x5800, 0x17, 0x1, 1), (0x5800, 0x17, 0x2, 4)] with
      clock := msC 200
      hedge := { Hedge.init with chans := [(23, { HedgeCh.init with trips := [0], last := some 0x800a007c })] } }
def st92 : State :=
  { regs [(0x5a00, 0x0, 0x1, 1), (0x5a00, 0x0, 0x6, 1), (0x5800, 0x0, 0x1, 0), (0x5800, 0x0, 0x2, 5), (0x5800, 0x0, 0x13,
      3)] with
      clock := msC 200
      hedge := { Hedge.init with chans := [(0, { HedgeCh.init with trips := [0, 0, 0] })] } }
def st93 : State :=
  { regs [(0x5c10, 0x0, 0xa, 1), (0x5c10, 0x3, 0xa, 2), (0x5c10, 0xf, 0xa, 3), (0x5c10, 0x7, 0xa, 4)] with
      now := 16
      engines := engOn
      meas := { Meas.init with resetDue := some 16, mics := [(3, { Mic.init with out := 7 })] } }
def st94 : State :=
  { regs [(0x5c10, 0xf, 0xa, 1)] with
      now := 300
      engines := engOn
      meas := { Meas.init with mics := [(15, { Mic.init with resetAt := 32, back := false })] } }
def st95 : State :=
  { regs [(0x5c10, 0xf, 0xa, 2)] with
      now := 300
      engines := engOn
      meas := { Meas.init with mics := [(15, { Mic.init with same := 2048, out := -5 })] } }
def st96 : State :=
  { regs [(0x5c10, 0x0, 0xa, 3)] with
      now := 300
      engines := engOn
      meas := { Meas.init with mics := [(0, { Mic.init with alive := true })] } }
def st97 : State :=
  { regs [] with
      now := 300
      engines := engOn
      meas := { Meas.init with mics := [(0, { Mic.init with resetAt := 3 })] } }
def st98 : State :=
  { regs [(0x5c10, 0xf, 0x9, 6)] with
      now := 320
      engines := engOn
      meas := { Meas.init with mics := [(15, { Mic.init with pend := some (304, [1, 2]) })] } }
def st99 : State :=
  { regs [(0x5d10, 0x1ff, 0x1, 1)] with
      now := 320
      meas := { Meas.init with opens := [(511, [(0, true)])] } }
def st100 : State :=
  { regs [(0x5d10, 0x5, 0x1, 1), (0x5d10, 0x5, 0x2, 1), (0x5d10, 0x1ff, 0x1, 1), (0x5d10, 0x1ff, 0x2, 1), (0x5c10, 0x0, 0xa,
      2)] with
      now := 320
      engines := engOn }
def st101 : State :=
  { regs [(0x5d00, 0x0, 0xb, 1), (0x5d10, 0x5, 0x1, 1), (0x5d10, 0x5, 0x2, 1), (0x5d10, 0x1ff, 0x1, 1), (0x5d10, 0x1ff, 0x2, 1),
      (0x5c10, 0x0, 0xa, 2)] with
      now := 320
      engines := engOn
      meas := { Meas.init with run := some (⟨(⟨320, [5, 511], 0, 0xC1A00000, 0x41A00000, 0x469C4000, 0, 3, 480, 0, 48000⟩ : Stim), 0, [], 0⟩ : Align) } }
def st102 : State :=
  { regs [(0x5d00, 0x0, 0xb, 2), (0x5d10, 0x5, 0x1, 1), (0x5d10, 0x5, 0x2, 1), (0x5d10, 0x1ff, 0x1, 1), (0x5d10, 0x1ff, 0x2, 1),
      (0x5c10, 0x0, 0xa, 2), (0x5f10, 0xf0, 0x1, 2)] with
      now := 100000
      engines := engOn
      meas := { Meas.init with run := some (⟨(⟨0, [5, 511], 0, 0xC1A00000, 0x41A00000, 0x469C4000, 0, 3, 480, 0, 48000⟩ : Stim), 1, [(⟨0, 5, 0, [⟨0, [1, 2, 3], false⟩], none, [], false, false⟩ : Cap)], 0⟩ : Align) } }
def st103 : State :=
  { regs [(0x5d00, 0x0, 0xb, 2), (0x5d10, 0x5, 0x1, 1), (0x5d10, 0x5, 0x2, 1), (0x5d10, 0x1ff, 0x1, 1), (0x5d10, 0x1ff, 0x2, 1),
      (0x5c10, 0x0, 0xa, 2)] with
      now := 100000
      engines := engOn
      meas := { Meas.init with run := some (⟨(⟨0, [5, 511], 0, 0xC1A00000, 0x41A00000, 0x469C4000, 0, 3, 480, 0, 48000⟩ : Stim), 2, [], 2⟩ : Align) } }
def st104 : State :=
  { regs [(0x5d00, 0x0, 0xb, 2), (0x5d10, 0x5, 0x1, 1), (0x5d10, 0x5, 0x2, 1), (0x5d10, 0x1ff, 0x1, 1), (0x5d10, 0x1ff, 0x2, 1),
      (0x5c10, 0x0, 0xa, 2)] with
      now := 320
      engines := engOn
      meas := { Meas.init with run := some (⟨(⟨0, [5, 511], 0, 0xC1A00000, 0x41A00000, 0x469C4000, 0, 3, 480, 0, 48000⟩ : Stim), 1, [(⟨0, 5, 0, [⟨0, [1, 2, 3], false⟩], none, [], false, false⟩ : Cap)], 0⟩ : Align) } }
def st105 : State :=
  { regs [(0x5d80, 0x0, 0x6, 1)] with
      now := 320
      engines := engOn
      meas := { Meas.init with events := [(3, 310), (2, 309), (1, 309)] } }
def st106 : State :=
  { regs [(0x5d80, 0x0, 0x6, 2)] with
      now := 5320
      engines := engOn
      meas := { Meas.init with frozeAt := 309, post := 100, cause := 4 } }
def st107 : State :=
  { regs [(0x5d80, 0x0, 0x6, 3)] with
      now := 5320
      engines := engOn
      meas := { Meas.init with frozeAt := 309, post := 100, cause := 4 } }
def st108 : State :=
  { regs [(0x5e10, 0xff, 0x5, 1)] with
      now := 320
      engines := engOn
      blobs := [(K 0x5E10 255 0x02, bytes5)] }
def st109 : State :=
  { regs [(0x5e10, 0xff, 0x5, 2), (0x5e10, 0xff, 0x1, 1), (0x5e10, 0xff, 0x6, 2), (0x5e10, 0xff, 0x7, 0)] with
      now := 320
      engines := engOn
      blobs := [(K 0x5E10 255 0x02, bytes5)] }
def st110 : State :=
  { regs [(0x5e10, 0xff, 0x5, 3), (0x5e10, 0xff, 0x6, 2), (0x5e10, 0xff, 0x7, 0)] with
      now := 320
      engines := engOn
      blobs := [(K 0x5E10 255 0x02, bytes5)]
      pool := { Pool.init with chains := [(255, { Chain.init with closing := true, ramp := some (false, 64, []) })] } }
def st111 : State :=
  { regs [(0x5e10, 0xff, 0x5, 3), (0x5e10, 0xff, 0x1, 1), (0x5e10, 0xff, 0x6, 2), (0x5e10, 0xff, 0x7, 0)] with
      now := 320
      engines := engOn
      blobs := [(K 0x5E10 255 0x02, bytes5)]
      pool := { Pool.init with chains := [(255, { Chain.init with pars := [[0, 0, 64, 0]], ks := [⟨[], []⟩] })] } }
def st112 : State :=
  { regs [(0x5e10, 0x5, 0x5, 3), (0x5e10, 0x5, 0x1, 1), (0x5e10, 0x5, 0x6, 2), (0x5e10, 0x5, 0x7, 0)] with
      now := 321
      engines := engOn
      blobs := [(K 0x5E10 5 0x02, bytes5)]
      pool := { Pool.init with chains := [(5, { Chain.init with pars := [[0, 0, 64, 0]], ks := [⟨[], []⟩], cur := some ⟨1, [], 0, 0, false, 0, []⟩, firstX := 320 })] } }
def st113 : State :=
  { regs [(0x5e10, 0xff, 0x5, 3), (0x5e10, 0xff, 0x1, 1), (0x5e10, 0xff, 0x6, 2), (0x5e10, 0xff, 0x7, 0)] with
      now := 310
      engines := engOn
      blobs := [(K 0x5E10 255 0x02, bytes5)]
      pool := { Pool.init with chains := [(255, { Chain.init with pars := [[0, 0, 64, 0]], ks := [⟨[], []⟩], cur := some (⟨304, [List.replicate 16 (4096 : Int)], 5, 6, false, 0, []⟩ : Job) })] } }
def st114 : State :=
  { regs [(0x5e10, 0xff, 0x5, 3), (0x5e10, 0xff, 0x1, 1), (0x5e10, 0xff, 0x6, 2), (0x5e10, 0xff, 0x7, 0)] with
      now := 330
      engines := engOn
      blobs := [(K 0x5E10 255 0x02, bytes5)]
      pool := { Pool.init with chains := [(255, { Chain.init with pars := [[0, 0, 64, 0]], ks := [⟨[], []⟩], cur := some (⟨304, [List.replicate 16 (4096 : Int)], 5, 6, false, 0, []⟩ : Job) })] } }
def st115 : State :=
  { regs [(0x5e30, 0x7, 0x3, 1), (0x5e30, 0x7, 0x5, 9)] with
      power := { Power.init with packs := [(7, [1])] } }
def st116 : State :=
  { regs [(0x6500, 0x0, 0x1, 2), (0x6200, 0x0, 0x1, 1)] with
      mem := { Mem.init with debt := 3 } }
def st117 : State :=
  { regs [(0x6210, 0x9, 0x5, 1), (0x6210, 0x9, 0x6, 2), (0x6210, 0x9, 0x7, 9)] with
      now := 7 }
def st118 : State :=
  { regs [(0x6a00, 0x0, 0x1, 1), (0x6a00, 0x0, 0x2, 1), (0x6a00, 0x0, 0x3, 1000)] with
      now := 5
      clock := 6000 }
def st119 : State :=
  { regs [(0x6a00, 0x0, 0x1, 1), (0x6a00, 0x0, 0x2, 1), (0x6a00, 0x0, 0x6, 10), (0x6bbc, 0x0, 0x1, 1)] with
      now := 5
      clock := secC 6 }
def st120 : State :=
  { regs [(0x4010, 0x3, 0x1, 2), (0x6501, 0x0, 0x8, 5), (0x6501, 0x0, 0x9, 6), (0x6501, 0x0, 0xa, 7), (0x5800, 0x3, 0x4,
      1107296256)] with
      now := 99
      clock := 100
      engines := engOn }
def st121 : State :=
  { regs [(0x4010, 0x3, 0x1, 2), (0x6501, 0x0, 0x8, 5), (0x6501, 0x0, 0x9, 6), (0x6501, 0x0, 0xa, 7), (0x5800, 0x3, 0x4,
      1107296256)] with
      now := 99
      clock := 100
      engines := engOn
      power := { Power.init with packs := [(1, [5])], hours := 9 } }
def st122 : State :=
  { regs [(0x6502, 0x0, 0x1, 7), (0x6502, 0x0, 0x2, 10), (0x4800, 0x4, 0x18, 31), (0x4800, 0x5, 0x18, 31)] with
      now := 99
      clock := 100
      power := { Power.init with standby := true } }
def st123 : State :=
  { regs [(0x6502, 0x0, 0x1, 7), (0x6500, 0x0, 0x3, 3), (0x6500, 0x0, 0x1, 2)] with
      now := 99
      clock := 100
      power := { Power.init with entry := 2 } }
def st124 : State :=
  { regs [] with
      now := 112
      clock := 100
      engines := engOn
      power := { Power.init with devReset := some (112, 2, false) } }
def st125 : State :=
  { regs [] with
      now := 176
      clock := 100
      power := { Power.init with devReset := some (112, 2, true) } }
def st126 : State :=
  { regs [(0x6500, 0x0, 0x1, 4)] with
      clock := secC 10
      power := { Power.init with coolAt := some 0 } }
def st127 : State :=
  { regs [] with
      clock := 9
      ctl := host0 { HostSt.init with sess := some sess0, stage := [(5, [])] }
      engines := engOn
      power := { Power.init with stage := 15 } }
def st128 : State :=
  { regs [] with
      clock := 9
      ctl := { Control.init with down := true }
      power := { Power.init with ctlReset := some (5, 3), stage := 15 } }
def st129 : State :=
  { regs [(0x5e10, 0xff, 0x5, 3), (0x5e10, 0xff, 0x1, 1), (0x5e10, 0xff, 0x6, 2), (0x5e10, 0xff, 0x7, 0), (0x5f00, 0x0, 0x1, 7),
      (0x5f00, 0x0, 0x2, 8)] with
      engines := engOn
      blobs := [(K 0x5E10 255 0x02, bytes5)] }
def st130 : State :=
  { regs [(0x4800, 0x2, 0x1, 1), (0x4800, 0x2, 0x7, 1), (0x4a00, 0x3, 0x1, 1), (0x4a00, 0x3, 0x12, 2)] with
      engines := engOn
      net := { Net.init with rings := [(1, [⟨1, 2, [], 0, 0, 1⟩])] } }
def st131 : State :=
  { regs [(0x6500, 0x0, 0x1, 1)] with
      clock := 9
      power := { Power.init with straps := ⟨0, false, true, true, 0⟩, stage := 15 }
      ctl := host0 { HostSt.init with sess := some sess0, stage := [(5, [])] }
      engines := engOn }
def st132 : State :=
  { regs [(0x6500, 0x0, 0x1, 1)] with
      clock := secC 10
      power := { Power.init with straps := ⟨0, false, true, true, 0⟩, stage := 15, wdtAt := some 1 }
      ctl := host0 { HostSt.init with sess := some sess0, stage := [(5, [])] }
      engines := engOn }
def st133 : State :=
  { regs [(0x6500, 0x0, 0x1, 2), (0x6502, 0x0, 0x1, 4), (0x6502, 0x0, 0x2, 4), (0x6500, 0x0, 0x5, 0)] with
      now := 5 }
def st134 : State :=
  { regs [(0x6500, 0x0, 0x1, 2), (0x6500, 0x0, 0x3, 3)] with
      now := 5
      power := { Power.init with entry := 3 } }
def st135 : State :=
  { regs [(0x6500, 0x0, 0x1, 1)] with
      now := 5
      engines := engOn
      power := { Power.init with hot := 9 } }
def st136 : State :=
  { regs [(0x6500, 0x0, 0x1, 1)] with
      now := 5
      clock := 7
      engines := engOn
      power := { Power.init with hot := 9 } }
def st137 : State :=
  { regs [(0x6601, 0x0, 0x1, 1), (0x6601, 0x0, 0x2, 45)] with
      clock := 9
      power := { Power.init with straps := ⟨0, false, true, true, 0⟩, planDue := true } }
def st138 : State :=
  { regs [(0x6700, 0x0, 0x1, 1), (0x6701, 0x0, 0x1, 1), (0x6702, 0x0, 0x1, 1), (0x6703, 0x0, 0x1, 1), (0x6704, 0x0, 0x1, 1),
      (0x6705, 0x0, 0x1, 1), (0x6706, 0x0, 0x1, 1), (0x6707, 0x0, 0x1, 1), (0x6603, 0x0, 0x1, 30), (0x6601, 0x0, 0x4, 30), (0x662e, 0x0, 0x1, 1065353216)] with
      clock := 9
      power := { Power.init with straps := ⟨0, false, true, true, 0⟩, planDue := true } }
def st139 : State :=
  { regs [(0x6603, 0x0, 0x1, 30), (0x6603, 0x0, 0xb, 45)] with
      clock := secC 9
      power := { Power.init with straps := ⟨0, false, true, true, 0⟩, stage := 15 } }
def st140 : State :=
  { regs [(0x6700, 0x0, 0x1, 1), (0x6701, 0x0, 0x1, 1), (0x6702, 0x0, 0x1, 1), (0x6703, 0x0, 0x1, 1), (0x6704, 0x0, 0x1, 1),
      (0x6705, 0x0, 0x1, 1), (0x6706, 0x0, 0x1, 1), (0x6707, 0x0, 0x1, 1), (0x6603, 0x0, 0x1, 30)] with
      clock := secC 9
      power := { Power.init with straps := ⟨0, false, true, true, 0⟩, stage := 15 } }
def st141 : State :=
  { regs [(0x5800, 0x17, 0x2, 4), (0x5800, 0x17, 0x1, 1)] with
      clock := msC 200 - 1
      hedge := { Hedge.init with chans := [(23, { HedgeCh.init with trips := [0] })] } }
def st142 : State :=
  { regs [] with
      now := 159
      engines := engOn
      corr := { Corr.init with outs := [(4, { OutChain.init with bulkX := some 96 })] } }
def frame0 : Bytes := ([255, 255, 255, 255, 255, 255, 2, 0, 0, 0, 0, 9, 136, 247] ++ zeros 46 ++ [181, 196, 116, 112] : Bytes)

theorem meets_WritesComplete_0 : ∃ (s : State) (h : Nat) (o : OpFields) (e : Entry), (s.clocked = true) ∧
    (s.writeCheck h o = stOK) ∧ (entryOf o.idx o.inst o.sub = some e) ∧ (e.acc = .w1c) ∧
    (noted (K o.idx o.inst o.sub) = false) := by
  exact ⟨(regs [(0x5800, 0x0, 0x1c, 33)]), 0, ⟨0, 0x5800, 0x1C, 0, 0, [0x20]⟩, (entryOf 0x5800 0 0x1C).getD ⟨0, .u8, .ro, 0,
      .any, false⟩, by decide +kernel⟩

theorem meets_WritesComplete_1 : ∃ (s : State) (h : Nat) (o : OpFields) (e : Entry), (s.clocked = true) ∧
    (s.writeCheck h o = stOK) ∧ (o.idx ∈ [0x3000, 0x3200, 0x3300, 0x3C02, 0x3F01, 0x4600, 0x5010, 0x5200, 0x5D81, 0x6502,
    0x6600, 0x6601, 0x6602]) ∧ (entryOf o.idx o.inst o.sub = some e) ∧ (e.acc = .rw) ∧ (e.ty.isBytes = false) := by
  exact ⟨(regs []), 0, ⟨0, 0x6502, 0x02, 0, 0, leBytes 4 604800⟩, (entryOf 0x6502 0 0x02).getD ⟨0, .u8, .ro, 0, .any, false⟩,
      by decide +kernel⟩

theorem meets_RefusedWriteChangesNothing_0 : ∃ (s : State) (h : Nat) (o : OpFields), (s.clocked = true) ∧
    (s.writeCheck h o ≠ stOK) ∧ (((o.idx, o.sub) ∉ [(0x3A00, 0x01), (0x3B00, 0x01), (0x3C00,
    0x01)] ∨ s.writeCheck h o ≠ stBadType)) := by
  exact ⟨(regs []), 0, ⟨0, 0x4010, 0x01, 0, 31, [1]⟩, by decide +kernel⟩

theorem meets_OperationsComplete_0 : ∃ (s : State) (h : Nat) (o : OpFields) (e : Entry), (s.clocked = true) ∧
    (s.readCheck h o = stOK) ∧ (o.data = []) ∧ (o.flags = 0) ∧ (entryOf o.idx o.inst o.sub = some e) ∧ (e.ty.isBytes = false) ∧
    (o.idx ≠ 0x3F01) := by
  exact ⟨(regs [(0x4010, 0x1f, 0x1, 4)]), 0, ⟨0, 0x4010, 0x01, 0, 31, []⟩, (entryOf 0x4010 31 0x01).getD ⟨0, .u8, .ro, 0, .any,
      false⟩, by decide +kernel⟩

theorem meets_OperationsComplete_1 : ∃ (s : State) (h : Nat) (o : OpFields) (d : Bytes), (s.clocked = true) ∧
    (s.readCheck h { o with flags := 1 } = stOK) ∧ (o.flags = 0) ∧ (o.data = []) ∧
    (mget? (s.host h).stage (K o.idx o.inst o.sub) = some d) ∧ (up4 d.length ≤ s.aloneRoom h) := by
  exact ⟨st0, 0, ⟨0, 0x3C00, 0x02, 0, 0, []⟩, [3], by decide +kernel⟩

theorem meets_OperationsComplete_2 : ∃ (s : State) (h : Nat) (o : OpFields) (e : Entry), (s.clocked = true) ∧
    (s.readCheck h o = stOK) ∧ (o.flags = 0) ∧ (o.data.length = 8) ∧ (fieldLE o.data 0 4 = 0) ∧
    (entryOf o.idx o.inst o.sub = some e) ∧ (e.ty = .blob) ∧ (¬ (o.idx = 0x5D81 ∧ o.sub = 0x04)) ∧
    (up4 (8 + min (fieldLE o.data 4 4) (s.readBytes h o.idx o.inst o.sub).length) ≤ s.aloneRoom h) := by
  exact ⟨(regs []), 0, ⟨0, 0x5E10, 0x02, 0, 7, leBytes 4 0 ++ leBytes 4 100⟩, (entryOf 0x5E10 7 0x02).getD ⟨0, .u8, .ro, 0,
      .any, false⟩, by decide +kernel⟩

theorem meets_OperationsComplete_3 : ∃ (s : State) (h : Nat) (o : OpFields) (y : Session), (s.clocked = true) ∧ (o.flags = 0) ∧
    (o.rsv = 0) ∧ (o.data = []) ∧ ((s.host h).sess = some y) ∧ ((s.romOnly = true → h = 0 ∧ recoveryIndex o.idx = true)) := by
  exact ⟨st1, 0, ⟨0, 5, 6, 0, 7, []⟩, sess0, by decide +kernel⟩

theorem meets_OperationsComplete_3_recovery : ∃ (s : State) (h : Nat) (o : OpFields) (y : Session), (s.clocked = true) ∧ (o.flags = 0) ∧
    (o.rsv = 0) ∧ (o.data = []) ∧ ((s.host h).sess = some y) ∧ (s.romOnly = true) ∧ (h = 0 ∧ recoveryIndex o.idx = true) ∧
    ((entryOf o.idx o.inst o.sub).isSome = true) := by
  exact ⟨{ st1 with dict := [(K 0x6500 0 0x01, 3)] }, 0, ⟨0, 0x6400, 0x01, 0, 0, []⟩, sess0, by decide +kernel⟩

theorem meets_OperationsComplete_4 : ∃ (s : State) (h : Nat) (o : OpFields), (s.clocked = true) ∧ (s.accessCheck h o = stOK) ∧
    (namesBlob o = true) ∧ (8 ≤ o.data.length) ∧ (fieldLE o.data 0 4 = 0) ∧ (totalTooLong o (fieldLE o.data 4 4) = false) ∧
    ((o.data.drop 8).length < fieldLE o.data 4 4) ∧ ((o.idx = 0x3A00 → s.setUses o.inst = 0)) := by
  exact ⟨{ regs [] with clock := 99 }, 0, ⟨0, 0x3A00, 0x01, 0, 1, leBytes 4 0 ++ leBytes 4 388 ++ [1, 2]⟩, by decide +kernel⟩

/-- A message at the head of the host SPI buffer arrives. -/
theorem arrives_spi {s : State} {m0 m : Bytes} (h : s.yexelUp 6 = true ∧ s.ctl.held = none ∧ s.ctl.inbox = [] ∧ s.power.mram = none ∧
    malformed m = false) (hm : s.ctl.spiIn = [m]) (hr : s.ctl.spiOut.length < 32 ∧ s.romOnly = false) :
    Arrives s ⟨6, 0, 0, 0⟩ m0 m :=
  ⟨h.1, h.2.1, h.2.2.1, h.2.2.2.1, h.2.2.2.2, .inr ⟨rfl, ⟨[], hm⟩, hr.1, fun e => by rw [hr.2] at e; cases e⟩⟩

theorem meets_MessagesComplete_0 : ∃ (s : State) (src : Source) (m0 : Bytes) (m : Bytes) (kh : Bytes), (s.clocked = true) ∧
    (Arrives s src m0 m) ∧ ((msgOf m).kind = 0) ∧ (s.openKey (msgOf m).host src = some kh) ∧
    ((hmacSha256 kh (msgOf m).covered).take 16 = (msgOf m).tag) ∧ (s.on 0x1000 (msgOf m).host 0x01 = true) ∧
    (s.transportOk (msgOf m).host src = true) ∧ ((s.host (msgOf m).host).opens ≤ (msgOf m).seq) := by
  refine ⟨st2, ⟨6, 0, 0, 0⟩, [], bytes0, zeros 32, ?_, ?_, ?_, ?_, ?_, ?_, ?_,
      ?_⟩ <;> first | decide +kernel | (unfold Accepted; decide +kernel) | exact arrives_spi (by decide +kernel) (by decide +kernel) (by decide +kernel)

theorem meets_MessagesComplete_1 : ∃ (s : State) (src : Source) (m0 : Bytes) (m : Bytes) (y : Session) (ops : List (Bytes ×
      OpFields)) (z : Session), (s.clocked = true) ∧
    (Arrives s src m0 m) ∧ ((msgOf m).kind = 2) ∧ (Accepted s m y) ∧ (opsOf (msgOf m).count (msgOf m).body = some ops) ∧
    (let h := (msgOf m).host;
    (let u0 : Tx s := if src.transport = 6 then (Tx.start s).setCtl { s.ctl with spiIn := s.ctl.spiIn.tail } else (Tx.start s).ringPop 1;
    (let r := Tx.operations h (largest src.transport) ops [] [] ((u0.acceptSeq h y src (msgOf m).seq).tally 0x1000 h 0x0C);
    (r.2.1 = []) ∧ (r.2.2.1 = none) ∧ ((r.2.2.2.cur.host h).sess = some z)))) := by
  refine ⟨st3, ⟨6, 0, 0, 0⟩, [], bytes1, sess0, (opsOf (msgOf bytes1).count (msgOf bytes1).body).getD [],
      (((Tx.operations ((msgOf bytes1).host) (largest (⟨6, 0, 0,
      0⟩ : Source).transport) ((opsOf (msgOf bytes1).count (msgOf bytes1).body).getD [] : List (Bytes × OpFields)) [] [] (((if (⟨6,
      0, 0, 0⟩ : Source).transport = 6 then (Tx.start st3).setCtl { st3.ctl with spiIn := st3.ctl.spiIn.tail } else (Tx.start st3).ringPop 1).acceptSeq ((msgOf bytes1).host) (sess0 : Session) (⟨6,
      0, 0, 0⟩ : Source) (msgOf bytes1).seq).tally 0x1000 ((msgOf bytes1).host) 0x0C)).2.2.2.cur.host ((msgOf bytes1).host)).sess).getD sess0,
      ?_, ?_, ?_, ?_, ?_, ?_, ?_⟩ <;> first | decide +kernel | (unfold Accepted; decide +kernel) | exact arrives_spi (by decide +kernel) (by decide +kernel) (by decide +kernel)

theorem meets_MessagesComplete_2 : ∃ (s : State) (src : Source) (m0 : Bytes) (m : Bytes) (y : Session), (s.clocked = true) ∧
    (Arrives s src m0 m) ∧ ((msgOf m).kind = 5) ∧ (Accepted s m y) := by
  refine ⟨st4, ⟨6, 0, 0, 0⟩, [], bytes2, sess0, ?_, ?_, ?_,
      ?_⟩ <;> first | decide +kernel | (unfold Accepted; decide +kernel) | exact arrives_spi (by decide +kernel) (by decide +kernel) (by decide +kernel)

theorem meets_HostTimersComplete_0 : ∃ (s : State) (h : Nat) (y : Session), (s.clocked = true) ∧ (h < 8) ∧
    ((s.host h).sess = some y) ∧ (y.last + msC (s.g 0x1000 h 0x07) ≤ s.clock) := by
  exact ⟨{ regs [] with clock := msC 60000, ctl := host0 { HostSt.init with sess := some sess0 } }, 0, sess0, by decide +kernel⟩

theorem meets_HostTimersComplete_1 : ∃ (s : State) (h : Nat) (x : Xfer), (s.clocked = true) ∧ (h < 8) ∧
    ((s.host h).xfer = some x) ∧ (x.last + secC 10 ≤ s.clock) := by
  exact ⟨st5, 0, ⟨0, 1, [], 0⟩, by decide +kernel⟩

theorem meets_HostTimersComplete_2 : ∃ (s : State) (h : Nat) (x : Snap), (s.clocked = true) ∧ (h < 8) ∧
    ((s.host h).snap = some x) ∧ (x.last + secC 10 ≤ s.clock) := by
  exact ⟨st6, 0, ⟨0, [], 0⟩, by decide +kernel⟩

theorem meets_HostTimersComplete_3 : ∃ (s : State) (h : Nat) (y : Session), (s.clocked = true) ∧ (s.ctl.down = false) ∧
    (h < 8) ∧ (s.right h 5 = true) ∧ ((s.host h).sess = some y) ∧ (((s.host h).recs ≠ [] ∨ (s.host h).lost ≠ 0)) ∧
    ((s.host h).noted + msC (s.g 0x1200 h 0x03) ≤ s.clock) ∧ (s.canNotify y = true) := by
  exact ⟨st7, 0, sess0, by decide +kernel⟩

theorem meets_HostSpiCompletes_0 : ∃ (s : State) (len : Nat) (d : Bytes), (s.clocked = true) ∧ (0 < len) ∧ (len ≤ 8192) ∧
    (len ≤ d.length) ∧ (s.spiReady = true) := by
  exact ⟨{ regs [] with power := { Power.init with stage := 11 } }, 2, [1, 2, 3], by decide +kernel⟩

theorem meets_HostSpiCompletes_1 : ∃ (s : State), (s.clocked = true) := by
  exact ⟨{ regs [] with power := { Power.init with stage := 11 } }, by decide +kernel⟩

theorem meets_HostSpiCompletes_2 : ∃ (s : State) (clocks : Nat) (m : Bytes) (r : List Bytes), (s.clocked = true) ∧
    (s.ctl.spiOut = m :: r) ∧ (2 + m.length ≤ clocks) ∧ ((s.ctl.down = true ∨ s.ctl.inbox = [])) := by
  exact ⟨st8, 4, [1, 2], [[3]], by decide +kernel⟩

theorem meets_HostSpiCompletes_3 : ∃ (s : State) (cmd : Nat), (s.clocked = true) ∧ (cmd = 0 ∨ 3 < cmd) := by
  exact ⟨{ regs [] with power := { Power.init with stage := 11 } }, 0, by decide +kernel⟩

theorem meets_SafeLoadCompletes_0 : ∃ (s : State) (h : Nat) (o : OpFields) (e : Entry), (s.clocked = true) ∧
    (s.writeCheck h o = stOK) ∧ (entryOf o.idx o.inst o.sub = some e) ∧ (e.acc = .rws) ∧ (s.ctl.commit = none) ∧
    ((s.host h).stage.length < 4096) := by
  exact ⟨(regs []), 0, ⟨0, 0x3C00, 0x02, 0, 0, [3]⟩, (entryOf 0x3C00 0 0x02).getD ⟨0, .u8, .ro, 0, .any, false⟩,
      by decide +kernel⟩

theorem meets_SafeLoadCompletes_1 : ∃ (s : State) (h : Nat) (d : Bytes), (s.clocked = true) ∧ (h < 8) ∧
    (s.writeCheck h (opOf 0x1300 0 0x01 d) = stOK) ∧ (s.ctl.commit = none) ∧ (s.on 0x3F00 0 0x03 = false) ∧
    ((s.host h).stage ≠ []) ∧ (leNat d ≤ s.now + 2 ^ 31) ∧
    ((stagePlan (s.host h).stage = true → ((Tx.begin s).stageApply (s.host h).stage).cur.planCheck = none)) := by
  exact ⟨st0, 0, leBytes 8 0, by decide +kernel⟩

theorem meets_SafeLoadCompletes_2 : ∃ (s : State) (h : Nat) (d : Bytes) (c : Commit), (s.clocked = true) ∧
    (s.writeCheck h (opOf 0x1300 0 0x02 d) = stOK) ∧ (s.ctl.commit = some c) ∧ (c.landed = false) ∧ (s.now + 32 < c.tc) := by
  exact ⟨st9, 0, [1], ⟨0, 33, false, 0, false, false⟩, by decide +kernel⟩

theorem meets_SafeLoadCompletes_3 : ∃ (s : State) (h : Nat) (n : Nat) (d : Bytes), (s.clocked = true) ∧
    (s.writeCheck h (opOf 0x1301 n 0x02 d) = stOK) ∧ ((∀ c, s.ctl.commit = some c → c.host ≠ n)) := by
  exact ⟨st0, 0, 0, [1], by decide +kernel⟩

theorem meets_SafeLoadCompletes_4 : ∃ (s : State) (c : Commit), (s.clocked = true) ∧ (s.ctl.commit = some c) ∧
    (c.landed = false) ∧ (c.tc ≤ s.now) ∧ (s.commitWaits = false) := by
  exact ⟨st10, ⟨0, 40, false, 80, false, false⟩, by decide +kernel⟩

theorem meets_SafeLoadCompletes_5 : ∃ (s : State) (c : Commit), (s.clocked = true) ∧ (s.ctl.commit = some c) ∧
    (c.landed = true) ∧ (c.landB ≤ s.now) ∧ (s.commitWaits = false) := by
  exact ⟨st11, ⟨0, 40, true, 80, true, false⟩, by decide +kernel⟩

theorem meets_SavesComplete_0 : ∃ (s : State) (h : Nat) (d : Bytes), (s.clocked = true) ∧ (s.store.run = none) ∧
    (s.writeCheck h (opOf 0x1400 0 0x01 d) = stOK) := by
  exact ⟨(regs [(0x1400, 0x0, 0x5, 0), (0x3410, 0x3, 0x8, 1)]), 0, [1], by decide +kernel⟩

theorem meets_SavesComplete_1 : ∃ (s : State) (c : Nat), (s.clocked = true) ∧ (s.store.run = none) ∧
    (s.store.changed = some c) ∧ (s.g 0x1400 0 0x03 ≠ 0) ∧ (c + msC (s.g 0x1400 0 0x03) ≤ s.clock) := by
  exact ⟨st12, 0, by decide +kernel⟩

theorem meets_SavesComplete_2 : ∃ (s : State) (h : Nat) (d : Bytes), (s.clocked = true) ∧ (s.store.run = none) ∧
    (s.writeCheck h (opOf 0x1400 0 0x04 d) = stOK) := by
  exact ⟨(regs [(0x1400, 0x0, 0x5, 0), (0x3410, 0x3, 0x8, 1)]), 0, [1], by decide +kernel⟩

theorem meets_SavesComplete_3 : ∃ (s : State) (h : Nat) (n : Nat) (d : Bytes), (s.clocked = true) ∧ (s.store.run = none) ∧
    (s.writeCheck h (opOf 0x1000 n 0x02 d) = stOK) := by
  exact ⟨(regs [(0x1400, 0x0, 0x5, 0), (0x3410, 0x3, 0x8, 1)]), 0, 3, zeros 32, by decide +kernel⟩

theorem meets_SavesComplete_4 : ∃ (s : State) (r : SaveRun), (s.clocked = true) ∧ (s.ctl.down = false) ∧
    (s.store.run = some r) ∧ (s.ctl.inbox = []) ∧ (r.leaf < 2) ∧ (r.next = none) ∧ (r.image.bytes ≤ 2097152) := by
  exact ⟨st13, ⟨1, { Image.none_ with bytes := 100 }, 7, false, none, [], false, false⟩, by decide +kernel⟩

theorem meets_SavesComplete_5 : ∃ (s : State) (r : SaveRun), (s.clocked = true) ∧ (s.ctl.down = false) ∧
    (s.store.run = some r) ∧ (s.ctl.inbox = []) ∧ (r.leaf < 2) ∧ (r.next = none) ∧ (r.image.bytes ≤ 2097152) ∧
    (r.again = false) := by
  exact ⟨st13, ⟨1, { Image.none_ with bytes := 100 }, 7, false, none, [], false, false⟩, by decide +kernel⟩

theorem meets_SavesComplete_6 : ∃ (s : State) (r : SaveRun), (s.clocked = true) ∧ (s.ctl.down = false) ∧
    (s.store.run = some r) ∧ (s.ctl.inbox = []) ∧ (r.leaf < 2) ∧ (r.next = none) ∧ (r.again = true) := by
  exact ⟨st14, ⟨1, { Image.none_ with bytes := 100 }, 7, true, none, [], false, false⟩, by decide +kernel⟩

theorem meets_OwnersTake_0 : ∃ (s : State) (h : Nat) (sub : Nat) (d : Bytes), (s.clocked = true) ∧ (s.ctl.commit = none) ∧
    (1 ≤ sub) ∧ (sub ≤ 0x0C) ∧ (s.writeCheck h (opOf 0x1100 0 sub d) = stOK) ∧ ((∀ b ∈ d, b.toNat ≤ 7)) := by
  exact ⟨(regs []), 0, 1,
      (List.replicate ((entryOf 0x1100 0 1).elim 0 (fun e => match e.rng with | .len a _ => a | _ => 0)) 3 : Bytes),
      by decide +kernel⟩

theorem meets_OwnersTake_1 : ∃ (s : State) (h : Nat) (d : Bytes) (tabs : List (Nat × Bytes)), (s.clocked = true) ∧
    (s.ctl.commit = none) ∧ (s.writeCheck h (opOf 0x1100 0 0x0D d) = stOK) ∧ (d.length % 8 = 0) ∧
    ((chunks 8 d).foldl s.assignRecord (some []) = some tabs) := by
  exact ⟨(regs []), 0, [1, 3, 2, 0, 4, 0, 0, 0], ((chunks 8 ([1, 3, 2, 0, 4, 0, 0, 0] : Bytes)).foldl ((regs []) : State).assignRecord (some [])).getD [], by decide +kernel⟩

theorem meets_SceneComplete_0 : ∃ (s : State) (h : Nat) (d : Bytes), (s.clocked = true) ∧ (h < 8) ∧
    (s.writeCheck h (opOf 0x2400 0 0x01 d) = stOK) ∧ (d.length % 56 = 0) := by
  exact ⟨{ regs [] with now := 100 }, 0, (leBytes 2 5 ++ [0, 0] ++ zeros 52 : Bytes), by decide +kernel⟩

theorem meets_SceneComplete_1 : ∃ (s : State) (h : Nat) (n : Nat) (d : Bytes), (s.clocked = true) ∧
    (s.writeCheck h (opOf 0x2000 n 0x0B d) = stOK) ∧ (s.replicated n = false) := by
  exact ⟨st15, 0, 3, [1], by decide +kernel⟩

theorem meets_SceneComplete_2 : ∃ (s : State) (h : Nat) (sub : Nat) (d : Bytes), (s.clocked = true) ∧ (1 ≤ sub) ∧ (sub ≤ 4) ∧
    (s.writeCheck h (opOf 0x2800 0 sub d) = stOK) := by
  exact ⟨(regs []), 0, 4, leBytes 4 0x41200000, by decide +kernel⟩

theorem meets_SceneComplete_3 : ∃ (s : State) (h : Nat) (n : Nat) (d : Bytes) (b : Nat), (s.clocked = true) ∧
    (s.writeCheck h (opOf 0x2000 n 0x08 d) = stOK) ∧ (n < s.objects) ∧ (s.on 0x3400 0 0x07 = false) ∧
    (sumN (((List.range s.objects).filter (· != n)).map (fun i => s.g 0x2000 i 0x08)) + leNat d ≤ furrowCells) ∧
    (leNat d ≠ s.g 0x2000 n 0x08) ∧ ((∀ p ∈ s.render.pend, p.obj = n → p.land ≠ nextEval s.now)) ∧
    (allocate (s.regions [n]) (leNat d) = some b) := by
  exact ⟨{ regs [] with now := 100 }, 0, 7, leBytes 4 2048,
      (allocate (({ regs [] with now := 100 } : State).regions [7]) 2048).getD 0, by decide +kernel⟩

theorem meets_SceneComplete_4 : ∃ (s : State) (h : Nat) (d : Bytes), (s.clocked = true) ∧
    (s.writeCheck h (opOf 0x3400 0 0x06 d) = stOK) ∧ (s.on 0x3400 0 0x07 = false) := by
  exact ⟨{ regs [] with now := 100 }, 0, [1], by decide +kernel⟩

theorem meets_PeriodsComplete_0 : ∃ (s : State), (s.clocked = true) ∧ (s.windowDue = true) := by
  exact ⟨{ regs [] with now := 16, engines := engOn }, by decide +kernel⟩

theorem meets_PeriodsComplete_1 : ∃ (s : State) (b : Nat) (rep : Report), (s.clocked = true) ∧ (s.geo.last = some b) ∧
    (b ≤ s.now + 16) ∧ (s.geo.report = some rep) := by
  exact ⟨st16, 48, ⟨[], [], [], 0, 0⟩, by decide +kernel⟩

theorem meets_PeriodsComplete_2 : ∃ (s : State), (s.clocked = true) ∧ (s.engines.running = true) ∧ (s.now % 16 = 3) ∧
    (s.render.blockEnd ≠ some (s.now - 3)) := by
  exact ⟨{ regs [] with now := 35, engines := engOn }, by decide +kernel⟩

theorem meets_PeriodsComplete_3 : ∃ (s : State) (l : Nat), (s.clocked = true) ∧ (s.furrowDue = some l) := by
  exact ⟨st17, 96, by decide +kernel⟩

theorem meets_PeriodsComplete_4 : ∃ (s : State) (l : Nat), (s.clocked = true) ∧ (s.render.repack = some l) ∧
    (s.furrowDue = some l) := by
  exact ⟨st18, 96, by decide +kernel⟩

theorem meets_PeriodsComplete_5 : ∃ (s : State), (s.clocked = true) := by
  exact ⟨(regs []), by decide +kernel⟩

theorem meets_PeriodsComplete_5_idle : ∃ (s : State) (e : PeriodIn), (s.clocked = true) ∧ (s.engines.running = false) ∧
    (e.bus = []) ∧ (s.mem.waits = []) ∧ (s.mem.flights = []) ∧ (s.mem.poison = []) ∧ (s.mem.checks = []) := by
  exact ⟨(regs []), ⟨[], [], [], 7, [], []⟩, by decide +kernel⟩

theorem meets_CorrectionComplete_0 : ∃ (s : State) (n : Nat) (h : Nat) (d : Bytes), (s.clocked = true) ∧ (0 < n) ∧
    (n < 1024) ∧ (s.writeCheck h (opOf 0x3A00 n 0x01 d) = stOK) ∧ (s.setUses n = 0) ∧ (d.length = 384 + 4 * fieldLE d 4 4) ∧
    (headerOk d = true) ∧ ((∀ i < 16, biquadOk (biquad d i) = true)) ∧ ((∀ x ∈ dataTaps d, tapOk x = true)) := by
  exact ⟨(regs []), 5, 0,
      (leBytes 2 1 ++ zeros 2 ++ leBytes 4 2 ++ leBytes 4 0 ++ leBytes 4 0 ++ zeros 48 ++ zeros 320 ++ leBytes 4 0x3F800000 ++ leBytes 4 0 : Bytes),
      by decide +kernel⟩

theorem meets_CorrectionComplete_1 : ∃ (s : State) (n : Nat), (s.clocked = true) ∧ (0 < n) ∧ (n < 1024) ∧
    (s.g 0x3A00 n 0x03 = 1) := by
  exact ⟨(regs [(0x3a00, 0x5, 0x3, 1)]), 5, by decide +kernel⟩

theorem meets_CorrectionComplete_2 : ∃ (s : State) (n : Nat) (h : Nat) (d : Bytes), (s.clocked = true) ∧ (0 < n) ∧ (n < 1024) ∧
    (s.writeCheck h (opOf 0x3A00 n 0x08 d) = stOK) ∧ (s.setUses n = 0) := by
  exact ⟨(regs [(0x3a00, 0x5, 0x3, 2), (0x3a00, 0x5, 0x4, 9)]), 5, 0, [1], by decide +kernel⟩

theorem meets_CorrectionComplete_3 : ∃ (s : State) (h : Nat) (d : Bytes), (s.clocked = true) ∧ (h < 8) ∧
    (s.writeCheck h (opOf 0x3B00 0 0x01 d) = stOK) ∧ (d.length = 16) ∧ (s.graftCheck h s.now [] (graftRec d) = stOK) ∧
    (s.tapsAfter s.taps (graftRec d) ≤ s.tapBudget) ∧ ((graftRec d).set ≠ s.futureSet (graftRec d).out) ∧
    ((s.chain (graftRec d).out).run = none) := by
  exact ⟨(regs [(0x3a00, 0x5, 0x3, 2), (0x3a00, 0x5, 0x4, 9)]), 0, (leBytes 2 3 ++ leBytes 2 5 ++ [1, 6, 0,
      0] ++ leBytes 8 20 : Bytes), by decide +kernel⟩

theorem meets_CorrectionComplete_4 : ∃ (s : State) (n : Nat) (set : Nat) (law : Nat) (e : Nat) (start : Nat),
    (s.clocked = true) ∧ (n < 512) ∧ (s.engines.running = true) ∧ ((s.chain n).run = none) ∧
    ((s.chain n).pend = some (set, law, e, start)) ∧ (start ≤ s.now) := by
  exact ⟨st19, 3, 5, 1, 6, 33, by decide +kernel⟩

theorem meets_CorrectionComplete_5 : ∃ (s : State) (n : Nat) (g : Graft), (s.clocked = true) ∧ (n < 512) ∧
    ((s.chain n).run = some g) ∧ (g.start + g.warm ≤ s.now) ∧ (s.g 0x3800 n 0x0A = 2) := by
  exact ⟨st20, 3, ⟨0, 5, 33, 10, 64, 1⟩, by decide +kernel⟩

theorem meets_CorrectionComplete_6 : ∃ (s : State) (n : Nat) (g : Graft), (s.clocked = true) ∧ (n < 512) ∧
    ((s.chain n).run = some g) ∧ (g.last < s.now) ∧ (g.into < 1024) := by
  exact ⟨st21, 3, ⟨0, 5, 33, 10, 64, 1⟩, by decide +kernel⟩

theorem meets_HopCompletes_0 : ∃ (s : State) (used : Nat), (s.clocked = true) ∧ (s.engines.running = true) ∧
    (s.now % 256 = 13) ∧ (used < 2 ^ 32) := by
  exact ⟨st22, 7, by decide +kernel⟩

theorem meets_HopCompletes_1 : ∃ (s : State) (used : Nat), (s.clocked = true) ∧ (s.engines.running = true) ∧
    (s.now % 256 = 13) ∧ (used < 2 ^ 32) := by
  exact ⟨st22, 7, by decide +kernel⟩

theorem meets_HopCompletes_2 : ∃ (s : State), (s.clocked = true) ∧ (s.engines.running = true) ∧ (s.now % 256 = 19) ∧
    (s.corr.hop ≠ some (s.now - 19)) := by
  exact ⟨{ regs [] with now := 275, engines := engOn }, by decide +kernel⟩

theorem meets_HopCompletes_3 : ∃ (s : State) (h : Nat) (n : Nat) (d : Bytes) (L : Nat), (s.clocked = true) ∧
    (s.writeCheck h (opOf 0x3800 n 0x02 d) = stOK) ∧ (∀ l, (s.chain n).bulkX = some l → s.now < l + 64 → L = l + 64) ∧
    ((∀ l, (s.chain n).bulkX = some l → l + 64 ≤ s.now) → L = nextEval s.now) := by
  refine ⟨(regs []), 0, 4, leBytes 4 96, nextEval 0, by decide +kernel, by decide +kernel, fun l h => ?_, fun _ => rfl⟩
  exact absurd ((by decide +kernel : ((regs []).chain 4).bulkX = none).symm.trans h) nofun

theorem meets_HopCompletes_3_fade : ∃ (s : State) (h : Nat) (n : Nat) (d : Bytes) (L : Nat), (s.clocked = true) ∧
    (s.writeCheck h (opOf 0x3800 n 0x02 d) = stOK) ∧ (∀ l, (s.chain n).bulkX = some l → s.now < l + 64 → L = l + 64) ∧
    ((∀ l, (s.chain n).bulkX = some l → l + 64 ≤ s.now) → L = nextEval s.now) := by
  refine ⟨st142, 0, 4, leBytes 4 96, 160, by decide +kernel, by decide +kernel, fun l h _ => ?_, fun h => ?_⟩
  · exact congrArg (· + 64) (Option.some.inj ((by decide +kernel : (st142.chain 4).bulkX = some 96).symm.trans h))
  · exact absurd (h 96 (by decide +kernel)) (by decide +kernel)

theorem meets_HopCompletes_4 : ∃ (s : State) (n : Nat) (p : BulkPend), (s.clocked = true) ∧ (s.engines.running = true) ∧
    (n < 512) ∧ ((s.chain n).bulkP = some p) ∧ (p.land ≤ s.now) ∧ (s.fadesRunning < 256) ∧
    ((∀ x ∈ s.corr.outs, x.1 ≠ n → ∀ q, x.2.bulkP = some q → s.now < q.land)) := by
  exact ⟨st23, 4, ⟨96, 96, 50, false⟩, by decide +kernel⟩

theorem meets_TrellisWritesComplete_0 : ∃ (s : State) (h : Nat) (n : Nat) (d : Bytes), (s.clocked = true) ∧
    (s.writeCheck h (opOf 0x3C01 n 0x01 d) = stOK) := by
  exact ⟨(regs []), 0, 255, leBytes 4 0x01000005, by decide +kernel⟩

theorem meets_TrellisWritesComplete_1 : ∃ (s : State) (h : Nat) (d : Bytes), (s.clocked = true) ∧
    (s.writeCheck h (opOf 0x3C00 0 0x01 d) = stOK) ∧ (d ≠ []) ∧ (d.length % 8 = 0) ∧
    ((∀ r ∈ (chunks 8 d).map nodeRec, s.nodeCheck h r = stOK ∧ r.target = 0xFF)) := by
  exact ⟨(regs []), 0, ([0, 1, 0xFF, 1] ++ leBytes 4 0x100000 ++ [2, 1, 0xFF, 3] ++ leBytes 4 0xFFFFFF : Bytes),
      by decide +kernel⟩

theorem meets_TrellisWritesComplete_2 : ∃ (s : State) (h : Nat) (d : Bytes), (s.clocked = true) ∧
    (s.writeCheck h (opOf 0x3C00 0 0x01 d) = stOK) ∧ (d.length = 8) ∧ (s.nodeCheck h (nodeRec d) = stOK) ∧
    ((nodeRec d).target < 8) ∧ (bit (nodeRec d).flags 1 = false) := by
  exact ⟨(regs []), 0, ([255, 254, 7, 1] ++ leBytes 4 0x100000 : Bytes), by decide +kernel⟩

theorem meets_TrellisWritesComplete_3 : ∃ (s : State) (h : Nat) (d : Bytes), (s.clocked = true) ∧
    (s.writeCheck h (opOf 0x3C00 0 0x03 d) = stOK) ∧ (s.namedBank ≠ some (leNat d)) := by
  exact ⟨st24, 0, [7], by decide +kernel⟩

theorem meets_TrellisWritesComplete_4 : ∃ (s : State) (h : Nat) (d : Bytes), (s.clocked = true) ∧
    (s.writeCheck h (opOf 0x3C00 0 0x04 d) = stOK) ∧ (s.namedBank ≠ some (leNat d)) := by
  exact ⟨st24, 0, [3], by decide +kernel⟩

theorem meets_MapsComplete_0 : ∃ (s : State) (n : Nat), (s.clocked = true) ∧ (s.engines.running = true) ∧ (s.now % 16 = 0) ∧
    (n ∈ s.maps.ins.map (·.1)) ∧ (n < s.objects) ∧ ((∀ b, (s.inMap n).xfade = some b → b + 64 ≤ s.now)) := by
  exact ⟨st25, 5, by decide +kernel⟩

theorem meets_MapsComplete_1 : ∃ (s : State) (h : Nat) (n : Nat) (d : Bytes), (s.clocked = true) ∧
    (s.writeCheck h (opOf 0x3E00 n 0x01 d) = stOK) ∧ (s.ownsSignal h (leNat d) = true) := by
  exact ⟨{ regs [] with now := 100 }, 0, 1559, leBytes 4 0, by decide +kernel⟩

theorem meets_MapsComplete_2 : ∃ (s : State) (n : Nat) (x : OutDest) (v : Nat) (L : Nat), (s.clocked = true) ∧
    ((n, x) ∈ s.maps.dests) ∧ ((∀ p ∈ s.maps.dests, p.1 = n → p.2 = x)) ∧ (n < 1560) ∧ (x.pend = some (v, L)) ∧ (L ≤ s.now) ∧
    (v ≠ x.code) := by
  exact ⟨st26, 1559, { OutDest.init with pend := some (0x01000000, 96) }, 0x01000000, 96, by decide +kernel⟩

theorem meets_MapsComplete_3 : ∃ (s : State) (h : Nat) (n : Nat) (sub : Nat) (e : Entry), (s.clocked = true) ∧
    (s.readCheck h (opOf 0x3F01 n sub []) = stOK) ∧ (entryOf 0x3F01 n sub = some e) := by
  exact ⟨{ regs [] with now := 100 }, 0, 3, 6, (entryOf 0x3F01 3 0x06).getD ⟨0, .u8, .ro, 0, .any, false⟩, by decide +kernel⟩

theorem meets_EnginesComplete_0 : ∃ (s : State) (h : Nat) (d : Bytes), (s.clocked = true) ∧
    (s.writeCheck h (opOf 0x3F00 0 0x01 d) = stOK) ∧ (s.ctl.commit = none) ∧ (s.render.repack = none) ∧
    (s.on 0x3F00 0 0x03 = false) ∧ (leNat d ≠ s.fA) ∧ (s.engines.running = true) ∧ (s.engines.rampB = none) := by
  exact ⟨{ regs [] with now := 100, engines := engOn }, 0, leBytes 4 96000, by decide +kernel⟩

theorem meets_EnginesComplete_1 : ∃ (s : State) (B : Nat), (s.clocked = true) ∧ (s.engines.rampB = some B) ∧ (B ≤ s.now) ∧
    (s.engines.running = true) := by
  exact ⟨{ regs [] with now := 112, engines := { engOn with rampB := some 112 } }, 112, by decide +kernel⟩

theorem meets_EnginesComplete_2 : ∃ (s : State) (B : Nat), (s.clocked = true) ∧ (s.engines.rampB = none) ∧
    (s.retrainDue = some B) := by
  exact ⟨{ regs [(0x6200, 0x0, 0x11, 100)] with now := 112, engines := engOn }, 112, by decide +kernel⟩

theorem meets_EnginesComplete_3 : ∃ (s : State) (B : Nat), (s.clocked = true) ∧ (s.engines.rampB = some B) ∧
    (s.engines.running = true) ∧ (B + 64 ≤ s.now) := by
  exact ⟨st27, 112, by decide +kernel⟩

theorem meets_EnginesComplete_4 : ∃ (s : State) (off : Int), (s.clocked = true) ∧ (s.engines.stepTo = some off) ∧
    (s.engines.running = false) := by
  exact ⟨st28, (-5 : Int), by decide +kernel⟩

theorem meets_EnginesComplete_5 : ∃ (s : State), (s.clocked = true) ∧ (s.engines.running = false) ∧ (s.engines.stepTo = none) ∧
    (s.engines.cause ∈ [1, 2, 3, 6]) ∧ (s.g 0x6200 0 0x01 ≠ 3) ∧ ((s.on 0x3F00 0 0x03 = true → s.g 0x6200 0 0x11 = 0)) := by
  exact ⟨st29, by decide +kernel⟩

theorem meets_PortsComplete_0 : ∃ (s : State) (n : Nat) (h : Nat) (d : Bytes), (s.clocked = true) ∧ (n < 32) ∧
    (s.writeCheck h (opOf 0x4000 n 0x01 d) = stOK) ∧ (leNat d = 1) ∧ (s.on 0x4000 n 0x01 = false) ∧ (s.portLimits n = true) ∧
    (s.groupFits n = true) ∧ (s.engines.running = true) ∧ (s.portFits n = true) := by
  exact ⟨{ regs [] with now := 100, engines := engOn }, 0, 0, [1], by decide +kernel⟩

theorem meets_PortsComplete_1 : ∃ (s : State) (n : Nat) (h : Nat) (d : Bytes), (s.clocked = true) ∧ (n < 32) ∧
    (s.writeCheck h (opOf 0x4000 n 0x01 d) = stOK) ∧ (leNat d = 1) ∧ (s.on 0x4000 n 0x01 = false) ∧ (s.portLimits n = true) ∧
    (s.groupFits n = true) ∧ (s.portFits n = true) ∧ (s.engines.running = false) := by
  exact ⟨{ regs [] with now := 100 }, 0, 0, [1], by decide +kernel⟩

theorem meets_PortsComplete_2 : ∃ (s : State) (n : Nat) (b : Nat), (s.clocked = true) ∧ (n < 32) ∧
    ((s.port n).startAt = some b) ∧ (b ≤ s.now) ∧ ((s.port n).closing = false) := by
  exact ⟨st30, 31, 112, by decide +kernel⟩

theorem meets_PortsComplete_3 : ∃ (s : State) (n : Nat) (h : Nat) (d : Bytes), (s.clocked = true) ∧ (n < 32) ∧
    (s.writeCheck h (opOf 0x4000 n 0x01 d) = stOK) ∧ (leNat d = 0) ∧ (s.on 0x4000 n 0x01 = true) := by
  exact ⟨st31, 31, 0, [0], by decide +kernel⟩

theorem meets_PortsComplete_4 : ∃ (s : State) (n : Nat), (s.clocked = true) ∧ (n < 32) ∧ ((s.port n).closing = true) ∧
    ((s.port n).inRamp = none) := by
  exact ⟨st32, 3, by decide +kernel⟩

theorem meets_PortsComplete_5 : ∃ (s : State) (n : Nat) (h : Nat) (d : Bytes) (sub : Nat), (s.clocked = true) ∧ (n < 32) ∧
    (sub = 0x0A ∨ sub = 0x0B) ∧ (s.writeCheck h (opOf 0x4000 n sub d) = stOK) := by
  exact ⟨(regs [(0x4010, 0x3, 0x1, 0)]), 3, 0, [1, 0], 0x0A, by decide +kernel⟩

theorem meets_FramesAndClocksComplete_0 : ∃ (s : State) (n : Nat) (level : Bool), (s.clocked = true) ∧ (n < 32) ∧
    ((s.port n).closing = false) ∧ (s.portState n = 2) ∧ (s.portMaster n = true ∨ level = s.fsyncActive n) ∧
    (s.portOnAsrc n = true ∨ (s.port n).nextS.isSome = true) := by
  exact ⟨st33, 3, st33.fsyncActive 3, by decide +kernel⟩

theorem meets_FramesAndClocksComplete_1 : ∃ (s : State) (n : Nat) (level : Bool), (s.clocked = true) ∧ (n < 32) ∧
    ((s.port n).closing = false) ∧ (s.portMaster n = true ∨ level = s.fsyncActive n) ∧ ((s.portState n = 1 ∧
    (s.port n).startAt = none) ∨ s.portState n = 3) := by
  exact ⟨{ regs [(0x4000, 0x3, 0x1, 1), (0x4010, 0x3, 0x1, 1)] with now := 101, clock := 2100000 }, 3, (regs []).fsyncActive 3, by decide +kernel⟩

theorem meets_FramesAndClocksComplete_2 : ∃ (s : State) (n : Nat) (level : Bool), (s.clocked = true) ∧ (n < 32) ∧
    (s.portMaster n = false) ∧ (level ≠ s.fsyncActive n) := by
  exact ⟨{ regs [(0x4000, 0x3, 0x6, 1)] with now := 101 }, 3, !(regs []).fsyncActive 3, by decide +kernel⟩

theorem meets_FramesAndClocksComplete_3 : ∃ (s : State) (n : Nat) (b : Begun) (c : Begun) (r : List Begun), (s.clocked = true) ∧
    (n < 32) ∧ ((s.port n).begun = b :: c :: r) ∧ (s.portState n = 2) := by
  exact ⟨st34, 3, (⟨some 100, 3, false, 5⟩ : Begun), (⟨some 101, 3, false, 9⟩ : Begun), [], by decide +kernel⟩

theorem meets_FramesAndClocksComplete_4 : ∃ (s : State) (n : Nat), (s.clocked = true) ∧ (n < 32) ∧ (s.portMaster n = false) ∧
    (s.portState n = 2) := by
  exact ⟨st35, 3, by decide +kernel⟩

theorem meets_FramesAndClocksComplete_5 : ∃ (s : State) (n : Nat), (s.clocked = true) ∧ (n < 64) ∧ (s.g 0x4510 n 0x01 ≠ 0) ∧
    (s.on 0x4510 n 0x06 = false) ∧ (s.asrcRuns n = true) := by
  exact ⟨(regs [(0x4510, 0x3f, 0x1, 1), (0x4510, 0x3f, 0x2, 3), (0x4510, 0x3f, 0x4, 0), (0x4000, 0x3, 0x5, 44100), (0x4000, 0x3,
      0x1, 1), (0x4010, 0x3, 0x1, 2)]), 63, by decide +kernel⟩

theorem meets_FramesAndClocksComplete_6 : ∃ (s : State) (n : Nat) (ppm : Int), (s.clocked = true) ∧ (n < 64) ∧
    (s.on 0x4510 n 0x06 = true) ∧ (1000 < ppm.natAbs) := by
  exact ⟨(regs [(0x4510, 0x3f, 0x1, 1), (0x4510, 0x3f, 0x2, 3), (0x4510, 0x3f, 0x4, 0), (0x4000, 0x3, 0x5, 44100), (0x4000, 0x3,
      0x1, 1), (0x4010, 0x3, 0x1, 2), (0x4510, 0x3f, 0x6, 1)]), 63, (-1001 : Int), by decide +kernel⟩

theorem meets_FramesAndClocksComplete_7 : ∃ (s : State) (phase : Int), (s.clocked = true) ∧ (s.g 0x4600 0 0x01 ≠ 1) ∧
    (phase.natAbs ≤ 20000) := by
  exact ⟨st36, (-20000 : Int), by decide +kernel⟩

theorem meets_FramesAndClocksComplete_8 : ∃ (s : State) (phase : Int), (s.clocked = true) ∧ (s.g 0x4600 0 0x01 = 1) ∧
    (200000 < phase.natAbs) := by
  exact ⟨(regs [(0x4600, 0x0, 0x1, 1)]), (200001 : Int), by decide +kernel⟩

theorem meets_FramesAndClocksComplete_9 : ∃ (s : State), (s.clocked = true) ∧ (s.g 0x4600 0 0x07 ≠ 0) := by
  exact ⟨{ regs [(0x4600, 0x0, 0x7, 2)] with serial := { Serial.init with wcRef := some (1, 2) } }, by decide +kernel⟩

theorem meets_FramesAndClocksComplete_10 : ∃ (s : State), (s.clocked = true) ∧ (s.serial.wcRef = none) := by
  exact ⟨{ regs [] with now := 9 }, by decide +kernel⟩

theorem meets_LinksAndRingsComplete_0 : ∃ (s : State) (n : Nat) (speed : Nat), (s.clocked = true) ∧ (n < 6) ∧
    (s.on 0x4800 n 0x01 = true) ∧ (s.g 0x4800 n 0x07 = 0) ∧ ((s.speeds n).contains speed = true) := by
  exact ⟨(regs [(0x4800, 0x0, 0x1, 1), (0x4800, 0x0, 0x2, 0)]), 0, 10000, by decide +kernel⟩

theorem meets_LinksAndRingsComplete_1 : ∃ (s : State) (n : Nat), (s.clocked = true) ∧ (n < 6) ∧ (s.g 0x4800 n 0x07 = 1) := by
  exact ⟨st37, 0, by decide +kernel⟩

theorem meets_LinksAndRingsComplete_2 : ∃ (s : State) (n : Nat) (a : Nat), (s.clocked = true) ∧ (n < 6) ∧
    ((s.macSt n).pauseFrom = some a) ∧ (a + usC (s.g 0x4800 n 0x06) ≤ (s.macSt n).pauseUntil) ∧
    (a + usC (s.g 0x4800 n 0x06) ≤ s.clock) := by
  exact ⟨st38, 2, 0, by decide +kernel⟩

theorem meets_LinksAndRingsComplete_3 : ∃ (s : State) (h : Nat) (n : Nat) (d : Bytes), (s.clocked = true) ∧ (n < 4) ∧
    (s.writeCheck h (opOf 0x4E00 n 0x01 d) = stOK) ∧ (leNat d = 0) ∧ ((n = 1 → s.overUdp h = false)) ∧
    (s.on 0x4E00 n 0x01 = true) := by
  exact ⟨st39, 0, 0, [0], by decide +kernel⟩

theorem meets_LinksAndRingsComplete_4 : ∃ (s : State) (h : Nat) (n : Nat) (d : Bytes), (s.clocked = true) ∧ (n < 4) ∧
    (s.writeCheck h (opOf 0x4E00 n 0x01 d) = stOK) ∧ (leNat d = 0) ∧ (n = 1) ∧ (s.overUdp h = true) := by
  exact ⟨st39, 0, 1, [0], by decide +kernel⟩

theorem meets_LinksAndRingsComplete_5 : ∃ (s : State) (h : Nat) (n : Nat) (d : Bytes), (s.clocked = true) ∧ (n < 4) ∧
    (s.writeCheck h (opOf 0x4E00 n 0x01 d) = stOK) ∧ (leNat d = 1) ∧ (s.on 0x4E00 n 0x01 = false) := by
  exact ⟨(regs [(0x4e00, 0x1, 0x1, 0), (0x4e00, 0x1, 0x3, 7)]), 0, 1, [1], by decide +kernel⟩

theorem meets_FramesAndPacketsComplete_0 : ∃ (s : State) (n : Nat) (f : Bytes), (s.clocked = true) ∧ (n < 6) ∧
    (s.on 0x4800 n 0x01 = true) ∧ (s.g 0x4800 n 0x07 = 1) ∧
    (let crcOk := 4 ≤ f.length ∧ leNat (f.drop (f.length - 4)) = crc32 (f.take (f.length - 4)); (¬ crcOk)) := by
  exact ⟨(regs [(0x4800, 0x0, 0x1, 1), (0x4800, 0x0, 0x7, 1), (0x4800, 0x0, 0x8, 1000)]), 0, ([255, 255, 255, 255, 255, 255, 2, 0, 0, 0, 0, 9, 136, 247] ++ zeros 46 ++ [180, 196, 116, 112] : Bytes), by decide +kernel⟩

theorem meets_FramesAndPacketsComplete_1 : ∃ (s : State) (n : Nat) (f : Bytes), (s.clocked = true) ∧ (n < 6) ∧
    (s.on 0x4800 n 0x01 = true) ∧ (s.g 0x4800 n 0x07 = 1) ∧
    (let crcOk := 4 ≤ f.length ∧ leNat (f.drop (f.length - 4)) = crc32 (f.take (f.length - 4)); (crcOk) ∧ (f.length < 64)) := by
  exact ⟨(regs [(0x4800, 0x0, 0x1, 1), (0x4800, 0x0, 0x7, 1), (0x4800, 0x0, 0x8, 1000)]), 0, ([255, 255, 255, 255, 255, 255, 2, 0, 0, 0, 0, 9, 136, 247] ++ zeros 45 ++ [35, 74, 90, 17] : Bytes), by decide +kernel⟩

theorem meets_FramesAndPacketsComplete_2 : ∃ (s : State) (n : Nat) (f : Bytes), (s.clocked = true) ∧ (n < 6) ∧
    (s.on 0x4800 n 0x01 = true) ∧ (s.g 0x4800 n 0x07 = 1) ∧
    (let crcOk := 4 ≤ f.length ∧ leNat (f.drop (f.length - 4)) = crc32 (f.take (f.length - 4)); (crcOk) ∧
    ((if n < 4 then 2048 else 9216) < f.length)) := by
  refine ⟨regs [(0x4800, 0x0, 0x1, 1), (0x4800, 0x0, 0x7, 1), (0x4800, 0x0, 0x8, 1000)], 0, zeros 2045 ++ leBytes 4 (crc32 (zeros 2045)),
    by decide +kernel, by decide +kernel, by decide +kernel, by decide +kernel, crc_framed _, ?_⟩
  rw [List.length_append, leBytes_length, zeros, List.length_replicate]
  decide

theorem meets_FramesAndPacketsComplete_3 : ∃ (s : State) (n : Nat) (f : Bytes), (s.clocked = true) ∧ (n < 6) ∧
    (s.on 0x4800 n 0x01 = true) ∧ (s.g 0x4800 n 0x07 = 1) ∧
    (let crcOk := 4 ≤ f.length ∧ leNat (f.drop (f.length - 4)) = crc32 (f.take (f.length - 4)); (crcOk) ∧ (64 ≤ f.length) ∧
    (f.length ≤ (if n < 4 then 2048 else 9216)) ∧
    (f.take 6 = s.macAddr n ∨ f.take 6 = macBroadcast ∨ (s.filter n).contains (f.take 6) = true) ∧ (fieldBE f 12 2 = 0x88F7) ∧
    (s.on 0x4E00 0 0x01 = true) ∧ (s.g 0x4E00 0 0x03 + ceilDiv f.length 2048 ≤ s.g 0x4E00 0 0x02) ∧
    (∀ g, ((mget [] s.net.rings 0).map (·.bytes) ++ [f]).head? = some g → ptpSupported (ptpOf g) = true)) := by
  refine ⟨st40, 0, frame0, by decide +kernel, by decide +kernel, by decide +kernel, by decide +kernel, by decide +kernel,
    by decide +kernel, by decide +kernel, .inr (.inl (by decide +kernel)), by decide +kernel, by decide +kernel, by decide +kernel, fun g h => ?_⟩
  have e : ((mget [] st40.net.rings 0).map (·.bytes) ++ [frame0]).head? = some frame0 := by decide +kernel
  rw [← Option.some.inj (e.symm.trans h)]
  decide +kernel

theorem meets_FramesAndPacketsComplete_4 : ∃ (s : State) (n : Nat) (x : Nat) (same : Bool), (s.clocked = true) ∧ (n < 256) ∧
    (let k := s.txN n; (let len := s.frameLen (s.txg n 0x02) (s.txChans n * k * s.txB n); ((s.tx n).nextX = some x) ∧
    (k ≠ 0) ∧ (∃ e ∈ (s.tx n).buf, x + k ≤ e.1 + 1) ∧ (s.mayPush n = true) ∧ ((s.tx n).queue.length + b2n same < 4) ∧
    (s.g 0x4900 0 0x04 + ceilDiv len 128 ≤ 4096))) := by
  exact ⟨st41, 9, 480, true, by decide +kernel⟩

theorem meets_FramesAndPacketsComplete_5 : ∃ (s : State) (n : Nat) (x : Nat) (same : Bool) (p : Packet) (q : List Packet)
      (mac : Bytes), (s.clocked = true) ∧
    (n < 256) ∧ ((s.tx n).launchX = some x) ∧ (x + s.txN n ≤ mediaAt (s.txRate n) s.ns) ∧ ((s.tx n).queue = p :: q) ∧
    (p.x ≤ x) ∧ (p.len ≠ 0) ∧ (¬ (same = true ∧ q = [])) ∧ (s.txg n 0x14 = 2) ∧ (s.on 0x4C00 n 0x03 = false) ∧
    (s.macIdle (s.txg n 0x02) = true) ∧ (s.launchBefore n = none) ∧ (∀ f ∈ (s.tx n).flights, f.x ≠ p.x) ∧
    (s.ns ≤ nsOfMedia (s.txRate n) (p.x + s.txN n) + s.txN n * 1000000000 / s.txRate n) ∧
    (s.dstMac (s.txg n 0x02) (s.txg n 0x04) = some mac) := by
  exact ⟨st42, 9, 480, true, packet0, [packet0], groupMac 0xEF000001, by decide +kernel⟩

theorem meets_StreamsComplete_0 : ∃ (s : State) (h : Nat) (n : Nat) (d : Bytes), (s.clocked = true) ∧ (n < 256) ∧
    (s.writeCheck h (opOf 0x4A00 n 0x01 d) = stOK) ∧ (leNat d = 1) ∧ (s.on 0x4A00 n 0x01 = false) ∧ (s.rxLimits n = true) ∧
    (s.rxFits n = true) ∧ (s.engines.running = true) ∧ (s.rxLane n = true) := by
  exact ⟨st43, 0, 255, [1], by decide +kernel⟩

theorem meets_StreamsComplete_1 : ∃ (s : State) (h : Nat) (n : Nat) (d : Bytes), (s.clocked = true) ∧ (n < 256) ∧
    (s.writeCheck h (opOf 0x4A00 n 0x01 d) = stOK) ∧ (leNat d = 1) ∧ (s.on 0x4A00 n 0x01 = false) ∧ (s.rxLimits n = true) ∧
    (s.rxFits n = true) ∧ (s.engines.running = false) := by
  exact ⟨st44, 0, 255, [1], by decide +kernel⟩

theorem meets_StreamsComplete_2 : ∃ (s : State) (h : Nat) (n : Nat) (d : Bytes), (s.clocked = true) ∧ (n < 256) ∧
    (s.writeCheck h (opOf 0x4C00 n 0x01 d) = stOK) ∧ (leNat d = 1) ∧ (s.on 0x4C00 n 0x01 = false) ∧ (s.txLimits n = true) ∧
    (s.txFits n = true) ∧ (s.engines.running = true) ∧ (s.txLane n = true) := by
  exact ⟨st45, 0, 7, [1], by decide +kernel⟩

theorem meets_StreamsComplete_3 : ∃ (s : State) (h : Nat) (n : Nat) (d : Bytes), (s.clocked = true) ∧ (n < 256) ∧
    (s.writeCheck h (opOf 0x4C00 n 0x01 d) = stOK) ∧ (leNat d = 1) ∧ (s.on 0x4C00 n 0x01 = false) ∧ (s.txLimits n = true) ∧
    (s.txFits n = true) ∧ (s.engines.running = false) := by
  exact ⟨st44, 0, 255, [1], by decide +kernel⟩

theorem meets_StreamsComplete_4 : ∃ (s : State) (h : Nat) (n : Nat) (d : Bytes), (s.clocked = true) ∧ (n < 256) ∧
    (s.writeCheck h (opOf 0x4A00 n 0x01 d) = stOK) ∧ (leNat d = 0) ∧ (s.on 0x4A00 n 0x01 = true) ∧
    (s.rxServed.contains n = true) := by
  exact ⟨st46, 0, 7, [0], by decide +kernel⟩

theorem meets_StreamsComplete_5 : ∃ (s : State) (h : Nat) (n : Nat) (d : Bytes), (s.clocked = true) ∧ (n < 256) ∧
    (s.writeCheck h (opOf 0x4C00 n 0x01 d) = stOK) ∧ (leNat d = 0) ∧ (s.on 0x4C00 n 0x01 = true) ∧
    (s.txServed.contains n = true) := by
  exact ⟨st47, 0, 9, [0], by decide +kernel⟩

theorem meets_InterfacesComplete_0 : ∃ (s : State) (n : Nat), (s.clocked = true) ∧ (n < 6) := by
  exact ⟨st48, 2, by decide +kernel⟩

theorem meets_InterfacesComplete_1 : ∃ (s : State) (n : Nat) (ip : Nat), (s.clocked = true) ∧ (n < 6) ∧
    ((s.macSt n).arp.any (fun e => e.ip == ip && e.at_ + secC 300 ≤ s.clock) = true) := by
  exact ⟨st49, 2, 1, by decide +kernel⟩

theorem meets_InterfacesComplete_2 : ∃ (s : State) (n : Nat) (i : Nat) (ip : Nat), (s.clocked = true) ∧ (n < 6) ∧
    (s.txServed.contains i = true) ∧ (s.txg i 0x14 = 1) ∧ ((s.tx i).since + secC 3 ≤ s.clock) ∧ ((n, ip) ∈ s.txPaths i) ∧
    (s.dstMac n ip = none) := by
  exact ⟨st50, 3, 9, 0x0A000001, by decide +kernel⟩

theorem meets_InterfacesComplete_3 : ∃ (s : State) (n : Nat) (g : Nat) (c : Nat), (s.clocked = true) ∧ (n < 6) ∧
    ((g, c) ∈ (s.macSt n).reports) ∧ (c ≤ s.clock) ∧ ((s.groups n).contains g = true) ∧ (s.macIdle n = true) := by
  exact ⟨st51, 2, 0xE0000181, 5, by decide +kernel⟩

theorem meets_InterfacesComplete_4 : ∃ (s : State) (n : Nat) (c : Nat), (s.clocked = true) ∧ (n < 6) ∧
    ((s.macSt n).v2Until = some c) ∧ (c ≤ s.clock) := by
  exact ⟨st52, 2, 5, by decide +kernel⟩

theorem meets_InterfacesComplete_5 : ∃ (s : State) (n : Nat) (h : Nat) (d : Bytes), (s.clocked = true) ∧ (n < 6) ∧
    (s.writeCheck h (opOf 0x4F00 n 0x01 d) = stOK) := by
  exact ⟨st53, 2, 0, leBytes 4 0x0A000002, by decide +kernel⟩

theorem meets_InterfacesComplete_6 : ∃ (s : State) (h : Nat) (n : Nat) (d : Bytes) (x : Sdp) (c : List (Nat × Nat)),
      (s.clocked = true) ∧
    (n < 256) ∧ (s.writeCheck h (opOf 0x4A00 n 0x10 d) = stOK) ∧ (s.on 0x4A00 n 0x01 = false) ∧
    (let r := s.sdpLines 1 ⟨false, none, none, [], 0, [], false⟩ (textLines d); (r = .inr x) ∧ (x.config = some c)) := by
  exact ⟨(regs []), 0, 255, bytes3, (match (((regs []) : State).sdpLines 1 ⟨false, none, none, [], 0, [], false⟩ (textLines (bytes3 : Bytes))) with | .inr x => x | .inl _ => ⟨false, none, none, [], 0, [], false⟩ : Sdp),
      (((match (((regs []) : State).sdpLines 1 ⟨false, none, none, [], 0, [], false⟩ (textLines (bytes3 : Bytes))) with | .inr x => x | .inl _ => ⟨false, none, none, [], 0, [], false⟩ : Sdp) : Sdp).config).getD [], by decide +kernel⟩

theorem meets_InterfacesComplete_7 : ∃ (s : State) (h : Nat) (n : Nat) (d : Bytes) (l : Nat), (s.clocked = true) ∧ (n < 256) ∧
    (s.writeCheck h (opOf 0x4A00 n 0x10 d) = stOK) ∧ (s.on 0x4A00 n 0x01 = false) ∧
    (let r := s.sdpLines 1 ⟨false, none, none, [], 0, [], false⟩ (textLines d); (r = .inl l)) := by
  exact ⟨(regs [(0x4a00, 0x9, 0x20, 77)]), 0, 9, ([118, 61, 48, 13, 10, 111, 61, 45, 32, 49, 32, 49, 32, 73, 78, 32, 73, 80, 52, 32, 49, 48, 46, 48, 46, 48, 46, 49, 13, 10, 115, 61, 120, 13, 10, 99, 61, 73, 78, 32, 73, 80, 52, 32, 50, 51, 57, 46, 49, 46, 50, 46, 51, 47, 51, 50, 13, 10, 116, 61, 48, 32, 48, 13, 10, 109, 61, 97, 117, 100, 105, 111, 32, 53, 48, 48, 54, 32, 82, 84, 80, 47, 65, 86, 80, 32, 57, 55, 13, 10, 97, 61, 114, 116, 112, 109, 97, 112, 58, 57, 55, 32, 76, 50, 48, 47, 52, 56, 48, 48, 48, 47, 56, 13, 10, 97, 61, 112, 116, 105, 109, 101, 58, 49, 13, 10] : Bytes), 7, by decide +kernel⟩

theorem meets_InterfacesComplete_8 : ∃ (s : State) (h n : Nat) (d : Bytes) (x : Sdp), (s.clocked = true) ∧ (n < 256) ∧
    (s.writeCheck h (opOf 0x4A00 n 0x10 d) = stOK) ∧ (s.on 0x4A00 n 0x01 = false) ∧
    (let r := s.sdpLines 1 ⟨false, none, none, [], 0, [], false⟩ (textLines d); (r = .inr x) ∧ (x.config = none)) := by
  exact ⟨regs [], 0, 255, [118, 61, 48, 10], ⟨true, none, none, [], 0, [], false⟩, by decide +kernel⟩

theorem meets_TimeWritesComplete_0 : ∃ (s : State) (h : Nat) (d : Bytes), (s.clocked = true) ∧
    (s.writeCheck h (opOf 0x5000 0 0x04 d) = stOK) ∧ (s.g 0x5000 0 0x05 = 2) := by
  exact ⟨{ regs [(0x5000, 0x0, 0x5, 2)] with clock := 12345 }, 0, leBytes 8 0x800000000001, by decide +kernel⟩

theorem meets_TimeWritesComplete_1 : ∃ (s : State) (h : Nat) (d : Bytes), (s.clocked = true) ∧
    (s.writeCheck h (opOf 0x5000 0 0x06 d) = stOK) ∧ (s.on 0x5000 0 0x08 = false) := by
  exact ⟨{ regs [] with clock := 12345 }, 0, leBytes 10 5, by decide +kernel⟩

theorem meets_TimeWritesComplete_2 : ∃ (s : State) (h : Nat) (d : Bytes), (s.clocked = true) ∧
    (s.writeCheck h (opOf 0x5000 0 0x06 d) = stOK) ∧ (s.on 0x5000 0 0x08 = true) := by
  exact ⟨{ regs [(0x5000, 0x0, 0x8, 1)] with clock := 12345 }, 0, leBytes 10 5, by decide +kernel⟩

theorem meets_TimeWritesComplete_3 : ∃ (s : State) (h : Nat) (d : Bytes), (s.clocked = true) ∧
    (s.writeCheck h (opOf 0x5000 0 0x11 d) = stOK) ∧ (s.on 0x3F00 0 0x03 = false) ∧ (s.ctl.commit = none) := by
  exact ⟨{ regs [(0x5000, 0x0, 0x8, 1), (0x5000, 0x0, 0x7, 2)] with clock := 12345 }, 0, [1], by decide +kernel⟩

theorem meets_TimeWritesComplete_4 : ∃ (s : State), (s.clocked = true) ∧ (s.g 0x5000 0 0x05 = 1) ∧ (s.time.ppsLast = none) := by
  exact ⟨{ regs [(0x5000, 0x0, 0x5, 1), (0x5000, 0x0, 0x16, 4294967280)] with clock := 12345 }, by decide +kernel⟩

theorem meets_TimeWritesComplete_5 : ∃ (s : State) (p : Nat × Nat), (s.clocked = true) ∧ (s.g 0x5000 0 0x05 = 1) ∧
    (s.time.ppsLast = some p) ∧ (s.ctl.down = false) ∧ (p.2 + secC 2 ≤ s.clock) := by
  exact ⟨st54, (5, 0), by decide +kernel⟩

theorem meets_PtpComplete_0 : ∃ (s : State) (n : Nat) (m : Bytes), (s.clocked = true) ∧ (s.ctl.down = false) ∧ (n < 6) ∧
    (s.ptpTakes n 44 m = true) ∧ (s.ptpFromParent n m = true) ∧ (bit (fieldBE m 6 1) 1 = true) := by
  exact ⟨st55, 2, ([0, 18, 0, 44, 0, 0, 2, 0, 0, 0, 0, 0, 0, 0, 0, 0, 0, 0, 0, 0, 1, 2, 3, 4, 5, 6, 7, 8, 9, 10, 0, 7, 0, 0, 0, 0, 0, 0, 0, 0, 0, 0, 0, 0] : Bytes), by decide +kernel⟩

theorem meets_PtpComplete_1 : ∃ (s : State) (n : Nat) (m : Bytes) (w : SyncWait), (s.clocked = true) ∧ (s.ctl.down = false) ∧
    (n < 6) ∧ (s.time.syncWait = some w) ∧ (s.ptpTakes n 44 m = true) ∧ (s.ptpFromParent n m = true) ∧ (w.seq = ptpSeqOf m) ∧
    (w.ident = ptpIdentOf m) := by
  exact ⟨st56, 2, ([8, 18, 0, 44] ++ zeros 16 ++ [1, 2, 3, 4, 5, 6, 7, 8, 9, 10, 0, 7, 0, 0, 0, 0, 0, 0, 0, 0, 0, 0, 0, 0] : Bytes), (⟨7, 0x102030405060708090A, 5, 6⟩ : SyncWait), by decide +kernel⟩

theorem meets_PtpComplete_2 : ∃ (s : State) (n : Nat) (m : Bytes) (t3 : Int) (ms : Int), (s.clocked = true) ∧
    (s.ctl.down = false) ∧ (n < 6) ∧ (s.time.reqWait = some (ptpSeqOf m, t3)) ∧ (s.time.msDelay = some ms) ∧
    (s.ptpTakes n 54 m = true) ∧ (s.ptpFromParent n m = true) ∧ (fieldBE m 44 10 = s.ptpPort) := by
  exact ⟨st57, 2, ([9, 18, 0, 54] ++ zeros 16 ++ [1, 2, 3, 4, 5, 6, 7, 8, 9, 10, 0, 7] ++ zeros 21 ++ [1] : Bytes), (55 : Int), (66 : Int), by decide +kernel⟩

theorem meets_PtpComplete_3 : ∃ (s : State) (n : Nat) (m : Bytes), (s.clocked = true) ∧ (s.ctl.down = false) ∧ (n < 6) ∧
    (s.ptpTakes n 44 m = true) ∧ (s.g 0x5001 0 0x11 = 6) ∧ (n = s.g 0x5001 0 0x12) ∧ (s.g 0x5001 0 0x07 = 1) ∧
    (s.macIdle n = true) := by
  exact ⟨st58, 2, ([1, 18, 0, 44] ++ zeros 16 ++ [1, 2, 3, 4, 5, 6, 7, 8, 9, 10, 0, 7, 0, 0, 0, 0, 0, 0, 0, 0, 0, 0, 0, 0] : Bytes), by decide +kernel⟩

theorem meets_PtpComplete_4 : ∃ (s : State) (n : Nat) (clock : Nat), (s.clocked = true) ∧ (s.ctl.down = false) ∧ (n < 6) ∧
    (s.g 0x5001 0 0x11 = 8 ∨ s.g 0x5001 0 0x11 = 9) ∧ (s.macIdle (s.g 0x5001 0 0x12) = true) ∧
    (s.time.sentReq + s.ptpInterval 0x0B ≤ max s.clock clock) ∧ (s.time.txq.length < 16) := by
  exact ⟨st59, 0, secC 1, by decide +kernel⟩

theorem meets_PtpComplete_5 : ∃ (s : State) (n : Nat) (clock : Nat), (s.clocked = true) ∧ (s.ctl.down = false) ∧ (n < 6) ∧
    (s.g 0x5001 0 0x11 = 6) ∧ (s.macIdle (s.g 0x5001 0 0x12) = true) ∧
    (s.time.sentSync + s.ptpInterval 0x09 ≤ max s.clock clock) ∧ (s.time.txq.length < 16) := by
  exact ⟨st60, 0, secC 1, by decide +kernel⟩

theorem meets_PtpComplete_6 : ∃ (s : State) (n : Nat) (m : Bytes), (s.clocked = true) ∧ (s.ctl.down = false) ∧ (n < 6) ∧
    (s.ptpTakes n 64 m = true) ∧ (ptpIdentOf m / 65536 ≠ beNat s.ptpIdent) ∧ (fieldBE m 61 2 < 255) := by
  exact ⟨st61, 2, ([11, 18, 0, 64] ++ zeros 16 ++ [1, 2, 3, 4, 5, 6, 7, 8, 9, 10, 0, 7] ++ zeros 32 : Bytes), by decide +kernel⟩

theorem meets_PtpComplete_7 : ∃ (s : State), (s.clocked = true) ∧ (s.ctl.down = false) ∧ (s.on 0x5001 0 0x01 = true) ∧
    (s.g 0x5001 0 0x11 ∈ [4, 7, 8, 9]) ∧ (s.otherMac = none) ∧
    (max s.time.annFrom (mget 0 s.time.annAt (s.g 0x5001 0 0x12)) + s.annTimeout ≤ s.clock) := by
  exact ⟨st62, by decide +kernel⟩

theorem meets_TriggersComplete_0 : ∃ (s : State) (n : Nat) (h : Nat) (d : Bytes), (s.clocked = true) ∧ (n < 16) ∧
    (s.writeCheck h (opOf 0x5100 n 0x01 d) = stOK) ∧ (leNat d = 1) ∧ (s.target n = none) ∧
    (let x := if s.g 0x5100 n 0x02 = 0 then time80Ns (s.g 0x5100 n 0x03) else s.g 0x5100 n 0x04;
    (s.reached (s.g 0x5100 n 0x02) x s.clock = false)) := by
  exact ⟨{ regs [(0x5100, 0xf, 0x3, 5)] with clock := 9 }, 15, 0, [1], by decide +kernel⟩

theorem meets_TriggersComplete_1 : ∃ (s : State) (n : Nat) (h : Nat) (d : Bytes), (s.clocked = true) ∧ (n < 16) ∧
    (s.writeCheck h (opOf 0x5100 n 0x01 d) = stOK) ∧ (leNat d = 1) ∧ (s.target n = none) ∧
    (let x := if s.g 0x5100 n 0x02 = 0 then time80Ns (s.g 0x5100 n 0x03) else s.g 0x5100 n 0x04;
    (s.reached (s.g 0x5100 n 0x02) x s.clock = true)) := by
  exact ⟨{ regs [(0x5100, 0xf, 0x3, 2 ^ 48 * 5)] with clock := 90 }, 15, 0, [1], by decide +kernel⟩

theorem meets_TriggersComplete_2 : ∃ (s : State) (n : Nat) (h : Nat) (d : Bytes) (x : Nat), (s.clocked = true) ∧ (n < 16) ∧
    (s.writeCheck h (opOf 0x5100 n 0x01 d) = stOK) ∧ (leNat d = 0) ∧ (s.target n = some x) := by
  exact ⟨st63, 15, 0, [0], 7, by decide +kernel⟩

theorem meets_TriggersComplete_3 : ∃ (s : State) (n : Nat) (clock : Nat) (x : Nat), (s.clocked = true) ∧ (n < 16) ∧
    (s.target n = some x) ∧ (s.trigWaits n = false) ∧ (s.reached (s.g 0x5100 n 0x02) x (max s.clock clock) = true) := by
  exact ⟨st64, 15, 5, 7, by decide +kernel⟩

theorem meets_TriggersComplete_4 : ∃ (s : State) (n : Nat), (s.clocked = true) ∧ (n < 8) ∧ (s.on 0x5200 n 0x01 = true) ∧
    (mget? s.time.caps n = none) := by
  exact ⟨{ regs [(0x5200, 0x7, 0x1, 1)] with clock := 90 }, 7, by decide +kernel⟩

theorem meets_SprinklerReceives_0 : ∃ (s : State) (m : Bytes), (s.clocked = true) ∧ (s.ctl.down = false) ∧ (SprkHeard s m) ∧
    (let x := dgramOf m; (x.ty = 0 ∨ x.ty = 3) ∧ (s.sprkState = 2 ∨ s.sprkState = 7) ∧ (x.ty = 0 → s.sprk.unseen = false) ∧ (x.seq = s.sprkNext) ∧
    (s.sprk.hold = []) ∧ (seqNewer x.seq s.sprkLast = true)) := by
  exact ⟨st65, ([1, 0, 0, 0, 3, 0, 0, 0, 0, 0, 0, 0, 1, 0, 0, 0, 0, 0, 0, 0, 0, 0, 0, 0, 128, 187, 0, 0, 0, 0, 0, 0, 12, 20, 67, 159, 117, 213, 17, 121, 165, 20, 220, 187, 226, 75, 171, 49] : Bytes), by unfold SprkHeard; decide +kernel⟩

theorem meets_SprinklerReceives_1 : ∃ (s : State) (m : Bytes), (s.clocked = true) ∧ (s.ctl.down = false) ∧ (SprkHeard s m) ∧
    (let x := dgramOf m; (x.ty = 1) ∧ (s.isHead = false) ∧ (s.sprk.unseen = false)) := by
  exact ⟨st66, ([1, 1, 0, 0, 3, 0, 0, 0, 0, 0, 0, 0, 1, 0, 0, 0, 0, 0, 0, 0, 0, 0, 0, 0, 128, 187, 0, 0, 0, 0, 0, 0, 215, 251, 210, 90, 249, 42, 219, 241, 161, 11, 168, 211, 248, 163, 32, 81] : Bytes), by unfold SprkHeard; decide +kernel⟩

theorem meets_SprinklerReceives_2 : ∃ (s : State) (m : Bytes) (k : Nat × Nat × Bytes), (s.clocked = true) ∧
    (s.ctl.down = false) ∧ (SprkHeard s m) ∧ (let x := dgramOf m; (x.ty = 2) ∧ (s.isHead = true) ∧
    (fieldLE x.payload 4 2 = 1) ∧ (s.sprk.kept.find? (fun k => k.1 == fieldLE x.payload 0 4) = some k) ∧
    ((∀ p ∈ s.sprk.repaired, p.1 = fieldLE x.payload 0 4 → p.2 + msC 2 ≤ s.clock))) := by
  exact ⟨st67, ([1, 2, 0, 0, 3, 0, 0, 0, 0, 0, 0, 0, 1, 0, 0, 0, 0, 0, 0, 0, 0, 0, 0, 0, 128, 187, 0, 0, 8, 0, 0, 0, 9, 0, 0, 0, 1, 0, 0, 0, 9, 232, 183, 246, 233, 254, 16, 107, 123, 77, 187, 17, 112, 235, 186, 226] : Bytes), (9, 2, ([1, 2, 3] : Bytes)), by unfold SprkHeard; decide +kernel⟩

theorem meets_SprinklerReceives_3 : ∃ (s : State) (m : Bytes), (s.clocked = true) ∧ (s.ctl.down = false) ∧ (SprkHeard s m) ∧
    (let x := dgramOf m; (x.ty = 5) ∧ (s.isHead = true) ∧ (x.target = s.g 0x5400 0 0x01 ∨ x.target = 0xFFFF) ∧
    (s.g 0x5400 0 0x07 = 0xFF) ∧ (s.macIdle (s.g 0x5400 0 0x06) = true)) := by
  exact ⟨st68, ([1, 5, 0, 0, 3, 0, 0, 0, 0, 0, 0, 0, 1, 0, 0, 0, 0, 0, 0, 0, 0, 0, 0, 0, 128, 187, 0, 0, 0, 0, 0, 0, 108, 32, 231, 41, 56, 196, 180, 58, 129, 29, 205, 33, 16, 14, 194, 173] : Bytes), by unfold SprkHeard; decide +kernel⟩

theorem meets_SprinklerReceives_4 : ∃ (s : State) (m : Bytes), (s.clocked = true) ∧ (s.ctl.down = false) ∧ (SprkHeard s m) ∧
    (let x := dgramOf m; (x.ty = 6) ∧ (x.target = s.g 0x5400 0 0x01) ∧ (s.sprkState = 1 ∨ s.sprkState = 4) ∧
    (x.seq = 0 ∨ s.sprk.snapNext = some x.seq) ∧ (s.sprk.snapTags.contains (m.drop (m.length - 16)) = false) ∧
    (bit x.flags 0 = false)) := by
  exact ⟨st69, ([1, 6, 0, 0, 3] ++ zeros 19 ++ [128, 187, 0, 0, 0, 0, 0, 0, 75, 254, 3, 111, 108, 247, 148, 159, 127, 42, 88, 185, 3, 251, 203, 175] : Bytes), by unfold SprkHeard; decide +kernel⟩

theorem meets_SprinklerReceives_5 : ∃ (s : State) (m : Bytes), (s.clocked = true) ∧ (s.ctl.down = false) ∧ (SprkHeard s m) ∧
    (let x := dgramOf m; (x.ty = 6) ∧ (x.target = s.g 0x5400 0 0x01) ∧ (s.sprkState = 1 ∨ s.sprkState = 4) ∧
    (x.seq = 0 ∨ s.sprk.snapNext = some x.seq) ∧ (s.sprk.snapTags.contains (m.drop (m.length - 16)) = false) ∧
    (bit x.flags 0 = true) ∧ (s.sprk.hold = [])) := by
  exact ⟨st69, ([1, 6, 0, 0, 3] ++ zeros 19 ++ [128, 187, 0, 0, 4, 0, 0, 1, 77, 0, 0, 0, 18, 163, 155, 227, 215, 35, 60, 36, 169, 219, 226, 157, 4, 70, 197, 38] : Bytes), by unfold SprkHeard; decide +kernel⟩

theorem meets_SprinklerReceives_6 : ∃ (s : State) (m : Bytes), (s.clocked = true) ∧ (s.ctl.down = false) ∧ (SprkHeard s m) ∧
    (let x := dgramOf m; (x.ty = 4) ∧ (s.isHead = true ∨ s.g 0x5400 0 0x02 = 3)) := by
  exact ⟨st70, ([1, 4, 0, 0, 0, 0, 0, 0, 0, 0, 0, 0, 1, 0, 0, 0, 0, 0, 0, 0, 0, 0, 0, 0, 128, 187, 0, 0, 16] ++ zeros 19 ++ [206, 35, 161, 254, 190, 1, 153, 190, 234, 93, 225, 4, 86, 58, 3, 167] : Bytes),
      by unfold SprkHeard; decide +kernel⟩

theorem meets_SprinklerActs_0 : ∃ (s : State), (s.clocked = true) ∧ (s.ctl.down = false) ∧ (s.isHead = true) ∧
    (s.sprk.beatAt + msC 10 ≤ s.clock) := by
  exact ⟨st71, by decide +kernel⟩

theorem meets_SprinklerActs_1 : ∃ (s : State), (s.clocked = true) ∧ (s.ctl.down = false) ∧ (s.g 0x5400 0 0x02 ≠ 0) ∧
    (s.isHead = false) ∧ (s.sprk.statusAt + msC 100 ≤ s.clock) := by
  exact ⟨st72, by decide +kernel⟩

theorem meets_SprinklerActs_2 : ∃ (s : State), (s.clocked = true) ∧ (s.ctl.down = false) ∧ (s.sprk.gapAt ≠ none) ∧
    (s.sprkState = 3) ∧ (s.sprk.nakAt + msC 2 ≤ s.clock) ∧ (s.sprkGaps ≠ []) := by
  exact ⟨st73, by decide +kernel⟩

theorem meets_SprinklerActs_3 : ∃ (s : State) (g : Nat), (s.clocked = true) ∧ (s.ctl.down = false) ∧ (s.sprk.gapAt = some g) ∧
    (s.sprkState = 3) ∧ (g + s.lead / 2 ≤ s.now ∨ 256 ≤ s.sprk.hold.length) := by
  exact ⟨st74, 0, by decide +kernel⟩

theorem meets_SprinklerActs_4 : ∃ (s : State), (s.clocked = true) ∧ (s.ctl.down = false) ∧ (s.sprkState = 1 ∨ s.sprkState = 4) ∧
    (s.sprk.reqAt + msC 100 ≤ s.clock) := by
  exact ⟨st75, by decide +kernel⟩

theorem meets_SprinklerActs_5 : ∃ (s : State), (s.clocked = true) ∧ (s.ctl.down = false) ∧ (s.g 0x5400 0 0x02 = 3) ∧
    (s.sprkState ∈ [1, 3, 4, 5, 7]) ∧ ((s.sprkState = 5 → s.sprk.before ≠ 6)) ∧ (s.sprk.beatAt + msC (s.g 0x5400 0 0x0C) ≤ s.clock) := by
  exact ⟨st76, by decide +kernel⟩

theorem meets_HedgeStatesComplete_0 : ∃ (s : State) (h : Nat) (d : Bytes), (s.clocked = true) ∧
    (s.writeCheck h (opOf 0x5A00 0 0x01 d) = stOK) ∧ (leNat d = 1) ∧ (s.on 0x5A00 0 0x01 = false) ∧
    (s.on 0x5A00 0 0x06 = false) ∧ (s.power.hedgeOff = false) := by
  exact ⟨{ regs [] with clock := 9 }, 0, [1], by decide +kernel⟩

theorem meets_HedgeStatesComplete_1 : ∃ (s : State) (h : Nat) (d : Bytes), (s.clocked = true) ∧
    (s.writeCheck h (opOf 0x5A00 0 0x01 d) = stOK) ∧ (leNat d = 0) ∧ (s.on 0x5A00 0 0x01 = true) := by
  exact ⟨st77, 0, [0], by decide +kernel⟩

theorem meets_HedgeStatesComplete_2 : ∃ (s : State) (n : Nat) (j : Nat) (a : Nat), (s.clocked = true) ∧ (n < 24) ∧
    (s.modRuns n = true) ∧ (s.downEnded n = some (2, j, a)) := by
  exact ⟨st78, 23, 3840, 20000000, by decide +kernel⟩

theorem meets_HedgeStatesComplete_3 : ∃ (s : State), (s.clocked = true) ∧ (s.hedgeOn = false) ∧ (s.on 0x5A00 0 0x06 = true) ∧
    ((∀ n < 24, s.modRuns n = false)) ∧ (s.hedge.lowAt + msC 1 ≤ s.clock) := by
  exact ⟨{ regs [(0x5a00, 0x0, 0x6, 1)] with clock := msC 1 }, by decide +kernel⟩

theorem meets_HedgeStatesComplete_4 : ∃ (s : State) (h : Nat) (n : Nat) (d : Bytes), (s.clocked = true) ∧ (n < 24) ∧
    (s.writeCheck h (opOf 0x5800 n 0x01 d) = stOK) ∧ (leNat d = 1) ∧ (s.modState n = 0) := by
  exact ⟨{ regs [] with clock := msC 1 }, 0, 23, [1], by decide +kernel⟩

theorem meets_HedgeStatesComplete_5 : (∃ (s : State) (h n : Nat) (d : Bytes), (s.clocked = true) ∧ (n < 24) ∧
    (s.writeCheck h (opOf 0x5800 n 0x01 d) = stOK) ∧ (leNat d = 0) ∧ (s.modState n = 1)) ∧
    (∃ (s : State) (h n : Nat) (d : Bytes), (s.clocked = true) ∧ (n < 24) ∧ (s.writeCheck h (opOf 0x5800 n 0x01 d) = stOK) ∧
    (leNat d = 0) ∧ (s.modLive n = true) ∧ ((s.mod n).quiet = true)) ∧
    ∃ (s : State) (h n : Nat) (d : Bytes), (s.clocked = true) ∧ (n < 24) ∧ (s.writeCheck h (opOf 0x5800 n 0x01 d) = stOK) ∧
    (leNat d = 0) ∧ (s.modRuns n = true) ∧ ((s.mod n).ramp = none) := by
  exact ⟨⟨{ regs [(0x5800, 0x0, 0x1, 1), (0x5800, 0x0, 0x2, 1)] with clock := msC 1 }, 0, 0, [0], by decide +kernel⟩,
    ⟨{ st79 with hedge := { Hedge.init with chans := [(23, { HedgeCh.init with quiet := true })] } }, 0, 23, [0], by decide +kernel⟩,
    st79, 0, 23, [0], by decide +kernel⟩

theorem meets_HedgeStatesComplete_6 : ∃ (s : State) (n : Nat) (j : Nat) (a : Nat), (s.clocked = true) ∧ (n < 24) ∧
    (s.modRuns n = true) ∧ (s.downEnded n = some (1, j, a)) := by
  exact ⟨st80, 23, 3840, 20000000, by decide +kernel⟩

theorem meets_HedgeStatesComplete_7 : ∃ (s : State) (n : Nat), (s.clocked = true) ∧ (n < 24) ∧ (s.canStart n = true) := by
  exact ⟨st81, 23, by decide +kernel⟩

theorem meets_HedgeStatesComplete_8 : ∃ (s : State) (n : Nat) (r : HedgeRamp), (s.clocked = true) ∧ (n < 24) ∧
    ((s.mod n).ramp = some r) ∧ (r.up = true) ∧ (s.modState n = 2) ∧ (r.t0 + 100000000 ≤ 2 * s.clock) := by
  exact ⟨st82, 23, ⟨true, 0, 0, 0⟩, by decide +kernel⟩

theorem meets_HedgeMeasuresComplete_0 : ∃ (s : State) (a : Nat), (s.clocked = true) ∧ (s.hedge.retune = some (1, a)) ∧
    (let stop := s.boundary (s.periodFrom (2 * (a + msC 10))); (stop ≤ 2 * s.clock)) := by
  exact ⟨st83, 0, by decide +kernel⟩

theorem meets_HedgeMeasuresComplete_1 : ∃ (s : State) (a : Nat), (s.clocked = true) ∧ (s.hedge.retune = some (2, a)) ∧
    (a + msC 1 ≤ s.clock) := by
  exact ⟨st84, 0, by decide +kernel⟩

theorem meets_HedgeMeasuresComplete_2 : ∃ (s : State), (s.clocked = true) ∧ (s.hedge.block < s.now / 16) := by
  exact ⟨st85, by decide +kernel⟩

theorem meets_HedgeMeasuresComplete_3 : ∃ (s : State) (n : Nat), (s.clocked = true) ∧ (n < 24) ∧
    ((s.mod n).zAt + s.fA ≤ s.now) ∧ (s.fA / 160 ≤ (s.mod n).zBlocks) ∧ ((s.mod n).zI2 ≠ 0) := by
  exact ⟨st86, 23, by decide +kernel⟩

theorem meets_TripsComplete_0 : ∃ (s : State) (n : Nat) (w : Nat) (c : Nat) (k : Nat), (s.clocked = true) ∧ (n < 24) ∧
    (w < 2 ^ 32) ∧ (s.burstOf n (max s.clock c) = some k) ∧ (frameValid w = true) ∧ (let x := s.mod n;
    (x.above w = false ∨ x.overs = 0 ∨ x.set 0x03 ≠ 1)) := by
  exact ⟨regs [(0x5a00, 0x0, 0x1, 1), (0x5a00, 0x0, 0x6, 1), (0x5800, 0x17, 0x1, 1), (0x5800, 0x17, 0x2, 3)], 23, 0x800a007c, 325, 0, by decide +kernel⟩

theorem meets_TripsComplete_1 : ∃ (s : State) (n : Nat) (w : Nat) (c : Nat) (k : Nat), (s.clocked = true) ∧ (n < 24) ∧
    (w < 2 ^ 32) ∧ (s.burstOf n (max s.clock c) = some k) ∧ (frameValid w = true) ∧ (let x := s.mod n; (x.above w = true) ∧
    (1 ≤ x.overs) ∧ (x.set 0x03 = 1) ∧ (s.modLive n = true)) := by
  exact ⟨st87, 23, 0x8fa0ffb5, 0, 767999, by decide +kernel⟩

theorem meets_TripsComplete_2 : (∃ (s : State) (n w c k : Nat), (s.clocked = true) ∧ (n < 24) ∧ (w < 2 ^ 32) ∧
    (s.burstOf n (max s.clock c) = some k) ∧ (frameValid w = false) ∧ ((s.mod n).invalid < 7)) ∧
    ∃ (s : State) (n w c k : Nat), (s.clocked = true) ∧ (n < 24) ∧ (w < 2 ^ 32) ∧ (s.burstOf n (max s.clock c) = some k) ∧
    (frameValid w = false) ∧ (7 ≤ (s.mod n).invalid) ∧ ((s.mod n).set 0x03 = 1) ∧ (s.modLive n = true) := by
  exact ⟨⟨st88, 23, 0x800a007d, 325, 0, by decide +kernel⟩,
    { st88 with hedge := { Hedge.init with chans := [(23, { HedgeCh.init with invalid := 7 })] } }, 23, 0x800a007d, 325, 0, by decide +kernel⟩

theorem meets_TripsComplete_3 : ∃ (s : State) (n : Nat), (s.clocked = true) ∧ (n < 3) := by
  exact ⟨st89, 0, by decide +kernel⟩

theorem meets_TripsComplete_4 : (∃ (s : State) (n c r : Nat), (s.clocked = true) ∧ (n < 3) ∧
    (s.hedge.faults.filter (fun p => p.1 == n) = [(n, r)]) ∧ ({ s with clock := max s.clock c }.faultDue r = true) ∧
    (∃ i ∈ range' (8 * n) 8, { s with clock := max s.clock c }.identified (s.burstAfter r) i = true)) ∧
    ∃ (s : State) (n c r : Nat), (s.clocked = true) ∧ (n < 3) ∧ (s.hedge.faults.filter (fun p => p.1 == n) = [(n, r)]) ∧
    ({ s with clock := max s.clock c }.faultDue r = true) ∧
    (∀ i ∈ range' (8 * n) 8, { s with clock := max s.clock c }.identified (s.burstAfter r) i = false) ∧
    (∃ i ∈ range' (8 * n) 8, s.modLive i = true) := by
  exact ⟨⟨{ st90 with hedge := { st90.hedge with chans := [(7, { HedgeCh.init with recent := [(st90.burstAfter (secC 1 - 10000), some 0x40000000)] })] } },
    0, 0, secC 1 - 10000, by decide +kernel⟩, st90, 0, 0, secC 1 - 10000, by decide +kernel⟩

theorem meets_TripsComplete_5 : ∃ (s : State) (n : Nat), (s.clocked = true) ∧ (n < 24) ∧ (s.modState n = 4) ∧
    (s.on 0x5800 n 0x01 = true) ∧ ((s.mod n).trips.headD 0 + msC 200 ≤ s.clock) ∧ (((s.mod n).set 0x03 = 1 ∧
    ∃ w, (s.mod n).last = some w ∧ bit w 30 = false ∧ (s.mod n).above w = false) ∨ ((s.mod n).set 0x03 ≠ 1 ∧
    bit (s.g 0x5A00 0 0x0E) (n / 8) = true)) := by
  refine ⟨st91, 23, by decide +kernel, by decide +kernel, by decide +kernel, by decide +kernel, by decide +kernel,
    .inl ⟨by decide +kernel, 0x800a007c, by decide +kernel⟩⟩

theorem meets_TripsComplete_5_line : ∃ (s : State) (n : Nat), (s.clocked = true) ∧ (n < 24) ∧ (s.modState n = 4) ∧
    (s.on 0x5800 n 0x01 = true) ∧ ((s.mod n).trips.headD 0 + msC 200 ≤ s.clock) ∧ (((s.mod n).set 0x03 = 1 ∧
    ∃ w, (s.mod n).last = some w ∧ bit w 30 = false ∧ (s.mod n).above w = false) ∨ ((s.mod n).set 0x03 ≠ 1 ∧
    bit (s.g 0x5A00 0 0x0E) (n / 8) = true)) := by
  refine ⟨{ regs [(0x5800, 0x17, 0x2, 4), (0x5800, 0x17, 0x1, 1), (0x5a00, 0x0, 0xe, 4)] with
      clock := msC 200, hedge := { Hedge.init with chans := [(23, { HedgeCh.init with cfg := [0], trips := [0] })] } },
    23, by decide +kernel, by decide +kernel, by decide +kernel, by decide +kernel, by decide +kernel, .inr (by decide +kernel)⟩

theorem meets_TripsComplete_6 : ∃ (s : State) (h : Nat) (n : Nat) (d : Bytes), (s.clocked = true) ∧ (n < 24) ∧
    (s.writeCheck h (opOf 0x5800 n 0x11 d) = stOK) ∧ (s.modState n = 5) := by
  exact ⟨st92, 0, 0, [1], by decide +kernel⟩

theorem meets_TripsComplete_7 : ∃ (s : State) (h : Nat) (d : Bytes), (s.clocked = true) ∧
    (s.writeCheck h (opOf 0x5A00 0 0x10 d) = stOK) := by
  exact ⟨{ regs [] with blobs := [(K 0x5A00 0 0x07, [1, 2])] }, 0, [1], by decide +kernel⟩

theorem meets_MicrophonesComplete_0 : ∃ (s : State) (h : Nat) (sub : Nat) (d : Bytes), (s.clocked = true) ∧
    (sub = 0x01 ∨ sub = 0x03) ∧ (s.writeCheck h (opOf 0x5C00 0 sub d) = stOK) ∧ (¬ (sub = 0x01 ∧ s.fA = 96000 ∧
    leNat d = 3072000)) := by
  exact ⟨{ regs [] with now := 5 }, 0, 1, leBytes 4 6144000, by decide +kernel⟩

theorem meets_MicrophonesComplete_1 : ∃ (s : State) (B : Nat), (s.clocked = true) ∧ (s.meas.resetDue = some B) ∧
    (B ≤ s.now) := by
  exact ⟨st93, 16, by decide +kernel⟩

theorem meets_MicrophonesComplete_2 : ∃ (s : State) (n : Nat), (s.clocked = true) ∧ (n < 16) ∧ (s.micState n = 1) ∧
    (s.meas.clocked = true) ∧ ((s.mic n).resetDue = none) ∧ (s.meas.resetDue = none) ∧ ((s.mic n).resetAt + 256 ≤ s.now) := by
  exact ⟨{ st94 with meas := { st94.meas with clocked := true } }, 15, by decide +kernel⟩

theorem meets_MicrophonesComplete_3 : ∃ (s : State) (n : Nat), (s.clocked = true) ∧ (n < 16) ∧ (s.micState n = 2) ∧
    (2048 ≤ (s.mic n).same) := by
  exact ⟨st95, 15, by decide +kernel⟩

theorem meets_MicrophonesComplete_4 : ∃ (s : State) (n : Nat), (s.clocked = true) ∧ (n < 16) ∧ (s.micState n = 3) ∧
    ((s.mic n).alive = true) := by
  exact ⟨st96, 0, by decide +kernel⟩

theorem meets_MicrophonesComplete_5 : ∃ (s : State) (h : Nat) (n : Nat) (d : Bytes), (s.clocked = true) ∧ (n < 16) ∧
    (s.writeCheck h (opOf 0x5C10 n 0x07 d) = stOK) ∧ (d.length = 4 + 4 * fieldLE d 0 4) ∧ (1 ≤ fieldLE d 0 4) ∧
    (fieldLE d 0 4 ≤ 256) ∧ ((∀ x ∈ compTaps d, tapOk x = true)) := by
  exact ⟨st97, 0, 0, (leBytes 4 2 ++ leBytes 4 0x3F800000 ++ leBytes 4 0 : Bytes), by decide +kernel⟩

theorem meets_MicrophonesComplete_6 : ∃ (s : State) (n : Nat) (B : Nat) (taps : List F32), (s.clocked = true) ∧ (n < 16) ∧
    ((s.mic n).sw = none) ∧ ((s.mic n).pend = some (B, taps)) ∧ (B ≤ s.now) ∧ (s.now % 16 = 0) := by
  exact ⟨st98, 15, 304, ([1, 2] : List F32), by decide +kernel⟩

theorem meets_RunsComplete_0 : ∃ (s : State) (h : Nat) (n : Nat) (d : Bytes), (s.clocked = true) ∧ (n < 512) ∧
    (s.writeCheck h (opOf 0x5D10 n 0x01 d) = stOK) ∧ (leNat d = 1) ∧ (s.on 0x5D10 n 0x01 = false) ∧ (s.opens n = []) := by
  exact ⟨{ regs [] with now := 320 }, 0, 511, [1], by decide +kernel⟩

theorem meets_RunsComplete_1 : ∃ (s : State) (h : Nat) (n : Nat) (d : Bytes) (B : Nat), (s.clocked = true) ∧ (n < 512) ∧
    (s.writeCheck h (opOf 0x5D10 n 0x01 d) = stOK) ∧ (leNat d = 0) ∧ (s.on 0x5D10 n 0x01 = true) ∧
    (s.opens n = [(B, true)]) := by
  exact ⟨st99, 0, 511, [0], 0, by decide +kernel⟩

theorem meets_RunsComplete_2 : ∃ (s : State) (h : Nat) (d : Bytes), (s.clocked = true) ∧
    (s.writeCheck h (opOf 0x5D00 0 0x09 d) = stOK) ∧ (s.g 0x5D00 0 0x0B = 0) ∧
    (let outs := (List.range 512).filter (fun k => s.on 0x5D10 k 0x01 && s.on 0x5D10 k 0x02); (outs ≠ []) ∧
    (s.micState (s.g 0x5D00 0 0x08) = 2) ∧ (leNat d ≤ s.now + 2 ^ 31)) := by
  exact ⟨st100, 0, leBytes 8 0, by decide +kernel⟩

theorem meets_RunsComplete_3 : ∃ (s : State) (r : Align) (k : Nat), (s.clocked = true) ∧ (s.meas.run = some r) ∧
    (r.stim.outs[r.next]? = some k) ∧ (k < 512) ∧ (r.stim.startOf r.next ≤ s.now) := by
  exact ⟨st101, (⟨(⟨320, [5, 511], 0, 0xC1A00000, 0x41A00000, 0x469C4000, 0, 3, 480, 0, 48000⟩ : Stim), 0, [], 0⟩ : Align), 5,
      by decide +kernel⟩

theorem meets_RunsComplete_4 : ∃ (s : State) (r : Align) (c : Cap) (cs : List Cap), (s.clocked = true) ∧
    (s.meas.run = some r) ∧ (r.caps = c :: cs) ∧ (c.out < 512) ∧ (c.at_ + r.stim.M + r.stim.gap + 1 ≤ s.now) ∧
    (s.pieceRun = true) := by
  exact ⟨st102, (⟨(⟨0, [5, 511], 0, 0xC1A00000, 0x41A00000, 0x469C4000, 0, 3, 480, 0, 48000⟩ : Stim), 1, [(⟨0, 5, 0, [⟨0, [1, 2, 3], false⟩], none, [], false, false⟩ : Cap)], 0⟩ : Align), (⟨0, 5, 0, [⟨0, [1, 2, 3], false⟩], none, [], false, false⟩ : Cap),
      ([] : List Cap), by decide +kernel⟩

theorem meets_RunsComplete_5 : ∃ (s : State) (r : Align), (s.clocked = true) ∧ (s.meas.run = some r) ∧
    (r.stim.outs.length ≤ r.done) := by
  exact ⟨st103, (⟨(⟨0, [5, 511], 0, 0xC1A00000, 0x41A00000, 0x469C4000, 0, 3, 480, 0, 48000⟩ : Stim), 2, [], 2⟩ : Align),
      by decide +kernel⟩

theorem meets_RunsComplete_6 : ∃ (s : State) (h : Nat) (d : Bytes) (r : Align), (s.clocked = true) ∧
    (s.writeCheck h (opOf 0x5D00 0 0x0A d) = stOK) ∧ (s.meas.run = some r) := by
  exact ⟨st104, 0, [1], (⟨(⟨0, [5, 511], 0, 0xC1A00000, 0x41A00000, 0x469C4000, 0, 3, 480, 0, 48000⟩ : Stim), 1, [(⟨0, 5, 0,
      [⟨0, [1, 2, 3], false⟩], none, [], false, false⟩ : Cap)], 0⟩ : Align), by decide +kernel⟩

theorem meets_RunsComplete_7 : ∃ (s : State) (cause : Nat) (f : Nat), (s.clocked = true) ∧ (s.nextFreeze = some (cause, f)) ∧
    (s.g 0x5D80 0 0x06 = 1) := by
  exact ⟨st105, 1, 309, by decide +kernel⟩

theorem meets_RunsComplete_8 : ∃ (s : State), (s.clocked = true) ∧ (s.g 0x5D80 0 0x06 = 2) ∧
    (s.meas.frozeAt + s.meas.post ≤ s.now) := by
  exact ⟨st106, by decide +kernel⟩

theorem meets_RunsComplete_9 : ∃ (s : State) (h : Nat) (d : Bytes), (s.clocked = true) ∧
    (s.writeCheck h (opOf 0x5D80 0 0x05 d) = stOK) ∧ (s.g 0x5D80 0 0x06 = 3) := by
  exact ⟨st107, 0, [1], by decide +kernel⟩

theorem meets_ChainsComplete_0 : ∃ (s : State) (n : Nat) (h : Nat) (d : Bytes) (x : Desc), (s.clocked = true) ∧ (n < 256) ∧
    (s.writeCheck h (opOf 0x5E10 n 0x02 d) = stOK) ∧ (s.chainState n < 2) ∧ (d.length ≤ 65536) ∧ (readDesc d = some x) ∧
    (s.descCheck h d x = none) := by
  exact ⟨(regs []), 255, 0, bytes5, (readDesc (bytes5 : Bytes)).getD ⟨0, false, 0, 0, 0, 0, [], []⟩, by decide +kernel⟩

theorem meets_ChainsComplete_1 : ∃ (s : State) (n : Nat) (h : Nat) (d : Bytes) (x : Desc) (reason : Nat) (item : Nat),
    (s.clocked = true) ∧ (n < 256) ∧ (s.writeCheck h (opOf 0x5E10 n 0x02 d) = stOK) ∧ (s.chainState n < 2) ∧ (d.length ≤ 65536) ∧
    (readDesc d = some x) ∧ (s.descCheck h d x = some (stOutOfRange, reason, item)) := by
  exact ⟨(regs [(0x5e10, 0x0, 0x5, 1)]), 0, 0, bytes6, (readDesc (bytes6 : Bytes)).getD ⟨0, false, 0, 0, 0, 0, [], []⟩, 3, 0,
      by decide +kernel⟩

theorem meets_ChainsComplete_2 : ∃ (s : State) (n : Nat) (h : Nat) (d : Bytes) (i : Nat), (s.clocked = true) ∧ (n < 256) ∧
    (s.writeCheck h (opOf 0x5E10 n 0x01 d) = stOK) ∧ (leNat d = 1) ∧ (s.chainState n = 1) ∧
    ((∀ k ∈ (s.desc n).kerns, s.kernKnown k.id = true)) ∧ (s.findCore n = (i, 0)) := by
  exact ⟨st108, 255, 0, [1], (st108.findCore 255).1, by decide +kernel⟩

theorem meets_ChainsComplete_3 : ∃ (s : State) (n : Nat) (h : Nat) (d : Bytes), (s.clocked = true) ∧ (n < 256) ∧
    (s.writeCheck h (opOf 0x5E10 n 0x01 d) = stOK) ∧ (leNat d = 0) ∧ (2 ≤ s.chainState n) ∧ (s.chainState n ≤ 4) ∧
    ((s.chainSt n).closing = false) := by
  exact ⟨st109, 255, 0, [0], by decide +kernel⟩

theorem meets_ChainsComplete_4 : ∃ (s : State) (n : Nat) (i : Nat) (y : List Int), (s.clocked = true) ∧ (n < 256) ∧
    ((s.chainSt n).closing = true) ∧ ((s.chainSt n).cur = none) ∧ ((s.chainSt n).ramp = some (false, i, y)) ∧ (64 ≤ i) ∧
    (s.on 0x5E10 n 0x01 = false) := by
  exact ⟨st110, 255, 64, ([] : List Int), by decide +kernel⟩

theorem meets_ChainsComplete_5 : ∃ (s : State) (n : Nat) (h : Nat) (d : Bytes) (rs : List ParRec) (ps : List Bytes),
      (s.clocked = true) ∧
    (n < 256) ∧ (s.writeCheck h (opOf 0x5E10 n 0x03 d) = stOK) ∧ (s.placed.contains n = true) ∧ (readPars 256 d = some rs) ∧
    ((∀ r ∈ rs, r.zero = true)) ∧
    (putPars ((s.chainSt n).pend.foldl (fun p w => (putPars p w).getD p) (s.chainSt n).pars) d = some ps) ∧
    ((∀ (i : Nat) (p : Bytes), ps[i]? = some p → ∃ q : Kern, (s.desc n).kerns[i]? = some q ∧
    s.kernPar q.id q.ins.length (s.desc n).b p = true ∧ s.kernForm q.id q.ins.length q.outs.length p = true)) := by
  refine ⟨st111, 255, 0, ([0, 0, 0, 0, 4, 0, 0, 0, 5, 0, 0, 0] : Bytes), (readPars 256 (([0, 0, 0, 0, 4, 0, 0, 0, 5, 0, 0, 0] : Bytes) : Bytes)).getD [],
      (putPars ((st111.chainSt (255 : Nat)).pend.foldl (fun p w => (putPars p w).getD p) (st111.chainSt (255 : Nat)).pars) (([0, 0, 0, 0, 4, 0, 0, 0, 5, 0, 0, 0] : Bytes) : Bytes)).getD [], ?_, ?_, ?_, ?_, ?_, ?_, ?_, ?_⟩
  iterate 7 decide +kernel
  intro i p hp
  match i with
  | 0 => exact ⟨_, rfl, by injection hp with hp; subst hp; decide +kernel⟩
  | i + 1 => rw [List.getElem?_eq_none (Nat.le_trans (by decide +kernel : _ ≤ 1) (by omega))] at hp; cases hp

theorem meets_ChainRunsComplete_0 : ∃ (s : State) (n : Nat), (s.clocked = true) ∧ (s.engines.running = true) ∧
    (s.flagDue n = true) ∧ (mget? s.pool.raised n ≠ some s.now) := by
  exact ⟨st112, 0, by decide +kernel⟩

theorem meets_ChainRunsComplete_0_waits : ∃ (s : State) (n c : Nat) (j : Job), (s.clocked = true) ∧ (s.engines.running = true) ∧
    (s.flagDue n = true) ∧ (mget? s.pool.raised n ≠ some s.now) ∧ (n < 3) ∧ (s.placed = [c]) ∧ ((s.chainSt c).next = none) ∧
    ((s.desc c).flag = n) ∧ ((s.gate c).1 = true) ∧ ((s.chainSt c).firstX ≤ s.now - 1) ∧ ((s.chainSt c).closing = false) ∧
    ((s.chainSt c).wait = none) ∧ ((s.chainSt c).cur = some j) := by
  exact ⟨st112, 0, 5, ⟨1, [], 0, 0, false, 0, []⟩, by decide +kernel⟩

theorem meets_ChainRunsComplete_1 : ∃ (s : State) (n : Nat) (j : Job), (s.clocked = true) ∧ (n < 256) ∧
    ((s.chainSt n).cur = some j) ∧ (j.missed = false) ∧ (s.now < j.X + 1 + (s.desc n).b) := by
  exact ⟨st113, 255, (⟨304, [List.replicate 16 (4096 : Int)], 5, 6, false, 0, []⟩ : Job), by decide +kernel⟩

theorem meets_ChainRunsComplete_2 : ∃ (s : State) (n : Nat) (j : Job), (s.clocked = true) ∧ (n < 256) ∧
    ((s.chainSt n).cur = some j) := by
  exact ⟨st114, 255, (⟨304, [List.replicate 16 (4096 : Int)], 5, 6, false, 0, []⟩ : Job), by decide +kernel⟩

theorem meets_ChainRunsComplete_3 : ∃ (s : State) (n : Nat) (j : Job), (s.clocked = true) ∧ (n < 256) ∧
    ((s.chainSt n).cur = some j) ∧ (j.overdue (s.desc n).b s.now = true) := by
  exact ⟨st114, 255, (⟨304, [List.replicate 16 (4096 : Int)], 5, 6, false, 0, []⟩ : Job), by decide +kernel⟩

theorem meets_ChainRunsComplete_4 : ∃ (s : State) (h : Nat) (d : Bytes), (s.clocked = true) ∧
    (s.writeCheck h (opOf 0x5F00 0 0x03 d) = stOK) := by
  exact ⟨(regs [(0x5f00, 0x0, 0x2, 5)]), 0, leBytes 8 0x8000000000000000, by decide +kernel⟩

theorem meets_ChainRunsComplete_5 : ∃ (s : State) (h : Nat) (n : Nat) (d : Bytes), (s.clocked = true) ∧ (n < 8) ∧
    (s.power.mram = none) ∧ (s.packInUse n = false) ∧ (s.writeCheck h (opOf 0x5E30 n 0x01 d) = stOK) ∧ (d.length = 160 + fieldLE d 12 4) ∧ (d.length ≤ 524288) ∧
    (slice d 0 4 = [0x55, 0x4B, 0x50, 0x4B]) ∧ (fieldLE d 4 2 = 1) ∧ (fieldLE d 6 2 ≠ 0) ∧ (fieldLE d 6 2 ≤ 64) ∧
    (slice d 16 48 = sha384 (packBody d)) ∧ (s.g 0x5E30 n 0x05 ≤ fieldLE d 8 4) ∧
    ((∀ i ∈ packIds d, romKernels.contains i = false ∧
    ∀ j < 8, j ≠ n → s.g 0x5E30 j 0x03 = 1 → (packIds (s.pack j)).contains i = false)) := by
  refine ⟨(regs [(0x5e30, 0x7, 0x5, 9)]), 0, 7, ([85, 75, 80, 75, 1, 0, 1, 0, 9, 0, 0, 0, 64, 0, 0, 0, 197, 22, 170, 141, 59, 69, 124, 99, 108, 104, 38, 147, 112, 153, 192, 210, 58, 19, 242, 195, 112, 26, 56, 139, 60, 143, 228, 188, 32, 115, 40, 27, 12, 68, 98, 97, 3, 105, 136, 76, 74, 186, 186, 142, 151, 182, 222, 190] ++ zeros 160 : Bytes), ?_, ?_, ?_, ?_, ?_, ?_, ?_, ?_, ?_, ?_, ?_,
      ?_, ?_, ?_⟩
  iterate 13 decide +kernel
  intro i hi
  obtain ⟨j, -, rfl⟩ := List.mem_map.mp hi
  refine ⟨by simp [romKernels, packId]; omega, fun j hj _ h => absurd h ?_⟩
  exact (by decide +kernel : ∀ j < 8, (regs [(0x5E30, 7, 5, 9)]).g 0x5E30 j 0x03 ≠ 1) j hj

theorem meets_ChainRunsComplete_6 : ∃ (s : State) (h : Nat) (n : Nat) (d : Bytes), (s.clocked = true) ∧ (n < 8) ∧
    (s.power.mram = none) ∧ (s.packInUse n = false) ∧ (s.writeCheck h (opOf 0x5E30 n 0x02 d) = stOK) := by
  exact ⟨st115, 0, 7, [1], by decide +kernel⟩

theorem meets_ChainRunsComplete_7 : ∃ (s : State) (r : MramRun), (s.clocked = true) ∧ (s.ctl.down = false) ∧ (s.pending = []) ∧
    (s.ctl.held = none) ∧ (s.power.mram = some r) ∧ (r.place < 8) ∧ (r.ends ≤ s.clock) := by
  exact ⟨{ regs [] with clock := 9, power := { Power.init with mram := some ⟨7, [1], 9, true⟩ } }, ⟨7, [1], 9, true⟩,
    by decide +kernel⟩

theorem meets_MemoryComplete_0 : ∃ (s : State) (n : Nat) (m : Nat) (e : Nat), (s.clocked = true) ∧
    ((s.port14 n).lock = some (m, e)) := by
  exact ⟨{ regs [] with clock := 5, mem := { Mem.init with ports := [(1, { BusPort.init with lock := some (4, 9) })] } }, 1, 4, 9, by decide +kernel⟩

theorem meets_MemoryComplete_1 : ∃ (s : State), (s.clocked = true) ∧ (s.g 0x6200 0 0x01 = 1) ∧ (s.alerted = false) ∧
    (s.waitsFor 7 true = false) ∧ (s.waitsFor 8 true = false) ∧ (s.mem.debt < 4) := by
  exact ⟨{ regs [(0x6200, 0x0, 0x1, 1)] with clock := 5, mem := { Mem.init with debt := 3 } }, by decide +kernel⟩

theorem meets_MemoryComplete_1_alerted : ∃ (s : State), (s.clocked = true) ∧ (s.g 0x6200 0 0x01 = 1) ∧ (s.alerted = true) ∧
    (s.mem.debt < 4) := by
  exact ⟨{ regs [(0x6200, 0x0, 0x1, 1)] with clock := 5, mem := { Mem.init with debt := 3, sub1 := { Mem.init.sub1 with alert := true } } },
    by decide +kernel⟩

theorem meets_MemoryComplete_1_full : ∃ (s : State), (s.clocked = true) ∧ (s.g 0x6200 0 0x01 = 1) ∧ (s.alerted = false) ∧
    (4 ≤ s.mem.debt) := by
  exact ⟨{ regs [(0x6200, 0x0, 0x1, 1)] with clock := 5, mem := { Mem.init with debt := 4 } }, by decide +kernel⟩

theorem meets_MemoryComplete_2 : ∃ (s : State), (s.clocked = true) ∧ (s.mem.nrr.length < 16) := by
  exact ⟨{ regs [] with mem := { Mem.init with nrr := List.replicate 15 ⟨1, 2, 3, 4⟩ } }, by decide +kernel⟩

theorem meets_MemoryComplete_3 : ∃ (s : State) (n : Nat) (x : NrrPick), (s.clocked = true) ∧
    (s.mem.nrr.find? (fun y => y.sub == n) = some x) ∧ ((s.mem.sub n).alert = false) ∧ (s.g 0x6200 0 0x01 = 1) ∧
    (s.openRow n x.bank = none) ∧ (s.waitsFor (7 + n) false = false ∨ x.at_ + 10000 ≤ s.clock) ∧ (0 < x.row) ∧ (x.row < 65535) := by
  exact ⟨{ regs [(0x6200, 0x0, 0x1, 1)] with mem := { Mem.init with nrr := [⟨0, 7, 8, 0⟩, ⟨1, 5, 6, 0⟩] } }, 1, ⟨1, 5, 6, 0⟩,
    by decide +kernel⟩

theorem meets_MemoryComplete_4 : ∃ (s : State) (n : Nat), (s.clocked = true) ∧ ((s.mem.sub n).alert = false) := by
  exact ⟨(regs []), 0, by decide +kernel⟩

theorem meets_MemoryComplete_5 : ∃ (s : State) (n w : Nat) (d : DramWord), (s.clocked = true) ∧ ((s.mem.sub n).alert = true) ∧
    (LastOf ((s.mem.sub n).replayed.filterMap (fun c => match c with
      | .write w d => some (w, d)
      | _ => none)) w d) := by
  refine ⟨{ regs [] with mem := { Mem.init with sub0 := { SubCh.init with alert := true, retry := [(1, .write 3 DramWord.zero)] } }, clock := 5 }, 0, 3,
    DramWord.zero, by decide +kernel, by decide +kernel, [], [], by decide +kernel, nofun⟩

theorem meets_MemoryComplete_6 : ∃ (s : State), (s.clocked = true) ∧ (s.g 0x6200 0 0x01 = 1) ∧ (s.alerted = false) ∧
    (s.mem.zqDue.getD (s.mem.zqAt + msC (s.g 0x6200 0 0x0C)) ≤ s.clock) := by
  exact ⟨{ regs [(0x6200, 0x0, 0x1, 1)] with clock := secC 100 }, by decide +kernel⟩

theorem meets_MemoryComplete_7 : ∃ (s : State), (s.clocked = true) ∧ (s.engines.running = false) ∧ (s.g 0x6200 0 0x01 = 3) := by
  exact ⟨{ regs [(0x6200, 0x0, 0x1, 3)] with clock := 9 }, by decide +kernel⟩

theorem meets_MemoryComplete_8 : ∃ (s : State) (n offset : Nat), (s.clocked = true) ∧ (n < 2) ∧ (s.g 0x6200 0 0x01 = 1) ∧
    ((s.mem.sub n).alert = false) ∧ (s.waitsFor (7 + n) false = false) ∧ (s.mem.scrubbed n < 2 ^ 26) ∧
    (offset / 64 = subWord n (s.mem.scrubbed n)) ∧ ((s.dramWord (offset / 64)).bad = true) := by
  exact ⟨{ regs [(0x6200, 0x0, 0x1, 1)] with clock := 9, mem := { Mem.init with scrub1 := 9, dram := [(25, DramWord.spoilt (zeros 64))] } },
    1, 25 * 64, by decide +kernel⟩

theorem meets_MemoryComplete_8_last : ∃ (s : State) (n offset : Nat), (s.clocked = true) ∧ (n < 2) ∧ (s.g 0x6200 0 0x01 = 1) ∧
    ((s.mem.sub n).alert = false) ∧ (s.waitsFor (7 + n) false = false) ∧ (s.mem.scrubbed n < 2 ^ 26) ∧
    (offset / 64 = subWord n (s.mem.scrubbed n)) ∧ (2 ^ 27 ≤ s.mem.scrub0 + s.mem.scrub1 + 1) := by
  exact ⟨{ regs [(0x6200, 0x0, 0x1, 1)] with clock := 9, mem := { Mem.init with scrub0 := 2 ^ 26 - 1, scrub1 := 2 ^ 26 } }, 0,
    64 * subWord 0 (2 ^ 26 - 1), by decide +kernel⟩

theorem meets_MemoryComplete_9 : ∃ (s : State) (n word err : Nat), (s.clocked = true) ∧ (1 ≤ n) ∧ (n ≤ 6) ∧
    (word = mget 0 s.mem.patrol n) ∧ (secDecode n err = 1) := by
  exact ⟨{ regs [] with mem := { Mem.init with patrol := [(5, 3)] } }, 5, 3, 2 ^ 38, by decide +kernel⟩

theorem meets_MemoryComplete_10 : ∃ (s : State) (n word err : Nat), (s.clocked = true) ∧ (1 ≤ n) ∧ (n ≤ 6) ∧
    (word = mget 0 s.mem.patrol n) ∧ (n < 6) ∧ (secDecode n err = 2) := by
  exact ⟨{ regs [] with mem := { Mem.init with patrol := [(5, 3)] } }, 5, 3, 2 ^ 38 + 1, by decide +kernel⟩

theorem meets_MemoryComplete_11 : ∃ (s : State) (n word err : Nat), (s.clocked = true) ∧ (1 ≤ n) ∧ (n ≤ 6) ∧
    (word = mget 0 s.mem.patrol n) ∧ (n = 6) ∧ (secDecode n err = 2) ∧ (s.power.ctlReset = none) ∧ (s.power.devReset = none) := by
  exact ⟨(regs []), 6, 0, 3, by decide +kernel⟩

theorem meets_MemoryComplete_12 : ∃ (s : State), (s.clocked = true) ∧ (s.refreshesItself = true) ∧ (0 < s.mem.debt) := by
  exact ⟨{ st116 with clock := msC 1 }, by decide +kernel⟩

theorem meets_MemoryComplete_13 : ∃ (s : State) (h : Nat) (n : Nat) (d : Bytes), (s.clocked = true) ∧ (n < 10) ∧
    (s.writeCheck h (opOf 0x6210 n 0x05 d) = stOK) ∧ (leNat d = 1) ∧ (s.markedDevice (n / 5) = none) := by
  exact ⟨{ regs [] with now := 7 }, 0, 9, [1], by decide +kernel⟩

theorem meets_MemoryComplete_14 : ∃ (s : State) (h : Nat) (n : Nat) (d : Bytes), (s.clocked = true) ∧ (n < 10) ∧
    (s.writeCheck h (opOf 0x6210 n 0x05 d) = stOK) ∧ (leNat d = 0) := by
  exact ⟨st117, 0, 9, [0], by decide +kernel⟩

theorem meets_ObservationComplete_0 : ∃ (s : State) (h : Nat) (d : Bytes), (s.clocked = true) ∧
    (s.writeCheck h (opOf 0x6A00 0 0x17 d) = stOK) := by
  exact ⟨{ regs [(0x6800, 0x0, 0x1, 7)] with now := 5, clock := 6 }, 0, leBytes 4 0x12345678, by decide +kernel⟩

theorem meets_ObservationComplete_1 : ∃ (s : State) (h : Nat) (d : Bytes), (s.clocked = true) ∧
    (s.writeCheck h (opOf 0x6A00 0 0x01 d) = stOK) ∧ (leNat d = 1) ∧ (s.on 0x6A00 0 0x01 = false) := by
  exact ⟨{ regs [] with now := 5, clock := 6 }, 0, [1], by decide +kernel⟩

theorem meets_ObservationComplete_2 : ∃ (s : State) (h : Nat) (d : Bytes), (s.clocked = true) ∧
    (s.writeCheck h (opOf 0x6A00 0 0x01 d) = stOK) ∧ (leNat d = 0) ∧ (s.on 0x6A00 0 0x01 = true) := by
  exact ⟨{ regs [(0x6a00, 0x0, 0x1, 1), (0x6a00, 0x0, 0x1e, 1)] with now := 5, clock := 6 }, 0, [0], by decide +kernel⟩

theorem meets_ObservationComplete_3 : ∃ (s : State), (s.clocked = true) ∧ (s.on 0x6A00 0 0x01 = true) ∧
    (s.g 0x6A00 0 0x02 = 1) ∧ (s.trace.syncAt + s.g 0x6A00 0 0x03 ≤ s.clock) := by
  exact ⟨st118, by decide +kernel⟩

theorem meets_ObservationComplete_4 : ∃ (s : State), (s.clocked = true) ∧ (s.g 0x6A00 0 0x06 ≠ 0) ∧
    (s.on 0x6A00 0 0x01 = true) ∧ (s.traceType 444 = true) ∧ (s.trace.snapAt + usC (s.g 0x6A00 0 0x07) ≤ s.clock) := by
  exact ⟨st119, by decide +kernel⟩

theorem meets_ResetsComplete_0 : ∃ (b : BootIn), (b.mode % 4 = 1 ∨ b.mode % 4 = 2) ∧ (b.failAt ≠ some 1) ∧
    (b.failAt ≠ some 2) := by
  exact ⟨(⟨1, false, true, true, [], 0x41A00000, none, [], [], 0⟩ : BootIn), by decide +kernel⟩

theorem meets_ResetsComplete_1 : ∃ (s : State) (b : BootIn), (b.mode % 4 = 1 ∨ b.mode % 4 = 2) ∧ (b.failAt ≠ some 1) ∧
    (b.failAt ≠ some 2) ∧ (s.power.supplyDown = false) := by
  exact ⟨st120, (⟨1, false, true, true, [], 0x41A00000, none, [], [], 0⟩ : BootIn), by decide +kernel⟩

theorem meets_ResetsComplete_2 : ∃ (s : State) (b : BootIn), (b.mode % 4 = 1 ∨ b.mode % 4 = 2) ∧ (b.failAt ≠ some 1) ∧
    (b.failAt ≠ some 2) ∧ (s.power.supplyDown = true) := by
  exact ⟨{ regs [] with power := { Power.init with supplyDown := true } }, { boot0 with mode := 2 }, by decide +kernel⟩

theorem meets_ResetsComplete_3 : ∃ (s : State) (b : BootIn), (b.mode % 4 = 1 ∨ b.mode % 4 = 2) ∧ (b.failAt ≠ some 1) ∧
    (b.failAt ≠ some 2) ∧ (s.clocked = true) := by
  exact ⟨st121, (⟨1, false, true, true, [], 0x41A00000, none, [], [], 0⟩ : BootIn), by decide +kernel⟩

theorem meets_ResetsComplete_4 : ∃ (s : State) (b : BootIn) (cause : Nat) (n : Nat) (secs : Nat) (f : _),
    (b.mode % 4 = 1 ∨ b.mode % 4 = 2) ∧ (b.failAt ≠ some 1) ∧ (b.failAt ≠ some 2) ∧ (s.power.supplyDown = false) ∧
    (s.power.standby = true) ∧ (s.wakeArmed cause (n % 8) (n / 8) secs f = true) := by
  exact ⟨st122, (⟨6, false, true, true, [], 0x41A00000, some 5, [], [], 0⟩ : BootIn), 5, 0, 0, [], by decide +kernel⟩

theorem meets_ResetsComplete_5 : ∃ (s : State) (b : BootIn), (b.mode % 4 = 1 ∨ b.mode % 4 = 2) ∧ (b.failAt ≠ some 1) ∧
    (b.failAt ≠ some 2) ∧ (s.power.supplyDown = false) ∧ (s.power.standby = true) := by
  exact ⟨st122, (⟨6, false, true, true, [], 0x41A00000, some 5, [], [], 0⟩ : BootIn), by decide +kernel⟩

theorem meets_ResetsComplete_6 : ∃ (s : State) (b : BootIn) (cause : Nat) (n : Nat) (secs : Nat) (f : _),
    (b.mode % 4 = 1 ∨ b.mode % 4 = 2) ∧ (b.failAt ≠ some 1) ∧ (b.failAt ≠ some 2) ∧ (s.clocked = true) ∧
    (s.wakeArmed cause (n % 8) (n / 8) secs f = true) ∧ (s.g 0x6500 0 0x03 = 3) ∧ (s.g 0x6500 0 0x01 = 2) := by
  exact ⟨st123, (⟨6, false, true, true, [], 0x41A00000, some 5, [], [], 0⟩ : BootIn), 3, 0, 0, [], by decide +kernel⟩

theorem meets_ResetsComplete_7 : ∃ (s : State) (b : BootIn) (h : Nat) (d : Bytes), (b.mode % 4 = 1 ∨ b.mode % 4 = 2) ∧
    (b.failAt ≠ some 1) ∧ (b.failAt ≠ some 2) ∧ (s.clocked = true) ∧ (s.power.devReset = none) ∧
    (s.writeCheck h (opOf 0x6501 0 0x01 d) = stOK) ∧ (s.engines.running = true) := by
  exact ⟨{ regs [] with now := 99, clock := 100, engines := engOn }, (⟨6, false, true, true, [], 0x41A00000, some 5, [], [], 0⟩ : BootIn), 0, [1], by decide +kernel⟩

theorem meets_ResetsComplete_8 : ∃ (s : State) (b : BootIn) (B : Nat) (cause : Nat) (e : Bool),
    (b.mode % 4 = 1 ∨ b.mode % 4 = 2) ∧ (b.failAt ≠ some 1) ∧ (b.failAt ≠ some 2) ∧ (s.clocked = true) ∧
    (s.power.devReset = some (B, cause, e)) ∧ (s.engines.running = true) ∧ (B ≤ s.now) ∧ (s.now < B + 64) := by
  exact ⟨st124, (⟨6, false, true, true, [], 0x41A00000, some 5, [], [], 0⟩ : BootIn), 112, 2, false, by decide +kernel⟩

theorem meets_ResetsComplete_9 : ∃ (s : State) (b : BootIn) (B : Nat) (cause : Nat) (e : Bool),
    (b.mode % 4 = 1 ∨ b.mode % 4 = 2) ∧ (b.failAt ≠ some 1) ∧ (b.failAt ≠ some 2) ∧ (s.clocked = true) ∧
    (s.power.devReset = some (B, cause, e)) ∧ (s.engines.running = false) ∧ (cause < 16) := by
  exact ⟨st125, (⟨6, false, true, true, [], 0x41A00000, some 5, [], [], 0⟩ : BootIn), 112, 2, true, by decide +kernel⟩

theorem meets_ResetsComplete_10 : ∃ (s : State) (b : BootIn), (b.mode % 4 = 1 ∨ b.mode % 4 = 2) ∧ (b.failAt ≠ some 1) ∧
    (b.failAt ≠ some 2) ∧ (s.clocked = true) ∧ (s.bootFailed = true) ∧ (s.g 0x6400 0 0x09 < 2) := by
  exact ⟨{ regs [(0x6400, 0x0, 0x9, 1)] with power := { Power.init with stage := 5 }, clock := secC 4 }, (⟨6, false, true, true, [],
      0x41A00000, some 5, [], [], 0⟩ : BootIn), by decide +kernel⟩

theorem meets_ResetsComplete_11 : ∃ (s : State) (b : BootIn), (b.mode % 4 = 1 ∨ b.mode % 4 = 2) ∧ (b.failAt ≠ some 1) ∧
    (b.failAt ≠ some 2) ∧ (let slot := s.g 0x6400 0 0x02; (s.clocked = true) ∧ (s.bootFailed = true) ∧ (2 ≤ s.g 0x6400 0 0x09) ∧
    ((s.slot (1 - slot)).state ≠ 1) ∧ ((s.slot (1 - slot)).state ≠ 3)) := by
  exact ⟨{ regs [(0x6400, 0x0, 0x2, 0), (0x6400, 0x0, 0x9, 2)] with power := { Power.init with stage := 10, wdtAt := some 0, slot1 := ⟨[], 0⟩ } }, (⟨6, false, true, true, [],
      0x41A00000, some 5, [], [], 8⟩ : BootIn), by decide +kernel⟩

theorem meets_ResetsComplete_12 : ∃ (s : State) (b : BootIn) (c : Nat), (b.mode % 4 = 1 ∨ b.mode % 4 = 2) ∧ (b.failAt ≠ some 1) ∧
    (b.failAt ≠ some 2) ∧ (s.clocked = true) ∧ (s.g 0x6500 0 0x01 = 4) ∧ (s.engines.running = false) ∧
    (s.power.coolAt = some c) ∧ (c + secC 10 ≤ s.clock) := by
  exact ⟨st126, (⟨1, false, true, true, [], 0x41A00000, none, [], [], 0⟩ : BootIn), 0, by decide +kernel⟩

theorem meets_PartResetsComplete_0 : ∃ (s : State) (h : Nat) (d : Bytes), (s.clocked = true) ∧ (s.power.devReset = none) ∧
    (s.writeCheck h (opOf 0x6501 0 0x02 d) = stOK) ∧ (s.power.ctlReset = none) := by
  exact ⟨st127, 0, [1], by decide +kernel⟩

theorem meets_PartResetsComplete_1 : ∃ (s : State) (start : Nat) (cause : Nat), (s.clocked = true) ∧ (s.power.devReset = none) ∧
    (s.power.ctlReset = some (start, cause)) ∧
    (let u := (Tx.start s).busRun.cur; (u.draining 0 = false) ∧ (u.draining 1 = false) ∧ (u.draining 12 = false)) := by
  exact ⟨st128, 5, 3, by decide +kernel⟩

theorem meets_PartResetsComplete_2 : ∃ (s : State) (start : Nat) (cause : Nat), (s.clocked = true) ∧ (s.power.devReset = none) ∧
    (s.power.ctlReset = some (start, cause)) ∧
    (let u := (Tx.start s).busRun.cur; u.draining 0 = true ∨ u.draining 1 = true ∨ u.draining 12 = true) := by
  exact ⟨{ st128 with mem := { Mem.init with flights :=
    [⟨1, ⟨12, 7, 0x20000000, 4, none, false, false, none, [], [], .other⟩, 0x20000000, 4, 8, 20, none, false, some 8⟩] } }, 5, 3,
    by decide +kernel⟩

theorem meets_PartResetsComplete_3 : ∃ (s : State) (h : Nat) (d : Bytes), (s.clocked = true) ∧ (s.power.devReset = none) ∧
    (s.writeCheck h (opOf 0x6501 0 0x03 d) = stOK) ∧ (((Tx.start s).status stOK).busRun.cur.draining 10 = false) := by
  exact ⟨st129, 0, [1], by decide +kernel⟩

theorem meets_PartResetsComplete_4 : ∃ (s : State) (h : Nat) (d : Bytes), (s.clocked = true) ∧ (s.power.devReset = none) ∧
    (s.writeCheck h (opOf 0x6501 0 0x04 d) = stOK) ∧ (((Tx.start s).status stOK).busRun.cur.draining 8 = false) ∧
    (((Tx.start s).status stOK).busRun.cur.draining 9 = false) := by
  exact ⟨st130, 0, [1], by decide +kernel⟩

theorem meets_PartResetsComplete_5 : ∃ (s : State), (s.clocked = true) ∧ (s.power.devReset = none) ∧
    (s.power.straps.wdtEn = true) ∧ (11 ≤ s.power.stage) ∧ (s.romOnly = false) ∧ (s.power.wdtAt = none) ∧
    (s.power.ctlReset = none) := by
  exact ⟨st131, by decide +kernel⟩

theorem meets_PartResetsComplete_6 : ∃ (s : State) (c : Nat), (s.clocked = true) ∧ (s.power.devReset = none) ∧
    (s.power.straps.wdtEn = true) ∧ (11 ≤ s.power.stage) ∧ (s.romOnly = false) ∧ (s.power.wdtAt = some c) ∧
    (s.clock < c + secC 10) := by
  exact ⟨st132, 1, by decide +kernel⟩

theorem meets_AttestationComplete_0 : ∃ (s : State) (r : MramRun) (i : Nat), (s.clocked = true) ∧ (s.pending = []) ∧
    (s.ctl.down = false) ∧ (s.ctl.held = none) ∧ (s.power.mram = some r) ∧ (i < 2) ∧ (r.place = 8 + i) ∧ (r.good = true) ∧
    (r.ends ≤ s.clock) := by
  exact ⟨{ regs [] with clock := 9, power := { Power.init with mram := some ⟨9, [1], 9, true⟩ } }, ⟨9, [1], 9, true⟩, 1,
    by decide +kernel⟩

theorem meets_AttestationComplete_1 : ∃ (s : State) (h : Nat) (d : Bytes), (s.clocked = true) ∧
    (s.writeCheck h (opOf 0x6400 0 0x06 d) = stOK) ∧ (d.length = 160 + fieldLE d 12 4) ∧
    (slice d 0 4 = [0x55, 0x4B, 0x46, 0x57]) ∧ (fieldLE d 4 2 = 1) ∧ (fieldLE d 6 2 ≠ 0) ∧ (fieldLE d 6 2 ≤ 32) ∧
    (slice d 16 48 = sha384 (slice d 64 (fieldLE d 12 4))) ∧ (s.g 0x6400 0 0x07 ≤ fieldLE d 8 4) ∧ (s.power.mram = none) := by
  exact ⟨(regs [(0x6400, 0x0, 0x2, 0), (0x6400, 0x0, 0x7, 9)]), 0, ([85, 75, 70, 87, 1, 0, 1, 0, 9, 0, 0, 0, 64, 0, 0, 0, 197, 22, 170, 141, 59, 69, 124, 99, 108, 104, 38, 147, 112, 153, 192, 210, 58, 19, 242, 195, 112, 26, 56, 139, 60, 143, 228, 188, 32, 115, 40, 27, 12, 68, 98, 97, 3, 105, 136, 76, 74, 186, 186, 142, 151, 182, 222, 190] ++ zeros 160 : Bytes), by decide +kernel⟩

theorem meets_AttestationComplete_2 : ∃ (s : State) (h : Nat) (d : Bytes), (s.clocked = true) ∧
    (s.writeCheck h (opOf 0x6402 0 0x01 d) = stOK) ∧ (s.g 0x6402 0 0x02 ≠ 1) := by
  exact ⟨{ regs [] with now := 5 }, 0, zeros 32, by decide +kernel⟩

theorem meets_AttestationComplete_3 : ∃ (s : State) (d : Bytes), (s.clocked = true) ∧ (s.ctl.down = false) ∧
    (s.power.signing = some d) := by
  exact ⟨{ regs [] with now := 5, power := { Power.init with signing := some [1, 2] } }, [1, 2], by decide +kernel⟩

theorem meets_PowerStatesComplete_0 : ∃ (s : State) (h : Nat) (d : Bytes), (s.clocked = true) ∧
    (s.writeCheck h (opOf 0x6500 0 0x02 d) = stOK) ∧ (s.g 0x6500 0 0x03 = 0) ∧ (s.power.devReset = none) ∧ (leNat d = 1) ∧
    (s.g 0x6500 0 0x01 = 2) := by
  exact ⟨{ regs [(0x6500, 0x0, 0x1, 2)] with now := 5 }, 0, [1], by decide +kernel⟩

theorem meets_PowerStatesComplete_1 : ∃ (s : State) (h : Nat) (d : Bytes), (s.clocked = true) ∧
    (s.writeCheck h (opOf 0x6500 0 0x02 d) = stOK) ∧ (s.g 0x6500 0 0x03 = 0) ∧ (s.power.devReset = none) ∧ (leNat d = 2) ∧
    (s.g 0x6500 0 0x01 = 1) ∧ (s.engines.running = true) := by
  exact ⟨{ regs [(0x6500, 0x0, 0x1, 1)] with now := 5, engines := engOn }, 0, [2], by decide +kernel⟩

theorem meets_PowerStatesComplete_2 : ∃ (s : State) (h : Nat) (d : Bytes), (s.clocked = true) ∧
    (s.writeCheck h (opOf 0x6500 0 0x02 d) = stOK) ∧ (s.g 0x6500 0 0x03 = 0) ∧ (s.power.devReset = none) ∧ (leNat d = 3) ∧
    (s.wakeSource = true) ∧ (s.g 0x6500 0 0x01 = 1) ∧ (s.engines.running = true) := by
  exact ⟨{ regs [(0x6500, 0x0, 0x1, 1), (0x6502, 0x0, 0x1, 2)] with now := 5, engines := engOn }, 0, [3], by decide +kernel⟩

theorem meets_PowerStatesComplete_3 : ∃ (s : State) (h : Nat) (d : Bytes), (s.clocked = true) ∧
    (s.writeCheck h (opOf 0x6500 0 0x02 d) = stOK) ∧ (s.g 0x6500 0 0x03 = 0) ∧ (s.power.devReset = none) ∧ (leNat d = 3) ∧
    (s.wakeSource = true) ∧ (s.g 0x6500 0 0x01 = 2) ∧ (s.on 0x6500 0 0x05 = false) := by
  exact ⟨st133, 0, [3], by decide +kernel⟩

theorem meets_PowerStatesComplete_4 : ∃ (s : State), (s.clocked = true) ∧ (s.power.entry = 3) := by
  exact ⟨st134, by decide +kernel⟩

theorem meets_PowerStatesComplete_5 : ∃ (s : State) (temp : F32), (s.clocked = true) ∧ (temp < 2 ^ 32) ∧
    (F.lt hotLimit temp = false ∨ s.power.hot < 9) := by
  exact ⟨st135, 0x41A00000, by decide +kernel⟩

theorem meets_PowerStatesComplete_6 : ∃ (s : State) (temp : F32), (s.clocked = true) ∧ (temp < 2 ^ 32) ∧
    (F.lt hotLimit temp = true) ∧ (9 ≤ s.power.hot) ∧ (s.g 0x6500 0 0x01 ≠ 4) := by
  exact ⟨st136, 0x42e80000, by decide +kernel⟩

theorem meets_AgeingComplete_0 : ∃ (s : State), (s.clocked = true) ∧
    (s.power.sampleAt + secC (s.g 0x6600 0 0x02) ≤ s.clock) := by
  exact ⟨{ regs [] with clock := secC 60 }, by decide +kernel⟩

theorem meets_AgeingComplete_1 : ∃ (s : State), (s.clocked = true) ∧ (s.power.hourAt + secC 3600 ≤ s.clock) := by
  exact ⟨{ regs [(0x6500, 0x0, 0xa, 1117782016)] with clock := secC 3600 }, by decide +kernel⟩

theorem meets_AgeingComplete_2 : ∃ (s : State), (s.clocked = true) ∧ (s.planDue = true) ∧ (s.power.straps.vreqEn = true) ∧
    (s.g 0x6601 0 0x01 = 1) := by
  exact ⟨st137, by decide +kernel⟩

theorem meets_AgeingComplete_3 : ∃ (s : State) (delays : List F32) (c : Nat), (s.clocked = true) ∧ (s.planDue = true) ∧
    (s.power.straps.vreqEn = true) ∧ (let lo := s.g 0x6601 0 0x04;
    (let ds := ((List.range (min 256 delays.length)).filter s.pathUsable).map (fun i => nth delays i 0);
    (s.g 0x6601 0 0x01 ≠ 1) ∧ (8 ≤ ds.length) ∧
    ((range' lo (s.g 0x6601 0 0x05 + 1 - lo)).find? (fun c => ds.all (s.codeFits (s.g 0x6603 0 0x01) c)) = some c))) := by
  exact ⟨st138, (List.replicate 8 0x44480000 : List F32),
      ((range' (st138.g 0x6601 0 0x04) (st138.g 0x6601 0 0x05 + 1 - (st138.g 0x6601 0 0x04))).find? (fun c => (((List.range (min 256 ((List.replicate 8 0x44480000 : List F32) : List F32).length)).filter st138.pathUsable).map (fun i => nth ((List.replicate 8 0x44480000 : List F32) : List F32) i 0)).all (st138.codeFits (st138.g 0x6603 0 0x01) c))).getD 0,
      by decide +kernel⟩

theorem meets_AgeingComplete_4 : ∃ (s : State), (s.clocked = true) ∧ (s.power.stepAt + usC (s.g 0x6601 0 0x10) ≤ s.clock) ∧
    (s.vreqDriven = true) ∧ (s.g 0x6603 0 0x0B ≠ s.g 0x6603 0 0x01) := by
  exact ⟨st139, by decide +kernel⟩

theorem meets_AgeingComplete_5 : ∃ (s : State) (n : PathDelay), (s.clocked = true) ∧ (s.vreqDriven = true) ∧
    (s.pathUsable n.monitor = true) ∧ (s.marginGone n.delay = true) ∧
    (∀ r, s.power.raiseAt = some r → r + usC (s.g 0x6601 0 0x10) ≤ s.clock) := by
  refine ⟨st140, ⟨7, 0x447A0000⟩, by decide +kernel, by decide +kernel, by decide +kernel, by decide +kernel, fun r h => ?_⟩
  exact absurd ((by decide +kernel : st140.power.raiseAt = none).symm.trans h) nofun

theorem meets_AgeingComplete_5_again : ∃ (s : State) (n : PathDelay), (s.clocked = true) ∧ (s.vreqDriven = true) ∧
    (s.pathUsable n.monitor = true) ∧ (s.marginGone n.delay = true) ∧
    (∀ r, s.power.raiseAt = some r → r + usC (s.g 0x6601 0 0x10) ≤ s.clock) := by
  refine ⟨{ st140 with power := { st140.power with raiseAt := some (secC 9 - usC (st140.g 0x6601 0 0x10)) } }, ⟨7, 0x447A0000⟩,
    by decide +kernel, by decide +kernel, by decide +kernel, by decide +kernel, fun r h => ?_⟩
  exact (Option.some.inj h) ▸ by decide +kernel

theorem meets_ResetKeepsMram_0 : ∃ b, normalBoot b := ⟨boot0, by decide +kernel⟩

theorem meets_ResetKeepsMram_1 : ∃ (s : State) (b : BootIn), normalBoot b ∧ (s.clocked = true) := by
  exact ⟨st121, { boot0 with mode := 3 }, by decide +kernel⟩

theorem meets_ResetKeepsMram_2 : ∃ (s : State) (b : BootIn) (B cause : Nat) (e : Bool), normalBoot b ∧ (s.clocked = true) ∧
    (s.power.devReset = some (B, cause, e)) ∧ (s.engines.running = false) ∧ (cause < 16) ∧ ¬ s.asksRecovery := by
  exact ⟨st125, boot0, 112, 2, true, by decide +kernel⟩

theorem meets_ResetKeepsMram_3 : ∃ (s : State) (b : BootIn) (cause n secs : Nat) (f : Bytes), normalBoot b ∧
    (s.power.supplyDown = false) ∧ (s.power.standby = true) ∧ (s.wakeArmed cause (n % 8) (n / 8) secs f = true) := by
  exact ⟨st122, boot0, 5, 0, 0, [], by decide +kernel⟩

theorem meets_ResetKeepsMram_4 : ∃ (s : State) (b : BootIn), normalBoot b ∧ (s.power.supplyDown = false) ∧
    (s.power.standby = true) := by
  exact ⟨st122, boot0, by decide +kernel⟩

theorem meets_ResetKeepsMram_5 : ∃ (s : State) (b : BootIn) (c : Nat), normalBoot b ∧ (s.clocked = true) ∧
    (s.g 0x6500 0 0x01 = 4) ∧ (s.engines.running = false) ∧ (s.power.coolAt = some c) ∧ (c + secC 10 ≤ s.clock) ∧
    ¬ s.asksRecovery := by
  exact ⟨st126, boot0, 0, by decide +kernel⟩

theorem meets_ResetKeepsMram_7 : ∃ (s : State), (s.clocked = true) := by
  exact ⟨st121, by decide +kernel⟩

theorem meets_UnclockedChangesNothing_0 : ∃ (s : State) (c : Instr), (s.clocked = false) ∧ ((∀ b, c ≠ .powerOn b)) ∧
    ((∀ b, c ≠ .pinReset b)) ∧ (c ≠ .supplyLoss) ∧ ((∀ a n u f b, c ≠ .wake a n u f b)) := by
  exact ⟨{ regs [] with power := { Power.init with standby := true } }, .hopEvent, by decide +kernel, nofun, nofun, nofun,
      nofun⟩

/-- A frame that STANDBY examines and that wakes nothing. -/
theorem meets_UnclockedChangesNothing_0_frame : ∃ (s : State) (n : Nat) (f : Bytes), (s.clocked = false) ∧
    (s.power.standby = true) ∧ (s.power.supplyDown = false) ∧ (s.examines n f = true) ∧ (s.wakesMagic n f = false) ∧
    ((List.range 4).any (fun w => s.wakesPattern n w f) = false) := by
  exact ⟨{ regs [(0x6502, 0, 0x01, 1), (0x4800, 4, 0x18, 2)] with power := { Power.init with standby := true } }, 4, frame0,
    by decide +kernel⟩

theorem meets_InstanceRangeHolds_0 : ∃ (s : State) (o : OpFields) (b : Block), (s.clocked = true) ∧ (o.rsv = 0) ∧
    (o.flags = 0) ∧ (blockOf o.idx = some b) ∧ ((∃ e ∈ b.ents, e.sub = o.sub)) ∧ (max b.insts 1 ≤ o.inst) := by
  exact ⟨(regs []), ⟨0, 0x5200, 0x01, 0, 8, []⟩, (blockOf 0x5200).getD ⟨0, 0, 0, 0, 0, 0, []⟩, by decide +kernel⟩

theorem meets_InstanceRangeHolds_1 : ∃ (s : State) (o : OpFields) (b : Block), (s.clocked = true) ∧ (o.rsv = 0) ∧
    (o.flags = 0) ∧ (blockOf o.idx = some b) ∧ ((∃ e ∈ b.ents, e.sub = o.sub)) ∧ (max b.insts 1 ≤ o.inst) ∧ (o.data = []) := by
  exact ⟨(regs []), ⟨0, 0x5200, 0x01, 0, 8, []⟩, (blockOf 0x5200).getD ⟨0, 0, 0, 0, 0, 0, []⟩, by decide +kernel⟩

theorem meets_LatchClears_0 : ∃ (s : State) (h : Nat) (n : Nat) (d : Bytes), (s.clocked = true) ∧ (n < 24) ∧
    (s.writeCheck h (opOf 0x5800 n 0x11 d) = stOK) ∧ (s.modState n = 5) := by
  exact ⟨(regs [(0x5800, 0x17, 0x2, 5), (0x5800, 0x17, 0x1, 1), (0x5800, 0x17, 0x13, 3)]), 0, 23, [1], by decide +kernel⟩

theorem meets_LatchClears_1 : ∃ (s : State) (h : Nat) (n : Nat) (d : Bytes), (s.clocked = true) ∧ (n < 24) ∧
    (s.writeCheck h (opOf 0x5800 n 0x11 d) = stOK) ∧ (s.modState n ≠ 5) := by
  exact ⟨(regs [(0x5800, 0x17, 0x2, 4)]), 0, 23, [1], by decide +kernel⟩

theorem meets_LatchClears_2 : ∃ (s : State) (h : Nat) (n : Nat) (d : Bytes), (s.clocked = true) ∧ (n < 24) ∧
    (s.writeCheck h (opOf 0x5800 n 0x11 d) = stOK) ∧ (s.modState n = 4) ∧ (s.clock < (s.mod n).trips.headD 0 + msC 200) := by
  exact ⟨st141, 0, 23, [1], by decide +kernel⟩

/-! ## Witnesses of the remaining statements -/

theorem meets_StepRunsFront : (∃ s c l, State.pending s = c :: l) ∧ ∃ s, State.pending s = [] ∧ s.mramEnded = false :=
  ⟨⟨{ State.reset with pending := [.hopEvent, .wclkInLost] }, .hopEvent, [.wclkInLost], rfl⟩, State.reset, rfl, rfl⟩

theorem meets_InvKeptByStep : ∃ s t, Inv s ∧ step s = .next t := by
  refine ⟨{ regs [(0x4010, 31, 0x01, 4)] with pending := [.hopEvent] }, _, ⟨⟨by decide +kernel, fun p hp => ?_⟩,
    by decide +kernel, nofun⟩, rfl⟩
  have h : p = (K 0x4010 31 0x01, 4) := by
    have e : (regs [(0x4010, 31, 0x01, 4)]).dict = [(K 0x4010 31 0x01, 4)] := by decide +kernel
    exact List.mem_singleton.mp (e ▸ hp)
  exact h ▸ ⟨_, rfl, by decide +kernel, by decide +kernel⟩

/-- The bounds of the ramps and of the period's samples. -/
theorem meets_SprigProductRounds : ∃ (g0 g1 j : Nat), g0 < 2 ^ 24 ∧ g1 < 2 ^ 24 ∧ j ≤ 16 ∧ g0 = 2 ^ 24 - 1 ∧ g1 = 0 ∧ j = 16 :=
  ⟨2 ^ 24 - 1, 0, 16, by decide⟩

end Sys2Proof.Tests
end

section
/-! PROOFS. Operations that a check of R424 refuses: what an entry that does not exist answers, and that a refused operation
leaves nothing but its outcome. -/

namespace Sys2Proof.Machine
open Sys2Proof

variable {s0 : State}

/-! ## Entries that do not exist -/

/-- Beyond its range an index lists no entry (R4). -/
theorem entryOf_inst_beyond {idx inst : Nat} {b : Block} (hb : blockOf idx = some b) (hi : max b.insts 1 ≤ inst) (sub : Nat) :
    entryOf idx inst sub = none := by
  simp only [entryOf, hb, if_neg (Nat.not_lt.mpr hi)]

theorem namesBlob_noEntry {o : OpFields} (he : entryOf o.idx o.inst o.sub = none) : namesBlob o = false := by
  simp only [namesBlob, he]

/-- A write of an entry that does not exist fails check 1 of R424. -/
theorem State.writeCheck_noEntry (s : State) (h : Nat) {o : OpFields} (hr : o.rsv = 0) (hf : o.flags = 0)
    (he : entryOf o.idx o.inst o.sub = none) : s.writeCheck h o = stNoEntry := by
  have ha : s.accessCheck h o = stNoEntry := by simp [State.accessCheck, hr, hf, he]
  simp [State.writeCheck, ha, stNoEntry, stOK]

/-- So does a read, staged or not. -/
theorem State.readCheck_noEntry (s : State) (h : Nat) {o : OpFields} (hr : o.rsv = 0) (hf : o.flags < 2)
    (he : entryOf o.idx o.inst o.sub = none) : s.readCheck h o = stNoEntry := by
  simp [State.readCheck, hr, Nat.not_le.mpr hf, he]

/-! ## Refused operations -/

/-- A refused write of no BLOB answers its status and does nothing, where the refusal is not one that its entry records. -/
theorem Tx.writeOp_refused (t : Tx s0) {h : Nat} {o : OpFields} (hn : namesBlob o = false) (hk : t.cur.writeCheck h o ≠ stOK)
    (hb : t.cur.writeCheck h o ≠ stBadType) : t.writeOp h o = t.status (t.cur.writeCheck h o) := by
  have hw : t.when (namesBlob o) (fun t => t.dropXfer h) = t := by rw [hn]; rfl
  rw [Tx.writeOp, hw, Tx.guardedBad_refused hk hb]

/-- A refused read answers its status and does nothing. -/
theorem Tx.readOp_refused (t : Tx s0) {h : Nat} {o : OpFields} (hk : t.cur.readCheck h o ≠ stOK) (bad : List Nat) (room : Nat) :
    t.readOp h o bad room = t.status (t.cur.readCheck h o) := by
  simp only [Tx.readOp, bne_iff_ne, if_pos hk]

/-- A command that only answers a status leaves everything but its outcome and what was sent. -/
theorem run_status {s : State} {f : Tx s → Tx s} (hc : s.clocked = true) (st : Nat) (hf : f (Tx.start s) = (Tx.start s).status st) :
    ∃ t, run s f = .next t ∧ t.result = ⟨some st, []⟩ ∧ Kept (fun _ => False) [.result, .outs] s t := by
  refine run_to hc _ hf fun t hk => ⟨hk.result (by simp), ?_⟩
  exact Kept.of_run (by simp) (by simp) (Tx.status_kept _ st (by simp)) hk

/-- A write of an entry that does not exist answers NO_ENTRY and changes nothing (R4, R451). -/
theorem exec_write_noEntry {s : State} (hc : s.clocked = true) (h : Nat) {o : OpFields} (hr : o.rsv = 0) (hf : o.flags = 0)
    (he : entryOf o.idx o.inst o.sub = none) :
    ∃ t, exec (.write h o) s = .next t ∧ t.result = ⟨some stNoEntry, []⟩ ∧ Kept (fun _ => False) [.result, .outs] s t := by
  have hk : (Tx.start s).cur.writeCheck h o = stNoEntry := State.writeCheck_noEntry _ h hr hf he
  refine run_status (f := fun t => t.writeOp h o) hc stNoEntry ?_
  rw [Tx.writeOp_refused _ (namesBlob_noEntry he) (by rw [hk]; decide) (by rw [hk]; decide), hk]

/-- So does a read, whatever data it carries. -/
theorem exec_read_noEntry {s : State} (hc : s.clocked = true) (h : Nat) {o : OpFields} (bad : List Nat) (hr : o.rsv = 0)
    (hf : o.flags < 2) (he : entryOf o.idx o.inst o.sub = none) :
    ∃ t, exec (.read h o bad) s = .next t ∧ t.result = ⟨some stNoEntry, []⟩ ∧ Kept (fun _ => False) [.result, .outs] s t := by
  have hk : (Tx.start s).cur.readCheck h o = stNoEntry := State.readCheck_noEntry _ h hr hf he
  refine run_status (f := fun t => t.readOp h o bad (s.aloneRoom h)) hc stNoEntry ?_
  rw [Tx.readOp_refused _ (by rw [hk]; decide), hk]

/-- Settles O6: beyond its range an index lists no entry, so check 1 of R424 refuses the write and the read. -/
theorem instanceRangeHolds : Obligations.InstanceRangeHolds := by
  unfold Obligations.InstanceRangeHolds
  intro s h o bad b hc hr hf hb _ hi
  have he : entryOf o.idx o.inst o.sub = none := entryOf_inst_beyond hb hi o.sub
  exact ⟨exec_write_noEntry hc h hr hf he, fun _ => exec_read_noEntry hc h bad hr (by omega) he⟩

end Sys2Proof.Machine
end

section
/-! PROOFS. The Sprig product (R92, R99, R100): the bounds of its two factors keep the rounded product within Q5.27. -/

namespace Sys2Proof.Machine
open Sys2Proof

/-! ## The two factors -/

/-- A saturated value lies in the signed range of its width. -/
theorem satI_bounds (w : Nat) (i : Int) : -2 ^ (w - 1) ≤ (satI w i).1 ∧ (satI w i).1 ≤ 2 ^ (w - 1) - 1 := by
  have hpos : (0 : Int) < 2 ^ (w - 1) := by positivity
  simp only [satI]
  split
  · exact ⟨le_rfl, by dsimp only; omega⟩
  next hlo =>
    split
    · exact ⟨by dsimp only; omega, le_rfl⟩
    next hhi => exact ⟨not_lt.mp hlo, not_lt.mp hhi⟩

/-- The interpolated value is in Q1.23 (R99). -/
theorem State.sprigValue_bounds (s : State) (bad : List Nat) (r : Nat × Nat × Nat × Nat) (kern d t : Nat) :
    -2 ^ 23 ≤ (s.sprigValue bad r kern d t).1.1 ∧ (s.sprigValue bad r kern d t).1.1 ≤ 2 ^ 23 - 1 :=
  satI_bounds 24 _

/-- Within its sixteen steps a ramp of two values stays below every bound of both (R92): j of sixteen parts are of the new
value, the others of the old one. -/
theorem rampGain_lt {g0 g1 j b : Nat} (h0 : g0 < b) (h1 : g1 < b) (hj : j ≤ 16) : rampGain g0 g1 j < b := by
  have hmix : 16 * (g0 : Int) + j * (g1 - g0) = ((16 - j : Nat) * g0 + j * g1 : Nat) := by
    push_cast [Nat.cast_sub hj]
    ring
  have hle : (16 - j) * g0 + j * g1 ≤ 16 * (b - 1) :=
    calc (16 - j) * g0 + j * g1 ≤ (16 - j) * (b - 1) + j * (b - 1) := by gcongr <;> omega
      _ = 16 * (b - 1) := by rw [← add_mul, Nat.sub_add_cancel hj]
  rw [rampGain, hmix]
  omega

/-! ## The product -/

/-- The range of a Q1.23 value times a UQ4.20 gain. Its upper end is more than the 2^15 of the rounding below 2^47, which
the bound on the 48-bit word alone would not give. -/
theorem q23_mul_gain_bounds {y : Int} {g : Nat} (hlo : -2 ^ 23 ≤ y) (hhi : y ≤ 2 ^ 23 - 1) (hg : g < 2 ^ 24) :
    -2 ^ 23 * (2 ^ 24 - 1) ≤ y * g ∧ y * g ≤ (2 ^ 23 - 1) * (2 ^ 24 - 1) := by
  have hg' : (g : Int) ≤ 2 ^ 24 - 1 := by omega
  constructor
  · calc (-2 ^ 23 * (2 ^ 24 - 1) : Int) ≤ -2 ^ 23 * g := mul_le_mul_of_nonpos_left hg' (by norm_num)
      _ ≤ y * g := mul_le_mul_of_nonneg_right hlo (Int.natCast_nonneg g)
  · calc y * g ≤ (2 ^ 23 - 1) * g := mul_le_mul_of_nonneg_right hhi (Int.natCast_nonneg g)
      _ ≤ (2 ^ 23 - 1) * (2 ^ 24 - 1) := mul_le_mul_of_nonneg_left hg' (by norm_num)

/-- The rounding of R100 is an arithmetic shift. -/
theorem sprigProduct_eq_shiftRight (y : Int) (g : Nat) : sprigProduct y g = (y * g + 2 ^ 15) >>> 16 := by
  rw [← Nat.cast_ofNat (n := 16), Int.shiftRight_natCast_right, Int.shiftRight_eq_div_pow]
  rfl

/-- The rounded product is in Q5.27: even rounded up, the largest product stays below 16. -/
theorem sprigProduct_bounds {y : Int} {g : Nat} (hlo : -2 ^ 23 ≤ y) (hhi : y ≤ 2 ^ 23 - 1) (hg : g < 2 ^ 24) :
    -2 ^ 31 ≤ sprigProduct y g ∧ sprigProduct y g < 2 ^ 31 := by
  obtain ⟨hmin, hmax⟩ := q23_mul_gain_bounds hlo hhi hg
  unfold sprigProduct
  omega

/-- Settles O49: the interpolated value is in Q1.23 and the ramped gain in UQ4.20, so the product needs no saturation. -/
theorem sprigProductRounds : Obligations.SprigProductRounds := by
  unfold Obligations.SprigProductRounds
  intro s bad r kern g0 g1 d0 d1 B j h0 h1 hj d y g p
  have hg : rampGain g0 g1 j < 2 ^ 24 := rampGain_lt h0 h1 hj
  obtain ⟨hlo, hhi⟩ : -2 ^ 23 ≤ y ∧ y ≤ 2 ^ 23 - 1 := s.sprigValue_bounds bad r kern d (B + j - 16)
  obtain ⟨hmin, hmax⟩ := q23_mul_gain_bounds hlo hhi hg
  exact ⟨⟨le_trans (by norm_num) hmin, lt_of_le_of_lt hmax (by norm_num)⟩, sprigProduct_eq_shiftRight y _,
    sprigProduct_bounds hlo hhi hg⟩

end Sys2Proof.Machine
end

section
/-! PROOFS. The clear of a latched modulator channel (R289) and the wait of a tripped one (R288): what the own rule of
0x5800[c]:11 does in each state, and that a retry before its time does nothing. -/

namespace Sys2Proof.Machine
open Sys2Proof

variable {s0 : State}

/-! ## Entries of a channel -/

theorem blockOf_mod : blockOf 0x5800 = some ⟨0x5800, 0x5800, 24, 0x1C, 6, 10, ents56⟩ := rfl

/-- An entry that is not W1C holds every value within its width. -/
theorem fit_of_lt {e : Entry} {v : Nat} (ha : e.acc ≠ .w1c) (hv : v < 2 ^ e.ty.width) : fit e v = v := by
  unfold fit
  split
  · exact absurd ‹_› ha
  · exact Nat.mod_eq_of_lt hv

/-- A read-only entry of a channel reads as the value that the hardware gave it. -/
theorem Tx.w_mod_same (t : Tx s0) {n sub v : Nat} {e : Entry} (hn : n < 24) (hs : sub < 256)
    (he : ents56.find? (fun e => e.sub == sub) = some e) (ha : e.acc = .ro) (hv : v < 2 ^ e.ty.width) :
    (t.w 0x5800 n sub v).cur.g 0x5800 n sub = v := by
  have hat : entryAt (K 0x5800 n sub) = some e := entryAt_of blockOf_mod hn (by omega) hs he
  rw [State.g_eq, t.w_get_same v hat, fit_of_lt (by rw [ha]; decide) hv]

/-- No notification record stands among the entries of a channel. -/
theorem noted_mod {n sub : Nat} (hn : n < 24) (hs : sub < 256) : noted (K 0x5800 n sub) = false := by
  rw [noted, kIdx_K (by omega) hs]
  rfl

/-- Two entries of a channel have different keys. -/
theorem K_mod_ne {n a b : Nat} (hn : n < 24) (ha : a < 256) (hb : b < 256) (hab : a ≠ b) : K 0x5800 n a ≠ K 0x5800 n b :=
  fun h => hab ((K_inj (by omega) ha (by omega) hb).mp h).2.2

/-! ## A channel takes a state -/

/-- Taking a state writes :02 and nothing else but a trace message. -/
theorem Tx.modTo_kept {E : Nat → Prop} {M : List Part} (t : Tx s0) {n st : Nat} (hE : E (K 0x5800 n 0x02)) :
    Kept E M t.cur (t.modTo n st).cur := by
  unfold Tx.modTo
  split
  · exact .refl ..
  · exact (t.w_kept _ _ _ _ (.inl hE)).trans (Tx.msg_kept ..)

theorem Tx.modTo_modState (t : Tx s0) {n st : Nat} (hn : n < 24) (hst : st < 256) : (t.modTo n st).cur.modState n = st := by
  unfold Tx.modTo
  split
  next h => exact beq_iff_eq.mp h
  · exact t.w_mod_same hn (by decide) rfl rfl hst

/-! ## The clear and the retry -/

/-- What the clear does before the channel leaves LATCHED: its trips go, and the count :13 with them. -/
def Tx.clearTrips (t : Tx s0) (n : Nat) : Tx s0 := (t.w 0x5800 n 0x13 0).setMod n { t.cur.mod n with trips := [] }

theorem Tx.clearTrips_count (t : Tx s0) {n : Nat} (hn : n < 24) : (t.clearTrips n).cur.g 0x5800 n 0x13 = 0 :=
  t.w_mod_same hn (by decide) rfl rfl (by decide)

theorem Tx.clearTrips_on (t : Tx s0) {n : Nat} (hn : n < 24) : (t.clearTrips n).on 0x5800 n 0x01 = t.on 0x5800 n 0x01 :=
  congrArg (· == 1) (t.w_get_other 0 (K_mod_ne hn (by decide) (by decide) (by decide)))

/-- A latched channel takes the state of its enable. -/
theorem clearLatchRule_latched {t : Tx s0} {n : Nat} (hn : n < 24) (h5 : t.cur.modState n = 5) :
    clearLatchRule n t = (t.clearTrips n).modTo n (if t.on 0x5800 n 0x01 = true then 1 else 0) := by
  simp only [clearLatchRule, h5, bne_self_eq_false, Bool.false_eq_true, if_false]
  rw [← t.clearTrips_on hn]
  rfl

theorem clearLatchRule_refused {t : Tx s0} {n : Nat} (h5 : t.cur.modState n ≠ 5) : clearLatchRule n t = t.status stState := by
  simp only [clearLatchRule, bne_iff_ne, if_pos h5]

/-- A clear that passes the checks of R424 is the entry's own rule. -/
theorem guarded_clearLatch {s : State} {h n : Nat} {d : Bytes} (hw : s.writeCheck h (opOf 0x5800 n 0x11 d) = stOK) :
    (Tx.start s).guarded h (opOf 0x5800 n 0x11 d) (clearLatchRule n) = clearLatchRule n ((Tx.start s).status stOK) :=
  Tx.guarded_ok ((Tx.start_writeCheck s h _).trans hw) _

/-- An accepted clear of a latched channel answers OK, with no trips in the window (R289). -/
theorem execClearLatch_latched {s : State} {h n : Nat} {d : Bytes} (hc : s.clocked = true) (hn : n < 24)
    (hw : s.writeCheck h (opOf 0x5800 n 0x11 d) = stOK) (h5 : s.modState n = 5) :
    ∃ t, execClearLatch h n d s = .next t ∧ t.result = ⟨some stOK, []⟩ ∧ t.g 0x5800 n 0x13 = 0 ∧
      t.modState n = (if s.on 0x5800 n 0x01 = true then 1 else 0) := by
  refine run_to hc _ ((guarded_clearLatch hw).trans (clearLatchRule_latched hn h5)) fun t hk => ?_
  have hm := (((Tx.start s).status stOK).clearTrips n).modTo_kept (E := (· = K 0x5800 n 0x02)) (M := [])
    (st := if s.on 0x5800 n 0x01 = true then 1 else 0) rfl
  have h13 : noted (K 0x5800 n 0x13) = false := noted_mod hn (by decide)
  have hne : K 0x5800 n 0x13 ≠ K 0x5800 n 0x02 := K_mod_ne hn (by decide) (by decide) (by decide)
  refine ⟨(hk.result (by simp)).trans (hm.result (by simp)), ?_, ?_⟩
  · exact ((hk.g id h13).trans (hm.g hne h13)).trans (Tx.clearTrips_count _ hn)
  · exact (hk.g id (noted_mod hn (by decide))).trans (Tx.modTo_modState _ hn (by split <;> decide))

/-- In any other state the clear answers STATE and changes nothing (R289). -/
theorem execClearLatch_refused {s : State} {h n : Nat} {d : Bytes} (hc : s.clocked = true)
    (hw : s.writeCheck h (opOf 0x5800 n 0x11 d) = stOK) (h5 : s.modState n ≠ 5) :
    ∃ t, execClearLatch h n d s = .next t ∧ t.result = ⟨some stState, []⟩ ∧ Kept (fun _ => False) [.result, .outs] s t :=
  run_status hc stState ((guarded_clearLatch hw).trans (clearLatchRule_refused h5))

/-- Before 200 ms have passed since the trip a retry does nothing (R288, R289). -/
theorem execRetry_early {s : State} {n : Nat} (hc : s.clocked = true) (he : s.clock < (s.mod n).trips.headD 0 + msC 200) :
    ∃ t, execRetry n s = .next t ∧ Kept (fun _ => False) [.result, .outs] s t := by
  refine run_to hc (Tx.start s) ?_ fun t hk => .of_run (by simp) (by simp) (.refl ..) hk
  simp only [he, decide_true, Bool.or_true, if_true]

/-- Settles O50: the clear acts on a latched channel alone, and a retry before its time on none. -/
theorem latchClears : Obligations.LatchClears := by
  unfold Obligations.LatchClears
  intro s h n d hc hn hw
  refine ⟨execClearLatch_latched hc hn hw, execClearLatch_refused hc hw, fun h4 he => ?_⟩
  obtain ⟨t, ht, hk⟩ := execRetry_early hc he
  exact ⟨t, ht, (hk.g id (noted_mod hn (by decide))).trans h4, hk⟩

end Sys2Proof.Machine
end

section
/-! PROOFS. What a step is: the queue, the invariant of the dictionary, and what an unclocked block does. -/

namespace Sys2Proof.Machine
open Sys2Proof

set_option Elab.async false

/-! ## Every command is a transaction -/

theorem runCtl_eq_run (s : State) (f : Tx s → Tx s) : runCtl s f = run s (fun t => if s.ctl.down then t else f t) := rfl

theorem run_eq_runAlways (s : State) (f : Tx s → Tx s) : run s f = runAlways s (fun t => if s.clocked then f t else t) := rfl

/-- Beside the commands of the always-on domain and the supply monitor, and frames in STANDBY, a command's effect is that of a
clocked block. -/
theorem exec_eq_run {s : State} {c : Instr} (hp : ∀ b, c ≠ .powerOn b) (hr : ∀ b, c ≠ .pinReset b) (hl : c ≠ .supplyLoss)
    (hw : ∀ a n u f b, c ≠ .wake a n u f b)
    (hf : ∀ n f err clock, c = .receiveFrame n f err clock → (s.power.standby && !s.power.supplyDown) = false) :
    ∃ f, exec c s = run s f := by
  cases c
  case powerOn b => exact absurd rfl (hp b)
  case pinReset b => exact absurd rfl (hr b)
  case supplyLoss => exact absurd rfl hl
  case wake a n u f b => exact absurd rfl (hw a n u f b)
  case receiveFrame n f err clock => exact ⟨_, if_neg (by rw [hf n f err clock rfl]; decide)⟩
  case ptpSync | ptpFollowUp | ptpDelayResp | ptpDelayReq | delayReqSend | ptpSend | ptpAnnounce | announceTimeout |
      ppsLost | sprinklerData | heartbeatReceived | nak | nakRepeat | gapSkip | snapshotRequest |
      snapshotRequestRepeat | snapshot | heartbeat | status | statusReceived | promoted | reportSigned | saveEnd |
      notify =>
    unfold exec
    exact ⟨_, runCtl_eq_run s _⟩
  all_goals
    unfold exec
    exact ⟨_, rfl⟩

/-- The meaning of a command is a transaction, which ends as every command does. -/
theorem exec_eq_runAlways (c : Instr) (s : State) : ∃ f, exec c s = runAlways s f := by
  by_cases hp : ∃ b, c = .powerOn b
  · obtain ⟨b, rfl⟩ := hp
    exact ⟨_, execPowerOn.eq_1 b s⟩
  by_cases hr : ∃ b, c = .pinReset b
  · obtain ⟨b, rfl⟩ := hr
    exact ⟨_, execPinReset.eq_1 b s⟩
  by_cases hl : c = .supplyLoss
  · subst hl
    exact ⟨_, execSupplyLoss.eq_1 s⟩
  by_cases hw : ∃ a n u f b, c = .wake a n u f b
  · obtain ⟨a, n, u, f, b, rfl⟩ := hw
    exact ⟨_, execWake.eq_1 a n u f b s⟩
  by_cases hf : (s.power.standby && !s.power.supplyDown) = true ∧ ∃ n f err clock, c = .receiveFrame n f err clock
  · obtain ⟨h, n, f, err, clock, rfl⟩ := hf
    exact ⟨_, if_pos h⟩
  obtain ⟨f, hx⟩ := exec_eq_run (s := s) (not_exists.mp hp) (not_exists.mp hr) hl
    (fun a n u f b h => hw ⟨a, n, u, f, b, h⟩)
    (fun n f err clock h => Bool.eq_false_of_not_eq_true fun hs => hf ⟨hs, n, f, err, clock, h⟩)
  exact ⟨_, hx.trans (run_eq_runAlways s f)⟩

theorem exec_reach (c : Instr) (s : State) : ∃ t, exec c s = .next t ∧ Reach s t := by
  obtain ⟨f, hf⟩ := exec_eq_runAlways c s
  exact hf ▸ runAlways_reach s f

/-- On an empty queue a step leads to what elementary updates reach. -/
theorem idle_reach (s : State) : ∃ t, idle s = .next t ∧ Reach s t := by
  unfold idle
  split
  · exact runCtl_reach s _
  · exact ⟨s, rfl, .refl⟩

/-- What a step leads to is reached by elementary updates from the state without the command that it took. -/
theorem step_reach (s : State) : ∃ t, step s = .next t ∧ Reach { s with pending := s.pending.tail } t := by
  unfold step
  match hp : s.pending with
  | [] =>
    have hs : { s with pending := [] } = s := by rw [← hp]
    rw [List.tail_nil, hs]
    exact idle_reach s
  | c :: l => exact exec_reach c _

/-! ## The queue -/

/-- Settles O1: the two branches of `step`. -/
theorem stepRunsFront : Obligations.StepRunsFront := by
  unfold Obligations.StepRunsFront
  refine fun s => ⟨fun c l hp => ?_, fun hp hm => ?_⟩
  · simp only [step, hp]
  · simp only [step, hp, idle, hm, Bool.false_and, Bool.false_eq_true, if_false]

/-- Settles O2: no elementary update touches the queue. -/
theorem stepServesQueue : Obligations.StepServesQueue := by
  unfold Obligations.StepServesQueue
  intro s
  obtain ⟨t, ht, hr⟩ := step_reach s
  exact ⟨t, ht, hr.pending⟩

/-! ## The invariant -/

/-- Settles O3: at reset nothing is listed. -/
theorem invAtReset : Obligations.InvAtReset := ⟨DictOk.nil, BlobsOk.nil⟩

/-- Settles O4: a step is made of elementary updates, each of which keeps the invariant. -/
theorem invKeptByStep : Obligations.InvKeptByStep := by
  unfold Obligations.InvKeptByStep
  intro s t hs ht
  obtain ⟨u, hu, hr⟩ := step_reach s
  obtain rfl : u = t := Host.Outcome.next.inj (hu.symm.trans ht)
  exact hr.inv hs

/-! ## An unclocked block -/

/-- What STANDBY does with a frame is counting it (R203). -/
theorem Tx.standbyFrame_eq {s0 : State} (t : Tx s0) (m : Nat) (f : Bytes) (err : Bool) :
    t.standbyFrame m f err = if !err && t.cur.examines m f && !t.cur.wakesMagic m f &&
        !(List.range 4).any (fun w => t.cur.wakesPattern m w f)
      then t.setPower { t.cur.power with examined := t.cur.power.examined + 1 } else t := by
  rw [← ite_not]
  simp only [Tx.standbyFrame, Bool.and_eq_true, Bool.not_eq_true', Bool.or_eq_true, ← Bool.not_eq_true, not_and_or, not_not, or_assoc]

/-- A frame in STANDBY changes nothing but the count of the frames examined. -/
theorem exec_receiveFrame_standby {s : State} (n : Nat) (f : Bytes) (err : Bool) (clock : Nat)
    (hs : (s.power.standby && !s.power.supplyDown) = true) :
    ∃ t, exec (.receiveFrame n f err clock) s = .next t ∧ Kept (fun _ => False) [.result, .outs, .power] s t ∧
      t.power = if !err && s.examines n f && !s.wakesMagic n f && !(List.range 4).any (fun w => s.wakesPattern n w f)
        then { s.power with examined := s.power.examined + 1 } else s.power := by
  have hx : exec (.receiveFrame n f err clock) s = runAlways s (fun t => t.standbyFrame n f err) := if_pos hs
  rw [hx]
  generalize hc : (!err && s.examines n f && !s.wakesMagic n f && !(List.range 4).any (fun w => s.wakesPattern n w f)) = c
  refine runAlways_to _ ((Tx.standbyFrame_eq ..).trans (if_congr (iff_of_eq (congrArg (· = true) hc)) rfl rfl)) fun t hk =>
    ⟨.of_run (by simp) (by simp) ?_ hk, (hk.power (by simp)).trans ?_⟩
  · split
    · exact Tx.setPower_kept _ _ (by simp)
    · exact .refl ..
  · split <;> rfl

/-- Settles O5: in an unclocked block a command ends at once, but for a frame that STANDBY counts. -/
theorem unclockedChangesNothing : Obligations.UnclockedChangesNothing := by
  unfold Obligations.UnclockedChangesNothing
  intro s c hc hp hr hl hw
  by_cases hf : ∃ n f err clock, c = .receiveFrame n f err clock
  · obtain ⟨n, f, err, clock, rfl⟩ := hf
    by_cases hs : (s.power.standby && !s.power.supplyDown) = true
    · obtain ⟨t, ht, hk, hpow⟩ := exec_receiveFrame_standby n f err clock hs
      obtain ⟨-, hd⟩ := Bool.and_eq_true_iff.mp hs
      refine ⟨t, ht, ?_, ?_⟩
      · dsimp only
        rwa [if_neg (by simpa using hd)]
      · simpa only [hs, Bool.true_and] using hpow
    · have hs' := Bool.eq_false_of_not_eq_true hs
      obtain ⟨f', hx⟩ := exec_eq_run (s := s) (c := .receiveFrame n f err clock) nofun nofun nofun nofun (fun _ _ _ _ _ => hs')
      obtain ⟨t, ht, hk⟩ := run_unclocked hc f'
      refine ⟨t, hx.trans ht, hk.mono (fun _ h => h) ?_, ?_⟩
      · dsimp only
        split <;> simp
      · simpa [hs'] using hk.power (by simp)
  · have hn : ∀ n f err clock, c ≠ .receiveFrame n f err clock := fun n f err clock h => hf ⟨n, f, err, clock, h⟩
    obtain ⟨f', hx⟩ := exec_eq_run hp hr hl hw (fun n f err clock h => absurd h (hn n f err clock))
    obtain ⟨t, ht, hk⟩ := run_unclocked hc f'
    refine ⟨t, hx.trans ht, ?_, ?_⟩
    · split
      · exact absurd rfl (hn _ _ _ _)
      · exact hk
    · split
      · exact absurd rfl (hn _ _ _ _)
      · exact hk.power (by simp)

end Sys2Proof.Machine
end

section
/-! PROOFS. Frames that fail: commands that write, in states which hold what no run leaves there, an entry that their frame does not
name. -/

namespace Sys2Proof.Machine
open Sys2Proof

set_option Elab.async false

/-- Value of an entry in the state that a command leads to. -/
def nextGet (x : Host.Outcome State Fault Refusal) (k : Nat) : Nat :=
  match x with
  | .next t => t.get k
  | _ => 0

/-- An entry that a command moves and that its frame does not name, nor the end of every command, refutes the frame. -/
theorem not_frame_of_moved {c : Instr} {l : List Span} {M : List Part} {s : State} {k : Nat} (hw : c.wf = true)
    (hm : nextGet (exec c s) k ≠ s.get k) (hk : ¬ ∃ x ∈ l, x.has k) (hn : noted k = false) : ¬ Frame c l M := by
  intro h
  obtain ⟨t, ht, -⟩ := exec_reach c s
  rw [ht] at hm
  exact hm ((h hw s t ht).entries k hk hn)

/-- A port in GOOD that owes its next edge a slip of the kind 5, which is neither a repeat nor a drop (R173). -/
def slipState : State :=
  { State.reset with
    dict := [(K 0x4000 0 0x06, 0), (K 0x4010 0 0x01, 2)]
    serial := { Serial.init with ports := [(0, { Port.init with nextS := some 0, slip := 5 })] } }

/-- The edge counts the slip by its kind, so under the entry of refused frames, 0x4010:10. -/
theorem slipState_moves : nextGet (exec (.fsyncActiveEdge 0 0 true 0 false) slipState) (K 0x4010 0 0x10) = 1 := by
  decide +kernel

/-- Refutes O54: an active edge of a port whose pending slip is of kind 5 counts it in 0x4010:10, which its frame does not name. -/
theorem not_serialFrames : ¬ Obligations.SerialFrames := by
  unfold Obligations.SerialFrames
  rintro ⟨-, -, -, -, -, hedge, -⟩
  refine not_frame_of_moved (s := slipState) (k := K 0x4010 0 0x10) rfl ?_ ?_ (by decide) (hedge 0 0 true 0 false)
  · rw [slipState_moves]
    decide +kernel
  · simp [Span.has, Span.all, Span.ctr, kIdx, kSub, K]

/-- A running block with a write to the MRAM that has ended, of a place beyond the packs and the two firmware slots. -/
def strayWriteState : State :=
  { State.reset with
    power := { Power.init with straps := ⟨0, false, false, true, 0⟩, stage := 11, mram := some ⟨21, [], 0, true⟩ } }

/-- The reset of the control processor finds that write in place, and shows the slot 13 that it names at 0x6400:11. -/
theorem strayWriteState_moves : nextGet (exec .watchdog strayWriteState) (K 0x6400 0 0x11) = 3 := by decide +kernel

/-- Refutes O60: a watchdog expiry lets a write to the MRAM of the place 21 end, which changes 0x6400:11, an entry that the frame does
not name. -/
theorem not_wideFrames : ¬ Obligations.WideFrames := by
  unfold Obligations.WideFrames
  rintro ⟨-, -, -, -, -, -, -, -, -, hdog, -⟩
  refine not_frame_of_moved (s := strayWriteState) (k := K 0x6400 0 0x11) rfl ?_ ?_ (by decide) hdog
  · rw [strayWriteState_moves]
    decide +kernel
  · simp [Span.has, Span.all, Span.bus, Span.control, Span.ctr, kIdx, kSub, K]

end Sys2Proof.Machine
end

section
/-! PROOFS. Frames of transactions: what it takes for an elementary update or a shared operation to stay within a list of groups of
entries and of parts of the state, one rule for each, so that the frame of an operation follows its text. -/

namespace Sys2Proof.Machine
open Sys2Proof

set_option Elab.async false

variable {s0 : State} {E : Nat → Prop} {l l' : List Span} {M M' : List Part} {a b : State} {t u : Tx s0}

/-! ## Groups of entries -/

/-- An entry of one of the groups. -/
def Keys (l : List Span) (k : Nat) : Prop := ∃ x ∈ l, x.has k

/-- Only entries of the groups l and the parts M differ. -/
abbrev Keeps (l : List Span) (M : List Part) (a b : State) : Prop := Kept (Keys l) M a b

/-- Some group of the list has sub-index c of every instance of the indexes lo to hi. -/
def covers (l : List Span) (lo hi c : Nat) : Bool :=
  l.any (fun y => y.inst.isNone && y.lo ≤ lo && hi ≤ y.hi && (y.subs.isEmpty || y.subs.contains c))

/-- Some group of the list has every sub-index of the indexes lo to hi. -/
def coversAll (l : List Span) (lo hi : Nat) : Bool :=
  l.any (fun y => y.inst.isNone && y.lo ≤ lo && hi ≤ y.hi && y.subs.isEmpty)

/-- An entry is of the groups, or the end of any command may write it. -/
def mayWrite (l : List Span) (i c : Nat) : Bool :=
  covers l i i (c % 256) || (i == 0x1200 && (c % 256 == 0x06 || c % 256 == 0x07))

/-- Every group of one list is within the groups of another. -/
def within (l l' : List Span) : Bool :=
  l.all (fun x => coversAll l' x.lo x.hi || (!x.subs.isEmpty && x.subs.all (covers l' x.lo x.hi)))

theorem kIdx_of_K (i n c : Nat) : kIdx (K i n c) = i := by unfold kIdx K; omega
theorem kInst_of_K (i n c : Nat) : kInst (K i n c) = n % 65536 := by unfold kInst K; omega
theorem kSub_of_K (i n c : Nat) : kSub (K i n c) = c % 256 := by unfold kSub K; omega

theorem Keys.of_covers {lo hi k : Nat} (h : covers l lo hi (kSub k) = true) (hlo : lo ≤ kIdx k) (hhi : kIdx k ≤ hi) : Keys l k := by
  obtain ⟨y, hy, hc⟩ := List.any_eq_true.mp h
  simp only [Bool.and_eq_true, Bool.or_eq_true, decide_eq_true_eq, Option.isNone_iff_eq_none, List.isEmpty_iff,
    List.contains_iff_mem] at hc
  obtain ⟨⟨⟨hn, h1⟩, h2⟩, hs⟩ := hc
  exact ⟨y, hy, h1.trans hlo, hhi.trans h2, by simp [hn], hs⟩

theorem Keys.of_coversAll {lo hi k : Nat} (h : coversAll l lo hi = true) (hlo : lo ≤ kIdx k) (hhi : kIdx k ≤ hi) : Keys l k := by
  obtain ⟨y, hy, hc⟩ := List.any_eq_true.mp h
  simp only [Bool.and_eq_true, decide_eq_true_eq, Option.isNone_iff_eq_none, List.isEmpty_iff] at hc
  obtain ⟨⟨⟨hn, h1⟩, h2⟩, hs⟩ := hc
  exact ⟨y, hy, h1.trans hlo, hhi.trans h2, by simp [hn], .inl hs⟩

theorem mayWrite_iff {i c : Nat} (h : mayWrite l i c = true) (n : Nat) : Keys l (K i n c) ∨ noted (K i n c) = true := by
  simp only [mayWrite, Bool.or_eq_true] at h
  rcases h with h | h
  · exact .inl (.of_covers (by rwa [kSub_of_K]) (kIdx_of_K ..).ge (kIdx_of_K ..).le)
  · simp only [noted, kIdx_of_K, kSub_of_K, Bool.and_eq_true, Bool.or_eq_true]
    exact .inr (by simpa using h)

theorem Keys.mono {k : Nat} (hl : within l l' = true) (h : Keys l k) : Keys l' k := by
  obtain ⟨x, hx, hlo, hhi, -, hs⟩ := h
  have hc := List.all_eq_true.mp hl x hx
  simp only [Bool.or_eq_true, Bool.and_eq_true, Bool.not_eq_true', List.isEmpty_eq_false_iff] at hc
  rcases hc with hc | ⟨hne, hc⟩
  · exact .of_coversAll hc hlo hhi
  · exact .of_covers (List.all_eq_true.mp hc _ (hs.resolve_left hne)) hlo hhi

/-! ## Composition -/

theorem Kept.widen (h : Keeps l M a b) (hl : within l l' = true) (hM : M.all M'.contains = true) : Keeps l' M' a b :=
  h.mono (fun _ hk => hk.mono hl) (fun m hm => by simpa using List.all_eq_true.mp hM m hm)

/-- One more operation, of a frame within this one. -/
theorem Kept.step {c : State} (h : Keeps l M b c) (h0 : Keeps l' M' a b) (hl : within l l' = true := by decide)
    (hM : M.all M'.contains = true := by decide) : Keeps l' M' a c := Kept.trans h0 (h.widen hl hM)

theorem Kept.ite {c : Prop} [Decidable c] (hx : Kept E M a t.cur) (hy : Kept E M a u.cur) :
    Kept E M a (if c then t else u).cur := by
  split
  · exact hx
  · exact hy

/-- A choice in the form that an operation reduces to. -/
theorem Kept.iteOf {w : Tx s0} {c : Prop} {_ : Decidable c} (h : w = if c then t else u) (ht : Kept E M a t.cur)
    (hu : Kept E M a u.cur) : Kept E M a w.cur := h ▸ .ite ht hu

/-- An operation by the form that it reduces to. -/
theorem Kept.is {w : Tx s0} (u : Tx s0) (h : w = u) (hu : Kept E M a u.cur) : Kept E M a w.cur := h ▸ hu

theorem Kept.iteFst {β : Type} {c : Prop} [Decidable c] {x y : Tx s0 × β} (hx : Kept E M a x.1.cur) (hy : Kept E M a y.1.cur) :
    Kept E M a (if c then x else y).1.cur := by
  split
  · exact hx
  · exact hy

theorem Kept.iteSnd {β : Type} {c : Prop} [Decidable c] {x y : β × Tx s0} (hx : Kept E M a x.2.cur) (hy : Kept E M a y.2.cur) :
    Kept E M a (if c then x else y).2.cur := by
  split
  · exact hx
  · exact hy

theorem Kept.each {α : Type} {x : List α} {f : Tx s0 → α → Tx s0} (hf : ∀ t x, Kept E M t.cur (f t x).cur)
    (h : Kept E M a t.cur) : Kept E M a (t.each x f).cur := Kept.trans h (t.each_kept x f fun t x _ => hf t x)

theorem Kept.eachMem {α : Type} {x : List α} {f : Tx s0 → α → Tx s0} (hf : ∀ t, ∀ y ∈ x, Kept E M t.cur (f t y).cur)
    (h : Kept E M a t.cur) : Kept E M a (t.each x f).cur := Kept.trans h (t.each_kept x f hf)

theorem Kept.when {c : Bool} {f : Tx s0 → Tx s0} (hf : ∀ t : Tx s0, Kept E M t.cur (f t).cur) (h : Kept E M a t.cur) :
    Kept E M a (t.when c f).cur := Kept.trans h (t.when_kept c f (hf t))

/-- The step of a fold in the form that it reduces to. -/
theorem Kept.eachEq {α : Type} {x : List α} {f : Tx s0 → α → Tx s0} (hf : ∀ t x, ∃ u, f t x = u ∧ Kept E M t.cur u.cur)
    (h : Kept E M a t.cur) : Kept E M a (t.each x f).cur :=
  .each (fun t x => by
    obtain ⟨u, hu, hk⟩ := hf t x
    exact hu ▸ hk) h

/-- A fold that passes something on beside the transaction. -/
theorem Kept.foldSnd {α β : Type} {x : List α} {f : β × Tx s0 → α → β × Tx s0} {p : β × Tx s0}
    (hf : ∀ p x, Kept E M p.2.cur (f p x).2.cur) (h : Kept E M a p.2.cur) : Kept E M a (x.foldl f p).2.cur := by
  induction x generalizing p with
  | nil => exact h
  | cons y x ih => exact ih (Kept.trans h (hf p y))

/-- The step of such a fold in the form that it reduces to. -/
theorem Kept.foldSndEq {α β : Type} {x : List α} {f : β × Tx s0 → α → β × Tx s0} {p : β × Tx s0}
    (hf : ∀ p x, ∃ b u, f p x = (b, u) ∧ Kept E M p.2.cur u.cur) (h : Kept E M a p.2.cur) : Kept E M a (x.foldl f p).2.cur :=
  .foldSnd (fun p x => by
    obtain ⟨b, u, hu, hk⟩ := hf p x
    exact hu ▸ hk) h

theorem Kept.foldFst {α β : Type} {x : List α} {f : Tx s0 × β → α → Tx s0 × β} {p : Tx s0 × β}
    (hf : ∀ p x, Kept E M p.1.cur (f p x).1.cur) (h : Kept E M a p.1.cur) : Kept E M a (x.foldl f p).1.cur := by
  induction x generalizing p with
  | nil => exact h
  | cons y x ih => exact ih (Kept.trans h (hf p y))

/-! ## Entries -/

section
variable {i n c v : Nat}

theorem Kept.w (h : Keeps l M a t.cur) (hk : mayWrite l i c = true := by decide) : Keeps l M a (t.w i n c v).cur :=
  Kept.trans h (t.w_kept _ _ _ _ (mayWrite_iff hk n))

theorem Kept.wi {v : Int} (h : Keeps l M a t.cur) (hk : mayWrite l i c = true := by decide) : Keeps l M a (t.wi i n c v).cur :=
  h.w hk

theorem Kept.wb {d : Bytes} (h : Keeps l M a t.cur) (hk : covers l i i (c % 256) = true := by decide) :
    Keeps l M a (t.wb i n c d).cur :=
  Kept.trans h (t.wb_kept _ _ _ _ (.of_covers (by rwa [kSub_of_K]) (kIdx_of_K ..).ge (kIdx_of_K ..).le))

theorem Kept.inc (h : Keeps l M a t.cur) (hk : mayWrite l i c = true := by decide) : Keeps l M a (t.inc i n c v).cur := h.w hk

theorem Kept.incSat {hi : Nat} (h : Keeps l M a t.cur) (hk : mayWrite l i c = true := by decide) :
    Keeps l M a (t.incSat i n c v hi).cur := h.w hk

theorem Kept.peak (h : Keeps l M a t.cur) (hk : mayWrite l i c = true := by decide) : Keeps l M a (t.peak i n c v).cur :=
  Kept.trans h (t.peak_kept _ _ _ _ (mayWrite_iff hk n))

theorem Kept.flag (h : Keeps l M a t.cur) (hk : mayWrite l i c = true := by decide) : Keeps l M a (t.flag i n c v).cur :=
  Kept.trans h (t.flag_kept _ _ _ _ (mayWrite_iff hk n))

theorem Kept.flagBit (h : Keeps l M a t.cur) (hk : mayWrite l i c = true := by decide) : Keeps l M a (t.flagBit i n c v).cur :=
  h.flag hk

theorem Kept.w1c (h : Keeps l M a t.cur) (hk : mayWrite l i c = true := by decide) : Keeps l M a (t.w1c i n c v).cur :=
  Kept.trans h (t.w1c_kept _ _ _ _ (mayWrite_iff hk n))

theorem Kept.unflag (h : Keeps l M a t.cur) (hk : mayWrite l i c = true := by decide) : Keeps l M a (t.unflag i n c v).cur := by
  unfold Tx.unflag
  exact .ite (.w (Kept.trans h (t.cycleTo_kept _ _)) hk) h

theorem Kept.counter (h : Keeps l M a t.cur) (hk : mayWrite l (0x6800 + i) 0x01 = true := by decide) :
    Keeps l M a (t.counter i v).cur := Kept.trans h (t.counter_kept _ _ (mayWrite_iff hk 0))

end

/-! ## Counts -/

/-- How many instances of an index have counters of their own (Table 18.1). -/
def mirrorCount (i : Nat) : Nat :=
  match i with
  | 0x4010 => 32
  | 0x4800 => 6
  | 0x4E00 => 4
  | 0x5100 => 16
  | 0x5200 => 8
  | 0x5800 => 24
  | 0x5C10 => 16
  | 0x4A00 => 256
  | _ => 1

/-- A count and the counters that mirror it in any instance are of the groups. -/
def mayCount (l : List Span) (i c : Nat) : Bool :=
  mayWrite l i c &&
    match counterOf i 0 c with
    | none => true
    | some x => covers l (0x6800 + x) (0x6800 + x + (mirrorCount i - 1)) 0x01

theorem mirror_eq_some {first count inst x : Nat} (h : mirror first count inst = some x) : inst < count ∧ x = first + inst := by
  unfold mirror at h
  split at h
  · exact ⟨‹_›, (Option.some.inj h).symm⟩
  · cases h

/-- The counters of one count stand in a row, that of instance 0 first. -/
theorem counterOf_range {i n c x : Nat} (h : counterOf i n c = some x) :
    ∃ y, counterOf i 0 c = some y ∧ y ≤ x ∧ x ≤ y + (mirrorCount i - 1) := by
  unfold counterOf at h
  split at h
  case h_61 => cases h
  all_goals
    simp only [mirror, Option.ite_none_right_eq_some, Option.some.injEq] at h
    exact ⟨_, rfl, by omega, by simp only [mirrorCount]; omega⟩

theorem Kept.count {i n c v : Nat} (h : Keeps l M a t.cur) (hk : mayCount l i c = true := by decide) :
    Keeps l M a (t.count i n c v).cur := by
  simp only [mayCount, Bool.and_eq_true] at hk
  unfold Tx.count
  dsimp only
  split
  · rename_i x hx
    obtain ⟨y, hy, hlo, hhi⟩ := counterOf_range hx
    have hc : covers l (0x6800 + y) (0x6800 + y + (mirrorCount i - 1)) 0x01 = true := by simpa only [hy] using hk.2
    refine Kept.trans (h.inc hk.1) (Tx.counter_kept _ _ _ (.inl ?_))
    exact .of_covers (by rwa [kSub_of_K]) (by rw [kIdx_of_K]; omega) (by rw [kIdx_of_K]; omega)
  · exact h.inc hk.1

theorem Kept.tally {i n c : Nat} (h : Keeps l M a t.cur) (hk : mayCount l i c = true := by decide) :
    Keeps l M a (t.tally i n c).cur := h.count hk

/-! ## Parts of the state -/

theorem Kept.setScene {x : Scene} (h : Kept E M a t.cur) (hm : Part.scene ∈ M := by decide) : Kept E M a (t.setScene x).cur :=
  Kept.trans h (t.setScene_kept x hm)

theorem Kept.setGeo {x : Geo} (h : Kept E M a t.cur) (hm : Part.geo ∈ M := by decide) : Kept E M a (t.setGeo x).cur :=
  Kept.trans h (t.setGeo_kept x hm)

theorem Kept.setRender {x : Render} (h : Kept E M a t.cur) (hm : Part.render ∈ M := by decide) : Kept E M a (t.setRender x).cur :=
  Kept.trans h (t.setRender_kept x hm)

theorem Kept.setCorr {x : Corr} (h : Kept E M a t.cur) (hm : Part.corr ∈ M := by decide) : Kept E M a (t.setCorr x).cur :=
  Kept.trans h (t.setCorr_kept x hm)

theorem Kept.setMaps {x : Maps} (h : Kept E M a t.cur) (hm : Part.maps ∈ M := by decide) : Kept E M a (t.setMaps x).cur :=
  Kept.trans h (t.setMaps_kept x hm)

theorem Kept.setEngines {x : Engines} (h : Kept E M a t.cur) (hm : Part.engines ∈ M := by decide) : Kept E M a (t.setEngines x).cur :=
  Kept.trans h (t.setEngines_kept x hm)

theorem Kept.setSerial {x : Serial} (h : Kept E M a t.cur) (hm : Part.serial ∈ M := by decide) : Kept E M a (t.setSerial x).cur :=
  Kept.trans h (t.setSerial_kept x hm)

theorem Kept.setNet {x : Net} (h : Kept E M a t.cur) (hm : Part.net ∈ M := by decide) : Kept E M a (t.setNet x).cur :=
  Kept.trans h (t.setNet_kept x hm)

theorem Kept.setTime {x : TimeSt} (h : Kept E M a t.cur) (hm : Part.time ∈ M := by decide) : Kept E M a (t.setTime x).cur :=
  Kept.trans h (t.setTime_kept x hm)

theorem Kept.setSprk {x : Sprk} (h : Kept E M a t.cur) (hm : Part.sprk ∈ M := by decide) : Kept E M a (t.setSprk x).cur :=
  Kept.trans h (t.setSprk_kept x hm)

theorem Kept.setHedge {x : Hedge} (h : Kept E M a t.cur) (hm : Part.hedge ∈ M := by decide) : Kept E M a (t.setHedge x).cur :=
  Kept.trans h (t.setHedge_kept x hm)

theorem Kept.setMeas {x : Meas} (h : Kept E M a t.cur) (hm : Part.meas ∈ M := by decide) : Kept E M a (t.setMeas x).cur :=
  Kept.trans h (t.setMeas_kept x hm)

theorem Kept.setPool {x : Pool} (h : Kept E M a t.cur) (hm : Part.pool ∈ M := by decide) : Kept E M a (t.setPool x).cur :=
  Kept.trans h (t.setPool_kept x hm)

theorem Kept.setMem {x : Mem} (h : Kept E M a t.cur) (hm : Part.mem ∈ M := by decide) : Kept E M a (t.setMem x).cur :=
  Kept.trans h (t.setMem_kept x hm)

theorem Kept.setCtl {x : Control} (h : Kept E M a t.cur) (hm : Part.ctl ∈ M := by decide) : Kept E M a (t.setCtl x).cur :=
  Kept.trans h (t.setCtl_kept x hm)

theorem Kept.setStore {x : Store} (h : Kept E M a t.cur) (hm : Part.store ∈ M := by decide) : Kept E M a (t.setStore x).cur :=
  Kept.trans h (t.setStore_kept x hm)

theorem Kept.setPower {x : Power} (h : Kept E M a t.cur) (hm : Part.power ∈ M := by decide) : Kept E M a (t.setPower x).cur :=
  Kept.trans h (t.setPower_kept x hm)

theorem Kept.setResult {x : Result} (h : Kept E M a t.cur) (hm : Part.result ∈ M := by decide) : Kept E M a (t.setResult x).cur :=
  Kept.trans h (t.setResult_kept x hm)

theorem Kept.setOuts {x : List Out} (h : Kept E M a t.cur) (hm : Part.outs ∈ M := by decide) : Kept E M a (t.setOuts x).cur :=
  Kept.trans h (t.setOuts_kept x hm)

theorem Kept.setMsgs {x : List TraceEv} (h : Kept E M a t.cur) : Kept E M a (t.setMsgs x).cur :=
  Kept.trans h (t.setMsgs_kept x)

theorem Kept.setTrace {x : Trace} (h : Kept E M a t.cur) : Kept E M a (t.setTrace x).cur := Kept.trans h (t.setTrace_kept x)

theorem Kept.setSets {x : List (Nat × CycleNote)} (h : Kept E M a t.cur) : Kept E M a (t.setSets x).cur :=
  Kept.trans h (t.setSets_kept x)

theorem Kept.tick {n c : Nat} (h : Kept E M a t.cur) (hm : Part.clock ∈ M := by decide) : Kept E M a (t.tick n c).cur :=
  Kept.trans h (t.tick_kept n c hm)

theorem Kept.at_ {c : Nat} (h : Kept E M a t.cur) (hm : Part.clock ∈ M := by decide) : Kept E M a (t.at_ c).cur := h.tick hm

theorem Kept.draw (h : Kept E M a t.cur) (hm : Part.free ∈ M := by decide) : Kept E M a t.draw.cur :=
  Kept.trans h (t.draw_kept hm)

theorem Kept.fresh (h : Kept E M a t.cur) (hm : Part.free ∈ M := by decide) : Kept E M a t.fresh.2.cur := h.draw hm

theorem Kept.status {st : Nat} (h : Kept E M a t.cur) (hm : Part.result ∈ M := by decide) : Kept E M a (t.status st).cur :=
  h.setResult hm

theorem Kept.reply {d : Bytes} (h : Kept E M a t.cur) (hm : Part.result ∈ M := by decide) : Kept E M a (t.reply d).cur :=
  h.setResult hm

theorem Kept.wait (h : Kept E M a t.cur) (hm : Part.result ∈ M := by decide) : Kept E M a t.wait.cur := h.setResult hm

theorem Kept.emit {o : Out} (h : Kept E M a t.cur) (hm : Part.outs ∈ M := by decide) : Kept E M a (t.emit o).cur :=
  h.setOuts hm

theorem Kept.msgAt {c ty : Nat} {p : Bytes} (h : Kept E M a t.cur) : Kept E M a (t.msgAt c ty p).cur := h.setMsgs

theorem Kept.msg {ty : Nat} {p : Bytes} (h : Kept E M a t.cur) : Kept E M a (t.msg ty p).cur := h.setMsgs

theorem Kept.setHost {n : Nat} {x : HostSt} (h : Kept E M a t.cur) (hm : Part.ctl ∈ M := by decide) :
    Kept E M a (t.setHost n x).cur := h.setCtl hm

theorem Kept.cycleTo {k : Nat} {f : CycleNote → CycleNote} (h : Kept E M a t.cur) : Kept E M a (t.cycleTo k f).cur := h.setSets

/-- The checks of R424 before an entry's own rule only answer a status. -/
theorem Kept.guarded {n : Nat} {o : OpFields} {rule : Tx s0 → Tx s0} (hr : ∀ t : Tx s0, Kept E M t.cur (rule t).cur)
    (h : Kept E M a t.cur) (hm : Part.result ∈ M := by decide) : Kept E M a (t.guarded n o rule).cur :=
  .ite (Kept.trans (h.status hm) (hr _)) (h.status hm)

theorem Kept.guardedBad {n : Nat} {o : OpFields} {bad rule : Tx s0 → Tx s0} (hb : ∀ t : Tx s0, Kept E M t.cur (bad t).cur)
    (hr : ∀ t : Tx s0, Kept E M t.cur (rule t).cur) (h : Kept E M a t.cur) (hm : Part.result ∈ M := by decide) :
    Kept E M a (t.guardedBad n o bad rule).cur :=
  .ite (Kept.trans (h.status hm) (hr _)) (.ite (Kept.trans (h.status hm) (hb _)) (h.status hm))

/-! ## Entries that an operation names by what it is given -/

section
variable {i n c v lo hi : Nat}

theorem Keys.intro (h : covers l lo hi (c % 256) = true) (hlo : lo ≤ i) (hhi : i ≤ hi) : Keys l (K i n c) :=
  .of_covers (by rwa [kSub_of_K]) (by rwa [kIdx_of_K]) (by rwa [kIdx_of_K])

theorem Keys.whole (h : coversAll l i i = true := by decide) : Keys l (K i n c) :=
  .of_coversAll h (kIdx_of_K ..).ge (kIdx_of_K ..).le

theorem Kept.wKey (h : Kept E M a t.cur) (hk : E (K i n c)) : Kept E M a (t.w i n c v).cur :=
  Kept.trans h (t.w_kept _ _ _ _ (.inl hk))

theorem Kept.wiKey {v : Int} (h : Kept E M a t.cur) (hk : E (K i n c)) : Kept E M a (t.wi i n c v).cur := h.wKey hk

theorem Kept.wbKey {d : Bytes} (h : Kept E M a t.cur) (hk : E (K i n c)) : Kept E M a (t.wb i n c d).cur :=
  Kept.trans h (t.wb_kept _ _ _ _ hk)

theorem Kept.incKey (h : Kept E M a t.cur) (hk : E (K i n c)) : Kept E M a (t.inc i n c v).cur := h.wKey hk

theorem Kept.incSatKey {hi : Nat} (h : Kept E M a t.cur) (hk : E (K i n c)) : Kept E M a (t.incSat i n c v hi).cur := h.wKey hk

theorem Kept.peakKey (h : Kept E M a t.cur) (hk : E (K i n c)) : Kept E M a (t.peak i n c v).cur :=
  Kept.trans h (t.peak_kept _ _ _ _ (.inl hk))

theorem Kept.flagKey (h : Kept E M a t.cur) (hk : E (K i n c)) : Kept E M a (t.flag i n c v).cur :=
  Kept.trans h (t.flag_kept _ _ _ _ (.inl hk))

theorem Kept.flagBitKey (h : Kept E M a t.cur) (hk : E (K i n c)) : Kept E M a (t.flagBit i n c v).cur := h.flagKey hk

theorem Kept.w1cKey (h : Kept E M a t.cur) (hk : E (K i n c)) : Kept E M a (t.w1c i n c v).cur :=
  Kept.trans h (t.w1c_kept _ _ _ _ (.inl hk))

theorem Kept.unflagKey (h : Kept E M a t.cur) (hk : E (K i n c)) : Kept E M a (t.unflag i n c v).cur := by
  unfold Tx.unflag
  exact .ite (.wKey (.cycleTo h) hk) h

theorem Kept.counterKey (h : Kept E M a t.cur) (hk : E (K (0x6800 + i) 0 0x01)) : Kept E M a (t.counter i v).cur :=
  Kept.trans h (t.counter_kept _ _ (.inl hk))

theorem Kept.counterIn (h : Keeps l M a t.cur) (hlo : lo ≤ i) (hhi : i ≤ hi)
    (hk : covers l (0x6800 + lo) (0x6800 + hi) 0x01 = true := by decide) : Keeps l M a (t.counter i v).cur :=
  Kept.trans h (t.counter_kept _ _ (.inl (.intro hk (Nat.add_le_add_left hlo _) (Nat.add_le_add_left hhi _))))

end

/-- The cycle in which a task becomes ready is noted among its own state. -/
theorem Kept.taskSee {n : Nat} {f : Tx s0 → Tx s0} (hf : ∀ t : Tx s0, Kept E M t.cur (f t).cur) (h : Kept E M a t.cur)
    (hm : Part.pool ∈ M := by decide) : Kept E M a (t.taskSee n f).cur := by
  dsimp only [Tx.taskSee]
  exact .when (fun _ => .setPool (.refl ..) hm) (Kept.trans h (hf t))

/-! ## Operations on one instance -/

/-- An entry of instance n of the groups l1, a value of the counters cs of that instance, or an entry of the groups l. -/
def KeysAt (n : Nat) (l1 : List Span) (cs : List Nat) (l : List Span) (k : Nat) : Prop :=
  (kInst k = n ∧ Keys l1 k) ∨ (∃ x ∈ cs, k = K (0x6800 + (x + n)) 0 0x01) ∨ Keys l k

/-- Only entries of one instance, or of the groups l, and the parts M differ. -/
abbrev KeepsAt (n : Nat) (l1 : List Span) (cs : List Nat) (l : List Span) (M : List Part) (a b : State) : Prop :=
  Kept (KeysAt n l1 cs l) M a b

section
variable {n i c v : Nat} {l1 l1' : List Span} {cs cs' : List Nat}

theorem KeysAt.one (hn : n < 65536 := by assumption) (hk : covers l1 i i (c % 256) = true := by decide) :
    KeysAt n l1 cs l (K i n c) :=
  .inl ⟨by rw [kInst_of_K]; omega, .of_covers (by rwa [kSub_of_K]) (kIdx_of_K ..).ge (kIdx_of_K ..).le⟩

theorem KeysAt.oneWhole (hn : n < 65536 := by assumption) (hk : coversAll l1 i i = true := by decide) :
    KeysAt n l1 cs l (K i n c) :=
  .inl ⟨by rw [kInst_of_K]; omega, .whole hk⟩

theorem KeysAt.all {m : Nat} (hk : covers l i i (c % 256) = true := by decide) : KeysAt n l1 cs l (K i m c) :=
  .inr (.inr (.of_covers (by rwa [kSub_of_K]) (kIdx_of_K ..).ge (kIdx_of_K ..).le))

/-- A count of the instance, and the counter that mirrors it. -/
theorem Kept.countAt (h : KeepsAt n l1 cs l M a t.cur) (hn : n < 65536 := by assumption)
    (hk : (covers l1 i i (c % 256) && (counterOf i 0 c).all cs.contains) = true := by decide)
    (hc : ∀ x, counterOf i n c = some x → ∃ y, counterOf i 0 c = some y ∧ x = y + n := by
      intro x hx; exact ⟨_, rfl, (mirror_eq_some hx).2⟩) : KeepsAt n l1 cs l M a (t.count i n c v).cur := by
  simp only [Bool.and_eq_true] at hk
  unfold Tx.count
  dsimp only
  split
  · rename_i x hx
    obtain ⟨y, hy, rfl⟩ := hc x hx
    rw [hy] at hk
    exact .counterKey (h.incKey (.one hn hk.1)) (.inr (.inl ⟨y, by simpa using hk.2, rfl⟩))
  · exact h.incKey (.one hn hk.1)

theorem Kept.tallyAt (h : KeepsAt n l1 cs l M a t.cur) (hn : n < 65536 := by assumption)
    (hk : (covers l1 i i (c % 256) && (counterOf i 0 c).all cs.contains) = true := by decide)
    (hc : ∀ x, counterOf i n c = some x → ∃ y, counterOf i 0 c = some y ∧ x = y + n := by
      intro x hx; exact ⟨_, rfl, (mirror_eq_some hx).2⟩) : KeepsAt n l1 cs l M a (t.tally i n c).cur := h.countAt hn hk hc

/-- A count without a counter. -/
theorem Kept.countKey (h : Kept E M a t.cur) (hk : E (K i n c)) (hc : counterOf i n c = none := by rfl) :
    Kept E M a (t.count i n c v).cur := by
  unfold Tx.count
  rw [hc]
  exact h.incKey hk

theorem Kept.tallyKey (h : Kept E M a t.cur) (hk : E (K i n c)) (hc : counterOf i n c = none := by rfl) :
    Kept E M a (t.tally i n c).cur := h.countKey hk hc

/-- One more operation, of a frame within the groups l. -/
theorem Kept.stepIn {b : State} {c : State} (h : Keeps l' M' b c) (h0 : KeepsAt n l1 cs l M a b) (hl : within l' l = true := by decide)
    (hM : M'.all M.contains = true := by decide) : KeepsAt n l1 cs l M a c :=
  Kept.trans h0 (h.mono (fun _ hk => .inr (.inr (hk.mono hl))) (fun m hm => by simpa using List.all_eq_true.mp hM m hm))

theorem KeysAt.mono {k : Nat} (h : KeysAt n l1' cs' l' k) (h1 : within l1' (l1 ++ l) = true) (hc : cs'.all cs.contains = true)
    (hl : within l' l = true) : KeysAt n l1 cs l k := by
  rcases h with ⟨hn, hk⟩ | ⟨x, hx, rfl⟩ | hk
  · obtain ⟨y, hy, hb⟩ := hk.mono h1
    rcases List.mem_append.mp hy with hy | hy
    · exact .inl ⟨hn, y, hy, hb⟩
    · exact .inr (.inr ⟨y, hy, hb⟩)
  · exact .inr (.inl ⟨x, by simpa using List.all_eq_true.mp hc x hx, rfl⟩)
  · exact .inr (.inr (hk.mono hl))

/-- One more operation on the instance. -/
theorem Kept.stepAt {b : State} {c : State} (h : KeepsAt n l1' cs' l' M' b c) (h0 : KeepsAt n l1 cs l M a b)
    (h1 : within l1' (l1 ++ l) = true := by decide) (hc : cs'.all cs.contains = true := by decide)
    (hl : within l' l = true := by decide) (hM : M'.all M.contains = true := by decide) : KeepsAt n l1 cs l M a c :=
  Kept.trans h0 (h.mono (fun _ hk => hk.mono h1 hc hl) (fun m hm => by simpa using List.all_eq_true.mp hM m hm))

end

/-! ## Frames of commands -/

/-- What the meaning of a command leaves unchanged. -/
def FrameOf (g : State → Host.Outcome State Fault Refusal) (E : Nat → Prop) (M : List Part) : Prop :=
  ∀ s t, g s = .next t → Kept E (.result :: .outs :: M) s t

/-- A command in a clocked block changes what its transaction does, and an unclocked block takes none. -/
theorem Kept.runStart {s u : State} {f : Tx s → Tx s} (hf : Kept E (.result :: .outs :: M) (Tx.start s).cur (f (Tx.start s)).cur)
    (hu : Sys2Proof.Machine.run s f = .next u) : Kept E (.result :: .outs :: M) s u := by
  by_cases hc : s.clocked = true
  · obtain ⟨v, hv, hk⟩ := run_next hc f
    cases hv.symm.trans hu
    exact .of_run (by simp) (by simp) hf hk
  · obtain ⟨v, hv, hk⟩ := run_unclocked (Bool.eq_false_of_not_eq_true hc) f
    cases hv.symm.trans hu
    exact hk.mono (fun _ h => h.elim) (by simp)

theorem Kept.run {s u : State} {f : Tx s → Tx s} (hf : ∀ t : Tx s, Kept E (.result :: .outs :: M) t.cur (f t).cur)
    (hu : Sys2Proof.Machine.run s f = .next u) : Kept E (.result :: .outs :: M) s u := .runStart (hf _) hu

theorem FrameOf.run {f : ∀ s, Tx s → Tx s} (hf : ∀ s (t : Tx s), Kept E (.result :: .outs :: M) t.cur (f s t).cur) :
    FrameOf (fun s => Sys2Proof.Machine.run s (f s)) E M := fun s _ ht => .run (hf s) ht

/-- The same of a transaction in the form that it reduces to. -/
theorem FrameOf.runIs {f : ∀ s, Tx s → Tx s}
    (hf : ∀ s (t : Tx s), ∃ u, f s t = u ∧ Kept E (.result :: .outs :: M) t.cur u.cur) :
    FrameOf (fun s => Sys2Proof.Machine.run s (f s)) E M := .run fun s t => by
  obtain ⟨u, hu, hk⟩ := hf s t
  exact hu ▸ hk

theorem FrameOf.runCtl {f : ∀ s, Tx s → Tx s} (hf : ∀ s (t : Tx s), Kept E (.result :: .outs :: M) t.cur (f s t).cur) :
    FrameOf (fun s => Sys2Proof.Machine.runCtl s (f s)) E M :=
  .run (f := fun s t => if s.ctl.down then t else f s t) (fun s t => .ite (.refl ..) (hf s t))

theorem FrameOf.runAlways {f : ∀ s, Tx s → Tx s} (hf : ∀ s (t : Tx s), Kept E (.result :: .outs :: M) t.cur (f s t).cur) :
    FrameOf (fun s => Sys2Proof.Machine.runAlways s (f s)) E M := by
  intro s t ht
  obtain ⟨u, hu, hk⟩ := runAlways_next (f s)
  cases hu.symm.trans ht
  exact .of_run (by simp) (by simp) (hf s _) hk

theorem parts_within (hM : M.all (Part.result :: .outs :: M').contains = true) (m : Part) (hm : m ∈ Part.result :: .outs :: M) :
    m ∈ Part.result :: .outs :: M' := by
  simp only [List.mem_cons] at hm
  rcases hm with rfl | rfl | hm
  · simp
  · simp
  · simpa using List.all_eq_true.mp hM m hm

/-- A frame of an obligation from a narrower one. -/
theorem Frame.of {c : Instr} {g : State → Host.Outcome State Fault Refusal} (h : FrameOf g (Keys l) M)
    (hg : exec c = g := by rfl) (hl : within l l' = true := by decide)
    (hM : M.all (Part.result :: .outs :: M').contains = true := by decide) : Frame c l' M' :=
  fun _ s t ht => (h s t (hg ▸ ht)).mono (fun _ hk => hk.mono hl) (parts_within hM)

/-- The groups of an obligation that KeysAt stands for. -/
def spansAt (n : Nat) (l1 : List Span) (cs : List Nat) (l : List Span) : List Span :=
  l1.map (fun x => { x with inst := some n }) ++ cs.map (fun x => .ctr (x + n) (x + n)) ++ l

theorem KeysAt.keys {n k : Nat} {l1 : List Span} {cs : List Nat} (h : KeysAt n l1 cs l k) : Keys (spansAt n l1 cs l) k := by
  rcases h with ⟨hn, x, hx, hlo, hhi, -, hs⟩ | ⟨x, hx, rfl⟩ | ⟨x, hx, hk⟩
  · exact ⟨{ x with inst := some n }, by simp only [spansAt, List.mem_append, List.mem_map]; exact .inl (.inl ⟨x, hx, rfl⟩),
      hlo, hhi, fun m hm => hn.trans (Option.some.inj hm), hs⟩
  · refine ⟨.ctr (x + n) (x + n), by simp only [spansAt, List.mem_append, List.mem_map]; exact .inl (.inr ⟨x, hx, rfl⟩), ?_⟩
    simp [Span.has, Span.ctr, kIdx_of_K, kSub_of_K]
  · exact ⟨x, by simp only [spansAt, List.mem_append]; exact .inr hx, hk⟩

/-- A frame of an obligation on one instance. -/
theorem Frame.ofAt {c : Instr} {g : State → Host.Outcome State Fault Refusal} {n : Nat} {l1 : List Span} {cs : List Nat}
    (h : n < 65536 → FrameOf g (KeysAt n l1 cs l) M) (hg : exec c = g := by rfl)
    (hn : c.wf = true → n < 65536 := by intro hw; simp [Instr.wf, wfInst, wfHost] at hw; omega)
    (hl : spansAt n l1 cs l ⊆ l' := by simp [spansAt, Span.sends, Span.one, Span.all, Span.ctr])
    (hM : M.all (Part.result :: .outs :: M').contains = true := by decide) : Frame c l' M' := by
  intro hw s t ht
  refine (h (hn hw) s t (hg ▸ ht)).mono (fun k hk => ?_) (parts_within hM)
  obtain ⟨x, hx, hb⟩ := hk.keys
  exact ⟨x, hl hx, hb⟩

end Sys2Proof.Machine
end

section
/-! PROOFS. The frame of every operation that the meanings of commands share: the entries and the parts of the state that it may
change, each from the frames of the operations that it is made of. -/

namespace Sys2Proof.Machine
open Sys2Proof

-- One proof after the other: each thread that waits for another's result holds a stack of its own.
set_option Elab.async false

variable {s0 : State}

theorem Tx.setChainSt_keeps (t : Tx s0) (c : ℕ) (x : Chain) : Keeps [] [.pool] t.cur (t.setChainSt c x).cur := by
  dsimp only [Tx.setChainSt]
  exact .setPool (.refl ..)

theorem Tx.missRun_keeps (t : Tx s0) (c : ℕ) : Keeps [.all 0x5E00 [0x07, 0x0C], .all 0x5E10 [0x05, 0x0D, 0x13], .ctr
      224 239] [.pool] t.cur (t.missRun c).cur := by
  dsimp only [Tx.missRun]
  exact .ite (.step (Tx.setChainSt_keeps ..) (.flagBit (.flagBit (.tally (.tally (.each (fun _ _ => .counterIn (lo :=
      224) (hi := 239) (.refl ..) (by omega) (by omega)) (.refl ..))))))) (.flagBit (.flagBit (.step (Tx.setChainSt_keeps ..)
      (.w (.step (Tx.setChainSt_keeps ..) (.flagBit (.flagBit (.tally (.tally (.each (fun _ _ => .counterIn (lo := 224) (hi
      := 239) (.refl ..) (by omega) (by omega)) (.refl ..)))))))))))

theorem Tx.coalesce_keeps (t : Tx s0) (c : ℕ) : Keeps [.all 0x5E00 [0x07, 0x0C], .all 0x5E10 [0x05, 0x0D, 0x13], .all
      0x5F00 [0x06, 0x09], .all 0x5F10 [0x08], .ctr 224 239, .ctr 244 244] [.pool] t.cur (t.coalesce c).cur := by
  dsimp only [Tx.coalesce]
  split
  · exact .ite (.refl ..) (.step (Tx.setChainSt_keeps ..) (.ite (.flagBit (.tally (.inc (.refl ..)))) (.step
        (Tx.missRun_keeps ..) (.flagBit (.tally (.inc (.refl ..)))))))
  · exact .refl ..

theorem Tx.setMac_keeps (t : Tx s0) (m : ℕ) (x : MacSt) : Keeps [] [.net] t.cur (t.setMac m x).cur := by
  dsimp only [Tx.setMac]
  exact .setNet (.refl ..)

theorem Tx.freeCells_keeps (t : Tx s0) (n : ℕ) : Keeps [.all 0x4900 [0x02, 0x04]] [] t.cur (t.freeCells n).cur := by
  dsimp only [Tx.freeCells]
  exact .inc (.w (.refl ..))

theorem Tx.setTxs_keeps (t : Tx s0) (i : ℕ) (x : TxStream) : Keeps [] [.net] t.cur (t.setTxs i x).cur := by
  dsimp only [Tx.setTxs]
  exact .setNet (.refl ..)

theorem Tx.copyEnd_keeps (t : Tx s0) (c : MediaCopy) : Keeps [.all 0x4900 [0x02, 0x04]] [.net] t.cur (t.copyEnd c).cur := by
  dsimp only [Tx.copyEnd]
  split
  · exact .refl ..
  · exact .ite (.step (Tx.freeCells_keeps ..) (.step (Tx.setTxs_keeps ..) (.refl ..))) (.step (Tx.setTxs_keeps ..) (.refl
        ..))

theorem Tx.copyLate_keeps (t : Tx s0) (m : ℕ) (c : MediaCopy) : Keeps [.all 0x4800 [0x16, 0x17], .all 0x4900 [0x02,
      0x04], .all 0x4C00 [0x19, 0x1B]] [.net] t.cur (t.copyLate m c).cur := by
  dsimp only [Tx.copyLate]
  exact .step (Tx.copyEnd_keeps ..) (.flagBit (.flagBit (.tally (.tally (.refl ..)))))

theorem Tx.macExpire_keeps (t : Tx s0) (m : ℕ) : Keeps [.all 0x4800 [0x16, 0x17], .all 0x4900 [0x02, 0x04], .all 0x4C00
      [0x19, 0x1B]] [.net] t.cur (t.macExpire m).cur := by
  dsimp only [Tx.macExpire]
  exact .ite (.refl ..) (.each (fun _ _ => .step (Tx.copyLate_keeps ..) (.refl ..)) (.step (Tx.setMac_keeps ..) (.refl
      ..)))

theorem Tx.macDone_keeps (t : Tx s0) (m : ℕ) : Keeps [.all 0x4900 [0x02, 0x04]] [.net] t.cur (t.macDone m).cur := by
  dsimp only [Tx.macDone]
  split
  · exact .ite (.step (Tx.copyEnd_keeps ..) (.step (Tx.setMac_keeps ..) (.refl ..))) (.refl ..)
  · exact .refl ..

theorem Tx.copyStart_keeps (t : Tx s0) (c : MediaCopy) : Keeps [.all 0x4C00 [0x15]] [.net] t.cur (t.copyStart c).cur := by
  dsimp only [Tx.copyStart]
  exact .ite (.refl ..) (.tally (.step (Tx.setTxs_keeps ..) (.refl ..)))

theorem Tx.stampSent_keeps (t : Tx s0) (m : ℕ) (c : ℕ) (r : StampReq) : Keeps [.all 0x5010 [0x03], .all 0x5300 [0x01,
      0x02, 0x03, 0x04, 0x06], .ctr 141 141] [.time] t.cur (t.stampSent m c r).2.cur := by
  dsimp only [Tx.stampSent]
  exact .iteSnd (.flagBit (.tally (.inc (.refl ..)))) (.peak (.w (.inc (.setTime (.inc (.refl ..))))))

theorem Tx.enqueue_keeps (t : Tx s0) (m : ℕ) (e : Egress) : Keeps [] [.net] t.cur (t.enqueue m e).cur := by
  dsimp only [Tx.enqueue]
  exact .step (Tx.setMac_keeps ..) (.refl ..)

theorem Tx.stamped_keeps (t : Tx s0) (m : ℕ) (c : ℕ) (r : StampReq) : Keeps [.all 0x5001 [0x19, 0x1B], .all 0x5010
      [0x03], .all 0x5300 [0x01, 0x02, 0x03, 0x04, 0x06], .ctr 140 140, .ctr 141 141] [.net, .time] t.cur (t.stamped m c
      r).cur := by
  dsimp only [Tx.stamped]
  split
  · exact .ite (.step (Tx.stampSent_keeps ..) (.refl ..)) (.step (Tx.enqueue_keeps ..) (.step (Tx.stampSent_keeps ..)
        (.refl ..)))
  · exact .flagBit (.tally (.step (Tx.stampSent_keeps ..) (.refl ..)))
  · exact .setTime (.step (Tx.stampSent_keeps ..) (.refl ..))
  · exact .setTime (.step (Tx.stampSent_keeps ..) (.refl ..))
  · exact .step (Tx.stampSent_keeps ..) (.refl ..)

theorem Tx.frameStart_keeps (t : Tx s0) (m : ℕ) (c : ℕ) (e : Egress) : Keeps [.all 0x4800 [0x0B], .all 0x4C00 [0x15],
      .all 0x5001 [0x19, 0x1B], .all 0x5010 [0x03], .all 0x5300 [0x01, 0x02, 0x03, 0x04, 0x06], .ctr 118 123, .ctr 140 140,
      .ctr 141 141] [.outs, .net, .time] t.cur (t.frameStart m c e).cur := by
  dsimp only [Tx.frameStart]
  split
  · refine .step (Tx.stamped_keeps ..) (?_)
    split
    · exact .step (Tx.copyStart_keeps ..) (.tally (.emit (.step (Tx.setMac_keeps ..) (.refl ..))))
    · exact .tally (.emit (.step (Tx.setMac_keeps ..) (.refl ..)))
  · split
    · exact .step (Tx.copyStart_keeps ..) (.tally (.emit (.step (Tx.setMac_keeps ..) (.refl ..))))
    · exact .tally (.emit (.step (Tx.setMac_keeps ..) (.refl ..)))

theorem Tx.macLoop_keeps (m : ℕ) (fuel : ℕ) (t : Tx s0) : Keeps [.all 0x4800 [0x0B, 0x16, 0x17], .all 0x4900 [0x02,
      0x04], .all 0x4C00 [0x15, 0x19, 0x1B], .all 0x5001 [0x19, 0x1B], .all 0x5010 [0x03], .all 0x5300 [0x01, 0x02, 0x03,
      0x04, 0x06], .ctr 118 123, .ctr 140 140, .ctr 141 141] [.outs, .net, .time] t.cur (t.macLoop m fuel).cur := by
  induction fuel generalizing m t with
  | zero =>
    dsimp only [Tx.macLoop]
    exact .refl ..
  | succ n ih =>
    dsimp only [Tx.macLoop]
    split
    · exact .step (Tx.macDone_keeps ..) (.refl ..)
    · refine .ite (.step (Tx.macDone_keeps ..) (.refl ..)) (?_)
      split
      · exact .trans (.ite (.step (Tx.copyLate_keeps ..) (.step (Tx.setMac_keeps ..) (.step (Tx.macDone_keeps ..) (.refl
            ..)))) (.step (Tx.frameStart_keeps ..) (.step (Tx.setMac_keeps ..) (.step (Tx.macDone_keeps ..) (.refl ..)))))
            (ih ..)
      · exact .trans (.step (Tx.frameStart_keeps ..) (.step (Tx.setMac_keeps ..) (.step (Tx.macDone_keeps ..) (.refl
            ..)))) (ih ..)

theorem Tx.macRun_keeps (t : Tx s0) (m : ℕ) : Keeps [.all 0x4800 [0x0B, 0x16, 0x17], .all 0x4900 [0x02, 0x04], .all
      0x4C00 [0x15, 0x19, 0x1B], .all 0x5001 [0x19, 0x1B], .all 0x5010 [0x03], .all 0x5300 [0x01, 0x02, 0x03, 0x04, 0x06],
      .ctr 118 123, .ctr 140 140, .ctr 141 141] [.outs, .net, .time] t.cur (t.macRun m).cur := by
  dsimp only [Tx.macRun]
  exact .ite (.refl ..) (.step (Tx.macExpire_keeps ..) (.ite (.step (Tx.macLoop_keeps ..) (.refl ..)) (.step
      (Tx.macDone_keeps ..) (.refl ..))))

theorem Tx.egress_keeps (t : Tx s0) (m : ℕ) (e : Egress) : Keeps [.all 0x4800 [0x0B, 0x16, 0x17], .all 0x4900 [0x02,
      0x04], .all 0x4C00 [0x15, 0x19, 0x1B], .all 0x5001 [0x19, 0x1B], .all 0x5010 [0x03], .all 0x5300 [0x01, 0x02, 0x03,
      0x04, 0x06], .ctr 118 123, .ctr 140 140, .ctr 141 141] [.outs, .net, .time] t.cur (t.egress m e).cur := by
  dsimp only [Tx.egress]
  exact .ite (.refl ..) (.step (Tx.macRun_keeps ..) (.step (Tx.enqueue_keeps ..) (.refl ..)))

theorem Tx.sprkSendAfter_keeps (t : Tx s0) (wait : ℕ) (ty : ℕ) (target : ℕ) (seq : ℕ) (records : ℕ) (flags : ℕ)
      (payload : Bytes) : Keeps [.all 0x4800 [0x0B, 0x16, 0x17], .all 0x4900 [0x02, 0x04], .all 0x4C00 [0x15, 0x19, 0x1B],
      .all 0x5001 [0x19, 0x1B], .all 0x5010 [0x03], .all 0x5300 [0x01, 0x02, 0x03, 0x04, 0x06], .ctr 118 123, .ctr 140 140,
      .ctr 141 141] [.outs, .net, .time] t.cur (t.sprkSendAfter wait ty target seq records flags payload).cur := by
  dsimp only [Tx.sprkSendAfter]
  exact .each (fun _ _ => .step (Tx.egress_keeps ..) (.refl ..)) (.refl ..)

theorem Tx.sprkSend_keeps (t : Tx s0) (ty : ℕ) (target : ℕ) (seq : ℕ) (records : ℕ) (flags : ℕ) (payload : Bytes) :
      Keeps [.all 0x4800 [0x0B, 0x16, 0x17], .all 0x4900 [0x02, 0x04], .all 0x4C00 [0x15, 0x19, 0x1B], .all 0x5001 [0x19,
      0x1B], .all 0x5010 [0x03], .all 0x5300 [0x01, 0x02, 0x03, 0x04, 0x06], .ctr 118 123, .ctr 140 140, .ctr 141 141]
      [.outs, .net, .time] t.cur (t.sprkSend ty target seq records flags payload).cur := by
  dsimp only [Tx.sprkSend]
  exact .step (Tx.sprkSendAfter_keeps ..) (.refl ..)

theorem Tx.sprkData_keeps (t : Tx s0) (records : List Bytes) : Keeps [.all 0x4800 [0x0B, 0x16, 0x17], .all 0x4900
      [0x02, 0x04], .all 0x4C00 [0x15, 0x19, 0x1B], .all 0x5001 [0x19, 0x1B], .all 0x5010 [0x03], .all 0x5300 [0x01, 0x02,
      0x03, 0x04, 0x06], .all 0x5400 [0x10], .ctr 118 123, .ctr 140 140, .ctr 141 141] [.outs, .net, .time, .sprk] t.cur
      (t.sprkData records).cur := by
  dsimp only [Tx.sprkData]
  exact .each (fun _ _ => .setSprk (.step (Tx.sprkSend_keeps ..) (.w (.refl ..)))) (.refl ..)

theorem Tx.showClass_keeps (t : Tx s0) : Keeps [.all 0x5001 [0x15]] [] t.cur t.showClass.cur := by
  dsimp only [Tx.showClass]
  exact .w (.refl ..)

theorem Tx.release9_keeps (t : Tx s0) : Keeps [] [.maps, .time] t.cur t.release9.cur := by
  dsimp only [Tx.release9]
  exact .ite (.refl ..) (.when (fun _ => .setMaps (.refl ..)) (.setTime (.refl ..)))

theorem Tx.servoTo_keeps (t : Tx s0) (st : ℕ) : Keeps [.all 0x5000 [0x07, 0x08], .all 0x5001 [0x15]] [.maps, .time]
      t.cur (t.servoTo st).cur := by
  dsimp only [Tx.servoTo]
  exact .when (fun _ => .step (Tx.release9_keeps ..) (.refl ..)) (.when (fun _ => .w (.refl ..)) (.when (fun _ => .step
      (Tx.showClass_keeps ..) (.msg (.w (.refl ..)))) (.refl ..)))

theorem Tx.sessionMsg_keeps (t : Tx s0) (h : ℕ) (ev : ℕ) : Keeps [] [] t.cur (t.sessionMsg h ev).cur := by
  dsimp only [Tx.sessionMsg]
  exact .msg (.refl ..)

theorem Tx.spoil_keeps (t : Tx s0) (m : ℕ) : Keeps [] [.meas] t.cur (t.spoil m).cur := by
  dsimp only [Tx.spoil]
  split
  · exact .refl ..
  · exact .setMeas (.refl ..)

theorem Tx.micTo_keeps (t : Tx s0) (m : ℕ) (st : ℕ) : Keeps [.all 0x5C10 [0x0A]] [.meas] t.cur (t.micTo m st).cur := by
  dsimp only [Tx.micTo]
  exact .w (.when (fun _ => .step (Tx.spoil_keeps ..) (.refl ..)) (.refl ..))

theorem Tx.setMic_keeps (t : Tx s0) (m : ℕ) (x : Mic) : Keeps [] [.meas] t.cur (t.setMic m x).cur := by
  dsimp only [Tx.setMic]
  exact .setMeas (.refl ..)

theorem Tx.micReset_keeps (t : Tx s0) (m : ℕ) (B : ℕ) : Keeps [.all 0x5C10 [0x0A]] [.meas] t.cur (t.micReset m B).cur := by
  dsimp only [Tx.micReset]
  exact .step (Tx.micTo_keeps ..) (.step (Tx.setMic_keeps ..) (.refl ..))

theorem Tx.beginSave_keeps (t : Tx s0) (empty waits : Bool) :
    Keeps [.all 0x1400 [0x02, 0x07, 0x08]] [.store] t.cur (t.beginSave empty waits).cur := by
  dsimp only [Tx.beginSave]
  exact .w (.w (.setStore (.refl ..))) (by unfold leafSub; split <;> decide)

theorem Tx.askSave_keeps (t : Tx s0) (empty : Bool) (waits : Bool) : Keeps [.all 0x1400 [0x02, 0x07, 0x08]] [.store]
      t.cur (t.askSave empty waits).cur := by
  dsimp only [Tx.askSave]
  split
  · exact .step (Tx.beginSave_keeps ..) (.refl ..)
  · exact .w (.setStore (.refl ..))

theorem saveRule_keeps (t : Tx s0) : Keeps [.all 0x1400 [0x02, 0x07, 0x08]] [.result, .store] t.cur (saveRule t).cur := by
  dsimp only [saveRule]
  exact .wait (.step (Tx.askSave_keeps ..) (.refl ..))

theorem Tx.ptpCalibrated_keeps (t : Tx s0) : Keeps [.all 0x5001 [0x11]] [] t.cur t.ptpCalibrated.cur := by
  dsimp only [Tx.ptpCalibrated]
  exact .ite (.refl ..) (.w (.refl ..))

theorem Tx.setChain_keeps (t : Tx s0) (k : ℕ) (c : OutChain) : Keeps [] [.corr] t.cur (t.setChain k c).cur := by
  dsimp only [Tx.setChain]
  exact .setCorr (.refl ..)

theorem Tx.landFurrow_keeps (t : Tx s0) (L : ℕ) (x : Landing) : Keeps [.all 0x3400 [0x0A], .all 0x3410 [0x01, 0x02,
      0x05, 0x07, 0x0B]] [.render] t.cur (t.landFurrow L x).cur := by
  dsimp only [Tx.landFurrow]
  exact .when (fun _ => .flagBit (.refl ..)) (.when (fun _ => .flagBit (.tally (.refl ..))) (.w (.w (.w (.w (.setRender
      (.refl ..)))))))

theorem Tx.showPending_keeps (t : Tx s0) (n : ℕ) : Keeps [.all 0x3410 [0x03, 0x04, 0x07]] [] t.cur (t.showPending
      n).cur := by
  dsimp only [Tx.showPending]
  split
  · exact .w (.w (.w (.refl ..)))
  · exact .w (.w (.refl ..))

theorem Tx.furrowStats_keeps (t : Tx s0) : Keeps [.all 0x3400 [0x03, 0x04, 0x05]] [] t.cur t.furrowStats.cur := by
  dsimp only [Tx.furrowStats]
  exact .w (.w (.w (.refl ..)))

theorem Tx.landFurrows_keeps (t : Tx s0) (L : ℕ) : Keeps [.all 0x3400 [0x03, 0x04, 0x05, 0x07, 0x08, 0x09, 0x0A, 0x11],
      .all 0x3410 [0x01, 0x02, 0x03, 0x04, 0x05, 0x07, 0x0B]] [.render] t.cur (t.landFurrows L).cur := by
  dsimp only [Tx.landFurrows]
  exact .step (Tx.furrowStats_keeps ..) (.when (fun _ => .flagBit (.w (.w (.w (.refl ..))))) (.each (fun _ _ => .step
      (Tx.showPending_keeps ..) (.refl ..)) (.setRender (.each (fun _ _ => .step (Tx.landFurrow_keeps ..) (.refl ..)) (.refl
      ..)))))

theorem Tx.sprkSet_keeps (t : Tx s0) (f : Sprk → Sprk) : Keeps [] [.sprk] t.cur (t.sprkSet f).cur := by
  dsimp only [Tx.sprkSet]
  exact .setSprk (.refl ..)

theorem Tx.sprkTo_keeps (t : Tx s0) (st : ℕ) : Keeps [.all 0x5400 [0x0D]] [] t.cur (t.sprkTo st).cur := by
  dsimp only [Tx.sprkTo]
  exact .ite (.refl ..) (.msg (.w (.refl ..)))

theorem Tx.freezeOn_keeps (t : Tx s0) (cause : ℕ) : Keeps [] [.meas] t.cur (t.freezeOn cause).cur := by
  dsimp only [Tx.freezeOn]
  exact .ite (.refl ..) (.setMeas (.refl ..))

theorem Tx.sprkResync_keeps (t : Tx s0) : Keeps [.all 0x5400 [0x0D, 0x1C]] [.sprk, .meas] t.cur t.sprkResync.cur := by
  dsimp only [Tx.sprkResync]
  exact .step (Tx.sprkTo_keeps ..) (.step (Tx.freezeOn_keeps ..) (.flagBit (.step (Tx.sprkSet_keeps ..) (.refl ..))))

theorem Tx.demote_keeps (t : Tx s0) (flag : ℕ) : Keeps [.all 0x5400 [0x02, 0x0D, 0x1C]] [.sprk, .meas] t.cur (t.demote
      flag).cur := by
  dsimp only [Tx.demote]
  exact .step (Tx.sprkResync_keeps ..) (.flagBit (.w (.refl ..)))

theorem Tx.epochCheck_keeps (t : Tx s0) (first : ℕ) : Keeps [.all 0x5400 [0x0D, 0x1C]] [.sprk, .meas] t.cur
      (t.epochCheck first).cur := by
  dsimp only [Tx.epochCheck]
  exact .ite (.step (Tx.sprkResync_keeps ..) (.step (Tx.sprkSet_keeps ..) (.refl ..))) (.step (Tx.sprkSet_keeps ..)
      (.refl ..))

theorem Tx.followEpoch_keeps (t : Tx s0) (x : Dgram) (first : Option ℕ) :
    Keeps [.all 0x5400 [0x02, 0x0D, 0x0E, 0x0F, 0x1C]] [.sprk, .meas] t.cur (t.followEpoch x first).cur := by
  have hw : Keeps [.all 0x5400 [0x02, 0x0D, 0x0E, 0x0F, 0x1C]] [.sprk, .meas] t.cur (t.w 0x5400 0 0x0E x.sender).cur :=
    .w (.refl ..)
  dsimp only [Tx.followEpoch, Tx.when]
  split
  · split
    · exact .step (Tx.demote_keeps ..) (.ite (.w (.w (.refl ..))) (.w (.refl ..)))
    · split
      · exact .step (Tx.epochCheck_keeps ..) (.ite (.w (.w (.refl ..))) (.w (.refl ..)))
      · exact .step (Tx.sprkSet_keeps ..) (.ite (.w (.w (.refl ..))) (.w (.refl ..)))
  · split
    · split
      · split
        · split
          · exact .step (Tx.epochCheck_keeps ..) hw
          · exact hw
        · exact hw
      · exact .ite (.step (Tx.demote_keeps ..) hw) (.refl ..)
    · exact .refl ..

theorem Tx.setDramWord_keeps (t : Tx s0) (w : ℕ) (x : DramWord) : Keeps [] [.mem] t.cur (t.setDramWord w x).cur := by
  dsimp only [Tx.setDramWord]
  exact .setMem (.refl ..)

theorem Tx.memMsg_keeps (t : Tx s0) (kind : ℕ) (region : ℕ) (offset : ℕ) : Keeps [] [] t.cur (t.memMsg kind region
      offset).cur := by
  dsimp only [Tx.memMsg]
  exact .msg (.refl ..)

theorem Tx.dramBad_keeps (t : Tx s0) (offset : ℕ) : Keeps [.all 0x6200 [0x19, 0x1B, 0x21], .ctr 247 247] [] t.cur
      (t.dramBad offset).cur := by
  dsimp only [Tx.dramBad]
  exact .step (Tx.memMsg_keeps ..) (.flagBit (.w (.tally (.refl ..))))

theorem Tx.delivered_keeps (t : Tx s0) (w : ℕ) (errs : List ℕ) : Keeps [] [.free] t.cur (t.delivered w errs).2.cur := by
  dsimp only [Tx.delivered]
  exact .iteSnd (.refl ..) (.fresh (.refl ..))

theorem Tx.markDevice_keeps (t : Tx s0) (d : ℕ) (who : ℕ) : Keeps [.all 0x1400 [0x02, 0x07, 0x08], .all 0x6200 [0x21],
      .all 0x6210 [0x05, 0x06, 0x07]] [.store] t.cur (t.markDevice d who).cur := by
  dsimp only [Tx.markDevice]
  exact .step (Tx.askSave_keeps ..) (.flag (.when (fun _ => .flagBit (.refl ..)) (.w (.w (.w (.refl ..))))))

theorem Tx.autoMark_keeps (t : Tx s0) (n : ℕ) (d : ℕ) : Keeps [.all 0x1400 [0x02, 0x07, 0x08], .all 0x6200 [0x21], .all
      0x6210 [0x05, 0x06, 0x07]] [.mem, .store] t.cur (t.autoMark n d).cur := by
  dsimp only [Tx.autoMark]
  refine .ite (?_) (.setMem (.refl ..))
  split
  · exact .flagBit (.setMem (.refl ..))
  · exact .step (Tx.markDevice_keeps ..) (.setMem (.refl ..))

theorem Tx.codeword_keeps (t : Tx s0) (n : ℕ) (offset : ℕ) (errs : List ℕ) : Keeps [.all 0x1400 [0x02, 0x07, 0x08],
      .all 0x6200 [0x18, 0x19, 0x1A, 0x1B, 0x21], .all 0x6210 [0x03, 0x04, 0x05, 0x06, 0x07], .ctr 246 246, .ctr 247 247]
      [.mem, .store] t.cur (t.codeword n offset errs).cur := by
  dsimp only [Tx.codeword]
  refine .ite (.refl ..) (.ite (.ite (.refl ..) (.tally (.count (.step (Tx.memMsg_keeps ..) (.flagBit (.w (.tally (.refl
      ..)))))))) (.ite (?_) (.step (Tx.dramBad_keeps ..) (.refl ..))))
  split
  · exact .ite (.step (Tx.autoMark_keeps ..) (.each (fun _ _ => .tally (.refl ..)) (.each (fun _ _ => .tally (.refl ..))
        (.step (Tx.memMsg_keeps ..) (.flagBit (.w (.tally (.refl ..)))))))) (.each (fun _ _ => .tally (.refl ..)) (.each (fun
        _ _ => .tally (.refl ..)) (.step (Tx.memMsg_keeps ..) (.flagBit (.w (.tally (.refl ..)))))))
  · exact .each (fun _ _ => .tally (.refl ..)) (.each (fun _ _ => .tally (.refl ..)) (.step (Tx.memMsg_keeps ..)
        (.flagBit (.w (.tally (.refl ..))))))

theorem Tx.dramRead_keeps (t : Tx s0) (w : ℕ) (errs : List ℕ) : Keeps [.all 0x1400 [0x02, 0x07, 0x08], .all 0x6200
      [0x18, 0x19, 0x1A, 0x1B, 0x21], .all 0x6210 [0x03, 0x04, 0x05, 0x06, 0x07], .ctr 246 246, .ctr 247 247] [.free, .mem,
      .store] t.cur (t.dramRead w errs).2.2.cur := by
  dsimp only [Tx.dramRead]
  split
  · exact .step (Tx.dramBad_keeps ..) (.refl ..)
  · exact .when (fun _ => .setMem (.refl ..)) (.step (Tx.delivered_keeps ..) (.step (Tx.codeword_keeps ..) (.refl ..)))

theorem Tx.dramWrite_keeps (t : Tx s0) (w : ℕ) (bytes : List (Option Byte)) (errs : List ℕ) : Keeps [.all 0x1400 [0x02,
      0x07, 0x08], .all 0x6200 [0x18, 0x19, 0x1A, 0x1B, 0x21], .all 0x6210 [0x03, 0x04, 0x05, 0x06, 0x07], .ctr 246 246, .ctr
      247 247] [.free, .mem, .store] t.cur (t.dramWrite w bytes errs).cur := by
  dsimp only [Tx.dramWrite]
  exact .ite (.refl ..) (.ite (.setMem (.step (Tx.setDramWord_keeps ..) (.refl ..))) (.setMem (.step
      (Tx.setDramWord_keeps ..) (.step (Tx.dramRead_keeps ..) (.refl ..)))))

theorem Tx.portMsg_keeps (t : Tx s0) (p : ℕ) (event : ℕ) (time : ℕ) : Keeps [] [] t.cur (t.portMsg p event time).cur := by
  dsimp only [Tx.portMsg]
  exact .msg (.refl ..)

theorem Tx.portTo_keeps (t : Tx s0) (p : ℕ) (st : ℕ) : Keeps [.all 0x4010 [0x01, 0x16], .all 0x4400 [0x02]] [] t.cur
      (t.portTo p st).cur := by
  dsimp only [Tx.portTo]
  exact .ite (.refl ..) (.step (Tx.portMsg_keeps ..) (.when (fun _ => .w (.refl ..)) (.when (fun _ => .flagBit (.refl
      ..)) (.w (.refl ..)))))

theorem Tx.bridgeTake_keeps (t : Tx s0) (dir n : ℕ) (hd : dir ≤ 1 := by omega) :
    Keeps [.all 0x3F00 [0x05, 0x06]] [] t.cur (t.bridgeTake dir n).cur := by
  dsimp only [Tx.bridgeTake]
  exact .inc (.refl ..) (by interval_cases dir <;> decide)

theorem Tx.asrcShow_keeps (t : Tx s0) : Keeps [.all 0x4010 [0x15], .all 0x4500 [0x01, 0x02]] [] t.cur t.asrcShow.cur := by
  dsimp only [Tx.asrcShow]
  exact .each (fun _ _ => .w (.refl ..)) (.w (.w (.refl ..)))

theorem Tx.asrcTake_keeps (t : Tx s0) (kind : ℕ) (inst : ℕ) (l : List (ℕ × ℕ)) : Keeps [.all 0x4010 [0x15], .all 0x4500
      [0x01, 0x02], .all 0x4510 [0x01, 0x02, 0x03, 0x04]] [] t.cur (t.asrcTake kind inst l).cur := by
  dsimp only [Tx.asrcTake]
  exact .step (Tx.asrcShow_keeps ..) (.each (fun _ _ => .w (.w (.w (.w (.refl ..))))) (.refl ..))

theorem Tx.portTake_keeps (t : Tx s0) (p : ℕ) : Keeps [.all 0x3F00 [0x05, 0x06], .all 0x4010 [0x15], .all 0x4500 [0x01,
      0x02], .all 0x4510 [0x01, 0x02, 0x03, 0x04]] [] t.cur (t.portTake p).cur := by
  dsimp only [Tx.portTake]
  split
  · exact .step (Tx.bridgeTake_keeps ..) (.step (Tx.bridgeTake_keeps ..) (.refl ..))
  · exact .step (Tx.asrcTake_keeps ..) (.refl ..)
  · exact .refl ..

theorem Tx.setPort_keeps (t : Tx s0) (p : ℕ) (x : Port) : Keeps [] [.serial] t.cur (t.setPort p x).cur := by
  dsimp only [Tx.setPort]
  exact .setSerial (.refl ..)

theorem Tx.portArm_keeps (t : Tx s0) (p : ℕ) : Keeps [.all 0x3F00 [0x05, 0x06], .all 0x4010 [0x01, 0x02, 0x15, 0x16],
      .all 0x4400 [0x02], .all 0x4500 [0x01, 0x02], .all 0x4510 [0x01, 0x02, 0x03, 0x04]] [.serial] t.cur (t.portArm p).cur
      := by
  dsimp only [Tx.portArm]
  exact .step (Tx.setPort_keeps ..) (.step (Tx.portTake_keeps ..) (.w (.step (Tx.portTo_keeps ..) (.refl ..))))

theorem Tx.portsLook_keeps (t : Tx s0) : Keeps [.all 0x3F00 [0x05, 0x06], .all 0x4010 [0x01, 0x02, 0x15, 0x16], .all
      0x4400 [0x02], .all 0x4500 [0x01, 0x02], .all 0x4510 [0x01, 0x02, 0x03, 0x04]] [.serial] t.cur t.portsLook.cur := by
  dsimp only [Tx.portsLook]
  exact .each (fun _ _ => .ite (.step (Tx.portArm_keeps ..) (.refl ..)) (.refl ..)) (.refl ..)

theorem Tx.streamTake_keeps (t : Tx s0) (i : ℕ) (dom : ℕ) (dir : ℕ) (c : ℕ) (hd : dir ≤ 1 := by omega) : Keeps [.all
      0x3F00 [0x05, 0x06], .all 0x4010 [0x15], .all 0x4500 [0x01, 0x02], .all 0x4510 [0x01, 0x02, 0x03, 0x04]] [] t.cur
      (t.streamTake i dom dir c).cur := by
  dsimp only [Tx.streamTake]
  split
  · exact .refl ..
  · exact .step (Tx.bridgeTake_keeps ..) (.refl ..)
  · exact .step (Tx.asrcTake_keeps ..) (.refl ..)

theorem Tx.rxMsg_keeps (t : Tx s0) (i : ℕ) (event : ℕ) (x : ℕ) : Keeps [] [] t.cur (t.rxMsg i event x).cur := by
  dsimp only [Tx.rxMsg]
  exact .msg (.refl ..)

theorem Tx.rxTo_keeps (t : Tx s0) (i : ℕ) (st : ℕ) : Keeps [.all 0x4A00 [0x12, 0x21]] [] t.cur (t.rxTo i st).cur := by
  dsimp only [Tx.rxTo]
  exact .ite (.refl ..) (.step (Tx.rxMsg_keeps ..) (.when (fun _ => .flagBit (.refl ..)) (.w (.refl ..))))

theorem Tx.setRx_keeps (t : Tx s0) (i : ℕ) (x : RxStream) : Keeps [] [.net] t.cur (t.setRx i x).cur := by
  dsimp only [Tx.setRx]
  exact .setNet (.refl ..)

theorem Tx.rxStart_keeps (t : Tx s0) (i : ℕ) : Keeps [.all 0x3F00 [0x05, 0x06], .all 0x4010 [0x15], .all 0x4500 [0x01,
      0x02], .all 0x4510 [0x01, 0x02, 0x03, 0x04], .all 0x4900 [0x02, 0x03], .all 0x4A00 [0x12, 0x1F, 0x21]] [.net] t.cur
      (t.rxStart i).cur := by
  dsimp only [Tx.rxStart]
  exact .step (Tx.rxTo_keeps ..) (.w (.step (Tx.setRx_keeps ..) (.w (.inc (.step (Tx.streamTake_keeps ..) (.refl ..))))))

theorem Tx.staleDrop_keeps (t : Tx s0) (i : ℕ) : Keeps [.all 0x4800 [0x16, 0x17], .all 0x4900 [0x02, 0x04], .all 0x4C00
      [0x19, 0x1B]] [.net] t.cur (t.staleDrop i).cur := by
  dsimp only [Tx.staleDrop]
  exact .ite (.refl ..) (.each (fun _ _ => .flagBit (.flagBit (.count (.count (.refl ..))))) (.step (Tx.freeCells_keeps
      ..) (.step (Tx.setTxs_keeps ..) (.refl ..))))

theorem Tx.txTo_keeps (t : Tx s0) (i : ℕ) (st : ℕ) : Keeps [.all 0x4C00 [0x14, 0x1B]] [.net] t.cur (t.txTo i st).cur := by
  dsimp only [Tx.txTo]
  exact .when (fun _ => .step (Tx.setTxs_keeps ..) (.flagBit (.refl ..))) (.when (fun _ => .flagBit (.refl ..)) (.w
      (.refl ..)))

theorem Tx.sendFrame_keeps (t : Tx s0) (m : ℕ) (f : Bytes) : Keeps [.all 0x4800 [0x0B, 0x16, 0x17], .all 0x4900 [0x02,
      0x04], .all 0x4C00 [0x15, 0x19, 0x1B], .all 0x5001 [0x19, 0x1B], .all 0x5010 [0x03], .all 0x5300 [0x01, 0x02, 0x03,
      0x04, 0x06], .ctr 118 123, .ctr 140 140, .ctr 141 141] [.outs, .net, .time] t.cur (t.sendFrame m f).cur := by
  dsimp only [Tx.sendFrame]
  exact .step (Tx.egress_keeps ..) (.refl ..)

theorem Tx.arpAsk_keeps (t : Tx s0) (m : ℕ) (ip : ℕ) : Keeps [.all 0x4800 [0x0B, 0x16, 0x17], .all 0x4900 [0x02, 0x04],
      .all 0x4C00 [0x15, 0x19, 0x1B], .all 0x5001 [0x19, 0x1B], .all 0x5010 [0x03], .all 0x5300 [0x01, 0x02, 0x03, 0x04,
      0x06], .ctr 118 123, .ctr 140 140, .ctr 141 141] [.outs, .net, .time] t.cur (t.arpAsk m ip).cur := by
  dsimp only [Tx.arpAsk]
  exact .step (Tx.sendFrame_keeps ..) (.refl ..)

theorem Tx.txAsk_keeps (t : Tx s0) (i : ℕ) : Keeps [.all 0x4800 [0x0B, 0x16, 0x17], .all 0x4900 [0x02, 0x04], .all
      0x4C00 [0x15, 0x19, 0x1B], .all 0x5001 [0x19, 0x1B], .all 0x5010 [0x03], .all 0x5300 [0x01, 0x02, 0x03, 0x04, 0x06],
      .ctr 118 123, .ctr 140 140, .ctr 141 141] [.outs, .net, .time] t.cur (t.txAsk i).cur := by
  dsimp only [Tx.txAsk]
  exact .each (fun _ _ => .ite (.refl ..) (.step (Tx.arpAsk_keeps ..) (.refl ..))) (.refl ..)

theorem Tx.showLoad_keeps (t : Tx s0) : Keeps [.all 0x4800 [0x09]] [] t.cur t.showLoad.cur := by
  dsimp only [Tx.showLoad]
  exact .each (fun _ _ => .w (.refl ..)) (.refl ..)

theorem Tx.txStart_keeps (t : Tx s0) (i : ℕ) (b : ℕ) : Keeps [.all 0x3F00 [0x05, 0x06], .all 0x4010 [0x15], .all 0x4500
      [0x01, 0x02], .all 0x4510 [0x01, 0x02, 0x03, 0x04], .all 0x4800 [0x09, 0x0B, 0x16, 0x17], .all 0x4900 [0x02, 0x04],
      .all 0x4C00 [0x14, 0x15, 0x19, 0x1B], .all 0x5001 [0x19, 0x1B], .all 0x5010 [0x03], .all 0x5300 [0x01, 0x02, 0x03,
      0x04, 0x06], .ctr 118 123, .ctr 140 140, .ctr 141 141] [.outs, .net, .time] t.cur (t.txStart i b).cur := by
  dsimp only [Tx.txStart]
  exact .step (Tx.showLoad_keeps ..) (.ite (.step (Tx.txTo_keeps ..) (.step (Tx.setTxs_keeps ..) (.step
      (Tx.streamTake_keeps ..) (.step (Tx.staleDrop_keeps ..) (.refl ..))))) (.step (Tx.txAsk_keeps ..) (.step (Tx.txTo_keeps
      ..) (.step (Tx.setTxs_keeps ..) (.step (Tx.streamTake_keeps ..) (.step (Tx.staleDrop_keeps ..) (.refl ..)))))))

theorem Tx.heldLook_keeps (t : Tx s0) : Keeps [.all 0x3F00 [0x05, 0x06], .all 0x4010 [0x01, 0x02, 0x15, 0x16], .all
      0x4400 [0x02], .all 0x4500 [0x01, 0x02], .all 0x4510 [0x01, 0x02, 0x03, 0x04], .all 0x4800 [0x09, 0x0B, 0x16, 0x17],
      .all 0x4900 [0x02, 0x03, 0x04], .all 0x4A00 [0x12, 0x1F, 0x21], .all 0x4C00 [0x14, 0x15, 0x19, 0x1B], .all 0x5001
      [0x19, 0x1B], .all 0x5010 [0x03], .all 0x5300 [0x01, 0x02, 0x03, 0x04, 0x06], .ctr 118 123, .ctr 140 140, .ctr 141 141]
      [.outs, .serial, .net, .time] t.cur t.heldLook.cur := by
  dsimp only [Tx.heldLook]
  exact .each (fun _ _ => .ite (.step (Tx.txStart_keeps ..) (.refl ..)) (.refl ..)) (.each (fun _ _ => .ite (.step
      (Tx.rxStart_keeps ..) (.refl ..)) (.refl ..)) (.step (Tx.portsLook_keeps ..) (.refl ..)))

theorem Tx.bulkStart_keeps (t : Tx s0) (k : ℕ) : Keeps [.all 0x3800 [0x03, 0x16, 0x17], .all 0x3B00 [0x0B, 0x0E]]
      [.corr] t.cur (t.bulkStart k).cur := by
  dsimp only [Tx.bulkStart]
  split
  · exact .refl ..
  · exact .ite (.ite (.refl ..) (.flagBit (.flagBit (.tally (.tally (.step (Tx.setChain_keeps ..) (.refl ..))))))) (.w
        (.step (Tx.setChain_keeps ..) (.refl ..)))

theorem Tx.sramBad_keeps (t : Tx s0) (r : ℕ) (word : ℕ) : Keeps [.all 0x6100 [0x03, 0x05, 0x09], .ctr 249 249] [] t.cur
      (t.sramBad r word).cur := by
  dsimp only [Tx.sramBad]
  exact .step (Tx.memMsg_keeps ..) (.flagBit (.w (.tally (.refl ..))))

theorem Tx.setTrack_keeps (t : Tx s0) (n : ℕ) (x : Track) : Keeps [] [.scene] t.cur (t.setTrack n x).cur := by
  dsimp only [Tx.setTrack]
  exact .setScene (.refl ..)

theorem Tx.cacheFault_keeps (t : Tx s0) (v : State) (f : CacheFault) : Keeps [.all 0x6100 [0x03, 0x05, 0x09], .all
      0x6200 [0x19, 0x1B, 0x21], .ctr 247 247, .ctr 249 249] [.scene] t.cur (t.cacheFault v f).cur := by
  dsimp only [Tx.cacheFault]
  split
  · exact .refl ..
  · split
    · exact .step (Tx.setTrack_keeps ..) (.step (Tx.dramBad_keeps ..) (.step (Tx.sramBad_keeps ..) (.refl ..)))
    · exact .step (Tx.sramBad_keeps ..) (.refl ..)

theorem Tx.scrubNext_keeps (t : Tx s0) (n : ℕ) : Keeps [.all 0x6200 [0x15, 0x17]] [.mem] t.cur (t.scrubNext n).cur := by
  dsimp only [Tx.scrubNext]
  exact .ite (.w (.tally (.setMem (.refl ..)))) (.w (.setMem (.refl ..)))

theorem Tx.traceSend_keeps (t : Tx s0) (c : ℕ) (idle : Bool) : Keeps [.all 0x6A00 [0x09, 0x10, 0x11, 0x13, 0x14]]
      [.outs] t.cur (t.traceSend c idle).cur := by
  dsimp only [Tx.traceSend]
  exact .ite (.refl ..) (.when (fun _ => .emit (.refl ..)) (.when (fun _ => .w (.inc (.inc (.inc (.inc (.emit (.refl
      ..))))))) (.setTrace (.refl ..))))

theorem Tx.traceDrop_keeps (t : Tx s0) (e : TraceEv) : Keeps [.ctr 15 15, .all 0x6A00 [0x12, 0x15, 0x1F]] [] t.cur
      (t.traceDrop e).cur := by
  dsimp only [Tx.traceDrop]
  exact .flagBit (.w (.w (.w (.setTrace (.refl ..)))))

theorem Tx.tracePut_keeps (t : Tx s0) (e : TraceEv) : Keeps [.ctr 15 15, .all 0x6A00 [0x09, 0x0A, 0x12, 0x15, 0x16,
      0x1F]] [] t.cur (t.tracePut e).cur := by
  dsimp only [Tx.tracePut]
  exact .ite (.step (Tx.traceDrop_keeps ..) (.refl ..)) (.when (fun _ => .flagBit (.refl ..)) (.peak (.w (.when (fun _ =>
      .w (.refl ..)) (.setTrace (.refl ..))))))

theorem Tx.traceTake_keeps (t : Tx s0) (e : TraceEv) : Keeps [.ctr 15 15, .all 0x6A00 [0x09, 0x0A, 0x10, 0x11, 0x12,
      0x13, 0x14, 0x15, 0x16, 0x1F]] [.outs] t.cur (t.traceTake e).cur := by
  dsimp only [Tx.traceTake]
  exact .ite (.ite (.step (Tx.traceDrop_keeps ..) (.step (Tx.traceSend_keeps ..) (.refl ..))) (.step (Tx.tracePut_keeps
      ..) (.step (Tx.tracePut_keeps ..) (.step (Tx.traceSend_keeps ..) (.refl ..))))) (.step (Tx.tracePut_keeps ..) (.step
      (Tx.traceSend_keeps ..) (.refl ..)))

theorem Tx.showGrafts_keeps (t : Tx s0) (k : ℕ) : Keeps [.all 0x3800 [0x0A, 0x0B, 0x0C, 0x0D, 0x0E, 0x0F]] [] t.cur
      (t.showGrafts k).cur := by
  dsimp only [Tx.showGrafts]
  split
  · refine .w (.w (?_))
    split
    · exact .w (.w (.w (.refl ..)))
    · exact .w (.w (.refl ..))
  · refine .w (.w (?_))
    split
    · exact .w (.w (.w (.refl ..)))
    · exact .w (.w (.refl ..))

theorem Tx.showChain_keeps (t : Tx s0) (c : ℕ) : Keeps [.all 0x5E10 [0x08, 0x09, 0x0A, 0x0B]] [] t.cur (t.showChain
      c).cur := by
  dsimp only [Tx.showChain]
  exact .w (.w (.w (.w (.refl ..))))

theorem Tx.frameDrop_keeps (t : Tx s0) (m sub : ℕ) (hs : 0x0C ≤ sub ∧ sub ≤ 0x12 := by decide) :
    Keeps [.all 0x4800 [0x0C, 0x0D, 0x0E, 0x0F, 0x10, 0x11, 0x12, 0x17], .ctr 124 129] [] t.cur (t.frameDrop m sub).cur := by
  dsimp only [Tx.frameDrop]
  obtain ⟨h1, h2⟩ := hs
  exact .flagBit (.tally (.refl ..) (by interval_cases sub <;> decide))

theorem Tx.modSub_keeps (t : Tx s0) (n : ℕ) (f : SubCh → SubCh) : Keeps [] [.mem] t.cur (t.modSub n f).cur := by
  dsimp only [Tx.modSub]
  exact .setMem (.refl ..)

theorem Tx.issue_keeps (t : Tx s0) (n : ℕ) (c : DramCmd) : Keeps [] [.mem] t.cur (t.issue n c).cur := by
  dsimp only [Tx.issue]
  exact .step (Tx.modSub_keeps ..) (.refl ..)

theorem Tx.nrrPick_keeps (t : Tx s0) (n : ℕ) (row : ℕ) (bank : ℕ) : Keeps [.all 0x6200 [0x08, 0x21]] [.mem] t.cur
      (t.nrrPick n row bank).cur := by
  dsimp only [Tx.nrrPick]
  exact .ite (.flagBit (.tally (.refl ..))) (.setMem (.refl ..))

theorem Tx.openFor_keeps (t : Tx s0) (n : ℕ) (bank : ℕ) (row : ℕ) : Keeps [.all 0x6200 [0x08, 0x21]] [.free, .mem]
      t.cur (t.openFor n bank row).cur := by
  dsimp only [Tx.openFor]
  exact .step (Tx.modSub_keeps ..) (.ite (.refl ..) (.when (fun _ => .step (Tx.nrrPick_keeps ..) (.refl ..)) (.fresh
      (.step (Tx.issue_keeps ..) (.when (fun _ => .step (Tx.issue_keeps ..) (.refl ..)) (.refl ..))))))

theorem Tx.closeRow_keeps (t : Tx s0) (n : ℕ) (bank : ℕ) : Keeps [] [.mem] t.cur (t.closeRow n bank).cur := by
  dsimp only [Tx.closeRow]
  exact .step (Tx.modSub_keeps ..) (.refl ..)

theorem Tx.dramPiece_keeps (t : Tx s0) (f : BusPiece) :
    Keeps [.all 0x1400 [0x02, 0x07, 0x08], .all 0x6200 [0x01, 0x08, 0x18, 0x19, 0x1A, 0x1B, 0x21],
      .all 0x6210 [0x03, 0x04, 0x05, 0x06, 0x07], .ctr 246 246, .ctr 247 247] [.free, .mem, .store] t.cur (t.dramPiece f).2.cur := by
  have ho (a b c : ℕ) : Keeps [.all 0x1400 [0x02, 0x07, 0x08], .all 0x6200 [0x01, 0x08, 0x18, 0x19, 0x1A, 0x1B, 0x21],
      .all 0x6210 [0x03, 0x04, 0x05, 0x06, 0x07], .ctr 246 246, .ctr 247 247] [.free, .mem, .store] t.cur
      ((if t.g 0x6200 0 0x01 == 2 then t.w 0x6200 0 0x01 1 else t).openFor a b c).cur :=
    .step (Tx.openFor_keeps ..) (.ite (.w (.refl ..)) (.refl ..))
  have hc {u : Tx s0} (c : Bool) (a b : ℕ) (h : Keeps [.all 0x1400 [0x02, 0x07, 0x08], .all 0x6200 [0x01, 0x08, 0x18, 0x19, 0x1A,
      0x1B, 0x21], .all 0x6210 [0x03, 0x04, 0x05, 0x06, 0x07], .ctr 246 246, .ctr 247 247] [.free, .mem, .store] t.cur u.cur) :
      Keeps [.all 0x1400 [0x02, 0x07, 0x08], .all 0x6200 [0x01, 0x08, 0x18, 0x19, 0x1A, 0x1B, 0x21],
      .all 0x6210 [0x03, 0x04, 0x05, 0x06, 0x07], .ctr 246 246, .ctr 247 247] [.free, .mem, .store] t.cur
      (if c then u else u.closeRow a b).cur := .ite h (.step (Tx.closeRow_keeps ..) h)
  unfold Tx.dramPiece
  dsimp only
  split
  · refine hc _ _ _ (.eachEq (fun u w => ⟨_, rfl, ?_⟩) (ho _ _ _))
    exact .ite (.step (Tx.dramWrite_keeps ..) (.refl ..)) (.step (Tx.issue_keeps ..) (.step (Tx.dramWrite_keeps ..) (.refl ..)))
  · refine hc _ _ _ (.foldSndEq (fun p w => ⟨_, _, rfl, ?_⟩) (ho _ _ _))
    exact .step (Tx.dramRead_keeps ..) (.step (Tx.issue_keeps ..) (.refl ..))

theorem Tx.mramWrite_keeps (t : Tx s0) (o : ℕ) (new : List (Option Byte)) : Keeps [] [.store, .power] t.cur
      (t.mramWrite o new).cur := by
  dsimp only [Tx.mramWrite]
  refine .ite (.refl ..) (.ite (.setPower (.refl ..)) (.ite (.setPower (.refl ..)) (.ite (.refl ..) (.ite (.setStore
      (.refl ..)) (?_)))))
  split
  · exact .setPower (.refl ..)
  · exact .refl ..

theorem Tx.cellsWrite_keeps (t : Tx s0) (j : ℕ) (o : ℕ) (new : List (Option Byte)) : Keeps [] [.mem, .store, .power]
      t.cur (t.cellsWrite j o new).cur := by
  dsimp only [Tx.cellsWrite]
  exact .ite (.refl ..) (.ite (.step (Tx.mramWrite_keeps ..) (.refl ..)) (.setMem (.refl ..)))

theorem Tx.sramCorrected_keeps (t : Tx s0) (r : ℕ) (word : ℕ) (syn : ℕ) : Keeps [.all 0x6100 [0x02, 0x04, 0x06, 0x09],
      .ctr 248 248] [] t.cur (t.sramCorrected r word syn).cur := by
  dsimp only [Tx.sramCorrected]
  exact .step (Tx.memMsg_keeps ..) (.flagBit (.w (.w (.tally (.refl ..)))))

theorem Tx.sramFixed_keeps (t : Tx s0) (x : SramHit) : Keeps [.all 0x6100 [0x02, 0x04, 0x06, 0x09], .ctr 248 248]
      [.mem] t.cur (t.sramFixed x).cur := by
  dsimp only [Tx.sramFixed]
  exact .when (fun _ => .setMem (.refl ..)) (.step (Tx.sramCorrected_keeps ..) (.refl ..))

theorem Tx.sramErrors_keeps (t : Tx s0) (r : BusReq) (j : ℕ) (o : ℕ) (n : ℕ) : Keeps [.all 0x6100 [0x02, 0x03, 0x04,
      0x05, 0x06, 0x09], .ctr 248 248, .ctr 249 249] [.mem] t.cur (t.sramErrors r j o n).2.cur := by
  dsimp only [Tx.sramErrors]
  exact .setMem (.each (fun _ _ => .step (Tx.sramBad_keeps ..) (.refl ..)) (.each (fun _ _ => .step (Tx.sramFixed_keeps
      ..) (.refl ..)) (.refl ..)))

theorem Tx.pieceActs_keeps (t : Tx s0) (f : BusPiece) : Keeps [.all 0x1400 [0x02, 0x07, 0x08], .all 0x6100 [0x02, 0x03,
      0x04, 0x05, 0x06, 0x09], .all 0x6200 [0x01, 0x08, 0x18, 0x19, 0x1A, 0x1B, 0x21], .all 0x6210 [0x03, 0x04, 0x05, 0x06,
      0x07], .ctr 246 246, .ctr 247 247, .ctr 248 248, .ctr 249 249] [.free, .mem, .store, .power] t.cur (t.pieceActs
      f).2.cur := by
  dsimp only [Tx.pieceActs]
  refine .iteSnd (.step (Tx.dramPiece_keeps ..) (.refl ..)) (?_)
  split
  · exact .step (Tx.cellsWrite_keeps ..) (.refl ..)
  · exact .step (Tx.sramErrors_keeps ..) (.refl ..)

theorem Tx.flightActs_keeps (t : Tx s0) (f : BusPiece) (done : ℕ) : Keeps [.all 0x1400 [0x02, 0x07, 0x08], .all 0x6100
      [0x02, 0x03, 0x04, 0x05, 0x06, 0x09], .all 0x6200 [0x01, 0x08, 0x18, 0x19, 0x1A, 0x1B, 0x21], .all 0x6210 [0x03, 0x04,
      0x05, 0x06, 0x07], .ctr 246 246, .ctr 247 247, .ctr 248 248, .ctr 249 249] [.free, .mem, .store, .power] t.cur
      (t.flightActs f done).cur := by
  dsimp only [Tx.flightActs]
  exact .setMem (.step (Tx.pieceActs_keeps ..) (.refl ..))

theorem Tx.serve_keeps (t : Tx s0) (n : ℕ) : Keeps [.all 0x1400 [0x02, 0x07, 0x08], .all 0x6100 [0x02, 0x03, 0x04,
      0x05, 0x06, 0x09], .all 0x6200 [0x01, 0x08, 0x18, 0x19, 0x1A, 0x1B, 0x21], .all 0x6210 [0x03, 0x04, 0x05, 0x06, 0x07],
      .ctr 246 246, .ctr 247 247, .ctr 248 248, .ctr 249 249] [.free, .mem, .store, .power] t.cur (t.serve n).cur := by
  dsimp only [Tx.serve]
  split
  · exact .refl ..
  · exact .step (Tx.flightActs_keeps ..) (.step (Tx.modSub_keeps ..) (.fresh (.fresh (.fresh (.refl ..)))))

theorem Tx.rakeSet_keeps (t : Tx s0) (m : ℕ) : Keeps [.all 0x5F00 [0x01, 0x02]] [] t.cur (t.rakeSet m).cur := by
  dsimp only [Tx.rakeSet]
  exact .flag (.flag (.refl ..))

theorem Tx.arrivalWord_keeps (t : Tx s0) (x : Stim) (c : Cap) (m : ℕ) : Keeps [] [.free] t.cur (t.arrivalWord x c
      m).2.cur := by
  dsimp only [Tx.arrivalWord]
  split
  · exact .refl ..
  · split
    · refine .iteSnd (.refl ..) (?_)
      split
      · exact .refl ..
      · exact .fresh (.refl ..)
    · exact .refl ..

theorem Tx.sendHeartbeat_keeps (t : Tx s0) : Keeps [.all 0x4800 [0x0B, 0x16, 0x17], .all 0x4900 [0x02, 0x04], .all
      0x4C00 [0x15, 0x19, 0x1B], .all 0x5001 [0x19, 0x1B], .all 0x5010 [0x03], .all 0x5300 [0x01, 0x02, 0x03, 0x04, 0x06],
      .ctr 118 123, .ctr 140 140, .ctr 141 141] [.outs, .net, .time, .sprk] t.cur t.sendHeartbeat.cur := by
  dsimp only [Tx.sendHeartbeat]
  exact .step (Tx.sprkSet_keeps ..) (.step (Tx.sprkSend_keeps ..) (.refl ..))

theorem Tx.refreshes_keeps (t : Tx s0) (n : ℕ) : Keeps [.all 0x6200 [0x03]] [.mem] t.cur (t.refreshes n).cur := by
  dsimp only [Tx.refreshes]
  exact .ite (.refl ..) (.count (.each (fun _ _ => .step (Tx.modSub_keeps ..) (.step (Tx.issue_keeps ..) (.step
      (Tx.issue_keeps ..) (.refl ..)))) (.refl ..)))

theorem Tx.igmpSend_keeps (t : Tx s0) (m : ℕ) (group : ℕ) (kind : ℕ) : Keeps [.all 0x4800 [0x0B, 0x16, 0x17], .all
      0x4900 [0x02, 0x04], .all 0x4C00 [0x15, 0x19, 0x1B], .all 0x5001 [0x19, 0x1B], .all 0x5010 [0x03], .all 0x5300 [0x01,
      0x02, 0x03, 0x04, 0x06], .ctr 118 123, .ctr 140 140, .ctr 141 141] [.outs, .net, .time] t.cur (t.igmpSend m group
      kind).cur := by
  dsimp only [Tx.igmpSend]
  exact .ite (.step (Tx.sendFrame_keeps ..) (.refl ..)) (.step (Tx.sendFrame_keeps ..) (.refl ..))

theorem Tx.igmpJoin_keeps (t : Tx s0) (m : ℕ) (group : ℕ) : Keeps [.all 0x4800 [0x0B, 0x16, 0x17], .all 0x4900 [0x02,
      0x04], .all 0x4C00 [0x15, 0x19, 0x1B], .all 0x5001 [0x19, 0x1B], .all 0x5010 [0x03], .all 0x5300 [0x01, 0x02, 0x03,
      0x04, 0x06], .ctr 118 123, .ctr 140 140, .ctr 141 141] [.outs, .net, .time] t.cur (t.igmpJoin m group).cur := by
  dsimp only [Tx.igmpJoin]
  exact .step (Tx.setMac_keeps ..) (.step (Tx.igmpSend_keeps ..) (.refl ..))

theorem Tx.setTask_keeps (t : Tx s0) (n : ℕ) (x : Task) : Keeps [] [.pool] t.cur (t.setTask n x).cur := by
  dsimp only [Tx.setTask]
  exact .setPool (.refl ..)

theorem Tx.taskCoalesce_keeps (t : Tx s0) (n : ℕ) : Keeps [.all 0x5F00 [0x06, 0x09], .all 0x5F10 [0x08], .ctr 244 244]
      [.pool] t.cur (t.taskCoalesce n).cur := by
  dsimp only [Tx.taskCoalesce]
  exact .each (fun _ _ => .flagBit (.tally (.inc (.refl ..)))) (.step (Tx.setTask_keeps ..) (.refl ..))

theorem Tx.dispatchOwn_keeps (t : Tx s0) (i : ℕ) (at_ : ℕ) : Keeps [.all 0x5E00 [0x0B], .all 0x5F00 [0x05, 0x06, 0x08,
      0x09], .all 0x5F10 [0x07, 0x08, 0x09], .ctr 243 243, .ctr 244 244] [.free, .pool] t.cur (t.dispatchOwn i at_).cur := by
  dsimp only [Tx.dispatchOwn]
  split
  · exact .refl ..
  · exact .ite (.refl ..) (.peak (.w (.inc (.counter (.tally (.inc (.when (fun _ => .step (Tx.setTask_keeps ..) (.refl
        ..)) (.setPool (.step (Tx.setTask_keeps ..) (.ite (.fresh (.refl ..)) (.step (Tx.taskCoalesce_keeps ..) (.fresh
        (.refl ..)))))))))))))

theorem Tx.graftReport_keeps (t : Tx s0) (h : ℕ) (records : ℕ) (late : ℕ) (st : ℕ) (fail : ℕ) (a : ℕ) : Keeps [.all
      0x3B01 [0x01, 0x02, 0x03, 0x04, 0x05]] [] t.cur (t.graftReport h records late st fail a).cur := by
  dsimp only [Tx.graftReport]
  exact .w (.w (.w (.w (.w (.refl ..)))))

theorem Tx.graftRefuse_keeps (t : Tx s0) (h : ℕ) (records : ℕ) (late : ℕ) (st : ℕ) (fail : ℕ) : Keeps [.all 0x3B00
      [0x0E], .all 0x3B01 [0x01, 0x02, 0x03, 0x04, 0x05]] [.result] t.cur (t.graftRefuse h records late st fail).cur := by
  dsimp only [Tx.graftRefuse]
  exact .status (.flagBit (.step (Tx.graftReport_keeps ..) (.refl ..)))

theorem Tx.acceptGraft_keeps (t : Tx s0) (a : ℕ) (r : GraftRec) : Keeps [.all 0x3800 [0x0A, 0x0B, 0x0C, 0x0D, 0x0E,
      0x0F, 0x17], .all 0x3B00 [0x08, 0x09, 0x0E]] [.corr] t.cur (t.acceptGraft a r).cur := by
  dsimp only [Tx.acceptGraft]
  exact .ite (.step (Tx.showGrafts_keeps ..) (.step (Tx.setChain_keeps ..) (.when (fun _ => .flagBit (.flagBit (.tally
      (.refl ..)))) (.refl ..)))) (.step (Tx.showGrafts_keeps ..) (.step (Tx.setChain_keeps ..) (.when (fun _ => .flagBit
      (.flagBit (.tally (.refl ..)))) (.when (fun _ => .flagBit (.flagBit (.tally (.refl ..)))) (.refl ..)))))

theorem graftRule_keeps (h : ℕ) (d : Bytes) (t : Tx s0) : Keeps [.all 0x3800 [0x0A, 0x0B, 0x0C, 0x0D, 0x0E, 0x0F,
      0x17], .all 0x3B00 [0x08, 0x09, 0x0E], .all 0x3B01 [0x01, 0x02, 0x03, 0x04, 0x05]] [.result, .corr] t.cur (graftRule h
      d t).cur := by
  dsimp only [graftRule]
  refine .ite (.step (Tx.graftRefuse_keeps ..) (.refl ..)) (?_)
  split
  · exact .step (Tx.graftRefuse_keeps ..) (.refl ..)
  · exact .ite (.step (Tx.graftRefuse_keeps ..) (.refl ..)) (.status (.step (Tx.graftReport_keeps ..) (.each (fun _ _ =>
        .step (Tx.acceptGraft_keeps ..) (.refl ..)) (.refl ..))))

theorem Tx.macMsg_keeps (t : Tx s0) (m : ℕ) (event : ℕ) : Keeps [] [] t.cur (t.macMsg m event).cur := by
  dsimp only [Tx.macMsg]
  exact .msg (.refl ..)

theorem Tx.toRing_keeps (t : Tx s0) (r : ℕ) (m : ℕ) (ns : ℕ) (f : Bytes) : Keeps [.all 0x4E00 [0x03, 0x04, 0x05, 0x06,
      0x07], .ctr 130 133] [.net] t.cur (t.toRing r m ns f).2.cur := by
  dsimp only [Tx.toRing]
  exact .iteSnd (.flagBit (.tally (.refl ..))) (.peak (.inc (.w (.setNet (.refl ..)))))

theorem Tx.arpLearn_keeps (t : Tx s0) (m : ℕ) (ip : ℕ) (mac : Bytes) : Keeps [.all 0x4C00 [0x14, 0x1B], .all 0x4F00
      [0x08]] [.net] t.cur (t.arpLearn m ip mac).cur := by
  dsimp only [Tx.arpLearn]
  exact .each (fun _ _ => .ite (.step (Tx.txTo_keeps ..) (.refl ..)) (.refl ..)) (.w (.step (Tx.setMac_keeps ..) (.refl
      ..)))

theorem Tx.arpFrame_keeps (t : Tx s0) (m : ℕ) (p : Bytes) : Keeps [.all 0x4800 [0x0B, 0x16, 0x17], .all 0x4900 [0x02,
      0x04], .all 0x4C00 [0x14, 0x15, 0x19, 0x1B], .all 0x4F00 [0x08, 0x0A, 0x0C], .all 0x5001 [0x19, 0x1B], .all 0x5010
      [0x03], .all 0x5300 [0x01, 0x02, 0x03, 0x04, 0x06], .ctr 118 123, .ctr 140 140, .ctr 141 141] [.outs, .net, .time]
      t.cur (t.arpFrame m p).cur := by
  dsimp only [Tx.arpFrame]
  exact .ite (.refl ..) (.ite (.flagBit (.tally (.refl ..))) (.ite (.refl ..) (.when (fun _ => .step (Tx.sendFrame_keeps
      ..) (.refl ..)) (.step (Tx.arpLearn_keeps ..) (.refl ..)))))

theorem Tx.icmpFrame_keeps (t : Tx s0) (m : ℕ) (src : Bytes) (from_ : ℕ) (p : Bytes) : Keeps [.all 0x4800 [0x0B, 0x16,
      0x17], .all 0x4900 [0x02, 0x04], .all 0x4C00 [0x15, 0x19, 0x1B], .all 0x4F00 [0x0B], .all 0x5001 [0x19, 0x1B], .all
      0x5010 [0x03], .all 0x5300 [0x01, 0x02, 0x03, 0x04, 0x06], .ctr 118 123, .ctr 140 140, .ctr 141 141] [.outs, .net,
      .time] t.cur (t.icmpFrame m src from_ p).cur := by
  dsimp only [Tx.icmpFrame]
  exact .ite (.refl ..) (.step (Tx.sendFrame_keeps ..) (.tally (.step (Tx.setMac_keeps ..) (.refl ..))))

theorem Tx.igmpFrame_keeps (t : Tx s0) (m : ℕ) (p : Bytes) : Keeps [.all 0x4800 [0x0B, 0x16, 0x17], .all 0x4900 [0x02,
      0x04], .all 0x4C00 [0x15, 0x19, 0x1B], .all 0x4F00 [0x0C], .all 0x5001 [0x19, 0x1B], .all 0x5010 [0x03], .all 0x5300
      [0x01, 0x02, 0x03, 0x04, 0x06], .ctr 118 123, .ctr 140 140, .ctr 141 141] [.outs, .net, .time] t.cur (t.igmpFrame m
      p).cur := by
  dsimp only [Tx.igmpFrame]
  exact .ite (.refl ..) (.each (fun _ _ => .step (Tx.igmpSend_keeps ..) (.refl ..)) (.when (fun _ => .flagBit (.step
      (Tx.setMac_keeps ..) (.refl ..))) (.refl ..)))

theorem Tx.handle3_keeps (t : Tx s0) (m : ℕ) (f : Bytes) : Keeps [.all 0x4800 [0x0B, 0x16, 0x17], .all 0x4900 [0x02,
      0x04], .all 0x4C00 [0x14, 0x15, 0x19, 0x1B], .all 0x4F00 [0x08, 0x0A, 0x0B, 0x0C], .all 0x5001 [0x19, 0x1B], .all
      0x5010 [0x03], .all 0x5300 [0x01, 0x02, 0x03, 0x04, 0x06], .ctr 118 123, .ctr 140 140, .ctr 141 141] [.outs, .net,
      .time] t.cur (t.handle3 m f).cur := by
  dsimp only [Tx.handle3]
  exact .ite (.step (Tx.arpFrame_keeps ..) (.refl ..)) (.ite (.step (Tx.icmpFrame_keeps ..) (.refl ..)) (.step
      (Tx.igmpFrame_keeps ..) (.refl ..)))

theorem Tx.ringPop_keeps (t : Tx s0) (r : ℕ) : Keeps [.all 0x4E00 [0x03]] [.net] t.cur (t.ringPop r).cur := by
  dsimp only [Tx.ringPop]
  split
  · exact .refl ..
  · exact .w (.setNet (.refl ..))

theorem Tx.ring3Drain_keeps (fuel : ℕ) (t : Tx s0) : Keeps [.all 0x4800 [0x0B, 0x16, 0x17], .all 0x4900 [0x02, 0x04],
      .all 0x4C00 [0x14, 0x15, 0x19, 0x1B], .all 0x4E00 [0x03], .all 0x4F00 [0x08, 0x0A, 0x0B, 0x0C], .all 0x5001 [0x19,
      0x1B], .all 0x5010 [0x03], .all 0x5300 [0x01, 0x02, 0x03, 0x04, 0x06], .ctr 118 123, .ctr 140 140, .ctr 141 141]
      [.outs, .net, .time] t.cur (t.ring3Drain fuel).cur := by
  induction fuel generalizing t with
  | zero =>
    dsimp only [Tx.ring3Drain]
    exact .refl ..
  | succ n ih =>
    dsimp only [Tx.ring3Drain]
    split
    · exact .trans (.step (Tx.handle3_keeps ..) (.step (Tx.ringPop_keeps ..) (.refl ..))) (ih ..)
    · exact .refl ..

theorem Tx.ring3_keeps (t : Tx s0) (m : ℕ) (ns : ℕ) (f : Bytes) : Keeps [.all 0x4800 [0x0B, 0x16, 0x17], .all 0x4900
      [0x02, 0x04], .all 0x4C00 [0x14, 0x15, 0x19, 0x1B], .all 0x4E00 [0x03, 0x04, 0x05, 0x06, 0x07], .all 0x4F00 [0x08,
      0x0A, 0x0B, 0x0C], .all 0x5001 [0x19, 0x1B], .all 0x5010 [0x03], .all 0x5300 [0x01, 0x02, 0x03, 0x04, 0x06], .ctr 118
      123, .ctr 130 133, .ctr 140 140, .ctr 141 141] [.outs, .net, .time] t.cur (t.ring3 m ns f).cur := by
  dsimp only [Tx.ring3]
  exact .ite (.step (Tx.toRing_keeps ..) (.refl ..)) (.step (Tx.ring3Drain_keeps ..) (.step (Tx.toRing_keeps ..) (.refl
      ..)))

theorem ringRule_keeps (h : ℕ) (r : ℕ) (d : Bytes) (t : Tx s0) : Keeps [.all 0x4E00 [0x01, 0x03]] [.result, .net] t.cur
      (ringRule h r d t).cur := by
  dsimp only [ringRule]
  exact .ite (.status (.refl ..)) (.ite (.refl ..) (.ite (.w (.w (.setNet (.refl ..)))) (.w (.refl ..))))

theorem Tx.setSlot_keeps (t : Tx s0) (i : ℕ) (x : Slot) (hi : i ≤ 1 := by omega) :
    Keeps [.all 0x6400 [0x04, 0x05]] [.power] t.cur (t.setSlot i x).cur := by
  dsimp only [Tx.setSlot]
  have hc : mayWrite [.all 0x6400 [0x04, 0x05]] 0x6400 (0x04 + i) = true := by
    interval_cases i <;> decide
  exact .w (.setPower (.refl ..)) hc

theorem Tx.correctBlock_keeps (t : Tx s0) (B : ℕ) : Keeps [] [.corr] t.cur (t.correctBlock B).cur := by
  dsimp only [Tx.correctBlock]
  exact .each (fun _ _ => .step (Tx.setChain_keeps ..) (.refl ..)) (.refl ..)

theorem Tx.setDest_keeps (t : Tx s0) (d : ℕ) (x : OutDest) : Keeps [] [.maps] t.cur (t.setDest d x).cur := by
  dsimp only [Tx.setDest]
  exact .setMaps (.refl ..)

theorem Tx.destLands_keeps (t : Tx s0) (d : ℕ) : Keeps [.all 0x3E00 [0x02]] [.maps] t.cur (t.destLands d).cur := by
  dsimp only [Tx.destLands]
  exact .ite (.refl ..) (.w (.step (Tx.setDest_keeps ..) (.refl ..)))

theorem outputMapRule_keeps (h : ℕ) (d : ℕ) (data : Bytes) (t : Tx s0) : Keeps [.all 0x3E00 [0x01, 0x02, 0x03]]
      [.result, .maps] t.cur (outputMapRule h d data t).cur := by
  dsimp only [outputMapRule]
  exact .ite (.status (.refl ..)) (.w (.w (.step (Tx.setDest_keeps ..) (.step (Tx.destLands_keeps ..) (.refl ..)))))

theorem Tx.monitorRead_keeps (t : Tx s0) (i : ℕ) (r f : F32) (hi : i ≤ 0xFF := by omega) :
    Keeps [.all 0x6600 [0x10, 0x11, 0x15], ⟨0x6700, 0x67FF, none, [0x02, 0x03]⟩] [.free, .power] t.cur
      (t.monitorRead i r f).cur := by
  dsimp only [Tx.monitorRead]
  have hk (c : ℕ) (hc : c = 0x02 ∨ c = 0x03) :
      Keys [.all 0x6600 [0x10, 0x11, 0x15], ⟨0x6700, 0x67FF, none, [0x02, 0x03]⟩] (K (0x6700 + i) 0 c) :=
    .intro (lo := 0x6700) (hi := 0x67FF) (by rcases hc with rfl | rfl <;> decide) (by omega) (by omega)
  have h : Keeps [.all 0x6600 [0x10, 0x11, 0x15], ⟨0x6700, 0x67FF, none, [0x02, 0x03]⟩] [.free, .power] t.cur
      (t.w (0x6700 + i) 0 0x02 r).cur := .wKey (.refl ..) (hk _ (.inl rfl))
  exact .ite h (.ite (.flagBit (.inc (.tally (.wKey (.setPower h) (hk _ (.inr rfl))))))
    (.ite (.wKey (.fresh h) (hk _ (.inr rfl))) (.wKey h (hk _ (.inr rfl)))))

theorem Tx.deliver_keeps (t : Tx s0) (r : BusReq) (a : ℕ) (bytes : List (Option Byte)) : Keeps [] [.outs, .mem] t.cur
      (t.deliver r a bytes).cur := by
  dsimp only [Tx.deliver]
  exact .emit (.when (fun _ => .setMem (.refl ..)) (.refl ..))

theorem Tx.flightEnds_keeps (t : Tx s0) (f : BusPiece) : Keeps [.all 0x6000 [0x05]] [.outs, .mem] t.cur (t.flightEnds
      f).cur := by
  dsimp only [Tx.flightEnds]
  split
  · refine .ite (?_) (.step (Tx.deliver_keeps ..) (?_))
    · split
      · exact .peak (.setMem (.refl ..))
      · exact .setMem (.refl ..)
    · split
      · exact .peak (.setMem (.refl ..))
      · exact .setMem (.refl ..)
  · split
    · exact .peak (.setMem (.refl ..))
    · exact .setMem (.refl ..)

theorem Tx.setPort14_keeps (t : Tx s0) (j : ℕ) (x : BusPort) : Keeps [] [.mem] t.cur (t.setPort14 j x).cur := by
  dsimp only [Tx.setPort14]
  exact .setMem (.refl ..)

theorem Tx.lockRelease_keeps (t : Tx s0) (j : ℕ) (e : ℕ) : Keeps [.all 0x6000 [0x07, 0x0B]] [.mem] t.cur (t.lockRelease
      j e).cur := by
  dsimp only [Tx.lockRelease]
  exact .flagBit (.tally (.step (Tx.setPort14_keeps ..) (.refl ..)))

theorem Tx.decodeError_keeps (t : Tx s0) (w : BusRun) : Keeps [.all 0x6000 [0x03, 0x09, 0x0A, 0x0B], .all 0x6010
      [0x06], .ctr 254 254] [.outs] t.cur (t.decodeError w).cur := by
  dsimp only [Tx.decodeError]
  exact .ite (.emit (.flagBit (.w (.w (.inc (.tally (.refl ..))))))) (.flagBit (.w (.w (.inc (.tally (.refl ..))))))

theorem Tx.decoded_keeps (t : Tx s0) (w : BusRun) (fuel : ℕ) : Keeps [.all 0x6000 [0x03, 0x09, 0x0A, 0x0B], .all 0x6010
      [0x06], .ctr 254 254] [.outs] t.cur (t.decoded w fuel).2.cur := by
  induction fuel generalizing t w with
  | zero =>
    dsimp only [Tx.decoded]
    exact .refl ..
  | succ n ih =>
    dsimp only [Tx.decoded]
    exact .iteSnd (.refl ..) (.iteSnd (.refl ..) (.trans (.step (Tx.decodeError_keeps ..) (.refl ..)) (ih ..)))

theorem Tx.advance_keeps (t : Tx s0) (w : BusRun) (n : ℕ) (c : ℕ) : Keeps [.all 0x6000 [0x03, 0x09, 0x0A, 0x0B], .all
      0x6010 [0x06], .ctr 254 254] [.outs, .mem] t.cur (t.advance w n c).cur := by
  dsimp only [Tx.advance]
  exact .setMem (.step (Tx.decoded_keeps ..) (.refl ..))

theorem Tx.grant_keeps (t : Tx s0) (j : ℕ) (d : ℕ) (start : ℕ) (w : BusRun) : Keeps [.all 0x6000 [0x02, 0x03, 0x06,
      0x08, 0x09, 0x0A, 0x0B], .all 0x6010 [0x04, 0x05, 0x06], .all 0x6020 [0x02, 0x04], .all 0x6300 [0x05], .ctr 254 254]
      [.outs, .free, .mem] t.cur (t.grant j d start w).cur := by
  dsimp only [Tx.grant]
  exact .step (Tx.advance_keeps ..) (.setMem (.fresh (.step (Tx.setPort14_keeps ..) (.when (fun _ => .inc (.refl ..))
      (.when (fun _ => .inc (.refl ..)) (.when (fun _ => .peak (.refl ..)) (.w (.peak (.inc (.inc (.inc (.refl ..))))))))))))

theorem Tx.lateRead_keeps (t : Tx s0) (r : BusReq) (a : ℕ) (n : ℕ) : Keeps [.all 0x6200 [0x1C, 0x21]] [.outs, .mem]
      t.cur (t.lateRead r a n).cur := by
  dsimp only [Tx.lateRead]
  exact .step (Tx.deliver_keeps ..) (.flagBit (.inc (.refl ..)))

theorem Tx.busEvent_keeps (t : Tx s0) (d : ℕ) (e : BusEvent) : Keeps [.all 0x1400 [0x02, 0x07, 0x08], .all 0x6000
      [0x02, 0x03, 0x05, 0x06, 0x07, 0x08, 0x09, 0x0A, 0x0B], .all 0x6010 [0x04, 0x05, 0x06], .all 0x6020 [0x02, 0x04], .all
      0x6100 [0x02, 0x03, 0x04, 0x05, 0x06, 0x09], .all 0x6200 [0x01, 0x08, 0x18, 0x19, 0x1A, 0x1B, 0x1C, 0x21], .all 0x6210
      [0x03, 0x04, 0x05, 0x06, 0x07], .all 0x6300 [0x05], .ctr 246 246, .ctr 247 247, .ctr 248 248, .ctr 249 249, .ctr 254
      254] [.outs, .free, .mem, .store, .power] t.cur (t.busEvent d e).cur := by
  dsimp only [Tx.busEvent]
  split
  · exact .step (Tx.flightEnds_keeps ..) (.refl ..)
  · exact .step (Tx.flightActs_keeps ..) (.refl ..)
  · exact .step (Tx.serve_keeps ..) (.refl ..)
  · exact .step (Tx.lockRelease_keeps ..) (.refl ..)
  · exact .step (Tx.grant_keeps ..) (.refl ..)
  · exact .step (Tx.lateRead_keeps ..) (.setMem (.refl ..))
  · exact .step (Tx.lateRead_keeps ..) (.setMem (.refl ..))

theorem Tx.mismatchEnd_keeps (t : Tx s0) : Keeps [.all 0x5400 [0x0D, 0x1C]] [.sprk, .meas] t.cur t.mismatchEnd.cur := by
  dsimp only [Tx.mismatchEnd]
  exact .ite (.step (Tx.sprkResync_keeps ..) (.refl ..)) (.step (Tx.sprkTo_keeps ..) (.refl ..))

theorem Tx.asrcQuiet_keeps (t : Tx s0) (c : ℕ) : Keeps [] [.serial] t.cur (t.asrcQuiet c).cur := by
  dsimp only [Tx.asrcQuiet]
  exact .setSerial (.refl ..)

theorem Tx.retell_keeps (t : Tx s0) (c : ℕ) (st : ℕ) (cause : ℕ) : Keeps [] [] t.cur (t.retell c st cause).cur := by
  dsimp only [Tx.retell]
  exact .setTrace (.setMsgs (.refl ..))

theorem Tx.recause_keeps (t : Tx s0) (c : ℕ) (cause : ℕ) : Keeps [.all 0x5800 [0x02, 0x14, 0x1C], .all 0x5A00 [0x07,
      0x0F]] [] t.cur (t.recause c cause).cur := by
  dsimp only [Tx.recause]
  exact .when (fun _ => .unflag (.refl ..)) (.when (fun _ => .flagBit (.refl ..)) (.when (fun _ => .when (fun _ =>
      .unflag (.refl ..)) (.flagBit (.unflag (.refl ..)))) (.step (Tx.retell_keeps ..) (.w (.wb (.w (.refl ..)))))))

theorem Tx.setMod_keeps (t : Tx s0) (c : ℕ) (x : HedgeCh) : Keeps [] [.hedge] t.cur (t.setMod c x).cur := by
  dsimp only [Tx.setMod]
  exact .setHedge (.refl ..)

theorem Tx.modFlush_keeps (t : Tx s0) (c : ℕ) (stop : ℕ) : Keeps [] [.outs, .hedge] t.cur (t.modFlush c stop).cur := by
  dsimp only [Tx.modFlush]
  exact .ite (.refl ..) (.emit (.step (Tx.setMod_keeps ..) (.refl ..)))

theorem Tx.modNow_keeps (t : Tx s0) (c : ℕ) : Keeps [] [.outs, .hedge] t.cur (t.modNow c).cur := by
  dsimp only [Tx.modNow]
  exact .step (Tx.modFlush_keeps ..) (.refl ..)

theorem Tx.modCut_keeps (t : Tx s0) (c : ℕ) : Keeps [] [.outs, .hedge] t.cur (t.modCut c).cur := by
  dsimp only [Tx.modCut]
  exact .when (fun _ => .emit (.refl ..)) (.step (Tx.modNow_keeps ..) (.refl ..))

theorem Tx.modMsg_keeps (t : Tx s0) (c : ℕ) (event : ℕ) (cause : ℕ) : Keeps [] [] t.cur (t.modMsg c event cause).cur := by
  dsimp only [Tx.modMsg]
  exact .msg (.refl ..)

theorem Tx.tripNow_keeps (t : Tx s0) (c : ℕ) (cause : ℕ) : Keeps [.all 0x5800 [0x02, 0x12, 0x13, 0x14, 0x15, 0x1C],
      .all 0x5A00 [0x07, 0x08, 0x09, 0x0F], .ctr 168 191] [.outs, .hedge, .meas] t.cur (t.tripNow c cause).cur := by
  dsimp only [Tx.tripNow]
  exact .step (Tx.modMsg_keeps ..) (.step (Tx.freezeOn_keeps ..) (.w (.when (fun _ => .setHedge (.refl ..)) (.step
      (Tx.setMod_keeps ..) (.when (fun _ => .flagBit (.refl ..)) (.when (fun _ => .flagBit (.refl ..)) (.flagBit (.w (.w (.w
      (.tally (.tally (.wb (.when (fun _ => .tally (.refl ..)) (.step (Tx.modCut_keeps ..) (.refl ..))))))))))))))))

theorem Tx.trip_keeps (t : Tx s0) (c : ℕ) (cause : ℕ) : Keeps [.all 0x5800 [0x02, 0x12, 0x13, 0x14, 0x15, 0x1C], .all
      0x5A00 [0x07, 0x08, 0x09, 0x0F], .ctr 168 191] [.outs, .hedge, .meas] t.cur (t.trip c cause).cur := by
  dsimp only [Tx.trip]
  exact .ite (.ite (.refl ..) (.step (Tx.recause_keeps ..) (.refl ..))) (.ite (.step (Tx.tripNow_keeps ..) (.refl ..))
      (.refl ..))

theorem Tx.modTo_keeps (t : Tx s0) (c : ℕ) (st : ℕ) : Keeps [.all 0x5800 [0x02]] [] t.cur (t.modTo c st).cur := by
  dsimp only [Tx.modTo]
  exact .ite (.refl ..) (.step (Tx.modMsg_keeps ..) (.w (.refl ..)))

theorem Tx.putBack_keeps (t : Tx s0) (i : ℕ) (n : ℕ) (q : RxPut) : Keeps [.all 0x4A00 [0x14, 0x15, 0x16, 0x1E, 0x21]]
      [.net] t.cur (t.putBack i n q).cur := by
  dsimp only [Tx.putBack]
  exact .step (Tx.setRx_keeps ..) (.unflag (.w (.tally (.w (.refl ..) (by split <;> decide)))))

theorem Tx.disarm_keeps (t : Tx s0) (n : ℕ) : Keeps [.all 0x5100 [0x01, 0x07]] [.time] t.cur (t.disarm n).cur := by
  dsimp only [Tx.disarm]
  exact .w (.w (.setTime (.refl ..)))

theorem Tx.packRefuse_keeps (t : Tx s0) (k : ℕ) (reason : ℕ) : Keeps [.all 0x5E30 [0x08]] [.result] t.cur (t.packRefuse
      k reason).cur := by
  dsimp only [Tx.packRefuse]
  exact .status (.w (.refl ..))

theorem Tx.mramBegin_keeps (t : Tx s0) (place : ℕ) (d : Bytes) : Keeps [] [.result, .free, .power] t.cur (t.mramBegin
      place d).cur := by
  dsimp only [Tx.mramBegin]
  exact .wait (.setPower (.fresh (.fresh (.refl ..))))

theorem Tx.packEmpty_keeps (t : Tx s0) (k : ℕ) : Keeps [.all 0x5E30 [0x03, 0x04, 0x06, 0x07]] [.power] t.cur
      (t.packEmpty k).cur := by
  dsimp only [Tx.packEmpty]
  exact .wb (.w (.w (.w (.setPower (.refl ..)))))

theorem packRule_keeps (k : ℕ) (d : Bytes) (t : Tx s0) : Keeps [.all 0x5E30 [0x03, 0x04, 0x06, 0x07, 0x08]] [.result,
      .free, .power] t.cur (packRule k d t).cur := by
  dsimp only [packRule]
  exact .ite (.status (.refl ..)) (.ite (.status (.refl ..)) (.ite (.status (.refl ..)) (.ite (.step (Tx.packRefuse_keeps
      ..) (.refl ..)) (.ite (.step (Tx.packRefuse_keeps ..) (.refl ..)) (.ite (.step (Tx.packRefuse_keeps ..) (.refl ..))
      (.ite (.step (Tx.packRefuse_keeps ..) (.refl ..)) (.ite (.step (Tx.packRefuse_keeps ..) (.refl ..)) (.step
      (Tx.mramBegin_keeps ..) (.step (Tx.packEmpty_keeps ..) (.refl ..))))))))))

theorem Tx.nopOp_keeps (t : Tx s0) (h : ℕ) (o : OpFields) : Keeps [] [.result] t.cur (t.nopOp h o).cur := by
  dsimp only [Tx.nopOp]
  exact .status (.refl ..)

theorem Tx.showBusLoad_keeps (t : Tx s0) : Keeps [.all 0x6020 [0x03]] [.mem] t.cur t.showBusLoad.cur := by
  dsimp only [Tx.showBusLoad]
  exact .each (fun _ _ => .step (Tx.setPort14_keeps ..) (.w (.refl ..))) (.refl ..)

theorem Tx.showCoreLoad_keeps (t : Tx s0) : Keeps [.all 0x5E01 [0x0A], .all 0x6020 [0x03]] [.pool, .mem] t.cur
      t.showCoreLoad.cur := by
  dsimp only [Tx.showCoreLoad]
  exact .setPool (.each (fun _ _ => .w (.refl ..)) (.step (Tx.showBusLoad_keeps ..) (.refl ..)))

theorem Tx.spiQueue_keeps (t : Tx s0) (q : List Bytes) : Keeps [] [.outs, .ctl] t.cur (t.spiQueue q).cur := by
  dsimp only [Tx.spiQueue]
  exact .ite (.setCtl (.refl ..)) (.emit (.setCtl (.refl ..)))

theorem Tx.landKeyframes_keeps (t : Tx s0) (queue : List Keyframe) (n : ℕ) (B : ℕ) : Keeps [.all 0x2000 [0x17, 0x18],
      .all 0x2800 [0x0F], .ctr 2 2] [.scene] t.cur (t.landKeyframes queue n B).cur := by
  dsimp only [Tx.landKeyframes]
  exact .ite (.refl ..) (.when (fun _ => .flagBit (.refl ..)) (.each (fun _ _ => .msg (.refl ..)) (.count (.count (.step
      (Tx.setTrack_keeps ..) (.refl ..))))))

theorem Tx.replayFails_keeps (t : Tx s0) : Keeps [.all 0x6200 [0x0B, 0x21]] [.mem] t.cur t.replayFails.cur := by
  dsimp only [Tx.replayFails]
  exact .ite (.flagBit (.setMem (.tally (.setMem (.refl ..))))) (.tally (.setMem (.refl ..)))

theorem Tx.imageGone_keeps (t : Tx s0) (i : ℕ) (hi : i ≤ 1 := by omega) : Keeps [.all 0x6400 [0x03, 0x04, 0x05]]
      [.power] t.cur (t.imageGone i).cur := by
  dsimp only [Tx.imageGone]
  exact .when (fun _ => .w (.refl ..)) (.step (Tx.setSlot_keeps ..) (.refl ..))

theorem Tx.commitRefuse_keeps (t : Tx s0) (h : ℕ) (st : ℕ) : Keeps [.all 0x1300 [0x09, 0x0B], .all 0x1301 [0x04]]
      [.result] t.cur (t.commitRefuse h st).cur := by
  dsimp only [Tx.commitRefuse]
  exact .status (.w (.flagBit (.tally (.refl ..))))

theorem commitRule_keeps (h : ℕ) (d : Bytes) (t : Tx s0) : Keeps [.all 0x1300 [0x03, 0x04, 0x05, 0x06, 0x07, 0x09,
      0x0B], .all 0x1301 [0x04], .all 0x3300 [0x19, 0x1A, 0x1B]] [.result, .ctl] t.cur (commitRule h d t).cur := by
  dsimp only [commitRule]
  refine .ite (.step (Tx.commitRefuse_keeps ..) (.refl ..)) (.ite (.step (Tx.commitRefuse_keeps ..) (.refl ..)) (.ite
      (.step (Tx.commitRefuse_keeps ..) (.refl ..)) (?_)))
  split
  · exact .step (Tx.commitRefuse_keeps ..) (.flagBit (.w (.w (.refl ..))))
  · exact .when (fun _ => .flagBit (.refl ..)) (.status (.w (.w (.w (.w (.w (.w (.setCtl (.refl ..)))))))))

theorem Tx.ptpDrainGo_keeps (fuel : ℕ) (t : Tx s0) : Keeps [.all 0x4E00 [0x03]] [.net] t.cur (t.ptpDrainGo fuel).cur := by
  induction fuel generalizing t with
  | zero =>
    dsimp only [Tx.ptpDrainGo]
    exact .refl ..
  | succ n ih =>
    dsimp only [Tx.ptpDrainGo]
    split
    · exact .ite (.refl ..) (.trans (.step (Tx.ringPop_keeps ..) (.refl ..)) (ih ..))
    · exact .refl ..

theorem Tx.ptpDrain_keeps (t : Tx s0) : Keeps [.all 0x4E00 [0x03]] [.net] t.cur t.ptpDrain.cur := by
  dsimp only [Tx.ptpDrain]
  exact .ite (.refl ..) (.step (Tx.ptpDrainGo_keeps ..) (.refl ..))

theorem Tx.ptpPop_keeps (t : Tx s0) : Keeps [.all 0x4E00 [0x03]] [.net] t.cur t.ptpPop.cur := by
  dsimp only [Tx.ptpPop]
  exact .step (Tx.ptpDrain_keeps ..) (.step (Tx.ringPop_keeps ..) (.refl ..))

theorem refuseRecord_keeps (i : ℕ) (n : ℕ) (st : ℕ) (x : Tx s0 × Push) : Keeps [.all 0x2000 [0x16, 0x17], .all 0x2800
      [0x11]] [] x.1.cur (refuseRecord i n st x).1.cur := by
  dsimp only [refuseRecord]
  exact .when (fun _ => .flagBit (.flagBit (.refl ..))) (.ite (.tally (.refl ..)) (.refl ..))

theorem pushRecord_keeps (who : Option ℕ) (a : ℕ) (i : ℕ) (r : Bytes) (x : Tx s0 × Push) : Keeps [.all 0x2000 [0x14,
      0x15, 0x16, 0x17], .all 0x2800 [0x0E, 0x11], .all 0x5400 [0x17], .ctr 3 3] [.scene] x.1.cur (pushRecord who a i r
      x).1.cur := by
  dsimp only [pushRecord]
  exact .iteFst (.step (refuseRecord_keeps ..) (.refl ..)) (.iteFst (.step (refuseRecord_keeps ..) (.refl ..)) (.when
      (fun _ => .tally (.refl ..)) (.when (fun _ => .msg (.tally (.flagBit (.tally (.refl ..))))) (.when (fun _ => .flagBit
      (.tally (.refl ..))) (.when (fun _ => .flagBit (.refl ..)) (.setScene (.step (Tx.setTrack_keeps ..) (.refl ..))))))))

theorem Tx.controlAt_keeps (t : Tx s0) (n : ℕ) (sub : ℕ) (v : ℕ) (land : ℕ) : Keeps [] [.sprk] t.cur (t.controlAt n sub
      v land).cur := by
  dsimp only [Tx.controlAt]
  exact .setSprk (.refl ..)

theorem Tx.controlRecord_keeps (t : Tx s0) (r : Bytes) : Keeps [] [.sprk] t.cur (t.controlRecord r).2.cur := by
  dsimp only [Tx.controlRecord]
  refine .iteSnd (.refl ..) (.each (fun t x => ?_) (.when (fun _ => .step (Tx.controlAt_keeps ..) (.refl ..)) (.refl
      ..)))
  split
  · exact .ite (.step (Tx.controlAt_keeps ..) (.refl ..)) (.refl ..)
  · exact .refl ..

theorem Tx.applyRecords_keeps (t : Tx s0) (rs : List (ℕ × Bytes)) : Keeps [.all 0x2000 [0x14, 0x15, 0x16, 0x17], .all
      0x2800 [0x0E, 0x11], .all 0x5400 [0x17], .ctr 3 3] [.scene, .sprk] t.cur (t.applyRecords rs).2.cur := by
  dsimp only [Tx.applyRecords]
  exact .foldSnd (fun _ _ => .iteSnd (.iteSnd (.refl ..) (.step (pushRecord_keeps ..) (.refl ..))) (.iteSnd (.step
      (Tx.controlRecord_keeps ..) (.refl ..)) (.refl ..))) (.refl ..)

theorem Tx.sprkProcess_keeps (t : Tx s0) (seq : ℕ) (records : ℕ) (payload : Bytes) : Keeps [.all 0x2000 [0x14, 0x15,
      0x16, 0x17], .all 0x2800 [0x0E, 0x11], .all 0x5400 [0x10, 0x11, 0x16, 0x17, 0x1C], .ctr 3 3, .ctr 11 11] [.scene,
      .sprk] t.cur (t.sprkProcess seq records payload).cur := by
  dsimp only [Tx.sprkProcess]
  refine .when (fun _ => .step (Tx.sprkSet_keeps ..) (.refl ..)) (?_)
  split
  · exact .step (Tx.sprkSet_keeps ..) (.tally (.w (.when (fun _ => .flagBit (.count (.refl ..))) (.step
        (Tx.applyRecords_keeps ..) (.refl ..)))))
  · exact .tally (.w (.when (fun _ => .flagBit (.count (.refl ..))) (.step (Tx.applyRecords_keeps ..) (.refl ..))))

theorem Tx.sprkFlush_keeps (t : Tx s0) : Keeps [.all 0x2000 [0x14, 0x15, 0x16, 0x17], .all 0x2800 [0x0E, 0x11], .all
      0x5400 [0x10, 0x11, 0x16, 0x17, 0x1C], .ctr 3 3, .ctr 11 11] [.scene, .sprk] t.cur t.sprkFlush.cur := by
  dsimp only [Tx.sprkFlush]
  exact .each (fun _ _ => .step (Tx.sprkProcess_keeps ..) (.refl ..)) (.step (Tx.sprkSet_keeps ..) (.refl ..))

theorem Tx.eachChain_keeps (t : Tx s0) (f : State → ℕ → ℕ → SetChain → SetChain) : Keeps [] [.corr] t.cur (t.eachChain
      f).cur := by
  dsimp only [Tx.eachChain]
  exact .each (fun _ _ => .step (Tx.setChain_keeps ..) (.refl ..)) (.refl ..)

theorem Tx.runMsg_keeps (t : Tx s0) (i : ℕ) (c : ℕ) (ev : ℕ) (bits : ℕ) (at_ : ℕ) : Keeps [] [] t.cur (t.runMsg i c ev
      bits at_).cur := by
  dsimp only [Tx.runMsg]
  exact .msgAt (.refl ..)

theorem Tx.modLow_keeps (t : Tx s0) (c : ℕ) (j : ℕ) (h : ℕ) : Keeps [] [.outs, .hedge] t.cur (t.modLow c j h).cur := by
  dsimp only [Tx.modLow]
  exact .emit (.setHedge (.step (Tx.modFlush_keeps ..) (.refl ..)))

theorem Tx.txUnderrun_keeps (t : Tx s0) (i : ℕ) : Keeps [.all 0x4900 [0x09, 0x0C], .all 0x4C00 [0x16, 0x1B], .ctr 135
      135] [] t.cur (t.txUnderrun i).cur := by
  dsimp only [Tx.txUnderrun]
  exact .flagBit (.flagBit (.tally (.tally (.refl ..))))

theorem Tx.txCopies_keeps (t : Tx s0) (i : ℕ) (p : Packet) (payload : Bytes) : Keeps [.all 0x4800 [0x0B, 0x16, 0x17],
      .all 0x4900 [0x02, 0x04], .all 0x4C00 [0x15, 0x19, 0x1B], .all 0x5001 [0x19, 0x1B], .all 0x5010 [0x03], .all 0x5300
      [0x01, 0x02, 0x03, 0x04, 0x06], .ctr 118 123, .ctr 140 140, .ctr 141 141] [.outs, .net, .time] t.cur (t.txCopies i p
      payload).cur := by
  dsimp only [Tx.txCopies]
  exact .ite (.step (Tx.freeCells_keeps ..) (.refl ..)) (.each (fun _ _ => .step (Tx.egress_keeps ..) (.refl ..)) (.step
      (Tx.setTxs_keeps ..) (.refl ..)))

theorem Tx.launch_keepsBad (t : Tx s0) (i : ℕ) (sameCycle bad : Bool) :
    Keeps [.all 0x4800 [0x0B, 0x16, 0x17], .all 0x4900 [0x02, 0x04, 0x09, 0x0B, 0x0C], .all 0x4C00 [0x15, 0x16, 0x19, 0x1B],
      .all 0x5001 [0x19, 0x1B], .all 0x5010 [0x03], .all 0x5300 [0x01, 0x02, 0x03, 0x04, 0x06], .ctr 118 123, .ctr 135 135,
      .ctr 140 140, .ctr 141 141] [.outs, .free, .net, .time] t.cur (t.launch i sameCycle bad).cur := by
  dsimp only [Tx.launch]
  split
  · exact .refl ..
  · exact .ite (.step (Tx.txUnderrun_keeps ..) (.step (Tx.setTxs_keeps ..) (.refl ..))) (.ite (.step (Tx.freeCells_keeps ..)
      (.step (Tx.setTxs_keeps ..) (.refl ..))) (.ite (.step (Tx.txCopies_keeps ..) (.flagBit (.inc (.fresh (.step
        (Tx.setTxs_keeps ..) (.refl ..)))))) (.step (Tx.txCopies_keeps ..) (.step (Tx.setTxs_keeps ..) (.refl ..)))))

/-- A packet whose cells read right draws no free value. -/
theorem Tx.launch_keeps (t : Tx s0) (i : ℕ) (sameCycle : Bool) :
    Keeps [.all 0x4800 [0x0B, 0x16, 0x17], .all 0x4900 [0x02, 0x04, 0x09, 0x0C], .all 0x4C00 [0x15, 0x16, 0x19, 0x1B],
      .all 0x5001 [0x19, 0x1B], .all 0x5010 [0x03], .all 0x5300 [0x01, 0x02, 0x03, 0x04, 0x06], .ctr 118 123, .ctr 135 135,
      .ctr 140 140, .ctr 141 141] [.outs, .net, .time] t.cur (t.launch i sameCycle false).cur := by
  dsimp only [Tx.launch]
  split
  · exact .refl ..
  · refine .ite (.step (Tx.txUnderrun_keeps ..) (.step (Tx.setTxs_keeps ..) (.refl ..))) (.ite (.step (Tx.freeCells_keeps ..)
      (.step (Tx.setTxs_keeps ..) (.refl ..))) ?_)
    rw [if_neg Bool.false_ne_true]
    exact .step (Tx.txCopies_keeps ..) (.step (Tx.setTxs_keeps ..) (.refl ..))

theorem Tx.launchesBefore_keeps (n : ℕ) (fuel : ℕ) (t : Tx s0) : Keeps [.all 0x4800 [0x0B, 0x16, 0x17], .all 0x4900
      [0x02, 0x04, 0x09, 0x0C], .all 0x4C00 [0x15, 0x16, 0x19, 0x1B], .all 0x5001 [0x19, 0x1B], .all 0x5010 [0x03], .all
      0x5300 [0x01, 0x02, 0x03, 0x04, 0x06], .ctr 118 123, .ctr 135 135, .ctr 140 140, .ctr 141 141] [.outs, .net, .time]
      t.cur (t.launchesBefore n fuel).cur := by
  induction fuel generalizing n t with
  | zero =>
    dsimp only [Tx.launchesBefore]
    exact .refl ..
  | succ n ih =>
    dsimp only [Tx.launchesBefore]
    split
    · exact .trans (.step (Tx.launch_keeps ..) (.refl ..)) (ih ..)
    · exact .refl ..

theorem Tx.txFlush_keeps (t : Tx s0) (i : ℕ) (held : Bool) : Keeps [.all 0x4800 [0x0B, 0x16, 0x17], .all 0x4900 [0x02,
      0x04, 0x09, 0x0A, 0x0C], .all 0x4C00 [0x15, 0x16, 0x19, 0x1B], .all 0x5001 [0x19, 0x1B], .all 0x5010 [0x03], .all
      0x5300 [0x01, 0x02, 0x03, 0x04, 0x06], .ctr 118 123, .ctr 135 135, .ctr 137 137, .ctr 140 140, .ctr 141 141] [.outs,
      .net, .time] t.cur (t.txFlush i held).cur := by
  dsimp only [Tx.txFlush]
  exact .ite (.step (Tx.setTxs_keeps ..) (.count (.step (Tx.freeCells_keeps ..) (.ite (.step (Tx.launch_keeps ..) (.step
      (Tx.launchesBefore_keeps ..) (.refl ..))) (.refl ..))))) (.step (Tx.setTxs_keeps ..) (.count (.step (Tx.freeCells_keeps
      ..) (.ite (.step (Tx.launch_keeps ..) (.step (Tx.launchesBefore_keeps ..) (.refl ..))) (.refl ..)))))

theorem Tx.slotFree_keeps (t : Tx s0) (slot : ℕ) :
    Keeps [.all 0x5F10 [0x01, 0x02, 0x03, 0x04, 0x05, 0x06, 0x07, 0x08, 0x09]] [] t.cur (t.slotFree slot).cur := by
  dsimp only [Tx.slotFree]
  refine .eachMem (fun t sub hs => .ite (.wb (.refl ..)) (.w (.refl ..) ?_)) (.refl ..)
  simp only [range', List.mem_map, List.mem_range] at hs
  obtain ⟨j, hj, rfl⟩ := hs
  interval_cases j <;> decide

theorem Tx.bankTo_keeps (t : Tx s0) (b st : ℕ) (hb : b < 0xB8 := by omega) :
    Keeps [⟨0x6510, 0x65C7, none, [0x01, 0x02]⟩] [] t.cur (t.bankTo b st).cur := by
  dsimp only [Tx.bankTo]
  have hn : counterOf (0x6510 + b) 0 0x02 = none := by interval_cases b <;> rfl
  have hc (t : Tx s0) : t.tally (0x6510 + b) 0 0x02 = t.inc (0x6510 + b) 0 0x02 1 := by
    unfold Tx.tally Tx.count
    rw [hn]
  refine .ite (.refl ..) (.when (fun t => ?_) (.wKey (.refl ..) (.intro (lo := 0x6510) (hi := 0x65C7) (by decide) (by omega) (by omega))))
  rw [hc]
  exact .wKey (.refl ..) (.intro (lo := 0x6510) (hi := 0x65C7) (by decide) (by omega) (by omega))

theorem Tx.coreBanks_keeps (t : Tx s0) : Keeps [⟨0x6510, 0x65C7, none, [0x01, 0x02]⟩] [] t.cur t.coreBanks.cur := by
  dsimp only [Tx.coreBanks]
  refine .eachMem (fun t j hj => Tx.bankTo_keeps _ _ _ ?_) (.refl ..)
  have := List.mem_range.mp hj
  omega

theorem Tx.showSlots_keeps (t : Tx s0) : Keeps [.all 0x5F00 [0x04]] [] t.cur t.showSlots.cur := by
  dsimp only [Tx.showSlots]
  exact .w (.refl ..)

theorem Tx.showCores_keeps (t : Tx s0) : Keeps [.all 0x5E00 [0x01], .all 0x5E01 [0x01, 0x02, 0x03, 0x04, 0x05, 0x07,
      0x08, 0x09], .all 0x5F00 [0x04], ⟨0x6510, 0x65C7, none, [0x01, 0x02]⟩] [] t.cur t.showCores.cur := by
  dsimp only [Tx.showCores]
  exact .each (fun _ _ => .w (.w (.w (.w (.w (.w (.w (.w (.refl ..))))))))) (.step (Tx.coreBanks_keeps ..) (.step
      (Tx.showSlots_keeps ..) (.w (.refl ..))))

theorem Tx.unplace_keeps (t : Tx s0) (c : ℕ) (st : ℕ) : Keeps [.all 0x5E00 [0x01], .all 0x5E01 [0x01, 0x02, 0x03, 0x04,
      0x05, 0x07, 0x08, 0x09], .all 0x5E10 [0x05, 0x06, 0x07], .all 0x5F00 [0x04], .all 0x5F10 [0x01, 0x02, 0x03, 0x04, 0x05,
      0x06, 0x07, 0x08, 0x09], ⟨0x6510, 0x65C7, none, [0x01, 0x02]⟩] [.pool] t.cur (t.unplace c st).cur := by
  dsimp only [Tx.unplace]
  exact .step (Tx.showCores_keeps ..) (.step (Tx.setChainSt_keeps ..) (.w (.w (.w (.step (Tx.slotFree_keeps ..) (.refl
      ..))))))

theorem Tx.askStep_keeps (t : Tx s0) (off : ℤ) : Keeps [] [.engines] t.cur (t.askStep off).cur := by
  dsimp only [Tx.askStep]
  exact .ite (.setEngines (.refl ..)) (.setEngines (.refl ..))

theorem Tx.setRho_keeps (t : Tx s0) (rho : ℕ) : Keeps [.all 0x5000 [0x04, 0x0B]] [.time] t.cur (t.setRho rho).cur := by
  dsimp only [Tx.setRho]
  exact .w (.w (.setTime (.refl ..)))

theorem Tx.steer_keeps (t : Tx s0) : Keeps [.all 0x5000 [0x04, 0x09, 0x0B]] [.free, .time] t.cur t.steer.cur := by
  dsimp only [Tx.steer]
  exact .step (Tx.setRho_keeps ..) (.w (.fresh (.fresh (.refl ..))))

theorem Tx.measured_keeps (t : Tx s0) (need : ℕ) (off : ℤ) (src : ℕ) : Keeps [.all 0x5000 [0x04, 0x07, 0x08, 0x09,
      0x0B, 0x1C], .all 0x5001 [0x15]] [.free, .maps, .engines, .time] t.cur (t.measured need off src).cur := by
  dsimp only [Tx.measured]
  exact .ite (.refl ..) (.ite (.ite (.setTime (.when (fun _ => .flagBit (.refl ..)) (.refl ..))) (.ite (.step
      (Tx.askStep_keeps ..) (.step (Tx.servoTo_keeps ..) (.setTime (.when (fun _ => .flagBit (.refl ..)) (.refl ..)))))
      (.step (Tx.steer_keeps ..) (.step (Tx.servoTo_keeps ..) (.setTime (.when (fun _ => .flagBit (.refl ..)) (.refl
      ..))))))) (.ite (.step (Tx.steer_keeps ..) (.ite (.step (Tx.servoTo_keeps ..) (.setTime (.when (fun _ => .flagBit
      (.refl ..)) (.refl ..)))) (.ite (.step (Tx.servoTo_keeps ..) (.setTime (.when (fun _ => .flagBit (.refl ..)) (.refl
      ..)))) (.setTime (.when (fun _ => .flagBit (.refl ..)) (.refl ..)))))) (.when (fun _ => .flagBit (.refl ..)) (.refl
      ..))))

theorem Tx.ptpMeasure_keeps (t : Tx s0) (t2 : ℤ) (t1 : ℤ) (corr : ℤ) : Keeps [.all 0x5000 [0x04, 0x07, 0x08, 0x09,
      0x0B, 0x1C], .all 0x5001 [0x11, 0x15]] [.free, .maps, .engines, .time] t.cur (t.ptpMeasure t2 t1 corr).cur := by
  dsimp only [Tx.ptpMeasure]
  split
  · exact .ite (.step (Tx.ptpCalibrated_keeps ..) (.step (Tx.measured_keeps ..) (.setTime (.refl ..)))) (.setTime (.refl
        ..))
  · exact .setTime (.refl ..)

theorem Tx.badTargets_keeps (t : Tx s0) (B : ℕ) (words : List ℕ) : Keeps [.all 0x6100 [0x03, 0x05, 0x09], .ctr 249 249]
      [.geo] t.cur (t.badTargets B words).cur := by
  dsimp only [Tx.badTargets]
  exact .ite (.each (fun _ _ => .step (Tx.sramBad_keeps ..) (.refl ..)) (.refl ..)) (.setGeo (.each (fun _ _ => .step
      (Tx.sramBad_keeps ..) (.refl ..)) (.refl ..)))

theorem Tx.bridgeDrop_keeps (t : Tx s0) (dir n : ℕ) (hd : dir ≤ 1 := by omega) :
    Keeps [.all 0x3F00 [0x05, 0x06]] [] t.cur (t.bridgeDrop dir n).cur := by
  dsimp only [Tx.bridgeDrop]
  exact .w (.refl ..) (by interval_cases dir <;> decide)

theorem Tx.asrcDrop_keeps (t : Tx s0) (l : List ℕ) : Keeps [.all 0x4010 [0x15], .all 0x4500 [0x01, 0x02], .all 0x4510
      [0x01, 0x02, 0x03, 0x04, 0x05, 0x06]] [.serial] t.cur (t.asrcDrop l).cur := by
  dsimp only [Tx.asrcDrop]
  exact .step (Tx.asrcShow_keeps ..) (.each (fun _ _ => .setSerial (.step (Tx.asrcQuiet_keeps ..) (.w (.w (.w (.w (.w (.w
      (.refl ..))))))))) (.refl ..))

theorem Tx.streamDrop_keeps (t : Tx s0) (i : ℕ) (dom : ℕ) (dir : ℕ) (c : ℕ) (hd : dir ≤ 1 := by omega) : Keeps [.all
      0x3F00 [0x05, 0x06], .all 0x4010 [0x15], .all 0x4500 [0x01, 0x02], .all 0x4510 [0x01, 0x02, 0x03, 0x04, 0x05, 0x06]]
      [.maps, .serial] t.cur (t.streamDrop i dom dir c).cur := by
  dsimp only [Tx.streamDrop]
  split
  · exact .refl ..
  · exact .setMaps (.step (Tx.bridgeDrop_keeps ..) (.refl ..))
  · exact .step (Tx.asrcDrop_keeps ..) (.refl ..)

theorem Tx.rxEnd_keeps (t : Tx s0) (i : ℕ) : Keeps [.all 0x3F00 [0x05, 0x06], .all 0x4010 [0x15], .all 0x4500 [0x01,
      0x02], .all 0x4510 [0x01, 0x02, 0x03, 0x04, 0x05, 0x06], .all 0x4900 [0x02, 0x03], .all 0x4A00 [0x1F]] [.maps, .serial,
      .net] t.cur (t.rxEnd i).cur := by
  dsimp only [Tx.rxEnd]
  exact .w (.step (Tx.setRx_keeps ..) (.inc (.w (.step (Tx.streamDrop_keeps ..) (.refl ..)))))

theorem Tx.txEnd_keeps (t : Tx s0) (i : ℕ) (held : Bool) : Keeps [.all 0x3F00 [0x05, 0x06], .all 0x4010 [0x15], .all
      0x4500 [0x01, 0x02], .all 0x4510 [0x01, 0x02, 0x03, 0x04, 0x05, 0x06], .all 0x4800 [0x0B, 0x16, 0x17], .all 0x4900
      [0x02, 0x04, 0x09, 0x0A, 0x0C], .all 0x4C00 [0x15, 0x16, 0x19, 0x1B], .all 0x5001 [0x19, 0x1B], .all 0x5010 [0x03],
      .all 0x5300 [0x01, 0x02, 0x03, 0x04, 0x06], .ctr 118 123, .ctr 135 135, .ctr 137 137, .ctr 140 140, .ctr 141 141]
      [.outs, .maps, .serial, .net, .time] t.cur (t.txEnd i held).cur := by
  dsimp only [Tx.txEnd]
  exact .step (Tx.streamDrop_keeps ..) (.step (Tx.txFlush_keeps ..) (.refl ..))

theorem Tx.laneLook_keeps (t : Tx s0) : Keeps [.all 0x3F00 [0x05, 0x06], .all 0x4010 [0x01, 0x02, 0x15, 0x16], .all
      0x4400 [0x02], .all 0x4500 [0x01, 0x02], .all 0x4510 [0x01, 0x02, 0x03, 0x04, 0x05, 0x06], .all 0x4800 [0x09, 0x0B,
      0x16, 0x17], .all 0x4900 [0x02, 0x03, 0x04, 0x09, 0x0A, 0x0C], .all 0x4A00 [0x12, 0x1F, 0x21], .all 0x4C00 [0x14, 0x15,
      0x16, 0x19, 0x1B], .all 0x5001 [0x19, 0x1B], .all 0x5010 [0x03], .all 0x5300 [0x01, 0x02, 0x03, 0x04, 0x06], .ctr 118
      123, .ctr 135 135, .ctr 137 137, .ctr 140 140, .ctr 141 141] [.outs, .maps, .serial, .net, .time] t.cur t.laneLook.cur
      := by
  dsimp only [Tx.laneLook]
  exact .step (Tx.showLoad_keeps ..) (.step (Tx.heldLook_keeps ..) (.each (fun _ _ => .ite (.refl ..) (.step
      (Tx.txTo_keeps ..) (.step (Tx.txEnd_keeps ..) (.refl ..)))) (.each (fun _ _ => .ite (.refl ..) (.step (Tx.rxTo_keeps
      ..) (.step (Tx.rxEnd_keeps ..) (.refl ..)))) (.refl ..))))

theorem Tx.sprkHold_keeps (t : Tx s0) (x : Dgram) : Keeps [] [.sprk] t.cur (t.sprkHold x).cur := by
  dsimp only [Tx.sprkHold]
  exact .ite (.refl ..) (.step (Tx.sprkSet_keeps ..) (.refl ..))

theorem Tx.reportObject_keeps (t : Tx s0) (n : ℕ) (clamped : ℕ) (sat : ℕ) (bad : ℕ) : Keeps [.all 0x3400 [0x0C, 0x0D,
      0x10, 0x11], .all 0x3410 [0x08, 0x09, 0x0A, 0x0B]] [] t.cur (t.reportObject n clamped sat bad).cur := by
  dsimp only [Tx.reportObject]
  exact .when (fun _ => .flagBit (.flagBit (.count (.count (.refl ..))))) (.when (fun _ => .flagBit (.flagBit (.count
      (.count (.refl ..))))) (.when (fun _ => .flagBit (.flagBit (.count (.count (.refl ..))))) (.refl ..)))

theorem Tx.pushAll_keeps (t : Tx s0) (who : Option ℕ) (a : ℕ) (rs : List Bytes) : Keeps [.all 0x2000 [0x14, 0x15, 0x16,
      0x17], .all 0x2800 [0x0E, 0x11], .all 0x5400 [0x17], .ctr 3 3] [.scene] t.cur (t.pushAll who a rs).1.cur := by
  dsimp only [Tx.pushAll]
  exact .foldFst (fun _ _ => .step (pushRecord_keeps ..) (.refl ..)) (.refl ..)

theorem depthRule_keeps (n : ℕ) (data : Bytes) (t : Tx s0) : Keeps [.all 0x2000 [0x08], .all 0x3400 [0x03, 0x04, 0x05,
      0x0B, 0x11], .all 0x3410 [0x03, 0x04, 0x07, 0x0B]] [.result, .render] t.cur (depthRule n data t).cur := by
  dsimp only [depthRule]
  refine .ite (.status (.refl ..)) (.ite (.status (.refl ..)) (.ite (.status (.refl ..)) (.ite (.refl ..) (.ite (.step
      (Tx.furrowStats_keeps ..) (.step (Tx.showPending_keeps ..) (.w (.w (.setRender (.refl ..)))))) (?_)))))
  split
  · exact .status (.flagBit (.flagBit (.tally (.refl ..))))
  · exact .step (Tx.furrowStats_keeps ..) (.step (Tx.showPending_keeps ..) (.w (.setRender (.refl ..))))

theorem Tx.reference_keeps (t : Tx s0) (x : Stim) (k : ℕ) (mc : MicCap) : Keeps [.all 0x5D10 [0x05, 0x06, 0x07, 0x0B]]
      [.free] t.cur (t.reference x k mc).cur := by
  dsimp only [Tx.reference]
  refine .ite (?_) (.wb (.w (?_)))
  · split
    · exact .w (.refl ..)
    · exact .w (.fresh (.refl ..))
  · split
    · refine .w (?_)
      split
      · exact .w (.refl ..)
      · exact .w (.fresh (.refl ..))
    · refine .w (.fresh (?_))
      split
      · exact .w (.refl ..)
      · exact .w (.fresh (.refl ..))

theorem packEraseRule_keeps (k : ℕ) (t : Tx s0) : Keeps [.all 0x5E30 [0x03, 0x04, 0x06, 0x07]] [.result, .power] t.cur
      (packEraseRule k t).cur := by
  dsimp only [packEraseRule]
  exact .ite (.status (.refl ..)) (.ite (.status (.refl ..)) (.step (Tx.packEmpty_keeps ..) (.refl ..)))

theorem Tx.busEventsTo_keeps (c : ℕ) (fuel : ℕ) (t : Tx s0) : Keeps [.all 0x1400 [0x02, 0x07, 0x08], .all 0x6000 [0x02,
      0x03, 0x05, 0x06, 0x07, 0x08, 0x09, 0x0A, 0x0B], .all 0x6010 [0x04, 0x05, 0x06], .all 0x6020 [0x02, 0x04], .all 0x6100
      [0x02, 0x03, 0x04, 0x05, 0x06, 0x09], .all 0x6200 [0x01, 0x08, 0x18, 0x19, 0x1A, 0x1B, 0x1C, 0x21], .all 0x6210 [0x03,
      0x04, 0x05, 0x06, 0x07], .all 0x6300 [0x05], .ctr 246 246, .ctr 247 247, .ctr 248 248, .ctr 249 249, .ctr 254 254]
      [.outs, .clock, .free, .mem, .store, .power] t.cur (t.busEventsTo c fuel).cur := by
  induction fuel generalizing c t with
  | zero =>
    dsimp only [Tx.busEventsTo]
    exact .refl ..
  | succ n ih =>
    dsimp only [Tx.busEventsTo]
    split
    · exact .trans (.step (Tx.busEvent_keeps ..) (.tick (.refl ..))) (ih ..)
    · exact .refl ..

theorem Tx.macCut_keeps (t : Tx s0) (m : ℕ) : Keeps [.all 0x4800 [0x0B, 0x16, 0x17], .all 0x4900 [0x02, 0x04], .all
      0x4C00 [0x15, 0x19, 0x1B], .all 0x5001 [0x19, 0x1B], .all 0x5010 [0x03], .all 0x5300 [0x01, 0x02, 0x03, 0x04, 0x06],
      .ctr 118 123, .ctr 140 140, .ctr 141 141] [.outs, .net, .time] t.cur (t.macCut m).cur := by
  dsimp only [Tx.macCut]
  split
  · exact .step (Tx.copyEnd_keeps ..) (.step (Tx.setMac_keeps ..) (.step (Tx.macRun_keeps ..) (.refl ..)))
  · exact .step (Tx.setMac_keeps ..) (.step (Tx.macRun_keeps ..) (.refl ..))

theorem Tx.linkDown_keeps (t : Tx s0) (m : ℕ) : Keeps [.all 0x3F00 [0x05, 0x06], .all 0x4010 [0x01, 0x02, 0x15, 0x16],
      .all 0x4400 [0x02], .all 0x4500 [0x01, 0x02], .all 0x4510 [0x01, 0x02, 0x03, 0x04, 0x05, 0x06], .all 0x4800 [0x07,
      0x08, 0x09, 0x0B, 0x15, 0x16, 0x17], .all 0x4900 [0x02, 0x03, 0x04, 0x09, 0x0A, 0x0C], .all 0x4A00 [0x12, 0x1F, 0x21],
      .all 0x4C00 [0x14, 0x15, 0x16, 0x19, 0x1B], .all 0x5001 [0x19, 0x1B], .all 0x5010 [0x03], .all 0x5300 [0x01, 0x02,
      0x03, 0x04, 0x06], .ctr 118 123, .ctr 135 135, .ctr 137 137, .ctr 140 140, .ctr 141 141] [.outs, .maps, .serial, .net,
      .time] t.cur (t.linkDown m).cur := by
  dsimp only [Tx.linkDown]
  exact .ite (.refl ..) (.step (Tx.laneLook_keeps ..) (.step (Tx.macMsg_keeps ..) (.flagBit (.tally (.w (.w (.step
      (Tx.macCut_keeps ..) (.refl ..))))))))

theorem Tx.evalTrack_keeps (t : Tx s0) (queue : List Keyframe) (B : ℕ) (n : ℕ) : Keeps [.all 0x2000 [0x17, 0x18], .all
      0x2800 [0x0F], .ctr 2 2] [.scene] t.cur (t.evalTrack queue B n).cur := by
  dsimp only [Tx.evalTrack]
  exact .setScene (.step (Tx.landKeyframes_keeps ..) (.refl ..))

theorem Tx.stepTransform_keeps (t : Tx s0) (v : State) : Keeps [] [.scene] t.cur (t.stepTransform v).cur := by
  dsimp only [Tx.stepTransform]
  exact .ite (.setScene (.refl ..)) (.setScene (.refl ..))

theorem Tx.soundTarget_keeps (t : Tx s0) : Keeps [.all 0x2800 [0x0B, 0x11]] [] t.cur t.soundTarget.cur := by
  dsimp only [Tx.soundTarget]
  exact .w (.when (fun _ => .flagBit (.refl ..)) (.refl ..))

theorem Tx.stepSound_keeps (t : Tx s0) (v : State) : Keeps [.all 0x2800 [0x0A, 0x0B, 0x11]] [.scene] t.cur (t.stepSound
      v).cur := by
  dsimp only [Tx.stepSound]
  exact .setScene (.w (.when (fun _ => .flagBit (.refl ..)) (.step (Tx.soundTarget_keeps ..) (.refl ..))))

theorem Tx.sceneEval_keeps (t : Tx s0) (v : State) (B : ℕ) : Keeps [.all 0x2000 [0x17, 0x18], .all 0x2800 [0x0A, 0x0B,
      0x0F, 0x11], .ctr 2 2] [.scene] t.cur (t.sceneEval v B).cur := by
  dsimp only [Tx.sceneEval]
  exact .step (Tx.stepTransform_keeps ..) (.step (Tx.stepSound_keeps ..) (.each (fun _ _ => .step (Tx.evalTrack_keeps ..)
      (.refl ..)) (.setScene (.refl ..))))

theorem Tx.corrEcc_keeps (t : Tx s0) (k : ℕ) : Keeps [.all 0x3800 [0x15, 0x17], .all 0x3B00 [0x0E]] [] t.cur (t.corrEcc
      k).cur := by
  dsimp only [Tx.corrEcc]
  exact .flagBit (.flagBit (.tally (.refl ..)))

theorem Tx.corrDram_keeps (t : Tx s0) (k : ℕ) : Keeps [.all 0x3800 [0x15, 0x17], .all 0x3B00 [0x0E], .all 0x6200 [0x19,
      0x1B, 0x21], .ctr 247 247] [.free] t.cur (t.corrDram k).cur := by
  dsimp only [Tx.corrDram]
  exact .step (Tx.dramBad_keeps ..) (.fresh (.step (Tx.corrEcc_keeps ..) (.refl ..)))

theorem Tx.spectrumLost_keeps (t : Tx s0) (b : SpectrumFault) : Keeps [.all 0x3800 [0x15, 0x17], .all 0x3B00 [0x0E],
      .all 0x6200 [0x19, 0x1B, 0x1C, 0x21], .ctr 247 247] [.free] t.cur (t.spectrumLost b).cur := by
  dsimp only [Tx.spectrumLost]
  exact .ite (.flagBit (.inc (.step (Tx.corrEcc_keeps ..) (.refl ..)))) (.step (Tx.corrDram_keeps ..) (.refl ..))

theorem Tx.ptpOut_keeps (t : Tx s0) (m : ℕ) (event : Bool) (peer : Option (ℕ × ℕ)) (b : Bytes) : Keeps [.all 0x4800
      [0x0B, 0x16, 0x17], .all 0x4900 [0x02, 0x04], .all 0x4C00 [0x15, 0x19, 0x1B], .all 0x5001 [0x19, 0x1B], .all 0x5010
      [0x03], .all 0x5300 [0x01, 0x02, 0x03, 0x04, 0x06], .ctr 118 123, .ctr 140 140, .ctr 141 141] [.outs, .net, .time]
      t.cur (t.ptpOut m event peer b).cur := by
  dsimp only [Tx.ptpOut]
  exact .step (Tx.sendFrame_keeps ..) (.refl ..)

theorem Tx.traceLow_keeps (t : Tx s0) : Keeps [] [.outs] t.cur t.traceLow.cur := by
  dsimp only [Tx.traceLow]
  exact .emit (.emit (.refl ..))

theorem Tx.traceSettle_keeps (t : Tx s0) : Keeps [.ctr 15 15, .all 0x6A00 [0x09, 0x0A, 0x10, 0x11, 0x12, 0x13, 0x14,
      0x15, 0x16, 0x1E, 0x1F]] [.outs] t.cur t.traceSettle.cur := by
  dsimp only [Tx.traceSettle]
  exact .ite (.refl ..) (.ite (.step (Tx.traceLow_keeps ..) (.w (.setTrace (.step (Tx.traceSend_keeps ..) (.each (fun _ _
      => .step (Tx.traceTake_keeps ..) (.refl ..)) (.setTrace (.refl ..))))))) (.step (Tx.traceSend_keeps ..) (.each (fun _ _
      => .step (Tx.traceTake_keeps ..) (.refl ..)) (.setTrace (.refl ..)))))

theorem traceRule_keeps (d : Bytes) (t : Tx s0) : Keeps [.ctr 15 15, .all 0x6A00 [0x01, 0x09, 0x0A, 0x0F, 0x10, 0x11,
      0x12, 0x13, 0x14, 0x15, 0x16, 0x1E, 0x1F]] [.outs] t.cur (traceRule d t).cur := by
  dsimp only [traceRule]
  exact .ite (.ite (.w (.w (.step (Tx.traceSettle_keeps ..) (.refl ..)))) (.msg (.emit (.setTrace (.w (.w (.w (.step
      (Tx.traceSettle_keeps ..) (.refl ..))))))))) (.ite (.setTrace (.w (.step (Tx.traceSettle_keeps ..) (.refl ..)))) (.w
      (.step (Tx.traceSettle_keeps ..) (.refl ..))))

theorem markRule_keeps (d : ℕ) (data : Bytes) (t : Tx s0) : Keeps [.all 0x1400 [0x02, 0x07, 0x08], .all 0x6200 [0x21],
      .all 0x6210 [0x05, 0x06, 0x07]] [.result, .store] t.cur (markRule d data t).cur := by
  dsimp only [markRule]
  refine .ite (?_) (.w (.w (.w (.refl ..))))
  split
  · exact .ite (.refl ..) (.status (.refl ..))
  · exact .step (Tx.markDevice_keeps ..) (.refl ..)

theorem Tx.bypassN_keeps (t : Tx s0) (v : ℕ) : Keeps [.all 0x6500 [0x12]] [.outs] t.cur (t.bypassN v).cur := by
  dsimp only [Tx.bypassN]
  exact .emit (.w (.refl ..))

theorem Tx.impedance_keeps (t : Tx s0) (x : Stim) (c : Cap) : Keeps [.all 0x5D10 [0x0C]] [.free] t.cur (t.impedance x
      c).cur := by
  dsimp only [Tx.impedance]
  split
  · exact .wb (.refl ..)
  · refine .wb (.foldSnd (fun p x => ?_) (.refl ..))
    split
    · exact .refl ..
    · exact .fresh (.refl ..)

theorem Tx.planReport_keeps (t : Tx s0) : Keeps [.all 0x3000 [0x0B, 0x0C, 0x0D], .all 0x3100 [0x04], .all 0x3200
      [0x04]] [] t.cur t.planReport.cur := by
  dsimp only [Tx.planReport]
  refine .each (fun _ _ => .w (.refl ..)) (.each (fun t x => ?_) (.each (fun _ _ => .w (.w (.w (.refl ..)))) (.refl ..)))
  split
  · exact .w (.refl ..)
  · exact .w (.refl ..)

theorem Tx.showGm_keeps (t : Tx s0) (ident : ℕ) (steps : ℕ) : Keeps [.all 0x5001 [0x13, 0x14, 0x1B]] [] t.cur (t.showGm
      ident steps).cur := by
  dsimp only [Tx.showGm]
  exact .when (fun _ => .flagBit (.refl ..)) (.w (.w (.refl ..)))

theorem Tx.ptpFollow_keeps (t : Tx s0) (f : Foreign) : Keeps [.all 0x5001 [0x11, 0x13, 0x14, 0x1B]] [.time] t.cur
      (t.ptpFollow f).cur := by
  dsimp only [Tx.ptpFollow]
  exact .ite (.step (Tx.showGm_keeps ..) (.refl ..)) (.step (Tx.ptpCalibrated_keeps ..) (.w (.setTime (.step
      (Tx.showGm_keeps ..) (.refl ..)))))

theorem Tx.sourceLost_keeps (t : Tx s0) : Keeps [.all 0x5000 [0x04, 0x07, 0x08, 0x0B, 0x1A, 0x1C], .all 0x5001 [0x15],
      .ctr 143 143] [.maps, .time] t.cur t.sourceLost.cur := by
  dsimp only [Tx.sourceLost]
  exact .ite (.flagBit (.tally (.step (Tx.servoTo_keeps ..) (.setTime (.step (Tx.setRho_keeps ..) (.setTime (.refl
      ..))))))) (.ite (.step (Tx.servoTo_keeps ..) (.setTime (.refl ..))) (.setTime (.refl ..)))

theorem Tx.ptpLeave_keeps (t : Tx s0) (st : ℕ) : Keeps [.all 0x5000 [0x04, 0x07, 0x08, 0x0B, 0x1A, 0x1C], .all 0x5001
      [0x11, 0x13, 0x14, 0x15, 0x1B], .ctr 143 143] [.maps, .time] t.cur (t.ptpLeave st).cur := by
  dsimp only [Tx.ptpLeave]
  exact .when (fun _ => .step (Tx.sourceLost_keeps ..) (.refl ..)) (.when (fun _ => .step (Tx.showGm_keeps ..) (.refl
      ..)) (.w (.setTime (.refl ..))))

theorem Tx.bmca_keeps (t : Tx s0) : Keeps [.all 0x5000 [0x04, 0x07, 0x08, 0x0B, 0x1A, 0x1C], .all 0x5001 [0x11, 0x13,
      0x14, 0x15, 0x1B], .ctr 143 143] [.maps, .time] t.cur t.bmca.cur := by
  dsimp only [Tx.bmca]
  split
  · exact .refl ..
  · exact .ite (.step (Tx.ptpFollow_keeps ..) (.refl ..)) (.ite (.ite (.refl ..) (.step (Tx.ptpLeave_keeps ..) (.refl
        ..))) (.ite (.ite (.ite (.refl ..) (.step (Tx.ptpLeave_keeps ..) (.refl ..))) (.step (Tx.ptpFollow_keeps ..) (.refl
        ..))) (.ite (.refl ..) (.step (Tx.ptpLeave_keeps ..) (.refl ..)))))

theorem Tx.ptpMove_keeps (t : Tx s0) (m : ℕ) : Keeps [.all 0x5000 [0x04, 0x07, 0x08, 0x0B, 0x1A, 0x1C], .all 0x5001
      [0x11, 0x12, 0x13, 0x14, 0x15, 0x1A, 0x1B], .ctr 143 143] [.maps, .time] t.cur (t.ptpMove m).cur := by
  dsimp only [Tx.ptpMove]
  exact .step (Tx.bmca_keeps ..) (.when (fun _ => .w (.refl ..)) (.setTime (.flagBit (.tally (.w (.refl ..))))))

theorem Tx.scenePublish_keeps (t : Tx s0) : Keeps [.all 0x2000 [0x0E, 0x0F, 0x10, 0x11, 0x12, 0x13]] [.scene] t.cur
      t.scenePublish.cur := by
  dsimp only [Tx.scenePublish]
  exact .setScene (.each (fun _ _ => .step (Tx.setTrack_keeps ..) (.w (.w (.w (.w (.w (.w (.refl ..)))))))) (.refl ..))

theorem Tx.sendStamped_keeps (t : Tx s0) (m : ℕ) (f : Bytes) (r : StampReq) : Keeps [.all 0x4800 [0x0B, 0x16, 0x17],
      .all 0x4900 [0x02, 0x04], .all 0x4C00 [0x15, 0x19, 0x1B], .all 0x5001 [0x19, 0x1B], .all 0x5010 [0x03], .all 0x5300
      [0x01, 0x02, 0x03, 0x04, 0x06], .ctr 118 123, .ctr 140 140, .ctr 141 141] [.outs, .net, .time] t.cur (t.sendStamped m f
      r).cur := by
  dsimp only [Tx.sendStamped]
  exact .step (Tx.egress_keeps ..) (.refl ..)

theorem Tx.chainRefuse_keeps (t : Tx s0) (c : ℕ) (reason : ℕ) (item : ℕ) : Keeps [.all 0x5E10 [0x11, 0x12, 0x13]]
      [.result] t.cur (t.chainRefuse c reason item).cur := by
  dsimp only [Tx.chainRefuse]
  exact .status (.flagBit (.w (.w (.refl ..))))

theorem Tx.place_keeps (t : Tx s0) (c : ℕ) (i : ℕ) : Keeps [.all 0x5E00 [0x01], .all 0x5E01 [0x01, 0x02, 0x03, 0x04,
      0x05, 0x07, 0x08, 0x09], .all 0x5E10 [0x05, 0x06, 0x07, 0x08, 0x09, 0x0A, 0x0B], .all 0x5F00 [0x04], .all 0x5F10 [0x01,
      0x02, 0x03, 0x04, 0x05], ⟨0x6510, 0x65C7, none, [0x01, 0x02]⟩] [.pool] t.cur (t.place c i).cur := by
  dsimp only [Tx.place]
  exact .step (Tx.showCores_keeps ..) (.step (Tx.showChain_keeps ..) (.step (Tx.setChainSt_keeps ..) (.wb (.w (.w (.w (.w
      (.w (.w (.w (.refl ..)))))))))))

theorem Tx.chainStart_keeps (t : Tx s0) (c : ℕ) : Keeps [.all 0x5E00 [0x01], .all 0x5E01 [0x01, 0x02, 0x03, 0x04, 0x05,
      0x07, 0x08, 0x09], .all 0x5E10 [0x01, 0x05, 0x06, 0x07, 0x08, 0x09, 0x0A, 0x0B, 0x11, 0x12, 0x13], .all 0x5F00 [0x04],
      .all 0x5F10 [0x01, 0x02, 0x03, 0x04, 0x05], ⟨0x6510, 0x65C7, none, [0x01, 0x02]⟩] [.result, .pool] t.cur (t.chainStart
      c).cur := by
  dsimp only [Tx.chainStart]
  split
  · exact .step (Tx.chainRefuse_keeps ..) (.refl ..)
  · exact .ite (.step (Tx.chainRefuse_keeps ..) (.refl ..)) (.step (Tx.place_keeps ..) (.step (Tx.setChainSt_keeps ..)
        (.w (.refl ..))))

theorem Tx.supplyEn_keeps (t : Tx s0) (v : ℕ) : Keeps [.all 0x6500 [0x11]] [.outs] t.cur (t.supplyEn v).cur := by
  dsimp only [Tx.supplyEn]
  exact .emit (.w (.refl ..))

theorem Tx.taskFree_keeps (t : Tx s0) (n : ℕ) : Keeps [.all 0x5F00 [0x04], .all 0x5F10 [0x01, 0x02, 0x03, 0x04, 0x05,
      0x06, 0x07, 0x08, 0x09]] [.pool] t.cur (t.taskFree n).cur := by
  dsimp only [Tx.taskFree]
  exact .step (Tx.showSlots_keeps ..) (.setPool (.step (Tx.slotFree_keeps ..) (.refl ..)))

theorem Tx.cancelCommit_keeps (t : Tx s0) : Keeps [.all 0x1300 [0x03, 0x04, 0x0A], .all 0x3000 [0x0B, 0x0C, 0x0D], .all
      0x3100 [0x04], .all 0x3200 [0x04]] [.ctl] t.cur t.cancelCommit.cur := by
  dsimp only [Tx.cancelCommit]
  split
  · exact .refl ..
  · exact .tally (.w (.w (.setCtl (.when (fun _ => .step (Tx.planReport_keeps ..) (.refl ..)) (.refl ..)))))

theorem restoreRule_keeps (t : Tx s0) : Keeps [.all 0x1400 [0x02, 0x07, 0x08]] [.store] t.cur (restoreRule t).cur := by
  dsimp only [restoreRule]
  exact .step (Tx.askSave_keeps ..) (.refl ..)

theorem Tx.uploadEnd_keeps (t : Tx s0) (f : ℕ) (reason : ℕ) (item : ℕ) : Keeps [.all 0x3A00 [0x09, 0x0A]] [] t.cur
      (t.uploadEnd f reason item).cur := by
  dsimp only [Tx.uploadEnd]
  exact .w (.w (.refl ..))

theorem Tx.dropXfer_keeps (t : Tx s0) (h : ℕ) : Keeps [.all 0x3A00 [0x09, 0x0A]] [.ctl] t.cur (t.dropXfer h).cur := by
  dsimp only [Tx.dropXfer]
  split
  · exact .refl ..
  · exact .when (fun _ => .step (Tx.uploadEnd_keeps ..) (.refl ..)) (.setHost (.refl ..))

theorem Tx.masterGain_keeps (t : Tx s0) (tc : ℕ) (k : ℕ) : Keeps [] [.corr] t.cur (t.masterGain tc k).cur := by
  dsimp only [Tx.masterGain]
  exact .ite (.refl ..) (.step (Tx.setChain_keeps ..) (.refl ..))

theorem Tx.release_keeps (t : Tx s0) (c : ℕ) (X : ℕ) (g : Bool × ℕ) : Keeps [.all 0x5F00 [0x07, 0x09], .all 0x5F20
      [0x04, 0x05], .ctr 245 245] [.pool] t.cur (t.release c X g).cur := by
  dsimp only [Tx.release]
  exact .ite (.refl ..) (.ite (.flagBit (.flagBit (.tally (.inc (.refl ..))))) (.step (Tx.setChainSt_keeps ..) (.refl
      ..)))

theorem Tx.laneMargins_keeps (t : Tx s0) (timing voltage : List F32) :
    Keeps [.all 0x6602 [0x01, 0x02, 0x03, 0x04, 0x05, 0x08, 0x0B], ⟨0x6680, 0x66FD, none, [0x01, 0x02, 0x03]⟩] [.free] t.cur
      (t.laneMargins timing voltage).cur := by
  dsimp only [Tx.laneMargins]
  refine .w (.w (.w (.w (.w (.w (.w (.eachMem (fun t p hp => ?_) (.refl ..))))))))
  have hi : p.1 < 126 := List.mem_range.mp (List.of_mem_zip hp).1
  have hk (c : ℕ) (hc : c = 0x01 ∨ c = 0x02 ∨ c = 0x03) :
      Keys [.all 0x6602 [0x01, 0x02, 0x03, 0x04, 0x05, 0x08, 0x0B], ⟨0x6680, 0x66FD, none, [0x01, 0x02, 0x03]⟩]
        (K (0x6680 + p.1) 0 c) :=
    .intro (lo := 0x6680) (hi := 0x66FD) (by rcases hc with rfl | rfl | rfl <;> decide) (by omega) (by omega)
  exact .wKey (.fresh (.wKey (.wKey (.refl ..) (hk _ (.inl rfl))) (hk _ (.inr (.inl rfl))))) (hk _ (.inr (.inr rfl)))

theorem chainRule_keeps (c : ℕ) (d : Bytes) (t : Tx s0) : Keeps [.all 0x5E00 [0x01], .all 0x5E01 [0x01, 0x02, 0x03,
      0x04, 0x05, 0x07, 0x08, 0x09], .all 0x5E10 [0x01, 0x05, 0x06, 0x07, 0x08, 0x09, 0x0A, 0x0B, 0x11, 0x12, 0x13], .all
      0x5F00 [0x04], .all 0x5F10 [0x01, 0x02, 0x03, 0x04, 0x05], ⟨0x6510, 0x65C7, none, [0x01, 0x02]⟩] [.result, .pool] t.cur
      (chainRule c d t).cur := by
  dsimp only [chainRule]
  exact .ite (.ite (.status (.refl ..)) (.ite (.step (Tx.chainStart_keeps ..) (.refl ..)) (.w (.refl ..)))) (.ite (.step
      (Tx.setChainSt_keeps ..) (.w (.w (.refl ..)))) (.ite (.w (.refl ..)) (.step (Tx.setChainSt_keeps ..) (.w (.refl ..)))))

theorem Tx.recDiscard_keeps (t : Tx s0) : Keeps [.all 0x5D80 [0x08, 0x09, 0x0A, 0x0B]] [.meas] t.cur t.recDiscard.cur := by
  dsimp only [Tx.recDiscard]
  exact .w (.w (.w (.w (.setMeas (.refl ..)))))

theorem Tx.recBegin_keeps (t : Tx s0) (B : ℕ) : Keeps [.all 0x5D80 [0x06, 0x08, 0x09, 0x0A, 0x0B]] [.meas] t.cur
      (t.recBegin B).cur := by
  dsimp only [Tx.recBegin]
  exact .setMeas (.w (.step (Tx.recDiscard_keeps ..) (.refl ..)))

theorem rearmRule_keeps (t : Tx s0) : Keeps [.all 0x5D80 [0x06, 0x08, 0x09, 0x0A, 0x0B]] [.result, .meas] t.cur
      (rearmRule t).cur := by
  dsimp only [rearmRule]
  exact .ite (.status (.refl ..)) (.step (Tx.recBegin_keeps ..) (.refl ..))

theorem sdpRule_keeps (i : ℕ) (d : Bytes) (t : Tx s0) : Keeps [.all 0x4A00 [], .ctr 256 511] [.result] t.cur (sdpRule i d t).cur := by
  dsimp only [sdpRule]
  refine .ite (.status (.refl ..)) ?_
  split
  · exact .status (.w (.refl ..))
  · split
    · exact .status (.w (.refl ..))
    · exact .when (fun _ => .flagBit (.refl ..)) (.w (.each (fun _ _ => .wKey (.refl ..) .whole) (.refl ..)))

theorem Tx.faultTrips_keeps (t : Tx s0) (n : ℕ) (r : ℕ) : Keeps [.all 0x5800 [0x02, 0x12, 0x13, 0x14, 0x15, 0x1C], .all
      0x5A00 [0x07, 0x08, 0x09, 0x0F], .ctr 168 191] [.outs, .hedge, .meas] t.cur (t.faultTrips n r).cur := by
  dsimp only [Tx.faultTrips]
  exact .ite (.each (fun _ _ => .step (Tx.trip_keeps ..) (.refl ..)) (.refl ..)) (.each (fun _ _ => .step (Tx.trip_keeps
      ..) (.refl ..)) (.refl ..))

theorem latchRule_keeps (d : Bytes) (t : Tx s0) : Keeps [.all 0x6A00 [0x17, 0x18, 0x19, 0x1A, 0x1B]] [] t.cur
      (latchRule d t).cur := by
  dsimp only [latchRule]
  exact .inc (.w (.w (.wb (.w (.refl ..)))))

theorem Tx.phaseUsed_keeps (t : Tx s0) (sub used window : ℕ) (hs : sub = 0x04 ∨ sub = 0x07 := by decide) :
    Keeps [.all 0x6300 [0x04, 0x07, 0x08]] [] t.cur (t.phaseUsed sub used window).cur := by
  dsimp only [Tx.phaseUsed]
  exact .when (fun _ => .flagBit (.refl ..)) (.peak (.refl ..) (by rcases hs with rfl | rfl <;> decide))

theorem Tx.record_keeps (t : Tx s0) (h : ℕ) (w1c : Bool) (r : Rec) : Keeps [.all 0x1200 [0x06]] [.ctl] t.cur (t.record
      h w1c r).cur := by
  dsimp only [Tx.record]
  refine .ite (.refl ..) (?_)
  split
  · exact .flagBit (.tally (.refl ..))
  · exact .ite (.setHost (.refl ..)) (.flagBit (.tally (.setHost (.refl ..))))

theorem Tx.eventRecord_keeps (t : Tx s0) (kind idx inst value at_ : ℕ) :
    Keeps [] [] t.cur (t.eventRecord kind idx inst value at_).cur := by
  dsimp only [Tx.eventRecord]
  exact .eachMem (fun t h hh => .ite (t.record_kept (List.mem_range.mp hh) _ _) (.refl ..)) (.refl ..)

theorem Tx.retrain_keeps (t : Tx s0) (good : Bool) (timing : List F32) (voltage : List F32) : Keeps [.all 0x6200 [0x12,
      0x13, 0x21], .all 0x6602 [0x01, 0x02, 0x03, 0x04, 0x05, 0x08, 0x0B], ⟨0x6680, 0x66FD, none, [0x01, 0x02, 0x03]⟩]
      [.free, .mem] t.cur (t.retrain good timing voltage).cur := by
  dsimp only [Tx.retrain]
  exact .ite (.step (Tx.laneMargins_keeps ..) (.w (.tally (.setMem (.refl ..))))) (.flagBit (.setMem (.refl ..)))

theorem Tx.sendNak_keeps (t : Tx s0) (gap : ℕ × ℕ) : Keeps [.all 0x4800 [0x0B, 0x16, 0x17], .all 0x4900 [0x02, 0x04],
      .all 0x4C00 [0x15, 0x19, 0x1B], .all 0x5001 [0x19, 0x1B], .all 0x5010 [0x03], .all 0x5300 [0x01, 0x02, 0x03, 0x04,
      0x06], .all 0x5400 [0x12], .ctr 118 123, .ctr 140 140, .ctr 141 141] [.outs, .net, .time, .sprk] t.cur (t.sendNak
      gap).cur := by
  dsimp only [Tx.sendNak]
  exact .step (Tx.sprkSet_keeps ..) (.tally (.step (Tx.sprkSend_keeps ..) (.refl ..)))

theorem Tx.ppsFall_keeps (t : Tx s0) : Keeps [] [.outs, .time] t.cur t.ppsFall.cur := by
  dsimp only [Tx.ppsFall]
  exact .emit (.setTime (.refl ..))

theorem Tx.ppsRise_keeps (t : Tx s0) (ns : ℕ) : Keeps [] [.outs, .time] t.cur (t.ppsRise ns).cur := by
  dsimp only [Tx.ppsRise]
  split
  · exact .ite (.setTime (.refl ..)) (.emit (.setTime (.step (Tx.ppsFall_keeps ..) (.refl ..))))
  · exact .emit (.setTime (.refl ..))

theorem Tx.fire_keeps (t : Tx s0) (n : ℕ) (ns : ℕ) : Keeps [.all 0x5100 [0x08, 0x09, 0x0B], .all 0x5F00 [0x01, 0x02],
      .ctr 144 159] [.outs, .time] t.cur (t.fire n ns).cur := by
  dsimp only [Tx.fire]
  exact .when (fun _ => .step (Tx.ppsRise_keeps ..) (.refl ..)) (.when (fun _ => .step (Tx.eventRecord_keeps ..) (.refl
      ..)) (.when (fun _ => .step (Tx.rakeSet_keeps ..) (.refl ..)) (.msg (.flagBit (.w (.tally (.refl ..)))))))

theorem Tx.graftMsg_keeps (t : Tx s0) (k : ℕ) (set : ℕ) (phase : ℕ) : Keeps [] [] t.cur (t.graftMsg k set phase).cur := by
  dsimp only [Tx.graftMsg]
  exact .msg (.refl ..)

theorem Tx.graftEnd_keeps (t : Tx s0) (k : ℕ) : Keeps [.all 0x3800 [0x01, 0x0A, 0x0B, 0x0C, 0x0D, 0x0E, 0x0F, 0x17],
      .all 0x3B00 [0x07], .ctr 7 7] [.corr] t.cur (t.graftEnd k).cur := by
  dsimp only [Tx.graftEnd]
  split
  · exact .ite (.refl ..) (.step (Tx.graftMsg_keeps ..) (.step (Tx.showGrafts_keeps ..) (.flagBit (.tally (.w (.step
        (Tx.setChain_keeps ..) (.refl ..)))))))
  · exact .refl ..

theorem openRule_keeps (k : ℕ) (d : Bytes) (t : Tx s0) : Keeps [.all 0x5D10 [0x01, 0x04, 0x0E]] [.meas] t.cur (openRule
      k d t).cur := by
  dsimp only [openRule]
  refine .ite (.w (.refl ..)) (?_)
  split
  · split
    · exact .ite (.w (.flagBit (.setMeas (.setMeas (.w (.refl ..)))))) (.setMeas (.w (.refl ..)))
    · exact .setMeas (.w (.refl ..))
  · exact .setMeas (.w (.refl ..))

theorem rxEnableRule_keeps (i : ℕ) (d : Bytes) (t : Tx s0) : Keeps [.all 0x3F00 [0x05, 0x06], .all 0x4010 [0x01, 0x02,
      0x15, 0x16], .all 0x4400 [0x02], .all 0x4500 [0x01, 0x02], .all 0x4510 [0x01, 0x02, 0x03, 0x04, 0x05, 0x06], .all
      0x4800 [0x09, 0x0B, 0x16, 0x17], .all 0x4900 [0x02, 0x03, 0x04], .all 0x4A00 [0x01, 0x12, 0x1F, 0x21], .all 0x4C00
      [0x14, 0x15, 0x19, 0x1B], .all 0x5001 [0x19, 0x1B], .all 0x5010 [0x03], .all 0x5300 [0x01, 0x02, 0x03, 0x04, 0x06],
      .ctr 118 123, .ctr 140 140, .ctr 141 141] [.result, .outs, .maps, .serial, .net, .time] t.cur (rxEnableRule i d t).cur
      := by
  dsimp only [rxEnableRule]
  exact .ite (.refl ..) (.ite (.ite (.status (.refl ..)) (.each (fun _ _ => .ite (.step (Tx.igmpJoin_keeps ..) (.refl
      ..)) (.refl ..)) (.ite (.step (Tx.rxTo_keeps ..) (.w (.refl ..))) (.ite (.step (Tx.rxTo_keeps ..) (.w (.refl ..)))
      (.step (Tx.rxStart_keeps ..) (.w (.refl ..))))))) (.step (Tx.heldLook_keeps ..) (.each (fun _ _ => .ite (.step
      (Tx.igmpSend_keeps ..) (.refl ..)) (.refl ..)) (.step (Tx.rxTo_keeps ..) (.when (fun _ => .step (Tx.rxEnd_keeps ..)
      (.refl ..)) (.w (.refl ..)))))))

theorem Tx.taskTake_keeps (t : Tx s0) (n : ℕ) : Keeps [.all 0x5F00 [0x04], .all 0x5F10 [0x01, 0x04, 0x05, 0x06]]
      [.free, .pool] t.cur (t.taskTake n).cur := by
  dsimp only [Tx.taskTake]
  exact .step (Tx.showSlots_keeps ..) (.setPool (.w (.wb (.w (.w (.fresh (.refl ..)))))))

theorem Tx.tasksHold_keeps (t : Tx s0) : Keeps [.all 0x5F00 [0x04], .all 0x5F10 [0x01, 0x02, 0x03, 0x04, 0x05, 0x06,
      0x07, 0x08, 0x09]] [.free, .pool] t.cur t.tasksHold.cur := by
  dsimp only [Tx.tasksHold]
  exact .each (fun _ _ => .ite (.step (Tx.taskTake_keeps ..) (.refl ..)) (.ite (.step (Tx.taskFree_keeps ..) (.refl ..))
      (.refl ..))) (.refl ..)

theorem Tx.onTime_keeps (t : Tx s0) (c : ℕ) : Keeps [.all 0x5E10 [0x05, 0x13]] [.pool] t.cur (t.onTime c).cur := by
  dsimp only [Tx.onTime]
  exact .ite (.step (Tx.setChainSt_keeps ..) (.refl ..)) (.ite (.step (Tx.setChainSt_keeps ..) (.refl ..)) (.flagBit (.w
      (.step (Tx.setChainSt_keeps ..) (.refl ..)))))

theorem Tx.modEnable_keeps (t : Tx s0) : Keeps [.all 0x5A00 [0x06]] [.outs, .hedge] t.cur t.modEnable.cur := by
  dsimp only [Tx.modEnable]
  exact .ite (.refl ..) (.emit (.setHedge (.w (.refl ..))))

theorem Tx.correctionStop_keeps (t : Tx s0) : Keeps [.all 0x3800 [0x0A, 0x0B, 0x0C, 0x0D, 0x0E, 0x0F]] [.corr] t.cur
      t.correctionStop.cur := by
  dsimp only [Tx.correctionStop]
  refine .setCorr (.each (fun t x => .step (Tx.showGrafts_keeps ..) (.w (.step (Tx.setChain_keeps ..) (?_)))) (.refl ..))
  split
  · exact .step (Tx.graftMsg_keeps ..) (.refl ..)
  · exact .refl ..

theorem Tx.mapsStop_keeps (t : Tx s0) : Keeps [.all 0x3E00 [0x02]] [.maps] t.cur t.mapsStop.cur := by
  dsimp only [Tx.mapsStop]
  refine .setMaps (.each (fun t x => ?_) (.refl ..))
  split
  · exact .w (.step (Tx.setDest_keeps ..) (.refl ..))
  · exact .step (Tx.setDest_keeps ..) (.refl ..)

theorem Tx.recount_keeps (t : Tx s0) (f0 : ℕ) (f1 : ℕ) : Keeps [.all 0x3410 [0x03, 0x04, 0x07], .all 0x3800 [0x0A,
      0x0B, 0x0C, 0x0D, 0x0E, 0x0F], .all 0x3E00 [0x02]] [.clock, .render, .corr, .maps, .serial, .sprk, .hedge, .meas,
      .pool] t.cur (t.recount f0 f1).cur := by
  dsimp only [Tx.recount]
  exact .step (Tx.correctionStop_keeps ..) (.step (Tx.mapsStop_keeps ..) (.each (fun _ _ => .step (Tx.showPending_keeps
      ..) (.refl ..)) (.setRender (.setSerial (.setPool (.setSprk (.setHedge (.setMeas (.tick (.refl ..))))))))))

theorem Tx.showPaths_keeps (t : Tx s0) (i : ℕ) (b : Bool × Bool) : Keeps [.all 0x4A00 [0x1F]] [] t.cur (t.showPaths i
      b).cur := by
  dsimp only [Tx.showPaths]
  exact .w (.refl ..)

theorem Tx.measClear_keeps (t : Tx s0) (k : ℕ) : Keeps [.all 0x5D10 [0x05, 0x06, 0x07, 0x08, 0x09, 0x0B]] [] t.cur
      (t.measClear k).cur := by
  dsimp only [Tx.measClear]
  exact .wb (.w (.w (.w (.w (.w (.refl ..))))))

theorem Tx.abortRun_keeps (t : Tx s0) : Keeps [.all 0x5D00 [0x0B, 0x0D, 0x14], .all 0x5D10 [0x04, 0x05, 0x06, 0x07,
      0x08, 0x09, 0x0A, 0x0B, 0x0C, 0x0D], .all 0x5F00 [0x04], .all 0x5F10 [0x01, 0x02, 0x03, 0x04, 0x05, 0x06, 0x07, 0x08,
      0x09]] [.meas, .pool] t.cur t.abortRun.cur := by
  dsimp only [Tx.abortRun]
  split
  · exact .refl ..
  · exact .flagBit (.w (.w (.each (fun _ _ => .w (.wb (.wb (.step (Tx.measClear_keeps ..) (.w (.refl ..)))))) (.step
        (Tx.taskFree_keeps ..) (.setMeas (.refl ..))))))

theorem rateRule_keeps (d : Bytes) (t : Tx s0) : Keeps [.all 0x5000 [0x04, 0x0B]] [.result, .time] t.cur (rateRule d
      t).cur := by
  dsimp only [rateRule]
  exact .ite (.status (.refl ..)) (.step (Tx.setRho_keeps ..) (.refl ..))

theorem Tx.bankLoad_keeps (t : Tx s0) (b : ℕ) (tc : ℕ) (m : ℕ) : Keeps [.all 0x3C00 [0x05, 0x06, 0x0C]] [.maps] t.cur
      (t.bankLoad b tc m).cur := by
  dsimp only [Tx.bankLoad]
  exact .msg (.flagBit (.w (.w (.setMaps (.refl ..)))))

theorem Tx.bankDue_keeps (t : Tx s0) (m : ℕ) : Keeps [.all 0x3C00 [0x05, 0x06, 0x0C]] [.maps, .ctl] t.cur (t.bankDue
      m).cur := by
  dsimp only [Tx.bankDue]
  split
  · exact .ite (.refl ..) (.setCtl (.step (Tx.bankLoad_keeps ..) (.refl ..)))
  · exact .refl ..

theorem Tx.commitDone_keeps (t : Tx s0) (c : Commit) (m : ℕ) : Keeps [.all 0x1300 [0x03, 0x04, 0x08, 0x0B], .all 0x1301
      [0x05], .ctr 8 8] [.ctl] t.cur (t.commitDone c m).cur := by
  dsimp only [Tx.commitDone]
  exact .msg (.w (.flagBit (.tally (.w (.w (.setCtl (.setHost (.refl ..))))))))

theorem Tx.powerTo_keeps (t : Tx s0) (st : ℕ) (cause : ℕ) : Keeps [.all 0x6500 [0x01, 0x06, 0x09, 0x14]] [.power] t.cur
      (t.powerTo st cause).cur := by
  dsimp only [Tx.powerTo]
  exact .ite (.refl ..) (.msg (.w (.tally (.w (.w (.setPower (.refl ..)))))))

theorem Tx.ownersTo_keeps (t : Tx s0) (tabs : List (ℕ × Bytes)) :
    Keeps [.all 0x1100 [], .all 0x1400 [0x02, 0x07, 0x08]] [.result, .ctl, .store] t.cur (t.ownersTo tabs).cur := by
  dsimp only [Tx.ownersTo]
  exact .ite (.status (.refl ..)) (.step (Tx.askSave_keeps ..) (.each (fun _ _ => .wbKey (.refl ..) .whole)
    (.each (fun _ _ => .setHost (.refl ..)) (.refl ..))))

theorem assignRule_keeps (d : Bytes) (t : Tx s0) : Keeps [.all 0x1100 [], .all 0x1400 [0x02, 0x07, 0x08]] [.result,
      .ctl, .store] t.cur (assignRule d t).cur := by
  dsimp only [assignRule]
  refine .ite (.status (.refl ..)) (?_)
  split
  · exact .status (.refl ..)
  · exact .step (Tx.ownersTo_keeps ..) (.refl ..)

theorem bankRule_keeps (sub : ℕ) (d : Bytes) (t : Tx s0) : Keeps [] [.result, .maps] t.cur (bankRule sub d t).cur := by
  dsimp only [bankRule]
  exact .ite (.status (.refl ..)) (.setMaps (.refl ..))

theorem Tx.charge_keeps (t : Tx s0) (i : ℕ) (X : ℕ) (cycles : ℕ) : Keeps [.all 0x5E01 [0x06]] [.pool] t.cur (t.charge i
      X cycles).cur := by
  dsimp only [Tx.charge]
  exact .peak (.setPool (.refl ..))

theorem Tx.arpGratuitous_keeps (t : Tx s0) (m : ℕ) : Keeps [.all 0x4800 [0x0B, 0x16, 0x17], .all 0x4900 [0x02, 0x04],
      .all 0x4C00 [0x15, 0x19, 0x1B], .all 0x5001 [0x19, 0x1B], .all 0x5010 [0x03], .all 0x5300 [0x01, 0x02, 0x03, 0x04,
      0x06], .ctr 118 123, .ctr 140 140, .ctr 141 141] [.outs, .net, .time] t.cur (t.arpGratuitous m).cur := by
  dsimp only [Tx.arpGratuitous]
  exact .ite (.refl ..) (.step (Tx.arpAsk_keeps ..) (.refl ..))

theorem addressRule_keeps (m : ℕ) (d : Bytes) (t : Tx s0) : Keeps [.all 0x4800 [0x0B, 0x16, 0x17], .all 0x4900 [0x02,
      0x04], .all 0x4C00 [0x14, 0x15, 0x19, 0x1B], .all 0x4F00 [0x01, 0x08], .all 0x5001 [0x19, 0x1B], .all 0x5010 [0x03],
      .all 0x5300 [0x01, 0x02, 0x03, 0x04, 0x06], .ctr 118 123, .ctr 140 140, .ctr 141 141] [.outs, .net, .time] t.cur
      (addressRule m d t).cur := by
  dsimp only [addressRule]
  exact .each (fun _ _ => .ite (.step (Tx.txTo_keeps ..) (.step (Tx.txTo_keeps ..) (.refl ..))) (.step (Tx.txAsk_keeps
      ..) (.step (Tx.txTo_keeps ..) (.refl ..)))) (.each (fun _ _ => .step (Tx.igmpJoin_keeps ..) (.refl ..)) (.step
      (Tx.arpGratuitous_keeps ..) (.w (.step (Tx.setMac_keeps ..) (.w (.refl ..))))))

theorem Tx.ageingShow_keeps (t : Tx s0) : Keeps [.all 0x6600 [0x04, 0x05, 0x06, 0x0C, 0x0D, 0x15]] [] t.cur
      t.ageingShow.cur := by
  dsimp only [Tx.ageingShow]
  exact .when (fun _ => .flagBit (.refl ..)) (.w (.w (.w (.w (.w (.refl ..))))))

theorem Tx.mediaPacket_keeps (t : Tx s0) (i : ℕ) (path : ℕ) (ns : ℕ) (p : Bytes) : Keeps [.all 0x4A00 [0x12, 0x14,
      0x15, 0x16, 0x18, 0x19, 0x1A, 0x1C, 0x1E, 0x1F, 0x21]] [.net] t.cur (t.mediaPacket i path ns p).cur := by
  dsimp only [Tx.mediaPacket]
  refine .ite (.refl ..) (.ite (.tally (.refl ..)) (.ite (.step (Tx.rxMsg_keeps ..) (.flagBit (.tally (.refl ..)))) (.ite
      (.step (Tx.rxMsg_keeps ..) (.flagBit (.tally (.refl ..)))) (.ite (.tally (?_)) (.ite (.step (Tx.rxTo_keeps ..) (.when
      (fun _ => .flagBit (.refl ..)) (.step (Tx.setRx_keeps ..) (.step (Tx.setRx_keeps ..) (.w (.tally (.when (fun _ =>
      .flagBit (.refl ..)) (?_)) (by split <;> decide))))))) (.step (Tx.setRx_keeps ..) (.w (.tally (.when (fun _ => .flagBit
      (.refl ..)) (?_)) (by split <;> decide)))))))))
  · split
    · refine .step (Tx.putBack_keeps ..) (?_)
      split
      · exact .w (.step (Tx.showPaths_keeps ..) (.step (Tx.setRx_keeps ..) (.refl ..)))
      · exact .step (Tx.showPaths_keeps ..) (.step (Tx.setRx_keeps ..) (.refl ..))
    · split
      · exact .w (.step (Tx.showPaths_keeps ..) (.step (Tx.setRx_keeps ..) (.refl ..)))
      · exact .step (Tx.showPaths_keeps ..) (.step (Tx.setRx_keeps ..) (.refl ..))
  · split
    · refine .step (Tx.putBack_keeps ..) (?_)
      split
      · exact .w (.step (Tx.showPaths_keeps ..) (.step (Tx.setRx_keeps ..) (.refl ..)))
      · exact .step (Tx.showPaths_keeps ..) (.step (Tx.setRx_keeps ..) (.refl ..))
    · split
      · exact .w (.step (Tx.showPaths_keeps ..) (.step (Tx.setRx_keeps ..) (.refl ..)))
      · exact .step (Tx.showPaths_keeps ..) (.step (Tx.setRx_keeps ..) (.refl ..))
  · split
    · refine .step (Tx.putBack_keeps ..) (?_)
      split
      · exact .w (.step (Tx.showPaths_keeps ..) (.step (Tx.setRx_keeps ..) (.refl ..)))
      · exact .step (Tx.showPaths_keeps ..) (.step (Tx.setRx_keeps ..) (.refl ..))
    · split
      · exact .w (.step (Tx.showPaths_keeps ..) (.step (Tx.setRx_keeps ..) (.refl ..)))
      · exact .step (Tx.showPaths_keeps ..) (.step (Tx.setRx_keeps ..) (.refl ..))

theorem Tx.arrivals_keeps (t : Tx s0) (x : Stim) (c : Cap) : Keeps [.all 0x5D10 [0x0A]] [.free] t.cur (t.arrivals x
      c).cur := by
  dsimp only [Tx.arrivals]
  exact .wb (.foldSnd (fun _ _ => .step (Tx.arrivalWord_keeps ..) (.refl ..)) (.refl ..))

theorem Tx.sysSave_keeps (t : Tx s0) : Keeps [] [.power] t.cur t.sysSave.cur := by
  dsimp only [Tx.sysSave]
  exact .ite (.refl ..) (.setPower (.refl ..))

theorem State.imageTarget_le (s : State) : s.imageTarget ≤ 1 := by
  unfold State.imageTarget
  split <;> omega

theorem Tx.imageErase_keeps (t : Tx s0) : Keeps [.all 0x6400 [0x03, 0x04, 0x05]] [.power] t.cur t.imageErase.cur := by
  dsimp only [Tx.imageErase]
  exact .step (Tx.sysSave_keeps ..) (Tx.imageGone_keeps _ _ (State.imageTarget_le _))

theorem Tx.imageRefuse_keeps (t : Tx s0) (slot : ℕ) (reason : ℕ) (hi : slot ≤ 1 := by omega) : Keeps [.all 0x6400
      [0x03, 0x04, 0x05, 0x0C, 0x13]] [.result, .power] t.cur (t.imageRefuse slot reason).cur := by
  dsimp only [Tx.imageRefuse]
  exact .status (.flagBit (.step (Tx.sysSave_keeps ..) (.w (.step (Tx.imageGone_keeps ..) (.refl ..)))))

theorem Tx.replyIn_keeps (t : Tx s0) (room : ℕ) (d : Bytes) : Keeps [] [.result] t.cur (t.replyIn room d).cur := by
  dsimp only [Tx.replyIn]
  exact .ite (.status (.refl ..)) (.reply (.refl ..))

theorem Tx.blobNow_keeps (t : Tx s0) (h : ℕ) (o : OpFields) (bad : List ℕ) : Keeps [.all 0x5D80 [0x0D], .all 0x6200
      [0x19, 0x1B, 0x21], .ctr 247 247] [.result, .free] t.cur (t.blobNow h o bad).2.cur := by
  dsimp only [Tx.blobNow]
  exact .iteSnd (.iteSnd (.status (.refl ..)) (.each (fun _ _ => .step (Tx.dramBad_keeps ..) (.fresh (.refl ..))) (.when
      (fun _ => .flagBit (.refl ..)) (.refl ..)))) (.refl ..)

theorem Tx.readBlob_keeps (t : Tx s0) (h : ℕ) (o : OpFields) (bad : List ℕ) (off : ℕ) (most : Option ℕ) (room : ℕ) :
      Keeps [.all 0x5D80 [0x0D], .all 0x6200 [0x19, 0x1B, 0x21], .ctr 247 247] [.result, .free, .ctl] t.cur (t.readBlob h o
      bad off most room).cur := by
  dsimp only [Tx.readBlob]
  refine .ite (?_) (.ite (.status (?_)) (.ite (.status (?_)) (.reply (.ite (?_) (.setHost (?_))))))
  · split
    · exact .ite (.refl ..) (.setHost (.refl ..))
    · exact .step (Tx.blobNow_keeps ..) (.status (.ite (.refl ..) (.setHost (.refl ..))))
  · split
    · exact .ite (.refl ..) (.setHost (.refl ..))
    · exact .step (Tx.blobNow_keeps ..) (.status (.ite (.refl ..) (.setHost (.refl ..))))
  · split
    · exact .ite (.refl ..) (.setHost (.refl ..))
    · exact .step (Tx.blobNow_keeps ..) (.status (.ite (.refl ..) (.setHost (.refl ..))))
  · split
    · exact .ite (.refl ..) (.setHost (.refl ..))
    · exact .step (Tx.blobNow_keeps ..) (.status (.ite (.refl ..) (.setHost (.refl ..))))
  · split
    · exact .ite (.refl ..) (.setHost (.refl ..))
    · exact .step (Tx.blobNow_keeps ..) (.status (.ite (.refl ..) (.setHost (.refl ..))))

theorem Tx.pathEvaluate_keeps (t : Tx s0) (n : ℕ) : Keeps [.all 0x3F01 []] [] t.cur (t.pathEvaluate n).cur := by
  dsimp only [Tx.pathEvaluate]
  exact .each (fun _ _ => .wKey (.refl ..) .whole) (.refl ..)

theorem Tx.readOp_keeps (t : Tx s0) (h : ℕ) (o : OpFields) (bad : List ℕ) (room : ℕ) : Keeps [.all 0x3F01 [], .all
      0x5D80 [0x0D], .all 0x6200 [0x19, 0x1B, 0x21], .ctr 247 247] [.result, .free, .ctl] t.cur (t.readOp h o bad room).cur
      := by
  dsimp only [Tx.readOp]
  refine .ite (.status (.refl ..)) (.ite (.status (.refl ..)) (?_))
  split
  · exact .status (.refl ..)
  · split
    · exact .step (Tx.replyIn_keeps ..) (.refl ..)
    · split
      · exact .step (Tx.readBlob_keeps ..) (.refl ..)
      · exact .step (Tx.replyIn_keeps ..) (.refl ..)
      · exact .step (Tx.replyIn_keeps ..) (.when (fun _ => .step (Tx.pathEvaluate_keeps ..) (.refl ..)) (.refl ..))
      · exact .step (Tx.replyIn_keeps ..) (.when (fun _ => .step (Tx.pathEvaluate_keeps ..) (.refl ..)) (.refl ..))
      · exact .step (Tx.replyIn_keeps ..) (.when (fun _ => .step (Tx.pathEvaluate_keeps ..) (.refl ..)) (.refl ..))
      · exact .step (Tx.replyIn_keeps ..) (.when (fun _ => .step (Tx.pathEvaluate_keeps ..) (.refl ..)) (.refl ..))
      · exact .step (Tx.replyIn_keeps ..) (.when (fun _ => .step (Tx.pathEvaluate_keeps ..) (.refl ..)) (.refl ..))
      · exact .step (Tx.replyIn_keeps ..) (.when (fun _ => .step (Tx.pathEvaluate_keeps ..) (.refl ..)) (.refl ..))
      · exact .step (Tx.replyIn_keeps ..) (.when (fun _ => .step (Tx.pathEvaluate_keeps ..) (.refl ..)) (.refl ..))
      · exact .step (Tx.replyIn_keeps ..) (.when (fun _ => .step (Tx.pathEvaluate_keeps ..) (.refl ..)) (.refl ..))
      · exact .step (Tx.replyIn_keeps ..) (.when (fun _ => .step (Tx.pathEvaluate_keeps ..) (.refl ..)) (.refl ..))
      · exact .step (Tx.replyIn_keeps ..) (.when (fun _ => .step (Tx.pathEvaluate_keeps ..) (.refl ..)) (.refl ..))

theorem Tx.reportOutput_keeps (t : Tx s0) (k : ℕ) (sprigs : List SprigBlock) (sums : List (ℤ × Bool)) : Keeps [.all
      0x3400 [0x0E, 0x0F, 0x11], .all 0x3500 [0x01, 0x02, 0x03, 0x04, 0x05, 0x06], .ctr 255 255] [] t.cur (t.reportOutput k
      sprigs sums).cur := by
  dsimp only [Tx.reportOutput]
  exact .when (fun _ => .flagBit (.flagBit (.count (.count (.refl ..))))) (.when (fun _ => .flagBit (.flagBit (.count
      (.count (.refl ..))))) (.w (.w (.w (.refl ..)))))

theorem compRule_keeps (m : ℕ) (d : Bytes) (t : Tx s0) : Keeps [.all 0x5C10 [0x07, 0x0B, 0x10]] [.result, .meas] t.cur
      (compRule m d t).cur := by
  dsimp only [compRule]
  exact .ite (.status (.refl ..)) (.ite (.status (.refl ..)) (.when (fun _ => .w (.refl ..)) (.step (Tx.setMic_keeps ..)
      (.when (fun _ => .flagBit (.refl ..)) (.wb (.refl ..))))))

theorem Tx.repay_keeps (t : Tx s0) : Keeps [.all 0x6200 [0x03]] [.mem] t.cur t.repay.cur := by
  dsimp only [Tx.repay]
  exact .step (Tx.refreshes_keeps ..) (.setMem (.refl ..))

theorem Tx.selfRefresh_keeps (t : Tx s0) : Keeps [.all 0x6200 [0x01, 0x03, 0x1E]] [.mem] t.cur t.selfRefresh.cur := by
  dsimp only [Tx.selfRefresh]
  exact .w (.tally (.each (fun _ _ => .step (Tx.modSub_keeps ..) (.step (Tx.issue_keeps ..) (.refl ..))) (.step
      (Tx.repay_keeps ..) (.refl ..))))

theorem pushRule_keeps (h : ℕ) (data : Bytes) (t : Tx s0) : Keeps [.all 0x2000 [0x14, 0x15, 0x16, 0x17], .all 0x2401
      [0x01, 0x02, 0x03, 0x04, 0x05, 0x06, 0x07, 0x08, 0x09, 0x0A, 0x0B, 0x0C], .all 0x2800 [0x0E, 0x11], .all 0x4800 [0x0B,
      0x16, 0x17], .all 0x4900 [0x02, 0x04], .all 0x4C00 [0x15, 0x19, 0x1B], .all 0x5001 [0x19, 0x1B], .all 0x5010 [0x03],
      .all 0x5300 [0x01, 0x02, 0x03, 0x04, 0x06], .all 0x5400 [0x10, 0x17], .ctr 3 3, .ctr 118 123, .ctr 140 140, .ctr 141
      141] [.result, .outs, .scene, .net, .time, .sprk] t.cur (pushRule h data t).cur := by
  dsimp only [pushRule]
  refine .ite (.status (.refl ..)) (?_)
  split
  · exact .status (.when (fun _ => .step (Tx.sprkData_keeps ..) (.refl ..)) (.flag (.inc (.w (.w (.w (.w (.w (.w (.w (.w
        (.w (.w (.step (Tx.pushAll_keeps ..) (.refl ..)))))))))))))))
  · exact .status (.when (fun _ => .step (Tx.sprkData_keeps ..) (.refl ..)) (.flag (.inc (.w (.w (.w (.w (.w (.w (.w (.w
        (.w (.w (.step (Tx.pushAll_keeps ..) (.refl ..)))))))))))))))

theorem Tx.accept_keeps (t : Tx s0) (m : ℕ) : Keeps [.all 0x4800 [0x0A], .all 0x5010 [0x03], .ctr 112 117] [] t.cur
      (t.accept m).cur := by
  dsimp only [Tx.accept]
  exact .inc (.tally (.refl ..))

theorem eraseRule_keeps (f : ℕ) (t : Tx s0) : Keeps [.all 0x3A00 [0x01, 0x03, 0x04, 0x05, 0x06]] [.result] t.cur
      (eraseRule f t).cur := by
  dsimp only [eraseRule]
  exact .ite (.status (.refl ..)) (.w (.w (.w (.w (.wb (.refl ..))))))

theorem Tx.sprkDrain_keeps (fuel : ℕ) (t : Tx s0) : Keeps [.all 0x2000 [0x14, 0x15, 0x16, 0x17], .all 0x2800 [0x0E,
      0x11], .all 0x5400 [0x10, 0x11, 0x16, 0x17, 0x1C], .ctr 3 3, .ctr 11 11] [.scene, .sprk] t.cur (t.sprkDrain fuel).cur
      := by
  induction fuel generalizing t with
  | zero =>
    dsimp only [Tx.sprkDrain]
    exact .refl ..
  | succ n ih =>
    dsimp only [Tx.sprkDrain]
    split
    · exact .trans (.step (Tx.sprkProcess_keeps ..) (.step (Tx.sprkSet_keeps ..) (.refl ..))) (ih ..)
    · exact .refl ..

theorem Tx.sprkSettle_keeps (t : Tx s0) : Keeps [.all 0x2000 [0x14, 0x15, 0x16, 0x17], .all 0x2800 [0x0E, 0x11], .all
      0x5400 [0x0D, 0x10, 0x11, 0x16, 0x17, 0x1C], .ctr 3 3, .ctr 11 11] [.scene, .sprk] t.cur t.sprkSettle.cur := by
  dsimp only [Tx.sprkSettle]
  split
  · exact .step (Tx.sprkTo_keeps ..) (.step (Tx.sprkSet_keeps ..) (.step (Tx.sprkSet_keeps ..) (.step (Tx.sprkDrain_keeps
        ..) (.refl ..))))
  · exact .step (Tx.sprkTo_keeps ..) (.step (Tx.sprkSet_keeps ..) (.step (Tx.sprkSet_keeps ..) (.step (Tx.sprkDrain_keeps
        ..) (.refl ..))))

theorem Tx.tryHeld_keeps (t : Tx s0) (first : List ℕ) : Keeps [.all 0x5E00 [0x01], .all 0x5E01 [0x01, 0x02, 0x03, 0x04,
      0x05, 0x07, 0x08, 0x09], .all 0x5E10 [0x05, 0x06, 0x07, 0x08, 0x09, 0x0A, 0x0B, 0x13], .all 0x5F00 [0x04], .all 0x5F10
      [0x01, 0x02, 0x03, 0x04, 0x05], ⟨0x6510, 0x65C7, none, [0x01, 0x02]⟩] [.pool] t.cur (t.tryHeld first).cur := by
  dsimp only [Tx.tryHeld]
  exact .each (fun _ _ => .ite (.refl ..) (.ite (.step (Tx.place_keeps ..) (.refl ..)) (.when (fun _ => .flagBit (.refl
      ..)) (.refl ..)))) (.refl ..)

theorem ownerRule_keeps (sub : ℕ) (d : Bytes) (t : Tx s0) : Keeps [.all 0x1100 [], .all 0x1400 [0x02, 0x07, 0x08]]
      [.result, .ctl, .store] t.cur (ownerRule sub d t).cur := by
  dsimp only [ownerRule]
  exact .ite (.status (.refl ..)) (.step (Tx.ownersTo_keeps ..) (.refl ..))

theorem discardRule_keeps (n : ℕ) (t : Tx s0) : Keeps [] [.result, .ctl] t.cur (discardRule n t).cur := by
  dsimp only [discardRule]
  exact .ite (.status (.refl ..)) (.setHost (.refl ..))

theorem cancelRule_keeps (t : Tx s0) : Keeps [.all 0x1300 [0x03, 0x04, 0x0A], .all 0x3000 [0x0B, 0x0C, 0x0D], .all
      0x3100 [0x04], .all 0x3200 [0x04]] [.result, .ctl] t.cur (cancelRule t).cur := by
  dsimp only [cancelRule]
  split
  · exact .status (.refl ..)
  · exact .ite (.step (Tx.cancelCommit_keeps ..) (.refl ..)) (.status (.refl ..))

theorem bulkRule_keeps (k : ℕ) (d : Bytes) (t : Tx s0) : Keeps [.all 0x3800 [0x02]] [.corr] t.cur (bulkRule k d t).cur := by
  dsimp only [bulkRule]
  exact .step (Tx.setChain_keeps ..) (.w (.refl ..))

theorem Tx.poolSettle_keeps (t : Tx s0) : Keeps [.all 0x5E00 [0x07, 0x0C], .all 0x5E10 [0x05, 0x0D, 0x13], .all 0x5F00
      [0x06, 0x09], .all 0x5F10 [0x08], .ctr 224 239, .ctr 244 244] [.pool] t.cur t.poolSettle.cur := by
  dsimp only [Tx.poolSettle]
  refine .each (fun _ _ => .step (Tx.coalesce_keeps ..) (.refl ..)) (.each (fun t x => ?_) (.each (fun _ _ => .step
      (Tx.taskCoalesce_keeps ..) (.refl ..)) (.refl ..)))
  split
  · exact .ite (.refl ..) (.setPool (.step (Tx.setTask_keeps ..) (.refl ..)))
  · exact .refl ..

theorem Tx.setIn_keeps (t : Tx s0) (n : ℕ) (x : InMap) : Keeps [] [.maps] t.cur (t.setIn n x).cur := by
  dsimp only [Tx.setIn]
  exact .setMaps (.refl ..)

theorem Tx.inChoose_keeps (t : Tx s0) (n : ℕ) (B : ℕ) (x : InMap) (pg : Bool) (sg : Bool) (mw : Bool) : Keeps [.all
      0x3D00 [0x05, 0x0B, 0x0C, 0x0D], .ctr 10 10] [.maps, .meas] t.cur (t.inChoose n B x pg sg mw).cur := by
  dsimp only [Tx.inChoose]
  exact .ite (.w (.step (Tx.setIn_keeps ..) (.refl ..))) (.msg (.when (fun _ => .step (Tx.freezeOn_keeps ..) (.refl ..))
      (.when (fun _ => .flag (.refl ..)) (.w (.tally (.w (.step (Tx.setIn_keeps ..) (.refl ..))))))))

theorem Tx.inBoundary_keeps (t : Tx s0) (n : ℕ) (B : ℕ) : Keeps [.all 0x3D00 [0x05, 0x06, 0x07, 0x0B, 0x0C, 0x0D], .ctr
      10 10] [.maps, .meas] t.cur (t.inBoundary n B).cur := by
  dsimp only [Tx.inBoundary]
  exact .ite (.step (Tx.setIn_keeps ..) (.w (.w (.refl ..)))) (.step (Tx.inChoose_keeps ..) (.w (.w (.refl ..))))

theorem repackRule_keeps (t : Tx s0) : Keeps [.all 0x3400 [0x07]] [.result, .render] t.cur (repackRule t).cur := by
  dsimp only [repackRule]
  exact .ite (.status (.refl ..)) (.w (.setRender (.refl ..)))

theorem Tx.renderBlock_keeps (t : Tx s0) (B : ℕ) (cells : List ℕ) (words : List ℕ) : Keeps [.all 0x3400 [0x01, 0x02,
      0x0C, 0x0D, 0x0E, 0x0F, 0x10, 0x11], .all 0x3410 [0x08, 0x09, 0x0A, 0x0B], .all 0x3500 [0x01, 0x02, 0x03, 0x04, 0x05,
      0x06], .all 0x6100 [0x03, 0x05, 0x09], .ctr 0 0, .ctr 249 249, .ctr 255 255] [.geo, .render] t.cur (t.renderBlock B
      cells words).cur := by
  dsimp only [Tx.renderBlock]
  exact .msg (.w (.tally (.setRender (.each (fun _ _ => .step (Tx.reportObject_keeps ..) (.each (fun _ _ => .step
      (Tx.sramBad_keeps ..) (.refl ..)) (.refl ..))) (.each (fun _ _ => .step (Tx.reportOutput_keeps ..) (.refl ..)) (.each
      (fun _ _ => .step (Tx.reportOutput_keeps ..) (.refl ..)) (.step (Tx.badTargets_keeps ..) (.refl ..))))))))

theorem Tx.setTarget_keeps (t : Tx s0) (n : ℕ) (target : ℕ) : Keeps [.all 0x5100 [0x07]] [.time] t.cur (t.setTarget n
      target).cur := by
  dsimp only [Tx.setTarget]
  exact .w (.setTime (.refl ..))

theorem Tx.pauseFrame_keeps (t : Tx s0) (m : ℕ) (quanta : ℕ) : Keeps [.all 0x4800 [0x0B, 0x13, 0x16, 0x17], .all 0x4900
      [0x02, 0x04], .all 0x4C00 [0x15, 0x19, 0x1B], .all 0x5001 [0x19, 0x1B], .all 0x5010 [0x03], .all 0x5300 [0x01, 0x02,
      0x03, 0x04, 0x06], .ctr 118 123, .ctr 140 140, .ctr 141 141] [.outs, .net, .time] t.cur (t.pauseFrame m quanta).cur :=
      by
  dsimp only [Tx.pauseFrame]
  exact .ite (.tally (.step (Tx.macRun_keeps ..) (.refl ..))) (.step (Tx.setMac_keeps ..) (.tally (.step (Tx.macRun_keeps
      ..) (.refl ..))))

theorem Tx.hedgePinsFree_keeps (t : Tx s0) : Keeps [] [.outs] t.cur t.hedgePinsFree.cur := by
  dsimp only [Tx.hedgePinsFree]
  exact .emit (.emit (.emit (.refl ..)))

theorem Tx.resetPins_keeps (t : Tx s0) : Keeps [.all 0x6500 [0x11, 0x12], .all 0x6A00 [0x1E]] [.outs] t.cur
      t.resetPins.cur := by
  dsimp only [Tx.resetPins]
  exact .step (Tx.supplyEn_keeps ..) (.step (Tx.bypassN_keeps ..) (.step (Tx.hedgePinsFree_keeps ..) (.w (.emit (.each
      (fun _ _ => .emit (.refl ..)) (.each (fun _ _ => .emit (.refl ..)) (.refl ..)))))))

theorem Tx.ipFrame_keeps (t : Tx s0) (m : ℕ) (ns : ℕ) (p : Bytes) (f : Bytes) : Keeps [.all 0x4800 [0x0A, 0x0B, 0x0C,
      0x0D, 0x0E, 0x0F, 0x10, 0x11, 0x12, 0x16, 0x17], .all 0x4900 [0x02, 0x04], .all 0x4A00 [0x12, 0x14, 0x15, 0x16, 0x18,
      0x19, 0x1A, 0x1C, 0x1E, 0x1F, 0x21], .all 0x4C00 [0x14, 0x15, 0x19, 0x1B], .all 0x4E00 [0x03, 0x04, 0x05, 0x06, 0x07],
      .all 0x4F00 [0x08, 0x0A, 0x0B, 0x0C], .all 0x5001 [0x19, 0x1B], .all 0x5010 [0x03], .all 0x5300 [0x01, 0x02, 0x03,
      0x04, 0x06], .ctr 112 117, .ctr 118 123, .ctr 124 129, .ctr 130 133, .ctr 140 140, .ctr 141 141] [.outs, .net, .time]
      t.cur (t.ipFrame m ns p f).cur := by
  dsimp only [Tx.ipFrame]
  refine .ite (?_) (.ite (.step (Tx.ring3_keeps ..) (.step (Tx.accept_keeps ..) (.refl ..))) (.ite (.step (Tx.ring3_keeps
      ..) (.step (Tx.accept_keeps ..) (.refl ..))) (.step (Tx.frameDrop_keeps ..) (.refl ..))))
  split
  · exact .step (Tx.mediaPacket_keeps ..) (.step (Tx.accept_keeps ..) (.refl ..))
  · exact .ite (.step (Tx.ptpDrain_keeps ..) (.step (Tx.toRing_keeps ..) (.step (Tx.accept_keeps ..) (.refl ..)))) (.ite
        (.step (Tx.toRing_keeps ..) (.step (Tx.accept_keeps ..) (.refl ..))) (.ite (.step (Tx.toRing_keeps ..) (.step
        (Tx.accept_keeps ..) (.refl ..))) (.step (Tx.frameDrop_keeps ..) (.refl ..))))

theorem offsetRule_keeps (d : Bytes) (t : Tx s0) : Keeps [.all 0x5000 [0x1C]] [.result, .engines] t.cur (offsetRule d
      t).cur := by
  dsimp only [offsetRule]
  exact .ite (.status (.flagBit (.refl ..))) (.step (Tx.askStep_keeps ..) (.refl ..))

theorem Tx.taskEvents_keeps (t : Tx s0) (n : ℕ) (flags : List ℕ) : Keeps [] [.pool] t.cur (t.taskEvents n flags).cur := by
  dsimp only [Tx.taskEvents]
  exact .taskSee (fun _ => .each (fun _ _ => .ite (.step (Tx.setTask_keeps ..) (.refl ..)) (.step (Tx.setTask_keeps ..)
      (.refl ..))) (.refl ..)) (.refl ..)

theorem Tx.freeze_keeps (t : Tx s0) (cause : ℕ) (f : ℕ) : Keeps [.all 0x5D80 [0x06, 0x0C, 0x0D]] [.meas] t.cur
      (t.freeze cause f).cur := by
  dsimp only [Tx.freeze]
  split
  · exact .refl ..
  · exact .w (.setMeas (.refl ..))
  · exact .flagBit (.inc (.refl ..))

theorem Tx.analyse_keeps (t : Tx s0) (r : Align) (c : Cap) : Keeps [.all 0x5D00 [0x0E], .all 0x5D10 [0x04, 0x05, 0x06,
      0x07, 0x08, 0x09, 0x0A, 0x0B, 0x0C]] [.free, .meas] t.cur (t.analyse r c).cur := by
  dsimp only [Tx.analyse]
  refine .setMeas (.w (.step (Tx.impedance_keeps ..) (.step (Tx.arrivals_keeps ..) (?_))))
  split
  · exact .step (Tx.reference_keeps ..) (.step (Tx.measClear_keeps ..) (.w (.refl ..)))
  · exact .step (Tx.measClear_keeps ..) (.w (.refl ..))

theorem Tx.modDown_keeps (t : Tx s0) (c : ℕ) (why : ℕ) : Keeps [] [.outs, .hedge] t.cur (t.modDown c why).cur := by
  dsimp only [Tx.modDown]
  split
  · exact .ite (.step (Tx.setMod_keeps ..) (.step (Tx.modNow_keeps ..) (.refl ..))) (.step (Tx.setMod_keeps ..) (.step
        (Tx.modNow_keeps ..) (.refl ..)))
  · exact .step (Tx.setMod_keeps ..) (.step (Tx.modNow_keeps ..) (.refl ..))

theorem Tx.modsDown_keeps (t : Tx s0) : Keeps [] [.outs, .hedge] t.cur t.modsDown.cur := by
  dsimp only [Tx.modsDown]
  exact .each (fun _ _ => .ite (.step (Tx.modDown_keeps ..) (.refl ..)) (.refl ..)) (.setHedge (.refl ..))

theorem Tx.hedgeHold_keeps (t : Tx s0) : Keeps [] [.outs, .hedge, .power] t.cur t.hedgeHold.cur := by
  dsimp only [Tx.hedgeHold]
  exact .step (Tx.modsDown_keeps ..) (.setPower (.refl ..))

theorem Tx.showBanks_keeps (t : Tx s0) : Keeps [⟨0x6510, 0x65C7, none, [0x01, 0x02]⟩] [] t.cur t.showBanks.cur := by
  dsimp only [Tx.showBanks]
  refine .step (Tx.coreBanks_keeps ..) (.eachMem (fun t b hb => Tx.bankTo_keeps _ _ _ ?_) (.refl ..))
  have : ∀ b ∈ List.range 96 ++ range' 112 16, b < 0xB8 := by decide
  exact this b hb

theorem Tx.thermalShutdown_keeps (t : Tx s0) : Keeps [.all 0x6500 [0x01, 0x03, 0x06, 0x09, 0x0E, 0x12, 0x14, 0x15],
      ⟨0x6510, 0x65C7, none, [0x01, 0x02]⟩] [.outs, .engines, .hedge, .power] t.cur t.thermalShutdown.cur := by
  dsimp only [Tx.thermalShutdown]
  exact .flagBit (.tally (.setPower (.when (fun _ => .emit (.refl ..)) (.step (Tx.bypassN_keeps ..) (.step
      (Tx.showBanks_keeps ..) (.step (Tx.powerTo_keeps ..) (.w (.ite (.setEngines (.refl ..)) (.step (Tx.hedgeHold_keeps ..)
      (.setEngines (.refl ..)))))))))))

theorem Tx.nodeRefuse_keeps (t : Tx s0) (st : ℕ) : Keeps [.all 0x3C00 [0x0A, 0x0C]] [.result] t.cur (t.nodeRefuse
      st).cur := by
  dsimp only [Tx.nodeRefuse]
  exact .status (.flagBit (.tally (.refl ..)))

theorem nodeRule_keeps (h : ℕ) (d : Bytes) (t : Tx s0) : Keeps [.all 0x3C00 [0x0A, 0x0C]] [.result, .maps] t.cur
      (nodeRule h d t).cur := by
  dsimp only [nodeRule]
  refine .ite (.step (Tx.nodeRefuse_keeps ..) (.refl ..)) (?_)
  split
  · exact .step (Tx.nodeRefuse_keeps ..) (.refl ..)
  · exact .each (fun _ _ => .ite (.setMaps (.refl ..)) (.setMaps (.refl ..))) (.refl ..)

theorem Tx.soundSpeed_keeps (t : Tx s0) (x : Stim) : Keeps [.all 0x2800 [0x08, 0x09], .all 0x5D00 [0x0F, 0x10, 0x11,
      0x12, 0x14]] [.free] t.cur (t.soundSpeed x).cur := by
  dsimp only [Tx.soundSpeed]
  exact .ite (.w (.w (.w (.w (.when (fun _ => .w (.refl ..)) (.w (.foldSnd (fun _ _ => .iteSnd (.fresh (.refl ..)) (.refl
      ..)) (.refl ..)))))))) (.flagBit (.w (.when (fun _ => .w (.refl ..)) (.w (.foldSnd (fun _ _ => .iteSnd (.fresh (.refl
      ..)) (.refl ..)) (.refl ..))))))

theorem Tx.hedgeChannel_keeps (t : Tx s0) (c : ℕ) : Keeps [.all 0x5800 [0x02, 0x12, 0x13, 0x14, 0x15, 0x16, 0x17, 0x19,
      0x1A, 0x1C], .all 0x5A00 [0x07, 0x08, 0x09, 0x0F], .ctr 168 191] [.outs, .hedge, .meas] t.cur (t.hedgeChannel c).cur :=
      by
  dsimp only [Tx.hedgeChannel]
  exact .ite (.step (Tx.trip_keeps ..) (.when (fun _ => .flagBit (.refl ..)) (.when (fun _ => .flagBit (.refl ..)) (.w
      (.w (.w (.w (.w (.step (Tx.setMod_keeps ..) (.step (Tx.modNow_keeps ..) (.refl ..))))))))))) (.when (fun _ => .flagBit
      (.refl ..)) (.when (fun _ => .flagBit (.refl ..)) (.w (.w (.w (.w (.w (.step (Tx.setMod_keeps ..) (.step
      (Tx.modNow_keeps ..) (.refl ..))))))))))

theorem resyncRule_keeps (sub : ℕ) (d : Bytes) (t : Tx s0) : Keeps [.all 0x5C00 [0x01], .all 0x5C10 [0x0A]] [.result,
      .meas] t.cur (resyncRule sub d t).cur := by
  dsimp only [resyncRule]
  exact .ite (.status (.refl ..)) (.ite (.setMeas (.refl ..)) (.each (fun _ _ => .ite (.step (Tx.micTo_keeps ..) (.refl
      ..)) (.refl ..)) (.w (.setMeas (.refl ..)))))

theorem Tx.propose_keeps (t : Tx s0) (x : Stim) : Keeps [.all 0x5D10 [0x08, 0x09, 0x0E]] [] t.cur (t.propose x).cur := by
  dsimp only [Tx.propose]
  split
  · exact .refl ..
  · exact .each (fun _ _ => .when (fun _ => .flagBit (.refl ..)) (.w (.w (.refl ..)))) (.refl ..)

theorem Tx.burstsTo_keeps (t : Tx s0) (h : ℕ) : Keeps [] [.outs, .hedge] t.cur (t.burstsTo h).cur := by
  dsimp only [Tx.burstsTo]
  exact .ite (.refl ..) (.emit (.setHedge (.refl ..)))

theorem txEnableRule_keeps (i : ℕ) (d : Bytes) (t : Tx s0) : Keeps [.all 0x3F00 [0x05, 0x06], .all 0x4010 [0x01, 0x02,
      0x15, 0x16], .all 0x4400 [0x02], .all 0x4500 [0x01, 0x02], .all 0x4510 [0x01, 0x02, 0x03, 0x04, 0x05, 0x06], .all
      0x4800 [0x09, 0x0B, 0x16, 0x17], .all 0x4900 [0x02, 0x03, 0x04, 0x09, 0x0A, 0x0C], .all 0x4A00 [0x12, 0x1F, 0x21], .all
      0x4C00 [0x01, 0x14, 0x15, 0x16, 0x19, 0x1A, 0x1B], .all 0x5001 [0x19, 0x1B], .all 0x5010 [0x03], .all 0x5300 [0x01,
      0x02, 0x03, 0x04, 0x06], .ctr 118 123, .ctr 135 135, .ctr 137 137, .ctr 140 140, .ctr 141 141] [.result, .outs, .maps,
      .serial, .net, .time] t.cur (txEnableRule i d t).cur := by
  dsimp only [txEnableRule]
  exact .ite (.refl ..) (.ite (.ite (.status (.refl ..)) (.ite (.step (Tx.txTo_keeps ..) (.w (.w (.refl ..)))) (.ite
      (.step (Tx.txTo_keeps ..) (.w (.w (.refl ..)))) (.step (Tx.txStart_keeps ..) (.w (.w (.refl ..))))))) (.step
      (Tx.showLoad_keeps ..) (.step (Tx.heldLook_keeps ..) (.step (Tx.txTo_keeps ..) (.ite (.step (Tx.txEnd_keeps ..) (.w
      (.refl ..))) (.step (Tx.txFlush_keeps ..) (.w (.refl ..))))))))

theorem Tx.rakeConsume_keeps (t : Tx s0) (m : ℕ) : Keeps [.all 0x5F00 [0x01, 0x02]] [] t.cur (t.rakeConsume m).cur := by
  dsimp only [Tx.rakeConsume]
  exact .w1c (.w1c (.refl ..))

theorem Tx.planCode_keeps (t : Tx s0) (code : ℕ) (st : ℕ) : Keeps [.all 0x6600 [0x0E], .all 0x6601 [0x08, 0x09, 0x13],
      .all 0x6603 [0x0B]] [] t.cur (t.planCode code st).cur := by
  dsimp only [Tx.planCode]
  exact .w (.w (.w (.w (.w (.refl ..)))))

theorem descRule_keeps (h : ℕ) (c : ℕ) (d : Bytes) (t : Tx s0) : Keeps [.all 0x5E10 [0x02, 0x05, 0x08, 0x09, 0x0A,
      0x0B, 0x11, 0x12, 0x13]] [.result, .pool] t.cur (descRule h c d t).cur := by
  dsimp only [descRule]
  refine .ite (.status (.refl ..)) (.ite (.status (.refl ..)) (?_))
  split
  · exact .status (.refl ..)
  · split
    · exact .ite (.step (Tx.chainRefuse_keeps ..) (.refl ..)) (.status (.refl ..))
    · exact .step (Tx.showChain_keeps ..) (.step (Tx.setChainSt_keeps ..) (.w (.w (.w (.wb (.refl ..))))))

theorem imageRule_keeps (d : Bytes) (t : Tx s0) :
    Keeps [.all 0x6400 [0x03, 0x04, 0x05, 0x0C, 0x13]] [.result, .free, .power] t.cur (imageRule d t).cur := by
  dsimp only [imageRule]
  have hr (reason : ℕ) : Keeps [.all 0x6400 [0x03, 0x04, 0x05, 0x0C, 0x13]] [.result, .free, .power] t.cur
      (t.imageRefuse t.cur.imageTarget reason).cur := .step (Tx.imageRefuse_keeps _ _ _ (State.imageTarget_le _)) (.refl ..)
  exact .ite (.status (.refl ..)) (.ite (.status (hr _)) (.ite (hr _) (.ite (hr _) (.ite (hr _) (.ite (hr _)
    (.step (Tx.mramBegin_keeps ..) (.step (Tx.imageErase_keeps ..) (.refl ..))))))))

theorem Tx.queuesEmpty_keeps (t : Tx s0) : Keeps [] [.scene] t.cur t.queuesEmpty.cur := by
  dsimp only [Tx.queuesEmpty]
  exact .each (fun _ _ => .step (Tx.setTrack_keeps ..) (.refl ..)) (.refl ..)

theorem Tx.pdmClocks_keeps (t : Tx s0) : Keeps [] [.outs] t.cur t.pdmClocks.cur := by
  dsimp only [Tx.pdmClocks]
  exact .each (fun _ _ => .emit (.refl ..)) (.refl ..)

theorem Tx.decimReset_keeps (t : Tx s0) (B : ℕ) : Keeps [.all 0x5C00 [0x04, 0x05, 0x09], .all 0x5C10 [0x0A]] [.outs,
      .meas] t.cur (t.decimReset B).cur := by
  dsimp only [Tx.decimReset]
  exact .each (fun _ _ => .ite (.refl ..) (.step (Tx.micReset_keeps ..) (.refl ..))) (.when (fun _ => .emit (.refl ..))
      (.flagBit (.w (.tally (.step (Tx.pdmClocks_keeps ..) (.setMeas (.refl ..)))))))

theorem Tx.dispatch_keeps (t : Tx s0) (i : ℕ) (at_ : ℕ) : Keeps [.all 0x5F00 [0x01, 0x02, 0x05, 0x08], .all 0x5F10
      [0x07, 0x09], .ctr 240 243] [.pool] t.cur (t.dispatch i at_).cur := by
  dsimp only [Tx.dispatch]
  refine .ite (.refl ..) (?_)
  split
  · exact .refl ..
  · split
    · exact .refl ..
    · exact .step (Tx.runMsg_keeps ..) (.peak (.w (.inc (.counterIn (lo := 240) (hi := 243) (.tally (.step
          (Tx.rakeConsume_keeps ..) (.step (Tx.setChainSt_keeps ..) (.refl ..)))) (by omega) (by omega)))))

theorem Tx.planSet_keeps (t : Tx s0) (code req st : ℕ) (worst : F32) :
    Keeps [.all 0x6600 [0x0E, 0x13], .all 0x6601 [0x08, 0x09, 0x0A, 0x0B, 0x0C, 0x0D, 0x0E, 0x13], .all 0x6603 [0x0B],
      ⟨0x6610, 0x664F, none, [0x02]⟩] [.power] t.cur (t.planSet code req st worst).cur := by
  dsimp only [Tx.planSet]
  refine .setPower (.eachMem (fun t c hc => .wKey (.refl ..) ?_)
    (.w (.w (.w (.tally (.w (.w (.step (Tx.planCode_keeps ..) (.refl ..)))))))))
  have := List.mem_range.mp hc
  exact .intro (lo := 0x6610) (hi := 0x664F) (by decide) (by omega) (by omega)

theorem Tx.poolBad_keeps (t : Tx s0) (i : ℕ) (bad : List PoolFault) : Keeps [.all 0x5E00 [0x0A], .all 0x6100 [0x03,
      0x05, 0x09], .ctr 249 249] [] t.cur (t.poolBad i bad).cur := by
  dsimp only [Tx.poolBad]
  exact .each (fun _ _ => .step (Tx.sramBad_keeps ..) (.inc (.refl ..))) (.refl ..)

theorem Tx.graftStart_keeps (t : Tx s0) (k : ℕ) : Keeps [.all 0x3800 [0x0A, 0x0B, 0x0C, 0x0D, 0x0E, 0x0F]] [.corr]
      t.cur (t.graftStart k).cur := by
  dsimp only [Tx.graftStart]
  split
  · exact .ite (.refl ..) (.step (Tx.graftMsg_keeps ..) (.w (.step (Tx.showGrafts_keeps ..) (.step (Tx.setChain_keeps ..)
        (.refl ..)))))
  · exact .refl ..

theorem Tx.runFlags_keeps (t : Tx s0) (c : ℕ) (bits : ℕ) : Keeps [.all 0x5E00 [0x08, 0x09, 0x0C], .all 0x5E10 [0x13]]
      [] t.cur (t.runFlags c bits).cur := by
  dsimp only [Tx.runFlags]
  exact .when (fun _ => .flagBit (.flagBit (.refl ..))) (.when (fun _ => .flagBit (.flagBit (.tally (.refl ..)))) (.when
      (fun _ => .flagBit (.flagBit (.tally (.refl ..)))) (.refl ..)))

theorem setDataRule_keeps (f : ℕ) (d : Bytes) (t : Tx s0) : Keeps [.all 0x3A00 [0x01, 0x03, 0x04, 0x05, 0x06, 0x09,
      0x0A]] [.result] t.cur (setDataRule f d t).cur := by
  dsimp only [setDataRule]
  refine .ite (.status (.step (Tx.uploadEnd_keeps ..) (.refl ..))) (.ite (.status (.step (Tx.uploadEnd_keeps ..) (.refl
      ..))) (?_))
  split
  · exact .status (.step (Tx.uploadEnd_keeps ..) (.refl ..))
  · split
    · exact .status (.step (Tx.uploadEnd_keeps ..) (.refl ..))
    · exact .step (Tx.uploadEnd_keeps ..) (.w (.w (.w (.w (.wb (.refl ..))))))

theorem Tx.flushQueue_keeps (t : Tx s0) (n : ℕ) (before : ℕ) : Keeps [.all 0x2000 [0x17]] [.scene] t.cur (t.flushQueue
      n before).cur := by
  dsimp only [Tx.flushQueue]
  exact .ite (.refl ..) (.flagBit (.step (Tx.setTrack_keeps ..) (.refl ..)))

theorem timebaseRule_keeps (t : Tx s0) : Keeps [.all 0x5000 [0x07, 0x08, 0x1C], .all 0x5001 [0x15]] [.result, .maps,
      .time] t.cur (timebaseRule t).cur := by
  dsimp only [timebaseRule]
  exact .ite (.status (.refl ..)) (.flagBit (.step (Tx.servoTo_keeps ..) (.setTime (.w (.refl ..)))))

theorem parRule_keeps (c : ℕ) (d : Bytes) (t : Tx s0) : Keeps [] [.result, .pool] t.cur (parRule c d t).cur := by
  dsimp only [parRule]
  refine .ite (.status (.refl ..)) (?_)
  split
  · exact .status (.refl ..)
  · split
    · exact .status (.refl ..)
    · exact .ite (.status (.refl ..)) (.step (Tx.setChainSt_keeps ..) (.refl ..))

theorem Tx.replayNow_keeps (t : Tx s0) (n : ℕ) : Keeps [] [.mem] t.cur (t.replayNow n).cur := by
  dsimp only [Tx.replayNow]
  refine .each (fun t x => ?_) (.step (Tx.modSub_keeps ..) (.refl ..))
  split
  · exact .step (Tx.setDramWord_keeps ..) (.refl ..)
  · exact .refl ..
  · exact .refl ..
  · exact .refl ..
  · exact .refl ..
  · exact .refl ..
  · exact .refl ..

theorem Tx.chainFree_keeps (t : Tx s0) (c : ℕ) : Keeps [.all 0x5E00 [0x01], .all 0x5E01 [0x01, 0x02, 0x03, 0x04, 0x05,
      0x07, 0x08, 0x09], .all 0x5E10 [0x01, 0x05, 0x06, 0x07, 0x08, 0x09, 0x0A, 0x0B, 0x11, 0x12, 0x13], .all 0x5F00 [0x04],
      .all 0x5F10 [0x01, 0x02, 0x03, 0x04, 0x05, 0x06, 0x07, 0x08, 0x09], ⟨0x6510, 0x65C7, none, [0x01, 0x02]⟩] [.result,
      .pool] t.cur (t.chainFree c).cur := by
  dsimp only [Tx.chainFree]
  exact .ite (.step (Tx.chainStart_keeps ..) (.w (.step (Tx.tryHeld_keeps ..) (.step (Tx.unplace_keeps ..) (.refl ..)))))
      (.step (Tx.tryHeld_keeps ..) (.step (Tx.unplace_keeps ..) (.refl ..)))

theorem Tx.measStop_keeps (t : Tx s0) : Keeps [.all 0x5D00 [0x0B, 0x0D, 0x14], .all 0x5D10 [0x04, 0x05, 0x06, 0x07,
      0x08, 0x09, 0x0A, 0x0B, 0x0C, 0x0D], .all 0x5D80 [0x06, 0x08, 0x09, 0x0A, 0x0B], .all 0x5F00 [0x04], .all 0x5F10 [0x01,
      0x02, 0x03, 0x04, 0x05, 0x06, 0x07, 0x08, 0x09]] [.meas, .pool] t.cur t.measStop.cur := by
  dsimp only [Tx.measStop]
  exact .when (fun _ => .w (.step (Tx.recDiscard_keeps ..) (.refl ..))) (.setMeas (.step (Tx.abortRun_keeps ..) (.refl
      ..)))

theorem transformRule_keeps (sub : ℕ) (data : Bytes) (t : Tx s0) (hs : 1 ≤ sub ∧ sub ≤ 4) :
    Keeps [.all 0x2800 [0x01, 0x02, 0x03, 0x04]] [.scene] t.cur (transformRule sub data t).cur := by
  dsimp only [transformRule]
  obtain ⟨h1, h2⟩ := hs
  exact .setScene (.w (.refl ..) (by interval_cases sub <;> decide))

theorem clearTripLogRule_keeps (t : Tx s0) : Keeps [.all 0x5A00 [0x07]] [] t.cur (clearTripLogRule t).cur := by
  dsimp only [clearTripLogRule]
  exact .wb (.refl ..)

theorem Tx.segmentOp_keeps (t : Tx s0) (h : ℕ) (o : OpFields) (bad : List ℕ) (room : ℕ) : Keeps [.all 0x5D80 [0x0D],
      .all 0x6200 [0x19, 0x1B, 0x21], .ctr 247 247] [.result, .free, .ctl] t.cur (t.segmentOp h o bad room).cur := by
  dsimp only [Tx.segmentOp]
  refine .ite (.status (.refl ..)) (.ite (.status (.refl ..)) (?_))
  split
  · exact .status (.refl ..)
  · exact .ite (.status (.refl ..)) (.step (Tx.readBlob_keeps ..) (.refl ..))

theorem hedgeRule_keeps (d : Bytes) (t : Tx s0) : Keeps [.all 0x5A00 [0x01, 0x06]] [.outs, .hedge] t.cur (hedgeRule d
      t).cur := by
  dsimp only [hedgeRule]
  exact .ite (.refl ..) (.ite (.step (Tx.modEnable_keeps ..) (.w (.refl ..))) (.step (Tx.modsDown_keeps ..) (.w (.refl
      ..))))

theorem Tx.snapshotEnd_keeps (t : Tx s0) (base : ℕ) : Keeps [.all 0x2000 [0x14, 0x15, 0x16, 0x17], .all 0x2800 [0x0E,
      0x11], .all 0x4800 [0x0B, 0x16, 0x17], .all 0x4900 [0x02, 0x04], .all 0x4C00 [0x15, 0x19, 0x1B], .all 0x5001 [0x19,
      0x1B], .all 0x5010 [0x03], .all 0x5300 [0x01, 0x02, 0x03, 0x04, 0x06], .all 0x5400 [0x0D, 0x10, 0x11, 0x12, 0x15, 0x16,
      0x17, 0x1C], .ctr 3 3, .ctr 11 11, .ctr 118 123, .ctr 140 140, .ctr 141 141] [.outs, .scene, .net, .time, .sprk] t.cur
      (t.snapshotEnd base).cur := by
  dsimp only [Tx.snapshotEnd]
  exact .each (fun _ _ => .step (Tx.sendNak_keeps ..) (.refl ..)) (.step (Tx.sprkSettle_keeps ..) (.step
      (Tx.sprkSet_keeps ..) (.tally (.w (.refl ..)))))

theorem Tx.showMargins_keeps (t : Tx s0) : Keeps [.all 0x5900 [0x05]] [] t.cur t.showMargins.cur := by
  dsimp only [Tx.showMargins]
  exact .each (fun _ _ => .wi (.refl ..)) (.refl ..)

theorem Tx.taskHand_keeps (t : Tx s0) (n : ℕ) : Keeps [] [.pool] t.cur (t.taskHand n).cur := by
  dsimp only [Tx.taskHand]
  exact .ite (.refl ..) (.taskSee (fun _ => .setPool (.refl ..)) (.refl ..))

theorem Tx.busRun_keeps (t : Tx s0) : Keeps [.all 0x1400 [0x02, 0x07, 0x08], .all 0x6000 [0x02, 0x03, 0x05, 0x06, 0x07,
      0x08, 0x09, 0x0A, 0x0B], .all 0x6010 [0x04, 0x05, 0x06], .all 0x6020 [0x02, 0x04], .all 0x6100 [0x02, 0x03, 0x04, 0x05,
      0x06, 0x09], .all 0x6200 [0x01, 0x08, 0x18, 0x19, 0x1A, 0x1B, 0x1C, 0x21], .all 0x6210 [0x03, 0x04, 0x05, 0x06, 0x07],
      .all 0x6300 [0x05], .ctr 246 246, .ctr 247 247, .ctr 248 248, .ctr 249 249, .ctr 254 254] [.outs, .clock, .free, .mem,
      .store, .power] t.cur t.busRun.cur := by
  dsimp only [Tx.busRun]
  exact .ite (.refl ..) (.tick (.step (Tx.busEventsTo_keeps ..) (.tick (.refl ..))))

theorem Tx.closeSession_keeps (t : Tx s0) (h : ℕ) : Keeps [.all 0x1000 [0x08, 0x09, 0x0A], .all 0x1001 [0x01], .all
      0x3A00 [0x09, 0x0A]] [.maps, .ctl] t.cur (t.closeSession h).cur := by
  dsimp only [Tx.closeSession]
  exact .ite (.refl ..) (.step (Tx.sessionMsg_keeps ..) (.w (.w (.w (.w (.setMaps (.setHost (.step (Tx.dropXfer_keeps ..)
      (.refl ..)))))))))

theorem uploadRule_keeps (f : ℕ) (d : Bytes) (t : Tx s0) : Keeps [.all 0x3A00 [0x01, 0x03, 0x04, 0x05, 0x06, 0x09,
      0x0A]] [.result] t.cur (uploadRule f d t).cur := by
  dsimp only [uploadRule]
  exact .ite (.status (.step (Tx.uploadEnd_keeps ..) (.refl ..))) (.step (setDataRule_keeps ..) (.refl ..))

theorem Tx.zqDrift_keeps (t : Tx s0) (drift : F32) : Keeps [.all 0x6602 [0x08, 0x0A, 0x0B, 0x0D]] [.mem] t.cur
      (t.zqDrift drift).cur := by
  dsimp only [Tx.zqDrift]
  exact .ite (.tally (.w (.refl ..))) (.w (.tally (.setMem (.w (.refl ..)))))

theorem Tx.sprkDatagram_keeps (t : Tx s0) (x : Dgram) :
    Keeps [.all 0x2000 [0x14, 0x15, 0x16, 0x17], .all 0x2800 [0x0E, 0x11], .all 0x4800 [0x0B, 0x16, 0x17], .all 0x4900 [0x02, 0x04],
      .all 0x4C00 [0x15, 0x19, 0x1B], .all 0x5001 [0x19, 0x1B], .all 0x5010 [0x03], .all 0x5300 [0x01, 0x02, 0x03, 0x04, 0x06],
      .all 0x5400 [0x0D, 0x10, 0x11, 0x12, 0x16, 0x17, 0x1C], .ctr 3 3, .ctr 11 11, .ctr 118 123, .ctr 140 140, .ctr 141 141]
      [.outs, .scene, .net, .time, .sprk] t.cur (t.sprkDatagram x).cur := by
  dsimp only [Tx.sprkDatagram, Tx.when]
  exact .ite (.step (Tx.sprkHold_keeps ..) (.refl ..)) (.ite (.refl ..) (.ite (.refl ..) (.ite
    (.step (Tx.sprkSettle_keeps ..) (.step (Tx.sprkProcess_keeps ..) (.refl ..))) (.ite (.refl ..) (.ite
      (.each (fun _ _ => .step (Tx.sendNak_keeps ..) (.refl ..)) (.step (Tx.sprkSettle_keeps ..) (.step (Tx.sprkHold_keeps ..) (.refl ..))))
      (.step (Tx.sprkSettle_keeps ..) (.step (Tx.sprkHold_keeps ..) (.refl ..))))))))

theorem clearLatchRule_keeps (c : ℕ) (t : Tx s0) : Keeps [.all 0x5800 [0x02, 0x13]] [.result, .hedge] t.cur
      (clearLatchRule c t).cur := by
  dsimp only [clearLatchRule]
  exact .ite (.status (.refl ..)) (.step (Tx.modTo_keeps ..) (.step (Tx.setMod_keeps ..) (.w (.refl ..))))

theorem hostFlagsRule_keeps (d : Bytes) (t : Tx s0) : Keeps [.all 0x5F00 [0x02]] [] t.cur (hostFlagsRule d t).cur := by
  dsimp only [hostFlagsRule]
  exact .w (.cycleTo (.refl ..))

theorem nonceRule_keeps (h : ℕ) (d : Bytes) (t : Tx s0) : Keeps [.all 0x6402 [0x02, 0x03, 0x04, 0x05, 0x06, 0x0A,
      0x0D]] [.result, .power] t.cur (nonceRule h d t).cur := by
  dsimp only [nonceRule]
  exact .ite (.status (.flagBit (.tally (.refl ..)))) (.setPower (.w (.w (.w (.wb (.wb (.refl ..)))))))

theorem Tx.geometryEval_keeps (t : Tx s0) (v : State) (B : ℕ) : Keeps [.all 0x3300 [0x1B]] [.geo] t.cur (t.geometryEval
      v B).cur := by
  dsimp only [Tx.geometryEval]
  exact .setGeo (.when (fun _ => .flag (.refl ..)) (.refl ..))

theorem Tx.vreqTo_keeps (t : Tx s0) (c : ℕ) : Keeps [.all 0x6601 [0x11, 0x12], .all 0x6603 [0x01, 0x02, 0x05, 0x09]]
      [.outs, .power] t.cur (t.vreqTo c).cur := by
  dsimp only [Tx.vreqTo]
  exact .emit (.when (fun _ => .w (.refl ..)) (.peak (.tally (.w (.w (.w (.setPower (.refl ..))))))))

theorem Tx.ptpLinkDown_keeps (t : Tx s0) (m : ℕ) : Keeps [.all 0x5000 [0x04, 0x07, 0x08, 0x0B, 0x1A, 0x1C], .all 0x5001
      [0x11, 0x12, 0x13, 0x14, 0x15, 0x1A, 0x1B], .ctr 143 143] [.maps, .time] t.cur (t.ptpLinkDown m).cur := by
  dsimp only [Tx.ptpLinkDown]
  refine .ite (.refl ..) (?_)
  split
  · exact .step (Tx.ptpMove_keeps ..) (.refl ..)
  · exact .refl ..

theorem keyRule_keeps (n : ℕ) (d : Bytes) (t : Tx s0) : Keeps [.all 0x1400 [0x02, 0x07, 0x08]] [.result, .store] t.cur
      (keyRule n d t).cur := by
  dsimp only [keyRule]
  exact .wait (.step (Tx.askSave_keeps ..) (.setStore (.refl ..)))

theorem Tx.standbyFrame_keeps (t : Tx s0) (m : ℕ) (f : Bytes) (err : Bool) : Keeps [] [.power] t.cur (t.standbyFrame m
      f err).cur := by
  dsimp only [Tx.standbyFrame]
  exact .ite (.refl ..) (.setPower (.refl ..))

theorem Tx.landControls_keeps (t : Tx s0) (B : ℕ) : Keeps [.all 0x2000 []] [.scene, .sprk] t.cur (t.landControls B).cur := by
  dsimp only [Tx.landControls]
  exact .ite (.refl ..) (.each (fun _ _ => .ite (.step (Tx.flushQueue_keeps ..) (.refl ..)) (.ite (.refl ..) (.wKey (.refl ..) .whole)))
    (.setSprk (.refl ..)))

theorem Tx.sendTo_keeps (t : Tx s0) (src : Source) (m : Bytes) : Keeps [.all 0x4800 [0x0B, 0x16, 0x17], .all 0x4900
      [0x02, 0x04], .all 0x4C00 [0x15, 0x19, 0x1B], .all 0x5001 [0x19, 0x1B], .all 0x5010 [0x03], .all 0x5300 [0x01, 0x02,
      0x03, 0x04, 0x06], .ctr 118 123, .ctr 140 140, .ctr 141 141] [.outs, .net, .time, .ctl] t.cur (t.sendTo src m).cur :=
      by
  dsimp only [Tx.sendTo]
  exact .ite (.ite (.refl ..) (.step (Tx.spiQueue_keeps ..) (.refl ..))) (.step (Tx.egress_keeps ..) (.refl ..))

theorem Tx.modStart_keeps (t : Tx s0) (c : ℕ) (j : ℕ) : Keeps [.all 0x5800 [0x02]] [.hedge] t.cur (t.modStart c j).cur := by
  dsimp only [Tx.modStart]
  exact .step (Tx.modTo_keeps ..) (.step (Tx.setMod_keeps ..) (.refl ..))

theorem Tx.txRecheck_keeps (t : Tx s0) (m : ℕ) : Keeps [.all 0x4800 [0x0B, 0x16, 0x17], .all 0x4900 [0x02, 0x04], .all
      0x4C00 [0x14, 0x15, 0x19, 0x1B], .all 0x5001 [0x19, 0x1B], .all 0x5010 [0x03], .all 0x5300 [0x01, 0x02, 0x03, 0x04,
      0x06], .ctr 118 123, .ctr 140 140, .ctr 141 141] [.outs, .net, .time] t.cur (t.txRecheck m).cur := by
  dsimp only [Tx.txRecheck]
  exact .each (fun _ _ => .ite (.refl ..) (.step (Tx.txAsk_keeps ..) (.step (Tx.txTo_keeps ..) (.refl ..)))) (.refl ..)

theorem armRule_keeps (n : ℕ) (d : Bytes) (t : Tx s0) : Keeps [.all 0x5100 [0x01, 0x07, 0x08, 0x09, 0x0B], .all 0x5F00
      [0x01, 0x02], .ctr 144 159] [.result, .outs, .time] t.cur (armRule n d t).cur := by
  dsimp only [armRule]
  split
  · exact .ite (.refl ..) (.step (Tx.disarm_keeps ..) (.when (fun _ => .step (Tx.fire_keeps ..) (.refl ..)) (.refl ..)))
  · exact .ite (.refl ..) (.ite (.status (.refl ..)) (.step (Tx.setTarget_keeps ..) (.w (.refl ..))))

theorem startRule_keeps (d : Bytes) (t : Tx s0) : Keeps [.all 0x5D00 [0x0B, 0x0C, 0x0E], .all 0x5F00 [0x04], .all
      0x5F10 [0x01, 0x04, 0x05, 0x06]] [.result, .free, .meas, .pool] t.cur (startRule d t).cur := by
  dsimp only [startRule]
  exact .ite (.status (.refl ..)) (.ite (.status (.refl ..)) (.ite (.status (.refl ..)) (.status (.step
      (Tx.taskTake_keeps ..) (.w (.w (.w (.setMeas (.refl ..)))))))))

theorem channelRule_keeps (c : ℕ) (d : Bytes) (t : Tx s0) : Keeps [.all 0x5800 [0x01, 0x02]] [.outs, .hedge] t.cur
      (channelRule c d t).cur := by
  dsimp only [channelRule]
  exact .ite (.ite (.step (Tx.modTo_keeps ..) (.w (.refl ..))) (.w (.refl ..))) (.ite (.step (Tx.modTo_keeps ..) (.w
      (.refl ..))) (.ite (.ite (.step (Tx.modTo_keeps ..) (.step (Tx.setMod_keeps ..) (.w (.refl ..)))) (.step
      (Tx.modDown_keeps ..) (.w (.refl ..)))) (.w (.refl ..))))

theorem Tx.planDerive_keeps (t : Tx s0) (B : ℕ) : Keeps [.all 0x3000 [0x0B, 0x0C, 0x0D], .all 0x3100 [0x04], .all
      0x3200 [0x04], .all 0x3300 [0x18]] [] t.cur (t.planDerive B).cur := by
  dsimp only [Tx.planDerive]
  exact .w (.step (Tx.planReport_keeps ..) (.refl ..))

theorem Tx.dropMsg_keeps (t : Tx s0) : Keeps [.all 0x1001 [0x08, 0x09], .ctr 14 14] [] t.cur t.dropMsg.cur := by
  dsimp only [Tx.dropMsg]
  exact .flagBit (.tally (.refl ..))

theorem Tx.spiError_keeps (t : Tx s0) : Keeps [.all 0x1001 [0x08, 0x09], .ctr 14 14] [.ctl] t.cur t.spiError.cur := by
  dsimp only [Tx.spiError]
  exact .step (Tx.dropMsg_keeps ..) (.setCtl (.refl ..))

end Sys2Proof.Machine
end

section
/-! PROOFS. The frame of every command whose meaning shows it: the entries and the parts of the state that it may change. -/

namespace Sys2Proof.Machine
open Sys2Proof

-- One proof after the other: each thread that waits for another's result holds a stack of its own.
set_option Elab.async false

variable {s0 : State}

theorem execRead_frame (h : ℕ) (o : OpFields) (bad : List ℕ) : FrameOf (execRead h o bad) (Keys [.all 0x3F01 [], .all
    0x5D80 [0x0D], .all 0x6200 [0x19, 0x1B, 0x21], .ctr 247 247]) [.free, .ctl] := by
  refine .run fun s t => ?_
  exact .step (Tx.readOp_keeps ..) (.refl ..)

theorem execReadSegment_frame (h : ℕ) (o : OpFields) (bad : List ℕ) : FrameOf (execReadSegment h o bad) (Keys [.all
    0x5D80 [0x0D], .all 0x6200 [0x19, 0x1B, 0x21], .ctr 247 247]) [.free, .ctl] := by
  refine .run fun s t => ?_
  exact .step (Tx.segmentOp_keeps ..) (.refl ..)

theorem execNop_frame (h : ℕ) (o : OpFields) : FrameOf (execNop h o) (Keys []) [.ctl] := by
  refine .run fun s t => ?_
  refine .step (Tx.nopOp_keeps ..) (?_)
  split
  · exact .setHost (.refl ..)
  · exact .refl ..

theorem Tx.closeSession_keepsAt (t : Tx s0) (h : ℕ) (hn : h < 65536 := by assumption) : KeepsAt h [.all 0x1000 [0x08,
      0x09, 0x0A]] [] [.all 0x1001 [0x01], .all 0x3A00 [0x09, 0x0A]] [.maps, .ctl] t.cur (t.closeSession h).cur := by
  dsimp only [Tx.closeSession]
  exact .ite (.refl ..) (.stepIn (Tx.sessionMsg_keeps ..) (.wKey (.wKey (.wKey (.wKey (.setMaps (.setHost (.stepIn
      (Tx.dropXfer_keeps ..) (.refl ..)))) .one) .one) .one) .all))

theorem execSessionTimeout_frameAt (h : ℕ) (hn : h < 65536) : FrameOf (execSessionTimeout h) (KeysAt h [.all 0x1000
    [0x08, 0x09, 0x0A, 0x11]] [] [.all 0x1001 [0x01], .all 0x3A00 [0x09, 0x0A]]) [.maps, .ctl] := by
  refine .run fun s t => ?_
  split
  · exact .ite (.flagBitKey (.stepAt (Tx.closeSession_keepsAt ..) (.refl ..)) .one) (.refl ..)
  · exact .refl ..

theorem execTransferAbandon_frame (h : ℕ) : FrameOf (execTransferAbandon h) (Keys [.all 0x3A00 [0x09, 0x0A]]) [.ctl] := by
  refine .run fun s t => ?_
  split
  · exact .ite (.step (Tx.dropXfer_keeps ..) (.refl ..)) (.refl ..)
  · exact .refl ..

theorem execSnapshotRelease_frame (h : ℕ) : FrameOf (execSnapshotRelease h) (Keys []) [.ctl] := by
  refine .run fun s t => ?_
  split
  · exact .ite (.setHost (.refl ..)) (.refl ..)
  · exact .refl ..

theorem execHspiWrite_frame (len : ℕ) (d : Bytes) : FrameOf (execHspiWrite len d) (Keys [.all 0x1001 [0x08, 0x09], .ctr
    14 14]) [.ctl] := by
  refine .run fun s t => ?_
  exact .ite (.step (Tx.spiError_keeps ..) (.emit (.refl ..))) (.ite (.emit (.refl ..)) (.setCtl (.emit (.refl ..))))

theorem execHspiStatus_frame (clocks : ℕ) : FrameOf (execHspiStatus clocks) (Keys []) [.ctl] := by
  refine .run fun s t => ?_
  exact .setCtl (.emit (.refl ..))

theorem execHspiUnknownCommand_frame (cmd : ℕ) : FrameOf (execHspiUnknownCommand cmd) (Keys [.all 0x1001 [0x08, 0x09],
    .ctr 14 14]) [] := by
  refine .run fun s t => ?_
  exact .ite (.refl ..) (.step (Tx.dropMsg_keeps ..) (.refl ..))

theorem execNotify_frameAt (h : ℕ) (hn : h < 65536) : FrameOf (execNotify h) (KeysAt h [.all 0x1200 [0x04, 0x05, 0x06,
    0x07]] [] [.all 0x4800 [0x0B, 0x16, 0x17], .all 0x4900 [0x02, 0x04], .all 0x4C00 [0x15, 0x19, 0x1B], .all 0x5001 [0x19,
    0x1B], .all 0x5010 [0x03], .all 0x5300 [0x01, 0x02, 0x03, 0x04, 0x06], .ctr 118 123, .ctr 140 141]) [.net, .time, .ctl]
    := by
  refine .runCtl fun s t => ?_
  refine .ite (.refl ..) (.ite (.setHost (.refl ..)) (?_))
  split
  · exact .flagBitKey (.incKey (.setHost (.refl ..)) .one) .one
  · exact .ite (.refl ..) (.stepIn (Tx.sendTo_keeps ..) (.incKey (.tallyKey (.setHost (.refl ..)) .one) .one))

theorem Tx.commitRefuse_keepsAt (t : Tx s0) (h : ℕ) (st : ℕ) (hn : h < 65536 := by assumption) : KeepsAt h [.all 0x1301
      [0x04]] [] [.all 0x1300 [0x09, 0x0B]] [.result] t.cur (t.commitRefuse h st).cur := by
  dsimp only [Tx.commitRefuse]
  exact .status (.wKey (.flagBitKey (.stepIn (l' := [.all 0x1300 [0x09]]) (M' := []) (.tally (.refl ..)) (.refl ..))
      .all) .one)

theorem commitRule_keepsAt (h : ℕ) (d : Bytes) (t : Tx s0) (hn : h < 65536 := by assumption) : KeepsAt h [.all 0x1301
      [0x04]] [] [.all 0x1300 [0x03, 0x04, 0x05, 0x06, 0x07, 0x09, 0x0B], .all 0x3300 [0x19, 0x1A, 0x1B]] [.result, .ctl]
      t.cur (commitRule h d t).cur := by
  dsimp only [commitRule]
  refine .ite (.stepAt (Tx.commitRefuse_keepsAt ..) (.refl ..)) (.ite (.stepAt (Tx.commitRefuse_keepsAt ..) (.refl ..))
      (.ite (.stepAt (Tx.commitRefuse_keepsAt ..) (.refl ..)) (?_)))
  split
  · exact .stepAt (Tx.commitRefuse_keepsAt ..) (.flagBitKey (.wKey (.wKey (.refl ..) .all) .all) .all)
  · exact .when (fun _ => .flagBitKey (.refl ..) .all) (.status (.wKey (.wKey (.wKey (.wKey (.wKey (.wKey (.setCtl (.refl
        ..)) .all) .all) .all) .all) .all) .one))

theorem execCommit_frameAt (h : ℕ) (d : Bytes) (hn : h < 65536) : FrameOf (execCommit h d) (KeysAt h [.all 0x1301 [0x04]]
    [] [.all 0x1300 [0x03, 0x04, 0x05, 0x06, 0x07, 0x09, 0x0B], .all 0x3300 [0x19, 0x1A, 0x1B]]) [.ctl] := by
  refine .run fun s t => ?_
  exact .guarded (fun _ => .stepAt (commitRule_keepsAt ..) (.refl ..)) (.refl ..)

theorem execCancel_frame (h : ℕ) (d : Bytes) : FrameOf (execCancel h d) (Keys [.all 0x1300 [0x03, 0x04, 0x0A], .all
    0x3000 [0x0B, 0x0C, 0x0D], .all 0x3100 [0x04], .all 0x3200 [0x04]]) [.ctl] := by
  refine .run fun s t => ?_
  exact .guarded (fun _ => .step (cancelRule_keeps ..) (.refl ..)) (.refl ..)

theorem execDiscardStage_frame (h : ℕ) (n : ℕ) (d : Bytes) : FrameOf (execDiscardStage h n d) (Keys []) [.ctl] := by
  refine .run fun s t => ?_
  exact .guarded (fun _ => .step (discardRule_keeps ..) (.refl ..)) (.refl ..)

theorem execPlanLands_frame : FrameOf execPlanLands (Keys [.all 0x1300 [0x03, 0x04, 0x08, 0x0B], .all 0x1301 [0x05], .all
    0x3000 [0x0B, 0x0C, 0x0D], .all 0x3100 [0x04], .all 0x3200 [0x04], .all 0x3300 [0x18], .ctr 8 8]) [.ctl] := by
  refine .run fun s t => ?_
  split
  · exact .refl ..
  · exact .ite (.refl ..) (.step (Tx.commitDone_keeps ..) (.step (Tx.planDerive_keeps ..) (.refl ..)))

theorem execSave_frame (h : ℕ) (d : Bytes) : FrameOf (execSave h d) (Keys [.all 0x1400 [0x02, 0x07, 0x08]]) [.store] := by
  refine .run fun s t => ?_
  exact .guarded (fun _ => .step (saveRule_keeps ..) (.refl ..)) (.refl ..)

theorem execAutosave_frame : FrameOf execAutosave (Keys [.all 0x1400 [0x02, 0x07, 0x08]]) [.store] := by
  refine .run fun s t => ?_
  dsimp only
  split
  · exact .ite (.step (Tx.askSave_keeps ..) (.setStore (.refl ..))) (.refl ..)
  · exact .refl ..

theorem execRestoreDefaults_frame (h : ℕ) (d : Bytes) : FrameOf (execRestoreDefaults h d) (Keys [.all 0x1400 [0x02, 0x07,
    0x08]]) [.store] := by
  refine .run fun s t => ?_
  exact .guarded (fun _ => .step (restoreRule_keeps ..) (.refl ..)) (.refl ..)

theorem execKeyWrite_frame (h : ℕ) (n : ℕ) (d : Bytes) : FrameOf (execKeyWrite h n d) (Keys [.all 0x1400 [0x02, 0x07,
    0x08]]) [.store] := by
  refine .run fun s t => ?_
  exact .guarded (fun _ => .step (keyRule_keeps ..) (.refl ..)) (.refl ..)

theorem execAssignRanges_frame (h : ℕ) (d : Bytes) : FrameOf (execAssignRanges h d) (Keys [.all 0x1100 [], .all 0x1400
    [0x02, 0x07, 0x08]]) [.ctl, .store] := by
  refine .run fun s t => ?_
  exact .guarded (fun _ => .step (assignRule_keeps ..) (.refl ..)) (.refl ..)

theorem pushRule_keepsAt (h : ℕ) (data : Bytes) (t : Tx s0) (hn : h < 65536 := by assumption) : KeepsAt h [.all 0x2401
      [0x01, 0x02, 0x03, 0x04, 0x05, 0x06, 0x07, 0x08, 0x09, 0x0A, 0x0B, 0x0C]] [] [.all 0x2000 [0x14, 0x15, 0x16, 0x17],
      .all 0x2800 [0x0E, 0x11], .all 0x4800 [0x0B, 0x16, 0x17], .all 0x4900 [0x02, 0x04], .all 0x4C00 [0x15, 0x19, 0x1B],
      .all 0x5001 [0x19, 0x1B], .all 0x5010 [0x03], .all 0x5300 [0x01, 0x02, 0x03, 0x04, 0x06], .all 0x5400 [0x10, 0x17],
      .ctr 3 3, .ctr 118 123, .ctr 140 140, .ctr 141 141] [.result, .outs, .scene, .net, .time, .sprk] t.cur (pushRule h data
      t).cur := by
  dsimp only [pushRule]
  refine .ite (.status (.refl ..)) (?_)
  split
  · exact .status (.when (fun _ => .stepIn (Tx.sprkData_keeps ..) (.refl ..)) (.flagKey (.incKey (.wKey (.wKey (.wKey
        (.wKey (.wKey (.wKey (.wKey (.wKey (.wKey (.wKey (.stepIn (Tx.pushAll_keeps ..) (.refl ..)) .one) .one) .one) .one)
        .one) .one) .one) .one) .one) .one) .one) .one))
  · exact .status (.when (fun _ => .stepIn (Tx.sprkData_keeps ..) (.refl ..)) (.flagKey (.incKey (.wKey (.wKey (.wKey
        (.wKey (.wKey (.wKey (.wKey (.wKey (.wKey (.wKey (.stepIn (Tx.pushAll_keeps ..) (.refl ..)) .one) .one) .one) .one)
        .one) .one) .one) .one) .one) .one) .one) .one))

theorem execKeyframePush_frameAt (h : ℕ) (d : Bytes) (hn : h < 65536) : FrameOf (execKeyframePush h d) (KeysAt h [.all
    0x2401 [0x01, 0x02, 0x03, 0x04, 0x05, 0x06, 0x07, 0x08, 0x09, 0x0A, 0x0B, 0x0C]] [] [.all 0x2000 [0x14, 0x15, 0x16,
    0x17], .all 0x2800 [0x0E, 0x11], .all 0x4800 [0x0B, 0x16, 0x17], .all 0x4900 [0x02, 0x04], .all 0x4C00 [0x15, 0x19,
    0x1B], .all 0x5001 [0x19, 0x1B], .all 0x5010 [0x03], .all 0x5300 [0x01, 0x02, 0x03, 0x04, 0x06], .all 0x5400 [0x10,
    0x17], .all 0x5E10 [0x05, 0x13], .ctr 3 3, .ctr 118 123, .ctr 140 141]) [.scene, .net, .time, .sprk, .pool] := by
  refine .run fun s t => ?_
  exact .guarded (fun _ => .stepAt (pushRule_keepsAt ..) (.refl ..)) (.refl ..)

theorem execRenderWindow_frame (cells : List ℕ) (words : List ℕ) : FrameOf (execRenderWindow cells words) (Keys [.all
    0x3400 [0x01, 0x02, 0x0C, 0x0D, 0x0E, 0x0F, 0x10, 0x11], .all 0x3410 [0x08, 0x09, 0x0A, 0x0B], .all 0x3500 [0x01, 0x02,
    0x03, 0x04, 0x05, 0x06], .all 0x6100 [0x03, 0x05, 0x09], .ctr 0 0, .ctr 249 249, .ctr 255 255]) [.geo, .render, .corr] :=
    by
  refine .run fun s t => ?_
  exact .ite (.step (Tx.correctBlock_keeps ..) (.step (Tx.renderBlock_keeps ..) (.refl ..))) (.refl ..)

theorem Tx.showPending_keepsAt (t : Tx s0) (n : ℕ) (hn : n < 65536 := by assumption) : KeepsAt n [.all 0x3410 [0x03,
      0x04, 0x07]] [] [] [] t.cur (t.showPending n).cur := by
  dsimp only [Tx.showPending]
  split
  · exact .wKey (.wKey (.wKey (.refl ..) .one) .one) .one
  · exact .wKey (.wKey (.refl ..) .one) .one

theorem depthRule_keepsAt (n : ℕ) (data : Bytes) (t : Tx s0) (hn : n < 65536 := by assumption) : KeepsAt n [.all 0x2000
      [0x08], .all 0x3410 [0x03, 0x04, 0x07, 0x0B]] [] [.all 0x3400 [0x03, 0x04, 0x05, 0x0B, 0x11]] [.result, .render] t.cur
      (depthRule n data t).cur := by
  dsimp only [depthRule]
  refine .ite (.status (.refl ..)) (.ite (.status (.refl ..)) (.ite (.status (.refl ..)) (.ite (.refl ..) (.ite (.stepIn
      (Tx.furrowStats_keeps ..) (.stepAt (Tx.showPending_keepsAt ..) (.wKey (.wKey (.setRender (.refl ..)) .one) .one)))
      (?_)))))
  split
  · exact .status (.flagBitKey (.flagBitKey (.stepIn (l' := [.all 0x3400 [0x0B]]) (M' := []) (.tally (.refl ..)) (.refl
        ..)) .one) .all)
  · exact .stepIn (Tx.furrowStats_keeps ..) (.stepAt (Tx.showPending_keepsAt ..) (.wKey (.setRender (.refl ..)) .one))

theorem execDepthWrite_frameAt (h : ℕ) (n : ℕ) (d : Bytes) (hn : n < 65536) : FrameOf (execDepthWrite h n d) (KeysAt n
    [.all 0x2000 [0x08], .all 0x3410 [0x03, 0x04, 0x07, 0x0B]] [] [.all 0x3400 [0x03, 0x04, 0x05, 0x0B, 0x11]]) [.render] :=
    by
  refine .run fun s t => ?_
  exact .guarded (fun _ => .stepAt (depthRule_keepsAt ..) (.refl ..)) (.refl ..)

theorem execDepthChangeLands_frame : FrameOf execDepthChangeLands (Keys [.all 0x3400 [0x03, 0x04, 0x05, 0x07, 0x08, 0x09,
    0x0A, 0x11], .all 0x3410 [0x01, 0x02, 0x03, 0x04, 0x05, 0x07, 0x0B]]) [.render] := by
  refine .run fun s t => ?_
  split
  · exact .step (Tx.landFurrows_keeps ..) (.refl ..)
  · exact .refl ..

theorem execRepack_frame (h : ℕ) (d : Bytes) : FrameOf (execRepack h d) (Keys [.all 0x3400 [0x07]]) [.render] := by
  refine .run fun s t => ?_
  exact .guarded (fun _ => .step (repackRule_keeps ..) (.refl ..)) (.refl ..)

theorem execRepackLands_frame : FrameOf execRepackLands (Keys [.all 0x3400 [0x03, 0x04, 0x05, 0x07, 0x08, 0x09, 0x0A,
    0x11], .all 0x3410 [0x01, 0x02, 0x03, 0x04, 0x05, 0x07, 0x0B]]) [.render] := by
  refine .run fun s t => ?_
  split
  · exact .step (Tx.landFurrows_keeps ..) (.refl ..)
  · exact .refl ..

theorem Tx.uploadEnd_keepsAt (t : Tx s0) (f : ℕ) (reason : ℕ) (item : ℕ) (hn : f < 65536 := by assumption) : KeepsAt f
      [.all 0x3A00 [0x09, 0x0A]] [] [] [] t.cur (t.uploadEnd f reason item).cur := by
  dsimp only [Tx.uploadEnd]
  exact .wKey (.wKey (.refl ..) .one) .one

theorem setDataRule_keepsAt (f : ℕ) (d : Bytes) (t : Tx s0) (hn : f < 65536 := by assumption) : KeepsAt f [.all 0x3A00
      [0x01, 0x03, 0x04, 0x05, 0x06, 0x09, 0x0A]] [] [] [.result] t.cur (setDataRule f d t).cur := by
  dsimp only [setDataRule]
  refine .ite (.status (.stepAt (Tx.uploadEnd_keepsAt ..) (.refl ..))) (.ite (.status (.stepAt (Tx.uploadEnd_keepsAt ..)
      (.refl ..))) (?_))
  split
  · exact .status (.stepAt (Tx.uploadEnd_keepsAt ..) (.refl ..))
  · split
    · exact .status (.stepAt (Tx.uploadEnd_keepsAt ..) (.refl ..))
    · exact .stepAt (Tx.uploadEnd_keepsAt ..) (.wKey (.wKey (.wKey (.wKey (.wbKey (.refl ..) .one) .one) .one) .one)
          .one)

theorem uploadRule_keepsAt (f : ℕ) (d : Bytes) (t : Tx s0) (hn : f < 65536 := by assumption) : KeepsAt f [.all 0x3A00
      [0x01, 0x03, 0x04, 0x05, 0x06, 0x09, 0x0A]] [] [] [.result] t.cur (uploadRule f d t).cur := by
  dsimp only [uploadRule]
  exact .ite (.status (.stepAt (Tx.uploadEnd_keepsAt ..) (.refl ..))) (.stepAt (setDataRule_keepsAt ..) (.refl ..))

theorem execSetDataUpload_frameAt (h : ℕ) (n : ℕ) (d : Bytes) (hn : n < 65536) : FrameOf (execSetDataUpload h n d)
    (KeysAt n [.all 0x3A00 [0x01, 0x03, 0x04, 0x05, 0x06, 0x09, 0x0A]] [] []) [] := by
  refine .run fun s t => ?_
  exact .guardedBad (fun _ => .stepAt (Tx.uploadEnd_keepsAt ..) (.refl ..)) (fun _ => .stepAt (uploadRule_keepsAt ..)
      (.refl ..)) (.refl ..)

theorem execSetReady_frameAt (n : ℕ) (hn : n < 65536) : FrameOf (execSetReady n) (KeysAt n [.all 0x3A00 [0x03]] [] []) []
    := by
  refine .run fun s t => ?_
  exact .ite (.wKey (.refl ..) .one) (.refl ..)

theorem eraseRule_keepsAt (f : ℕ) (t : Tx s0) (hn : f < 65536 := by assumption) : KeepsAt f [.all 0x3A00 [0x01, 0x03,
      0x04, 0x05, 0x06]] [] [] [.result] t.cur (eraseRule f t).cur := by
  dsimp only [eraseRule]
  exact .ite (.status (.refl ..)) (.wKey (.wKey (.wKey (.wKey (.wbKey (.refl ..) .one) .one) .one) .one) .one)

theorem execSetErase_frameAt (h : ℕ) (n : ℕ) (d : Bytes) (hn : n < 65536) : FrameOf (execSetErase h n d) (KeysAt n [.all
    0x3A00 [0x01, 0x03, 0x04, 0x05, 0x06]] [] []) [] := by
  refine .run fun s t => ?_
  exact .guarded (fun _ => .stepAt (eraseRule_keepsAt ..) (.refl ..)) (.refl ..)

theorem Tx.graftReport_keepsAt (t : Tx s0) (h : ℕ) (records : ℕ) (late : ℕ) (st : ℕ) (fail : ℕ) (a : ℕ) (hn : h < 65536
      := by assumption) : KeepsAt h [.all 0x3B01 [0x01, 0x02, 0x03, 0x04, 0x05]] [] [] [] t.cur (t.graftReport h records late
      st fail a).cur := by
  dsimp only [Tx.graftReport]
  exact .wKey (.wKey (.wKey (.wKey (.wKey (.refl ..) .one) .one) .one) .one) .one

theorem Tx.graftRefuse_keepsAt (t : Tx s0) (h : ℕ) (records : ℕ) (late : ℕ) (st : ℕ) (fail : ℕ) (hn : h < 65536 := by
      assumption) : KeepsAt h [.all 0x3B01 [0x01, 0x02, 0x03, 0x04, 0x05]] [] [.all 0x3B00 [0x0E]] [.result] t.cur
      (t.graftRefuse h records late st fail).cur := by
  dsimp only [Tx.graftRefuse]
  exact .status (.flagBitKey (.stepAt (Tx.graftReport_keepsAt ..) (.refl ..)) .all)

theorem graftRule_keepsAt (h : ℕ) (d : Bytes) (t : Tx s0) (hn : h < 65536 := by assumption) : KeepsAt h [.all 0x3B01
      [0x01, 0x02, 0x03, 0x04, 0x05]] [] [.all 0x3800 [0x0A, 0x0B, 0x0C, 0x0D, 0x0E, 0x0F, 0x17], .all 0x3B00 [0x08, 0x09,
      0x0E]] [.result, .corr] t.cur (graftRule h d t).cur := by
  dsimp only [graftRule]
  refine .ite (.stepAt (Tx.graftRefuse_keepsAt ..) (.refl ..)) (?_)
  split
  · exact .stepAt (Tx.graftRefuse_keepsAt ..) (.refl ..)
  · exact .ite (.stepAt (Tx.graftRefuse_keepsAt ..) (.refl ..)) (.status (.stepAt (Tx.graftReport_keepsAt ..) (.each (fun
        _ _ => .stepIn (Tx.acceptGraft_keeps ..) (.refl ..)) (.refl ..))))

theorem execGraftRequest_frameAt (h : ℕ) (d : Bytes) (hn : h < 65536) : FrameOf (execGraftRequest h d) (KeysAt h [.all
    0x3B01 [0x01, 0x02, 0x03, 0x04, 0x05]] [] [.all 0x3800 [0x0A, 0x0B, 0x0C, 0x0D, 0x0E, 0x0F, 0x17], .all 0x3B00 [0x08,
    0x09, 0x0E]]) [.corr] := by
  refine .run fun s t => ?_
  exact .guardedBad (fun _ => .stepAt (Tx.graftRefuse_keepsAt ..) (.refl ..)) (fun _ => .stepAt (graftRule_keepsAt ..)
      (.refl ..)) (.refl ..)

theorem Tx.showGrafts_keepsAt (t : Tx s0) (k : ℕ) (hn : k < 65536 := by assumption) : KeepsAt k [.all 0x3800 [0x0A,
      0x0B, 0x0C, 0x0D, 0x0E, 0x0F]] [] [] [] t.cur (t.showGrafts k).cur := by
  dsimp only [Tx.showGrafts]
  split
  · refine .wKey (.wKey (?_) .one) .one
    split
    · exact .wKey (.wKey (.wKey (.refl ..) .one) .one) .one
    · exact .wKey (.wKey (.refl ..) .one) .one
  · refine .wKey (.wKey (?_) .one) .one
    split
    · exact .wKey (.wKey (.wKey (.refl ..) .one) .one) .one
    · exact .wKey (.wKey (.refl ..) .one) .one

theorem Tx.graftStart_keepsAt (t : Tx s0) (k : ℕ) (hn : k < 65536 := by assumption) : KeepsAt k [.all 0x3800 [0x0A,
      0x0B, 0x0C, 0x0D, 0x0E, 0x0F]] [] [] [.corr] t.cur (t.graftStart k).cur := by
  dsimp only [Tx.graftStart]
  split
  · exact .ite (.refl ..) (.stepIn (Tx.graftMsg_keeps ..) (.wKey (.stepAt (Tx.showGrafts_keepsAt ..) (.stepIn
        (Tx.setChain_keeps ..) (.refl ..))) .one))
  · exact .refl ..

theorem Tx.graftEnd_keepsAt (t : Tx s0) (k : ℕ) (hn : k < 65536 := by assumption) : KeepsAt k [.all 0x3800 [0x01, 0x0A,
      0x0B, 0x0C, 0x0D, 0x0E, 0x0F, 0x17]] [] [.all 0x3B00 [0x07], .ctr 7 7] [.corr] t.cur (t.graftEnd k).cur := by
  dsimp only [Tx.graftEnd]
  split
  · exact .ite (.refl ..) (.stepIn (Tx.graftMsg_keeps ..) (.stepAt (Tx.showGrafts_keepsAt ..) (.flagBitKey (.stepIn (l'
        := [.all 0x3B00 [0x07], .ctr 7 7]) (M' := []) (.tally (.refl ..)) (.wKey (.stepIn (Tx.setChain_keeps ..) (.refl ..))
        .one)) .one)))
  · exact .refl ..

theorem execGraftStart_frameAt (n : ℕ) (hn : n < 65536) : FrameOf (execGraftStart n) (KeysAt n [.all 0x3800 [0x01, 0x0A,
    0x0B, 0x0C, 0x0D, 0x0E, 0x0F, 0x17]] [] [.all 0x3B00 [0x07], .ctr 7 7]) [.free, .corr] := by
  refine .run fun s t => ?_
  exact .stepAt (Tx.graftStart_keepsAt ..) (.stepAt (Tx.graftEnd_keepsAt ..) (.refl ..))

theorem execGraftFade_frameAt (n : ℕ) (hn : n < 65536) : FrameOf (execGraftFade n) (KeysAt n [.all 0x3800 [0x0A]] [] [])
    [] := by
  refine .run fun s t => ?_
  split
  · exact .ite (.refl ..) (.stepIn (Tx.graftMsg_keeps ..) (.wKey (.refl ..) .one))
  · exact .refl ..

theorem execGraftEnd_frameAt (n : ℕ) (hn : n < 65536) : FrameOf (execGraftEnd n) (KeysAt n [.all 0x3800 [0x01, 0x0A,
    0x0B, 0x0C, 0x0D, 0x0E, 0x0F, 0x17]] [] [.all 0x3B00 [0x07], .ctr 7 7]) [.corr] := by
  refine .run fun s t => ?_
  exact .stepAt (Tx.graftEnd_keepsAt ..) (.refl ..)

theorem execBulkPhase_frame (bad : List SpectrumFault) (used : ℕ) : FrameOf (execBulkPhase bad used) (Keys [.all 0x3800
    [0x15, 0x17], .all 0x3B00 [0x0E], .all 0x6200 [0x19, 0x1B, 0x1C, 0x21], .all 0x6300 [0x04, 0x07, 0x08], .ctr 247 247])
    [.free, .corr] := by
  refine .run fun s t => ?_
  exact .ite (.step (Tx.phaseUsed_keeps ..) (.step (Tx.eachChain_keeps ..) (.each (fun _ _ => .step
      (Tx.spectrumLost_keeps ..) (.refl ..)) (.refl ..)))) (.refl ..)

theorem execUrgentPhase_frame (bad : List SpectrumFault) (used : ℕ) : FrameOf (execUrgentPhase bad used) (Keys [.all
    0x3800 [0x15, 0x17], .all 0x3B00 [0x0E], .all 0x6200 [0x19, 0x1B, 0x1C, 0x21], .all 0x6300 [0x04, 0x07, 0x08], .ctr 247
    247]) [.free, .corr] := by
  refine .run fun s t => ?_
  exact .ite (.step (Tx.phaseUsed_keeps ..) (.step (Tx.eachChain_keeps ..) (.each (fun _ _ => .step
      (Tx.spectrumLost_keeps ..) (.refl ..)) (.refl ..)))) (.refl ..)

theorem execHopEvent_frame : FrameOf execHopEvent (Keys [.all 0x3B00 [0x0C], .ctr 1 1]) [.corr] := by
  refine .run fun s t => ?_
  exact .ite (.msg (.tally (.setCorr (.step (Tx.eachChain_keeps ..) (.refl ..))))) (.refl ..)

theorem bulkRule_keepsAt (k : ℕ) (d : Bytes) (t : Tx s0) (hn : k < 65536 := by assumption) : KeepsAt k [.all 0x3800
      [0x02]] [] [] [.corr] t.cur (bulkRule k d t).cur := by
  dsimp only [bulkRule]
  exact .stepIn (Tx.setChain_keeps ..) (.wKey (.refl ..) .one)

theorem execBulkDelayWrite_frameAt (h : ℕ) (n : ℕ) (d : Bytes) (hn : n < 65536) : FrameOf (execBulkDelayWrite h n d)
    (KeysAt n [.all 0x3800 [0x02]] [] []) [.corr] := by
  refine .run fun s t => ?_
  exact .guarded (fun _ => .stepAt (bulkRule_keepsAt ..) (.refl ..)) (.refl ..)

theorem execBulkCrossfade_frame : FrameOf execBulkCrossfade (Keys [.all 0x3800 [0x03, 0x16, 0x17], .all 0x3B00 [0x0B,
    0x0E]]) [.corr] := by
  refine .run fun s t => ?_
  exact .ite (.refl ..) (.each (fun _ _ => .step (Tx.bulkStart_keeps ..) (.refl ..)) (.refl ..))

theorem execTrellisSourceWrite_frameAt (h : ℕ) (n : ℕ) (d : Bytes) (hn : n < 65536) : FrameOf (execTrellisSourceWrite h n
    d) (KeysAt n [.all 0x3C01 [0x01]] [] []) [] := by
  refine .run fun s t => ?_
  exact .guarded (fun _ => .wKey (.refl ..) .one) (.refl ..)

theorem execNodeWrite_frame (h : ℕ) (d : Bytes) : FrameOf (execNodeWrite h d) (Keys [.all 0x3C00 [0x0A, 0x0C]]) [.maps] := by
  refine .run fun s t => ?_
  exact .guardedBad (fun _ => .step (Tx.nodeRefuse_keeps ..) (.refl ..)) (fun _ => .step (nodeRule_keeps ..) (.refl ..))
      (.refl ..)

theorem execBankCapture_frame (h : ℕ) (d : Bytes) : FrameOf (execBankCapture h d) (Keys []) [.maps] := by
  refine .run fun s t => ?_
  exact .guarded (fun _ => .step (bankRule_keeps ..) (.refl ..)) (.refl ..)

theorem execBankClear_frame (h : ℕ) (d : Bytes) : FrameOf (execBankClear h d) (Keys []) [.maps] := by
  refine .run fun s t => ?_
  exact .guarded (fun _ => .step (bankRule_keeps ..) (.refl ..)) (.refl ..)

theorem execInputMapBoundary_frame : FrameOf execInputMapBoundary (Keys [.all 0x3D00 [0x05, 0x06, 0x07, 0x0B, 0x0C,
    0x0D], .ctr 10 10]) [.maps, .meas] := by
  refine .run fun s t => ?_
  exact .ite (.each (fun _ _ => .step (Tx.inBoundary_keeps ..) (.refl ..)) (.refl ..)) (.refl ..)

theorem Tx.destLands_keepsAt (t : Tx s0) (d : ℕ) (hn : d < 65536 := by assumption) : KeepsAt d [.all 0x3E00 [0x02]] []
      [] [.maps] t.cur (t.destLands d).cur := by
  dsimp only [Tx.destLands]
  exact .ite (.refl ..) (.wKey (.stepIn (Tx.setDest_keeps ..) (.refl ..)) .one)

theorem outputMapRule_keepsAt (h : ℕ) (d : ℕ) (data : Bytes) (t : Tx s0) (hn : d < 65536 := by assumption) : KeepsAt d
      [.all 0x3E00 [0x01, 0x02, 0x03]] [] [] [.result, .maps] t.cur (outputMapRule h d data t).cur := by
  dsimp only [outputMapRule]
  exact .ite (.status (.refl ..)) (.wKey (.wKey (.stepIn (Tx.setDest_keeps ..) (.stepAt (Tx.destLands_keepsAt ..) (.refl
      ..))) .one) .one)

theorem execOutputMapWrite_frameAt (h : ℕ) (n : ℕ) (d : Bytes) (hn : n < 65536) : FrameOf (execOutputMapWrite h n d)
    (KeysAt n [.all 0x3E00 [0x01, 0x03]] [] [.all 0x3E00 [0x02]]) [.maps] := by
  refine .run fun s t => ?_
  exact .guarded (fun _ => .stepAt (outputMapRule_keepsAt ..) (.refl ..)) (.refl ..)

theorem execOutputMapLands_frame : FrameOf execOutputMapLands (Keys [.all 0x3E00 [0x02]]) [.maps] := by
  refine .run fun s t => ?_
  exact .each (fun _ _ => .step (Tx.destLands_keeps ..) (.refl ..)) (.refl ..)

theorem Tx.pathEvaluate_keepsAt (t : Tx s0) (n : ℕ) (hn : n < 65536 := by assumption) :
    KeepsAt n [.all 0x3F01 []] [] [] [] t.cur (t.pathEvaluate n).cur := by
  dsimp only [Tx.pathEvaluate]
  exact .each (fun _ _ => .wKey (.refl ..) .oneWhole) (.refl ..)

theorem execPathQueryRead_frameAt (h : ℕ) (n : ℕ) (sub : ℕ) (hn : n < 65536) : FrameOf (execPathQueryRead h n sub)
    (KeysAt n [.all 0x3F01 []] [] []) [] := by
  refine .run fun s t => ?_
  refine .ite (.status (.refl ..)) (?_)
  split
  · exact .reply (.stepAt (Tx.pathEvaluate_keepsAt ..) (.refl ..))
  · exact .stepAt (Tx.pathEvaluate_keepsAt ..) (.refl ..)

theorem execOutputsRampDown_frame : FrameOf execOutputsRampDown (Keys []) [.maps, .engines, .hedge, .power] := by
  refine .run fun s t => ?_
  split
  · exact .ite (.when (fun _ => .step (Tx.hedgeHold_keeps ..) (.refl ..)) (.setMaps (.refl ..))) (.refl ..)
  · exact .setMaps (.setEngines (.refl ..))
  · exact .refl ..

theorem execPauseWatchdog_frameAt (n : ℕ) (hn : n < 65536) : FrameOf (execPauseWatchdog n) (KeysAt n [.all 0x4800 [0x14,
    0x17]] [] []) [.net] := by
  refine .run fun s t => ?_
  dsimp only
  split
  · exact .refl ..
  · exact .ite (.refl ..) (.stepIn (Tx.macMsg_keeps ..) (.flagBitKey (.tallyKey (.stepIn (Tx.setMac_keeps ..) (.refl ..))
        .one) .one))

theorem execLinkUp_frame (n : ℕ) (speed : ℕ) : FrameOf (execLinkUp n speed) (Keys [.all 0x3F00 [0x05, 0x06], .all 0x4010
    [0x01, 0x02, 0x15, 0x16], .all 0x4400 [0x02], .all 0x4500 [0x01, 0x02], .all 0x4510 [0x01, 0x02, 0x03, 0x04, 0x05, 0x06],
    .all 0x4800 [0x07, 0x08, 0x09, 0x0B, 0x16, 0x17], .all 0x4900 [0x02, 0x03, 0x04, 0x09, 0x0A, 0x0C], .all 0x4A00 [0x12,
    0x1F, 0x21], .all 0x4C00 [0x14, 0x15, 0x16, 0x19, 0x1B], .all 0x5001 [0x19, 0x1B], .all 0x5010 [0x03], .all 0x5300 [0x01,
    0x02, 0x03, 0x04, 0x06], .ctr 118 123, .ctr 135 135, .ctr 137 137, .ctr 140 140, .ctr 141 141]) [.maps, .serial, .net,
    .time] := by
  refine .run fun s t => ?_
  exact .ite (.refl ..) (.step (Tx.laneLook_keeps ..) (.each (fun _ _ => .step (Tx.txAsk_keeps ..) (.refl ..)) (.step
      (Tx.arpGratuitous_keeps ..) (.step (Tx.macMsg_keeps ..) (.step (Tx.setMac_keeps ..) (.w (.w (.refl ..))))))))

theorem execLinkDown_frame (n : ℕ) : FrameOf (execLinkDown n) (Keys [.all 0x3F00 [0x05, 0x06], .all 0x4010 [0x01, 0x02,
    0x15, 0x16], .all 0x4400 [0x02], .all 0x4500 [0x01, 0x02], .all 0x4510 [0x01, 0x02, 0x03, 0x04, 0x05, 0x06], .all 0x4800
    [0x07, 0x08, 0x09, 0x0B, 0x15, 0x16, 0x17], .all 0x4900 [0x02, 0x03, 0x04, 0x09, 0x0A, 0x0C], .all 0x4A00 [0x12, 0x1F,
    0x21], .all 0x4C00 [0x14, 0x15, 0x16, 0x19, 0x1B], .all 0x5000 [0x04, 0x07, 0x08, 0x0B, 0x1A, 0x1C], .all 0x5001 [0x11,
    0x12, 0x13, 0x14, 0x15, 0x19, 0x1A, 0x1B], .all 0x5010 [0x03], .all 0x5300 [0x01, 0x02, 0x03, 0x04, 0x06], .ctr 118 123,
    .ctr 135 135, .ctr 137 137, .ctr 140 140, .ctr 141 141, .ctr 143 143]) [.maps, .serial, .net, .time] := by
  refine .run fun s t => ?_
  exact .ite (.refl ..) (.step (Tx.ptpLinkDown_keeps ..) (.step (Tx.linkDown_keeps ..) (.refl ..)))

theorem ringRule_keepsAt (h : ℕ) (r : ℕ) (d : Bytes) (t : Tx s0) (hn : r < 65536 := by assumption) : KeepsAt r [.all
      0x4E00 [0x01, 0x03]] [] [] [.result, .net] t.cur (ringRule h r d t).cur := by
  dsimp only [ringRule]
  exact .ite (.status (.refl ..)) (.ite (.refl ..) (.ite (.wKey (.wKey (.setNet (.refl ..)) .one) .one) (.wKey (.refl ..)
      .one)))

theorem execRingDisable_frameAt (h : ℕ) (n : ℕ) (d : Bytes) (hn : n < 65536) : FrameOf (execRingDisable h n d) (KeysAt n
    [.all 0x4E00 [0x01, 0x03]] [] []) [.net] := by
  refine .run fun s t => ?_
  exact .guarded (fun _ => .stepAt (ringRule_keepsAt ..) (.refl ..)) (.refl ..)

theorem execRingEnable_frameAt (h : ℕ) (n : ℕ) (d : Bytes) (hn : n < 65536) : FrameOf (execRingEnable h n d) (KeysAt n
    [.all 0x4E00 [0x01, 0x03]] [] []) [.net] := by
  refine .run fun s t => ?_
  exact .guarded (fun _ => .stepAt (ringRule_keepsAt ..) (.refl ..)) (.refl ..)

theorem execReceiveStreamEnable_frame (h : ℕ) (n : ℕ) (d : Bytes) : FrameOf (execReceiveStreamEnable h n d) (Keys [.all
    0x3F00 [0x05, 0x06], .all 0x4010 [0x01, 0x02, 0x15, 0x16], .all 0x4400 [0x02], .all 0x4500 [0x01, 0x02], .all 0x4510
    [0x01, 0x02, 0x03, 0x04, 0x05, 0x06], .all 0x4800 [0x09, 0x0B, 0x16, 0x17], .all 0x4900 [0x02, 0x03, 0x04], .all 0x4A00
    [0x01, 0x12, 0x1F, 0x21], .all 0x4C00 [0x14, 0x15, 0x19, 0x1B], .all 0x5001 [0x19, 0x1B], .all 0x5010 [0x03], .all 0x5300
    [0x01, 0x02, 0x03, 0x04, 0x06], .ctr 118 123, .ctr 140 140, .ctr 141 141]) [.maps, .serial, .net, .time] := by
  refine .run fun s t => ?_
  exact .guarded (fun _ => .step (rxEnableRule_keeps ..) (.refl ..)) (.refl ..)

theorem execTransmitStreamEnable_frame (h : ℕ) (n : ℕ) (d : Bytes) : FrameOf (execTransmitStreamEnable h n d) (Keys [.all
    0x3F00 [0x05, 0x06], .all 0x4010 [0x01, 0x02, 0x15, 0x16], .all 0x4400 [0x02], .all 0x4500 [0x01, 0x02], .all 0x4510
    [0x01, 0x02, 0x03, 0x04, 0x05, 0x06], .all 0x4800 [0x09, 0x0B, 0x16, 0x17], .all 0x4900 [0x02, 0x03, 0x04, 0x09, 0x0A,
    0x0C], .all 0x4A00 [0x12, 0x1F, 0x21], .all 0x4C00 [0x01, 0x14, 0x15, 0x16, 0x19, 0x1A, 0x1B], .all 0x5001 [0x19, 0x1B],
    .all 0x5010 [0x03], .all 0x5300 [0x01, 0x02, 0x03, 0x04, 0x06], .ctr 118 123, .ctr 135 135, .ctr 137 137, .ctr 140 140,
    .ctr 141 141]) [.maps, .serial, .net, .time] := by
  refine .run fun s t => ?_
  exact .guarded (fun _ => .step (txEnableRule_keeps ..) (.refl ..)) (.refl ..)

theorem execStreamDisable_frame (h : ℕ) (tx : Bool) (n : ℕ) (d : Bytes) : FrameOf (execStreamDisable h tx n d) (Keys
    [.all 0x3F00 [0x05, 0x06], .all 0x4010 [0x01, 0x02, 0x15, 0x16], .all 0x4400 [0x02], .all 0x4500 [0x01, 0x02], .all
    0x4510 [0x01, 0x02, 0x03, 0x04, 0x05, 0x06], .all 0x4800 [0x09, 0x0B, 0x16, 0x17], .all 0x4900 [0x02, 0x03, 0x04, 0x09,
    0x0A, 0x0C], .all 0x4A00 [0x01, 0x12, 0x1F, 0x21], .all 0x4C00 [0x01, 0x14, 0x15, 0x16, 0x19, 0x1A, 0x1B], .all 0x5001
    [0x19, 0x1B], .all 0x5010 [0x03], .all 0x5300 [0x01, 0x02, 0x03, 0x04, 0x06], .ctr 118 123, .ctr 135 135, .ctr 137 137,
    .ctr 140 140, .ctr 141 141]) [.maps, .serial, .net, .time] := by
  refine .run fun s t => ?_
  exact .ite (.guarded (fun _ => .step (txEnableRule_keeps ..) (.refl ..)) (.refl ..)) (.guarded (fun _ => .step
      (rxEnableRule_keeps ..) (.refl ..)) (.refl ..))

theorem execPacketPush_frameAt (n : ℕ) (sameCycle : Bool) (hn : n < 65536) : FrameOf (execPacketPush n sameCycle) (KeysAt
    n [.all 0x4C00 [0x17, 0x18, 0x1A, 0x1B]] [] [.all 0x4900 [0x02, 0x04, 0x05, 0x07, 0x08, 0x0C], .ctr 134 134, .ctr 136
    136]) [.net] := by
  refine .run fun s t => ?_
  dsimp only
  split
  · exact .refl ..
  · exact .ite (.refl ..) (.ite (.flagBitKey (.flagBitKey (.stepIn (l' := [.all 0x4900 [0x07], .ctr 134 134]) (M' := [])
        (.tally (.refl ..)) (.tallyKey (.stepIn (Tx.setTxs_keeps ..) (.wKey (.refl ..) .one)) .one)) .one) .all) (.ite
        (.flagBitKey (.flagBitKey (.stepIn (l' := [.all 0x4900 [0x08], .ctr 136 136]) (M' := []) (.tally (.refl ..))
        (.tallyKey (.stepIn (Tx.setTxs_keeps ..) (.wKey (.refl ..) .one)) .one)) .one) .all) (.peakKey (.wKey (.wKey (.stepIn
        (Tx.setTxs_keeps ..) (.wKey (.refl ..) .one)) .all) .all) .all)))

theorem execArpResolved_frame (n : ℕ) (ip : ℕ) (mac : ℕ) : FrameOf (execArpResolved n ip mac) (Keys [.all 0x4C00 [0x14,
    0x1B], .all 0x4F00 [0x08]]) [.net] := by
  refine .run fun s t => ?_
  exact .step (Tx.arpLearn_keeps ..) (.refl ..)

theorem execArpAgeOut_frameAt (n : ℕ) (ip : ℕ) (hn : n < 65536) : FrameOf (execArpAgeOut n ip) (KeysAt n [.all 0x4F00
    [0x08]] [] [.all 0x4800 [0x0B, 0x16, 0x17], .all 0x4900 [0x02, 0x04], .all 0x4C00 [0x14], .all 0x4C00 [0x15, 0x19, 0x1B], .all 0x5001
    [0x19, 0x1B], .all 0x5010 [0x03], .all 0x5300 [0x01, 0x02, 0x03, 0x04, 0x06], .ctr 118 123, .ctr 140 141]) [.net, .time]
    := by
  refine .run fun s t => ?_
  exact .ite (.stepIn (Tx.txRecheck_keeps ..) (.wKey (.stepIn (Tx.setMac_keeps ..) (.refl ..)) .one)) (.refl ..)

theorem execArpFail_frameAt (n : ℕ) (hn : n < 65536) : FrameOf (execArpFail n) (KeysAt n [.all 0x4F00 [0x0C]] [] []) [] := by
  refine .run fun s t => ?_
  exact .ite (.flagBitKey (.refl ..) .one) (.refl ..)

theorem execIgmpReport_frame (n : ℕ) (group : ℕ) : FrameOf (execIgmpReport n group) (Keys [.all 0x4800 [0x0B, 0x16,
    0x17], .all 0x4900 [0x02, 0x04], .all 0x4C00 [0x15, 0x19, 0x1B], .all 0x5001 [0x19, 0x1B], .all 0x5010 [0x03], .all
    0x5300 [0x01, 0x02, 0x03, 0x04, 0x06], .ctr 118 123, .ctr 140 140, .ctr 141 141]) [.net, .time] := by
  refine .run fun s t => ?_
  exact .ite (.when (fun _ => .step (Tx.igmpSend_keeps ..) (.refl ..)) (.step (Tx.setMac_keeps ..) (.refl ..))) (.refl
      ..)

theorem execIgmpV2FallbackEnd_frame (n : ℕ) : FrameOf (execIgmpV2FallbackEnd n) (Keys []) [.net] := by
  refine .run fun s t => ?_
  dsimp only
  split
  · exact .ite (.step (Tx.setMac_keeps ..) (.refl ..)) (.refl ..)
  · exact .refl ..

theorem sdpRule_keepsAt (i : ℕ) (d : Bytes) (t : Tx s0) (hn : i < 65536 := by assumption) :
    KeepsAt i [.all 0x4A00 []] [] [] [.result] t.cur (sdpRule i d t).cur := by
  dsimp only [sdpRule]
  refine .ite (.status (.refl ..)) ?_
  split
  · exact .status (.wKey (.refl ..) .one)
  · split
    · exact .status (.wKey (.refl ..) .one)
    · exact .when (fun _ => .flagBitKey (.refl ..) .one) (.wKey (.each (fun _ _ => .wKey (.refl ..) .oneWhole) (.refl ..)) .one)

theorem execSdpWrite_frameAt (h : ℕ) (n : ℕ) (d : Bytes) (hn : n < 65536) : FrameOf (execSdpWrite h n d) (KeysAt n [.all
    0x4A00 []] [256] []) [] := by
  refine .run fun s t => ?_
  exact .guarded (fun _ => .stepAt (sdpRule_keepsAt ..) (.refl ..)) (.refl ..)

theorem addressRule_keepsAt (m : ℕ) (d : Bytes) (t : Tx s0) (hn : m < 65536 := by assumption) : KeepsAt m [.all 0x4F00
      [0x01, 0x08]] [] [.all 0x4800 [0x0B, 0x16, 0x17], .all 0x4900 [0x02, 0x04], .all 0x4C00 [0x14, 0x15, 0x19, 0x1B], .all
      0x5001 [0x19, 0x1B], .all 0x5010 [0x03], .all 0x5300 [0x01, 0x02, 0x03, 0x04, 0x06], .ctr 118 123, .ctr 140 140, .ctr
      141 141] [.outs, .net, .time] t.cur (addressRule m d t).cur := by
  dsimp only [addressRule]
  exact .each (fun _ _ => .ite (.stepIn (Tx.txTo_keeps ..) (.stepIn (Tx.txTo_keeps ..) (.refl ..))) (.stepIn
      (Tx.txAsk_keeps ..) (.stepIn (Tx.txTo_keeps ..) (.refl ..)))) (.each (fun _ _ => .stepIn (Tx.igmpJoin_keeps ..) (.refl
      ..)) (.stepIn (Tx.arpGratuitous_keeps ..) (.wKey (.stepIn (Tx.setMac_keeps ..) (.wKey (.refl ..) .one)) .one)))

theorem execAddressWrite_frameAt (h : ℕ) (n : ℕ) (d : Bytes) (hn : n < 65536) : FrameOf (execAddressWrite h n d) (KeysAt
    n [.all 0x4F00 [0x01, 0x08]] [] [.all 0x4800 [0x0B, 0x16, 0x17], .all 0x4900 [0x02, 0x04], .all 0x4C00 [0x14], .all 0x4C00 [0x15, 0x19,
    0x1B], .all 0x5001 [0x19, 0x1B], .all 0x5010 [0x03], .all 0x5300 [0x01, 0x02, 0x03, 0x04, 0x06], .ctr 118 123, .ctr 140
    141]) [.net, .time] := by
  refine .run fun s t => ?_
  exact .guarded (fun _ => .stepAt (addressRule_keepsAt ..) (.refl ..)) (.refl ..)

theorem execRateWrite_frame (h : ℕ) (d : Bytes) : FrameOf (execRateWrite h d) (Keys [.all 0x5000 [0x04, 0x0B]]) [.time] := by
  refine .run fun s t => ?_
  exact .guarded (fun _ => .step (rateRule_keeps ..) (.refl ..)) (.refl ..)

theorem execOffsetWrite_frame (h : ℕ) (d : Bytes) : FrameOf (execOffsetWrite h d) (Keys [.all 0x5000 [0x1C]]) [.engines]
    := by
  refine .run fun s t => ?_
  exact .guarded (fun _ => .step (offsetRule_keeps ..) (.refl ..)) (.refl ..)

theorem execStep_frame : FrameOf execStep (Keys [.all 0x1300 [0x03, 0x04, 0x0A, 0x0B], .all 0x3000 [0x0B, 0x0C, 0x0D],
    .all 0x3100 [0x04], .all 0x3200 [0x04], .all 0x3410 [0x03, 0x04, 0x07], .all 0x3800 [0x0A, 0x0B, 0x0C, 0x0D, 0x0E, 0x0F],
    .all 0x3E00 [0x02], .all 0x5000 [0x19, 0x1C], .all 0x5400 [0x0D, 0x1C], .all 0x5D00 [0x0B, 0x0D, 0x14], .all 0x5D10
    [0x04, 0x05, 0x06, 0x07, 0x08, 0x09, 0x0A, 0x0B, 0x0C, 0x0D], .all 0x5D80 [0x06, 0x08, 0x09, 0x0A, 0x0B], .all 0x5F00
    [0x04], .all 0x5F10 [0x01, 0x02, 0x03, 0x04, 0x05, 0x06, 0x07, 0x08, 0x09], .ctr 142 142]) [.clock, .scene, .render,
    .corr, .maps, .engines, .serial, .time, .sprk, .hedge, .meas, .pool, .ctl] := by
  refine .run fun s t => ?_
  split
  · exact .ite (.refl ..) (.ite (.flagBit (.tally (.when (fun _ => .flagBit (.refl ..)) (.step (Tx.cancelCommit_keeps ..)
        (.step (Tx.measStop_keeps ..) (.step (Tx.queuesEmpty_keeps ..) (.step (Tx.recount_keeps ..) (.setEngines (.setTime
        (.refl ..)))))))))) (.ite (.flagBit (.tally (.when (fun _ => .flagBit (.refl ..)) (.step (Tx.cancelCommit_keeps ..)
        (.step (Tx.measStop_keeps ..) (.step (Tx.queuesEmpty_keeps ..) (.step (Tx.recount_keeps ..) (.setEngines (.setTime
        (.refl ..)))))))))) (.ite (.step (Tx.sprkSet_keeps ..) (.flagBit (.tally (.when (fun _ => .flagBit (.refl ..)) (.step
        (Tx.cancelCommit_keeps ..) (.step (Tx.measStop_keeps ..) (.step (Tx.queuesEmpty_keeps ..) (.step (Tx.recount_keeps
        ..) (.setEngines (.setTime (.refl ..))))))))))) (.step (Tx.sprkResync_keeps ..) (.flagBit (.tally (.when (fun _ =>
        .flagBit (.refl ..)) (.step (Tx.cancelCommit_keeps ..) (.step (Tx.measStop_keeps ..) (.step (Tx.queuesEmpty_keeps ..)
        (.step (Tx.recount_keeps ..) (.setEngines (.setTime (.refl ..))))))))))))))
  · exact .refl ..

theorem execTimebaseRestart_frame (h : ℕ) (d : Bytes) : FrameOf (execTimebaseRestart h d) (Keys [.all 0x5000 [0x07, 0x08,
    0x1C], .all 0x5001 [0x15]]) [.maps, .time] := by
  refine .run fun s t => ?_
  exact .guarded (fun _ => .step (timebaseRule_keeps ..) (.refl ..)) (.refl ..)

theorem execPtpSync_frame (n : ℕ) (m : Bytes) (clock : ℕ) (mac : ℕ) (ip : ℕ) : FrameOf (execPtpSync n m clock mac ip)
    (Keys [.all 0x4E00 [0x03], .all 0x5000 [0x04, 0x07, 0x08, 0x09, 0x0B, 0x1C], .all 0x5001 [0x11, 0x15, 0x17], .ctr 138
    138]) [.clock, .free, .maps, .engines, .net, .time] := by
  refine .runCtl fun s t => ?_
  exact .ite (.step (Tx.ptpPop_keeps ..) (.at_ (.refl ..))) (.ite (.setTime (.setTime (.tally (.step (Tx.ptpPop_keeps ..)
      (.at_ (.refl ..)))))) (.step (Tx.ptpMeasure_keeps ..) (.setTime (.tally (.step (Tx.ptpPop_keeps ..) (.at_ (.refl
      ..)))))))

theorem execPtpFollowUp_frame (n : ℕ) (m : Bytes) : FrameOf (execPtpFollowUp n m) (Keys [.all 0x4E00 [0x03], .all 0x5000
    [0x04, 0x07, 0x08, 0x09, 0x0B, 0x1C], .all 0x5001 [0x11, 0x15]]) [.free, .maps, .engines, .net, .time] := by
  refine .runCtl fun s t => ?_
  dsimp only
  split
  · exact .ite (.step (Tx.ptpMeasure_keeps ..) (.step (Tx.ptpPop_keeps ..) (.refl ..))) (.step (Tx.ptpPop_keeps ..)
        (.refl ..))
  · exact .step (Tx.ptpPop_keeps ..) (.refl ..)

theorem execPtpDelayResp_frame (n : ℕ) (m : Bytes) : FrameOf (execPtpDelayResp n m) (Keys [.all 0x4E00 [0x03], .all
    0x5000 [0x0A]]) [.net, .time] := by
  refine .runCtl fun s t => ?_
  dsimp only
  split
  · exact .ite (.w (.setTime (.step (Tx.ptpPop_keeps ..) (.refl ..)))) (.step (Tx.ptpPop_keeps ..) (.refl ..))
  · exact .step (Tx.ptpPop_keeps ..) (.refl ..)

theorem execPtpDelayReq_frame (n : ℕ) (m : Bytes) (clock : ℕ) (mac : ℕ) (ip : ℕ) : FrameOf (execPtpDelayReq n m clock mac
    ip) (Keys [.all 0x4800 [0x0B, 0x16, 0x17], .all 0x4900 [0x02, 0x04], .all 0x4C00 [0x15, 0x19, 0x1B], .all 0x4E00 [0x03],
    .all 0x5001 [0x19, 0x1B], .all 0x5010 [0x03], .all 0x5300 [0x01, 0x02, 0x03, 0x04, 0x06], .ctr 118 123, .ctr 140 140,
    .ctr 141 141]) [.clock, .net, .time] := by
  refine .runCtl fun s t => ?_
  exact .ite (.step (Tx.ptpPop_keeps ..) (.at_ (.refl ..))) (.step (Tx.ptpOut_keeps ..) (.step (Tx.ptpPop_keeps ..) (.at_
      (.refl ..))))

theorem execPtpAnnounce_frame (n : ℕ) (m : Bytes) : FrameOf (execPtpAnnounce n m) (Keys [.all 0x4E00 [0x03], .all 0x5000
    [0x04, 0x07, 0x08, 0x0B, 0x1A, 0x1C], .all 0x5001 [0x11, 0x13, 0x14, 0x15, 0x1B], .ctr 143 143]) [.maps, .net, .time] :=
    by
  refine .runCtl fun s t => ?_
  exact .ite (.step (Tx.ptpPop_keeps ..) (.refl ..)) (.step (Tx.bmca_keeps ..) (.setTime (.step (Tx.ptpPop_keeps ..)
      (.refl ..))))

theorem execPtpSend_frame (kind : ℕ) (clock : ℕ) : FrameOf (execPtpSend kind clock) (Keys [.all 0x4800 [0x0B, 0x16,
    0x17], .all 0x4900 [0x02, 0x04], .all 0x4C00 [0x15, 0x19, 0x1B], .all 0x5001 [0x19, 0x1B], .all 0x5010 [0x03], .all
    0x5300 [0x01, 0x02, 0x03, 0x04, 0x06], .ctr 118 123, .ctr 140 140, .ctr 141 141]) [.clock, .net, .time] := by
  refine .runCtl fun s t => ?_
  exact .ite (.at_ (.refl ..)) (.ite (.ite (.at_ (.refl ..)) (.step (Tx.sendStamped_keeps ..) (.setTime (.at_ (.refl
      ..))))) (.ite (.ite (.at_ (.refl ..)) (.setTime (.step (Tx.ptpOut_keeps ..) (.at_ (.refl ..))))) (.at_ (.refl ..))))

theorem execPpsEdge_frame (clock : ℕ) : FrameOf (execPpsEdge clock) (Keys [.all 0x5000 [0x04, 0x07, 0x08, 0x09, 0x0B,
    0x17, 0x18, 0x1C], .all 0x5001 [0x15]]) [.clock, .free, .maps, .engines, .time] := by
  refine .run fun s t => ?_
  exact .ite (.at_ (.refl ..)) (.ite (.setTime (.wi (.at_ (.refl ..)))) (.w (.step (Tx.measured_keeps ..) (.setTime (.wi
      (.at_ (.refl ..)))))))

theorem execPpsLost_frame : FrameOf execPpsLost (Keys [.all 0x5000 [0x04, 0x07, 0x08, 0x0B, 0x17, 0x1A, 0x1C], .all
    0x5001 [0x15], .ctr 143 143]) [.maps, .time] := by
  refine .runCtl fun s t => ?_
  split
  · exact .ite (.refl ..) (.step (Tx.sourceLost_keeps ..) (.flagBit (.w (.setTime (.refl ..)))))
  · exact .refl ..

theorem Tx.disarm_keepsAt (t : Tx s0) (n : ℕ) (hn : n < 65536 := by assumption) : KeepsAt n [.all 0x5100 [0x01, 0x07]]
      [] [] [.time] t.cur (t.disarm n).cur := by
  dsimp only [Tx.disarm]
  exact .wKey (.wKey (.setTime (.refl ..)) .one) .one

theorem Tx.fire_keepsAt (t : Tx s0) (n : ℕ) (ns : ℕ) (hn : n < 65536 := by assumption) : KeepsAt n [.all 0x5100 [0x08,
      0x09, 0x0B]] [144] [.all 0x5F00 [0x01, 0x02]] [.outs, .time] t.cur (t.fire n ns).cur := by
  dsimp only [Tx.fire]
  exact .when (fun _ => .stepIn (Tx.ppsRise_keeps ..) (.refl ..)) (.when (fun _ => .stepIn (Tx.eventRecord_keeps ..)
      (.refl ..)) (.when (fun _ => .stepIn (Tx.rakeSet_keeps ..) (.refl ..)) (.msg (.flagBitKey (.wKey (.tallyAt (.refl ..))
      .one) .one))))

theorem Tx.setTarget_keepsAt (t : Tx s0) (n : ℕ) (target : ℕ) (hn : n < 65536 := by assumption) : KeepsAt n [.all
      0x5100 [0x07]] [] [] [.time] t.cur (t.setTarget n target).cur := by
  dsimp only [Tx.setTarget]
  exact .wKey (.setTime (.refl ..)) .one

theorem armRule_keepsAt (n : ℕ) (d : Bytes) (t : Tx s0) (hn : n < 65536 := by assumption) : KeepsAt n [.all 0x5100
      [0x01, 0x07, 0x08, 0x09, 0x0B]] [144] [.all 0x5F00 [0x01, 0x02]] [.result, .outs, .time] t.cur (armRule n d t).cur :=
      by
  dsimp only [armRule]
  split
  · exact .ite (.refl ..) (.stepAt (Tx.disarm_keepsAt ..) (.when (fun _ => .stepAt (Tx.fire_keepsAt ..) (.refl ..))
        (.refl ..)))
  · exact .ite (.refl ..) (.ite (.status (.refl ..)) (.stepAt (Tx.setTarget_keepsAt ..) (.wKey (.refl ..) .one)))

theorem execTriggerArm_frameAt (h : ℕ) (n : ℕ) (d : Bytes) (hn : n < 65536) : FrameOf (execTriggerArm h n d) (KeysAt n
    [.all 0x5100 [0x01, 0x07, 0x08, 0x09, 0x0B]] [144] [.all 0x1200 [0x06, 0x07], .all 0x5F00 [0x01, 0x02]]) [.time] := by
  refine .run fun s t => ?_
  exact .guarded (fun _ => .stepAt (armRule_keepsAt ..) (.refl ..)) (.refl ..)

theorem execTriggerDisarm_frameAt (h : ℕ) (n : ℕ) (d : Bytes) (hn : n < 65536) : FrameOf (execTriggerDisarm h n d)
    (KeysAt n [.all 0x5100 [0x01, 0x07, 0x08, 0x09, 0x0B]] [144] [.all 0x1200 [0x06, 0x07], .all 0x5F00 [0x01, 0x02]])
    [.time] := by
  refine .run fun s t => ?_
  exact .guarded (fun _ => .stepAt (armRule_keepsAt ..) (.refl ..)) (.refl ..)

theorem execTriggerFire_frameAt (n : ℕ) (clock : ℕ) (hn : n < 65536) : FrameOf (execTriggerFire n clock) (KeysAt n [.all
    0x5100 [0x01, 0x07, 0x08, 0x09, 0x0B]] [144] [.all 0x1200 [0x06, 0x07], .all 0x5F00 [0x01, 0x02]]) [.clock, .time] := by
  refine .run fun s t => ?_
  dsimp only
  split
  · exact .ite (.at_ (.refl ..)) (.ite (.stepAt (Tx.disarm_keepsAt ..) (.stepAt (Tx.fire_keepsAt ..) (.at_ (.refl ..))))
        (.stepAt (Tx.setTarget_keepsAt ..) (.stepAt (Tx.fire_keepsAt ..) (.at_ (.refl ..)))))
  · exact .at_ (.refl ..)

theorem execCapture_frameAt (n : ℕ) (clock : ℕ) (hn : n < 65536) : FrameOf (execCapture n clock) (KeysAt n [.all 0x5200
    [0x05, 0x06, 0x07, 0x08, 0x09, 0x0A]] [160] [.all 0x1200 [0x06, 0x07], .all 0x5F00 [0x01, 0x02]]) [.clock, .time] := by
  refine .run fun s t => ?_
  exact .ite (.at_ (.refl ..)) (.ite (.flagBitKey (.tallyKey (.at_ (.refl ..)) .one) .one) (.when (fun _ => .stepIn
      (Tx.eventRecord_keeps ..) (.refl ..)) (.when (fun _ => .stepIn (Tx.rakeSet_keeps ..) (.refl ..)) (.msg (.flagBitKey
      (.tallyAt (.wKey (.wKey (.wKey (.setTime (.at_ (.refl ..))) .one) .one) .one)) .one)))))

theorem execDelayReqSend_frame (clock : ℕ) : FrameOf (execDelayReqSend clock) (Keys [.all 0x4800 [0x0B, 0x16, 0x17], .all
    0x4900 [0x02, 0x04], .all 0x4C00 [0x15, 0x19, 0x1B], .all 0x5001 [0x19, 0x1B], .all 0x5010 [0x03], .all 0x5300 [0x01,
    0x02, 0x03, 0x04, 0x06], .ctr 118 123, .ctr 140 140, .ctr 141 141]) [.clock, .net, .time] := by
  refine .runCtl fun s t => ?_
  exact .ite (.at_ (.refl ..)) (.step (Tx.sendStamped_keeps ..) (.setTime (.at_ (.refl ..))))

theorem execNakRepeat_frame : FrameOf execNakRepeat (Keys [.all 0x4800 [0x0B, 0x16, 0x17], .all 0x4900 [0x02, 0x04], .all
    0x4C00 [0x15, 0x19, 0x1B], .all 0x5001 [0x19, 0x1B], .all 0x5010 [0x03], .all 0x5300 [0x01, 0x02, 0x03, 0x04, 0x06], .all
    0x5400 [0x12], .ctr 118 123, .ctr 140 140, .ctr 141 141]) [.net, .time, .sprk] := by
  refine .runCtl fun s t => ?_
  exact .ite (.each (fun _ _ => .step (Tx.sendNak_keeps ..) (.refl ..)) (.refl ..)) (.refl ..)

theorem execGapSkip_frame : FrameOf execGapSkip (Keys [.all 0x2000 [0x14, 0x15, 0x16, 0x17], .all 0x2800 [0x0E, 0x11],
    .all 0x5400 [0x0D, 0x10, 0x11, 0x14, 0x16, 0x17, 0x1C], .ctr 3 3, .ctr 11 11, .ctr 12 12]) [.scene, .sprk, .meas] := by
  refine .runCtl fun s t => ?_
  split
  · exact .ite (.step (Tx.sprkResync_keeps ..) (.flagBit (.tally (.step (Tx.sprkFlush_keeps ..) (.refl ..))))) (.refl ..)
  · exact .refl ..

theorem execSnapshotRequestRepeat_frame : FrameOf execSnapshotRequestRepeat (Keys [.all 0x4800 [0x0B, 0x16, 0x17], .all
    0x4900 [0x02, 0x04], .all 0x4C00 [0x15, 0x19, 0x1B], .all 0x5001 [0x19, 0x1B], .all 0x5010 [0x03], .all 0x5300 [0x01,
    0x02, 0x03, 0x04, 0x06], .ctr 118 123, .ctr 140 140, .ctr 141 141]) [.net, .time, .sprk] := by
  refine .runCtl fun s t => ?_
  exact .ite (.step (Tx.sprkSet_keeps ..) (.step (Tx.sprkSend_keeps ..) (.refl ..))) (.refl ..)

theorem execHeartbeat_frame : FrameOf execHeartbeat (Keys [.all 0x4800 [0x0B, 0x16, 0x17], .all 0x4900 [0x02, 0x04], .all
    0x4C00 [0x15, 0x19, 0x1B], .all 0x5001 [0x19, 0x1B], .all 0x5010 [0x03], .all 0x5300 [0x01, 0x02, 0x03, 0x04, 0x06], .ctr
    118 123, .ctr 140 140, .ctr 141 141]) [.net, .time, .sprk] := by
  refine .runCtl fun s t => ?_
  exact .ite (.step (Tx.sendHeartbeat_keeps ..) (.refl ..)) (.refl ..)

theorem execStatus_frame : FrameOf execStatus (Keys [.all 0x4800 [0x0B, 0x16, 0x17], .all 0x4900 [0x02, 0x04], .all
    0x4C00 [0x15, 0x19, 0x1B], .all 0x5001 [0x19, 0x1B], .all 0x5010 [0x03], .all 0x5300 [0x01, 0x02, 0x03, 0x04, 0x06], .ctr
    118 123, .ctr 140 140, .ctr 141 141]) [.net, .time, .sprk] := by
  refine .runCtl fun s t => ?_
  exact .ite (.refl ..) (.step (Tx.sprkSet_keeps ..) (.step (Tx.sprkSend_keeps ..) (.refl ..)))

theorem execPromoted_frame : FrameOf execPromoted (Keys [.all 0x2000 [0x14, 0x15, 0x16, 0x17], .all 0x2800 [0x0E, 0x11],
    .all 0x4800 [0x0B, 0x16, 0x17], .all 0x4900 [0x02, 0x04], .all 0x4C00 [0x15, 0x19, 0x1B], .all 0x5001 [0x19, 0x1B], .all
    0x5010 [0x03], .all 0x5300 [0x01, 0x02, 0x03, 0x04, 0x06], .all 0x5400 [0x0D, 0x0E, 0x0F, 0x10, 0x11, 0x16, 0x17, 0x1C],
    .ctr 3 3, .ctr 11 11, .ctr 118 123, .ctr 140 140, .ctr 141 141]) [.scene, .net, .time, .sprk] := by
  refine .runCtl fun s t => ?_
  exact .ite (.refl ..) (.flagBit (.step (Tx.sendHeartbeat_keeps ..) (.step (Tx.sprkTo_keeps ..) (.w (.w (.step
      (Tx.sprkSet_keeps ..) (.step (Tx.sprkFlush_keeps ..) (.refl ..))))))))

theorem execHedgeEnable_frame (h : ℕ) (d : Bytes) : FrameOf (execHedgeEnable h d) (Keys [.all 0x5A00 [0x01, 0x06]])
    [.hedge] := by
  refine .run fun s t => ?_
  exact .guarded (fun _ => .step (hedgeRule_keeps ..) (.refl ..)) (.refl ..)

theorem execHedgeDisable_frame (h : ℕ) (d : Bytes) : FrameOf (execHedgeDisable h d) (Keys [.all 0x5A00 [0x01, 0x06]])
    [.hedge] := by
  refine .run fun s t => ?_
  exact .guarded (fun _ => .step (hedgeRule_keeps ..) (.refl ..)) (.refl ..)

theorem execHedgeRampDownEnd_frame (n : ℕ) : FrameOf (execHedgeRampDownEnd n) (Keys []) [.hedge] := by
  refine .run fun s t => ?_
  split
  · exact .ite (.refl ..) (.step (Tx.setMod_keeps ..) (.step (Tx.modLow_keeps ..) (.refl ..)))
  · exact .refl ..

theorem execModEnFall_frame : FrameOf execModEnFall (Keys [.all 0x5A00 [0x06]]) [.hedge] := by
  refine .run fun s t => ?_
  exact .ite (.refl ..) (.emit (.emit (.w (.step (Tx.burstsTo_keeps ..) (.refl ..)))))

theorem Tx.modTo_keepsAt (t : Tx s0) (c : ℕ) (st : ℕ) (hn : c < 65536 := by assumption) : KeepsAt c [.all 0x5800
      [0x02]] [] [] [] t.cur (t.modTo c st).cur := by
  dsimp only [Tx.modTo]
  exact .ite (.refl ..) (.stepIn (Tx.modMsg_keeps ..) (.wKey (.refl ..) .one))

theorem channelRule_keepsAt (c : ℕ) (d : Bytes) (t : Tx s0) (hn : c < 65536 := by assumption) : KeepsAt c [.all 0x5800
      [0x01, 0x02]] [] [] [.outs, .hedge] t.cur (channelRule c d t).cur := by
  dsimp only [channelRule]
  exact .ite (.ite (.stepAt (Tx.modTo_keepsAt ..) (.wKey (.refl ..) .one)) (.wKey (.refl ..) .one)) (.ite (.stepAt
      (Tx.modTo_keepsAt ..) (.wKey (.refl ..) .one)) (.ite (.ite (.stepAt (Tx.modTo_keepsAt ..) (.stepIn (Tx.setMod_keeps ..)
      (.wKey (.refl ..) .one))) (.stepIn (Tx.modDown_keeps ..) (.wKey (.refl ..) .one))) (.wKey (.refl ..) .one)))

theorem execChannelEnable_frameAt (h : ℕ) (n : ℕ) (d : Bytes) (hn : n < 65536) : FrameOf (execChannelEnable h n d)
    (KeysAt n [.all 0x5800 [0x01, 0x02]] [] []) [.hedge] := by
  refine .run fun s t => ?_
  exact .guarded (fun _ => .stepAt (channelRule_keepsAt ..) (.refl ..)) (.refl ..)

theorem execChannelDisable_frameAt (h : ℕ) (n : ℕ) (d : Bytes) (hn : n < 65536) : FrameOf (execChannelDisable h n d)
    (KeysAt n [.all 0x5800 [0x01, 0x02]] [] []) [.hedge] := by
  refine .run fun s t => ?_
  exact .guarded (fun _ => .stepAt (channelRule_keepsAt ..) (.refl ..)) (.refl ..)

theorem execChannelOff_frameAt (n : ℕ) (hn : n < 65536) : FrameOf (execChannelOff n) (KeysAt n [.all 0x5800 [0x02]] []
    []) [.hedge] := by
  refine .run fun s t => ?_
  split
  · exact .ite (.refl ..) (.ite (.stepAt (Tx.modTo_keepsAt ..) (.stepAt (Tx.modTo_keepsAt ..) (.stepIn (Tx.setMod_keeps
        ..) (.stepIn (Tx.modLow_keeps ..) (.refl ..))))) (.stepAt (Tx.modTo_keepsAt ..) (.stepIn (Tx.setMod_keeps ..)
        (.stepIn (Tx.modLow_keeps ..) (.refl ..)))))
  · exact .refl ..

theorem Tx.modStart_keepsAt (t : Tx s0) (c : ℕ) (j : ℕ) (hn : c < 65536 := by assumption) : KeepsAt c [.all 0x5800
      [0x02]] [] [] [.hedge] t.cur (t.modStart c j).cur := by
  dsimp only [Tx.modStart]
  exact .stepAt (Tx.modTo_keepsAt ..) (.stepIn (Tx.setMod_keeps ..) (.refl ..))

theorem execChannelStart_frameAt (n : ℕ) (hn : n < 65536) : FrameOf (execChannelStart n) (KeysAt n [.all 0x5800 [0x02]]
    [] []) [.hedge] := by
  refine .run fun s t => ?_
  exact .ite (.stepAt (Tx.modStart_keepsAt ..) (.refl ..)) (.refl ..)

theorem execStartRampEnd_frameAt (n : ℕ) (hn : n < 65536) : FrameOf (execStartRampEnd n) (KeysAt n [.all 0x5800 [0x02]]
    [] []) [.hedge] := by
  refine .run fun s t => ?_
  dsimp only
  split
  · exact .ite (.stepAt (Tx.modTo_keepsAt ..) (.stepIn (Tx.setMod_keeps ..) (.stepIn (Tx.modNow_keeps ..) (.refl ..))))
        (.refl ..)
  · exact .refl ..

theorem Tx.recause_keepsAt (t : Tx s0) (c : ℕ) (cause : ℕ) (hn : c < 65536 := by assumption) : KeepsAt c [.all 0x5800
      [0x02, 0x14, 0x1C]] [] [.all 0x5A00 [0x07, 0x0F]] [] t.cur (t.recause c cause).cur := by
  dsimp only [Tx.recause]
  exact .when (fun _ => .unflagKey (.refl ..) .all) (.when (fun _ => .flagBitKey (.refl ..) .all) (.when (fun _ => .when
      (fun _ => .unflagKey (.refl ..) .all) (.flagBitKey (.unflagKey (.refl ..) .one) .one)) (.stepIn (Tx.retell_keeps ..)
      (.wKey (.wbKey (.wKey (.refl ..) .one) .all) .one))))

theorem Tx.tripNow_keepsAt (t : Tx s0) (c : ℕ) (cause : ℕ) (hn : c < 65536 := by assumption) : KeepsAt c [.all 0x5800
      [0x02, 0x12, 0x13, 0x14, 0x15, 0x1C]] [168] [.all 0x5A00 [0x07, 0x08, 0x09, 0x0F]] [.outs, .hedge, .meas] t.cur
      (t.tripNow c cause).cur := by
  dsimp only [Tx.tripNow]
  exact .stepIn (Tx.modMsg_keeps ..) (.stepIn (Tx.freezeOn_keeps ..) (.wKey (.when (fun _ => .setHedge (.refl ..))
      (.stepIn (Tx.setMod_keeps ..) (.when (fun _ => .flagBitKey (.refl ..) .all) (.when (fun _ => .flagBitKey (.refl ..)
      .all) (.flagBitKey (.wKey (.wKey (.wKey (.stepIn (l' := [.all 0x5A00 [0x08]]) (M' := []) (.tally (.refl ..)) (.tallyAt
      (.wbKey (.when (fun _ => .stepIn (l' := [.all 0x5A00 [0x09]]) (M' := []) (.tally (.refl ..)) (.refl ..)) (.stepIn
      (Tx.modCut_keeps ..) (.refl ..))) .all))) .one) .one) .one) .one))))) .one))

theorem Tx.trip_keepsAt (t : Tx s0) (c : ℕ) (cause : ℕ) (hn : c < 65536 := by assumption) : KeepsAt c [.all 0x5800
      [0x02, 0x12, 0x13, 0x14, 0x15, 0x1C]] [168] [.all 0x5A00 [0x07, 0x08, 0x09, 0x0F]] [.outs, .hedge, .meas] t.cur (t.trip
      c cause).cur := by
  dsimp only [Tx.trip]
  exact .ite (.ite (.refl ..) (.stepAt (Tx.recause_keepsAt ..) (.refl ..))) (.ite (.stepAt (Tx.tripNow_keepsAt ..) (.refl
      ..)) (.refl ..))

theorem execSenseFrame_frameAt (n : ℕ) (word : ℕ) (clock : ℕ) (hn : n < 65536) : FrameOf (execSenseFrame n word clock)
    (KeysAt n [.all 0x5800 [0x02, 0x12, 0x13, 0x14, 0x15, 0x1B, 0x1C]] [168] [.all 0x5A00 [0x07, 0x08, 0x09, 0x0F]]) [.clock,
    .hedge, .meas] := by
  refine .run fun s t => ?_
  dsimp only
  split
  · exact .at_ (.refl ..)
  · exact .ite (.ite (.stepAt (Tx.trip_keepsAt ..) (.when (fun _ => .flagBitKey (.refl ..) .one) (.stepIn
        (Tx.setMod_keeps ..) (.at_ (.refl ..))))) (.when (fun _ => .flagBitKey (.refl ..) .one) (.stepIn (Tx.setMod_keeps ..)
        (.at_ (.refl ..))))) (.ite (.stepAt (Tx.trip_keepsAt ..) (.flagBitKey (.incKey (.stepIn (Tx.setMod_keeps ..) (.at_
        (.refl ..))) .one) .one)) (.flagBitKey (.incKey (.stepIn (Tx.setMod_keeps ..) (.at_ (.refl ..))) .one) .one))

theorem execFaultIdentify_frame (n : ℕ) (clock : ℕ) : FrameOf (execFaultIdentify n clock) (Keys [.all 0x5800 [0x02, 0x12,
    0x13, 0x14, 0x15, 0x1C], .all 0x5A00 [0x07, 0x08, 0x09, 0x0F], .ctr 168 191]) [.clock, .hedge, .meas] := by
  refine .run fun s t => ?_
  exact .each (fun _ _ => .step (Tx.faultTrips_keeps ..) (.refl ..)) (.setHedge (.at_ (.refl ..)))

theorem execRetry_frameAt (n : ℕ) (hn : n < 65536) : FrameOf (execRetry n) (KeysAt n [.all 0x5800 [0x02, 0x12, 0x13,
    0x14, 0x15, 0x1C]] [168] [.all 0x5A00 [0x07, 0x08, 0x09, 0x0F]]) [.hedge, .meas] := by
  refine .run fun s t => ?_
  exact .ite (.refl ..) (.ite (.stepAt (Tx.modTo_keepsAt ..) (.refl ..)) (.stepAt (Tx.tripNow_keepsAt ..) (.refl ..)))

theorem clearLatchRule_keepsAt (c : ℕ) (t : Tx s0) (hn : c < 65536 := by assumption) : KeepsAt c [.all 0x5800 [0x02,
      0x13]] [] [] [.result, .hedge] t.cur (clearLatchRule c t).cur := by
  dsimp only [clearLatchRule]
  exact .ite (.status (.refl ..)) (.stepAt (Tx.modTo_keepsAt ..) (.stepIn (Tx.setMod_keeps ..) (.wKey (.refl ..) .one)))

theorem execClearLatch_frameAt (h : ℕ) (n : ℕ) (d : Bytes) (hn : n < 65536) : FrameOf (execClearLatch h n d) (KeysAt n
    [.all 0x5800 [0x02, 0x13]] [] []) [.hedge] := by
  refine .run fun s t => ?_
  exact .guarded (fun _ => .stepAt (clearLatchRule_keepsAt ..) (.refl ..)) (.refl ..)

theorem execClearTripLog_frame (h : ℕ) (d : Bytes) : FrameOf (execClearTripLog h d) (Keys [.all 0x5A00 [0x07]]) [] := by
  refine .run fun s t => ?_
  exact .guarded (fun _ => .step (clearTripLogRule_keeps ..) (.refl ..)) (.refl ..)

theorem execHedgeBlock_frame : FrameOf execHedgeBlock (Keys [.all 0x5800 [0x02, 0x12, 0x13, 0x14, 0x15, 0x16, 0x17, 0x19,
    0x1A, 0x1C], .all 0x5A00 [0x07, 0x08, 0x09, 0x0F], .ctr 168 191]) [.hedge, .meas] := by
  refine .run fun s t => ?_
  exact .ite (.refl ..) (.each (fun _ _ => .step (Tx.hedgeChannel_keeps ..) (.refl ..)) (.setHedge (.refl ..)))

theorem execImpedanceWindow_frameAt (n : ℕ) (hn : n < 65536) : FrameOf (execImpedanceWindow n) (KeysAt n [.all 0x5800
    [0x18, 0x1C]] [] []) [.hedge] := by
  refine .run fun s t => ?_
  exact .ite (.refl ..) (.ite (.stepIn (Tx.setMod_keeps ..) (.refl ..)) (.when (fun _ => .flagBitKey (.refl ..) .one)
      (.when (fun _ => .flagBitKey (.refl ..) .one) (.wKey (.stepIn (Tx.setMod_keeps ..) (.refl ..)) .one))))

theorem execNewCarrier_frame : FrameOf execNewCarrier (Keys [.all 0x5800 [0x02], .all 0x5900 [0x05], .all 0x5A00 [0x04]])
    [.hedge] := by
  refine .run fun s t => ?_
  split
  · exact .ite (.refl ..) (.each (fun _ _ => .ite (.step (Tx.modStart_keeps ..) (.step (Tx.setMod_keeps ..) (.refl ..)))
        (.step (Tx.setMod_keeps ..) (.refl ..))) (.step (Tx.showMargins_keeps ..) (.setHedge (.w (.step (Tx.burstsTo_keeps
        ..) (.refl ..))))))
  · exact .refl ..

theorem execResynchronise_frame (h : ℕ) (sub : ℕ) (d : Bytes) : FrameOf (execResynchronise h sub d) (Keys [.all 0x5C00
    [0x01], .all 0x5C10 [0x0A]]) [.meas] := by
  refine .run fun s t => ?_
  exact .ite (.guarded (fun _ => .step (resyncRule_keeps ..) (.refl ..)) (.refl ..)) (.status (.refl ..))

theorem execDecimatorReset_frame : FrameOf execDecimatorReset (Keys [.all 0x5C00 [0x04, 0x05, 0x09], .all 0x5C10 [0x0A]])
    [.meas] := by
  refine .run fun s t => ?_
  split
  · exact .ite (.step (Tx.decimReset_keeps ..) (.refl ..)) (.refl ..)
  · exact .refl ..

theorem Tx.micTo_keepsAt (t : Tx s0) (m : ℕ) (st : ℕ) (hn : m < 65536 := by assumption) : KeepsAt m [.all 0x5C10
      [0x0A]] [] [] [.meas] t.cur (t.micTo m st).cur := by
  dsimp only [Tx.micTo]
  exact .wKey (.when (fun _ => .stepIn (Tx.spoil_keeps ..) (.refl ..)) (.refl ..)) .one

theorem execSettlingEnd_frameAt (n : ℕ) (hn : n < 65536) : FrameOf (execSettlingEnd n) (KeysAt n [.all 0x5C10 [0x0A,
    0x10]] [] []) [.meas] := by
  refine .run fun s t => ?_
  exact .ite (.refl ..) (.when (fun _ => .flagBitKey (.refl ..) .one) (.stepAt (Tx.micTo_keepsAt ..) (.stepIn
      (Tx.setMic_keeps ..) (.refl ..))))

theorem execNoData_frameAt (n : ℕ) (hn : n < 65536) : FrameOf (execNoData n) (KeysAt n [.all 0x5C10 [0x0A, 0x0F, 0x10]]
    [192] []) [.meas] := by
  refine .run fun s t => ?_
  exact .ite (.refl ..) (.flagBitKey (.tallyAt (.stepAt (Tx.micTo_keepsAt ..) (.stepIn (Tx.setMic_keeps ..) (.refl ..))))
      .one)

theorem execPdmDataResumed_frame (n : ℕ) : FrameOf (execPdmDataResumed n) (Keys []) [.meas] := by
  refine .run fun s t => ?_
  exact .ite (.refl ..) (.step (Tx.setMic_keeps ..) (.refl ..))

theorem compRule_keepsAt (m : ℕ) (d : Bytes) (t : Tx s0) (hn : m < 65536 := by assumption) : KeepsAt m [.all 0x5C10
      [0x07, 0x0B, 0x10]] [] [] [.result, .meas] t.cur (compRule m d t).cur := by
  dsimp only [compRule]
  exact .ite (.status (.refl ..)) (.ite (.status (.refl ..)) (.when (fun _ => .wKey (.refl ..) .one) (.stepIn
      (Tx.setMic_keeps ..) (.when (fun _ => .flagBitKey (.refl ..) .one) (.wbKey (.refl ..) .one)))))

theorem execCompensationWrite_frameAt (h : ℕ) (n : ℕ) (d : Bytes) (hn : n < 65536) : FrameOf (execCompensationWrite h n
    d) (KeysAt n [.all 0x5C10 [0x07, 0x0B, 0x10]] [] []) [.meas] := by
  refine .run fun s t => ?_
  exact .guarded (fun _ => .stepAt (compRule_keepsAt ..) (.refl ..)) (.refl ..)

theorem execCompensationSwitch_frameAt (n : ℕ) (hn : n < 65536) : FrameOf (execCompensationSwitch n) (KeysAt n [.all
    0x5C10 [0x0B]] [] []) [.meas] := by
  refine .run fun s t => ?_
  dsimp only
  split
  · exact .ite (.refl ..) (.wKey (.stepIn (Tx.setMic_keeps ..) (.refl ..)) .one)
  · exact .refl ..

theorem openRule_keepsAt (k : ℕ) (d : Bytes) (t : Tx s0) (hn : k < 65536 := by assumption) : KeepsAt k [.all 0x5D10
      [0x01, 0x04, 0x0E]] [] [] [.meas] t.cur (openRule k d t).cur := by
  dsimp only [openRule]
  refine .ite (.wKey (.refl ..) .one) (?_)
  split
  · split
    · exact .ite (.wKey (.flagBitKey (.setMeas (.setMeas (.wKey (.refl ..) .one))) .one) .one) (.setMeas (.wKey (.refl
          ..) .one))
    · exact .setMeas (.wKey (.refl ..) .one)
  · exact .setMeas (.wKey (.refl ..) .one)

theorem execOpenOutput_frameAt (h : ℕ) (n : ℕ) (d : Bytes) (hn : n < 65536) : FrameOf (execOpenOutput h n d) (KeysAt n
    [.all 0x5D10 [0x01, 0x04, 0x0E]] [] []) [.meas] := by
  refine .run fun s t => ?_
  exact .guarded (fun _ => .stepAt (openRule_keepsAt ..) (.refl ..)) (.refl ..)

theorem execCloseOutput_frameAt (h : ℕ) (n : ℕ) (d : Bytes) (hn : n < 65536) : FrameOf (execCloseOutput h n d) (KeysAt n
    [.all 0x5D10 [0x01, 0x04, 0x0E]] [] []) [.meas] := by
  refine .run fun s t => ?_
  exact .guarded (fun _ => .stepAt (openRule_keepsAt ..) (.refl ..)) (.refl ..)

theorem execStartRun_frame (h : ℕ) (d : Bytes) : FrameOf (execStartRun h d) (Keys [.all 0x5D00 [0x0B, 0x0C, 0x0E], .all
    0x5F00 [0x04], .all 0x5F10 [0x01, 0x04, 0x05, 0x06]]) [.free, .meas, .pool] := by
  refine .run fun s t => ?_
  exact .guarded (fun _ => .step (startRule_keeps ..) (.refl ..)) (.refl ..)

theorem execStimulusStart_frame : FrameOf execStimulusStart (Keys [.all 0x5D00 [0x0B, 0x0D], .all 0x5D10 [0x0D]]) [.meas]
    := by
  refine .run fun s t => ?_
  split
  · split
    · exact .ite (.refl ..) (.w (.w (.w (.setMeas (.refl ..)))))
    · exact .refl ..
  · exact .refl ..

theorem execCaptureAnalysis_frame : FrameOf execCaptureAnalysis (Keys [.all 0x5D00 [0x0E], .all 0x5D10 [0x04, 0x05, 0x06,
    0x07, 0x08, 0x09, 0x0A, 0x0B, 0x0C], .all 0x5E00 [0x0B], .all 0x5F00 [0x05, 0x06, 0x08, 0x09], .all 0x5F10 [0x07, 0x08,
    0x09], .ctr 243 243, .ctr 244 244]) [.free, .meas, .pool] := by
  refine .run fun s t => ?_
  split
  · split
    · refine .ite (.refl ..) (.step (Tx.analyse_keeps ..) (.step (Tx.setTask_keeps ..) (?_)))
      split
      · exact .when (fun _ => .step (Tx.dispatchOwn_keeps ..) (.refl ..)) (.refl ..)
      · exact .refl ..
    · exact .refl ..
  · exact .refl ..

theorem execRunDone_frame : FrameOf execRunDone (Keys [.all 0x2800 [0x08, 0x09], .all 0x5D00 [0x0B, 0x0D, 0x0F, 0x10,
    0x11, 0x12, 0x13, 0x14], .all 0x5D10 [0x08, 0x09, 0x0E], .all 0x5F00 [0x04], .all 0x5F10 [0x01, 0x02, 0x03, 0x04, 0x05,
    0x06, 0x07, 0x08, 0x09]]) [.free, .meas, .pool] := by
  refine .run fun s t => ?_
  split
  · exact .ite (.refl ..) (.flagBit (.inc (.w (.w (.step (Tx.taskFree_keeps ..) (.setMeas (.step (Tx.soundSpeed_keeps ..)
        (.step (Tx.propose_keeps ..) (.refl ..)))))))))
  · exact .refl ..

theorem execAbortRun_frame (h : ℕ) (d : Bytes) : FrameOf (execAbortRun h d) (Keys [.all 0x5D00 [0x0B, 0x0D, 0x14], .all
    0x5D10 [0x04, 0x05, 0x06, 0x07, 0x08, 0x09, 0x0A, 0x0B, 0x0C, 0x0D], .all 0x5F00 [0x04], .all 0x5F10 [0x01, 0x02, 0x03,
    0x04, 0x05, 0x06, 0x07, 0x08, 0x09]]) [.meas, .pool] := by
  refine .run fun s t => ?_
  exact .guarded (fun _ => .step (Tx.abortRun_keeps ..) (.refl ..)) (.refl ..)

theorem execFreeze_frame (cause : ℕ) : FrameOf (execFreeze cause) (Keys [.all 0x5D80 [0x06, 0x0C, 0x0D]]) [.meas] := by
  refine .run fun s t => ?_
  split
  · exact .ite (.refl ..) (.step (Tx.freeze_keeps ..) (.setMeas (.refl ..)))
  · exact .refl ..

theorem execPostEnd_frame : FrameOf execPostEnd (Keys [.all 0x5D80 [0x06, 0x08, 0x09, 0x0A, 0x0B, 0x0D]]) [] := by
  refine .run fun s t => ?_
  exact .ite (.refl ..) (.flagBit (.w (.w (.w (.w (.w (.refl ..)))))))

theorem execRearm_frame (h : ℕ) (d : Bytes) : FrameOf (execRearm h d) (Keys [.all 0x5D80 [0x06, 0x08, 0x09, 0x0A, 0x0B]])
    [.meas] := by
  refine .run fun s t => ?_
  exact .guarded (fun _ => .step (rearmRule_keeps ..) (.refl ..)) (.refl ..)

theorem Tx.chainRefuse_keepsAt (t : Tx s0) (c : ℕ) (reason : ℕ) (item : ℕ) (hn : c < 65536 := by assumption) : KeepsAt
      c [.all 0x5E10 [0x11, 0x12, 0x13]] [] [] [.result] t.cur (t.chainRefuse c reason item).cur := by
  dsimp only [Tx.chainRefuse]
  exact .status (.flagBitKey (.wKey (.wKey (.refl ..) .one) .one) .one)

theorem Tx.showChain_keepsAt (t : Tx s0) (c : ℕ) (hn : c < 65536 := by assumption) : KeepsAt c [.all 0x5E10 [0x08,
      0x09, 0x0A, 0x0B]] [] [] [] t.cur (t.showChain c).cur := by
  dsimp only [Tx.showChain]
  exact .wKey (.wKey (.wKey (.wKey (.refl ..) .one) .one) .one) .one

theorem descRule_keepsAt (h : ℕ) (c : ℕ) (d : Bytes) (t : Tx s0) (hn : c < 65536 := by assumption) : KeepsAt c [.all
      0x5E10 [0x02, 0x05, 0x08, 0x09, 0x0A, 0x0B, 0x11, 0x12, 0x13]] [] [] [.result, .pool] t.cur (descRule h c d t).cur :=
      by
  dsimp only [descRule]
  refine .ite (.status (.refl ..)) (.ite (.status (.refl ..)) (?_))
  split
  · exact .status (.refl ..)
  · split
    · exact .ite (.stepAt (Tx.chainRefuse_keepsAt ..) (.refl ..)) (.status (.refl ..))
    · exact .stepAt (Tx.showChain_keepsAt ..) (.stepIn (Tx.setChainSt_keeps ..) (.wKey (.wKey (.wKey (.wbKey (.refl ..)
          .one) .one) .one) .one))

theorem execDescriptionWrite_frameAt (h : ℕ) (n : ℕ) (d : Bytes) (hn : n < 65536) : FrameOf (execDescriptionWrite h n d)
    (KeysAt n [.all 0x5E10 [0x02, 0x05, 0x08, 0x09, 0x0A, 0x0B, 0x11, 0x12, 0x13]] [] []) [.pool] := by
  refine .run fun s t => ?_
  exact .guarded (fun _ => .stepAt (descRule_keepsAt ..) (.refl ..)) (.refl ..)

theorem execChainEnable_frame (h : ℕ) (n : ℕ) (d : Bytes) : FrameOf (execChainEnable h n d) (Keys [.all 0x5E00 [0x01],
    .all 0x5E01 [0x01, 0x02, 0x03, 0x04, 0x05, 0x07, 0x08, 0x09], .all 0x5E10 [0x01, 0x05, 0x06, 0x07, 0x08, 0x09, 0x0A,
    0x0B, 0x11, 0x12, 0x13], .all 0x5F00 [0x04], .all 0x5F10 [0x01, 0x02, 0x03, 0x04, 0x05], ⟨0x6510, 0x65C7, none, [0x01,
    0x02]⟩]) [.pool] := by
  refine .run fun s t => ?_
  exact .guarded (fun _ => .step (chainRule_keeps ..) (.refl ..)) (.refl ..)

theorem execChainDisable_frame (h : ℕ) (n : ℕ) (d : Bytes) : FrameOf (execChainDisable h n d) (Keys [.all 0x5E00 [0x01],
    .all 0x5E01 [0x01, 0x02, 0x03, 0x04, 0x05, 0x07, 0x08, 0x09], .all 0x5E10 [0x01, 0x05, 0x06, 0x07, 0x08, 0x09, 0x0A,
    0x0B, 0x11, 0x12, 0x13], .all 0x5F00 [0x04], .all 0x5F10 [0x01, 0x02, 0x03, 0x04, 0x05], ⟨0x6510, 0x65C7, none, [0x01,
    0x02]⟩]) [.pool] := by
  refine .run fun s t => ?_
  exact .guarded (fun _ => .step (chainRule_keeps ..) (.refl ..)) (.refl ..)

theorem execChainRelease_frame (n : ℕ) : FrameOf (execChainRelease n) (Keys [.all 0x5E00 [0x01], .all 0x5E01 [0x01, 0x02,
    0x03, 0x04, 0x05, 0x07, 0x08, 0x09], .all 0x5E10 [0x01, 0x05, 0x06, 0x07, 0x08, 0x09, 0x0A, 0x0B, 0x11, 0x12, 0x13], .all
    0x5F00 [0x04], .all 0x5F10 [0x01, 0x02, 0x03, 0x04, 0x05, 0x06, 0x07, 0x08, 0x09], ⟨0x6510, 0x65C7, none, [0x01, 0x02]⟩])
    [.pool] := by
  refine .run fun s t => ?_
  dsimp only
  split
  · exact .ite (.refl ..) (.step (Tx.chainFree_keeps ..) (.refl ..))
  · exact .refl ..

theorem execParameterWrite_frame (h : ℕ) (n : ℕ) (d : Bytes) : FrameOf (execParameterWrite h n d) (Keys []) [.pool] := by
  refine .run fun s t => ?_
  exact .guarded (fun _ => .step (parRule_keeps ..) (.refl ..)) (.refl ..)

theorem execRunComplete_frame (n : ℕ) (cycles : ℕ) (bad : List PoolFault) (abort : Option ℕ) : FrameOf (execRunComplete n
    cycles bad abort) (Keys [.all 0x5E00 [0x06, 0x07, 0x08, 0x09, 0x0A, 0x0B, 0x0C], .all 0x5E01 [0x06], .all 0x5E10 [0x05,
    0x0C, 0x0D, 0x0E, 0x0F, 0x10, 0x13], .all 0x5F00 [0x01, 0x02, 0x05, 0x06, 0x08, 0x09], .all 0x5F10 [0x07, 0x08, 0x09],
    .all 0x6100 [0x03, 0x05, 0x09], .ctr 208 223, .ctr 224 239, .ctr 240 243, .ctr 243 243, .ctr 244 244, .ctr 249 249])
    [.free, .pool] := by
  refine .run fun s t => ?_
  dsimp only
  split
  · exact .refl ..
  · refine .each (fun _ _ => .step (Tx.dispatchOwn_keeps ..) (.refl ..)) (.step (Tx.dispatch_keeps ..) (.step
        (Tx.runMsg_keeps ..) (.ite (.step (Tx.missRun_keeps ..) (.each (fun _ _ => .counterIn (lo := 208) (hi := 223) (.step
        (Tx.charge_keeps ..) (.refl ..)) (by omega) (by omega)) (.w (.inc (.inc (?_)))))) (.ite (.each (fun _ _ => .counterIn
        (lo := 208) (hi := 223) (.step (Tx.charge_keeps ..) (.refl ..)) (by omega) (by omega)) (.w (.inc (.inc (?_)))))
        (.step (Tx.onTime_keeps ..) (.each (fun _ _ => .counterIn (lo := 208) (hi := 223) (.step (Tx.charge_keeps ..) (.refl
        ..)) (by omega) (by omega)) (.w (.inc (.inc (?_))))))))))
    · split
      · exact .step (Tx.sramBad_keeps ..) (.step (Tx.runFlags_keeps ..) (.step (Tx.poolBad_keeps ..) (.wb (.step
            (Tx.setChainSt_keeps ..) (.step (Tx.poolSettle_keeps ..) (.refl ..))))))
      · exact .step (Tx.runFlags_keeps ..) (.step (Tx.poolBad_keeps ..) (.wb (.wb (.step (Tx.setChainSt_keeps ..) (.step
            (Tx.poolSettle_keeps ..) (.refl ..))))))
    · split
      · exact .step (Tx.sramBad_keeps ..) (.step (Tx.runFlags_keeps ..) (.step (Tx.poolBad_keeps ..) (.wb (.step
            (Tx.setChainSt_keeps ..) (.step (Tx.poolSettle_keeps ..) (.refl ..))))))
      · exact .step (Tx.runFlags_keeps ..) (.step (Tx.poolBad_keeps ..) (.wb (.wb (.step (Tx.setChainSt_keeps ..) (.step
            (Tx.poolSettle_keeps ..) (.refl ..))))))
    · split
      · exact .step (Tx.sramBad_keeps ..) (.step (Tx.runFlags_keeps ..) (.step (Tx.poolBad_keeps ..) (.wb (.step
            (Tx.setChainSt_keeps ..) (.step (Tx.poolSettle_keeps ..) (.refl ..))))))
      · exact .step (Tx.runFlags_keeps ..) (.step (Tx.poolBad_keeps ..) (.wb (.wb (.step (Tx.setChainSt_keeps ..) (.step
            (Tx.poolSettle_keeps ..) (.refl ..))))))

theorem Tx.missRun_keepsAt (t : Tx s0) (c : ℕ) (hn : c < 65536 := by assumption) : KeepsAt c [.all 0x5E10 [0x05, 0x0D,
      0x13]] [] [.all 0x5E00 [0x07, 0x0C], .ctr 224 239] [.pool] t.cur (t.missRun c).cur := by
  dsimp only [Tx.missRun]
  exact .ite (.stepIn (Tx.setChainSt_keeps ..) (.flagBitKey (.flagBitKey (.stepIn (l' := [.all 0x5E00 [0x07]]) (M' := [])
      (.tally (.refl ..)) (.tallyKey (.each (fun _ _ => .stepIn (l' := [.ctr 224 239]) (M' := []) (.counterIn (lo := 224) (hi
      := 239) (.refl ..) (by omega) (by omega)) (.refl ..)) (.refl ..)) .one)) .one) .all)) (.flagBitKey (.flagBitKey
      (.stepIn (Tx.setChainSt_keeps ..) (.wKey (.stepIn (Tx.setChainSt_keeps ..) (.flagBitKey (.flagBitKey (.stepIn (l' :=
      [.all 0x5E00 [0x07]]) (M' := []) (.tally (.refl ..)) (.tallyKey (.each (fun _ _ => .stepIn (l' := [.ctr 224 239]) (M'
      := []) (.counterIn (lo := 224) (hi := 239) (.refl ..) (by omega) (by omega)) (.refl ..)) (.refl ..)) .one)) .one)
      .all)) .one)) .one) .all)

theorem execMissedRun_frameAt (n : ℕ) (hn : n < 65536) : FrameOf (execMissedRun n) (KeysAt n [.all 0x5E10 [0x05, 0x0D,
    0x13]] [] [.all 0x5E00 [0x07, 0x0C], .ctr 224 239]) [.pool] := by
  refine .run fun s t => ?_
  dsimp only
  split
  · exact .ite (.stepAt (Tx.missRun_keepsAt ..) (.stepIn (Tx.setChainSt_keeps ..) (.refl ..))) (.refl ..)
  · split
    · exact .ite (.stepAt (Tx.missRun_keepsAt ..) (.stepIn (Tx.setChainSt_keeps ..) (.refl ..))) (.refl ..)
    · exact .refl ..

theorem Tx.packRefuse_keepsAt (t : Tx s0) (k : ℕ) (reason : ℕ) (hn : k < 65536 := by assumption) : KeepsAt k [.all
      0x5E30 [0x08]] [] [] [.result] t.cur (t.packRefuse k reason).cur := by
  dsimp only [Tx.packRefuse]
  exact .status (.wKey (.refl ..) .one)

theorem Tx.packEmpty_keepsAt (t : Tx s0) (k : ℕ) (hn : k < 65536 := by assumption) : KeepsAt k [.all 0x5E30 [0x03,
      0x04, 0x06, 0x07]] [] [] [.power] t.cur (t.packEmpty k).cur := by
  dsimp only [Tx.packEmpty]
  exact .wbKey (.wKey (.wKey (.wKey (.setPower (.refl ..)) .one) .one) .one) .one

theorem packRule_keepsAt (k : ℕ) (d : Bytes) (t : Tx s0) (hn : k < 65536 := by assumption) : KeepsAt k [.all 0x5E30
      [0x03, 0x04, 0x06, 0x07, 0x08]] [] [] [.result, .free, .power] t.cur (packRule k d t).cur := by
  dsimp only [packRule]
  exact .ite (.status (.refl ..)) (.ite (.status (.refl ..)) (.ite (.status (.refl ..)) (.ite (.stepAt
      (Tx.packRefuse_keepsAt ..) (.refl ..)) (.ite (.stepAt (Tx.packRefuse_keepsAt ..) (.refl ..)) (.ite (.stepAt
      (Tx.packRefuse_keepsAt ..) (.refl ..)) (.ite (.stepAt (Tx.packRefuse_keepsAt ..) (.refl ..)) (.ite (.stepAt
      (Tx.packRefuse_keepsAt ..) (.refl ..)) (.stepIn (Tx.mramBegin_keeps ..) (.stepAt (Tx.packEmpty_keepsAt ..) (.refl
      ..))))))))))

theorem execPackWrite_frameAt (h : ℕ) (n : ℕ) (d : Bytes) (hn : n < 65536) : FrameOf (execPackWrite h n d) (KeysAt n
    [.all 0x5E30 [0x03, 0x04, 0x05, 0x06, 0x07, 0x08]] [] []) [.free, .power] := by
  refine .run fun s t => ?_
  exact .guarded (fun _ => .stepAt (packRule_keepsAt ..) (.refl ..)) (.refl ..)

theorem packEraseRule_keepsAt (k : ℕ) (t : Tx s0) (hn : k < 65536 := by assumption) : KeepsAt k [.all 0x5E30 [0x03,
      0x04, 0x06, 0x07]] [] [] [.result, .power] t.cur (packEraseRule k t).cur := by
  dsimp only [packEraseRule]
  exact .ite (.status (.refl ..)) (.ite (.status (.refl ..)) (.stepAt (Tx.packEmpty_keepsAt ..) (.refl ..)))

theorem execPackErase_frameAt (h : ℕ) (n : ℕ) (d : Bytes) (hn : n < 65536) : FrameOf (execPackErase h n d) (KeysAt n
    [.all 0x5E30 [0x03, 0x04, 0x06, 0x07]] [] []) [.power] := by
  refine .run fun s t => ?_
  exact .guarded (fun _ => .stepAt (packEraseRule_keepsAt ..) (.refl ..)) (.refl ..)

theorem execFlagRaise_frame (n : ℕ) : FrameOf (execFlagRaise n) (Keys [.all 0x5E00 [0x07, 0x0B, 0x0C], .all 0x5E01
    [0x0A], .all 0x5E10 [0x05, 0x0D, 0x13], .all 0x5F00 [0x01, 0x02, 0x04, 0x05, 0x06, 0x07, 0x08, 0x09], .all 0x5F10 [0x01,
    0x02, 0x03, 0x04, 0x05, 0x06, 0x07, 0x08, 0x09], .all 0x5F20 [0x04, 0x05], .all 0x6020 [0x03], .ctr 224 239, .ctr 240
    243, .ctr 243 243, .ctr 244 244, .ctr 245 245]) [.free, .pool, .mem] := by
  refine .run fun s t => ?_
  exact .ite (.refl ..) (.each (fun _ _ => .step (Tx.dispatchOwn_keeps ..) (.step (Tx.dispatch_keeps ..) (.fresh (.refl
      ..)))) (.each (fun _ _ => .step (Tx.taskEvents_keeps ..) (.step (Tx.taskHand_keeps ..) (.refl ..))) (.step
      (Tx.tasksHold_keeps ..) (.each (fun _ _ => .step (Tx.release_keeps ..) (.refl ..)) (.when (fun _ => .when (fun _ =>
      .step (Tx.showCoreLoad_keeps ..) (.refl ..)) (.refl ..)) (.setPool (.step (Tx.poolSettle_keeps ..) (.refl ..))))))))

theorem execSetHostFlags_frame (h : ℕ) (d : Bytes) : FrameOf (execSetHostFlags h d) (Keys [.all 0x5F00 [0x02]]) [] := by
  refine .run fun s t => ?_
  exact .guarded (fun _ => .step (hostFlagsRule_keeps ..) (.refl ..)) (.refl ..)

theorem execLockTimeout_frame (n : ℕ) (clock : ℕ) : FrameOf (execLockTimeout n clock) (Keys [.all 0x6000 [0x07, 0x0B]])
    [.clock, .mem] := by
  refine .run fun s t => ?_
  dsimp only
  split
  · exact .ite (.at_ (.refl ..)) (.step (Tx.lockRelease_keeps ..) (.at_ (.refl ..)))
  · exact .at_ (.refl ..)

theorem execRefresh_frame (ready : Bool) (heat : ℕ) : FrameOf (execRefresh ready heat) (Keys [.all 0x6200 [0x02, 0x03,
    0x04, 0x05, 0x21], .ctr 250 250]) [.mem] := by
  refine .run fun s t => ?_
  exact .ite (.refl ..) (.ite (.peak (.tally (.setMem (.when (fun _ => .flagBit (.refl ..)) (.w (.refl ..)))))) (.ite
      (.ite (.when (fun _ => .flagBit (.refl ..)) (.w (.refl ..))) (.step (Tx.refreshes_keeps ..) (.when (fun _ => .flagBit
      (.refl ..)) (.w (.refl ..))))) (.step (Tx.refreshes_keeps ..) (.setMem (.when (fun _ => .flagBit (.refl ..)) (.w (.refl
      ..)))))))

theorem execNeighbourRefresh_frame (n : ℕ) (row : ℕ) (bank : ℕ) (issue : Bool) : FrameOf (execNeighbourRefresh n row bank
    issue) (Keys [.all 0x6200 [0x07, 0x08, 0x21]]) [.mem] := by
  refine .run fun s t => ?_
  refine .ite (.step (Tx.nrrPick_keeps ..) (.refl ..)) (?_)
  split
  · exact .refl ..
  · exact .ite (.refl ..) (.count (.step (Tx.closeRow_keeps ..) (.each (fun _ _ => .step (Tx.issue_keeps ..) (.step
        (Tx.issue_keeps ..) (.refl ..))) (.setMem (.refl ..)))))

theorem execReplay_frame (n : ℕ) (fails : ℕ) : FrameOf (execReplay n fails) (Keys [.all 0x6200 [0x09, 0x0A, 0x0B, 0x21],
    .ctr 252 252]) [.free, .mem] := by
  refine .run fun s t => ?_
  exact .ite (.refl ..) (.step (Tx.modSub_keeps ..) (.fresh (.each (fun _ _ => .when (fun _ => .tally (.refl ..)) (.step
      (Tx.replayFails_keeps ..) (.tally (.refl ..)))) (.tally (.step (Tx.modSub_keeps ..) (.step (Tx.replayNow_keeps ..)
      (.refl ..)))))))

theorem execZqCalibration_frame (gap : Bool) (drift : F32) : FrameOf (execZqCalibration gap drift) (Keys [.all 0x6200
    [0x0D, 0x0E, 0x0F, 0x21], .all 0x6602 [0x08, 0x0A, 0x0B, 0x0D], .ctr 251 251]) [.mem] := by
  refine .run fun s t => ?_
  exact .ite (.refl ..) (.ite (.setMem (.refl ..)) (.ite (.step (Tx.zqDrift_keeps ..) (.peak (.tally (.each (fun _ _ =>
      .step (Tx.issue_keeps ..) (.refl ..)) (.setMem (.refl ..)))))) (.ite (.flagBit (.tally (.step (Tx.zqDrift_keeps ..)
      (.peak (.tally (.each (fun _ _ => .step (Tx.issue_keeps ..) (.refl ..)) (.setMem (.refl ..)))))))) (.setMem (.refl
      ..)))))

theorem execScheduledRetraining_frame (good : Bool) (timing : List F32) (voltage : List F32) : FrameOf
    (execScheduledRetraining good timing voltage) (Keys [.all 0x6200 [0x01, 0x11, 0x12, 0x13, 0x21], .all 0x6602 [0x01, 0x02,
    0x03, 0x04, 0x05, 0x08, 0x0B], ⟨0x6680, 0x66FD, none, [0x01, 0x02, 0x03]⟩]) [.free, .mem] := by
  refine .run fun s t => ?_
  exact .ite (.w (.w (.step (Tx.retrain_keeps ..) (.refl ..)))) (.ite (.when (fun _ => .w (.refl ..)) (.w (.step
      (Tx.retrain_keeps ..) (.refl ..)))) (.refl ..))

theorem execScrub_frame (n : ℕ) (offset : ℕ) (bad : List ℕ) : FrameOf (execScrub n offset bad) (Keys [.all 0x1400 [0x02,
    0x07, 0x08], .all 0x6200 [0x15, 0x17, 0x18, 0x19, 0x1A, 0x1B, 0x21], .all 0x6210 [0x03, 0x04, 0x05, 0x06, 0x07], .ctr 246
    246, .ctr 247 247]) [.free, .mem, .store] := by
  refine .run fun s t => ?_
  exact .ite (.refl ..) (.step (Tx.scrubNext_keeps ..) (.step (Tx.dramRead_keeps ..) (.step (Tx.issue_keeps ..) (.refl
      ..))))

theorem execSelfRefreshEntry_frame (request : ℕ) : FrameOf (execSelfRefreshEntry request) (Keys [.all 0x6200 [0x01, 0x03,
    0x1E, 0x1F]]) [.mem] := by
  refine .run fun s t => ?_
  exact .ite (.refl ..) (.ite (.setMem (.tally (.step (Tx.repay_keeps ..) (.refl ..)))) (.ite (.setMem (.w (.step
      (Tx.selfRefresh_keeps ..) (.refl ..)))) (.step (Tx.selfRefresh_keeps ..) (.refl ..))))

theorem Tx.markDevice_keepsAt (t : Tx s0) (d : ℕ) (who : ℕ) (hn : d < 65536 := by assumption) : KeepsAt d [.all 0x6210
      [0x05, 0x06, 0x07]] [] [.all 0x1400 [0x02, 0x07, 0x08], .all 0x6200 [0x21]] [.store] t.cur (t.markDevice d who).cur :=
      by
  dsimp only [Tx.markDevice]
  exact .stepIn (Tx.askSave_keeps ..) (.flagKey (.when (fun _ => .flagBitKey (.refl ..) .all) (.wKey (.wKey (.wKey (.refl
      ..) .one) .one) .one)) .all)

theorem markRule_keepsAt (d : ℕ) (data : Bytes) (t : Tx s0) (hn : d < 65536 := by assumption) : KeepsAt d [.all 0x6210
      [0x05, 0x06, 0x07]] [] [.all 0x1400 [0x02, 0x07, 0x08], .all 0x6200 [0x21]] [.result, .store] t.cur (markRule d data
      t).cur := by
  dsimp only [markRule]
  refine .ite (?_) (.wKey (.wKey (.wKey (.refl ..) .one) .one) .one)
  split
  · exact .ite (.refl ..) (.status (.refl ..))
  · exact .stepAt (Tx.markDevice_keepsAt ..) (.refl ..)

theorem execMarkDevice_frameAt (h : ℕ) (n : ℕ) (d : Bytes) (hn : n < 65536) : FrameOf (execMarkDevice h n d) (KeysAt n
    [.all 0x6210 [0x05, 0x06, 0x07]] [] [.all 0x1400 [0x02, 0x07, 0x08], .all 0x6200 [0x21]]) [.store] := by
  refine .run fun s t => ?_
  exact .guarded (fun _ => .stepAt (markRule_keepsAt ..) (.refl ..)) (.refl ..)

theorem execSupplyLoss_frame : FrameOf execSupplyLoss (Keys [.all 0x6500 [0x11, 0x12], .all 0x6A00 [0x1E]]) [.engines,
    .store, .power] := by
  refine .runAlways fun s t => ?_
  exact .ite (.each (fun _ _ => .emit (.refl ..)) (.refl ..)) (.setPower (.setStore (.setEngines (.step
      (Tx.resetPins_keeps ..) (.refl ..)))))

theorem execFirmwareImage_frame (h : ℕ) (d : Bytes) : FrameOf (execFirmwareImage h d) (Keys [.all 0x6400 [0x03, 0x04,
    0x05, 0x0C, 0x13]]) [.free, .power] := by
  refine .run fun s t => ?_
  exact .guarded (fun _ => .step (imageRule_keeps ..) (.refl ..)) (.refl ..)

theorem execNonce_frame (h : ℕ) (d : Bytes) : FrameOf (execNonce h d) (Keys [.all 0x6402 [0x02, 0x03, 0x04, 0x05, 0x06,
    0x0A, 0x0D]]) [.power] := by
  refine .run fun s t => ?_
  exact .guarded (fun _ => .step (nonceRule_keeps ..) (.refl ..)) (.refl ..)

theorem execReportSigned_frame (us : ℕ) : FrameOf (execReportSigned us) (Keys [.all 0x6402 [0x02, 0x03, 0x04, 0x07, 0x0C,
    0x0D]]) [.power] := by
  refine .runCtl fun s t => ?_
  split
  · exact .refl ..
  · exact .setPower (.flagBit (.w (.inc (.w (.wb (.wb (.refl ..)))))))

theorem execStandbyEntry_frame : FrameOf execStandbyEntry (Keys [.all 0x6200 [0x01, 0x03, 0x1E], .all 0x6500 [0x03, 0x11,
    0x13]]) [.mem, .power] := by
  refine .run fun s t => ?_
  exact .ite (.refl ..) (.setPower (.step (Tx.hedgePinsFree_keeps ..) (.emit (.step (Tx.supplyEn_keeps ..) (.w (.tally
      (.when (fun _ => .step (Tx.selfRefresh_keeps ..) (.refl ..)) (.refl ..))))))))

theorem execThermalRead_frame (temp : F32) : FrameOf (execThermalRead temp) (Keys [.all 0x6500 [0x01, 0x03, 0x06, 0x09,
    0x0A, 0x0B, 0x0E, 0x0F, 0x12, 0x14, 0x15], ⟨0x6510, 0x65C7, none, [0x01, 0x02]⟩]) [.free, .engines, .hedge, .power] := by
  refine .run fun s t => ?_
  exact .when (fun _ => .step (Tx.thermalShutdown_keeps ..) (.refl ..)) (.setPower (.when (fun _ => .flagBit (.refl ..))
      (.when (fun _ => .w (.refl ..)) (.w (.w (.fresh (.refl ..)))))))

theorem execMarginPlan_frame (delays : List F32) : FrameOf (execMarginPlan delays) (Keys [.all 0x6600 [0x0E, 0x13, 0x15],
    .all 0x6601 [0x08, 0x09, 0x0A, 0x0B, 0x0C, 0x0D, 0x0E, 0x13], .all 0x6603 [0x0B], ⟨0x6610, 0x664F, none, [0x02]⟩])
    [.power] := by
  refine .run fun s t => ?_
  refine .ite (.refl ..) (.ite (.step (Tx.planSet_keeps ..) (.refl ..)) (.ite (.step (Tx.planSet_keeps ..) (.refl ..))
      (.ite (.step (Tx.planSet_keeps ..) (.refl ..)) (?_))))
  split
  · exact .step (Tx.planSet_keeps ..) (.refl ..)
  · exact .flagBit (.step (Tx.planSet_keeps ..) (.refl ..))

theorem execVreqStep_frame (volts : F32) : FrameOf (execVreqStep volts) (Keys [.all 0x6503 [0x01, 0x0D], .all 0x6601
    [0x11, 0x12], .all 0x6603 [0x01, 0x02, 0x03, 0x04, 0x05, 0x09, 0x0A]]) [.power] := by
  refine .run fun s t => ?_
  exact .ite (.refl ..) (.ite (.when (fun _ => .tally (.refl ..)) (.w (.w (.w (.w (.setPower (.refl ..))))))) (.step
      (Tx.vreqTo_keeps ..) (.when (fun _ => .tally (.refl ..)) (.w (.w (.w (.w (.setPower (.refl ..)))))))))

theorem execSafetyRaise_frame (n : PathDelay) : FrameOf (execSafetyRaise n) (Keys [.all 0x6600 [0x15], .all 0x6601 [0x11,
    0x12], .all 0x6603 [0x01, 0x02, 0x05, 0x06, 0x09, 0x0B]]) [.power] := by
  refine .run fun s t => ?_
  exact .ite (.refl ..) (.flagBit (.tally (.w (.when (fun _ => .step (Tx.vreqTo_keeps ..) (.refl ..)) (.setPower (.refl
      ..))))))

theorem execCounterLatch_frame (h : ℕ) (d : Bytes) : FrameOf (execCounterLatch h d) (Keys [.all 0x6A00 [0x17, 0x18, 0x19,
    0x1A, 0x1B]]) [] := by
  refine .run fun s t => ?_
  exact .guarded (fun _ => .step (latchRule_keeps ..) (.refl ..)) (.refl ..)

theorem execTraceEnable_frame (h : ℕ) (d : Bytes) : FrameOf (execTraceEnable h d) (Keys [.ctr 15 15, .all 0x6A00 [0x01,
    0x09, 0x0A, 0x0F, 0x10, 0x11, 0x12, 0x13, 0x14, 0x15, 0x16, 0x1E, 0x1F]]) [] := by
  refine .run fun s t => ?_
  exact .guarded (fun _ => .step (traceRule_keeps ..) (.refl ..)) (.refl ..)

theorem execTraceDisable_frame (h : ℕ) (d : Bytes) : FrameOf (execTraceDisable h d) (Keys [.ctr 15 15, .all 0x6A00 [0x01,
    0x09, 0x0A, 0x0F, 0x10, 0x11, 0x12, 0x13, 0x14, 0x15, 0x16, 0x1E, 0x1F]]) [] := by
  refine .run fun s t => ?_
  exact .guarded (fun _ => .step (traceRule_keeps ..) (.refl ..)) (.refl ..)

theorem execTraceSync_frame : FrameOf execTraceSync (Keys []) [] := by
  refine .run fun s t => ?_
  exact .ite (.msg (.setTrace (.refl ..))) (.refl ..)

theorem execCounterSnapshot_frame : FrameOf execCounterSnapshot (Keys []) [] := by
  refine .run fun s t => ?_
  exact .ite (.refl ..) (.msg (.setTrace (.refl ..)))

end Sys2Proof.Machine
end

section
/-! PROOFS. The frames of the commands that rest on what their operands, the state, or a stored report or stage exclude. -/

namespace Sys2Proof.Machine
open Sys2Proof

set_option Elab.async false

variable {s0 : State}

/-! ## Commands whose frames rest on what their operands or the state exclude -/

/-- A recorder read that no uncorrectable word meets reports none. -/
theorem State.recorderRead_none_bad (s : State) (r h : ℕ) : (s.recorderRead r h []).2.2 = 0 := by
  unfold State.recorderRead
  dsimp only
  split
  · rfl
  · split
    · rfl
    · split <;> rfl

theorem Tx.blobNow_keepsGood (t : Tx s0) (h : ℕ) (o : OpFields) : Keeps [] [.result] t.cur (t.blobNow h o []).2.cur := by
  dsimp only [Tx.blobNow]
  rw [State.recorderRead_none_bad]
  exact .iteSnd (.iteSnd (.status (.refl ..)) (.refl ..)) (.refl ..)

theorem Tx.readBlob_keepsGood (t : Tx s0) (h : ℕ) (o : OpFields) (off : ℕ) (most : Option ℕ) (room : ℕ) :
    Keeps [] [.result, .ctl] t.cur (t.readBlob h o [] off most room).cur := by
  unfold Tx.readBlob
  lift_lets
  intro k x kept t1 r t2 d n t3
  have h1 : Keeps [] [.result, .ctl] t.cur t1.cur := .ite (.refl ..) (.setHost (.refl ..))
  have h2 : Keeps [] [.result, .ctl] t.cur t2.cur := by
    unfold t2 r
    clear_value kept
    split
    · exact h1
    · exact .step (Tx.blobNow_keepsGood ..) (.status h1)
  exact .ite h2 (.ite (.status h2) (.ite (.status h2) (.reply (.ite h2 (.setHost h2)))))

theorem Tx.readOp_keepsGood (t : Tx s0) (h : ℕ) (o : OpFields) (room : ℕ) :
    Keeps [.all 0x3F01 []] [.result, .ctl] t.cur (t.readOp h o [] room).cur := by
  unfold Tx.readOp
  have hnum : ∀ d : Tx s0 → Bytes, Keeps [.all 0x3F01 []] [.result, .ctl] t.cur
      (let u := t.when (o.idx == 0x3F01 && 0x06 ≤ o.sub) (fun t => t.pathEvaluate o.inst); u.replyIn room (d u)).cur :=
    fun _ => .step (Tx.replyIn_keeps ..) (.when (fun _ => .step (Tx.pathEvaluate_keeps ..) (.refl ..)) (.refl ..))
  refine .ite (.status (.refl ..)) (.ite (.status (.refl ..)) ?_)
  split
  · exact .status (.refl ..)
  · dsimp only
    split
    · exact .step (Tx.replyIn_keeps ..) (.refl ..)
    · split
      case h_1 => exact .step (Tx.readBlob_keepsGood ..) (.refl ..)
      case h_2 => exact .step (Tx.replyIn_keeps ..) (.refl ..)
      all_goals exact hnum fun u => leBytes _ (u.cur.readNum h o.idx o.inst o.sub)

theorem execStagedRead_frame (h : ℕ) (o : OpFields) : FrameOf (execStagedRead h o) (Keys [.all 0x3F01 []]) [.ctl] := by
  refine .run fun s t => ?_
  exact .step (Tx.readOp_keepsGood ..) (.refl ..)

theorem execOwnerWrite_frame (h sub : ℕ) (d : Bytes) :
    FrameOf (execOwnerWrite h sub d) (Keys [.all 0x1100 [], .all 0x1400 [0x02, 0x07, 0x08]]) [.ctl, .store] := by
  refine .run fun s t => ?_
  exact .guarded (fun _ => .step (ownerRule_keeps ..) (.refl ..)) (.refl ..)

theorem execTransformWrite_frame (h sub : ℕ) (d : Bytes) :
    FrameOf (execTransformWrite h sub d) (Keys [.all 0x2800 [0x01, 0x02, 0x03, 0x04]]) [.scene] := by
  refine .run fun s t => ?_
  split
  · rename_i hs
    exact .guarded (fun _ => .step (transformRule_keeps _ _ _ (by simpa using hs)) (.refl ..)) (.refl ..)
  · exact .status (.refl ..)

theorem execPacketLaunch_frame (n : ℕ) (sameCycle bad : Bool) : FrameOf (execPacketLaunch n sameCycle bad)
    (Keys [.all 0x4800 [0x0B, 0x16, 0x17], .all 0x4900 [0x02, 0x04, 0x09, 0x0B, 0x0C], .all 0x4C00 [0x15, 0x16, 0x19, 0x1B],
      .all 0x5001 [0x19, 0x1B], .all 0x5010 [0x03], .all 0x5300 [0x01, 0x02, 0x03, 0x04, 0x06], .ctr 118 123, .ctr 135 135,
      .ctr 140 140, .ctr 141 141]) [.free, .net, .time] := by
  refine .run fun s t => ?_
  exact .ite (.step (Tx.launch_keepsBad ..) (.step (Tx.launchesBefore_keeps ..) (.refl ..))) (.refl ..)

theorem Tx.flushQueue_keepsAt (t : Tx s0) (n before : ℕ) (hn : n < 65536 := by assumption) :
    KeepsAt n [.all 0x2000 [0x17]] [] [] [.scene] t.cur (t.flushQueue n before).cur := by
  dsimp only [Tx.flushQueue]
  exact .ite (.refl ..) (.flagBitKey (.stepIn (Tx.setTrack_keeps ..) (.refl ..)) .one)

theorem objectRule_flush (n : ℕ) (d : Bytes) (t : Tx s0) : objectRule n 0x0B d t =
    if t.cur.replicated n then
      if t.cur.isHead then
        (t.controlAt n 0x0B t.cur.scene.accNext (t.cur.leadBoundary t.cur.now)).sprkData
          [sprkControl n 0x0B (leNat d) (t.cur.leadBoundary t.cur.now)]
      else t.status stState
    else t.flushQueue n t.cur.scene.accNext := by
  rfl

theorem execFlushQueue_frameAt (h n : ℕ) (d : Bytes) (hn : n < 65536) : FrameOf (execFlushQueue h n d)
    (KeysAt n [.all 0x2000 [0x17]] [] [.all 0x4800 [0x0B, 0x16, 0x17], .all 0x4900 [0x02, 0x04], .all 0x4C00 [0x15, 0x19, 0x1B],
      .all 0x5001 [0x19, 0x1B], .all 0x5010 [0x03], .all 0x5300 [0x01, 0x02, 0x03, 0x04, 0x06], .all 0x5400 [0x10],
      .ctr 118 123, .ctr 140 141]) [.scene, .net, .time, .sprk] := by
  refine .run fun s t => .guarded (fun t => ?_) (.refl ..)
  rw [objectRule_flush]
  exact .ite (.ite (.stepIn (Tx.sprkData_keeps ..) (.stepIn (Tx.controlAt_keeps ..) (.refl ..))) (.status (.refl ..)))
    (.stepAt (Tx.flushQueue_keepsAt ..) (.refl ..))

/-- What a frame received in a powered block does, behind the filters of its MAC. -/
theorem execReceiveFrame_frame (n : ℕ) (f : Bytes) (err : Bool) (clock : ℕ) : FrameOf (execReceiveFrame n f err clock)
    (Keys (Span.sends ++ [.all 0x4800 [0x0A, 0x0C, 0x0D, 0x0E, 0x0F, 0x10, 0x11, 0x12, 0x13], .all 0x4A00 [0x12, 0x14, 0x15, 0x16,
      0x18, 0x19, 0x1A, 0x1C, 0x1E, 0x1F, 0x21], .all 0x4C00 [0x14], .all 0x4E00 [0x03, 0x04, 0x05, 0x06, 0x07], .all 0x4F00 [0x08,
      0x0A, 0x0B, 0x0C], .ctr 112 117, .ctr 124 129, .ctr 130 133])) [.clock, .net, .time, .power] := by
  intro s t ht
  by_cases hs : (s.power.standby && !s.power.supplyDown) = true
  · exact FrameOf.runAlways (f := fun _ t => t.standbyFrame n f err) (fun _ _ => .step (Tx.standbyFrame_keeps ..) (.refl ..)) s t
      ((if_pos hs).symm.trans ht)
  · refine Kept.run (fun t => ?_) ((if_neg hs).symm.trans ht)
    exact .ite (.at_ (.refl ..)) (.ite (.step (Tx.frameDrop_keeps ..) (.at_ (.refl ..)))
      (.ite (.step (Tx.frameDrop_keeps ..) (.at_ (.refl ..))) (.ite (.step (Tx.frameDrop_keeps ..) (.at_ (.refl ..)))
      (.ite (.step (Tx.frameDrop_keeps ..) (.at_ (.refl ..))) (.ite (.step (Tx.frameDrop_keeps ..) (.at_ (.refl ..)))
      (.ite (.step (Tx.frameDrop_keeps ..) (.at_ (.refl ..)))
      (.ite (.ite (.step (Tx.ipFrame_keeps ..) (.at_ (.refl ..))) (.step (Tx.frameDrop_keeps ..) (.at_ (.refl ..))))
      (.ite (.ite (.step (Tx.pauseFrame_keeps ..) (.at_ (.refl ..))) (.step (Tx.frameDrop_keeps ..) (.at_ (.refl ..))))
      (.ite (.step (Tx.ptpDrain_keeps ..) (.step (Tx.toRing_keeps ..) (.step (Tx.accept_keeps ..) (.at_ (.refl ..)))))
        (.step (Tx.ring3_keeps ..) (.step (Tx.accept_keeps ..) (.at_ (.refl ..)))))))))))))

theorem execAnnounceTimeout_frame : FrameOf execAnnounceTimeout (Keys [.all 0x5000 [0x04, 0x07, 0x08, 0x0B, 0x1A, 0x1C],
    .all 0x5001 [0x11, 0x12, 0x13, 0x14, 0x15, 0x18, 0x1A, 0x1B], .ctr 139 139, .ctr 143 143]) [.maps, .time] := by
  refine .runCtl fun s t => ?_
  lift_lets
  intro x st m due t1 t2 alive t3
  clear_value alive
  refine .ite (.refl ..) ?_
  cases alive with
  | some o => exact .step (Tx.ptpMove_keeps t2 o) (.setTime (.flagBit (.tally (.refl ..))))
  | none =>
    exact .step (Tx.ptpLeave_keeps t3 _)
      (.when (fun _ => .step (Tx.sourceLost_keeps ..) (.refl ..)) (.setTime (.flagBit (.tally (.refl ..)))))

/-! ## Sprinkler datagrams -/

/-- A datagram is taken from ring 2, checked, and may end a mismatch of rates or begin an epoch before its own effect. -/
theorem Tx.dgram_keeps {l : List Span} {M : List Part} (t : Tx s0) (m : Bytes) (types : List ℕ) {f : Dgram → Tx s0 → Tx s0}
    (hf : ∀ x (u : Tx s0), Keeps l M u.cur (f x u).cur)
    (hl : within [.all 0x4E00 [0x03], .all 0x5400 [0x02, 0x0D, 0x0E, 0x0F, 0x1B, 0x1C]] l = true := by decide)
    (hM : [Part.net, .sprk, .meas].all M.contains = true := by decide) : Keeps l M t.cur (t.dgram m types f).cur := by
  unfold Tx.dgram
  lift_lets
  intro t1 s x t2 t3 first t4
  have h1 : Keeps [.all 0x4E00 [0x03], .all 0x5400 [0x02, 0x0D, 0x0E, 0x0F, 0x1B, 0x1C]] [.net, .sprk, .meas] t.cur t1.cur :=
    .step (Tx.ringPop_keeps ..) (.refl ..)
  have h4 : Keeps [.all 0x4E00 [0x03], .all 0x5400 [0x02, 0x0D, 0x0E, 0x0F, 0x1B, 0x1C]] [.net, .sprk, .meas] t.cur t4.cur :=
    .step (Tx.followEpoch_keeps ..) (.when (fun _ => .step (Tx.mismatchEnd_keeps ..) (.refl ..)) h1)
  refine .ite (h1.widen hl hM) (.ite (.widen (.flagBit (.tally h1)) hl hM) (.ite (h1.widen hl hM) (.ite ?_ ?_)))
  · exact .widen (.ite (.flagBit h1) (.step (Tx.sprkTo_keeps ..) (.step (Tx.sprkSet_keeps ..) (.flagBit h1)))) hl hM
  · exact Kept.trans (.widen (.when (fun _ => .step (Tx.sprkSet_keeps ..) (.refl ..)) h4) hl hM) (hf x _)

theorem execSprinklerData_frame (m : Bytes) : FrameOf (execSprinklerData m) (Keys (Span.sends ++ [.all 0x2000 [0x14, 0x15, 0x16,
    0x17], .all 0x2800 [0x0E, 0x11], .all 0x4E00 [0x03], .all 0x5400 [0x02, 0x0D, 0x0E, 0x0F, 0x10, 0x11, 0x12, 0x16, 0x17, 0x1B,
    0x1C], .ctr 3 3, .ctr 11 11])) [.scene, .net, .time, .sprk, .meas] :=
  .runCtl fun s t => t.dgram_keeps _ _ fun _ _ => .step (Tx.sprkDatagram_keeps ..) (.refl ..)

theorem execNak_frame (m : Bytes) : FrameOf (execNak m) (Keys (Span.sends ++ [.all 0x4E00 [0x03], .all 0x5400 [0x02, 0x0D, 0x0E,
    0x0F, 0x13, 0x1B, 0x1C]])) [.net, .time, .sprk, .meas] := by
  refine .runCtl fun s t => t.dgram_keeps _ _ fun x u => .ite (.refl ..) (.each (fun t q => ?_) (.refl ..))
  dsimp only
  split
  · exact .ite (.refl ..) (.step (Tx.sprkSet_keeps ..) (.tally (.step (Tx.sprkSend_keeps ..) (.refl ..))))
  · exact .refl ..

theorem execSnapshotRequest_frame (m : Bytes) : FrameOf (execSnapshotRequest m) (Keys (Span.sends ++ [.all 0x4E00 [0x03],
    .all 0x5400 [0x02, 0x0D, 0x0E, 0x0F, 0x1B, 0x1C]])) [.net, .time, .sprk, .meas] :=
  .runCtl fun s t => t.dgram_keeps _ _ fun x u =>
    .ite (.refl ..) (.each (fun _ _ => .step (Tx.sprkSendAfter_keeps ..) (.refl ..)) (.refl ..))

theorem execSnapshot_frame (m : Bytes) : FrameOf (execSnapshot m) (Keys (Span.sends ++ [.all 0x2000 [0x14, 0x15, 0x16, 0x17],
    .all 0x2800 [0x0E, 0x11], .all 0x4E00 [0x03], .all 0x5400 [0x02, 0x0D, 0x0E, 0x0F, 0x10, 0x11, 0x12, 0x15, 0x16, 0x17, 0x1B,
    0x1C], .ctr 3 3, .ctr 11 11])) [.scene, .net, .time, .sprk, .meas] :=
  .runCtl fun s t => t.dgram_keeps _ _ fun x u =>
    .ite (.refl ..) (.ite (.step (Tx.sprkSet_keeps ..) (.refl ..)) (.ite
      (.step (Tx.snapshotEnd_keeps ..) (.step (Tx.sprkSet_keeps ..) (.step (Tx.applyRecords_keeps ..) (.refl ..))))
      (.step (Tx.sprkSet_keeps ..) (.step (Tx.applyRecords_keeps ..) (.refl ..)))))

theorem execHeartbeatReceived_frame (m : Bytes) : FrameOf (execHeartbeatReceived m) (Keys [.all 0x4E00 [0x03],
    .all 0x5400 [0x02, 0x0D, 0x0E, 0x0F, 0x1B, 0x1C]]) [.net, .sprk, .meas] :=
  .runCtl fun s t => t.dgram_keeps _ _ fun _ _ => .refl ..

theorem execStatusReceived_frame (m : Bytes) : FrameOf (execStatusReceived m) (Keys [.all 0x4E00 [0x03],
    .all 0x5400 [0x02, 0x0D, 0x0E, 0x0F, 0x1B, 0x1C]]) [.net, .sprk, .meas] :=
  .runCtl fun s t => t.dgram_keeps _ _ fun x u =>
    .when (fun _ => .step (Tx.sprkSet_keeps ..) (.refl ..)) (.when (fun _ => .flagBit (.refl ..)) (.refl ..))

/-! ## The Hedge, memory and ageing -/

theorem execFaultEdge_frame (n clock : ℕ) (hn : n < 3) :
    FrameOf (execFaultEdge n clock) (Keys [.all 0x5A00 [0x0A, 0x0B, 0x0C, 0x0E]]) [.clock, .hedge] := by
  refine .run fun s t => ?_
  have hk : mayWrite [.all 0x5A00 [0x0A, 0x0B, 0x0C, 0x0E]] 0x5A00 (0x0A + n) = true := by interval_cases n <;> decide
  exact .setHedge (.w (.inc (.at_ (.refl ..)) hk))

theorem execOldCarrierStop_frame : FrameOf execOldCarrierStop (Keys [.all 0x5800 [0x02]]) [.hedge] := by
  refine .run fun s t => ?_
  split
  · refine .iteOf rfl (.refl ..) (.is (.setHedge _ _) rfl (.setHedge (.eachEq (fun u c => ⟨_, rfl, ?_⟩) (.refl ..))))
    exact .ite (.refl ..) (.ite (.step (Tx.setMod_keeps ..) (.step (Tx.modLow_keeps ..) (.refl ..))) (.step (Tx.modTo_keeps ..)
      (.step (Tx.setMod_keeps ..) (.step (Tx.setMod_keeps ..) (.step (Tx.modLow_keeps ..) (.refl ..))))))
  · exact .refl ..

theorem execMonitorSample_frame (readings temps : List F32) : FrameOf (execMonitorSample readings temps)
    (Keys [.all 0x6600 [0x03, 0x04, 0x05, 0x06, 0x0C, 0x0D, 0x10, 0x11, 0x12, 0x15], ⟨0x6700, 0x67FF, none, [0x02, 0x03]⟩])
    [.free, .power] := by
  refine .runIs fun s t => ⟨_, rfl, .iteOf rfl (.refl ..) (.is (.ageingShow _) rfl (.step (Tx.ageingShow_keeps ..)
    (.inc (.inc (.eachMem (fun u i hi => ?_) (.setPower (.refl ..)))))))⟩
  have h : i < min 256 readings.length := List.mem_range.mp hi
  exact .step (Tx.monitorRead_keeps _ _ _ _ (by omega)) (.refl ..)

theorem execAgeingTelemetrySave_frame :
    FrameOf execAgeingTelemetrySave (Keys [.all 0x6600 [0x08, 0x09, 0x0A, 0x0F]]) [.power] :=
  .run fun s t => .iteOf rfl (.refl ..)
    (.is (.sysSave _) rfl (.step (Tx.sysSave_keeps ..) (.w (.w (.w (.w (.setPower (.refl ..))))))))

/-- What one event of the matrix may change is no reading of the time counter. -/
theorem Tx.busEvent_time (t : Tx s0) (d : ℕ) (e : BusEvent) :
    (t.busEvent d e).cur.now = t.cur.now ∧ (t.busEvent d e).cur.clock = t.cur.clock :=
  (Tx.busEvent_keeps t d e).clock (by decide)

theorem Tx.busEventsTo_now (c fuel : ℕ) (t : Tx s0) : (Tx.busEventsTo c fuel t).cur.now = t.cur.now := by
  induction fuel generalizing t with
  | zero => rfl
  | succ n ih =>
    unfold Tx.busEventsTo
    split
    · rw [ih, (Tx.busEvent_time ..).1]
      rfl
    · rfl

/-- What the matrix does up to the present reading of the counter leaves that reading. -/
theorem Tx.busRun_time (t : Tx s0) : t.busRun.cur.now = t.cur.now ∧ t.busRun.cur.clock = t.cur.clock := by
  unfold Tx.busRun
  dsimp only
  split
  · exact ⟨rfl, rfl⟩
  · exact ⟨Tx.busEventsTo_now .., rfl⟩

/-- A frame over the time counter holds without it where the counter stands as it did. -/
theorem Kept.sameTime {E : ℕ → Prop} {M M' : List Part} {a b : State} (h : Kept E M a b)
    (ht : b.now = a.now ∧ b.clock = a.clock) (hM : M.all (fun m => m == .clock || M'.contains m) = true) : Kept E M' a b where
  entries := h.entries
  strings := h.strings
  parts := fun p hp => by
    by_cases hc : p = .clock
    · exact hc ▸ ht
    · refine h.parts p fun hm => hp ?_
      simpa [hc] using List.all_eq_true.mp hM p hm

theorem execAlert_frame (n : ℕ) :
    FrameOf (execAlert n) (Keys (Span.bus ++ [.all 0x6200 [0x09]])) [.free, .mem, .store, .power] := by
  refine .run fun s t => ?_
  have hbus : Keeps Span.bus [.outs, .free, .mem, .store, .power] t.cur t.busRun.cur :=
    .sameTime (.widen (Tx.busRun_keeps t) (by decide) (M' := [.outs, .clock, .free, .mem, .store, .power]) (by decide))
      (Tx.busRun_time t) (by decide)
  exact .ite (.refl ..) (.tally (.step (Tx.modSub_keeps ..) (.step hbus (.refl ..))))

/-! ## Commands whose entries a stored report or stage names -/

section
variable {E : ℕ → Prop} {M : List Part} {a : State}

/-- One more operation, of a frame within this one. -/
theorem Kept.stepE {l : List Span} {M' : List Part} {b c : State} (h : Keeps l M' b c) (h0 : Kept E M a b)
    (hl : ∀ k, Keys l k → E k) (hM : M'.all M.contains = true := by decide) : Kept E M a c :=
  Kept.trans h0 (h.mono hl fun m hm => by simpa using List.all_eq_true.mp hM m hm)

end

theorem K_of_parts (k : ℕ) : K (kIdx k) (kInst k) (kSub k) = k := by
  unfold K kIdx kInst kSub
  omega

/-- Every counter that mirrors a count is one of the table. -/
theorem counterOf_le {i n c x : ℕ} (h : counterOf i n c = some x) : x ≤ 511 := by
  unfold counterOf at h
  split at h
  case h_61 => cases h
  all_goals
    simp only [mirror, Option.ite_none_right_eq_some, Option.some.injEq] at h
    omega

@[simp] theorem Tx.spiQueue_inbox (t : Tx s0) (q : List Bytes) : (t.spiQueue q).cur.ctl.inbox = t.cur.ctl.inbox := by
  unfold Tx.spiQueue
  dsimp only
  split
  · rfl
  · split <;> rfl

theorem Tx.spiQueue_kept {E : ℕ → Prop} (t : Tx s0) (q : List Bytes) :
    Kept E [.result, .outs, .ctl] t.cur (t.spiQueue q).cur := by
  unfold Tx.spiQueue
  exact .ite (.setCtl (.refl ..)) (.emit (.setCtl (.refl ..)))

/-- With no message waiting, or with the firmware stopped, a read of the host SPI port runs nothing. -/
theorem execHspiRead_kept {clocks : ℕ} {s t : State} (hs : s.ctl.down = true ∨ s.ctl.inbox = [])
    (ht : execHspiRead clocks s = .next t) : Kept (fun _ => False) [.result, .outs, .ctl] s t := by
  refine Kept.runStart ?_ ht
  split
  · exact .emit (.refl ..)
  · rename_i m r hq
    have hio : Kept (fun _ => False) [.result, .outs, .ctl] (Tx.start s).cur
        (((Tx.start s).emit (.miso (misoBytes clocks (leBytes 2 m.length ++ m)))).spiQueue r).cur :=
      Kept.trans (.emit (.refl ..)) (Tx.spiQueue_kept ..)
    refine .ite (.emit (.refl ..)) ?_
    rcases hs with hd | hi
    · rw [if_pos hd]
      exact hio
    · have hin : ((Tx.start s).emit (.miso (misoBytes clocks (leBytes 2 m.length ++ m)))).cur.ctl.inbox = [] := hi
      dsimp only
      rw [Tx.spiQueue_inbox, hin]
      exact .ite hio hio

/-- What the landing of a commit may change: the staged entries, and the commit's own. -/
def CommitKeys (s : State) (k : ℕ) : Prop :=
  (∃ c, s.ctl.commit = some c ∧ k ∈ (s.host c.host).stage.map (·.1)) ∨
    Keys [.all 0x1300 [0x03, 0x04, 0x08, 0x0B], .all 0x1301 [0x05], .all 0x3C00 [0x05, 0x06, 0x0C], .ctr 8 8] k

theorem execCommitLands_kept {s t : State} (ht : execCommitLands s = .next t) :
    Kept (CommitKeys s) [.result, .outs, .corr, .maps, .ctl] s t := by
  refine Kept.runStart (M := [.corr, .maps, .ctl]) ?_ ht
  split
  · exact .refl ..
  · rename_i c hc
    have hput : ∀ u : Tx s, ∀ p ∈ (s.host c.host).stage,
        Kept (CommitKeys s) [.result, .outs, .corr, .maps, .ctl] u.cur (u.put p.1 (leNat p.2)).cur :=
      fun u p hp => u.put_kept _ (.inl (.inl ⟨c, hc, List.mem_map_of_mem hp⟩))
    have hin : ∀ {l : List Span}, within l [.all 0x1300 [0x03, 0x04, 0x08, 0x0B], .all 0x1301 [0x05], .all 0x3C00 [0x05, 0x06, 0x0C],
        .ctr 8 8] = true → ∀ k, Keys l k → CommitKeys s k := fun hl k hk => .inr (hk.mono hl)
    have hgain : Kept (CommitKeys s) [.result, .outs, .corr, .maps, .ctl] (Tx.start s).cur
        ((((Tx.start s).bankDue c.tc).stageApply (s.host c.host).stage).each (stageOutputs (s.host c.host).stage)
          (fun t k => t.masterGain c.tc k)).cur :=
      .each (fun _ _ => .stepE (Tx.masterGain_keeps ..) (.refl ..) (hin (by decide)))
        (.eachMem hput (.stepE (Tx.bankDue_keeps ..) (.refl ..) (hin (by decide))))
    exact .ite (.refl ..) (.ite (.wKey (.setCtl hgain) (.inr (.intro (lo := 0x1300) (hi := 0x1300) (by decide) le_rfl le_rfl)))
      (.stepE (Tx.commitDone_keeps ..) hgain (hin (by decide))))

/-- What the close of an evaluation window may change: what its report names, and what shows for every object. -/
def ReportKeys (s : State) (l : List Span) (k : ℕ) : Prop :=
  (∃ r, s.geo.report = some r ∧ k ∈ (r.puts ++ r.bumps ++ r.flags).map (·.1)) ∨ Keys l k

theorem ReportKeys.of_mem {s : State} {l : List Span} {r : Report} {p : ℕ × ℕ} (hr : s.geo.report = some r)
    (hp : p ∈ r.puts ++ r.bumps ++ r.flags) : ReportKeys s l (K (kIdx p.1) (kInst p.1) (kSub p.1)) :=
  .inl ⟨r, hr, by rw [K_of_parts]; exact List.mem_map_of_mem hp⟩

/-- A count of a report and the counter that mirrors it. -/
theorem Kept.countReport {s : State} {l : List Span} {M : List Part} {a : State} {t : Tx s0} {r : Report} {p : ℕ × ℕ} {v : ℕ}
    (h : Kept (ReportKeys s l) M a t.cur) (hr : s.geo.report = some r) (hp : p ∈ r.puts ++ r.bumps ++ r.flags)
    (hl : covers l 0x6800 0x69FF 0x01 = true) :
    Kept (ReportKeys s l) M a (t.count (kIdx p.1) (kInst p.1) (kSub p.1) v).cur := by
  unfold Tx.count
  dsimp only
  split
  · rename_i x hx
    have hle := counterOf_le hx
    exact .counterKey (h.incKey (.of_mem hr hp)) (.inr (.intro hl (by omega) (by omega)))
  · exact h.incKey (.of_mem hr hp)

theorem Tx.windowClose_kept {s : State} (t : Tx s0) (l : List Span) (hs : t.cur.geo.report = s.geo.report)
    (hl : within [.all 0x2000 [0x0E, 0x0F, 0x10, 0x11, 0x12, 0x13], .all 0x3300 [0x11], .ctr 0 511] l = true)
    (hc : covers l 0x6800 0x69FF 0x01 = true) :
    Kept (ReportKeys s l) [.result, .outs, .scene, .geo] t.cur t.windowClose.cur := by
  unfold Tx.windowClose
  split
  · exact .refl ..
  · rename_i r hr
    rw [hs] at hr
    have hin : ∀ {l' : List Span}, within l' [.all 0x2000 [0x0E, 0x0F, 0x10, 0x11, 0x12, 0x13], .all 0x3300 [0x11], .ctr 0 511] = true →
        ∀ k, Keys l' k → ReportKeys s l k := fun h k hk => .inr ((hk.mono h).mono hl)
    have hputs : Kept (ReportKeys s l) [.result, .outs, .scene, .geo] t.cur (t.each r.puts fun t p => t.put p.1 p.2).cur :=
      .eachMem (fun u p hp => u.put_kept _ (.inl (.inl ⟨r, hr, List.mem_map_of_mem (by simp [hp])⟩))) (.refl ..)
    have hbumps : ∀ u : Tx s0, ∀ p ∈ r.bumps, Kept (ReportKeys s l) [.result, .outs, .scene, .geo] u.cur
        (if p.2 == 0 then u else u.count (kIdx p.1) (kInst p.1) (kSub p.1) p.2).cur :=
      fun u p hp => .ite (.refl ..) (.countReport (.refl ..) hr (by simp [hp]) hc)
    have hflags : ∀ u : Tx s0, ∀ p ∈ r.flags, Kept (ReportKeys s l) [.result, .outs, .scene, .geo] u.cur
        (if p.2 == 0 then u else u.flag (kIdx p.1) (kInst p.1) (kSub p.1) p.2).cur :=
      fun u p hp => .ite (.refl ..) (.flagKey (.refl ..) (.of_mem hr (by simp [hp])))
    exact .stepE (Tx.scenePublish_keeps ..) (.setGeo (.when (fun _ => .msg (.refl ..)) (.peakKey (.eachMem hflags (.eachMem hbumps
      hputs)) (hin (l' := [.all 0x3300 [0x11]]) (by decide) _ (.intro (lo := 0x3300) (hi := 0x3300) (by decide) le_rfl le_rfl)))))
      (hin (by decide))

theorem execEvaluationWindowClose_kept {s t : State} (ht : execEvaluationWindowClose s = .next t) :
    Kept (ReportKeys s [.all 0x2000 [0x0E, 0x0F, 0x10, 0x11, 0x12, 0x13], .all 0x3300 [0x11], .ctr 0 511])
      [.result, .outs, .scene, .geo] s t := by
  refine Kept.runStart (M := [.scene, .geo]) ?_ ht
  split
  · exact .ite (Tx.windowClose_kept _ _ rfl (by decide) (by decide)) (.refl ..)
  · exact .refl ..

theorem execEvaluationWindowOpen_kept {bad : List CacheFault} {s t : State} (ht : execEvaluationWindowOpen bad s = .next t) :
    Kept (ReportKeys s [.all 0x2000 [], .all 0x2800 [0x0A, 0x0B, 0x0F, 0x11], .all 0x3300 [0x11, 0x1B], .all 0x6100 [0x03, 0x05, 0x09],
      .all 0x6200 [0x19, 0x1B, 0x21], .ctr 0 511]) [.result, .outs, .scene, .geo, .sprk] s t := by
  refine Kept.runStart (M := [.scene, .geo, .sprk]) ?_ ht
  have hin : ∀ {l' : List Span}, within l' [.all 0x2000 [], .all 0x2800 [0x0A, 0x0B, 0x0F, 0x11], .all 0x3300 [0x11, 0x1B],
      .all 0x6100 [0x03, 0x05, 0x09], .all 0x6200 [0x19, 0x1B, 0x21], .ctr 0 511] = true → ∀ k, Keys l' k → ReportKeys s
      [.all 0x2000 [], .all 0x2800 [0x0A, 0x0B, 0x0F, 0x11], .all 0x3300 [0x11, 0x1B], .all 0x6100 [0x03, 0x05, 0x09],
      .all 0x6200 [0x19, 0x1B, 0x21], .ctr 0 511] k := fun h k hk => .inr (hk.mono h)
  refine .ite ?_ (.refl ..)
  refine .stepE (Tx.geometryEval_keeps ..) (.stepE (Tx.sceneEval_keeps ..) (.stepE (Tx.landControls_keeps ..) (.each (fun _ _ =>
    .stepE (Tx.cacheFault_keeps ..) (.refl ..) (hin (by decide))) ?_) (hin (by decide))) (hin (by decide))) (hin (by decide))
  exact (Tx.windowClose_kept _ _ rfl (by decide) (by decide)).mono (fun _ h => h) (by simp)

end Sys2Proof.Machine
end

section
/-! PROOFS. The obligations on what each group of commands leaves unchanged. -/

namespace Sys2Proof.Machine
open Sys2Proof

set_option Elab.async false

/-- Settles O51: each clause is the frame of one command. -/
theorem controlFrames : Obligations.ControlFrames := by
  unfold Obligations.ControlFrames
  exact ⟨
    fun h o bad => .of (execRead_frame h o bad),
    fun h o => .of (execStagedRead_frame h o),
    fun h o bad => .of (execReadSegment_frame h o bad),
    fun h o => .of (execNop_frame h o),
    fun h => .ofAt (execSessionTimeout_frameAt h),
    fun h => .of (execTransferAbandon_frame h),
    fun h => .of (execSnapshotRelease_frame h),
    fun len d => .of (execHspiWrite_frame len d),
    fun clocks => .of (execHspiStatus_frame clocks),
    fun _ _ _ hs ht => execHspiRead_kept hs ht,
    fun cmd => .of (execHspiUnknownCommand_frame cmd),
    fun h => .ofAt (execNotify_frameAt h),
    fun h d => .ofAt (execCommit_frameAt h d),
    fun h d => .of (execCancel_frame h d),
    fun h n d => .of (execDiscardStage_frame h n d),
    .of execPlanLands_frame,
    fun h d => .of (execSave_frame h d),
    .of execAutosave_frame,
    fun h d => .of (execRestoreDefaults_frame h d),
    fun h n d => .of (execKeyWrite_frame h n d),
    fun h sub d => .of (execOwnerWrite_frame h sub d),
    fun h d => .of (execAssignRanges_frame h d),
    fun _ _ ht => execCommitLands_kept ht⟩

/-- Settles O52: each clause is the frame of one command. -/
theorem sceneFrames : Obligations.SceneFrames := by
  unfold Obligations.SceneFrames
  exact ⟨
    fun h d => .ofAt (execKeyframePush_frameAt h d),
    fun h n d => .ofAt (execFlushQueue_frameAt h n d),
    fun h sub d => .of (execTransformWrite_frame h sub d),
    fun cells words => .of (execRenderWindow_frame cells words),
    fun h n d => .ofAt (execDepthWrite_frameAt h n d),
    .of execDepthChangeLands_frame,
    fun h d => .of (execRepack_frame h d),
    .of execRepackLands_frame,
    fun _ _ ht => execEvaluationWindowClose_kept ht,
    fun _ _ _ ht => execEvaluationWindowOpen_kept ht⟩

/-- Settles O53: each clause is the frame of one command. -/
theorem correctionFrames : Obligations.CorrectionFrames := by
  unfold Obligations.CorrectionFrames
  exact ⟨
    fun h n d => .ofAt (execSetDataUpload_frameAt h n d),
    fun n => .ofAt (execSetReady_frameAt n),
    fun h n d => .ofAt (execSetErase_frameAt h n d),
    fun h d => .ofAt (execGraftRequest_frameAt h d),
    fun n => .ofAt (execGraftStart_frameAt n),
    fun n => .ofAt (execGraftFade_frameAt n),
    fun n => .ofAt (execGraftEnd_frameAt n),
    fun bad used => .of (execBulkPhase_frame bad used),
    fun bad used => .of (execUrgentPhase_frame bad used),
    .of execHopEvent_frame,
    fun h n d => .ofAt (execBulkDelayWrite_frameAt h n d),
    .of execBulkCrossfade_frame,
    fun h n d => .ofAt (execTrellisSourceWrite_frameAt h n d),
    fun h d => .of (execNodeWrite_frame h d),
    fun h d => .of (execBankCapture_frame h d),
    fun h d => .of (execBankClear_frame h d),
    .of execInputMapBoundary_frame,
    fun h n d => .ofAt (execOutputMapWrite_frameAt h n d),
    .of execOutputMapLands_frame,
    fun h n sub => .ofAt (execPathQueryRead_frameAt h n sub),
    .of execOutputsRampDown_frame⟩

/-- Settles O55: each clause is the frame of one command. -/
theorem networkFrames : Obligations.NetworkFrames := by
  unfold Obligations.NetworkFrames
  exact ⟨
    fun n f err clock => .of (execReceiveFrame_frame n f err clock),
    fun n => .ofAt (execPauseWatchdog_frameAt n),
    fun n speed => .of (execLinkUp_frame n speed),
    fun n => .of (execLinkDown_frame n),
    fun h n d => .ofAt (execRingDisable_frameAt h n d),
    fun h n d => .ofAt (execRingEnable_frameAt h n d),
    fun h n d => .of (execReceiveStreamEnable_frame h n d),
    fun h n d => .of (execTransmitStreamEnable_frame h n d),
    fun h tx n d => .of (execStreamDisable_frame h tx n d),
    fun n sameCycle => .ofAt (execPacketPush_frameAt n sameCycle),
    fun n sameCycle bad => .of (execPacketLaunch_frame n sameCycle bad),
    fun n ip mac => .of (execArpResolved_frame n ip mac),
    fun n ip => .ofAt (execArpAgeOut_frameAt n ip),
    fun n => .ofAt (execArpFail_frameAt n),
    fun n group => .of (execIgmpReport_frame n group),
    fun n => .of (execIgmpV2FallbackEnd_frame n),
    fun h n d => .ofAt (execSdpWrite_frameAt h n d),
    fun h n d => .ofAt (execAddressWrite_frameAt h n d)⟩

/-- Settles O56: each clause is the frame of one command. -/
theorem timeFrames : Obligations.TimeFrames := by
  unfold Obligations.TimeFrames
  exact ⟨
    fun h d => .of (execRateWrite_frame h d),
    fun h d => .of (execOffsetWrite_frame h d),
    .of execStep_frame,
    fun h d => .of (execTimebaseRestart_frame h d),
    fun n m clock mac ip => .of (execPtpSync_frame n m clock mac ip),
    fun n m => .of (execPtpFollowUp_frame n m),
    fun n m => .of (execPtpDelayResp_frame n m),
    fun n m clock mac ip => .of (execPtpDelayReq_frame n m clock mac ip),
    fun n m => .of (execPtpAnnounce_frame n m),
    fun kind clock => .of (execPtpSend_frame kind clock),
    .of execAnnounceTimeout_frame,
    fun clock => .of (execPpsEdge_frame clock),
    .of execPpsLost_frame,
    fun h n d => .ofAt (execTriggerArm_frameAt h n d),
    fun h n d => .ofAt (execTriggerDisarm_frameAt h n d),
    fun n clock => .ofAt (execTriggerFire_frameAt n clock),
    fun n clock => .ofAt (execCapture_frameAt n clock),
    fun clock => .of (execDelayReqSend_frame clock),
    fun m => .of (execSprinklerData_frame m),
    fun m => .of (execNak_frame m),
    .of execNakRepeat_frame,
    .of execGapSkip_frame,
    fun m => .of (execSnapshotRequest_frame m),
    .of execSnapshotRequestRepeat_frame,
    fun m => .of (execSnapshot_frame m),
    .of execHeartbeat_frame,
    fun m => .of (execHeartbeatReceived_frame m),
    .of execStatus_frame,
    fun m => .of (execStatusReceived_frame m),
    .of execPromoted_frame⟩

/-- Settles O57: each clause is the frame of one command. -/
theorem hedgeFrames : Obligations.HedgeFrames := by
  unfold Obligations.HedgeFrames
  exact ⟨
    fun h d => .of (execHedgeEnable_frame h d),
    fun h d => .of (execHedgeDisable_frame h d),
    fun n => .of (execHedgeRampDownEnd_frame n),
    .of execModEnFall_frame,
    fun h n d => .ofAt (execChannelEnable_frameAt h n d),
    fun h n d => .ofAt (execChannelDisable_frameAt h n d),
    fun n => .ofAt (execChannelOff_frameAt n),
    fun n => .ofAt (execChannelStart_frameAt n),
    fun n => .ofAt (execStartRampEnd_frameAt n),
    fun n word clock => .ofAt (execSenseFrame_frameAt n word clock),
    fun n clock hw => Frame.of (execFaultEdge_frame n clock (by simpa [Instr.wf, wfInst] using hw)) rfl (by decide) (by decide) hw,
    fun n clock => .of (execFaultIdentify_frame n clock),
    fun n => .ofAt (execRetry_frameAt n),
    fun h n d => .ofAt (execClearLatch_frameAt h n d),
    fun h d => .of (execClearTripLog_frame h d),
    .of execHedgeBlock_frame,
    fun n => .ofAt (execImpedanceWindow_frameAt n),
    .of execNewCarrier_frame,
    .of execOldCarrierStop_frame,
    fun h sub d => .of (execResynchronise_frame h sub d),
    .of execDecimatorReset_frame,
    fun n => .ofAt (execSettlingEnd_frameAt n),
    fun n => .ofAt (execNoData_frameAt n),
    fun n => .of (execPdmDataResumed_frame n),
    fun h n d => .ofAt (execCompensationWrite_frameAt h n d),
    fun n => .ofAt (execCompensationSwitch_frameAt n),
    fun h n d => .ofAt (execOpenOutput_frameAt h n d),
    fun h n d => .ofAt (execCloseOutput_frameAt h n d),
    fun h d => .of (execStartRun_frame h d),
    .of execStimulusStart_frame,
    .of execCaptureAnalysis_frame,
    .of execRunDone_frame,
    fun h d => .of (execAbortRun_frame h d),
    fun cause => .of (execFreeze_frame cause),
    .of execPostEnd_frame,
    fun h d => .of (execRearm_frame h d)⟩

/-- Settles O58: each clause is the frame of one command. -/
theorem poolFrames : Obligations.PoolFrames := by
  unfold Obligations.PoolFrames
  exact ⟨
    fun h n d => .ofAt (execDescriptionWrite_frameAt h n d),
    fun h n d => .of (execChainEnable_frame h n d),
    fun h n d => .of (execChainDisable_frame h n d),
    fun n => .of (execChainRelease_frame n),
    fun h n d => .of (execParameterWrite_frame h n d),
    fun n cycles bad abort => .of (execRunComplete_frame n cycles bad abort),
    fun n => .ofAt (execMissedRun_frameAt n),
    fun h n d => .ofAt (execPackWrite_frameAt h n d),
    fun h n d => .ofAt (execPackErase_frameAt h n d),
    fun n => .of (execFlagRaise_frame n),
    fun h d => .of (execSetHostFlags_frame h d),
    fun n clock => .of (execLockTimeout_frame n clock),
    fun ready heat => .of (execRefresh_frame ready heat),
    fun n row bank issue => .of (execNeighbourRefresh_frame n row bank issue),
    fun n => .of (execAlert_frame n),
    fun n fails => .of (execReplay_frame n fails),
    fun gap drift => .of (execZqCalibration_frame gap drift),
    fun good timing voltage => .of (execScheduledRetraining_frame good timing voltage),
    fun n offset bad => .of (execScrub_frame n offset bad),
    fun request => .of (execSelfRefreshEntry_frame request),
    fun h n d => .ofAt (execMarkDevice_frameAt h n d)⟩

/-- Settles O59: each clause is the frame of one command. -/
theorem systemFrames : Obligations.SystemFrames := by
  unfold Obligations.SystemFrames
  exact ⟨
    .of execSupplyLoss_frame,
    fun h d => .of (execFirmwareImage_frame h d),
    fun h d => .of (execNonce_frame h d),
    fun us => .of (execReportSigned_frame us),
    .of execStandbyEntry_frame,
    fun temp => .of (execThermalRead_frame temp),
    fun readings temps => .of (execMonitorSample_frame readings temps),
    fun delays => .of (execMarginPlan_frame delays),
    fun volts => .of (execVreqStep_frame volts),
    fun n => .of (execSafetyRaise_frame n),
    .of execAgeingTelemetrySave_frame,
    fun h d => .of (execCounterLatch_frame h d),
    fun h d => .of (execTraceEnable_frame h d),
    fun h d => .of (execTraceDisable_frame h d),
    .of execTraceSync_frame,
    .of execCounterSnapshot_frame⟩

end Sys2Proof.Machine
end

section
/-! PROOFS. What a host holds: its transfer, and the checks of an access. -/

namespace Sys2Proof.Machine
open Sys2Proof

set_option Elab.async false

variable {s0 : State} {E : ℕ → Prop} {M : List Part} {a b s t : State}

/-! ## What a frame says of one entry -/

/-- No group of the list has sub-index c of an index, and the end of no command writes it. -/
def apart (l : List Span) (i c : ℕ) : Bool :=
  l.all (fun x => i < x.lo || x.hi < i || (!x.subs.isEmpty && !x.subs.contains (c % 256))) &&
    !(i == 0x1200 && (c % 256 == 0x06 || c % 256 == 0x07))

theorem Keys.not_of_apart {l : List Span} {i n c : ℕ} (h : apart l i c = true) : ¬ Keys l (K i n c) := by
  rintro ⟨x, hx, hlo, hhi, -, hs⟩
  simp only [apart, Bool.and_eq_true] at h
  have hx := List.all_eq_true.mp h.1 x hx
  rw [kIdx_of_K] at hlo hhi
  rw [kSub_of_K] at hs
  simp only [Bool.or_eq_true, decide_eq_true_eq, Bool.and_eq_true, Bool.not_eq_true', List.isEmpty_eq_false_iff] at hx
  rcases hx with (hx | hx) | ⟨hne, hc⟩
  · omega
  · omega
  · rcases hs with hs | hs
    · exact hne hs
    · simp [hs] at hc

theorem noted_of_apart {l : List Span} {i n c : ℕ} (h : apart l i c = true) : noted (K i n c) = false := by
  simp only [apart, Bool.and_eq_true, Bool.not_eq_true'] at h
  simp only [noted, kIdx_of_K, kSub_of_K]
  simpa using h.2

/-- A frame leaves what its groups do not have. -/
theorem Kept.getOf {l : List Span} {i n c : ℕ} (h : Keeps l M a b) (hk : apart l i c = true := by decide) :
    b.get (K i n c) = a.get (K i n c) := h.entries _ (Keys.not_of_apart hk) (noted_of_apart hk)

theorem Kept.gOf {l : List Span} {i n c : ℕ} (h : Keeps l M a b) (hk : apart l i c = true := by decide) :
    b.g i n c = a.g i n c := h.getOf hk

theorem Kept.onOf {l : List Span} {i n c : ℕ} (h : Keeps l M a b) (hk : apart l i c = true := by decide) :
    b.on i n c = a.on i n c := by rw [State.on_eq, State.on_eq, h.getOf hk]

theorem Kept.gbOf {l : List Span} {i n c : ℕ} (h : Keeps l M a b) (hk : apart l i c = true := by decide) :
    b.gb i n c = a.gb i n c := h.strings _ (Keys.not_of_apart hk)

/-! ## The state of one host -/

/-- A command that leads to x for host h, and to what the end of a command may write. -/
theorem HostBecomes.of_run {u : Tx s} {h : ℕ} {x : HostSt} (hk : Kept (fun _ => False) [] u.cur t)
    (hc : { u.cur.ctl with hosts := [], fired := none } = { s.ctl with hosts := [], fired := none })
    (hx : ∀ g, (u.cur.host g).still = if g = h then x.still else (s.host g).still) : HostBecomes s t h x := by
  obtain ⟨hctl, hhost⟩ := hk.ctl (by simp)
  exact ⟨by rw [hhost, hx, if_pos rfl], fun g hg => by rw [hhost, hx, if_neg hg], hctl.trans hc⟩

theorem Tx.dropXfer_host (t : Tx s0) (h g : ℕ) :
    (t.dropXfer h).cur.host g = if g = h then { t.cur.host h with xfer := none } else t.cur.host g := by
  unfold Tx.dropXfer
  split
  · rename_i hx
    split
    · subst g
      rw [← hx]
    · rfl
  · rename_i x hx
    have hset := t.setHost_host h { t.cur.host h with xfer := none } g
    unfold Tx.when
    dsimp only
    split
    · exact hset
    · exact hset

theorem Tx.dropXfer_ctl (t : Tx s0) (h : ℕ) :
    { (t.dropXfer h).cur.ctl with hosts := [], fired := none } = { t.cur.ctl with hosts := [], fired := none } := by
  unfold Tx.dropXfer
  split
  · rfl
  · unfold Tx.when
    dsimp only
    split <;> rfl

/-- The end of a transfer shows in the entries of the filter set that it was an upload of. -/
theorem Tx.dropXfer_kept (t : Tx s0) (h : ℕ) : Kept (UploadShown t.cur h) [.ctl] t.cur (t.dropXfer h).cur := by
  unfold Tx.dropXfer
  split
  · exact .refl ..
  · rename_i x hx
    unfold Tx.when
    dsimp only
    split
    · rename_i hup
      simp only [Bool.and_eq_true, beq_iff_eq] at hup
      have hin : ∀ c, c = 0x09 ∨ c = 0x0A → UploadShown t.cur h (K 0x3A00 (kInst x.key) c) := fun c hc =>
        ⟨x, hx, hup.1, hup.2, kIdx_of_K .., by rw [kInst_of_K]; unfold kInst; omega, by rw [kSub_of_K]; omega⟩
      exact .wKey (.wKey (.setHost (.refl ..)) (hin _ (.inl rfl))) (hin _ (.inr rfl))
    · exact .setHost (.refl ..)

/-! ## Access checks -/

/-- The checks before a value is looked at rest on the rights, the owners, the state of the device and the commit. -/
theorem State.accessCheck_congr (hg : ∀ k, kIdx k ∈ [0x1000, 0x6500] → noted k = false → b.get k = a.get k)
    (hb : ∀ k, kIdx k = 0x1100 → b.blob k = a.blob k)
    (hs : b.power.stage = a.power.stage) (hc : b.ctl.commit = a.ctl.commit) (h : ℕ) (o : OpFields) :
    b.accessCheck h o = a.accessCheck h o := by
  have hrom : b.romOnly = a.romOnly := by
    unfold State.romOnly
    rw [State.g_eq, State.g_eq, hg _ (by decide) (by decide)]
  have hearly : b.failedEarly = a.failedEarly := by
    unfold State.failedEarly
    rw [State.g_eq, State.g_eq, hg _ (by decide) (by decide), hs]
  have hright : ∀ r, b.right h r = a.right h r := fun r => by
    unfold State.right
    rw [State.g_eq, State.g_eq, hg _ (by rw [kIdx_of_K]; decide) (by unfold noted; rw [kIdx_of_K]; rfl)]
  have howns : ∀ x y, b.owns h x y = a.owns h x y := fun x y => by
    unfold State.owns State.owner
    rw [State.gb_eq, State.gb_eq, hb _ (kIdx_of_K ..)]
  have hmay : ∀ acc i n c, b.mayWrite h acc i n c = a.mayWrite h acc i n c := fun acc i n c => by
    simp only [State.mayWrite, hright, howns, hc]
  simp only [State.accessCheck, hrom, hearly, hmay]

/-- A BLOB's bytes are checked by no value of the dictionary. -/
theorem State.writeCheck_of_blob {h : ℕ} {o : OpFields} (hn : namesBlob o = true) (hac : b.accessCheck h o = a.accessCheck h o) :
    b.writeCheck h o = a.writeCheck h o := by
  unfold State.writeCheck
  rw [hac]
  unfold namesBlob at hn
  split at hn
  · rename_i e he
    simp only [he, rangeOk, eq_of_beq hn]
  · cases hn

theorem Tx.dropXfer_writeCheck (t : Tx s0) (h : ℕ) {o : OpFields} (hn : namesBlob o = true) :
    (t.dropXfer h).cur.writeCheck h o = t.cur.writeCheck h o := by
  have hfar : ∀ k, kIdx k ≠ 0x3A00 → ¬ UploadShown t.cur h k := fun k hk ⟨_, _, _, _, hi, _⟩ => hk hi
  refine State.writeCheck_of_blob hn (State.accessCheck_congr (fun k hk hn => ?_) (fun k hk => ?_) ?_ ?_ h o)
  · exact (t.dropXfer_kept h).entries k (hfar k (by rintro hi; simp [hi] at hk)) hn
  · exact (t.dropXfer_kept h).strings k (hfar k (by rw [hk]; decide))
  · rw [(t.dropXfer_kept h).power (by decide)]
  · exact (congrArg Control.commit (t.dropXfer_ctl h) :)

/-- Beside the three entries that report refused data themselves, the rule for bad data does nothing. -/
theorem badRule_eq {h : ℕ} {o : OpFields} (ho : (o.idx, o.sub) ∉ [(0x3A00, 0x01), (0x3B00, 0x01), (0x3C00, 0x01)]) (t : Tx s0) :
    badRule h o t = t := by
  unfold badRule
  split
  · exact absurd (by simp [*]) ho
  · exact absurd (by simp [*]) ho
  · exact absurd (by simp [*]) ho
  · rfl

/-- A write that a check refuses answers its status, after the end of the transfer that a write of a BLOB brings. -/
theorem Tx.writeOp_refusal (t : Tx s0) {h : ℕ} {o : OpFields} (hk : t.cur.writeCheck h o ≠ stOK)
    (ho : (o.idx, o.sub) ∉ [(0x3A00, 0x01), (0x3B00, 0x01), (0x3C00, 0x01)] ∨ t.cur.writeCheck h o ≠ stBadType) :
    t.writeOp h o = (t.when (namesBlob o) (fun t => t.dropXfer h)).status (t.cur.writeCheck h o) := by
  have hsame : (t.when (namesBlob o) (fun t => t.dropXfer h)).cur.writeCheck h o = t.cur.writeCheck h o := by
    unfold Tx.when
    split
    · rename_i hn
      exact t.dropXfer_writeCheck h hn
    · rfl
  unfold Tx.writeOp Tx.guardedBad
  simp only [hsame, beq_iff_eq, if_neg hk]
  split
  · exact badRule_eq (ho.resolve_right (by simpa using ‹_›)) _
  · rfl

/-- Settles O8: the checks rest on nothing that the end of a transfer changes. -/
theorem refusedWriteChangesNothing : Obligations.RefusedWriteChangesNothing := by
  unfold Obligations.RefusedWriteChangesNothing
  intro s h o hc hk ho
  refine run_to (f := fun t => t.writeOp h o) hc _ (Tx.writeOp_refusal _ hk ho) fun t ht => ⟨ht.result (by simp), ?_, ?_⟩
  · intro hn
    refine .of_run (by simp) (by simp) (.status ?_) ht
    rw [hn]
    exact .refl ..
  · intro hn
    rw [hn] at ht
    refine ⟨.of_run ht ((Tx.dropXfer_ctl _ h).trans rfl) fun g => ?_, .of_run (by simp) (by simp) (.status ?_) ht⟩
    · exact (congrArg HostSt.still (Tx.dropXfer_host (Tx.start s) h g)).trans (by split <;> rfl)
    · exact (Tx.dropXfer_kept (Tx.start s) h).mono (fun _ h => h) (by simp)

end Sys2Proof.Machine
end

section
/-! PROOFS. What shows of a state rests on nothing that the beginning of a command sets: what it answers, what it sends and
what it traces. -/

namespace Sys2Proof.Machine
open Sys2Proof

set_option Elab.async false

variable {s0 s1 : State} {t : Tx s0} {u : Tx s1}

/-- Two transactions stand alike, but for what they answer, send and trace. -/
def Alike (t : Tx s0) (u : Tx s1) : Prop := t.cur.begun = u.cur.begun

theorem Upd.begun_apply (x : Upd) (a : State) : (x.apply a).begun = (x.apply a.begun).begun := by cases x <;> rfl

namespace Alike

theorem get (h : Alike t u) (k : ℕ) : t.cur.get k = u.cur.get k := 
  (congrArg (fun s : State => s.get k) (show t.cur.begun = u.cur.begun from h) :)
theorem g (h : Alike t u) (i n c : ℕ) : t.g i n c = u.g i n c := h.get _
theorem trace (h : Alike t u) : t.cur.trace = u.cur.trace := (congrArg State.trace h :)
theorem sets (h : Alike t u) : t.cur.sets = u.cur.sets := (congrArg State.sets h :)
theorem clock (h : Alike t u) : t.cur.clock = u.cur.clock := (congrArg State.clock h :)

theorem upd (h : Alike t u) (x : Upd) : Alike (t.upd x) (u.upd x) := by
  show (x.apply t.cur).begun = (x.apply u.cur).begun
  rw [Upd.begun_apply, Upd.begun_apply x u.cur, h]

theorem w (h : Alike t u) (i n c v : ℕ) : Alike (t.w i n c v) (u.w i n c v) := h.upd _
theorem setTrace (h : Alike t u) (x : Trace) : Alike (t.setTrace x) (u.setTrace x) := h.upd _
theorem emit (h : Alike t u) (o : Out) : Alike (t.emit o) (u.emit o) := h

theorem inc (h : Alike t u) (i n c v : ℕ) : Alike (t.inc i n c v) (u.inc i n c v) := by
  unfold Tx.inc
  rw [h.g]
  exact h.w ..

theorem peak (h : Alike t u) (i n c v : ℕ) : Alike (t.peak i n c v) (u.peak i n c v) := by
  unfold Tx.peak
  rw [h.g]
  split
  · exact h.w ..
  · exact h

theorem flagBit (h : Alike t u) (i n c b : ℕ) : Alike (t.flagBit i n c b) (u.flagBit i n c b) := by
  unfold Tx.flagBit Tx.flag Tx.cycleTo
  dsimp only
  rw [h.g, h.sets]
  exact (h.upd (.sets _)).w ..

theorem when (h : Alike t u) (c : Bool) {f : Tx s0 → Tx s0} {f' : Tx s1 → Tx s1} (hf : Alike t u → Alike (f t) (f' u)) :
    Alike (t.when c f) (u.when c f') := by
  unfold Tx.when
  split
  · exact hf h
  · exact h

theorem each {α : Type} (h : Alike t u) (l : List α) {f : Tx s0 → α → Tx s0} {f' : Tx s1 → α → Tx s1}
    (hf : ∀ t u x, Alike t u → Alike (f t x) (f' u x)) : Alike (t.each l f) (u.each l f') := by
  unfold Tx.each
  induction l generalizing t u with
  | nil => exact h
  | cons x l ih => exact ih (hf _ _ _ h)

theorem traceSend (h : Alike t u) (c : ℕ) (idle : Bool) : Alike (t.traceSend c idle) (u.traceSend c idle) := by
  unfold Tx.traceSend
  rw [h.trace]
  dsimp only
  split
  · exact h
  · exact ((h.setTrace _).when _ fun h => (((((h.emit _).inc ..).inc ..).inc ..).inc ..).w ..).when _ fun h => h.emit _

theorem traceDrop (h : Alike t u) (e : TraceEv) : Alike (t.traceDrop e) (u.traceDrop e) := by
  unfold Tx.traceDrop
  dsimp only
  rw [h.trace, h.g, (h.setTrace _).g 0x6A00 0 0x12, (h.setTrace _).g 0x680F 0 0x01]
  exact ((((h.setTrace _).w ..).w ..).w ..).flagBit ..

theorem traceBody (h : Alike t u) (e : TraceEv) : t.traceBody e = u.traceBody e := by
  unfold Tx.traceBody
  rw [h.g]

theorem tracePut (h : Alike t u) (e : TraceEv) : Alike (t.tracePut e) (u.tracePut e) := by
  unfold Tx.tracePut
  rw [h.trace, h.traceBody]
  dsimp only
  split
  · exact h.traceDrop e
  · exact ((((h.setTrace _).when _ fun h => h.w ..).w ..).peak ..).when _ fun h => h.flagBit ..

theorem traceTake (h : Alike t u) (e : TraceEv) : Alike (t.traceTake e) (u.traceTake e) := by
  have h1 := h.traceSend e.at_ true
  unfold Tx.traceTake
  dsimp only
  rw [h1.trace, h1.g]
  split
  · split
    · exact h1.traceDrop e
    · exact (h1.tracePut _).tracePut e
  · exact h1.tracePut e

theorem traceSettle (h : Alike t u) : Alike t.traceSettle u.traceSettle := by
  unfold Tx.traceSettle
  dsimp only
  rw [h.trace, h.g, h.clock]
  split
  · exact h
  · have h1 := ((h.setTrace { u.cur.trace with wait := u.cur.trace.wait.filter (fun e => u.cur.clock ≤ e.at_) }).each
      (sortBy TraceEv.before (u.cur.trace.wait.filter (fun e => e.at_ < u.cur.clock)))
      (f := fun t e => t.traceTake e) (f' := fun t e => t.traceTake e) fun _ _ e h => h.traceTake e).traceSend u.cur.clock
      (!u.cur.trace.closing)
    rw [h1.trace]
    split
    · exact (((h1.setTrace _).w ..).emit _).emit _
    · exact h1

end Alike

/-- What shows as a number rests on nothing that the beginning of a command sets. -/
theorem State.begun_readNum (s : State) (h i n c : ℕ) : s.begun.readNum h i n c = s.readNum h i n c := by
  have hs : Alike (Tx.begin s.begun).traceSettle (Tx.begin s).traceSettle := Alike.traceSettle (t := Tx.begin s.begun) rfl
  have htrace : ∀ c, s.begun.viewTrace c = s.viewTrace c := fun c => by
    unfold State.viewTrace
    rw [show (Tx.begin s.begun).traceSettle.cur.g 0x6A00 0 c = (Tx.begin s).traceSettle.cur.g 0x6A00 0 c from hs.g ..]
  have hcount : ∀ i, s.begun.counterVal i = s.counterVal i := fun i => by
    unfold State.counterVal
    rw [show (Tx.begin s.begun).traceSettle.cur.g 0x680F 0 0x01 = (Tx.begin s).traceSettle.cur.g 0x680F 0 0x01 from hs.g ..]
    rfl
  have hv : s.begun.viewNum h i n c = s.viewNum h i n c := by
    unfold State.viewNum
    split
    case h_36 => exact htrace c
    case h_37 => rw [hcount]; rfl
    all_goals rfl
  unfold State.readNum
  rw [hv]
  rfl

theorem State.begun_readBytes (s : State) (h i n c : ℕ) : s.begun.readBytes h i n c = s.readBytes h i n c := by
  have hrow : s.begun.rowBytes h = s.rowBytes h := by
    have hl : s.begun.liveWords = s.liveWords := rfl
    have hb : s.begun.bank = s.bank := rfl
    have hm : s.begun.maps = s.maps := rfl
    unfold State.rowBytes
    rw [hl, hb, hm]
  unfold State.readBytes
  split
  case h_2 => exact hrow
  all_goals rfl

end Sys2Proof.Machine
end

section
/-! PROOFS. Operations: reads of values, of staged bytes and of segments, NOP, and the first segment of a write. -/

namespace Sys2Proof.Machine
open Sys2Proof

set_option Elab.async false

variable {s0 : State}

theorem up4_le {n m : ℕ} (h : n ≤ 4 * m) : up4 n ≤ 4 * m := by
  unfold up4
  omega

/-- A message of its own has room for more than 1400 bytes. -/
theorem State.aloneRoom_ge (s : State) (h : ℕ) : 1428 ≤ s.aloneRoom h := by
  unfold State.aloneRoom largest
  split
  · split <;> decide
  · decide

theorem Tx.replyIn_fits (t : Tx s0) {room : ℕ} {d : Bytes} (h : up4 d.length ≤ room) : t.replyIn room d = t.reply d :=
  if_neg (by omega)

theorem Tx.reply_result (t : Tx s0) (d : Bytes) : (t.reply d).cur.result = ⟨some stOK, d⟩ := rfl
theorem Tx.status_result (t : Tx s0) (st : ℕ) : (t.status st).cur.result = ⟨some st, []⟩ := rfl

theorem Ty.size_le (ty : Ty) : ty.size ≤ 16 := by cases ty <;> decide

/-- A read of a number which is not of a path query answers the number. -/
theorem Tx.readOp_num (t : Tx s0) {h : ℕ} {o : OpFields} {bad : List ℕ} {room : ℕ} {e : Entry} (hk : t.cur.readCheck h o = stOK)
    (hd : o.data = []) (hf : o.flags = 0) (he : entryOf o.idx o.inst o.sub = some e) (hb : e.ty.isBytes = false)
    (hi : o.idx ≠ 0x3F01) {v : ℕ} (hv : t.cur.readNum h o.idx o.inst o.sub = v) :
    t.readOp h o bad room = t.replyIn room (leBytes e.ty.size v) := by
  subst hv
  unfold Tx.readOp
  have hw : t.when (o.idx == 0x3F01 && 0x06 ≤ o.sub) (fun t => t.pathEvaluate o.inst) = t := if_neg (by simp [hi])
  simp only [hk, bne_self_eq_false, Bool.false_eq_true, if_false, hd, List.isEmpty_nil, Bool.not_true, he, hf, hw]
  cases hty : e.ty
  case str => rw [hty] at hb; cases hb
  case blob => rw [hty] at hb; cases hb
  all_goals rfl

/-- A staged read answers the staged bytes. -/
theorem Tx.readOp_staged (t : Tx s0) {h : ℕ} {o : OpFields} {room : ℕ} {d : Bytes} (hk : t.cur.readCheck h o = stOK)
    (hd : o.data = []) (hf : o.flags = 1) (hs : mget? (t.cur.host h).stage (K o.idx o.inst o.sub) = some d) :
    t.readOp h o [] room = t.replyIn room d := by
  have he : ∃ e, entryOf o.idx o.inst o.sub = some e := by
    unfold State.readCheck at hk
    split at hk
    · cases hk
    · split at hk
      · cases hk
      · exact ⟨_, ‹_›⟩
  obtain ⟨e, he⟩ := he
  unfold Tx.readOp
  simp only [hk, bne_self_eq_false, Bool.false_eq_true, if_false, hd, List.isEmpty_nil, Bool.not_true, he, hf, beq_self_eq_true,
    if_true, hs]

/-- What a BLOB reads rests on a host's stage alone, of what a host holds. -/
theorem Tx.readBytes_setHost (t : Tx s0) {h : ℕ} {x : HostSt} (hx : x.stage = (t.cur.host h).stage) (g i n c : ℕ) :
    (t.setHost h x).cur.readBytes g i n c = t.cur.readBytes g i n c := by
  have hst : ∀ j, ((t.setHost h x).cur.host j).stage = (t.cur.host j).stage := fun j => by
    rw [t.setHost_host]
    split
    · subst j; exact hx
    · rfl
  have hstage : ∀ j, (t.setHost h x).cur.stageList j = t.cur.stageList j := fun j => by
    unfold State.stageList
    rw [hst]
  have hrow : (t.setHost h x).cur.rowBytes g = t.cur.rowBytes g := by
    have hp : (t.setHost h x).cur.pendingBank = t.cur.pendingBank := by
      have hn : (t.setHost h x).cur.namedBank = t.cur.namedBank := by
        simp only [State.namedBank, hst]
        rfl
      unfold State.pendingBank
      rw [hn]
      rfl
    have hl : (t.setHost h x).cur.liveWords = t.cur.liveWords := by
      unfold State.liveWords
      rw [hp]
      rfl
    have hb : (t.setHost h x).cur.bank = t.cur.bank := rfl
    have hm : (t.setHost h x).cur.maps = t.cur.maps := rfl
    unfold State.rowBytes
    rw [hl, hb, hm]
  unfold State.readBytes
  split
  · exact hstage n
  · exact hrow
  all_goals rfl

/-- A host without its read snapshot. -/
def Tx.snapOff (t : Tx s0) (h : ℕ) : Tx s0 :=
  if (t.cur.host h).snap == none then t else t.setHost h { t.cur.host h with snap := none }

theorem Tx.snapOff_host (t : Tx s0) (h : ℕ) : (t.snapOff h).cur.host h = { t.cur.host h with snap := none } := by
  unfold Tx.snapOff
  split
  · rename_i hs
    rw [← eq_of_beq hs]
  · exact (t.setHost_host ..).trans (if_pos rfl)

theorem Tx.snapOff_readBytes (t : Tx s0) (h g i n c : ℕ) :
    (t.snapOff h).cur.readBytes g i n c = t.cur.readBytes g i n c := by
  unfold Tx.snapOff
  split
  · rfl
  · exact t.readBytes_setHost (x := { t.cur.host h with snap := none }) rfl g i n c

theorem Tx.snapOff_clock (t : Tx s0) (h : ℕ) : (t.snapOff h).cur.clock = t.cur.clock := by
  unfold Tx.snapOff
  split <;> rfl

theorem Tx.snapOff_kept (t : Tx s0) (h : ℕ) : Kept (fun _ => False) [.result, .ctl] t.cur (t.snapOff h).cur :=
  .ite (.refl ..) (.setHost (.refl ..))

/-- The first read of a segment takes a snapshot of the BLOB and answers bytes of it. -/
theorem Tx.readBlob_first (t : Tx s0) {h : ℕ} {o : OpFields} {bad : List ℕ} {n room : ℕ} {d : Bytes}
    (hr : ¬ (o.idx = 0x5D81 ∧ o.sub = 0x04)) (hd : t.cur.readBytes h o.idx o.inst o.sub = d)
    (hm : up4 (8 + min n d.length) ≤ room) :
    t.readBlob h o bad 0 (some n) room = (((t.snapOff h).status stOK).setHost h { t.cur.host h with
      snap := some ⟨K o.idx o.inst o.sub, d, t.cur.clock⟩ }).reply (segmentBytes d 0 n) := by
  have hroom : 8 ≤ room := le_trans (by unfold up4; omega) hm
  have hnow : ((t.snapOff h).status stOK).blobNow h o bad = (d, (t.snapOff h).status stOK) := by
    unfold Tx.blobNow
    rw [if_neg (by simpa using hr)]
    exact congrArg (·, _) ((t.snapOff_readBytes ..).trans hd)
  have hkept : Option.filter (fun p => p.key == K o.idx o.inst o.sub && (0 : ℕ) != 0) (t.cur.host h).snap = none := by
    cases (t.cur.host h).snap <;> simp [Option.filter]
  unfold Tx.readBlob
  have hoff : (if (t.cur.host h).snap == none then t else t.setHost h { t.cur.host h with snap := none }) = t.snapOff h := rfl
  have hst : (((t.snapOff h).status stOK).cur.result.status != some stOK) = false := bne_self_eq_false _
  have hlen : ¬ (decide (room < 8) || decide (room < up4 (8 + min n d.length))) = true := by
    simp only [Bool.or_eq_true, decide_eq_true_eq]
    omega
  have hhost : ((t.snapOff h).status stOK).cur.host h = { t.cur.host h with snap := none } := t.snapOff_host h
  have hclock : ((t.snapOff h).status stOK).cur.clock = t.cur.clock := t.snapOff_clock h
  simp only [hkept, hoff, hnow]
  simp only [hst, Bool.false_and, Bool.false_eq_true, if_false, Nat.not_lt_zero, Option.getD_some,
    Nat.sub_zero, if_neg hlen, Option.isNone_none, Bool.true_and, bne_self_eq_false, hhost, hclock]

/-- What the first segment of a write brings before the transfer begins leaves the time and what it answers. -/
theorem firstRule_kept {o : OpFields} {t : Tx s0} (hu : o.idx = 0x3A00 → t.cur.setUses o.inst = 0) :
    Keeps [.all 0x6400 [0x03, 0x04, 0x05]] [.power] t.cur (firstRule o t).cur := by
  unfold firstRule
  split
  · rename_i hi _
    rw [if_neg (by simp [hu hi])]
    exact .refl ..
  · exact Tx.imageErase_keeps t
  · exact .refl ..

theorem State.setUses_congr {a b : State} (hg : ∀ k, kIdx k = 0x3800 → b.get k = a.get k) (hc : b.corr = a.corr) (f : ℕ) :
    b.setUses f = a.setUses f := by
  have hu : ∀ k, b.usesOf k = a.usesOf k := fun k => by
    unfold State.usesOf State.force State.chain
    rw [State.g_eq, State.g_eq, hg _ (kIdx_of_K ..), hc]
  unfold State.setUses
  simp only [hu]

theorem Tx.dropXfer_setUses (t : Tx s0) (h f : ℕ) : (t.dropXfer h).cur.setUses f = t.cur.setUses f := by
  refine State.setUses_congr (fun k hk => (t.dropXfer_kept h).entries k ?_ (by unfold noted; rw [hk]; rfl)) ?_ f
  · rintro ⟨_, -, -, -, hi, -⟩
    exact absurd (hk.symm.trans hi) (by decide)
  · exact (t.dropXfer_kept h).corr (by decide)

/-- A first segment that is not the whole begins a transfer. -/
theorem Tx.writeSegmentOp_first (t : Tx s0) {h : ℕ} {o : OpFields} (hk : t.cur.accessCheck h o = stOK) (hn : namesBlob o = true)
    (hl : 8 ≤ o.data.length) (ho : fieldLE o.data 0 4 = 0) (ht : totalTooLong o (fieldLE o.data 4 4) = false)
    (hd : (o.data.drop 8).length < fieldLE o.data 4 4) (hu : o.idx = 0x3A00 → t.cur.setUses o.inst = 0) :
    ∃ u : Tx s0, t.writeSegmentOp h o =
        u.setHost h { u.cur.host h with xfer := some ⟨K o.idx o.inst o.sub, fieldLE o.data 4 4, o.data.drop 8, t.cur.clock⟩ } ∧
      u.cur.result = ⟨some stOK, []⟩ := by
  have hk1 : Keeps [.all 0x6400 [0x03, 0x04, 0x05]] [.power] _ _ :=
    firstRule_kept (o := o) (t := (t.dropXfer h).status stOK) (fun hi => (t.dropXfer_setUses h _).trans (hu hi))
  have hres : (firstRule o ((t.dropXfer h).status stOK)).cur.result = ⟨some stOK, []⟩ := hk1.result (by decide)
  have hclock : (firstRule o ((t.dropXfer h).status stOK)).cur.clock = t.cur.clock :=
    (hk1.clock (by decide)).2.trans ((t.dropXfer_kept h).clock (by decide)).2
  refine ⟨firstRule o ((t.dropXfer h).status stOK), ?_, hres⟩
  unfold Tx.writeSegmentOp Tx.when Tx.xferTo
  have hlen : decide (8 ≤ o.data.length) = true := decide_eq_true hl
  have hnot : (!namesBlob o || decide (o.data.length < 8)) = false := by simp [hn]; omega
  have htot : (totalTooLong o (fieldLE o.data 4 4) || decide (fieldLE o.data 4 4 < (o.data.drop 8).length)) = false := by
    simp [ht, -List.length_drop]; omega
  have hmore : ((o.data.drop 8).length == fieldLE o.data 4 4) = false := by simp [-List.length_drop]; omega
  simp only [hk, bne_self_eq_false, Bool.false_eq_true, if_false, hlen, Bool.true_and, if_true, hnot, ho, beq_self_eq_true, htot, hres, hmore,
    hclock]

/-- Settles O9: each clause is the equation of one operation on the state that a command begins with. -/
theorem operationsComplete : Obligations.OperationsComplete := by
  unfold Obligations.OperationsComplete
  refine ⟨?_, ⟨?_, ?_, ?_⟩, ?_⟩
  · intro s h o bad e hc hk hd hf he hb hi
    have hfit : up4 (leBytes e.ty.size (s.readNum h o.idx o.inst o.sub)).length ≤ s.aloneRoom h := by
      have h1 := s.aloneRoom_ge h
      have h2 := up4_le (n := e.ty.size) (m := 4) e.ty.size_le
      rw [leBytes_length]
      omega
    refine run_to (f := fun t => t.readOp h o bad (s.aloneRoom h)) hc _
      (((Tx.start s).readOp_num hk hd hf he hb hi (s.begun_readNum ..)).trans (Tx.replyIn_fits _ hfit)) fun t ht => ⟨ht.result (by simp), ?_⟩
    exact .of_run (by simp) (by simp) (.reply (.refl ..)) ht
  · intro s h o d hc hk hf hd hs hfit
    have hflags : { o with flags := if o.flags == 0 then 1 else o.flags } = { o with flags := 1 } := by rw [hf]; rfl
    refine run_to (f := fun t => t.readOp h { o with flags := if o.flags == 0 then 1 else o.flags } [] (s.aloneRoom h)) hc
      ((Tx.start s).reply d) ?_ fun t ht => ⟨ht.result (by simp), .of_run (by simp) (by simp) (.reply (.refl ..)) ht⟩
    rw [hflags]
    exact ((Tx.start s).readOp_staged (o := { o with flags := 1 }) hk hd rfl hs).trans (Tx.replyIn_fits _ hfit)
  · intro s h o bad e hc hk hf hl ho he hty hr hfit
    refine run_to (f := fun t => t.segmentOp h o bad (s.aloneRoom h)) hc _
      (?_ : _ = ((((Tx.start s).snapOff h).status stOK).setHost h { s.host h with
        snap := some ⟨K o.idx o.inst o.sub, s.readBytes h o.idx o.inst o.sub, s.clock⟩ }).reply
          (segmentBytes (s.readBytes h o.idx o.inst o.sub) 0 (fieldLE o.data 4 4))) fun t ht =>
      ⟨(ht.result (by simp)).trans (Tx.reply_result ..), ?_, ?_⟩
    · unfold Tx.segmentOp
      have hk' : (Tx.start s).cur.readCheck h o = stOK := hk
      simp only [hk', hf, he, hty, hl, ho, bne_self_eq_false, Bool.or_self, Bool.false_eq_true, if_false]
      exact (Tx.start s).readBlob_first hr (s.begun_readBytes ..) hfit
    · rw [ht.host_snap (by simp)]
      exact congrArg HostSt.snap ((Tx.setHost_host _ h _ h).trans (if_pos rfl))
    · exact .of_run (by simp) (by simp) (.reply (.setHost (.status ((Tx.snapOff_kept _ h).mono (fun _ h => h) (by simp))))) ht
  · intro s h o y hc hf hr hd hs hrom
    have hstatus : ∀ t : Tx s, t.cur.romOnly = s.romOnly →
        t.nopOp h o = t.status (if (entryOf o.idx o.inst o.sub).isSome then stOK else stNoEntry) := fun t ht => by
      unfold Tx.nopOp
      cases he : entryOf o.idx o.inst o.sub with
      | none => simp [hf, hr]
      | some e =>
        have hno : (t.cur.romOnly && !(h == 0 && recoveryIndex o.idx)) = false := by
          rw [ht]
          cases hro : s.romOnly with
          | false => rfl
          | true => simp [hrom hro]
        simp only [hf, hr, hd, hno, bne_self_eq_false, Bool.or_self, Bool.false_eq_true, if_false, Option.isNone_some,
          Option.isSome_some, List.isEmpty_nil, if_true]
    change ∃ t, execNop h o s = .next t ∧ _
    unfold execNop
    refine run_to (u := ((Tx.start s).setHost h { s.host h with sess := some { y with last := s.clock } }).status _) hc
      ?_ fun t ht => ⟨(ht.result (by simp)).trans (Tx.status_result ..), ?_, ?_⟩
    · dsimp only
      rw [hs]
      exact hstatus _ rfl
    · rw [ht.host_sess (by simp)]
      exact congrArg HostSt.sess ((Tx.setHost_host _ h _ h).trans (if_pos rfl))
    · exact .of_run (by simp) (by simp) (.status (.setHost (.refl ..))) ht
  · intro s h o hc hk hn hl ho htot hd hu
    obtain ⟨u, hu, hres⟩ := (Tx.start s).writeSegmentOp_first hk hn hl ho htot hd hu
    refine run_to (f := fun t => t.writeSegmentOp h o) hc _ hu fun t ht => ⟨(ht.result (by simp)).trans hres, ?_⟩
    rw [ht.host_xfer (by simp)]
    exact congrArg HostSt.xfer ((Tx.setHost_host _ h _ h).trans (if_pos rfl))

end Sys2Proof.Machine
end

section
/-! PROOFS. Messages: how one that arrives is processed, and what OPEN, REQUEST and CLOSE leave (R409 to R419). -/

namespace Sys2Proof.Machine
open Sys2Proof

set_option Elab.async false

variable {s0 s : State} {src : Source} {m0 m : Bytes}

/-- The message is taken: the oldest of the host SPI buffer, or one through ring 1. -/
def arrival (s : State) (src : Source) : Tx s :=
  if src.transport = 6 then (Tx.start s).setCtl { s.ctl with spiIn := s.ctl.spiIn.tail } else (Tx.start s).ringPop 1

theorem Tx.mramDone_idle (t : Tx s0) (h : t.cur.power.mram = none) : t.mramDone = t := by
  unfold Tx.mramDone
  rw [h]

theorem arrival_kept (s : State) (src : Source) : Keeps [.all 0x4E00 [0x03]] [.ctl, .net] (Tx.start s).cur (arrival s src).cur :=
  .ite (.setCtl (.refl ..)) (.step (Tx.ringPop_keeps ..) (.refl ..))

@[simp] theorem Tx.ringPop_ctl (t : Tx s0) (r : ℕ) : (t.ringPop r).cur.ctl = t.cur.ctl := by
  unfold Tx.ringPop
  split <;> rfl

theorem State.yexelUp_congr {a b : State} (hg : b.g 0x6500 0 0x01 = a.g 0x6500 0 0x01) (hd : b.ctl.down = a.ctl.down)
    (hp : b.power.stage = a.power.stage) (tr : ℕ) : b.yexelUp tr = a.yexelUp tr := by
  unfold State.yexelUp State.romOnly State.failedEarly
  rw [hg, hd, hp]

/-- A message that arrives with nothing before it is processed. -/
theorem Arrives.message (h : Arrives s src m0 m) : (Tx.start s).message src m0 = (arrival s src).process src m := by
  obtain ⟨hup, hheld, hin, hmram, hmal, hway⟩ := h
  have hdown : s.ctl.down = false := by
    unfold State.yexelUp at hup
    cases hd : s.ctl.down <;> simp_all
  have hm : (Tx.start s).when (!(Tx.start s).cur.ctl.down) Tx.mramDone = Tx.start s := by
    unfold Tx.when
    rw [Tx.mramDone_idle _ hmram, ite_self]
  unfold Tx.message
  dsimp only
  rw [hm]
  rcases hway with ⟨htr, rfl, hon, hport, hring, hbad, hrom⟩ | ⟨htr, ⟨r, hq⟩, hout, hrom⟩
  · have hudp : (decide (src.transport < 6) && (Tx.start s).on 0x4F00 src.transport 0x05 &&
        src.dport == (Tx.start s).g 0x4F00 src.transport 0x06) = true := by
      simp only [htr, decide_true, Bool.true_and, Bool.and_eq_true, beq_iff_eq]
      exact ⟨hon, hport⟩
    have hshut : (!(Tx.start s).on 0x4E00 1 0x01 && (mget [] (Tx.start s).cur.net.rings 1).isEmpty) = false := by
      rcases hring with hr | hr
      · have : (Tx.start s).on 0x4E00 1 0x01 = true := hr
        simp [this]
      · simp [show mget [] (Tx.start s).cur.net.rings 1 ≠ [] from hr]
    have hk := (Tx.start s).ringPop_keeps 1
    have hup' : ((Tx.start s).ringPop 1).cur.yexelUp src.transport = true :=
      (State.yexelUp_congr hk.gOf (by rw [Tx.ringPop_ctl]) (congrArg Power.stage (hk.power (by decide))) _).trans hup
    have hbad' : ((Tx.start s).ringPop 1).cur.datagramBad src m = false := by
      unfold State.datagramBad at hbad ⊢
      rw [hk.gOf]
      exact hbad
    have hwait : ((Tx.start s).ringPop 1).cur.turnWaits src = false := by
      unfold State.turnWaits
      rw [Tx.ringPop_ctl, show (Tx.start s).cur.ctl.held = none from hheld]
      simp
      omega
    have hempty : ((Tx.start s).ringPop 1).cur.ctl.inbox.isEmpty = true := by
      rw [Tx.ringPop_ctl, show (Tx.start s).cur.ctl.inbox = [] from hin]
      rfl
    have hne : (src.transport != 6) = true := by simp; omega
    have hfar : decide (6 < src.transport) = false := by simp; omega
    have hn6 : src.transport ≠ 6 := by omega
    simp only [hudp, hshut, show (Tx.start s).cur.yexelUp src.transport = true from hup, Tx.when, Bool.and_true, if_true, hup', hbad',
      hwait, hempty, hfar, Bool.not_true, Bool.or_self, Bool.and_false, Bool.false_eq_true, if_false, Tx.turn, hne, Bool.true_and,
      arrival, hn6]
  · have hnear : decide (src.transport < 6) = false := by simp; omega
    have hfar : decide (6 < src.transport) = false := by simp; omega
    have hwait : (Tx.start s).cur.turnWaits src = false := by
      unfold State.turnWaits
      rw [show (Tx.start s).cur.ctl.held = none from hheld]
      simp only [Option.isSome_none, Bool.false_or, Bool.and_eq_false_iff, decide_eq_false_iff_not, Nat.not_le]
      exact .inr hout
    have hempty : (Tx.start s).cur.ctl.inbox.isEmpty = true := by
      rw [show (Tx.start s).cur.ctl.inbox = [] from hin]
      rfl
    have hne : (src.transport != 6) = false := by simp [htr]
    have hq' : (Tx.start s).cur.ctl.spiIn = m :: r := hq
    simp only [hnear, show (Tx.start s).cur.yexelUp src.transport = true from hup, Tx.when, Bool.false_and,
      hwait, hempty, hfar, Bool.not_true, Bool.or_self, Bool.false_eq_true, if_false, Tx.turn, hne, hq',
      arrival, if_pos htr, hq, List.tail_cons]
    rfl

end Sys2Proof.Machine
end

section
/-! PROOFS. What OPEN, REQUEST and CLOSE leave (R409 to R419). -/

namespace Sys2Proof.Machine
open Sys2Proof

set_option Elab.async false

variable {s0 s : State} {src : Source} {m0 m : Bytes}

theorem Tx.sendTo_sess (t : Tx s0) (src : Source) (m : Bytes) (h : ℕ) :
    ((t.sendTo src m).cur.host h).sess = (t.cur.host h).sess ∧ ((t.sendTo src m).cur.host h).opens = (t.cur.host h).opens ∧
      ((t.sendTo src m).cur.host h).stage = (t.cur.host h).stage := by
  unfold Tx.sendTo
  split
  · split
    · exact ⟨rfl, rfl, rfl⟩
    · unfold Tx.spiQueue
      dsimp only
      split <;> exact ⟨rfl, rfl, rfl⟩
  · have hk := t.egress_keeps src.transport
      ⟨.yexel src.dport src.addr src.port m, t.cur.udpFrame src.transport m.length, t.cur.clock, none, none⟩
    exact ⟨hk.host_sess (by decide) h, hk.host_opens (by decide) h, hk.host_stage (by decide) h⟩

theorem msg_host_lt (h : malformed m = false) : (msgOf m).host < 8 := by
  simp only [malformed, Bool.or_eq_false_iff, decide_eq_false_iff_not] at h
  omega

/-- A message that arrives is processed by its kind. -/
theorem Arrives.process (h : Arrives s src m0 m) : (arrival s src).process src m =
    if (msgOf m).kind == 0 then (arrival s src).openMsg src (msgOf m)
    else if (msgOf m).kind == 2 then (arrival s src).requestMsg src (msgOf m)
    else (arrival s src).closeMsg src (msgOf m) := by
  obtain ⟨-, -, -, -, hmal, hway⟩ := h
  have hrom : (arrival s src).cur.romOnly = s.romOnly := by
    unfold State.romOnly
    rw [(arrival_kept s src).gOf]
    rfl
  have hcond : ((arrival s src).cur.romOnly && !(src.transport == 6 && (msgOf m).host == 0)) = false := by
    rw [hrom]
    rcases hway with ⟨-, -, -, -, -, -, hr⟩ | ⟨htr, -, -, hr⟩
    · simp [hr]
    · cases hs : s.romOnly
      · rfl
      · simp [htr, hr hs]
  unfold Tx.process
  simp only [hmal, hcond, Bool.false_eq_true, if_false]

theorem arrival_host (s : State) (src : Source) (h : ℕ) : (arrival s src).cur.host h = s.host h := by
  unfold arrival
  split
  · rfl
  · unfold State.host
    rw [Tx.ringPop_ctl]
    rfl

theorem Arrives.run (h : Arrives s src m0 m) (hc : s.clocked = true) {u : Tx s} {P : State → Prop}
    (hu : (arrival s src).process src m = u) (hP : ∀ t, Kept (fun _ => False) [] u.cur t → P t) :
    ∃ t, Machine.run s (fun t => t.message src m0) = .next t ∧ P t :=
  run_to hc u (h.message.trans hu) hP

/-- The entry that shows whether a host's session is open. -/
theorem entryAt_open {h : ℕ} (hh : h < 8) : ∃ e, entryAt (K 0x1000 h 0x08) = some e ∧ fit e 0 = 0 ∧ fit e 1 = 1 :=
  ⟨_, entryAt_of rfl (by simpa using hh) (by omega) (by decide) rfl, rfl, rfl⟩

/-- A new session shows in the dictionary. -/
def Tx.sessionShown (t : Tx s0) (h id tr : ℕ) : Tx s0 :=
  let t := (((t.w 0x1000 h 0x08 1).w 0x1000 h 0x09 id).w 0x1000 h 0x0A tr).w 0x1000 h 0x0B t.cur.now
  ((t.w 0x1000 h 0x10 0).w 0x1001 0 0x01 t.cur.sessions).sessionMsg h 0

theorem Tx.sessionShown_keeps (t : Tx s0) (h id tr : ℕ) :
    Keeps [.all 0x1000 [0x08, 0x09, 0x0A, 0x0B, 0x10], .all 0x1001 [0x01]] [] t.cur (t.sessionShown h id tr).cur := by
  dsimp only [Tx.sessionShown]
  exact .step (Tx.sessionMsg_keeps ..) (.w (.w (.w (.w (.w (.w (.refl ..)))))))

theorem Tx.sessionShown_open (t : Tx s0) {h id tr : ℕ} (hh : h < 8) : (t.sessionShown h id tr).cur.g 0x1000 h 0x08 = 1 := by
  obtain ⟨e, he, -, h1⟩ := entryAt_open hh
  have hrest : Keeps [.all 0x1000 [0x09, 0x0A, 0x0B, 0x10], .all 0x1001 [0x01]] [] (t.w 0x1000 h 0x08 1).cur
      (t.sessionShown h id tr).cur := by
    dsimp only [Tx.sessionShown]
    exact .step (Tx.sessionMsg_keeps ..) (.w (.w (.w (.w (.w (.refl ..))))))
  rw [hrest.gOf, State.g_eq, t.w_get_same 1 he, h1]

theorem Tx.openMsg_opens (t : Tx s0) {src : Source} {x : Msg} {kh : Bytes} (hk : t.cur.openKey x.host src = some kh)
    (htag : (hmacSha256 kh x.covered).take 16 = x.tag) (hon : t.cur.on 0x1000 x.host 0x01 = true)
    (htr : t.cur.transportOk x.host src = true) (hseq : (t.cur.host x.host).opens ≤ x.seq) :
    ∃ (u v : Tx s0) (y : Session) (r : Bytes), t.openMsg src x = v.sendTo src r ∧
      v = (u.setHost x.host { u.cur.host x.host with sess := some y, opens := x.seq + 1 }).sessionShown x.host y.id
        src.transport ∧
      y.id = 1 + Config.free t.cur.free % (2 ^ 32 - 1) ∧
      y.ks = hmacSha256 kh ([0x59, 0x58, 0x53, 0x4B] ++ x.body ++ leBytes 16 (Config.free (t.cur.free + 1)) ++
        leBytes 4 y.id ++ leBytes 1 x.host) ∧ y.src = src ∧ y.high = 0 := by
  have hfree : (t.closeSession x.host).cur.free = t.cur.free := (t.closeSession_keeps x.host).free (by decide)
  have hcond : (!t.cur.on 0x1000 x.host 0x01 || !t.cur.transportOk x.host src || decide (x.seq < (t.cur.host x.host).opens)) =
      false := by
    simp [hon, htr, hseq]
  unfold Tx.openMsg
  simp only [hk, htag, hcond, bne_self_eq_false, Bool.false_eq_true, if_false]
  generalize t.closeSession x.host = c at hfree
  rw [← hfree]
  exact ⟨c.draw.draw, _, _, _, rfl, rfl, rfl, rfl, rfl, rfl⟩

theorem arrival_openKey (s : State) (src : Source) (h : ℕ) : (arrival s src).cur.openKey h src = s.openKey h src := by
  have hk := arrival_kept s src
  unfold State.openKey
  rw [hk.gbOf, hk.onOf]
  rfl

theorem arrival_transportOk (s : State) (src : Source) (h : ℕ) : (arrival s src).cur.transportOk h src = s.transportOk h src := by
  unfold State.transportOk
  rw [(arrival_kept s src).gOf]
  rfl

/-- A request whose session, tag and sequence are in order is accepted. -/
theorem Tx.sessionCheck_accepted (t : Tx s0) {m : Bytes} {y : Session} (h : Accepted t.cur m y) (src : Source)
    (f : Tx s0 → Tx s0) : t.sessionCheck src (msgOf m) f = f (t.acceptSeq (msgOf m).host y src (msgOf m).seq) := by
  obtain ⟨hy, hid, htag, hj⟩ := h
  unfold Tx.sessionCheck
  simp only [hy, hid, htag, hj, bne_self_eq_false, Bool.false_eq_true, if_false]

theorem Accepted.arrival {y : Session} (h : Accepted s m y) (src : Source) : Accepted (arrival s src).cur m y := by
  unfold Accepted
  rw [arrival_host]
  exact h

theorem Tx.respondTo_sess (t : Tx s0) {h : ℕ} {y : Session} (hy : (t.cur.host h).sess = some y) (seq : ℕ) (tag : Bytes)
    (rs : List (Bytes × ℕ × Bytes)) : ((t.respondTo h y seq tag rs).cur.host h).sess = some { y with
      cache := ((seq, tag, yexelMsg y.ks 3 h stOK y.id seq rs.length (rs.flatMap resultBytes)) :: y.cache).take 8 } ∧
    ((t.respondTo h y seq tag rs).cur.host h).stage = (t.cur.host h).stage := by
  unfold Tx.respondTo
  simp only [hy, beq_self_eq_true, if_true]
  obtain ⟨hs, -, hst⟩ := Tx.sendTo_sess (t.setHost h { t.cur.host h with sess := some { y with
    cache := ((seq, tag, yexelMsg y.ks 3 h stOK y.id seq rs.length (rs.flatMap resultBytes)) :: y.cache).take 8 } }) y.src
    (yexelMsg y.ks 3 h stOK y.id seq rs.length (rs.flatMap resultBytes)) h
  rw [Tx.setHost_host, if_pos rfl] at hs hst
  exact ⟨hs, hst⟩

/-- The end of a session shows in the dictionary. -/
def Tx.sessionHidden (t : Tx s0) (h : ℕ) : Tx s0 :=
  let t := ((t.w 0x1000 h 0x08 0).w 0x1000 h 0x09 0).w 0x1000 h 0x0A 0xFF
  (t.w 0x1001 0 0x01 t.cur.sessions).sessionMsg h 1

theorem Tx.sessionHidden_keeps (t : Tx s0) (h : ℕ) :
    Keeps [.all 0x1000 [0x08, 0x09, 0x0A], .all 0x1001 [0x01]] [] t.cur (t.sessionHidden h).cur := by
  dsimp only [Tx.sessionHidden]
  exact .step (Tx.sessionMsg_keeps ..) (.w (.w (.w (.w (.refl ..)))))

theorem Tx.sessionHidden_closed (t : Tx s0) {h : ℕ} (hh : h < 8) : (t.sessionHidden h).cur.g 0x1000 h 0x08 = 0 := by
  obtain ⟨e, he, h0, -⟩ := entryAt_open hh
  have hrest : Keeps [.all 0x1000 [0x09, 0x0A], .all 0x1001 [0x01]] [] (t.w 0x1000 h 0x08 0).cur (t.sessionHidden h).cur := by
    dsimp only [Tx.sessionHidden]
    exact .step (Tx.sessionMsg_keeps ..) (.w (.w (.w (.refl ..))))
  rw [hrest.gOf, State.g_eq, t.w_get_same 0 he, h0]

/-- A host without its session. -/
def Tx.sessionOff (t : Tx s0) (h : ℕ) : Tx s0 :=
  let t := (t.dropXfer h).setHost h { (t.dropXfer h).cur.host h with sess := none, snap := none }
  t.setMaps { t.cur.maps with rowSel := mdel h t.cur.maps.rowSel, rowOrg := mdel h t.cur.maps.rowOrg }

theorem Tx.closeSession_eq (t : Tx s0) {h : ℕ} {y : Session} (hy : (t.cur.host h).sess = some y) :
    t.closeSession h = (t.sessionOff h).sessionHidden h := by
  unfold Tx.closeSession
  simp only [hy, Option.isNone_some, Bool.false_eq_true, if_false]
  rfl

theorem Tx.sessionOff_host (t : Tx s0) (h g : ℕ) : (t.sessionOff h).cur.host g =
    if g = h then { t.cur.host h with sess := none, xfer := none, snap := none } else t.cur.host g := by
  have hx : ∀ g, (t.sessionOff h).cur.host g = _ :=
    fun g => (t.dropXfer h).setHost_host h { (t.dropXfer h).cur.host h with sess := none, snap := none } g
  rw [hx, t.dropXfer_host, t.dropXfer_host, if_pos rfl]
  split <;> rfl

/-- A session that is closed is gone and shows it; what the host has staged stays. -/
theorem Tx.closeSession_closes (t : Tx s0) {h : ℕ} {y : Session} (hy : (t.cur.host h).sess = some y) (hh : h < 8) :
    ((t.closeSession h).cur.host h).sess = none ∧ ((t.closeSession h).cur.host h).stage = (t.cur.host h).stage ∧
      (t.closeSession h).cur.g 0x1000 h 0x08 = 0 := by
  rw [t.closeSession_eq hy]
  have hk := (t.sessionOff h).sessionHidden_keeps h
  have hx := t.sessionOff_host h h
  rw [if_pos rfl] at hx
  exact ⟨(hk.host_sess (by decide) h).trans (by rw [hx]), (hk.host_stage (by decide) h).trans (by rw [hx]),
    (t.sessionOff h).sessionHidden_closed hh⟩

/-- A message of an arriving request is answered, and the answer is kept. -/
theorem requestMsg_cached (t : Tx s0) {y z : Session} {ops : List (Bytes × OpFields)} (ha : Accepted t.cur m y)
    (hops : opsOf (msgOf m).count (msgOf m).body = some ops)
    (r : List (Bytes × ℕ × Bytes) × List (ℕ × ℕ) × Option (List (Bytes × OpFields)) × Tx s0)
    (hr : Tx.operations (msgOf m).host (largest src.transport) ops [] []
      ((t.acceptSeq (msgOf m).host y src (msgOf m).seq).tally 0x1000 (msgOf m).host 0x0C) = r)
    (hw : r.2.1 = []) (hn : r.2.2.1 = none) (hz : (r.2.2.2.cur.host (msgOf m).host).sess = some z) :
    t.requestMsg src (msgOf m) = r.2.2.2.respondTo (msgOf m).host z (msgOf m).seq (msgOf m).tag r.1 := by
  unfold Tx.requestMsg
  rw [Tx.sessionCheck_accepted t ha]
  simp only [hops, Option.getD_some, hr, hz, Tx.requestEnd, hw, hn, List.isEmpty_nil, Option.isNone_none, Bool.and_self, if_true]

/-- A session that takes a message stays, and what the host has staged stays. -/
theorem Tx.acceptSeq_host (t : Tx s0) (h : ℕ) (y : Session) (src : Source) (seq : ℕ) :
    ∃ z, ((t.acceptSeq h y src seq).cur.host h).sess = some z ∧
      ((t.acceptSeq h y src seq).cur.host h).stage = (t.cur.host h).stage := by
  have hx := fun z => t.setHost_host h { t.cur.host h with sess := some z } h
  simp only [if_pos] at hx
  exact ⟨_, (congrArg HostSt.sess (hx _) :), (congrArg HostSt.stage (hx _) :)⟩

/-- Settles O10: each message goes through its kind, and nothing after its session's change touches the session. -/
theorem messagesComplete : Obligations.MessagesComplete := by
  unfold Obligations.MessagesComplete
  refine ⟨?_, ?_, ?_⟩
  · intro s src m0 m kh hc ha hkind hkey htag hon htr hseq
    have hh := msg_host_lt ha.2.2.2.2.1
    have hp := ha.process
    simp only [hkind, beq_self_eq_true, if_true] at hp
    obtain ⟨u, v, y, r, hopen, hv, hid, hks, hsrc, hhigh⟩ := (arrival s src).openMsg_opens
      ((arrival_openKey ..).trans hkey) htag (by rwa [(arrival_kept s src).onOf]) ((arrival_transportOk ..).trans htr)
      (by rwa [arrival_host])
    have hfree : (arrival s src).cur.free = s.free := (arrival_kept s src).free (by decide)
    rw [hfree] at hid hks
    have hsend := v.sendTo_sess src r (msgOf m).host
    have hshow := (u.setHost (msgOf m).host { u.cur.host (msgOf m).host with
      sess := some y, opens := (msgOf m).seq + 1 }).sessionShown_keeps (msgOf m).host y.id src.transport
    have hset := u.setHost_host (msgOf m).host { u.cur.host (msgOf m).host with
      sess := some y, opens := (msgOf m).seq + 1 } (msgOf m).host
    rw [if_pos rfl] at hset
    refine Exists.imp (fun t ht => ?_) (ha.run hc (P := fun t => Kept (fun _ => False) [] (v.sendTo src r).cur t)
      (hp.trans hopen) fun t ht => ht)
    obtain ⟨hrun, hk⟩ := ht
    rw [← hv] at hshow
    refine ⟨y, hrun, ?_, hid, hks, hsrc, hhigh, ?_, ?_⟩
    · rw [hk.host_sess (by simp), hsend.1, hshow.host_sess (by decide), hset]
    · rw [hk.host_opens (by simp), hsend.2.1, hshow.host_opens (by decide), hset]
    · rw [hk.g (by simp) (by rw [noted_of_apart (l := []) (by decide)]), (v.sendTo_keeps src r).gOf, hv, Tx.sessionShown_open _ hh]
  · intro s src m0 m y ops hc ha hkind hacc hops h u0 r z hw hn hz
    have hp := ha.process
    simp only [hkind, beq_self_eq_true, if_true, show ((2 : ℕ) == 0) = false from rfl, Bool.false_eq_true, if_false] at hp
    exact ha.run hc (hp.trans (requestMsg_cached (arrival s src) (hacc.arrival src) hops r rfl hw hn hz)) fun t ht =>
      (ht.host_sess (by simp) _).trans (Tx.respondTo_sess r.2.2.2 hz ..).1
  · intro s src m0 m y hc ha hkind hacc
    have hh := msg_host_lt ha.2.2.2.2.1
    have hp := ha.process
    simp only [hkind, show ((5 : ℕ) == 0) = false from rfl, show ((5 : ℕ) == 2) = false from rfl, Bool.false_eq_true,
      if_false] at hp
    rw [show (arrival s src).closeMsg src (msgOf m) = _ from Tx.sessionCheck_accepted _ (hacc.arrival src) ..] at hp
    obtain ⟨z, hz, hstage⟩ := (arrival s src).acceptSeq_host (msgOf m).host y src (msgOf m).seq
    generalize (arrival s src).acceptSeq (msgOf m).host y src (msgOf m).seq = a at hp hz hstage
    obtain ⟨hz', hstage'⟩ := a.respondTo_sess hz (msgOf m).seq (msgOf m).tag []
    have hresp : a.respond (msgOf m).host (msgOf m).seq (msgOf m).tag [] =
        a.respondTo (msgOf m).host z (msgOf m).seq (msgOf m).tag [] := by
      unfold Tx.respond
      rw [hz]
    rw [hresp] at hp
    obtain ⟨hsess, hst, hg⟩ := Tx.closeSession_closes _ hz' hh
    refine ha.run hc hp fun t ht => ⟨(ht.host_sess (by simp) _).trans hsess, ?_, ?_⟩
    · rw [ht.host_stage (by simp), hst, hstage', hstage, arrival_host]
    · rw [ht.g (by simp) (by rw [noted_of_apart (l := []) (by decide)]), hg]

end Sys2Proof.Machine
end

section
/-! PROOFS. What a host without watches keeps at the end of a command, and what a MAC that stands idle sends. -/

namespace Sys2Proof.Machine
open Sys2Proof

set_option Elab.async false

variable {s0 s : State}

/-! ## The end of a command -/

/-- Host h has no watches and stands as x. -/
def Unwatched (h : ℕ) (x : HostSt) (a : State) : Prop := a.watches h = [] ∧ a.host h = x

theorem State.watches_congr {a b : State} (hb : b.blobs = a.blobs) (h : ℕ) : b.watches h = a.watches h := by
  have hg : b.gb 0x1200 h 0x01 = a.gb 0x1200 h 0x01 := by
    rw [State.gb_eq, State.gb_eq]
    unfold State.blob
    rw [hb]
  unfold State.watches
  rw [hg]

theorem Unwatched.of_eq {h : ℕ} {x : HostSt} {a b : State} (ha : Unwatched h x a) (hb : b.blobs = a.blobs)
    (hc : b.ctl.hosts = a.ctl.hosts) : Unwatched h x b := by
  unfold Unwatched State.host at *
  rwa [State.watches_congr hb, hc]

theorem Tx.each_inv {α : Type} {P : State → Prop} {t : Tx s0} (l : List α) {f : Tx s0 → α → Tx s0} (h0 : P t.cur)
    (hf : ∀ t x, P t.cur → P (f t x).cur) : P (t.each l f).cur := by
  unfold Tx.each
  induction l generalizing t with
  | nil => exact h0
  | cons x l ih => exact ih (hf t x h0)

/-! Reports leave the control fields and the byte strings. -/

theorem Tx.inc_ctl (t : Tx s0) (i n b k : ℕ) : (t.inc i n b k).cur.ctl = t.cur.ctl := t.put_ctl _ _

theorem Tx.counter_ctl (t : Tx s0) (i n : ℕ) : (t.counter i n).cur.ctl = t.cur.ctl :=
  (Tx.inc_ctl _ _ _ _ _).trans (t.setSets_ctl _)

theorem Tx.count_ctl (t : Tx s0) (i n b k : ℕ) : (t.count i n b k).cur.ctl = t.cur.ctl := by
  unfold Tx.count
  cases counterOf i n b with
  | none => exact t.inc_ctl _ _ _ _
  | some c => exact (Tx.counter_ctl _ _ _).trans (t.inc_ctl _ _ _ _)

theorem Tx.tally_ctl (t : Tx s0) (i n b : ℕ) : (t.tally i n b).cur.ctl = t.cur.ctl := t.count_ctl i n b 1

theorem Tx.flagBit_ctl (t : Tx s0) (i n c b : ℕ) : (t.flagBit i n c b).cur.ctl = t.cur.ctl :=
  (Tx.put_ctl ..).trans (t.setSets_ctl _)

theorem Tx.inc_blobs (t : Tx s0) (i n b k : ℕ) : (t.inc i n b k).cur.blobs = t.cur.blobs := t.put_blobs _ _

theorem Tx.counter_blobs (t : Tx s0) (i n : ℕ) : (t.counter i n).cur.blobs = t.cur.blobs :=
  (Tx.inc_blobs _ _ _ _ _).trans (t.setSets_blobs _)

theorem Tx.count_blobs (t : Tx s0) (i n b k : ℕ) : (t.count i n b k).cur.blobs = t.cur.blobs := by
  unfold Tx.count
  cases counterOf i n b with
  | none => exact t.inc_blobs _ _ _ _
  | some c => exact (Tx.counter_blobs _ _ _).trans (t.inc_blobs _ _ _ _)

theorem Tx.tally_blobs (t : Tx s0) (i n b : ℕ) : (t.tally i n b).cur.blobs = t.cur.blobs := t.count_blobs i n b 1

theorem Tx.flagBit_blobs (t : Tx s0) (i n c b : ℕ) : (t.flagBit i n c b).cur.blobs = t.cur.blobs :=
  (Tx.put_blobs ..).trans (t.setSets_blobs _)

theorem Tx.setHost_blobs (t : Tx s0) (h : ℕ) (x : HostSt) : (t.setHost h x).cur.blobs = t.cur.blobs := rfl

theorem Unwatched.record {h g : ℕ} {x : HostSt} {t : Tx s0} (ht : Unwatched h x t.cur) (hg : g ≠ h) (w : Bool) (r : Rec) :
    Unwatched h x (t.record g w r).cur := by
  have hset : ∀ (u : Tx s0) y, Unwatched h x u.cur → Unwatched h x (u.setHost g y).cur := fun u y hu => by
    refine ⟨(State.watches_congr (u.setHost_blobs g y) h).trans hu.1, ?_⟩
    rw [Tx.setHost_host, if_neg (Ne.symm hg)]
    exact hu.2
  have hcount : ∀ (u : Tx s0) b, Unwatched h x u.cur → Unwatched h x ((u.tally 0x1200 g 0x06).flagBit 0x1200 g 0x07 b).cur :=
    fun u b hu => hu.of_eq ((Tx.flagBit_blobs ..).trans (Tx.tally_blobs ..)) (congrArg Control.hosts
      ((Tx.flagBit_ctl ..).trans (Tx.tally_ctl ..)))
  unfold Tx.record
  dsimp only
  split
  · exact ht
  · split
    · exact hcount _ _ ht
    · split
      · exact hset _ _ ht
      · exact hcount _ _ (hset _ _ ht)

theorem Unwatched.fireWatches {h : ℕ} {x : HostSt} {t : Tx s0} (a : State) (ht : Unwatched h x t.cur) :
    Unwatched h x (fireWatches a t).cur := by
  unfold Machine.fireWatches
  split
  · exact ht
  · refine Tx.each_inv _ ht fun t g ht => ?_
    by_cases hg : g = h
    · subst g
      dsimp only
      rw [ht.1]
      exact ht
    · refine Tx.each_inv _ ht fun t w ht => ?_
      unfold fireWatch
      dsimp only
      split
      · exact ht
      · split
        · exact ht
        · split
          · split
            · exact ht
            · exact ht.record hg ..
          · exact ht.record hg ..

/-- What a host without watches has waiting is as it was at the end of a command. -/
theorem Unwatched.finish {h : ℕ} {x : HostSt} {t : Tx s0} (ht : Unwatched h x t.cur) : Unwatched h x t.finish.cur := by
  have hmet : ∀ t : Tx s0, Unwatched h x t.cur → Unwatched h x t.metDone.cur := fun t ht => by
    unfold Tx.metDone
    split <;> exact ht
  have hflush : ∀ t : Tx s0, Unwatched h x t.cur → Unwatched h x t.traceFlush.cur := fun t ht => by
    unfold Tx.traceFlush
    dsimp only
    split <;> exact ht
  have hnote : Unwatched h x t.noteChange.cur := by
    unfold Tx.noteChange
    split
    · exact ht
    · split <;> exact ht
  unfold Tx.finish
  dsimp only
  split
  · exact hflush _ (hmet _ ht)
  · refine hflush _ ?_
    have hw := Unwatched.fireWatches t.noteChange.cur (hmet _ (hnote.fireWatches (t.noteChange.cur.sinceFired s0)))
    split
    · exact hw
    · exact hw

end Sys2Proof.Machine
end

section
/-! PROOFS. What a MAC that stands idle sends at once (R202, R219). -/

namespace Sys2Proof.Machine
open Sys2Proof

set_option Elab.async false

variable {s0 s : State}

theorem Tx.setMac_macSt (t : Tx s0) (m : ℕ) (x : MacSt) (j : ℕ) :
    (t.setMac m x).cur.macSt j = if j = m then x else t.cur.macSt j := mget_mputD ..

theorem State.macSt_congr {a b : State} (h : b.net = a.net) (m : ℕ) : b.macSt m = a.macSt m := by
  unfold State.macSt
  rw [h]

theorem Tx.tally_net (t : Tx s0) (i n c : ℕ) : (t.tally i n c).cur.net = t.cur.net :=
  (t.tally_kept (E := fun _ => True) (M := []) i n c (.inl trivial) (fun _ _ => .inl trivial)).net (by simp)

theorem Tx.tally_outs (t : Tx s0) (i n c : ℕ) : (t.tally i n c).cur.outs = t.cur.outs :=
  (t.tally_kept (E := fun _ => True) (M := []) i n c (.inl trivial) (fun _ _ => .inl trivial)).outs (by simp)

/-- The sign of a frame on the wire. -/
def Egress.sent (m : ℕ) (e : Egress) : Out :=
  match e.what with
  | .frame f => .frame m f
  | .yexel f a p b => .yexel m f a p b

/-- A frame that an idle MAC m takes: it alone waits, and starts now. -/
def Tx.taken (t : Tx s0) (m : ℕ) (e : Egress) : Tx s0 :=
  (t.enqueue m e).setMac m { t.cur.macSt m with out := [] }

theorem Tx.taken_macSt (t : Tx s0) (m : ℕ) (e : Egress) :
    (t.taken m e).cur.macSt m = { t.cur.macSt m with out := [] } := (Tx.setMac_macSt ..).trans (if_pos rfl)

theorem Tx.macDone_idle (t : Tx s0) {m : ℕ} (h : (t.cur.macSt m).busy = none) : t.macDone m = t := by
  unfold Tx.macDone
  dsimp only
  rw [h]

theorem Tx.macExpire_none (t : Tx s0) {m : ℕ} (h : ∀ e ∈ (t.cur.macSt m).out, e.copy = none) : t.macExpire m = t := by
  unfold Tx.macExpire
  exact if_pos (List.isEmpty_iff.mpr (List.filterMap_eq_nil_iff.mpr fun e he => by rw [h e he]))

/-- A MAC whose waiting frames cannot start yet sends nothing. -/
theorem Tx.macLoop_waits (t : Tx s0) {m n : ℕ} (hb : (t.cur.macSt m).busy = none)
    (h : ∀ e ∈ (t.cur.macSt m).out, t.cur.clock < (t.cur.macSt m).startOf e) : t.macLoop m n = t := by
  cases n with
  | zero => rfl
  | succ n =>
    unfold Tx.macLoop
    dsimp only
    rw [t.macDone_idle hb]
    split
    · rfl
    · rename_i e r hr
      exact if_pos (h e (by rw [hr]; exact .head _))

/-- A frame that is no media copy starts at once on a MAC that stands idle, and nothing more starts if what then waits has to
wait for it. -/
theorem Tx.egress_idle (t : Tx s0) {m : ℕ} (h : t.cur.macIdle m = true) {e : Egress} (hc : e.copy = none)
    (hs : e.since = t.cur.clock) (hb : (((t.taken m e).frameStart m t.cur.clock e).cur.macSt m).busy = none)
    (hk : ∀ x ∈ (((t.taken m e).frameStart m t.cur.clock e).cur.macSt m).out, x.copy = none ∧
      ((t.taken m e).frameStart m t.cur.clock e).cur.clock <
        (((t.taken m e).frameStart m t.cur.clock e).cur.macSt m).startOf x) :
    t.egress m e = (t.taken m e).frameStart m t.cur.clock e := by
  simp only [State.macIdle, Bool.and_eq_true, decide_eq_true_eq, List.isEmpty_iff, Option.isNone_iff_eq_none] at h
  obtain ⟨⟨⟨⟨hup, hout⟩, hbusy⟩, hfree⟩, hpause⟩ := h
  have hmac : (t.enqueue m e).cur.macSt m = { t.cur.macSt m with out := [e] } := by
    unfold Tx.enqueue
    rw [Tx.setMac_macSt, if_pos rfl, hout]
    rfl
  have hstart : ({ t.cur.macSt m with out := [e] } : MacSt).startOf e = t.cur.clock := by
    unfold MacSt.startOf
    dsimp only
    omega
  have hup' : (t.enqueue m e).cur.macUp m = true := hup
  have hnot : ¬ (t.enqueue m e).cur.clock < t.cur.clock := Nat.lt_irrefl _
  have hloop : (t.enqueue m e).macLoop m 4 = (t.taken m e).frameStart m t.cur.clock e := by
    rw [Tx.macLoop]
    simp only [(t.enqueue m e).macDone_idle (show ((t.enqueue m e).cur.macSt m).busy = none by rw [hmac]; exact hbusy),
      hmac, hstart, if_neg hnot, hc]
    exact Tx.macLoop_waits _ hb fun x hx => (hk x hx).2
  unfold Tx.egress Tx.macRun
  dsimp only
  simp only [hup, hc, hmac, hup', Option.isNone_none, Bool.not_true, Bool.and_false, Bool.false_eq_true, if_false, List.isEmpty_cons,
    Bool.false_and, if_true, List.length_cons, List.length_nil]
  rw [hloop]
  exact Tx.macExpire_none _ fun x hx => (hk x hx).1

/-- What a frame without a stamp that starts leaves: the MAC is busy, and the frame is on the wire. -/
theorem Tx.frameStart_plain (t : Tx s0) (m c : ℕ) {e : Egress} (hc : e.copy = none) (hs : e.stamp = none) :
    (t.frameStart m c e).cur.macSt m = { t.cur.macSt m with busyUntil := c + t.cur.sendTime m e.len, busy := none } ∧
      (t.frameStart m c e).cur.outs = t.cur.outs ++ [e.sent m] := by
  unfold Tx.frameStart
  simp only [hc, hs]
  refine ⟨?_, (Tx.tally_outs ..).trans rfl⟩
  rw [State.macSt_congr (Tx.tally_net ..)]
  exact (Tx.setMac_macSt ..).trans (if_pos rfl)

/-- A frame without a stamp leaves an idle MAC at once. -/
theorem Tx.egress_outs (t : Tx s0) {m : ℕ} (h : t.cur.macIdle m = true) {e : Egress} (hc : e.copy = none)
    (hst : e.stamp = none) (hs : e.since = t.cur.clock) : (t.egress m e).cur.outs = t.cur.outs ++ [e.sent m] := by
  obtain ⟨hm, ho⟩ := (t.taken m e).frameStart_plain m t.cur.clock hc hst
  rw [t.taken_macSt] at hm
  rw [t.egress_idle h hc hs (by rw [hm]) (by rw [hm]; simp), ho]
  rfl

end Sys2Proof.Machine
end

section
/-! PROOFS. What a host's timers end (R413, R414, R418), and a NOTIFY (R429). -/

namespace Sys2Proof.Machine
open Sys2Proof

set_option Elab.async false

variable {s0 s : State}

theorem State.sessions_congr {a b : State} (h : ∀ n, (b.host n).sess = (a.host n).sess) : b.sessions = a.sessions := by
  unfold State.sessions
  simp only [h]

theorem State.sessions_le (s : State) : s.sessions ≤ 8 := (List.length_filter_le ..).trans (by simp)

/-- An entry that holds what is written to it, however it was. -/
theorem Tx.w_g_of (t : Tx s0) {i n c v : ℕ} {e : Entry} (he : entryAt (K i n c) = some e) (hv : fit e v = v) :
    (t.w i n c v).cur.g i n c = v := (t.w_get_same v he).trans hv

/-- How many instances a sub-index of an index has, and its entry. -/
def entOf (i c : ℕ) : Option (ℕ × Entry) :=
  (blockOf i).bind fun b => (b.ents.find? (fun e => e.sub == c)).map fun e => (max b.insts 1, e)

theorem entryAt_ent {i n c k : ℕ} {e : Entry} (hn : n < k) (h : entOf i c = some (k, e)) (hk : k ≤ 65536 := by decide)
    (hc : c < 256 := by decide) : entryAt (K i n c) = some e := by
  unfold entOf at h
  cases hb : blockOf i with
  | none => simp [hb] at h
  | some b =>
    cases he : b.ents.find? (fun e => e.sub == c) with
    | none => simp [hb, he] at h
    | some e' =>
      simp only [hb, he, Option.bind_some, Option.map_some, Option.some.injEq, Prod.mk.injEq] at h
      obtain ⟨rfl, rfl⟩ := h
      exact entryAt_of hb hn (by omega) hc he

theorem Tx.sessionHidden_shows (t : Tx s0) {h : ℕ} (hh : h < 8) :
    (t.sessionHidden h).cur.g 0x1000 h 0x08 = 0 ∧ (t.sessionHidden h).cur.g 0x1000 h 0x09 = 0 ∧
      (t.sessionHidden h).cur.g 0x1000 h 0x0A = 0xFF ∧
      (t.sessionHidden h).cur.g 0x1001 0 0x01 = (t.sessionHidden h).cur.sessions := by
  refine ⟨t.sessionHidden_closed hh, ?_, ?_, ?_⟩
  · have hrest : Keeps [.all 0x1000 [0x0A], .all 0x1001 [0x01]] [] ((t.w 0x1000 h 0x08 0).w 0x1000 h 0x09 0).cur
        (t.sessionHidden h).cur := by
      dsimp only [Tx.sessionHidden]
      exact .step (Tx.sessionMsg_keeps ..) (.w (.w (.refl ..)))
    rw [hrest.gOf, Tx.w_g_of _ (entryAt_ent hh rfl) rfl]
  · have hrest : Keeps [.all 0x1001 [0x01]] [] (((t.w 0x1000 h 0x08 0).w 0x1000 h 0x09 0).w 0x1000 h 0x0A 0xFF).cur
        (t.sessionHidden h).cur := by
      dsimp only [Tx.sessionHidden]
      exact .step (Tx.sessionMsg_keeps ..) (.w (.refl ..))
    rw [hrest.gOf, Tx.w_g_of _ (entryAt_ent hh rfl) rfl]
  · have hsess : (t.sessionHidden h).cur.sessions = (((t.w 0x1000 h 0x08 0).w 0x1000 h 0x09 0).w 0x1000 h 0x0A 0xFF).cur.sessions := by
      have hrest : Keeps [.all 0x1001 [0x01]] [] (((t.w 0x1000 h 0x08 0).w 0x1000 h 0x09 0).w 0x1000 h 0x0A 0xFF).cur
          (t.sessionHidden h).cur := by
        dsimp only [Tx.sessionHidden]
        exact .step (Tx.sessionMsg_keeps ..) (.w (.refl ..))
      exact State.sessions_congr fun n => hrest.host_sess (by decide) n
    rw [hsess]
    have he : entryAt (K 0x1001 0 0x01) = some (ev 0x01 .u8 .ro 0 .any) := entryAt_of rfl (by decide) (by decide) (by decide) rfl
    refine Tx.w_g_of (((t.w 0x1000 h 0x08 0).w 0x1000 h 0x09 0).w 0x1000 h 0x0A 0xFF) he (fit_of_lt (by decide) ?_)
    exact Nat.lt_of_le_of_lt (State.sessions_le _) (by decide)

/-- The session of a host whose timeout has passed is closed, and shows that it did. -/
theorem sessionTimeout_closes {h : ℕ} (hc : s.clocked = true) (hh : h < 8) {y : Session} (hy : (s.host h).sess = some y)
    (hlast : y.last + msC (s.g 0x1000 h 0x07) ≤ s.clock) :
    ∃ t, exec (.sessionTimeout h) s = .next t ∧
      HostBecomes s t h { s.host h with sess := none, xfer := none, snap := none } ∧
      t.maps = { s.maps with rowSel := mdel h s.maps.rowSel, rowOrg := mdel h s.maps.rowOrg } ∧
      t.g 0x1000 h 0x08 = 0 ∧ t.g 0x1000 h 0x09 = 0 ∧ t.g 0x1000 h 0x0A = 0xFF ∧ t.g 0x1001 0 0x01 = t.sessions ∧
      (∀ e, entryOf 0x1000 h 0x11 = some e → t.g 0x1000 h 0x11 = fit e (setFlags (s.g 0x1000 h 0x11) 4)) ∧
      Kept (fun k => UploadShown s h k ∨ k = K 0x1000 h 0x08 ∨ k = K 0x1000 h 0x09 ∨ k = K 0x1000 h 0x0A ∨
        k = K 0x1000 h 0x11 ∨ k = K 0x1001 0 0x01) [.result, .outs, .maps, .ctl] s t := by
  have hclose := (Tx.start s).closeSession_eq (h := h) hy
  change ∃ t, execSessionTimeout h s = .next t ∧ _
  unfold execSessionTimeout
  refine run_to hc ((((Tx.start s).sessionOff h).sessionHidden h).flagBit 0x1000 h 0x11 2)
    (by simp only [hy, if_pos hlast, hclose]) fun t ht => ?_
  have hoff : Keeps [.all 0x3A00 [0x09, 0x0A]] [.maps, .ctl] (Tx.start s).cur ((Tx.start s).sessionOff h).cur := by
    dsimp only [Tx.sessionOff]
    exact .setMaps (.setHost (.step (Tx.dropXfer_keeps ..) (.refl ..)))
  have hhost := (Tx.start s).sessionOff_host h
  have hctl : { ((Tx.start s).sessionOff h).cur.ctl with hosts := [], fired := none } = { s.ctl with hosts := [], fired := none } :=
    Tx.dropXfer_ctl (Tx.start s) h
  have hmaps : ((Tx.start s).sessionOff h).cur.maps =
      { s.maps with rowSel := mdel h s.maps.rowSel, rowOrg := mdel h s.maps.rowOrg } := by
    have hd := ((Tx.start s).dropXfer_keeps h).maps (by decide)
    exact (congrArg (fun m : Maps => { m with rowSel := mdel h m.rowSel, rowOrg := mdel h m.rowOrg }) hd :)
  have hhide := ((Tx.start s).sessionOff h).sessionHidden_keeps h
  obtain ⟨h8, h9, hA, hn⟩ := Tx.sessionHidden_shows ((Tx.start s).sessionOff h) hh
  have hflag : Keeps [.all 0x1000 [0x11]] [] (((Tx.start s).sessionOff h).sessionHidden h).cur
      ((((Tx.start s).sessionOff h).sessionHidden h).flagBit 0x1000 h 0x11 2).cur := .flagBit (.refl ..)
  have hend : Keeps [.all 0x1000 [0x11]] [] (((Tx.start s).sessionOff h).sessionHidden h).cur t :=
    hflag.trans (ht.mono (fun _ h => h.elim) (by simp))
  refine ⟨.of_run ht ?_ fun g => ?_, ?_, hend.gOf.trans h8, hend.gOf.trans h9, hend.gOf.trans hA, ?_, fun e he => ?_, ?_⟩
  · exact ((hflag.ctl (by decide)).1.trans (hhide.ctl (by decide)).1).trans hctl
  · rw [(hflag.ctl (by decide)).2, (hhide.ctl (by decide)).2, hhost]
    split <;> rfl
  · rw [hend.maps (by decide), hhide.maps (by decide), hmaps]
  · rw [hend.gOf, hn]
    exact (State.sessions_congr fun n => hend.host_sess (by decide) n).symm
  · have he' : entryAt (K 0x1000 h 0x11) = some e := by rwa [entryAt_K (by omega) (by decide)]
    have hold : (((Tx.start s).sessionOff h).sessionHidden h).cur.g 0x1000 h 0x11 = s.g 0x1000 h 0x11 :=
      hhide.gOf.trans (hoff.gOf.trans rfl)
    rw [ht.g (by simp) (noted_of_apart (l := []) (by decide)), State.g_eq]
    exact (Tx.flag_get_same _ _ he').trans (congrArg (fun v => fit e (setFlags v 4)) hold)
  · have hdrop := (Tx.start s).dropXfer_kept h
    have hE : ∀ {c}, c = 0x08 ∨ c = 0x09 ∨ c = 0x0A ∨ c = 0x11 → UploadShown s h (K 0x1000 h c) ∨ K 0x1000 h c = K 0x1000 h 0x08 ∨
        K 0x1000 h c = K 0x1000 h 0x09 ∨ K 0x1000 h c = K 0x1000 h 0x0A ∨ K 0x1000 h c = K 0x1000 h 0x11 ∨
        K 0x1000 h c = K 0x1001 0 0x01 := by rintro c (rfl | rfl | rfl | rfl) <;> simp
    have hupload : Kept (fun k => UploadShown s h k ∨ k = K 0x1000 h 0x08 ∨ k = K 0x1000 h 0x09 ∨ k = K 0x1000 h 0x0A ∨
        k = K 0x1000 h 0x11 ∨ k = K 0x1001 0 0x01) [.result, .outs, .maps, .ctl] (Tx.start s).cur ((Tx.start s).dropXfer h).cur :=
      hdrop.mono (fun _ hk => .inl hk) (by simp)
    refine .of_run (by simp) (by simp) (.flagBitKey ?_ (hE (.inr (.inr (.inr rfl))))) ht
    dsimp only [Tx.sessionHidden, Tx.sessionOff, Tx.sessionMsg]
    exact .msg (.wKey (.wKey (.wKey (.wKey (.setMaps (.setHost hupload)) (hE (.inl rfl))) (hE (.inr (.inl rfl))))
      (hE (.inr (.inr (.inl rfl))))) (by simp))

theorem transferAbandon_drops {h : ℕ} (hc : s.clocked = true) {x : Xfer} (hx : (s.host h).xfer = some x)
    (hlast : x.last + secC 10 ≤ s.clock) :
    ∃ t, exec (.transferAbandon h) s = .next t ∧ HostBecomes s t h { s.host h with xfer := none } ∧
      (∀ f, f < 1024 → x.key = K 0x3A00 f 0x01 → t.g 0x3A00 f 0x09 = 0 ∧ t.g 0x3A00 f 0x0A = 0xFFFF) ∧
      Kept (UploadShown s h) [.result, .outs, .ctl] s t := by
  change ∃ t, execTransferAbandon h s = .next t ∧ _
  unfold execTransferAbandon
  refine run_to hc ((Tx.start s).dropXfer h) (by simp only [hx, if_pos hlast]) fun t ht => ⟨.of_run ht (Tx.dropXfer_ctl _ h)
    fun g => ?_, fun f hf hkey => ?_, .of_run (by simp) (by simp) ((Tx.dropXfer_kept _ h).mono (fun _ h => h) (by simp)) ht⟩
  · exact (congrArg HostSt.still (Tx.dropXfer_host (Tx.start s) h g)).trans (by split <;> rfl)
  · have hdrop : (Tx.start s).dropXfer h = (((Tx.start s).setHost h { s.host h with xfer := none }).w 0x3A00 f 0x09 0).w
        0x3A00 f 0x0A 0xFFFF := by
      have hinst : kInst x.key = f := by rw [hkey, kInst_of_K]; omega
      unfold Tx.dropXfer
      rw [show ((Tx.start s).cur.host h).xfer = some x from hx]
      dsimp only
      rw [hinst, hkey, kIdx_of_K, kSub_of_K]
      rfl
    rw [hdrop] at ht
    refine ⟨?_, ?_⟩
    · rw [ht.g (by simp) (noted_of_apart (l := []) (by decide)),
        Kept.gOf (l := [.all 0x3A00 [0x0A]]) (M := []) (.w (.refl ..))]
      exact Tx.w_g_of _ (entryAt_ent hf rfl) rfl
    · rw [ht.g (by simp) (noted_of_apart (l := []) (by decide))]
      exact Tx.w_g_of _ (entryAt_ent hf rfl) rfl

theorem snapshotRelease_drops {h : ℕ} (hc : s.clocked = true) {x : Snap} (hx : (s.host h).snap = some x)
    (hlast : x.last + secC 10 ≤ s.clock) :
    ∃ t, exec (.snapshotRelease h) s = .next t ∧ HostBecomes s t h { s.host h with snap := none } ∧
      Kept (fun _ => False) [.result, .outs, .ctl] s t := by
  change ∃ t, execSnapshotRelease h s = .next t ∧ _
  unfold execSnapshotRelease
  refine run_to hc ((Tx.start s).setHost h { s.host h with snap := none }) (by simp only [hx, if_pos hlast]) fun t ht =>
    ⟨.of_run ht rfl fun g => ?_, .of_run (by simp) (by simp) (.setHost (.refl ..)) ht⟩
  rw [Tx.setHost_host]
  split <;> rfl

/-! ## NOTIFY -/

theorem runCtl_finish {s : State} {f : Tx s → Tx s} (hc : s.clocked = true) (hd : s.ctl.down = false) :
    runCtl s f = .next (f (Tx.start s)).finish.cur := by
  simp only [runCtl, run, runAlways, hc, hd, if_true, Bool.false_eq_true, if_false]

theorem run_finish {s : State} {f : Tx s → Tx s} (hc : s.clocked = true) : run s f = .next (f (Tx.start s)).finish.cur := by
  simp only [run, runAlways, hc, if_true]

/-- The control fields and the byte strings stay: what a host has waiting, and its watches. -/
def Calm (a b : State) : Prop := b.ctl = a.ctl ∧ b.blobs = a.blobs

namespace Calm

variable {a : State} {t u : Tx s0}

theorem refl (a : State) : Calm a a := ⟨rfl, rfl⟩
theorem trans {a b c : State} (h : Calm a b) (g : Calm b c) : Calm a c := ⟨g.1.trans h.1, g.2.trans h.2⟩
theorem setNet {x : Net} (h : Calm a t.cur) : Calm a (t.setNet x).cur := h
theorem setTime {x : TimeSt} (h : Calm a t.cur) : Calm a (t.setTime x).cur := h
theorem emit {o : Out} (h : Calm a t.cur) : Calm a (t.emit o).cur := h
theorem inc {i n c k : ℕ} (h : Calm a t.cur) : Calm a (t.inc i n c k).cur :=
  h.trans ⟨Tx.inc_ctl .., Tx.inc_blobs ..⟩
theorem w {i n c v : ℕ} (h : Calm a t.cur) : Calm a (t.w i n c v).cur := h.trans ⟨t.put_ctl .., t.put_blobs ..⟩
theorem tally {i n c : ℕ} (h : Calm a t.cur) : Calm a (t.tally i n c).cur := h.trans ⟨Tx.tally_ctl .., Tx.tally_blobs ..⟩
theorem flagBit {i n c b : ℕ} (h : Calm a t.cur) : Calm a (t.flagBit i n c b).cur :=
  h.trans ⟨Tx.flagBit_ctl .., Tx.flagBit_blobs ..⟩
theorem ite {c : Prop} [Decidable c] (ht : Calm a t.cur) (hu : Calm a u.cur) : Calm a (if c then t else u).cur := by
  split
  · exact ht
  · exact hu
theorem peak {i n c v : ℕ} (h : Calm a t.cur) : Calm a (t.peak i n c v).cur := .ite h.w h

theorem setMac {m : ℕ} {x : MacSt} (h : Calm a t.cur) : Calm a (t.setMac m x).cur := h
theorem setTxs {m : ℕ} {x : TxStream} (h : Calm a t.cur) : Calm a (t.setTxs m x).cur := h
theorem enqueue (h : Calm a t.cur) (m : ℕ) (e : Egress) : Calm a (t.enqueue m e).cur := h

theorem copyEnd (h : Calm a t.cur) (c : MediaCopy) : Calm a (t.copyEnd c).cur := by
  unfold Tx.copyEnd Tx.freeCells
  dsimp only
  split
  · exact h
  · exact .ite (.inc (.w (.setTxs h))) (.setTxs h)

theorem macDone (h : Calm a t.cur) (m : ℕ) : Calm a (t.macDone m).cur := by
  unfold Tx.macDone
  dsimp only
  split
  · exact .ite (.copyEnd (.setMac h) _) h
  · exact h

theorem copyLate (h : Calm a t.cur) (m : ℕ) (k : MediaCopy) : Calm a (t.copyLate m k).cur :=
  .copyEnd (.flagBit (.flagBit (.tally (.tally h)))) _

theorem stamped (h : Calm a t.cur) (m c : ℕ) (r : StampReq) : Calm a (t.stamped m c r).cur := by
  have hsent : Calm a (t.stampSent m c r).2.cur := by
    unfold Tx.stampSent
    dsimp only
    split
    · exact .flagBit (.tally (.inc h))
    · exact .peak (.w (.inc (.setTime (.inc h))))
  unfold Tx.stamped
  dsimp only
  generalize t.stampSent m c r = p at hsent
  obtain ⟨ok, u⟩ := p
  dsimp only at hsent ⊢
  split
  · exact .ite hsent (.enqueue hsent ..)
  · exact .flagBit (.tally hsent)
  · exact hsent
  · exact hsent
  · exact hsent

theorem frameStart (h : Calm a t.cur) (m c : ℕ) (e : Egress) : Calm a (t.frameStart m c e).cur := by
  have hstart : Calm a ((((t.setMac m { t.cur.macSt m with busyUntil := c + t.cur.sendTime m e.len, busy := e.copy }).emit
      (match e.what with
        | .frame f => .frame m f
        | .yexel f a p b => .yexel m f a p b)).tally 0x4800 m 0x0B)).cur := h.setMac.emit.tally
  have hcopy : ∀ {u : Tx s0} k, Calm a u.cur → Calm a (u.copyStart k).cur := fun k hu => by
    unfold Tx.copyStart
    exact .ite hu (.tally (.setTxs hu))
  unfold Tx.frameStart
  dsimp only
  generalize Tx.tally _ 0x4800 m 0x0B = v at hstart ⊢
  split <;> split
  · exact .stamped (hcopy _ hstart) ..
  · exact .stamped hstart ..
  · exact hcopy _ hstart
  · exact hstart

theorem macLoop (m : ℕ) : ∀ n {t : Tx s0}, Calm a t.cur → Calm a (t.macLoop m n).cur
  | 0, _, h => h
  | n + 1, t, h => by
    have hd := h.macDone m
    unfold Tx.macLoop
    dsimp only
    generalize t.macDone m = u at hd
    split
    · exact hd
    · split
      · exact hd
      · split
        · refine macLoop m n (.ite ?_ ?_)
          · exact .copyLate (.setMac hd) ..
          · exact .frameStart (.setMac hd) ..
        · exact macLoop m n (.frameStart (.setMac hd) ..)

theorem each {α : Type} (h : Calm a t.cur) (l : List α) {f : Tx s0 → α → Tx s0} (hf : ∀ t x, Calm a t.cur → Calm a (f t x).cur) :
    Calm a (t.each l f).cur := Tx.each_inv l h hf

theorem egress (h : Calm a t.cur) (m : ℕ) (e : Egress) : Calm a (t.egress m e).cur := by
  have hexp : ∀ {t : Tx s0}, Calm a t.cur → Calm a (t.macExpire m).cur := fun {t} ht => by
    unfold Tx.macExpire
    exact .ite ht (.each (ht.setMac) _ fun t k ht => ht.copyLate ..)
  unfold Tx.egress
  refine .ite h ?_
  unfold Tx.macRun
  exact .ite (h.enqueue ..) (hexp (.ite (macLoop m _ (h.enqueue ..)) (.macDone (h.enqueue ..) m)))

end Calm

/-- The records of a NOTIFY: the one that tells of lost records first, then those that wait. -/
def HostSt.notice (x : HostSt) : List Rec :=
  let lost : List Rec := if x.lost == 0 then [] else [⟨3, 0, 0, 0, 0, x.lost, x.lostAt⟩]
  lost ++ x.recs.take (64 - lost.length)

/-- A NOTIFY before it is sent: the records leave the host, and are counted. -/
def Tx.noticed (t : Tx s0) (h : ℕ) (x : HostSt) (y : Session) : Tx s0 :=
  ((t.setHost h { x with
    recs := x.recs.drop (64 - (if x.lost == 0 then [] else [(⟨3, 0, 0, 0, 0, x.lost, x.lostAt⟩ : Rec)]).length)
    lost := 0, noted := s0.clock, sess := some { y with notes := y.notes + 1 } }).tally 0x1200 h 0x04).inc 0x1200 h 0x05
    x.notice.length

theorem Tx.cycleTo_get (t : Tx s0) (k : ℕ) (f : CycleNote → CycleNote) (j : ℕ) : (t.cycleTo k f).cur.get j = t.cur.get j := rfl

/-- An entry that counts an event reads one more; its hardware counter stands elsewhere. -/
theorem Tx.tally_g (t : Tx s0) {i n c : ℕ} {e : Entry} (he : entryAt (K i n c) = some e) (hi : i < 0x6800) :
    (t.tally i n c).cur.g i n c = fit e (t.cur.g i n c + 1) := by
  unfold Tx.tally Tx.count
  dsimp only
  split
  · rename_i x hx
    have hne : K i n c ≠ K (0x6800 + x) 0 0x01 := fun h => by
      have := counterOf_le hx
      have := congrArg kIdx h
      rw [kIdx_of_K, kIdx_of_K] at this
      omega
    rw [State.g_eq, Tx.counter, Tx.inc_eq, Tx.w_get_other _ _ hne, Tx.cycleTo_get, Tx.inc_eq, t.w_get_same _ he, State.g_eq]
  · rw [State.g_eq, Tx.inc_eq, t.w_get_same _ he, State.g_eq]

theorem notify_sends {h : ℕ} {y : Session} (hc : s.clocked = true) (hd : s.ctl.down = false) (hh : h < 8)
    (hr : s.right h 5 = true) (hy : (s.host h).sess = some y) (hn : (s.host h).recs ≠ [] ∨ (s.host h).lost ≠ 0)
    (ht : (s.host h).noted + msC (s.g 0x1200 h 0x03) ≤ s.clock) (hcan : s.canNotify y = true) :
    exec (.notify h) s = .next ((((Tx.start s).noticed h (s.host h) y).sendTo y.src (yexelMsg y.ks 4 h 0 y.id (y.notes + 1)
      (s.host h).notice.length ((s.host h).notice.flatMap Rec.bytes))).finish.cur) := by
  have hsome : (decide (8 ≤ h) || (s.host h).recs.isEmpty && (s.host h).lost == 0) = false := by
    rcases hn with hn | hn
    · cases hx : (s.host h).recs <;> simp_all
    · simp [hn, hh]
  have htime : (decide (s.clock < (s.host h).noted + msC (s.g 0x1200 h 0x03)) || !s.canNotify y) = false := by
    simp [hcan, ht]
  change execNotify h s = _
  unfold execNotify
  rw [runCtl_finish hc hd]
  simp only [hsome, hr, hy, htime, Bool.not_true, Bool.false_eq_true, if_false]
  rfl

/-- What is sent to a source leaves every host and every byte string. -/
theorem Tx.sendTo_host (t : Tx s0) (src : Source) (m : Bytes) :
    (t.sendTo src m).cur.ctl.hosts = t.cur.ctl.hosts ∧ (t.sendTo src m).cur.blobs = t.cur.blobs := by
  unfold Tx.sendTo
  split
  · split
    · exact ⟨rfl, rfl⟩
    · unfold Tx.spiQueue
      dsimp only
      split <;> exact ⟨rfl, rfl⟩
  · obtain ⟨hc, hb⟩ := (Calm.refl t.cur).egress src.transport
      ⟨.yexel src.dport src.addr src.port m, t.cur.udpFrame src.transport m.length, t.cur.clock, none, none⟩
    exact ⟨congrArg Control.hosts hc, hb⟩

theorem Tx.spiQueue_spiOut (t : Tx s0) (q : List Bytes) : (t.spiQueue q).cur.ctl.spiOut = q := by
  unfold Tx.spiQueue
  dsimp only
  split <;> rfl

theorem Tx.sendTo_spi (t : Tx s0) {src : Source} {m : Bytes} (h : src.transport = 6) (hr : t.cur.ctl.spiOut.length < 32) :
    (t.sendTo src m).cur.ctl.spiOut = t.cur.ctl.spiOut ++ [m] := by
  unfold Tx.sendTo
  rw [if_pos (by simp [h]), if_neg (by omega), Tx.spiQueue_spiOut]

theorem Tx.noticed_calm (t : Tx s0) (h : ℕ) (x : HostSt) (y : Session) :
    ((t.noticed h x y).cur.host h) = { x with
      recs := x.recs.drop (64 - (if x.lost == 0 then [] else [(⟨3, 0, 0, 0, 0, x.lost, x.lostAt⟩ : Rec)]).length)
      lost := 0, noted := s0.clock, sess := some { y with notes := y.notes + 1 } } ∧
    (t.noticed h x y).cur.blobs = t.cur.blobs ∧ (t.noticed h x y).cur.ctl.spiOut = t.cur.ctl.spiOut := by
  unfold Tx.noticed
  refine ⟨?_, (Tx.inc_blobs ..).trans ((Tx.tally_blobs ..).trans rfl),
    (congrArg Control.spiOut ((Tx.inc_ctl ..).trans (Tx.tally_ctl ..)) :)⟩
  exact ((congrArg (fun c : Control => mget HostSt.init c.hosts h) ((Tx.inc_ctl ..).trans (Tx.tally_ctl ..)) :)).trans
    ((t.setHost_host ..).trans (if_pos rfl))

theorem Tx.noticed_counts (t : Tx s0) {h : ℕ} (hh : h < 8) (x : HostSt) (y : Session) :
    (t.noticed h x y).cur.g 0x1200 h 0x04 = (t.cur.g 0x1200 h 0x04 + 1) % 2 ^ 32 ∧
      (t.noticed h x y).cur.g 0x1200 h 0x05 = (t.cur.g 0x1200 h 0x05 + x.notice.length) % 2 ^ 32 := by
  unfold Tx.noticed
  refine ⟨?_, ?_⟩
  · rw [Kept.gOf (l := [.all 0x1200 [0x05]]) (M := []) (.inc (.refl ..))]
    exact Tx.tally_g (i := 0x1200) (c := 0x04) _ (entryAt_ent hh rfl) (by decide)
  · refine (Tx.w_get_same _ _ (entryAt_ent hh rfl)).trans ?_
    have hold := Kept.gOf (n := h) (c := 0x05) (l := [.all 0x1200 [0x04]]) (M := [.ctl]) (a := t.cur) (i := 0x1200)
      (.tally (i := 0x1200) (n := h) (c := 0x04) (.setHost (n := h) (x := { x with
        recs := x.recs.drop (64 - (if x.lost == 0 then [] else [(⟨3, 0, 0, 0, 0, x.lost, x.lostAt⟩ : Rec)]).length)
        lost := 0, noted := s0.clock, sess := some { y with notes := y.notes + 1 } }) (.refl ..)))
    exact congrArg (fun v => (v + x.notice.length) % 2 ^ 32) hold

theorem State.macIdle_congr {a b : State} (hn : b.net = a.net) (hc : b.clock = a.clock)
    (hg : ∀ c, c = 0x01 ∨ c = 0x07 → ∀ m, b.g 0x4800 m c = a.g 0x4800 m c) (m : ℕ) : b.macIdle m = a.macIdle m := by
  have hup : b.macUp m = a.macUp m := by
    unfold State.macUp
    rw [State.on_eq, State.on_eq, ← State.g_eq, ← State.g_eq, hg _ (.inl rfl), hg _ (.inr rfl)]
  unfold State.macIdle
  rw [hup, State.macSt_congr hn, hc]

theorem Tx.noticed_keeps (t : Tx s0) (h : ℕ) (x : HostSt) (y : Session) :
    Keeps [.all 0x1200 [0x04, 0x05]] [.ctl] t.cur (t.noticed h x y).cur := .inc (.tally (.setHost (.refl ..)))

/-- Settles O11. -/
theorem hostTimersComplete : Obligations.HostTimersComplete := by
  unfold Obligations.HostTimersComplete
  refine ⟨fun s h hc hh => ⟨fun y hy hl => sessionTimeout_closes hc hh hy hl, fun x hx hl => transferAbandon_drops hc hx hl,
    fun x hx hl => snapshotRelease_drops hc hx hl⟩, ?_⟩
  intro s h y hc hd hh hr hy hn ht hcan lost rs m
  have hlost : lost = if (s.host h).lost == 0 then [] else [⟨3, 0, 0, 0, 0, (s.host h).lost, (s.host h).lostAt⟩] := by
    simp only [lost, beq_iff_eq]
  have hrs : rs = (s.host h).notice := by
    simp only [rs, hlost]
    rfl
  have hm : m = yexelMsg y.ks 4 h 0 y.id (y.notes + 1) (s.host h).notice.length ((s.host h).notice.flatMap Rec.bytes) := by
    simp only [m, hrs]
  have hexec := notify_sends hc hd hh hr hy hn ht hcan
  rw [← hm] at hexec
  obtain ⟨hhost, hblobs, hspi⟩ := (Tx.start s).noticed_calm h (s.host h) y
  obtain ⟨h4, h5⟩ := (Tx.start s).noticed_counts hh (s.host h) y
  have hkeeps := (Tx.start s).noticed_keeps h (s.host h) y
  generalize (Tx.start s).noticed h (s.host h) y = v at hexec hhost hblobs hspi h4 h5 hkeeps
  obtain ⟨hhosts, hb⟩ := v.sendTo_host y.src m
  have hsent : (v.sendTo y.src m).cur.host h = _ := (congrArg (fun l => mget HostSt.init l h) hhosts :).trans hhost
  have hend := (v.sendTo y.src m).finish_kept (E := fun _ => False) (M := [])
  refine ⟨_, hexec, ?_, ?_, ?_, ?_, fun hw => ?_, fun htr => ?_, fun htr hidle => ?_⟩
  · rw [hend.host_noted (by simp), hsent]
  · rw [hend.host_sess (by simp), hsent]
  · rw [hend.g (by simp) (noted_of_apart (l := []) (by decide)), (v.sendTo_keeps y.src m).gOf, h4]
    rfl
  · rw [hend.g (by simp) (noted_of_apart (l := []) (by decide)), (v.sendTo_keeps y.src m).gOf, h5, hrs]
    rfl
  · have hcalm : Unwatched h ((v.sendTo y.src m).cur.host h) (v.sendTo y.src m).cur :=
      ⟨(State.watches_congr (hb.trans hblobs) h).trans hw, rfl⟩
    obtain ⟨-, hfin⟩ := hcalm.finish
    rw [hfin, hsent, hlost]
    exact ⟨rfl, rfl⟩
  · have hroom : ¬ 32 ≤ v.cur.ctl.spiOut.length := by
      rw [hspi]
      have : s.ctl.spiOut.length + s.ctl.spiIn.length + b2n s.ctl.held.isSome < 32 := by simpa [State.canNotify, htr] using hcan
      show ¬ 32 ≤ s.ctl.spiOut.length
      omega
    rw [hend.ctl_spiOut (by simp), v.sendTo_spi htr (by omega), hspi]
    rfl
  · have hv : v.cur.macIdle y.src.transport = true := by
      rw [State.macIdle_congr (hkeeps.net (by decide)) (hkeeps.clock (by decide)).2]
      · exact hidle
      · rintro c (rfl | rfl) m <;> exact hkeeps.gOf
    have hne : (y.src.transport == 6) = false := by simp; omega
    rw [hend.outs (by simp)]
    unfold Tx.sendTo
    simp only [hne, Bool.false_eq_true, if_false]
    rw [v.egress_outs hv rfl rfl rfl, hkeeps.outs (by decide)]
    rfl

end Sys2Proof.Machine
end

section
/-! PROOFS. The host SPI port (R407). -/

namespace Sys2Proof.Machine
open Sys2Proof

set_option Elab.async false

variable {s0 s : State}

theorem Tx.drainInbox_none (t : Tx s0) (h : t.cur.ctl.inbox = []) : Tx.drainInbox t.cur.ctl.inbox.length t = t := by
  rw [h]
  rfl

/-- The first thing a transaction sent stays the first. -/
theorem Tx.spiQueue_first (t : Tx s0) (q : List Bytes) {o : Out} (h : t.cur.outs = [o]) :
    (t.spiQueue q).cur.outs.head? = some o := by
  unfold Tx.spiQueue
  dsimp only
  split
  · exact congrArg List.head? h
  · exact congrArg (fun l => List.head? (l ++ _)) h

theorem dropMsg_shows (t : Tx s0) : t.dropMsg.cur.g 0x1001 0 0x08 = (t.cur.g 0x1001 0 0x08 + 1) % 2 ^ 32 ∧
    bit (t.dropMsg.cur.g 0x1001 0 0x09) 0 = true := by
  unfold Tx.dropMsg
  refine ⟨?_, ?_⟩
  · rw [Kept.gOf (l := [.all 0x1001 [0x09]]) (M := []) (.flagBit (.refl ..))]
    exact Tx.tally_g (i := 0x1001) (c := 0x08) _ (entryAt_ent (by decide) rfl) (by decide)
  · exact Tx.flagBit_bit _ (entryAt_ent (k := 1) (by decide) rfl) rfl rfl (by decide)

/-- Settles O12. -/
theorem hostSpiCompletes : Obligations.HostSpiCompletes := by
  unfold Obligations.HostSpiCompletes
  intro s hc
  refine ⟨fun len d h0 hle hd hready => ?_, fun clocks => ?_, fun clocks m r hq hfit hin => ?_, fun cmd hcmd => ?_⟩
  · have hcond : (len == 0 || decide (8192 < len) || !s.spiReady) = false := by
      simp only [hready, Bool.not_true, Bool.or_false, Bool.or_eq_false_iff, beq_eq_false_iff_ne, decide_eq_false_iff_not]
      omega
    change ∃ t, execHspiWrite len d s = .next t ∧ _
    unfold execHspiWrite
    refine run_to hc (((Tx.start s).emit (.miso (zeros (2 + d.length)))).setCtl { s.ctl with spiIn := s.ctl.spiIn ++ [d.take len] })
      (by simp only [hcond, Bool.false_eq_true, if_false, if_neg (by omega : ¬ d.length < len)]) fun t ht =>
      ⟨ht.ctl_spiIn (by simp), ht.outs (by simp), .of_run (by simp) (by simp) (.setCtl (.emit (.refl ..))) ht⟩
  · change ∃ t, execHspiStatus clocks s = .next t ∧ _
    unfold execHspiStatus
    exact run_to hc _ rfl fun t ht => ⟨ht.ctl_spiErr (by simp), ht.outs (by simp), ht.ctl_spiOut (by simp),
      .of_run (by simp) (by simp) (.setCtl (.emit (.refl ..))) ht⟩
  · change ∃ t, execHspiRead clocks s = .next t ∧ _
    unfold execHspiRead
    let v := ((Tx.start s).emit (.miso (misoBytes clocks (leBytes 2 m.length ++ m)))).spiQueue r
    have hv : (if s.ctl.down = true then v else Tx.drainInbox v.cur.ctl.inbox.length v) = v := by
      rcases hin with hin | hin
      · rw [if_pos hin]
      · rw [v.drainInbox_none ((Tx.spiQueue_inbox ..).trans hin), ite_self]
    refine run_to hc v (by simp only [hq, if_neg (by omega : ¬ clocks < 2 + m.length)]; exact hv) fun t ht =>
      ⟨(ht.ctl_spiOut (by simp)).trans (Tx.spiQueue_spiOut ..), ?_,
        .of_run (by simp) (by simp) (Kept.trans (.emit (.refl ..)) (Tx.spiQueue_kept ..)) ht⟩
    rw [ht.outs (by simp)]
    exact Tx.spiQueue_first _ _ rfl
  · have hcond : (decide (1 ≤ cmd) && decide (cmd ≤ 3)) = false := by
      simp only [Bool.and_eq_false_iff, decide_eq_false_iff_not]
      omega
    change ∃ t, execHspiUnknownCommand cmd s = .next t ∧ _
    unfold execHspiUnknownCommand
    refine run_to hc (Tx.start s).dropMsg (by simp only [hcond, Bool.false_eq_true, if_false]) fun t ht => ?_
    obtain ⟨h8, h9⟩ := dropMsg_shows (Tx.start s)
    exact ⟨(ht.g (by simp) (noted_of_apart (l := []) (by decide))).trans h8,
      (congrArg (fun v => bit v 0) (ht.g (by simp) (noted_of_apart (l := []) (by decide)))).trans h9⟩

end Sys2Proof.Machine
end

section
/-! PROOFS. The checks of a write rest on the dictionary, the owners, the state of the device and the commit, so on nothing that
the beginning of a command sets. -/

namespace Sys2Proof.Machine
open Sys2Proof

set_option Elab.async false
variable {s0 s a b : State}

theorem customOk_congr (h : ∀ i n c, b.g i n c = a.g i n c) (i n c v : ℕ) : customOk b i n c v = customOk a i n c v := by
  unfold customOk stimMax State.fA
  simp only [h]

theorem rangeOk_congr (h : ∀ i n c, b.g i n c = a.g i n c) (i n : ℕ) (e : Entry) (d : Bytes) :
    rangeOk b i n e d = rangeOk a i n e d := by
  unfold rangeOk
  simp only [customOk_congr h]

theorem State.writeCheck_congr (hd : b.dict = a.dict) (hb : b.blobs = a.blobs) (hs : b.power.stage = a.power.stage)
    (hc : b.ctl.commit = a.ctl.commit) (h : ℕ) (o : OpFields) : b.writeCheck h o = a.writeCheck h o := by
  have hg : ∀ k, b.get k = a.get k := fun k => by
    unfold State.get
    rw [hd]
  have hac : b.accessCheck h o = a.accessCheck h o := State.accessCheck_congr (fun k _ _ => hg k) (fun k _ => by
    unfold State.blob
    rw [hb]) hs hc h o
  unfold State.writeCheck
  simp only [hac, rangeOk_congr fun i n c => hg (K i n c)]

theorem start_writeCheck (h : ℕ) (o : OpFields) : (Tx.start s).cur.writeCheck h o = s.writeCheck h o :=
  State.writeCheck_congr rfl rfl rfl rfl h o

theorem guarded_start {h : ℕ} {o : OpFields} (hk : s.writeCheck h o = stOK) (r : Tx s → Tx s) :
    (Tx.start s).guarded h o r = r ((Tx.start s).status stOK) := Tx.guarded_ok ((start_writeCheck h o).trans hk) r

end Sys2Proof.Machine
end

section
/-! PROOFS. Safe-load fails: a stage which holds an entry that no staged write can name. -/

namespace Sys2Proof.Machine
open Sys2Proof

set_option Elab.async false

/-- A pending commit of a stage that holds the count of commits, 0x1300:08, which is read-only. -/
def strayStageState : State :=
  { State.reset with
    ctl := { Control.init with
      commit := some ⟨0, 0, false, 0, false, false⟩
      hosts := [(0, { HostSt.init with stage := [(K 0x1300 0 0x08, [5])] })] } }

/-- The staged 5 comes into force and the commit counts from there, not from the count that was. -/
theorem strayStageState_counts : nextGet (exec .commitLands strayStageState) (K 0x1300 0 0x08) = 6 := by decide +kernel

/-- Refutes O13: a commit whose stage holds 0x1300:08 itself leaves that count at 6, where it was 0. -/
theorem not_safeLoadCompletes : ¬ Obligations.SafeLoadCompletes := by
  unfold Obligations.SafeLoadCompletes
  rintro ⟨-, hland, -⟩
  obtain ⟨t, ht, -, hdone, -⟩ := hland strayStageState ⟨0, 0, false, 0, false, false⟩ (by decide) rfl rfl (by decide) (by decide)
  obtain ⟨-, -, hcount⟩ := hdone rfl
  have hmoved := strayStageState_counts
  rw [ht] at hmoved
  have hzero : strayStageState.g 0x1300 0 0x08 = 0 := by decide +kernel
  rw [State.g_eq, show t.get (K 0x1300 0 0x08) = 6 from hmoved, hzero] at hcount
  cases hcount

end Sys2Proof.Machine
end

section
/-! PROOFS. Saves: how they begin and end (R420, R434, R436, R437, R440 to R442). -/

namespace Sys2Proof.Machine
open Sys2Proof

set_option Elab.async false

variable {s0 s : State}

/-! ## How a save begins -/

/-- The Leaf that is not in force. -/
def State.spareLeaf (a : State) : ℕ := if a.g 0x1400 0 0x05 = 0 then 1 else 0

/-- The image that a save writes. -/
def State.saveImage (a : State) (empty : Bool) : Image :=
  if empty && a.store.keys.isEmpty then Image.none_ else (if empty then State.reset.image else a.image).withKeys a.store.keys

/-- A save runs that has begun in state a. -/
structure SaveBegun (a : State) (empty : Bool) (b : State) (r : SaveRun) : Prop where
  run : b.store.run = some r
  leaf : r.leaf = a.spareLeaf
  image : r.image = a.saveImage empty
  keys : r.keys = a.store.keys
  invalid : (b.store.leaf a.spareLeaf).valid = false
  shown : b.g 0x1400 0 0x02 = 1

theorem Store.withLeaf_leaf (st : Store) (i : ℕ) (l : Leaf) : (st.withLeaf i l).leaf i = l := by
  unfold Store.withLeaf Store.leaf
  split
  · rfl
  · rfl

theorem Tx.beginSave_begins (t : Tx s0) (empty waits : Bool) : ∃ r, SaveBegun t.cur empty (t.beginSave empty waits).cur r := by
  unfold Tx.beginSave
  have hleaf : (if t.g 0x1400 0 0x05 == 0 then 1 else 0) = t.cur.spareLeaf := by
    unfold State.spareLeaf
    simp only [beq_iff_eq]
    rfl
  dsimp only
  rw [hleaf]
  refine ⟨_, rfl, rfl, rfl, rfl, ?_, ?_⟩
  · exact (congrArg Leaf.valid (Store.withLeaf_leaf ..) :)
  · have hrest : ∀ u : Tx s0, (u.w 0x1400 0 (leafSub t.cur.spareLeaf) 0).cur.g 0x1400 0 0x02 = u.cur.g 0x1400 0 0x02 := fun u => by
      refine Tx.w_get_other _ _ ?_
      unfold leafSub
      split <;> decide
    rw [hrest]
    exact Tx.w_g_of (i := 0x1400) (c := 0x02) _ (entryAt_ent (by decide : 0 < 1) rfl) rfl

theorem State.spareLeaf_congr {a b : State} (h : b.g 0x1400 0 0x05 = a.g 0x1400 0 0x05) : b.spareLeaf = a.spareLeaf := by
  unfold State.spareLeaf
  rw [h]

theorem State.saveImage_congr {a b : State} (hi : b.image = a.image) (hk : b.store.keys = a.store.keys) (e : Bool) :
    b.saveImage e = a.saveImage e := by
  unfold State.saveImage
  rw [hi, hk]

theorem State.saveImage_full (a : State) : a.saveImage false = a.image.withKeys a.store.keys := by
  unfold State.saveImage
  rw [Bool.false_and, if_neg (by decide), if_neg (by decide)]

/-- A save that has begun from a state like this one has begun from this one. -/
theorem SaveBegun.from {a a' b : State} {empty : Bool} {r : SaveRun} (h : SaveBegun a empty b r)
    (hg : a'.g 0x1400 0 0x05 = a.g 0x1400 0 0x05) (hi : a'.image = a.image) (hk : a'.store.keys = a.store.keys) :
    SaveBegun a' empty b r := by
  have hl := State.spareLeaf_congr hg
  exact ⟨h.run, h.leaf.trans hl.symm, h.image.trans (State.saveImage_congr hi hk empty).symm, h.keys.trans hk.symm,
    hl ▸ h.invalid, h.shown⟩

theorem State.image_congr {a b : State} (hd : b.dict = a.dict) (hb : b.blobs = a.blobs) (hl : b.liveSet = a.liveSet) :
    b.image = a.image := by
  unfold State.image
  rw [hd, hb, hl]

theorem SaveBegun.wait {a : State} {empty : Bool} {r : SaveRun} {t : Tx s0} (h : SaveBegun a empty t.cur r) :
    SaveBegun a empty t.wait.cur r := ⟨h.run, h.leaf, h.image, h.keys, h.invalid, h.shown⟩

theorem Store.leaf_congr {a b : State} (h0 : b.store.leaf0 = a.store.leaf0) (h1 : b.store.leaf1 = a.store.leaf1) (i : ℕ) :
    b.store.leaf i = a.store.leaf i := by
  unfold Store.leaf
  rw [h0, h1]

/-- What the end of a command leaves of a save that has begun. -/
theorem SaveBegun.finish {a b t : State} {empty : Bool} {r : SaveRun} (h : SaveBegun a empty b r) (ht : Kept (fun _ => False) [] b t) :
    SaveBegun a empty t r where
  run := (ht.store_run (by simp)).trans h.run
  leaf := h.leaf
  image := h.image
  keys := h.keys
  invalid := (congrArg Leaf.valid (Store.leaf_congr (ht.store_leaf0 (by simp)) (ht.store_leaf1 (by simp)) _)).trans h.invalid
  shown := (ht.g (by simp) (noted_of_apart (l := []) (by decide))).trans h.shown

theorem Tx.askSave_idle (t : Tx s0) (h : t.cur.store.run = none) (empty waits : Bool) :
    t.askSave empty waits = t.beginSave empty waits := by
  unfold Tx.askSave
  rw [h]

/-- The image of the values is that of the state before the operation's status. -/
theorem status_image (st : ℕ) : ((Tx.start s).status st).cur.image = s.image := State.image_congr rfl rfl rfl

theorem Tx.setStore_image (t : Tx s0) (x : Store) : (t.setStore x).cur.image = t.cur.image := State.image_congr rfl rfl rfl

theorem save_begins (hc : s.clocked = true) (hr : s.store.run = none) {h : ℕ} {d : Bytes}
    (hk : s.writeCheck h (opOf 0x1400 0 0x01 d) = stOK) :
    ∃ t r, exec (.save h d) s = .next t ∧ SaveBegun s false t r ∧ t.result = ⟨none, []⟩ := by
  obtain ⟨r, hb⟩ := ((Tx.start s).status stOK).beginSave_begins false true
  have hb' : SaveBegun s false _ r := hb.wait.from rfl (status_image _).symm rfl
  have hu : (Tx.start s).guarded h (opOf 0x1400 0 0x01 d) saveRule = (((Tx.start s).status stOK).beginSave false true).wait :=
    (guarded_start hk _).trans (congrArg Tx.wait (Tx.askSave_idle _ hr ..))
  obtain ⟨t, ht, hk⟩ := run_to hc (f := fun t => t.guarded h (opOf 0x1400 0 0x01 d) saveRule) (P := fun t => Kept (fun _ => False) [] _ t) _ hu fun t ht => ht
  exact ⟨t, r, ht, hb'.finish hk, hk.result (by simp)⟩

theorem autosave_begins (hc : s.clocked = true) (hr : s.store.run = none) {c : ℕ} (hch : s.store.changed = some c)
    (h0 : s.g 0x1400 0 0x03 ≠ 0) (hl : c + msC (s.g 0x1400 0 0x03) ≤ s.clock) :
    ∃ t r, exec .autosave s = .next t ∧ SaveBegun s false t r := by
  let u := (Tx.start s).setStore { s.store with changed := none }
  obtain ⟨r, hb⟩ := u.beginSave_begins false false
  have hb' : SaveBegun s false _ r := hb.from rfl (State.image_congr rfl rfl rfl) rfl
  have hcond : (s.g 0x1400 0 0x03 != 0 && decide (c + msC (s.g 0x1400 0 0x03) ≤ s.clock)) = true := by simp [h0, hl]
  have hrun : ∃ t, execAutosave s = .next t ∧ Kept (fun _ => False) [] (u.beginSave false false).cur t := by
    unfold execAutosave
    exact run_to hc (u.beginSave false false)
      (by simp only [hch, hcond, if_true]; exact Tx.askSave_idle u hr ..) fun t ht => ht
  obtain ⟨t, ht, hk⟩ := hrun
  exact ⟨t, r, ht, hb'.finish hk⟩

theorem restoreDefaults_begins (hc : s.clocked = true) (hr : s.store.run = none) {h : ℕ} {d : Bytes}
    (hk : s.writeCheck h (opOf 0x1400 0 0x04 d) = stOK) :
    ∃ t r, exec (.restoreDefaults h d) s = .next t ∧ SaveBegun s true t r := by
  obtain ⟨r, hb⟩ := ((Tx.start s).status stOK).beginSave_begins true false
  have hb' : SaveBegun s true _ r := hb.from rfl (status_image _).symm rfl
  have hu : (Tx.start s).guarded h (opOf 0x1400 0 0x04 d) restoreRule = ((Tx.start s).status stOK).beginSave true false :=
    (guarded_start hk _).trans (Tx.askSave_idle _ hr ..)
  obtain ⟨t, ht, hk⟩ := run_to hc (f := fun t => t.guarded h (opOf 0x1400 0 0x04 d) restoreRule) (P := fun t => Kept (fun _ => False) [] _ t) _ hu fun t ht => ht
  exact ⟨t, r, ht, hb'.finish hk⟩

theorem keyWrite_begins (hc : s.clocked = true) (hr : s.store.run = none) {h n : ℕ} {d : Bytes}
    (hk : s.writeCheck h (opOf 0x1000 n 0x02 d) = stOK) :
    ∃ t r, exec (.keyWrite h n d) s = .next t ∧ t.store.run = some r ∧ r.leaf = s.spareLeaf ∧
      r.image = s.image.withKeys (s.store.keys ++ [(n, d)]) ∧ r.keys = s.store.keys ++ [(n, d)] ∧
      t.gb 0x1000 n 0x02 = s.gb 0x1000 n 0x02 ∧ t.result = ⟨none, []⟩ := by
  let u := ((Tx.start s).status stOK).setStore { s.store with keys := s.store.keys ++ [(n, d)] }
  obtain ⟨r, hb⟩ := u.beginSave_begins false true
  have hu : (Tx.start s).guarded h (opOf 0x1000 n 0x02 d) (keyRule n d) = (u.beginSave false true).wait :=
    (guarded_start hk _).trans (congrArg Tx.wait (Tx.askSave_idle u hr ..))
  obtain ⟨t, ht, hk⟩ := run_to hc (f := fun t => t.guarded h (opOf 0x1000 n 0x02 d) (keyRule n d))
    (P := fun t => Kept (fun _ => False) [] (u.beginSave false true).wait.cur t) _ hu fun t ht => ht
  have hend := hb.wait.finish hk
  have himage : u.cur.image = s.image := (Tx.setStore_image ..).trans (status_image _)
  have hu0 : Keeps [.all 0x1400 [0x02, 0x07, 0x08]] [.result, .outs, .store] s u.cur :=
    (Tx.start_kept s (by decide) (by decide)).trans (.setStore (.status (.refl ..)))
  have hall : Keeps [.all 0x1400 [0x02, 0x07, 0x08]] [.result, .outs, .store] s (u.beginSave false true).wait.cur :=
    hu0.trans (.wait (.step (u.beginSave_keeps false true) (.refl ..)))
  have hleaf : u.cur.spareLeaf = s.spareLeaf := State.spareLeaf_congr hu0.gOf
  have himg : u.cur.saveImage false = s.image.withKeys (s.store.keys ++ [(n, d)]) :=
    (State.saveImage_full _).trans (congrArg₂ Image.withKeys himage rfl)
  refine ⟨t, r, ht, hend.run, hend.leaf.trans hleaf, hend.image.trans himg, hend.keys, (hk.gb (by simp)).trans hall.gbOf,
    hk.result (by simp)⟩

/-! ## How a save ends -/

theorem Tx.sendTo_inbox (t : Tx s0) (src : Source) (m : Bytes) : (t.sendTo src m).cur.ctl.inbox = t.cur.ctl.inbox := by
  unfold Tx.sendTo
  split
  · split
    · rfl
    · exact Tx.spiQueue_inbox ..
  · exact (congrArg Control.inbox ((Calm.refl t.cur).egress src.transport _).1 :)

/-- What may change once the read-back of a save has been judged. -/
def Span.told : List Span :=
  Span.sends ++ [.all 0x1000 [0x08, 0x09, 0x0A, 0x11], .all 0x1001 [0x01], .all 0x3A00 [0x09, 0x0A], .all 0x6500 [0x03, 0x15]]

theorem Tx.respondTo_told (t : Tx s0) (h : ℕ) (y : Session) (seq : ℕ) (tag : Bytes) (rs : List (Bytes × ℕ × Bytes)) :
    Keeps Span.sends [.outs, .net, .time, .ctl] t.cur (t.respondTo h y seq tag rs).cur ∧
      (t.respondTo h y seq tag rs).cur.ctl.inbox = t.cur.ctl.inbox := by
  unfold Tx.respondTo
  dsimp only
  split
  · split
    · exact ⟨.step (Tx.sendTo_keeps ..) (.setHost (.refl ..)), Tx.sendTo_inbox ..⟩
    · exact ⟨.step (Tx.sendTo_keeps ..) (.refl ..), Tx.sendTo_inbox ..⟩
  · exact ⟨.step (Tx.sendTo_keeps ..) (.refl ..), Tx.sendTo_inbox ..⟩

theorem Tx.heldTo_told (t : Tx s0) (st : ℕ) : Keeps Span.sends [.outs, .net, .time, .ctl] t.cur (t.heldTo st).cur ∧
    (t.heldTo st).cur.ctl.inbox = t.cur.ctl.inbox := by
  unfold Tx.heldTo
  split
  · exact ⟨.refl .., rfl⟩
  · dsimp only
    unfold Tx.requestEnd
    split
    · exact ⟨Kept.trans (.setCtl (.refl ..)) (Tx.respondTo_told ..).1, (Tx.respondTo_told ..).2⟩
    · exact ⟨.setCtl (.setCtl (.refl ..)), rfl⟩

theorem Tx.closeSession_inbox (t : Tx s0) (h : ℕ) : (t.closeSession h).cur.ctl.inbox = t.cur.ctl.inbox := by
  cases hy : (t.cur.host h).sess with
  | none =>
    unfold Tx.closeSession
    simp only [hy, Option.isNone_none, if_true]
  | some y =>
    rw [t.closeSession_eq hy, ((t.sessionOff h).sessionHidden_keeps h).ctl_inbox (by decide)]
    exact (congrArg Control.inbox (t.dropXfer_ctl h) :)

/-- The judgement of a save reaches STANDBY's entry, the response that waits for it and, where it carried keys, their hosts. -/
def Tx.saveTold (t : Tx s0) (x : SaveDone) : Tx s0 :=
  let st := if x.good then stOK else stStoreFail
  let t := t.entrySaved x.good
  let t := (t.when x.waits (fun t => t.status st)).heldTo st
  t.when x.good (fun t => t.each (nub (x.keys.map (·.1))) (fun t h => (t.closeSession h).flagBit 0x1000 h 0x11 3))

theorem Tx.saveTold_told (t : Tx s0) (x : SaveDone) :
    Keeps Span.told [.result, .outs, .net, .time, .maps, .ctl, .power] t.cur (t.saveTold x).cur ∧
      (t.saveTold x).cur.ctl.inbox = t.cur.ctl.inbox := by
  have hentry : Keeps Span.told [.result, .outs, .net, .time, .maps, .ctl, .power] t.cur (t.entrySaved x.good).cur ∧
      (t.entrySaved x.good).cur.ctl.inbox = t.cur.ctl.inbox := by
    unfold Tx.entrySaved Tx.entryEnd
    split
    · split
      · exact ⟨.setPower (.refl ..), rfl⟩
      · exact ⟨.flagBit (.setPower (.w (.refl ..))), congrArg Control.inbox ((Tx.flagBit_ctl ..).trans (t.put_ctl (K 0x6500 0 0x03) 0))⟩
    · exact ⟨.setPower (.refl ..), rfl⟩
    · exact ⟨.refl .., rfl⟩
  unfold Tx.saveTold
  dsimp only
  generalize t.entrySaved x.good = u at hentry
  generalize (if x.good = true then stOK else stStoreFail) = st
  have hstatus : Keeps Span.told [.result, .outs, .net, .time, .maps, .ctl, .power] t.cur (u.when x.waits (fun t => t.status st)).cur ∧
      (u.when x.waits (fun t => t.status st)).cur.ctl.inbox = t.cur.ctl.inbox := by
    unfold Tx.when
    split
    · exact ⟨.status hentry.1, hentry.2⟩
    · exact hentry
  generalize u.when x.waits (fun t => t.status st) = v at hstatus
  have hheld := v.heldTo_told st
  have hkeep : Keeps Span.told [.result, .outs, .net, .time, .maps, .ctl, .power] t.cur (v.heldTo st).cur := .step hheld.1 hstatus.1
  have hbox := hheld.2.trans hstatus.2
  generalize v.heldTo st = w at hkeep hbox
  unfold Tx.when
  split
  · refine ⟨.each (fun t h => .flagBit (.step (Tx.closeSession_keeps ..) (.refl ..))) hkeep, ?_⟩
    exact Tx.each_inv (P := fun a => a.ctl.inbox = t.cur.ctl.inbox) _ hbox fun u h hu =>
      (congrArg Control.inbox (Tx.flagBit_ctl ..) :).trans ((u.closeSession_inbox h).trans hu)
  · exact ⟨hkeep, hbox⟩

/-- What a save that succeeded shows beside its Leaf and its sequence. -/
def Tx.saveShown (t : Tx s0) (r : SaveRun) : Tx s0 :=
  ((((t.w 0x1400 0 (leafSub r.leaf) 1).w 0x1400 0 0x09 r.image.bytes).tally 0x1400 0 0x0A).w 0x1400 0 0x0C r.at_).flagBit
    0x1400 0 0x10 0

theorem leafSub_mayWrite (i : ℕ) {l : List Span} (h7 : mayWrite l 0x1400 0x07 = true) (h8 : mayWrite l 0x1400 0x08 = true) :
    mayWrite l 0x1400 (leafSub i) = true := by
  unfold leafSub
  split
  · exact h7
  · exact h8

theorem Tx.saveShown_keeps (t : Tx s0) (r : SaveRun) :
    Keeps [.all 0x1400 [0x07, 0x08, 0x09, 0x0A, 0x0C, 0x10], .ctr 9 10] [] t.cur (t.saveShown r).cur :=
  .flagBit (.w (.tally (.w (.w (.refl ..) (leafSub_mayWrite _ (by decide) (by decide))))))

theorem Tx.landKeys_keeps (t : Tx s0) (keys : List (ℕ × Bytes)) :
    Keeps [.all 0x1000 [0x02, 0x03], .all 0x1001 [0x07]] [] t.cur (t.landKeys keys).cur := by
  unfold Tx.landKeys
  exact .each (fun t p => .when (fun t => .w (.refl ..)) (.w (.wb (.refl ..)))) (.refl ..)

theorem Tx.landKeys_inbox (t : Tx s0) (keys : List (ℕ × Bytes)) : (t.landKeys keys).cur.ctl.inbox = t.cur.ctl.inbox :=
  (t.landKeys_keeps keys).ctl_inbox (by simp)

/-- The image reads back right. -/
theorem Tx.endSave_right (t : Tx s0) {r : SaveRun} (hr : t.cur.store.run = some r) (hb : r.image.bytes ≤ 2097152) :
    t.endSave true = (some ⟨true, r.keys, r.waits⟩,
      (((((t.setStore (t.cur.store.withLeaf r.leaf ⟨true, (t.g 0x1400 0 0x06 + 1) % 2 ^ 32, r.at_, t.g 0x0000 0 0x07, r.image⟩)).w
        0x1400 0 0x05 r.leaf).w 0x1400 0 0x06 ((t.g 0x1400 0 0x06 + 1) % 2 ^ 32)).saveShown r).landKeys r.keys).nextSave r) := by
  unfold Tx.endSave
  simp only [hr, hb, decide_true, Bool.and_self, if_true]
  rfl

theorem Tx.nextSave_none (t : Tx s0) {r : SaveRun} (h : r.next = none) :
    t.nextSave r = (t.setStore { t.cur.store with run := none }).w 0x1400 0 0x02 0 := by
  unfold Tx.nextSave
  rw [h]

/-- A save whose end is judged runs its ending. -/
theorem saveEnd_told {ok : Bool} (hc : s.clocked = true) (hd : s.ctl.down = false) {x : SaveDone} {u : Tx s}
    (he : (Tx.start s).endSave ok = (some x, u)) (hu : u.cur.ctl.inbox = []) {P : State → Prop}
    (hP : ∀ t, Kept (fun _ => False) [] (u.saveTold x).cur t → P t) : ∃ t, exec (.saveEnd ok) s = .next t ∧ P t := by
  change ∃ t, execSaveEnd ok s = .next t ∧ _
  unfold execSaveEnd
  refine runCtl_to hc hd (u.saveTold x) ?_ hP
  have hbox := (u.saveTold_told x).2.trans hu
  simp only [he]
  exact (u.saveTold x).drainInbox_none hbox

theorem Kept.store_leaf {E : ℕ → Prop} {M : List Part} {a b : State} (h : Kept E M a b) (hm : Part.store ∉ M) (i : ℕ) :
    b.store.leaf i = a.store.leaf i := Store.leaf_congr (h.store_leaf0 hm) (h.store_leaf1 hm) i

theorem saveEnd_right (hc : s.clocked = true) (hd : s.ctl.down = false) {r : SaveRun} (hr : s.store.run = some r)
    (hin : s.ctl.inbox = []) (hl : r.leaf < 2) (hn : r.next = none) (hb : r.image.bytes ≤ 2097152) :
    ∃ t, exec (.saveEnd true) s = .next t ∧ t.store.run = none ∧
      t.store.leaf r.leaf = ⟨true, (s.g 0x1400 0 0x06 + 1) % 2 ^ 32, r.at_, s.g 0x0000 0 0x07, r.image⟩ ∧
      t.g 0x1400 0 0x05 = r.leaf ∧ t.g 0x1400 0 0x06 = (s.g 0x1400 0 0x06 + 1) % 2 ^ 32 := by
  have he := (Tx.start s).endSave_right hr hb
  rw [Tx.nextSave_none _ hn] at he
  have h6 : (Tx.start s).g 0x1400 0 0x06 = s.g 0x1400 0 0x06 := rfl
  have h7 : (Tx.start s).g 0x0000 0 0x07 = s.g 0x0000 0 0x07 := rfl
  rw [h6, h7] at he
  generalize hv0 : (Tx.start s).setStore ((Tx.start s).cur.store.withLeaf r.leaf ⟨true, (s.g 0x1400 0 0x06 + 1) % 2 ^ 32, r.at_,
    s.g 0x0000 0 0x07, r.image⟩) = v0 at he
  generalize hv1 : v0.w 0x1400 0 0x05 r.leaf = v1 at he
  generalize hv2 : v1.w 0x1400 0 0x06 ((s.g 0x1400 0 0x06 + 1) % 2 ^ 32) = v2 at he
  have hshown : Keeps [.all 0x1400 [0x07, 0x08, 0x09, 0x0A, 0x0C, 0x10], .ctr 9 10, .all 0x1000 [0x02, 0x03], .all 0x1001 [0x07]] []
      v2.cur ((v2.saveShown r).landKeys r.keys).cur := .step (Tx.landKeys_keeps ..) (.step (Tx.saveShown_keeps ..) (.refl ..))
  generalize hv4 : (v2.saveShown r).landKeys r.keys = v4 at he hshown
  generalize hv5 : v4.setStore { v4.cur.store with run := none } = v5 at he
  have hbox : (v5.w 0x1400 0 0x02 0).cur.ctl.inbox = [] := by
    rw [show (v5.w 0x1400 0 0x02 0).cur.ctl = v5.cur.ctl from v5.put_ctl .., ← hv5]
    show v4.cur.ctl.inbox = []
    rw [hshown.ctl_inbox (by simp), ← hv2, show (v1.w 0x1400 0 0x06 ((s.g 0x1400 0 0x06 + 1) % 2 ^ 32)).cur.ctl = v1.cur.ctl from
      v1.put_ctl .., ← hv1, show (v0.w 0x1400 0 0x05 r.leaf).cur.ctl = v0.cur.ctl from v0.put_ctl .., ← hv0]
    exact hin
  refine saveEnd_told hc hd he hbox fun t ht => ?_
  have hend : Keeps (Span.told ++ [.all 0x1400 [0x02]]) [.result, .outs, .net, .time, .maps, .ctl, .power] v5.cur t :=
    Kept.trans (.step (Tx.saveTold_told _ _).1 (.w (.refl ..))) (ht.mono (fun _ h => h.elim) (by simp))
  have hnow : Keeps (Span.told ++ [.all 0x1400 [0x02, 0x07, 0x08, 0x09, 0x0A, 0x0C, 0x10], .ctr 9 10, .all 0x1000 [0x02, 0x03],
      .all 0x1001 [0x07]]) [.result, .outs, .net, .time, .maps, .ctl, .power, .store] v2.cur t := by
    have hv5k : Keeps (Span.told ++ [.all 0x1400 [0x02, 0x07, 0x08, 0x09, 0x0A, 0x0C, 0x10], .ctr 9 10, .all 0x1000 [0x02, 0x03],
      .all 0x1001 [0x07]]) [.result, .outs, .net, .time, .maps, .ctl, .power, .store] v2.cur v5.cur := by
      rw [← hv5]
      exact .setStore (.step hshown (.refl ..))
    exact .step hend hv5k
  have hseq : (s.g 0x1400 0 0x06 + 1) % 2 ^ 32 < 2 ^ 32 := Nat.mod_lt _ (by decide)
  have hle : Keeps [.all 0x1400 [0x05, 0x06]] [] v0.cur v2.cur := by
    rw [← hv2, ← hv1]
    exact .w (.w (.refl ..))
  refine ⟨?_, ?_, ?_, ?_⟩
  · rw [hend.store_run (by decide), ← hv5]
    rfl
  · rw [hend.store_leaf (by decide), ← hv5]
    show v4.cur.store.leaf r.leaf = _
    rw [hshown.store_leaf (by simp), hle.store_leaf (by simp), ← hv0]
    exact Store.withLeaf_leaf ..
  · have h5 : v2.cur.g 0x1400 0 0x05 = v1.cur.g 0x1400 0 0x05 := by
      rw [← hv2]
      exact Kept.gOf (l := [.all 0x1400 [0x06]]) (M := []) (.w (.refl ..))
    rw [hnow.gOf, h5, ← hv1]
    exact Tx.w_g_of (i := 0x1400) (c := 0x05) _ (entryAt_ent (by decide : 0 < 1) rfl)
      (fit_of_lt (by decide) (Nat.lt_of_lt_of_le hl (by decide)))
  · rw [hnow.gOf, ← hv2]
    exact Tx.w_g_of (i := 0x1400) (c := 0x06) _ (entryAt_ent (by decide : 0 < 1) rfl) (fit_of_lt (by decide) hseq)

/-- The first image that reads back wrong is written once more. -/
theorem saveEnd_again (hc : s.clocked = true) (hd : s.ctl.down = false) {r : SaveRun} (hr : s.store.run = some r)
    (hb : r.image.bytes ≤ 2097152) (ha : r.again = false) :
    ∃ t, exec (.saveEnd false) s = .next t ∧ t.store.run = some { r with again := true } := by
  have he : (Tx.start s).endSave false = (none, (Tx.start s).setStore { s.store with run := some { r with again := true } }) := by
    unfold Tx.endSave
    simp only [show (Tx.start s).cur.store.run = some r from hr, hb, ha, decide_true, Bool.false_and, Bool.false_eq_true, if_false,
      Bool.not_false, Bool.and_self, if_true]
    rfl
  change ∃ t, execSaveEnd false s = .next t ∧ _
  unfold execSaveEnd
  exact runCtl_to hc hd _ (by simp only [he]; rfl) fun t ht => ht.store_run (by simp)

theorem saveEnd_wrong (hc : s.clocked = true) (hd : s.ctl.down = false) {r : SaveRun} (hr : s.store.run = some r)
    (hin : s.ctl.inbox = []) (hn : r.next = none) (ha : r.again = true) :
    ∃ t, exec (.saveEnd false) s = .next t ∧ t.store.run = none ∧ t.store.leaf r.leaf = s.store.leaf r.leaf ∧
      t.g 0x1400 0 0x05 = s.g 0x1400 0 0x05 ∧ t.g 0x1400 0 0x0B = (s.g 0x1400 0 0x0B + 1) % 2 ^ 32 := by
  have he : (Tx.start s).endSave false = (some ⟨false, r.keys, r.waits⟩,
      ((((Tx.start s).tally 0x1400 0 0x0B).flagBit 0x1400 0 0x10 1).w 0x1400 0 (leafSub r.leaf) 2).nextSave r) := by
    unfold Tx.endSave
    simp only [show (Tx.start s).cur.store.run = some r from hr, ha, Bool.false_and, Bool.false_eq_true, if_false, Bool.not_true]
  rw [Tx.nextSave_none _ hn] at he
  have h0B : ((Tx.start s).tally 0x1400 0 0x0B).cur.g 0x1400 0 0x0B = (s.g 0x1400 0 0x0B + 1) % 2 ^ 32 :=
    Tx.tally_g (i := 0x1400) (c := 0x0B) _ (entryAt_ent (by decide : 0 < 1) rfl) (by decide)
  have hkeep0 : Keeps [.all 0x1400 [0x0B], .ctr 9 10] [] (Tx.start s).cur ((Tx.start s).tally 0x1400 0 0x0B).cur := .tally (.refl ..)
  generalize (Tx.start s).tally 0x1400 0 0x0B = v0 at he h0B hkeep0
  have hflag : Keeps [.all 0x1400 [0x07, 0x08, 0x10]] [] v0.cur ((v0.flagBit 0x1400 0 0x10 1).w 0x1400 0 (leafSub r.leaf) 2).cur :=
    .w (.flagBit (.refl ..)) (leafSub_mayWrite _ (by decide) (by decide))
  generalize (v0.flagBit 0x1400 0 0x10 1).w 0x1400 0 (leafSub r.leaf) 2 = v1 at he hflag
  generalize hv2 : v1.setStore { v1.cur.store with run := none } = v2 at he
  have hbox : (v2.w 0x1400 0 0x02 0).cur.ctl.inbox = [] := by
    rw [show (v2.w 0x1400 0 0x02 0).cur.ctl = v2.cur.ctl from v2.put_ctl .., ← hv2]
    show v1.cur.ctl.inbox = []
    rw [hflag.ctl_inbox (by simp), hkeep0.ctl_inbox (by simp)]
    exact hin
  refine saveEnd_told hc hd he hbox fun t ht => ?_
  have hend : Keeps (Span.told ++ [.all 0x1400 [0x02]]) [.result, .outs, .net, .time, .maps, .ctl, .power] v2.cur t :=
    Kept.trans (.step (Tx.saveTold_told _ _).1 (.w (.refl ..))) (ht.mono (fun _ h => h.elim) (by simp))
  have hnow : Keeps (Span.told ++ [.all 0x1400 [0x02, 0x07, 0x08, 0x10]])
      [.result, .outs, .net, .time, .maps, .ctl, .power, .store] v0.cur t := by
    refine .step hend ?_
    rw [← hv2]
    exact .setStore (.step hflag (.refl ..))
  refine ⟨?_, ?_, ?_, hnow.gOf.trans h0B⟩
  · rw [hend.store_run (by decide), ← hv2]
    rfl
  · rw [hend.store_leaf (by decide), ← hv2]
    show v1.cur.store.leaf r.leaf = _
    rw [hflag.store_leaf (by simp), hkeep0.store_leaf (by simp)]
    rfl
  · rw [hnow.gOf, hkeep0.gOf]
    rfl

/-- Settles O14. -/
theorem savesComplete : Obligations.SavesComplete := by
  unfold Obligations.SavesComplete
  refine ⟨fun s hc hr => ⟨fun h d hk => ?_, fun c hch h0 hl => ?_, fun h d hk => ?_, fun h n d hk => keyWrite_begins hc hr hk⟩,
    fun s r hc hd hr hin hl hn => ⟨fun hb => saveEnd_right hc hd hr hin hl hn hb, fun hb ha => saveEnd_again hc hd hr hb ha,
      fun ha => saveEnd_wrong hc hd hr hin hn ha⟩⟩
  · obtain ⟨t, r, ht, hb, hres⟩ := save_begins hc hr hk
    exact ⟨t, r, ht, hb.run, hb.leaf, hb.image.trans (State.saveImage_full s), hb.invalid, hb.shown, hres⟩
  · obtain ⟨t, r, ht, hb⟩ := autosave_begins hc hr hch h0 hl
    exact ⟨t, r, ht, hb.run, hb.leaf, hb.image.trans (State.saveImage_full s), hb.invalid, hb.shown⟩
  · obtain ⟨t, r, ht, hb⟩ := restoreDefaults_begins hc hr hk
    refine ⟨t, r, ht, hb.run, hb.leaf, hb.image.trans ?_, hb.invalid, hb.shown⟩
    unfold State.saveImage
    simp only [Bool.true_and, List.isEmpty_iff, if_true]

end Sys2Proof.Machine
end

section
/-! PROOFS. Owner tables (R422, R425). -/

namespace Sys2Proof.Machine
open Sys2Proof

set_option Elab.async false

variable {s0 s : State}

theorem lt_of_mabove {α : Type} {lo : ℕ} {m : List (ℕ × α)} (h : mabove lo m = true) : ∀ p ∈ m, lo < p.1 := by
  induction m with
  | nil => simp
  | cons q m ih =>
    obtain ⟨k, v⟩ := q
    simp only [mabove, Bool.and_eq_true, decide_eq_true_eq] at h
    intro p hp
    rcases List.mem_cons.mp hp with rfl | hp
    · exact h.1
    · exact ih (mabove_mono h.2 h.1.le) p hp

theorem mem_of_mget? {α : Type} {m : List (ℕ × α)} {k : ℕ} {v : α} (h : mget? m k = some v) : (k, v) ∈ m := by
  induction m with
  | nil => cases h
  | cons q m ih =>
    unfold mget? at h
    split at h
    · cases h
      subst k
      exact .head _
    · exact .tail _ (ih h)

/-- Tables written one after the other: each stands as it was written. -/
theorem Tx.tables_gb : ∀ {tabs : List (ℕ × Bytes)} (t : Tx s0), mwf tabs = true → (∀ p ∈ tabs, p.1 < 256) → ∀ {tb : ℕ} {b : Bytes},
    tb < 256 → mget? tabs tb = some b → (t.each tabs (fun t p => t.wb 0x1100 0 p.1 p.2)).cur.gb 0x1100 0 tb = b
  | [], _, _, _, _, _, _, hb => by cases hb
  | (k, v) :: r, t, hw, hk, tb, b, htb, hb => by
    have hr : mwf r = true := mwf_of_mabove hw
    show ((t.wb 0x1100 0 k v).each r (fun t p => t.wb 0x1100 0 p.1 p.2)).cur.gb 0x1100 0 tb = b
    unfold mget? at hb
    split at hb
    · subst tb
      have hkeep : Kept (fun j => ∃ p ∈ r, j = K 0x1100 0 p.1) [] (t.wb 0x1100 0 k v).cur
          ((t.wb 0x1100 0 k v).each r (fun t p => t.wb 0x1100 0 p.1 p.2)).cur :=
        .eachMem (fun u p hp => u.wb_kept _ _ _ _ ⟨p, hp, rfl⟩) (.refl ..)
      rw [hkeep.gb, State.gb_eq, Tx.wb_blob_same]
      · exact Option.some.inj hb
      · rintro ⟨p, hp, he⟩
        have hlt := lt_of_mabove hw p hp
        rw [K_inj (by decide) htb (by decide) (hk p (.tail _ hp))] at he
        omega
    · exact Tx.tables_gb _ hr (fun p hp => hk p (.tail _ hp)) htb hb

/-- With no commit pending, owner tables are taken. -/
theorem Tx.ownersTo_gb (t : Tx s0) {tabs : List (ℕ × Bytes)} (hc : t.cur.ctl.commit = none) (hw : mwf tabs = true)
    (hk : ∀ p ∈ tabs, p.1 < 256) {tb : ℕ} {b : Bytes} (htb : tb < 256) (hb : mget? tabs tb = some b) :
    (t.ownersTo tabs).cur.gb 0x1100 0 tb = b := by
  unfold Tx.ownersTo
  simp only [hc, Bool.false_eq_true, if_false]
  rw [(Tx.askSave_keeps ..).gbOf rfl, Tx.tables_gb _ hw hk htb hb]

/-- The tables that records of ASSIGN_RANGES lead to are listed in order, each under a number of one byte. -/
theorem assignRecords_wf (a : State) : ∀ (rs : List Bytes) {tabs out : List (ℕ × Bytes)}, mwf tabs = true → (∀ p ∈ tabs, p.1 < 256) →
    rs.foldl a.assignRecord (some tabs) = some out → mwf out = true ∧ ∀ p ∈ out, p.1 < 256
  | [], tabs, out, hw, hk, h => by cases h; exact ⟨hw, hk⟩
  | r :: rs, tabs, out, hw, hk, h => by
    rw [List.foldl_cons] at h
    have hnone : ∀ rs : List Bytes, rs.foldl a.assignRecord none = none := fun rs => by
      induction rs with
      | nil => rfl
      | cons r rs ih => exact ih
    cases hr : a.assignRecord (some tabs) r with
    | none => rw [hr, hnone] at h; cases h
    | some next =>
      rw [hr] at h
      unfold State.assignRecord at hr
      dsimp only at hr
      split at hr
      · cases hr
      · rename_i hcond
        simp only [Bool.or_eq_true, decide_eq_true_eq, not_or, Nat.not_lt] at hcond
        cases hr
        refine assignRecords_wf a rs (mwf_mset _ _ hw) (fun p hp => ?_) h
        rcases mem_mset hp with rfl | hp
        · exact Nat.lt_of_le_of_lt hcond.1.1.1.2 (by decide)
        · exact hk p hp

/-- Settles O15. -/
theorem ownersTake : Obligations.OwnersTake := by
  unfold Obligations.OwnersTake
  intro s hc hcom
  refine ⟨fun h sub d h1 hC hk hd => ?_, fun h d tabs hk hlen htabs => ?_⟩
  · have hsub : (if decide (0x01 ≤ sub) && decide (sub ≤ 0x0C) then sub else 0x01) = sub := if_pos (by simp [h1, hC])
    have hrule : ownerRule sub d ((Tx.start s).status stOK) = ((Tx.start s).status stOK).ownersTo [(sub, d)] := by
      refine if_neg ?_
      simp only [List.any_eq_true, decide_eq_true_eq, not_exists, not_and, Nat.not_lt]
      exact hd
    change ∃ t, execOwnerWrite h sub d s = .next t ∧ _
    unfold execOwnerWrite
    dsimp only
    rw [hsub]
    refine run_to (f := fun t => t.guarded h (opOf 0x1100 0 sub d) (ownerRule sub d)) hc _ ((guarded_start hk _).trans hrule)
      fun t ht => (ht.gb (by simp)).trans ?_
    exact Tx.ownersTo_gb _ hcom rfl (by simp; omega) (by omega) (by simp [mget?])
  · obtain ⟨hw, hk256⟩ := assignRecords_wf s _ (tabs := []) rfl (by simp) htabs
    have hrule : assignRule d ((Tx.start s).status stOK) = ((Tx.start s).status stOK).ownersTo tabs := by
      unfold assignRule
      have hrec : ((Tx.start s).status stOK).cur.assignRecord = s.assignRecord := rfl
      simp only [hlen, bne_self_eq_false, Bool.false_eq_true, if_false, hrec, htabs]
    have hu : (Tx.start s).guarded h (opOf 0x1100 0 0x0D d) (assignRule d) = ((Tx.start s).status stOK).ownersTo tabs :=
      (guarded_start hk _).trans hrule
    change ∃ t, execAssignRanges h d s = .next t ∧ _
    unfold execAssignRanges
    refine run_to (f := fun t => t.guarded h (opOf 0x1100 0 0x0D d) (assignRule d)) hc _ hu fun t ht tb b hb => (ht.gb (by simp)).trans ?_
    exact Tx.ownersTo_gb _ hcom hw hk256 (hk256 _ (mem_of_mget? hb)) hb

end Sys2Proof.Machine
end

section
/-! PROOFS. What a write that its checks pass says of its entry and its value: the entry exists, and holds the value. -/

namespace Sys2Proof.Machine
open Sys2Proof

set_option Elab.async false

variable {s0 s : State}

theorem leNat_lt (d : Bytes) : leNat d < 256 ^ d.length := by
  induction d with
  | nil => decide
  | cons b d ih =>
    have hb := b.isLt
    simp only [leNat, List.length_cons, Nat.pow_succ]
    omega

/-- A write in order is of an entry, and its value is one of the entry's type and range. -/
theorem State.writeCheck_ok {h : ℕ} {o : OpFields} (hk : s.writeCheck h o = stOK) :
    ∃ e, entryOf o.idx o.inst o.sub = some e ∧ s.accessCheck h o = stOK ∧
      (lengthOk e o.data = true ∨ ownLength o.idx o.sub = true) ∧ rangeOk s o.idx o.inst e o.data = true := by
  unfold State.writeCheck at hk
  dsimp only at hk
  split at hk
  · rename_i hac
    rw [bne_iff_ne] at hac
    exact absurd hk hac
  · rename_i hac
    have hac : s.accessCheck h o = stOK := by simpa using hac
    split at hk
    · cases hk
    · rename_i e he
      refine ⟨e, he, hac, ?_⟩
      split at hk
      · cases hk
      · rename_i hl
        split at hk
        · cases hk
        · rename_i hr
          refine ⟨?_, by simpa using hr⟩
          cases hlen : lengthOk e o.data
          · right
            simpa [hlen] using hl
          · exact .inl rfl

theorem entryOf_ent {i n c k : ℕ} {e e' : Entry} (h : entryOf i n c = some e') (he : entOf i c = some (k, e)) : n < k ∧ e' = e := by
  unfold entOf at he
  unfold entryOf at h
  cases hb : blockOf i with
  | none => simp [hb] at h
  | some b =>
    rw [hb] at h he
    dsimp only at h
    split at h
    · rename_i hn
      rw [Option.bind_some, h] at he
      simp only [Option.map_some, Option.some.injEq, Prod.mk.injEq] at he
      exact ⟨he.1 ▸ hn, he.2⟩
    · cases h

/-- What a write in order says of an instance and a value, for an entry of the block. -/
theorem writeCheck_ent {h i n c k : ℕ} {e : Entry} {d : Bytes} (hk : s.writeCheck h (opOf i n c d) = stOK)
    (he : entOf i c = some (k, e)) : n < k ∧ (lengthOk e d = true ∨ ownLength i c = true) ∧ rangeOk s i n e d = true := by
  obtain ⟨e', he', -, hl, hr⟩ := State.writeCheck_ok hk
  obtain ⟨hn, rfl⟩ := entryOf_ent he' he
  exact ⟨hn, hl, hr⟩

/-- A value in order fits its entry. -/
theorem fit_written {i n : ℕ} {e : Entry} {d : Bytes} (ha : e.acc ≠ .w1c) (hb : e.ty.isBytes = false)
    (hl : lengthOk e d = true) (hr : rangeOk s i n e d = true) : fit e (leNat d) = leNat d := by
  have hlt := leNat_lt d
  refine fit_of_lt ha ?_
  unfold lengthOk at hl
  unfold rangeOk at hr
  cases hty : e.ty <;> rw [hty] at hb hl hr <;> simp only [beq_iff_eq] at hl
  case str => cases hb
  case blob => cases hb
  case bool =>
    have hw : (e.acc == Access.w1c) = false := by simpa using ha
    simp only [hw, Bool.false_eq_true, if_false, Bool.and_eq_true, typeOk, decide_eq_true_eq] at hr
    show leNat d < 2
    omega
  all_goals
    rw [hl] at hlt
    exact hlt

/-- An entry that takes the value of a write in order holds it. -/
theorem Tx.w_written (t : Tx s0) {h i n c k : ℕ} {e : Entry} {d : Bytes} (hk : s.writeCheck h (opOf i n c d) = stOK)
    (he : entOf i c = some (k, e)) (ha : e.acc ≠ .w1c := by decide) (hb : e.ty.isBytes = false := by rfl)
    (ho : ownLength i c = false := by rfl) (h64 : k ≤ 65536 := by decide) (hc : c < 256 := by decide) :
    (t.w i n c (leNat d)).cur.g i n c = leNat d := by
  obtain ⟨hn, hl, hr⟩ := writeCheck_ent hk he
  exact Tx.w_g_of _ (entryAt_ent hn he h64 hc) (fit_written ha hb (hl.resolve_right (by rw [ho]; decide)) hr)

end Sys2Proof.Machine
end

section
/-! PROOFS. Pushes, flushes, transform entries, depths and repacks (R42 to R49, R56, R106 to R109). -/

namespace Sys2Proof.Machine
open Sys2Proof

set_option Elab.async false

variable {s0 s : State}

/-! ## Pushes -/

theorem mem_insertKf (k : Keyframe) (q : List Keyframe) : k ∈ (insertKf k q).2 := by
  induction q with
  | nil => simp [insertKf]
  | cons p q ih =>
    unfold insertKf
    split
    · exact .head _
    · split
      · exact .head _
      · exact .tail _ ih

theorem Tx.setTrack_track (t : Tx s0) (n : ℕ) (x : Track) (j : ℕ) :
    (t.setTrack n x).cur.track j = if j = n then x else t.cur.track j := mget_mputD ..

theorem State.track_congr {a b : State} (h : b.scene.tracks = a.scene.tracks) (n : ℕ) : b.track n = a.track n := by
  unfold State.track
  rw [h]

theorem mem_queue_of_scene {a b : State} {n : ℕ} {k : Keyframe} (h : b.scene = a.scene) (hk : k ∈ (a.track n).queue) :
    k ∈ (b.track n).queue := by rwa [State.track_congr (congrArg Scene.tracks h)]

theorem Tx.numbered_track (t : Tx s0) (x j : ℕ) : (t.setScene { t.cur.scene with accNext := x }).cur.track j = t.cur.track j := rfl

/-- A record that passes its checks and finds a place stands in its object's queue. -/
theorem pushRecord_queued (who : Option ℕ) (a i : ℕ) (r : Bytes) (x : Tx s0 × Push) (hk : x.1.cur.recordCheck who a r = stOK)
    (hq : (x.1.cur.track (fieldLE r 0 2)).queue.length < 256) :
    ∃ k ∈ ((pushRecord who a i r x).1.cur.track (fieldLE r 0 2)).queue, k.time = (x.1.cur.effective who a r).1 ∧
      k.tag = fieldLE r 4 4 ∧ k.vals = recordVals r := by
  obtain ⟨t, p⟩ := x
  dsimp only at hk hq
  unfold pushRecord
  simp only [hk, bne_self_eq_false, Bool.false_eq_true, if_false]
  generalize hkept : (if bit (fieldLE r 3 1) 4 = true then
    (t.cur.track (fieldLE r 0 2)).queue.filter (fun q => q.time ≤ (t.cur.effective who a r).1)
    else (t.cur.track (fieldLE r 0 2)).queue) = kept
  have hlen : ¬ 256 ≤ kept.length := by
    rw [← hkept]
    split
    · exact Nat.not_le.mpr (Nat.lt_of_le_of_lt (List.length_filter_le ..) hq)
    · exact Nat.not_le.mpr hq
  simp only [hlen, decide_false, Bool.and_false, Bool.false_eq_true, if_false]
  refine ⟨⟨(t.cur.effective who a r).1, t.cur.scene.accNext, fieldLE r 2 1, fieldLE r 3 1, fieldLE r 4 4, recordVals r⟩, ?_, rfl,
    rfl, rfl⟩
  refine mem_queue_of_scene (Kept.scene (E := Keys [.all 0x2000 [0x14, 0x15, 0x17], .all 0x2800 [0x0E], .all 0x5400 [0x17], .ctr 3 3])
    (M := []) (.when (fun _ => .tally (.refl ..)) (.when (fun _ => .msg (.tally (.flagBit (.tally (.refl ..)))))
      (.when (fun _ => .flagBit (.tally (.refl ..))) (.when (fun _ => .flagBit (.refl ..)) (.refl ..))))) (by simp)) ?_
  rw [Tx.numbered_track, Tx.setTrack_track, if_pos rfl]
  exact mem_insertKf ..

theorem chunksGo_length (n : ℕ) : ∀ (f m : ℕ) (l : Bytes), l.length = (n + 1) * m → l.length ≤ f → (chunksGo (n + 1) f l).length = m
  | 0, m, l, hm, hf => by
    have hm0 : m = 0 := by
      rcases Nat.mul_eq_zero.mp (hm.symm.trans (by omega : l.length = 0)) with h | h
      · omega
      · exact h
    rw [hm0]
    rfl
  | f + 1, 0, l, hm, hf => by
    have hl : l = [] := List.eq_nil_of_length_eq_zero (by omega)
    rw [hl]
    rfl
  | f + 1, m + 1, l, hm, hf => by
    have hmul : (n + 1) * (m + 1) = (n + 1) * m + (n + 1) := Nat.mul_succ ..
    have hne : l.isEmpty = false := by
      cases l with
      | nil => simp at hm
      | cons b l => rfl
    unfold chunksGo
    rw [hne, if_neg (by decide), List.length_cons,
      chunksGo_length n f m (l.drop (n + 1)) (by rw [List.length_drop]; omega) (by rw [List.length_drop]; omega)]

theorem chunks_length {n : ℕ} {l : Bytes} (h : l.length % (n + 1) = 0) : (chunks (n + 1) l).length = l.length / (n + 1) :=
  chunksGo_length n _ _ l (by have := Nat.div_add_mod l.length (n + 1); omega) le_rfl

theorem chunks_one {n : ℕ} {l : Bytes} (h : l.length = n + 1) : chunks (n + 1) l = [l] := by
  have hne : l.isEmpty = false := by
    cases l with
    | nil => simp at h
    | cons b l => rfl
  unfold chunks
  rw [h]
  unfold chunksGo
  rw [hne, if_neg (by decide), ← h, List.take_length, List.drop_length]
  cases n <;> rfl

/-- What a push reports between its number of records and its acceptance time (Table 2.9). -/
def Tx.pushCounts (t : Tx s0) (h : ℕ) (p : Push) : Tx s0 :=
  let t := ((t.w 0x2401 h 0x03 p.onTime).w 0x2401 h 0x04 p.late).w 0x2401 h 0x05 p.refused
  (t.w 0x2401 h 0x06 (p.first.getD (0xFFFF, 0)).1).w 0x2401 h 0x07 (p.first.getD (0xFFFF, 0)).2

/-- What a push reports after its acceptance time, and the records that the head sends on. -/
def Tx.pushEnds (t : Tx s0) (h : ℕ) (p : Push) : Tx s0 :=
  let t := t.w 0x2401 h 0x09 p.replaced
  let t := (t.w 0x2401 h 0x0A (min p.flushed 65535)).inc 0x2401 h 0x0C p.late
  let t := t.flag 0x2401 h 0x0B (b2n (p.late != 0) + 2 * b2n (p.refused != 0) + 4 * b2n p.busy)
  let t := t.when (!p.records.isEmpty) (fun t => t.sprkData p.records)
  match p.first with
  | some f => t.status f.2
  | none => t.status (if p.late != 0 then stTooLate else stOK)

theorem Tx.pushCounts_keeps (t : Tx s0) (h : ℕ) (p : Push) :
    Keeps [.all 0x2401 [0x03, 0x04, 0x05, 0x06, 0x07]] [] t.cur (t.pushCounts h p).cur := .w (.w (.w (.w (.w (.refl ..)))))

theorem Tx.pushEnds_keeps (t : Tx s0) (h : ℕ) (p : Push) :
    Keeps (Span.sends ++ [.all 0x2401 [0x09, 0x0A, 0x0B, 0x0C], .all 0x5400 [0x10]]) [.result, .outs, .net, .time, .sprk] t.cur
      (t.pushEnds h p).cur := by
  dsimp only [Tx.pushEnds]
  split
  · exact .status (.when (fun _ => .step (Tx.sprkData_keeps ..) (.refl ..)) (.flag (.inc (.w (.w (.refl ..))))))
  · exact .status (.when (fun _ => .step (Tx.sprkData_keeps ..) (.refl ..)) (.flag (.inc (.w (.w (.refl ..))))))

/-- A push of whole records. -/
theorem pushRule_eq {h : ℕ} {d : Bytes} (hlen : d.length % 56 = 0) (t : Tx s0) : pushRule h d t =
    (((((t.pushAll (some h) t.cur.now (chunks 56 d)).1.w 0x2401 h 0x01 (fieldLE d 4 4)).w 0x2401 h 0x02 (chunks 56 d).length).pushCounts
      h (t.pushAll (some h) t.cur.now (chunks 56 d)).2).w 0x2401 h 0x08 t.cur.now).pushEnds h
      (t.pushAll (some h) t.cur.now (chunks 56 d)).2 := by
  unfold pushRule
  rw [if_neg (by simp [hlen])]
  rfl

theorem push_reports (hc : s.clocked = true) {h : ℕ} {d : Bytes} (hh : h < 8) (hk : s.writeCheck h (opOf 0x2400 0 0x01 d) = stOK)
    (hlen : d.length % 56 = 0) :
    ∃ t, exec (.keyframePush h d) s = .next t ∧ t.g 0x2401 h 0x02 = d.length / 56 % 65536 ∧ t.g 0x2401 h 0x08 = s.now % 2 ^ 64 ∧
      (d.length = 56 → s.recordCheck (some h) s.now d = stOK → (s.track (fieldLE d 0 2)).queue.length < 256 →
        ∃ k ∈ (t.track (fieldLE d 0 2)).queue, k.time = (s.effective (some h) s.now d).1 ∧ k.tag = fieldLE d 4 4 ∧
          k.vals = recordVals d) := by
  obtain ⟨t, ht, hend⟩ := run_to (f := fun t => t.guarded h (opOf 0x2400 0 0x01 d) (pushRule h d))
    (P := fun t => Kept (fun _ => False) [] (pushRule h d ((Tx.start s).status stOK)).cur t) hc _ (guarded_start hk _) fun t ht => ht
  refine ⟨t, ht, ?_⟩
  generalize hu : (Tx.start s).status stOK = u at hend
  have hnow : u.cur.now = s.now := by rw [← hu]; rfl
  rw [pushRule_eq hlen, hnow, chunks_length hlen] at hend
  generalize hx : u.pushAll (some h) s.now (chunks 56 d) = x at hend
  generalize hv1 : x.1.w 0x2401 h 0x01 (fieldLE d 4 4) = v1 at hend
  have hcounts := (v1.w 0x2401 h 0x02 (d.length / 56)).pushCounts_keeps h x.2
  generalize hv2 : (v1.w 0x2401 h 0x02 (d.length / 56)).pushCounts h x.2 = v2 at hend hcounts
  have hends : Keeps (Span.sends ++ [.all 0x2401 [0x09, 0x0A, 0x0B, 0x0C], .all 0x5400 [0x10]]) [.result, .outs, .net, .time, .sprk]
      (v2.w 0x2401 h 0x08 s.now).cur t := ((v2.w 0x2401 h 0x08 s.now).pushEnds_keeps h x.2).trans (hend.mono (fun _ h => h.elim) (by simp))
  refine ⟨?_, ?_, fun h56 hrec hq => ?_⟩
  · have h8 : Keeps [.all 0x2401 [0x08]] [] v2.cur (v2.w 0x2401 h 0x08 s.now).cur := .w (.refl ..)
    rw [hends.gOf, h8.gOf, hcounts.gOf]
    exact Tx.w_get_same v1 (d.length / 56) (entryAt_ent (i := 0x2401) (c := 0x02) hh rfl)
  · rw [hends.gOf]
    exact Tx.w_get_same v2 s.now (entryAt_ent (i := 0x2401) (c := 0x08) hh rfl)
  · have hx1 : x = pushRecord (some h) s.now 0 d (u, Push.init) := by
      rw [← hx, chunks_one h56]
      rfl
    have heff : u.cur.effective (some h) s.now d = s.effective (some h) s.now d := by rw [← hu]; rfl
    have hrec' : u.cur.recordCheck (some h) s.now d = stOK := by
      rw [← hrec, ← hu]
      rfl
    obtain ⟨k, hk, htime, htag, hvals⟩ := pushRecord_queued (some h) s.now 0 d (u, Push.init) hrec' (by rw [← hu]; exact hq)
    rw [← hx1] at hk
    rw [heff] at htime
    have hscene : t.scene = x.1.cur.scene := by
      have h1 : Keeps [.all 0x2401 [0x01, 0x02, 0x08]] [] x.1.cur (v1.w 0x2401 h 0x02 (d.length / 56)).cur := by
        rw [← hv1]
        exact .w (.w (.refl ..))
      have h8 : Keeps [.all 0x2401 [0x08]] [] v2.cur (v2.w 0x2401 h 0x08 s.now).cur := .w (.refl ..)
      rw [hends.scene (by decide), h8.scene (by decide), hcounts.scene (by decide), h1.scene (by decide)]
    exact ⟨k, mem_queue_of_scene hscene hk, htime, htag, hvals⟩

/-! ## Queues, transform, depths and repacks -/

/-- A flush leaves the keyframes accepted from a number on. -/
theorem Tx.flushQueue_queue (t : Tx s0) (n before : ℕ) :
    ((t.flushQueue n before).cur.track n).queue = (t.cur.track n).queue.filter (fun q => before ≤ q.acc) := by
  unfold Tx.flushQueue
  dsimp only
  split
  · rename_i h
    exact (List.filter_eq_self.mpr (List.length_filter_eq_length_iff.mp (eq_of_beq h))).symm
  · have hflag : ∀ v : Tx s0, (v.flagBit 0x2000 n 0x17 4).cur.scene = v.cur.scene := fun v =>
      Kept.scene (E := Keys [.all 0x2000 [0x17]]) (M := []) (.flagBit (.refl ..)) (by simp)
    rw [State.track_congr (congrArg Scene.tracks (hflag _)), Tx.setTrack_track, if_pos rfl]

theorem flush_deletes (hc : s.clocked = true) {h n : ℕ} {d : Bytes} (hk : s.writeCheck h (opOf 0x2000 n 0x0B d) = stOK)
    (hr : s.replicated n = false) : ∃ t, exec (.flushQueue h n d) s = .next t ∧
      (t.track n).queue = (s.track n).queue.filter (fun k => s.scene.accNext ≤ k.acc) := by
  have hr' : ((Tx.start s).status stOK).cur.replicated n = false := hr
  have hrule : objectRule n 0x0B d ((Tx.start s).status stOK) = ((Tx.start s).status stOK).flushQueue n s.scene.accNext := by
    unfold objectRule
    simp only [hr', Bool.and_false, Bool.false_eq_true, if_false]
    rfl
  refine run_to (f := fun t => t.guarded h (opOf 0x2000 n 0x0B d) (objectRule n 0x0B d)) hc _ ((guarded_start hk _).trans hrule)
    fun t ht => ?_
  rw [State.track_congr (congrArg Scene.tracks (ht.scene (by simp))), Tx.flushQueue_queue]
  rfl

theorem transform_glides (hc : s.clocked = true) {h sub : ℕ} {d : Bytes} (h1 : 1 ≤ sub) (h4 : sub ≤ 4)
    (hk : s.writeCheck h (opOf 0x2800 0 sub d) = stOK) :
    ∃ t, exec (.transformWrite h sub d) s = .next t ∧ t.g 0x2800 0 sub = leNat d ∧ t.scene.glideP = s.scene.xf ∧
      t.scene.glideJ = 0 ∧ t.scene.glideN = max 1 (ceilDiv (s.g 0x2800 0 0x05) 16) := by
  have hcond : (decide (1 ≤ sub) && decide (sub ≤ 4)) = true := by simp [h1, h4]
  have hent : ∃ e, entOf 0x2800 sub = some (1, e) ∧ e.acc ≠ .w1c ∧ e.ty.isBytes = false := by
    interval_cases sub <;> exact ⟨_, rfl, by decide, rfl⟩
  obtain ⟨e, he, ha, hb⟩ := hent
  have hown : ownLength 0x2800 sub = false := rfl
  let u := ((Tx.start s).status stOK).w 0x2800 0 sub (leNat d)
  have h5 : u.g 0x2800 0 0x05 = s.g 0x2800 0 0x05 := by
    refine (Tx.w_get_other _ _ ?_).trans rfl
    rw [Ne, K_inj (by decide) (by decide) (by decide) (by omega)]
    omega
  change ∃ t, execTransformWrite h sub d s = .next t ∧ _
  unfold execTransformWrite
  refine run_to hc (transformRule sub d ((Tx.start s).status stOK)) (by simp only [hcond, if_true]; exact guarded_start hk _)
    fun t ht => ?_
  have hscene := ht.scene (by simp)
  refine ⟨?_, ?_, ?_, ?_⟩
  · have hn : noted (K 0x2800 0 sub) = false := by
      unfold noted
      rw [kIdx_of_K]
      rfl
    rw [ht.g (by simp) hn]
    exact Tx.w_written ((Tx.start s).status stOK) hk he ha hb hown (by decide) (by omega)
  · rw [hscene]
    rfl
  · rw [hscene]
    rfl
  · rw [hscene]
    exact congrArg (fun v => max 1 (ceilDiv v 16)) h5

/-- A depth that fits and finds a place waits for its boundary. -/
theorem depthRule_waits {t : Tx s0} {n b : ℕ} {d : Bytes} (hn : n < t.cur.objects) (hbusy : t.cur.on 0x3400 0 0x07 = false)
    (hfit : sumN (((List.range t.cur.objects).filter (· != n)).map (fun i => t.cur.g 0x2000 i 0x08)) + leNat d ≤ furrowCells)
    (hne : leNat d ≠ t.cur.g 0x2000 n 0x08) (hpend : ∀ p ∈ t.cur.render.pend, p.obj = n → p.land ≠ nextEval t.cur.now)
    (hal : allocate (t.cur.regions [n]) (leNat d) = some b) :
    ∃ l, depthRule n d t = (((t.setRender { t.cur.render with
      pend := t.cur.render.pend ++ [⟨n, leNat d, b, nextEval t.cur.now⟩], lands := l }).w 0x2000 n 0x08 (leNat d)).showPending
        n).furrowStats := by
  have hnone : ∀ p ∈ t.cur.render.pend, (p.obj == n && p.land == nextEval t.cur.now) = false := fun p hp => by
    simp only [Bool.and_eq_false_iff, beq_eq_false_iff_ne]
    by_cases hj : p.obj = n
    · exact .inr (hpend p hp hj)
    · exact .inl hj
  have hrest : t.cur.render.pend.filter (fun p => !(p.obj == n && p.land == nextEval t.cur.now)) = t.cur.render.pend :=
    List.filter_eq_self.mpr fun p hp => by rw [hnone p hp]; rfl
  have hany : t.cur.render.pend.any (fun p => p.obj == n && p.land == nextEval t.cur.now) = false :=
    List.any_eq_false.mpr fun p hp => by rw [hnone p hp]; decide
  have hfits : ¬ furrowCells < sumN (((List.range t.cur.objects).filter (· != n)).map (fun i => t.cur.g 0x2000 i 0x08)) + leNat d := by
    omega
  unfold depthRule
  dsimp only
  rw [hrest, hany]
  simp only [if_pos hn, if_neg hfits, if_neg (Nat.not_le.mpr hn), hbusy, beq_eq_false_iff_ne.mpr hne, Bool.false_and,
    Bool.false_eq_true, if_false, hal]
  exact ⟨_, rfl⟩

theorem depth_waits (hc : s.clocked = true) {h n b : ℕ} {d : Bytes} (hk : s.writeCheck h (opOf 0x2000 n 0x08 d) = stOK)
    (hn : n < s.objects) (hbusy : s.on 0x3400 0 0x07 = false)
    (hfit : sumN (((List.range s.objects).filter (· != n)).map (fun i => s.g 0x2000 i 0x08)) + leNat d ≤ furrowCells)
    (hne : leNat d ≠ s.g 0x2000 n 0x08) (hpend : ∀ p ∈ s.render.pend, p.obj = n → p.land ≠ nextEval s.now)
    (hal : allocate (s.regions [n]) (leNat d) = some b) :
    ∃ t, exec (.depthWrite h n d) s = .next t ∧ t.g 0x2000 n 0x08 = leNat d ∧
      t.render.pend = s.render.pend ++ [⟨n, leNat d, b, nextEval s.now⟩] := by
  obtain ⟨x, hx⟩ := depthRule_waits (t := (Tx.start s).status stOK) hn hbusy hfit hne hpend hal
  refine run_to (f := fun t => t.guarded h (opOf 0x2000 n 0x08 d) (depthRule n d)) hc _ ((guarded_start hk _).trans hx)
    fun t ht => ?_
  have hshow : Keeps [.all 0x3400 [0x03, 0x04, 0x05], .all 0x3410 [0x03, 0x04, 0x07]] [] _ t :=
    Kept.trans (.step (Tx.furrowStats_keeps ..) (.step (Tx.showPending_keeps ..) (.refl ..))) (ht.mono (fun _ h => h.elim) (by simp))
  refine ⟨?_, ?_⟩
  · rw [hshow.gOf]
    exact Tx.w_written _ hk rfl
  · rw [hshow.render (by simp)]
    rfl

theorem repack_waits (hc : s.clocked = true) {h : ℕ} {d : Bytes} (hk : s.writeCheck h (opOf 0x3400 0 0x06 d) = stOK)
    (hbusy : s.on 0x3400 0 0x07 = false) :
    ∃ t, exec (.repack h d) s = .next t ∧ t.render.repack = some (nextEval s.now) ∧ t.g 0x3400 0 0x07 = 1 := by
  have hrule : repackRule ((Tx.start s).status stOK) = (((Tx.start s).status stOK).setRender
      { s.render with repack := some (nextEval s.now) }).w 0x3400 0 0x07 1 := by
    have hbusy' : ((Tx.start s).status stOK).on 0x3400 0 0x07 = false := hbusy
    unfold repackRule
    rw [hbusy', if_neg (by decide)]
    rfl
  refine run_to (f := fun t => t.guarded h (opOf 0x3400 0 0x06 d) repackRule) hc _ ((guarded_start hk _).trans hrule)
    fun t ht => ⟨?_, ?_⟩
  · rw [ht.render (by simp)]
    rfl
  · rw [ht.g (by simp) (noted_of_apart (l := []) (by decide))]
    exact Tx.w_g_of (i := 0x3400) (c := 0x07) _ (entryAt_ent (by decide : 0 < 1) rfl) rfl

/-- Settles O16. -/
theorem sceneComplete : Obligations.SceneComplete := by
  unfold Obligations.SceneComplete
  exact ⟨fun s h d hc hh hk hlen => push_reports hc hh hk hlen, fun s hc => ⟨fun h n d hk hr => flush_deletes hc hk hr,
    fun h sub d h1 h4 hk => transform_glides hc h1 h4 hk,
    fun h n d b hk hn hbusy hfit hne hpend hal => depth_waits hc hk hn hbusy hfit hne hpend hal,
    fun h d hk hbusy => repack_waits hc hk hbusy⟩⟩

end Sys2Proof.Machine
end

section
/-! PROOFS. Evaluation windows, the render window and Furrow changes (R83, R90, R93, R104, R107, R109). -/

namespace Sys2Proof.Machine
open Sys2Proof

set_option Elab.async false

variable {s0 s : State}

theorem Tx.geometryEval_reports (t : Tx s0) (v : State) (B : ℕ) : (t.geometryEval v B).cur.geo.last = some B ∧
    (t.geometryEval v B).cur.geo.report.isSome = true := by
  unfold Tx.geometryEval
  exact ⟨rfl, rfl⟩

theorem windowOpen_evaluates (hc : s.clocked = true) (hd : s.windowDue = true) (bad : List CacheFault) :
    ∃ t, exec (.evaluationWindowOpen bad) s = .next t ∧ t.geo.last = some (s.now + 32) ∧ t.geo.report.isSome = true ∧
      t.now = s.now := by
  have hrun : ∃ t, exec (.evaluationWindowOpen bad) s = .next t ∧ t.geo.last = some (s.now + 32) ∧ t.geo.report.isSome = true := by
    change ∃ t, execEvaluationWindowOpen bad s = .next t ∧ _
    unfold execEvaluationWindowOpen
    refine run_to hc _ (if_pos hd) fun t ht => ?_
    obtain ⟨hl, hr⟩ := Tx.geometryEval_reports ((((Tx.start s).windowClose.each bad (fun t f => t.cacheFault s.inputs f)).landControls
      (s.now + 32)).sceneEval (s.windowInputs bad (s.now + 32)) (s.now + 32)) (s.windowInputs bad (s.now + 32)) (s.now + 32)
    have hgeo := ht.geo (by simp)
    exact ⟨(congrArg Geo.last hgeo).trans hl, (congrArg (fun g : Geo => g.report.isSome) hgeo).trans hr⟩
  obtain ⟨t, ht, hl, hr⟩ := hrun
  exact ⟨t, ht, hl, hr, ((execEvaluationWindowOpen_kept ht).clock (by decide)).1⟩

theorem Tx.windowClose_geo (t : Tx s0) {rep : Report} (hr : t.cur.geo.report = some rep) :
    t.windowClose.cur.geo = { t.cur.geo with report := none } := by
  have hkeep : ∀ (t : Tx s0) (i n c k : ℕ), (t.count i n c k).cur.geo = t.cur.geo := fun t i n c k => by
    unfold Tx.count
    dsimp only
    split
    · exact ((Tx.put_geo ..).trans (Tx.setSets_geo ..)).trans (Tx.put_geo ..)
    · exact Tx.put_geo ..
  unfold Tx.windowClose
  rw [hr]
  dsimp only
  rw [(Tx.scenePublish_keeps _).geo (by decide)]
  refine congrArg (fun g : Geo => { g with report := none }) ?_
  have hmsg : ∀ (t : Tx s0) (c : Bool) (p : Bytes), (t.when c (fun t => t.msg 5 p)).cur.geo = t.cur.geo := fun t c p => by
    unfold Tx.when
    split <;> rfl
  have hpeak : ∀ (t : Tx s0) (v : ℕ), (t.peak 0x3300 0 0x11 v).cur.geo = t.cur.geo := fun t v => by
    unfold Tx.peak
    split
    · exact Tx.put_geo ..
    · rfl
  rw [hmsg, hpeak]
  refine Tx.each_inv (P := fun a => a.geo = t.cur.geo) _ ?_ fun u p hu => ?_
  · refine Tx.each_inv (P := fun a => a.geo = t.cur.geo) _ ?_ fun u p hu => ?_
    · exact Tx.each_inv (P := fun a => a.geo = t.cur.geo) _ rfl fun u p hu => (u.put_geo ..).trans hu
    · split
      · exact hu
      · exact (hkeep ..).trans hu
  · split
    · exact hu
    · exact ((Tx.put_geo ..).trans (Tx.setSets_geo ..)).trans hu

theorem windowClose_closes (hc : s.clocked = true) {b : ℕ} {rep : Report} (hl : s.geo.last = some b) (hb : b ≤ s.now + 16)
    (hr : s.geo.report = some rep) :
    ∃ t, exec .evaluationWindowClose s = .next t ∧ t.geo = { s.geo with report := none } := by
  change ∃ t, execEvaluationWindowClose s = .next t ∧ _
  unfold execEvaluationWindowClose
  exact run_to hc (Tx.start s).windowClose (by simp only [hl, if_pos hb]) fun t ht =>
    (ht.geo (by simp)).trans (Tx.windowClose_geo _ hr)

theorem renderWindow_renders (hc : s.clocked = true) (cells words : List ℕ) (hr : s.engines.running = true) (hn : s.now % 16 = 3)
    (hb : s.render.blockEnd ≠ some (s.now - 3)) :
    ∃ t, exec (.renderWindow cells words) s = .next t ∧ t.render.blockEnd = some (s.now - 3) ∧
      t.g 0x3400 0 0x01 = (s.g 0x3400 0 0x01 + 1) % 2 ^ 32 := by
  have hcond : (s.engines.running && s.now % 16 == 3 && s.render.blockEnd != some (s.now - 3)) = true := by simp [hr, hn, hb]
  change ∃ t, execRenderWindow cells words s = .next t ∧ _
  unfold execRenderWindow
  refine run_to hc (((Tx.start s).renderBlock (s.now - 3) cells words).correctBlock (s.now - 3)) (if_pos hcond) fun t ht => ?_
  have hend : Keeps [] [.corr] ((Tx.start s).renderBlock (s.now - 3) cells words).cur t :=
    (Tx.correctBlock_keeps ..).trans (ht.mono (fun _ h => h.elim) (by simp))
  rw [hend.gOf, hend.render (by decide)]
  have hblock : ∃ v : Tx s, v.cur.g 0x3400 0 0x01 = s.g 0x3400 0 0x01 ∧
      Keeps [.all 0x3400 [0x02]] [] (v.tally 0x3400 0 0x01).cur ((Tx.start s).renderBlock (s.now - 3) cells words).cur ∧
      v.cur.render.blockEnd = some (s.now - 3) := by
    unfold Tx.renderBlock
    refine ⟨_, ?_, .msg (.w (.refl ..)), rfl⟩
    refine Kept.gOf (l := [.all 0x3400 [0x0C, 0x0D, 0x0E, 0x0F, 0x10, 0x11], .all 0x3410 [0x08, 0x09, 0x0A, 0x0B], .all 0x3500 [0x01, 0x02,
      0x03, 0x04, 0x05, 0x06], .all 0x6100 [0x03, 0x05, 0x09], .ctr 0 0, .ctr 249 249, .ctr 255 255])
      (M := [.result, .outs, .geo, .render]) (.setRender (.each (fun _ _ => .step (Tx.reportObject_keeps ..) (.each (fun _ _ => .step
        (Tx.sramBad_keeps ..) (.refl ..)) (.refl ..))) (.each (fun _ _ => .step (Tx.reportOutput_keeps ..) (.refl ..)) (.each
        (fun _ _ => .step (Tx.reportOutput_keeps ..) (.refl ..)) (.step (Tx.badTargets_keeps ..)
        (Tx.start_kept s (by decide) (by decide)))))))
  obtain ⟨v, hv, htail, hrender⟩ := hblock
  have hcount : (v.tally 0x3400 0 0x01).cur.render = v.cur.render :=
    Kept.render (E := Keys [.all 0x3400 [0x01], .ctr 0 0]) (M := []) (.tally (.refl ..)) (by simp)
  refine ⟨?_, ?_⟩
  · rw [htail.render (by simp), hcount, hrender]
  · rw [htail.gOf, Tx.tally_g (i := 0x3400) (c := 0x01) v (entryAt_ent (by decide : 0 < 1) rfl) (by decide), hv]
    rfl

/-- Furrow changes land: those that wait past the boundary stay, and a repack due then is over. -/
theorem Tx.landFurrows_lands (t : Tx s0) (L : ℕ) :
    (t.landFurrows L).cur.render.pend = t.cur.render.pend.filter (fun p => L < p.land) ∧
    (t.cur.render.repack = some L → (t.landFurrows L).cur.render.repack = none ∧ (t.landFurrows L).cur.g 0x3400 0 0x07 = 0 ∧
      (t.landFurrows L).cur.g 0x3400 0 0x08 = L % 2 ^ 64) := by
  unfold Tx.landFurrows
  dsimp only
  generalize t.each (t.cur.landings L) (fun t x => t.landFurrow L x) = v
  generalize hw : v.setRender _ = w
  generalize nub ((t.cur.landings L).map (·.obj)) = ns
  have hshow : Keeps [.all 0x3410 [0x03, 0x04, 0x07]] [] w.cur (w.each ns (fun t n => t.showPending n)).cur :=
    .each (fun _ _ => .step (Tx.showPending_keeps ..) (.refl ..)) (.refl ..)
  generalize w.each ns (fun t n => t.showPending n) = x at hshow
  generalize ((t.cur.landings L).filter (·.moved)).length = m
  have hrep : Keeps [.all 0x3400 [0x07, 0x08, 0x09, 0x11]] [] x.cur (x.when (t.cur.render.repack == some L) (fun t =>
      (((t.w 0x3400 0 0x07 0).w 0x3400 0 0x08 L).w 0x3400 0 0x09 m).flagBit 0x3400 0 0x11 6)).cur :=
    .when (fun _ => .flagBit (.w (.w (.w (.refl ..))))) (.refl ..)
  refine ⟨?_, fun hr => ?_⟩
  · rw [(Tx.furrowStats_keeps _).render (by simp), hrep.render (by simp), hshow.render (by simp), ← hw]
    rfl
  · have hon : (t.cur.render.repack == some L) = true := by simp [hr]
    refine ⟨?_, ?_, ?_⟩
    · rw [(Tx.furrowStats_keeps _).render (by simp), hrep.render (by simp), hshow.render (by simp), ← hw]
      show (if (t.cur.render.repack == some L) = true then none else t.cur.render.repack) = none
      rw [if_pos hon]
    · rw [(Tx.furrowStats_keeps _).gOf, hon]
      show ((((x.w 0x3400 0 0x07 0).w 0x3400 0 0x08 L).w 0x3400 0 0x09 m).flagBit 0x3400 0 0x11 6).cur.g 0x3400 0 0x07 = 0
      rw [Kept.gOf (l := [.all 0x3400 [0x08, 0x09, 0x11]]) (M := []) (.flagBit (.w (.w (.refl ..))))]
      exact Tx.w_g_of (i := 0x3400) (c := 0x07) _ (entryAt_ent (by decide : 0 < 1) rfl) rfl
    · rw [(Tx.furrowStats_keeps _).gOf, hon]
      show ((((x.w 0x3400 0 0x07 0).w 0x3400 0 0x08 L).w 0x3400 0 0x09 m).flagBit 0x3400 0 0x11 6).cur.g 0x3400 0 0x08 = L % 2 ^ 64
      rw [Kept.gOf (l := [.all 0x3400 [0x09, 0x11]]) (M := []) (.flagBit (.w (.refl ..)))]
      exact Tx.w_get_same _ _ (entryAt_ent (i := 0x3400) (c := 0x08) (by decide : 0 < 1) rfl)

theorem depthChange_lands (hc : s.clocked = true) {l : ℕ} (hf : s.furrowDue = some l) :
    ∃ t, exec .depthChangeLands s = .next t ∧ t.render.pend = s.render.pend.filter (fun p => l < p.land) := by
  change ∃ t, execDepthChangeLands s = .next t ∧ _
  unfold execDepthChangeLands
  exact run_to hc ((Tx.start s).landFurrows l) (by simp only [hf]) fun t ht =>
    (congrArg Render.pend (ht.render (by simp))).trans (Tx.landFurrows_lands (Tx.start s) l).1

theorem repack_lands (hc : s.clocked = true) {l : ℕ} (hr : s.render.repack = some l) (hf : s.furrowDue = some l) :
    ∃ t, exec .repackLands s = .next t ∧ t.render.repack = none ∧ t.g 0x3400 0 0x07 = 0 ∧ t.g 0x3400 0 0x08 = l % 2 ^ 64 := by
  change ∃ t, execRepackLands s = .next t ∧ _
  unfold execRepackLands
  obtain ⟨h0, h7, h8⟩ := (Tx.landFurrows_lands (Tx.start s) l).2 hr
  exact run_to hc ((Tx.start s).landFurrows l) (by simp only [hr, hf]) fun t ht =>
    ⟨(congrArg Render.repack (ht.render (by simp))).trans h0, (ht.g (by simp) (noted_of_apart (l := []) (by decide))).trans h7,
      (ht.g (by simp) (noted_of_apart (l := []) (by decide))).trans h8⟩

end Sys2Proof.Machine
end

section
/-! PROOFS. What the start of a period leaves while the engines stand (R93, R234). -/

namespace Sys2Proof.Machine
open Sys2Proof

set_option Elab.async false

variable {s0 s : State}

/-- Every entry: a frame that speaks of the parts of the state alone. -/
def Span.whole : List Span := [⟨0, 0x10000, none, []⟩]

/-- The parts that a period touches while the engines stand, beside the scene and the maps. -/
def Part.standing : List Part := [.result, .outs, .free, .net, .serial, .time, .sprk, .hedge, .meas, .pool, .mem, .ctl, .store, .power]

theorem mayWrite_whole {i : ℕ} (c : ℕ) (hi : i ≤ 0x10000 := by decide) : mayWrite Span.whole i c = true := by
  simp [mayWrite, covers, Span.whole, hi]

theorem Tx.busRun_standing (t : Tx s0) : Keeps Span.whole Part.standing t.cur t.busRun.cur :=
  .sameTime (.widen (Tx.busRun_keeps t) (by decide) (M' := [.outs, .clock, .free, .mem, .store, .power]) (by decide))
    (Tx.busRun_time t) (by decide)

theorem Tx.writeBack_standing (t : Tx s0) (n : ℕ) : Keeps Span.whole Part.standing t.cur (t.writeBack n).cur := by
  unfold Tx.writeBack
  exact .ite (.refl ..) (.each (fun _ _ => .step (Tx.setDramWord_keeps ..) (.step (Tx.issue_keeps ..) (.refl ..))) (.setMem (.refl ..)))

theorem Tx.repayIdle_standing (t : Tx s0) : Keeps Span.whole Part.standing t.cur t.repayIdle.cur := by
  unfold Tx.repayIdle
  exact .ite (.refl ..) (.step (Tx.repay_keeps ..) (.refl ..))

theorem Tx.enter_standing (t : Tx s0) (w : BusRun) : Keeps Span.whole Part.standing t.cur (t.enter w).cur := by
  unfold Tx.enter
  exact .setMem (.step (Tx.decoded_keeps ..) (.refl ..))

theorem Tx.busPeriod_standing (t : Tx s0) (rs : List BusReq) : Keeps Span.whole Part.standing t.cur (t.busPeriod rs).cur := by
  unfold Tx.busPeriod
  exact .step (Tx.repayIdle_standing _) (.step (Tx.writeBack_standing ..) (.step (Tx.writeBack_standing ..) (.step (Tx.busRun_standing _)
    (.each (fun _ _ => .step (Tx.enter_standing ..) (.refl ..)) (.setMem (.refl ..))))))

theorem Tx.micsPeriod_standing (t : Tx s0) (pdm : List (ℕ × List (Bool × Bool))) :
    Keeps Span.whole Part.standing t.cur (t.micsPeriod pdm).cur := by
  have hcomp : ∀ (t : Tx s0) m u, Keeps Span.whole Part.standing t.cur (t.compStep m u).cur := fun t m u => by
    unfold Tx.compStep
    dsimp only
    split
    · exact .ite (.w (.step (Tx.setMic_keeps ..) (.refl ..))) (.ite (.w (.refl ..)) (.refl ..))
    · exact .refl ..
  have hblock : ∀ (t : Tx s0) m, Keeps Span.whole Part.standing t.cur (t.micBlock m).cur := fun t m => by
    unfold Tx.micBlock
    refine .ite ?_ (.w (.w (.step (Tx.setMic_keeps ..) (.refl ..))))
    dsimp only
    split
    · exact .setMeas (.flagBit (.tally (.w (.w (.step (Tx.setMic_keeps ..) (.refl ..))))))
    · exact .flagBit (.tally (.w (.w (.step (Tx.setMic_keeps ..) (.refl ..)))))
  have htail : ∀ (t : Tx s0) m u, Keeps Span.whole Part.standing t.cur (match (((t.compStep m u).when (u % 16 == 0) (fun t =>
      t.micBlock m)).cur.mic m).resetDue with
    | some B => if B ≤ u then ((t.compStep m u).when (u % 16 == 0) (fun t => t.micBlock m)).micReset m B
      else (t.compStep m u).when (u % 16 == 0) (fun t => t.micBlock m)
    | none => (t.compStep m u).when (u % 16 == 0) (fun t => t.micBlock m)).cur := fun t m u => by
    have hv : Keeps Span.whole Part.standing t.cur ((t.compStep m u).when (u % 16 == 0) (fun t => t.micBlock m)).cur :=
      .when (fun t => hblock t m) (hcomp t m u)
    generalize (t.compStep m u).when (u % 16 == 0) (fun t => t.micBlock m) = v at hv
    split
    · exact .ite (.step (Tx.micReset_keeps ..) hv) hv
    · exact hv
  have hone : ∀ (t : Tx s0) m, Keeps Span.whole Part.standing t.cur (t.micPeriod m pdm).cur := fun t m => by
    have hset : ∀ x, Keeps Span.whole Part.standing t.cur (t.setMic m x).cur := fun x => .step (Tx.setMic_keeps ..) (.refl ..)
    exact Kept.trans (hset _) (htail _ m _)
  unfold Tx.micsPeriod
  exact .ite (.refl ..) (.each (fun t m => .ite (.refl ..) (hone t m)) (.refl ..))

theorem Tx.modulateAll_standing (t : Tx s0) : Keeps Span.whole Part.standing t.cur t.modulateAll.cur := by
  unfold Tx.modulateAll
  exact .each (fun _ _ => .step (Tx.setMod_keeps ..) (.refl ..)) (.setHedge (.step (Tx.burstsTo_keeps ..)
    (.each (fun _ _ => .step (Tx.modNow_keeps ..) (.refl ..)) (.refl ..))))

theorem Tx.trellisStates_standing (t : Tx s0) : Keeps Span.whole Part.standing t.cur t.trellisStates.cur := by
  unfold Tx.trellisStates
  exact .each (fun _ _ => .w (.refl ..)) (.refl ..)

theorem Tx.runPeriod_standing (t : Tx s0) (m : ℕ) : Keeps Span.whole Part.standing t.cur (t.runPeriod m).cur := by
  unfold Tx.runPeriod
  split
  · exact .refl ..
  · exact .ite (.setMeas (.refl ..)) (.when (fun _ => .w (.refl ..)) (.w (.setMeas (.refl ..))))

theorem Tx.alwaysPeriod_standing (t : Tx s0) (m : ℕ) : Keeps Span.whole Part.standing t.cur (t.alwaysPeriod m).cur := by
  have hwclk : ∀ t : Tx s0, Keeps Span.whole Part.standing t.cur (t.wclkOut m).cur := fun t => by
    unfold Tx.wclkOut
    exact .when (fun _ => .emit (.refl ..)) (.ite (.refl ..) (.when (fun _ => .emit (.refl ..)) (.setSerial (.refl ..))))
  have hpps : ∀ t : Tx s0, Keeps Span.whole Part.standing t.cur (t.ppsOutPeriod m).cur := fun t => by
    unfold Tx.ppsOutPeriod
    exact .when (fun _ => .step (Tx.ppsRise_keeps ..) (.refl ..)) (.when (fun _ => .step (Tx.ppsFall_keeps ..) (.refl ..))
      (.when (fun _ => .setTime (.refl ..)) (.refl ..)))
  have hsecond : ∀ t : Tx s0, Keeps Span.whole Part.standing t.cur t.traceSecond.cur := fun t => by
    unfold Tx.traceSecond
    exact .ite (.refl ..) (.setTrace (.w (.refl ..)))
  have hpop : ∀ t : Tx s0, Keeps Span.whole Part.standing t.cur t.stampPop.cur := fun t => by
    unfold Tx.stampPop
    split
    · exact .refl ..
    · exact .ite (.refl ..) (.w (.setTime (.refl ..)))
  have hmacs : Keeps Span.whole Part.standing t.cur
      ((((t.wclkOut m).ppsOutPeriod m).traceSettle.traceSecond).each (List.range 6) (fun t k => t.macRun k)).cur :=
    .each (fun _ _ => .step (Tx.macRun_keeps ..) (.refl ..)) (.step (hsecond _) (.step (Tx.traceSettle_keeps _) (.step (hpps _)
      (.step (hwclk _) (.refl ..)))))
  unfold Tx.alwaysPeriod
  exact .when (fun _ => .step (Tx.showCoreLoad_keeps ..) (.refl ..)) (.ite hmacs (.each (fun _ _ => .step (hpop _) (.refl ..)) hmacs))

/-! ## A reset of the control processor -/

/-- From a to b the engines, their evaluation and their correction stay, and of the maps all but the row selections. -/
def Stands (a b : State) : Prop :=
  Kept (fun _ => True) (.scene :: .maps :: Part.standing) a b ∧
    { b.maps with rowSel := [], rowOrg := [] } = { a.maps with rowSel := [], rowOrg := [] }

theorem Stands.refl (a : State) : Stands a a := ⟨.refl .., rfl⟩

theorem Stands.trans {a b c : State} (h : Stands a b) (g : Stands b c) : Stands a c := ⟨h.1.trans g.1, g.2.trans h.2⟩

theorem Stands.of {E : ℕ → Prop} {M : List Part} {a b : State} (h : Kept E M a b)
    (hM : M.all (.scene :: Part.standing).contains = true := by decide) : Stands a b := by
  have hsub : ∀ m ∈ M, m ∈ Part.scene :: Part.standing := fun m hm => by simpa using List.all_eq_true.mp hM m hm
  refine ⟨h.mono (fun _ _ => trivial) fun m hm => ?_, ?_⟩
  · rcases List.mem_cons.mp (hsub m hm) with rfl | hm
    · exact .head _
    · exact .tail _ (.tail _ hm)
  · rw [h.maps fun hm => absurd (hsub _ hm) (by decide)]

theorem Stands.step {E : ℕ → Prop} {M : List Part} {a b c : State} (g : Kept E M b c) (h : Stands a b)
    (hM : M.all (.scene :: Part.standing).contains = true := by decide) : Stands a c := h.trans (.of g hM)

theorem Stands.each {α : Type} {a : State} {t : Tx s0} (l : List α) {f : Tx s0 → α → Tx s0} (h : Stands a t.cur)
    (hf : ∀ t x, Stands t.cur (f t x).cur) : Stands a (t.each l f).cur :=
  Tx.each_inv (P := Stands a) l h fun u x hu => hu.trans (hf u x)

theorem Tx.closeSession_stands (t : Tx s0) (h : ℕ) : Stands t.cur (t.closeSession h).cur := by
  cases hy : (t.cur.host h).sess with
  | none =>
    unfold Tx.closeSession
    simp only [hy, Option.isNone_none, if_true]
    exact .refl _
  | some y =>
    rw [t.closeSession_eq hy]
    have hd := (t.dropXfer_keeps h).maps (by decide)
    refine .step ((t.sessionOff h).sessionHidden_keeps h) ⟨?_, ?_⟩
    · exact Kept.mono (E := Keys [.all 0x3A00 [0x09, 0x0A]]) (M := [.ctl, .maps])
        (.setMaps (.setHost (.step (t.dropXfer_keeps h) (.refl ..)))) (fun _ _ => trivial) (by decide)
    · exact (congrArg (fun m : Maps => { m with rowSel := [], rowOrg := [] }) hd :)

theorem Tx.mramCut_stands (t : Tx s0) : Keeps Span.whole Part.standing t.cur t.mramCut.cur := by
  have hslot : ∀ (t : Tx s0) i x, Keeps Span.whole Part.standing t.cur (t.setSlot i x).cur := fun t i x => by
    unfold Tx.setSlot
    exact .w (.setPower (.refl ..)) (mayWrite_whole _)
  have hput : ∀ (t : Tx s0) r, Keeps Span.whole Part.standing t.cur (t.mramPut r).cur := fun t r => by
    unfold Tx.mramPut
    exact .ite (.step (Tx.sysSave_keeps _) (.w (.wb (.w (.w (.w (.w (.setPower (.refl ..)))))))))
      (.step (Tx.sysSave_keeps _) (.w (.w (.w (hslot ..)))))
  unfold Tx.mramCut Tx.mramLand
  split
  · exact .refl ..
  · exact .ite (.when (fun t => hput t _) (.setPower (.refl ..))) (.setPower (.refl ..))

theorem Tx.masterDrain_standing (t : Tx s0) (m : ℕ) : Keeps Span.whole Part.standing t.cur (t.masterDrain m).cur := by
  have hport : ∀ (t : Tx s0) j, Keeps Span.whole Part.standing t.cur (match (t.cur.port14 j).lock with
      | some l => if l.1 == m then t.setPort14 j { t.cur.port14 j with lock := none } else t
      | none => t).cur := fun t j => by
    split
    · exact .ite (.step (Tx.setPort14_keeps ..) (.refl ..)) (.refl ..)
    · exact .refl ..
  unfold Tx.masterDrain
  exact .each (fun _ _ => .flagBit (.inc (.tally (.refl ..)))) (.each hport (.setMem (.step (Tx.busRun_standing _) (.refl ..))))

theorem Tx.resetReport_standing (t : Tx s0) (kind cause : ℕ) : Keeps Span.whole Part.standing t.cur (t.resetReport kind cause).cur := by
  unfold Tx.resetReport
  exact .wb (.inc (.w (.w (.w (.refl ..)))) (mayWrite_whole _))

theorem Tx.cellsClear_standing (t : Tx s0) (j r : ℕ) : Keeps Span.whole Part.standing t.cur (t.cellsClear j r).cur := by
  unfold Tx.cellsClear
  exact .setMem (.refl ..)

theorem Tx.entryEnd_standing (t : Tx s0) : Keeps Span.whole Part.standing t.cur t.entryEnd.cur := by
  unfold Tx.entryEnd
  exact .setPower (.w (.refl ..))

theorem Tx.controlReset_stands (t : Tx s0) (cause : ℕ) : Stands t.cur (t.controlReset cause).cur := by
  unfold Tx.controlReset
  split
  · exact .refl _
  · have hclose : Stands t.cur (t.mramCut.each (List.range 8) (fun t h => t.closeSession h)).cur :=
      .each _ (.of t.mramCut_stands) fun t h => t.closeSession_stands h
    generalize t.mramCut.each (List.range 8) (fun t h => t.closeSession h) = u at hclose
    dsimp only
    generalize hv : u.cancelCommit.when (t.cur.power.entry != 0) (fun t => t.entryEnd.flagBit 0x6500 0 0x15 2) = v
    have hv : Keeps Span.whole Part.standing u.cur v.cur := by
      rw [← hv]
      exact .when (fun _ => .flagBit (.step (Tx.entryEnd_standing _) (.refl ..))) (.step (Tx.cancelCommit_keeps _) (.refl ..))
    generalize hw : ((v.spiQueue []).setCtl { Control.init with down := true }).when t.cur.store.run.isSome (fun t =>
      t.w 0x1400 0 0x02 0) = w
    have hw : Keeps Span.whole Part.standing u.cur w.cur := by
      rw [← hw]
      exact .when (fun _ => .w (.refl ..)) (.setCtl (.step (Tx.spiQueue_keeps ..) hv))
    refine hclose.step (E := Keys Span.whole) (M := Part.standing) ?_
    have hdrain : ∀ x : Tx s0, Keeps Span.whole Part.standing x.cur ([0, 1, 12].foldl (fun t m => t.masterDrain m) x).cur :=
      fun x => .each (fun _ _ => .step (Tx.masterDrain_standing ..) (.refl ..)) (.refl ..)
    refine .step (Tx.sysSave_keeps _) (.setPower (.when (fun _ => .flagBit (.inc (.refl ..))) (.flagBit (.step
      (Tx.resetReport_standing ..) (.step (Tx.cellsClear_standing ..) (.step (hdrain _) (.setSprk (.setTime (.each (fun _ _ =>
      .w (.refl ..)) (.w (.setNet (.w (.setStore hw)))))))))))))

theorem Tx.machineCheck_stands (t : Tx s0) (word : ℕ) : Stands t.cur (t.machineCheck word).cur := by
  unfold Tx.machineCheck
  exact Stands.trans (.of (E := Keys Span.whole) (M := Part.standing) (.flagBit (.w (.tally (.refl ..))))) (Tx.controlReset_stands _ 4)

/-! ## The memory's part of a period -/

theorem Tx.readerActs_stands (t : Tx s0) (u : BusUse) : Stands t.cur (t.readerActs u).cur := by
  unfold Tx.readerActs
  split
  · exact .of (E := Keys Span.whole) (M := .scene :: Part.standing) (.step (Tx.setTrack_keeps ..) (.refl ..))
  · split
    · exact .of (E := Keys Span.whole) (M := Part.standing) (.w (.setNet (.refl ..)))
    · exact .refl _
  · exact .refl _
  · exact .refl _

/-- The background of a memory period: corrections and the matrix. -/
def Tx.memoryBack (t : Tx s0) (e : PeriodIn) : Tx s0 :=
  (t.each (e.sram.filter (fun x => x.region < 7 && x.word < regionWords x.region && secDecode x.region x.mask == 1))
    (fun t x => t.sramFixed x)).busPeriod e.bus

theorem Tx.memoryBack_standing (t : Tx s0) (e : PeriodIn) : Keeps Span.whole Part.standing t.cur (t.memoryBack e).cur := by
  unfold Tx.memoryBack
  exact .step (Tx.busPeriod_standing ..) (.each (fun _ _ => .step (Tx.sramFixed_keeps ..) (.refl ..)) (.refl ..))

theorem Tx.memoryPeriod_stands (t : Tx s0) (e : PeriodIn) : Stands t.cur (t.memoryPeriod e).cur := by
  have hback : Stands t.cur (t.memoryBack e).cur := .of (t.memoryBack_standing e)
  unfold Tx.memoryPeriod
  dsimp only
  rw [show (Tx.each t _ _).busPeriod e.bus = t.memoryBack e from rfl]
  generalize t.memoryBack e = u at hback
  refine .each _ (.step (E := Keys Span.whole) (M := Part.standing) (.setMem (.refl ..)) (.each _ hback fun t x =>
    t.readerActs_stands x)) fun t w => t.machineCheck_stands w

/-- With no reader of poisoned data and no machine check, the memory's period is its background. -/
theorem Tx.memoryPeriod_quiet (t : Tx s0) (e : PeriodIn) (hp : (t.memoryBack e).cur.mem.poison = [])
    (hk : (t.memoryBack e).cur.mem.checks = []) : Keeps Span.whole Part.standing t.cur (t.memoryPeriod e).cur := by
  have hback := t.memoryBack_standing e
  unfold Tx.memoryPeriod
  dsimp only
  rw [show (Tx.each t _ _).busPeriod e.bus = t.memoryBack e from rfl]
  generalize t.memoryBack e = u at hback hp hk
  rw [hp, hk]
  exact .setMem hback

/-! ## A matrix with nothing to do -/

/-- Nothing waits at the matrix, nothing is under way, no reader has met poison and no machine check waits. -/
def BusIdle (a : State) : Prop := a.mem.waits = [] ∧ a.mem.flights = [] ∧ a.mem.poison = [] ∧ a.mem.checks = []

theorem BusIdle.of_mem {a b : State} (h : BusIdle a) (hm : b.mem = a.mem) : BusIdle b := by
  unfold BusIdle at *
  rwa [hm]

theorem Tx.flagBit_mem (t : Tx s0) (i n c b : ℕ) : (t.flagBit i n c b).cur.mem = t.cur.mem := (Tx.put_mem ..).trans (Tx.setSets_mem ..)

theorem BusIdle.sramFixed {t : Tx s0} (h : BusIdle t.cur) (x : SramHit) : BusIdle (t.sramFixed x).cur := by
  have hc : BusIdle (t.sramCorrected x.region x.word x.syn).cur := by
    unfold Tx.sramCorrected
    refine h.of_mem ?_
    show ((((t.tally 0x6100 x.region 0x02).w 0x6100 x.region 0x04 x.word).w 0x6100 x.region 0x06 x.syn).flagBit 0x6100 x.region 0x09
      0).cur.mem = t.cur.mem
    exact (Tx.flagBit_mem ..).trans ((Tx.put_mem ..).trans ((Tx.put_mem ..).trans (Tx.tally_mem ..)))
  unfold Tx.sramFixed Tx.when
  split
  · exact hc
  · exact hc

theorem firstEvent_mem {l : List (ℕ × BusEvent)} {x : ℕ × BusEvent} (h : firstEvent l = some x) : x ∈ l := by
  have hgo : ∀ (l : List (ℕ × BusEvent)) best, l.foldl (fun best x => match best with
      | none => some x
      | some b => if x.1 < b.1 then some x else best) best = some x → x ∈ l ∨ best = some x := fun l => by
    induction l with
    | nil => exact fun best h => .inr h
    | cons y l ih =>
      intro best h
      rcases ih _ h with hm | hb
      · exact .inl (.tail _ hm)
      · cases best with
        | none => exact .inl (by cases hb; exact .head _)
        | some b =>
          dsimp only at hb
          split at hb
          · cases hb
            exact .inl (.head _)
          · exact .inr hb
  exact (hgo l none h).resolve_right (by simp)

/-- At an idle matrix only locks are released. -/
theorem BusIdle.busEvents {a : State} (h : BusIdle a) {c : ℕ} {x : ℕ × BusEvent} (hx : x ∈ a.busEvents c) : ∃ j, x.2 = .unlock j := by
  obtain ⟨hw, hf, -, -⟩ := h
  have hslot : ∀ n, a.slotAt n = none := fun n => by
    unfold State.slotAt
    simp only [hf, List.filter_nil, List.map_nil, ite_self]
  have hask : ∀ j, a.askers j = [] := fun j => by
    unfold State.askers
    rw [hw]
    rfl
  have hgrant : ∀ j, a.nextGrant j = none := fun j => by
    unfold State.nextGrant
    simp only [hask, List.filter_nil, ite_self]
  unfold State.busEvents at hx
  simp only [hw, hf, hslot, hgrant, List.filter_nil, List.map_nil, List.filterMap_nil, Option.bind_none, List.append_nil,
    List.nil_append, List.mem_append, List.mem_filterMap, reduceCtorEq, and_false, exists_false, false_or] at hx
  obtain ⟨j, -, hj⟩ := hx
  split at hj
  · split at hj
    · cases hj
      exact ⟨j, rfl⟩
    · cases hj
  · cases hj

theorem BusIdle.busEventsTo (c : ℕ) : ∀ (fuel : ℕ) {t : Tx s0}, BusIdle t.cur → BusIdle (Tx.busEventsTo c fuel t).cur
  | 0, _, h => h
  | fuel + 1, t, h => by
    unfold Tx.busEventsTo
    split
    · rename_i d e he
      obtain ⟨j, rfl⟩ : ∃ j, e = .unlock j := h.busEvents (firstEvent_mem he)
      refine BusIdle.busEventsTo c fuel ?_
      unfold Tx.busEvent Tx.lockRelease
      exact BusIdle.of_mem (a := ((t.tick t.cur.now (max t.cur.clock d)).setPort14 j _).cur) h
        ((Tx.flagBit_mem ..).trans (Tx.tally_mem ..))
    · exact h

theorem BusIdle.busRun {t : Tx s0} (h : BusIdle t.cur) : BusIdle t.busRun.cur := by
  unfold Tx.busRun
  dsimp only
  split
  · exact h
  · exact BusIdle.busEventsTo t.cur.clock _ (t := t.tick t.cur.now (min s0.clock t.cur.clock)) h

theorem BusIdle.modSub {t : Tx s0} (h : BusIdle t.cur) (n : ℕ) (f : SubCh → SubCh) : BusIdle (t.modSub n f).cur := by
  show BusIdle (t.setMem (t.cur.mem.withSub n (f (t.cur.mem.sub n)))).cur
  unfold Mem.withSub
  split
  · exact h
  · exact h

theorem BusIdle.issue {t : Tx s0} (h : BusIdle t.cur) (n : ℕ) (c : DramCmd) : BusIdle (t.issue n c).cur := h.modSub n _

theorem BusIdle.setDramWord {t : Tx s0} (h : BusIdle t.cur) (w : ℕ) (x : DramWord) : BusIdle (t.setDramWord w x).cur := h

theorem BusIdle.writeBack {t : Tx s0} (h : BusIdle t.cur) (n : ℕ) : BusIdle (t.writeBack n).cur := by
  unfold Tx.writeBack
  dsimp only
  split
  · exact h
  · exact Tx.each_inv (P := BusIdle) _ (show BusIdle (t.setMem _).cur from h) fun u p hu => (hu.issue ..).setDramWord ..

theorem BusIdle.refreshes {t : Tx s0} (h : BusIdle t.cur) (n : ℕ) : BusIdle (t.refreshes n).cur := by
  have hv : BusIdle (t.each [0, 1] (fun t k => (((t.issue k .prechargeAll).issue k .refresh).modSub k (fun x => { x with rows := [] })))).cur :=
    Tx.each_inv (P := BusIdle) _ h fun u p hu => ((hu.issue ..).issue ..).modSub ..
  unfold Tx.refreshes
  dsimp only
  generalize t.each [0, 1] _ = v at hv
  split
  · exact h
  · exact hv.of_mem (Tx.count_mem v _ _ _ _)

theorem BusIdle.repayIdle {t : Tx s0} (h : BusIdle t.cur) : BusIdle t.repayIdle.cur := by
  unfold Tx.repayIdle
  split
  · exact h
  · obtain ⟨hw, hf, hp, hk⟩ := h
    exact BusIdle.refreshes (t := t.setMem { t.cur.mem with debt := 0 }) ⟨hw, hf, hp, hk⟩ _

theorem BusIdle.busPeriod {t : Tx s0} (h : BusIdle t.cur) : BusIdle (t.busPeriod []).cur := by
  obtain ⟨hw, hf, hp, hk⟩ := h
  have hm : BusIdle (t.setMem { t.cur.mem with fixes := [] }).cur := ⟨hw, hf, hp, hk⟩
  unfold Tx.busPeriod
  dsimp only [Tx.each, List.foldl_nil]
  generalize t.setMem { t.cur.mem with fixes := [] } = u at hm
  exact ((hm.busRun.writeBack 0).writeBack 1).repayIdle

theorem BusIdle.memoryBack {t : Tx s0} (h : BusIdle t.cur) {e : PeriodIn} (he : e.bus = []) : BusIdle (t.memoryBack e).cur := by
  unfold Tx.memoryBack
  rw [he]
  exact .busPeriod (Tx.each_inv (P := BusIdle) _ h fun u x hu => hu.sramFixed x)

end Sys2Proof.Machine
end

section
/-! PROOFS. A period of the engines leaves media time and the counter, and with it the start of every period (R93, R234). -/

namespace Sys2Proof.Machine
open Sys2Proof

set_option Elab.async false

variable {s0 s : State}

/-- Every part of the state but media time, the counter and the engines' record. -/
def Part.timeless : List Part := [.result, .outs, .free, .scene, .geo, .render, .corr, .maps, .serial, .net, .time, .sprk,
  .hedge, .meas, .pool, .mem, .ctl, .store, .power]

/-- From a to b media time, the counter and the engines' record stay. -/
abbrev Timeless (a b : State) : Prop := Keeps Span.whole Part.timeless a b

/-! ## Ports -/

theorem Tx.stampFrame_timeless (t : Tx s0) (p u ns : ℕ) : Timeless t.cur (t.stampFrame p u ns).cur := by
  unfold Tx.stampFrame
  split
  · unfold Tx.stamp
    exact .w (.w (.step (Tx.setPort_keeps ..) (.refl ..)))
  · exact .refl ..

theorem Tx.restamp_timeless (t : Tx s0) (p : ℕ) : Timeless t.cur (t.restamp p).cur := by
  have hb : ∀ (t : Tx s0) (b : Begun), Timeless t.cur (match b.time with
      | some u => t.stampFrame p u (edgeNs b.edge)
      | none => t).cur := fun t b => by
    split
    · exact t.stampFrame_timeless ..
    · exact .refl ..
  unfold Tx.restamp
  exact .each hb (.each (fun t _ => t.stampFrame_timeless ..) (.refl ..))

theorem Tx.blkFlag_timeless (t : Tx s0) (p u f : ℕ) : Timeless t.cur (t.blkFlag p u f).cur := by
  unfold Tx.blkFlag
  exact .step (Tx.setPort_keeps ..) (.refl ..)

theorem Tx.portEvent_timeless (t : Tx s0) (p e u : ℕ) : Timeless t.cur (t.portEvent p e u).cur := by
  unfold Tx.portEvent
  exact .step (Tx.portMsg_keeps ..) (.refl ..)

theorem Tx.groupRepeat_timeless (t : Tx s0) (p g u : ℕ) : Timeless t.cur (t.groupRepeat p g u).cur := by
  have hslip : Timeless t.cur (t.groupSlip p g 1 u).cur := by
    unfold Tx.groupSlip
    exact .ite (.refl ..) (.flagBit (.w (.inc (.refl ..))))
  have hcount : ∀ (t : Tx s0) p, Timeless t.cur (t.slipCount p 1 u).cur := fun t p => by
    unfold Tx.slipCount
    exact .step (Tx.portEvent_timeless ..) (.flagBit (.tally (.step (Tx.blkFlag_timeless ..) (.refl ..))))
  unfold Tx.groupRepeat
  exact .each (fun t p => .step (Tx.restamp_timeless ..) (.step (Tx.setPort_keeps ..) (hcount t p))) hslip

theorem Tx.groupChecks_timeless (t : Tx s0) (m : ℕ) : Timeless t.cur (t.groupChecks m).cur := by
  unfold Tx.groupChecks
  refine .each (fun t g => ?_) (.refl ..)
  dsimp only
  split
  · exact .refl ..
  · exact .each (fun t _ => .ite (t.groupRepeat_timeless ..) (.refl ..)) (.refl ..)

theorem Tx.inIdle_timeless (t : Tx s0) (p u : ℕ) : Timeless t.cur (t.inIdle p u).cur := by
  unfold Tx.inIdle
  exact .step (Tx.portEvent_timeless ..) (.flagBit (.tally (.step (Tx.blkFlag_timeless ..) (.refl ..))))

theorem Tx.inPop_timeless (t : Tx s0) (p u : ℕ) : Timeless t.cur (t.inPop p u).cur := by
  have hset : ∀ x, Timeless t.cur (t.setPort p x).cur := fun x => .step (Tx.setPort_keeps ..) (.refl ..)
  unfold Tx.inPop
  dsimp only
  refine .ite (.refl ..) (.ite (hset _) ?_)
  split
  · exact .ite (hset _) (.step (Tx.inIdle_timeless ..) (hset _))
  · exact .step (Tx.inIdle_timeless ..) (hset _)

theorem Tx.bridgePush_timeless (t : Tx s0) (k : ℕ) (x : ℤ) : Timeless t.cur (t.bridgePush k x).cur := by
  unfold Tx.bridgePush
  exact .setMaps (.refl ..)

theorem Tx.bridgeOut_timeless (t : Tx s0) (k : ℕ) (up : Bool) (ph : ℕ) : Timeless t.cur (t.bridgeOut k up ph).2.cur := by
  unfold Tx.bridgeOut
  exact .when (fun _ => .flagBit (.tally (.refl ..))) (.refl ..)

theorem Tx.bridgeFrame_timeless (t : Tx s0) (up : Bool) (ph : ℕ) (keys : List ℕ) : Timeless t.cur (t.bridgeFrame up ph keys).2.cur := by
  unfold Tx.bridgeFrame
  exact .foldSnd (fun p k => p.2.bridgeOut_timeless ..) (.refl ..)

theorem Tx.onGrid_timeless (t : Tx s0) (p m : ℕ) : Timeless t.cur (t.onGrid p m).2.cur := by
  unfold Tx.onGrid
  exact .iteSnd (.refl ..) (.iteSnd (t.bridgeFrame_timeless ..) (t.bridgeFrame_timeless ..))

theorem Tx.asrcSample_timeless (t : Tx s0) (c : ℕ) (a : ℤ) : Timeless t.cur (t.asrcSample c a).2.cur := by
  unfold Tx.asrcSample
  exact .when (fun _ => .flagBit (.tally (.refl ..))) (.fresh (.refl ..))

theorem Tx.asrcTurn_timeless (t : Tx s0) (c : ℕ) (a : ℤ) : Timeless t.cur (t.asrcTurn c a).2.cur := by
  have hplain : ∀ t : Tx s0, Timeless t.cur (if t.on 0x4510 c 0x06 then t.asrcSample c a else (0, t)).2.cur := fun t =>
    .iteSnd (t.asrcSample_timeless ..) (.refl ..)
  have hquiet : Timeless t.cur (t.asrcQuiet c).cur := .step (Tx.asrcQuiet_keeps ..) (.refl ..)
  unfold Tx.asrcTurn
  dsimp only
  split
  · refine .iteSnd (.trans hquiet (hplain _)) (.iteSnd ?_ (.setSerial hquiet))
    exact Kept.trans (Kept.setSerial hquiet) (Tx.asrcSample_timeless ..)
  · exact hplain t

theorem Tx.asrcNext_timeless (t : Tx s0) (c : ℕ) (a : ℤ) : Timeless t.cur (t.asrcNext c a).2.cur := by
  unfold Tx.asrcNext
  exact .setSerial (t.asrcTurn_timeless c a)

theorem Tx.slotValues_timeless (t : Tx s0) (p : ℕ) (ys : List ℤ) : Timeless t.cur (t.slotValues p ys).2.cur := by
  unfold Tx.slotValues
  refine .foldSnd (fun q i => ?_) (.refl ..)
  dsimp only
  refine .iteSnd ?_ ?_
  · split
    · exact q.2.asrcNext_timeless ..
    · exact .refl ..
  · split
    · exact .refl ..
    · exact .refl ..

theorem Tx.blockFrame_timeless (t : Tx s0) (p a : ℕ) (ws : List ℤ) : Timeless t.cur (t.blockFrame p a ws).cur := by
  have hset : ∀ x, Timeless t.cur (t.setPort p x).cur := fun x => .step (Tx.setPort_keeps ..) (.refl ..)
  unfold Tx.blockFrame
  exact .ite (hset _) (.wb (hset _))

theorem Tx.portDeliver_timeless (t : Tx s0) (p m : ℕ) : Timeless t.cur (t.portDeliver p m).cur := by
  have hset : ∀ (t : Tx s0) x, Timeless t.cur (t.setPort p x).cur := fun t x => .step (Tx.setPort_keeps ..) (.refl ..)
  have hbridge : ∀ t : Tx s0, Timeless t.cur (t.bridgeIn p).cur := fun t => by
    unfold Tx.bridgeIn
    exact .each (fun t _ => t.bridgePush_timeless ..) (.refl ..)
  unfold Tx.portDeliver
  dsimp only
  refine .ite ?_ ?_
  · refine .ite ?_ (.step (Tx.blockFrame_timeless ..) ?_)
    all_goals
      exact .step (hset ..) (.step (Tx.slotValues_timeless ..) (.step (Tx.onGrid_timeless ..) (.each (fun t u => .when hbridge
        (.ite (hset ..) (t.inPop_timeless ..))) (hset ..))))
  · split
    · exact hset ..
    · exact .ite (.refl ..) (hset ..)

theorem Tx.portsDeliver_timeless (t : Tx s0) (m : ℕ) : Timeless t.cur (t.portsDeliver m).cur := by
  unfold Tx.portsDeliver
  exact .each (fun t p => t.portDeliver_timeless ..) (t.groupChecks_timeless m)

theorem Tx.asrcPush_timeless (t : Tx s0) (c : ℕ) (a x : ℤ) : Timeless t.cur (t.asrcPush c a x).cur := by
  unfold Tx.asrcPush
  exact .setSerial (.refl ..)

theorem Tx.outPush_timeless (t : Tx s0) (p u : ℕ) (ws : List ℤ) : Timeless t.cur (t.outPush p u ws).cur := by
  have hset : ∀ (t : Tx s0) x, Timeless t.cur (t.setPort p x).cur := fun t x => .step (Tx.setPort_keeps ..) (.refl ..)
  have hramp : Timeless t.cur (t.outRamped p ws).2.cur := by
    unfold Tx.outRamped
    dsimp only
    split
    · exact .iteSnd (hset ..) (hset ..)
    · exact .refl ..
  unfold Tx.outPush
  exact .ite (.step (Tx.portEvent_timeless ..) (.flagBit (.tally (.refl ..)))) (.step (hset ..) hramp)

theorem Tx.portPush_timeless (t : Tx s0) (p : ℕ) : Timeless t.cur (t.portPush p).cur := by
  have hset : ∀ (t : Tx s0) x, Timeless t.cur (t.setPort p x).cur := fun t x => .step (Tx.setPort_keeps ..) (.refl ..)
  unfold Tx.portPush
  dsimp only
  refine .ite (.refl ..) (.ite (.each (fun t w => ?_) (.refl ..)) (.ite (.step (Tx.outPush_timeless ..) (hset ..)) ?_))
  · split
    · exact t.asrcPush_timeless ..
    · exact .refl ..
  · have hkeys : ∀ l : List (ℕ × ℤ), Timeless t.cur ((t.setPort p { t.cur.port p with
        outDepth := (t.cur.port p).outFifo.length }).each l (fun t (k, v) => t.bridgePush k v)).cur := fun l =>
      .each (fun t _ => t.bridgePush_timeless ..) (hset ..)
    exact .ite (.step (Tx.outPush_timeless ..) (.step (Tx.outPush_timeless ..) (.step (Tx.bridgeFrame_timeless ..) (.step
      (Tx.bridgeFrame_timeless ..) (hkeys _))))) (.ite (.step (Tx.outPush_timeless ..) (.step (Tx.bridgeFrame_timeless ..)
      (hkeys _))) (hkeys _))

/-! ## Streams -/

theorem Tx.spanDelivered_timeless (t : Tx s0) (i x : ℕ) (missing : Bool) : Timeless t.cur (t.spanDelivered i x missing).cur := by
  have hmsg : ∀ {t : Tx s0} {e y : ℕ} {a}, Timeless a t.cur → Timeless a (t.rxMsg i e y).cur := fun h => .step (Tx.rxMsg_keeps ..) h
  unfold Tx.spanDelivered
  dsimp only
  have hpath : ∀ y b, Timeless t.cur (((t.setRx i y).showPaths i b).cur) := fun y b =>
    .step (Tx.showPaths_keeps ..) (.step (Tx.setRx_keeps ..) (.refl ..))
  have hlost : ∀ y b c, Timeless t.cur ((((t.setRx i y).showPaths i b)).when c (fun t => (t.flagBit 0x4A00 i 0x21 5).rxMsg i 4 x)).cur :=
    fun y b c => .when (fun _ => hmsg (.flagBit (.refl ..))) (hpath ..)
  refine .ite (hlost ..) (.ite (.step (Tx.freezeOn_keeps ..) (.step (Tx.rxTo_keeps ..) (.flagBit (.tally ?_)))) ?_)
  · exact hmsg (.flagBit (.tally (hlost ..)))
  · exact hmsg (.flagBit (.tally (hlost ..)))

theorem Tx.rxSample_timeless (t : Tx s0) (i x : ℕ) : Timeless t.cur (t.rxSample i x).2.cur := by
  unfold Tx.rxSample
  exact .ite (.step (Tx.spanDelivered_timeless ..) (.step (Tx.setRx_keeps ..) (.refl ..))) (.step (Tx.setRx_keeps ..) (.refl ..))

theorem Tx.badRegion_timeless (t : Tx s0) (i x : ℕ) : Timeless t.cur (t.badRegion i x).cur := by
  unfold Tx.badRegion
  exact .ite (.flagBit (.inc (.refl ..))) (.step (Tx.setRx_keeps ..) (.flagBit (.inc (.refl ..))))

theorem Tx.rxDeliver_timeless (t : Tx s0) (bad : List ℕ) (i m : ℕ) : Timeless t.cur (t.rxDeliver bad i m).cur := by
  have hpushes : ∀ (t : Tx s0) (l : List (ℕ × ℤ)), Timeless t.cur (t.each l (fun t (k, y) => t.bridgePush k y)).cur := fun t l =>
    .each (fun t _ => t.bridgePush_timeless ..) (.refl ..)
  have hasrc : ∀ (t : Tx s0) (l : List (ℕ × ℤ)) (a : ℤ), Timeless t.cur (t.each l (fun t (k, y) =>
      match t.cur.asrcOf 2 i 0 k with
      | some ch => t.asrcPush ch a y
      | none => t)).cur := fun t l a => .each (fun t x => by
    dsimp only
    split
    · exact t.asrcPush_timeless ..
    · exact .refl ..) (.refl ..)
  unfold Tx.rxDeliver
  extract_lets s fs st c L lo due dom keys r t1
  have hr : Timeless t.cur t1.cur := by
    refine .foldSnd (fun p x => ?_) (.refl ..)
    dsimp only
    exact .when (fun t => hasrc t _ _) (.when (fun t => hpushes t _) (.step (Tx.rxSample_timeless ..) (.when (fun t =>
      t.badRegion_timeless ..) (.refl ..))))
  clear_value t1 r dom keys
  have hgrid : Timeless t.cur (if st == 1 then (([] : List ℤ), t1)
      else match dom with
        | 0 => (r.1, t1)
        | 1 => if s.fA == 48000 then t1.bridgeFrame false 0 keys else t1.bridgeFrame true (m % 2) keys
        | _ => (List.range c).foldl (fun (acc : List ℤ × Tx s0) k =>
            match acc.2.cur.asrcOf 2 i 0 k with
            | some ch =>
              let (y, t) := acc.2.asrcNext ch (s.mediaInstant ((m : ℤ) - s.linkOffset i s.fA))
              (acc.1 ++ [y], t)
            | none => (acc.1 ++ [0], acc.2)) ([], t1)).2.cur := by
    refine .iteSnd hr ?_
    split
    · exact hr
    · exact .iteSnd (.step (Tx.bridgeFrame_timeless ..) hr) (.step (Tx.bridgeFrame_timeless ..) hr)
    · refine .foldSnd (fun q k => ?_) hr
      split
      · exact q.2.asrcNext_timeless ..
      · exact .refl ..
  generalize (if st == 1 then (([] : List ℤ), t1) else _) = q at hgrid ⊢
  dsimp only
  refine .ite (.step (Tx.setRx_keeps ..) hgrid) ?_
  split
  · exact .w (.step (Tx.setRx_keeps ..) hgrid)
  · exact .step (Tx.setRx_keeps ..) hgrid

theorem Tx.streamsDeliver_timeless (t : Tx s0) (bad : List ℕ) (m : ℕ) : Timeless t.cur (t.streamsDeliver bad m).cur := by
  unfold Tx.streamsDeliver
  exact .each (fun t i => t.rxDeliver_timeless ..) (.refl ..)

theorem Tx.txCollect_timeless (t : Tx s0) (i : ℕ) : Timeless t.cur (t.txCollect i).cur := by
  have hadd : ∀ (t : Tx s0) (x : ℕ) (v : List ℤ), Timeless t.cur (match (t.cur.tx i).nextX with
      | some a => if x < a then t else t.setTxs i { t.cur.tx i with buf := (t.cur.tx i).buf ++ [(x, v)] }
      | none => t).cur := fun t x v => by
    split
    · exact .ite (.refl ..) (.step (Tx.setTxs_keeps ..) (.refl ..))
    · exact .refl ..
  unfold Tx.txCollect
  dsimp only
  split
  · exact hadd ..
  · have hkeys : ∀ l : List (ℕ × ℤ), Timeless t.cur (t.each l (fun t (k, v) => t.bridgePush k v)).cur := fun l =>
      .each (fun t _ => t.bridgePush_timeless ..) (.refl ..)
    exact .ite (.step (hadd ..) (.step (hadd ..) (.step (Tx.bridgeFrame_timeless ..) (.step (Tx.bridgeFrame_timeless ..)
      (hkeys _))))) (.ite (.step (hadd ..) (.step (Tx.bridgeFrame_timeless ..) (hkeys _))) (hkeys _))
  · refine .each (fun t x => .step (hadd ..) (.foldSnd (fun q k => ?_) (.refl ..))) (.each (fun t x => ?_) (.refl ..))
    · split
      · exact q.2.asrcNext_timeless ..
      · exact .refl ..
    · split
      · exact t.asrcPush_timeless ..
      · exact .refl ..

theorem Tx.streamsCollect_timeless (t : Tx s0) : Timeless t.cur t.streamsCollect.cur := by
  unfold Tx.streamsCollect
  exact .each (fun t i => t.txCollect_timeless ..) (.refl ..)

/-! ## Chains, scene and outputs -/

theorem Tx.chainsPresent_timeless (t : Tx s0) (m : ℕ) : Timeless t.cur (t.chainsPresent m).cur := by
  unfold Tx.chainsPresent
  refine .each (fun t c => ?_) (.refl ..)
  unfold Tx.chainPresent
  dsimp only
  exact .step (Tx.setChainSt_keeps ..) (.when (fun _ => .w (.refl ..)) (.refl ..))

theorem Tx.chainsCollect_timeless (t : Tx s0) : Timeless t.cur t.chainsCollect.cur := by
  unfold Tx.chainsCollect
  exact .each (fun _ _ => .step (Tx.setChainSt_keeps ..) (.refl ..)) (.refl ..)

theorem Tx.trackGood_timeless (t : Tx s0) : Timeless t.cur t.trackGood.cur := by
  unfold Tx.trackGood
  exact .each (fun _ _ => .ite (.refl ..) (.step (Tx.setIn_keeps ..) (.refl ..))) (.refl ..)

theorem Tx.furrowWrite_timeless (t : Tx s0) (u : ℕ) (xs : List (ℕ × ℤ)) : Timeless t.cur (t.furrowWrite u xs).cur := by
  unfold Tx.furrowWrite
  exact .setRender (.setRender (.refl ..))

theorem Tx.correctSample_timeless (t : Tx s0) (bad poison : List CorrFault) : Timeless t.cur (t.correctSample bad poison).cur := by
  have hfault : ∀ (t : Tx s0) b, Timeless t.cur (t.corrFault b).cur := fun t b => by
    unfold Tx.corrFault
    split
    · exact .step (Tx.corrDram_keeps ..) (.refl ..)
    · exact .step (Tx.sramBad_keeps ..) (.fresh (.step (Tx.corrEcc_keeps ..) (.refl ..)))
  have hreport : ∀ (t : Tx s0) k u o, Timeless t.cur (t.reportChain k u o).cur := fun t k u o => by
    unfold Tx.reportChain
    dsimp only
    refine .step (Tx.setChain_keeps ..) (.iteFst (.w (.iteFst (.w ?_) ?_)) (.iteFst (.w ?_) ?_))
    all_goals exact .when (fun _ => .flagBit (.flagBit (.tally (.refl ..)))) (.when (fun _ => .flagBit (.flagBit (.refl ..)))
      (.ite (.refl ..) (.count (.refl ..))))
  have hsilent : ∀ (t : Tx s0) u, Timeless t.cur (t.reportSilent u).cur := fun t u => by
    unfold Tx.reportSilent
    exact .when (fun _ => .each (fun _ _ => .w (.refl ..)) (.refl ..)) (.when (fun _ => .each (fun _ _ => .w (.refl ..)) (.refl ..))
      (.refl ..))
  unfold Tx.correctSample
  dsimp only
  split
  · exact .setCorr (.refl ..)
  · exact .step (hsilent ..) (.each (fun t k => hreport t ..) (.each (fun t b => .step (Tx.corrEcc_keeps ..) (.refl ..)) (.each
      (fun t b => .step (Tx.setChain_keeps ..) (hfault t b)) (.setCorr (.refl ..)))))

theorem Tx.trellis_timeless (t : Tx s0) (m : ℕ) : Timeless t.cur (t.trellis m).cur := by
  have hnode : ∀ (t : Tx s0) before r, Timeless t.cur (t.nodeApply before m r).cur := fun t before r => by
    unfold Tx.nodeApply
    exact .tally (.setMaps (.refl ..))
  unfold Tx.trellis
  extract_lets before t1 t2 s2
  have h1 : Timeless t.cur t1.cur := by
    show Timeless t.cur (match t.cur.pendingBank with
      | some (_, tc) => if tc ≤ m then t.bankDue m else t
      | none => t).cur
    split
    · exact .ite (.step (Tx.bankDue_keeps ..) (.refl ..)) (.refl ..)
    · exact .refl ..
  have h2 : Timeless t.cur t2.cur := .each (fun t r => hnode t ..) h1
  clear_value t1 t2
  refine .ite (.setMaps (.each (fun _ _ => ?_) (.setMaps h2))) (.setMaps (.each (fun _ _ => .w (.refl ..)) (.setMaps (.each
    (fun _ _ => ?_) (.setMaps h2)))))
  · exact .flagBit (.tally (.tally (.refl ..)))
  · exact .flagBit (.tally (.tally (.refl ..)))

theorem Tx.enginesPeriod_timeless (t : Tx s0) (m : ℕ) (e : PeriodIn) : Timeless t.cur (t.enginesPeriod m e).cur := by
  have hout : ∀ t : Tx s0, Timeless t.cur (t.outputMap m).cur := fun t => by
    unfold Tx.outputMap
    exact .setMaps (.refl ..)
  have hrec : ∀ (t : Tx s0) xs, Timeless t.cur (t.recordPeriod m xs).cur := fun t xs => by
    unfold Tx.recordPeriod
    exact .ite (.setMeas (.refl ..)) (.refl ..)
  unfold Tx.enginesPeriod
  exact .step (hrec ..) (.step (Tx.modulateAll_standing _) (.step (Tx.streamsCollect_timeless _) (.each (fun t p =>
    t.portPush_timeless _) (.step (hout _) (.step (Tx.chainsCollect_timeless _) (.step (Tx.trellis_timeless ..) (.step
    (Tx.trellisStates_standing _) (.step (Tx.correctSample_timeless ..) (.when (fun t => t.furrowWrite_timeless ..) (.step
    (Tx.trackGood_timeless _) (.step (Tx.chainsPresent_timeless ..) (.step (Tx.streamsDeliver_timeless ..)
    (t.portsDeliver_timeless m)))))))))))))

end Sys2Proof.Machine
end

section
/-! PROOFS. The start of every period: media time and the counter, and what stays while the engines stand (R93, R234). -/

namespace Sys2Proof.Machine
open Sys2Proof

set_option Elab.async false

variable {s0 s : State}

/-- A period up to the memory's part: the counter moves, tasks settle, and running engines latch their inputs. -/
def Tx.periodHead (t : Tx s0) (r : Bool) (m c : ℕ) : Tx s0 :=
  (((t.when r Tx.trackGood).tick m c).poolSettle).when (r && m % 16 == 0) Tx.latchInputs

/-- A period after the engines' part. -/
def Tx.periodEnd (t : Tx s0) (m : ℕ) (e : PeriodIn) : Tx s0 :=
  (((t.setMem { t.cur.mem with poison := [] }).runPeriod m).w 0x5A00 0 0x0E (e.faultHigh % 8)).alwaysPeriod m

/-- A period from the memory's part on. -/
def Tx.periodTail (t : Tx s0) (r : Bool) (m : ℕ) (e : PeriodIn) : Tx s0 :=
  (if r then (t.micsPeriod e.pdm).enginesPeriod m e else (t.micsPeriod e.pdm).modulateAll.trellisStates).periodEnd m e

theorem Tx.periodHead_clock (t : Tx s0) (r : Bool) (m c : ℕ) : (t.periodHead r m c).cur.now = m ∧ (t.periodHead r m c).cur.clock = c := by
  have hk : Timeless ((t.when r Tx.trackGood).tick m c).cur (t.periodHead r m c).cur := by
    refine .when (fun t => ?_) (.step (Tx.poolSettle_keeps _) (.refl ..))
    unfold Tx.latchInputs
    exact .setGeo (.refl ..)
  exact hk.clock (by decide)

theorem Tx.periodHead_standing (t : Tx s0) (m c : ℕ) : Keeps Span.whole [.clock, .pool] t.cur (t.periodHead false m c).cur :=
  .step (Tx.poolSettle_keeps _) (.tick (.refl ..))

theorem Tx.periodEnd_standing (t : Tx s0) (m : ℕ) (e : PeriodIn) : Keeps Span.whole Part.standing t.cur (t.periodEnd m e).cur :=
  .step (Tx.alwaysPeriod_standing ..) (.w (.step (Tx.runPeriod_standing ..) (.setMem (.refl ..))))

theorem Tx.periodTail_standing (t : Tx s0) (m : ℕ) (e : PeriodIn) :
    Keeps Span.whole Part.standing t.cur (t.periodTail false m e).cur :=
  .step (Tx.periodEnd_standing ..) (.step (Tx.trellisStates_standing _) (.step (Tx.modulateAll_standing _) (t.micsPeriod_standing _)))

theorem Tx.periodTail_timeless (t : Tx s0) (r : Bool) (m : ℕ) (e : PeriodIn) : Timeless t.cur (t.periodTail r m e).cur := by
  have hmics : Timeless t.cur (t.micsPeriod e.pdm).cur := .widen (t.micsPeriod_standing e.pdm) (by decide) (by decide)
  unfold Tx.periodTail
  generalize t.micsPeriod e.pdm = u at hmics
  have hmid : Timeless t.cur (if r then u.enginesPeriod m e else u.modulateAll.trellisStates).cur :=
    .ite (hmics.trans (u.enginesPeriod_timeless m e)) (.step (Tx.trellisStates_standing _) (.step (Tx.modulateAll_standing _) hmics))
  generalize (if r then u.enginesPeriod m e else u.modulateAll.trellisStates) = v at hmid
  exact .step (v.periodEnd_standing m e) hmid

theorem periodStart_standing (hc : s.clocked = true) (e : PeriodIn) :
    ∃ t, exec (.periodStart e) s = .next t ∧ t.now = s.now + 1 ∧ t.clock = s.clockAt (s.now + 1) s.fA ∧
      (s.engines.running = false → t.geo = s.geo ∧ t.render = s.render ∧ t.corr = s.corr ∧
        t.maps = { s.maps with rowSel := t.maps.rowSel, rowOrg := t.maps.rowOrg } ∧
        (e.bus = [] → s.mem.waits = [] → s.mem.flights = [] → s.mem.poison = [] → s.mem.checks = [] →
          t.scene = s.scene ∧ t.maps = s.maps)) := by
  change ∃ t, execPeriodStart e s = .next t ∧ _
  unfold execPeriodStart
  have htime := (Tx.start s).periodHead_clock s.engines.running (s.now + 1) (s.clockAt (s.now + 1) s.fA)
  have hhead := (Tx.start s).periodHead_standing (s.now + 1) (s.clockAt (s.now + 1) s.fA)
  refine run_to hc ((((Tx.start s).periodHead s.engines.running (s.now + 1) (s.clockAt (s.now + 1) s.fA)).memoryPeriod e).periodTail
    s.engines.running (s.now + 1) e) (by dsimp only [Tx.periodHead, Tx.periodTail, Tx.periodEnd]) fun t ht => ?_
  have hstart : (Tx.start s).cur = s.begun := rfl
  generalize hu : (Tx.start s).periodHead s.engines.running (s.now + 1) (s.clockAt (s.now + 1) s.fA) = u at htime ht
  have hmem := u.memoryPeriod_stands e
  have hquiet := u.memoryPeriod_quiet e
  generalize u.memoryPeriod e = v at hmem hquiet ht
  have htail := v.periodTail_timeless s.engines.running (s.now + 1) e
  obtain ⟨hn, hk⟩ := ((hmem.1.clock (by decide)).imp (·.trans htime.1) (·.trans htime.2))
  obtain ⟨hn', hk'⟩ := ((ht.clock (by simp)).imp (·.trans (htail.clock (by decide)).1) (·.trans (htail.clock (by decide)).2))
  refine ⟨hn'.trans hn, hk'.trans hk, fun hr => ?_⟩
  rw [hr] at hu ht
  rw [hu, hstart] at hhead
  have hlast := v.periodTail_standing (s.now + 1) e
  refine ⟨?_, ?_, ?_, ?_, fun hbus hw hf hp hc => ?_⟩
  · exact (ht.geo (by simp)).trans ((hlast.geo (by decide)).trans ((hmem.1.geo (by decide)).trans (hhead.geo (by decide))))
  · exact (ht.render (by simp)).trans ((hlast.render (by decide)).trans ((hmem.1.render (by decide)).trans (hhead.render (by decide))))
  · exact (ht.corr (by simp)).trans ((hlast.corr (by decide)).trans ((hmem.1.corr (by decide)).trans (hhead.corr (by decide))))
  · have hm : t.maps = v.cur.maps := (ht.maps (by simp)).trans (hlast.maps (by decide))
    have hs : u.cur.maps = s.maps := hhead.maps (by decide)
    have hrows := hmem.2
    rw [← hm, hs] at hrows
    generalize t.maps = x at hrows
    generalize s.maps = y at hrows
    cases x
    cases y
    simp only [Maps.mk.injEq] at hrows ⊢
    tauto
  · have hidle : BusIdle u.cur := by
      have hm : u.cur.mem = s.mem := hhead.mem (by decide)
      rw [BusIdle, hm]
      exact ⟨hw, hf, hp, hc⟩
    obtain ⟨-, -, hp', hc'⟩ := hidle.memoryBack hbus
    have hq := hquiet hp' hc'
    exact ⟨(ht.scene (by simp)).trans ((hlast.scene (by decide)).trans ((hq.scene (by decide)).trans (hhead.scene (by decide)))),
      (ht.maps (by simp)).trans ((hlast.maps (by decide)).trans ((hq.maps (by decide)).trans (hhead.maps (by decide))))⟩

/-- Settles O17, window by window and change by change, and for a period by what its parts touch while the engines stand. -/
theorem periodsComplete : Obligations.PeriodsComplete := by
  unfold Obligations.PeriodsComplete
  exact ⟨fun s hc => ⟨fun hd bad => windowOpen_evaluates hc hd bad, fun b rep hl hb hr => windowClose_closes hc hl hb hr,
    fun cells words hr hm hb => renderWindow_renders hc cells words hr hm hb, fun l hf => depthChange_lands hc hf,
    fun l hr hf => repack_lands hc hr hf⟩, fun s e hc => periodStart_standing hc e⟩

end Sys2Proof.Machine
end

section
/-! PROOFS. Filter sets and Grafts (R117, R118, R127 to R130). -/

namespace Sys2Proof.Machine
open Sys2Proof

set_option Elab.async false

variable {s0 s a b : State} {M : List Part}

/-- The end of a command leaves every entry but those of the notifications. -/
theorem Kept.seenG {i n c : ℕ} (h : Kept (fun _ => False) M a b) (hk : apart [] i c = true := by decide) : b.g i n c = a.g i n c :=
  h.g (by simp) (noted_of_apart hk)

theorem Kept.seenGb {i n c : ℕ} (h : Kept (fun _ => False) M a b) : b.gb i n c = a.gb i n c := h.gb (by simp)

theorem guardedBad_start {h : ℕ} {o : OpFields} (hk : s.writeCheck h o = stOK) (bad r : Tx s → Tx s) :
    (Tx.start s).guardedBad h o bad r = r ((Tx.start s).status stOK) := by
  unfold Tx.guardedBad
  dsimp only
  rw [start_writeCheck, hk]
  rfl

theorem findIdxFrom_none {α : Type} {p : α → Bool} : ∀ {l : List α} (i : ℕ), (∀ x ∈ l, p x = false) → findIdxFrom p l i = none
  | [], _, _ => rfl
  | x :: l, i, h => by
    unfold findIdxFrom
    rw [h x (.head _), if_neg (by decide)]
    exact findIdxFrom_none (i + 1) fun y hy => h y (.tail _ hy)

/-! ## Filter sets -/

/-- Data that pass steps 2 to 5 of R117 are accepted. -/
theorem setDataRule_accepts (t : Tx s0) (f : ℕ) {d : Bytes} (hl : d.length = 384 + 4 * fieldLE d 4 4) (hh : headerOk d = true)
    (hb : ∀ i < 16, biquadOk (biquad d i) = true) (ht : ∀ x ∈ dataTaps d, tapOk x = true) :
    setDataRule f d t = (((((t.wb 0x3A00 f 0x01 d).w 0x3A00 f 0x03 1).w 0x3A00 f 0x04 (fieldLE d 4 4)).w 0x3A00 f 0x05
      (256 * ceilDiv (fieldLE d 4 4) 256)).w 0x3A00 f 0x06 (fieldLE d 12 4)).uploadEnd f 0 0xFFFF := by
  have hn : fieldLE d 4 4 ≤ 32768 := by
    unfold headerOk at hh
    simp only [Bool.and_eq_true, decide_eq_true_eq] at hh
    omega
  have hbig : findIdxFrom (fun c => !biquadOk c) ((List.range 16).map (biquad d)) 0 = none := findIdxFrom_none 0 fun x hx => by
    obtain ⟨i, hi, rfl⟩ := List.mem_map.mp hx
    rw [hb i (List.mem_range.mp hi)]
    rfl
  have htap : findIdxFrom (fun h => !tapOk h) (dataTaps d) 0 = none := findIdxFrom_none 0 fun x hx => by
    rw [ht x hx]
    rfl
  have hlen : ¬ 131456 < d.length := by omega
  unfold setDataRule
  have hne : (d.length != 384 + 4 * fieldLE d 4 4) = false := by simpa using hl
  simp only [hbig, htap, hh, hne, hlen, decide_false, Bool.or_self, Bool.not_true, Bool.false_eq_true, if_false]

theorem setDataUpload_accepts (hc : s.clocked = true) {n : ℕ} (hn : n < 1024) {h : ℕ} {d : Bytes}
    (hk : s.writeCheck h (opOf 0x3A00 n 0x01 d) = stOK) (hu : s.setUses n = 0) (hl : d.length = 384 + 4 * fieldLE d 4 4)
    (hh : headerOk d = true) (hb : ∀ i < 16, biquadOk (biquad d i) = true) (htap : ∀ x ∈ dataTaps d, tapOk x = true) :
    ∃ t, exec (.setDataUpload h n d) s = .next t ∧ t.gb 0x3A00 n 0x01 = d ∧ t.g 0x3A00 n 0x03 = 1 ∧
      t.g 0x3A00 n 0x04 = fieldLE d 4 4 ∧ t.g 0x3A00 n 0x09 = 0 ∧ t.result = ⟨some stOK, []⟩ := by
  have hrule : uploadRule n d ((Tx.start s).status stOK) = setDataRule n d ((Tx.start s).status stOK) := by
    unfold uploadRule
    rw [show ((Tx.start s).status stOK).cur.setUses n = 0 from hu]
    rfl
  change ∃ t, execSetDataUpload h n d s = .next t ∧ _
  unfold execSetDataUpload
  refine run_to hc _ ((guardedBad_start hk ..).trans (hrule.trans (setDataRule_accepts _ n hl hh hb htap))) fun t ht => ?_
  have hn4 : fieldLE d 4 4 ≤ 32768 := by
    unfold headerOk at hh
    simp only [Bool.and_eq_true, decide_eq_true_eq] at hh
    omega
  have hres : ((Tx.start s).status stOK).cur.result = ⟨some stOK, []⟩ := rfl
  generalize (Tx.start s).status stOK = u at ht hres
  refine ⟨?_, ?_, ?_, ?_, ?_⟩
  · rw [ht.seenGb, Kept.gbOf (l := [.all 0x3A00 [0x03, 0x04, 0x05, 0x06, 0x09, 0x0A]]) (M := [])
      (.step (Tx.uploadEnd_keeps ..) (.w (.w (.w (.w (.refl ..))))))]
    exact Tx.wb_blob_same ..
  · rw [ht.seenG, Kept.gOf (l := [.all 0x3A00 [0x04, 0x05, 0x06, 0x09, 0x0A]]) (M := [])
      (.step (Tx.uploadEnd_keeps ..) (.w (.w (.w (.refl ..)))))]
    exact Tx.w_g_of (i := 0x3A00) (c := 0x03) _ (entryAt_ent hn rfl) rfl
  · rw [ht.seenG, Kept.gOf (l := [.all 0x3A00 [0x05, 0x06, 0x09, 0x0A]]) (M := []) (.step (Tx.uploadEnd_keeps ..) (.w (.w (.refl ..))))]
    refine Tx.w_g_of (i := 0x3A00) (c := 0x04) _ (entryAt_ent hn rfl) (fit_of_lt (by decide) ?_)
    exact Nat.lt_of_le_of_lt hn4 (by decide)
  · rw [ht.seenG]
    unfold Tx.uploadEnd
    rw [Kept.gOf (l := [.all 0x3A00 [0x0A]]) (M := []) (.w (.refl ..))]
    exact Tx.w_g_of (i := 0x3A00) (c := 0x09) _ (entryAt_ent hn rfl) rfl
  · rw [ht.result (by simp), Kept.result (E := Keys [.all 0x3A00 [0x01, 0x03, 0x04, 0x05, 0x06, 0x09, 0x0A]]) (M := [])
      (.step (Tx.uploadEnd_keeps ..) (.w (.w (.w (.w (.wb (.refl ..))))))) (by simp), hres]

theorem setReady_readies (hc : s.clocked = true) {n : ℕ} (hn : n < 1024) (h1 : s.g 0x3A00 n 0x03 = 1) :
    ∃ t, exec (.setReady n) s = .next t ∧ t.g 0x3A00 n 0x03 = 2 ∧ Kept (· = K 0x3A00 n 0x03) [.result, .outs] s t := by
  change ∃ t, execSetReady n s = .next t ∧ _
  unfold execSetReady
  have h1 : (Tx.start s).g 0x3A00 n 0x03 = 1 := h1
  refine run_to hc ((Tx.start s).w 0x3A00 n 0x03 2) (by rw [h1]; rfl) fun t ht => ⟨?_, ?_⟩
  · rw [ht.seenG]
    exact Tx.w_g_of (i := 0x3A00) (c := 0x03) _ (entryAt_ent hn rfl) rfl
  · exact Kept.of_run (by simp) (by simp) (.wKey (.refl ..) rfl) ht

theorem setErase_erases (hc : s.clocked = true) {n : ℕ} (hn : n < 1024) {h : ℕ} {d : Bytes}
    (hk : s.writeCheck h (opOf 0x3A00 n 0x08 d) = stOK) (hu : s.setUses n = 0) :
    ∃ t, exec (.setErase h n d) s = .next t ∧ t.gb 0x3A00 n 0x01 = [] ∧ t.g 0x3A00 n 0x03 = 0 ∧ t.g 0x3A00 n 0x04 = 0 := by
  have hrule : eraseRule n ((Tx.start s).status stOK) = ((((((Tx.start s).status stOK).wb 0x3A00 n 0x01 []).w 0x3A00 n 0x03 0).w
      0x3A00 n 0x04 0).w 0x3A00 n 0x05 0).w 0x3A00 n 0x06 0 := by
    unfold eraseRule
    rw [show ((Tx.start s).status stOK).cur.setUses n = 0 from hu]
    rfl
  change ∃ t, execSetErase h n d s = .next t ∧ _
  unfold execSetErase
  refine run_to hc _ ((guarded_start hk _).trans hrule) fun t ht => ?_
  generalize (Tx.start s).status stOK = u at ht
  refine ⟨?_, ?_, ?_⟩
  · rw [ht.seenGb, Kept.gbOf (l := [.all 0x3A00 [0x03, 0x04, 0x05, 0x06]]) (M := []) (.w (.w (.w (.w (.refl ..)))))]
    exact Tx.wb_blob_same ..
  · rw [ht.seenG, Kept.gOf (l := [.all 0x3A00 [0x04, 0x05, 0x06]]) (M := []) (.w (.w (.w (.refl ..))))]
    exact Tx.w_g_of (i := 0x3A00) (c := 0x03) _ (entryAt_ent hn rfl) rfl
  · rw [ht.seenG, Kept.gOf (l := [.all 0x3A00 [0x05, 0x06]]) (M := []) (.w (.w (.refl ..)))]
    exact Tx.w_g_of (i := 0x3A00) (c := 0x04) _ (entryAt_ent hn rfl) rfl

/-! ## Grafts -/

theorem Tx.setChain_chain (t : Tx s0) (k : ℕ) (c : OutChain) (j : ℕ) :
    (t.setChain k c).cur.chain j = if j = k then c else t.cur.chain j := mget_mputD ..

theorem State.chain_congr (h : b.corr = a.corr) (k : ℕ) : b.chain k = a.chain k := by
  unfold State.chain
  rw [h]

/-- A record for a set that is to come, at an output whose Graft does not run, waits for its start. -/
theorem Tx.acceptGraft_waits (t : Tx s0) (a : ℕ) (r : GraftRec) (hf : r.set ≠ t.cur.futureSet r.out)
    (hr : (t.cur.chain r.out).run = none) :
    ((t.acceptGraft a r).cur.chain r.out).pend =
      some (r.set, r.law, r.exp, if r.flags = 1 ∨ r.late a = true then a + 33 else r.start) := by
  have hlate : Keeps [.all 0x3800 [0x17], .all 0x3B00 [0x09, 0x0E]] [] t.cur
      (t.when (r.late a) (fun t => ((t.tally 0x3B00 0 0x09).flagBit 0x3800 r.out 0x17 3).flagBit 0x3B00 0 0x0E 3)).cur :=
    .when (fun _ => .flagBit (.flagBit (.tally (.refl ..)))) (.refl ..)
  unfold Tx.acceptGraft
  dsimp only
  generalize t.when (r.late a) (fun t => ((t.tally 0x3B00 0 0x09).flagBit 0x3800 r.out 0x17 3).flagBit 0x3B00 0 0x0E 3) = u at hlate
  have hfut : u.cur.futureSet r.out = t.cur.futureSet r.out := by
    unfold State.futureSet State.force
    rw [State.chain_congr (hlate.corr (by decide)), hlate.gOf]
  have hne : (r.set == u.cur.futureSet r.out) = false := by rw [hfut, beq_eq_false_iff_ne]; exact hf
  rw [hne, if_neg (by decide), hr]
  rw [State.chain_congr ((Tx.showGrafts_keeps ..).corr (by decide)), Tx.setChain_chain, if_pos rfl]
  simp only [Bool.or_eq_true, beq_iff_eq]

theorem graftRequest_waits (hc : s.clocked = true) {h : ℕ} {d : Bytes}
    (hk : s.writeCheck h (opOf 0x3B00 0 0x01 d) = stOK) (hl : d.length = 16) (hg : s.graftCheck h s.now [] (graftRec d) = stOK)
    (hb : s.tapsAfter s.taps (graftRec d) ≤ s.tapBudget) (hf : (graftRec d).set ≠ s.futureSet (graftRec d).out)
    (hr : (s.chain (graftRec d).out).run = none) :
    ∃ t, exec (.graftRequest h d) s = .next t ∧
      (t.chain (graftRec d).out).pend = some ((graftRec d).set, (graftRec d).law, (graftRec d).exp,
        if (graftRec d).flags = 1 ∨ (graftRec d).late s.now = true then s.now + 33 else (graftRec d).start) ∧
      t.result = ⟨some (if (graftRec d).late s.now then stTooLate else stOK), []⟩ := by
  have hrule : graftRule h d ((Tx.start s).status stOK) =
      ((((Tx.start s).status stOK).acceptGraft s.now (graftRec d)).graftReport h 1 ([graftRec d].filter (fun r => r.late s.now)).length
        (if (graftRec d).late s.now then stTooLate else stOK) 0xFFFF s.now).status
        (if (graftRec d).late s.now then stTooLate else stOK) := by
    have hfail : ((Tx.start s).status stOK).cur.graftFail h s.now 0 [] [graftRec d] = none := by
      unfold State.graftFail
      rw [show ((Tx.start s).status stOK).cur.graftCheck h s.now [] (graftRec d) = stOK from hg]
      rfl
    have hbud : ¬ ((Tx.start s).status stOK).cur.tapBudget < [graftRec d].foldl ((Tx.start s).status stOK).cur.tapsAfter
        ((Tx.start s).status stOK).cur.taps := Nat.not_lt.mpr hb
    have hst : (if ([graftRec d].filter (fun r => r.late s.now)).length != 0 then stTooLate else stOK) =
        if (graftRec d).late s.now then stTooLate else stOK := by
      cases hlate : (graftRec d).late s.now <;> simp [hlate]
    have hnow : ((Tx.start s).status stOK).cur.now = s.now := rfl
    unfold graftRule
    simp only [hl, chunks_one hl, List.map_cons, List.map_nil, hnow, hfail, hbud, hst, if_false]
    rfl
  change ∃ t, execGraftRequest h d s = .next t ∧ _
  unfold execGraftRequest
  refine run_to hc _ ((guardedBad_start hk ..).trans hrule) fun t ht => ⟨?_, (ht.result (by simp)).trans (Tx.status_result ..)⟩
  have hw := ((Tx.start s).status stOK).acceptGraft_waits s.now (graftRec d) hf hr
  generalize ((Tx.start s).status stOK).acceptGraft s.now (graftRec d) = u at ht hw
  have hrep : Keeps [.all 0x3B01 [0x01, 0x02, 0x03, 0x04, 0x05]] [.result] u.cur ((u.graftReport h 1 ([graftRec d].filter (fun r =>
      r.late s.now)).length (if (graftRec d).late s.now then stTooLate else stOK) 0xFFFF s.now).status
      (if (graftRec d).late s.now then stTooLate else stOK)).cur := by
    unfold Tx.graftReport
    exact .status (.w (.w (.w (.w (.w (.refl ..))))))
  rw [State.chain_congr (ht.corr (by simp)), State.chain_congr (hrep.corr (by decide)), hw]

theorem graftStart_starts (hc : s.clocked = true) {n set law e start : ℕ} (hn : n < 512) (hrun : s.engines.running = true)
    (hr : (s.chain n).run = none) (hp : (s.chain n).pend = some (set, law, e, start)) (hs : start ≤ s.now) :
    ∃ t, exec (.graftStart n) s = .next t ∧ (t.chain n).pend = none ∧ t.g 0x3800 n 0x0A = 2 ∧
      (t.chain n).run = some ⟨s.force n, set, start, s.setLen set + s.setSettle set, 2 ^ e, law⟩ := by
  have hend : (Tx.start s).graftEnd n = Tx.start s := by
    unfold Tx.graftEnd
    dsimp only
    rw [show ((Tx.start s).cur.chain n).run = none from hr]
  have hstart : (Tx.start s).graftStart n = ((((Tx.start s).setChain n { s.chain n with
      run := some ⟨s.force n, set, start, s.setLen set + s.setSettle set, 2 ^ e, law⟩, pend := none,
      gs := (s.chain n).gs ++ [(⟨s.force n, set, start, s.setLen set + s.setSettle set, 2 ^ e, law⟩, SetChain.fresh set start)] }).showGrafts
      n).w 0x3800 n 0x0A 2).graftMsg n set 0 := by
    have hcond : (decide ((Tx.start s).cur.now < start) || !(Tx.start s).cur.engines.running) = false := by
      rw [show (Tx.start s).cur.engines.running = true from hrun, show (Tx.start s).cur.now = s.now from rfl]
      simpa using hs
    unfold Tx.graftStart
    dsimp only
    rw [show ((Tx.start s).cur.chain n) = s.chain n from rfl, hr, hp]
    dsimp only
    rw [hcond, if_neg (by decide)]
    rfl
  change ∃ t, execGraftStart n s = .next t ∧ _
  unfold execGraftStart
  refine run_to hc _ (by rw [hend, hstart]) fun t ht => ?_
  generalize hx : (⟨s.force n, set, start, s.setLen set + s.setSettle set, 2 ^ e, law⟩ : Graft) = g at ht
  have hcorr : ∀ v : Tx s, Keeps [.all 0x3800 [0x0A, 0x0B, 0x0C, 0x0D, 0x0E, 0x0F]] [] v.cur
      (((v.showGrafts n).w 0x3800 n 0x0A 2).graftMsg n set 0).cur := fun v => by
    unfold Tx.graftMsg
    exact .msg (.w (.step (Tx.showGrafts_keeps ..) (.refl ..)))
  have hchain := State.chain_congr ((ht.corr (by simp)).trans ((hcorr _).corr (by decide))) n
  rw [Tx.setChain_chain, if_pos rfl] at hchain
  refine ⟨by rw [hchain], ?_, by rw [hchain]⟩
  rw [ht.seenG]
  exact Tx.w_g_of (i := 0x3800) (c := 0x0A) _ (entryAt_ent hn rfl) rfl

theorem graftFade_fades (hc : s.clocked = true) {n : ℕ} {g : Graft} (hn : n < 512) (hr : (s.chain n).run = some g)
    (hg : g.start + g.warm ≤ s.now) (h2 : s.g 0x3800 n 0x0A = 2) :
    ∃ t, exec (.graftFade n) s = .next t ∧ t.g 0x3800 n 0x0A = 3 ∧ Kept (· = K 0x3800 n 0x0A) [.result, .outs] s t := by
  change ∃ t, execGraftFade n s = .next t ∧ _
  unfold execGraftFade
  have hcond : (decide (s.now < g.start + g.warm) || s.g 0x3800 n 0x0A != 2) = false := by
    rw [h2]
    simpa using hg
  refine run_to hc (((Tx.start s).w 0x3800 n 0x0A 3).graftMsg n g.into 1) (by simp only [hr, hcond]; rfl) fun t ht => ⟨?_, ?_⟩
  · rw [ht.seenG]
    exact Tx.w_g_of (i := 0x3800) (c := 0x0A) _ (entryAt_ent hn rfl) rfl
  · exact Kept.of_run (by simp) (by simp) (.msg (.wKey (.refl ..) rfl)) ht

theorem graftEnd_ends (hc : s.clocked = true) {n : ℕ} {g : Graft} (hn : n < 512) (hr : (s.chain n).run = some g)
    (hg : g.last < s.now) (hi : g.into < 1024) :
    ∃ t, exec (.graftEnd n) s = .next t ∧ (t.chain n).run = none ∧ t.g 0x3800 n 0x01 = g.into ∧
      t.g 0x3B00 0 0x07 = (s.g 0x3B00 0 0x07 + 1) % 2 ^ 32 := by
  have hend : (Tx.start s).graftEnd n = (((((((Tx.start s).setChain n { s.chain n with
      run := none, a := (Tx.start s).cur.keepData (s.chain n).a }).w 0x3800 n 0x01 g.into)).tally 0x3B00 0 0x07).flagBit 0x3800 n 0x17 2).showGrafts n).graftMsg n g.into 2 := by
    unfold Tx.graftEnd
    dsimp only
    rw [show ((Tx.start s).cur.chain n) = s.chain n from rfl, hr]
    exact if_neg (Nat.not_lt.mpr hg)
  change ∃ t, execGraftEnd n s = .next t ∧ _
  unfold execGraftEnd
  refine run_to hc _ hend fun t ht => ?_
  generalize hx : { s.chain n with run := none, a := (Tx.start s).cur.keepData (s.chain n).a } = x at ht
  have hv : ((Tx.start s).setChain n x).cur.g 0x3B00 0 0x07 = s.g 0x3B00 0 0x07 := rfl
  generalize hv' : (Tx.start s).setChain n x = v at ht hv
  have hlast : ∀ v : Tx s, Keeps [.all 0x3800 [0x0A, 0x0B, 0x0C, 0x0D, 0x0E, 0x0F, 0x17]] [] v.cur
      (((v.flagBit 0x3800 n 0x17 2).showGrafts n).graftMsg n g.into 2).cur := fun v => by
    unfold Tx.graftMsg
    exact .msg (.step (Tx.showGrafts_keeps ..) (.flagBit (.refl ..)))
  refine ⟨?_, ?_, ?_⟩
  · have hcorr : ((v.w 0x3800 n 0x01 g.into).tally 0x3B00 0 0x07).cur.corr = v.cur.corr :=
      Kept.corr (E := Keys [.all 0x3800 [0x01], .all 0x3B00 [0x07], .ctr 0 300]) (M := []) (.tally (.w (.refl ..))) (by simp)
    rw [State.chain_congr ((ht.corr (by simp)).trans (((hlast _).corr (by decide)).trans hcorr)), ← hv', Tx.setChain_chain,
      if_pos rfl, ← hx]
  · rw [ht.seenG, (hlast _).gOf, Kept.gOf (l := [.all 0x3B00 [0x07], .ctr 0 300]) (M := []) (.tally (.refl ..))]
    refine Tx.w_g_of (i := 0x3800) (c := 0x01) _ (entryAt_ent hn rfl) (fit_of_lt (by decide) ?_)
    exact Nat.lt_of_lt_of_le hi (by decide)
  · rw [ht.seenG, (hlast _).gOf, Tx.tally_g (i := 0x3B00) (c := 0x07) _ (entryAt_ent (by decide : 0 < 1) rfl) (by decide),
      Kept.gOf (l := [.all 0x3800 [0x01]]) (M := []) (.w (.refl ..)), hv]
    rfl

/-- Settles O18, command by command. -/
theorem correctionComplete : Obligations.CorrectionComplete := by
  unfold Obligations.CorrectionComplete
  exact ⟨fun s n hc _ hn => ⟨fun h d hk hu hl hh hb htap => setDataUpload_accepts hc hn hk hu hl hh hb htap, setReady_readies hc hn,
      fun h d hk hu => setErase_erases hc hn hk hu⟩,
    fun s hc => ⟨fun h d _ hk hl hg hb hf hr => graftRequest_waits hc hk hl hg hb hf hr,
      fun n set law e start hn hrun hr hp hs => graftStart_starts hc hn hrun hr hp hs,
      fun n g hn hr hg h2 => graftFade_fades hc hn hr hg h2, fun n g hn hr hg hi => graftEnd_ends hc hn hr hg hi⟩⟩

end Sys2Proof.Machine
end

section
/-! PROOFS. The hop and bulk delays (R123, R124, R131, R132). -/

namespace Sys2Proof.Machine
open Sys2Proof

set_option Elab.async false

variable {s0 s a b : State}

/-! ## A phase on every chain -/

/-- One output's chains under a function. -/
def Tx.oneChain (f : State → ℕ → ℕ → SetChain → SetChain) (t : Tx s0) (k : ℕ) : Tx s0 :=
  let c := t.cur.chain k
  t.setChain k { c with a := f t.cur k 0 c.a,
                        gs := ((range' 1 c.gs.length).zip c.gs).map (fun g => (g.2.1, f t.cur k g.1 g.2.2)) }

theorem Tx.eachChain_eq (t : Tx s0) (f : State → ℕ → ℕ → SetChain → SetChain) :
    t.eachChain f = t.each (t.cur.corr.outs.map (·.1)) (Tx.oneChain f) := rfl

theorem Tx.oneChain_a (f : State → ℕ → ℕ → SetChain → SetChain) (t : Tx s0) (j k : ℕ) :
    ((t.oneChain f j).cur.chain k).a = if k = j then f t.cur j 0 (t.cur.chain j).a else (t.cur.chain k).a := by
  unfold Tx.oneChain
  dsimp only
  rw [Tx.setChain_chain]
  split
  · rfl
  · rfl

theorem Tx.oneChains_other {f : State → ℕ → ℕ → SetChain → SetChain} {k : ℕ} (ks : List ℕ) (t : Tx s0) (hk : k ∉ ks) :
    ((t.each ks (Tx.oneChain f)).cur.chain k).a = (t.cur.chain k).a := by
  induction ks generalizing t with
  | nil => rfl
  | cons i l ih =>
    rw [List.mem_cons, not_or] at hk
    exact (ih (t.oneChain f i) hk.2).trans (by rw [Tx.oneChain_a, if_neg hk.1])

/-- What a phase makes of an output's first chain, whatever it did to the others before. -/
theorem Tx.oneChains_a {f : State → ℕ → ℕ → SetChain → SetChain}
    (hf : ∀ u k c, (f u k 0 c).set = c.set ∧ (f u k 0 c).kept = c.kept) {k : ℕ} (ks : List ℕ) (t : Tx s0) (hk : k ∈ ks) :
    ∃ u c, ((t.each ks (Tx.oneChain f)).cur.chain k).a = f u k 0 c ∧ (∀ n, u.setData n = t.cur.setData n) ∧
      c.set = (t.cur.chain k).a.set ∧ c.kept = (t.cur.chain k).a.kept := by
  induction ks generalizing t with
  | nil => cases hk
  | cons j ks ih =>
    have hstep : ((t.oneChain f j).cur.chain k).a.set = (t.cur.chain k).a.set ∧
        ((t.oneChain f j).cur.chain k).a.kept = (t.cur.chain k).a.kept := by
      rw [Tx.oneChain_a]
      split
      · rename_i h
        rw [h]
        exact hf ..
      · exact ⟨rfl, rfl⟩
    have hdata : ∀ n, (t.oneChain f j).cur.setData n = t.cur.setData n := fun n => rfl
    have hsame := t.oneChain_a f j k
    show ∃ u c, (((t.oneChain f j).each ks (Tx.oneChain f)).cur.chain k).a = f u k 0 c ∧ _
    generalize t.oneChain f j = v at hstep hdata hsame
    by_cases hmem : k ∈ ks
    · obtain ⟨u, c, hc, hu, hset, hkept⟩ := ih v hmem
      exact ⟨u, c, hc, fun n => (hu n).trans (hdata n), hset.trans hstep.1, hkept.trans hstep.2⟩
    · have hkj : k = j := (List.mem_cons.mp hk).resolve_right hmem
      refine ⟨t.cur, (t.cur.chain k).a, ?_, fun _ => rfl, rfl, rfl⟩
      rw [Tx.oneChains_other ks v hmem, hsame, if_pos hkj, hkj]

theorem State.partitions_congr {c c' : SetChain} (hb : ∀ n, b.setData n = a.setData n) (hs : c'.set = c.set)
    (hk : c'.kept = c.kept) : b.partitions c' = a.partitions c := by
  unfold State.partitions State.chainData
  rw [hs, hk, hb]

/-- A phase's effect on the chains whose partitions it concerns. -/
theorem Tx.eachChain_meets {f : State → ℕ → ℕ → SetChain → SetChain} {P : SetChain → Prop} {Q : ℕ → Prop} (t : Tx s0)
    (hb : ∀ n, t.cur.setData n = s.setData n) (hc : t.cur.corr = s.corr)
    (hf : ∀ u k c, (f u k 0 c).set = c.set ∧ (f u k 0 c).kept = c.kept)
    (hP : ∀ u k c, Q (u.partitions c) → P (f u k 0 c)) {p : ℕ × OutChain} (hp : p ∈ s.corr.outs)
    (hq : Q (s.partitions (s.chain p.1).a)) : P ((t.eachChain f).cur.chain p.1).a := by
  rw [Tx.eachChain_eq]
  obtain ⟨u, c, hc', hu, hset, hkept⟩ := Tx.oneChains_a hf (t.cur.corr.outs.map (·.1)) t
    (List.mem_map.mpr ⟨p, by rw [hc]; exact hp, rfl⟩)
  rw [hc']
  refine hP u p.1 c ?_
  rw [State.chain_congr hc] at hset hkept
  rwa [State.partitions_congr (fun n => (hu n).trans (hb n)) hset hkept]

theorem State.bulkOf_same (H : ℕ) (bad : List ℕ) (c : SetChain) :
    (s.bulkOf H bad c).set = c.set ∧ (s.bulkOf H bad c).kept = c.kept := by
  unfold State.bulkOf
  dsimp only
  split <;> exact ⟨rfl, rfl⟩

theorem State.bulkOf_bulk (H : ℕ) (bad : List ℕ) (c : SetChain) (h : 2 ≤ s.partitions c) :
    (mget? (s.bulkOf H bad c).bulk H).isSome = true := by
  unfold State.bulkOf
  dsimp only
  rw [if_neg (Nat.not_lt.mpr h)]
  simp [mget?]

theorem State.urgentOf_same (H : ℕ) (bad : List ℕ) (c : SetChain) :
    (s.urgentOf H bad c).set = c.set ∧ (s.urgentOf H bad c).kept = c.kept := by
  unfold State.urgentOf
  dsimp only
  split <;> exact ⟨rfl, rfl⟩

theorem State.urgentOf_ready (H : ℕ) (bad : List ℕ) (c : SetChain) (h : s.partitions c ≠ 0) :
    (s.urgentOf H bad c).ready.map (·.1) = some H := by
  have hne : (s.partitions c == 0) = false := by simpa using h
  unfold State.urgentOf
  dsimp only
  rw [hne]
  rfl

theorem Tx.peak_g (t : Tx s0) {i n c v : ℕ} {e : Entry} (he : entryAt (K i n c) = some e) (hv : fit e v = v) :
    (t.peak i n c v).cur.g i n c = max (t.cur.g i n c) v := by
  unfold Tx.peak
  split
  · rename_i h
    rw [Tx.w_g_of t he hv]
    exact (Nat.max_eq_right (Nat.le_of_lt h)).symm
  · rename_i h
    exact (Nat.max_eq_left (Nat.not_lt.mp h)).symm

theorem Tx.spectraLost_keeps (t : Tx s0) (l : List SpectrumFault) : Keeps [.all 0x3800 [0x15, 0x17], .all 0x3B00 [0x0E],
    .all 0x6200 [0x19, 0x1B, 0x1C, 0x21], .ctr 247 247] [.free] t.cur (t.each l Tx.spectrumLost).cur :=
  .each (fun _ _ => .step (Tx.spectrumLost_keeps ..) (.refl ..)) (.refl ..)

theorem Tx.phaseUsed_g (t : Tx s0) {sub used : ℕ} (window : ℕ) (hs : sub = 0x04 ∨ sub = 0x07) (hu : used < 2 ^ 32) :
    (t.phaseUsed sub used window).cur.g 0x6300 0 sub = max (t.cur.g 0x6300 0 sub) used := by
  have hrest : Keeps [.all 0x6300 [0x08]] [] (t.peak 0x6300 0 sub used).cur (t.phaseUsed sub used window).cur :=
    .when (fun _ => .flagBit (.refl ..)) (.refl ..)
  rcases hs with rfl | rfl
  · rw [hrest.gOf]
    exact Tx.peak_g (i := 0x6300) (c := 0x04) t (entryAt_ent (by decide : 0 < 1) rfl) (fit_of_lt (by decide) hu)
  · rw [hrest.gOf]
    exact Tx.peak_g (i := 0x6300) (c := 0x07) t (entryAt_ent (by decide : 0 < 1) rfl) (fit_of_lt (by decide) hu)

theorem bulkPhase_computes (hc : s.clocked = true) (bad : List SpectrumFault) {used : ℕ} (hr : s.engines.running = true)
    (hn : s.now % 256 = 13) (hu : used < 2 ^ 32) :
    ∃ t, exec (.bulkPhase bad used) s = .next t ∧ t.g 0x6300 0 0x04 = max (s.g 0x6300 0 0x04) used ∧
      ∀ p ∈ s.corr.outs, 2 ≤ s.partitions (s.chain p.1).a → (mget? (t.chain p.1).a.bulk (s.now + 243)).isSome := by
  change ∃ t, execBulkPhase bad used s = .next t ∧ _
  unfold execBulkPhase
  have hon : (s.engines.running && s.now % 256 == 13) = true := by rw [hr, hn]; rfl
  have hlost := (Tx.start s).spectraLost_keeps (bad.filter (fun b => 2 ≤ b.part))
  refine run_to hc ((((Tx.start s).each (bad.filter (fun b => 2 ≤ b.part)) Tx.spectrumLost).eachChain (fun s' k i c =>
    s'.bulkOf (s.now + 243) (badParts bad k i) c)).phaseUsed 0x04 used
    (((Tx.start s).each (bad.filter (fun b => 2 ≤ b.part)) Tx.spectrumLost).g 0x6300 0 0x01)) (by simp only [hon, if_true])
    fun t ht => ?_
  generalize (Tx.start s).each (bad.filter (fun b => 2 ≤ b.part)) Tx.spectrumLost = u at ht hlost
  refine ⟨?_, fun p hp hq => ?_⟩
  · rw [ht.seenG, Tx.phaseUsed_g _ _ (.inl rfl) hu, (Tx.eachChain_keeps ..).gOf, hlost.gOf]
    rfl
  · rw [State.chain_congr ((ht.corr (by simp)).trans ((Tx.phaseUsed_keeps ..).corr (by decide)))]
    exact u.eachChain_meets (Q := fun n => 2 ≤ n) (P := fun c => (mget? c.bulk (s.now + 243)).isSome = true)
      (fun n => hlost.gbOf rfl) (hlost.corr (by decide)) (fun _ _ _ => State.bulkOf_same ..)
      (fun _ _ _ h => State.bulkOf_bulk _ _ _ h) hp hq

theorem urgentPhase_computes (hc : s.clocked = true) (bad : List SpectrumFault) {used : ℕ} (hr : s.engines.running = true)
    (hn : s.now % 256 = 13) (hu : used < 2 ^ 32) :
    ∃ t, exec (.urgentPhase bad used) s = .next t ∧ t.g 0x6300 0 0x07 = max (s.g 0x6300 0 0x07) used ∧
      ∀ p ∈ s.corr.outs, s.partitions (s.chain p.1).a ≠ 0 → (t.chain p.1).a.ready.map (·.1) = some (s.now - 13) := by
  change ∃ t, execUrgentPhase bad used s = .next t ∧ _
  unfold execUrgentPhase
  have hon : (s.engines.running && s.now % 256 == 13) = true := by rw [hr, hn]; rfl
  have hlost := (Tx.start s).spectraLost_keeps (bad.filter (fun b => b.part == 1))
  refine run_to hc ((((Tx.start s).each (bad.filter (fun b => b.part == 1)) Tx.spectrumLost).eachChain (fun s' k i c =>
    s'.urgentOf (s.now - 13) (badParts bad k i) c)).phaseUsed 0x07 used (if s.fA == 96000 then 62500 else 125000))
    (by simp only [hon, if_true]) fun t ht => ?_
  generalize (Tx.start s).each (bad.filter (fun b => b.part == 1)) Tx.spectrumLost = u at ht hlost
  refine ⟨?_, fun p hp hq => ?_⟩
  · rw [ht.seenG, Tx.phaseUsed_g _ _ (.inr rfl) hu, (Tx.eachChain_keeps ..).gOf, hlost.gOf]
    rfl
  · rw [State.chain_congr ((ht.corr (by simp)).trans ((Tx.phaseUsed_keeps ..).corr (by decide)))]
    exact u.eachChain_meets (Q := fun n => n ≠ 0) (P := fun c => c.ready.map (·.1) = some (s.now - 13)) (fun n => hlost.gbOf rfl)
      (hlost.corr (by decide)) (fun _ _ _ => State.urgentOf_same ..) (fun _ _ _ h => State.urgentOf_ready _ _ _ h) hp hq

theorem hopEvent_counts (hc : s.clocked = true) (hr : s.engines.running = true) (hn : s.now % 256 = 19)
    (hh : s.corr.hop ≠ some (s.now - 19)) :
    ∃ t, exec .hopEvent s = .next t ∧ t.corr.hop = some (s.now - 19) ∧
      t.g 0x3B00 0 0x0C = (s.g 0x3B00 0 0x0C + 1) % 2 ^ 32 := by
  change ∃ t, execHopEvent s = .next t ∧ _
  unfold execHopEvent
  have hne : (s.corr.hop != some (s.now - 19)) = true := by simpa using hh
  have hon : (s.engines.running && s.now % 256 == 19 && s.corr.hop != some (s.now - 19)) = true := by rw [hr, hn, hne]; rfl
  have htail := (Tx.start s).eachChain_keeps (fun _ _ _ c => c.useTail)
  refine run_to hc (((((Tx.start s).eachChain (fun _ _ _ c => c.useTail)).setCorr { ((Tx.start s).eachChain (fun _ _ _ c =>
    c.useTail)).cur.corr with hop := some (s.now - 19) }).tally 0x3B00 0 0x0C).msg 2 (leBytes 8 (s.now - 19)))
    (by simp only [hon, if_true]) fun t ht => ?_
  generalize (Tx.start s).eachChain (fun _ _ _ c => c.useTail) = u at ht htail
  refine ⟨?_, ?_⟩
  · rw [ht.corr (by simp), Kept.corr (E := Keys [.all 0x3B00 [0x0C], .ctr 0 300]) (M := []) (.msg (.tally (.refl ..))) (by simp)]
    rfl
  · rw [ht.seenG, Kept.gOf (l := []) (M := []) (.msg (.refl ..)),
      Tx.tally_g (i := 0x3B00) (c := 0x0C) _ (entryAt_ent (by decide : 0 < 1) rfl) (by decide),
      Kept.gOf (l := []) (M := [.corr]) (.setCorr (.refl ..)), htail.gOf]
    rfl

/-! ## Bulk delays -/

theorem bulkDelayWrite_waits (hc : s.clocked = true) {h n L : ℕ} {d : Bytes}
    (hk : s.writeCheck h (opOf 0x3800 n 0x02 d) = stOK)
    (hin : ∀ l, (s.chain n).bulkX = some l → s.now < l + 64 → L = l + 64)
    (hout : (∀ l, (s.chain n).bulkX = some l → l + 64 ≤ s.now) → L = nextEval s.now) :
    ∃ t, exec (.bulkDelayWrite h n d) s = .next t ∧ t.g 0x3800 n 0x02 = leNat d ∧
      (t.chain n).bulkP = some ⟨leNat d, L, s.now, false⟩ := by
  have hland : (match (s.chain n).bulkX with
      | some l => if s.now < l + 64 then l + 64 else nextEval s.now
      | none => nextEval s.now) = L := by
    cases hx : (s.chain n).bulkX with
    | none => exact (hout (by simp [hx])).symm
    | some l =>
      dsimp only
      split
      · rename_i hlt
        exact (hin l hx hlt).symm
      · rename_i hge
        refine (hout fun l' hl' => ?_).symm
        rw [hx] at hl'
        cases hl'
        exact Nat.not_lt.mp hge
  have hrule : bulkRule n d ((Tx.start s).status stOK) = (((Tx.start s).status stOK).w 0x3800 n 0x02 (leNat d)).setChain n
      { s.chain n with bulkP := some ⟨leNat d, L, s.now, false⟩ } := by
    rw [← hland]
    rfl
  change ∃ t, execBulkDelayWrite h n d s = .next t ∧ _
  unfold execBulkDelayWrite
  refine run_to hc _ ((guarded_start hk _).trans hrule) fun t ht => ⟨?_, ?_⟩
  · rw [ht.seenG, Kept.gOf (l := []) (Tx.setChain_keeps ..)]
    exact Tx.w_written _ hk rfl
  · rw [State.chain_congr (ht.corr (by simp)), Tx.setChain_chain, if_pos rfl]

theorem mem_insertBy {α : Type} {lt : α → α → Bool} {x y : α} {l : List α} : x ∈ insertBy lt y l ↔ x = y ∨ x ∈ l := by
  induction l with
  | nil => simp [insertBy]
  | cons z l ih =>
    unfold insertBy
    split
    · simp
    · rw [List.mem_cons, ih, List.mem_cons]
      tauto

theorem mem_sortBy {α : Type} {lt : α → α → Bool} {x : α} {l : List α} : x ∈ sortBy lt l ↔ x ∈ l := by
  have hgo : ∀ (l acc : List α), x ∈ l.foldl (fun acc a => insertBy lt a acc) acc ↔ x ∈ l ∨ x ∈ acc := fun l => by
    induction l with
    | nil => simp
    | cons y l ih =>
      intro acc
      rw [List.foldl_cons, ih, mem_insertBy, List.mem_cons]
      tauto
  simpa [sortBy] using hgo l []

theorem Tx.bulkStart_of_none (t : Tx s0) (k : ℕ) (h : (t.cur.chain k).bulkP = none) : t.bulkStart k = t := by
  unfold Tx.bulkStart
  simp only [h]

theorem Tx.bulkStarts_of_none (n : ℕ) : ∀ (l : List (ℕ × ℕ)) (t : Tx s0), (∀ x ∈ l, x.2 = n) → (t.cur.chain n).bulkP = none →
    t.each l (fun t x => t.bulkStart x.2) = t
  | [], _, _, _ => rfl
  | x :: l, t, hl, h => by
    show (t.bulkStart x.2).each l (fun t x => t.bulkStart x.2) = t
    rw [hl x (.head _), t.bulkStart_of_none n h]
    exact Tx.bulkStarts_of_none n l t (fun y hy => hl y (.tail _ hy)) h

/-- A change whose boundary has come starts where fewer than 256 cross-fades run. -/
theorem Tx.bulkStart_of_due (t : Tx s0) {n : ℕ} {p : BulkPend} (hp : (t.cur.chain n).bulkP = some p) (hf : t.cur.fadesRunning < 256) :
    t.bulkStart n = (t.setChain n { t.cur.chain n with
      bulkP := none, bulkX := some (max p.land (t.cur.now / 16 * 16)),
      bulks := (t.cur.chain n).bulks ++ [(max p.land (t.cur.now / 16 * 16), p.delay)] }).w 0x3800 n 0x03 p.delay := by
  unfold Tx.bulkStart
  simp only [hp, if_neg (Nat.not_le.mpr hf)]

/-- The changes whose boundary has come, by acceptance and output. -/
def State.bulksDue (s : State) : List (ℕ × ℕ) :=
  s.corr.outs.filterMap (fun x =>
    match x.2.bulkP with
    | some p => if p.land ≤ s.now then some (p.acc, x.1) else none
    | none => none)

theorem State.bulksDue_only {n : ℕ} (ho : ∀ x ∈ s.corr.outs, x.1 ≠ n → ∀ q, x.2.bulkP = some q → s.now < q.land) :
    ∀ y ∈ s.bulksDue, y.2 = n := by
  intro y hy
  obtain ⟨x, hx, hxy⟩ := List.mem_filterMap.mp hy
  by_contra hne
  split at hxy
  · rename_i q hq
    split at hxy
    · rename_i hle
      cases hxy
      exact absurd (ho x hx hne q hq) (Nat.not_lt.mpr hle)
    · cases hxy
  · cases hxy

theorem State.mem_bulksDue {n : ℕ} {p : BulkPend} (hp : (s.chain n).bulkP = some p) (hl : p.land ≤ s.now) :
    (p.acc, n) ∈ s.bulksDue := by
  cases hm : mget? s.corr.outs n with
  | none =>
    unfold State.chain mget at hp
    rw [hm] at hp
    cases hp
  | some c =>
    have hc : s.chain n = c := by
      unfold State.chain mget
      rw [hm]
      rfl
    rw [hc] at hp
    refine List.mem_filterMap.mpr ⟨(n, c), mem_of_mget? hm, ?_⟩
    simp only [hp, if_pos hl]

theorem bulkCrossfade_starts (hc : s.clocked = true) {n : ℕ} {p : BulkPend} (hr : s.engines.running = true) (hn : n < 512)
    (hp : (s.chain n).bulkP = some p) (hl : p.land ≤ s.now) (hf : s.fadesRunning < 256)
    (ho : ∀ x ∈ s.corr.outs, x.1 ≠ n → ∀ q, x.2.bulkP = some q → s.now < q.land) :
    ∃ t, exec .bulkCrossfade s = .next t ∧ (t.chain n).bulkP = none ∧
      (t.chain n).bulkX = some (max p.land (s.now / 16 * 16)) ∧ t.g 0x3800 n 0x03 = p.delay % 2 ^ 32 := by
  have hstart := (Tx.start s).bulkStart_of_due (n := n) hp hf
  have hbegun : (Tx.start s).cur.chain n = s.chain n ∧ (Tx.start s).cur.now = s.now := ⟨rfl, rfl⟩
  rw [hbegun.1, hbegun.2] at hstart
  generalize hx : { s.chain n with
      bulkP := none, bulkX := some (max p.land (s.now / 16 * 16)),
      bulks := (s.chain n).bulks ++ [(max p.land (s.now / 16 * 16), p.delay)] } = x at hstart
  have hchain : (((Tx.start s).setChain n x).w 0x3800 n 0x03 p.delay).cur.chain n = x := by
    rw [State.chain_congr (Kept.corr (E := Keys [.all 0x3800 [0x03]]) (M := []) (.w (.refl ..)) (by simp)), Tx.setChain_chain, if_pos rfl]
  have heach : (Tx.start s).each (sortBy (fun (a b : ℕ × ℕ) => a.1 < b.1 || (a.1 == b.1 && a.2 < b.2)) s.bulksDue) (fun t x =>
      t.bulkStart x.2) = ((Tx.start s).setChain n x).w 0x3800 n 0x03 p.delay := by
    have hall : ∀ y ∈ sortBy (fun (a b : ℕ × ℕ) => a.1 < b.1 || (a.1 == b.1 && a.2 < b.2)) s.bulksDue, y.2 = n := fun y hy =>
      State.bulksDue_only ho y (mem_sortBy.mp hy)
    have hmem : (p.acc, n) ∈ sortBy (fun (a b : ℕ × ℕ) => a.1 < b.1 || (a.1 == b.1 && a.2 < b.2)) s.bulksDue :=
      mem_sortBy.mpr (State.mem_bulksDue hp hl)
    generalize sortBy (fun (a b : ℕ × ℕ) => a.1 < b.1 || (a.1 == b.1 && a.2 < b.2)) s.bulksDue = l at hall hmem
    cases l with
    | nil => cases hmem
    | cons y l =>
      show ((Tx.start s).bulkStart y.2).each l (fun t x => t.bulkStart x.2) = _
      rw [hall y (.head _), hstart]
      exact Tx.bulkStarts_of_none n l _ (fun z hz => hall z (.tail _ hz)) (by rw [hchain, ← hx])
  change ∃ t, execBulkCrossfade s = .next t ∧ _
  unfold execBulkCrossfade
  refine run_to hc (((Tx.start s).setChain n x).w 0x3800 n 0x03 p.delay) (by rw [← heach, hr]; rfl) fun t ht => ?_
  rw [State.chain_congr (ht.corr (by simp)), hchain, ht.seenG, ← hx]
  exact ⟨rfl, rfl, Tx.w_get_same _ _ (entryAt_ent (i := 0x3800) (c := 0x03) hn rfl)⟩

/-- Settles O19, phase by phase and for a delay at its write and its boundary. -/
theorem hopCompletes : Obligations.HopCompletes := by
  unfold Obligations.HopCompletes
  exact fun s hc => ⟨fun bad used hr hn hu => bulkPhase_computes hc bad hr hn hu,
    fun bad used hr hn hu => urgentPhase_computes hc bad hr hn hu, hopEvent_counts hc,
    fun h n d L hk hin hout => bulkDelayWrite_waits hc hk hin hout,
    fun n p hr hn hp hl hf ho => bulkCrossfade_starts hc hr hn hp hl hf ho⟩

end Sys2Proof.Machine
end

section
/-! PROOFS. Writes of the Trellis (R152 to R155). -/

namespace Sys2Proof.Machine
open Sys2Proof

set_option Elab.async false

variable {s0 s a b : State}

/-- A record for the live set, as it waits for the next sample. -/
def NodeRec.waits (r : NodeRec) : ℕ × Bool × Bool × ℕ := (256 * r.sink + r.src, bit r.flags 1, bit r.flags 0, r.gain)

/-- The effect of one record of a node write. -/
def Tx.nodeTaken (t : Tx s0) (r : NodeRec) : Tx s0 :=
  let k := 256 * r.sink + r.src
  let keep := bit r.flags 1
  let m := t.cur.maps
  if r.target == 0xFF then t.setMaps { m with waiting := m.waiting ++ [(k, keep, bit r.flags 0, r.gain)] }
  else
    let bk := t.cur.bank r.target
    let attr := if keep then wordAttr (mget 0 bk k) else bit r.flags 0
    t.setMaps { m with banks := mputD [] r.target (mputD 0 k (nodeWord r.gain attr) bk) m.banks }

theorem Tx.nodesTaken_keeps (t : Tx s0) (rs : List NodeRec) : Kept (fun _ => False) [.maps] t.cur (t.each rs Tx.nodeTaken).cur :=
  .each (fun _ _ => .ite (.setMaps (.refl ..)) (.setMaps (.refl ..))) (.refl ..)

/-- A node write whose records pass every check takes them in order. -/
theorem nodeRule_takes (t : Tx s0) {h : ℕ} {d : Bytes} (hd : d ≠ []) (h8 : d.length % 8 = 0)
    (hr : ∀ r ∈ (chunks 8 d).map nodeRec, t.cur.nodeCheck h r = stOK) :
    nodeRule h d t = t.each ((chunks 8 d).map nodeRec) Tx.nodeTaken := by
  have hlen : (d.length % 8 != 0 || d.length == 0) = false := by simp [h8, hd]
  have hfind : (((chunks 8 d).map nodeRec).map (t.cur.nodeCheck h)).find? (· != stOK) = none := by
    rw [List.find?_eq_none]
    intro x hx
    obtain ⟨r, hr', rfl⟩ := List.mem_map.mp hx
    simp [hr r hr']
  unfold nodeRule
  simp only [hlen, hfind, Bool.false_eq_true, if_false]
  rfl

theorem Tx.nodesTaken_waiting (rs : List NodeRec) (t : Tx s0) (hr : ∀ r ∈ rs, r.target = 0xFF) :
    (t.each rs Tx.nodeTaken).cur.maps.waiting = t.cur.maps.waiting ++ rs.map NodeRec.waits := by
  induction rs generalizing t with
  | nil => exact (List.append_nil _).symm
  | cons r rs ih =>
    have hone : (t.nodeTaken r).cur.maps.waiting = t.cur.maps.waiting ++ [r.waits] := by
      unfold Tx.nodeTaken
      dsimp only
      rw [hr r (.head _)]
      rfl
    refine (ih (t.nodeTaken r) fun x hx => hr x (.tail _ hx)).trans ?_
    rw [hone, List.append_assoc]
    rfl

theorem sourceWrite_takes (hc : s.clocked = true) {h n : ℕ} {d : Bytes} (hk : s.writeCheck h (opOf 0x3C01 n 0x01 d) = stOK) :
    ∃ t, exec (.trellisSourceWrite h n d) s = .next t ∧ t.g 0x3C01 n 0x01 = leNat d ∧
      Kept (· = K 0x3C01 n 0x01) [.result, .outs] s t := by
  change ∃ t, execTrellisSourceWrite h n d s = .next t ∧ _
  unfold execTrellisSourceWrite
  refine run_to hc (((Tx.start s).status stOK).w 0x3C01 n 0x01 (leNat d)) (guarded_start hk _) fun t ht => ⟨?_, ?_⟩
  · rw [ht.seenG]
    exact Tx.w_written _ hk rfl
  · exact Kept.of_run (by simp) (by simp) (.wKey (.status (.refl ..)) rfl) ht

theorem nodeWrite_runs (hc : s.clocked = true) {h : ℕ} {d : Bytes} (hk : s.writeCheck h (opOf 0x3C00 0 0x01 d) = stOK) (hd : d ≠ [])
    (h8 : d.length % 8 = 0) (hr : ∀ r ∈ (chunks 8 d).map nodeRec, s.nodeCheck h r = stOK) :
    ∃ t, exec (.nodeWrite h d) s = .next t ∧
      t.maps = (((Tx.start s).status stOK).each ((chunks 8 d).map nodeRec) Tx.nodeTaken).cur.maps ∧
      Kept (fun _ => False) [.result, .outs, .maps] s t := by
  change ∃ t, execNodeWrite h d s = .next t ∧ _
  unfold execNodeWrite
  refine run_to hc _ ((guardedBad_start hk ..).trans (nodeRule_takes _ hd h8 hr)) fun t ht => ⟨ht.maps (by simp), ?_⟩
  have hkeep := (((Tx.start s).status stOK).nodesTaken_keeps ((chunks 8 d).map nodeRec)).mono (M' := [.result, .outs, .maps])
    (fun _ h => h) (by simp)
  exact Kept.of_run (by simp) (by simp) (Kept.trans (Kept.status (.refl ..)) hkeep) ht

theorem nodeWrite_waits (hc : s.clocked = true) {h : ℕ} {d : Bytes} (hk : s.writeCheck h (opOf 0x3C00 0 0x01 d) = stOK) (hd : d ≠ [])
    (h8 : d.length % 8 = 0) (hr : ∀ r ∈ (chunks 8 d).map nodeRec, s.nodeCheck h r = stOK ∧ r.target = 0xFF) :
    ∃ t, exec (.nodeWrite h d) s = .next t ∧ t.maps.waiting = s.maps.waiting ++ ((chunks 8 d).map nodeRec).map
      (fun r => (256 * r.sink + r.src, bit r.flags 1, bit r.flags 0, r.gain)) ∧ Kept (fun _ => False) [.result, .outs, .maps] s t := by
  obtain ⟨t, he, hm, hkeep⟩ := nodeWrite_runs hc hk hd h8 fun r hr' => (hr r hr').1
  refine ⟨t, he, ?_, hkeep⟩
  rw [hm, Tx.nodesTaken_waiting _ _ fun r hr' => (hr r hr').2]
  rfl

theorem nodeWrite_banks (hc : s.clocked = true) {h : ℕ} {d : Bytes} (hk : s.writeCheck h (opOf 0x3C00 0 0x01 d) = stOK)
    (h8 : d.length = 8) (hr : s.nodeCheck h (nodeRec d) = stOK) (ht : (nodeRec d).target < 8) (hb : bit (nodeRec d).flags 1 = false) :
    ∃ t, exec (.nodeWrite h d) s = .next t ∧
      mget 0 (t.bank (nodeRec d).target) (256 * (nodeRec d).sink + (nodeRec d).src) =
        nodeWord (nodeRec d).gain (bit (nodeRec d).flags 0) ∧ Kept (fun _ => False) [.result, .outs, .maps] s t := by
  have hone : (chunks 8 d).map nodeRec = [nodeRec d] := by rw [chunks_one h8]; rfl
  obtain ⟨t, he, hm, hkeep⟩ := nodeWrite_runs hc hk (by rintro rfl; cases h8) (by rw [h8]) (by
    rw [hone]
    intro r hr'
    rw [List.mem_singleton.mp hr']
    exact hr)
  refine ⟨t, he, ?_, hkeep⟩
  have hne : ((nodeRec d).target == 0xFF) = false := beq_eq_false_iff_ne.mpr (by omega)
  have hbanks : (((Tx.start s).status stOK).nodeTaken (nodeRec d)).cur.maps.banks = mputD [] (nodeRec d).target
      (mputD 0 (256 * (nodeRec d).sink + (nodeRec d).src) (nodeWord (nodeRec d).gain (bit (nodeRec d).flags 0))
        (s.bank (nodeRec d).target)) s.maps.banks := by
    unfold Tx.nodeTaken
    simp only [hne, hb, Bool.false_eq_true, if_false]
    rfl
  have hbank : t.bank (nodeRec d).target = mputD 0 (256 * (nodeRec d).sink + (nodeRec d).src)
      (nodeWord (nodeRec d).gain (bit (nodeRec d).flags 0)) (s.bank (nodeRec d).target) := by
    unfold State.bank
    rw [hm, hone]
    exact (congrArg (fun m => mget [] m (nodeRec d).target) hbanks).trans ((mget_mputD ..).trans (if_pos rfl))
  rw [hbank, mget_mputD, if_pos rfl]

/-- A capture or clear of a bank that no commit names. -/
theorem bankRule_takes (t : Tx s0) (sub : ℕ) {d : Bytes} (hb : t.cur.namedBank ≠ some (leNat d)) :
    bankRule sub d t = t.setMaps { t.cur.maps with
      banks := mputD [] (leNat d) (if sub == 0x03 then t.cur.liveWords else []) t.cur.maps.banks } := by
  have hne : (t.cur.namedBank == some (leNat d)) = false := beq_eq_false_iff_ne.mpr hb
  unfold bankRule
  simp only [hne, Bool.false_eq_true, if_false]

theorem bank_of_put {m : Maps} {n : ℕ} {w : List (ℕ × ℕ)} (h : a.maps = { m with banks := mputD [] n w m.banks }) : a.bank n = w := by
  unfold State.bank
  rw [h]
  exact (mget_mputD ..).trans (if_pos rfl)

theorem bankCapture_takes (hc : s.clocked = true) {h : ℕ} {d : Bytes} (hk : s.writeCheck h (opOf 0x3C00 0 0x03 d) = stOK)
    (hb : s.namedBank ≠ some (leNat d)) :
    ∃ t, exec (.bankCapture h d) s = .next t ∧ t.bank (leNat d) = s.liveWords ∧
      Kept (fun _ => False) [.result, .outs, .maps] s t := by
  change ∃ t, execBankCapture h d s = .next t ∧ _
  unfold execBankCapture
  refine run_to hc _ ((guarded_start hk _).trans (bankRule_takes _ 0x03 hb)) fun t ht => ⟨bank_of_put (ht.maps (by simp)), ?_⟩
  exact Kept.of_run (by simp) (by simp) (.setMaps (.status (.refl ..))) ht

theorem bankClear_takes (hc : s.clocked = true) {h : ℕ} {d : Bytes} (hk : s.writeCheck h (opOf 0x3C00 0 0x04 d) = stOK)
    (hb : s.namedBank ≠ some (leNat d)) :
    ∃ t, exec (.bankClear h d) s = .next t ∧ t.bank (leNat d) = [] ∧ Kept (fun _ => False) [.result, .outs, .maps] s t := by
  change ∃ t, execBankClear h d s = .next t ∧ _
  unfold execBankClear
  refine run_to hc _ ((guarded_start hk _).trans (bankRule_takes _ 0x04 hb)) fun t ht => ⟨bank_of_put (ht.maps (by simp)), ?_⟩
  exact Kept.of_run (by simp) (by simp) (.setMaps (.status (.refl ..))) ht

/-- Settles O20, write by write. -/
theorem trellisWritesComplete : Obligations.TrellisWritesComplete := by
  unfold Obligations.TrellisWritesComplete
  exact fun s hc => ⟨fun h n d hk => sourceWrite_takes hc hk, fun h d hk hd h8 hr => nodeWrite_waits hc hk hd h8 hr,
    fun h d hk h8 hr ht hb => nodeWrite_banks hc hk h8 hr ht hb, fun h d hk hb => bankCapture_takes hc hk hb,
    fun h d hk hb => bankClear_takes hc hk hb⟩

end Sys2Proof.Machine
end

section
/-! PROOFS. Maps fail: a destination beyond the output map shows its signal at the entry of another. -/

namespace Sys2Proof.Machine
open Sys2Proof

set_option Elab.async false

/-- Destination 0 has a write to signal 5 due, and so has destination 65536, which is none of the map's, to signal 7. -/
def strayDestState : State :=
  { State.reset with
    maps := { Maps.init with dests := [(0, ⟨0, none, 0, some (5, 0)⟩), (65536, ⟨0, none, 0, some (7, 0)⟩)] } }

/-- Both land, and the entry of destination 0 shows the signal that landed last. -/
theorem strayDestState_shows : nextGet (exec .outputMapLands strayDestState) (K 0x3E00 0 0x02) = 7 := by decide +kernel

/-- Refutes O21: with a destination 65536 in the map, whose number an entry's key does not hold, a landing leaves 0x3E00[0]:02 at a
signal that was not written to destination 0. -/
theorem not_mapsComplete : ¬ Obligations.MapsComplete := by
  unfold Obligations.MapsComplete
  intro h
  obtain ⟨-, -, hland, -⟩ := h strayDestState (by decide)
  obtain ⟨t, ht, -, -, -, hg⟩ := hland 0 ⟨0, none, 0, some (5, 0)⟩ 5 0 (by decide) (by decide) (by decide) rfl (by decide) (by decide)
  have hshown := strayDestState_shows
  rw [ht] at hshown
  rw [State.g_eq, show t.get (K 0x3E00 0 0x02) = 7 from hshown] at hg
  cases hg

end Sys2Proof.Machine
end

section
/-! PROOFS. What a stop and a restart of the engines leave: the engines' own record, and media time (R163, R237, R393, R473). -/

namespace Sys2Proof.Machine
open Sys2Proof

set_option Elab.async false

variable {s0 s a b : State} {M : List Part}

/-- Every part of the state but media time, the engines and the maps. -/
def Part.offMaps : List Part := [.result, .outs, .free, .scene, .geo, .render, .corr, .serial, .net, .time, .sprk, .hedge, .meas, .pool,
  .mem, .ctl, .store, .power]

/-- From a to b the engines, media time and the maps stay. -/
abbrev OffMaps (a b : State) : Prop := Kept (fun _ => True) Part.offMaps a b

/-- From a to b the engines and media time stay. -/
abbrev OffEngines (a b : State) : Prop := Kept (fun _ => True) Part.timeless a b

theorem Kept.offMaps {E : ℕ → Prop} (h : Kept E M a b) (hM : M.all Part.offMaps.contains = true := by decide) : OffMaps a b :=
  h.mono (fun _ _ => trivial) fun m hm => by simpa using List.all_eq_true.mp hM m hm

theorem Kept.offEngines {E : ℕ → Prop} (h : Kept E M a b) (hM : M.all Part.timeless.contains = true := by decide) :
    OffEngines a b :=
  h.mono (fun _ _ => trivial) fun m hm => by simpa using List.all_eq_true.mp hM m hm

/-! ## Stop -/

theorem Tx.portsStop_off (t : Tx s0) : OffEngines t.cur t.portsStop.cur := by
  have hdrop : ∀ (t : Tx s0) p, Keeps Span.whole Part.timeless t.cur (t.portDrop p).cur := fun t p => by
    unfold Tx.portDrop
    exact .step (Tx.asrcDrop_keeps ..) (.when (fun _ => .setMaps (.step (Tx.bridgeDrop_keeps _ 1 _) (.step (Tx.bridgeDrop_keeps _ 0 _)
      (.refl ..)))) (.refl ..))
  have hport : ∀ (t : Tx s0) p n x, Keeps Span.whole Part.timeless t.cur (((t.portDrop p).portTo p n).setPort p x).cur :=
    fun t p n x => .step (Tx.setPort_keeps ..) (.step (Tx.portTo_keeps ..) (hdrop t p))
  have hall : Keeps Span.whole Part.timeless t.cur t.portsStop.cur := by
    unfold Tx.portsStop
    refine .each (fun _ _ => .w (.refl ..)) (.each (fun t p => ?_) (.refl ..))
    exact .ite (.refl ..) (.ite (hport ..) (.emit (.w (hport ..))))
  exact hall.offEngines

theorem Tx.copiesDrop_off (t : Tx s0) : Keeps Span.whole Part.offMaps t.cur t.copiesDrop.cur := by
  unfold Tx.copiesDrop
  refine .each (fun t m => ?_) (.refl ..)
  exact .ite (.step (Tx.macRun_keeps ..) (.refl ..)) (.each (fun _ _ => .step (Tx.copyEnd_keeps ..) (.refl ..)) (.step (Tx.setMac_keeps ..)
    (.step (Tx.macRun_keeps ..) (.refl ..))))

theorem Tx.streamsStop_off (t : Tx s0) : OffEngines t.cur t.streamsStop.cur := by
  have hall : Keeps Span.whole Part.timeless t.cur t.streamsStop.cur := by
    unfold Tx.streamsStop
    refine .step (Tx.showLoad_keeps ..) (.step (Tx.copiesDrop_off ..) (.each (fun t i => .ite (.refl ..) (.step (Tx.txTo_keeps ..)
      (.ite (.step (Tx.txEnd_keeps ..) (.refl ..)) (.step (Tx.txFlush_keeps ..) (.refl ..))))) (.each (fun t i => .ite (.refl ..)
      (.step (Tx.rxTo_keeps ..) (.when (fun _ => .step (Tx.rxEnd_keeps ..) (.refl ..)) (.refl ..)))) (.refl ..))))
  exact hall.offEngines

theorem Tx.poolStop_off (t : Tx s0) (r : Bool) : Keeps Span.whole Part.offMaps t.cur (t.poolStop r).cur := by
  unfold Tx.poolStop
  refine .each (fun t c => ?_) (.setPool (.refl ..))
  exact .ite (.step (Tx.chainFree_keeps ..) (.refl ..)) (.ite (.when (fun _ => .setPool (.refl ..)) (.step (Tx.unplace_keeps ..) (.refl ..)))
    (.step (Tx.setChainSt_keeps ..) (.refl ..)))

theorem Tx.sceneClear_off (t : Tx s0) : Keeps Span.whole Part.offMaps t.cur t.sceneClear.cur := by
  unfold Tx.sceneClear
  exact .setScene (.each (fun _ _ => .each (fun _ _ => .w (.refl ..) (mayWrite_whole _)) (.refl ..)) (.refl ..))

theorem Tx.furrowReset_off (t : Tx s0) : Keeps Span.whole Part.offMaps t.cur t.furrowReset.cur := by
  unfold Tx.furrowReset
  exact .step (Tx.furrowStats_keeps ..) (.w (.setRender (.each (fun _ _ => .w (.w (.w (.refl ..)))) (.each (fun _ _ => .w (.w (.w (.refl ..))))
    (.each (fun _ _ => .w (.w (.w (.refl ..)))) (.refl ..))))))

theorem Tx.measMicsStop_off (t : Tx s0) : Keeps Span.whole Part.offMaps t.cur t.measStop.micsStop.cur := by
  unfold Tx.micsStop
  exact .step (Tx.pdmClocks_keeps ..) (.setMeas (.step (Tx.measStop_keeps ..) (.refl ..)))

/-- A stop leaves the engines' record, and no destination presents a sample. -/
theorem Tx.engineStop_silent (t : Tx s0) (cause : ℕ) :
    (t.engineStop cause).cur.engines = t.cur.engines ∧ (t.engineStop cause).cur.maps.present = [] := by
  have hcorr : ∀ t : Tx s0, OffEngines t.cur (if cause == 3 then t.correctionPause else t.correctionStop).cur := fun t => by
    refine .ite ?_ (t.correctionStop_keeps).offEngines
    unfold Tx.correctionPause
    exact .setCorr (.refl ..)
  have hgeo : OffEngines t.cur ((t.w 0x6500 0 0x10 0).geometryStop.renderStop).cur := by
    unfold Tx.renderStop Tx.geometryStop
    exact .setRender (.setGeo (.wKey (.refl ..) trivial))
  unfold Tx.engineStop
  dsimp only
  generalize (t.w 0x6500 0 0x10 0).geometryStop.renderStop = u at hgeo
  have hu := hcorr u
  generalize (if cause == 3 then u.correctionPause else u.correctionStop) = v at hu
  have hv : OffEngines t.cur v.portsStop.streamsStop.mapsStop.cur :=
    ((hgeo.trans hu).trans v.portsStop_off).trans (v.portsStop.streamsStop_off.trans (Tx.mapsStop_keeps _).offEngines)
  have hpres : v.portsStop.streamsStop.mapsStop.cur.maps.present = [] := rfl
  generalize v.portsStop.streamsStop.mapsStop = w at hv hpres
  have hlast : Keeps Span.whole Part.offMaps w.cur (((if cause == 1 || cause == 4 || cause == 5 then
      (w.poolStop (cause == 1 || cause == 4 || cause == 5)).sceneClear.furrowReset
      else (w.poolStop (cause == 1 || cause == 4 || cause == 5)).furrowStand).when (cause == 3) (fun t => t.w 0x6200 0 0x01 3)).when
      ((cause == 1 || cause == 4 || cause == 5) || cause == 2) (fun t => t.measStop.micsStop)).cur := by
    refine .when (fun t => t.measMicsStop_off) (.when (fun _ => .w (.refl ..)) (.ite (.step (Tx.furrowReset_off _) (.step
      (Tx.sceneClear_off _) (w.poolStop_off _))) ?_))
    unfold Tx.furrowStand
    exact .setRender (w.poolStop_off _)
  exact ⟨(hlast.engines (by decide)).trans (hv.engines (by decide)), (congrArg Maps.present (hlast.maps (by decide))).trans hpres⟩

/-! ## A change of rate, and IDLE -/

/-- The engines' record is e, and no destination presents a sample. -/
def Silent (e : Engines) (a : State) : Prop := a.engines = e ∧ a.maps.present = []

theorem Silent.keep {e : Engines} {E : ℕ → Prop} (h : Silent e a) (g : Kept E M a b) (he : Part.engines ∉ M := by decide)
    (hm : Part.maps ∉ M := by decide) : Silent e b := ⟨(g.engines he).trans h.1, (congrArg Maps.present (g.maps hm)).trans h.2⟩

theorem Tx.recount_silent {e : Engines} {t : Tx s0} (h : Silent e t.cur) (f0 f1 : ℕ) : Silent e (t.recount f0 f1).cur := by
  refine ⟨((t.recount_keeps f0 f1).engines (by decide)).trans h.1, ?_⟩
  unfold Tx.recount
  dsimp only
  rw [(Tx.correctionStop_keeps _).maps (by decide)]
  rfl

theorem Tx.rateApply_silent {e : Engines} {t : Tx s0} (h : Silent e t.cur) : Silent e t.rateApply.cur := by
  have htrig : ∀ (t : Tx s0) f0 f1, Keeps Span.whole Part.offMaps t.cur (t.triggersRescale f0 f1).cur := fun t f0 f1 => by
    unfold Tx.triggersRescale
    refine .each (fun t n => .ite (.w (.refl ..)) ?_) (.refl ..)
    dsimp only
    split
    · exact .step (Tx.setTarget_keeps ..) (.when (fun _ => .w (.refl ..)) (.w (.refl ..)))
    · exact .when (fun _ => .w (.refl ..)) (.w (.refl ..))
  have hent : ∀ t : Tx s0, Keeps Span.whole Part.offMaps t.cur t.rateEntries.cur := fun t => by
    unfold Tx.rateEntries
    exact .w (.w (.w (.refl ..)))
  have hhold : ∀ t : Tx s0, Keeps Span.whole Part.offMaps t.cur t.holdOff.depthDefaults.furrowReset.cur := fun t => by
    unfold Tx.holdOff Tx.depthDefaults
    exact .step (Tx.furrowReset_off _) (.each (fun _ _ => .w (.refl ..)) (.each (fun _ _ => .w (.refl ..)) (.refl ..)))
  have hcorr : ∀ t : Tx s0, Keeps Span.whole Part.offMaps t.cur t.correctionRate.cur := fun t => by
    unfold Tx.correctionRate
    exact .ite (.each (fun _ _ => .step (Tx.setChain_keeps ..) (.refl ..)) (.refl ..)) (.flagBit (.each (fun _ _ => .step
      (Tx.setChain_keeps ..) (.w (.refl ..))) (.each (fun _ _ => .step (Tx.setChain_keeps ..) (.refl ..)) (.refl ..))))
  unfold Tx.rateApply
  dsimp only
  have hpre : ∀ f, Keeps Span.whole Part.offMaps t.cur (((t.triggersRescale t.cur.fA t.cur.engines.newRate).w 0x3F00 0 0x01
      t.cur.engines.newRate).rateEntries.when f (fun u => u.w 0x6200 0 0x11 (rescale t.cur.fA t.cur.engines.newRate
        (((t.triggersRescale t.cur.fA t.cur.engines.newRate).w 0x3F00 0 0x01 t.cur.engines.newRate).rateEntries.g 0x6200 0
        0x11)))).cur := fun f => .when (fun _ => .w (.refl ..)) (.step (hent _) (.w (htrig ..)))
  refine Silent.keep (E := Keys Span.whole) (M := Part.offMaps) ?_ (.flagBit (.w (.step (hcorr _) (.step (hhold _)
    (Tx.sceneClear_off _)))))
  exact Tx.recount_silent (h.keep (hpre _)) _ _

theorem Tx.idleEntered_silent {e : Engines} {t : Tx s0} (h : Silent e t.cur) : Silent e t.idleEntered.cur := by
  have hc := h.keep t.cancelCommit_keeps
  have hnext : ∀ t : Tx s0, Keeps Span.whole Part.offMaps t.cur t.standbyNext.cur := fun t => by
    unfold Tx.standbyNext
    exact .ite (.step (Tx.askSave_keeps ..) (.setPower (.refl ..))) (.setPower (.refl ..))
  have hlast : ∀ t : Tx s0, Keeps Span.whole Part.offMaps t.cur (if ((t.powerTo 2 1).showBanks).g 0x6500 0 0x03 == 3 then
      ((t.powerTo 2 1).showBanks).standbyNext else ((t.powerTo 2 1).showBanks).w 0x6500 0 0x03 0).cur := fun t => by
    have hb : Keeps Span.whole Part.offMaps t.cur (t.powerTo 2 1).showBanks.cur :=
      .step (Tx.showBanks_keeps ..) (.step (Tx.powerTo_keeps ..) (.refl ..))
    exact .ite (.step (hnext _) hb) (.w hb)
  unfold Tx.idleEntered
  dsimp only
  refine Silent.keep ?_ (hlast _)
  unfold Tx.when
  split
  · exact Tx.rateApply_silent hc
  · exact hc

theorem enginesStop_stops (hc : s.clocked = true) {B : ℕ} (hB : s.engines.rampB = some B) (hr : s.engines.running = true)
    (hn : B + 64 ≤ s.now) :
    ∃ t, exec .enginesStop s = .next t ∧ t.engines.running = false ∧ t.engines.rampB = none ∧ t.maps.present = [] := by
  change ∃ t, execEnginesStop s = .next t ∧ _
  unfold execEnginesStop
  have hcond : (!s.engines.running || decide (s.now < B + 64)) = false := by simp [hr, hn]
  have hstop : Silent { s.engines with running := false, rampB := none } (((Tx.start s).setEngines { s.engines with
      running := false, rampB := none }).engineStop s.engines.cause).cur := Tx.engineStop_silent _ _
  generalize hu : ((Tx.start s).setEngines { s.engines with running := false, rampB := none }).engineStop s.engines.cause = u at hstop
  refine run_to hc (if s.engines.cause == 4 then u.idleEntered
    else if s.engines.cause == 5 then u.cancelCommit.when (!s.power.hedgeOff) Tx.hedgeHold else u)
    (by simp only [hB, hcond, hu, Bool.false_eq_true, if_false]) fun t ht => ?_
  have hend : Silent { s.engines with running := false, rampB := none } (if s.engines.cause == 4 then u.idleEntered
      else if s.engines.cause == 5 then u.cancelCommit.when (!s.power.hedgeOff) Tx.hedgeHold else u).cur := by
    split
    · exact Tx.idleEntered_silent hstop
    · split
      · have hlet : Keeps Span.whole Part.offMaps u.cur (u.cancelCommit.when (!s.power.hedgeOff) Tx.hedgeHold).cur :=
          .when (fun _ => .step (Tx.hedgeHold_keeps _) (.refl ..)) (.step (Tx.cancelCommit_keeps _) (.refl ..))
        exact hstop.keep hlet
      · exact hstop
  obtain ⟨he, hm⟩ := hend.keep ht (by simp) (by simp)
  exact ⟨by rw [he], by rw [he], hm⟩

/-! ## A change of rate is asked for, and the ramp -/

theorem rateChange_asks (hc : s.clocked = true) {h : ℕ} {d : Bytes} (hk : s.writeCheck h (opOf 0x3F00 0 0x01 d) = stOK)
    (hcom : s.ctl.commit = none) (hrep : s.render.repack = none) (ho : s.on 0x3F00 0 0x03 = false) (hd : leNat d ≠ s.fA)
    (hr : s.engines.running = true) (hB : s.engines.rampB = none) :
    ∃ t, exec (.rateChange h d) s = .next t ∧ t.g 0x3F00 0 0x03 = 1 ∧
      t.engines = { s.engines with newRate := leNat d, rampB := some (nextBlock s.now), cause := 1 } := by
  have hrule : domainRateRule d ((Tx.start s).status stOK) = (((((Tx.start s).status stOK).abortRun.w 0x3F00 0 0x03 1).msg 10
      (leBytes 4 (leNat d))).setEngines { s.engines with newRate := leNat d, rampB := some (nextBlock s.now), cause := 1 }) := by
    have hst : ((Tx.start s).status stOK).cur.ctl.commit = none ∧ ((Tx.start s).status stOK).cur.render.repack = none ∧
        ((Tx.start s).status stOK).cur.on 0x3F00 0 0x03 = false ∧ (leNat d == ((Tx.start s).status stOK).cur.fA) = false ∧
        ((Tx.start s).status stOK).cur.engines = s.engines ∧ ((Tx.start s).status stOK).cur.now = s.now :=
      ⟨hcom, hrep, ho, beq_eq_false_iff_ne.mpr hd, rfl, rfl⟩
    obtain ⟨h1, h2, h3, h4, h5, h6⟩ := hst
    unfold domainRateRule
    simp only [h1, h2, h3, h4, h5, h6, hr, hB, Option.isSome_none, Bool.or_self, Bool.false_eq_true, if_false, Bool.not_true]
  change ∃ t, execRateChange h d s = .next t ∧ _
  unfold execRateChange
  refine run_to hc _ ((guarded_start hk _).trans hrule) fun t ht => ⟨?_, (ht.engines (by simp)).trans rfl⟩
  generalize ((Tx.start s).status stOK).abortRun = u at ht
  rw [ht.seenG, Kept.gOf (l := []) (M := [.engines]) (.setEngines (.msg (.refl ..)))]
  exact Tx.w_g_of (i := 0x3F00) (c := 0x03) _ (entryAt_ent (by decide : 0 < 1) rfl) rfl

theorem outputsRampDown_ramps (hc : s.clocked = true) {B : ℕ} (hB : s.engines.rampB = some B) (hn : B ≤ s.now)
    (hr : s.engines.running = true) :
    ∃ t, exec .outputsRampDown s = .next t ∧ t.maps = { s.maps with ramp := some (B, false) } := by
  change ∃ t, execOutputsRampDown s = .next t ∧ _
  unfold execOutputsRampDown
  have hcond : (decide (B ≤ s.now) && s.engines.running) = true := by simp [hr, hn]
  refine run_to hc (((Tx.start s).setMaps { s.maps with ramp := some (B, false) }).when (s.engines.cause == 4 && !s.power.hedgeOff)
    Tx.hedgeHold) (by simp only [hB, hcond, if_true]) fun t ht => ?_
  have hhold : Keeps [] [.outs, .hedge, .power] ((Tx.start s).setMaps { s.maps with ramp := some (B, false) }).cur (((Tx.start
      s).setMaps { s.maps with ramp := some (B, false) }).when (s.engines.cause == 4 && !s.power.hedgeOff) Tx.hedgeHold).cur :=
    .when (fun t => t.hedgeHold_keeps) (.refl ..)
  exact (ht.maps (by simp)).trans (hhold.maps (by decide))

theorem outputsRampDown_retrains (hc : s.clocked = true) {B : ℕ} (hB : s.engines.rampB = none) (hd : s.retrainDue = some B) :
    ∃ t, exec .outputsRampDown s = .next t ∧ t.engines = { s.engines with rampB := some B, cause := 3 } ∧
      t.maps = { s.maps with ramp := some (B, false) } := by
  change ∃ t, execOutputsRampDown s = .next t ∧ _
  unfold execOutputsRampDown
  exact run_to hc (((Tx.start s).setEngines { s.engines with rampB := some B, cause := 3 }).setMaps { s.maps with
    ramp := some (B, false) }) (by simp only [hB, hd]) fun t ht => ⟨ht.engines (by simp), ht.maps (by simp)⟩

/-! ## A step -/

/-- Every entry but those of system time. -/
def Span.offTime : List Span := [⟨0, 0x4FFF, none, []⟩, ⟨0x5001, 0x10000, none, []⟩]

/-- What a step empties after the offset has landed. -/
def Tx.stepEmptied (t : Tx s0) (f : ℕ) (c : Bool) : Tx s0 :=
  (t.recount f f).queuesEmpty.measStop.cancelCommit.when c (fun t => t.flagBit 0x1300 0 0x0B 3)

theorem Tx.stepEmptied_keeps (t : Tx s0) (f : ℕ) (c : Bool) : Keeps Span.offTime [.clock, .render, .corr, .maps, .serial, .sprk, .hedge,
    .meas, .pool, .scene, .ctl] t.cur (t.stepEmptied f c).cur :=
  .when (fun _ => .flagBit (.refl ..)) (.step (Tx.cancelCommit_keeps _) (.step (Tx.measStop_keeps _) (.step (Tx.queuesEmpty_keeps _)
    (.step (Tx.recount_keeps ..) (.refl ..)))))

/-- What a step does to the Sprinkler. -/
def Tx.stepSprk (t : Tx s0) (s : State) : Tx s0 :=
  if s.g 0x5400 0 0x02 == 0 || s.isHead then t
  else if s.sprkState == 5 && s.sprk.before == 6 then t
  else if s.sprkState == 5 then t.sprkSet (fun x => { x with before := 4 }) else t.sprkResync

theorem Tx.stepSprk_keeps (t : Tx s0) (s : State) : Keeps [.all 0x5400 [0x0D, 0x1C]] [.sprk, .meas] t.cur (t.stepSprk s).cur :=
  .ite (.refl ..) (.ite (.refl ..) (.ite (.setSprk (.refl ..)) (Tx.sprkResync_keeps _)))

/-- The offset lands, and the engines have taken their step. -/
def Tx.stepSet (t : Tx s0) (s : State) (off : ℤ) : Tx s0 :=
  let gone := s.passed off
  let moved := off / 2 ^ 47 - s.time.off / 2 ^ 47
  let t := t.setTime { s.time with off := off, missed := nub (s.time.missed ++ gone),
                                   pulseEnd := s.time.pulseEnd.map (fun e => ((e : ℤ) + moved).toNat) }
  t.setEngines { s.engines with stepTo := none, stepped := true }

theorem Tx.stepSet_keeps (t : Tx s0) (s : State) (off : ℤ) : (t.stepSet s off).cur.time.off = off ∧
    (t.stepSet s off).cur.engines = { s.engines with stepTo := none, stepped := true } ∧
    (t.stepSet s off).cur.g 0x5000 0 0x19 = t.cur.g 0x5000 0 0x19 := ⟨rfl, rfl, rfl⟩

theorem step_lands (hc : s.clocked = true) {off : ℤ} (ho : s.engines.stepTo = some off) (hr : s.engines.running = false) :
    ∃ t, exec .step s = .next t ∧ t.time.off = off ∧ t.engines.stepTo = none ∧ t.engines.stepped = true ∧
      t.g 0x5000 0 0x19 = (s.g 0x5000 0 0x19 + 1) % 2 ^ 32 := by
  change ∃ t, execStep s = .next t ∧ _
  unfold execStep
  have hset := (Tx.start s).stepSet_keeps s off
  refine run_to hc ((((((Tx.start s).stepSet s off).stepEmptied s.fA s.ctl.commit.isSome).tally 0x5000 0 0x19).flagBit 0x5000 0 0x1C
    0).stepSprk s) ?_ fun t ht => ?_
  · simp only [ho]
    rw [if_neg (by simp [hr] : ¬ s.engines.running = true)]
    dsimp only [Tx.stepSet, Tx.stepEmptied, Tx.stepSprk]
  obtain ⟨hoff, heng, hcount0⟩ := hset
  generalize (Tx.start s).stepSet s off = v at ht hoff heng hcount0
  have hpre := v.stepEmptied_keeps s.fA s.ctl.commit.isSome
  generalize v.stepEmptied s.fA s.ctl.commit.isSome = u at ht hpre
  have hcount : Keeps [.all 0x5000 [0x19], .ctr 0 300] [] u.cur (u.tally 0x5000 0 0x19).cur := .tally (.refl ..)
  have hg := Tx.tally_g (i := 0x5000) (c := 0x19) u (entryAt_ent (by decide : 0 < 1) rfl) (by decide)
  generalize u.tally 0x5000 0 0x19 = w at ht hcount hg
  have hpost : Keeps [.all 0x5000 [0x1C], .all 0x5400 [0x0D, 0x1C]] [.sprk, .meas] w.cur ((w.flagBit 0x5000 0 0x1C 0).stepSprk s).cur :=
    .step (Tx.stepSprk_keeps _ s) (.flagBit (.refl ..))
  have htime := (ht.time (by simp)).trans ((hpost.time (by decide)).trans ((hcount.time (by decide)).trans (hpre.time (by decide))))
  have heng' := (ht.engines (by simp)).trans ((hpost.engines (by decide)).trans ((hcount.engines (by decide)).trans
    (hpre.engines (by decide))))
  refine ⟨by rw [htime, hoff], by rw [heng', heng], by rw [heng', heng], ?_⟩
  rw [ht.seenG, hpost.gOf, hg, hpre.gOf, hcount0]
  rfl

/-! ## Restart -/

theorem Tx.commitCatch_off (t : Tx s0) (B : ℕ) : OffEngines t.cur (t.commitCatch B).cur := by
  have hstage : ∀ (t : Tx s0) l, OffEngines t.cur (t.stageApply l).cur := fun t l => by
    unfold Tx.stageApply
    exact .each (fun t p => t.put_kept _ (.inl trivial)) (.refl ..)
  have hland : ∀ (t : Tx s0) c, OffEngines t.cur (t.commitLand c B).cur := fun t c => by
    unfold Tx.commitLand
    dsimp only
    have hgain : ∀ l, OffEngines t.cur (((t.bankDue B).stageApply (t.cur.host c.host).stage).each l (fun t k => t.masterGain B k)).cur :=
      fun l => .each (fun t k => (t.masterGain_keeps B k).offEngines) ((t.bankDue_keeps B).offEngines.trans (hstage _ _))
    exact .ite (.wKey (.setCtl (hgain _)) trivial) ((hgain _).trans (Tx.commitDone_keeps _ _ _).offEngines)
  unfold Tx.commitCatch
  split
  · exact .refl ..
  · exact .ite (.setCtl (.refl ..)) (.ite (hland ..) (.refl ..))

theorem Tx.portsRestart_off (t : Tx s0) : OffEngines t.cur t.portsRestart.cur := by
  have hgood : ∀ (t : Tx s0) p u, Keeps Span.whole Part.timeless t.cur (t.portGood p u).cur := fun t p u => by
    unfold Tx.portGood
    dsimp only
    have hlatch : ∀ l, Keeps Span.whole Part.timeless t.cur ((t.when (t.cur.portState p == 3) (fun t => t.flagBit 0x4010 p 0x16
        1)).latchMasks p u l).cur := fun l => by
      unfold Tx.latchMasks
      exact .step (Tx.setPort_keeps ..) (.when (fun _ => .w (.refl ..)) (.when (fun _ => .w (.refl ..)) (.when (fun _ => .flagBit
        (.refl ..)) (.refl ..))))
    refine .step (Tx.portPush_timeless ..) (.when (fun t => .ite (.when (fun _ => .flagBit (.refl ..)) (.w (.refl ..))) (.refl ..))
      (.step (Tx.portTo_keeps ..) (.step (Tx.setPort_keeps ..) (hlatch _))))
  have hbegin : ∀ (t : Tx s0) p b, Keeps Span.whole Part.timeless t.cur (t.portBegin p b).cur := fun t p b => by
    unfold Tx.portBegin
    exact .ite (.step (hgood ..) (.w (.step (Tx.setPort_keeps ..) (.refl ..)))) (.step (Tx.portTo_keeps ..) (.w (.step
      (Tx.setPort_keeps ..) (.refl ..))))
  have hall : Keeps Span.whole Part.timeless t.cur t.portsRestart.cur := by
    unfold Tx.portsRestart
    exact .each (fun t p => .ite (.refl ..) (.ite (.step (hbegin ..) (.step (Tx.portTake_keeps ..) (.w (.refl ..)))) (.step
      (Tx.portTo_keeps ..) (.w (.refl ..))))) (.refl ..)
  exact hall.offEngines

theorem Tx.streamsRestart_off (t : Tx s0) : OffEngines t.cur t.streamsRestart.cur := by
  have hall : Keeps Span.whole Part.timeless t.cur t.streamsRestart.cur := by
    unfold Tx.streamsRestart
    exact .step (Tx.showLoad_keeps ..) (.each (fun t i => .ite (.refl ..) (.ite (.step (Tx.txStart_keeps ..) (.refl ..)) (.step
      (Tx.txTo_keeps ..) (.refl ..)))) (.each (fun t i => .ite (.refl ..) (.ite (.step (Tx.rxStart_keeps ..) (.refl ..)) (.step
      (Tx.rxTo_keeps ..) (.refl ..)))) (.refl ..)))
  exact hall.offEngines

theorem Tx.micsRestart_off (t : Tx s0) : OffEngines t.cur t.micsRestart.cur := by
  have hhold : ∀ t : Tx s0, Keeps Span.whole Part.timeless t.cur t.micsHold.cur := fun t => by
    unfold Tx.micsHold
    exact .flagBit (.each (fun _ _ => .ite (.refl ..) (.step (Tx.micTo_keeps ..) (.step (Tx.setMic_keeps ..) (.refl ..)))) (.refl ..))
  have hall : Keeps Span.whole Part.timeless t.cur t.micsRestart.cur := by
    unfold Tx.micsRestart
    exact .step (Tx.decimReset_keeps ..) (.when hhold (.setMeas (.refl ..)))
  exact hall.offEngines

theorem Tx.mapsAfresh_off (t : Tx s0) : OffEngines t.cur t.mapsAfresh.cur := by
  have hall : Keeps Span.whole Part.timeless t.cur t.mapsAfresh.cur := by
    unfold Tx.mapsAfresh
    exact .each (fun _ _ => .w (.step (Tx.setIn_keeps ..) (.refl ..))) (.refl ..)
  exact hall.offEngines

theorem Tx.poolRestart_off (t : Tx s0) (r : Bool) : OffEngines t.cur (t.poolRestart r).cur := by
  have hall : Keeps Span.whole Part.timeless t.cur (t.poolRestart r).cur := by
    unfold Tx.poolRestart
    exact .ite (.setPool (.step (Tx.tryHeld_keeps ..) (.each (fun _ _ => .step (Tx.showChain_keeps ..) (.refl ..)) (.each (fun _ _ =>
      .step (Tx.unplace_keeps ..) (.refl ..)) (.refl ..))))) (.each (fun _ _ => .step (Tx.setChainSt_keeps ..) (.refl ..)) (.refl ..))
  exact hall.offEngines

theorem Tx.triggersRestart_off (t : Tx s0) (r : Bool) : OffEngines t.cur (t.triggersRestart r).cur := by
  have hfire : ∀ (t : Tx s0) n, Keeps Span.whole Part.timeless t.cur (t.fireMissed n).cur := fun t n => by
    unfold Tx.fireMissed
    dsimp only
    split
    · have hcount : ∀ k, Keeps Span.whole Part.timeless t.cur (((t.fire n t.cur.ns).count 0x5100 n 0x0A k).flagBit 0x5100 n 0x0B
          1).cur := fun k => .flagBit (.count (.step (Tx.fire_keeps ..) (.refl ..)))
      exact .ite (.step (Tx.disarm_keeps ..) (hcount _)) (.step (Tx.setTarget_keeps ..) (hcount _))
    · exact .refl ..
  have hall : Keeps Span.whole Part.timeless t.cur (t.triggersRestart r).cur := by
    unfold Tx.triggersRestart
    exact .each (fun t n => hfire t n) (.setTime (.refl ..))
  exact hall.offEngines

theorem Tx.graftCatch_off (t : Tx s0) (B : ℕ) : OffEngines t.cur (t.graftCatch B).cur := by
  have hall : Keeps Span.whole Part.timeless t.cur (t.graftCatch B).cur := by
    unfold Tx.graftCatch
    refine .each (fun t p => ?_) (.refl ..)
    split
    · exact .ite (.step (Tx.showGrafts_keeps ..) (.step (Tx.setChain_keeps ..) (.refl ..))) (.refl ..)
    · exact .refl ..
  exact hall.offEngines

theorem Tx.sceneRestart_off (t : Tx s0) : OffEngines t.cur t.sceneRestart.latchInputs.cur := by
  unfold Tx.sceneRestart Tx.latchInputs
  exact .setGeo (.setScene (.refl ..))

theorem Tx.pllReady_off (t : Tx s0) : OffEngines t.cur t.pllReady.cur := by
  have hall : Keeps Span.whole Part.timeless t.cur t.pllReady.cur := by
    unfold Tx.pllReady
    exact .ite (.refl ..) (.wi (.w (.fresh (.refl ..))))
  exact hall.offEngines

theorem Tx.recorderRestart_off (t : Tx s0) : OffEngines t.cur t.recorderRestart.cur := by
  unfold Tx.recorderRestart
  exact .when (fun t => (t.recBegin_keeps _).offEngines) (.refl ..)

/-- ACTIVE is reached: what it shows, but 0x6500:10. -/
theorem Tx.active_keeps (t : Tx s0) : Keeps [⟨0, 0x64FF, none, []⟩, .all 0x6500 [0x01, 0x03, 0x06, 0x09, 0x14], ⟨0x6501, 0x10000, none, []⟩]
    Part.offMaps t.cur t.active.cur := by
  unfold Tx.active Tx.hedgeFree
  dsimp only
  exact .step (Tx.modEnable_keeps _) (.setPower (.step (Tx.showBanks_keeps _) (.w (.step (Tx.powerTo_keeps ..) (.when (fun _ => .w
    (.refl ..)) (.when (fun _ => .setPower (.w (.w (.w (.refl ..))))) (.refl ..)))))))

theorem Tx.wclkOut_timeless (t : Tx s0) (m : ℕ) : Timeless t.cur (t.wclkOut m).cur := by
  unfold Tx.wclkOut
  exact .when (fun _ => .emit (.refl ..)) (.ite (.refl ..) (.when (fun _ => .emit (.refl ..)) (.setSerial (.refl ..))))

theorem Tx.ppsOutPeriod_timeless (t : Tx s0) (m : ℕ) : Timeless t.cur (t.ppsOutPeriod m).cur := by
  unfold Tx.ppsOutPeriod
  exact .when (fun _ => .step (Tx.ppsRise_keeps ..) (.refl ..)) (.when (fun _ => .step (Tx.ppsFall_keeps ..) (.refl ..))
    (.when (fun _ => .setTime (.refl ..)) (.refl ..)))

theorem Tx.outPeriod_timeless (t : Tx s0) (m : ℕ) : Timeless t.cur (((t.wclkOut m).ppsOutPeriod m).runPeriod m).cur :=
  Kept.trans (Kept.trans (t.wclkOut_timeless m) (Tx.ppsOutPeriod_timeless _ m)) (.widen (Tx.runPeriod_standing _ m) (by decide)
    (by decide))

theorem Tx.outPeriods_timeless (t : Tx s0) (l : List ℕ) :
    Timeless t.cur (t.each l (fun t m => ((t.wclkOut m).ppsOutPeriod m).runPeriod m)).cur := by
  induction l generalizing t with
  | nil => exact .refl ..
  | cons m l ih => exact (t.outPeriod_timeless m).trans (ih _)

theorem Tx.active_shows {t : Tx s0} {B : ℕ} (he : t.cur.engines.running = true ∧ t.cur.engines.cause = 0) (hn : t.cur.now = B)
    (hr : t.cur.maps.ramp = some (B, true)) (hg : t.cur.g 0x6500 0 0x10 = 1) :
    (t.active.cur.engines.running = true ∧ t.active.cur.engines.cause = 0) ∧ t.active.cur.now = B ∧
      t.active.cur.maps.ramp = some (B, true) ∧ t.active.cur.g 0x6500 0 0x10 = 1 := by
  have hk := t.active_keeps
  have heng := hk.engines (by decide)
  have hkeep := hk.gOf (i := 0x6500) (n := 0) (c := 0x10)
  refine ⟨?_, (hk.clock (by decide)).1.trans hn, (congrArg Maps.ramp (hk.maps (by decide))).trans hr, hkeep.trans hg⟩
  rw [heng]
  exact he

theorem State.nextCount_block (s : State) : ∃ k, s.nextCount = 16 * k := by
  unfold State.nextCount
  exact ⟨_, rfl⟩

/-- The engines run from boundary 16 * k on, at which every destination begins its ramp up. -/
def Runs (k : ℕ) (a : State) : Prop :=
  (a.engines.running = true ∧ a.engines.cause = 0) ∧ a.now = 16 * k ∧ a.maps.ramp = some (16 * k, true) ∧ a.g 0x6500 0 0x10 = 1

theorem Tx.engineRestart_runs (t : Tx s0) (cause : ℕ) (rate stepped : Bool) :
    ∃ k, Runs k (t.engineRestart cause rate stepped).cur := by
  unfold Tx.engineRestart Tx.enginesUp
  extract_lets +onlyGivenNames t1 a B t2 t3
  have hB : ∃ k, B = 16 * k := t1.cur.nextCount_block
  have h3 : Timeless t2.cur t3.cur := t2.outPeriods_timeless (range' (a + 1) (B - a))
  have hnow : t3.cur.now = B := (h3.clock (by decide)).1
  clear_value t3 B
  obtain ⟨k, rfl⟩ := hB
  refine ⟨k, ?_⟩
  extract_lets +onlyGivenNames e4 t4
  have h4 : (t4.cur.engines.running = true ∧ t4.cur.engines.cause = 0) ∧ t4.cur.now = 16 * k := ⟨⟨rfl, rfl⟩, hnow⟩
  clear_value t4
  extract_lets +onlyGivenNames t5
  have h5 : OffEngines t4.cur t5.cur := Kept.trans (.when (fun t => (t.commitCatch_off _).trans (Tx.graftCatch_off _ _)) (.refl ..))
    (Tx.sceneRestart_off _)
  clear_value t5
  extract_lets +onlyGivenNames t6
  have h6 : OffEngines t4.cur t6.cur := .when (fun t => t.pllReady_off) h5
  clear_value t6
  extract_lets +onlyGivenNames t7
  have h7 : OffEngines t4.cur t7.cur := .when (fun t => t.portsRestart_off.trans (Tx.streamsRestart_off _)) h6
  clear_value t7
  extract_lets +onlyGivenNames t8
  have h8 : OffEngines t4.cur t8.cur := .when (fun t => t.micsRestart_off) h7
  clear_value t8
  extract_lets +onlyGivenNames t9
  have h9 : OffEngines t4.cur t9.cur := .when (fun t => t.mapsAfresh_off) h8
  clear_value t9
  extract_lets +onlyGivenNames t10
  have h10 : OffEngines t4.cur t10.cur := h9.trans (t9.poolRestart_off _)
  clear_value t10
  extract_lets +onlyGivenNames t11
  have h11 : OffEngines t4.cur t11.cur := .when (fun t => t.recorderRestart_off) h10
  clear_value t11
  extract_lets +onlyGivenNames t12
  have h12 : OffEngines t4.cur t12.cur := h11.trans (t11.triggersRestart_off _)
  clear_value t12
  extract_lets +onlyGivenNames t13
  have h13 : OffEngines t4.cur t13.cur := .when (fun _ => .msg (.refl ..)) h12
  clear_value t13
  extract_lets +onlyGivenNames t14
  have h14 : OffEngines t4.cur t14.cur := .wKey h13 trivial
  have hg : t14.cur.g 0x6500 0 0x10 = 1 := Tx.w_g_of (i := 0x6500) (c := 0x10) t13 (entryAt_ent (by decide : 0 < 1) rfl) rfl
  clear_value t14
  have he : t14.cur.engines.running = true ∧ t14.cur.engines.cause = 0 := by
    rw [h14.engines (by decide)]
    exact h4.1
  have hn : t14.cur.now = 16 * k := (h14.clock (by decide)).1.trans h4.2
  rw [if_neg (by decide)]
  extract_lets +onlyGivenNames m15 t15
  have hr : Runs k t15.cur := ⟨he, hn, rfl, hg⟩
  clear_value t15
  split
  · exact Tx.active_shows hr.1 hr.2.1 hr.2.2.1 hr.2.2.2
  · exact hr

theorem enginesRestart_restarts (hc : s.clocked = true) (hr : s.engines.running = false) (hs : s.engines.stepTo = none)
    (hcause : s.engines.cause ∈ [1, 2, 3, 6]) (h3 : s.g 0x6200 0 0x01 ≠ 3) (hat : s.on 0x3F00 0 0x03 = true → s.g 0x6200 0 0x11 = 0) :
    ∃ t, exec .enginesRestart s = .next t ∧ t.engines.running = true ∧ t.engines.cause = 0 ∧ t.now % 16 = 0 ∧
      t.maps.ramp = some (t.now, true) ∧ t.g 0x6500 0 0x10 = 1 := by
  change ∃ t, execEnginesRestart s = .next t ∧ _
  unfold execEnginesRestart
  have hcond : (s.engines.running || s.engines.stepTo.isSome || !([1, 2, 3, 6] : List ℕ).contains s.engines.cause ||
      s.g 0x6200 0 0x01 == 3) = false := by
    rw [hr, hs, List.contains_iff_mem.mpr hcause]
    simpa using h3
  have hwait : (s.on 0x3F00 0 0x03 && s.g 0x6200 0 0x11 != 0 &&
      rescale s.fA s.engines.newRate (s.g 0x6200 0 0x11) ≤ s.nextCount * s.engines.newRate / s.fA) = false := by
    cases ho : s.on 0x3F00 0 0x03
    · rfl
    · rw [hat ho]
      rfl
  refine run_to hc ((Tx.start s).engineRestart s.engines.cause (s.on 0x3F00 0 0x03) s.engines.stepped)
    (by dsimp only; rw [hcond, hwait]; rfl) fun t ht => ?_
  obtain ⟨k, ⟨h1, h2⟩, hn, hm, hg⟩ := (Tx.start s).engineRestart_runs s.engines.cause (s.on 0x3F00 0 0x03) s.engines.stepped
  rw [ht.engines (by simp), ht.maps (by simp), (ht.clock (by simp)).1, ht.seenG, hn]
  exact ⟨h1, h2, Nat.mul_mod_right .., hm, hg⟩

/-- Settles O22, command by command. -/
theorem enginesComplete : Obligations.EnginesComplete := by
  unfold Obligations.EnginesComplete
  exact fun s hc => ⟨fun h d hk hcom hrep ho hd hr hB => rateChange_asks hc hk hcom hrep ho hd hr hB,
    fun B hB hn hr => outputsRampDown_ramps hc hB hn hr, fun B hB hd => outputsRampDown_retrains hc hB hd,
    fun B hB hr hn => enginesStop_stops hc hB hr hn, fun off ho hr => step_lands hc ho hr,
    fun hr hs hcause h3 hat => enginesRestart_restarts hc hr hs hcause h3 hat⟩

end Sys2Proof.Machine
end

section
/-! PROOFS. Serial ports: what each of their operations does to one port, and how they start and end (R170, R183, R186). -/

namespace Sys2Proof.Machine
open Sys2Proof

set_option Elab.async false

variable {s0 s a b : State} {M : List Part}

/-! ## The ports' states -/

theorem Tx.w_g_other (t : Tx s0) {i n c v m : ℕ} (hn : n < 65536) (hm : m < 65536) (h : m ≠ n) (hc : c < 256 := by decide) :
    (t.w i n c v).cur.g i m c = t.cur.g i m c :=
  Tx.w_get_other t v fun hk => h ((K_inj hm hc hn hc).mp hk).2.1

theorem Tx.setPort_port (t : Tx s0) (p : ℕ) (x : Port) (j : ℕ) : (t.setPort p x).cur.port j = if j = p then x else t.cur.port j :=
  mget_mputD ..

theorem State.port_congr (h : b.serial.ports = a.serial.ports) (n : ℕ) : b.port n = a.port n := by
  unfold State.port
  rw [h]

/-- The state of a port which takes one, and of the others. -/
theorem Tx.portTo_state (t : Tx s0) {p n st : ℕ} (hp : p < 32) (hn : n < 32) (hst : st < 256) :
    (t.portTo p st).cur.portState n = if n = p then st else t.cur.portState n := by
  unfold Tx.portTo
  split
  · rename_i h
    split
    · rename_i he
      rw [he]
      exact beq_iff_eq.mp h
    · rfl
  · have hrest : ∀ u : Tx s0, Keeps [.all 0x4010 [0x16], .all 0x4400 [0x02]] [] u.cur (((u.when (st == 4) (fun t => t.flagBit 0x4010 p
        0x16 6)).when ((u.when (st == 4) (fun t => t.flagBit 0x4010 p 0x16 6)).g 0x4000 p 0x0F < 8 && ((u.when (st == 4) (fun t =>
        t.flagBit 0x4010 p 0x16 6)).cur.goodMembers ((u.when (st == 4) (fun t => t.flagBit 0x4010 p 0x16 6)).g 0x4000 p 0x0F)).isEmpty)
        (fun t => t.w 0x4400 ((u.when (st == 4) (fun t => t.flagBit 0x4010 p 0x16 6)).g 0x4000 p 0x0F) 0x02 0xFF))).cur := fun u =>
      .when (fun _ => .w (.refl ..)) (.when (fun _ => .flagBit (.refl ..)) (.refl ..))
    dsimp only
    unfold State.portState
    rw [Kept.gOf (l := []) (Tx.portMsg_keeps ..), (hrest _).gOf]
    split
    · rename_i he
      rw [he]
      exact Tx.w_g_of t (entryAt_ent hp rfl) (fit_of_lt (by decide) hst)
    · rename_i hne
      exact Tx.w_g_other t (by omega) (by omega) hne

/-- Port n and its state stand alike in two states. -/
def PortStays (n : ℕ) (a b : State) : Prop := b.port n = a.port n ∧ b.portState n = a.portState n

theorem PortStays.refl (n : ℕ) (a : State) : PortStays n a a := ⟨rfl, rfl⟩

theorem PortStays.trans {n : ℕ} {c : State} (h : PortStays n a b) (g : PortStays n b c) : PortStays n a c :=
  ⟨g.1.trans h.1, g.2.trans h.2⟩

theorem PortStays.of {n : ℕ} {l : List Span} (h : Keeps l M a b) (hM : Part.serial ∉ M := by decide)
    (hk : apart l 0x4010 0x01 = true := by decide) : PortStays n a b :=
  ⟨State.port_congr (congrArg Serial.ports (h.serial hM)) n, h.gOf hk⟩

theorem PortStays.step {n : ℕ} {l : List Span} {c : State} (g : Keeps l M b c) (h : PortStays n a b)
    (hM : Part.serial ∉ M := by decide) (hk : apart l 0x4010 0x01 = true := by decide) : PortStays n a c := h.trans (.of g hM hk)

theorem PortStays.setPort {n p : ℕ} {t : Tx s0} {x : Port} (h : PortStays n a t.cur) (hn : n ≠ p) : PortStays n a (t.setPort p x).cur :=
  h.trans ⟨by rw [Tx.setPort_port, if_neg hn], Kept.gOf (l := []) (Tx.setPort_keeps ..)⟩

theorem Tx.asrcDrop_ports (t : Tx s0) (l : List ℕ) : (t.asrcDrop l).cur.serial.ports = t.cur.serial.ports := by
  have hone : ∀ (u : Tx s0) c, u.cur.serial.ports = t.cur.serial.ports → (((((((((u.w 0x4510 c 0x01 0).w 0x4510 c 0x02 0).w 0x4510 c 0x03
      0).w 0x4510 c 0x04 0xFF).w 0x4510 c 0x05 0).w 0x4510 c 0x06 0).asrcQuiet c))).cur.serial.ports = t.cur.serial.ports :=
    fun u c hu => by
      have hk : Keeps [.all 0x4510 [0x01, 0x02, 0x03, 0x04, 0x05, 0x06]] [] u.cur ((((((u.w 0x4510 c 0x01 0).w 0x4510 c 0x02 0).w 0x4510
          c 0x03 0).w 0x4510 c 0x04 0xFF).w 0x4510 c 0x05 0).w 0x4510 c 0x06 0).cur := .w (.w (.w (.w (.w (.w (.refl ..))))))
      have hs := congrArg Serial.ports (hk.serial (by decide))
      generalize (((((u.w 0x4510 c 0x01 0).w 0x4510 c 0x02 0).w 0x4510 c 0x03 0).w 0x4510 c 0x04 0xFF).w 0x4510 c 0x05 0).w 0x4510 c
        0x06 0 = v at hs ⊢
      exact hs.trans hu
  unfold Tx.asrcDrop
  rw [congrArg Serial.ports ((Tx.asrcShow_keeps _).serial (by decide))]
  exact Tx.each_inv (P := fun u => u.serial.ports = t.cur.serial.ports) l rfl fun u c hu => hone u c hu

theorem PortStays.asrcDrop {n : ℕ} {t : Tx s0} (h : PortStays n a t.cur) (l : List ℕ) : PortStays n a (t.asrcDrop l).cur :=
  h.trans ⟨State.port_congr (t.asrcDrop_ports l) n, (t.asrcDrop_keeps l).gOf⟩

theorem Tx.portDrop_stays (t : Tx s0) (p n : ℕ) : PortStays n t.cur (t.portDrop p).cur := by
  unfold Tx.portDrop
  refine PortStays.asrcDrop (PortStays.of (l := [.all 0x3F00 [0x05, 0x06]]) (M := [.maps]) (.when (fun _ => .setMaps (.step
    (Tx.bridgeDrop_keeps _ 1 _) (.step (Tx.bridgeDrop_keeps _ 0 _) (.refl ..)))) (.refl ..))) _

theorem Tx.portTo_stays (t : Tx s0) {p n st : ℕ} (hp : p < 32) (hn : n < 32) (hst : st < 256) (h : n ≠ p) :
    PortStays n t.cur (t.portTo p st).cur :=
  ⟨State.port_congr (congrArg Serial.ports ((Tx.portTo_keeps ..).serial (by decide))) n, by
    rw [Tx.portTo_state t hp hn hst, if_neg h]⟩

theorem Tx.portArm_other (t : Tx s0) {p n : ℕ} (hp : p < 32) (hn : n < 32) (h : n ≠ p) : PortStays n t.cur (t.portArm p).cur := by
  unfold Tx.portArm
  exact .setPort (.step (Tx.portTake_keeps ..) (.step (l := [.all 0x4010 [0x02]]) (M := []) (.w (.refl ..)) (t.portTo_stays hp hn
    (by decide) h))) h

/-- A port that is not in HELD is left when the ports are looked at. -/
theorem Tx.portsLook_stays (t : Tx s0) {n : ℕ} (hn : n < 32) (h4 : t.cur.portState n ≠ 4) : PortStays n t.cur t.portsLook.cur := by
  have hone : ∀ (u : Tx s0) p, p < 32 → PortStays n t.cur u.cur → PortStays n t.cur
      (if u.cur.portState p == 4 && (u.cur.port p).startAt.isNone && u.cur.portFits p then u.portArm p else u).cur := fun u p hp hu => by
    split
    · rename_i hc
      by_cases hnp : n = p
      · rw [← hnp, hu.2] at hc
        simp [h4] at hc
      · exact hu.trans (u.portArm_other hp hn hnp)
    · exact hu
  have hlook : ∀ (l : List ℕ) (u : Tx s0), (∀ p ∈ l, p < 32) → PortStays n t.cur u.cur → PortStays n t.cur (u.each l (fun t p =>
      if t.cur.portState p == 4 && (t.cur.port p).startAt.isNone && t.cur.portFits p then t.portArm p else t)).cur := fun l => by
    induction l with
    | nil => exact fun u _ hu => hu
    | cons p l ih => exact fun u hl hu => ih _ (fun q hq => hl q (.tail _ hq)) (hone u p (hl p (.head _)) hu)
  exact hlook _ t (fun p hp => List.mem_range.mp hp) (.refl ..)

/-- Every entry but those of the ports, and their loads. -/
def Span.offPorts : List Span := [⟨0, 0x3FFF, none, []⟩, .all 0x4010 [0x15], ⟨0x4400, 0x10000, none, []⟩]

theorem Tx.heldLook_stays (t : Tx s0) {n : ℕ} (hn : n < 32) (h4 : t.cur.portState n ≠ 4) : PortStays n t.cur t.heldLook.cur := by
  unfold Tx.heldLook
  refine (t.portsLook_stays hn h4).trans (PortStays.of (l := Span.offPorts) (M := [.outs, .net, .time]) ?_)
  exact .each (fun _ _ => .ite (.step (Tx.txStart_keeps ..) (.refl ..)) (.refl ..)) (.each (fun _ _ => .ite (.step (Tx.rxStart_keeps ..)
      (.refl ..)) (.refl ..)) (.refl ..))

/-! ## Enable -/

theorem State.on_congr (h : ∀ i m c, b.g i m c = a.g i m c) (i m c : ℕ) : b.on i m c = a.on i m c := by
  unfold State.on
  rw [h]

/-- What an enable looks at rests on the dictionary alone. -/
theorem State.enable_congr (h : ∀ i m c, b.g i m c = a.g i m c) (n : ℕ) :
    b.portLimits n = a.portLimits n ∧ b.groupFits n = a.groupFits n ∧ b.portFits n = a.portFits n ∧ b.portDomain n = a.portDomain n := by
  have ho := State.on_congr h
  have hdom : b.portDomain n = a.portDomain n := by
    unfold State.portDomain State.portForeign State.portAsrc State.portMaster State.portRate State.fA
    simp only [h, ho]
  refine ⟨?_, ?_, ?_, hdom⟩
  · unfold State.portLimits State.portRate State.portMaster
    simp only [h]
  · unfold State.groupFits State.portAsrc State.members State.portRate State.portMaster
    simp only [h, ho]
  · unfold State.portFits State.bridgeFits State.portSlots State.portChannels State.portSlots State.asrcFree State.portRate State.fA
    simp only [h, ho, hdom]

/-- Nothing of the dictionary moves where a command begins. -/
theorem begun_g (st i m c : ℕ) : ((Tx.start s).status st).cur.g i m c = s.g i m c := rfl

theorem portRule_enables (t : Tx s0) {n : ℕ} {d : Bytes} (hd : leNat d = 1) (ho : t.cur.on 0x4000 n 0x01 = false)
    (hl : t.cur.portLimits n = true) (hg : t.cur.groupFits n = true) (hf : t.cur.portFits n = true) :
    portRule n d t = if !t.cur.engines.running then ((t.w 0x4000 n 0x01 1).portTo n 5).w 0x4010 n 0x02 (t.cur.portDomain n)
      else (t.w 0x4000 n 0x01 1).portArm n := by
  have hrule : portEnableRule n d t = if !t.cur.engines.running then ((t.w 0x4000 n 0x01 1).portTo n 5).w 0x4010 n 0x02
      (t.cur.portDomain n) else (t.w 0x4000 n 0x01 1).portArm n := by
    unfold portEnableRule
    simp only [hd, ho, hl, hg, hf, beq_self_eq_true, Bool.true_eq_false, beq_iff_eq, Bool.not_true, Bool.or_self, Bool.false_eq_true,
      if_false, if_true]
  unfold portRule
  rw [hrule, hd]
  rfl

/-- A frame that leaves the configuration of the ports leaves a port's domain. -/
theorem Kept.portDomain {l : List Span} (h : Keeps l M a b) (n : ℕ) (hr : apart l 0x3F00 0x01 = true := by decide)
    (h5 : apart l 0x4000 0x05 = true := by decide) (h6 : apart l 0x4000 0x06 = true := by decide)
    (h7 : apart l 0x4000 0x07 = true := by decide) (hD : apart l 0x4000 0x0D = true := by decide)
    (hE : apart l 0x4000 0x0E = true := by decide) : b.portDomain n = a.portDomain n := by
  unfold State.portDomain State.portForeign State.portAsrc State.portMaster State.portRate State.fA
  simp only [h.gOf hr, h.gOf h5, h.gOf h6, h.gOf h7, h.onOf hD, h.onOf hE]

theorem Tx.portArm_arms (t : Tx s0) {n : ℕ} (hn : n < 32) :
    ((t.portArm n).cur.port n).startAt = some (nextBlock t.cur.now) ∧ (t.portArm n).cur.g 0x4010 n 0x02 = t.cur.portDomain n := by
  have hto := t.portTo_keeps n 1
  unfold Tx.portArm
  dsimp only
  generalize t.portTo n 1 = u at hto
  have htake := (u.w 0x4010 n 0x02 (t.cur.portDomain n)).portTake_keeps n
  have hw : Keeps [.all 0x4010 [0x02]] [] u.cur (u.w 0x4010 n 0x02 (t.cur.portDomain n)).cur := .w (.refl ..)
  have hg : (u.w 0x4010 n 0x02 (t.cur.portDomain n)).cur.g 0x4010 n 0x02 = t.cur.portDomain n := by
    refine Tx.w_g_of u (i := 0x4010) (c := 0x02) (entryAt_ent hn rfl) (fit_of_lt (by decide) ?_)
    have hle : t.cur.portDomain n ≤ 3 := by
      unfold State.portDomain
      dsimp only
      split
      · split <;> decide
      · split <;> decide
    exact Nat.lt_of_le_of_lt hle (by decide)
  generalize u.w 0x4010 n 0x02 (t.cur.portDomain n) = v at htake hw hg
  refine ⟨?_, ?_⟩
  · rw [Tx.setPort_port, if_pos rfl, (htake.clock (by decide)).1, (hw.clock (by decide)).1, (hto.clock (by decide)).1]
  · rw [Kept.gOf (l := []) (Tx.setPort_keeps ..), htake.gOf, hg]

theorem portEnable_arms (hc : s.clocked = true) {h n : ℕ} {d : Bytes} (hn : n < 32) (hk : s.writeCheck h (opOf 0x4000 n 0x01 d) = stOK)
    (hd : leNat d = 1) (ho : s.on 0x4000 n 0x01 = false) (hl : s.portLimits n = true) (hg : s.groupFits n = true)
    (hr : s.engines.running = true) (hf : s.portFits n = true) :
    ∃ t, exec (.portEnable h n d) s = .next t ∧ t.g 0x4000 n 0x01 = 1 ∧ (t.port n).startAt = some (nextBlock s.now) ∧
      t.g 0x4010 n 0x02 = s.portDomain n := by
  obtain ⟨el, eg, ef, ed⟩ := State.enable_congr (begun_g (s := s) stOK) n
  have hrule := portRule_enables ((Tx.start s).status stOK) hd ((State.on_congr (begun_g stOK) ..).trans ho) (el.trans hl) (eg.trans hg)
    (ef.trans hf)
  rw [if_neg (by rw [show ((Tx.start s).status stOK).cur.engines.running = true from hr]; decide)] at hrule
  change ∃ t, execPortEnable h n d s = .next t ∧ _
  unfold execPortEnable
  refine run_to hc _ ((guarded_start hk _).trans hrule) fun t ht => ?_
  have hw : Keeps [.all 0x4000 [0x01]] [] ((Tx.start s).status stOK).cur (((Tx.start s).status stOK).w 0x4000 n 0x01 1).cur := .w (.refl ..)
  have hon : (((Tx.start s).status stOK).w 0x4000 n 0x01 1).cur.g 0x4000 n 0x01 = 1 :=
    Tx.w_g_of (i := 0x4000) (c := 0x01) _ (entryAt_ent hn rfl) rfl
  have hdom : (((Tx.start s).status stOK).w 0x4000 n 0x01 1).cur.portDomain n = s.portDomain n := (hw.portDomain n).trans ed
  have hnow : (((Tx.start s).status stOK).w 0x4000 n 0x01 1).cur.now = s.now := (hw.clock (by decide)).1
  generalize ((Tx.start s).status stOK).w 0x4000 n 0x01 1 = u at ht hon hdom hnow
  obtain ⟨hat, hshow⟩ := u.portArm_arms hn
  rw [ht.seenG, ht.seenG, State.port_congr (congrArg Serial.ports (ht.serial (by simp))), hat, hshow, hnow, hdom,
    (u.portArm_keeps n).gOf, hon]
  exact ⟨rfl, rfl, rfl⟩

theorem portEnable_stops (hc : s.clocked = true) {h n : ℕ} {d : Bytes} (hn : n < 32) (hk : s.writeCheck h (opOf 0x4000 n 0x01 d) = stOK)
    (hd : leNat d = 1) (ho : s.on 0x4000 n 0x01 = false) (hl : s.portLimits n = true) (hg : s.groupFits n = true)
    (hf : s.portFits n = true) (hr : s.engines.running = false) :
    ∃ t, exec (.portEnable h n d) s = .next t ∧ t.g 0x4000 n 0x01 = 1 ∧ t.portState n = 5 := by
  obtain ⟨el, eg, ef, ed⟩ := State.enable_congr (begun_g (s := s) stOK) n
  have hrule := portRule_enables ((Tx.start s).status stOK) hd ((State.on_congr (begun_g stOK) ..).trans ho) (el.trans hl) (eg.trans hg)
    (ef.trans hf)
  rw [if_pos (by rw [show ((Tx.start s).status stOK).cur.engines.running = false from hr]; decide)] at hrule
  change ∃ t, execPortEnable h n d s = .next t ∧ _
  unfold execPortEnable
  refine run_to hc _ ((guarded_start hk _).trans hrule) fun t ht => ?_
  have hon : (((Tx.start s).status stOK).w 0x4000 n 0x01 1).cur.g 0x4000 n 0x01 = 1 :=
    Tx.w_g_of (i := 0x4000) (c := 0x01) _ (entryAt_ent hn rfl) rfl
  generalize ((Tx.start s).status stOK).w 0x4000 n 0x01 1 = u at ht hon
  have hrest : Keeps [.all 0x4010 [0x02]] [] (u.portTo n 5).cur ((u.portTo n 5).w 0x4010 n 0x02
      (((Tx.start s).status stOK).cur.portDomain n)).cur := .w (.refl ..)
  refine ⟨?_, ?_⟩
  · rw [ht.seenG, hrest.gOf, (Tx.portTo_keeps ..).gOf, hon]
  · unfold State.portState
    rw [ht.seenG, hrest.gOf]
    exact (Tx.portTo_state u hn hn (by decide)).trans (if_pos rfl)

/-! ## Disable, release and masks -/

theorem Tx.dropMasks_sent (t : Tx s0) (p : ℕ) : ((t.dropMasks p).cur.port p).sent = (t.cur.port p).sent := by
  unfold Tx.dropMasks
  dsimp only
  rw [Tx.setPort_port, if_pos rfl]

theorem Tx.dropMasks_keeps (t : Tx s0) (p : ℕ) : Keeps [.all 0x4000 [0x0A, 0x0B]] [.serial] t.cur (t.dropMasks p).cur := by
  unfold Tx.dropMasks
  exact .step (Tx.setPort_keeps ..) (.when (fun _ => .w (.refl ..)) (.when (fun _ => .w (.refl ..)) (.refl ..)))

/-- A port that is disabled has taken state 0, and what remains leaves it so. -/
theorem Tx.portDisabled_stays (t : Tx s0) {n : ℕ} (hn : n < 32) (h0 : t.cur.portState n = 0) :
    PortStays n t.cur (t.portDisabled n).heldLook.cur := by
  unfold Tx.portDisabled
  have hdrop : PortStays n t.cur ((t.portDrop n).w 0x4010 n 0x02 0xFF).cur := .step (l := [.all 0x4010 [0x02]]) (M := []) (.w (.refl ..))
    (t.portDrop_stays n n)
  generalize (t.portDrop n).w 0x4010 n 0x02 0xFF = u at hdrop
  have hu : u.cur.portState n ≠ 4 := by
    rw [hdrop.2, h0]
    decide
  have hlook := u.portsLook_stays hn hu
  exact hdrop.trans (hlook.trans (Tx.heldLook_stays _ hn (by rwa [hlook.2])))

/-- Entry 0x4000:01 stays while a port that is disabled gives back what it held. -/
theorem Tx.portDisabled_on (t : Tx s0) (n m : ℕ) : (t.portDisabled n).heldLook.cur.g 0x4000 m 0x01 = t.cur.g 0x4000 m 0x01 := by
  have hk : Keeps [⟨0, 0x3FFF, none, []⟩, ⟨0x4001, 0x10000, none, []⟩] [.outs, .net, .time, .serial, .maps] t.cur
      (t.portDisabled n).heldLook.cur := by
    unfold Tx.portDisabled Tx.portDrop
    exact .step (Tx.heldLook_keeps _) (.step (Tx.portsLook_keeps _) (.w (.step (Tx.asrcDrop_keeps ..) (.when (fun _ => .setMaps (.step
      (Tx.bridgeDrop_keeps _ 1 _) (.step (Tx.bridgeDrop_keeps _ 0 _) (.refl ..)))) (.refl ..)))))
  exact hk.gOf

/-- A GOOD port that is disabled: its output ramps down from what it sent. -/
def Port.closed (x : Port) : Port :=
  { x with closing := true, startAt := none, inRamp := some (false, 0, x.cur), slotRamp := [],
           outRamp := some (false, none, x.sent), inFifo := [], outFifo := [], begun := [] }

/-- What a disable leaves of an enabled port. -/
def Tx.portClosed (t : Tx s0) (p : ℕ) : Tx s0 :=
  let good := t.cur.portState p == 2
  let u := ((t.w 0x4000 p 0x01 0).dropMasks p).when (4 ≤ t.cur.portState p) (fun t => t.w 0x4010 p 0x02 0xFF)
  let v := u.portTo p 0
  (if good then (v.setPort p (v.cur.port p).closed).portDisabled p
  else ((v.setPort p { v.cur.port p with startAt := none }).portRelease p).portDisabled p).heldLook

theorem portRule_disables (t : Tx s0) {n : ℕ} {d : Bytes} (hd : leNat d = 0) (ho : t.cur.on 0x4000 n 0x01 = true) :
    portRule n d t = t.portClosed n := by
  have hrule : portRule n d t = (portEnableRule n d t).heldLook := by
    unfold portRule
    rw [hd, show t.on 0x4000 n 0x01 = true from ho]
    rfl
  rw [hrule]
  unfold portEnableRule
  extract_lets on s good u v x w
  have hon : on = false := by
    unfold on
    rw [hd]
    rfl
  rw [hon, if_neg (by rw [show s.on 0x4000 n 0x01 = true from ho]; decide), if_neg (by decide)]
  rfl

theorem Tx.portClosed_closes (t : Tx s0) {n : ℕ} (hn : n < 32) :
    (t.portClosed n).cur.g 0x4000 n 0x01 = 0 ∧ (t.portClosed n).cur.portState n = 0 ∧
      (t.cur.portState n = 2 → ((t.portClosed n).cur.port n).closing = true ∧
        ((t.portClosed n).cur.port n).outRamp = some (false, none, (t.cur.port n).sent)) := by
  have hoff : (t.w 0x4000 n 0x01 0).cur.g 0x4000 n 0x01 = 0 := Tx.w_g_of (i := 0x4000) (c := 0x01) _ (entryAt_ent hn rfl) rfl
  have hwport : (t.w 0x4000 n 0x01 0).cur.port n = t.cur.port n :=
    State.port_congr (congrArg Serial.ports (Kept.serial (E := fun _ => True) (M := []) (.wKey (.refl ..) trivial) (by decide))) n
  unfold Tx.portClosed
  extract_lets good u v
  have hu : u.cur.g 0x4000 n 0x01 = 0 ∧ (u.cur.port n).sent = (t.cur.port n).sent := by
    have hmasks := (t.w 0x4000 n 0x01 0).dropMasks_sent n
    have hk : Keeps [.all 0x4000 [0x0A, 0x0B]] [.serial] (t.w 0x4000 n 0x01 0).cur ((t.w 0x4000 n 0x01 0).dropMasks n).cur :=
      Tx.dropMasks_keeps ..
    have hw : Keeps [.all 0x4010 [0x02]] [] ((t.w 0x4000 n 0x01 0).dropMasks n).cur u.cur := .when (fun _ => .w (.refl ..)) (.refl ..)
    refine ⟨by rw [hw.gOf, hk.gOf, hoff], ?_⟩
    rw [State.port_congr (congrArg Serial.ports (hw.serial (by decide))), hmasks, hwport]
  clear_value u
  have hv : v.cur.g 0x4000 n 0x01 = 0 ∧ v.cur.portState n = 0 ∧ (v.cur.port n).sent = (t.cur.port n).sent := by
    have hk := u.portTo_keeps n 0
    exact ⟨by rw [hk.gOf, hu.1], (u.portTo_state hn hn (by decide)).trans (if_pos rfl),
      by rw [State.port_congr (congrArg Serial.ports (hk.serial (by decide))), hu.2]⟩
  clear_value v
  obtain ⟨hv1, hv0, hsent⟩ := hv
  have hend : ∀ w : Tx s0, w.cur.g 0x4000 n 0x01 = 0 → w.cur.portState n = 0 → (w.portDisabled n).heldLook.cur.g 0x4000 n 0x01 = 0 ∧
      (w.portDisabled n).heldLook.cur.portState n = 0 ∧ (w.portDisabled n).heldLook.cur.port n = w.cur.port n := fun w hw h0 => by
    obtain ⟨hp, hs⟩ := w.portDisabled_stays hn h0
    exact ⟨(w.portDisabled_on n n).trans hw, hs.trans h0, hp⟩
  cases hgood : good with
  | true =>
    rw [if_pos rfl]
    obtain ⟨h1, h2, h3⟩ := hend (v.setPort n (v.cur.port n).closed) ((Tx.setPort_keeps ..).gOf.trans hv1)
      ((Kept.gOf (l := []) (Tx.setPort_keeps ..)).trans hv0)
    refine ⟨h1, h2, fun _ => ?_⟩
    rw [h3, Tx.setPort_port, if_pos rfl]
    exact ⟨rfl, congrArg (fun y => some (false, none, y)) hsent⟩
  | false =>
    rw [if_neg (by decide)]
    have hk : Keeps [] [.outs, .serial] v.cur ((v.setPort n { v.cur.port n with startAt := none }).portRelease n).cur :=
      .emit (.step (Tx.setPort_keeps ..) (.step (Tx.setPort_keeps ..) (.refl ..)))
    obtain ⟨h1, h2, -⟩ := hend _ (hk.gOf.trans hv1) (hk.gOf.trans hv0)
    exact ⟨h1, h2, fun h => absurd (show good = true from beq_iff_eq.mpr h) (by rw [hgood]; decide)⟩

theorem portDisable_disables (hc : s.clocked = true) {h n : ℕ} {d : Bytes} (hn : n < 32)
    (hk : s.writeCheck h (opOf 0x4000 n 0x01 d) = stOK) (hd : leNat d = 0) (ho : s.on 0x4000 n 0x01 = true) :
    ∃ t, exec (.portDisable h n d) s = .next t ∧ t.g 0x4000 n 0x01 = 0 ∧ t.portState n = 0 ∧
      (s.portState n = 2 → (t.port n).closing = true ∧ (t.port n).outRamp = some (false, none, (s.port n).sent)) := by
  have hon : ((Tx.start s).status stOK).cur.on 0x4000 n 0x01 = true := (State.on_congr (begun_g stOK) ..).trans ho
  have hrule := portRule_disables ((Tx.start s).status stOK) hd hon
  change ∃ t, execPortDisable h n d s = .next t ∧ _
  unfold execPortDisable
  refine run_to hc _ ((guarded_start hk _).trans hrule) fun t ht => ?_
  have hport : ((Tx.start s).status stOK).cur.port n = s.port n := rfl
  have hst : ((Tx.start s).status stOK).cur.portState n = s.portState n := rfl
  generalize (Tx.start s).status stOK = u at ht hport hst
  obtain ⟨hzero, hstate, hgood⟩ := u.portClosed_closes hn
  refine ⟨by rw [ht.seenG, hzero], by unfold State.portState; rw [ht.seenG]; exact hstate, fun h2 => ?_⟩
  obtain ⟨hclose, hramp⟩ := hgood (hst.trans h2)
  rw [State.port_congr (congrArg Serial.ports (ht.serial (by simp))), hclose, hramp, hport]
  exact ⟨rfl, rfl⟩

theorem portRelease_releases (hc : s.clocked = true) {n : ℕ} (hcl : (s.port n).closing = true) (hi : (s.port n).inRamp = none) :
    ∃ t, exec (.portRelease n) s = .next t ∧ (t.port n).closing = false ∧ (t.port n).outFifo = [] ∧ t.outs = [.sapHiz n] := by
  change ∃ t, execPortRelease n s = .next t ∧ _
  unfold execPortRelease
  refine run_to hc ((Tx.start s).portRelease n) (by rw [hcl, hi]; rfl) fun t ht => ?_
  have hport : ((Tx.start s).portRelease n).cur.port n = { Port.init with
      rmask := (s.port n).rmask, tmask := (s.port n).tmask, waits := (s.port n).waits, latched := (s.port n).latched,
      startAt := (s.port n).startAt } := (Tx.setPort_port (Tx.start s) n _ n).trans (if_pos rfl)
  rw [State.port_congr (congrArg Serial.ports (ht.serial (by simp))), hport, ht.outs (by simp)]
  exact ⟨rfl, rfl, rfl⟩

theorem maskWrite_waits (hc : s.clocked = true) {h n sub : ℕ} {d : Bytes} (hs : sub = 0x0A ∨ sub = 0x0B)
    (hk : s.writeCheck h (opOf 0x4000 n sub d) = stOK) :
    ∃ t, exec (.maskWrite h n sub d) s = .next t ∧ t.g 0x4000 n sub = leNat d ∧
      (t.port n).waits = (s.port n).waits ++ [(sub == 0x0B, leNat d)] := by
  have hsub : (if sub == 0x0B then 0x0B else 0x0A) = sub := by rcases hs with rfl | rfl <;> rfl
  change ∃ t, execMaskWrite h n sub d s = .next t ∧ _
  unfold execMaskWrite
  refine run_to hc (maskRule n sub d ((Tx.start s).status stOK)) (by rw [hsub]; exact guarded_start hk _) fun t ht => ?_
  have hw : (((Tx.start s).status stOK).w 0x4000 n sub (leNat d)).cur.g 0x4000 n sub = leNat d := by
    rcases hs with rfl | rfl
    · exact Tx.w_written _ hk rfl
    · exact Tx.w_written _ hk rfl
  have hport : (((Tx.start s).status stOK).w 0x4000 n sub (leNat d)).cur.port n = s.port n := by
    refine State.port_congr (congrArg Serial.ports (Kept.serial (E := fun _ => True) (M := [.result]) (.wKey (.status (.refl ..)) trivial)
      (by decide))) n
  unfold maskRule at ht
  dsimp only at ht
  generalize ((Tx.start s).status stOK).w 0x4000 n sub (leNat d) = u at ht hw hport
  have hset := Tx.setPort_keeps u n { u.cur.port n with waits := (u.cur.port n).waits ++ [(sub == 0x0B, leNat d)] }
  refine ⟨?_, ?_⟩
  · rcases hs with rfl | rfl
    · exact ht.seenG.trans (hset.gOf.trans hw)
    · exact ht.seenG.trans (hset.gOf.trans hw)
  · rw [State.port_congr (congrArg Serial.ports (ht.serial (by simp))), Tx.setPort_port, if_pos rfl]
    exact congrArg (fun x => x.waits ++ [(sub == 0x0B, leNat d)]) hport

/-! ## The start at the boundary -/

/-- The boundary that port n waits for and its state stand alike in two states. -/
def StartStays (n : ℕ) (a b : State) : Prop := (b.port n).startAt = (a.port n).startAt ∧ b.portState n = a.portState n

theorem StartStays.refl (n : ℕ) (a : State) : StartStays n a a := ⟨rfl, rfl⟩

theorem StartStays.trans {n : ℕ} {c : State} (h : StartStays n a b) (g : StartStays n b c) : StartStays n a c :=
  ⟨g.1.trans h.1, g.2.trans h.2⟩

theorem PortStays.starts {n : ℕ} (h : PortStays n a b) : StartStays n a b := ⟨congrArg Port.startAt h.1, h.2⟩

/-- An update of a port that leaves its boundary. -/
theorem Tx.setPort_starts (t : Tx s0) {p n : ℕ} {x : Port} (h : n = p → x.startAt = (t.cur.port p).startAt) :
    StartStays n t.cur (t.setPort p x).cur := by
  refine ⟨?_, Kept.gOf (l := []) (Tx.setPort_keeps ..)⟩
  rw [Tx.setPort_port]
  split
  · rename_i hnp
    rw [h hnp, hnp]
  · rfl

theorem StartStays.each {α : Type} {n : ℕ} {t : Tx s0} {f : Tx s0 → α → Tx s0} (l : List α)
    (h : ∀ u x, StartStays n u.cur (f u x).cur) : StartStays n t.cur (t.each l f).cur :=
  Tx.each_inv (P := fun u => StartStays n t.cur u) l (.refl ..) fun u x hu => hu.trans (h u x)

theorem Tx.asrcPush_starts (t : Tx s0) (c : ℕ) (a x : ℤ) (n : ℕ) : StartStays n t.cur (t.asrcPush c a x).cur :=
  ⟨rfl, rfl⟩

theorem Tx.outRamped_starts (t : Tx s0) (p : ℕ) (ws : List ℤ) (n : ℕ) : StartStays n t.cur (t.outRamped p ws).2.cur := by
  unfold Tx.outRamped
  dsimp only
  split
  · split
    · exact t.setPort_starts fun _ => rfl
    · exact t.setPort_starts fun _ => rfl
  · exact .refl ..

theorem Tx.outPush_starts (t : Tx s0) (p u : ℕ) (ws : List ℤ) (n : ℕ) : StartStays n t.cur (t.outPush p u ws).cur := by
  unfold Tx.outPush
  dsimp only
  split
  · exact (PortStays.of (l := [.all 0x4010 [0x11, 0x16], .ctr 0 0xFFF]) (M := []) (.step (Tx.portMsg_keeps ..) (.flagBit (.tally (.refl ..))))).starts
  · exact (t.outRamped_starts p ws n).trans (Tx.setPort_starts _ fun _ => rfl)

theorem Tx.portPush_starts (t : Tx s0) (p n : ℕ) : StartStays n t.cur (t.portPush p).cur := by
  have hframe : ∀ (u : Tx s0) up ph keys, StartStays n u.cur (u.bridgeFrame up ph keys).2.cur := fun u up ph keys => by
    refine (PortStays.of (l := [.all 0x3F00 [0x07, 0x09], .ctr 0 0xFFF]) (M := []) ?_).starts
    unfold Tx.bridgeFrame Tx.bridgeOut
    exact .foldSnd (fun _ _ => .when (fun _ => .flagBit (.tally (.refl ..))) (.refl ..)) (.refl ..)
  unfold Tx.portPush
  extract_lets s ws x w m keys v
  have hw : StartStays n t.cur w.cur := t.setPort_starts fun _ => rfl
  have hv : StartStays n t.cur v.cur := hw.trans (.each _ fun u x => (PortStays.of (l := []) (M := [.maps])
    (.setMaps (.refl ..))).starts)
  clear_value w v
  split
  · exact .refl ..
  split
  · refine .each _ fun u x => ?_
    split
    · exact u.asrcPush_starts ..
    · exact .refl ..
  split
  · exact hw.trans (w.outPush_starts ..)
  split
  · exact ((hv.trans (hframe v ..)).trans (hframe ..)).trans ((Tx.outPush_starts ..).trans (Tx.outPush_starts ..))
  split
  · exact (hv.trans (hframe v ..)).trans (Tx.outPush_starts ..)
  · exact hv

theorem Tx.latchMasks_starts (t : Tx s0) (p u k n : ℕ) : StartStays n t.cur (t.latchMasks p u k).cur := by
  unfold Tx.latchMasks
  extract_lets x r m a v
  have hv : PortStays n t.cur v.cur := .of (l := [.all 0x4010 [0x05, 0x06]]) (M := []) (.when (fun _ => .w (.refl ..)) (.when
    (fun _ => .w (.refl ..)) (.refl ..)))
  have hx : x.startAt = (v.cur.port p).startAt := by
    have hk : Keeps [.all 0x4010 [0x05, 0x06]] [] t.cur v.cur := .when (fun _ => .w (.refl ..)) (.when (fun _ => .w (.refl ..)) (.refl ..))
    exact congrArg Port.startAt (State.port_congr (congrArg Serial.ports (hk.serial (by decide))) p).symm
  clear_value v
  exact hv.starts.trans (v.setPort_starts fun _ => hx)

/-- A port that enters GOOD waits for no boundary. -/
theorem Tx.portGood_starts (t : Tx s0) {p : ℕ} (u : ℕ) (hp : p < 32) :
    ((t.portGood p u).cur.port p).startAt = none ∧ (t.portGood p u).cur.portState p = 2 := by
  have hlast : ∀ w : Tx s0, (w.cur.port p).startAt = none → w.cur.portState p = 2 → ((w.portPush p).cur.port p).startAt = none ∧
      (w.portPush p).cur.portState p = 2 := fun w h1 h2 => by
    obtain ⟨ha, hb⟩ := w.portPush_starts p p
    exact ⟨ha.trans h1, hb.trans h2⟩
  unfold Tx.portGood
  extract_lets slave v w x y z g e
  refine hlast e ?_ ?_
  · have hk : Keeps [.all 0x4400 [0x02, 0x07]] [] z.cur e.cur := .when (fun _ => .ite (.when (fun _ => .flagBit (.refl ..)) (.w (.refl ..)))
      (.refl ..)) (.refl ..)
    rw [State.port_congr (congrArg Serial.ports (hk.serial (by decide))), State.port_congr (congrArg Serial.ports
      ((Tx.portTo_keeps ..).serial (by decide))), Tx.setPort_port, if_pos rfl]
  · have hk : Keeps [.all 0x4400 [0x02, 0x07]] [] z.cur e.cur := .when (fun _ => .ite (.when (fun _ => .flagBit (.refl ..)) (.w (.refl ..)))
      (.refl ..)) (.refl ..)
    exact hk.gOf.trans ((y.portTo_state hp hp (by decide)).trans (if_pos rfl))

theorem Tx.portBegin_starts (t : Tx s0) {p : ℕ} (b : ℕ) (hp : p < 32) : ((t.portBegin p b).cur.port p).startAt = none ∧
    (t.portBegin p b).cur.portState p = if t.cur.portMaster p = true ∧ t.cur.g 0x4600 0 0x01 = 1 then 2 else 1 := by
  unfold Tx.portBegin
  extract_lets x u
  have hk : Keeps [.all 0x4010 [0x14]] [.serial] t.cur u.cur := .w (.step (Tx.setPort_keeps ..) (.refl ..))
  have hnone : (u.cur.port p).startAt = none := by
    have hw : Keeps [.all 0x4010 [0x14]] [] (t.setPort p { x with startAt := none, begun := [], refEdge := none, edges := 0 }).cur u.cur :=
      .w (.refl ..)
    rw [State.port_congr (congrArg Serial.ports (hw.serial (by decide))), Tx.setPort_port, if_pos rfl]
  have hmaster : u.cur.portMaster p = t.cur.portMaster p := by
    unfold State.portMaster
    rw [hk.gOf]
  have hpll : u.cur.g 0x4600 0 0x01 = t.cur.g 0x4600 0 0x01 := hk.gOf
  clear_value u
  rw [hmaster, show u.g 0x4600 0 0x01 = t.cur.g 0x4600 0 0x01 from hpll]
  split
  · rename_i h
    rw [if_pos (by simpa using h)]
    exact u.portGood_starts _ hp
  · rename_i h
    rw [if_neg (by simpa using h)]
    exact ⟨by rw [State.port_congr (congrArg Serial.ports ((Tx.portTo_keeps ..).serial (by decide))), hnone],
        (u.portTo_state hp hp (by decide)).trans (if_pos rfl)⟩

theorem portStart_begins (hc : s.clocked = true) {n b : ℕ} (hn : n < 32) (hb : (s.port n).startAt = some b) (hdue : b ≤ s.now)
    (hcl : (s.port n).closing = false) : ∃ t, exec (.portStart n) s = .next t ∧ (t.port n).startAt = none ∧
      t.portState n = (if s.portMaster n = true ∧ s.g 0x4600 0 0x01 = 1 then 2 else 1) := by
  change ∃ t, execPortStart n s = .next t ∧ _
  unfold execPortStart
  refine run_to hc ((Tx.start s).portBegin n (max b (s.now / 16 * 16))) ?_ fun t ht => ?_
  · rw [hb]
    dsimp only
    rw [hcl, if_neg (by simp [hdue])]
  · obtain ⟨h1, h2⟩ := (Tx.start s).portBegin_starts (max b (s.now / 16 * 16)) hn
    refine ⟨by rw [State.port_congr (congrArg Serial.ports (ht.serial (by simp))), h1], ?_⟩
    unfold State.portState
    rw [ht.seenG]
    exact h2

/-- Settles O23, clause by clause: enable, enable while the engines stand, start, disable, release and masks. -/
theorem portsComplete : Obligations.PortsComplete := by
  unfold Obligations.PortsComplete
  intro s n hc hn
  exact ⟨fun h d hk hd ho hl hg hr hf => portEnable_arms hc hn hk hd ho hl hg hr hf,
    fun h d hk hd ho hl hg hf hr => portEnable_stops hc hn hk hd ho hl hg hf hr,
    fun b hb hdue hcl => portStart_begins hc hn hb hdue hcl, fun h d hk hd ho => portDisable_disables hc hn hk hd ho,
    portRelease_releases hc, fun h d sub hs hk => maskWrite_waits hc hs hk⟩

end Sys2Proof.Machine
end

section
/-! PROOFS. Frames and clocks fail: a frame begun carries its edge in the model's own unit, not in ns. -/

namespace Sys2Proof.Machine
open Sys2Proof

set_option Elab.async false

/-- Slave port 0 qualifies. -/
def qualifyingState : State := { State.reset with dict := [(K 0x4000 0 0x06, 1), (K 0x4010 0 0x01, 1)] }

/-- Edge of the oldest frame that a port has begun, in the state that a command leads to. -/
def nextEdge (x : Host.Outcome State Fault Refusal) (p : ℕ) : Option ℤ :=
  match x with
  | .next t => ((t.port p).begun.head?).map (·.edge)
  | _ => none

/-- An edge 1 ps after the instant of media time 0 stands as 96000 of the unit ps / 96000, and not as the 0 ns that it is. -/
theorem qualifyingState_edge : nextEdge (exec (.fsyncActiveEdge 0 1 false 0 false) qualifyingState) 0 = some 96000 := by decide +kernel

/-- Refutes O24: the frame that an edge of a qualifying port begins stands with its edge in ps / 96000 (R173), which is not the edge in
whole ns that the statement names. -/
theorem not_framesAndClocksComplete : ¬ Obligations.FramesAndClocksComplete := by
  unfold Obligations.FramesAndClocksComplete
  rintro ⟨h, -⟩
  obtain ⟨-, hqualifies, -⟩ := h qualifyingState 0 (by decide) (by decide)
  obtain ⟨t, ht, -, hbegun⟩ := hqualifies 1 false 0 false (by decide +kernel) (.inr (by decide +kernel)) (.inl ⟨by decide +kernel,
    by decide +kernel⟩)
  have hedge := qualifyingState_edge
  rw [ht, show nextEdge (.next t) 0 = ((t.port 0).begun.head?).map (·.edge) from rfl, hbegun] at hedge
  revert hedge
  decide +kernel

end Sys2Proof.Machine
end

section
/-! PROOFS. Links, the pause watchdog and the rings: a flag once raised stays while frames leave (R199, R202, R206). -/

namespace Sys2Proof.Machine
open Sys2Proof

set_option Elab.async false

variable {s0 s a b : State} {M : List Part}

/-! ## Flags that nothing but a host's write clears -/

/-- Bit x of entry k, where it is set, stays so. -/
structure BitStays (k x : ℕ) (a b : State) : Prop where
  stays : bit (a.get k) x = true → bit (b.get k) x = true

theorem BitStays.refl (k x : ℕ) (a : State) : BitStays k x a a := ⟨id⟩

theorem BitStays.trans {k x : ℕ} {c : State} (h : BitStays k x a b) (g : BitStays k x b c) : BitStays k x a c := ⟨g.1 ∘ h.1⟩

theorem BitStays.of {i n c x : ℕ} {l : List Span} (h : Keeps l M a b) (hk : apart l i c = true := by decide) : BitStays (K i n c) x a b :=
  ⟨fun hx => by rwa [← State.g_eq, h.gOf hk, State.g_eq]⟩

theorem BitStays.step {i n c x : ℕ} {l : List Span} {d : State} (g : Keeps l M b d) (h : BitStays (K i n c) x a b)
    (hk : apart l i c = true := by decide) : BitStays (K i n c) x a d := h.trans (.of g hk)

theorem BitStays.each {k x : ℕ} {α : Type} {t : Tx s0} {f : Tx s0 → α → Tx s0} {l : List α}
    (h : ∀ u y, BitStays k x u.cur (f u y).cur) (g : BitStays k x a t.cur) : BitStays k x a (t.each l f).cur :=
  Tx.each_inv (P := fun u => BitStays k x a u) l g fun u y hu => hu.trans (h u y)

theorem BitStays.ite {k x : ℕ} {p : Prop} [Decidable p] {t u : Tx s0} (ht : BitStays k x a t.cur) (hu : BitStays k x a u.cur) :
    BitStays k x a (if p then t else u).cur := by
  split
  · exact ht
  · exact hu

/-- Hardware sets flags of an entry and clears none. -/
theorem Tx.flag_stays (t : Tx s0) {k x m i n c v : ℕ} {e : Entry} (he : entryAt k = some e) (ha : e.acc = .w1c) (hr : e.rng = .mask m)
    (hb : bit m x = true) : BitStays k x t.cur (t.flag i n c v).cur := by
  refine ⟨fun hx => ?_⟩
  by_cases hk : k = K i n c
  · subst hk
    rw [t.flag_get_same _ he]
    simp only [fit, ha, hr]
    show bit ((t.cur.get _ ||| v) &&& m) x = true
    rw [bit_eq_testBit] at hx hb ⊢
    rw [Nat.testBit_and, Nat.testBit_or, hx, hb]
    rfl
  · rw [t.flag_get_other _ hk]
    exact hx

/-- Bit x of the events of MAC n, 0x4800[n]:17, where it is set, stays so. -/
abbrev MacEvent (n x : ℕ) (a b : State) : Prop := BitStays (K 0x4800 n 0x17) x a b

section
variable {n x : ℕ} (hn : n < 6) (hx : x < 4)
include hn hx

theorem Tx.flag_event (t : Tx s0) (i m c v : ℕ) : MacEvent n x t.cur (t.flag i m c v).cur := by
  refine t.flag_stays (e := ev 0x17 .u8 .w1c 0 (.mask 0xF)) (m := 0xF) ?_ rfl rfl ?_
  · interval_cases n <;> rfl
  · interval_cases x <;> rfl

theorem Tx.copyLate_event (t : Tx s0) (m : ℕ) (c : MediaCopy) : MacEvent n x t.cur (t.copyLate m c).cur := by
  have hk : Keeps [.all 0x4800 [0x16], .all 0x4C00 [0x19, 0x1B]] [] t.cur
      (((t.tally 0x4C00 c.stream 0x19).tally 0x4800 m 0x16).flagBit 0x4C00 c.stream 0x1B 4).cur := .flagBit (.tally (.tally (.refl ..)))
  exact .step (Tx.copyEnd_keeps ..) (BitStays.trans (.of hk) (Tx.flag_event hn hx ..))

theorem Tx.macExpire_event (t : Tx s0) (m : ℕ) : MacEvent n x t.cur (t.macExpire m).cur := by
  unfold Tx.macExpire
  exact .ite (.refl ..) (.each (fun u k => u.copyLate_event hn hx m k) (.of (Tx.setMac_keeps ..)))

theorem Tx.macLoop_event (m f : ℕ) (t : Tx s0) : MacEvent n x t.cur (t.macLoop m f).cur := by
  induction f generalizing t with
  | zero => exact .refl ..
  | succ f ih =>
    have hdone : MacEvent n x t.cur (t.macDone m).cur := .of (Tx.macDone_keeps ..)
    dsimp only [Tx.macLoop]
    split
    · exact hdone
    · have hset := fun y => BitStays.step (Tx.setMac_keeps (t.macDone m) m y) hdone
      refine .ite hdone ?_
      split
      · exact (BitStays.ite ((hset _).trans (Tx.copyLate_event hn hx ..)) (.step (Tx.frameStart_keeps ..) (hset _))).trans (ih _)
      · exact (BitStays.step (Tx.frameStart_keeps ..) (hset _)).trans (ih _)

theorem Tx.macRun_event (t : Tx s0) (m : ℕ) : MacEvent n x t.cur (t.macRun m).cur := by
  unfold Tx.macRun
  exact .ite (.refl ..) ((BitStays.ite (Tx.macLoop_event hn hx ..) (.of (Tx.macDone_keeps ..))).trans (Tx.macExpire_event hn hx ..))

theorem Tx.egress_event (t : Tx s0) (m : ℕ) (e : Egress) : MacEvent n x t.cur (t.egress m e).cur := by
  unfold Tx.egress
  exact .ite (.refl ..) (BitStays.trans (.of (Tx.enqueue_keeps ..)) (Tx.macRun_event hn hx ..))

theorem Tx.txAsk_event (t : Tx s0) (i : ℕ) : MacEvent n x t.cur (t.txAsk i).cur := by
  unfold Tx.txAsk
  exact .each (fun u p => .ite (.refl ..) (u.egress_event hn hx ..)) (.refl ..)

theorem Tx.staleDrop_event (t : Tx s0) (i : ℕ) : MacEvent n x t.cur (t.staleDrop i).cur := by
  have hone : ∀ (u : Tx s0) (p : ℕ × ℕ) k, MacEvent n x u.cur
      ((((u.count 0x4C00 i 0x19 k).count 0x4800 p.1 0x16 k).flagBit 0x4C00 i 0x1B 4).flagBit 0x4800 p.1 0x17 3).cur := fun u p k => by
    have hk : Keeps [.all 0x4800 [0x16], .all 0x4C00 [0x19, 0x1B]] [] u.cur
        (((u.count 0x4C00 i 0x19 k).count 0x4800 p.1 0x16 k).flagBit 0x4C00 i 0x1B 4).cur := .flagBit (.count (.count (.refl ..)))
    exact BitStays.trans (.of hk) (Tx.flag_event hn hx ..)
  unfold Tx.staleDrop
  exact .ite (.refl ..) (.each (fun u p => hone u p _) (.step (Tx.freeCells_keeps ..) (.of (Tx.setTxs_keeps ..))))

theorem Tx.txStart_event (t : Tx s0) (i b : ℕ) : MacEvent n x t.cur (t.txStart i b).cur := by
  unfold Tx.txStart
  extract_lets u m fs y v s had src w z
  have hw : MacEvent n x t.cur w.cur := .step (Tx.setTxs_keeps ..) (.step (Tx.streamTake_keeps ..) (Tx.staleDrop_event hn hx ..))
  exact .step (Tx.showLoad_keeps ..) (.ite (.step (Tx.txTo_keeps ..) hw) ((BitStays.step (Tx.txTo_keeps ..) hw).trans
    (Tx.txAsk_event hn hx ..)))

theorem Tx.heldLook_event (t : Tx s0) : MacEvent n x t.cur t.heldLook.cur := by
  unfold Tx.heldLook
  exact .each (fun u i => .ite (u.txStart_event hn hx ..) (.refl ..)) (.each (fun u i => .ite (.of (Tx.rxStart_keeps ..)) (.refl ..))
    (.of (Tx.portsLook_keeps ..)))

theorem Tx.txCopies_event (t : Tx s0) (i : ℕ) (p : Packet) (d : Bytes) : MacEvent n x t.cur (t.txCopies i p d).cur := by
  unfold Tx.txCopies
  exact .ite (.of (Tx.freeCells_keeps ..)) (.each (fun u q => u.egress_event hn hx ..) (.of (Tx.setTxs_keeps ..)))

theorem Tx.launch_event (t : Tx s0) (i : ℕ) (same : Bool) : MacEvent n x t.cur (t.launch i same false).cur := by
  unfold Tx.launch
  dsimp only
  split
  · exact .refl ..
  · refine .ite (.step (Tx.txUnderrun_keeps ..) (.of (Tx.setTxs_keeps ..))) (.ite (.step (Tx.freeCells_keeps ..) (.of (Tx.setTxs_keeps
      ..))) ?_)
    rw [if_neg Bool.false_ne_true]
    exact BitStays.trans (.of (Tx.setTxs_keeps ..)) (Tx.txCopies_event hn hx ..)

theorem Tx.launchesBefore_event (i f : ℕ) (t : Tx s0) : MacEvent n x t.cur (t.launchesBefore i f).cur := by
  induction f generalizing t with
  | zero => exact .refl ..
  | succ f ih =>
    unfold Tx.launchesBefore
    split
    · exact (t.launch_event hn hx ..).trans (ih _)
    · exact .refl ..

theorem Tx.txEnd_event (t : Tx s0) (i : ℕ) (held : Bool) : MacEvent n x t.cur (t.txEnd i held).cur := by
  have hflush : MacEvent n x t.cur (t.txFlush i held).cur := by
    unfold Tx.txFlush
    extract_lets u v y stays gone w
    have hv : MacEvent n x t.cur v.cur := .ite ((t.launchesBefore_event hn hx ..).trans (Tx.launch_event hn hx ..)) (.refl ..)
    have hw : MacEvent n x t.cur w.cur := .step (l := [.all 0x4900 [0x02, 0x04, 0x0A], .ctr 137 137]) (M := [.net]) (.count (.step
      (Tx.freeCells_keeps ..) (.refl ..))) hv
    exact .ite (.step (Tx.setTxs_keeps ..) hw) (.step (Tx.setTxs_keeps ..) hw)
  unfold Tx.txEnd
  exact .step (Tx.streamDrop_keeps ..) hflush

theorem Tx.laneLook_event (t : Tx s0) : MacEvent n x t.cur t.laneLook.cur := by
  unfold Tx.laneLook
  exact .step (Tx.showLoad_keeps ..) (BitStays.trans (.each (fun u i => .ite (.refl ..) (.step (Tx.txTo_keeps ..) (u.txEnd_event hn hx
    ..))) (.each (fun u i => .ite (.refl ..) (.step (Tx.rxTo_keeps ..) (.of (Tx.rxEnd_keeps ..)))) (.refl ..))) (Tx.heldLook_event hn hx
    _))

end

/-! ## Links -/

theorem speeds_lt {n speed : ℕ} (h : (s.speeds n).contains speed = true) : speed < 2 ^ 16 := by
  unfold State.speeds at h
  split at h <;> (simp only [List.contains_eq_mem, List.mem_cons, List.not_mem_nil, or_false, decide_eq_true_eq] at h; omega)

theorem linkUp_shows (hc : s.clocked = true) {n speed : ℕ} (hn : n < 6) (hon : s.on 0x4800 n 0x01 = true)
    (hdown : s.g 0x4800 n 0x07 = 0) (hspeed : (s.speeds n).contains speed = true) :
    ∃ t, exec (.linkUp n speed) s = .next t ∧ t.g 0x4800 n 0x07 = 1 ∧ t.g 0x4800 n 0x08 = speed := by
  change ∃ t, execLinkUp n speed s = .next t ∧ _
  unfold execLinkUp
  rw [hon, hdown, hspeed]
  refine run_to hc _ (if_neg (by decide)) fun t ht => ?_
  have h7 : (((Tx.start s).w 0x4800 n 0x07 1).w 0x4800 n 0x08 speed).cur.g 0x4800 n 0x07 = 1 := by
    have hk : Keeps [.all 0x4800 [0x08]] [] ((Tx.start s).w 0x4800 n 0x07 1).cur
        (((Tx.start s).w 0x4800 n 0x07 1).w 0x4800 n 0x08 speed).cur := .w (.refl ..)
    exact hk.gOf.trans (Tx.w_g_of _ (entryAt_ent hn rfl) (by decide))
  have h8 : (((Tx.start s).w 0x4800 n 0x07 1).w 0x4800 n 0x08 speed).cur.g 0x4800 n 0x08 = speed :=
    Tx.w_g_of _ (entryAt_ent hn rfl) (fit_of_lt (by decide) (speeds_lt hspeed))
  generalize ((Tx.start s).w 0x4800 n 0x07 1).w 0x4800 n 0x08 speed = u at ht h7 h8
  have hrest : Keeps [⟨0, 0x47FF, none, []⟩, .all 0x4800 [0x09, 0x0B, 0x16, 0x17], ⟨0x4801, 0x10000, none, []⟩] [.outs, .maps, .serial,
      .net, .time] u.cur (((((u.setMac n { s.macSt n with busyUntil := s.clock }).macMsg n 1).arpGratuitous n).each
        ((List.range 256).filter (fun i => s.txg i 0x14 == 1)) (fun t i => t.txAsk i)).laneLook).cur :=
    .step (Tx.laneLook_keeps ..) (.each (fun _ _ => .step (Tx.txAsk_keeps ..) (.refl ..)) (.step (Tx.arpGratuitous_keeps ..) (.step
      (Tx.macMsg_keeps ..) (.step (Tx.setMac_keeps ..) (.refl ..)))))
  exact ⟨by rw [ht.seenG, hrest.gOf, h7], by rw [ht.seenG, hrest.gOf, h8]⟩

theorem linkDown_shows (hc : s.clocked = true) {n : ℕ} (hn : n < 6) (hup : s.g 0x4800 n 0x07 = 1) :
    ∃ t, exec (.linkDown n) s = .next t ∧ t.g 0x4800 n 0x07 = 0 ∧ t.g 0x4800 n 0x08 = 0 ∧
      t.g 0x4800 n 0x15 = (s.g 0x4800 n 0x15 + 1) % 2 ^ 32 ∧ bit (t.g 0x4800 n 0x17) 1 = true := by
  change ∃ t, execLinkDown n s = .next t ∧ _
  unfold execLinkDown
  rw [hup]
  refine run_to hc _ (if_neg (by decide)) fun t ht => ?_
  have hend : ∀ u : Tx s, MacEvent n 1 u.cur ((u.macMsg n 0).laneLook.ptpLinkDown n).cur ∧ Keeps [⟨0, 0x47FF, none, []⟩, .all 0x4800
      [0x09, 0x0B, 0x16, 0x17], ⟨0x4801, 0x10000, none, []⟩] [.outs, .maps, .serial, .net, .time] u.cur
      ((u.macMsg n 0).laneLook.ptpLinkDown n).cur := fun u =>
    ⟨.step (Tx.ptpLinkDown_keeps ..) (BitStays.trans (.of (Tx.macMsg_keeps ..)) (Tx.laneLook_event hn (by decide) _)),
      .step (Tx.ptpLinkDown_keeps ..) (.step (Tx.laneLook_keeps ..) (.step (Tx.macMsg_keeps ..) (.refl ..)))⟩
  unfold Tx.linkDown at ht
  rw [if_neg (by rw [show (Tx.start s).g 0x4800 n 0x07 = 1 from hup]; decide)] at ht
  dsimp only at ht
  have hcut := (Tx.start s).macCut_keeps n
  generalize (Tx.start s).macCut n = u at ht hcut
  have h7 : ((u.w 0x4800 n 0x07 0).w 0x4800 n 0x08 0).cur.g 0x4800 n 0x07 = 0 := by
    have hk : Keeps [.all 0x4800 [0x08]] [] (u.w 0x4800 n 0x07 0).cur ((u.w 0x4800 n 0x07 0).w 0x4800 n 0x08 0).cur := .w (.refl ..)
    exact hk.gOf.trans (Tx.w_g_of _ (entryAt_ent hn rfl) (by decide))
  have h8 : ((u.w 0x4800 n 0x07 0).w 0x4800 n 0x08 0).cur.g 0x4800 n 0x08 = 0 := Tx.w_g_of _ (entryAt_ent hn rfl) (by decide)
  have h15 : ((u.w 0x4800 n 0x07 0).w 0x4800 n 0x08 0).cur.g 0x4800 n 0x15 = s.g 0x4800 n 0x15 := by
    have hk : Keeps [.all 0x4800 [0x07, 0x08]] [] u.cur ((u.w 0x4800 n 0x07 0).w 0x4800 n 0x08 0).cur := .w (.w (.refl ..))
    exact hk.gOf.trans hcut.gOf
  generalize (u.w 0x4800 n 0x07 0).w 0x4800 n 0x08 0 = v at ht h7 h8 h15
  have hcount : (v.tally 0x4800 n 0x15).cur.g 0x4800 n 0x15 = (s.g 0x4800 n 0x15 + 1) % 2 ^ 32 := by
    rw [Tx.tally_g v (entryAt_ent hn rfl) (by decide), h15]
    rfl
  have hk : Keeps [.all 0x4800 [0x15], .ctr 0 0xFFF] [] v.cur (v.tally 0x4800 n 0x15).cur := .tally (.refl ..)
  rw [← hk.gOf] at h7 h8
  generalize v.tally 0x4800 n 0x15 = w at ht h7 h8 hcount
  have hflag := w.flagBit_bit (i := 0x4800) (n := n) (b := 0x17) (v := 1) (entryAt_ent hn rfl) rfl rfl rfl
  have hraise : Keeps [.all 0x4800 [0x17]] [] w.cur (w.flagBit 0x4800 n 0x17 1).cur := .flagBit (.refl ..)
  rw [← hraise.gOf] at h7 h8 hcount
  generalize w.flagBit 0x4800 n 0x17 1 = z at ht h7 h8 hcount hflag
  obtain ⟨hbit, hrest⟩ := hend z
  exact ⟨by rw [ht.seenG, hrest.gOf, h7], by rw [ht.seenG, hrest.gOf, h8], by rw [ht.seenG, hrest.gOf, hcount],
    by rw [ht.seenG]; exact hbit.stays hflag⟩

theorem pauseWatchdog_ends (hc : s.clocked = true) {n from_ : ℕ} (hn : n < 6) (hp : (s.macSt n).pauseFrom = some from_)
    (hu : from_ + usC (s.g 0x4800 n 0x06) ≤ (s.macSt n).pauseUntil) (hdue : from_ + usC (s.g 0x4800 n 0x06) ≤ s.clock) :
    ∃ t, exec (.pauseWatchdog n) s = .next t ∧
      t.macSt n = { s.macSt n with pauseUntil := s.clock, pauseFrom := none,
                                   ignoreUntil := s.clock + 10 * usC (s.g 0x4800 n 0x06) } ∧
      t.g 0x4800 n 0x14 = (s.g 0x4800 n 0x14 + 1) % 2 ^ 32 ∧ bit (t.g 0x4800 n 0x17) 2 = true := by
  change ∃ t, execPauseWatchdog n s = .next t ∧ _
  unfold execPauseWatchdog
  dsimp only
  rw [hp]
  refine run_to hc ((((Tx.start s).setMac n { s.macSt n with
    pauseUntil := s.clock, pauseFrom := none, ignoreUntil := s.clock + 10 * usC (s.g 0x4800 n 0x06) }).tally 0x4800 n 0x14).flagBit
      0x4800 n 0x17 2 |>.macMsg n 2) (if_neg ?_) fun t ht => ?_
  · rw [decide_eq_false (Nat.not_lt.mpr hu), decide_eq_false (Nat.not_lt.mpr hdue)]
    decide
  have hset := Tx.setMac_keeps (Tx.start s) n { s.macSt n with
    pauseUntil := s.clock, pauseFrom := none, ignoreUntil := s.clock + 10 * usC (s.g 0x4800 n 0x06) }
  have hmac := Tx.setMac_macSt (Tx.start s) n { s.macSt n with
    pauseUntil := s.clock, pauseFrom := none, ignoreUntil := s.clock + 10 * usC (s.g 0x4800 n 0x06) } n
  rw [if_pos rfl] at hmac
  generalize (Tx.start s).setMac n _ = u at ht hset hmac
  have hcount : (u.tally 0x4800 n 0x14).cur.g 0x4800 n 0x14 = (s.g 0x4800 n 0x14 + 1) % 2 ^ 32 := by
    rw [Tx.tally_g u (entryAt_ent hn rfl) (by decide), hset.gOf]
    rfl
  have hk : Keeps [.all 0x4800 [0x14], .ctr 0 0xFFF] [] u.cur (u.tally 0x4800 n 0x14).cur := .tally (.refl ..)
  rw [← State.macSt_congr (hk.net (by decide))] at hmac
  generalize u.tally 0x4800 n 0x14 = w at ht hcount hmac
  have hflag := w.flagBit_bit (i := 0x4800) (n := n) (b := 0x17) (v := 2) (entryAt_ent hn rfl) rfl rfl rfl
  have hraise : Keeps [.all 0x4800 [0x17]] [] w.cur (w.flagBit 0x4800 n 0x17 2).cur := .flagBit (.refl ..)
  rw [← hraise.gOf] at hcount
  rw [← State.macSt_congr (hraise.net (by decide))] at hmac
  generalize w.flagBit 0x4800 n 0x17 2 = z at ht hcount hflag hmac
  have hmsg := z.macMsg_keeps n 2
  refine ⟨?_, by rw [ht.seenG, hmsg.gOf, hcount], by rw [ht.seenG, hmsg.gOf]; exact hflag⟩
  rw [State.macSt_congr (ht.net (by simp)), State.macSt_congr (hmsg.net (by decide)), hmac]

/-! ## Rings -/

theorem ringRule_disables (t : Tx s0) {h n : ℕ} {d : Bytes} (hd : leNat d = 0) (hu : n = 1 → t.cur.overUdp h = false)
    (ho : t.cur.on 0x4E00 n 0x01 = true) : ringRule h n d t = t.w 0x4E00 n 0x01 0 := by
  unfold ringRule
  rw [hd, show t.on 0x4E00 n 0x01 = true from ho, if_neg, if_neg (by decide), if_neg (by decide)]
  intro hboth
  simp only [Bool.and_eq_true, beq_iff_eq] at hboth
  rw [hu hboth.1.2] at hboth
  exact absurd hboth.2 (by decide)

theorem ringDisable_disables (hc : s.clocked = true) {h n : ℕ} {d : Bytes} (hn : n < 4) (hk : s.writeCheck h (opOf 0x4E00 n 0x01 d) = stOK)
    (hd : leNat d = 0) (hu : n = 1 → s.overUdp h = false) (ho : s.on 0x4E00 n 0x01 = true) :
    ∃ t, exec (.ringDisable h n d) s = .next t ∧ t.g 0x4E00 n 0x01 = 0 ∧ t.result = ⟨some stOK, []⟩ ∧
      Kept (· = K 0x4E00 n 0x01) [.result, .outs] s t := by
  change ∃ t, execRingDisable h n d s = .next t ∧ _
  unfold execRingDisable
  refine run_to hc (((Tx.start s).status stOK).w 0x4E00 n 0x01 0) ((guarded_start hk _).trans (ringRule_disables _ hd hu ho))
    fun t ht => ⟨?_, by rw [ht.result (by simp)]; rfl, Kept.of_run (by simp) (by simp) (.wKey (.status (.refl ..)) rfl) ht⟩
  rw [ht.seenG]
  exact Tx.w_g_of _ (entryAt_ent hn rfl) (by decide)

theorem ringDisable_refused (hc : s.clocked = true) {h n : ℕ} {d : Bytes} (hk : s.writeCheck h (opOf 0x4E00 n 0x01 d) = stOK)
    (hd : leNat d = 0) (hn : n = 1) (hu : s.overUdp h = true) :
    ∃ t, exec (.ringDisable h n d) s = .next t ∧ t.result = ⟨some stState, []⟩ ∧ Kept (fun _ => False) [.result, .outs] s t := by
  change ∃ t, execRingDisable h n d s = .next t ∧ _
  unfold execRingDisable
  have hrule : ringRule h n d ((Tx.start s).status stOK) = ((Tx.start s).status stOK).status stState := by
    unfold ringRule
    rw [hd, hn]
    exact if_pos (by rw [show ((Tx.start s).status stOK).cur.overUdp h = true from hu]; decide)
  exact run_to hc (((Tx.start s).status stOK).status stState) ((guarded_start hk _).trans hrule)
    fun t ht => ⟨by rw [ht.result (by simp)]; rfl, Kept.of_run (by simp) (by simp) (.status (.status (.refl ..))) ht⟩

theorem ringEnable_enables (hc : s.clocked = true) {h n : ℕ} {d : Bytes} (hn : n < 4) (hk : s.writeCheck h (opOf 0x4E00 n 0x01 d) = stOK)
    (hd : leNat d = 1) (ho : s.on 0x4E00 n 0x01 = false) :
    ∃ t, exec (.ringEnable h n d) s = .next t ∧ t.g 0x4E00 n 0x01 = 1 ∧ t.g 0x4E00 n 0x03 = 0 ∧
      mget [] t.net.rings n = [] ∧ t.result = ⟨some stOK, []⟩ ∧
      Kept (fun k => k = K 0x4E00 n 0x01 ∨ k = K 0x4E00 n 0x03) [.result, .outs, .net] s t := by
  change ∃ t, execRingEnable h n d s = .next t ∧ _
  unfold execRingEnable
  have hrule : ringRule h n d ((Tx.start s).status stOK) = ((((Tx.start s).status stOK).setNet { s.net with
      rings := mputD [] n [] s.net.rings, heads := mputD 0 n 0 s.net.heads }).w 0x4E00 n 0x03 0).w 0x4E00 n 0x01 1 := by
    unfold ringRule
    rw [hd, show ((Tx.start s).status stOK).on 0x4E00 n 0x01 = false from ho]
    rfl
  refine run_to hc _ ((guarded_start hk _).trans hrule) fun t ht => ?_
  have hkept := Kept.of_run (E := fun k => k = K 0x4E00 n 0x01 ∨ k = K 0x4E00 n 0x03) (M := [.result, .outs, .net]) (by simp) (by simp)
    (.wKey (.wKey (.setNet (.status (.refl ..))) (.inr rfl)) (.inl rfl)) ht
  have hres := ht.result (by simp)
  have hring : mget [] ((Tx.start s).status stOK |>.setNet { s.net with
      rings := mputD [] n [] s.net.rings, heads := mputD 0 n 0 s.net.heads }).cur.net.rings n = [] := by
    rw [Tx.setNet_net]
    exact (mget_mputD [] n [] s.net.rings n).trans (if_pos rfl)
  generalize ((Tx.start s).status stOK).setNet _ = u at ht hring
  have hw : Keeps [.all 0x4E00 [0x01]] [] (u.w 0x4E00 n 0x03 0).cur ((u.w 0x4E00 n 0x03 0).w 0x4E00 n 0x01 1).cur := .w (.refl ..)
  have hboth : Keeps [.all 0x4E00 [0x01, 0x03]] [] u.cur ((u.w 0x4E00 n 0x03 0).w 0x4E00 n 0x01 1).cur := .w (.w (.refl ..))
  refine ⟨?_, ?_, ?_, hres.trans rfl, hkept⟩
  · rw [ht.seenG]
    exact Tx.w_g_of _ (entryAt_ent hn rfl) (by decide)
  · rw [ht.seenG, hw.gOf]
    exact Tx.w_g_of _ (entryAt_ent hn rfl) (by decide)
  · rw [ht.net (by simp), hboth.net (by decide), hring]

/-- Settles O25, clause by clause: links, the pause watchdog and the rings. -/
theorem linksAndRingsComplete : Obligations.LinksAndRingsComplete := by
  unfold Obligations.LinksAndRingsComplete
  refine ⟨fun s n hc hn => ⟨fun speed hon hdown hspeed => linkUp_shows hc hn hon hdown hspeed, linkDown_shows hc hn,
    fun from_ hp hu hdue => pauseWatchdog_ends hc hn hp hu hdue⟩, fun s h n d hc hn hk => ⟨fun hd hu ho =>
    ringDisable_disables hc hn hk hd hu ho, fun hd h1 hu => ringDisable_refused hc hk hd h1 hu, fun hd ho => ringEnable_enables hc hn hk hd
    ho⟩⟩

end Sys2Proof.Machine
end

section
/-! PROOFS. Frames received, and media packets queued and launched (R200, R201, R204, R208 to R211, R218, R219). -/

namespace Sys2Proof.Machine
open Sys2Proof

set_option Elab.async false

variable {s0 s a b : State} {M : List Part}

/-! ## Frames that are dropped -/

theorem Tx.frameDrop_shows (t : Tx s0) {n sub : ℕ} {e : Entry} (hn : n < 6) (he : entryAt (K 0x4800 n sub) = some e)
    (hw : ∀ v, fit e v = v % 2 ^ 32) (hs : apart [.all 0x4800 [0x17]] 0x4800 sub = true) :
    (t.frameDrop n sub).cur.g 0x4800 n sub = (t.cur.g 0x4800 n sub + 1) % 2 ^ 32 ∧
      bit ((t.frameDrop n sub).cur.g 0x4800 n 0x17) 0 = true ∧ (t.frameDrop n sub).cur.net = t.cur.net := by
  have hflag : Keeps [.all 0x4800 [0x17]] [] (t.tally 0x4800 n sub).cur (t.frameDrop n sub).cur := .flagBit (.refl ..)
  refine ⟨?_, (t.tally 0x4800 n sub).flagBit_bit (entryAt_ent hn rfl) rfl rfl rfl, (hflag.net (by decide)).trans (Tx.tally_net ..)⟩
  rw [hflag.gOf hs, t.tally_g he (by decide), hw]

theorem at_g (clock i n c : ℕ) : ((Tx.start s).at_ clock).cur.g i n c = s.g i n c := rfl

theorem at_on (clock i n c : ℕ) : ((Tx.start s).at_ clock).cur.on i n c = s.on i n c := rfl

/-- A frame whose last four bytes are the checksum of the others. -/
def CrcOk (f : Bytes) : Prop := 4 ≤ f.length ∧ leNat (f.drop (f.length - 4)) = crc32 (f.take (f.length - 4))

theorem crcOk_iff (f : Bytes) :
    (false || decide (f.length < 4) || leNat (f.drop (f.length - 4)) != crc32 (f.take (f.length - 4))) = true ↔ ¬ CrcOk f := by
  unfold CrcOk
  simp only [Bool.false_or, Bool.or_eq_true, decide_eq_true_eq, bne_iff_ne, ne_eq, not_and_or, Nat.not_le]

/-- A command whose effect is a frame dropped counts it and leaves the network's state. -/
theorem run_drops (hc : s.clocked = true) {n sub clock : ℕ} {e : Entry} (hn : n < 6) (he : entryAt (K 0x4800 n sub) = some e)
    (hw : ∀ v, fit e v = v % 2 ^ 32) (hs : apart [.all 0x4800 [0x17]] 0x4800 sub = true) {F : Tx s → Tx s}
    (hF : F (Tx.start s) = ((Tx.start s).at_ clock).frameDrop n sub) : ∃ t, run s F = .next t ∧
      t.g 0x4800 n sub = (s.g 0x4800 n sub + 1) % 2 ^ 32 ∧ bit (t.g 0x4800 n 0x17) 0 = true ∧ t.net = s.net := by
  obtain ⟨h1, h2, h3⟩ := ((Tx.start s).at_ clock).frameDrop_shows hn he hw hs
  exact run_to hc _ hF fun t ht => ⟨by rw [ht.seenG rfl, h1, at_g], by rw [ht.seenG, h2], by rw [ht.net (by simp), h3]; rfl⟩

section
variable {n clock : ℕ} {f : Bytes} (hc : s.clocked = true) (hn : n < 6) (hon : s.on 0x4800 n 0x01 = true) (hup : s.g 0x4800 n 0x07 = 1)
include hc hon hup

theorem receiveFrame_awake : exec (.receiveFrame n f false clock) s = execReceiveFrame n f false clock s ∧
    ¬ (s.power.standby && !s.power.supplyDown) = true ∧
    ¬ (!((Tx.start s).at_ clock).cur.on 0x4800 n 0x01 || ((Tx.start s).at_ clock).cur.g 0x4800 n 0x07 == 0) = true := by
  refine ⟨rfl, ?_, ?_⟩
  · simp only [State.clocked, Bool.and_eq_true, Bool.not_eq_true'] at hc
    rw [hc.1]
    simp
  · rw [at_on, at_g, hon, hup]
    decide

include hn

theorem receiveFrame_badFcs (hcrc : ¬ CrcOk f) : ∃ t, exec (.receiveFrame n f false clock) s = .next t ∧
    t.g 0x4800 n 0x0C = (s.g 0x4800 n 0x0C + 1) % 2 ^ 32 ∧ bit (t.g 0x4800 n 0x17) 0 = true ∧ t.net = s.net := by
  obtain ⟨hx, hs, hl⟩ := receiveFrame_awake (n := n) (clock := clock) (f := f) hc hon hup
  rw [hx]
  unfold execReceiveFrame
  rw [if_neg hs]
  exact run_drops hc hn (entryAt_ent hn rfl) (fun _ => rfl) rfl ((if_neg hl).trans (if_pos ((crcOk_iff f).mpr hcrc)))

theorem receiveFrame_runt (hcrc : CrcOk f) (hlen : f.length < 64) : ∃ t, exec (.receiveFrame n f false clock) s = .next t ∧
    t.g 0x4800 n 0x0D = (s.g 0x4800 n 0x0D + 1) % 2 ^ 32 ∧ bit (t.g 0x4800 n 0x17) 0 = true ∧ t.net = s.net := by
  obtain ⟨hx, hs, hl⟩ := receiveFrame_awake (n := n) (clock := clock) (f := f) hc hon hup
  rw [hx]
  unfold execReceiveFrame
  rw [if_neg hs]
  exact run_drops hc hn (entryAt_ent hn rfl) (fun _ => rfl) rfl ((if_neg hl).trans ((if_neg fun h => (crcOk_iff f).mp h hcrc).trans
    (if_pos hlen)))

theorem receiveFrame_giant (hcrc : CrcOk f) (hlen : (if n < 4 then 2048 else 9216) < f.length) :
    ∃ t, exec (.receiveFrame n f false clock) s = .next t ∧
    t.g 0x4800 n 0x0E = (s.g 0x4800 n 0x0E + 1) % 2 ^ 32 ∧ bit (t.g 0x4800 n 0x17) 0 = true ∧ t.net = s.net := by
  obtain ⟨hx, hs, hl⟩ := receiveFrame_awake (n := n) (clock := clock) (f := f) hc hon hup
  have hlong : ¬ f.length < 64 := by
    split at hlen <;> omega
  rw [hx]
  unfold execReceiveFrame
  rw [if_neg hs]
  exact run_drops hc hn (entryAt_ent hn rfl) (fun _ => rfl) rfl ((if_neg hl).trans ((if_neg fun h => (crcOk_iff f).mp h hcrc).trans
    ((if_neg hlong).trans (if_pos hlen))))

end

/-! ## A frame that is accepted -/

/-- The frame that a ring takes next. -/
def State.nextRingFrame (a : State) (r m ns : ℕ) (f : Bytes) : RingFrame :=
  ⟨m, ns, f, mget 0 a.net.heads r, (mget 0 a.net.heads r + ceilDiv f.length 2048 - 1) % max 1 (a.g 0x4E00 r 0x02), ceilDiv f.length 2048⟩

/-- A frame that finds its buffers free joins its ring. -/
theorem Tx.toRing_joins (t : Tx s0) {r m ns : ℕ} {f : Bytes} (hr : r < 4) (ho : t.cur.on 0x4E00 r 0x01 = true)
    (hfit : t.cur.g 0x4E00 r 0x03 + ceilDiv f.length 2048 ≤ t.cur.g 0x4E00 r 0x02) :
    mget [] (t.toRing r m ns f).2.cur.net.rings r = mget [] t.cur.net.rings r ++ [t.cur.nextRingFrame r m ns f] ∧
      (t.toRing r m ns f).2.cur.g 0x4E00 r 0x03 = (t.cur.g 0x4E00 r 0x03 + ceilDiv f.length 2048) % 2 ^ 16 ∧
      Keeps [.all 0x4E00 [0x03, 0x04, 0x06]] [.net] t.cur (t.toRing r m ns f).2.cur := by
  unfold Tx.toRing
  extract_lets n used fs size first x src u
  have hle : ¬ t.g 0x4E00 r 0x02 < used + n := Nat.not_lt.mpr hfit
  rw [if_neg (by
    rw [show t.on 0x4E00 r 0x01 = true from ho, decide_eq_false hle]
    decide)]
  have hset : Keeps [] [.net] t.cur u.cur := .setNet (.refl ..)
  have hring : mget [] u.cur.net.rings r = fs ++ [x] := (mget_mputD [] r (fs ++ [x]) t.cur.net.rings r).trans (if_pos rfl)
  clear_value u
  have hw : (u.w 0x4E00 r 0x03 (used + n)).cur.g 0x4E00 r 0x03 = (used + n) % 2 ^ 16 :=
    Tx.w_get_same (i := 0x4E00) (b := 0x03) u (used + n) (entryAt_ent hr rfl)
  have hrest : Keeps [.all 0x4E00 [0x04, 0x06]] [] (u.w 0x4E00 r 0x03 (used + n)).cur (((u.w 0x4E00 r 0x03 (used + n)).inc 0x4E00 r 0x04
      1).peak 0x4E00 r 0x06 (used + n)).cur := .peak (.inc (.refl ..))
  have hnet : Keeps [.all 0x4E00 [0x03, 0x04, 0x06]] [] u.cur (((u.w 0x4E00 r 0x03 (used + n)).inc 0x4E00 r 0x04 1).peak 0x4E00 r 0x06
      (used + n)).cur := .peak (.inc (.w (.refl ..)))
  refine ⟨?_, by rw [hrest.gOf, hw]; rfl, .peak (.inc (.w (hset.widen (by decide) (by decide))))⟩
  rw [hnet.net (by decide), hring]
  rfl

/-- Nothing is taken off ring 0 while a message that the port supports stands in front. -/
theorem Tx.ptpDrain_supported (t : Tx s0) (h : ∀ x l, mget [] t.cur.net.rings 0 = x :: l → ptpSupported (ptpOf x.bytes) = true) :
    t.ptpDrain = t := by
  unfold Tx.ptpDrain
  split
  · rfl
  unfold Tx.ptpDrainGo
  split
  · rename_i f l hl
    exact if_pos (h f l hl)
  · rfl

theorem Tx.accept_shows (t : Tx s0) {n : ℕ} (hn : n < 6) : (t.accept n).cur.g 0x4800 n 0x0A = (t.cur.g 0x4800 n 0x0A + 1) % 2 ^ 32 ∧
    (t.accept n).cur.g 0x5010 n 0x03 = (t.cur.g 0x5010 n 0x03 + 1) % 2 ^ 32 ∧
    Keeps [.all 0x4800 [0x0A], .all 0x5010 [0x03], .ctr 0 0xFFF] [] t.cur (t.accept n).cur := by
  have hk : Keeps [.all 0x4800 [0x0A], .ctr 0 0xFFF] [] t.cur (t.tally 0x4800 n 0x0A).cur := .tally (.refl ..)
  have hi : Keeps [.all 0x5010 [0x03]] [] (t.tally 0x4800 n 0x0A).cur (t.accept n).cur := .inc (.refl ..)
  refine ⟨?_, ?_, .inc (.tally (.refl ..))⟩
  · rw [hi.gOf, t.tally_g (entryAt_ent hn rfl) (by decide)]
    rfl
  · unfold Tx.accept
    rw [State.g_eq, Tx.inc_eq, Tx.w_get_same _ _ (entryAt_ent (i := 0x5010) hn rfl), ← State.g_eq, hk.gOf]
    rfl

section
variable {n clock : ℕ} {f : Bytes} (hc : s.clocked = true) (hn : n < 6) (hon : s.on 0x4800 n 0x01 = true) (hup : s.g 0x4800 n 0x07 = 1)
include hc hn hon hup

theorem receiveFrame_ptp (hcrc : CrcOk f) (hlow : 64 ≤ f.length) (hhigh : f.length ≤ (if n < 4 then 2048 else 9216))
    (hdst : f.take 6 = s.macAddr n ∨ f.take 6 = macBroadcast ∨ (s.filter n).contains (f.take 6) = true)
    (hptp : fieldBE f 12 2 = 0x88F7) (hring : s.on 0x4E00 0 0x01 = true)
    (hfit : s.g 0x4E00 0 0x03 + ceilDiv f.length 2048 ≤ s.g 0x4E00 0 0x02)
    (hsup : ∀ g, ((mget [] s.net.rings 0).map (·.bytes) ++ [f]).head? = some g → ptpSupported (ptpOf g) = true) :
    ∃ t, exec (.receiveFrame n f false clock) s = .next t ∧ t.clock = max s.clock clock ∧
      t.g 0x4800 n 0x0A = (s.g 0x4800 n 0x0A + 1) % 2 ^ 32 ∧
      mget [] t.net.rings 0 = mget [] s.net.rings 0 ++
        [⟨n, s.stampNs n false (max s.clock clock), f, mget 0 s.net.heads 0,
          (mget 0 s.net.heads 0 + ceilDiv f.length 2048 - 1) % max 1 (s.g 0x4E00 0 0x02), ceilDiv f.length 2048⟩] ∧
      t.g 0x5010 n 0x03 = (s.g 0x5010 n 0x03 + 1) % 2 ^ 32 ∧
      t.g 0x4E00 0 0x03 = (s.g 0x4E00 0 0x03 + ceilDiv f.length 2048) % 2 ^ 16 := by
  obtain ⟨hx, hs, hl⟩ := receiveFrame_awake (n := n) (clock := clock) (f := f) hc hon hup
  rw [hx]
  unfold execReceiveFrame
  rw [if_neg hs]
  obtain ⟨ha, h5, hacc⟩ := ((Tx.start s).at_ clock).accept_shows hn
  have hnow : (((Tx.start s).at_ clock).accept n).cur.clock = max s.clock clock := (hacc.clock (by decide)).2
  have hnet : (((Tx.start s).at_ clock).accept n).cur.net = s.net := hacc.net (by decide)
  have hon' : (((Tx.start s).at_ clock).accept n).cur.on 0x4E00 0 0x01 = true := by rw [hacc.onOf, at_on, hring]
  have h2 : (((Tx.start s).at_ clock).accept n).cur.g 0x4E00 0 0x02 = s.g 0x4E00 0 0x02 := by rw [hacc.gOf, at_g]
  have h3 : (((Tx.start s).at_ clock).accept n).cur.g 0x4E00 0 0x03 = s.g 0x4E00 0 0x03 := by rw [hacc.gOf, at_g]
  obtain ⟨hjoin, hused, hk⟩ := (((Tx.start s).at_ clock).accept n).toRing_joins (r := 0) (m := n)
    (ns := s.stampNs n false (max s.clock clock)) (f := f) (by decide) hon' (by rw [h3, h2]; exact hfit)
  rw [hnet] at hjoin
  refine run_to hc ((((Tx.start s).at_ clock).accept n).toRing 0 n (s.stampNs n false (max s.clock clock)) f).2 ?_ fun t ht => ?_
  · have hmine : ¬ (f.take 6 != s.macAddr n && f.take 6 != macBroadcast && !(s.filter n).contains (f.take 6)) = true := fun h => by
      simp only [Bool.and_eq_true, bne_iff_ne, Bool.not_eq_true'] at h
      rcases hdst with h1 | h1 | h1
      · exact h.1.1 h1
      · exact h.1.2 h1
      · rw [h.2] at h1
        cases h1
    refine (if_neg hl).trans ((if_neg fun h => (crcOk_iff f).mp h hcrc).trans ((if_neg (Nat.not_lt.mpr hlow)).trans ((if_neg
      (Nat.not_lt.mpr hhigh)).trans ((if_neg hmine).trans ?_))))
    rw [hptp]
    refine (if_neg (by simp)).trans ((if_neg (by simp)).trans ((if_neg (by simp)).trans ((if_neg (by simp)).trans ((if_pos
      (by simp)).trans (Tx.ptpDrain_supported _ fun x l hx => hsup _ ?_)))))
    have hfront := hjoin.symm.trans hx
    cases hold : mget [] s.net.rings 0 with
    | nil =>
      rw [hold] at hfront
      cases hfront
      rfl
    | cons y l' =>
      rw [hold] at hfront
      cases hfront
      rfl
  · rw [ht.seenG, ht.seenG, ht.seenG, ht.net (by simp), (ht.clock (by simp)).2, (hk.clock (by decide)).2, hnow, hk.gOf, hk.gOf, ha, h5,
      hused, hjoin, h3]
    unfold State.nextRingFrame
    rw [hnet, h2]
    exact ⟨rfl, rfl, rfl, rfl, rfl⟩

end

/-! ## Packets -/

theorem Tx.setTxs_tx (t : Tx s0) (i : ℕ) (x : TxStream) (j : ℕ) : (t.setTxs i x).cur.tx j = if j = i then x else t.cur.tx j :=
  mget_mputD ..

theorem State.tx_congr (h : b.net = a.net) (i : ℕ) : b.tx i = a.tx i := by
  unfold State.tx
  rw [h]

theorem packetPush_queues (hc : s.clocked = true) {n x : ℕ} {same : Bool} (hn : n < 256) (hx : (s.tx n).nextX = some x) (hk : s.txN n ≠ 0)
    (hbuf : ∃ e ∈ (s.tx n).buf, x + s.txN n ≤ e.1 + 1) (hmay : s.mayPush n = true) (hq : (s.tx n).queue.length + b2n same < 4)
    (hcells : s.g 0x4900 0 0x04 + ceilDiv (s.frameLen (s.txg n 0x02) (s.txChans n * s.txN n * s.txB n)) 128 ≤ 4096) :
    ∃ t, exec (.packetPush n same) s = .next t ∧
      t.tx n = { s.tx n with
        buf := (s.tx n).buf.filter (fun e => x + s.txN n ≤ e.1), nextX := some (x + s.txN n),
        queue := (s.tx n).queue ++ [⟨x, s.frameLen (s.txg n 0x02) (s.txChans n * s.txN n * s.txB n),
          s.takeCells (ceilDiv (s.frameLen (s.txg n 0x02) (s.txChans n * s.txN n * s.txB n)) 128), s.txg n 0x1A,
          stampedFrom (s.tx n).buf (List.replicate (s.txChans n) 0) x (s.txN n), s.clock⟩] } ∧
      t.g 0x4C00 n 0x1A = (s.g 0x4C00 n 0x1A + 1) % 65536 ∧
      t.g 0x4900 0 0x04 = s.g 0x4900 0 0x04 + ceilDiv (s.frameLen (s.txg n 0x02) (s.txChans n * s.txN n * s.txB n)) 128 := by
  change ∃ t, execPacketPush n same s = .next t ∧ _
  unfold execPacketPush
  generalize hlen : s.frameLen (s.txg n 0x02) (s.txChans n * s.txN n * s.txB n) = len at hcells ⊢
  generalize hcl : ceilDiv len 128 = cells at hcells ⊢
  have hany : ¬ (s.txN n == 0 || !(s.tx n).buf.any (fun e => x + s.txN n ≤ e.1 + 1) || !s.mayPush n) = true := by
    obtain ⟨e, he, hle⟩ := hbuf
    have hanyb : (s.tx n).buf.any (fun e => x + s.txN n ≤ e.1 + 1) = true := List.any_eq_true.mpr ⟨e, he, decide_eq_true hle⟩
    rw [hanyb, hmay, beq_eq_false_iff_ne.mpr hk]
    decide
  dsimp only
  rw [hx]
  refine run_to hc _ ((if_neg hany).trans ((if_neg (Nat.not_le.mpr hq)).trans (if_neg ?_))) fun t ht => ?_
  · rw [hlen, hcl]
    exact Nat.not_lt.mpr hcells
  rw [hlen, hcl] at ht
  have hseq : ((Tx.start s).w 0x4C00 n 0x1A ((s.txg n 0x1A + 1) % 65536)).cur.g 0x4C00 n 0x1A = (s.g 0x4C00 n 0x1A + 1) % 65536 :=
    Tx.w_g_of (i := 0x4C00) (c := 0x1A) _ (entryAt_ent hn rfl) (fit_of_lt (by decide) (Nat.mod_lt _ (by decide)))
  generalize (Tx.start s).w 0x4C00 n 0x1A ((s.txg n 0x1A + 1) % 65536) = u at ht hseq
  have htx := u.setTxs_tx n { s.tx n with
    buf := (s.tx n).buf.filter (fun e => x + s.txN n ≤ e.1), nextX := some (x + s.txN n),
    queue := (s.tx n).queue ++ [⟨x, len, s.takeCells cells, s.txg n 0x1A,
      stampedFrom (s.tx n).buf (List.replicate (s.txChans n) 0) x (s.txN n), s.clock⟩] } n
  have hset := u.setTxs_keeps n { s.tx n with
    buf := (s.tx n).buf.filter (fun e => x + s.txN n ≤ e.1), nextX := some (x + s.txN n),
    queue := (s.tx n).queue ++ [⟨x, len, s.takeCells cells, s.txg n 0x1A,
      stampedFrom (s.tx n).buf (List.replicate (s.txChans n) 0) x (s.txN n), s.clock⟩] }
  rw [if_pos rfl] at htx
  rw [← hset.gOf] at hseq
  generalize u.setTxs n _ = v at ht htx hseq
  have hw : (v.w 0x4900 0 0x04 (s.g 0x4900 0 0x04 + cells)).cur.g 0x4900 0 0x04 = s.g 0x4900 0 0x04 + cells :=
    Tx.w_g_of _ (entryAt_ent (by decide : 0 < 1) rfl) (fit_of_lt (by decide) (Nat.lt_of_le_of_lt hcells (by decide)))
  have hrest : ∀ w : Tx s, Keeps [.all 0x4900 [0x02, 0x05]] [] w.cur ((w.w 0x4900 0 0x02 (s.g 0x4900 0 0x02 - cells)).peak 0x4900 0 0x05
      (s.g 0x4900 0 0x04 + cells)).cur := fun w => .peak (.w (.refl ..))
  have hall : Keeps [.all 0x4900 [0x02, 0x04, 0x05]] [] v.cur (((v.w 0x4900 0 0x04 (s.g 0x4900 0 0x04 + cells)).w 0x4900 0 0x02
      (s.g 0x4900 0 0x02 - cells)).peak 0x4900 0 0x05 (s.g 0x4900 0 0x04 + cells)).cur := .peak (.w (.w (.refl ..)))
  refine ⟨?_, by rw [ht.seenG, hall.gOf, hseq], by rw [ht.seenG, (hrest _).gOf, hw]⟩
  rw [State.tx_congr (ht.net (by simp)), State.tx_congr (hall.net (by decide)), htx]

/-- A media copy that is the first of its packet to start, and carries no stamp: the MAC is busy with it, and it counts as sent. -/
theorem Tx.frameStart_copy (t : Tx s0) (m c : ℕ) {e : Egress} {k : MediaCopy} (hc : e.copy = some k) (hs : e.stamp = none)
    (hk : k.stream < 256) (hnew : (t.cur.tx k.stream).flights.any (fun f => f.x == k.x && f.started) = false) :
    (t.frameStart m c e).cur.macSt m = { t.cur.macSt m with busyUntil := c + t.cur.sendTime m e.len, busy := some k } ∧
      (t.frameStart m c e).cur.outs = t.cur.outs ++ [e.sent m] ∧
      (t.frameStart m c e).cur.tx k.stream = { t.cur.tx k.stream with
        flights := (t.cur.tx k.stream).flights.map (fun f => if f.x == k.x then { f with started := true } else f) } ∧
      (t.frameStart m c e).cur.g 0x4C00 k.stream 0x15 = (t.cur.g 0x4C00 k.stream 0x15 + 1) % 2 ^ 32 := by
  unfold Tx.frameStart
  simp only [hc, hs]
  have hmac := (t.setMac_macSt m { t.cur.macSt m with busyUntil := c + t.cur.sendTime m e.len, busy := some k } m).trans (if_pos rfl)
  have hset := t.setMac_keeps m { t.cur.macSt m with busyUntil := c + t.cur.sendTime m e.len, busy := some k }
  have htx : (t.setMac m { t.cur.macSt m with busyUntil := c + t.cur.sendTime m e.len, busy := some k }).cur.tx k.stream =
    t.cur.tx k.stream := rfl
  have houts : (t.setMac m { t.cur.macSt m with busyUntil := c + t.cur.sendTime m e.len, busy := some k }).cur.outs = t.cur.outs := rfl
  generalize t.setMac m _ = u at *
  have hcount : Keeps [.all 0x4800 [0x0B], .ctr 0 0xFFF] [.outs] u.cur ((u.emit (e.sent m)).tally 0x4800 m 0x0B).cur :=
    .tally (.emit (.refl ..))
  have hsent : ((u.emit (e.sent m)).tally 0x4800 m 0x0B).cur.outs = t.cur.outs ++ [e.sent m] := by
    rw [Tx.tally_outs, ← houts]
    rfl
  change ((((u.emit (e.sent m)).tally 0x4800 m 0x0B).copyStart k).cur.macSt m = _) ∧
    ((((u.emit (e.sent m)).tally 0x4800 m 0x0B).copyStart k).cur.outs = _) ∧
    ((((u.emit (e.sent m)).tally 0x4800 m 0x0B).copyStart k).cur.tx k.stream = _) ∧
    ((((u.emit (e.sent m)).tally 0x4800 m 0x0B).copyStart k).cur.g 0x4C00 k.stream 0x15 = _)
  have hvmac := (State.macSt_congr (hcount.net (by decide)) m).trans hmac
  have hvtx := (State.tx_congr (hcount.net (by decide)) k.stream).trans htx
  have hvg : ((u.emit (e.sent m)).tally 0x4800 m 0x0B).cur.g 0x4C00 k.stream 0x15 = t.cur.g 0x4C00 k.stream 0x15 :=
    hcount.gOf.trans hset.gOf
  generalize (u.emit (e.sent m)).tally 0x4800 m 0x0B = v at hsent hvmac hvtx hvg ⊢
  unfold Tx.copyStart
  dsimp only
  rw [if_neg (by rw [hvtx, hnew]; decide), hvtx]
  have hw := v.setTxs_tx k.stream { t.cur.tx k.stream with
    flights := (t.cur.tx k.stream).flights.map (fun f => if f.x == k.x then { f with started := true } else f) } k.stream
  have hwk := v.setTxs_keeps k.stream { t.cur.tx k.stream with
    flights := (t.cur.tx k.stream).flights.map (fun f => if f.x == k.x then { f with started := true } else f) }
  have hwm : (v.setTxs k.stream { t.cur.tx k.stream with
    flights := (t.cur.tx k.stream).flights.map (fun f => if f.x == k.x then { f with started := true } else f) }).cur.macSt m =
      v.cur.macSt m := rfl
  have hwo : (v.setTxs k.stream { t.cur.tx k.stream with
    flights := (t.cur.tx k.stream).flights.map (fun f => if f.x == k.x then { f with started := true } else f) }).cur.outs =
      v.cur.outs := rfl
  rw [if_pos rfl] at hw
  generalize v.setTxs k.stream _ = w at hw hwk hwm hwo ⊢
  refine ⟨?_, ?_, ?_, ?_⟩
  · rw [State.macSt_congr (Tx.tally_net ..), hwm, hvmac]
  · rw [Tx.tally_outs, hwo, hsent]
  · rw [State.tx_congr (Tx.tally_net ..), hw]
  · rw [w.tally_g (entryAt_ent hk rfl) (by decide), hwk.gOf, hvg]
    rfl

theorem State.sendTime_pos (s : State) (m n : ℕ) : 0 < s.sendTime m n := by
  unfold State.sendTime ceilDiv
  have : 0 < max 1 (s.g 0x4800 m 0x08) := Nat.lt_of_lt_of_le (by decide) (Nat.le_max_left ..)
  exact Nat.div_pos (by omega) this

/-- A media copy in time starts at once on a MAC that stands idle, and stays on the wire. -/
theorem Tx.egress_copy (t : Tx s0) {m : ℕ} (h : t.cur.macIdle m = true) {e : Egress} {k : MediaCopy} (hc : e.copy = some k)
    (hst : e.stamp = none) (hs : e.since = t.cur.clock) (hk : k.stream < 256)
    (hnew : (t.cur.tx k.stream).flights.any (fun f => f.x == k.x && f.started) = false) (htime : t.cur.nsAt t.cur.clock ≤ k.last) :
    t.egress m e = (t.taken m e).frameStart m t.cur.clock e := by
  simp only [State.macIdle, Bool.and_eq_true, decide_eq_true_eq, List.isEmpty_iff, Option.isNone_iff_eq_none] at h
  obtain ⟨⟨⟨⟨hup, hout⟩, hbusy⟩, hfree⟩, hpause⟩ := h
  obtain ⟨hm, -, -, -⟩ := (t.taken m e).frameStart_copy m t.cur.clock hc hst hk hnew
  rw [t.taken_macSt] at hm
  have hclock : ((t.taken m e).frameStart m t.cur.clock e).cur.clock = t.cur.clock :=
    ((Tx.frameStart_keeps ..).clock (by decide)).2
  have hmac : (t.enqueue m e).cur.macSt m = { t.cur.macSt m with out := [e] } := by
    unfold Tx.enqueue
    rw [Tx.setMac_macSt, if_pos rfl, hout]
    rfl
  have hstart : ({ t.cur.macSt m with out := [e] } : MacSt).startOf e = t.cur.clock := by
    unfold MacSt.startOf
    dsimp only
    omega
  have hup' : (t.enqueue m e).cur.macUp m = true := hup
  have hnot : ¬ (t.enqueue m e).cur.clock < t.cur.clock := Nat.lt_irrefl _
  have hin : ¬ k.last < ((t.enqueue m e).setMac m { t.cur.macSt m with out := [] }).cur.nsAt t.cur.clock := Nat.not_lt.mpr htime
  have hpos := (t.taken m e).cur.sendTime_pos m e.len
  generalize hu : (t.taken m e).frameStart m t.cur.clock e = u at hm hclock ⊢
  have hdone : u.macDone m = u := by
    unfold Tx.macDone
    dsimp only
    rw [hm]
    exact if_neg (by rw [hclock]; dsimp only; omega)
  have hrest : u.macLoop m 3 = u := by
    rw [Tx.macLoop]
    simp only [hdone, hm]
  have hloop : (t.enqueue m e).macLoop m 4 = u := by
    rw [Tx.macLoop]
    simp only [(t.enqueue m e).macDone_idle (show ((t.enqueue m e).cur.macSt m).busy = none by rw [hmac]; exact hbusy),
      hmac, hstart, if_neg hnot, hc]
    exact (congrArg (Tx.macLoop m 3) ((if_neg hin).trans hu)).trans hrest
  unfold Tx.egress Tx.macRun
  dsimp only
  simp only [hc, hmac, hup', Option.isNone_some, Bool.false_and, Bool.false_eq_true, if_false, List.isEmpty_cons,
    if_true, List.length_cons, List.length_nil]
  rw [hloop]
  unfold Tx.macExpire
  rw [hm]
  rfl

/-- The frame that carries a payload of transmit stream i on its first path. -/
def State.copyFrame (a : State) (i : ℕ) (mac payload : Bytes) : Bytes :=
  a.ethFrame (a.txg i 0x02) mac 0x0800 (ipv4 17 (a.ip (a.txg i 0x02)) (a.txg i 0x04) (a.txg i 0x10) (a.txg i 0x11)
    (udp (a.txg i 0x07) (a.txg i 0x06) payload))

/-- What a copy of a packet of transmit stream i tells of it, and how long it may still start (R219). -/
def State.copyKey (a : State) (i : ℕ) (p : Packet) : MediaCopy :=
  ⟨i, p.x, nsOfMedia (a.txRate i) (p.x + a.txN i), nsOfMedia (a.txRate i) (p.x + a.txN i) + a.txN i * 1000000000 / a.txRate i⟩

/-- A stream without protection sends one copy of a packet. -/
theorem Tx.txCopies_one (t : Tx s0) {i : ℕ} {p : Packet} {d mac : Bytes} (hone : t.cur.on 0x4C00 i 0x03 = false)
    (hmac : t.cur.dstMac (t.cur.txg i 0x02) (t.cur.txg i 0x04) = some mac) : t.txCopies i p d =
      (t.setTxs i { t.cur.tx i with flights := (t.cur.tx i).flights ++ [⟨p.x, 1, p.cells, false⟩] }).egress (t.cur.txg i 0x02)
        ⟨.frame (t.cur.copyFrame i mac d), (t.cur.copyFrame i mac d).length, t.cur.clock, some (t.cur.copyKey i p), none⟩ := by
  have hpaths : t.cur.txPaths i = [(t.cur.txg i 0x02, t.cur.txg i 0x04)] := by
    unfold State.txPaths
    rw [hone]
    rfl
  unfold Tx.txCopies
  dsimp only
  rw [hpaths]
  simp only [List.filterMap_cons, List.filterMap_nil, hmac, Option.map_some]
  rfl

/-- A packet of a stream without protection whose MAC stands idle leaves at once. -/
theorem Tx.txCopies_leaves (t : Tx s0) {i : ℕ} {p : Packet} {d mac : Bytes} (hi : i < 256) (hone : t.cur.on 0x4C00 i 0x03 = false)
    (hmac : t.cur.dstMac (t.cur.txg i 0x02) (t.cur.txg i 0x04) = some mac) (hidle : t.cur.macIdle (t.cur.txg i 0x02) = true)
    (hnew : ∀ f ∈ (t.cur.tx i).flights, f.x ≠ p.x) (htime : t.cur.ns ≤ (t.cur.copyKey i p).last) :
    (t.txCopies i p d).cur.tx i = { t.cur.tx i with flights := (t.cur.tx i).flights ++ [⟨p.x, 1, p.cells, true⟩] } ∧
      (t.txCopies i p d).cur.g 0x4900 0 0x04 = t.cur.g 0x4900 0 0x04 ∧
      (t.txCopies i p d).cur.outs = t.cur.outs ++ [.frame (t.cur.txg i 0x02) (t.cur.copyFrame i mac d)] ∧
      (t.txCopies i p d).cur.g 0x4C00 i 0x15 = (t.cur.g 0x4C00 i 0x15 + 1) % 2 ^ 32 := by
  rw [t.txCopies_one hone hmac]
  generalize t.cur.copyFrame i mac d = F
  generalize hm : t.cur.txg i 0x02 = m at hidle
  have hstream : (t.cur.copyKey i p).stream = i := rfl
  have hkx : (t.cur.copyKey i p).x = p.x := rfl
  generalize t.cur.copyKey i p = k at htime hstream hkx ⊢
  have htx := (t.setTxs_tx i { t.cur.tx i with flights := (t.cur.tx i).flights ++ [⟨p.x, 1, p.cells, false⟩] } i).trans (if_pos rfl)
  have hset := t.setTxs_keeps i { t.cur.tx i with flights := (t.cur.tx i).flights ++ [⟨p.x, 1, p.cells, false⟩] }
  have hfree : (t.setTxs i { t.cur.tx i with flights := (t.cur.tx i).flights ++ [⟨p.x, 1, p.cells, false⟩] }).cur.macIdle m = true := hidle
  have hns : (t.setTxs i { t.cur.tx i with flights := (t.cur.tx i).flights ++ [⟨p.x, 1, p.cells, false⟩] }).cur.nsAt t.cur.clock =
    t.cur.ns := rfl
  have houts : (t.setTxs i { t.cur.tx i with flights := (t.cur.tx i).flights ++ [⟨p.x, 1, p.cells, false⟩] }).cur.outs = t.cur.outs := rfl
  have hclock : (t.setTxs i { t.cur.tx i with flights := (t.cur.tx i).flights ++ [⟨p.x, 1, p.cells, false⟩] }).cur.clock =
    t.cur.clock := rfl
  generalize t.setTxs i _ = u at *
  have hfirst : (u.cur.tx k.stream).flights.any (fun f => f.x == k.x && f.started) = false := by
    rw [hstream, htx, hkx, List.any_append, Bool.or_eq_false_iff]
    refine ⟨List.any_eq_false.mpr fun f hf => ?_, by simp⟩
    rw [beq_eq_false_iff_ne.mpr (hnew f hf)]
    simp
  rw [u.egress_copy (e := ⟨.frame F, F.length, t.cur.clock, some k, none⟩) hfree rfl rfl hclock.symm (by rw [hstream]; exact hi) hfirst
    (by rw [hclock, hns]; exact htime)]
  have htaken : Keeps [] [.net] u.cur (u.taken m ⟨.frame F, F.length, t.cur.clock, some k, none⟩).cur :=
    .step (Tx.setMac_keeps ..) (.step (Tx.enqueue_keeps ..) (.refl ..))
  have hutx : (u.taken m ⟨.frame F, F.length, t.cur.clock, some k, none⟩).cur.tx = u.cur.tx := rfl
  rw [← hutx] at hfirst
  generalize u.taken m ⟨.frame F, F.length, t.cur.clock, some k, none⟩ = w at *
  obtain ⟨-, h2, h3, h4⟩ := w.frameStart_copy m u.cur.clock (e := ⟨.frame F, F.length, t.cur.clock, some k, none⟩) rfl rfl
    (by rw [hstream]; exact hi) hfirst
  have hkeep := w.frameStart_keeps m u.cur.clock ⟨.frame F, F.length, t.cur.clock, some k, none⟩
  rw [hstream] at h3 h4
  refine ⟨?_, by rw [hkeep.gOf, htaken.gOf, hset.gOf], ?_, by rw [h4, htaken.gOf, hset.gOf]⟩
  · have hold : (t.cur.tx i).flights.map (fun f => if f.x == p.x then { f with started := true } else f) = (t.cur.tx i).flights :=
      (List.map_congr_left fun f hf => if_neg (by rw [beq_eq_false_iff_ne.mpr (hnew f hf)]; decide)).trans (List.map_id _)
    rw [h3, hutx, htx, hkx]
    dsimp only
    rw [List.map_append, hold]
    simp
  · rw [h2, htaken.outs (by decide), houts]
    rfl

/-! What a launch looks at, but for the streams themselves, rests on the dictionary, the MACs and the time. -/

theorem Tx.setTxs_dstMac (t : Tx s0) (i : ℕ) (x : TxStream) (m d : ℕ) : (t.setTxs i x).cur.dstMac m d = t.cur.dstMac m d := rfl
theorem Tx.setTxs_macIdle (t : Tx s0) (i : ℕ) (x : TxStream) (m : ℕ) : (t.setTxs i x).cur.macIdle m = t.cur.macIdle m := rfl
theorem Tx.setTxs_ns (t : Tx s0) (i : ℕ) (x : TxStream) : (t.setTxs i x).cur.ns = t.cur.ns := rfl
theorem start_dstMac (m d : ℕ) : (Tx.start s).cur.dstMac m d = s.dstMac m d := rfl
theorem start_macIdle (m : ℕ) : (Tx.start s).cur.macIdle m = s.macIdle m := rfl
theorem start_ns : (Tx.start s).cur.ns = s.ns := rfl

/-- A launch of a stream that sends takes the packet in front. -/
theorem Tx.launch_sends (t : Tx s0) {n x : ℕ} {same : Bool} {p : Packet} {q : List Packet} (hx : (t.cur.tx n).launchX = some x)
    (hq : (t.cur.tx n).queue = p :: q) (hp : p.x ≤ x) (hlen : p.len ≠ 0) (hsame : ¬ (same = true ∧ q = []))
    (hst : t.cur.txg n 0x14 = 2) : t.launch n same false =
      (t.setTxs n { t.cur.tx n with launchX := some (x + t.cur.txN n), queue := q }).txCopies n p (t.cur.rtp n p) := by
  unfold Tx.launch
  dsimp only
  rw [hx, hq]
  dsimp only
  have hhead : (if ((p :: q).length == 1 && same) = true then Packet.idle else (p :: q).headD Packet.idle) = p := by
    refine if_neg fun h => hsame ?_
    simpa [and_comm] using h
  rw [hhead]
  refine (if_neg ?_).trans ((if_neg ?_).trans (if_neg (by decide)))
  · simp only [Bool.or_eq_true, beq_iff_eq, decide_eq_true_eq, not_or, Nat.not_lt]
    exact ⟨hlen, hp⟩
  · rw [hst]
    decide

theorem Tx.setTxs_txg (t : Tx s0) (i : ℕ) (x : TxStream) (n c : ℕ) : (t.setTxs i x).cur.txg n c = t.cur.txg n c := rfl
theorem Tx.setTxs_on (t : Tx s0) (i : ℕ) (x : TxStream) (j n c : ℕ) : (t.setTxs i x).cur.on j n c = t.cur.on j n c := rfl
theorem Tx.setTxs_outs (t : Tx s0) (i : ℕ) (x : TxStream) : (t.setTxs i x).cur.outs = t.cur.outs := rfl
theorem Tx.setTxs_copyKey (t : Tx s0) (i : ℕ) (x : TxStream) (n : ℕ) (p : Packet) : (t.setTxs i x).cur.copyKey n p = t.cur.copyKey n p :=
  rfl
theorem Tx.setTxs_copyFrame (t : Tx s0) (i : ℕ) (x : TxStream) (n : ℕ) (m d : Bytes) :
    (t.setTxs i x).cur.copyFrame n m d = t.cur.copyFrame n m d := rfl

/-- The packet in front of a stream without protection leaves at its launch, if the stream's MAC stands idle. -/
theorem Tx.launch_leaves (t : Tx s0) {n x : ℕ} {same : Bool} {p : Packet} {q : List Packet} {mac : Bytes} (hn : n < 256)
    (hx : (t.cur.tx n).launchX = some x) (hq : (t.cur.tx n).queue = p :: q) (hp : p.x ≤ x) (hlen : p.len ≠ 0)
    (hsame : ¬ (same = true ∧ q = [])) (hst : t.cur.txg n 0x14 = 2) (hone : t.cur.on 0x4C00 n 0x03 = false)
    (hidle : t.cur.macIdle (t.cur.txg n 0x02) = true) (hnew : ∀ f ∈ (t.cur.tx n).flights, f.x ≠ p.x)
    (htime : t.cur.ns ≤ (t.cur.copyKey n p).last) (hmac : t.cur.dstMac (t.cur.txg n 0x02) (t.cur.txg n 0x04) = some mac) :
    (t.launch n same false).cur.tx n = { t.cur.tx n with
        launchX := some (x + t.cur.txN n), queue := q, flights := (t.cur.tx n).flights ++ [⟨p.x, 1, p.cells, true⟩] } ∧
      (t.launch n same false).cur.g 0x4900 0 0x04 = t.cur.g 0x4900 0 0x04 ∧
      (t.launch n same false).cur.outs = t.cur.outs ++ [.frame (t.cur.txg n 0x02) (t.cur.copyFrame n mac (t.cur.rtp n p))] ∧
      (t.launch n same false).cur.g 0x4C00 n 0x15 = (t.cur.g 0x4C00 n 0x15 + 1) % 2 ^ 32 := by
  rw [t.launch_sends hx hq hp hlen hsame hst]
  have htx := (t.setTxs_tx n { t.cur.tx n with launchX := some (x + t.cur.txN n), queue := q } n).trans (if_pos rfl)
  have hset := t.setTxs_keeps n { t.cur.tx n with launchX := some (x + t.cur.txN n), queue := q }
  obtain ⟨h1, h2, h3, h4⟩ := (t.setTxs n { t.cur.tx n with launchX := some (x + t.cur.txN n), queue := q }).txCopies_leaves (p := p)
    (d := t.cur.rtp n p) (mac := mac) hn ((Tx.setTxs_on ..).trans hone) (by rw [Tx.setTxs_dstMac, Tx.setTxs_txg, Tx.setTxs_txg, hmac])
    (by rw [Tx.setTxs_macIdle, Tx.setTxs_txg, hidle]) (by rw [htx]; exact hnew) (by rw [Tx.setTxs_ns, Tx.setTxs_copyKey]; exact htime)
  rw [h1, h2, h3, h4, htx, hset.gOf, hset.gOf, Tx.setTxs_outs, Tx.setTxs_txg, Tx.setTxs_copyFrame]
  exact ⟨rfl, rfl, rfl, rfl⟩

theorem packetLaunch_leaves (hc : s.clocked = true) {n x : ℕ} {same : Bool} {p : Packet} {q : List Packet} {mac : Bytes} (hn : n < 256)
    (hx : (s.tx n).launchX = some x) (hdue : x + s.txN n ≤ mediaAt (s.txRate n) s.ns) (hq : (s.tx n).queue = p :: q) (hp : p.x ≤ x)
    (hlen : p.len ≠ 0) (hsame : ¬ (same = true ∧ q = [])) (hst : s.txg n 0x14 = 2) (hone : s.on 0x4C00 n 0x03 = false)
    (hidle : s.macIdle (s.txg n 0x02) = true) (hfirst : s.launchBefore n = none) (hnew : ∀ f ∈ (s.tx n).flights, f.x ≠ p.x)
    (htime : s.ns ≤ nsOfMedia (s.txRate n) (p.x + s.txN n) + s.txN n * 1000000000 / s.txRate n)
    (hmac : s.dstMac (s.txg n 0x02) (s.txg n 0x04) = some mac) :
    ∃ t, exec (.packetLaunch n same false) s = .next t ∧
      t.tx n = { s.tx n with launchX := some (x + s.txN n), queue := q,
                             flights := (s.tx n).flights ++ [⟨p.x, 1, p.cells, true⟩] } ∧
      t.g 0x4900 0 0x04 = s.g 0x4900 0 0x04 ∧
      t.outs = [.frame (s.txg n 0x02) (s.ethFrame (s.txg n 0x02) mac 0x0800
        (ipv4 17 (s.ip (s.txg n 0x02)) (s.txg n 0x04) (s.txg n 0x10) (s.txg n 0x11)
          (udp (s.txg n 0x07) (s.txg n 0x06) (s.rtp n p))))] ∧
      t.g 0x4C00 n 0x15 = (s.g 0x4C00 n 0x15 + 1) % 2 ^ 32 := by
  change ∃ t, execPacketLaunch n same false s = .next t ∧ _
  unfold execPacketLaunch
  have hlaunch : s.launchDue n = true := by
    unfold State.launchDue
    rw [hx]
    exact decide_eq_true hdue
  have hnone : (Tx.start s).launchesBefore n 1024 = Tx.start s := by
    unfold Tx.launchesBefore
    rw [show (Tx.start s).cur.launchBefore n = none from hfirst]
  have hg : ∀ i m c, (Tx.start s).cur.g i m c = s.g i m c := fun _ _ _ => rfl
  have htxg : ∀ i c, (Tx.start s).cur.txg i c = s.txg i c := fun i c => hg 0x4C00 i c
  obtain ⟨h1, h2, h3, h4⟩ := (Tx.start s).launch_leaves (same := same) (mac := mac) hn hx hq hp hlen hsame ((htxg n 0x14).trans hst)
    ((State.on_congr hg ..).trans hone) (by rw [start_macIdle, htxg, hidle]) hnew (by rw [start_ns]; exact htime)
    (by rw [start_dstMac, htxg, htxg, hmac])
  refine run_to hc ((Tx.start s).launch n same false) ?_ fun t ht => ?_
  · rw [if_pos hlaunch, hnone]
  rw [ht.seenG, ht.seenG, ht.outs (by simp), State.tx_congr (ht.net (by simp)), h1, h2, h3, h4, hg, hg, htxg, State.copyFrame]
  exact ⟨rfl, rfl, rfl, rfl⟩

/-- Settles O26, clause by clause: frames dropped, a PTP frame accepted, packets queued and launched. -/
theorem framesAndPacketsComplete : Obligations.FramesAndPacketsComplete := by
  unfold Obligations.FramesAndPacketsComplete
  refine ⟨fun s n f clock hc hn hon hup => ⟨fun h => receiveFrame_badFcs hc hn hon hup h, fun h hl => receiveFrame_runt hc hn hon hup h hl,
    fun h hl => receiveFrame_giant hc hn hon hup h hl, fun h h1 h2 h3 h4 h5 h6 h7 => receiveFrame_ptp hc hn hon hup h h1 h2 h3 h4 h5 h6 h7⟩,
    fun s n x same hc hn => ⟨fun hx hk hb hm hq hcl => packetPush_queues hc hn hx hk hb hm hq hcl,
    fun p q mac hx hd hq hp hl hs hst hone hid hf hnew ht hm => packetLaunch_leaves hc hn hx hd hq hp hl hs hst hone hid hf hnew ht hm⟩⟩

end Sys2Proof.Machine
end

section
/-! PROOFS. What sending frames leaves of the network's state, and media streams begun and ended (R207, R210, R212, R217, R220,
R221). -/

namespace Sys2Proof.Machine
open Sys2Proof

set_option Elab.async false

variable {s0 s a b : State} {M : List Part}

/-! ## What sending leaves -/

/-- From a to b nothing but frames has left the MACs: what receives, the packets that wait and the addresses known stay. -/
structure Sends (a b : State) : Prop where
  rx : b.net.rx = a.net.rx
  tx : ∀ i, ∃ f, b.tx i = { a.tx i with flights := f }
  mac : ∀ m, ∃ o u k, b.macSt m = { a.macSt m with out := o, busyUntil := u, busy := k }

namespace Sends

variable {t : Tx s0}

theorem refl (a : State) : Sends a a := ⟨rfl, fun _ => ⟨_, rfl⟩, fun _ => ⟨_, _, _, rfl⟩⟩

theorem trans {c : State} (h : Sends a b) (g : Sends b c) : Sends a c := by
  refine ⟨g.rx.trans h.rx, fun i => ?_, fun m => ?_⟩
  · obtain ⟨f, hf⟩ := h.tx i
    obtain ⟨f', hf'⟩ := g.tx i
    exact ⟨f', by rw [hf', hf]⟩
  · obtain ⟨o, u, k, hm⟩ := h.mac m
    obtain ⟨o', u', k', hm'⟩ := g.mac m
    exact ⟨o', u', k', by rw [hm', hm]⟩

theorem of_net (h : b.net = a.net) : Sends a b :=
  ⟨congrArg Net.rx h, fun i => ⟨_, State.tx_congr h i⟩, fun m => ⟨_, _, _, State.macSt_congr h m⟩⟩

theorem of {E : ℕ → Prop} (h : Kept E M a b) (hm : Part.net ∉ M := by decide) : Sends a b := of_net (h.net hm)

theorem step {E : ℕ → Prop} {c : State} (g : Kept E M b c) (h : Sends a b) (hm : Part.net ∉ M := by decide) : Sends a c :=
  h.trans (of g hm)

theorem each {α : Type} {l : List α} {f : Tx s0 → α → Tx s0} (hf : ∀ u x, Sends u.cur (f u x).cur) (h : Sends a t.cur) :
    Sends a (t.each l f).cur :=
  Tx.each_inv (P := fun u => Sends a u) l h fun u x hu => hu.trans (hf u x)

theorem ite {p : Prop} [Decidable p] {u : Tx s0} (ht : Sends a t.cur) (hu : Sends a u.cur) : Sends a (if p then t else u).cur := by
  split
  · exact ht
  · exact hu

/-- A MAC takes new frames that wait and one that is under way. -/
theorem setMac (h : Sends a t.cur) (m : ℕ) (o : List Egress) (u : ℕ) (k : Option MediaCopy) :
    Sends a (t.setMac m { t.cur.macSt m with out := o, busyUntil := u, busy := k }).cur := by
  refine h.trans ⟨rfl, fun i => ⟨_, rfl⟩, fun j => ?_⟩
  rw [Tx.setMac_macSt]
  split
  · rename_i hj
    exact ⟨o, u, k, by rw [hj]⟩
  · exact ⟨_, _, _, rfl⟩

/-- The copies of a stream's packets change. -/
theorem setTxs (h : Sends a t.cur) (i : ℕ) (f : List Flight) : Sends a (t.setTxs i { t.cur.tx i with flights := f }).cur := by
  refine h.trans ⟨rfl, fun j => ?_, fun m => ⟨_, _, _, rfl⟩⟩
  rw [Tx.setTxs_tx]
  split
  · rename_i hj
    exact ⟨f, by rw [hj]⟩
  · exact ⟨_, rfl⟩

end Sends

theorem Tx.freeCells_sends (t : Tx s0) (n : ℕ) : Sends t.cur (t.freeCells n).cur :=
  .of (E := fun _ => True) (M := []) (.incKey (.wKey (.refl ..) trivial) trivial)

theorem Tx.copyEnd_sends (t : Tx s0) (c : MediaCopy) : Sends t.cur (t.copyEnd c).cur := by
  unfold Tx.copyEnd
  dsimp only
  split
  · exact .refl _
  · exact .ite ((Sends.setTxs (.refl _) ..).trans (Tx.freeCells_sends ..)) (.setTxs (.refl _) ..)

theorem Tx.copyStart_sends (t : Tx s0) (c : MediaCopy) : Sends t.cur (t.copyStart c).cur := by
  unfold Tx.copyStart
  exact .ite (.refl _) ((Sends.setTxs (.refl _) ..).trans (.of_net (Tx.tally_net ..)))

theorem Tx.copyLate_sends (t : Tx s0) (m : ℕ) (c : MediaCopy) : Sends t.cur (t.copyLate m c).cur := by
  unfold Tx.copyLate
  exact (Sends.of (E := fun _ => True) (M := []) (.flagBitKey (.flagBitKey (.tallyKey (.tallyKey (.refl ..) trivial) trivial) trivial)
    trivial)).trans (Tx.copyEnd_sends ..)

theorem Tx.macExpire_sends (t : Tx s0) (m : ℕ) : Sends t.cur (t.macExpire m).cur := by
  unfold Tx.macExpire
  exact .ite (.refl _) (.each (fun u k => u.copyLate_sends m k) (Sends.setMac (.refl _) m _ _ _))

theorem Tx.macDone_sends (t : Tx s0) (m : ℕ) : Sends t.cur (t.macDone m).cur := by
  unfold Tx.macDone
  dsimp only
  split
  · exact .ite ((Sends.setMac (.refl _) m _ _ none).trans (Tx.copyEnd_sends ..)) (.refl _)
  · exact .refl _

theorem Tx.enqueue_sends (t : Tx s0) (m : ℕ) (e : Egress) : Sends t.cur (t.enqueue m e).cur := Sends.setMac (.refl _) m _ _ _

theorem Tx.stamped_sends (t : Tx s0) (m c : ℕ) (r : StampReq) : Sends t.cur (t.stamped m c r).cur := by
  have hsent : Sends t.cur (t.stampSent m c r).2.cur := .of (Tx.stampSent_keeps ..)
  have hlast : ∀ u : Tx s0, Sends u.cur ((u.tally 0x5001 0 0x19).flagBit 0x5001 0 0x1B 3).cur := fun u =>
    .of (E := Keys [.all 0x5001 [0x19, 0x1B], .ctr 0 0xFFF]) (M := []) (.flagBit (.tally (.refl ..)))
  unfold Tx.stamped
  dsimp only
  generalize t.stampSent m c r = q at hsent ⊢
  obtain ⟨ok, u⟩ := q
  dsimp only at hsent ⊢
  split
  · exact .ite hsent (hsent.trans (Tx.enqueue_sends ..))
  · exact hsent.trans (hlast u)
  · exact hsent.trans ⟨rfl, fun _ => ⟨_, rfl⟩, fun _ => ⟨_, _, _, rfl⟩⟩
  · exact hsent.trans ⟨rfl, fun _ => ⟨_, rfl⟩, fun _ => ⟨_, _, _, rfl⟩⟩
  · exact hsent

theorem Tx.frameStart_sends (t : Tx s0) (m c : ℕ) (e : Egress) : Sends t.cur (t.frameStart m c e).cur := by
  unfold Tx.frameStart
  extract_lets src u v w
  have hv : Sends t.cur v.cur := ((Sends.setMac (.refl _) m _ _ _).trans ⟨rfl, fun _ => ⟨_, rfl⟩, fun _ => ⟨_, _, _, rfl⟩⟩).trans
    (.of_net (Tx.tally_net ..))
  have hw : Sends t.cur w.cur := by
    unfold w
    split
    · exact hv.trans (Tx.copyStart_sends ..)
    · exact hv
  split
  · exact hw.trans (Tx.stamped_sends ..)
  · exact hw

theorem Tx.macLoop_sends (m f : ℕ) (t : Tx s0) : Sends t.cur (t.macLoop m f).cur := by
  induction f generalizing t with
  | zero => exact .refl _
  | succ f ih =>
    have hdone := t.macDone_sends m
    dsimp only [Tx.macLoop]
    split
    · exact hdone
    · have hset := fun o => Sends.setMac hdone m o ((t.macDone m).cur.macSt m).busyUntil ((t.macDone m).cur.macSt m).busy
      refine .ite hdone ?_
      split
      · exact (Sends.ite ((hset _).trans (Tx.copyLate_sends ..)) ((hset _).trans (Tx.frameStart_sends ..))).trans (ih _)
      · exact ((hset _).trans (Tx.frameStart_sends ..)).trans (ih _)

theorem Tx.macRun_sends (t : Tx s0) (m : ℕ) : Sends t.cur (t.macRun m).cur := by
  unfold Tx.macRun
  exact .ite (.refl _) ((Sends.ite (Tx.macLoop_sends ..) (Tx.macDone_sends ..)).trans (Tx.macExpire_sends ..))

theorem Tx.egress_sends (t : Tx s0) (m : ℕ) (e : Egress) : Sends t.cur (t.egress m e).cur := by
  unfold Tx.egress
  exact .ite (.refl _) ((t.enqueue_sends m e).trans (Tx.macRun_sends ..))

theorem Tx.txAsk_sends (t : Tx s0) (i : ℕ) : Sends t.cur (t.txAsk i).cur := by
  unfold Tx.txAsk
  exact .each (fun u p => .ite (.refl _) (u.egress_sends ..)) (.refl _)

theorem Tx.igmpSend_sends (t : Tx s0) (m g k : ℕ) : Sends t.cur (t.igmpSend m g k).cur := by
  unfold Tx.igmpSend
  exact .ite (t.egress_sends ..) (t.egress_sends ..)

/-! ## The streams' states -/

theorem Tx.setRx_rx (t : Tx s0) (i : ℕ) (x : RxStream) (j : ℕ) : (t.setRx i x).cur.rx j = if j = i then x else t.cur.rx j := mget_mputD ..

theorem State.rx_congr (h : b.net.rx = a.net.rx) (i : ℕ) : b.rx i = a.rx i := by
  unfold State.rx
  rw [h]

theorem Tx.rxTo_state (t : Tx s0) {i st : ℕ} (hi : i < 256) (hst : st < 256) : (t.rxTo i st).cur.g 0x4A00 i 0x12 = st := by
  unfold Tx.rxTo
  split
  · rename_i h
    exact beq_iff_eq.mp h
  · have hk : ∀ u : Tx s0, Keeps [.all 0x4A00 [0x21]] [] u.cur ((u.when (st == 4) (fun t => t.flagBit 0x4A00 i 0x21 0)).rxMsg i 0
        t.cur.now).cur := fun u => .step (Tx.rxMsg_keeps ..) (.when (fun _ => .flagBit (.refl ..)) (.refl ..))
    rw [(hk _).gOf]
    exact Tx.w_g_of t (entryAt_ent hi rfl) (fit_of_lt (by decide) hst)

theorem Tx.txTo_state (t : Tx s0) {i st : ℕ} (hi : i < 256) (hst : st < 256) : (t.txTo i st).cur.g 0x4C00 i 0x14 = st := by
  have hk : ∀ u : Tx s0, Keeps [.all 0x4C00 [0x1B]] [.net] u.cur ((u.when (st == 3) (fun t => t.flagBit 0x4C00 i 0x1B 5)).when (st == 1)
      (fun t => (t.flagBit 0x4C00 i 0x1B 0).setTxs i { t.cur.tx i with since := t.cur.clock })).cur := fun u =>
    .when (fun _ => .step (Tx.setTxs_keeps ..) (.flagBit (.refl ..))) (.when (fun _ => .flagBit (.refl ..)) (.refl ..))
  unfold Tx.txTo
  rw [(hk _).gOf]
  exact Tx.w_g_of t (entryAt_ent hi rfl) (fit_of_lt (by decide) hst)

/-- Receive stream n, and its state, stand alike in two states. -/
def RxStays (n : ℕ) (a b : State) : Prop := b.rx n = a.rx n ∧ b.g 0x4A00 n 0x12 = a.g 0x4A00 n 0x12

theorem RxStays.refl (n : ℕ) (a : State) : RxStays n a a := ⟨rfl, rfl⟩

theorem RxStays.trans {n : ℕ} {c : State} (h : RxStays n a b) (g : RxStays n b c) : RxStays n a c := ⟨g.1.trans h.1, g.2.trans h.2⟩

theorem RxStays.of {n : ℕ} {l : List Span} (h : Keeps l M a b) (hs : Sends a b) (hk : apart l 0x4A00 0x12 = true := by decide) :
    RxStays n a b := ⟨State.rx_congr hs.rx n, h.gOf hk⟩

theorem Kept.rxCells {l : List Span} (h : Keeps l M a b) (i : ℕ) (hC : apart l 0x4A00 0x0C = true := by decide)
    (hB : apart l 0x4A00 0x0B = true := by decide) (hD : apart l 0x4A00 0x0D = true := by decide)
    (hE : apart l 0x4A00 0x0E = true := by decide) : b.rxCells i = a.rxCells i := by
  unfold State.rxCells State.linkOffset State.rxChans State.rxN State.rxRate State.rxg
  rw [h.gOf hC, h.gOf hB, h.gOf hD, h.gOf hE]

/-- A receive stream that starts takes its cells and waits. -/
theorem Tx.rxStart_starts (t : Tx s0) {i : ℕ} (hi : i < 256) : (t.rxStart i).cur.g 0x4A00 i 0x12 = 1 ∧
    (t.rxStart i).cur.rx i = { RxStream.init with cells := t.cur.rxCells i } ∧
    (t.rxStart i).cur.g 0x4900 0 0x03 = (t.cur.g 0x4900 0 0x03 + t.cur.rxCells i) % 2 ^ 32 := by
  unfold Tx.rxStart
  extract_lets n u v
  have hu : u.cur.g 0x4900 0 0x03 = t.cur.g 0x4900 0 0x03 := (Tx.streamTake_keeps t ..).gOf
  have hv : v.cur.g 0x4900 0 0x03 = (t.cur.g 0x4900 0 0x03 + n) % 2 ^ 32 := by
    have hk : Keeps [.all 0x4900 [0x02]] [] (u.inc 0x4900 0 0x03 n).cur v.cur := .w (.refl ..)
    rw [hk.gOf, State.g_eq, Tx.inc_eq, Tx.w_get_same _ _ (entryAt_ent (by decide : 0 < 1) rfl), ← State.g_eq, hu]
    rfl
  clear_value v
  have hset := (v.setRx_rx i { RxStream.init with cells := n } i).trans (if_pos rfl)
  have hk := v.setRx_keeps i { RxStream.init with cells := n }
  rw [← hk.gOf] at hv
  generalize v.setRx i { RxStream.init with cells := n } = w at hset hv
  have hrest : Keeps [.all 0x4A00 [0x12, 0x1F, 0x21]] [] w.cur ((w.w 0x4A00 i 0x1F 0).rxTo i 1).cur := .step (Tx.rxTo_keeps ..) (.w (.refl
    ..))
  exact ⟨Tx.rxTo_state _ hi (by decide), by rw [State.rx_congr (congrArg Net.rx (hrest.net (by decide))), hset], by rw [hrest.gOf, hv]⟩

theorem Tx.rxStart_other (t : Tx s0) {i n : ℕ} (hi : i < 65536) (hn : n < 65536) (h : n ≠ i) : RxStays n t.cur (t.rxStart i).cur := by
  have hto : ∀ u : Tx s0, RxStays n u.cur (u.rxTo i 1).cur := fun u => by
    unfold Tx.rxTo
    split
    · exact .refl ..
    · have hk : Keeps [.all 0x4A00 [0x21]] [] (u.w 0x4A00 i 0x12 1).cur (((u.w 0x4A00 i 0x12 1).when (1 == 4)
          (fun t => t.flagBit 0x4A00 i 0x21 0)).rxMsg i 0 u.cur.now).cur := .step (Tx.rxMsg_keeps ..) (.refl ..)
      refine RxStays.trans ⟨State.rx_congr ?_ n, Tx.w_g_other u hi hn h⟩ (.of hk (.of hk))
      exact congrArg Net.rx (Kept.net (E := fun _ => True) (M := []) (.wKey (.refl ..) trivial) (by decide))
  unfold Tx.rxStart
  extract_lets m u v
  have hv : Keeps [⟨0, 0x49FF, none, []⟩] [] t.cur v.cur := .w (.inc (.step (Tx.streamTake_keeps ..) (.refl ..)))
  have hvs : RxStays n t.cur v.cur := .of hv (.of hv)
  clear_value v
  have hset : RxStays n v.cur (v.setRx i { RxStream.init with cells := m }).cur :=
    ⟨(v.setRx_rx ..).trans (if_neg h), (Tx.setRx_keeps ..).gOf⟩
  generalize v.setRx i { RxStream.init with cells := m } = w at hset
  have hw : Keeps [.all 0x4A00 [0x1F]] [] w.cur (w.w 0x4A00 i 0x1F 0).cur := .w (.refl ..)
  exact (hvs.trans hset).trans ((RxStays.of hw (.of hw)).trans (hto _))

/-! ## Receive streams begin -/

/-! What an enable of a stream looks at rests on the dictionary alone. -/

theorem State.listed_congr (h : b.dict = a.dict) (i c : ℕ) : b.listed i c = a.listed i c := by
  unfold State.listed
  rw [h]

theorem State.g_congr (h : b.dict = a.dict) (i n c : ℕ) : b.g i n c = a.g i n c := by
  unfold State.g State.get
  rw [h]

theorem State.domainFits_congr (h : b.dict = a.dict) (dom dir c : ℕ) : b.domainFits dom dir c = a.domainFits dom dir c := by
  unfold State.domainFits State.bridgeFits State.asrcFree
  simp only [State.g_congr h]

theorem State.rateDomain_congr (h : b.dict = a.dict) (fs : ℕ) : b.rateDomain fs = a.rateDomain fs := by
  unfold State.rateDomain State.fB State.fA
  simp only [State.g_congr h]

theorem State.rxEnable_congr (h : b.dict = a.dict) (n : ℕ) :
    b.rxLimits n = a.rxLimits n ∧ b.rxFits n = a.rxFits n ∧ b.rxLane n = a.rxLane n ∧ b.rxPaths n = a.rxPaths n := by
  have hg := State.g_congr h
  have ho := State.on_congr hg
  have hpaths : b.rxPaths n = a.rxPaths n := by
    unfold State.rxPaths State.rxg
    simp only [hg, ho]
  refine ⟨?_, ?_, ?_, hpaths⟩
  · unfold State.rxLimits State.rxN State.rxChans State.rxB State.rxRate State.rxg
    simp only [hg]
  · have hrate : b.rxRate = a.rxRate := funext fun i => hg ..
    have hchans : b.rxChans = a.rxChans := funext fun i => hg ..
    have hothers : b.rxOthers n = a.rxOthers n := by
      unfold State.rxOthers
      simp only [State.listed_congr h, ho]
    have hcells : b.rxCells n = a.rxCells n := by
      unfold State.rxCells State.linkOffset State.rxN State.rxg
      simp only [hrate, hchans, hg]
    unfold State.rxFits State.fA
    simp only [hrate, hchans, hothers, hcells, State.domainFits_congr h, State.rateDomain_congr h, hg]
  · unfold State.rxLane State.laneSlow
    simp only [hpaths, hg]

section
variable {h n : ℕ} {d : Bytes} (hc : s.clocked = true) (hk : s.writeCheck h (opOf 0x4A00 n 0x01 d) = stOK)
  (hd : leNat d = 1) (ho : s.on 0x4A00 n 0x01 = false) (hl : s.rxLimits n = true) (hf : s.rxFits n = true)
include hc hk hd ho hl hf

/-- What an enable of a receive stream within the limits does. -/
theorem rxEnable_run {P : State → Prop} (u : Tx s) (hu : (if !s.engines.running then (((Tx.start s).status stOK).w 0x4A00 n 0x01 1).rxTo
      n 5 else if !s.rxLane n then (((Tx.start s).status stOK).w 0x4A00 n 0x01 1).rxTo n 4 else
      (((Tx.start s).status stOK).w 0x4A00 n 0x01 1).rxStart n) = u)
    (hP : ∀ t, Kept (fun _ => False) [] (u.each (s.rxPaths n) (fun t p => if isGroup p.2.1 then t.igmpJoin p.1 p.2.1 else t)).cur t →
      P t) : ∃ t, exec (.receiveStreamEnable h n d) s = .next t ∧ P t := by
  change ∃ t, execReceiveStreamEnable h n d s = .next t ∧ _
  unfold execReceiveStreamEnable
  obtain ⟨el, ef, elane, epaths⟩ := State.rxEnable_congr (a := s) (b := ((Tx.start s).status stOK).cur) rfl n
  have hrule : rxEnableRule n d ((Tx.start s).status stOK) =
      u.each (s.rxPaths n) (fun t p => if isGroup p.2.1 then t.igmpJoin p.1 p.2.1 else t) := by
    unfold rxEnableRule
    dsimp only
    rw [hd, show ((Tx.start s).status stOK).cur.on 0x4A00 n 0x01 = false from ho, el, ef, elane, epaths, hl, hf, ← hu]
    rfl
  exact run_to hc _ ((guarded_start hk _).trans hrule) hP

end

/-- Joining groups leaves a receive stream. -/
theorem Tx.joins_keep (t : Tx s0) (l : List (ℕ × ℕ × ℕ)) (n : ℕ) :
    RxStays n t.cur (t.each l (fun t p => if isGroup p.2.1 then t.igmpJoin p.1 p.2.1 else t)).cur ∧
      Keeps [.all 0x4800 [0x0B, 0x16, 0x17], .all 0x4900 [0x02, 0x04], .all 0x4C00 [0x15, 0x19, 0x1B], .all 0x5001 [0x19, 0x1B],
        .all 0x5010 [0x03], .all 0x5300 [0x01, 0x02, 0x03, 0x04, 0x06], .ctr 118 123, .ctr 140 140, .ctr 141 141] [.outs, .net, .time]
        t.cur (t.each l (fun t p => if isGroup p.2.1 then t.igmpJoin p.1 p.2.1 else t)).cur := by
  refine ⟨Tx.each_inv (P := fun u => RxStays n t.cur u) l (.refl ..) fun u p hu => ?_, .each (fun u p => .ite (.step
    (Tx.igmpJoin_keeps ..) (.refl ..)) (.refl ..)) (.refl ..)⟩
  split
  · exact hu.trans ⟨State.rx_congr (u.igmpSend_sends p.1 p.2.1 1).rx n, (u.igmpJoin_keeps ..).gOf⟩
  · exact hu

theorem receiveStreamEnable_waits (hc : s.clocked = true) {h n : ℕ} {d : Bytes} (hn : n < 256)
    (hk : s.writeCheck h (opOf 0x4A00 n 0x01 d) = stOK) (hd : leNat d = 1) (ho : s.on 0x4A00 n 0x01 = false)
    (hl : s.rxLimits n = true) (hf : s.rxFits n = true) (hr : s.engines.running = true) (hlane : s.rxLane n = true) :
    ∃ t, exec (.receiveStreamEnable h n d) s = .next t ∧ t.g 0x4A00 n 0x01 = 1 ∧ t.g 0x4A00 n 0x12 = 1 ∧
      t.rx n = { RxStream.init with cells := s.rxCells n } ∧ t.g 0x4900 0 0x03 = s.g 0x4900 0 0x03 + s.rxCells n := by
  refine rxEnable_run hc hk hd ho hl hf ((((Tx.start s).status stOK).w 0x4A00 n 0x01 1).rxStart n)
    (by rw [hr, hlane, if_neg (by decide), if_neg (by decide)]) fun t ht => ?_
  have hw : Keeps [.all 0x4A00 [0x01]] [] ((Tx.start s).status stOK).cur (((Tx.start s).status stOK).w 0x4A00 n 0x01 1).cur :=
    .w (.refl ..)
  have hon : (((Tx.start s).status stOK).w 0x4A00 n 0x01 1).cur.g 0x4A00 n 0x01 = 1 :=
    Tx.w_g_of (i := 0x4A00) (c := 0x01) _ (entryAt_ent hn rfl) (by decide)
  have hcells : (((Tx.start s).status stOK).w 0x4A00 n 0x01 1).cur.rxCells n = s.rxCells n := hw.rxCells n
  have hused : (((Tx.start s).status stOK).w 0x4A00 n 0x01 1).cur.g 0x4900 0 0x03 = s.g 0x4900 0 0x03 := hw.gOf.trans (begun_g ..)
  generalize ((Tx.start s).status stOK).w 0x4A00 n 0x01 1 = u at ht hon hcells hused
  obtain ⟨h12, hrx, h3⟩ := u.rxStart_starts hn
  rw [hcells] at hrx h3
  rw [← (u.rxStart_keeps n).gOf] at hon
  generalize u.rxStart n = v at ht hon h12 hrx h3
  obtain ⟨⟨hrx', h12'⟩, hjoin⟩ := v.joins_keep (s.rxPaths n) n
  refine ⟨by rw [ht.seenG, hjoin.gOf, hon], by rw [ht.seenG, h12', h12], ?_, ?_⟩
  · rw [State.rx_congr (congrArg Net.rx (ht.net (by simp))), hrx', hrx]
  · rw [ht.seenG, hjoin.gOf, h3, hused]
    refine Nat.mod_eq_of_lt ?_
    unfold State.rxFits at hf
    simp only [Bool.and_eq_true, decide_eq_true_eq] at hf
    exact Nat.lt_of_le_of_lt hf.2 (by decide)

theorem receiveStreamEnable_stops (hc : s.clocked = true) {h n : ℕ} {d : Bytes} (hn : n < 256)
    (hk : s.writeCheck h (opOf 0x4A00 n 0x01 d) = stOK) (hd : leNat d = 1) (ho : s.on 0x4A00 n 0x01 = false)
    (hl : s.rxLimits n = true) (hf : s.rxFits n = true) (hr : s.engines.running = false) :
    ∃ t, exec (.receiveStreamEnable h n d) s = .next t ∧ t.g 0x4A00 n 0x01 = 1 ∧ t.g 0x4A00 n 0x12 = 5 := by
  refine rxEnable_run hc hk hd ho hl hf ((((Tx.start s).status stOK).w 0x4A00 n 0x01 1).rxTo n 5)
    (by rw [hr, if_pos (by decide)]) fun t ht => ?_
  have hon : (((Tx.start s).status stOK).w 0x4A00 n 0x01 1).cur.g 0x4A00 n 0x01 = 1 :=
    Tx.w_g_of (i := 0x4A00) (c := 0x01) _ (entryAt_ent hn rfl) (by decide)
  generalize ((Tx.start s).status stOK).w 0x4A00 n 0x01 1 = u at ht hon
  have h12 := u.rxTo_state (st := 5) hn (by decide)
  rw [← (u.rxTo_keeps n 5).gOf] at hon
  generalize u.rxTo n 5 = v at ht hon h12
  obtain ⟨⟨-, h12'⟩, hjoin⟩ := v.joins_keep (s.rxPaths n) n
  exact ⟨by rw [ht.seenG, hjoin.gOf, hon], by rw [ht.seenG, h12', h12]⟩

/-! ## Transmit streams begin -/

theorem State.txEnable_congr (h : b.dict = a.dict) (n : ℕ) :
    b.txLimits n = a.txLimits n ∧ b.txFits n = a.txFits n ∧ b.txLane n = a.txLane n := by
  have hg := State.g_congr h
  have ho := State.on_congr hg
  have hpaths : b.txPaths = a.txPaths := by
    funext i
    unfold State.txPaths State.txg
    simp only [hg, ho]
  refine ⟨?_, ?_, ?_⟩
  · unfold State.txLimits State.txN State.txChans State.txB State.txRate State.txg State.fA
    simp only [hg]
  · have hrate : b.txRate = a.txRate := funext fun i => hg ..
    have hchans : b.txChans = a.txChans := funext fun i => hg ..
    have htxg : b.txg = a.txg := funext fun i => funext fun c => hg ..
    have hothers : b.txOthers n = a.txOthers n := by
      unfold State.txOthers
      simp only [State.listed_congr h, ho]
    have hserved : b.txServed = a.txServed := by
      unfold State.txServed
      simp only [State.listed_congr h, htxg]
    have hload : b.streamLoad = a.streamLoad := by
      funext i m
      unfold State.streamLoad State.frameLen State.udpFrame State.txN State.txB
      simp only [hpaths, hrate, hchans, htxg, hg]
    have hmac : b.macLoad = a.macLoad := by
      funext m
      unfold State.macLoad
      simp only [hserved, hload]
    have hspeed : b.laneSpeed = a.laneSpeed := by
      funext m
      unfold State.laneSpeed
      simp only [hg]
    unfold State.txFits
    simp only [hrate, hchans, htxg, hothers, hpaths, hload, hmac, hspeed, State.domainFits_congr h, State.rateDomain_congr h]
  · unfold State.txLane State.laneSlow
    simp only [hpaths, hg]

/-- Whether the addresses of a transmit stream are known rests on its paths, the interfaces and what the MACs have learnt. -/
theorem Kept.txResolved {l : List Span} (h : Keeps l M a b) (harp : ∀ m, (b.macSt m).arp = (a.macSt m).arp) (i : ℕ)
    (hp : ∀ c, c = 0x02 ∨ c = 0x03 ∨ c = 0x04 ∨ c = 0x05 → apart l 0x4C00 c = true) (hF : ∀ c, c = 0x01 ∨ c = 0x02 ∨ c = 0x03 →
      apart l 0x4F00 c = true) : b.txResolved i = a.txResolved i := by
  have hpaths : b.txPaths i = a.txPaths i := by
    unfold State.txPaths State.txg
    rw [h.gOf (hp _ (.inl rfl)), h.gOf (hp 0x04 (by simp)), h.gOf (hp 0x05 (by simp)), h.onOf (hp 0x03 (by simp))]
  unfold State.txResolved State.dstMac State.nextHop State.ip
  simp only [hpaths, harp, h.gOf (hF 0x01 (by simp)), h.gOf (hF 0x02 (by simp)), h.gOf (hF 0x03 (by simp))]

theorem Kept.streamFrom {l : List Span} (h : Keeps l M a b) (fs x : ℕ) (hf : apart l 0x3F00 0x01 = true := by decide) :
    b.streamFrom fs x = a.streamFrom fs x := by
  unfold State.streamFrom State.fA
  rw [h.gOf hf]

theorem Kept.txPacket {l : List Span} (h : Keeps l M a b) (i : ℕ) (hB : apart l 0x4C00 0x0B = true := by decide)
    (hC : apart l 0x4C00 0x0C = true := by decide) : b.txN i = a.txN i ∧ b.txRate i = a.txRate i := by
  have hrate : b.txRate i = a.txRate i := h.gOf hB
  refine ⟨?_, hrate⟩
  unfold State.txN State.txg
  rw [hrate, h.gOf hC]

/-- Dropping the stale packets of a stream leaves what the MACs and the other streams hold. -/
theorem Tx.staleDrop_net (t : Tx s0) (i : ℕ) : (t.staleDrop i).cur.net.macs = t.cur.net.macs ∧ (t.staleDrop i).cur.net.rx = t.cur.net.rx ∧
    ∀ n, n ≠ i → (t.staleDrop i).cur.tx n = t.cur.tx n := by
  have hone : ∀ (u : Tx s0) (l : List (ℕ × ℕ)) k, (u.each l (fun t p => (((t.count 0x4C00 i 0x19 k).count 0x4800 p.1 0x16 k).flagBit
      0x4C00 i 0x1B 4).flagBit 0x4800 p.1 0x17 3)).cur.net = u.cur.net := fun u l k =>
    Kept.net (E := Keys [⟨0, 0x10000, none, []⟩]) (M := []) (.each (fun u p => .flagBit (.flagBit (.count (.count (.refl ..))))) (.refl ..))
      (by decide)
  unfold Tx.staleDrop
  dsimp only
  split
  · exact ⟨rfl, rfl, fun _ _ => rfl⟩
  · have hfree : ∀ (u : Tx s0) k, (u.freeCells k).cur.net = u.cur.net := fun u k =>
      Kept.net (E := fun _ => True) (M := []) (.incKey (.wKey (.refl ..) trivial) trivial) (by decide)
    refine ⟨by rw [hone, hfree]; rfl, by rw [hone, hfree]; rfl, fun n hn => ?_⟩
    rw [State.tx_congr (hone ..), State.tx_congr (hfree ..), Tx.setTxs_tx, if_neg hn]

theorem Tx.flagBit_net (t : Tx s0) (i n c b : ℕ) : (t.flagBit i n c b).cur.net = t.cur.net :=
  Kept.net (E := fun _ => True) (M := []) (.flagBitKey (.refl ..) trivial) (by decide)

theorem Tx.w_net (t : Tx s0) (i n c v : ℕ) : (t.w i n c v).cur.net = t.cur.net :=
  Kept.net (E := fun _ => True) (M := []) (.wKey (.refl ..) trivial) (by decide)

/-- A state that a transmit stream takes says at most since when. -/
theorem Tx.txTo_tx (t : Tx s0) (i st n : ℕ) : ∃ c, (t.txTo i st).cur.tx n = { t.cur.tx n with since := c } := by
  have hu : ∀ u : Tx s0, ∃ c, (u.when (st == 1) (fun t => (t.flagBit 0x4C00 i 0x1B 0).setTxs i
      { t.cur.tx i with since := t.cur.clock })).cur.tx n = { u.cur.tx n with since := c } := fun u => by
    unfold Tx.when
    split
    · rw [Tx.setTxs_tx]
      split
      · rename_i h
        exact ⟨u.cur.clock, by rw [h]⟩
      · exact ⟨_, State.tx_congr (Tx.flagBit_net ..) n⟩
    · exact ⟨_, rfl⟩
  unfold Tx.txTo
  obtain ⟨c, hc⟩ := hu ((t.w 0x4C00 i 0x14 st).when (st == 3) (fun t => t.flagBit 0x4C00 i 0x1B 5))
  have hnet : ((t.w 0x4C00 i 0x14 st).when (st == 3) (fun t => t.flagBit 0x4C00 i 0x1B 5)).cur.net = t.cur.net := by
    unfold Tx.when
    split
    · rw [Tx.flagBit_net, Tx.w_net]
    · exact Tx.w_net ..
  exact ⟨c, by rw [hc, State.tx_congr hnet]⟩

theorem Tx.txTo_nextX (t : Tx s0) (i st : ℕ) : ((t.txTo i st).cur.tx i).nextX = (t.cur.tx i).nextX := by
  obtain ⟨c, hc⟩ := t.txTo_tx i st i
  rw [hc]

theorem Tx.txTo_rx (t : Tx s0) (i st : ℕ) : (t.txTo i st).cur.net.rx = t.cur.net.rx := by
  have hu : ∀ u : Tx s0, (u.when (st == 1) (fun t => (t.flagBit 0x4C00 i 0x1B 0).setTxs i
      { t.cur.tx i with since := t.cur.clock })).cur.net.rx = u.cur.net.rx := fun u => by
    unfold Tx.when
    split
    · show (u.flagBit 0x4C00 i 0x1B 0).cur.net.rx = u.cur.net.rx
      rw [Tx.flagBit_net]
    · rfl
  unfold Tx.txTo
  dsimp only
  rw [hu]
  unfold Tx.when
  split
  · rw [Tx.flagBit_net, Tx.w_net]
  · rw [Tx.w_net]

/-- A transmit stream that starts sends from the first packet at or after a boundary, once its addresses are known. -/
theorem Tx.txStart_starts (t : Tx s0) {i : ℕ} (b : ℕ) (hi : i < 256) :
    (t.txStart i b).cur.g 0x4C00 i 0x14 = (if t.cur.txResolved i = true then 2 else 1) ∧
      ((t.txStart i b).cur.tx i).nextX =
        some (t.cur.txN i * ceilDiv (t.cur.streamFrom (t.cur.txRate i) b) (t.cur.txN i)) := by
  have hstale := t.staleDrop_keeps i
  obtain ⟨hmacs, -, -⟩ := t.staleDrop_net i
  have hn := (hstale.txPacket i).1
  have hr := (hstale.txPacket i).2
  unfold Tx.txStart
  dsimp only
  rw [hn, hr, hstale.streamFrom]
  generalize t.staleDrop i = u at *
  have htake := u.streamTake_keeps i (u.cur.rateDomain (t.cur.txRate i)) 1 (u.cur.txChans i)
  generalize u.streamTake i (u.cur.rateDomain (t.cur.txRate i)) 1 (u.cur.txChans i) = v at htake ⊢
  generalize t.cur.txN i * ceilDiv (t.cur.streamFrom (t.cur.txRate i) b) (t.cur.txN i) = x
  have hres : ∀ y, (v.setTxs i y).cur.txResolved i = t.cur.txResolved i := fun y => by
    have hk : Keeps [⟨0, 0x4BFF, none, []⟩, .all 0x4C00 [0x19, 0x1B]] [.net] t.cur (v.setTxs i y).cur := .step (Tx.setTxs_keeps ..)
      (.step htake (hstale.widen (by decide) (by decide)))
    refine hk.txResolved (fun m => ?_) i (by rintro c (rfl | rfl | rfl | rfl) <;> rfl) (by rintro c (rfl | rfl | rfl) <;> rfl)
    have hnet : (v.setTxs i y).cur.net.macs = t.cur.net.macs := (congrArg Net.macs (htake.net (by decide))).trans hmacs
    unfold State.macSt
    rw [hnet]
  have hlast : ∀ w : Tx s0, w.showLoad.cur.g 0x4C00 i 0x14 = w.cur.g 0x4C00 i 0x14 ∧ (w.showLoad.cur.tx i).nextX = (w.cur.tx i).nextX :=
    fun w => ⟨(Tx.showLoad_keeps w).gOf, congrArg TxStream.nextX (State.tx_congr ((Tx.showLoad_keeps w).net (by decide)) i)⟩
  have hto : ∀ (w : Tx s0) st, ((w.txTo i st).cur.tx i).nextX = (w.cur.tx i).nextX := fun w st => w.txTo_nextX i st
  rw [(hlast _).1, (hlast _).2, hres]
  split
  · exact ⟨Tx.txTo_state _ hi (by decide), (hto ..).trans (congrArg TxStream.nextX ((Tx.setTxs_tx ..).trans (if_pos rfl)))⟩
  · refine ⟨((Tx.txAsk_keeps ..).gOf).trans (Tx.txTo_state _ hi (by decide)), ?_⟩
    obtain ⟨f, hf⟩ := (Tx.txAsk_sends (Tx.txTo (v.setTxs i _) i 1) i).tx i
    rw [hf]
    exact (hto ..).trans (congrArg TxStream.nextX ((Tx.setTxs_tx ..).trans (if_pos rfl)))

theorem txRule_enables (t : Tx s0) {n : ℕ} {d : Bytes} (hd : leNat d = 1) (ho : t.cur.on 0x4C00 n 0x01 = false)
    (hl : t.cur.txLimits n = true) (hf : t.cur.txFits n = true) : txEnableRule n d t =
      if !t.cur.engines.running then ((t.w 0x4C00 n 0x01 1).w 0x4C00 n 0x1A 0).txTo n 4
      else if !t.cur.txLane n then ((t.w 0x4C00 n 0x01 1).w 0x4C00 n 0x1A 0).txTo n 3
      else ((t.w 0x4C00 n 0x01 1).w 0x4C00 n 0x1A 0).txStart n (nextBlock t.cur.now) := by
  unfold txEnableRule
  simp only [hd, ho, hl, hf, beq_self_eq_true, Bool.true_eq_false, beq_iff_eq, Bool.not_true, Bool.or_self, Bool.false_eq_true, if_false,
    if_true]

section
variable {h n : ℕ} {d : Bytes} (hc : s.clocked = true) (hn : n < 256) (hk : s.writeCheck h (opOf 0x4C00 n 0x01 d) = stOK)
  (hd : leNat d = 1) (ho : s.on 0x4C00 n 0x01 = false) (hl : s.txLimits n = true) (hf : s.txFits n = true)
include hc hn hk hd ho hl hf

/-- What an enable of a transmit stream within the limits does. -/
theorem txEnable_run {P : State → Prop} (hP : ∀ (u : Tx s) t, u.cur.g 0x4C00 n 0x01 = 1 → u.cur.g 0x4C00 n 0x1A = 0 →
      Keeps [.all 0x4C00 [0x01, 0x1A]] [.result] (Tx.start s).cur u.cur → u.cur.net = s.net →
      Kept (fun _ => False) [] (if !s.engines.running then u.txTo n 4 else if !s.txLane n then u.txTo n 3 else
        u.txStart n (nextBlock s.now)).cur t → P t) : ∃ t, exec (.transmitStreamEnable h n d) s = .next t ∧ P t := by
  change ∃ t, execTransmitStreamEnable h n d s = .next t ∧ _
  unfold execTransmitStreamEnable
  obtain ⟨el, ef, elane⟩ := State.txEnable_congr (a := s) (b := ((Tx.start s).status stOK).cur) rfl n
  have hrule := txRule_enables ((Tx.start s).status stOK) hd ((State.on_congr (begun_g stOK) ..).trans ho) (el.trans hl) (ef.trans hf)
  rw [elane] at hrule
  have hrun : ((Tx.start s).status stOK).cur.engines.running = s.engines.running := rfl
  have hnow : ((Tx.start s).status stOK).cur.now = s.now := rfl
  rw [hrun, hnow] at hrule
  have hw : Keeps [.all 0x4C00 [0x1A]] [] (((Tx.start s).status stOK).w 0x4C00 n 0x01 1).cur
    ((((Tx.start s).status stOK).w 0x4C00 n 0x01 1).w 0x4C00 n 0x1A 0).cur := .w (.refl ..)
  have hon : ((((Tx.start s).status stOK).w 0x4C00 n 0x01 1).w 0x4C00 n 0x1A 0).cur.g 0x4C00 n 0x01 = 1 :=
    hw.gOf.trans (Tx.w_g_of (i := 0x4C00) (c := 0x01) _ (entryAt_ent hn rfl) (by decide))
  have hseq : ((((Tx.start s).status stOK).w 0x4C00 n 0x01 1).w 0x4C00 n 0x1A 0).cur.g 0x4C00 n 0x1A = 0 :=
    Tx.w_g_of (i := 0x4C00) (c := 0x1A) _ (entryAt_ent hn rfl) (by decide)
  have hall : Keeps [.all 0x4C00 [0x01, 0x1A]] [.result] (Tx.start s).cur
    ((((Tx.start s).status stOK).w 0x4C00 n 0x01 1).w 0x4C00 n 0x1A 0).cur := .w (.w (.status (.refl ..)))
  have hnet : ((((Tx.start s).status stOK).w 0x4C00 n 0x01 1).w 0x4C00 n 0x1A 0).cur.net = s.net := hall.net (by decide)
  generalize (((Tx.start s).status stOK).w 0x4C00 n 0x01 1).w 0x4C00 n 0x1A 0 = u at hrule hon hseq hall hnet
  exact run_to hc _ ((guarded_start hk _).trans hrule) fun t ht => hP u t hon hseq hall hnet ht

theorem transmitStreamEnable_sends (hr : s.engines.running = true) (hlane : s.txLane n = true) :
    ∃ t, exec (.transmitStreamEnable h n d) s = .next t ∧ t.g 0x4C00 n 0x01 = 1 ∧
      t.g 0x4C00 n 0x14 = (if s.txResolved n = true then 2 else 1) ∧ t.g 0x4C00 n 0x1A = 0 ∧
      (t.tx n).nextX = some (s.txN n * ceilDiv (s.streamFrom (s.txRate n) (nextBlock s.now)) (s.txN n)) := by
  refine txEnable_run hc hn hk hd ho hl hf fun u t hon hseq hall hnet ht => ?_
  rw [hr, hlane, if_neg (by decide), if_neg (by decide)] at ht
  obtain ⟨h14, hx⟩ := u.txStart_starts (nextBlock s.now) hn
  have hstart := u.txStart_keeps n (nextBlock s.now)
  obtain ⟨hN, hR⟩ := hall.txPacket n
  have hres := hall.txResolved (fun m => congrArg MacSt.arp (State.macSt_congr (a := s) hnet m)) n
    (by rintro c (rfl | rfl | rfl | rfl) <;> rfl) (by rintro c (rfl | rfl | rfl) <;> rfl)
  rw [hN, hR, hall.streamFrom] at hx
  rw [hres] at h14
  exact ⟨by rw [ht.seenG, hstart.gOf, hon], by rw [ht.seenG, h14]; rfl, by rw [ht.seenG, hstart.gOf, hseq],
    by rw [State.tx_congr (ht.net (by simp)), hx]; rfl⟩

theorem transmitStreamEnable_stops (hr : s.engines.running = false) :
    ∃ t, exec (.transmitStreamEnable h n d) s = .next t ∧ t.g 0x4C00 n 0x01 = 1 ∧ t.g 0x4C00 n 0x14 = 4 := by
  refine txEnable_run hc hn hk hd ho hl hf fun u t hon hseq hall hnet ht => ?_
  rw [hr, if_pos (by decide)] at ht
  exact ⟨by rw [ht.seenG, (u.txTo_keeps n 4).gOf, hon], by rw [ht.seenG, u.txTo_state hn (by decide)]⟩

end

/-! ## Streams end -/

/-- A transmit stream, what it queues and its state stand alike in two states. -/
def TxStays (n : ℕ) (a b : State) : Prop :=
  (b.tx n).queue = (a.tx n).queue ∧ (b.tx n).nextX = (a.tx n).nextX ∧ b.g 0x4C00 n 0x14 = a.g 0x4C00 n 0x14

theorem TxStays.refl (n : ℕ) (a : State) : TxStays n a a := ⟨rfl, rfl, rfl⟩

theorem TxStays.trans {n : ℕ} {c : State} (h : TxStays n a b) (g : TxStays n b c) : TxStays n a c :=
  ⟨g.1.trans h.1, g.2.1.trans h.2.1, g.2.2.trans h.2.2⟩

theorem TxStays.of {n : ℕ} {l : List Span} (h : Keeps l M a b) (hs : Sends a b) (hk : apart l 0x4C00 0x14 = true := by decide) :
    TxStays n a b := by
  obtain ⟨f, hf⟩ := hs.tx n
  exact ⟨by rw [hf], by rw [hf], h.gOf hk⟩

theorem TxStays.plain {n : ℕ} {l : List Span} (h : Keeps l M a b) (hk : apart l 0x4C00 0x14 = true := by decide)
    (hm : Part.net ∉ M := by decide) : TxStays n a b := .of h (.of h hm) hk

theorem Tx.setRx_tx (t : Tx s0) (i : ℕ) (x : RxStream) : (t.setRx i x).cur.net.tx = t.cur.net.tx := rfl

theorem Tx.rxStart_tx (t : Tx s0) (i n : ℕ) : TxStays n t.cur (t.rxStart i).cur := by
  have hnet : (t.rxStart i).cur.net.tx = t.cur.net.tx := by
    unfold Tx.rxStart
    extract_lets m u v
    have hv : Keeps [⟨0, 0x49FF, none, []⟩] [] t.cur v.cur := .w (.inc (.step (Tx.streamTake_keeps ..) (.refl ..)))
    clear_value v
    have hrest : Keeps [.all 0x4A00 [0x12, 0x1F, 0x21]] [] (v.setRx i { RxStream.init with cells := m }).cur
      (((v.setRx i { RxStream.init with cells := m }).w 0x4A00 i 0x1F 0).rxTo i 1).cur := .step (Tx.rxTo_keeps ..) (.w (.refl ..))
    exact (congrArg Net.tx (hrest.net (by decide))).trans ((Tx.setRx_tx ..).trans (congrArg Net.tx (hv.net (by decide))))
  have htx : (t.rxStart i).cur.tx n = t.cur.tx n := by
    unfold State.tx
    rw [hnet]
  exact ⟨by rw [htx], by rw [htx], (t.rxStart_keeps i).gOf⟩

theorem Tx.txStart_rx (t : Tx s0) (i b n : ℕ) : RxStays n t.cur (t.txStart i b).cur := by
  refine ⟨State.rx_congr ?_ n, (t.txStart_keeps i b).gOf⟩
  have hasks := fun u : Tx s0 => (u.txAsk_sends i).rx
  have hto : ∀ (u : Tx s0) st, (u.txTo i st).cur.net.rx = u.cur.net.rx := fun u st => u.txTo_rx i st
  obtain ⟨-, hstale, -⟩ := t.staleDrop_net i
  unfold Tx.txStart
  extract_lets u m fs y v s had src w z
  have hv : v.cur.net.rx = t.cur.net.rx := (congrArg Net.rx ((Tx.streamTake_keeps u i _ 1 _).net (by decide))).trans hstale
  have hw : w.cur.net.rx = t.cur.net.rx := hv
  clear_value w
  have hz : z.cur.net.rx = t.cur.net.rx := by
    unfold z
    split
    · rw [hto, hw]
    · rw [hasks, hto, hw]
  rw [congrArg Net.rx ((Tx.showLoad_keeps _).net (by decide)), hz]

theorem Tx.txTo_other (t : Tx s0) {i n st : ℕ} (hi : i < 65536) (hn : n < 65536) (h : n ≠ i) : TxStays n t.cur (t.txTo i st).cur := by
  have hk : ∀ u : Tx s0, Keeps [.all 0x4C00 [0x1B]] [.net] u.cur ((u.when (st == 3) (fun t => t.flagBit 0x4C00 i 0x1B 5)).when (st == 1)
      (fun t => (t.flagBit 0x4C00 i 0x1B 0).setTxs i { t.cur.tx i with since := t.cur.clock })).cur := fun u =>
    .when (fun _ => .step (Tx.setTxs_keeps ..) (.flagBit (.refl ..))) (.when (fun _ => .flagBit (.refl ..)) (.refl ..))
  obtain ⟨c, hc⟩ := t.txTo_tx i st n
  exact ⟨by rw [hc], by rw [hc], (hk _).gOf.trans (Tx.w_g_other t hi hn h)⟩

theorem Tx.txStart_other (t : Tx s0) {i n : ℕ} (b : ℕ) (hi : i < 65536) (hn : n < 65536) (h : n ≠ i) :
    TxStays n t.cur (t.txStart i b).cur := by
  obtain ⟨-, -, hstale⟩ := t.staleDrop_net i
  have hold := t.staleDrop_keeps i
  unfold Tx.txStart
  extract_lets u m fs y v s had src w z
  have htake := u.streamTake_keeps i (u.cur.rateDomain fs) 1 (u.cur.txChans i)
  have hw : TxStays n t.cur w.cur := by
    have htx : w.cur.tx n = t.cur.tx n := by
      rw [show w.cur.tx n = v.cur.tx n from (Tx.setTxs_tx ..).trans (if_neg h), State.tx_congr (htake.net (by decide)), hstale n h]
    have h14 : w.cur.g 0x4C00 n 0x14 = t.cur.g 0x4C00 n 0x14 := by
      rw [Kept.gOf (l := []) (Tx.setTxs_keeps v i _), htake.gOf, hold.gOf]
    exact ⟨by rw [htx], by rw [htx], h14⟩
  clear_value w
  have hz : TxStays n t.cur z.cur := by
    unfold z
    split
    · exact hw.trans (w.txTo_other hi hn h)
    · exact (hw.trans (w.txTo_other hi hn h)).trans (.of (Tx.txAsk_keeps ..) (Tx.txAsk_sends ..))
  exact hz.trans (.plain (Tx.showLoad_keeps _))

theorem listed_lt {i c j : ℕ} (h : j ∈ s.listed i c) : j < 65536 := by
  unfold State.listed at h
  obtain ⟨p, -, rfl⟩ := List.mem_map.mp h
  exact Nat.mod_lt _ (by decide)

theorem Tx.each_mem_inv {α : Type} {P : State → Prop} {f : Tx s0 → α → Tx s0} : ∀ {t : Tx s0} (l : List α), P t.cur →
    (∀ (u : Tx s0) x, x ∈ l → P u.cur → P (f u x).cur) → P (t.each l f).cur
  | _, [], h, _ => h
  | _, x :: l, h, hf => Tx.each_mem_inv l (hf _ x (.head _) h) fun u y hy => hf u y (.tail _ hy)

/-- What is HELD and is looked at again leaves a receive stream that is not. -/
theorem Tx.heldLook_rx (t : Tx s0) {n : ℕ} (hn : n < 65536) (h4 : t.cur.g 0x4A00 n 0x12 ≠ 4) : RxStays n t.cur t.heldLook.cur := by
  have hports := t.portsLook_keeps
  unfold Tx.heldLook
  refine Tx.each_inv (P := fun u => RxStays n t.cur u) _ (Tx.each_mem_inv (P := fun u => RxStays n t.cur u) _ (.of hports (.of hports))
    fun u i hi hu => ?_) fun u i hu => ?_
  · split
    · rename_i hstart
      refine hu.trans (u.rxStart_other (listed_lt hi) hn fun h => h4 ?_)
      simp only [Bool.and_eq_true, beq_iff_eq] at hstart
      rw [← hu.2, h]
      exact hstart.1.1.1
    · exact hu
  · split
    · exact hu.trans (u.txStart_rx ..)
    · exact hu

/-- What is HELD and is looked at again leaves a transmit stream that is not. -/
theorem Tx.heldLook_tx (t : Tx s0) {n : ℕ} (hn : n < 65536) (h3 : t.cur.g 0x4C00 n 0x14 ≠ 3) : TxStays n t.cur t.heldLook.cur := by
  have hports := t.portsLook_keeps
  unfold Tx.heldLook
  refine Tx.each_mem_inv (P := fun u => TxStays n t.cur u) _ (Tx.each_inv (P := fun u => TxStays n t.cur u) _ (.plain hports)
    fun u i hu => ?_) fun u i hi hu => ?_
  · split
    · exact hu.trans (u.rxStart_tx ..)
    · exact hu
  · split
    · rename_i hstart
      refine hu.trans (u.txStart_other _ (listed_lt hi) hn fun h => h3 ?_)
      simp only [Bool.and_eq_true, beq_iff_eq] at hstart
      rw [← hu.2.2, h]
      exact hstart.1.1.1
    · exact hu

theorem rxRule_disables (t : Tx s0) {n : ℕ} {d : Bytes} (hd : leNat d = 0) (ho : t.cur.on 0x4A00 n 0x01 = true)
    (hs : t.cur.rxServed.contains n = true) : rxEnableRule n d t =
      ((((t.w 0x4A00 n 0x01 0).rxEnd n).rxTo n 0).each (t.cur.rxPaths n) (fun t p =>
        if isGroup p.2.1 && !((t.cur.streamGroups p.1).any (fun g => g.1 == p.2.1)) then t.igmpSend p.1 p.2.1 2 else t)).heldLook := by
  unfold rxEnableRule
  dsimp only
  rw [hd, ho, hs]
  rfl

theorem Tx.rxEnd_rx (t : Tx s0) (n : ℕ) : (t.rxEnd n).cur.rx n = RxStream.init := by
  unfold Tx.rxEnd
  dsimp only
  rw [State.rx_congr (congrArg Net.rx (Tx.w_net ..)), Tx.setRx_rx, if_pos rfl]

theorem streamDisable_rx (hc : s.clocked = true) {h n : ℕ} {d : Bytes} (hn : n < 256) (hk : s.writeCheck h (opOf 0x4A00 n 0x01 d) = stOK)
    (hd : leNat d = 0) (ho : s.on 0x4A00 n 0x01 = true) (hs : s.rxServed.contains n = true) :
    ∃ t, exec (.streamDisable h false n d) s = .next t ∧ t.g 0x4A00 n 0x01 = 0 ∧ t.g 0x4A00 n 0x12 = 0 ∧ t.rx n = RxStream.init := by
  change ∃ t, execStreamDisable h false n d s = .next t ∧ _
  unfold execStreamDisable
  have hserved : ((Tx.start s).status stOK).cur.rxServed = s.rxServed := by
    unfold State.rxServed
    rw [State.listed_congr (a := s) rfl]
    rfl
  refine run_to hc _ ((if_neg (by decide)).trans ((guarded_start hk _).trans (rxRule_disables _ hd ((State.on_congr (begun_g stOK)
    ..).trans ho) (by rw [hserved, hs])))) fun t ht => ?_
  generalize ((Tx.start s).status stOK).cur.rxPaths n = paths at ht
  have hoff : (((Tx.start s).status stOK).w 0x4A00 n 0x01 0).cur.g 0x4A00 n 0x01 = 0 :=
    Tx.w_g_of (i := 0x4A00) (c := 0x01) _ (entryAt_ent hn rfl) (by decide)
  generalize ((Tx.start s).status stOK).w 0x4A00 n 0x01 0 = u at ht hoff
  have hrx := u.rxEnd_rx n
  rw [← (u.rxEnd_keeps n).gOf] at hoff
  generalize u.rxEnd n = v at ht hoff hrx
  have hto := v.rxTo_keeps n 0
  have h12 := v.rxTo_state (st := 0) hn (by decide)
  rw [← hto.gOf] at hoff
  rw [← State.rx_congr (congrArg Net.rx (hto.net (by decide)))] at hrx
  generalize v.rxTo n 0 = w at ht hoff hrx h12
  have hleave : Keeps [⟨0, 0x49FF, none, []⟩, ⟨0x4A01, 0x10000, none, []⟩] [.outs, .net, .time] w.cur (w.each paths (fun t p =>
      if isGroup p.2.1 && !((t.cur.streamGroups p.1).any (fun g => g.1 == p.2.1)) then t.igmpSend p.1 p.2.1 2 else t)).cur :=
    .each (fun _ _ => .ite (.step (Tx.igmpSend_keeps ..) (.refl ..)) (.refl ..)) (.refl ..)
  have hsend : Sends w.cur (w.each paths (fun t p =>
      if isGroup p.2.1 && !((t.cur.streamGroups p.1).any (fun g => g.1 == p.2.1)) then t.igmpSend p.1 p.2.1 2 else t)).cur :=
    .each (fun u p => .ite (u.igmpSend_sends ..) (.refl _)) (.refl _)
  have hstay := RxStays.of (n := n) hleave hsend
  rw [← hleave.gOf] at hoff
  generalize w.each paths _ = x at ht hoff hstay
  have hheld := x.heldLook_rx (n := n) (Nat.lt_trans hn (by decide)) (by rw [hstay.2, h12]; decide)
  exact ⟨by rw [ht.seenG, (Tx.heldLook_keeps x).gOf, hoff], by rw [ht.seenG, hheld.2, hstay.2, h12],
    by rw [State.rx_congr (congrArg Net.rx (ht.net (by simp))), hheld.1, hstay.1, hrx]⟩

theorem txRule_disables (t : Tx s0) {n : ℕ} {d : Bytes} (hd : leNat d = 0) (ho : t.cur.on 0x4C00 n 0x01 = true)
    (hs : t.cur.txServed.contains n = true) :
    txEnableRule n d t = ((((t.w 0x4C00 n 0x01 0).txEnd n false).txTo n 0).heldLook).showLoad := by
  unfold txEnableRule
  dsimp only
  rw [hd, ho, hs]
  rfl

/-- A transmit stream that ends queues nothing and collects no samples. -/
theorem Tx.txEnd_empties (t : Tx s0) (n : ℕ) : ((t.txEnd n false).cur.tx n).queue = [] ∧ ((t.txEnd n false).cur.tx n).nextX = none := by
  have hflush : ((t.txFlush n false).cur.tx n).queue = [] ∧ ((t.txFlush n false).cur.tx n).nextX = none := by
    unfold Tx.txFlush
    dsimp only
    rw [if_neg (by decide), Tx.setTxs_tx, if_pos rfl]
    exact ⟨by simp, rfl⟩
  have hdrop : ∀ u : Tx s0, ∀ dom c, (u.streamDrop n dom 1 c).cur.tx n = u.cur.tx n := fun u dom c =>
    State.tx_congr ((Tx.streamDrop_keeps u n dom 1 c).net (by decide)) n
  unfold Tx.txEnd
  rw [hdrop]
  exact hflush

theorem streamDisable_tx (hc : s.clocked = true) {h n : ℕ} {d : Bytes} (hn : n < 256) (hk : s.writeCheck h (opOf 0x4C00 n 0x01 d) = stOK)
    (hd : leNat d = 0) (ho : s.on 0x4C00 n 0x01 = true) (hs : s.txServed.contains n = true) :
    ∃ t, exec (.streamDisable h true n d) s = .next t ∧ t.g 0x4C00 n 0x01 = 0 ∧ t.g 0x4C00 n 0x14 = 0 ∧
      (t.tx n).queue = [] ∧ (t.tx n).nextX = none := by
  change ∃ t, execStreamDisable h true n d s = .next t ∧ _
  unfold execStreamDisable
  have hserved : ((Tx.start s).status stOK).cur.txServed = s.txServed := by
    unfold State.txServed
    rw [State.listed_congr (a := s) rfl]
    rfl
  refine run_to hc _ ((if_pos (by decide)).trans ((guarded_start hk _).trans (txRule_disables _ hd ((State.on_congr (begun_g stOK)
    ..).trans ho) (by rw [hserved, hs])))) fun t ht => ?_
  have hoff : (((Tx.start s).status stOK).w 0x4C00 n 0x01 0).cur.g 0x4C00 n 0x01 = 0 :=
    Tx.w_g_of (i := 0x4C00) (c := 0x01) _ (entryAt_ent hn rfl) (by decide)
  generalize ((Tx.start s).status stOK).w 0x4C00 n 0x01 0 = u at ht hoff
  obtain ⟨hq, hx⟩ := u.txEnd_empties n
  rw [← (u.txEnd_keeps n false).gOf] at hoff
  generalize u.txEnd n false = v at ht hoff hq hx
  have h14 := v.txTo_state (st := 0) hn (by decide)
  obtain ⟨c, hsame⟩ := v.txTo_tx n 0 n
  rw [← (v.txTo_keeps n 0).gOf] at hoff
  generalize v.txTo n 0 = w at ht hoff h14 hsame
  have hheld := (w.heldLook_tx (n := n) (Nat.lt_trans hn (by decide)) (by rw [h14]; decide)).trans (.plain (Tx.showLoad_keeps _))
  have hk : Keeps [⟨0, 0x4BFF, none, []⟩, .all 0x4C00 [0x14, 0x15, 0x19, 0x1B], ⟨0x4C01, 0x10000, none, []⟩] [.outs, .serial, .net, .time]
    w.cur w.heldLook.showLoad.cur := .step (Tx.showLoad_keeps _) (.step (Tx.heldLook_keeps _) (.refl ..))
  rw [ht.seenG, ht.seenG, State.tx_congr (ht.net (by simp)), hk.gOf, hoff, hheld.2.2, h14, hheld.1, hheld.2.1, hsame]
  exact ⟨rfl, rfl, hq, hx⟩

/-- Settles O27, clause by clause: streams enabled with the engines running and standing, and disabled. -/
theorem streamsComplete : Obligations.StreamsComplete := by
  unfold Obligations.StreamsComplete
  intro s h n d hc hn
  exact ⟨fun hk hd ho hl hf => ⟨fun hr hlane => receiveStreamEnable_waits hc hn hk hd ho hl hf hr hlane,
    fun hr => receiveStreamEnable_stops hc hn hk hd ho hl hf hr⟩, fun hk hd ho hl hf => ⟨fun hr hlane =>
    transmitStreamEnable_sends hc hn hk hd ho hl hf hr hlane, fun hr => transmitStreamEnable_stops hc hn hk hd ho hl hf hr⟩,
    fun hk hd ho hs => streamDisable_rx hc hn hk hd ho hs, fun hk hd ho hs => streamDisable_tx hc hn hk hd ho hs⟩

end Sys2Proof.Machine
end

section
/-! PROOFS. IPv4 interfaces: what each of their operations leaves of the addresses known; and SDP descriptions (R220, R222, R223, R230). -/

namespace Sys2Proof.Machine
open Sys2Proof

set_option Elab.async false

variable {s0 s a b : State} {M : List Part}

/-! ## What an interface knows -/

/-- The addresses that interface n has learnt stand alike in two states. -/
def ArpStays (n : ℕ) (a b : State) : Prop := (b.macSt n).arp = (a.macSt n).arp

theorem Sends.arp (h : Sends a b) (n : ℕ) : ArpStays n a b := by
  obtain ⟨o, u, k, hm⟩ := h.mac n
  unfold ArpStays
  rw [hm]

theorem Tx.txTo_arp (t : Tx s0) (i st n : ℕ) : ArpStays n t.cur (t.txTo i st).cur := by
  have hu : ∀ u : Tx s0, (u.when (st == 1) (fun t => (t.flagBit 0x4C00 i 0x1B 0).setTxs i
      { t.cur.tx i with since := t.cur.clock })).cur.net.macs = u.cur.net.macs := fun u => by
    unfold Tx.when
    split
    · show (u.flagBit 0x4C00 i 0x1B 0).cur.net.macs = u.cur.net.macs
      rw [Tx.flagBit_net]
    · rfl
  have hnet : (t.txTo i st).cur.net.macs = t.cur.net.macs := by
    unfold Tx.txTo
    dsimp only
    rw [hu]
    unfold Tx.when
    split
    · rw [Tx.flagBit_net, Tx.w_net]
    · rw [Tx.w_net]
  unfold ArpStays State.macSt
  rw [hnet]

/-! ## ARP -/

/-- Addresses learnt, and their count, after a change of them, where what follows leaves them. -/
theorem Tx.arpSet_shows (t : Tx s0) {m : ℕ} {x : MacSt} (hm : m < 6) :
    ((t.setMac m x).w 0x4F00 m 0x08 x.arp.length).cur.macSt m = x ∧
      ((t.setMac m x).w 0x4F00 m 0x08 x.arp.length).cur.g 0x4F00 m 0x08 = x.arp.length % 2 ^ 16 :=
  ⟨(State.macSt_congr (Tx.w_net ..) m).trans ((Tx.setMac_macSt ..).trans (if_pos rfl)),
    Tx.w_get_same (i := 0x4F00) (b := 0x08) _ _ (entryAt_ent hm rfl)⟩

theorem arpResolved_learns (hc : s.clocked = true) {n : ℕ} (hn : n < 6) (ip mac : ℕ) : ∃ t, exec (.arpResolved n ip mac) s = .next t ∧
    (t.macSt n).arp.getLast? = some ⟨ip, beBytes 6 mac, s.clock⟩ ∧ (t.macSt n).arp.length ≤ 256 ∧
    t.g 0x4F00 n 0x08 = (t.macSt n).arp.length := by
  change ∃ t, execArpResolved n ip mac s = .next t ∧ _
  unfold execArpResolved
  refine run_to hc _ rfl fun t ht => ?_
  unfold Tx.arpLearn at ht
  dsimp only at ht
  generalize hlist : ((Tx.start s).cur.macSt n).arp.filter (fun e => e.ip != ip) ++ [⟨ip, beBytes 6 mac, (Tx.start s).cur.clock⟩] = l at ht
  obtain ⟨hmac, hcount⟩ := (Tx.start s).arpSet_shows (x := { (Tx.start s).cur.macSt n with arp := l.drop (l.length - 256) }) hn
  dsimp only at hmac hcount
  generalize ((Tx.start s).setMac n { (Tx.start s).cur.macSt n with arp := l.drop (l.length - 256) }).w 0x4F00 n 0x08
    (l.drop (l.length - 256)).length = u at ht hmac hcount
  have hrest : ∀ q : List ℕ, ArpStays n u.cur (u.each q (fun t i => if t.cur.txResolved i then t.txTo i 2 else t)).cur ∧
      Keeps [.all 0x4C00 [0x14, 0x1B]] [.net] u.cur (u.each q (fun t i => if t.cur.txResolved i then t.txTo i 2 else t)).cur := fun q =>
    ⟨Tx.each_inv (P := fun v => ArpStays n u.cur v) q rfl fun v i hv => by
      split
      · exact (v.txTo_arp ..).trans hv
      · exact hv, .each (fun _ _ => .ite (.step (Tx.txTo_keeps ..) (.refl ..)) (.refl ..)) (.refl ..)⟩
  obtain ⟨harp, hk⟩ := hrest (u.cur.txServed.filter (fun i => u.cur.txg i 0x14 == 1))
  have hall : (t.macSt n).arp = l.drop (l.length - 256) := by
    rw [State.macSt_congr (ht.net (by simp)), harp, hmac]
  have hlen : (l.drop (l.length - 256)).length ≤ 256 := by
    rw [List.length_drop]
    omega
  have hlast : (l.drop (l.length - 256)).getLast? = some ⟨ip, beBytes 6 mac, s.clock⟩ := by
    rw [List.getLast?_drop, if_neg, ← hlist, List.getLast?_append]
    · rfl
    · have : 0 < l.length := by
        rw [← hlist]
        simp
      omega
  refine ⟨by rw [hall, hlast], by rw [hall]; exact hlen, ?_⟩
  rw [ht.seenG, hk.gOf, hcount, hall]
  exact Nat.mod_eq_of_lt (Nat.lt_of_le_of_lt hlen (by decide))

theorem Tx.txRecheck_arp (t : Tx s0) (m n : ℕ) : ArpStays n t.cur (t.txRecheck m).cur := by
  unfold Tx.txRecheck
  refine Tx.each_inv (P := fun v => ArpStays n t.cur v) _ rfl fun v i hv => ?_
  split
  · exact hv
  · exact ((Tx.txAsk_sends ..).arp n).trans ((v.txTo_arp i 1 n).trans hv)

theorem arpAgeOut_drops (hc : s.clocked = true) {n ip : ℕ} (hn : n < 6)
    (hold : (s.macSt n).arp.any (fun e => e.ip == ip && e.at_ + secC 300 ≤ s.clock) = true) :
    ∃ t, exec (.arpAgeOut n ip) s = .next t ∧ (t.macSt n).arp = (s.macSt n).arp.filter (fun e => e.ip != ip) ∧
      t.g 0x4F00 n 0x08 = (t.macSt n).arp.length % 2 ^ 16 := by
  change ∃ t, execArpAgeOut n ip s = .next t ∧ _
  unfold execArpAgeOut
  refine run_to hc _ (if_pos hold) fun t ht => ?_
  dsimp only at ht
  obtain ⟨hmac, hcount⟩ := (Tx.start s).arpSet_shows (x := { s.macSt n with arp := (s.macSt n).arp.filter (fun e => e.ip != ip) }) hn
  dsimp only at hmac hcount
  generalize ((Tx.start s).setMac n { s.macSt n with arp := (s.macSt n).arp.filter (fun e => e.ip != ip) }).w 0x4F00 n 0x08
    ((s.macSt n).arp.filter (fun e => e.ip != ip)).length = u at ht hmac hcount
  have hall : (t.macSt n).arp = (s.macSt n).arp.filter (fun e => e.ip != ip) := by
    rw [State.macSt_congr (ht.net (by simp)), u.txRecheck_arp n n, hmac]
  refine ⟨hall, ?_⟩
  rw [ht.seenG, (u.txRecheck_keeps n).gOf, hcount, hall]

theorem arpFail_reports (hc : s.clocked = true) {n i ip : ℕ} (hn : n < 6) (hs : s.txServed.contains i = true) (h1 : s.txg i 0x14 = 1)
    (hsince : (s.tx i).since + secC 3 ≤ s.clock) (hpath : (n, ip) ∈ s.txPaths i) (hdst : s.dstMac n ip = none) :
    ∃ t, exec (.arpFail n) s = .next t ∧ bit (t.g 0x4F00 n 0x0C) 0 = true ∧ Kept (· = K 0x4F00 n 0x0C) [.result, .outs] s t := by
  change ∃ t, execArpFail n s = .next t ∧ _
  unfold execArpFail
  have hany : s.txServed.any (fun i => s.txg i 0x14 == 1 && (s.tx i).since + secC 3 ≤ s.clock &&
      (s.txPaths i).any (fun p => p.1 == n && (s.dstMac p.1 p.2).isNone)) = true := by
    refine List.any_eq_true.mpr ⟨i, List.contains_iff_mem.mp hs, ?_⟩
    rw [Bool.and_eq_true, Bool.and_eq_true, h1]
    refine ⟨⟨rfl, decide_eq_true hsince⟩, List.any_eq_true.mpr ⟨(n, ip), hpath, ?_⟩⟩
    rw [hdst]
    simp
  refine run_to hc ((Tx.start s).flagBit 0x4F00 n 0x0C 0) (if_pos hany) fun t ht => ⟨?_, Kept.of_run (by simp) (by simp)
    (.flagBitKey (.refl ..) rfl) ht⟩
  rw [ht.seenG]
  exact (Tx.start s).flagBit_bit (i := 0x4F00) (n := n) (b := 0x0C) (v := 0) (entryAt_ent hn rfl) rfl rfl rfl

/-! ## IGMP, and the own address -/

theorem igmpReport_sends (hc : s.clocked = true) {n g c : ℕ} (hr : (g, c) ∈ (s.macSt n).reports) (hdue : c ≤ s.clock)
    (hg : (s.groups n).contains g = true) (hidle : s.macIdle n = true) :
    ∃ t f, exec (.igmpReport n g) s = .next t ∧ t.outs = [.frame n f] ∧
      (t.macSt n).reports = (s.macSt n).reports.filter (fun r => r.1 != g) := by
  have hany : (s.macSt n).reports.any (fun r => r.1 == g && r.2 ≤ s.clock) = true :=
    List.any_eq_true.mpr ⟨(g, c), hr, by simp [hdue]⟩
  have hx : ∃ t, execIgmpReport n g s = .next t ∧ (∃ f, t.outs = [.frame n f]) ∧
      (t.macSt n).reports = (s.macSt n).reports.filter (fun r => r.1 != g) := by
    unfold execIgmpReport
    refine run_to hc (((Tx.start s).setMac n { s.macSt n with reports := (s.macSt n).reports.filter (fun r => r.1 != g) }).igmpSend n g 1)
      ((if_pos hany).trans (by rw [hg]; rfl)) fun t ht => ?_
    have hmac := (Tx.setMac_macSt (Tx.start s) n { s.macSt n with reports := (s.macSt n).reports.filter (fun r => r.1 != g) } n).trans
      (if_pos rfl)
    have hfree : ((Tx.start s).setMac n { s.macSt n with reports := (s.macSt n).reports.filter (fun r => r.1 != g) }).cur.macIdle n =
        true := by
      unfold State.macIdle at hidle ⊢
      rw [hmac]
      exact hidle
    have houts : ((Tx.start s).setMac n { s.macSt n with reports := (s.macSt n).reports.filter (fun r => r.1 != g) }).cur.outs = [] := rfl
    generalize (Tx.start s).setMac n { s.macSt n with reports := (s.macSt n).reports.filter (fun r => r.1 != g) } = u at ht hmac hfree houts
    obtain ⟨o, q, k, hsent⟩ := (u.igmpSend_sends n g 1).mac n
    obtain ⟨f, hf⟩ : ∃ f, u.igmpSend n g 1 = u.sendFrame n f := by
      unfold Tx.igmpSend
      dsimp only
      split
      · exact ⟨_, rfl⟩
      · exact ⟨_, rfl⟩
    refine ⟨⟨f, ?_⟩, by rw [State.macSt_congr (ht.net (by simp)), hsent, hmac]⟩
    rw [ht.outs (by simp), hf]
    unfold Tx.sendFrame
    rw [u.egress_outs hfree rfl rfl rfl, houts]
    rfl
  obtain ⟨t, ht, ⟨f, hf⟩, hrep⟩ := hx
  exact ⟨t, f, ht, hf, hrep⟩

theorem igmpV2FallbackEnd_ends (hc : s.clocked = true) {n c : ℕ} (hv : (s.macSt n).v2Until = some c) (hdue : c ≤ s.clock) :
    ∃ t, exec (.igmpV2FallbackEnd n) s = .next t ∧ t.macSt n = { s.macSt n with v2Until := none } ∧
      Kept (fun _ => False) [.result, .outs, .net] s t := by
  change ∃ t, execIgmpV2FallbackEnd n s = .next t ∧ _
  unfold execIgmpV2FallbackEnd
  refine run_to hc ((Tx.start s).setMac n { s.macSt n with v2Until := none }) (by dsimp only; rw [hv]; exact if_pos hdue) fun t ht =>
    ⟨?_, Kept.of_run (by simp) (by simp) (.setNet (.refl ..)) ht⟩
  exact (State.macSt_congr (ht.net (by simp)) n).trans ((Tx.setMac_macSt ..).trans (if_pos rfl))

theorem Tx.igmpJoin_arp (t : Tx s0) (m g n : ℕ) : ArpStays n t.cur (t.igmpJoin m g).cur := by
  unfold Tx.igmpJoin ArpStays
  dsimp only
  rw [Tx.setMac_macSt]
  split
  · rename_i h
    subst h
    exact (t.igmpSend_sends n g 1).arp n
  · exact (t.igmpSend_sends m g 1).arp n

theorem addressWrite_empties (hc : s.clocked = true) {h n : ℕ} {d : Bytes} (hn : n < 6)
    (hk : s.writeCheck h (opOf 0x4F00 n 0x01 d) = stOK) : ∃ t, exec (.addressWrite h n d) s = .next t ∧ t.g 0x4F00 n 0x01 = leNat d ∧
      (t.macSt n).arp = [] ∧ t.g 0x4F00 n 0x08 = 0 := by
  change ∃ t, execAddressWrite h n d s = .next t ∧ _
  unfold execAddressWrite
  refine run_to hc _ (guarded_start hk _) fun t ht => ?_
  unfold addressRule at ht
  dsimp only at ht
  have haddr : (((Tx.start s).status stOK).w 0x4F00 n 0x01 (leNat d)).cur.g 0x4F00 n 0x01 = leNat d := Tx.w_written _ hk rfl
  generalize ((Tx.start s).status stOK).w 0x4F00 n 0x01 (leNat d) = u at ht haddr
  obtain ⟨hmac, hcount⟩ := u.arpSet_shows (x := { u.cur.macSt n with arp := [] }) hn
  dsimp only [List.length_nil] at hmac hcount
  have hset : Keeps [.all 0x4F00 [0x08]] [.net] u.cur ((u.setMac n { u.cur.macSt n with arp := [] }).w 0x4F00 n 0x08 0).cur :=
    .w (.step (Tx.setMac_keeps ..) (.refl ..))
  rw [← hset.gOf] at haddr
  generalize (u.setMac n { u.cur.macSt n with arp := [] }).w 0x4F00 n 0x08 0 = v at ht haddr hmac hcount
  have harp0 : (v.cur.macSt n).arp = [] := congrArg MacSt.arp hmac
  have hgratuitous : ArpStays n v.cur (v.arpGratuitous n).cur := by
    unfold Tx.arpGratuitous
    split
    · rfl
    · exact (Tx.egress_sends v ..).arp n
  have hk1 := v.arpGratuitous_keeps n
  generalize v.arpGratuitous n = w at ht hgratuitous hk1
  have hjoin : ArpStays n w.cur (w.each (w.cur.groups n) (fun t g => t.igmpJoin n g)).cur :=
    Tx.each_inv (P := fun y => ArpStays n w.cur y) _ rfl fun y g hy => (y.igmpJoin_arp n g n).trans hy
  have hk2 : Keeps [.all 0x4800 [0x0B, 0x16, 0x17], .all 0x4900 [0x02, 0x04], .all 0x4C00 [0x15, 0x19, 0x1B], .all 0x5001 [0x19, 0x1B],
      .all 0x5010 [0x03], .all 0x5300 [0x01, 0x02, 0x03, 0x04, 0x06], .ctr 118 123, .ctr 140 140, .ctr 141 141] [.outs, .net, .time] w.cur
      (w.each (w.cur.groups n) (fun t g => t.igmpJoin n g)).cur := .each (fun _ _ => .step (Tx.igmpJoin_keeps ..) (.refl ..)) (.refl ..)
  generalize w.each (w.cur.groups n) (fun t g => t.igmpJoin n g) = y at ht hjoin hk2
  generalize y.cur.txServed.filter (fun i => (y.cur.txPaths i).any (fun p => p.1 == n)) = l at ht
  have hlast : ArpStays n y.cur (y.each l (fun t i =>
      if (t.txTo i 1).cur.txResolved i then (t.txTo i 1).txTo i 2 else (t.txTo i 1).txAsk i)).cur := by
    refine Tx.each_inv (P := fun z => ArpStays n y.cur z) l rfl fun z i hz => ?_
    split
    · exact (Tx.txTo_arp ..).trans ((z.txTo_arp i 1 n).trans hz)
    · exact ((Tx.txAsk_sends ..).arp n).trans ((z.txTo_arp i 1 n).trans hz)
  have hk3 : Keeps [⟨0, 0x4EFF, none, []⟩, ⟨0x4F01, 0x10000, none, []⟩] [.outs, .net, .time] y.cur (y.each l (fun t i =>
      if (t.txTo i 1).cur.txResolved i then (t.txTo i 1).txTo i 2 else (t.txTo i 1).txAsk i)).cur :=
    .each (fun _ _ => .ite (.step (Tx.txTo_keeps ..) (.step (Tx.txTo_keeps ..) (.refl ..))) (.step (Tx.txAsk_keeps ..) (.step
      (Tx.txTo_keeps ..) (.refl ..)))) (.refl ..)
  refine ⟨by rw [ht.seenG, hk3.gOf, hk2.gOf, hk1.gOf, haddr], ?_, by rw [ht.seenG, hk3.gOf, hk2.gOf, hk1.gOf]; exact hcount⟩
  rw [State.macSt_congr (ht.net (by simp)), hlast, hjoin, hgratuitous, harp0]

/-! ## SDP -/

theorem State.sdpLines_congr (h : ∀ i n c, b.g i n c = a.g i n c) (l : List Bytes) : ∀ n x, b.sdpLines n x l = a.sdpLines n x l := by
  have href : b.refclkSame = a.refclkSame := by
    funext v
    unfold State.refclkSame
    simp only [h]
  have hline : b.sdpLine = a.sdpLine := by
    funext x v
    unfold State.sdpLine
    simp only [href]
  induction l with
  | nil => exact fun _ _ => rfl
  | cons v l ih =>
    intro n x
    unfold State.sdpLines
    rw [hline]
    split
    · exact ih _ _
    · rfl

/-- The fields that a description sets, each once. -/
theorem Sdp.config_keys {x : Sdp} {c : List (ℕ × ℕ)} (h : x.config = some c) :
    c.map Prod.fst = [0x03, 0x04, 0x05, 0x06, 0x07, 0x08, 0x09, 0x0A, 0x0B, 0x0C, 0x0D, 0x0F] := by
  unfold Sdp.config at h
  extract_lets addr src one build at h
  have hbuild : ∀ p m a b c d f t, (build p m a b c d f t).map Prod.fst = [0x03, 0x04, 0x05, 0x06, 0x07, 0x08, 0x09, 0x0A, 0x0B, 0x0C,
    0x0D, 0x0F] := fun _ _ _ _ _ _ _ _ => rfl
  clear_value build one
  split at h
  · cases h
  split at h
  · obtain ⟨r, -, rfl⟩ := Option.map_eq_some_iff.mp h
    exact hbuild ..
  · split at h
    · split at h
      · cases h
        exact hbuild ..
      · cases h
    · cases h
  · cases h

/-- Entries of one instance that are written once each read as what they were given. -/
theorem Tx.each_w (t : Tx s0) {i n : ℕ} {l : List (ℕ × ℕ)} (hn : n < 65536) (hd : (l.map Prod.fst).Nodup)
    (hl : ∀ p ∈ l, p.1 < 256) {p : ℕ × ℕ} (hp : p ∈ l) {e : Entry} (he : entryOf i n p.1 = some e) :
    (t.each l (fun t p => t.w i n p.1 p.2)).cur.g i n p.1 = fit e p.2 := by
  induction l generalizing t with
  | nil => cases hp
  | cons q l ih =>
    rw [List.map_cons, List.nodup_cons] at hd
    rcases List.mem_cons.mp hp with rfl | hmem
    · refine Tx.each_mem_inv (P := fun u => u.g i n p.1 = fit e p.2) l (Tx.w_get_same t p.2 ((entryAt_K hn (hl p (.head _))).trans he))
        fun u r hr hu => ?_
      refine (Tx.w_get_other u r.2 fun hk => ?_).trans hu
      have hsub := ((K_inj hn (hl p (.head _)) hn (hl r (.tail _ hr))).mp hk).2.2
      exact hd.1 (List.mem_map.mpr ⟨r, hr, hsub.symm⟩)
    · exact ih _ hd.2 (fun r hr => hl r (.tail _ hr)) hmem

section
variable {h n : ℕ} {d : Bytes} (hc : s.clocked = true) (hn : n < 256) (hk : s.writeCheck h (opOf 0x4A00 n 0x10 d) = stOK)
  (ho : s.on 0x4A00 n 0x01 = false)
include hc hn hk ho

theorem sdpWrite_sets {x : Sdp} {c : List (ℕ × ℕ)} (hr : s.sdpLines 1 ⟨false, none, none, [], 0, [], false⟩ (textLines d) = .inr x)
    (hx : x.config = some c) : ∃ t, exec (.sdpWrite h n d) s = .next t ∧ t.result = ⟨some stOK, []⟩ ∧ t.g 0x4A00 n 0x20 = 0 ∧
      ∀ p ∈ c, ∀ e, entryOf 0x4A00 n p.1 = some e → t.g 0x4A00 n p.1 = fit e p.2 := by
  change ∃ t, execSdpWrite h n d s = .next t ∧ _
  unfold execSdpWrite
  have hrule : sdpRule n d ((Tx.start s).status stOK) = ((((Tx.start s).status stOK).each c (fun t p => t.w 0x4A00 n p.1 p.2)).w
      0x4A00 n 0x20 0).when x.mismatch (fun t => t.flagBit 0x4A00 n 0x21 7) := by
    unfold sdpRule
    rw [if_neg (by rw [show ((Tx.start s).status stOK).on 0x4A00 n 0x01 = false from (State.on_congr (begun_g stOK) ..).trans ho]; decide)]
    dsimp only
    rw [(State.sdpLines_congr (begun_g (s := s) stOK) _ _ _).trans hr]
    dsimp only
    rw [hx]
  have hkeys := Sdp.config_keys hx
  have hsub : ∀ p ∈ c, p.1 ∈ c.map Prod.fst := fun p hp => List.mem_map.mpr ⟨p, hp, rfl⟩
  rw [hkeys] at hsub
  refine run_to hc _ ((guarded_start hk _).trans hrule) fun t ht => ?_
  have hset := fun p (hp : p ∈ c) e he => ((Tx.start s).status stOK).each_w (i := 0x4A00) (n := n) (l := c) (Nat.lt_trans hn (by decide))
    (by rw [hkeys]; decide) (fun q hq => by have := hsub q hq; simp at this; omega) (p := p) hp (e := e) he
  have hres : (((Tx.start s).status stOK).each c (fun t p => t.w 0x4A00 n p.1 p.2)).cur.result = ⟨some stOK, []⟩ :=
    Kept.result (E := fun _ => True) (M := []) (.each (fun _ _ => .wKey (.refl ..) trivial) (.refl ..)) (by decide)
  generalize ((Tx.start s).status stOK).each c (fun t p => t.w 0x4A00 n p.1 p.2) = u at ht hset hres
  have hline : (u.w 0x4A00 n 0x20 0).cur.g 0x4A00 n 0x20 = 0 := Tx.w_g_of u (i := 0x4A00) (c := 0x20) (entryAt_ent hn rfl) (by decide)
  have hlast : Keeps [.all 0x4A00 [0x21]] [] (u.w 0x4A00 n 0x20 0).cur ((u.w 0x4A00 n 0x20 0).when x.mismatch
      (fun t => t.flagBit 0x4A00 n 0x21 7)).cur := .when (fun _ => .flagBit (.refl ..)) (.refl ..)
  have hall : Keeps [.all 0x4A00 [0x20, 0x21]] [] u.cur ((u.w 0x4A00 n 0x20 0).when x.mismatch
      (fun t => t.flagBit 0x4A00 n 0x21 7)).cur := .when (fun _ => .flagBit (.refl ..)) (.w (.refl ..))
  refine ⟨by rw [ht.result (by simp), hall.result (by decide), hres], by rw [ht.seenG, hlast.gOf, hline], fun p hp e he => ?_⟩
  have hp' := hsub p hp
  have happ : apart [.all 0x4A00 [0x20, 0x21]] 0x4A00 p.1 = true ∧ apart [] 0x4A00 p.1 = true := by
    revert hp'
    generalize p.1 = k
    intro hk'
    fin_cases hk' <;> exact ⟨rfl, rfl⟩
  rw [ht.seenG happ.2, hall.gOf happ.1]
  exact hset p hp e he

omit ho in
/-- A description that is refused reports a line, and changes nothing else. -/
theorem sdpWrite_refused {l : ℕ} (hrule : sdpRule n d ((Tx.start s).status stOK) = (((Tx.start s).status stOK).w 0x4A00 n 0x20 l).status
      stOutOfRange) : ∃ t, exec (.sdpWrite h n d) s = .next t ∧ t.result = ⟨some stOutOfRange, []⟩ ∧ t.g 0x4A00 n 0x20 = l % 2 ^ 16 ∧
      Kept (· = K 0x4A00 n 0x20) [.result, .outs] s t := by
  change ∃ t, execSdpWrite h n d s = .next t ∧ _
  unfold execSdpWrite
  refine run_to hc _ ((guarded_start hk _).trans hrule) fun t ht => ⟨by rw [ht.result (by simp)]; rfl, ?_, Kept.of_run (by simp) (by simp)
    (.status (.wKey (.status (.refl ..)) rfl)) ht⟩
  rw [ht.seenG]
  have hk' : Keeps [] [.result] (((Tx.start s).status stOK).w 0x4A00 n 0x20 l).cur ((((Tx.start s).status stOK).w 0x4A00 n 0x20 l).status
      stOutOfRange).cur := .status (.refl ..)
  rw [hk'.gOf]
  exact Tx.w_get_same (i := 0x4A00) (b := 0x20) _ _ (entryAt_ent hn rfl)

theorem sdpWrite_bad {l : ℕ} (hr : s.sdpLines 1 ⟨false, none, none, [], 0, [], false⟩ (textLines d) = .inl l) :
    ∃ t, exec (.sdpWrite h n d) s = .next t ∧ t.result = ⟨some stOutOfRange, []⟩ ∧ t.g 0x4A00 n 0x20 = l % 2 ^ 16 ∧
      Kept (· = K 0x4A00 n 0x20) [.result, .outs] s t := by
  refine sdpWrite_refused hc hn hk ?_
  unfold sdpRule
  rw [if_neg (by rw [show ((Tx.start s).status stOK).on 0x4A00 n 0x01 = false from (State.on_congr (begun_g stOK) ..).trans ho]; decide)]
  dsimp only
  rw [(State.sdpLines_congr (begun_g (s := s) stOK) _ _ _).trans hr]

theorem sdpWrite_short {x : Sdp} (hr : s.sdpLines 1 ⟨false, none, none, [], 0, [], false⟩ (textLines d) = .inr x) (hx : x.config = none) :
    ∃ t, exec (.sdpWrite h n d) s = .next t ∧ t.result = ⟨some stOutOfRange, []⟩ ∧
      t.g 0x4A00 n 0x20 = ((textLines d).length + 1) % 2 ^ 16 ∧ Kept (· = K 0x4A00 n 0x20) [.result, .outs] s t := by
  refine sdpWrite_refused hc hn hk ?_
  unfold sdpRule
  rw [if_neg (by rw [show ((Tx.start s).status stOK).on 0x4A00 n 0x01 = false from (State.on_congr (begun_g stOK) ..).trans ho]; decide)]
  dsimp only
  rw [(State.sdpLines_congr (begun_g (s := s) stOK) _ _ _).trans hr]
  dsimp only
  rw [hx]

end

/-- Settles O28, clause by clause: the IPv4 interfaces, and SDP descriptions. -/
theorem interfacesComplete : Obligations.InterfacesComplete := by
  unfold Obligations.InterfacesComplete
  refine ⟨fun s n hc hn => ⟨fun ip mac => arpResolved_learns hc hn ip mac, fun ip hold => arpAgeOut_drops hc hn hold,
    fun i ip hs h1 hsince hpath hdst => arpFail_reports hc hn hs h1 hsince hpath hdst, fun g c hr hdue hg hidle =>
    igmpReport_sends hc hr hdue hg hidle, fun c hv hdue => igmpV2FallbackEnd_ends hc hv hdue, fun h d hk => addressWrite_empties hc hn hk⟩,
    fun s h n d hc hn hk ho => ⟨fun x c hr hx => sdpWrite_sets hc hn hk ho hr hx, fun l hr => sdpWrite_bad hc hn hk ho hr,
    fun x hr hx => sdpWrite_short hc hn hk ho hr hx⟩⟩

end Sys2Proof.Machine
end

section
/-! PROOFS. System time: the rate and the offset, the time base, and PPS (R233, R236, R238, R240, R247). -/

namespace Sys2Proof.Machine
open Sys2Proof

set_option Elab.async false

variable {s0 s a b : State} {M : List Part}

/-! ## The rate -/

theorem rateWrite_holds (hc : s.clocked = true) {h : ℕ} {d : Bytes} (hk : s.writeCheck h (opOf 0x5000 0 0x04 d) = stOK)
    (hfree : s.g 0x5000 0 0x05 = 2) : ∃ t, exec (.rateWrite h d) s = .next t ∧ t.g 0x5000 0 0x04 = leNat d ∧ t.clock = s.clock ∧
      t.sysAt t.clock = s.sysAt s.clock := by
  change ∃ t, execRateWrite h d s = .next t ∧ _
  unfold execRateWrite
  have hrule : rateRule d ((Tx.start s).status stOK) = ((Tx.start s).status stOK).setRho (leNat d) := by
    unfold rateRule
    exact if_neg (by rw [show ((Tx.start s).status stOK).g 0x5000 0 0x05 = 2 from (begun_g ..).trans hfree]; decide)
  refine run_to hc _ ((guarded_start hk _).trans hrule) fun t ht => ?_
  unfold Tx.setRho at ht
  dsimp only at ht
  have hrho : ((Tx.start s).status stOK).cur.rho = s.rho := begun_g ..
  have htime : ((Tx.start s).status stOK).cur.time = s.time := rfl
  have hclock : ((Tx.start s).status stOK).cur.clock = s.clock := rfl
  rw [hrho, htime, hclock] at ht
  have hset : (((Tx.start s).status stOK).setTime { s.time with
      off := s.time.off + s.clock * s.rho - s.clock * leNat d, rhos := rateHistory s.time.rhos s.rho (leNat d) s.clock }).cur.time.off =
      s.time.off + s.clock * s.rho - s.clock * leNat d := rfl
  have hsame : (((Tx.start s).status stOK).setTime { s.time with
      off := s.time.off + s.clock * s.rho - s.clock * leNat d, rhos := rateHistory s.time.rhos s.rho (leNat d) s.clock }).cur.clock =
      s.clock := rfl
  generalize ((Tx.start s).status stOK).setTime _ = u at ht hset hsame
  have h4 : (u.w 0x5000 0 0x04 (leNat d)).cur.g 0x5000 0 0x04 = leNat d := Tx.w_written u hk rfl
  have hw : Keeps [.all 0x5000 [0x0B]] [] (u.w 0x5000 0 0x04 (leNat d)).cur ((u.w 0x5000 0 0x04 (leNat d)).w 0x5000 0 0x0B
    (F.ofIntRat (((leNat d : ℤ) - 2 ^ 47) * 1000000) (2 ^ 47))).cur := .w (.refl ..)
  have hall : Keeps [.all 0x5000 [0x04, 0x0B]] [] u.cur ((u.w 0x5000 0 0x04 (leNat d)).w 0x5000 0 0x0B
    (F.ofIntRat (((leNat d : ℤ) - 2 ^ 47) * 1000000) (2 ^ 47))).cur := .w (.w (.refl ..))
  have hnew : t.g 0x5000 0 0x04 = leNat d := by rw [ht.seenG, hw.gOf, h4]
  have hnow : t.clock = s.clock := by rw [(ht.clock (by simp)).2, (hall.clock (by decide)).2, hsame]
  refine ⟨hnew, hnow, ?_⟩
  unfold State.sysAt
  rw [hnow, ht.time (by simp), hall.time (by decide), hset, show t.rho = leNat d from hnew]
  omega

/-! ## The offset and the time base -/

theorem offsetWrite_steps (hc : s.clocked = true) {h : ℕ} {d : Bytes} (hk : s.writeCheck h (opOf 0x5000 0 0x06 d) = stOK)
    (hnew : s.on 0x5000 0 0x08 = false) : ∃ t, exec (.offsetWrite h d) s = .next t ∧
      t.engines.stepTo = some ((time80Ns (leNat d) * 2 ^ 47 : ℕ) : ℤ) ∧
      (s.engines.running = true → s.engines.rampB = none → t.engines.rampB = some (nextBlock s.now)) ∧
      Kept (fun _ => False) [.result, .outs, .engines] s t := by
  change ∃ t, execOffsetWrite h d s = .next t ∧ _
  unfold execOffsetWrite
  have hrule : offsetRule d ((Tx.start s).status stOK) = ((Tx.start s).status stOK).askStep (time80Ns (leNat d) * 2 ^ 47 : Nat) := by
    unfold offsetRule
    exact if_neg (by rw [show ((Tx.start s).status stOK).on 0x5000 0 0x08 = false from (State.on_congr (begun_g stOK) ..).trans hnew]
                     decide)
  refine run_to hc _ ((guarded_start hk _).trans hrule) fun t ht => ?_
  generalize ((time80Ns (leNat d) * 2 ^ 47 : Nat) : ℤ) = off at ht ⊢
  have hask : ∀ v : Tx s, (v.askStep off).cur.engines.stepTo = some off ∧ (v.cur.engines.running = true → v.cur.engines.rampB = none →
      (v.askStep off).cur.engines.rampB = some (nextBlock v.cur.now)) := fun v => by
    unfold Tx.askStep
    dsimp only
    split
    · exact ⟨rfl, fun _ _ => rfl⟩
    · rename_i hno
      exact ⟨rfl, fun hr hb => absurd (by rw [hr, hb]; rfl) hno⟩
  obtain ⟨hstep, hramp⟩ := hask ((Tx.start s).status stOK)
  have hkeep : Kept (fun _ => False) [.result, .outs, .engines] (Tx.start s).cur (((Tx.start s).status stOK).askStep off).cur := by
    unfold Tx.askStep
    exact .ite (.setEngines (.status (.refl ..))) (.setEngines (.status (.refl ..)))
  refine ⟨by rw [ht.engines (by simp), hstep], fun hr hb => ?_, Kept.of_run (by simp) (by simp) hkeep ht⟩
  rw [ht.engines (by simp), hramp hr hb]
  rfl

theorem offsetWrite_refused (hc : s.clocked = true) {h : ℕ} {d : Bytes} (hk : s.writeCheck h (opOf 0x5000 0 0x06 d) = stOK)
    (hold : s.on 0x5000 0 0x08 = true) : ∃ t, exec (.offsetWrite h d) s = .next t ∧ t.result = ⟨some stState, []⟩ ∧
      bit (t.g 0x5000 0 0x1C) 3 = true ∧ Kept (· = K 0x5000 0 0x1C) [.result, .outs] s t := by
  change ∃ t, execOffsetWrite h d s = .next t ∧ _
  unfold execOffsetWrite
  have hrule : offsetRule d ((Tx.start s).status stOK) = (((Tx.start s).status stOK).flagBit 0x5000 0 0x1C 3).status stState :=
    if_pos ((State.on_congr (begun_g stOK) ..).trans hold)
  refine run_to hc _ ((guarded_start hk _).trans hrule) fun t ht => ⟨by rw [ht.result (by simp)]; rfl, ?_, Kept.of_run (by simp) (by simp)
    (.status (.flagBitKey (.status (.refl ..)) rfl)) ht⟩
  have hst : Keeps [] [.result] (((Tx.start s).status stOK).flagBit 0x5000 0 0x1C 3).cur
    ((((Tx.start s).status stOK).flagBit 0x5000 0 0x1C 3).status stState).cur := .status (.refl ..)
  rw [ht.seenG, hst.gOf]
  exact Tx.flagBit_bit _ (i := 0x5000) (n := 0) (b := 0x1C) (v := 3) (entryAt_ent (by decide : 0 < 1) rfl) rfl rfl rfl

/-- The servo's state after it took one. -/
theorem Tx.servoTo_state (t : Tx s0) {st : ℕ} (hst : st < 256) : (t.servoTo st).cur.g 0x5000 0 0x07 = st := by
  unfold Tx.servoTo
  extract_lets old u v
  have hu : u.cur.g 0x5000 0 0x07 = st := by
    unfold u Tx.when
    split
    · have hk : ∀ y : Tx s0, Keeps [.all 0x5001 [0x15]] [] y.cur ((y.msg 438 ([byte old, byte st, 0, 0] ++ leBytes 4
          (y.g 0x5000 0 0x09))).showClass).cur := fun y => .step (Tx.showClass_keeps _) (.msg (.refl ..))
      exact ((hk _).gOf).trans (Tx.w_g_of t (i := 0x5000) (c := 0x07) (entryAt_ent (by decide : 0 < 1) rfl)
        (fit_of_lt (by decide) hst))
    · rename_i hno
      show t.g 0x5000 0 0x07 = st
      simpa [old] using hno
  have hrest : Keeps [.all 0x5000 [0x08]] [.maps, .time] u.cur (v.when (st == 2 || st == 4) Tx.release9).cur :=
    .when (fun _ => .step (Tx.release9_keeps ..) (.refl ..)) (.when (fun _ => .w (.refl ..)) (.refl ..))
  exact hrest.gOf.trans hu

theorem timebaseRestart_restarts (hc : s.clocked = true) {h : ℕ} {d : Bytes} (hk : s.writeCheck h (opOf 0x5000 0 0x11 d) = stOK)
    (hrun : s.on 0x3F00 0 0x03 = false) (hcommit : s.ctl.commit = none) : ∃ t, exec (.timebaseRestart h d) s = .next t ∧
      t.g 0x5000 0 0x08 = 0 ∧ bit (t.g 0x5000 0 0x1C) 5 = true ∧
      t.g 0x5000 0 0x07 = (if s.g 0x5000 0 0x05 = 2 then 4 else 0) := by
  change ∃ t, execTimebaseRestart h d s = .next t ∧ _
  unfold execTimebaseRestart
  refine run_to hc _ (guarded_start hk _) fun t ht => ?_
  unfold timebaseRule at ht
  rw [if_neg (by
    rw [show ((Tx.start s).status stOK).on 0x3F00 0 0x03 = false from (State.on_congr (begun_g stOK) ..).trans hrun,
      show ((Tx.start s).status stOK).cur.ctl.commit = none from hcommit]
    decide)] at ht
  dsimp only at ht
  have h8 : (((Tx.start s).status stOK).w 0x5000 0 0x08 0).cur.g 0x5000 0 0x08 = 0 :=
    Tx.w_g_of (i := 0x5000) (c := 0x08) _ (entryAt_ent (by decide : 0 < 1) rfl) (by decide)
  have h5 : (((Tx.start s).status stOK).w 0x5000 0 0x08 0).cur.g 0x5000 0 0x05 = s.g 0x5000 0 0x05 := by
    have hw : Keeps [.all 0x5000 [0x08]] [] ((Tx.start s).status stOK).cur (((Tx.start s).status stOK).w 0x5000 0 0x08 0).cur :=
      .w (.refl ..)
    exact hw.gOf.trans (begun_g ..)
  generalize ((Tx.start s).status stOK).w 0x5000 0 0x08 0 = u at ht h8 h5
  have hset : ∀ x, Keeps [] [.time] u.cur (u.setTime x).cur := fun x => .setTime (.refl ..)
  have h8 : ∀ x, (u.setTime x).cur.g 0x5000 0 0x08 = 0 := fun x => (hset x).gOf.trans h8
  have h5 : ∀ x, (u.setTime x).cur.g 0x5000 0 0x05 = s.g 0x5000 0 0x05 := fun x => (hset x).gOf.trans h5
  have h8 := h8 { ((Tx.start s).status stOK).cur.time with qual := 0, within := 0 }
  have h5 := h5 { ((Tx.start s).status stOK).cur.time with qual := 0, within := 0 }
  generalize u.setTime { ((Tx.start s).status stOK).cur.time with qual := 0, within := 0 } = v at ht h8 h5
  have hst : (if (v.g 0x5000 0 0x05 == 2) = true then 4 else 0) = if s.g 0x5000 0 0x05 = 2 then 4 else 0 := by
    rw [show v.g 0x5000 0 0x05 = s.g 0x5000 0 0x05 from h5]
    simp only [beq_iff_eq]
  rw [hst] at ht
  have hto : Keeps [.all 0x5000 [0x07], .all 0x5001 [0x15]] [.maps, .time] v.cur
      (v.servoTo (if s.g 0x5000 0 0x05 = 2 then 4 else 0)).cur := by
    have hne : ¬ ((if s.g 0x5000 0 0x05 = 2 then 4 else 0) == 2) = true := by
      split <;> decide
    unfold Tx.servoTo
    extract_lets old x y
    have hy : y = x := if_neg hne
    rw [hy]
    exact .when (fun _ => .step (Tx.release9_keeps ..) (.refl ..)) (.when (fun _ => .step (Tx.showClass_keeps ..) (.msg (.w (.refl ..))))
      (.refl ..))
  have h7 := v.servoTo_state (st := if s.g 0x5000 0 0x05 = 2 then 4 else 0) (by split <;> decide)
  rw [← hto.gOf] at h8
  generalize v.servoTo (if s.g 0x5000 0 0x05 = 2 then 4 else 0) = w at ht h8 h7
  have hflag : Keeps [.all 0x5000 [0x1C]] [] w.cur (w.flagBit 0x5000 0 0x1C 5).cur := .flagBit (.refl ..)
  refine ⟨by rw [ht.seenG, hflag.gOf, h8], ?_, by rw [ht.seenG, hflag.gOf, h7]⟩
  rw [ht.seenG]
  exact w.flagBit_bit (i := 0x5000) (n := 0) (b := 0x1C) (v := 5) (entryAt_ent (by decide : 0 < 1) rfl) rfl rfl rfl

/-! ## PPS -/

/-- A view of the state is the same before and after. -/
def Still {α : Type} (f : State → α) (a b : State) : Prop := f b = f a

namespace Still

variable {α : Type} {f : State → α} {c : State}

theorem refl (f : State → α) (a : State) : Still f a a := rfl

theorem step (g : Still f b c) (h : Still f a b) : Still f a c := Eq.trans g h

theorem ite {p : Prop} [Decidable p] {t u : Tx s0} (ht : Still f a t.cur) (hu : Still f a u.cur) : Still f a (if p then t else u).cur := by
  split
  · exact ht
  · exact hu

theorem when {p : Bool} {t : Tx s0} {r : Tx s0 → Tx s0} (ht : Still f a t.cur) (h : Still f t.cur (r t).cur) :
    Still f a (t.when p r).cur :=
  ite (step h ht) ht

theorem each {β : Type} {t : Tx s0} {r : Tx s0 → β → Tx s0} {l : List β} (h : ∀ (u : Tx s0) y, Still f u.cur (r u y).cur)
    (ht : Still f a t.cur) : Still f a (t.each l r).cur :=
  Tx.each_inv (P := Still f a) l ht fun u y hu => step (h u y) hu

end Still

/-- The state of time without what the servo writes. -/
def State.unsteered (s : State) : TimeSt :=
  { s.time with off := 0, rhos := [], qual := 0, qualGm := 0, within := 0, holdAt := 0, released := false }

theorem Kept.unsteered {l : List Span} (h : Keeps l M a b) (hM : Part.time ∉ M := by decide) : Still State.unsteered a b := by
  unfold Still State.unsteered
  rw [h.time hM]

theorem Tx.setRho_unsteered (t : Tx s0) (rho : ℕ) : Still State.unsteered t.cur (t.setRho rho).cur := by
  unfold Tx.setRho
  dsimp only
  exact .step (Kept.unsteered (l := [.all 0x5000 [0x04, 0x0B]]) (M := []) (.w (.w (.refl ..)))) (.refl ..)

theorem Tx.steer_unsteered (t : Tx s0) : Still State.unsteered t.cur t.steer.cur := by
  unfold Tx.steer
  dsimp only
  exact .step (Tx.setRho_unsteered ..) (Kept.unsteered (l := [.all 0x5000 [0x09]]) (M := [.free]) (.w (.fresh (.fresh (.refl ..)))))

theorem Tx.release9_unsteered (t : Tx s0) : Still State.unsteered t.cur t.release9.cur := by
  unfold Tx.release9
  exact .ite (.refl ..) (.when (.refl ..) (.refl ..))

theorem Tx.servoTo_unsteered (t : Tx s0) (st : ℕ) : Still State.unsteered t.cur (t.servoTo st).cur := by
  unfold Tx.servoTo
  extract_lets old u v
  have hv : Keeps [.all 0x5000 [0x07, 0x08], .all 0x5001 [0x15]] [] t.cur v.cur :=
    .when (fun _ => .w (.refl ..)) (.when (fun _ => .step (Tx.showClass_keeps _) (.msg (.w (.refl ..)))) (.refl ..))
  exact .when (Kept.unsteered hv) (Tx.release9_unsteered ..)

theorem Tx.measured_unsteered (t : Tx s0) (need : ℕ) (off : ℤ) (src : ℕ) : Still State.unsteered t.cur (t.measured need off src).cur := by
  unfold Tx.measured
  dsimp only
  have hask : ∀ (u : Tx s0) x, Still State.unsteered u.cur (u.askStep x).cur := fun u x => Kept.unsteered (u.askStep_keeps x)
  have hset : ∀ (u : Tx s0) q g w, u.cur.time = t.cur.time →
      Still State.unsteered t.cur (u.setTime { t.cur.time with qual := q, qualGm := g, within := w }).cur := fun _ _ _ _ _ => rfl
  have hflag : (t.when (1000000 * 65536 < off.natAbs) (fun t => t.flagBit 0x5000 0 0x1C 2)).cur.time = t.cur.time :=
    Kept.time (E := Keys [.all 0x5000 [0x1C]]) (M := []) (.when (fun _ => .flagBit (.refl ..)) (.refl ..)) (by decide)
  exact .ite (.refl ..) (.ite (.ite (hset _ _ _ _ hflag) (.ite (.step (hask ..) (.step (Tx.servoTo_unsteered ..) (hset _ _ _ _ hflag)))
    (.step (Tx.steer_unsteered ..) (.step (Tx.servoTo_unsteered ..) (hset _ _ _ _ hflag))))) (.ite (.step (Tx.steer_unsteered ..) (.ite (.step
    (Tx.servoTo_unsteered ..) (hset _ _ _ _ hflag)) (.ite (.step (Tx.servoTo_unsteered ..) (hset _ _ _ _ hflag)) (hset _ _ _ _ hflag))))
    (by unfold Still State.unsteered; rw [hflag])))

/-- A phase within half a second of the second fits an entry of 32 bits. -/
theorem signed_fit {v : ℤ} (hl : -500000000 ≤ v) (hu : v < 500000000) : signed 32 (unsigned 64 v % 2 ^ 32) = v := by
  unfold signed unsigned
  dsimp only
  split <;> omega

theorem ppsEdge_measures (hc : s.clocked = true) (h1 : s.g 0x5000 0 0x05 = 1) (clock : ℕ) (hnone : s.time.ppsLast = none) :
    ∃ t, exec (.ppsEdge clock) s = .next t ∧
      t.time.ppsLast = some (((s.nsAt (max s.clock clock) : ℤ) - signed 32 (s.g 0x5000 0 0x16)).toNat, max s.clock clock) ∧
      signed 32 (t.g 0x5000 0 0x18) =
        ((s.nsAt (max s.clock clock) : ℤ) - signed 32 (s.g 0x5000 0 0x16) + 500000000) % 1000000000 - 500000000 := by
  change ∃ t, execPpsEdge clock s = .next t ∧ _
  unfold execPpsEdge
  have hat : ∀ n c, ((Tx.start s).at_ clock).cur.g 0x5000 n c = s.g 0x5000 n c := fun n c => at_g ..
  refine run_to hc _ rfl fun t ht => ?_
  dsimp only at ht
  rw [if_neg (by rw [hat, h1]; decide)] at ht
  have hns : ((Tx.start s).at_ clock).cur.ns = s.nsAt (max s.clock clock) := rfl
  rw [hat, hns, show ((Tx.start s).at_ clock).cur.time.ppsLast = none from hnone] at ht
  dsimp only at ht
  generalize (s.nsAt (max s.clock clock) : ℤ) - signed 32 (s.g 0x5000 0 0x16) = p at ht ⊢
  have hv : (((Tx.start s).at_ clock).wi 0x5000 0 0x18 ((p + 500000000) % 1000000000 - 500000000)).cur.g 0x5000 0 0x18 =
      unsigned 64 ((p + 500000000) % 1000000000 - 500000000) % 2 ^ 32 :=
    Tx.w_get_same _ _ (entryAt_ent (i := 0x5000) (c := 0x18) (by decide : 0 < 1) rfl)
  generalize ((Tx.start s).at_ clock).wi 0x5000 0 0x18 _ = u at ht hv
  rw [if_neg (by decide)] at ht
  have hset : ∀ x, Keeps [] [.time] u.cur (u.setTime x).cur := fun x => .setTime (.refl ..)
  have hedge : ∀ x, (u.setTime x).cur.time = x := fun _ => rfl
  have hv' := (hset { ((Tx.start s).at_ clock).cur.time with ppsLast := some (p.toNat, ((Tx.start s).at_ clock).cur.clock) }).gOf
    (i := 0x5000) (n := 0) (c := 0x18) |>.trans hv
  have hl' := congrArg TimeSt.ppsLast (hedge { ((Tx.start s).at_ clock).cur.time with
    ppsLast := some (p.toNat, ((Tx.start s).at_ clock).cur.clock) })
  generalize u.setTime { ((Tx.start s).at_ clock).cur.time with ppsLast := some (p.toNat, ((Tx.start s).at_ clock).cur.clock) } = v
    at ht hv' hl'
  have hm := (v.measured_keeps 4 (((p + 500000000) % 1000000000 - 500000000) * 65536) 0).gOf (i := 0x5000) (n := 0) (c := 0x18)
  have he := v.measured_unsteered 4 (((p + 500000000) % 1000000000 - 500000000) * 65536) 0
  generalize v.measured 4 (((p + 500000000) % 1000000000 - 500000000) * 65536) 0 = w at ht hm he
  have hw : ∀ x, Keeps [.all 0x5000 [0x17]] [] w.cur (w.w 0x5000 0 0x17 x).cur := fun x => .w (.refl ..)
  refine ⟨?_, ?_⟩
  · rw [ht.time (by simp), (hw _).time (by decide)]
    exact (congrArg TimeSt.ppsLast he).trans hl'
  · rw [ht.seenG, (hw _).gOf, hm, hv', signed_fit (by omega) (by omega)]

theorem Tx.sourceLost_unsteered (t : Tx s0) : Still State.unsteered t.cur t.sourceLost.cur := by
  unfold Tx.sourceLost
  dsimp only
  have hset : ∀ (u : Tx s0) x, Still State.unsteered u.cur (u.setTime { u.cur.time with holdAt := x }).cur := fun _ _ => rfl
  have hquiet : Still State.unsteered t.cur (t.setTime { t.cur.time with qual := 0, within := 0 }).cur := rfl
  have htail : ∀ u : Tx s0, Still State.unsteered u.cur ((u.tally 0x5000 0 0x1A).flagBit 0x5000 0 0x1C 1).cur := fun u =>
    Kept.unsteered (l := [.all 0x5000 [0x1C, 0x1A], .ctr 143 143]) (M := []) (.flagBit (.tally (.refl ..)))
  exact .ite (.step (htail _) (.step (Tx.servoTo_unsteered ..) (.step (hset ..) (.step (Tx.setRho_unsteered ..) hquiet))))
    (.ite (.step (Tx.servoTo_unsteered ..) hquiet) hquiet)

theorem Tx.sourceLost_bit (t : Tx s0) (x : ℕ) (hx : bit 0x3F x = true) : BitStays (K 0x5000 0 0x1C) x t.cur t.sourceLost.cur := by
  unfold Tx.sourceLost
  dsimp only
  have htail : ∀ u : Tx s0, BitStays (K 0x5000 0 0x1C) x u.cur ((u.tally 0x5000 0 0x1A).flagBit 0x5000 0 0x1C 1).cur := fun u =>
    (BitStays.of (l := [.all 0x5000 [0x1A], .ctr 143 143]) (M := []) (.tally (.refl ..))).trans
      (Tx.flag_stays _ (entryAt_ent (i := 0x5000) (c := 0x1C) (by decide : 0 < 1) rfl) rfl rfl hx)
  have hset : ∀ (u : Tx s0) x, Keeps [] [.time] u.cur (u.setTime x).cur := fun u x => .setTime (.refl ..)
  exact .ite (.trans (.step (Tx.servoTo_keeps ..) (.step (hset ..) (.step (Tx.setRho_keeps ..) (.of (hset ..))))) (htail _))
    (.ite (.step (Tx.servoTo_keeps ..) (.of (hset ..))) (.of (hset ..)))

theorem ppsLost_loses (hc : s.clocked = true) (h1 : s.g 0x5000 0 0x05 = 1) {p : ℕ × ℕ} (hp : s.time.ppsLast = some p)
    (hd : s.ctl.down = false) (hlate : p.2 + secC 2 ≤ s.clock) :
    ∃ t, exec .ppsLost s = .next t ∧ t.time.ppsLast = none ∧ t.g 0x5000 0 0x17 = 0 ∧ bit (t.g 0x5000 0 0x1C) 4 = true := by
  change ∃ t, execPpsLost s = .next t ∧ _
  unfold execPpsLost
  refine runCtl_to hc hd _ rfl fun t ht => ?_
  rw [hp] at ht
  dsimp only at ht
  rw [if_neg (by rw [h1]; simp; exact hlate)] at ht
  have hset : ((Tx.start s).setTime { s.time with ppsLast := none }).cur.time.ppsLast = none := rfl
  generalize (Tx.start s).setTime { s.time with ppsLast := none } = u at ht hset
  have h17 : (u.w 0x5000 0 0x17 0).cur.g 0x5000 0 0x17 = 0 :=
    Tx.w_g_of (i := 0x5000) (c := 0x17) _ (entryAt_ent (by decide : 0 < 1) rfl) rfl
  have hu : Keeps [.all 0x5000 [0x17]] [] u.cur (u.w 0x5000 0 0x17 0).cur := .w (.refl ..)
  rw [← hu.time (by decide)] at hset
  generalize u.w 0x5000 0 0x17 0 = v at ht h17 hset
  have hv : Keeps [.all 0x5000 [0x1C]] [] v.cur (v.flagBit 0x5000 0 0x1C 4).cur := .flagBit (.refl ..)
  have hbit : bit ((v.flagBit 0x5000 0 0x1C 4).cur.g 0x5000 0 0x1C) 4 = true :=
    v.flagBit_bit (i := 0x5000) (n := 0) (b := 0x1C) (v := 4) (entryAt_ent (by decide : 0 < 1) rfl) rfl rfl rfl
  rw [← hv.gOf] at h17
  rw [← hv.time (by decide)] at hset
  generalize v.flagBit 0x5000 0 0x1C 4 = w at ht hbit hset h17
  refine ⟨?_, by rw [ht.seenG, w.sourceLost_keeps.gOf, h17], ?_⟩
  · rw [ht.time (by simp)]
    exact (congrArg TimeSt.ppsLast w.sourceLost_unsteered).trans hset
  · rw [ht.seenG]
    exact (w.sourceLost_bit 4 rfl).stays hbit

/-- Settles O29. -/
theorem timeWritesComplete : Obligations.TimeWritesComplete := by
  unfold Obligations.TimeWritesComplete
  refine ⟨fun s h d hc => ⟨fun hk hfree => rateWrite_holds hc hk hfree, fun hk hnew => offsetWrite_steps hc hk hnew,
    fun hk hold => offsetWrite_refused hc hk hold, fun hk hrun hcommit => timebaseRestart_restarts hc hk hrun hcommit⟩,
    fun s hc h1 => ⟨fun clock hnone => ppsEdge_measures hc h1 clock hnone, fun p hp hd hlate => ppsLost_loses hc h1 hp hd hlate⟩⟩

end Sys2Proof.Machine
end

section
/-! PROOFS. PTP: messages received and sent, and the best master (R240, R241, R243, R244, R246). -/

namespace Sys2Proof.Machine
open Sys2Proof

set_option Elab.async false

variable {s0 s a b : State} {M : List Part} {n clock mac ip : ℕ} {m : Bytes}

/-! ## What a message meets -/

theorem Tx.ringPop_macs (t : Tx s0) (r : ℕ) : (t.ringPop r).cur.net.macs = t.cur.net.macs := by
  unfold Tx.ringPop
  split
  · rfl
  · rw [Tx.w_net]
    rfl

theorem Tx.ptpDrainGo_macs (k : ℕ) (t : Tx s0) : (t.ptpDrainGo k).cur.net.macs = t.cur.net.macs := by
  induction k generalizing t with
  | zero => rfl
  | succ k ih =>
    unfold Tx.ptpDrainGo
    split
    · split
      · rfl
      · rw [ih, t.ringPop_macs]
    · rfl

theorem Tx.ptpPop_macs (t : Tx s0) : t.ptpPop.cur.net.macs = t.cur.net.macs := by
  unfold Tx.ptpPop Tx.ptpDrain
  split
  · exact t.ringPop_macs 0
  · rw [Tx.ptpDrainGo_macs, t.ringPop_macs]

theorem State.ptpTakes_congr (h : ∀ c, b.g 0x5001 0 c = a.g 0x5001 0 c) (n k : ℕ) (m : Bytes) : b.ptpTakes n k m = a.ptpTakes n k m := by
  unfold State.ptpTakes State.on
  simp only [h]

theorem State.ptpFromParent_congr (h : ∀ c, b.g 0x5001 0 c = a.g 0x5001 0 c) (ht : b.time = a.time) (n : ℕ) (m : Bytes) :
    b.ptpFromParent n m = a.ptpFromParent n m := by
  unfold State.ptpFromParent
  simp only [h, ht]

theorem State.nsAt_congr (h : b.g 0x5000 0 0x04 = a.g 0x5000 0 0x04) (ht : b.time.off = a.time.off) (c : ℕ) : b.nsAt c = a.nsAt c := by
  unfold State.nsAt State.sysAt State.rho
  rw [h, ht]

theorem State.stampNs_congr (hn : ∀ c, b.nsAt c = a.nsAt c) (h : ∀ c, c = 1 ∨ c = 2 → b.g 0x5010 n c = a.g 0x5010 n c) (e : Bool) (c : ℕ) :
    b.stampNs n e c = a.stampNs n e c := by
  unfold State.stampNs
  rw [hn, h _ (by cases e <;> decide)]

/-- What taking a message from ring 0 leaves. -/
structure Popped (s : State) (c : ℕ) (a : State) : Prop where
  keeps : Keeps [.all 0x4E00 [0x03]] [.net] ((Tx.start s).at_ c).cur a
  macs : a.net.macs = s.net.macs

theorem Tx.waits (s : State) (c : ℕ) : Popped s c ((Tx.start s).at_ c).cur := ⟨.refl .., rfl⟩

theorem Tx.pops (s : State) (c : ℕ) : Popped s c (((Tx.start s).at_ c).ptpPop).cur := ⟨Tx.ptpPop_keeps .., Tx.ptpPop_macs _⟩

namespace Popped

variable {c : ℕ}

theorem g {k i : ℕ} (h : Popped s c a) (hk : apart [.all 0x4E00 [0x03]] i k = true := by decide) : a.g i n k = s.g i n k :=
  (h.keeps.gOf hk).trans (at_g ..)

theorem port (h : Popped s c a) (k : ℕ) : a.g 0x5001 0 k = s.g 0x5001 0 k := h.g (by simp [apart, Span.all])

theorem counter (h : Popped s c a) : a.clock = max s.clock c := (h.keeps.clock (by decide)).2

theorem time (h : Popped s c a) : a.time = s.time := h.keeps.time (by decide)

theorem takes (h : Popped s c a) (n k : ℕ) (m : Bytes) : a.ptpTakes n k m = s.ptpTakes n k m := State.ptpTakes_congr h.port n k m

theorem fromParent (h : Popped s c a) (n : ℕ) (m : Bytes) : a.ptpFromParent n m = s.ptpFromParent n m :=
  State.ptpFromParent_congr h.port h.time n m

theorem stampNs (h : Popped s c a) (n : ℕ) (e : Bool) (k : ℕ) : a.stampNs n e k = s.stampNs n e k :=
  State.stampNs_congr (State.nsAt_congr h.g (by rw [h.time])) (fun k hk => h.g (by rcases hk with rfl | rfl <;> decide)) e k

theorem asymmetry (h : Popped s c a) : a.asymmetry = s.asymmetry := by
  unfold State.asymmetry
  rw [h.port]

theorem interval (h : Popped s c a) (k : ℕ) : a.ptpInterval k = s.ptpInterval k := by
  unfold State.ptpInterval
  rw [h.port]

theorem macUp (h : Popped s c a) (n : ℕ) : a.macUp n = s.macUp n := by
  unfold State.macUp State.on
  rw [h.g (i := 0x4800) (k := 1), h.g (i := 0x4800) (k := 7)]

end Popped

/-! ## Sync, Follow_Up and Delay_Resp -/

theorem ptpSync_waits (hc : s.clocked = true) (hd : s.ctl.down = false) (htake : s.ptpTakes n 44 m = true)
    (hfrom : s.ptpFromParent n m = true) (htwo : bit (fieldBE m 6 1) 1 = true) :
    ∃ t, exec (.ptpSync n m clock mac ip) s = .next t ∧ t.clock = max s.clock clock ∧
      t.g 0x5001 0 0x17 = (s.g 0x5001 0 0x17 + 1) % 2 ^ 32 ∧ t.time.peer = (mac, ip) ∧
      t.time.syncWait = some ⟨ptpSeqOf m, ptpIdentOf m, (s.stampNs n false (max s.clock clock) * 65536 : Nat),
        ptpCorrOf m + s.asymmetry⟩ := by
  change ∃ t, execPtpSync n m clock mac ip s = .next t ∧ _
  unfold execPtpSync
  refine runCtl_to hc hd _ rfl fun t ht => ?_
  dsimp only at ht
  have hu := Tx.pops s clock
  generalize ((Tx.start s).at_ clock).ptpPop = u at ht hu
  rw [if_neg (by rw [hu.takes, hu.fromParent, htake, hfrom]; decide), if_pos htwo, hu.asymmetry, hu.stampNs, hu.counter] at ht
  have hall : ∀ x y, Keeps [.all 0x5001 [0x17], .ctr 0 0xFFF] [.time] u.cur (((u.tally 0x5001 0 0x17).setTime x).setTime y).cur :=
    fun x y => .setTime (.setTime (.tally (.refl ..)))
  have hset : ∀ x y, Keeps [] [.time] (u.tally 0x5001 0 0x17).cur (((u.tally 0x5001 0 0x17).setTime x).setTime y).cur :=
    fun x y => .setTime (.setTime (.refl ..))
  have hcount : (u.tally 0x5001 0 0x17).cur.g 0x5001 0 0x17 = (s.g 0x5001 0 0x17 + 1) % 2 ^ 32 := by
    rw [u.tally_g (entryAt_ent (i := 0x5001) (c := 0x17) (by decide : 0 < 1) rfl) (by decide), hu.port]
    rfl
  exact ⟨by rw [(ht.clock (by simp)).2, ((hall _ _).clock (by decide)).2, hu.counter], by rw [ht.seenG, (hset _ _).gOf, hcount],
    by rw [ht.time (by simp)]; rfl, by rw [ht.time (by simp)]; rfl⟩

theorem Tx.ptpMeasure_takes (t : Tx s0) (t2 t1 corr : ℤ) :
    (t.ptpMeasure t2 t1 corr).cur.time.syncWait = none ∧ (t.ptpMeasure t2 t1 corr).cur.time.msDelay = some (t2 - t1 - corr) := by
  unfold Tx.ptpMeasure
  dsimp only
  have hset : ∀ x, (t.setTime x).cur.time = x := fun _ => rfl
  have hset := hset { t.cur.time with msDelay := some (t2 - t1 - corr), syncWait := none }
  generalize t.setTime { t.cur.time with msDelay := some (t2 - t1 - corr), syncWait := none } = u at hset ⊢
  have hm : ∀ need off src, Still State.unsteered u.cur ((u.measured need off src).ptpCalibrated).cur := fun need off src =>
    .step (Kept.unsteered (Tx.ptpCalibrated_keeps _)) (u.measured_unsteered need off src)
  have hdone : ∀ v : Tx s0, Still State.unsteered u.cur v.cur → v.cur.time.syncWait = none ∧
      v.cur.time.msDelay = some (t2 - t1 - corr) := fun v hv =>
    ⟨(congrArg TimeSt.syncWait hv).trans (congrArg TimeSt.syncWait hset), (congrArg TimeSt.msDelay hv).trans
      (congrArg TimeSt.msDelay hset)⟩
  split
  · split
    · exact hdone _ (hm ..)
    · exact hdone _ (.refl ..)
  · exact hdone _ (.refl ..)

theorem ptpFollowUp_measures (hc : s.clocked = true) (hd : s.ctl.down = false) {w : SyncWait} (hw : s.time.syncWait = some w)
    (htake : s.ptpTakes n 44 m = true) (hfrom : s.ptpFromParent n m = true) (hseq : w.seq = ptpSeqOf m) (hid : w.ident = ptpIdentOf m) :
    ∃ t, exec (.ptpFollowUp n m) s = .next t ∧ t.time.syncWait = none ∧
      t.time.msDelay = some (w.t2 - ptpTime m 34 * 65536 - (w.corr + ptpCorrOf m)) := by
  change ∃ t, execPtpFollowUp n m s = .next t ∧ _
  unfold execPtpFollowUp
  refine runCtl_to hc hd _ rfl fun t ht => ?_
  dsimp only at ht
  have hu : ((Tx.start s).ptpPop).cur.time = s.time := (Tx.ptpPop_keeps _).time (by decide)
  generalize (Tx.start s).ptpPop = u at ht hu
  rw [hu, hw] at ht
  dsimp only at ht
  rw [if_pos (by rw [htake, hfrom, hseq, hid]; simp)] at ht
  rw [ht.time (by simp)]
  exact u.ptpMeasure_takes ..

theorem ptpDelayResp_measures (hc : s.clocked = true) (hd : s.ctl.down = false) {t3 ms : ℤ} (hw : s.time.reqWait = some (ptpSeqOf m, t3))
    (hms : s.time.msDelay = some ms) (htake : s.ptpTakes n 54 m = true) (hfrom : s.ptpFromParent n m = true)
    (hport : fieldBE m 44 10 = s.ptpPort) : ∃ t, exec (.ptpDelayResp n m) s = .next t ∧ t.time.reqWait = none ∧
      t.time.mpd = some ((ms + (ptpTime m 34 * 65536 - t3 - ptpCorrOf m)) / 2) := by
  change ∃ t, execPtpDelayResp n m s = .next t ∧ _
  unfold execPtpDelayResp
  refine runCtl_to hc hd _ rfl fun t ht => ?_
  dsimp only at ht
  have hu : ((Tx.start s).ptpPop).cur.time = s.time := (Tx.ptpPop_keeps _).time (by decide)
  generalize (Tx.start s).ptpPop = u at ht hu
  rw [hu, hw, hms] at ht
  dsimp only at ht
  rw [if_pos (by rw [htake, hfrom, hport]; simp)] at ht
  have hw : ∀ (v : Tx s) x, Keeps [.all 0x5000 [0x0A]] [] v.cur (v.w 0x5000 0 0x0A x).cur := fun v x => .w (.refl ..)
  rw [ht.time (by simp), (hw _ _).time (by decide)]
  exact ⟨rfl, rfl⟩

/-! ## Messages sent -/

theorem State.ethFrame_congr (h : ∀ c, c = 3 ∨ c = 4 ∨ c = 5 → b.g 0x4800 n c = a.g 0x4800 n c) (d : Bytes) (y : ℕ) (p : Bytes) :
    b.ethFrame n d y p = a.ethFrame n d y p := by
  unfold State.ethFrame State.macAddr
  rw [h 3 (by decide), h 4 (by decide), h 5 (by decide)]

theorem State.ptpMsg_congr (h : ∀ c, c = 4 ∨ c = 0x16 → b.g 0x5001 0 c = a.g 0x5001 0 c) (ty flags : ℕ) (corr : ℤ) (seq ctl : ℕ) (log : ℤ)
    (p : Bytes) : b.ptpMsg ty flags corr seq ctl log p = a.ptpMsg ty flags corr seq ctl log p := by
  unfold State.ptpMsg State.ptpIdent
  rw [h 4 (by decide), h 0x16 (by decide)]

theorem State.ptpFrame_congr (he : ∀ d y p, b.ethFrame n d y p = a.ethFrame n d y p) (hl : b.g 0x5001 0 0x07 = a.g 0x5001 0 0x07)
    (hi : b.ip n = a.ip n) (e : Bool) (q : Option (ℕ × ℕ)) (p : Bytes) : b.ptpFrame n e q p = a.ptpFrame n e q p := by
  unfold State.ptpFrame
  simp only [he, hl, hi]

theorem State.macIdle_same (hm : b.net.macs = a.net.macs) (h : ∀ c, c = 1 ∨ c = 7 → b.g 0x4800 n c = a.g 0x4800 n c)
    (hc : a.clock ≤ b.clock) (hidle : a.macIdle n = true) : b.macIdle n = true := by
  unfold State.macIdle State.macUp State.on at hidle ⊢
  unfold State.macSt at hidle ⊢
  simp only [hm, h 1 (by decide), h 7 (by decide), Bool.and_eq_true, decide_eq_true_eq] at hidle ⊢
  obtain ⟨⟨⟨⟨hup, hout⟩, hbusy⟩, hfree⟩, hpause⟩ := hidle
  exact ⟨⟨⟨⟨hup, hout⟩, hbusy⟩, by omega⟩, by omega⟩

theorem ptpDelayReq_answers (hc : s.clocked = true) (hd : s.ctl.down = false) (htake : s.ptpTakes n 44 m = true)
    (hmaster : s.g 0x5001 0 0x11 = 6) (hmac : n = s.g 0x5001 0 0x12) (hlayer : s.g 0x5001 0 0x07 = 1) (hidle : s.macIdle n = true) :
    ∃ t, exec (.ptpDelayReq n m clock mac ip) s = .next t ∧
      t.outs = [.frame n (s.ethFrame n ptpMac 0x88F7 (s.ptpMsg 9 (if bit (fieldBE m 6 1) 2 then 0x0400 else 0)
        (ptpCorrOf m) (ptpSeqOf m) 3 (signed 16 (s.g 0x5001 0 0x0B))
        (ptpStamp (s.stampNs n false (max s.clock clock)) ++ slice m 20 10)))] := by
  change ∃ t, execPtpDelayReq n m clock mac ip s = .next t ∧ _
  unfold execPtpDelayReq
  refine runCtl_to hc hd _ rfl fun t ht => ?_
  dsimp only at ht
  have hu := Tx.pops s clock
  generalize ((Tx.start s).at_ clock).ptpPop = u at ht hu
  have hfree : u.cur.macIdle n = true := State.macIdle_same hu.macs (fun c h => hu.g (by rcases h with rfl | rfl <;> decide))
    (by rw [hu.counter]; exact le_max_left ..) hidle
  have houts : u.cur.outs = [] := hu.keeps.outs (by decide)
  rw [if_neg (by rw [hu.takes, htake, hu.port, hu.port, hmaster, ← hmac]; simp), hu.stampNs, hu.counter, hu.port,
    State.ptpMsg_congr fun c _ => hu.port c] at ht
  unfold Tx.ptpOut Tx.sendFrame State.ptpFrame at ht
  rw [hu.port, hlayer, State.ethFrame_congr fun c h => hu.g (by rcases h with rfl | rfl | rfl <;> decide)] at ht
  rw [ht.outs (by simp), u.egress_outs hfree rfl rfl rfl, houts]
  rfl

/-! ## Messages with a timestamp -/

/-- The state of time without the queue of timestamps. -/
def State.unstamped (s : State) : TimeSt := { s.time with txq := [] }

theorem Kept.unstamped {l : List Span} (h : Keeps l M a b) (hM : Part.time ∉ M := by decide) : Still State.unstamped a b := by
  unfold Still State.unstamped
  rw [h.time hM]

theorem Tx.stampSent_room (t : Tx s0) {m c : ℕ} {r : StampReq} (h : t.cur.time.txq.length < 16) : (t.stampSent m c r).1 = true := by
  unfold Tx.stampSent
  dsimp only
  rw [if_neg (by omega)]

theorem Tx.stampSent_unstamped (t : Tx s0) (m c : ℕ) (r : StampReq) : Still State.unstamped t.cur (t.stampSent m c r).2.cur := by
  unfold Tx.stampSent
  dsimp only
  have hinc : Still State.unstamped t.cur (t.inc 0x5010 m 0x03 1).cur := Kept.unstamped (l := [.all 0x5010 [0x03]]) (M := []) (.inc (.refl ..))
  split
  · exact .step (Kept.unstamped (l := [.all 0x5300 [0x04, 0x06], .ctr 0 0xFFF]) (M := []) (.flagBit (.tally (.refl ..)))) hinc
  · exact .step (Kept.unstamped (l := [.all 0x5300 [0x01, 0x02, 0x03]]) (M := []) (.peak (.w (.inc (.refl ..))))) hinc

/-- A frame that starts, before its timestamp is taken. -/
def Tx.started (t : Tx s0) (m c : ℕ) (e : Egress) : Tx s0 :=
  ((t.setMac m { t.cur.macSt m with busyUntil := c + t.cur.sendTime m e.len, busy := none }).emit (e.sent m)).tally 0x4800 m 0x0B

theorem Tx.frameStart_stamped (t : Tx s0) (m c : ℕ) {e : Egress} {r : StampReq} (hc : e.copy = none) (hs : e.stamp = some r) :
    t.frameStart m c e = (t.started m c e).stamped m c r := by
  unfold Tx.frameStart
  simp only [hc, hs]
  rfl

theorem Tx.started_keeps (t : Tx s0) (m c : ℕ) (e : Egress) : Keeps [.all 0x4800 [0x0B], .ctr 0 0xFFF] [.net, .outs] t.cur (t.started m c e).cur :=
  .tally (.emit (.step (Tx.setMac_keeps ..) (.refl ..)))

theorem Tx.started_outs (t : Tx s0) (m c : ℕ) (e : Egress) : (t.started m c e).cur.outs = t.cur.outs ++ [e.sent m] := Tx.tally_outs ..

theorem Tx.started_macSt (t : Tx s0) (m c : ℕ) (e : Egress) :
    (t.started m c e).cur.macSt m = { t.cur.macSt m with busyUntil := c + t.cur.sendTime m e.len, busy := none } :=
  (State.macSt_congr (Tx.tally_net ..) m).trans ((Tx.setMac_macSt ..).trans (if_pos rfl))

/-- The MAC takes the frame: it no longer waits. -/
theorem Tx.taken_keeps (t : Tx s0) (m : ℕ) (e : Egress) : Keeps [] [.net] t.cur (t.taken m e).cur :=
  .step (Tx.setMac_keeps ..) (.step (Tx.enqueue_keeps ..) (.refl ..))

/-- What an idle MAC has begun when it takes a frame. -/
structure OnWire (m : ℕ) (e : Egress) (a b : State) : Prop where
  keeps : Keeps [.all 0x4800 [0x0B], .ctr 0 0xFFF] [.net, .outs] a b
  outs : b.outs = a.outs ++ [e.sent m]
  mac : b.macSt m = { a.macSt m with out := [], busyUntil := a.clock + a.sendTime m e.len, busy := none }

theorem Tx.begins (t : Tx s0) (m : ℕ) (e : Egress) : OnWire m e t.cur ((t.taken m e).started m t.cur.clock e).cur :=
  ⟨.trans ((t.taken_keeps m e).mono (fun _ ⟨x, hx, _⟩ => nomatch hx) (by decide)) (Tx.started_keeps ..), Tx.started_outs ..,
    by rw [Tx.started_macSt, t.taken_macSt]; rfl⟩

theorem OnWire.stampNs {m : ℕ} {e : Egress} (h : OnWire m e a b) (k : ℕ) (o : Bool) (c : ℕ) : b.stampNs k o c = a.stampNs k o c :=
  State.stampNs_congr (State.nsAt_congr h.keeps.gOf (by rw [h.keeps.time (by decide)]))
    (fun c hc => by rcases hc with rfl | rfl <;> exact h.keeps.gOf) o c

theorem Tx.stampSent_net (t : Tx s0) (m c : ℕ) (r : StampReq) : (t.stampSent m c r).2.cur.net = t.cur.net :=
  (t.stampSent_keeps m c r).net (by decide)

theorem Tx.stampSent_outs (t : Tx s0) (m c : ℕ) (r : StampReq) : (t.stampSent m c r).2.cur.outs = t.cur.outs :=
  (t.stampSent_keeps m c r).outs (by decide)

theorem Tx.stamped_delayReq (t : Tx s0) {m c q : ℕ} (h : t.cur.time.txq.length < 16) :
    t.stamped m c (.delayReq q) = (t.stampSent m c (.delayReq q)).2.setTime { (t.stampSent m c (.delayReq q)).2.cur.time with
      reqWait := some (q, (t.cur.stampNs m true c * 65536 : ℕ)) } := by
  unfold Tx.stamped
  dsimp only
  rw [t.stampSent_room h]

theorem Tx.stamped_sync (t : Tx s0) {m c q : ℕ} {log : ℤ} (h : t.cur.time.txq.length < 16) (hd : t.cur.ctl.down = false) :
    ∃ f, t.stamped m c (.sync q log) = (t.stampSent m c (.sync q log)).2.enqueue m ⟨.frame f, f.length, t.cur.clock, none, none⟩ ∧
      f = t.cur.ptpFrame m false none (t.cur.ptpMsg 8 0 0 q 2 log (ptpStamp (t.cur.stampNs m true c))) := by
  refine ⟨_, ?_, rfl⟩
  have hk := t.stampSent_keeps m c (.sync q log)
  have hdown : (t.stampSent m c (.sync q log)).2.cur.ctl.down = false := by
    have hctl := congrArg Control.down (hk.ctl (by decide)).1
    exact hctl.trans hd
  have hclock : (t.stampSent m c (.sync q log)).2.cur.clock = t.cur.clock := (hk.clock (by decide)).2
  unfold Tx.stamped
  dsimp only
  rw [t.stampSent_room h]
  dsimp only
  rw [hdown, hclock, State.ptpMsg_congr (a := t.cur) fun c hc => by rcases hc with rfl | rfl <;> exact hk.gOf,
    State.ptpFrame_congr (a := t.cur) (State.ethFrame_congr fun c hc => by rcases hc with rfl | rfl | rfl <;> exact hk.gOf) hk.gOf hk.gOf]
  rfl

/-- What a frame with a timestamp leaves on the MAC that stood idle. -/
theorem Tx.egress_stamped (t : Tx s0) {m : ℕ} (h : t.cur.macIdle m = true) {e : Egress} {r : StampReq} (hc : e.copy = none)
    (hst : e.stamp = some r) (hs : e.since = t.cur.clock) {u : Tx s0} (hu : u = (t.taken m e).started m t.cur.clock e) {l : List Egress}
    (hout : ((u.stamped m t.cur.clock r).cur.macSt m) = { u.cur.macSt m with out := l })
    (hl : ∀ x ∈ l, x.copy = none) : t.egress m e = u.stamped m t.cur.clock r := by
  subst hu
  have hwire := t.begins m e
  have hclock : (((t.taken m e).started m t.cur.clock e).stamped m t.cur.clock r).cur.clock = t.cur.clock :=
    ((Tx.stamped_keeps ..).clock (by decide)).2.trans (hwire.keeps.clock (by decide)).2
  rw [hwire.mac] at hout
  rw [← Tx.frameStart_stamped _ _ _ hc hst] at hout hclock ⊢
  refine t.egress_idle h hc hs (by rw [hout]) fun x hx => ?_
  rw [hout] at hx
  refine ⟨hl x hx, ?_⟩
  rw [hclock, hout]
  have := t.cur.sendTime_pos m e.len
  simp only [MacSt.startOf]
  omega

/-- A Delay_Req that an idle MAC sends. -/
theorem Tx.sendStamped_delayReq (t : Tx s0) {m q : ℕ} (h : t.cur.macIdle m = true) (hroom : t.cur.time.txq.length < 16) (f : Bytes) :
    (t.sendStamped m f (.delayReq q)).cur.outs = t.cur.outs ++ [.frame m f] ∧
      (t.sendStamped m f (.delayReq q)).cur.unstamped =
        { t.cur.unstamped with reqWait := some (q, (t.cur.stampNs m true t.cur.clock * 65536 : ℕ)) } := by
  unfold Tx.sendStamped
  generalize he : (⟨.frame f, f.length, t.cur.clock, none, some (.delayReq q)⟩ : Egress) = e
  have hwire := t.begins m e
  generalize hu : (t.taken m e).started m t.cur.clock e = u at hwire
  have htime : u.cur.time = t.cur.time := hwire.keeps.time (by decide)
  have hst := u.stamped_delayReq (m := m) (c := t.cur.clock) (q := q) (by rw [htime]; exact hroom)
  have hx := u.stampSent_unstamped m t.cur.clock (.delayReq q)
  have hnet := u.stampSent_net m t.cur.clock (.delayReq q)
  have houts := u.stampSent_outs m t.cur.clock (.delayReq q)
  generalize (u.stampSent m t.cur.clock (.delayReq q)).2 = v at hst hx hnet houts
  have hmac : (u.stamped m t.cur.clock (.delayReq q)).cur.macSt m = { u.cur.macSt m with out := [] } := by
    rw [hst]
    refine ((State.macSt_congr (a := v.cur) (b := (v.setTime _).cur) rfl m).trans (State.macSt_congr hnet m)).trans ?_
    rw [hwire.mac]
  rw [t.egress_stamped h (e := e) (r := .delayReq q) (by rw [← he]) (by rw [← he]) (by rw [← he]) hu.symm hmac (by simp), hst]
  refine ⟨?_, ?_⟩
  · rw [show ∀ x, (v.setTime x).cur.outs = v.cur.outs from fun _ => rfl, houts, hwire.outs, ← he]
    rfl
  · rw [hwire.stampNs]
    show ({ v.cur.unstamped with reqWait := _ } : TimeSt) = _
    rw [show v.cur.unstamped = u.cur.unstamped from hx]
    unfold State.unstamped
    rw [htime]
    rfl

/-- A Sync that an idle MAC sends: its Follow_Up waits behind it. -/
theorem Tx.sendStamped_sync (t : Tx s0) {m q : ℕ} {log : ℤ} (h : t.cur.macIdle m = true) (hroom : t.cur.time.txq.length < 16)
    (hd : t.cur.ctl.down = false) (f : Bytes) :
    (t.sendStamped m f (.sync q log)).cur.outs = t.cur.outs ++ [.frame m f] ∧
      Still State.unstamped t.cur (t.sendStamped m f (.sync q log)).cur ∧ ∃ g,
        ((t.sendStamped m f (.sync q log)).cur.macSt m).out = [⟨.frame g, g.length, t.cur.clock, none, none⟩] ∧
          g = t.cur.ptpFrame m false none (t.cur.ptpMsg 8 0 0 q 2 log (ptpStamp (t.cur.stampNs m true t.cur.clock))) := by
  unfold Tx.sendStamped
  generalize he : (⟨.frame f, f.length, t.cur.clock, none, some (.sync q log)⟩ : Egress) = e
  have hwire := t.begins m e
  generalize hu : (t.taken m e).started m t.cur.clock e = u at hwire
  have htime : u.cur.time = t.cur.time := hwire.keeps.time (by decide)
  have hclock : u.cur.clock = t.cur.clock := (hwire.keeps.clock (by decide)).2
  have hdown : u.cur.ctl.down = false := by
    have hctl := congrArg Control.down (hwire.keeps.ctl (by decide)).1
    exact hctl.trans hd
  obtain ⟨g, hst, hg⟩ := u.stamped_sync (m := m) (c := t.cur.clock) (q := q) (log := log) (by rw [htime]; exact hroom) hdown
  rw [hclock] at hst
  rw [hwire.stampNs, State.ptpMsg_congr (a := t.cur) fun c hc => by rcases hc with rfl | rfl <;> exact hwire.keeps.gOf,
    State.ptpFrame_congr (a := t.cur) (State.ethFrame_congr fun c hc => by rcases hc with rfl | rfl | rfl <;> exact hwire.keeps.gOf)
      hwire.keeps.gOf hwire.keeps.gOf] at hg
  have hx := u.stampSent_unstamped m t.cur.clock (.sync q log)
  have hnet := u.stampSent_net m t.cur.clock (.sync q log)
  have houts := u.stampSent_outs m t.cur.clock (.sync q log)
  generalize (u.stampSent m t.cur.clock (.sync q log)).2 = v at hst hx hnet houts
  have hvm : v.cur.macSt m = u.cur.macSt m := State.macSt_congr hnet m
  have hmac : (u.stamped m t.cur.clock (.sync q log)).cur.macSt m =
      { u.cur.macSt m with out := [⟨.frame g, g.length, t.cur.clock, none, none⟩] } := by
    rw [hst]
    unfold Tx.enqueue
    rw [Tx.setMac_macSt, if_pos rfl, hvm, hwire.mac]
    rfl
  rw [t.egress_stamped h (e := e) (r := .sync q log) (by rw [← he]) (by rw [← he]) (by rw [← he]) hu.symm hmac (by simp)]
  refine ⟨?_, ?_, g, by rw [hmac], hg⟩
  · rw [hst, (Tx.enqueue_keeps ..).outs (by decide), houts, hwire.outs, ← he]
    rfl
  · rw [hst]
    exact .step (Kept.unstamped (Tx.enqueue_keeps ..)) (.step hx (Kept.unstamped hwire.keeps))

theorem State.macIdle_up (h : a.macIdle n = true) : a.macUp n = true := by
  unfold State.macIdle at h
  simp only [Bool.and_eq_true] at h
  obtain ⟨⟨⟨⟨hup, -⟩, -⟩, -⟩, -⟩ := h
  exact hup

theorem delayReqSend_sends (hc : s.clocked = true) (hd : s.ctl.down = false) (hst : s.g 0x5001 0 0x11 = 8 ∨ s.g 0x5001 0 0x11 = 9)
    (hidle : s.macIdle (s.g 0x5001 0 0x12) = true) (hdue : s.time.sentReq + s.ptpInterval 0x0B ≤ max s.clock clock)
    (hroom : s.time.txq.length < 16) :
    ∃ t f, exec (.delayReqSend clock) s = .next t ∧ t.outs = [.frame (s.g 0x5001 0 0x12) f] ∧
      t.time.seqReq = (s.time.seqReq + 1) % 65536 ∧ t.time.sentReq = max s.clock clock ∧
      t.time.reqWait = some (s.time.seqReq, ((s.stampNs (s.g 0x5001 0 0x12) true (max s.clock clock) * 65536 : ℕ) : ℤ)) := by
  have hup := State.macIdle_up hidle
  have hx : ∃ t, execDelayReqSend clock s = .next t ∧ ∃ f, t.outs = [.frame (s.g 0x5001 0 0x12) f] ∧
      t.time.seqReq = (s.time.seqReq + 1) % 65536 ∧ t.time.sentReq = max s.clock clock ∧
      t.time.reqWait = some (s.time.seqReq, ((s.stampNs (s.g 0x5001 0 0x12) true (max s.clock clock) * 65536 : ℕ) : ℤ)) := by
    unfold execDelayReqSend
    refine runCtl_to hc hd _ rfl fun t ht => ?_
    dsimp only at ht
    have hu := Tx.waits s clock
    have houts : ((Tx.start s).at_ clock).cur.outs = [] := rfl
    generalize (Tx.start s).at_ clock = u at ht hu houts
    have hcond : ¬ ((s.g 0x5001 0 0x11 != 8 && s.g 0x5001 0 0x11 != 9 ||
        decide (max s.clock clock < s.time.sentReq + s.ptpInterval 0x0B) || !s.macUp (s.g 0x5001 0 0x12)) = true) := by
      rw [hup, decide_eq_false (Nat.not_lt.mpr hdue)]
      rcases hst with h | h <;> rw [h] <;> decide
    rw [hu.port, hu.port, hu.counter, hu.time, hu.interval, hu.macUp, if_neg hcond] at ht
    obtain ⟨w, hw⟩ : ∃ w, w = u.setTime { s.time with
      sentReq := max s.clock clock, seqReq := (s.time.seqReq + 1) % 65536, reqWait := none } := ⟨_, rfl⟩
    rw [← hw] at ht
    have hfree : w.cur.macIdle (s.g 0x5001 0 0x12) = true := State.macIdle_same (a := s) (by rw [hw]; exact hu.macs)
      (fun c h => by rw [hw]; exact hu.g (by rcases h with rfl | rfl <;> decide))
      (by rw [hw]; show _ ≤ u.cur.clock; rw [hu.counter]; exact le_max_left ..) hidle
    have htime : w.cur.time = { s.time with sentReq := max s.clock clock, seqReq := (s.time.seqReq + 1) % 65536, reqWait := none } := by
      rw [hw]; rfl
    have hstamp : w.cur.stampNs (s.g 0x5001 0 0x12) true w.cur.clock = s.stampNs (s.g 0x5001 0 0x12) true (max s.clock clock) := by
      rw [show w.cur.clock = max s.clock clock by rw [hw]; exact hu.counter, ← hu.stampNs]
      refine State.stampNs_congr (State.nsAt_congr (by rw [hw]; rfl) ?_) (fun c _ => by rw [hw]; rfl) ..
      rw [htime, hu.time]
    have hwo : w.cur.outs = [] := by rw [hw]; exact houts
    obtain ⟨ho, hx⟩ := w.sendStamped_delayReq hfree (by rw [htime]; exact hroom) (u.cur.ptpFrame (s.g 0x5001 0 0x12) true
      (if (u.cur.g 0x5001 0 0x08 == 1 && s.time.peer != (0, 0)) = true then some s.time.peer else none)
      (u.cur.ptpMsg 1 (if (u.cur.g 0x5001 0 0x08 == 1 && s.time.peer != (0, 0)) = true then 1024 else 0) (-u.cur.asymmetry)
        s.time.seqReq 1 127 (zeros 10))) (q := s.time.seqReq)
    generalize w.sendStamped _ _ _ = v at ht ho hx
    rw [ht.time (by simp), ht.outs (by simp), ho, hwo]
    refine ⟨_, rfl, ?_⟩
    unfold State.unstamped at hx
    rw [htime, hstamp] at hx
    exact ⟨(congrArg TimeSt.seqReq hx :), (congrArg TimeSt.sentReq hx :), (congrArg TimeSt.reqWait hx :)⟩
  obtain ⟨t, ht, f, hf⟩ := hx
  exact ⟨t, f, ht, hf⟩

theorem ptpSend_syncs (hc : s.clocked = true) (hd : s.ctl.down = false) (hst : s.g 0x5001 0 0x11 = 6)
    (hidle : s.macIdle (s.g 0x5001 0 0x12) = true) (hdue : s.time.sentSync + s.ptpInterval 0x09 ≤ max s.clock clock)
    (hroom : s.time.txq.length < 16) {f g : Bytes}
    (hf : f = s.ptpFrame (s.g 0x5001 0 0x12) true none (s.ptpMsg 0 0x0200 0 s.time.seqSync 0 (signed 16 (s.g 0x5001 0 0x09)) (zeros 10)))
    (hg : g = s.ptpFrame (s.g 0x5001 0 0x12) false none (s.ptpMsg 8 0 0 s.time.seqSync 2 (signed 16 (s.g 0x5001 0 0x09))
      (ptpStamp (s.stampNs (s.g 0x5001 0 0x12) true (max s.clock clock))))) :
    ∃ t, exec (.ptpSend 0 clock) s = .next t ∧ t.outs = [.frame (s.g 0x5001 0 0x12) f] ∧
      (t.macSt (s.g 0x5001 0 0x12)).out = [⟨.frame g, g.length, max s.clock clock, none, none⟩] ∧
      t.time.seqSync = (s.time.seqSync + 1) % 65536 ∧ t.time.sentSync = max s.clock clock := by
  have hup := State.macIdle_up hidle
  change ∃ t, execPtpSend 0 clock s = .next t ∧ _
  unfold execPtpSend
  refine runCtl_to hc hd _ rfl fun t ht => ?_
  dsimp only at ht
  have hu := Tx.waits s clock
  have houts : ((Tx.start s).at_ clock).cur.outs = [] := rfl
  have hdown : ((Tx.start s).at_ clock).cur.ctl.down = s.ctl.down := rfl
  generalize (Tx.start s).at_ clock = u at ht hu houts hdown
  have hframe : ∀ e p b, u.cur.ptpFrame (s.g 0x5001 0 0x12) e p b = s.ptpFrame (s.g 0x5001 0 0x12) e p b :=
    State.ptpFrame_congr (State.ethFrame_congr fun c h => hu.g (by rcases h with rfl | rfl | rfl <;> decide)) (hu.port _) hu.g
  have hmsg := State.ptpMsg_congr fun c _ => hu.port c
  rw [hu.port, hu.port, hu.counter, hu.time, hu.interval, hu.macUp, hup, hst, if_neg (by decide), if_pos (by decide),
    if_neg (Nat.not_lt.mpr hdue), hu.port, hframe, hmsg] at ht
  obtain ⟨w, hw⟩ : ∃ w, w = u.setTime { s.time with sentSync := max s.clock clock, seqSync := (s.time.seqSync + 1) % 65536 } := ⟨_, rfl⟩
  rw [← hw, ← hf] at ht
  have hfree : w.cur.macIdle (s.g 0x5001 0 0x12) = true := State.macIdle_same (a := s) (by rw [hw]; exact hu.macs)
    (fun c h => by rw [hw]; exact hu.g (by rcases h with rfl | rfl <;> decide))
    (by rw [hw]; show _ ≤ u.cur.clock; rw [hu.counter]; exact le_max_left ..) hidle
  have htime : w.cur.time = { s.time with sentSync := max s.clock clock, seqSync := (s.time.seqSync + 1) % 65536 } := by
    rw [hw]; rfl
  have hclock : w.cur.clock = max s.clock clock := by rw [hw]; exact hu.counter
  have hstamp : w.cur.stampNs (s.g 0x5001 0 0x12) true w.cur.clock = s.stampNs (s.g 0x5001 0 0x12) true (max s.clock clock) := by
    rw [hclock, ← hu.stampNs]
    refine State.stampNs_congr (State.nsAt_congr (by rw [hw]; rfl) ?_) (fun c _ => by rw [hw]; rfl) ..
    rw [htime, hu.time]
  have hwframe : ∀ e p b, w.cur.ptpFrame (s.g 0x5001 0 0x12) e p b = s.ptpFrame (s.g 0x5001 0 0x12) e p b := fun e p b => by
    rw [← hframe, hw]; rfl
  have hwmsg : ∀ ty fl corr seq ctl log b, w.cur.ptpMsg ty fl corr seq ctl log b = s.ptpMsg ty fl corr seq ctl log b :=
    fun ty fl corr seq ctl log b => by rw [← hmsg, hw]; rfl
  have hwo : w.cur.outs = [] := by rw [hw]; exact houts
  obtain ⟨ho, hx, g', hout, hg'⟩ := w.sendStamped_sync hfree (by rw [htime]; exact hroom) (by rw [hw]; exact hdown.trans hd) f
    (q := s.time.seqSync) (log := signed 16 (s.g 0x5001 0 0x09))
  rw [hwframe, hwmsg, hstamp, ← hg] at hg'
  rw [hg', hclock] at hout
  generalize w.sendStamped _ _ _ = v at ht ho hx hout
  unfold Still State.unstamped at hx
  rw [htime] at hx
  rw [ht.time (by simp), ht.outs (by simp), ho, hwo, State.macSt_congr (ht.net (by simp))]
  exact ⟨rfl, hout, (congrArg TimeSt.seqSync hx :), (congrArg TimeSt.sentSync hx :)⟩

/-! ## The best master -/

/-- What the choice of a master leaves of the state of time. -/
def State.heard (s : State) : List Foreign × List (ℕ × ℕ) := (s.time.foreigns, s.time.annAt)

theorem Kept.heard {l : List Span} (h : Keeps l M a b) (hM : Part.time ∉ M := by decide) : Still State.heard a b := by
  unfold Still State.heard
  rw [h.time hM]

theorem Still.heard (h : Still State.unsteered a b) : Still State.heard a b := by
  have hf := congrArg TimeSt.foreigns h
  have hn := congrArg TimeSt.annAt h
  exact Prod.ext hf hn

theorem Tx.showGm_heard (t : Tx s0) (i k : ℕ) : Still State.heard t.cur (t.showGm i k).cur := Kept.heard (t.showGm_keeps i k)

theorem Tx.ptpFollow_heard (t : Tx s0) (f : Foreign) : Still State.heard t.cur (t.ptpFollow f).cur := by
  unfold Tx.ptpFollow
  dsimp only
  have hu := t.showGm_heard (leNat (beBytes 8 f.gm)) (f.steps + 1)
  generalize t.showGm (leNat (beBytes 8 f.gm)) (f.steps + 1) = u at hu ⊢
  refine .ite hu (.step (Kept.heard (Tx.ptpCalibrated_keeps _)) (.step (Kept.heard (l := [.all 0x5001 [0x11]]) (M := []) (.w (.refl ..)))
    (.step (b := u.cur) ?_ hu)))
  rfl

theorem Tx.ptpLeave_heard (t : Tx s0) (st : ℕ) : Still State.heard t.cur (t.ptpLeave st).cur := by
  unfold Tx.ptpLeave
  dsimp only
  refine .when (.when (.step (Kept.heard (l := [.all 0x5001 [0x11]]) (M := []) (.w (.refl ..))) (?_ : Still State.heard t.cur _))
    (Tx.showGm_heard ..)) (Tx.sourceLost_unsteered _).heard
  rfl

theorem Tx.bmca_heard (t : Tx s0) : Still State.heard t.cur t.bmca.cur := by
  unfold Tx.bmca
  dsimp only
  split
  · exact .refl ..
  · exact .ite (Tx.ptpFollow_heard ..) (.ite (.ite (.refl ..) (Tx.ptpLeave_heard ..)) (.ite (.ite (.ite (.refl ..) (Tx.ptpLeave_heard ..))
      (Tx.ptpFollow_heard ..)) (.ite (.refl ..) (Tx.ptpLeave_heard ..))))

theorem ptpAnnounce_remembers (hc : s.clocked = true) (hd : s.ctl.down = false) (htake : s.ptpTakes n 64 m = true)
    (hother : ptpIdentOf m / 65536 ≠ beNat s.ptpIdent) (hsteps : fieldBE m 61 2 < 255) :
    ∃ t f, exec (.ptpAnnounce n m) s = .next t ∧ t.time.foreigns.head? = some f ∧ f.mac = n ∧ f.ident = ptpIdentOf m ∧
      f.gm = fieldBE m 53 8 ∧ f.prio1 = fieldBE m 47 1 ∧ f.quality = fieldBE m 48 4 ∧ f.prio2 = fieldBE m 52 1 ∧
      f.steps = fieldBE m 61 2 ∧ f.last = s.clock ∧ mget? t.time.annAt n = some s.clock := by
  have hx : ∃ t, execPtpAnnounce n m s = .next t ∧ ∃ f, t.time.foreigns.head? = some f ∧ f.mac = n ∧ f.ident = ptpIdentOf m ∧
      f.gm = fieldBE m 53 8 ∧ f.prio1 = fieldBE m 47 1 ∧ f.quality = fieldBE m 48 4 ∧ f.prio2 = fieldBE m 52 1 ∧
      f.steps = fieldBE m 61 2 ∧ f.last = s.clock ∧ mget? t.time.annAt n = some s.clock := by
    unfold execPtpAnnounce
    refine runCtl_to hc hd _ rfl fun t ht => ?_
    dsimp only at ht
    rw [if_neg (by rw [htake, decide_eq_false (Nat.not_le.mpr hsteps)]; simpa using hother)] at ht
    generalize (Tx.start s).ptpPop = u at ht
    have hset : ∀ x, (u.setTime x).cur.heard = (x.foreigns, x.annAt) := fun _ => rfl
    generalize hf : (⟨n, ptpIdentOf m, fieldBE m 53 8, fieldBE m 47 1, fieldBE m 48 4, fieldBE m 52 1, fieldBE m 61 2, s.clock,
      (s.time.foreigns.find? (fun f => f.mac == n && f.ident == ptpIdentOf m)).map (·.last)⟩ : Foreign) = f at ht
    have hset := hset { s.time with
      foreigns := (f :: s.time.foreigns.filter (fun f => !(f.mac == n && f.ident == ptpIdentOf m))).take 16,
      annAt := mset n s.clock s.time.annAt }
    generalize u.setTime { s.time with
      foreigns := (f :: s.time.foreigns.filter (fun f => !(f.mac == n && f.ident == ptpIdentOf m))).take 16,
      annAt := mset n s.clock s.time.annAt } = v at ht hset
    have hend := Eq.trans v.bmca_heard hset
    unfold State.heard at hend
    rw [← ht.time (by simp)] at hend
    obtain ⟨hfs, han⟩ := Prod.ext_iff.mp hend
    dsimp only at hfs han
    refine ⟨f, by rw [hfs]; rfl, ?_⟩
    rw [han, mget?_mset_same, ← hf]
    exact ⟨rfl, rfl, rfl, rfl, rfl, rfl, rfl, rfl, rfl⟩
  obtain ⟨t, ht, f, hf⟩ := hx
  exact ⟨t, f, ht, hf⟩

/-- A port that gives up its master shows its new state. -/
theorem Tx.ptpLeave_leaves (t : Tx s0) {st : ℕ} (hst : st < 256) : (t.ptpLeave st).cur.time.parent = none ∧
    (t.ptpLeave st).cur.g 0x5001 0 0x11 = st ∧ BitStays (K 0x5001 0 0x1B) 0 t.cur (t.ptpLeave st).cur := by
  unfold Tx.ptpLeave
  extract_lets slave src u v w
  have hv : v.cur.time.parent = none := congrArg TimeSt.parent (Kept.time (E := Keys [.all 0x5001 [0x11]]) (M := []) (a := u.cur)
    (.w (.refl ..)) (by decide))
  have h11 : v.cur.g 0x5001 0 0x11 = st := Tx.w_g_of (i := 0x5001) (c := 0x11) _ (entryAt_ent (by decide : 0 < 1) rfl)
    (fit_of_lt (by decide) hst)
  have hbit : BitStays (K 0x5001 0 0x1B) 0 t.cur v.cur :=
    .of (l := [.all 0x5001 [0x11]]) (M := [.time]) (.w (.setTime (.refl ..)))
  clear_value v
  have hgm : ∀ i k, BitStays (K 0x5001 0 0x1B) 0 v.cur (v.showGm i k).cur := fun i k => by
    unfold Tx.showGm
    dsimp only
    have hw : BitStays (K 0x5001 0 0x1B) 0 v.cur ((v.w 0x5001 0 0x13 i).w 0x5001 0 0x14 k).cur :=
      .of (l := [.all 0x5001 [0x13, 0x14]]) (M := []) (.w (.w (.refl ..)))
    exact .ite (hw.trans (Tx.flag_stays _ (entryAt_ent (i := 0x5001) (c := 0x1B) (by decide : 0 < 1) rfl) rfl rfl rfl)) hw
  have hgk : Keeps [.all 0x5001 [0x13, 0x14, 0x1B]] [] v.cur w.cur := .when (fun _ => .step (Tx.showGm_keeps ..) (.refl ..)) (.refl ..)
  have hwb : BitStays (K 0x5001 0 0x1B) 0 t.cur w.cur := .ite (hbit.trans (hgm ..)) hbit
  have hwt : w.cur.time.parent = none := (congrArg TimeSt.parent (hgk.time (by decide))).trans hv
  have hw11 : w.cur.g 0x5001 0 0x11 = st := hgk.gOf.trans h11
  clear_value w
  have hlost : ∀ p : Bool, Still State.unsteered w.cur (w.when p Tx.sourceLost).cur := fun p => .when (.refl ..) (Tx.sourceLost_unsteered _)
  have hkeep : ∀ p : Bool, Keeps [.all 0x5000 [0x04, 0x07, 0x08, 0x0B, 0x1A, 0x1C], .all 0x5001 [0x15], .ctr 143 143] [.maps, .time] w.cur
      (w.when p Tx.sourceLost).cur := fun p => .when (fun _ => .step (Tx.sourceLost_keeps _) (.refl ..)) (.refl ..)
  exact ⟨(congrArg TimeSt.parent (hlost _)).trans hwt, (hkeep _).gOf.trans hw11, hwb.trans (.of (hkeep _))⟩

theorem announceTimeout_leaves (hc : s.clocked = true) (hd : s.ctl.down = false) (hon : s.on 0x5001 0 0x01 = true)
    (hst : s.g 0x5001 0 0x11 ∈ [4, 7, 8, 9]) (hother : s.otherMac = none)
    (hdue : max s.time.annFrom (mget 0 s.time.annAt (s.g 0x5001 0 0x12)) + s.annTimeout ≤ s.clock) :
    ∃ t, exec .announceTimeout s = .next t ∧ t.g 0x5001 0 0x18 = (s.g 0x5001 0 0x18 + 1) % 2 ^ 32 ∧
      bit (t.g 0x5001 0 0x1B) 0 = true ∧ t.time.parent = none ∧ t.g 0x5001 0 0x11 = (if s.g 0x5001 0 0x03 = 0 then 4 else 6) := by
  change ∃ t, execAnnounceTimeout s = .next t ∧ _
  unfold execAnnounceTimeout
  refine runCtl_to hc hd _ rfl fun t ht => ?_
  dsimp only at ht
  have hstate : (s.g 0x5001 0 0x11 == 4 || s.g 0x5001 0 0x11 == 7 || s.g 0x5001 0 0x11 == 8 || s.g 0x5001 0 0x11 == 9) = true := by
    simpa [or_assoc] using hst
  rw [hon, hstate, decide_eq_false (Nat.not_lt.mpr hdue), if_neg (by decide), hother] at ht
  dsimp only at ht
  have hcount : ((Tx.start s).tally 0x5001 0 0x18).cur.g 0x5001 0 0x18 = (s.g 0x5001 0 0x18 + 1) % 2 ^ 32 :=
    Tx.tally_g _ (entryAt_ent (i := 0x5001) (c := 0x18) (by decide : 0 < 1) rfl) (by decide)
  generalize (Tx.start s).tally 0x5001 0 0x18 = u at ht hcount
  have hbit : bit ((u.flagBit 0x5001 0 0x1B 0).cur.g 0x5001 0 0x1B) 0 = true :=
    u.flagBit_bit (i := 0x5001) (n := 0) (b := 0x1B) (v := 0) (entryAt_ent (by decide : 0 < 1) rfl) rfl rfl rfl
  have hflag : Keeps [.all 0x5001 [0x1B]] [] u.cur (u.flagBit 0x5001 0 0x1B 0).cur := .flagBit (.refl ..)
  rw [← hflag.gOf] at hcount
  generalize u.flagBit 0x5001 0 0x1B 0 = v at ht hbit hcount
  have hall : ∀ x (p : Bool), Keeps [.all 0x5000 [0x04, 0x07, 0x08, 0x0B, 0x1A, 0x1C], .all 0x5001 [0x15], .ctr 143 143] [.maps, .time]
      v.cur ((v.setTime x).when p Tx.sourceLost).cur := fun x p =>
    .when (fun _ => .step (Tx.sourceLost_keeps _) (.refl ..)) (.setTime (.refl ..))
  have hcount : ∀ x (p : Bool), ((v.setTime x).when p Tx.sourceLost).cur.g 0x5001 0 0x18 = _ := fun x p => (hall x p).gOf.trans hcount
  have hbit : ∀ x (p : Bool), bit (((v.setTime x).when p Tx.sourceLost).cur.g 0x5001 0 0x1B) 0 = true := fun x p => by
    rw [(hall x p).gOf, hbit]
  have hcount := hcount { s.time with annFrom := s.clock } (s.g 0x5001 0 0x11 == 4 && s.g 0x5000 0 0x05 == 0)
  have hbit := hbit { s.time with annFrom := s.clock } (s.g 0x5001 0 0x11 == 4 && s.g 0x5000 0 0x05 == 0)
  generalize (v.setTime { s.time with annFrom := s.clock }).when (s.g 0x5001 0 0x11 == 4 && s.g 0x5000 0 0x05 == 0) Tx.sourceLost = w
    at ht hcount hbit
  simp only [beq_iff_eq] at ht
  obtain ⟨hpar, h11, hstay⟩ := w.ptpLeave_leaves (st := if s.g 0x5001 0 0x03 = 0 then 4 else 6) (by split <;> decide)
  have hk := w.ptpLeave_keeps (if s.g 0x5001 0 0x03 = 0 then 4 else 6)
  refine ⟨by rw [ht.seenG, hk.gOf, hcount], ?_, by rw [ht.time (by simp), hpar], by rw [ht.seenG, h11]⟩
  rw [ht.seenG]
  exact hstay.stays hbit

/-- Settles O30. -/
theorem ptpComplete : Obligations.PtpComplete := by
  unfold Obligations.PtpComplete
  refine ⟨fun s n m clock mac ip hc hd _ => ⟨ptpSync_waits hc hd, fun w => ptpFollowUp_measures hc hd, fun t3 ms => ptpDelayResp_measures hc hd,
    ptpDelayReq_answers hc hd, delayReqSend_sends hc hd, fun hst hidle hdue hroom => ptpSend_syncs hc hd hst hidle hdue hroom rfl rfl⟩,
    fun s hc hd => ⟨fun n m _ => ptpAnnounce_remembers hc hd, announceTimeout_leaves hc hd⟩⟩

end Sys2Proof.Machine
end

section
/-! PROOFS. Triggers and captures (R249, R250, R252). -/

namespace Sys2Proof.Machine
open Sys2Proof

set_option Elab.async false

variable {s0 s a b : State} {M : List Part} {n h : ℕ} {d : Bytes}

/-! ## Targets -/

/-- The targets of the triggers that wait. -/
def State.targets (s : State) : List (ℕ × ℕ) := s.time.trig

theorem Kept.targets {l : List Span} (h : Keeps l M a b) (hM : Part.time ∉ M := by decide) : Still State.targets a b :=
  congrArg TimeSt.trig (h.time hM)

theorem State.target_congr (h : Still State.targets a b) (n : ℕ) : b.target n = a.target n := congrArg (mget? · n) h

theorem Tx.setTarget_target (t : Tx s0) (n x : ℕ) : (t.setTarget n x).cur.target n = some x := by
  unfold Tx.setTarget
  rw [State.target_congr (Kept.targets (l := [.all 0x5100 [0x07]]) (M := []) (.w (.refl ..)))]
  exact mget?_mset_same ..

theorem Tx.disarm_disarms (t : Tx s0) (hn : n < 16) : (t.disarm n).cur.target n = none ∧ (t.disarm n).cur.g 0x5100 n 0x01 = 0 := by
  unfold Tx.disarm
  dsimp only
  generalize ht : t.setTime _ = u
  have hu : u.cur.target n = none := by
    rw [← ht]
    exact mget?_mdel_same ..
  have hw : ∀ v : Tx s0, Keeps [.all 0x5100 [0x07]] [] v.cur (v.w 0x5100 n 0x07 0).cur := fun v => .w (.refl ..)
  refine ⟨?_, (hw _).gOf.trans (Tx.w_g_of _ (entryAt_ent hn rfl) rfl)⟩
  rw [State.target_congr (Kept.targets (l := [.all 0x5100 [0x01, 0x07]]) (M := []) (.w (.w (.refl ..)))), hu]

theorem Tx.ppsRise_targets (t : Tx s0) (ns : ℕ) : Still State.targets t.cur (t.ppsRise ns).cur := by
  unfold Tx.ppsRise
  dsimp only
  split
  · exact .ite rfl rfl
  · rfl

/-- What a trigger that fires leaves. -/
theorem Tx.fire_fires (t : Tx s0) (hn : n < 16) (ns : ℕ) : Still State.targets t.cur (t.fire n ns).cur ∧
    (t.fire n ns).cur.g 0x5100 n 0x08 = (t.cur.g 0x5100 n 0x08 + 1) % 2 ^ 32 ∧ bit ((t.fire n ns).cur.g 0x5100 n 0x0B) 0 = true := by
  unfold Tx.fire
  dsimp only
  have hcount : (t.tally 0x5100 n 0x08).cur.g 0x5100 n 0x08 = (t.cur.g 0x5100 n 0x08 + 1) % 2 ^ 32 :=
    Tx.tally_g _ (i := 0x5100) (c := 0x08) (entryAt_ent hn rfl) (by decide)
  have htal : Still State.targets t.cur (t.tally 0x5100 n 0x08).cur :=
    Kept.targets (l := [.all 0x5100 [0x08], .ctr 0 0xFFF]) (M := []) (.tally (.refl ..))
  generalize t.tally 0x5100 n 0x08 = u at hcount htal ⊢
  have hw : ∀ x, Keeps [.all 0x5100 [0x09]] [] u.cur (u.w 0x5100 n 0x09 x).cur := fun x => .w (.refl ..)
  have hcount := fun x => (hw x).gOf.trans hcount
  have htal := fun x => Still.step (Kept.targets (hw x)) htal
  generalize hv : u.w 0x5100 n 0x09 _ = v
  have hcount : v.cur.g 0x5100 n 0x08 = (t.cur.g 0x5100 n 0x08 + 1) % 2 ^ 32 := hv ▸ hcount _
  have htal : Still State.targets t.cur v.cur := hv ▸ htal _
  have hflag : Keeps [.all 0x5100 [0x0B]] [] v.cur (v.flagBit 0x5100 n 0x0B 0).cur := .flagBit (.refl ..)
  have hbit : bit ((v.flagBit 0x5100 n 0x0B 0).cur.g 0x5100 n 0x0B) 0 = true :=
    v.flagBit_bit (i := 0x5100) (n := n) (b := 0x0B) (v := 0) (entryAt_ent hn rfl) rfl rfl rfl
  have hcount := hflag.gOf.trans hcount
  have htal := Still.step (Kept.targets hflag) htal
  generalize v.flagBit 0x5100 n 0x0B 0 = w at hcount htal hbit ⊢
  generalize hv : Tx.when (Tx.when (w.msg _ _) _ _) _ _ = x
  have hx : Keeps [.all 0x5F00 [0x01, 0x02]] [] w.cur x.cur := by
    rw [← hv]
    exact .when (fun _ => .step (Tx.eventRecord_keeps ..) (.refl ..)) (.when (fun _ => .step (Tx.rakeSet_keeps ..) (.refl ..)) (.msg (.refl ..)))
  have hrise : ∀ p : Bool, Keeps [] [.outs, .time] x.cur (x.when p (fun t => t.ppsRise ns)).cur := fun p =>
    .when (fun _ => .step (Tx.ppsRise_keeps ..) (.refl ..)) (.refl ..)
  refine ⟨.when (.step (Kept.targets hx) htal) (Tx.ppsRise_targets ..), (hrise _).gOf.trans (hx.gOf.trans hcount), ?_⟩
  rw [(hrise _).gOf, hx.gOf, hbit]

/-! ## Operations on a trigger -/

theorem State.reached_congr (ht : b.time.off = a.time.off) (hr : b.g 0x5000 0 0x04 = a.g 0x5000 0 0x04)
    (hf : b.g 0x3F00 0 0x01 = a.g 0x3F00 0 0x01) (base x c : ℕ) : b.reached base x c = a.reached base x c := by
  unfold State.reached State.sysAt State.rho State.fA
  rw [ht, hr, hf]

theorem begun_reached (st base x c : ℕ) : ((Tx.start s).status st).cur.reached base x c = s.reached base x c :=
  State.reached_congr rfl (begun_g ..) (begun_g ..) ..

theorem begun_target (st n : ℕ) : ((Tx.start s).status st).cur.target n = s.target n := rfl

theorem begun_clock (st : ℕ) : ((Tx.start s).status st).cur.clock = s.clock := rfl

theorem triggerArm_waits (hc : s.clocked = true) (hn : n < 16) (hk : s.writeCheck h (opOf 0x5100 n 0x01 d) = stOK) (h1 : leNat d = 1)
    (hnone : s.target n = none) {x : ℕ}
    (hx : x = if s.g 0x5100 n 0x02 = 0 then time80Ns (s.g 0x5100 n 0x03) else s.g 0x5100 n 0x04)
    (hr : s.reached (s.g 0x5100 n 0x02) x s.clock = false) :
    ∃ t, exec (.triggerArm h n d) s = .next t ∧ t.target n = some x ∧ t.g 0x5100 n 0x01 = 1 := by
  change ∃ t, execTriggerArm h n d s = .next t ∧ _
  unfold execTriggerArm
  refine run_to hc _ (guarded_start hk _) fun t ht => ?_
  unfold armRule at ht
  dsimp only at ht
  simp only [begun_target, hnone, h1, begun_g, begun_clock, begun_reached, beq_iff_eq, ← hx, hr, Bool.false_eq_true, if_false,
    Nat.one_ne_zero] at ht
  have hone : (((Tx.start s).status stOK).w 0x5100 n 0x01 1).cur.g 0x5100 n 0x01 = 1 := Tx.w_g_of _ (entryAt_ent hn rfl) rfl
  generalize ((Tx.start s).status stOK).w 0x5100 n 0x01 1 = u at ht hone
  refine ⟨?_, by rw [ht.seenG, (u.setTarget_keeps n x).gOf, hone]⟩
  rw [State.target_congr (congrArg TimeSt.trig (ht.time (by simp))), u.setTarget_target]

theorem triggerArm_late (hc : s.clocked = true) (hk : s.writeCheck h (opOf 0x5100 n 0x01 d) = stOK) (h1 : leNat d = 1)
    (hnone : s.target n = none) {x : ℕ}
    (hx : x = if s.g 0x5100 n 0x02 = 0 then time80Ns (s.g 0x5100 n 0x03) else s.g 0x5100 n 0x04)
    (hr : s.reached (s.g 0x5100 n 0x02) x s.clock = true) :
    ∃ t, exec (.triggerArm h n d) s = .next t ∧ t.result = ⟨some stTooLate, []⟩ ∧ Kept (fun _ => False) [.result, .outs] s t := by
  change ∃ t, execTriggerArm h n d s = .next t ∧ _
  unfold execTriggerArm
  refine run_to hc _ (guarded_start hk _) fun t ht => ?_
  unfold armRule at ht
  dsimp only at ht
  simp only [begun_target, hnone, h1, begun_g, begun_clock, begun_reached, beq_iff_eq, ← hx, hr, if_true, if_false, Nat.one_ne_zero] at ht
  exact ⟨by rw [ht.result (by simp)]; rfl, Kept.of_run (by simp) (by simp) (.status (.status (.refl ..))) ht⟩

theorem triggerDisarm_disarms (hc : s.clocked = true) (hn : n < 16) (hk : s.writeCheck h (opOf 0x5100 n 0x01 d) = stOK) (h0 : leNat d = 0)
    {x : ℕ} (hx : s.target n = some x) :
    ∃ t, exec (.triggerDisarm h n d) s = .next t ∧ t.target n = none ∧ t.g 0x5100 n 0x01 = 0 := by
  change ∃ t, execTriggerDisarm h n d s = .next t ∧ _
  unfold execTriggerDisarm
  refine run_to hc _ (guarded_start hk _) fun t ht => ?_
  unfold armRule at ht
  dsimp only at ht
  rw [begun_target, hx] at ht
  dsimp only at ht
  rw [if_neg (by rw [h0]; decide)] at ht
  generalize ((Tx.start s).status stOK).when _ _ = u at ht
  obtain ⟨hnone, hoff⟩ := u.disarm_disarms hn
  exact ⟨by rw [State.target_congr (congrArg TimeSt.trig (ht.time (by simp))), hnone], by rw [ht.seenG, hoff]⟩

theorem triggerFire_fires (hc : s.clocked = true) (hn : n < 16) {clock x : ℕ} (hx : s.target n = some x) (hw : s.trigWaits n = false)
    (hr : s.reached (s.g 0x5100 n 0x02) x (max s.clock clock) = true) :
    ∃ t, exec (.triggerFire n clock) s = .next t ∧ t.g 0x5100 n 0x08 = (s.g 0x5100 n 0x08 + 1) % 2 ^ 32 ∧
      bit (t.g 0x5100 n 0x0B) 0 = true ∧
      t.target n = (if s.g 0x5100 n 0x05 = 0 then none else some (x + s.g 0x5100 n 0x05)) := by
  change ∃ t, execTriggerFire n clock s = .next t ∧ _
  unfold execTriggerFire
  refine run_to hc _ rfl fun t ht => ?_
  dsimp only at ht
  have hat : ((Tx.start s).at_ clock).cur.target n = some x := hx
  have hwait : ((Tx.start s).at_ clock).cur.trigWaits n = false := hw
  have hclock : ((Tx.start s).at_ clock).cur.clock = max s.clock clock := rfl
  have hreach : ∀ base c, ((Tx.start s).at_ clock).cur.reached base x c = s.reached base x c :=
    fun base c => State.reached_congr rfl (at_g ..) (at_g ..) ..
  rw [hat] at ht
  dsimp only at ht
  rw [hwait, at_g, hreach, hclock, hr, if_neg (by decide), at_g] at ht
  obtain ⟨-, hcount, hbit⟩ := ((Tx.start s).at_ clock).fire_fires hn (((Tx.start s).at_ clock).cur.targetNs (s.g 0x5100 n 0x02) x)
  rw [at_g] at hcount
  generalize ((Tx.start s).at_ clock).fire n _ = u at ht hcount hbit
  have htar : ∀ {v : Tx s}, Kept (fun _ => False) [] v.cur t → t.target n = v.cur.target n := fun h =>
    State.target_congr (congrArg TimeSt.trig (h.time (by simp))) n
  by_cases hp : s.g 0x5100 n 0x05 = 0
  · rw [hp, if_pos (by decide)] at ht
    rw [htar ht, (u.disarm_disarms hn).1, if_pos hp, ht.seenG, ht.seenG, (u.disarm_keeps n).gOf, (u.disarm_keeps n).gOf]
    exact ⟨hcount, hbit, rfl⟩
  · rw [if_neg (by simpa using hp)] at ht
    rw [htar ht, u.setTarget_target, if_neg hp, ht.seenG, ht.seenG, (u.setTarget_keeps n _).gOf, (u.setTarget_keeps n _).gOf]
    exact ⟨hcount, hbit, rfl⟩

/-! ## Captures -/

theorem capture_takes (hc : s.clocked = true) {clock : ℕ} (hn : n < 8) (hon : s.on 0x5200 n 0x01 = true)
    (hnone : mget? s.time.caps n = none) {ns : ℕ} (hns : ns = s.nsAt (max s.clock clock)) :
    ∃ t, exec (.capture n clock) s = .next t ∧ t.g 0x5200 n 0x06 = ns * s.fA / 1000000000 % 2 ^ 64 ∧
      t.g 0x5200 n 0x07 = ns * s.fA % 1000000000 * 65536 / 1000000000 ∧
      t.g 0x5200 n 0x08 = (s.g 0x5200 n 0x08 + 1) % 2 ^ 32 ∧ bit (t.g 0x5200 n 0x0A) 0 = true := by
  change ∃ t, execCapture n clock s = .next t ∧ _
  unfold execCapture
  refine run_to hc _ rfl fun t ht => ?_
  dsimp only at ht
  have hu := Tx.waits s clock
  have hnow : ((Tx.start s).at_ clock).cur.ns = ns := hns.symm
  generalize (Tx.start s).at_ clock = u at ht hu hnow
  have hen : u.cur.on 0x5200 n 0x01 = true := by
    unfold State.on at hon ⊢
    rw [hu.g, hon]
  have hfa : u.cur.fA = s.fA := hu.g
  rw [hen, if_neg (by decide), hu.time, hnone] at ht
  dsimp only at ht
  rw [if_neg (by decide), hnow, hfa] at ht
  have hset : ∀ x, Keeps [] [.time] u.cur (u.setTime x).cur := fun x => .setTime (.refl ..)
  have hold : ∀ x, (u.setTime x).cur.g 0x5200 n 0x08 = s.g 0x5200 n 0x08 := fun x => (hset x).gOf.trans hu.g
  generalize hv : Tx.w (u.setTime _) 0x5200 n 0x05 _ = v at ht
  have hold : v.cur.g 0x5200 n 0x08 = s.g 0x5200 n 0x08 := by
    have h5 : ∀ (x : Tx s) y, Keeps [.all 0x5200 [0x05]] [] x.cur (x.w 0x5200 n 0x05 y).cur := fun x y => .w (.refl ..)
    rw [← hv, (h5 _ _).gOf]
    exact hold _
  have h6 : (v.w 0x5200 n 0x06 (ns * s.fA / 1000000000)).cur.g 0x5200 n 0x06 = ns * s.fA / 1000000000 % 2 ^ 64 :=
    Tx.w_get_same _ _ (entryAt_ent (i := 0x5200) (c := 0x06) hn rfl)
  have hk6 : Keeps [.all 0x5200 [0x06]] [] v.cur (v.w 0x5200 n 0x06 (ns * s.fA / 1000000000)).cur := .w (.refl ..)
  rw [← hk6.gOf] at hold
  generalize v.w 0x5200 n 0x06 (ns * s.fA / 1000000000) = w at ht h6 hold
  generalize hfrac : ns * s.fA % 1000000000 * 65536 / 1000000000 = frac at ht ⊢
  have h7 : (w.w 0x5200 n 0x07 frac).cur.g 0x5200 n 0x07 = frac :=
    Tx.w_g_of (i := 0x5200) (c := 0x07) _ (entryAt_ent hn rfl) (fit_of_lt (by decide) (show frac < 2 ^ 16 by omega))
  have hk7 : Keeps [.all 0x5200 [0x07]] [] w.cur (w.w 0x5200 n 0x07 frac).cur := .w (.refl ..)
  rw [← hk7.gOf] at hold h6
  generalize w.w 0x5200 n 0x07 frac = x at ht h6 h7 hold
  have h8 : (x.tally 0x5200 n 0x08).cur.g 0x5200 n 0x08 = (x.cur.g 0x5200 n 0x08 + 1) % 2 ^ 32 :=
    Tx.tally_g _ (i := 0x5200) (c := 0x08) (entryAt_ent hn rfl) (by decide)
  rw [hold] at h8
  have hk8 : Keeps [.all 0x5200 [0x08], .ctr 0 0xFFF] [] x.cur (x.tally 0x5200 n 0x08).cur := .tally (.refl ..)
  rw [← hk8.gOf] at h6 h7
  generalize x.tally 0x5200 n 0x08 = y at ht h6 h7 h8
  have hA : bit ((y.flagBit 0x5200 n 0x0A 0).cur.g 0x5200 n 0x0A) 0 = true :=
    y.flagBit_bit (i := 0x5200) (n := n) (b := 0x0A) (v := 0) (entryAt_ent hn rfl) rfl rfl rfl
  have hkA : Keeps [.all 0x5200 [0x0A]] [] y.cur (y.flagBit 0x5200 n 0x0A 0).cur := .flagBit (.refl ..)
  rw [← hkA.gOf] at h6 h7 h8
  generalize y.flagBit 0x5200 n 0x0A 0 = z at ht h6 h7 h8 hA
  generalize hlast : Tx.when (Tx.when (z.msg _ _) _ _) _ _ = l at ht
  have hl : Keeps [.all 0x5F00 [0x01, 0x02]] [] z.cur l.cur := by
    rw [← hlast]
    exact .when (fun _ => .step (Tx.eventRecord_keeps ..) (.refl ..)) (.when (fun _ => .step (Tx.rakeSet_keeps ..) (.refl ..)) (.msg (.refl ..)))
  rw [ht.seenG, ht.seenG, ht.seenG, ht.seenG, hl.gOf, hl.gOf, hl.gOf, hl.gOf]
  exact ⟨h6, h7, h8, hA⟩

/-- Settles O31. -/
theorem triggersComplete : Obligations.TriggersComplete := by
  unfold Obligations.TriggersComplete
  refine fun s n hc => ⟨fun h d hn hk h1 hnone => ⟨triggerArm_waits hc hn hk h1 hnone rfl, triggerArm_late hc hk h1 hnone rfl⟩,
    fun h d x hn hk h0 hx => triggerDisarm_disarms hc hn hk h0 hx, fun clock x hn hx hw hr => triggerFire_fires hc hn hx hw hr,
    fun clock hn hon hnone => capture_takes hc hn hon hnone rfl⟩

end Sys2Proof.Machine
end

section
/-! PROOFS. Sprinkler datagrams received (R253, R257, R259 to R262). -/

namespace Sys2Proof.Machine
open Sys2Proof

set_option Elab.async false

variable {s0 s a b : State} {M : List Part} {m : Bytes}

/-! ## A datagram that is heard -/

theorem SprkHeard.congr (h : SprkHeard a m) (hg : ∀ c, b.g 0x5400 0 c = a.g 0x5400 0 c) (hb : b.gb 0x5400 0 0x08 = a.gb 0x5400 0 0x08)
    (hf : b.g 0x3F00 0 0x01 = a.g 0x3F00 0 0x01) : SprkHeard b m := by
  unfold SprkHeard State.dgramTag State.sprkState State.fA at h ⊢
  rwa [hg, hg, hg, hg, hb, hf]

theorem State.isHead_congr (hg : b.g 0x5400 0 0x0D = a.g 0x5400 0 0x0D) (hs : b.sprk.before = a.sprk.before) : b.isHead = a.isHead := by
  unfold State.isHead
  rw [hg, hs]

/-- What stands once the datagram is taken from ring 2. -/
structure Taken (s a : State) : Prop where
  keeps : Keeps [.all 0x4E00 [0x03]] [.net] (Tx.start s).cur a
  macs : a.net.macs = s.net.macs

namespace Taken

theorem g {i n k : ℕ} (h : Taken s a) (hk : apart [.all 0x4E00 [0x03]] i k = true := by decide) : a.g i n k = s.g i n k := h.keeps.gOf hk

theorem dev (h : Taken s a) (k : ℕ) : a.g 0x5400 0 k = s.g 0x5400 0 k := h.g (by simp [apart, Span.all])

theorem gb {i n k : ℕ} (h : Taken s a) (hk : apart [.all 0x4E00 [0x03]] i k = true := by decide) : a.gb i n k = s.gb i n k := h.keeps.gbOf hk

theorem sprk (h : Taken s a) : a.sprk = s.sprk := h.keeps.sprk (by decide)

theorem counter (h : Taken s a) : a.clock = s.clock := (h.keeps.clock (by decide)).2

theorem heard (h : Taken s a) (hm : SprkHeard s m) : SprkHeard a m := hm.congr h.dev h.gb h.g

theorem isHead (h : Taken s a) : a.isHead = s.isHead := State.isHead_congr (h.dev _) (by rw [h.sprk])

theorem state (h : Taken s a) : a.sprkState = s.sprkState := h.dev _

theorem last (h : Taken s a) : a.sprkLast = s.sprkLast := h.dev _

theorem outs (h : Taken s a) : a.outs = [] := h.keeps.outs (by decide)

end Taken

theorem Tx.takes (s : State) : Taken s ((Tx.start s).ringPop 2).cur := ⟨Tx.ringPop_keeps .., Tx.ringPop_macs ..⟩

/-- A datagram whose epoch is known and that comes from no head leaves the device as it is. -/
theorem Tx.followEpoch_member (t : Tx s0) {x : Dgram} {first : Option ℕ} (he : x.epoch = t.cur.g 0x5400 0 0x0F) (h0 : x.ty ≠ 0) (h1 : x.ty ≠ 1) :
    t.followEpoch x first = t := by
  unfold Tx.followEpoch
  dsimp only
  rw [if_neg (by rw [he]; exact Nat.lt_irrefl _), if_neg (by simp [h0, h1])]

/-- A device that follows a head shows whose datagram of the epoch known it heard. -/
theorem Tx.followEpoch_head (t : Tx s0) {x : Dgram} {first : Option ℕ} (he : x.epoch = t.cur.g 0x5400 0 0x0F) (hty : x.ty = 0 ∨ x.ty = 1)
    (hh : t.cur.isHead = false) (hu : t.cur.sprk.unseen = false) : t.followEpoch x first = t.w 0x5400 0 0x0E x.sender := by
  unfold Tx.followEpoch
  dsimp only
  rw [if_neg (by rw [he]; exact Nat.lt_irrefl _), if_pos (by rcases hty with h | h <;> simp [h]), hh, if_pos (by decide), hu]
  cases first <;> rfl

theorem Tx.dgram_gate (hm : SprkHeard s m) {types : List ℕ} {f : Dgram → Tx s → Tx s} (hty : types.contains (dgramOf m).ty = true) :
    ∃ first, (Tx.start s).dgram m types f = f (dgramOf m) ((((Tx.start s).ringPop 2).followEpoch (dgramOf m) first).when
      (((dgramOf m).ty == 0 || (dgramOf m).ty == 1) && !(((Tx.start s).ringPop 2).followEpoch (dgramOf m) first).cur.isHead)
      (fun t => t.sprkSet (fun y => { y with beatAt := t.cur.clock }))) := by
  refine ⟨if (dgramOf m).ty == 0 then some (dgramOf m).seq else if (dgramOf m).ty == 1 then some (((dgramOf m).seq + 1) % 2 ^ 32) else none, ?_⟩
  obtain ⟨hrole, htag, hsys, hver, hrate, hepoch, hst⟩ := (Tx.takes s).heard hm
  unfold Tx.dgram
  dsimp only
  generalize (Tx.start s).ringPop 2 = u at hrole htag hsys hver hrate hepoch hst ⊢
  rw [if_neg (by simpa using hrole), if_neg (by rw [htag]; decide), if_neg (by rw [hty, hsys, hver, hepoch]; simp), if_neg (by rw [hrate]; simp)]
  rw [show u.when (u.cur.sprkState == 5) Tx.mismatchEnd = u from if_neg (by simpa using hst)]

/-- What a datagram brings that comes from no head. -/
theorem Tx.dgram_member (hm : SprkHeard s m) {types : List ℕ} {f : Dgram → Tx s → Tx s} (hty : types.contains (dgramOf m).ty = true)
    (h0 : (dgramOf m).ty ≠ 0) (h1 : (dgramOf m).ty ≠ 1) : (Tx.start s).dgram m types f = f (dgramOf m) ((Tx.start s).ringPop 2) := by
  obtain ⟨first, hgate⟩ := Tx.dgram_gate hm (f := f) hty
  have hx := (Tx.takes s).heard hm
  rw [hgate, Tx.followEpoch_member _ hx.2.2.2.2.2.1 h0 h1]
  rw [show ((Tx.start s).ringPop 2).when _ _ = (Tx.start s).ringPop 2 from if_neg (by simp [h0, h1])]

/-- What a datagram of the head brings to a device that follows it. -/
theorem Tx.dgram_head (hm : SprkHeard s m) {types : List ℕ} {f : Dgram → Tx s → Tx s} (hty : types.contains (dgramOf m).ty = true)
    (h01 : (dgramOf m).ty = 0 ∨ (dgramOf m).ty = 1) (hh : s.isHead = false) (hu : s.sprk.unseen = false) :
    (Tx.start s).dgram m types f = f (dgramOf m) ((((Tx.start s).ringPop 2).w 0x5400 0 0x0E (dgramOf m).sender).sprkSet
      (fun y => { y with beatAt := s.clock })) := by
  obtain ⟨first, hgate⟩ := Tx.dgram_gate hm (f := f) hty
  have ht := Tx.takes s
  have hx := ht.heard hm
  rw [hgate, Tx.followEpoch_head _ hx.2.2.2.2.2.1 h01 (ht.isHead.trans hh) (by rw [ht.sprk]; exact hu)]
  generalize (Tx.start s).ringPop 2 = u at ht
  have hw : Keeps [.all 0x5400 [0x0E]] [] u.cur (u.w 0x5400 0 0x0E (dgramOf m).sender).cur := .w (.refl ..)
  have hhead : (u.w 0x5400 0 0x0E (dgramOf m).sender).cur.isHead = false :=
    (State.isHead_congr hw.gOf (by rw [hw.sprk (by decide)])).trans (ht.isHead.trans hh)
  rw [hhead, show ∀ r, Tx.when (u.w 0x5400 0 0x0E (dgramOf m).sender) (((dgramOf m).ty == 0 || (dgramOf m).ty == 1) && !false) r =
    r (u.w 0x5400 0 0x0E (dgramOf m).sender) from fun r => if_pos (by rcases h01 with h | h <;> simp [h])]
  rw [(hw.clock (by decide)).2, ht.counter]

theorem fieldLE_lt (b : Bytes) (o n : ℕ) : fieldLE b o n < 256 ^ n :=
  (leNat_lt _).trans_le (Nat.pow_le_pow_right (by decide) (by unfold slice; simp))

theorem heartbeatReceived_follows (hc : s.clocked = true) (hd : s.ctl.down = false) (hm : SprkHeard s m) (hty : (dgramOf m).ty = 1)
    (hh : s.isHead = false) (hu : s.sprk.unseen = false) : ∃ t, exec (.heartbeatReceived m) s = .next t ∧
      t.sprk = { s.sprk with beatAt := s.clock } ∧ t.g 0x5400 0 0x0E = (dgramOf m).sender := by
  change ∃ t, execHeartbeatReceived m s = .next t ∧ _
  unfold execHeartbeatReceived
  refine runCtl_to hc hd _ (Tx.dgram_head hm (by rw [hty]; rfl) (.inr hty) hh hu) fun t ht => ?_
  have hu := Tx.takes s
  generalize (Tx.start s).ringPop 2 = u at ht hu
  have h0E : (u.w 0x5400 0 0x0E (dgramOf m).sender).cur.g 0x5400 0 0x0E = (dgramOf m).sender :=
    Tx.w_g_of (i := 0x5400) (c := 0x0E) _ (entryAt_ent (by decide : 0 < 1) rfl) (fit_of_lt (by decide) (fieldLE_lt ..))
  have hw : Keeps [.all 0x5400 [0x0E]] [] u.cur (u.w 0x5400 0 0x0E (dgramOf m).sender).cur := .w (.refl ..)
  have hs := (hw.sprk (by decide)).trans hu.sprk
  generalize u.w 0x5400 0 0x0E (dgramOf m).sender = v at ht h0E hs
  have hset : Keeps [] [.sprk] v.cur (v.sprkSet (fun y => { y with beatAt := s.clock })).cur := .step (Tx.sprkSet_keeps ..) (.refl ..)
  refine ⟨?_, by rw [ht.seenG, hset.gOf, h0E]⟩
  rw [ht.sprk (by simp), ← hs]
  rfl

/-! ## NAK and STATUS -/

theorem nak_repairs (hc : s.clocked = true) (hd : s.ctl.down = false) (hm : SprkHeard s m) {k : ℕ × ℕ × Bytes} (hty : (dgramOf m).ty = 2)
    (hh : s.isHead = true) (hone : fieldLE (dgramOf m).payload 4 2 = 1)
    (hk : s.sprk.kept.find? (fun k => k.1 == fieldLE (dgramOf m).payload 0 4) = some k)
    (hfree : ∀ p ∈ s.sprk.repaired, p.1 = fieldLE (dgramOf m).payload 0 4 → p.2 + msC 2 ≤ s.clock) :
    ∃ t, exec (.nak m) s = .next t ∧ t.g 0x5400 0 0x13 = (s.g 0x5400 0 0x13 + 1) % 2 ^ 32 ∧
      t.sprk.repaired.head? = some (fieldLE (dgramOf m).payload 0 4, s.clock) := by
  change ∃ t, execNak m s = .next t ∧ _
  unfold execNak
  refine runCtl_to hc hd _ (Tx.dgram_member hm (by rw [hty]; rfl) (by rw [hty]; decide) (by rw [hty]; decide)) fun t ht => ?_
  have hu := Tx.takes s
  generalize (Tx.start s).ringPop 2 = u at ht hu
  dsimp only at ht
  generalize hq : fieldLE (dgramOf m).payload 0 4 = q at ht hk hfree ⊢
  have hlt : q < 256 ^ 4 := hq ▸ fieldLE_lt ..
  have hany : (s.sprk.repaired.filter (fun p => s.clock < p.2 + msC 2)).any (fun p => p.1 == q) = false := by
    rw [List.any_eq_false]
    intro p hp hpq
    have := hfree p (List.mem_filter.mp hp).1 (by simpa using hpq)
    have := (List.mem_filter.mp hp).2
    simp only [decide_eq_true_eq] at this
    omega
  rw [hone, hu.isHead, hh, if_neg (by simp), show range' q 1 = [q] from rfl] at ht
  unfold Tx.each at ht
  rw [List.foldl_cons, List.foldl_nil, show q % 2 ^ 32 = q from Nat.mod_eq_of_lt hlt, hu.sprk, hu.counter, hk] at ht
  dsimp only at ht
  rw [hany, if_neg (by decide)] at ht
  have hsend := u.sprkSend_keeps 3 0xFFFF q k.2.1 0 k.2.2
  have h13 := (hsend.gOf (i := 0x5400) (n := 0) (c := 0x13)).trans (hu.dev _)
  generalize u.sprkSend 3 0xFFFF q k.2.1 0 k.2.2 = v at ht h13
  have hcount : (v.tally 0x5400 0 0x13).cur.g 0x5400 0 0x13 = (s.g 0x5400 0 0x13 + 1) % 2 ^ 32 := by
    rw [Tx.tally_g _ (i := 0x5400) (c := 0x13) (entryAt_ent (by decide : 0 < 1) rfl) (by decide), h13]
    rfl
  generalize v.tally 0x5400 0 0x13 = w at ht hcount
  have hset : ∀ f, Keeps [] [.sprk] w.cur (w.sprkSet f).cur := fun f => .step (Tx.sprkSet_keeps ..) (.refl ..)
  exact ⟨by rw [ht.seenG, (hset _).gOf, hcount], by rw [ht.sprk (by simp)]; rfl⟩

theorem statusReceived_remembers (hc : s.clocked = true) (hd : s.ctl.down = false) (hm : SprkHeard s m) (hty : (dgramOf m).ty = 4)
    (hh : s.isHead = true ∨ s.g 0x5400 0 0x02 = 3) : ∃ t, exec (.statusReceived m) s = .next t ∧
      ⟨(dgramOf m).sender, s.clock, fieldLE (dgramOf m).payload 0 1, fieldLE (dgramOf m).payload 4 4⟩ ∈ t.sprk.members ∧
      ((dgramOf m).sender = s.g 0x5400 0 0x01 → bit (t.g 0x5400 0 0x1C) 7 = true) := by
  change ∃ t, execStatusReceived m s = .next t ∧ _
  unfold execStatusReceived
  refine runCtl_to hc hd _ (Tx.dgram_member hm (by rw [hty]; rfl) (by rw [hty]; decide) (by rw [hty]; decide)) fun t ht => ?_
  have hu := Tx.takes s
  generalize (Tx.start s).ringPop 2 = u at ht hu
  dsimp only at ht
  have hown : u.g 0x5400 0 0x01 = s.g 0x5400 0 0x01 := hu.dev _
  rw [hown] at ht
  have hk : ∀ p : Bool, Keeps [.all 0x5400 [0x1C]] [] u.cur (u.when p (fun t => t.flagBit 0x5400 0 0x1C 7)).cur := fun p =>
    .when (fun _ => .flagBit (.refl ..)) (.refl ..)
  have hbit : ∀ p : Bool, p = true → bit ((u.when p (fun t => t.flagBit 0x5400 0 0x1C 7)).cur.g 0x5400 0 0x1C) 7 = true := by
    rintro _ rfl
    exact u.flagBit_bit (i := 0x5400) (n := 0) (b := 0x1C) (v := 7) (entryAt_ent (by decide : 0 < 1) rfl) rfl rfl rfl
  have hk := hk ((dgramOf m).sender == s.g 0x5400 0 0x01)
  have hbit := hbit ((dgramOf m).sender == s.g 0x5400 0 0x01)
  generalize u.when ((dgramOf m).sender == s.g 0x5400 0 0x01) (fun t => t.flagBit 0x5400 0 0x1C 7) = v at ht hk hbit
  have hpos : (v.cur.isHead || v.g 0x5400 0 0x02 == 3) = true := by
    rw [State.isHead_congr (a := s) (hk.gOf.trans (hu.dev _)) (by rw [hk.sprk (by decide), hu.sprk]),
      show v.g 0x5400 0 0x02 = s.g 0x5400 0 0x02 from hk.gOf.trans (hu.dev _)]
    rcases hh with h | h <;> simp [h]
  rw [hpos, show ∀ r, v.when true r = r v from fun _ => rfl, (hk.clock (by decide)).2, hu.counter] at ht
  have hset : ∀ f, Keeps [] [.sprk] v.cur (v.sprkSet f).cur := fun f => .step (Tx.sprkSet_keeps ..) (.refl ..)
  refine ⟨?_, fun hsame => by rw [ht.seenG, (hset _).gOf]; exact hbit (by simp [hsame])⟩
  rw [ht.sprk (by simp)]
  exact mem_sortBy.mpr (.head _)

/-! ## Data in sequence -/

/-- What is held. -/
def State.held (s : State) : List HeldData := s.sprk.hold

theorem Kept.held {l : List Span} (h : Keeps l M a b) (hM : Part.sprk ∉ M := by decide) : Still State.held a b :=
  congrArg Sprk.hold (h.sprk hM)

theorem Tx.sprkSet_held (t : Tx s0) {f : Sprk → Sprk} (h : ∀ x, (f x).hold = x.hold) : Still State.held t.cur (t.sprkSet f).cur := h _

theorem Tx.controlRecord_held (t : Tx s0) (r : Bytes) : Still State.held t.cur (t.controlRecord r).2.cur := by
  unfold Tx.controlRecord
  dsimp only
  split
  · rfl
  · refine .each (fun u f => ?_) (.when (.refl ..) rfl)
    split
    · exact .ite rfl (.refl ..)
    · rfl

theorem Tx.applyRecords_held (t : Tx s0) (rs : List (ℕ × Bytes)) : Still State.held t.cur (t.applyRecords rs).2.cur := by
  unfold Tx.applyRecords
  dsimp only
  have hone : ∀ (l : List (ℕ × Bytes)) (x : ℕ × Tx s0), Still State.held t.cur x.2.cur → Still State.held t.cur (l.foldl (fun (x : ℕ × Tx s0) r =>
      if r.1 == 0 then
        if r.2.length != 56 || !x.2.cur.replicated (fieldLE r.2 0 2) then x
        else
          let y := pushRecord none t.cur.now 0 r.2 (x.2, Push.init)
          (x.1 + y.2.late, y.1)
      else if r.1 == 1 then let y := x.2.controlRecord r.2; (x.1 + b2n y.1, y.2)
      else x) x).2.cur := by
    intro l
    induction l with
    | nil => exact fun x hx => hx
    | cons r l ih =>
      refine fun x hx => ih _ ?_
      dsimp only
      split
      · split
        · exact hx
        · exact .step (Kept.held (pushRecord_keeps ..)) hx
      · split
        · exact .step (Tx.controlRecord_held ..) hx
        · exact hx
  exact hone rs (0, t) (.refl ..)

/-- A datagram that is processed takes its place as the last one, and is counted. -/
theorem Tx.sprkProcess_processes (t : Tx s0) {seq : ℕ} (hseq : seq < 2 ^ 32) (records : ℕ) (p : Bytes) :
    Still State.held t.cur (t.sprkProcess seq records p).cur ∧ (t.sprkProcess seq records p).cur.g 0x5400 0 0x10 = seq ∧
      (t.sprkProcess seq records p).cur.g 0x5400 0 0x11 = (t.cur.g 0x5400 0 0x11 + 1) % 2 ^ 32 := by
  unfold Tx.sprkProcess
  extract_lets s rs r u v w
  have hr : (r.2).cur.g 0x5400 0 0x11 = t.cur.g 0x5400 0 0x11 := (t.applyRecords_keeps rs).gOf
  have hrh : Still State.held t.cur r.2.cur := t.applyRecords_held rs
  clear_value r
  have hku : Keeps [.all 0x5400 [0x16, 0x1C], .ctr 0 0xFFF] [] r.2.cur u.cur := .when (fun _ => .flagBit (.count (.refl ..))) (.refl ..)
  have huh : Still State.held t.cur u.cur := .step (Kept.held hku) hrh
  have hu11 : u.cur.g 0x5400 0 0x11 = t.cur.g 0x5400 0 0x11 := hku.gOf.trans hr
  clear_value u
  have h10 : (u.w 0x5400 0 0x10 seq).cur.g 0x5400 0 0x10 = seq :=
    Tx.w_g_of (i := 0x5400) (c := 0x10) _ (entryAt_ent (by decide : 0 < 1) rfl) (fit_of_lt (by decide) hseq)
  have hk10 : Keeps [.all 0x5400 [0x10]] [] u.cur (u.w 0x5400 0 0x10 seq).cur := .w (.refl ..)
  have h11 : v.cur.g 0x5400 0 0x11 = (t.cur.g 0x5400 0 0x11 + 1) % 2 ^ 32 := by
    unfold v
    rw [Tx.tally_g _ (i := 0x5400) (c := 0x11) (entryAt_ent (by decide : 0 < 1) rfl) (by decide), hk10.gOf, hu11]
    rfl
  have hk11 : Keeps [.all 0x5400 [0x11], .ctr 0 0xFFF] [] (u.w 0x5400 0 0x10 seq).cur v.cur := .tally (.refl ..)
  have hv10 : v.cur.g 0x5400 0 0x10 = seq := hk11.gOf.trans h10
  have hvh : Still State.held t.cur v.cur := .step (Kept.held hk11) (.step (Kept.held hk10) huh)
  clear_value v
  have hset : ∀ (x : Tx s0) f, Keeps [] [.sprk] x.cur (x.sprkSet f).cur := fun x f => .step (Tx.sprkSet_keeps ..) (.refl ..)
  have hw : Keeps [] [.sprk] v.cur w.cur ∧ Still State.held v.cur w.cur := by
    unfold w
    split
    · exact ⟨hset .., rfl⟩
    · exact ⟨.refl .., rfl⟩
  clear_value w
  have hlast : ∀ q : Bool, Keeps [] [.sprk] w.cur (w.when q (fun t => t.sprkSet (fun x => let k := x.kept ++ [(seq, records, p)];
      { x with kept := k.drop (k.length - 8192) }))).cur := fun q => .when (fun _ => hset ..) (.refl ..)
  exact ⟨.when (.step hw.2 hvh) (Tx.sprkSet_held _ fun _ => by dsimp only), (hlast _).gOf.trans (hw.1.gOf.trans hv10), (hlast _).gOf.trans (hw.1.gOf.trans h11)⟩

theorem Tx.sprkTo_state (t : Tx s0) {st : ℕ} (hst : st < 256) : (t.sprkTo st).cur.g 0x5400 0 0x0D = st := by
  unfold Tx.sprkTo
  dsimp only
  split
  · rename_i h
    exact (by simpa using h : t.cur.sprkState = st)
  · have hm : ∀ (u : Tx s0) b, Keeps [] [] u.cur (u.msg 439 b).cur := fun u b => .msg (.refl ..)
    exact (hm ..).gOf.trans (Tx.w_g_of (i := 0x5400) (c := 0x0D) _ (entryAt_ent (by decide : 0 < 1) rfl) (fit_of_lt (by decide) hst))

theorem State.sprkSynced_lt (s : State) : s.sprkSynced < 256 := by
  unfold State.sprkSynced
  split <;> decide

/-- A device that holds nothing is in order after it processed a datagram. -/
theorem Tx.sprkSettle_empty (t : Tx s0) (h : t.cur.held = []) :
    t.sprkSettle.cur.sprk = { t.cur.sprk with hold := [], gapAt := none } ∧
    Keeps [.all 0x5400 [0x0D]] [.sprk] t.cur t.sprkSettle.cur ∧ t.sprkSettle.cur.g 0x5400 0 0x0D = t.cur.sprkSynced := by
  have h : t.cur.sprk.hold = [] := h
  unfold Tx.sprkSettle
  rw [h]
  dsimp only [List.length_nil]
  unfold Tx.sprkDrain
  have hset : ∀ (x : Tx s0) f, Keeps [] [.sprk] x.cur (x.sprkSet f).cur := fun x f => .step (Tx.sprkSet_keeps ..) (.refl ..)
  generalize hu : t.sprkSet (fun x => { x with hold := x.hold.filter (fun h => seqNewer h.seq t.cur.sprkLast) }) = u
  have husp : u.cur.sprk = { t.cur.sprk with hold := [] } := by
    rw [← hu]
    show ({ t.cur.sprk with hold := t.cur.sprk.hold.filter _ } : Sprk) = _
    rw [h]
    rfl
  have hkey : Keeps [] [.sprk] t.cur u.cur := hu ▸ hset ..
  have hmap : u.cur.sprk.hold.map (·.at_) = [] := by rw [husp]; rfl
  rw [hmap]
  dsimp only
  have hvsp : (u.sprkSet (fun x => { x with gapAt := none })).cur.sprk = { u.cur.sprk with gapAt := none } := rfl
  have hsyn : u.cur.sprkSynced = t.cur.sprkSynced := by
    unfold State.sprkSynced
    rw [hkey.gOf]
  have hall : Keeps [] [.sprk] t.cur (u.sprkSet (fun x => { x with gapAt := none })).cur := .trans hkey (hset ..)
  generalize u.sprkSet (fun x => { x with gapAt := none }) = v at hvsp hall ⊢
  rw [hsyn]
  have hto := v.sprkTo_keeps t.cur.sprkSynced
  refine ⟨by rw [hto.sprk (by decide), hvsp, husp], ?_, v.sprkTo_state t.cur.sprkSynced_lt⟩
  exact .step (Tx.sprkTo_keeps ..) (hall.mono (fun _ ⟨x, hx, _⟩ => nomatch hx) (by decide))

/-- A datagram next in sequence, on a device that is in order. -/
theorem Tx.sprkDatagram_next (t : Tx s0) {x : Dgram} (hst : t.cur.sprkState = 2 ∨ t.cur.sprkState = 7)
    (hnew : seqNewer x.seq t.cur.sprkLast = true) (hnext : x.seq = t.cur.sprkNext) :
    t.sprkDatagram x = (t.sprkProcess x.seq x.records x.payload).sprkSettle := by
  unfold Tx.sprkDatagram
  dsimp only
  rw [if_neg (by rcases hst with h | h <;> simp [h]), if_neg (by rcases hst with h | h <;> simp [h]), hnew, if_neg (by decide),
    if_pos (by simp [hnext])]

theorem sprinklerData_processes (hc : s.clocked = true) (hd : s.ctl.down = false) (hm : SprkHeard s m)
    (hty : (dgramOf m).ty = 0 ∨ (dgramOf m).ty = 3) (hst : s.sprkState = 2 ∨ s.sprkState = 7) (hnext : (dgramOf m).seq = s.sprkNext)
    (hhold : s.sprk.hold = []) (hseen : (dgramOf m).ty = 0 → s.sprk.unseen = false) (hnew : seqNewer (dgramOf m).seq s.sprkLast = true) :
    ∃ t, exec (.sprinklerData m) s = .next t ∧ t.g 0x5400 0 0x10 = (dgramOf m).seq ∧
      t.g 0x5400 0 0x11 = (s.g 0x5400 0 0x11 + 1) % 2 ^ 32 ∧ t.sprk.gapAt = none := by
  have hseq : (dgramOf m).seq < 2 ^ 32 := fieldLE_lt ..
  obtain ⟨v, hv, hvst, hvlast, hvhold, hv11⟩ : ∃ v : Tx s, (Tx.start s).dgram m [0, 3] (fun x t => t.sprkDatagram x) =
      v.sprkDatagram (dgramOf m) ∧ v.cur.sprkState = s.sprkState ∧ v.cur.sprkLast = s.sprkLast ∧ v.cur.held = [] ∧
      v.cur.g 0x5400 0 0x11 = s.g 0x5400 0 0x11 := by
    have hu := Tx.takes s
    rcases hty with h0 | h3
    · have hh : s.isHead = false := by
        unfold State.isHead
        rcases hst with h | h <;> rw [show s.g 0x5400 0 0x0D = _ from h] <;> rfl
      refine ⟨_, Tx.dgram_head hm (by rw [h0]; rfl) (.inl h0) hh (hseen h0), ?_⟩
      generalize (Tx.start s).ringPop 2 = u at hu
      have hk : Keeps [.all 0x5400 [0x0E]] [.sprk] u.cur ((u.w 0x5400 0 0x0E (dgramOf m).sender).sprkSet
          (fun y => { y with beatAt := s.clock })).cur := .step (Tx.sprkSet_keeps ..) (.w (.refl ..))
      have hheld : Still State.held u.cur ((u.w 0x5400 0 0x0E (dgramOf m).sender).sprkSet (fun y => { y with beatAt := s.clock })).cur :=
        .step (Tx.sprkSet_held _ fun _ => rfl) (Kept.held (l := [.all 0x5400 [0x0E]]) (M := []) (.w (.refl ..)))
      exact ⟨hk.gOf.trans hu.state, hk.gOf.trans hu.last, Eq.trans hheld (by unfold State.held; rw [hu.sprk, hhold]), hk.gOf.trans (hu.dev _)⟩
    · refine ⟨_, Tx.dgram_member hm (by rw [h3]; rfl) (by rw [h3]; decide) (by rw [h3]; decide), hu.state, hu.last, ?_, hu.dev _⟩
      unfold State.held
      rw [hu.sprk, hhold]
  change ∃ t, execSprinklerData m s = .next t ∧ _
  unfold execSprinklerData
  refine runCtl_to hc hd _ (hv.trans (v.sprkDatagram_next (by rwa [hvst]) (by rwa [hvlast]) (by
    unfold State.sprkNext; rw [hvlast]; exact hnext))) fun t ht => ?_
  obtain ⟨hheld, h10, h11⟩ := v.sprkProcess_processes hseq (dgramOf m).records (dgramOf m).payload
  generalize v.sprkProcess (dgramOf m).seq (dgramOf m).records (dgramOf m).payload = w at ht hheld h10 h11
  obtain ⟨hsp, hk, -⟩ := w.sprkSettle_empty (Eq.trans hheld hvhold)
  rw [ht.seenG, ht.seenG, hk.gOf, hk.gOf, h10, h11, hv11, ht.sprk (by simp), hsp]
  exact ⟨rfl, rfl, rfl⟩

/-! ## Snapshots -/

/-- The end of a snapshot on a device that holds nothing. -/
theorem Tx.snapshotEnd_empty (t : Tx s0) (h : t.cur.held = []) {base : ℕ} (hb : base < 2 ^ 32) :
    (t.snapshotEnd base).cur.sprk.snapNext = none ∧ (t.snapshotEnd base).cur.g 0x5400 0 0x10 = base ∧
      (t.snapshotEnd base).cur.g 0x5400 0 0x0D = t.cur.sprkSynced ∧
      (t.snapshotEnd base).cur.g 0x5400 0 0x15 = (t.cur.g 0x5400 0 0x15 + 1) % 2 ^ 32 := by
  unfold Tx.snapshotEnd
  dsimp only
  have h10 : (t.w 0x5400 0 0x10 base).cur.g 0x5400 0 0x10 = base :=
    Tx.w_g_of (i := 0x5400) (c := 0x10) _ (entryAt_ent (by decide : 0 < 1) rfl) (fit_of_lt (by decide) hb)
  have hk10 : Keeps [.all 0x5400 [0x10]] [] t.cur (t.w 0x5400 0 0x10 base).cur := .w (.refl ..)
  have h15 : ((t.w 0x5400 0 0x10 base).tally 0x5400 0 0x15).cur.g 0x5400 0 0x15 = (t.cur.g 0x5400 0 0x15 + 1) % 2 ^ 32 := by
    rw [Tx.tally_g _ (i := 0x5400) (c := 0x15) (entryAt_ent (by decide : 0 < 1) rfl) (by decide), hk10.gOf]
    rfl
  have hk15 : Keeps [.all 0x5400 [0x15], .ctr 0 0xFFF] [] (t.w 0x5400 0 0x10 base).cur ((t.w 0x5400 0 0x10 base).tally 0x5400 0 0x15).cur :=
    .tally (.refl ..)
  have h10' := hk15.gOf.trans h10
  have hsyn : ((t.w 0x5400 0 0x10 base).tally 0x5400 0 0x15).cur.sprkSynced = t.cur.sprkSynced := by
    unfold State.sprkSynced
    rw [hk15.gOf, hk10.gOf]
  have hold : ((t.w 0x5400 0 0x10 base).tally 0x5400 0 0x15).cur.sprk.hold = [] := by
    rw [hk15.sprk (by decide), hk10.sprk (by decide)]
    exact h
  generalize (t.w 0x5400 0 0x10 base).tally 0x5400 0 0x15 = u at h10' h15 hsyn hold ⊢
  rw [hold, List.filter_nil, List.map_nil]
  have hset : ∀ f, Keeps [] [.sprk] u.cur (u.sprkSet f).cur := fun f => .step (Tx.sprkSet_keeps ..) (.refl ..)
  have hsp : ∀ f, (u.sprkSet f).cur.sprk = f u.cur.sprk := fun _ => rfl
  have hsp := hsp (fun x => { x with snapNext := none, snapTags := [], gapAt := none, hold := [] })
  have hset := hset (fun x => { x with snapNext := none, snapTags := [], gapAt := none, hold := [] })
  generalize u.sprkSet (fun x => { x with snapNext := none, snapTags := [], gapAt := none, hold := [] }) = v at hsp hset ⊢
  obtain ⟨hss, hk, hD⟩ := v.sprkSettle_empty (congrArg Sprk.hold hsp)
  have hgaps : v.sprkSettle.cur.sprkGaps = [] := by
    unfold State.sprkGaps State.sprkHeld
    rw [hss]
    rfl
  rw [hgaps]
  show v.sprkSettle.cur.sprk.snapNext = none ∧ v.sprkSettle.cur.g 0x5400 0 0x10 = base ∧ v.sprkSettle.cur.g 0x5400 0 0x0D = _ ∧
    v.sprkSettle.cur.g 0x5400 0 0x15 = _
  refine ⟨by rw [hss, hsp], by rw [hk.gOf, hset.gOf, h10'], ?_, by rw [hk.gOf, hset.gOf, h15]⟩
  rw [hD, ← hsyn]
  unfold State.sprkSynced
  rw [hset.gOf]

/-- A part of a snapshot is taken: its records are applied, and the next part is awaited. -/
def Tx.snapshotPart (t : Tx s0) (x : Dgram) (tag : Bytes) : Tx s0 :=
  let body := if bit x.flags 0 then x.payload.take (x.payload.length - 4) else x.payload
  (t.applyRecords ((recordsOf body.length body).take x.records)).2.sprkSet (fun y => { y with
    snapNext := some (x.seq + 1), snapTags := (if x.seq == 0 then [] else y.snapTags) ++ [tag] })

theorem Tx.snapshotPart_shows (t : Tx s0) (x : Dgram) (tag : Bytes) : (t.snapshotPart x tag).cur.sprk.snapNext = some (x.seq + 1) ∧
    (t.snapshotPart x tag).cur.sprkSynced = t.cur.sprkSynced ∧ (t.snapshotPart x tag).cur.g 0x5400 0 0x15 = t.cur.g 0x5400 0 0x15 ∧
    (t.snapshotPart x tag).cur.held = t.cur.held := by
  unfold Tx.snapshotPart
  dsimp only
  have hk := fun rs => t.applyRecords_keeps rs
  have hh := fun rs => t.applyRecords_held rs
  generalize List.take x.records _ = rs
  have hset : ∀ f, Keeps [] [.sprk] (t.applyRecords rs).2.cur ((t.applyRecords rs).2.sprkSet f).cur := fun f =>
    .step (Tx.sprkSet_keeps ..) (.refl ..)
  refine ⟨rfl, ?_, (hset _).gOf.trans (hk rs).gOf, hh rs⟩
  unfold State.sprkSynced
  rw [(hset _).gOf, (hk rs).gOf]

theorem snapshot_taken (hc : s.clocked = true) (hd : s.ctl.down = false) (hm : SprkHeard s m) (hty : (dgramOf m).ty = 6)
    (hown : (dgramOf m).target = s.g 0x5400 0 0x01) (hst : s.sprkState = 1 ∨ s.sprkState = 4)
    (hseq : (dgramOf m).seq = 0 ∨ s.sprk.snapNext = some (dgramOf m).seq)
    (htag : s.sprk.snapTags.contains (m.drop (m.length - 16)) = false) :
    (bit (dgramOf m).flags 0 = false → ∃ t, exec (.snapshot m) s = .next t ∧ t.sprk.snapNext = some ((dgramOf m).seq + 1)) ∧
      (bit (dgramOf m).flags 0 = true → s.sprk.hold = [] →
        ∃ t, exec (.snapshot m) s = .next t ∧ t.sprk.snapNext = none ∧
          t.g 0x5400 0 0x10 = fieldLE (dgramOf m).payload ((dgramOf m).payload.length - 4) 4 ∧ t.g 0x5400 0 0x0D = s.sprkSynced ∧
          t.g 0x5400 0 0x15 = (s.g 0x5400 0 0x15 + 1) % 2 ^ 32) := by
  have hidle : ((dgramOf m).target != s.g 0x5400 0 0x01 || s.sprkState != 1 && s.sprkState != 4 ||
      s.sprk.snapTags.contains (m.drop (m.length - 16))) = false := by
    rw [htag, hown]
    rcases hst with h | h <;> simp [h]
  have hin : ((dgramOf m).seq != 0 && s.sprk.snapNext != some (dgramOf m).seq) = false := by
    rcases hseq with h | h <;> simp [h]
  have hu := Tx.takes s
  have hgate := fun f => Tx.dgram_member hm (f := f) (types := [6]) (by rw [hty]; rfl) (by rw [hty]; decide) (by rw [hty]; decide)
  obtain ⟨hnext, hsyn, h15, hheld⟩ := ((Tx.start s).ringPop 2).snapshotPart_shows (dgramOf m) (m.drop (m.length - 16))
  rw [hu.dev] at h15
  have hsyn : _ = s.sprkSynced := hsyn.trans (by unfold State.sprkSynced; rw [hu.dev])
  have hheld : _ = s.held := hheld.trans (by unfold State.held; rw [hu.sprk])
  have hv : ∀ P : State → Prop, (∀ t, Kept (fun _ => False) [] (if bit (dgramOf m).flags 0 then
      (((Tx.start s).ringPop 2).snapshotPart (dgramOf m) (m.drop (m.length - 16))).snapshotEnd
        (fieldLE (dgramOf m).payload ((dgramOf m).payload.length - 4) 4)
      else ((Tx.start s).ringPop 2).snapshotPart (dgramOf m) (m.drop (m.length - 16))).cur t → P t) →
        ∃ t, execSnapshot m s = .next t ∧ P t := fun P hP => by
    unfold execSnapshot
    refine runCtl_to hc hd _ ((hgate _).trans ?_) hP
    dsimp only
    rw [hu.dev, hu.state, hu.sprk, hidle, hin, if_neg Bool.false_ne_true, if_neg Bool.false_ne_true]
    rfl
  generalize ((Tx.start s).ringPop 2).snapshotPart (dgramOf m) (m.drop (m.length - 16)) = v at hnext hsyn h15 hheld hv
  refine ⟨fun hmore => hv _ fun t ht => ?_, fun hlast hhold => hv _ fun t ht => ?_⟩
  · rw [if_neg (by simp [hmore])] at ht
    rw [ht.sprk (by simp), hnext]
  · rw [if_pos hlast] at ht
    obtain ⟨hsp, h10, hD, hc15⟩ := v.snapshotEnd_empty (hheld.trans hhold) (base := fieldLE (dgramOf m).payload
      ((dgramOf m).payload.length - 4) 4) (fieldLE_lt ..)
    rw [ht.sprk (by simp), ht.seenG, ht.seenG, ht.seenG, hsp, h10, hD, hc15, hsyn, h15]
    exact ⟨rfl, rfl, rfl, rfl⟩

/-! ## Requests for a snapshot -/

theorem State.egressInsert_length (s : State) (e : Egress) (l : List Egress) : (s.egressInsert e l).length = l.length + 1 := by
  induction l with
  | nil => rfl
  | cons d l ih =>
    unfold State.egressInsert
    split
    · rfl
    · rw [List.length_cons, ih, List.length_cons]

theorem State.mem_egressInsert {s : State} {e x : Egress} {l : List Egress} (h : x ∈ s.egressInsert e l) : x = e ∨ x ∈ l := by
  induction l with
  | nil => exact .inl (List.mem_singleton.mp h)
  | cons d l ih =>
    unfold State.egressInsert at h
    split at h
    · exact List.mem_cons.mp h
    · rcases List.mem_cons.mp h with rfl | h
      · exact .inr (.head _)
      · exact (ih h).imp_right (.tail _)

/-- MAC m sends a frame, behind which k frames of firmware wait; o frames have left. -/
structure Sending (m k : ℕ) (o : List Out) (a : State) : Prop where
  up : a.macUp m = true
  busy : (a.macSt m).busy = none
  until_ : a.clock < (a.macSt m).busyUntil
  plain : ∀ x ∈ (a.macSt m).out, x.copy = none
  waits : (a.macSt m).out.length = k
  outs : a.outs = o

/-- A frame handed to a MAC that sends waits. -/
theorem Sending.egress {t : Tx s0} {n k : ℕ} {o : List Out} (h : Sending n k o t.cur) {e : Egress} (hc : e.copy = none) :
    Sending n (k + 1) o (t.egress n e).cur := by
  have hmac : (t.enqueue n e).cur.macSt n = { t.cur.macSt n with out := t.cur.egressInsert e (t.cur.macSt n).out } :=
    (Tx.setMac_macSt ..).trans (if_pos rfl)
  have hplain : ∀ x ∈ ((t.enqueue n e).cur.macSt n).out, x.copy = none := fun x hx => by
    rw [hmac] at hx
    rcases State.mem_egressInsert hx with rfl | hx
    · exact hc
    · exact h.plain x hx
  have hlen : ((t.enqueue n e).cur.macSt n).out.length = k + 1 := by
    rw [hmac, State.egressInsert_length, h.waits]
  have hloop : ∀ f, (t.enqueue n e).macLoop n f = t.enqueue n e := fun f => Tx.macLoop_waits _ (by rw [hmac]; exact h.busy) fun x _ => by
    rw [hmac]
    have := h.until_
    show t.cur.clock < _
    simp only [MacSt.startOf]
    omega
  have hne : ¬ ((((t.enqueue n e).cur.macSt n).out.isEmpty && ((t.enqueue n e).cur.macSt n).busy.isNone) = true) := by
    simp only [Bool.and_eq_true, List.isEmpty_iff]
    rintro ⟨hx, -⟩
    rw [hx] at hlen
    cases hlen
  have hrun : t.egress n e = t.enqueue n e := by
    unfold Tx.egress Tx.macRun
    dsimp only
    rw [if_neg (by rw [h.up]; simp), if_neg hne, show (t.enqueue n e).cur.macUp n = true from h.up, if_pos rfl, hloop]
    exact Tx.macExpire_none _ hplain
  rw [hrun]
  exact ⟨h.up, by rw [hmac]; exact h.busy, by rw [hmac]; exact h.until_, hplain, hlen, h.outs⟩

theorem Tx.sprkSendAfter_one (t : Tx s0) (h : t.cur.g 0x5400 0 0x07 = 0xFF) {ty : ℕ} (hty : ty ≠ 0) (w target seq records flags : ℕ)
    (p : Bytes) : ∃ f, t.sprkSendAfter w ty target seq records flags p =
      t.egress (t.cur.g 0x5400 0 0x06) ⟨.frame f, f.length, t.cur.clock + w, none, none⟩ := by
  unfold Tx.sprkSendAfter
  dsimp only
  rw [show t.g 0x5400 0 0x07 = 0xFF from h, if_pos (by decide), if_neg (by simpa using hty)]
  exact ⟨_, rfl⟩

/-- An idle MAC sends at once. -/
theorem Sending.first {t : Tx s0} {n : ℕ} (h : t.cur.macIdle n = true) (f : Bytes) :
    Sending n 0 (t.cur.outs ++ [.frame n f]) (t.egress n ⟨.frame f, f.length, t.cur.clock, none, none⟩).cur := by
  have hup := State.macIdle_up h
  have houts := t.egress_outs h (e := ⟨.frame f, f.length, t.cur.clock, none, none⟩) rfl rfl rfl
  obtain ⟨hmac, -⟩ := (t.taken n ⟨.frame f, f.length, t.cur.clock, none, none⟩).frameStart_plain n t.cur.clock
    (e := ⟨.frame f, f.length, t.cur.clock, none, none⟩) rfl rfl
  rw [t.taken_macSt] at hmac
  have hk := t.egress_keeps n ⟨.frame f, f.length, t.cur.clock, none, none⟩
  have hrun := t.egress_idle h (e := ⟨.frame f, f.length, t.cur.clock, none, none⟩) rfl rfl (by rw [hmac]) (by rw [hmac]; simp)
  rw [← hrun] at hmac
  refine ⟨?_, by rw [hmac], ?_, by rw [hmac]; simp, by rw [hmac]; rfl, houts⟩
  · unfold State.macUp State.on at hup ⊢
    rw [hk.gOf, hk.gOf, hup]
  · rw [hmac, (hk.clock (by decide)).2]
    have := (t.taken n ⟨.frame f, f.length, t.cur.clock, none, none⟩).cur.sendTime_pos n f.length
    dsimp only
    omega

/-- What the sending of a snapshot keeps of the device. -/
structure Answering (s : State) (k : ℕ) (a : State) : Prop where
  sending : ∃ f, Sending (s.g 0x5400 0 0x06) k [.frame (s.g 0x5400 0 0x06) f] a
  mac : a.g 0x5400 0 0x06 = s.g 0x5400 0 0x06
  backup : a.g 0x5400 0 0x07 = 0xFF
  sprk : a.sprk = s.sprk

theorem Answering.next {t : Tx s0} {k : ℕ} (h : Answering s k t.cur) (w target seq records flags : ℕ) (p : Bytes) :
    Answering s (k + 1) (t.sprkSendAfter w 6 target seq records flags p).cur := by
  obtain ⟨f, hf⟩ := t.sprkSendAfter_one h.backup (ty := 6) (by decide) w target seq records flags p
  have hk := t.sprkSendAfter_keeps w 6 target seq records flags p
  obtain ⟨g, hg⟩ := h.sending
  refine ⟨⟨g, ?_⟩, hk.gOf.trans h.mac, hk.gOf.trans h.backup, (hk.sprk (by decide)).trans h.sprk⟩
  rw [hf, h.mac]
  exact hg.egress rfl

theorem Answering.all {α : Type} {r : Tx s0 → α → Tx s0} (hr : ∀ t y, ∃ w target seq records flags p,
    r t y = t.sprkSendAfter w 6 target seq records flags p) (l : List α) {t : Tx s0} {k : ℕ} (h : Answering s k t.cur) :
    Answering s (k + l.length) (t.each l r).cur := by
  unfold Tx.each
  induction l generalizing t k with
  | nil => exact h
  | cons y l ih =>
    obtain ⟨w, target, seq, records, flags, p, hy⟩ := hr t y
    rw [List.foldl_cons, hy, List.length_cons, show k + (l.length + 1) = k + 1 + l.length by omega]
    exact ih (h.next ..)

theorem Answering.run {α : Type} {r : Tx s0 → α → Tx s0} {l : List α} {t : Tx s0} {k : ℕ} {x : State}
    (hx : Kept (fun _ => False) [] (t.each l r).cur x) (hr : ∀ t y, ∃ w target seq records flags p,
      r t y = t.sprkSendAfter w 6 target seq records flags p) (h : Answering s k t.cur) :
    x.sprk = s.sprk ∧ x.outs.length = 1 ∧ (x.macSt (s.g 0x5400 0 0x06)).out.length = k + l.length := by
  have hall := Answering.all hr l h
  obtain ⟨f, hf⟩ := hall.sending
  rw [hx.sprk (by simp), hall.sprk, hx.outs (by simp), hf.outs, State.macSt_congr (hx.net (by simp)), hf.waits]
  exact ⟨rfl, rfl, rfl⟩

theorem Tx.each_cons {α : Type} (t : Tx s0) (y : α) (l : List α) (r : Tx s0 → α → Tx s0) : t.each (y :: l) r = (r t y).each l r := rfl

theorem State.snapshots_congr (h : Taken s a) : ((List.range a.objects).filter a.replicated).flatMap a.snapshotOf =
    ((List.range s.objects).filter s.replicated).flatMap s.snapshotOf := by
  have hobj : a.objects = s.objects := by
    unfold State.objects State.fA
    rw [h.g]
  have hrep : a.replicated = s.replicated := by
    funext n
    unfold State.replicated
    rw [h.dev, h.gb]
  have hsnap : a.snapshotOf = s.snapshotOf := by
    have hfield : a.acceptedField = s.acceptedField := by
      funext n c
      unfold State.acceptedField
      rw [h.sprk, h.g (by simp [apart, Span.all])]
    funext n
    unfold State.snapshotOf State.track
    rw [hfield, h.keeps.scene (by decide)]
    rfl
  rw [hobj, hrep, hsnap]

theorem snapshotRequest_answers (hc : s.clocked = true) (hd : s.ctl.down = false) (hm : SprkHeard s m) (hty : (dgramOf m).ty = 5)
    (hh : s.isHead = true) (hown : (dgramOf m).target = s.g 0x5400 0 0x01 ∨ (dgramOf m).target = 0xFFFF) (hb : s.g 0x5400 0 0x07 = 0xFF)
    (hidle : s.macIdle (s.g 0x5400 0 0x06) = true) :
    ∃ t, exec (.snapshotRequest m) s = .next t ∧ t.sprk = s.sprk ∧ t.outs.length = 1 ∧
      (t.macSt (s.g 0x5400 0 0x06)).out.length + 1 =
        max 1 (chunks 23 (((List.range s.objects).filter s.replicated).flatMap s.snapshotOf)).length := by
  change ∃ t, execSnapshotRequest m s = .next t ∧ _
  unfold execSnapshotRequest
  refine runCtl_to hc hd _ (Tx.dgram_member hm (by rw [hty]; rfl) (by rw [hty]; decide) (by rw [hty]; decide)) fun t ht => ?_
  have hu := Tx.takes s
  have hs := State.snapshots_congr hu
  generalize (Tx.start s).ringPop 2 = u at ht hu hs
  dsimp only at ht
  have hcond : (!u.cur.isHead || (dgramOf m).target != u.cur.g 0x5400 0 0x01 && (dgramOf m).target != 0xFFFF) = false := by
    rw [hu.isHead, hh, hu.dev]
    rcases hown with h | h <;> simp [h]
  rw [hcond, if_neg Bool.false_ne_true, hs] at ht
  generalize chunks 23 (((List.range s.objects).filter s.replicated).flatMap s.snapshotOf) = ds at ht ⊢
  have hlen : (if ds.isEmpty then [[]] else ds).length = max 1 ds.length := by
    cases ds with
    | nil => rfl
    | cons d l => simp
  generalize (if ds.isEmpty then [[]] else ds) = es at ht hlen
  cases es with
  | nil => simp at hlen; omega
  | cons e es =>
    generalize hbodies : List.map _ (List.zip (List.range (e :: es).length) (e :: es)) = bodies at ht
    have hbl : bodies.length = es.length + 1 := by rw [← hbodies]; simp
    cases bodies with
    | nil => cases hbl
    | cons b bodies =>
      have hrest : bodies.length = es.length := Nat.succ.inj hbl
      have hl : (List.range (e :: es).length).zip ((e :: es).zip (b :: bodies)) =
          (0, e, b) :: ((List.range es.length).map Nat.succ).zip (es.zip bodies) := by
        rw [List.length_cons, List.range_succ_eq_map]
        rfl
      rw [hl, Tx.each_cons] at ht
      dsimp only [List.take_zero, List.map_nil] at ht
      have hfirst : ∀ records flags, Answering s 0 (u.sprkSendAfter (80 * sumN []) 6 (dgramOf m).sender 0 records flags b).cur :=
          fun records flags => by
        obtain ⟨f, hf⟩ := u.sprkSendAfter_one ((hu.dev _).trans hb) (ty := 6) (by decide) (80 * sumN []) (dgramOf m).sender 0 records flags b
        have hk := u.sprkSendAfter_keeps (80 * sumN []) 6 (dgramOf m).sender 0 records flags b
        have hfree : u.cur.macIdle (s.g 0x5400 0 0x06) = true := State.macIdle_same hu.macs
          (fun c h => hu.g (by rcases h with rfl | rfl <;> decide)) hu.counter.ge hidle
        refine ⟨⟨f, ?_⟩, hk.gOf.trans (hu.dev _), hk.gOf.trans ((hu.dev _).trans hb), (hk.sprk (by decide)).trans hu.sprk⟩
        rw [hf, hu.dev]
        have := Sending.first hfree f
        rw [hu.outs] at this
        exact this
      obtain ⟨hsp, ho, hw⟩ := Answering.run ht (fun t y => ⟨_, _, _, _, _, _, rfl⟩) (hfirst ..)
      refine ⟨hsp, ho, ?_⟩
      rw [hw, ← hlen]
      simp [hrest]

/-- Settles O32. -/
theorem sprinklerReceives : Obligations.SprinklerReceives := by
  unfold Obligations.SprinklerReceives
  exact fun s m hc hd hm => ⟨fun hty hst hnext hhold hseen hnew => sprinklerData_processes hc hd hm hty hst hnext hhold hseen hnew,
    heartbeatReceived_follows hc hd hm, fun k => nak_repairs hc hd hm, snapshotRequest_answers hc hd hm, snapshot_taken hc hd hm,
    statusReceived_remembers hc hd hm⟩

end Sys2Proof.Machine
end

section
/-! PROOFS. The Sprinkler's own acts fail: a promoted standby shows itself in an entry of 16 bits. -/

namespace Sys2Proof.Machine
open Sys2Proof

set_option Elab.async false

/-- The standby head has heard no head for its timeout; its own number is beyond the 16 bits of the head's. -/
def lonelyState : State :=
  { State.reset with dict := [(K 0x5400 0 0x01, 65536), (K 0x5400 0 0x02, 3), (K 0x5400 0 0x0D, 7)], clock := secC 100 }

theorem lonelyState_head : nextGet (exec .promoted lonelyState) (K 0x5400 0 0x0E) = 0 := by decide +kernel

/-- Refutes O33: 0x5400:0E holds 16 bits, and the state's own number 0x5400:01 need not fit them. -/
theorem not_sprinklerActs : ¬ Obligations.SprinklerActs := by
  unfold Obligations.SprinklerActs
  intro h
  obtain ⟨-, -, -, -, -, hpromoted⟩ := h lonelyState (by decide) (by decide)
  obtain ⟨t, ht, -, -, hown, -⟩ := hpromoted (by decide +kernel) (by decide +kernel) (fun h => absurd h (by decide +kernel)) (by decide +kernel)
  have hzero := lonelyState_head
  rw [ht] at hzero
  have hzero : t.g 0x5400 0 0x0E = 0 := hzero
  rw [hown] at hzero
  revert hzero
  decide +kernel

end Sys2Proof.Machine
end

section
/-! PROOFS. Ageing and VREQ fail: a safety raise that leaves the code leaves it as it stands, of whatever width. -/

namespace Sys2Proof.Machine
open Sys2Proof

set_option Elab.async false

/-- VREQ is driven with a code beyond the 8 bits of its entry, and a path monitor has lost its margin. -/
def wideCodeState : State :=
  { State.reset with
    dict := [(K 0x6500 0 0x01, 4), (K 0x6601 0 0x03, 0), (K 0x6603 0 0x01, 300), (K 0x6700 0 0x01, 1)]
    power := { State.reset.power with straps := { State.reset.power.straps with vreqEn := true }, raiseAt := none } }

theorem wideCodeState_code : nextGet (exec (.safetyRaise ⟨0, 0x44FA0000⟩) wideCodeState) (K 0x6603 0 0x01) = 300 := by
  decide +kernel

/-- Refutes O47: no step being needed, the code 0x6603:01 stays 300, which is not a value of 8 bits. -/
theorem not_ageingComplete : ¬ Obligations.AgeingComplete := by
  unfold Obligations.AgeingComplete
  intro h
  obtain ⟨-, -, -, -, hraise⟩ := h wideCodeState (by decide)
  have hfirst : ∀ r, wideCodeState.power.raiseAt = some r → r + usC (wideCodeState.g 0x6601 0 0x10) ≤ wideCodeState.clock :=
    fun r h => nomatch h
  obtain ⟨t, ht, hcode, -⟩ := hraise ⟨0, 0x44FA0000⟩ (by decide +kernel) (by decide +kernel) (by decide +kernel) hfirst
  have hkept := wideCodeState_code
  rw [ht] at hkept
  have hkept : t.g 0x6603 0 0x01 = 300 := hkept
  rw [hcode] at hkept
  exact absurd hkept (Nat.ne_of_lt (Nat.lt_of_lt_of_le (Nat.mod_lt _ (by decide)) (by decide)))

end Sys2Proof.Machine
end

section
/-! PROOFS. A reset of the whole device: the powered hours are those of the older copy of the system area where the newest one,
written as the reset found a write to the MRAM ended, reads wrong. -/

namespace Sys2Proof.Machine
open Sys2Proof

set_option Elab.async false

/-- A write of a firmware image has ended, and the copy of the system area in force holds fewer hours than the block. -/
def endedWriteState : State :=
  { State.reset with
    power := { State.reset.power with
      hours := 5
      mram := some ⟨8, [], 0, true⟩
      sysAt := 0
      sys0 := { State.reset.power.sys0 with valid := true, hours := 3 } } }

/-- A boot that hangs in its first stage and finds copy 1 of the system area wrong. -/
def hungBoot : BootIn := ⟨0, false, true, true, [], 0, some 1, [], [], 8⟩

/-- Powered hours of the state that an outcome leads to. -/
def nextHours (x : Host.Outcome State Fault Refusal) : Nat :=
  match x with
  | .next t => t.power.hours
  | _ => 0

theorem endedWriteState_hours : nextHours (exec (.powerOn hungBoot) endedWriteState) = 3 := by decide +kernel

/-- Refutes O48: the block's hours are those of copy 0 of the system area, though that copy was in force before the reset. -/
theorem not_resetKeepsMram : ¬ Obligations.ResetKeepsMram := by
  unfold Obligations.ResetKeepsMram
  intro h
  obtain ⟨-, -, -, -, -, -, hpower, -⟩ := h endedWriteState hungBoot
  obtain ⟨t, ht, ⟨-, hhours, -⟩, -⟩ := hpower
  have hthree := endedWriteState_hours
  rw [ht] at hthree
  have hthree : t.power.hours = 3 := hthree
  rw [hhours] at hthree
  revert hthree
  decide +kernel

end Sys2Proof.Machine
end

section
/-! PROOFS. What a change of one entry leaves: every other entry, and every part of the state beside the entries. -/

namespace Sys2Proof.Machine
open Sys2Proof

set_option Elab.async false

variable {s0 : State} {i n c j m d v : ℕ}

/-! ## Other entries -/

theorem K_ne_of_apart (h : i ≠ j ∨ c % 256 ≠ d % 256) : K j m d ≠ K i n c := by
  unfold K
  omega

@[simp] theorem Tx.w_skip (t : Tx s0) (h : i ≠ j ∨ c % 256 ≠ d % 256) : (t.w i n c v).cur.g j m d = t.cur.g j m d :=
  Tx.w_get_other t v (K_ne_of_apart h)

@[simp] theorem Tx.wi_skip (t : Tx s0) {v : ℤ} (h : i ≠ j ∨ c % 256 ≠ d % 256) : (t.wi i n c v).cur.g j m d = t.cur.g j m d :=
  t.w_skip h

@[simp] theorem Tx.wb_g (t : Tx s0) (x : Bytes) : (t.wb i n c x).cur.g j m d = t.cur.g j m d := rfl

@[simp] theorem Tx.inc_skip (t : Tx s0) (h : i ≠ j ∨ c % 256 ≠ d % 256) : (t.inc i n c v).cur.g j m d = t.cur.g j m d :=
  t.w_skip h

@[simp] theorem Tx.flag_skip (t : Tx s0) (h : i ≠ j ∨ c % 256 ≠ d % 256) : (t.flag i n c v).cur.g j m d = t.cur.g j m d :=
  (Tx.w_skip _ h).trans rfl

@[simp] theorem Tx.flagBit_skip (t : Tx s0) (h : i ≠ j ∨ c % 256 ≠ d % 256) : (t.flagBit i n c v).cur.g j m d = t.cur.g j m d :=
  t.flag_skip h

@[simp] theorem Tx.peak_skip (t : Tx s0) (h : i ≠ j ∨ c % 256 ≠ d % 256) : (t.peak i n c v).cur.g j m d = t.cur.g j m d := by
  unfold Tx.peak
  split
  · exact t.w_skip h
  · rfl

@[simp] theorem Tx.counter_skip (t : Tx s0) (hj : j < 0x6800) : (t.counter i v).cur.g j m d = t.cur.g j m d :=
  (Tx.inc_skip _ (.inl (by omega))).trans rfl

@[simp] theorem Tx.count_skip (t : Tx s0) (h : i ≠ j ∨ c % 256 ≠ d % 256) (hj : j < 0x6800) :
    (t.count i n c v).cur.g j m d = t.cur.g j m d := by
  unfold Tx.count
  dsimp only
  split
  · rw [Tx.counter_skip _ hj, t.inc_skip h]
  · exact t.inc_skip h

@[simp] theorem Tx.tally_skip (t : Tx s0) (h : i ≠ j ∨ c % 256 ≠ d % 256) (hj : j < 0x6800) :
    (t.tally i n c).cur.g j m d = t.cur.g j m d := t.count_skip h hj

/-! ## What is beside the entries -/

/-- From a to b nothing but entries has changed, and the strings of some. -/
abbrev Shown (a b : State) : Prop := Kept (fun _ => True) [] a b

theorem Tx.w_shown (t : Tx s0) : Shown t.cur (t.w i n c v).cur := .wKey (.refl ..) trivial

theorem Tx.wb_shown (t : Tx s0) (x : Bytes) : Shown t.cur (t.wb i n c x).cur := .wbKey (.refl ..) trivial

theorem Tx.inc_shown (t : Tx s0) : Shown t.cur (t.inc i n c v).cur := t.w_shown

theorem Tx.flag_shown (t : Tx s0) : Shown t.cur (t.flag i n c v).cur := .flagKey (.refl ..) trivial

theorem Tx.flagBit_shown (t : Tx s0) : Shown t.cur (t.flagBit i n c v).cur := t.flag_shown

theorem Tx.peak_shown (t : Tx s0) : Shown t.cur (t.peak i n c v).cur := .peakKey (.refl ..) trivial

theorem Tx.counter_shown (t : Tx s0) : Shown t.cur (t.counter i v).cur := .counterKey (.refl ..) trivial

theorem Tx.count_shown (t : Tx s0) : Shown t.cur (t.count i n c v).cur := by
  unfold Tx.count
  dsimp only
  split
  · exact t.inc_shown.trans (Tx.counter_shown _)
  · exact t.inc_shown

theorem Tx.tally_shown (t : Tx s0) : Shown t.cur (t.tally i n c).cur := t.count_shown

theorem Tx.msg_shown (t : Tx s0) {ty : ℕ} {p : Bytes} : Shown t.cur (t.msg ty p).cur := .msg (.refl ..)

end Sys2Proof.Machine
end

section
/-! PROOFS. Microphones: resynchronisation, settling, missing data, compensation filters (R299, R300, R303 to R305). -/

namespace Sys2Proof.Machine
open Sys2Proof

set_option Elab.async false

variable {s0 s a b : State} {n h m : ℕ} {d : Bytes}

/-! ## The state of a microphone -/

theorem State.mic_congr (h : b.meas = a.meas) (m : ℕ) : b.mic m = a.mic m := congrArg (fun x : Meas => mget Mic.init x.mics m) h

theorem Tx.setMic_mic (t : Tx s0) (n : ℕ) (x : Mic) (m : ℕ) : (t.setMic n x).cur.mic m = if m = n then x else t.cur.mic m :=
  mget_mputD ..

/-- What of the measurement does not concern the run. -/
def Meas.unrun (x : Meas) : Meas := { x with run := none }

/-- What of the block's measurement does not concern the run. -/
def State.unrun (s : State) : Meas := s.meas.unrun

theorem State.mic_unrun (h : Still State.unrun a b) (m : ℕ) : b.mic m = a.mic m :=
  congrArg (fun x : Meas => mget Mic.init x.mics m) (a₁ := b.meas.unrun) (a₂ := a.meas.unrun) h

/-- The reset of every decimator that is asked for, and the rate of the microphones. -/
def State.decimation (s : State) : Option ℕ × ℕ := (s.meas.resetDue, s.meas.rate)

theorem State.decimation_unrun (h : Still State.unrun a b) : Still State.decimation a b :=
  congrArg (fun x : Meas => (x.resetDue, x.rate)) (a₁ := b.meas.unrun) (a₂ := a.meas.unrun) h

theorem Kept.unrun {E : ℕ → Prop} {M : List Part} (h : Kept E M a b) (hM : Part.meas ∉ M := by decide) : Still State.unrun a b :=
  congrArg Meas.unrun (h.meas hM)

theorem Tx.micTo_unrun (t : Tx s0) (n st : ℕ) : Still State.unrun t.cur (t.micTo n st).cur := by
  have hspoil : Still State.unrun t.cur (t.when (t.cur.micState n == 2 && st != 2) (fun t => t.spoil n)).cur := by
    refine Still.when rfl ?_
    unfold Tx.spoil
    split <;> rfl
  exact Still.step (Kept.unrun (Tx.w_shown _)) hspoil

theorem Tx.micTo_state (t : Tx s0) {st : ℕ} (hn : n < 16) (hst : st < 256) : (t.micTo n st).cur.micState n = st :=
  Tx.w_g_of _ (entryAt_ent hn rfl) (fit_of_lt (by decide) hst)

theorem Tx.micTo_other (t : Tx s0) (st : ℕ) (hn : n < 16) (hm : m < 16) (h : m ≠ n) : (t.micTo n st).cur.micState m = t.cur.micState m := by
  have hw : (t.micTo n st).cur.micState m = (t.when (t.cur.micState n == 2 && st != 2) (fun t => t.spoil n)).cur.micState m :=
    Tx.w_g_other _ (by omega) (by omega) h
  have hs : Keeps [] [.meas] t.cur (t.when (t.cur.micState n == 2 && st != 2) (fun t => t.spoil n)).cur :=
    .when (fun _ => .step (Tx.spoil_keeps ..) (.refl ..)) (.refl ..)
  exact hw.trans hs.gOf

/-! ## Resynchronisation -/

theorem resynchronise_asks (hc : s.clocked = true) {sub : ℕ} (hsub : sub = 0x01 ∨ sub = 0x03)
    (hk : s.writeCheck h (opOf 0x5C00 0 sub d) = stOK) (hr : ¬ (sub = 0x01 ∧ s.fA = 96000 ∧ leNat d = 3072000)) :
    ∃ t, exec (.resynchronise h sub d) s = .next t ∧ t.meas.resetDue = some (nextBlock s.now) ∧
      (sub = 0x01 → t.g 0x5C00 0 0x01 = leNat d) := by
  change ∃ t, execResynchronise h sub d s = .next t ∧ _
  unfold execResynchronise
  refine run_to hc _ ((if_pos ?_).trans (guarded_start hk _)) fun t ht => ?_
  · rcases hsub with rfl | rfl <;> rfl
  unfold resyncRule at ht
  have hfA : ((Tx.start s).status stOK).cur.fA = s.fA := rfl
  rw [hfA, if_neg (by simpa only [Bool.and_eq_true, beq_iff_eq, and_assoc] using hr)] at ht
  dsimp only at ht
  obtain ⟨u, hu⟩ : ∃ u, u = ((Tx.start s).status stOK).setMeas
    { ((Tx.start s).status stOK).cur.meas with resetDue := some (nextBlock ((Tx.start s).status stOK).cur.now) } := ⟨_, rfl⟩
  rw [← hu] at ht
  have hdue : u.cur.meas.resetDue = some (nextBlock s.now) := by rw [hu]; rfl
  rcases hsub with rfl | rfl
  · rw [if_neg (by decide)] at ht
    have hrate : (u.w 0x5C00 0 0x01 (leNat d)).cur.g 0x5C00 0 0x01 = leNat d := Tx.w_written _ hk rfl
    have hdue : (u.w 0x5C00 0 0x01 (leNat d)).cur.meas.resetDue = some (nextBlock s.now) := by rw [u.w_shown.meas (by simp), hdue]
    generalize u.w 0x5C00 0 0x01 (leNat d) = v at ht hrate hdue
    have hstill : Still State.unrun v.cur (v.each (List.range 16) (fun t m => if t.cur.micState m == 4 then t.micTo m 1 else t)).cur :=
      .each (fun u y => .ite (u.micTo_unrun ..) rfl) rfl
    have hkeep : Keeps [.all 0x5C10 [0x0A]] [.meas] v.cur
      (v.each (List.range 16) (fun t m => if t.cur.micState m == 4 then t.micTo m 1 else t)).cur :=
      .each (fun u y => .ite (.step (u.micTo_keeps ..) (.refl ..)) (.refl ..)) (.refl ..)
    refine ⟨?_, fun _ => by rw [ht.seenG, hkeep.gOf, hrate]⟩
    obtain ⟨hd, -⟩ := Prod.mk.inj (State.decimation_unrun hstill)
    rw [ht.meas (by simp), hd, hdue]
  · rw [if_pos (by decide)] at ht
    exact ⟨by rw [ht.meas (by simp), hdue], fun h => absurd h (by decide)⟩

/-! ## The reset of every decimator -/

/-- What every other element of a list leaves, and what one brings about and every other leaves, holds in the end. -/
theorem Tx.each_once {α : Type} {P Q : State → Prop} {f : Tx s0 → α → Tx s0} {m : α} : ∀ {t : Tx s0} (l : List α), l.Nodup → m ∈ l →
    P t.cur → (∀ (u : Tx s0) y, y ∈ l → y ≠ m → P u.cur → P (f u y).cur) → (∀ u : Tx s0, P u.cur → Q (f u m).cur) →
    (∀ (u : Tx s0) y, y ∈ l → y ≠ m → Q u.cur → Q (f u y).cur) → Q (t.each l f).cur
  | _, [], _, hm, _, _, _, _ => nomatch hm
  | _, x :: l, hd, hm, h, hP, hm', hQ => by
    obtain ⟨hx, hl⟩ := List.nodup_cons.mp hd
    rw [Tx.each_cons]
    by_cases hxm : x = m
    · subst hxm
      exact Tx.each_mem_inv l (hm' _ h) fun u y hy => hQ u y (.tail _ hy) fun he => hx (he ▸ hy)
    · exact Tx.each_once l hl ((List.mem_cons.mp hm).resolve_left (Ne.symm hxm)) (hP _ x (.head _) hxm h)
        (fun u y hy => hP u y (.tail _ hy)) hm' fun u y hy => hQ u y (.tail _ hy)

/-- What leaves the block in turn, where it does not depend on what left before. -/
theorem Tx.each_emit {α : Type} (f : State → α → Out) (hf : ∀ (u : Tx s0) o x, f (u.setOuts o).cur x = f u.cur x) (l : List α) :
    ∀ t : Tx s0, (t.each l (fun t x => t.emit (f t.cur x))).cur = { t.cur with outs := t.cur.outs ++ l.map (f t.cur) } := by
  induction l with
  | nil =>
    intro t
    show t.cur = _
    rw [List.map_nil, List.append_nil]
  | cons x l ih =>
    intro t
    have hx : f (t.emit (f t.cur x)).cur = f t.cur := funext fun y => hf ..
    rw [Tx.each_cons, ih, hx, List.map_cons]
    show { t.cur with outs := (t.cur.outs ++ [f t.cur x]) ++ l.map (f t.cur) } = _
    rw [List.append_assoc]
    rfl

theorem Tx.pdmClocks_cur (t : Tx s0) : t.pdmClocks.cur = { t.cur with outs := t.cur.outs ++ (List.range 4).map (fun k =>
    .clock (nth pdmClkPins k "") (if t.cur.meas.clocked && bit (t.cur.g 0x5C00 0 0x02) k then t.cur.meas.rate else 0)) } :=
  Tx.each_emit (fun u k => .clock (nth pdmClkPins k "") (if u.meas.clocked && bit (u.g 0x5C00 0 0x02) k then u.meas.rate else 0))
    (fun _ _ _ => rfl) (List.range 4) t

/-- A microphone is in RESET-SETTLE since B. -/
def Settles (m B : ℕ) (a : State) : Prop := a.micState m = 1 ∧ (a.mic m).resetAt = B

theorem Tx.micReset_settles (t : Tx s0) (hm : m < 16) (B : ℕ) : Settles m B (t.micReset m B).cur := by
  refine ⟨Tx.micTo_state _ hm (by decide), ?_⟩
  unfold Tx.micReset
  dsimp only
  rw [State.mic_unrun (Tx.micTo_unrun ..), Tx.setMic_mic, if_pos rfl]

theorem Tx.micReset_other (t : Tx s0) (hn : n < 16) (hm : m < 16) (h : m ≠ n) (B : ℕ) :
    (t.micReset n B).cur.micState m = t.cur.micState m ∧ (t.micReset n B).cur.mic m = t.cur.mic m := by
  unfold Tx.micReset
  dsimp only
  refine ⟨(Tx.micTo_other _ 1 hn hm h).trans rfl, ?_⟩
  rw [State.mic_unrun (Tx.micTo_unrun ..), Tx.setMic_mic, if_neg h]

/-- The own reset of a microphone is due by B. -/
def State.resetsBy (s : State) (B m : ℕ) : Bool :=
  match (s.mic m).resetDue with
  | some b => decide (b ≤ B)
  | none => false

/-- Every microphone that a reset of all reaches, with those whose own is due, resets. -/
def Tx.micsReset (t : Tx s0) (B : ℕ) : Tx s0 := t.each (List.range 16) fun t m =>
  if t.cur.micState m == 4 || (t.cur.micState m == 0 && !t.cur.resetsBy B m) then t else t.micReset m B

theorem Tx.micsReset_keeps (t : Tx s0) (B : ℕ) : Keeps [.all 0x5C10 [0x0A]] [.meas] t.cur (t.micsReset B).cur :=
  .each (fun u _ => .ite (.refl ..) (.step (u.micReset_keeps ..) (.refl ..))) (.refl ..)

theorem Tx.micsReset_decimation (t : Tx s0) (B : ℕ) : Still State.decimation t.cur (t.micsReset B).cur :=
  .each (fun _ y => .ite rfl ((State.decimation_unrun (Tx.micTo_unrun _ y 1)).step rfl)) rfl

theorem Tx.micsReset_settles (t : Tx s0) {B : ℕ} (hm : m < 16) (h0 : t.cur.micState m ≠ 0) (h4 : t.cur.micState m ≠ 4) :
    Settles m B (t.micsReset B).cur := by
  refine Tx.each_once (P := fun u => u.micState m ≠ 0 ∧ u.micState m ≠ 4) (Q := Settles m B) _ List.nodup_range (List.mem_range.mpr hm)
    ⟨h0, h4⟩ (fun u y hy hne hu => ?_) (fun u hu => ?_) fun u y hy hne hu => ?_
  · split
    · exact hu
    · rwa [(u.micReset_other (List.mem_range.mp hy) hm hne.symm B).1]
  · rw [if_neg (by simp [hu.1, hu.2])]
    exact u.micReset_settles hm B
  · split
    · exact hu
    · obtain ⟨hs, hx⟩ := u.micReset_other (List.mem_range.mp hy) hm hne.symm B
      exact ⟨hs.trans hu.1, (congrArg Mic.resetAt hx).trans hu.2⟩

theorem decimatorReset_resets (hc : s.clocked = true) {B : ℕ} (hdue : s.meas.resetDue = some B) (hB : B ≤ s.now) :
    ∃ t, exec .decimatorReset s = .next t ∧ t.meas.resetDue = none ∧ t.meas.rate = s.g 0x5C00 0 0x01 ∧
      t.g 0x5C00 0 0x04 = B % 2 ^ 64 ∧ t.g 0x5C00 0 0x05 = (s.g 0x5C00 0 0x05 + 1) % 2 ^ 32 ∧
      t.outs = (List.range 4).map (fun k => .clock (nth pdmClkPins k "")
          (if s.meas.clocked && bit (s.g 0x5C00 0 0x02) k then s.g 0x5C00 0 0x01 else 0)) ++
        (if s.on 0x5C00 0 0x08 then [.pulse "PDM_SYNC" 0 (1000000000000 * 96000 / s.g 0x5C00 0 0x01)] else []) ∧
      ∀ m < 16, s.micState m ≠ 0 → s.micState m ≠ 4 → t.micState m = 1 ∧ (t.mic m).resetAt = B := by
  change ∃ t, execDecimatorReset s = .next t ∧ _
  unfold execDecimatorReset
  refine run_to hc ((Tx.start s).decimReset B) (by rw [hdue]; exact if_pos hB) fun t ht => ?_
  unfold Tx.decimReset at ht
  dsimp only at ht
  have hclocks := ((Tx.start s).setMeas { (Tx.start s).cur.meas with resetDue := none, rate := (Tx.start s).g 0x5C00 0 0x01 }).pdmClocks_cur
  generalize Tx.pdmClocks _ = u at ht hclocks
  have hg : ∀ i n c, u.cur.g i n c = s.g i n c := fun i n c => by rw [hclocks]; rfl
  have hmeas : u.cur.meas = { s.meas with resetDue := none, rate := s.g 0x5C00 0 0x01 } := by rw [hclocks]; rfl
  have houts : u.cur.outs = (List.range 4).map (fun k => .clock (nth pdmClkPins k "")
      (if s.meas.clocked && bit (s.g 0x5C00 0 0x02) k then s.g 0x5C00 0 0x01 else 0)) := by rw [hclocks]; rfl
  clear hclocks
  have h5 : (u.tally 0x5C00 0 0x05).cur.g 0x5C00 0 0x05 = (u.cur.g 0x5C00 0 0x05 + 1) % 2 ^ 32 :=
    Tx.tally_g _ (i := 0x5C00) (c := 0x05) (entryAt_ent (by decide : 0 < 1) rfl) (by decide)
  have h4 : ((u.tally 0x5C00 0 0x05).w 0x5C00 0 0x04 B).cur.g 0x5C00 0 0x04 = B % 2 ^ 64 :=
    Tx.w_get_same (i := 0x5C00) (b := 0x04) _ _ (entryAt_ent (by decide : 0 < 1) rfl)
  have hshown : Shown u.cur (((u.tally 0x5C00 0 0x05).w 0x5C00 0 0x04 B).flagBit 0x5C00 0 0x09 0).cur :=
    u.tally_shown.trans ((Tx.w_shown _).trans (Tx.flagBit_shown _))
  have hv : ∀ j m d, j < 0x6800 → 0x5C00 ≠ j ∨ d % 256 ≠ 0x04 ∧ d % 256 ≠ 0x05 ∧ d % 256 ≠ 0x09 →
      (((u.tally 0x5C00 0 0x05).w 0x5C00 0 0x04 B).flagBit 0x5C00 0 0x09 0).cur.g j m d = s.g j m d := fun j m d hj h => by
    rw [Tx.flagBit_skip _ (by omega), Tx.w_skip _ (by omega), Tx.tally_skip _ (by omega) hj, hg]
  have h5 : (((u.tally 0x5C00 0 0x05).w 0x5C00 0 0x04 B).flagBit 0x5C00 0 0x09 0).cur.g 0x5C00 0 0x05 =
      (s.g 0x5C00 0 0x05 + 1) % 2 ^ 32 := by rw [Tx.flagBit_skip _ (by decide), Tx.w_skip _ (by decide), h5, hg]
  have h4 : (((u.tally 0x5C00 0 0x05).w 0x5C00 0 0x04 B).flagBit 0x5C00 0 0x09 0).cur.g 0x5C00 0 0x04 = B % 2 ^ 64 := by
    rw [Tx.flagBit_skip _ (by decide), h4]
  generalize ((u.tally 0x5C00 0 0x05).w 0x5C00 0 0x04 B).flagBit 0x5C00 0 0x09 0 = v at ht hshown hv h5 h4
  have hon : v.on 0x5C00 0 0x08 = s.on 0x5C00 0 0x08 := congrArg (· == 1) (hv 0x5C00 0 0x08 (by decide) (by decide))
  have hmeas : v.cur.meas = { s.meas with resetDue := none, rate := s.g 0x5C00 0 0x01 } := (hshown.meas (by simp)).trans hmeas
  have houts := (hshown.outs (by simp)).trans houts
  rw [hon] at ht
  have hw : (v.when (s.on 0x5C00 0 0x08) (fun t => t.emit (.pulse "PDM_SYNC" 0 (1000000000000 * 96000 / t.cur.meas.rate)))).cur =
      { v.cur with outs := v.cur.outs ++
        (if s.on 0x5C00 0 0x08 then [.pulse "PDM_SYNC" 0 (1000000000000 * 96000 / v.cur.meas.rate)] else []) } := by
    cases s.on 0x5C00 0 0x08
    · show v.cur = { v.cur with outs := v.cur.outs ++ [] }
      rw [List.append_nil]
    · rfl
  generalize v.when (s.on 0x5C00 0 0x08) _ = w at ht hw
  have hwg : ∀ i n c, w.cur.g i n c = v.cur.g i n c := fun i n c => by rw [hw]; rfl
  have hwm : w.cur.meas = v.cur.meas := by rw [hw]
  have hwo := congrArg State.outs hw
  have ht : Kept (fun _ => False) [] (w.micsReset B).cur t := ht
  have hlast := w.micsReset_keeps B
  obtain ⟨hd, hr⟩ := Prod.mk.inj (w.micsReset_decimation B)
  refine ⟨?_, ?_, ?_, ?_, ?_, fun m hm h0 h4 => ?_⟩
  · rw [ht.meas (by simp), hd, hwm, hmeas]
  · rw [ht.meas (by simp), hr, hwm, hmeas]
  · rw [ht.seenG, hlast.gOf, hwg, h4]
  · rw [ht.seenG, hlast.gOf, hwg, h5]
  · rw [ht.outs (by simp), hlast.outs (by simp), hwo]
    show v.cur.outs ++ _ = _
    rw [houts, hmeas]
  · have hst : w.cur.micState m = s.micState m := (hwg ..).trans (hv _ _ _ (by decide) (by decide))
    obtain ⟨h1, hB⟩ := w.micsReset_settles hm (B := B) (by rwa [hst]) (by rwa [hst])
    exact ⟨ht.seenG.trans h1, by rw [State.mic_congr (ht.meas (by simp))]; exact hB⟩

theorem settlingEnd_runs (hc : s.clocked = true) (hn : n < 16) (h1 : s.micState n = 1) (hclk : s.meas.clocked = true)
    (hown : (s.mic n).resetDue = none) (hall : s.meas.resetDue = none) (hat : (s.mic n).resetAt + 256 ≤ s.now) :
    ∃ t, exec (.settlingEnd n) s = .next t ∧ t.micState n = 2 ∧ (t.mic n).ramp = some (true, 0, 0) ∧
      ((s.mic n).back = true → bit (t.g 0x5C10 n 0x10) 1 = true) := by
  change ∃ t, execSettlingEnd n s = .next t ∧ _
  unfold execSettlingEnd
  refine run_to hc _ (if_neg (by simp [h1, hclk, hown, hall]; omega)) fun t ht => ?_
  dsimp only at ht
  have hmic := (Tx.start s).setMic_mic n { s.mic n with ramp := some (true, 0, 0), back := false } n
  rw [if_pos rfl] at hmic
  generalize (Tx.start s).setMic n _ = u at ht hmic
  have hramp : ((u.micTo n 2).cur.mic n).ramp = some (true, 0, 0) := by rw [State.mic_unrun (u.micTo_unrun n 2), hmic]
  have hstate := u.micTo_state (st := 2) hn (by decide)
  generalize u.micTo n 2 = v at ht hramp hstate
  have hflag : ∀ p : Bool, Kept (fun k => k = K 0x5C10 n 0x10) [] v.cur (v.when p (fun t => t.flagBit 0x5C10 n 0x10 1)).cur := fun p =>
    .when (fun _ => .flagBitKey (.refl ..) rfl) (.refl ..)
  refine ⟨?_, ?_, fun hback => ?_⟩
  · rw [← hstate]
    refine ht.seenG.trans ((hflag _).g (K_ne_of_apart (by decide)) ?_)
    simp [noted, kIdx_of_K]
  · rw [State.mic_congr (ht.meas (by simp)), State.mic_congr ((hflag _).meas (by simp)), hramp]
  · rw [ht.seenG, hback]
    exact v.flagBit_bit (i := 0x5C10) (n := n) (b := 0x10) (v := 1) (entryAt_ent hn rfl) rfl rfl rfl

theorem noData_ramps (hc : s.clocked = true) (hn : n < 16) (h2 : s.micState n = 2) (hsame : 2048 ≤ (s.mic n).same) :
    ∃ t, exec (.noData n) s = .next t ∧ t.micState n = 3 ∧ (t.mic n).ramp = some (false, 0, (s.mic n).out) ∧
      t.g 0x5C10 n 0x0F = (s.g 0x5C10 n 0x0F + 1) % 2 ^ 32 ∧ bit (t.g 0x5C10 n 0x10) 0 = true := by
  change ∃ t, execNoData n s = .next t ∧ _
  unfold execNoData
  refine run_to hc _ (if_neg (by simp [h2]; omega)) fun t ht => ?_
  dsimp only at ht
  have hmic := (Tx.start s).setMic_mic n
    { s.mic n with ramp := some (false, 0, (s.mic n).out), seen := 0, changed := false, alive := false } n
  rw [if_pos rfl] at hmic
  have hcount : ∀ x, ((Tx.start s).setMic n x).cur.g 0x5C10 n 0x0F = s.g 0x5C10 n 0x0F := fun x => rfl
  have hcount := hcount { s.mic n with ramp := some (false, 0, (s.mic n).out), seen := 0, changed := false, alive := false }
  generalize (Tx.start s).setMic n _ = u at ht hmic hcount
  have hramp : ((u.micTo n 3).cur.mic n).ramp = some (false, 0, (s.mic n).out) := by rw [State.mic_unrun (u.micTo_unrun n 3), hmic]
  have hstate := u.micTo_state (st := 3) hn (by decide)
  rw [← (u.micTo_keeps n 3).gOf] at hcount
  generalize u.micTo n 3 = v at ht hramp hstate hcount
  have htal : (v.tally 0x5C10 n 0x0F).cur.g 0x5C10 n 0x0F = (v.cur.g 0x5C10 n 0x0F + 1) % 2 ^ 32 :=
    Tx.tally_g _ (i := 0x5C10) (c := 0x0F) (entryAt_ent hn rfl) (by decide)
  refine ⟨?_, ?_, ?_, ?_⟩
  · rw [← hstate]
    exact ht.seenG.trans (by simp [State.micState])
  · rw [State.mic_congr (ht.meas (by simp)), State.mic_congr ((Tx.flagBit_shown _).meas (by simp)),
      State.mic_congr ((Tx.tally_shown _).meas (by simp)), hramp]
  · rw [ht.seenG, Tx.flagBit_skip _ (by decide), htal, hcount]
  · rw [ht.seenG]
    exact (v.tally 0x5C10 n 0x0F).flagBit_bit (i := 0x5C10) (n := n) (b := 0x10) (v := 0) (entryAt_ent hn rfl) rfl rfl rfl

theorem pdmDataResumed_asks (hc : s.clocked = true) (h3 : s.micState n = 3) (halive : (s.mic n).alive = true) :
    ∃ t, exec (.pdmDataResumed n) s = .next t ∧
      t.mic n = { s.mic n with alive := false, resetDue := some (nextBlock s.now) } ∧
      Kept (fun _ => False) [.result, .outs, .meas] s t := by
  change ∃ t, execPdmDataResumed n s = .next t ∧ _
  unfold execPdmDataResumed
  refine run_to hc ((Tx.start s).setMic n { s.mic n with alive := false, resetDue := some (nextBlock s.now) })
    (if_neg (by simp [h3, halive])) fun t ht => ⟨?_, Kept.of_run (by simp) (by simp) (.setMeas (.refl ..)) ht⟩
  rw [State.mic_congr (ht.meas (by simp)), Tx.setMic_mic, if_pos rfl]

/-! ## Compensation -/

theorem compensationWrite_waits (hc : s.clocked = true) (hn : n < 16) (hk : s.writeCheck h (opOf 0x5C10 n 0x07 d) = stOK)
    (hlen : d.length = 4 + 4 * fieldLE d 0 4) (h1 : 1 ≤ fieldLE d 0 4) (h256 : fieldLE d 0 4 ≤ 256) (htaps : ∀ x ∈ compTaps d, tapOk x = true) :
    ∃ t, exec (.compensationWrite h n d) s = .next t ∧ t.gb 0x5C10 n 0x07 = d ∧
      t.mic n = { s.mic n with pend := some (nextBlock s.now, compTaps d) } ∧
      ((s.mic n).sw = none → t.g 0x5C10 n 0x0B = 1) := by
  change ∃ t, execCompensationWrite h n d s = .next t ∧ _
  unfold execCompensationWrite
  refine run_to hc _ (guarded_start hk _) fun t ht => ?_
  unfold compRule at ht
  have hfits : compFits d = true := by
    unfold compFits
    rw [← hlen]
    simp
  have hrange : compInRange d = true := by simp [compInRange, h1, h256, List.all_eq_true.mpr htaps]
  rw [hfits, hrange, if_neg (by simp; omega), if_neg (by decide)] at ht
  dsimp only at ht
  have hold : ((Tx.start s).status stOK).cur.mic n = s.mic n := rfl
  have hgb := ((Tx.start s).status stOK).wb_blob_same 0x5C10 n 0x07 d
  rw [hold] at ht
  have hnow : (((Tx.start s).status stOK).wb 0x5C10 n 0x07 d).cur.now = s.now := rfl
  generalize ((Tx.start s).status stOK).wb 0x5C10 n 0x07 d = u at ht hgb hnow
  have hflag : Shown u.cur (u.when (s.mic n).pend.isSome (fun t => t.flagBit 0x5C10 n 0x10 3)).cur ∧
      Keeps [.all 0x5C10 [0x10]] [] u.cur (u.when (s.mic n).pend.isSome (fun t => t.flagBit 0x5C10 n 0x10 3)).cur :=
    ⟨.when (fun u => u.flagBit_shown) (.refl ..), .when (fun _ => .flagBit (.refl ..)) (.refl ..)⟩
  generalize u.when (s.mic n).pend.isSome _ = v at ht hflag
  rw [(hflag.1.clock (by simp)).1, hnow] at ht
  have hgb : v.cur.gb 0x5C10 n 0x07 = d := hflag.2.gbOf.trans hgb
  have hmic := v.setMic_mic n { s.mic n with pend := some (nextBlock s.now, compTaps d) } n
  rw [if_pos rfl] at hmic
  have hgb : (v.setMic n { s.mic n with pend := some (nextBlock s.now, compTaps d) }).cur.gb 0x5C10 n 0x07 = d := hgb
  generalize v.setMic n _ = w at ht hmic hgb
  refine ⟨?_, ?_, fun hsw => ?_⟩
  · rw [ht.seenGb, ← hgb]
    exact (Kept.when (fun _ => .w (.refl ..)) (.refl ..) : Keeps [.all 0x5C10 [0x0B]] [] w.cur _).gbOf
  · rw [State.mic_congr (ht.meas (by simp)), ← hmic]
    exact State.mic_congr ((Kept.when (fun u => u.w_shown) (.refl ..) : Shown w.cur _).meas (by simp)) n
  · rw [ht.seenG, hsw]
    exact Tx.w_g_of _ (entryAt_ent hn rfl) rfl

theorem compensationSwitch_begins (hc : s.clocked = true) (hn : n < 16) {B : ℕ} {taps : List F32} (hsw : (s.mic n).sw = none)
    (hpend : (s.mic n).pend = some (B, taps)) (hB : B ≤ s.now) (h16 : s.now % 16 = 0) :
    ∃ t, exec (.compensationSwitch n) s = .next t ∧ t.g 0x5C10 n 0x0B = 2 ∧
      t.mic n = { s.mic n with pend := none, sw := some ⟨s.now, taps, 2 ^ s.g 0x5C10 n 0x09, s.g 0x5C10 n 0x08⟩ } := by
  change ∃ t, execCompensationSwitch n s = .next t ∧ _
  unfold execCompensationSwitch
  refine run_to hc (((Tx.start s).setMic n { s.mic n with pend := none, sw := some ⟨s.now, taps, 2 ^ s.g 0x5C10 n 0x09, s.g 0x5C10 n 0x08⟩ }).w
    0x5C10 n 0x0B 2) ?_ fun t ht => ⟨?_, ?_⟩
  · dsimp only
    rw [hsw, hpend]
    exact if_neg (by simp [h16]; omega)
  · rw [ht.seenG]
    exact Tx.w_g_of _ (entryAt_ent hn rfl) rfl
  · rw [State.mic_congr (ht.meas (by simp)), State.mic_congr ((Tx.w_shown _).meas (by simp)), Tx.setMic_mic, if_pos rfl]

/-- Settles O37. -/
theorem microphonesComplete : Obligations.MicrophonesComplete := by
  unfold Obligations.MicrophonesComplete
  exact fun s hc => ⟨fun _ _ _ hsub hk hr => resynchronise_asks hc hsub hk hr, fun _ hdue hB => decimatorReset_resets hc hdue hB,
    fun _ hn h1 hclk hown hall hat => settlingEnd_runs hc hn h1 hclk hown hall hat, fun _ hn h2 hsame => noData_ramps hc hn h2 hsame,
    fun _ _ h3 ha => pdmDataResumed_asks hc h3 ha, fun _ _ _ hn hk hl h1 h2 ht => compensationWrite_waits hc hn hk hl h1 h2 ht,
    fun _ _ _ hn hsw hp hB h16 => compensationSwitch_begins hc hn hsw hp hB h16⟩

end Sys2Proof.Machine
end

section
/-! PROOFS. Power states: requests, the entry to STANDBY, the thermal shutdown (R473, R476). -/

namespace Sys2Proof.Machine
open Sys2Proof

set_option Elab.async false

variable {s0 s a b : State} {h : ℕ} {d : Bytes}

/-! ## Requests -/

theorem State.wakeSource_congr (hg : ∀ c, b.g 0x6502 0 c = a.g 0x6502 0 c) : b.wakeSource = a.wakeSource := by
  unfold State.wakeSource
  simp only [hg]

/-- A request that no check of R473 stops, made in ACTIVE or IDLE. -/
theorem powerRule_passes (t : Tx s0) (hst : t.cur.g 0x6500 0 0x01 = 1 ∨ t.cur.g 0x6500 0 0x01 = 2)
    (hwake : leNat d = 3 → t.cur.wakeSource = true) (h3 : t.cur.g 0x6500 0 0x03 = 0) (hdev : t.cur.power.devReset = none)
    (hne : leNat d ≠ t.cur.g 0x6500 0 0x01) :
    powerRule d t = if leNat d = 1 then (t.w 0x6500 0 0x03 1).setEngines { t.cur.engines with cause := 6 }
      else if t.cur.g 0x6500 0 0x01 = 1 then t.towardIdle (leNat d) else (t.w 0x6500 0 0x03 3).standbyNext := by
  have hwake : (leNat d == 3 && !t.cur.wakeSource) = false := by
    by_cases hv : leNat d = 3
    · simp [hwake hv]
    · simp [hv]
  have hdev : t.cur.power.devReset.isSome = false := by rw [hdev]; rfl
  unfold powerRule
  dsimp only
  rw [hwake, h3, hdev, if_neg (by simp; omega), if_neg (by decide), if_neg (by simp; omega), if_neg (by simpa using hne)]
  simp only [beq_iff_eq]

/-- A request by a host, which no check stops. -/
theorem power_request (hc : s.clocked = true) (hk : s.writeCheck h (opOf 0x6500 0 0x02 d) = stOK) (h3 : s.g 0x6500 0 0x03 = 0)
    (hdev : s.power.devReset = none) (hst : s.g 0x6500 0 0x01 = 1 ∨ s.g 0x6500 0 0x01 = 2) (hwake : leNat d = 3 → s.wakeSource = true)
    (hne : leNat d ≠ s.g 0x6500 0 0x01) {P : State → Prop}
    (hP : ∀ (u : Tx s), u = (Tx.start s).status stOK → ∀ t, Kept (fun _ => False) [] (if leNat d = 1 then
        (u.w 0x6500 0 0x03 1).setEngines { s.engines with cause := 6 }
      else if s.g 0x6500 0 0x01 = 1 then u.towardIdle (leNat d) else (u.w 0x6500 0 0x03 3).standbyNext).cur t → P t) :
    ∃ t, run s (fun t => t.guarded h (opOf 0x6500 0 0x02 d) (powerRule d)) = .next t ∧ P t := by
  refine run_to hc _ (guarded_start hk _) fun t ht => hP _ rfl t ?_
  rwa [powerRule_passes _ (by simpa only [begun_g] using hst)
    (fun hv => (State.wakeSource_congr fun c => begun_g ..).trans (hwake hv)) (by rw [begun_g, h3]) hdev (by rwa [begun_g]), begun_g] at ht

theorem requestActive_asks (hc : s.clocked = true) (hk : s.writeCheck h (opOf 0x6500 0 0x02 d) = stOK) (h3 : s.g 0x6500 0 0x03 = 0)
    (hdev : s.power.devReset = none) (h1 : leNat d = 1) (hst : s.g 0x6500 0 0x01 = 2) :
    ∃ t, exec (.requestActive h d) s = .next t ∧ t.g 0x6500 0 0x03 = 1 ∧ t.engines = { s.engines with cause := 6 } ∧
      t.result = ⟨some stOK, []⟩ := by
  refine power_request hc hk h3 hdev (.inr hst) (by omega) (by omega) fun u hu t ht => ?_
  rw [if_pos h1] at ht
  have hw : (u.w 0x6500 0 0x03 1).cur.g 0x6500 0 0x03 = 1 := Tx.w_g_of _ (entryAt_ent (by decide : 0 < 1) rfl) rfl
  have hres : (u.w 0x6500 0 0x03 1).cur.result = ⟨some stOK, []⟩ := (u.w_shown.result (by simp)).trans (by rw [hu]; rfl)
  generalize u.w 0x6500 0 0x03 1 = v at ht hw hres
  exact ⟨ht.seenG.trans hw, by rw [ht.engines (by simp)]; rfl, by rw [ht.result (by simp), ← hres]; rfl⟩

/-- The way to IDLE begins while the engines run. -/
theorem Tx.towardIdle_running (t : Tx s0) {goal : ℕ} (hr : t.cur.engines.running = true) (hgoal : goal < 256) :
    (t.towardIdle goal).cur.g 0x6500 0 0x03 = goal ∧ (t.towardIdle goal).cur.result = t.cur.result ∧ (t.towardIdle goal).cur.engines =
      { t.cur.engines with rampB := some (t.cur.engines.rampB.getD (nextBlock t.cur.now)), cause := 4 } := by
  unfold Tx.towardIdle
  dsimp only
  have hw : (t.w 0x6500 0 0x03 goal).cur.g 0x6500 0 0x03 = goal :=
    Tx.w_g_of _ (entryAt_ent (by decide : 0 < 1) rfl) (fit_of_lt (by decide) hgoal)
  have he : (t.w 0x6500 0 0x03 goal).cur.engines = t.cur.engines := t.w_shown.engines (by simp)
  have hn : (t.w 0x6500 0 0x03 goal).cur.now = t.cur.now := (t.w_shown.clock (by simp)).1
  have hres : (t.w 0x6500 0 0x03 goal).cur.result = t.cur.result := t.w_shown.result (by simp)
  generalize t.w 0x6500 0 0x03 goal = u at hw he hn hres
  rw [he, hn, hr, if_pos rfl]
  exact ⟨hw, hres, rfl⟩

theorem requestIdle_ramps (hc : s.clocked = true) (hk : s.writeCheck h (opOf 0x6500 0 0x02 d) = stOK) (h3 : s.g 0x6500 0 0x03 = 0)
    (hdev : s.power.devReset = none) {v : ℕ} (hv : leNat d = v) (hv2 : 2 ≤ v) (hv3 : v ≤ 3) (hwake : v = 3 → s.wakeSource = true)
    (hst : s.g 0x6500 0 0x01 = 1) (hr : s.engines.running = true) :
    ∃ t, run s (fun t => t.guarded h (opOf 0x6500 0 0x02 d) (powerRule d)) = .next t ∧ t.g 0x6500 0 0x03 = v ∧
      t.engines = { s.engines with rampB := some (s.engines.rampB.getD (nextBlock s.now)), cause := 4 } ∧
      t.result = ⟨some stOK, []⟩ := by
  subst hv
  refine power_request hc hk h3 hdev (.inl hst) hwake (by omega) fun u hu t ht => ?_
  rw [if_neg (by omega), if_pos hst] at ht
  obtain ⟨hg, hres, he⟩ := u.towardIdle_running (goal := leNat d) (by rw [hu]; exact hr) (by omega)
  refine ⟨ht.seenG.trans hg, by rw [ht.engines (by simp), he, hu]; rfl, by rw [ht.result (by simp), hres, hu]; rfl⟩

theorem requestStandby_enters (hc : s.clocked = true) (hk : s.writeCheck h (opOf 0x6500 0 0x02 d) = stOK) (h3 : s.g 0x6500 0 0x03 = 0)
    (hdev : s.power.devReset = none) (hv : leNat d = 3) (hwake : s.wakeSource = true) (hst : s.g 0x6500 0 0x01 = 2)
    (hsave : s.on 0x6500 0 0x05 = false) :
    ∃ t, exec (.requestStandby h d) s = .next t ∧ t.g 0x6500 0 0x03 = 3 ∧ t.power = { s.power with entry := 3 } := by
  refine power_request hc hk h3 hdev (.inr hst) (fun _ => hwake) (by omega) fun u hu t ht => ?_
  rw [if_neg (by omega), if_neg (by omega)] at ht
  have hw : (u.w 0x6500 0 0x03 3).cur.g 0x6500 0 0x03 = 3 := Tx.w_g_of _ (entryAt_ent (by decide : 0 < 1) rfl) rfl
  have hon : (u.w 0x6500 0 0x03 3).on 0x6500 0 0x05 = false := by
    rw [← hsave]
    exact congrArg (· == 1) ((u.w_skip (by decide)).trans (by rw [hu]; rfl))
  have hp : (u.w 0x6500 0 0x03 3).cur.power = s.power := (u.w_shown.power (by simp)).trans (by rw [hu]; rfl)
  generalize u.w 0x6500 0 0x03 3 = v at ht hw hon hp
  unfold Tx.standbyNext at ht
  rw [hon, if_neg (by simp)] at ht
  exact ⟨ht.seenG.trans hw, by rw [ht.power (by simp), ← hp]; rfl⟩

/-! ## The entry to STANDBY -/

theorem Tx.setPower_g (t : Tx s0) (x : Power) (i n c : ℕ) : (t.setPower x).cur.g i n c = t.cur.g i n c := rfl

theorem Tx.selfRefresh_state (t : Tx s0) : t.selfRefresh.cur.g 0x6200 0 0x01 = 2 := by
  unfold Tx.selfRefresh
  exact Tx.w_g_of _ (entryAt_ent (by decide : 0 < 1) rfl) rfl

theorem Tx.asleep_state (t : Tx s0) : (t.when (t.g 0x6200 0 0x01 != 2) Tx.selfRefresh).cur.g 0x6200 0 0x01 = 2 := by
  unfold Tx.when
  split
  · exact t.selfRefresh_state
  · rename_i h
    exact (by simpa using h : t.g 0x6200 0 0x01 = 2)

/-- The last pins of the entry. -/
theorem Tx.standbyPins_outs (t : Tx s0) (ho : t.cur.outs = []) : (((t.supplyEn 0).emit (.hiz "VREQ")).hedgePinsFree).cur.outs =
    [.pin "SUPPLY_EN" 0, .hiz "VREQ", .modHiz, .hiz "MOD_EN", .hiz "MSENSE_CLK"] := by
  unfold Tx.supplyEn
  have hw := (t.w_shown (i := 0x6500) (n := 0) (c := 0x11) (v := 0)).outs (by simp)
  generalize t.w 0x6500 0 0x11 0 = u at hw ⊢
  show ((((u.cur.outs ++ [_]) ++ [_]) ++ [_]) ++ [_]) ++ [_] = _
  rw [hw, ho]
  rfl

theorem standbyEntry_enters (hc : s.clocked = true) (he : s.power.entry = 3) :
    ∃ t, exec .standbyEntry s = .next t ∧ t.power = { s.power with entry := 0, standby := true, examined := 0 } ∧
      t.g 0x6200 0 0x01 = 2 ∧ t.g 0x6500 0 0x03 = 0 ∧ t.clocked = false ∧
      t.outs = [.pin "SUPPLY_EN" 0, .hiz "VREQ", .modHiz, .hiz "MOD_EN", .hiz "MSENSE_CLK"] := by
  change ∃ t, execStandbyEntry s = .next t ∧ _
  unfold execStandbyEntry
  refine run_to hc _ (if_neg (by simp [he])) fun t ht => ?_
  dsimp only at ht
  have hself := (Tx.start s).asleep_state
  have hk : Keeps [.all 0x6200 [0x01, 0x03, 0x1E]] [.mem] (Tx.start s).cur
      ((Tx.start s).when ((Tx.start s).g 0x6200 0 0x01 != 2) Tx.selfRefresh).cur := .when (fun u => .step u.selfRefresh_keeps (.refl ..)) (.refl ..)
  generalize (Tx.start s).when ((Tx.start s).g 0x6200 0 0x01 != 2) Tx.selfRefresh = u at ht hself hk
  have hp : u.cur.power = s.power := hk.power (by simp)
  have ho : u.cur.outs = [] := hk.outs (by simp)
  have hg : (u.tally 0x6500 0 0x13).cur.g 0x6200 0 0x01 = 2 := (u.tally_skip (by decide) (by decide)).trans hself
  have hp : (u.tally 0x6500 0 0x13).cur.power = s.power := (u.tally_shown.power (by simp)).trans hp
  have ho : (u.tally 0x6500 0 0x13).cur.outs = [] := (u.tally_shown.outs (by simp)).trans ho
  generalize u.tally 0x6500 0 0x13 = v at ht hg hp ho
  have hw : (v.w 0x6500 0 0x03 0).cur.g 0x6500 0 0x03 = 0 := Tx.w_g_of _ (entryAt_ent (by decide : 0 < 1) rfl) rfl
  have hg : (v.w 0x6500 0 0x03 0).cur.g 0x6200 0 0x01 = 2 := (v.w_skip (by decide)).trans hg
  have hp : (v.w 0x6500 0 0x03 0).cur.power = s.power := (v.w_shown.power (by simp)).trans hp
  have ho : (v.w 0x6500 0 0x03 0).cur.outs = [] := (v.w_shown.outs (by simp)).trans ho
  generalize v.w 0x6500 0 0x03 0 = w at ht hg hp ho hw
  have hx : Keeps [.all 0x6500 [0x11]] [.outs] w.cur (((w.supplyEn 0).emit (.hiz "VREQ")).hedgePinsFree).cur :=
    .step (Tx.hedgePinsFree_keeps ..) (.emit (.step (w.supplyEn_keeps 0) (.refl ..)))
  have hox := w.standbyPins_outs ho
  generalize ((w.supplyEn 0).emit (.hiz "VREQ")).hedgePinsFree = x at ht hx hox
  have hpx : x.cur.power = s.power := (hx.power (by simp)).trans hp
  have hpow : t.power = { s.power with entry := 0, standby := true, examined := 0 } := by
    rw [ht.power (by simp), ← hpx]
    rfl
  refine ⟨hpow, by rw [ht.seenG, Tx.setPower_g, hx.gOf, hg], by rw [ht.seenG, Tx.setPower_g, hx.gOf, hw], ?_, by
    rw [ht.outs (by simp), Tx.setPower_outs, hox]⟩
  unfold State.clocked
  rw [hpow]
  rfl

/-! ## Temperature -/

/-- What a reading of the die temperature shows, before the device acts on it. -/
theorem thermalRead_to (hc : s.clocked = true) {temp : F32} {P : State → Prop}
    (hP : ∀ u : Tx s, u.cur.g 0x6500 0 0x0A = temp % 2 ^ 32 → (∀ c, c % 256 ≠ 0x0A ∧ c % 256 ≠ 0x0B ∧ c % 256 ≠ 0x0F ∧ c % 256 ≠ 0x15 →
        u.cur.g 0x6500 0 c = s.g 0x6500 0 c) →
      u.cur.power.hot = min (if F.lt hotLimit temp = true then s.power.hot + 1 else 0) 10 →
      ∀ t, Kept (fun _ => False) [] (u.when (10 ≤ (if F.lt hotLimit temp = true then s.power.hot + 1 else 0) && s.g 0x6500 0 0x01 != 4)
        Tx.thermalShutdown).cur t → P t) :
    ∃ t, exec (.thermalRead temp) s = .next t ∧ P t := by
  change ∃ t, execThermalRead temp s = .next t ∧ _
  unfold execThermalRead
  refine run_to hc _ rfl fun t ht => ?_
  dsimp only at ht
  have hw : ((Tx.start s).fresh.2.w 0x6500 0 0x0A temp).cur.g 0x6500 0 0x0A = temp % 2 ^ 32 :=
    Tx.w_get_same (i := 0x6500) (b := 0x0A) _ _ (entryAt_ent (by decide : 0 < 1) rfl)
  have hg : ∀ c, c % 256 ≠ 0x0A → ((Tx.start s).fresh.2.w 0x6500 0 0x0A temp).cur.g 0x6500 0 c = s.g 0x6500 0 c := fun c h =>
    (Tx.w_skip _ (by omega)).trans rfl
  generalize (Tx.start s).fresh.2.w 0x6500 0 0x0A temp = u at ht hw hg
  have hrest : ∀ (x : ℕ) (p q : Bool), Keeps [.all 0x6500 [0x0B, 0x0F, 0x15]] [] u.cur
      (((u.w 0x6500 0 0x0F x).when p (fun t => t.w 0x6500 0 0x0B temp)).when q (fun t => t.flagBit 0x6500 0 0x15 0)).cur := fun x p q =>
    .when (fun _ => .flagBit (.refl ..)) (.when (fun _ => .w (.refl ..)) (.w (.refl ..)))
  generalize hv : Tx.when (Tx.when (u.w 0x6500 0 0x0F _) _ _) _ _ = v at ht
  have hk : Keeps [.all 0x6500 [0x0B, 0x0F, 0x15]] [] u.cur v.cur := hv ▸ hrest ..
  have hset : ∀ (x : Power) i n c, (v.setPower x).cur.g i n c = v.cur.g i n c := fun _ _ _ _ => rfl
  generalize hw' : v.setPower _ = w at ht
  have hg' : ∀ i n c, w.cur.g i n c = v.cur.g i n c := fun i n c => hw' ▸ hset ..
  have hhot : w.cur.power.hot = min (if F.lt hotLimit temp = true then s.power.hot + 1 else 0) 10 := by rw [← hw']; rfl
  refine hP w ?_ (fun c hc => ?_) hhot t ht
  · rw [hg', hk.gOf, hw]
  · rw [hg', hk.gOf (by simp [apart, Span.all]; omega), hg c hc.1]

theorem thermalRead_reads (hc : s.clocked = true) {temp : F32} (htemp : temp < 2 ^ 32) (hcool : F.lt hotLimit temp = false ∨ s.power.hot < 9) :
    ∃ t, exec (.thermalRead temp) s = .next t ∧ t.g 0x6500 0 0x0A = temp ∧ t.g 0x6500 0 0x01 = s.g 0x6500 0 0x01 ∧
      t.power.hot = (if F.lt hotLimit temp = true then s.power.hot + 1 else 0) := by
  have hle : (if F.lt hotLimit temp = true then s.power.hot + 1 else 0) < 10 := by
    rcases hcool with h | h
    · simp [h]
    · split <;> omega
  refine thermalRead_to hc fun u hA hg hhot t ht => ?_
  generalize (if F.lt hotLimit temp = true then s.power.hot + 1 else 0) = hot at hle hhot ht ⊢
  rw [show (decide (10 ≤ hot) && s.g 0x6500 0 0x01 != 4) = false by simp; omega] at ht
  change Kept _ _ u.cur t at ht
  exact ⟨by rw [ht.seenG, hA, Nat.mod_eq_of_lt htemp], ht.seenG.trans (hg 0x01 (by decide)), by
    rw [ht.power (by simp), hhot]; omega⟩

theorem Tx.powerTo_state (t : Tx s0) {st : ℕ} (cause : ℕ) (hst : st < 256) : (t.powerTo st cause).cur.g 0x6500 0 0x01 = st := by
  unfold Tx.powerTo
  dsimp only
  split
  · rename_i h
    exact (by simpa using h : t.g 0x6500 0 0x01 = st)
  · show (Tx.w _ 0x6500 0 0x14 cause).cur.g 0x6500 0 0x01 = st
    rw [Tx.w_skip _ (by decide), Tx.tally_skip _ (by decide) (by decide), Tx.w_skip _ (by decide)]
    exact Tx.w_g_of _ (entryAt_ent (by decide : 0 < 1) rfl) (fit_of_lt (by decide) hst)

theorem Tx.thermalShutdown_fails (t : Tx s0) : t.thermalShutdown.cur.g 0x6500 0 0x01 = 4 ∧ t.thermalShutdown.cur.g 0x6500 0 0x12 = 0 ∧
    t.thermalShutdown.cur.g 0x6500 0 0x0E = (t.cur.g 0x6500 0 0x0E + 1) % 2 ^ 32 ∧ bit (t.thermalShutdown.cur.g 0x6500 0 0x15) 1 = true := by
  unfold Tx.thermalShutdown
  dsimp only
  have hstop : Keeps [] [.outs, .engines, .hedge, .power] t.cur (if t.cur.engines.running then
      t.setEngines { t.cur.engines with rampB := some (t.cur.engines.rampB.getD (nextBlock t.cur.now)), cause := 5 }
    else (t.setEngines { t.cur.engines with cause := 5 }).hedgeHold).cur :=
    .ite (.setEngines (.refl ..)) (.step (Tx.hedgeHold_keeps ..) (.setEngines (.refl ..)))
  generalize (if t.cur.engines.running = true then _ else _ : Tx s0) = u at hstop ⊢
  have h0 : (u.w 0x6500 0 0x03 0).cur.g 0x6500 0 0x0E = t.cur.g 0x6500 0 0x0E := (u.w_skip (by decide)).trans hstop.gOf
  generalize u.w 0x6500 0 0x03 0 = v at h0 ⊢
  have h4 := v.powerTo_state (st := 4) 2 (by decide)
  have h0 := ((v.powerTo_keeps 4 2).gOf (i := 0x6500) (n := 0) (c := 0x0E)).trans h0
  generalize v.powerTo 4 2 = w at h0 h4 ⊢
  rw [← w.showBanks_keeps.gOf] at h0 h4
  generalize w.showBanks = x at h0 h4 ⊢
  have hby : (x.bypassN 0).cur.g 0x6500 0 0x12 = 0 := by
    unfold Tx.bypassN
    exact Tx.w_g_of (i := 0x6500) (c := 0x12) (v := 0) x (entryAt_ent (by decide : 0 < 1) rfl) rfl
  rw [← (x.bypassN_keeps 0).gOf] at h0 h4
  generalize x.bypassN 0 = y at h0 h4 hby ⊢
  have hlast : ∀ (p : Bool) (c : ℕ), Keeps [] [.outs, .power] y.cur
      ((y.when p (fun t => t.emit (.pin "VREQ" (t.g 0x6603 0 0x01)))).setPower { (y.when p (fun t => t.emit (.pin "VREQ" (t.g 0x6603 0 0x01)))).cur.power with entry := 0 }).cur :=
    fun p _ => .setPower (.when (fun _ => .emit (.refl ..)) (.refl ..))
  generalize hz : Tx.setPower (Tx.when y _ _) _ = z
  have hz : Keeps [] [.outs, .power] y.cur z.cur := hz ▸ hlast _ 0
  rw [← hz.gOf] at h0 h4 hby
  have hE : (z.tally 0x6500 0 0x0E).cur.g 0x6500 0 0x0E = (z.cur.g 0x6500 0 0x0E + 1) % 2 ^ 32 :=
    Tx.tally_g _ (i := 0x6500) (c := 0x0E) (entryAt_ent (by decide : 0 < 1) rfl) (by decide)
  refine ⟨?_, ?_, ?_, ?_⟩
  · rw [Tx.flagBit_skip _ (by decide), Tx.tally_skip _ (by decide) (by decide), h4]
  · rw [Tx.flagBit_skip _ (by decide), Tx.tally_skip _ (by decide) (by decide), hby]
  · rw [Tx.flagBit_skip _ (by decide), hE, h0]
  · exact (z.tally 0x6500 0 0x0E).flagBit_bit (i := 0x6500) (n := 0) (b := 0x15) (v := 1) (entryAt_ent (by decide : 0 < 1) rfl) rfl rfl rfl

theorem thermalRead_shuts (hc : s.clocked = true) {temp : F32} (hlt : F.lt hotLimit temp = true) (h9 : 9 ≤ s.power.hot)
    (h4 : s.g 0x6500 0 0x01 ≠ 4) :
    ∃ t, exec (.thermalRead temp) s = .next t ∧ t.g 0x6500 0 0x01 = 4 ∧ t.g 0x6500 0 0x12 = 0 ∧
      t.g 0x6500 0 0x0E = (s.g 0x6500 0 0x0E + 1) % 2 ^ 32 ∧ bit (t.g 0x6500 0 0x15) 1 = true := by
  refine thermalRead_to hc fun u hA hg hhot t ht => ?_
  rw [if_pos hlt, show (decide (10 ≤ s.power.hot + 1) && s.g 0x6500 0 0x01 != 4) = true by simp [h4]; omega] at ht
  change Kept _ _ u.thermalShutdown.cur t at ht
  obtain ⟨h4, h12, hE, hbit⟩ := u.thermalShutdown_fails
  exact ⟨ht.seenG.trans h4, ht.seenG.trans h12, by rw [ht.seenG, hE, hg 0x0E (by decide)], by rw [ht.seenG, hbit]⟩

/-- Settles O46. -/
theorem powerStatesComplete : Obligations.PowerStatesComplete := by
  unfold Obligations.PowerStatesComplete
  refine fun s hc => ⟨fun h d hk h3 hdev => ⟨fun h1 hst => requestActive_asks hc hk h3 hdev h1 hst, fun hv hst hr => ?_,
    fun hv hwake hst hr => ?_, fun hv hwake hst hsave => requestStandby_enters hc hk h3 hdev hv hwake hst hsave⟩,
    fun he => standbyEntry_enters hc he, fun temp htemp => ⟨fun hcool => thermalRead_reads hc htemp hcool,
    fun hlt h9 h4 => thermalRead_shuts hc hlt h9 h4⟩⟩
  · exact requestIdle_ramps hc hk h3 hdev hv (by decide) (by decide) (fun h => absurd h (by decide)) hst hr
  · obtain ⟨t, ht, hg, he, -⟩ := requestIdle_ramps hc hk h3 hdev hv (by decide) (by decide) (fun _ => hwake) hst hr
    exact ⟨t, ht, hg, he⟩

end Sys2Proof.Machine
end

section
/-! PROOFS. Firmware images and attestation (R412, R467, R471). -/

namespace Sys2Proof.Machine
open Sys2Proof

set_option Elab.async false

variable {s0 s a b : State} {h i : ℕ} {d : Bytes}

/-! ## The firmware slots -/

theorem State.slot_congr (h : b.power = a.power) (i : ℕ) : b.slot i = a.slot i := by
  unfold State.slot
  rw [h]

/-- A save of the system area leaves what it does not hold. -/
theorem Tx.sysSave_power (t : Tx s0) : ∃ x y z, t.sysSave.cur.power = { t.cur.power with sys0 := x, sys1 := y, sysAt := z } := by
  unfold Tx.sysSave
  dsimp only
  split
  · exact ⟨_, _, _, rfl⟩
  · split
    · exact ⟨_, _, _, rfl⟩
    · exact ⟨_, _, _, rfl⟩

theorem Tx.sysSave_slot (t : Tx s0) (i : ℕ) : t.sysSave.cur.slot i = t.cur.slot i := by
  obtain ⟨x, y, z, h⟩ := t.sysSave_power
  unfold State.slot
  rw [h]

theorem Tx.sysSave_mram (t : Tx s0) : t.sysSave.cur.power.mram = t.cur.power.mram := by
  obtain ⟨x, y, z, h⟩ := t.sysSave_power
  rw [h]

theorem Tx.sysSave_g (t : Tx s0) {i n c : ℕ} (hk : apart [] i c = true := by decide) : t.sysSave.cur.g i n c = t.cur.g i n c :=
  t.sysSave_keeps.gOf hk

/-- What a slot that takes a state leaves: itself, the other one, and its state in the dictionary. -/
theorem Tx.setSlot_slot (t : Tx s0) (hi : i < 2) (x : Slot) (j : ℕ) (hj : j < 2) :
    (t.setSlot i x).cur.slot j = if j = i then x else t.cur.slot j := by
  unfold Tx.setSlot
  dsimp only
  rw [State.slot_congr (Tx.w_shown _ |>.power (by simp))]
  obtain rfl | rfl : i = 0 ∨ i = 1 := by omega
  all_goals obtain rfl | rfl : j = 0 ∨ j = 1 := by omega
  all_goals rfl

theorem Tx.setSlot_mram (t : Tx s0) (i : ℕ) (x : Slot) : (t.setSlot i x).cur.power.mram = t.cur.power.mram := by
  unfold Tx.setSlot
  dsimp only
  rw [Tx.w_shown _ |>.power (by simp)]
  show (if (i == 0) = true then _ else _ : Power).mram = _
  split <;> rfl

theorem Tx.setSlot_state (t : Tx s0) (hi : i < 2) {x : Slot} (hx : x.state < 256) : (t.setSlot i x).cur.g 0x6400 0 (0x04 + i) = x.state := by
  obtain rfl | rfl : i = 0 ∨ i = 1 := by omega
  · exact Tx.w_g_of _ (entryAt_ent (by decide : 0 < 1) rfl) (fit_of_lt (by decide) hx)
  · exact Tx.w_g_of _ (entryAt_ent (by decide : 0 < 1) rfl) (fit_of_lt (by decide) hx)

theorem Tx.setSlot_other (t : Tx s0) (hi : i < 2) (x : Slot) {c : ℕ} (hc : c % 256 ≠ 0x04 ∧ c % 256 ≠ 0x05) :
    (t.setSlot i x).cur.g 0x6400 0 c = t.cur.g 0x6400 0 c :=
  (t.setSlot_keeps i x (by omega)).gOf (by simp [apart, Span.all]; omega)

/-! ## An image -/

/-- A slot is erased: what it holds, and which of the two is preferred. -/
theorem Tx.imageGone_erases (t : Tx s0) (hi : i < 2) :
    (t.imageGone i).cur.slot i = ⟨[], 0⟩ ∧ (t.imageGone i).cur.slot (1 - i) = t.cur.slot (1 - i) ∧
      (t.imageGone i).cur.power.mram = t.cur.power.mram ∧ (t.imageGone i).cur.g 0x6400 0 (0x04 + i) = 0 ∧
      (t.imageGone i).cur.g 0x6400 0 0x03 = (if t.cur.g 0x6400 0 0x03 = i then 1 - i else t.cur.g 0x6400 0 0x03) := by
  unfold Tx.imageGone
  have hslot := t.setSlot_slot hi ⟨[], 0⟩
  have hmram := t.setSlot_mram i ⟨[], 0⟩
  have hstate := t.setSlot_state hi (x := ⟨[], 0⟩) (by decide)
  have hpref := t.setSlot_other hi ⟨[], 0⟩ (c := 0x03) (by decide)
  generalize t.setSlot i ⟨[], 0⟩ = u at hslot hmram hstate hpref ⊢
  have hown := hslot i hi
  have hother := hslot (1 - i) (by omega)
  rw [if_pos rfl] at hown
  rw [if_neg (by omega)] at hother
  have hg : t.g 0x6400 0 0x03 = t.cur.g 0x6400 0 0x03 := rfl
  rw [hg]
  by_cases hp : t.cur.g 0x6400 0 0x03 = i
  · have hc : 0x6400 ≠ 0x6400 ∨ 0x03 % 256 ≠ (0x04 + i) % 256 := by omega
    rw [if_pos hp, hp, beq_self_eq_true]
    change (u.w 0x6400 0 0x03 (1 - i)).cur.slot i = _ ∧ (u.w 0x6400 0 0x03 (1 - i)).cur.slot (1 - i) = _ ∧
      (u.w 0x6400 0 0x03 (1 - i)).cur.power.mram = _ ∧ (u.w 0x6400 0 0x03 (1 - i)).cur.g 0x6400 0 (0x04 + i) = _ ∧
      (u.w 0x6400 0 0x03 (1 - i)).cur.g 0x6400 0 0x03 = _
    have hpow := (u.w_shown (i := 0x6400) (n := 0) (c := 0x03) (v := 1 - i)).power (by simp)
    rw [State.slot_congr hpow, State.slot_congr hpow, hpow, u.w_skip hc]
    exact ⟨hown, hother, hmram, hstate, Tx.w_g_of _ (entryAt_ent (by decide : 0 < 1) rfl) (fit_of_lt (by decide) (show 1 - i < 256 by omega))⟩
  · rw [if_neg hp, show (t.cur.g 0x6400 0 0x03 == i) = false by simpa using hp]
    exact ⟨hown, hother, hmram, hstate, hpref⟩

theorem firmwareImage_checked (hc : s.clocked = true) (hk : s.writeCheck h (opOf 0x6400 0 0x06 d) = stOK) (hlen : d.length = 160 + fieldLE d 12 4)
    (hmark : slice d 0 4 = [0x55, 0x4B, 0x46, 0x57]) (hform : fieldLE d 4 2 = 1) (hn0 : fieldLE d 6 2 ≠ 0) (hn : fieldLE d 6 2 ≤ 32)
    (hsha : slice d 16 48 = sha384 (slice d 64 (fieldLE d 12 4))) (hfloor : s.g 0x6400 0 0x07 ≤ fieldLE d 8 4) (hm : s.power.mram = none)
    {P : State → Prop} (hP : ∀ u : Tx s, u = (Tx.start s).status stOK → ∀ t, Kept (fun _ => False) []
      (if ecdsaVerify gumadalKey (sha384 (d.take (64 + fieldLE d 12 4))) (d.drop (64 + fieldLE d 12 4)) = true then
        u.imageErase.mramBegin (8 + u.cur.imageTarget) d else u.imageRefuse u.cur.imageTarget 3).cur t → P t) :
    ∃ t, exec (.firmwareImage h d) s = .next t ∧ P t := by
  change ∃ t, execFirmwareImage h d s = .next t ∧ _
  unfold execFirmwareImage
  refine run_to hc _ (guarded_start hk _) fun t ht => hP _ rfl t ?_
  unfold imageRule at ht
  have hnone : ((Tx.start s).status stOK).cur.power.mram = none := hm
  have hmin : ¬ fieldLE d 8 4 < ((Tx.start s).status stOK).g 0x6400 0 0x07 := Nat.not_lt.mpr hfloor
  generalize (Tx.start s).status stOK = u at ht hnone hmin
  dsimp only at ht
  rw [hnone, if_neg (by decide), if_neg (by simpa using hlen), hmark, hform, if_neg (by simp; omega), ← hsha, if_neg (by simp)] at ht
  by_cases hv : ecdsaVerify gumadalKey (sha384 (d.take (64 + fieldLE d 12 4))) (d.drop (64 + fieldLE d 12 4)) = true
  · rw [hv, if_neg (by decide), if_neg hmin] at ht
    rwa [if_pos hv]
  · rw [if_pos (by simpa using hv)] at ht
    rwa [if_neg hv]

theorem State.imageTarget_lt (s : State) : s.imageTarget < 2 := Nat.lt_of_le_of_lt s.imageTarget_le (by decide)

theorem firmwareImage_taken (hc : s.clocked = true) (hk : s.writeCheck h (opOf 0x6400 0 0x06 d) = stOK) (hlen : d.length = 160 + fieldLE d 12 4)
    (hmark : slice d 0 4 = [0x55, 0x4B, 0x46, 0x57]) (hform : fieldLE d 4 2 = 1) (hn0 : fieldLE d 6 2 ≠ 0) (hn : fieldLE d 6 2 ≤ 32)
    (hsha : slice d 16 48 = sha384 (slice d 64 (fieldLE d 12 4))) (hfloor : s.g 0x6400 0 0x07 ≤ fieldLE d 8 4) (hm : s.power.mram = none)
    {signed : Bool} (hsig : signed = ecdsaVerify gumadalKey (sha384 (d.take (64 + fieldLE d 12 4))) (d.drop (64 + fieldLE d 12 4))) :
    ∃ t, exec (.firmwareImage h d) s = .next t ∧ t.slot (1 - s.imageTarget) = s.slot (1 - s.imageTarget) ∧
      (signed = true → t.result = ⟨none, []⟩ ∧ t.slot s.imageTarget = ⟨[], 0⟩ ∧
        ∃ e, t.power.mram = some ⟨8 + s.imageTarget, d, e, true⟩ ∧ s.clock ≤ e ∧ e ≤ s.clock + mramTime d.length) ∧
      (signed = false → t.result = ⟨some stOutOfRange, []⟩ ∧ t.slot s.imageTarget = ⟨[], 0⟩ ∧
        t.g 0x6400 0 (0x04 + s.imageTarget) = 0 ∧ t.g 0x6400 0 0x0C = 3 ∧
        t.g 0x6400 0 0x03 = (if s.g 0x6400 0 0x03 = s.imageTarget then 1 - s.imageTarget else s.g 0x6400 0 0x03)) := by
  refine firmwareImage_checked hc hk hlen hmark hform hn0 hn hsha hfloor hm fun u hu t ht => ?_
  rw [← hsig] at ht
  have htarget : u.cur.imageTarget = s.imageTarget := by
    unfold State.imageTarget
    rw [show u.cur.g 0x6400 0 0x02 = s.g 0x6400 0 0x02 by rw [hu, begun_g]]
  have hold : u.cur.slot (1 - s.imageTarget) = s.slot (1 - s.imageTarget) := by rw [hu]; rfl
  have hpref : u.cur.g 0x6400 0 0x03 = s.g 0x6400 0 0x03 := by rw [hu, begun_g]
  have hclock : u.cur.clock = s.clock := by rw [hu]; rfl
  rw [htarget] at ht
  obtain ⟨hown, hother, -, hstate, hnew⟩ := u.imageGone_erases s.imageTarget_lt
  rw [hold] at hother
  rw [hpref] at hnew
  cases signed
  · rw [if_neg (by decide)] at ht
    unfold Tx.imageRefuse at ht
    dsimp only at ht
    generalize u.imageGone s.imageTarget = v at ht hown hother hstate hnew
    have hreason : (v.w 0x6400 0 0x0C 3).cur.g 0x6400 0 0x0C = 3 := Tx.w_g_of _ (entryAt_ent (by decide : 0 < 1) rfl) rfl
    have hpow := (v.w_shown (i := 0x6400) (n := 0) (c := 0x0C) (v := 3)).power (by simp)
    have hlt := s.imageTarget_lt
    rw [← State.slot_congr hpow] at hown hother
    rw [← v.w_skip (i := 0x6400) (n := 0) (c := 0x0C) (v := 3) (by omega)] at hstate hnew
    generalize v.w 0x6400 0 0x0C 3 = w at ht hreason hown hother hstate hnew
    have hkept : Kept (fun k => k = K 0x6400 0 0x13) [.result] w.sysSave.cur ((w.sysSave.flagBit 0x6400 0 0x13 1).status stOutOfRange).cur :=
      .status (.flagBitKey (.refl ..) rfl)
    have hg : ∀ c, c % 256 ≠ 0x13 → ((w.sysSave.flagBit 0x6400 0 0x13 1).status stOutOfRange).cur.g 0x6400 0 c = w.cur.g 0x6400 0 c := by
      intro c h
      have hc : (w.sysSave.flagBit 0x6400 0 0x13 1).cur.g 0x6400 0 c = w.sysSave.cur.g 0x6400 0 c :=
        Tx.flagBit_skip _ (.inr (show 0x13 % 256 ≠ c % 256 by omega))
      exact hc.trans (w.sysSave_g (by simp [apart]))
    have hslot : ∀ i, ((w.sysSave.flagBit 0x6400 0 0x13 1).status stOutOfRange).cur.slot i = w.cur.slot i := fun i =>
      (State.slot_congr (hkept.power (by simp)) i).trans (w.sysSave_slot i)
    have hres : ((w.sysSave.flagBit 0x6400 0 0x13 1).status stOutOfRange).cur.result = ⟨some stOutOfRange, []⟩ := rfl
    generalize (w.sysSave.flagBit 0x6400 0 0x13 1).status stOutOfRange = x at ht hg hslot hres
    refine ⟨?_, fun h => absurd h (by decide), fun _ => ⟨(ht.result (by simp)).trans hres, ?_, ?_, ?_, ?_⟩⟩
    · rw [State.slot_congr (ht.power (by simp)), hslot, hother]
    · rw [State.slot_congr (ht.power (by simp)), hslot, hown]
    · rw [ht.seenG (by simp [apart]), hg _ (by omega), hstate]
    · rw [ht.seenG, hg _ (by decide), hreason]
    · rw [ht.seenG, hg _ (by decide), hnew]
  · rw [if_pos rfl] at ht
    unfold Tx.imageErase at ht
    rw [htarget] at ht
    rw [← Tx.sysSave_slot] at hown hother
    have hclock : (u.imageGone s.imageTarget).sysSave.cur.clock = s.clock :=
      ((Tx.sysSave_keeps _).clock (by simp)).2.trans (((u.imageGone_keeps _ s.imageTarget_le).clock (by simp)).2.trans hclock)
    generalize (u.imageGone s.imageTarget).sysSave = v at ht hown hother hclock
    have hslot : ∀ i, (v.mramBegin (8 + s.imageTarget) d).cur.slot i = v.cur.slot i := fun i => rfl
    refine ⟨?_, fun _ => ⟨?_, ?_, ?_⟩, fun h => absurd h (by decide)⟩
    · rw [State.slot_congr (ht.power (by simp)), hslot, hother]
    · rw [ht.result (by simp)]
      rfl
    · rw [State.slot_congr (ht.power (by simp)), hslot, hown]
    · refine ⟨s.clock + Config.free v.cur.free % (mramTime d.length + 1), ?_, Nat.le_add_right .., ?_⟩
      · rw [ht.power (by simp), ← hclock]
        have hgood : (decide (8 ≤ 8 + s.imageTarget) || Config.free v.draw.cur.free % 2 == 0) = true := by simp
        rw [← hgood]
        rfl
      · have : Config.free v.cur.free % (mramTime d.length + 1) < mramTime d.length + 1 := Nat.mod_lt _ (by omega)
        omega

/-! ## The end of its write -/

theorem step_idle (hp : s.pending = []) (hc : s.clocked = true) (hd : s.ctl.down = false) {r : MramRun} (hr : s.power.mram = some r)
    (he : r.ends ≤ s.clock) : step s = runCtl s Tx.mramDone := by
  unfold step
  rw [hp]
  show (if _ then _ else _) = _
  rw [if_pos]
  unfold State.mramEnded
  rw [hr, hc, hd]
  simpa using he

/-- A step on an empty queue that finds a write to the MRAM ended, with no response held. -/
theorem step_lands_write (hp : s.pending = []) (hc : s.clocked = true) (hd : s.ctl.down = false) (hheld : s.ctl.held = none) {r : MramRun}
    (hr : s.power.mram = some r) (he : r.ends ≤ s.clock) {P : State → Prop}
    (hP : ∀ t, Kept (fun _ => False) [] (((Tx.start s).mramLand r).status (if r.good then stOK else stStoreFail)).cur t → P t) :
    ∃ t, step s = .next t ∧ P t := by
  rw [step_idle hp hc hd hr he]
  refine runCtl_to hc hd _ ?_ hP
  unfold Tx.mramDone
  have hr : (Tx.start s).cur.power.mram = some r := hr
  have hclock : (Tx.start s).cur.clock = s.clock := rfl
  rw [hr]
  dsimp only
  rw [hclock, if_neg (by omega)]
  have hheld : ((Tx.start s).mramLand r).cur.ctl.held = none := by
    have hk : Kept (fun _ => True) [.power] (Tx.start s).cur ((Tx.start s).mramLand r).cur := by
      unfold Tx.mramLand
      refine .when (fun u => ?_) (.setPower (.refl ..))
      unfold Tx.mramPut
      dsimp only
      split
      · exact (((((((Kept.setPower (.refl ..)).wKey trivial).wKey trivial).wKey trivial).wKey trivial).wbKey trivial).wKey trivial).trans
          ((Tx.sysSave_keeps _).mono (fun _ _ => trivial) (fun _ h => h))
      · refine Kept.trans ?_ ((Tx.sysSave_keeps _).mono (fun _ _ => trivial) (fun _ h => h))
        unfold Tx.setSlot
        exact (((Kept.setPower (.refl ..)).wKey trivial).wKey trivial).wKey trivial |>.wKey trivial
    exact (hk.ctl_held (by simp)).trans hheld
  rw [hheld]

theorem Tx.mramPut_image (t : Tx s0) {r : MramRun} (hi : i < 2) (hr : r.place = 8 + i) :
    (t.mramPut r).cur.slot i = ⟨r.image, 3⟩ ∧ (t.mramPut r).cur.power.mram = t.cur.power.mram ∧ (t.mramPut r).cur.g 0x6400 0 (0x04 + i) = 3 ∧
      (t.mramPut r).cur.g 0x6400 0 0x03 = i ∧ (t.mramPut r).cur.g 0x6400 0 0x0C = 0 ∧ (t.mramPut r).cur.g 0x6400 0 0x09 = 0 := by
  unfold Tx.mramPut
  dsimp only
  rw [if_neg (by omega), show r.place - 8 = i by omega]
  have hslot := t.setSlot_slot hi ⟨r.image, 3⟩ i hi
  have hmram := t.setSlot_mram i ⟨r.image, 3⟩
  have hstate := t.setSlot_state hi (x := ⟨r.image, 3⟩) (by show 3 < 256; decide)
  rw [if_pos rfl] at hslot
  generalize t.setSlot i ⟨r.image, 3⟩ = u at hslot hmram hstate ⊢
  have h3 : (u.w 0x6400 0 0x03 i).cur.g 0x6400 0 0x03 = i := Tx.w_g_of _ (entryAt_ent (by decide : 0 < 1) rfl) (fit_of_lt (by decide) (show i < 256 by omega))
  have hC : ((u.w 0x6400 0 0x03 i).w 0x6400 0 0x0C 0).cur.g 0x6400 0 0x0C = 0 := Tx.w_g_of _ (entryAt_ent (by decide : 0 < 1) rfl) rfl
  have h9 : (((u.w 0x6400 0 0x03 i).w 0x6400 0 0x0C 0).w 0x6400 0 0x09 0).cur.g 0x6400 0 0x09 = 0 :=
    Tx.w_g_of _ (entryAt_ent (by decide : 0 < 1) rfl) rfl
  have hpow : (((u.w 0x6400 0 0x03 i).w 0x6400 0 0x0C 0).w 0x6400 0 0x09 0).cur.power = u.cur.power :=
    ((u.w_shown.trans (Tx.w_shown _)).trans (Tx.w_shown _)).power (by simp)
  refine ⟨?_, ?_, ?_, ?_, ?_, ?_⟩
  · rw [Tx.sysSave_slot, State.slot_congr hpow, hslot]
  · rw [Tx.sysSave_mram, hpow, hmram]
  · rw [Tx.sysSave_g _ (by simp [apart]), Tx.w_skip _ (by omega), Tx.w_skip _ (by omega), Tx.w_skip _ (by omega), hstate]
  · rw [Tx.sysSave_g, Tx.w_skip _ (by decide), Tx.w_skip _ (by decide), h3]
  · rw [Tx.sysSave_g, Tx.w_skip _ (by decide), hC]
  · rw [Tx.sysSave_g, h9]

theorem step_places_image (hp : s.pending = []) (hc : s.clocked = true) (hd : s.ctl.down = false) (hheld : s.ctl.held = none) {r : MramRun}
    (hr : s.power.mram = some r) (hi : i < 2) (hplace : r.place = 8 + i) (hgood : r.good = true) (he : r.ends ≤ s.clock) :
    ∃ t, step s = .next t ∧ t.power.mram = none ∧ t.result = ⟨some stOK, []⟩ ∧ t.slot i = ⟨r.image, 3⟩ ∧
      t.g 0x6400 0 (0x04 + i) = 3 ∧ t.g 0x6400 0 0x03 = i ∧ t.g 0x6400 0 0x0C = 0 ∧ t.g 0x6400 0 0x09 = 0 := by
  refine step_lands_write hp hc hd hheld hr he fun t ht => ?_
  rw [hgood, if_pos rfl] at ht
  have hres : (((Tx.start s).mramLand r).status stOK).cur.result = ⟨some stOK, []⟩ := rfl
  have hland : (Tx.start s).mramLand r = ((Tx.start s).setPower { (Tx.start s).cur.power with mram := none }).mramPut r := by
    unfold Tx.mramLand
    rw [hgood]
    rfl
  obtain ⟨hslot, hmram, h4, h3, hC, h9⟩ := ((Tx.start s).setPower { (Tx.start s).cur.power with mram := none }).mramPut_image hi hplace
  rw [← hland] at hslot hmram h4 h3 hC h9
  have hg : ∀ i n c, (((Tx.start s).mramLand r).status stOK).cur.g i n c = ((Tx.start s).mramLand r).cur.g i n c := fun i n c => rfl
  have hpow : (((Tx.start s).mramLand r).status stOK).cur.power = ((Tx.start s).mramLand r).cur.power := rfl
  have hnone : ((Tx.start s).mramLand r).cur.power.mram = none := hmram
  generalize (Tx.start s).mramLand r = u at ht hslot hnone h4 h3 hC h9 hres hg hpow
  refine ⟨?_, (ht.result (by simp)).trans hres, ?_, ?_, ?_, ?_, ?_⟩
  · rw [ht.power (by simp), hpow, hnone]
  · rw [State.slot_congr (ht.power (by simp)), State.slot_congr hpow, hslot]
  · rw [ht.seenG (by simp [apart]), hg, h4]
  · rw [ht.seenG, hg, h3]
  · rw [ht.seenG, hg, hC]
  · rw [ht.seenG, hg, h9]

/-! ## Reports -/

theorem writeCheck_host {idx inst sub : ℕ} (hk : s.writeCheck h (opOf idx inst sub d) = stOK) : h < 8 := by
  obtain ⟨_, -, ha, -, -⟩ := State.writeCheck_ok hk
  by_contra hh
  have hno : ∀ acc, s.mayWrite h acc idx inst sub = false := fun acc => by
    unfold State.mayWrite
    exact if_pos (by omega)
  unfold State.accessCheck at ha
  simp only [opOf, hno] at ha
  split at ha
  · exact absurd ha (by decide)
  · split at ha
    · exact absurd ha (by decide)
    · split_ifs at ha
      · exact absurd ha (by decide)
      · exact absurd ha (by decide)
      · exact absurd ha (by decide)
      · exact ‹¬ (!false) = true› rfl

theorem nonce_starts (hc : s.clocked = true) (hk : s.writeCheck h (opOf 0x6402 0 0x01 d) = stOK) (h1 : s.g 0x6402 0 0x02 ≠ 1) :
    ∃ t, exec (.nonce h d) s = .next t ∧ t.power = { s.power with signing := some d } ∧ t.g 0x6402 0 0x02 = 1 ∧
      t.g 0x6402 0 0x05 = h ∧ t.g 0x6402 0 0x06 = s.now % 2 ^ 64 := by
  change ∃ t, execNonce h d s = .next t ∧ _
  unfold execNonce
  have hh := writeCheck_host hk
  refine run_to hc _ (guarded_start hk _) fun t ht => ?_
  unfold nonceRule at ht
  have h1 : ¬ (((Tx.start s).status stOK).g 0x6402 0 0x02 == 1) = true := by
    rw [show ((Tx.start s).status stOK).g 0x6402 0 0x02 = s.g 0x6402 0 0x02 from begun_g ..]
    simpa using h1
  rw [if_neg h1] at ht
  dsimp only at ht
  generalize zeros 160 = x at ht
  generalize zeros 96 = y at ht
  have hwb : Shown ((Tx.start s).status stOK).cur ((((Tx.start s).status stOK).wb 0x6402 0 0x03 x).wb 0x6402 0 0x04 y).cur :=
    (Tx.wb_shown ..).trans (Tx.wb_shown ..)
  have hpow : ((((Tx.start s).status stOK).wb 0x6402 0 0x03 x).wb 0x6402 0 0x04 y).cur.power = s.power := hwb.power (by simp)
  have hnow : ((((Tx.start s).status stOK).wb 0x6402 0 0x03 x).wb 0x6402 0 0x04 y).cur.now = s.now := (hwb.clock (by simp)).1
  generalize (((Tx.start s).status stOK).wb 0x6402 0 0x03 x).wb 0x6402 0 0x04 y = u at ht hpow hnow
  have h2 : (u.w 0x6402 0 0x02 1).cur.g 0x6402 0 0x02 = 1 := Tx.w_g_of _ (entryAt_ent (by decide : 0 < 1) rfl) rfl
  have h5 : ((u.w 0x6402 0 0x02 1).w 0x6402 0 0x05 h).cur.g 0x6402 0 0x05 = h :=
    Tx.w_g_of _ (entryAt_ent (by decide : 0 < 1) rfl) (fit_of_lt (by decide) (show h < 256 by omega))
  have hshown : Shown u.cur ((u.w 0x6402 0 0x02 1).w 0x6402 0 0x05 h).cur := u.w_shown.trans (Tx.w_shown _)
  rw [hnow] at ht
  have h6 : (((u.w 0x6402 0 0x02 1).w 0x6402 0 0x05 h).w 0x6402 0 0x06 s.now).cur.g 0x6402 0 0x06 = s.now % 2 ^ 64 :=
    Tx.w_get_same (i := 0x6402) (b := 0x06) _ _ (entryAt_ent (by decide : 0 < 1) rfl)
  have hpow : (((u.w 0x6402 0 0x02 1).w 0x6402 0 0x05 h).w 0x6402 0 0x06 s.now).cur.power = s.power :=
    ((hshown.trans (Tx.w_shown _)).power (by simp)).trans hpow
  have h2 : (((u.w 0x6402 0 0x02 1).w 0x6402 0 0x05 h).w 0x6402 0 0x06 s.now).cur.g 0x6402 0 0x02 = 1 := by
    rw [Tx.w_skip _ (by decide), Tx.w_skip _ (by decide), h2]
  have h5 : (((u.w 0x6402 0 0x02 1).w 0x6402 0 0x05 h).w 0x6402 0 0x06 s.now).cur.g 0x6402 0 0x05 = h := by
    rw [Tx.w_skip _ (by decide), h5]
  generalize ((u.w 0x6402 0 0x02 1).w 0x6402 0 0x05 h).w 0x6402 0 0x06 s.now = v at ht h2 h5 h6 hpow
  exact ⟨by rw [ht.power (by simp), ← hpow]; rfl, by rw [ht.seenG, Tx.setPower_g, h2], by rw [ht.seenG, Tx.setPower_g, h5],
    by rw [ht.seenG, Tx.setPower_g, h6]⟩

theorem Tx.wb_gb_other (t : Tx s0) {i n c m e : ℕ} {x : Bytes} (h : c % 256 ≠ e % 256) : (t.wb i n c x).cur.gb i m e = t.cur.gb i m e :=
  Tx.wb_blob_other t x (K_ne_of_apart (.inr h))

theorem reportSigned_signs (hc : s.clocked = true) (us : ℕ) (hd : s.ctl.down = false) (hs : s.power.signing = some d) :
    ∃ t, exec (.reportSigned us) s = .next t ∧ t.power = { s.power with signing := none } ∧ t.g 0x6402 0 0x02 = 2 ∧
      t.gb 0x6402 0 0x03 = s.report d ∧ t.gb 0x6402 0 0x04 = fitBytes 96 (Config.sign (sha384 (s.report d))) ∧
      t.g 0x6402 0 0x07 = (s.g 0x6402 0 0x07 + 1) % 2 ^ 32 := by
  change ∃ t, execReportSigned us s = .next t ∧ _
  unfold execReportSigned
  refine runCtl_to hc hd _ rfl fun t ht => ?_
  rw [hs] at ht
  dsimp only at ht
  generalize s.report d = r at ht ⊢
  generalize fitBytes 96 (Config.sign (sha384 r)) = q at ht ⊢
  have h3 : (((Tx.start s).wb 0x6402 0 0x03 r).wb 0x6402 0 0x04 q).cur.gb 0x6402 0 0x03 = r :=
    (Tx.wb_gb_other _ (by decide)).trans (Tx.wb_blob_same ..)
  have h4 : (((Tx.start s).wb 0x6402 0 0x03 r).wb 0x6402 0 0x04 q).cur.gb 0x6402 0 0x04 = q := Tx.wb_blob_same ..
  have hpow : (((Tx.start s).wb 0x6402 0 0x03 r).wb 0x6402 0 0x04 q).cur.power = s.power := rfl
  have hg : (((Tx.start s).wb 0x6402 0 0x03 r).wb 0x6402 0 0x04 q).cur.g 0x6402 0 0x07 = s.g 0x6402 0 0x07 := by
    rw [Tx.wb_g, Tx.wb_g]
    rfl
  generalize ((Tx.start s).wb 0x6402 0 0x03 r).wb 0x6402 0 0x04 q = u at ht h3 h4 hpow hg
  have h2 : (u.w 0x6402 0 0x02 2).cur.g 0x6402 0 0x02 = 2 := Tx.w_g_of _ (entryAt_ent (by decide : 0 < 1) rfl) rfl
  have h7 : ((u.w 0x6402 0 0x02 2).inc 0x6402 0 0x07 1).cur.g 0x6402 0 0x07 = (s.g 0x6402 0 0x07 + 1) % 2 ^ 32 := by
    rw [← hg, ← u.w_skip (i := 0x6402) (n := 0) (c := 0x02) (v := 2) (j := 0x6402) (m := 0) (d := 0x07) (by decide)]
    exact Tx.w_get_same (i := 0x6402) (b := 0x07) _ _ (entryAt_ent (by decide : 0 < 1) rfl)
  have hkeep : Keeps [.all 0x6402 [0x02, 0x07, 0x0C, 0x0D]] [] u.cur
      ((((u.w 0x6402 0 0x02 2).inc 0x6402 0 0x07 1).w 0x6402 0 0x0C us).flagBit 0x6402 0 0x0D 0).cur := .flagBit (.w (.inc (.w (.refl ..))))
  have h2 : ((((u.w 0x6402 0 0x02 2).inc 0x6402 0 0x07 1).w 0x6402 0 0x0C us).flagBit 0x6402 0 0x0D 0).cur.g 0x6402 0 0x02 = 2 := by
    rw [Tx.flagBit_skip _ (by decide), Tx.w_skip _ (by decide), Tx.inc_skip _ (by decide), h2]
  have h7 : ((((u.w 0x6402 0 0x02 2).inc 0x6402 0 0x07 1).w 0x6402 0 0x0C us).flagBit 0x6402 0 0x0D 0).cur.g 0x6402 0 0x07 =
      (s.g 0x6402 0 0x07 + 1) % 2 ^ 32 := by
    rw [Tx.flagBit_skip _ (by decide), Tx.w_skip _ (by decide), h7]
  have hb : ∀ c, c % 256 = 0x03 ∨ c % 256 = 0x04 → ((((u.w 0x6402 0 0x02 2).inc 0x6402 0 0x07 1).w 0x6402 0 0x0C us).flagBit 0x6402 0 0x0D 0).cur.gb
      0x6402 0 c = u.cur.gb 0x6402 0 c := fun c h => hkeep.gbOf (by rcases h with h | h <;> simp [apart, Span.all, h])
  have hp := (hkeep.power (by simp)).trans hpow
  have hq : (((u.w 0x6402 0 0x02 2).inc 0x6402 0 0x07 1).w 0x6402 0 0x0C us).cur.power = s.power :=
    ((((Tx.w_shown _).trans (Tx.inc_shown _)).trans (Tx.w_shown _)).power (by simp)).trans hpow
  rw [hq] at ht
  generalize (((u.w 0x6402 0 0x02 2).inc 0x6402 0 0x07 1).w 0x6402 0 0x0C us).flagBit 0x6402 0 0x0D 0 = v at ht h2 h7 hb hp
  refine ⟨?_, by rw [ht.seenG, Tx.setPower_g, h2], ?_, ?_, by rw [ht.seenG, Tx.setPower_g, h7]⟩
  · rw [ht.power (by simp), Tx.setPower_power]
  · rw [ht.seenGb, ← h3]
    exact hb 0x03 (.inl rfl)
  · rw [ht.seenGb, ← h4]
    exact hb 0x04 (.inr rfl)

/-- Settles O45. -/
theorem attestationComplete : Obligations.AttestationComplete := by
  unfold Obligations.AttestationComplete
  exact fun s hc => ⟨fun _ _ hp hd hheld hr hi hplace hgood he => step_places_image hp hc hd hheld hr hi hplace hgood he,
    fun _ _ hk hlen hmark hform hn0 hn hsha hfloor hm => firmwareImage_taken hc hk hlen hmark hform hn0 hn hsha hfloor hm rfl,
    fun _ _ hk h1 => nonce_starts hc hk h1, fun us _ hd hs => reportSigned_signs hc us hd hs⟩

end Sys2Proof.Machine
end

section
/-! PROOFS. A reset of the control processor by its watchdog: a write to the MRAM that has ended lands first, and one of a place beyond
the two firmware slots shows its state in the count of expiries. -/

namespace Sys2Proof.Machine
open Sys2Proof

set_option Elab.async false

/-- The watchdog runs, and a write to the MRAM has ended at a place that is neither a kernel pack's nor a firmware slot's. -/
def strayExpiryState : State :=
  { State.reset with
    power := { State.reset.power with
      straps := { State.reset.power.straps with wdtEn := true }
      stage := 11
      mram := some ⟨18, [], 0, true⟩ } }

theorem strayExpiryState_expiries : nextGet (exec .watchdog strayExpiryState) (K 0x6400 0 0x0E) = 3 := by
  decide +kernel

/-- Refutes O44: the count 0x6400:0E of the expiry is 3, the state of the image that has landed, and not 1. -/
theorem not_partResetsComplete : ¬ Obligations.PartResetsComplete := by
  unfold Obligations.PartResetsComplete
  intro h
  obtain ⟨-, -, -, -, hwatchdog⟩ := h strayExpiryState (by decide) rfl
  obtain ⟨hfirst, -⟩ := hwatchdog rfl (by decide) (by decide +kernel)
  obtain ⟨t, ht, -, -, hcount⟩ := hfirst rfl rfl
  have hthree := strayExpiryState_expiries
  rw [ht] at hthree
  have hthree : t.g 0x6400 0 0x0E = 3 := hthree
  rw [hcount] at hthree
  revert hthree
  decide +kernel

end Sys2Proof.Machine
end

section
/-! PROOFS. A machine check of the control processor: a write to the MRAM that has ended lands first, and one of a place beyond the two
firmware slots shows its state in the count of machine checks. -/

namespace Sys2Proof.Machine
open Sys2Proof

set_option Elab.async false

/-- A write to the MRAM has ended at a place that is neither a kernel pack's nor a firmware slot's. -/
def strayCheckState : State :=
  { State.reset with power := { State.reset.power with mram := some ⟨19, [], 0, true⟩ } }

/-- The patrol finds word 0 of the system SRAM uncorrectable. -/
theorem strayCheckState_checks : nextGet (exec (.patrol 6 0 (2 ^ 38 + 1) 0) strayCheckState) (K 0x6400 0 0x0F) = 3 := by
  decide +kernel

/-- Refutes O41: the count 0x6400:0F of the machine check is 3, the state of the image that has landed, and not 1. -/
theorem not_memoryComplete : ¬ Obligations.MemoryComplete := by
  unfold Obligations.MemoryComplete
  intro h
  obtain ⟨-, -, -, -, -, -, -, -, -, hpatrol, -⟩ := h strayCheckState (by decide)
  obtain ⟨-, -, hcheck⟩ := hpatrol 6 0 (2 ^ 38 + 1) 0 (by decide) (by decide) rfl
  obtain ⟨t, ht, hcount, -⟩ := hcheck rfl (by decide +kernel) rfl rfl
  have hthree := strayCheckState_checks
  rw [ht] at hthree
  have hthree : t.g 0x6400 0 0x0F = 3 := hthree
  rw [hcount] at hthree
  revert hthree
  decide +kernel

end Sys2Proof.Machine
end

section
/-! PROOFS. The counter latch, the trace port's enable and disable, and the events of synchronisation messages and counter snapshots
(R488 to R494). -/

namespace Sys2Proof.Machine
open Sys2Proof

set_option Elab.async false

variable {s0 s a b : State} {h : ℕ} {d : Bytes}

/-! ## The end of a command, at the trace port -/

/-- What the trace port holds, and the messages of the command. -/
def State.traced (s : State) : Trace × List TraceEv := (s.trace, s.msgs)

theorem Tx.put_traced (t : Tx s0) (k v : ℕ) : Still State.traced t.cur (t.put k v).cur := rfl

theorem Tx.w_traced (t : Tx s0) (i n c v : ℕ) : Still State.traced t.cur (t.w i n c v).cur := t.put_traced _ v

theorem Tx.cycleTo_traced (t : Tx s0) (k : ℕ) (f : CycleNote → CycleNote) : Still State.traced t.cur (t.cycleTo k f).cur := rfl

theorem Tx.counter_traced (t : Tx s0) (i n : ℕ) : Still State.traced t.cur (t.counter i n).cur := by
  unfold Tx.counter Tx.inc
  exact .step (Tx.w_traced ..) (Tx.cycleTo_traced ..)

theorem Tx.tally_traced (t : Tx s0) (i n c : ℕ) : Still State.traced t.cur (t.tally i n c).cur := by
  unfold Tx.tally Tx.count Tx.inc
  dsimp only
  split
  · exact .step (Tx.counter_traced ..) (Tx.w_traced ..)
  · exact Tx.w_traced ..

theorem Tx.flagBit_traced (t : Tx s0) (i n c v : ℕ) : Still State.traced t.cur (t.flagBit i n c v).cur := by
  unfold Tx.flagBit Tx.flag
  exact .step (Tx.w_traced ..) (Tx.cycleTo_traced ..)

theorem Tx.setHost_traced (t : Tx s0) (h : ℕ) (x : HostSt) : Still State.traced t.cur (t.setHost h x).cur := rfl

theorem Tx.record_traced (t : Tx s0) (h : ℕ) (w1c : Bool) (r : Rec) : Still State.traced t.cur (t.record h w1c r).cur := by
  unfold Tx.record
  dsimp only
  refine .ite (.refl ..) ?_
  split
  · exact .step (Tx.flagBit_traced ..) (Tx.tally_traced ..)
  · exact .ite (Tx.setHost_traced ..) (.step (Tx.flagBit_traced ..) (.step (Tx.tally_traced ..) (Tx.setHost_traced ..)))

theorem fireWatch_traced (a : State) (h : ℕ) (t : Tx s0) (w : ℕ × ℕ × ℕ × ℕ × ℕ) : Still State.traced t.cur (fireWatch a h t w).cur := by
  obtain ⟨slot, idx, sub, inst, mask⟩ := w
  unfold fireWatch
  dsimp only
  split
  · exact .refl ..
  · exact .ite (.refl ..) (.ite (.ite (.refl ..) (Tx.record_traced ..)) (Tx.record_traced ..))

theorem fireWatches_traced (a : State) (t : Tx s0) : Still State.traced t.cur (fireWatches a t).cur := by
  unfold fireWatches
  exact .ite (.refl ..) (.each (fun u h => .each (fun v w => fireWatch_traced a h v w) (.refl ..)) (.refl ..))

theorem Tx.metDone_traced (t : Tx s0) : Still State.traced t.cur t.metDone.cur := by
  unfold Tx.metDone
  exact .ite rfl (.refl ..)

theorem Tx.noteChange_traced (t : Tx s0) : Still State.traced t.cur t.noteChange.cur := by
  unfold Tx.noteChange
  exact .ite (.refl ..) (.ite (.refl ..) rfl)

/-- The trace port with the messages of a command that are on waiting for the end of their cycles. -/
def State.flushed (s : State) : Trace := { s.trace with wait := s.trace.wait ++ s.msgs.filter (·.on) }

theorem Tx.traceFlush_trace (t : Tx s0) : t.traceFlush.cur.trace = t.cur.flushed := by
  unfold Tx.traceFlush State.flushed
  dsimp only
  split
  case isTrue h =>
    rw [List.isEmpty_iff.mp h, List.append_nil]
    rfl
  case isFalse h => rfl

theorem State.flushed_of_traced (h : Still State.traced a b) : b.flushed = a.flushed := by
  have ht : b.trace = a.trace := congrArg Prod.fst h
  have hm : b.msgs = a.msgs := congrArg Prod.snd h
  unfold State.flushed
  rw [ht, hm]

theorem Tx.finish_trace (t : Tx s0) : t.finish.cur.trace = t.cur.flushed := by
  unfold Tx.finish
  split
  · rw [Tx.traceFlush_trace, State.flushed_of_traced t.metDone_traced]
  · dsimp only
    rw [Tx.traceFlush_trace]
    refine State.flushed_of_traced (.ite (.step rfl ?_) ?_)
    all_goals exact .step (fireWatches_traced ..) (.step (Tx.metDone_traced _) (.step (fireWatches_traced ..) t.noteChange_traced))

/-- A command that runs to `u` leaves what `u` holds, and at the trace port the messages of the command besides. -/
theorem run_traced {f : Tx s → Tx s} {P : State → Prop} (hc : s.clocked = true) (u : Tx s) (hu : f (Tx.start s) = u)
    (hP : ∀ t, Kept (fun _ => False) [] u.cur t → t.trace = u.cur.flushed → P t) : ∃ t, run s f = .next t ∧ P t :=
  ⟨_, run_finish hc, by
    subst hu
    exact hP _ (Tx.finish_kept _) (Tx.finish_trace _)⟩

/-! ## Counters -/

theorem State.begun_counterVal (s : State) (i : ℕ) : s.begun.counterVal i = s.counterVal i := by
  have hs : Alike (Tx.begin s.begun).traceSettle (Tx.begin s).traceSettle := Alike.traceSettle (t := Tx.begin s.begun) rfl
  unfold State.counterVal
  rw [show (Tx.begin s.begun).traceSettle.cur.g 0x680F 0 0x01 = (Tx.begin s).traceSettle.cur.g 0x680F 0 0x01 from hs.g ..]
  rfl

theorem State.counterVal_congr (h : b.begun = a.begun) (i : ℕ) : b.counterVal i = a.counterVal i := by
  rw [← State.begun_counterVal b, h, State.begun_counterVal]

theorem Tx.status_begun (t : Tx s0) (st : ℕ) : (t.status st).cur.begun = t.cur.begun := rfl

theorem State.status_begun (s : State) (st : ℕ) : ((Tx.start s).status st).cur.begun = s.begun := by
  rw [Tx.status_begun]
  have hstart : (Tx.start s).cur = s.begun := rfl
  rw [hstart]
  rfl

theorem counterLatch_latches (hc : s.clocked = true) (hk : s.writeCheck h (opOf 0x6A00 0 0x17 d) = stOK) :
    ∃ t, exec (.counterLatch h d) s = .next t ∧
      t.gb 0x6A00 0 0x1A = ((List.range 512).map (fun i => leBytes 8 (s.counterVal i))).foldl (· ++ ·) [] ∧
      t.g 0x6A00 0 0x17 = leNat d ∧ t.g 0x6A00 0 0x18 = s.now % 2 ^ 64 ∧ t.g 0x6A00 0 0x19 = s.clock % 2 ^ 64 ∧
      t.g 0x6A00 0 0x1B = (s.g 0x6A00 0 0x1B + 1) % 2 ^ 32 := by
  change ∃ t, execCounterLatch h d s = .next t ∧ _
  unfold execCounterLatch
  refine run_to hc _ (guarded_start hk _) fun t ht => ?_
  unfold latchRule at ht
  have hbegun := s.status_begun stOK
  have hcount : ((Tx.start s).status stOK).cur.counterVal = s.counterVal := funext (State.counterVal_congr hbegun)
  dsimp only at ht
  rw [hcount] at ht
  generalize (List.map (fun i => leBytes 8 (s.counterVal i)) (List.range 512)).foldl (· ++ ·) [] = img at ht ⊢
  have h17 : ((((Tx.start s).status stOK).w 0x6A00 0 0x17 (leNat d)).wb 0x6A00 0 0x1A img).cur.g 0x6A00 0 0x17 = leNat d := by
    rw [Tx.wb_g]
    exact Tx.w_written (k := 1) _ hk rfl
  have h1A : ((((Tx.start s).status stOK).w 0x6A00 0 0x17 (leNat d)).wb 0x6A00 0 0x1A img).cur.gb 0x6A00 0 0x1A = img := Tx.wb_blob_same ..
  have h1B : ((((Tx.start s).status stOK).w 0x6A00 0 0x17 (leNat d)).wb 0x6A00 0 0x1A img).cur.g 0x6A00 0 0x1B = s.g 0x6A00 0 0x1B := by
    rw [Tx.wb_g, Tx.w_skip _ (by decide), begun_g]
  have hshown : Shown ((Tx.start s).status stOK).cur ((((Tx.start s).status stOK).w 0x6A00 0 0x17 (leNat d)).wb 0x6A00 0 0x1A img).cur :=
    (Tx.w_shown _).trans (Tx.wb_shown ..)
  obtain ⟨hnow, hclock⟩ : _ = s.now ∧ _ = s.clock := hshown.clock (by simp)
  generalize (((Tx.start s).status stOK).w 0x6A00 0 0x17 (leNat d)).wb 0x6A00 0 0x1A img = u at ht h17 h1A h1B hnow hclock
  rw [hnow, hclock] at ht
  have h18 : (u.w 0x6A00 0 0x18 s.now).cur.g 0x6A00 0 0x18 = s.now % 2 ^ 64 :=
    Tx.w_get_same (i := 0x6A00) (b := 0x18) _ _ (entryAt_ent (by decide : 0 < 1) rfl)
  have h19 : ((u.w 0x6A00 0 0x18 s.now).w 0x6A00 0 0x19 s.clock).cur.g 0x6A00 0 0x19 = s.clock % 2 ^ 64 :=
    Tx.w_get_same (i := 0x6A00) (b := 0x19) _ _ (entryAt_ent (by decide : 0 < 1) rfl)
  have hinc : (((u.w 0x6A00 0 0x18 s.now).w 0x6A00 0 0x19 s.clock).inc 0x6A00 0 0x1B 1).cur.g 0x6A00 0 0x1B =
      (((u.w 0x6A00 0 0x18 s.now).w 0x6A00 0 0x19 s.clock).cur.g 0x6A00 0 0x1B + 1) % 2 ^ 32 :=
    Tx.w_get_same (i := 0x6A00) (b := 0x1B) _ _ (entryAt_ent (by decide : 0 < 1) rfl)
  have hkeep : Keeps [.all 0x6A00 [0x18, 0x19, 0x1B]] [] u.cur (((u.w 0x6A00 0 0x18 s.now).w 0x6A00 0 0x19 s.clock).inc 0x6A00 0 0x1B 1).cur :=
    .inc (.w (.w (.refl ..)))
  refine ⟨?_, ?_, ?_, ?_, ?_⟩
  · rw [ht.seenGb, hkeep.gbOf, h1A]
  · rw [ht.seenG, hkeep.gOf, h17]
  · rw [ht.seenG, Tx.inc_skip _ (by decide), Tx.w_skip _ (by decide), h18]
  · rw [ht.seenG, Tx.inc_skip _ (by decide), h19]
  · rw [ht.seenG, hinc, Tx.w_skip _ (by decide), Tx.w_skip _ (by decide), h1B]

/-! ## The trace port is enabled and disabled -/

theorem State.traceType_congr (hs : b.sets = a.sets) {ty : ℕ} (hg : b.get (controlKey ty) = a.get (controlKey ty)) :
    b.traceType ty = a.traceType ty := by
  unfold State.traceType State.cycleOf
  rw [hs, hg]

/-- What the present cycle notes of an entry stands. -/
abbrev NoteStays (k : ℕ) (a b : State) : Prop := Still (fun s => s.cycleOf k) a b

section
variable {k : ℕ}

theorem Tx.put_note (t : Tx s0) (j v : ℕ) : NoteStays k t.cur (t.put j v).cur := rfl

theorem Tx.w_note (t : Tx s0) (i n c v : ℕ) : NoteStays k t.cur (t.w i n c v).cur := t.put_note _ v

theorem Tx.inc_note (t : Tx s0) (i n c v : ℕ) : NoteStays k t.cur (t.inc i n c v).cur := t.w_note ..

theorem Tx.emit_note (t : Tx s0) (o : Out) : NoteStays k t.cur (t.emit o).cur := rfl

theorem Tx.setTrace_note (t : Tx s0) (x : Trace) : NoteStays k t.cur (t.setTrace x).cur := rfl

theorem Tx.peak_note (t : Tx s0) (i n c v : ℕ) : NoteStays k t.cur (t.peak i n c v).cur := by
  unfold Tx.peak
  exact .ite (t.w_note ..) (.refl ..)

theorem Tx.flagBit_note (t : Tx s0) {i n c v : ℕ} (h : k ≠ K i n c) : NoteStays k t.cur (t.flagBit i n c v).cur := by
  unfold Tx.flagBit Tx.flag
  refine .step (Tx.w_note ..) ?_
  show mget _ (mputD _ _ _ _) k = _
  rw [mget_mputD, if_neg h]
  rfl

end

theorem Tx.traceSend_note (t : Tx s0) {k : ℕ} (c : ℕ) (idle : Bool) : NoteStays k t.cur (t.traceSend c idle).cur := by
  unfold Tx.traceSend
  exact .ite (.refl ..) (.when (.when (t.setTrace_note _) (.step (Tx.w_note ..) (.step (Tx.inc_note ..) (.step (Tx.inc_note ..)
    (.step (Tx.inc_note ..) (.step (Tx.inc_note ..) (Tx.emit_note ..))))))) (Tx.emit_note ..))

theorem Tx.traceDrop_note (t : Tx s0) {k : ℕ} (e : TraceEv) (h : k ≠ K 0x6A00 0 0x1F) : NoteStays k t.cur (t.traceDrop e).cur := by
  unfold Tx.traceDrop
  exact .step (Tx.flagBit_note _ h) (.step (Tx.w_note ..) (.step (Tx.w_note ..) (.step (Tx.w_note ..) (t.setTrace_note _))))

theorem Tx.tracePut_note (t : Tx s0) {k : ℕ} (e : TraceEv) (h : k ≠ K 0x6A00 0 0x1F) : NoteStays k t.cur (t.tracePut e).cur := by
  unfold Tx.tracePut
  exact .ite (t.traceDrop_note e h) (.when (.step (Tx.peak_note ..) (.step (Tx.w_note ..) (.when (t.setTrace_note _) (Tx.w_note ..))))
    (Tx.flagBit_note _ h))

theorem Tx.traceTake_note (t : Tx s0) {k : ℕ} (e : TraceEv) (h : k ≠ K 0x6A00 0 0x1F) : NoteStays k t.cur (t.traceTake e).cur := by
  unfold Tx.traceTake
  have hsend := t.traceSend_note (k := k) e.at_ true
  exact .ite (.ite (.step (Tx.traceDrop_note _ _ h) hsend) (.step (Tx.tracePut_note _ _ h) (.step (Tx.tracePut_note _ _ h) hsend)))
    (.step (Tx.tracePut_note _ _ h) hsend)

/-- What the trace port does up to the present cycle sets no flag but those of 0x6A00:1F. -/
theorem Tx.traceSettle_note (t : Tx s0) {k : ℕ} (h : k ≠ K 0x6A00 0 0x1F) : NoteStays k t.cur t.traceSettle.cur := by
  have htake : ∀ x (l : List TraceEv), NoteStays k t.cur ((t.setTrace x).each l (fun t e => t.traceTake e)).cur := fun x l =>
    .each (fun u e => u.traceTake_note e h) (t.setTrace_note x)
  unfold Tx.traceSettle
  exact .ite (.refl ..) (.ite (.step (Tx.emit_note ..) (.step (Tx.emit_note ..) (.step (Tx.w_note ..) (.step (Tx.setTrace_note ..)
    (.step (Tx.traceSend_note ..) (htake ..)))))) (.step (Tx.traceSend_note ..) (htake ..)))

/-- A synchronisation message of the present cycle. -/
def State.syncEvent (s : State) : TraceEv := ⟨s.clock, s.now, 0, true, []⟩

/-- A message whose type is on waits for the end of its cycle. -/
theorem Tx.msg_waits (t : Tx s0) {ty : ℕ} (p : Bytes) (hall : t.cur.traceOn ty = true) :
    (⟨t.cur.clock, t.cur.now, ty, true, p⟩ : TraceEv) ∈ (t.msg ty p).cur.flushed.wait := by
  have hmsgs : (t.msg ty p).cur.msgs = t.cur.msgs ++ [⟨t.cur.clock, t.cur.now, ty, t.cur.traceOn ty, p⟩] := rfl
  unfold State.flushed
  dsimp only
  rw [hmsgs, hall, List.filter_append]
  exact List.mem_append_right _ (List.mem_append_right _ (List.mem_singleton.mpr rfl))

/-- A synchronisation message goes where the trace port is enabled and its type is on. -/
theorem Tx.msg_sync (t : Tx s0) (hon : t.cur.on 0x6A00 0 0x01 = true) (hty : t.cur.traceType 0 = true) :
    t.cur.syncEvent ∈ (t.msg 0 []).cur.flushed.wait := by
  have hall : t.cur.traceOn 0 = true := by
    unfold State.traceOn
    rw [hon, hty]
    rfl
  exact t.msg_waits [] hall

/-- The trace port as an enable leaves it. -/
def Trace.opened (x : Trace) (c : ℕ) : Trace := { x with closing := false, snapAt := c, syncAt := c }

/-- The trace port as an enable finds it: one that stood sends from now on. -/
def State.traceFrom (s : State) : Trace := if s.g 0x6A00 0 0x1E == 1 then s.trace else { s.trace with outAt := s.clock }

/-- What an enable of the trace port writes. -/
def Tx.traceUp (v : Tx s0) : Tx s0 :=
  ((((v.w 0x6A00 0 0x01 1).w 0x6A00 0 0x0F v.cur.now).w 0x6A00 0 0x1E 1).setTrace (v.cur.traceFrom.opened v.cur.clock)).emit
    (.clock "TRACE_CLK" 250000000)

theorem traceRule_enables (t : Tx s0) (hd : leNat d = 1) (hoff : t.cur.on 0x6A00 0 0x01 = false) :
    traceRule d t = t.traceSettle.traceUp.msg 0 [] := by
  have hwas : t.on 0x6A00 0 0x01 = false := hoff
  unfold traceRule
  dsimp only
  rw [hwas, hd, beq_self_eq_true, if_pos rfl, if_neg (by decide)]
  generalize t.traceSettle = v
  have hg : ((v.w 0x6A00 0 0x01 1).w 0x6A00 0 0x0F (v.w 0x6A00 0 0x01 1).cur.now).g 0x6A00 0 0x1E = v.cur.g 0x6A00 0 0x1E :=
    (Tx.w_skip _ (by decide)).trans (Tx.w_skip _ (by decide))
  rw [hg]
  unfold Tx.traceUp State.traceFrom Trace.opened
  rfl

/-- What an enable leaves beside the message. -/
theorem Tx.traceUp_leaves (v : Tx s0) : v.traceUp.cur.on 0x6A00 0 0x01 = true ∧ v.traceUp.cur.g 0x6A00 0 0x01 = 1 ∧ v.traceUp.cur.g 0x6A00 0 0x1E = 1 ∧
    v.traceUp.cur.g 0x6A00 0 0x0F = v.cur.now % 2 ^ 64 ∧ v.traceUp.cur.trace = v.cur.traceFrom.opened v.cur.clock ∧
    v.traceUp.cur.outs = v.cur.outs ++ [.clock "TRACE_CLK" 250000000] ∧ v.traceUp.cur.now = v.cur.now ∧ v.traceUp.cur.clock = v.cur.clock ∧
    (v.traceUp.cur.traceType 0 = v.cur.traceType 0) := by
  have h1 : (v.w 0x6A00 0 0x01 1).cur.g 0x6A00 0 0x01 = 1 := Tx.w_g_of _ (entryAt_ent (by decide : 0 < 1) rfl) rfl
  have hF : ((v.w 0x6A00 0 0x01 1).w 0x6A00 0 0x0F v.cur.now).cur.g 0x6A00 0 0x0F = v.cur.now % 2 ^ 64 :=
    Tx.w_get_same (i := 0x6A00) (b := 0x0F) _ _ (entryAt_ent (by decide : 0 < 1) rfl)
  have hE : (((v.w 0x6A00 0 0x01 1).w 0x6A00 0 0x0F v.cur.now).w 0x6A00 0 0x1E 1).cur.g 0x6A00 0 0x1E = 1 :=
    Tx.w_g_of _ (entryAt_ent (by decide : 0 < 1) rfl) rfl
  have hshown : Shown v.cur (((v.w 0x6A00 0 0x01 1).w 0x6A00 0 0x0F v.cur.now).w 0x6A00 0 0x1E 1).cur :=
    ((Tx.w_shown _).trans (Tx.w_shown _)).trans (Tx.w_shown _)
  have houts := hshown.outs (by simp)
  obtain ⟨hnow, hclock⟩ := hshown.clock (by simp)
  have h1 : (((v.w 0x6A00 0 0x01 1).w 0x6A00 0 0x0F v.cur.now).w 0x6A00 0 0x1E 1).cur.g 0x6A00 0 0x01 = 1 := by
    rw [Tx.w_skip _ (by decide), Tx.w_skip _ (by decide), h1]
  have hF : (((v.w 0x6A00 0 0x01 1).w 0x6A00 0 0x0F v.cur.now).w 0x6A00 0 0x1E 1).cur.g 0x6A00 0 0x0F = v.cur.now % 2 ^ 64 := by
    rw [Tx.w_skip _ (by decide), hF]
  have hty : (((v.w 0x6A00 0 0x01 1).w 0x6A00 0 0x0F v.cur.now).w 0x6A00 0 0x1E 1).cur.traceType 0 = v.cur.traceType 0 := by
    have hsets : (((v.w 0x6A00 0 0x01 1).w 0x6A00 0 0x0F v.cur.now).w 0x6A00 0 0x1E 1).cur.sets = v.cur.sets := rfl
    refine State.traceType_congr hsets ?_
    exact (Tx.w_skip _ (.inr (by decide))).trans ((Tx.w_skip _ (.inr (by decide))).trans (Tx.w_skip (j := 0x6A00) (m := 0) (d := 0x02) _ (.inr (by decide))))
  unfold Tx.traceUp
  generalize ((v.w 0x6A00 0 0x01 1).w 0x6A00 0 0x0F v.cur.now).w 0x6A00 0 0x1E 1 = u at h1 hF hE houts hnow hclock hty ⊢
  refine ⟨?_, h1, hE, hF, rfl, ?_, hnow, hclock, hty⟩
  · show (u.cur.g 0x6A00 0 0x01 == 1) = true
    rw [h1]
    rfl
  · show u.cur.outs ++ _ = _
    rw [houts]

theorem traceEnable_enables (hc : s.clocked = true) (hk : s.writeCheck h (opOf 0x6A00 0 0x01 d) = stOK) (hd : leNat d = 1)
    (hoff : s.on 0x6A00 0 0x01 = false) :
    ∃ t, exec (.traceEnable h d) s = .next t ∧ t.g 0x6A00 0 0x01 = 1 ∧ t.g 0x6A00 0 0x1E = 1 ∧
      t.g 0x6A00 0 0x0F = s.now % 2 ^ 64 ∧ t.trace.closing = false ∧ t.trace.snapAt = s.clock ∧
      t.trace.syncAt = s.clock ∧ (s.traceType 0 = true → (⟨s.clock, s.now, 0, true, []⟩ : TraceEv) ∈ t.trace.wait) ∧
      (s.g 0x6A00 0 0x1E ≠ 1 → t.trace.outAt = s.clock ∧ t.outs = [.clock "TRACE_CLK" 250000000]) := by
  change ∃ t, execTraceEnable h d s = .next t ∧ _
  unfold execTraceEnable
  have hoff' : ((Tx.start s).status stOK).cur.on 0x6A00 0 0x01 = false := by
    show (((Tx.start s).status stOK).cur.g 0x6A00 0 0x01 == 1) = false
    rw [begun_g]
    exact hoff
  have hty : ((Tx.start s).status stOK).cur.traceType 0 = s.traceType 0 := State.traceType_congr rfl rfl
  have hE : ((Tx.start s).status stOK).cur.g 0x6A00 0 0x1E = s.g 0x6A00 0 0x1E := begun_g ..
  have houts : ((Tx.start s).status stOK).cur.outs = [] := rfl
  have hnow : ((Tx.start s).status stOK).cur.now = s.now := rfl
  have hclock : ((Tx.start s).status stOK).cur.clock = s.clock := rfl
  refine run_traced hc _ ((guarded_start hk _).trans (traceRule_enables _ hd hoff')) fun t ht htrace => ?_
  generalize (Tx.start s).status stOK = u at ht htrace hty hE houts hnow hclock
  have hkept := u.traceSettle_keeps
  have hty : u.traceSettle.cur.traceType 0 = s.traceType 0 :=
    (show u.traceSettle.cur.traceType 0 = u.cur.traceType 0 by
      unfold State.traceType
      have hnote : u.traceSettle.cur.cycleOf (controlKey 0) = u.cur.cycleOf (controlKey 0) := u.traceSettle_note (by decide)
      rw [hnote]
      have hget : u.traceSettle.cur.g 0x6A00 0 0x02 = u.cur.g 0x6A00 0 0x02 := hkept.gOf
      exact congrArg (fun x => ((u.cur.cycleOf (controlKey 0)).was.getD x == 1)) hget).trans hty
  obtain ⟨hnow', hclock'⟩ := hkept.clock (by simp)
  have hstood : u.cur.g 0x6A00 0 0x1E ≠ 1 → u.traceSettle = u := fun h1 => by
    unfold Tx.traceSettle
    have h1 : u.g 0x6A00 0 0x1E ≠ 1 := h1
    exact if_pos (by simpa using h1)
  obtain ⟨hup, h1, hE1, hF, hx, hout, hn, hcl, htt⟩ := u.traceSettle.traceUp_leaves
  have hwait : s.traceType 0 = true → u.traceSettle.traceUp.cur.syncEvent ∈ (u.traceSettle.traceUp.msg 0 []).cur.flushed.wait := fun h =>
    Tx.msg_sync _ hup (htt.trans (hty.trans h))
  have hev : u.traceSettle.traceUp.cur.syncEvent = ⟨s.clock, s.now, 0, true, []⟩ := by
    unfold State.syncEvent
    rw [hcl, hn, hclock', hnow', hclock, hnow]
  rw [hev, ← htrace] at hwait
  have hflushed : t.trace = { u.traceSettle.cur.traceFrom.opened s.clock with wait := t.trace.wait } := by
    rw [htrace]
    unfold State.flushed
    rw [show (u.traceSettle.traceUp.msg 0 []).cur.trace = u.traceSettle.traceUp.cur.trace from rfl, hx, hclock', hclock]
  have hmsg : Shown u.traceSettle.traceUp.cur (u.traceSettle.traceUp.msg 0 []).cur := Tx.msg_shown ..
  have hg : ∀ c, t.g 0x6A00 0 c = u.traceSettle.traceUp.cur.g 0x6A00 0 c := fun c => ht.seenG (by simp [apart])
  have houts' : t.outs = u.traceSettle.traceUp.cur.outs := (ht.outs (by simp)).trans (hmsg.outs (by simp))
  refine ⟨(hg _).trans h1, (hg _).trans hE1, ?_, ?_, ?_, ?_, hwait, fun hne => ?_⟩
  · rw [hg, hF, hnow', hnow]
  · rw [hflushed]
    rfl
  · rw [hflushed]
    rfl
  · rw [hflushed]
    rfl
  · have hu := hstood (by rwa [hE])
    rw [houts', hout, hu, houts]
    refine ⟨?_, rfl⟩
    rw [hflushed, hu]
    unfold State.traceFrom
    rw [if_neg (by rw [hE]; simpa using hne), hclock]
    rfl

theorem traceDisable_disables (hc : s.clocked = true) (hk : s.writeCheck h (opOf 0x6A00 0 0x01 d) = stOK) (hd : leNat d = 0)
    (hon : s.on 0x6A00 0 0x01 = true) :
    ∃ t, exec (.traceDisable h d) s = .next t ∧ t.g 0x6A00 0 0x01 = 0 ∧ t.trace.closing = true := by
  change ∃ t, execTraceDisable h d s = .next t ∧ _
  unfold execTraceDisable
  have hon' : ((Tx.start s).status stOK).on 0x6A00 0 0x01 = true := by
    show (((Tx.start s).status stOK).cur.g 0x6A00 0 0x01 == 1) = true
    rw [begun_g]
    exact hon
  refine run_traced hc _ (guarded_start hk _) fun t ht htrace => ?_
  unfold traceRule at ht htrace
  dsimp only at ht htrace
  rw [hon', hd, if_neg (by decide), if_pos rfl] at ht htrace
  generalize ((Tx.start s).status stOK).traceSettle = u at ht htrace
  have h1 : (u.w 0x6A00 0 0x01 0).cur.g 0x6A00 0 0x01 = 0 := Tx.w_g_of _ (entryAt_ent (by decide : 0 < 1) rfl) rfl
  generalize u.w 0x6A00 0 0x01 0 = v at ht htrace h1
  refine ⟨ht.seenG.trans h1, ?_⟩
  rw [htrace]
  rfl

/-! ## Events at intervals -/

theorem traceSync_sends (hc : s.clocked = true) (hon : s.on 0x6A00 0 0x01 = true) (h2 : s.g 0x6A00 0 0x02 = 1)
    (hdue : s.trace.syncAt + s.g 0x6A00 0 0x03 ≤ s.clock) :
    ∃ t, exec .traceSync s = .next t ∧ t.trace.syncAt = s.clock ∧ t.outs = [] ∧
      (s.traceType 0 = true → (⟨s.clock, s.now, 0, true, []⟩ : TraceEv) ∈ t.trace.wait) := by
  change ∃ t, execTraceSync s = .next t ∧ _
  unfold execTraceSync
  refine run_traced hc _ (if_pos (by simp [hon, h2, hdue])) fun t ht htrace => ⟨?_, ht.outs (by simp), fun hty => ?_⟩
  · rw [htrace]
    rfl
  · rw [htrace]
    exact Tx.msg_sync ((Tx.start s).setTrace { s.trace with syncAt := s.clock }) hon hty

theorem counterSnapshot_sends (hc : s.clocked = true) (h6 : s.g 0x6A00 0 0x06 ≠ 0) (hon : s.on 0x6A00 0 0x01 = true)
    (hty : s.traceType 444 = true) (hdue : s.trace.snapAt + usC (s.g 0x6A00 0 0x07) ≤ s.clock) :
    ∃ t, exec .counterSnapshot s = .next t ∧ t.trace.snapAt = s.clock ∧
      (⟨s.clock, s.now, 444, true, leBytes 2 (s.g 0x6A00 0 0x05) ++ leBytes 2 (s.g 0x6A00 0 0x06) ++
        ((range' (s.g 0x6A00 0 0x05) (s.g 0x6A00 0 0x06)).map (fun i => leBytes 8 (s.counterVal i))).foldl (· ++ ·) []⟩ :
        TraceEv) ∈ t.trace.wait := by
  change ∃ t, execCounterSnapshot s = .next t ∧ _
  unfold execCounterSnapshot
  have hnot : ¬ (s.g 0x6A00 0 0x06 == 0 || !s.on 0x6A00 0 0x01 || !s.traceType 444 ||
      decide (s.clock < s.trace.snapAt + usC (s.g 0x6A00 0 0x07))) = true := by
    simp [h6, hon, hty, Nat.not_lt.mpr hdue]
  refine run_traced hc _ (if_neg hnot) fun t _ htrace => ?_
  rw [htrace]
  refine ⟨rfl, ?_⟩
  have hall : s.traceOn 444 = true := by
    unfold State.traceOn
    rw [hon, hty]
    rfl
  exact Tx.msg_waits ((Tx.start s).setTrace { s.trace with snapAt := s.clock }) _ hall

/-- Settles O42. -/
theorem observationComplete : Obligations.ObservationComplete := by
  unfold Obligations.ObservationComplete
  exact fun s hc => ⟨fun _ _ hk => counterLatch_latches hc hk, fun _ _ hk hd hoff => traceEnable_enables hc hk hd hoff,
    fun _ _ hk hd hon => traceDisable_disables hc hk hd hon, fun hon h2 hdue => traceSync_sends hc hon h2 hdue,
    fun h6 hon hty hdue => counterSnapshot_sends hc h6 hon hty hdue⟩

end Sys2Proof.Machine
end

section
/-! PROOFS. The Hedge and the states of its channels (R281 to R284). -/

namespace Sys2Proof.Machine
open Sys2Proof

set_option Elab.async false

variable {s0 s a b : State} {n c h : ℕ} {d : Bytes}

/-! ## What a channel modulates -/

theorem State.mod_congr (h : b.hedge = a.hedge) (n : ℕ) : b.mod n = a.mod n := congrArg (fun x : Hedge => mget HedgeCh.init x.chans n) h

theorem Tx.setMod_mod (t : Tx s0) (c : ℕ) (x : HedgeCh) (n : ℕ) : (t.setMod c x).cur.mod n = if n = c then x else t.cur.mod n :=
  mget_mputD ..

theorem Tx.setMod_same (t : Tx s0) (c : ℕ) (x : HedgeCh) : (t.setMod c x).cur.mod c = x := (t.setMod_mod ..).trans (if_pos rfl)

theorem Tx.setMod_other (t : Tx s0) (x : HedgeCh) (h : n ≠ c) : (t.setMod c x).cur.mod n = t.cur.mod n := (t.setMod_mod ..).trans (if_neg h)

/-- A channel that has modulated: its next half-period and the error terms of its shapers are others. -/
def HedgeCh.Ran (x y : HedgeCh) : Prop := ∃ h ea eb, y = { x with half := h, errA := ea, errB := eb }

theorem HedgeCh.Ran.refl (x : HedgeCh) : x.Ran x := ⟨_, _, _, rfl⟩

theorem HedgeCh.Ran.trans {x y z : HedgeCh} (h : x.Ran y) (g : y.Ran z) : x.Ran z := by
  obtain ⟨_, _, _, rfl⟩ := h
  obtain ⟨_, _, _, rfl⟩ := g
  exact ⟨_, _, _, rfl⟩

theorem HedgeCh.halfPeriod_ran (x : HedgeCh) (f k : ℕ) (m : ℤ) : x.Ran (x.halfPeriod f k m).1 := ⟨_, _, _, rfl⟩

/-- The Hedge without its channels. -/
def State.carriage (s : State) : Hedge := { s.hedge with chans := [] }

theorem State.carriage_lowAt (s : State) : s.carriage.lowAt = s.hedge.lowAt := rfl

/-- Channel c has modulated, and no other one is concerned. -/
structure Modulates (c : ℕ) (a b : State) : Prop where
  own : (a.mod c).Ran (b.mod c)
  others : ∀ n, n ≠ c → b.mod n = a.mod n
  hedge : Still State.carriage a b
  rest : Keeps [] [.outs, .hedge] a b

theorem Modulates.refl (c : ℕ) (a : State) : Modulates c a a := ⟨.refl _, fun _ _ => rfl, rfl, .refl ..⟩

theorem Tx.modFlush_modulates (t : Tx s0) (c stop : ℕ) : Modulates c t.cur (t.modFlush c stop).cur := by
  refine ⟨?_, ?_, ?_, t.modFlush_keeps c stop⟩
  all_goals unfold Tx.modFlush
  · dsimp only
    split
    · exact .refl _
    · show HedgeCh.Ran _ ((t.setMod c _).cur.mod c)
      rw [Tx.setMod_same]
      refine List.foldlRecOn (motive := fun acc : HedgeCh × List (ℕ × ℤ × ℤ) => (t.cur.mod c).Ran acc.1) _ _ (.refl _) ?_
      intro acc hacc k _
      exact hacc.trans (acc.1.halfPeriod_ran ..)
  · intro n hn
    dsimp only
    split
    · rfl
    · exact t.setMod_other _ hn
  · exact .ite (.refl ..) rfl

theorem Tx.modNow_modulates (t : Tx s0) (c : ℕ) : Modulates c t.cur (t.modNow c).cur := t.modFlush_modulates c _

theorem Modulates.modState (h : Modulates c a b) (n : ℕ) : b.modState n = a.modState n := h.rest.gOf rfl

theorem Modulates.runs (h : Modulates c a b) (n : ℕ) : b.modRuns n = a.modRuns n := by
  have hquiet : (b.mod n).quiet = (a.mod n).quiet := by
    by_cases hn : n = c
    · subst hn
      obtain ⟨_, _, _, hy⟩ := h.own
      rw [hy]
    · rw [h.others n hn]
  unfold State.modRuns State.modLive
  rw [h.modState, hquiet]

theorem Modulates.clock (h : Modulates c a b) : b.clock = a.clock := (h.rest.clock (by simp)).2

/-! ## A ramp down -/

theorem Tx.modDown_others (t : Tx s0) (why : ℕ) (h : n ≠ c) : (t.modDown c why).cur.mod n = t.cur.mod n := by
  have hrun := (t.modNow_modulates c).others n h
  unfold Tx.modDown
  dsimp only
  split
  · split
    · exact (Tx.setMod_other _ _ h).trans hrun
    · exact (Tx.setMod_other _ _ h).trans hrun
  · exact (Tx.setMod_other _ _ h).trans hrun

theorem Tx.modDown_carriage (t : Tx s0) (c why : ℕ) : Still State.carriage t.cur (t.modDown c why).cur := by
  have hrun := (t.modNow_modulates c).hedge
  unfold Tx.modDown
  dsimp only
  split
  · exact .ite (.step rfl hrun) (.step rfl hrun)
  · exact .step rfl hrun

/-- A running channel without a ramp ramps down from its fold-back gain. -/
theorem Tx.modDown_ramps (t : Tx s0) (c why : ℕ) (hr : (t.cur.mod c).ramp = none) :
    ∃ y, (t.cur.mod c).Ran y ∧ (t.modDown c why).cur.mod c =
      { y with ramp := some ⟨false, 2 * t.cur.clock, X.toF (X.ofF (t.cur.mod c).fold), why⟩ } := by
  have hrun := t.modNow_modulates c
  obtain ⟨h, ea, eb, hy⟩ := hrun.own
  refine ⟨_, hrun.own, ?_⟩
  unfold Tx.modDown
  have hnone : ((t.modNow c).cur.mod c).ramp = none := by rw [hy, ← hr]
  have hgain : ∀ k, ((t.modNow c).cur.mod c).gainDb k = X.ofF (t.cur.mod c).fold := fun k => by
    unfold HedgeCh.gainDb
    rw [hnone, hy]
  dsimp only
  rw [hnone]
  dsimp only
  rw [Tx.setMod_same, hgain, hrun.clock]

/-! ## The Hedge is enabled and disabled -/

theorem hedgeRule_enables (t : Tx s0) (hd : leNat d = 1) (hoff : t.cur.on 0x5A00 0 0x01 = false) (h6 : t.cur.on 0x5A00 0 0x06 = false)
    (hp : t.cur.power.hedgeOff = false) :
    hedgeRule d t = (((t.w 0x5A00 0 0x01 1).w 0x5A00 0 0x06 1).setHedge { t.cur.hedge with
      enAt := t.cur.clock, burst := ceilDiv ((2 * t.cur.clock - t.cur.hedge.epoch) * t.cur.g 0x5A00 0 0x04) 1000000000 }).emit (.pin "MOD_EN" 1) := by
  have hwas : t.on 0x5A00 0 0x01 = false := hoff
  unfold hedgeRule
  rw [hd, hwas, beq_self_eq_true]
  dsimp only
  rw [if_neg (by decide), if_pos rfl]
  unfold Tx.modEnable
  have h1 : (t.w 0x5A00 0 0x01 1).cur.g 0x5A00 0 0x01 = 1 := Tx.w_g_of _ (entryAt_ent (by decide : 0 < 1) rfl) rfl
  have h6' : (t.w 0x5A00 0 0x01 1).cur.g 0x5A00 0 0x06 = t.cur.g 0x5A00 0 0x06 := Tx.w_skip _ (by decide)
  have h4 : (t.w 0x5A00 0 0x01 1).cur.g 0x5A00 0 0x04 = t.cur.g 0x5A00 0 0x04 := Tx.w_skip _ (by decide)
  have hup : (t.w 0x5A00 0 0x01 1).cur.hedgeOn = true := by
    unfold State.hedgeOn State.on
    rw [h1, show (t.w 0x5A00 0 0x01 1).cur.power = t.cur.power from (Tx.w_shown _).power (by simp), hp]
    rfl
  have hlow : (t.w 0x5A00 0 0x01 1).on 0x5A00 0 0x06 = false := by
    show ((t.w 0x5A00 0 0x01 1).cur.g 0x5A00 0 0x06 == 1) = false
    rw [h6']
    exact h6
  rw [hup, hlow, if_neg (by decide)]
  dsimp only
  rw [h4]
  rfl

theorem hedgeEnable_enables (hc : s.clocked = true) (hk : s.writeCheck h (opOf 0x5A00 0 0x01 d) = stOK) (hd : leNat d = 1)
    (hoff : s.on 0x5A00 0 0x01 = false) (h6 : s.on 0x5A00 0 0x06 = false) (hp : s.power.hedgeOff = false) :
    ∃ t, exec (.hedgeEnable h d) s = .next t ∧ t.result = ⟨some stOK, []⟩ ∧ t.g 0x5A00 0 0x01 = 1 ∧
      t.g 0x5A00 0 0x06 = 1 ∧ t.outs = [.pin "MOD_EN" 1] ∧
      t.hedge = { s.hedge with
        enAt := s.clock, burst := ceilDiv ((2 * s.clock - s.hedge.epoch) * s.g 0x5A00 0 0x04) 1000000000 } := by
  change ∃ t, execHedgeEnable h d s = .next t ∧ _
  unfold execHedgeEnable
  have hon : ∀ c, ((Tx.start s).status stOK).cur.on 0x5A00 0 c = s.on 0x5A00 0 c := fun c => by
    unfold State.on
    rw [begun_g]
  have hrule := hedgeRule_enables ((Tx.start s).status stOK) hd ((hon _).trans hoff) ((hon _).trans h6) hp
  refine run_to hc _ ((guarded_start hk _).trans hrule) fun t ht => ?_
  rw [begun_g] at ht
  have hclock : ((Tx.start s).status stOK).cur.clock = s.clock := rfl
  have hhedge : ((Tx.start s).status stOK).cur.hedge = s.hedge := rfl
  have houts : ((Tx.start s).status stOK).cur.outs = [] := rfl
  have hres : ((Tx.start s).status stOK).cur.result = ⟨some stOK, []⟩ := rfl
  rw [hclock, hhedge] at ht
  generalize (Tx.start s).status stOK = u at ht houts hres
  have h1 : (u.w 0x5A00 0 0x01 1).cur.g 0x5A00 0 0x01 = 1 := Tx.w_g_of _ (entryAt_ent (by decide : 0 < 1) rfl) rfl
  have h6 : ((u.w 0x5A00 0 0x01 1).w 0x5A00 0 0x06 1).cur.g 0x5A00 0 0x06 = 1 := Tx.w_g_of _ (entryAt_ent (by decide : 0 < 1) rfl) rfl
  rw [← Tx.w_skip (u.w 0x5A00 0 0x01 1) (i := 0x5A00) (n := 0) (c := 0x06) (v := 1) (by decide)] at h1
  have hshown : Shown u.cur ((u.w 0x5A00 0 0x01 1).w 0x5A00 0 0x06 1).cur := (Tx.w_shown _).trans (Tx.w_shown _)
  rw [← hshown.outs (by simp)] at houts
  rw [← hshown.result (by simp)] at hres
  generalize (u.w 0x5A00 0 0x01 1).w 0x5A00 0 0x06 1 = v at ht h1 h6 houts hres
  refine ⟨(ht.result (by simp)).trans hres, ht.seenG.trans h1, ht.seenG.trans h6, ?_, ht.hedge (by simp)⟩
  rw [ht.outs (by simp)]
  show v.cur.outs ++ _ = _
  rw [houts]
  rfl

/-- What a channel that ramps down holds. -/
def HedgeCh.Downs (x y : HedgeCh) (at_ why : ℕ) : Prop :=
  y = { x with ramp := some ⟨false, 2 * at_, X.toF (X.ofF x.fold), why⟩, half := y.half, errA := y.errA, errB := y.errB }

theorem Tx.modDown_downs (t : Tx s0) (c why : ℕ) (hr : (t.cur.mod c).ramp = none) :
    (t.cur.mod c).Downs ((t.modDown c why).cur.mod c) t.cur.clock why := by
  obtain ⟨y, ⟨h, ea, eb, hy⟩, hdown⟩ := t.modDown_ramps c why hr
  unfold HedgeCh.Downs
  rw [hdown, hy]

theorem Tx.modsDown_downs (t : Tx s0) (hn : n < 24) (hruns : t.cur.modRuns n = true) (hr : (t.cur.mod n).ramp = none) :
    (t.cur.mod n).Downs (t.modsDown.cur.mod n) t.cur.clock 2 := by
  unfold Tx.modsDown
  dsimp only
  generalize hv : t.setHedge { t.cur.hedge with lowAt := t.cur.clock } = v
  have hmod : v.cur.mod n = t.cur.mod n := by rw [← hv]; rfl
  have hruns : v.cur.modRuns n = true := by rw [← hv]; exact hruns
  have hclock : v.cur.clock = t.cur.clock := by rw [← hv]; rfl
  rw [← hmod] at hr ⊢
  rw [← hclock]
  have hkeep : ∀ (u : Tx s0) y, y ≠ n → (if u.cur.modRuns y then u.modDown y 2 else u).cur.mod n = u.cur.mod n := fun u y hy => by
    split
    · exact u.modDown_others 2 (Ne.symm hy)
    · rfl
  have hstill : ∀ (u : Tx s0) y, Keeps [] [.outs, .hedge] u.cur (if u.cur.modRuns y then u.modDown y 2 else u).cur := fun u y =>
    .ite (Tx.modDown_keeps ..) (.refl ..)
  refine Tx.each_once (P := fun u => u.mod n = v.cur.mod n ∧ u.modState n = v.cur.modState n ∧ u.clock = v.cur.clock)
    (Q := fun u => (v.cur.mod n).Downs (u.mod n) v.cur.clock 2) (m := n) allMods (List.nodup_range) (List.mem_range.mpr hn) ⟨rfl, rfl, rfl⟩ ?_ ?_ ?_
  · intro u y _ hy ⟨hm, hst, hcl⟩
    exact ⟨(hkeep u y hy).trans hm, ((hstill u y).gOf rfl).trans hst, ((hstill u y).clock (by simp)).2.trans hcl⟩
  · intro u ⟨hm, hst, hcl⟩
    have hrun : u.cur.modRuns n = true := by
      unfold State.modRuns State.modLive at hruns ⊢
      rwa [hm, hst]
    rw [if_pos hrun, ← hm, ← hcl]
    exact u.modDown_downs n 2 (by rw [hm, hr])
  · intro u y _ hy hQ
    rwa [hkeep u y hy]

theorem Tx.modsDown_lowAt (t : Tx s0) : t.modsDown.cur.hedge.lowAt = t.cur.clock := by
  have hstill : t.modsDown.cur.carriage = (t.setHedge { t.cur.hedge with lowAt := t.cur.clock }).cur.carriage := by
    unfold Tx.modsDown
    exact Still.each (fun u y => .ite (u.modDown_carriage y 2) (.refl ..)) (.refl ..)
  rw [← State.carriage_lowAt, hstill]
  rfl

theorem hedgeDisable_disables (hc : s.clocked = true) (hk : s.writeCheck h (opOf 0x5A00 0 0x01 d) = stOK) (hd : leNat d = 0)
    (hon : s.on 0x5A00 0 0x01 = true) :
    ∃ t, exec (.hedgeDisable h d) s = .next t ∧ t.result = ⟨some stOK, []⟩ ∧ t.g 0x5A00 0 0x01 = 0 ∧
      t.hedge.lowAt = s.clock ∧
      ∀ n < 24, s.modRuns n = true → (s.mod n).ramp = none →
        t.mod n = { s.mod n with ramp := some ⟨false, 2 * s.clock, X.toF (X.ofF (s.mod n).fold), 2⟩,
                                 half := (t.mod n).half, errA := (t.mod n).errA, errB := (t.mod n).errB } ∧
        t.modState n = s.modState n := by
  change ∃ t, execHedgeDisable h d s = .next t ∧ _
  unfold execHedgeDisable
  refine run_to hc _ (guarded_start hk _) fun t ht => ?_
  have hwas : ((Tx.start s).status stOK).on 0x5A00 0 0x01 = true := by
    show (((Tx.start s).status stOK).cur.g 0x5A00 0 0x01 == 1) = true
    rw [begun_g]
    exact hon
  unfold hedgeRule at ht
  rw [hd, hwas] at ht
  dsimp only at ht
  rw [if_neg (by decide), if_neg (by decide)] at ht
  have h1 : (((Tx.start s).status stOK).w 0x5A00 0 0x01 0).cur.g 0x5A00 0 0x01 = 0 := Tx.w_g_of _ (entryAt_ent (by decide : 0 < 1) rfl) rfl
  have hshown : Shown ((Tx.start s).status stOK).cur (((Tx.start s).status stOK).w 0x5A00 0 0x01 0).cur := Tx.w_shown _
  have hmod : ∀ n, (((Tx.start s).status stOK).w 0x5A00 0 0x01 0).cur.mod n = s.mod n := State.mod_congr (hshown.hedge (by simp))
  have hst : ∀ n, (((Tx.start s).status stOK).w 0x5A00 0 0x01 0).cur.modState n = s.modState n := fun n =>
    (Tx.w_skip _ (.inl (by decide))).trans (begun_g ..)
  have hclock : (((Tx.start s).status stOK).w 0x5A00 0 0x01 0).cur.clock = s.clock := (hshown.clock (by simp)).2
  have hres : (((Tx.start s).status stOK).w 0x5A00 0 0x01 0).cur.result = ⟨some stOK, []⟩ := hshown.result (by simp)
  generalize ((Tx.start s).status stOK).w 0x5A00 0 0x01 0 = u at ht h1 hmod hst hclock hres
  have hkeep := u.modsDown_keeps
  refine ⟨(ht.result (by simp)).trans ((hkeep.result (by simp)).trans hres), ?_, ?_, fun n hn hruns hr => ⟨?_, ?_⟩⟩
  · rw [ht.seenG, hkeep.gOf rfl, h1]
  · rw [ht.hedge (by simp), u.modsDown_lowAt, hclock]
  · have hdown := u.modsDown_downs hn (by unfold State.modRuns State.modLive at hruns ⊢; rwa [hmod, hst]) (by rwa [hmod])
    rw [hmod, hclock] at hdown
    rw [State.mod_congr (ht.hedge (by simp))]
    exact hdown
  · exact (ht.seenG (by simp [apart])).trans ((hkeep.gOf rfl).trans (hst n))

/-! ## The end of a ramp -/

/-- A channel whose pins go low at a boundary. -/
theorem Tx.modLow_leaves (t : Tx s0) (c j h : ℕ) : (t.cur.mod c).Ran ((t.modLow c j h).cur.mod c) ∧
    (∀ n, n ≠ c → (t.modLow c j h).cur.mod n = t.cur.mod n) ∧ (t.modLow c j h).cur.carriage = { t.cur.carriage with lowAt := ceilDiv h 2 } ∧
    (t.modLow c j h).cur.outs = (t.modFlush c (2 * j)).cur.outs ++ [.modLow [c]] := by
  have hrun := t.modFlush_modulates c (2 * j)
  unfold Tx.modLow
  generalize t.modFlush c (2 * j) = u at hrun ⊢
  have hstill : u.cur.carriage = t.cur.carriage := hrun.hedge
  refine ⟨hrun.own, hrun.others, ?_, rfl⟩
  rw [← hstill]
  rfl

theorem downEnded_start (s : State) (n : ℕ) : (Tx.start s).cur.downEnded n = s.downEnded n := rfl

theorem hedgeRampDownEnd_quiets (hc : s.clocked = true) (hruns : s.modRuns n = true) {j a : ℕ} (hend : s.downEnded n = some (2, j, a)) :
    ∃ t, exec (.hedgeRampDownEnd n) s = .next t ∧ t.outs.getLast? = some (.modLow [n]) ∧
      t.mod n = { s.mod n with quiet := true, ramp := none,
                               half := (t.mod n).half, errA := (t.mod n).errA, errB := (t.mod n).errB } ∧
      t.hedge.lowAt = ceilDiv a 2 ∧ Kept (fun _ => False) [.result, .outs, .hedge] s t := by
  change ∃ t, execHedgeRampDownEnd n s = .next t ∧ _
  unfold execHedgeRampDownEnd
  obtain ⟨⟨_, _, _, hown⟩, -, hcar, houts⟩ := (Tx.start s).modLow_leaves n j a
  have hkeep : Kept (fun _ => False) [.result, .outs, .hedge] (Tx.start s).cur ((Tx.start s).modLow n j a).cur :=
    ((Tx.start s).modLow_keeps n j a).mono (fun k hk => by simp [Keys] at hk) (by simp)
  refine run_to hc (((Tx.start s).modLow n j a).setMod n { ((Tx.start s).modLow n j a).cur.mod n with quiet := true, ramp := none })
    (by rw [hend, hruns]; rfl) fun t ht => ?_
  generalize (Tx.start s).modLow n j a = u at ht hown hcar houts hkeep
  have hmod : t.mod n = { u.cur.mod n with quiet := true, ramp := none } :=
    (State.mod_congr (ht.hedge (by simp)) n).trans (u.setMod_same ..)
  refine ⟨?_, ?_, ?_, .of_run (by simp) (by simp) (.setHedge hkeep) ht⟩
  · have hout : t.outs = u.cur.outs := ht.outs (by simp)
    rw [hout, houts, List.getLast?_concat]
  · rw [hmod, hown]
    rfl
  · rw [ht.hedge (by simp)]
    show u.cur.carriage.lowAt = _
    rw [hcar]

theorem Tx.emit_hedge (t : Tx s0) (o : Out) : (t.emit o).cur.hedge = t.cur.hedge := rfl

theorem Tx.emit_outs (t : Tx s0) (o : Out) : (t.emit o).cur.outs = t.cur.outs ++ [o] := rfl

/-- Half-periods of the bursts of MSENSE_CLK that begin before h half ns. -/
def State.burstStop (s : State) (h : ℕ) : ℕ := ceilDiv ((h - s.hedge.epoch) * s.g 0x5A00 0 0x04) 1000000000

theorem Tx.burstsTo_eq (t : Tx s0) (h : ℕ) (hon : t.cur.on 0x5A00 0 0x06 = true) : t.burstsTo h = if t.cur.burstStop h ≤ t.cur.hedge.burst then t
    else (t.setHedge { t.cur.hedge with burst := t.cur.burstStop h }).emit
      (.bursts t.cur.hedge.epoch (t.cur.g 0x5A00 0 0x04) t.cur.hedge.burst (t.cur.burstStop h - t.cur.hedge.burst)) := by
  unfold Tx.burstsTo
  dsimp only
  rw [hon, Bool.not_true, Bool.false_or]
  unfold State.burstStop
  simp only [decide_eq_true_eq]

theorem Tx.burstsTo_burst (t : Tx s0) (h : ℕ) (hon : t.cur.on 0x5A00 0 0x06 = true) :
    (t.burstsTo h).cur.hedge = { t.cur.hedge with burst := max t.cur.hedge.burst (t.cur.burstStop h) } ∧
      ∃ l, (t.burstsTo h).cur.outs = t.cur.outs ++ l ∧ ∀ o ∈ l, ∃ e f i c, o = .bursts e f i c := by
  rw [t.burstsTo_eq h hon]
  generalize t.cur.burstStop h = stop
  by_cases hs : stop ≤ t.cur.hedge.burst
  · rw [if_pos hs, Nat.max_eq_left hs]
    exact ⟨rfl, [], (List.append_nil _).symm, fun _ ho => nomatch ho⟩
  · rw [if_neg hs, Nat.max_eq_right (by omega), Tx.emit_hedge, Tx.emit_outs, Tx.setHedge_outs]
    exact ⟨Tx.setHedge_hedge .., [_], rfl, fun o ho => ⟨_, _, _, _, List.mem_singleton.mp ho⟩⟩

theorem modEnFall_lowers (hc : s.clocked = true) (hoff : s.hedgeOn = false) (hon : s.on 0x5A00 0 0x06 = true)
    (hruns : ∀ n < 24, s.modRuns n = false) (hdue : s.hedge.lowAt + msC 1 ≤ s.clock) :
    ∃ t l, exec .modEnFall s = .next t ∧ t.g 0x5A00 0 0x06 = 0 ∧
      t.outs = l ++ [.pin "MOD_EN" 0, .pin "MSENSE_CLK" 0] ∧ (∀ o ∈ l, ∃ e f i c, o = .bursts e f i c) ∧
      t.hedge = { s.hedge with burst := t.hedge.burst } ∧ t.hedge.burst = max s.hedge.burst
        (ceilDiv ((2 * (s.hedge.lowAt + msC 1) - s.hedge.epoch) * s.g 0x5A00 0 0x04) 1000000000) ∧
      Kept (· = K 0x5A00 0 0x06) [.result, .outs, .hedge] s t := by
  have hnone : allMods.any s.modRuns = false := by
    rw [List.any_eq_false]
    intro x hx
    rw [hruns x (List.mem_range.mp hx)]
    decide
  have hidle : ¬ (s.hedgeOn || !s.on 0x5A00 0 0x06 || allMods.any s.modRuns || decide (s.clock < s.hedge.lowAt + msC 1)) = true := by
    rw [hoff, hon, hnone]
    simpa using hdue
  obtain ⟨hhedge, l, houts, hl⟩ := (Tx.start s).burstsTo_burst (2 * (s.hedge.lowAt + msC 1)) hon
  have hkeep : Kept (· = K 0x5A00 0 0x06) [.result, .outs, .hedge] (Tx.start s).cur ((Tx.start s).burstsTo (2 * (s.hedge.lowAt + msC 1))).cur :=
    ((Tx.start s).burstsTo_keeps _).mono (fun k hk => by simp [Keys] at hk) (by simp)
  have hrun : ∃ t, execModEnFall s = .next t ∧ Kept (fun _ => False) []
      (((((Tx.start s).burstsTo (2 * (s.hedge.lowAt + msC 1))).w 0x5A00 0 0x06 0).emit (.pin "MOD_EN" 0)).emit (.pin "MSENSE_CLK" 0)).cur t :=
    run_to hc _ (if_neg hidle) fun t ht => ht
  obtain ⟨t, hnext, ht⟩ := hrun
  generalize (Tx.start s).burstsTo (2 * (s.hedge.lowAt + msC 1)) = u at ht hhedge houts hkeep
  have h6 : (u.w 0x5A00 0 0x06 0).cur.g 0x5A00 0 0x06 = 0 := Tx.w_g_of _ (entryAt_ent (by decide : 0 < 1) rfl) rfl
  have hh : t.hedge = u.cur.hedge := (ht.hedge (by simp)).trans ((u.w_shown (i := 0x5A00) (n := 0) (c := 0x06) (v := 0)).hedge (by simp))
  refine ⟨t, l, hnext, ht.seenG.trans h6, ?_, hl, ?_, ?_, .of_run (by simp) (by simp) (.emit (.emit (.wKey hkeep rfl))) ht⟩
  · rw [ht.outs (by simp)]
    show (u.w 0x5A00 0 0x06 0).cur.outs ++ _ ++ _ = _
    have hout : (u.w 0x5A00 0 0x06 0).cur.outs = u.cur.outs := (Tx.w_shown _).outs (by simp)
    have hstart : (Tx.start s).cur.outs = [] := rfl
    rw [hout, houts, hstart, List.nil_append, List.append_assoc]
    rfl
  · rw [hh, hhedge]
    rfl
  · rw [hh, hhedge]
    rfl

/-! ## The state of a channel -/

theorem Tx.modTo_state (t : Tx s0) {st : ℕ} (hc : c < 24) (hst : st < 256) : (t.modTo c st).cur.modState c = st := by
  unfold Tx.modTo
  split
  case isTrue h => exact beq_iff_eq.mp h
  case isFalse h =>
    have hw : (t.w 0x5800 c 0x02 st).cur.modState c = st := Tx.w_g_of _ (entryAt_ent hc rfl) (fit_of_lt (by decide) hst)
    exact ((Tx.modMsg_keeps _ c 0 0).gOf rfl).trans hw

theorem Tx.modTo_other (t : Tx s0) (st : ℕ) (hc : c < 24) (hn : n < 24) (h : n ≠ c) : (t.modTo c st).cur.modState n = t.cur.modState n := by
  unfold Tx.modTo
  split
  · rfl
  · have hw : (t.w 0x5800 c 0x02 st).cur.modState n = t.cur.modState n := Tx.w_g_other _ (by omega) (by omega) h
    exact ((Tx.modMsg_keeps _ c 0 0).gOf rfl).trans hw

theorem Tx.modTo_mod (t : Tx s0) (c st n : ℕ) : (t.modTo c st).cur.mod n = t.cur.mod n := State.mod_congr ((t.modTo_keeps c st).hedge (by simp)) n

theorem Tx.modTo_enabled (t : Tx s0) (st : ℕ) : (t.modTo c st).cur.g 0x5800 n 0x01 = t.cur.g 0x5800 n 0x01 := (t.modTo_keeps c st).gOf rfl

theorem Tx.modTo_result (t : Tx s0) (st : ℕ) : (t.modTo c st).cur.result = t.cur.result := (t.modTo_keeps c st).result (by simp)

theorem channelEnable_enables (hc : s.clocked = true) (hn : n < 24) (hk : s.writeCheck h (opOf 0x5800 n 0x01 d) = stOK) (hd : leNat d = 1) :
    ∃ t, exec (.channelEnable h n d) s = .next t ∧ t.result = ⟨some stOK, []⟩ ∧ t.g 0x5800 n 0x01 = 1 ∧
      t.modState n = (if s.modState n = 0 then 1 else s.modState n) := by
  change ∃ t, execChannelEnable h n d s = .next t ∧ _
  unfold execChannelEnable
  refine run_to hc _ (guarded_start hk _) fun t ht => ?_
  unfold channelRule at ht
  rw [hd, beq_self_eq_true, if_pos rfl] at ht
  have h1 : (((Tx.start s).status stOK).w 0x5800 n 0x01 1).cur.g 0x5800 n 0x01 = 1 := Tx.w_g_of _ (entryAt_ent hn rfl) rfl
  have hst : (((Tx.start s).status stOK).w 0x5800 n 0x01 1).cur.modState n = s.modState n := (Tx.w_skip _ (.inr (by decide))).trans (begun_g ..)
  have hres : (((Tx.start s).status stOK).w 0x5800 n 0x01 1).cur.result = ⟨some stOK, []⟩ := (Tx.w_shown _).result (by simp)
  generalize ((Tx.start s).status stOK).w 0x5800 n 0x01 1 = u at ht h1 hst hres
  rw [hst] at ht
  by_cases h0 : s.modState n = 0
  · rw [if_pos (by simpa using h0)] at ht
    rw [if_pos h0]
    exact ⟨(ht.result (by simp)).trans ((u.modTo_result _).trans hres), (ht.seenG (by simp [apart])).trans ((u.modTo_enabled _).trans h1),
      (ht.seenG (by simp [apart])).trans (u.modTo_state hn (by decide))⟩
  · rw [if_neg (by simpa using h0)] at ht
    rw [if_neg h0]
    exact ⟨(ht.result (by simp)).trans hres, (ht.seenG (by simp [apart])).trans h1, (ht.seenG (by simp [apart])).trans hst⟩

/-- What a disabled channel does: held, it goes OFF; with its pins low, too; running, it ramps down. -/
theorem channelRule_disables (t : Tx s0) (hd : leNat d = 0) {u : Tx s0} (hu : u = t.w 0x5800 n 0x01 0) :
    (u.cur.modState n = 1 → channelRule n d t = u.modTo n 0) ∧
    (u.cur.modLive n = true → (u.cur.mod n).quiet = true → channelRule n d t = (u.setMod n { u.cur.mod n with quiet := false }).modTo n 0) ∧
    (u.cur.modRuns n = true → channelRule n d t = u.modDown n 1) := by
  unfold channelRule
  rw [hd, if_neg (by decide), ← hu]
  dsimp only
  refine ⟨fun h1 => ?_, fun hlive hq => ?_, fun hruns => ?_⟩
  · rw [h1]
    rfl
  · have hne : ¬ (u.cur.modState n == 1) = true := fun h => by
      unfold State.modLive at hlive
      rw [beq_iff_eq.mp h] at hlive
      exact absurd hlive (by decide)
    rw [if_neg hne, if_pos (show (u.cur.modState n == 2 || u.cur.modState n == 3) = true from hlive), if_pos hq]
  · obtain ⟨hlive, hq⟩ : u.cur.modLive n = true ∧ (u.cur.mod n).quiet = false := by simpa [State.modRuns] using hruns
    have hne : ¬ (u.cur.modState n == 1) = true := fun h => by
      unfold State.modLive at hlive
      rw [beq_iff_eq.mp h] at hlive
      exact absurd hlive (by decide)
    rw [if_neg hne, if_pos (show (u.cur.modState n == 2 || u.cur.modState n == 3) = true from hlive), if_neg (by simp [hq])]

theorem channelDisable_disables (hc : s.clocked = true) (hn : n < 24) (hk : s.writeCheck h (opOf 0x5800 n 0x01 d) = stOK) (hd : leNat d = 0) :
    ∃ t, exec (.channelDisable h n d) s = .next t ∧ t.result = ⟨some stOK, []⟩ ∧ t.g 0x5800 n 0x01 = 0 ∧
      (s.modState n = 1 → t.modState n = 0) ∧
      (s.modLive n = true → (s.mod n).quiet = true → t.modState n = 0 ∧ (t.mod n).quiet = false) ∧
      (s.modRuns n = true → (s.mod n).ramp = none → t.modState n = s.modState n ∧
        t.mod n = { s.mod n with ramp := some ⟨false, 2 * s.clock, X.toF (X.ofF (s.mod n).fold), 1⟩,
                                 half := (t.mod n).half, errA := (t.mod n).errA, errB := (t.mod n).errB }) := by
  change ∃ t, execChannelDisable h n d s = .next t ∧ _
  unfold execChannelDisable
  refine run_to hc _ (guarded_start hk _) fun t ht => ?_
  obtain ⟨hheld, hquiet, hdown⟩ := channelRule_disables ((Tx.start s).status stOK) hd rfl
  have h1 : (((Tx.start s).status stOK).w 0x5800 n 0x01 0).cur.g 0x5800 n 0x01 = 0 := Tx.w_g_of _ (entryAt_ent hn rfl) rfl
  have hst : (((Tx.start s).status stOK).w 0x5800 n 0x01 0).cur.modState n = s.modState n := (Tx.w_skip _ (.inr (by decide))).trans (begun_g ..)
  have hshown : Shown ((Tx.start s).status stOK).cur (((Tx.start s).status stOK).w 0x5800 n 0x01 0).cur := Tx.w_shown _
  have hres : (((Tx.start s).status stOK).w 0x5800 n 0x01 0).cur.result = ⟨some stOK, []⟩ := hshown.result (by simp)
  have hmod : (((Tx.start s).status stOK).w 0x5800 n 0x01 0).cur.mod n = s.mod n := State.mod_congr (hshown.hedge (by simp)) n
  have hclock : (((Tx.start s).status stOK).w 0x5800 n 0x01 0).cur.clock = s.clock := (hshown.clock (by simp)).2
  have hrule : Keeps [.all 0x5800 [0x02]] [.outs, .hedge] (((Tx.start s).status stOK).w 0x5800 n 0x01 0).cur (channelRule n d ((Tx.start s).status stOK)).cur := by
    unfold channelRule
    rw [hd, if_neg (by decide)]
    exact .ite (.step (Tx.modTo_keeps ..) (.refl ..)) (.ite (.ite (.step (Tx.modTo_keeps ..) (.step (Tx.setMod_keeps ..) (.refl ..)))
      (.step (Tx.modDown_keeps ..) (.refl ..))) (.refl ..))
  generalize ((Tx.start s).status stOK).w 0x5800 n 0x01 0 = u at h1 hst hres hmod hclock hheld hquiet hdown hrule
  have hlive : u.cur.modLive n = s.modLive n := by
    unfold State.modLive
    rw [hst]
  have hruns : u.cur.modRuns n = s.modRuns n := by
    unfold State.modRuns
    rw [hlive, hmod]
  rw [hst] at hheld
  rw [hlive, hmod] at hquiet
  rw [hruns] at hdown
  refine ⟨(ht.result (by simp)).trans ((hrule.result (by simp)).trans hres), ?_, fun h1 => ?_, fun hl hq => ?_, fun hr hnone => ?_⟩
  · rw [ht.seenG (by simp [apart]), hrule.gOf rfl, h1]
  · rw [hheld h1] at ht
    exact (ht.seenG (by simp [apart])).trans (u.modTo_state hn (by decide))
  · rw [hquiet hl hq] at ht
    refine ⟨(ht.seenG (by simp [apart])).trans (Tx.modTo_state _ hn (by decide)), ?_⟩
    rw [State.mod_congr (ht.hedge (by simp)), Tx.modTo_mod, Tx.setMod_same]
  · rw [hdown hr] at ht
    have hd := u.modDown_downs n 1 (by rwa [hmod])
    rw [hmod, hclock] at hd
    refine ⟨(ht.seenG (by simp [apart])).trans (((u.modDown_keeps n 1).gOf rfl).trans hst), ?_⟩
    rw [State.mod_congr (ht.hedge (by simp))]
    exact hd

theorem channelOff_ends (hc : s.clocked = true) (hn : n < 24) (hruns : s.modRuns n = true) {j a : ℕ} (hend : s.downEnded n = some (1, j, a)) :
    ∃ t, exec (.channelOff n) s = .next t ∧ t.modState n = (if s.on 0x5800 n 0x01 = true then 1 else 0) ∧
      t.outs.getLast? = some (.modLow [n]) ∧ t.hedge.lowAt = ceilDiv a 2 ∧
      t.mod n = { s.mod n with ramp := none,
                               half := (t.mod n).half, errA := (t.mod n).errA, errB := (t.mod n).errB } := by
  change ∃ t, execChannelOff n s = .next t ∧ _
  unfold execChannelOff
  obtain ⟨⟨_, _, _, hown⟩, -, hcar, houts⟩ := (Tx.start s).modLow_leaves n j a
  obtain ⟨u, hu⟩ : ∃ u, u = ((Tx.start s).modLow n j a).setMod n { ((Tx.start s).modLow n j a).cur.mod n with ramp := none } := ⟨_, rfl⟩
  refine run_to hc (if s.on 0x5800 n 0x01 then (u.modTo n 0).modTo n 1 else u.modTo n 0) (by rw [hu, hend, hruns]; rfl) fun t ht => ?_
  have hmod : u.cur.mod n = { ((Tx.start s).modLow n j a).cur.mod n with ramp := none } := by rw [hu, Tx.setMod_same]
  have hout : u.cur.outs = ((Tx.start s).modLow n j a).cur.outs := by rw [hu]; rfl
  have hlow : u.cur.hedge.lowAt = ((Tx.start s).modLow n j a).cur.carriage.lowAt := by rw [hu]; rfl
  have hto : Keeps [.all 0x5800 [0x02]] [] u.cur (if s.on 0x5800 n 0x01 then (u.modTo n 0).modTo n 1 else u.modTo n 0).cur :=
    .ite (.step (Tx.modTo_keeps ..) (.step (Tx.modTo_keeps ..) (.refl ..))) (.step (Tx.modTo_keeps ..) (.refl ..))
  have hh : t.hedge = u.cur.hedge := (ht.hedge (by simp)).trans (hto.hedge (by simp))
  refine ⟨?_, ?_, ?_, ?_⟩
  · by_cases hon : s.on 0x5800 n 0x01 = true
    · rw [if_pos hon] at ht ⊢
      exact (ht.seenG (by simp [apart])).trans (Tx.modTo_state _ hn (by decide))
    · rw [if_neg hon] at ht ⊢
      exact (ht.seenG (by simp [apart])).trans (Tx.modTo_state _ hn (by decide))
  · rw [ht.outs (by simp), hto.outs (by simp), hout, houts, List.getLast?_concat]
  · rw [hh, hlow, hcar]
  · rw [State.mod_congr hh, hmod, hown]
    rfl

theorem channelStart_starts (hc : s.clocked = true) (hn : n < 24) (hcan : s.canStart n = true) :
    let j := s.periodFrom (2 * s.clock)
    ∃ t, exec (.channelStart n) s = .next t ∧ t.modState n = 2 ∧
      t.mod n = { s.mod n with
        quiet := false, ramp := some ⟨true, s.boundary (j + 1), 0, 0⟩, mmax := s.g 0x5A00 0 0x0D, startJ := j,
        half := 2 * j, errA := [0, 0, 0], errB := [0, 0, 0], overs := 0, vdc := 0, dcRun := 0 } := by
  intro j
  change ∃ t, execChannelStart n s = .next t ∧ _
  unfold execChannelStart
  refine run_to hc _ (if_pos hcan) fun t ht => ⟨?_, ?_⟩
  · exact (ht.seenG (by simp [apart])).trans (Tx.modTo_state _ hn (by decide))
  · rw [State.mod_congr (ht.hedge (by simp))]
    unfold Tx.modStart
    rw [Tx.modTo_mod, Tx.setMod_same]
    rfl

theorem startRampEnd_runs (hc : s.clocked = true) (hn : n < 24) {r : HedgeRamp} (hr : (s.mod n).ramp = some r) (hup : r.up = true)
    (hst : s.modState n = 2) (hdue : r.t0 + 100000000 ≤ 2 * s.clock) :
    ∃ t, exec (.startRampEnd n) s = .next t ∧ t.modState n = 3 ∧
      t.mod n = { s.mod n with ramp := none,
                               half := (t.mod n).half, errA := (t.mod n).errA, errB := (t.mod n).errB } := by
  change ∃ t, execStartRampEnd n s = .next t ∧ _
  unfold execStartRampEnd
  have hgo : (r.up && s.modState n == 2 && decide (r.t0 + 100000000 ≤ 2 * s.clock)) = true := by simp [hup, hst, hdue]
  refine run_to hc ((((Tx.start s).modNow n).setMod n { ((Tx.start s).modNow n).cur.mod n with ramp := none }).modTo n 3)
    (by dsimp only; rw [hr]; exact if_pos hgo) fun t ht => ⟨?_, ?_⟩
  · exact (ht.seenG (by simp [apart])).trans (Tx.modTo_state _ hn (by decide))
  · obtain ⟨_, _, _, hown⟩ := ((Tx.start s).modNow_modulates n).own
    rw [State.mod_congr (ht.hedge (by simp)), Tx.modTo_mod, Tx.setMod_same, hown]
    rfl

/-- Settles O34, clause by clause: what each command does to the channel concerned, whose half-periods go out first. -/
theorem hedgeStatesComplete : Obligations.HedgeStatesComplete := by
  unfold Obligations.HedgeStatesComplete
  exact fun s hc => ⟨fun _ _ hk hd hoff h6 hp => hedgeEnable_enables hc hk hd hoff h6 hp, fun _ _ hk hd hon => hedgeDisable_disables hc hk hd hon,
    fun _ _ _ _ hruns hend => hedgeRampDownEnd_quiets hc hruns hend, fun hoff hon hruns hdue => modEnFall_lowers hc hoff hon hruns hdue,
    fun _ _ _ hn hk hd => channelEnable_enables hc hn hk hd, fun _ _ _ hn hk hd => channelDisable_disables hc hn hk hd,
    fun _ _ _ hn hruns hend => channelOff_ends hc hn hruns hend, fun _ hn hcan => channelStart_starts hc hn hcan,
    fun _ _ hn hr hup hst hdue => startRampEnd_runs hc hn hr hup hst hdue⟩

end Sys2Proof.Machine
end

section
/-! PROOFS. Sense frames and trips of the Hedge's channels (R279, R280, R285 to R289). -/

namespace Sys2Proof.Machine
open Sys2Proof

set_option Elab.async false

variable {s0 s a b : State} {n m c h : ℕ} {d : Bytes}

/-- What a change of one instance leaves of the others. -/
theorem Kept.gBeside {cs : List ℕ} {l1 l : List Span} {M : List Part} {i e : ℕ} (h : KeepsAt c l1 cs l M a b) (hm : m ≠ c) (hm' : m < 65536)
    (hk : apart l i e = true := by decide) (hi : i < 0x6800 := by decide) : b.g i m e = a.g i m e := by
  refine h.entries (K i m e) ?_ (noted_of_apart hk)
  rintro (⟨hinst, -⟩ | ⟨x, -, hx⟩ | hl)
  · rw [kInst_of_K, Nat.mod_eq_of_lt hm'] at hinst
    exact hm hinst
  · have hidx := congrArg kIdx hx
    rw [kIdx_of_K, kIdx_of_K] at hidx
    omega
  · exact Keys.not_of_apart hk hl

/-! ## A trip -/

/-- What a channel holds once it has tripped when the counter read `clock` (R285, R288). -/
def HedgeCh.tripped (x : HedgeCh) (clock : ℕ) : HedgeCh :=
  { x with trips := clock :: x.trips.filter (fun a => clock < a + secC 10), ramp := none, quiet := false, overs := 0 }

/-- The state that a trip leads to: LATCHED at the third within 10 s and at a DC trip (R286, R288). -/
def HedgeCh.tripState (x : HedgeCh) (cause : ℕ) : ℕ := if cause == 5 || decide (3 ≤ x.trips.length) then 5 else 4

theorem HedgeCh.tripState_ge (x : HedgeCh) (cause : ℕ) : 4 ≤ x.tripState cause ∧ x.tripState cause < 256 := by
  unfold HedgeCh.tripState
  split <;> decide

/-- What a trip records once its pins are low: log, counts, cause and flags (R287). -/
def Tx.tripNoted (t : Tx s0) (c cause st : ℕ) : Tx s0 :=
  let s := t.cur
  let x := s.mod c
  let n := min 3 (x.tripped s.clock).trips.length
  let log := s.gb 0x5A00 0 0x07 ++ tripRecord s.now c cause x.last n st
  let t := (t.when (4096 < log.length) (fun t => t.tally 0x5A00 0 0x09)).wb 0x5A00 0 0x07 (log.drop (log.length - 4096))
  let t := (t.tally 0x5800 c 0x12).tally 0x5A00 0 0x08
  let t := ((t.w 0x5800 c 0x14 cause).w 0x5800 c 0x15 s.now).w 0x5800 c 0x13 n
  let t := (t.flagBit 0x5800 c 0x1C (if st == 5 then 7 else 6)).when (st == 5) (fun t => t.flagBit 0x5A00 0 0x0F 2)
  t.when (cause == 3) (fun t => t.flagBit 0x5A00 0 0x0F 3)

theorem Tx.tripNow_eq (t : Tx s0) (c cause : ℕ) :
    t.tripNow c cause =
      let u := t.modCut c
      let x := u.cur.mod c
      let st := (x.tripped u.cur.clock).tripState cause
      (((((u.tripNoted c cause st).setMod c (x.tripped u.cur.clock)).when (u.cur.modRuns c)
        (fun t => t.setHedge { t.cur.hedge with lowAt := u.cur.clock })).w 0x5800 c 0x02 st).freezeOn 1).modMsg c 1 cause := rfl

theorem Tx.tripNoted_keeps (t : Tx s0) (c cause st : ℕ) :
    Keeps [.all 0x5800 [0x12, 0x13, 0x14, 0x15, 0x1C], .all 0x5A00 [0x07, 0x08, 0x09, 0x0F], .ctr 168 191] [] t.cur (t.tripNoted c cause st).cur := by
  dsimp only [Tx.tripNoted]
  exact .when (fun _ => .flagBit (.refl ..)) (.when (fun _ => .flagBit (.refl ..)) (.flagBit (.w (.w (.w (.tally (.tally (.wb (.when
    (fun _ => .tally (.refl ..)) (.refl ..))))))))))

theorem Tx.tripNoted_cause (t : Tx s0) (st : ℕ) {cause : ℕ} (hc : c < 24) (hcause : cause < 256) :
    (t.tripNoted c cause st).cur.g 0x5800 c 0x14 = cause := by
  have hw : ∀ u : Tx s0, (u.w 0x5800 c 0x14 cause).cur.g 0x5800 c 0x14 = cause := fun u =>
    Tx.w_g_of _ (entryAt_ent hc rfl) (fit_of_lt (by decide) hcause)
  dsimp only [Tx.tripNoted]
  unfold Tx.when
  split <;> split <;> simp [hw]

theorem Tx.tripNoted_count (t : Tx s0) (cause st : ℕ) (hc : c < 24) :
    (t.tripNoted c cause st).cur.g 0x5800 c 0x12 = (t.cur.g 0x5800 c 0x12 + 1) % 2 ^ 32 := by
  have hcount : ∀ u : Tx s0, (u.tally 0x5800 c 0x12).cur.g 0x5800 c 0x12 = (u.cur.g 0x5800 c 0x12 + 1) % 2 ^ 32 := fun u =>
    (u.tally_g (i := 0x5800) (c := 0x12) (entryAt_ent hc rfl) (by decide)).trans rfl
  have hlog : ∀ (u : Tx s0) x, (u.wb 0x5A00 0 0x07 x).cur.g 0x5800 c 0x12 = u.cur.g 0x5800 c 0x12 := fun u x => u.wb_g x
  dsimp only [Tx.tripNoted]
  unfold Tx.when
  split <;> split <;> split <;> simp [hcount, hlog, -Tx.wb_g]

/-- What a trip leaves of its channel. -/
structure Trips (c cause : ℕ) (x : HedgeCh) (a b : State) : Prop where
  own : b.mod c = x.tripped a.clock
  state : b.modState c = (x.tripped a.clock).tripState cause
  cause : b.g 0x5800 c 0x14 = cause
  count : b.g 0x5800 c 0x12 = (a.g 0x5800 c 0x12 + 1) % 2 ^ 32
  low : a.modRuns c = true → .modLow [c] ∈ b.outs

theorem Tx.modCut_modulates (t : Tx s0) (c : ℕ) : Modulates c t.cur (t.modCut c).cur := by
  have h := t.modNow_modulates c
  unfold Tx.modCut Tx.when
  split
  · exact ⟨h.own, h.others, h.hedge, .emit h.rest⟩
  · exact h

theorem Tx.modCut_low (t : Tx s0) (hr : t.cur.modRuns c = true) : .modLow [c] ∈ (t.modCut c).cur.outs := by
  unfold Tx.modCut
  rw [hr]
  show _ ∈ ((t.modNow c).emit (.modLow [c])).cur.outs
  rw [Tx.emit_outs]
  exact List.mem_append_right _ (.head _)

theorem Tx.tripNow_trips (t : Tx s0) {cause : ℕ} (hc : c < 24) (hcause : cause < 256) :
    ∃ y, (t.cur.mod c).Ran y ∧ Trips c cause y t.cur (t.tripNow c cause).cur := by
  have hcut := t.modCut_modulates c
  have hlow := t.modCut_low (c := c)
  refine ⟨_, hcut.own, ?_⟩
  rw [t.tripNow_eq]
  rw [← hcut.runs c] at hlow
  have hnow : t.cur.clock = (t.modCut c).cur.clock := hcut.clock.symm
  have h12 : t.cur.g 0x5800 c 0x12 = (t.modCut c).cur.g 0x5800 c 0x12 := (hcut.rest.gOf rfl).symm
  have hruns := hcut.runs c
  generalize t.modCut c = u at hlow hnow h12 hruns
  dsimp only
  generalize hst : ((u.cur.mod c).tripped u.cur.clock).tripState cause = st
  have hst' : st < 256 := hst ▸ (HedgeCh.tripState_ge _ _).2
  have hkeep := u.tripNoted_keeps c cause st
  have hcz := u.tripNoted_cause st hc hcause
  have hct := u.tripNoted_count cause st hc
  generalize u.tripNoted c cause st = v at hkeep hcz hct
  obtain ⟨w, hw⟩ : ∃ w, w = (v.setMod c ((u.cur.mod c).tripped u.cur.clock)).when (u.cur.modRuns c)
    (fun t => t.setHedge { t.cur.hedge with lowAt := u.cur.clock }) := ⟨_, rfl⟩
  have hmod : w.cur.mod c = (u.cur.mod c).tripped u.cur.clock := by
    rw [hw]
    refine Eq.trans ?_ (v.setMod_same c _)
    unfold Tx.when
    split <;> rfl
  have hvw : Keeps [] [.hedge] v.cur w.cur := by
    rw [hw]
    exact .when (fun _ => .setHedge (.refl ..)) (.step (Tx.setMod_keeps ..) (.refl ..))
  rw [← hw]
  have hend : Keeps [] [.meas] (w.w 0x5800 c 0x02 st).cur (((w.w 0x5800 c 0x02 st).freezeOn 1).modMsg c 1 cause).cur :=
    .step (Tx.modMsg_keeps ..) (.step (Tx.freezeOn_keeps ..) (.refl ..))
  have hws : Shown w.cur (w.w 0x5800 c 0x02 st).cur := w.w_shown
  have hg : ∀ e, e % 256 ≠ 0x02 → (((w.w 0x5800 c 0x02 st).freezeOn 1).modMsg c 1 cause).cur.g 0x5800 c e = v.cur.g 0x5800 c e := fun e he =>
    (hend.gOf (by simp [apart])).trans ((Tx.w_skip _ (.inr (Ne.symm he))).trans (hvw.gOf (by simp [apart])))
  refine ⟨?_, ?_, ?_, ?_, fun hr => ?_⟩
  · rw [hnow, State.mod_congr (hend.hedge (by simp)), State.mod_congr (hws.hedge (by simp)), hmod]
  · rw [hnow, hst]
    exact (hend.gOf rfl).trans (Tx.w_g_of _ (entryAt_ent hc rfl) (fit_of_lt (by decide) hst'))
  · rw [hg _ (by decide), hcz]
  · rw [hg _ (by decide), hct, h12]
  · rw [hend.outs (by simp), hws.outs (by simp), hvw.outs (by simp), hkeep.outs (by simp)]
    exact hlow (hruns.trans hr)

/-- Channel m is not concerned. -/
structure Beside (m : ℕ) (a b : State) : Prop where
  own : b.mod m = a.mod m
  entries : ∀ e, b.g 0x5800 m e = a.g 0x5800 m e
  clock : b.clock = a.clock

theorem Beside.refl (m : ℕ) (a : State) : Beside m a a := ⟨rfl, fun _ => rfl, rfl⟩

theorem Beside.trans {d : State} (h : Beside m a b) (g : Beside m b d) : Beside m a d :=
  ⟨g.own.trans h.own, fun e => (g.entries e).trans (h.entries e), g.clock.trans h.clock⟩

theorem Beside.tripping (h : Beside m a b) : b.tripping m = a.tripping m := by
  unfold State.tripping State.modState
  rw [h.own, h.entries, h.clock]

theorem Beside.modLive (h : Beside m a b) : b.modLive m = a.modLive m := by
  unfold State.modLive State.modState
  rw [h.entries]

theorem Beside.modState (h : Beside m a b) : b.modState m = a.modState m := h.entries _

/-- A trip changes its channel and, where its pins go low, the time of that. -/
theorem Tx.tripNow_hedge (t : Tx s0) (c cause : ℕ) : ∃ low, (t.tripNow c cause).cur.hedge =
    { ((t.modCut c).setMod c (((t.modCut c).cur.mod c).tripped (t.modCut c).cur.clock)).cur.hedge with lowAt := low } := by
  rw [t.tripNow_eq]
  generalize t.modCut c = u
  dsimp only
  have hkeep := u.tripNoted_keeps c cause (((u.cur.mod c).tripped u.cur.clock).tripState cause)
  generalize u.tripNoted c cause (((u.cur.mod c).tripped u.cur.clock).tripState cause) = v at hkeep
  rw [(Tx.modMsg_keeps ..).hedge (by simp), (Tx.freezeOn_keeps ..).hedge (by simp), (Tx.w_shown _).hedge (by simp)]
  have hset : ∀ x, (v.setMod c x).cur.hedge = (u.setMod c x).cur.hedge := fun x => by
    unfold Tx.setMod
    rw [Tx.setHedge_hedge, Tx.setHedge_hedge, hkeep.hedge (by simp)]
  unfold Tx.when
  split
  · exact ⟨_, by rw [Tx.setHedge_hedge, hset]⟩
  · exact ⟨_, hset _⟩

theorem Tx.tripNow_mod (t : Tx s0) (c cause : ℕ) (h : m ≠ c) : (t.tripNow c cause).cur.mod m = t.cur.mod m := by
  obtain ⟨low, hlow⟩ := t.tripNow_hedge c cause
  calc (t.tripNow c cause).cur.mod m
    _ = ((t.modCut c).setMod c (((t.modCut c).cur.mod c).tripped (t.modCut c).cur.clock)).cur.mod m :=
      (congrArg (fun x : Hedge => mget HedgeCh.init x.chans m) hlow :)
    _ = t.cur.mod m := (Tx.setMod_other _ _ h).trans ((t.modCut_modulates c).others m h)

theorem Tx.tripNow_carriage (t : Tx s0) (c cause : ℕ) : ∃ low, (t.tripNow c cause).cur.carriage = { t.cur.carriage with lowAt := low } := by
  obtain ⟨low, hlow⟩ := t.tripNow_hedge c cause
  have hcut : (t.modCut c).cur.carriage = t.cur.carriage := (t.modCut_modulates c).hedge
  refine ⟨low, ?_⟩
  rw [← hcut]
  unfold State.carriage
  rw [hlow]
  rfl

theorem Tx.trip_beside (t : Tx s0) (c cause : ℕ) (h : m ≠ c) (hm : m < 65536) (hc : c < 65536) : Beside m t.cur (t.trip c cause).cur := by
  refine ⟨?_, fun e => (t.trip_keepsAt c cause hc).gBeside h hm (by simp [apart, Span.all]), ((t.trip_keeps c cause).clock (by simp)).2⟩
  unfold Tx.trip
  split
  · split
    · rfl
    · exact State.mod_congr ((Tx.recause_keeps ..).hedge (by simp)) m
  · split
    · exact t.tripNow_mod c cause h
    · rfl

/-- A trip changes beside the channels only when pins went low last. -/
theorem Tx.trip_carriage (t : Tx s0) (c cause : ℕ) : ∃ low, (t.trip c cause).cur.carriage = { t.cur.carriage with lowAt := low } := by
  unfold Tx.trip
  split
  · split
    · exact ⟨_, rfl⟩
    · refine ⟨t.cur.hedge.lowAt, ?_⟩
      unfold State.carriage
      rw [(Tx.recause_keeps ..).hedge (by simp)]
  · split
    · exact t.tripNow_carriage c cause
    · exact ⟨_, rfl⟩

theorem Tx.trip_faults (t : Tx s0) (c cause : ℕ) : (t.trip c cause).cur.hedge.faults = t.cur.hedge.faults := by
  obtain ⟨low, hlow⟩ := t.trip_carriage c cause
  exact (congrArg Hedge.faults hlow :)

theorem Tx.trip_block (t : Tx s0) (c cause : ℕ) : (t.trip c cause).cur.hedge.block = t.cur.hedge.block := by
  obtain ⟨low, hlow⟩ := t.trip_carriage c cause
  exact (congrArg Hedge.block hlow :)

/-- A cause that falls due leaves its channel as it was, modulated, or tripped. -/
theorem Tx.trip_own (t : Tx s0) (c cause : ℕ) :
    ∃ y, (t.cur.mod c).Ran y ∧ ((t.trip c cause).cur.mod c = y ∨ ∃ k, (t.trip c cause).cur.mod c = y.tripped k) := by
  unfold Tx.trip
  split
  · split
    · exact ⟨_, .refl _, .inl rfl⟩
    · exact ⟨_, .refl _, .inl (State.mod_congr ((Tx.recause_keeps ..).hedge (by simp)) c)⟩
  · split
    · obtain ⟨low, hlow⟩ := t.tripNow_hedge c cause
      refine ⟨_, (t.modCut_modulates c).own, .inr ⟨(t.modCut c).cur.clock, ?_⟩⟩
      rw [← Tx.setMod_same (t.modCut c) c (((t.modCut c).cur.mod c).tripped (t.modCut c).cur.clock)]
      exact (congrArg (fun x : Hedge => mget HedgeCh.init x.chans c) hlow :)
    · exact ⟨_, .refl _, .inl rfl⟩

theorem Tx.trip_valid (t : Tx s0) (c cause : ℕ) : ((t.trip c cause).cur.mod c).valid = (t.cur.mod c).valid := by
  obtain ⟨_, ⟨_, _, _, rfl⟩, h | ⟨_, h⟩⟩ := t.trip_own c cause
  · rw [h]
  · rw [h]
    rfl

theorem State.tripping_of_live (hl : s.modLive c = true) : s.tripping c = false := by
  unfold State.modLive at hl
  unfold State.tripping
  obtain h | h : s.modState c = 2 ∨ s.modState c = 3 := by simpa using hl
  · rw [h]
    rfl
  · rw [h]
    rfl

/-- A cause that falls due for a channel in STARTING or RUN trips it (R286). -/
theorem Tx.trip_live (t : Tx s0) (cause : ℕ) (hl : t.cur.modLive c = true) : t.trip c cause = t.tripNow c cause := by
  unfold Tx.trip
  rw [State.tripping_of_live hl, hl]
  rfl

theorem Tx.recause_records (t : Tx s0) {cause : ℕ} (hc : c < 24) (hcause : cause < 256) :
    4 ≤ (t.recause c cause).cur.modState c ∧ (t.recause c cause).cur.g 0x5800 c 0x14 = cause := by
  dsimp only [Tx.recause]
  generalize hst : (if 3 ≤ (t.cur.mod c).trips.length then 5 else 4) = st
  have hst' : 4 ≤ st ∧ st < 256 := by
    rw [← hst]
    split <;> decide
  have hw : (t.w 0x5800 c 0x14 cause).cur.g 0x5800 c 0x14 = cause := Tx.w_g_of _ (entryAt_ent hc rfl) (fit_of_lt (by decide) hcause)
  generalize t.w 0x5800 c 0x14 cause = u at hw ⊢
  generalize hv : (u.wb 0x5A00 0 0x07 _).w 0x5800 c 0x02 st = v
  have h2 : v.cur.modState c = st := by
    rw [← hv]
    exact Tx.w_g_of _ (entryAt_ent hc rfl) (fit_of_lt (by decide) hst'.2)
  have h14 : v.cur.g 0x5800 c 0x14 = cause := by
    rw [← hv]
    exact (Tx.w_skip _ (.inr (by decide))).trans ((Tx.wb_g ..).trans hw)
  have hflags : ∀ (p q r x : Bool), Keeps [.all 0x5800 [0x1C], .all 0x5A00 [0x0F]] [] v.cur
      (((v.retell c st cause).when p (fun t => ((t.unflag 0x5800 c 0x1C 7).flagBit 0x5800 c 0x1C 6).when q (fun t => t.unflag 0x5A00 0 0x0F 2))).when r
        (fun t => t.flagBit 0x5A00 0 0x0F 3) |>.when x (fun t => t.unflag 0x5A00 0 0x0F 3)).cur := fun p q r x =>
    .when (fun _ => .unflag (.refl ..)) (.when (fun _ => .flagBit (.refl ..)) (.when (fun _ => .when (fun _ => .unflag (.refl ..))
      (.flagBit (.unflag (.refl ..)))) (.step (Tx.retell_keeps ..) (.refl ..))))
  refine ⟨?_, ((hflags ..).gOf rfl).trans h14⟩
  exact (((hflags ..).gOf rfl).trans h2).ge.trans' hst'.1

/-- Of two causes in one cycle the lower is recorded (R286). -/
theorem Tx.trip_recorded (t : Tx s0) {cause : ℕ} (hc : c < 24) (hcause : cause < 256)
    (h : t.cur.modLive c = true ∨ t.cur.tripping c = true) :
    4 ≤ (t.trip c cause).cur.modState c ∧ (t.trip c cause).cur.g 0x5800 c 0x14 =
      if t.cur.tripping c = true then min (t.cur.g 0x5800 c 0x14) cause else cause := by
  by_cases ht : t.cur.tripping c = true
  · rw [if_pos ht]
    unfold Tx.trip
    rw [ht, if_pos rfl]
    by_cases hle : t.cur.g 0x5800 c 0x14 ≤ cause
    · rw [if_pos (show t.g 0x5800 c 0x14 ≤ cause from hle), Nat.min_eq_left hle]
      refine ⟨?_, rfl⟩
      unfold State.tripping at ht
      obtain ⟨h | h, -⟩ : (t.cur.modState c = 4 ∨ t.cur.modState c = 5) ∧ _ := by simpa using ht
      · exact h.ge
      · omega
    · rw [if_neg (show ¬ t.g 0x5800 c 0x14 ≤ cause from hle), Nat.min_eq_right (by omega)]
      exact t.recause_records hc hcause
  · rw [if_neg ht]
    have hl := h.resolve_right ht
    obtain ⟨y, -, hy⟩ := t.tripNow_trips hc hcause
    rw [t.trip_live cause hl]
    exact ⟨hy.state ▸ (HedgeCh.tripState_ge _ _).1, hy.cause⟩

/-! ## Flags of a channel that a trip leaves set -/

/-- Taking back a flag leaves the others. -/
theorem Tx.unflag_stays (t : Tx s0) {k m x i n c v : ℕ} {e : Entry} (he : entryAt k = some e) (ha : e.acc = .w1c) (hr : e.rng = .mask m)
    (hb : bit m x = true) (hx : x ≠ v) : BitStays k x t.cur (t.unflag i n c v).cur := by
  unfold Tx.unflag
  refine .ite ⟨fun hset => ?_⟩ (.refl ..)
  by_cases hk : k = K i n c
  · subst hk
    rw [Tx.w_get_same _ _ he]
    simp only [fit, ha, hr, clearBits]
    show bit ((t.cur.get (K i n c) ^^^ (t.cur.get (K i n c) &&& 2 ^ v)) &&& m) x = true
    rw [bit_eq_testBit] at hset hb ⊢
    rw [Nat.testBit_and, Nat.testBit_xor, Nat.testBit_and, hset, hb, Nat.testBit_two_pow_of_ne (Ne.symm hx)]
    rfl
  · rw [Tx.w_get_other _ _ hk]
    exact hset

/-- Bit x of the events of channel n, 0x5800[n]:1C, where it is set, stays so. -/
abbrev ModEvent (n x : ℕ) (a b : State) : Prop := BitStays (K 0x5800 n 0x1C) x a b

section
variable {x : ℕ} (hn : n < 24) (hx : x < 6)
include hn hx

theorem Tx.flag_modEvent (t : Tx s0) (i m c v : ℕ) : ModEvent n x t.cur (t.flag i m c v).cur := by
  refine t.flag_stays (entryAt_ent hn rfl) rfl rfl ?_
  interval_cases x <;> rfl

theorem Tx.unflag_modEvent (t : Tx s0) (i m c : ℕ) {v : ℕ} (hv : x ≠ v) : ModEvent n x t.cur (t.unflag i m c v).cur := by
  refine t.unflag_stays (entryAt_ent hn rfl) rfl rfl ?_ hv
  interval_cases x <;> rfl

end

theorem BitStays.when {k x : ℕ} {p : Bool} {t : Tx s0} {f : Tx s0 → Tx s0} (hf : ∀ u : Tx s0, BitStays k x u.cur (f u).cur)
    (h : BitStays k x a t.cur) : BitStays k x a (t.when p f).cur := by
  unfold Tx.when
  exact .ite (h.trans (hf _)) h

section
variable {x : ℕ} (hn : n < 24) (hx : x < 6)
include hn hx

theorem Tx.tripNoted_event (t : Tx s0) (c cause st : ℕ) : ModEvent n x t.cur (t.tripNoted c cause st).cur := by
  dsimp only [Tx.tripNoted]
  generalize hw : Tx.w _ 0x5800 c 0x13 _ = w
  have hkeep : Keeps [.all 0x5800 [0x12, 0x13, 0x14, 0x15], .all 0x5A00 [0x07, 0x08, 0x09], .ctr 168 191] [] t.cur w.cur := by
    rw [← hw]
    exact .w (.w (.w (.tally (.tally (.wb (.when (fun _ => .tally (.refl ..)) (.refl ..)))))))
  exact .when (fun u => u.flag_modEvent hn hx ..) (.when (fun u => u.flag_modEvent hn hx ..) (.trans (.of hkeep) (w.flag_modEvent hn hx ..)))

theorem Tx.tripNow_event (t : Tx s0) (c cause : ℕ) : ModEvent n x t.cur (t.tripNow c cause).cur := by
  rw [t.tripNow_eq]
  dsimp only
  refine .step (Tx.modMsg_keeps ..) (.step (Tx.freezeOn_keeps ..) (.trans ?_ (.of (l := [.all 0x5800 [0x02]]) (M := []) (.w (.refl ..)))))
  refine .when (fun u => .of (l := []) (M := [.hedge]) (.setHedge (.refl ..))) (.step (Tx.setMod_keeps ..) (.trans (.of (t.modCut_keeps c)) ?_))
  exact Tx.tripNoted_event hn hx ..

theorem Tx.recause_event (t : Tx s0) (c cause : ℕ) : ModEvent n x t.cur (t.recause c cause).cur := by
  dsimp only [Tx.recause]
  generalize hw : Tx.w _ 0x5800 c 0x02 _ = w
  have hkeep : Keeps [.all 0x5800 [0x02, 0x14], .all 0x5A00 [0x07]] [] t.cur w.cur := by
    rw [← hw]
    exact .w (.wb (.w (.refl ..)))
  exact .when (fun u => .of (l := [.all 0x5A00 [0x0F]]) (M := []) (.unflag (.refl ..))) (.when (fun u => u.flag_modEvent hn hx ..) (.when (fun u => .when
    (fun v => .of (l := [.all 0x5A00 [0x0F]]) (M := []) (.unflag (.refl ..))) (.trans (u.unflag_modEvent hn hx (x := x) (v := 7) _ _ _ (by omega)) (Tx.flag_modEvent hn hx ..)))
    (.step (Tx.retell_keeps ..) (.of hkeep))))

theorem Tx.trip_event (t : Tx s0) (c cause : ℕ) : ModEvent n x t.cur (t.trip c cause).cur := by
  unfold Tx.trip
  exact .ite (.ite (.refl ..) (t.recause_event hn hx ..)) (.ite (t.tripNow_event hn hx ..) (.refl ..))

end

/-! ## Sense frames -/

theorem at_burstOf (clock k : ℕ) : ((Tx.start s).at_ clock).cur.burstOf n k = s.burstOf n k := rfl

theorem at_mod (clock : ℕ) : ((Tx.start s).at_ clock).cur.mod n = s.mod n := rfl

theorem at_clock (clock : ℕ) : ((Tx.start s).at_ clock).cur.clock = max s.clock clock := rfl

theorem at_modState (clock : ℕ) : ((Tx.start s).at_ clock).cur.modState n = s.modState n := rfl

/-- What a channel holds of a valid frame of burst k (R280). -/
def HedgeCh.taken (x : HedgeCh) (w k : ℕ) (runs : Bool) : HedgeCh :=
  { x with valid := min 16 (x.valid + 1), invalid := 0, overs := min 2 (if x.above w then x.overs + 1 else 0), last := some w,
           recent := ((k, some w) :: x.recent).take 2, sumV := x.sumV + frameV w,
           sumV2 := x.sumV2 + (frameV w).natAbs * (frameV w).natAbs, sumI2 := x.sumI2 + (frameI w).natAbs * (frameI w).natAbs,
           frames := x.frames + 1, peak := max x.peak (frameI w).natAbs,
           runI2 := if runs then x.runI2 + (frameI w).natAbs * (frameI w).natAbs else x.runI2 }

/-- The block once a valid frame of burst k is taken, before it trips the channel. -/
def sensed (s : State) (n w k c : ℕ) : Tx s :=
  (((Tx.start s).at_ c).setMod n ((s.mod n).taken w k (s.modRuns n))).when (bit w 29) (fun t => t.flagBit 0x5800 n 0x1C 0)

/-- What a valid frame leaves before it trips its channel. -/
theorem sensed_leaves {w k : ℕ} : (sensed s n w k c).cur.mod n = (s.mod n).taken w k (s.modRuns n) ∧ (sensed s n w k c).cur.clock = max s.clock c ∧
    ∀ e, e % 256 ≠ 0x1C → (sensed s n w k c).cur.g 0x5800 n e = s.g 0x5800 n e := by
  unfold sensed Tx.when
  split
  · refine ⟨?_, ?_, fun e he => ?_⟩
    · rw [State.mod_congr ((Tx.flagBit_shown _).hedge (by simp)), Tx.setMod_same]
    · exact ((Tx.flagBit_shown _).clock (by simp)).2
    · exact (Tx.flagBit_skip _ (.inr (Ne.symm he))).trans rfl
  · exact ⟨Tx.setMod_same .., rfl, fun e _ => rfl⟩

section
variable {w k : ℕ} {P : State → Prop} (hc : s.clocked = true) (hw : w < 2 ^ 32) (hk : s.burstOf n (max s.clock c) = some k)
include hc hw hk

theorem senseFrame_valid (hv : frameValid w = true) (hP : ∀ t, Kept (fun _ => False) []
      (if (s.mod n).set 0x03 == 1 && decide (2 ≤ if (s.mod n).above w then (s.mod n).overs + 1 else 0) then (sensed s n w k c).trip n 1
        else sensed s n w k c).cur t → P t) :
    ∃ t, exec (.senseFrame n w c) s = .next t ∧ P t := by
  change ∃ t, execSenseFrame n w c s = .next t ∧ _
  unfold execSenseFrame
  refine run_to hc _ ?_ hP
  dsimp only
  rw [at_clock, at_burstOf, hk, Nat.mod_eq_of_lt hw]
  exact if_pos hv

theorem senseFrame_takes (hv : frameValid w = true)
    (hq : (s.mod n).above w = false ∨ (s.mod n).overs = 0 ∨ (s.mod n).set 0x03 ≠ 1) :
    ∃ t, exec (.senseFrame n w c) s = .next t ∧ t.clock = max s.clock c ∧ (t.mod n).last = some w ∧
      (t.mod n).frames = (s.mod n).frames + 1 ∧ (t.mod n).sumV = (s.mod n).sumV + frameV w ∧ (t.mod n).invalid = 0 ∧
      (t.mod n).recent = ((k, some w) :: (s.mod n).recent).take 2 ∧ t.modState n = s.modState n := by
  refine senseFrame_valid hc hw hk hv fun t ht => ?_
  have hno : ¬ ((s.mod n).set 0x03 == 1 && decide (2 ≤ if (s.mod n).above w then (s.mod n).overs + 1 else 0)) = true := by
    rcases hq with h | h | h <;> simp [h]
    split <;> simp
  rw [if_neg hno] at ht
  obtain ⟨hmod, hclock, hg⟩ := sensed_leaves (s := s) (n := n) (w := w) (k := k) (c := c)
  have hm : t.mod n = (s.mod n).taken w k (s.modRuns n) := (State.mod_congr (ht.hedge (by simp)) n).trans hmod
  refine ⟨(ht.clock (by simp)).2.trans hclock, ?_, ?_, ?_, ?_, ?_, (ht.seenG (by simp [apart])).trans (hg _ (by decide))⟩ <;> rw [hm] <;> rfl

theorem senseFrame_trips (hn : n < 24) (hv : frameValid w = true) (ha : (s.mod n).above w = true) (ho : 1 ≤ (s.mod n).overs)
    (hs : (s.mod n).set 0x03 = 1) (hl : s.modLive n = true) :
    ∃ t, exec (.senseFrame n w c) s = .next t ∧ t.clock = max s.clock c ∧ t.g 0x5800 n 0x14 = 1 ∧ (t.mod n).ramp = none ∧
      (t.mod n).trips = max s.clock c :: (s.mod n).trips.filter (fun a => max s.clock c < a + secC 10) ∧
      t.modState n = (if 3 ≤ (t.mod n).trips.length then 5 else 4) ∧
      (s.modRuns n = true → .modLow [n] ∈ t.outs) ∧
      t.g 0x5800 n 0x12 = (s.g 0x5800 n 0x12 + 1) % 2 ^ 32 := by
  refine senseFrame_valid hc hw hk hv fun t ht => ?_
  have hyes : ((s.mod n).set 0x03 == 1 && decide (2 ≤ if (s.mod n).above w then (s.mod n).overs + 1 else 0)) = true := by
    rw [hs, ha]
    simpa using ho
  rw [if_pos hyes] at ht
  obtain ⟨hmod, hclock, hg⟩ := sensed_leaves (s := s) (n := n) (w := w) (k := k) (c := c)
  generalize sensed s n w k c = u at ht hmod hclock hg
  have hst : u.cur.modState n = s.modState n := hg _ (by decide)
  have hlive : u.cur.modLive n = true := by
    unfold State.modLive at hl ⊢
    rwa [hst]
  have hruns : u.cur.modRuns n = s.modRuns n := by
    unfold State.modRuns State.modLive
    rw [hst, hmod]
    rfl
  rw [u.trip_live 1 hlive] at ht
  obtain ⟨y, hy, htr⟩ := u.tripNow_trips (cause := 1) hn (by decide)
  have hkeep := u.tripNow_keeps n 1
  generalize u.tripNow n 1 = v at ht htr hkeep
  obtain ⟨_, _, _, hy⟩ := hy
  have hm : t.mod n = y.tripped (max s.clock c) := (State.mod_congr (ht.hedge (by simp)) n).trans (hclock ▸ htr.own)
  have htrips : (y.tripped (max s.clock c)).trips = max s.clock c :: (s.mod n).trips.filter (fun a => max s.clock c < a + secC 10) := by
    rw [hy, hmod]
    rfl
  refine ⟨(ht.clock (by simp)).2.trans ((hkeep.clock (by simp)).2.trans hclock), (ht.seenG (by simp [apart])).trans htr.cause, ?_, ?_, ?_, ?_, ?_⟩
  · rw [hm]
    rfl
  · rw [hm, htrips]
  · refine (ht.seenG (by simp [apart])).trans (htr.state.trans ?_)
    rw [hm, hclock]
    unfold HedgeCh.tripState
    simp
  · intro hr
    rw [ht.outs (by simp)]
    exact htr.low (hruns.trans hr)
  · refine (ht.seenG (by simp [apart])).trans (htr.count.trans ?_)
    rw [hg _ (by decide)]

end

/-- What a channel holds of an invalid frame of burst k (R280). -/
def HedgeCh.missed (x : HedgeCh) (k : ℕ) : HedgeCh :=
  { x with valid := 0, invalid := min 8 (x.invalid + 1), recent := ((k, none) :: x.recent).take 2 }

theorem senseFrame_misses {w k : ℕ} (hc : s.clocked = true) (hn : n < 24) (hw : w < 2 ^ 32) (hk : s.burstOf n (max s.clock c) = some k)
    (hv : frameValid w = false) :
    ∃ t, exec (.senseFrame n w c) s = .next t ∧ (t.mod n).valid = 0 ∧
      t.g 0x5800 n 0x1B = (s.g 0x5800 n 0x1B + 1) % 2 ^ 32 ∧ bit (t.g 0x5800 n 0x1C) 5 = true ∧
      ((s.mod n).invalid < 7 → (t.mod n).invalid = (s.mod n).invalid + 1 ∧ t.modState n = s.modState n) ∧
      (7 ≤ (s.mod n).invalid → (s.mod n).set 0x03 = 1 → s.modLive n = true →
        t.g 0x5800 n 0x14 = 4 ∧ 4 ≤ t.modState n) := by
  change ∃ t, execSenseFrame n w c s = .next t ∧ _
  unfold execSenseFrame
  obtain ⟨u, hu⟩ : ∃ u, u = ((((Tx.start s).at_ c).setMod n ((s.mod n).missed k)).inc 0x5800 n 0x1B 1).flagBit 0x5800 n 0x1C 5 := ⟨_, rfl⟩
  refine run_to hc (if (s.mod n).set 0x03 == 1 && decide (8 ≤ ((s.mod n).missed k).invalid) then u.trip n 4 else u) ?_ fun t ht => ?_
  · dsimp only
    rw [at_clock, at_burstOf, hk, Nat.mod_eq_of_lt hw, hu]
    exact if_neg (by simp [hv])
  generalize hz : (if (s.mod n).set 0x03 == 1 && decide (8 ≤ ((s.mod n).missed k).invalid) then u.trip n 4 else u) = z at ht
  have hmod : u.cur.mod n = (s.mod n).missed k := by
    rw [hu, State.mod_congr ((Tx.flagBit_shown _).hedge (by simp)), State.mod_congr ((Tx.inc_shown _).hedge (by simp)), Tx.setMod_same]
  have hcount : u.cur.g 0x5800 n 0x1B = (s.g 0x5800 n 0x1B + 1) % 2 ^ 32 := by
    rw [hu, Tx.flagBit_skip _ (.inr (by decide))]
    exact (Tx.w_get_same _ _ (entryAt_ent hn rfl)).trans rfl
  have hflag : bit (u.cur.get (K 0x5800 n 0x1C)) 5 = true := by
    rw [hu]
    exact Tx.flagBit_bit _ (entryAt_ent hn rfl) rfl rfl rfl
  have hst : u.cur.modState n = s.modState n := by
    rw [hu]
    exact (Tx.flagBit_skip _ (.inr (by decide))).trans ((Tx.inc_skip _ (.inr (by decide))).trans rfl)
  have hzu : ModEvent n 5 u.cur z.cur ∧ Keeps [.all 0x5800 [0x02, 0x12, 0x13, 0x14, 0x15, 0x1C], .all 0x5A00 [0x07, 0x08, 0x09, 0x0F],
      .ctr 168 191] [.outs, .hedge, .meas] u.cur z.cur := by
    rw [← hz]
    exact ⟨.ite (u.trip_event hn (by decide) n 4) (.refl ..), .ite (u.trip_keeps n 4) (.refl ..)⟩
  have hvalid : (z.cur.mod n).valid = 0 := by
    rw [← hz]
    split
    · rw [u.trip_valid n 4, hmod]
      rfl
    · rw [hmod]
      rfl
  refine ⟨by rw [State.mod_congr (ht.hedge (by simp)), hvalid], ?_, ?_, fun h7 => ?_, fun h7 hs hl => ?_⟩
  · rw [ht.seenG (by simp [apart]), hzu.2.gOf rfl, hcount]
  · rw [ht.seenG (by simp [apart])]
    exact hzu.1.stays hflag
  · have hno : ¬ ((s.mod n).set 0x03 == 1 && decide (8 ≤ ((s.mod n).missed k).invalid)) = true := by
      have : ¬ 8 ≤ min 8 ((s.mod n).invalid + 1) := by omega
      simp [HedgeCh.missed, this]
    rw [if_neg hno] at hz
    rw [State.mod_congr (ht.hedge (by simp)), ← hz, hmod]
    exact ⟨(show min 8 ((s.mod n).invalid + 1) = _ by omega), (ht.seenG (by simp [apart])).trans (hz ▸ hst)⟩
  · have hyes : ((s.mod n).set 0x03 == 1 && decide (8 ≤ ((s.mod n).missed k).invalid)) = true := by
      have : 8 ≤ min 8 ((s.mod n).invalid + 1) := by omega
      simpa [hs, HedgeCh.missed] using this
    have hlive : u.cur.modLive n = true := by
      unfold State.modLive at hl ⊢
      rwa [hst]
    rw [if_pos hyes, u.trip_live 4 hlive] at hz
    obtain ⟨y, -, hy⟩ := u.tripNow_trips (cause := 4) hn (by decide)
    rw [hz] at hy
    refine ⟨(ht.seenG (by simp [apart])).trans hy.cause, ?_⟩
    rw [show t.modState n = z.cur.modState n from ht.seenG (by simp [apart]), hy.state]
    exact (HedgeCh.tripState_ge _ _).1

/-! ## Fault lines -/

theorem bit_putBit_off (v : ℕ) (hn : n < 3) : bit (putBit v n false % 2 ^ 8) n = false := by
  unfold putBit bit
  interval_cases n <;> simp <;> split <;> omega

theorem faultEdge_recognised (hc : s.clocked = true) (hn : n < 3) :
    ∃ t, exec (.faultEdge n c) s = .next t ∧ t.clock = max s.clock c ∧
      (n, max s.clock c) ∈ t.hedge.faults ∧ bit (t.g 0x5A00 0 0x0E) n = false ∧
      t.g 0x5A00 0 (0x0A + n) = (s.g 0x5A00 0 (0x0A + n) + 1) % 2 ^ 32 := by
  change ∃ t, execFaultEdge n c s = .next t ∧ _
  unfold execFaultEdge
  refine run_to hc _ rfl fun t ht => ?_
  dsimp only at ht
  have hcount : (((Tx.start s).at_ c).inc 0x5A00 0 (0x0A + n) 1).cur.g 0x5A00 0 (0x0A + n) = (s.g 0x5A00 0 (0x0A + n) + 1) % 2 ^ 32 := by
    have he : ∃ e, entryAt (K 0x5A00 0 (0x0A + n)) = some e ∧ ∀ v, fit e v = v % 2 ^ 32 := by
      interval_cases n <;> exact ⟨_, rfl, fun _ => rfl⟩
    obtain ⟨e, he, hfit⟩ := he
    exact (Tx.w_get_same _ _ he).trans (hfit _)
  have hshown := ((Tx.start s).at_ c).inc_shown (i := 0x5A00) (n := 0) (c := 0x0A + n) (v := 1)
  generalize ((Tx.start s).at_ c).inc 0x5A00 0 (0x0A + n) 1 = u at ht hcount hshown
  have hclock : u.cur.clock = max s.clock c := (hshown.clock (by simp)).2
  obtain ⟨w, hw⟩ : ∃ w, w = u.w 0x5A00 0 0x0E (putBit (s.g 0x5A00 0 0x0E) n false) := ⟨_, rfl⟩
  have hline : bit (w.cur.g 0x5A00 0 0x0E) n = false := by
    rw [hw, show (u.w 0x5A00 0 0x0E (putBit (s.g 0x5A00 0 0x0E) n false)).cur.g 0x5A00 0 0x0E = putBit (s.g 0x5A00 0 0x0E) n false % 2 ^ 8 from
      (Tx.w_get_same _ _ (entryAt_ent (by decide : 0 < 1) rfl)).trans rfl]
    exact bit_putBit_off _ hn
  have hother : w.cur.g 0x5A00 0 (0x0A + n) = u.cur.g 0x5A00 0 (0x0A + n) := by
    rw [hw]
    exact Tx.w_skip _ (.inr (by omega))
  have hwc : w.cur.clock = u.cur.clock := by
    rw [hw]
    exact ((Tx.w_shown _).clock (by simp)).2
  rw [← hw] at ht
  refine ⟨(ht.clock (by simp)).2.trans (hwc.trans hclock), ?_, ?_, ?_⟩
  · rw [ht.hedge (by simp), Tx.setHedge_hedge, hwc, hclock]
    exact List.mem_append_right _ (.head _)
  · rw [ht.seenG (by simp [apart]), show (w.setHedge _).cur.g 0x5A00 0 _ = w.cur.g 0x5A00 0 _ from Tx.setHedge_get .., hline]
  · rw [ht.seenG (by simp [apart]), show (w.setHedge _).cur.g 0x5A00 0 _ = w.cur.g 0x5A00 0 _ from Tx.setHedge_get .., hother, hcount]

theorem Tx.trips_faults (t : Tx s0) (l : List ℕ) (cause : ℕ) : (t.each l (fun t c => t.trip c cause)).cur.hedge.faults = t.cur.hedge.faults :=
  Tx.each_inv (P := fun u => u.hedge.faults = t.cur.hedge.faults) l rfl fun u c hu => (u.trip_faults c cause).trans hu

/-- A cause that falls due for some channels of the block, each of which trips once. -/
theorem Tx.trips_recorded (t : Tx s0) {l : List ℕ} {cause : ℕ} (hl : l.Nodup) (h24 : ∀ y ∈ l, y < 24) (hm : m ∈ l) (hcause : cause < 256)
    (h : t.cur.modLive m = true ∨ t.cur.tripping m = true) :
    4 ≤ (t.each l (fun t c => t.trip c cause)).cur.modState m ∧ (t.each l (fun t c => t.trip c cause)).cur.g 0x5800 m 0x14 =
      if t.cur.tripping m = true then min (t.cur.g 0x5800 m 0x14) cause else cause := by
  have hm24 : m < 65536 := (h24 m hm).trans (by decide)
  refine Tx.each_once (P := fun u => Beside m t.cur u)
    (Q := fun u => 4 ≤ u.modState m ∧ u.g 0x5800 m 0x14 = if t.cur.tripping m = true then min (t.cur.g 0x5800 m 0x14) cause else cause)
    l hl hm (.refl ..) ?_ ?_ ?_
  · exact fun u y hy hne hu => hu.trans (u.trip_beside y cause (Ne.symm hne) hm24 ((h24 y hy).trans (by decide)))
  · intro u hu
    have hr := u.trip_recorded (h24 m hm) hcause (by rwa [hu.modLive, hu.tripping])
    rwa [hu.tripping, hu.entries] at hr
  · intro u y hy hne ⟨hst, hcz⟩
    have hb := u.trip_beside y cause (Ne.symm hne) hm24 ((h24 y hy).trans (by decide))
    exact ⟨hb.modState ▸ hst, (hb.entries _).trans hcz⟩

theorem mem_group (hn : n < 3) (h : m ∈ range' (8 * n) 8) : m < 24 := by
  unfold range' at h
  simp at h
  omega

theorem group_nodup (n : ℕ) : (range' (8 * n) 8).Nodup := by
  unfold range'
  exact List.nodup_range.map fun _ _ h => Nat.add_left_cancel h

/-- An edge alone in its group whose burst has ended: the state in which its trips are decided. -/
def faulted (s : State) (n r c : ℕ) : Tx s :=
  ((Tx.start s).at_ c).setHedge { s.hedge with faults := s.hedge.faults.filter (fun p => !([(n, r)].contains p)) }

theorem faulted_identified (r k : ℕ) (i : ℕ) : (faulted s n r c).cur.identified k i = { s with clock := max s.clock c : State }.identified k i := rfl

theorem faulted_burstAfter (r k : ℕ) : (faulted s n r c).cur.burstAfter k = s.burstAfter k := rfl

theorem faulted_tripping (r i : ℕ) : (faulted s n r c).cur.tripping i = { s with clock := max s.clock c : State }.tripping i := rfl

theorem faulted_modLive (r i : ℕ) : (faulted s n r c).cur.modLive i = s.modLive i := rfl

theorem faulted_cause (r i : ℕ) : (faulted s n r c).cur.g 0x5800 i 0x14 = s.g 0x5800 i 0x14 := rfl

theorem at_faultDue (r : ℕ) : ((Tx.start s).at_ c).cur.faultDue r = { s with clock := max s.clock c : State }.faultDue r := rfl

theorem State.live_of_identified {k i : ℕ} (h : s.identified k i = true) : s.modLive i = true ∨ s.tripping i = true := by
  unfold State.identified at h
  simp only [Bool.and_eq_true, Bool.or_eq_true] at h
  exact h.1.1

theorem faultIdentify_decides (hc : s.clocked = true) (hn : n < 3) {r : ℕ} (hf : s.hedge.faults.filter (fun p => p.1 == n) = [(n, r)]) :
    let u := { s with clock := max s.clock c }
    let group := range' (8 * n) 8
    u.faultDue r = true →
    ∃ t, exec (.faultIdentify n c) s = .next t ∧ (∀ p ∈ t.hedge.faults, p.1 ≠ n) ∧
      (∀ i ∈ group, u.identified (s.burstAfter r) i = true → 4 ≤ t.modState i ∧
        t.g 0x5800 i 0x14 = (if u.tripping i = true then min (s.g 0x5800 i 0x14) 2 else 2)) ∧
      ((∀ i ∈ group, u.identified (s.burstAfter r) i = false) → ∀ i ∈ group, s.modLive i = true →
        t.g 0x5800 i 0x14 = 3 ∧ 4 ≤ t.modState i) := by
  intro u group hdue
  change ∃ t, execFaultIdentify n c s = .next t ∧ _
  unfold execFaultIdentify
  have hall : (((Tx.start s).at_ c).cur.hedge.faults.filter (fun p => p.1 == n && ((Tx.start s).at_ c).cur.faultDue p.2)) = [(n, r)] := by
    have hsplit : (fun p : ℕ × ℕ => p.1 == n && ((Tx.start s).at_ c).cur.faultDue p.2) =
        fun p => ((Tx.start s).at_ c).cur.faultDue p.2 && p.1 == n := funext fun p => Bool.and_comm ..
    rw [hsplit, ← List.filter_filter, show ((Tx.start s).at_ c).cur.hedge.faults = s.hedge.faults from rfl, hf]
    simp only [List.filter_cons, List.filter_nil, at_faultDue]
    exact if_pos hdue
  refine run_to hc ((faulted s n r c).faultTrips n r) (by dsimp only; rw [hall]; rfl) fun t ht => ?_
  generalize hw : (faulted s n r c).faultTrips n r = w at ht
  have hg : ∀ i e, t.g 0x5800 i e = w.cur.g 0x5800 i e := fun i e => ht.seenG (by simp [apart])
  have hst : ∀ i, t.modState i = w.cur.modState i := fun i => hg i 2
  unfold Tx.faultTrips at hw
  dsimp only at hw
  rw [faulted_burstAfter] at hw
  have hfaults : w.cur.hedge.faults = (faulted s n r c).cur.hedge.faults := by
    rw [← hw]
    split
    · exact Tx.trips_faults ..
    · exact Tx.trips_faults ..
  refine ⟨fun p hp => ?_, fun i hi hid => ?_, fun hnone i hi hl => ?_⟩
  · rw [ht.hedge (by simp), hfaults] at hp
    rintro rfl
    have hmem : p ∈ s.hedge.faults ∧ ¬ p = (p.1, r) := by
      have := List.mem_filter.mp (show p ∈ s.hedge.faults.filter (fun q => !([(p.1, r)].contains q)) from hp)
      simpa using this
    have : p ∈ s.hedge.faults.filter (fun q => q.1 == p.1) := List.mem_filter.mpr ⟨hmem.1, beq_self_eq_true _⟩
    rw [hf] at this
    exact hmem.2 (List.mem_singleton.mp this)
  · have hid' : (faulted s n r c).cur.identified (s.burstAfter r) i = true := (faulted_identified ..).trans hid
    have hfound : i ∈ group.filter ((faulted s n r c).cur.identified (s.burstAfter r)) := List.mem_filter.mpr ⟨hi, hid'⟩
    have hne : ¬ (group.filter ((faulted s n r c).cur.identified (s.burstAfter r))).isEmpty = true := fun h => by
      rw [List.isEmpty_iff.mp h] at hfound
      nomatch hfound
    rw [if_neg hne] at hw
    have hrec := (faulted s n r c).trips_recorded (cause := 2) ((group_nodup n).filter _)
      (fun y hy => mem_group hn (List.mem_filter.mp hy).1) hfound (by decide) (State.live_of_identified hid')
    rw [hw, faulted_tripping, faulted_cause] at hrec
    exact ⟨(hst i).symm ▸ hrec.1, (hg ..).trans hrec.2⟩
  · have hempty : group.filter ((faulted s n r c).cur.identified (s.burstAfter r)) = [] :=
      List.filter_eq_nil_iff.mpr fun y hy => by
        rw [faulted_identified, hnone y hy]
        decide
    rw [if_pos (by rw [hempty]; rfl)] at hw
    have hlive : (faulted s n r c).cur.modLive i = true := (faulted_modLive r i).trans hl
    have hrec := (faulted s n r c).trips_recorded (m := i) (l := range' (8 * n) 8) (cause := 3) (group_nodup n)
      (fun y hy => mem_group hn hy) hi (by decide) (.inl hlive)
    rw [hw, if_neg (by rw [State.tripping_of_live hlive]; decide)] at hrec
    exact ⟨(hg ..).trans hrec.2, (hst i).symm ▸ hrec.1⟩

/-! ## Retries and clears -/

theorem retry_holds (hc : s.clocked = true) (hn : n < 24) (h4 : s.modState n = 4) (hon : s.on 0x5800 n 0x01 = true)
    (hdue : (s.mod n).trips.headD 0 + msC 200 ≤ s.clock)
    (hok : ((s.mod n).set 0x03 = 1 ∧ ∃ w, (s.mod n).last = some w ∧ bit w 30 = false ∧ (s.mod n).above w = false) ∨
      ((s.mod n).set 0x03 ≠ 1 ∧ bit (s.g 0x5A00 0 0x0E) (n / 8) = true)) :
    ∃ t, exec (.retry n) s = .next t ∧ t.modState n = 1 := by
  change ∃ t, execRetry n s = .next t ∧ _
  unfold execRetry
  refine run_to hc ((Tx.start s).modTo n 1) ?_ fun t ht => (ht.seenG (by simp [apart])).trans (Tx.modTo_state _ hn (by decide))
  dsimp only
  rw [h4, hon, if_neg (by simpa using hdue)]
  refine if_pos ?_
  rcases hok with ⟨hs, w, hw, h30, ha⟩ | ⟨hs, hline⟩
  · rw [if_pos (by simpa using hs), hw]
    simp [h30, ha]
  · rw [if_neg (by simpa using hs), hline]

theorem clearLatch_clears (hc : s.clocked = true) (hn : n < 24) (hk : s.writeCheck h (opOf 0x5800 n 0x11 d) = stOK) (h5 : s.modState n = 5) :
    ∃ t, exec (.clearLatch h n d) s = .next t ∧ t.modState n = (if s.on 0x5800 n 0x01 = true then 1 else 0) ∧
      (t.mod n).trips = [] ∧ t.g 0x5800 n 0x13 = 0 := by
  change ∃ t, execClearLatch h n d s = .next t ∧ _
  unfold execClearLatch
  refine run_to hc _ (guarded_start hk _) fun t ht => ?_
  unfold clearLatchRule at ht
  have hst : ((Tx.start s).status stOK).cur.modState n = 5 := (begun_g ..).trans h5
  rw [hst, if_neg (by decide)] at ht
  dsimp only at ht
  obtain ⟨u, hu⟩ : ∃ u, u = (((Tx.start s).status stOK).w 0x5800 n 0x13 0).setMod n { ((Tx.start s).status stOK).cur.mod n with trips := [] } := ⟨_, rfl⟩
  have hon : u.on 0x5800 n 0x01 = s.on 0x5800 n 0x01 := by
    rw [hu]
    show ((((Tx.start s).status stOK).w 0x5800 n 0x13 0).cur.g 0x5800 n 0x01 == 1) = _
    rw [Tx.w_skip _ (.inr (by decide)), begun_g]
    rfl
  have h13 : u.cur.g 0x5800 n 0x13 = 0 := by
    rw [hu]
    show (((Tx.start s).status stOK).w 0x5800 n 0x13 0).cur.g 0x5800 n 0x13 = 0
    exact Tx.w_g_of _ (entryAt_ent hn rfl) rfl
  have hmod : (u.cur.mod n).trips = [] := by
    rw [hu, Tx.setMod_same]
  rw [← hu, hon] at ht
  refine ⟨?_, ?_, (ht.seenG (by simp [apart])).trans (((Tx.modTo_keeps ..).gOf rfl).trans h13)⟩
  · exact (ht.seenG (by simp [apart])).trans (Tx.modTo_state _ hn (by split <;> decide))
  · rw [State.mod_congr (ht.hedge (by simp)), Tx.modTo_mod, hmod]

theorem clearTripLog_clears (hc : s.clocked = true) (hk : s.writeCheck h (opOf 0x5A00 0 0x10 d) = stOK) :
    ∃ t, exec (.clearTripLog h d) s = .next t ∧ t.gb 0x5A00 0 0x07 = [] ∧ Kept (· = K 0x5A00 0 0x07) [.result, .outs] s t := by
  change ∃ t, execClearTripLog h d s = .next t ∧ _
  unfold execClearTripLog
  refine run_to hc _ (guarded_start hk _) fun t ht => ⟨ht.seenGb.trans (Tx.wb_blob_same ..), ?_⟩
  exact .of_run (by simp) (by simp) (.wbKey (.status (.refl ..)) rfl) ht

/-- Settles O36, clause by clause: what each command leaves of the channel that it concerns. -/
theorem tripsComplete : Obligations.TripsComplete := by
  unfold Obligations.TripsComplete
  exact fun s hc => ⟨fun n w c k hn hw hk hv => ⟨senseFrame_takes hc hw hk hv, senseFrame_trips hc hw hk hn hv⟩,
    fun n w c k hn hw hk hv => senseFrame_misses hc hn hw hk hv, fun n c hn => faultEdge_recognised hc hn,
    fun n c r hn hf => faultIdentify_decides hc hn hf, fun n hn h4 hon hdue hok => retry_holds hc hn h4 hon hdue hok,
    fun h n d hn hk h5 => clearLatch_clears hc hn hk h5, fun h d hk => clearTripLog_clears hc hk⟩

end Sys2Proof.Machine
end

section
/-! PROOFS. A retune of the carrier, render blocks and impedance windows of the Hedge (R278, R290 to R294). -/

namespace Sys2Proof.Machine
open Sys2Proof

set_option Elab.async false

variable {s0 s a b : State} {n m c k : ℕ}

/-! ## The old carrier stops -/

/-- What a running channel does where the old carrier stops at the boundary h of period j. -/
def Tx.carrierLow (t : Tx s0) (c j h : ℕ) : Tx s0 :=
  let t := t.modLow c j h
  let t := t.setMod c { t.cur.mod c with quiet := true, ramp := none }
  if t.on 0x5800 c 0x01 then t else (t.setMod c { t.cur.mod c with quiet := false }).modTo c 0

theorem Tx.carrierLow_keeps (t : Tx s0) (c j h : ℕ) : Keeps [.all 0x5800 [0x02]] [.outs, .hedge] t.cur (t.carrierLow c j h).cur := by
  dsimp only [Tx.carrierLow]
  have hlow : Keeps [] [.outs, .hedge] t.cur ((t.modLow c j h).setMod c { (t.modLow c j h).cur.mod c with quiet := true, ramp := none }).cur :=
    .step (Tx.setMod_keeps ..) (.step (Tx.modLow_keeps ..) (.refl ..))
  exact .ite (.step hlow (.refl ..)) (.step (Tx.modTo_keeps ..) (.step (Tx.setMod_keeps ..) (.step hlow (.refl ..))))

theorem Tx.carrierLow_beside (t : Tx s0) (j h : ℕ) (hm : m < 24) (hc : c < 24) (hne : m ≠ c) : Beside m t.cur (t.carrierLow c j h).cur := by
  obtain ⟨-, hothers, -, -⟩ := t.modLow_leaves c j h
  have hlow := t.modLow_keeps c j h
  unfold Tx.carrierLow
  generalize t.modLow c j h = u at hothers hlow
  dsimp only
  have hu : Beside m t.cur (u.setMod c { u.cur.mod c with quiet := true, ramp := none }).cur :=
    ⟨(u.setMod_other _ hne).trans (hothers m hne), fun e => hlow.gOf (by simp [apart]), (hlow.clock (by simp)).2⟩
  split
  · exact hu
  · refine hu.trans ⟨(Tx.modTo_mod ..).trans (Tx.setMod_other _ _ hne), fun e => ?_, ((Tx.modTo_keeps ..).clock (by simp)).2⟩
    exact (Tx.modTo_keepsAt _ c 0 (by omega)).gBeside hne (by omega) (by simp [apart])

theorem Tx.carrierLow_own (t : Tx s0) (j h : ℕ) (hc : c < 24) :
    (t.cur.on 0x5800 c 0x01 = true → (t.carrierLow c j h).cur.modState c = t.cur.modState c ∧
      ∃ y, (t.cur.mod c).Ran y ∧ (t.carrierLow c j h).cur.mod c = { y with quiet := true, ramp := none }) ∧
    (t.cur.on 0x5800 c 0x01 = false → (t.carrierLow c j h).cur.modState c = 0 ∧ ((t.carrierLow c j h).cur.mod c).quiet = false ∧
      ((t.carrierLow c j h).cur.mod c).ramp = none) := by
  obtain ⟨hown, -, -, -⟩ := t.modLow_leaves c j h
  have hlow := t.modLow_keeps c j h
  unfold Tx.carrierLow
  generalize t.modLow c j h = u at hown hlow
  dsimp only
  have hon : (u.setMod c { u.cur.mod c with quiet := true, ramp := none }).on 0x5800 c 0x01 = t.cur.on 0x5800 c 0x01 := hlow.onOf rfl
  rw [hon]
  refine ⟨fun h1 => ?_, fun h1 => ?_⟩
  · rw [if_pos h1]
    exact ⟨hlow.gOf rfl, _, hown, u.setMod_same ..⟩
  · rw [if_neg (by simp [h1])]
    refine ⟨Tx.modTo_state _ hc (by decide), ?_, ?_⟩
    · rw [Tx.modTo_mod, Tx.setMod_same]
    · rw [Tx.modTo_mod, Tx.setMod_same, Tx.setMod_same]

/-- The old carrier stops at the boundary h of period j. -/
def Tx.carrierStop (t : Tx s0) (j h : ℕ) : Tx s0 :=
  let t := t.each allMods (fun t c => if !t.cur.modRuns c then t else t.carrierLow c j h)
  t.setHedge { t.cur.hedge with retune := some (2, ceilDiv h 2), lowAt := ceilDiv h 2 }

/-- What a retune begun at the counter a waits for. -/
def Tx.carrierStopAt (t : Tx s0) (a : ℕ) : Tx s0 :=
  if 2 * s0.clock < s0.boundary (s0.periodFrom (2 * (a + msC 10))) then t
  else t.carrierStop (s0.periodFrom (2 * (a + msC 10))) (s0.boundary (s0.periodFrom (2 * (a + msC 10))))

theorem execOldCarrierStop_eq (s : State) : execOldCarrierStop s = run s fun t =>
    match s.hedge.retune with
    | some (1, a) => t.carrierStopAt a
    | _ => t := by
  unfold execOldCarrierStop Tx.carrierStopAt Tx.carrierStop Tx.carrierLow
  rfl

theorem oldCarrierStop_stops (hc : s.clocked = true) {a : ℕ} (hr : s.hedge.retune = some (1, a)) :
    let stop := s.boundary (s.periodFrom (2 * (a + msC 10)))
    stop ≤ 2 * s.clock →
    ∃ t, exec .oldCarrierStop s = .next t ∧ t.hedge.retune = some (2, ceilDiv stop 2) ∧
      t.hedge.lowAt = ceilDiv stop 2 ∧
      ∀ n < 24, s.modRuns n = true →
        (s.on 0x5800 n 0x01 = true → t.modState n = s.modState n ∧
          t.mod n = { s.mod n with quiet := true, ramp := none,
                                   half := (t.mod n).half, errA := (t.mod n).errA, errB := (t.mod n).errB }) ∧
        (s.on 0x5800 n 0x01 = false → t.modState n = 0 ∧ (t.mod n).quiet = false ∧ (t.mod n).ramp = none) := by
  intro stop hstop
  change ∃ t, execOldCarrierStop s = .next t ∧ _
  rw [execOldCarrierStop_eq]
  have hgo : (Tx.start s).carrierStopAt a = (Tx.start s).carrierStop (s.periodFrom (2 * (a + msC 10))) stop := if_neg (Nat.not_lt.mpr hstop)
  generalize s.periodFrom (2 * (a + msC 10)) = j at hgo
  obtain ⟨u, hu⟩ : ∃ u, u = (Tx.start s).each allMods (fun t c => if !t.cur.modRuns c then t else t.carrierLow c j stop) := ⟨_, rfl⟩
  refine run_to hc (u.setHedge { u.cur.hedge with retune := some (2, ceilDiv stop 2), lowAt := ceilDiv stop 2 }) ?_ fun t ht => ?_
  · rw [hr, hu]
    split
    next b hb =>
      obtain rfl : a = b := by simpa using hb
      exact hgo
    next hb => exact absurd rfl (hb a)
  have hh : t.hedge = { u.cur.hedge with retune := some (2, ceilDiv stop 2), lowAt := ceilDiv stop 2 } := ht.hedge (by simp)
  refine ⟨congrArg Hedge.retune hh, congrArg Hedge.lowAt hh, fun n hn hruns => ?_⟩
  have hmod : t.mod n = u.cur.mod n := (congrArg (fun x : Hedge => mget HedgeCh.init x.chans n) hh :)
  have hst : t.modState n = u.cur.modState n := (ht.seenG (by simp [apart])).trans (Tx.setHedge_get ..)
  rw [hmod, hst, hu]
  refine Tx.each_once (P := fun v => Beside n s v) (Q := fun v =>
      (s.on 0x5800 n 0x01 = true → v.modState n = s.modState n ∧
        v.mod n = { s.mod n with quiet := true, ramp := none, half := (v.mod n).half, errA := (v.mod n).errA, errB := (v.mod n).errB }) ∧
      (s.on 0x5800 n 0x01 = false → v.modState n = 0 ∧ (v.mod n).quiet = false ∧ (v.mod n).ramp = none))
    (m := n) allMods List.nodup_range (List.mem_range.mpr hn) ⟨rfl, fun _ => rfl, rfl⟩ ?_ ?_ ?_
  · intro v y hy hne hv
    split
    · exact hv
    · exact hv.trans (v.carrierLow_beside j stop hn (List.mem_range.mp hy) (Ne.symm hne))
  · intro v hv
    have hvr : v.cur.modRuns n = true := by
      unfold State.modRuns at hruns ⊢
      rwa [hv.own, hv.modLive]
    rw [if_neg (by simp [hvr])]
    obtain ⟨hon, hoff⟩ := v.carrierLow_own j stop hn
    have hen : v.cur.on 0x5800 n 0x01 = s.on 0x5800 n 0x01 := congrArg (· == 1) (hv.entries 0x01)
    rw [hen] at hon hoff
    refine ⟨fun h1 => ?_, hoff⟩
    obtain ⟨hstate, _, ⟨_, _, _, rfl⟩, hy⟩ := hon h1
    exact ⟨hstate.trans hv.modState, by rw [hy, hv.own]⟩
  · intro v y hy hne hQ
    split
    · exact hQ
    · have hb := v.carrierLow_beside j stop hn (List.mem_range.mp hy) (Ne.symm hne)
      rwa [hb.own, hb.modState]

/-! ## The new carrier starts -/

/-- What a channel does where a new carrier starts. -/
def Tx.carrierUp (t : Tx s0) (c : ℕ) : Tx s0 :=
  let t := t.setMod c { t.cur.mod c with recent := [] }
  if (t.cur.mod c).quiet && t.cur.hedgeOn && (t.cur.modState c == 2 || t.cur.modState c == 3) then t.modStart c 0 else t

/-- The carrier f starts with the epoch `at_`. -/
def Tx.carrierSet (t : Tx s0) (f at_ : ℕ) : Tx s0 :=
  let t := (t.burstsTo (2 * at_)).w 0x5A00 0 0x04 f
  (t.setHedge { t.cur.hedge with retune := none, epoch := 2 * at_, burst := 0 }).showMargins

/-- What a retune whose pins went low at the counter a waits for. -/
def Tx.carrierStartAt (t : Tx s0) (a : ℕ) : Tx s0 :=
  if s0.clock < a + msC 1 then t else (t.carrierSet s0.carrier.1 (a + msC 1)).each allMods (fun t c => t.carrierUp c)

theorem execNewCarrier_eq (s : State) : execNewCarrier s = run s fun t =>
    match s.hedge.retune with
    | some (2, a) => t.carrierStartAt a
    | _ => t := by
  unfold execNewCarrier Tx.carrierStartAt Tx.carrierSet Tx.carrierUp
  rfl

theorem Tx.carrierUp_keeps (t : Tx s0) (c : ℕ) : Keeps [.all 0x5800 [0x02]] [.hedge] t.cur (t.carrierUp c).cur := by
  dsimp only [Tx.carrierUp]
  exact .ite (.step (Tx.modStart_keeps ..) (.step (Tx.setMod_keeps ..) (.refl ..))) (.step (Tx.setMod_keeps ..) (.refl ..))

theorem Tx.modStart_mod (t : Tx s0) (c j n : ℕ) : (t.modStart c j).cur.mod n = if n = c then
    { t.cur.mod c with quiet := false, ramp := some ⟨true, t.cur.boundary (j + 1), 0, 0⟩, mmax := t.cur.g 0x5A00 0 0x0D, startJ := j, half := 2 * j,
                       errA := [0, 0, 0], errB := [0, 0, 0], overs := 0, vdc := 0, dcRun := 0 }
    else t.cur.mod n := by
  unfold Tx.modStart
  rw [Tx.modTo_mod, Tx.setMod_mod]

theorem Tx.modStart_carriage (t : Tx s0) (c j : ℕ) : (t.modStart c j).cur.carriage = t.cur.carriage := by
  unfold Tx.modStart State.carriage
  rw [(Tx.modTo_keeps ..).hedge (by simp)]
  rfl

theorem Tx.carrierUp_carriage (t : Tx s0) (c : ℕ) : (t.carrierUp c).cur.carriage = t.cur.carriage := by
  unfold Tx.carrierUp
  dsimp only
  split
  · exact (Tx.modStart_carriage ..).trans rfl
  · rfl

theorem Tx.carrierUp_beside (t : Tx s0) (hm : m < 24) (hc : c < 24) (hne : m ≠ c) : Beside m t.cur (t.carrierUp c).cur := by
  unfold Tx.carrierUp
  dsimp only
  have hu : Beside m t.cur (t.setMod c { t.cur.mod c with recent := [] }).cur := ⟨t.setMod_other _ hne, fun _ => rfl, rfl⟩
  split
  · refine hu.trans ⟨(Tx.modStart_mod ..).trans (if_neg hne), fun e => ?_, ((Tx.modStart_keeps ..).clock (by simp)).2⟩
    exact (Tx.modStart_keepsAt _ c 0 (by omega)).gBeside hne (by omega) (by simp [apart])
  · exact hu

theorem Tx.carrierUp_own (t : Tx s0) (hc : c < 24) : ((t.carrierUp c).cur.mod c).recent = [] ∧
    ((t.cur.mod c).quiet = true → t.cur.hedgeOn = true → t.cur.modLive c = true → (t.carrierUp c).cur.modState c = 2 ∧
      ((t.carrierUp c).cur.mod c).quiet = false ∧ ((t.carrierUp c).cur.mod c).startJ = 0 ∧
      ((t.carrierUp c).cur.mod c).ramp = some ⟨true, t.cur.boundary 1, 0, 0⟩) := by
  unfold Tx.carrierUp
  dsimp only
  have hown : (t.setMod c { t.cur.mod c with recent := [] }).cur.mod c = { t.cur.mod c with recent := [] } := t.setMod_same ..
  have hlive : ((t.setMod c { t.cur.mod c with recent := [] }).cur.modState c == 2 ||
      (t.setMod c { t.cur.mod c with recent := [] }).cur.modState c == 3) = t.cur.modLive c := rfl
  have hon : (t.setMod c { t.cur.mod c with recent := [] }).cur.hedgeOn = t.cur.hedgeOn := rfl
  have hb : (t.setMod c { t.cur.mod c with recent := [] }).cur.boundary (0 + 1) = t.cur.boundary 1 := rfl
  rw [hlive, hon]
  generalize t.setMod c { t.cur.mod c with recent := [] } = u at hown hb
  rw [hown]
  refine ⟨?_, fun hq hh hl => ?_⟩
  · split
    · rw [Tx.modStart_mod, if_pos rfl, hown]
    · rw [hown]
  · rw [if_pos (by simp [hq, hh, hl]), Tx.modStart_mod, if_pos rfl, hb]
    refine ⟨?_, rfl, rfl, rfl⟩
    unfold Tx.modStart
    exact Tx.modTo_state _ hc (by decide)

theorem Tx.setBurst_mod (t : Tx s0) (stop : ℕ) (o : Out) (n : ℕ) :
    ((t.setHedge { t.cur.hedge with burst := stop }).emit o).cur.mod n = t.cur.mod n := rfl

theorem Tx.burstsTo_mod (t : Tx s0) (h n : ℕ) : (t.burstsTo h).cur.mod n = t.cur.mod n := by
  unfold Tx.burstsTo
  dsimp only
  split
  · rfl
  · exact Tx.setBurst_mod ..

/-- A carrier that starts leaves the channels, and holds its epoch. -/
theorem Tx.carrierSet_leaves (t : Tx s0) (f at_ : ℕ) : (∀ n, (t.carrierSet f at_).cur.mod n = t.cur.mod n) ∧
    (t.carrierSet f at_).cur.hedge.retune = none ∧ (t.carrierSet f at_).cur.hedge.epoch = 2 * at_ ∧
    (t.carrierSet f at_).cur.g 0x5A00 0 0x04 = f % 2 ^ 32 ∧
    Keeps [.all 0x5A00 [0x04], .all 0x5900 [0x05]] [.outs, .hedge] t.cur (t.carrierSet f at_).cur := by
  have hmod := t.burstsTo_mod (2 * at_)
  have hkeep := t.burstsTo_keeps (2 * at_)
  unfold Tx.carrierSet
  generalize t.burstsTo (2 * at_) = u at hmod hkeep
  dsimp only
  have hf : (u.w 0x5A00 0 0x04 f).cur.g 0x5A00 0 0x04 = f % 2 ^ 32 := (Tx.w_get_same _ _ (entryAt_ent (by decide : 0 < 1) rfl)).trans rfl
  have hw : (u.w 0x5A00 0 0x04 f).cur.hedge = u.cur.hedge := (Tx.w_shown _).hedge (by simp)
  have hk : Keeps [.all 0x5A00 [0x04], .all 0x5900 [0x05]] [.outs, .hedge] t.cur (u.w 0x5A00 0 0x04 f).cur :=
    .w (.step hkeep (.refl ..))
  generalize u.w 0x5A00 0 0x04 f = v at hf hw hk
  have hs := (v.setHedge { v.cur.hedge with retune := none, epoch := 2 * at_, burst := 0 }).showMargins_keeps
  have hh := hs.hedge (by simp)
  rw [Tx.setHedge_hedge] at hh
  refine ⟨fun n => ?_, congrArg Hedge.retune hh, congrArg Hedge.epoch hh, ?_, .step hs (.setHedge hk)⟩
  · rw [← hmod, ← State.mod_congr hw]
    exact (congrArg (fun x : Hedge => mget HedgeCh.init x.chans n) hh :)
  · exact (hs.gOf rfl).trans ((Tx.setHedge_get ..).trans hf)

theorem State.boundary_congr (he : b.hedge.epoch = a.hedge.epoch) (hf : b.g 0x5A00 0 0x04 = a.g 0x5A00 0 0x04) (j : ℕ) :
    b.boundary j = a.boundary j := by
  unfold State.boundary
  rw [he, hf]

theorem newCarrier_starts (hc : s.clocked = true) {a : ℕ} (hr : s.hedge.retune = some (2, a)) (hdue : a + msC 1 ≤ s.clock) :
    ∃ t, exec .newCarrier s = .next t ∧ t.hedge.retune = none ∧ t.hedge.epoch = 2 * (a + msC 1) ∧
      t.g 0x5A00 0 0x04 = s.carrier.1 % 2 ^ 32 ∧
      ∀ n < 24, (t.mod n).recent = [] ∧
        ((s.mod n).quiet = true → s.hedgeOn = true → s.modLive n = true → t.modState n = 2 ∧
          (t.mod n).quiet = false ∧ (t.mod n).startJ = 0 ∧ (t.mod n).ramp = some ⟨true, t.boundary 1, 0, 0⟩) := by
  change ∃ t, execNewCarrier s = .next t ∧ _
  rw [execNewCarrier_eq]
  have hgo : (Tx.start s).carrierStartAt a = ((Tx.start s).carrierSet s.carrier.1 (a + msC 1)).each allMods (fun t c => t.carrierUp c) :=
    if_neg (Nat.not_lt.mpr hdue)
  obtain ⟨hmod, hret, hep, hf, hkeep⟩ := (Tx.start s).carrierSet_leaves s.carrier.1 (a + msC 1)
  generalize hv : (Tx.start s).carrierSet s.carrier.1 (a + msC 1) = v at hgo hmod hret hep hf hkeep
  obtain ⟨u, hu⟩ : ∃ u, u = v.each allMods (fun t c => t.carrierUp c) := ⟨_, rfl⟩
  have hcar : u.cur.carriage = v.cur.carriage := by
    rw [hu]
    exact Tx.each_inv (P := fun z => z.carriage = v.cur.carriage) _ rfl fun z c hz => (z.carrierUp_carriage c).trans hz
  have hkv : Keeps [.all 0x5800 [0x02]] [.hedge] v.cur u.cur := by
    rw [hu]
    exact .each (fun z c => z.carrierUp_keeps c) (.refl ..)
  refine run_to hc u ?_ fun t ht => ?_
  · rw [hr, hu]
    split
    next b hb =>
      obtain rfl : a = b := by simpa using hb
      exact hgo
    next hb => exact absurd rfl (hb a)
  have hh : t.hedge = u.cur.hedge := ht.hedge (by simp)
  have hepoch : t.hedge.epoch = v.cur.hedge.epoch := by
    rw [hh]
    exact (congrArg Hedge.epoch hcar :)
  have hg4 : t.g 0x5A00 0 0x04 = v.cur.g 0x5A00 0 0x04 := (ht.seenG).trans (hkv.gOf rfl)
  refine ⟨?_, hepoch.trans hep, hg4.trans hf, fun n hn => ?_⟩
  · rw [hh, ← hret]
    exact (congrArg Hedge.retune hcar :)
  rw [State.boundary_congr hepoch hg4, State.mod_congr hh, show t.modState n = u.cur.modState n from ht.seenG (by simp [apart]), hu]
  have hon : v.cur.hedgeOn = s.hedgeOn := by
    unfold State.hedgeOn
    rw [hkeep.onOf rfl, hkeep.power (by simp)]
    rfl
  have hlive : v.cur.modLive n = s.modLive n := by
    unfold State.modLive State.modState
    rw [hkeep.gOf rfl]
    rfl
  have hmn : v.cur.mod n = s.mod n := hmod n
  rw [← hon, ← hlive, ← hmn]
  refine Tx.each_once (P := fun z => Beside n v.cur z ∧ z.carriage = v.cur.carriage ∧ Keeps [.all 0x5800 [0x02]] [.hedge] v.cur z)
    (Q := fun z => (z.mod n).recent = [] ∧ ((v.cur.mod n).quiet = true → v.cur.hedgeOn = true → v.cur.modLive n = true → z.modState n = 2 ∧
      (z.mod n).quiet = false ∧ (z.mod n).startJ = 0 ∧ (z.mod n).ramp = some ⟨true, v.cur.boundary 1, 0, 0⟩))
    (m := n) allMods List.nodup_range (List.mem_range.mpr hn) ⟨.refl .., rfl, .refl ..⟩ ?_ ?_ ?_
  · intro z y hy hne ⟨hz, hzc, hzk⟩
    exact ⟨hz.trans (z.carrierUp_beside hn (List.mem_range.mp hy) (Ne.symm hne)), (z.carrierUp_carriage y).trans hzc, .step (z.carrierUp_keeps y) hzk⟩
  · intro z ⟨hz, hzc, hzk⟩
    have hup := z.carrierUp_own hn
    have hzon : z.cur.hedgeOn = v.cur.hedgeOn := by
      unfold State.hedgeOn
      rw [hzk.onOf rfl, hzk.power (by simp)]
    rwa [hz.own, hzon, hz.modLive, State.boundary_congr (congrArg Hedge.epoch hzc :) (hzk.gOf rfl)] at hup
  · intro z y hy hne hQ
    have hb := z.carrierUp_beside hn (List.mem_range.mp hy) (Ne.symm hne)
    rwa [hb.own, hb.modState]

/-! ## Render blocks -/

theorem Tx.ite_cur {P : State → Prop} {p : Prop} [Decidable p] {t u : Tx s0} (ht : P t.cur) (hu : P u.cur) : P (if p then t else u).cur := by
  split
  · exact ht
  · exact hu

/-- A channel after a render block: the settings taken over, and sums begun anew. -/
structure HedgeCh.Fresh (x : HedgeCh) (cfg : List ℕ) : Prop where
  cfg : x.cfg = cfg
  frames : x.frames = 0
  sumV : x.sumV = 0

theorem Tx.trip_fresh (t : Tx s0) (cause : ℕ) {cfg : List ℕ} (h : (t.cur.mod c).Fresh cfg) : ((t.trip c cause).cur.mod c).Fresh cfg := by
  obtain ⟨_, ⟨_, _, _, rfl⟩, hy | ⟨_, hy⟩⟩ := t.trip_own c cause
  · rw [hy]
    exact ⟨h.cfg, h.frames, h.sumV⟩
  · rw [hy]
    exact ⟨h.cfg, h.frames, h.sumV⟩

/-- The settings of channel n as the dictionary holds them. -/
def State.modSettings (s : State) (n : ℕ) : List ℕ := (List.range 14).map (fun i => s.g 0x5800 n (3 + i))

theorem State.modSettings_congr (h : ∀ e, 3 ≤ e → e ≤ 0x10 → b.g 0x5800 n e = a.g 0x5800 n e) : b.modSettings n = a.modSettings n :=
  List.map_congr_left fun i hi => h _ (by omega) (by have := List.mem_range.mp hi; omega)

theorem Tx.hedgeChannel_leaves (t : Tx s0) (c : ℕ) : ((t.hedgeChannel c).cur.mod c).Fresh (t.cur.modSettings c) ∧
    (t.hedgeChannel c).cur.hedge.block = t.cur.hedge.block ∧ ∀ m, m ≠ c → m < 24 → c < 24 → (t.hedgeChannel c).cur.mod m = t.cur.mod m := by
  have hrun := t.modNow_modulates c
  have hset : (t.modNow c).cur.modSettings c = t.cur.modSettings c := State.modSettings_congr fun e _ _ => hrun.rest.gOf (by simp [apart])
  unfold Tx.hedgeChannel
  generalize t.modNow c = u at hrun hset
  dsimp only
  generalize hv : u.setMod c _ = v
  have hown : (v.cur.mod c).Fresh (t.cur.modSettings c) := by
    rw [← hv, Tx.setMod_same, ← hset]
    exact ⟨rfl, rfl, rfl⟩
  have hother : ∀ m, m ≠ c → v.cur.mod m = t.cur.mod m := fun m hm => by
    rw [← hv, u.setMod_other _ hm, hrun.others m hm]
  have hblock : v.cur.hedge.block = t.cur.hedge.block := by
    rw [← hv]
    exact (congrArg Hedge.block hrun.hedge :)
  generalize hw : Tx.when _ _ (fun t : Tx s0 => t.flagBit 0x5800 c 0x1C 4) = w
  have hkeep : Keeps [.all 0x5800 [0x13, 0x16, 0x17, 0x19, 0x1A, 0x1C]] [] v.cur w.cur := by
    rw [← hw]
    exact .when (fun _ => .flagBit (.refl ..)) (.when (fun _ => .flagBit (.refl ..)) (.w (.w (.w (.w (.w (.refl ..)))))))
  have hmod : ∀ m, w.cur.mod m = v.cur.mod m := State.mod_congr (hkeep.hedge (by simp))
  have hwv : w.cur.hedge = v.cur.hedge := hkeep.hedge (by simp)
  rw [← hmod c] at hown
  rw [← hwv] at hblock
  refine ⟨?_, ?_, fun m hm hm24 hc24 => ?_⟩
  · exact Tx.ite_cur (P := fun z => (z.mod c).Fresh _) (w.trip_fresh 5 hown) hown
  · rw [← hblock]
    exact Tx.ite_cur (P := fun z => z.hedge.block = w.cur.hedge.block) (w.trip_block c 5) rfl
  · rw [← hother m hm, ← hmod m]
    exact Tx.ite_cur (P := fun z => z.mod m = w.cur.mod m) (w.trip_beside c 5 hm (by omega) (by omega)).own rfl

theorem hedgeBlock_takes (hc : s.clocked = true) (hdue : s.hedge.block < s.now / 16) :
    ∃ t, exec .hedgeBlock s = .next t ∧ t.hedge.block = s.now / 16 ∧
      ∀ n < 24, (t.mod n).cfg = (List.range 14).map (fun i => s.g 0x5800 n (3 + i)) ∧ (t.mod n).frames = 0 ∧ (t.mod n).sumV = 0 := by
  change ∃ t, execHedgeBlock s = .next t ∧ _
  unfold execHedgeBlock
  obtain ⟨v, hv⟩ : ∃ v, v = (Tx.start s).setHedge { s.hedge with block := s.now / 16 } := ⟨_, rfl⟩
  refine run_to hc (v.each allMods (fun t c => t.hedgeChannel c)) (by rw [hv]; exact if_neg (Nat.not_le.mpr hdue)) fun t ht => ?_
  have hblock : v.cur.hedge.block = s.now / 16 := by
    rw [hv]
    rfl
  have hcfg : ∀ n, v.cur.modSettings n = s.modSettings n := fun n => by
    rw [hv]
    rfl
  have hh : t.hedge = (v.each allMods (fun t c => t.hedgeChannel c)).cur.hedge := ht.hedge (by simp)
  refine ⟨?_, fun n hn => ?_⟩
  · rw [hh, ← hblock]
    exact Tx.each_inv (P := fun u => u.hedge.block = v.cur.hedge.block) _ rfl fun u c hu => (u.hedgeChannel_leaves c).2.1.trans hu
  · have hfresh : (t.mod n).Fresh (s.modSettings n) := by
      rw [State.mod_congr hh, ← hcfg n]
      refine Tx.each_once (P := fun u => u.modSettings n = v.cur.modSettings n) (Q := fun u => (u.mod n).Fresh (v.cur.modSettings n))
        (m := n) allMods List.nodup_range (List.mem_range.mpr hn) rfl ?_ ?_ ?_
      · intro u y _ _ hu
        refine (State.modSettings_congr fun e h3 h16 => ?_).trans hu
        exact (u.hedgeChannel_keeps y).gOf (by simp [apart, Span.all, Span.ctr]; omega)
      · intro u hu
        rw [← hu]
        exact (u.hedgeChannel_leaves n).1
      · intro u y hy hne hu
        rwa [(u.hedgeChannel_leaves y).2.2 n (Ne.symm hne) hn (List.mem_range.mp hy)]
    exact ⟨hfresh.cfg, hfresh.frames, hfresh.sumV⟩

/-! ## Impedance windows -/

theorem impedanceWindow_ends (hc : s.clocked = true) (hn : n < 24) (hdue : (s.mod n).zAt + s.fA ≤ s.now)
    (hb : s.fA / 160 ≤ (s.mod n).zBlocks) (hi : (s.mod n).zI2 ≠ 0) :
    let x := s.mod n
    ∃ t, exec (.impedanceWindow n) s = .next t ∧
      t.mod n = { x with zV2 := 0, zI2 := 0, zBlocks := 0, zAt := s.now } ∧
      t.g 0x5800 n 0x18 = X.toF (2 * X.sqrt (X.div (x.zV2 * X.one) (x.zI2 * X.one))) % 2 ^ 32 := by
  intro x
  change ∃ t, execImpedanceWindow n s = .next t ∧ _
  unfold execImpedanceWindow
  obtain ⟨u, hu⟩ : ∃ u, u = (Tx.start s).setMod n { x with zV2 := 0, zI2 := 0, zBlocks := 0, zAt := s.now } := ⟨_, rfl⟩
  have hown : u.cur.mod n = { x with zV2 := 0, zI2 := 0, zBlocks := 0, zAt := s.now } := by rw [hu, Tx.setMod_same]
  have hz : ∀ z, (u.w 0x5800 n 0x18 z).cur.g 0x5800 n 0x18 = z % 2 ^ 32 := fun z => (Tx.w_get_same _ _ (entryAt_ent hn rfl)).trans rfl
  have hw : ∀ z, (u.w 0x5800 n 0x18 z).cur.hedge = u.cur.hedge := fun z => (Tx.w_shown _).hedge (by simp)
  refine run_to hc _ ((if_neg (Nat.not_lt.mpr hdue)).trans (if_neg (by simpa using ⟨hb, hi⟩))) fun t ht => ?_
  dsimp only at ht
  rw [← hu] at ht
  generalize X.toF (2 * X.sqrt (X.div (x.zV2 * X.one) (x.zI2 * X.one))) = z at ht
  have hflags : ∀ p q, Keeps [.all 0x5800 [0x1C]] [] (u.w 0x5800 n 0x18 z).cur
        (((u.w 0x5800 n 0x18 z).when p (fun t => t.flagBit 0x5800 n 0x1C 2)).when q (fun t => t.flagBit 0x5800 n 0x1C 3)).cur := fun p q =>
      .when (fun _ => .flagBit (.refl ..)) (.when (fun _ => .flagBit (.refl ..)) (.refl ..))
  refine ⟨?_, (ht.seenG (by simp [apart])).trans (((hflags ..).gOf rfl).trans (hz z))⟩
  rw [State.mod_congr (ht.hedge (by simp)), State.mod_congr ((hflags ..).hedge (by simp)), State.mod_congr (hw z), hown]

/-- Settles O35, clause by clause. -/
theorem hedgeMeasuresComplete : Obligations.HedgeMeasuresComplete := by
  unfold Obligations.HedgeMeasuresComplete
  exact ⟨fun s a hc => ⟨fun hr => oldCarrierStop_stops hc hr, fun hr hdue => newCarrier_starts hc hr hdue⟩,
    fun s hc => ⟨fun hdue => hedgeBlock_takes hc hdue, fun n hn hdue hb hi => impedanceWindow_ends hc hn hdue hb hi⟩⟩

end Sys2Proof.Machine
end

section
/-! PROOFS. Chains: description, enable, disable, release and parameters (R336, R339 to R341). -/

namespace Sys2Proof.Machine
open Sys2Proof

set_option Elab.async false

variable {s0 s a b : State} {n m c h : ℕ} {d : Bytes}

/-! ## The state of a chain beside its entries -/

theorem State.chainSt_congr (h : b.pool = a.pool) (n : ℕ) : b.chainSt n = a.chainSt n :=
  congrArg (fun x : Pool => mget Chain.init x.chains n) h

theorem Tx.setChainSt_same (t : Tx s0) (c : ℕ) (x : Chain) : (t.setChainSt c x).cur.chainSt c = x := (mget_mputD ..).trans (if_pos rfl)

theorem Tx.setChainSt_other (t : Tx s0) (x : Chain) (h : n ≠ c) : (t.setChainSt c x).cur.chainSt n = t.cur.chainSt n :=
  (mget_mputD ..).trans (if_neg h)

theorem Tx.setChainSt_g (t : Tx s0) (c : ℕ) (x : Chain) (i m e : ℕ) : (t.setChainSt c x).cur.g i m e = t.cur.g i m e := rfl

/-! ## A message begins: what a rule reads is what the state held -/

theorem State.begun_desc (s : State) (st n : ℕ) : ((Tx.start s).status st).cur.desc n = s.desc n := rfl

theorem State.begun_packKern (s : State) (st : ℕ) : ((Tx.start s).status st).cur.packKern = s.packKern := by
  funext k
  unfold State.packKern State.pack
  simp only [begun_g]
  rfl

theorem State.begun_kernKnown (s : State) (st k : ℕ) : ((Tx.start s).status st).cur.kernKnown k = s.kernKnown k := by
  unfold State.kernKnown
  rw [State.begun_packKern]

theorem State.begun_kernForm (s : State) (st : ℕ) : ((Tx.start s).status st).cur.kernForm = s.kernForm := by
  funext k ni no par
  unfold State.kernForm
  rw [State.begun_packKern]

theorem State.begun_kernPar (s : State) (st : ℕ) : ((Tx.start s).status st).cur.kernPar = s.kernPar := by
  funext k ni m par
  unfold State.kernPar
  rw [State.begun_packKern]

theorem State.begun_ownsSignal (s : State) (st h : ℕ) : ((Tx.start s).status st).cur.ownsSignal h = s.ownsSignal h := rfl

theorem State.begun_descCheck (s : State) (st h : ℕ) (d : Bytes) (x : Desc) : ((Tx.start s).status st).cur.descCheck h d x = s.descCheck h d x := by
  unfold State.descCheck
  rw [State.begun_ownsSignal, funext (State.begun_kernKnown s st), State.begun_kernForm, State.begun_kernPar]

theorem State.begun_coreOf (s : State) (st c : ℕ) : ((Tx.start s).status st).cur.coreOf c = s.coreOf c := begun_g ..

theorem State.begun_placed (s : State) (st : ℕ) : ((Tx.start s).status st).cur.placed = s.placed := rfl

theorem State.begun_onCore (s : State) (st i : ℕ) : ((Tx.start s).status st).cur.onCore i = s.onCore i := by
  unfold State.onCore State.runsOn
  simp only [State.begun_placed, State.begun_coreOf, State.begun_desc]

theorem State.begun_costOf (s : State) (st : ℕ) (x : Desc) : ((Tx.start s).status st).cur.costOf x = s.costOf x := rfl

theorem State.begun_xBytes (s : State) (st : ℕ) : ((Tx.start s).status st).cur.xBytes = s.xBytes := rfl

theorem State.begun_yBytes (s : State) (st k : ℕ) (x : Desc) : ((Tx.start s).status st).cur.yBytes k x = s.yBytes k x := rfl

theorem State.begun_interns (s : State) (st c : ℕ) : ((Tx.start s).status st).cur.interns c = s.interns c := rfl

theorem State.begun_codeBytes (s : State) (st : ℕ) (l : List Desc) : ((Tx.start s).status st).cur.codeBytes l = s.codeBytes l := rfl

theorem State.begun_chainShare (s : State) (st b : ℕ) : ((Tx.start s).status st).cur.chainShare b = s.chainShare b := rfl

theorem State.begun_coreMemory (s : State) (st j : ℕ) (l : List ℕ) : ((Tx.start s).status st).cur.coreMemory j l = s.coreMemory j l := by
  unfold State.coreMemory
  simp only [State.begun_coreOf, State.begun_codeBytes, State.begun_xBytes, State.begun_yBytes, State.begun_interns,
    State.begun_desc, funext (State.begun_desc s st)]

/-- Where a chain fits rests on the entries, the strings and the packs alone. -/
theorem State.begun_misfit (s : State) (st n i : ℕ) : ((Tx.start s).status st).cur.misfit n i = s.misfit n i := by
  unfold State.misfit
  simp only [State.begun_coreOf, State.begun_codeBytes, State.begun_xBytes, State.begun_yBytes, State.begun_interns, State.begun_onCore,
    State.begun_desc, State.begun_costOf, State.begun_coreMemory, State.begun_chainShare, State.begun_placed, funext (State.begun_desc s st)]
  rfl

theorem State.begun_findCore (s : State) (st n : ℕ) : ((Tx.start s).status st).cur.findCore n = s.findCore n := by
  unfold State.findCore
  simp only [State.begun_desc, State.begun_misfit]
  rfl

theorem State.begun_chainState (s : State) (st n : ℕ) : ((Tx.start s).status st).cur.chainState n = s.chainState n := begun_g ..

theorem State.begun_chainSt (s : State) (st n : ℕ) : ((Tx.start s).status st).cur.chainSt n = s.chainSt n := rfl

theorem State.begun_result (s : State) (st : ℕ) : ((Tx.start s).status st).cur.result = ⟨some st, []⟩ := rfl

/-! ## Descriptions -/

theorem descriptionWrite_stores (hc : s.clocked = true) (hn : n < 256) {x : Desc} (hk : s.writeCheck h (opOf 0x5E10 n 0x02 d) = stOK)
    (hst : s.chainState n < 2) (hlen : d.length ≤ 65536) (hx : readDesc d = some x) (hok : s.descCheck h d x = none) :
    ∃ t, exec (.descriptionWrite h n d) s = .next t ∧ t.result = ⟨some stOK, []⟩ ∧ t.gb 0x5E10 n 0x02 = d ∧
      t.chainState n = 1 ∧ t.chainSt n = Chain.init := by
  change ∃ t, execDescriptionWrite h n d s = .next t ∧ _
  unfold execDescriptionWrite
  refine run_to hc _ (guarded_start hk _) fun t ht => ?_
  unfold descRule at ht
  rw [State.begun_chainState, if_neg (by omega), if_neg (by omega), hx] at ht
  dsimp only at ht
  rw [State.begun_descCheck, hok] at ht
  dsimp only at ht
  have hres := State.begun_result s stOK
  generalize (Tx.start s).status stOK = u at ht hres
  have hblob : ((u.wb 0x5E10 n 0x02 d).w 0x5E10 n 0x05 1).cur.gb 0x5E10 n 0x02 = d := Tx.wb_blob_same ..
  have hone : ((u.wb 0x5E10 n 0x02 d).w 0x5E10 n 0x05 1).cur.chainState n = 1 := Tx.w_g_of _ (entryAt_ent hn rfl) rfl
  have hr : ((u.wb 0x5E10 n 0x02 d).w 0x5E10 n 0x05 1).cur.result = u.cur.result :=
    ((Tx.w_shown _).result (by simp)).trans ((Tx.wb_shown _ _).result (by simp))
  generalize (u.wb 0x5E10 n 0x02 d).w 0x5E10 n 0x05 1 = v at ht hblob hone hr
  have hkeep : Keeps [.all 0x5E10 [0x08, 0x09, 0x0A, 0x0B, 0x11, 0x12]] [.pool] v.cur
      ((((v.w 0x5E10 n 0x11 0).w 0x5E10 n 0x12 0xFFFF).setChainSt n Chain.init).showChain n).cur :=
    .step (Tx.showChain_keeps ..) (.step (Tx.setChainSt_keeps ..) (.w (.w (.refl ..))))
  refine ⟨?_, ?_, ?_, ?_⟩
  · rw [ht.result (by simp), hkeep.result (by simp), hr, hres]
  · rw [ht.seenGb, hkeep.gbOf rfl, hblob]
  · exact (ht.seenG (by simp [apart])).trans ((hkeep.gOf rfl).trans hone)
  · rw [State.chainSt_congr (ht.pool (by simp)), State.chainSt_congr ((Tx.showChain_keeps ..).pool (by simp)), Tx.setChainSt_same]

theorem descriptionWrite_refused (hc : s.clocked = true) (hn : n < 256) {x : Desc} {reason item : ℕ}
    (hk : s.writeCheck h (opOf 0x5E10 n 0x02 d) = stOK)
    (hst : s.chainState n < 2) (hlen : d.length ≤ 65536) (hx : readDesc d = some x) (hbad : s.descCheck h d x = some (stOutOfRange, reason, item)) :
    ∃ t, exec (.descriptionWrite h n d) s = .next t ∧ t.result = ⟨some stOutOfRange, []⟩ ∧
      t.g 0x5E10 n 0x11 = reason % 2 ^ 8 ∧ t.gb 0x5E10 n 0x02 = s.gb 0x5E10 n 0x02 ∧
      t.chainState n = s.chainState n := by
  change ∃ t, execDescriptionWrite h n d s = .next t ∧ _
  unfold execDescriptionWrite
  refine run_to hc _ (guarded_start hk _) fun t ht => ?_
  unfold descRule at ht
  rw [State.begun_chainState, if_neg (by omega), if_neg (by omega), hx] at ht
  dsimp only at ht
  rw [State.begun_descCheck, hbad] at ht
  dsimp only at ht
  rw [if_pos (beq_self_eq_true _)] at ht
  have hg := begun_g (s := s) stOK 0x5E10 n 0x05
  have hb : ((Tx.start s).status stOK).cur.gb 0x5E10 n 0x02 = s.gb 0x5E10 n 0x02 := rfl
  generalize (Tx.start s).status stOK = u at ht hg hb
  have hkeep := u.chainRefuse_keeps n reason item
  have hreason : (u.chainRefuse n reason item).cur.g 0x5E10 n 0x11 = reason % 2 ^ 8 := by
    unfold Tx.chainRefuse
    have hw : (u.w 0x5E10 n 0x11 reason).cur.g 0x5E10 n 0x11 = reason % 2 ^ 8 := (Tx.w_get_same _ _ (entryAt_ent hn rfl)).trans rfl
    refine Eq.trans ?_ hw
    exact (Tx.flagBit_skip _ (.inr (by decide))).trans (Tx.w_skip _ (.inr (by decide)))
  have hresult : (u.chainRefuse n reason item).cur.result = ⟨some stOutOfRange, []⟩ := rfl
  refine ⟨(ht.result (by simp)).trans hresult, (ht.seenG (by simp [apart])).trans hreason, ?_, ?_⟩
  · rw [ht.seenGb, hkeep.gbOf rfl, hb]
  · exact (ht.seenG (by simp [apart])).trans ((hkeep.gOf rfl).trans hg)

/-! ## Enable and disable -/

/-- What a placement reports beside the chain's core, slot and state. -/
theorem Tx.place_leaves (t : Tx s0) (i : ℕ) (hn : n < 256) :
    (t.place n i).cur.chainState n = 2 ∧ (t.place n i).cur.g 0x5E10 n 0x06 = i % 2 ^ 8 := by
  unfold Tx.place
  dsimp only
  generalize ((List.range 240).find? _).getD 0 = slot
  have h6 : ((t.w 0x5E10 n 0x06 i).w 0x5E10 n 0x07 slot).cur.g 0x5E10 n 0x06 = i % 2 ^ 8 :=
    (Tx.w_skip _ (.inr (by decide))).trans ((Tx.w_get_same _ _ (entryAt_ent hn rfl)).trans rfl)
  generalize (t.w 0x5E10 n 0x06 i).w 0x5E10 n 0x07 slot = u at h6
  have h5 : (u.w 0x5E10 n 0x05 2).cur.chainState n = 2 := Tx.w_g_of _ (entryAt_ent hn rfl) rfl
  rw [← Tx.w_skip u (i := 0x5E10) (n := n) (c := 0x05) (v := 2) (.inr (by decide))] at h6
  generalize u.w 0x5E10 n 0x05 2 = v at h5 h6
  generalize hz : Tx.showCores _ = z
  have hkeep : Keeps [.all 0x5E00 [0x01], .all 0x5E01 [0x01, 0x02, 0x03, 0x04, 0x05, 0x07, 0x08, 0x09], .all 0x5E10 [0x08, 0x09, 0x0A, 0x0B],
      .all 0x5F00 [0x04], .all 0x5F10 [0x01, 0x02, 0x03, 0x04, 0x05], ⟨0x6510, 0x65C7, none, [0x01, 0x02]⟩] [.pool] v.cur z.cur := by
    rw [← hz]
    exact .step (Tx.showCores_keeps ..) (.step (Tx.showChain_keeps ..) (.step (Tx.setChainSt_keeps ..) (.wb (.w (.w (.w (.w (.refl ..))))))))
  exact ⟨(hkeep.gOf rfl).trans h5, (hkeep.gOf rfl).trans h6⟩

theorem chainEnable_places (hc : s.clocked = true) (hn : n < 256) {i : ℕ} (hk : s.writeCheck h (opOf 0x5E10 n 0x01 d) = stOK)
    (hd : leNat d = 1) (hst : s.chainState n = 1) (hkern : ∀ k ∈ (s.desc n).kerns, s.kernKnown k.id = true) (hcore : s.findCore n = (i, 0)) :
    ∃ t, exec (.chainEnable h n d) s = .next t ∧ t.g 0x5E10 n 0x01 = 1 ∧ t.chainState n = 2 ∧
      t.g 0x5E10 n 0x06 = i % 2 ^ 8 := by
  change ∃ t, execChainEnable h n d s = .next t ∧ _
  unfold execChainEnable
  refine run_to hc _ (guarded_start hk _) fun t ht => ?_
  unfold chainRule at ht
  dsimp only at ht
  rw [State.begun_chainState, hst, hd, if_pos (by decide), if_neg (by decide), if_pos (by decide)] at ht
  have hnone : findIdxFrom (fun k : Kern => !((Tx.start s).status stOK).cur.kernKnown k.id) (((Tx.start s).status stOK).cur.desc n).kerns 0 = none := by
    refine findIdxFrom_none _ fun k hk => ?_
    rw [State.begun_kernKnown, hkern k hk]
    rfl
  unfold Tx.chainStart at ht
  dsimp only at ht
  rw [hnone] at ht
  dsimp only at ht
  rw [State.begun_findCore, hcore, if_neg (show ¬ ((i, 0).2 != 0) = true from Bool.false_ne_true)] at ht
  generalize (Tx.start s).status stOK = u at ht
  have h1 : ((u.w 0x5E10 n 0x01 1).setChainSt n Chain.init).cur.g 0x5E10 n 0x01 = 1 :=
    (Tx.setChainSt_g ..).trans (Tx.w_g_of _ (entryAt_ent hn rfl) rfl)
  generalize (u.w 0x5E10 n 0x01 1).setChainSt n Chain.init = v at ht h1
  obtain ⟨h5, h6⟩ := v.place_leaves i hn
  exact ⟨(ht.seenG (by simp [apart])).trans (((v.place_keeps n i).gOf rfl).trans h1), (ht.seenG (by simp [apart])).trans h5,
    (ht.seenG (by simp [apart])).trans h6⟩

theorem chainDisable_closes (hc : s.clocked = true) (hn : n < 256) (hk : s.writeCheck h (opOf 0x5E10 n 0x01 d) = stOK)
    (hd : leNat d = 0) (h2 : 2 ≤ s.chainState n) (h4 : s.chainState n ≤ 4) (hcl : (s.chainSt n).closing = false) :
    ∃ t, exec (.chainDisable h n d) s = .next t ∧ t.g 0x5E10 n 0x01 = 0 ∧ t.chainState n = s.chainState n ∧
      t.chainSt n = { s.chainSt n with closing := true, wait := none, ramp := some (false, 0, (s.chainSt n).out) } := by
  change ∃ t, execChainDisable h n d s = .next t ∧ _
  unfold execChainDisable
  refine run_to hc _ (guarded_start hk _) fun t ht => ?_
  unfold chainRule at ht
  dsimp only at ht
  have h5 : ¬ (s.chainState n == 5) = true := by
    rw [beq_iff_eq]
    omega
  have hgo : ¬ (decide (s.chainState n < 2) || (s.chainSt n).closing) = true := by
    rw [hcl, Bool.or_false, decide_eq_true_eq]
    omega
  rw [State.begun_chainState, State.begun_chainSt, hd, if_neg (by decide), if_neg h5, if_neg hgo] at ht
  have hst := State.begun_chainState s stOK n
  generalize (Tx.start s).status stOK = u at ht hst
  refine ⟨(ht.seenG (by simp [apart])).trans ((Tx.setChainSt_g ..).trans (Tx.w_g_of _ (entryAt_ent hn rfl) rfl)), ?_, ?_⟩
  · exact (ht.seenG (by simp [apart])).trans ((Tx.setChainSt_g ..).trans ((Tx.w_skip _ (.inr (by decide))).trans hst))
  · rw [State.chainSt_congr (ht.pool (by simp)), Tx.setChainSt_same]

/-! ## A chain gives its core back -/

theorem Tx.unplace_leaves (t : Tx s0) (hn : n < 256) : (t.unplace n 1).cur.chainState n = 1 ∧ (t.unplace n 1).cur.g 0x5E10 n 0x06 = 0xFF ∧
    (t.unplace n 1).cur.g 0x5E10 n 0x07 = 0xFFFF ∧ (t.unplace n 1).cur.chainSt n = Chain.init := by
  unfold Tx.unplace
  dsimp only
  rw [if_neg (by decide)]
  generalize t.slotFree (t.g 0x5E10 n 0x07) = u
  have h6 : (u.w 0x5E10 n 0x06 0xFF).cur.g 0x5E10 n 0x06 = 0xFF := Tx.w_g_of _ (entryAt_ent hn rfl) rfl
  generalize u.w 0x5E10 n 0x06 0xFF = v at h6
  have h7 : (v.w 0x5E10 n 0x07 0xFFFF).cur.g 0x5E10 n 0x07 = 0xFFFF := Tx.w_g_of _ (entryAt_ent hn rfl) rfl
  rw [← Tx.w_skip v (i := 0x5E10) (n := n) (c := 0x07) (v := 0xFFFF) (.inr (by decide))] at h6
  generalize v.w 0x5E10 n 0x07 0xFFFF = w at h6 h7
  have h5 : (w.w 0x5E10 n 0x05 1).cur.g 0x5E10 n 0x05 = 1 := Tx.w_g_of _ (entryAt_ent hn rfl) rfl
  rw [← Tx.w_skip w (i := 0x5E10) (n := n) (c := 0x05) (v := 1) (.inr (by decide))] at h6 h7
  generalize w.w 0x5E10 n 0x05 1 = x at h5 h6 h7
  have hkeep := (x.setChainSt n Chain.init).showCores_keeps
  have hown := x.setChainSt_same n Chain.init
  refine ⟨(hkeep.gOf rfl).trans ((Tx.setChainSt_g ..).trans h5), (hkeep.gOf rfl).trans ((Tx.setChainSt_g ..).trans h6),
    (hkeep.gOf rfl).trans ((Tx.setChainSt_g ..).trans h7), ?_⟩
  rw [State.chainSt_congr (hkeep.pool (by simp)), hown]

/-- What is not HELD is not concerned where those that are HELD are tried. -/
structure NotTried (n : ℕ) (a b : State) : Prop where
  own : b.chainSt n = a.chainSt n
  entries : ∀ e, b.g 0x5E10 n e = a.g 0x5E10 n e

theorem Tx.place_other (t : Tx s0) (i : ℕ) (hm : m < 256) (hc : c < 256) (h : m ≠ c) : NotTried m t.cur (t.place c i).cur := by
  have hc' : c < 65536 := by omega
  have hown : (t.place c i).cur.chainSt m = t.cur.chainSt m := by
    unfold Tx.place
    dsimp only
    rw [State.chainSt_congr ((Tx.showCores_keeps ..).pool (by simp)), State.chainSt_congr ((Tx.showChain_keeps ..).pool (by simp)),
      Tx.setChainSt_other _ _ h]
    generalize hz : Tx.wb _ 0x5F10 _ 0x05 _ = z
    have hkeep : Keeps [.all 0x5E10 [0x05, 0x06, 0x07], .all 0x5F10 [0x01, 0x02, 0x03, 0x04, 0x05]] [] t.cur z.cur := by
      rw [← hz]
      exact .wb (.w (.w (.w (.w (.w (.w (.w (.refl ..))))))))
    exact State.chainSt_congr (hkeep.pool (by simp)) m
  have hkeep : KeepsAt c [.all 0x5E10 [0x05, 0x06, 0x07, 0x08, 0x09, 0x0A, 0x0B]] [] [.all 0x5E00 [0x01], .all 0x5E01 [0x01, 0x02, 0x03, 0x04,
      0x05, 0x07, 0x08, 0x09], .all 0x5F00 [0x04], .all 0x5F10 [0x01, 0x02, 0x03, 0x04, 0x05], ⟨0x6510, 0x65C7, none, [0x01, 0x02]⟩] [.pool]
      t.cur (t.place c i).cur := by
    unfold Tx.place
    dsimp only
    exact .stepIn (Tx.showCores_keeps ..) (.stepAt (Tx.showChain_keepsAt ..) (.stepIn (Tx.setChainSt_keeps ..) (.wbKey (.wKey (.wKey (.wKey (.wKey
      (.wKey (.wKey (.wKey (.refl ..) .one) .one) .one) .all) .all) .all) .all) .all)))
  exact ⟨hown, fun e => hkeep.gBeside h (by omega) (by simp [apart, Span.all])⟩

theorem Tx.tryHeld_leaves (t : Tx s0) (hn : n < 256) (hst : t.cur.chainState n ≠ 5) : NotTried n t.cur (t.tryHeld []).cur := by
  unfold Tx.tryHeld
  refine Tx.each_mem_inv (P := fun u => NotTried n t.cur u) _ ⟨rfl, fun _ => rfl⟩ fun u c hc hu => ?_
  have hc256 : c < 256 := by
    simpa using hc
  by_cases hcn : n = c
  · subst hcn
    have hne : u.cur.chainState n ≠ 5 := fun h => hst ((hu.entries 0x05).symm.trans h)
    rw [if_pos (by simpa using hne)]
    exact hu
  · refine Tx.ite_cur (P := fun z => NotTried n t.cur z) hu (Tx.ite_cur (P := fun z => NotTried n t.cur z) ?_ hu)
    have hp := u.place_other (u.cur.findCore c).1 hn hc256 hcn
    exact ⟨hp.own.trans hu.own, fun e => (hp.entries e).trans (hu.entries e)⟩

theorem chainRelease_frees (hc : s.clocked = true) (hn : n < 256) {i : ℕ} {y : List Int} (hcl : (s.chainSt n).closing = true)
    (hcur : (s.chainSt n).cur = none) (hr : (s.chainSt n).ramp = some (false, i, y)) (hi : 64 ≤ i) (hoff : s.on 0x5E10 n 0x01 = false) :
    ∃ t, exec (.chainRelease n) s = .next t ∧ t.chainState n = 1 ∧ t.g 0x5E10 n 0x06 = 0xFF ∧
      t.g 0x5E10 n 0x07 = 0xFFFF ∧ t.chainSt n = Chain.init := by
  change ∃ t, execChainRelease n s = .next t ∧ _
  unfold execChainRelease
  have hun := (Tx.start s).unplace_keeps n 1
  obtain ⟨h5, h6, h7, hst⟩ := (Tx.start s).unplace_leaves hn
  generalize hu : (Tx.start s).unplace n 1 = u at hun h5 h6 h7 hst
  have htry := u.tryHeld_leaves hn (by rw [h5]; decide)
  have hon : (u.tryHeld []).on 0x5E10 n 0x01 = false := by
    show ((u.tryHeld []).cur.g 0x5E10 n 0x01 == 1) = false
    rw [htry.entries, hun.gOf rfl]
    exact hoff
  refine run_to hc (u.tryHeld []) ?_ fun t ht => ?_
  · dsimp only
    rw [hcl, hcur, hr]
    show (if i < 64 then Tx.start s else (Tx.start s).chainFree n) = _
    rw [if_neg (by omega)]
    unfold Tx.chainFree
    rw [hu]
    dsimp only
    rw [hon, if_neg (by decide)]
  · have hg : ∀ e, t.g 0x5E10 n e = u.cur.g 0x5E10 n e := fun e => (ht.seenG (by simp [apart])).trans (htry.entries e)
    exact ⟨(hg _).trans h5, (hg _).trans h6, (hg _).trans h7, (State.chainSt_congr (ht.pool (by simp)) n).trans (htry.own.trans hst)⟩

/-! ## Parameters -/

theorem parameterWrite_waits (hc : s.clocked = true) {rs : List ParRec} {ps : List Bytes} (hk : s.writeCheck h (opOf 0x5E10 n 0x03 d) = stOK)
    (hp : s.placed.contains n = true) (hrs : readPars 256 d = some rs) (hz : ∀ r ∈ rs, r.zero = true)
    (hps : putPars ((s.chainSt n).pend.foldl (fun p w => (putPars p w).getD p) (s.chainSt n).pars) d = some ps)
    (hgood : ∀ (i : Nat) (p : Bytes), ps[i]? = some p → ∃ q : Kern, (s.desc n).kerns[i]? = some q ∧
      s.kernPar q.id q.ins.length (s.desc n).b p = true ∧ s.kernForm q.id q.ins.length q.outs.length p = true) :
    ∃ t, exec (.parameterWrite h n d) s = .next t ∧ t.result = ⟨some stOK, []⟩ ∧
      t.chainSt n = { s.chainSt n with pend := (s.chainSt n).pend ++ [d] } ∧
      Kept (fun _ => False) [.result, .outs, .pool] s t := by
  change ∃ t, execParameterWrite h n d s = .next t ∧ _
  unfold execParameterWrite
  have hzero : (rs.any fun r => !r.zero) = false := by
    rw [List.any_eq_false]
    intro r hr
    rw [hz r hr]
    decide
  refine run_to hc (((Tx.start s).status stOK).setChainSt n { s.chainSt n with pend := (s.chainSt n).pend ++ [d] })
    ((guarded_start hk _).trans ?_) fun t ht => ⟨?_, ?_, ?_⟩
  · unfold parRule
    dsimp only
    simp only [State.begun_placed, State.begun_chainSt, State.begun_desc, State.begun_kernPar, State.begun_kernForm, hp, hrs, hps]
    refine (if_neg (by decide)).trans (if_neg ?_)
    rw [hzero, Bool.or_false, Bool.not_eq_true, List.any_eq_false]
    rintro ⟨i, p⟩ hip
    obtain ⟨k, hk⟩ := List.mem_iff_getElem?.mp hip
    obtain ⟨hi, hpk⟩ := List.getElem?_zip_eq_some.mp hk
    obtain ⟨hlt, hki⟩ := List.getElem?_eq_some_iff.mp hi
    rw [List.getElem_range] at hki
    subst hki
    obtain ⟨q, hq, hpar, hform⟩ := hgood _ _ hpk
    simp [hq, hpar, hform]
  · exact ht.result (by simp)
  · rw [State.chainSt_congr (ht.pool (by simp)), Tx.setChainSt_same]
  · exact .of_run (by simp) (by simp) (.setPool (.status (.refl ..))) ht

/-- Settles O39, clause by clause. -/
theorem chainsComplete : Obligations.ChainsComplete := by
  unfold Obligations.ChainsComplete
  exact fun s n hc hn => ⟨fun h d x hk hst hlen hx => ⟨descriptionWrite_stores hc hn hk hst hlen hx,
      fun reason item => descriptionWrite_refused hc hn hk hst hlen hx⟩,
    fun h d i hk hd hst hkern hcore => chainEnable_places hc hn hk hd hst hkern hcore,
    fun h d hk hd h2 h4 hcl => chainDisable_closes hc hn hk hd h2 h4 hcl,
    fun i y hcl hcur hr hi hoff => chainRelease_frees hc hn hcl hcur hr hi hoff,
    fun h d rs ps hk hp hrs hz hps hgood => parameterWrite_waits hc hk hp hrs hz hps hgood⟩

end Sys2Proof.Machine
end

section
/-! PROOFS. Event flags and the runs of chains (R342, R350, R360 to R363). -/

namespace Sys2Proof.Machine
open Sys2Proof

set_option Elab.async false

variable {s0 s a b : State} {n m c h i k v : ℕ} {d : Bytes}

/-! ## Which chains are placed -/

theorem filter_mset {α : Type} {p : ℕ × α → Bool} {k : ℕ} {v : α} (hk : ∀ v, p (k, v) = false) : ∀ l : List (ℕ × α),
    (mset k v l).filter p = l.filter p
  | [] => by
    unfold mset
    rw [List.filter_cons, hk]
    rfl
  | (j, w) :: l => by
    unfold mset
    split
    case isTrue h =>
      subst h
      rw [List.filter_cons, List.filter_cons, hk, hk]
      rfl
    case isFalse h =>
      split
      · rw [List.filter_cons, hk]
        rfl
      · rw [List.filter_cons, List.filter_cons, filter_mset hk l]

theorem filter_mdel {α : Type} {p : ℕ × α → Bool} {k : ℕ} (hk : ∀ v, p (k, v) = false) : ∀ l : List (ℕ × α), (mdel k l).filter p = l.filter p
  | [] => rfl
  | (j, w) :: l => by
    unfold mdel
    split
    case isTrue h =>
      subst h
      rw [List.filter_cons, hk, filter_mdel hk l]
      rfl
    case isFalse h => rw [List.filter_cons, List.filter_cons, filter_mdel hk l]

theorem filter_dictPut {p : ℕ × ℕ → Bool} (hk : ∀ v, p (k, v) = false) (l : List (ℕ × ℕ)) : (dictPut l k v).filter p = l.filter p := by
  unfold dictPut
  split
  · unfold mputD
    split
    · exact filter_mdel hk l
    · exact filter_mset hk l
  · rfl

theorem Tx.w_dict (t : Tx s0) (i n c v : ℕ) : (t.w i n c v).cur.dict = dictPut t.cur.dict (K i n c) v := rfl

/-- The chains that have a slot in the dictionary, whatever it is. -/
abbrev SlotsStay (a b : State) : Prop := Still (fun s => s.listed 0x5E10 0x07) a b

theorem SlotsStay.of_dict (h : b.dict = a.dict) : SlotsStay a b := State.listed_congr h 0x5E10 0x07

theorem Tx.w_slots (t : Tx s0) (h : i ≠ 0x5E10 ∨ c % 256 ≠ 0x07) : SlotsStay t.cur (t.w i n c v).cur := by
  have hk : ∀ v : ℕ, (kIdx (K i n c, v).1 == 0x5E10 && kSub (K i n c, v).1 == 0x07) = false := fun v => by
    rw [kIdx_of_K, kSub_of_K]
    rcases h with h | h <;> simp [h]
  unfold SlotsStay Still State.listed
  dsimp only
  rw [t.w_dict, filter_dictPut hk]

theorem Tx.inc_slots (t : Tx s0) (h : i ≠ 0x5E10 ∨ c % 256 ≠ 0x07) : SlotsStay t.cur (t.inc i n c v).cur := t.w_slots h

theorem Tx.flagBit_slots (t : Tx s0) (h : i ≠ 0x5E10 ∨ c % 256 ≠ 0x07) : SlotsStay t.cur (t.flagBit i n c v).cur :=
  .step (Tx.w_slots _ h) (SlotsStay.of_dict rfl)

theorem Tx.counter_slots (t : Tx s0) : SlotsStay t.cur (t.counter i v).cur := by
  unfold Tx.counter
  exact .step (Tx.w_slots _ (.inr (by decide))) (SlotsStay.of_dict rfl)

theorem Tx.tally_slots (t : Tx s0) (h : i ≠ 0x5E10 ∨ c % 256 ≠ 0x07) : SlotsStay t.cur (t.tally i n c).cur := by
  unfold Tx.tally Tx.count
  dsimp only
  split
  · exact .step (Tx.counter_slots _) (t.inc_slots h)
  · exact t.inc_slots h

theorem Tx.taskCoalesce_slots (t : Tx s0) (n : ℕ) : SlotsStay t.cur (t.taskCoalesce n).cur := by
  unfold Tx.taskCoalesce
  exact .each (fun u _ => .step (Tx.flagBit_slots _ (.inr (by decide))) (.step (Tx.tally_slots _ (.inr (by decide)))
    (u.inc_slots (.inr (by decide))))) (SlotsStay.of_dict rfl)

theorem Tx.missRun_slots (t : Tx s0) (c : ℕ) : SlotsStay t.cur (t.missRun c).cur := by
  unfold Tx.missRun
  dsimp only
  have hnote : ∀ u : Tx s0, SlotsStay u.cur ((((u.tally 0x5E10 c 0x0D).tally 0x5E00 0 0x07).flagBit 0x5E10 c 0x13 4).flagBit 0x5E00 0 0x0C 2).cur := fun u =>
    .step (Tx.flagBit_slots _ (.inr (by decide))) (.step (Tx.flagBit_slots _ (.inr (by decide)))
      (.step (Tx.tally_slots _ (.inl (by decide))) (u.tally_slots (.inr (by decide)))))
  have hload : SlotsStay t.cur (t.each (t.cur.coresOf c) (fun t i => t.counter (224 + i % 16) 1)).cur := .each (fun u _ => u.counter_slots) (.refl ..)
  generalize t.each (t.cur.coresOf c) (fun t i => t.counter (224 + i % 16) 1) = u at hload
  have hu := Still.step (hnote u) hload
  generalize (((u.tally 0x5E10 c 0x0D).tally 0x5E00 0 0x07).flagBit 0x5E10 c 0x13 4).flagBit 0x5E00 0 0x0C 2 = w at hu
  refine .ite (.step (SlotsStay.of_dict rfl) hu) ?_
  refine .step (Tx.flagBit_slots _ (.inr (by decide))) (.step (Tx.flagBit_slots _ (.inr (by decide))) (.step (SlotsStay.of_dict rfl)
    (.step (Tx.w_slots _ (.inr (by decide))) (.step (SlotsStay.of_dict rfl) hu))))

theorem Tx.coalesce_slots (t : Tx s0) (c : ℕ) : SlotsStay t.cur (t.coalesce c).cur := by
  unfold Tx.coalesce
  dsimp only
  split
  · refine .ite (.refl ..) (.step (SlotsStay.of_dict rfl) ?_)
    have hu : SlotsStay t.cur (((t.inc 0x5F10 (t.g 0x5E10 c 0x07) 0x08 1).tally 0x5F00 0 0x06).flagBit 0x5F00 0 0x09 1).cur :=
      .step (Tx.flagBit_slots _ (.inr (by decide))) (.step (Tx.tally_slots _ (.inr (by decide))) (t.inc_slots (.inr (by decide))))
    exact .ite hu (.step (Tx.missRun_slots ..) hu)
  · exact .refl ..

theorem Tx.poolSettle_slots (t : Tx s0) : SlotsStay t.cur t.poolSettle.cur := by
  unfold Tx.poolSettle
  refine .each (fun u c => u.coalesce_slots c) (.each (fun u p => ?_) (.each (fun u n => u.taskCoalesce_slots n) (.refl ..)))
  split
  · exact .ite (.refl ..) (SlotsStay.of_dict rfl)
  · exact .refl ..

theorem Tx.showCoreLoad_slots (t : Tx s0) : SlotsStay t.cur t.showCoreLoad.cur := by
  unfold Tx.showCoreLoad
  have hbus : SlotsStay t.cur t.showBusLoad.cur := .each (fun u j => .step (SlotsStay.of_dict rfl) (u.w_slots (.inr (by decide)))) (.refl ..)
  exact .step (SlotsStay.of_dict rfl) (.each (fun u j => u.w_slots (.inr (by decide))) hbus)

theorem placed_of (hb : SlotsStay a b) (hg : ∀ c, b.g 0x5E10 c 0x07 = a.g 0x5E10 c 0x07) : b.placed = a.placed := by
  have hl : b.listed 0x5E10 0x07 = a.listed 0x5E10 0x07 := hb
  unfold State.placed
  simp only [hl, hg]

/-! ## The pool without its reserved tasks -/

/-- The pool without the tasks of the Ulikumund and their flags. -/
def State.works (s : State) : Pool := { s.pool with tasks := [], inner := 0 }

theorem State.works_of (h : b.pool = a.pool) : Still State.works a b := by
  unfold Still State.works
  rw [h]

theorem Kept.works {l : List Span} {M : List Part} (h : Keeps l M a b) (hM : Part.pool ∉ M := by decide) : Still State.works a b :=
  State.works_of (h.pool hM)

theorem State.works_chainSt (h : Still State.works a b) (c : ℕ) : b.chainSt c = a.chainSt c :=
  (congrArg (fun x : Pool => mget Chain.init x.chains c) h :)

theorem Tx.setTask_works (t : Tx s0) (n : ℕ) (x : Task) : Still State.works t.cur (t.setTask n x).cur := rfl

theorem Tx.setInner_works (t : Tx s0) (x : ℕ) : Still State.works t.cur (t.setPool { t.cur.pool with inner := x }).cur := rfl

theorem Tx.taskSee_works (t : Tx s0) (n : ℕ) {f : Tx s0 → Tx s0} (h : Still State.works t.cur (f t).cur) : Still State.works t.cur (t.taskSee n f).cur := by
  unfold Tx.taskSee
  exact .when h (Tx.setTask_works ..)

theorem Tx.taskCoalesce_works (t : Tx s0) (n : ℕ) : Still State.works t.cur (t.taskCoalesce n).cur := by
  unfold Tx.taskCoalesce
  exact .each (fun u _ => Kept.works (l := [.all 0x5F10 [0x08], .all 0x5F00 [0x06, 0x09], .ctr 244 244]) (M := [])
    (.flagBit (.tally (.inc (.refl ..))))) (t.setTask_works ..)

theorem Tx.taskEvents_works (t : Tx s0) (n : ℕ) (l : List ℕ) : Still State.works t.cur (t.taskEvents n l).cur := by
  unfold Tx.taskEvents
  exact t.taskSee_works n (.each (fun u _ => .ite (u.setTask_works ..) (u.setTask_works ..)) (.refl ..))

theorem Tx.taskHand_works (t : Tx s0) (n : ℕ) : Still State.works t.cur (t.taskHand n).cur := by
  unfold Tx.taskHand
  exact .ite (.refl ..) (t.taskSee_works n rfl)

theorem Tx.taskTake_works (t : Tx s0) (n : ℕ) : Still State.works t.cur (t.taskTake n).cur := by
  unfold Tx.taskTake
  dsimp only
  generalize hv : Tx.wb _ 0x5F10 n 0x05 _ = v
  have hk : Keeps [.all 0x5F10 [0x01, 0x04, 0x05]] [.free] t.cur v.cur := by
    rw [← hv]
    exact .wb (.w (.w (.fresh (.refl ..))))
  refine .step (Kept.works (l := [.all 0x5F00 [0x04]]) (M := []) (.w (.refl ..))) ?_
  unfold Still State.works
  rw [Tx.setPool_pool, hk.pool (by simp)]

theorem Tx.taskFree_works (t : Tx s0) (n : ℕ) : Still State.works t.cur (t.taskFree n).cur := by
  unfold Tx.taskFree
  dsimp only
  have hk := (t.slotFree_keeps n).pool (by simp)
  generalize t.slotFree n = w at hk
  refine .step (Kept.works (l := [.all 0x5F00 [0x04]]) (M := []) (.w (.refl ..))) ?_
  unfold Still State.works
  rw [Tx.setPool_pool]

theorem Tx.tasksHold_works (t : Tx s0) : Still State.works t.cur t.tasksHold.cur := by
  unfold Tx.tasksHold
  exact .each (fun u p => .ite (u.taskTake_works _) (.ite (u.taskFree_works _) (.refl ..))) (.refl ..)

theorem Tx.dispatchOwn_works (t : Tx s0) (i at_ : ℕ) : Still State.works t.cur (t.dispatchOwn i at_).cur := by
  unfold Tx.dispatchOwn
  dsimp only
  split
  · exact .refl ..
  · refine .ite (.refl ..) ?_
    exact .step (Kept.works (l := [.all 0x5F10 [0x07, 0x09], .all 0x5F00 [0x05, 0x08], .all 0x5E00 [0x0B], .ctr 243 243]) (M := [])
      (.peak (.w (.inc (.counter (.tally (.inc (.refl ..)))))))) (.when (.step (Tx.setInner_works ..)
        (.step (Tx.setTask_works ..) (.ite rfl (.step (Tx.taskCoalesce_works ..) rfl)))) (Tx.setTask_works ..))

/-! ## Dispatch -/

/-- A chain with a run in progress is not taken again. -/
theorem Tx.dispatch_chain (t : Tx s0) (i at_ : ℕ) {j : Job} (hj : (t.cur.chainSt c).cur = some j) :
    (t.dispatch i at_).cur.chainSt c = t.cur.chainSt c := by
  unfold Tx.dispatch
  dsimp only
  split
  · rfl
  · rename_i hidle
    split
    · rfl
    · rename_i k hk
      split
      · rfl
      · rename_i x hx
        have hne : c ≠ k := by
          rintro rfl
          obtain ⟨hc, hi⟩ := List.mem_filter.mp (mem_sortBy.mp (List.mem_of_mem_head? hk))
          have hall := List.all_eq_true.mp (by simpa using hidle : t.cur.coreIdle i = true) c hc
          rw [hj] at hall
          simp only [Bool.and_eq_true, beq_iff_eq] at hi
          simp [hi.1] at hall
        rw [State.chainSt_congr ((Tx.runMsg_keeps ..).pool (by simp))]
        generalize hw : Tx.counter _ (240 + _) 1 = w
        have hwk : w.cur.chainSt c = t.cur.chainSt c := by
          rw [← hw, State.chainSt_congr ((Tx.counter_shown _).pool (by simp)), State.chainSt_congr ((Tx.tally_shown _).pool (by simp)),
            State.chainSt_congr ((Tx.rakeConsume_keeps ..).pool (by simp)), Tx.setChainSt_other _ _ hne]
        rw [State.chainSt_congr ((Tx.peak_shown _).pool (by simp)), State.chainSt_congr ((Tx.w_shown _).pool (by simp)),
          State.chainSt_congr ((Tx.inc_shown _).pool (by simp)), hwk]

/-! ## A flag releases the runs of its block size -/

/-- What release gives a chain whose gate passes. -/
theorem Tx.release_waits (t : Tx s0) {X : ℕ} {g : Bool × ℕ} (hg : g.1 = true) (hX : (t.cur.chainSt c).firstX ≤ X)
    (hcl : (t.cur.chainSt c).closing = false) (hw : (t.cur.chainSt c).wait = none) :
    (t.release c X g).cur.chainSt c = { t.cur.chainSt c with
      wait := some ⟨X, (t.cur.chainSt c).block (t.cur.desc c).b (t.cur.desc c).ins, t.cur.clock, 0, false,
        if t.cur.on 0x5F20 c 0x03 = true then g.2 else 0, []⟩ } := by
  unfold Tx.release
  dsimp only
  rw [hcl, hg, hw, if_neg (by simpa using hX), if_neg (by decide), Tx.setChainSt_same]
  rfl

theorem Tx.release_other (t : Tx s0) (c' X : ℕ) (g : Bool × ℕ) (h : c ≠ c') : (t.release c' X g).cur.chainSt c = t.cur.chainSt c := by
  unfold Tx.release
  dsimp only
  split
  · rfl
  · split
    · exact State.chainSt_congr (Kept.pool (E := Keys [.all 0x5F20 [0x04, 0x05], .all 0x5F00 [0x07, 0x09], .ctr 245 245])
        (M := []) (.flagBit (.flagBit (.tally (.inc (.refl ..))))) (by simp)) c
    · exact Tx.setChainSt_other _ _ h

/-- A chain that waits goes on waiting, and with its run. -/
theorem Tx.release_goesOn (t : Tx s0) (c' X : ℕ) (g : Bool × ℕ) {j k : Job} (hw : (t.cur.chainSt c).wait = some j) (hr : (t.cur.chainSt c).cur = some k) :
    ((t.release c' X g).cur.chainSt c).wait = some j ∧ ((t.release c' X g).cur.chainSt c).cur = some k := by
  by_cases h : c = c'
  · subst h
    unfold Tx.release
    dsimp only
    split
    · exact ⟨hw, hr⟩
    · split
      · rw [State.chainSt_congr (show _ = t.cur.pool from Kept.pool (E := Keys [.all 0x5F20 [0x04, 0x05], .all 0x5F00 [0x07, 0x09], .ctr 245 245])
          (M := []) (.flagBit (.flagBit (.tally (.inc (.refl ..))))) (by simp))]
        exact ⟨hw, hr⟩
      · rw [Tx.setChainSt_same, hw]
        exact ⟨rfl, hr⟩
  · rw [t.release_other c' X g h]
    exact ⟨hw, hr⟩

/-! ## What the pool remembers of the flags -/

/-- When each flag was last raised, the second shown, and the load within it. -/
def State.poolTimes (s : State) : List (ℕ × ℕ) × ℕ × List (ℕ × ℕ) := (s.pool.raised, s.pool.second, s.pool.busy)

theorem State.poolTimes_of (h : b.pool = a.pool) : Still State.poolTimes a b := by
  unfold Still State.poolTimes
  rw [h]

theorem State.poolTimes_works (h : Still State.works a b) : Still State.poolTimes a b :=
  (congrArg (fun x : Pool => (x.raised, x.second, x.busy)) h :)

theorem Tx.setChainSt_times (t : Tx s0) (c : ℕ) (x : Chain) : Still State.poolTimes t.cur (t.setChainSt c x).cur := rfl

theorem Kept.poolTimes {l : List Span} {M : List Part} (h : Keeps l M a b) (hM : Part.pool ∉ M := by decide) : Still State.poolTimes a b :=
  State.poolTimes_of (h.pool hM)

theorem Tx.release_times (t : Tx s0) (c X : ℕ) (g : Bool × ℕ) : Still State.poolTimes t.cur (t.release c X g).cur := by
  unfold Tx.release
  dsimp only
  exact .ite (.refl ..) (.ite (Kept.poolTimes (l := [.all 0x5F20 [0x04, 0x05], .all 0x5F00 [0x07, 0x09], .ctr 245 245])
    (M := []) (.flagBit (.flagBit (.tally (.inc (.refl ..)))))) (t.setChainSt_times ..))

theorem Tx.dispatch_times (t : Tx s0) (i at_ : ℕ) : Still State.poolTimes t.cur (t.dispatch i at_).cur := by
  unfold Tx.dispatch
  dsimp only
  refine .ite (.refl ..) ?_
  split
  · exact .refl ..
  · split
    · exact .refl ..
    · rename_i k _ _ _ _
      exact .step (Kept.poolTimes (Tx.runMsg_keeps ..)) (.step (Kept.poolTimes (l := [.all 0x5F10 [0x07, 0x09], .all 0x5F00 [0x08]]) (M := [])
        (.peak (.w (.inc (.refl ..))))) (.step (State.poolTimes_of ((Tx.counter_shown _).pool (by simp)))
        (.step (Kept.poolTimes (l := [.all 0x5F00 [0x05], .ctr 243 243]) (M := []) (.tally (.refl ..))) (.step (Kept.poolTimes (Tx.rakeConsume_keeps ..))
          (t.setChainSt_times ..)))))

/-- What a missed run counts and flags, before the chain's own count. -/
theorem Tx.missRun_counts (t : Tx s0) (c : ℕ) : Keeps [.all 0x5E00 [0x07, 0x0C], .all 0x5E10 [0x0D, 0x13], .ctr 224 239] [] t.cur
    (((((t.each (t.cur.coresOf c) (fun t i => t.counter (224 + i % 16) 1)).tally 0x5E10 c 0x0D).tally 0x5E00 0 0x07).flagBit 0x5E10 c 0x13 4).flagBit
      0x5E00 0 0x0C 2).cur :=
  .flagBit (.flagBit (.tally (.tally (.each (fun _ i => .counterIn (lo := 224) (hi := 239) (.refl ..) (by omega) (by omega)) (.refl ..)))))

theorem Tx.missRun_times (t : Tx s0) (c : ℕ) : Still State.poolTimes t.cur (t.missRun c).cur := by
  unfold Tx.missRun
  dsimp only
  generalize hu : Tx.flagBit _ 0x5E00 0 0x0C 2 = u
  have hk := t.missRun_counts c
  rw [hu] at hk
  exact .ite (.step (u.setChainSt_times ..) (Kept.poolTimes hk)) (.step (Kept.poolTimes (l := [.all 0x5E00 [0x0C], .all 0x5E10 [0x13]]) (M := [])
    (.flagBit (.flagBit (.refl ..)))) (.step (Tx.setChainSt_times ..) (.step (Kept.poolTimes (l := [.all 0x5E10 [0x05]]) (M := []) (.w (.refl ..)))
      (.step (u.setChainSt_times ..) (Kept.poolTimes hk)))))

theorem Tx.missRun_other (t : Tx s0) (c' : ℕ) (h : c ≠ c') : (t.missRun c').cur.chainSt c = t.cur.chainSt c := by
  unfold Tx.missRun
  dsimp only
  generalize hu : Tx.flagBit _ 0x5E00 0 0x0C 2 = u
  have hk := t.missRun_counts c'
  rw [hu] at hk
  rw [← State.chainSt_congr (hk.pool (by simp)) c]
  split
  · exact Tx.setChainSt_other _ _ h
  · rw [State.chainSt_congr ((Tx.flagBit_shown _).pool (by simp)), State.chainSt_congr ((Tx.flagBit_shown _).pool (by simp)),
      Tx.setChainSt_other _ _ h, State.chainSt_congr ((Tx.w_shown _).pool (by simp)), Tx.setChainSt_other _ _ h]

theorem Tx.coalesce_times (t : Tx s0) (c : ℕ) : Still State.poolTimes t.cur (t.coalesce c).cur := by
  unfold Tx.coalesce
  dsimp only
  split
  · have hu : Still State.poolTimes t.cur (((t.inc 0x5F10 (t.g 0x5E10 c 0x07) 0x08 1).tally 0x5F00 0 0x06).flagBit 0x5F00 0 0x09 1).cur :=
      Kept.poolTimes (l := [.all 0x5F10 [0x08], .all 0x5F00 [0x06, 0x09], .ctr 244 244]) (M := []) (.flagBit (.tally (.inc (.refl ..))))
    exact .ite (.refl ..) (.step (Tx.setChainSt_times ..) (.ite hu (.step (Tx.missRun_times ..) hu)))
  · exact .refl ..

theorem Tx.coalesce_chain (t : Tx s0) (c' : ℕ) (hnext : (t.cur.chainSt c).next = none) : (t.coalesce c').cur.chainSt c = t.cur.chainSt c := by
  unfold Tx.coalesce
  dsimp only
  by_cases h : c = c'
  · subst h
    rw [hnext]
    cases (t.cur.chainSt c).wait <;> rfl
  · split
    · split
      · rfl
      · rw [Tx.setChainSt_other _ _ h]
        have hu : (((t.inc 0x5F10 (t.g 0x5E10 c' 0x07) 0x08 1).tally 0x5F00 0 0x06).flagBit 0x5F00 0 0x09 1).cur.chainSt c = t.cur.chainSt c :=
          State.chainSt_congr (Kept.pool (E := Keys [.all 0x5F10 [0x08], .all 0x5F00 [0x06, 0x09], .ctr 244 244]) (M := [])
            (.flagBit (.tally (.inc (.refl ..)))) (by simp)) c
        split
        · exact hu
        · exact (Tx.missRun_other _ c' h).trans hu
    · rfl

/-- The pool settles: pieces that have ended are charged; a chain without a newer block goes on as it was. -/
theorem Tx.poolSettle_leaves (t : Tx s0) : (t.poolSettle.cur.pool.raised = t.cur.pool.raised ∧ t.poolSettle.cur.pool.second = t.cur.pool.second) ∧
    ∀ c, (t.cur.chainSt c).next = none → t.poolSettle.cur.chainSt c = t.cur.chainSt c := by
  unfold Tx.poolSettle
  dsimp only
  generalize hu : Tx.each t _ (fun t n => t.taskCoalesce n) = u
  have hwu : Still State.works t.cur u.cur := by
    rw [← hu]
    exact .each (fun v n => v.taskCoalesce_works n) (.refl ..)
  generalize hv : Tx.each u u.cur.pool.tasks _ = v
  have huv : (v.cur.pool.raised = u.cur.pool.raised ∧ v.cur.pool.second = u.cur.pool.second) ∧ ∀ c, v.cur.chainSt c = u.cur.chainSt c := by
    rw [← hv]
    refine Tx.each_inv (P := fun z => (z.pool.raised = u.cur.pool.raised ∧ z.pool.second = u.cur.pool.second) ∧ ∀ c, z.chainSt c = u.cur.chainSt c)
      _ ⟨⟨rfl, rfl⟩, fun _ => rfl⟩ fun z p hz => ?_
    split
    · exact Tx.ite_cur (P := fun z => (z.pool.raised = u.cur.pool.raised ∧ z.pool.second = u.cur.pool.second) ∧ ∀ c, z.chainSt c = u.cur.chainSt c) hz hz
    · exact hz
  have hraised : u.cur.pool.raised = t.cur.pool.raised := (congrArg Pool.raised hwu :)
  have hsecond : u.cur.pool.second = t.cur.pool.second := (congrArg Pool.second hwu :)
  have htimes : Still State.poolTimes v.cur (v.each (v.cur.placed.filter (fun c => (v.cur.chainSt c).next.isSome)) (fun t c => t.coalesce c)).cur :=
    .each (fun z c => z.coalesce_times c) (.refl ..)
  refine ⟨⟨?_, ?_⟩, fun c hc => ?_⟩
  · exact (congrArg Prod.fst htimes).trans (huv.1.1.trans hraised)
  · exact (congrArg (fun x => x.2.1) htimes).trans (huv.1.2.trans hsecond)
  · have hvc : v.cur.chainSt c = t.cur.chainSt c := (huv.2 c).trans (State.works_chainSt hwu c)
    refine Tx.each_inv (P := fun z => z.chainSt c = t.cur.chainSt c) _ hvc fun z c' hz => ?_
    exact (z.coalesce_chain c' (by rw [hz, hc])).trans hz

/-! ## A flag is raised -/

theorem State.flagDue_lt (h : s.flagDue n = true) : n < 7 := by
  unfold State.flagDue at h
  split at h <;> first | omega | exact absurd h (by decide)

theorem State.mem_flagsNow (h : s.flagDue n = true) (hr : mget? s.pool.raised n ≠ some s.now) : n ∈ s.flagsNow := by
  unfold State.flagsNow
  rw [List.mem_filter]
  exact ⟨List.mem_range.mpr (State.flagDue_lt h), by simpa [h] using hr⟩

theorem mget?_msets {α : Type} (x : α) (n : ℕ) : ∀ (l : List ℕ) (m : List (ℕ × α)), (n ∈ l ∨ mget? m n = some x) →
    mget? (l.foldl (fun m k => mset k x m) m) n = some x
  | [], m, h => h.resolve_left (fun hn => nomatch hn)
  | k :: l, m, h => by
    refine mget?_msets x n l (mset k x m) ?_
    by_cases hk : n = k
    · subst hk
      exact .inr (mget?_mset_same ..)
    · rcases h with h | h
      · exact .inl ((List.mem_cons.mp h).resolve_left hk)
      · exact .inr ((mget?_mset_other _ _ hk).trans h)

/-- A property that the step at an element of the list brings, and that no later step takes away. -/
theorem Tx.each_reaches {α : Type} {P Q : State → Prop} {f : Tx s0 → α → Tx s0} {m : α} (hP : ∀ (u : Tx s0) y, y ≠ m → P u.cur → P (f u y).cur)
    (hm : ∀ u : Tx s0, P u.cur → Q (f u m).cur) (hQ : ∀ (u : Tx s0) y, Q u.cur → Q (f u y).cur) :
    ∀ {t : Tx s0} (l : List α), m ∈ l → P t.cur → Q (t.each l f).cur
  | _, [], h, _ => nomatch h
  | t, x :: l, h, hp => by
    by_cases hx : x = m
    · subst hx
      exact Tx.each_inv (P := Q) l (hm t hp) hQ
    · exact Tx.each_reaches hP hm hQ l ((List.mem_cons.mp h).resolve_left (Ne.symm hx)) (hP t x hx hp)

/-- The pool after the flags of a cycle are noted, before the gates are evaluated. -/
def Tx.flagsNoted (t : Tx s0) (due : List ℕ) : Tx s0 :=
  let t := t.poolSettle
  let t := t.setPool { t.cur.pool with raised := due.foldl (fun l k => mset k s0.now l) t.cur.pool.raised }
  t.when (due.contains 6) (fun t => t.when (t.cur.pool.second != s0.ns / 1000000000) Tx.showCoreLoad)

/-- What follows the gates: the reserved tasks see the flags, and idle cores take what waits. -/
def Tx.flagsServed (t : Tx s0) (due : List ℕ) : Tx s0 :=
  (t.tasksHold.each (range' 240 16) (fun t k => (t.taskHand k).taskEvents k due)).each (List.range 16) (fun t i =>
    let (v, t) := t.fresh
    (t.dispatch i (s0.clock + v % 33)).dispatchOwn i (s0.clock + v % 33))

theorem State.ns_of (h : b.time = a.time) (hc : b.clock = a.clock) (hr : b.rho = a.rho) : b.ns = a.ns := by
  unfold State.ns State.nsAt State.sysAt
  rw [h, hc, hr]

theorem Tx.setPool_ns (t : Tx s0) (x : Pool) : (t.setPool x).cur.ns = t.cur.ns := rfl

theorem Tx.showCoreLoad_chains (t : Tx s0) : t.showCoreLoad.cur.pool.chains = t.cur.pool.chains := by
  unfold Tx.showCoreLoad
  dsimp only
  generalize hu : Tx.each t.showBusLoad _ _ = u
  have hk : Keeps [.all 0x5E01 [0x0A], .all 0x6020 [0x03]] [.mem] t.cur u.cur := by
    rw [← hu]
    exact .each (fun v i => .w (.refl ..)) (.step (Tx.showBusLoad_keeps ..) (.refl ..))
  rw [Tx.setPool_pool, hk.pool (by simp)]

theorem Tx.showCoreLoad_second (t : Tx s0) : t.showCoreLoad.cur.pool.second = t.cur.ns / 1000000000 ∧ t.showCoreLoad.cur.pool.busy = [] ∧
    t.showCoreLoad.cur.pool.raised = t.cur.pool.raised := by
  unfold Tx.showCoreLoad
  dsimp only
  generalize hu : Tx.each t.showBusLoad _ _ = u
  have hk : Keeps [.all 0x5E01 [0x0A], .all 0x6020 [0x03]] [.mem] t.cur u.cur := by
    rw [← hu]
    exact .each (fun v i => .w (.refl ..)) (.step (Tx.showBusLoad_keeps ..) (.refl ..))
  have hns : u.cur.ns = t.cur.ns := State.ns_of (hk.time (by simp)) (hk.clock (by simp)).2 (hk.gOf rfl)
  rw [Tx.setPool_pool]
  exact ⟨congrArg (· / 1000000000) hns, rfl, by rw [hk.pool (by simp)]⟩

theorem Tx.flagsNoted_times (t : Tx s0) (due : List ℕ) (hn : n ∈ due) (hns : t.poolSettle.cur.ns = s0.ns) :
    mget? (t.flagsNoted due).cur.pool.raised n = some s0.now ∧ (n = 6 → (t.flagsNoted due).cur.pool.second = s0.ns / 1000000000 ∧
      (t.cur.pool.second ≠ s0.ns / 1000000000 → (t.flagsNoted due).cur.pool.busy = [])) := by
  unfold Tx.flagsNoted
  dsimp only
  have hsec := t.poolSettle_leaves.1.2
  generalize hv : t.poolSettle.setPool _ = v
  have hr : mget? v.cur.pool.raised n = some s0.now := by
    rw [← hv, Tx.setPool_pool]
    exact mget?_msets _ _ _ _ (.inl hn)
  have hs : v.cur.pool.second = t.cur.pool.second := by
    rw [← hv, Tx.setPool_pool, ← hsec]
  have hvn : v.cur.ns = s0.ns := by
    rw [← hv, Tx.setPool_ns, hns]
  obtain ⟨hload, hbusy, hraised⟩ := v.showCoreLoad_second
  refine ⟨?_, ?_⟩
  · unfold Tx.when
    split
    · dsimp only
      split
      · rw [hraised, hr]
      · exact hr
    · exact hr
  · rintro rfl
    unfold Tx.when
    rw [if_pos (by simpa using hn)]
    dsimp only
    rw [hs]
    by_cases h : t.cur.pool.second = s0.ns / 1000000000
    · rw [if_neg (by simp [h]), hs]
      exact ⟨h, fun hne => absurd h hne⟩
    · rw [if_pos (by simpa using h), hload, hvn]
      exact ⟨rfl, fun _ => hbusy⟩

theorem Tx.flagsServed_times (t : Tx s0) (due : List ℕ) : Still State.poolTimes t.cur (t.flagsServed due).cur := by
  unfold Tx.flagsServed
  refine .each (fun u i => ?_) (.each (fun u k => .step (State.poolTimes_works (u.taskHand k |>.taskEvents_works k due)) (State.poolTimes_works (u.taskHand_works k)))
    (State.poolTimes_works t.tasksHold_works))
  dsimp only
  exact .step (State.poolTimes_works (Tx.dispatchOwn_works ..)) (.step (Tx.dispatch_times ..) rfl)

theorem Tx.flagsServed_chain (t : Tx s0) (due : List ℕ) {j : Job} (hj : (t.cur.chainSt c).cur = some j) :
    (t.flagsServed due).cur.chainSt c = t.cur.chainSt c := by
  unfold Tx.flagsServed
  have hw : Still State.works t.cur (t.tasksHold.each (range' 240 16) (fun t k => (t.taskHand k).taskEvents k due)).cur :=
    .each (fun u k => .step (u.taskHand k |>.taskEvents_works k due) (u.taskHand_works k)) t.tasksHold_works
  refine Tx.each_inv (P := fun z => z.chainSt c = t.cur.chainSt c) _ (State.works_chainSt hw c) fun u i hu => ?_
  dsimp only
  rw [State.works_chainSt (Tx.dispatchOwn_works ..) c, Tx.dispatch_chain (j := j) _ _ _ (by rw [← hj, ← hu]; rfl)]
  exact hu

/-- The chains of a raised flag's block size are released where their gates pass. -/
def Tx.flagsGated (t : Tx s0) (due : List ℕ) : Tx s0 :=
  let cs := if s0.engines.running then t.cur.placed.filter (fun c => due.contains (t.cur.desc c).flag) else []
  t.each cs (fun t c => t.release c (s0.now - 1) (s0.gate c))

theorem execFlagRaise_eq (n : ℕ) (s : State) : execFlagRaise n s = run s fun t =>
    if s.flagsStand || !s.flagsNow.contains n then t else ((t.flagsNoted s.flagsNow).flagsGated s.flagsNow).flagsServed s.flagsNow := by
  unfold execFlagRaise Tx.flagsNoted Tx.flagsGated Tx.flagsServed
  rfl

theorem Tx.flagsNoted_keeps (t : Tx s0) (due : List ℕ) : Keeps [.all 0x5E00 [0x07, 0x0C], .all 0x5E01 [0x0A], .all 0x5E10 [0x05, 0x0D, 0x13],
    .all 0x5F00 [0x06, 0x09], .all 0x5F10 [0x08], .all 0x6020 [0x03], .ctr 224 239, .ctr 244 244] [.pool, .mem] t.cur (t.flagsNoted due).cur := by
  dsimp only [Tx.flagsNoted]
  exact .when (fun _ => .when (fun _ => .step (Tx.showCoreLoad_keeps ..) (.refl ..)) (.refl ..)) (.setPool (.step (Tx.poolSettle_keeps ..) (.refl ..)))

theorem Tx.flagsNoted_chain (t : Tx s0) (due : List ℕ) (hnext : (t.cur.chainSt c).next = none) :
    (t.flagsNoted due).cur.chainSt c = t.cur.chainSt c := by
  unfold Tx.flagsNoted
  dsimp only
  have hp := t.poolSettle_leaves.2 c hnext
  generalize t.poolSettle = u at hp
  have hu : ∀ x, (u.setPool { u.cur.pool with raised := x }).cur.chainSt c = t.cur.chainSt c := fun x => hp
  generalize hv : u.setPool _ = v
  have hvc : v.cur.chainSt c = t.cur.chainSt c := by rw [← hv, hu]
  have hload : v.showCoreLoad.cur.chainSt c = t.cur.chainSt c :=
    (congrArg (fun x : List (ℕ × Chain) => mget Chain.init x c) v.showCoreLoad_chains).trans hvc
  unfold Tx.when
  dsimp only
  split
  · split
    · exact hload
    · exact hvc
  · exact hvc

theorem Tx.setPool_slots (t : Tx s0) (x : Pool) : SlotsStay t.cur (t.setPool x).cur := SlotsStay.of_dict rfl

theorem Tx.flagsNoted_slots (t : Tx s0) (due : List ℕ) : SlotsStay t.cur (t.flagsNoted due).cur := by
  unfold Tx.flagsNoted
  dsimp only
  exact .when (.step (Tx.setPool_slots ..) t.poolSettle_slots) (.when (.refl ..) (Tx.showCoreLoad_slots _))

theorem Tx.flagsGated_times (t : Tx s0) (due : List ℕ) : Still State.poolTimes t.cur (t.flagsGated due).cur := by
  unfold Tx.flagsGated
  exact .each (fun u c => u.release_times ..) (.refl ..)

/-- A chain whose gate passes waits for a core where its flag is among those raised. -/
theorem Tx.flagsGated_waits (t : Tx s0) {due : List ℕ} {j : Job} (hrun : s0.engines.running = true) (hc : c ∈ t.cur.placed)
    (hf : due.contains (t.cur.desc c).flag = true) (hg : (s0.gate c).1 = true) (hX : (t.cur.chainSt c).firstX ≤ s0.now - 1)
    (hcl : (t.cur.chainSt c).closing = false) (hw : (t.cur.chainSt c).wait = none) (hj : (t.cur.chainSt c).cur = some j) :
    ((t.flagsGated due).cur.chainSt c).wait = some ⟨s0.now - 1, (t.cur.chainSt c).block (t.cur.desc c).b (t.cur.desc c).ins, t.cur.clock, 0, false,
        if t.cur.on 0x5F20 c 0x03 = true then (s0.gate c).2 else 0, []⟩ ∧
      ((t.flagsGated due).cur.chainSt c).cur = some j := by
  unfold Tx.flagsGated
  dsimp only
  rw [if_pos hrun]
  refine Tx.each_reaches (m := c) (P := fun u => u.chainSt c = t.cur.chainSt c ∧ u.desc c = t.cur.desc c ∧ u.clock = t.cur.clock ∧
    u.on 0x5F20 c 0x03 = t.cur.on 0x5F20 c 0x03) (Q := fun u => (u.chainSt c).wait = some ⟨s0.now - 1, (t.cur.chainSt c).block (t.cur.desc c).b
      (t.cur.desc c).ins, t.cur.clock, 0, false, if t.cur.on 0x5F20 c 0x03 = true then (s0.gate c).2 else 0, []⟩ ∧ (u.chainSt c).cur = some j)
    ?_ ?_ ?_ _ (List.mem_filter.mpr ⟨hc, hf⟩) ⟨rfl, rfl, rfl, rfl⟩
  · intro u y hy ⟨hch, hd, hcl, hon⟩
    have hk := u.release_keeps y (s0.now - 1) (s0.gate y)
    refine ⟨(u.release_other y _ _ (Ne.symm hy)).trans hch, ?_, ((hk.clock (by simp)).2).trans hcl, (hk.onOf rfl).trans hon⟩
    rw [← hd]
    exact congrArg (fun d => (readDesc d).getD Desc.none_) (hk.gbOf rfl)
  · intro u ⟨hch, hd, hclk, hon⟩
    rw [u.release_waits hg (by rwa [hch]) (by rwa [hch]) (by rwa [hch]), hch, hd, hclk, hon]
    exact ⟨rfl, hj⟩
  · intro u y ⟨hwait, hcur⟩
    exact u.release_goesOn y _ _ hwait hcur

theorem flagRaise_raises (hc : s.clocked = true) (hrun : s.engines.running = true) (hd : s.flagDue n = true)
    (hr : mget? s.pool.raised n ≠ some s.now) :
    ∃ t, exec (.flagRaise n) s = .next t ∧ mget? t.pool.raised n = some s.now ∧
      (n = 6 → t.pool.second = s.ns / 1000000000 ∧
        (s.pool.second ≠ s.ns / 1000000000 → t.pool.busy = [])) ∧
      ∀ c j, n < 3 → s.placed = [c] → (s.chainSt c).next = none → (s.desc c).flag = n → (s.gate c).1 = true → (s.chainSt c).firstX ≤ s.now - 1 →
        (s.chainSt c).closing = false → (s.chainSt c).wait = none → (s.chainSt c).cur = some j →
        (t.chainSt c).wait = some ⟨s.now - 1, (s.chainSt c).block (s.desc c).b (s.desc c).ins, s.clock, 0, false,
          if s.on 0x5F20 c 0x03 = true then (s.gate c).2 else 0, []⟩ := by
  change ∃ t, execFlagRaise n s = .next t ∧ _
  rw [execFlagRaise_eq]
  have hmem := State.mem_flagsNow hd hr
  generalize s.flagsNow = due at hmem
  have hgo : ¬ (s.flagsStand || !due.contains n) = true := by
    unfold State.flagsStand
    rw [hrun]
    simpa using hmem
  have hset := (Tx.start s).poolSettle_keeps
  obtain ⟨hraised, hsix⟩ := (Tx.start s).flagsNoted_times due hmem (State.ns_of (hset.time (by simp)) (hset.clock (by simp)).2 (hset.gOf rfl))
  have hk := (Tx.start s).flagsNoted_keeps due
  have hslots := (Tx.start s).flagsNoted_slots due
  have hchain := fun c h => (Tx.start s).flagsNoted_chain (c := c) due h
  refine run_to hc _ (if_neg hgo) fun t ht => ?_
  generalize (Tx.start s).flagsNoted due = u at ht hraised hsix hk hslots hchain
  have htimes : t.poolTimes = u.cur.poolTimes := by
    have hp : Still State.poolTimes ((u.flagsGated due).flagsServed due).cur t := State.poolTimes_of (ht.pool (by simp))
    exact Still.step hp (.step ((u.flagsGated due).flagsServed_times due) (u.flagsGated_times due))
  have hraise : t.pool.raised = u.cur.pool.raised := congrArg Prod.fst htimes
  have hsecond : t.pool.second = u.cur.pool.second := congrArg (fun x => x.2.1) htimes
  have hbusy : t.pool.busy = u.cur.pool.busy := congrArg (fun x => x.2.2) htimes
  refine ⟨by rw [hraise, hraised], fun h6 => ?_, fun c j _ hp hnext hf hg hX hcl hw hj => ?_⟩
  · rw [hsecond, hbusy]
    exact hsix h6
  · have hcu : u.cur.chainSt c = s.chainSt c := hchain c hnext
    have hdesc : u.cur.desc c = s.desc c := congrArg (fun d => (readDesc d).getD Desc.none_) (hk.gbOf rfl)
    have hplaced : u.cur.placed = s.placed := placed_of hslots fun c => hk.gOf rfl
    have hwaits := u.flagsGated_waits (c := c) (due := due) (j := j) hrun (by rw [hplaced, hp]; exact .head _)
      (by rw [hdesc, hf]; simpa using hmem) hg (by rwa [hcu]) (by rwa [hcu]) (by rwa [hcu]) (by rwa [hcu])
    rw [State.chainSt_congr (ht.pool (by simp)), Tx.flagsServed_chain _ _ hwaits.2, hwaits.1, hcu, hdesc, (hk.clock (by simp)).2, hk.onOf rfl]
    rfl

end Sys2Proof.Machine
end

section
/-! PROOFS. The end of a run, a missed run, and host flags (R342, R350, R363). -/

namespace Sys2Proof.Machine
open Sys2Proof

set_option Elab.async false

variable {s0 s a b : State} {n m c h i k v : ℕ} {d : Bytes}

/-- What an aborted run leaves before it is counted. -/
def Tx.runAborted (t : Tx s0) (n : ℕ) (j : Job) (bad : List PoolFault) (w : ℕ) : Tx s0 :=
  let t := (t.setChainSt n { t.cur.chainSt n with cur := none }).wb 0x5E10 n 0x0F (abortWords (s0.desc n).kerns.length j.touched)
  ((t.poolBad (s0.coreOf n) bad).runFlags n (abortBits j.touched)).sramBad 5 (poolWordAt (s0.coreOf n) 0 w)

/-- What a run that came to its end leaves before it is counted. -/
def Tx.runEnded (t : Tx s0) (n : ℕ) (j : Job) (bad : List PoolFault) (late : Bool) : Tx s0 :=
  let r := s0.runChain n j bad
  let out := (List.range (s0.desc n).outs).map (fun o => mget [] r.bufs (16 + o))
  let t := t.setChainSt n { t.cur.chainSt n with
    cur := none, ks := r.ks, outq := if late then (s0.chainSt n).outq else (s0.chainSt n).outq ++ [(j.X, out)] }
  let t := ((t.wb 0x5E10 n 0x0F r.words).wb 0x5E10 n 0x10 (r.res.take 16384)).poolBad (s0.coreOf n) bad
  t.runFlags n r.bits

/-- A run is counted and charged, and its cores take what waits. -/
def Tx.runCounted (t : Tx s0) (n : ℕ) (j : Job) (used bits : ℕ) (abort late : Bool) : Tx s0 :=
  let t := ((t.inc 0x5E10 n 0x0C 1).inc 0x5E00 0 0x06 (b2n !abort)).w 0x5E10 n 0x0E used
  let t := t.each (s0.coresOf n) (fun t i => (t.charge i j.X used).counter (208 + i % 16) 1)
  let t := if (late || abort) && !j.missed then t.missRun n else if late then t else t.onTime n
  let t := (t.runMsg (s0.coreOf n) n 1 bits (j.start + used)).dispatch (s0.coreOf n) (j.start + used)
  t.each (s0.coresOf n) (fun t k => t.dispatchOwn k (j.start + used))

/-- Whether a run ends past its deadline. -/
def State.runLate (s : State) (n : ℕ) (j : Job) : Bool := j.missed || decide (j.X + 1 + (s.desc n).b ≤ s.now)

theorem execRunComplete_ends (bad : List PoolFault) (cycles : ℕ) {j : Job} (hj : (s.chainSt n).cur = some j) :
    execRunComplete n cycles bad none s = run s fun t => (t.poolSettle.runEnded n j bad (s.runLate n j)).runCounted n j
      (min cycles (s.costOf (s.desc n))) (s.runChain n j bad).bits false (s.runLate n j) := by
  unfold execRunComplete
  refine congrArg (run s) (funext fun t => ?_)
  dsimp only
  rw [hj]
  unfold Tx.runEnded Tx.runCounted State.runLate
  rfl

theorem execRunComplete_aborts (bad : List PoolFault) (cycles w : ℕ) {j : Job} (hj : (s.chainSt n).cur = some j) :
    execRunComplete n cycles bad (some w) s = run s fun t => (t.poolSettle.runAborted n j bad w).runCounted n j
      cycles (abortBits j.touched) true (s.runLate n j) := by
  unfold execRunComplete
  refine congrArg (run s) (funext fun t => ?_)
  dsimp only
  rw [hj]
  unfold Tx.runAborted Tx.runCounted State.runLate
  rfl

/-! ## The outputs of a chain -/

/-- The blocks that chain n has yet to present. -/
abbrev OutputsStay (n : ℕ) (a b : State) : Prop := Still (fun s => (s.chainSt n).outq) a b

theorem OutputsStay.of_pool (h : b.pool = a.pool) : OutputsStay n a b := congrArg Chain.outq (State.chainSt_congr h n)

theorem Kept.outputs {l : List Span} {M : List Part} (h : Keeps l M a b) (hM : Part.pool ∉ M := by decide) : OutputsStay n a b :=
  .of_pool (h.pool hM)

theorem Tx.setChainSt_outputs (t : Tx s0) {x : Chain} (h : x.outq = (t.cur.chainSt c).outq) : OutputsStay n t.cur (t.setChainSt c x).cur := by
  unfold OutputsStay Still
  dsimp only
  by_cases hn : n = c
  · subst hn
    rw [Tx.setChainSt_same, h]
  · rw [Tx.setChainSt_other _ _ hn]

theorem Tx.missRun_outputs (t : Tx s0) (c : ℕ) : OutputsStay n t.cur (t.missRun c).cur := by
  unfold Tx.missRun
  dsimp only
  generalize hu : Tx.flagBit _ 0x5E00 0 0x0C 2 = u
  have hk := t.missRun_counts c
  rw [hu] at hk
  have hset : OutputsStay n t.cur (u.setChainSt c { u.cur.chainSt c with missed := (u.cur.chainSt c).missed + 1, onTime := 0 }).cur :=
    .step (Tx.setChainSt_outputs _ rfl) hk.outputs
  refine .ite hset (.step (Kept.outputs (l := [.all 0x5E00 [0x0C], .all 0x5E10 [0x13]]) (M := []) (.flagBit (.flagBit (.refl ..)))) ?_)
  exact .step (Tx.setChainSt_outputs _ (congrArg Chain.outq (State.chainSt_congr ((Tx.w_shown _).pool (by simp)) c).symm :))
    (.step (OutputsStay.of_pool ((Tx.w_shown _).pool (by simp))) hset)

theorem Tx.onTime_outputs (t : Tx s0) (c : ℕ) : OutputsStay n t.cur (t.onTime c).cur := by
  unfold Tx.onTime
  dsimp only
  exact .ite (t.setChainSt_outputs rfl) (.ite (t.setChainSt_outputs rfl) (.step (Kept.outputs (l := [.all 0x5E10 [0x05, 0x13]]) (M := [])
    (.flagBit (.w (.refl ..)))) (t.setChainSt_outputs rfl)))

theorem Tx.coalesce_outputs (t : Tx s0) (c : ℕ) : OutputsStay n t.cur (t.coalesce c).cur := by
  unfold Tx.coalesce
  dsimp only
  split
  · refine .ite (.refl ..) ?_
    have hu : OutputsStay n t.cur (((t.inc 0x5F10 (t.g 0x5E10 c 0x07) 0x08 1).tally 0x5F00 0 0x06).flagBit 0x5F00 0 0x09 1).cur :=
      Kept.outputs (l := [.all 0x5F10 [0x08], .all 0x5F00 [0x06, 0x09], .ctr 244 244]) (M := []) (.flagBit (.tally (.inc (.refl ..))))
    exact .step (Tx.setChainSt_outputs _ rfl) (.ite hu (.step (Tx.missRun_outputs ..) hu))
  · exact .refl ..

theorem Tx.charge_outputs (t : Tx s0) (i X cycles : ℕ) : OutputsStay n t.cur (t.charge i X cycles).cur := by
  unfold Tx.charge
  dsimp only
  exact .step (OutputsStay.of_pool ((Tx.peak_shown _).pool (by simp))) rfl

theorem Tx.dispatch_outputs (t : Tx s0) (i at_ : ℕ) : OutputsStay n t.cur (t.dispatch i at_).cur := by
  unfold Tx.dispatch
  dsimp only
  refine .ite (.refl ..) ?_
  split
  · exact .refl ..
  · split
    · exact .refl ..
    · exact .step (Kept.outputs (Tx.runMsg_keeps ..)) (.step (Kept.outputs (l := [.all 0x5F10 [0x07, 0x09], .all 0x5F00 [0x08]]) (M := [])
        (.peak (.w (.inc (.refl ..))))) (.step (OutputsStay.of_pool ((Tx.counter_shown _).pool (by simp)))
        (.step (Kept.outputs (l := [.all 0x5F00 [0x05], .ctr 243 243]) (M := []) (.tally (.refl ..))) (.step (Kept.outputs (Tx.rakeConsume_keeps ..))
          (t.setChainSt_outputs rfl)))))

theorem Tx.dispatchOwn_outputs (t : Tx s0) (i at_ : ℕ) : OutputsStay n t.cur (t.dispatchOwn i at_).cur :=
  congrArg Chain.outq (State.works_chainSt (t.dispatchOwn_works i at_) n)

theorem Tx.runCounted_outputs (t : Tx s0) (c : ℕ) (j : Job) (used bits : ℕ) (abort late : Bool) :
    OutputsStay n t.cur (t.runCounted c j used bits abort late).cur := by
  unfold Tx.runCounted
  dsimp only
  refine .each (fun u k => u.dispatchOwn_outputs ..) (.step (Tx.dispatch_outputs ..) (.step (Kept.outputs (Tx.runMsg_keeps ..)) ?_))
  generalize hu : Tx.each _ _ _ = u
  have hut : OutputsStay n t.cur u.cur := by
    rw [← hu]
    exact .each (fun v k => .step (OutputsStay.of_pool ((Tx.counter_shown _).pool (by simp))) (v.charge_outputs ..))
      (Kept.outputs (l := [.all 0x5E10 [0x0C, 0x0E], .all 0x5E00 [0x06]]) (M := []) (.w (.inc (.inc (.refl ..)))))
  exact .ite (.step (u.missRun_outputs c) hut) (.ite hut (.step (u.onTime_outputs c) hut))

/-! ## What the end of a run leaves of its reports -/

/-- What follows the counts of a run. -/
theorem Tx.runCounted_leaves (t : Tx s0) (j : Job) (used bits : ℕ) (abort late : Bool) (hn : n < 256) :
    (t.runCounted n j used bits abort late).cur.g 0x5E10 n 0x0C = (t.cur.g 0x5E10 n 0x0C + 1) % 2 ^ 32 ∧
    (t.runCounted n j used bits abort late).cur.g 0x5E10 n 0x0E = used % 2 ^ 32 ∧
    (t.runCounted n j used bits abort late).cur.gb 0x5E10 n 0x0F = t.cur.gb 0x5E10 n 0x0F ∧
    (t.runCounted n j used bits abort late).cur.gb 0x5E10 n 0x10 = t.cur.gb 0x5E10 n 0x10 := by
  unfold Tx.runCounted
  dsimp only
  have hC : (t.inc 0x5E10 n 0x0C 1).cur.g 0x5E10 n 0x0C = (t.cur.g 0x5E10 n 0x0C + 1) % 2 ^ 32 :=
    (Tx.w_get_same _ _ (entryAt_ent hn rfl)).trans rfl
  have hCw : ∀ x, (((t.inc 0x5E10 n 0x0C 1).inc 0x5E00 0 0x06 x).w 0x5E10 n 0x0E used).cur.g 0x5E10 n 0x0C = (t.cur.g 0x5E10 n 0x0C + 1) % 2 ^ 32 :=
    fun x => (Tx.w_skip _ (.inr (by decide))).trans ((Tx.inc_skip _ (.inl (by decide))).trans hC)
  have hE : ∀ u : Tx s0, (u.w 0x5E10 n 0x0E used).cur.g 0x5E10 n 0x0E = used % 2 ^ 32 := fun u =>
    (Tx.w_get_same _ _ (entryAt_ent hn rfl)).trans rfl
  have hb : ∀ x e, (((t.inc 0x5E10 n 0x0C 1).inc 0x5E00 0 0x06 x).w 0x5E10 n 0x0E used).cur.gb 0x5E10 n e = t.cur.gb 0x5E10 n e := fun _ _ => rfl
  generalize hv : (((t.inc 0x5E10 n 0x0C 1).inc 0x5E00 0 0x06 (b2n !abort)).w 0x5E10 n 0x0E used) = v
  have hCv := hv ▸ hCw (b2n !abort)
  have hEv := hv ▸ hE _
  have hbv := hv ▸ hb (b2n !abort)
  generalize hz : Tx.each _ (s0.coresOf n) (fun t k => t.dispatchOwn k (j.start + used)) = z
  have hk : Keeps [.all 0x5E00 [0x07, 0x0B, 0x0C], .all 0x5E01 [0x06], .all 0x5E10 [0x05, 0x0D, 0x13], .all 0x5F00 [0x01, 0x02, 0x05, 0x06, 0x08, 0x09],
      .all 0x5F10 [0x07, 0x08, 0x09], .ctr 208 223, .ctr 224 239, .ctr 240 243, .ctr 243 243, .ctr 244 244] [.free, .pool] v.cur z.cur := by
    rw [← hz]
    have hload : Keeps [.all 0x5E00 [0x07, 0x0B, 0x0C], .all 0x5E01 [0x06], .all 0x5E10 [0x05, 0x0D, 0x13], .all 0x5F00 [0x01, 0x02, 0x05, 0x06, 0x08, 0x09],
        .all 0x5F10 [0x07, 0x08, 0x09], .ctr 208 223, .ctr 224 239, .ctr 240 243, .ctr 243 243, .ctr 244 244] [.free, .pool] v.cur
        (v.each (s0.coresOf n) (fun t i => (t.charge i j.X used).counter (208 + i % 16) 1)).cur :=
      .each (fun _ i => .counterIn (lo := 208) (hi := 223) (.step (Tx.charge_keeps ..) (.refl ..)) (by omega) (by omega)) (.refl ..)
    exact .each (fun _ _ => .step (Tx.dispatchOwn_keeps ..) (.refl ..)) (.step (Tx.dispatch_keeps ..) (.step (Tx.runMsg_keeps ..)
      (.ite (.step (Tx.missRun_keeps ..) hload) (.ite hload (.step (Tx.onTime_keeps ..) hload)))))
  exact ⟨(hk.gOf rfl).trans hCv, (hk.gOf rfl).trans hEv, (hk.gbOf rfl).trans (hbv _), (hk.gbOf rfl).trans (hbv _)⟩

theorem Tx.poolSettle_outputs (t : Tx s0) : OutputsStay n t.cur t.poolSettle.cur := by
  unfold Tx.poolSettle
  refine .each (fun u c => u.coalesce_outputs c) (.each (fun u p => ?_) (.each (fun u k => ?_) (.refl ..)))
  · split
    · exact .ite (.refl ..) rfl
    · exact .refl ..
  · exact congrArg Chain.outq (State.works_chainSt (u.taskCoalesce_works k) n)

/-- What a run that came to its end in time leaves. -/
theorem Tx.runEnded_leaves (t : Tx s0) (j : Job) (bad : List PoolFault) :
    (t.runEnded n j bad false).cur.gb 0x5E10 n 0x0F = (s0.runChain n j bad).words ∧
    (t.runEnded n j bad false).cur.gb 0x5E10 n 0x10 = (s0.runChain n j bad).res.take 16384 ∧
    (t.runEnded n j bad false).cur.g 0x5E10 n 0x0C = t.cur.g 0x5E10 n 0x0C ∧
    ((t.runEnded n j bad false).cur.chainSt n).outq = (s0.chainSt n).outq ++
      [(j.X, (List.range (s0.desc n).outs).map (fun o => mget [] (s0.runChain n j bad).bufs (16 + o)))] := by
  unfold Tx.runEnded
  dsimp only
  rw [if_neg (by decide)]
  generalize s0.runChain n j bad = r
  generalize (s0.chainSt n).outq ++ [(j.X, (List.range (s0.desc n).outs).map (fun o => mget [] r.bufs (16 + o)))] = q
  generalize hu : t.setChainSt n _ = u
  have huq : (u.cur.chainSt n).outq = q := by rw [← hu, Tx.setChainSt_same]
  have huc : u.cur.g 0x5E10 n 0x0C = t.cur.g 0x5E10 n 0x0C := by rw [← hu, Tx.setChainSt_g]
  have hF : ((u.wb 0x5E10 n 0x0F r.words).wb 0x5E10 n 0x10 (r.res.take 16384)).cur.gb 0x5E10 n 0x0F = r.words :=
    (Tx.wb_gb_other _ (by decide)).trans (Tx.wb_blob_same ..)
  have h10 : ((u.wb 0x5E10 n 0x0F r.words).wb 0x5E10 n 0x10 (r.res.take 16384)).cur.gb 0x5E10 n 0x10 = r.res.take 16384 := Tx.wb_blob_same ..
  have hk : Keeps [.all 0x5E10 [0x0F, 0x10]] [] u.cur ((u.wb 0x5E10 n 0x0F r.words).wb 0x5E10 n 0x10 (r.res.take 16384)).cur := .wb (.wb (.refl ..))
  generalize (u.wb 0x5E10 n 0x0F r.words).wb 0x5E10 n 0x10 (r.res.take 16384) = v at hF h10 hk
  have hend : Keeps [.all 0x5E00 [0x08, 0x09, 0x0A, 0x0C], .all 0x5E10 [0x13], .all 0x6100 [0x03, 0x05, 0x09], .ctr 249 249] [] v.cur
      ((v.poolBad (s0.coreOf n) bad).runFlags n r.bits).cur := .step (Tx.runFlags_keeps ..) (.step (Tx.poolBad_keeps ..) (.refl ..))
  refine ⟨(hend.gbOf rfl).trans hF, (hend.gbOf rfl).trans h10, (hend.gOf rfl).trans ((hk.gOf rfl).trans huc), ?_⟩
  rw [State.chainSt_congr (hend.pool (by simp)), State.chainSt_congr (hk.pool (by simp)), huq]

theorem runComplete_ends (hc : s.clocked = true) (hn : n < 256) (cycles : ℕ) (bad : List PoolFault) {j : Job} (hj : (s.chainSt n).cur = some j)
    (hm : j.missed = false) (hin : s.now < j.X + 1 + (s.desc n).b) :
    let r := s.runChain n j bad
    ∃ t, exec (.runComplete n cycles bad none) s = .next t ∧ t.gb 0x5E10 n 0x0F = r.words ∧
      t.gb 0x5E10 n 0x10 = r.res.take 16384 ∧
      t.g 0x5E10 n 0x0C = (s.g 0x5E10 n 0x0C + 1) % 2 ^ 32 ∧
      t.g 0x5E10 n 0x0E = min cycles (s.costOf (s.desc n)) % 2 ^ 32 ∧
      (t.chainSt n).outq = (s.chainSt n).outq ++
        [(j.X, (List.range (s.desc n).outs).map (fun o => mget [] r.bufs (16 + o)))] := by
  intro r
  change ∃ t, execRunComplete n cycles bad none s = .next t ∧ _
  rw [execRunComplete_ends bad cycles hj]
  have hlate : s.runLate n j = false := by
    unfold State.runLate
    rw [hm, Bool.false_or, decide_eq_false_iff_not]
    omega
  rw [hlate]
  have hset := (Tx.start s).poolSettle_keeps
  obtain ⟨hF, h10, hC, hq⟩ := (Tx.start s).poolSettle.runEnded_leaves (n := n) j bad
  refine run_to hc _ rfl fun t ht => ?_
  have hC' : (Tx.start s).poolSettle.cur.g 0x5E10 n 0x0C = s.g 0x5E10 n 0x0C := hset.gOf rfl
  generalize (Tx.start s).poolSettle.runEnded n j bad false = u at ht hF h10 hC hq
  obtain ⟨hcC, hcE, hcF, hc10⟩ := u.runCounted_leaves j (min cycles (s.costOf (s.desc n))) (s.runChain n j bad).bits false false hn
  have hcq : OutputsStay n u.cur _ := u.runCounted_outputs n j (min cycles (s.costOf (s.desc n))) (s.runChain n j bad).bits false false
  refine ⟨ht.seenGb.trans (hcF.trans hF), ht.seenGb.trans (hc10.trans h10), ?_, (ht.seenG (by simp [apart])).trans hcE, ?_⟩
  · rw [ht.seenG (by simp [apart]), hcC, hC, hC']
  · rw [State.chainSt_congr (ht.pool (by simp)), ← hq]
    exact hcq

/-! ## Flags of a chain stay set -/

/-- Bit x of the status of chain n, 0x5E10[n]:13, where it is set, stays so. -/
abbrev ChainEvent (n x : ℕ) (a b : State) : Prop := BitStays (K 0x5E10 n 0x13) x a b

section
variable {x : ℕ} (hn : n < 256) (hx : x < 8)
include hn hx

theorem Tx.flag_chainEvent (t : Tx s0) (i m c v : ℕ) : ChainEvent n x t.cur (t.flag i m c v).cur := by
  refine t.flag_stays (entryAt_ent hn rfl) rfl rfl ?_
  interval_cases x <;> rfl

theorem Tx.missRun_chainEvent (t : Tx s0) (c : ℕ) : ChainEvent n x t.cur (t.missRun c).cur := by
  unfold Tx.missRun
  dsimp only
  generalize hv : Tx.tally _ 0x5E00 0 0x07 = v
  have hk : Keeps [.all 0x5E00 [0x07], .all 0x5E10 [0x0D], .ctr 224 239] [] t.cur v.cur := by
    rw [← hv]
    exact .tally (.tally (.each (fun _ i => .counterIn (lo := 224) (hi := 239) (.refl ..) (by omega) (by omega)) (.refl ..)))
  have hu : ChainEvent n x t.cur ((v.flagBit 0x5E10 c 0x13 4).flagBit 0x5E00 0 0x0C 2).cur :=
    .trans (.trans (.of hk) (v.flag_chainEvent hn hx ..)) (Tx.flag_chainEvent hn hx ..)
  generalize (v.flagBit 0x5E10 c 0x13 4).flagBit 0x5E00 0 0x0C 2 = u at hu
  have hset : ChainEvent n x t.cur (u.setChainSt c { u.cur.chainSt c with missed := (u.cur.chainSt c).missed + 1, onTime := 0 }).cur :=
    .step (Tx.setChainSt_keeps ..) hu
  refine .ite hset (.trans (.trans (.step (Tx.setChainSt_keeps ..) (.trans hset (.of (l := [.all 0x5E10 [0x05]]) (M := []) (.w (.refl ..)))))
    (Tx.flag_chainEvent hn hx ..)) (Tx.flag_chainEvent hn hx ..))

theorem Tx.onTime_chainEvent (t : Tx s0) (c : ℕ) : ChainEvent n x t.cur (t.onTime c).cur := by
  unfold Tx.onTime
  dsimp only
  refine .ite (.of (Tx.setChainSt_keeps ..)) (.ite (.of (Tx.setChainSt_keeps ..)) (.trans (.trans (.of (Tx.setChainSt_keeps ..))
    (.of (l := [.all 0x5E10 [0x05]]) (M := []) (.w (.refl ..)))) (Tx.flag_chainEvent hn hx ..)))

theorem Tx.runCounted_chainEvent (t : Tx s0) (c : ℕ) (j : Job) (used bits : ℕ) (abort late : Bool) :
    ChainEvent n x t.cur (t.runCounted c j used bits abort late).cur := by
  unfold Tx.runCounted
  dsimp only
  generalize hu : Tx.each _ _ (fun (t : Tx s0) i => (t.charge i j.X used).counter (208 + i % 16) 1) = u
  have hk : Keeps [.all 0x5E00 [0x06], .all 0x5E01 [0x06], .all 0x5E10 [0x0C, 0x0E], .ctr 208 223] [.pool] t.cur u.cur := by
    rw [← hu]
    exact .each (fun _ i => .counterIn (lo := 208) (hi := 223) (.step (Tx.charge_keeps ..) (.refl ..)) (by omega) (by omega)) (.w (.inc (.inc (.refl ..))))
  refine .each (fun z k => .of (z.dispatchOwn_keeps ..)) (.step (Tx.dispatch_keeps ..) (.step (Tx.runMsg_keeps ..) ?_))
  exact .ite (.trans (.of hk) (u.missRun_chainEvent hn hx c)) (.ite (.of hk) (.trans (.of hk) (u.onTime_chainEvent hn hx c)))

end

/-! ## An aborted run -/

theorem abortBits_ecc (l : List ℕ) : bit (abortBits l) 3 = true := by
  unfold abortBits
  cases l.isEmpty <;> rfl

/-- What an aborted run leaves. -/
theorem Tx.runAborted_leaves (t : Tx s0) (hn : n < 256) (j : Job) (bad : List PoolFault) (w : ℕ) :
    (t.runAborted n j bad w).cur.gb 0x5E10 n 0x0F = abortWords (s0.desc n).kerns.length j.touched ∧
    (t.runAborted n j bad w).cur.gb 0x5E10 n 0x10 = t.cur.gb 0x5E10 n 0x10 ∧
    bit ((t.runAborted n j bad w).cur.get (K 0x5E10 n 0x13)) 3 = true ∧
    ((t.runAborted n j bad w).cur.chainSt n).outq = (t.cur.chainSt n).outq := by
  unfold Tx.runAborted
  dsimp only
  generalize hu : t.setChainSt n _ = u
  have huq : (u.cur.chainSt n).outq = (t.cur.chainSt n).outq := by rw [← hu, Tx.setChainSt_same]
  have hub : u.cur.gb 0x5E10 n 0x10 = t.cur.gb 0x5E10 n 0x10 := by
    rw [← hu]
    rfl
  have hF : (u.wb 0x5E10 n 0x0F (abortWords (s0.desc n).kerns.length j.touched)).cur.gb 0x5E10 n 0x0F = abortWords (s0.desc n).kerns.length j.touched :=
    Tx.wb_blob_same ..
  have hk : Keeps [.all 0x5E10 [0x0F]] [] u.cur (u.wb 0x5E10 n 0x0F (abortWords (s0.desc n).kerns.length j.touched)).cur := .wb (.refl ..)
  generalize u.wb 0x5E10 n 0x0F (abortWords (s0.desc n).kerns.length j.touched) = v at hF hk
  have hbad := v.poolBad_keeps (s0.coreOf n) bad
  generalize v.poolBad (s0.coreOf n) bad = z at hbad
  have hflag := z.runFlags_keeps n (abortBits j.touched)
  have hbit : bit ((z.runFlags n (abortBits j.touched)).cur.get (K 0x5E10 n 0x13)) 3 = true := by
    unfold Tx.runFlags
    dsimp only
    rw [abortBits_ecc]
    show bit (Tx.cur (Tx.flagBit (Tx.flagBit _ 0x5E10 n 0x13 3) 0x5E00 0 0x0C 4) |>.get (K 0x5E10 n 0x13)) 3 = true
    exact (Tx.flag_chainEvent hn (by decide) _ 0x5E00 0 0x0C _).stays (Tx.flagBit_bit _ (entryAt_ent hn rfl) rfl rfl rfl)
  generalize z.runFlags n (abortBits j.touched) = y at hflag hbit
  have hend := y.sramBad_keeps 5 (poolWordAt (s0.coreOf n) 0 w)
  refine ⟨(hend.gbOf rfl).trans ((hflag.gbOf rfl).trans ((hbad.gbOf rfl).trans hF)),
    (hend.gbOf rfl).trans ((hflag.gbOf rfl).trans ((hbad.gbOf rfl).trans ((hk.gbOf rfl).trans hub))), ?_, ?_⟩
  · rwa [hend.getOf rfl]
  · rw [State.chainSt_congr (hend.pool (by simp)), State.chainSt_congr (hflag.pool (by simp)), State.chainSt_congr (hbad.pool (by simp)),
      State.chainSt_congr (hk.pool (by simp)), huq]

theorem runComplete_aborts (hc : s.clocked = true) (hn : n < 256) (cycles : ℕ) (bad : List PoolFault) (w : ℕ) {j : Job}
    (hj : (s.chainSt n).cur = some j) :
    ∃ t, exec (.runComplete n cycles bad (some w)) s = .next t ∧ bit (t.g 0x5E10 n 0x13) 3 = true ∧
      t.gb 0x5E10 n 0x0F = abortWords (s.desc n).kerns.length j.touched ∧
      (t.chainSt n).outq = (s.chainSt n).outq ∧ t.gb 0x5E10 n 0x10 = s.gb 0x5E10 n 0x10 := by
  change ∃ t, execRunComplete n cycles bad (some w) s = .next t ∧ _
  rw [execRunComplete_aborts bad cycles w hj]
  have hset := (Tx.start s).poolSettle_keeps
  have hsq : OutputsStay n s (Tx.start s).poolSettle.cur := (Tx.start s).poolSettle_outputs
  obtain ⟨hF, h10, hbit, hq⟩ := (Tx.start s).poolSettle.runAborted_leaves hn j bad w
  refine run_to hc _ rfl fun t ht => ?_
  have hb : (Tx.start s).poolSettle.cur.gb 0x5E10 n 0x10 = s.gb 0x5E10 n 0x10 := hset.gbOf rfl
  generalize (Tx.start s).poolSettle.runAborted n j bad w = u at ht hF h10 hbit hq
  obtain ⟨-, -, hcF, hc10⟩ := u.runCounted_leaves j cycles (abortBits j.touched) true (s.runLate n j) hn
  have hcq : OutputsStay n u.cur _ := u.runCounted_outputs n j cycles (abortBits j.touched) true (s.runLate n j)
  have hce := (u.runCounted_chainEvent hn (by decide : 3 < 8) n j cycles (abortBits j.touched) true (s.runLate n j)).stays hbit
  refine ⟨?_, ht.seenGb.trans (hcF.trans hF), ?_, ht.seenGb.trans (hc10.trans (h10.trans hb))⟩
  · rw [ht.seenG (by simp [apart])]
    exact hce
  · rw [State.chainSt_congr (ht.pool (by simp))]
    exact Eq.trans hcq (hq.trans hsq)

/-! ## A missed run -/

/-- What a missed run counts and flags. -/
theorem Tx.missRun_noted (t : Tx s0) (hn : n < 256) :
    (t.missRun n).cur.g 0x5E10 n 0x0D = (t.cur.g 0x5E10 n 0x0D + 1) % 2 ^ 32 ∧ bit ((t.missRun n).cur.get (K 0x5E10 n 0x13)) 4 = true := by
  unfold Tx.missRun
  dsimp only
  generalize hv : Tx.each _ _ (fun (t : Tx s0) i => t.counter (224 + i % 16) 1) = v
  have hk : Keeps [.ctr 224 239] [] t.cur v.cur := by
    rw [← hv]
    exact .each (fun _ i => .counterIn (lo := 224) (hi := 239) (.refl ..) (by omega) (by omega)) (.refl ..)
  have hD : (v.tally 0x5E10 n 0x0D).cur.g 0x5E10 n 0x0D = (v.cur.g 0x5E10 n 0x0D + 1) % 2 ^ 32 :=
    (v.tally_g (i := 0x5E10) (c := 0x0D) (entryAt_ent hn rfl) (by decide)).trans rfl
  rw [← Tx.tally_skip (v.tally 0x5E10 n 0x0D) (i := 0x5E00) (n := 0) (c := 0x07) (.inl (by decide)) (by decide)] at hD
  generalize (v.tally 0x5E10 n 0x0D).tally 0x5E00 0 0x07 = w at hD
  have hbit : bit ((w.flagBit 0x5E10 n 0x13 4).cur.get (K 0x5E10 n 0x13)) 4 = true := Tx.flagBit_bit _ (entryAt_ent hn rfl) rfl rfl rfl
  rw [← Tx.flagBit_skip w (i := 0x5E10) (n := n) (c := 0x13) (v := 4) (.inr (by decide))] at hD
  generalize w.flagBit 0x5E10 n 0x13 4 = y at hD hbit
  generalize hz : Tx.cur _ = z
  have hend : Keeps [.all 0x5E00 [0x0C], .all 0x5E10 [0x05, 0x13]] [.pool] y.cur z ∧ ChainEvent n 4 y.cur z := by
    rw [← hz]
    have hset : ∀ x, Keeps [.all 0x5E00 [0x0C], .all 0x5E10 [0x05, 0x13]] [.pool] y.cur ((y.flagBit 0x5E00 0 0x0C 2).setChainSt n x).cur := fun x =>
      .step (Tx.setChainSt_keeps ..) (.flagBit (.refl ..))
    have hev : ∀ x, ChainEvent n 4 y.cur ((y.flagBit 0x5E00 0 0x0C 2).setChainSt n x).cur := fun x =>
      .step (Tx.setChainSt_keeps ..) (.of (l := [.all 0x5E00 [0x0C]]) (M := []) (.flagBit (.refl ..)))
    refine ⟨.ite (hset _) (.flagBit (.flagBit (.step (Tx.setChainSt_keeps ..) (.w (hset _))))), .ite (hev _) ?_⟩
    exact .trans (.trans (.step (Tx.setChainSt_keeps ..) (.trans (hev _) (.of (l := [.all 0x5E10 [0x05]]) (M := []) (.w (.refl ..)))))
      (Tx.flag_chainEvent hn (by decide) ..)) (Tx.flag_chainEvent hn (by decide) ..)
  refine ⟨(hend.1.gOf rfl).trans (hD.trans ?_), hend.2.stays hbit⟩
  rw [hk.gOf rfl]

/-- What a missed run leaves of the run in progress and of the count in succession. -/
theorem Tx.missRun_own (t : Tx s0) (n : ℕ) : ((t.missRun n).cur.chainSt n).cur = (t.cur.chainSt n).cur ∧
    ((t.missRun n).cur.chainSt n).missed = (t.cur.chainSt n).missed + 1 := by
  unfold Tx.missRun
  dsimp only
  generalize hu : Tx.flagBit _ 0x5E00 0 0x0C 2 = u
  have hk := t.missRun_counts n
  rw [hu] at hk
  have hown : u.cur.chainSt n = t.cur.chainSt n := State.chainSt_congr (hk.pool (by simp)) n
  rw [← hown]
  split
  · rw [Tx.setChainSt_same]
    exact ⟨rfl, rfl⟩
  · rw [State.chainSt_congr ((Tx.flagBit_shown _).pool (by simp)), State.chainSt_congr ((Tx.flagBit_shown _).pool (by simp)),
      Tx.setChainSt_same, Tx.setChainSt_same]
    exact ⟨rfl, rfl⟩

theorem missedRun_misses (hc : s.clocked = true) (hn : n < 256) {j : Job} (hj : (s.chainSt n).cur = some j)
    (ho : j.overdue (s.desc n).b s.now = true) :
    ∃ t, exec (.missedRun n) s = .next t ∧ (t.chainSt n).cur = some { j with missed := true } ∧
      (t.chainSt n).missed = (s.chainSt n).missed + 1 ∧ t.g 0x5E10 n 0x0D = (s.g 0x5E10 n 0x0D + 1) % 2 ^ 32 ∧
      bit (t.g 0x5E10 n 0x13) 4 = true := by
  change ∃ t, execMissedRun n s = .next t ∧ _
  unfold execMissedRun
  refine run_to hc (((Tx.start s).setChainSt n { s.chainSt n with cur := some { j with missed := true } }).missRun n)
    (by dsimp only; rw [hj]; exact if_pos ho) fun t ht => ?_
  have hown := (Tx.start s).setChainSt_same n { s.chainSt n with cur := some { j with missed := true } }
  have hg : ((Tx.start s).setChainSt n { s.chainSt n with cur := some { j with missed := true } }).cur.g 0x5E10 n 0x0D = s.g 0x5E10 n 0x0D := rfl
  generalize (Tx.start s).setChainSt n { s.chainSt n with cur := some { j with missed := true } } = u at ht hown hg
  obtain ⟨hD, hbit⟩ := u.missRun_noted hn
  obtain ⟨hcur, hmiss⟩ := u.missRun_own n
  rw [hown] at hcur hmiss
  refine ⟨?_, ?_, ?_, ?_⟩
  · rw [State.chainSt_congr (ht.pool (by simp)), hcur]
  · rw [State.chainSt_congr (ht.pool (by simp)), hmiss]
  · rw [ht.seenG (by simp [apart]), hD, hg]
  · rw [ht.seenG (by simp [apart])]
    exact hbit

/-! ## Host flags -/

theorem setHostFlags_sets (hc : s.clocked = true) (hk : s.writeCheck h (opOf 0x5F00 0 0x03 d) = stOK) :
    ∃ t, exec (.setHostFlags h d) s = .next t ∧
      ∀ b < 64, bit (t.g 0x5F00 0 0x02) b = (bit (leNat d) b || bit (s.g 0x5F00 0 0x02) b) := by
  change ∃ t, execSetHostFlags h d s = .next t ∧ _
  unfold execSetHostFlags
  refine run_to hc _ (guarded_start hk _) fun t ht => fun b hb => ?_
  have hg : ((Tx.start s).status stOK).g 0x5F00 0 0x02 = s.g 0x5F00 0 0x02 := begun_g ..
  unfold hostFlagsRule at ht
  rw [hg] at ht
  generalize Tx.cycleTo _ _ _ = u at ht
  have hw : (u.w 0x5F00 0 0x02 (setFlags (s.g 0x5F00 0 0x02) (leNat d))).cur.g 0x5F00 0 0x02 =
      (s.g 0x5F00 0 0x02 ||| leNat d) &&& 0xFFFFFFFFFFFFFFFF := (Tx.w_get_same _ _ (entryAt_ent (by decide : 0 < 1) rfl)).trans rfl
  rw [ht.seenG, hw, bit_eq_testBit, bit_eq_testBit, bit_eq_testBit, Nat.testBit_and, Nat.testBit_or,
    show (0xFFFFFFFFFFFFFFFF : ℕ) = 2 ^ 64 - 1 from rfl, Nat.testBit_two_pow_sub_one, decide_eq_true hb, Bool.and_true, Bool.or_comm]

end Sys2Proof.Machine
end

section
/-! PROOFS. Kernel packs (R351 to R353). -/

namespace Sys2Proof.Machine
open Sys2Proof

set_option Elab.async false

variable {s0 s a b : State} {n h k : ℕ} {d : Bytes}

theorem State.pack_congr (h : b.power = a.power) (k : ℕ) : b.pack k = a.pack k := by
  unfold State.pack
  rw [h]

theorem Tx.packEmpty_empties (t : Tx s0) (hn : n < 8) :
    (t.packEmpty n).cur.pack n = [] ∧ (t.packEmpty n).cur.g 0x5E30 n 0x03 = 0 ∧
      (t.packEmpty n).cur.g 0x5E30 n 0x05 = t.cur.g 0x5E30 n 0x05 := by
  unfold Tx.packEmpty
  dsimp only
  have hgone : (t.setPower { t.cur.power with packs := mdel n t.cur.power.packs }).cur.pack n = [] := by
    show (mget? (mdel n t.cur.power.packs) n).getD [] = []
    rw [mget?_mdel_same]
    rfl
  have h5 : (t.setPower { t.cur.power with packs := mdel n t.cur.power.packs }).cur.g 0x5E30 n 0x05 = t.cur.g 0x5E30 n 0x05 := Tx.setPower_g ..
  generalize t.setPower { t.cur.power with packs := mdel n t.cur.power.packs } = u at hgone h5 ⊢
  generalize dfltBlob _ = x
  have h3 : (u.w 0x5E30 n 0x03 0).cur.g 0x5E30 n 0x03 = 0 := Tx.w_g_of _ (entryAt_ent (by omega : n < 8) rfl) rfl
  refine ⟨?_, ?_, ?_⟩
  · rw [State.pack_congr ((((u.w_shown.trans (Tx.w_shown _)).trans (Tx.w_shown _)).trans (Tx.wb_shown ..)).power (by simp)), hgone]
  · rw [Tx.wb_g, Tx.w_skip _ (by decide), Tx.w_skip _ (by decide), h3]
  · rw [Tx.wb_g, Tx.w_skip _ (by decide), Tx.w_skip _ (by decide), Tx.w_skip _ (by decide), h5]

theorem State.begun_packInUse : ((Tx.start s).status stOK).cur.packInUse n = s.packInUse n := by
  unfold State.packInUse
  simp only [State.begun_chainState, State.begun_desc, begun_g]
  rfl

theorem packErase_erases (hc : s.clocked = true) (hn : n < 8) (hm : s.power.mram = none) (hu : s.packInUse n = false)
    (hk : s.writeCheck h (opOf 0x5E30 n 0x02 d) = stOK) :
    ∃ t, exec (.packErase h n d) s = .next t ∧ t.result = ⟨some stOK, []⟩ ∧ t.pack n = [] ∧ t.g 0x5E30 n 0x03 = 0 ∧
      t.g 0x5E30 n 0x05 = s.g 0x5E30 n 0x05 := by
  change ∃ t, execPackErase h n d s = .next t ∧ _
  unfold execPackErase
  refine run_to hc _ (guarded_start hk _) fun t ht => ?_
  have hnone : ((Tx.start s).status stOK).cur.power.mram = none := hm
  have hfloor : ((Tx.start s).status stOK).cur.g 0x5E30 n 0x05 = s.g 0x5E30 n 0x05 := begun_g ..
  have hres : ((Tx.start s).status stOK).cur.result = ⟨some stOK, []⟩ := rfl
  have huse := State.begun_packInUse.trans hu
  unfold packEraseRule at ht
  generalize (Tx.start s).status stOK = u at ht hnone hfloor hres huse
  rw [hnone, huse, if_neg (by decide), if_neg (by decide)] at ht
  obtain ⟨hpack, h3, h5⟩ := u.packEmpty_empties hn
  have hkeep := (Tx.packEmpty_keeps u n).result (by simp)
  generalize u.packEmpty n = v at ht hpack h3 h5 hkeep
  refine ⟨?_, ?_, ?_, ?_⟩
  · rw [ht.result (by simp), hkeep, hres]
  · rw [State.pack_congr (ht.power (by simp)), hpack]
  · rw [ht.seenG (by simp [apart]), h3]
  · rw [ht.seenG (by simp [apart]), h5, hfloor]

/-! ## A pack is written -/

/-- The identifiers of the packs in the other slots (check 5 of R352). -/
def State.packOthers (s : State) (n : ℕ) : List ℕ :=
  ((List.range 8).filter (fun j => j != n && s.g 0x5E30 j 0x03 == 1)).foldl (fun a j => a ++ packIds (s.pack j)) []

theorem mem_foldl_append {α β : Type} (f : α → List β) (x : β) : ∀ (l : List α) (r : List β),
    x ∈ l.foldl (fun a j => a ++ f j) r ↔ x ∈ r ∨ ∃ j ∈ l, x ∈ f j
  | [], r => by simp
  | j :: l, r => by
    rw [List.foldl_cons, mem_foldl_append f x l, List.mem_append]
    simp [or_assoc]

theorem State.packOthers_apart (ho : ∀ i ∈ packIds d, romKernels.contains i = false ∧
    ∀ j < 8, j ≠ n → s.g 0x5E30 j 0x03 = 1 → (packIds (s.pack j)).contains i = false) :
    (packIds d).any (fun i => romKernels.contains i || (s.packOthers n).contains i) = false := by
  rw [List.any_eq_false]
  intro i hi
  obtain ⟨hrom, hother⟩ := ho i hi
  have hfree : i ∉ s.packOthers n := by
    unfold State.packOthers
    rw [mem_foldl_append]
    rintro (hnil | ⟨j, hj, hmem⟩)
    · exact absurd hnil (List.not_mem_nil)
    · obtain ⟨hj8, hjn⟩ := List.mem_filter.mp hj
      obtain ⟨hne, h1⟩ := Bool.and_eq_true_iff.mp hjn
      have := hother j (List.mem_range.mp hj8) (bne_iff_ne.mp hne) (eq_of_beq h1)
      rw [List.contains_iff_mem.mpr hmem] at this
      exact absurd this (by decide)
  rw [hrom, Bool.false_or, Bool.not_eq_true]
  simpa using hfree

theorem State.begun_packOthers : ((Tx.start s).status stOK).cur.packOthers n = s.packOthers n := rfl

/-- What R352 asks of a pack, but for its signature. -/
structure PackInOrder (s : State) (n : ℕ) (d : Bytes) : Prop where
  fits : d.length = 160 + fieldLE d 12 4
  small : d.length ≤ 524288
  mark : slice d 0 4 = [0x55, 0x4B, 0x50, 0x4B]
  form : fieldLE d 4 2 = 1
  some_ : fieldLE d 6 2 ≠ 0
  most : fieldLE d 6 2 ≤ 64
  digest : slice d 16 48 = sha384 (packBody d)
  floor : s.g 0x5E30 n 0x05 ≤ fieldLE d 8 4
  apart_ : (packIds d).any (fun i => romKernels.contains i || (s.packOthers n).contains i) = false

theorem PackInOrder.begun (hd : PackInOrder s n d) : PackInOrder ((Tx.start s).status stOK).cur n d := by
  obtain ⟨hlen, hsmall, hmark, hform, hn0, hn, hsha, hfloor, hids⟩ := hd
  refine ⟨hlen, hsmall, hmark, hform, hn0, hn, hsha, ?_, ?_⟩
  · rwa [begun_g]
  · rwa [State.begun_packOthers]

/-- The rule of a pack in order asks for its signature only. -/
theorem packRule_inOrder (t : Tx s0) (hm : t.cur.power.mram = none) (hu : t.cur.packInUse n = false) (hd : PackInOrder t.cur n d) :
    packRule n d t = if ecdsaVerify gumadalKey (sha384 (d.take (64 + fieldLE d 12 4))) (d.drop (64 + fieldLE d 12 4)) = true then
      (t.packEmpty n).mramBegin n d else t.packRefuse n 3 := by
  obtain ⟨hlen, hsmall, hmark, hform, hn0, hn, hsha, hfloor, hids⟩ := hd
  have hfloor : ¬ fieldLE d 8 4 < t.cur.g 0x5E30 n 0x05 := Nat.not_lt.mpr hfloor
  unfold State.packOthers at hids
  unfold packRule
  dsimp only
  rw [hm, hu, if_neg (by decide), if_neg (by decide), if_neg (by simp; omega), hmark, hform, if_neg (by simp; omega), ← hsha,
    if_neg (by simp)]
  by_cases hv : ecdsaVerify gumadalKey (sha384 (d.take (64 + fieldLE d 12 4))) (d.drop (64 + fieldLE d 12 4)) = true
  · rw [if_pos hv, hv, if_neg (by decide), if_neg hfloor, hids, if_neg (by decide)]
  · rw [if_neg hv, if_pos (by simpa using hv)]

/-- A write to the MRAM of `place` begins: it answers nothing yet, and ends within the bound of R412. -/
theorem Tx.mramBegin_begins (t : Tx s0) (k : ℕ) (d : Bytes) : (t.mramBegin k d).cur.result = ⟨none, []⟩ ∧
    ∃ e good, (t.mramBegin k d).cur.power = { t.cur.power with mram := some ⟨k, d, e, good⟩ } ∧ t.cur.clock ≤ e ∧
      e ≤ t.cur.clock + mramTime d.length := by
  refine ⟨rfl, t.cur.clock + Config.free t.cur.free % (mramTime d.length + 1), _, rfl, Nat.le_add_right .., ?_⟩
  have : Config.free t.cur.free % (mramTime d.length + 1) < mramTime d.length + 1 := Nat.mod_lt _ (by omega)
  omega

theorem packWrite_takes (hc : s.clocked = true) (hn : n < 8) (hm : s.power.mram = none) (hu : s.packInUse n = false)
    (hk : s.writeCheck h (opOf 0x5E30 n 0x01 d) = stOK) (hd : PackInOrder s n d) {signed : Bool}
    (hsig : signed = ecdsaVerify gumadalKey (sha384 (d.take (64 + fieldLE d 12 4))) (d.drop (64 + fieldLE d 12 4))) :
    ∃ t, exec (.packWrite h n d) s = .next t ∧
      (signed = true → t.result = ⟨none, []⟩ ∧ t.pack n = [] ∧ t.g 0x5E30 n 0x03 = 0 ∧ t.g 0x5E30 n 0x05 = s.g 0x5E30 n 0x05 ∧
        ∃ e good, t.power.mram = some ⟨n, d, e, good⟩ ∧ s.clock ≤ e ∧ e ≤ s.clock + mramTime d.length) ∧
      (signed = false → t.result = ⟨some stOutOfRange, []⟩ ∧ t.pack n = s.pack n ∧ t.g 0x5E30 n 0x08 = 3) := by
  change ∃ t, execPackWrite h n d s = .next t ∧ _
  unfold execPackWrite
  refine run_to hc _ (guarded_start hk _) fun t ht => ?_
  have hfloor : ((Tx.start s).status stOK).cur.g 0x5E30 n 0x05 = s.g 0x5E30 n 0x05 := begun_g ..
  have hclock : ((Tx.start s).status stOK).cur.clock = s.clock := rfl
  have hold : ((Tx.start s).status stOK).cur.pack n = s.pack n := rfl
  have hnone : ((Tx.start s).status stOK).cur.power.mram = none := hm
  have huse := State.begun_packInUse.trans hu
  have hd := hd.begun
  generalize (Tx.start s).status stOK = u at ht hfloor hclock hold hnone huse hd
  rw [packRule_inOrder u hnone huse hd, ← hsig] at ht
  cases signed
  · rw [if_neg (by decide)] at ht
    have hpack : (u.packRefuse n 3).cur.pack n = s.pack n :=
      (State.pack_congr ((u.w_shown (i := 0x5E30) (n := n) (c := 0x08) (v := 3)).power (by simp)) n).trans hold
    have h8 : (u.packRefuse n 3).cur.g 0x5E30 n 0x08 = 3 := Tx.w_g_of u (entryAt_ent (by omega : n < 8) rfl) rfl
    have hres : (u.packRefuse n 3).cur.result = ⟨some stOutOfRange, []⟩ := rfl
    generalize u.packRefuse n 3 = v at ht hpack h8 hres
    refine ⟨fun h => absurd h (by decide), fun _ => ⟨?_, ?_, ?_⟩⟩
    · rw [ht.result (by simp), hres]
    · rw [State.pack_congr (ht.power (by simp)), hpack]
    · rw [ht.seenG (by simp [apart]), h8]
  · rw [if_pos rfl] at ht
    obtain ⟨hpack, h3, h5⟩ := u.packEmpty_empties hn
    have hclock' : (u.packEmpty n).cur.clock = s.clock := ((Tx.packEmpty_keeps u n).clock (by simp)).2.trans hclock
    generalize u.packEmpty n = v at ht hpack h3 h5 hclock'
    obtain ⟨hres, e, good, hpow, hlo, hhi⟩ := v.mramBegin_begins n d
    have hg : ∀ c, (v.mramBegin n d).cur.g 0x5E30 n c = v.cur.g 0x5E30 n c := fun c => rfl
    rw [hclock'] at hlo hhi
    generalize v.mramBegin n d = w at ht hres hpow hg
    refine ⟨fun _ => ⟨?_, ?_, ?_, ?_, e, good, ?_, hlo, hhi⟩, fun h => absurd h (by decide)⟩
    · rw [ht.result (by simp), hres]
    · rw [State.pack_congr (ht.power (by simp)), ← hpack]
      unfold State.pack
      rw [hpow]
    · rw [ht.seenG (by simp [apart]), hg, h3]
    · rw [ht.seenG (by simp [apart]), hg, h5, hfloor]
    · rw [ht.power (by simp), hpow]

/-! ## The end of its write -/

theorem Tx.mramPut_pack (t : Tx s0) {r : MramRun} (hr : r.place < 8) :
    (t.mramPut r).cur.pack r.place = r.image ∧ (t.mramPut r).cur.power.mram = t.cur.power.mram ∧
      (t.mramPut r).cur.g 0x5E30 r.place 0x03 = 1 ∧ (t.mramPut r).cur.g 0x5E30 r.place 0x04 = fieldLE r.image 8 4 ∧
      (t.mramPut r).cur.g 0x5E30 r.place 0x05 = fieldLE r.image 8 4 ∧ (t.mramPut r).cur.g 0x5E30 r.place 0x06 = fieldLE r.image 6 2 ∧
      (t.mramPut r).cur.gb 0x5E30 r.place 0x07 = sha384 (packBody r.image) := by
  unfold Tx.mramPut
  dsimp only
  rw [if_pos hr]
  obtain ⟨k, d, e, good⟩ := r
  dsimp only at hr ⊢
  have hpack : (t.setPower { t.cur.power with packs := mset k d t.cur.power.packs }).cur.pack k = d := by
    show (mget? (mset k d t.cur.power.packs) k).getD [] = d
    rw [mget?_mset_same]
    rfl
  have hmram : (t.setPower { t.cur.power with packs := mset k d t.cur.power.packs }).cur.power.mram = t.cur.power.mram := rfl
  generalize t.setPower { t.cur.power with packs := mset k d t.cur.power.packs } = u at hpack hmram ⊢
  have h3 : (u.w 0x5E30 k 0x03 1).cur.g 0x5E30 k 0x03 = 1 := Tx.w_g_of _ (entryAt_ent hr rfl) rfl
  have h4 : ((u.w 0x5E30 k 0x03 1).w 0x5E30 k 0x04 (fieldLE d 8 4)).cur.g 0x5E30 k 0x04 = fieldLE d 8 4 :=
    Tx.w_g_of _ (entryAt_ent hr rfl) (fit_of_lt (by decide) (fieldLE_lt ..))
  have h5 : (((u.w 0x5E30 k 0x03 1).w 0x5E30 k 0x04 (fieldLE d 8 4)).w 0x5E30 k 0x05 (fieldLE d 8 4)).cur.g 0x5E30 k 0x05 = fieldLE d 8 4 :=
    Tx.w_g_of _ (entryAt_ent hr rfl) (fit_of_lt (by decide) (fieldLE_lt ..))
  have h6 : ((((u.w 0x5E30 k 0x03 1).w 0x5E30 k 0x04 (fieldLE d 8 4)).w 0x5E30 k 0x05 (fieldLE d 8 4)).w 0x5E30 k 0x06 (fieldLE d 6 2)).cur.g
      0x5E30 k 0x06 = fieldLE d 6 2 := Tx.w_g_of _ (entryAt_ent hr rfl) (fit_of_lt (by decide) (fieldLE_lt ..))
  have hshown : Shown u.cur ((((u.w 0x5E30 k 0x03 1).w 0x5E30 k 0x04 (fieldLE d 8 4)).w 0x5E30 k 0x05 (fieldLE d 8 4)).w 0x5E30 k 0x06
      (fieldLE d 6 2)).cur := ((u.w_shown.trans (Tx.w_shown _)).trans (Tx.w_shown _)).trans (Tx.w_shown _)
  rw [← Tx.w_skip _ (i := 0x5E30) (n := k) (c := 0x06) (v := fieldLE d 6 2) (by decide)] at h5
  rw [← Tx.w_skip _ (i := 0x5E30) (n := k) (c := 0x05) (v := fieldLE d 8 4) (by decide),
    ← Tx.w_skip _ (i := 0x5E30) (n := k) (c := 0x06) (v := fieldLE d 6 2) (by decide)] at h4
  rw [← Tx.w_skip _ (i := 0x5E30) (n := k) (c := 0x04) (v := fieldLE d 8 4) (by decide),
    ← Tx.w_skip _ (i := 0x5E30) (n := k) (c := 0x05) (v := fieldLE d 8 4) (by decide),
    ← Tx.w_skip _ (i := 0x5E30) (n := k) (c := 0x06) (v := fieldLE d 6 2) (by decide)] at h3
  generalize (((u.w 0x5E30 k 0x03 1).w 0x5E30 k 0x04 (fieldLE d 8 4)).w 0x5E30 k 0x05 (fieldLE d 8 4)).w 0x5E30 k 0x06 (fieldLE d 6 2) = v at h3 h4 h5 h6 hshown ⊢
  generalize sha384 (packBody d) = x
  have hg : ∀ c, c % 256 ≠ 0x08 → (((v.wb 0x5E30 k 0x07 x).w 0x5E30 k 0x08 0).sysSave).cur.g 0x5E30 k c = v.cur.g 0x5E30 k c := fun c h => by
    rw [Tx.sysSave_g _ (by simp [apart]), Tx.w_skip _ (by omega), Tx.wb_g]
  have hpow : ((v.wb 0x5E30 k 0x07 x).w 0x5E30 k 0x08 0).cur.power = u.cur.power := (hshown.trans ((v.wb_shown ..).trans (Tx.w_shown _))).power (by simp)
  have hx : ((v.wb 0x5E30 k 0x07 x).w 0x5E30 k 0x08 0).cur.gb 0x5E30 k 0x07 = x := Tx.wb_blob_same ..
  refine ⟨?_, ?_, ?_, ?_, ?_, ?_, ?_⟩
  · obtain ⟨_, _, _, hsave⟩ := ((v.wb 0x5E30 k 0x07 x).w 0x5E30 k 0x08 0).sysSave_power
    rw [← hpack]
    unfold State.pack
    rw [hsave, hpow]
  · rw [Tx.sysSave_mram, hpow, hmram]
  · rw [hg _ (by decide), h3]
  · rw [hg _ (by decide), h4]
  · rw [hg _ (by decide), h5]
  · rw [hg _ (by decide), h6]
  · rw [(Tx.sysSave_keeps _).gbOf (by simp [apart]), hx]

theorem step_places_pack (hp : s.pending = []) (hc : s.clocked = true) (hd : s.ctl.down = false) (hheld : s.ctl.held = none) {r : MramRun}
    (hr : s.power.mram = some r) (hplace : r.place < 8) (hgood : r.good = true) (he : r.ends ≤ s.clock) :
    ∃ t, step s = .next t ∧ t.power.mram = none ∧ t.result = ⟨some stOK, []⟩ ∧ t.pack r.place = r.image ∧ t.g 0x5E30 r.place 0x03 = 1 ∧
      t.g 0x5E30 r.place 0x04 = fieldLE r.image 8 4 ∧ t.g 0x5E30 r.place 0x05 = fieldLE r.image 8 4 ∧
      t.g 0x5E30 r.place 0x06 = fieldLE r.image 6 2 ∧ t.gb 0x5E30 r.place 0x07 = sha384 (packBody r.image) := by
  refine step_lands_write hp hc hd hheld hr he fun t ht => ?_
  rw [hgood, if_pos rfl] at ht
  have hland : (Tx.start s).mramLand r = ((Tx.start s).setPower { (Tx.start s).cur.power with mram := none }).mramPut r := by
    unfold Tx.mramLand
    rw [hgood]
    rfl
  rw [hland] at ht
  obtain ⟨hpack, hmram, h3, h4, h5, h6, h7⟩ := ((Tx.start s).setPower { (Tx.start s).cur.power with mram := none }).mramPut_pack hplace
  rw [Tx.setPower_power] at hmram
  generalize ((Tx.start s).setPower { (Tx.start s).cur.power with mram := none }).mramPut r = u at ht hpack hmram h3 h4 h5 h6 h7
  have hpow : (u.status stOK).cur.power = u.cur.power := rfl
  have hg : ∀ i n c, (u.status stOK).cur.g i n c = u.cur.g i n c := fun i n c => rfl
  have hgb : ∀ i n c, (u.status stOK).cur.gb i n c = u.cur.gb i n c := fun i n c => rfl
  have hres : (u.status stOK).cur.result = ⟨some stOK, []⟩ := rfl
  generalize u.status stOK = v at ht hpow hg hgb hres
  refine ⟨?_, ?_, ?_, ?_, ?_, ?_, ?_, ?_⟩
  · rw [ht.power (by simp), hpow, hmram]
  · rw [ht.result (by simp), hres]
  · rw [State.pack_congr (ht.power (by simp)), State.pack_congr hpow, hpack]
  · rw [ht.seenG (by simp [apart]), hg, h3]
  · rw [ht.seenG (by simp [apart]), hg, h4]
  · rw [ht.seenG (by simp [apart]), hg, h5]
  · rw [ht.seenG (by simp [apart]), hg, h6]
  · rw [ht.seenGb, hgb, h7]

theorem step_loses_pack (hp : s.pending = []) (hc : s.clocked = true) (hd : s.ctl.down = false) (hheld : s.ctl.held = none) {r : MramRun}
    (hr : s.power.mram = some r) (hbad : r.good = false) (he : r.ends ≤ s.clock) :
    ∃ t, step s = .next t ∧ t.power.mram = none ∧ t.result = ⟨some stStoreFail, []⟩ ∧ t.pack r.place = s.pack r.place ∧
      t.g 0x5E30 r.place 0x03 = s.g 0x5E30 r.place 0x03 ∧ t.g 0x5E30 r.place 0x05 = s.g 0x5E30 r.place 0x05 := by
  refine step_lands_write hp hc hd hheld hr he fun t ht => ?_
  have hland : (Tx.start s).mramLand r = (Tx.start s).setPower { (Tx.start s).cur.power with mram := none } := by
    unfold Tx.mramLand
    rw [hbad]
    rfl
  rw [hbad, if_neg (by decide), hland] at ht
  have hpow : (((Tx.start s).setPower { (Tx.start s).cur.power with mram := none }).status stStoreFail).cur.power = { s.power with mram := none } := rfl
  have hg : ∀ n c, (((Tx.start s).setPower { (Tx.start s).cur.power with mram := none }).status stStoreFail).cur.g 0x5E30 n c = s.g 0x5E30 n c :=
    fun n c => rfl
  have hres : (((Tx.start s).setPower { (Tx.start s).cur.power with mram := none }).status stStoreFail).cur.result = ⟨some stStoreFail, []⟩ := rfl
  generalize ((Tx.start s).setPower { (Tx.start s).cur.power with mram := none }).status stStoreFail = v at ht hpow hg hres
  refine ⟨?_, ?_, ?_, ?_, ?_⟩
  · rw [ht.power (by simp), hpow]
  · rw [ht.result (by simp), hres]
  · unfold State.pack
    rw [ht.power (by simp), hpow]
  · rw [ht.seenG (by simp [apart]), hg]
  · rw [ht.seenG (by simp [apart]), hg]

/-- Settles O40. -/
theorem chainRunsComplete : Obligations.ChainRunsComplete := by
  unfold Obligations.ChainRunsComplete
  refine ⟨fun s n hc => ⟨fun hrun hd hr => flagRaise_raises hc hrun hd hr, fun cycles bad j hn hj hm hin => ?_, fun cycles bad j w hn hj => ?_,
    fun j hn hj ho => missedRun_misses hc hn hj ho, fun h d hk => setHostFlags_sets hc hk⟩, fun s h n d hc hn hm hu => ⟨?_, ?_⟩, ?_⟩
  · exact runComplete_ends hc hn cycles bad hj hm hin
  · exact runComplete_aborts hc hn cycles bad w hj
  · exact fun hk hlen hsmall hmark hform hn0 hmost hsha hfloor ho => packWrite_takes hc hn hm hu hk
      ⟨hlen, hsmall, hmark, hform, hn0, hmost, hsha, hfloor, State.packOthers_apart ho⟩ rfl
  · exact packErase_erases hc hn hm hu
  · intro s r hc hd hp hheld hr hplace he
    by_cases hgood : r.good = true
    · obtain ⟨t, hstep, hmram, hrest⟩ := step_places_pack hp hc hd hheld hr hplace hgood he
      exact ⟨t, hstep, hmram, fun _ => hrest, fun h => absurd (hgood.symm.trans h) (by decide)⟩
    · have hbad : r.good = false := by simpa using hgood
      obtain ⟨t, hstep, hmram, hrest⟩ := step_loses_pack hp hc hd hheld hr hbad he
      exact ⟨t, hstep, hmram, fun h => absurd h hgood, fun _ => hrest⟩

end Sys2Proof.Machine
end

section
/-! PROOFS. Stimulus, alignment run and recorder (R307, R309 to R314, R317). -/

namespace Sys2Proof.Machine
open Sys2Proof

set_option Elab.async false

variable {s0 s a b : State} {n h k B i : ℕ} {d : Bytes}

/-! ## Outputs open and close -/

theorem State.opens_congr (h : b.meas.opens = a.meas.opens) (k : ℕ) : b.opens k = a.opens k := by
  unfold State.opens
  rw [h]

theorem State.begun_meas (st : ℕ) : ((Tx.start s).status st).cur.meas = s.meas := rfl

/-- Where a change of output k asked for now lands: at the next boundary, and not before the end of the last fade. -/
def State.fadeAt (s : State) (k : ℕ) : ℕ :=
  match (s.opens k).getLast? with
  | some e => max (nextBlock s.now) (e.1 + 64)
  | none => nextBlock s.now

/-- Output k takes a change of whether it is open, which lands when it may. -/
def Tx.fadeSet (t : Tx s0) (k : ℕ) (d : Bytes) (up : Bool) : Tx s0 :=
  let u := t.w 0x5D10 k 0x01 (leNat d)
  u.setMeas { u.cur.meas with opens := mputD [] k (opensLeft t.cur.now (t.cur.opens k) ++ [(t.cur.fadeAt k, up)]) u.cur.meas.opens }

/-- A closing ends the part that the output has in the run. -/
def Tx.fadeRun (t : Tx s0) (k now : ℕ) (up : Bool) : Tx s0 :=
  match t.cur.meas.run with
  | some r =>
    match r.stim.place k with
    | some i =>
      if !up && r.stim.startOf i ≤ now && now < r.stim.startOf i + r.stim.M then
        let caps := r.caps.map (fun c => if c.num == i then { c with closed := true } else c)
        let t := t.setMeas { t.cur.meas with run := some { r with caps := caps } }
        (t.flagBit 0x5D10 k 0x0E 0).w 0x5D10 k 0x04 3
      else t
    | none => t
  | none => t

theorem openRule_changes (t : Tx s0) (hu : t.cur.on 0x5D10 k 0x01 ≠ (leNat d == 1)) :
    openRule k d t = (t.fadeSet k d (leNat d == 1)).fadeRun k t.cur.now (leNat d == 1) := by
  unfold openRule
  dsimp only
  rw [if_neg (by simpa using hu)]
  rfl

theorem Tx.fadeSet_sets (t : Tx s0) (hk : k < 512) (hd : leNat d < 2) (up : Bool) :
    (t.fadeSet k d up).cur.g 0x5D10 k 0x01 = leNat d ∧
      (t.fadeSet k d up).cur.opens k = opensLeft t.cur.now (t.cur.opens k) ++ [(t.cur.fadeAt k, up)] ∧
      (t.fadeSet k d up).cur.meas.run = t.cur.meas.run := by
  unfold Tx.fadeSet
  dsimp only
  refine ⟨?_, (mget_mputD ..).trans (if_pos rfl), ?_⟩
  · exact (Tx.setMeas_get ..).trans (Tx.w_g_of t (entryAt_ent hk rfl) (fit_of_lt (by decide) hd))
  · have hmeas : (t.w 0x5D10 k 0x01 (leNat d)).cur.meas = t.cur.meas := t.w_shown.meas (by simp)
    rw [Tx.setMeas_meas]
    dsimp only
    rw [hmeas]

theorem Tx.fadeRun_keeps (t : Tx s0) (k now : ℕ) (up : Bool) : (t.fadeRun k now up).cur.g 0x5D10 k 0x01 = t.cur.g 0x5D10 k 0x01 ∧
    (t.fadeRun k now up).cur.opens k = t.cur.opens k := by
  unfold Tx.fadeRun
  split
  · split
    · split
      · refine ⟨?_, ?_⟩
        · rw [Tx.w_skip _ (by decide), Tx.flagBit_skip _ (by decide)]
          exact Tx.setMeas_get ..
        · refine State.opens_congr ?_ k
          rw [((Tx.flagBit_shown _).trans (Tx.w_shown _)).meas (by simp), Tx.setMeas_meas]
      · exact ⟨rfl, rfl⟩
    · exact ⟨rfl, rfl⟩
  · exact ⟨rfl, rfl⟩

theorem Tx.fadeRun_closes (t : Tx s0) (hk : k < 512) {now : ℕ} {r : Align} (hr : t.cur.meas.run = some r) (hp : r.stim.place k = some i)
    (hlo : r.stim.startOf i ≤ now) (hhi : now < r.stim.startOf i + r.stim.M) :
    (t.fadeRun k now false).cur.g 0x5D10 k 0x04 = 3 ∧ bit ((t.fadeRun k now false).cur.g 0x5D10 k 0x0E) 0 = true := by
  unfold Tx.fadeRun
  rw [hr]
  dsimp only
  rw [hp]
  dsimp only
  rw [if_pos (by simp [hlo, hhi])]
  generalize t.setMeas _ = u
  refine ⟨Tx.w_g_of _ (entryAt_ent hk rfl) rfl, ?_⟩
  rw [Tx.w_skip _ (by decide)]
  exact Tx.flagBit_bit u (entryAt_ent hk rfl) rfl rfl rfl

theorem openOutput_opens (hc : s.clocked = true) (hn : n < 512) (hk : s.writeCheck h (opOf 0x5D10 n 0x01 d) = stOK) (hd : leNat d = 1)
    (ho : s.on 0x5D10 n 0x01 = false) (he : s.opens n = []) :
    ∃ t, exec (.openOutput h n d) s = .next t ∧ t.g 0x5D10 n 0x01 = 1 ∧ t.opens n = [(nextBlock s.now, true)] := by
  change ∃ t, execOpenOutput h n d s = .next t ∧ _
  unfold execOpenOutput
  refine run_to hc _ (guarded_start hk _) fun t ht => ?_
  have ho : ((Tx.start s).status stOK).cur.on 0x5D10 n 0x01 = false := ho
  have he : ((Tx.start s).status stOK).cur.opens n = [] := he
  have hnow : ((Tx.start s).status stOK).cur.now = s.now := rfl
  generalize (Tx.start s).status stOK = u at ht ho he hnow
  rw [openRule_changes u (by rw [ho, hd]; decide), hd] at ht
  obtain ⟨h1, hopens, -⟩ := u.fadeSet_sets (d := d) hn (by omega) (1 == 1)
  have hat : u.cur.fadeAt n = nextBlock s.now := by
    unfold State.fadeAt
    rw [he, hnow]
    rfl
  rw [he, hat] at hopens
  generalize u.fadeSet n d (1 == 1) = v at ht h1 hopens
  obtain ⟨hkeep, hstay⟩ := v.fadeRun_keeps n u.cur.now (1 == 1)
  generalize v.fadeRun n u.cur.now (1 == 1) = w at ht hkeep hstay
  refine ⟨?_, ?_⟩
  · rw [ht.seenG, hkeep, h1, hd]
  · rw [State.opens_congr (congrArg Meas.opens (ht.meas (by simp))), hstay, hopens]
    rfl

theorem closeOutput_closes (hc : s.clocked = true) (hn : n < 512) (hk : s.writeCheck h (opOf 0x5D10 n 0x01 d) = stOK) (hd : leNat d = 0)
    (ho : s.on 0x5D10 n 0x01 = true) (he : s.opens n = [(B, true)]) :
    ∃ t, exec (.closeOutput h n d) s = .next t ∧ t.g 0x5D10 n 0x01 = 0 ∧
      t.opens n = [(B, true), (max (nextBlock s.now) (B + 64), false)] ∧
      ∀ r i, s.meas.run = some r → r.stim.place n = some i → r.stim.startOf i ≤ s.now →
        s.now < r.stim.startOf i + r.stim.M → t.g 0x5D10 n 0x04 = 3 ∧ bit (t.g 0x5D10 n 0x0E) 0 = true := by
  change ∃ t, execCloseOutput h n d s = .next t ∧ _
  unfold execCloseOutput
  refine run_to hc _ (guarded_start hk _) fun t ht => ?_
  have ho : ((Tx.start s).status stOK).cur.on 0x5D10 n 0x01 = true := ho
  have he : ((Tx.start s).status stOK).cur.opens n = [(B, true)] := he
  have hnow : ((Tx.start s).status stOK).cur.now = s.now := rfl
  have hrun : ((Tx.start s).status stOK).cur.meas.run = s.meas.run := rfl
  generalize (Tx.start s).status stOK = u at ht ho he hnow hrun
  rw [openRule_changes u (by rw [ho, hd]; decide), hd] at ht
  obtain ⟨h1, hopens, hr⟩ := u.fadeSet_sets (d := d) hn (by omega) (0 == 1)
  have hat : u.cur.fadeAt n = max (nextBlock s.now) (B + 64) := by
    unfold State.fadeAt
    rw [he, hnow]
    rfl
  rw [he, hat] at hopens
  rw [hrun] at hr
  rw [hnow] at ht
  generalize u.fadeSet n d (0 == 1) = v at ht h1 hopens hr
  obtain ⟨hkeep, hstay⟩ := v.fadeRun_keeps n s.now (0 == 1)
  have hclose : ∀ r i, s.meas.run = some r → r.stim.place n = some i → r.stim.startOf i ≤ s.now → s.now < r.stim.startOf i + r.stim.M →
      (v.fadeRun n s.now (0 == 1)).cur.g 0x5D10 n 0x04 = 3 ∧ bit ((v.fadeRun n s.now (0 == 1)).cur.g 0x5D10 n 0x0E) 0 = true :=
    fun r i h hp hlo hhi => v.fadeRun_closes hn (hr.trans h) hp hlo hhi
  generalize v.fadeRun n s.now (0 == 1) = w at ht hkeep hstay hclose
  refine ⟨?_, ?_, fun r i h hp hlo hhi => ?_⟩
  · rw [ht.seenG, hkeep, h1, hd]
  · rw [State.opens_congr (congrArg Meas.opens (ht.meas (by simp))), hstay, hopens]
    rfl
  · rw [ht.seenG, ht.seenG]
    exact hclose r i h hp hlo hhi

/-! ## The run -/

theorem Tx.setMeas_g (t : Tx s0) (x : Meas) {i n c : ℕ} : (t.setMeas x).cur.g i n c = t.cur.g i n c := t.setMeas_get x _

theorem Tx.taskTake_meas (t : Tx s0) (k : ℕ) : (t.taskTake k).cur.meas = t.cur.meas := (t.taskTake_keeps k).meas (by simp)

theorem Tx.taskFree_meas (t : Tx s0) (k : ℕ) : (t.taskFree k).cur.meas = t.cur.meas := (t.taskFree_keeps k).meas (by simp)

/-- Outputs that a run takes: selected and open. -/
def State.runOuts (s : State) : List ℕ := (List.range 512).filter (fun k => s.on 0x5D10 k 0x01 && s.on 0x5D10 k 0x02)

theorem State.begun_runOuts (st : ℕ) : ((Tx.start s).status st).cur.runOuts = s.runOuts := rfl

/-- The stimulus of a run that starts at S. -/
def State.runStim (s : State) (S : ℕ) : Stim :=
  ⟨S, s.runOuts, s.g 0x5D00 0 0x01, s.g 0x5D00 0 0x02, s.g 0x5D00 0 0x03, s.g 0x5D00 0 0x04, s.g 0x5D00 0 0x05, s.g 0x5D00 0 0x06,
    s.g 0x5D00 0 0x07, s.g 0x5D00 0 0x08, s.fA⟩

theorem State.runStim_outs (s : State) (S : ℕ) : (s.runStim S).outs = s.runOuts := by
  unfold State.runStim
  dsimp only

/-- Start of a run asked for at S. -/
def State.runAt (s : State) (S : ℕ) : ℕ := if S ≤ s.now + 32 then nextEval s.now else 16 * ceilDiv S 16

/-- A run that starts at S takes the place of the one before. -/
def Tx.runBegin (t : Tx s0) (S : ℕ) : Tx s0 := t.setMeas { t.cur.meas with run := some ⟨t.cur.runStim S, 0, [], 0⟩ }

theorem Tx.runBegin_run (t : Tx s0) (S : ℕ) : (t.runBegin S).cur.meas.run = some ⟨t.cur.runStim S, 0, [], 0⟩ := rfl

theorem State.runStim_congr (h : b.dict = a.dict) (S : ℕ) : b.runStim S = a.runStim S := by
  unfold State.runStim State.runOuts State.fA State.on State.g State.get
  rw [h]

theorem State.begun_runAt (st S : ℕ) : ((Tx.start s).status st).cur.runAt S = s.runAt S := rfl

theorem startRule_starts (t : Tx s0) (hb : t.cur.g 0x5D00 0 0x0B = 0) (ho : t.cur.runOuts ≠ [])
    (hm : t.cur.micState (t.cur.g 0x5D00 0 0x08) = 2) (hd : leNat d ≤ t.cur.now + 2 ^ 31) :
    startRule d t = (((((t.runBegin (t.cur.runAt (leNat d))).w 0x5D00 0 0x0B 1).w 0x5D00 0 0x0C (t.cur.runAt (leNat d))).w 0x5D00 0 0x0E
      0).taskTake 240).status (if leNat d ≤ t.cur.now + 32 && leNat d != 0 then stTooLate else stOK) := by
  unfold startRule
  dsimp only
  have ho : ((List.range 512).filter (fun k => t.cur.on 0x5D10 k 0x01 && t.cur.on 0x5D10 k 0x02)).isEmpty = false := by
    simpa [State.runOuts] using ho
  rw [hb, if_neg (by decide), ho, hm, if_neg (by decide), if_neg (by omega)]
  rfl

theorem startRun_starts (hc : s.clocked = true) (hk : s.writeCheck h (opOf 0x5D00 0 0x09 d) = stOK) (hb : s.g 0x5D00 0 0x0B = 0)
    (ho : s.runOuts ≠ []) (hm : s.micState (s.g 0x5D00 0 0x08) = 2) (hd : leNat d ≤ s.now + 2 ^ 31) :
    ∃ t r, exec (.startRun h d) s = .next t ∧ t.meas.run = some r ∧ r.stim.outs = s.runOuts ∧ r.next = 0 ∧ r.done = 0 ∧
      r.caps = [] ∧ r.stim.start = s.runAt (leNat d) ∧ t.g 0x5D00 0 0x0B = 1 ∧ t.g 0x5D00 0 0x0E = 0 ∧
      t.result = ⟨some (if leNat d ≤ s.now + 32 ∧ leNat d ≠ 0 then stTooLate else stOK), []⟩ := by
  suffices hrun : ∃ t, exec (.startRun h d) s = .next t ∧ t.meas.run = some ⟨s.runStim (s.runAt (leNat d)), 0, [], 0⟩ ∧
      t.g 0x5D00 0 0x0B = 1 ∧ t.g 0x5D00 0 0x0E = 0 ∧
      t.result = ⟨some (if leNat d ≤ s.now + 32 ∧ leNat d ≠ 0 then stTooLate else stOK), []⟩ by
    obtain ⟨t, hx, hr, hrest⟩ := hrun
    generalize s.runAt (leNat d) = S at hr ⊢
    exact ⟨t, ⟨s.runStim S, 0, [], 0⟩, hx, hr, s.runStim_outs S, rfl, rfl, rfl, rfl, hrest⟩
  change ∃ t, execStartRun h d s = .next t ∧ _
  unfold execStartRun
  refine run_to hc _ (guarded_start hk _) fun t ht => ?_
  rw [startRule_starts _ (by rwa [begun_g]) (by rwa [State.begun_runOuts]) (by rwa [begun_g]) hd] at ht
  have hrun := ((Tx.start s).status stOK).runBegin_run (s.runAt (leNat d))
  have hnow : ((Tx.start s).status stOK).cur.now = s.now := rfl
  rw [hnow, State.begun_runAt] at ht
  rw [State.runStim_congr (a := s) (b := ((Tx.start s).status stOK).cur) rfl] at hrun
  generalize ((Tx.start s).status stOK).runBegin (s.runAt (leNat d)) = u at ht hrun
  generalize s.runAt (leNat d) = S at ht hrun ⊢
  have hB : (u.w 0x5D00 0 0x0B 1).cur.g 0x5D00 0 0x0B = 1 := Tx.w_g_of _ (entryAt_ent (by decide : 0 < 1) rfl) rfl
  have hE : (((u.w 0x5D00 0 0x0B 1).w 0x5D00 0 0x0C S).w 0x5D00 0 0x0E 0).cur.g 0x5D00 0 0x0E = 0 :=
    Tx.w_g_of _ (entryAt_ent (by decide : 0 < 1) rfl) rfl
  have hmeas : (((u.w 0x5D00 0 0x0B 1).w 0x5D00 0 0x0C S).w 0x5D00 0 0x0E 0).cur.meas = u.cur.meas :=
    ((u.w_shown.trans (Tx.w_shown _)).trans (Tx.w_shown _)).meas (by simp)
  rw [← Tx.w_skip _ (i := 0x5D00) (n := 0) (c := 0x0C) (v := S) (by decide), ← Tx.w_skip _ (i := 0x5D00) (n := 0) (c := 0x0E) (v := 0) (by decide)] at hB
  generalize ((u.w 0x5D00 0 0x0B 1).w 0x5D00 0 0x0C S).w 0x5D00 0 0x0E 0 = v at ht hB hE hmeas
  rw [← v.taskTake_meas 240] at hmeas
  rw [← (v.taskTake_keeps 240).gOf rfl] at hB hE
  generalize v.taskTake 240 = w at ht hB hE hmeas
  refine ⟨?_, ?_, ?_, ?_⟩
  · rw [(ht.meas (by simp) : t.meas = _), ← hrun]
    exact congrArg Meas.run hmeas
  · rw [ht.seenG]
    exact hB
  · rw [ht.seenG]
    exact hE
  · rw [ht.result (by simp)]
    simp only [bne_iff_ne, Bool.and_eq_true, decide_eq_true_eq]
    rfl

theorem stimulusStart_plays (hc : s.clocked = true) {r : Align} (hr : s.meas.run = some r) (ho : r.stim.outs[r.next]? = some k)
    (hk : k < 512) (hS : r.stim.startOf r.next ≤ s.now) :
    ∃ t c, exec .stimulusStart s = .next t ∧ t.meas = { s.meas with run := some { r with next := r.next + 1, caps := r.caps ++ [c] } } ∧
      c.out = k ∧ c.at_ = r.stim.startOf r.next ∧ t.g 0x5D00 0 0x0B = 2 ∧ t.g 0x5D00 0 0x0D = k := by
  suffices hplay : ∀ c, c = (⟨r.next, k, r.stim.startOf r.next,
      ((List.range 16).filter (fun m => s.on 0x5C10 m 0x01 && s.micState m == 2)).map (fun m => ⟨m, [], false⟩), s.modOf k, [], false, false⟩ : Cap) →
      ∃ t, exec .stimulusStart s = .next t ∧ t.meas = { s.meas with run := some { r with next := r.next + 1, caps := r.caps ++ [c] } } ∧
        t.g 0x5D00 0 0x0B = 2 ∧ t.g 0x5D00 0 0x0D = k by
    obtain ⟨t, hx, hmeas, hrest⟩ := hplay _ rfl
    exact ⟨t, _, hx, hmeas, rfl, rfl, hrest⟩
  intro c hcap
  change ∃ t, execStimulusStart s = .next t ∧ _
  unfold execStimulusStart
  rw [hr]
  dsimp only
  rw [ho]
  dsimp only
  rw [← hcap]
  refine run_to hc _ (if_neg (Nat.not_lt.mpr hS)) fun t ht => ?_
  generalize hu : Tx.setMeas _ _ = u at ht
  have hmeas : u.cur.meas = { s.meas with run := some { r with next := r.next + 1, caps := r.caps ++ [c] } } := by
    rw [← hu]
    rfl
  have hB : (u.w 0x5D00 0 0x0B 2).cur.g 0x5D00 0 0x0B = 2 := Tx.w_g_of _ (entryAt_ent (by decide : 0 < 1) rfl) rfl
  have hD : ((u.w 0x5D00 0 0x0B 2).w 0x5D00 0 0x0D k).cur.g 0x5D00 0 0x0D = k :=
    Tx.w_g_of _ (entryAt_ent (by decide : 0 < 1) rfl) (fit_of_lt (by decide) (show k < 65536 by omega))
  refine ⟨?_, ?_, ?_⟩
  · rw [ht.meas (by simp), ((u.w_shown.trans (Tx.w_shown _)).trans (Tx.w_shown _)).meas (by simp), hmeas]
  · rw [ht.seenG, Tx.w_skip _ (by decide), Tx.w_skip _ (by decide), hB]
  · rw [ht.seenG, Tx.w_skip _ (by decide), hD]

/-! ## The analysis of a capture -/

theorem Stim.result_lt (x : Stim) (c : Cap) : x.result c < 256 := by
  unfold Stim.result
  split
  · decide
  · split
    · decide
    · split
      · decide
      · split <;> decide

theorem Tx.analyse_gives (t : Tx s0) (r : Align) {c : Cap} (hk : c.out < 512) :
    (t.analyse r c).cur.meas.run = some { r with caps := r.caps.drop 1, done := r.done + 1 } ∧
      (t.analyse r c).cur.g 0x5D10 c.out 0x04 = r.stim.result c := by
  refine ⟨rfl, ?_⟩
  unfold Tx.analyse
  dsimp only
  have h4 : (t.w 0x5D10 c.out 0x04 (r.stim.result c)).cur.g 0x5D10 c.out 0x04 = r.stim.result c :=
    Tx.w_g_of _ (entryAt_ent hk rfl) (fit_of_lt (by decide) (Stim.result_lt _ _))
  generalize t.w 0x5D10 c.out 0x04 (r.stim.result c) = u at h4 ⊢
  rw [← (u.measClear_keeps c.out).gOf rfl] at h4
  generalize u.measClear c.out = u at h4 ⊢
  have hrest : ∀ (v : Tx s0) (y : Meas), v.cur.g 0x5D10 c.out 0x04 = r.stim.result c →
      ((((v.arrivals r.stim c).impedance r.stim c).w 0x5D00 0 0x0E (r.done + 1)).setMeas y).cur.g 0x5D10 c.out 0x04 = r.stim.result c :=
    fun v y h => (Tx.setMeas_get ..).trans ((Tx.w_skip _ (by decide)).trans (((Tx.impedance_keeps ..).gOf rfl).trans
      (((Tx.arrivals_keeps ..).gOf rfl).trans h)))
  split
  · exact hrest _ _ (((u.reference_keeps ..).gOf rfl).trans h4)
  · exact hrest _ _ h4

theorem captureAnalysis_analyses (hc : s.clocked = true) {r : Align} {c : Cap} {cs : List Cap} (hr : s.meas.run = some r)
    (hcaps : r.caps = c :: cs) (hk : c.out < 512) (hend : c.at_ + r.stim.M + r.stim.gap + 1 ≤ s.now) (hp : s.pieceRun = true) :
    ∃ t, exec .captureAnalysis s = .next t ∧ t.meas.run = some { r with caps := cs, done := r.done + 1 } ∧
      t.g 0x5D10 c.out 0x04 = r.stim.result c := by
  change ∃ t, execCaptureAnalysis s = .next t ∧ _
  unfold execCaptureAnalysis
  have hana : s.analysing = true := by
    unfold State.analysing
    rw [hr]
    dsimp only
    rw [hcaps]
    exact decide_eq_true hend
  rw [hr]
  dsimp only
  rw [hcaps]
  dsimp only
  rw [hana, hp]
  refine run_to hc _ (if_neg (by decide)) fun t ht => ?_
  have hgives : ∀ u : Tx s, Kept (fun _ => False) [] ((u.setTask 240 { u.cur.task 240 with ran := 0 }).analyse r c).cur t →
      t.meas.run = some { r with caps := cs, done := r.done + 1 } ∧ t.g 0x5D10 c.out 0x04 = r.stim.result c := fun u ht => by
    obtain ⟨hrun, h4⟩ := (u.setTask 240 { u.cur.task 240 with ran := 0 }).analyse_gives r hk
    rw [hcaps] at hrun
    generalize (u.setTask 240 { u.cur.task 240 with ran := 0 }).analyse r c = v at ht hrun h4
    exact ⟨by rw [ht.meas (by simp), hrun, List.drop_one, List.tail_cons], by rw [ht.seenG, h4]⟩
  split at ht
  · exact hgives _ ht
  · exact hgives _ ht

/-! ## The end of a run -/

theorem runDone_ends (hc : s.clocked = true) {r : Align} (hr : s.meas.run = some r) (hd : r.stim.outs.length ≤ r.done) :
    ∃ t, exec .runDone s = .next t ∧ t.meas.run = none ∧ t.g 0x5D00 0 0x0B = 0 ∧ t.g 0x5D00 0 0x0D = 0xFFFF ∧
      t.g 0x5D00 0 0x13 = (s.g 0x5D00 0 0x13 + 1) % 2 ^ 32 ∧ bit (t.g 0x5D00 0 0x14) 0 = true := by
  change ∃ t, execRunDone s = .next t ∧ _
  unfold execRunDone
  rw [hr]
  dsimp only
  refine run_to hc _ (if_neg (Nat.not_lt.mpr hd)) fun t ht => ?_
  have hg : (((Tx.start s).propose r.stim).soundSpeed r.stim).cur.g 0x5D00 0 0x13 = s.g 0x5D00 0 0x13 :=
    ((Tx.soundSpeed_keeps ..).gOf rfl).trans ((Tx.propose_keeps ..).gOf rfl)
  generalize ((Tx.start s).propose r.stim).soundSpeed r.stim = u at ht hg
  have hnone : (u.setMeas { u.cur.meas with run := none }).cur.meas.run = none := rfl
  rw [← u.setMeas_g { u.cur.meas with run := none }] at hg
  generalize u.setMeas { u.cur.meas with run := none } = u at ht hg hnone
  rw [← (u.taskFree_keeps 240).gOf rfl] at hg
  rw [← u.taskFree_meas 240] at hnone
  generalize u.taskFree 240 = u at ht hg hnone
  have hB : (u.w 0x5D00 0 0x0B 0).cur.g 0x5D00 0 0x0B = 0 := Tx.w_g_of _ (entryAt_ent (by decide : 0 < 1) rfl) rfl
  have hD : ((u.w 0x5D00 0 0x0B 0).w 0x5D00 0 0x0D 0xFFFF).cur.g 0x5D00 0 0x0D = 0xFFFF := Tx.w_g_of _ (entryAt_ent (by decide : 0 < 1) rfl) rfl
  have hE : (((u.w 0x5D00 0 0x0B 0).w 0x5D00 0 0x0D 0xFFFF).inc 0x5D00 0 0x13 1).cur.g 0x5D00 0 0x13 = (s.g 0x5D00 0 0x13 + 1) % 2 ^ 32 := by
    have h13 : ((u.w 0x5D00 0 0x0B 0).w 0x5D00 0 0x0D 0xFFFF).cur.g 0x5D00 0 0x13 = s.g 0x5D00 0 0x13 := by
      rw [Tx.w_skip _ (by decide), Tx.w_skip _ (by decide), hg]
    rw [← h13]
    exact Tx.w_get_same (i := 0x5D00) (b := 0x13) _ _ (entryAt_ent (by decide : 0 < 1) rfl)
  have hmeas : (((u.w 0x5D00 0 0x0B 0).w 0x5D00 0 0x0D 0xFFFF).inc 0x5D00 0 0x13 1).cur.meas = u.cur.meas :=
    ((u.w_shown.trans (Tx.w_shown _)).trans (Tx.inc_shown _)).meas (by simp)
  rw [← Tx.w_skip _ (i := 0x5D00) (n := 0) (c := 0x0D) (v := 0xFFFF) (by decide),
    ← Tx.inc_skip _ (i := 0x5D00) (n := 0) (c := 0x13) (v := 1) (by decide)] at hB
  rw [← Tx.inc_skip _ (i := 0x5D00) (n := 0) (c := 0x13) (v := 1) (by decide)] at hD
  generalize ((u.w 0x5D00 0 0x0B 0).w 0x5D00 0 0x0D 0xFFFF).inc 0x5D00 0 0x13 1 = v at ht hB hD hE hmeas
  refine ⟨?_, ?_, ?_, ?_, ?_⟩
  · rw [ht.meas (by simp), (v.flagBit_shown).meas (by simp), hmeas, hnone]
  · rw [ht.seenG, Tx.flagBit_skip _ (by decide), hB]
  · rw [ht.seenG, Tx.flagBit_skip _ (by decide), hD]
  · rw [ht.seenG, Tx.flagBit_skip _ (by decide), hE]
  · rw [ht.seenG]
    exact Tx.flagBit_bit _ (entryAt_ent (by decide : 0 < 1) rfl) rfl rfl rfl

/-- Output p of a run is given up: result 3, and what an analysis does not find. -/
def Tx.giveUp (t : Tx s0) (x : Stim) (p : ℕ × ℕ) : Tx s0 :=
  let t := ((t.w 0x5D10 p.2 0x04 3).measClear p.2).wb 0x5D10 p.2 0x0A (List.replicate 64 0xFF)
  (t.wb 0x5D10 p.2 0x0C []).w 0x5D10 p.2 0x0D (x.startOf p.1)

theorem Tx.giveUp_result (t : Tx s0) (x : Stim) (p : ℕ × ℕ) (c : ℕ) :
    (t.giveUp x p).cur.g 0x5D10 c 0x04 = (t.w 0x5D10 p.2 0x04 3).cur.g 0x5D10 c 0x04 := by
  unfold Tx.giveUp
  dsimp only
  rw [Tx.w_skip _ (by decide), Tx.wb_g, Tx.wb_g, (Tx.measClear_keeps ..).gOf rfl]

theorem Tx.giveUp_stays (t : Tx s0) (x : Stim) (p : ℕ × ℕ) {c : ℕ} (hc : c < 512) (h : t.cur.g 0x5D10 c 0x04 = 3) :
    (t.giveUp x p).cur.g 0x5D10 c 0x04 = 3 := by
  rw [t.giveUp_result]
  by_cases hk : K 0x5D10 c 0x04 = K 0x5D10 p.2 0x04
  · exact (congrArg (t.w 0x5D10 p.2 0x04 3).cur.get hk).trans ((Tx.w_get_same _ _ (hk ▸ entryAt_ent hc rfl)).trans rfl)
  · exact (Tx.w_get_other t 3 hk).trans h

theorem Tx.giveUp_gives (t : Tx s0) (x : Stim) (p : ℕ × ℕ) (hp : p.2 < 512) : (t.giveUp x p).cur.g 0x5D10 p.2 0x04 = 3 :=
  (t.giveUp_result x p p.2).trans (Tx.w_g_of t (entryAt_ent hp rfl) rfl)

theorem Tx.giveUp_keeps (t : Tx s0) (x : Stim) (p : ℕ × ℕ) : Keeps [.all 0x5D10 [0x04, 0x05, 0x06, 0x07, 0x08, 0x09, 0x0A, 0x0B, 0x0C, 0x0D]] []
    t.cur (t.giveUp x p).cur := by
  unfold Tx.giveUp
  exact .w (.wb (.wb (.step (Tx.measClear_keeps ..) (.w (.refl ..)))))

theorem Tx.giveUps_give (t : Tx s0) (x : Stim) {l : List (ℕ × ℕ)} (hk : k ∈ l.map Prod.snd) (h : k < 512) :
    (t.each l (fun t p => t.giveUp x p)).cur.g 0x5D10 k 0x04 = 3 := by
  obtain ⟨p, hp, rfl⟩ := List.mem_map.mp hk
  exact Tx.each_reaches (P := fun _ => True) (Q := fun u => u.g 0x5D10 p.2 0x04 = 3) (m := p) (fun _ _ _ _ => trivial)
    (fun u _ => u.giveUp_gives x p h) (fun u y hu => u.giveUp_stays x y h hu) l hp trivial

theorem zip_range_snd {α : Type} (l : List α) : ((List.range l.length).zip l).map Prod.snd = l :=
  List.map_snd_zip (by simp)

theorem Tx.abortRun_gives (t : Tx s0) {r : Align} (hr : t.cur.meas.run = some r) :
    t.abortRun.cur.meas = { t.cur.meas with run := none, fading := some (r.stim, t.cur.now) } ∧
      (∀ k ∈ r.stim.outs.drop r.done, k < 512 → t.abortRun.cur.g 0x5D10 k 0x04 = 3) ∧ t.abortRun.cur.g 0x5D00 0 0x0B = 0 ∧
      bit (t.abortRun.cur.g 0x5D00 0 0x14) 1 = true := by
  unfold Tx.abortRun
  rw [hr]
  dsimp only
  have hmeas : (t.setMeas { t.cur.meas with run := none, fading := some (r.stim, t.cur.now) }).cur.meas =
      { t.cur.meas with run := none, fading := some (r.stim, t.cur.now) } := rfl
  generalize t.setMeas _ = u at hmeas ⊢
  rw [← u.taskFree_meas 240] at hmeas
  generalize u.taskFree 240 = u at hmeas ⊢
  have hgive : ∀ k ∈ r.stim.outs.drop r.done, k < 512 → (u.each (((List.range r.stim.outs.length).zip r.stim.outs).drop r.done)
      (fun t p => t.giveUp r.stim p)).cur.g 0x5D10 k 0x04 = 3 := fun k hk h => by
    refine u.giveUps_give r.stim ?_ h
    rw [List.map_drop, zip_range_snd]
    exact hk
  have hkeep : Keeps [.all 0x5D10 [0x04, 0x05, 0x06, 0x07, 0x08, 0x09, 0x0A, 0x0B, 0x0C, 0x0D]] [] u.cur
      (u.each (((List.range r.stim.outs.length).zip r.stim.outs).drop r.done) (fun t p => t.giveUp r.stim p)).cur :=
    .each (fun v p => .step (v.giveUp_keeps r.stim p) (.refl ..)) (.refl ..)
  change ((((u.each _ (fun t p => t.giveUp r.stim p)).w 0x5D00 0 0x0B 0).w 0x5D00 0 0x0D 0xFFFF).flagBit 0x5D00 0 0x14 1).cur.meas = _ ∧
    (∀ k ∈ r.stim.outs.drop r.done, k < 512 → ((((u.each _ (fun t p => t.giveUp r.stim p)).w 0x5D00 0 0x0B 0).w 0x5D00 0 0x0D 0xFFFF).flagBit
      0x5D00 0 0x14 1).cur.g 0x5D10 k 0x04 = 3) ∧
    ((((u.each _ (fun t p => t.giveUp r.stim p)).w 0x5D00 0 0x0B 0).w 0x5D00 0 0x0D 0xFFFF).flagBit 0x5D00 0 0x14 1).cur.g 0x5D00 0 0x0B = 0 ∧
    bit (((((u.each _ (fun t p => t.giveUp r.stim p)).w 0x5D00 0 0x0B 0).w 0x5D00 0 0x0D 0xFFFF).flagBit 0x5D00 0 0x14 1).cur.g 0x5D00 0 0x14) 1 = true
  have hmeas := (hkeep.meas (by simp)).trans hmeas
  generalize u.each _ (fun t p => t.giveUp r.stim p) = v at hgive hmeas ⊢
  refine ⟨?_, fun k hk h => ?_, ?_, ?_⟩
  · rw [((v.w_shown.trans (Tx.w_shown _)).trans (Tx.flagBit_shown _)).meas (by simp), hmeas]
  · rw [Tx.flagBit_skip _ (by decide), Tx.w_skip _ (by decide), Tx.w_skip _ (by decide), hgive k hk h]
  · rw [Tx.flagBit_skip _ (by decide), Tx.w_skip _ (by decide)]
    exact Tx.w_g_of _ (entryAt_ent (by decide : 0 < 1) rfl) rfl
  · exact Tx.flagBit_bit _ (entryAt_ent (by decide : 0 < 1) rfl) rfl rfl rfl

theorem abortRun_aborts (hc : s.clocked = true) {r : Align} (hk : s.writeCheck h (opOf 0x5D00 0 0x0A d) = stOK) (hr : s.meas.run = some r) :
    ∃ t, exec (.abortRun h d) s = .next t ∧ t.meas = { s.meas with run := none, fading := some (r.stim, s.now) } ∧
      (∀ k ∈ r.stim.outs.drop r.done, k < 512 → t.g 0x5D10 k 0x04 = 3) ∧ t.g 0x5D00 0 0x0B = 0 ∧ bit (t.g 0x5D00 0 0x14) 1 = true := by
  change ∃ t, execAbortRun h d s = .next t ∧ _
  unfold execAbortRun
  refine run_to hc _ (guarded_start hk _) fun t ht => ?_
  have hrun : ((Tx.start s).status stOK).cur.meas.run = some r := hr
  have hmeas : ((Tx.start s).status stOK).cur.meas = s.meas := rfl
  have hnow : ((Tx.start s).status stOK).cur.now = s.now := rfl
  generalize (Tx.start s).status stOK = u at ht hrun hmeas hnow
  obtain ⟨hset, hgive, hB, hbit⟩ := u.abortRun_gives hrun
  rw [hmeas, hnow] at hset
  generalize u.abortRun = v at ht hset hgive hB hbit
  refine ⟨?_, fun k hk h => ?_, ?_, ?_⟩
  · rw [ht.meas (by simp), hset]
  · rw [ht.seenG, hgive k hk h]
  · rw [ht.seenG, hB]
  · rw [ht.seenG]
    exact hbit

/-! ## The recorder -/

theorem Tx.freeze_records (t : Tx s0) (h : t.g 0x5D80 0 0x06 = 1) (cause f : ℕ) : t.freeze cause f =
    (t.setMeas { t.cur.meas with post := t.g 0x5D80 0 0x03, cause := cause, frozeAt := f }).w 0x5D80 0 0x06 2 := by
  unfold Tx.freeze
  rw [h]
  rfl

theorem freeze_takes (hc : s.clocked = true) {cause f : ℕ} (hn : s.nextFreeze = some (cause, f)) (h1 : s.g 0x5D80 0 0x06 = 1) :
    ∃ t, exec (.freeze cause) s = .next t ∧ t.g 0x5D80 0 0x06 = 2 ∧
      t.meas = { s.meas with events := s.meas.events.erase (cause, f), post := s.g 0x5D80 0 0x03, cause := cause, frozeAt := f } := by
  change ∃ t, execFreeze cause s = .next t ∧ _
  unfold execFreeze
  rw [hn]
  dsimp only
  refine run_to hc _ (if_neg (by simp)) fun t ht => ?_
  have hmeas : ((Tx.start s).setMeas { s.meas with events := s.meas.events.erase (cause, f) }).cur.meas =
      { s.meas with events := s.meas.events.erase (cause, f) } := rfl
  have hg : ∀ c, ((Tx.start s).setMeas { s.meas with events := s.meas.events.erase (cause, f) }).g 0x5D80 0 c = s.g 0x5D80 0 c := fun c => rfl
  generalize (Tx.start s).setMeas { s.meas with events := s.meas.events.erase (cause, f) } = u at ht hmeas hg
  rw [u.freeze_records ((hg _).trans h1), hg, hmeas] at ht
  have h2 : ∀ x, ((u.setMeas x).w 0x5D80 0 0x06 2).cur.g 0x5D80 0 0x06 = 2 := fun x => Tx.w_g_of _ (entryAt_ent (by decide : 0 < 1) rfl) rfl
  refine ⟨?_, ?_⟩
  · rw [ht.seenG, h2]
  · rw [ht.meas (by simp), (Tx.w_shown _).meas (by simp), Tx.setMeas_meas]

theorem postEnd_freezes (hc : s.clocked = true) (h2 : s.g 0x5D80 0 0x06 = 2) (he : s.meas.frozeAt + s.meas.post ≤ s.now) :
    ∃ t, exec .postEnd s = .next t ∧ t.g 0x5D80 0 0x06 = 3 ∧
      t.g 0x5D80 0 0x08 = max (s.meas.frozeAt + s.meas.post + 1 - s.g 0x5D80 0 0x07) s.meas.recFrom % 2 ^ 64 ∧
      t.g 0x5D80 0 0x09 = (s.meas.frozeAt + s.meas.post) % 2 ^ 64 ∧ t.g 0x5D80 0 0x0A = s.meas.cause % 2 ^ 8 ∧
      t.g 0x5D80 0 0x0B = s.meas.frozeAt % 2 ^ 64 ∧ bit (t.g 0x5D80 0 0x0D) 1 = true := by
  change ∃ t, execPostEnd s = .next t ∧ _
  unfold execPostEnd
  dsimp only
  refine run_to hc _ (if_neg (by simp [h2]; omega)) fun t ht => ?_
  generalize max (s.meas.frozeAt + s.meas.post + 1 - s.g 0x5D80 0 0x07) s.meas.recFrom = m at ht ⊢
  generalize s.meas.frozeAt + s.meas.post = last at ht ⊢
  generalize Tx.start s = u at ht
  refine ⟨?_, ?_, ?_, ?_, ?_, ?_⟩
  · rw [ht.seenG, Tx.flagBit_skip _ (by decide), Tx.w_skip _ (by decide), Tx.w_skip _ (by decide), Tx.w_skip _ (by decide), Tx.w_skip _ (by decide)]
    exact Tx.w_g_of _ (entryAt_ent (by decide : 0 < 1) rfl) rfl
  · rw [ht.seenG, Tx.flagBit_skip _ (by decide), Tx.w_skip _ (by decide), Tx.w_skip _ (by decide), Tx.w_skip _ (by decide)]
    exact Tx.w_get_same (i := 0x5D80) (b := 0x08) _ _ (entryAt_ent (by decide : 0 < 1) rfl)
  · rw [ht.seenG, Tx.flagBit_skip _ (by decide), Tx.w_skip _ (by decide), Tx.w_skip _ (by decide)]
    exact Tx.w_get_same (i := 0x5D80) (b := 0x09) _ _ (entryAt_ent (by decide : 0 < 1) rfl)
  · rw [ht.seenG, Tx.flagBit_skip _ (by decide), Tx.w_skip _ (by decide)]
    exact Tx.w_get_same (i := 0x5D80) (b := 0x0A) _ _ (entryAt_ent (by decide : 0 < 1) rfl)
  · rw [ht.seenG, Tx.flagBit_skip _ (by decide)]
    exact Tx.w_get_same (i := 0x5D80) (b := 0x0B) _ _ (entryAt_ent (by decide : 0 < 1) rfl)
  · rw [ht.seenG]
    exact Tx.flagBit_bit _ (entryAt_ent (by decide : 0 < 1) rfl) rfl rfl rfl

theorem Tx.recDiscard_meas (t : Tx s0) : t.recDiscard.cur.meas = { t.cur.meas with ring := [], events := [] } := by
  unfold Tx.recDiscard
  exact ((((Tx.w_shown _).trans (Tx.w_shown _)).trans (Tx.w_shown _)).trans (Tx.w_shown _)).meas (by simp)

theorem Tx.recBegin_begins (t : Tx s0) (B : ℕ) : (t.recBegin B).cur.g 0x5D80 0 0x06 = 1 ∧
    (t.recBegin B).cur.meas = { t.cur.meas with ring := [], events := [], recFrom := B } := by
  unfold Tx.recBegin
  have hmeas := t.recDiscard_meas
  generalize t.recDiscard = u at hmeas ⊢
  refine ⟨(Tx.setMeas_get ..).trans (Tx.w_g_of _ (entryAt_ent (by decide : 0 < 1) rfl) rfl), ?_⟩
  rw [Tx.setMeas_meas, hmeas]

theorem rearm_records (hc : s.clocked = true) (hk : s.writeCheck h (opOf 0x5D80 0 0x05 d) = stOK) (h3 : s.g 0x5D80 0 0x06 = 3) :
    ∃ t, exec (.rearm h d) s = .next t ∧ t.g 0x5D80 0 0x06 = 1 ∧ t.meas = { s.meas with ring := [], events := [], recFrom := nextBlock s.now } := by
  change ∃ t, execRearm h d s = .next t ∧ _
  unfold execRearm
  refine run_to hc _ (guarded_start hk _) fun t ht => ?_
  have h3 : ((Tx.start s).status stOK).g 0x5D80 0 0x06 = 3 := h3
  have hmeas : ((Tx.start s).status stOK).cur.meas = s.meas := rfl
  have hnow : ((Tx.start s).status stOK).cur.now = s.now := rfl
  unfold rearmRule at ht
  generalize (Tx.start s).status stOK = u at ht h3 hmeas hnow
  rw [h3, if_neg (by decide), hnow] at ht
  obtain ⟨h1, hrec⟩ := u.recBegin_begins (nextBlock s.now)
  rw [hmeas] at hrec
  generalize u.recBegin (nextBlock s.now) = v at ht h1 hrec
  exact ⟨by rw [ht.seenG, h1], by rw [ht.meas (by simp), hrec]⟩

/-- Settles O38. -/
theorem runsComplete : Obligations.RunsComplete := by
  unfold Obligations.RunsComplete
  exact ⟨fun s hc => ⟨fun _ _ _ hn hk hd ho he => openOutput_opens hc hn hk hd ho he, fun _ _ _ _ hn hk hd ho he => closeOutput_closes hc hn hk hd ho he,
    fun _ _ hk hb ho hm hd => startRun_starts hc hk hb ho hm hd, fun _ _ hr ho hk hS => stimulusStart_plays hc hr ho hk hS,
    fun _ _ _ hr hcaps hk hend hp => captureAnalysis_analyses hc hr hcaps hk hend hp, fun _ hr hd => runDone_ends hc hr hd,
    fun _ _ _ hk hr => abortRun_aborts hc hk hr⟩, fun s hc => ⟨fun _ _ hn h1 => freeze_takes hc hn h1, fun h2 he => postEnd_freezes hc h2 he,
    fun _ _ hk h3 => rearm_records hc hk h3⟩⟩

end Sys2Proof.Machine
end

section
/-! PROOFS. A wake from STANDBY: a copy of the system area that lists the wake cause brings its own value back, as the boot takes
the copy after the wake has written the cause. -/

namespace Sys2Proof.Machine
open Sys2Proof

set_option Elab.async false

variable {s0 : State} {b : BootIn} {i n c k : ℕ}

/-! ## A boot that ends at stage 2 -/

theorem Tx.stageEnd_g (t : Tx s0) (k : ℕ) (pll : Bool) (hi : i ≠ 0x6401) : (t.stageEnd k pll).cur.g i n c = t.cur.g i n c := by
  unfold Tx.stageEnd
  dsimp only
  rw [Tx.setPower_g, Tx.w_skip _ (.inl hi.symm)]
  rfl

theorem Tx.stageEnd_stage (t : Tx s0) (k : ℕ) (pll : Bool) : (t.stageEnd k pll).cur.power.stage = k := rfl

/-- A stage from 3 on does not run where the boot hangs in stage 3. -/
theorem Tx.stageRun_stays (t : Tx s0) (hb : b.failAt = some 3) (hs : t.cur.power.stage ≤ 2) (hk : 3 ≤ k) (pll : Bool) (act : Tx s0 → Tx s0) :
    t.stageRun k pll b act = t := by
  unfold Tx.stageRun
  refine if_pos ?_
  rw [hb]
  by_cases h : k = 3
  · simp [h]
  · have : t.cur.power.stage + 1 ≠ k := by omega
    simp [this]

/-- A boot up to the end of stage 2. -/
def Tx.bootEarly (t : Tx s0) (b : BootIn) (kind : ℕ) (asked : Bool) : Tx s0 :=
  ((((t.traceLow.w 0x6A00 0 0x1E 0).emit (.pin "DRAM_RESET_N" 0)).bankLevels b kind).stageRun 1 (kind != 0) b id).stageRun 2 (kind != 0) b
    (fun t => t.stage2 b asked)

theorem Tx.when_false (t : Tx s0) (f : Tx s0 → Tx s0) : t.when false f = t := rfl

theorem Tx.boot_hangs (t : Tx s0) (hb : b.failAt = some 3) (kind : ℕ) (asked : Bool) (hs : (t.bootEarly b kind asked).cur.power.stage ≤ 2) :
    t.boot b kind asked = (t.bootEarly b kind asked).setResult ⟨none, []⟩ := by
  unfold Tx.boot
  dsimp only
  rw [show ((((t.traceLow.w 0x6A00 0 0x1E 0).emit (.pin "DRAM_RESET_N" 0)).bankLevels b kind).stageRun 1 (kind != 0) b id).stageRun 2
    (kind != 0) b (fun t => t.stage2 b asked) = t.bootEarly b kind asked from rfl]
  generalize t.bootEarly b kind asked = u at hs ⊢
  have h7 : (u.cur.power.stage == 7) = false := beq_eq_false_iff_ne.mpr (by omega)
  have hend : u.bootEnd b = u := if_pos (bne_iff_ne.mpr (by omega))
  rw [u.stageRun_stays hb hs (by decide), u.stageRun_stays hb hs (by decide), u.stageRun_stays hb hs (by decide), u.stageRun_stays hb hs (by decide),
    u.stageRun_stays hb hs (by decide), h7, Tx.when_false, u.stageRun_stays hb hs (by decide), u.stageRun_stays hb hs (by decide), h7,
    Bool.false_and, Tx.when_false, u.stageRun_stays hb hs (by decide), u.stageRun_stays hb hs (by decide), u.stageRun_stays hb hs (by decide), hend]

/-! ## The wake cause -/

/-- The log of the boot is empty, and the wake cause is v. -/
structure CauseIs (v : ℕ) (s : State) : Prop where
  log : s.g 0x6402 0 0x09 = 0
  cause : s.g 0x6502 0 0x03 = v
  stage : s.power.stage ≤ 2

theorem CauseIs.keeps {v : ℕ} {l : List Span} {M : List Part} {a b : State} (h : CauseIs v a) (hk : Keeps l M a b)
    (hl : apart l 0x6402 0x09 = true := by decide) (hc : apart l 0x6502 0x03 = true := by decide) (hM : Part.power ∉ M := by decide) :
    CauseIs v b := ⟨(hk.gOf hl).trans h.log, (hk.gOf hc).trans h.cause, by rw [hk.power hM]; exact h.stage⟩

theorem CauseIs.stageEnd {v : ℕ} {t : Tx s0} (h : CauseIs v t.cur) (hk : k ≤ 2) (pll : Bool) : CauseIs v (t.stageEnd k pll).cur :=
  ⟨(t.stageEnd_g k pll (by decide)).trans h.log, (t.stageEnd_g k pll (by decide)).trans h.cause, hk⟩

/-- The first record of the log leaves the wake cause. -/
theorem Tx.logAdd_cause (t : Tx s0) {v : ℕ} (h : CauseIs v t.cur) (kind id ver : ℕ) (x : Bytes) :
    (t.logAdd kind id ver x).cur.g 0x6502 0 0x03 = v ∧ (t.logAdd kind id ver x).cur.power.stage ≤ 2 := by
  unfold Tx.logAdd
  have hlog : t.g 0x6402 0 0x09 = 0 := h.log
  dsimp only
  rw [hlog]
  refine ⟨?_, ?_⟩
  · rw [Tx.wb_g, Tx.w_skip _ (by decide), Tx.wb_g, Tx.w_skip _ (by decide), Tx.w_skip _ (by decide), Tx.w_skip _ (by decide), h.cause]
  · rw [(((((((t.w_shown).trans (Tx.w_shown _)).trans (Tx.w_shown _)).trans (Tx.wb_shown ..)).trans (Tx.w_shown _)).trans (Tx.wb_shown ..)).power
      (by simp) : _ = t.cur.power)]
    exact h.stage

theorem Tx.powerTo_stage (t : Tx s0) (st cause : ℕ) : (t.powerTo st cause).cur.power.stage = t.cur.power.stage := by
  unfold Tx.powerTo
  dsimp only
  split
  · rfl
  · generalize hu : Tx.setPower _ _ = u
    have hs : u.cur.power.stage = t.cur.power.stage := by
      rw [← hu]
      rfl
    rw [← hs]
    exact congrArg Power.stage (Kept.power (M := []) (E := fun _ => True) (.msg (.wKey (.tallyKey (.wKey (.wKey (.refl ..) trivial) trivial) trivial)
      trivial)) (by simp))

/-- What a boot leaves that has entered RECOVERY in stage 2. -/
structure CauseStays (v : ℕ) (s : State) : Prop where
  cause : s.g 0x6502 0 0x03 = v
  stage : s.power.stage ≤ 2

theorem CauseIs.stays {v : ℕ} {s : State} (h : CauseIs v s) : CauseStays v s := ⟨h.cause, h.stage⟩

theorem CauseStays.keeps {v : ℕ} {l : List Span} {M : List Part} {a b : State} (h : CauseStays v a) (hk : Keeps l M a b)
    (hc : apart l 0x6502 0x03 = true := by decide) (hM : Part.power ∉ M := by decide) : CauseStays v b :=
  ⟨(hk.gOf hc).trans h.cause, by rw [hk.power hM]; exact h.stage⟩

theorem CauseStays.stageEnd {v : ℕ} {t : Tx s0} (h : CauseStays v t.cur) (hk : k ≤ 2) (pll : Bool) : CauseStays v (t.stageEnd k pll).cur :=
  ⟨(t.stageEnd_g k pll (by decide)).trans h.cause, hk⟩

theorem CauseIs.recoveryEnter {v : ℕ} {t : Tx s0} (h : CauseIs v t.cur) (b : BootIn) (mode : ℕ) : CauseStays v (t.recoveryEnter b mode).cur := by
  unfold Tx.recoveryEnter
  have hw : CauseIs v ((t.w 0x6400 0 0x01 mode).w 0x6400 0 0x11 3).cur := h.keeps (l := [.all 0x6400 [0x01, 0x11]]) (M := []) (.w (.w (.refl ..)))
  generalize (t.w 0x6400 0 0x01 mode).w 0x6400 0 0x11 3 = u at hw ⊢
  have hp : CauseIs v (u.powerTo 3 4).cur := ⟨((Tx.powerTo_keeps u 3 4).gOf rfl).trans hw.log, ((Tx.powerTo_keeps u 3 4).gOf rfl).trans hw.cause,
    by rw [u.powerTo_stage]; exact hw.stage⟩
  generalize u.powerTo 3 4 = u at hp ⊢
  obtain ⟨hc, hs⟩ := u.logAdd_cause hp 0 0 0 (fitBytes 48 (Config.partBytes 3))
  generalize u.logAdd 0 0 0 (fitBytes 48 (Config.partBytes 3)) = u at hc hs ⊢
  exact CauseStays.keeps ⟨hc, hs⟩ (l := [.all 0x1000 [0x02, 0x03], .all 0x1001 [0x07]]) (M := []) (.w (.w (.wb (.refl ..))))

theorem CauseIs.stage2 {v : ℕ} {t : Tx s0} (h : CauseIs v t.cur) (b : BootIn) (asked : Bool) : CauseStays v (t.stage2 b asked).cur := by
  unfold Tx.stage2
  extract_lets mode p u word w x y z
  have hu : CauseIs v u.cur := ⟨h.log, h.cause, h.stage⟩
  have hz : CauseIs v z.cur := hu.keeps (l := [.all 0x0002 [0x01, 0x02, 0x03, 0x04, 0x05, 0x06, 0x08, 0x09], .all 0x6603 [0x08],
    .all 0x6400 [0x04, 0x05]]) (M := []) (.w (.w (.w (.w (.w (.w (.w (.w (.w (.w (.w (.refl ..))))))))))))
  split
  · exact hz.recoveryEnter b 2
  · split
    · exact (hz.recoveryEnter b 1).keeps (l := [.all 0x6400 [0x08]]) (M := []) (.when (fun _ => .w (.refl ..)) (.refl ..))
    · exact hz.stays

theorem CauseIs.bootEarly {v : ℕ} {t : Tx s0} (h : CauseIs v t.cur) (b : BootIn) (kind : ℕ) (asked : Bool) :
    CauseStays v (t.bootEarly b kind asked).cur := by
  unfold Tx.bootEarly
  have hw : CauseIs v ((t.traceLow.w 0x6A00 0 0x1E 0).emit (.pin "DRAM_RESET_N" 0)).cur :=
    h.keeps (l := [.all 0x6A00 [0x1E]]) (M := [.outs]) (.emit (.w (.emit (.emit (.refl ..)))))
  generalize (t.traceLow.w 0x6A00 0 0x1E 0).emit (.pin "DRAM_RESET_N" 0) = u at hw ⊢
  have hb : CauseIs v (u.bankLevels b kind).cur := by
    unfold Tx.bankLevels
    dsimp only
    generalize (if (kind == 0) = true then ioLevels b else u.cur.power.straps.io) = io
    have hs : CauseIs v (u.setPower { u.cur.power with straps := { u.cur.power.straps with io := io } }).cur := ⟨hw.log, hw.cause, hw.stage⟩
    generalize u.setPower { u.cur.power with straps := { u.cur.power.straps with io := io } } = w at hs ⊢
    exact hs.keeps (l := [.all 0x0002 [0x07]]) (M := []) (.w (.refl ..))
  generalize u.bankLevels b kind = u at hb ⊢
  have h1 : CauseIs v (u.stageRun 1 (kind != 0) b id).cur := by
    unfold Tx.stageRun
    split
    · exact hb
    · exact hb.stageEnd (by decide) _
  generalize u.stageRun 1 (kind != 0) b id = u at h1 ⊢
  unfold Tx.stageRun
  split
  · exact h1.stays
  · exact (h1.stage2 b asked).stageEnd (by decide) _

/-! ## The refutation -/

/-- In STANDBY, with copy 1 of the system area the only one that is valid, which lists the wake cause. -/
def listedCauseState : State :=
  { State.reset with
    power := { State.reset.power with
      standby := true
      sys0 := { State.reset.power.sys0 with valid := false }
      sys1 := { State.reset.power.sys1 with valid := true, vals := [(K 0x6502 0 0x03, 7)] } } }

/-- A boot into RECOVERY by its straps; it would hang in stage 3. -/
def strapBoot : BootIn := ⟨1, false, true, true, [], 0, some 3, [], [], 0⟩

/-- What a wake writes before the reset. -/
def Tx.wakeNoted (t : Tx s0) (cause mac pattern secs : ℕ) : Tx s0 :=
  let seen := t.cur.power.examined + b2n (cause ≤ 2)
  let t := ((t.w 0x6502 0 0x03 cause).w 0x6502 0 0x04 (if cause ≤ 2 then mac else 0xFF)).w 0x6502 0 0x05
    (if cause == 2 then pattern else 0xFF)
  (((t.tally 0x6502 0 0x06).w 0x6502 0 0x07 secs).w 0x6502 0 0x09 seen).flagBit 0x6502 0 0x0B 0

/-- The reset of a wake has cleared what it clears. -/
def Tx.wakeCleared (t : Tx s0) (cause mac pattern secs : ℕ) (b : BootIn) : Tx s0 :=
  ((((t.wakeNoted cause mac pattern secs).mramCut).systemChoose b).deviceClear 0 6 true)

theorem Tx.wakeUp_boots (t : Tx s0) (cause mac pattern secs : ℕ) (b : BootIn) : t.wakeUp cause mac pattern secs b =
    ((((t.wakeCleared cause mac pattern secs b).boot b 0 false).sysSave).flagBit 0x6500 0 0x15 3).when
      (!((((t.wakeCleared cause mac pattern secs b).boot b 0 false).sysSave).flagBit 0x6500 0 0x15 3).cur.romOnly)
      (fun t => t.w 0x6500 0 0x14 3) := rfl

/-- A wake brings the value of the entry back that the boot finds in the system area, where it hangs in stage 3. -/
theorem Tx.wakeUp_cause (t : Tx s0) {v cause mac pattern secs : ℕ} (hb : b.failAt = some 3)
    (h : CauseIs v (t.wakeCleared cause mac pattern secs b).cur) : (t.wakeUp cause mac pattern secs b).cur.g 0x6502 0 0x03 = v := by
  rw [t.wakeUp_boots]
  generalize t.wakeCleared cause mac pattern secs b = u at h ⊢
  obtain ⟨hcause, hstage⟩ := h.bootEarly b 0 false
  rw [u.boot_hangs hb 0 false hstage]
  have hset : ((u.bootEarly b 0 false).setResult ⟨none, []⟩).cur.g 0x6502 0 0x03 = v := hcause
  generalize (u.bootEarly b 0 false).setResult ⟨none, []⟩ = w at hset ⊢
  have hkeep : Keeps [.all 0x6500 [0x14, 0x15]] [] w.sysSave.cur
      ((w.sysSave.flagBit 0x6500 0 0x15 3).when (!(w.sysSave.flagBit 0x6500 0 0x15 3).cur.romOnly) (fun t => t.w 0x6500 0 0x14 3)).cur :=
    .when (fun _ => .w (.refl ..)) (.flagBit (.refl ..))
  exact (hkeep.gOf rfl).trans ((w.sysSave_g rfl).trans hset)

theorem listedCauseState_cause : CauseIs 7 ((Tx.start listedCauseState).wakeCleared 5 0 0 0 strapBoot).cur :=
  ⟨by decide +kernel, by decide +kernel, by decide +kernel⟩

/-- Refutes O43: RESET_N in STANDBY writes the wake cause 5, and the boot takes the copy of the system area, which lists 7. No save
lists that entry, but the statement is about every state. -/
theorem not_resetsComplete : ¬ Obligations.ResetsComplete := by
  unfold Obligations.ResetsComplete
  intro h
  obtain ⟨-, -, -, -, -, hpin, -⟩ := h listedCauseState strapBoot (.inl rfl) (by decide) (by decide)
  obtain ⟨t, ht, -, h5⟩ := hpin rfl rfl
  obtain ⟨u, hu, hk⟩ := runAlways_next (s := listedCauseState) fun t =>
    if listedCauseState.power.supplyDown then t else if listedCauseState.power.standby then t.wakeUp 5 0 0 0 strapBoot else t.deviceReset 1 1 true strapBoot
  have hsame : t = u := by
    have : Host.Outcome.next t = Host.Outcome.next u := ht.symm.trans hu
    exact Host.Outcome.next.inj this
  have h7 : u.g 0x6502 0 0x03 = 7 := by
    rw [hk.seenG]
    rw [if_neg (show ¬ listedCauseState.power.supplyDown = true by decide), if_pos (show listedCauseState.power.standby = true by decide)]
    exact (Tx.start listedCauseState).wakeUp_cause rfl listedCauseState_cause
  rw [hsame, h7] at h5
  exact absurd h5 (by decide)

end Sys2Proof.Machine
end
